-- ==== Sys2Proof/Word.lean ====
section
/-!
DEFINITION. The machine's word and byte: every register of the device is 32 bits wide (R4's chapter, "Registers and access
codes"), and every structure it reads or writes is a string of bytes (R9).
-/

namespace Sys2Proof

/-- A register's contents. -/
abbrev Word := BitVec 32

/-- One byte of a descriptor, barge, frame or memory. -/
abbrev Byte := BitVec 8

end Sys2Proof
end

