-- ==== Sys2Proof/Syntax.lean ====
section
/-!
DEFINITION. The commands of the block: one constructor for every row of the table of operations and events, with the operands
the event carries in from outside (which unit, which path, what arrived). Everything else an event needs is in the state.

Marked choices (log entries): DESIGN CHOICE 63. Each entry of notes/assumptions says safe or unsafe.
-/

namespace Sys2Proof

/-- How an access reaches the registers: PF0's BARs (agent HOST), the MGMT window of PF1 and the SMBus target (agent MGMT),
the Pokeind monitor (MON), the KX PEER path (PEER) and the lock-keeper firmware (R361, R680). -/
inductive Path where
  | pf0 | mgmt | smbus | mon | peer | fw
deriving DecidableEq, Repr

/-- A barge: the 64-byte header of Table 10-1 as its fields, and the payload (R314). `stamp` is in 2^-16 ns since the
epoch; TYPE, FLAGS and the words are as the tables of chapter 10 number them; VERSION is always 0x01, bytes 56–59 are 0,
LENGTH is the payload's length and CRC is computed when the barge is put into bytes (R324). `bad`, which is in none of its bytes, tells
which ranges of the payload (first byte, one past the last) were read from poisoned lines (R359). -/
structure Barge where
  type : Nat
  flags : Nat := 0
  stream : Nat
  source : Nat
  seq : Nat := 0
  stamp : Nat := 0
  qual : Nat := 0
  format : Nat := 0
  word40 : Nat := 0
  word48 : Nat := 0
  payload : List Byte := []
  bad : List (Nat × Nat) := []
deriving DecidableEq, Repr

/-- What the compare of two stored copies of a pointer, link word or tag finds (R417, R418): both agree; exactly one passes
its parity; neither can be trusted. -/
inductive CopyRead where
  | agree | onePasses | lost
deriving DecidableEq, Repr

/-- What a read of one ring entry returned: its bytes, or a bus error with its reason (Table 12-8). -/
inductive FetchResult where
  | entry (bytes : List Byte)
  | failed (reason : Nat)
deriving DecidableEq, Repr

/-- Which of the device's own reads a completion, a poisoned completion or a timeout concerns: the entries of a ring, the
tally page, the table or image of an accepted order, the running move of a channel with the line of the move (64 bytes each from its
start) that it fetched, the staged firmware image. -/
inductive ReadOf where
  | entries (x : Fin 114)
  | tally
  | order (ring index : Nat)
  | move (c : Fin 32) (line : Nat)
  | image
deriving DecidableEq, Repr

/-- A poisoned TLP received (R360): a write to a BAR of a function, or a completion to one of the device's reads. -/
inductive PoisonedTlp where
  | barWrite (fn : Fin 2)
  | completion (r : ReadOf)
deriving DecidableEq, Repr

/-- The control bits of configuration space that the rules speak of (R344, R347–R351, R352). -/
inductive CfgWrite where
  | memSpace (on : Bool)
  | busMaster (on : Bool)
  | msixEnable (on : Bool)
  | msixMask (on : Bool)
  | maxPayload (code : Fin 4)
  | maxReadRequest (code : Fin 6)
  | relaxedOrdering (on : Bool)
  | tag10 (on : Bool)
  | completionTimeout (code : Fin 16)
  | completionTimeoutOff (on : Bool)
  | bar (i : Fin 6) (w : Word)
deriving DecidableEq, Repr

/-- The straps as sampled at POR_L release (Table 23-4), and the TEST_EN ball. -/
structure Straps where
  boot : Fin 4 := 0
  slot : Fin 16 := 0
  refMaster : Bool := false
  monEn : Bool := false
  pcieW : Fin 4 := 0
  testEn : Bool := false
deriving DecidableEq, Repr

/-- Who frees a cell (R425, R426): a consumer other than a calender unit, or calender unit `u`. -/
inductive FreeAgent where
  | consumer
  | unit (u : Fin 16)
deriving DecidableEq, Repr


/-- A calibration measurement of one trim of a slice (R78, R79): the first, the repeat and the third measurement (used only
where the first two disagree), and whether the self-test comparator reported a stuck decision (R91). -/
structure Measure where
  slice : Fin 17
  code : Fin 31
  a : Int
  b : Int
  c : Int := 0
  stuck : Bool := false
deriving DecidableEq, Repr


/-- One populated memory channel as its configuration source describes it (R286, Table 09-6): ranks (0 one, 1 two), device width
(0 x4, 1 x8), density (0 16 Gb, 1 24 Gb, 2 32 Gb), capacity in GiB. -/
structure MemGeom where
  ranks : Fin 2
  width : Fin 2
  density : Fin 3
  gib : Fin 129
deriving DecidableEq, Repr

/-- The board's memory (R286, R287): RDIMM or memory-down, the highest data rate that every channel and its configuration source
allow (0–4 as SPEED_MAX codes it), and the populated channels. -/
structure MemBoard where
  rdimm : Bool
  limit : Fin 5
  channels : List (Fin 6 × MemGeom)
deriving DecidableEq, Repr

/-- What a line of a pound holds (R298–R300): bytes of the payload of the barge with a number, at an offset; one of that barge's
two header copies; bytes of a STORE pound at an offset; or nothing that is kept. -/
inductive LineUse where
  | payload (number offset : Nat)
  | header (number : Nat) (copy : Fin 2)
  | store (offset : Nat)
  | unused
deriving DecidableEq, Repr

/-- What a read of a line finds (R298): no error, a correctable one, an uncorrectable one. -/
inductive LineRead where
  | clean | corrected | uncorrectable
deriving DecidableEq, Repr

/-- An error met by a demand read of a barge or of a STORE pound: the channel, whether it was correctable, what the line holds. -/
structure LineErr where
  channel : Fin 6
  correctable : Bool
  use : LineUse
deriving DecidableEq, Repr

/-- A namespace as Identify reports it (R439, R440): its NSID, its LBA format (0: 512 bytes, 1: 4,096 bytes, both with no metadata; 2:
any other), its capacity in LBAs. -/
structure NvmeNs where
  nsid : Word
  format : Fin 3
  cap : BitVec 64
deriving DecidableEq, Repr

/-- How a drive's enumeration and initialisation go on (Table 14-1): its class is read, the right one or another; it is initialised,
with its CAP.TO, MDTS in KiB and namespaces; or a timeout or an admin command error ends it. -/
inductive DriveInit where
  | class_ (nvme : Bool)
  | ready (capTo : BitVec 8) (mdtsKib : Nat) (ns : List NvmeNs)
  | failed
deriving DecidableEq, Repr

/-- A Read, Flush or Dataset Management command of a drive that completes (R448, R451, R452): the present Read of an NVME_READ with
its data, the deallocation of an NVME_TRIM, the Flush of a stopping recording on a member slot. -/
inductive NvmeDone where
  | read (ring index : Nat) (data : List Byte)
  | trim (ring index : Nat)
  | flush (r : Fin 8) (slot : Fin 8)
deriving DecidableEq, Repr


/-- A probe frame received (R482): its CHAN, GSEQ, AUX8, WORD, STAMP and payload; for a NETS frame, the rows that its first
cycle shows to be missing before it. -/
structure ProbeFrame where
  chan : Fin 256
  gseq : Fin 65536
  aux : Fin 256 := 0
  word : BitVec 64
  stamp : BitVec 96 := 0
  payload : List Byte := []
  lost : Nat := 0
deriving DecidableEq, Repr

/-- A remote trigger as it travels over the Kavaxel links (R550–R554): the DEVID of the sending device and its number there, RT,
the words T_f and T_x, the slot at which it entered the board, where it goes (BOARD, OFFB, AKW), whether it is equalised, its
Akwaune SEQ, and, for one taken in from an Akwaune frame, the frame's DUE. -/
structure KxTrigger where
  src : Fin 262144
  seq : Nat
  rt : Fin 16
  tf : BitVec 96
  tx : BitVec 96
  entry : Fin 16
  board : Bool := false
  offb : Bool := false
  akw : Bool := false
  eq : Bool := false
  akwSeq : BitVec 32 := 0
  due : Option (BitVec 96) := none
deriving DecidableEq, Repr

/-- A time beacon (R544): the root's DEVID, the slot at which it entered the board, the root's TIME96 at its departure, the root's
INC and TIME_STATUS.STATE, and the pending steps with the TIME96 of their step ticks. -/
structure KxBeacon where
  root : Fin 262144
  entry : Fin 16
  depart : BitVec 96
  inc : Word
  state : Fin 8
  steps : List (BitVec 96 × Int) := []
deriving DecidableEq, Repr

/-- A firmware image (R586): its 512-byte header, and what the three checks that rest on published standards find: the SHA-384 of PUBKEY
equals the fused hash of KEYID and the key is not revoked; the ECDSA P-384 signature of bytes 0–383 holds; every segment's SHA-384
equals its SEG_HASH. -/
structure FwImage where
  head : List Byte
  keyOk : Bool := true
  sigOk : Bool := true
  hashOk : Bool := true
deriving DecidableEq, Repr

/-- What the flash part holds when the device boots from it (Table 20-2): the two copies of the boot record, the images of slots A and B, where
there are any. -/
structure FlashPart where
  rec0 : List Byte := []
  rec1 : List Byte := []
  slotA : Option FwImage := none
  slotB : Option FwImage := none
deriving DecidableEq, Repr

/-- A command: an operation on the block or an event that reaches it. Each constructor's docstring is the spec's own line
for the row, with the rule that governs it. -/
inductive Instr where
  /-- REGISTER_WRITE (R361): A write to a register that has no row of its own stores its fields when the writing agent holds the token, and is dropped otherwise. -/
  | registerWrite (p : Path) (key : Nat) (w : Word)
  /-- BAR_ACCESS_VIOLATION (R345): A BAR access that is not one whole aligned DW is completed with Unsupported Request if it is a read, or dropped if it is a write. -/
  | barAccessViolation (key size : Nat) (contiguous write : Bool)
  /-- CONV_SYNC_T0_READ (R680): A read of CONV_SYNC_T0 latches CONV_SYNC_T1 and CONV_SYNC_T2 for the reading path. -/
  | convSyncT0Read (p : Path)
  /-- ADC_SCNT_LO_READ (R680): A read of ADC_SCNT_LO(n) latches ADC_SCNT_HI(n). -/
  | adcScntLoRead (p : Path) (n : Fin 4)
  /-- QUEUE_TEARBASE0_READ (R680): A read of QUEUE_TEARBASE0 latches QUEUE_TEARBASE1 and QUEUE_TEARBASE2. -/
  | queueTearbase0Read (p : Path)
  /-- NVME_SLOT_CAP_READ (R680): A read of the low word of NVME_SLOT_CAP(j) latches the high word. -/
  | nvmeSlotCapRead (p : Path) (j : Fin 8)
  /-- NVME_REC_CHUNK_READ (R680): A read of the low word of NVME_REC_CHUNK(r) latches the high word. -/
  | nvmeRecChunkRead (p : Path) (r : Fin 8)
  /-- NVME_REC_TREC_READ (R680): A read of the first word of NVME_REC_TREC(r) latches the other two words. -/
  | nvmeRecTrecRead (p : Path) (r : Fin 8)
  /-- SG_T0_READ (R680): A read of SG_T0(g) latches SG_T1(g) and SG_T2(g). -/
  | sgT0Read (p : Path) (g : Fin 8)
  /-- SG_PLAYED_LO_READ (R680): A read of SG_PLAYED_LO(g) latches SG_PLAYED_HI(g). -/
  | sgPlayedLoRead (p : Path) (g : Fin 8)
  /-- TIME_NOW0_READ (R522): A read of TIME_NOW0 latches the interpolated present TIME96 into TIME_NOW1 and TIME_NOW2. -/
  | timeNow0Read (p : Path) (sub : Fin 2621440)
  /-- ETH_TXT0_READ (R680): A read of ETH_TXT0(t) latches the T1 and T2 words of the same buffer. -/
  | ethTxt0Read (p : Path) (t : Fin 2)
  /-- ETH_RXT0_READ (R680): A read of ETH_RXT0(r) latches the T1 and T2 words of the same slot. -/
  | ethRxt0Read (p : Path) (r : Fin 6)
  /-- MGMT_DATA_READ (R680): A read of MGMT_DATA reads PF0 BAR0 at MGMT_ADDR as agent MGMT, with that register's own read effects. -/
  | mgmtDataRead (p : Path)
  /-- MGMT_DATA_WRITE (R681): A write of MGMT_DATA writes PF0 BAR0 at MGMT_ADDR as agent MGMT, under the token rules. -/
  | mgmtDataWrite (p : Path) (w : Word)
  /-- PLAN_LOAD (R38): The order validates every parameter and stores the set-up of a plan in EMPTY or LOADED. -/
  | planLoad
  /-- PLAN_START (R26): The order assigns the plan its lanes and wakes them, or completes with NO_LANES, NO_SOURCE, BAD_PARAM or STATE. -/
  | planStart
  /-- PLAN_STOP (R34): The order cancels an ARMED plan, or stops a RUNNING plan after the sheet in flight and reports the sheet count. -/
  | planStop
  /-- PLAN_UNLOAD (R39): The order returns a LOADED plan to EMPTY, and completes STATE in any other state. -/
  | planUnload
  /-- PLAN_START_DUE (R35): An ARMED plan whose start time has been reached with its lanes ready enters RUNNING and completes PLAN_START OK or LATE. -/
  | planStartDue (p : Fin 64)
  /-- PLAN_STOP_DUE (R34): A timed PLAN_STOP reaches its time and stops the plan at its granule. -/
  | planStopDue (ring index : Nat)
  /-- LANE_WAKE_DONE (R156): A waking lane becomes ready 4 µs after its wake began and serves its slot or becomes a spare. -/
  | laneWakeDone (l : Fin 18)
  /-- CONV_REFBUF_WRITE (R57): A write to CONV_REFBUF enables or disables reference buffers, and clearing the enable of a converter that is not OFF forces that converter OFF. -/
  | convRefbufWrite (p : Path) (w : Word)
  /-- REF_RDY (R56): A reference buffer that has been enabled for 5 ms is reported ready. -/
  | refRdy (k : Fin 8)
  /-- ADC_ON (R58): A write of ADC_CTL(n).ON = 1 takes an OFF converter to WAKING, or withdraws a held gating request. -/
  | adcOn (p : Path) (n : Fin 4)
  /-- ADC_OFF (R63): A write of ADC_CTL(n).ON = 0 gates the converter at its granule, or holds the request while a dependent flight climbs. -/
  | adcOff (p : Path) (n : Fin 4)
  /-- CONVERTER_WAKE_DONE (R58): A WAKING converter whose 40 µs have elapsed with its buffer ready enters IDLE and begins calibration. -/
  | converterWakeDone (k : Fin 8)
  /-- DAC_ON (R58): A write of DAC_CTL(n).ON = 1 powers and wakes the DAC. -/
  | dacOn (p : Path) (n : Fin 4)
  /-- DAC_OFF (R54): A write of DAC_CTL(n).ON = 0 gates the DAC and clears any protective mute. -/
  | dacOff (p : Path) (n : Fin 4)
  /-- ADC_ARM (R59): A write of ADC_START(n).ARM latches the start settings and arms an IDLE converter, or is refused with START_ERR. -/
  | adcArm (p : Path) (n : Fin 4) (w : Word)
  /-- ADC_DISARM (R62): A write of ADC_START(n).DISARM cancels an arm, or stops acquisition at the end of the granule in progress. -/
  | adcDisarm (p : Path) (n : Fin 4) (w : Word)
  /-- START_INSTANT (R59): An ARMED converter reaches its start instant, enters ACQUIRING and records the first-sample counter. -/
  | startInstant (n : Fin 4)
  /-- FIRST_ACQUIRED_SAMPLE (R59): The sample D positions after the start instant arrives and release of samples begins. -/
  | firstAcquiredSample (n : Fin 4) (x : Int)
  /-- GRANULE_STOP (R62): A stopping converter ends acquisition at the 64-sample granule boundary and releases no later sample. -/
  | granuleStop (n : Fin 4)
  /-- CONVERTED_SAMPLE (R48): A converter takes a sample and forms its overrange flag and count. -/
  | convertedSample (n : Fin 4) (x : Int)
  /-- FS_CHANGE (R90): A new FS_ADJ takes hold at the next granule boundary and inserts a CAL_STEP mark with cause FS_CHANGE. -/
  | fsChange (n : Fin 4)
  /-- COMMAND_SYNC (R66): A write of CONV_SYNC.CMD with SRC = 1 issues a SYNC to the CONV block. -/
  | commandSync (p : Path)
  /-- SYNC_EDGE (R65): A SYNC edge at SYNC_IN is accepted, refused or ignored according to ARM and the converter states. -/
  | syncEdge
  /-- SYNC_REFERENCE_EDGE (R66): The eighth REFCLK edge after an accepted SYNC zeroes all sample counters, realigns the decimators and records the reference TIME96. -/
  | syncReferenceEdge (sub : Fin 2621440)
  /-- FG_START (R81): A write of CAL_CTL.FG_START starts foreground calibration on an IDLE ADC, or sets CAL_ERR. -/
  | fgStart (p : Path) (mask : BitVec 4)
  /-- FOREGROUND_CAL_END (R78): Foreground calibration ends after 200 ms, writes a set, sets READY and starts background calibration. -/
  | foregroundCalEnd (n : Fin 4) (ms : List Measure)
  /-- DWELL_END (R82): A 62.5 ms background-calibration dwell ends, the slice returns to its position and the accepted trims are written to a set. -/
  | dwellEnd (n : Fin 4) (ms : List Measure)
  /-- DEGRADED_WINDOW_END (R93): A 4 s estimation window in degraded mode ends and yields trim estimates when the input power suffices. -/
  | degradedWindowEnd (n : Fin 4) (powered : Bool) (ms : List Measure)
  /-- CALIBRATION_STEP (R85): A calibration step moves the trims of one slice at a granule boundary and inserts a CAL_STEP mark. -/
  | calibrationStep (n : Fin 4)
  /-- SAVE (R96): A write of CAL_CTL.SAVE asks LK1 to write all valid sets to flash. -/
  | save (p : Path)
  /-- SAVE_DONE (R585): The calibration save to the older flash copy completes and SAVE_BUSY clears. -/
  | saveDone
  /-- HK_SEQUENCE_START (R98): A housekeeping sequence starts on its timer period or its delayed PWM edge, or is dropped and counted in OVERRUN. -/
  | hkSequenceStart (m : Fin 4)
  /-- HK_GO (R99): A write of HK_SEQ_CTL(m).GO starts a ONCE sequence. -/
  | hkGo (p : Path) (m : Fin 3)
  /-- HK_CONVERSION (R100): A housekeeping conversion completes, updates HK_RESULT(ch) and is compared with its limits and thresholds. -/
  | hkConversion (m : Fin 4) (value : BitVec 16) (raw : BitVec 12)
  /-- THERMAL_EMERGENCY (R577): A thermal emergency forces down every lane, converter, calender unit, TDC input, recording and generator. -/
  | thermalEmergency (preempts : Bool)
  /-- SUPPLY_FAULT (R578): A supply fault forces down the units of its rail group. -/
  | supplyFault (preempts : Bool)
  /-- EMERG_CLEAR (R577): A write of 1 to GLOBAL_PROT.EMERG clears it only when every thermal site reads below THERM_WARN. -/
  | emergClear (p : Path)
  /-- SUPPLY_CLEAR (R578): A write of 1 to GLOBAL_PROT.SUPPLY clears it only when the rail has been within its limits for 10 ms. -/
  | supplyClear (p : Path)
  /-- DDC_CTL_WRITE (R135): A write to DDC_CTL(n) changes enable, mode, decimation and list enable, refusing guarded fields while the DDC is in use. -/
  | ddcCtlWrite (p : Path) (d : Fin 8) (w : Word)
  /-- RETUNE_GO (R118): A write of DDC_RETUNE(n).GO copies the staged tuning and makes a register retune pending, or sets CFG_ERR. -/
  | retuneGo (p : Path) (d : Fin 8)
  /-- RETUNE_CANCEL (R123): A write of DDC_RETUNE(n).CANCEL discards the pending retune. -/
  | retuneCancel (p : Path) (d : Fin 8)
  /-- DDC_RETUNE (R136): The order makes a retune pending now, at a TIME or at a time gate. -/
  | ddcRetune
  /-- RETUNE_BOUNDARY (R118): A pending retune takes hold at its retune boundary, switches the NCO and inserts a RETUNE mark. -/
  | retuneBoundary (d : Fin 8)
  /-- LIST_ADVANCE (R128): The retune list advances to its next entry after its dwell or at a time-gate firing, or stops after LAST. -/
  | listAdvance (d : Fin 8)
  /-- DDC_OUTPUT_SAMPLE (R110): A DDC releases an output sample, saturating and flagging it as needed. -/
  | ddcOutputSample (d : Fin 8)
  /-- PLT_EVALUATION (R130): A power-level trigger evaluates LEVEL over its window and updates its condition. -/
  | pltEvaluation (p : Fin 8)
  /-- FRAME_FILLED (R140): The last sample of a frame reaches its lane and the transform of that frame begins. -/
  | frameFilled (p : Fin 64) (ce : Fin 65536)
  /-- SHEET_DELIVERED (R139): A lane emits a sheet, which reaches the weirs, reams, detector engines, density zones and sheet queue of its plan in frame order. -/
  | sheetDelivered (p : Fin 64)
  /-- LANE_FAULT_DETECTED (R160): A lane fault is detected, the lane is fenced and failover or a plan drop begins. -/
  | laneFaultDetected (l : Fin 18) (cause : Fin 16) (fence : Fin 9) (others : List (Fin 18 × Fin 16))
  /-- LANE_INJECT (R159): A keyed write of LANE_INJECT injects a lane fault with cause INJECT. -/
  | laneInject (p : Path) (lane : Fin 32) (key : BitVec 16) (fence : Fin 9)
  /-- FAILOVER_SPARE_READY (R161): The failover spare becomes ready and takes the failed slot, and FAILOVER and GAP marks are written. -/
  | failoverSpareReady (l : Fin 18)
  /-- SPARE_TEST (R168): LK1 starts the periodic self-test of a free lane every SPARE_TEST_PERIOD. -/
  | spareTest
  /-- TEST_END (R168): A lane test ends after 200 µs and passes or fences the lane. -/
  | testEnd (l : Fin 18) (check : BitVec 64)
  /-- WINDOW_LOAD (R171): The order reads a user window table and replaces the slot, or completes BAD_PARAM, FETCH_FAILED or STATE. -/
  | windowLoad
  /-- LANE_TEST (R172): The order runs the lane test on a FENCED or free lane. -/
  | laneTest
  /-- HOLD_RESET (R178): A write of DET_CTL(e).HOLD_RESET restarts the MAXHOLD or AVERAGE state at the next trace boundary. -/
  | holdReset (p : Path) (e : Fin 32)
  /-- TRACE_QUEUED (R182): A waiting trace is admitted to its queue, preceded by a TRACE_DROPPED GAP mark when traces were discarded. -/
  | traceQueued (e : Fin 32)
  /-- DECAY_INSTANT (R189): At a decay instant every ream cell decays as DECAY states and the lanes close their deltas. -/
  | decayInstant (m : Fin 8)
  /-- TILE_FLUSH (R190): A lane's delta tile reaches the directory and is added to the home tile or to a reader's copy. -/
  | tileFlush (m : Fin 8) (tile : Fin 2048) (l : Fin 18) (ue : Bool)
  /-- TILE_READ_REQUEST (R190): A reader requests a tile as of a cut and the directory snoops the lanes holding deltas. -/
  | tileReadRequest (m : Fin 8) (tile : Fin 2048) (cut : Nat)
  /-- SNOOP_REPLY (R190): A lane's snoop reply arrives and completes the reader's copy of the tile. -/
  | snoopReply (m : Fin 8) (tile : Fin 2048) (l : Fin 18)
  /-- REAM_SNAPSHOT (R192): The order sets up a snapshot of a ream region with a cut now, at a TIME or at a time gate. -/
  | reamSnapshot
  /-- REAM_CLEAR (R204): The order clears a ream at a cut. -/
  | reamClear
  /-- REAM_CTL_CLEAR (R193): A write of REAM_CTL(m).CLEAR clears the ream at a cut of acceptance plus 1 µs. -/
  | reamCtlClear (p : Path) (m : Fin 8)
  /-- REAM_CUT (R193): A ream cut is reached and announced to every feeding lane, with a clear made there when ordered. -/
  | reamCut (m : Fin 8)
  /-- SNAPSHOT_READ_BEGIN (R194): Once every feeding plan has accounted for the sheets before the cut, the snapshot engine begins reading and writing barges. -/
  | snapshotReadBegin (m : Fin 8) (bad : List (Fin 2048))
  /-- REAM_ENABLE (R197): Setting REAM_CFG(m).EN from 0 to 1 clears the ream and its OVER and UNDER counts. -/
  | reamEnable (p : Path) (m : Fin 8) (w : Word)
  /-- OCCURRENCE (R221): An occurrence of a trigger source reaches the lock flights and is counted by each chamber that it satisfies. -/
  | occurrence (sel : Fin 512) (sub : Fin 2621440)
  /-- CHAMBER_TIMEOUT (R223): A chamber not completed TIMEOUT ns after entry restarts, aborts or advances the flight. -/
  | chamberTimeout (f : Fin 16)
  /-- HOLDOFF_END (R226): HOLDOFF ns after a fire the flight returns to ARMED at chamber 0. -/
  | holdoffEnd (f : Fin 16)
  /-- AUTO_TIMEOUT (R227): A flight that has not fired within AUTO_TIMEOUT fires at once with FORCED marks. -/
  | autoTimeout (f : Fin 16)
  /-- FL_ARM (R224): A write of FL_CTL(f).ARM arms an OFF flight at chamber 0, or sets CFG_ERR. -/
  | flArm (p : Path) (f : Fin 16)
  /-- FL_CANCEL (R228): A write of FL_CTL(f).CANCEL cancels the flight as Table 07-3 states. -/
  | flCancel (p : Path) (f : Fin 16)
  /-- FLIGHT_ARM (R239): The order arms a flight now, or makes it PENDING for a TIME or a time gate. -/
  | flightArm
  /-- ARM_TIME_REACHED (R224): A PENDING flight reaches its arm time and becomes ARMED at chamber 0. -/
  | armTimeReached (f : Fin 16)
  /-- WEIR_LOAD (R239): The order reads a limit-line table into a weir's inactive bank for a swap at the next sheet boundary. -/
  | weirLoad
  /-- TRIG_IN_EDGE (R215): An edge at a TRIG_IN ball is accepted and stamped, or lost in the dead time and counted. -/
  | trigInEdge (i : Fin 8) (high : Bool) (sub : Fin 2621440)
  /-- IBUS_EDGE (R217): A level on an IBUS line held for GLITCH + 1 cycles is accepted as an edge. -/
  | ibusEdge (b : Fin 4) (low : Bool) (sub : Fin 2621440)
  /-- DEAD_TIME_END (R215): At the end of the dead time a corrective edge is accepted when the true level differs from the last accepted level. -/
  | deadTimeEnd (input : Fin 28) (sub : Fin 2621440)
  /-- STUCK_TIMEOUT (R216): An input held active for longer than STUCK_TIME is masked. -/
  | stuckTimeout (input : Fin 28)
  /-- STUCK_REARM (R216): An input inactive for STUCK_REARM has its stuck mask lifted. -/
  | stuckRearm (input : Fin 28)
  /-- TRIG_OUT_PULSE_END (R219): A TRIG_OUT pulse returns inactive WIDTH ns after its last request. -/
  | trigOutPulseEnd (o : Fin 4)
  /-- IBUS_PULSE_END (R218): An IBUS drive pulse releases the line WIDTH × 4 ns after its last request. -/
  | ibusPulseEnd (b : Fin 4)
  /-- CU_EN_WRITE (R241): A write of CU_CTL(u).EN powers a unit to WAKING, or takes it OFF after its outstanding work. -/
  | cuEnWrite (p : Path) (u : Fin 16) (en : Bool)
  /-- CU_WAKE_DONE (R279): A waking unit reaches STOPPED 1 µs after EN was set. -/
  | cuWakeDone (u : Fin 16)
  /-- CU_RUN_WRITE (R279): A write of CU_CTL(u).RUN starts a STOPPED or FAULTED unit at ENTRY. -/
  | cuRunWrite (p : Path) (u : Fin 16)
  /-- CU_STOP_WRITE (R279): A write of CU_CTL(u).STOP stops the unit at the next bundle boundary. -/
  | cuStopWrite (p : Path) (u : Fin 16)
  /-- CU_POKE (R265): A write of CU_CTL(u).POKE makes the HOST cause pending. -/
  | cuPoke (p : Path) (u : Fin 16)
  /-- CU_WINDOW_WRITE (R243): A host write to a calender-unit memory window takes effect in the allowed states or is dropped with CFG_ERR. -/
  | cuWindowWrite (p : Path) (u : Fin 16) (off : Fin 0x80000) (bs : List Byte)
  /-- CU_TIMER_EXPIRY (R265): The unit timer reaches the run start plus j × PERIOD and makes the TIMER cause pending. -/
  | cuTimerExpiry (u : Fin 16)
  /-- EVENT_ENTRY (R266): A pending enabled cause is taken at a bundle boundary and the unit switches to bank 1 at the vector. -/
  | eventEntry (u : Fin 16) (waited : Nat) (fetch : LineRead)
  /-- QRD_COPY_LANDED (R272): An accepted QRD copy lands in data memory and leaves the outstanding count. -/
  | qrdCopyLanded (u : Fin 16)
  /-- SEND_DONE (R277): A SEND's barge is admitted to its queue and leaves the outstanding count. -/
  | sendDone (u : Fin 16) (ecc : LineRead)
  /-- CU_NOP (R249): NOP in either slot does nothing. -/
  | cuNop (u : Fin 16)
  /-- ADD (R249): ADD writes XA + XB modulo 2^32 to XD. -/
  | cuAdd (u : Fin 16)
  /-- SUB (R249): SUB writes XA − XB modulo 2^32 to XD. -/
  | cuSub (u : Fin 16)
  /-- AND (R249): AND writes the bitwise and of XA and XB to XD. -/
  | cuAnd (u : Fin 16)
  /-- OR (R249): OR writes the bitwise or of XA and XB to XD. -/
  | cuOr (u : Fin 16)
  /-- XOR (R249): XOR writes the bitwise exclusive-or of XA and XB to XD. -/
  | cuXor (u : Fin 16)
  /-- SHL (R249): SHL shifts XA left by XB[4:0]. -/
  | cuShl (u : Fin 16)
  /-- SHR (R249): SHR shifts XA right logically by XB[4:0]. -/
  | cuShr (u : Fin 16)
  /-- SRA (R249): SRA shifts XA right arithmetically by XB[4:0]. -/
  | cuSra (u : Fin 16)
  /-- MUL (R249): MUL writes bits 31:0 of the signed product of XA and XB. -/
  | cuMul (u : Fin 16)
  /-- SLT (R249): SLT writes 1 when XA is below XB signed. -/
  | cuSlt (u : Fin 16)
  /-- SLTU (R249): SLTU writes 1 when XA is below XB unsigned. -/
  | cuSltu (u : Fin 16)
  /-- ADDI (R249): ADDI writes XA + IMM18 to XD. -/
  | cuAddi (u : Fin 16)
  /-- ANDI (R249): ANDI writes XA and the zero-extended IMM18 to XD. -/
  | cuAndi (u : Fin 16)
  /-- ORI (R249): ORI writes XA or the zero-extended IMM18 to XD. -/
  | cuOri (u : Fin 16)
  /-- LUI (R249): LUI writes IMM18 shifted left by 14 to XD. -/
  | cuLui (u : Fin 16)
  /-- SHLI (R249): SHLI shifts XA left by an immediate amount. -/
  | cuShli (u : Fin 16)
  /-- SHRI (R249): SHRI shifts XA right logically by an immediate amount. -/
  | cuShri (u : Fin 16)
  /-- SRAI (R249): SRAI shifts XA right arithmetically by an immediate amount. -/
  | cuSrai (u : Fin 16)
  /-- LDW (R249): LDW loads a 32-bit word from data memory into XD. -/
  | cuLdw (u : Fin 16) (ecc : LineRead)
  /-- STW (R249): STW stores XD as a 32-bit word in data memory. -/
  | cuStw (u : Fin 16)
  /-- VLD (R249): VLD loads eight elements in H16 or Q18 into VD. -/
  | cuVld (u : Fin 16) (ecc : LineRead)
  /-- VST (R249): VST stores the eight elements of VD in H16 or Q18. -/
  | cuVst (u : Fin 16)
  /-- LDT (R249): LDT loads 12 bytes into STAMP. -/
  | cuLdt (u : Fin 16) (ecc : LineRead)
  /-- STT (R249): STT stores STAMP as 12 bytes. -/
  | cuStt (u : Fin 16)
  /-- BEQ (R262): BEQ branches to TARGET when XA equals XB, after two delay slots. -/
  | cuBeq (u : Fin 16)
  /-- BNE (R262): BNE branches when XA differs from XB. -/
  | cuBne (u : Fin 16)
  /-- BLT (R262): BLT branches when XA is below XB signed. -/
  | cuBlt (u : Fin 16)
  /-- BGE (R262): BGE branches when XA is at or above XB signed. -/
  | cuBge (u : Fin 16)
  /-- JMP (R262): JMP branches always. -/
  | cuJmp (u : Fin 16)
  /-- JR (R262): JR branches to XA[12:0]. -/
  | cuJr (u : Fin 16)
  /-- CALL (R262): CALL writes the return address to X15 and branches to TARGET. -/
  | cuCall (u : Fin 16)
  /-- WAIT (R266): WAIT in bank 0 stops issue until an enabled event is taken, and is ILLEGAL in bank 1. -/
  | cuWait (u : Fin 16)
  /-- RETE (R267): RETE returns from bank 1 to bank 0 at the return point after two delay slots. -/
  | cuRete (u : Fin 16)
  /-- HALT (R279): HALT sends the unit to STOPPED after its bundle. -/
  | cuHalt (u : Fin 16)
  /-- MFS (R249): MFS reads a special register into XD. -/
  | cuMfs (u : Fin 16)
  /-- MTS (R249): MTS clears bits of LSTAT or FLAGS, or resets BX. -/
  | cuMts (u : Fin 16)
  /-- TNOW (R249): TNOW loads STAMP with the timekeeper time of its issue cycle. -/
  | cuTnow (u : Fin 16) (sub : Fin 2621440)
  /-- TRIG (R278): TRIG raises CUT(2u + SEL[0]) stamped with STAMP. -/
  | cuTrig (u : Fin 16) (sub : Fin 2621440)
  /-- RDTRG (R249): RDTRG reads the present level of a level trigger source into XD. -/
  | cuRdtrg (u : Fin 16)
  /-- QPOP (R271): QPOP returns the handle of the next cell of an input port, or 0. -/
  | cuQpop (u : Fin 16)
  /-- QRD (R272): QRD starts a copy of a popped cell into data memory and returns a status. -/
  | cuQrd (u : Fin 16)
  /-- QFREE (R273): QFREE frees a popped cell after checking its owner tag and returns a status. -/
  | cuQfree (u : Fin 16)
  /-- SEND (R275): SEND turns a send block into one CU_OUTPUT barge and returns a status. -/
  | cuSend (u : Fin 16)
  /-- QSTAT (R249): QSTAT reports the outstanding QRD copies and SENDs. -/
  | cuQstat (u : Fin 16)
  /-- VADD (R250): VADD adds two vectors with shift and saturation. -/
  | cuVadd (u : Fin 16)
  /-- VSUB (R250): VSUB subtracts two vectors with shift and saturation. -/
  | cuVsub (u : Fin 16)
  /-- VMOV (R250): VMOV copies a vector register. -/
  | cuVmov (u : Fin 16)
  /-- VSWAP (R250): VSWAP swaps the lanes of each pair. -/
  | cuVswap (u : Fin 16)
  /-- VCONJ (R250): VCONJ conjugates each complex pair. -/
  | cuVconj (u : Fin 16)
  /-- VBF (R250): VBF forms a radix-2 butterfly into two vector registers. -/
  | cuVbf (u : Fin 16)
  /-- VSPL (R250): VSPL splats a scalar register into every lane. -/
  | cuVspl (u : Fin 16)
  /-- VCMUL (R250): VCMUL forms the complex product of each pair, narrowed with saturation. -/
  | cuVcmul (u : Fin 16)
  /-- VMAC (R254): VMAC adds per-lane products to an accumulator. -/
  | cuVmac (u : Fin 16)
  /-- VMSU (R254): VMSU subtracts per-lane products from an accumulator. -/
  | cuVmsu (u : Fin 16)
  /-- VMUL (R255): VMUL sets an accumulator to per-lane products. -/
  | cuVmul (u : Fin 16)
  /-- VCMAC (R250): VCMAC accumulates complex products. -/
  | cuVcmac (u : Fin 16)
  /-- VCMACJ (R250): VCMACJ accumulates complex products with VB conjugated. -/
  | cuVcmacj (u : Fin 16)
  /-- VSQ (R250): VSQ accumulates per-lane squares. -/
  | cuVsq (u : Fin 16)
  /-- ACLR (R255): ACLR clears an accumulator and its saturated state. -/
  | cuAclr (u : Fin 16)
  /-- VNAR (R257): VNAR narrows accumulator lanes into a vector with saturation. -/
  | cuVnar (u : Fin 16)
  /-- ARED (R255): ARED reduces accumulator lanes into lane 0, or lanes 0 and 1. -/
  | cuAred (u : Fin 16)
  /-- AXH (R250): AXH extracts bits 47:16 of an accumulator lane. -/
  | cuAxh (u : Fin 16)
  /-- AXL (R250): AXL extracts bits 15:0 of an accumulator lane. -/
  | cuAxl (u : Fin 16)
  /-- LOOP (R264): LOOP opens a hardware loop level over the following bundles. -/
  | cuLoop (u : Fin 16)
  /-- CU_LOAD (R284): The order loads program and data images into a unit in 256-byte granules. -/
  | cuLoad
  /-- CU_RUN (R285): The order writes ENTRY and runs the unit now, at a TIME or at a time gate. -/
  | cuRun
  /-- CU_RUN_DUE (R285): A timed CU_RUN becomes due and runs the unit or completes STATE. -/
  | cuRunDue (ring index : Nat)
  /-- CU_STOP (R285): The order stops a unit now or at a TIME. -/
  | cuStop
  /-- CU_STOP_DUE (R285): A timed CU_STOP becomes due and stops the unit. -/
  | cuStopDue (ring index : Nat)
  /-- TRAINING_START (R289): DDR5 training begins at first READY with AUTO_TRAIN, or on a write of MEM_CTL.TRAIN. -/
  | trainingStart (p : Option Path) (b : MemBoard)
  /-- TRAINING_DONE (R289): A channel's training passes into INIT, or fails twice and becomes FAILED. -/
  | trainingDone (c : Fin 6) (ok : Bool) (step : Fin 10)
  /-- INIT_DONE (R290): A channel's initialisation writes its last line and the channel becomes READY with its scrubber running. -/
  | initDone (c : Fin 6)
  /-- REFRESH_DUE (R294): A bank's same-bank refresh falls due and is issued early, postponed or forced. -/
  | refreshDue (c : Fin 6) (bank : Fin 128) (busy : Bool)
  /-- MR4_READ (R294): The controller reads MR4 of every rank every 16 ms and sets the refresh interval. -/
  | mr4Read (c : Fin 6) (hot : Bool)
  /-- PERIODIC_CALIBRATION (R295): ZQ calibration and the DQS oscillator read run on their periods. -/
  | periodicCalibration (c : Fin 6) (drift : Bool)
  /-- ALERT_N (R296): ALERT_n asserted by the register clock driver starts a command replay. -/
  | alertN (c : Fin 6)
  /-- REPLAY_DONE (R297): A replay completes or fails, and three consecutive failures fence the channel. -/
  | replayDone (c : Fin 6)
  /-- SCRUB_LINE (R298): The scrubber reads a line, corrects a correctable error or poisons an uncorrectable one. -/
  | scrubLine (c : Fin 6) (r : LineRead) (use : LineUse)
  /-- MEM_FENCE (R301): A keyed write of MEM_FENCE fences the named channel. -/
  | memFence (p : Path) (ch : Fin 8) (key : BitVec 16)
  /-- CHANNEL_FENCE (R301): A fence cause takes a channel to FENCED and stops its traffic. -/
  | channelFence (c : Fin 6) (cause : Fin 5)
  /-- POUND_RELAY (R302): Each pound on a fenced channel is re-laid on its remaining channels, discarding its history. -/
  | poundRelay (n : Fin 64)
  /-- POUND_ENABLE (R303): A write of POUND_CFG(p).EN enables the pound after checks, or turns it OFF. -/
  | poundEnable (p : Path) (n : Fin 64) (w : Word)
  /-- POUND_FREEZE (R303): A write of FREEZE stops or resumes the pound writer at a barge boundary. -/
  | poundFreeze (p : Path) (n : Fin 64) (on : Bool)
  /-- BARGE_COMMIT (R304): The pound writer commits a barge, making it visible to drains and captures. -/
  | bargeCommit (n : Fin 64)
  /-- DRAIN_READ (R306): A drain reads its next barge from the pound and offers it to its queue. -/
  | drainRead (n : Fin 64) (d : Fin 4) (errs : List LineErr)
  /-- CAPTURE_ACCEPTED (R310): A capture request is accepted into the capture engine and starts reading. -/
  | captureAccepted
  /-- CAPTURE_BARGE_READ (R309): A capture reads a barge of its range, or replaces it with a HISTORY_LOST GAP mark. -/
  | captureBargeRead (num : Nat) (errs : List LineErr) (overtaken : Bool)
  /-- POUND_CUT (R312): The order cuts a time range from a recording pound into a queue. -/
  | poundCut
  /-- LINK_TRAINED (R343): The upstream link trains to a width and rate. -/
  | linkTrained (width rate : Nat) (flit : Bool)
  /-- HOT_RESET (R357): A hot reset or link-down resets configuration space and clears every ring enable and LOOKOUT_EN. -/
  | hotReset
  /-- POISONED_TLP_RECEIVED (R360): A received poisoned TLP is dropped or handled by its request's rule and logged. -/
  | poisonedTlpReceived (t : PoisonedTlp)
  /-- COMPLETION_TIMEOUT (R351): A device read not completed within the timeout counts as a bus error for its descriptor or order. -/
  | completionTimeout (r : ReadOf)
  /-- POWER_STATE_CHANGE (R355): A change of a function's power state, with D3hot of PF0 requesting SLEEP. -/
  | powerStateChange (fn : Fin 2) (d3 : Bool)
  /-- VECTOR_MODERATION_END (R353): A moderated MSI-X vector's interval ends and its pending message is sent. -/
  | vectorModerationEnd (fn : Fin 2) (v : Fin 64)
  /-- TOKEN_REQ (R362): A write of GLOBAL_OWNER.REQ requests the token for the writing agent. -/
  | tokenReq (p : Path)
  /-- TOKEN_REL (R363): A write of GLOBAL_OWNER.REL releases the token or cancels a pending request, granting it to the next pending agent. -/
  | tokenRel (p : Path)
  /-- MGMT_TOKEN_REQ (R362): A write of MGMT_TOKEN.REQ requests the token for MGMT. -/
  | mgmtTokenReq
  /-- MGMT_TOKEN_REL (R362): A write of MGMT_TOKEN.REL releases the token held by MGMT. -/
  | mgmtTokenRel
  /-- MGMT_FORCE (R365): A keyed write of MGMT_TOKEN.FORCE grants the token to MGMT at once. -/
  | mgmtForce (key : BitVec 16)
  /-- LOOKOUT_POLL (R376): The lookout reads the tally page and compares each TAIL with its HEAD. -/
  | lookoutPoll (tails : List (Nat × Word)) (ok : Bool)
  /-- ENTRY_FETCHED (R373): A fetch of ring entries returns and owned entries are taken in order. -/
  | entryFetched (x : Fin 114) (es : List FetchResult)
  /-- ORDER_ACCEPTANCE (R384): A taken work order is validated and accepted against its target's state, or retires BAD_PARAM, BAD_OPCODE or BAD. -/
  | orderAcceptance
  /-- PARK (R379): After PARK_AFTER without new entries the lookout writes PARKED and issues its final poll. -/
  | park
  /-- FINAL_POLL_RESULT (R379): The final poll's result resumes polling or leaves the lookout parked with source 117 asserted. -/
  | finalPollResult (tails : List (Nat × Word)) (ok : Bool)
  /-- WAKE (R380): A write of WAKE unparks the lookout and polls at once. -/
  | wake
  /-- NOP (R389): The order retires OK, after the earlier orders of its ring when FENCE is set. -/
  | nop
  /-- CANCEL (R391): The order ends a pending or running order, flight, capture, move or generator sequence. -/
  | cancel
  /-- BARGE_DELIVERY (R395): A stream ring writes the next barge of its queue into the open host buffer. -/
  | bargeDelivery (x : Fin 64) (bad : List (Nat × Nat))
  /-- BUFFER_CLOSE_TIMER (R396): FLUSH_US after its first barge an open stream buffer closes with CLOSE = TIMER. -/
  | bufferCloseTimer (x : Fin 64)
  /-- RING_FLUSH (R396): A write of RING_CFG(x).FLUSH closes the open stream buffer. -/
  | ringFlush (p : Path) (x : Fin 64)
  /-- RING_EN_WRITE (R412): A write of RING_CFG(x).EN enables a ring or stops it and returns its taken entries. -/
  | ringEnWrite (p : Path) (x : Fin 114) (en : Bool) (log2 : Fin 32)
  /-- ER1_TAIL_WRITE (R403): A write of ER1_TAIL hands over ER1 slots. -/
  | er1TailWrite (tail : Word)
  /-- EVENT_RECORD_WRITE (R615): A waiting event record is written into a device-owned slot of its event ring. -/
  | eventRecordWrite (r : Fin 2)
  /-- MOVE_START (R405): A move-engine channel begins its next owned entry, or refuses it BAD_PARAM. -/
  | moveStart (c : Fin 32) (errs : List LineErr)
  /-- MOVE_DONE (R405): A move completes and its entry is returned with its status. -/
  | moveDone (c : Fin 32) (data : List Byte) (n : Nat) (reason : Fin 5)
  /-- PACED_REQUEST (R408): A request on a move-engine request line releases one burst of a paced move. -/
  | pacedRequest (line : Fin 64) (data : List Byte)
  /-- ADMISSION_REQUEST (R420): A producer asks a queue to accept a barge, which it admits, refuses or, in drop-newest mode, drops. -/
  | admissionRequest (q : Fin 4096) (b : Barge) (c : CopyRead)
  /-- CELL_VISIBLE (R423): A written cell becomes visible to the queue's consumer. -/
  | cellVisible (q : Fin 4096)
  /-- CELL_FREE (R426): A consumer frees a cell after checking its owner tag. -/
  | cellFree (cell : Fin 131072) (q : Fin 4096) (epoch : Fin 4) (by_ : FreeAgent) (c : CopyRead)
  /-- QUEUE_EN_WRITE (R427): A write of QUEUE_CFG.EN makes an OFF queue ACTIVE or puts the queue in CLOSING. -/
  | queueEnWrite (p : Path) (w : Word)
  /-- RECLAIM_DONE (R427): A closing queue with no unread cell frees its cells, advances EPOCH and becomes OFF. -/
  | reclaimDone (q : Fin 4096)
  /-- QUEUE_REBUILD_DONE (R418): LK1's rebuild of a queue's list ends and the queue resumes or is FENCED. -/
  | queueRebuildDone (q : Fin 4096) (ok : Bool)
  /-- QUEUE_QUIESCE (R435): The order closes a queue now or at a TIME. -/
  | queueQuiesce
  /-- QUEUE_QUIESCE_DUE (R435): A timed QUEUE_QUIESCE becomes due and clears the queue's EN. -/
  | queueQuiesceDue (ring index : Nat)
  /-- NVME_PORT_ENABLE (R437): A write of NVME_PORT(d).EN latches the port set-up and brings its drives up, or holds them in PERST. -/
  | nvmePortEnable (p : Path) (d : Fin 2) (w : Word)
  /-- DRIVE_LINK_UP (R438): A drive link trains, or fails to within 100 ms. -/
  | driveLinkUp (n : Fin 8) (up : Bool) (width : Fin 9) (rate : Fin 6)
  /-- DRIVE_INIT_DONE (R438): A drive's enumeration and initialisation end in READY or FAILED. -/
  | driveInitDone (n : Fin 8) (r : DriveInit)
  /-- DRIVE_COMMAND_TIMEOUT (R446): A command not completed within TIMEOUT_MS puts its drive into RESET. -/
  | driveCommandTimeout (n : Fin 8)
  /-- DRIVE_RESET_DONE (R438): A drive in RESET is re-initialised within 5 s, or becomes FAILED. -/
  | driveResetDone (n : Fin 8) (ok : Bool) (width : Fin 9) (rate : Fin 6)
  /-- NVME_DMA_ACCESS (R438): A drive access outside its assigned windows completes with Unsupported Request. -/
  | nvmeDmaAccess (n : Fin 8)
  /-- NVME_SLOT_ENABLE (R440): A write of NVME_SLOT(j).EN binds a namespace after checks, or is refused with CFG_ERR. -/
  | nvmeSlotEnable (p : Path) (j : Fin 8) (w : Word)
  /-- RECORDING_ENABLE (R441): Setting NVME_REC_CFG(r).EN starts a recording and records T_REC. -/
  | recordingEnable (p : Path) (r : Fin 8) (w : Word)
  /-- RECORDING_STOP (R448): Clearing NVME_REC_CFG(r).EN closes the open chunk with LAST, waits for Writes, flushes and goes OFF. -/
  | recordingStop (p : Path) (r : Fin 8)
  /-- CHUNK_CLOSE_TIMER (R443): CLOSE_US after its first barge a chunk closes and is written. -/
  | chunkCloseTimer (r : Fin 8)
  /-- WRITE_COMPLETION (R446): A drive Write completes, freeing cells on success or being retried or losing its chunk on failure. -/
  | writeCompletion (r : Fin 8) (chunk i : Nat) (ok : Bool)
  /-- NVME_READ (R451): The order reads a recording back raw or extracts one stream's samples. -/
  | nvmeRead
  /-- NVME_TRIM (R452): The order deallocates LBAs of a namespace slot. -/
  | nvmeTrim
  /-- SEQ_LOAD (R459): The order reads and checks a sequence and installs it in a generator. -/
  | seqLoad
  /-- SEQ_START (R468): The order arms a loaded generator to start now, at a TIME, at a time gate or at SYNC. -/
  | seqStart
  /-- SEQ_STOP (R470): The order stops a generator at a granule, step end or sequence end. -/
  | seqStop
  /-- SKEW_CAL (R474): The order measures and trims the skew of the named DACs against a reference DAC. -/
  | skewCal
  /-- SKEW_CAL_DONE (R474): A skew calibration finishes its measurements and sets FINE and COARSE, or completes CAL_RANGE. -/
  | skewCalDone (trims : List (Fin 512 × Fin 64 × Int)) (inRange : Bool)
  /-- GRANULE_COMMIT (R456): A generator commits its next 64-sample granule, fixing its samples, step and marker levels. -/
  | granuleCommit (g : Fin 8) (late : Bool) (errs : List LineErr)
  /-- SG_RELEASE (R462): A write of SG_CTL(g).RELEASE releases a waiting step or is counted in EARLY. -/
  | sgRelease (p : Path) (g : Fin 8)
  /-- SG_STOP_WRITE (R470): A write of SG_CTL(g).STOP acts as SEQ_STOP with WHEN = 0. -/
  | sgStopWrite (p : Path) (g : Fin 8)
  /-- SG_EN_WRITE (R472): A write of SG_CFG(g).EN powers the generator, or returns it to EMPTY. -/
  | sgEnWrite (p : Path) (g : Fin 8) (en : Bool)
  /-- PROBE_GROUPS_WRITE (R479): A write of PROBE_GROUPS regroups lanes, or is refused with CFG_ERR. -/
  | probeGroupsWrite (p : Path) (w : Word)
  /-- PROBE_LANE_ENABLE (R481): A write of PROBE_LANE(n).EN starts training, or takes the lane DOWN. -/
  | probeLaneEnable (p : Path) (n : Fin 16) (en : Bool)
  /-- PROBE_TRAINING_TIMEOUT (R481): A lane without success in 20 ms retrains. -/
  | probeTrainingTimeout (n : Fin 16)
  /-- PROBE_LANE_ALIGNED (R481): 64 valid sync headers take a lane to HELLO. -/
  | probeLaneAligned (n : Fin 16)
  /-- PROBE_HELLO (R481): A partner HELLO frame brings the lane UP, or FAILED when it does not match. -/
  | probeHello (n : Fin 16) (version : Fin 65536) (width : Fin 16) (pclk : Word)
  /-- PROBE_SYNC_LOSS (R481): Invalid sync headers or CRC failures take an UP lane down. -/
  | probeSyncLoss (n : Fin 16) (headers : Bool)
  /-- FRAME_LOST (R480): A frame not arrived 2 µs after a later one is declared lost. -/
  | frameLost (n : Fin 16)
  /-- PROBE_BEACON (R484): Every 1 µs the device sends a BEACON on each UP lane. -/
  | probeBeacon (n : Fin 16)
  /-- ECHO_FRAME (R484): An ECHO frame gives the round trip and the one-way delay. -/
  | echoFrame (n : Fin 16) (f : ProbeFrame) (sub : Fin 2621440) (turnaround : Nat)
  /-- CREDIT_FRAME (R491): A CREDIT frame sets the samples a bridge port may send. -/
  | creditFrame (n : Fin 16) (f : ProbeFrame)
  /-- VCS_FRAME (R486): A VCS frame delivers virtual-channel samples, with gaps and slips checked. -/
  | vcsFrame (n : Fin 16) (f : ProbeFrame)
  /-- NETS_FRAME (R490): A NETS frame delivers rows of subscribed nets into PROBE barges. -/
  | netsFrame (n : Fin 16) (f : ProbeFrame)
  /-- SUB_ACK_FRAME (R498): A SUB_ACK completes PROBE_SUB and the new list takes effect. -/
  | subAckFrame (n : Fin 16) (f : ProbeFrame)
  /-- PROBE_BARGE_CLOSE (R490): A PROBE barge closes CLOSE_US after its first row. -/
  | probeBargeClose (set : Fin 16)
  /-- BRIDGE_SEND (R491): A bridge port sends the next BRIDGE, GAPF or MARKF frame from its queue against credit. -/
  | bridgeSend (b : Fin 8)
  /-- STIM_FRAME_SEND (R493): An egress generator's STIM frame leaves at its ball time, or is dropped after 1 µs. -/
  | stimFrameSend (g : Fin 4)
  /-- VC_ENABLE (R485): A write of VC_CFG(v).EN binds a virtual channel after checks. -/
  | vcEnable (p : Path) (v : Fin 8) (w : Word)
  /-- BP_ENABLE (R491): A write of BP_CFG(b).EN binds a bridge port to its queue. -/
  | bpEnable (p : Path) (b : Fin 8) (w : Word)
  /-- EG_ENABLE (R493): A write of EG_CFG(g).EN binds an egress generator after checks. -/
  | egEnable (p : Path) (g : Fin 4) (w : Word)
  /-- PROBE_CAT_LOAD (R498): The order writes net catalogue entries in granules of 32. -/
  | probeCatLoad
  /-- PROBE_SUB (R498): The order sends SUBSCRIBE with the next SUBGEN for a set's list. -/
  | probeSub
  /-- SUB_ACK_TIMEOUT (R498): No SUB_ACK within 10 ms completes PROBE_SUB PEER_TIMEOUT. -/
  | subAckTimeout (ring index : Nat)
  /-- TDC_EDGE (R504): An edge at a TDC input is stamped and taken as a start, a stop or a frequency edge. -/
  | tdcEdge (i : Fin 16) (rising : Bool) (sub : Fin 2621440)
  /-- TDC_WINDOW_END (R505): WIN_HI after its start an open measurement closes, with NOSTOP if no stop was accepted. -/
  | tdcWindowEnd (c : Fin 8)
  /-- GATE_END (R508): A frequency gate ends, its regression result is recorded and the next gate begins. -/
  | gateEnd (i : Fin 16)
  /-- TDC_BARGE_CLOSE (R510): A TDC_RESULT barge closes CLOSE_US after its first record. -/
  | tdcBargeClose (n : Fin 32)
  /-- TDC_IN_ENABLE (R512): A write of TDC_IN_CFG(i).EN enables an input, or closes its open measurements with ABORTED. -/
  | tdcInEnable (p : Path) (i : Fin 16) (w : Word)
  /-- TDC_FAN_WRITE (R503): A write of TDC_CTL.FAN selects pair or fan mode, or is refused. -/
  | tdcFanWrite (p : Path) (w : Word)
  /-- TIME_INC_WRITE (R516): A write of TIME_INC sets the increment from the next tick, or sets INC_ERR. -/
  | timeIncWrite (p : Path) (w : Word)
  /-- TIME_SERVO_WRITE (R547): A write of TIME_SERVO.LOCKED moves the timekeeper to LOCKED or HOLDOVER. -/
  | timeServoWrite (p : Path) (locked : Bool)
  /-- HOLD_TIMEOUT (R547): HOLD_TMO without a LOCKED write moves the timekeeper to HOLDOVER. -/
  | holdTimeout
  /-- TIME_MODE_WRITE (R547): A write of TIME_CFG.MODE switches between ROOT and FOLLOW at once. -/
  | timeModeWrite (p : Path) (w : Word)
  /-- TIME_STEP (R523): The order accepts a relative or absolute step for the step tick, or refuses it. -/
  | timeStep
  /-- STEP_TICK (R525): At the step tick the timekeeper changes base and TIME_STEP marks follow in every stream. -/
  | stepTick
  /-- TG_ENABLE (R527): A write of TG_CTL(g).EN enables a time gate after checks, skipping firings within 1 µs. -/
  | tgEnable (p : Path) (g : Fin 32) (w : Word)
  /-- GATE_ANNOUNCE (R529): The gate unit announces a firing between 1 µs and 100 ns ahead. -/
  | gateAnnounce (g : Fin 32)
  /-- GATE_FIRING (R527): A time gate fires at its programmed time and every consumer acts on it. -/
  | gateFiring (g : Fin 32)
  /-- GATE_WAKE (R531): 3 ms before a firing of a WAKE gate a wake cause is raised. -/
  | gateWake (g : Fin 32)
  /-- ETH_TX_GO (R534): A write of ETH_TXCTL(t).GO sends a frame with FCS and egress stamp. -/
  | ethTxGo (p : Path) (t : Fin 2) (w : Word)
  /-- ETH_TX_DONE (R536): A frame leaves ETH0, its egress stamp is written and DONE is set. -/
  | ethTxDone (t : Fin 2) (sub : Fin 2621440)
  /-- ETH_FRAME_RECEIVED (R533): A received frame is filtered, stamped and placed in an owned slot or dropped. -/
  | ethFrameReceived (bytes : List Byte) (sub : Fin 2621440)
  /-- KX_LINK_ENABLE (R537): A write of KX_LINK(l).EN brings a Kavaxel link up through training. -/
  | kxLinkEnable (p : Path) (l : Fin 6) (en : Bool)
  /-- KX_HELLO (R537): A KX HELLO exchange brings the link UP or MISWIRED. -/
  | kxHello (device : Fin 16) (l : Fin 6) (devid : Fin 262144) (refMaster : Option (Fin 262144)) (slot : Fin 16)
  /-- KX_LINK_LOSS (R539): A link leaving UP triggers a route recomputation. -/
  | kxLinkLoss (device : Fin 16) (l : Fin 6)
  /-- TIME_BEACON_SEND (R544): Every 10 µs the root sends a time beacon down its route tree. -/
  | timeBeaconSend (echoes : List (Fin 6 × Nat))
  /-- TIME_BEACON_RECEIVED (R545): A follower takes a beacon, adjusts its rate and steps and forwards it. -/
  | timeBeaconReceived (l : Fin 6) (b : KxBeacon) (sub : Fin 2621440) (roundTrip : Option Nat) (rootSync : Option (BitVec 96))
  /-- FOLLOW_LOST_TIMEOUT (R546): A follower with no route to the root for 100 µs enters FOLLOW_LOST. -/
  | followLostTimeout
  /-- REMOTE_TRIGGER_RECEIVED (R551): A remote trigger arrives over KX, is forwarded and delivered on arrival or held for its due time. -/
  | remoteTriggerReceived (l : Fin 6) (t : KxTrigger) (sub : Fin 2621440)
  /-- REMOTE_TRIGGER_DUE (R551): An equalised remote trigger reaches its due time and is delivered as an occurrence. -/
  | remoteTriggerDue
  /-- AKWAUNE_FRAME_RECEIVED (R555): A gateway takes in an Akwaune frame and spreads its trigger over the board. -/
  | akwauneFrameReceived (bytes : List Byte) (sub : Fin 2621440)
  /-- KX_SP_ENABLE (R540): A write of KX_SP(k).EN binds a KX stream port to its queue. -/
  | kxSpEnable (p : Path) (k : Fin 16) (w : Word)
  /-- REFCLK_LOSS (R558): REFCLK is declared absent and the AON clock moves to the internal oscillator. -/
  | refclkLoss
  /-- REFCLK_HOLDOVER_EXPIRY (R559): REFCLK absent for 10 ms makes a protective entry into STANDBY. -/
  | refclkHoldoverExpiry
  /-- REFCLK_RESTORED (R558): REFCLK is declared present again and every PLL relocks. -/
  | refclkRestored
  /-- PLL_LOCK_ACQUIRED (R560): Three windows within LOCK_TOL declare a PLL locked. -/
  | pllLockAcquired (k : Fin 8) (first second diff : BitVec 8)
  /-- PLL_LOCK_LOSS (R560): Two windows beyond LOCK_TOL_LOSS declare a PLL unlocked and its converters follow R68. -/
  | pllLockLoss (k : Fin 5) (first diff : BitVec 8)
  /-- CLKOUT_ENABLE (R564): A write of CLKOUT_CFG(o).EN starts or stops a clock output after checks. -/
  | clkoutEnable (p : Path) (o : Fin 4) (w : Word)
  /-- SWS_RUN (R568): A write of SWS_CTL.RUN starts the sweep profile at SEG0, or is refused. -/
  | swsRun (p : Path) (w : Word)
  /-- SWS_STOP (R568): A write of SWS_CTL.STOP holds the present frequency. -/
  | swsStop (p : Path) (w : Word)
  /-- SWS_SEGMENT_ADVANCE (R567): The sweep profile advances to the next segment on its duration, list boundary or gate. -/
  | swsSegmentAdvance
  /-- POWER_MODE (R581): The order makes a mode request now or at a TIME. -/
  | powerMode
  /-- POWER_REQUEST (R572): A write of GLOBAL_PWRCTL.REQ makes a mode request, replacing any pending one. -/
  | powerRequest (p : Path) (req : Fin 4)
  /-- POWER_CANCEL (R572): A write of GLOBAL_PWRCTL.CANCEL discards a pending request. -/
  | powerCancel (p : Path)
  /-- POWER_REQUEST_CARRIED_OUT (R573): A pending mode request no longer held stops plans, generators, recordings and TDC work and gates their units. -/
  | powerRequestCarriedOut
  /-- SLEEP_DRAIN_END (R574): The queue wait before SLEEP ends, entering SLEEP or stopping at STANDBY. -/
  | sleepDrainEnd
  /-- MODE_ENTRY_COMPLETE (R574): FAB stops, DRAM enters self-refresh or powers down and the links go down. -/
  | modeEntryComplete
  /-- WAKE_CAUSE (R575): A wake cause starts the return from STANDBY or SLEEP to READY. -/
  | wakeCause
  /-- RETURN_COMPLETE (R575): The device reaches READY and records LAST_WAKE. -/
  | returnComplete (failed : List (Fin 6))
  /-- AUTO_POLICY (R576): After AUTO_AFTER idle the device requests AUTO_MODE. -/
  | autoPolicy
  /-- FS_SET (R582): The order sets a new fs and relocks the SPLL, or completes STATE. -/
  | fsSet
  /-- FS_RELOCK_DONE (R582): The SPLL relocks at the new fs, or completes LOCK_FAILED after 1 ms. -/
  | fsRelockDone (ring index : Nat) (ok : Bool)
  /-- PWM_PERIOD_START (R668): A PWM period starts and takes a new PERIOD or HIGH. -/
  | pwmPeriodStart (i : Fin 4)
  /-- BOOT (R587): At POR_L release LK0 samples the straps, chooses a slot and verifies the image. -/
  | boot (part : Option FlashPart)
  /-- FIRMWARE_READY (R588): The lock-keepers are UP and the device is firmware-ready. -/
  | firmwareReady
  /-- WATCHDOG_EXPIRY (R590): A lock-keeper watchdog expires and restarts it from its segment. -/
  | watchdogExpiry (k : Fin 4)
  /-- LK_READY (R589): A restarting lock-keeper reports ready and becomes UP, and waiting duties run. -/
  | lkReady (k : Fin 4)
  /-- LK_RESTART_TIMEOUT (R594): A lock-keeper not ready 50 ms into activation is restarted with its old segment. -/
  | lkRestartTimeout (k : Fin 4)
  /-- FWS_VERIFY (R592): A GO with OP = VERIFY reads and checks a staged image. -/
  | fwsVerify (p : Path)
  /-- FWS_WRITE (R592): A GO with OP = WRITE checks the image, writes it to the other slot and puts it on trial. -/
  | fwsWrite (p : Path)
  /-- FWS_RUN (R592): A GO with OP = RUN in recovery starts the staged image without writing flash. -/
  | fwsRun (p : Path)
  /-- STAGING_DONE (R592): Staging ends in DONE or FAILED and asserts interrupt source 133. -/
  | stagingDone (img : FwImage) (flashOk : Bool)
  /-- MAILBOX_IN_WRITE (R597): A sender's write of IN stores the word, or is dropped when IN is full. -/
  | mailboxInWrite (p : Path) (ch : Fin 16) (w : Word)
  /-- MAILBOX_OUT_READ (R597): A sender's read of OUT returns the word and clears OUT_FULL. -/
  | mailboxOutRead (p : Path) (ch : Fin 16)
  /-- RETRACT (R599): A write of RETRACT discards a word not yet read by the firmware. -/
  | retract (p : Path) (ch : Fin 16)
  /-- FIRMWARE_IN_READ (R601): The firmware reads a channel's IN and clears IN_FULL. -/
  | firmwareInRead (ch : Fin 16)
  /-- FIRMWARE_OUT_WRITE (R604): The firmware writes OUT, setting OUT_FULL, when OUT is empty. -/
  | firmwareOutWrite (ch : Fin 16)
  /-- VERSION (R606): The service replies with the versions and SVNs. -/
  | version (ch : Fin 16)
  /-- HEALTH (R606): The service replies with the lock-keeper states. -/
  | health (ch : Fin 16)
  /-- FW_ACTIVATE (R593): The secure service replaces the running firmware one lock-keeper at a time. -/
  | fwActivate (ch : Fin 16)
  /-- FW_COMMIT (R595): The secure service writes a boot record ending the trial. -/
  | fwCommit (ch : Fin 16)
  /-- SVN_COMMIT (R595): The secure service raises the fused minimum SVN to the running image's. -/
  | svnCommit (ch : Fin 16)
  /-- CFG_WRITE (R606): The secure service writes the configuration partition. -/
  | cfgWrite (ch : Fin 16)
  /-- LOG_READ (R606): The service replies with firmware log entries. -/
  | logRead (ch : Fin 16)
  /-- PNL_INFO (R649): The panel service replies with the panel size and status. -/
  | pnlInfo (ch : Fin 16)
  /-- PNL_OWNER (R649): The panel service sets the panel owner. -/
  | pnlOwner (ch : Fin 16)
  /-- PNL_BLIT (R649): The panel service writes pixels into the frame store. -/
  | pnlBlit (ch : Fin 16)
  /-- PNL_FILL (R649): The panel service fills a rectangle of the frame store. -/
  | pnlFill (ch : Fin 16)
  /-- PNL_PUSH (R648): The panel service pushes the dirty tiles now. -/
  | pnlPush (ch : Fin 16)
  /-- UNKNOWN_SERVICE (R606): An unlisted service is answered BAD_SERVICE. -/
  | unknownService (ch : Fin 16)
  /-- MON_ID (R607): The ID command prints part, revision, version, slot and EPOCH. -/
  | monId
  /-- MON_RD_B0 (R607): The RD B0 command reads DWs of PF0 BAR0. -/
  | monRdB0 (a n : Nat)
  /-- MON_RD_B2 (R607): The RD B2 command reads PF0 BAR2 without read effects. -/
  | monRdB2 (a n : Nat)
  /-- MON_WR (R608): The WR command writes PF0 BAR0 as agent MON. -/
  | monWr (a : Nat) (v : Word)
  /-- MON_TOK_REQ (R608): The TOK REQ command requests the token for MON. -/
  | monTokReq
  /-- MON_TOK_REL (R608): The TOK REL command releases the token for MON. -/
  | monTokRel
  /-- MON_LK (R607): The LK command prints lock-keeper states and watchdog counts. -/
  | monLk
  /-- MON_EV (R617): The EV command prints the last 16 records of the event store. -/
  | monEv
  /-- MON_TIME (R607): The TIME command prints TIME96 and the timekeeper state. -/
  | monTime
  /-- MON_MB_WRITE (R607): The MB w command writes a word to NS4 IN. -/
  | monMbWrite (w : Word)
  /-- MON_MB_READ (R607): The MB command reads NS4 OUT. -/
  | monMbRead
  /-- MON_BAUD (R607): The BAUD command sets the UART rate. -/
  | monBaud (r : Nat)
  /-- MON_RESET (R608): The RESET command writes FULL_RESET with a key as agent MON. -/
  | monReset (k : Word)
  /-- MON_HELP (R607): The HELP command lists the commands. -/
  | monHelp
  /-- MON_UNKNOWN (R607): An unknown command answers ERR 02. -/
  | monUnknown (lost : Nat)
  /-- MON_OFF_WRITE (R608): A write of MGMT_MON.MON_OFF stops the monitor and releases or cancels its token. -/
  | monOffWrite (p : Path) (off : Bool)
  /-- SMB_S4_WRITE (R609): SMBus command 0x10 writes S4 IN. -/
  | smbS4Write (w : Word) (pec : Bool)
  /-- SMB_S4_READ (R609): SMBus command 0x11 reads S4 OUT. -/
  | smbS4Read
  /-- SMB_S4_STATUS (R609): SMBus command 0x12 reads the S4 status byte. -/
  | smbS4Status
  /-- SMB_MGMT_ADDR (R609): SMBus command 0x20 sets MGMT_ADDR. -/
  | smbMgmtAddr (w : Word) (pec : Bool)
  /-- SMB_MGMT_DATA (R609): SMBus command 0x21 accesses MGMT_DATA as agent MGMT. -/
  | smbMgmtData (w : Option Word) (pec : Bool)
  /-- EV_INJECT (R630): A keyed write of EV_INJECT raises a source once with INFO all ones. -/
  | evInject (p : Path) (src : Fin 512) (key : BitVec 16)
  /-- CONTAINMENT_CLOSE (R619): A containment closes after CONTAIN_US and queues a summary record if it counted consequences. -/
  | containmentClose
  /-- FULL_RESET (R625): A keyed write of GLOBAL_RESET.FULL_RESET from the holder or MGMT enters full reset. -/
  | fullReset (p : Path) (key : BitVec 16)
  /-- POR_L (R626): POR_L low enters full reset, and its release samples the straps. -/
  | porL (st : Straps)
  /-- PERST_L (R357): PERST_L low enters full reset with the straps of the last POR_L. -/
  | perstL
  /-- DISP_ENABLE (R633): A write of DISP_CTL(h).EN starts or stops a head. -/
  | dispEnable (p : Path) (h : Fin 2) (w : Word)
  /-- COMMIT (R634): A write of DISP_CTL(h).COMMIT checks the shadow and makes a commit pending. -/
  | commit (p : Path) (h : Fin 2)
  /-- HPD_PLUG (R633): HPD going high starts head training. -/
  | hpdPlug (h : Fin 2)
  /-- HPD_UNPLUG (R633): HPD held low for more than 2 ms idles the main link. -/
  | hpdUnplug (h : Fin 2)
  /-- HPD_IRQ (R633): A short HPD pulse retrains the head when the link was lost. -/
  | hpdIrq (h : Fin 2) (lost : Bool)
  /-- DISP_TRAINING_DONE (R632): Head training succeeds into RUNNING or fails into FAILED. -/
  | dispTrainingDone (h : Fin 2) (rate : Fin 5) (lanes : Fin 5) (ok : Bool)
  /-- VERTICAL_BLANKING_START (R635): At the start of vertical blanking the head copies a pending shadow and takes its display cut. -/
  | verticalBlankingStart (h : Fin 2)
  /-- ACTIVE_LINE_START (R643): An active line begins and the composer supplies its pixels. -/
  | activeLineStart (h : Fin 2) (supplied : Fin 3841)
  /-- DISP_EDID (R646): The order reads EDID blocks over AUX. -/
  | dispEdid
  /-- DISP_PALETTE (R646): The order loads a palette into the shadow. -/
  | dispPalette
  /-- PNL_ENABLE (R647): A write of PNL_CFG.EN runs the panel initialisation sequence. -/
  | pnlEnable (p : Path) (w : Word)
  /-- PNL_PUSH_TIMER (R648): Every PERIOD_MS LK3 pushes the dirty tiles to the panel. -/
  | pnlPushTimer
  /-- TIMEKEEPER_TICK (R515): At each 40 ns AON tick the timekeeper adds INC, takes a newly written INC and re-anchors the counter-to-time mappings. -/
  | timekeeperTick
  /-- INIT_PASSED_EXTENT (R303): A pound in WAIT_INIT becomes ACTIVE when the channel initialisation has passed its whole extent. -/
  | initPassedExtent (n : Fin 64)
  /-- DRIVE_LINK_DOWN (R438): The link of a READY drive goes down, and the drive enters RESET with its outstanding commands ended. -/
  | driveLinkDown (n : Fin 8)
  /-- CONTROLLER_FATAL_STATUS (R438): A READY drive reports CSTS.CFS, and the drive enters RESET with its outstanding commands ended. -/
  | controllerFatalStatus (n : Fin 8)
  /-- KX_STREAM_BARGE_ARRIVAL (R540): A barge of a KX stream port arrives at the destination device and is offered to queue DQ, with a LINK GAP mark first when barges were lost. -/
  | kxStreamBargeArrival (k : Fin 16) (q : Fin 4096) (b : Barge) (endStamp : Nat) (lost : Option (Fin 64))
  /-- PROBE_FRAME_DROPPED (R483): A probe frame whose CRC fails, whose TYPE is unlisted or whose LEN exceeds 2,048 is dropped and counted in CRCERR or LOSTF. -/
  | probeFrameDropped (n : Fin 16) (crc : Bool)
  /-- PROBE_ADAPTATION_DONE (R481): A TRAINING probe lane detects signal and completes adaptation within 20 ms and enters ALIGN. -/
  | probeAdaptationDone (n : Fin 16)
  /-- ETH0_LINK_CHANGE (R554): The ETH0 link goes up or down, changing ETH_CFG.LINK and whether the device can act as Akwaune gateway. -/
  | eth0LinkChange (up : Bool)
  /-- COMPLETION_RECEIVED (R350): A completion to one of the device's own reads of a table or image arrives and is reassembled, and the order that issued the read proceeds. -/
  | completionReceived (ring index off : Nat) (data : List Byte) (reason : Fin 5)
  /-- NVME_COMMAND_COMPLETION (R452): A drive's Read, Flush or Dataset Management command completes, advancing NVME_READ or NVME_TRIM or letting a stopping recording reach OFF. -/
  | nvmeCommandCompletion (c : NvmeDone) (ok : Bool)
  /-- AUX_TRANSACTION_DONE (R646): A 16-byte DisplayPort AUX transaction of DISP_EDID completes, is retried, or fails after 3 retries with AUX_FAILED. -/
  | auxTransactionDone (ring index : Nat) (answer : Option (List Byte))
  /-- CONFIG_SPACE_WRITE (R351): A configuration write changes Bus Master Enable, Memory Space Enable or other control bits, and request issue stops or resumes at a TLP boundary. -/
  | configSpaceWrite (fn : Fin 2) (c : CfgWrite)
  /-- SWS_SETTLED (R566): 2 µs after a step, the sweep synthesizer output is within 1 kHz of its target, SETTLING clears and a MUTE_SETTLE mute is lifted. -/
  | swsSettled
  /-- STORED_TRIMS_LOADED (R77): 50 µs after a converter enters IDLE with a matching stored set, the targets are loaded, FG_STATE becomes SKIPPED and READY is set. -/
  | storedTrimsLoaded (n : Fin 4)
  /-- PNL_INIT_COMPLETE (R647): LK3's panel initialisation sequence ends, and the panel becomes READY, or ERROR with PNL_ERROR. -/
  | pnlInitComplete (id : Word)
deriving DecidableEq, Repr

end Sys2Proof
end

