-- ==== Sys2Proof/WellFormed.lean ====
section
/-!
DEFINITION. Well-formed commands: what a command's operands must be for the command to be one that the outside can bring. The bounds of
unit numbers stand in the operands' types; these are the rest.
-/

namespace Sys2Proof

/-- A register's key: a word of PF0 BAR0, PF0 BAR2 or PF1 BAR0 (R345, R655). -/
def keyOk (key : Nat) : Bool := key % 4 == 0 && (key < 0x1000000 || (0x2000000 ≤ key && key < 0x2010000) || (0x3000000 ≤ key && key < 0x3010000))

/-- An order's name: one of 16 command rings and a 32-bit index (R368). -/
def refOk (ring index : Nat) : Bool := ring < 16 && index < 2 ^ 32

/-- A read of the device's own. -/
def readOk : ReadOf → Bool
  | .order ring index => refOk ring index
  | .move _ line => line < 2 ^ 26 + 2
  | _ => true

/-- A poisoned TLP. -/
def poisonedOk : PoisonedTlp → Bool
  | .completion r => readOk r
  | .barWrite _ => true

/-- A completed NVMe command. -/
def doneOk : NvmeDone → Bool
  | .read ring index _ => refOk ring index
  | .trim ring index => refOk ring index
  | .flush _ _ => true

/-- The header fields of a barge fit their widths (R319). -/
def Barge.ok (b : Barge) : Bool :=
  b.type < 256 && b.flags < 256 && b.stream < 65536 && b.source < 65536 && b.seq < 2 ^ 32 && b.stamp < 2 ^ 96 && b.qual < 256
    && b.payload.length < 2 ^ 32

/-- Whether a command is well formed. -/
def Instr.wf : Instr → Bool
  | .registerWrite _ key _ => keyOk key
  | .barAccessViolation key size _ _ => key < 0x3010000 && 1 ≤ size && size ≤ 64
  | .convSyncT0Read _ => true
  | .adcScntLoRead _ _ => true
  | .queueTearbase0Read _ => true
  | .nvmeSlotCapRead _ _ => true
  | .nvmeRecChunkRead _ _ => true
  | .nvmeRecTrecRead _ _ => true
  | .sgT0Read _ _ => true
  | .sgPlayedLoRead _ _ => true
  | .timeNow0Read _ _ => true
  | .ethTxt0Read _ _ => true
  | .ethRxt0Read _ _ => true
  | .mgmtDataRead _ => true
  | .mgmtDataWrite _ _ => true
  | .planLoad => true
  | .planStart => true
  | .planStop => true
  | .planUnload => true
  | .planStartDue _ => true
  | .planStopDue ring index => refOk ring index
  | .laneWakeDone _ => true
  | .convRefbufWrite _ _ => true
  | .refRdy _ => true
  | .adcOn _ _ => true
  | .adcOff _ _ => true
  | .converterWakeDone _ => true
  | .dacOn _ _ => true
  | .dacOff _ _ => true
  | .adcArm _ _ _ => true
  | .adcDisarm _ _ _ => true
  | .startInstant _ => true
  | .firstAcquiredSample _ _ => true
  | .granuleStop _ => true
  | .convertedSample _ _ => true
  | .fsChange _ => true
  | .commandSync _ => true
  | .syncEdge => true
  | .syncReferenceEdge _ => true
  | .fgStart _ _ => true
  | .foregroundCalEnd _ ms => ms.length ≤ 527
  | .dwellEnd _ ms => ms.length ≤ 527
  | .degradedWindowEnd _ _ ms => ms.length ≤ 527
  | .calibrationStep _ => true
  | .save _ => true
  | .saveDone => true
  | .hkSequenceStart _ => true
  | .hkGo _ _ => true
  | .hkConversion _ _ _ => true
  | .thermalEmergency _ => true
  | .supplyFault _ => true
  | .emergClear _ => true
  | .supplyClear _ => true
  | .ddcCtlWrite _ _ _ => true
  | .retuneGo _ _ => true
  | .retuneCancel _ _ => true
  | .ddcRetune => true
  | .retuneBoundary _ => true
  | .listAdvance _ => true
  | .ddcOutputSample _ => true
  | .pltEvaluation _ => true
  | .frameFilled _ _ => true
  | .sheetDelivered _ => true
  | .laneFaultDetected _ _ _ _ => true
  | .laneInject _ _ _ _ => true
  | .failoverSpareReady _ => true
  | .spareTest => true
  | .testEnd _ _ => true
  | .windowLoad => true
  | .laneTest => true
  | .holdReset _ _ => true
  | .traceQueued _ => true
  | .decayInstant _ => true
  | .tileFlush _ _ _ _ => true
  | .tileReadRequest _ _ _ => true
  | .snoopReply _ _ _ => true
  | .reamSnapshot => true
  | .reamClear => true
  | .reamCtlClear _ _ => true
  | .reamCut _ => true
  | .snapshotReadBegin _ _ => true
  | .reamEnable _ _ _ => true
  | .occurrence _ _ => true
  | .chamberTimeout _ => true
  | .holdoffEnd _ => true
  | .autoTimeout _ => true
  | .flArm _ _ => true
  | .flCancel _ _ => true
  | .flightArm => true
  | .armTimeReached _ => true
  | .weirLoad => true
  | .trigInEdge _ _ _ => true
  | .ibusEdge _ _ _ => true
  | .deadTimeEnd _ _ => true
  | .stuckTimeout _ => true
  | .stuckRearm _ => true
  | .trigOutPulseEnd _ => true
  | .ibusPulseEnd _ => true
  | .cuEnWrite _ _ _ => true
  | .cuWakeDone _ => true
  | .cuRunWrite _ _ => true
  | .cuStopWrite _ _ => true
  | .cuPoke _ _ => true
  | .cuWindowWrite _ _ _ _ => true
  | .cuTimerExpiry _ => true
  | .eventEntry _ _ _ => true
  | .qrdCopyLanded _ => true
  | .sendDone _ _ => true
  | .cuNop _ => true
  | .cuAdd _ => true
  | .cuSub _ => true
  | .cuAnd _ => true
  | .cuOr _ => true
  | .cuXor _ => true
  | .cuShl _ => true
  | .cuShr _ => true
  | .cuSra _ => true
  | .cuMul _ => true
  | .cuSlt _ => true
  | .cuSltu _ => true
  | .cuAddi _ => true
  | .cuAndi _ => true
  | .cuOri _ => true
  | .cuLui _ => true
  | .cuShli _ => true
  | .cuShri _ => true
  | .cuSrai _ => true
  | .cuLdw _ _ => true
  | .cuStw _ => true
  | .cuVld _ _ => true
  | .cuVst _ => true
  | .cuLdt _ _ => true
  | .cuStt _ => true
  | .cuBeq _ => true
  | .cuBne _ => true
  | .cuBlt _ => true
  | .cuBge _ => true
  | .cuJmp _ => true
  | .cuJr _ => true
  | .cuCall _ => true
  | .cuWait _ => true
  | .cuRete _ => true
  | .cuHalt _ => true
  | .cuMfs _ => true
  | .cuMts _ => true
  | .cuTnow _ _ => true
  | .cuTrig _ _ => true
  | .cuRdtrg _ => true
  | .cuQpop _ => true
  | .cuQrd _ => true
  | .cuQfree _ => true
  | .cuSend _ => true
  | .cuQstat _ => true
  | .cuVadd _ => true
  | .cuVsub _ => true
  | .cuVmov _ => true
  | .cuVswap _ => true
  | .cuVconj _ => true
  | .cuVbf _ => true
  | .cuVspl _ => true
  | .cuVcmul _ => true
  | .cuVmac _ => true
  | .cuVmsu _ => true
  | .cuVmul _ => true
  | .cuVcmac _ => true
  | .cuVcmacj _ => true
  | .cuVsq _ => true
  | .cuAclr _ => true
  | .cuVnar _ => true
  | .cuAred _ => true
  | .cuAxh _ => true
  | .cuAxl _ => true
  | .cuLoop _ => true
  | .cuLoad => true
  | .cuRun => true
  | .cuRunDue ring index => refOk ring index
  | .cuStop => true
  | .cuStopDue ring index => refOk ring index
  | .trainingStart _ _ => true
  | .trainingDone _ _ _ => true
  | .initDone _ => true
  | .refreshDue _ _ _ => true
  | .mr4Read _ _ => true
  | .periodicCalibration _ _ => true
  | .alertN _ => true
  | .replayDone _ => true
  | .scrubLine _ _ _ => true
  | .memFence _ _ _ => true
  | .channelFence _ _ => true
  | .poundRelay _ => true
  | .poundEnable _ _ _ => true
  | .poundFreeze _ _ _ => true
  | .bargeCommit _ => true
  | .drainRead _ _ _ => true
  | .captureAccepted => true
  | .captureBargeRead _ _ _ => true
  | .poundCut => true
  | .linkTrained width rate _ => [1, 2, 4, 8, 16].contains width && 1 ≤ rate && rate ≤ 6
  | .hotReset => true
  | .poisonedTlpReceived t => poisonedOk t
  | .completionTimeout r => readOk r
  | .powerStateChange _ _ => true
  | .vectorModerationEnd _ _ => true
  | .tokenReq _ => true
  | .tokenRel _ => true
  | .mgmtTokenReq => true
  | .mgmtTokenRel => true
  | .mgmtForce _ => true
  | .lookoutPoll tails _ => tails.all (fun e => decide (e.1 < 113))
  | .entryFetched _ es => es.length ≤ 8
  | .orderAcceptance => true
  | .park => true
  | .finalPollResult tails _ => tails.all (fun e => decide (e.1 < 113))
  | .wake => true
  | .nop => true
  | .cancel => true
  | .bargeDelivery _ _ => true
  | .bufferCloseTimer _ => true
  | .ringFlush _ _ => true
  | .ringEnWrite _ _ _ _ => true
  | .er1TailWrite _ => true
  | .eventRecordWrite _ => true
  | .moveStart _ _ => true
  | .moveDone _ data n _ => n < 2 ^ 32 && data.length ≤ n
  | .pacedRequest _ data => data.length ≤ 65536
  | .admissionRequest _ b _ => b.ok
  | .cellVisible _ => true
  | .cellFree _ _ _ _ _ => true
  | .queueEnWrite _ _ => true
  | .reclaimDone _ => true
  | .queueRebuildDone _ _ => true
  | .queueQuiesce => true
  | .queueQuiesceDue ring index => refOk ring index
  | .nvmePortEnable _ _ _ => true
  | .driveLinkUp _ _ _ _ => true
  | .driveInitDone _ _ => true
  | .driveCommandTimeout _ => true
  | .driveResetDone _ _ _ _ => true
  | .nvmeDmaAccess _ => true
  | .nvmeSlotEnable _ _ _ => true
  | .recordingEnable _ _ _ => true
  | .recordingStop _ _ => true
  | .chunkCloseTimer _ => true
  | .writeCompletion _ _ i _ => i < 2 ^ 32
  | .nvmeRead => true
  | .nvmeTrim => true
  | .seqLoad => true
  | .seqStart => true
  | .seqStop => true
  | .skewCal => true
  | .skewCalDone trims _ => trims.length == 4
  | .granuleCommit _ _ _ => true
  | .sgRelease _ _ => true
  | .sgStopWrite _ _ => true
  | .sgEnWrite _ _ _ => true
  | .probeGroupsWrite _ _ => true
  | .probeLaneEnable _ _ _ => true
  | .probeTrainingTimeout _ => true
  | .probeLaneAligned _ => true
  | .probeHello _ _ _ _ => true
  | .probeSyncLoss _ _ => true
  | .frameLost _ => true
  | .probeBeacon _ => true
  | .echoFrame _ _ _ _ => true
  | .creditFrame _ _ => true
  | .vcsFrame _ _ => true
  | .netsFrame _ _ => true
  | .subAckFrame _ _ => true
  | .probeBargeClose _ => true
  | .bridgeSend _ => true
  | .stimFrameSend _ => true
  | .vcEnable _ _ _ => true
  | .bpEnable _ _ _ => true
  | .egEnable _ _ _ => true
  | .probeCatLoad => true
  | .probeSub => true
  | .subAckTimeout ring index => refOk ring index
  | .tdcEdge _ _ _ => true
  | .tdcWindowEnd _ => true
  | .gateEnd _ => true
  | .tdcBargeClose _ => true
  | .tdcInEnable _ _ _ => true
  | .tdcFanWrite _ _ => true
  | .timeIncWrite _ _ => true
  | .timeServoWrite _ _ => true
  | .holdTimeout => true
  | .timeModeWrite _ _ => true
  | .timeStep => true
  | .stepTick => true
  | .tgEnable _ _ _ => true
  | .gateAnnounce _ => true
  | .gateFiring _ => true
  | .gateWake _ => true
  | .ethTxGo _ _ _ => true
  | .ethTxDone _ _ => true
  | .ethFrameReceived bytes _ => bytes.length ≤ 1522
  | .kxLinkEnable _ _ _ => true
  | .kxHello _ _ _ _ _ => true
  | .kxLinkLoss _ _ => true
  | .timeBeaconSend echoes => echoes.all (fun e => decide (e.2 < 2 ^ 32))
  | .timeBeaconReceived _ _ _ _ _ => true
  | .followLostTimeout => true
  | .remoteTriggerReceived _ _ _ => true
  | .remoteTriggerDue => true
  | .akwauneFrameReceived bytes _ => bytes.length ≤ 1522
  | .kxSpEnable _ _ _ => true
  | .refclkLoss => true
  | .refclkHoldoverExpiry => true
  | .refclkRestored => true
  | .pllLockAcquired _ _ _ _ => true
  | .pllLockLoss _ _ _ => true
  | .clkoutEnable _ _ _ => true
  | .swsRun _ _ => true
  | .swsStop _ _ => true
  | .swsSegmentAdvance => true
  | .powerMode => true
  | .powerRequest _ _ => true
  | .powerCancel _ => true
  | .powerRequestCarriedOut => true
  | .sleepDrainEnd => true
  | .modeEntryComplete => true
  | .wakeCause => true
  | .returnComplete failed => failed.length ≤ 6
  | .autoPolicy => true
  | .fsSet => true
  | .fsRelockDone ring index _ => refOk ring index
  | .pwmPeriodStart _ => true
  | .boot _ => true
  | .firmwareReady => true
  | .watchdogExpiry _ => true
  | .lkReady _ => true
  | .lkRestartTimeout _ => true
  | .fwsVerify _ => true
  | .fwsWrite _ => true
  | .fwsRun _ => true
  | .stagingDone img _ => img.head.length == 512
  | .mailboxInWrite _ _ _ => true
  | .mailboxOutRead _ _ => true
  | .retract _ _ => true
  | .firmwareInRead _ => true
  | .firmwareOutWrite _ => true
  | .version _ => true
  | .health _ => true
  | .fwActivate _ => true
  | .fwCommit _ => true
  | .svnCommit _ => true
  | .cfgWrite _ => true
  | .logRead _ => true
  | .pnlInfo _ => true
  | .pnlOwner _ => true
  | .pnlBlit _ => true
  | .pnlFill _ => true
  | .pnlPush _ => true
  | .unknownService _ => true
  | .monId => true
  | .monRdB0 a n => a < 0x1000000 && a % 4 == 0 && 1 ≤ n
  | .monRdB2 a n => a < 0x10000 && a % 4 == 0 && 1 ≤ n
  | .monWr a _ => a < 0x1000000 && a % 4 == 0
  | .monTokReq => true
  | .monTokRel => true
  | .monLk => true
  | .monEv => true
  | .monTime => true
  | .monMbWrite _ => true
  | .monMbRead => true
  | .monBaud _ => true
  | .monReset _ => true
  | .monHelp => true
  | .monUnknown _ => true
  | .monOffWrite _ _ => true
  | .smbS4Write _ _ => true
  | .smbS4Read => true
  | .smbS4Status => true
  | .smbMgmtAddr _ _ => true
  | .smbMgmtData _ _ => true
  | .evInject _ _ _ => true
  | .containmentClose => true
  | .fullReset _ _ => true
  | .porL _ => true
  | .perstL => true
  | .dispEnable _ _ _ => true
  | .commit _ _ => true
  | .hpdPlug _ => true
  | .hpdUnplug _ => true
  | .hpdIrq _ _ => true
  | .dispTrainingDone _ _ _ _ => true
  | .verticalBlankingStart _ => true
  | .activeLineStart _ _ => true
  | .dispEdid => true
  | .dispPalette => true
  | .pnlEnable _ _ => true
  | .pnlPushTimer => true
  | .timekeeperTick => true
  | .initPassedExtent _ => true
  | .driveLinkDown _ => true
  | .controllerFatalStatus _ => true
  | .kxStreamBargeArrival _ _ b endStamp _ => b.ok && endStamp < 2 ^ 96
  | .probeFrameDropped _ _ => true
  | .probeAdaptationDone _ => true
  | .eth0LinkChange _ => true
  | .completionReceived ring index _ data _ => refOk ring index && data.length ≤ 4096
  | .nvmeCommandCompletion c _ => doneOk c
  | .auxTransactionDone ring index answer => refOk ring index && (match answer with | some d => d.length == 16 | none => true)
  | .configSpaceWrite _ _ => true
  | .swsSettled => true
  | .storedTrimsLoaded _ => true
  | .pnlInitComplete _ => true

end Sys2Proof
end

