-- ==== Sys2Proof/Decode.lean ====
section
/-!
DEFINITION. The commands that words of the opcode table spell. The table gives the bits of no row: the rows are operations and events that
reach the block (register accesses, ring entries, frames, edges, due times), and no word encodes one.

Marked choices (log entries): DESIGN CHOICE 3. Each entry of notes/assumptions says safe or unsafe.
-/

namespace Sys2Proof

/-- The command that a word of `nbits` bits spells: none, since the table gives no row any bits. -/
def decodeTableWord (_nbits _w : Nat) : Option Instr := none

end Sys2Proof
end

