-- ==== Sys2Proof/Machine/State.lean ====
section
/-!
DEFINITION. The state of the IK-7120 as plain data: everything the spec gives the machine, the queue of waiting commands, and
what the model itself needs (a counter of open values and the list of what the device has sent out). The 7,480 registers of
PF0 BAR0 and those of the two other windows live in ONE register file (`State.regs`), under the keys of the register map;
everything else is held in the structures below.

Marked choices (log entries): DESIGN CHOICE 2, 67, 131; PRESUMED 35. Each entry of notes/assumptions says safe or unsafe.
-/

namespace Sys2Proof
namespace Machine

/-! ### Shared shapes -/

/-- A sparse family indexed by number: sorted by index, an index not listed stands for the family's default. -/
abbrev SMap (α : Type) := List (Nat × α)

/-- A register file: (key, word) pairs, keys strictly rising, no entry equal to the register's reset value. -/
abbrev RegFile := List (Nat × Word)

/-- A byte memory of the block: cells with strictly rising addresses and none equal to what an unlisted address reads as. -/
abbrev Mem := List Host.Cell

/-! ### Orders and rings (chapter 12) -/

/-- How far an accepted work order has gone (R391): waiting for its time, begun, or begun and cancelled (it stops at its
next granule). -/
inductive Phase where
  | pending | running | cancelling
deriving DecidableEq, Repr

/-- A command-ring entry the device has taken: its ring (0–15), its index in the ring's sequence (R368), the poll that
found it (R384), its 64 bytes, how far it has gone, the extent done so far, whether it took effect after its ordered time, a
number its own family keeps with it, and whether a hot reset has made its return
void (R413). -/
structure Order where
  ring : Nat
  index : Nat
  poll : Nat := 0
  bytes : List Byte
  phase : Phase := .pending
  done : Nat := 0
  late : Bool := false
  aux : Nat := 0
  noReturn : Bool := false
deriving DecidableEq, Repr

/-- The name of an order: ring and index. -/
abbrev OrderRef := Nat × Nat

/-- A read of host memory that an order has outstanding (R350): the order, the address and length, and the bytes that have
arrived so far, by offset. -/
structure HostRead where
  order : OrderRef
  addr : Nat
  len : Nat
  got : Mem := []
deriving DecidableEq, Repr

/-- An entry of a stream, move or event ring that the device has taken and not begun. -/
structure RingEntry where
  index : Nat
  bytes : List Byte
deriving DecidableEq, Repr

/-- A stream ring's open buffer (R395, R396): its entry, the bytes and barges in it, when its first barge was written, and
the CLOSE_MARK and FLUSH_US in force for it. -/
structure OpenBuf where
  entry : RingEntry
  used : Nat := 0
  barges : Nat := 0
  firstAt : Nat := 0
  closeMark : Bool := false
  flushUs : Nat := 0
deriving DecidableEq, Repr

/-- A move-engine channel's running entry (R405): bytes moved, whether a cancel has reached it, the lines whose completions
came poisoned. -/
structure MoveRun where
  entry : RingEntry
  done : Nat := 0
  cancelling : Bool := false
  bad : List Nat := []
deriving DecidableEq, Repr

/-- One ring (R367): the TAIL last seen, the entries taken and not begun, the fetch outstanding (first index, count), a
stream ring's open buffer and the POISON marks to be written after its last barge, a move channel's running entry and its
counted requests (R408), the poll number that found the fetch, and ER1's HEAD, which has no register. Ring numbers 0–112 are Table 12-1's; 113 stands for ER1. -/
structure Ring where
  tail : Nat := 0
  taken : List RingEntry := []
  fetch : Option (Nat × Nat) := none
  fetchPoll : Nat := 0
  buf : Option OpenBuf := none
  move : Option MoveRun := none
  after : List Barge := []
  head1 : Nat := 0
deriving DecidableEq, Repr

/-- The lookout (R376–R380): polls made, when the last poll that found a new entry was, whether its final poll is
outstanding, whether a WAKE or a full batch calls for an immediate poll, PARK_SEQ. -/
structure Lookout where
  polls : Nat := 0
  lastFound : Nat := 0
  lastPoll : Nat := 0
  finalPoll : Bool := false
  pollNow : Bool := false
  parkSeq : Nat := 0
deriving DecidableEq, Repr

/-! ### Queues and the cell pool (chapter 13) -/

/-- A barge held in a queue: its cells not yet freed, in list order; how many of all its cells are visible; how many it
has in all; whether its consumer has begun it. -/
structure QBarge where
  barge : Barge
  cells : List Nat
  total : Nat
  visible : Nat := 0
  begun : Bool := false
deriving DecidableEq, Repr

/-- What a cell's owner tag says when it is not FREE (Table 13-1): QUEUED or POPPED, queue, epoch, the popping unit, ORD;
for a
popped cell the bytes it holds; whether it was drawn from the DATA_RES reserve for a mark (R421). -/
structure CellTag where
  popped : Bool := false
  queue : Nat
  epoch : Nat
  popper : Nat := 0
  ord : Nat := 0
  data : List Byte := []
  lastOfBarge : Bool := false
  fromReserve : Bool := false
deriving DecidableEq, Repr

/-- A queue (R415–R435): its unread barges, the next ORD, the stamps and the stream of its tear register (R429), the SEQ of
the last counted barge of each stream (R338), when it entered CLOSING and the cells consumed since, the cells the last
reclaim freed, and the number of the port, ring, recording or stream that consumes it (R424). -/
structure Queue where
  barges : List QBarge := []
  nextOrd : Nat := 0
  tearFirst : Nat := 0
  tearLast : Nat := 0
  tearStream : Nat := 0
  tearQual : Nat := 0
  lastSeq : SMap Nat := []
  closedAt : Nat := 0
  consumed : Nat := 0
  reclaimed : Nat := 0
  binder : Nat := 0
deriving DecidableEq, Repr

/-- A mark waiting in the device-wide store (R421). -/
structure HeldMark where
  queue : Nat
  barge : Barge
deriving DecidableEq, Repr

/-! ### Events (chapter 21) -/

/-- An event record (Table 12-9, R612–R620), its TIME in 2^-16 ns. CLASS and SEVERITY follow from the source. -/
structure EvRec where
  source : Nat
  root : Bool := false
  conseq : Bool := false
  coalesced : Bool := false
  rep : Nat := 1
  time : Nat
  info : Nat
deriving DecidableEq, Repr

/-- An open containment (R619): its root, the instance the root concerns, when it closes (ns of device time), how many
consequences it has counted and the source of the first, and the root's TIME and INFO. -/
structure Containment where
  source : Nat
  inst : Nat
  closeAt : Nat
  count : Nat := 0
  first : Nat := 0
  time : Nat
  info : Nat
deriving DecidableEq, Repr

/-- The event store (R615–R619): per ring (0 ER0, 1 ER1) the waiting records in the order of their first occurrence and
the outstanding ones as (source, index); the open containments, oldest first; the last 16 records (R617). -/
structure EventStore where
  wait0 : List EvRec := []
  wait1 : List EvRec := []
  out0 : List (Nat × Nat) := []
  out1 : List (Nat × Nat) := []
  contain : List Containment := []
  recent : List EvRec := []
deriving DecidableEq, Repr

/-! ### The PCI Express port (chapter 11) -/

/-- The upstream link and the configuration space as far as the rules speak of it, for PF0 and PF1: Memory Space Enable,
Bus Master Enable, MSI-X enable and function mask, D3hot; the sizes and enables of R347–R351; the MSI-X table's words; the
vectors pending and when each last sent (R352, R353); the AER errors logged as (function, error); the read requests outstanding and the reads
still to be requested, as (function, address, bytes) (R347, R348). -/
structure Pcie where
  linkUp : Bool := false
  memSpace0 : Bool := false
  memSpace1 : Bool := false
  busMaster0 : Bool := false
  busMaster1 : Bool := false
  msixEn0 : Bool := false
  msixEn1 : Bool := false
  msixMask0 : Bool := false
  msixMask1 : Bool := false
  d3hot0 : Bool := false
  d3hot1 : Bool := false
  mps : Nat := 128
  mrrs : Nat := 512
  relaxed : Bool := false
  tag10 : Bool := false
  cplTimeout : Nat := 0
  cplTimeoutOff : Bool := false
  bars : SMap Nat := []
  msixTable : SMap Word := []
  msixPend : List (Nat × Nat) := []
  msixLast : SMap Nat := []
  aer : List (Nat × Nat) := []
  reads : List (Nat × Nat × Nat) := []
  readQ : List (Nat × Nat × Nat) := []
  pmeDue : Bool := false
deriving DecidableEq, Repr

/-! ### The timekeeper (chapter 18) -/

/-- The timekeeper (R515–R526): TIME96 in its own unit of 2^-26 ns, its advance excluding steps in the same unit (R519),
INC in force and the INC written for the next tick, the accepted steps waiting for their tick as (order, step in 2^-16 ns,
tick number), the steps made; when the servo last wrote LOCKED = 1 (ns of the advance). -/
structure Timekeeper where
  raw : Nat := 0
  adv : Nat := 0
  inc : Nat := 0xA0000000
  newInc : Option Nat := none
  steps : List (OrderRef × Int × Nat) := []
  stepCount : Nat := 0
  servoAt : Nat := 0
deriving DecidableEq, Repr

/-! ### What leaves the device -/

/-- The admin commands that the device uses (R439): Identify with its CNS, Set Features (Number of Queues), the creation and deletion of the I/O
completion and submission queues, Get Log Page with its page. -/
inductive NvAdmin where
  | identify (cns : Nat)
  | setQueues
  | createCq
  | createSq
  | deleteSq
  | deleteCq
  | logPage (page : Nat)
deriving DecidableEq, Repr

/-- One thing the device has sent to the outside, for `State.sent`. -/
inductive Sent where
  /-- An entry of a command, move or event ring returned, as its bytes then stand in host memory (R370). -/
  | entry (ring index : Nat) (bytes : List Byte)
  /-- A stream buffer returned: STATUS, CLOSE, BYTES and BARGES of Table 12-7. -/
  | buffer (ring index status close bytes barges : Nat)
  /-- A barge written into a stream buffer at an offset (R395), with Relaxed Ordering set or clear (R349), in memory writes of so many bytes
  at host addresses, EP set or clear (R347, R359). -/
  | barge (ring index offset : Nat) (b : Barge) (ro : Bool) (tlps : List (Nat × Nat × Bool))
  /-- A memory write, with EP set where it carries poison (R359), Relaxed Ordering clear. -/
  | hostWrite (addr : Nat) (data : List Byte) (ep : Bool)
  /-- A memory read request of function `fn`. -/
  | hostRead (fn addr len : Nat)
  /-- A write to the tally page at an offset (R371). -/
  | tally (offset : Nat) (w : Word)
  /-- An MSI-X message (R352). -/
  | msix (fn vec : Nat)
  /-- What a register read returned, by the path that read it. -/
  | reply (p : Path) (key : Nat) (w : Word)
  /-- A pulse on an output pin (0 SYNC_OUT, 1 TRIG_OUT, 2 IBUS), its number, the level it drives, the instant it begins (2^-16 ns) and its width in ns. One that begins within an earlier pulse of the pin extends that pulse. -/
  | pinPulse (pin index : Nat) (high : Bool) (start width : Nat)
  /-- A level driven at an output (0 marker 4g + m, 1 GPIO, 2 PWM, 3 PNL_RST_L, 4 RESET_L of memory channel, 5 PERST of a drive, true: asserted; 6 THERMTRIP_L, 7 CLKREQ_L, 8 WAKE_L) from an instant on (2^-16 ns). -/
  | level (pin index : Nat) (high : Bool) (time : Nat)
  /-- Every output high-impedance and every open-drain output released, as full reset begins (R626, R652). -/
  | released
  /-- A granule of a generator at its target: generator, count of its first sample, codes (R456). -/
  | granule (g count : Nat) (codes : List (Int × Int))
  /-- From an instant on (2^-16 ns) DAC `n` puts out code 0 whatever its generator supplies, or no longer (R53, R54). -/
  | dacMute (n : Nat) (on : Bool) (time : Nat)
  /-- A frame sent on a link of the device: the kind of link (0 probe lane, 1 KX, 2 ETH0, 3 NVMe, 4 SMBus, 5 monitor, 6 panel, 7 AUX), its number, and the bytes. -/
  | frame (link index : Nat) (bytes : List Byte)
  /-- An active line that a head sends: its number and pixels, RGB (R637). -/
  | line (head line : Nat) (pixels : List Word)
  /-- Pokeind's answer on UART0 (R607): the error code of Table 20-10, if it is ERR, and the numbers answered. -/
  | answer (err : Option Nat) (results : List Nat)
  /-- A remote trigger, or a time beacon, sent on Kavaxel link `l` (R544, R550). -/
  | trigger (l : Nat) (t : KxTrigger)
  | beacon (l : Nat) (b : KxBeacon)
  /-- This device's side of a HELLO exchange on Kavaxel link `l` (R537): its DEVID, its board's reference master's if it knows it, its slot. -/
  | kxHello (l devid : Nat) (refMaster : Option Nat) (slot : Nat)
  /-- The echo of a time beacon, returned on the link it came by (R544). -/
  | beaconEcho (l : Nat)
  /-- A command issued to an NVMe drive (R439): its opcode (0x00 Flush, 0x01 Write, 0x02 Read, 0x09 Dataset Management), NSID, first LBA,
  number of LBAs, and the data of a Write. -/
  | nvme (drive op nsid lba nlb : Nat) (data : List Byte)
  /-- An admin command issued to an NVMe drive (R439). -/
  | nvmeAdmin (drive : Nat) (c : NvAdmin)
  /-- The latency tolerance reported upstream, in µs, Snoop and No-Snoop alike; a power management event of function `fn` (R356). -/
  | ltr (us : Nat)
  | pme (fn : Nat)
  /-- An access completed with Unsupported Request: function 0 or 1 (R345, R346), or 8 + n for drive n (R438). -/
  | unsupported (fn : Nat)
deriving DecidableEq, Repr

/-- A slot of a plan that has lost its lane (R160–R166): the failed lane, the cause and the slot, when the fault was detected
and when the spare that takes the slot (99: none) is ready, both in 2^-16 ns of timekeeper time, the first lost frame, the
last frame that a mark already covers, and whether the plan was stopping, so that no FAILOVER mark is due. -/
structure Failover where
  failed : Nat
  cause : Nat
  slot : Nat
  detected : Nat
  spare : Nat := 99
  readyAt : Nat := 0
  firstLost : Nat
  upto : Option Nat := none
  stopping : Bool := false
deriving DecidableEq, Repr

/-- A transform lane (R156, R157, R166, R172): when its wake is or was complete (ns), and the test it runs: since when (ns),
the order that asked for it, and the lane's state before. -/
structure Lane where
  readyAt : Nat := 0
  testSince : Option Nat := none
  testRef : Option OrderRef := none
  before : Nat := 0
deriving DecidableEq, Repr

/-- A frame whose last sample has reached its lane (R140): its number, its lane, the windowed samples (R143) and the input headroom h
found (R144). -/
structure Frame where
  number : Nat
  lane : Nat
  h : Nat
  data : List (Int × Int)
deriving DecidableEq, Repr

/-- What a producer that holds one item has discarded since (R182, Table 13-2): the stamp of the first discarded item, the end
of the last, how many, and the QUAL of the first. -/
structure Discards where
  first : Nat
  last : Nat
  count : Nat
  qual : Nat
deriving DecidableEq, Repr

/-- A plan (chapters 1 and 5): the bytes of the PLAN_LOAD order that set it up; the export form and bounds latched at
PLAN_START; the PLAN_START order outstanding, its mode, gate and start time once known; the lanes of its slots; the source
sample number and stamp of frame 0; the next frame to fill and the next to deliver; frames filled and not delivered; the SEQ
of its sheet stream and of each detector set's traces; sheets produced; the frame it stops before and the PLAN_STOP order; the
marks waiting for their place in its sheet stream, and the TIME_STEP marks with the first source sample on their base; the sheet held by a refused export and what was discarded since; the
slots that have lost a lane; when its stop took effect (the advance); ORDER as latched. -/
structure Plan where
  bytes : List Byte := []
  fmt : Nat := 0
  first : Nat := 0
  last : Nat := 0
  startRef : Option OrderRef := none
  mode : Nat := 0
  gate : Nat := 0
  startAt : Option Nat := none
  startedAt : Nat := 0
  lanes : List Nat := []
  frame0 : Int := 0
  fillNext : Nat := 0
  nextFrame : Nat := 0
  inflight : List Frame := []
  sheetSeq : Nat := 0
  traceSeq : SMap Nat := []
  sheets : Nat := 0
  stopFrame : Option Nat := none
  stoppedAt : Option Nat := none
  order : Bool := false
  marks : List Barge := []
  stepMarks : List (Nat × Barge) := []
  held : Option Barge := none
  discards : Option Discards := none
  failovers : List Failover := []
deriving DecidableEq, Repr

/-- A source's sample stream (an ADC, a DDC or a virtual channel, keyed by its Source ID of Table 10-4): the number of the
next sample it will release, whether it releases at present, the number of the first of the present run, and the runs of
released samples (first, one past the last) that carry OVR, that lie in SETTLING, the samples first converted after a
calibration step, and a stop that its last samples have still to reach (one past the last, GAP cause, unit); the samples of the
present run, newest first, which the filters and lanes it feeds keep; the time steps that its samples have not reached: the first sample
on the new base, the pounds that record it, the mark. -/
structure Source where
  next : Nat := 0
  hist : List (Int × Int) := []
  steps : List (Nat × List Nat × Barge) := []
  active : Bool := false
  runFirst : Nat := 0
  ovr : List (Nat × Nat) := []
  settling : List (Nat × Nat) := []
  calSteps : List Nat := []
  endAt : Option (Nat × Nat × Nat) := none
deriving DecidableEq, Repr

/-- An ADC's internals (chapters 2 and 3): its sample counter; the anchor (counter, time in 2^-16 ns) of the mapping from counter to
time, and the earlier anchors since the last SYNC, newest first, each with the INC under it (R518, R525); when its reference buffer was enabled and when ON was written (ns); the start settings latched by ARM and
the start instant once reached; the first acquired counter; where it stops; whether it goes OFF when it has stopped; the
overrange hold left; settings waiting for the next granule (FS_ADJ; THRESH and HOLD) and those in force. -/
structure Adc where
  count : Nat := 0
  anchorCount : Nat := 0
  anchorTime : Nat := 0
  past : List (Nat × Nat × Nat) := []
  refSince : Option Nat := none
  onSince : Nat := 0
  src : Nat := 0
  sel : Nat := 0
  edge : Nat := 0
  delay : Nat := 0
  startAt : Option Nat := none
  first : Option Nat := none
  began : Bool := false
  stopAt : Option Nat := none
  offAfter : Bool := false
  hold : Nat := 0
  fsAdj : Nat := 0
  fsPending : Option Nat := none
  ovrThresh : Nat := 0x7FF
  ovrHold : Nat := 0
  failed : Bool := false
deriving DecidableEq, Repr

/-- A DAC's internals: when its buffer was enabled and ON was written (ns); the count from which a protective mute holds (R54); the
granules committed to it whose samples have not all reached the ball. -/
structure Dac where
  refSince : Option Nat := none
  onSince : Nat := 0
  muteFrom : Option Nat := none
  granules : List (Nat × List (Int × Int)) := []
deriving DecidableEq, Repr

/-- The SYNC in progress (R65, R66): when it was accepted (2^-16 ns of the timekeeper's advance). Its reference edge is the eighth
REFCLK edge, 80 ns, later. -/
structure SyncRun where
  since : Nat
deriving DecidableEq, Repr

/-- A temperature set (R72–R76): the trims of all seventeen slices by trim code (Table 03-10: 0 OFFSET, 1 GAIN, 2–17 DELAY
by position, 18–30 THRESH) at index slice × 32 + code, as integers. Its temperature, fs and VALID bit are CAL_SETT's. -/
structure TrimSet where
  trims : SMap Int := []
deriving DecidableEq, Repr

/-- The gradual application of new trims to one slice (R85–R89): the slice, the cause, the step number reached, and the
counter (in granules) at which the last step was made. -/
structure Application where
  slice : Nat
  cause : Nat
  index : Nat := 0
deriving DecidableEq, Repr

/-- An ADC's calibration (chapter 3): applied and target trims; the eight sets; the application in progress and the cause of
those that follow; the granule of the last step; the steps' SEQ; the temperature of the last computation of the targets; when
the present foreground calibration, dwell, degraded window or load of stored trims began (ns); whether a foreground
calibration waits for the dwell to end; consecutive rejections by slice and trim; slices failed. -/
structure Cal where
  applied : SMap Int := []
  target : SMap Int := []
  sets : SMap TrimSet := []
  app : Option Application := none
  cause : Nat := 0
  lastStep : Option Nat := none
  seq : Nat := 0
  lastTemp : Int := 0
  fgSince : Option Nat := none
  fgWaits : Bool := false
  dwellSince : Option Nat := none
  windowSince : Option Nat := none
  loadSince : Option Nat := none
  bgOn : Bool := false
  rejects : SMap Nat := []
  failedSlices : List Nat := []
deriving DecidableEq, Repr

/-- One flash copy of the calibration partition (R585): its SEQ, and the valid sets as (ADC × 8 + set; the CAL_SETT word and
the trims). -/
structure CalCopy where
  seq : Nat := 0
  sets : SMap (Nat × TrimSet) := []
deriving DecidableEq, Repr

/-- A housekeeping sequencer (R98, R99, R102): the channels still to convert and when the next conversion ends (ns), whether a start is
pending behind another sequencer, when the timer last started it (ns), the PWM edges whose delayed start is still to come (ns), how
often it has started, and the HK_LIMIT words of its channels and HK_THERM as they stood when the sequence began. -/
structure HkSeq where
  running : List Nat := []
  nextAt : Nat := 0
  pendingStart : Bool := false
  lastStart : Nat := 0
  edges : List Nat := []
  starts : Nat := 0
  limits : SMap Word := []
  therm : Word := 0
deriving DecidableEq, Repr

/-- What the monitor's results lead to (R72, R100, R101, R577, R578): each ADC site's results of the last second (ns, value);
sequencer 0's last result of each thermal site; how many results in a row of each site stood at 115 °C or above; since when
each rail has been within its limits (ns); the site or rail whose protective action is due; whether the trip has occurred. -/
structure Monitor where
  sites : SMap (List (Nat × Int)) := []
  pass0 : SMap Int := []
  hot : SMap Nat := []
  railOk : SMap Nat := []
  emergDue : Option Nat := none
  supplyDue : Option Nat := none
  tripped : Bool := false
deriving DecidableEq, Repr

/-- A running PWM (R668): when its present period began (ns), PERIOD and HIGH in force in AON cycles, the PERIOD and HIGH that the first
write after the end of that period replaced with the time of that write (ns). -/
structure Pwm where
  since : Nat
  period : Nat
  high : Nat
  old : Nat × Nat := (0, 0)
  wroteAt : Nat := 0
deriving DecidableEq, Repr

/-- A pending retune of a DDC (R118–R126): FREQ and PHASE, its cause (0 REGISTER, 1 ORDER, 2 LIST), its order, the time it
waits for (a TIME, or the firing of its gate once it has fired), the gate it waits for, and whether it is late. -/
structure Retune where
  freq : Nat
  phase : Nat
  cause : Nat
  order : Option OrderRef := none
  notBefore : Option Nat := none
  gate : Option Nat := none
  late : Bool := false
deriving DecidableEq, Repr

/-- A DDC's internals (chapter 4): the tuning in force and the NCO's phase (φ at a counter); the tunings before it, newest first, as
(counter from which, φ there, FREQ), which the filter spans still reach; the first ADC sample it has taken
since it was enabled or acquisition began; the pending retune; the list entry due and the time before
which it does not take hold; the counter of the last list retune's boundary; the firings of the list's gate not yet used. -/
structure Ddc where
  freq : Nat := 0
  phase : Nat := 0
  phiAt : Nat := 0
  phi : Nat := 0
  older : List (Nat × Nat × Nat) := []
  takenFrom : Option Nat := none
  pending : Option Retune := none
  listStep : Option (Nat × Option Nat) := none
  listAt : Int := 0
  listGates : List Nat := []
deriving DecidableEq, Repr

/-- A power-level trigger (R130–R133): |z|² (in 2^-38) of the samples since its window last started, newest first, at most as
many as the window holds; the number of the last sample it evaluated at; whether it holds since a SETTLING sample. -/
structure Plt where
  window : List Nat := []
  evalAt : Option Nat := none
  held : Bool := false
deriving DecidableEq, Repr

/-- A binary64 number that is not an infinity or a NaN: mant × 2^exp. -/
structure F64 where
  mant : Int := 0
  exp : Int := 0
deriving DecidableEq, Repr

/-- What one point of a detector engine has gathered in its period (R177): bins counted, the largest and smallest dB16 level,
the sum of the dB16 levels, the sum of the linear levels in binary64, and the sample of SAMPLE mode. -/
structure PointAcc where
  count : Nat := 0
  max : Int := 0
  min : Int := 0
  sum : Int := 0
  lin : F64 := {}
  sample : Option Int := none
deriving DecidableEq, Repr

/-- A detector engine (chapter 6): the settings in force since its last trace boundary (DET_CFG, DET_RANGE, DET_CTL as
words); the number of the trace in progress, its first frame and TPERIOD; its points; sheets used; OVR, CAL and GAPPED seen;
the hold state of each point with its count q (R178); the trace that waits for queue space and the traces discarded since;
marks waiting for their place in its trace stream; whether HOLD_RESET or DROP_BEFORE is due; the last trace's points. -/
structure Engine where
  running : Bool := false
  cfg : Nat := 0
  range : Nat := 0
  period : Nat := 0
  firstFrame : Nat := 0
  points : List PointAcc := []
  used : Nat := 0
  ovr : Bool := false
  cal : Bool := false
  gapped : Bool := false
  holds : SMap (Nat × F64) := []
  waiting : Option Barge := none
  discards : Option Discards := none
  marks : List Barge := []
  holdReset : Bool := false
  dropBefore : Bool := false
  latest : List (Option Int) := []
deriving DecidableEq, Repr

/-- One lane's delta for a tile (R190): the directory's state of the pair (1 HELD, 2 SNOOPED, 3 CROSSED; an unlisted pair is
NONE) and the hits, as (sheet's stamp, cell index, count). -/
structure Delta where
  state : Nat := 1
  hits : List (Nat × Nat × Nat) := []
deriving DecidableEq, Repr

/-- A reader's copy of a tile as of a cut (R190, R191): the cells gathered so far, the lanes still to answer, and those of them that are to be
snooped only when an earlier snoop, crossed by a flush, is complete. -/
structure TileCopy where
  tile : Nat
  cut : Nat
  cells : SMap Nat
  waitFor : List Nat
  after : List Nat := []
deriving DecidableEq, Repr

/-- A cut that a ream has still to make or to read (R192–R197): its order if it has one, its time, the gate it waits for,
when it was accepted and as which of the ream's, whether it clears, whether it is a snapshot, whether it has been reached and its image taken,
and the time steps made by then; the snapshot's region, queue and image, its next barge and the cells at 0xFFFF found. -/
structure ReamCut where
  order : Option OrderRef := none
  cut : Option Nat := none
  gate : Option Nat := none
  accepted : Nat := 0
  clear : Bool := false
  snap : Bool := false
  reached : Bool := false
  nth : Nat := 0
  base : Nat := 0
  region : Nat × Nat × Nat × Nat := (0, 0, 0, 0)
  queue : Nat := 0
  image : SMap Nat := []
  next : Nat := 0
  sat : Nat := 0
deriving DecidableEq, Repr

/-- A ream (chapter 6): the home counters (cell index = column × 1,024 + row, unlisted 0); the lanes' deltas, keyed by
tile × 32 + lane; T_en and the last decay instant (ns); readers' copies; the display cuts ahead, as (cut, head);
the cuts ahead, and the snapshots whose image has been taken, with how many cuts it has accepted; tiles lost to an uncorrectable error
and not yet delivered; the SEQ of its snapshot stream; the decay settings that ended with a write, as (when, REAM_CFG, DPERIOD), oldest first;
the time steps that the snapshot stream has not shown yet, as (step, its number). -/
structure Ream where
  cells : SMap Nat := []
  deltas : SMap Delta := []
  lastDecay : Nat := 0
  copies : List TileCopy := []
  dcuts : List (Nat × Nat) := []
  cuts : List ReamCut := []
  snaps : List ReamCut := []
  accepts : Nat := 0
  settings : List (Nat × Nat × Nat) := []
  steps : List (Int × Nat) := []
  badTiles : List Nat := []
  seq : Nat := 0
deriving DecidableEq, Repr

/-- A density zone (R198–R201): DZ_CFG, DZ_COLS and DZ_ROWS as its last sheet took them, and whether one of them was written since; the
counts of the sheets in its window, newest first; whether the condition is held. -/
structure Zone where
  cfg : Nat := 0
  cols : Nat := 0
  rows : Nat := 0
  changed : Bool := false
  window : List Nat := []
  hold : Bool := false
deriving DecidableEq, Repr

/-- An occurrence on its way to the flights (R205, R206): the selector; for a level source whether the condition rose, fell,
or is 1 after the evaluation; its stamp and QUAL. -/
structure Occ where
  sel : Nat
  rise : Bool := true
  fall : Bool := true
  high : Bool := true
  stamp : Nat
  qual : Nat := 2
deriving DecidableEq, Repr

/-- A weir's internals (R207–R213): banks 0 and 1 of the upper and of the lower line, as (centred index, dB16 level); fails of
the last sheets, newest first; and per line a table complete and waiting for the swap, with its order. -/
structure Weir where
  upper0 : List (Nat × Int) := []
  upper1 : List (Nat × Int) := []
  lower0 : List (Nat × Int) := []
  lower1 : List (Nat × Int) := []
  window : List Bool := []
  swapUpper : Option OrderRef := none
  swapLower : Option OrderRef := none
deriving DecidableEq, Repr

/-- A TRIG_IN, IBUS or TDC_IN input (R215, R216, R500): the level at the pin (true = active), the last accepted level, the end of the
dead time if the input is dead, since when the pin has had its level (both in 2^-16 ns of the advance), and the edges of a
prescaled input since the last that passed. -/
structure TrigPin where
  pin : Bool := false
  level : Bool := false
  dead : Option Nat := none
  since : Nat := 0
  presc : Nat := 0
deriving DecidableEq, Repr

/-- An output pulse (R218, R219): whether it is active and the instant of the advance when it ends (2^-16 ns). -/
structure Pulse where
  on : Bool := false
  endAt : Nat := 0
deriving DecidableEq, Repr

/-- A lock flight's internals (R221–R229): the FLIGHT_ARM outstanding, its gate and arm time; occurrences counted in the chamber
in force and when it was entered; when it last fired and when it was last ARMED (ns of the timekeeper's advance); HOLDOFF and
AUTO_TIMEOUT in force; the units it depends on, as (0 ADC, 1 DDC, 2 lane; index); fires since ARM from OFF; the SEQ of its
stream; the fabric cycle of its last transition; the completing occurrence kept for a later cycle, with the instant of the advance
(2^-16 ns) at which it acts (R224, R421); the fabric cycle of the CANCEL that took it out of ARMED or CLIMBING. -/
structure Flight where
  armRef : Option OrderRef := none
  gate : Option Nat := none
  armAt : Option Nat := none
  counted : Nat := 0
  entered : Nat := 0
  fired : Nat := 0
  armedAt : Nat := 0
  holdoff : Nat := 0
  auto : Nat := 0
  deps : List (Nat × Nat) := []
  fires : Nat := 0
  seq : Nat := 0
  moved : Option Nat := none
  kept : Option (Nat × Occ) := none
  cancelled : Option Nat := none
deriving DecidableEq, Repr

/-- What an instruction in flight will do to its bank when it lands (Tables 08-4 and 08-5): a scalar register; a vector register,
with the FLAGS bits its narrowing sets and whether BX sees it; products added to an accumulator; an accumulator's lanes
replaced, with their saturation states; STAMP; the bits of LSTAT n, or of FLAGS, that MTS clears; BX reset. -/
inductive CuEff where
  | x (r : Nat) (w : Word)
  | v (r : Nat) (es : List Int) (flags : Nat) (bx : Bool)
  | acc (a : Nat) (ds : List Int)
  | accSet (a : Nat) (ls : List (Int × Bool))
  | stamp (t : Nat)
  | lstat (n : Nat) (w : Word)
  | flags (w : Nat)
  | bxReset
deriving DecidableEq, Repr

/-- An instruction in flight (R259): the cycles left until it lands, the bank it writes, its effect. -/
structure CuWrite where
  left : Nat
  bank : Nat
  eff : CuEff
deriving DecidableEq, Repr

/-- An open loop level (R264): the body's first and last word, the iterations left. -/
structure CuLoop where
  start : Nat
  stop : Nat
  left : Nat
deriving DecidableEq, Repr

/-- A register bank of a calender unit (Table 08-1): X, V (eight elements each) and the lanes of the accumulators (at 8a + l, with
their saturation state) where they are not zero; STAMP as its 96 bits; BX; the open loop levels, innermost first; the next word
to issue, the delay slots still to issue, and what follows them (a branch target, or the return of RETE). FLAGS and LSTAT are
CU_FLAGS and CU_LSTAT of the register file. -/
structure CuBank where
  x : SMap Word := []
  v : SMap (List Int) := []
  ac : SMap (Int × Bool) := []
  stamp : Nat := 0
  bx : Nat := 17
  loops : List CuLoop := []
  pc : Nat := 0
  delay : Nat := 0
  target : Option Nat := none
  rete : Bool := false
deriving DecidableEq, Repr

/-- An accepted QRD copy (R272): the cell, the data address, the cell's bytes. -/
structure CuCopy where
  cell : Nat
  addr : Nat
  data : List Byte
deriving DecidableEq, Repr

/-- An accepted SEND (R275–R277): the block's address, and the bank and program word of the SEND. -/
structure CuSend where
  addr : Nat
  bank : Nat
  pc : Nat
deriving DecidableEq, Repr

/-- A calender unit (chapter 8): program and data memory, both banks, the instructions in flight in issue order, whether the last
cycle's bundle occupies the multipliers (R251), the pending causes as bits and the cause last taken, a fault that is due at the
next boundary (as FCAUSE), copies and sends outstanding, the SEQ of its barges, the timer's period with the start of the run
(ns of the timekeeper's advance) and the expiries so far, when EN was set (ns), whether the unit goes OFF when its work is
done, and when the last STOP reached it (R269, R280). -/
structure Cu where
  prog : SMap (BitVec 64) := []
  data : Mem := []
  b0 : CuBank := {}
  b1 : CuBank := {}
  writes : List CuWrite := []
  mulBusy : Bool := false
  pending : Nat := 0
  cause : Nat := 0
  fault : Option Nat := none
  copies : List CuCopy := []
  sends : List CuSend := []
  seq : Nat := 0
  period : Nat := 0
  runAt : Nat := 0
  expiries : Nat := 0
  wakeAt : Nat := 0
  offDue : Bool := false
  stopAt : Option Nat := none
deriving DecidableEq, Repr

/-- A poisoned run of lines in a barge held by a pound (Table 09-4): offset in the payload, lines, channel, found by the
scrubber, and the bytes of those lines that a trimmed payload no longer holds. -/
structure PoisonRun where
  offset : Nat
  lines : Nat
  channel : Nat
  scrub : Bool
  cut : Nat := 0
deriving DecidableEq, Repr

/-- A barge recorded in a pound: its number since EN = 1, the barge, the stamp one past its last sample, its poisoned runs,
and which of its two header copies are poisoned (R300). -/
structure PBarge where
  number : Nat
  barge : Barge
  endStamp : Nat
  poison : List PoisonRun := []
  hdr0 : Bool := false
  hdr1 : Bool := false
deriving DecidableEq, Repr

/-- A drain (R306, R307): the number of the next barge it reads, and the barges (marks) it must offer first. -/
structure Drain where
  on : Bool := false
  next : Nat := 0
  first : List Barge := []
deriving DecidableEq, Repr

/-- A pound (chapter 9): the barges recorded, oldest first; the number of the next; its SEQ; the samples of the barge being
filled with the number of the first and the flags gathered; marks waiting for their place; barges and marks ready to be
committed, with the stamp at which each ends; the spans being discarded (POUND_FULL) or unrecorded (POUND_FROZEN); its drains;
a STORE pound's bytes and poisoned lines; the lost bytes not yet counted in LOST_KIB; the channels its stripes lie on; whether it waits for
a barge boundary after a re-lay (R302); the marks read to be committed that wait for the data barge they precede. -/
structure Pound where
  barges : List PBarge := []
  number : Nat := 0
  seq : Nat := 0
  fill : List (Int × Int) := []
  fillFirst : Nat := 0
  fillQual : Nat := 0
  fillStamp : Nat := 0
  fillEnd : Nat := 0
  marks : List Barge := []
  ready : List (Barge × Nat) := []
  dropping : Option Discards := none
  frozen : Option Discards := none
  drains : SMap Drain := []
  store : Mem := []
  badLines : List Nat := []
  lostBytes : Nat := 0
  layout : List Nat := []
  resume : Bool := false
  behind : List Barge := []
deriving DecidableEq, Repr

/-- A capture (R308–R310): its number once the engine has accepted it, its pound, its flight if one asked for it, its range in
2^-16 ns, its queue, its order if one asked for it; the number of the next recorded item it reads and the stamp up to which
its range has been sent; SEQ, bytes and GAP marks sent; marks still to be sent. -/
structure Capture where
  number : Nat := 0
  pound : Nat
  flight : Option Nat := none
  start : Nat
  stop : Nat
  queue : Nat
  order : Option OrderRef := none
  accepted : Bool := false
  next : Nat := 0
  pos : Nat := 0
  seq : Nat := 0
  bytes : Nat := 0
  gaps : Nat := 0
  first : List Barge := []
deriving DecidableEq, Repr

/-- A memory channel (chapter 9): when training began (ns) and how often it has failed; when its initialisation began (ns) and
whether it has ever been trained; the refreshes of each bank that stand postponed (positive) or ahead (negative) and the
refresh interval (ns); a replay in progress and whether ALERT_n has come during it; correctable errors of the present scrub
pass; the demand-read errors of the last second (ns); the scrubber's next line; whether MEM_HOT has been raised; when each bank was last
refreshed and MR4 last read (ns); the lines that hold the poison syndrome. -/
structure Channel where
  trainSince : Option Nat := none
  trainFails : Nat := 0
  initSince : Nat := 0
  everTrained : Bool := false
  refresh : SMap Int := []
  interval : Nat := 3900
  replay : Bool := false
  alertSeen : Bool := false
  cePass : Nat := 0
  ues : List Nat := []
  scrubLine : Nat := 0
  hotRaised : Bool := false
  refreshAt : SMap Nat := []
  mr4At : Nat := 0
  badLines : List Nat := []
deriving DecidableEq, Repr

/-- A port's set-up as latched when it was enabled (R437), and when that was (ns of the advance). -/
structure NvPort where
  bifur : Nat := 0
  maxRate : Nat := 5
  since : Nat := 0
deriving DecidableEq, Repr

/-- A drive (R438): when its INIT or its RESET began (ns of the advance), and the namespaces active on it. -/
structure NvDrive where
  since : Nat := 0
  ns : List NvmeNs := []
deriving DecidableEq, Repr

/-- A Write of a chunk (R445, R446): its number, its bytes' place in the chunk, how often it has been retried, when it was issued (ns
of the advance). -/
structure NvWrite where
  index : Nat
  off : Nat
  len : Nat
  tries : Nat := 0
  at_ : Nat
deriving DecidableEq, Repr

/-- A chunk handed to a drive (R442–R447): CHUNK, slot, chunk position, bytes; its barges; its queue cells with the end of their bytes in the chunk;
the Writes outstanding; the last SEQ of each stream written before it. -/
structure NvChunk where
  number : Nat
  slot : Nat
  pos : Nat
  bytes : List Byte
  barges : List Barge
  cells : List (Nat × Nat)
  writes : List NvWrite
  before : SMap (Nat × Nat)
deriving DecidableEq, Repr

/-- A recording (R441–R448): T_REC, the next CHUNK, the slot of the last one, the next chunk position of each slot; the open chunk: its
barges with their cells, when the first was written (ns of the advance), whether it is to be closed and whether it is the LAST;
GAP marks for the head of the next chunk; per stream the CHUNK and SEQ of the last counted barge written; chunks outstanding;
the slots whose Flush is outstanding with its issue time, once the Flushes have been issued. -/
structure NvRec where
  trec : Nat := 0
  next : Nat := 0
  last : Option Nat := none
  pos : SMap Nat := []
  cur : List (Barge × List Nat) := []
  firstAt : Nat := 0
  closing : Bool := false
  final : Bool := false
  gaps : List Barge := []
  lastSeq : SMap (Nat × Nat) := []
  out : List NvChunk := []
  flush : Option (List (Nat × Nat)) := none
deriving DecidableEq, Repr

/-- The search of one member for an EXTRACT (R451): its slot, how far the search is (0 position 0, 1 the last position of the newest
run, 2 the position after it, 3 the first chunk that reaches START, 4 found, 5 nothing here), the bounds of the search, CHUNK at position 0, the
positions of a chunk, the first position in CHUNK order and how many there are, the next to read, and the header at that place as (CHUNK,
bytes used). -/
structure NvScan where
  slot : Nat
  phase : Nat := 0
  lo : Nat := 0
  hi : Nat := 0
  first : Nat := 0
  size : Nat := 0
  count : Nat := 0
  base : Nat := 0
  n : Nat := 0
  idx : Nat := 0
  head : Option (Nat × Nat) := none
deriving DecidableEq, Repr

/-- An NVME_READ (R450–R452): its order; the Read command outstanding as (slot, LBA, NLB), its retries and issue time; LBAs copied (RAW); bytes
written; samples zero-filled; the member searches and T_REC; the bytes of the chunk being read; of the samples written, the
width in bits with the period as a fraction, the number and stamp of the next one, and a sample not yet part of a whole byte. -/
structure NvRead where
  order : OrderRef
  cmd : Option (Nat × Nat × Nat) := none
  tries : Nat := 0
  at_ : Nat := 0
  done : Nat := 0
  written : Nat := 0
  filled : Nat := 0
  scans : List NvScan := []
  trec : Option Nat := none
  chunk : List Byte := []
  fmt : Option (Nat × Nat × Nat) := none
  next : Nat := 0
  tend : Nat := 0
  carry : List Nat := []
deriving DecidableEq, Repr

/-- The NVMe path (chapter 14): ports, drives, recordings, NVME_READs, and NVME_TRIMs outstanding as (order, drive, issue time). -/
structure Nvme where
  ports : SMap NvPort := []
  drives : SMap NvDrive := []
  recs : SMap NvRec := []
  reads : List NvRead := []
  trims : List (OrderRef × Nat × Nat) := []
deriving DecidableEq, Repr

/-- A stimulus generator (chapter 15): the installed segment and step entries (16 bytes each), the pounds its segments lie in,
and the head buffer; the SEQ_START outstanding with its MODE, TIME, gate, loop and LOOP_TO, the time of its acceptance, and once
its start boundary is known that boundary's ball time and whether it is late; the sample count of the next granule to commit;
the step in force, granules played of its present repeat and of the whole step, granules played of the idle segment; when the
present wait began; the last code played; the samples played; the SEQ_STOPs outstanding with their WHEN; the marker levels; the
bytes read of the STREAM ring, the paced moves completed on its line and the requests asserted and not yet taken; the granules
of SG4–SG7 committed and not yet sent, as (count, FMT, samples), and the last FMT played; for those generators the anchor (sample count, ball time) of their clock; the fabric cycle of the last flight release taken (R461). Times in
2^-16 ns. -/
structure Sg where
  segs : List (List Byte) := []
  steps : List (List Byte) := []
  pounds : List Nat := []
  headOff : Nat := 0
  startRef : Option OrderRef := none
  mode : Nat := 0
  time : Nat := 0
  gate : Nat := 0
  loop : Bool := false
  loopTo : Nat := 0
  acceptedAt : Nat := 0
  startAt : Option Nat := none
  late : Bool := false
  nextCount : Nat := 0
  step : Nat := 0
  granule : Nat := 0
  stepGranule : Nat := 0
  idleGranule : Nat := 0
  waitSince : Nat := 0
  waitGate : Option Nat := none
  last : Int × Int := (0, 0)
  played : Nat := 0
  stops : List (OrderRef × Nat) := []
  markers : List Bool := [false, false, false, false]
  streamBytes : Nat := 0
  moves : Nat := 0
  asserted : Nat := 0
  out : List (Nat × Nat × List (Int × Int)) := []
  fmt : Nat := 0x03
  releasedAt : Option Nat := none
  anchorCount : Nat := 0
  anchorTime : Nat := 0
deriving DecidableEq, Repr

/-- A time gate (R527–R531): the number j of its next firing not yet announced, the time of the firing announced and not yet
made, whether that firing ends the gate's run, and whether the wake of the next firing has been raised. -/
structure Gate where
  next : Nat := 0
  announced : Option Nat := none
  final : Bool := false
  woken : Bool := false
deriving DecidableEq, Repr

/-- A virtual channel (chapter 16): the mapping from its sample numbers to stamps: the first sample number and the stamp (2^-16 ns)
of each frame, newest first; and the time steps that its stamps have not shown yet, as (step, number of the step). -/
structure Vc where
  anchors : List (Nat × Nat) := []
  steps : List (Int × Nat) := []
deriving DecidableEq, Repr

/-- A probe lane (R481, R484): since when it has been training (ns); the times of its CRC failures of the last second (ns of the
advance); when its last BEACON left (ns of the advance), and the beacons not echoed, as (GSEQ, instant in 2^-16 ns of the
advance); the one-way delay for the next BEACON in 2^-16 ns. -/
structure ProbeLane where
  trainSince : Nat := 0
  crcs : List Nat := []
  beaconAt : Option Nat := none
  beacons : List (Nat × Nat) := []
  delay : Nat := 0
deriving DecidableEq, Repr

/-- A frame in a receive window (R480): GSEQ, when it arrived (2^-16 ns of the advance), its TYPE, its lane, the frame. -/
structure HeldFrame where
  gseq : Nat
  at_ : Nat
  type : Nat
  lane : Nat
  frame : ProbeFrame
deriving DecidableEq, Repr

/-- A lane group (R480), by its lowest lane: the next GSEQ to send and the lane that sent last; the GSEQ expected next, once a frame
has come, and the frames that wait for an earlier one. -/
structure ProbeGroup where
  tx : Nat := 0
  lastLane : Nat := 0
  next : Option Nat := none
  window : List HeldFrame := []
deriving DecidableEq, Repr

/-- A subscription set (R489, R490): its list of nets and strobe; the row length in 8-byte words; the last SUBGEN sent; the next SEQ;
the barge being filled: rows, first cycle and its stamp and QUAL, since when (ns of the advance), SUBGEN; the cycle and stamp of
the last row; rows lost and not yet marked; time steps not shown yet. -/
structure ProbeSet where
  nets : List Nat := []
  rowW8 : Nat := 1
  lastGen : Nat := 0
  seq : Nat := 0
  fill : List Byte := []
  rows : Nat := 0
  cycle : Nat := 0
  stamp : Nat := 0
  qual : Nat := 0
  since : Nat := 0
  gen : Nat := 0
  lastRow : Option (Nat × Nat) := none
  steps : List (Int × Nat) := []
deriving DecidableEq, Repr

/-- A SUBSCRIBE sent and not yet acknowledged (R498): its order, set, SUBGEN, group and nets, and when it was sent (ns of the
advance). -/
structure ProbeSub where
  order : OrderRef
  set : Nat
  gen : Nat
  group : Nat
  nets : List Nat
  sentAt : Nat
deriving DecidableEq, Repr

/-- A bridge port (R491, R492): the samples granted and sent since its enable, the first stream received, the samples of the front
barge already sent, the zero samples of a filled gap still to send, the sample number that follows the last one,
and the format of the last samples sent. -/
structure Bp where
  credit : Nat := 0
  sent : Nat := 0
  stream : Option Nat := none
  pos : Nat := 0
  fill : Nat := 0
  number : Nat := 0
  fmt : Option Nat := none
deriving DecidableEq, Repr

/-- The probe fabric (chapter 16): lanes, groups, sets, ports, SUBSCRIBEs outstanding, and the net catalogue (R488), entries that are
all zero not listed. -/
structure Probe where
  lanes : SMap ProbeLane := []
  groups : SMap ProbeGroup := []
  sets : SMap ProbeSet := []
  ports : SMap Bp := []
  subs : List ProbeSub := []
  catalogue : SMap (BitVec 64) := []
deriving DecidableEq, Repr

/-- An open interval measurement (R504–R506): its start in 2^-16 ns of the advance, its stamp and QUAL, its number, whether an edge has
been lost meanwhile, its window (ps), the accepted stops as (ps after the start, input, falling), and FULL. -/
structure TdcMeas where
  start : Nat
  stamp : Nat
  qual : Nat
  number : Nat
  ovr : Bool := false
  lo : Nat
  hi : Nat
  stops : List (Nat × Nat × Bool) := []
  full : Bool := false
deriving DecidableEq, Repr

/-- A frequency gate (R508): its start and length in 2^-16 ns of the advance, its number, whether its record can be stored, whether an
edge has been lost, and its prescaled edges as (time on the TDC's own count, time of the advance, stamp, QUAL), in 2^-16 ns. -/
structure TdcGate where
  start : Nat
  len : Nat
  number : Nat
  counted : Bool := true
  ovr : Bool := false
  edges : List (Nat × Nat × Nat × Nat) := []
deriving DecidableEq, Repr

/-- A TDC stream (Table 17-3), by its Stream ID less 0x8500: the number of the next measurement, the next SEQ; the barge being filled
as (number, stamp, QUAL, bytes) per record and since when (ns of the advance), and the queue in force (R512); whether TDC_BACKPRESSURE has been raised since the enable; the open measurement, or the gate; the
TIME_STEP marks that wait for its record (R333). -/
structure Tdc where
  number : Nat := 0
  seq : Nat := 0
  fill : List (Nat × Nat × Nat × List Byte) := []
  since : Nat := 0
  queue : Option Nat := none
  pressed : Bool := false
  meas : Option TdcMeas := none
  gate : Option TdcGate := none
  held : List Barge := []
deriving DecidableEq, Repr

/-- An equalised remote trigger waiting for its due time (R551): due time and T_f in 2^-16 ns, and its RT. -/
structure RtDue where
  due : Nat
  stamp : Nat
  rt : Nat
deriving DecidableEq, Repr

/-- The Kavaxel links and what runs over them (chapter 18). What beacons said last: whether the root is LOCKED, its pending
steps (TIME96 of the step tick in 2^-16 ns, step) and those already applied. What LK2 knows: the links of the board's devices
that are not UP, as (slot, link), those it has heard of while it was itself not UP, own links lost while it was not UP, and where each DEVID is (a slot, or 16 + l for a device behind this device's own link l). The numbers
of the next trigger and the next Akwaune frame sent; triggers received, by source and number; triggers sent, as (link, ns of
the advance, trigger); triggers waiting for their due time. Following: since when there has been no route to the root and
since when the offset has been below 100 ps (ns of the advance), whether a beacon has been taken since ACQUIRING began,
whether a new path is being measured, when the last beacon was sent. Akwaune sources with their last SEQ, most recently heard
first. Stream ports: per port the end of the last barge received, its stream
and its SEQ. -/
structure Kx where
  rootLocked : Bool := false
  rootSteps : List (Nat × Int) := []
  doneSteps : List (Nat × Int) := []
  failed : List (Nat × Nat) := []
  late : List (Nat × Nat) := []
  frozen : List Nat := []
  devs : SMap Nat := []
  refMaster : Option Nat := none
  rtSeq : Nat := 0
  akwSeq : Nat := 0
  seen : List (Nat × Nat) := []
  recent : List (Nat × Nat × KxTrigger) := []
  due : List RtDue := []
  lostSince : Option Nat := none
  nearSince : Option Nat := none
  stepped : Bool := false
  measuring : Bool := false
  lastBeacon : Nat := 0
  akwSrc : List (Nat × Nat) := []
  ports : SMap (Nat × Nat × Nat) := []
deriving DecidableEq, Repr

/-- ETH0 (R532–R536): frame buffers at PF0 BAR2 0x4000–0x7FFF by offset from 0x4000, the transmit buffers whose frame has not left,
and the slot after the last one filled. -/
structure Eth where
  mem : Mem := []
  busy : List Nat := []
  next : Nat := 0
deriving DecidableEq, Repr

/-- REFCLK (R558, R559): when it was last declared absent (ns of the advance), and whether the device has made its protective entry into
STANDBY for want of it. -/
structure Clk where
  lostAt : Option Nat := none
  protective : Bool := false
deriving DecidableEq, Repr

/-- The sweep synthesizer (R566–R568): whether a RUN waits for its gate; when the present segment began and when the present step has settled
(2^-16 ns of the advance); the frequency held while no profile runs (2^-20 MHz); the list boundaries whose frequency has still
to reach the ball, as times in 2^-16 ns. -/
structure Sws where
  waits : Bool := false
  since : Nat := 0
  settleAt : Nat := 0
  held : Int := 0
  due : List Nat := []
deriving DecidableEq, Repr

/-- A pending mode request (R572): its target (1 STANDBY, 0 SLEEP as GLOBAL_PWRSTAT.MODE codes them), the POWER_MODE order that made it, and
whether the automatic policy did. -/
structure PwrReq where
  target : Nat
  order : Option OrderRef := none
  auto : Bool := false
deriving DecidableEq, Repr

/-- Power modes (R569–R576): the pending request; the mode being entered with the order that asked for it, since when the queue wait before
SLEEP lasts (ns of the advance), and whether that wait is over; the wake cause to be acted on; since when the return to READY
runs; the set-up registers as they stood at entry; since when the automatic policy's conditions have held; the latency tolerance last
reported on the link (R356). -/
structure Power where
  req : Option PwrReq := none
  entering : Option PwrReq := none
  drainAt : Nat := 0
  drained : Bool := false
  wake : Option Nat := none
  returning : Option Nat := none
  kept : RegFile := []
  idleSince : Option Nat := none
  ltr : Option Nat := none
deriving DecidableEq, Repr

/-- The firmware flash (Table 20-2, R584, R585): the bytes of the two boot records, the images of slots A and B, the bytes of the
configuration partition that CFG_WRITE has written. The calibration partition is `State.calCopies`. -/
structure Flash where
  rec0 : List Byte := []
  rec1 : List Byte := []
  slotA : Option FwImage := none
  slotB : Option FwImage := none
  config : Mem := []
deriving DecidableEq, Repr

/-- One mailbox channel (R597, R601): the IN and OUT words with their full flags, the words the firmware has read and not yet used, the words it
has still to write, and the TAG of a request whose reply waits for the end of its work with its SERVICE. -/
structure Mailbox where
  inFull : Bool := false
  inWord : Word := 0
  outFull : Bool := false
  outWord : Word := 0
  inbox : List Word := []
  outbox : List Word := []
  busy : Option (Nat × Nat) := none
deriving DecidableEq, Repr

/-- An activation (R593, R594): the channel whose FW_ACTIVATE asked for it, the lock-keeper restarting now and since when (ns), those still to
restart, those already changed (the last one first), and whether it is being rolled back. -/
structure Activation where
  channel : Nat
  current : Nat := 3
  since : Nat := 0
  todo : List Nat := [2, 1, 0]
  changed : List Nat := []
  rolling : Bool := false
deriving DecidableEq, Repr

/-- The firmware (R588–R605): whether the device is firmware-ready, or serves the staging registers in recovery; the running image;
the fused minimum SVN; EPOCH; the mailbox channels (NS0–NS7 are 0–7, S0–S7 are 8–15); the verified image in the staging buffer; the OP of
the staging in progress, whether it waits for LK0 and whether one of its reads failed; the activation; whether LK0's present restart came from its watchdog; the times of each lock-keeper's watchdog restarts (ns). -/
structure Fw where
  ready : Bool := false
  recovered : Bool := false
  image : Option FwImage := none
  minSvn : Nat := 0
  epoch : Nat := 0
  mbx : SMap Mailbox := []
  staged : Option FwImage := none
  stageOp : Nat := 0
  stageWaits : Bool := false
  fetchBad : Bool := false
  act : Option Activation := none
  lk0Wd : Bool := false
  wdog : SMap (List Nat) := []
deriving DecidableEq, Repr

/-- The status panel (R647–R649): the frame store, the dirty tiles (16 × 16, in rows), the time of the last push or of EN (ns). -/
structure Panel where
  store : Mem := []
  dirty : List Nat := []
  since : Nat := 0
deriving DecidableEq, Repr

/-- A copy of a ream's cells that a head shows (R639): the cut, the columns and rows read, LOGMAP and SHIFT, the cells. -/
structure ReamView where
  cut : Nat := 0
  region : Nat × Nat × Nat × Nat := (0, 0, 0, 0)
  logmap : Bool := true
  shift : Nat := 0
  cells : SMap Nat := []
deriving DecidableEq, Repr

/-- A display head (R631–R646): the active set where it differs from the reset values, by key; the shadow and the active palette; the sink's
largest rate (1 RBR … 4 HBR3) and lanes as read last; training attempts made; SSC and the EV bits in force; the next active line, once
scan-out runs; the frame's cut (2^-16 ns); the newest complete copy of the ream plane; the traces of the frame by engine; the waterfall's
lines, newest first, as (completion time, indices); the traces seen since one was taken. -/
structure Head where
  active : RegFile := []
  palShadow : List Word := []
  palette : List Word := []
  sink : Option (Nat × Nat) := none
  attempts : Nat := 0
  ssc : Bool := true
  ev : Nat := 0
  line : Option Nat := none
  cut : Option Nat := none
  view : Option ReamView := none
  traces : SMap (List (Option Int)) := []
  lines : List (Nat × List Nat) := []
  skipped : Nat := 0
deriving DecidableEq, Repr

/-- R400, R410: the turns of upstream writes: whether the last one was stream delivery's, the stream rings served in the present round, the
move-engine channel served last. -/
structure Turns where
  stream : Option Bool := none
  rings : List Nat := []
  chan : Option Nat := none
deriving DecidableEq, Repr

/-- The machine. Field by field: the commands waiting; the registers of all three windows; the values latched by the reads
of Table 24-4 (R680); what has left the device, and the requests held for Bus Master Enable (R351), newest first; and the internals of each
chapter. -/
structure State where
  pending : List Instr
  regs : RegFile := []
  latches : SMap Word := []
  freeCtr : Nat := 0
  sent : List Sent := []
  held : List Sent := []
  turns : Turns := {}
  ticks : Nat := 0
  tk : Timekeeper := {}
  ev : EventStore := {}
  pcie : Pcie := {}
  lookout : Lookout := {}
  rings : SMap Ring := []
  taken : List Order := []
  orders : List Order := []
  reads : List HostRead := []
  queues : SMap Queue := []
  cells : SMap CellTag := []
  markStore : List HeldMark := []
  waitQ : List (Nat × Barge) := []
  tdcs : SMap Tdc := []
  probe : Probe := {}
  kx : Kx := {}
  eth : Eth := {}
  nvme : Nvme := {}
  clk : Clk := {}
  sws : Sws := {}
  pixelLock : List Nat := []
  power : Power := {}
  fw : Fw := {}
  flash : Flash := {}
  panel : Panel := {}
  heads : SMap Head := []
  sgs : SMap Sg := []
  plans : SMap Plan := []
  sources : SMap Source := []
  adcs : SMap Adc := []
  dacs : SMap Dac := []
  syncRun : Option SyncRun := none
  cals : SMap Cal := []
  hkSeqs : SMap HkSeq := []
  pwms : SMap Pwm := []
  ddcs : SMap Ddc := []
  plts : SMap Plt := []
  engines : SMap Engine := []
  reams : SMap Ream := []
  zones : SMap Zone := []
  pounds : SMap Pound := []
  captures : List Capture := []
  captureCount : Nat := 0
  channels : SMap Channel := []
  userWindows : SMap (Nat × List Int) := []
  occs : List Occ := []
  weirs : SMap Weir := []
  pins : SMap TrigPin := []
  pulses : SMap Pulse := []
  flights : SMap Flight := []
  cache : Mem := []
  pdHeld : List Nat := []
  calCopies : SMap CalCopy := []
  savePending : Bool := false
  monitor : Monitor := {}
  lanes : SMap Lane := []
  vcs : SMap Vc := []
  spareTest : Nat × Nat := (0, 17)
  spareTestPeriod : Nat := 0x3C
  memSpeed : Nat := 0
  trainDue : Bool := false
  gates : SMap Gate := []
  lineReqs : SMap Nat := []
  cus : SMap Cu := []
deriving DecidableEq, Repr

/-- Why the model stops although the spec describes the machine as going on; safe. -/
inductive Fault where
  /-- Raised by no meaning today: kept for a board that breaks a "must" whose outcome the spec calls undefined for the whole
  device (R651 with TEST_EN high, R660 with the rails out of order). Safe: the model stops where the device would go on. -/
  | boardOutOfSpec
deriving DecidableEq, Repr

/-- Why a command has no meaning. -/
inductive Refusal where
  /-- Raised by the dispatch for a command whose meaning has not been written. Safe: nothing is claimed of it. -/
  | notModelled (mnemonic : String)
deriving DecidableEq, Repr

/-- The machine right after reset release (R626, R683, Tables 21-5 and 21-6): every register at the Reset column of its
field table (the register file lists nothing), nothing loaded, armed, queued, waiting or running, the timekeeper UNSET with
TIME96 = 0 and INC = 0xA000_0000 (R515), all straps open (R656). -/
def State.reset : State := { pending := [] }

end Machine
end Sys2Proof
end

