-- ==== Sys2Proof/Machine/Bits.lean ====
section
/-!
DEFINITION. Bit fields, byte strings, TIME96, CRC-32C and the sparse maps the state is made of.

Marked choices (log entries): DESIGN CHOICE 67. Each entry of notes/assumptions says safe or unsafe.
-/

namespace Sys2Proof
namespace Machine

/-! ### Bit fields (R9, R10) -/

/-- The field of `width` bits at `lsb` of a word read as a number. -/
def bits (x lsb width : Nat) : Nat := x / 2 ^ lsb % 2 ^ width

/-- The word with that field replaced by `v` modulo its width. -/
def setBits (x lsb width v : Nat) : Nat :=
  x % 2 ^ lsb + (v % 2 ^ width) * 2 ^ lsb + x / 2 ^ (lsb + width) * 2 ^ (lsb + width)

/-- Bit `i` of a number. -/
def bit (x i : Nat) : Bool := x / 2 ^ i % 2 == 1

/-- A number with bit `i` set, or cleared. -/
def setBit (x i : Nat) (on : Bool) : Nat := setBits x i 1 (if on then 1 else 0)

/-- The two's-complement value of the low `w` bits. -/
def sext (w x : Nat) : Int :=
  let y := x % 2 ^ w
  if y < 2 ^ (w - 1) then y else (y : Int) - 2 ^ w

/-- The low `w` bits of an integer in two's complement. -/
def wrap (w : Nat) (x : Int) : Nat := (x % (2 ^ w : Nat)).toNat

/-- A Bool as a one-bit field. -/
def b2n (b : Bool) : Nat := if b then 1 else 0

/-- An integer held within bounds. -/
def clampInt (lo hi x : Int) : Int := if x < lo then lo else if hi < x then hi else x

/-- A count that saturates at the largest value of `w` bits. -/
def satAdd (w x n : Nat) : Nat := min (x + n) (2 ^ w - 1)

/-- ⌈a / b⌉. -/
def ceilDiv (a b : Nat) : Nat := (a + b - 1) / b

/-! ### Byte strings (R9: little-endian) -/

/-- The number that little-endian bytes spell. -/
def leNat : List Byte → Nat
  | [] => 0
  | b :: t => b.toNat + 256 * leNat t

/-- The `n` little-endian bytes of a number. -/
def leBytes : Nat → Nat → List Byte
  | 0, _ => []
  | n + 1, v => BitVec.ofNat 8 v :: leBytes n (v / 256)

/-- `n` bytes of a string from an offset, as a number; bytes past its end read 0. -/
def field (bs : List Byte) (off n : Nat) : Nat := leNat ((bs.drop off).take n)

/-- The string with the bytes of `new` laid over it at an offset. -/
def overlay (bs : List Byte) (off : Nat) (new : List Byte) : List Byte :=
  bs.take off ++ new ++ bs.drop (off + new.length)

/-- The first offset in `off … off + n - 1` at which a byte is not 0. -/
def firstNonZero (bs : List Byte) (off : Nat) : Nat → Option Nat
  | 0 => none
  | n + 1 => if field bs off 1 ≠ 0 then some off else firstNonZero bs (off + 1) n

/-! ### TIME96 (R11–R13) -/

/-- One second in units of 2^-16 ns. -/
def secUnits : Nat := 1000000000 * 65536

/-- The 96-bit TIME96 word of a time in 2^-16 ns: FRAC in 15:0, NS in 47:16, SEC in 95:48. -/
def toTime96 (t : Nat) : Nat := t % secUnits + t / secUnits % 2 ^ 48 * 2 ^ 48

/-- Whether the NS field of a TIME96 word is a legal one (R12). -/
def time96Ok (w : Nat) : Bool := bits w 16 32 < 1000000000

/-- The time in 2^-16 ns that a TIME96 word names. -/
def ofTime96 (w : Nat) : Nat := bits w 48 48 * secUnits + bits w 0 48

/-- Nanoseconds as a time in 2^-16 ns. -/
def nsUnits (ns : Nat) : Nat := ns * 65536

/-! ### CRC-32C (R324) -/

/-- One bit of the reflected CRC with polynomial 0x82F6_3B78. -/
def crcBit (c : BitVec 32) : BitVec 32 := if c.getLsbD 0 then (c >>> 1) ^^^ 0x82F63B78#32 else c >>> 1

/-- One byte. -/
def crcByte (c : BitVec 32) (b : Byte) : BitVec 32 :=
  let c := c ^^^ b.setWidth 32
  crcBit (crcBit (crcBit (crcBit (crcBit (crcBit (crcBit (crcBit c)))))))

/-- The CRC-32C of a byte string: initial value and final exclusive-or all ones. -/
def crc32c (bs : List Byte) : BitVec 32 := bs.foldl crcByte 0xFFFFFFFF#32 ^^^ 0xFFFFFFFF#32

/-! ### Sparse maps -/

/-- The entry of a sparse map. -/
def SMap.find? {α : Type} : List (Nat × α) → Nat → Option α
  | [], _ => none
  | (k', v) :: t, k => if k = k' then some v else SMap.find? t k

/-- The map without an entry for `k`. -/
def SMap.erase {α : Type} (m : List (Nat × α)) (k : Nat) : List (Nat × α) := m.filter (fun e => e.1 != k)

/-- Insertion in key order. -/
def SMap.ins {α : Type} (k : Nat) (v : α) : List (Nat × α) → List (Nat × α)
  | [] => [(k, v)]
  | (k', v') :: t => if k < k' then (k, v) :: (k', v') :: t else (k', v') :: SMap.ins k v t

/-- The map with `k` bound to `v`. -/
def SMap.put {α : Type} (m : List (Nat × α)) (k : Nat) (v : α) : List (Nat × α) := SMap.ins k v (SMap.erase m k)

/-- Keys strictly rising: the canonical order of every sparse map. -/
def SMap.sorted {α : Type} : List (Nat × α) → Bool
  | [] => true
  | [_] => true
  | (k, _) :: (k', v') :: t => decide (k < k') && SMap.sorted ((k', v') :: t)

/-- A byte memory's byte at an address; `d` is what an unlisted address reads as. -/
def Mem.byte (d : Byte) (m : Mem) (a : Nat) : Byte := (SMap.find? m a).getD d

/-- The memory with one byte written, in canonical form: a byte equal to what an unlisted address reads as is not listed. -/
def Mem.write (d : Byte) (m : Mem) (a : Nat) (b : Byte) : Mem := if b = d then SMap.erase m a else SMap.put m a b

/-- A string of bytes written from an address upwards. -/
def Mem.writes (d : Byte) : Mem → Nat → List Byte → Mem
  | m, _, [] => m
  | m, a, b :: t => Mem.writes d (Mem.write d m a b) (a + 1) t

/-- `n` bytes read from an address upwards. -/
def Mem.reads (d : Byte) (m : Mem) (a : Nat) : Nat → List Byte
  | 0 => []
  | n + 1 => Mem.byte d m a :: Mem.reads d m (a + 1) n

/-- The canonical form of a byte memory: addresses strictly rising, no entry equal to the unlisted byte. -/
def Mem.wf (d : Byte) (m : Mem) : Bool := SMap.sorted m && m.all (fun e => e.2 != d)

/-! ### Lists -/

/-- The first entry that a test names, and the list without it. -/
def takeFirst {α : Type} (p : α → Bool) : List α → Option (α × List α)
  | [] => none
  | x :: t => if p x then some (x, t) else (takeFirst p t).map (fun r => (r.1, x :: r.2))

/-- Apply a function to the first entry that a test names. -/
def updFirst {α : Type} (p : α → Bool) (f : α → α) : List α → List α
  | [] => []
  | x :: t => if p x then f x :: t else x :: updFirst p f t

end Machine
end Sys2Proof
end

