-- ==== Sys2Proof/Config.lean ====
section
/-!
DEFINITION. What an implementation fixes and the spec leaves open. Every constant here is opaque: nothing can be proved of
its value, so a claim about the model holds whatever it is.

Marked choices (log entries): DEDUCED 144; DESIGN CHOICE 4, 30, 36, 77, 113, 114, 123, 125. Each entry of notes/assumptions
says safe or unsafe.
-/

namespace Sys2Proof
namespace Config

/-- The fuses' unique die identifier (Table 24-6, R685): the spec gives no value. -/
opaque dieId : BitVec 64

/-- A fresh value that the spec leaves open: the step that needs one applies this to `State.freeCtr` and advances the
counter, so that no two open values are known to be equal. -/
opaque freeValue : Nat → Nat

/-- Which of the pool's free cells an admission takes, as a choice number reduced modulo the count of free cells: R415 to
R417 say that a queue is a list of cells and not which cell is taken next. -/
opaque cellChoice : Nat → Nat

/-- Whether two Kavaxel links share a lane fault on the same die edge (Table 21-3): the spec does not say which links lie on
which edge. -/
opaque sameDieEdge : Nat → Nat → Bool

/-- The factory trims blown into the fuses (R77), by ADC, slice and trim code: the spec gives no values. -/
opaque factoryTrim : Nat → Nat → Nat → Nat

/-- The queue that receives the PROBE barges of a subscription set: the spec lets a calender unit read "a set's queue" and gives no
register or parameter that names it. Used modulo 4,096. -/
opaque probeQueue : Nat → Nat

/-- The oscillator's error at a phase, in units of 2^-40 for the cosine and the sine (R108): held within 2^-19 where it is used. -/
opaque ncoError : Nat → Int × Int

/-- The filter coefficients of the decimation chain (R112), in units of 2^-40, by place: the first stage of the normal chain, the odd
places of half-band stage j, the filter of the quick-settle mode at setting k. The spec gives their response and no values. -/
opaque ddcFirstTap : Nat → Int
opaque halfBandTap : Nat → Nat → Int
opaque quickTap : Nat → Nat → Int

/-- The bits that stage j of a normal chain of k stages keeps below those of Q1.19 (chapter 4: "Each stage's arithmetic truncates on
narrowing", no width being given). -/
opaque ddcStageBits : Nat → Nat → Nat

/-- The error of a stored twiddle factor, by its turn in 2^-48, in units of 2^-40: the spec gives the words no width. -/
opaque twiddleError : Nat → Int × Int

/-- The coefficient that a lane uses at a place which the present table of a user window lacks. -/
opaque staleCoefficient : Nat → Nat → Int

/-- Where the pound writer puts the record with a number, in granules of 4 KiB counted round the pound (R303): the payload's first granule; the
granule of the first header copy and the line within it. The spec gives the striping and no layout of the records. -/
opaque poundPlace : Nat → Nat
opaque headerPlace : Nat → Nat × Nat

/-- The status screen that the firmware draws on the panel while it owns it, by the number of the drawing: RGB565 pixels in their order of bytes
(R649). -/
opaque statusScreen : Nat → List (BitVec 8)

/-- Where in the flash configuration partition the subsystem IDs stand (Table 11-2, Table 20-2): the spec gives no place. -/
opaque subsystemAt : Nat

/-- The INFO word of an event record whose rule names what the word carries and gives no layout (R613), by the event source and the
things carried, in the order in which the rule names them. -/
opaque infoWord : Nat → List Nat → Nat

end Config
end Sys2Proof
end

