-- ==== Sys2Proof/Machine/RegMap.lean ====
section
/-!
DEFINITION. The register map: every register the spec's field tables define (Table 24-1 to 24-7 and the
tables they name), with its offset formula, and every field with its place, access code and reset value.

A register is known by a KEY, one number over the three windows: a PF0 BAR0 offset is its own key, PF0 BAR2 offset `o`
has key `0x2000000 + o`, PF1 BAR0 offset `o` has key `0x3000000 + o`. The per-queue registers of R433 (which QUEUE_SEL
selects) are kept once per queue, queue `q` at `0x4000000 + 0x40 * q` plus the low byte of the register's offset.
-/

namespace Sys2Proof
namespace Machine

/-- Table 00-4 (R4): the access codes of a field that software can reach; RSV bits belong to no field. -/
inductive Access where
  | rw | ro | w1c | wo
deriving DecidableEq, Repr

/-- One field of a field table: its lowest bit, its width, its access code and its reset value. -/
structure FieldDef where
  lsb : Nat
  width : Nat
  access : Access
  reset : Nat
deriving DecidableEq, Repr

/-- One register family: the key of its first instance, the counts and strides of its one or two indices (count 1 where
it has none) and its fields. -/
structure RegDef where
  base : Nat
  count : Nat
  stride : Nat
  count2 : Nat
  stride2 : Nat
  fields : List FieldDef
deriving DecidableEq, Repr

/-- A named field of one register instance: the register's key, the field's lowest bit and its width. -/
structure Field where
  key : Nat
  lsb : Nat
  width : Nat
deriving DecidableEq, Repr

/-- The registers whose keys lie in 0x0 and up: GLOBAL_ID, GLOBAL_REV, GLOBAL_STRAPS, GLOBAL_SCRATCH, GLOBAL_OWNER, GLOBAL_OWNVIOL, GLOBAL_DIEID_LO, GLOBAL_DIEID_HI, GLOBAL_PWRCTL, GLOBAL_PWRPOL, GLOBAL_PWRSTAT, GLOBAL_PROT, GLOBAL_RESET, GLOBAL_RSTCAUSE. -/
def regs000 : List RegDef := [
  ⟨0x0, 1, 0x4, 1, 0x4, [⟨0, 16, .ro, 0x1d9c⟩, ⟨16, 16, .ro, 0x7120⟩]⟩,
  ⟨0x4, 1, 0x4, 1, 0x4, [⟨0, 8, .ro, 0xb0⟩, ⟨8, 8, .ro, 0x2⟩, ⟨16, 8, .ro, 0x1⟩]⟩,
  ⟨0x8, 1, 0x4, 1, 0x4, [⟨0, 2, .ro, 0x0⟩, ⟨2, 4, .ro, 0x0⟩, ⟨6, 1, .ro, 0x0⟩, ⟨7, 1, .ro, 0x0⟩, ⟨8, 2, .ro, 0x0⟩, ⟨10, 1, .ro, 0x0⟩]⟩,
  ⟨0xc, 1, 0x4, 1, 0x4, [⟨0, 32, .rw, 0x0⟩]⟩,
  ⟨0x10, 1, 0x4, 1, 0x4, [⟨0, 3, .ro, 0x0⟩, ⟨4, 1, .wo, 0x0⟩, ⟨5, 1, .wo, 0x0⟩, ⟨8, 4, .ro, 0x0⟩]⟩,
  ⟨0x14, 1, 0x4, 1, 0x4, [⟨0, 24, .ro, 0x0⟩, ⟨24, 3, .ro, 0x0⟩, ⟨27, 3, .ro, 0x0⟩]⟩,
  ⟨0x18, 1, 0x4, 1, 0x4, [⟨0, 32, .ro, 0x0⟩]⟩,
  ⟨0x1c, 1, 0x4, 1, 0x4, [⟨0, 32, .ro, 0x0⟩]⟩,
  ⟨0x20, 1, 0x4, 1, 0x4, [⟨0, 2, .wo, 0x0⟩, ⟨2, 1, .wo, 0x0⟩]⟩,
  ⟨0x24, 1, 0x4, 1, 0x4, [⟨0, 2, .rw, 0x0⟩, ⟨8, 8, .rw, 0xa⟩, ⟨16, 16, .rw, 0x3e8⟩]⟩,
  ⟨0x28, 1, 0x4, 1, 0x4, [⟨0, 2, .ro, 0x2⟩, ⟨2, 2, .ro, 0x0⟩, ⟨4, 1, .ro, 0x0⟩, ⟨5, 1, .w1c, 0x0⟩, ⟨8, 3, .ro, 0x0⟩]⟩,
  ⟨0x2c, 1, 0x4, 1, 0x4, [⟨0, 1, .w1c, 0x0⟩, ⟨1, 1, .w1c, 0x0⟩, ⟨2, 1, .ro, 0x0⟩, ⟨8, 8, .ro, 0x0⟩, ⟨16, 16, .ro, 0x0⟩]⟩,
  ⟨0x30, 1, 0x4, 1, 0x4, [⟨0, 1, .wo, 0x0⟩, ⟨16, 16, .wo, 0x0⟩]⟩,
  ⟨0x34, 1, 0x4, 1, 0x4, [⟨0, 2, .ro, 0x0⟩, ⟨2, 3, .ro, 0x0⟩, ⟨5, 1, .ro, 0x0⟩, ⟨16, 16, .ro, 0x0⟩]⟩]

/-- The registers whose keys lie in 0x10000 and up: CLK_REF, CLK_LOCKCFG, CLK_PLL, CLK_FS, CLKOUT_CFG, SWS_CTL, SWS_LEVEL, SWS_STATUS, SWS_F_LO, SWS_F_HI, SWS_SLOPE, SWS_DUR. -/
def regs001 : List RegDef := [
  ⟨0x10000, 1, 0x4, 1, 0x4, [⟨0, 1, .ro, 0x0⟩, ⟨1, 1, .ro, 0x1⟩, ⟨16, 16, .ro, 0x0⟩]⟩,
  ⟨0x10004, 1, 0x4, 1, 0x4, [⟨0, 8, .rw, 0x2⟩, ⟨8, 8, .rw, 0x8⟩, ⟨16, 1, .rw, 0x1⟩]⟩,
  ⟨0x10010, 5, 0x4, 1, 0x4, [⟨0, 1, .ro, 0x0⟩, ⟨1, 1, .ro, 0x0⟩, ⟨2, 8, .ro, 0x0⟩, ⟨16, 16, .ro, 0x0⟩]⟩,
  ⟨0x10030, 2, 0x4, 1, 0x4, [⟨0, 15, .ro, 0x3e80⟩, ⟨15, 1, .ro, 0x0⟩]⟩,
  ⟨0x10100, 4, 0x10, 1, 0x4, [⟨0, 1, .rw, 0x0⟩, ⟨1, 2, .rw, 0x0⟩, ⟨3, 3, .rw, 0x0⟩, ⟨6, 3, .rw, 0x0⟩, ⟨10, 10, .rw, 0x1⟩, ⟨20, 1, .w1c, 0x0⟩]⟩,
  ⟨0x10200, 1, 0x4, 1, 0x4, [⟨0, 1, .rw, 0x0⟩, ⟨1, 1, .wo, 0x0⟩, ⟨2, 1, .wo, 0x0⟩, ⟨3, 2, .rw, 0x0⟩, ⟨5, 3, .rw, 0x0⟩, ⟨8, 5, .rw, 0x0⟩, ⟨13, 1, .rw, 0x0⟩, ⟨14, 6, .rw, 0x0⟩, ⟨20, 1, .rw, 0x0⟩]⟩,
  ⟨0x10204, 1, 0x4, 1, 0x4, [⟨0, 5, .rw, 0x0⟩, ⟨16, 16, .rw, 0x0⟩]⟩,
  ⟨0x10208, 1, 0x4, 1, 0x4, [⟨0, 1, .ro, 0x0⟩, ⟨1, 1, .ro, 0x0⟩, ⟨2, 6, .ro, 0x0⟩, ⟨8, 1, .w1c, 0x0⟩, ⟨16, 16, .ro, 0x0⟩]⟩,
  ⟨0x11000, 64, 0x10, 1, 0x4, [⟨0, 32, .rw, 0x0⟩]⟩,
  ⟨0x11004, 64, 0x10, 1, 0x4, [⟨0, 3, .rw, 0x0⟩]⟩,
  ⟨0x11008, 64, 0x10, 1, 0x4, [⟨0, 32, .rw, 0x0⟩]⟩,
  ⟨0x1100c, 64, 0x10, 1, 0x4, [⟨0, 24, .rw, 0x1⟩]⟩]

/-- The registers whose keys lie in 0x20000 and up: CONV_REFBUF, CONV_REFSTAT, CONV_SYNC, CONV_SYNC_T0, CONV_SYNC_T1, CONV_SYNC_T2, ADC_CTL, ADC_START, ADC_DELAY, ADC_OVR, ADC_STATUS, ADC_OVRCNT, ADC_SCNT_LO, ADC_SCNT_HI, ADC_FIRST_LO, ADC_FIRST_HI, ADC_SLICEMAP, DAC_CTL, DAC_STATUS. -/
def regs002 : List RegDef := [
  ⟨0x20000, 1, 0x4, 1, 0x4, [⟨0, 4, .rw, 0x0⟩, ⟨8, 4, .rw, 0x0⟩]⟩,
  ⟨0x20004, 1, 0x4, 1, 0x4, [⟨0, 4, .ro, 0x0⟩, ⟨8, 4, .ro, 0x0⟩]⟩,
  ⟨0x20010, 1, 0x4, 1, 0x4, [⟨0, 1, .rw, 0x0⟩, ⟨1, 1, .rw, 0x0⟩, ⟨2, 1, .wo, 0x0⟩, ⟨4, 1, .w1c, 0x0⟩, ⟨5, 1, .w1c, 0x0⟩]⟩,
  ⟨0x20014, 1, 0x4, 1, 0x4, [⟨0, 32, .ro, 0x0⟩]⟩,
  ⟨0x20018, 1, 0x4, 1, 0x4, [⟨0, 32, .ro, 0x0⟩]⟩,
  ⟨0x2001c, 1, 0x4, 1, 0x4, [⟨0, 32, .ro, 0x0⟩]⟩,
  ⟨0x20100, 4, 0x40, 1, 0x4, [⟨0, 1, .rw, 0x0⟩, ⟨2, 6, .rw, 0x0⟩, ⟨8, 1, .rw, 0x0⟩]⟩,
  ⟨0x20104, 4, 0x40, 1, 0x4, [⟨0, 2, .rw, 0x0⟩, ⟨2, 5, .rw, 0x0⟩, ⟨7, 1, .rw, 0x0⟩, ⟨8, 1, .rw, 0x0⟩, ⟨16, 1, .wo, 0x0⟩, ⟨17, 1, .wo, 0x0⟩]⟩,
  ⟨0x20108, 4, 0x40, 1, 0x4, [⟨0, 32, .rw, 0x0⟩]⟩,
  ⟨0x2010c, 4, 0x40, 1, 0x4, [⟨0, 11, .rw, 0x7ff⟩, ⟨16, 8, .rw, 0x0⟩]⟩,
  ⟨0x20110, 4, 0x40, 1, 0x4, [⟨0, 3, .ro, 0x0⟩, ⟨4, 3, .ro, 0x0⟩, ⟨8, 3, .ro, 0x0⟩, ⟨12, 1, .w1c, 0x0⟩, ⟨13, 1, .ro, 0x0⟩, ⟨14, 1, .ro, 0x0⟩]⟩,
  ⟨0x20114, 4, 0x40, 1, 0x4, [⟨0, 32, .ro, 0x0⟩]⟩,
  ⟨0x20118, 4, 0x40, 1, 0x4, [⟨0, 32, .ro, 0x0⟩]⟩,
  ⟨0x2011c, 4, 0x40, 1, 0x4, [⟨0, 32, .ro, 0x0⟩]⟩,
  ⟨0x20120, 4, 0x40, 1, 0x4, [⟨0, 32, .ro, 0x0⟩]⟩,
  ⟨0x20124, 4, 0x40, 1, 0x4, [⟨0, 32, .ro, 0x0⟩]⟩,
  ⟨0x20128, 4, 0x40, 1, 0x4, [⟨0, 5, .ro, 0x1f⟩, ⟨8, 5, .ro, 0x1f⟩, ⟨16, 1, .ro, 0x0⟩]⟩,
  ⟨0x20400, 4, 0x40, 1, 0x4, [⟨0, 1, .rw, 0x0⟩, ⟨1, 1, .rw, 0x0⟩, ⟨2, 1, .rw, 0x0⟩, ⟨4, 5, .rw, 0x0⟩]⟩,
  ⟨0x20404, 4, 0x40, 1, 0x4, [⟨0, 2, .ro, 0x0⟩, ⟨2, 1, .ro, 0x0⟩, ⟨3, 1, .ro, 0x0⟩]⟩]

/-- The registers whose keys lie in 0x30000 and up: CAL_CTL, CAL_CFG, CAL_TRIM_SEL, CAL_TRIM_DATA, CAL_STATUS, CAL_TEMP, CAL_ROT, CAL_REJECTS, CAL_SETT. -/
def regs003 : List RegDef := [
  ⟨0x30000, 1, 0x4, 1, 0x4, [⟨0, 4, .wo, 0x0⟩, ⟨8, 4, .rw, 0xf⟩, ⟨12, 4, .rw, 0xf⟩, ⟨16, 1, .wo, 0x0⟩]⟩,
  ⟨0x30004, 1, 0x4, 1, 0x4, [⟨0, 16, .rw, 0x100⟩, ⟨16, 4, .rw, 0x4⟩]⟩,
  ⟨0x30010, 1, 0x4, 1, 0x4, [⟨0, 2, .rw, 0x0⟩, ⟨2, 5, .rw, 0x0⟩, ⟨7, 5, .rw, 0x0⟩, ⟨12, 1, .rw, 0x0⟩]⟩,
  ⟨0x30014, 1, 0x4, 1, 0x4, [⟨0, 12, .ro, 0x0⟩]⟩,
  ⟨0x30100, 4, 0x40, 1, 0x4, [⟨0, 3, .ro, 0x0⟩, ⟨3, 1, .ro, 0x0⟩, ⟨4, 2, .ro, 0x0⟩, ⟨6, 1, .w1c, 0x0⟩, ⟨7, 1, .ro, 0x0⟩, ⟨8, 8, .ro, 0x0⟩, ⟨16, 5, .ro, 0x0⟩]⟩,
  ⟨0x30104, 4, 0x40, 1, 0x4, [⟨0, 12, .ro, 0x0⟩]⟩,
  ⟨0x30108, 4, 0x40, 1, 0x4, [⟨0, 32, .ro, 0x0⟩]⟩,
  ⟨0x3010c, 4, 0x40, 1, 0x4, [⟨0, 32, .ro, 0x0⟩]⟩,
  ⟨0x30200, 4, 0x40, 8, 0x4, [⟨0, 12, .ro, 0x0⟩, ⟨15, 1, .ro, 0x0⟩, ⟨16, 15, .ro, 0x0⟩]⟩]

/-- The registers whose keys lie in 0x40000 and up: DDC_CTL, DDC_FREQ_LO, DDC_FREQ_HI, DDC_PHASE, DDC_RETUNE, DDC_STATUS, DDC_SATCNT, DDC_LISTCFG, DDC_LIST_LO, DDC_LIST_HI, PLT_CTL, PLT_THRESH, PLT_STATUS, PLT_POWER. -/
def regs004 : List RegDef := [
  ⟨0x40000, 8, 0x100, 1, 0x4, [⟨0, 1, .rw, 0x0⟩, ⟨1, 1, .rw, 0x0⟩, ⟨4, 5, .rw, 0x1⟩, ⟨9, 1, .rw, 0x0⟩, ⟨10, 1, .rw, 0x1⟩, ⟨11, 1, .rw, 0x0⟩, ⟨12, 2, .rw, 0x0⟩, ⟨16, 1, .rw, 0x0⟩]⟩,
  ⟨0x40004, 8, 0x100, 1, 0x4, [⟨0, 32, .rw, 0x0⟩]⟩,
  ⟨0x40008, 8, 0x100, 1, 0x4, [⟨0, 16, .rw, 0x0⟩]⟩,
  ⟨0x4000c, 8, 0x100, 1, 0x4, [⟨0, 24, .rw, 0x0⟩]⟩,
  ⟨0x40010, 8, 0x100, 1, 0x4, [⟨0, 1, .wo, 0x0⟩, ⟨1, 1, .wo, 0x0⟩]⟩,
  ⟨0x40014, 8, 0x100, 1, 0x4, [⟨0, 1, .ro, 0x0⟩, ⟨1, 1, .ro, 0x0⟩, ⟨2, 1, .ro, 0x0⟩, ⟨3, 1, .w1c, 0x0⟩, ⟨4, 1, .w1c, 0x0⟩, ⟨5, 1, .ro, 0x0⟩, ⟨6, 6, .ro, 0x0⟩, ⟨16, 16, .ro, 0x0⟩]⟩,
  ⟨0x40018, 8, 0x100, 1, 0x4, [⟨0, 32, .ro, 0x0⟩]⟩,
  ⟨0x4001c, 8, 0x100, 1, 0x4, [⟨0, 6, .rw, 0x0⟩, ⟨6, 1, .rw, 0x0⟩, ⟨7, 1, .rw, 0x0⟩, ⟨8, 5, .rw, 0x0⟩, ⟨16, 16, .rw, 0x1⟩]⟩,
  ⟨0x41000, 8, 0x200, 64, 0x8, [⟨0, 32, .rw, 0x0⟩]⟩,
  ⟨0x41004, 8, 0x200, 64, 0x8, [⟨0, 16, .rw, 0x0⟩]⟩,
  ⟨0x48000, 8, 0x20, 1, 0x4, [⟨0, 1, .rw, 0x0⟩, ⟨1, 3, .rw, 0x0⟩, ⟨4, 2, .rw, 0x0⟩, ⟨6, 5, .rw, 0x0⟩, ⟨16, 8, .rw, 0x0⟩]⟩,
  ⟨0x48004, 8, 0x20, 1, 0x4, [⟨0, 16, .rw, 0x0⟩, ⟨16, 16, .rw, 0x8001⟩]⟩,
  ⟨0x48008, 8, 0x20, 1, 0x4, [⟨0, 1, .ro, 0x0⟩, ⟨1, 1, .ro, 0x0⟩, ⟨16, 16, .ro, 0x0⟩]⟩,
  ⟨0x4800c, 8, 0x20, 1, 0x4, [⟨0, 16, .ro, 0x8000⟩]⟩]

/-- The registers whose keys lie in 0x50000 and up: LANE_CFG, LANE_POOL, LANE_INJECT, LANE_STATUS, LANE_ECC, PLAN_EXPORT, PLAN_BINS, PLAN_STATUS, DET_CFG, DET_RANGE, DET_CTL, DET_STATUS, REAM_CFG, REAM_COLS, REAM_ROWS, REAM_DECAY, REAM_CTL, REAM_STATUS, REAM_RANGECNT, DZ_CFG, DZ_COLS, DZ_ROWS, DZ_THRESH, DZ_STATUS, DZ_COUNT. -/
def regs005 : List RegDef := [
  ⟨0x50000, 1, 0x4, 1, 0x4, [⟨0, 1, .rw, 0x0⟩, ⟨1, 1, .rw, 0x1⟩, ⟨8, 8, .rw, 0x3c⟩, ⟨16, 16, .rw, 0x10⟩]⟩,
  ⟨0x50004, 1, 0x4, 1, 0x4, [⟨0, 5, .ro, 0x12⟩, ⟨8, 5, .ro, 0x0⟩, ⟨16, 2, .ro, 0x2⟩, ⟨24, 5, .ro, 0x0⟩]⟩,
  ⟨0x50008, 1, 0x4, 1, 0x4, [⟨0, 5, .wo, 0x0⟩, ⟨16, 16, .wo, 0x0⟩]⟩,
  ⟨0x50100, 18, 0x10, 1, 0x4, [⟨0, 3, .ro, 0x0⟩, ⟨4, 6, .ro, 0x0⟩, ⟨12, 4, .ro, 0x0⟩, ⟨16, 4, .ro, 0x0⟩]⟩,
  ⟨0x50104, 18, 0x10, 1, 0x4, [⟨0, 16, .ro, 0x0⟩, ⟨16, 16, .ro, 0x0⟩]⟩,
  ⟨0x51000, 64, 0x10, 1, 0x4, [⟨0, 2, .rw, 0x0⟩, ⟨2, 1, .rw, 0x0⟩]⟩,
  ⟨0x51004, 64, 0x10, 1, 0x4, [⟨0, 16, .rw, 0x0⟩, ⟨16, 16, .rw, 0xffff⟩]⟩,
  ⟨0x51008, 64, 0x10, 1, 0x4, [⟨0, 2, .ro, 0x0⟩, ⟨2, 5, .ro, 0x0⟩, ⟨8, 5, .ro, 0x0⟩, ⟨16, 16, .ro, 0x0⟩]⟩,
  ⟨0x52000, 32, 0x20, 1, 0x4, [⟨0, 1, .rw, 0x0⟩, ⟨1, 6, .rw, 0x0⟩, ⟨7, 3, .rw, 0x0⟩, ⟨10, 3, .rw, 0x0⟩, ⟨13, 2, .rw, 0x0⟩, ⟨15, 1, .rw, 0x0⟩, ⟨16, 4, .rw, 0x0⟩, ⟨20, 12, .rw, 0x3ff⟩]⟩,
  ⟨0x52004, 32, 0x20, 1, 0x4, [⟨0, 16, .rw, 0x0⟩, ⟨16, 16, .rw, 0xffff⟩]⟩,
  ⟨0x52008, 32, 0x20, 1, 0x4, [⟨0, 24, .rw, 0x40⟩, ⟨31, 1, .wo, 0x0⟩]⟩,
  ⟨0x5200c, 32, 0x20, 1, 0x4, [⟨0, 1, .w1c, 0x0⟩, ⟨1, 1, .ro, 0x0⟩, ⟨2, 14, .ro, 0x0⟩, ⟨16, 16, .ro, 0x0⟩]⟩,
  ⟨0x53000, 8, 0x20, 1, 0x4, [⟨0, 1, .rw, 0x0⟩, ⟨1, 5, .rw, 0xa⟩, ⟨6, 2, .rw, 0x0⟩, ⟨8, 4, .rw, 0x4⟩, ⟨16, 8, .rw, 0x1⟩]⟩,
  ⟨0x53004, 8, 0x20, 1, 0x4, [⟨0, 16, .rw, 0x0⟩, ⟨16, 16, .rw, 0xffff⟩]⟩,
  ⟨0x53008, 8, 0x20, 1, 0x4, [⟨0, 16, .rw, 0x8800⟩, ⟨16, 16, .rw, 0x20⟩]⟩,
  ⟨0x5300c, 8, 0x20, 1, 0x4, [⟨0, 24, .rw, 0x3e8⟩]⟩,
  ⟨0x53010, 8, 0x20, 1, 0x4, [⟨0, 1, .wo, 0x0⟩]⟩,
  ⟨0x53014, 8, 0x20, 1, 0x4, [⟨0, 12, .ro, 0x0⟩, ⟨12, 1, .ro, 0x0⟩, ⟨13, 1, .w1c, 0x0⟩, ⟨14, 1, .w1c, 0x0⟩, ⟨15, 1, .w1c, 0x0⟩]⟩,
  ⟨0x53018, 8, 0x20, 1, 0x4, [⟨0, 16, .ro, 0x0⟩, ⟨16, 16, .ro, 0x0⟩]⟩,
  ⟨0x53400, 16, 0x20, 1, 0x4, [⟨0, 1, .rw, 0x0⟩, ⟨1, 3, .rw, 0x0⟩, ⟨4, 6, .rw, 0x0⟩, ⟨10, 1, .rw, 0x0⟩, ⟨12, 8, .rw, 0x0⟩]⟩,
  ⟨0x53404, 16, 0x20, 1, 0x4, [⟨0, 11, .rw, 0x0⟩, ⟨16, 11, .rw, 0x7ff⟩]⟩,
  ⟨0x53408, 16, 0x20, 1, 0x4, [⟨0, 10, .rw, 0x0⟩, ⟨16, 10, .rw, 0x3ff⟩]⟩,
  ⟨0x5340c, 16, 0x20, 1, 0x4, [⟨0, 24, .rw, 0x1⟩]⟩,
  ⟨0x53410, 16, 0x20, 1, 0x4, [⟨0, 1, .ro, 0x0⟩, ⟨1, 1, .ro, 0x0⟩, ⟨16, 16, .ro, 0x0⟩]⟩,
  ⟨0x53414, 16, 0x20, 1, 0x4, [⟨0, 24, .ro, 0x0⟩]⟩]

/-- The registers whose keys lie in 0x60000 and up: WEIR_CFG, WEIR_CRIT, WEIR_RANGE, WEIR_STATUS, WEIR_COUNT, TRIGIN_CFG, TRIGIN_STUCK, TRIGIN_REARM, TRIGIN_STATUS, TRIGIN_OVR, IBUS_CFG, IBUS_STUCK, IBUS_REARM, IBUS_STATUS, IBUS_OVR, TRIGOUT_CFG, TRIGOUT_STATUS, FL_CFG, FL_CTL, FL_HOLDOFF, FL_AUTO, FL_ACT, FL_CAPT, FL_CAPTLEN, FL_STATUS, FL_COUNT, FL_MARKQ, FL_CH_SRC, FL_CH_COUNT, FL_CH_WLO, FL_CH_WHI, FL_CH_TMO. -/
def regs006 : List RegDef := [
  ⟨0x60000, 64, 0x20, 1, 0x4, [⟨0, 1, .rw, 0x0⟩, ⟨1, 6, .rw, 0x0⟩, ⟨7, 1, .rw, 0x1⟩, ⟨8, 1, .rw, 0x0⟩]⟩,
  ⟨0x60004, 64, 0x20, 1, 0x4, [⟨0, 16, .rw, 0x0⟩, ⟨16, 5, .rw, 0x0⟩, ⟨21, 5, .rw, 0x0⟩]⟩,
  ⟨0x60008, 64, 0x20, 1, 0x4, [⟨0, 16, .rw, 0x0⟩, ⟨16, 16, .rw, 0xffff⟩]⟩,
  ⟨0x6000c, 64, 0x20, 1, 0x4, [⟨0, 1, .ro, 0x0⟩, ⟨1, 1, .ro, 0x0⟩, ⟨2, 1, .ro, 0x0⟩, ⟨3, 1, .ro, 0x0⟩, ⟨4, 1, .ro, 0x0⟩, ⟨5, 1, .w1c, 0x0⟩, ⟨16, 16, .ro, 0x0⟩]⟩,
  ⟨0x60010, 64, 0x20, 1, 0x4, [⟨0, 17, .ro, 0x0⟩]⟩,
  ⟨0x61000, 8, 0x20, 1, 0x4, [⟨0, 1, .rw, 0x0⟩, ⟨1, 1, .rw, 0x0⟩, ⟨2, 1, .rw, 0x0⟩]⟩,
  ⟨0x61004, 8, 0x20, 1, 0x4, [⟨0, 32, .rw, 0x3e8⟩]⟩,
  ⟨0x61008, 8, 0x20, 1, 0x4, [⟨0, 32, .rw, 0x3e8⟩]⟩,
  ⟨0x6100c, 8, 0x20, 1, 0x4, [⟨0, 1, .ro, 0x0⟩, ⟨1, 1, .ro, 0x0⟩, ⟨2, 1, .w1c, 0x0⟩, ⟨3, 1, .w1c, 0x0⟩, ⟨16, 16, .ro, 0x0⟩]⟩,
  ⟨0x61010, 8, 0x20, 1, 0x4, [⟨0, 32, .ro, 0x0⟩]⟩,
  ⟨0x61100, 4, 0x20, 1, 0x4, [⟨0, 1, .rw, 0x0⟩, ⟨2, 1, .rw, 0x0⟩, ⟨8, 10, .rw, 0x0⟩, ⟨18, 8, .rw, 0x19⟩]⟩,
  ⟨0x61104, 4, 0x20, 1, 0x4, [⟨0, 32, .rw, 0x3e8⟩]⟩,
  ⟨0x61108, 4, 0x20, 1, 0x4, [⟨0, 32, .rw, 0x3e8⟩]⟩,
  ⟨0x6110c, 4, 0x20, 1, 0x4, [⟨0, 1, .ro, 0x0⟩, ⟨1, 1, .ro, 0x0⟩, ⟨2, 1, .w1c, 0x0⟩, ⟨3, 1, .w1c, 0x0⟩, ⟨16, 16, .ro, 0x0⟩]⟩,
  ⟨0x61110, 4, 0x20, 1, 0x4, [⟨0, 32, .ro, 0x0⟩]⟩,
  ⟨0x61200, 4, 0x10, 1, 0x4, [⟨0, 1, .rw, 0x0⟩, ⟨1, 1, .rw, 0x0⟩, ⟨2, 2, .rw, 0x0⟩, ⟨16, 16, .rw, 0x64⟩]⟩,
  ⟨0x61204, 4, 0x10, 1, 0x4, [⟨0, 16, .ro, 0x0⟩, ⟨16, 16, .ro, 0x0⟩]⟩,
  ⟨0x62000, 16, 0x100, 1, 0x4, [⟨0, 3, .rw, 0x0⟩, ⟨3, 1, .rw, 0x0⟩, ⟨4, 1, .rw, 0x0⟩, ⟨5, 1, .rw, 0x0⟩, ⟨6, 1, .rw, 0x0⟩, ⟨8, 4, .rw, 0x0⟩]⟩,
  ⟨0x62004, 16, 0x100, 1, 0x4, [⟨0, 1, .wo, 0x0⟩, ⟨1, 1, .wo, 0x0⟩]⟩,
  ⟨0x62008, 16, 0x100, 1, 0x4, [⟨0, 32, .rw, 0x0⟩]⟩,
  ⟨0x6200c, 16, 0x100, 1, 0x4, [⟨0, 32, .rw, 0x3e8⟩]⟩,
  ⟨0x62010, 16, 0x100, 1, 0x4, [⟨0, 4, .rw, 0x0⟩, ⟨4, 4, .rw, 0x0⟩, ⟨8, 8, .rw, 0x0⟩, ⟨16, 16, .rw, 0x0⟩]⟩,
  ⟨0x6201c, 16, 0x100, 1, 0x4, [⟨0, 6, .rw, 0x0⟩, ⟨6, 1, .rw, 0x0⟩, ⟨8, 12, .rw, 0x0⟩, ⟨20, 2, .rw, 0x0⟩]⟩,
  ⟨0x62020, 16, 0x100, 1, 0x4, [⟨0, 16, .rw, 0x0⟩, ⟨16, 16, .rw, 0x0⟩]⟩,
  ⟨0x62024, 16, 0x100, 1, 0x4, [⟨0, 3, .ro, 0x0⟩, ⟨4, 3, .ro, 0x0⟩, ⟨7, 1, .ro, 0x0⟩, ⟨8, 3, .ro, 0x0⟩, ⟨11, 1, .w1c, 0x0⟩, ⟨12, 1, .ro, 0x0⟩]⟩,
  ⟨0x62028, 16, 0x100, 1, 0x4, [⟨0, 24, .ro, 0x0⟩, ⟨24, 8, .ro, 0x0⟩]⟩,
  ⟨0x62014, 16, 0x100, 2, 0x4, [⟨0, 12, .rw, 0x0⟩, ⟨15, 1, .rw, 0x0⟩, ⟨16, 12, .rw, 0x0⟩, ⟨31, 1, .rw, 0x0⟩]⟩,
  ⟨0x62040, 16, 0x100, 8, 0x18, [⟨0, 9, .rw, 0xf0⟩, ⟨9, 2, .rw, 0x0⟩, ⟨11, 9, .rw, 0xf1⟩, ⟨20, 1, .rw, 0x1⟩, ⟨21, 1, .rw, 0x0⟩, ⟨22, 2, .rw, 0x0⟩]⟩,
  ⟨0x62044, 16, 0x100, 8, 0x18, [⟨0, 16, .rw, 0x0⟩]⟩,
  ⟨0x62048, 16, 0x100, 8, 0x18, [⟨0, 32, .rw, 0x0⟩]⟩,
  ⟨0x6204c, 16, 0x100, 8, 0x18, [⟨0, 32, .rw, 0xffffffff⟩]⟩,
  ⟨0x62050, 16, 0x100, 8, 0x18, [⟨0, 32, .rw, 0x0⟩]⟩]

/-- The registers whose keys lie in 0x70000 and up: CU_CTL, CU_ENTRY, CU_EVCFG, CU_TIMER, CU_INQ, CU_STATUS, CU_PC, CU_LSTAT0, CU_LSTAT1, CU_FLAGS, CU_ECC, CU_CYCLE. -/
def regs007 : List RegDef := [
  ⟨0x70000, 16, 0x100, 1, 0x4, [⟨0, 1, .rw, 0x0⟩, ⟨1, 1, .wo, 0x0⟩, ⟨2, 1, .wo, 0x0⟩, ⟨3, 1, .wo, 0x0⟩, ⟨4, 1, .rw, 0x0⟩]⟩,
  ⟨0x70004, 16, 0x100, 1, 0x4, [⟨0, 13, .rw, 0x20⟩]⟩,
  ⟨0x70008, 16, 0x100, 1, 0x4, [⟨0, 8, .rw, 0x0⟩, ⟨8, 5, .rw, 0x0⟩, ⟨16, 2, .rw, 0x0⟩]⟩,
  ⟨0x7000c, 16, 0x100, 1, 0x4, [⟨0, 32, .rw, 0x0⟩]⟩,
  ⟨0x70010, 16, 0x100, 1, 0x4, [⟨0, 12, .rw, 0x0⟩, ⟨15, 1, .rw, 0x0⟩, ⟨16, 12, .rw, 0x0⟩, ⟨31, 1, .rw, 0x0⟩]⟩,
  ⟨0x70014, 16, 0x100, 1, 0x4, [⟨0, 3, .ro, 0x0⟩, ⟨3, 1, .ro, 0x0⟩, ⟨4, 2, .ro, 0x0⟩, ⟨6, 1, .w1c, 0x0⟩, ⟨7, 1, .ro, 0x0⟩, ⟨16, 16, .ro, 0x0⟩]⟩,
  ⟨0x70018, 16, 0x100, 1, 0x4, [⟨0, 13, .ro, 0x0⟩, ⟨16, 13, .ro, 0x0⟩]⟩,
  ⟨0x7001c, 16, 0x100, 1, 0x4, [⟨0, 32, .w1c, 0x0⟩]⟩,
  ⟨0x70020, 16, 0x100, 1, 0x4, [⟨0, 32, .w1c, 0x0⟩]⟩,
  ⟨0x70024, 16, 0x100, 1, 0x4, [⟨0, 2, .ro, 0x0⟩, ⟨2, 2, .ro, 0x0⟩]⟩,
  ⟨0x70028, 16, 0x100, 1, 0x4, [⟨0, 16, .ro, 0x0⟩, ⟨16, 16, .ro, 0x0⟩]⟩,
  ⟨0x7002c, 16, 0x100, 1, 0x4, [⟨0, 32, .ro, 0x0⟩]⟩]

/-- The registers whose keys lie in 0x80000 and up: MEM_CTL, MEM_FENCE, MEM_INFO, MEM_CH_STATUS, MEM_CH_GEOM, MEM_CH_ECC, MEM_CH_PAR, MEM_CH_SCRUB, POUND_CFG, POUND_BASE, POUND_SIZE, POUND_STREAM, POUND_STATUS, POUND_EFF, POUND_HIST, POUND_LOST, POUND_DRAIN. -/
def regs008 : List RegDef := [
  ⟨0x80000, 1, 0x4, 1, 0x4, [⟨0, 1, .rw, 0x1⟩, ⟨1, 3, .rw, 0x4⟩, ⟨4, 1, .wo, 0x0⟩, ⟨5, 1, .rw, 0x1⟩, ⟨8, 8, .rw, 0x10⟩, ⟨16, 16, .rw, 0x400⟩]⟩,
  ⟨0x80004, 1, 0x4, 1, 0x4, [⟨0, 3, .wo, 0x0⟩, ⟨16, 16, .wo, 0x0⟩]⟩,
  ⟨0x80008, 1, 0x4, 1, 0x4, [⟨0, 8, .ro, 0x0⟩, ⟨8, 1, .ro, 0x0⟩, ⟨9, 6, .ro, 0x0⟩, ⟨16, 16, .ro, 0x0⟩]⟩,
  ⟨0x80100, 6, 0x40, 1, 0x4, [⟨0, 3, .ro, 0x0⟩, ⟨3, 3, .ro, 0x0⟩, ⟨6, 4, .ro, 0x0⟩, ⟨10, 7, .ro, 0x0⟩, ⟨17, 1, .ro, 0x0⟩]⟩,
  ⟨0x80104, 6, 0x40, 1, 0x4, [⟨0, 1, .ro, 0x0⟩, ⟨1, 1, .ro, 0x0⟩, ⟨2, 2, .ro, 0x0⟩, ⟨8, 8, .ro, 0x0⟩]⟩,
  ⟨0x80108, 6, 0x40, 1, 0x4, [⟨0, 16, .ro, 0x0⟩, ⟨16, 16, .ro, 0x0⟩]⟩,
  ⟨0x8010c, 6, 0x40, 1, 0x4, [⟨0, 16, .ro, 0x0⟩, ⟨16, 2, .ro, 0x0⟩]⟩,
  ⟨0x80110, 6, 0x40, 1, 0x4, [⟨0, 16, .ro, 0x0⟩, ⟨16, 7, .ro, 0x0⟩]⟩,
  ⟨0x81000, 64, 0x40, 1, 0x4, [⟨0, 1, .rw, 0x0⟩, ⟨1, 1, .rw, 0x0⟩, ⟨2, 1, .rw, 0x0⟩, ⟨3, 1, .rw, 0x0⟩, ⟨4, 2, .rw, 0x0⟩, ⟨6, 3, .rw, 0x0⟩, ⟨9, 6, .rw, 0x0⟩, ⟨16, 5, .rw, 0x10⟩]⟩,
  ⟨0x81004, 64, 0x40, 1, 0x4, [⟨0, 17, .rw, 0x0⟩]⟩,
  ⟨0x81008, 64, 0x40, 1, 0x4, [⟨0, 20, .rw, 0x0⟩]⟩,
  ⟨0x8100c, 64, 0x40, 1, 0x4, [⟨0, 16, .rw, 0x0⟩]⟩,
  ⟨0x81020, 64, 0x40, 1, 0x4, [⟨0, 3, .ro, 0x0⟩, ⟨3, 1, .w1c, 0x0⟩, ⟨4, 1, .ro, 0x0⟩, ⟨5, 1, .w1c, 0x0⟩, ⟨8, 6, .ro, 0x0⟩]⟩,
  ⟨0x81024, 64, 0x40, 1, 0x4, [⟨0, 20, .ro, 0x0⟩]⟩,
  ⟨0x81028, 64, 0x40, 1, 0x4, [⟨0, 32, .ro, 0x0⟩]⟩,
  ⟨0x8102c, 64, 0x40, 1, 0x4, [⟨0, 32, .ro, 0x0⟩]⟩,
  ⟨0x81010, 64, 0x40, 4, 0x4, [⟨0, 12, .rw, 0x0⟩, ⟨15, 1, .rw, 0x0⟩]⟩]

/-- The registers whose keys lie in 0x90000 and up: QUEUE_POOLCFG, QUEUE_POOLSTAT, QUEUE_ERR, QUEUE_SEL. -/
def regs009 : List RegDef := [
  ⟨0x90000, 1, 0x4, 1, 0x4, [⟨0, 18, .rw, 0x1000⟩, ⟨18, 5, .rw, 0x10⟩]⟩,
  ⟨0x90004, 1, 0x4, 1, 0x4, [⟨0, 18, .ro, 0x20000⟩, ⟨18, 1, .w1c, 0x0⟩, ⟨19, 1, .w1c, 0x0⟩]⟩,
  ⟨0x90008, 1, 0x4, 1, 0x4, [⟨0, 17, .ro, 0x0⟩, ⟨17, 12, .ro, 0x0⟩, ⟨29, 3, .ro, 0x0⟩]⟩,
  ⟨0x90010, 1, 0x4, 1, 0x4, [⟨0, 12, .rw, 0x0⟩]⟩]

/-- The registers whose keys lie in 0xa0000 and up: RING_CTL, RING_TALLY_LO, RING_TALLY_HI, RING_LOOKOUT, RING_PARK, RING_STATUS, RING_BASE_LO, RING_BASE_HI, RING_CFG, RING_HEAD, RING_DONE, RING_STAT, RING_SRC. -/
def regs00A : List RegDef := [
  ⟨0xa0000, 1, 0x4, 1, 0x4, [⟨0, 1, .rw, 0x0⟩, ⟨1, 1, .rw, 0x1⟩]⟩,
  ⟨0xa0004, 1, 0x4, 1, 0x4, [⟨12, 20, .rw, 0x0⟩]⟩,
  ⟨0xa0008, 1, 0x4, 1, 0x4, [⟨0, 32, .rw, 0x0⟩]⟩,
  ⟨0xa000c, 1, 0x4, 1, 0x4, [⟨0, 14, .rw, 0x32⟩]⟩,
  ⟨0xa0010, 1, 0x4, 1, 0x4, [⟨0, 32, .rw, 0x3e8⟩]⟩,
  ⟨0xa0014, 1, 0x4, 1, 0x4, [⟨0, 1, .ro, 0x0⟩, ⟨1, 1, .w1c, 0x0⟩, ⟨16, 16, .ro, 0x0⟩]⟩,
  ⟨0xa1000, 113, 0x20, 1, 0x4, [⟨6, 26, .rw, 0x0⟩]⟩,
  ⟨0xa1004, 113, 0x20, 1, 0x4, [⟨0, 32, .rw, 0x0⟩]⟩,
  ⟨0xa1008, 113, 0x20, 1, 0x4, [⟨0, 1, .rw, 0x0⟩, ⟨1, 1, .ro, 0x0⟩, ⟨2, 5, .rw, 0x4⟩, ⟨8, 1, .wo, 0x0⟩]⟩,
  ⟨0xa100c, 113, 0x20, 1, 0x4, [⟨0, 32, .ro, 0x0⟩]⟩,
  ⟨0xa1010, 113, 0x20, 1, 0x4, [⟨0, 32, .ro, 0x0⟩]⟩,
  ⟨0xa1014, 113, 0x20, 1, 0x4, [⟨0, 16, .ro, 0x0⟩, ⟨16, 1, .w1c, 0x0⟩, ⟨17, 1, .w1c, 0x0⟩, ⟨18, 1, .w1c, 0x0⟩, ⟨19, 13, .ro, 0x0⟩]⟩,
  ⟨0xa1018, 113, 0x20, 1, 0x4, [⟨0, 12, .rw, 0x0⟩, ⟨15, 1, .rw, 0x0⟩, ⟨16, 16, .rw, 0x64⟩]⟩]

/-- The registers whose keys lie in 0xb0000 and up: NVME_CTL, NVME_PORT, NVME_DRIVE, NVME_DRIVE_ERR, NVME_SLOT, NVME_SLOT_NSID, NVME_SLOT_CAP_LO, NVME_SLOT_CAP_HI, NVME_REC_CFG, NVME_REC_CLOSE, NVME_REC_STAT, NVME_REC_CHUNK_LO, NVME_REC_CHUNK_HI, NVME_REC_TREC0, NVME_REC_TREC1, NVME_REC_TREC2. -/
def regs00B : List RegDef := [
  ⟨0xb0000, 1, 0x4, 1, 0x4, [⟨0, 16, .rw, 0x3e8⟩, ⟨16, 2, .rw, 0x1⟩]⟩,
  ⟨0xb0010, 2, 0x10, 1, 0x4, [⟨0, 1, .rw, 0x0⟩, ⟨1, 2, .rw, 0x0⟩, ⟨3, 3, .rw, 0x5⟩]⟩,
  ⟨0xb0100, 8, 0x10, 1, 0x4, [⟨0, 3, .ro, 0x0⟩, ⟨4, 5, .ro, 0x0⟩, ⟨9, 3, .ro, 0x0⟩, ⟨12, 4, .ro, 0x0⟩, ⟨16, 16, .ro, 0x0⟩]⟩,
  ⟨0xb0104, 8, 0x10, 1, 0x4, [⟨0, 16, .ro, 0x0⟩, ⟨16, 16, .ro, 0x0⟩]⟩,
  ⟨0xb0200, 8, 0x10, 1, 0x4, [⟨0, 1, .rw, 0x0⟩, ⟨1, 3, .rw, 0x0⟩, ⟨4, 1, .ro, 0x0⟩, ⟨5, 2, .ro, 0x0⟩, ⟨7, 1, .w1c, 0x0⟩]⟩,
  ⟨0xb0204, 8, 0x10, 1, 0x4, [⟨0, 32, .rw, 0x1⟩]⟩,
  ⟨0xb0208, 8, 0x10, 1, 0x4, [⟨0, 32, .ro, 0x0⟩]⟩,
  ⟨0xb020c, 8, 0x10, 1, 0x4, [⟨0, 32, .ro, 0x0⟩]⟩,
  ⟨0xb0400, 8, 0x40, 1, 0x4, [⟨0, 1, .rw, 0x0⟩, ⟨1, 1, .rw, 0x0⟩, ⟨2, 2, .rw, 0x2⟩, ⟨8, 8, .rw, 0x0⟩, ⟨16, 12, .rw, 0x0⟩]⟩,
  ⟨0xb0404, 8, 0x40, 1, 0x4, [⟨0, 16, .rw, 0x3e8⟩]⟩,
  ⟨0xb0408, 8, 0x40, 1, 0x4, [⟨0, 3, .ro, 0x0⟩, ⟨3, 1, .w1c, 0x0⟩, ⟨4, 8, .ro, 0x0⟩, ⟨16, 16, .ro, 0x0⟩]⟩,
  ⟨0xb040c, 8, 0x40, 1, 0x4, [⟨0, 32, .ro, 0x0⟩]⟩,
  ⟨0xb0410, 8, 0x40, 1, 0x4, [⟨0, 32, .ro, 0x0⟩]⟩,
  ⟨0xb0414, 8, 0x40, 1, 0x4, [⟨0, 32, .ro, 0x0⟩]⟩,
  ⟨0xb0418, 8, 0x40, 1, 0x4, [⟨0, 32, .ro, 0x0⟩]⟩,
  ⟨0xb041c, 8, 0x40, 1, 0x4, [⟨0, 32, .ro, 0x0⟩]⟩]

/-- The registers whose keys lie in 0xc0000 and up: SG_CFG, SG_CTL, SG_SKEW, SG_STATUS, SG_REP, SG_UNDER, SG_CNT, SG_T0, SG_T1, SG_T2, SG_PLAYED_LO, SG_PLAYED_HI. -/
def regs00C : List RegDef := [
  ⟨0xc0000, 8, 0x40, 1, 0x4, [⟨0, 1, .rw, 0x0⟩, ⟨1, 1, .rw, 0x0⟩]⟩,
  ⟨0xc0004, 8, 0x40, 1, 0x4, [⟨0, 1, .wo, 0x0⟩, ⟨1, 1, .wo, 0x0⟩]⟩,
  ⟨0xc0008, 8, 0x40, 1, 0x4, [⟨0, 9, .rw, 0x0⟩, ⟨16, 6, .rw, 0x0⟩]⟩,
  ⟨0xc000c, 8, 0x40, 1, 0x4, [⟨0, 3, .ro, 0x0⟩, ⟨4, 3, .ro, 0x0⟩, ⟨7, 1, .w1c, 0x0⟩, ⟨8, 1, .w1c, 0x0⟩, ⟨16, 16, .ro, 0x0⟩]⟩,
  ⟨0xc0010, 8, 0x40, 1, 0x4, [⟨0, 32, .ro, 0x0⟩]⟩,
  ⟨0xc0014, 8, 0x40, 1, 0x4, [⟨0, 32, .ro, 0x0⟩]⟩,
  ⟨0xc0018, 8, 0x40, 1, 0x4, [⟨0, 16, .ro, 0x0⟩, ⟨16, 16, .ro, 0x0⟩]⟩,
  ⟨0xc001c, 8, 0x40, 1, 0x4, [⟨0, 32, .ro, 0x0⟩]⟩,
  ⟨0xc0020, 8, 0x40, 1, 0x4, [⟨0, 32, .ro, 0x0⟩]⟩,
  ⟨0xc0024, 8, 0x40, 1, 0x4, [⟨0, 32, .ro, 0x0⟩]⟩,
  ⟨0xc0028, 8, 0x40, 1, 0x4, [⟨0, 32, .ro, 0x0⟩]⟩,
  ⟨0xc002c, 8, 0x40, 1, 0x4, [⟨0, 32, .ro, 0x0⟩]⟩]

/-- The registers whose keys lie in 0xd0000 and up: PROBE_CTL, PROBE_GROUPS, PROBE_SUBTOTAL, PROBE_LANE, PROBE_LANE_ERR, PROBE_LANE_DLY, PROBE_PEER, VC_CFG, VC_RATE, VC_STAT, BP_CFG, BP_FILL, BP_STAT, EG_CFG, EG_RATE, EG_STAT, PROBE_SET, PROBE_SET_ROWS. -/
def regs00D : List RegDef := [
  ⟨0xd0000, 1, 0x4, 1, 0x4, [⟨0, 16, .rw, 0xa⟩, ⟨16, 8, .rw, 0x10⟩, ⟨24, 1, .w1c, 0x0⟩]⟩,
  ⟨0xd0004, 1, 0x4, 1, 0x4, [⟨0, 8, .rw, 0x0⟩]⟩,
  ⟨0xd0008, 1, 0x4, 1, 0x4, [⟨0, 17, .ro, 0x0⟩]⟩,
  ⟨0xd0100, 16, 0x10, 1, 0x4, [⟨0, 1, .rw, 0x0⟩, ⟨1, 3, .ro, 0x0⟩, ⟨4, 1, .w1c, 0x0⟩, ⟨16, 16, .ro, 0x0⟩]⟩,
  ⟨0xd0104, 16, 0x10, 1, 0x4, [⟨0, 16, .ro, 0x0⟩, ⟨16, 16, .ro, 0x0⟩]⟩,
  ⟨0xd0108, 16, 0x10, 1, 0x4, [⟨0, 32, .ro, 0x0⟩]⟩,
  ⟨0xd010c, 16, 0x10, 1, 0x4, [⟨0, 32, .ro, 0x0⟩]⟩,
  ⟨0xd0200, 8, 0x10, 1, 0x4, [⟨0, 1, .rw, 0x0⟩, ⟨1, 1, .rw, 0x0⟩, ⟨2, 4, .rw, 0x0⟩, ⟨8, 8, .rw, 0x0⟩]⟩,
  ⟨0xd0204, 8, 0x10, 1, 0x4, [⟨0, 23, .rw, 0x0⟩]⟩,
  ⟨0xd0208, 8, 0x10, 1, 0x4, [⟨0, 1, .ro, 0x0⟩, ⟨1, 1, .w1c, 0x0⟩, ⟨2, 1, .w1c, 0x0⟩, ⟨16, 16, .ro, 0x0⟩]⟩,
  ⟨0xd0300, 8, 0x10, 1, 0x4, [⟨0, 1, .rw, 0x0⟩, ⟨1, 1, .rw, 0x0⟩, ⟨2, 4, .rw, 0x0⟩, ⟨8, 8, .rw, 0x0⟩, ⟨16, 12, .rw, 0x0⟩]⟩,
  ⟨0xd0304, 8, 0x10, 1, 0x4, [⟨0, 32, .rw, 0x400⟩]⟩,
  ⟨0xd0308, 8, 0x10, 1, 0x4, [⟨0, 1, .w1c, 0x0⟩, ⟨1, 1, .ro, 0x0⟩, ⟨16, 16, .ro, 0x0⟩]⟩,
  ⟨0xd0400, 4, 0x10, 1, 0x4, [⟨0, 1, .rw, 0x0⟩, ⟨1, 4, .rw, 0x0⟩, ⟨8, 8, .rw, 0x0⟩, ⟨16, 16, .rw, 0x7d0⟩]⟩,
  ⟨0xd0404, 4, 0x10, 1, 0x4, [⟨0, 23, .rw, 0x0⟩]⟩,
  ⟨0xd0408, 4, 0x10, 1, 0x4, [⟨0, 1, .w1c, 0x0⟩, ⟨16, 16, .ro, 0x0⟩]⟩,
  ⟨0xd0500, 16, 0x8, 1, 0x4, [⟨0, 17, .ro, 0x0⟩, ⟨17, 8, .ro, 0x0⟩, ⟨25, 4, .ro, 0x0⟩]⟩,
  ⟨0xd0504, 16, 0x8, 1, 0x4, [⟨0, 32, .ro, 0x0⟩]⟩]

/-- The registers whose keys lie in 0xe0000 and up: TDC_CTL, TDC_IN_CFG, TDC_IN_STUCK, TDC_IN_REARM, TDC_IN_STATUS, TDC_IN_OVR, TDC_CH_WLO, TDC_CH_WHI, TDC_CH_Q, TDC_CH_STAT, TDC_FQ_GATE, TDC_FQ_CFG, TDC_FQ_STAT. -/
def regs00E : List RegDef := [
  ⟨0xe0000, 1, 0x4, 1, 0x4, [⟨0, 1, .rw, 0x0⟩, ⟨1, 1, .w1c, 0x0⟩, ⟨16, 16, .rw, 0xa⟩]⟩,
  ⟨0xe0100, 16, 0x20, 1, 0x4, [⟨0, 1, .rw, 0x0⟩, ⟨1, 1, .rw, 0x0⟩, ⟨2, 2, .rw, 0x0⟩, ⟨4, 1, .rw, 0x0⟩, ⟨5, 1, .rw, 0x0⟩, ⟨6, 1, .rw, 0x0⟩, ⟨8, 8, .rw, 0x70⟩, ⟨16, 4, .rw, 0x0⟩]⟩,
  ⟨0xe0104, 16, 0x20, 1, 0x4, [⟨0, 32, .rw, 0x3e8⟩]⟩,
  ⟨0xe0108, 16, 0x20, 1, 0x4, [⟨0, 32, .rw, 0x3e8⟩]⟩,
  ⟨0xe010c, 16, 0x20, 1, 0x4, [⟨0, 1, .ro, 0x0⟩, ⟨1, 1, .ro, 0x0⟩, ⟨2, 1, .w1c, 0x0⟩, ⟨3, 1, .w1c, 0x0⟩, ⟨4, 1, .w1c, 0x0⟩, ⟨16, 16, .ro, 0x0⟩]⟩,
  ⟨0xe0110, 16, 0x20, 1, 0x4, [⟨0, 32, .ro, 0x0⟩]⟩,
  ⟨0xe0400, 8, 0x10, 1, 0x4, [⟨0, 32, .rw, 0x0⟩]⟩,
  ⟨0xe0404, 8, 0x10, 1, 0x4, [⟨0, 32, .rw, 0x3e8⟩]⟩,
  ⟨0xe0408, 8, 0x10, 1, 0x4, [⟨0, 12, .rw, 0x0⟩, ⟨15, 1, .rw, 0x0⟩]⟩,
  ⟨0xe040c, 8, 0x10, 1, 0x4, [⟨0, 16, .ro, 0x0⟩, ⟨16, 16, .ro, 0x0⟩]⟩,
  ⟨0xe0600, 16, 0x10, 1, 0x4, [⟨0, 24, .rw, 0x3e8⟩]⟩,
  ⟨0xe0604, 16, 0x10, 1, 0x4, [⟨0, 1, .rw, 0x0⟩, ⟨1, 5, .rw, 0x0⟩, ⟨8, 12, .rw, 0x0⟩, ⟨31, 1, .rw, 0x0⟩]⟩,
  ⟨0xe0608, 16, 0x10, 1, 0x4, [⟨0, 16, .ro, 0x0⟩, ⟨16, 16, .ro, 0x0⟩]⟩]

/-- The registers whose keys lie in 0xf0000 and up: TIME_CFG, TIME_ID, TIME_ROOT, TIME_JUMP, TIME_STATUS, TIME_NOW0, TIME_NOW1, TIME_NOW2, TIME_RATE, TIME_OFFSET, TG_START0, TG_START1, TG_START2, TG_PERIOD, TG_CTL, TG_COUNT, TG_STAT, ETH_CFG, ETH_MAC_LO, ETH_MAC_HI, ETH_CNT, AKW_CFG, AKW_DELAY, AKW_STALE, AKW_CNT. -/
def regs00F : List RegDef := [
  ⟨0xf0000, 1, 0x4, 1, 0x4, [⟨0, 1, .rw, 0x0⟩, ⟨8, 8, .rw, 0x28⟩]⟩,
  ⟨0xf0004, 1, 0x4, 1, 0x4, [⟨0, 18, .rw, 0x0⟩]⟩,
  ⟨0xf0008, 1, 0x4, 1, 0x4, [⟨0, 18, .rw, 0x0⟩]⟩,
  ⟨0xf000c, 1, 0x4, 1, 0x4, [⟨0, 32, .rw, 0xf4240⟩]⟩,
  ⟨0xf0010, 1, 0x4, 1, 0x4, [⟨0, 3, .ro, 0x0⟩, ⟨3, 1, .ro, 0x0⟩, ⟨4, 1, .w1c, 0x0⟩, ⟨5, 1, .w1c, 0x0⟩, ⟨6, 1, .w1c, 0x0⟩, ⟨16, 16, .ro, 0x0⟩]⟩,
  ⟨0xf0014, 1, 0x4, 1, 0x4, [⟨0, 32, .ro, 0x0⟩]⟩,
  ⟨0xf0018, 1, 0x4, 1, 0x4, [⟨0, 32, .ro, 0x0⟩]⟩,
  ⟨0xf001c, 1, 0x4, 1, 0x4, [⟨0, 32, .ro, 0x0⟩]⟩,
  ⟨0xf0020, 1, 0x4, 1, 0x4, [⟨0, 32, .ro, 0xa0000000⟩]⟩,
  ⟨0xf0024, 1, 0x4, 1, 0x4, [⟨0, 32, .ro, 0x0⟩]⟩,
  ⟨0xf0100, 32, 0x20, 1, 0x4, [⟨0, 32, .rw, 0x0⟩]⟩,
  ⟨0xf0104, 32, 0x20, 1, 0x4, [⟨0, 32, .rw, 0x0⟩]⟩,
  ⟨0xf0108, 32, 0x20, 1, 0x4, [⟨0, 32, .rw, 0x0⟩]⟩,
  ⟨0xf010c, 32, 0x20, 1, 0x4, [⟨0, 32, .rw, 0x0⟩]⟩,
  ⟨0xf0110, 32, 0x20, 1, 0x4, [⟨0, 1, .rw, 0x0⟩, ⟨1, 1, .rw, 0x0⟩, ⟨2, 1, .w1c, 0x0⟩, ⟨16, 16, .rw, 0x0⟩]⟩,
  ⟨0xf0114, 32, 0x20, 1, 0x4, [⟨0, 32, .rw, 0x1⟩]⟩,
  ⟨0xf0118, 32, 0x20, 1, 0x4, [⟨0, 16, .ro, 0x0⟩, ⟨16, 16, .ro, 0x0⟩]⟩,
  ⟨0xf0800, 1, 0x4, 1, 0x4, [⟨0, 1, .rw, 0x0⟩, ⟨1, 1, .rw, 0x1⟩, ⟨2, 1, .rw, 0x0⟩, ⟨3, 1, .rw, 0x0⟩, ⟨4, 1, .rw, 0x0⟩, ⟨5, 1, .rw, 0x0⟩, ⟨6, 1, .ro, 0x0⟩]⟩,
  ⟨0xf0804, 1, 0x4, 1, 0x4, [⟨0, 32, .rw, 0x0⟩]⟩,
  ⟨0xf0808, 1, 0x4, 1, 0x4, [⟨0, 16, .rw, 0x0⟩]⟩,
  ⟨0xf0818, 1, 0x4, 1, 0x4, [⟨0, 16, .ro, 0x0⟩, ⟨16, 16, .ro, 0x0⟩]⟩,
  ⟨0xf080c, 1, 0x4, 1, 0x4, [⟨0, 16, .rw, 0x88b5⟩, ⟨16, 8, .rw, 0x0⟩]⟩,
  ⟨0xf0810, 1, 0x4, 1, 0x4, [⟨0, 32, .rw, 0xc350⟩]⟩,
  ⟨0xf0814, 1, 0x4, 1, 0x4, [⟨0, 32, .rw, 0x3e8⟩]⟩,
  ⟨0xf081c, 1, 0x4, 1, 0x4, [⟨0, 16, .ro, 0x0⟩, ⟨16, 16, .ro, 0x0⟩]⟩]

/-- The registers whose keys lie in 0x100000 and up: KX_CFG, KX_STAT, KX_SYNCDIFF, KX_LINK, KX_LINK_DLY, KX_LINK_PEER, KX_RT, KX_RT_EQ, KX_SP, KX_SP_DEST, KX_SP_STAT. -/
def regs010 : List RegDef := [
  ⟨0x100000, 1, 0x4, 1, 0x4, [⟨0, 16, .rw, 0xffff⟩, ⟨16, 2, .rw, 0x0⟩]⟩,
  ⟨0x100004, 1, 0x4, 1, 0x4, [⟨0, 16, .ro, 0x0⟩]⟩,
  ⟨0x100008, 1, 0x4, 1, 0x4, [⟨0, 32, .ro, 0x0⟩]⟩,
  ⟨0x100100, 6, 0x10, 1, 0x4, [⟨0, 1, .rw, 0x0⟩, ⟨1, 3, .ro, 0x0⟩, ⟨8, 4, .ro, 0x0⟩, ⟨16, 16, .ro, 0x0⟩]⟩,
  ⟨0x100104, 6, 0x10, 1, 0x4, [⟨0, 32, .ro, 0x0⟩]⟩,
  ⟨0x100108, 6, 0x10, 1, 0x4, [⟨0, 18, .ro, 0x0⟩]⟩,
  ⟨0x100200, 16, 0x8, 1, 0x4, [⟨0, 1, .rw, 0x0⟩, ⟨1, 1, .rw, 0x0⟩, ⟨2, 1, .rw, 0x0⟩, ⟨3, 1, .rw, 0x0⟩, ⟨4, 1, .rw, 0x0⟩, ⟨16, 16, .ro, 0x0⟩]⟩,
  ⟨0x100204, 16, 0x8, 1, 0x4, [⟨0, 32, .rw, 0x12c⟩]⟩,
  ⟨0x100300, 16, 0x10, 1, 0x4, [⟨0, 12, .rw, 0x0⟩, ⟨15, 1, .rw, 0x0⟩, ⟨16, 12, .rw, 0x0⟩]⟩,
  ⟨0x100304, 16, 0x10, 1, 0x4, [⟨0, 18, .rw, 0x0⟩]⟩,
  ⟨0x100308, 16, 0x10, 1, 0x4, [⟨0, 1, .w1c, 0x0⟩, ⟨16, 16, .ro, 0x0⟩]⟩]

/-- The registers whose keys lie in 0x110000 and up: DISP_CTL, DISP_PCLK, DISP_HTIM, DISP_HSYNC, DISP_VTIM, DISP_VSYNC, DISP_BG, DISP_LINE, DISP_STATUS, DISP_ERR, DISP_POS, PL_CFG, PL_POS, PL_SIZE, PL_SRCX, PL_SRCY, PL_TRC, PL_TCOL. -/
def regs011 : List RegDef := [
  ⟨0x110000, 2, 0x400, 1, 0x4, [⟨0, 1, .rw, 0x0⟩, ⟨1, 1, .wo, 0x0⟩, ⟨2, 1, .rw, 0x0⟩, ⟨3, 1, .rw, 0x0⟩, ⟨4, 1, .rw, 0x0⟩, ⟨5, 1, .rw, 0x1⟩]⟩,
  ⟨0x110004, 2, 0x400, 1, 0x4, [⟨0, 20, .rw, 0x24414⟩]⟩,
  ⟨0x110008, 2, 0x400, 1, 0x4, [⟨0, 16, .rw, 0x780⟩, ⟨16, 16, .rw, 0x898⟩]⟩,
  ⟨0x11000c, 2, 0x400, 1, 0x4, [⟨0, 16, .rw, 0x58⟩, ⟨16, 15, .rw, 0x2c⟩, ⟨31, 1, .rw, 0x1⟩]⟩,
  ⟨0x110010, 2, 0x400, 1, 0x4, [⟨0, 16, .rw, 0x438⟩, ⟨16, 16, .rw, 0x465⟩]⟩,
  ⟨0x110014, 2, 0x400, 1, 0x4, [⟨0, 16, .rw, 0x4⟩, ⟨16, 15, .rw, 0x5⟩, ⟨31, 1, .rw, 0x1⟩]⟩,
  ⟨0x110018, 2, 0x400, 1, 0x4, [⟨0, 24, .rw, 0x0⟩]⟩,
  ⟨0x11001c, 2, 0x400, 1, 0x4, [⟨0, 16, .rw, 0x0⟩]⟩,
  ⟨0x110020, 2, 0x400, 1, 0x4, [⟨0, 3, .ro, 0x0⟩, ⟨3, 1, .ro, 0x0⟩, ⟨4, 1, .ro, 0x0⟩, ⟨5, 1, .w1c, 0x0⟩, ⟨6, 2, .ro, 0x0⟩, ⟨8, 3, .ro, 0x0⟩, ⟨16, 16, .ro, 0x0⟩]⟩,
  ⟨0x110024, 2, 0x400, 1, 0x4, [⟨0, 16, .ro, 0x0⟩, ⟨16, 16, .ro, 0x0⟩]⟩,
  ⟨0x110028, 2, 0x400, 1, 0x4, [⟨0, 16, .ro, 0x0⟩]⟩,
  ⟨0x110100, 2, 0x400, 4, 0x20, [⟨0, 2, .rw, 0x0⟩, ⟨2, 1, .rw, 0x1⟩, ⟨3, 1, .rw, 0x1⟩, ⟨4, 4, .rw, 0x0⟩, ⟨8, 5, .rw, 0x0⟩]⟩,
  ⟨0x110104, 2, 0x400, 4, 0x20, [⟨0, 16, .rw, 0x0⟩, ⟨16, 16, .rw, 0x0⟩]⟩,
  ⟨0x110108, 2, 0x400, 4, 0x20, [⟨0, 16, .rw, 0x0⟩, ⟨16, 16, .rw, 0x0⟩]⟩,
  ⟨0x11010c, 2, 0x400, 4, 0x20, [⟨0, 16, .rw, 0x0⟩, ⟨16, 16, .rw, 0x0⟩]⟩,
  ⟨0x110110, 2, 0x400, 4, 0x20, [⟨0, 16, .rw, 0x0⟩, ⟨16, 16, .rw, 0x0⟩]⟩,
  ⟨0x110114, 2, 0x400, 4, 0x20, [⟨0, 5, .rw, 0x0⟩, ⟨5, 5, .rw, 0x0⟩, ⟨10, 5, .rw, 0x0⟩, ⟨15, 5, .rw, 0x0⟩, ⟨20, 4, .rw, 0x0⟩]⟩,
  ⟨0x110118, 2, 0x400, 4, 0x20, [⟨0, 8, .rw, 0x0⟩, ⟨8, 8, .rw, 0x0⟩, ⟨16, 8, .rw, 0x0⟩, ⟨24, 8, .rw, 0x0⟩]⟩]

/-- The registers whose keys lie in 0x120000 and up: LK_STATUS, LK_FWVER, LK_BOOT, MON_CFG. -/
def regs012 : List RegDef := [
  ⟨0x120000, 4, 0x4, 1, 0x4, [⟨0, 3, .ro, 0x0⟩, ⟨16, 8, .ro, 0x0⟩]⟩,
  ⟨0x120010, 1, 0x4, 1, 0x4, [⟨0, 32, .ro, 0x0⟩]⟩,
  ⟨0x120014, 1, 0x4, 1, 0x4, [⟨0, 1, .ro, 0x0⟩, ⟨1, 1, .ro, 0x0⟩, ⟨2, 1, .ro, 0x0⟩, ⟨3, 1, .ro, 0x0⟩, ⟨4, 2, .ro, 0x0⟩, ⟨6, 2, .ro, 0x0⟩]⟩,
  ⟨0x120020, 1, 0x4, 1, 0x4, [⟨0, 2, .rw, 0x1⟩, ⟨2, 1, .ro, 0x0⟩, ⟨16, 16, .ro, 0x0⟩]⟩]

/-- The registers whose keys lie in 0x130000 and up: EV_CTL, EV_STAT, EV_ROOT, EV_INJECT, EV_CFG, EV_CNT. -/
def regs013 : List RegDef := [
  ⟨0x130000, 1, 0x4, 1, 0x4, [⟨0, 20, .rw, 0x3e8⟩]⟩,
  ⟨0x130004, 1, 0x4, 1, 0x4, [⟨0, 11, .ro, 0x0⟩, ⟨11, 11, .ro, 0x0⟩, ⟨22, 5, .ro, 0x0⟩]⟩,
  ⟨0x130008, 1, 0x4, 1, 0x4, [⟨0, 9, .ro, 0x0⟩, ⟨16, 16, .ro, 0x0⟩]⟩,
  ⟨0x13000c, 1, 0x4, 1, 0x4, [⟨0, 9, .wo, 0x0⟩, ⟨16, 16, .wo, 0x0⟩]⟩,
  ⟨0x131000, 512, 0x4, 1, 0x4, [⟨0, 1, .rw, 0x1⟩, ⟨1, 2, .rw, 0x0⟩]⟩,
  ⟨0x132000, 512, 0x4, 1, 0x4, [⟨0, 32, .ro, 0x0⟩]⟩]

/-- The registers whose keys lie in 0x140000 and up: HK_THERM, HK_SEQ_CTL, HK_SEQ_TMR, HK_SEQ_DLY, HK_SEQ_STAT, HK_SEQ_LIST, HK_RESULT, HK_LIMIT, HK_PWM, GPIO_CFG. -/
def regs014 : List RegDef := [
  ⟨0x140010, 1, 0x4, 1, 0x4, [⟨0, 12, .rw, 0x2f8⟩, ⟨16, 12, .rw, 0x370⟩]⟩,
  ⟨0x140140, 3, 0x40, 1, 0x4, [⟨0, 2, .rw, 0x0⟩, ⟨2, 2, .rw, 0x0⟩, ⟨4, 1, .rw, 0x0⟩, ⟨8, 6, .rw, 0x0⟩, ⟨14, 1, .wo, 0x0⟩]⟩,
  ⟨0x140144, 3, 0x40, 1, 0x4, [⟨0, 20, .rw, 0x3e8⟩]⟩,
  ⟨0x140148, 3, 0x40, 1, 0x4, [⟨0, 16, .rw, 0x0⟩]⟩,
  ⟨0x14014c, 3, 0x40, 1, 0x4, [⟨0, 16, .ro, 0x0⟩, ⟨16, 16, .ro, 0x0⟩]⟩,
  ⟨0x140160, 3, 0x40, 8, 0x4, [⟨0, 6, .rw, 0x0⟩, ⟨8, 6, .rw, 0x0⟩, ⟨16, 6, .rw, 0x0⟩, ⟨24, 6, .rw, 0x0⟩]⟩,
  ⟨0x141000, 64, 0x4, 1, 0x4, [⟨0, 16, .ro, 0x0⟩, ⟨16, 12, .ro, 0x0⟩]⟩,
  ⟨0x141200, 64, 0x4, 1, 0x4, [⟨0, 14, .rw, 0x0⟩, ⟨16, 14, .rw, 0x3fff⟩, ⟨30, 1, .rw, 0x0⟩, ⟨31, 1, .rw, 0x0⟩]⟩,
  ⟨0x142000, 4, 0x10, 1, 0x4, [⟨0, 15, .rw, 0x0⟩, ⟨16, 15, .rw, 0x0⟩, ⟨31, 1, .rw, 0x0⟩]⟩,
  ⟨0x142100, 16, 0x4, 1, 0x4, [⟨0, 2, .rw, 0x0⟩, ⟨2, 1, .rw, 0x0⟩, ⟨3, 1, .rw, 0x0⟩, ⟨4, 2, .rw, 0x0⟩, ⟨6, 1, .rw, 0x0⟩, ⟨8, 5, .rw, 0x0⟩, ⟨16, 1, .ro, 0x0⟩]⟩]

/-- The registers whose keys lie in 0x150000 and up: PCIE_LINK, PCIE_BADACC, PCIE_VEC, PCIE_VECMOD. -/
def regs015 : List RegDef := [
  ⟨0x150000, 1, 0x4, 1, 0x4, [⟨0, 5, .ro, 0x0⟩, ⟨5, 3, .ro, 0x0⟩, ⟨8, 1, .ro, 0x0⟩, ⟨9, 1, .w1c, 0x0⟩, ⟨10, 2, .ro, 0x0⟩]⟩,
  ⟨0x150004, 1, 0x4, 1, 0x4, [⟨0, 24, .ro, 0x0⟩, ⟨24, 1, .ro, 0x0⟩]⟩,
  ⟨0x150100, 144, 0x4, 1, 0x4, [⟨0, 6, .rw, 0x0⟩, ⟨6, 1, .rw, 0x1⟩]⟩,
  ⟨0x150400, 2, 0x100, 64, 0x4, [⟨0, 16, .rw, 0x0⟩]⟩]

/-- The registers whose keys lie in 0x2000000 and up: WAKE, TIME_INC, TIME_SERVO, ETH_TXCTL, ETH_TXT0, ETH_TXT1, ETH_TXT2, ETH_RXSTAT, ETH_RXT0, ETH_RXT1, ETH_RXT2, NS_IN, NS_OUT, NS_STAT, NS_CTL. -/
def regs200 : List RegDef := [
  ⟨0x2000000, 1, 0x4, 1, 0x4, [⟨0, 1, .wo, 0x0⟩]⟩,
  ⟨0x2000100, 1, 0x4, 1, 0x4, [⟨0, 32, .wo, 0x0⟩]⟩,
  ⟨0x2000104, 1, 0x4, 1, 0x4, [⟨0, 1, .rw, 0x0⟩]⟩,
  ⟨0x2000140, 2, 0x20, 1, 0x4, [⟨0, 11, .rw, 0x0⟩, ⟨12, 2, .rw, 0x0⟩, ⟨14, 1, .w1c, 0x0⟩, ⟨15, 1, .wo, 0x0⟩, ⟨16, 8, .rw, 0x0⟩, ⟨24, 8, .rw, 0x0⟩]⟩,
  ⟨0x2000144, 2, 0x20, 1, 0x4, [⟨0, 32, .ro, 0x0⟩]⟩,
  ⟨0x2000148, 2, 0x20, 1, 0x4, [⟨0, 32, .ro, 0x0⟩]⟩,
  ⟨0x200014c, 2, 0x20, 1, 0x4, [⟨0, 32, .ro, 0x0⟩]⟩,
  ⟨0x2000180, 6, 0x10, 1, 0x4, [⟨0, 1, .rw, 0x0⟩, ⟨16, 11, .ro, 0x0⟩]⟩,
  ⟨0x2000184, 6, 0x10, 1, 0x4, [⟨0, 32, .ro, 0x0⟩]⟩,
  ⟨0x2000188, 6, 0x10, 1, 0x4, [⟨0, 32, .ro, 0x0⟩]⟩,
  ⟨0x200018c, 6, 0x10, 1, 0x4, [⟨0, 32, .ro, 0x0⟩]⟩,
  ⟨0x2000200, 4, 0x10, 1, 0x4, [⟨0, 32, .wo, 0x0⟩]⟩,
  ⟨0x2000204, 4, 0x10, 1, 0x4, [⟨0, 32, .ro, 0x0⟩]⟩,
  ⟨0x2000208, 4, 0x10, 1, 0x4, [⟨0, 1, .ro, 0x0⟩, ⟨1, 1, .ro, 0x0⟩, ⟨2, 1, .w1c, 0x0⟩, ⟨3, 1, .w1c, 0x0⟩, ⟨4, 4, .ro, 0x0⟩, ⟨16, 16, .ro, 0x0⟩]⟩,
  ⟨0x200020c, 4, 0x10, 1, 0x4, [⟨0, 1, .rw, 0x0⟩, ⟨1, 1, .rw, 0x0⟩, ⟨2, 1, .wo, 0x0⟩]⟩]

/-- The registers whose keys lie in 0x3000000 and up: S_IN, S_OUT, S_STAT, S_CTL, MGMT_TOKEN, MGMT_ADDR, MGMT_DATA, MGMT_MON, ER1_BASE_LO, ER1_BASE_HI, ER1_CFG, ER1_TAIL, ER1_DONE, FWS_ADDR_LO, FWS_ADDR_HI, FWS_LEN, FWS_CTL, FWS_STATUS, FWS_VER, PNL_CFG, PNL_PERIOD, PNL_STATUS. -/
def regs300 : List RegDef := [
  ⟨0x3000000, 4, 0x10, 1, 0x4, [⟨0, 32, .wo, 0x0⟩]⟩,
  ⟨0x3000004, 4, 0x10, 1, 0x4, [⟨0, 32, .ro, 0x0⟩]⟩,
  ⟨0x3000008, 4, 0x10, 1, 0x4, [⟨0, 1, .ro, 0x0⟩, ⟨1, 1, .ro, 0x0⟩, ⟨2, 1, .w1c, 0x0⟩, ⟨3, 1, .w1c, 0x0⟩, ⟨4, 4, .ro, 0x0⟩, ⟨16, 16, .ro, 0x0⟩]⟩,
  ⟨0x300000c, 4, 0x10, 1, 0x4, [⟨0, 1, .rw, 0x0⟩, ⟨1, 1, .rw, 0x0⟩, ⟨2, 1, .wo, 0x0⟩]⟩,
  ⟨0x3000100, 1, 0x4, 1, 0x4, [⟨0, 1, .wo, 0x0⟩, ⟨1, 1, .wo, 0x0⟩, ⟨2, 1, .wo, 0x0⟩, ⟨16, 16, .wo, 0x0⟩]⟩,
  ⟨0x3000104, 1, 0x4, 1, 0x4, [⟨2, 22, .rw, 0x0⟩]⟩,
  ⟨0x3000108, 1, 0x4, 1, 0x4, [⟨0, 32, .rw, 0x0⟩]⟩,
  ⟨0x3000318, 1, 0x4, 1, 0x4, [⟨0, 1, .rw, 0x0⟩]⟩,
  ⟨0x3000200, 1, 0x4, 1, 0x4, [⟨6, 26, .rw, 0x0⟩]⟩,
  ⟨0x3000204, 1, 0x4, 1, 0x4, [⟨0, 32, .rw, 0x0⟩]⟩,
  ⟨0x3000208, 1, 0x4, 1, 0x4, [⟨0, 1, .rw, 0x0⟩, ⟨1, 1, .ro, 0x0⟩, ⟨2, 5, .rw, 0x4⟩, ⟨7, 1, .w1c, 0x0⟩, ⟨8, 1, .w1c, 0x0⟩]⟩,
  ⟨0x300020c, 1, 0x4, 1, 0x4, [⟨0, 32, .rw, 0x0⟩]⟩,
  ⟨0x3000210, 1, 0x4, 1, 0x4, [⟨0, 32, .ro, 0x0⟩]⟩,
  ⟨0x3000300, 1, 0x4, 1, 0x4, [⟨6, 26, .rw, 0x0⟩]⟩,
  ⟨0x3000304, 1, 0x4, 1, 0x4, [⟨0, 32, .rw, 0x0⟩]⟩,
  ⟨0x3000308, 1, 0x4, 1, 0x4, [⟨0, 21, .rw, 0x0⟩]⟩,
  ⟨0x300030c, 1, 0x4, 1, 0x4, [⟨0, 2, .rw, 0x0⟩, ⟨2, 1, .wo, 0x0⟩]⟩,
  ⟨0x3000310, 1, 0x4, 1, 0x4, [⟨0, 3, .ro, 0x0⟩, ⟨8, 8, .ro, 0x0⟩]⟩,
  ⟨0x3000314, 1, 0x4, 1, 0x4, [⟨0, 32, .ro, 0x0⟩]⟩,
  ⟨0x3000400, 1, 0x4, 1, 0x4, [⟨0, 1, .rw, 0x0⟩, ⟨1, 1, .rw, 0x0⟩, ⟨3, 5, .rw, 0xa⟩, ⟨8, 9, .rw, 0x1e0⟩, ⟨17, 9, .rw, 0x140⟩]⟩,
  ⟨0x3000404, 1, 0x4, 1, 0x4, [⟨0, 16, .rw, 0x64⟩]⟩,
  ⟨0x3000408, 1, 0x4, 1, 0x4, [⟨0, 2, .ro, 0x0⟩, ⟨2, 1, .ro, 0x0⟩, ⟨3, 1, .w1c, 0x0⟩, ⟨16, 16, .ro, 0x0⟩]⟩]

/-- The registers whose keys lie in 0x4000000 and up: QUEUE_CFG, QUEUE_STAT, QUEUE_CNT, QUEUE_DROP, QUEUE_TEAR, QUEUE_TEARBASE0, QUEUE_TEARBASE1, QUEUE_TEARBASE2, QUEUE_TEARSEQ. -/
def regs400 : List RegDef := [
  ⟨0x4000014, 4096, 0x40, 1, 0x4, [⟨0, 1, .rw, 0x0⟩, ⟨1, 1, .rw, 0x0⟩, ⟨2, 4, .rw, 0x4⟩, ⟨8, 18, .rw, 0x400⟩]⟩,
  ⟨0x4000018, 4096, 0x40, 1, 0x4, [⟨0, 18, .ro, 0x0⟩, ⟨18, 2, .ro, 0x0⟩, ⟨20, 3, .ro, 0x0⟩, ⟨23, 3, .ro, 0x0⟩, ⟨26, 1, .w1c, 0x0⟩, ⟨27, 1, .w1c, 0x0⟩, ⟨28, 1, .w1c, 0x0⟩]⟩,
  ⟨0x400001c, 4096, 0x40, 1, 0x4, [⟨0, 32, .ro, 0x0⟩]⟩,
  ⟨0x4000020, 4096, 0x40, 1, 0x4, [⟨0, 32, .ro, 0x0⟩]⟩,
  ⟨0x4000024, 4096, 0x40, 1, 0x4, [⟨0, 16, .ro, 0x0⟩, ⟨16, 1, .ro, 0x0⟩, ⟨17, 1, .ro, 0x0⟩]⟩,
  ⟨0x4000028, 4096, 0x40, 1, 0x4, [⟨0, 32, .ro, 0x0⟩]⟩,
  ⟨0x400002c, 4096, 0x40, 1, 0x4, [⟨0, 32, .ro, 0x0⟩]⟩,
  ⟨0x4000030, 4096, 0x40, 1, 0x4, [⟨0, 32, .ro, 0x0⟩]⟩,
  ⟨0x4000034, 4096, 0x40, 1, 0x4, [⟨0, 32, .ro, 0x0⟩]⟩]

/-- The registers of the 64 KiB block that a key lies in (Tables 24-1 to 24-3); empty for an unassigned block. -/
def regsOfBlock (key : Nat) : List RegDef :=
  match key / 0x10000 with
  | 0x0 => regs000
  | 0x1 => regs001
  | 0x2 => regs002
  | 0x3 => regs003
  | 0x4 => regs004
  | 0x5 => regs005
  | 0x6 => regs006
  | 0x7 => regs007
  | 0x8 => regs008
  | 0x9 => regs009
  | 0xa => regs00A
  | 0xb => regs00B
  | 0xc => regs00C
  | 0xd => regs00D
  | 0xe => regs00E
  | 0xf => regs00F
  | 0x10 => regs010
  | 0x11 => regs011
  | 0x12 => regs012
  | 0x13 => regs013
  | 0x14 => regs014
  | 0x15 => regs015
  | 0x200 => regs200
  | 0x300 => regs300
  | b => if 0x400 ≤ b ∧ b < 0x404 then regs400 else []

namespace R

/-- The key of GLOBAL_ID. -/
@[reducible] def GLOBAL_ID : Nat := 0x0
/-- GLOBAL_ID.VENDOR, RO. -/
@[reducible] def GLOBAL_ID.VENDOR : Field := ⟨GLOBAL_ID, 0, 16⟩
/-- GLOBAL_ID.DEVICE, RO. -/
@[reducible] def GLOBAL_ID.DEVICE : Field := ⟨GLOBAL_ID, 16, 16⟩
/-- The key of GLOBAL_REV. -/
@[reducible] def GLOBAL_REV : Nat := 0x4
/-- GLOBAL_REV.REV, RO. -/
@[reducible] def GLOBAL_REV.REV : Field := ⟨GLOBAL_REV, 0, 8⟩
/-- GLOBAL_REV.MEMBER, RO. -/
@[reducible] def GLOBAL_REV.MEMBER : Field := ⟨GLOBAL_REV, 8, 8⟩
/-- GLOBAL_REV.MAP, RO. -/
@[reducible] def GLOBAL_REV.MAP : Field := ⟨GLOBAL_REV, 16, 8⟩
/-- The key of GLOBAL_STRAPS. -/
@[reducible] def GLOBAL_STRAPS : Nat := 0x8
/-- GLOBAL_STRAPS.BOOT, RO. -/
@[reducible] def GLOBAL_STRAPS.BOOT : Field := ⟨GLOBAL_STRAPS, 0, 2⟩
/-- GLOBAL_STRAPS.SLOT, RO. -/
@[reducible] def GLOBAL_STRAPS.SLOT : Field := ⟨GLOBAL_STRAPS, 2, 4⟩
/-- GLOBAL_STRAPS.REFMASTER, RO. -/
@[reducible] def GLOBAL_STRAPS.REFMASTER : Field := ⟨GLOBAL_STRAPS, 6, 1⟩
/-- GLOBAL_STRAPS.MON_EN, RO. -/
@[reducible] def GLOBAL_STRAPS.MON_EN : Field := ⟨GLOBAL_STRAPS, 7, 1⟩
/-- GLOBAL_STRAPS.PCIE_W, RO. -/
@[reducible] def GLOBAL_STRAPS.PCIE_W : Field := ⟨GLOBAL_STRAPS, 8, 2⟩
/-- GLOBAL_STRAPS.TEST_EN, RO. -/
@[reducible] def GLOBAL_STRAPS.TEST_EN : Field := ⟨GLOBAL_STRAPS, 10, 1⟩
/-- The key of GLOBAL_SCRATCH. -/
@[reducible] def GLOBAL_SCRATCH : Nat := 0xc
/-- GLOBAL_SCRATCH.DATA, RW. -/
@[reducible] def GLOBAL_SCRATCH.DATA : Field := ⟨GLOBAL_SCRATCH, 0, 32⟩
/-- The key of GLOBAL_OWNER. -/
@[reducible] def GLOBAL_OWNER : Nat := 0x10
/-- GLOBAL_OWNER.HOLDER, RO. -/
@[reducible] def GLOBAL_OWNER.HOLDER : Field := ⟨GLOBAL_OWNER, 0, 3⟩
/-- GLOBAL_OWNER.REQ, WO. -/
@[reducible] def GLOBAL_OWNER.REQ : Field := ⟨GLOBAL_OWNER, 4, 1⟩
/-- GLOBAL_OWNER.REL, WO. -/
@[reducible] def GLOBAL_OWNER.REL : Field := ⟨GLOBAL_OWNER, 5, 1⟩
/-- GLOBAL_OWNER.PEND, RO. -/
@[reducible] def GLOBAL_OWNER.PEND : Field := ⟨GLOBAL_OWNER, 8, 4⟩
/-- The key of GLOBAL_OWNVIOL. -/
@[reducible] def GLOBAL_OWNVIOL : Nat := 0x14
/-- GLOBAL_OWNVIOL.OFFSET, RO. -/
@[reducible] def GLOBAL_OWNVIOL.OFFSET : Field := ⟨GLOBAL_OWNVIOL, 0, 24⟩
/-- GLOBAL_OWNVIOL.AGENT, RO. -/
@[reducible] def GLOBAL_OWNVIOL.AGENT : Field := ⟨GLOBAL_OWNVIOL, 24, 3⟩
/-- GLOBAL_OWNVIOL.HELD_BY, RO. -/
@[reducible] def GLOBAL_OWNVIOL.HELD_BY : Field := ⟨GLOBAL_OWNVIOL, 27, 3⟩
/-- The key of GLOBAL_DIEID_LO. -/
@[reducible] def GLOBAL_DIEID_LO : Nat := 0x18
/-- GLOBAL_DIEID_LO.ID_LO, RO. -/
@[reducible] def GLOBAL_DIEID_LO.ID_LO : Field := ⟨GLOBAL_DIEID_LO, 0, 32⟩
/-- The key of GLOBAL_DIEID_HI. -/
@[reducible] def GLOBAL_DIEID_HI : Nat := 0x1c
/-- GLOBAL_DIEID_HI.ID_HI, RO. -/
@[reducible] def GLOBAL_DIEID_HI.ID_HI : Field := ⟨GLOBAL_DIEID_HI, 0, 32⟩
/-- The key of GLOBAL_PWRCTL. -/
@[reducible] def GLOBAL_PWRCTL : Nat := 0x20
/-- GLOBAL_PWRCTL.REQ, WO. -/
@[reducible] def GLOBAL_PWRCTL.REQ : Field := ⟨GLOBAL_PWRCTL, 0, 2⟩
/-- GLOBAL_PWRCTL.CANCEL, WO. -/
@[reducible] def GLOBAL_PWRCTL.CANCEL : Field := ⟨GLOBAL_PWRCTL, 2, 1⟩
/-- The key of GLOBAL_PWRPOL. -/
@[reducible] def GLOBAL_PWRPOL : Nat := 0x24
/-- GLOBAL_PWRPOL.AUTO_MODE, RW. -/
@[reducible] def GLOBAL_PWRPOL.AUTO_MODE : Field := ⟨GLOBAL_PWRPOL, 0, 2⟩
/-- GLOBAL_PWRPOL.SLEEP_DRAIN, RW. -/
@[reducible] def GLOBAL_PWRPOL.SLEEP_DRAIN : Field := ⟨GLOBAL_PWRPOL, 8, 8⟩
/-- GLOBAL_PWRPOL.AUTO_AFTER, RW. -/
@[reducible] def GLOBAL_PWRPOL.AUTO_AFTER : Field := ⟨GLOBAL_PWRPOL, 16, 16⟩
/-- The key of GLOBAL_PWRSTAT. -/
@[reducible] def GLOBAL_PWRSTAT : Nat := 0x28
/-- GLOBAL_PWRSTAT.MODE, RO. -/
@[reducible] def GLOBAL_PWRSTAT.MODE : Field := ⟨GLOBAL_PWRSTAT, 0, 2⟩
/-- GLOBAL_PWRSTAT.PEND, RO. -/
@[reducible] def GLOBAL_PWRSTAT.PEND : Field := ⟨GLOBAL_PWRSTAT, 2, 2⟩
/-- GLOBAL_PWRSTAT.HELD, RO. -/
@[reducible] def GLOBAL_PWRSTAT.HELD : Field := ⟨GLOBAL_PWRSTAT, 4, 1⟩
/-- GLOBAL_PWRSTAT.SLEEP_HELD, W1C. -/
@[reducible] def GLOBAL_PWRSTAT.SLEEP_HELD : Field := ⟨GLOBAL_PWRSTAT, 5, 1⟩
/-- GLOBAL_PWRSTAT.LAST_WAKE, RO. -/
@[reducible] def GLOBAL_PWRSTAT.LAST_WAKE : Field := ⟨GLOBAL_PWRSTAT, 8, 3⟩
/-- The key of GLOBAL_PROT. -/
@[reducible] def GLOBAL_PROT : Nat := 0x2c
/-- GLOBAL_PROT.EMERG, W1C. -/
@[reducible] def GLOBAL_PROT.EMERG : Field := ⟨GLOBAL_PROT, 0, 1⟩
/-- GLOBAL_PROT.SUPPLY, W1C. -/
@[reducible] def GLOBAL_PROT.SUPPLY : Field := ⟨GLOBAL_PROT, 1, 1⟩
/-- GLOBAL_PROT.TRIP_SEEN, RO. -/
@[reducible] def GLOBAL_PROT.TRIP_SEEN : Field := ⟨GLOBAL_PROT, 2, 1⟩
/-- GLOBAL_PROT.RAIL, RO. -/
@[reducible] def GLOBAL_PROT.RAIL : Field := ⟨GLOBAL_PROT, 8, 8⟩
/-- GLOBAL_PROT.ACTIONS, RO. -/
@[reducible] def GLOBAL_PROT.ACTIONS : Field := ⟨GLOBAL_PROT, 16, 16⟩
/-- The key of GLOBAL_RESET. -/
@[reducible] def GLOBAL_RESET : Nat := 0x30
/-- GLOBAL_RESET.FULL_RESET, WO. -/
@[reducible] def GLOBAL_RESET.FULL_RESET : Field := ⟨GLOBAL_RESET, 0, 1⟩
/-- GLOBAL_RESET.KEY, WO. -/
@[reducible] def GLOBAL_RESET.KEY : Field := ⟨GLOBAL_RESET, 16, 16⟩
/-- The key of GLOBAL_RSTCAUSE. -/
@[reducible] def GLOBAL_RSTCAUSE : Nat := 0x34
/-- GLOBAL_RSTCAUSE.CAUSE, RO. -/
@[reducible] def GLOBAL_RSTCAUSE.CAUSE : Field := ⟨GLOBAL_RSTCAUSE, 0, 2⟩
/-- GLOBAL_RSTCAUSE.AGENT, RO. -/
@[reducible] def GLOBAL_RSTCAUSE.AGENT : Field := ⟨GLOBAL_RSTCAUSE, 2, 3⟩
/-- GLOBAL_RSTCAUSE.TRIPPED, RO. -/
@[reducible] def GLOBAL_RSTCAUSE.TRIPPED : Field := ⟨GLOBAL_RSTCAUSE, 5, 1⟩
/-- GLOBAL_RSTCAUSE.COUNT, RO. -/
@[reducible] def GLOBAL_RSTCAUSE.COUNT : Field := ⟨GLOBAL_RSTCAUSE, 16, 16⟩
/-- The key of CLK_REF. -/
@[reducible] def CLK_REF : Nat := 0x10000
/-- CLK_REF.PRESENT, RO. -/
@[reducible] def CLK_REF.PRESENT : Field := ⟨CLK_REF, 0, 1⟩
/-- CLK_REF.AON_SRC, RO. -/
@[reducible] def CLK_REF.AON_SRC : Field := ⟨CLK_REF, 1, 1⟩
/-- CLK_REF.LOSSES, RO. -/
@[reducible] def CLK_REF.LOSSES : Field := ⟨CLK_REF, 16, 16⟩
/-- The key of CLK_LOCKCFG. -/
@[reducible] def CLK_LOCKCFG : Nat := 0x10004
/-- CLK_LOCKCFG.LOCK_TOL, RW. -/
@[reducible] def CLK_LOCKCFG.LOCK_TOL : Field := ⟨CLK_LOCKCFG, 0, 8⟩
/-- CLK_LOCKCFG.LOCK_TOL_LOSS, RW. -/
@[reducible] def CLK_LOCKCFG.LOCK_TOL_LOSS : Field := ⟨CLK_LOCKCFG, 8, 8⟩
/-- CLK_LOCKCFG.SSC_EN, RW. -/
@[reducible] def CLK_LOCKCFG.SSC_EN : Field := ⟨CLK_LOCKCFG, 16, 1⟩
/-- The key of CLK_PLL. -/
@[reducible] def CLK_PLL (n : Nat) : Nat := 0x10010 + 0x4 * n
/-- CLK_PLL.LOCKED, RO. -/
@[reducible] def CLK_PLL.LOCKED (n : Nat) : Field := ⟨CLK_PLL n, 0, 1⟩
/-- CLK_PLL.ON, RO. -/
@[reducible] def CLK_PLL.ON (n : Nat) : Field := ⟨CLK_PLL n, 1, 1⟩
/-- CLK_PLL.DIFF, RO. -/
@[reducible] def CLK_PLL.DIFF (n : Nat) : Field := ⟨CLK_PLL n, 2, 8⟩
/-- CLK_PLL.LOSSES, RO. -/
@[reducible] def CLK_PLL.LOSSES (n : Nat) : Field := ⟨CLK_PLL n, 16, 16⟩
/-- The key of CLK_FS. -/
@[reducible] def CLK_FS (n : Nat) : Nat := 0x10030 + 0x4 * n
/-- CLK_FS.FS, RO. -/
@[reducible] def CLK_FS.FS (n : Nat) : Field := ⟨CLK_FS n, 0, 15⟩
/-- CLK_FS.FRAC, RO. -/
@[reducible] def CLK_FS.FRAC (n : Nat) : Field := ⟨CLK_FS n, 15, 1⟩
/-- The key of CLKOUT_CFG. -/
@[reducible] def CLKOUT_CFG (n : Nat) : Nat := 0x10100 + 0x10 * n
/-- CLKOUT_CFG.EN, RW. -/
@[reducible] def CLKOUT_CFG.EN (n : Nat) : Field := ⟨CLKOUT_CFG n, 0, 1⟩
/-- CLKOUT_CFG.FMT, RW. -/
@[reducible] def CLKOUT_CFG.FMT (n : Nat) : Field := ⟨CLKOUT_CFG n, 1, 2⟩
/-- CLKOUT_CFG.LEVEL, RW. -/
@[reducible] def CLKOUT_CFG.LEVEL (n : Nat) : Field := ⟨CLKOUT_CFG n, 3, 3⟩
/-- CLKOUT_CFG.SRC, RW. -/
@[reducible] def CLKOUT_CFG.SRC (n : Nat) : Field := ⟨CLKOUT_CFG n, 6, 3⟩
/-- CLKOUT_CFG.DIV, RW. -/
@[reducible] def CLKOUT_CFG.DIV (n : Nat) : Field := ⟨CLKOUT_CFG n, 10, 10⟩
/-- CLKOUT_CFG.CFG_ERR, W1C. -/
@[reducible] def CLKOUT_CFG.CFG_ERR (n : Nat) : Field := ⟨CLKOUT_CFG n, 20, 1⟩
/-- The key of SWS_CTL. -/
@[reducible] def SWS_CTL : Nat := 0x10200
/-- SWS_CTL.EN, RW. -/
@[reducible] def SWS_CTL.EN : Field := ⟨SWS_CTL, 0, 1⟩
/-- SWS_CTL.RUN, WO. -/
@[reducible] def SWS_CTL.RUN : Field := ⟨SWS_CTL, 1, 1⟩
/-- SWS_CTL.STOP, WO. -/
@[reducible] def SWS_CTL.STOP : Field := ⟨SWS_CTL, 2, 1⟩
/-- SWS_CTL.ADV, RW. -/
@[reducible] def SWS_CTL.ADV : Field := ⟨SWS_CTL, 3, 2⟩
/-- SWS_CTL.DDC, RW. -/
@[reducible] def SWS_CTL.DDC : Field := ⟨SWS_CTL, 5, 3⟩
/-- SWS_CTL.TG, RW. -/
@[reducible] def SWS_CTL.TG : Field := ⟨SWS_CTL, 8, 5⟩
/-- SWS_CTL.LOOP, RW. -/
@[reducible] def SWS_CTL.LOOP : Field := ⟨SWS_CTL, 13, 1⟩
/-- SWS_CTL.LAST, RW. -/
@[reducible] def SWS_CTL.LAST : Field := ⟨SWS_CTL, 14, 6⟩
/-- SWS_CTL.MUTE_SETTLE, RW. -/
@[reducible] def SWS_CTL.MUTE_SETTLE : Field := ⟨SWS_CTL, 20, 1⟩
/-- The key of SWS_LEVEL. -/
@[reducible] def SWS_LEVEL : Nat := 0x10204
/-- SWS_LEVEL.LEVEL, RW. -/
@[reducible] def SWS_LEVEL.LEVEL : Field := ⟨SWS_LEVEL, 0, 5⟩
/-- SWS_LEVEL.SWS_DLY, RW. -/
@[reducible] def SWS_LEVEL.SWS_DLY : Field := ⟨SWS_LEVEL, 16, 16⟩
/-- The key of SWS_STATUS. -/
@[reducible] def SWS_STATUS : Nat := 0x10208
/-- SWS_STATUS.RUNNING, RO. -/
@[reducible] def SWS_STATUS.RUNNING : Field := ⟨SWS_STATUS, 0, 1⟩
/-- SWS_STATUS.SETTLING, RO. -/
@[reducible] def SWS_STATUS.SETTLING : Field := ⟨SWS_STATUS, 1, 1⟩
/-- SWS_STATUS.SEG, RO. -/
@[reducible] def SWS_STATUS.SEG : Field := ⟨SWS_STATUS, 2, 6⟩
/-- SWS_STATUS.CFG_ERR, W1C. -/
@[reducible] def SWS_STATUS.CFG_ERR : Field := ⟨SWS_STATUS, 8, 1⟩
/-- SWS_STATUS.STEPS, RO. -/
@[reducible] def SWS_STATUS.STEPS : Field := ⟨SWS_STATUS, 16, 16⟩
/-- The key of SWS_F_LO. -/
@[reducible] def SWS_F_LO (n : Nat) : Nat := 0x11000 + 0x10 * n
/-- SWS_F_LO.F_LO, RW. -/
@[reducible] def SWS_F_LO.F_LO (n : Nat) : Field := ⟨SWS_F_LO n, 0, 32⟩
/-- The key of SWS_F_HI. -/
@[reducible] def SWS_F_HI (n : Nat) : Nat := 0x11004 + 0x10 * n
/-- SWS_F_HI.F_HI, RW. -/
@[reducible] def SWS_F_HI.F_HI (n : Nat) : Field := ⟨SWS_F_HI n, 0, 3⟩
/-- The key of SWS_SLOPE. -/
@[reducible] def SWS_SLOPE (n : Nat) : Nat := 0x11008 + 0x10 * n
/-- SWS_SLOPE.SLOPE, RW. -/
@[reducible] def SWS_SLOPE.SLOPE (n : Nat) : Field := ⟨SWS_SLOPE n, 0, 32⟩
/-- The key of SWS_DUR. -/
@[reducible] def SWS_DUR (n : Nat) : Nat := 0x1100c + 0x10 * n
/-- SWS_DUR.DUR, RW. -/
@[reducible] def SWS_DUR.DUR (n : Nat) : Field := ⟨SWS_DUR n, 0, 24⟩
/-- The key of CONV_REFBUF. -/
@[reducible] def CONV_REFBUF : Nat := 0x20000
/-- CONV_REFBUF.ADC_REF_EN, RW. -/
@[reducible] def CONV_REFBUF.ADC_REF_EN : Field := ⟨CONV_REFBUF, 0, 4⟩
/-- CONV_REFBUF.DAC_REF_EN, RW. -/
@[reducible] def CONV_REFBUF.DAC_REF_EN : Field := ⟨CONV_REFBUF, 8, 4⟩
/-- The key of CONV_REFSTAT. -/
@[reducible] def CONV_REFSTAT : Nat := 0x20004
/-- CONV_REFSTAT.ADC_REF_RDY, RO. -/
@[reducible] def CONV_REFSTAT.ADC_REF_RDY : Field := ⟨CONV_REFSTAT, 0, 4⟩
/-- CONV_REFSTAT.DAC_REF_RDY, RO. -/
@[reducible] def CONV_REFSTAT.DAC_REF_RDY : Field := ⟨CONV_REFSTAT, 8, 4⟩
/-- The key of CONV_SYNC. -/
@[reducible] def CONV_SYNC : Nat := 0x20010
/-- CONV_SYNC.ARM, RW. -/
@[reducible] def CONV_SYNC.ARM : Field := ⟨CONV_SYNC, 0, 1⟩
/-- CONV_SYNC.SRC, RW. -/
@[reducible] def CONV_SYNC.SRC : Field := ⟨CONV_SYNC, 1, 1⟩
/-- CONV_SYNC.CMD, WO. -/
@[reducible] def CONV_SYNC.CMD : Field := ⟨CONV_SYNC, 2, 1⟩
/-- CONV_SYNC.DONE, W1C. -/
@[reducible] def CONV_SYNC.DONE : Field := ⟨CONV_SYNC, 4, 1⟩
/-- CONV_SYNC.IGNORED, W1C. -/
@[reducible] def CONV_SYNC.IGNORED : Field := ⟨CONV_SYNC, 5, 1⟩
/-- The key of CONV_SYNC_T0. -/
@[reducible] def CONV_SYNC_T0 : Nat := 0x20014
/-- CONV_SYNC_T0.T_LO, RO. -/
@[reducible] def CONV_SYNC_T0.T_LO : Field := ⟨CONV_SYNC_T0, 0, 32⟩
/-- The key of CONV_SYNC_T1. -/
@[reducible] def CONV_SYNC_T1 : Nat := 0x20018
/-- CONV_SYNC_T1.T_MID, RO. -/
@[reducible] def CONV_SYNC_T1.T_MID : Field := ⟨CONV_SYNC_T1, 0, 32⟩
/-- The key of CONV_SYNC_T2. -/
@[reducible] def CONV_SYNC_T2 : Nat := 0x2001c
/-- CONV_SYNC_T2.T_HI, RO. -/
@[reducible] def CONV_SYNC_T2.T_HI : Field := ⟨CONV_SYNC_T2, 0, 32⟩
/-- The key of ADC_CTL. -/
@[reducible] def ADC_CTL (n : Nat) : Nat := 0x20100 + 0x40 * n
/-- ADC_CTL.ON, RW. -/
@[reducible] def ADC_CTL.ON (n : Nat) : Field := ⟨ADC_CTL n, 0, 1⟩
/-- ADC_CTL.FS_ADJ, RW. -/
@[reducible] def ADC_CTL.FS_ADJ (n : Nat) : Field := ⟨ADC_CTL n, 2, 6⟩
/-- ADC_CTL.OVR_EV_EN, RW. -/
@[reducible] def ADC_CTL.OVR_EV_EN (n : Nat) : Field := ⟨ADC_CTL n, 8, 1⟩
/-- The key of ADC_START. -/
@[reducible] def ADC_START (n : Nat) : Nat := 0x20104 + 0x40 * n
/-- ADC_START.SRC, RW. -/
@[reducible] def ADC_START.SRC (n : Nat) : Field := ⟨ADC_START n, 0, 2⟩
/-- ADC_START.SEL, RW. -/
@[reducible] def ADC_START.SEL (n : Nat) : Field := ⟨ADC_START n, 2, 5⟩
/-- ADC_START.EDGE, RW. -/
@[reducible] def ADC_START.EDGE (n : Nat) : Field := ⟨ADC_START n, 7, 1⟩
/-- ADC_START.DELAY32, RW. -/
@[reducible] def ADC_START.DELAY32 (n : Nat) : Field := ⟨ADC_START n, 8, 1⟩
/-- ADC_START.ARM, WO. -/
@[reducible] def ADC_START.ARM (n : Nat) : Field := ⟨ADC_START n, 16, 1⟩
/-- ADC_START.DISARM, WO. -/
@[reducible] def ADC_START.DISARM (n : Nat) : Field := ⟨ADC_START n, 17, 1⟩
/-- The key of ADC_DELAY. -/
@[reducible] def ADC_DELAY (n : Nat) : Nat := 0x20108 + 0x40 * n
/-- ADC_DELAY.DELAY, RW. -/
@[reducible] def ADC_DELAY.DELAY (n : Nat) : Field := ⟨ADC_DELAY n, 0, 32⟩
/-- The key of ADC_OVR. -/
@[reducible] def ADC_OVR (n : Nat) : Nat := 0x2010c + 0x40 * n
/-- ADC_OVR.THRESH, RW. -/
@[reducible] def ADC_OVR.THRESH (n : Nat) : Field := ⟨ADC_OVR n, 0, 11⟩
/-- ADC_OVR.HOLD, RW. -/
@[reducible] def ADC_OVR.HOLD (n : Nat) : Field := ⟨ADC_OVR n, 16, 8⟩
/-- The key of ADC_STATUS. -/
@[reducible] def ADC_STATUS (n : Nat) : Nat := 0x20110 + 0x40 * n
/-- ADC_STATUS.STATE, RO. -/
@[reducible] def ADC_STATUS.STATE (n : Nat) : Field := ⟨ADC_STATUS n, 0, 3⟩
/-- ADC_STATUS.LAST, RO. -/
@[reducible] def ADC_STATUS.LAST (n : Nat) : Field := ⟨ADC_STATUS n, 4, 3⟩
/-- ADC_STATUS.START_ERR, RO. -/
@[reducible] def ADC_STATUS.START_ERR (n : Nat) : Field := ⟨ADC_STATUS n, 8, 3⟩
/-- ADC_STATUS.OVR_SEEN, W1C. -/
@[reducible] def ADC_STATUS.OVR_SEEN (n : Nat) : Field := ⟨ADC_STATUS n, 12, 1⟩
/-- ADC_STATUS.CNT_VALID, RO. -/
@[reducible] def ADC_STATUS.CNT_VALID (n : Nat) : Field := ⟨ADC_STATUS n, 13, 1⟩
/-- ADC_STATUS.PD_PENDING, RO. -/
@[reducible] def ADC_STATUS.PD_PENDING (n : Nat) : Field := ⟨ADC_STATUS n, 14, 1⟩
/-- The key of ADC_OVRCNT. -/
@[reducible] def ADC_OVRCNT (n : Nat) : Nat := 0x20114 + 0x40 * n
/-- ADC_OVRCNT.COUNT, RO. -/
@[reducible] def ADC_OVRCNT.COUNT (n : Nat) : Field := ⟨ADC_OVRCNT n, 0, 32⟩
/-- The key of ADC_SCNT_LO. -/
@[reducible] def ADC_SCNT_LO (n : Nat) : Nat := 0x20118 + 0x40 * n
/-- ADC_SCNT_LO.SCNT_LO, RO. -/
@[reducible] def ADC_SCNT_LO.SCNT_LO (n : Nat) : Field := ⟨ADC_SCNT_LO n, 0, 32⟩
/-- The key of ADC_SCNT_HI. -/
@[reducible] def ADC_SCNT_HI (n : Nat) : Nat := 0x2011c + 0x40 * n
/-- ADC_SCNT_HI.SCNT_HI, RO. -/
@[reducible] def ADC_SCNT_HI.SCNT_HI (n : Nat) : Field := ⟨ADC_SCNT_HI n, 0, 32⟩
/-- The key of ADC_FIRST_LO. -/
@[reducible] def ADC_FIRST_LO (n : Nat) : Nat := 0x20120 + 0x40 * n
/-- ADC_FIRST_LO.FIRST_LO, RO. -/
@[reducible] def ADC_FIRST_LO.FIRST_LO (n : Nat) : Field := ⟨ADC_FIRST_LO n, 0, 32⟩
/-- The key of ADC_FIRST_HI. -/
@[reducible] def ADC_FIRST_HI (n : Nat) : Nat := 0x20124 + 0x40 * n
/-- ADC_FIRST_HI.FIRST_HI, RO. -/
@[reducible] def ADC_FIRST_HI.FIRST_HI (n : Nat) : Field := ⟨ADC_FIRST_HI n, 0, 32⟩
/-- The key of ADC_SLICEMAP. -/
@[reducible] def ADC_SLICEMAP (n : Nat) : Nat := 0x20128 + 0x40 * n
/-- ADC_SLICEMAP.OUT_POS, RO. -/
@[reducible] def ADC_SLICEMAP.OUT_POS (n : Nat) : Field := ⟨ADC_SLICEMAP n, 0, 5⟩
/-- ADC_SLICEMAP.PERM_POS, RO. -/
@[reducible] def ADC_SLICEMAP.PERM_POS (n : Nat) : Field := ⟨ADC_SLICEMAP n, 8, 5⟩
/-- ADC_SLICEMAP.DEGRADED, RO. -/
@[reducible] def ADC_SLICEMAP.DEGRADED (n : Nat) : Field := ⟨ADC_SLICEMAP n, 16, 1⟩
/-- The key of DAC_CTL. -/
@[reducible] def DAC_CTL (n : Nat) : Nat := 0x20400 + 0x40 * n
/-- DAC_CTL.ON, RW. -/
@[reducible] def DAC_CTL.ON (n : Nat) : Field := ⟨DAC_CTL n, 0, 1⟩
/-- DAC_CTL.MODE, RW. -/
@[reducible] def DAC_CTL.MODE (n : Nat) : Field := ⟨DAC_CTL n, 1, 1⟩
/-- DAC_CTL.MUTE, RW. -/
@[reducible] def DAC_CTL.MUTE (n : Nat) : Field := ⟨DAC_CTL n, 2, 1⟩
/-- DAC_CTL.FS_ATTEN, RW. -/
@[reducible] def DAC_CTL.FS_ATTEN (n : Nat) : Field := ⟨DAC_CTL n, 4, 5⟩
/-- The key of DAC_STATUS. -/
@[reducible] def DAC_STATUS (n : Nat) : Nat := 0x20404 + 0x40 * n
/-- DAC_STATUS.STATE, RO. -/
@[reducible] def DAC_STATUS.STATE (n : Nat) : Field := ⟨DAC_STATUS n, 0, 2⟩
/-- DAC_STATUS.PROT_MUTE, RO. -/
@[reducible] def DAC_STATUS.PROT_MUTE (n : Nat) : Field := ⟨DAC_STATUS n, 2, 1⟩
/-- DAC_STATUS.IDLE_OUT, RO. -/
@[reducible] def DAC_STATUS.IDLE_OUT (n : Nat) : Field := ⟨DAC_STATUS n, 3, 1⟩
/-- The key of CAL_CTL. -/
@[reducible] def CAL_CTL : Nat := 0x30000
/-- CAL_CTL.FG_START, WO. -/
@[reducible] def CAL_CTL.FG_START : Field := ⟨CAL_CTL, 0, 4⟩
/-- CAL_CTL.BG_EN, RW. -/
@[reducible] def CAL_CTL.BG_EN : Field := ⟨CAL_CTL, 8, 4⟩
/-- CAL_CTL.AUTO_FG, RW. -/
@[reducible] def CAL_CTL.AUTO_FG : Field := ⟨CAL_CTL, 12, 4⟩
/-- CAL_CTL.SAVE, WO. -/
@[reducible] def CAL_CTL.SAVE : Field := ⟨CAL_CTL, 16, 1⟩
/-- The key of CAL_CFG. -/
@[reducible] def CAL_CFG : Nat := 0x30004
/-- CAL_CFG.STEP_GAP, RW. -/
@[reducible] def CAL_CFG.STEP_GAP : Field := ⟨CAL_CFG, 0, 16⟩
/-- CAL_CFG.TEMP_HYST, RW. -/
@[reducible] def CAL_CFG.TEMP_HYST : Field := ⟨CAL_CFG, 16, 4⟩
/-- The key of CAL_TRIM_SEL. -/
@[reducible] def CAL_TRIM_SEL : Nat := 0x30010
/-- CAL_TRIM_SEL.ADC, RW. -/
@[reducible] def CAL_TRIM_SEL.ADC : Field := ⟨CAL_TRIM_SEL, 0, 2⟩
/-- CAL_TRIM_SEL.SLICE, RW. -/
@[reducible] def CAL_TRIM_SEL.SLICE : Field := ⟨CAL_TRIM_SEL, 2, 5⟩
/-- CAL_TRIM_SEL.TRIM, RW. -/
@[reducible] def CAL_TRIM_SEL.TRIM : Field := ⟨CAL_TRIM_SEL, 7, 5⟩
/-- CAL_TRIM_SEL.WHICH, RW. -/
@[reducible] def CAL_TRIM_SEL.WHICH : Field := ⟨CAL_TRIM_SEL, 12, 1⟩
/-- The key of CAL_TRIM_DATA. -/
@[reducible] def CAL_TRIM_DATA : Nat := 0x30014
/-- CAL_TRIM_DATA.VALUE, RO. -/
@[reducible] def CAL_TRIM_DATA.VALUE : Field := ⟨CAL_TRIM_DATA, 0, 12⟩
/-- The key of CAL_STATUS. -/
@[reducible] def CAL_STATUS (n : Nat) : Nat := 0x30100 + 0x40 * n
/-- CAL_STATUS.FG_STATE, RO. -/
@[reducible] def CAL_STATUS.FG_STATE (n : Nat) : Field := ⟨CAL_STATUS n, 0, 3⟩
/-- CAL_STATUS.READY, RO. -/
@[reducible] def CAL_STATUS.READY (n : Nat) : Field := ⟨CAL_STATUS n, 3, 1⟩
/-- CAL_STATUS.BG_STATE, RO. -/
@[reducible] def CAL_STATUS.BG_STATE (n : Nat) : Field := ⟨CAL_STATUS n, 4, 2⟩
/-- CAL_STATUS.CAL_ERR, W1C. -/
@[reducible] def CAL_STATUS.CAL_ERR (n : Nat) : Field := ⟨CAL_STATUS n, 6, 1⟩
/-- CAL_STATUS.SAVE_BUSY, RO. -/
@[reducible] def CAL_STATUS.SAVE_BUSY (n : Nat) : Field := ⟨CAL_STATUS n, 7, 1⟩
/-- CAL_STATUS.SETS_VALID, RO. -/
@[reducible] def CAL_STATUS.SETS_VALID (n : Nat) : Field := ⟨CAL_STATUS n, 8, 8⟩
/-- CAL_STATUS.DWELL, RO. -/
@[reducible] def CAL_STATUS.DWELL (n : Nat) : Field := ⟨CAL_STATUS n, 16, 5⟩
/-- The key of CAL_TEMP. -/
@[reducible] def CAL_TEMP (n : Nat) : Nat := 0x30104 + 0x40 * n
/-- CAL_TEMP.TEMP, RO. -/
@[reducible] def CAL_TEMP.TEMP (n : Nat) : Field := ⟨CAL_TEMP n, 0, 12⟩
/-- The key of CAL_ROT. -/
@[reducible] def CAL_ROT (n : Nat) : Nat := 0x30108 + 0x40 * n
/-- CAL_ROT.ROT, RO. -/
@[reducible] def CAL_ROT.ROT (n : Nat) : Field := ⟨CAL_ROT n, 0, 32⟩
/-- The key of CAL_REJECTS. -/
@[reducible] def CAL_REJECTS (n : Nat) : Nat := 0x3010c + 0x40 * n
/-- CAL_REJECTS.REJ, RO. -/
@[reducible] def CAL_REJECTS.REJ (n : Nat) : Field := ⟨CAL_REJECTS n, 0, 32⟩
/-- The key of CAL_SETT. -/
@[reducible] def CAL_SETT (n m : Nat) : Nat := 0x30200 + 0x40 * n + 0x4 * m
/-- CAL_SETT.TEMP, RO. -/
@[reducible] def CAL_SETT.TEMP (n m : Nat) : Field := ⟨CAL_SETT n m, 0, 12⟩
/-- CAL_SETT.VALID, RO. -/
@[reducible] def CAL_SETT.VALID (n m : Nat) : Field := ⟨CAL_SETT n m, 15, 1⟩
/-- CAL_SETT.FS, RO. -/
@[reducible] def CAL_SETT.FS (n m : Nat) : Field := ⟨CAL_SETT n m, 16, 15⟩
/-- The key of HK_THERM. -/
@[reducible] def HK_THERM : Nat := 0x140010
/-- HK_THERM.THERM_WARN, RW. -/
@[reducible] def HK_THERM.THERM_WARN : Field := ⟨HK_THERM, 0, 12⟩
/-- HK_THERM.THERM_CRIT, RW. -/
@[reducible] def HK_THERM.THERM_CRIT : Field := ⟨HK_THERM, 16, 12⟩
/-- The key of HK_SEQ_CTL. -/
@[reducible] def HK_SEQ_CTL (n : Nat) : Nat := 0x140140 + 0x40 * n
/-- HK_SEQ_CTL.SRC, RW. -/
@[reducible] def HK_SEQ_CTL.SRC (n : Nat) : Field := ⟨HK_SEQ_CTL n, 0, 2⟩
/-- HK_SEQ_CTL.PWM, RW. -/
@[reducible] def HK_SEQ_CTL.PWM (n : Nat) : Field := ⟨HK_SEQ_CTL n, 2, 2⟩
/-- HK_SEQ_CTL.EDGE, RW. -/
@[reducible] def HK_SEQ_CTL.EDGE (n : Nat) : Field := ⟨HK_SEQ_CTL n, 4, 1⟩
/-- HK_SEQ_CTL.LEN, RW. -/
@[reducible] def HK_SEQ_CTL.LEN (n : Nat) : Field := ⟨HK_SEQ_CTL n, 8, 6⟩
/-- HK_SEQ_CTL.GO, WO. -/
@[reducible] def HK_SEQ_CTL.GO (n : Nat) : Field := ⟨HK_SEQ_CTL n, 14, 1⟩
/-- The key of HK_SEQ_TMR. -/
@[reducible] def HK_SEQ_TMR (n : Nat) : Nat := 0x140144 + 0x40 * n
/-- HK_SEQ_TMR.PERIOD, RW. -/
@[reducible] def HK_SEQ_TMR.PERIOD (n : Nat) : Field := ⟨HK_SEQ_TMR n, 0, 20⟩
/-- The key of HK_SEQ_DLY. -/
@[reducible] def HK_SEQ_DLY (n : Nat) : Nat := 0x140148 + 0x40 * n
/-- HK_SEQ_DLY.DELAY, RW. -/
@[reducible] def HK_SEQ_DLY.DELAY (n : Nat) : Field := ⟨HK_SEQ_DLY n, 0, 16⟩
/-- The key of HK_SEQ_STAT. -/
@[reducible] def HK_SEQ_STAT (n : Nat) : Nat := 0x14014c + 0x40 * n
/-- HK_SEQ_STAT.OVERRUN, RO. -/
@[reducible] def HK_SEQ_STAT.OVERRUN (n : Nat) : Field := ⟨HK_SEQ_STAT n, 0, 16⟩
/-- HK_SEQ_STAT.DONE, RO. -/
@[reducible] def HK_SEQ_STAT.DONE (n : Nat) : Field := ⟨HK_SEQ_STAT n, 16, 16⟩
/-- The key of HK_SEQ_LIST. -/
@[reducible] def HK_SEQ_LIST (n m : Nat) : Nat := 0x140160 + 0x40 * n + 0x4 * m
/-- HK_SEQ_LIST.CH, RW. -/
@[reducible] def HK_SEQ_LIST.CH (n m : Nat) : Field := ⟨HK_SEQ_LIST n m, 0, 32⟩
/-- The key of HK_RESULT. -/
@[reducible] def HK_RESULT (n : Nat) : Nat := 0x141000 + 0x4 * n
/-- HK_RESULT.VALUE, RO. -/
@[reducible] def HK_RESULT.VALUE (n : Nat) : Field := ⟨HK_RESULT n, 0, 16⟩
/-- HK_RESULT.RAW, RO. -/
@[reducible] def HK_RESULT.RAW (n : Nat) : Field := ⟨HK_RESULT n, 16, 12⟩
/-- The key of HK_LIMIT. -/
@[reducible] def HK_LIMIT (n : Nat) : Nat := 0x141200 + 0x4 * n
/-- HK_LIMIT.LO, RW. -/
@[reducible] def HK_LIMIT.LO (n : Nat) : Field := ⟨HK_LIMIT n, 0, 14⟩
/-- HK_LIMIT.HI, RW. -/
@[reducible] def HK_LIMIT.HI (n : Nat) : Field := ⟨HK_LIMIT n, 16, 14⟩
/-- HK_LIMIT.PROT, RW. -/
@[reducible] def HK_LIMIT.PROT (n : Nat) : Field := ⟨HK_LIMIT n, 30, 1⟩
/-- HK_LIMIT.LEN, RW. -/
@[reducible] def HK_LIMIT.LEN (n : Nat) : Field := ⟨HK_LIMIT n, 31, 1⟩
/-- The key of HK_PWM. -/
@[reducible] def HK_PWM (n : Nat) : Nat := 0x142000 + 0x10 * n
/-- HK_PWM.PERIOD, RW. -/
@[reducible] def HK_PWM.PERIOD (n : Nat) : Field := ⟨HK_PWM n, 0, 15⟩
/-- HK_PWM.HIGH, RW. -/
@[reducible] def HK_PWM.HIGH (n : Nat) : Field := ⟨HK_PWM n, 16, 15⟩
/-- HK_PWM.EN, RW. -/
@[reducible] def HK_PWM.EN (n : Nat) : Field := ⟨HK_PWM n, 31, 1⟩
/-- The key of GPIO_CFG. -/
@[reducible] def GPIO_CFG (n : Nat) : Nat := 0x142100 + 0x4 * n
/-- GPIO_CFG.FN, RW. -/
@[reducible] def GPIO_CFG.FN (n : Nat) : Field := ⟨GPIO_CFG n, 0, 2⟩
/-- GPIO_CFG.DIR, RW. -/
@[reducible] def GPIO_CFG.DIR (n : Nat) : Field := ⟨GPIO_CFG n, 2, 1⟩
/-- GPIO_CFG.OUT, RW. -/
@[reducible] def GPIO_CFG.OUT (n : Nat) : Field := ⟨GPIO_CFG n, 3, 1⟩
/-- GPIO_CFG.SLEW, RW. -/
@[reducible] def GPIO_CFG.SLEW (n : Nat) : Field := ⟨GPIO_CFG n, 4, 2⟩
/-- GPIO_CFG.PULL, RW. -/
@[reducible] def GPIO_CFG.PULL (n : Nat) : Field := ⟨GPIO_CFG n, 6, 1⟩
/-- GPIO_CFG.SEL, RW. -/
@[reducible] def GPIO_CFG.SEL (n : Nat) : Field := ⟨GPIO_CFG n, 8, 5⟩
/-- GPIO_CFG.IN, RO. -/
@[reducible] def GPIO_CFG.IN (n : Nat) : Field := ⟨GPIO_CFG n, 16, 1⟩
/-- The key of DDC_CTL. -/
@[reducible] def DDC_CTL (n : Nat) : Nat := 0x40000 + 0x100 * n
/-- DDC_CTL.EN, RW. -/
@[reducible] def DDC_CTL.EN (n : Nat) : Field := ⟨DDC_CTL n, 0, 1⟩
/-- DDC_CTL.QS, RW. -/
@[reducible] def DDC_CTL.QS (n : Nat) : Field := ⟨DDC_CTL n, 1, 1⟩
/-- DDC_CTL.K, RW. -/
@[reducible] def DDC_CTL.K (n : Nat) : Field := ⟨DDC_CTL n, 4, 5⟩
/-- DDC_CTL.PMODE, RW. -/
@[reducible] def DDC_CTL.PMODE (n : Nat) : Field := ⟨DDC_CTL n, 9, 1⟩
/-- DDC_CTL.BLANK, RW. -/
@[reducible] def DDC_CTL.BLANK (n : Nat) : Field := ⟨DDC_CTL n, 10, 1⟩
/-- DDC_CTL.LIST_EN, RW. -/
@[reducible] def DDC_CTL.LIST_EN (n : Nat) : Field := ⟨DDC_CTL n, 11, 1⟩
/-- DDC_CTL.RAWFMT, RW. -/
@[reducible] def DDC_CTL.RAWFMT (n : Nat) : Field := ⟨DDC_CTL n, 12, 2⟩
/-- DDC_CTL.SAT_EV_EN, RW. -/
@[reducible] def DDC_CTL.SAT_EV_EN (n : Nat) : Field := ⟨DDC_CTL n, 16, 1⟩
/-- The key of DDC_FREQ_LO. -/
@[reducible] def DDC_FREQ_LO (n : Nat) : Nat := 0x40004 + 0x100 * n
/-- DDC_FREQ_LO.FREQ_LO, RW. -/
@[reducible] def DDC_FREQ_LO.FREQ_LO (n : Nat) : Field := ⟨DDC_FREQ_LO n, 0, 32⟩
/-- The key of DDC_FREQ_HI. -/
@[reducible] def DDC_FREQ_HI (n : Nat) : Nat := 0x40008 + 0x100 * n
/-- DDC_FREQ_HI.FREQ_HI, RW. -/
@[reducible] def DDC_FREQ_HI.FREQ_HI (n : Nat) : Field := ⟨DDC_FREQ_HI n, 0, 16⟩
/-- The key of DDC_PHASE. -/
@[reducible] def DDC_PHASE (n : Nat) : Nat := 0x4000c + 0x100 * n
/-- DDC_PHASE.PHASE, RW. -/
@[reducible] def DDC_PHASE.PHASE (n : Nat) : Field := ⟨DDC_PHASE n, 0, 24⟩
/-- The key of DDC_RETUNE. -/
@[reducible] def DDC_RETUNE (n : Nat) : Nat := 0x40010 + 0x100 * n
/-- DDC_RETUNE.GO, WO. -/
@[reducible] def DDC_RETUNE.GO (n : Nat) : Field := ⟨DDC_RETUNE n, 0, 1⟩
/-- DDC_RETUNE.CANCEL, WO. -/
@[reducible] def DDC_RETUNE.CANCEL (n : Nat) : Field := ⟨DDC_RETUNE n, 1, 1⟩
/-- The key of DDC_STATUS. -/
@[reducible] def DDC_STATUS (n : Nat) : Nat := 0x40014 + 0x100 * n
/-- DDC_STATUS.ACTIVE, RO. -/
@[reducible] def DDC_STATUS.ACTIVE (n : Nat) : Field := ⟨DDC_STATUS n, 0, 1⟩
/-- DDC_STATUS.RT_PEND, RO. -/
@[reducible] def DDC_STATUS.RT_PEND (n : Nat) : Field := ⟨DDC_STATUS n, 1, 1⟩
/-- DDC_STATUS.SETTLING, RO. -/
@[reducible] def DDC_STATUS.SETTLING (n : Nat) : Field := ⟨DDC_STATUS n, 2, 1⟩
/-- DDC_STATUS.CFG_ERR, W1C. -/
@[reducible] def DDC_STATUS.CFG_ERR (n : Nat) : Field := ⟨DDC_STATUS n, 3, 1⟩
/-- DDC_STATUS.SAT_SEEN, W1C. -/
@[reducible] def DDC_STATUS.SAT_SEEN (n : Nat) : Field := ⟨DDC_STATUS n, 4, 1⟩
/-- DDC_STATUS.LIST_RUN, RO. -/
@[reducible] def DDC_STATUS.LIST_RUN (n : Nat) : Field := ⟨DDC_STATUS n, 5, 1⟩
/-- DDC_STATUS.LIST_POS, RO. -/
@[reducible] def DDC_STATUS.LIST_POS (n : Nat) : Field := ⟨DDC_STATUS n, 6, 6⟩
/-- DDC_STATUS.RT_COUNT, RO. -/
@[reducible] def DDC_STATUS.RT_COUNT (n : Nat) : Field := ⟨DDC_STATUS n, 16, 16⟩
/-- The key of DDC_SATCNT. -/
@[reducible] def DDC_SATCNT (n : Nat) : Nat := 0x40018 + 0x100 * n
/-- DDC_SATCNT.COUNT, RO. -/
@[reducible] def DDC_SATCNT.COUNT (n : Nat) : Field := ⟨DDC_SATCNT n, 0, 32⟩
/-- The key of DDC_LISTCFG. -/
@[reducible] def DDC_LISTCFG (n : Nat) : Nat := 0x4001c + 0x100 * n
/-- DDC_LISTCFG.LAST, RW. -/
@[reducible] def DDC_LISTCFG.LAST (n : Nat) : Field := ⟨DDC_LISTCFG n, 0, 6⟩
/-- DDC_LISTCFG.LOOP, RW. -/
@[reducible] def DDC_LISTCFG.LOOP (n : Nat) : Field := ⟨DDC_LISTCFG n, 6, 1⟩
/-- DDC_LISTCFG.ADV, RW. -/
@[reducible] def DDC_LISTCFG.ADV (n : Nat) : Field := ⟨DDC_LISTCFG n, 7, 1⟩
/-- DDC_LISTCFG.TG, RW. -/
@[reducible] def DDC_LISTCFG.TG (n : Nat) : Field := ⟨DDC_LISTCFG n, 8, 5⟩
/-- DDC_LISTCFG.DWELL, RW. -/
@[reducible] def DDC_LISTCFG.DWELL (n : Nat) : Field := ⟨DDC_LISTCFG n, 16, 16⟩
/-- The key of DDC_LIST_LO. -/
@[reducible] def DDC_LIST_LO (n m : Nat) : Nat := 0x41000 + 0x200 * n + 0x8 * m
/-- DDC_LIST_LO.FREQ_LO, RW. -/
@[reducible] def DDC_LIST_LO.FREQ_LO (n m : Nat) : Field := ⟨DDC_LIST_LO n m, 0, 32⟩
/-- The key of DDC_LIST_HI. -/
@[reducible] def DDC_LIST_HI (n m : Nat) : Nat := 0x41004 + 0x200 * n + 0x8 * m
/-- DDC_LIST_HI.FREQ_HI, RW. -/
@[reducible] def DDC_LIST_HI.FREQ_HI (n m : Nat) : Field := ⟨DDC_LIST_HI n m, 0, 16⟩
/-- The key of PLT_CTL. -/
@[reducible] def PLT_CTL (n : Nat) : Nat := 0x48000 + 0x20 * n
/-- PLT_CTL.EN, RW. -/
@[reducible] def PLT_CTL.EN (n : Nat) : Field := ⟨PLT_CTL n, 0, 1⟩
/-- PLT_CTL.DDC, RW. -/
@[reducible] def PLT_CTL.DDC (n : Nat) : Field := ⟨PLT_CTL n, 1, 3⟩
/-- PLT_CTL.MODE, RW. -/
@[reducible] def PLT_CTL.MODE (n : Nat) : Field := ⟨PLT_CTL n, 4, 2⟩
/-- PLT_CTL.W, RW. -/
@[reducible] def PLT_CTL.W (n : Nat) : Field := ⟨PLT_CTL n, 6, 5⟩
/-- PLT_CTL.HYST, RW. -/
@[reducible] def PLT_CTL.HYST (n : Nat) : Field := ⟨PLT_CTL n, 16, 8⟩
/-- The key of PLT_THRESH. -/
@[reducible] def PLT_THRESH (n : Nat) : Nat := 0x48004 + 0x20 * n
/-- PLT_THRESH.HI, RW. -/
@[reducible] def PLT_THRESH.HI (n : Nat) : Field := ⟨PLT_THRESH n, 0, 16⟩
/-- PLT_THRESH.LO, RW. -/
@[reducible] def PLT_THRESH.LO (n : Nat) : Field := ⟨PLT_THRESH n, 16, 16⟩
/-- The key of PLT_STATUS. -/
@[reducible] def PLT_STATUS (n : Nat) : Nat := 0x48008 + 0x20 * n
/-- PLT_STATUS.COND, RO. -/
@[reducible] def PLT_STATUS.COND (n : Nat) : Field := ⟨PLT_STATUS n, 0, 1⟩
/-- PLT_STATUS.HOLD, RO. -/
@[reducible] def PLT_STATUS.HOLD (n : Nat) : Field := ⟨PLT_STATUS n, 1, 1⟩
/-- PLT_STATUS.EDGES, RO. -/
@[reducible] def PLT_STATUS.EDGES (n : Nat) : Field := ⟨PLT_STATUS n, 16, 16⟩
/-- The key of PLT_POWER. -/
@[reducible] def PLT_POWER (n : Nat) : Nat := 0x4800c + 0x20 * n
/-- PLT_POWER.LEVEL, RO. -/
@[reducible] def PLT_POWER.LEVEL (n : Nat) : Field := ⟨PLT_POWER n, 0, 16⟩
/-- The key of LANE_CFG. -/
@[reducible] def LANE_CFG : Nat := 0x50000
/-- LANE_CFG.WARM_SPARES, RW. -/
@[reducible] def LANE_CFG.WARM_SPARES : Field := ⟨LANE_CFG, 0, 1⟩
/-- LANE_CFG.SPARE_TEST_EN, RW. -/
@[reducible] def LANE_CFG.SPARE_TEST_EN : Field := ⟨LANE_CFG, 1, 1⟩
/-- LANE_CFG.SPARE_TEST_PERIOD, RW. -/
@[reducible] def LANE_CFG.SPARE_TEST_PERIOD : Field := ⟨LANE_CFG, 8, 8⟩
/-- LANE_CFG.CE_THRESH, RW. -/
@[reducible] def LANE_CFG.CE_THRESH : Field := ⟨LANE_CFG, 16, 16⟩
/-- The key of LANE_POOL. -/
@[reducible] def LANE_POOL : Nat := 0x50004
/-- LANE_POOL.OK, RO. -/
@[reducible] def LANE_POOL.OK : Field := ⟨LANE_POOL, 0, 5⟩
/-- LANE_POOL.ASSIGNED, RO. -/
@[reducible] def LANE_POOL.ASSIGNED : Field := ⟨LANE_POOL, 8, 5⟩
/-- LANE_POOL.SPARES, RO. -/
@[reducible] def LANE_POOL.SPARES : Field := ⟨LANE_POOL, 16, 2⟩
/-- LANE_POOL.FENCED, RO. -/
@[reducible] def LANE_POOL.FENCED : Field := ⟨LANE_POOL, 24, 5⟩
/-- The key of LANE_INJECT. -/
@[reducible] def LANE_INJECT : Nat := 0x50008
/-- LANE_INJECT.LANE, WO. -/
@[reducible] def LANE_INJECT.LANE : Field := ⟨LANE_INJECT, 0, 5⟩
/-- LANE_INJECT.KEY, WO. -/
@[reducible] def LANE_INJECT.KEY : Field := ⟨LANE_INJECT, 16, 16⟩
/-- The key of LANE_STATUS. -/
@[reducible] def LANE_STATUS (n : Nat) : Nat := 0x50100 + 0x10 * n
/-- LANE_STATUS.STATE, RO. -/
@[reducible] def LANE_STATUS.STATE (n : Nat) : Field := ⟨LANE_STATUS n, 0, 3⟩
/-- LANE_STATUS.PLAN, RO. -/
@[reducible] def LANE_STATUS.PLAN (n : Nat) : Field := ⟨LANE_STATUS n, 4, 6⟩
/-- LANE_STATUS.SLOT, RO. -/
@[reducible] def LANE_STATUS.SLOT (n : Nat) : Field := ⟨LANE_STATUS n, 12, 4⟩
/-- LANE_STATUS.CAUSE, RO. -/
@[reducible] def LANE_STATUS.CAUSE (n : Nat) : Field := ⟨LANE_STATUS n, 16, 4⟩
/-- The key of LANE_ECC. -/
@[reducible] def LANE_ECC (n : Nat) : Nat := 0x50104 + 0x10 * n
/-- LANE_ECC.CE_COUNT, RO. -/
@[reducible] def LANE_ECC.CE_COUNT (n : Nat) : Field := ⟨LANE_ECC n, 0, 16⟩
/-- LANE_ECC.UE_COUNT, RO. -/
@[reducible] def LANE_ECC.UE_COUNT (n : Nat) : Field := ⟨LANE_ECC n, 16, 16⟩
/-- The key of PLAN_EXPORT. -/
@[reducible] def PLAN_EXPORT (n : Nat) : Nat := 0x51000 + 0x10 * n
/-- PLAN_EXPORT.FMT, RW. -/
@[reducible] def PLAN_EXPORT.FMT (n : Nat) : Field := ⟨PLAN_EXPORT n, 0, 2⟩
/-- PLAN_EXPORT.ORDER, RW. -/
@[reducible] def PLAN_EXPORT.ORDER (n : Nat) : Field := ⟨PLAN_EXPORT n, 2, 1⟩
/-- The key of PLAN_BINS. -/
@[reducible] def PLAN_BINS (n : Nat) : Nat := 0x51004 + 0x10 * n
/-- PLAN_BINS.FIRST, RW. -/
@[reducible] def PLAN_BINS.FIRST (n : Nat) : Field := ⟨PLAN_BINS n, 0, 16⟩
/-- PLAN_BINS.LAST, RW. -/
@[reducible] def PLAN_BINS.LAST (n : Nat) : Field := ⟨PLAN_BINS n, 16, 16⟩
/-- The key of PLAN_STATUS. -/
@[reducible] def PLAN_STATUS (n : Nat) : Nat := 0x51008 + 0x10 * n
/-- PLAN_STATUS.STATE, RO. -/
@[reducible] def PLAN_STATUS.STATE (n : Nat) : Field := ⟨PLAN_STATUS n, 0, 2⟩
/-- PLAN_STATUS.LANES, RO. -/
@[reducible] def PLAN_STATUS.LANES (n : Nat) : Field := ⟨PLAN_STATUS n, 2, 5⟩
/-- PLAN_STATUS.LAST_EXP, RO. -/
@[reducible] def PLAN_STATUS.LAST_EXP (n : Nat) : Field := ⟨PLAN_STATUS n, 8, 5⟩
/-- PLAN_STATUS.SHEETS, RO. -/
@[reducible] def PLAN_STATUS.SHEETS (n : Nat) : Field := ⟨PLAN_STATUS n, 16, 16⟩
/-- The key of DET_CFG. -/
@[reducible] def DET_CFG (n : Nat) : Nat := 0x52000 + 0x20 * n
/-- DET_CFG.EN, RW. -/
@[reducible] def DET_CFG.EN (n : Nat) : Field := ⟨DET_CFG n, 0, 1⟩
/-- DET_CFG.PLAN, RW. -/
@[reducible] def DET_CFG.PLAN (n : Nat) : Field := ⟨DET_CFG n, 1, 6⟩
/-- DET_CFG.SET, RW. -/
@[reducible] def DET_CFG.SET (n : Nat) : Field := ⟨DET_CFG n, 7, 3⟩
/-- DET_CFG.DMODE, RW. -/
@[reducible] def DET_CFG.DMODE (n : Nat) : Field := ⟨DET_CFG n, 10, 3⟩
/-- DET_CFG.AMODE, RW. -/
@[reducible] def DET_CFG.AMODE (n : Nat) : Field := ⟨DET_CFG n, 13, 2⟩
/-- DET_CFG.FMT, RW. -/
@[reducible] def DET_CFG.FMT (n : Nat) : Field := ⟨DET_CFG n, 15, 1⟩
/-- DET_CFG.AVG_LOG2, RW. -/
@[reducible] def DET_CFG.AVG_LOG2 (n : Nat) : Field := ⟨DET_CFG n, 16, 4⟩
/-- DET_CFG.NPTS_M1, RW. -/
@[reducible] def DET_CFG.NPTS_M1 (n : Nat) : Field := ⟨DET_CFG n, 20, 12⟩
/-- The key of DET_RANGE. -/
@[reducible] def DET_RANGE (n : Nat) : Nat := 0x52004 + 0x20 * n
/-- DET_RANGE.FIRST, RW. -/
@[reducible] def DET_RANGE.FIRST (n : Nat) : Field := ⟨DET_RANGE n, 0, 16⟩
/-- DET_RANGE.LAST, RW. -/
@[reducible] def DET_RANGE.LAST (n : Nat) : Field := ⟨DET_RANGE n, 16, 16⟩
/-- The key of DET_CTL. -/
@[reducible] def DET_CTL (n : Nat) : Nat := 0x52008 + 0x20 * n
/-- DET_CTL.TPERIOD, RW. -/
@[reducible] def DET_CTL.TPERIOD (n : Nat) : Field := ⟨DET_CTL n, 0, 24⟩
/-- DET_CTL.HOLD_RESET, WO. -/
@[reducible] def DET_CTL.HOLD_RESET (n : Nat) : Field := ⟨DET_CTL n, 31, 1⟩
/-- The key of DET_STATUS. -/
@[reducible] def DET_STATUS (n : Nat) : Nat := 0x5200c + 0x20 * n
/-- DET_STATUS.CFG_ERR, W1C. -/
@[reducible] def DET_STATUS.CFG_ERR (n : Nat) : Field := ⟨DET_STATUS n, 0, 1⟩
/-- DET_STATUS.WAITING, RO. -/
@[reducible] def DET_STATUS.WAITING (n : Nat) : Field := ⟨DET_STATUS n, 1, 1⟩
/-- DET_STATUS.TRACES, RO. -/
@[reducible] def DET_STATUS.TRACES (n : Nat) : Field := ⟨DET_STATUS n, 2, 14⟩
/-- DET_STATUS.DROPPED, RO. -/
@[reducible] def DET_STATUS.DROPPED (n : Nat) : Field := ⟨DET_STATUS n, 16, 16⟩
/-- The key of REAM_CFG. -/
@[reducible] def REAM_CFG (n : Nat) : Nat := 0x53000 + 0x20 * n
/-- REAM_CFG.EN, RW. -/
@[reducible] def REAM_CFG.EN (n : Nat) : Field := ⟨REAM_CFG n, 0, 1⟩
/-- REAM_CFG.LOG2N, RW. -/
@[reducible] def REAM_CFG.LOG2N (n : Nat) : Field := ⟨REAM_CFG n, 1, 5⟩
/-- REAM_CFG.DECAY, RW. -/
@[reducible] def REAM_CFG.DECAY (n : Nat) : Field := ⟨REAM_CFG n, 6, 2⟩
/-- REAM_CFG.DSHIFT, RW. -/
@[reducible] def REAM_CFG.DSHIFT (n : Nat) : Field := ⟨REAM_CFG n, 8, 4⟩
/-- REAM_CFG.DSTEP, RW. -/
@[reducible] def REAM_CFG.DSTEP (n : Nat) : Field := ⟨REAM_CFG n, 16, 8⟩
/-- The key of REAM_COLS. -/
@[reducible] def REAM_COLS (n : Nat) : Nat := 0x53004 + 0x20 * n
/-- REAM_COLS.FIRST, RW. -/
@[reducible] def REAM_COLS.FIRST (n : Nat) : Field := ⟨REAM_COLS n, 0, 16⟩
/-- REAM_COLS.LAST, RW. -/
@[reducible] def REAM_COLS.LAST (n : Nat) : Field := ⟨REAM_COLS n, 16, 16⟩
/-- The key of REAM_ROWS. -/
@[reducible] def REAM_ROWS (n : Nat) : Nat := 0x53008 + 0x20 * n
/-- REAM_ROWS.BOTTOM, RW. -/
@[reducible] def REAM_ROWS.BOTTOM (n : Nat) : Field := ⟨REAM_ROWS n, 0, 16⟩
/-- REAM_ROWS.STEP, RW. -/
@[reducible] def REAM_ROWS.STEP (n : Nat) : Field := ⟨REAM_ROWS n, 16, 16⟩
/-- The key of REAM_DECAY. -/
@[reducible] def REAM_DECAY (n : Nat) : Nat := 0x5300c + 0x20 * n
/-- REAM_DECAY.DPERIOD, RW. -/
@[reducible] def REAM_DECAY.DPERIOD (n : Nat) : Field := ⟨REAM_DECAY n, 0, 24⟩
/-- The key of REAM_CTL. -/
@[reducible] def REAM_CTL (n : Nat) : Nat := 0x53010 + 0x20 * n
/-- REAM_CTL.CLEAR, WO. -/
@[reducible] def REAM_CTL.CLEAR (n : Nat) : Field := ⟨REAM_CTL n, 0, 1⟩
/-- The key of REAM_STATUS. -/
@[reducible] def REAM_STATUS (n : Nat) : Nat := 0x53014 + 0x20 * n
/-- REAM_STATUS.WIDTH, RO. -/
@[reducible] def REAM_STATUS.WIDTH (n : Nat) : Field := ⟨REAM_STATUS n, 0, 12⟩
/-- REAM_STATUS.SNAP_BUSY, RO. -/
@[reducible] def REAM_STATUS.SNAP_BUSY (n : Nat) : Field := ⟨REAM_STATUS n, 12, 1⟩
/-- REAM_STATUS.SAT_SEEN, W1C. -/
@[reducible] def REAM_STATUS.SAT_SEEN (n : Nat) : Field := ⟨REAM_STATUS n, 13, 1⟩
/-- REAM_STATUS.CFG_ERR, W1C. -/
@[reducible] def REAM_STATUS.CFG_ERR (n : Nat) : Field := ⟨REAM_STATUS n, 14, 1⟩
/-- REAM_STATUS.UE_SEEN, W1C. -/
@[reducible] def REAM_STATUS.UE_SEEN (n : Nat) : Field := ⟨REAM_STATUS n, 15, 1⟩
/-- The key of REAM_RANGECNT. -/
@[reducible] def REAM_RANGECNT (n : Nat) : Nat := 0x53018 + 0x20 * n
/-- REAM_RANGECNT.OVER, RO. -/
@[reducible] def REAM_RANGECNT.OVER (n : Nat) : Field := ⟨REAM_RANGECNT n, 0, 16⟩
/-- REAM_RANGECNT.UNDER, RO. -/
@[reducible] def REAM_RANGECNT.UNDER (n : Nat) : Field := ⟨REAM_RANGECNT n, 16, 16⟩
/-- The key of DZ_CFG. -/
@[reducible] def DZ_CFG (n : Nat) : Nat := 0x53400 + 0x20 * n
/-- DZ_CFG.EN, RW. -/
@[reducible] def DZ_CFG.EN (n : Nat) : Field := ⟨DZ_CFG n, 0, 1⟩
/-- DZ_CFG.REAM, RW. -/
@[reducible] def DZ_CFG.REAM (n : Nat) : Field := ⟨DZ_CFG n, 1, 3⟩
/-- DZ_CFG.PLAN, RW. -/
@[reducible] def DZ_CFG.PLAN (n : Nat) : Field := ⟨DZ_CFG n, 4, 6⟩
/-- DZ_CFG.SENSE, RW. -/
@[reducible] def DZ_CFG.SENSE (n : Nat) : Field := ⟨DZ_CFG n, 10, 1⟩
/-- DZ_CFG.S_M1, RW. -/
@[reducible] def DZ_CFG.S_M1 (n : Nat) : Field := ⟨DZ_CFG n, 12, 8⟩
/-- The key of DZ_COLS. -/
@[reducible] def DZ_COLS (n : Nat) : Nat := 0x53404 + 0x20 * n
/-- DZ_COLS.COL0, RW. -/
@[reducible] def DZ_COLS.COL0 (n : Nat) : Field := ⟨DZ_COLS n, 0, 11⟩
/-- DZ_COLS.COL1, RW. -/
@[reducible] def DZ_COLS.COL1 (n : Nat) : Field := ⟨DZ_COLS n, 16, 11⟩
/-- The key of DZ_ROWS. -/
@[reducible] def DZ_ROWS (n : Nat) : Nat := 0x53408 + 0x20 * n
/-- DZ_ROWS.ROW0, RW. -/
@[reducible] def DZ_ROWS.ROW0 (n : Nat) : Field := ⟨DZ_ROWS n, 0, 10⟩
/-- DZ_ROWS.ROW1, RW. -/
@[reducible] def DZ_ROWS.ROW1 (n : Nat) : Field := ⟨DZ_ROWS n, 16, 10⟩
/-- The key of DZ_THRESH. -/
@[reducible] def DZ_THRESH (n : Nat) : Nat := 0x5340c + 0x20 * n
/-- DZ_THRESH.THRESH, RW. -/
@[reducible] def DZ_THRESH.THRESH (n : Nat) : Field := ⟨DZ_THRESH n, 0, 24⟩
/-- The key of DZ_STATUS. -/
@[reducible] def DZ_STATUS (n : Nat) : Nat := 0x53410 + 0x20 * n
/-- DZ_STATUS.COND, RO. -/
@[reducible] def DZ_STATUS.COND (n : Nat) : Field := ⟨DZ_STATUS n, 0, 1⟩
/-- DZ_STATUS.HOLD, RO. -/
@[reducible] def DZ_STATUS.HOLD (n : Nat) : Field := ⟨DZ_STATUS n, 1, 1⟩
/-- DZ_STATUS.EDGES, RO. -/
@[reducible] def DZ_STATUS.EDGES (n : Nat) : Field := ⟨DZ_STATUS n, 16, 16⟩
/-- The key of DZ_COUNT. -/
@[reducible] def DZ_COUNT (n : Nat) : Nat := 0x53414 + 0x20 * n
/-- DZ_COUNT.SUM, RO. -/
@[reducible] def DZ_COUNT.SUM (n : Nat) : Field := ⟨DZ_COUNT n, 0, 24⟩
/-- The key of WEIR_CFG. -/
@[reducible] def WEIR_CFG (n : Nat) : Nat := 0x60000 + 0x20 * n
/-- WEIR_CFG.EN, RW. -/
@[reducible] def WEIR_CFG.EN (n : Nat) : Field := ⟨WEIR_CFG n, 0, 1⟩
/-- WEIR_CFG.PLAN, RW. -/
@[reducible] def WEIR_CFG.PLAN (n : Nat) : Field := ⟨WEIR_CFG n, 1, 6⟩
/-- WEIR_CFG.UPPER, RW. -/
@[reducible] def WEIR_CFG.UPPER (n : Nat) : Field := ⟨WEIR_CFG n, 7, 1⟩
/-- WEIR_CFG.LOWER, RW. -/
@[reducible] def WEIR_CFG.LOWER (n : Nat) : Field := ⟨WEIR_CFG n, 8, 1⟩
/-- The key of WEIR_CRIT. -/
@[reducible] def WEIR_CRIT (n : Nat) : Nat := 0x60004 + 0x20 * n
/-- WEIR_CRIT.K_M1, RW. -/
@[reducible] def WEIR_CRIT.K_M1 (n : Nat) : Field := ⟨WEIR_CRIT n, 0, 16⟩
/-- WEIR_CRIT.S_M1, RW. -/
@[reducible] def WEIR_CRIT.S_M1 (n : Nat) : Field := ⟨WEIR_CRIT n, 16, 5⟩
/-- WEIR_CRIT.M_M1, RW. -/
@[reducible] def WEIR_CRIT.M_M1 (n : Nat) : Field := ⟨WEIR_CRIT n, 21, 5⟩
/-- The key of WEIR_RANGE. -/
@[reducible] def WEIR_RANGE (n : Nat) : Nat := 0x60008 + 0x20 * n
/-- WEIR_RANGE.FIRST, RW. -/
@[reducible] def WEIR_RANGE.FIRST (n : Nat) : Field := ⟨WEIR_RANGE n, 0, 16⟩
/-- WEIR_RANGE.LAST, RW. -/
@[reducible] def WEIR_RANGE.LAST (n : Nat) : Field := ⟨WEIR_RANGE n, 16, 16⟩
/-- The key of WEIR_STATUS. -/
@[reducible] def WEIR_STATUS (n : Nat) : Nat := 0x6000c + 0x20 * n
/-- WEIR_STATUS.COND, RO. -/
@[reducible] def WEIR_STATUS.COND (n : Nat) : Field := ⟨WEIR_STATUS n, 0, 1⟩
/-- WEIR_STATUS.HOLD, RO. -/
@[reducible] def WEIR_STATUS.HOLD (n : Nat) : Field := ⟨WEIR_STATUS n, 1, 1⟩
/-- WEIR_STATUS.BANK_U, RO. -/
@[reducible] def WEIR_STATUS.BANK_U (n : Nat) : Field := ⟨WEIR_STATUS n, 2, 1⟩
/-- WEIR_STATUS.BANK_L, RO. -/
@[reducible] def WEIR_STATUS.BANK_L (n : Nat) : Field := ⟨WEIR_STATUS n, 3, 1⟩
/-- WEIR_STATUS.LOAD_BUSY, RO. -/
@[reducible] def WEIR_STATUS.LOAD_BUSY (n : Nat) : Field := ⟨WEIR_STATUS n, 4, 1⟩
/-- WEIR_STATUS.CFG_ERR, W1C. -/
@[reducible] def WEIR_STATUS.CFG_ERR (n : Nat) : Field := ⟨WEIR_STATUS n, 5, 1⟩
/-- WEIR_STATUS.EDGES, RO. -/
@[reducible] def WEIR_STATUS.EDGES (n : Nat) : Field := ⟨WEIR_STATUS n, 16, 16⟩
/-- The key of WEIR_COUNT. -/
@[reducible] def WEIR_COUNT (n : Nat) : Nat := 0x60010 + 0x20 * n
/-- WEIR_COUNT.VIOL, RO. -/
@[reducible] def WEIR_COUNT.VIOL (n : Nat) : Field := ⟨WEIR_COUNT n, 0, 17⟩
/-- The key of TRIGIN_CFG. -/
@[reducible] def TRIGIN_CFG (n : Nat) : Nat := 0x61000 + 0x20 * n
/-- TRIGIN_CFG.EN, RW. -/
@[reducible] def TRIGIN_CFG.EN (n : Nat) : Field := ⟨TRIGIN_CFG n, 0, 1⟩
/-- TRIGIN_CFG.POL, RW. -/
@[reducible] def TRIGIN_CFG.POL (n : Nat) : Field := ⟨TRIGIN_CFG n, 1, 1⟩
/-- TRIGIN_CFG.STUCK_EN, RW. -/
@[reducible] def TRIGIN_CFG.STUCK_EN (n : Nat) : Field := ⟨TRIGIN_CFG n, 2, 1⟩
/-- The key of TRIGIN_STUCK. -/
@[reducible] def TRIGIN_STUCK (n : Nat) : Nat := 0x61004 + 0x20 * n
/-- TRIGIN_STUCK.STUCK_TIME, RW. -/
@[reducible] def TRIGIN_STUCK.STUCK_TIME (n : Nat) : Field := ⟨TRIGIN_STUCK n, 0, 32⟩
/-- The key of TRIGIN_REARM. -/
@[reducible] def TRIGIN_REARM (n : Nat) : Nat := 0x61008 + 0x20 * n
/-- TRIGIN_REARM.STUCK_REARM, RW. -/
@[reducible] def TRIGIN_REARM.STUCK_REARM (n : Nat) : Field := ⟨TRIGIN_REARM n, 0, 32⟩
/-- The key of TRIGIN_STATUS. -/
@[reducible] def TRIGIN_STATUS (n : Nat) : Nat := 0x6100c + 0x20 * n
/-- TRIGIN_STATUS.LEVEL, RO. -/
@[reducible] def TRIGIN_STATUS.LEVEL (n : Nat) : Field := ⟨TRIGIN_STATUS n, 0, 1⟩
/-- TRIGIN_STATUS.STUCK, RO. -/
@[reducible] def TRIGIN_STATUS.STUCK (n : Nat) : Field := ⟨TRIGIN_STATUS n, 1, 1⟩
/-- TRIGIN_STATUS.STUCK_SEEN, W1C. -/
@[reducible] def TRIGIN_STATUS.STUCK_SEEN (n : Nat) : Field := ⟨TRIGIN_STATUS n, 2, 1⟩
/-- TRIGIN_STATUS.OVR_SEEN, W1C. -/
@[reducible] def TRIGIN_STATUS.OVR_SEEN (n : Nat) : Field := ⟨TRIGIN_STATUS n, 3, 1⟩
/-- TRIGIN_STATUS.EDGES, RO. -/
@[reducible] def TRIGIN_STATUS.EDGES (n : Nat) : Field := ⟨TRIGIN_STATUS n, 16, 16⟩
/-- The key of TRIGIN_OVR. -/
@[reducible] def TRIGIN_OVR (n : Nat) : Nat := 0x61010 + 0x20 * n
/-- TRIGIN_OVR.COUNT, RO. -/
@[reducible] def TRIGIN_OVR.COUNT (n : Nat) : Field := ⟨TRIGIN_OVR n, 0, 32⟩
/-- The key of IBUS_CFG. -/
@[reducible] def IBUS_CFG (n : Nat) : Nat := 0x61100 + 0x20 * n
/-- IBUS_CFG.EN, RW. -/
@[reducible] def IBUS_CFG.EN (n : Nat) : Field := ⟨IBUS_CFG n, 0, 1⟩
/-- IBUS_CFG.STUCK_EN, RW. -/
@[reducible] def IBUS_CFG.STUCK_EN (n : Nat) : Field := ⟨IBUS_CFG n, 2, 1⟩
/-- IBUS_CFG.GLITCH, RW. -/
@[reducible] def IBUS_CFG.GLITCH (n : Nat) : Field := ⟨IBUS_CFG n, 8, 10⟩
/-- IBUS_CFG.WIDTH, RW. -/
@[reducible] def IBUS_CFG.WIDTH (n : Nat) : Field := ⟨IBUS_CFG n, 18, 8⟩
/-- The key of IBUS_STUCK. -/
@[reducible] def IBUS_STUCK (n : Nat) : Nat := 0x61104 + 0x20 * n
/-- IBUS_STUCK.STUCK_TIME, RW. -/
@[reducible] def IBUS_STUCK.STUCK_TIME (n : Nat) : Field := ⟨IBUS_STUCK n, 0, 32⟩
/-- The key of IBUS_REARM. -/
@[reducible] def IBUS_REARM (n : Nat) : Nat := 0x61108 + 0x20 * n
/-- IBUS_REARM.STUCK_REARM, RW. -/
@[reducible] def IBUS_REARM.STUCK_REARM (n : Nat) : Field := ⟨IBUS_REARM n, 0, 32⟩
/-- The key of IBUS_STATUS. -/
@[reducible] def IBUS_STATUS (n : Nat) : Nat := 0x6110c + 0x20 * n
/-- IBUS_STATUS.LEVEL, RO. -/
@[reducible] def IBUS_STATUS.LEVEL (n : Nat) : Field := ⟨IBUS_STATUS n, 0, 1⟩
/-- IBUS_STATUS.STUCK, RO. -/
@[reducible] def IBUS_STATUS.STUCK (n : Nat) : Field := ⟨IBUS_STATUS n, 1, 1⟩
/-- IBUS_STATUS.STUCK_SEEN, W1C. -/
@[reducible] def IBUS_STATUS.STUCK_SEEN (n : Nat) : Field := ⟨IBUS_STATUS n, 2, 1⟩
/-- IBUS_STATUS.OVR_SEEN, W1C. -/
@[reducible] def IBUS_STATUS.OVR_SEEN (n : Nat) : Field := ⟨IBUS_STATUS n, 3, 1⟩
/-- IBUS_STATUS.EDGES, RO. -/
@[reducible] def IBUS_STATUS.EDGES (n : Nat) : Field := ⟨IBUS_STATUS n, 16, 16⟩
/-- The key of IBUS_OVR. -/
@[reducible] def IBUS_OVR (n : Nat) : Nat := 0x61110 + 0x20 * n
/-- IBUS_OVR.COUNT, RO. -/
@[reducible] def IBUS_OVR.COUNT (n : Nat) : Field := ⟨IBUS_OVR n, 0, 32⟩
/-- The key of TRIGOUT_CFG. -/
@[reducible] def TRIGOUT_CFG (n : Nat) : Nat := 0x61200 + 0x10 * n
/-- TRIGOUT_CFG.EN, RW. -/
@[reducible] def TRIGOUT_CFG.EN (n : Nat) : Field := ⟨TRIGOUT_CFG n, 0, 1⟩
/-- TRIGOUT_CFG.POL, RW. -/
@[reducible] def TRIGOUT_CFG.POL (n : Nat) : Field := ⟨TRIGOUT_CFG n, 1, 1⟩
/-- TRIGOUT_CFG.SLEW, RW. -/
@[reducible] def TRIGOUT_CFG.SLEW (n : Nat) : Field := ⟨TRIGOUT_CFG n, 2, 2⟩
/-- TRIGOUT_CFG.WIDTH, RW. -/
@[reducible] def TRIGOUT_CFG.WIDTH (n : Nat) : Field := ⟨TRIGOUT_CFG n, 16, 16⟩
/-- The key of TRIGOUT_STATUS. -/
@[reducible] def TRIGOUT_STATUS (n : Nat) : Nat := 0x61204 + 0x10 * n
/-- TRIGOUT_STATUS.MERGED, RO. -/
@[reducible] def TRIGOUT_STATUS.MERGED (n : Nat) : Field := ⟨TRIGOUT_STATUS n, 0, 16⟩
/-- TRIGOUT_STATUS.PULSES, RO. -/
@[reducible] def TRIGOUT_STATUS.PULSES (n : Nat) : Field := ⟨TRIGOUT_STATUS n, 16, 16⟩
/-- The key of FL_CFG. -/
@[reducible] def FL_CFG (n : Nat) : Nat := 0x62000 + 0x100 * n
/-- FL_CFG.NCH_M1, RW. -/
@[reducible] def FL_CFG.NCH_M1 (n : Nat) : Field := ⟨FL_CFG n, 0, 3⟩
/-- FL_CFG.REARM, RW. -/
@[reducible] def FL_CFG.REARM (n : Nat) : Field := ⟨FL_CFG n, 3, 1⟩
/-- FL_CFG.AUTO_EN, RW. -/
@[reducible] def FL_CFG.AUTO_EN (n : Nat) : Field := ⟨FL_CFG n, 4, 1⟩
/-- FL_CFG.AUTO_FULL, RW. -/
@[reducible] def FL_CFG.AUTO_FULL (n : Nat) : Field := ⟨FL_CFG n, 5, 1⟩
/-- FL_CFG.REMOTE, RW. -/
@[reducible] def FL_CFG.REMOTE (n : Nat) : Field := ⟨FL_CFG n, 6, 1⟩
/-- FL_CFG.RT, RW. -/
@[reducible] def FL_CFG.RT (n : Nat) : Field := ⟨FL_CFG n, 8, 4⟩
/-- The key of FL_CTL. -/
@[reducible] def FL_CTL (n : Nat) : Nat := 0x62004 + 0x100 * n
/-- FL_CTL.ARM, WO. -/
@[reducible] def FL_CTL.ARM (n : Nat) : Field := ⟨FL_CTL n, 0, 1⟩
/-- FL_CTL.CANCEL, WO. -/
@[reducible] def FL_CTL.CANCEL (n : Nat) : Field := ⟨FL_CTL n, 1, 1⟩
/-- The key of FL_HOLDOFF. -/
@[reducible] def FL_HOLDOFF (n : Nat) : Nat := 0x62008 + 0x100 * n
/-- FL_HOLDOFF.HOLDOFF, RW. -/
@[reducible] def FL_HOLDOFF.HOLDOFF (n : Nat) : Field := ⟨FL_HOLDOFF n, 0, 32⟩
/-- The key of FL_AUTO. -/
@[reducible] def FL_AUTO (n : Nat) : Nat := 0x6200c + 0x100 * n
/-- FL_AUTO.AUTO_TIMEOUT, RW. -/
@[reducible] def FL_AUTO.AUTO_TIMEOUT (n : Nat) : Field := ⟨FL_AUTO n, 0, 32⟩
/-- The key of FL_ACT. -/
@[reducible] def FL_ACT (n : Nat) : Nat := 0x62010 + 0x100 * n
/-- FL_ACT.TRIGOUT, RW. -/
@[reducible] def FL_ACT.TRIGOUT (n : Nat) : Field := ⟨FL_ACT n, 0, 4⟩
/-- FL_ACT.IBUS, RW. -/
@[reducible] def FL_ACT.IBUS (n : Nat) : Field := ⟨FL_ACT n, 4, 4⟩
/-- FL_ACT.SG, RW. -/
@[reducible] def FL_ACT.SG (n : Nat) : Field := ⟨FL_ACT n, 8, 8⟩
/-- FL_ACT.CU, RW. -/
@[reducible] def FL_ACT.CU (n : Nat) : Field := ⟨FL_ACT n, 16, 16⟩
/-- The key of FL_CAPT. -/
@[reducible] def FL_CAPT (n : Nat) : Nat := 0x6201c + 0x100 * n
/-- FL_CAPT.PD, RW. -/
@[reducible] def FL_CAPT.PD (n : Nat) : Field := ⟨FL_CAPT n, 0, 6⟩
/-- FL_CAPT.EN, RW. -/
@[reducible] def FL_CAPT.EN (n : Nat) : Field := ⟨FL_CAPT n, 6, 1⟩
/-- FL_CAPT.Q, RW. -/
@[reducible] def FL_CAPT.Q (n : Nat) : Field := ⟨FL_CAPT n, 8, 12⟩
/-- FL_CAPT.UNIT, RW. -/
@[reducible] def FL_CAPT.UNIT (n : Nat) : Field := ⟨FL_CAPT n, 20, 2⟩
/-- The key of FL_CAPTLEN. -/
@[reducible] def FL_CAPTLEN (n : Nat) : Nat := 0x62020 + 0x100 * n
/-- FL_CAPTLEN.PRE, RW. -/
@[reducible] def FL_CAPTLEN.PRE (n : Nat) : Field := ⟨FL_CAPTLEN n, 0, 16⟩
/-- FL_CAPTLEN.POST, RW. -/
@[reducible] def FL_CAPTLEN.POST (n : Nat) : Field := ⟨FL_CAPTLEN n, 16, 16⟩
/-- The key of FL_STATUS. -/
@[reducible] def FL_STATUS (n : Nat) : Nat := 0x62024 + 0x100 * n
/-- FL_STATUS.STATE, RO. -/
@[reducible] def FL_STATUS.STATE (n : Nat) : Field := ⟨FL_STATUS n, 0, 3⟩
/-- FL_STATUS.CHAMBER, RO. -/
@[reducible] def FL_STATUS.CHAMBER (n : Nat) : Field := ⟨FL_STATUS n, 4, 3⟩
/-- FL_STATUS.PD_HOLD, RO. -/
@[reducible] def FL_STATUS.PD_HOLD (n : Nat) : Field := ⟨FL_STATUS n, 7, 1⟩
/-- FL_STATUS.LAST, RO. -/
@[reducible] def FL_STATUS.LAST (n : Nat) : Field := ⟨FL_STATUS n, 8, 3⟩
/-- FL_STATUS.CFG_ERR, W1C. -/
@[reducible] def FL_STATUS.CFG_ERR (n : Nat) : Field := ⟨FL_STATUS n, 11, 1⟩
/-- FL_STATUS.FORCED, RO. -/
@[reducible] def FL_STATUS.FORCED (n : Nat) : Field := ⟨FL_STATUS n, 12, 1⟩
/-- The key of FL_COUNT. -/
@[reducible] def FL_COUNT (n : Nat) : Nat := 0x62028 + 0x100 * n
/-- FL_COUNT.FIRES, RO. -/
@[reducible] def FL_COUNT.FIRES (n : Nat) : Field := ⟨FL_COUNT n, 0, 24⟩
/-- FL_COUNT.CAPT_DROPPED, RO. -/
@[reducible] def FL_COUNT.CAPT_DROPPED (n : Nat) : Field := ⟨FL_COUNT n, 24, 8⟩
/-- The key of FL_MARKQ. -/
@[reducible] def FL_MARKQ (n m : Nat) : Nat := 0x62014 + 0x100 * n + 0x4 * m
/-- FL_MARKQ.Q_A, RW. -/
@[reducible] def FL_MARKQ.Q_A (n m : Nat) : Field := ⟨FL_MARKQ n m, 0, 12⟩
/-- FL_MARKQ.EN_A, RW. -/
@[reducible] def FL_MARKQ.EN_A (n m : Nat) : Field := ⟨FL_MARKQ n m, 15, 1⟩
/-- FL_MARKQ.Q_B, RW. -/
@[reducible] def FL_MARKQ.Q_B (n m : Nat) : Field := ⟨FL_MARKQ n m, 16, 12⟩
/-- FL_MARKQ.EN_B, RW. -/
@[reducible] def FL_MARKQ.EN_B (n m : Nat) : Field := ⟨FL_MARKQ n m, 31, 1⟩
/-- The key of FL_CH_SRC. -/
@[reducible] def FL_CH_SRC (n m : Nat) : Nat := 0x62040 + 0x100 * n + 0x18 * m
/-- FL_CH_SRC.SRC, RW. -/
@[reducible] def FL_CH_SRC.SRC (n m : Nat) : Field := ⟨FL_CH_SRC n m, 0, 9⟩
/-- FL_CH_SRC.EDGE, RW. -/
@[reducible] def FL_CH_SRC.EDGE (n m : Nat) : Field := ⟨FL_CH_SRC n m, 9, 2⟩
/-- FL_CH_SRC.QUAL, RW. -/
@[reducible] def FL_CH_SRC.QUAL (n m : Nat) : Field := ⟨FL_CH_SRC n m, 11, 9⟩
/-- FL_CH_SRC.QPOL, RW. -/
@[reducible] def FL_CH_SRC.QPOL (n m : Nat) : Field := ⟨FL_CH_SRC n m, 20, 1⟩
/-- FL_CH_SRC.QEN, RW. -/
@[reducible] def FL_CH_SRC.QEN (n m : Nat) : Field := ⟨FL_CH_SRC n m, 21, 1⟩
/-- FL_CH_SRC.TOACT, RW. -/
@[reducible] def FL_CH_SRC.TOACT (n m : Nat) : Field := ⟨FL_CH_SRC n m, 22, 2⟩
/-- The key of FL_CH_COUNT. -/
@[reducible] def FL_CH_COUNT (n m : Nat) : Nat := 0x62044 + 0x100 * n + 0x18 * m
/-- FL_CH_COUNT.COUNT_M1, RW. -/
@[reducible] def FL_CH_COUNT.COUNT_M1 (n m : Nat) : Field := ⟨FL_CH_COUNT n m, 0, 16⟩
/-- The key of FL_CH_WLO. -/
@[reducible] def FL_CH_WLO (n m : Nat) : Nat := 0x62048 + 0x100 * n + 0x18 * m
/-- FL_CH_WLO.WIN_LO, RW. -/
@[reducible] def FL_CH_WLO.WIN_LO (n m : Nat) : Field := ⟨FL_CH_WLO n m, 0, 32⟩
/-- The key of FL_CH_WHI. -/
@[reducible] def FL_CH_WHI (n m : Nat) : Nat := 0x6204c + 0x100 * n + 0x18 * m
/-- FL_CH_WHI.WIN_HI, RW. -/
@[reducible] def FL_CH_WHI.WIN_HI (n m : Nat) : Field := ⟨FL_CH_WHI n m, 0, 32⟩
/-- The key of FL_CH_TMO. -/
@[reducible] def FL_CH_TMO (n m : Nat) : Nat := 0x62050 + 0x100 * n + 0x18 * m
/-- FL_CH_TMO.TIMEOUT, RW. -/
@[reducible] def FL_CH_TMO.TIMEOUT (n m : Nat) : Field := ⟨FL_CH_TMO n m, 0, 32⟩
/-- The key of CU_CTL. -/
@[reducible] def CU_CTL (n : Nat) : Nat := 0x70000 + 0x100 * n
/-- CU_CTL.EN, RW. -/
@[reducible] def CU_CTL.EN (n : Nat) : Field := ⟨CU_CTL n, 0, 1⟩
/-- CU_CTL.RUN, WO. -/
@[reducible] def CU_CTL.RUN (n : Nat) : Field := ⟨CU_CTL n, 1, 1⟩
/-- CU_CTL.STOP, WO. -/
@[reducible] def CU_CTL.STOP (n : Nat) : Field := ⟨CU_CTL n, 2, 1⟩
/-- CU_CTL.POKE, WO. -/
@[reducible] def CU_CTL.POKE (n : Nat) : Field := ⟨CU_CTL n, 3, 1⟩
/-- CU_CTL.ACCSAT_EV_EN, RW. -/
@[reducible] def CU_CTL.ACCSAT_EV_EN (n : Nat) : Field := ⟨CU_CTL n, 4, 1⟩
/-- The key of CU_ENTRY. -/
@[reducible] def CU_ENTRY (n : Nat) : Nat := 0x70004 + 0x100 * n
/-- CU_ENTRY.ENTRY, RW. -/
@[reducible] def CU_ENTRY.ENTRY (n : Nat) : Field := ⟨CU_ENTRY n, 0, 13⟩
/-- The key of CU_EVCFG. -/
@[reducible] def CU_EVCFG (n : Nat) : Nat := 0x70008 + 0x100 * n
/-- CU_EVCFG.EVEN, RW. -/
@[reducible] def CU_EVCFG.EVEN (n : Nat) : Field := ⟨CU_EVCFG n, 0, 8⟩
/-- CU_EVCFG.TG, RW. -/
@[reducible] def CU_EVCFG.TG (n : Nat) : Field := ⟨CU_EVCFG n, 8, 5⟩
/-- CU_EVCFG.INQ_PORTS, RW. -/
@[reducible] def CU_EVCFG.INQ_PORTS (n : Nat) : Field := ⟨CU_EVCFG n, 16, 2⟩
/-- The key of CU_TIMER. -/
@[reducible] def CU_TIMER (n : Nat) : Nat := 0x7000c + 0x100 * n
/-- CU_TIMER.PERIOD, RW. -/
@[reducible] def CU_TIMER.PERIOD (n : Nat) : Field := ⟨CU_TIMER n, 0, 32⟩
/-- The key of CU_INQ. -/
@[reducible] def CU_INQ (n : Nat) : Nat := 0x70010 + 0x100 * n
/-- CU_INQ.Q_P0, RW. -/
@[reducible] def CU_INQ.Q_P0 (n : Nat) : Field := ⟨CU_INQ n, 0, 12⟩
/-- CU_INQ.EN_P0, RW. -/
@[reducible] def CU_INQ.EN_P0 (n : Nat) : Field := ⟨CU_INQ n, 15, 1⟩
/-- CU_INQ.Q_P1, RW. -/
@[reducible] def CU_INQ.Q_P1 (n : Nat) : Field := ⟨CU_INQ n, 16, 12⟩
/-- CU_INQ.EN_P1, RW. -/
@[reducible] def CU_INQ.EN_P1 (n : Nat) : Field := ⟨CU_INQ n, 31, 1⟩
/-- The key of CU_STATUS. -/
@[reducible] def CU_STATUS (n : Nat) : Nat := 0x70014 + 0x100 * n
/-- CU_STATUS.STATE, RO. -/
@[reducible] def CU_STATUS.STATE (n : Nat) : Field := ⟨CU_STATUS n, 0, 3⟩
/-- CU_STATUS.BANK, RO. -/
@[reducible] def CU_STATUS.BANK (n : Nat) : Field := ⟨CU_STATUS n, 3, 1⟩
/-- CU_STATUS.FCAUSE, RO. -/
@[reducible] def CU_STATUS.FCAUSE (n : Nat) : Field := ⟨CU_STATUS n, 4, 2⟩
/-- CU_STATUS.CFG_ERR, W1C. -/
@[reducible] def CU_STATUS.CFG_ERR (n : Nat) : Field := ⟨CU_STATUS n, 6, 1⟩
/-- CU_STATUS.LOST, RO. -/
@[reducible] def CU_STATUS.LOST (n : Nat) : Field := ⟨CU_STATUS n, 7, 1⟩
/-- CU_STATUS.MISSED, RO. -/
@[reducible] def CU_STATUS.MISSED (n : Nat) : Field := ⟨CU_STATUS n, 16, 16⟩
/-- The key of CU_PC. -/
@[reducible] def CU_PC (n : Nat) : Nat := 0x70018 + 0x100 * n
/-- CU_PC.PC0, RO. -/
@[reducible] def CU_PC.PC0 (n : Nat) : Field := ⟨CU_PC n, 0, 13⟩
/-- CU_PC.PC1, RO. -/
@[reducible] def CU_PC.PC1 (n : Nat) : Field := ⟨CU_PC n, 16, 13⟩
/-- The key of CU_LSTAT0. -/
@[reducible] def CU_LSTAT0 (n : Nat) : Nat := 0x7001c + 0x100 * n
/-- CU_LSTAT0.ACCSAT, W1C. -/
@[reducible] def CU_LSTAT0.ACCSAT (n : Nat) : Field := ⟨CU_LSTAT0 n, 0, 32⟩
/-- The key of CU_LSTAT1. -/
@[reducible] def CU_LSTAT1 (n : Nat) : Nat := 0x70020 + 0x100 * n
/-- CU_LSTAT1.ACCSAT, W1C. -/
@[reducible] def CU_LSTAT1.ACCSAT (n : Nat) : Field := ⟨CU_LSTAT1 n, 0, 32⟩
/-- The key of CU_FLAGS. -/
@[reducible] def CU_FLAGS (n : Nat) : Nat := 0x70024 + 0x100 * n
/-- CU_FLAGS.FLAGS0, RO. -/
@[reducible] def CU_FLAGS.FLAGS0 (n : Nat) : Field := ⟨CU_FLAGS n, 0, 2⟩
/-- CU_FLAGS.FLAGS1, RO. -/
@[reducible] def CU_FLAGS.FLAGS1 (n : Nat) : Field := ⟨CU_FLAGS n, 2, 2⟩
/-- The key of CU_ECC. -/
@[reducible] def CU_ECC (n : Nat) : Nat := 0x70028 + 0x100 * n
/-- CU_ECC.CE, RO. -/
@[reducible] def CU_ECC.CE (n : Nat) : Field := ⟨CU_ECC n, 0, 16⟩
/-- CU_ECC.UE, RO. -/
@[reducible] def CU_ECC.UE (n : Nat) : Field := ⟨CU_ECC n, 16, 16⟩
/-- The key of CU_CYCLE. -/
@[reducible] def CU_CYCLE (n : Nat) : Nat := 0x7002c + 0x100 * n
/-- CU_CYCLE.CYCLE, RO. -/
@[reducible] def CU_CYCLE.CYCLE (n : Nat) : Field := ⟨CU_CYCLE n, 0, 32⟩
/-- The key of MEM_CTL. -/
@[reducible] def MEM_CTL : Nat := 0x80000
/-- MEM_CTL.SCRUB_EN, RW. -/
@[reducible] def MEM_CTL.SCRUB_EN : Field := ⟨MEM_CTL, 0, 1⟩
/-- MEM_CTL.SPEED_MAX, RW. -/
@[reducible] def MEM_CTL.SPEED_MAX : Field := ⟨MEM_CTL, 1, 3⟩
/-- MEM_CTL.TRAIN, WO. -/
@[reducible] def MEM_CTL.TRAIN : Field := ⟨MEM_CTL, 4, 1⟩
/-- MEM_CTL.AUTO_TRAIN, RW. -/
@[reducible] def MEM_CTL.AUTO_TRAIN : Field := ⟨MEM_CTL, 5, 1⟩
/-- MEM_CTL.UE_FENCE, RW. -/
@[reducible] def MEM_CTL.UE_FENCE : Field := ⟨MEM_CTL, 8, 8⟩
/-- MEM_CTL.CE_THRESH, RW. -/
@[reducible] def MEM_CTL.CE_THRESH : Field := ⟨MEM_CTL, 16, 16⟩
/-- The key of MEM_FENCE. -/
@[reducible] def MEM_FENCE : Nat := 0x80004
/-- MEM_FENCE.CH, WO. -/
@[reducible] def MEM_FENCE.CH : Field := ⟨MEM_FENCE, 0, 3⟩
/-- MEM_FENCE.KEY, WO. -/
@[reducible] def MEM_FENCE.KEY : Field := ⟨MEM_FENCE, 16, 16⟩
/-- The key of MEM_INFO. -/
@[reducible] def MEM_INFO : Nat := 0x80008
/-- MEM_INFO.SPEED, RO. -/
@[reducible] def MEM_INFO.SPEED : Field := ⟨MEM_INFO, 0, 8⟩
/-- MEM_INFO.TYPE, RO. -/
@[reducible] def MEM_INFO.TYPE : Field := ⟨MEM_INFO, 8, 1⟩
/-- MEM_INFO.POP, RO. -/
@[reducible] def MEM_INFO.POP : Field := ⟨MEM_INFO, 9, 6⟩
/-- MEM_INFO.GIB, RO. -/
@[reducible] def MEM_INFO.GIB : Field := ⟨MEM_INFO, 16, 16⟩
/-- The key of MEM_CH_STATUS. -/
@[reducible] def MEM_CH_STATUS (n : Nat) : Nat := 0x80100 + 0x40 * n
/-- MEM_CH_STATUS.STATE, RO. -/
@[reducible] def MEM_CH_STATUS.STATE (n : Nat) : Field := ⟨MEM_CH_STATUS n, 0, 3⟩
/-- MEM_CH_STATUS.FCAUSE, RO. -/
@[reducible] def MEM_CH_STATUS.FCAUSE (n : Nat) : Field := ⟨MEM_CH_STATUS n, 3, 3⟩
/-- MEM_CH_STATUS.TRAIN_STEP, RO. -/
@[reducible] def MEM_CH_STATUS.TRAIN_STEP (n : Nat) : Field := ⟨MEM_CH_STATUS n, 6, 4⟩
/-- MEM_CH_STATUS.INIT_PCT, RO. -/
@[reducible] def MEM_CH_STATUS.INIT_PCT (n : Nat) : Field := ⟨MEM_CH_STATUS n, 10, 7⟩
/-- MEM_CH_STATUS.HOT, RO. -/
@[reducible] def MEM_CH_STATUS.HOT (n : Nat) : Field := ⟨MEM_CH_STATUS n, 17, 1⟩
/-- The key of MEM_CH_GEOM. -/
@[reducible] def MEM_CH_GEOM (n : Nat) : Nat := 0x80104 + 0x40 * n
/-- MEM_CH_GEOM.RANKS, RO. -/
@[reducible] def MEM_CH_GEOM.RANKS (n : Nat) : Field := ⟨MEM_CH_GEOM n, 0, 1⟩
/-- MEM_CH_GEOM.WIDTH, RO. -/
@[reducible] def MEM_CH_GEOM.WIDTH (n : Nat) : Field := ⟨MEM_CH_GEOM n, 1, 1⟩
/-- MEM_CH_GEOM.DENSITY, RO. -/
@[reducible] def MEM_CH_GEOM.DENSITY (n : Nat) : Field := ⟨MEM_CH_GEOM n, 2, 2⟩
/-- MEM_CH_GEOM.GIB, RO. -/
@[reducible] def MEM_CH_GEOM.GIB (n : Nat) : Field := ⟨MEM_CH_GEOM n, 8, 8⟩
/-- The key of MEM_CH_ECC. -/
@[reducible] def MEM_CH_ECC (n : Nat) : Nat := 0x80108 + 0x40 * n
/-- MEM_CH_ECC.CE, RO. -/
@[reducible] def MEM_CH_ECC.CE (n : Nat) : Field := ⟨MEM_CH_ECC n, 0, 16⟩
/-- MEM_CH_ECC.UE, RO. -/
@[reducible] def MEM_CH_ECC.UE (n : Nat) : Field := ⟨MEM_CH_ECC n, 16, 16⟩
/-- The key of MEM_CH_PAR. -/
@[reducible] def MEM_CH_PAR (n : Nat) : Nat := 0x8010c + 0x40 * n
/-- MEM_CH_PAR.ALERTS, RO. -/
@[reducible] def MEM_CH_PAR.ALERTS (n : Nat) : Field := ⟨MEM_CH_PAR n, 0, 16⟩
/-- MEM_CH_PAR.REPLAY_FAIL, RO. -/
@[reducible] def MEM_CH_PAR.REPLAY_FAIL (n : Nat) : Field := ⟨MEM_CH_PAR n, 16, 2⟩
/-- The key of MEM_CH_SCRUB. -/
@[reducible] def MEM_CH_SCRUB (n : Nat) : Nat := 0x80110 + 0x40 * n
/-- MEM_CH_SCRUB.PASSES, RO. -/
@[reducible] def MEM_CH_SCRUB.PASSES (n : Nat) : Field := ⟨MEM_CH_SCRUB n, 0, 16⟩
/-- MEM_CH_SCRUB.POS_PCT, RO. -/
@[reducible] def MEM_CH_SCRUB.POS_PCT (n : Nat) : Field := ⟨MEM_CH_SCRUB n, 16, 7⟩
/-- The key of POUND_CFG. -/
@[reducible] def POUND_CFG (n : Nat) : Nat := 0x81000 + 0x40 * n
/-- POUND_CFG.EN, RW. -/
@[reducible] def POUND_CFG.EN (n : Nat) : Field := ⟨POUND_CFG n, 0, 1⟩
/-- POUND_CFG.KIND, RW. -/
@[reducible] def POUND_CFG.KIND (n : Nat) : Field := ⟨POUND_CFG n, 1, 1⟩
/-- POUND_CFG.POLICY, RW. -/
@[reducible] def POUND_CFG.POLICY (n : Nat) : Field := ⟨POUND_CFG n, 2, 1⟩
/-- POUND_CFG.FREEZE, RW. -/
@[reducible] def POUND_CFG.FREEZE (n : Nat) : Field := ⟨POUND_CFG n, 3, 1⟩
/-- POUND_CFG.SRC_CLASS, RW. -/
@[reducible] def POUND_CFG.SRC_CLASS (n : Nat) : Field := ⟨POUND_CFG n, 4, 2⟩
/-- POUND_CFG.SRC_INDEX, RW. -/
@[reducible] def POUND_CFG.SRC_INDEX (n : Nat) : Field := ⟨POUND_CFG n, 6, 3⟩
/-- POUND_CFG.CHMASK, RW. -/
@[reducible] def POUND_CFG.CHMASK (n : Nat) : Field := ⟨POUND_CFG n, 9, 6⟩
/-- POUND_CFG.BARGE_KB, RW. -/
@[reducible] def POUND_CFG.BARGE_KB (n : Nat) : Field := ⟨POUND_CFG n, 16, 5⟩
/-- The key of POUND_BASE. -/
@[reducible] def POUND_BASE (n : Nat) : Nat := 0x81004 + 0x40 * n
/-- POUND_BASE.BASE, RW. -/
@[reducible] def POUND_BASE.BASE (n : Nat) : Field := ⟨POUND_BASE n, 0, 17⟩
/-- The key of POUND_SIZE. -/
@[reducible] def POUND_SIZE (n : Nat) : Nat := 0x81008 + 0x40 * n
/-- POUND_SIZE.SIZE, RW. -/
@[reducible] def POUND_SIZE.SIZE (n : Nat) : Field := ⟨POUND_SIZE n, 0, 20⟩
/-- The key of POUND_STREAM. -/
@[reducible] def POUND_STREAM (n : Nat) : Nat := 0x8100c + 0x40 * n
/-- POUND_STREAM.STREAM, RW. -/
@[reducible] def POUND_STREAM.STREAM (n : Nat) : Field := ⟨POUND_STREAM n, 0, 16⟩
/-- The key of POUND_STATUS. -/
@[reducible] def POUND_STATUS (n : Nat) : Nat := 0x81020 + 0x40 * n
/-- POUND_STATUS.STATE, RO. -/
@[reducible] def POUND_STATUS.STATE (n : Nat) : Field := ⟨POUND_STATUS n, 0, 3⟩
/-- POUND_STATUS.CFG_ERR, W1C. -/
@[reducible] def POUND_STATUS.CFG_ERR (n : Nat) : Field := ⟨POUND_STATUS n, 3, 1⟩
/-- POUND_STATUS.SHRUNK, RO. -/
@[reducible] def POUND_STATUS.SHRUNK (n : Nat) : Field := ⟨POUND_STATUS n, 4, 1⟩
/-- POUND_STATUS.LOSS_SEEN, W1C. -/
@[reducible] def POUND_STATUS.LOSS_SEEN (n : Nat) : Field := ⟨POUND_STATUS n, 5, 1⟩
/-- POUND_STATUS.CAPTURES, RO. -/
@[reducible] def POUND_STATUS.CAPTURES (n : Nat) : Field := ⟨POUND_STATUS n, 8, 6⟩
/-- The key of POUND_EFF. -/
@[reducible] def POUND_EFF (n : Nat) : Nat := 0x81024 + 0x40 * n
/-- POUND_EFF.SIZE_EFF, RO. -/
@[reducible] def POUND_EFF.SIZE_EFF (n : Nat) : Field := ⟨POUND_EFF n, 0, 20⟩
/-- The key of POUND_HIST. -/
@[reducible] def POUND_HIST (n : Nat) : Nat := 0x81028 + 0x40 * n
/-- POUND_HIST.HIST_US, RO. -/
@[reducible] def POUND_HIST.HIST_US (n : Nat) : Field := ⟨POUND_HIST n, 0, 32⟩
/-- The key of POUND_LOST. -/
@[reducible] def POUND_LOST (n : Nat) : Nat := 0x8102c + 0x40 * n
/-- POUND_LOST.LOST_KIB, RO. -/
@[reducible] def POUND_LOST.LOST_KIB (n : Nat) : Field := ⟨POUND_LOST n, 0, 32⟩
/-- The key of POUND_DRAIN. -/
@[reducible] def POUND_DRAIN (n m : Nat) : Nat := 0x81010 + 0x40 * n + 0x4 * m
/-- POUND_DRAIN.Q, RW. -/
@[reducible] def POUND_DRAIN.Q (n m : Nat) : Field := ⟨POUND_DRAIN n m, 0, 12⟩
/-- POUND_DRAIN.EN, RW. -/
@[reducible] def POUND_DRAIN.EN (n m : Nat) : Field := ⟨POUND_DRAIN n m, 15, 1⟩
/-- The key of QUEUE_POOLCFG. -/
@[reducible] def QUEUE_POOLCFG : Nat := 0x90000
/-- QUEUE_POOLCFG.DATA_RES, RW. -/
@[reducible] def QUEUE_POOLCFG.DATA_RES : Field := ⟨QUEUE_POOLCFG, 0, 18⟩
/-- QUEUE_POOLCFG.MARK_RES, RW. -/
@[reducible] def QUEUE_POOLCFG.MARK_RES : Field := ⟨QUEUE_POOLCFG, 18, 5⟩
/-- The key of QUEUE_POOLSTAT. -/
@[reducible] def QUEUE_POOLSTAT : Nat := 0x90004
/-- QUEUE_POOLSTAT.FREE, RO. -/
@[reducible] def QUEUE_POOLSTAT.FREE : Field := ⟨QUEUE_POOLSTAT, 0, 18⟩
/-- QUEUE_POOLSTAT.LOW_SEEN, W1C. -/
@[reducible] def QUEUE_POOLSTAT.LOW_SEEN : Field := ⟨QUEUE_POOLSTAT, 18, 1⟩
/-- QUEUE_POOLSTAT.CFG_ERR, W1C. -/
@[reducible] def QUEUE_POOLSTAT.CFG_ERR : Field := ⟨QUEUE_POOLSTAT, 19, 1⟩
/-- The key of QUEUE_ERR. -/
@[reducible] def QUEUE_ERR : Nat := 0x90008
/-- QUEUE_ERR.CELL, RO. -/
@[reducible] def QUEUE_ERR.CELL : Field := ⟨QUEUE_ERR, 0, 17⟩
/-- QUEUE_ERR.QUEUE, RO. -/
@[reducible] def QUEUE_ERR.QUEUE : Field := ⟨QUEUE_ERR, 17, 12⟩
/-- QUEUE_ERR.KIND, RO. -/
@[reducible] def QUEUE_ERR.KIND : Field := ⟨QUEUE_ERR, 29, 3⟩
/-- The key of QUEUE_SEL. -/
@[reducible] def QUEUE_SEL : Nat := 0x90010
/-- QUEUE_SEL.QUEUE, RW. -/
@[reducible] def QUEUE_SEL.QUEUE : Field := ⟨QUEUE_SEL, 0, 12⟩
/-- The key of QUEUE_CFG. -/
@[reducible] def QUEUE_CFG (n : Nat) : Nat := 0x4000014 + 0x40 * n
/-- QUEUE_CFG.EN, RW. -/
@[reducible] def QUEUE_CFG.EN (n : Nat) : Field := ⟨QUEUE_CFG n, 0, 1⟩
/-- QUEUE_CFG.MODE, RW. -/
@[reducible] def QUEUE_CFG.MODE (n : Nat) : Field := ⟨QUEUE_CFG n, 1, 1⟩
/-- QUEUE_CFG.THRESH, RW. -/
@[reducible] def QUEUE_CFG.THRESH (n : Nat) : Field := ⟨QUEUE_CFG n, 2, 4⟩
/-- QUEUE_CFG.LIMIT, RW. -/
@[reducible] def QUEUE_CFG.LIMIT (n : Nat) : Field := ⟨QUEUE_CFG n, 8, 18⟩
/-- The key of QUEUE_STAT. -/
@[reducible] def QUEUE_STAT (n : Nat) : Nat := 0x4000018 + 0x40 * n
/-- QUEUE_STAT.OCC, RO. -/
@[reducible] def QUEUE_STAT.OCC (n : Nat) : Field := ⟨QUEUE_STAT n, 0, 18⟩
/-- QUEUE_STAT.EPOCH, RO. -/
@[reducible] def QUEUE_STAT.EPOCH (n : Nat) : Field := ⟨QUEUE_STAT n, 18, 2⟩
/-- QUEUE_STAT.STATE, RO. -/
@[reducible] def QUEUE_STAT.STATE (n : Nat) : Field := ⟨QUEUE_STAT n, 20, 3⟩
/-- QUEUE_STAT.CONSUMER, RO. -/
@[reducible] def QUEUE_STAT.CONSUMER (n : Nat) : Field := ⟨QUEUE_STAT n, 23, 3⟩
/-- QUEUE_STAT.DF_SEEN, W1C. -/
@[reducible] def QUEUE_STAT.DF_SEEN (n : Nat) : Field := ⟨QUEUE_STAT n, 26, 1⟩
/-- QUEUE_STAT.FF_SEEN, W1C. -/
@[reducible] def QUEUE_STAT.FF_SEEN (n : Nat) : Field := ⟨QUEUE_STAT n, 27, 1⟩
/-- QUEUE_STAT.REFUSED_SEEN, W1C. -/
@[reducible] def QUEUE_STAT.REFUSED_SEEN (n : Nat) : Field := ⟨QUEUE_STAT n, 28, 1⟩
/-- The key of QUEUE_CNT. -/
@[reducible] def QUEUE_CNT (n : Nat) : Nat := 0x400001c + 0x40 * n
/-- QUEUE_CNT.BARGES, RO. -/
@[reducible] def QUEUE_CNT.BARGES (n : Nat) : Field := ⟨QUEUE_CNT n, 0, 32⟩
/-- The key of QUEUE_DROP. -/
@[reducible] def QUEUE_DROP (n : Nat) : Nat := 0x4000020 + 0x40 * n
/-- QUEUE_DROP.DROPPED, RO. -/
@[reducible] def QUEUE_DROP.DROPPED (n : Nat) : Field := ⟨QUEUE_DROP n, 0, 32⟩
/-- The key of QUEUE_TEAR. -/
@[reducible] def QUEUE_TEAR (n : Nat) : Nat := 0x4000024 + 0x40 * n
/-- QUEUE_TEAR.COUNT, RO. -/
@[reducible] def QUEUE_TEAR.COUNT (n : Nat) : Field := ⟨QUEUE_TEAR n, 0, 16⟩
/-- QUEUE_TEAR.HELD, RO. -/
@[reducible] def QUEUE_TEAR.HELD (n : Nat) : Field := ⟨QUEUE_TEAR n, 16, 1⟩
/-- QUEUE_TEAR.SAT, RO. -/
@[reducible] def QUEUE_TEAR.SAT (n : Nat) : Field := ⟨QUEUE_TEAR n, 17, 1⟩
/-- The key of QUEUE_TEARBASE0. -/
@[reducible] def QUEUE_TEARBASE0 (n : Nat) : Nat := 0x4000028 + 0x40 * n
/-- QUEUE_TEARBASE0.T_LO, RO. -/
@[reducible] def QUEUE_TEARBASE0.T_LO (n : Nat) : Field := ⟨QUEUE_TEARBASE0 n, 0, 32⟩
/-- The key of QUEUE_TEARBASE1. -/
@[reducible] def QUEUE_TEARBASE1 (n : Nat) : Nat := 0x400002c + 0x40 * n
/-- QUEUE_TEARBASE1.T_MID, RO. -/
@[reducible] def QUEUE_TEARBASE1.T_MID (n : Nat) : Field := ⟨QUEUE_TEARBASE1 n, 0, 32⟩
/-- The key of QUEUE_TEARBASE2. -/
@[reducible] def QUEUE_TEARBASE2 (n : Nat) : Nat := 0x4000030 + 0x40 * n
/-- QUEUE_TEARBASE2.T_HI, RO. -/
@[reducible] def QUEUE_TEARBASE2.T_HI (n : Nat) : Field := ⟨QUEUE_TEARBASE2 n, 0, 32⟩
/-- The key of QUEUE_TEARSEQ. -/
@[reducible] def QUEUE_TEARSEQ (n : Nat) : Nat := 0x4000034 + 0x40 * n
/-- QUEUE_TEARSEQ.TEAR_SEQ, RO. -/
@[reducible] def QUEUE_TEARSEQ.TEAR_SEQ (n : Nat) : Field := ⟨QUEUE_TEARSEQ n, 0, 32⟩
/-- The key of RING_CTL. -/
@[reducible] def RING_CTL : Nat := 0xa0000
/-- RING_CTL.LOOKOUT_EN, RW. -/
@[reducible] def RING_CTL.LOOKOUT_EN : Field := ⟨RING_CTL, 0, 1⟩
/-- RING_CTL.PARK_EN, RW. -/
@[reducible] def RING_CTL.PARK_EN : Field := ⟨RING_CTL, 1, 1⟩
/-- The key of RING_TALLY_LO. -/
@[reducible] def RING_TALLY_LO : Nat := 0xa0004
/-- RING_TALLY_LO.ADDR_LO, RW. -/
@[reducible] def RING_TALLY_LO.ADDR_LO : Field := ⟨RING_TALLY_LO, 12, 20⟩
/-- The key of RING_TALLY_HI. -/
@[reducible] def RING_TALLY_HI : Nat := 0xa0008
/-- RING_TALLY_HI.ADDR_HI, RW. -/
@[reducible] def RING_TALLY_HI.ADDR_HI : Field := ⟨RING_TALLY_HI, 0, 32⟩
/-- The key of RING_LOOKOUT. -/
@[reducible] def RING_LOOKOUT : Nat := 0xa000c
/-- RING_LOOKOUT.PERIOD, RW. -/
@[reducible] def RING_LOOKOUT.PERIOD : Field := ⟨RING_LOOKOUT, 0, 14⟩
/-- The key of RING_PARK. -/
@[reducible] def RING_PARK : Nat := 0xa0010
/-- RING_PARK.PARK_AFTER, RW. -/
@[reducible] def RING_PARK.PARK_AFTER : Field := ⟨RING_PARK, 0, 32⟩
/-- The key of RING_STATUS. -/
@[reducible] def RING_STATUS : Nat := 0xa0014
/-- RING_STATUS.PARKED, RO. -/
@[reducible] def RING_STATUS.PARKED : Field := ⟨RING_STATUS, 0, 1⟩
/-- RING_STATUS.TALLY_ERR, W1C. -/
@[reducible] def RING_STATUS.TALLY_ERR : Field := ⟨RING_STATUS, 1, 1⟩
/-- RING_STATUS.WAKES, RO. -/
@[reducible] def RING_STATUS.WAKES : Field := ⟨RING_STATUS, 16, 16⟩
/-- The key of RING_BASE_LO. -/
@[reducible] def RING_BASE_LO (n : Nat) : Nat := 0xa1000 + 0x20 * n
/-- RING_BASE_LO.ADDR_LO, RW. -/
@[reducible] def RING_BASE_LO.ADDR_LO (n : Nat) : Field := ⟨RING_BASE_LO n, 6, 26⟩
/-- The key of RING_BASE_HI. -/
@[reducible] def RING_BASE_HI (n : Nat) : Nat := 0xa1004 + 0x20 * n
/-- RING_BASE_HI.ADDR_HI, RW. -/
@[reducible] def RING_BASE_HI.ADDR_HI (n : Nat) : Field := ⟨RING_BASE_HI n, 0, 32⟩
/-- The key of RING_CFG. -/
@[reducible] def RING_CFG (n : Nat) : Nat := 0xa1008 + 0x20 * n
/-- RING_CFG.EN, RW. -/
@[reducible] def RING_CFG.EN (n : Nat) : Field := ⟨RING_CFG n, 0, 1⟩
/-- RING_CFG.BUSY, RO. -/
@[reducible] def RING_CFG.BUSY (n : Nat) : Field := ⟨RING_CFG n, 1, 1⟩
/-- RING_CFG.LOG2SIZE, RW. -/
@[reducible] def RING_CFG.LOG2SIZE (n : Nat) : Field := ⟨RING_CFG n, 2, 5⟩
/-- RING_CFG.FLUSH, WO. -/
@[reducible] def RING_CFG.FLUSH (n : Nat) : Field := ⟨RING_CFG n, 8, 1⟩
/-- The key of RING_HEAD. -/
@[reducible] def RING_HEAD (n : Nat) : Nat := 0xa100c + 0x20 * n
/-- RING_HEAD.HEAD, RO. -/
@[reducible] def RING_HEAD.HEAD (n : Nat) : Field := ⟨RING_HEAD n, 0, 32⟩
/-- The key of RING_DONE. -/
@[reducible] def RING_DONE (n : Nat) : Nat := 0xa1010 + 0x20 * n
/-- RING_DONE.DONE, RO. -/
@[reducible] def RING_DONE.DONE (n : Nat) : Field := ⟨RING_DONE n, 0, 32⟩
/-- The key of RING_STAT. -/
@[reducible] def RING_STAT (n : Nat) : Nat := 0xa1014 + 0x20 * n
/-- RING_STAT.BAD, RO. -/
@[reducible] def RING_STAT.BAD (n : Nat) : Field := ⟨RING_STAT n, 0, 16⟩
/-- RING_STAT.CFG_ERR, W1C. -/
@[reducible] def RING_STAT.CFG_ERR (n : Nat) : Field := ⟨RING_STAT n, 16, 1⟩
/-- RING_STAT.TAIL_ERR, W1C. -/
@[reducible] def RING_STAT.TAIL_ERR (n : Nat) : Field := ⟨RING_STAT n, 17, 1⟩
/-- RING_STAT.TOO_SMALL_SEEN, W1C. -/
@[reducible] def RING_STAT.TOO_SMALL_SEEN (n : Nat) : Field := ⟨RING_STAT n, 18, 1⟩
/-- RING_STAT.ABANDONED, RO. -/
@[reducible] def RING_STAT.ABANDONED (n : Nat) : Field := ⟨RING_STAT n, 19, 13⟩
/-- The key of RING_SRC. -/
@[reducible] def RING_SRC (n : Nat) : Nat := 0xa1018 + 0x20 * n
/-- RING_SRC.QUEUE, RW. -/
@[reducible] def RING_SRC.QUEUE (n : Nat) : Field := ⟨RING_SRC n, 0, 12⟩
/-- RING_SRC.CLOSE_MARK, RW. -/
@[reducible] def RING_SRC.CLOSE_MARK (n : Nat) : Field := ⟨RING_SRC n, 15, 1⟩
/-- RING_SRC.FLUSH_US, RW. -/
@[reducible] def RING_SRC.FLUSH_US (n : Nat) : Field := ⟨RING_SRC n, 16, 16⟩
/-- The key of NVME_CTL. -/
@[reducible] def NVME_CTL : Nat := 0xb0000
/-- NVME_CTL.TIMEOUT_MS, RW. -/
@[reducible] def NVME_CTL.TIMEOUT_MS : Field := ⟨NVME_CTL, 0, 16⟩
/-- NVME_CTL.RETRY, RW. -/
@[reducible] def NVME_CTL.RETRY : Field := ⟨NVME_CTL, 16, 2⟩
/-- The key of NVME_PORT. -/
@[reducible] def NVME_PORT (n : Nat) : Nat := 0xb0010 + 0x10 * n
/-- NVME_PORT.EN, RW. -/
@[reducible] def NVME_PORT.EN (n : Nat) : Field := ⟨NVME_PORT n, 0, 1⟩
/-- NVME_PORT.BIFUR, RW. -/
@[reducible] def NVME_PORT.BIFUR (n : Nat) : Field := ⟨NVME_PORT n, 1, 2⟩
/-- NVME_PORT.MAXRATE, RW. -/
@[reducible] def NVME_PORT.MAXRATE (n : Nat) : Field := ⟨NVME_PORT n, 3, 3⟩
/-- The key of NVME_DRIVE. -/
@[reducible] def NVME_DRIVE (n : Nat) : Nat := 0xb0100 + 0x10 * n
/-- NVME_DRIVE.STATE, RO. -/
@[reducible] def NVME_DRIVE.STATE (n : Nat) : Field := ⟨NVME_DRIVE n, 0, 3⟩
/-- NVME_DRIVE.WIDTH, RO. -/
@[reducible] def NVME_DRIVE.WIDTH (n : Nat) : Field := ⟨NVME_DRIVE n, 4, 5⟩
/-- NVME_DRIVE.RATE, RO. -/
@[reducible] def NVME_DRIVE.RATE (n : Nat) : Field := ⟨NVME_DRIVE n, 9, 3⟩
/-- NVME_DRIVE.NSCNT, RO. -/
@[reducible] def NVME_DRIVE.NSCNT (n : Nat) : Field := ⟨NVME_DRIVE n, 12, 4⟩
/-- NVME_DRIVE.MDTS_KIB, RO. -/
@[reducible] def NVME_DRIVE.MDTS_KIB (n : Nat) : Field := ⟨NVME_DRIVE n, 16, 16⟩
/-- The key of NVME_DRIVE_ERR. -/
@[reducible] def NVME_DRIVE_ERR (n : Nat) : Nat := 0xb0104 + 0x10 * n
/-- NVME_DRIVE_ERR.IOERR, RO. -/
@[reducible] def NVME_DRIVE_ERR.IOERR (n : Nat) : Field := ⟨NVME_DRIVE_ERR n, 0, 16⟩
/-- NVME_DRIVE_ERR.RESETS, RO. -/
@[reducible] def NVME_DRIVE_ERR.RESETS (n : Nat) : Field := ⟨NVME_DRIVE_ERR n, 16, 16⟩
/-- The key of NVME_SLOT. -/
@[reducible] def NVME_SLOT (n : Nat) : Nat := 0xb0200 + 0x10 * n
/-- NVME_SLOT.EN, RW. -/
@[reducible] def NVME_SLOT.EN (n : Nat) : Field := ⟨NVME_SLOT n, 0, 1⟩
/-- NVME_SLOT.DRIVE, RW. -/
@[reducible] def NVME_SLOT.DRIVE (n : Nat) : Field := ⟨NVME_SLOT n, 1, 3⟩
/-- NVME_SLOT.LBAS, RO. -/
@[reducible] def NVME_SLOT.LBAS (n : Nat) : Field := ⟨NVME_SLOT n, 4, 1⟩
/-- NVME_SLOT.STATE, RO. -/
@[reducible] def NVME_SLOT.STATE (n : Nat) : Field := ⟨NVME_SLOT n, 5, 2⟩
/-- NVME_SLOT.CFG_ERR, W1C. -/
@[reducible] def NVME_SLOT.CFG_ERR (n : Nat) : Field := ⟨NVME_SLOT n, 7, 1⟩
/-- The key of NVME_SLOT_NSID. -/
@[reducible] def NVME_SLOT_NSID (n : Nat) : Nat := 0xb0204 + 0x10 * n
/-- NVME_SLOT_NSID.NSID, RW. -/
@[reducible] def NVME_SLOT_NSID.NSID (n : Nat) : Field := ⟨NVME_SLOT_NSID n, 0, 32⟩
/-- The key of NVME_SLOT_CAP_LO. -/
@[reducible] def NVME_SLOT_CAP_LO (n : Nat) : Nat := 0xb0208 + 0x10 * n
/-- NVME_SLOT_CAP_LO.LBAS_LO, RO. -/
@[reducible] def NVME_SLOT_CAP_LO.LBAS_LO (n : Nat) : Field := ⟨NVME_SLOT_CAP_LO n, 0, 32⟩
/-- The key of NVME_SLOT_CAP_HI. -/
@[reducible] def NVME_SLOT_CAP_HI (n : Nat) : Nat := 0xb020c + 0x10 * n
/-- NVME_SLOT_CAP_HI.LBAS_HI, RO. -/
@[reducible] def NVME_SLOT_CAP_HI.LBAS_HI (n : Nat) : Field := ⟨NVME_SLOT_CAP_HI n, 0, 32⟩
/-- The key of NVME_REC_CFG. -/
@[reducible] def NVME_REC_CFG (n : Nat) : Nat := 0xb0400 + 0x40 * n
/-- NVME_REC_CFG.EN, RW. -/
@[reducible] def NVME_REC_CFG.EN (n : Nat) : Field := ⟨NVME_REC_CFG n, 0, 1⟩
/-- NVME_REC_CFG.MODE, RW. -/
@[reducible] def NVME_REC_CFG.MODE (n : Nat) : Field := ⟨NVME_REC_CFG n, 1, 1⟩
/-- NVME_REC_CFG.CHUNK, RW. -/
@[reducible] def NVME_REC_CFG.CHUNK (n : Nat) : Field := ⟨NVME_REC_CFG n, 2, 2⟩
/-- NVME_REC_CFG.MEMBERS, RW. -/
@[reducible] def NVME_REC_CFG.MEMBERS (n : Nat) : Field := ⟨NVME_REC_CFG n, 8, 8⟩
/-- NVME_REC_CFG.QUEUE, RW. -/
@[reducible] def NVME_REC_CFG.QUEUE (n : Nat) : Field := ⟨NVME_REC_CFG n, 16, 12⟩
/-- The key of NVME_REC_CLOSE. -/
@[reducible] def NVME_REC_CLOSE (n : Nat) : Nat := 0xb0404 + 0x40 * n
/-- NVME_REC_CLOSE.CLOSE_US, RW. -/
@[reducible] def NVME_REC_CLOSE.CLOSE_US (n : Nat) : Field := ⟨NVME_REC_CLOSE n, 0, 16⟩
/-- The key of NVME_REC_STAT. -/
@[reducible] def NVME_REC_STAT (n : Nat) : Nat := 0xb0408 + 0x40 * n
/-- NVME_REC_STAT.STATE, RO. -/
@[reducible] def NVME_REC_STAT.STATE (n : Nat) : Field := ⟨NVME_REC_STAT n, 0, 3⟩
/-- NVME_REC_STAT.CFG_ERR, W1C. -/
@[reducible] def NVME_REC_STAT.CFG_ERR (n : Nat) : Field := ⟨NVME_REC_STAT n, 3, 1⟩
/-- NVME_REC_STAT.LIVE, RO. -/
@[reducible] def NVME_REC_STAT.LIVE (n : Nat) : Field := ⟨NVME_REC_STAT n, 4, 8⟩
/-- NVME_REC_STAT.LOST, RO. -/
@[reducible] def NVME_REC_STAT.LOST (n : Nat) : Field := ⟨NVME_REC_STAT n, 16, 16⟩
/-- The key of NVME_REC_CHUNK_LO. -/
@[reducible] def NVME_REC_CHUNK_LO (n : Nat) : Nat := 0xb040c + 0x40 * n
/-- NVME_REC_CHUNK_LO.NEXT_LO, RO. -/
@[reducible] def NVME_REC_CHUNK_LO.NEXT_LO (n : Nat) : Field := ⟨NVME_REC_CHUNK_LO n, 0, 32⟩
/-- The key of NVME_REC_CHUNK_HI. -/
@[reducible] def NVME_REC_CHUNK_HI (n : Nat) : Nat := 0xb0410 + 0x40 * n
/-- NVME_REC_CHUNK_HI.NEXT_HI, RO. -/
@[reducible] def NVME_REC_CHUNK_HI.NEXT_HI (n : Nat) : Field := ⟨NVME_REC_CHUNK_HI n, 0, 32⟩
/-- The key of NVME_REC_TREC0. -/
@[reducible] def NVME_REC_TREC0 (n : Nat) : Nat := 0xb0414 + 0x40 * n
/-- NVME_REC_TREC0.T_LO, RO. -/
@[reducible] def NVME_REC_TREC0.T_LO (n : Nat) : Field := ⟨NVME_REC_TREC0 n, 0, 32⟩
/-- The key of NVME_REC_TREC1. -/
@[reducible] def NVME_REC_TREC1 (n : Nat) : Nat := 0xb0418 + 0x40 * n
/-- NVME_REC_TREC1.T_MID, RO. -/
@[reducible] def NVME_REC_TREC1.T_MID (n : Nat) : Field := ⟨NVME_REC_TREC1 n, 0, 32⟩
/-- The key of NVME_REC_TREC2. -/
@[reducible] def NVME_REC_TREC2 (n : Nat) : Nat := 0xb041c + 0x40 * n
/-- NVME_REC_TREC2.T_HI, RO. -/
@[reducible] def NVME_REC_TREC2.T_HI (n : Nat) : Field := ⟨NVME_REC_TREC2 n, 0, 32⟩
/-- The key of SG_CFG. -/
@[reducible] def SG_CFG (n : Nat) : Nat := 0xc0000 + 0x40 * n
/-- SG_CFG.EN, RW. -/
@[reducible] def SG_CFG.EN (n : Nat) : Field := ⟨SG_CFG n, 0, 1⟩
/-- SG_CFG.UNDER_ABORT, RW. -/
@[reducible] def SG_CFG.UNDER_ABORT (n : Nat) : Field := ⟨SG_CFG n, 1, 1⟩
/-- The key of SG_CTL. -/
@[reducible] def SG_CTL (n : Nat) : Nat := 0xc0004 + 0x40 * n
/-- SG_CTL.RELEASE, WO. -/
@[reducible] def SG_CTL.RELEASE (n : Nat) : Field := ⟨SG_CTL n, 0, 1⟩
/-- SG_CTL.STOP, WO. -/
@[reducible] def SG_CTL.STOP (n : Nat) : Field := ⟨SG_CTL n, 1, 1⟩
/-- The key of SG_SKEW. -/
@[reducible] def SG_SKEW (n : Nat) : Nat := 0xc0008 + 0x40 * n
/-- SG_SKEW.FINE, RW. -/
@[reducible] def SG_SKEW.FINE (n : Nat) : Field := ⟨SG_SKEW n, 0, 9⟩
/-- SG_SKEW.COARSE, RW. -/
@[reducible] def SG_SKEW.COARSE (n : Nat) : Field := ⟨SG_SKEW n, 16, 6⟩
/-- The key of SG_STATUS. -/
@[reducible] def SG_STATUS (n : Nat) : Nat := 0xc000c + 0x40 * n
/-- SG_STATUS.STATE, RO. -/
@[reducible] def SG_STATUS.STATE (n : Nat) : Field := ⟨SG_STATUS n, 0, 3⟩
/-- SG_STATUS.LAST, RO. -/
@[reducible] def SG_STATUS.LAST (n : Nat) : Field := ⟨SG_STATUS n, 4, 3⟩
/-- SG_STATUS.CFG_ERR, W1C. -/
@[reducible] def SG_STATUS.CFG_ERR (n : Nat) : Field := ⟨SG_STATUS n, 7, 1⟩
/-- SG_STATUS.UNDER_SEEN, W1C. -/
@[reducible] def SG_STATUS.UNDER_SEEN (n : Nat) : Field := ⟨SG_STATUS n, 8, 1⟩
/-- SG_STATUS.STEP, RO. -/
@[reducible] def SG_STATUS.STEP (n : Nat) : Field := ⟨SG_STATUS n, 16, 16⟩
/-- The key of SG_REP. -/
@[reducible] def SG_REP (n : Nat) : Nat := 0xc0010 + 0x40 * n
/-- SG_REP.REP, RO. -/
@[reducible] def SG_REP.REP (n : Nat) : Field := ⟨SG_REP n, 0, 32⟩
/-- The key of SG_UNDER. -/
@[reducible] def SG_UNDER (n : Nat) : Nat := 0xc0014 + 0x40 * n
/-- SG_UNDER.UNDER, RO. -/
@[reducible] def SG_UNDER.UNDER (n : Nat) : Field := ⟨SG_UNDER n, 0, 32⟩
/-- The key of SG_CNT. -/
@[reducible] def SG_CNT (n : Nat) : Nat := 0xc0018 + 0x40 * n
/-- SG_CNT.EARLY, RO. -/
@[reducible] def SG_CNT.EARLY (n : Nat) : Field := ⟨SG_CNT n, 0, 16⟩
/-- SG_CNT.RELEASES, RO. -/
@[reducible] def SG_CNT.RELEASES (n : Nat) : Field := ⟨SG_CNT n, 16, 16⟩
/-- The key of SG_T0. -/
@[reducible] def SG_T0 (n : Nat) : Nat := 0xc001c + 0x40 * n
/-- SG_T0.T_LO, RO. -/
@[reducible] def SG_T0.T_LO (n : Nat) : Field := ⟨SG_T0 n, 0, 32⟩
/-- The key of SG_T1. -/
@[reducible] def SG_T1 (n : Nat) : Nat := 0xc0020 + 0x40 * n
/-- SG_T1.T_MID, RO. -/
@[reducible] def SG_T1.T_MID (n : Nat) : Field := ⟨SG_T1 n, 0, 32⟩
/-- The key of SG_T2. -/
@[reducible] def SG_T2 (n : Nat) : Nat := 0xc0024 + 0x40 * n
/-- SG_T2.T_HI, RO. -/
@[reducible] def SG_T2.T_HI (n : Nat) : Field := ⟨SG_T2 n, 0, 32⟩
/-- The key of SG_PLAYED_LO. -/
@[reducible] def SG_PLAYED_LO (n : Nat) : Nat := 0xc0028 + 0x40 * n
/-- SG_PLAYED_LO.PLAYED, RO. -/
@[reducible] def SG_PLAYED_LO.PLAYED (n : Nat) : Field := ⟨SG_PLAYED_LO n, 0, 32⟩
/-- The key of SG_PLAYED_HI. -/
@[reducible] def SG_PLAYED_HI (n : Nat) : Nat := 0xc002c + 0x40 * n
/-- SG_PLAYED_HI.PLAYED, RO. -/
@[reducible] def SG_PLAYED_HI.PLAYED (n : Nat) : Field := ⟨SG_PLAYED_HI n, 0, 32⟩
/-- The key of PROBE_CTL. -/
@[reducible] def PROBE_CTL : Nat := 0xd0000
/-- PROBE_CTL.CLOSE_US, RW. -/
@[reducible] def PROBE_CTL.CLOSE_US : Field := ⟨PROBE_CTL, 0, 16⟩
/-- PROBE_CTL.ERR_LIMIT, RW. -/
@[reducible] def PROBE_CTL.ERR_LIMIT : Field := ⟨PROBE_CTL, 16, 8⟩
/-- PROBE_CTL.CFG_ERR, W1C. -/
@[reducible] def PROBE_CTL.CFG_ERR : Field := ⟨PROBE_CTL, 24, 1⟩
/-- The key of PROBE_GROUPS. -/
@[reducible] def PROBE_GROUPS : Nat := 0xd0004
/-- PROBE_GROUPS.QW, RW. -/
@[reducible] def PROBE_GROUPS.QW : Field := ⟨PROBE_GROUPS, 0, 8⟩
/-- The key of PROBE_SUBTOTAL. -/
@[reducible] def PROBE_SUBTOTAL : Nat := 0xd0008
/-- PROBE_SUBTOTAL.TOTAL, RO. -/
@[reducible] def PROBE_SUBTOTAL.TOTAL : Field := ⟨PROBE_SUBTOTAL, 0, 17⟩
/-- The key of PROBE_LANE. -/
@[reducible] def PROBE_LANE (n : Nat) : Nat := 0xd0100 + 0x10 * n
/-- PROBE_LANE.EN, RW. -/
@[reducible] def PROBE_LANE.EN (n : Nat) : Field := ⟨PROBE_LANE n, 0, 1⟩
/-- PROBE_LANE.STATE, RO. -/
@[reducible] def PROBE_LANE.STATE (n : Nat) : Field := ⟨PROBE_LANE n, 1, 3⟩
/-- PROBE_LANE.CRC_SEEN, W1C. -/
@[reducible] def PROBE_LANE.CRC_SEEN (n : Nat) : Field := ⟨PROBE_LANE n, 4, 1⟩
/-- PROBE_LANE.RETRAINS, RO. -/
@[reducible] def PROBE_LANE.RETRAINS (n : Nat) : Field := ⟨PROBE_LANE n, 16, 16⟩
/-- The key of PROBE_LANE_ERR. -/
@[reducible] def PROBE_LANE_ERR (n : Nat) : Nat := 0xd0104 + 0x10 * n
/-- PROBE_LANE_ERR.CRCERR, RO. -/
@[reducible] def PROBE_LANE_ERR.CRCERR (n : Nat) : Field := ⟨PROBE_LANE_ERR n, 0, 16⟩
/-- PROBE_LANE_ERR.LOSTF, RO. -/
@[reducible] def PROBE_LANE_ERR.LOSTF (n : Nat) : Field := ⟨PROBE_LANE_ERR n, 16, 16⟩
/-- The key of PROBE_LANE_DLY. -/
@[reducible] def PROBE_LANE_DLY (n : Nat) : Nat := 0xd0108 + 0x10 * n
/-- PROBE_LANE_DLY.DELAY, RO. -/
@[reducible] def PROBE_LANE_DLY.DELAY (n : Nat) : Field := ⟨PROBE_LANE_DLY n, 0, 32⟩
/-- The key of PROBE_PEER. -/
@[reducible] def PROBE_PEER (n : Nat) : Nat := 0xd010c + 0x10 * n
/-- PROBE_PEER.PCLK_PS, RO. -/
@[reducible] def PROBE_PEER.PCLK_PS (n : Nat) : Field := ⟨PROBE_PEER n, 0, 32⟩
/-- The key of VC_CFG. -/
@[reducible] def VC_CFG (n : Nat) : Nat := 0xd0200 + 0x10 * n
/-- VC_CFG.EN, RW. -/
@[reducible] def VC_CFG.EN (n : Nat) : Field := ⟨VC_CFG n, 0, 1⟩
/-- VC_CFG.FMT, RW. -/
@[reducible] def VC_CFG.FMT (n : Nat) : Field := ⟨VC_CFG n, 1, 1⟩
/-- VC_CFG.GROUP, RW. -/
@[reducible] def VC_CFG.GROUP (n : Nat) : Field := ⟨VC_CFG n, 2, 4⟩
/-- VC_CFG.CHAN, RW. -/
@[reducible] def VC_CFG.CHAN (n : Nat) : Field := ⟨VC_CFG n, 8, 8⟩
/-- The key of VC_RATE. -/
@[reducible] def VC_RATE (n : Nat) : Nat := 0xd0204 + 0x10 * n
/-- VC_RATE.RATE_KS, RW. -/
@[reducible] def VC_RATE.RATE_KS (n : Nat) : Field := ⟨VC_RATE n, 0, 23⟩
/-- The key of VC_STAT. -/
@[reducible] def VC_STAT (n : Nat) : Nat := 0xd0208 + 0x10 * n
/-- VC_STAT.ACTIVE, RO. -/
@[reducible] def VC_STAT.ACTIVE (n : Nat) : Field := ⟨VC_STAT n, 0, 1⟩
/-- VC_STAT.SLIP_SEEN, W1C. -/
@[reducible] def VC_STAT.SLIP_SEEN (n : Nat) : Field := ⟨VC_STAT n, 1, 1⟩
/-- VC_STAT.CFG_ERR, W1C. -/
@[reducible] def VC_STAT.CFG_ERR (n : Nat) : Field := ⟨VC_STAT n, 2, 1⟩
/-- VC_STAT.GAPS, RO. -/
@[reducible] def VC_STAT.GAPS (n : Nat) : Field := ⟨VC_STAT n, 16, 16⟩
/-- The key of BP_CFG. -/
@[reducible] def BP_CFG (n : Nat) : Nat := 0xd0300 + 0x10 * n
/-- BP_CFG.EN, RW. -/
@[reducible] def BP_CFG.EN (n : Nat) : Field := ⟨BP_CFG n, 0, 1⟩
/-- BP_CFG.FILL, RW. -/
@[reducible] def BP_CFG.FILL (n : Nat) : Field := ⟨BP_CFG n, 1, 1⟩
/-- BP_CFG.GROUP, RW. -/
@[reducible] def BP_CFG.GROUP (n : Nat) : Field := ⟨BP_CFG n, 2, 4⟩
/-- BP_CFG.CHAN, RW. -/
@[reducible] def BP_CFG.CHAN (n : Nat) : Field := ⟨BP_CFG n, 8, 8⟩
/-- BP_CFG.QUEUE, RW. -/
@[reducible] def BP_CFG.QUEUE (n : Nat) : Field := ⟨BP_CFG n, 16, 12⟩
/-- The key of BP_FILL. -/
@[reducible] def BP_FILL (n : Nat) : Nat := 0xd0304 + 0x10 * n
/-- BP_FILL.FILL_MAX, RW. -/
@[reducible] def BP_FILL.FILL_MAX (n : Nat) : Field := ⟨BP_FILL n, 0, 32⟩
/-- The key of BP_STAT. -/
@[reducible] def BP_STAT (n : Nat) : Nat := 0xd0308 + 0x10 * n
/-- BP_STAT.CFG_ERR, W1C. -/
@[reducible] def BP_STAT.CFG_ERR (n : Nat) : Field := ⟨BP_STAT n, 0, 1⟩
/-- BP_STAT.STARVED, RO. -/
@[reducible] def BP_STAT.STARVED (n : Nat) : Field := ⟨BP_STAT n, 1, 1⟩
/-- BP_STAT.GAPF, RO. -/
@[reducible] def BP_STAT.GAPF (n : Nat) : Field := ⟨BP_STAT n, 16, 16⟩
/-- The key of EG_CFG. -/
@[reducible] def EG_CFG (n : Nat) : Nat := 0xd0400 + 0x10 * n
/-- EG_CFG.EN, RW. -/
@[reducible] def EG_CFG.EN (n : Nat) : Field := ⟨EG_CFG n, 0, 1⟩
/-- EG_CFG.GROUP, RW. -/
@[reducible] def EG_CFG.GROUP (n : Nat) : Field := ⟨EG_CFG n, 1, 4⟩
/-- EG_CFG.CHAN, RW. -/
@[reducible] def EG_CFG.CHAN (n : Nat) : Field := ⟨EG_CFG n, 8, 8⟩
/-- EG_CFG.LEAD_NS, RW. -/
@[reducible] def EG_CFG.LEAD_NS (n : Nat) : Field := ⟨EG_CFG n, 16, 16⟩
/-- The key of EG_RATE. -/
@[reducible] def EG_RATE (n : Nat) : Nat := 0xd0404 + 0x10 * n
/-- EG_RATE.RATE_KS, RW. -/
@[reducible] def EG_RATE.RATE_KS (n : Nat) : Field := ⟨EG_RATE n, 0, 23⟩
/-- The key of EG_STAT. -/
@[reducible] def EG_STAT (n : Nat) : Nat := 0xd0408 + 0x10 * n
/-- EG_STAT.CFG_ERR, W1C. -/
@[reducible] def EG_STAT.CFG_ERR (n : Nat) : Field := ⟨EG_STAT n, 0, 1⟩
/-- EG_STAT.DROPPED, RO. -/
@[reducible] def EG_STAT.DROPPED (n : Nat) : Field := ⟨EG_STAT n, 16, 16⟩
/-- The key of PROBE_SET. -/
@[reducible] def PROBE_SET (n : Nat) : Nat := 0xd0500 + 0x8 * n
/-- PROBE_SET.NNETS, RO. -/
@[reducible] def PROBE_SET.NNETS (n : Nat) : Field := ⟨PROBE_SET n, 0, 17⟩
/-- PROBE_SET.SUBGEN, RO. -/
@[reducible] def PROBE_SET.SUBGEN (n : Nat) : Field := ⟨PROBE_SET n, 17, 8⟩
/-- PROBE_SET.GROUP, RO. -/
@[reducible] def PROBE_SET.GROUP (n : Nat) : Field := ⟨PROBE_SET n, 25, 4⟩
/-- The key of PROBE_SET_ROWS. -/
@[reducible] def PROBE_SET_ROWS (n : Nat) : Nat := 0xd0504 + 0x8 * n
/-- PROBE_SET_ROWS.ROWS, RO. -/
@[reducible] def PROBE_SET_ROWS.ROWS (n : Nat) : Field := ⟨PROBE_SET_ROWS n, 0, 32⟩
/-- The key of TDC_CTL. -/
@[reducible] def TDC_CTL : Nat := 0xe0000
/-- TDC_CTL.FAN, RW. -/
@[reducible] def TDC_CTL.FAN : Field := ⟨TDC_CTL, 0, 1⟩
/-- TDC_CTL.CFG_ERR, W1C. -/
@[reducible] def TDC_CTL.CFG_ERR : Field := ⟨TDC_CTL, 1, 1⟩
/-- TDC_CTL.CLOSE_US, RW. -/
@[reducible] def TDC_CTL.CLOSE_US : Field := ⟨TDC_CTL, 16, 16⟩
/-- The key of TDC_IN_CFG. -/
@[reducible] def TDC_IN_CFG (n : Nat) : Nat := 0xe0100 + 0x20 * n
/-- TDC_IN_CFG.EN, RW. -/
@[reducible] def TDC_IN_CFG.EN (n : Nat) : Field := ⟨TDC_IN_CFG n, 0, 1⟩
/-- TDC_IN_CFG.ROLE, RW. -/
@[reducible] def TDC_IN_CFG.ROLE (n : Nat) : Field := ⟨TDC_IN_CFG n, 1, 1⟩
/-- TDC_IN_CFG.EDGE, RW. -/
@[reducible] def TDC_IN_CFG.EDGE (n : Nat) : Field := ⟨TDC_IN_CFG n, 2, 2⟩
/-- TDC_IN_CFG.SE, RW. -/
@[reducible] def TDC_IN_CFG.SE (n : Nat) : Field := ⟨TDC_IN_CFG n, 4, 1⟩
/-- TDC_IN_CFG.TERM, RW. -/
@[reducible] def TDC_IN_CFG.TERM (n : Nat) : Field := ⟨TDC_IN_CFG n, 5, 1⟩
/-- TDC_IN_CFG.STUCK_EN, RW. -/
@[reducible] def TDC_IN_CFG.STUCK_EN (n : Nat) : Field := ⟨TDC_IN_CFG n, 6, 1⟩
/-- TDC_IN_CFG.VTH, RW. -/
@[reducible] def TDC_IN_CFG.VTH (n : Nat) : Field := ⟨TDC_IN_CFG n, 8, 8⟩
/-- TDC_IN_CFG.PRESCALE, RW. -/
@[reducible] def TDC_IN_CFG.PRESCALE (n : Nat) : Field := ⟨TDC_IN_CFG n, 16, 4⟩
/-- The key of TDC_IN_STUCK. -/
@[reducible] def TDC_IN_STUCK (n : Nat) : Nat := 0xe0104 + 0x20 * n
/-- TDC_IN_STUCK.STUCK_TIME, RW. -/
@[reducible] def TDC_IN_STUCK.STUCK_TIME (n : Nat) : Field := ⟨TDC_IN_STUCK n, 0, 32⟩
/-- The key of TDC_IN_REARM. -/
@[reducible] def TDC_IN_REARM (n : Nat) : Nat := 0xe0108 + 0x20 * n
/-- TDC_IN_REARM.STUCK_REARM, RW. -/
@[reducible] def TDC_IN_REARM.STUCK_REARM (n : Nat) : Field := ⟨TDC_IN_REARM n, 0, 32⟩
/-- The key of TDC_IN_STATUS. -/
@[reducible] def TDC_IN_STATUS (n : Nat) : Nat := 0xe010c + 0x20 * n
/-- TDC_IN_STATUS.LEVEL, RO. -/
@[reducible] def TDC_IN_STATUS.LEVEL (n : Nat) : Field := ⟨TDC_IN_STATUS n, 0, 1⟩
/-- TDC_IN_STATUS.STUCK, RO. -/
@[reducible] def TDC_IN_STATUS.STUCK (n : Nat) : Field := ⟨TDC_IN_STATUS n, 1, 1⟩
/-- TDC_IN_STATUS.STUCK_SEEN, W1C. -/
@[reducible] def TDC_IN_STATUS.STUCK_SEEN (n : Nat) : Field := ⟨TDC_IN_STATUS n, 2, 1⟩
/-- TDC_IN_STATUS.OVR_SEEN, W1C. -/
@[reducible] def TDC_IN_STATUS.OVR_SEEN (n : Nat) : Field := ⟨TDC_IN_STATUS n, 3, 1⟩
/-- TDC_IN_STATUS.CFG_ERR, W1C. -/
@[reducible] def TDC_IN_STATUS.CFG_ERR (n : Nat) : Field := ⟨TDC_IN_STATUS n, 4, 1⟩
/-- TDC_IN_STATUS.EDGES, RO. -/
@[reducible] def TDC_IN_STATUS.EDGES (n : Nat) : Field := ⟨TDC_IN_STATUS n, 16, 16⟩
/-- The key of TDC_IN_OVR. -/
@[reducible] def TDC_IN_OVR (n : Nat) : Nat := 0xe0110 + 0x20 * n
/-- TDC_IN_OVR.COUNT, RO. -/
@[reducible] def TDC_IN_OVR.COUNT (n : Nat) : Field := ⟨TDC_IN_OVR n, 0, 32⟩
/-- The key of TDC_CH_WLO. -/
@[reducible] def TDC_CH_WLO (n : Nat) : Nat := 0xe0400 + 0x10 * n
/-- TDC_CH_WLO.WIN_LO, RW. -/
@[reducible] def TDC_CH_WLO.WIN_LO (n : Nat) : Field := ⟨TDC_CH_WLO n, 0, 32⟩
/-- The key of TDC_CH_WHI. -/
@[reducible] def TDC_CH_WHI (n : Nat) : Nat := 0xe0404 + 0x10 * n
/-- TDC_CH_WHI.WIN_HI, RW. -/
@[reducible] def TDC_CH_WHI.WIN_HI (n : Nat) : Field := ⟨TDC_CH_WHI n, 0, 32⟩
/-- The key of TDC_CH_Q. -/
@[reducible] def TDC_CH_Q (n : Nat) : Nat := 0xe0408 + 0x10 * n
/-- TDC_CH_Q.Q, RW. -/
@[reducible] def TDC_CH_Q.Q (n : Nat) : Field := ⟨TDC_CH_Q n, 0, 12⟩
/-- TDC_CH_Q.QEN, RW. -/
@[reducible] def TDC_CH_Q.QEN (n : Nat) : Field := ⟨TDC_CH_Q n, 15, 1⟩
/-- The key of TDC_CH_STAT. -/
@[reducible] def TDC_CH_STAT (n : Nat) : Nat := 0xe040c + 0x10 * n
/-- TDC_CH_STAT.BUSY, RO. -/
@[reducible] def TDC_CH_STAT.BUSY (n : Nat) : Field := ⟨TDC_CH_STAT n, 0, 16⟩
/-- TDC_CH_STAT.MEAS, RO. -/
@[reducible] def TDC_CH_STAT.MEAS (n : Nat) : Field := ⟨TDC_CH_STAT n, 16, 16⟩
/-- The key of TDC_FQ_GATE. -/
@[reducible] def TDC_FQ_GATE (n : Nat) : Nat := 0xe0600 + 0x10 * n
/-- TDC_FQ_GATE.GATE_US, RW. -/
@[reducible] def TDC_FQ_GATE.GATE_US (n : Nat) : Field := ⟨TDC_FQ_GATE n, 0, 24⟩
/-- The key of TDC_FQ_CFG. -/
@[reducible] def TDC_FQ_CFG (n : Nat) : Nat := 0xe0604 + 0x10 * n
/-- TDC_FQ_CFG.START_TG, RW. -/
@[reducible] def TDC_FQ_CFG.START_TG (n : Nat) : Field := ⟨TDC_FQ_CFG n, 0, 1⟩
/-- TDC_FQ_CFG.TG, RW. -/
@[reducible] def TDC_FQ_CFG.TG (n : Nat) : Field := ⟨TDC_FQ_CFG n, 1, 5⟩
/-- TDC_FQ_CFG.Q, RW. -/
@[reducible] def TDC_FQ_CFG.Q (n : Nat) : Field := ⟨TDC_FQ_CFG n, 8, 12⟩
/-- TDC_FQ_CFG.QEN, RW. -/
@[reducible] def TDC_FQ_CFG.QEN (n : Nat) : Field := ⟨TDC_FQ_CFG n, 31, 1⟩
/-- The key of TDC_FQ_STAT. -/
@[reducible] def TDC_FQ_STAT (n : Nat) : Nat := 0xe0608 + 0x10 * n
/-- TDC_FQ_STAT.GATES, RO. -/
@[reducible] def TDC_FQ_STAT.GATES (n : Nat) : Field := ⟨TDC_FQ_STAT n, 0, 16⟩
/-- TDC_FQ_STAT.SKIPPED, RO. -/
@[reducible] def TDC_FQ_STAT.SKIPPED (n : Nat) : Field := ⟨TDC_FQ_STAT n, 16, 16⟩
/-- The key of TIME_CFG. -/
@[reducible] def TIME_CFG : Nat := 0xf0000
/-- TIME_CFG.MODE, RW. -/
@[reducible] def TIME_CFG.MODE : Field := ⟨TIME_CFG, 0, 1⟩
/-- TIME_CFG.HOLD_TMO, RW. -/
@[reducible] def TIME_CFG.HOLD_TMO : Field := ⟨TIME_CFG, 8, 8⟩
/-- The key of TIME_ID. -/
@[reducible] def TIME_ID : Nat := 0xf0004
/-- TIME_ID.DEVID, RW. -/
@[reducible] def TIME_ID.DEVID : Field := ⟨TIME_ID, 0, 18⟩
/-- The key of TIME_ROOT. -/
@[reducible] def TIME_ROOT : Nat := 0xf0008
/-- TIME_ROOT.ROOT_ID, RW. -/
@[reducible] def TIME_ROOT.ROOT_ID : Field := ⟨TIME_ROOT, 0, 18⟩
/-- The key of TIME_JUMP. -/
@[reducible] def TIME_JUMP : Nat := 0xf000c
/-- TIME_JUMP.JUMP_MAX, RW. -/
@[reducible] def TIME_JUMP.JUMP_MAX : Field := ⟨TIME_JUMP, 0, 32⟩
/-- The key of TIME_STATUS. -/
@[reducible] def TIME_STATUS : Nat := 0xf0010
/-- TIME_STATUS.STATE, RO. -/
@[reducible] def TIME_STATUS.STATE : Field := ⟨TIME_STATUS, 0, 3⟩
/-- TIME_STATUS.REF_LOST, RO. -/
@[reducible] def TIME_STATUS.REF_LOST : Field := ⟨TIME_STATUS, 3, 1⟩
/-- TIME_STATUS.INC_ERR, W1C. -/
@[reducible] def TIME_STATUS.INC_ERR : Field := ⟨TIME_STATUS, 4, 1⟩
/-- TIME_STATUS.JUMP_SEEN, W1C. -/
@[reducible] def TIME_STATUS.JUMP_SEEN : Field := ⟨TIME_STATUS, 5, 1⟩
/-- TIME_STATUS.CFG_ERR, W1C. -/
@[reducible] def TIME_STATUS.CFG_ERR : Field := ⟨TIME_STATUS, 6, 1⟩
/-- TIME_STATUS.LOSSES, RO. -/
@[reducible] def TIME_STATUS.LOSSES : Field := ⟨TIME_STATUS, 16, 16⟩
/-- The key of TIME_NOW0. -/
@[reducible] def TIME_NOW0 : Nat := 0xf0014
/-- TIME_NOW0.T_LO, RO. -/
@[reducible] def TIME_NOW0.T_LO : Field := ⟨TIME_NOW0, 0, 32⟩
/-- The key of TIME_NOW1. -/
@[reducible] def TIME_NOW1 : Nat := 0xf0018
/-- TIME_NOW1.T_MID, RO. -/
@[reducible] def TIME_NOW1.T_MID : Field := ⟨TIME_NOW1, 0, 32⟩
/-- The key of TIME_NOW2. -/
@[reducible] def TIME_NOW2 : Nat := 0xf001c
/-- TIME_NOW2.T_HI, RO. -/
@[reducible] def TIME_NOW2.T_HI : Field := ⟨TIME_NOW2, 0, 32⟩
/-- The key of TIME_RATE. -/
@[reducible] def TIME_RATE : Nat := 0xf0020
/-- TIME_RATE.INC, RO. -/
@[reducible] def TIME_RATE.INC : Field := ⟨TIME_RATE, 0, 32⟩
/-- The key of TIME_OFFSET. -/
@[reducible] def TIME_OFFSET : Nat := 0xf0024
/-- TIME_OFFSET.OFFSET, RO. -/
@[reducible] def TIME_OFFSET.OFFSET : Field := ⟨TIME_OFFSET, 0, 32⟩
/-- The key of TG_START0. -/
@[reducible] def TG_START0 (n : Nat) : Nat := 0xf0100 + 0x20 * n
/-- TG_START0.T_LO, RW. -/
@[reducible] def TG_START0.T_LO (n : Nat) : Field := ⟨TG_START0 n, 0, 32⟩
/-- The key of TG_START1. -/
@[reducible] def TG_START1 (n : Nat) : Nat := 0xf0104 + 0x20 * n
/-- TG_START1.T_MID, RW. -/
@[reducible] def TG_START1.T_MID (n : Nat) : Field := ⟨TG_START1 n, 0, 32⟩
/-- The key of TG_START2. -/
@[reducible] def TG_START2 (n : Nat) : Nat := 0xf0108 + 0x20 * n
/-- TG_START2.T_HI, RW. -/
@[reducible] def TG_START2.T_HI (n : Nat) : Field := ⟨TG_START2 n, 0, 32⟩
/-- The key of TG_PERIOD. -/
@[reducible] def TG_PERIOD (n : Nat) : Nat := 0xf010c + 0x20 * n
/-- TG_PERIOD.PERIOD_NS, RW. -/
@[reducible] def TG_PERIOD.PERIOD_NS (n : Nat) : Field := ⟨TG_PERIOD n, 0, 32⟩
/-- The key of TG_CTL. -/
@[reducible] def TG_CTL (n : Nat) : Nat := 0xf0110 + 0x20 * n
/-- TG_CTL.EN, RW. -/
@[reducible] def TG_CTL.EN (n : Nat) : Field := ⟨TG_CTL n, 0, 1⟩
/-- TG_CTL.WAKE, RW. -/
@[reducible] def TG_CTL.WAKE (n : Nat) : Field := ⟨TG_CTL n, 1, 1⟩
/-- TG_CTL.DONE, W1C. -/
@[reducible] def TG_CTL.DONE (n : Nat) : Field := ⟨TG_CTL n, 2, 1⟩
/-- TG_CTL.PFRAC, RW. -/
@[reducible] def TG_CTL.PFRAC (n : Nat) : Field := ⟨TG_CTL n, 16, 16⟩
/-- The key of TG_COUNT. -/
@[reducible] def TG_COUNT (n : Nat) : Nat := 0xf0114 + 0x20 * n
/-- TG_COUNT.COUNT, RW. -/
@[reducible] def TG_COUNT.COUNT (n : Nat) : Field := ⟨TG_COUNT n, 0, 32⟩
/-- The key of TG_STAT. -/
@[reducible] def TG_STAT (n : Nat) : Nat := 0xf0118 + 0x20 * n
/-- TG_STAT.FIRES, RO. -/
@[reducible] def TG_STAT.FIRES (n : Nat) : Field := ⟨TG_STAT n, 0, 16⟩
/-- TG_STAT.MISSED, RO. -/
@[reducible] def TG_STAT.MISSED (n : Nat) : Field := ⟨TG_STAT n, 16, 16⟩
/-- The key of ETH_CFG. -/
@[reducible] def ETH_CFG : Nat := 0xf0800
/-- ETH_CFG.EN, RW. -/
@[reducible] def ETH_CFG.EN : Field := ⟨ETH_CFG, 0, 1⟩
/-- ETH_CFG.RATE, RW. -/
@[reducible] def ETH_CFG.RATE : Field := ⟨ETH_CFG, 1, 1⟩
/-- ETH_CFG.FEC, RW. -/
@[reducible] def ETH_CFG.FEC : Field := ⟨ETH_CFG, 2, 1⟩
/-- ETH_CFG.AKW_EN, RW. -/
@[reducible] def ETH_CFG.AKW_EN : Field := ⟨ETH_CFG, 3, 1⟩
/-- ETH_CFG.AKW_GW, RW. -/
@[reducible] def ETH_CFG.AKW_GW : Field := ⟨ETH_CFG, 4, 1⟩
/-- ETH_CFG.EV_EN, RW. -/
@[reducible] def ETH_CFG.EV_EN : Field := ⟨ETH_CFG, 5, 1⟩
/-- ETH_CFG.LINK, RO. -/
@[reducible] def ETH_CFG.LINK : Field := ⟨ETH_CFG, 6, 1⟩
/-- The key of ETH_MAC_LO. -/
@[reducible] def ETH_MAC_LO : Nat := 0xf0804
/-- ETH_MAC_LO.MAC, RW. -/
@[reducible] def ETH_MAC_LO.MAC : Field := ⟨ETH_MAC_LO, 0, 32⟩
/-- The key of ETH_MAC_HI. -/
@[reducible] def ETH_MAC_HI : Nat := 0xf0808
/-- ETH_MAC_HI.MAC, RW. -/
@[reducible] def ETH_MAC_HI.MAC : Field := ⟨ETH_MAC_HI, 0, 16⟩
/-- The key of ETH_CNT. -/
@[reducible] def ETH_CNT : Nat := 0xf0818
/-- ETH_CNT.RX_DROP, RO. -/
@[reducible] def ETH_CNT.RX_DROP : Field := ⟨ETH_CNT, 0, 16⟩
/-- ETH_CNT.FCS_ERR, RO. -/
@[reducible] def ETH_CNT.FCS_ERR : Field := ⟨ETH_CNT, 16, 16⟩
/-- The key of AKW_CFG. -/
@[reducible] def AKW_CFG : Nat := 0xf080c
/-- AKW_CFG.ETYPE, RW. -/
@[reducible] def AKW_CFG.ETYPE : Field := ⟨AKW_CFG, 0, 16⟩
/-- AKW_CFG.DOMAIN, RW. -/
@[reducible] def AKW_CFG.DOMAIN : Field := ⟨AKW_CFG, 16, 8⟩
/-- The key of AKW_DELAY. -/
@[reducible] def AKW_DELAY : Nat := 0xf0810
/-- AKW_DELAY.DELAY, RW. -/
@[reducible] def AKW_DELAY.DELAY : Field := ⟨AKW_DELAY, 0, 32⟩
/-- The key of AKW_STALE. -/
@[reducible] def AKW_STALE : Nat := 0xf0814
/-- AKW_STALE.STALE_US, RW. -/
@[reducible] def AKW_STALE.STALE_US : Field := ⟨AKW_STALE, 0, 32⟩
/-- The key of AKW_CNT. -/
@[reducible] def AKW_CNT : Nat := 0xf081c
/-- AKW_CNT.MISSED, RO. -/
@[reducible] def AKW_CNT.MISSED : Field := ⟨AKW_CNT, 0, 16⟩
/-- AKW_CNT.STALE, RO. -/
@[reducible] def AKW_CNT.STALE : Field := ⟨AKW_CNT, 16, 16⟩
/-- The key of KX_CFG. -/
@[reducible] def KX_CFG : Nat := 0x100000
/-- KX_CFG.PRESENT, RW. -/
@[reducible] def KX_CFG.PRESENT : Field := ⟨KX_CFG, 0, 16⟩
/-- KX_CFG.SYNC_OUT, RW. -/
@[reducible] def KX_CFG.SYNC_OUT : Field := ⟨KX_CFG, 16, 2⟩
/-- The key of KX_STAT. -/
@[reducible] def KX_STAT : Nat := 0x100004
/-- KX_STAT.REROUTES, RO. -/
@[reducible] def KX_STAT.REROUTES : Field := ⟨KX_STAT, 0, 16⟩
/-- The key of KX_SYNCDIFF. -/
@[reducible] def KX_SYNCDIFF : Nat := 0x100008
/-- KX_SYNCDIFF.DIFF, RO. -/
@[reducible] def KX_SYNCDIFF.DIFF : Field := ⟨KX_SYNCDIFF, 0, 32⟩
/-- The key of KX_LINK. -/
@[reducible] def KX_LINK (n : Nat) : Nat := 0x100100 + 0x10 * n
/-- KX_LINK.EN, RW. -/
@[reducible] def KX_LINK.EN (n : Nat) : Field := ⟨KX_LINK n, 0, 1⟩
/-- KX_LINK.STATE, RO. -/
@[reducible] def KX_LINK.STATE (n : Nat) : Field := ⟨KX_LINK n, 1, 3⟩
/-- KX_LINK.NEIGH_SLOT, RO. -/
@[reducible] def KX_LINK.NEIGH_SLOT (n : Nat) : Field := ⟨KX_LINK n, 8, 4⟩
/-- KX_LINK.DOWNS, RO. -/
@[reducible] def KX_LINK.DOWNS (n : Nat) : Field := ⟨KX_LINK n, 16, 16⟩
/-- The key of KX_LINK_DLY. -/
@[reducible] def KX_LINK_DLY (n : Nat) : Nat := 0x100104 + 0x10 * n
/-- KX_LINK_DLY.DELAY, RO. -/
@[reducible] def KX_LINK_DLY.DELAY (n : Nat) : Field := ⟨KX_LINK_DLY n, 0, 32⟩
/-- The key of KX_LINK_PEER. -/
@[reducible] def KX_LINK_PEER (n : Nat) : Nat := 0x100108 + 0x10 * n
/-- KX_LINK_PEER.DEVID, RO. -/
@[reducible] def KX_LINK_PEER.DEVID (n : Nat) : Field := ⟨KX_LINK_PEER n, 0, 18⟩
/-- The key of KX_RT. -/
@[reducible] def KX_RT (n : Nat) : Nat := 0x100200 + 0x8 * n
/-- KX_RT.BOARD, RW. -/
@[reducible] def KX_RT.BOARD (n : Nat) : Field := ⟨KX_RT n, 0, 1⟩
/-- KX_RT.OFFB, RW. -/
@[reducible] def KX_RT.OFFB (n : Nat) : Field := ⟨KX_RT n, 1, 1⟩
/-- KX_RT.AKW, RW. -/
@[reducible] def KX_RT.AKW (n : Nat) : Field := ⟨KX_RT n, 2, 1⟩
/-- KX_RT.EQ, RW. -/
@[reducible] def KX_RT.EQ (n : Nat) : Field := ⟨KX_RT n, 3, 1⟩
/-- KX_RT.RX_EN, RW. -/
@[reducible] def KX_RT.RX_EN (n : Nat) : Field := ⟨KX_RT n, 4, 1⟩
/-- KX_RT.LATE, RO. -/
@[reducible] def KX_RT.LATE (n : Nat) : Field := ⟨KX_RT n, 16, 16⟩
/-- The key of KX_RT_EQ. -/
@[reducible] def KX_RT_EQ (n : Nat) : Nat := 0x100204 + 0x8 * n
/-- KX_RT_EQ.EQ_NS, RW. -/
@[reducible] def KX_RT_EQ.EQ_NS (n : Nat) : Field := ⟨KX_RT_EQ n, 0, 32⟩
/-- The key of KX_SP. -/
@[reducible] def KX_SP (n : Nat) : Nat := 0x100300 + 0x10 * n
/-- KX_SP.QUEUE, RW. -/
@[reducible] def KX_SP.QUEUE (n : Nat) : Field := ⟨KX_SP n, 0, 12⟩
/-- KX_SP.EN, RW. -/
@[reducible] def KX_SP.EN (n : Nat) : Field := ⟨KX_SP n, 15, 1⟩
/-- KX_SP.DQ, RW. -/
@[reducible] def KX_SP.DQ (n : Nat) : Field := ⟨KX_SP n, 16, 12⟩
/-- The key of KX_SP_DEST. -/
@[reducible] def KX_SP_DEST (n : Nat) : Nat := 0x100304 + 0x10 * n
/-- KX_SP_DEST.DEST, RW. -/
@[reducible] def KX_SP_DEST.DEST (n : Nat) : Field := ⟨KX_SP_DEST n, 0, 18⟩
/-- The key of KX_SP_STAT. -/
@[reducible] def KX_SP_STAT (n : Nat) : Nat := 0x100308 + 0x10 * n
/-- KX_SP_STAT.CFG_ERR, W1C. -/
@[reducible] def KX_SP_STAT.CFG_ERR (n : Nat) : Field := ⟨KX_SP_STAT n, 0, 1⟩
/-- KX_SP_STAT.GAPS, RO. -/
@[reducible] def KX_SP_STAT.GAPS (n : Nat) : Field := ⟨KX_SP_STAT n, 16, 16⟩
/-- The key of DISP_CTL. -/
@[reducible] def DISP_CTL (n : Nat) : Nat := 0x110000 + 0x400 * n
/-- DISP_CTL.EN, RW. -/
@[reducible] def DISP_CTL.EN (n : Nat) : Field := ⟨DISP_CTL n, 0, 1⟩
/-- DISP_CTL.COMMIT, WO. -/
@[reducible] def DISP_CTL.COMMIT (n : Nat) : Field := ⟨DISP_CTL n, 1, 1⟩
/-- DISP_CTL.EV_VB, RW. -/
@[reducible] def DISP_CTL.EV_VB (n : Nat) : Field := ⟨DISP_CTL n, 2, 1⟩
/-- DISP_CTL.EV_LM, RW. -/
@[reducible] def DISP_CTL.EV_LM (n : Nat) : Field := ⟨DISP_CTL n, 3, 1⟩
/-- DISP_CTL.EV_FD, RW. -/
@[reducible] def DISP_CTL.EV_FD (n : Nat) : Field := ⟨DISP_CTL n, 4, 1⟩
/-- DISP_CTL.SSC, RW. -/
@[reducible] def DISP_CTL.SSC (n : Nat) : Field := ⟨DISP_CTL n, 5, 1⟩
/-- The key of DISP_PCLK. -/
@[reducible] def DISP_PCLK (n : Nat) : Nat := 0x110004 + 0x400 * n
/-- DISP_PCLK.PCLK_KHZ, RW. -/
@[reducible] def DISP_PCLK.PCLK_KHZ (n : Nat) : Field := ⟨DISP_PCLK n, 0, 20⟩
/-- The key of DISP_HTIM. -/
@[reducible] def DISP_HTIM (n : Nat) : Nat := 0x110008 + 0x400 * n
/-- DISP_HTIM.HACTIVE, RW. -/
@[reducible] def DISP_HTIM.HACTIVE (n : Nat) : Field := ⟨DISP_HTIM n, 0, 16⟩
/-- DISP_HTIM.HTOTAL, RW. -/
@[reducible] def DISP_HTIM.HTOTAL (n : Nat) : Field := ⟨DISP_HTIM n, 16, 16⟩
/-- The key of DISP_HSYNC. -/
@[reducible] def DISP_HSYNC (n : Nat) : Nat := 0x11000c + 0x400 * n
/-- DISP_HSYNC.HFP, RW. -/
@[reducible] def DISP_HSYNC.HFP (n : Nat) : Field := ⟨DISP_HSYNC n, 0, 16⟩
/-- DISP_HSYNC.HSW, RW. -/
@[reducible] def DISP_HSYNC.HSW (n : Nat) : Field := ⟨DISP_HSYNC n, 16, 15⟩
/-- DISP_HSYNC.HPOL, RW. -/
@[reducible] def DISP_HSYNC.HPOL (n : Nat) : Field := ⟨DISP_HSYNC n, 31, 1⟩
/-- The key of DISP_VTIM. -/
@[reducible] def DISP_VTIM (n : Nat) : Nat := 0x110010 + 0x400 * n
/-- DISP_VTIM.VACTIVE, RW. -/
@[reducible] def DISP_VTIM.VACTIVE (n : Nat) : Field := ⟨DISP_VTIM n, 0, 16⟩
/-- DISP_VTIM.VTOTAL, RW. -/
@[reducible] def DISP_VTIM.VTOTAL (n : Nat) : Field := ⟨DISP_VTIM n, 16, 16⟩
/-- The key of DISP_VSYNC. -/
@[reducible] def DISP_VSYNC (n : Nat) : Nat := 0x110014 + 0x400 * n
/-- DISP_VSYNC.VFP, RW. -/
@[reducible] def DISP_VSYNC.VFP (n : Nat) : Field := ⟨DISP_VSYNC n, 0, 16⟩
/-- DISP_VSYNC.VSW, RW. -/
@[reducible] def DISP_VSYNC.VSW (n : Nat) : Field := ⟨DISP_VSYNC n, 16, 15⟩
/-- DISP_VSYNC.VPOL, RW. -/
@[reducible] def DISP_VSYNC.VPOL (n : Nat) : Field := ⟨DISP_VSYNC n, 31, 1⟩
/-- The key of DISP_BG. -/
@[reducible] def DISP_BG (n : Nat) : Nat := 0x110018 + 0x400 * n
/-- DISP_BG.BG, RW. -/
@[reducible] def DISP_BG.BG (n : Nat) : Field := ⟨DISP_BG n, 0, 24⟩
/-- The key of DISP_LINE. -/
@[reducible] def DISP_LINE (n : Nat) : Nat := 0x11001c + 0x400 * n
/-- DISP_LINE.LINE, RW. -/
@[reducible] def DISP_LINE.LINE (n : Nat) : Field := ⟨DISP_LINE n, 0, 16⟩
/-- The key of DISP_STATUS. -/
@[reducible] def DISP_STATUS (n : Nat) : Nat := 0x110020 + 0x400 * n
/-- DISP_STATUS.STATE, RO. -/
@[reducible] def DISP_STATUS.STATE (n : Nat) : Field := ⟨DISP_STATUS n, 0, 3⟩
/-- DISP_STATUS.HPD, RO. -/
@[reducible] def DISP_STATUS.HPD (n : Nat) : Field := ⟨DISP_STATUS n, 3, 1⟩
/-- DISP_STATUS.COMMIT_PEND, RO. -/
@[reducible] def DISP_STATUS.COMMIT_PEND (n : Nat) : Field := ⟨DISP_STATUS n, 4, 1⟩
/-- DISP_STATUS.CFG_ERR, W1C. -/
@[reducible] def DISP_STATUS.CFG_ERR (n : Nat) : Field := ⟨DISP_STATUS n, 5, 1⟩
/-- DISP_STATUS.LANES, RO. -/
@[reducible] def DISP_STATUS.LANES (n : Nat) : Field := ⟨DISP_STATUS n, 6, 2⟩
/-- DISP_STATUS.RATE, RO. -/
@[reducible] def DISP_STATUS.RATE (n : Nat) : Field := ⟨DISP_STATUS n, 8, 3⟩
/-- DISP_STATUS.FRAMES, RO. -/
@[reducible] def DISP_STATUS.FRAMES (n : Nat) : Field := ⟨DISP_STATUS n, 16, 16⟩
/-- The key of DISP_ERR. -/
@[reducible] def DISP_ERR (n : Nat) : Nat := 0x110024 + 0x400 * n
/-- DISP_ERR.UNDERRUN, RO. -/
@[reducible] def DISP_ERR.UNDERRUN (n : Nat) : Field := ⟨DISP_ERR n, 0, 16⟩
/-- DISP_ERR.STALE, RO. -/
@[reducible] def DISP_ERR.STALE (n : Nat) : Field := ⟨DISP_ERR n, 16, 16⟩
/-- The key of DISP_POS. -/
@[reducible] def DISP_POS (n : Nat) : Nat := 0x110028 + 0x400 * n
/-- DISP_POS.SCANLINE, RO. -/
@[reducible] def DISP_POS.SCANLINE (n : Nat) : Field := ⟨DISP_POS n, 0, 16⟩
/-- The key of PL_CFG. -/
@[reducible] def PL_CFG (n m : Nat) : Nat := 0x110100 + 0x400 * n + 0x20 * m
/-- PL_CFG.KIND, RW. -/
@[reducible] def PL_CFG.KIND (n m : Nat) : Field := ⟨PL_CFG n m, 0, 2⟩
/-- PL_CFG.LOGMAP, RW. -/
@[reducible] def PL_CFG.LOGMAP (n m : Nat) : Field := ⟨PL_CFG n m, 2, 1⟩
/-- PL_CFG.MAXPOOL, RW. -/
@[reducible] def PL_CFG.MAXPOOL (n m : Nat) : Field := ⟨PL_CFG n m, 3, 1⟩
/-- PL_CFG.SHIFT, RW. -/
@[reducible] def PL_CFG.SHIFT (n m : Nat) : Field := ⟨PL_CFG n m, 4, 4⟩
/-- PL_CFG.SRC, RW. -/
@[reducible] def PL_CFG.SRC (n m : Nat) : Field := ⟨PL_CFG n m, 8, 5⟩
/-- The key of PL_POS. -/
@[reducible] def PL_POS (n m : Nat) : Nat := 0x110104 + 0x400 * n + 0x20 * m
/-- PL_POS.X, RW. -/
@[reducible] def PL_POS.X (n m : Nat) : Field := ⟨PL_POS n m, 0, 16⟩
/-- PL_POS.Y, RW. -/
@[reducible] def PL_POS.Y (n m : Nat) : Field := ⟨PL_POS n m, 16, 16⟩
/-- The key of PL_SIZE. -/
@[reducible] def PL_SIZE (n m : Nat) : Nat := 0x110108 + 0x400 * n + 0x20 * m
/-- PL_SIZE.W, RW. -/
@[reducible] def PL_SIZE.W (n m : Nat) : Field := ⟨PL_SIZE n m, 0, 16⟩
/-- PL_SIZE.H, RW. -/
@[reducible] def PL_SIZE.H (n m : Nat) : Field := ⟨PL_SIZE n m, 16, 16⟩
/-- The key of PL_SRCX. -/
@[reducible] def PL_SRCX (n m : Nat) : Nat := 0x11010c + 0x400 * n + 0x20 * m
/-- PL_SRCX.FIRST, RW. -/
@[reducible] def PL_SRCX.FIRST (n m : Nat) : Field := ⟨PL_SRCX n m, 0, 16⟩
/-- PL_SRCX.LAST, RW. -/
@[reducible] def PL_SRCX.LAST (n m : Nat) : Field := ⟨PL_SRCX n m, 16, 16⟩
/-- The key of PL_SRCY. -/
@[reducible] def PL_SRCY (n m : Nat) : Nat := 0x110110 + 0x400 * n + 0x20 * m
/-- PL_SRCY.ROW0_BOTTOM, RW. -/
@[reducible] def PL_SRCY.ROW0_BOTTOM (n m : Nat) : Field := ⟨PL_SRCY n m, 0, 16⟩
/-- PL_SRCY.ROW1_SPAN, RW. -/
@[reducible] def PL_SRCY.ROW1_SPAN (n m : Nat) : Field := ⟨PL_SRCY n m, 16, 16⟩
/-- The key of PL_TRC. -/
@[reducible] def PL_TRC (n m : Nat) : Nat := 0x110114 + 0x400 * n + 0x20 * m
/-- PL_TRC.ENG0, RW. -/
@[reducible] def PL_TRC.ENG0 (n m : Nat) : Field := ⟨PL_TRC n m, 0, 5⟩
/-- PL_TRC.ENG1, RW. -/
@[reducible] def PL_TRC.ENG1 (n m : Nat) : Field := ⟨PL_TRC n m, 5, 5⟩
/-- PL_TRC.ENG2, RW. -/
@[reducible] def PL_TRC.ENG2 (n m : Nat) : Field := ⟨PL_TRC n m, 10, 5⟩
/-- PL_TRC.ENG3, RW. -/
@[reducible] def PL_TRC.ENG3 (n m : Nat) : Field := ⟨PL_TRC n m, 15, 5⟩
/-- PL_TRC.TEN, RW. -/
@[reducible] def PL_TRC.TEN (n m : Nat) : Field := ⟨PL_TRC n m, 20, 4⟩
/-- The key of PL_TCOL. -/
@[reducible] def PL_TCOL (n m : Nat) : Nat := 0x110118 + 0x400 * n + 0x20 * m
/-- PL_TCOL.TCOL0, RW. -/
@[reducible] def PL_TCOL.TCOL0 (n m : Nat) : Field := ⟨PL_TCOL n m, 0, 8⟩
/-- PL_TCOL.TCOL1, RW. -/
@[reducible] def PL_TCOL.TCOL1 (n m : Nat) : Field := ⟨PL_TCOL n m, 8, 8⟩
/-- PL_TCOL.TCOL2, RW. -/
@[reducible] def PL_TCOL.TCOL2 (n m : Nat) : Field := ⟨PL_TCOL n m, 16, 8⟩
/-- PL_TCOL.TCOL3, RW. -/
@[reducible] def PL_TCOL.TCOL3 (n m : Nat) : Field := ⟨PL_TCOL n m, 24, 8⟩
/-- The key of LK_STATUS. -/
@[reducible] def LK_STATUS (n : Nat) : Nat := 0x120000 + 0x4 * n
/-- LK_STATUS.STATE, RO. -/
@[reducible] def LK_STATUS.STATE (n : Nat) : Field := ⟨LK_STATUS n, 0, 3⟩
/-- LK_STATUS.WDOG, RO. -/
@[reducible] def LK_STATUS.WDOG (n : Nat) : Field := ⟨LK_STATUS n, 16, 8⟩
/-- The key of LK_FWVER. -/
@[reducible] def LK_FWVER : Nat := 0x120010
/-- LK_FWVER.VERSION, RO. -/
@[reducible] def LK_FWVER.VERSION : Field := ⟨LK_FWVER, 0, 32⟩
/-- The key of LK_BOOT. -/
@[reducible] def LK_BOOT : Nat := 0x120014
/-- LK_BOOT.SLOT, RO. -/
@[reducible] def LK_BOOT.SLOT : Field := ⟨LK_BOOT, 0, 1⟩
/-- LK_BOOT.TRIAL, RO. -/
@[reducible] def LK_BOOT.TRIAL : Field := ⟨LK_BOOT, 1, 1⟩
/-- LK_BOOT.FALLBACK, RO. -/
@[reducible] def LK_BOOT.FALLBACK : Field := ⟨LK_BOOT, 2, 1⟩
/-- LK_BOOT.RECOVERY, RO. -/
@[reducible] def LK_BOOT.RECOVERY : Field := ⟨LK_BOOT, 3, 1⟩
/-- LK_BOOT.STRAP_BOOT, RO. -/
@[reducible] def LK_BOOT.STRAP_BOOT : Field := ⟨LK_BOOT, 4, 2⟩
/-- LK_BOOT.ACT, RO. -/
@[reducible] def LK_BOOT.ACT : Field := ⟨LK_BOOT, 6, 2⟩
/-- The key of MON_CFG. -/
@[reducible] def MON_CFG : Nat := 0x120020
/-- MON_CFG.BAUD, RW. -/
@[reducible] def MON_CFG.BAUD : Field := ⟨MON_CFG, 0, 2⟩
/-- MON_CFG.PRESENT, RO. -/
@[reducible] def MON_CFG.PRESENT : Field := ⟨MON_CFG, 2, 1⟩
/-- MON_CFG.RX_LOST, RO. -/
@[reducible] def MON_CFG.RX_LOST : Field := ⟨MON_CFG, 16, 16⟩
/-- The key of EV_CTL. -/
@[reducible] def EV_CTL : Nat := 0x130000
/-- EV_CTL.CONTAIN_US, RW. -/
@[reducible] def EV_CTL.CONTAIN_US : Field := ⟨EV_CTL, 0, 20⟩
/-- The key of EV_STAT. -/
@[reducible] def EV_STAT : Nat := 0x130004
/-- EV_STAT.WAIT0, RO. -/
@[reducible] def EV_STAT.WAIT0 : Field := ⟨EV_STAT, 0, 11⟩
/-- EV_STAT.WAIT1, RO. -/
@[reducible] def EV_STAT.WAIT1 : Field := ⟨EV_STAT, 11, 11⟩
/-- EV_STAT.ROOTS, RO. -/
@[reducible] def EV_STAT.ROOTS : Field := ⟨EV_STAT, 22, 5⟩
/-- The key of EV_ROOT. -/
@[reducible] def EV_ROOT : Nat := 0x130008
/-- EV_ROOT.SOURCE, RO. -/
@[reducible] def EV_ROOT.SOURCE : Field := ⟨EV_ROOT, 0, 9⟩
/-- EV_ROOT.CONSEQ, RO. -/
@[reducible] def EV_ROOT.CONSEQ : Field := ⟨EV_ROOT, 16, 16⟩
/-- The key of EV_INJECT. -/
@[reducible] def EV_INJECT : Nat := 0x13000c
/-- EV_INJECT.SOURCE, WO. -/
@[reducible] def EV_INJECT.SOURCE : Field := ⟨EV_INJECT, 0, 9⟩
/-- EV_INJECT.KEY, WO. -/
@[reducible] def EV_INJECT.KEY : Field := ⟨EV_INJECT, 16, 16⟩
/-- The key of EV_CFG. -/
@[reducible] def EV_CFG (n : Nat) : Nat := 0x131000 + 0x4 * n
/-- EV_CFG.EN, RW. -/
@[reducible] def EV_CFG.EN (n : Nat) : Field := ⟨EV_CFG n, 0, 1⟩
/-- EV_CFG.DEST, RW. -/
@[reducible] def EV_CFG.DEST (n : Nat) : Field := ⟨EV_CFG n, 1, 2⟩
/-- The key of EV_CNT. -/
@[reducible] def EV_CNT (n : Nat) : Nat := 0x132000 + 0x4 * n
/-- EV_CNT.COUNT, RO. -/
@[reducible] def EV_CNT.COUNT (n : Nat) : Field := ⟨EV_CNT n, 0, 32⟩
/-- The key of PCIE_LINK. -/
@[reducible] def PCIE_LINK : Nat := 0x150000
/-- PCIE_LINK.WIDTH, RO. -/
@[reducible] def PCIE_LINK.WIDTH : Field := ⟨PCIE_LINK, 0, 5⟩
/-- PCIE_LINK.RATE, RO. -/
@[reducible] def PCIE_LINK.RATE : Field := ⟨PCIE_LINK, 5, 3⟩
/-- PCIE_LINK.FLIT, RO. -/
@[reducible] def PCIE_LINK.FLIT : Field := ⟨PCIE_LINK, 8, 1⟩
/-- PCIE_LINK.DEGRADED, W1C. -/
@[reducible] def PCIE_LINK.DEGRADED : Field := ⟨PCIE_LINK, 9, 1⟩
/-- PCIE_LINK.PM, RO. -/
@[reducible] def PCIE_LINK.PM : Field := ⟨PCIE_LINK, 10, 2⟩
/-- The key of PCIE_BADACC. -/
@[reducible] def PCIE_BADACC : Nat := 0x150004
/-- PCIE_BADACC.OFFSET, RO. -/
@[reducible] def PCIE_BADACC.OFFSET : Field := ⟨PCIE_BADACC, 0, 24⟩
/-- PCIE_BADACC.FN, RO. -/
@[reducible] def PCIE_BADACC.FN : Field := ⟨PCIE_BADACC, 24, 1⟩
/-- The key of PCIE_VEC. -/
@[reducible] def PCIE_VEC (n : Nat) : Nat := 0x150100 + 0x4 * n
/-- PCIE_VEC.VEC, RW. -/
@[reducible] def PCIE_VEC.VEC (n : Nat) : Field := ⟨PCIE_VEC n, 0, 6⟩
/-- PCIE_VEC.EN, RW. -/
@[reducible] def PCIE_VEC.EN (n : Nat) : Field := ⟨PCIE_VEC n, 6, 1⟩
/-- The key of PCIE_VECMOD. -/
@[reducible] def PCIE_VECMOD (n m : Nat) : Nat := 0x150400 + 0x100 * n + 0x4 * m
/-- PCIE_VECMOD.MOD, RW. -/
@[reducible] def PCIE_VECMOD.MOD (n m : Nat) : Field := ⟨PCIE_VECMOD n m, 0, 16⟩
/-- The key of WAKE. -/
@[reducible] def WAKE : Nat := 0x2000000
/-- WAKE.WAKE, WO. -/
@[reducible] def WAKE.WAKE : Field := ⟨0x2000000, 0, 1⟩
/-- The key of TIME_INC. -/
@[reducible] def TIME_INC : Nat := 0x2000100
/-- TIME_INC.INC, WO. -/
@[reducible] def TIME_INC.INC : Field := ⟨TIME_INC, 0, 32⟩
/-- The key of TIME_SERVO. -/
@[reducible] def TIME_SERVO : Nat := 0x2000104
/-- TIME_SERVO.LOCKED, RW. -/
@[reducible] def TIME_SERVO.LOCKED : Field := ⟨TIME_SERVO, 0, 1⟩
/-- The key of ETH_TXCTL. -/
@[reducible] def ETH_TXCTL (n : Nat) : Nat := 0x2000140 + 0x20 * n
/-- ETH_TXCTL.LEN, RW. -/
@[reducible] def ETH_TXCTL.LEN (n : Nat) : Field := ⟨ETH_TXCTL n, 0, 11⟩
/-- ETH_TXCTL.OS, RW. -/
@[reducible] def ETH_TXCTL.OS (n : Nat) : Field := ⟨ETH_TXCTL n, 12, 2⟩
/-- ETH_TXCTL.DONE, W1C. -/
@[reducible] def ETH_TXCTL.DONE (n : Nat) : Field := ⟨ETH_TXCTL n, 14, 1⟩
/-- ETH_TXCTL.GO, WO. -/
@[reducible] def ETH_TXCTL.GO (n : Nat) : Field := ⟨ETH_TXCTL n, 15, 1⟩
/-- ETH_TXCTL.PTP_OFF, RW. -/
@[reducible] def ETH_TXCTL.PTP_OFF (n : Nat) : Field := ⟨ETH_TXCTL n, 16, 8⟩
/-- ETH_TXCTL.UDP_OFF, RW. -/
@[reducible] def ETH_TXCTL.UDP_OFF (n : Nat) : Field := ⟨ETH_TXCTL n, 24, 8⟩
/-- The key of ETH_TXT0. -/
@[reducible] def ETH_TXT0 (n : Nat) : Nat := 0x2000144 + 0x20 * n
/-- ETH_TXT0.T_LO, RO. -/
@[reducible] def ETH_TXT0.T_LO (n : Nat) : Field := ⟨ETH_TXT0 n, 0, 32⟩
/-- The key of ETH_TXT1. -/
@[reducible] def ETH_TXT1 (n : Nat) : Nat := 0x2000148 + 0x20 * n
/-- ETH_TXT1.T_MID, RO. -/
@[reducible] def ETH_TXT1.T_MID (n : Nat) : Field := ⟨ETH_TXT1 n, 0, 32⟩
/-- The key of ETH_TXT2. -/
@[reducible] def ETH_TXT2 (n : Nat) : Nat := 0x200014c + 0x20 * n
/-- ETH_TXT2.T_HI, RO. -/
@[reducible] def ETH_TXT2.T_HI (n : Nat) : Field := ⟨ETH_TXT2 n, 0, 32⟩
/-- The key of ETH_RXSTAT. -/
@[reducible] def ETH_RXSTAT (n : Nat) : Nat := 0x2000180 + 0x10 * n
/-- ETH_RXSTAT.OWN, RW. -/
@[reducible] def ETH_RXSTAT.OWN (n : Nat) : Field := ⟨ETH_RXSTAT n, 0, 1⟩
/-- ETH_RXSTAT.LEN, RO. -/
@[reducible] def ETH_RXSTAT.LEN (n : Nat) : Field := ⟨ETH_RXSTAT n, 16, 11⟩
/-- The key of ETH_RXT0. -/
@[reducible] def ETH_RXT0 (n : Nat) : Nat := 0x2000184 + 0x10 * n
/-- ETH_RXT0.T_LO, RO. -/
@[reducible] def ETH_RXT0.T_LO (n : Nat) : Field := ⟨ETH_RXT0 n, 0, 32⟩
/-- The key of ETH_RXT1. -/
@[reducible] def ETH_RXT1 (n : Nat) : Nat := 0x2000188 + 0x10 * n
/-- ETH_RXT1.T_MID, RO. -/
@[reducible] def ETH_RXT1.T_MID (n : Nat) : Field := ⟨ETH_RXT1 n, 0, 32⟩
/-- The key of ETH_RXT2. -/
@[reducible] def ETH_RXT2 (n : Nat) : Nat := 0x200018c + 0x10 * n
/-- ETH_RXT2.T_HI, RO. -/
@[reducible] def ETH_RXT2.T_HI (n : Nat) : Field := ⟨ETH_RXT2 n, 0, 32⟩
/-- The key of NS_IN. -/
@[reducible] def NS_IN (n : Nat) : Nat := 0x2000200 + 0x10 * n
/-- NS_IN.WORD, WO. -/
@[reducible] def NS_IN.WORD (n : Nat) : Field := ⟨NS_IN n, 0, 32⟩
/-- The key of NS_OUT. -/
@[reducible] def NS_OUT (n : Nat) : Nat := 0x2000204 + 0x10 * n
/-- NS_OUT.WORD, RO. -/
@[reducible] def NS_OUT.WORD (n : Nat) : Field := ⟨NS_OUT n, 0, 32⟩
/-- The key of NS_STAT. -/
@[reducible] def NS_STAT (n : Nat) : Nat := 0x2000208 + 0x10 * n
/-- NS_STAT.IN_FULL, RO. -/
@[reducible] def NS_STAT.IN_FULL (n : Nat) : Field := ⟨NS_STAT n, 0, 1⟩
/-- NS_STAT.OUT_FULL, RO. -/
@[reducible] def NS_STAT.OUT_FULL (n : Nat) : Field := ⟨NS_STAT n, 1, 1⟩
/-- NS_STAT.IN_LOST, W1C. -/
@[reducible] def NS_STAT.IN_LOST (n : Nat) : Field := ⟨NS_STAT n, 2, 1⟩
/-- NS_STAT.RETRACTED, W1C. -/
@[reducible] def NS_STAT.RETRACTED (n : Nat) : Field := ⟨NS_STAT n, 3, 1⟩
/-- NS_STAT.FW_STATE, RO. -/
@[reducible] def NS_STAT.FW_STATE (n : Nat) : Field := ⟨NS_STAT n, 4, 4⟩
/-- NS_STAT.EPOCH, RO. -/
@[reducible] def NS_STAT.EPOCH (n : Nat) : Field := ⟨NS_STAT n, 16, 16⟩
/-- The key of NS_CTL. -/
@[reducible] def NS_CTL (n : Nat) : Nat := 0x200020c + 0x10 * n
/-- NS_CTL.IRQ_OUT, RW. -/
@[reducible] def NS_CTL.IRQ_OUT (n : Nat) : Field := ⟨NS_CTL n, 0, 1⟩
/-- NS_CTL.IRQ_IN, RW. -/
@[reducible] def NS_CTL.IRQ_IN (n : Nat) : Field := ⟨NS_CTL n, 1, 1⟩
/-- NS_CTL.RETRACT, WO. -/
@[reducible] def NS_CTL.RETRACT (n : Nat) : Field := ⟨NS_CTL n, 2, 1⟩
/-- The key of S_IN. -/
@[reducible] def S_IN (n : Nat) : Nat := 0x3000000 + 0x10 * n
/-- S_IN.WORD, WO. -/
@[reducible] def S_IN.WORD (n : Nat) : Field := ⟨S_IN n, 0, 32⟩
/-- The key of S_OUT. -/
@[reducible] def S_OUT (n : Nat) : Nat := 0x3000004 + 0x10 * n
/-- S_OUT.WORD, RO. -/
@[reducible] def S_OUT.WORD (n : Nat) : Field := ⟨S_OUT n, 0, 32⟩
/-- The key of S_STAT. -/
@[reducible] def S_STAT (n : Nat) : Nat := 0x3000008 + 0x10 * n
/-- S_STAT.IN_FULL, RO. -/
@[reducible] def S_STAT.IN_FULL (n : Nat) : Field := ⟨S_STAT n, 0, 1⟩
/-- S_STAT.OUT_FULL, RO. -/
@[reducible] def S_STAT.OUT_FULL (n : Nat) : Field := ⟨S_STAT n, 1, 1⟩
/-- S_STAT.IN_LOST, W1C. -/
@[reducible] def S_STAT.IN_LOST (n : Nat) : Field := ⟨S_STAT n, 2, 1⟩
/-- S_STAT.RETRACTED, W1C. -/
@[reducible] def S_STAT.RETRACTED (n : Nat) : Field := ⟨S_STAT n, 3, 1⟩
/-- S_STAT.FW_STATE, RO. -/
@[reducible] def S_STAT.FW_STATE (n : Nat) : Field := ⟨S_STAT n, 4, 4⟩
/-- S_STAT.EPOCH, RO. -/
@[reducible] def S_STAT.EPOCH (n : Nat) : Field := ⟨S_STAT n, 16, 16⟩
/-- The key of S_CTL. -/
@[reducible] def S_CTL (n : Nat) : Nat := 0x300000c + 0x10 * n
/-- S_CTL.IRQ_OUT, RW. -/
@[reducible] def S_CTL.IRQ_OUT (n : Nat) : Field := ⟨S_CTL n, 0, 1⟩
/-- S_CTL.IRQ_IN, RW. -/
@[reducible] def S_CTL.IRQ_IN (n : Nat) : Field := ⟨S_CTL n, 1, 1⟩
/-- S_CTL.RETRACT, WO. -/
@[reducible] def S_CTL.RETRACT (n : Nat) : Field := ⟨S_CTL n, 2, 1⟩
/-- The key of MGMT_TOKEN. -/
@[reducible] def MGMT_TOKEN : Nat := 0x3000100
/-- MGMT_TOKEN.REQ, WO. -/
@[reducible] def MGMT_TOKEN.REQ : Field := ⟨MGMT_TOKEN, 0, 1⟩
/-- MGMT_TOKEN.REL, WO. -/
@[reducible] def MGMT_TOKEN.REL : Field := ⟨MGMT_TOKEN, 1, 1⟩
/-- MGMT_TOKEN.FORCE, WO. -/
@[reducible] def MGMT_TOKEN.FORCE : Field := ⟨MGMT_TOKEN, 2, 1⟩
/-- MGMT_TOKEN.KEY, WO. -/
@[reducible] def MGMT_TOKEN.KEY : Field := ⟨MGMT_TOKEN, 16, 16⟩
/-- The key of MGMT_ADDR. -/
@[reducible] def MGMT_ADDR : Nat := 0x3000104
/-- MGMT_ADDR.OFFSET, RW. -/
@[reducible] def MGMT_ADDR.OFFSET : Field := ⟨MGMT_ADDR, 2, 22⟩
/-- The key of MGMT_DATA. -/
@[reducible] def MGMT_DATA : Nat := 0x3000108
/-- MGMT_DATA.DATA, RW. -/
@[reducible] def MGMT_DATA.DATA : Field := ⟨MGMT_DATA, 0, 32⟩
/-- The key of MGMT_MON. -/
@[reducible] def MGMT_MON : Nat := 0x3000318
/-- MGMT_MON.MON_OFF, RW. -/
@[reducible] def MGMT_MON.MON_OFF : Field := ⟨MGMT_MON, 0, 1⟩
/-- The key of ER1_BASE_LO. -/
@[reducible] def ER1_BASE_LO : Nat := 0x3000200
/-- ER1_BASE_LO.ADDR_LO, RW. -/
@[reducible] def ER1_BASE_LO.ADDR_LO : Field := ⟨ER1_BASE_LO, 6, 26⟩
/-- The key of ER1_BASE_HI. -/
@[reducible] def ER1_BASE_HI : Nat := 0x3000204
/-- ER1_BASE_HI.ADDR_HI, RW. -/
@[reducible] def ER1_BASE_HI.ADDR_HI : Field := ⟨ER1_BASE_HI, 0, 32⟩
/-- The key of ER1_CFG. -/
@[reducible] def ER1_CFG : Nat := 0x3000208
/-- ER1_CFG.EN, RW. -/
@[reducible] def ER1_CFG.EN : Field := ⟨ER1_CFG, 0, 1⟩
/-- ER1_CFG.BUSY, RO. -/
@[reducible] def ER1_CFG.BUSY : Field := ⟨ER1_CFG, 1, 1⟩
/-- ER1_CFG.LOG2SIZE, RW. -/
@[reducible] def ER1_CFG.LOG2SIZE : Field := ⟨ER1_CFG, 2, 5⟩
/-- ER1_CFG.TAIL_ERR, W1C. -/
@[reducible] def ER1_CFG.TAIL_ERR : Field := ⟨ER1_CFG, 7, 1⟩
/-- ER1_CFG.CFG_ERR, W1C. -/
@[reducible] def ER1_CFG.CFG_ERR : Field := ⟨ER1_CFG, 8, 1⟩
/-- The key of ER1_TAIL. -/
@[reducible] def ER1_TAIL : Nat := 0x300020c
/-- ER1_TAIL.TAIL, RW. -/
@[reducible] def ER1_TAIL.TAIL : Field := ⟨ER1_TAIL, 0, 32⟩
/-- The key of ER1_DONE. -/
@[reducible] def ER1_DONE : Nat := 0x3000210
/-- ER1_DONE.DONE, RO. -/
@[reducible] def ER1_DONE.DONE : Field := ⟨ER1_DONE, 0, 32⟩
/-- The key of FWS_ADDR_LO. -/
@[reducible] def FWS_ADDR_LO : Nat := 0x3000300
/-- FWS_ADDR_LO.ADDR_LO, RW. -/
@[reducible] def FWS_ADDR_LO.ADDR_LO : Field := ⟨FWS_ADDR_LO, 6, 26⟩
/-- The key of FWS_ADDR_HI. -/
@[reducible] def FWS_ADDR_HI : Nat := 0x3000304
/-- FWS_ADDR_HI.ADDR_HI, RW. -/
@[reducible] def FWS_ADDR_HI.ADDR_HI : Field := ⟨FWS_ADDR_HI, 0, 32⟩
/-- The key of FWS_LEN. -/
@[reducible] def FWS_LEN : Nat := 0x3000308
/-- FWS_LEN.LEN, RW. -/
@[reducible] def FWS_LEN.LEN : Field := ⟨FWS_LEN, 0, 21⟩
/-- The key of FWS_CTL. -/
@[reducible] def FWS_CTL : Nat := 0x300030c
/-- FWS_CTL.OP, RW. -/
@[reducible] def FWS_CTL.OP : Field := ⟨FWS_CTL, 0, 2⟩
/-- FWS_CTL.GO, WO. -/
@[reducible] def FWS_CTL.GO : Field := ⟨FWS_CTL, 2, 1⟩
/-- The key of FWS_STATUS. -/
@[reducible] def FWS_STATUS : Nat := 0x3000310
/-- FWS_STATUS.STATE, RO. -/
@[reducible] def FWS_STATUS.STATE : Field := ⟨FWS_STATUS, 0, 3⟩
/-- FWS_STATUS.RESULT, RO. -/
@[reducible] def FWS_STATUS.RESULT : Field := ⟨FWS_STATUS, 8, 8⟩
/-- The key of FWS_VER. -/
@[reducible] def FWS_VER : Nat := 0x3000314
/-- FWS_VER.VERSION, RO. -/
@[reducible] def FWS_VER.VERSION : Field := ⟨FWS_VER, 0, 32⟩
/-- The key of PNL_CFG. -/
@[reducible] def PNL_CFG : Nat := 0x3000400
/-- PNL_CFG.EN, RW. -/
@[reducible] def PNL_CFG.EN : Field := ⟨PNL_CFG, 0, 1⟩
/-- PNL_CFG.WIRES, RW. -/
@[reducible] def PNL_CFG.WIRES : Field := ⟨PNL_CFG, 1, 1⟩
/-- PNL_CFG.SCL_MHZ, RW. -/
@[reducible] def PNL_CFG.SCL_MHZ : Field := ⟨PNL_CFG, 3, 5⟩
/-- PNL_CFG.WIDTH, RW. -/
@[reducible] def PNL_CFG.WIDTH : Field := ⟨PNL_CFG, 8, 9⟩
/-- PNL_CFG.HEIGHT, RW. -/
@[reducible] def PNL_CFG.HEIGHT : Field := ⟨PNL_CFG, 17, 9⟩
/-- The key of PNL_PERIOD. -/
@[reducible] def PNL_PERIOD : Nat := 0x3000404
/-- PNL_PERIOD.PERIOD_MS, RW. -/
@[reducible] def PNL_PERIOD.PERIOD_MS : Field := ⟨PNL_PERIOD, 0, 16⟩
/-- The key of PNL_STATUS. -/
@[reducible] def PNL_STATUS : Nat := 0x3000408
/-- PNL_STATUS.STATE, RO. -/
@[reducible] def PNL_STATUS.STATE : Field := ⟨PNL_STATUS, 0, 2⟩
/-- PNL_STATUS.OWNER, RO. -/
@[reducible] def PNL_STATUS.OWNER : Field := ⟨PNL_STATUS, 2, 1⟩
/-- PNL_STATUS.ERR, W1C. -/
@[reducible] def PNL_STATUS.ERR : Field := ⟨PNL_STATUS, 3, 1⟩
/-- PNL_STATUS.PUSHES, RO. -/
@[reducible] def PNL_STATUS.PUSHES : Field := ⟨PNL_STATUS, 16, 16⟩

end R

/-- The instance of family `r` that lies at `key`, as its two indices (R675). -/
def RegDef.index? (r : RegDef) (key : Nat) : Option (Nat × Nat) :=
  if key < r.base then none
  else
    let i := (key - r.base) / r.stride
    let j := (key - r.base) % r.stride / r.stride2
    if i < r.count ∧ j < r.count2 ∧ (key - r.base) % r.stride % r.stride2 = 0 then some (i, j) else none

/-- The register a key belongs to: none for an unassigned offset (R675, R676). The instances that their own blocks
reserve (SG_SKEW(4)–SG_SKEW(7), PCIE_VEC of Table 11-3's reserved sources) read 0 and ignore writes (R677), which is what
an unassigned offset does. -/
def findReg (key : Nat) : Option RegDef :=
  if (0xC0108 ≤ key ∧ key ≤ 0xC01C8 ∧ key % 0x40 = 8)
    ∨ (0x1502D8 ≤ key ∧ key < 0x150300) ∨ (0x150318 ≤ key ∧ key < 0x150340) then none
  else (regsOfBlock key).find? (fun r => (r.index? key).isSome)

/-- Table 11-3: the vector that interrupt source `i` is steered to at reset. -/
def vecReset (i : Nat) : Nat :=
  if i ≤ 16 then i
  else if i ≤ 80 then 17 + (i - 17) % 32
  else if i ≤ 112 then 49 + (i - 81) % 8
  else if i ≤ 117 then 57 + (i - 113)
  else if 128 ≤ i ∧ i ≤ 133 then i - 128
  else 0

/-- R618: the rings an event source goes to at reset: both for OWNER_TAKEN (164) and sources 480–486, else ER0. -/
def destReset (src : Nat) : Nat :=
  if src = 164 ∨ (480 ≤ src ∧ src ≤ 486) then 2 else 0

/-- The fields' reset values put in their places. -/
def RegDef.resetWord (r : RegDef) : Nat := r.fields.foldl (fun w f => w + f.reset * 2 ^ f.lsb) 0

/-- R683: what a register holds at reset release, before the straps are applied (`applyStraps`): the Reset column; for
PCIE_VEC the steering of Table 11-3, for EV_CFG the DEST of R618, for the die identifier the fuses. -/
def regReset (key : Nat) : Word :=
  if 0x150100 ≤ key ∧ key < 0x150340 ∧ (findReg key).isSome then
    BitVec.ofNat 32 (0x40 + vecReset ((key - 0x150100) / 4))
  else if 0x131000 ≤ key ∧ key < 0x131800 ∧ (findReg key).isSome then
    BitVec.ofNat 32 (1 + 2 * destReset ((key - 0x131000) / 4))
  else if key = R.GLOBAL_DIEID_LO then Config.dieId.setWidth 32
  else if key = R.GLOBAL_DIEID_HI then (Config.dieId >>> 32).setWidth 32
  else match findReg key with
    | some r => BitVec.ofNat 32 r.resetWord
    | none => 0#32

end Machine
end Sys2Proof
end

