-- ==== Sys2Proof/Machine/Ops.lean ====
section
/-!
DEFINITION. The named operations every meaning is made of: registers and their fields, the ownership token and the gate of a
register write, time, events and containment, interrupts, work orders and their retirement.

Marked choices (log entries): DEDUCED 40, 102, 106, 134, 146; DESIGN CHOICE 1, 30, 31, 32, 86, 107, 133. Each entry of
notes/assumptions says safe or unsafe.
-/

namespace Sys2Proof
namespace Machine

/-- What a meaning answers. -/
abbrev Out := Host.Outcome State Fault Refusal

/-! ### Registers -/

/-- The register file's word at a key: what is listed, else the reset value. -/
def RegFile.word (r : RegFile) (key : Nat) : Word := (SMap.find? r key).getD (regReset key)

/-- The register file with a word stored, in canonical form. -/
def RegFile.store (r : RegFile) (key : Nat) (w : Word) : RegFile :=
  if w = regReset key then SMap.erase r key else SMap.put r key w

/-- The canonical form of the register file. -/
def RegFile.wf (r : RegFile) : Bool := SMap.sorted r && r.all (fun e => e.2 != regReset e.1)

/-- A register's word. -/
def State.word (s : State) (key : Nat) : Word := s.regs.word key

/-- A register's word replaced. -/
def State.setWord (s : State) (key : Nat) (w : Word) : State := { s with regs := s.regs.store key w }

/-- A field's value. -/
def State.get (s : State) (f : Field) : Nat := bits (s.word f.key).toNat f.lsb f.width

/-- A one-bit field read as a truth value. -/
def State.on (s : State) (f : Field) : Bool := s.get f == 1

/-- A field replaced; the register's other bits keep their values. -/
def State.put (s : State) (f : Field) (v : Nat) : State :=
  s.setWord f.key (BitVec.ofNat 32 (setBits (s.word f.key).toNat f.lsb f.width v))

/-- A count that wraps, advanced. -/
def State.inc (s : State) (f : Field) (n : Nat := 1) : State := s.put f ((s.get f + n) % 2 ^ f.width)

/-- A count that saturates, advanced. -/
def State.satInc (s : State) (f : Field) (n : Nat := 1) : State := s.put f (satAdd f.width (s.get f) n)

/-- The bits of a word that the fields of one access code cover. -/
def RegDef.mask (r : RegDef) (a : Access) : Nat :=
  r.fields.foldl (fun m f => if f.access = a then m + (2 ^ f.width - 1) * 2 ^ f.lsb else m) 0

/-- R4: what a software write of a whole word leaves in a register: RW bits take the written value, W1C bits written 1 are
cleared, RO and RSV bits stay, WO bits hold nothing. -/
def storeWord (r : RegDef) (old w : Word) : Word :=
  let rw := BitVec.ofNat 32 (r.mask .rw)
  let w1c := BitVec.ofNat 32 (r.mask .w1c)
  ((old &&& ~~~rw) ||| (w &&& rw)) &&& ~~~(w &&& w1c)

/-- The plain effect of a write to a register: R4 for a register the map lists, nothing for any other offset (R676). -/
def State.plainWrite (s : State) (key : Nat) (w : Word) : State :=
  match findReg key with
  | some r => s.setWord key (storeWord r (s.word key) w)
  | none => s

/-- The RW bits alone of a write, for a block served from its retention copy (R678). -/
def State.retainWrite (s : State) (key : Nat) (w : Word) : State :=
  match findReg key with
  | some r =>
    let rw := BitVec.ofNat 32 (r.mask .rw)
    s.setWord key ((s.word key &&& ~~~rw) ||| (w &&& rw))
  | none => s

/-! ### Open values -/

/-- A value the spec leaves open, and the state with the counter advanced. -/
def State.fresh (s : State) : Nat × State := (Config.freeValue s.freeCtr, { s with freeCtr := s.freeCtr + 1 })

/-- The function on whose behalf a PCI Express request is made; none for what is no request. -/
def Sent.requester : Sent → Option Nat
  | .entry ring _ _ => some (if ring = 113 then 1 else 0)
  | .buffer _ _ _ _ _ _ => some 0
  | .barge _ _ _ _ _ _ => some 0
  | .hostWrite _ _ _ => some 0
  | .hostRead fn _ _ => some fn
  | .tally _ _ => some 0
  | .msix fn _ => some fn
  | _ => none

/-- R351: whether something waits for Bus Master Enable of its function. -/
def Pcie.blocks (p : Pcie) (x : Sent) : Bool :=
  match x.requester with
  | some fn => !(if fn = 0 then p.busMaster0 else p.busMaster1)
  | none => false

/-- Something sent to the outside; a request whose function may not issue it is held until it may (R351). -/
def State.send (s : State) (x : Sent) : State :=
  { s with sent := if s.pcie.blocks x then s.sent else x :: s.sent, held := if s.pcie.blocks x then x :: s.held else s.held }

/-- What was held and may be issued now is, in order. -/
def State.sendHeld (s : State) : State :=
  { s with sent := s.held.filter (fun x => !s.pcie.blocks x) ++ s.sent, held := s.held.filter (fun x => s.pcie.blocks x) }

/-! ### Requests to host memory (R347–R349, R359) -/

/-- Where a write of `n` bytes at `a` is cut after `p` bytes: at the next MPS-aligned address, at the next border of a range of poisoned
bytes, or at its end. -/
def nextCut (mps a n p : Nat) (ep : List (Nat × Nat)) : Nat :=
  (ep.flatMap (fun r => [r.1, r.2])).foldl (fun c e => if p < e then min c e else c) (min n (p + (mps - (a + p) % mps)))

/-- R347, R359: the memory writes of `n` bytes at `a`, of which the ranges `ep` are poisoned: (address, bytes, EP) of each, `fuel` bounding
their number. -/
def writeCuts (mps a n : Nat) (ep : List (Nat × Nat)) : Nat → Nat → List (Nat × Nat × Bool)
  | 0, _ => []
  | fuel + 1, p =>
    if n ≤ p then []
    else
      let q := nextCut mps a n p ep
      (a + p, q - p, ep.any (fun r => r.1 ≤ p && p < r.2)) :: writeCuts mps a n ep fuel q

/-- Bytes written to host memory, those of the ranges `ep` with EP set. -/
def State.writeHost (s : State) (a : Nat) (bs : List Byte) (ep : List (Nat × Nat)) : State :=
  (writeCuts s.pcie.mps a bs.length ep bs.length 0).foldl (fun s c => s.send (.hostWrite c.1 ((bs.drop (c.1 - a)).take c.2.1) c.2.2)) s

/-- R348: the read requests a function may have outstanding. -/
def Pcie.tags (p : Pcie) (fn : Nat) : Nat := if fn = 1 then 32 else if p.tag10 then 512 else 256

/-- R347: the bytes of the next request of a read: at most Max_Read_Request_Size, within a 4 KiB page. -/
def Pcie.readCut (p : Pcie) (a n : Nat) : Nat := min n (min p.mrrs (4096 - a % 4096))

/-- The reads of a function requested as its tags allow, up to so many requests. -/
def State.pumpReads (s : State) (fn : Nat) : Nat → State
  | 0 => s
  | k + 1 =>
    if s.pcie.tags fn ≤ (s.pcie.reads.filter (fun r => r.1 == fn)).length then s
    else match takeFirst (fun (r : Nat × Nat × Nat) => r.1 == fn) s.pcie.readQ with
      | none => s
      | some ((_, a, n), rest) =>
        let c := s.pcie.readCut a n
        let s := { s with pcie := { s.pcie with
          reads := s.pcie.reads ++ [(fn, a, c)], readQ := if n ≤ c then rest else (fn, a + c, n - c) :: rest } }
        (s.send (.hostRead fn a c)).pumpReads fn k

/-- A read of host memory by a function. -/
def State.readHost (s : State) (fn a n : Nat) : State :=
  if n = 0 then s else ({ s with pcie := { s.pcie with readQ := s.pcie.readQ ++ [(fn, a, n)] } }).pumpReads fn 512

/-- The read requests of a function that lie in a range are complete, or given up: their tags are free. -/
def State.readDone (s : State) (fn a n : Nat) : State :=
  let within := fun (r : Nat × Nat × Nat) => r.1 == fn && a ≤ r.2.1 && r.2.1 + r.2.2 ≤ a + n
  ({ s with pcie := { s.pcie with
    reads := s.pcie.reads.filter (fun r => !within r), readQ := s.pcie.readQ.filter (fun r => !within r) } }).pumpReads fn 512

/-! ### Time -/

/-- Device time in ns since reset: 40 ns for each tick of the AON clock (R515). -/
def State.ns (s : State) : Nat := 40 * s.ticks

/-- The timekeeper's TIME96 in 2^-16 ns (R515: its own unit is 2^-26 ns). -/
def State.time (s : State) : Nat := s.tk.raw / 1024

/-- The timekeeper's advance excluding steps, in ns, which windows and timeouts measure (R519). -/
def State.adv (s : State) : Nat := s.tk.adv / 67108864

/-- R548: whether a stamp formed now carries QUAL.HOLDOVER. TIME_STATUS.STATE: 2 LOCKED, 5 FOLLOWING; `kx.rootLocked` is
what the last beacon said of the root. -/
def State.holdover (s : State) : Bool :=
  s.on R.TIME_STATUS.REF_LOST || !(s.get R.TIME_STATUS.STATE == 2 || (s.get R.TIME_STATUS.STATE == 5 && s.kx.rootLocked))

/-- The QUAL word of a stamp with a reference code (Table 10-6). -/
def State.qual (s : State) (ref : Nat) : Nat := ref + (if s.holdover then 128 else 0)

/-! ### Lock-keepers -/

/-- LK_STATUS(k).STATE (R589): 0 OFF, 1 BOOT, 2 UP, 3 RESTARTING, 4 FAILED. -/
def State.lkState (s : State) (k : Nat) : Nat := s.get (R.LK_STATUS.STATE k)

/-- Whether lock-keeper `k` is UP; its duties wait while it is not (R591). -/
def State.lkUp (s : State) (k : Nat) : Bool := s.lkState k == 2

/-! ### Power modes and reset -/

/-- STANDBY or SLEEP (GLOBAL_PWRSTAT.MODE 1 or 0). -/
def State.lowPower (s : State) : Bool := s.get R.GLOBAL_PWRSTAT.MODE < 2

/-- A pending power-mode request changed. -/
def State.setRequest (s : State) (r : Option PwrReq) : State := { s with power := { s.power with req := r } }

/-- A wake cause noted. -/
def State.noteWake (s : State) (cause : Nat) : State := { s with power := { s.power with wake := some cause } }

/-- R576: a wake cause or a new ring entry abandons an automatic request that has not been carried out. -/
def State.abandonAuto (s : State) : State :=
  match s.power.req with
  | some r => if r.auto then ((s.setRequest none).put R.GLOBAL_PWRSTAT.PEND 0).put R.GLOBAL_PWRSTAT.HELD 0 else s
  | none => s

/-- R575: a wake cause (coded as GLOBAL_PWRSTAT.LAST_WAKE) reaches a device that is below READY or on its way there; the first one counts. -/
def State.wakeCause (s : State) (cause : Nat) : State :=
  let s := s.abandonAuto
  if (s.lowPower || s.power.entering.isSome) && s.power.wake.isNone then s.noteWake cause else s

/-- R678: the PF0 BAR0 blocks that work in every power mode: GLOBAL, CLOCK, TIME, MBX/LK, EVENT, HK and PCIE; and the two
other windows. -/
def liveBlock (key : Nat) : Bool :=
  key ≥ 0x2000000 || [0x0, 0x1, 0xF, 0x12, 0x13, 0x14, 0x15].contains (key / 0x10000)

/-- R577, R578: whether a protective action keeps the units of every kind in their waking states. -/
def State.unitsBarred (s : State) : Bool :=
  s.on R.GLOBAL_PROT.EMERG || (s.on R.GLOBAL_PROT.SUPPLY && [16, 18, 19, 20].contains (s.get R.GLOBAL_PROT.RAIL))

/-- Whether a register is at present served from its retention copy (R678). -/
def State.retained (s : State) (key : Nat) : Bool := s.lowPower && !liveBlock key

/-! ### Events (chapter 21) -/

/-- Table 21-1: the class of an event source (0 INFO, 1 CONFIG, 2 WARN, 3 LOSS, 4 FAULT, 5 PROTECT, 6 SECURITY). Unlisted
numbers are reserved; they read INFO here and no rule raises them, EV_INJECT apart. -/
def evClass (src : Nat) : Nat :=
  let row : List Nat := match src / 32 with
    | 0 => [2, 1, 3, 4, 0, 2, 2, 4, 2, 2, 2, 5]
    | 1 => [2, 2, 4, 2, 0, 3]
    | 2 => [2, 3, 2, 2, 0, 3, 3]
    | 3 => [0, 4, 2]
    | 4 => [4, 2, 2, 2, 3, 3, 4, 3, 3]
    | 5 => [2, 1, 2, 6, 6]
    | 6 => [1, 2, 1, 3, 2]
    | 7 => [2, 4, 2, 1, 1, 2]
    | 8 => [6, 4, 0, 3]
    | 9 => [3, 3]
    | 10 => [1, 2, 2, 2, 1, 3, 4]
    | 11 => [2, 2, 2]
    | 12 => [1, 2, 0, 1, 4, 2, 2, 0, 2, 3, 3]
    | 13 => [4, 0, 4, 0, 5, 5]
    | 14 => [0, 0, 0, 2, 2]
    | 15 => [0, 2, 2, 4, 4, 2, 1]
    | _ => []
  row.getD (src % 32) 0

/-- Whether Table 21-1 assigns a source. -/
def evAssigned (src : Nat) : Bool :=
  let n : List Nat := [12, 6, 7, 3, 9, 5, 5, 6, 4, 2, 7, 3, 11, 6, 5, 7]
  src % 32 < n.getD (src / 32) 0

/-- Table 21-2: the SEVERITY of a class. -/
def evSeverity (cls : Nat) : Nat := if cls = 6 then 4 else cls

/-- Table 21-3: the sources that are fault detections, which open containments. -/
def isRootSource (src : Nat) : Bool := [34, 3, 134, 225, 388, 326, 257, 416, 418, 420, 421, 483, 484].contains src

/-- The lane group of a probe lane, named by its lowest lane (R479; PROBE_GROUPS.QW codes each quad x1, x2, x4 or x8). -/
def State.probeGroupOf (s : State) (lane : Nat) : Nat :=
  match bits (s.get R.PROBE_GROUPS.QW) (2 * (lane / 4)) 2 with
  | 0 => lane
  | 1 => lane / 2 * 2
  | 2 => lane / 4 * 4
  | _ => lane / 8 * 8

/-- Whether generator `g` has segments in a pound of memory channel `ch` (Table 21-3's scope of MEM_CH_FENCED). -/
def State.sgInChannel (s : State) (g ch : Nat) : Bool :=
  match SMap.find? s.sgs g with
  | some x => x.pounds.any (fun p => bit (s.get (R.POUND_CFG.CHMASK p)) ch)
  | none => false

/-- Whether flight `f` depends on ADC `n` (Table 21-3's scope of CONV_FAILED). -/
def State.flightOnAdc (s : State) (f n : Nat) : Bool :=
  match SMap.find? s.flights f with
  | some x => x.deps.contains (0, n)
  | none => false

/-- Table 19-6: whether generator `g`, or a unit of another kind, belongs to the group of rail channel `ch`. -/
def railHasSg (ch g : Nat) : Bool := [16, 18, 19, 20].contains ch || ([21, 22].contains ch && g < 4)
def railHasAll (ch : Nat) : Bool := [16, 18, 19, 20].contains ch

/-- Table 21-3, R620: whether an occurrence of `src` about instance `inst`, with cause code `cause` where the table looks at one, lies in the
Consequential column and the scope of a containment, and arrives before that closes. -/
def State.consequential (s : State) (c : Containment) (src inst cause : Nat) : Bool :=
  decide (s.ns < c.closeAt) && match c.source with
  | 34 => (src = 33 ∨ src = 35) ∧ inst = c.inst
  | 3 => ((src = 6 ∨ src = 7) ∧ inst = c.inst) ∨ (src = 32 ∧ inst / 2 = c.inst)
      ∨ (src = 69 ∧ cause = 3 ∧ s.flightOnAdc inst c.inst)
  | 134 => ((130 ≤ src ∧ src ≤ 133) ∧ inst = c.inst)
      ∨ (src = 136 ∧ bit (s.get (R.POUND_CFG.CHMASK inst)) c.inst)
      ∨ ((src = 288 ∨ src = 289) ∧ s.sgInChannel inst c.inst)
  | 225 => (src = 224 ∨ src = 226) ∧ inst = c.inst
  | 388 => src = 392 ∨ (src = 388 ∧ Config.sameDieEdge inst c.inst)
  | 326 => ((src = 321 ∨ src = 322) ∧ s.probeGroupOf inst = c.inst) ∨ (src = 323 ∧ s.get (R.VC_CFG.GROUP inst) = c.inst)
      ∨ ((src = 325 ∨ (src = 289 ∧ cause = 5)) ∧ s.get (R.EG_CFG.GROUP (inst - 4)) = c.inst)
  | 257 => (src = 259 ∨ src = 256) ∧ inst = c.inst
  | 416 => src = 418 ∨ src = 2 ∨ src = 389 ∨ (src = 289 ∧ cause = 4)
  | 418 => (src = 2 ∧ inst + 1 = c.inst) ∨ (src = 289 ∧ cause = 4 ∧ inst < 4 ∧ inst / 2 + 1 = c.inst)
  | 420 => src = 10 ∨ src = 11 ∨ src = 69 ∨ src = 289 ∨ (src = 97 ∧ cause = 3)
  | 421 => (src = 9 ∧ inst = c.inst) ∨ (src = 69 ∧ (railHasAll c.inst ∨ c.inst = 21 ∨ c.inst = 22))
      ∨ (src = 289 ∧ railHasSg c.inst inst) ∨ (src = 97 ∧ cause = 3 ∧ railHasAll c.inst)
  | 483 => (src = 482 ∧ inst = c.inst) ∨ (src = 486 ∧ c.inst = 0)
  | 484 => (src = 482 ∧ inst = c.inst) ∨ (src = 486 ∧ c.inst = 0)
  | _ => false

/-- R615: an occurrence put to one ring's waiting records. A waiting record of the source takes it as a repeat; a summary is
never merged with another record (R619). -/
def addWaiting (l : List EvRec) (r : EvRec) : List EvRec :=
  if !r.conseq && l.any (fun x => x.source == r.source && !x.conseq) then
    updFirst (fun x => x.source == r.source && !x.conseq)
      (fun x => { x with rep := min (x.rep + 1) 0xFFFFFFFF, coalesced := true }) l
  else l ++ [r]

/-- R618: the rings (ER0, ER1) a source's records go to. OWNER_TAKEN goes to both whatever DEST holds. -/
def State.evDest (s : State) (src : Nat) : Bool × Bool :=
  if src = 164 then (true, true)
  else match s.get (R.EV_CFG.DEST src) with
    | 1 => (false, true)
    | 2 => (true, true)
    | _ => (true, false)

/-- A record put to the rings `d` selects, and among the latest ones when it is a new one. -/
def State.waitRecord (s : State) (r : EvRec) (d : Bool × Bool) (isNew : Bool) : State :=
  { s with ev := { s.ev with
      recent := if isNew then (r :: s.ev.recent).take 16 else s.ev.recent
      wait0 := if d.1 then addWaiting s.ev.wait0 r else s.ev.wait0
      wait1 := if d.2 then addWaiting s.ev.wait1 r else s.ev.wait1 } }

/-- A record put to the rings its source is steered to; one for a function in D3hot is a wake cause. -/
def State.offerRecord (s : State) (r : EvRec) : State :=
  let d := s.evDest r.source
  let isNew := r.conseq || (d.1 && !s.ev.wait0.any (fun x => x.source == r.source && !x.conseq))
    || (d.2 && !s.ev.wait1.any (fun x => x.source == r.source && !x.conseq))
  let asleep := (d.1 && s.pcie.d3hot0) || (d.2 && s.pcie.d3hot1)
  (if asleep then s.wakeCause 2 else s).waitRecord r d isNew

/-- The open containments changed. -/
def State.setContain (s : State) (cs : List Containment) : State := { s with ev := { s.ev with contain := cs } }

/-- R619: a consequential occurrence: counted by the oldest open containment it belongs to, the first one's source kept; by EV_ROOT too
where that containment is its root's. -/
def State.countConsequence (s : State) (src inst cause : Nat) : State :=
  let hit := fun (c : Containment) => s.consequential c src inst cause
  let ofRoot := (s.ev.contain.find? hit).any (fun c => c.source == s.get R.EV_ROOT.SOURCE)
  let s := s.setContain
    (updFirst hit (fun c => { c with count := c.count + 1, first := if c.count = 0 then src else c.first }) s.ev.contain)
  if ofRoot then s.satInc R.EV_ROOT.CONSEQ else s

/-- R619: a fault detection opens a containment unless 16 are open. -/
def State.addContainment (s : State) (src inst info time : Nat) : State :=
  if s.ev.contain.length < 16 then
    let c : Containment := ⟨src, inst, s.ns + 1000 * max 1 (s.get R.EV_CTL.CONTAIN_US), 0, 0, time, info⟩
    s.setContain (s.ev.contain ++ [c])
  else s

/-- R619: a fault detection becomes the root that EV_ROOT shows. -/
def State.openRoot (s : State) (src inst info time : Nat) : State :=
  ((s.put R.EV_ROOT.SOURCE src).put R.EV_ROOT.CONSEQ 0).addContainment src inst info time

/-- R613–R621: one occurrence of an event source: about instance `inst`, with cause code `cause` where Table 21-3 looks at
one, its INFO word, and its TIME in 2^-16 ns. Counted always; with EN clear nothing else; consequential to the oldest open
containment it belongs to, or put to the rings, a root opening a containment. -/
def State.raiseAt (s : State) (src inst info cause time : Nat) : State :=
  let s := s.satInc (R.EV_CNT.COUNT src)
  if !s.on (R.EV_CFG.EN src) then s
  else if s.ev.contain.any (fun c => s.consequential c src inst cause) then s.countConsequence src inst cause
  else
    let root := isRootSource src
    let s := s.offerRecord { source := src, root := root, time := time, info := info }
    if root then s.openRoot src inst info time else s

/-- An occurrence whose TIME is the timekeeper's (R613). -/
def State.raise (s : State) (src inst info : Nat) (cause : Nat := 0) : State := s.raiseAt src inst info cause s.time

/-- An occurrence about instance `inst` whose rule names the things `parts` that INFO carries and gives them no layout (R613): the
word is an open function of them. -/
def State.raiseWith (s : State) (src inst : Nat) (parts : List Nat) (cause : Nat := 0) : State :=
  s.raise src inst (Config.infoWord src parts % 2 ^ 64) cause

/-- An occurrence whose INFO is the instance alone (R613's default). -/
def State.raiseInst (s : State) (src inst : Nat) : State := s.raise src inst (inst % 65536)

/-- The first `raise` of a W1C flag since it was cleared: the flag set, and the event raised when it was clear. -/
def State.flagRaise (s : State) (f : Field) (src inst : Nat) : State :=
  if s.on f then s else (s.put f 1).raiseInst src inst

/-! ### Interrupts (R352, R353, R404) -/

/-- The time of the vector's last message, if any, in ns of device time. -/
def State.vecLast (s : State) (fn vec : Nat) : Option Nat := SMap.find? s.pcie.msixLast (fn * 64 + vec)

/-- Whether a pending vector may send now: MSI-X enabled and not masked for its function, the vector not masked in its table
entry, bus mastering on, the link up, and MOD × 100 ns passed since its last message. -/
def State.vecReady (s : State) (fn vec : Nat) : Bool :=
  let en := if fn = 0 then s.pcie.msixEn0 && !s.pcie.msixMask0 && s.pcie.busMaster0
            else s.pcie.msixEn1 && !s.pcie.msixMask1 && s.pcie.busMaster1
  let entryMask := bit ((SMap.find? s.pcie.msixTable (fn * 1024 + vec * 16 + 12)).getD 1#32).toNat 0
  let spaced := match s.vecLast fn vec with
    | some t => s.ns ≥ t + 100 * s.get (R.PCIE_VECMOD.MOD fn vec)
    | none => true
  en && !entryMask && spaced && s.pcie.linkUp

/-- A vector's message sent: one message carries every pending cause (R352). -/
def State.sendVec (s : State) (fn vec : Nat) : State :=
  ({ s with pcie := { s.pcie with
      msixPend := s.pcie.msixPend.filter (fun v => v != (fn, vec))
      msixLast := SMap.put s.pcie.msixLast (fn * 64 + vec) s.ns } }).send (.msix fn vec)

/-- R352, R353: a cause on a vector: sent at once when the vector may send, else kept pending. -/
def State.vecCause (s : State) (fn vec : Nat) : State :=
  if s.vecReady fn vec then s.sendVec fn vec
  else if s.pcie.msixPend.contains (fn, vec) then s
  else { s with pcie := { s.pcie with msixPend := s.pcie.msixPend ++ [(fn, vec)] } }

/-- R352: interrupt source `i` of Table 11-3 asserts. -/
def State.irq (s : State) (i : Nat) : State :=
  if s.on (R.PCIE_VEC.EN i) then s.vecCause (if i < 128 then 0 else 1) (s.get (R.PCIE_VEC.VEC i)) else s

/-- The status bit of an uncorrectable AER error of a function is set. -/
def State.noteAer (s : State) (fn err : Nat) : State :=
  { s with pcie := { s.pcie with aer := if s.pcie.aer.contains (fn, err) then s.pcie.aer else s.pcie.aer ++ [(fn, err)] } }

/-- R358: an uncorrectable AER error of a function, by its bit in the AER status register, logged and raised as PCIE_AER with the status bit
and the header log, an open value here. -/
def State.logAer (s : State) (fn err : Nat) : State :=
  let r := (s.noteAer fn err).fresh
  r.2.raiseWith 162 fn [err, r.1]

/-! ### The ownership token (R361–R365) -/

/-- GLOBAL_OWNER.HOLDER's code of the agent whose path carries an access (Table 11-7); 0 for the firmware, which the token
does not govern. -/
def pathAgent : Path → Nat
  | .pf0 => 1
  | .mgmt => 2
  | .smbus => 2
  | .mon => 3
  | .peer => 4
  | .fw => 0

/-- R361: whether a write by this path takes effect: outside PF0 BAR0, to GLOBAL_OWNER, by firmware, or by the holder. -/
def State.mayWrite (s : State) (p : Path) (key : Nat) : Bool :=
  key ≥ 0x2000000 || key == R.GLOBAL_OWNER || p == .fw || s.get R.GLOBAL_OWNER.HOLDER == pathAgent p

/-- R361: the word a dropped write leaves in GLOBAL_OWNVIOL. -/
def State.violWord (s : State) (p : Path) (key : Nat) : Nat :=
  key % 2 ^ 24 + pathAgent p * 2 ^ 24 + s.get R.GLOBAL_OWNER.HOLDER * 2 ^ 27

/-- R361: a dropped set-up write: recorded in GLOBAL_OWNVIOL and raised as OWNER_VIOLATION with the same word. -/
def State.ownerViolation (s : State) (p : Path) (key : Nat) : State :=
  let w := s.violWord p key
  (s.setWord R.GLOBAL_OWNVIOL (BitVec.ofNat 32 w)).raise 163 (pathAgent p) w

/-- R345, R346, R351, R355: whether an access by a path reaches the registers at all: PF0 and PF1 need the link, firmware
ready, Memory Space Enable and D0 (WAKE stays accessible in D3hot); PF1 is the function of the MGMT window. In recovery PF1 serves the
staging registers only (R588). -/
def State.reaches (s : State) (p : Path) (key : Nat) : Bool :=
  match p with
  | .pf0 => s.pcie.linkUp && s.fw.ready && s.pcie.memSpace0 && (!s.pcie.d3hot0 || key == R.WAKE)
  | .mgmt => s.pcie.linkUp && (s.fw.ready || (s.fw.recovered && R.FWS_ADDR_LO ≤ key && key ≤ R.FWS_VER)) && s.pcie.memSpace1
    && !s.pcie.d3hot1
  | _ => true

/-- The function that carries a path's accesses. -/
def pathFn : Path → Nat
  | .mgmt => 1
  | _ => 0

/-- What every software write to a register goes through: an access that does not reach the device is Unsupported Request
(R346, R351, R355); a write to PF0 BAR0 by an agent without the token is dropped (R361); a block served from its retention
copy keeps the RW bits only (`keep`, R678); otherwise the write has its effect (`act`). -/
def State.gate (s : State) (p : Path) (key : Nat) (keep act : State → State) : State :=
  if !s.reaches p key then (s.send (.unsupported (pathFn p))).logAer (pathFn p) 20
  else if !s.mayWrite p key then s.ownerViolation p key
  else if s.retained key then keep s
  else act s

/-- The gate of a write that concerns one field: in a retained block an RW field keeps the written value. -/
def State.gateField (s : State) (p : Path) (f : Field) (v : Nat) (act : State → State) : State :=
  s.gate p f.key (fun s => s.put f v) act

/-- The gate of a write to a write-only field, which a retained block ignores. -/
def State.gateAction (s : State) (p : Path) (key : Nat) (act : State → State) : State := s.gate p key id act

/-! ### Work orders (chapter 12) -/

/-- Completion statuses (Table 12-4). -/
def stOk : Nat := 0x00
def stCancelled : Nat := 0x01
def stPartial : Nat := 0x02
def stLate : Nat := 0x03
def stIncomplete : Nat := 0x04
def stPoisoned : Nat := 0x05
def stBadParam : Nat := 0x10
def stState : Nat := 0x11
def stBadOpcode : Nat := 0x12
def stBad : Nat := 0x13
def stNotFound : Nat := 0x14
def stTooSmall : Nat := 0x15

/-- An unsigned field of an order's 64 bytes. -/
def Order.u (o : Order) (off n : Nat) : Nat := field o.bytes off n

/-- OPCODE, TAG, and the IRQ and FENCE flags of the header (Table 12-3). -/
def Order.opcode (o : Order) : Nat := o.u 2 2
def Order.tag (o : Order) : Nat := o.u 4 4
def Order.irq (o : Order) : Bool := bit (o.u 0 1) 1
def Order.fence (o : Order) : Bool := bit (o.u 0 1) 2

/-- The order's name. -/
def Order.ref (o : Order) : OrderRef := (o.ring, o.index)

/-- The accepted order of a name. -/
def State.order? (s : State) (r : OrderRef) : Option Order := s.orders.find? (fun o => o.ref == r)

/-- An accepted order changed in place. -/
def State.updOrder (s : State) (r : OrderRef) (f : Order → Order) : State :=
  { s with orders := updFirst (fun o => o.ref == r) f s.orders }

/-- R375, R368: ring `x` counts one more entry returned and writes its DONE to the tally page; ER1 (113) has ER1_DONE and no
tally slot. -/
def State.countDone (s : State) (x : Nat) : State :=
  if x = 113 then s.inc R.ER1_DONE.DONE
  else
    let s := s.inc (R.RING_DONE.DONE x)
    s.send (.tally (8 * x + 4) (s.word (R.RING_DONE x)))

/-- R404: the interrupt source of a ring (Table 11-3). -/
def ringIrq (x : Nat) : Nat := if x = 112 then 0 else if x = 113 then 128 else x + 1

/-- R412: BUSY of a disabled command ring clears with the return of its last accepted order. -/
def State.settleBusy (s : State) (ring : Nat) : State :=
  if s.on (R.RING_CFG.EN ring) || s.orders.any (fun o => o.ring == ring) then s else s.put (R.RING_CFG.BUSY ring) 0

/-- R370, R387: an order retires: its outputs are written into its entry, then STATUS with OWN cleared and DETAIL; DONE of its
ring counts it, BAD where the status is BAD, and the ring's interrupt source asserts when IRQ is set (R404). After a hot
reset the return is not written (R413). -/
def State.retireWith (s : State) (o : Order) (status detail : Nat) (outs : List (Nat × List Byte)) : State :=
  let gone := s.reads.filter (fun r => r.order == o.ref)
  let s := { s with orders := s.orders.filter (fun x => x.ref != o.ref), reads := s.reads.filter (fun r => r.order != o.ref) }
  let s := gone.foldl (fun s r => s.readDone 0 r.addr r.len) s
  if o.noReturn then s
  else
    let bs := outs.foldl (fun bs x => overlay bs x.1 x.2) o.bytes
    let bs := overlay bs 8 (leBytes 2 detail)
    let bs := overlay bs 0 [BitVec.ofNat 8 (field bs 0 1 / 2 * 2), BitVec.ofNat 8 status]
    let s := (s.send (.entry o.ring o.index bs)).countDone o.ring
    let s := if status = stBad then s.satInc (R.RING_STAT.BAD o.ring) else s
    let s := if o.irq then s.irq (ringIrq o.ring) else s
    s.settleBusy o.ring

/-- A retirement with no outputs. -/
def State.retire (s : State) (o : Order) (status : Nat) (detail : Nat := 0) : State := s.retireWith o status detail []

/-- The retirement of the accepted order of a name, if it is still outstanding. -/
def State.retireRef (s : State) (r : OrderRef) (status : Nat) (outs : List (Nat × List Byte)) : State :=
  match s.order? r with
  | some o => s.retireWith o status 0 outs
  | none => s

/-- The checks of an order's parameters: pairs of a field's byte offset and whether the field is invalid; the first invalid
one is DETAIL (Table 12-3). -/
def firstInvalid (cs : List (Nat × Bool)) : Option Nat := (cs.find? (fun c => c.2)).map (fun c => c.1)

/-- One such check: the field at `off` is invalid when `p` holds. -/
def chk (off : Nat) (p : Prop) [Decidable p] : Nat × Bool := (off, decide p)

/-- The checks that reserved bytes `off … off + n - 1` are 0. -/
def reserved (o : Order) (off : Nat) : Nat → List (Nat × Bool)
  | 0 => []
  | n + 1 => (off, o.u off 1 != 0) :: reserved o (off + 1) n

/-- The check of a TIME96 parameter (R520). -/
def badTime (o : Order) (off : Nat) : Bool := !time96Ok (o.u off 12)

/-- R382, R387: an order whose parameters pass is acted on; any other retires BAD_PARAM with the offset and no effect. -/
def State.validate (s : State) (o : Order) (cs : List (Nat × Bool)) (act : State → State) : State :=
  match firstInvalid cs with
  | some d => s.retire o stBadParam d
  | none => act s

/-- The orders of `taken` that may be accepted next (R384): the first whose ring is not held up by an earlier order that
waits for its FENCE. -/
def nextOrder (orders : List Order) : List Order → List Nat → Option Order
  | [], _ => none
  | o :: t, held =>
    if held.contains o.ring then nextOrder orders t held
    else if o.fence && orders.any (fun x => x.ring == o.ring) then nextOrder orders t (o.ring :: held)
    else some o

/-- The order the engine accepts next: none while 1,024 are outstanding (R385). -/
def State.next? (s : State) : Option Order := if s.orders.length < 1024 then nextOrder s.orders s.taken [] else none

/-- R382, R384: the acceptance of the next order if its opcode is `op`: the reserved header bits are checked first; then the
order counts as accepted and its own effect follows. -/
def State.acceptOrder (s : State) (o : Order) (eff : Order → State → State) : State :=
  let s := { s with taken := s.taken.filter (fun x => x.ref != o.ref), orders := s.orders ++ [o] }
  s.validate o ((0, o.u 0 1 / 8 != 0) :: reserved o 10 6) (eff o)

/-- The acceptance engine for one kind of order: acts when the next order is of that kind, else changes nothing. -/
def State.accept (s : State) (op : Nat) (eff : Order → State → State) : State :=
  match s.next? with
  | some o => if o.opcode = op then s.acceptOrder o eff else s
  | none => s

/-- The 12 bytes of a TIME96 output. -/
def time96Bytes (t : Nat) : List Byte := leBytes 12 (toTime96 t)

/-- A memory read that an order makes for its table or image (R350). -/
def State.startRead (s : State) (o : Order) (addr len : Nat) : State :=
  let r : HostRead := ⟨o.ref, addr, len, []⟩
  ({ s with reads := s.reads ++ [r] }).readHost 0 addr len

end Machine
end Sys2Proof
end

