-- ==== Sys2Proof/Machine/Barge.lean ====
section
/-!
DEFINITION. Barges and marks (chapter 10): the header's bytes, the span, the kinds of mark and how each is formed.

Marked choices (log entries): DEDUCED 51. Each entry of notes/assumptions says safe or unsafe.
-/

namespace Sys2Proof

/-- R319: the bytes a barge occupies in a buffer, cell or record. -/
def Barge.span (b : Barge) : Nat := 64 + 64 * ((b.payload.length + 63) / 64)

/-- R415: the cells a barge occupies. -/
def Barge.cells (b : Barge) : Nat := (b.span + 255) / 256

/-- Table 10-5: TYPE 0x0010 is MARK. -/
def Barge.isMark (b : Barge) : Bool := b.type == 0x10

/-- R334: a TEAR mark. -/
def Barge.isTear (b : Barge) : Bool := b.isMark && b.format % 256 == 0x04

/-- R316: FLAGS.AUX; R337: a barge is counted unless AUX = 1. -/
def Barge.isAux (b : Barge) : Bool := b.flags / 2 % 2 == 1

namespace Machine

/-- R314, R324: a header's bytes, CRC included. -/
def headerBytes (b : Barge) : List Byte :=
  let h := leBytes 2 b.type ++ [1#8] ++ leBytes 1 b.flags ++ leBytes 2 b.stream ++ leBytes 2 b.source ++ leBytes 4 b.seq
    ++ leBytes 4 b.payload.length ++ leBytes 12 (toTime96 b.stamp) ++ leBytes 4 b.qual ++ leBytes 8 b.format
    ++ leBytes 8 b.word40 ++ leBytes 8 b.word48 ++ leBytes 4 0
  h ++ leBytes 4 (crc32c h).toNat

/-- R319: the bytes of a whole barge, padding written 0. -/
def bargeBytes (b : Barge) : List Byte :=
  headerBytes b ++ b.payload ++ List.replicate ((64 - b.payload.length % 64) % 64) 0#8

/-- FLAGS bits (Table 10-2). -/
def flPoisoned : Nat := 1
def flAux : Nat := 2
def flCapture : Nat := 4
def flCopy : Nat := 8
def flTrimmed : Nat := 16
def flLast : Nat := 32
def flAltHdr : Nat := 64

/-- A barge with a FLAGS bit set. -/
def withFlag (b : Barge) (i : Nat) : Barge := { b with flags := setBit b.flags i true }

/-- A MARK barge (R330): subtype, stamp, REF with its HOLDOVER bit, extent and information words. -/
def mkMark (stream source subtype stamp qual ext info : Nat) (flags : Nat := 0) : Barge :=
  { type := 0x10, flags := flags, stream := stream, source := source, stamp := stamp, qual := qual, format := subtype,
    word40 := ext, word48 := info }

/-- Mark subtypes (Table 10-9). -/
def mkTrigger : Nat := 0x01
def mkForced : Nat := 0x02
def mkGap : Nat := 0x03
def mkTear : Nat := 0x04
def mkCalStep : Nat := 0x05
def mkPoison : Nat := 0x06
def mkRetune : Nat := 0x07
def mkTimeStep : Nat := 0x08
def mkFailover : Nat := 0x09
def mkFlightAborted : Nat := 0x0A

/-- R331, R332: a GAP's extent and information words: LENGTH_T all ones and OPEN = 1 when the end is not known or when the
length would exceed 2^64 − 2. -/
def gapWords (cause unit items : Nat) (len : Option Nat) : Nat × Nat :=
  let l := match len with
    | some n => if n ≤ 2 ^ 64 - 2 then some n else none
    | none => none
  let info := cause + unit % 64 * 256 + min items (2 ^ 32 - 1) * 2 ^ 32
  match l with
  | some n => (n, info)
  | none => (2 ^ 64 - 1, info + 65536)

/-- A GAP mark of a stream. -/
def mkGapMark (stream source stamp qual cause unit items : Nat) (len : Option Nat) (flags : Nat := 0) : Barge :=
  let w := gapWords cause unit items len
  mkMark stream source mkGap stamp qual w.1 w.2 flags

/-- The samples of a SAMPLES barge (bytes 40–47); 0 for any other barge. -/
def samplesIn (b : Barge) : Nat := if b.type = 1 then b.word40 / 2 ^ 32 else 0

/-- R320: the QUAL of a mark stamped where a barge with QUAL `q` begins: its REF and HOLDOVER. -/
def markQual (q : Nat) : Nat := q % 16 + (if q / 128 % 2 = 1 then 128 else 0)

/-- R341: the source sample period that a FORMAT word and a SOURCE tell, in 2^-16 ns as numerator and denominator. -/
def samplePeriod (format source : Nat) : Nat × Nat :=
  let fs := bits format 16 15
  if fs = 0 then (1000000 * 65536, max 1 (bits format 32 32))
  else ((if source < 0x1000 then 1 else 2 ^ (bits format 8 4 + 1)) * 1000 * 65536, fs)

/-- R321: the format word of a data barge. -/
def formatWord (fmt k : Nat) (qs : Bool) (fs rateVc : Nat) : Nat :=
  fmt % 256 + k % 16 * 256 + b2n qs * 4096 + fs % 32768 * 65536 + rateVc % 2 ^ 32 * 2 ^ 32

/-- QUAL bits above REF (Table 10-6). -/
def qOvr : Nat := 16
def qCal : Nat := 32
def qSettle : Nat := 64
def qHoldover : Nat := 128

end Machine
end Sys2Proof
end

