-- ==== Sys2Proof/Machine/Queue.lean ====
section
/-!
DEFINITION. Queues and the cell pool (chapter 13): admission, the mark store, the tear registers, visibility, frees, closing and
reclaim, and the QUEUE commands.

Marked choices (log entries): DEDUCED 5, 6, 7, 8, 9, 10; DESIGN CHOICE 4. Each entry of notes/assumptions says safe or unsafe.
-/

namespace Sys2Proof
namespace Machine

/-- QUEUE_STAT.STATE: 0 OFF, 1 ACTIVE, 2 CLOSING, 3 REBUILD, 4 FENCED. -/
def qOff : Nat := 0
def qActive : Nat := 1
def qClosing : Nat := 2
def qRebuild : Nat := 3
def qFenced : Nat := 4

/-- A queue's internals. -/
def State.queue (s : State) (q : Nat) : Queue := (SMap.find? s.queues q).getD {}

/-- A queue's internals changed. -/
def State.updQueue (s : State) (q : Nat) (f : Queue → Queue) : State :=
  { s with queues := SMap.put s.queues q (f (s.queue q)) }

/-- A queue's state, and its mode. -/
def State.qstate (s : State) (q : Nat) : Nat := s.get (R.QUEUE_STAT.STATE q)
def State.dropNewest (s : State) (q : Nat) : Bool := s.on (R.QUEUE_CFG.MODE q)

/-- The pool's free cells. -/
def State.poolFree (s : State) : Nat := s.get R.QUEUE_POOLSTAT.FREE

/-- The free cell that stands `k`-th among the cells not in a rising list of allocated ones. -/
def nthFree : List Nat → Nat → Nat
  | [], k => k
  | a :: t, k => if a ≤ k then nthFree t (k + 1) else k

/-- `n` cells taken from the pool for a queue: which ones is the implementation's choice (`Config.cellChoice`). -/
def State.takeCells (s : State) (q epoch : Nat) (reserve : Bool) : Nat → Nat → List Nat × State
  | 0, _ => ([], s)
  | n + 1, ord =>
    let k := Config.cellChoice s.freeCtr % (131072 - s.cells.length)
    let c := nthFree (s.cells.map (fun e => e.1)) k
    let tag : CellTag := { queue := q, epoch := epoch, ord := ord % 2 ^ 20, lastOfBarge := n == 0, fromReserve := reserve }
    let s := { s with cells := SMap.put s.cells c tag, freeCtr := s.freeCtr + 1 }
    let r := s.takeCells q epoch reserve n (ord + 1)
    (c :: r.1, r.2)

/-- FREE changed by an allocation or a free; falling below DATA_RES sets LOW_SEEN and raises QERR_POOL_LOW (Table 13-4). -/
def State.setPoolFree (s : State) (n : Nat) : State :=
  let low := n < s.get R.QUEUE_POOLCFG.DATA_RES ∧ s.get R.QUEUE_POOLCFG.DATA_RES ≤ s.poolFree
  let s := s.put R.QUEUE_POOLSTAT.FREE n
  if low then (s.put R.QUEUE_POOLSTAT.LOW_SEEN 1).raiseInst 229 0 else s

/-- A barge written into a queue (R415, R416): its cells are tagged; OCC, FREE and BARGES follow; an AUX barge carries the
SEQ of the last counted barge of its stream queued before it (R338). -/
def State.enqueue (s : State) (q : Nat) (b : Barge) (reserve : Bool := false) : State :=
  let qu := s.queue q
  let b := if b.isAux then { b with seq := (SMap.find? qu.lastSeq b.stream).getD 0xFFFFFFFF } else b
  let n := b.cells
  let r := s.takeCells q (s.get (R.QUEUE_STAT.EPOCH q)) reserve n qu.nextOrd
  let s := r.2.updQueue q (fun qu => { qu with
    barges := qu.barges ++ [{ barge := b, cells := r.1, total := n }]
    nextOrd := (qu.nextOrd + n) % 2 ^ 20
    lastSeq := if b.isAux then qu.lastSeq else SMap.put qu.lastSeq b.stream b.seq })
  let s := s.inc (R.QUEUE_STAT.OCC q) n
  let s := s.inc (R.QUEUE_CNT.BARGES q)
  s.setPoolFree (s.poolFree - n)

/-- Whether `c` cells pass the test of a data barge that R428 applies to everything in drop-newest mode. -/
def State.cellsPass (s : State) (q c : Nat) : Bool :=
  s.get (R.QUEUE_STAT.OCC q) + c ≤ s.get (R.QUEUE_CFG.LIMIT q) && s.get R.QUEUE_POOLCFG.DATA_RES + c ≤ s.poolFree

/-- R420: whether a NATIVE queue admits a data barge of `c` cells. -/
def State.dataFits (s : State) (q c : Nat) : Bool :=
  (s.get (R.QUEUE_STAT.OCC q) + c ≤ s.get (R.QUEUE_CFG.LIMIT q) || s.get (R.QUEUE_STAT.OCC q) == 0)
    && s.get R.QUEUE_POOLCFG.DATA_RES + c ≤ s.poolFree

/-- The cells that marks have drawn from the reserve, over all queues (R421). -/
def State.reserveDrawn (s : State) : Nat := (s.cells.filter (fun e => e.2.fromReserve)).length

/-- R421: whether a mark gets a cell now, and whether it is drawn from the reserve. -/
def State.markFits (s : State) (q : Nat) : Option Bool :=
  if s.poolFree = 0 then none
  else if s.get (R.QUEUE_STAT.OCC q) < s.get (R.QUEUE_CFG.LIMIT q) + s.get R.QUEUE_POOLCFG.MARK_RES then some false
  else if s.reserveDrawn < s.get R.QUEUE_POOLCFG.DATA_RES then some true
  else none

/-- ⌊(stamp − T_EN) / 8 ns⌋ as a 64-bit two's-complement value (R431). -/
def tearTick (stamp ten : Nat) : Nat := wrap 64 (((stamp : Int) - ten) / 524288)

/-- T_EN as the three QUEUE_TEARBASE words hold it. -/
def State.tearBase (s : State) (q : Nat) : Nat :=
  ofTime96 (s.get (R.QUEUE_TEARBASE0.T_LO q) + s.get (R.QUEUE_TEARBASE1.T_MID q) * 2 ^ 32
    + s.get (R.QUEUE_TEARBASE2.T_HI q) * 2 ^ 64)

/-- R431, Table 13-3: the TEAR mark that the tear register of a queue stands for; `seqNo` is its TEAR_SEQ. -/
def State.tearMark (s : State) (q seqNo : Nat) : Barge :=
  let qu := s.queue q
  let count := s.get (R.QUEUE_TEAR.COUNT q)
  let ten := s.tearBase q
  let rec28 := leBytes 2 3 ++ leBytes 2 count ++ leBytes 2 q
    ++ leBytes 2 (s.get (R.QUEUE_TEAR.SAT q) + 2 * s.get (R.QUEUE_TEAR.HELD q))
    ++ leBytes 8 (tearTick qu.tearFirst ten) ++ leBytes 8 (tearTick qu.tearLast ten) ++ leBytes 4 seqNo
  let check := (List.range 7).foldl (fun x i => x ^^^ field rec28 (4 * i) 4) 0
  { mkMark qu.tearStream (0xB000 + q) mkTear qu.tearFirst qu.tearQual 0 (q % 4096 + count * 65536) flAux with
    payload := rec28 ++ leBytes 4 check }

/-- Whether a queue takes what is written into it: not in OFF, REBUILD or FENCED (R418, R427). -/
def State.qTakes (s : State) (q : Nat) : Bool := s.qstate q == qActive || s.qstate q == qClosing

/-- R430: a non-empty tear register is written as a TEAR mark when one cell passes; else it is held. -/
def State.tearTry (s : State) (q : Nat) : State :=
  if s.get (R.QUEUE_TEAR.COUNT q) = 0 || !s.qTakes q then s
  else if s.cellsPass q 1 then
    let s := s.inc (R.QUEUE_TEARSEQ.TEAR_SEQ q)
    let s := s.enqueue q (s.tearMark q (s.get (R.QUEUE_TEARSEQ.TEAR_SEQ q)))
    s.setWord (R.QUEUE_TEAR q) 0#32
  else s.put (R.QUEUE_TEAR.HELD q) 1

/-- R429: one dropped barge accounted in the tear register. -/
def State.tearDrop (s : State) (q : Nat) (b : Barge) : State :=
  let n := s.get (R.QUEUE_TEAR.COUNT q)
  let s := s.updQueue q (fun qu => if n = 0 then
      { qu with tearFirst := b.stamp, tearLast := b.stamp, tearStream := b.stream, tearQual := b.qual }
    else { qu with tearLast := b.stamp })
  let s := if n = 65535 then s else s.put (R.QUEUE_TEAR.COUNT q) (n + 1)
  let s := if n + 1 ≥ 65535 then s.put (R.QUEUE_TEAR.SAT q) 1 else s
  (s.satInc (R.QUEUE_DROP.DROPPED q)).tearTry q

/-- What becomes of a barge put to a queue: queued (or dropped in drop-newest mode, which the producer cannot tell), held in
the mark store, or refused. -/
inductive Admit where
  | queued | held | refused
deriving DecidableEq, Repr

/-- The first refusal since REFUSED_SEEN was cleared sets it (R422). -/
def State.refuse (s : State) (q : Nat) : Admit × State := (.refused, s.put (R.QUEUE_STAT.REFUSED_SEEN q) 1)

/-- R421: whether two barges have one producer, whose later barges wait behind its held mark: one source, and one stream, but that a
calender unit sends every stream itself. DEDUCED (log 6). -/
def sameProducer (a b : Barge) : Bool := a.source == b.source && (a.stream == b.stream || a.source / 0x1000 == 8)

/-- R420–R422, R427–R430: a producer asks queue `q` to accept a barge. One that waits keeps the later ones of its stream waiting. -/
def State.admitBarge (s : State) (q : Nat) (b : Barge) : Admit × State :=
  if s.qstate q ≠ qActive then s.refuse q
  else if s.waitQ.any (fun x => x.1 == q && x.2.stream == b.stream) then s.refuse q
  else if s.dropNewest q then
    let s := s.tearTry q
    if s.cellsPass q b.cells then (.queued, s.enqueue q b) else (.queued, s.tearDrop q b)
  else if b.isMark then
    let first := !s.markStore.any (fun m => m.queue == q)
    match (if first then s.markFits q else none) with
    | some reserve => (.queued, s.enqueue q b reserve)
    | none =>
      let m : HeldMark := ⟨q, b⟩
      if s.markStore.length < 1024 then (.held, ({ s with markStore := s.markStore ++ [m] }).raiseInst 226 q)
      else s.refuse q
  else if s.markStore.any (fun m => m.queue == q && sameProducer m.barge b) then s.refuse q
  else if s.dataFits q b.cells then (.queued, s.enqueue q b)
  else s.refuse q

/-- Whether an answer means that the barge is off its producer's hands. -/
def Admit.taken : Admit → Bool
  | .refused => false
  | _ => true

/-- R32, R421, R422: a mark put to a queue: refused, it waits with its producer, so that no mark is lost. -/
def State.push (s : State) (q : Nat) (b : Barge) : State :=
  let r := s.admitBarge q b
  if r.1.taken then r.2 else { r.2 with waitQ := r.2.waitQ ++ [(q, b)] }

/-- R421, R427: the marks of the store written into their queues, in order, as soon as each gets a cell. -/
def State.drainStore (s : State) : List HeldMark → State
  | [] => s
  | m :: t =>
    let blocked := s.markStore.any (fun x => x.queue == m.queue) || !s.qTakes m.queue
    match (if blocked then none else s.markFits m.queue) with
    | some reserve => (s.enqueue m.queue m.barge reserve).drainStore t
    | none => ({ s with markStore := s.markStore ++ [m] }).drainStore t

/-- R182, R422: what a plan has to write once the sheet that it holds is admitted, each with its SEQ: the sheet, and a GAP mark with the
cause of R182 over the sheets discarded meanwhile. -/
def Plan.heldBarges (pl : Plan) : List Barge :=
  match pl.held with
  | none => []
  | some b =>
    { b with seq := pl.sheetSeq } :: (match pl.discards with
      | none => []
      | some d => [{ mkGapMark b.stream b.source d.first d.qual 0x07 0x3F d.count (some (d.last - d.first)) with
          seq := (pl.sheetSeq + 1) % 2 ^ 32 }])

/-- A plan that holds no sheet any more. -/
def Plan.unheld (pl : Plan) : Plan :=
  { pl with held := none, discards := none, sheetSeq := (pl.sheetSeq + pl.heldBarges.length) % 2 ^ 32 }

/-- R182, R422: the sheet that plan `p` holds is tried again. -/
def State.retrySheet (s : State) (p : Nat) (pl : Plan) : State :=
  match pl.heldBarges with
  | [] => s
  | b :: l =>
    let q := field pl.bytes 34 2 % 4096
    let r := s.admitBarge q b
    if r.1.taken then l.foldl (fun s m => s.push q m) { r.2 with plans := SMap.put r.2.plans p pl.unheld } else r.2

/-- R422, R511, R540: the barges of waiting producers (KX streams, TDC streams, probe streams) that still wait for their queue,
offered again in order; a barge never passes an earlier one of its stream. -/
def State.drainWaiting (s : State) : List (Nat × Barge) → State
  | [] => s
  | (q, b) :: t =>
    if s.waitQ.any (fun x => x.1 == q && x.2.stream == b.stream) then ({ s with waitQ := s.waitQ ++ [(q, b)] }).drainWaiting t
    else
      let r := s.admitBarge q b
      if r.1.taken then r.2.drainWaiting t else ({ r.2 with waitQ := r.2.waitQ ++ [(q, b)] }).drainWaiting t

/-- The same for all that wait. -/
def State.retryProducers (s : State) : State := ({ s with waitQ := [] }).drainWaiting s.waitQ

/-- R182, R336, R422: plan `p` leaves ARMED or RUNNING with a sheet held: the sheet and the GAP behind it wait for their queue on their
own, in order with what the stream still writes. -/
def State.leaveHeld (s : State) (p : Nat) : State :=
  let pl := (SMap.find? s.plans p).getD {}
  let q := field pl.bytes 34 2 % 4096
  { s with waitQ := s.waitQ ++ pl.heldBarges.map (fun b => (q, b)), plans := SMap.put s.plans p pl.unheld }

/-- Barges handed to a producer that waits for its queue. -/
def State.offer (s : State) (l : List (Nat × Barge)) : State := ({ s with waitQ := s.waitQ ++ l }).retryProducers

/-- What waits for cells is tried again: the mark store, the tear registers of Q0–Q63, the barges
of waiting producers, the sheets that plans hold. -/
def State.retryWaiting (s : State) : State :=
  let s := ({ s with markStore := [] }).drainStore s.markStore
  let s := (s.queues.filter (fun e => e.1 < 64)).foldl (fun s e => if s.dropNewest e.1 then s.tearTry e.1 else s) s
  s.retryProducers.plans.foldl (fun s e => s.retrySheet e.1 e.2) s.retryProducers

/-- R435: QUEUE_QUIESCE orders on `q`. -/
def quiesces (q : Nat) (o : Order) : Bool := o.opcode == 0x0801 && o.u 16 2 == q

/-- The outputs of a QUEUE_QUIESCE (Table 13-5): when the queue entered CLOSING and the cells consumed since. -/
def quiesceOuts (qu : Queue) : List (Nat × List Byte) :=
  [(20, time96Bytes qu.closedAt), (32, leBytes 4 qu.consumed)]

/-- One cell of `q` consumed: counted while CLOSING; a QUEUE_QUIESCE being cancelled retires CANCELLED_PARTIAL here (R435). -/
def State.cellConsumed (s : State) (q : Nat) : State :=
  if s.qstate q ≠ qClosing then s
  else
    let s := s.updQueue q (fun qu => { qu with consumed := qu.consumed + 1 })
    (s.orders.filter (fun o => quiesces q o && o.phase == .cancelling)).foldl
      (fun s o => s.retireWith o stPartial 0 (quiesceOuts (s.queue q))) s

/-- A cell returned to the pool (R425, R426). -/
def State.releaseCell (s : State) (cell : Nat) (tag : CellTag) : State :=
  let s := { s with cells := SMap.erase s.cells cell }
  let s := s.put (R.QUEUE_STAT.OCC tag.queue) (s.get (R.QUEUE_STAT.OCC tag.queue) - 1)
  let s := s.put R.QUEUE_POOLSTAT.FREE (s.poolFree + 1)
  let s := if tag.popped then s
    else
      let s := s.updQueue tag.queue (fun qu => { qu with barges :=
        (qu.barges.map (fun b => { b with cells := b.cells.filter (fun c => c != cell) })).filter (fun b => !b.cells.isEmpty) })
      s.cellConsumed tag.queue
  s.retryWaiting

/-- The oldest unread barge of a queue that its consumer may take whole: all its cells visible, in a queue that delivers
(R418, R423). -/
def State.frontBarge? (s : State) (q : Nat) : Option QBarge :=
  if s.qstate q = qActive ∨ s.qstate q = qClosing then
    match (s.queue q).barges with
    | b :: _ => if b.visible ≥ b.total then some b else none
    | [] => none
  else none

/-- The oldest unread barge that its consumer may begin (R423): THRESH cells visible, or all of them. -/
def State.beginBarge? (s : State) (q : Nat) : Option QBarge :=
  if s.qstate q = qActive ∨ s.qstate q = qClosing then
    match (s.queue q).barges with
    | b :: _ =>
      let th := s.get (R.QUEUE_CFG.THRESH q)
      let need := if th = 0 || s.dropNewest q then b.total else min th b.total
      if b.visible ≥ need then some b else none
    | [] => none
  else none

/-- The consumer has issued the whole of a barge and frees its cells (R425). -/
def State.freeCells (s : State) (cells : List Nat) : State :=
  cells.foldl (fun s c => match SMap.find? s.cells c with
    | some tag => s.releaseCell c tag
    | none => s) s

/-- R424: a consumer bound to a queue, `kind` as QUEUE_STAT.CONSUMER codes it and `who` its number; none when the queue has
another consumer. -/
def State.bindQueue? (s : State) (q kind who : Nat) : Option State :=
  let k := s.get (R.QUEUE_STAT.CONSUMER q)
  if k = 0 ∨ (k = kind ∧ (s.queue q).binder = who) then
    some ((s.put (R.QUEUE_STAT.CONSUMER q) kind).updQueue q (fun qu => { qu with binder := who }))
  else none

/-- The consumer of a queue unbound, if it is the one named. -/
def State.unbindQueue (s : State) (q kind who : Nat) : State :=
  if s.get (R.QUEUE_STAT.CONSUMER q) = kind ∧ (s.queue q).binder = who then
    (s.put (R.QUEUE_STAT.CONSUMER q) 0).updQueue q (fun qu => { qu with binder := 0 })
  else s

/-- R427: EN cleared: an ACTIVE queue becomes CLOSING, its tear register written first if a cell passes (R432); a queue in
REBUILD closes when it has been rebuilt. -/
def State.closeQueue (s : State) (q : Nat) : State :=
  let s := s.put (R.QUEUE_CFG.EN q) 0
  if s.qstate q = qActive then
    let s := if s.dropNewest q then s.tearTry q else s
    let s := s.put (R.QUEUE_STAT.STATE q) qClosing
    s.updQueue q (fun qu => { qu with closedAt := s.time, consumed := 0 })
  else s

/-- R427, R431: an OFF queue enabled: ACTIVE and empty, in drop-newest mode with T_EN recorded and TEAR_SEQ restarted. -/
def State.openQueue (s : State) (q : Nat) : State :=
  let s := (s.put (R.QUEUE_CFG.EN q) 1).put (R.QUEUE_STAT.STATE q) qActive
  let s := (s.put (R.QUEUE_DROP.DROPPED q) 0).put (R.QUEUE_TEARSEQ.TEAR_SEQ q) 0
  let s := s.updQueue q (fun qu => { qu with lastSeq := [] })
  if s.dropNewest q then
    let t := toTime96 s.time
    ((s.setWord (R.QUEUE_TEARBASE0 q) (BitVec.ofNat 32 t)).setWord (R.QUEUE_TEARBASE1 q) (BitVec.ofNat 32 (t / 2 ^ 32))).setWord
      (R.QUEUE_TEARBASE2 q) (BitVec.ofNat 32 (t / 2 ^ 64))
  else s

/-- R433: the block's refusal flag. -/
def State.queueCfgErr (s : State) : State := s.put R.QUEUE_POOLSTAT.CFG_ERR 1

/-- R427, R428, R432, R433: the effect of a write of QUEUE_CFG for queue `q`. -/
def State.writeQueueCfg (s : State) (q w : Nat) : State :=
  let en := s.on (R.QUEUE_CFG.EN q)
  let mode := bits w 1 1
  let thresh := bits w 2 4
  let s := s.put (R.QUEUE_CFG.LIMIT q) (bits w 8 18)
  let s := if mode = s.get (R.QUEUE_CFG.MODE q) then s
    else if en ∨ (mode = 1 ∧ 64 ≤ q) then s.queueCfgErr
    else s.put (R.QUEUE_CFG.MODE q) mode
  let s := if thresh = s.get (R.QUEUE_CFG.THRESH q) then s
    else if en then s.queueCfgErr
    else s.put (R.QUEUE_CFG.THRESH q) thresh
  let s := if bit w 0 ∧ !en then
      if s.qstate q = qOff then s.openQueue q
      else if s.qstate q = qClosing then s.queueCfgErr
      else s.put (R.QUEUE_CFG.EN q) 1
    else if !bit w 0 ∧ en then s.closeQueue q
    else s
  s.retryWaiting

/-- R421, R430, Table 13-4: the effect of a write of QUEUE_POOLCFG: raising DATA_RES over the free cells sets LOW_SEEN;
lowering it may let waiting marks and tears through. -/
def State.writePoolCfg (s : State) (w : Word) : State :=
  let old := s.get R.QUEUE_POOLCFG.DATA_RES
  let s := s.plainWrite R.QUEUE_POOLCFG w
  let s := if old ≤ s.poolFree ∧ s.poolFree < s.get R.QUEUE_POOLCFG.DATA_RES then
      (s.put R.QUEUE_POOLSTAT.LOW_SEEN 1).raiseInst 229 0
    else s
  s.retryWaiting

/-- R426, R433: QUEUE_ERR of the last queue error. -/
def State.queueErr (s : State) (kind q cell : Nat) : State :=
  s.setWord R.QUEUE_ERR (BitVec.ofNat 32 (cell % 2 ^ 17 + q % 4096 * 2 ^ 17 + kind * 2 ^ 29))

/-- R417, R418: what the compare of two stored copies of a structure (0 a queue pointer, 1 an owner tag) leads to: nothing; a repair with QERR_PTR_MISMATCH; or REBUILD. The
answer says whether the access goes on. -/
def State.compareCopies (s : State) (q cell structure_ : Nat) (c : CopyRead) : Bool × State :=
  match c with
  | .agree => (true, s)
  | .onePasses => (true, (s.queueErr 3 q cell).raiseWith 224 q [q, structure_])
  | .lost =>
    if s.qstate q = qActive ∨ s.qstate q = qClosing then
      (false, (s.queueErr 4 q cell).put (R.QUEUE_STAT.STATE q) qRebuild)
    else (false, s)

/-- ADMISSION_REQUEST (R417–R422, R428–R431): a producer asks queue `q` to accept barge `b`; the compare of the queue's
pointer copies found `c`. -/
def execAdmissionRequest (q : Fin 4096) (b : Barge) (c : CopyRead) (s : State) : Out :=
  let r := s.compareCopies q.val 0 0 c
  .next (r.2.admitBarge q.val b).2

/-- R426: whether an agent may free a cell with this tag: for a popped cell the unit in POPPER, for a queued one the
queue's consumer other than a calender unit. -/
def State.mayFree (s : State) (tag : CellTag) (by_ : FreeAgent) : Bool :=
  match by_ with
  | .unit u => tag.popped && tag.popper == u.val
  | .consumer => !tag.popped && !(s.get (R.QUEUE_STAT.CONSUMER tag.queue) == 0 || s.get (R.QUEUE_STAT.CONSUMER tag.queue) == 2)

/-- R426: a free of a cell by an agent that gives its queue and epoch. -/
def State.freeCell (s : State) (cell q epoch : Nat) (by_ : FreeAgent) : State :=
  match SMap.find? s.cells cell with
  | none => ((s.queueErr 1 q cell).put (R.QUEUE_STAT.DF_SEEN q) 1).raiseInst 227 q
  | some tag =>
    if tag.queue = q ∧ tag.epoch = epoch ∧ s.mayFree tag by_ then s.releaseCell cell tag
    else ((s.queueErr 2 tag.queue cell).put (R.QUEUE_STAT.FF_SEEN tag.queue) 1).raiseInst 228 tag.queue

/-- CELL_FREE (R417, R418, R426): an agent frees a cell under a queue and epoch; the compare of the tag's copies found `c`. -/
def execCellFree (cell : Fin 131072) (q : Fin 4096) (epoch : Fin 4) (by_ : FreeAgent) (c : CopyRead) (s : State) : Out :=
  let r := s.compareCopies q.val cell.val 1 c
  .next (if r.1 then r.2.freeCell cell.val q.val epoch.val by_ else r.2)

/-- QUEUE_EN_WRITE (R427, R428, R432, R433): a write of QUEUE_CFG, which acts on the queue that QUEUE_SEL names. -/
def execQueueEnWrite (p : Path) (w : Word) (s : State) : Out :=
  let q := s.get R.QUEUE_SEL.QUEUE
  .next (s.gate p 0x90014 (fun s => s.retainWrite (R.QUEUE_CFG q) w) (fun s => s.writeQueueCfg q w.toNat))

/-- R427: whether a CLOSING queue has nothing left to deliver, or no consumer to deliver it to. -/
def State.reclaimable (s : State) (q : Nat) : Bool :=
  s.qstate q == qClosing &&
    (s.get (R.QUEUE_STAT.CONSUMER q) == 0
      || ((s.queue q).barges.isEmpty && !s.markStore.any (fun m => m.queue == q)))

/-- R427, R432, R435: the reclaim: the store's marks for the queue and a tear register still held are lost, every cell with
the queue's tag goes back to the pool, EPOCH advances, the queue is OFF, and its QUEUE_QUIESCE orders retire. -/
def State.reclaim (s : State) (q : Nat) : State :=
  let mine := (s.cells.filter (fun e => e.2.queue == q)).length
  let s := { s with
    markStore := s.markStore.filter (fun m => m.queue != q)
    cells := s.cells.filter (fun e => e.2.queue != q) }
  let s := s.put R.QUEUE_POOLSTAT.FREE (s.poolFree + mine)
  let s := (s.put (R.QUEUE_STAT.OCC q) 0).setWord (R.QUEUE_TEAR q) 0#32
  let s := (s.inc (R.QUEUE_STAT.EPOCH q)).put (R.QUEUE_STAT.STATE q) qOff
  let s := s.updQueue q (fun qu => { qu with barges := [], reclaimed := mine })
  let s := (s.orders.filter (fun o => quiesces q o && o.phase != .pending)).foldl (fun s o =>
    if o.phase = .cancelling then s.retireWith o stPartial 0 (quiesceOuts (s.queue q))
    else s.retireWith o (if o.late then stLate else stOk) 0 (quiesceOuts (s.queue q) ++ [(36, leBytes 4 mine)])) s
  s.retryWaiting

/-- RECLAIM_DONE (R427): a CLOSING queue that has nothing left to deliver frees its cells and is OFF. A tear register that can
still be written goes first (R432). -/
def execReclaimDone (q : Fin 4096) (s : State) : Out :=
  let q := q.val
  let s' := if s.qstate q = qClosing ∧ s.dropNewest q then s.tearTry q else s
  .next (if s'.reclaimable q then s'.reclaim q else s')

/-- QUEUE_REBUILD_DONE (R418): LK1's rebuild ends: the queue resumes (in CLOSING when EN was cleared meanwhile), or it is
FENCED for good and raises QERR_QUEUE_FENCED. -/
def execQueueRebuildDone (q : Fin 4096) (ok : Bool) (s : State) : Out :=
  let q := q.val
  if s.qstate q ≠ qRebuild ∨ !s.lkUp 1 then .next s
  else if !ok then .next ((s.put (R.QUEUE_STAT.STATE q) qFenced).raiseInst 225 q)
  else
    let s := s.put (R.QUEUE_STAT.STATE q) qActive
    .next ((if s.on (R.QUEUE_CFG.EN q) then s else s.closeQueue q).retryWaiting)

/-- R435: a QUEUE_QUIESCE becomes due. -/
def State.quiesceDue (s : State) (o : Order) (late : Bool) : State :=
  let q := o.u 16 2
  if s.qstate q = qOff ∨ s.qstate q = qFenced then s.retire o stState
  else (s.updOrder o.ref (fun o => { o with phase := .running, late := late })).closeQueue q

/-- R434: the checks of Table 13-5. -/
def quiesceChecks (o : Order) : List (Nat × Bool) :=
  [chk 16 (4096 ≤ o.u 16 2), chk 18 (1 < o.u 18 1), chk 19 (o.u 19 1 ≠ 0), chk 20 (o.u 18 1 = 1 ∧ badTime o 20)]
    ++ reserved o 40 24

/-- The effect of an accepted QUEUE_QUIESCE (R434, R435). -/
def State.quiesceAccept (o : Order) (s : State) : State :=
  s.validate o (quiesceChecks o) (fun s =>
    if o.u 18 1 = 0 then s.quiesceDue o false
    else if ofTime96 (o.u 20 12) ≤ s.time then s.quiesceDue o (ofTime96 (o.u 20 12) < s.time)
    else s)

/-- QUEUE_QUIESCE (R434, R435): the order is accepted: it closes its queue now or waits for its TIME. -/
def execQueueQuiesce (s : State) : Out := .next (s.accept 0x0801 State.quiesceAccept)

/-- QUEUE_QUIESCE_DUE (R435): a timed QUEUE_QUIESCE whose TIME has come closes its queue. -/
def execQueueQuiesceDue (ring index : Nat) (s : State) : Out :=
  match s.order? (ring, index) with
  | some o =>
    if o.opcode = 0x0801 ∧ o.phase = .pending ∧ ofTime96 (o.u 20 12) ≤ s.time then .next (s.quiesceDue o o.late) else .next s
  | none => .next s

/-- R435: a cancel of a QUEUE_QUIESCE: before it is due CANCELLED, afterwards CANCELLED_PARTIAL at the next cell consumed. -/
def State.quiesceCancel (s : State) (o : Order) : State :=
  match o.phase with
  | .pending => s.retire o stCancelled
  | _ => s.updOrder o.ref (fun o => { o with phase := .cancelling })

end Machine
end Sys2Proof
end

