-- ==== Sys2Proof/Machine/Rings.lean ====
section
/-!
DEFINITION. Descriptor rings, the tally page and the lookout (chapter 12): the counts of a ring, polls and fetches, parking,
stream buffers, the enabling and stopping of rings. Ring numbers 0–112 are Table 12-1's; ER1 stands as 113. The move channels'
copies are in Moves.lean, the acceptance of orders by kind in the chapters that own them.

Marked choices (log entries): DEDUCED 42, 45, 109, 111, 135, 140; DESIGN CHOICE 46, 131. Each entry of notes/assumptions says
safe or unsafe.
-/

namespace Sys2Proof
namespace Machine

/-- A ring's internals. -/
def State.ring (s : State) (x : Nat) : Ring := (SMap.find? s.rings x).getD {}

/-- A ring's internals changed. -/
def State.updRing (s : State) (x : Nat) (f : Ring → Ring) : State := { s with rings := SMap.put s.rings x (f (s.ring x)) }

/-- The kinds of Table 12-1. -/
def isCmdRing (x : Nat) : Bool := x < 16
def isStreamRing (x : Nat) : Bool := 16 ≤ x && x < 80
/-- The stream rings. -/
def streamRings : List Nat := (List.range 64).map (fun x => 16 + x)
def isMoveRing (x : Nat) : Bool := 80 ≤ x && x < 112
def isEventRing (x : Nat) : Bool := 112 ≤ x

/-- Table 12-1: bytes of an entry. -/
def entrySize (x : Nat) : Nat := if x < 16 then 64 else 32

/-- The registers of a ring, ER1's among them. -/
def ringCfgKey (x : Nat) : Nat := if x = 113 then R.ER1_CFG else R.RING_CFG x
def ringEN (x : Nat) : Field := if x = 113 then R.ER1_CFG.EN else R.RING_CFG.EN x
def ringBUSY (x : Nat) : Field := if x = 113 then R.ER1_CFG.BUSY else R.RING_CFG.BUSY x
def ringLOG2 (x : Nat) : Field := if x = 113 then R.ER1_CFG.LOG2SIZE else R.RING_CFG.LOG2SIZE x
def ringCFGERR (x : Nat) : Field := if x = 113 then R.ER1_CFG.CFG_ERR else R.RING_STAT.CFG_ERR x
def ringTAILERR (x : Nat) : Field := if x = 113 then R.ER1_CFG.TAIL_ERR else R.RING_STAT.TAIL_ERR x

/-- HEAD: the entries taken (R368). -/
def State.ringHead (s : State) (x : Nat) : Nat := if x = 113 then (s.ring 113).head1 else s.get (R.RING_HEAD.HEAD x)

/-- HEAD replaced. -/
def State.setRingHead (s : State) (x n : Nat) : State :=
  if x = 113 then s.updRing 113 (fun r => { r with head1 := n % 2 ^ 32 }) else s.put (R.RING_HEAD.HEAD x) n

/-- SIZE = 2^LOG2SIZE. -/
def State.ringSize (s : State) (x : Nat) : Nat := 2 ^ s.get (ringLOG2 x)

/-- The ring's base in host memory. -/
def State.ringBase (s : State) (x : Nat) : Nat :=
  if x = 113 then s.get R.ER1_BASE_LO.ADDR_LO * 64 + s.get R.ER1_BASE_HI.ADDR_HI * 2 ^ 32
  else s.get (R.RING_BASE_LO.ADDR_LO x) * 64 + s.get (R.RING_BASE_HI.ADDR_HI x) * 2 ^ 32

/-- Whether the function that serves a ring may issue requests (R351). -/
def State.busMaster (s : State) (x : Nat) : Bool := if x = 113 then s.pcie.busMaster1 else s.pcie.busMaster0

/-- Whether the device may issue requests for a ring now. -/
def State.upstream (s : State) (x : Nat) : Bool := s.busMaster x && s.pcie.linkUp

/-- An entry of a ring returned as its bytes (R370), counted and reported. -/
def State.returnEntry (s : State) (x index : Nat) (bytes : List Byte) (irq : Bool) : State :=
  let s := (s.send (.entry x index bytes)).countDone x
  if irq then s.irq (ringIrq x) else s

/-- A count of BAD returns (Table 12-12). -/
def State.countBad (s : State) (x : Nat) : State := if x = 113 then s else s.satInc (R.RING_STAT.BAD x)

/-- Whether byte 0 of an entry asks for an interrupt. -/
def entryIrq (bytes : List Byte) : Bool := bit (field bytes 0 1) 1

/-- A stream buffer returned: STATUS, CLOSE, BYTES and BARGES (Table 12-7). -/
def State.returnBuffer (s : State) (x : Nat) (e : RingEntry) (status close used barges : Nat) : State :=
  let s := (s.send (.buffer x e.index status close used barges)).countDone x
  if entryIrq e.bytes then s.irq (ringIrq x) else s

/-- R401, R412: an event slot returned empty. -/
def State.returnSlotEmpty (s : State) (x index : Nat) : State := s.returnEntry x index (List.replicate 32 0#8) false

/-- R405: a move entry returned with STATUS, REASON and DONE. -/
def State.returnMove (s : State) (x : Nat) (e : RingEntry) (status reason done : Nat) : State :=
  let bs := overlay e.bytes 28 (leBytes 4 done)
  let bs := overlay bs 0 [BitVec.ofNat 8 (field bs 0 1 / 2 * 2), BitVec.ofNat 8 status, BitVec.ofNat 8 reason]
  let s := if status = stBad then s.countBad x else s
  s.returnEntry x e.index bs (entryIrq e.bytes)

/-- R687: whether a stream buffer descriptor is usable. -/
def bufferOk (bs : List Byte) : Bool :=
  let size := field bs 4 4
  size % 64 == 0 && 128 ≤ size && size ≤ 0x40000000 && field bs 8 8 % 64 == 0
    && field bs 0 1 / 4 == 0 && field bs 3 1 == 0 && field bs 24 8 == 0

/-- An entry's bytes brought to the ring's entry size. -/
def fitEntry (x : Nat) (bs : List Byte) : List Byte :=
  (bs ++ List.replicate (entrySize x) 0#8).take (entrySize x)

/-- Insertion of an order among those taken, by poll, then ring, then index (R384). -/
def insertOrder (o : Order) : List Order → List Order
  | [] => [o]
  | x :: t =>
    if o.poll < x.poll ∨ (o.poll = x.poll ∧ o.ring < x.ring) then o :: x :: t else x :: insertOrder o t

/-- R373, R383, R401, R405, R687: one owned entry taken, or one that could not be read returned as its kind states. -/
def State.takeEntry (s : State) (x poll : Nat) (f : FetchResult) : State :=
  let i := s.ringHead x
  let s := s.setRingHead x (i + 1)
  match f with
  | .failed reason =>
    if isCmdRing x then
      (s.returnEntry x i (overlay (List.replicate 64 0#8) 0 ([0#8, BitVec.ofNat 8 stBad] ++ List.replicate 6 0#8 ++ leBytes 2 reason))
        false).countBad x
    else if isStreamRing x then (s.returnBuffer x ⟨i, List.replicate 32 0#8⟩ stBad 0 0 0).countBad x
    else if isMoveRing x then s.returnMove x ⟨i, List.replicate 32 0#8⟩ stBad reason 0
    else (s.returnSlotEmpty x i).countBad x
  | .entry bytes =>
    let bs := fitEntry x bytes
    let e : RingEntry := ⟨i, bs⟩
    if isCmdRing x then
      let o : Order := { ring := x, index := i, poll := poll, bytes := bs }
      { s with taken := insertOrder o s.taken }
    else if isStreamRing x && !bufferOk bs then s.returnBuffer x e stBadParam 0 0 0
    else s.updRing x (fun r => { r with taken := r.taken ++ [e] })

/-- R373: the entries of one fetch taken in order up to the first that the device does not own. The answer says whether all
were. -/
def State.takeEntries (s : State) (x poll : Nat) : List FetchResult → Bool × State
  | [] => (true, s)
  | .failed r :: t => (s.takeEntry x poll (.failed r)).takeEntries x poll t
  | .entry bs :: t => if bit (field bs 0 1) 0 then (s.takeEntry x poll (.entry bs)).takeEntries x poll t else (false, s)

/-- How far a TAIL lies ahead of a HEAD (R372: both count modulo 2^32). -/
def ringDist (tail head : Nat) : Nat := (BitVec.ofNat 32 tail - BitVec.ofNat 32 head).toNat

/-- R368, R377: the entries one read can fetch from HEAD: up to 8, and none past the ring's last slot. -/
def State.fetchSpan (s : State) (x : Nat) : Nat := min 8 (s.ringSize x - s.ringHead x % s.ringSize x)

/-- Where entry `i` of a ring's sequence lies in host memory (R368), and the function that reads it. -/
def State.entryAddr (s : State) (x i : Nat) : Nat := s.ringBase x + i % s.ringSize x * entrySize x
def ringFn (x : Nat) : Nat := if x = 113 then 1 else 0

/-- A fetch of entries from HEAD (R377). -/
def State.startFetch (s : State) (x n poll : Nat) : State :=
  let i := s.ringHead x
  let k := min n (s.fetchSpan x)
  (s.updRing x (fun r => { r with fetch := some (i, k), fetchPoll := poll })).readHost (ringFn x) (s.entryAddr x i) (k * entrySize x)

/-- A fetch that has come back. -/
def State.endFetch (s : State) (x i k : Nat) : State :=
  (s.readDone (ringFn x) (s.entryAddr x i) (k * entrySize x)).updRing x (fun r => { r with fetch := none })

/-- R374: a TAIL beyond SIZE stops the ring. -/
def State.tailError (s : State) (x : Nat) : State :=
  ((s.put (ringEN x) 0).put (ringTAILERR x) 1).raise 192 x x

/-- R616: a TAIL that hands event slots back consumes the records outstanding in them. -/
def State.consumeRecords (s : State) (x tail : Nat) : State :=
  let keep := fun (e : Nat × Nat) => decide (ringDist tail e.2 ≤ s.ringSize x)
  if x = 112 then { s with ev := { s.ev with out0 := s.ev.out0.filter keep } }
  else if x = 113 then { s with ev := { s.ev with out1 := s.ev.out1.filter keep } }
  else s

/-- R372–R374, R376: one ring's TAIL compared with its HEAD. The answer says whether new entries were found. -/
def State.compareTail (s : State) (x tail poll : Nat) : Bool × State :=
  let s := s.consumeRecords x tail
  let s := s.updRing x (fun r => { r with tail := tail })
  let n := ringDist tail (s.ringHead x)
  if n = 0 then (false, s)
  else if s.ringSize x < n then (false, s.tailError x)
  else if (s.ring x).fetch.isSome then (true, s)
  else (true, s.startFetch x n poll)

/-- The comparison for every enabled ring, in ring order: whether any had new entries, and whether one had more than a
batch. -/
def State.compareAll (s : State) (tails : List (Nat × Word)) (poll : Nat) : List Nat → Bool × Bool × State
  | [] => (false, false, s)
  | x :: t =>
    if s.on (R.RING_CFG.EN x) then
      let tail := match SMap.find? tails x with
        | some w => w.toNat
        | none => (s.ring x).tail
      let more := decide (s.fetchSpan x < ringDist tail (s.ringHead x))
      let r := s.compareTail x tail poll
      let r' := r.2.compareAll tails poll t
      (r.1 || r'.1, (r.1 && more) || r'.2.1, r'.2.2)
    else s.compareAll tails poll t

/-- R376: a poll reads each 64-byte line of the tally page that holds the TAIL of an enabled ring. -/
def State.pollReads (s : State) : State :=
  let base := s.get R.RING_TALLY_LO.ADDR_LO * 4096 + s.get R.RING_TALLY_HI.ADDR_HI * 2 ^ 32
  (List.range 15).foldl (fun (s : State) l =>
    if (List.range 8).any (fun i => 8 * l + i < 113 && s.on (R.RING_CFG.EN (8 * l + i))) then s.send (.hostRead 0 (base + 64 * l) 64) else s) s

/-- A poll that was read without error (R376, R377). The answer says whether it found new entries. -/
def State.pollResult (s : State) (tails : List (Nat × Word)) : Bool × State :=
  let poll := s.lookout.polls + 1
  let r := s.compareAll tails poll (List.range 113)
  let s := r.2.2
  (r.1, { s with lookout := { s.lookout with
    polls := poll
    lastPoll := s.ns
    lastFound := if r.1 then s.ns else s.lookout.lastFound
    pollNow := r.2.1 } })

/-- R378: a tally-page read that failed. -/
def State.tallyError (s : State) : State :=
  let s := (s.put R.RING_STATUS.TALLY_ERR 1).raiseInst 193 0
  { s with lookout := { s.lookout with lastPoll := s.ns, pollNow := false } }

/-- LOOKOUT_PERIOD in ns (Table 12-11). -/
def State.lookoutPeriod (s : State) : Nat := 10 * min 10000 (max 10 (s.get R.RING_LOOKOUT.PERIOD))

/-- Whether the lookout polls at all (R376, R379, R413). -/
def State.lookoutRuns (s : State) : Bool :=
  !s.lowPower && s.on R.RING_CTL.LOOKOUT_EN && !s.on R.RING_STATUS.PARKED && s.pcie.busMaster0 && s.pcie.linkUp

/-- LOOKOUT_POLL (R376–R378): a poll that is due returns the TAIL words it read (a ring not listed reads as before), or
fails. -/
def execLookoutPoll (tails : List (Nat × Word)) (ok : Bool) (s : State) : Out :=
  if s.lookoutRuns && (s.lookout.pollNow || s.ns ≥ s.lookout.lastPoll + s.lookoutPeriod) then
    let s := s.pollReads
    .next (if ok then (s.pollResult tails).2 else s.tallyError)
  else .next s

/-- ENTRY_FETCHED (R373, R383, R401, R405, R687): the fetch of ring `x` returns its entries in order. A fetch that outlived
its ring's EN is discarded (R412). ER1, which no poll serves, goes on with what is left of its TAIL. -/
def execEntryFetched (x : Fin 114) (es : List FetchResult) (s : State) : Out :=
  let x := x.val
  match (s.ring x).fetch with
  | none => .next s
  | some (i, k) =>
    let poll := (s.ring x).fetchPoll
    let s := s.endFetch x i k
    if !s.on (ringEN x) then .next s
    else
      let r := s.takeEntries x poll (es.take k)
      let s := r.2
      let n := ringDist (s.ring x).tail (s.ringHead x)
      if x = 113 ∧ r.1 ∧ n ≠ 0 then .next (s.startFetch 113 n 0) else .next s

/-- The status word of the tally page (Table 12-2). -/
def State.writeStatusWord (s : State) (parked : Bool) : State :=
  s.send (.tally 0xF00 (BitVec.ofNat 32 (b2n parked + s.lookout.parkSeq % 65536 * 65536)))

/-- PARK (R379): after PARK_AFTER without a new entry the lookout writes PARKED with the next PARK_SEQ and issues its final
poll. -/
def execPark (s : State) : Out :=
  if s.lookoutRuns && s.on R.RING_CTL.PARK_EN
      && s.ns ≥ s.lookout.lastFound + 1000 * max 1 (s.get R.RING_PARK.PARK_AFTER) then
    let s := { s with lookout := { s.lookout with parkSeq := (s.lookout.parkSeq + 1) % 65536, finalPoll := true } }
    .next ((s.put R.RING_STATUS.PARKED 1).writeStatusWord true).pollReads
  else .next s

/-- The lookout unparked: the status word with PARKED = 0 and the same PARK_SEQ. -/
def State.unpark (s : State) : State :=
  let s := { s with lookout := { s.lookout with finalPoll := false, lastFound := s.ns } }
  (s.put R.RING_STATUS.PARKED 0).writeStatusWord false

/-- FINAL_POLL_RESULT (R378, R379): the final poll finds a new entry, or fails, and polling resumes; or it finds none, the
lookout stays parked and source 117 asserts. On the way to STANDBY or SLEEP a new entry is a wake cause (R574). -/
def execFinalPollResult (tails : List (Nat × Word)) (ok : Bool) (s : State) : Out :=
  if !s.lookout.finalPoll then .next s
  else if !ok then .next s.tallyError.unpark
  else
    let r := s.pollResult tails
    if r.1 ∧ (s.lowPower ∨ s.power.entering.isSome) then
      .next { s.wakeCause 7 with lookout := { s.lookout with finalPoll := false } }
    else if r.1 then .next r.2.abandonAuto.unpark
    else .next ({ r.2 with lookout := { r.2.lookout with finalPoll := false } }.irq 117)

/-- R380: what a WAKE write does to the lookout: it counts, unparks and causes one immediate poll. -/
def State.wakeLookout (s : State) : State :=
  let s := s.inc R.RING_STATUS.WAKES
  let s := if s.on R.RING_STATUS.PARKED then s.unpark else s
  { s with lookout := { s.lookout with pollNow := true } }

/-- The parameter checks of NOP (R387): each field's byte offset, and whether the field is invalid. -/
def nopChecks (o : Order) : List (Nat × Bool) :=
  reserved o 16 48

/-- NOP (R389): the next order, if it is a NOP: bytes 16–63 must be 0; it retires OK. -/
def State.nopAccept (o : Order) (s : State) : State :=
  s.validate o (nopChecks o) (fun s => s.retire o stOk)

/-- The arm of that order. -/
def execNop (s : State) : Out := .next (s.accept 0x0000 State.nopAccept)

/-! ### Stream buffers -/

/-- The `m`-bit reversal of `t` (R153). -/
def bitrev : Nat → Nat → Nat
  | 0, _ => 0
  | m + 1, t => t % 2 * 2 ^ m + bitrev m (t / 2)

/-- A byte string cut into elements of `e` bytes. -/
def chunks {α : Type} (e : Nat) : Nat → List α → List (List α)
  | 0, _ => []
  | n + 1, bs => bs.take e :: chunks e n (bs.drop e)

/-- The centred indices of the exported bins in emission order (R153, R154). -/
def emissionOrder (m first last : Nat) : List Nat :=
  ((List.range (2 ^ m)).map (fun t => (bitrev m t + 2 ^ (m - 1)) % 2 ^ m)).filter (fun c => first ≤ c && c ≤ last)

/-- Bytes per element of a format (Table 10-11); 1 for a format whose elements are no whole bytes. -/
def elemBytes (fmt : Nat) : Nat :=
  match fmt with
  | 0x02 => 2
  | 0x03 => 4
  | 0x04 => 5
  | 0x10 => 6
  | 0x11 => 2
  | 0x12 => 4
  | 0x20 => 2
  | _ => 1

/-- R399: a list of per-byte items of a payload whose elements have `e` bytes, brought from emission order to centred order. -/
def inCentredOrder {α : Type} (order : List Nat) (e : Nat) (xs : List α) : List α :=
  let els := chunks e (xs.length / e) xs
  ((order.zip els).foldl (fun m x => SMap.put m x.1 x.2) []).flatMap (fun x => x.2)

/-- The ranges (first, one past the last) of a list of flags, counted from `p`. -/
def flagRanges (p : Nat) : List Bool → List (Nat × Nat)
  | [] => []
  | b :: t =>
    let rs := flagRanges (p + 1) t
    if !b then rs
    else match rs with
      | (lo, hi) :: rest => if lo = p + 1 then (p, hi) :: rest else (p, p + 1) :: rs
      | [] => [(p, p + 1)]

/-- R169, R399: a SHEET barge of a plan with PLAN_EXPORT(p).ORDER = 1 at its PLAN_START goes to the host in centred order, with ORDER = 1 in its
WORD40. -/
def State.hostBarge (s : State) (b : Barge) : Barge :=
  let p := b.word40 % 64
  let pl := (SMap.find? s.plans p).getD {}
  if b.type = 2 ∧ pl.order then
    let e := elemBytes (b.format % 256)
    let order := emissionOrder (bits b.word40 48 5) pl.first pl.last
    let flags := (List.range b.payload.length).map (fun i => b.bad.any (fun r => r.1 ≤ i && i < r.2))
    { b with
      payload := inCentredOrder order e b.payload, word40 := setBit b.word40 30 true
      bad := if b.bad.isEmpty then [] else flagRanges 0 (inCentredOrder order e flags) }
  else b

/-- R396: the open buffer of a stream ring returned, for the reason given. -/
def State.closeBuffer (s : State) (x close : Nat) : State :=
  match (s.ring x).buf with
  | some o => (s.updRing x (fun r => { r with buf := none })).returnBuffer x o.entry stOk close o.used o.barges
  | none => s

/-- R359: the byte ranges of a barge's span that were read from poisoned lines, header and payload counted from its first byte. -/
def Barge.epRanges (b : Barge) : List (Nat × Nat) :=
  (b.bad.filter (fun r => r.1 < b.payload.length)).map (fun r => (64 + r.1, if r.2 < b.payload.length then 64 + r.2 else b.span))

/-- A barge written into the open buffer (R347, R349, R359, R395), with the MARK close of R396. -/
def State.writeBarge (s : State) (x : Nat) (o : OpenBuf) (b : Barge) : State :=
  let b := s.hostBarge b
  let o := { o with used := o.used + b.span, barges := o.barges + 1, firstAt := if o.barges = 0 then s.ns else o.firstAt }
  let s := (s.updRing x (fun r => { r with buf := some o })).send
    (.barge x o.entry.index (o.used - b.span) b s.pcie.relaxed
      (writeCuts s.pcie.mps (field o.entry.bytes 8 8 + (o.used - b.span)) b.span (Barge.epRanges b) b.span 0))
  if o.closeMark && b.isMark then s.closeBuffer x 2 else s

/-- The next taken buffer opened for a barge of `span` bytes; one too small for it is returned (R397). -/
def State.openBuffer (s : State) (x span : Nat) : Option OpenBuf × State :=
  match (s.ring x).taken with
  | [] => (none, s)
  | e :: t =>
    let s := s.updRing x (fun r => { r with taken := t })
    if field e.bytes 4 4 < span then
      (none, ((s.returnBuffer x e stTooSmall 0 0 0).put (R.RING_STAT.TOO_SMALL_SEEN x) 1).raiseInst 194 x)
    else (some { entry := e, closeMark := s.on (R.RING_SRC.CLOSE_MARK x), flushUs := s.get (R.RING_SRC.FLUSH_US x) }, s)

/-- R395: a barge put into the ring's buffers: the open one if it fits, else that one closes FULL and the next is opened. The
answer says whether it was written. -/
def State.deliver (s : State) (x : Nat) (b : Barge) : Bool × State :=
  let fits := match (s.ring x).buf with
    | some o => if o.used + b.span ≤ field o.entry.bytes 4 4 then some o else none
    | none => none
  match fits with
  | some o => (true, s.writeBarge x o b)
  | none =>
    let r := (s.closeBuffer x 0).openBuffer x b.span
    match r.1 with
    | some o => (true, r.2.writeBarge x o b)
    | none => (false, r.2)

/-- R419, R299: the POISON marks that follow a barge read with uncorrectable ranges (offset and lines) from the cell pool. -/
def poolPoisonMarks (b : Barge) (bad : List (Nat × Nat)) : List Barge :=
  bad.map (fun r => { mkMark b.stream b.source mkPoison b.stamp b.qual 0
      (r.1 % 2 ^ 32 + min r.2 65535 * 2 ^ 32 + 7 * 2 ^ 48 + 0x3F * 2 ^ 52) flAux with
    seq := b.seq })

/-! ### Turns (R400, R410) -/

def RingEntry.u (e : RingEntry) (off n : Nat) : Nat := field e.bytes off n
def RingEntry.toHost (e : RingEntry) : Bool := bit (e.u 0 1) 2
def RingEntry.paced (e : RingEntry) : Bool := bit (e.u 0 1) 3
def RingEntry.line (e : RingEntry) : Nat := e.u 3 1 % 64
def RingEntry.len (e : RingEntry) : Nat := e.u 4 4

/-- Whether stream ring `x` has data waiting and an owned buffer. -/
def State.ringWaits (s : State) (x : Nat) : Bool :=
  s.on (R.RING_CFG.EN x) && s.upstream x && ((s.ring x).buf.isSome || !(s.ring x).taken.isEmpty)
    && (!(s.ring x).after.isEmpty || (s.frontBarge? (s.get (R.RING_SRC.QUEUE x))).isSome)

/-- Whether channel `c` has a burst to write upstream: a running move to the host with bytes to move and, where it is paced, a request. -/
def State.chanWaits (s : State) (c : Nat) : Bool :=
  match (s.ring (80 + c)).move with
  | some m => m.entry.toHost && m.done < m.entry.len && s.upstream (80 + c) && !m.cancelling
      && (!m.entry.paced || 0 < (SMap.find? s.lineReqs m.entry.line).getD 0)
  | none => false

/-- R400, R410: whether the next upstream turn can be stream ring `x`'s: stream delivery and the move engine's channels alternate while both have
data waiting, and no ring is served twice before every other waiting one. -/
def State.ringTurn (s : State) (x : Nat) : Bool :=
  (s.turns.stream ≠ some true || !(List.range 32).any (fun c => s.chanWaits c))
    && (!s.turns.rings.contains x || !(streamRings.any (fun y => s.ringWaits y && !s.turns.rings.contains y)))

/-- R410: whether the next upstream turn can be channel `c`'s: channels take the turns between those of stream delivery in channel order. A move
to device memory writes nothing upstream. -/
def State.moveTurn (s : State) (c : Nat) (m : MoveRun) : Bool :=
  !m.entry.toHost
    || ((s.turns.stream ≠ some false || !(streamRings.any (fun y => s.ringWaits y)))
      && (let ws := (List.range 32).filter (fun d => s.chanWaits d)
          let next := match s.turns.chan with
            | some l => ((ws.filter (fun d => l < d)) ++ ws).head?
            | none => ws.head?
          next == some c || !ws.contains c))

/-- A turn taken by stream ring `x`; by channel `c`. -/
def State.tookRingTurn (s : State) (x : Nat) : State :=
  let served := if s.turns.rings.contains x then [x] else x :: s.turns.rings
  { s with turns := { s.turns with stream := some true, rings := served } }
def State.tookMoveTurn (s : State) (c : Nat) : State :=
  { s with turns := { s.turns with stream := some false, chan := some c } }

/-- BARGE_DELIVERY (R395, R397, R399, R419, R425): stream ring SRx writes the next barge of its queue, whose data read back
with the uncorrectable ranges `bad`, into its buffers when its turn comes (R400, R410), and frees its cells. -/
def execBargeDelivery (x : Fin 64) (bad : List (Nat × Nat)) (s : State) : Out :=
  let x := x.val + 16
  if !s.on (R.RING_CFG.EN x) || !s.upstream x || !s.ringTurn x then .next s
  else match (s.ring x).after with
    | m :: t =>
      let r := s.deliver x m
      .next (if r.1 then (r.2.tookRingTurn x).updRing x (fun r => { r with after := t }) else r.2)
    | [] =>
      let q := s.get (R.RING_SRC.QUEUE x)
      match s.frontBarge? q with
      | none => .next s
      | some b =>
        let barge := if bad.isEmpty then b.barge
          else { withFlag b.barge 0 with bad := b.barge.bad ++ bad.map (fun r => (r.1, r.1 + 64 * r.2)) }
        let r := s.deliver x barge
        if r.1 then
          let s := (r.2.tookRingTurn x).freeCells b.cells
          .next (if bad.isEmpty then s else s.updRing x (fun r => { r with after := poolPoisonMarks barge bad }))
        else .next r.2

/-- BUFFER_CLOSE_TIMER (R396): FLUSH_US after its first barge the open buffer of SRx closes with CLOSE = TIMER. -/
def execBufferCloseTimer (x : Fin 64) (s : State) : Out :=
  let x := x.val + 16
  match (s.ring x).buf with
  | some o =>
    if o.flushUs ≠ 0 ∧ o.barges ≠ 0 ∧ o.firstAt + 1000 * o.flushUs ≤ s.ns then .next (s.closeBuffer x 1) else .next s
  | none => .next s

/-- R396: a FLUSH: the open buffer closes; an empty one stays. -/
def State.flushRing (s : State) (x : Nat) : State :=
  match (s.ring x).buf with
  | some o => if o.barges = 0 then s else s.closeBuffer x 3
  | none => s

/-- RING_FLUSH (R396): a write of RING_CFG(x).FLUSH = 1 for stream ring SRx. -/
def execRingFlush (p : Path) (x : Fin 64) (s : State) : Out :=
  let x := x.val + 16
  .next (s.gateAction p (R.RING_CFG x) (fun s => s.flushRing x))

/-! ### Enabling and stopping (R412) -/

/-- R412: a refused write to a ring's set-up. -/
def State.ringCfgErr (s : State) (x : Nat) : State := s.put (ringCFGERR x) 1

/-- R412: what clearing EN does to what a ring holds, by its kind. -/
def State.stopRing (s : State) (x : Nat) : State :=
  let r := s.ring x
  let s := s.updRing x (fun r => { r with fetch := none, taken := [] })
  if isCmdRing x then
    let mine := s.taken.filter (fun o => o.ring == x)
    let s := { s with taken := s.taken.filter (fun o => o.ring != x) }
    let s := mine.foldl (fun s o => s.returnEntry x o.index (overlay o.bytes 0 [BitVec.ofNat 8 (field o.bytes 0 1 / 2 * 2), BitVec.ofNat 8 stCancelled]) o.irq) s
    s.put (ringBUSY x) (b2n (s.orders.any (fun o => o.ring == x)))
  else if isStreamRing x then
    let s := match r.buf with
      | some o => if o.barges = 0 then (s.updRing x (fun r => { r with buf := none })).returnBuffer x o.entry stCancelled 4 0 0
                  else s.closeBuffer x 4
      | none => s
    let s := r.taken.foldl (fun s e => s.returnBuffer x e stCancelled 4 0 0) s
    s.unbindQueue (s.get (R.RING_SRC.QUEUE x)) 1 x
  else if isMoveRing x then
    let s := r.taken.foldl (fun s e => s.returnMove x e stCancelled 0 0) s
    match r.move with
    | some _ =>
      (s.updRing x (fun r => { r with move := r.move.map (fun m => { m with cancelling := true }) })).put (ringBUSY x) 1
    | none => s
  else
    let s := r.taken.foldl (fun s e => s.returnSlotEmpty x e.index) s
    if x = 112 then { s with ev := { s.ev with out0 := [] } } else { s with ev := { s.ev with out1 := [] } }

/-- R368: a ring enabled: its counts start at 0. -/
def State.startRing (s : State) (x : Nat) : State :=
  let s := (s.put (ringEN x) 1).updRing x (fun r => { after := r.after })
  if x = 113 then s.setWord R.ER1_DONE 0#32
  else (s.setWord (R.RING_HEAD x) 0#32).setWord (R.RING_DONE x) 0#32

/-- The effect of a write of EN and LOG2SIZE of a ring (Table 12-12, R393, R412). -/
def State.writeRingCfg (s : State) (x : Nat) (en : Bool) (log2 : Nat) : State :=
  let was := s.on (ringEN x)
  let busy := s.on (ringBUSY x)
  if en && !was then
    if busy then s.ringCfgErr x
    else
      let s := s.put (ringLOG2 x) log2
      if log2 < 4 ∨ 16 < log2 then s.ringCfgErr x
      else if isStreamRing x then
        match s.bindQueue? (s.get (R.RING_SRC.QUEUE x)) 1 x with
        | some s => s.startRing x
        | none => s.ringCfgErr x
      else s.startRing x
  else
    let s := if log2 = s.get (ringLOG2 x) then s
      else if was || busy then s.ringCfgErr x
      else s.put (ringLOG2 x) log2
    if was && !en then (s.put (ringEN x) 0).stopRing x else s

/-- The path by which a ring's registers are reached is the writer's; ER1's lie in PF1 and outside the token. -/
def execRingEnWrite (p : Path) (x : Fin 114) (en : Bool) (log2 : Fin 32) (s : State) : Out :=
  let x := x.val
  .next (s.gate p (ringCfgKey x)
    (fun s => (s.put (ringEN x) (b2n en)).put (ringLOG2 x) log2.val) (fun s => s.writeRingCfg x en log2.val))

/-- R372–R374, R403: the effect of a write of ER1_TAIL. -/
def State.writeEr1Tail (s : State) (tail : Nat) : State :=
  let s := s.put R.ER1_TAIL.TAIL tail
  if s.on R.ER1_CFG.EN then (s.compareTail 113 tail 0).2 else s

/-- ER1_TAIL_WRITE (R403): ER1 slots handed over. -/
def execEr1TailWrite (tail : Word) (s : State) : Out :=
  .next (s.gate .mgmt R.ER1_TAIL id (fun s => s.writeEr1Tail tail.toNat))

/-- Table 12-12: the effect of a write of RING_SRC(x): QUEUE may be changed only while EN = 0, and it is reserved on a
ring that is no stream ring, where it reads 0 and ignores the write (R5). -/
def State.writeRingSrc (s : State) (x : Nat) (w : Word) : State :=
  let q := s.get (R.RING_SRC.QUEUE x)
  if !isStreamRing x then (s.plainWrite (R.RING_SRC x) w).put (R.RING_SRC.QUEUE x) q
  else if s.on (R.RING_CFG.EN x) ∧ bits w.toNat 0 12 ≠ q then
    ((s.plainWrite (R.RING_SRC x) w).put (R.RING_SRC.QUEUE x) q).ringCfgErr x
  else s.plainWrite (R.RING_SRC x) w

/-- R412: the effect of a write of a ring's base: dropped with CFG_ERR while EN = 1 or BUSY = 1. -/
def State.writeRingBase (s : State) (x key : Nat) (w : Word) : State :=
  if s.on (ringEN x) || s.on (ringBUSY x) then s.ringCfgErr x else s.plainWrite key w

/-- Table 12-11: the effect of a write of RING_CTL; the lookout starts polling at once when it is enabled. -/
def State.writeRingCtl (s : State) (w : Word) : State :=
  let was := s.on R.RING_CTL.LOOKOUT_EN
  let s := s.plainWrite R.RING_CTL w
  if s.on R.RING_CTL.LOOKOUT_EN && !was then { s with lookout := { s.lookout with lastFound := s.ns, pollNow := true } } else s

/-- Table 12-11: writes of the tally page's address while LOOKOUT_EN = 1 are dropped. -/
def State.writeTallyBase (s : State) (key : Nat) (w : Word) : State :=
  if s.on R.RING_CTL.LOOKOUT_EN then s else s.plainWrite key w

/-- R413: one ring stopped by a hot reset or a link-down: EN cleared, entries not begun discarded, an unreturned buffer's
barges counted ABANDONED. -/
def State.abandonRing (s : State) (x : Nat) : State :=
  let r := s.ring x
  let lost := match r.buf with
    | some o => o.barges
    | none => 0
  let s := ((s.put (ringEN x) 0).put (ringBUSY x) 0).updRing x
    (fun r => { r with taken := [], fetch := none, buf := none, move := none })
  let s := if isStreamRing x then s.unbindQueue (s.get (R.RING_SRC.QUEUE x)) 1 x else s
  if lost = 0 then s else (s.satInc (R.RING_STAT.ABANDONED x) lost).raiseInst 195 x

/-- R357, R413: what a hot reset or a link-down does to the rings: all stopped, accepted orders run on without a return. -/
def State.abandonRings (s : State) : State :=
  let s := (List.range 114).foldl (fun s x => s.abandonRing x) s
  let s := { s with
    taken := []
    orders := s.orders.map (fun (o : Order) => { o with noReturn := true })
    ev := { s.ev with out0 := [], out1 := [] }
    lookout := { s.lookout with finalPoll := false, pollNow := false } }
  s.put R.RING_CTL.LOOKOUT_EN 0

end Machine
end Sys2Proof
end

