-- ==== Sys2Proof/Machine/Pcie.lean ====
section
/-!
DEFINITION. The PCI Express port, its functions and interrupts, and the ownership token (chapter 11).

Marked choices (log entries): DEDUCED 132; DESIGN CHOICE 123; PRESUMED 44. Each entry of notes/assumptions says safe or
unsafe.
-/

namespace Sys2Proof
namespace Machine

/-- R345: the calender-unit windows of PF0 BAR0, which accept 1–64 bytes within one aligned 64-byte block (R242). -/
def inCuWindow (key : Nat) : Bool := 0x800000 ≤ key && key < 0x1000000

/-- R345: whether an access is one that a BAR accepts. -/
def accessOk (key size : Nat) (contiguous : Bool) : Bool :=
  if inCuWindow key then contiguous && 1 ≤ size && key % 64 + size ≤ 64 else size == 4 && key % 4 == 0 && contiguous

/-- R345: an access that function `fn` does not accept: PCIE_BAD_ACCESS with the offset; a read is Unsupported Request. -/
def State.badAccess (s : State) (fn key : Nat) (write : Bool) : State :=
  let s := (s.setWord R.PCIE_BADACC (BitVec.ofNat 32 (key % 2 ^ 24 + fn * 2 ^ 24))).raise 161 fn (key % 2 ^ 24)
  if write then s else (s.send (.unsupported fn)).logAer fn 20

/-- BAR_ACCESS_VIOLATION (R345): an access of `size` bytes at a key, with contiguous byte enables or not, that a BAR does not
accept: a read is Unsupported Request, a write is dropped; both raise PCIE_BAD_ACCESS with the offset. -/
def execBarAccessViolation (key size : Nat) (contiguous write : Bool) (s : State) : Out :=
  let fn := if 0x3000000 ≤ key then 1 else 0
  let p : Path := if fn = 1 then .mgmt else .pf0
  if accessOk key size contiguous then .next s
  else if !s.reaches p key then .next ((s.send (.unsupported fn)).logAer fn 20)
  else .next (s.badAccess fn key write)

/-- The widest link the strap allows (Table 11-1). -/
def State.maxWidth (s : State) : Nat :=
  match s.get R.GLOBAL_STRAPS.PCIE_W with
  | 0 => 16
  | 1 => 8
  | 2 => 4
  | _ => 1

/-- Pending vectors that may send do so (R352, R353). -/
def State.flushVectors (s : State) : State :=
  s.pcie.msixPend.foldl (fun s v => if s.vecReady v.1 v.2 then s.sendVec v.1 v.2 else s) s

/-- LINK_TRAINED (R343): the link is up at a width and a rate code (Table 11-6); below the maximum DEGRADED is set and
PCIE_LINK_DEGRADED raised once for this training. A power management event that waits is sent (R356). -/
def execLinkTrained (width rate : Nat) (flit : Bool) (s : State) : Out :=
  if s.monitor.tripped then .next s else
  let s := { s with pcie := { s.pcie with linkUp := true } }
  let s := ((s.put R.PCIE_LINK.WIDTH width).put R.PCIE_LINK.RATE rate).put R.PCIE_LINK.FLIT (b2n flit)
  let s := s.put R.PCIE_LINK.PM 0
  let s := if width < s.maxWidth ∨ rate < 6 then (s.put R.PCIE_LINK.DEGRADED 1).raiseInst 160 0 else s
  let s := if s.pcie.pmeDue then { s with pcie := { s.pcie with pmeDue := false } }.send (.pme 0) else s
  .next s.flushVectors

/-- R357: the link down and the configuration space of both functions at its reset values. -/
def State.linkDown (s : State) : State :=
  let s := { s with pcie := { msixLast := s.pcie.msixLast, pmeDue := s.pcie.pmeDue }, held := [] }
  ((s.put R.PCIE_LINK.WIDTH 0).put R.PCIE_LINK.RATE 0).put R.PCIE_LINK.FLIT 0

/-- HOT_RESET (R357, R413): a hot reset, or a link-down not caused by PERST_L. -/
def execHotReset (s : State) : Out := .next s.linkDown.abandonRings

/-- VECTOR_MODERATION_END (R353): the interval of vector `v` of function `fn` has passed: a pending message is sent. -/
def execVectorModerationEnd (fn : Fin 2) (v : Fin 64) (s : State) : Out :=
  .next (if s.pcie.msixPend.contains (fn.val, v.val) && s.vecReady fn.val v.val then s.sendVec fn.val v.val else s)

/-- What a function identifies itself with in its configuration space (R2, R344, Tables 00-2 and 11-2): Vendor, Device and Revision ID, class
code, subsystem IDs; the size of each 64-bit BAR it implements, by the number of its lower half; the BAR of its MSI-X structures with the
offsets of the table and of the PBA. -/
structure PciIdent where
  vendor : Nat := 0x1D9C
  device : Nat := 0x7120
  revision : Nat := 0xB0
  cls : Nat
  subVendor : Nat
  subDevice : Nat
  bars : List (Nat × Nat)
  msix : Nat × Nat × Nat
deriving DecidableEq, Repr

/-- The subsystem IDs (Table 11-2): two 16-bit words, least significant byte first, of the flash configuration partition, whose place there is
open; 0x1D9C and 0x0000 while the partition holds nothing there. DESIGN CHOICE (log 123). -/
def State.subsystemIds (s : State) : Nat × Nat :=
  let b := fun i => SMap.find? s.flash.config ((Config.subsystemAt + i) % 0x10000)
  match b 0, b 1, b 2, b 3 with
  | some b0, some b1, some b2, some b3 => (b0.toNat + 256 * b1.toNat, b2.toNat + 256 * b3.toNat)
  | _, _, _, _ => (0x1D9C, 0)

/-- The identity of function `fn` (Table 11-2). -/
def State.pciIdent (s : State) (fn : Nat) : PciIdent :=
  let sub := s.subsystemIds
  if fn = 0 then ⟨0x1D9C, 0x7120, 0xB0, 0x118000, sub.1, sub.2, [(0, 2 ^ 24), (2, 2 ^ 16)], (2, 0x8000, 0x9000)⟩
  else ⟨0x1D9C, 0x7120, 0xB0, 0x088000, sub.1, sub.2, [(0, 2 ^ 16)], (0, 0x8000, 0x9000)⟩

/-- What BAR word `i` of a function holds after `w` is written: of a lower half the address bits above the BAR's size beside the type bits of
a 64-bit, non-prefetchable BAR, of an upper half every bit; 0 where Table 11-2 implements none. -/
def barWord (id : PciIdent) (i : Nat) (w : Word) : Nat :=
  match SMap.find? id.bars (i / 2 * 2) with
  | some size => if i % 2 = 0 then w.toNat / size * size + 4 else w.toNat
  | none => 0

/-- The configuration bits of one function changed. -/
def applyCfg (id : PciIdent) (fn : Nat) (c : CfgWrite) (p : Pcie) : Pcie :=
  match c with
  | .memSpace on => if fn = 0 then { p with memSpace0 := on } else { p with memSpace1 := on }
  | .busMaster on => if fn = 0 then { p with busMaster0 := on } else { p with busMaster1 := on }
  | .msixEnable on => if fn = 0 then { p with msixEn0 := on } else { p with msixEn1 := on }
  | .msixMask on => if fn = 0 then { p with msixMask0 := on } else { p with msixMask1 := on }
  | .maxPayload code => if fn = 0 then { p with mps := 128 * 2 ^ code.val } else p
  | .maxReadRequest code => if fn = 0 then { p with mrrs := 128 * 2 ^ code.val } else p
  | .relaxedOrdering on => if fn = 0 then { p with relaxed := on } else p
  | .tag10 on => if fn = 0 then { p with tag10 := on } else p
  | .completionTimeout code => if fn = 0 then { p with cplTimeout := code.val } else p
  | .completionTimeoutOff on => if fn = 0 then { p with cplTimeoutOff := on } else p
  | .bar i w => { p with bars := SMap.put p.bars (fn * 8 + i.val) (barWord id i.val w) }

/-- CONFIG_SPACE_WRITE (R344, R346–R352): a configuration write to function `fn`. Before firmware is ready it is answered with
Configuration Request Retry Status and changes nothing. -/
def execConfigSpaceWrite (fn : Fin 2) (c : CfgWrite) (s : State) : Out :=
  if s.pcie.linkUp && (s.fw.ready || s.fw.recovered) then .next ({ s with pcie := applyCfg (s.pciIdent fn.val) fn.val c s.pcie }).sendHeld.flushVectors else .next s

/-! ### The ownership token (R362–R365) -/

/-- GLOBAL_OWNER.PEND's bit of an agent. -/
def State.pendBit (s : State) (agent : Nat) : Bool := bit (s.get R.GLOBAL_OWNER.PEND) (agent - 1)

/-- A pending bit set or cleared. -/
def State.setPend (s : State) (agent : Nat) (on : Bool) : State :=
  s.put R.GLOBAL_OWNER.PEND (setBit (s.get R.GLOBAL_OWNER.PEND) (agent - 1) on)

/-- R362: a request: ignored from the holder, granted while the token is free, else pending. Agent 0, the firmware, has no
part in the token. -/
def State.tokenReq (s : State) (agent : Nat) : State :=
  let h := s.get R.GLOBAL_OWNER.HOLDER
  if agent = 0 ∨ h = agent then s
  else if h = 0 then s.put R.GLOBAL_OWNER.HOLDER agent
  else s.setPend agent true

/-- R363: the agent that a released token goes to: MGMT, HOST, MON, PEER in that order; 0 for none. -/
def State.nextHolder (s : State) : Nat := ([2, 1, 3, 4].find? (fun a => s.pendBit a)).getD 0

/-- R363: a release: by the holder, the token goes to the next; by another, only its own pending request ends. -/
def State.tokenRel (s : State) (agent : Nat) : State :=
  if agent = 0 then s
  else if s.get R.GLOBAL_OWNER.HOLDER = agent then
    let n := s.nextHolder
    let s := s.put R.GLOBAL_OWNER.HOLDER n
    if n = 0 then s else s.setPend n false
  else s.setPend agent false

/-- R365: the token forced to MGMT; the previous holder is the record's INFO. -/
def State.tokenForce (s : State) : State :=
  let h := s.get R.GLOBAL_OWNER.HOLDER
  let s := (s.put R.GLOBAL_OWNER.HOLDER 2).setPend 2 false
  s.raiseInst 164 h

/-- TOKEN_REQ (R362): a write of GLOBAL_OWNER with REQ = 1 and REL = 0. -/
def execTokenReq (p : Path) (s : State) : Out := .next (s.gateAction p R.GLOBAL_OWNER (fun s => s.tokenReq (pathAgent p)))

/-- TOKEN_REL (R363): a write of GLOBAL_OWNER with REL = 1, whatever REQ holds. -/
def execTokenRel (p : Path) (s : State) : Out := .next (s.gateAction p R.GLOBAL_OWNER (fun s => s.tokenRel (pathAgent p)))

/-- MGMT_TOKEN_REQ (R362): a write of MGMT_TOKEN with REQ = 1 and REL = 0. -/
def execMgmtTokenReq (s : State) : Out := .next (s.gateAction .mgmt R.MGMT_TOKEN (fun s => s.tokenReq 2))

/-- MGMT_TOKEN_REL (R362): a write of MGMT_TOKEN with REL = 1. -/
def execMgmtTokenRel (s : State) : Out := .next (s.gateAction .mgmt R.MGMT_TOKEN (fun s => s.tokenRel 2))

/-- MGMT_FORCE (R365): a write of MGMT_TOKEN with FORCE = 1 and a key; without the right key FORCE does nothing. -/
def execMgmtForce (key : BitVec 16) (s : State) : Out :=
  .next (s.gateAction .mgmt R.MGMT_TOKEN (fun s => if key = 0x4F57#16 then s.tokenForce else s))

/-- R362, R365, Table 11-8: the effect of a whole word written to MGMT_TOKEN. -/
def State.writeMgmtToken (s : State) (w : Nat) : State :=
  if bit w 2 ∧ bits w 16 16 = 0x4F57 then s.tokenForce
  else if bit w 1 then s.tokenRel 2
  else if bit w 0 then s.tokenReq 2
  else s

/-- R362, R363: the effect of a whole word written to GLOBAL_OWNER by an agent. -/
def State.writeOwner (s : State) (agent w : Nat) : State :=
  if bit w 5 then s.tokenRel agent else if bit w 4 then s.tokenReq agent else s

end Machine
end Sys2Proof
end

