-- ==== Sys2Proof/Machine/Events.lean ====
section
/-!
DEFINITION. The event records (chapter 21): their bytes, their writing into the event rings, injection, and the close of a
containment.

Marked choices (log entries): DEDUCED 106. Each entry of notes/assumptions says safe or unsafe.
-/

namespace Sys2Proof
namespace Machine

/-- Table 12-9: a record's 32 bytes, OWN = 0. -/
def recordBytes (r : EvRec) : List Byte :=
  let cls := evClass r.source
  leBytes 2 (r.source % 512 * 2 + cls * 1024) ++ leBytes 1 (evSeverity cls)
    ++ leBytes 1 (b2n r.root + 2 * b2n r.conseq + 4 * b2n r.coalesced) ++ leBytes 4 r.rep ++ time96Bytes r.time
    ++ leBytes 4 0 ++ leBytes 8 r.info

/-- The records waiting for an event ring (0 ER0, 1 ER1), and the outstanding ones. -/
def State.waiting (s : State) (r : Nat) : List EvRec := if r = 0 then s.ev.wait0 else s.ev.wait1
def State.outstanding (s : State) (r : Nat) : List (Nat × Nat) := if r = 0 then s.ev.out0 else s.ev.out1

/-- R615: the first waiting record whose source has no outstanding record on the ring, and the others. -/
def State.nextRecord? (s : State) (r : Nat) : Option (EvRec × List EvRec) :=
  takeFirst (fun x => !(s.outstanding r).any (fun o => o.1 == x.source)) (s.waiting r)

/-- R616: whether an event ring's function can be written to now. -/
def State.eventRingRuns (s : State) (r : Nat) : Bool :=
  s.pcie.linkUp && (if r = 0 then s.on (R.RING_CFG.EN 112) && s.pcie.busMaster0 && !s.pcie.d3hot0
    else s.on R.ER1_CFG.EN && s.pcie.busMaster1 && !s.pcie.d3hot1)

/-- EVENT_RECORD_WRITE (R615–R617, R370, R404): event ring ER`r` writes its next record into the next slot it owns. -/
def execEventRecordWrite (r : Fin 2) (s : State) : Out :=
  let r := r.val
  let x := 112 + r
  if !s.eventRingRuns r then .next s
  else match (s.ring x).taken, s.nextRecord? r with
    | slot :: t, some (rec_, rest) =>
      let s := s.updRing x (fun g => { g with taken := t })
      let s := if r = 0 then { s with ev := { s.ev with wait0 := rest, out0 := s.ev.out0 ++ [(rec_.source, slot.index)] } }
        else { s with ev := { s.ev with wait1 := rest, out1 := s.ev.out1 ++ [(rec_.source, slot.index)] } }
      .next (s.returnEntry x slot.index (recordBytes rec_) true)
    | _, _ => .next s

/-- R630: a keyed write of EV_INJECT raises an assigned source once with INFO all ones and has no other effect. -/
def State.injectEvent (s : State) (src key : Nat) : State :=
  if key = 0x4556 ∧ evAssigned src then s.raise src 0xFFFF (2 ^ 64 - 1) else s

/-- EV_INJECT (R630): a write of EV_INJECT by a path, with its source and key. -/
def execEvInject (p : Path) (src : Fin 512) (key : BitVec 16) (s : State) : Out :=
  .next (s.gateAction p R.EV_INJECT (fun s => s.injectEvent src.val key.toNat))

/-- R619: the summary of a containment. -/
def summaryOf (c : Containment) : EvRec :=
  { source := c.source, conseq := true, rep := min c.count 0xFFFFFFFF, time := c.time,
    info := c.info % 2 ^ 32 + c.first * 2 ^ 32 }

/-- CONTAINMENT_CLOSE (R619): the oldest containment whose CONTAIN_US has passed closes, and queues its summary if it counted
consequences. -/
def execContainmentClose (s : State) : Out :=
  match takeFirst (fun c => decide (c.closeAt ≤ s.ns)) s.ev.contain with
  | some (c, rest) =>
    let s := { s with ev := { s.ev with contain := rest } }
    .next (if c.count = 0 then s else s.offerRecord (summaryOf c))
  | none => .next s

end Machine
end Sys2Proof
end

