-- ==== Sys2Proof/Machine/Levels.lean ====
section
/-!
DEFINITION. Levels and number formats: dB16 by exact comparison (R14–R16), PWR32, CPX48 (R17–R19), binary64 arithmetic rounded to
nearest even where the spec names binary64 (R177, R178), and the coherent gains of the windows (R141, R142, R150).

Marked choices (log entries): DEDUCED 20. Each entry of notes/assumptions says safe or unsafe.
-/

namespace Sys2Proof
namespace Machine

/-- The dB16 code for "no data" (R15). -/
def noData : Int := -32768

/-- Whether 10^(l / 2560) ≤ num / den: the level `l` of 1/256 dB does not exceed the ratio. -/
def levelLe (l : Int) (num den : Nat) : Bool :=
  if 0 ≤ l then decide (10 ^ l.toNat * den ^ 2560 ≤ num ^ 2560)
  else decide (den ^ 2560 ≤ num ^ 2560 * 10 ^ (-l).toNat)

/-- The largest `l` in `lo … lo + 2^n - 1` that does not exceed the ratio, `lo` itself where none does. -/
def levelSearch (num den : Nat) : Nat → Int → Int
  | 0, lo => lo
  | n + 1, lo => if levelLe (lo + (2 ^ n : Nat)) num den then levelSearch num den n (lo + (2 ^ n : Nat)) else levelSearch num den n lo

/-- R16: a linear level num / den as dB16, truncated toward minus infinity and limited to 0x8001–0x7FFF. -/
def toDb16 (num den : Nat) : Int :=
  if num = 0 then -32767 else min 32767 (max (-32767) (levelSearch num den 16 (-32768)))

/-- A dB16 code as its 16 bits. -/
def db16Word (l : Int) : Nat := wrap 16 l

/-- Whether m × 2^e ≤ 10^(l / 2560), for m below 2^24. -/
def floatLeLevel (m : Nat) (e l : Int) : Bool :=
  let a := m ^ 2560 * (if 0 ≤ e then 2 ^ (2560 * e.toNat) else 1) * (if 0 ≤ l then 1 else 10 ^ (-l).toNat)
  let b := (if 0 ≤ e then 1 else 2 ^ (2560 * (-e).toNat)) * (if 0 ≤ l then 10 ^ l.toNat else 1)
  decide (a ≤ b)

/-- The largest mantissa below 2^n more than `m` for which it holds. -/
def mantSearch (p : Nat → Bool) : Nat → Nat → Nat
  | 0, m => m
  | n + 1, m => if p (m + 2 ^ n) then mantSearch p n (m + 2 ^ n) else mantSearch p n m

/-- The binary32 word of a normal positive number with a 24-bit mantissa `m` and exponent `e` (value m × 2^e). -/
def packF32 (m : Nat) (e : Int) : Nat := (e + 23 + 127).toNat % 256 * 2 ^ 23 + m % 2 ^ 23

/-- R179: a dB16 level as PWR32, truncated toward zero; 0x7FC0_0000 for no data. The levels of R15 lie within the normal
range of binary32. -/
def levelToPwr32 (l : Int) : Nat :=
  if l = noData then 0x7FC00000
  else
    let e := (List.range 90).foldl (fun (b : Int) (i : Nat) => if floatLeLevel (2 ^ 23) ((i : Int) - 67) l then (i : Int) - 67 else b) (-67)
    packF32 (mantSearch (fun m => floatLeLevel m e l) 23 (2 ^ 23)) e

/-- R147, R150: a linear power num / den as PWR32, truncated toward zero; 0 for zero. -/
def ratioToPwr32 (num den : Nat) : Nat :=
  if num = 0 then 0
  else
    let e := (num.log2 : Int) - den.log2 - 24
    let q := fun (e : Int) => if 0 ≤ e then num / (den * 2 ^ e.toNat) else num * 2 ^ (-e).toNat / den
    if q e < 2 ^ 24 then packF32 (q e) e else packF32 (q (e + 1)) (e + 1)

/-! ### binary64 -/

/-- num / den rounded to 53 bits, to nearest, ties to even. -/
def roundF64 (num : Int) (den : Nat) : F64 :=
  if num = 0 then {}
  else
    let n := num.natAbs
    let e := (n.log2 : Int) - den.log2 - 53
    let a := if 0 ≤ e then n else n * 2 ^ (-e).toNat
    let d := if 0 ≤ e then den * 2 ^ e.toNat else den
    let big := 2 ^ 53 ≤ a / d
    let e := if big then e + 1 else e
    let d := if big then 2 * d else d
    let q := a / d
    let r := a % d
    let q := if 2 * r > d ∨ (2 * r = d ∧ q % 2 = 1) then q + 1 else q
    { mant := if num < 0 then -(q : Int) else q, exp := e }

/-- An exact value mant × 2^exp as a numerator over a power of two. -/
def F64.ratio (x : F64) : Int × Nat :=
  if 0 ≤ x.exp then (x.mant * (2 ^ x.exp.toNat : Nat), 1) else (x.mant, 2 ^ (-x.exp).toNat)

/-- Sum, difference and quotient by a positive whole number, each rounded once. -/
def F64.add (x y : F64) : F64 :=
  let a := x.ratio
  let b := y.ratio
  roundF64 (a.1 * b.2 + b.1 * a.2) (a.2 * b.2)
def F64.neg (x : F64) : F64 := { x with mant := -x.mant }
def F64.divNat (x : F64) (n : Nat) : F64 := roundF64 x.ratio.1 (x.ratio.2 * n)

/-- An integer, and a ratio, as binary64. -/
def F64.ofInt (x : Int) : F64 := roundF64 x 1
def F64.ofRatio (num den : Nat) : F64 := roundF64 num den

/-- ⌊x⌋, and whether x ≤ y. -/
def F64.floor (x : F64) : Int := x.ratio.1 / x.ratio.2
def F64.le (x y : F64) : Bool := decide (x.ratio.1 * y.ratio.2 ≤ y.ratio.1 * x.ratio.2)

/-- A linear level in binary64 as dB16, and as PWR32. -/
def F64.toDb16 (x : F64) : Int := Machine.toDb16 x.ratio.1.toNat x.ratio.2
def F64.toPwr32 (x : F64) : Nat := ratioToPwr32 x.ratio.1.toNat x.ratio.2

/-! ### Bins -/

/-- R17: a CPX48 word. -/
def cpx48 (i q : Int) (exp : Nat) (ovr cal : Bool) : Nat :=
  wrap 20 i + wrap 20 q * 2 ^ 20 + exp % 64 * 2 ^ 40 + b2n ovr * 2 ^ 46 + b2n cal * 2 ^ 47

/-- R150: the linear level of a bin (I, Q) of block exponent `exp`, as numerator and denominator: |X|² / (N × CG)² with
X = (I + jQ) × 2^-19 × 2^exp. -/
def binPower (gain exp : Nat) (iq : Int × Int) : Nat × Nat :=
  ((iq.1 * iq.1 + iq.2 * iq.2).toNat * 2 ^ (2 * exp) * 2 ^ 36, gain * gain * 2 ^ 38)

/-- R144: the largest h in 0–19 (or 0–7 for HEADROOM, R149) with every magnitude below 2^-h, given the largest component
magnitude in units of 2^-19. -/
def headroomOf (limit mag : Nat) : Nat := ((List.range (limit + 1)).filter (fun h => mag * 2 ^ h < 2 ^ 19)).foldl max 0

/-- R145, R146: the shifts σ_1 … σ_S for N = 2^m and input headroom `h`, before the last is lowered for a sum of 17. -/
def shiftsFrom (m : Nat) : Nat → Int → List Nat
  | 0, _ => []
  | n + 1, b =>
    let p : Int := if n = 0 ∧ m % 2 = 1 then 1 else 2
    let sg := max 0 (b + p)
    sg.toNat :: shiftsFrom m n (b + p - sg)

/-- R146: the schedule of a frame. -/
def shifts (m h : Nat) : List Nat :=
  let l := shiftsFrom m ((m + 1) / 2) (1 - (h : Int))
  if l.sum > 16 then l.dropLast ++ [l.getLastD 1 - 1] else l

end Machine
end Sys2Proof
end

