-- ==== Sys2Proof/Machine/Wave.lean ====
section
/-!
DEFINITION. The arithmetic of the sample path: cosines and sines to 60 binary places, the oscillator and filter chain of a
down-converter (R105, R108–R113), the window tables (R141) and the transform of a lane (R143–R149).

Marked choices (log entries): DEDUCED 112; DESIGN CHOICE 113, 114. Each entry of notes/assumptions says safe or unsafe.
-/

namespace Sys2Proof
namespace Machine

/-! ### Rotations -/

/-- π in units of 2^-60, truncated. -/
def pi60 : Nat := 3622009729038561421

/-- The value 1 − t/a·(1 − t/b·(…)), in units of 2^-60, for `t` in those units and the divisors `a`, `b`, …. -/
def nest60 (t : Nat) : List Nat → Nat
  | [] => 2 ^ 60
  | a :: l => 2 ^ 60 - t * nest60 t l / (a * 2 ^ 60)

/-- Cosine and sine of an angle of at most π/4, in units of 2^-60. -/
def smallAngle (x : Nat) : Nat × Nat :=
  let t := x * x / 2 ^ 60
  (nest60 t [1 * 2, 3 * 4, 5 * 6, 7 * 8, 9 * 10, 11 * 12, 13 * 14, 15 * 16, 17 * 18],
    x * nest60 t [2 * 3, 4 * 5, 6 * 7, 8 * 9, 10 * 11, 12 * 13, 14 * 15, 16 * 17, 18 * 19] / 2 ^ 60)

/-- Cosine and sine of the turn `p` × 2^-48, in units of 2^-60; exact at every quarter of a turn. -/
def turn60 (p : Nat) : Int × Int :=
  let r := p % 2 ^ 46
  let a : Int × Int :=
    if r ≤ 2 ^ 45 then
      let c := smallAngle (r * pi60 / 2 ^ 47)
      (c.1, c.2)
    else
      let c := smallAngle ((2 ^ 46 - r) * pi60 / 2 ^ 47)
      (c.2, c.1)
  match p / 2 ^ 46 % 4 with
  | 0 => a
  | 1 => (-a.2, a.1)
  | 2 => (-a.1, -a.2)
  | _ => (a.2, -a.1)

/-- An open error held within ±`lim`. -/
def openError (lim : Nat) (e : Int × Int) : Int × Int := (clampInt (-lim) lim e.1, clampInt (-lim) lim e.2)

/-- R105, R108: the oscillator's (cos, sin) at phase `p` × 2^-48 turn, in units of 2^-40: the ideal one with an open error of at
most 2^-19 in each component, which keeps every spur at or below −110 dBc. -/
def ncoValue (p : Nat) : Int × Int :=
  let c := turn60 p
  let e := openError (2 ^ 21) (Config.ncoError p)
  (c.1 / 2 ^ 20 + e.1, c.2 / 2 ^ 20 + e.2)

/-! ### The decimation chain (R105, R109, R112, R113) -/

/-- R105, R109: an ADC code mixed with the oscillator at phase `p`, in units of 2^-59: a code of 2,048 is 1.0, and the gain of 2
makes a real tone of amplitude A a complex tone of magnitude A. -/
def mix (code : Int) (p : Nat) : Int × Int :=
  let c := ncoValue p
  (code * 512 * c.1, -(code * 512 * c.2))

/-- The sum of products of coefficients and values. -/
def fir (h : List Int) (xs : List (Int × Int)) : Int × Int :=
  (h.zip xs).foldl (fun a e => (a.1 + e.1 * e.2.1, a.2 + e.1 * e.2.2)) (0, 0)

/-- Both components truncated toward minus infinity by `n` bits. -/
def floorShift (n : Nat) (z : Int × Int) : Int × Int := (z.1 / 2 ^ n, z.2 / 2 ^ n)

/-- Bits that stage `j` of a normal chain of `k` stages keeps below those of Q1.19: 40 at its input, none at its last output. -/
def stageBits (k j : Nat) : Nat := if j = 0 then 40 else if j = k then 0 else Config.ddcStageBits k j

/-- One stage's output: the filtered value, of `a` kept bits, truncated to `b` of them. Coefficients are in units of 2^-40. -/
def narrowStage (a b : Nat) (z : Int × Int) : Int × Int := floorShift (40 + a) (z.1 * 2 ^ b, z.2 * 2 ^ b)

/-- The 127 taps of the half-band stage `j`, in units of 2^-40: 1/2 in the middle, 0 at every other even place, symmetric. -/
def halfBand (j : Nat) : List Int :=
  (List.range 127).map (fun i =>
    let t := ((i : Int) - 63).natAbs
    if t = 0 then 2 ^ 39 else if t % 2 = 0 then 0 else Config.halfBandTap j t)

/-- The taps of stage `j` at the offsets −128 … 127 (stage 1) or −63 … 63. -/
def stageTaps (j : Nat) : List Int := if j = 1 then (List.range 256).map Config.ddcFirstTap else halfBand j

/-- Outputs `lo … lo + n − 1` of stage `j` of a normal chain of `k` stages, from the mixed samples `x` (R112). -/
def chain (k : Nat) (x : Int → Int × Int) : Nat → Int → Nat → List (Int × Int)
  | 0, lo, n => (List.range n).map (fun i => x (lo + i))
  | j + 1, lo, n =>
    let h := stageTaps (j + 1)
    let back : Int := if j = 0 then 128 else 63
    let ins := chain k x j (2 * lo - back) (2 * n + h.length - 2)
    (List.range n).map (fun i => narrowStage (stageBits k j) (stageBits k (j + 1)) (fir h (ins.drop (2 * i))))

/-- R112: output sample `m` of a normal chain decimating by 2^k. -/
def normalOutput (k : Nat) (x : Int → Int × Int) (m : Nat) : Int × Int := (chain k x k m 1).headD (0, 0)

/-- R113: output sample `m` in quick-settle mode: one filter of 8 × 2^k taps about its anchor. -/
def quickOutput (k : Nat) (x : Int → Int × Int) (m : Nat) : Int × Int :=
  let h := (List.range (8 * 2 ^ k)).map (Config.quickTap k)
  let lo : Int := (m * 2 ^ k : Nat) - (4 * 2 ^ k : Nat)
  narrowStage 40 0 (fir h ((List.range h.length).map (fun i => x (lo + i))))

/-! ### Windows (R141, R142, R150) -/

/-- R141: a coefficient in units of 2^-18, from its exact value num / (den × 2^60); the 64 units added lie far below the nearest
distance of any inexact coefficient to a whole one and above the error of `num`. -/
def coefficient (num : Int) (den : Nat) : Int := clampInt (-(2 ^ 18)) 0x3FFFF ((num + 64 * den) / (den * 2 ^ 42))

/-- R141, Table 05-2: a0–a4 of the cosine-sum windows, in units of 10^-8. -/
def cosineSums : Nat → List Int
  | 1 => [50000000, 50000000]
  | 2 => [54000000, 46000000]
  | 3 => [35875000, 48829000, 14128000, 1168000]
  | _ => [21557895, 41663158, 27726316, 8357895, 694737]

/-- Σ (−1)^i × a_i × cos(i × turn), for a turn `p` × 2^-48. -/
def cosineSum (p : Nat) : Nat → Int → List Int → Int
  | _, _, [] => 0
  | i, sg, a :: t => sg * a * (turn60 (i * p)).1 + cosineSum p (i + 1) (-sg) t

/-- I0(2√y) = Σ y^i / (i!)² in units of 2^-60, for `y` in those units: the terms from the `i`-th, which is `t`. -/
def bessel60 (y : Nat) : Nat → Nat → Nat → Nat
  | 0, _, _ => 0
  | n + 1, i, t => t + bessel60 y n (i + 1) (t * y / ((i + 1) * (i + 1) * 2 ^ 60))

/-- (β/2)² × n × (N − n) × 4 / N² with β = 3π: the argument of the Kaiser window's I0 at sample `n` of 2^m. -/
def kaiserArg (m n : Nat) : Nat := 9 * (pi60 * pi60 / 2 ^ 60) * n * (2 ^ m - n) / 2 ^ (2 * m)

/-- R141: coefficient `n` of a built-in window for N = 2^m, in units of 2^-18. -/
def builtinCoef (code m n : Nat) : Int :=
  if code = 4 then
    coefficient (bessel60 (kaiserArg m n) 64 0 (2 ^ 60) * 2 ^ 60 : Nat) (bessel60 (9 * (pi60 * pi60 / 2 ^ 60) / 4) 64 0 (2 ^ 60))
  else coefficient (cosineSum (n * 2 ^ (48 - m)) 0 1 (cosineSums code)) 100000000

/-- The coefficients of a window for N = 2^m (R141, R142). An entry that a user table lacks has an open value. -/
def State.windowTableOf (s : State) (code m : Nat) : List Int :=
  if 8 ≤ code ∧ code ≤ 11 then
    let t := match SMap.find? s.userWindows (code - 8) with
      | some w => w.2
      | none => []
    (List.range (2 ^ m)).map (fun n => t.getD n (clampInt (-(2 ^ 18)) 0x3FFFF (Config.staleCoefficient (code - 8) n)))
  else (List.range (2 ^ m)).map (builtinCoef code m)

/-- |N × CG| × 2^18 of a window: Σ w[n], N × 2^18 for the rectangular window and for a sum of 0 (R150). -/
def State.windowGain (s : State) (code m : Nat) : Nat :=
  let g := if code = 0 then 2 ^ (m + 18) else ((s.windowTableOf code m).foldl (· + ·) 0).natAbs
  if g = 0 then 2 ^ (m + 18) else g

/-- R143: the frame `xs` windowed: each product truncated to Q1.19; the rectangular window passes samples unchanged. -/
def State.windowed (s : State) (code m : Nat) (xs : List (Int × Int)) : List (Int × Int) :=
  if code = 0 then xs else ((s.windowTableOf code m).zip xs).map (fun e => floorShift 18 (e.1 * e.2.1, e.1 * e.2.2))

/-! ### The transform of a lane (R145–R149) -/

/-- The largest magnitude in units of 2^-19 of a list of complex values (R144, R149). -/
def peakOf (l : List (Int × Int)) : Nat := l.foldl (fun m x => max m (max x.1.natAbs x.2.natAbs)) 0

/-- The turn of a twiddle factor W_M^e = exp(−j2π e / M), as a rotation (cos, −sin) in units of 2^-40: exact at every quarter of a
turn, else with the open error of its stored word, held below half a unit of Q1.19. -/
def twiddle (len e : Nat) : Int × Int :=
  let p := (e % len) * (2 ^ 48 / len)
  let c := turn60 p
  let err := if p % 2 ^ 46 = 0 then (0, 0) else openError (2 ^ 20 - 1) (Config.twiddleError p)
  (c.1 / 2 ^ 20 + err.1, -(c.2 / 2 ^ 20) + err.2)

/-- R147: the full-width product of a value and a twiddle factor, shifted right by `sg` and truncated once. -/
def rotate (sg len e : Nat) (z : Int × Int) : Int × Int :=
  let w := twiddle len e
  floorShift (40 + sg) (z.1 * w.1 - z.2 * w.2, z.1 * w.2 + z.2 * w.1)

def cadd (a b : Int × Int) : Int × Int := (a.1 + b.1, a.2 + b.2)
def csub (a b : Int × Int) : Int × Int := (a.1 - b.1, a.2 - b.2)
/-- A value turned by −j. -/
def turnDown (a : Int × Int) : Int × Int := (a.2, -a.1)

/-- One radix-2² butterfly: the four results for k mod 4 = 0, 2, 1, 3. -/
def butterfly4 (a b c d : Int × Int) : List (Int × Int) :=
  let u0 := cadd a c
  let u1 := cadd b d
  let v0 := csub a c
  let v1 := turnDown (csub b d)
  [cadd u0 u1, csub u0 u1, cadd v0 v1, csub v0 v1]

/-- One stage on one sub-transform `xs` (R145, R147): two passes, or one for a sub-transform of length 2; twiddles but in the last stage,
whose sub-transforms have a length of 2 or 4. -/
def stageBlock (sg : Nat) (xs : List (Int × Int)) : List (Int × Int) :=
  let len := xs.length
  if len = 2 then
    let a := xs.getD 0 (0, 0)
    let b := xs.getD 1 (0, 0)
    [cadd a b, csub a b].map (floorShift sg)
  else
    let q := len / 4
    let rows := (List.range q).map (fun n =>
      butterfly4 (xs.getD n (0, 0)) (xs.getD (n + q) (0, 0)) (xs.getD (n + 2 * q) (0, 0)) (xs.getD (n + 3 * q) (0, 0)))
    [(0, 0), (1, 2), (2, 1), (3, 3)].flatMap (fun (r : Nat × Nat) =>
      (rows.zip (List.range q)).map (fun e => rotate sg len (r.2 * e.2) (e.1.getD r.1 (0, 0))))

/-- One stage on every sub-transform of length `len` of a frame. -/
def fftStage (len sg : Nat) (xs : List (Int × Int)) : List (Int × Int) :=
  (List.range (xs.length / len)).flatMap (fun i => stageBlock sg ((xs.drop (i * len)).take len))

/-- The stages of shifts `sgs` from sub-transforms of length `len` and bound exponent `b`: the bins, and whether a detector saw a
value at or above twice the bound of its stage (R149). -/
def fftStages : List Nat → Nat → Int → List (Int × Int) → List (Int × Int) × Bool
  | [], _, _, xs => (xs, false)
  | sg :: t, len, b, xs =>
    let ys := fftStage len sg xs
    let b := b + (if len = 2 then 1 else 2) - sg
    let r := fftStages t (len / 4) b ys
    (r.1, decide (2 ^ (b + 20).toNat ≤ peakOf ys) || r.2)

/-- R145–R149, R153: the transform of a windowed frame of headroom `h`: its bins in emission order, before they are limited, and
whether an exponent detector found a value that correct arithmetic cannot produce. -/
def transform (m h : Nat) (xs : List (Int × Int)) : List (Int × Int) × Bool := fftStages (shifts m h) (2 ^ m) (1 - (h : Int)) xs

end Machine
end Sys2Proof
end

