-- ==== Sys2Proof/Machine/Access.lean ====
section
/-!
DEFINITION. The internals of each numbered unit, read and changed: an index the family does not list stands for its default.
-/

namespace Sys2Proof
namespace Machine

/-- The internals kept in `sources`. -/
def State.source (s : State) (n : Nat) : Source := (SMap.find? s.sources n).getD {}
/-- The same changed. -/
def State.updSource (s : State) (n : Nat) (f : Source → Source) : State := { s with sources := SMap.put s.sources n (f (s.source n)) }

/-- The internals kept in `plans`. -/
def State.plan (s : State) (n : Nat) : Plan := (SMap.find? s.plans n).getD {}
/-- The same changed. -/
def State.updPlan (s : State) (n : Nat) (f : Plan → Plan) : State := { s with plans := SMap.put s.plans n (f (s.plan n)) }

/-- The internals kept in `adcs`. -/
def State.adc (s : State) (n : Nat) : Adc := (SMap.find? s.adcs n).getD {}
/-- The same changed. -/
def State.updAdc (s : State) (n : Nat) (f : Adc → Adc) : State := { s with adcs := SMap.put s.adcs n (f (s.adc n)) }

/-- The internals kept in `dacs`. -/
def State.dac (s : State) (n : Nat) : Dac := (SMap.find? s.dacs n).getD {}
/-- The same changed. -/
def State.updDac (s : State) (n : Nat) (f : Dac → Dac) : State := { s with dacs := SMap.put s.dacs n (f (s.dac n)) }

/-- The internals kept in `cals`. -/
def State.cal (s : State) (n : Nat) : Cal := (SMap.find? s.cals n).getD {}
/-- The same changed. -/
def State.updCal (s : State) (n : Nat) (f : Cal → Cal) : State := { s with cals := SMap.put s.cals n (f (s.cal n)) }

/-- The internals kept in `hkSeqs`. -/
def State.hkSeq (s : State) (n : Nat) : HkSeq := (SMap.find? s.hkSeqs n).getD {}
/-- The same changed. -/
def State.updHkSeq (s : State) (n : Nat) (f : HkSeq → HkSeq) : State := { s with hkSeqs := SMap.put s.hkSeqs n (f (s.hkSeq n)) }

/-- The internals kept in `ddcs`. -/
def State.ddc (s : State) (n : Nat) : Ddc := (SMap.find? s.ddcs n).getD {}
/-- The same changed. -/
def State.updDdc (s : State) (n : Nat) (f : Ddc → Ddc) : State := { s with ddcs := SMap.put s.ddcs n (f (s.ddc n)) }

/-- The internals kept in `plts`. -/
def State.plt (s : State) (n : Nat) : Plt := (SMap.find? s.plts n).getD {}
/-- The same changed. -/
def State.updPlt (s : State) (n : Nat) (f : Plt → Plt) : State := { s with plts := SMap.put s.plts n (f (s.plt n)) }

/-- The internals kept in `engines`. -/
def State.engine (s : State) (n : Nat) : Engine := (SMap.find? s.engines n).getD {}
/-- The same changed. -/
def State.updEngine (s : State) (n : Nat) (f : Engine → Engine) : State := { s with engines := SMap.put s.engines n (f (s.engine n)) }

/-- The internals kept in `reams`. -/
def State.ream (s : State) (n : Nat) : Ream := (SMap.find? s.reams n).getD {}
/-- The same changed. -/
def State.updReam (s : State) (n : Nat) (f : Ream → Ream) : State := { s with reams := SMap.put s.reams n (f (s.ream n)) }

/-- The internals kept in `zones`. -/
def State.zone (s : State) (n : Nat) : Zone := (SMap.find? s.zones n).getD {}
/-- The same changed. -/
def State.updZone (s : State) (n : Nat) (f : Zone → Zone) : State := { s with zones := SMap.put s.zones n (f (s.zone n)) }

/-- The internals kept in `pounds`. -/
def State.pound (s : State) (n : Nat) : Pound := (SMap.find? s.pounds n).getD {}
/-- The same changed. -/
def State.updPound (s : State) (n : Nat) (f : Pound → Pound) : State := { s with pounds := SMap.put s.pounds n (f (s.pound n)) }

/-- The internals kept in `channels`. -/
def State.channel (s : State) (n : Nat) : Channel := (SMap.find? s.channels n).getD {}
/-- The same changed. -/
def State.updChannel (s : State) (n : Nat) (f : Channel → Channel) : State := { s with channels := SMap.put s.channels n (f (s.channel n)) }

/-- The internals kept in `weirs`. -/
def State.weir (s : State) (n : Nat) : Weir := (SMap.find? s.weirs n).getD {}
/-- The same changed. -/
def State.updWeir (s : State) (n : Nat) (f : Weir → Weir) : State := { s with weirs := SMap.put s.weirs n (f (s.weir n)) }

/-- The internals kept in `pins`. -/
def State.pin (s : State) (n : Nat) : TrigPin := (SMap.find? s.pins n).getD {}
/-- The same changed. -/
def State.updPin (s : State) (n : Nat) (f : TrigPin → TrigPin) : State := { s with pins := SMap.put s.pins n (f (s.pin n)) }

/-- The internals kept in `pulses`. -/
def State.pulse (s : State) (n : Nat) : Pulse := (SMap.find? s.pulses n).getD {}
/-- The same changed. -/
def State.updPulse (s : State) (n : Nat) (f : Pulse → Pulse) : State := { s with pulses := SMap.put s.pulses n (f (s.pulse n)) }

/-- The internals kept in `flights`. -/
def State.flight (s : State) (n : Nat) : Flight := (SMap.find? s.flights n).getD {}
/-- The same changed. -/
def State.updFlight (s : State) (n : Nat) (f : Flight → Flight) : State := { s with flights := SMap.put s.flights n (f (s.flight n)) }

/-- The internals kept in `sgs`. -/
def State.sg (s : State) (n : Nat) : Sg := (SMap.find? s.sgs n).getD {}
/-- The same changed. -/
def State.updSg (s : State) (n : Nat) (f : Sg → Sg) : State := { s with sgs := SMap.put s.sgs n (f (s.sg n)) }

/-- The internals kept in `lanes`. -/
def State.lane (s : State) (n : Nat) : Lane := (SMap.find? s.lanes n).getD {}
/-- The same changed. -/
def State.updLane (s : State) (n : Nat) (f : Lane → Lane) : State := { s with lanes := SMap.put s.lanes n (f (s.lane n)) }

/-- The internals kept in `vcs`. -/
def State.vc (s : State) (n : Nat) : Vc := (SMap.find? s.vcs n).getD {}
/-- The same changed. -/
def State.updVc (s : State) (n : Nat) (f : Vc → Vc) : State := { s with vcs := SMap.put s.vcs n (f (s.vc n)) }

/-- The internals kept in `cus`. -/
def State.cu (s : State) (n : Nat) : Cu := (SMap.find? s.cus n).getD {}
/-- The same changed. -/
def State.updCu (s : State) (n : Nat) (f : Cu → Cu) : State := { s with cus := SMap.put s.cus n (f (s.cu n)) }

/-- The internals kept in `tdcs`. -/
def State.tdc (s : State) (n : Nat) : Tdc := (SMap.find? s.tdcs n).getD {}
/-- The same changed. -/
def State.updTdc (s : State) (n : Nat) (f : Tdc → Tdc) : State := { s with tdcs := SMap.put s.tdcs n (f (s.tdc n)) }

end Machine
end Sys2Proof
end

