-- ==== Sys2Proof/Machine/Streams.lean ====
section
/-!
DEFINITION. Sample streams (R27, R28, R101–R117, R303–R305, R329–R336): stamps from sample counters, the pound writer, and marks
put in their places in every stream a source feeds.

Marked choices (log entries): DEDUCED 50, 51, 54, 80. Each entry of notes/assumptions says safe or unsafe.
-/

namespace Sys2Proof
namespace Machine

/-! ### Source IDs (Table 10-4) -/

def adcId (n : Nat) : Nat := n
def ddcId (d : Nat) : Nat := 0x1000 + d
def vcId (v : Nat) : Nat := 0x2000 + v

/-- The source of a plan (Table 01-10: class 0x01 DDC, 0x02 VC). -/
def Plan.sourceId (p : Plan) : Nat := field p.bytes 19 1 * 0x1000 + field p.bytes 18 1

/-- The fields of a loaded plan (Table 01-10). -/
def Plan.u (p : Plan) (off n : Nat) : Nat := field p.bytes off n
def Plan.m (p : Plan) : Nat := p.u 20 1
def Plan.n (p : Plan) : Nat := 2 ^ p.m
def Plan.hop (p : Plan) : Nat := 8 * p.u 22 2
def Plan.exports (p : Plan) : Bool := bit (p.u 34 2) 15 && p.u 40 4 ≠ 0
def Plan.sheetQ (p : Plan) : Nat := p.u 34 2 % 4096
def Plan.traces (p : Plan) : Bool := bit (p.u 36 2) 15
def Plan.traceQ (p : Plan) : Nat := p.u 36 2 % 4096

/-- PLAN_STATUS.STATE: 0 EMPTY, 1 LOADED, 2 ARMED, 3 RUNNING. -/
def State.planState (s : State) (p : Nat) : Nat := s.get (R.PLAN_STATUS.STATE p)

/-! ### Clocks and stamps -/

/-- The SPLL of converter `n`, its fs in MS/s, and whether it is locked. -/
def spllOf (n : Nat) : Nat := n / 2
def State.fsOf (s : State) (n : Nat) : Nat := s.get (R.CLK_FS.FS (spllOf n))
def State.spllLocked (s : State) (n : Nat) : Bool := s.on (R.CLK_PLL.LOCKED (spllOf n))

/-- R518, R525: the anchor (counter, time, INC) in force for a counter: the present one, or the last earlier one before it. -/
def Adc.anchorFor (a : Adc) (inc c : Nat) : Nat × Nat × Nat :=
  if a.anchorCount ≤ c then (a.anchorCount, a.anchorTime, inc)
  else (a.past.find? (fun p => p.1 ≤ c)).getD (a.anchorCount, a.anchorTime, inc)

/-- R64, R115, R27: the stamp, in 2^-16 ns, of the ADC's sample with counter `c`: its anchor plus the elapsed samples at fs on
the timekeeper's rate, computed afresh and truncated. -/
def State.adcStamp (s : State) (n c : Nat) : Nat :=
  let a := (s.adc n).anchorFor s.tk.inc c
  let per := 1000 * 65536 * a.2.2
  let den := max 1 (s.fsOf n) * 0xA0000000
  ((a.2.1 : Int) + ((c : Int) - a.1) * per / den).toNat

/-- The first counter whose sample arrives at or after a time (R59, R66). -/
def State.adcCounterAt (s : State) (n t : Nat) : Nat :=
  let a := s.adc n
  let per := 1000 * 65536 * s.tk.inc
  let num := max 1 (s.fsOf n) * 0xA0000000
  let d := ((t : Int) - a.anchorTime) * num
  ((a.anchorCount : Int) + -(-d / per)).toNat

/-- A DDC's setting k (Table 04-6), 2^k, and the ADC it takes (R101). -/
def State.ddcK (s : State) (d : Nat) : Nat := s.get (R.DDC_CTL.K d)
def ddcAdc (d : Nat) : Nat := d / 2

/-- R28, R486: the stamp of a virtual channel's sample `m`: that of the frame which carried it, and the samples since at `rate` kS/s. -/
def Vc.stamp (v : Vc) (rate m : Nat) : Nat :=
  let a := (v.anchors.find? (fun a => a.1 ≤ m)).getD (v.anchors.getLastD (0, 0))
  ((a.2 : Int) + ((m : Int) - a.1) * (1000000 * 65536) / max 1 rate).toNat

/-- The first sample whose stamp is at or after `t`, of frames oldest first: in the first frame that has one. -/
def firstAt (t rate : Nat) : List (Nat × Nat) → Nat
  | [] => 0
  | a :: l =>
    let m := (max (a.1 : Int) (a.1 + -(-(((t : Int) - a.2) * rate) / (1000000 * 65536)))).toNat
    match l with
    | [] => m
    | b :: _ => if m < b.1 then m else firstAt t rate l

/-- The stamp of a source's sample number `m` (R28, R115). -/
def State.sampleStamp (s : State) (src m : Nat) : Nat :=
  if src < 0x1000 then s.adcStamp src m
  else if src < 0x2000 then s.adcStamp (ddcAdc (src - 0x1000)) (m * 2 ^ s.ddcK (src - 0x1000))
  else (s.vc (src - 0x2000)).stamp (s.get (R.VC_RATE.RATE_KS (src - 0x2000))) m

/-- The first sample of a source whose stamp is at or after a time (R24, R36). -/
def State.sampleAt (s : State) (src t : Nat) : Nat :=
  if src < 0x1000 then s.adcCounterAt src t
  else if src < 0x2000 then ceilDiv (s.adcCounterAt (ddcAdc (src - 0x1000)) t) (2 ^ s.ddcK (src - 0x1000))
  else firstAt t (s.get (R.VC_RATE.RATE_KS (src - 0x2000))) (s.vc (src - 0x2000)).anchors.reverse

/-- A released sample of the present run by its number; (0, 0) outside the run. -/
def Source.sample (o : Source) (i : Int) : Int × Int :=
  if i < o.next then o.hist.getD (o.next - 1 - i).toNat (0, 0) else (0, 0)

/-- The `n` samples from number `a`. -/
def Source.span (o : Source) (a n : Nat) : List (Int × Int) := (List.range n).map (fun i => o.sample ((a + i : Nat) : Int))

/-- A source's rate in samples/s: fs, fs / 2^k (R102), or RATE_KS × 1,000 of the channel. -/
def State.sourceRate (s : State) (src : Nat) : Nat × Nat :=
  if src < 0x1000 then (s.fsOf src * 1000000, 1)
  else if src < 0x2000 then (s.fsOf (ddcAdc (src - 0x1000)) * 1000000, 2 ^ s.ddcK (src - 0x1000))
  else (s.get (R.VC_RATE.RATE_KS (src - 0x2000)) * 1000, 1)

/-- The number of a source's samples stamped in a span that begins or ends at one of them, stamps being truncated by less than one unit. -/
def State.samplesBetween (s : State) (src a z : Nat) : Nat :=
  if z ≤ a then 0 else (z - a + 1) * (s.sourceRate src).1 / ((s.sourceRate src).2 * 1000000000 * 65536)

/-- R320: the REF code of a source's samples. -/
def refOf (src : Nat) : Nat := if src < 0x2000 then 0 else 1

/-- Whether a run of sample numbers (first, one past the last) meets a span. -/
def meets (runs : List (Nat × Nat)) (a b : Nat) : Bool := runs.any (fun r => r.1 < b && a < r.2)

/-- R320: the QUAL of a span of source samples `a … b − 1`. -/
def State.spanQual (s : State) (src a b : Nat) : Nat :=
  let o := s.source src
  s.qual (refOf src) + (if meets o.ovr a b then qOvr else 0) + (if o.calSteps.any (fun c => a ≤ c && c < b) then qCal else 0)
    + (if meets o.settling a b then qSettle else 0)

/-! ### Marks of one stream -/

/-- R335: the order of marks that carry one stamp: TIME_STEP, FAILOVER, GAP, CAL_STEP with FS_CHANGE first, RETUNE. -/
def markRank (b : Barge) : Nat :=
  match b.format % 256 with
  | 0x08 => 0
  | 0x09 => 1
  | 0x03 => 2
  | 0x05 => if b.word48 % 256 = 1 then 3 else 4
  | _ => 5

/-- A mark put among those waiting for their place, by stamp, then R335's order. -/
def insertMark (m : Barge) : List Barge → List Barge
  | [] => [m]
  | x :: t =>
    if m.stamp < x.stamp ∨ (m.stamp = x.stamp ∧ markRank m < markRank x) then m :: x :: t else x :: insertMark m t

/-- R335: the marks that stand before a data barge whose span ends at `e`: all up to the last whose stamp lies before `e`. -/
def marksBefore (e : Nat) : List Barge → List Barge × List Barge
  | [] => ([], [])
  | m :: l =>
    let r := marksBefore e l
    if m.stamp < e || !r.1.isEmpty then (m :: r.1, r.2) else ([], m :: r.2)

/-- R127, R335: a RETUNE mark of the boundary stamped `b` put among the marks waiting for their place: the CAL_STEP marks of that
boundary stand before it. -/
def insertRetune (b : Nat) (m : Barge) (l : List Barge) : List Barge :=
  let cals := l.filter (fun x => x.stamp == b && x.format % 256 == 0x05)
  let rest := l.filter (fun x => !(x.stamp == b && x.format % 256 == 0x05))
  let at_ := rest.takeWhile (fun x => x.stamp < m.stamp || (x.stamp == m.stamp && markRank x ≤ markRank m))
  at_ ++ cals ++ [m] ++ rest.drop at_.length

/-- A mark put in by one of the two rules: `b` is the stamp of a retune's boundary. -/
def putMark (b : Option Nat) (m : Barge) (l : List Barge) : List Barge :=
  match b with
  | some b => insertRetune b m l
  | none => insertMark m l

/-! ### The pound writer (R303–R305, R329) -/

/-- POUND_STATUS.STATE: 0 OFF, 1 WAIT_INIT, 2 ACTIVE, 3 FROZEN, 4 FAILED. -/
def State.poundState (s : State) (p : Nat) : Nat := s.get (R.POUND_STATUS.STATE p)

/-- The Source ID a RECORD pound records. -/
def State.poundSource (s : State) (p : Nat) : Nat := s.get (R.POUND_CFG.SRC_CLASS p) * 0x1000 + s.get (R.POUND_CFG.SRC_INDEX p)

/-- Whether pound `p` records a source now. -/
def State.records (s : State) (p src : Nat) : Bool :=
  (s.poundState p == 2 || s.poundState p == 3) && !s.on (R.POUND_CFG.KIND p) && s.poundSource p == src

/-- The element format a pound records a source in: S12P for an ADC, RAWFMT (0 CS16, 1 CS20P) for a DDC (R135), CS16 or
CS20P for a virtual channel by its FMT. -/
def State.recordFmt (s : State) (src : Nat) : Nat :=
  if src < 0x1000 then 0x01
  else if src < 0x2000 then (if s.get (R.DDC_CTL.RAWFMT (src - 0x1000)) = 1 then 0x04 else 0x03)
  else if s.get (R.VC_CFG.FMT (src - 0x2000)) = 1 then 0x04 else 0x03

/-- Samples that a payload of `kb` × 4 KiB holds (R304, R329). -/
def samplesPerBarge (fmt kb : Nat) : Nat :=
  match fmt with
  | 0x01 => kb * 4096 / 24 * 16
  | 0x02 => kb * 2048
  | 0x03 => kb * 1024
  | _ => kb * 4096 / 5

/-- Real samples in pairs of 12 bits. -/
def packS12 : List (Int × Int) → List Byte
  | [] => []
  | [a] => leBytes 3 (wrap 12 a.1)
  | a :: b :: t => leBytes 3 (wrap 12 a.1 + wrap 12 b.1 * 4096) ++ packS12 t

/-- R328: samples packed in an element format; an S12P payload is filled up with zeros to whole groups of 16. -/
def packSamples (fmt : Nat) (xs : List (Int × Int)) : List Byte :=
  match fmt with
  | 0x01 => packS12 (xs ++ List.replicate ((16 - xs.length % 16) % 16) (0, 0))
  | 0x02 => xs.flatMap (fun x => leBytes 2 (wrap 16 (x.1 * 16)))
  | 0x03 => xs.flatMap (fun x => leBytes 4 (wrap 16 (x.1 / 16) + wrap 16 (x.2 / 16) * 65536))
  | _ => xs.flatMap (fun x => leBytes 5 (wrap 20 x.1 + wrap 20 x.2 * 2 ^ 20))

/-- R321: the format word of a source's data in a format. -/
def State.sourceFormat (s : State) (src fmt : Nat) : Nat :=
  if src < 0x1000 then formatWord fmt 15 false (s.fsOf src) 0
  else if src < 0x2000 then
    let d := src - 0x1000
    formatWord fmt (s.ddcK d - 1) (s.on (R.DDC_CTL.QS d)) (s.fsOf (ddcAdc d)) 0
  else formatWord fmt 15 false 0 (s.get (R.VC_RATE.RATE_KS (src - 0x2000)))

/-- The barge being filled ends: the marks before its end and the SAMPLES barge become ready to commit. -/
def State.closeFill (s : State) (p : Nat) : State :=
  let d := s.pound p
  if d.fill.isEmpty then s
  else
    let src := s.poundSource p
    let fmt := s.recordFmt src
    let b : Barge := { type := 1, stream := s.get (R.POUND_STREAM.STREAM p), source := src, stamp := d.fillStamp
                       qual := d.fillQual, format := s.sourceFormat src fmt, word40 := p % 64 + d.fill.length * 2 ^ 32
                       word48 := d.fillFirst, payload := packSamples fmt d.fill }
    let ms := marksBefore d.fillEnd d.marks
    s.updPound p (fun d => { d with
      fill := []
      marks := ms.2
      ready := d.ready ++ ms.1.map (fun m => (m, m.stamp)) ++ [(b, d.fillEnd)] })

/-- R303, R304: one released sample taken by a pound: number, value, stamp, the stamp of the next and QUAL. Barges begin at
multiples of the samples a payload holds; a FROZEN pound stops at the next barge boundary and keeps count of the span; a re-laid one resumes
at such a boundary (R302). -/
def State.poundTake (s : State) (p num : Nat) (x : Int × Int) (stamp next qual : Nat) : State :=
  let cap := max 1 (samplesPerBarge (s.recordFmt (s.poundSource p)) (s.get (R.POUND_CFG.BARGE_KB p)))
  let d := s.pound p
  let s := if !d.fill.isEmpty && d.fillFirst + d.fill.length ≠ num then s.closeFill p else s
  let d := s.pound p
  if d.resume && num % cap ≠ 0 then s
  else if s.poundState p = 3 ∧ d.fill.isEmpty then
    let fz : Discards := match d.frozen with
      | some z => { z with last := next, count := z.count + 1 }
      | none => ⟨stamp, next, 1, qual⟩
    s.updPound p (fun d => { d with frozen := some fz })
  else
    let s := s.updPound p (fun d => if d.fill.isEmpty then
        { d with fill := [x], fillFirst := num, fillStamp := stamp, fillEnd := next, fillQual := qual, resume := false }
      else { d with fill := d.fill ++ [x], fillEnd := next, fillQual := d.fillQual ||| qual % 128 })
    if (num + 1) % cap = 0 then s.closeFill p else s

/-- The marks that a pound still holds become ready: its source releases nothing more for now. Those within an unrecorded span wait for the
mark of that span (R336). -/
def State.flushPoundMarks (s : State) (p : Nat) : State :=
  if (s.pound p).frozen.isSome then s
  else s.updPound p (fun d => { d with marks := [], ready := d.ready ++ d.marks.map (fun m => (m, m.stamp)) })

/-- The pounds that record a source. -/
def State.poundsOf (s : State) (src : Nat) : List Nat := (List.range 64).filter (fun p => s.records p src)

/-- R333: pound `p` reaches a time step: the barge it fills ends, the marks on the old base are ready, then the TIME_STEP mark. -/
def State.poundStep (s : State) (p : Nat) (m : Barge) : State :=
  let s := s.closeFill p
  let old := ((m.stamp : Int) - sext 64 m.word40).toNat
  let m := { m with stream := s.get (R.POUND_STREAM.STREAM p), source := s.poundSource p }
  let ms := marksBefore old (s.pound p).marks
  s.updPound p (fun d => { d with marks := ms.2, ready := d.ready ++ (ms.1 ++ [m]).map (fun m => (m, m.stamp)) })

/-- R333: the time steps that a source reaches with its sample `num` are marked in the pounds that recorded it when they were made. -/
def State.reachSteps (s : State) (src num : Nat) : State :=
  let ms := (s.source src).steps.partition (fun x => x.1 ≤ num)
  if ms.1.isEmpty then s
  else
    ms.1.foldl (fun s x => (x.2.1.filter (fun p => s.records p src)).foldl (fun s p => s.poundStep p x.2.2) s)
      (s.updSource src (fun o => { o with steps := ms.2 }))

/-- One sample released by a source: its pounds take it. A sample that does not follow the one before begins a run. -/
def State.releaseSample (s : State) (src num : Nat) (x : Int × Int) (stamp next : Nat) : State :=
  let s := s.reachSteps src num
  let q := s.spanQual src num (num + 1)
  let s := s.updSource src (fun o =>
    if o.active && o.next == num then { o with next := num + 1, hist := x :: o.hist }
    else { o with next := num + 1, active := true, runFirst := num, hist := [x] })
  (s.poundsOf src).foldl (fun s p => s.poundTake p num x stamp next q) s

/-! ### Plans' streams -/

/-- The plans that are ARMED or RUNNING on a source, and those RUNNING. -/
def State.plansOn (s : State) (src : Nat) : List Nat :=
  (List.range 64).filter (fun p => (s.planState p == 2 || s.planState p == 3) && (s.plan p).sourceId == src)
def State.plansRunning (s : State) (src : Nat) : List Nat :=
  (List.range 64).filter (fun p => s.planState p == 3 && (s.plan p).sourceId == src)

/-- Stream and source of a plan's sheets, and of an engine's traces (Table 10-3). -/
def sheetStream (p : Nat) : Nat := 0x8000 + p
def planSrc (p : Nat) : Nat := 0x3000 + p
def traceStream (p set : Nat) : Nat := 0x8100 + 8 * p + set
def engineSrc (e : Nat) : Nat := 0x4000 + e

/-- The plan and the detector set that an engine serves, as latched at its last trace boundary (R174, R202). -/
def Engine.plan (x : Engine) : Nat := bits x.cfg 1 6
def Engine.set (x : Engine) : Nat := bits x.cfg 7 3

/-- The detector engines that run on a plan (R174). -/
def State.enginesOf (s : State) (p : Nat) : List Nat :=
  (List.range 32).filter (fun e => (s.engine e).running && (s.engine e).plan == p)

/-- A mark offered to a queue with the SEQ of its stream's counter; the answer is the counter afterwards. -/
def State.pushSeq (s : State) (q : Nat) (b : Barge) (n : Nat) : Nat × State :=
  ((n + 1) % 2 ^ 32, s.push q { b with seq := n })

/-- A mark written into a plan's sheet stream now, or kept behind the sheet that the plan holds. -/
def State.emitPlanMark (s : State) (p : Nat) (m : Barge) : State :=
  let pl := s.plan p
  if !pl.exports then s
  else if pl.held.isSome then s.updPlan p (fun pl => { pl with marks := insertMark m pl.marks })
  else
    let r := s.pushSeq pl.sheetQ { m with stream := sheetStream p, source := planSrc p } pl.sheetSeq
    r.2.updPlan p (fun pl => { pl with sheetSeq := r.1 })

/-- A mark written into an engine's trace stream now, or kept behind the trace that waits. -/
def State.emitEngineMark (s : State) (e : Nat) (m : Barge) : State :=
  let x := s.engine e
  let pl := s.plan x.plan
  if !pl.traces then s
  else if x.waiting.isSome then s.updEngine e (fun x => { x with marks := insertMark m x.marks })
  else
    let n := (SMap.find? pl.traceSeq x.set).getD 0
    let r := s.pushSeq pl.traceQ { m with stream := traceStream x.plan x.set, source := engineSrc e } n
    r.2.updPlan x.plan (fun pl => { pl with traceSeq := SMap.put pl.traceSeq x.set r.1 })

/-- R127, R333, R335: a mark put to a plan's streams: it waits for its place among the sheets and traces in flight; `b` is the stamp
of a retune's boundary. -/
def State.holdPlanMark (s : State) (p : Nat) (m : Barge) (b : Option Nat := none) : State :=
  let s := s.updPlan p (fun pl => { pl with marks := putMark b m pl.marks })
  (s.enginesOf p).foldl (fun s e => s.updEngine e (fun x => { x with marks := putMark b m x.marks })) s

/-- R333: the TIME_STEP marks of a plan take their place before the first frame whose first sample `c` is stamped on the new base. -/
def State.stepsReached (s : State) (p c : Nat) : State :=
  let ms := (s.plan p).stepMarks.partition (fun x => x.1 ≤ c)
  ms.1.foldl (fun s x => s.holdPlanMark p x.2) (s.updPlan p (fun pl => { pl with stepMarks := ms.2 }))

/-- Marks of a plan that no later data barge in flight would precede are written. -/
def State.flushPlanMarks (s : State) (p : Nat) : State :=
  let s := (s.plan p).stepMarks.foldl (fun s x => s.holdPlanMark p x.2) s
  let ms := (s.plan p).marks
  let s := s.updPlan p (fun pl => { pl with marks := [], stepMarks := [] })
  let s := ms.foldl (fun s m => s.emitPlanMark p m) s
  (s.enginesOf p).foldl (fun s e =>
    let ms := (s.engine e).marks
    ms.foldl (fun s m => s.emitEngineMark e m) (s.updEngine e (fun x => { x with marks := [] }))) s

/-- R335: a mark put to a plan's streams, written at once where nothing is in flight or to come. -/
def State.markPlan (s : State) (p : Nat) (m : Barge) (b : Option Nat := none) : State :=
  let s := s.holdPlanMark p m b
  if (s.plan p).inflight.isEmpty && !(s.source (s.plan p).sourceId).active then s.flushPlanMarks p else s

/-! ### Marks in every stream a source feeds (R87, R120, R333) -/

/-- A mark put to a pound's stream: it waits for its place, or is ready at once while its source releases nothing. -/
def State.markPound (s : State) (p : Nat) (m : Barge) (b : Option Nat := none) : State :=
  let m := { m with stream := s.get (R.POUND_STREAM.STREAM p), source := s.poundSource p }
  let s := s.updPound p (fun d => { d with marks := putMark b m d.marks })
  if (s.source (s.poundSource p)).active then s else s.flushPoundMarks p

/-- A mark put to every stream that one source feeds: pounds, sheets and traces. -/
def State.markSource (s : State) (src : Nat) (m : Barge) (b : Option Nat := none) : State :=
  let s := (s.poundsOf src).foldl (fun s p => s.markPound p m b) s
  (s.plansRunning src).foldl (fun s p => s.markPlan p m b) s

/-- A mark put to every stream that ADC `n` feeds: its own and those of its two DDCs. -/
def State.markAdc (s : State) (n : Nat) (m : Barge) : State :=
  ((s.markSource (adcId n) m).markSource (ddcId (2 * n)) m).markSource (ddcId (2 * n + 1)) m

/-- A source releases nothing from here on: pounds close the barge they fill, and an open GAP (cause, unit, stamp, QUAL) goes
into each of its streams (R57, R62, R68, R332). Nothing is written where nothing had been released. -/
def State.stopSource (s : State) (src cause unit stamp qual : Nat) : State :=
  if !(s.source src).active then s
  else
    let s := (s.poundsOf src).foldl (fun s p => s.closeFill p) s
    let s := s.updSource src (fun o => { o with active := false })
    let s := if 0x1000 ≤ src ∧ src < 0x2000 then s.put (R.DDC_STATUS.ACTIVE (src - 0x1000)) 0 else s
    s.markSource src (mkGapMark 0 0 stamp qual cause unit 0 none)

end Machine
end Sys2Proof
end

