-- ==== Sys2Proof/Machine/Depend.lean ====
section
/-!
DEFINITION. What other chapters do to flights and generators: the levels of trigger sources (Table 07-1), occurrences on their
way to the flights (R206), dependencies and forced power-down (R229, R230), the abort of a generator (R471).

Marked choices (log entries): DEDUCED 52; DESIGN CHOICE 130. Each entry of notes/assumptions says safe or unsafe.
-/

namespace Sys2Proof
namespace Machine

/-! ### Trigger sources (R205, R206) -/

/-- R205: whether a selector is not reserved; whether it names a level source. -/
def selOk (sel : Nat) : Bool := sel < 0x64 || (0x80 ≤ sel && sel < 0xF2)
def selLevel (sel : Nat) : Bool := sel < 0x64 || sel == 0xF1

/-- The present condition of a level source. -/
def State.condition (s : State) (sel : Nat) : Bool :=
  if sel < 0x40 then s.on (R.WEIR_STATUS.COND sel)
  else if sel < 0x50 then s.on (R.DZ_STATUS.COND (sel - 0x40))
  else if sel < 0x58 then s.on (R.PLT_STATUS.COND (sel - 0x50))
  else if sel < 0x60 then s.on (R.TRIGIN_STATUS.LEVEL (sel - 0x58))
  else if sel < 0x64 then s.on (R.IBUS_STATUS.LEVEL (sel - 0x60))
  else sel == 0xF1

/-- An occurrence sets out for the flights: one that arrives after an ARM counts although it left before (R221). -/
def State.occur (s : State) (o : Occ) : State := { s with occs := s.occs ++ [o] }

/-- R206: an evaluation of a level source whose condition was `was` and is now `now`. -/
def State.evaluated (s : State) (sel : Nat) (was now : Bool) (stamp qual : Nat) : State :=
  if was || now then s.occur { sel := sel, rise := !was && now, fall := was && !now, high := now, stamp := stamp, qual := qual }
  else s

/-- An occurrence of an event source. -/
def State.eventOccur (s : State) (sel stamp qual : Nat) : State := s.occur { sel := sel, stamp := stamp, qual := qual }

/-! ### Dependencies (R229, R230) -/

/-- Units a flight may depend on: 0 ADC, 1 DDC, 2 lane. -/
def uAdc (n : Nat) : Nat × Nat := (0, n)
def uDdc (d : Nat) : Nat × Nat := (1, d)
def uLane (l : Nat) : Nat × Nat := (2, l)

/-- The units that a plan's analysis rests on: its lanes, its source DDC and that DDC's ADC. -/
def State.planUnits (s : State) (p : Nat) : List (Nat × Nat) :=
  let pl := s.plan p
  let src := pl.sourceId
  (pl.lanes.map uLane) ++ (if src < 0x2000 then [uDdc (src % 0x1000), uAdc (ddcAdc (src % 0x1000))] else [])

/-- R229: the units one selector makes a flight depend on. -/
def State.selUnits (s : State) (sel : Nat) : List (Nat × Nat) :=
  if sel < 0x40 then s.planUnits (s.get (R.WEIR_CFG.PLAN sel))
  else if sel < 0x50 then s.planUnits (s.get (R.DZ_CFG.PLAN (sel - 0x40)))
  else if sel < 0x58 then
    let d := s.get (R.PLT_CTL.DDC (sel - 0x50))
    [uDdc d, uAdc (ddcAdc d)]
  else []

/-- R229: the dependencies of a flight, fixed at ARM. -/
def State.flightDeps (s : State) (f : Nat) : List (Nat × Nat) :=
  (List.range (s.get (R.FL_CFG.NCH_M1 f) + 1)).flatMap (fun j =>
    s.selUnits (s.get (R.FL_CH_SRC.SRC f j)) ++
      (if s.on (R.FL_CH_SRC.QEN f j) then s.selUnits (s.get (R.FL_CH_SRC.QUAL f j)) else []))

/-- FL_STATUS.STATE: 0 OFF, 1 PENDING, 2 ARMED, 3 CLIMBING, 4 HOLDOFF. -/
def State.flState (s : State) (f : Nat) : Nat := s.get (R.FL_STATUS.STATE f)

/-- The climbing flights that depend on one of these units. -/
def State.climbingOn (s : State) (units : List (Nat × Nat)) : List Nat :=
  (List.range 16).filter (fun f => s.flState f == 3 && (s.flight f).deps.any (fun u => units.contains u))

/-- The units of ADC `n`. -/
def adcUnits (n : Nat) : List (Nat × Nat) := [uAdc n, uDdc (2 * n), uDdc (2 * n + 1)]

/-- The climbing flights that depend on any unit at all: those that a mode request waits for (R572). -/
def State.climbingDeps (s : State) : List Nat := (List.range 16).filter (fun f => s.flState f == 3 && !(s.flight f).deps.isEmpty)

/-- PD_HOLD of the flights that hold a request on these units. -/
def State.holdOn (s : State) (units : List (Nat × Nat)) : State :=
  (s.climbingOn units).foldl (fun s f => s.put (R.FL_STATUS.PD_HOLD f) 1) s

/-! ### Marks of flights (R232, R233) -/

/-- Table 07-4. -/
def flightInfo (f chamber source : Nat) (dropped : Bool) (cause fires : Nat) : Nat :=
  f % 16 + chamber % 8 * 16 + source % 512 * 256 + b2n dropped * 2 ^ 17 + cause % 16 * 2 ^ 20 + fires % 2 ^ 32 * 2 ^ 32

/-- R225: a mark of flight `f` written to every queue enabled in its mark registers: one barge, one SEQ (R339). -/
def State.flightMark (s : State) (f subtype stamp qual info : Nat) : State :=
  let n := (s.flight f).seq
  let m := { mkMark (0x8480 + f) (0x6000 + f) subtype stamp qual 0 info with seq := n }
  let s := s.updFlight f (fun x => { x with seq := (x.seq + 1) % 2 ^ 32 })
  [0, 1].foldl (fun s i =>
    let s := if s.on (R.FL_MARKQ.EN_A f i) then s.push (s.get (R.FL_MARKQ.Q_A f i)) m else s
    if s.on (R.FL_MARKQ.EN_B f i) then s.push (s.get (R.FL_MARKQ.Q_B f i)) m else s) s

/-- The fabric cycle an instant of the advance (2^-16 ns) lies in, and the first instant of a cycle: cycles of 2.0895 GHz counted
from an advance of 0 (log 130). -/
def fabCycle (u : Nat) : Nat := u * 20895 / 655360000
def fabStart (c : Nat) : Nat := ceilDiv (c * 655360000) 20895

/-- R223, R224, R230, R231: a flight enters chamber 0 of ARMED at an instant of the advance; HOLDOFF and AUTO_TIMEOUT take hold. -/
def State.toChamber0 (s : State) (f u : Nat) : State :=
  let s := ((s.put (R.FL_STATUS.STATE f) 2).put (R.FL_STATUS.CHAMBER f) 0).put (R.FL_STATUS.PD_HOLD f) 0
  s.updFlight f (fun x => { x with
    counted := 0, entered := u / 65536, kept := none, moved := some (fabCycle u)
    holdoff := s.get (R.FL_HOLDOFF.HOLDOFF f), auto := 1000 * max 1 (s.get (R.FL_AUTO.AUTO_TIMEOUT f)) })

/-- R230: a forced power-down of units: every climbing flight that depends on one returns to chamber 0 with a FLIGHT_ABORTED
mark and event. -/
def State.abortFlights (s : State) (units : List (Nat × Nat)) (cause : Nat) : State :=
  (s.climbingOn units).foldl (fun s f =>
    let info := flightInfo f (s.get (R.FL_STATUS.CHAMBER f)) 0x1FF false cause (s.flight f).fires
    let s := s.flightMark f mkFlightAborted s.time (s.qual 2) info
    (s.raise 69 f f cause).toChamber0 f (s.tk.adv / 1024)) s

/-! ### Generators (R455, R471) -/

/-- R577, R578: whether a protective action keeps a generator that is started from playing. -/
def State.sgBarred (s : State) (g : Nat) : Bool :=
  s.unitsBarred || (decide (g < 4) && s.on R.GLOBAL_PROT.SUPPLY && [21, 22].contains (s.get R.GLOBAL_PROT.RAIL))

/-- SG_STATUS.STATE: 0 EMPTY, 1 LOADED, 2 ARMED, 3 PLAYING, 4 WAITING. -/
def State.sgState (s : State) (g : Nat) : Nat := s.get (R.SG_STATUS.STATE g)

/-- R455, R493: the ball time of a generator's sample with count `n`: from its ADC's counter with SKEW, or from T_SYNC at the
egress rate. -/
def State.sgBall (s : State) (g n : Nat) : Nat :=
  if g < 4 then
    let a := 2 * (g / 2)
    let per := 1000 * 65536 / max 1 (s.fsOf a)
    s.adcStamp a n + s.get (R.SG_SKEW.FINE g) * 65536 / 2000 + s.get (R.SG_SKEW.COARSE g) * per
  else
    let x := s.sg g
    ((x.anchorTime : Int) + ((n : Int) - x.anchorCount) * (1000000 * 65536 * s.tk.inc)
      / (max 1 (s.get (R.EG_RATE.RATE_KS (g - 4))) * 0xA0000000)).toNat

/-- The first granule boundary of a generator whose ball time is at or after a time (R455, R493). -/
def State.sgCountAt (s : State) (g t : Nat) : Nat :=
  let n := if g < 4 then
      let a := 2 * (g / 2)
      let per := 1000 * 65536 / max 1 (s.fsOf a)
      s.adcCounterAt a (t - s.get (R.SG_SKEW.FINE g) * 65536 / 2000 - s.get (R.SG_SKEW.COARSE g) * per)
    else
      let x := s.sg g
      ((x.anchorCount : Int) + -(-(((t : Int) - x.anchorTime) * (s.get (R.EG_RATE.RATE_KS (g - 4)) * 0xA0000000))
        / (1000000 * 65536 * s.tk.inc))).toNat
  (n + 63) / 64 * 64

/-- The time between the commit of a granule and its first sample at the ball: 72 ns (R456). -/
def commitLead : Nat := nsUnits 72

/-- R468: the start boundary of an ARMED generator for a wanted ball time: the first boundary at or after it, or, where that one
would be committed before `floor`, the first that would not, and the start is late. -/
def State.sgSchedule (s : State) (g t floor : Nat) : State :=
  let a := s.sgCountAt g t
  let b := s.sgCountAt g (floor + commitLead)
  let n := max a b
  let ball := s.sgBall g n
  s.updSg g (fun x => { x with startAt := some ball, late := decide (a < b), nextCount := n })

/-- R468: a generator is ready 1 µs after the acceptance of its SEQ_START. -/
def Sg.readyAt (x : Sg) : Nat := x.acceptedAt + nsUnits 1000

/-- R667: the GPIO balls that follow a marker (FN 2), or PWM `i` on its own ball (FN 1), take a level. -/
def State.gpioFollow (s : State) (fn sel : Nat) (high : Bool) (t : Nat) : State :=
  (List.range 16).foldl (fun (s : State) i =>
    if s.get (R.GPIO_CFG.FN i) = fn ∧ (if fn = 2 then s.get (R.GPIO_CFG.SEL i) = sel else i = sel) then s.send (.level 1 i high t) else s) s

/-- R59: the edge of a marker at an instant starts the ARMED ADCs that wait for it. -/
def State.markerEdge (s : State) (g m : Nat) (rise : Bool) (t : Nat) : State :=
  (List.range 4).foldl (fun s n =>
    let a := s.adc n
    if s.get (R.ADC_STATUS.STATE n) = 3 ∧ a.src = 2 ∧ a.sel = 4 * g + m ∧ a.startAt = none ∧ (a.edge = 0 ↔ rise = true) then
      s.updAdc n (fun a => { a with startAt := some t })
    else s) ((s.send (.level 0 (4 * g + m) rise t)).gpioFollow 2 (4 * g + m) rise t)

/-- R464: the marker levels of a generator from the ball time of a granule on. -/
def State.setMarkers (s : State) (g : Nat) (ls : List Bool) (t : Nat) : State :=
  let old := (s.sg g).markers
  let s := (List.range 4).foldl (fun s m =>
    let now := ls.getD m false
    if old.getD m false = now then s else s.markerEdge g m now t) s
  s.updSg g (fun x => { x with markers := ls })

/-- The markers of a generator that plays no step are low (R464). -/
def markersLow : List Bool := [false, false, false, false]

/-- A generator leaves ARMED, PLAYING or WAITING for LOADED with an outcome (Table 15-6): the DAC plays code 0 from the first
granule not committed, an outstanding SEQ_START that had not begun retires CANCELLED and the SEQ_STOPs OK. -/
def State.sgHalt (s : State) (g last : Nat) : State :=
  let x := s.sg g
  let s := (s.put (R.SG_STATUS.STATE g) 1).put (R.SG_STATUS.LAST g) last
  let s := if g < 4 then s.put (R.DAC_STATUS.IDLE_OUT g) (b2n (s.get (R.DAC_STATUS.STATE g) == 2)) else s
  let s := s.setMarkers g markersLow (s.sgBall g x.nextCount)
  let s := s.updSg g (fun x => { x with startRef := none, startAt := none, stops := [], waitGate := none, last := (0, 0) })
  let s := match x.startRef with
    | some r => s.retireRef r stCancelled []
    | none => s
  x.stops.foldl (fun s r => s.retireRef r.1 stOk [(20, leBytes 8 x.played)]) s

/-- R471: an abort, with the cause of Table 15-5; the record's TIME is the ball time of the first granule not played. -/
def State.sgAbort (s : State) (g cause : Nat) : State :=
  if s.sgState g < 2 then s
  else
    let t := if s.sgState g = 2 then (s.sg g).startAt.getD s.time else s.sgBall g (s.sg g).nextCount
    (s.sgHalt g 5).raiseAt 289 g (cause % 16) cause t

end Machine
end Sys2Proof
end

