-- ==== Sys2Proof/Machine/Scan.lean ====
section
/-!
DEFINITION. What the display heads take from the detector engines as traces complete (R638, R640, R641), and how a plane's window maps onto
columns, rows and points (R639).

Marked choices (log entries): DEDUCED 97. Each entry of notes/assumptions says safe or unsafe.
-/

namespace Sys2Proof
namespace Machine

/-- A head. -/
def State.head (s : State) (h : Nat) : Head := (SMap.find? s.heads h).getD {}

/-- A head changed in place. -/
def State.updHead (s : State) (h : Nat) (f : Head → Head) : State := { s with heads := SMap.put s.heads h (f (s.head h)) }

/-- A field of a head's active set. -/
def State.headGet (s : State) (h : Nat) (f : Field) : Nat := bits ((s.head h).active.word f.key).toNat f.lsb f.width

/-- R639: of `n` items from a first on, over `w` pixels, those that pixel `x` spans, as offsets: from ⌊x n / w⌋ to ⌈(x + 1) n / w⌉ − 1. -/
def spanOf (n w x : Nat) : List Nat :=
  let a := x * n / w
  let b := max (a + 1) (ceilDiv ((x + 1) * n) w)
  (List.range (b - a)).map (fun i => a + i)

/-- A point of a trace. -/
def pointAt (tr : List (Option Int)) (i : Nat) : Option Int := (tr[i]?).getD none

/-- The largest level of several points, "no data" left out. -/
def maxLevel (ps : List (Option Int)) : Option Int :=
  ps.foldl (fun m p => match m, p with
    | some a, some b => some (max a b)
    | none, x => x
    | x, none => x) none

/-- R640: a level's palette index. -/
def wfIndex (bottom : Int) (spanDb : Nat) (l : Option Int) : Nat :=
  match l with
  | some l => (clampInt 1 255 ((l - bottom) / spanDb + 1)).toNat
  | none => 0

/-- R640: the line that a trace makes in a waterfall plane. -/
def State.wfLine (s : State) (h p : Nat) (tr : List (Option Int)) : List Nat :=
  let w := s.headGet h (R.PL_SIZE.W h p)
  let first := s.headGet h (R.PL_SRCX.FIRST h p)
  let n := s.headGet h (R.PL_SRCX.LAST h p) + 1 - first
  let bottom := sext 16 (s.headGet h (R.PL_SRCY.ROW0_BOTTOM h p))
  let db := s.headGet h (R.PL_SRCY.ROW1_SPAN h p)
  let pool := s.headGet h (R.PL_CFG.MAXPOOL h p) == 1
  (List.range w).map (fun x =>
    let l := if pool then maxLevel ((spanOf n w x).map (fun i => pointAt tr (first + i))) else pointAt tr (first + x * n / w)
    wfIndex bottom db l)

/-- R638, R640, R641: engine `e` completes a trace: a frame whose cut is still to come shows it, and the waterfall planes take every
(DECIM_M1 + 1)-th. -/
def State.headsTrace (s : State) (e : Nat) (tr : List (Option Int)) : State :=
  [0, 1].foldl (fun (s : State) (h : Nat) =>
    let hd := s.head h
    let before := match hd.cut with
      | some c => decide (s.time < c)
      | none => false
    let s := if before then s.updHead h (fun x => { x with traces := SMap.put x.traces e tr }) else s
    match (List.range 4).find? (fun p => s.headGet h (R.PL_CFG.KIND h p) == 2 && s.headGet h (R.PL_CFG.SRC h p) == e) with
    | some p =>
      if !s.on (R.DISP_CTL.EN h) then s
      else if hd.skipped < bits ((s.head h).active.word (R.PL_TRC h p)).toNat 0 16 then s.updHead h (fun x => { x with skipped := x.skipped + 1 })
      else
        let l := s.wfLine h p tr
        s.updHead h (fun x => { x with skipped := 0, lines := ((s.time, l) :: x.lines).take 2048 })
    | none => s) s

end Machine
end Sys2Proof
end

