-- ==== Sys2Proof/Machine/Detectors.lean ====
section
/-!
DEFINITION. Detector engines (chapter 6): what a sheet's bins become in a trace, the export of traces, partial traces.

Marked choices (log entries): DEDUCED 20, 21, 22; DESIGN CHOICE 127. Each entry of notes/assumptions says safe or unsafe.
-/

namespace Sys2Proof
namespace Machine

/-- One bin of a sheet as its consumers take it (R173): its centred index, its dB16 level and its linear level as numerator and
denominator. -/
structure Bin where
  c : Nat
  level : Int
  num : Nat
  den : Nat
deriving DecidableEq, Repr

/-- A sheet as its consumers take it: its plan, lane and frame, the FFT size, the stamp of its first sample, the QUAL of its
span, whether it carries OVR and CAL, and its bins in emission order. -/
structure Sheet where
  plan : Nat
  lane : Nat
  frame : Nat
  n : Nat
  stamp : Nat
  qual : Nat
  ovr : Bool := false
  cal : Bool := false
  bins : List Bin
deriving DecidableEq, Repr

/-! ### An engine's settings, as latched (Table 06-6) -/

def Engine.dmode (x : Engine) : Nat := bits x.cfg 10 3
def Engine.amode (x : Engine) : Nat := if bits x.cfg 13 2 = 3 then 0 else bits x.cfg 13 2
def Engine.pwr32 (x : Engine) : Bool := bit x.cfg 15
def Engine.avgLen (x : Engine) : Nat := 2 ^ bits x.cfg 16 4
def Engine.first (x : Engine) : Nat := bits x.range 0 16

/-- R175: nb and NP for sheets of `n` bins. -/
def Engine.nb (x : Engine) (n : Nat) : Nat := min (bits x.range 16 16) (n - 1) + 1 - x.first
def Engine.np (x : Engine) (n : Nat) : Nat := min (bits x.cfg 20 12 + 1) (x.nb n)

/-- R175: the point of a bin, if it lies in range. -/
def Engine.point? (x : Engine) (n c : Nat) : Option Nat :=
  if x.first ≤ c ∧ c < x.first + x.nb n then some ((c - x.first) * x.np n / x.nb n) else none

/-- The lowest index of a point (R177). -/
def Engine.lowest (x : Engine) (n j : Nat) : Nat := x.first + ceilDiv (j * x.nb n) (x.np n)

/-- Table 06-1: the bin whose level is point `j`'s sample. -/
def Engine.sampleBin (x : Engine) (n j : Nat) : Nat := x.lowest n j + (x.lowest n (j + 1) - x.lowest n j) / 2

/-- R177: one bin gathered by its point. -/
def PointAcc.take (a : PointAcc) (b : Bin) (sample : Bool) : PointAcc :=
  { count := a.count + 1
    max := if a.count = 0 then b.level else Max.max a.max b.level
    min := if a.count = 0 then b.level else Min.min a.min b.level
    sum := a.sum + b.level
    lin := a.lin.add (F64.ofRatio b.num b.den)
    sample := if sample then some b.level else a.sample }

/-- The points with one bin gathered. -/
def Engine.gather (x : Engine) (n : Nat) (pts : List PointAcc) (b : Bin) : List PointAcc :=
  match x.point? n b.c with
  | some j => pts.modify j (fun a => a.take b (b.c == x.sampleBin n j))
  | none => pts

/-- R177: a point's period result, in the domain its AVERAGE works in: the linear mean for RMS, dB16 for the other modes. DESIGN CHOICE
(log 127): DMODE 5–7, which only a write under a running plan can bring about, gives the linear mean, put out as its floor. -/
def Engine.result (x : Engine) (a : PointAcc) : Option F64 :=
  if a.count = 0 then none
  else match x.dmode with
    | 0 => some (.ofInt a.max)
    | 1 => some (.ofInt a.min)
    | 2 => a.sample.map F64.ofInt
    | 3 => some (.ofInt (a.sum / a.count))
    | _ => some (a.lin.divNat a.count)

/-- A value of that domain as dB16. -/
def Engine.level (x : Engine) (v : F64) : Int := if x.dmode = 4 then v.toDb16 else v.floor

/-- R178: the hold state after a period result: (q, value). -/
def Engine.hold (x : Engine) (old : Option (Nat × F64)) (v : F64) : Nat × F64 :=
  let o := old.getD (0, {})
  if x.amode = 1 then (o.1 + 1, if o.1 ≠ 0 ∧ v.le o.2 then o.2 else v)
  else (o.1 + 1, o.2.add ((v.add o.2.neg).divNat (min (o.1 + 1) x.avgLen)))

/-- R178, R179: one point of a completed trace and the hold states: its level, none for no data. -/
def Engine.output (x : Engine) (r : List (Option Int) × SMap (Nat × F64)) (j : Nat) : List (Option Int) × SMap (Nat × F64) :=
  let v := x.result (x.points.getD j {})
  if x.amode = 0 then (r.1 ++ [v.map x.level], r.2)
  else match v with
    | some v =>
      let h := x.hold (SMap.find? r.2 j) v
      (r.1 ++ [some (x.level h.2)], SMap.put r.2 j h)
    | none => (r.1 ++ [(SMap.find? r.2 j).map (fun h => x.level h.2)], r.2)

/-- R179, R180: a trace's payload. -/
def Engine.payload (x : Engine) (pts : List (Option Int)) : List Byte :=
  pts.flatMap (fun v => if x.pwr32 then leBytes 4 (levelToPwr32 (v.getD noData)) else leBytes 2 (db16Word (v.getD noData)))

/-- Table 06-2. -/
def Engine.word (x : Engine) (e np : Nat) (gapped partly : Bool) : Nat :=
  x.plan + x.set * 2 ^ 8 + e % 32 * 2 ^ 11 + x.dmode * 2 ^ 16 + x.amode * 2 ^ 19 + b2n x.pwr32 * 2 ^ 21 + b2n x.ovr * 2 ^ 22
    + b2n x.cal * 2 ^ 23 + b2n gapped * 2 ^ 24 + b2n partly * 2 ^ 25 + b2n x.dropBefore * 2 ^ 26 + np * 2 ^ 32
    + min x.used 65535 * 2 ^ 48

/-! ### Traces -/

/-- R181: the TPERIOD in force: at least 1 and long enough for 1 µs. -/
def State.tperiod (s : State) (e p : Nat) : Nat :=
  let r := s.sourceRate (s.plan p).sourceId
  max (max 1 (s.get (R.DET_CTL.TPERIOD e))) (ceilDiv r.1 (r.2 * 1000000 * max 1 (s.plan p).hop))

/-- R24: a frame's first source sample number, and the first frame that begins at or after a sample. -/
def Plan.frameSample (pl : Plan) (f : Nat) : Nat := (pl.frame0 + (f * pl.hop : Nat)).toNat
def Plan.frameFrom (pl : Plan) (m : Nat) : Nat := (-((pl.frame0 - m) / (max 1 pl.hop : Nat))).toNat

/-- R202: the settings of an engine latched at a trace boundary, and the next trace begun at frame `f`. A changed AMODE or a
HOLD_RESET restarts the hold state (R178). -/
def State.beginTrace (s : State) (e f : Nat) : State :=
  let x := s.engine e
  let cfg := (s.word (R.DET_CFG e)).toNat
  let y := { x with cfg := cfg }
  let n := (s.plan y.plan).n
  let y := { y with range := (s.word (R.DET_RANGE e)).toNat, period := s.tperiod e y.plan, firstFrame := f, used := 0 }
  let y := { y with ovr := false, cal := false, gapped := false, holdReset := false }
  let y := { y with holds := if x.holdReset ∨ y.amode ≠ x.amode then [] else x.holds }
  s.updEngine e (fun _ => { y with points := List.replicate (y.np n) {} })

/-- The marks of an engine that stand before a trace whose span ends at `t`. -/
def State.emitEngineMarks (s : State) (e t : Nat) : State :=
  let ms := marksBefore t (s.engine e).marks
  ms.1.foldl (fun s m => s.emitEngineMark e m) (s.updEngine e (fun x => { x with marks := ms.2 }))

/-- R180, R182: a completed trace put to its queue: written, or held while the queue refuses it; a newer one is discarded while
one is held. -/
def State.exportTrace (s : State) (e : Nat) (b : Barge) (endStamp : Nat) : State :=
  let x := s.engine e
  let pl := s.plan x.plan
  if !pl.traces then s
  else if x.waiting.isSome then
    let d : Discards := match x.discards with
      | some d => { d with last := endStamp, count := d.count + 1 }
      | none => ⟨b.stamp, endStamp, 1, b.qual % 16 + (if b.qual / 128 % 2 = 1 then 128 else 0)⟩
    (s.updEngine e (fun x => { x with discards := some d })).satInc (R.DET_STATUS.DROPPED e)
  else
    let s := s.emitEngineMarks e endStamp
    let n := (SMap.find? (s.plan x.plan).traceSeq x.set).getD 0
    let r := s.admitBarge pl.traceQ { b with seq := n }
    if r.1.taken then
      let s := r.2.updPlan x.plan (fun pl => { pl with traceSeq := SMap.put pl.traceSeq x.set ((n + 1) % 2 ^ 32) })
      s.updEngine e (fun x => { x with dropBefore := false })
    else (r.2.updEngine e (fun x => { x with waiting := some b, dropBefore := false })).put (R.DET_STATUS.WAITING e) 1

/-- R176–R180, R183: the trace in progress completes, its last frame being `f - 1`; the next begins at `f`, unless the engine
has been bound to another set since (R202), which it then leaves for. -/
def State.completeTrace (s : State) (e f : Nat) (partly gapped : Bool) : State :=
  let x := s.engine e
  let pl := s.plan x.plan
  let r := (List.range x.points.length).foldl x.output ([], x.holds)
  let a := pl.frameSample x.firstFrame
  let z := pl.frameSample f
  let b : Barge :=
    { type := 3, stream := traceStream x.plan x.set, source := engineSrc e, stamp := s.sampleStamp pl.sourceId a
      qual := s.spanQual pl.sourceId a z, format := s.sourceFormat pl.sourceId (if x.pwr32 then 0x12 else 0x11)
      word40 := x.word e x.points.length (x.gapped || gapped) partly, word48 := a, payload := x.payload r.1 }
  let s := s.exportTrace e b (s.sampleStamp pl.sourceId z)
  let s := (s.inc (R.DET_STATUS.TRACES e)).updEngine e (fun x => { x with latest := r.1, holds := r.2 })
  let s := s.headsTrace e r.1
  if s.get (R.DET_CFG.PLAN e) = x.plan ∧ s.get (R.DET_CFG.SET e) = x.set then s.beginTrace e f
  else s.updEngine e (fun x => { x with running := false })

/-- R176: a frame accounted for, taken or not. -/
def State.accountFrame (s : State) (e f : Nat) (taken : Bool) : State :=
  let s := if taken then s else s.updEngine e (fun x => { x with gapped := true })
  let x := s.engine e
  if x.firstFrame + x.period ≤ f + 1 then s.completeTrace e (f + 1) false false else s

/-- R177: a sheet taken by an engine. -/
def State.engineSheet (s : State) (sh : Sheet) (e : Nat) : State :=
  let s := s.updEngine e (fun x => { x with
    points := sh.bins.foldl (x.gather sh.n) x.points
    used := x.used + 1, ovr := x.ovr || sh.ovr, cal := x.cal || sh.cal })
  s.accountFrame e sh.frame true

/-- Frames `a … b − 1` of a plan that were not taken (R176). -/
def State.enginesMiss (s : State) (p a b : Nat) : State :=
  (s.enginesOf p).foldl (fun s e => (List.range' a (b - a)).foldl (fun s f => s.accountFrame e f false) s) s

/-! ### Starting and stopping -/

/-- R174: the lowest-numbered enabled engine for a set of a plan. -/
def State.engineFor? (s : State) (p set : Nat) : Option Nat :=
  (List.range 32).find? (fun e => s.on (R.DET_CFG.EN e) && s.get (R.DET_CFG.PLAN e) == p && s.get (R.DET_CFG.SET e) == set)

/-- Whether engine `e` should be running: EN, its plan RUNNING with its set enabled, no lower engine for the same set. -/
def State.engineWanted (s : State) (e : Nat) : Bool :=
  let p := s.get (R.DET_CFG.PLAN e)
  let set := s.get (R.DET_CFG.SET e)
  s.planState p == 3 && bit ((s.plan p).u 33 1) set && s.engineFor? p set == some e

/-- R183: an engine leaves its plan: the trace in progress completes with PARTIAL = 1 if a frame of its period has begun (none does at or after
the frame that a stop ends at), and marks that wait behind no trace are written. Its hold state stays (R178). -/
def State.engineStop (s : State) (e : Nat) (gapped : Bool) : State :=
  let x := s.engine e
  if !x.running then s
  else
    let pl := s.plan x.plan
    let reached := match pl.stopFrame with
      | some f => decide (x.firstFrame < f)
      | none => true
    let begun := reached && (pl.fillNext > x.firstFrame || pl.frameSample x.firstFrame < (s.source pl.sourceId).next)
    let s := if begun && pl.nextFrame > x.firstFrame then s.completeTrace e pl.nextFrame true gapped
      else if begun then s.completeTrace e (pl.nextFrame + 1) true true else s
    let ms := (s.engine e).marks
    let s := ms.foldl (fun s m => s.emitEngineMark e m) (s.updEngine e (fun x => { x with marks := [] }))
    s.updEngine e (fun x => { x with running := false })

/-- An engine begins to serve its set at frame `f` of its plan: with the trace that f lies in (R176). -/
def State.engineStart (s : State) (e f : Nat) : State :=
  let s := (s.updEngine e (fun x => { x with running := true })).beginTrace e f
  let per := max 1 (s.engine e).period
  s.updEngine e (fun x => { x with firstFrame := f / per * per, gapped := f % per ≠ 0 })

/-- R178: the hold states restart at the start of the plan that DET_CFG names. -/
def State.restartHolds (s : State) (p : Nat) : State :=
  ((List.range 32).filter (fun e => s.get (R.DET_CFG.PLAN e) == p)).foldl (fun s e => s.updEngine e (fun x => { x with holds := [] })) s

/-- R174, R183: an engine's running follows its settings. -/
def State.settleEngine (s : State) (e : Nat) : State :=
  if (s.engine e).running then
    let keeps := s.on (R.DET_CFG.EN e) && s.planState (s.engine e).plan == 3 && (s.engineWanted e || !(s.get (R.DET_CFG.PLAN e) == (s.engine e).plan && s.get (R.DET_CFG.SET e) == (s.engine e).set))
    if keeps then s else s.engineStop e false
  else if s.engineWanted e then s.engineStart e (s.plan (s.get (R.DET_CFG.PLAN e))).nextFrame else s

/-- R174: the effect of a word written to DET_CFG(e): DROPPED is cleared when EN is set, and an engine that names a set which a
lower-numbered enabled engine serves has CFG_ERR set. -/
def State.writeDetCfg (s : State) (e : Nat) (w : Word) : State :=
  let was := s.on (R.DET_CFG.EN e)
  let s := s.plainWrite (R.DET_CFG e) w
  let s := if !was && s.on (R.DET_CFG.EN e) then s.put (R.DET_STATUS.DROPPED e) 0 else s
  let s := (List.range 32).foldl (fun s d =>
    if s.on (R.DET_CFG.EN d) && s.engineFor? (s.get (R.DET_CFG.PLAN d)) (s.get (R.DET_CFG.SET d)) ≠ some d then
      s.put (R.DET_STATUS.CFG_ERR d) 1 else s) s
  (List.range 32).foldl (fun s d => s.settleEngine d) s

/-- R178: HOLD_RESET written: the hold state restarts at the next trace boundary. -/
def State.holdReset (s : State) (e : Nat) : State := s.updEngine e (fun x => { x with holdReset := true })

/-- HOLD_RESET (R178): a write of DET_CTL(e).HOLD_RESET = 1. -/
def execHoldReset (p : Path) (e : Fin 32) (s : State) : Out :=
  .next (s.gateAction p (R.DET_CTL e.val) (fun s => s.holdReset e.val))

/-- The effect of a word written to DET_CTL(e). -/
def State.writeDetCtl (s : State) (e : Nat) (w : Word) : State :=
  let s := s.plainWrite (R.DET_CTL e) w
  if bit w.toNat 31 then s.holdReset e else s

/-- R182, R337: traces of a plan that wait for their queue, each with the GAP mark over those discarded since, go on waiting with the SEQ
that they have in the run which made them. -/
def State.leaveTraces (s : State) (p : Nat) : State :=
  (List.range 32).foldl (fun s e =>
    let x := s.engine e
    match x.waiting with
    | some b =>
      if b.word40 % 64 ≠ p then s
      else
        let n := (SMap.find? (s.plan p).traceSeq (bits b.word40 8 3)).getD 0
        let gap := match x.discards with
          | some d => [{ mkGapMark b.stream b.source d.first d.qual 0x07 e d.count (some (d.last - d.first)) with seq := (n + 1) % 2 ^ 32 }]
          | none => []
        let rest := x.marks.zipIdx.map (fun m => { m.1 with stream := b.stream, source := b.source, seq := (n + 1 + gap.length + m.2) % 2 ^ 32 })
        let s := { s with waitQ := s.waitQ ++ ({ b with seq := n } :: (gap ++ rest)).map (fun b => ((s.plan p).traceQ, b)) }
        (s.updEngine e (fun x => { x with waiting := none, discards := none, marks := [] })).put (R.DET_STATUS.WAITING e) 0
    | none => s) s

/-- TRACE_QUEUED (R182): a waiting trace is admitted to its queue; a GAP mark then covers the traces discarded since, and the
next trace to be queued carries DROP_BEFORE. -/
def execTraceQueued (e : Fin 32) (s : State) : Out :=
  let e := e.val
  let x := s.engine e
  match x.waiting with
  | none => .next s
  | some b =>
    let n := (SMap.find? (s.plan (b.word40 % 64)).traceSeq (bits b.word40 8 3)).getD 0
    let p := b.word40 % 64
    let set := bits b.word40 8 3
    let q := (s.plan p).traceQ
    let r := s.admitBarge q { b with seq := n }
    if !r.1.taken then .next r.2
    else
      let s := r.2.put (R.DET_STATUS.WAITING e) 0
      let s := s.updEngine e (fun x => { x with waiting := none, discards := none, dropBefore := x.discards.isSome })
      let seqTo := fun (s : State) (n : Nat) => s.updPlan p (fun pl => { pl with traceSeq := SMap.put pl.traceSeq set (n % 2 ^ 32) })
      let s := match x.discards with
        | some d =>
          let g := mkGapMark b.stream b.source d.first d.qual 0x07 e d.count (some (d.last - d.first))
          seqTo (s.push q { g with seq := (n + 1) % 2 ^ 32 }) (n + 2)
        | none => seqTo s (n + 1)
      let s := if x.running then s else
        x.marks.foldl (fun s m => s.emitEngineMark e m) (s.updEngine e (fun x => { x with marks := [] }))
      .next s

end Machine
end Sys2Proof
end

