-- ==== Sys2Proof/Machine/Reams.lean ====
section
/-!
DEFINITION. Density reams and density zones (chapter 6): the grid, decay, the lanes' delta tiles and the directory, cuts,
snapshots and clears, the zones' conditions.

Marked choices (log entries): DEDUCED 23, 24, 25, 26, 28, 97, 128. Each entry of notes/assumptions says safe or unsafe.
-/

namespace Sys2Proof
namespace Machine

/-! ### The grid (R185–R187) -/

/-- R185: nb and W for sheets of `n` bins. -/
def State.reamNb (s : State) (m n : Nat) : Nat :=
  min (s.get (R.REAM_COLS.LAST m)) (n - 1) + 1 - s.get (R.REAM_COLS.FIRST m)
def State.reamWidth (s : State) (m : Nat) : Nat := min 2048 (s.reamNb m (2 ^ s.get (R.REAM_CFG.LOG2N m)))

/-- R185: the column of a centred index, if it is mapped. -/
def State.reamCol? (s : State) (m n c : Nat) : Option Nat :=
  let first := s.get (R.REAM_COLS.FIRST m)
  let nb := s.reamNb m n
  if first ≤ c ∧ c < first + nb then some ((c - first) * min 2048 nb / nb) else none

/-- R186: the row of a level before it is limited. -/
def State.reamRow (s : State) (m : Nat) (l : Int) : Int :=
  (l - sext 16 (s.get (R.REAM_ROWS.BOTTOM m))) / max 1 (s.get (R.REAM_ROWS.STEP m))

/-- A cell's index, and the tile (32 × 32) that holds it. -/
def cellOf (col row : Nat) : Nat := col * 1024 + row
def tileOf (cell : Nat) : Nat := cell / 1024 / 32 * 32 + cell % 1024 / 32

/-- A cell's count. -/
def cellCount (cells : SMap Nat) (cell : Nat) : Nat := (SMap.find? cells cell).getD 0

/-- The cells with one changed; a count of 0 is not listed. -/
def putCell (cells : SMap Nat) (cell n : Nat) : SMap Nat := if n = 0 then SMap.erase cells cell else SMap.put cells cell n

/-- R187: hits added to a cell, saturating. -/
def addHits (cells : SMap Nat) (h : Nat × Nat × Nat) : SMap Nat :=
  putCell cells h.2.1 (min 65535 (cellCount cells h.2.1 + h.2.2))

/-- R187: hits added to the home cells of a ream; the first cell to saturate sets SAT_SEEN and raises REAM_SATURATED. -/
def State.addHome (s : State) (m : Nat) (hits : List (Nat × Nat × Nat)) : State :=
  let r := s.ream m
  let cells := hits.foldl addHits r.cells
  let sat := hits.any (fun h => cellCount r.cells h.2.1 < 65535 && cellCount cells h.2.1 == 65535)
  let s := s.updReam m (fun r => { r with cells := cells })
  if sat then s.flagRaise (R.REAM_STATUS.SAT_SEEN m) 64 m else s

/-! ### Feeding plans -/

/-- The plans that are RUNNING, or ARMED or RUNNING, and feed ream `m`. -/
def State.feeders (s : State) (m : Nat) : List Nat :=
  (List.range 64).filter (fun p => s.planState p == 3 && bit ((s.plan p).u 32 1) m)
def State.reamInUse (s : State) (m : Nat) : Bool :=
  (List.range 64).any (fun p => 2 ≤ s.planState p && bit ((s.plan p).u 32 1) m)

/-- R194: whether a plan has taken or accounted for every sheet stamped before `c`. -/
def State.accounted (s : State) (p c : Nat) : Bool :=
  let pl := s.plan p
  c ≤ s.sampleStamp pl.sourceId (pl.frameSample pl.nextFrame)
    || (!(s.source pl.sourceId).active && pl.inflight.isEmpty)

/-- The same for every plan that feeds a ream. -/
def State.reamAccounted (s : State) (m c : Nat) : Bool := (s.feeders m).all (fun p => s.accounted p c)

/-! ### Decay and intervals (R189) -/

/-- R189: the instant after `last`, and the REAM_CFG under which it is applied: a setting (time of the write that ended it, REAM_CFG, DPERIOD)
holds for the instants up to that write, the oldest first; then the present one. -/
def decayRule (last : Nat) (now : Nat × Nat) : List (Nat × Nat × Nat) → Nat × Nat
  | [] => (last + nsUnits (1000 * max 1 now.2), now.1)
  | (t, cfg, per) :: l =>
    if last + nsUnits (1000 * max 1 per) ≤ t then (last + nsUnits (1000 * max 1 per), cfg) else decayRule last now l

/-- The next decay instant of a ream, and the REAM_CFG that it applies. -/
def State.decayNext (s : State) (m : Nat) : Nat × Nat :=
  decayRule (s.ream m).lastDecay ((s.word (R.REAM_CFG m)).toNat, s.get (R.REAM_DECAY.DPERIOD m)) (s.ream m).settings

/-- The next decay instant. -/
def State.nextDecay (s : State) (m : Nat) : Nat := (s.decayNext m).1

/-- R189: one count after a decay instant under a REAM_CFG. -/
def decayed (cfg c : Nat) : Nat :=
  match bits cfg 6 2 with
  | 1 => c - max 1 (c / 2 ^ max 1 (bits cfg 8 4))
  | 2 => c - min c (max 1 (bits cfg 16 8))
  | _ => c

/-- R189: the decay settings written: the instants that have passed keep the old ones. -/
def State.noteDecay (s : State) (m : Nat) (w : State) : State :=
  if (s.word (R.REAM_CFG m) = w.word (R.REAM_CFG m) ∧ s.word (R.REAM_DECAY m) = w.word (R.REAM_DECAY m)) ∨ !s.on (R.REAM_CFG.EN m) then w
  else
    let old := (s.time, (s.word (R.REAM_CFG m)).toNat, s.get (R.REAM_DECAY.DPERIOD m))
    w.updReam m (fun r => { r with settings := r.settings ++ [old] })

/-- The effect of a word written to REAM_DECAY(m). -/
def State.writeReamDecay (s : State) (m : Nat) (w : Word) : State := s.noteDecay m (s.plainWrite (R.REAM_DECAY m) w)

/-- Hits of one tile added to the copies of it that readers are waiting for. -/
def copyHits (tile lane : Nat) (hits : List (Nat × Nat × Nat)) (c : TileCopy) : TileCopy :=
  if c.tile = tile ∧ c.waitFor.contains lane ∧ !c.after.contains lane then
    { c with cells := (hits.filter (fun h => h.1 < c.cut)).foldl addHits c.cells }
  else c

/-- Every lane's hits stamped before `c` moved home, and into the copies that wait for them (R190, R191); a delta with nothing
left and no snoop out is NONE again. -/
def State.gatherHits (s : State) (m c : Nat) : State :=
  let r := s.ream m
  let out := r.deltas.map (fun e => (e.1, e.2.hits.filter (fun h => h.1 < c)))
  let ds := (r.deltas.map (fun e => (e.1, { e.2 with hits := e.2.hits.filter (fun h => c ≤ h.1) }))).filter
    (fun e => !e.2.hits.isEmpty || e.2.state ≠ 1)
  let cs := out.foldl (fun cs e => cs.map (copyHits (e.1 / 32) (e.1 % 32) e.2)) r.copies
  (s.updReam m (fun r => { r with deltas := ds, copies := cs })).addHome m (out.flatMap (fun e => e.2))

/-- One decay instant: the hits stamped before it are home, then every cell decays. -/
def State.decayOnce (s : State) (m : Nat) : State :=
  let t := s.decayNext m
  (s.gatherHits m t.1).updReam m (fun r => { r with
    cells := (r.cells.map (fun e => (e.1, decayed t.2 e.2))).filter (fun e => e.2 ≠ 0)
    lastDecay := t.1, settings := r.settings.filter (fun x => t.1 < x.1) })

/-- The decay instants up to and including `c`, at most `fuel` of them. -/
def State.decayTo (s : State) (m c : Nat) : Nat → State
  | 0 => s
  | fuel + 1 => if s.nextDecay m ≤ c then (s.decayOnce m).decayTo m c fuel else s

/-- The home store with every decay instant at or before an instant and every hit stamped before it. -/
def State.homeAt (s : State) (m c : Nat) : State :=
  let n := (c - (s.ream m).lastDecay) / nsUnits 1000 + 1
  (s.decayTo m c n).gatherHits m c

/-- R185, R638, R639: a head's copy of a ream as of its cut; the columns from W on read 0. -/
def State.headView (s : State) (m : Nat) (d : Nat × Nat) : State :=
  let s := s.homeAt m d.1
  let w := s.reamWidth m
  let cells := (s.ream m).cells.filter (fun e => e.1 / 1024 < w)
  let s := s.updReam m (fun r => { r with dcuts := r.dcuts.filter (fun x => x != d) })
  match (List.range 4).find? (fun p => s.headGet d.2 (R.PL_CFG.KIND d.2 p) == 1 && s.headGet d.2 (R.PL_CFG.SRC d.2 p) == m) with
  | some p => s.updHead d.2 (fun h => { h with view := some {
      cut := d.1
      region := (s.headGet d.2 (R.PL_SRCX.FIRST d.2 p), s.headGet d.2 (R.PL_SRCX.LAST d.2 p),
        s.headGet d.2 (R.PL_SRCY.ROW0_BOTTOM d.2 p), s.headGet d.2 (R.PL_SRCY.ROW1_SPAN d.2 p))
      logmap := s.headGet d.2 (R.PL_CFG.LOGMAP d.2 p) == 1
      shift := s.headGet d.2 (R.PL_CFG.SHIFT d.2 p)
      cells := cells } })
  | none => s

/-- R192: the home store as of a cut: every decay instant at or before it, and every hit stamped before it. Copies for the heads whose
cuts come no later are made on the way. -/
def State.settleTo (s : State) (m c : Nat) : State :=
  (((s.ream m).dcuts.filter (fun d => d.1 ≤ c)).foldl (fun s d => s.headView m d) s).homeAt m c

/-- R194, R638: the heads' copies that can be made by now: the cut has passed, every sheet before it is accounted for, no earlier cut of
an order is still to be taken. -/
def State.viewsDue (s : State) (m : Nat) : State :=
  (s.ream m).dcuts.foldl (fun s d =>
    let before := (s.ream m).cuts.any (fun c => match c.cut with
      | some x => decide (x < d.1)
      | none => false)
    if (s.ream m).dcuts.contains d && decide (d.1 ≤ s.time) && s.reamAccounted m d.1 && !before then s.settleTo m d.1 else s) s

/-- DECAY_INSTANT (R189): a decay instant that has passed, once every sheet stamped before it has been accounted for and no
earlier cut is still to be read, a head's included. -/
def execDecayInstant (m : Fin 8) (s : State) : Out :=
  let m := m.val
  let s := s.viewsDue m
  let t := s.nextDecay m
  let cutBefore := (s.ream m).dcuts.any (fun d => d.1 < t) || (s.ream m).cuts.any (fun c => match c.cut with
    | some x => x < t
    | none => false)
  if s.on (R.REAM_CFG.EN m) && t ≤ s.time && s.reamAccounted m t && !cutBefore then .next (s.decayOnce m) else .next s

/-! ### The directory (R190, R191) -/

/-- The instant up to which a flush may reach: the next decay instant or the next cut. -/
def State.boundary (s : State) (m : Nat) : Nat :=
  (s.ream m).cuts.foldl (fun b c => match c.cut with
    | some x => min b x
    | none => b) ((s.ream m).dcuts.foldl (fun b d => min b d.1) (s.nextDecay m))

/-- The snoop of a lane answered: its readers wait for it no longer; those whose own snoop had to wait are snooped now. -/
def copyAnswered (tile lane : Nat) (c : TileCopy) : TileCopy :=
  if c.tile ≠ tile then c
  else if c.after.contains lane then { c with after := c.after.filter (fun l => l != lane) }
  else { c with waitFor := c.waitFor.filter (fun l => l != lane) }

/-- A delta's flush (Table 06-4): the hits of its first interval are added to home, and to the reader's copy where it crosses a
snoop; FLUSH_ACK goes back. -/
def State.flushTile (s : State) (m tile lane : Nat) : State :=
  let k := tile * 32 + lane
  match SMap.find? (s.ream m).deltas k with
  | none => s
  | some d =>
    let b := s.boundary m
    let out := d.hits.filter (fun h => h.1 < b)
    let rest := d.hits.filter (fun h => b ≤ h.1)
    let snooped := d.state = 2
    let s := s.updReam m (fun r => { r with
      deltas := if snooped then SMap.put r.deltas k { state := 3, hits := rest }
        else if rest.isEmpty && d.state = 1 then SMap.erase r.deltas k
        else SMap.put r.deltas k { d with hits := rest }
      copies := if snooped then r.copies.map (copyHits tile lane out) else r.copies })
    s.addHome m out

/-- R196: an uncorrectable error found in a home tile: it is set to zero, UE_SEEN is set and REAM_UE raised with the ream and the tile; a
snapshot barge that covers the tile will say so. -/
def State.reamUe (s : State) (m tile : Nat) : State :=
  let s := (s.updReam m (fun r => { r with
    cells := r.cells.filter (fun e => tileOf e.1 != tile)
    badTiles := if r.badTiles.contains tile then r.badTiles else r.badTiles ++ [tile] })).put (R.REAM_STATUS.UE_SEEN m) 1
  s.raiseWith 65 m [m, tile]

/-- TILE_FLUSH (R190, R196): lane `l`'s delta of a tile reaches the directory; `ue` says that the home tile had an
uncorrectable error. -/
def execTileFlush (m : Fin 8) (tile : Fin 2048) (l : Fin 18) (ue : Bool) (s : State) : Out :=
  let held := (SMap.find? (s.ream m.val).deltas (tile.val * 32 + l.val)).isSome
  if !held then .next s
  else
    let s := if ue then s.reamUe m.val tile.val else s
    .next (s.flushTile m.val tile.val l.val)

/-- The directory's states of some lanes changed for a tile. -/
def setHolders (tile st : Nat) (ls : List Nat) (ds : SMap Delta) : SMap Delta :=
  ls.foldl (fun ds l => match SMap.find? ds (tile * 32 + l) with
    | some d => SMap.put ds (tile * 32 + l) { d with state := st }
    | none => ds) ds

/-- TILE_READ_REQUEST (R190): a reader asks for a tile as of a cut: its copy starts from the home tile, and each lane that holds
a delta is snooped. DEDUCED (log 128): a second reader is served with its own cut: a lane that is SNOOPED already answers both, and one whose
snoop a flush has crossed is snooped again when that snoop is complete. -/
def execTileReadRequest (m : Fin 8) (tile : Fin 2048) (cut : Nat) (s : State) : Out :=
  let m := m.val
  let t := tile.val
  let r := s.ream m
  let inState := fun (st : Nat) => (List.range 18).filter (fun l => match SMap.find? r.deltas (t * 32 + l) with
    | some d => d.state == st
    | none => false)
  let held := inState 1
  let crossed := inState 3
  let c : TileCopy := ⟨t, cut, r.cells.filter (fun e => tileOf e.1 == t), held ++ inState 2 ++ crossed, crossed⟩
  .next (s.updReam m (fun r => { r with deltas := setHolders t 2 held r.deltas, copies := r.copies ++ [c] }))

/-- SNOOP_REPLY (R190): lane `l`'s reply about a tile: its delta up to the cut goes to the reader's copy, and home with it; a
reply NONE after a crossing completes the snoop: the lane, which freed its flush buffer on the snoop, drops the FLUSH_ACK of that flush
(CROSSED is the state in which that FLUSH_ACK is out). -/
def execSnoopReply (m : Fin 8) (tile : Fin 2048) (l : Fin 18) (s : State) : Out :=
  let m := m.val
  let k := tile.val * 32 + l.val
  match SMap.find? (s.ream m).deltas k with
  | none => .next s
  | some d =>
    match d.state with
    | 2 =>
      let cut := (((s.ream m).copies.filter (fun c => c.tile == tile.val && c.waitFor.contains l.val)).map (fun c => c.cut)).foldl max 0
      let b := min cut (s.boundary m)
      let out := d.hits.filter (fun h => h.1 < b)
      let rest := d.hits.filter (fun h => b ≤ h.1)
      let s := s.updReam m (fun r => { r with
        deltas := SMap.put r.deltas k { state := 1, hits := rest }
        copies := r.copies.map (fun c => copyAnswered tile.val l.val (copyHits tile.val l.val d.hits c)) })
      .next (s.addHome m out)
    | 3 =>
      let again := (s.ream m).copies.any (fun c => c.tile == tile.val && c.after.contains l.val)
      .next (s.updReam m (fun r => { r with
        deltas := if again then SMap.put r.deltas k { d with state := 2 }
          else if d.hits.isEmpty then SMap.erase r.deltas k else SMap.put r.deltas k { d with state := 1 }
        copies := r.copies.map (copyAnswered tile.val l.val) }))
    | _ => .next s

/-! ### Sheets -/

/-- A lane's hits of one tile added to its delta; a lane that holds 32 deltas flushes the least recently struck first. -/
def State.strike (s : State) (m lane : Nat) (h : Nat × Nat × Nat) : State :=
  let tile := tileOf h.2.1
  let k := tile * 32 + lane
  match SMap.find? (s.ream m).deltas k with
  | some d => s.updReam m (fun r => { r with deltas := SMap.put r.deltas k { d with hits := d.hits ++ [h] } })
  | none =>
    let mine := (s.ream m).deltas.filter (fun e => e.1 % 32 == lane && e.2.state == 1)
    let last := fun (e : Nat × Delta) => (e.2.hits.map (fun h => h.1)).foldl max 0
    let s := if mine.length < 32 then s
      else match mine with
        | [] => s
        | e :: t => s.flushTile m ((t.foldl (fun b x => if last x < last b then x else b) e).1 / 32) lane
    s.updReam m (fun r => { r with deltas := SMap.put r.deltas k { hits := [h] } })

/-- R185–R188: a sheet taken by a ream: (the state, the cells struck). -/
def State.reamSheet (s : State) (sh : Sheet) (m : Nat) : State × List Nat :=
  if !s.on (R.REAM_CFG.EN m) then (s, [])
  else sh.bins.foldl (fun (r : State × List Nat) b =>
    match r.1.reamCol? m sh.n b.c with
    | none => r
    | some col =>
      let row := r.1.reamRow m b.level
      if row < 0 then (r.1.satInc (R.REAM_RANGECNT.UNDER m), r.2)
      else
        let s := if 1023 < row then r.1.satInc (R.REAM_RANGECNT.OVER m) else r.1
        let cell := cellOf col (min 1023 row.toNat)
        (s.strike m sh.lane (sh.stamp, cell, 1), r.2 ++ [cell])) (s, [])

/-! ### Density zones (R198–R201) -/

/-- A zone's condition set, its rising edges counted, and the evaluation sent to the flights (R206). -/
def State.setZone (s : State) (z : Nat) (now : Bool) (stamp qual : Nat) : State :=
  let was := s.on (R.DZ_STATUS.COND z)
  let s := s.put (R.DZ_STATUS.COND z) (b2n now)
  let s := if now && !was then s.inc (R.DZ_STATUS.EDGES z) else s
  s.evaluated (0x40 + z) was now stamp qual

/-- A zone's settings as latched (Table 06-8). -/
def Zone.on (x : Zone) : Bool := bit x.cfg 0
def Zone.ream (x : Zone) : Nat := bits x.cfg 1 3
def Zone.plan (x : Zone) : Nat := bits x.cfg 4 6

/-- R201: DZ_CFG, DZ_COLS and DZ_ROWS written take hold at the next sheet of the plan, that of the old settings or of the new, and restart the
window. -/
def State.zoneLatch (s : State) (p z : Nat) : State :=
  let x := s.zone z
  if x.changed && (x.plan == p || s.get (R.DZ_CFG.PLAN z) == p) then
    (s.updZone z (fun _ => { cfg := (s.word (R.DZ_CFG z)).toNat, cols := (s.word (R.DZ_COLS z)).toNat, rows := (s.word (R.DZ_ROWS z)).toNat })).put
      (R.DZ_STATUS.HOLD z) 0
  else s

/-- R198: a sheet counted by a zone, given the cells it struck in the zone's ream. -/
def State.zoneSheet (s : State) (sh : Sheet) (cells : List Nat) (z : Nat) : State :=
  let x := s.zone z
  let c0 := bits x.cols 0 11
  let c1 := bits x.cols 16 11
  let r0 := bits x.rows 0 10
  let r1 := bits x.rows 16 10
  let n := (cells.filter (fun c => c0 ≤ c / 1024 && c / 1024 ≤ c1 && r0 ≤ c % 1024 && c % 1024 ≤ r1)).length
  let len := bits x.cfg 12 8 + 1
  let win := (n :: x.window).take len
  let sum := win.sum
  let full := win.length = len
  let th := s.get (R.DZ_THRESH.THRESH z)
  let now := if full then (if bit x.cfg 10 then decide (sum < th) else decide (th ≤ sum))
    else x.hold && s.on (R.DZ_STATUS.COND z)
  let s := s.updZone z (fun x => { x with window := win, hold := if full then false else x.hold })
  let s := (s.put (R.DZ_COUNT.SUM z) (min sum (2 ^ 24 - 1))).put (R.DZ_STATUS.HOLD z) (b2n (s.zone z).hold)
  s.setZone z now sh.stamp (s.qual (sh.qual % 16))

/-- The zones that count plan `p` in ream `m`. -/
def State.zonesOf (s : State) (p m : Nat) : List Nat :=
  (List.range 16).filter (fun z => (s.zone z).on && (s.zone z).plan == p && (s.zone z).ream == m)

/-- R199: a frame of a plan not taken restarts the window of its zones; the condition is held. -/
def State.zonesMiss (s : State) (p : Nat) : State :=
  ((List.range 16).filter (fun z => (s.zone z).on && (s.zone z).plan == p)).foldl (fun s z =>
    (s.updZone z (fun x => { x with window := [], hold := true })).put (R.DZ_STATUS.HOLD z) 1) s

/-- R199: the condition of a zone is 0 without an evaluation. The change from 1 is a FALL (R206), whose stamp no rule gives. -/
def State.zoneFalls (s : State) (z : Nat) : State :=
  if s.on (R.DZ_STATUS.COND z) then s.fresh.2.setZone z false s.fresh.1 (s.qual 0) else s

/-- R199: zones whose ream is disabled, or whose plan does not run and feed it, or that are disabled hold their condition at 0. -/
def State.settleZones (s : State) : State :=
  (List.range 16).foldl (fun s z =>
    let x := s.zone z
    let live := x.on && s.on (R.REAM_CFG.EN x.ream) && (s.feeders x.ream).contains x.plan
    if live then s
    else ((s.zoneFalls z).put (R.DZ_STATUS.HOLD z) 0).updZone z (fun x => { x with window := [], hold := false })) s

/-- R201: a change to DZ_CFG, DZ_COLS or DZ_ROWS, which the next sheet takes. -/
def State.writeZone (s : State) (z key : Nat) (w : Word) : State :=
  let t := s.plainWrite key w
  if t.word key = s.word key then t else t.updZone z (fun x => { x with changed := true })

/-- Every ream and zone that plan of a sheet feeds takes it. -/
def State.reamsSheet (s : State) (sh : Sheet) (mask : Nat) : State :=
  let s := ((List.range 16).foldl (fun (s : State) z => s.zoneLatch sh.plan z) s).settleZones
  (List.range 8).foldl (fun s m =>
    if bit mask m then
      let r := s.reamSheet sh m
      if s.on (R.REAM_CFG.EN m) then (s.zonesOf sh.plan m).foldl (fun s z => s.zoneSheet sh r.2 z) r.1 else r.1
    else s) s

/-! ### Cuts, snapshots, clears (R192–R197, R203, R204) -/

/-- R197: the place of a cut among those ahead: by time, a snapshot before a clear of the same time, an unknown time last. -/
def insertCut (c : ReamCut) : List ReamCut → List ReamCut
  | [] => [c]
  | x :: t =>
    let before := match c.cut, x.cut with
      | some a, some b => decide (a < b) || (a == b && c.snap && !x.snap)
      | some _, none => true
      | none, _ => false
    if before then c :: x :: t else x :: insertCut c t

/-- A cut put ahead of a ream. -/
def State.addCut (s : State) (m : Nat) (c : ReamCut) : State := s.updReam m (fun r => { r with cuts := insertCut c r.cuts })

/-- A cut accepted: it gets its place in the acceptance order (R194). -/
def State.newCut (s : State) (m : Nat) (c : ReamCut) : State :=
  (s.addCut m { c with nth := (s.ream m).accepts }).updReam m (fun r => { r with accepts := r.accepts + 1 })

/-- R193: the earliest cut of a request made now. -/
def State.cutNow (s : State) : Nat := s.time + nsUnits 1000

/-- Table 06-9: the checks that REAM_SNAPSHOT and REAM_CLEAR share. -/
def reamChecks (o : Order) : List (Nat × Bool) :=
  [chk 16 (8 ≤ o.u 16 1), chk 17 (3 ≤ o.u 17 1), chk 18 (o.u 17 1 = 2 ∧ 32 ≤ o.u 18 1)]

/-- R193, R204: an accepted ream order makes its cut ahead. -/
def State.reamOrder (s : State) (o : Order) (c : ReamCut) : State :=
  let m := o.u 16 1
  if !s.on (R.REAM_CFG.EN m) then s.retire o stState
  else
    let now := s.cutNow
    let c := { c with order := some o.ref, accepted := s.time }
    match o.u 17 1 with
    | 0 => s.newCut m { c with cut := some now }
    | 1 =>
      let t := ofTime96 (o.u 20 12)
      (s.updOrder o.ref (fun o => { o with late := t < now })).newCut m { c with cut := some (max t now) }
    | _ => s.newCut m { c with gate := some (o.u 18 1) }

/-- The parameter checks of REAM_SNAPSHOT (R387): each field's byte offset, and whether the field is invalid. -/
def reamSnapshotChecks (o : Order) : List (Nat × Bool) :=
  reamChecks o ++ [chk 19 (2 ≤ o.u 19 1), chk 20 (o.u 17 1 = 1 ∧ badTime o 20), chk 32 (4096 ≤ o.u 32 2),
    chk 34 (2048 ≤ o.u 34 2), chk 36 (2048 ≤ o.u 36 2 ∨ o.u 36 2 < o.u 34 2), chk 38 (1024 ≤ o.u 38 2),
    chk 40 (1024 ≤ o.u 40 2 ∨ o.u 40 2 < o.u 38 2)] ++ reserved o 42 6 ++ reserved o 56 8

/-- REAM_SNAPSHOT (R192, R193, R203, R204). -/
def State.reamSnapshotAccept (o : Order) (s : State) : State :=
  s.validate o (reamSnapshotChecks o) (fun s =>
      s.reamOrder o { snap := true, clear := bit (o.u 19 1) 0, queue := o.u 32 2,
                      region := (o.u 34 2, o.u 36 2, o.u 38 2, o.u 40 2) })

/-- The arm of that order. -/
def execReamSnapshot (s : State) : Out := .next (s.accept 0x0401 State.reamSnapshotAccept)

/-- The parameter checks of REAM_CLEAR (R387): each field's byte offset, and whether the field is invalid. -/
def reamClearChecks (o : Order) : List (Nat × Bool) :=
  reamChecks o ++ [chk 19 (o.u 19 1 ≠ 0), chk 20 (o.u 17 1 = 1 ∧ badTime o 20)] ++ reserved o 32 32

/-- REAM_CLEAR (R193, R203, R204). -/
def State.reamClearAccept (o : Order) (s : State) : State :=
  s.validate o (reamClearChecks o) (fun s =>
      s.reamOrder o { clear := true })

/-- The arm of that order. -/
def execReamClear (s : State) : Out := .next (s.accept 0x0402 State.reamClearAccept)

/-- R193: CLEAR written to REAM_CTL(m). -/
def State.reamCtlClear (s : State) (m : Nat) : State :=
  s.newCut m { cut := some s.cutNow, accepted := s.time, clear := true }

/-- REAM_CTL_CLEAR (R193): a write of REAM_CTL(m).CLEAR = 1. -/
def execReamCtlClear (p : Path) (m : Fin 8) (s : State) : Out :=
  .next (s.gateAction p (R.REAM_CTL m.val) (fun s => s.reamCtlClear m.val))

/-- R204: a gate of MODE 2 fires: the cut is its firing, or acceptance plus 1 µs if that is later. -/
def State.reamGate (s : State) (m gate fired : Nat) : State :=
  let hit := fun (c : ReamCut) => c.gate == some gate && c.cut.isNone
  let r := s.ream m
  let due := r.cuts.filter hit
  let s := s.updReam m (fun r => { r with cuts := r.cuts.filter (fun c => !hit c) })
  due.foldl (fun s c =>
    let low := c.accepted + nsUnits 1000
    let s := match c.order with
      | some o => s.updOrder o (fun o => { o with late := fired < low })
      | none => s
    s.addCut m { c with cut := some (max fired low) }) s

/-- R192: reached cuts that only clear take effect, in order, once every sheet stamped before them is accounted for. -/
def State.applyClears (s : State) (m : Nat) : Nat → State
  | 0 => s
  | fuel + 1 =>
    match (s.ream m).cuts with
    | c :: t =>
      match c.cut with
      | some x =>
        if c.reached && c.clear && !c.snap && s.reamAccounted m x then
          let s := s.settleTo m x
          (s.updReam m (fun r => { r with cells := [], cuts := t, lastDecay := x })).applyClears m fuel
        else s
      | none => s
    | [] => s

/-- The clears that are due on every ream. -/
def State.settleReams (s : State) : State := (List.range 8).foldl (fun s m => s.applyClears m (s.ream m).cuts.length) s

/-- R202: SNAP_BUSY tells whether a snapshot is in progress. -/
def State.settleSnapBusy (s : State) (m : Nat) : State :=
  s.put (R.REAM_STATUS.SNAP_BUSY m) (b2n (!(s.ream m).snaps.isEmpty || (s.ream m).cuts.any (fun c => c.snap && c.reached)))

/-- REAM_CUT (R193, R204): the next cut of a ream is reached: a REAM_CLEAR completes; a snapshot is then to be read. -/
def execReamCut (m : Fin 8) (s : State) : Out :=
  let m := m.val
  let due := fun (c : ReamCut) => !c.reached && (match c.cut with
    | some x => decide (x ≤ s.time)
    | none => false)
  match (s.ream m).cuts.find? due with
  | none => .next s
  | some c =>
    let s := s.updReam m (fun r => { r with cuts := updFirst due (fun c => { c with reached := true, base := s.tk.stepCount }) r.cuts })
    let s := s.settleSnapBusy m
    let s := match c.order, c.snap with
      | some o, false => match s.order? o with
        | some ord => s.retireWith ord (if ord.late then stLate else stOk) 0 [(20, time96Bytes (c.cut.getD 0))]
        | none => s
      | some o, true => s.updOrder o (fun o => { o with phase := .running })
      | none, _ => s
    .next (s.applyClears m (s.ream m).cuts.length)

/-- R195: the barges of a snapshot's region: per stripe, the first column and the last. -/
def stripesOf (region : Nat × Nat × Nat × Nat) : List (Nat × Nat) :=
  let c0 := region.1
  let c1 := region.2.1
  (List.range' (c0 / 32) (c1 / 32 + 1 - c0 / 32)).map (fun st => (max c0 (32 * st), min c1 (32 * st + 31)))

/-- Whether a tile meets the columns and rows of a barge. -/
def tileIn (cols : Nat × Nat) (r0 r1 t : Nat) : Bool :=
  cols.1 ≤ t / 32 * 32 + 31 && t / 32 * 32 ≤ cols.2 && r0 ≤ t % 32 * 32 + 31 && t % 32 * 32 ≤ r1

/-- R185, R195, R196, R316: barge `i` of a snapshot; the columns from W on read 0. -/
def State.snapBarge (s : State) (m : Nat) (c : ReamCut) (i : Nat) : Barge :=
  let bs := stripesOf c.region
  let cols := bs.getD i (0, 0)
  let r0 := c.region.2.2.1
  let r1 := c.region.2.2.2
  let w := s.reamWidth m
  let vals := (List.range' cols.1 (cols.2 + 1 - cols.1)).flatMap (fun col =>
    (List.range' r0 (r1 + 1 - r0)).map (fun row => if col < w then cellCount c.image (cellOf col row) else 0))
  let sat := (vals.filter (fun v => v == 65535)).length
  let bad := (s.ream m).badTiles.any (tileIn cols r0 r1)
  let cut := (cols.1 % 32 ≠ 0 || cols.2 % 32 ≠ 31) && (i == 0 || i + 1 == bs.length)
  { type := 4, flags := (if bad then flPoisoned else 0) + (if cut then flTrimmed else 0), stream := 0x8400 + m, source := 0x5000 + m, stamp := c.cut.getD 0
    qual := s.qual 2, format := formatWord 0x20 15 false 0 0
    word40 := m + cols.1 / 32 * 2 ^ 8 + i * 2 ^ 16 + (bs.length - 1) * 2 ^ 24 + b2n (i + 1 == bs.length) * 2 ^ 30
      + b2n c.clear * 2 ^ 31 + min sat 65535 * 2 ^ 32 + w * 2 ^ 48
    word48 := cols.1 + (cols.2 - cols.1) * 2 ^ 16 + r0 * 2 ^ 32 + r1 * 2 ^ 48
    payload := vals.flatMap (fun v => leBytes 2 v) }

/-- A snapshot put among those of its ream, in acceptance order. -/
def insertSnap (c : ReamCut) : List ReamCut → List ReamCut
  | [] => [c]
  | x :: t => if c.nth < x.nth then c :: x :: t else x :: insertSnap c t

/-- R194: the snapshot engine takes the ream's image as of the cut, and clears it there when ordered; tiles with an
uncorrectable error are zeroed as they are read. -/
def State.takeImage (s : State) (m : Nat) (c : ReamCut) (bad : List (Fin 2048)) : State :=
  let x := c.cut.getD 0
  let s := s.settleTo m x
  let s := bad.foldl (fun s t => s.reamUe m t.val) s
  let img := (s.ream m).cells
  s.updReam m (fun r => { r with
    cells := if c.clear then [] else r.cells
    lastDecay := if c.clear then x else r.lastDecay
    cuts := r.cuts.drop 1
    snaps := insertSnap { c with image := img } r.snaps })

/-- R333: the time steps made before a snapshot's cut are marked in its stream, before its first barge. -/
def State.snapSteps (s : State) (m : Nat) (c : ReamCut) : State :=
  let ms := (s.ream m).steps.partition (fun x => decide (x.2 ≤ c.base))
  ms.1.foldl (fun (s : State) x =>
    let b := { mkMark (0x8400 + m) (0x5000 + m) mkTimeStep (c.cut.getD 0) (s.qual 2) (wrap 64 x.1) (x.2 % 65536) with seq := (s.ream m).seq }
    (s.push c.queue b).updReam m (fun r => { r with seq := (r.seq + 1) % 2 ^ 32 })) (s.updReam m (fun r => { r with steps := ms.2 }))

/-- R204: a snapshot that has written its last barge completes. -/
def State.snapDone (s : State) (m : Nat) (c : ReamCut) : State :=
  let s := (s.updReam m (fun r => { r with snaps := r.snaps.drop 1 })).settleSnapBusy m
  match c.order.bind (fun o => s.order? o) with
  | some ord => s.retireWith ord (if ord.late then stLate else stOk) 0
      [(20, time96Bytes (c.cut.getD 0)), (48, leBytes 4 c.next), (52, leBytes 4 c.sat)]
  | none => s

/-- R195, R196, R422: barges of the snapshot that is written now, the first in acceptance order of those outstanding (R194), while the queue
admits them. -/
def State.writeSnap (s : State) (m : Nat) : Nat → State
  | 0 => s
  | fuel + 1 =>
    match (s.ream m).snaps with
    | c :: t =>
      if (s.ream m).cuts.any (fun x => x.snap && x.nth < c.nth) then s
      else if c.next < (stripesOf c.region).length then
        let s := if c.next = 0 then s.snapSteps m c else s
        let b := { s.snapBarge m c c.next with seq := (s.ream m).seq }
        let r := s.admitBarge c.queue b
        if !r.1.taken then r.2
        else
          let covered := tileIn ((stripesOf c.region).getD c.next (0, 0)) c.region.2.2.1 c.region.2.2.2
          let s := r.2.updReam m (fun r => { r with
            seq := (r.seq + 1) % 2 ^ 32
            badTiles := if bit b.flags 0 then r.badTiles.filter (fun t => !covered t) else r.badTiles
            snaps := { c with next := c.next + 1, sat := c.sat + bits b.word40 32 16 } :: t })
          s.writeSnap m fuel
      else (s.snapDone m c).writeSnap m fuel
    | [] => s

/-- R194: the images that can be taken: of the first cut ahead, a snapshot, once it has been reached and every feeding plan has accounted for
the sheets stamped before it. -/
def State.imagesDue (s : State) (m : Nat) (bad : List (Fin 2048)) : State :=
  match (s.ream m).cuts with
  | c :: _ => if c.snap && c.reached && s.reamAccounted m (c.cut.getD 0) then s.takeImage m c bad else s
  | [] => s

/-- SNAPSHOT_READ_BEGIN (R194–R196): once every feeding plan has accounted for the sheets stamped before the cut, the snapshot engine has
its image; the barges of the snapshot first in acceptance order are written while its queue admits them; `bad` names tiles read with an
uncorrectable error. -/
def execSnapshotReadBegin (m : Fin 8) (bad : List (Fin 2048)) (s : State) : Out :=
  let m := m.val
  let s := s.imagesDue m bad
  let s := s.writeSnap m (((s.ream m).snaps.map (fun c => (stripesOf c.region).length + 1)).sum + 1)
  .next (s.applyClears m (s.ream m).cuts.length)

/-- Whether the cut of a ream order has been reached. -/
def State.reamCutPassed (s : State) (o : Order) : Bool :=
  let r := s.ream (o.u 16 1)
  r.snaps.any (fun c => c.order == some o.ref) || r.cuts.any (fun c => c.order == some o.ref && c.reached)

/-- R204: a cancel of a ream order: before its cut CANCELLED with nothing done; a snapshot after its cut stops at this barge
boundary with CANCELLED_PARTIAL, and a clear at its cut stands. -/
def State.reamCancel (s : State) (o : Order) : State :=
  let m := o.u 16 1
  let mine := fun (c : ReamCut) => c.order == some o.ref
  match ((s.ream m).cuts ++ (s.ream m).snaps).find? mine with
  | none => s
  | some c =>
    if !c.reached then (s.updReam m (fun r => { r with cuts := r.cuts.filter (fun c => !mine c) })).retire o stCancelled
    else
      let s := s.updReam m (fun r => { r with
        snaps := r.snaps.filter (fun c => !mine c)
        cuts := if c.clear then updFirst mine (fun c => { c with snap := false, order := none }) r.cuts
          else r.cuts.filter (fun c => !mine c) })
      let s := s.settleSnapBusy m
      (s.retireWith o stPartial 0 [(20, time96Bytes (c.cut.getD 0)), (48, leBytes 4 c.next), (52, leBytes 4 c.sat)]).applyClears m
        (s.ream m).cuts.length

/-! ### Ream registers (R197) -/

/-- WIDTH follows LOG2N and REAM_COLS (R185). -/
def State.settleWidth (s : State) (m : Nat) : State := s.put (R.REAM_STATUS.WIDTH m) (s.reamWidth m)

/-- R197, R189, R337: EN set from 0 to 1 clears the ream, its OVER and UNDER counts and the SEQ of its snapshots. -/
def State.enableReam (s : State) (m : Nat) : State :=
  let s := s.setWord (R.REAM_RANGECNT m) 0#32
  s.updReam m (fun r => { r with cells := [], deltas := [], copies := [], badTiles := [], lastDecay := s.time, seq := 0, settings := [], steps := [] })

/-- R197: the effect of a word written to REAM_CFG(m): while a feeding plan is ARMED or RUNNING, a new LOG2N and EN = 0 are
refused with CFG_ERR; the other fields take effect. -/
def State.writeReamCfg (s : State) (m : Nat) (w : Word) : State :=
  let old := s.word (R.REAM_CFG m)
  let was := s.on (R.REAM_CFG.EN m)
  let t := s.plainWrite (R.REAM_CFG m) w
  let refused := s.reamInUse m && (t.get (R.REAM_CFG.LOG2N m) ≠ bits old.toNat 1 5 || (was && !t.on (R.REAM_CFG.EN m)))
  let t := if refused then
      ((t.put (R.REAM_CFG.LOG2N m) (bits old.toNat 1 5)).put (R.REAM_CFG.EN m) (bits old.toNat 0 1)).put (R.REAM_STATUS.CFG_ERR m) 1
    else t
  let t := s.noteDecay m t
  let t := if !was && t.on (R.REAM_CFG.EN m) then t.enableReam m else t
  (t.settleWidth m).settleZones

/-- R197: a write to REAM_COLS(m) or REAM_ROWS(m). -/
def State.writeReamMap (s : State) (m key : Nat) (w : Word) : State :=
  if s.reamInUse m then s.put (R.REAM_STATUS.CFG_ERR m) 1 else (s.plainWrite key w).settleWidth m

/-- The effect of a word written to REAM_CTL(m). -/
def State.writeReamCtl (s : State) (m : Nat) (w : Word) : State := if bit w.toNat 0 then s.reamCtlClear m else s

/-- REAM_ENABLE (R197): a write of REAM_CFG(m) with EN = 1. -/
def execReamEnable (p : Path) (m : Fin 8) (w : Word) (s : State) : Out :=
  .next (s.gate p (R.REAM_CFG m.val) (fun s => s.retainWrite (R.REAM_CFG m.val) (w ||| 1#32))
    (fun s => s.writeReamCfg m.val (w ||| 1#32)))

end Machine
end Sys2Proof
end

