-- ==== Sys2Proof/Machine/Weirs.lean ====
section
/-!
DEFINITION. Weirs (chapter 7): limit lines, the criterion, loading a line.

Marked choices (log entries): DEDUCED 26, 28; DESIGN CHOICE 27. Each entry of notes/assumptions says safe or unsafe.
-/

namespace Sys2Proof
namespace Machine

/-! ### Limit lines (R208, R209) -/

/-- R208: a line's level at a centred index; none where the index is not tested. -/
def lineAt (c : Nat) : List (Nat × Int) → Option Int
  | [] => none
  | [(a, l)] => if c = a then some l else none
  | (a, l) :: (b, k) :: t =>
    if a ≤ c ∧ c ≤ b then some (l + (k - l) * ((c - a : Nat) : Int) / ((b - a : Nat) : Int)) else lineAt c ((b, k) :: t)

/-- The bank in use of a line: the upper, or the lower. -/
def State.upperLine (s : State) (w : Nat) : List (Nat × Int) :=
  if s.on (R.WEIR_STATUS.BANK_U w) then (s.weir w).upper1 else (s.weir w).upper0
def State.lowerLine (s : State) (w : Nat) : List (Nat × Int) :=
  if s.on (R.WEIR_STATUS.BANK_L w) then (s.weir w).lower1 else (s.weir w).lower0

/-- R209: whether a bin violates. -/
def State.violates (s : State) (w : Nat) (up lo : List (Nat × Int)) (b : Bin) : Bool :=
  (s.on (R.WEIR_CFG.UPPER w) && (match lineAt b.c up with
    | some l => decide (l < b.level)
    | none => false))
  || (s.on (R.WEIR_CFG.LOWER w) && (match lineAt b.c lo with
    | some l => decide (b.level < l)
    | none => false))

/-! ### Loading a line (R213, R238, R239) -/

/-- The WEIR_LOAD orders outstanding for a line. -/
def weirLoads (s : State) (w line : Nat) : List Order :=
  s.orders.filter (fun o => o.opcode == 0x0501 && o.u 16 1 == w && o.u 17 1 == line)

/-- LOAD_BUSY: a WEIR_LOAD is filling a bank. -/
def State.settleLoadBusy (s : State) (w : Nat) : State :=
  s.put (R.WEIR_STATUS.LOAD_BUSY w) (b2n (s.orders.any (fun o => o.opcode == 0x0501 && o.u 16 1 == w && o.phase == .running)))

/-- The first waiting WEIR_LOAD of a line begins to read its table. -/
def State.startWeirLoad (s : State) (w line : Nat) : State :=
  match weirLoads s w line with
  | o :: _ =>
    if o.phase = .pending then
      ((s.updOrder o.ref (fun o => { o with phase := .running })).startRead o (o.u 24 8) (4 * o.u 20 2)).settleLoadBusy w
    else s
  | [] => s

/-- Table 07-10. -/
def weirChecks (o : Order) : List (Nat × Bool) :=
  [chk 16 (64 ≤ o.u 16 1), chk 17 (2 ≤ o.u 17 1), chk 18 (o.u 18 1 ≠ 0), chk 19 (o.u 19 1 ≠ 0),
    chk 20 (o.u 20 2 = 0 ∨ 1024 < o.u 20 2), chk 22 (o.u 22 1 ≠ 0), chk 23 (o.u 23 1 ≠ 0), chk 24 (o.u 24 8 % 64 ≠ 0)]
    ++ reserved o 44 20

/-- WEIR_LOAD (R238, R239): the order reads its table into the inactive bank; a second one for the same line waits. -/
def State.weirLoadAccept (o : Order) (s : State) : State :=
  s.validate o (weirChecks o) (fun s => s.startWeirLoad (o.u 16 1) (o.u 17 1))

/-- The arm of that order. -/
def execWeirLoad (s : State) : Out := .next (s.accept 0x0501 State.weirLoadAccept)

/-- A WEIR_LOAD over: the next one for its line begins. -/
def State.endWeirLoad (s : State) (o : Order) (status : Nat) (detail : Nat) (outs : List (Nat × List Byte)) : State :=
  let s := s.retireWith o status detail outs
  (s.startWeirLoad (o.u 16 1) (o.u 17 1)).settleLoadBusy (o.u 16 1)

/-- The swap of a line's banks; the order completes with the stamp of the first sheet tested against the new line, 0 if no plan
was running. -/
def State.swapLine (s : State) (w line stamp : Nat) : State :=
  let x := s.weir w
  let bank := if line = 0 then R.WEIR_STATUS.BANK_U w else R.WEIR_STATUS.BANK_L w
  let r := if line = 0 then x.swapUpper else x.swapLower
  match r with
  | none => s
  | some r =>
    let s := s.put bank (1 - s.get bank)
    let s := s.updWeir w (fun x => if line = 0 then { x with swapUpper := none } else { x with swapLower := none })
    match s.order? r with
    | some o => s.endWeirLoad o stOk 0 [(32, time96Bytes stamp)]
    | none => s

/-- Whether a weir takes sheets now. -/
def State.weirLive (s : State) (w : Nat) : Bool :=
  let p := s.get (R.WEIR_CFG.PLAN w)
  s.on (R.WEIR_CFG.EN w) && s.planState p == 3 && bit ((s.plan p).u 24 8) w

/-- R239: the table of a WEIR_LOAD has been read. Which DETAIL an unsorted table gives is not stated: an open value. -/
def State.weirTable (s : State) (o : Order) (table : List Byte) : State :=
  let w := o.u 16 1
  let line := o.u 17 1
  let bps := (List.range (o.u 20 2)).map (fun i => (field table (4 * i) 2, sext 16 (field table (4 * i + 2) 2)))
  if !SMap.sorted bps then
    let r := s.fresh
    r.2.endWeirLoad o stBadParam (r.1 % 65536) []
  else
    let s := s.updWeir w (fun x =>
      if line = 0 then
        if s.on (R.WEIR_STATUS.BANK_U w) then { x with upper0 := bps, swapUpper := some o.ref } else { x with upper1 := bps, swapUpper := some o.ref }
      else if s.on (R.WEIR_STATUS.BANK_L w) then { x with lower0 := bps, swapLower := some o.ref }
      else { x with lower1 := bps, swapLower := some o.ref })
    if s.weirLive w then s else s.swapLine w line 0

/-- R239: a cancel of a WEIR_LOAD before its swap. -/
def State.weirCancel (s : State) (o : Order) : State :=
  let w := o.u 16 1
  let s := s.updWeir w (fun x => { x with
    swapUpper := if x.swapUpper = some o.ref then none else x.swapUpper
    swapLower := if x.swapLower = some o.ref then none else x.swapLower })
  s.endWeirLoad o stCancelled 0 []

/-! ### The criterion (R210–R213) -/

/-- A weir's condition set, its rising edges counted, and the evaluation sent to the flights (R206, R212). -/
def State.setWeir (s : State) (w : Nat) (now : Bool) (stamp qual : Nat) : State :=
  let was := s.on (R.WEIR_STATUS.COND w)
  let s := s.put (R.WEIR_STATUS.COND w) (b2n now)
  let s := if now && !was then s.inc (R.WEIR_STATUS.EDGES w) else s
  s.evaluated w was now stamp qual

/-- R210: a sheet tested by a weir, after the swap of any complete bank. -/
def State.weirSheet (s : State) (sh : Sheet) (w : Nat) : State :=
  let s := (s.swapLine w 0 sh.stamp).swapLine w 1 sh.stamp
  let first := s.get (R.WEIR_RANGE.FIRST w)
  let last := min (s.get (R.WEIR_RANGE.LAST w)) (sh.n - 1)
  let up := s.upperLine w
  let lo := s.lowerLine w
  let viol := (sh.bins.filter (fun b => first ≤ b.c && b.c ≤ last && s.violates w up lo b)).length
  let len := s.get (R.WEIR_CRIT.S_M1 w) + 1
  let need := min (s.get (R.WEIR_CRIT.M_M1 w) + 1) len
  let win := (decide (s.get (R.WEIR_CRIT.K_M1 w) + 1 ≤ viol) :: (s.weir w).window).take len
  let full := win.length = len
  let now := if full then decide (need ≤ (win.filter id).length) else s.on (R.WEIR_STATUS.HOLD w) && s.on (R.WEIR_STATUS.COND w)
  let s := (s.put (R.WEIR_COUNT.VIOL w) viol).updWeir w (fun x => { x with window := win })
  let s := if full then s.put (R.WEIR_STATUS.HOLD w) 0 else s
  s.setWeir w now sh.stamp (s.qual (sh.qual % 16))

/-- The weirs that a plan feeds (R207). -/
def State.weirsOf (s : State) (p : Nat) : List Nat :=
  (List.range 64).filter (fun w => bit ((s.plan p).u 24 8) w && s.on (R.WEIR_CFG.EN w) && s.get (R.WEIR_CFG.PLAN w) == p)

/-- R211: a frame of a plan not taken restarts the window of its weirs; the condition is held. -/
def State.weirsMiss (s : State) (p : Nat) : State :=
  (s.weirsOf p).foldl (fun s w => (s.updWeir w (fun x => { x with window := [] })).put (R.WEIR_STATUS.HOLD w) 1) s

/-- R211: the condition of a weir is 0 without an evaluation. The change from 1 is a FALL (R206), whose stamp no rule gives. -/
def State.weirFalls (s : State) (w : Nat) : State :=
  if s.on (R.WEIR_STATUS.COND w) then s.fresh.2.setWeir w false s.fresh.1 (s.qual 0) else s

/-- R211, R213: a weir whose plan does not run has condition 0, and a complete bank swaps at once. -/
def State.settleWeirs (s : State) : State :=
  (List.range 64).foldl (fun s w =>
    if s.weirLive w then s
    else
      let s := ((s.weirFalls w).put (R.WEIR_STATUS.HOLD w) 0).updWeir w (fun x => { x with window := [] })
      (s.swapLine w 0 0).swapLine w 1 0) s

/-- R213: the effect of a word written to WEIR_CFG(w): while the weir's plan is ARMED or RUNNING, a change of EN or PLAN is
refused with CFG_ERR; the other fields take effect. -/
def State.writeWeirCfg (s : State) (w : Nat) (x : Word) : State :=
  let old := s.word (R.WEIR_CFG w)
  let p := s.get (R.WEIR_CFG.PLAN w)
  let busy := 2 ≤ s.planState p
  let s := s.plainWrite (R.WEIR_CFG w) x
  let s := if busy && bits (s.word (R.WEIR_CFG w)).toNat 0 7 ≠ bits old.toNat 0 7 then
      ((s.put (R.WEIR_CFG.EN w) (bits old.toNat 0 1)).put (R.WEIR_CFG.PLAN w) (bits old.toNat 1 6)).put (R.WEIR_STATUS.CFG_ERR w) 1
    else s
  s.settleWeirs

/-- R213: a change to WEIR_CRIT(w) or WEIR_RANGE(w) restarts the window. -/
def State.writeWeirSet (s : State) (w key : Nat) (x : Word) : State :=
  let t := s.plainWrite key x
  if t.word key = s.word key then t
  else (t.updWeir w (fun x => { x with window := [] })).put (R.WEIR_STATUS.HOLD w) 0

end Machine
end Sys2Proof
end

