-- ==== Sys2Proof/Machine/Plans.lean ====
section
/-!
DEFINITION. Plans and the lane scheduler (chapters 1 and 5): lane states, the pool, assignment, leaving RUNNING, failover marks.

Marked choices (log entries): DEDUCED 11, 13, 14, 15, 16, 18, 19, 129; DESIGN CHOICE 12, 27, 119, 120. Each entry of
notes/assumptions says safe or unsafe.
-/

namespace Sys2Proof
namespace Machine

/-! ### The pool (R155–R157, R167) -/

/-- LANE_STATUS.STATE: 0 GATED, 1 WAKING, 2 SPARE, 3 ASSIGNED, 4 FENCED, 5 TESTING. -/
def State.laneState (s : State) (l : Nat) : Nat := s.get (R.LANE_STATUS.STATE l)
def State.setLane (s : State) (l st : Nat) : State := s.put (R.LANE_STATUS.STATE l) st

/-- The plans that hold lanes. -/
def State.livePlans (s : State) : List Nat := (List.range 64).filter (fun p => 2 ≤ s.planState p)

/-- Whether a lane is assigned to a plan. -/
def State.laneAssigned (s : State) (l : Nat) : Bool := s.livePlans.any (fun p => (s.plan p).lanes.contains l)

/-- R155: the free lanes, and the spares among them. -/
def State.freeLanes (s : State) : List Nat := (List.range 18).filter (fun l => s.laneState l ≠ 4 && !s.laneAssigned l)
def State.spares (s : State) : List Nat := s.freeLanes.drop (s.freeLanes.length - 2)

/-- R156, R157, R167: one free lane's state follows its place in the pool. DESIGN CHOICE (log 119): a lane freed while WAKING ends its
wake (Table 05-7) and is gated then. -/
def State.settleLane (s : State) (l : Nat) : State :=
  let warm := s.on R.LANE_CFG.WARM_SPARES && s.spares.contains l
  match s.laneState l with
  | 0 => if warm then (s.setLane l 1).updLane l (fun x => { x with readyAt := s.ns + 4000 }) else s
  | 2 => if warm then s else s.setLane l 0
  | 3 => ((s.setLane l (if warm then 2 else 0)).put (R.LANE_STATUS.PLAN l) 0).put (R.LANE_STATUS.SLOT l) 0
  | _ => s

/-- The pool after a change: free lanes settled, LANE_POOL rewritten. -/
def State.settleLanes (s : State) : State :=
  let s := s.freeLanes.foldl (fun s l => s.settleLane l) s
  let fenced := ((List.range 18).filter (fun l => s.laneState l == 4)).length
  let s := (s.put R.LANE_POOL.OK (18 - fenced)).put R.LANE_POOL.FENCED fenced
  let s := s.put R.LANE_POOL.ASSIGNED ((List.range 18).filter (fun l => s.laneAssigned l)).length
  s.put R.LANE_POOL.SPARES s.spares.length

/-- A test of a lane ended without result (R166, R172): a LANE_TEST order retires CANCELLED. -/
def State.dropTest (s : State) (l : Nat) : State :=
  let r := (s.lane l).testRef
  let s := s.updLane l (fun x => { x with testSince := none, testRef := none })
  match r with
  | some o => s.retireRef o stCancelled []
  | none => s

/-- R157, R166, R167: a free lane called to a slot of a plan at a moment (ns): a gated lane begins to wake; a spare, or a lane
under test, is ready 250 ns later. -/
def State.callLane (s : State) (l p slot at_ : Nat) : State :=
  let s := (s.put (R.LANE_STATUS.PLAN l) p).put (R.LANE_STATUS.SLOT l) slot
  match s.laneState l with
  | 0 => (s.setLane l 1).updLane l (fun x => { x with readyAt := at_ + 4000 })
  | 2 => (s.setLane l 3).updLane l (fun x => { x with readyAt := at_ + 250 })
  | 5 => ((s.dropTest l).setLane l 3).updLane l (fun x => { x with readyAt := at_ + 250 })
  | _ => s

/-! ### Frames -/

/-- The stamp of a plan's frame `f`. -/
def State.frameStamp (s : State) (p f : Nat) : Nat := s.sampleStamp (s.plan p).sourceId ((s.plan p).frameSample f)

/-- R41, R116, R161: how long after its stamp a source's sample reaches the lanes, in 2^-16 ns. A virtual channel's sample is
taken to reach them at its stamp. -/
def State.sourceDelay (s : State) (src : Nat) : Nat :=
  if 0x1000 ≤ src ∧ src < 0x2000 then
    let d := src - 0x1000
    let g := if s.on (R.DDC_CTL.QS d) then 32 + 4 * 2 ^ s.ddcK d else 96 + 64 * 2 ^ s.ddcK d
    (96 + g) * 1000 * 65536 / max 1 (s.fsOf (ddcAdc d))
  else 0

/-- The last frame of slot `slot` that stands at or before frame `f`. -/
def lastOfSlot (count slot f : Nat) : Option Nat := if f < slot then none else some (f - (f - slot) % max 1 count)

/-- The first frame of slot `slot` at or after `f`. -/
def firstOfSlot (count slot f : Nat) : Nat := f + (slot + max 1 count - f % max 1 count) % max 1 count

/-- R161: the last frame that a failover loses, if it loses any: first samples that reach the lanes before the spare is ready; in
a plan that is stopping without a spare, the rest of the slot. -/
def State.lastLost (s : State) (p : Nat) (x : Failover) : Option Nat :=
  let pl := s.plan p
  let m := s.sampleAt pl.sourceId (x.readyAt - s.sourceDelay pl.sourceId)
  let begun := pl.frameFrom m
  let below := match pl.stopFrame, x.stopping with
    | some f, true => f
    | some f, false => min f begun
    | none, _ => begun
  let f := if below = 0 then none else lastOfSlot pl.lanes.length x.slot (below - 1)
  match f with
  | some f => if x.firstLost ≤ f then some f else none
  | none => none

/-- Whether a frame of a plan is lost with its lane (R161). -/
def State.frameLost (s : State) (p f : Nat) : Bool :=
  let pl := s.plan p
  pl.failovers.any (fun x => f % max 1 pl.lanes.length == x.slot && decide (x.firstLost ≤ f) && (match s.lastLost p x with
    | some l => decide (f ≤ l)
    | none => false))

/-! ### FAILOVER and GAP marks (R162–R164) -/

/-- R162, R335: a mark written in its place in the streams of a plan, after the marks that stand before it: `m` in the sheet stream, where
every sheet before it has been delivered, `t` in the trace streams. -/
def State.markStreams (s : State) (p : Nat) (m t : Barge) : State :=
  let ms := insertMark m (s.plan p).marks
  let now := (ms.takeWhile (fun x => x != m)) ++ [m]
  let s := s.updPlan p (fun pl => { pl with marks := ms.drop now.length })
  let s := now.foldl (fun s x => s.emitPlanMark p x) s
  (s.enginesOf p).foldl (fun s e => s.updEngine e (fun x => { x with marks := insertMark t x.marks })) s

/-- Table 05-6. -/
def failoverInfo (p : Nat) (x : Failover) (lost : Nat) : Nat :=
  let none_ := x.spare = 99
  p % 64 + x.failed * 2 ^ 8 + (if none_ then 0x1F else x.spare) * 2 ^ 13 + x.cause * 2 ^ 18 + x.slot * 2 ^ 22
    + min lost 65535 * 2 ^ 32 + (if none_ then 0 else min ((x.readyAt - x.detected) / (16 * 65536)) 65535) * 2 ^ 48

/-- The REF code and HOLDOVER of a mark stamped at a sample of a plan's source. -/
def State.planQual (s : State) (p : Nat) : Nat := s.qual (refOf (s.plan p).sourceId)

/-- R162: the marks of one failover written in the place of its first lost frame; a spare lost later adds a further GAP. DEDUCED (log 129): no
trace is lost, so ITEMS is 0 in a trace stream. -/
def State.writeFailover (s : State) (p : Nat) (x : Failover) : State × Failover :=
  let pl := s.plan p
  match s.lastLost p x with
  | none => (s, x)
  | some l =>
    let a := match x.upto with
      | some u => u + pl.lanes.length
      | none => x.firstLost
    if l < a then (s, x)
    else
      let n := (l - a) / max 1 pl.lanes.length + 1
      let t := s.frameStamp p a
      let s := s.stepsReached p (pl.frameSample a)
      let fail := mkMark 0 0 mkFailover t (s.planQual p) 0 (failoverInfo p x n)
      let s := if x.upto.isNone && !x.stopping then s.markStreams p fail fail else s
      let e := s.sampleStamp pl.sourceId (pl.frameSample l + pl.n)
      let gap := fun (items : Nat) => mkGapMark 0 0 t (s.planQual p) 0x04 x.failed items (some (e - t))
      (s.markStreams p (gap n) (gap 0), { x with upto := some l })

/-- The failovers of a plan whose first lost frame stands before frame `f` have their marks written. -/
def State.writeFailovers (s : State) (p f : Nat) : State :=
  let l := (s.plan p).failovers
  let s := s.updPlan p (fun pl => { pl with failovers := [] })
  l.foldl (fun s x =>
    let s := s.updPlan p (fun pl => { pl with failovers := pl.failovers ++ [x] })
    if x.firstLost < f then
      let r := s.writeFailover p x
      r.1.updPlan p (fun pl => { pl with failovers := pl.failovers.dropLast ++ [r.2] })
    else s) s

/-- Frames of a plan up to `f`, exclusive, that were not taken: their consumers account for them (R176, R199, R211). -/
def State.accountTo (s : State) (p f : Nat) : State :=
  let n := (s.plan p).nextFrame
  if f ≤ n then s
  else
    let s := s.writeFailovers p f
    let s := ((s.enginesMiss p n f).weirsMiss p).zonesMiss p
    s.updPlan p (fun pl => { pl with nextFrame := f })

/-- Frames of a plan's next places in order that are already known to be lost are accounted for, and failovers that are over are
forgotten. -/
def State.skipLost (s : State) (p : Nat) : Nat → State
  | 0 => s
  | fuel + 1 =>
    let f := (s.plan p).nextFrame
    if s.planState p = 3 ∧ s.frameLost p f then (s.accountTo p (f + 1)).skipLost p fuel
    else
      let isOver := fun (x : Failover) => match s.lastLost p x with
        | some l => x.upto == some l && decide (l < f) && decide (x.readyAt ≤ s.time)
        | none => decide (x.readyAt ≤ s.time) && !x.stopping
      s.updPlan p (fun pl => { pl with failovers := pl.failovers.filter (fun x => !isOver x) })

/-! ### Leaving ARMED or RUNNING (R33, R34, R165, Table 01-8) -/

/-- The PLAN_STOP orders outstanding on a plan. -/
def State.planStops (s : State) (p : Nat) : List Order := s.orders.filter (fun o => o.opcode == 0x0103 && o.u 16 1 == p)

/-- Every consumer of plans follows a plan's state. -/
def State.settlePlans (s : State) : State :=
  let s := (List.range 32).foldl (fun s e => s.settleEngine e) s
  s.settleWeirs.settleZones.settleReams.settleLanes

/-- PLAN_STOPs that are under way on a plan report its sheets (R34, R39). -/
def State.reportStops (s : State) (p : Nat) : State :=
  ((s.planStops p).filter (fun o => o.phase != .pending)).foldl
    (fun s o => s.retireWith o stOk 0 [(32, leBytes 8 (s.plan p).sheets)]) s

/-- A plan becomes LOADED: its engines complete their traces (R183), its marks are written, its lanes are freed. `gap` is the
cause of the open GAP mark stamped now, if the plan was not stopped by order. -/
def State.haltPlan (s : State) (p : Nat) (gap : Option Nat) : State :=
  let es := s.enginesOf p
  let s := s.leaveHeld p
  let s := if s.planState p = 3 then s.writeFailovers p (((s.plan p).failovers.map (fun x => x.firstLost)).foldl max 0 + 1) else s
  let s := es.foldl (fun s e => s.engineStop e gap.isSome) s
  let s := s.flushPlanMarks p
  let s := match gap with
    | some c =>
      let m := mkGapMark 0 0 s.time (s.qual 2) c p 0 none
      es.foldl (fun (s : State) e => s.emitEngineMark e m) (s.emitPlanMark p m)
    | none => s
  let r := (s.plan p).startRef
  let s := (s.put (R.PLAN_STATUS.STATE p) 1).put (R.PLAN_STATUS.LANES p) 0
  let s := s.updPlan p (fun pl => { pl with
    startRef := none, startAt := none, lanes := [], inflight := [], stopFrame := none, stoppedAt := none, failovers := [] })
  let s := match r with
    | some o => s.retireRef o stCancelled []
    | none => s
  (s.reportStops p).settlePlans

/-- R33, R34: a stopping plan whose last frame has been delivered, or cannot be filled any more, is LOADED. -/
def State.settleStop (s : State) (p : Nat) : State :=
  let pl := s.plan p
  match pl.stopFrame with
  | some f =>
    let starved := !(s.source pl.sourceId).active || (List.range' pl.fillNext (f - pl.fillNext)).all (fun g => s.frameLost p g)
    if s.planState p = 3 && pl.inflight.isEmpty && (f ≤ pl.fillNext || starved) then
      ((s.accountTo p f).writeFailovers p f).haltPlan p none
    else s
  | none => s

/-- R33, R34: PLAN_STOP takes effect: an ARMED plan is LOADED again; a RUNNING plan starts no later frame. -/
def State.stopPlan (s : State) (p : Nat) : State :=
  match s.planState p with
  | 2 => s.haltPlan p none
  | 3 =>
    let pl := s.plan p
    let begun := pl.frameFrom (s.source pl.sourceId).next
    (s.updPlan p (fun pl => { pl with stopFrame := some (max begun pl.fillNext), stoppedAt := some s.tk.adv })).settleStop p
  | _ => s

/-- R165: a plan dropped for want of a lane. -/
def State.dropPlan (s : State) (p : Nat) : State := (s.haltPlan p (some 0x05)).raiseInst 37 p

/-- Table 01-8: a forced power-down of a plan's source or lanes. -/
def State.forceDownPlan (s : State) (p : Nat) : State := if 2 ≤ s.planState p then s.haltPlan p (some 0x06) else s

/-- The plans fed by ADC `n`'s DDCs, forced down with it. -/
def State.forceDownAdcPlans (s : State) (n : Nat) : State :=
  (List.range 64).foldl (fun s p =>
    if (s.plan p).sourceId = ddcId (2 * n) ∨ (s.plan p).sourceId = ddcId (2 * n + 1) then s.forceDownPlan p else s) s

/-- Stopping plans of a source that has stopped. -/
def State.settleStops (s : State) (src : Nat) : State := (s.plansRunning src).foldl (fun s p => s.settleStop p) s

/-! ### The plan orders (R25, R26, R35–R39) -/

/-- R142: whether a window code is usable at N = 2^m. -/
def State.windowOk (s : State) (code m : Nat) : Bool :=
  code ≤ 5 || (8 ≤ code && code ≤ 11 && (match SMap.find? s.userWindows (code - 8) with
    | some w => w.1 == m
    | none => false))

/-- Table 01-10. -/
def State.planLoadChecks (s : State) (o : Order) : List (Nat × Bool) :=
  let m := o.u 20 1
  let h := o.u 22 2
  [chk 16 (64 ≤ o.u 16 1), chk 17 (8 ≤ o.u 17 1), chk 18 (8 ≤ o.u 18 1 ∨ (o.u 19 1 ≠ 1 ∧ o.u 19 1 ≠ 2)), chk 20 (m < 6 ∨ 16 < m),
    (21, !s.windowOk (o.u 21 1) m), chk 22 (64 * h < 2 ^ m ∨ 2 ^ m < 8 * h), chk 34 (o.u 34 2 / 4096 % 8 ≠ 0),
    chk 36 (o.u 36 2 / 4096 % 8 ≠ 0), chk 38 (o.u 38 2 / 64 % 512 ≠ 0)] ++ reserved o 44 20

/-- PLAN_LOAD (R22, R23, R38, R39, R142). -/
def State.planLoadAccept (o : Order) (s : State) : State :=
  s.validate o (s.planLoadChecks o) (fun s =>
    let p := o.u 16 1
    if 2 ≤ s.planState p then s.retire o stState
    else ((s.put (R.PLAN_STATUS.STATE p) 1).updPlan p (fun pl => { pl with bytes := o.bytes })).retire o stOk)

/-- The arm of that order. -/
def execPlanLoad (s : State) : Out := .next (s.accept 0x0101 State.planLoadAccept)

/-- R25: the lanes that a plan demands: ⌈R × N / H / 16.0 G⌉. -/
def State.lanesNeeded (s : State) (p : Nat) : Nat :=
  let pl := s.plan p
  let r := s.sourceRate pl.sourceId
  ceilDiv (r.1 * pl.n) (r.2 * max 1 pl.hop * 16000000000)

/-- R174, R184, R207, R305: whether every consumer that a plan names is set up for it; a FAILED pound (R302) records nothing. -/
def State.consumersReady (s : State) (p : Nat) : Bool :=
  let pl := s.plan p
  (List.range 64).all (fun w => !bit (pl.u 24 8) w || (s.on (R.WEIR_CFG.EN w) && s.get (R.WEIR_CFG.PLAN w) == p))
    && (List.range 8).all (fun m => !bit (pl.u 32 1) m || (s.on (R.REAM_CFG.EN m) && s.get (R.REAM_CFG.LOG2N m) == pl.m))
    && (List.range 8).all (fun d => !bit (pl.u 33 1) d || (match s.engineFor? p d with
      | some e => decide (s.get (R.DET_CFG.DMODE e) ≤ 4)
      | none => false))
    && (!bit (pl.u 38 2) 15 || (let d := pl.u 38 2 % 64
        s.on (R.POUND_CFG.EN d) && s.poundState d ≠ 4 && !s.on (R.POUND_CFG.KIND d) && s.poundSource d == pl.sourceId))

/-- R39: whether a plan's source is enabled, its converter not gated. -/
def State.sourceEnabled (s : State) (src : Nat) : Bool :=
  if src < 0x2000 then s.on (R.DDC_CTL.EN (src - 0x1000)) && s.get (R.ADC_STATUS.STATE (ddcAdc (src - 0x1000))) ≠ 0
  else s.on (R.VC_CFG.EN (src - 0x2000))

/-- R155, R156: a LOADED plan takes its lanes and is ARMED; traces of its last run that still wait keep their SEQ. -/
def State.armPlan (s : State) (o : Order) (p : Nat) (ls : List Nat) : State :=
  let s := s.leaveTraces p
  let mode := o.u 17 1
  let s := ((s.put (R.PLAN_STATUS.STATE p) 2).put (R.PLAN_STATUS.LANES p) ls.length).put (R.PLAN_STATUS.SHEETS p) 0
  let s := s.updPlan p (fun pl => { pl with
    fmt := s.get (R.PLAN_EXPORT.FMT p), first := s.get (R.PLAN_BINS.FIRST p), last := min (s.get (R.PLAN_BINS.LAST p)) (pl.n - 1)
    startRef := some o.ref, mode := mode, gate := o.u 18 1
    startAt := if mode = 0 then some s.time else if mode = 1 then some (ofTime96 (o.u 20 12)) else none
    order := s.on (R.PLAN_EXPORT.ORDER p)
    lanes := ls, inflight := [], sheetSeq := 0, traceSeq := [], sheets := 0, stopFrame := none, failovers := [], marks := [], stepMarks := [] })
  let s := (ls.zip (List.range ls.length)).foldl (fun s x => s.callLane x.1 p x.2 s.ns) s
  (s.updOrder o.ref (fun o => { o with phase := .running })).settleLanes

/-- The parameter checks of PLAN_START (R387): each field's byte offset, and whether the field is invalid. -/
def planStartChecks (o : Order) : List (Nat × Bool) :=
  [chk 16 (64 ≤ o.u 16 1), chk 17 (4 ≤ o.u 17 1), chk 18 (o.u 17 1 = 2 ∧ 32 ≤ o.u 18 1), chk 19 (o.u 19 1 ≠ 0),
    chk 20 (o.u 17 1 = 1 ∧ badTime o 20)] ++ reserved o 32 32

/-- PLAN_START (R25, R26, R35–R37, R39). Which DETAIL a consumer that is not set up gives is not stated: an open value. DESIGN CHOICE (log
120): of several causes the plan's state comes first, then a consumer, the source, the lanes. -/
def State.planStartAccept (o : Order) (s : State) : State :=
  s.validate o (planStartChecks o) (fun s =>
    let p := o.u 16 1
    if s.planState p ≠ 1 then s.retire o stState
    else if !s.consumersReady p then
      let r := s.fresh
      r.2.retire o stBadParam (r.1 % 65536)
    else if !s.sourceEnabled (s.plan p).sourceId then s.retire o 0x21
    else
      let avail := s.freeLanes.filter (fun l => !s.spares.contains l)
      let n := s.lanesNeeded p
      if avail.length < n then s.retire o 0x20 else s.armPlan o p (avail.take n))

/-- The arm of that order. -/
def execPlanStart (s : State) : Out := .next (s.accept 0x0102 State.planStartAccept)

/-- The parameter checks of PLAN_STOP (R387): each field's byte offset, and whether the field is invalid. -/
def planStopChecks (o : Order) : List (Nat × Bool) :=
  [chk 16 (64 ≤ o.u 16 1), chk 17 (2 ≤ o.u 17 1), chk 18 (o.u 18 1 ≠ 0), chk 19 (o.u 19 1 ≠ 0),
    chk 20 (o.u 17 1 = 1 ∧ badTime o 20)] ++ reserved o 32 32

/-- PLAN_STOP (R33, R34, R39). -/
def State.planStopAccept (o : Order) (s : State) : State :=
  s.validate o (planStopChecks o) (fun s =>
    let p := o.u 16 1
    if s.planState p < 2 then s.retire o stState
    else if o.u 17 1 = 1 ∧ s.time < ofTime96 (o.u 20 12) then s
    else (s.updOrder o.ref (fun o => { o with phase := .running })).stopPlan p)

/-- The arm of that order. -/
def execPlanStop (s : State) : Out := .next (s.accept 0x0103 State.planStopAccept)

/-- The parameter checks of PLAN_UNLOAD (R387): each field's byte offset, and whether the field is invalid. -/
def planUnloadChecks (o : Order) : List (Nat × Bool) :=
  [chk 16 (64 ≤ o.u 16 1)] ++ reserved o 17 47

/-- PLAN_UNLOAD (R39). -/
def State.planUnloadAccept (o : Order) (s : State) : State :=
  s.validate o (planUnloadChecks o) (fun s =>
    let p := o.u 16 1
    if s.planState p ≠ 1 then s.retire o stState else (s.put (R.PLAN_STATUS.STATE p) 0).retire o stOk)

/-- The arm of that order. -/
def execPlanUnload (s : State) : Out := .next (s.accept 0x0104 State.planUnloadAccept)

/-- PLAN_STOP_DUE (R33, R34): a timed PLAN_STOP reaches its time. -/
def execPlanStopDue (ring index : Nat) (s : State) : Out :=
  match s.order? (ring, index) with
  | some o =>
    let p := o.u 16 1
    if o.opcode ≠ 0x0103 ∨ o.phase ≠ .pending ∨ s.time < ofTime96 (o.u 20 12) then .next s
    else if s.planState p < 2 then .next (s.retire o stState)
    else .next ((s.updOrder o.ref (fun o => { o with phase := .running })).stopPlan p)
  | none => .next s

/-- ARMED plan `p`, due at `t` with its lanes ready since `rdy`, begins (R24, R35, R36, R39): its first frame is at the first sample its source
releases from that instant on, and its order retires, as LATE when it could not begin there. -/
def State.planStarts (s : State) (p t rdy : Nat) : State :=
  let pl := s.plan p
  let src := s.source pl.sourceId
  let passed := (pl.startRef.bind (fun r => s.order? r)).any (fun o => o.late)
  let m0 := max src.runFirst (s.sampleAt pl.sourceId t)
  let m1 := max src.runFirst (s.sampleAt pl.sourceId (max t rdy))
  let late := if pl.mode = 0 then false else if pl.mode = 3 then m1 != m0 else decide (t < rdy) || passed
  let stamp := s.sampleStamp pl.sourceId m1
  let s := s.put (R.PLAN_STATUS.STATE p) 3
  let s := s.updPlan p (fun pl => { pl with
    frame0 := m1, fillNext := 0, nextFrame := 0, startedAt := stamp, startRef := none, startAt := none })
  let s := s.restartHolds p
  match pl.startRef with
  | some o => s.retireRef o (if late then stLate else stOk) [(20, time96Bytes stamp)]
  | none => s

/-- R35, R166: when every lane of a plan was ready, once all are. -/
def State.lanesReady? (s : State) (p : Nat) : Option Nat :=
  let ls := (s.plan p).lanes
  if ls.all (fun l => s.laneState l == 3 && decide ((s.lane l).readyAt ≤ s.ns)) then
    some (s.time - nsUnits (s.ns - (ls.map (fun l => (s.lane l).readyAt)).foldl max 0))
  else none

/-- PLAN_START_DUE (R24, R33, R35, R36, R39): an ARMED plan whose start time has come, with its lanes ready and its source releasing
samples, is RUNNING: frame 0 begins at the first sample of the present run at or after the start time, or after the lanes were
ready. A PLAN_STOP due by then wins. -/
def execPlanStartDue (p : Fin 64) (s : State) : Out :=
  let p := p.val
  let pl := s.plan p
  match pl.startAt, s.lanesReady? p with
  | some t, some rdy =>
    if s.planState p ≠ 2 || s.time < t || !(s.source pl.sourceId).active then .next s
    else match (s.planStops p).find? (fun o => o.phase == .pending && o.u 17 1 == 1 && decide (ofTime96 (o.u 20 12) ≤ max t rdy)) with
      | some o => .next ((s.updOrder o.ref (fun o => { o with phase := .running })).stopPlan p)
      | none => .next (s.planStarts p t rdy).settlePlans
  | _, _ => .next s

/-- LANE_WAKE_DONE (R156, R165–R167): a lane whose wake is over serves its slot, or is a spare. -/
def execLaneWakeDone (l : Fin 18) (s : State) : Out :=
  let l := l.val
  if s.laneState l ≠ 1 ∨ s.ns < (s.lane l).readyAt ∨ s.unitsBarred then .next s
  else if s.laneAssigned l then
    .next ((s.setLane l 3).updLane l (fun x => { x with readyAt := s.ns }))
  else .next ((s.setLane l 2).settleLanes)

/-- The effect of a word written to LANE_CFG (R157, R168). -/
def State.writeLaneCfg (s : State) (w : Word) : State := (s.plainWrite R.LANE_CFG w).settleLanes

end Machine
end Sys2Proof
end

