-- ==== Sys2Proof/Machine/Calib.lean ====
section
/-!
DEFINITION. The trims of the ADC slices (R70–R76, R85–R93): sets, targets, measurements, steps, slice failure.

Marked choices (log entries): DEDUCED 47, 136; DESIGN CHOICE 137. Each entry of notes/assumptions says safe or unsafe.
-/

namespace Sys2Proof
namespace Machine

/-- Table 03-1, by trim code (Table 03-10): lowest and highest value, step limit, repeat tolerance. -/
def trimRange (code : Nat) : Int × Int × Int × Int :=
  if code = 0 then (-512, 511, 1, 2)
  else if code = 1 then (-2048, 2047, 4, 3)
  else if code < 18 then (0, 4095, 8, 4)
  else (-128, 127, 2, 2)

/-- The codes of the trims of a slice: OFFSET, GAIN, DELAY (one for S0–S15, kept under code 2; sixteen for S16), THRESH. -/
def trimCodes (slice : Nat) : List Nat :=
  [0, 1] ++ (if slice = 16 then (List.range 16).map (· + 2) else [2]) ++ (List.range 13).map (· + 18)

/-- All trims of a converter, as slice × 32 + code. -/
def allTrims : List Nat := (List.range 17).flatMap (fun sl => (trimCodes sl).map (fun c => sl * 32 + c))

/-- A trim in a map; 0 where none is held. -/
def trimIn (m : SMap Int) (k : Nat) : Int := (SMap.find? m k).getD 0

/-- R77: the factory trim of a slice, within its range. -/
def factoryOf (n k : Nat) : Int :=
  let r := trimRange (k % 32)
  r.1 + (Config.factoryTrim n (k / 32) (k % 32) % (r.2.1 - r.1 + 1).toNat : Nat)

/-- CAL_TEMP(n) as a signed number of 0.125 °C. -/
def State.calTemp (s : State) (n : Nat) : Int := sext 12 (s.get (R.CAL_TEMP.TEMP n))

/-- The valid sets of a converter whose fs is its present one, with their temperatures (R73, R77). -/
def State.validSets (s : State) (n : Nat) : List (Int × TrimSet) :=
  ((List.range 8).filter (fun k => s.on (R.CAL_SETT.VALID n k) && s.get (R.CAL_SETT.FS n k) == s.fsOf n)).map (fun k =>
    (sext 12 (s.get (R.CAL_SETT.TEMP n k)), (SMap.find? (s.cal n).sets k).getD {}))

/-- The set nearest below or at a temperature, and nearest above or at it. -/
def setBelow (t : Int) (l : List (Int × TrimSet)) : Option (Int × TrimSet) :=
  l.foldl (fun b x => if x.1 ≤ t then (match b with
    | some y => if y.1 < x.1 then some x else b
    | none => some x) else b) none
def setAbove (t : Int) (l : List (Int × TrimSet)) : Option (Int × TrimSet) :=
  l.foldl (fun b x => if t ≤ x.1 then (match b with
    | some y => if x.1 < y.1 then some x else b
    | none => some x) else b) none

/-- R73, R71: one target trim at a temperature; the present target where no set is valid. -/
def State.targetTrim (s : State) (n k : Nat) : Int :=
  let t := s.calTemp n
  let l := s.validSets n
  match setBelow t l, setAbove t l with
  | some a, some b =>
    let ta := trimIn a.2.trims k
    if a.1 = b.1 then ta else ta + (trimIn b.2.trims k - ta) * (t - a.1) / (b.1 - a.1)
  | some a, none => trimIn a.2.trims k
  | none, some b => trimIn b.2.trims k
  | none, none => trimIn (s.cal n).target k

/-- The targets of R73 put in force, with the temperature of the computation. -/
def State.newTargets (s : State) (n : Nat) : State :=
  let m := allTrims.foldl (fun m k => SMap.put m k (s.targetTrim n k)) []
  let t := s.calTemp n
  s.updCal n (fun c => { c with target := m, lastTemp := t })

/-- R74: the targets recomputed; where that changes a trim a gradual application with this cause follows. -/
def State.recompute (s : State) (n cause : Nat) : State :=
  let old := (s.cal n).target
  let s := s.newTargets n
  if (s.cal n).target = old then s else s.updCal n (fun c => { c with cause := cause })

/-- R74: a recomputation when the calibration temperature has moved by TEMP_HYST. -/
def State.recomputeIfMoved (s : State) (n : Nat) : State :=
  if s.get (R.ADC_STATUS.STATE n) < 2 then s
  else if max 1 (s.get R.CAL_CFG.TEMP_HYST) ≤ (s.calTemp n - (s.cal n).lastTemp).natAbs then s.recompute n 2 else s

/-- SETS_VALID follows the sets' VALID bits. -/
def State.putSetsValid (s : State) (n : Nat) : State :=
  s.put (R.CAL_STATUS.SETS_VALID n) ((List.range 8).foldl (fun m k => m + s.get (R.CAL_SETT.VALID n k) * 2 ^ k) 0)

/-- R76: the sets whose fs differs lose VALID. -/
def State.dropSets (s : State) (n fs : Nat) : State :=
  ((List.range 8).foldl (fun s k => if s.get (R.CAL_SETT.FS n k) = fs then s else s.put (R.CAL_SETT.VALID n k) 0) s).putSetsValid n

/-- R75: the slot that a set measured at this temperature goes into: the valid set within ±2.5 °C (the nearest), an empty slot,
or of the two valid sets that lie closest together the one nearer to the present temperature. -/
def State.setSlot (s : State) (n : Nat) : Nat :=
  let t := s.calTemp n
  let temp := fun k => sext 12 (s.get (R.CAL_SETT.TEMP n k))
  let valid := (List.range 8).filter (fun k => s.on (R.CAL_SETT.VALID n k))
  let near := valid.foldl (fun b k => if (temp k - t).natAbs ≤ 20 then (match b with
    | some j => if (temp k - t).natAbs < (temp j - t).natAbs then some k else b
    | none => some k) else b) (none : Option Nat)
  match near with
  | some k => k
  | none =>
    match (List.range 8).find? (fun k => !s.on (R.CAL_SETT.VALID n k)) with
    | some k => k
    | none =>
      let pairs := valid.flatMap (fun a => (valid.filter (fun b => a < b)).map (fun b => (a, b)))
      let gap := fun (p : Nat × Nat) => (temp p.1 - temp p.2).natAbs
      let best := pairs.foldl (fun b p => if gap p < gap b then p else b) (0, 1)
      if (temp best.2 - t).natAbs < (temp best.1 - t).natAbs then best.2 else best.1

/-- R75: accepted trims written to a set; the set's other trims are those it held, or the applied ones in an empty slot. -/
def State.writeSet (s : State) (n : Nat) (trims : List (Nat × Int)) : State :=
  let k := s.setSlot n
  let c := s.cal n
  let base := if s.on (R.CAL_SETT.VALID n k) then ((SMap.find? c.sets k).getD {}).trims
    else allTrims.foldl (fun m x => SMap.put m x (trimIn c.applied x)) []
  let m := trims.foldl (fun m x => SMap.put m x.1 x.2) base
  let s := s.updCal n (fun c => { c with sets := SMap.put c.sets k { trims := m } })
  let s := (s.put (R.CAL_SETT.TEMP n k) (s.get (R.CAL_TEMP.TEMP n))).put (R.CAL_SETT.VALID n k) 1
  (s.put (R.CAL_SETT.FS n k) (s.fsOf n)).putSetsValid n

/-- What a measurement of a trim comes to (R71, R79, R91). -/
inductive Measured where
  | accepted (v : Int) | rejected | failed
deriving DecidableEq, Repr

/-- R79, R71: agreement of two of the measurements and their mean, truncated toward minus infinity. -/
def measured (m : Measure) : Measured :=
  let r := trimRange m.code.val
  let tol := r.2.2.2.toNat
  let inRange := fun (v : Int) => if r.1 ≤ v ∧ v ≤ r.2.1 then Measured.accepted v else .failed
  if m.stuck || [m.a, m.b].any (fun x => x < r.1 || r.2.1 < x) then .failed
  else if (m.a - m.b).natAbs ≤ tol then inRange ((m.a + m.b) / 2)
  else if m.c < r.1 ∨ r.2.1 < m.c then .failed
  else if (m.a - m.c).natAbs ≤ tol then inRange ((m.a + m.c) / 2)
  else if (m.b - m.c).natAbs ≤ tol then inRange ((m.b + m.c) / 2)
  else .rejected

/-- The accepted trims of a list of measurements. -/
def acceptedTrims (ms : List Measure) : List (Nat × Int) :=
  ms.filterMap (fun m => match measured m with
    | .accepted v => some (m.slice.val * 32 + m.code.val, v)
    | _ => none)

/-- R79: rejections counted and raised; `rot` says that they count toward the three consecutive rotations of R91. -/
def State.countRejects (s : State) (n : Nat) (rot : Bool) : List Measure → State
  | [] => s
  | m :: t =>
    let k := m.slice.val * 32 + m.code.val
    match measured m with
    | .rejected =>
      let s := (s.satInc (R.CAL_REJECTS.REJ n)).raiseInst 6 n
      let s := if rot then s.updCal n (fun c => { c with rejects := SMap.put c.rejects k ((SMap.find? c.rejects k).getD 0 + 1) }) else s
      s.countRejects n rot t
    | .accepted _ => (s.updCal n (fun c => { c with rejects := SMap.erase c.rejects k })).countRejects n rot t
    | .failed => s.countRejects n rot t

/-- R91: the slices that fail: a value beyond its range, a stuck decision, or three consecutive rejections of one trim. -/
def State.failing (s : State) (n : Nat) (ms : List Measure) : List Nat :=
  (List.range 17).filter (fun sl =>
    ms.any (fun m => m.slice.val == sl && measured m == .failed)
      || (s.cal n).rejects.any (fun r => r.1 / 32 == sl && 3 ≤ r.2))

/-! ### Steps (R85–R90) -/

/-- The position that a slice serves now; 0x1F for none. -/
def State.positionOf (s : State) (n sl : Nat) : Nat :=
  if sl < 16 then (if s.get (R.ADC_SLICEMAP.OUT_POS n) = sl ∨ s.get (R.ADC_SLICEMAP.PERM_POS n) = sl then 0x1F else sl)
  else if s.get (R.ADC_SLICEMAP.PERM_POS n) ≠ 0x1F then s.get (R.ADC_SLICEMAP.PERM_POS n)
  else s.get (R.ADC_SLICEMAP.OUT_POS n)

/-- R83: whether a trim may move now: its slice is in service, and the spare's DELAY is not that of the position it stands in
for. -/
def State.trimMovable (s : State) (n k : Nat) : Bool :=
  let sl := k / 32
  let out := s.get (R.ADC_SLICEMAP.OUT_POS n)
  if sl < 16 then out ≠ sl && s.get (R.ADC_SLICEMAP.PERM_POS n) ≠ sl
  else !(s.get (R.CAL_STATUS.BG_STATE n) == 1 && s.get (R.CAL_STATUS.DWELL n) == 16)
    && !(2 ≤ k % 32 && k % 32 < 18 && out == k % 32 - 2)

/-- The trims of a slice that are not at their targets and may move. -/
def State.movingTrims (s : State) (n sl : Nat) : List Nat :=
  ((trimCodes sl).map (fun c => sl * 32 + c)).filter (fun k =>
    trimIn (s.cal n).applied k ≠ trimIn (s.cal n).target k && s.trimMovable n k)

/-- R85: steps that one trim still needs. -/
def Cal.stepsLeft (c : Cal) (k : Nat) : Nat :=
  ceilDiv (trimIn c.target k - trimIn c.applied k).natAbs (trimRange (k % 32)).2.2.1.toNat

/-- A CAL_STEP mark in every stream of the converter (R87, R89): the SEQ of its information word counts marks from 1. -/
def State.calMark (s : State) (n cause slice pos index total kinds : Nat) (last : Bool) : State :=
  let c0 := (s.adc n).count
  let seq := ((s.cal n).seq + 1) % 65536
  let s := s.updCal n (fun c => { c with seq := seq })
  let info := cause + n * 2 ^ 8 + slice % 32 * 2 ^ 12 + pos % 32 * 2 ^ 17 + min index 15 * 2 ^ 22 + min total 15 * 2 ^ 26
    + b2n last * 2 ^ 30 + kinds % 16 * 2 ^ 32 + seq * 2 ^ 48
  s.markAdc n (mkMark 0 0 mkCalStep (s.adcStamp n c0) (s.qual 0) 0 info)

/-- R88: the first sample converted with new trims, noted for the ADC's stream and its DDCs'. -/
def State.noteCalStep (s : State) (n : Nat) : State :=
  let c0 := (s.adc n).count
  let s := s.updSource (adcId n) (fun o => { o with calSteps := c0 :: o.calSteps })
  [2 * n, 2 * n + 1].foldl (fun s d => s.updSource (ddcId d) (fun o => { o with calSteps := ceilDiv c0 (2 ^ s.ddcK d) :: o.calSteps })) s

/-- R85, R86, R90: the slice that takes a calibration step at the boundary now reached, if one is due and no FS_ADJ change has still
to take hold there: the slice of the application in progress, else the first with trims to move. -/
def State.calSlice? (s : State) (n : Nat) : Option Nat :=
  let c := s.cal n
  let due := match c.lastStep with
    | some l => decide (l + max 1 (s.get R.CAL_CFG.STEP_GAP) ≤ (s.adc n).count / 64)
    | none => true
  let frozen := !bit (s.get R.CAL_CTL.BG_EN) n && s.get (R.CAL_STATUS.BG_STATE n) == 0
  if (s.adc n).count % 64 ≠ 0 ∨ !due ∨ frozen ∨ (s.adc n).fsPending.isSome ∨ s.get (R.ADC_STATUS.STATE n) < 2 then none
  else
    let slices := match c.app with
      | some a => a.slice :: List.range 17
      | none => List.range 17
    slices.find? (fun sl => !(s.movingTrims n sl).isEmpty)

/-- Whether a CAL_STEP mark, of a step or of an FS_ADJ change, belongs to the boundary now reached (R90, R127). -/
def State.calStepDue (s : State) (n : Nat) : Bool :=
  (s.calSlice? n).isSome || ((s.adc n).fsPending.isSome && (s.adc n).count % 64 == 0)

/-- R85, R86: one calibration step, if one is due. -/
def State.calStep (s : State) (n : Nat) : State :=
  let c := s.cal n
  match s.calSlice? n with
  | none => s
  | some sl =>
    let ks := s.movingTrims n sl
    let idx := match c.app with
      | some a => if a.slice = sl then a.index + 1 else 1
      | none => 1
    let left := ks.foldl (fun m k => max m (c.stepsLeft k)) 0
    let applied := ks.foldl (fun m k =>
      let lim := (trimRange (k % 32)).2.2.1
      SMap.put m k (trimIn m k + clampInt (-lim) lim (trimIn c.target k - trimIn m k))) c.applied
    let kind := fun (k : Nat) => if k % 32 = 0 then 1 else if k % 32 = 1 then 2 else if k % 32 < 18 then 4 else 8
    let kinds := ks.foldl (fun m k => m ||| kind k) 0
    let app : Option Application := if left ≤ 1 then none else some ⟨sl, c.cause, idx⟩
    let s := s.updCal n (fun c => { c with applied := applied, lastStep := some ((s.adc n).count / 64), app := app })
    (s.noteCalStep n).calMark n c.cause sl (s.positionOf n sl) idx (idx + left - 1) kinds (left ≤ 1)

/-! ### Starting and stopping (R77, R78, R82) -/

/-- Background calibration begins on a converter in IDLE, ARMED or ACQUIRING: dwell 0, in degraded mode a window. -/
def State.startBackground (s : State) (n : Nat) : State :=
  if !bit (s.get R.CAL_CTL.BG_EN) n then s
  else if s.on (R.ADC_SLICEMAP.DEGRADED n) then
    (s.put (R.CAL_STATUS.BG_STATE n) 2).updCal n (fun c => { c with windowSince := some s.ns })
  else
    let s := ((s.put (R.CAL_STATUS.BG_STATE n) 1).put (R.CAL_STATUS.DWELL n) 0).put (R.ADC_SLICEMAP.OUT_POS n) 0
    s.updCal n (fun c => { c with dwellSince := some s.ns })

/-- Background calibration stops; a failed converter keeps FAILED. -/
def State.stopBackground (s : State) (n : Nat) : State :=
  let s := if s.get (R.CAL_STATUS.BG_STATE n) = 3 then s else s.put (R.CAL_STATUS.BG_STATE n) 0
  (s.put (R.ADC_SLICEMAP.OUT_POS n) 0x1F).updCal n (fun c => { c with dwellSince := none, windowSince := none })

/-- R78: foreground calibration runs, after the dwell in progress if there is one (R81). -/
def State.startForeground (s : State) (n : Nat) : State :=
  let s := ((s.put (R.CAL_STATUS.READY n) 0).put (R.CAL_STATUS.FG_STATE n) 1).updCal n (fun c => { c with loadSince := none })
  if (s.cal n).dwellSince.isSome then s.updCal n (fun c => { c with fgWaits := true })
  else (s.stopBackground n).updCal n (fun c => { c with fgSince := some s.ns, fgWaits := false })

/-- R77: the factory trims loaded. -/
def State.loadFactory (s : State) (n : Nat) : State :=
  let m := allTrims.foldl (fun m k => SMap.put m k (factoryOf n k)) []
  s.updCal n (fun c => { c with applied := m, target := m, app := none })

/-- CAL_DECISION (R77), on entry to IDLE from WAKING. A converter that comes back to IDLE from ARMED or ACQUIRING keeps its
calibration: R77's words "enters IDLE" are read with R78 and Table 03-7 (READY ends only with the way to OFF). -/
def State.calDecision (s : State) (n : Nat) : State :=
  let t := s.calTemp n
  if (s.validSets n).any (fun x => (x.1 - t).natAbs ≤ 40) then
    let s := s.newTargets n
    s.updCal n (fun c => { c with applied := c.target, app := none, loadSince := some s.ns })
  else if bit (s.get R.CAL_CTL.AUTO_FG) n then s.startForeground n
  else (((s.loadFactory n).put (R.CAL_STATUS.FG_STATE n) 0).put (R.CAL_STATUS.READY n) 1).startBackground n

/-- R96: a SAVE begins, or waits for the foreground calibrations that run. -/
def State.beginSave (s : State) : State :=
  if (List.range 4).any (fun n => s.get (R.CAL_STATUS.FG_STATE n) == 1) then { s with savePending := true }
  else { s.put (R.CAL_STATUS.SAVE_BUSY 0) 1 with savePending := false }

/-- R96: a SAVE that waited for a foreground calibration begins when the last one has ended. -/
def State.resumeSave (s : State) : State := if s.savePending then s.beginSave else s

/-- R78, R80: a foreground calibration under way is abandoned; the answer says whether one was. -/
def State.abandonForeground (s : State) (n : Nat) : Bool × State :=
  if s.get (R.CAL_STATUS.FG_STATE n) = 1 then
    let s := (s.put (R.CAL_STATUS.FG_STATE n) 4).updCal n (fun c => { c with fgSince := none, fgWaits := false })
    (true, (s.raiseInst 5 n).resumeSave)
  else (false, s)

/-- Calibration on a converter that goes OFF: a foreground calibration is abandoned, READY cleared, background stopped. -/
def State.calOff (s : State) (n : Nat) : State :=
  let s := ((s.abandonForeground n).2).put (R.CAL_STATUS.READY n) 0
  (s.stopBackground n).updCal n (fun c => { c with loadSince := none, app := none })

/-- R91: why a slice fails: 0 a value beyond its range, 1 three consecutive rejections, 2 a stuck decision. -/
def failReason (ms : List Measure) (sl : Nat) : Nat :=
  if ms.any (fun m => m.slice.val == sl && m.stuck) then 2
  else if ms.any (fun m => m.slice.val == sl && measured m == .failed) then 0 else 1

/-- R92: the first failure of a slice: the spare takes its position (none for S16), degraded mode, the mark and the events,
whose information word carries the slice, the position and the reason. -/
def State.loseSlice (s : State) (n sl reason : Nat) : State :=
  let s := s.put (R.ADC_SLICEMAP.DEGRADED n) 1
  let s := s.updCal n (fun c => { c with failedSlices := sl :: c.failedSlices, dwellSince := none })
  let s := s.put (R.ADC_SLICEMAP.OUT_POS n) 0x1F
  let s := if sl = 16 then s
    else (s.put (R.ADC_SLICEMAP.PERM_POS n) sl).calMark n 3 16 sl 1 1 0 true
  let s := if s.get (R.CAL_STATUS.FG_STATE n) = 1 then s else s.startBackground n
  let parts := [n, sl, if sl = 16 then 0x1F else sl, reason]
  (s.raiseWith 7 n parts).raiseWith 8 n parts

end Machine
end Sys2Proof
end

