-- ==== Sys2Proof/Machine/Converters.lean ====
section
/-!
DEFINITION. The RF converters (chapter 2): reference buffers, states, starting and stopping, overrange, sample counters, SYNC.

Marked choices (log entries): DEDUCED 48, 110, 136, 139; DESIGN CHOICE 115. Each entry of notes/assumptions says safe or
unsafe.
-/

namespace Sys2Proof
namespace Machine

/-- ADC_STATUS.STATE: 0 OFF, 1 WAKING, 2 IDLE, 3 ARMED, 4 ACQUIRING. DAC_STATUS.STATE: 0 OFF, 1 WAKING, 2 ON. -/
def State.adcState (s : State) (n : Nat) : Nat := s.get (R.ADC_STATUS.STATE n)
def State.dacState (s : State) (n : Nat) : Nat := s.get (R.DAC_STATUS.STATE n)

/-- The streams of ADC `n`: its own and its two DDCs'. -/
def adcSources (n : Nat) : List Nat := [adcId n, ddcId (2 * n), ddcId (2 * n + 1)]

/-- R577, R578: whether a protective action keeps the converters in WAKING. -/
def State.convertersBarred (s : State) : Bool :=
  s.on R.GLOBAL_PROT.EMERG
    || (s.on R.GLOBAL_PROT.SUPPLY && [16, 18, 19, 20, 21, 22].contains (s.get R.GLOBAL_PROT.RAIL))

/-! ### Leaving a state -/

/-- The arm is over: nothing of it stays. -/
def State.clearArm (s : State) (n : Nat) : State :=
  let s := s.updAdc n (fun a => { a with startAt := none, first := none, began := false, stopAt := none, offAfter := false })
  [2 * n, 2 * n + 1].foldl (fun s d => s.updDdc d (fun x => { x with takenFrom := none })) s

/-- A converter goes OFF (Table 02-6). -/
def State.adcToOff (s : State) (n : Nat) : State :=
  ((s.calOff n).put (R.ADC_STATUS.STATE n) 0).clearArm n

/-- R57, R63, R68, R95: a converter forced out of its state: LAST = FORCED_OFF where an arm was under way or OFF follows, open
GAP marks stamped by the timekeeper in every stream it feeds. -/
def State.adcForce (s : State) (n gapCause : Nat) : State :=
  let s := s.put (R.ADC_STATUS.LAST n) 4
  let s := (adcSources n).foldl (fun s src => s.updSource src (fun o => { o with endAt := none })) s
  (adcSources n).foldl (fun s src => (s.stopSource src gapCause n s.time (s.qual 2)).settleStops src) s

/-- R62, R117: where a source's stream ends when its ADC has released every sample below `c`: the number after its last
sample. -/
def State.lastSpan (s : State) (src c : Nat) : Nat :=
  if src < 0x1000 then c
  else
    let k := s.ddcK (src - 0x1000)
    let span := if s.on (R.DDC_CTL.QS (src - 0x1000)) then 4 * 2 ^ k else 64 * 2 ^ k
    if c + 1 ≤ span then 0 else (c - span) / 2 ^ k + 1

/-- R62, R117: the streams of a stopped ADC end after their last samples, each with an open STOPPED GAP from the instant after;
a DDC that has still to release samples of the stopped run ends when it has. -/
def State.endStreams (s : State) (n c : Nat) : State :=
  (adcSources n).foldl (fun s src =>
    let e := s.lastSpan src c
    let o := s.source src
    if o.active && o.next < e then s.updSource src (fun o => { o with endAt := some (e, 1, n) })
    else (s.stopSource src 1 n (s.sampleStamp src o.next) (s.qual 0)).settleStops src) s

/-- R62: a stop or gating request in ACQUIRING: at the granule, or at once before the first acquired sample. -/
def State.adcStop (s : State) (n : Nat) (off : Bool) : State :=
  let a := s.adc n
  if a.began then
    let stop := match a.stopAt with
      | some k => k
      | none => ceilDiv a.count 64 * 64
    s.updAdc n (fun a => { a with stopAt := some stop, offAfter := a.offAfter || off })
  else
    let s := (s.put (R.ADC_STATUS.LAST n) 3).clearArm n
    if off then s.adcToOff n else s.put (R.ADC_STATUS.STATE n) 2

/-- Table 02-6: a gating request carried out. -/
def State.gateAdc (s : State) (n : Nat) : State :=
  match s.adcState n with
  | 0 => s
  | 3 => (s.put (R.ADC_STATUS.LAST n) 2).adcToOff n
  | 4 => s.adcStop n true
  | _ => s.adcToOff n

/-- PD_HOLD of every flight follows the requests still held (R229). -/
def State.settleHolds (s : State) : State :=
  (List.range 16).foldl (fun s f =>
    if s.on (R.FL_STATUS.PD_HOLD f) && !s.on R.GLOBAL_PWRSTAT.HELD
        && !s.pdHeld.any (fun n => (s.climbingOn (adcUnits n)).contains f) then s.put (R.FL_STATUS.PD_HOLD f) 0
    else s) s

/-- R63, R229: held ON = 0 requests whose flights have left CLIMBING are carried out. -/
def State.releaseHeld (s : State) : State :=
  let due := s.pdHeld.filter (fun n => (s.climbingOn (adcUnits n)).isEmpty)
  let s := { s with pdHeld := s.pdHeld.filter (fun n => !due.contains n) }
  let s := due.foldl (fun s n => (s.put (R.ADC_STATUS.PD_PENDING n) (s.get R.GLOBAL_PWRSTAT.HELD)).gateAdc n) s
  s.settleHolds

/-- R63, R229, R230: the flights that depend on units powered down by force return to chamber 0, and requests that only they held
are carried out in the same cycle. -/
def State.abortDependents (s : State) (units : List (Nat × Nat)) (cause : Nat) : State := (s.abortFlights units cause).releaseHeld

/-- R57, R230, Table 01-8: a converter forced OFF, with the dependent flights' CAUSE of Table 07-4; the plans it feeds are
LOADED again. -/
def State.adcForceOff (s : State) (n flightCause : Nat) : State :=
  if s.adcState n = 0 then s
  else
    let s := (s.adcForce n 2).adcToOff n
    let s := { s.put (R.ADC_STATUS.PD_PENDING n) 0 with pdHeld := s.pdHeld.filter (fun x => x != n) }
    (s.abortDependents (adcUnits n) flightCause).forceDownAdcPlans n

/-! ### Reference buffers (R56, R57) -/

/-- A DAC goes OFF: its generator aborts with a cause of Table 15-5. -/
def State.dacToOff (s : State) (n cause : Nat) : State :=
  let s := s.sgAbort n cause
  (s.put (R.DAC_STATUS.STATE n) 0).put (R.DAC_STATUS.IDLE_OUT n) 0

/-- One buffer's enable written: `k` 0–3 an ADC's, 4–7 a DAC's. -/
def State.writeRefBit (s : State) (k : Nat) (on : Bool) : State :=
  let i := if k < 4 then k else k + 4
  let was := bit (s.word R.CONV_REFBUF).toNat i
  let s := s.setWord R.CONV_REFBUF (BitVec.ofNat 32 (setBit (s.word R.CONV_REFBUF).toNat i on))
  if on = was then s
  else if on then
    if k < 4 then s.updAdc k (fun a => { a with refSince := some s.ns }) else s.updDac (k - 4) (fun a => { a with refSince := some s.ns })
  else
    let s := s.setWord R.CONV_REFSTAT (BitVec.ofNat 32 (setBit (s.word R.CONV_REFSTAT).toNat i false))
    if k < 4 then (s.updAdc k (fun a => { a with refSince := none })).adcForceOff k 4
    else
      let s := s.updDac (k - 4) (fun a => { a with refSince := none })
      if s.dacState (k - 4) = 0 then s else s.dacToOff (k - 4) 3

/-- R56, R57: the effect of a write of CONV_REFBUF. -/
def State.writeRefbuf (s : State) (w : Nat) : State :=
  (List.range 8).foldl (fun s k => s.writeRefBit k (bit w (if k < 4 then k else k + 4))) s

/-- CONV_REFBUF_WRITE (R56, R57): a write of CONV_REFBUF. -/
def execConvRefbufWrite (p : Path) (w : Word) (s : State) : Out :=
  .next (s.gate p R.CONV_REFBUF (fun s => s.plainWrite R.CONV_REFBUF w) (fun s => s.writeRefbuf w.toNat))

/-- When the buffer of converter `k` (0–3 ADC, 4–7 DAC) was enabled. -/
def State.refSince (s : State) (k : Nat) : Option Nat := if k < 4 then (s.adc k).refSince else (s.dac (k - 4)).refSince

/-- REF_RDY (R56): a buffer enabled for 5 ms is reported ready. -/
def execRefRdy (k : Fin 8) (s : State) : Out :=
  match s.refSince k.val with
  | some t =>
    let i := if k.val < 4 then k.val else k.val + 4
    if t + 5000000 ≤ s.ns then .next (s.setWord R.CONV_REFSTAT (BitVec.ofNat 32 (setBit (s.word R.CONV_REFSTAT).toNat i true)))
    else .next s
  | none => .next s

/-! ### Powering -/

/-- Table 02-6, R63: ON = 1 written to ADC_CTL(n). -/
def State.adcOn (s : State) (n : Nat) : State :=
  let s := s.put (R.ADC_CTL.ON n) 1
  if s.pdHeld.contains n then
    ({ s.put (R.ADC_STATUS.PD_PENDING n) (s.get R.GLOBAL_PWRSTAT.HELD) with pdHeld := s.pdHeld.filter (fun x => x != n) }).settleHolds
  else if s.adcState n = 0 then
    let s := ((s.put (R.ADC_STATUS.STATE n) 1).setWord (R.CAL_ROT n) 0#32).setWord (R.CAL_REJECTS n) 0#32
    s.updAdc n (fun a => { a with onSince := s.ns })
  else s

/-- Table 02-6, R63: ON = 0 written to ADC_CTL(n): carried out, or held while a dependent flight climbs. -/
def State.adcOff (s : State) (n : Nat) : State :=
  let s := s.put (R.ADC_CTL.ON n) 0
  if s.adcState n = 0 then s
  else if (s.climbingOn (adcUnits n)).isEmpty then s.gateAdc n
  else
    let s := (s.put (R.ADC_STATUS.PD_PENDING n) 1).holdOn (adcUnits n)
    if s.pdHeld.contains n then s else { s with pdHeld := s.pdHeld ++ [n] }

/-- ADC_ON (R58, R63): a write of ADC_CTL(n).ON = 1. -/
def execAdcOn (p : Path) (n : Fin 4) (s : State) : Out :=
  .next (s.gateField p (R.ADC_CTL.ON n.val) 1 (fun s => s.adcOn n.val))

/-- ADC_OFF (R62, R63, R78): a write of ADC_CTL(n).ON = 0. -/
def execAdcOff (p : Path) (n : Fin 4) (s : State) : Out :=
  .next (s.gateField p (R.ADC_CTL.ON n.val) 0 (fun s => s.adcOff n.val))

/-- Table 02-11: the effect of a whole word written to ADC_CTL(n): a changed FS_ADJ waits for the next granule. -/
def State.writeAdcCtl (s : State) (n w : Nat) : State :=
  let s := s.put (R.ADC_CTL.OVR_EV_EN n) (bits w 8 1)
  let fs := bits w 2 6
  let s := s.put (R.ADC_CTL.FS_ADJ n) fs
  let s := s.updAdc n (fun a => { a with fsPending := if fs = a.fsAdj then none else some fs })
  if bit w 0 then s.adcOn n else s.adcOff n

/-- CONVERTER_WAKE_DONE (R58, R73, R77, R95): 40 µs after ON = 1 and with its buffer ready for 40 µs, a WAKING converter (0–3
ADC, 4–7 DAC) enters IDLE, or ON, unless it has failed or a protective action bars it. -/
def execConverterWakeDone (k : Fin 8) (s : State) : Out :=
  let k := k.val
  let ready := match s.refSince k with
    | some t => decide (t + 5040000 ≤ s.ns)
    | none => false
  if !ready || s.convertersBarred then .next s
  else if k < 4 then
    if s.adcState k = 1 ∧ (s.adc k).onSince + 40000 ≤ s.ns ∧ !(s.adc k).failed then
      .next ((s.put (R.ADC_STATUS.STATE k) 2).calDecision k)
    else .next s
  else
    let n := k - 4
    if s.dacState n = 1 ∧ (s.dac n).onSince + 40000 ≤ s.ns then
      .next ((s.put (R.DAC_STATUS.STATE n) 2).put (R.DAC_STATUS.IDLE_OUT n) 1)
    else .next s

/-- R54, R58: DAC_CTL(n).ON written 1, or 0 (which clears a protective mute). -/
def State.dacOn (s : State) (n : Nat) : State :=
  let s := s.put (R.DAC_CTL.ON n) 1
  if s.dacState n = 0 then (s.put (R.DAC_STATUS.STATE n) 1).updDac n (fun a => { a with onSince := s.ns }) else s
def State.dacOff (s : State) (n : Nat) : State :=
  let s := (s.put (R.DAC_CTL.ON n) 0).put (R.DAC_STATUS.PROT_MUTE n) 0
  let s := s.updDac n (fun d => { d with muteFrom := none, granules := [] })
  if s.dacState n = 0 then s else s.dacToOff n 3

/-- DAC_ON (R54, R58): a write of DAC_CTL(n).ON = 1. -/
def execDacOn (p : Path) (n : Fin 4) (s : State) : Out :=
  .next (s.gateField p (R.DAC_CTL.ON n.val) 1 (fun s => s.dacOn n.val))

/-- DAC_OFF (R54, R58, R471): a write of DAC_CTL(n).ON = 0. -/
def execDacOff (p : Path) (n : Fin 4) (s : State) : Out :=
  .next (s.gateField p (R.DAC_CTL.ON n.val) 0 (fun s => s.dacOff n.val))

/-- Table 02-18: the effect of a whole word written to DAC_CTL(n). A change of MUTE acts from the present sample instant (R53). -/
def State.writeDacCtl (s : State) (n : Nat) (w : Word) : State :=
  let was := s.on (R.DAC_CTL.MUTE n)
  let s := s.plainWrite (R.DAC_CTL n) w
  let s := if s.on (R.DAC_CTL.MUTE n) = was then s else s.send (.dacMute n (!was) s.time)
  if bit w.toNat 0 then s.dacOn n else s.dacOff n

/-- R54, R471: a protective action mutes a DAC from the first 64-sample boundary after it, committed granules included; its generator
aborts. -/
def State.muteDac (s : State) (n cause : Nat) : State :=
  if s.dacState n = 0 then s
  else
    let b := s.sgCountAt n (s.time + 1)
    let s := match (s.dac n).muteFrom with
      | none => (s.updDac n (fun d => { d with muteFrom := some b })).send (.dacMute n true (s.sgBall n b))
      | some _ => s
    (s.put (R.DAC_STATUS.PROT_MUTE n) 1).sgAbort n cause

/-! ### Arming and starting (R59–R62, R67) -/

/-- R80: an ARM accepted during foreground calibration abandons it and runs on the factory trims. -/
def State.armCalibration (s : State) (n : Nat) : State :=
  let r := s.abandonForeground n
  if r.1 then ((r.2.loadFactory n).put (R.CAL_STATUS.READY n) 1).startBackground n else r.2

/-- R59, R61, R67: an ARM accepted or refused. -/
def State.adcArm (s : State) (n : Nat) : State :=
  let st := s.adcState n
  let err := fun (e : Nat) => s.put (R.ADC_STATUS.START_ERR n) e
  if st = 3 ∨ st = 4 then err 2
  else if st < 2 ∨ !s.on (R.ADC_STATUS.CNT_VALID n) then err 1
  else if (s.on (R.ADC_START.DELAY32 n) ∧ s.get (R.ADC_DELAY.DELAY n) ≠ 0) ∨ s.get (R.ADC_START.SRC n) = 3 then err 3
  else
    let s := ((err 0).put (R.ADC_STATUS.STATE n) 3).armCalibration n
    s.updAdc n (fun a => { a with
      src := s.get (R.ADC_START.SRC n), sel := s.get (R.ADC_START.SEL n), edge := s.get (R.ADC_START.EDGE n)
      delay := s.get (R.ADC_START.DELAY32 n) * 2 ^ 32 + s.get (R.ADC_DELAY.DELAY n)
      startAt := none, first := none, began := false, stopAt := none })

/-- R62: a DISARM: it cancels an arm, or stops acquisition. -/
def State.adcDisarm (s : State) (n : Nat) : State :=
  match s.adcState n with
  | 3 => ((s.put (R.ADC_STATUS.LAST n) 2).put (R.ADC_STATUS.STATE n) 2).clearArm n
  | 4 => s.adcStop n false
  | _ => s

/-- Table 02-12: the effect of a word written to ADC_START(n): ARM with DISARM acts as DISARM alone. -/
def State.writeAdcStart (s : State) (n w : Nat) : State :=
  let s := s.plainWrite (R.ADC_START n) (BitVec.ofNat 32 w)
  if bit w 17 then s.adcDisarm n else if bit w 16 then s.adcArm n else s

/-- ADC_ARM (R59, R61, R67, R80): a write of ADC_START(n) with ARM = 1 and DISARM = 0; `w` gives the other fields. -/
def execAdcArm (p : Path) (n : Fin 4) (w : Word) (s : State) : Out :=
  .next (s.gate p (R.ADC_START n.val) (fun s => s.plainWrite (R.ADC_START n.val) w)
    (fun s => s.writeAdcStart n.val (setBit (setBit w.toNat 16 true) 17 false)))

/-- ADC_DISARM (R62): a write of ADC_START(n) with DISARM = 1. -/
def execAdcDisarm (p : Path) (n : Fin 4) (w : Word) (s : State) : Out :=
  .next (s.gate p (R.ADC_START n.val) (fun s => s.plainWrite (R.ADC_START n.val) w)
    (fun s => s.writeAdcStart n.val (setBit w.toNat 17 true)))

/-- START_INSTANT (R59, R103): an ARMED converter reaches its start instant: at once for SRC = 0, else the instant that a gate
firing or marker edge has set. -/
def execStartInstant (n : Fin 4) (s : State) : Out :=
  let n := n.val
  let a := s.adc n
  let base := if a.src = 0 then some a.count
    else match a.startAt with
      | some t => if t ≤ max s.time (s.adcStamp n a.count) then some (s.adcCounterAt n t) else none
      | none => none
  match base with
  | some c =>
    if s.adcState n = 3 ∧ s.spllLocked n then
      let f := max a.count (c + a.delay)
      let s := (s.put (R.ADC_STATUS.STATE n) 4).put (R.ADC_STATUS.LAST n) 1
      let s := (s.setWord (R.ADC_FIRST_LO n) (BitVec.ofNat 32 f)).setWord (R.ADC_FIRST_HI n) (BitVec.ofNat 32 (f / 2 ^ 32))
      let s := s.updAdc n (fun a => { a with first := some f })
      .next ([2 * n, 2 * n + 1].foldl (fun s d => s.updDdc d (fun x => { x with takenFrom := if s.on (R.DDC_CTL.EN d) then some f else none })) s)
    else .next s
  | none => .next s

/-! ### Samples (R45–R48, R64) -/

/-- R45: a converted code. -/
def codeOf (x : Int) : Int := clampInt (-2048) 2047 x

/-- R46: whether a code is beyond a threshold. -/
def overrange (thresh : Nat) (x : Int) : Bool := decide ((thresh : Int) ≤ x) || decide (x ≤ -(thresh : Int) - 1)

/-- A run of flagged samples extended by one. -/
def extendRun (c : Nat) (runs : List (Nat × Nat)) : List (Nat × Nat) :=
  match runs with
  | (a, b) :: t => if b = c then (a, c + 1) :: t else (c, c + 1) :: (a, b) :: t
  | [] => [(c, c + 1)]

/-- R48: a flagged sample counted. -/
def State.countOverrange (s : State) (n : Nat) : State :=
  let s := s.satInc (R.ADC_OVRCNT.COUNT n)
  if s.on (R.ADC_STATUS.OVR_SEEN n) then s
  else
    let s := s.put (R.ADC_STATUS.OVR_SEEN n) 1
    if s.on (R.ADC_CTL.OVR_EV_EN n) then s.raiseInst 0 n else s

/-- R45–R48, R62, R64: the converter takes its next sample: the counter moves while its SPLL is locked; a converter in IDLE,
ARMED or ACQUIRING forms the overrange flag; one that acquires releases it from the first acquired sample to the granule. -/
def State.convert (s : State) (n : Nat) (x : Int) : State :=
  if !s.spllLocked n then s
  else
    let c := (s.adc n).count
    let s := s.updAdc n (fun a => if c % 64 = 0 then
        { a with count := c + 1, ovrThresh := s.get (R.ADC_OVR.THRESH n), ovrHold := s.get (R.ADC_OVR.HOLD n) }
      else { a with count := c + 1 })
    if s.adcState n < 2 then s.updAdc n (fun a => { a with hold := a.hold - 1 })
    else
      let code := codeOf x
      let a := s.adc n
      let hit := overrange a.ovrThresh code
      let flag := hit || 0 < a.hold
      let s := s.updAdc n (fun a => { a with hold := if hit then a.ovrHold else a.hold - 1 })
      let s := if flag then s.countOverrange n else s
      let inRun := match a.first, a.stopAt with
        | some f, some e => decide (f ≤ c ∧ c < e)
        | some f, none => decide (f ≤ c)
        | none, _ => false
      if s.adcState n = 4 && inRun then
        let s := s.updAdc n (fun a => { a with began := true })
        let s := if flag then s.updSource (adcId n) (fun o => { o with ovr := extendRun c o.ovr }) else s
        s.releaseSample (adcId n) c (code, 0) (s.adcStamp n c) (s.adcStamp n (c + 1))
      else s

/-- CONVERTED_SAMPLE (R45–R48, R64): converter `n` takes a sample whose ideal code is `x`. -/
def execConvertedSample (n : Fin 4) (x : Int) (s : State) : Out := .next (s.convert n.val x)

/-- FIRST_ACQUIRED_SAMPLE (R59): the sample with the recorded first counter arrives and release begins. -/
def execFirstAcquiredSample (n : Fin 4) (x : Int) (s : State) : Out :=
  if s.adcState n.val = 4 ∧ (s.adc n.val).first = some (s.adc n.val).count then .next (s.convert n.val x) else .next s

/-- GRANULE_STOP (R62, R103, R117): a stopping converter has reached the end of its granule. -/
def execGranuleStop (n : Fin 4) (s : State) : Out :=
  let n := n.val
  let a := s.adc n
  match a.stopAt with
  | some e =>
    if s.adcState n = 4 ∧ e ≤ a.count then
      let s := (s.endStreams n e).put (R.ADC_STATUS.LAST n) 3
      if a.offAfter then .next (s.adcToOff n) else .next ((s.put (R.ADC_STATUS.STATE n) 2).clearArm n)
    else .next s
  | none => .next s

/-- FS_CHANGE (R90): a new FS_ADJ takes hold at the granule boundary, marked in every stream. -/
def execFsChange (n : Fin 4) (s : State) : Out :=
  let n := n.val
  let a := s.adc n
  match a.fsPending with
  | some v =>
    if a.count % 64 = 0 then
      .next ((s.updAdc n (fun a => { a with fsAdj := v, fsPending := none })).calMark n 1 0x1F 0x1F 1 1 0 true)
    else .next s
  | none => .next s

/-! ### SYNC (R65–R67) -/

/-- R65: a SYNC that reaches the CONV block. -/
def State.sync (s : State) : State :=
  if !s.on R.CONV_SYNC.ARM then s
  else if (List.range 4).any (fun n => s.adcState n == 3 || s.adcState n == 4) then
    (s.put R.CONV_SYNC.IGNORED 1).raiseInst 1 0
  else { (s.put R.CONV_SYNC.ARM 0).put R.CONV_SYNC.DONE 1 with syncRun := some ⟨s.tk.adv / 1024⟩ }

/-- R66, R541: a command SYNC: to the CONV block when SRC = 1; with SYNC_OUT = SOURCE a pulse of four REFCLK periods. -/
def State.commandSync (s : State) : State :=
  let s := if s.get R.KX_CFG.SYNC_OUT = 2 then s.send (.pinPulse 0 0 true s.time 40) else s
  if s.on R.CONV_SYNC.SRC then s.sync else s

/-- COMMAND_SYNC (R65, R66, R541): a write of CONV_SYNC.CMD = 1. -/
def execCommandSync (p : Path) (s : State) : Out := .next (s.gateAction p R.CONV_SYNC (fun s => s.commandSync))

/-- Table 02-9, R7: the effect of a whole word written to CONV_SYNC: where the write's own CMD is accepted, a written ARM = 1
stays. -/
def State.writeConvSync (s : State) (w : Word) : State :=
  let s := s.plainWrite R.CONV_SYNC w
  if bit w.toNat 2 then s.commandSync.put R.CONV_SYNC.ARM (bits w.toNat 0 1) else s

/-- SYNC_EDGE (R65, R541): an edge at SYNC_IN, repeated at SYNC_OUT when it forwards, seen when SRC = 0. -/
def execSyncEdge (s : State) : Out :=
  let s := if s.get R.KX_CFG.SYNC_OUT = 1 then s.send (.pinPulse 0 0 true s.time 40) else s
  .next (if s.on R.CONV_SYNC.SRC then s else s.sync)

/-- The instant of a synchronization is recorded in CONV_SYNC_T0–T2 (R67). -/
def State.recordSync (s : State) (t : Nat) : State :=
  let w := toTime96 t
  (({ s with syncRun := none }.setWord R.CONV_SYNC_T0 (BitVec.ofNat 32 w)).setWord R.CONV_SYNC_T1 (BitVec.ofNat 32 (w / 2 ^ 32))).setWord
    R.CONV_SYNC_T2 (BitVec.ofNat 32 (w / 2 ^ 64))

/-- All four sample counters restart at 0 at instant `t` (R66). -/
def State.restartCounters (s : State) (t : Nat) : State :=
  (List.range 4).foldl (fun s n =>
    let c := (s.adc n).count
    let s := [2 * n, 2 * n + 1].foldl (fun s d => s.updDdc d (fun x => { x with listAt := x.listAt - c })) s
    let s := s.updAdc n (fun a => { a with count := 0, anchorCount := 0, anchorTime := t, past := [] })
    let s := s.updSource (adcId n) (fun o => { steps := o.steps.map (fun x => (0, x.2)) })
    let s := s.updCal n (fun c => { c with lastStep := none })
    if s.spllLocked n then s.put (R.ADC_STATUS.CNT_VALID n) 1 else s) s

/-- The decimators and the NCO phases restart (R107, R114, R126). -/
def State.restartDecimators (s : State) : State :=
  (List.range 8).foldl (fun s d =>
    (s.updDdc d (fun x => { x with phiAt := 0, phi := x.phase * 2 ^ 24 % 2 ^ 48, older := [] })).updSource (ddcId d)
      (fun o => { steps := o.steps.map (fun x => (0, x.2)) })) s

/-- DESIGN CHOICE (log 115): the frame grid of a RUNNING plan on a DDC starts again at sample 0 of the new counters. -/
def State.restartGrids (s : State) : State :=
  (List.range 64).foldl (fun s p =>
    if s.planState p = 3 ∧ (s.plan p).sourceId < 0x2000 then
      s.updPlan p (fun pl => { pl with frame0 := -(pl.fillNext * pl.hop : Nat), stepMarks := pl.stepMarks.map (fun x => (0, x.2)) })
    else s) s

/-- The plans and generators that wait for a synchronization get their start; every other running generator aborts (R36, R468, R471). -/
def State.startOnSync (s : State) (t : Nat) : State :=
  let s := (List.range 64).foldl (fun s p =>
    if s.planState p = 2 ∧ (s.plan p).mode = 3 ∧ (s.plan p).startAt = none then s.updPlan p (fun x => { x with startAt := some t }) else s) s
  let s := [4, 5, 6, 7].foldl (fun s g => s.updSg g (fun x => { x with anchorCount := 0, anchorTime := t })) s
  (List.range 8).foldl (fun s g =>
    if s.sgState g = 2 ∧ (s.sg g).mode = 3 ∧ (s.sg g).startAt = none then s.sgSchedule g (s.sgBall g 0) (s.sg g).readyAt
    else s.sgAbort g 4) s

/-- SYNC_REFERENCE_EDGE (R36, R66, R67, R107, R114, R126, R468, R471): the reference edge, `sub` × 2^-16 ns after the present
tick and eight REFCLK periods or more after the accepted SYNC: all four counters, the decimators and the NCO phases restart;
waiting plans and generators get their start; every other running generator aborts. -/
def execSyncReferenceEdge (sub : Fin 2621440) (s : State) : Out :=
  match s.syncRun with
  | none => .next s
  | some r =>
    let t := s.time + sub.val
    if s.tk.adv / 1024 + sub.val < r.since + nsUnits 80 then .next s
    else .next (((s.recordSync t).restartCounters t).restartDecimators.restartGrids.startOnSync t)

end Machine
end Sys2Proof
end

