-- ==== Sys2Proof/Machine/Calibration.lean ====
section
/-!
DEFINITION. Calibration (chapter 3): foreground calibration, dwells, degraded windows, steps, saving.

Marked choices (log entries): DEDUCED 47; DESIGN CHOICE 137. Each entry of notes/assumptions says safe or unsafe.
-/

namespace Sys2Proof
namespace Machine

/-- R92, R95: a slice fails: degraded mode, or, in a converter already degraded, CONV_FAILED. -/
def State.sliceFails (s : State) (n sl reason : Nat) : State :=
  if (s.cal n).failedSlices.contains sl ∨ s.get (R.CAL_STATUS.BG_STATE n) = 3 then s
  else if s.on (R.ADC_SLICEMAP.DEGRADED n) then
    let s := (s.put (R.CAL_STATUS.BG_STATE n) 3).updAdc n (fun a => { a with failed := true })
    ((s.updCal n (fun c => { c with fgSince := none, fgWaits := false })).raiseInst 3 n).adcForceOff n 3
  else s.loseSlice n sl reason

/-- R81: FG_START written for ADC `n`. -/
def State.fgStart (s : State) (n : Nat) : State :=
  if s.adcState n = 2 then s.startForeground n else s.put (R.CAL_STATUS.CAL_ERR n) 1

/-- FG_START (R81, R96): a write of CAL_CTL.FG_START. -/
def execFgStart (p : Path) (mask : BitVec 4) (s : State) : Out :=
  .next (s.gateAction p R.CAL_CTL (fun s =>
    (List.range 4).foldl (fun s n => if mask.getLsbD n then s.fgStart n else s) s))

/-- R96: SAVE written: ignored while a save is in progress. -/
def State.save (s : State) : State := if s.on (R.CAL_STATUS.SAVE_BUSY 0) then s else s.beginSave

/-- SAVE (R96): a write of CAL_CTL.SAVE = 1. -/
def execSave (p : Path) (s : State) : Out := .next (s.gateAction p R.CAL_CTL (fun s => s.save))

/-- Table 03-5: the effect of a whole word written to CAL_CTL: an ADC whose BG_EN rises resumes background calibration; one in
degraded mode whose BG_EN falls freezes at once, one with a dwell in progress at its end. -/
def State.writeCalCtl (s : State) (w : Word) : State :=
  let old := s.get R.CAL_CTL.BG_EN
  let s := s.plainWrite R.CAL_CTL w
  let s := (List.range 4).foldl (fun s n =>
    let now := bit w.toNat (8 + n)
    if now && !bit old n && 2 ≤ s.adcState n && s.on (R.CAL_STATUS.READY n) && s.get (R.CAL_STATUS.BG_STATE n) == 0 then s.startBackground n
    else if !now && bit old n && s.get (R.CAL_STATUS.BG_STATE n) == 2 then s.stopBackground n
    else s) s
  let s := (List.range 4).foldl (fun s n => if bit w.toNat n then s.fgStart n else s) s
  if bit w.toNat 16 then s.save else s

/-- A foreground calibration's measurements are counted, stored and put in force at once; a slice that fails goes out of service
(R71, R72, R74, R78, R79, R91). The set holds the present value of each trim whose measurement was not accepted. -/
def State.foregroundResult (s : State) (n : Nat) (ms : List Measure) : State :=
  let s := s.countRejects n false ms
  let present := allTrims.map (fun k => (k, trimIn (s.cal n).applied k))
  let s := (s.writeSet n (present ++ acceptedTrims ms)).newTargets n
  let s := s.updCal n (fun c => { c with applied := c.target, app := none, fgSince := none })
  let s := ((s.put (R.CAL_STATUS.FG_STATE n) 2).put (R.CAL_STATUS.READY n) 1).raiseInst 4 n
  (s.failing n ms).foldl (fun s sl => s.sliceFails n sl (failReason ms sl)) s

/-- FOREGROUND_CAL_END (R71–R75, R78, R79, R91, R92): 200 ms after its start a foreground calibration ends with the
measurements `ms`: a set is written, its trims are put in force, READY is set and background calibration starts. -/
def execForegroundCalEnd (n : Fin 4) (ms : List Measure) (s : State) : Out :=
  let n := n.val
  match (s.cal n).fgSince with
  | none => .next s
  | some t =>
    if s.ns < t + 200000000 then .next s
    else
      let s := s.foregroundResult n ms
      let s := if 2 ≤ s.adcState n ∧ s.get (R.CAL_STATUS.BG_STATE n) = 0 then s.startBackground n else s
      .next s.resumeSave

/-- STORED_TRIMS_LOADED (R77): 50 µs after the stored targets were loaded FG_STATE is SKIPPED and the converter may be armed. -/
def execStoredTrimsLoaded (n : Fin 4) (s : State) : Out :=
  let n := n.val
  match (s.cal n).loadSince with
  | some t =>
    if t + 50000 ≤ s.ns then
      let s := s.updCal n (fun c => { c with loadSince := none })
      .next (((s.put (R.CAL_STATUS.FG_STATE n) 3).put (R.CAL_STATUS.READY n) 1).startBackground n)
    else .next s
  | none => .next s

/-- R82: the next dwell of the rotation. -/
def State.nextDwell (s : State) (n : Nat) : State :=
  let d := (s.get (R.CAL_STATUS.DWELL n) + 1) % 17
  let s := if d = 0 then s.satInc (R.CAL_ROT.ROT n) else s
  let s := (s.put (R.CAL_STATUS.DWELL n) d).put (R.ADC_SLICEMAP.OUT_POS n) (if d = 16 then 0x1F else d)
  s.updCal n (fun c => { c with dwellSince := some s.ns })

/-- The measurements of the dwelled slice are counted, stored and put in force; a slice that fails goes out of service (R71, R79,
R83, R91, R92). The application that follows carries CAUSE = TRIM: Table 03-3 names it for a background measurement, while R74
says TEMP of every recomputation. -/
def State.dwellResult (s : State) (n : Nat) (ms : List Measure) : State :=
  let d := s.get (R.CAL_STATUS.DWELL n)
  let ms := ms.filter (fun m => m.slice.val == d && (trimCodes d).contains m.code.val)
  let s := s.countRejects n true ms
  let bad := s.failing n ms
  let acc := (acceptedTrims ms).filter (fun x => !bad.contains (x.1 / 32))
  let s := s.put (R.ADC_SLICEMAP.OUT_POS n) 0x1F
  let s := if acc.isEmpty then s else (s.writeSet n acc).recompute n 0
  bad.foldl (fun s sl => s.sliceFails n sl (failReason ms sl)) s

/-- DWELL_END (R40, R71, R79, R82, R83, R91, R92, R95): a dwell of 62.5 ms ends with the measurements of its slice. -/
def execDwellEnd (n : Fin 4) (ms : List Measure) (s : State) : Out :=
  let n := n.val
  match (s.cal n).dwellSince with
  | none => .next s
  | some t =>
    if s.ns < t + 62500000 ∨ !s.lkUp 1 then .next s
    else
      let s := s.dwellResult n ms
      if s.get (R.CAL_STATUS.BG_STATE n) ≠ 1 then .next s
      else if (s.cal n).fgWaits then
        .next ((s.stopBackground n).updCal n (fun c => { c with fgWaits := false, fgSince := some s.ns }))
      else if !bit (s.get R.CAL_CTL.BG_EN) n then .next (s.stopBackground n)
      else .next (s.nextDwell n)

/-- DEGRADED_WINDOW_END (R93, R95): a 4 s window ends; with enough input power its estimates of OFFSET, GAIN and DELAY become
the targets. -/
def execDegradedWindowEnd (n : Fin 4) (powered : Bool) (ms : List Measure) (s : State) : Out :=
  let n := n.val
  match (s.cal n).windowSince with
  | none => .next s
  | some t =>
    if s.ns < t + 4000000000 then .next s
    else
      let s := s.updCal n (fun c => { c with windowSince := some s.ns })
      if !powered then .next s
      else
        let ms := ms.filter (fun m => m.code.val < 18)
        let bad := s.failing n ms
        let acc := (acceptedTrims ms).filter (fun x => !bad.contains (x.1 / 32))
        let s := if acc.isEmpty then s
          else s.updCal n (fun c => { c with target := acc.foldl (fun m x => SMap.put m x.1 x.2) c.target, cause := 4 })
        .next (bad.foldl (fun s sl => s.sliceFails n sl (failReason ms sl)) s)

/-- CALIBRATION_STEP (R70, R85–R89): the next step of converter `n`, if one is due at this granule boundary. -/
def execCalibrationStep (n : Fin 4) (s : State) : Out := .next (if s.lkUp 1 then s.calStep n.val else s)

/-- SAVE_DONE (R585, R96): the save ends: the older flash copy holds all valid sets with the next SEQ. -/
def execSaveDone (s : State) : Out :=
  if !s.on (R.CAL_STATUS.SAVE_BUSY 0) || !s.lkUp 1 then .next s
  else
    let c0 := (SMap.find? s.calCopies 0).getD {}
    let c1 := (SMap.find? s.calCopies 1).getD {}
    let older := if c1.seq < c0.seq then 1 else 0
    let sets := (List.range 32).filterMap (fun i =>
      if s.on (R.CAL_SETT.VALID (i / 8) (i % 8)) then
        some (i, (s.word (R.CAL_SETT (i / 8) (i % 8))).toNat, (SMap.find? (s.cal (i / 8)).sets (i % 8)).getD {})
      else none)
    let c : CalCopy := { seq := max c0.seq c1.seq + 1, sets := sets }
    .next { s.put (R.CAL_STATUS.SAVE_BUSY 0) 0 with calCopies := SMap.put s.calCopies older c }

end Machine
end Sys2Proof
end

