-- ==== Sys2Proof/Machine/CuCore.lean ====
section
/-!
DEFINITION. The calender units' pipeline (chapter 8): registers, words and their fields, what lands and when, causes and faults,
the issue of one bundle. The instructions are in CuOps.lean.
-/

namespace Sys2Proof
namespace Machine

/-! ### Unit and registers (R247) -/

/-- CU_STATUS.STATE: 0 OFF, 1 WAKING, 2 STOPPED, 3 RUNNING, 4 WAITING, 5 HANDLING, 6 FAULTED. -/
def State.cuState (s : State) (u : Nat) : Nat := s.get (R.CU_STATUS.STATE u)

/-- The bank that issues. -/
def State.cuBankNo (s : State) (u : Nat) : Nat := s.get (R.CU_STATUS.BANK u)

def Cu.bank (c : Cu) (b : Nat) : CuBank := if b = 0 then c.b0 else c.b1
def State.bank (s : State) (u b : Nat) : CuBank := (s.cu u).bank b
def State.updBank (s : State) (u b : Nat) (f : CuBank → CuBank) : State :=
  s.updCu u (fun c => if b = 0 then { c with b0 := f c.b0 } else { c with b1 := f c.b1 })

/-- X0 reads 0. -/
def CuBank.xr (k : CuBank) (r : Nat) : Word := if r = 0 then 0#32 else (SMap.find? k.x r).getD 0#32

/-- A vector register's eight elements. -/
def CuBank.vr (k : CuBank) (r : Nat) : List Int := (SMap.find? k.v r).getD (List.replicate 8 0)

/-- A lane of an accumulator with its saturation state. -/
def CuBank.acc (k : CuBank) (a l : Nat) : Int × Bool := (SMap.find? k.ac (8 * a + l)).getD (0, false)

/-! ### Words (R248, Tables 08-2 and 08-3) -/

/-- One slot's word as the instruction sees it: its unit, bank, the bundle's program word, the slot's 32 bits. -/
structure CuSlot where
  u : Nat
  bank : Nat
  pc : Nat
  w : Nat

def CuSlot.op (c : CuSlot) : Nat := bits c.w 26 6
def CuSlot.xd (c : CuSlot) : Nat := bits c.w 22 4
def CuSlot.xa (c : CuSlot) : Nat := bits c.w 18 4
def CuSlot.xb (c : CuSlot) : Nat := bits c.w 14 4
def CuSlot.imm (c : CuSlot) : Nat := bits c.w 0 18
def CuSlot.off (c : CuSlot) : Int := sext 16 c.w
def CuSlot.q18 (c : CuSlot) : Bool := bit c.w 17
def CuSlot.pi (c : CuSlot) : Bool := bit c.w 16
def CuSlot.target (c : CuSlot) : Nat := bits c.w 0 13
def CuSlot.sel (c : CuSlot) : Nat := bits c.w 0 3
def CuSlot.sh (c : CuSlot) : Nat := bits c.w 10 4
def CuSlot.ac (c : CuSlot) : Nat := bits c.w 24 2
def CuSlot.acN (c : CuSlot) : Nat := bits c.w 20 2
def CuSlot.sh5 (c : CuSlot) : Nat := bits c.w 9 5
def CuSlot.lane (c : CuSlot) : Nat := bits c.w 15 3

/-- R248: whether a slot-A word is defined: its opcode assigned, and the bits that must be 0 are. -/
def slotAOk (w : Nat) : Bool :=
  let op := bits w 26 6
  let z := fun (lsb n : Nat) => bits w lsb n == 0
  if op = 0 then true
  else if 0x01 ≤ op ∧ op ≤ 0x0B ∨ op = 0x31 then z 0 14
  else if op = 0x32 ∨ op = 0x33 then z 0 18
  else if op = 0x10 ∨ op = 0x11 ∨ op = 0x12 ∨ op = 0x15 ∨ op = 0x16 then true
  else if op = 0x13 then z 18 4
  else if op = 0x14 then z 5 13
  else if op = 0x1A ∨ op = 0x1B then true
  else if op = 0x18 ∨ op = 0x19 ∨ op = 0x1C ∨ op = 0x1D then z 17 1
  else if 0x20 ≤ op ∧ op ≤ 0x23 ∨ op = 0x26 then z 13 5
  else if op = 0x24 then z 13 13
  else if op = 0x25 then z 0 18
  else if op = 0x2E then z 1 17
  else if 0x28 ≤ op ∧ op ≤ 0x30 ∨ op = 0x34 then z 3 15
  else false

/-- R248: the same for a slot-B word. -/
def slotBOk (w : Nat) : Bool :=
  let op := bits w 26 6
  let z := fun (lsb n : Nat) => bits w lsb n == 0
  if op = 0 then true
  else if op = 0x03 then z 0 18
  else if 0x01 ≤ op ∧ op ≤ 0x08 then z 0 10
  else if op = 0x15 then z 22 2 && z 1 17
  else if op = 0x18 then z 22 2 && z 1 21
  else if 0x10 ≤ op ∧ op ≤ 0x14 ∨ op = 0x1A then z 22 2 && z 1 13
  else if op = 0x19 then z 14 6 && z 0 9
  else if op = 0x1B ∨ op = 0x1C then z 18 2 && z 0 15
  else if op = 0x1F then z 22 4 && z 13 5
  else false

/-- The bundle at a program word. -/
def Cu.bundle (c : Cu) (pc : Nat) : Nat := ((SMap.find? c.prog pc).getD 0#64).toNat

/-- Whether a bundle is defined in both slots. -/
def bundleOk (b : Nat) : Bool := slotAOk (b % 2 ^ 32) && slotBOk (b / 2 ^ 32)

/-! ### Causes and faults (R265, R268, Table 08-6) -/

/-- A cause pending. -/
def State.cuPend (s : State) (u c : Nat) : State := s.updCu u (fun x => { x with pending := setBit x.pending c true })

/-- ILLEGAL (0) or MEMERR (1) raised by a bundle: pending in bank 0, a fault in bank 1 (R268). -/
def State.cuRaise (s : State) (u bank c : Nat) : State :=
  if bank = 0 then s.cuPend u c
  else s.updCu u (fun x => { x with fault := match x.fault with
                                             | some f => some f
                                             | none => some (c + 1) })

/-- The queue bound to an input port. -/
def State.cuPort? (s : State) (u p : Nat) : Option Nat :=
  if p = 0 then (if s.on (R.CU_INQ.EN_P0 u) then some (s.get (R.CU_INQ.Q_P0 u)) else none)
  else (if s.on (R.CU_INQ.EN_P1 u) then some (s.get (R.CU_INQ.Q_P1 u)) else none)

/-- The oldest unread barge of a queue and the place of its next cell, once that cell may be taken (R271, R423). -/
def State.nextCell? (s : State) (q : Nat) : Option (QBarge × Nat) :=
  if s.qstate q = qActive ∨ s.qstate q = qClosing then
    match (s.queue q).barges with
    | b :: _ =>
      let k := b.total - b.cells.length
      if b.begun then (if k < b.visible then some (b, k) else none)
      else match s.beginBarge? q with
        | some b => if k < b.visible then some (b, k) else none
        | none => none
    | [] => none
  else none

/-- Cause INQ: a level while a named input port has a cell ready. -/
def State.cuInq (s : State) (u : Nat) : Bool :=
  [0, 1].any (fun p => bit (s.get (R.CU_EVCFG.INQ_PORTS u)) p && (match s.cuPort? u p with
    | some q => (s.nextCell? q).isSome
    | none => false))

/-- PENDING: bit c for cause c. -/
def State.cuPending (s : State) (u : Nat) : Nat := setBit (s.cu u).pending 6 (s.cuInq u)

/-- What is due at the next bundle boundary (R266, R268): a fault with its FCAUSE, or an event with its cause. -/
inductive CuDue where
  | fault (f : Nat)
  | event (c : Nat)
deriving DecidableEq, Repr

def State.cuDue? (s : State) (u : Nat) : Option CuDue :=
  let st := s.cuState u
  match (s.cu u).fault with
  | some f => if 3 ≤ st ∧ st ≤ 5 then some (.fault f) else none
  | none =>
    if (st = 3 ∨ st = 4) ∧ (s.cu u).b0.delay = 0 then
      let p := s.cuPending u
      let en := s.get (R.CU_EVCFG.EVEN u)
      match (List.range 8).find? (fun c => bit p c && (bit en c || c < 2)) with
      | some c => if bit en c then some (.event c) else some (.fault (c + 1))
      | none => none
    else none

/-! ### What lands (R254–R260) -/

/-- An instruction's effect after a latency. -/
def State.later (s : State) (c : CuSlot) (l : Nat) (e : CuEff) : State :=
  s.updCu c.u (fun x => { x with writes := x.writes ++ [⟨l, c.bank, e⟩] })

/-- FLAGS bits set. -/
def State.setFlags (s : State) (u b f : Nat) : State :=
  let r := if b = 0 then R.CU_FLAGS.FLAGS0 u else R.CU_FLAGS.FLAGS1 u
  s.put r (s.get r ||| f)

/-- R258: the headroom of an element. -/
def headroom (v : Int) : Nat := ((List.range 18).reverse.find? (fun h => v.natAbs < 2 ^ (17 - h))).getD 0

/-- The accumulator's range (R252). -/
def accMax : Int := 2 ^ 47 - 1
def accMin : Int := -(2 ^ 47)

/-- R256: a lane enters the saturated state: its ACCSAT bit, the cause, and the device event where it is enabled. -/
def State.accSat (s : State) (u b a l : Nat) : State :=
  let key := if b = 0 then R.CU_LSTAT0 u else R.CU_LSTAT1 u
  let s := (s.setWord key (BitVec.ofNat 32 (setBit (s.word key).toNat (8 * a + l) true))).cuPend u 2
  if s.on (R.CU_CTL.ACCSAT_EV_EN u) then s.raiseInst 98 u else s

/-- A lane given a value and a saturation state. -/
def State.setAccLane (s : State) (u b a l : Nat) (v : Int × Bool) : State :=
  let was := ((s.bank u b).acc a l).2
  let s := s.updBank u b (fun k => { k with ac := SMap.put k.ac (8 * a + l) v })
  if v.2 && !was then s.accSat u b a l else s

/-- R254: products accumulated into one lane. -/
def accumulate (v : Int × Bool) (d : Int) : Int × Bool :=
  if v.2 then v
  else
    let t := v.1 + d
    if t < accMin then (accMin, true) else if accMax < t then (accMax, true) else (t, false)

/-- One instruction's effect as it lands. -/
def State.landEff (s : State) (u b : Nat) (e : CuEff) : State :=
  match e with
  | .x r w => if r = 0 then s else s.updBank u b (fun k => { k with x := SMap.put k.x r w })
  | .v r es f bx =>
    let s := s.updBank u b (fun k => { k with
      v := SMap.put k.v r es
      bx := if bx then es.foldl (fun m v => min m (headroom v)) k.bx else k.bx })
    if f = 0 then s else s.setFlags u b f
  | .acc a ds => (List.range 8).foldl (fun s l => s.setAccLane u b a l (accumulate ((s.bank u b).acc a l) (ds.getD l 0))) s
  | .accSet a ls => (List.range 8).foldl (fun s l => s.setAccLane u b a l (ls.getD l (0, false))) s
  | .stamp t => s.updBank u b (fun k => { k with stamp := t % 2 ^ 96 })
  | .lstat n w =>
    let key := if n = 0 then R.CU_LSTAT0 u else R.CU_LSTAT1 u
    s.setWord key (s.word key &&& ~~~w)
  | .flags w =>
    let r := if b = 0 then R.CU_FLAGS.FLAGS0 u else R.CU_FLAGS.FLAGS1 u
    s.put r (s.get r &&& (3 - w % 4))
  | .bxReset => s.updBank u b (fun k => { k with bx := 17 })

/-- Whether an effect is MTS clearing ACCSAT or FLAGS bits. -/
def CuEff.clears : CuEff → Bool
  | .lstat _ _ => true
  | .flags _ => true
  | _ => false

/-- R259, R260: the end of a cycle: what is due lands, in issue order; a bit that MTS clears in the cycle in which it is set stays set
(R6, R256). -/
def State.cuLand (s : State) (u : Nat) : State :=
  let ws := (s.cu u).writes
  let due := ws.filter (fun w => w.left ≤ 1)
  let s := s.updCu u (fun x => { x with
    writes := (ws.filter (fun w => 1 < w.left)).map (fun w => { w with left := w.left - 1 }) })
  (due.filter (fun w => w.eff.clears) ++ due.filter (fun w => !w.eff.clears)).foldl (fun s w => s.landEff u w.bank w.eff) s

/-- One cycle of a unit. -/
def State.cuCycle (s : State) (u : Nat) : State := (s.cuLand u).inc (R.CU_CYCLE.CYCLE u)

/-- `n` cycles. -/
def State.cuCycles (s : State) (u : Nat) : Nat → State
  | 0 => s
  | n + 1 => (s.cuCycle u).cuCycles u n

/-- The instructions in flight complete (R279, R280): no latency exceeds 8. -/
def State.cuDrain (s : State) (u : Nat) : State := (List.range 8).foldl (fun s _ => s.cuLand u) s

/-! ### Stops and faults (R246, R268, R279) -/

/-- A unit stops in a state: what is in flight completes, and what was due is dropped with the run. -/
def State.cuHalted (s : State) (u st : Nat) : State :=
  ((s.cuDrain u).put (R.CU_STATUS.STATE u) st).updCu u (fun x => { x with
    mulBusy := false, fault := none, b0 := { x.b0 with delay := 0, target := none }
    b1 := { x.b1 with delay := 0, target := none, rete := false } })

/-- R285: the CU_STOP orders that wait for a unit to be STOPPED complete, with the stop time, PC0 and the bank. -/
def State.cuStopsDone (s : State) (u : Nat) : State :=
  if s.cuState u ≠ 2 then s
  else (s.orders.filter (fun o => o.opcode == 0x0603 && o.u 16 1 == u && o.phase == .running)).foldl (fun s o =>
    s.retireWith o (if o.late then stLate else stOk) 0
      [(20, time96Bytes s.time), (32, leBytes 4 (s.get (R.CU_PC.PC0 u))), (36, leBytes 4 (s.cuBankNo u))]) s

/-- STOP: RUNNING, WAITING or HANDLING becomes STOPPED. -/
def State.cuStop (s : State) (u : Nat) : State :=
  let st := s.cuState u
  if 3 ≤ st ∧ st ≤ 5 then (s.cuHalted u 2).cuStopsDone u else s

/-- R280: a STOP that reaches a unit at a time. -/
def State.cuStopAt (s : State) (u t : Nat) : State := (s.cuStop u).updCu u (fun x => { x with stopAt := some t })

/-- The PC of a unit's bundle last issued. -/
def State.cuPc (s : State) (u : Nat) : Nat := if s.cuBankNo u = 0 then s.get (R.CU_PC.PC0 u) else s.get (R.CU_PC.PC1 u)

/-- A fault (Table 08-8): the unit goes FAULTED, and CU_FAULT is raised with the cause and the PC, whose places in INFO no rule gives. -/
def State.cuFault (s : State) (u f : Nat) : State :=
  let s := (s.cuHalted u 6).put (R.CU_STATUS.FCAUSE u) f
  s.raiseWith 97 u [f, s.cuPc u] f

/-! ### Sequence, branches and loops (R262–R264) -/

/-- The word after a bundle, and the loop levels then open. -/
def nextWord (pc : Nat) : List CuLoop → Nat × List CuLoop
  | [] => ((pc + 1) % 8192, [])
  | l :: t =>
    if pc = l.stop then
      (if 1 < l.left then (l.start, { l with left := l.left - 1 } :: t) else nextWord pc t)
    else ((pc + 1) % 8192, l :: t)

/-- R264: the levels that a taken branch leaves open. -/
def keepLoops (t : Nat) (ls : List CuLoop) : List CuLoop := ls.filter (fun l => l.start ≤ t && t ≤ l.stop)

/-- R263: whether control instructions are barred from a bundle: a delay slot, or the END bundle of a loop body. -/
def CuBank.barred (k : CuBank) (pc : Nat) : Bool := 0 < k.delay || k.loops.any (fun l => l.stop == pc)

/-- What the control instruction of a bundle does to the sequence. -/
inductive CuCtl where
  | none
  | branch (target : Option Nat)
  | rete
  | wait
  | halt

/-- What a LOOP opens: a level, or with count 0 the word at which issue goes on. -/
inductive CuOpen where
  | none
  | level (l : CuLoop)
  | skip (w : Nat)

/-- RETE done (R267): bank 0 resumes. -/
def State.cuReturn (s : State) (u : Nat) : State :=
  (((s.updBank u 1 (fun k => { k with delay := 0, rete := false })).put (R.CU_STATUS.BANK u) 0).put (R.CU_STATUS.STATE u) 3)

/-- The sequence goes on after a bundle at `pc`. -/
def State.cuAdvance (s : State) (u b pc : Nat) (ctl : CuCtl) (op : CuOpen) : State :=
  let k := s.bank u b
  let nx := nextWord pc k.loops
  let go := fun (w : Nat) (ls : List CuLoop) => s.updBank u b (fun k => { k with pc := w, loops := ls })
  let s := match op with
    | .none => go nx.1 nx.2
    | .level l => go nx.1 (l :: nx.2)
    | .skip w => go w nx.2
  if k.delay = 1 then
    if k.rete then s.cuReturn u
    else match k.target with
      | some t => s.updBank u b (fun k => { k with delay := 0, target := none, pc := t, loops := keepLoops t k.loops })
      | none => s.updBank u b (fun k => { k with delay := 0 })
  else if 1 < k.delay then s.updBank u b (fun k => { k with delay := k.delay - 1 })
  else match ctl with
    | .none => s
    | .branch t => s.updBank u b (fun k => { k with delay := 2, target := t })
    | .rete => s.updBank u b (fun k => { k with delay := 2, target := none, rete := true })
    | .wait => s.put (R.CU_STATUS.STATE u) 4
    | .halt => ((s.cuHalted u 2).raiseInst 96 u).cuStopsDone u

end Machine
end Sys2Proof
end

