-- ==== Sys2Proof/Machine/CuOps.lean ====
section
/-!
DEFINITION. The calender units' instructions (Tables 08-4 and 08-5): the effect of each on its unit at issue, what it leaves in
flight, and the issue of a bundle.

Marked choices (log entries): DEDUCED 61, 62, 64, 65, 66; DESIGN CHOICE 29, 63. Each entry of notes/assumptions says safe or
unsafe.
-/

namespace Sys2Proof
namespace Machine

/-- What an instruction meets that is not in the state: how a read of data memory came out (R246), and the part of a tick by
which the present instant lies past it. -/
structure CuEnv where
  ecc : LineRead := .clean
  sub : Nat := 0

/-! ### Operands -/

def State.xa (s : State) (c : CuSlot) : Word := (s.bank c.u c.bank).xr c.xa
def State.xb (s : State) (c : CuSlot) : Word := (s.bank c.u c.bank).xr c.xb
def State.va (s : State) (c : CuSlot) : List Int := (s.bank c.u c.bank).vr c.xa
def State.vb (s : State) (c : CuSlot) : List Int := (s.bank c.u c.bank).vr c.xb

/-- A scalar result. -/
def State.setX (s : State) (c : CuSlot) (l : Nat) (w : Word) : State := s.later c l (.x c.xd w)

/-- An ILLEGAL case of an instruction, which acts as NOP. -/
def State.illegal (s : State) (c : CuSlot) : State := s.cuRaise c.u c.bank 0

/-- IMM18 zero-extended, and signed. -/
def CuSlot.immU (c : CuSlot) : Word := BitVec.ofNat 32 c.imm
def CuSlot.immS (c : CuSlot) : Word := BitVec.ofInt 32 (sext 18 c.imm)

/-! ### Slot A: arithmetic -/

def opAdd (c : CuSlot) (s : State) : State := s.setX c 1 (s.xa c + s.xb c)
def opSub (c : CuSlot) (s : State) : State := s.setX c 1 (s.xa c - s.xb c)
def opAnd (c : CuSlot) (s : State) : State := s.setX c 1 (s.xa c &&& s.xb c)
def opOr (c : CuSlot) (s : State) : State := s.setX c 1 (s.xa c ||| s.xb c)
def opXor (c : CuSlot) (s : State) : State := s.setX c 1 (s.xa c ^^^ s.xb c)
def opShl (c : CuSlot) (s : State) : State := s.setX c 1 (s.xa c <<< ((s.xb c).toNat % 32))
def opShr (c : CuSlot) (s : State) : State := s.setX c 1 (s.xa c >>> ((s.xb c).toNat % 32))
def opSra (c : CuSlot) (s : State) : State := s.setX c 1 ((s.xa c).sshiftRight ((s.xb c).toNat % 32))
def opMul (c : CuSlot) (s : State) : State := s.setX c 3 (s.xa c * s.xb c)
def opSlt (c : CuSlot) (s : State) : State := s.setX c 1 (if (s.xa c).toInt < (s.xb c).toInt then 1#32 else 0#32)
def opSltu (c : CuSlot) (s : State) : State := s.setX c 1 (if (s.xa c).toNat < (s.xb c).toNat then 1#32 else 0#32)
def opAddi (c : CuSlot) (s : State) : State := s.setX c 1 (s.xa c + c.immS)
def opAndi (c : CuSlot) (s : State) : State := s.setX c 1 (s.xa c &&& c.immU)
def opOri (c : CuSlot) (s : State) : State := s.setX c 1 (s.xa c ||| c.immU)
def opLui (c : CuSlot) (s : State) : State := s.setX c 1 (c.immU <<< 14)
def opShli (c : CuSlot) (s : State) : State := s.setX c 1 (s.xa c <<< (c.imm % 32))
def opShri (c : CuSlot) (s : State) : State := s.setX c 1 (s.xa c >>> (c.imm % 32))
def opSrai (c : CuSlot) (s : State) : State := s.setX c 1 ((s.xa c).sshiftRight (c.imm % 32))

/-! ### Slot A: memory (R245, R246) -/

/-- The size of the data memory. -/
def cuDataBytes : Nat := 0x70000

/-- The data address of a load or store. -/
def State.cuAddr (s : State) (c : CuSlot) : Nat := (s.xa c + BitVec.ofInt 32 c.off).toNat

/-- R245: whether an access of `n` bytes with an alignment is refused. -/
def accessBad (a n align : Nat) : Bool := cuDataBytes < a + n || a % align ≠ 0

/-- Post-increment: the base register, latency 1. -/
def State.postInc (s : State) (c : CuSlot) (n : Nat) : State :=
  if c.pi then s.later c 1 (.x c.xa (s.xa c + BitVec.ofNat 32 n)) else s

/-- A load of `n` bytes: its bytes, and the state after the ECC check (R246): an uncorrectable error returns the data as read,
which is an open value. -/
def State.cuLoadBytes (s : State) (c : CuSlot) (e : CuEnv) (a n : Nat) : List Byte × State :=
  let bs := Mem.reads 0#8 (s.cu c.u).data a n
  match e.ecc with
  | .clean => (bs, s)
  | .corrected => (bs, s.satInc (R.CU_ECC.CE c.u))
  | .uncorrectable =>
    let r := s.fresh
    (leBytes n r.1, (r.2.satInc (R.CU_ECC.UE c.u)).cuRaise c.u c.bank 1)

/-- A load: refused with ILLEGAL, or its effect after latency 4. -/
def State.cuLoad (s : State) (c : CuSlot) (e : CuEnv) (n align : Nat) (f : List Byte → CuEff) : State :=
  let a := s.cuAddr c
  let s' := s.postInc c n
  if accessBad a n align then s'.illegal c
  else
    let r := s'.cuLoadBytes c e a n
    r.2.later c 4 (f r.1)

/-- A store: refused with ILLEGAL, or made. -/
def State.cuStore (s : State) (c : CuSlot) (align : Nat) (bs : List Byte) : State :=
  let a := s.cuAddr c
  let s := s.postInc c bs.length
  if accessBad a bs.length align then s.illegal c
  else s.updCu c.u (fun x => { x with data := Mem.writes 0#8 x.data a bs })

/-- Eight elements from memory: H16 into bits 17:2, Q18 bits 17:0 of each word. -/
def elements (q18 : Bool) (bs : List Byte) : List Int :=
  (List.range 8).map (fun i => if q18 then sext 18 (field bs (4 * i) 4) else sext 16 (field bs (2 * i) 2) * 4)

/-- Eight elements to memory: H16 element bits 17:2, Q18 sign-extended. -/
def elementBytes (q18 : Bool) (es : List Int) : List Byte :=
  es.flatMap (fun e => if q18 then leBytes 4 (wrap 32 e) else leBytes 2 (wrap 16 (e / 4)))

def opLdw (e : CuEnv) (c : CuSlot) (s : State) : State := s.cuLoad c e 4 4 (fun bs => .x c.xd (BitVec.ofNat 32 (leNat bs)))
def opStw (c : CuSlot) (s : State) : State := s.cuStore c 4 (leBytes 4 ((s.bank c.u c.bank).xr c.xd).toNat)
def opVld (e : CuEnv) (c : CuSlot) (s : State) : State :=
  let n := if c.q18 then 32 else 16
  s.cuLoad c e n n (fun bs => .v c.xd (elements c.q18 bs) 0 false)
def opVst (c : CuSlot) (s : State) : State :=
  s.cuStore c (if c.q18 then 32 else 16) (elementBytes c.q18 ((s.bank c.u c.bank).vr c.xd))
def opLdt (e : CuEnv) (c : CuSlot) (s : State) : State := s.cuLoad c e 12 4 (fun bs => .stamp (leNat bs))
def opStt (c : CuSlot) (s : State) : State := s.cuStore c 4 (leBytes 12 (s.bank c.u c.bank).stamp)

/-! ### Slot A: control (R262, R263, R266, R267, R279)

The B form names XA in bits 25:22 and XB in bits 21:18. -/

def State.bra (s : State) (c : CuSlot) : Word := (s.bank c.u c.bank).xr c.xd
def State.brb (s : State) (c : CuSlot) : Word := (s.bank c.u c.bank).xr c.xa

/-- Whether a control instruction is barred from its bundle (R263). -/
def State.cuBarred (s : State) (c : CuSlot) : Bool := (s.bank c.u c.bank).barred c.pc

/-- A control instruction: ILLEGAL where it is barred. -/
def State.cuControl (s : State) (c : CuSlot) (x : CuCtl) : CuCtl × State := if s.cuBarred c then (.none, s.illegal c) else (x, s)

/-- A conditional branch. -/
def State.cuBranch (s : State) (c : CuSlot) (taken : Bool) : CuCtl × State :=
  s.cuControl c (.branch (if taken then some c.target else none))

def opBeq (c : CuSlot) (s : State) : CuCtl × State := s.cuBranch c (s.bra c == s.brb c)
def opBne (c : CuSlot) (s : State) : CuCtl × State := s.cuBranch c (s.bra c != s.brb c)
def opBlt (c : CuSlot) (s : State) : CuCtl × State := s.cuBranch c (decide ((s.bra c).toInt < (s.brb c).toInt))
def opBge (c : CuSlot) (s : State) : CuCtl × State := s.cuBranch c (decide ((s.brb c).toInt ≤ (s.bra c).toInt))
def opJmp (c : CuSlot) (s : State) : CuCtl × State := s.cuBranch c true
def opJr (c : CuSlot) (s : State) : CuCtl × State := s.cuControl c (.branch (some ((s.bra c).toNat % 8192)))
def opCall (c : CuSlot) (s : State) : CuCtl × State :=
  let r := s.cuBranch c true
  if s.cuBarred c then r else (r.1, r.2.later c 1 (.x 15 (BitVec.ofNat 32 ((c.pc + 3) % 8192))))
def opWait (c : CuSlot) (s : State) : CuCtl × State := if c.bank = 0 then s.cuControl c .wait else (.none, s.illegal c)
def opRete (c : CuSlot) (s : State) : CuCtl × State := if c.bank = 1 then s.cuControl c .rete else (.none, s.illegal c)
def opHalt (c : CuSlot) (s : State) : CuCtl × State := s.cuControl c .halt

/-! ### Slot A: special registers, time and triggers -/

/-- The special registers (MFS). -/
def State.cuSpecial (s : State) (c : CuSlot) : Nat → Nat
  | 0 => (s.word (R.CU_LSTAT0 c.u)).toNat
  | 1 => (s.word (R.CU_LSTAT1 c.u)).toNat
  | 2 => s.get (if c.bank = 0 then R.CU_FLAGS.FLAGS0 c.u else R.CU_FLAGS.FLAGS1 c.u)
  | 3 => (s.bank c.u c.bank).bx
  | 4 => (s.cu c.u).cause
  | 5 => s.get (R.CU_CYCLE.CYCLE c.u)
  | 6 => c.u
  | _ => s.cuPending c.u

def opMfs (c : CuSlot) (s : State) : State := s.setX c 1 (BitVec.ofNat 32 (s.cuSpecial c c.sel))
def opMts (c : CuSlot) (s : State) : State :=
  match c.sel with
  | 0 => s.later c 1 (.lstat 0 (s.xa c))
  | 1 => s.later c 1 (.lstat 1 (s.xa c))
  | 2 => s.later c 1 (.flags (s.xa c).toNat)
  | 3 => s.later c 1 .bxReset
  | _ => s.illegal c
def opTnow (e : CuEnv) (c : CuSlot) (s : State) : State := s.later c 4 (.stamp (toTime96 (s.time + e.sub)))

/-- R278, R521: a TRIG's occurrence, selector 0xB0 + 2u + SEL[0]; a STAMP whose NS field is out of range is replaced by the
timekeeper's time, with QUAL.REF = 2. -/
def opTrig (e : CuEnv) (c : CuSlot) (s : State) : State :=
  let w := (s.bank c.u c.bank).stamp
  let sel := 0xB0 + 2 * c.u + c.sel % 2
  if time96Ok w then s.eventOccur sel (ofTime96 w) (s.qual 4) else s.eventOccur sel (s.time + e.sub) (s.qual 2)

/-- RDTRG: the present level of a level source, 0 for any other selector. -/
def opRdtrg (c : CuSlot) (s : State) : State :=
  let sel := (s.xa c).toNat % 512
  s.setX c 4 (if selOk sel && selLevel sel && s.condition sel then 1#32 else 0#32)

/-! ### Slot A: cells and barges (R271–R275) -/

/-- R271: a handle. -/
def cellHandle (q epoch cell : Nat) : Nat := cell + q * 2 ^ 17 + epoch * 2 ^ 29 + 2 ^ 31

/-- The next cell of a queue popped by a unit: it stays allocated, tagged POPPED, with its bytes. -/
def State.popCell (s : State) (q u : Nat) : Option Nat × State :=
  match s.nextCell? q with
  | none => (none, s)
  | some (b, k) =>
    match b.cells with
    | [] => (none, s)
    | cell :: rest =>
      let tag := (SMap.find? s.cells cell).getD { queue := q, epoch := s.get (R.QUEUE_STAT.EPOCH q) }
      let bs := ((bargeBytes b.barge).drop (256 * k)).take 256
      let s := { s with cells := SMap.put s.cells cell { tag with popped := true, popper := u, data := bs, lastOfBarge := rest.isEmpty } }
      let s := s.updQueue q (fun qu => { qu with barges := match qu.barges with
        | x :: t => if rest.isEmpty then t else { x with cells := rest, begun := true } :: t
        | [] => [] })
      (some (cellHandle q tag.epoch cell), s.cellConsumed q)

def opQpop (c : CuSlot) (s : State) : State :=
  match s.cuPort? c.u (c.sel % 2) with
  | none => s.setX c 4 0#32
  | some q =>
    let r := s.popCell q c.u
    r.2.setX c 4 (BitVec.ofNat 32 (r.1.getD 0))

/-- The cell, queue and epoch of a handle. -/
def handleCell (h : Nat) : Nat := bits h 0 17
def handleQueue (h : Nat) : Nat := bits h 17 12
def handleEpoch (h : Nat) : Nat := bits h 29 2

/-- The tag of a cell that a handle names and a unit has popped. -/
def State.poppedBy? (s : State) (u h : Nat) : Option CellTag :=
  match SMap.find? s.cells (handleCell h) with
  | some t => if t.queue = handleQueue h ∧ t.epoch = handleEpoch h ∧ t.popped ∧ t.popper = u then some t else none
  | none => none

/-- R272: QRD. The low 8 bits of the data address are not looked at. -/
def opQrd (c : CuSlot) (s : State) : State :=
  let h := (s.xb c).toNat
  let a := (s.xa c).toNat / 256 * 256
  if 4 ≤ (s.cu c.u).copies.length then s.setX c 4 1#32
  else match if bit h 31 then s.poppedBy? c.u h else none with
    | none => s.setX c 4 2#32
    | some t =>
      if accessBad a 256 256 then s.illegal c
      else (s.updCu c.u (fun x => { x with copies := x.copies ++ [⟨handleCell h, a, t.data⟩] })).setX c 4 0#32

/-- R273: the status of a QFREE. -/
def State.freeStatus (s : State) (u h : Nat) : Nat :=
  match SMap.find? s.cells (handleCell h) with
  | none => 1
  | some t =>
    if s.cuPort? u 0 ≠ some (handleQueue h) ∧ s.cuPort? u 1 ≠ some (handleQueue h) ∨ (s.poppedBy? u h).isNone then 2
    else if (s.cu u).copies.any (fun k => k.cell == handleCell h) then 3
    else if t.popped then 0 else 2

/-- R273, R426: QFREE: a double free and a foreign free are reported by the pool. -/
def opQfree (c : CuSlot) (s : State) : State :=
  let h := (s.xa c).toNat
  let st := s.freeStatus c.u h
  let cell := handleCell h
  let s' := match st with
    | 0 => match SMap.find? s.cells cell with
      | some t => s.releaseCell cell t
      | none => s
    | 1 => ((s.queueErr 1 (handleQueue h) cell).put (R.QUEUE_STAT.DF_SEEN (handleQueue h)) 1).raiseInst 227 (handleQueue h)
    | 2 => match SMap.find? s.cells cell with
      | some t => ((s.queueErr 2 t.queue cell).put (R.QUEUE_STAT.FF_SEEN t.queue) 1).raiseInst 228 t.queue
      | none => s
    | _ => s
  s'.setX c 8 (BitVec.ofNat 32 st)

/-- R275: whether a send block is valid. -/
def sendOk (b : List Byte) : Bool :=
  field b 0 2 / 4096 == 0 && field b 4 4 % 8 == 0 && field b 8 4 % 8 == 0 && field b 4 4 ≤ 65536
    && field b 8 4 + field b 4 4 ≤ cuDataBytes && field b 2 2 < 0x8000 && time96Ok (field b 16 12)

/-- R275: SEND; the block lies at an 8-aligned address within data memory. -/
def opSend (c : CuSlot) (s : State) : State :=
  let a := (s.xa c).toNat
  let b := Mem.reads 0#8 (s.cu c.u).data a 48
  if 4 ≤ (s.cu c.u).sends.length then s.setX c 4 1#32
  else if a % 8 ≠ 0 || cuDataBytes < a + 48 || !sendOk b then s.setX c 4 2#32
  else (s.updCu c.u (fun x => { x with sends := x.sends ++ [⟨a, c.bank, c.pc⟩] })).setX c 4 0#32

def opQstat (c : CuSlot) (s : State) : State :=
  let x := s.cu c.u
  s.setX c 1 (BitVec.ofNat 32 (x.copies.length % 8 + x.sends.length % 8 * 16))

/-! ### Slot B: vectors (R250, R252) -/

/-- Saturation to 18 bits, and whether it was needed. -/
def sat18 (x : Int) : Int × Bool :=
  if x < -(2 ^ 17) then (-(2 ^ 17), true) else if 2 ^ 17 - 1 < x then (2 ^ 17 - 1, true) else (x, false)

/-- A vector result narrowed element by element; `flag` is the FLAGS bit a saturation sets. -/
def State.narrow (s : State) (c : CuSlot) (l vd flag : Nat) (bx : Bool) (xs : List Int) : State :=
  let ys := xs.map sat18
  s.later c l (.v vd (ys.map (fun y => y.1)) (if ys.any (fun y => y.2) then flag else 0) bx)

/-- Element by element: a sum or difference, shifted right. -/
def vsum (sh : Nat) (a b : List Int) : List Int := (List.zipWith (fun x y => x + y) a b).map (fun x => x / 2 ^ sh)
def vdiff (sh : Nat) (a b : List Int) : List Int := (List.zipWith (fun x y => x - y) a b).map (fun x => x / 2 ^ sh)

def opVadd (c : CuSlot) (s : State) : State := s.narrow c 2 c.xd 1 false (vsum c.sh (s.va c) (s.vb c))
def opVsub (c : CuSlot) (s : State) : State := s.narrow c 2 c.xd 1 false (vdiff c.sh (s.va c) (s.vb c))
def opVmov (c : CuSlot) (s : State) : State := s.later c 2 (.v c.xd (s.va c) 0 false)
def opVswap (c : CuSlot) (s : State) : State :=
  let a := s.va c
  s.later c 2 (.v c.xd ((List.range 8).map (fun l => a.getD (if l % 2 = 0 then l + 1 else l - 1) 0)) 0 false)
def opVconj (c : CuSlot) (s : State) : State :=
  let a := s.va c
  s.narrow c 2 c.xd 1 false ((List.range 8).map (fun l => if l % 2 = 0 then a.getD l 0 else -a.getD l 0))
def opVbf (c : CuSlot) (s : State) : State :=
  if c.xd % 2 = 1 then s.illegal c
  else (s.narrow c 2 c.xd 1 true (vsum c.sh (s.va c) (s.vb c))).narrow c 2 (c.xd + 1) 1 true (vdiff c.sh (s.va c) (s.vb c))
def opVspl (c : CuSlot) (s : State) : State :=
  s.later c 2 (.v c.xd (List.replicate 8 (sext 18 (s.xa c).toNat)) 0 false)

/-! ### Slot B: multiply class (R250, R251, R254) -/

/-- Per pair: real and imaginary parts made by a function of the pair's four values. -/
def pairwise (f : Int → Int → Int → Int → Int × Int) (a b : List Int) : List Int :=
  (List.range 4).flatMap (fun i =>
    let r := f (a.getD (2 * i) 0) (a.getD (2 * i + 1) 0) (b.getD (2 * i) 0) (b.getD (2 * i + 1) 0)
    [r.1, r.2])

/-- The complex product, and the product with the conjugate. -/
def cmul (ar ai br bi : Int) : Int × Int := (ar * br - ai * bi, ar * bi + ai * br)
def cmulJ (ar ai br bi : Int) : Int × Int := (ar * br + ai * bi, ai * br - ar * bi)

/-- R251: a multiply-class instruction acts as NOP with ILLEGAL in the cycle after a complex one. -/
def State.multiply (s : State) (c : CuSlot) (busy : Bool) (f : State → State) : State := if busy then s.illegal c else f s

/-- A complex multiply occupies the multipliers for the next cycle too. -/
def State.occupy (s : State) (c : CuSlot) : State := s.updCu c.u (fun x => { x with mulBusy := true })

def opVcmul (busy : Bool) (c : CuSlot) (s : State) : State :=
  s.multiply c busy (fun s => (s.narrow c 4 c.xd 1 true ((pairwise cmul (s.va c) (s.vb c)).map (fun p => p / 2 ^ (17 + c.sh)))).occupy c)
def opVmac (busy : Bool) (c : CuSlot) (s : State) : State :=
  s.multiply c busy (fun s => s.later c 4 (.acc c.ac (List.zipWith (fun x y => x * y) (s.va c) (s.vb c))))
def opVmsu (busy : Bool) (c : CuSlot) (s : State) : State :=
  s.multiply c busy (fun s => s.later c 4 (.acc c.ac (List.zipWith (fun x y => -(x * y)) (s.va c) (s.vb c))))
def opVmul (busy : Bool) (c : CuSlot) (s : State) : State :=
  s.multiply c busy (fun s => s.later c 4 (.accSet c.ac (List.zipWith (fun x y => (x * y, false)) (s.va c) (s.vb c))))
def opVcmac (busy : Bool) (c : CuSlot) (s : State) : State :=
  s.multiply c busy (fun s => (s.later c 4 (.acc c.ac (pairwise cmul (s.va c) (s.vb c)))).occupy c)
def opVcmacj (busy : Bool) (c : CuSlot) (s : State) : State :=
  s.multiply c busy (fun s => (s.later c 4 (.acc c.ac (pairwise cmulJ (s.va c) (s.vb c)))).occupy c)
def opVsq (busy : Bool) (c : CuSlot) (s : State) : State :=
  s.multiply c busy (fun s => s.later c 4 (.acc c.ac ((s.va c).map (fun x => x * x))))

/-! ### Slot B: accumulators (R255, R257) -/

def opAclr (c : CuSlot) (s : State) : State := s.later c 4 (.accSet c.ac (List.replicate 8 (0, false)))

/-- R255: the sum of lanes: saturated when one of them is, with the sign of the lowest such lane, or when the sum overflows. -/
def reduceLanes (ls : List (Int × Bool)) : Int × Bool :=
  match ls.find? (fun v => v.2) with
  | some v => v
  | none => accumulate (0, false) ((ls.map (fun v => v.1)).foldl (fun x y => x + y) 0)

def opAred (c : CuSlot) (s : State) : State :=
  let ls := (List.range 8).map (fun l => (s.bank c.u c.bank).acc c.ac l)
  let evens := [0, 2, 4, 6].map (fun i => ls.getD i (0, false))
  let odds := [1, 3, 5, 7].map (fun i => ls.getD i (0, false))
  let out := if bit c.w 0 then [reduceLanes evens, reduceLanes odds] else [reduceLanes ls]
  s.later c 4 (.accSet c.ac (out ++ List.replicate (8 - out.length) (0, false)))

def opVnar (c : CuSlot) (s : State) : State :=
  s.narrow c 3 c.xd 2 true ((List.range 8).map (fun l => ((s.bank c.u c.bank).acc c.acN l).1 / 2 ^ c.sh5))
def opAxh (c : CuSlot) (s : State) : State :=
  s.setX c 3 (BitVec.ofInt 32 (((s.bank c.u c.bank).acc c.acN c.lane).1 / 65536))
def opAxl (c : CuSlot) (s : State) : State :=
  s.setX c 3 (BitVec.ofNat 32 (wrap 16 ((s.bank c.u c.bank).acc c.acN c.lane).1))

/-! ### Slot B: LOOP (R264) -/

/-- LOOP: barred as R263 states; a third level is ILLEGAL; count 0 skips the body. -/
def opLoop (c : CuSlot) (s : State) : CuOpen × State :=
  let n := (s.xa c).toNat % 65536
  if s.cuBarred c || 2 ≤ (s.bank c.u c.bank).loops.length then (.none, s.illegal c)
  else if n = 0 then (.skip ((c.target + 1) % 8192), s)
  else (.level ⟨(c.pc + 1) % 8192, c.target, n⟩, s)

/-! ### The bundle -/

/-- R249: slot A by its opcode. -/
def slotA (e : CuEnv) (c : CuSlot) (s : State) : CuCtl × State :=
  let p := fun (s : State) => (CuCtl.none, s)
  match c.op with
  | 0x01 => p (opAdd c s)
  | 0x02 => p (opSub c s)
  | 0x03 => p (opAnd c s)
  | 0x04 => p (opOr c s)
  | 0x05 => p (opXor c s)
  | 0x06 => p (opShl c s)
  | 0x07 => p (opShr c s)
  | 0x08 => p (opSra c s)
  | 0x09 => p (opMul c s)
  | 0x0A => p (opSlt c s)
  | 0x0B => p (opSltu c s)
  | 0x10 => p (opAddi c s)
  | 0x11 => p (opAndi c s)
  | 0x12 => p (opOri c s)
  | 0x13 => p (opLui c s)
  | 0x14 => p (opShli c s)
  | 0x15 => p (opShri c s)
  | 0x16 => p (opSrai c s)
  | 0x18 => p (opLdw e c s)
  | 0x19 => p (opStw c s)
  | 0x1A => p (opVld e c s)
  | 0x1B => p (opVst c s)
  | 0x1C => p (opLdt e c s)
  | 0x1D => p (opStt c s)
  | 0x20 => opBeq c s
  | 0x21 => opBne c s
  | 0x22 => opBlt c s
  | 0x23 => opBge c s
  | 0x24 => opJmp c s
  | 0x25 => opJr c s
  | 0x26 => opCall c s
  | 0x28 => opWait c s
  | 0x29 => opRete c s
  | 0x2A => opHalt c s
  | 0x2B => p (opMfs c s)
  | 0x2C => p (opMts c s)
  | 0x2D => p (opTnow e c s)
  | 0x2E => p (opTrig e c s)
  | 0x2F => p (opRdtrg c s)
  | 0x30 => p (opQpop c s)
  | 0x31 => p (opQrd c s)
  | 0x32 => p (opQfree c s)
  | 0x33 => p (opSend c s)
  | 0x34 => p (opQstat c s)
  | _ => p s

/-- R250: slot B by its opcode; `busy` says that the multipliers are taken. -/
def slotB (busy : Bool) (c : CuSlot) (s : State) : CuOpen × State :=
  let p := fun (s : State) => (CuOpen.none, s)
  match c.op with
  | 0x01 => p (opVadd c s)
  | 0x02 => p (opVsub c s)
  | 0x03 => p (opVmov c s)
  | 0x04 => p (opVswap c s)
  | 0x05 => p (opVconj c s)
  | 0x06 => p (opVbf c s)
  | 0x07 => p (opVspl c s)
  | 0x08 => p (opVcmul busy c s)
  | 0x10 => p (opVmac busy c s)
  | 0x11 => p (opVmsu busy c s)
  | 0x12 => p (opVmul busy c s)
  | 0x13 => p (opVcmac busy c s)
  | 0x14 => p (opVcmacj busy c s)
  | 0x15 => p (opVsq busy c s)
  | 0x18 => p (opAclr c s)
  | 0x19 => p (opVnar c s)
  | 0x1A => p (opAred c s)
  | 0x1B => p (opAxh c s)
  | 0x1C => p (opAxl c s)
  | 0x1F => opLoop c s
  | _ => p s

/-- One bundle issued (R248, R259, R262, R264): both slots read what stands before it, what they write is in flight, the
sequence goes on, and the cycle ends. -/
def State.cuIssue (s : State) (u : Nat) (e : CuEnv) : State :=
  let b := s.cuBankNo u
  let pc := (s.bank u b).pc
  let w := (s.cu u).bundle pc
  let busy := (s.cu u).mulBusy
  let s := s.put (if b = 0 then R.CU_PC.PC0 u else R.CU_PC.PC1 u) pc
  let s := s.updCu u (fun x => { x with mulBusy := false })
  if bundleOk w then
    let ra := slotA e ⟨u, b, pc, w % 2 ^ 32⟩ s
    let rb := slotB busy ⟨u, b, pc, w / 2 ^ 32⟩ ra.2
    (rb.2.cuCycle u).cuAdvance u b pc ra.1 rb.1
  else ((s.cuRaise u b 0).cuCycle u).cuAdvance u b pc .none .none

/-- Whether a unit issues a bundle next: it runs, and nothing is due at the boundary. -/
def State.cuReady (s : State) (u : Nat) : Bool :=
  (s.cuState u == 3 || s.cuState u == 5) && (s.cuDue? u).isNone

/-- The bundle that a unit issues next. -/
def State.cuNext (s : State) (u : Nat) : Nat := (s.cu u).bundle (s.bank u (s.cuBankNo u)).pc

/-- Whether a bundle that is defined has an opcode in slot A, or in slot B. -/
def hasA (op w : Nat) : Bool := bundleOk w && bits w 26 6 == op
def hasB (op w : Nat) : Bool := bundleOk w && bits w 58 6 == op

/-- An instruction's row: unit `u` issues its next bundle, if the instruction stands in it. -/
def State.cuRun (s : State) (u : Nat) (has : Nat → Bool) (e : CuEnv) : Out :=
  .next (if s.cuReady u && has (s.cuNext u) then s.cuIssue u e else s)

end Machine
end Sys2Proof
end

