-- ==== Sys2Proof/Machine/CuIsa.lean ====
section
/-!
DEFINITION. The rows of the calender units' instructions: each is one cycle of one unit, in which it issues the bundle that the
instruction stands in (both slots of it, as a bundle is issued whole).
-/

namespace Sys2Proof
namespace Machine

/-- CU_NOP (R248–R250): unit `u` issues a bundle with NOP in a slot, or one that is not defined, which acts as NOP in both and raises
ILLEGAL. -/
def execCuNop (u : Fin 16) (s : State) : Out := s.cuRun u.val (fun w => hasA 0 w || hasB 0 w || !bundleOk w) {}

/-- ADD (R249): unit `u` issues its next bundle, with ADD in slot A. -/
def execCuAdd (u : Fin 16) (s : State) : Out := s.cuRun u.val (hasA 0x01) {}

/-- SUB (R249): unit `u` issues its next bundle, with SUB in slot A. -/
def execCuSub (u : Fin 16) (s : State) : Out := s.cuRun u.val (hasA 0x02) {}

/-- AND (R249): unit `u` issues its next bundle, with AND in slot A. -/
def execCuAnd (u : Fin 16) (s : State) : Out := s.cuRun u.val (hasA 0x03) {}

/-- OR (R249): unit `u` issues its next bundle, with OR in slot A. -/
def execCuOr (u : Fin 16) (s : State) : Out := s.cuRun u.val (hasA 0x04) {}

/-- XOR (R249): unit `u` issues its next bundle, with XOR in slot A. -/
def execCuXor (u : Fin 16) (s : State) : Out := s.cuRun u.val (hasA 0x05) {}

/-- SHL (R249): unit `u` issues its next bundle, with SHL in slot A. -/
def execCuShl (u : Fin 16) (s : State) : Out := s.cuRun u.val (hasA 0x06) {}

/-- SHR (R249): unit `u` issues its next bundle, with SHR in slot A. -/
def execCuShr (u : Fin 16) (s : State) : Out := s.cuRun u.val (hasA 0x07) {}

/-- SRA (R249): unit `u` issues its next bundle, with SRA in slot A. -/
def execCuSra (u : Fin 16) (s : State) : Out := s.cuRun u.val (hasA 0x08) {}

/-- MUL (R249): unit `u` issues its next bundle, with MUL in slot A. -/
def execCuMul (u : Fin 16) (s : State) : Out := s.cuRun u.val (hasA 0x09) {}

/-- SLT (R249): unit `u` issues its next bundle, with SLT in slot A. -/
def execCuSlt (u : Fin 16) (s : State) : Out := s.cuRun u.val (hasA 0x0A) {}

/-- SLTU (R249): unit `u` issues its next bundle, with SLTU in slot A. -/
def execCuSltu (u : Fin 16) (s : State) : Out := s.cuRun u.val (hasA 0x0B) {}

/-- ADDI (R249): unit `u` issues its next bundle, with ADDI in slot A. -/
def execCuAddi (u : Fin 16) (s : State) : Out := s.cuRun u.val (hasA 0x10) {}

/-- ANDI (R249): unit `u` issues its next bundle, with ANDI in slot A. -/
def execCuAndi (u : Fin 16) (s : State) : Out := s.cuRun u.val (hasA 0x11) {}

/-- ORI (R249): unit `u` issues its next bundle, with ORI in slot A. -/
def execCuOri (u : Fin 16) (s : State) : Out := s.cuRun u.val (hasA 0x12) {}

/-- LUI (R249): unit `u` issues its next bundle, with LUI in slot A. -/
def execCuLui (u : Fin 16) (s : State) : Out := s.cuRun u.val (hasA 0x13) {}

/-- SHLI (R249): unit `u` issues its next bundle, with SHLI in slot A. -/
def execCuShli (u : Fin 16) (s : State) : Out := s.cuRun u.val (hasA 0x14) {}

/-- SHRI (R249): unit `u` issues its next bundle, with SHRI in slot A. -/
def execCuShri (u : Fin 16) (s : State) : Out := s.cuRun u.val (hasA 0x15) {}

/-- SRAI (R249): unit `u` issues its next bundle, with SRAI in slot A. -/
def execCuSrai (u : Fin 16) (s : State) : Out := s.cuRun u.val (hasA 0x16) {}

/-- LDW (R249): unit `u` issues its next bundle, with LDW in slot A. -/
def execCuLdw (u : Fin 16) (ecc : LineRead) (s : State) : Out := s.cuRun u.val (hasA 0x18) { ecc := ecc }

/-- STW (R249): unit `u` issues its next bundle, with STW in slot A. -/
def execCuStw (u : Fin 16) (s : State) : Out := s.cuRun u.val (hasA 0x19) {}

/-- VLD (R249): unit `u` issues its next bundle, with VLD in slot A. -/
def execCuVld (u : Fin 16) (ecc : LineRead) (s : State) : Out := s.cuRun u.val (hasA 0x1A) { ecc := ecc }

/-- VST (R249): unit `u` issues its next bundle, with VST in slot A. -/
def execCuVst (u : Fin 16) (s : State) : Out := s.cuRun u.val (hasA 0x1B) {}

/-- LDT (R249): unit `u` issues its next bundle, with LDT in slot A. -/
def execCuLdt (u : Fin 16) (ecc : LineRead) (s : State) : Out := s.cuRun u.val (hasA 0x1C) { ecc := ecc }

/-- STT (R249): unit `u` issues its next bundle, with STT in slot A. -/
def execCuStt (u : Fin 16) (s : State) : Out := s.cuRun u.val (hasA 0x1D) {}

/-- BEQ (R262): unit `u` issues its next bundle, with BEQ in slot A. -/
def execCuBeq (u : Fin 16) (s : State) : Out := s.cuRun u.val (hasA 0x20) {}

/-- BNE (R262): unit `u` issues its next bundle, with BNE in slot A. -/
def execCuBne (u : Fin 16) (s : State) : Out := s.cuRun u.val (hasA 0x21) {}

/-- BLT (R262): unit `u` issues its next bundle, with BLT in slot A. -/
def execCuBlt (u : Fin 16) (s : State) : Out := s.cuRun u.val (hasA 0x22) {}

/-- BGE (R262): unit `u` issues its next bundle, with BGE in slot A. -/
def execCuBge (u : Fin 16) (s : State) : Out := s.cuRun u.val (hasA 0x23) {}

/-- JMP (R262): unit `u` issues its next bundle, with JMP in slot A. -/
def execCuJmp (u : Fin 16) (s : State) : Out := s.cuRun u.val (hasA 0x24) {}

/-- JR (R262): unit `u` issues its next bundle, with JR in slot A. -/
def execCuJr (u : Fin 16) (s : State) : Out := s.cuRun u.val (hasA 0x25) {}

/-- CALL (R262): unit `u` issues its next bundle, with CALL in slot A. -/
def execCuCall (u : Fin 16) (s : State) : Out := s.cuRun u.val (hasA 0x26) {}

/-- WAIT (R266): unit `u` issues its next bundle, with WAIT in slot A. -/
def execCuWait (u : Fin 16) (s : State) : Out := s.cuRun u.val (hasA 0x28) {}

/-- RETE (R267): unit `u` issues its next bundle, with RETE in slot A. -/
def execCuRete (u : Fin 16) (s : State) : Out := s.cuRun u.val (hasA 0x29) {}

/-- HALT (R279): unit `u` issues its next bundle, with HALT in slot A. -/
def execCuHalt (u : Fin 16) (s : State) : Out := s.cuRun u.val (hasA 0x2A) {}

/-- MFS (R249): unit `u` issues its next bundle, with MFS in slot A. -/
def execCuMfs (u : Fin 16) (s : State) : Out := s.cuRun u.val (hasA 0x2B) {}

/-- MTS (R249): unit `u` issues its next bundle, with MTS in slot A. -/
def execCuMts (u : Fin 16) (s : State) : Out := s.cuRun u.val (hasA 0x2C) {}

/-- TNOW (R249): unit `u` issues its next bundle, with TNOW in slot A. -/
def execCuTnow (u : Fin 16) (sub : Fin 2621440) (s : State) : Out := s.cuRun u.val (hasA 0x2D) { sub := sub.val }

/-- TRIG (R278): unit `u` issues its next bundle, with TRIG in slot A. -/
def execCuTrig (u : Fin 16) (sub : Fin 2621440) (s : State) : Out := s.cuRun u.val (hasA 0x2E) { sub := sub.val }

/-- RDTRG (R249): unit `u` issues its next bundle, with RDTRG in slot A. -/
def execCuRdtrg (u : Fin 16) (s : State) : Out := s.cuRun u.val (hasA 0x2F) {}

/-- QPOP (R271): unit `u` issues its next bundle, with QPOP in slot A. -/
def execCuQpop (u : Fin 16) (s : State) : Out := s.cuRun u.val (hasA 0x30) {}

/-- QRD (R272): unit `u` issues its next bundle, with QRD in slot A. -/
def execCuQrd (u : Fin 16) (s : State) : Out := s.cuRun u.val (hasA 0x31) {}

/-- QFREE (R273): unit `u` issues its next bundle, with QFREE in slot A. -/
def execCuQfree (u : Fin 16) (s : State) : Out := s.cuRun u.val (hasA 0x32) {}

/-- SEND (R275): unit `u` issues its next bundle, with SEND in slot A. -/
def execCuSend (u : Fin 16) (s : State) : Out := s.cuRun u.val (hasA 0x33) {}

/-- QSTAT (R249): unit `u` issues its next bundle, with QSTAT in slot A. -/
def execCuQstat (u : Fin 16) (s : State) : Out := s.cuRun u.val (hasA 0x34) {}

/-- VADD (R250): unit `u` issues its next bundle, with VADD in slot B. -/
def execCuVadd (u : Fin 16) (s : State) : Out := s.cuRun u.val (hasB 0x01) {}

/-- VSUB (R250): unit `u` issues its next bundle, with VSUB in slot B. -/
def execCuVsub (u : Fin 16) (s : State) : Out := s.cuRun u.val (hasB 0x02) {}

/-- VMOV (R250): unit `u` issues its next bundle, with VMOV in slot B. -/
def execCuVmov (u : Fin 16) (s : State) : Out := s.cuRun u.val (hasB 0x03) {}

/-- VSWAP (R250): unit `u` issues its next bundle, with VSWAP in slot B. -/
def execCuVswap (u : Fin 16) (s : State) : Out := s.cuRun u.val (hasB 0x04) {}

/-- VCONJ (R250): unit `u` issues its next bundle, with VCONJ in slot B. -/
def execCuVconj (u : Fin 16) (s : State) : Out := s.cuRun u.val (hasB 0x05) {}

/-- VBF (R250): unit `u` issues its next bundle, with VBF in slot B. -/
def execCuVbf (u : Fin 16) (s : State) : Out := s.cuRun u.val (hasB 0x06) {}

/-- VSPL (R250): unit `u` issues its next bundle, with VSPL in slot B. -/
def execCuVspl (u : Fin 16) (s : State) : Out := s.cuRun u.val (hasB 0x07) {}

/-- VCMUL (R250): unit `u` issues its next bundle, with VCMUL in slot B. -/
def execCuVcmul (u : Fin 16) (s : State) : Out := s.cuRun u.val (hasB 0x08) {}

/-- VMAC (R254): unit `u` issues its next bundle, with VMAC in slot B. -/
def execCuVmac (u : Fin 16) (s : State) : Out := s.cuRun u.val (hasB 0x10) {}

/-- VMSU (R254): unit `u` issues its next bundle, with VMSU in slot B. -/
def execCuVmsu (u : Fin 16) (s : State) : Out := s.cuRun u.val (hasB 0x11) {}

/-- VMUL (R255): unit `u` issues its next bundle, with VMUL in slot B. -/
def execCuVmul (u : Fin 16) (s : State) : Out := s.cuRun u.val (hasB 0x12) {}

/-- VCMAC (R250): unit `u` issues its next bundle, with VCMAC in slot B. -/
def execCuVcmac (u : Fin 16) (s : State) : Out := s.cuRun u.val (hasB 0x13) {}

/-- VCMACJ (R250): unit `u` issues its next bundle, with VCMACJ in slot B. -/
def execCuVcmacj (u : Fin 16) (s : State) : Out := s.cuRun u.val (hasB 0x14) {}

/-- VSQ (R250): unit `u` issues its next bundle, with VSQ in slot B. -/
def execCuVsq (u : Fin 16) (s : State) : Out := s.cuRun u.val (hasB 0x15) {}

/-- ACLR (R255): unit `u` issues its next bundle, with ACLR in slot B. -/
def execCuAclr (u : Fin 16) (s : State) : Out := s.cuRun u.val (hasB 0x18) {}

/-- VNAR (R257): unit `u` issues its next bundle, with VNAR in slot B. -/
def execCuVnar (u : Fin 16) (s : State) : Out := s.cuRun u.val (hasB 0x19) {}

/-- ARED (R255): unit `u` issues its next bundle, with ARED in slot B. -/
def execCuAred (u : Fin 16) (s : State) : Out := s.cuRun u.val (hasB 0x1A) {}

/-- AXH (R250): unit `u` issues its next bundle, with AXH in slot B. -/
def execCuAxh (u : Fin 16) (s : State) : Out := s.cuRun u.val (hasB 0x1B) {}

/-- AXL (R250): unit `u` issues its next bundle, with AXL in slot B. -/
def execCuAxl (u : Fin 16) (s : State) : Out := s.cuRun u.val (hasB 0x1C) {}

/-- LOOP (R264): unit `u` issues its next bundle, with LOOP in slot B. -/
def execCuLoop (u : Fin 16) (s : State) : Out := s.cuRun u.val (hasB 0x1F) {}

end Machine
end Sys2Proof
end

