-- ==== Sys2Proof/Machine/CuUnits.lean ====
section
/-!
DEFINITION. The calender units as the rest of the device sees them (chapter 8): power, run and stop, events, copies and sends, the
host window, registers and orders.

Marked choices (log entries): DEDUCED 64, 66, 68, 138; DESIGN CHOICE 67. Each entry of notes/assumptions says safe or unsafe.
-/

namespace Sys2Proof
namespace Machine

/-! ### Power and state (R241, R247, R279, R280) -/

/-- A unit that is to go OFF does so once no copy or send is outstanding (Table 08-8). -/
def State.settleCuOff (s : State) (u : Nat) : State :=
  let x := s.cu u
  if x.offDue && x.copies.isEmpty && x.sends.isEmpty then
    (s.put (R.CU_STATUS.STATE u) 0).updCu u (fun x => { x with offDue := false })
  else s

/-- CU_CTL(u).EN written. -/
def State.cuEnable (s : State) (u : Nat) (en : Bool) : State :=
  let s := s.put (R.CU_CTL.EN u) (b2n en)
  if en then
    let s := s.updCu u (fun x => { x with offDue := false })
    if s.cuState u = 0 then (s.put (R.CU_STATUS.STATE u) 1).updCu u (fun x => { x with wakeAt := s.ns }) else s
  else if s.cuState u = 0 then s
  else ((s.cuStop u).updCu u (fun x => { x with offDue := true })).settleCuOff u

/-- CU_EN_WRITE (R241, R279): a write of CU_CTL(u).EN. -/
def execCuEnWrite (p : Path) (u : Fin 16) (en : Bool) (s : State) : Out :=
  .next (s.gateField p (R.CU_CTL.EN u.val) (b2n en) (fun s => s.cuEnable u.val en))

/-- CU_WAKE_DONE (R241, R247): 1 µs after EN was set the unit is STOPPED, its registers zero and BX 17. -/
def execCuWakeDone (u : Fin 16) (s : State) : Out :=
  let u := u.val
  if s.cuState u = 1 ∧ (s.cu u).wakeAt + 1000 ≤ s.ns ∧ !s.unitsBarred then
    let s := (s.setWord (R.CU_LSTAT0 u) 0#32).setWord (R.CU_LSTAT1 u) 0#32
    let s := ((s.setWord (R.CU_FLAGS u) 0#32).put (R.CU_STATUS.STATE u) 2).updCu u (fun x => { x with b0 := {}, b1 := {}, writes := [], mulBusy := false })
    .next (s.cuStopsDone u)
  else .next s

/-- RUN (Table 08-8): a STOPPED or FAULTED unit runs from ENTRY in bank 0. -/
def State.cuStartRun (s : State) (u : Nat) : State :=
  if s.cuState u = 2 ∨ s.cuState u = 6 then
    let s := (((s.put (R.CU_STATUS.STATE u) 3).put (R.CU_STATUS.BANK u) 0).put (R.CU_STATUS.FCAUSE u) 0).put (R.CU_STATUS.MISSED u) 0
    let s := s.setWord (R.CU_CYCLE u) 0#32
    let e := s.get (R.CU_ENTRY.ENTRY u)
    let per := s.get (R.CU_TIMER.PERIOD u)
    let now := s.adv
    s.updCu u (fun x => { x with
      b0 := { x.b0 with pc := e, loops := [], delay := 0, target := none }
      b1 := { x.b1 with loops := [], delay := 0, target := none, rete := false }
      pending := 0, fault := none, mulBusy := false, seq := 0, period := per, runAt := now, expiries := 0 })
  else s

/-- R280: a RUN that reaches a unit at a time: one that comes with a STOP leaves it STOPPED. -/
def State.cuRunAt (s : State) (u t : Nat) : State :=
  if (s.cu u).stopAt = some t then (s.cuStartRun u).cuStop u else s.cuStartRun u

/-- CU_RUN_WRITE (R279, R280): a write of CU_CTL(u).RUN. -/
def execCuRunWrite (p : Path) (u : Fin 16) (s : State) : Out :=
  .next (s.gateAction p (R.CU_CTL u.val) (fun s => s.cuRunAt u.val s.time))

/-- CU_STOP_WRITE (R279): a write of CU_CTL(u).STOP. -/
def execCuStopWrite (p : Path) (u : Fin 16) (s : State) : Out :=
  .next (s.gateAction p (R.CU_CTL u.val) (fun s => s.cuStopAt u.val s.time))

/-- Cause HOST. -/
def State.cuPoke (s : State) (u : Nat) : State := if s.cuState u = 0 then s else s.cuPend u 7

/-- CU_POKE (R265): a write of CU_CTL(u).POKE. -/
def execCuPoke (p : Path) (u : Fin 16) (s : State) : Out := .next (s.gateAction p (R.CU_CTL u.val) (fun s => s.cuPoke u.val))

/-- Table 08-9: the effect of a word written to CU_CTL(u); RUN and STOP in one word leave the unit STOPPED (R280). -/
def State.writeCuCtl (s : State) (u : Nat) (w : Word) : State :=
  let s := s.put (R.CU_CTL.ACCSAT_EV_EN u) (bits w.toNat 4 1)
  let s := s.cuEnable u (bit w.toNat 0)
  let s := if bit w.toNat 2 then s.cuStopAt u s.time else s
  let s := if bit w.toNat 1 then s.cuRunAt u s.time else s
  if bit w.toNat 3 then s.cuPoke u else s

/-- R282: the effect of a word written to CU_EVCFG(u): a cause that becomes disabled loses its pending bit. -/
def State.writeCuEvcfg (s : State) (u : Nat) (w : Word) : State :=
  let old := s.get (R.CU_EVCFG.EVEN u)
  let new := w.toNat % 256
  (s.plainWrite (R.CU_EVCFG u) w).updCu u (fun x => { x with
    pending := (List.range 8).foldl (fun p c => if bit old c && !bit new c then setBit p c false else p) x.pending })

/-- Port `p` bound as a word of CU_INQ(u) says. -/
def State.bindPort? (s : State) (u w p : Nat) : Option State :=
  if bit w (16 * p + 15) then s.bindQueue? (bits w (16 * p) 12) 2 (2 * u + p) else some s

/-- Both ports, port 0 first. -/
def State.bindPorts? (s : State) (u w : Nat) : Option State :=
  match s.bindPort? u w 0 with
  | none => none
  | some s => s.bindPort? u w 1

/-- R282, R424: the effect of a word written to CU_INQ(u). -/
def State.writeCuInq (s : State) (u : Nat) (w : Word) : State :=
  let st := s.cuState u
  let free := [0, 1].foldl (fun s p => match s.cuPort? u p with
    | some q => s.unbindQueue q 2 (2 * u + p)
    | none => s) s
  if st ≠ 0 ∧ st ≠ 2 ∧ st ≠ 6 then s.put (R.CU_STATUS.CFG_ERR u) 1
  else match free.bindPorts? u w.toNat with
    | some s => s.plainWrite (R.CU_INQ u) w
    | none => s.put (R.CU_STATUS.CFG_ERR u) 1

/-- A forced power-down (Table 08-8): OFF with FCAUSE = POWER, outstanding work ended, CU_FAULT raised. -/
def State.cuForceDown (s : State) (u : Nat) : State :=
  if s.cuState u = 0 then s
  else
    let s := ((s.cuHalted u 0).put (R.CU_STATUS.FCAUSE u) 3).put (R.CU_CTL.EN u) 0
    (s.updCu u (fun x => { x with copies := [], sends := [], offDue := false })).raiseWith 97 u [3, s.cuPc u] 3

/-- R241: on entry to STANDBY or SLEEP both memories of a unit are lost. -/
def State.cuLose (s : State) (u : Nat) : State :=
  (s.put (R.CU_STATUS.LOST u) 1).updCu u (fun x => { x with prog := [], data := [] })

/-! ### The host window (R242–R244) -/

/-- A bundle with byte `i` replaced. -/
def setByte (w : BitVec 64) (i : Nat) (b : Byte) : BitVec 64 := BitVec.ofNat 64 (leNat (overlay (leBytes 8 w.toNat) i [b]))

/-- Bytes written to program memory from an offset on: bundle w holds the bytes from 8w (R242). -/
def progWrites (m : SMap (BitVec 64)) (off : Nat) : List Byte → SMap (BitVec 64)
  | [] => m
  | b :: bs => progWrites (SMap.put m (off / 8) (setByte ((SMap.find? m (off / 8)).getD 0#64) (off % 8) b)) (off + 1) bs

/-- R242, R243: bytes written through the window of a unit. -/
def State.cuWindow (s : State) (u off : Nat) (bs : List Byte) : State :=
  let st := s.cuState u
  let err := s.put (R.CU_STATUS.CFG_ERR u) 1
  if off < 0x10000 then
    if st = 2 ∨ st = 6 then s.updCu u (fun x => { x with prog := progWrites x.prog off bs }) else err
  else if st = 0 then err
  else s.updCu u (fun x => { x with data := Mem.writes 0#8 x.data (off - 0x10000) bs })

/-- A word read through the window; 0 in OFF. -/
def State.cuWindowRead (s : State) (u off : Nat) : Word :=
  if s.cuState u = 0 then 0#32
  else if off < 0x10000 then
    let w := (SMap.find? (s.cu u).prog (off / 8)).getD 0#64
    if off / 4 % 2 = 1 then w.extractLsb' 32 32 else w.setWidth 32
  else BitVec.ofNat 32 (leNat (Mem.reads 0#8 (s.cu u).data ((off - 0x10000) / 4 * 4) 4))

/-- CU_WINDOW_WRITE (R242, R243, R345): a write of 1–64 bytes of unit `u`'s window within one aligned block of 64; a longer one, or one that
crosses the block, is dropped as a bad access. -/
def execCuWindowWrite (p : Path) (u : Fin 16) (off : Fin 0x80000) (bs : List Byte) (s : State) : Out :=
  let key := 0x800000 + u.val * 0x80000 + off.val
  let f := fun (s : State) => if accessOk key bs.length true then s.cuWindow u.val off.val bs else s.badAccess (pathFn p) key true
  .next (s.gate p (key / 4 * 4) f f)

/-! ### Events (R265–R270) -/

/-- R269: a flight's START reaches a unit: accepted in bank 0, RUNNING or WAITING, with START enabled and not pending; else counted
in MISSED, unless it comes with a stop. -/
def State.cuStart (s : State) (u : Nat) : State :=
  let st := s.cuState u
  if (s.cu u).stopAt = some s.time then s
  else if (st = 3 ∨ st = 4) ∧ bit (s.get (R.CU_EVCFG.EVEN u)) 3 ∧ bit (s.cu u).pending 3 = false then s.cuPend u 3
  else s.satInc (R.CU_STATUS.MISSED u)

/-- A running unit. -/
def State.cuRuns (s : State) (u : Nat) : Bool := 3 ≤ s.cuState u && s.cuState u ≤ 5

/-- Cause TG: the units that name a gate. -/
def State.cuGate (s : State) (tg : Nat) : State :=
  (List.range 16).foldl (fun s u => if s.cuRuns u && s.get (R.CU_EVCFG.TG u) == tg then s.cuPend u 4 else s) s

/-- CU_TIMER_EXPIRY (R265): run start + j × PERIOD on the timekeeper. -/
def execCuTimerExpiry (u : Fin 16) (s : State) : Out :=
  let u := u.val
  let x := s.cu u
  if s.cuRuns u && 0 < x.period && x.runAt + (x.expiries + 1) * x.period ≤ s.adv then
    .next ((s.updCu u (fun x => { x with expiries := x.expiries + 1 })).cuPend u 5)
  else .next s

/-- An event taken (R266): bank 1 at the vector. -/
def State.cuEnter (s : State) (u c : Nat) : State :=
  let s := ((s.cuCycle u).put (R.CU_STATUS.STATE u) 5).put (R.CU_STATUS.BANK u) 1
  s.updCu u (fun x => { x with
    pending := setBit x.pending c false, cause := c, mulBusy := false
    b1 := { x.b1 with pc := 4 * c, delay := 0, target := none, rete := false } })

/-- R256, R266: a WAITING unit waits for up to so many cycles: an accumulate that lands meanwhile may make a cause due. -/
def State.cuWait (s : State) (u : Nat) : Nat → State
  | 0 => s
  | n + 1 => if (s.cuDue? u).isSome then s else (s.cuCycle u).cuWait u n

/-- EVENT_ENTRY (R246, R265–R268): what is due at unit `u`'s bundle boundary happens: a fault, or the entry of an event; `waited` is
the cycles a WAITING unit has waited. `fetch` is how the fetch of the next bundle came out: an uncorrectable error sends a running
unit to FAULTED. -/
def execEventEntry (u : Fin 16) (waited : Nat) (fetch : LineRead) (s : State) : Out :=
  let u := u.val
  let fetches := s.cuState u = 3 ∨ s.cuState u = 5
  let s := if fetches ∧ fetch = .corrected then s.satInc (R.CU_ECC.CE u) else s
  if fetches ∧ fetch = .uncorrectable then .next ((s.satInc (R.CU_ECC.UE u)).cuFault u 2)
  else
    let s := if s.cuState u ≠ 4 then s else if (s.cuDue? u).isSome then s.cuCycles u waited else s.cuWait u waited
    match s.cuDue? u with
    | some (.fault f) => .next (s.cuFault u f)
    | some (.event c) => .next (s.cuEnter u c)
    | none => .next s

/-! ### Copies and sends (R272, R276, R277, R280) -/

/-- QRD_COPY_LANDED (R272): unit `u`'s oldest copy lands. -/
def execQrdCopyLanded (u : Fin 16) (s : State) : Out :=
  let u := u.val
  match (s.cu u).copies with
  | k :: t => .next ((s.updCu u (fun x => { x with copies := t, data := Mem.writes 0#8 x.data k.addr k.data })).settleCuOff u)
  | [] => .next s

/-- The block of a SEND as data memory now holds it (R277). -/
def State.sendBlock (s : State) (u : Nat) (x : CuSend) : List Byte := Mem.reads 0#8 (s.cu u).data x.addr 48

/-- R275–R277: the barge of a SEND, its block and payload read while it is outstanding. -/
def State.sendBarge (s : State) (u : Nat) (x : CuSend) (poisoned : Bool) : Barge :=
  let b := s.sendBlock u x
  { type := 6, flags := b2n poisoned, stream := field b 2 2, source := 0x8000 + u, seq := (s.cu u).seq
    stamp := ofTime96 (field b 16 12), qual := field b 28 4, format := field b 32 8
    word40 := u + x.bank * 16 + x.pc * 256 + field b 12 4 * 2 ^ 32, word48 := field b 40 8
    payload := Mem.reads 0#8 (s.cu u).data (field b 8 4) (min (field b 4 4) (cuDataBytes - field b 8 4)) }

/-- SEND_DONE (R246, R276, R277): unit `u`'s oldest SEND is admitted to its queue, for which it waits without limit; `ecc` is how the
reads of data memory came out. -/
def execSendDone (u : Fin 16) (ecc : LineRead) (s : State) : Out :=
  let u := u.val
  match (s.cu u).sends with
  | x :: t =>
    let r := s.admitBarge (field (s.sendBlock u x) 0 2 % 4096) (s.sendBarge u x (ecc == .uncorrectable))
    if r.1.taken then
      let s := r.2.updCu u (fun c => { c with sends := t, seq := (c.seq + 1) % 2 ^ 32 })
      let s := match ecc with
        | .clean => s
        | .corrected => s.satInc (R.CU_ECC.CE u)
        | .uncorrectable => s.satInc (R.CU_ECC.UE u)
      .next (s.settleCuOff u)
    else .next r.2
  | [] => .next s

/-! ### CU_LOAD (R283, R284) -/

/-- Table 08-10: every field, those of an absent part too. -/
def cuLoadChecks (o : Order) : List (Nat × Bool) :=
  [chk 16 (15 < o.u 16 1), chk 17 (o.u 17 1 = 0 ∨ 3 < o.u 17 1)] ++ reserved o 18 2
    ++ [chk 20 (8191 < o.u 20 4), chk 24 (o.u 24 4 = 0 ∨ 8192 < o.u 20 4 + o.u 24 4),
      chk 28 (o.u 28 4 % 64 ≠ 0 ∨ cuDataBytes < o.u 28 4),
      chk 32 (o.u 32 4 % 64 ≠ 0 ∨ cuDataBytes < o.u 28 4 + o.u 32 4)] ++ reserved o 36 4
    ++ [chk 40 (o.u 40 8 % 64 ≠ 0), chk 48 (o.u 48 8 % 64 ≠ 0)] ++ reserved o 60 4

/-- The bytes of the program part of a load. -/
def Order.progBytes (o : Order) : Nat := if bit (o.u 17 1) 0 then 8 * o.u 24 4 else 0

/-- The data part of a load begins to be read. -/
def State.loadData (s : State) (o : Order) : State := s.startRead o (o.u 48 8) (o.u 32 4)

/-- A load that has written everything. -/
def State.loadDone (s : State) (o : Order) : State :=
  let s := if bit (o.u 17 1) 0 then s.put (R.CU_STATUS.LOST (o.u 16 1)) 0 else s
  s.retireWith o stOk 0 [(56, leBytes 4 o.done)]

/-- CU_LOAD (R283, R284): the order begins to read its images. -/
def State.cuLoadAccept (o : Order) (s : State) : State :=
  s.validate o (cuLoadChecks o) (fun s =>
    let st := s.cuState (o.u 16 1)
    if st = 0 ∨ (bit (o.u 17 1) 0 ∧ st ≠ 2 ∧ st ≠ 6) then s.retire o stState
    else
      let s := s.updOrder o.ref (fun o => { o with phase := .running })
      if bit (o.u 17 1) 0 then s.startRead o (o.u 40 8) (8 * o.u 24 4)
      else if o.u 32 4 = 0 then s.loadDone o else s.loadData o)

/-- The arm of that order. -/
def execCuLoad (s : State) : Out := .next (s.accept 0x0601 State.cuLoadAccept)

/-- How many bytes from 0 on have arrived without a gap. -/
def gotPrefix : Nat → Mem → Nat
  | n, (a, _) :: t => if a = n then gotPrefix (n + 1) t else n
  | n, [] => n

/-- Bytes written into a unit's memory by a load: program words, or data. -/
def State.loadWrite (s : State) (o : Order) (prog : Bool) (off : Nat) (bs : List Byte) : State :=
  let u := o.u 16 1
  if prog then
    let put := fun (p : SMap (BitVec 64)) (i : Nat) => SMap.put p (o.u 20 4 + off / 8 + i) (BitVec.ofNat 64 (field bs (8 * i) 8))
    s.updCu u (fun x => { x with prog := (List.range (bs.length / 8)).foldl put x.prog })
  else s.updCu u (fun x => { x with data := Mem.writes 0#8 x.data (o.u 28 4 + off) bs })

/-- R284: bytes of a load have arrived: every granule of 256 bytes that is whole is written in order; a part that is whole leads to
the next, or to completion. -/
def State.loadArrived (s : State) (o : Order) (r : HostRead) : State :=
  let prog := o.done < o.progBytes
  let base := if prog then o.done else o.done - o.progBytes
  let n := min (gotPrefix 0 r.got) r.len
  let upto := if n = r.len then r.len else n / 256 * 256
  let s := s.loadWrite o prog base (Mem.reads 0#8 r.got base (upto - base))
  let o := { o with done := o.done + (upto - base) }
  let s := s.updOrder o.ref (fun _ => o)
  if upto < r.len then s
  else
    let s := { s with reads := s.reads.filter (fun x => x.order != o.ref) }
    if prog && bit (o.u 17 1) 1 && 0 < o.u 32 4 then s.loadData o else s.loadDone o

/-- R284: a load that ends early, with the bytes written. -/
def State.loadEnds (s : State) (o : Order) (status : Nat) : State := s.retireWith o status 0 [(56, leBytes 4 o.done)]

/-- R284: a cancel of a CU_LOAD. -/
def State.loadCancel (s : State) (o : Order) : State := if o.done = 0 then s.retire o stCancelled else s.loadEnds o stPartial

/-! ### CU_RUN and CU_STOP (R283, R285) -/

/-- When a CU_RUN or CU_STOP of a TIME acts: then, or now where that is past or the order names none. -/
def State.cuActTime (s : State) (o : Order) (late : Bool) : Nat := if o.u 17 1 = 1 ∧ late = false then ofTime96 (o.u 20 12) else s.time

/-- CU_RUN at its time. -/
def State.cuRunNow (s : State) (o : Order) (late : Bool) (t : Nat) : State :=
  let u := o.u 16 1
  if s.cuState u = 2 ∨ s.cuState u = 6 then
    ((s.put (R.CU_ENTRY.ENTRY u) (o.u 32 4)).cuRunAt u t).retireWith o (if late then stLate else stOk) 0 [(20, time96Bytes t)]
  else s.retire o stState

/-- The parameter checks of CU_RUN (R387): each field's byte offset, and whether the field is invalid. -/
def cuRunChecks (o : Order) : List (Nat × Bool) :=
  [chk 16 (15 < o.u 16 1), chk 17 (2 < o.u 17 1), chk 18 (o.u 17 1 = 2 ∧ 31 < o.u 18 1)] ++ reserved o 19 1
    ++ [(20, o.u 17 1 == 1 && badTime o 20), chk 32 (8192 ≤ o.u 32 4)] ++ reserved o 36 28

/-- CU_RUN (R285). -/
def State.cuRunAccept (o : Order) (s : State) : State :=
  s.validate o (cuRunChecks o) (fun s =>
        match o.u 17 1 with
        | 0 => s.cuRunNow o false s.time
        | 1 => if ofTime96 (o.u 20 12) ≤ s.time then s.cuRunNow o (decide (ofTime96 (o.u 20 12) < s.time)) s.time else s
        | _ => s)

/-- The arm of that order. -/
def execCuRun (s : State) : Out := .next (s.accept 0x0602 State.cuRunAccept)

/-- CU_RUN_DUE (R285): a CU_RUN for a TIME becomes due. -/
def execCuRunDue (ring index : Nat) (s : State) : Out :=
  match s.order? (ring, index) with
  | some o => .next (if o.opcode = 0x0602 ∧ o.u 17 1 = 1 ∧ ofTime96 (o.u 20 12) ≤ s.time then s.cuRunNow o o.late (s.cuActTime o o.late) else s)
  | none => .next s

/-- The CU_RUN orders for a gate, at its firing. -/
def State.cuGateRun (s : State) (tg t : Nat) : State :=
  (s.orders.filter (fun o => o.opcode == 0x0602 && o.u 17 1 == 2 && o.u 18 1 == tg)).foldl (fun s o => s.cuRunNow o false t) s

/-- CU_STOP at its time: the unit stops at the bundle boundary where it stands; the order completes once it is STOPPED. -/
def State.cuStopNow (s : State) (o : Order) (late : Bool) : State :=
  let s := s.updOrder o.ref (fun o => { o with phase := .running, late := late })
  (s.cuStopAt (o.u 16 1) (s.cuActTime o late)).cuStopsDone (o.u 16 1)

/-- The parameter checks of CU_STOP (R387): each field's byte offset, and whether the field is invalid. -/
def cuStopChecks (o : Order) : List (Nat × Bool) :=
  [chk 16 (15 < o.u 16 1), chk 17 (1 < o.u 17 1)] ++ reserved o 18 2
    ++ [(20, o.u 17 1 == 1 && badTime o 20)] ++ reserved o 40 24

/-- CU_STOP (R285). -/
def State.cuStopAccept (o : Order) (s : State) : State :=
  s.validate o (cuStopChecks o) (fun s =>
        if o.u 17 1 = 0 then s.cuStopNow o false
        else if ofTime96 (o.u 20 12) ≤ s.time then s.cuStopNow o (decide (ofTime96 (o.u 20 12) < s.time)) else s)

/-- The arm of that order. -/
def execCuStop (s : State) : Out := .next (s.accept 0x0603 State.cuStopAccept)

/-- CU_STOP_DUE (R285): a CU_STOP for a TIME becomes due. -/
def execCuStopDue (ring index : Nat) (s : State) : Out :=
  match s.order? (ring, index) with
  | some o => .next (if o.opcode = 0x0603 ∧ o.phase = .pending ∧ o.u 17 1 = 1 ∧ ofTime96 (o.u 20 12) ≤ s.time then s.cuStopNow o o.late else s)
  | none => .next s

end Machine
end Sys2Proof
end

