-- ==== Sys2Proof/Machine/Ddcs.lean ====
section
/-!
DEFINITION. Down-conversion (chapter 4): DDC set-up, retunes, the retune list, output samples, power-level triggers.

Marked choices (log entries): DEDUCED 28, 49; DESIGN CHOICE 116, 117, 118. Each entry of notes/assumptions says safe or
unsafe.
-/

namespace Sys2Proof
namespace Machine

/-! ### Tuning (R104–R107, R118–R128) -/

/-- The staged FREQ and PHASE. -/
def State.stagedFreq (s : State) (d : Nat) : Nat := s.get (R.DDC_FREQ_LO.FREQ_LO d) + s.get (R.DDC_FREQ_HI.FREQ_HI d) * 2 ^ 32
def State.stagedPhase (s : State) (d : Nat) : Nat := s.get (R.DDC_PHASE.PHASE d)

/-- The counter of the next sample that reaches a DDC. -/
def State.ddcCount (s : State) (d : Nat) : Nat := (s.adc (ddcAdc d)).count

/-- A tuning as it is in force: (counter from which, φ there, FREQ). -/
abbrev Tuning := Nat × Nat × Nat

/-- R106: the NCO phase φ(i) of a tuning, which runs on from its first sample in both phase modes. -/
def Tuning.phase (t : Tuning) (i : Int) : Nat := (((t.2.1 : Int) + t.2.2 * (i - t.1)) % 2 ^ 48).toNat

/-- The tuning that a DDC holds now, and the one in force at ADC sample `i`. -/
def Ddc.tuning (x : Ddc) : Tuning := (x.phiAt, x.phi, x.freq)
def Ddc.tuningAt (x : Ddc) (i : Int) : Tuning :=
  let l := x.tuning :: x.older
  (l.find? (fun t => (t.1 : Int) ≤ i)).getD (l.getLastD x.tuning)

/-- R106: the NCO phase φ(i). -/
def State.ncoPhase (s : State) (d : Nat) (i : Int) : Nat := ((s.ddc d).tuningAt i).phase i

/-- R118: ADC samples between retune boundaries. -/
def State.boundaryStep (s : State) (d : Nat) : Nat := max 64 (2 ^ s.ddcK d)

/-- R101, R111: ADC samples on each side of an anchor that its output sample spans. -/
def State.ddcSpan (s : State) (d : Nat) : Nat := (if s.on (R.DDC_CTL.QS d) then 4 else 64) * 2 ^ s.ddcK d

/-- Whether the next sample to reach the DDC is a boundary that it takes. -/
def State.atBoundary (s : State) (d : Nat) : Bool :=
  s.on (R.DDC_CTL.EN d) && (s.ddc d).takenFrom.any (fun f => decide (f ≤ s.ddcCount d)) && s.ddcCount d % s.boundaryStep d == 0

/-- R118, R127: the retune that takes hold at the boundary now reached: the list's step, else the pending one. A calibration step of the
converter that is due at the boundary goes first. DESIGN CHOICE (log 116): a retune pending when the list starts stays pending, behind
the list's step. -/
def State.retuneDue? (s : State) (d : Nat) : Option Retune :=
  if !s.atBoundary d || s.calStepDue (ddcAdc d) then none
  else
    let x := s.ddc d
    let stamp := s.adcStamp (ddcAdc d) (s.ddcCount d)
    let listRuns := s.on (R.DDC_STATUS.LIST_RUN d) && s.on (R.DDC_CTL.LIST_EN d)
    let due := fun (r : Retune) => match r.notBefore, r.gate with
      | some t, _ => decide (t ≤ stamp)
      | none, some _ => false
      | none, none => true
    match x.listStep with
    | some (e, after) =>
      if listRuns && after.all (fun t => decide (t ≤ stamp)) then
        some { freq := s.get (R.DDC_LIST_LO.FREQ_LO d e) + s.get (R.DDC_LIST_HI.FREQ_HI d e) * 2 ^ 32, phase := x.phase, cause := 2 }
      else none
    | none => match x.pending with
      | some r => if due r then some r else none
      | none => none

/-- R106: FREQ and PHASE in force from sample `b`, the NCO's phase there being `phi`. -/
def Ddc.retuned (x : Ddc) (b freq phase phi : Nat) : Ddc :=
  { x with freq := freq, phase := phase, phiAt := b, phi := phi % 2 ^ 48, older := x.tuning :: x.older }

/-- R106: the tuning of a retune in force from sample `b`: its phase follows the counter in COHERENT mode, and in CONTINUOUS mode runs
on from the sample before. -/
def State.tune (s : State) (d b : Nat) (r : Retune) : State :=
  let x := s.ddc d
  let run : Int := (x.tuning.phase ((b : Int) - 1) : Int) + r.freq + ((r.phase : Int) - x.phase) * 2 ^ 24
  let phi := if s.on (R.DDC_CTL.PMODE d) then r.freq * b + r.phase * 2 ^ 24 else (run % 2 ^ 48).toNat
  s.updDdc d (fun x => x.retuned b r.freq r.phase phi)

/-- R119, R120, R127: the SETTLING run and the RETUNE mark of a retune at boundary `b`. -/
def State.retuneMark (s : State) (d b : Nat) (r : Retune) : State :=
  let qs := s.on (R.DDC_CTL.QS d)
  let m := b / 2 ^ s.ddcK d
  let first := if qs then m else m - 64
  let s := if qs then s else s.updSource (ddcId d) (fun o => { o with settling := (first, m + 64) :: o.settling })
  let info := d + 8 * b2n qs + r.cause * 16 + (if qs then 0 else 128) * 256 + r.freq / 256 % 2 ^ 40 * 2 ^ 24
  s.markSource (ddcId d) (mkMark 0 0 mkRetune (s.sampleStamp (ddcId d) first) (s.qual 0) 0 info) (some (s.sampleStamp (ddcId d) m))

/-- A list disabled: at a boundary it stops, and the step that waited is dropped. -/
def State.listStopped (s : State) (d : Nat) : State :=
  if s.atBoundary d && s.on (R.DDC_STATUS.LIST_RUN d) && !s.on (R.DDC_CTL.LIST_EN d) then
    (s.put (R.DDC_STATUS.LIST_RUN d) 0).updDdc d (fun x => { x with listStep := none, listGates := [] })
  else s

/-- A list's entry `e` applied at boundary `b`: the switch sequencer that follows this converter's list is due a step. -/
def State.listRetuned (s : State) (d b e : Nat) : State :=
  let follow := s.on R.SWS_STATUS.RUNNING && s.get R.SWS_CTL.ADV == 1 && s.get R.SWS_CTL.DDC == d
  let at_ := s.adcStamp (ddcAdc d) b + nsUnits (s.get R.SWS_LEVEL.SWS_DLY)
  let s := if follow then { s with sws := { s.sws with due := s.sws.due ++ [at_] } } else s
  (s.put (R.DDC_STATUS.LIST_POS d) e).updDdc d (fun x => { x with listStep := none, listAt := b })

/-- A commanded retune applied at boundary `b`: no longer pending, its order, if one, retired. -/
def State.commandRetuned (s : State) (d b : Nat) (r : Retune) : State :=
  let s := (s.put (R.DDC_STATUS.RT_PEND d) 0).updDdc d (fun x => { x with pending := none })
  match r.order with
  | some o => s.retireRef o (if r.late then stLate else stOk) [(20, time96Bytes (s.adcStamp (ddcAdc d) b))]
  | none => s

/-- RETUNE_BOUNDARY (R106, R113, R118–R120, R126, R137): the retune that is due takes hold at the boundary now reached; a list
whose LIST_EN was cleared stops there (R128). The sweep synthesizer follows a list's boundaries where it is set to (R567). -/
def execRetuneBoundary (d : Fin 8) (s : State) : Out :=
  let d := d.val
  let s := s.listStopped d
  match s.retuneDue? d with
  | none => .next s
  | some r =>
    let b := s.ddcCount d
    let step := (s.ddc d).listStep
    let s := ((s.retuneMark d b r).tune d b r).inc (R.DDC_STATUS.RT_COUNT d)
    match step with
    | some e => .next (s.listRetuned d b e.1)
    | none => .next (s.commandRetuned d b r)

/-- R123, R125: the pending retune discarded; its order completes CANCELLED. -/
def State.dropRetune (s : State) (d : Nat) : State :=
  let old := (s.ddc d).pending
  let s := (s.put (R.DDC_STATUS.RT_PEND d) 0).updDdc d (fun x => { x with pending := none })
  match old with
  | some r => match r.order with
    | some o => s.retireRef o stCancelled []
    | none => s
  | none => s

/-- R123: a retune made pending in place of the one before. -/
def State.pendRetune (s : State) (d : Nat) (r : Retune) : State :=
  ((s.dropRetune d).put (R.DDC_STATUS.RT_PEND d) 1).updDdc d (fun x => { x with pending := some r })

/-- Whether a DDC refuses register and order retunes (R124, R125). -/
def State.retuneBarred (s : State) (d : Nat) : Bool := !s.on (R.DDC_CTL.EN d) || s.on (R.DDC_STATUS.LIST_RUN d)

/-- R118, R124, R125: GO. -/
def State.retuneGo (s : State) (d : Nat) : State :=
  if s.retuneBarred d then s.put (R.DDC_STATUS.CFG_ERR d) 1
  else s.pendRetune d { freq := s.stagedFreq d, phase := s.stagedPhase d, cause := 0 }

/-- R123, R125: CANCEL. -/
def State.retuneCancel (s : State) (d : Nat) : State := if s.on (R.DDC_CTL.EN d) then s.dropRetune d else s

/-- RETUNE_GO (R118, R123–R125): a write of DDC_RETUNE(n).GO alone. -/
def execRetuneGo (p : Path) (d : Fin 8) (s : State) : Out :=
  .next (s.gateAction p (R.DDC_RETUNE d.val) (fun s => s.retuneGo d.val))

/-- RETUNE_CANCEL (R123, R125): a write of DDC_RETUNE(n).CANCEL, with GO or without. -/
def execRetuneCancel (p : Path) (d : Fin 8) (s : State) : Out :=
  .next (s.gateAction p (R.DDC_RETUNE d.val) (fun s => s.retuneCancel d.val))

/-- Table 04-10's checks. -/
def retuneChecks (o : Order) : List (Nat × Bool) :=
  [chk 16 (8 ≤ o.u 16 1), chk 17 (3 ≤ o.u 17 1), chk 18 (o.u 17 1 = 2 ∧ 32 ≤ o.u 18 1), chk 19 (o.u 19 1 ≠ 0),
    chk 20 (o.u 17 1 = 1 ∧ badTime o 20)] ++ reserved o 41 23

/-- R126: whether the boundary that a timed retune names has already reached the DDC. -/
def State.boundaryPassed (s : State) (d t : Nat) : Bool :=
  let p := s.boundaryStep d
  (s.ddc d).takenFrom.isSome && ceilDiv (s.adcCounterAt (ddcAdc d) t) p * p < s.ddcCount d

/-- The effect of an accepted DDC_RETUNE. -/
def State.retuneAccept (o : Order) (s : State) : State :=
  s.validate o (retuneChecks o) (fun s =>
    let d := o.u 16 1
    if s.retuneBarred d then s.retire o stState
    else
      let t := ofTime96 (o.u 20 12)
      let r : Retune := { freq := o.u 32 6, phase := o.u 38 3, cause := 1, order := some o.ref }
      let r := if o.u 17 1 = 1 then { r with notBefore := some t, late := s.boundaryPassed d t }
        else if o.u 17 1 = 2 then { r with gate := some (o.u 18 1) } else r
      s.pendRetune d r)

/-- DDC_RETUNE (R118, R123, R124, R126, R136, R137): the order makes a retune pending. -/
def execDdcRetune (s : State) : Out := .next (s.accept 0x0201 State.retuneAccept)

/-- LIST_ADVANCE (R128): the list's next advance falls due, one dwell after its last boundary or at a firing of its gate: the
next entry waits for its boundary, or the list stops after LAST. DESIGN CHOICE (log 117): the dwell is counted by the ADC's sample
counter, which runs on while the DDC releases nothing. -/
def execListAdvance (d : Fin 8) (s : State) : Out :=
  let d := d.val
  let x := s.ddc d
  let adv := s.on (R.DDC_LISTCFG.ADV d)
  let due := if adv then !x.listGates.isEmpty
    else decide (x.listAt + (max 1 (s.get (R.DDC_LISTCFG.DWELL d)) * 64 * 2 ^ s.ddcK d : Nat) ≤ s.ddcCount d)
  if s.on (R.DDC_STATUS.LIST_RUN d) && s.on (R.DDC_CTL.LIST_EN d) && x.listStep.isNone && due then
    let after := if adv then x.listGates.head? else none
    let s := s.updDdc d (fun x => { x with listGates := x.listGates.drop 1 })
    let pos := s.get (R.DDC_STATUS.LIST_POS d)
    if pos = s.get (R.DDC_LISTCFG.LAST d) then
      if s.on (R.DDC_LISTCFG.LOOP d) then .next (s.updDdc d (fun x => { x with listStep := some (0, after) }))
      else .next ((s.put (R.DDC_STATUS.LIST_RUN d) 0).updDdc d (fun x => { x with listGates := [] }))
    else .next (s.updDdc d (fun x => { x with listStep := some ((pos + 1) % 64, after) }))
  else .next s

/-! ### Set-up (R101, R125, R128, R135) -/

/-- R135: whether a DDC is in use. -/
def State.ddcInUse (s : State) (d : Nat) : Bool :=
  !(s.plansOn (ddcId d)).isEmpty
    || (List.range 8).any (fun p => s.on (R.PLT_CTL.EN p) && s.get (R.PLT_CTL.DDC p) == d)
    || (List.range 64).any (fun p => s.on (R.POUND_CFG.EN p) && !s.on (R.POUND_CFG.KIND p) && s.poundSource p == ddcId d)

/-- R107, R125: EN set: the staged tuning is the first, its phase anchored to the counter. -/
def State.enableDdc (s : State) (d : Nat) : State :=
  let f := s.stagedFreq d
  let ph := s.stagedPhase d
  let c := s.ddcCount d
  let s := s.updDdc d (fun x => { x with
    freq := f, phase := ph, phiAt := c, phi := (f * c + ph * 2 ^ 24) % 2 ^ 48, older := [], pending := none
    takenFrom := if s.adcState (ddcAdc d) = 4 then some (max c ((s.adc (ddcAdc d)).first.getD 0)) else none })
  s.updSource (ddcId d) (fun o => { o with active := false })

/-- EN cleared: the pending retune is discarded and the output ends. -/
def State.disableDdc (s : State) (d : Nat) : State :=
  let s := (s.dropRetune d).put (R.DDC_STATUS.ACTIVE d) 0
  (s.updDdc d (fun x => { x with takenFrom := none })).updSource (ddcId d) (fun o => { o with active := false, endAt := none })

/-- R106: PMODE written: from here on the phase follows the counter (COHERENT), or runs on from what it is (CONTINUOUS). -/
def State.writePhaseMode (s : State) (d : Nat) (coherent : Bool) : State :=
  if s.on (R.DDC_CTL.PMODE d) = coherent then s
  else
    let c := s.ddcCount d
    (s.put (R.DDC_CTL.PMODE d) (b2n coherent)).updDdc d (fun x =>
      x.retuned c x.freq x.phase (if coherent then x.freq * c + x.phase * 2 ^ 24 else x.tuning.phase c))

/-- R114: K or QS of a DDC that is not in use changed: its output samples are numbered by the new anchors. DESIGN CHOICE (log 118): the
filters take their samples from the write on. -/
def State.restartDdc (s : State) (d : Nat) : State :=
  let c := s.ddcCount d
  ((s.updSource (ddcId d) (fun o => { steps := o.steps })).put (R.DDC_STATUS.ACTIVE d) 0).updDdc d (fun x => { x with
    takenFrom := x.takenFrom.map (max c) })

/-- R135: a write of DDC_CTL(n): guarded fields judged each on its own, the others taking effect. -/
def State.writeDdcCtl (s : State) (d w : Nat) : State :=
  let use := s.ddcInUse d
  let oldK := s.ddcK d
  let oldQ := s.get (R.DDC_CTL.QS d)
  let oldEn := s.get (R.DDC_CTL.EN d)
  let oldR := s.get (R.DDC_CTL.RAWFMT d)
  let newK := bits w 4 5
  let newQ := bits w 1 1
  let newR := bits w 12 2
  let kRef := decide (newK ≠ oldK) && (use || decide (newK < 1 ∨ 16 < newK))
  let qRef := decide (newQ ≠ oldQ) && use
  let kLeft := if kRef then oldK else newK
  let qLeft := if qRef then oldQ else newQ
  let clash := decide (qLeft = 1 ∧ (kLeft < 3 ∨ 10 < kLeft))
  let kBad := kRef || (clash && decide (kLeft ≠ oldK))
  let qBad := qRef || (clash && decide (qLeft ≠ oldQ))
  let rBad := decide (newR ≠ oldR) && (use || decide (2 ≤ newR))
  let eBad := decide (bits w 0 1 ≠ oldEn) && use
  let s := if kBad then s else s.put (R.DDC_CTL.K d) newK
  let s := if qBad then s else s.put (R.DDC_CTL.QS d) newQ
  let s := if rBad then s else s.put (R.DDC_CTL.RAWFMT d) newR
  let s := if kBad || qBad || rBad || eBad then s.put (R.DDC_STATUS.CFG_ERR d) 1 else s
  let s := (s.put (R.DDC_CTL.BLANK d) (bits w 10 1)).put (R.DDC_CTL.SAT_EV_EN d) (bits w 16 1)
  let s := if (kBad || newK == oldK) && (qBad || newQ == oldQ) then s else s.restartDdc d
  let s := s.writePhaseMode d (bit w 9)
  let s := if bit w 11 && !s.on (R.DDC_CTL.LIST_EN d) then
      ((s.put (R.DDC_STATUS.LIST_RUN d) 1).put (R.DDC_STATUS.LIST_POS d) 0).updDdc d (fun x => { x with listStep := some (0, none), listGates := [] })
    else s
  let s := s.put (R.DDC_CTL.LIST_EN d) (bits w 11 1)
  if eBad ∨ bits w 0 1 = oldEn then s
  else
    let s := s.put (R.DDC_CTL.EN d) (bits w 0 1)
    if bit w 0 then s.enableDdc d else s.disableDdc d

/-- DDC_CTL_WRITE (R107, R123, R125, R128, R135): a write of DDC_CTL(n). -/
def execDdcCtlWrite (p : Path) (d : Fin 8) (w : Word) (s : State) : Out :=
  .next (s.gate p (R.DDC_CTL d.val) (fun s => s.plainWrite (R.DDC_CTL d.val) w) (fun s => s.writeDdcCtl d.val w.toNat))

/-- Table 04-6: the effect of a word written to DDC_RETUNE(n). -/
def State.writeDdcRetune (s : State) (d w : Nat) : State :=
  if bit w 1 then s.retuneCancel d else if bit w 0 then s.retuneGo d else s

/-- Table 04-8: a write to the list's registers, dropped with CFG_ERR while it runs. -/
def State.writeDdcList (s : State) (d key : Nat) (w : Word) : State :=
  if s.on (R.DDC_STATUS.LIST_RUN d) then s.put (R.DDC_STATUS.CFG_ERR d) 1 else s.plainWrite key w

/-! ### Power-level triggers (R130–R133) -/

/-- 2^W. -/
def State.pltSize (s : State) (p : Nat) : Nat := 2 ^ min 16 (s.get (R.PLT_CTL.W p))

/-- R122, R130: one output sample of its DDC taken into a trigger's window. While SETTLING samples stand in the window the trigger
holds; the window starts again at the first settled one. -/
def State.pltTake (s : State) (p : Nat) (z : Int × Int) (settling : Bool) : State :=
  let e := (z.1 * z.1 + z.2 * z.2).toNat
  let s := s.updPlt p (fun x => { x with
    window := if x.held && !settling then [e] else (e :: x.window).take (s.pltSize p), held := settling })
  s.put (R.PLT_STATUS.HOLD p) (b2n settling)

/-- R131, Table 04-4: the new condition. -/
def pltCond (mode : Nat) (lo hi hyst l : Int) (was : Bool) : Bool :=
  match mode with
  | 0 => if hi ≤ l then true else if l < hi - hyst then false else was
  | 1 => if l < lo then true else if lo + hyst ≤ l then false else was
  | 2 => if lo ≤ l ∧ l ≤ hi then true else if l < lo - hyst ∨ hi + hyst < l then false else was
  | _ => if l < lo ∨ hi < l then true else if lo + hyst ≤ l ∧ l ≤ hi - hyst then false else was

/-- A condition of a trigger put in force: EDGES counts a rise, and the evaluation sets out for the flights. -/
def State.pltSet (s : State) (p : Nat) (now : Bool) (stamp qual : Nat) : State :=
  let was := s.on (R.PLT_STATUS.COND p)
  let s := s.put (R.PLT_STATUS.COND p) (b2n now)
  let s := if now && !was then s.inc (R.PLT_STATUS.EDGES p) else s
  s.evaluated (0x50 + p) was now stamp qual

/-- R133: a trigger's window and its hold start again. -/
def State.pltRestart (s : State) (p : Nat) : State := (s.updPlt p (fun _ => {})).put (R.PLT_STATUS.HOLD p) 0

/-- PLT_EVALUATION (R16, R122, R130–R133): trigger `p` evaluates at its DDC's last output sample, if that sample's anchor is a
multiple of 16 and it has not been evaluated yet; with its DDC releasing nothing its condition is 0. -/
def execPltEvaluation (p : Fin 8) (s : State) : Out :=
  let p := p.val
  let d := s.get (R.PLT_CTL.DDC p)
  let o := s.source (ddcId d)
  let m := o.next - 1
  if !s.on (R.PLT_CTL.EN p) then .next s
  else if !o.active then
    .next ((s.pltRestart p).pltSet p false (s.sampleStamp (ddcId d) m) (s.qual 0))
  else if m * 2 ^ s.ddcK d % 16 ≠ 0 ∨ (s.plt p).evalAt = some m then .next s
  else
    let x := s.plt p
    let s := s.updPlt p (fun x => { x with evalAt := some m })
    let stamp := s.sampleStamp (ddcId d) m
    let q := s.spanQual (ddcId d) m (m + 1)
    let full := decide (s.pltSize p ≤ x.window.length)
    let l := if full then toDb16 (x.window.foldl (· + ·) 0) (s.pltSize p * 2 ^ 38) else noData
    let s := s.put (R.PLT_POWER.LEVEL p) (db16Word l)
    if x.held then .next s
    else if !full then .next (s.pltSet p false stamp q)
    else
      let now := pltCond (s.get (R.PLT_CTL.MODE p)) (sext 16 (s.get (R.PLT_THRESH.LO p))) (sext 16 (s.get (R.PLT_THRESH.HI p)))
        (16 * s.get (R.PLT_CTL.HYST p)) l (s.on (R.PLT_STATUS.COND p))
      .next (s.pltSet p now stamp q)

/-- The condition of a disabled trigger is 0. The change from 1 is a FALL (R206), whose stamp no rule gives. -/
def State.pltFalls (s : State) (p : Nat) : State :=
  if s.on (R.PLT_STATUS.COND p) then s.fresh.2.pltSet p false s.fresh.1 (s.qual 0) else s

/-- R133: a write of PLT_CTL(p): a change of DDC or W restarts the window. -/
def State.writePltCtl (s : State) (p : Nat) (w : Word) : State :=
  let d := s.get (R.PLT_CTL.DDC p)
  let n := s.get (R.PLT_CTL.W p)
  let s := s.plainWrite (R.PLT_CTL p) w
  let s := if s.get (R.PLT_CTL.DDC p) = d ∧ s.get (R.PLT_CTL.W p) = n then s else s.pltRestart p
  if s.on (R.PLT_CTL.EN p) then s else (s.pltRestart p).pltFalls p

/-! ### Output samples (R103, R109–R117) -/

/-- R117: the number of the output sample that a DDC may release next, if its filter span holds only samples it has taken. -/
def State.ddcNext? (s : State) (d : Nat) : Option Nat :=
  let o := s.source (ddcId d)
  let k := s.ddcK d
  let span := s.ddcSpan d
  let m := if o.active then some o.next
    else match (s.ddc d).takenFrom with
      | some f => some (ceilDiv (f + span) (2 ^ k))
      | none => none
  match m with
  | some m =>
    let open_ := match o.endAt with
      | some e => decide (m < e.1)
      | none => (s.ddc d).takenFrom.isSome
    if s.on (R.DDC_CTL.EN d) && open_ && m * 2 ^ k + span ≤ (s.source (adcId (ddcAdc d))).next && (s.retuneDue? d).isNone then some m
    else none
  | none => none

/-- R110: a component saturated at the limits of Q1.19. -/
def satQ19 (x : Int) : Int := clampInt (-524288) 524287 x

/-- R110: a saturating output sample counted. -/
def State.countSaturation (s : State) (d : Nat) : State :=
  let s := s.satInc (R.DDC_SATCNT.COUNT d)
  if s.on (R.DDC_STATUS.SAT_SEEN d) then s
  else
    let s := s.put (R.DDC_STATUS.SAT_SEEN d) 1
    if s.on (R.DDC_CTL.SAT_EV_EN d) then s.raiseInst 32 d else s

/-- R105, R109, R112, R113: the value of output sample `m` of DDC `d` before saturation: the codes of its ADC, each mixed with the tuning
in force at it (or, in quick-settle mode, at the anchor), filtered. -/
def State.ddcValue (s : State) (d m : Nat) : Int × Int :=
  let x := s.ddc d
  let k := s.ddcK d
  let adc := s.source (adcId (ddcAdc d))
  let mixed := fun (t : Tuning) (i : Int) => mix (adc.sample i).1 (t.phase i)
  if s.on (R.DDC_CTL.QS d) then quickOutput k (mixed (x.tuningAt (m * 2 ^ k : Nat))) m
  else normalOutput k (fun i => mixed (x.tuningAt i) i) m

/-- DDC `d` releases its output sample `m`, saturated and flagged (R109–R111, R114, R115, R119). -/
def State.ddcRelease (s : State) (d m : Nat) : State :=
  let src := ddcId d
  let v := s.ddcValue d m
  let z := (satQ19 v.1, satQ19 v.2)
  let sat := z != v
  let a := m * 2 ^ s.ddcK d
  let span := s.ddcSpan d
  let ovr := sat || meets (s.source (adcId (ddcAdc d))).ovr (a - span) (a + span)
  let s := if sat then s.countSaturation d else s
  let s := if ovr then s.updSource src (fun o => { o with ovr := extendRun m o.ovr }) else s
  let settling := meets (s.source src).settling m (m + 1)
  let s := s.releaseSample src m z (s.sampleStamp src m) (s.sampleStamp src (m + 1))
  let s := (s.put (R.DDC_STATUS.ACTIVE d) 1).put (R.DDC_STATUS.SETTLING d) (b2n settling)
  (List.range 8).foldl (fun s p =>
    if s.on (R.PLT_CTL.EN p) && s.get (R.PLT_CTL.DDC p) == d then s.pltTake p z settling else s) s

/-- DDC_OUTPUT_SAMPLE (R28, R103, R105, R109–R115, R117, R119): DDC `d` releases its next output sample; with the last sample of a
stopped run its streams end (R117). -/
def execDdcOutputSample (d : Fin 8) (s : State) : Out :=
  let d := d.val
  let src := ddcId d
  match s.ddcNext? d with
  | none => .next s
  | some m =>
    let s := s.ddcRelease d m
    match (s.source src).endAt with
    | some (e, c, u) =>
      if m + 1 = e then
        let s := (s.updSource src (fun o => { o with endAt := none })).put (R.DDC_STATUS.ACTIVE d) 0
        .next ((s.stopSource src c u (s.sampleStamp src e) (s.qual 0)).settleStops src)
      else .next s
    | none => .next s

end Machine
end Sys2Proof
end

