-- ==== Sys2Proof/Machine/Lanes.lean ====
section
/-!
DEFINITION. The transform lanes at work (chapter 5): frames and sheets, lane faults and failover, lane tests, user windows.

Marked choices (log entries): DEDUCED 11, 17, 19; DESIGN CHOICE 12, 27, 121, 122. Each entry of notes/assumptions says safe or
unsafe.
-/

namespace Sys2Proof
namespace Machine

/-! ### Frames (R138, R140, R144) -/

/-- R159: correctable SRAM errors counted; LANE_CE once, at the count CE_THRESH. -/
def State.countCe (s : State) (l n : Nat) : State :=
  let was := s.get (R.LANE_ECC.CE_COUNT l)
  let th := s.get R.LANE_CFG.CE_THRESH
  let s := s.satInc (R.LANE_ECC.CE_COUNT l) n
  if th ≠ 0 ∧ was < th ∧ th ≤ was + n then s.raiseInst 35 l else s

/-- R140, R143, R144: frame `f` of a plan as lane `l` has filled it: windowed, its input headroom found. -/
def State.fillFrame (s : State) (pl : Plan) (f l : Nat) : Frame :=
  let xs := s.windowed (pl.u 21 1) pl.m ((s.source pl.sourceId).span (pl.frameSample f) pl.n)
  ⟨f, l, headroomOf 19 (peakOf xs), xs⟩

/-- FRAME_FILLED (R24, R138, R140, R143, R144): the last sample of a plan's next frame has reached its lane; `ce` is the number of
correctable errors its SRAM corrected. Frames of a run of samples that has a gap in them are never filled (R176). -/
def execFrameFilled (p : Fin 64) (ce : Fin 65536) (s : State) : Out :=
  let p := p.val
  let pl := s.plan p
  let src := s.source pl.sourceId
  let f := max pl.fillNext (pl.frameFrom src.runFirst)
  let below := match pl.stopFrame with
    | some x => decide (f < x)
    | none => true
  let l := pl.lanes.getD (f % max 1 pl.lanes.length) 0
  if s.planState p ≠ 3 || !below || src.next < pl.frameSample f + pl.n then .next s
  else if s.frameLost p f then
    .next (((s.updPlan p (fun pl => { pl with fillNext := f + 1 })).skipLost p (f + 2)).settleStop p)
  else if s.laneState l ≠ 3 then .next s
  else .next ((s.updPlan p (fun pl => { pl with fillNext := f + 1, inflight := pl.inflight ++ [s.fillFrame pl f l] })).countCe l ce.val)

/-! ### Sheets (R144–R154) -/

/-- R148: the components of a bin limited to Q1.19. -/
def satBin (x : Int × Int) : Int × Int := (satQ19 x.1, satQ19 x.2)

/-- R145, R151: the SHIFTS field. -/
def shiftsField : List Nat → Nat
  | [] => 0
  | x :: t => x % 4 + 4 * shiftsField t

/-- R173: the centred index of the bin emitted `t`-th at N = 2^m. -/
def centred (m t : Nat) : Nat := (bitrev m t + 2 ^ (m - 1)) % 2 ^ m

/-- R150, R173: the bins of a sheet with their levels. -/
def levelBins (gain exp m : Nat) (xs : List (Int × Int)) : List Bin :=
  (List.range xs.length).zip xs |>.map (fun e =>
    let r := binPower gain exp e.2
    ⟨centred m e.1, toDb16 r.1 r.2, r.1, r.2⟩)

/-- R154, R17: the exported bins of a sheet in the plan's form, in emission order. -/
def exportBins (fmt exp : Nat) (ovr cal : Bool) (first last : Nat) (bs : List (Bin × (Int × Int))) : List Byte :=
  (bs.filter (fun b => first ≤ b.1.c && b.1.c ≤ last)).flatMap (fun b =>
    match fmt with
    | 1 => leBytes 2 (db16Word b.1.level)
    | 2 => leBytes 4 (ratioToPwr32 b.1.num b.1.den)
    | _ => leBytes 6 (cpx48 b.2.1 b.2.2 exp ovr cal))

/-- R182, R422: a sheet put to its plan's queue, after the marks that stand before it: held while the queue refuses it; later
ones are discarded while one is held. -/
def State.exportSheet (s : State) (p : Nat) (b : Barge) (endStamp : Nat) : State :=
  let pl := s.plan p
  if pl.held.isSome then
    let d : Discards := match pl.discards with
      | some d => { d with last := endStamp, count := d.count + 1 }
      | none => ⟨b.stamp, endStamp, 1, s.planQual p⟩
    s.updPlan p (fun pl => { pl with discards := some d })
  else
    let r := s.admitBarge pl.sheetQ { b with seq := pl.sheetSeq }
    if r.1.taken then r.2.updPlan p (fun pl => { pl with sheetSeq := (pl.sheetSeq + 1) % 2 ^ 32 })
    else r.2.updPlan p (fun pl => { pl with held := some b })

/-- The marks of a plan's sheet stream that stand before a sheet whose span ends at `t` (R335). -/
def State.emitPlanMarks (s : State) (p t : Nat) : State :=
  let ms := marksBefore t (s.plan p).marks
  ms.1.foldl (fun s m => s.emitPlanMark p m) (s.updPlan p (fun pl => { pl with marks := ms.2 }))

/-- R47, R88, R119, R121, R139, R148–R151, R154: the sheet of frame `fr` reaches its consumers in frame order. -/
def State.deliverSheet (s : State) (p : Nat) (fr : Frame) (raw : List (Int × Int)) : State :=
  let s := s.accountTo p fr.number
  let pl := s.plan p
  let f := fr.number
  let m := pl.m
  let src := pl.sourceId
  let a := pl.frameSample f
  let stamp := s.sampleStamp src a
  let endStamp := s.sampleStamp src (a + pl.n)
  let sh := shifts m fr.h
  let exp := sh.sum
  let xs := raw.map satBin
  let sat := xs != raw
  let qual := s.spanQual src a (a + pl.n)
  let ovr := bit qual 4
  let cal := bit qual 5
  let settle := bit qual 6
  let win := pl.u 21 1
  let bins := levelBins (s.windowGain win m) exp m xs
  let sheet : Sheet := { plan := p, lane := fr.lane, frame := f, n := pl.n, stamp := stamp, qual := qual, ovr := ovr, cal := cal, bins := bins }
  let s := if sat then s.raiseInst 33 p else s
  let s := (s.stepsReached p a).emitPlanMarks p endStamp
  let every := pl.u 40 4
  let fmtCode := match pl.fmt with
    | 1 => 0x11
    | 2 => 0x12
    | _ => 0x10
  let b : Barge :=
    { type := 2, stream := sheetStream p, source := planSrc p, stamp := stamp, qual := qual, format := s.sourceFormat src fmtCode
      word40 := p + fr.lane * 2 ^ 8 + (f % max 1 pl.lanes.length) * 2 ^ 16 + exp * 2 ^ 20 + headroomOf 7 (peakOf xs) * 2 ^ 25
        + b2n sat * 2 ^ 28 + b2n settle * 2 ^ 29 + shiftsField sh * 2 ^ 32 + m * 2 ^ 48 + win * 2 ^ 56
      word48 := a, payload := exportBins pl.fmt exp ovr cal pl.first pl.last (bins.zip xs) }
  let withheld := settle && 0x1000 ≤ src && src < 0x2000 && s.on (R.DDC_CTL.BLANK (src - 0x1000))
  let s := if withheld then s.accountTo p (f + 1)
    else
      let s := (s.weirsOf p).foldl (fun s w => s.weirSheet sheet w) s
      let s := s.reamsSheet sheet (pl.u 32 1)
      (s.enginesOf p).foldl (fun s e => s.engineSheet sheet e) s
  let s := if pl.exports && f % max 1 every = 0 then s.exportSheet p b endStamp else s
  let s := s.updPlan p (fun pl => { pl with nextFrame := f + 1, inflight := pl.inflight.drop 1, sheets := pl.sheets + 1 })
  let s := (s.put (R.PLAN_STATUS.LAST_EXP p) exp).inc (R.PLAN_STATUS.SHEETS p)
  let s := (List.range 32).foldl (fun s e => s.settleEngine e) s
  let s := (s.skipLost p (pl.fillNext + 1)).settleReams
  let s := if (s.plan p).inflight.isEmpty && !(s.source src).active then s.flushPlanMarks p else s
  s.settleStop p

/-! ### Lane faults and failover (R159–R166) -/

/-- R165: the plan to drop: lowest PRIORITY, the highest-numbered among equals. -/
def State.victim? (s : State) : Option Nat :=
  s.livePlans.foldl (fun (b : Option Nat) p => match b with
    | some v => if (s.plan p).u 17 1 ≤ (s.plan v).u 17 1 then some p else some v
    | none => some p) none

/-- The slot's failover begun, or handed on where a spare has failed before it was ready (R160, R166): spare `sp` is ready at
`ready`. -/
def State.beginFailover (s : State) (p slot l cause sp ready : Nat) : State :=
  let pl := s.plan p
  if s.planState p ≠ 3 then s
  else if pl.failovers.any (fun x => x.slot == slot && x.spare == l && s.time < x.readyAt) then
    let handed := fun (x : Failover) => { x with spare := sp, readyAt := ready }
    s.updPlan p (fun pl => { pl with failovers := updFirst (fun x => x.slot == slot && x.spare == l) handed pl.failovers })
  else
    let first := firstOfSlot pl.lanes.length slot pl.nextFrame
    let x : Failover := { failed := l, cause := cause, slot := slot, detected := s.time, spare := sp, readyAt := ready
                          firstLost := first, stopping := sp == 99 && s.planState p == 3 && pl.stoppedAt == some s.tk.adv }
    s.updPlan p (fun pl => { pl with failovers := pl.failovers ++ [x] })

/-- A lane put in a plan's slot. -/
def State.putSlot (s : State) (p slot l : Nat) : State := s.updPlan p (fun pl => { pl with lanes := pl.lanes.set slot l })

/-- R160–R166: the failed lane `l` of plan `p` replaced, `fence` ns after the detection; not if a PLAN_STOP took effect on the plan in the
same cycle, which is taken as the same tick (log 11). -/
def State.failover (s : State) (p l cause fence : Nat) : State :=
  let slot := (s.plan p).lanes.idxOf l
  let s := s.updPlan p (fun pl => { pl with inflight := pl.inflight.filter (fun fr => fr.lane != l) })
  let t := s.time + nsUnits fence
  if (s.plan p).stopFrame.isSome && (s.plan p).stoppedAt == some s.tk.adv then (s.beginFailover p slot l cause 99 t).settleStop p
  else
    match s.spares with
    | sp :: _ =>
      let s := s.callLane sp p slot (s.ns + fence)
      let wait := (s.lane sp).readyAt - s.ns
      ((s.beginFailover p slot l cause sp (s.time + nsUnits wait)).putSlot p slot sp).settleLanes
    | [] =>
      match s.victim? with
      | none => s
      | some v =>
        if v = p then (s.beginFailover p slot l cause 99 t).dropPlan p
        else
          let sp := ((s.plan v).lanes.filter (fun x => s.laneState x ≠ 4)).foldl min 17
          let awake := s.laneState sp = 3
          let s := s.updPlan v (fun pl => { pl with lanes := pl.lanes.filter (fun x => x != sp) })
          let s := (s.put (R.LANE_STATUS.PLAN sp) p).put (R.LANE_STATUS.SLOT sp) slot
          let ready := if awake then t else s.time + nsUnits ((s.lane sp).readyAt - s.ns)
          let s := (s.beginFailover p slot l cause sp ready).putSlot p slot sp
          s.dropPlan v

/-- R159, R160, R230: a fault detected in a lane: fenced, its climbing flights aborted, its slot handed on. `fence` is the time
from the detection to the fence in ns (at most 16 fabric cycles). -/
def State.laneFault (s : State) (l cause fence : Nat) : State :=
  if s.laneState l = 4 then s
  else
    let s := if cause = 2 then s.satInc (R.LANE_ECC.UE_COUNT l) else s
    let s := s.dropTest l
    let s := ((s.setLane l 4).put (R.LANE_STATUS.CAUSE l) cause).raiseInst 34 l
    let s := s.satInc R.GLOBAL_PROT.ACTIONS
    let s := s.abortDependents [uLane l] 2
    let s := (s.put (R.LANE_STATUS.PLAN l) 0).put (R.LANE_STATUS.SLOT l) 0
    match s.livePlans.find? (fun p => (s.plan p).lanes.contains l) with
    | some p => (s.failover p l cause fence).settleLanes
    | none => s.settleLanes

/-- SHEET_DELIVERED (R139, R145–R149): a plan's next sheet in frame order: the transform of its frame leaves its lane, unless an exponent
detector finds a value that correct arithmetic cannot produce, which is the lane fault ARITH. -/
def execSheetDelivered (p : Fin 64) (s : State) : Out :=
  let p := p.val
  match (s.plan p).inflight with
  | fr :: _ =>
    if s.planState p = 3 then
      let r := transform (s.plan p).m fr.h fr.data
      if r.2 then .next (s.fresh.2.laneFault fr.lane 1 (s.fresh.1 % 9)) else .next (s.deliverSheet p fr r.1)
    else .next s
  | [] => .next s

/-- LANE_FAULT_DETECTED (R159–R166): a fault of Table 05-5 detected in a lane, and the faults detected in other lanes in the same cycle: the
lanes are handled in number order. -/
def execLaneFaultDetected (l : Fin 18) (cause : Fin 16) (fence : Fin 9) (others : List (Fin 18 × Fin 16)) (s : State) : Out :=
  let faults := ((l, cause) :: others).foldl (fun m x => SMap.put m x.1.val x.2.val) []
  .next (faults.foldl (fun s x => s.laneFault x.1 x.2 fence.val) s)

/-- R169: a word written to LANE_INJECT. -/
def State.writeLaneInject (s : State) (lane key fence : Nat) : State :=
  if key = 0x5A3C ∧ lane < 18 then s.laneFault lane 6 fence else s

/-- LANE_INJECT (R159, R169): a write of LANE_INJECT. -/
def execLaneInject (p : Path) (lane : Fin 32) (key : BitVec 16) (fence : Fin 9) (s : State) : Out :=
  .next (s.gateAction p R.LANE_INJECT (fun s => s.writeLaneInject lane.val key.toNat fence.val))

/-- FAILOVER_SPARE_READY (R161, R162): the spare of a failover is ready and takes its slot; the marks of the failover are
written once every sheet before the first lost frame has been delivered. -/
def execFailoverSpareReady (l : Fin 18) (s : State) : Out :=
  let l := l.val
  match s.livePlans.find? (fun p => (s.plan p).failovers.any (fun x => x.spare == l && decide (x.readyAt ≤ s.time))) with
  | none => .next s
  | some p =>
    let s := if s.laneState l = 1 then s.setLane l 3 else s
    .next ((s.skipLost p ((s.plan p).fillNext + 1)).settleStop p)

/-! ### Lane tests (R168, R172) -/

/-- A test of a free or FENCED lane begun. DESIGN CHOICE (log 121): on a lane under a spare test it takes that test's place. -/
def State.beginTest (s : State) (l : Nat) (r : Option OrderRef) : State :=
  let st := s.laneState l
  let s := s.updLane l (fun x => { x with testSince := some s.ns, testRef := r, before := if st = 5 then x.before else st })
  if st = 4 then s else s.setLane l 5

/-- SPARE_TEST (R168, R591): SPARE_TEST_PERIOD, as it stood at the last one, after that test LK1, if it is UP, tests the next free lane in
turn. -/
def execSpareTest (s : State) : Out :=
  let free := s.freeLanes.filter (fun l => (s.lane l).testSince.isNone)
  let next := match free.find? (fun l => decide (s.spareTest.2 < l)) with
    | some l => some l
    | none => free.head?
  match next with
  | some l =>
    if s.on R.LANE_CFG.SPARE_TEST_EN ∧ s.lkUp 1 ∧ s.spareTest.1 + 1000000000 * max 1 s.spareTestPeriod ≤ s.ns then
      .next ({ s with spareTest := (s.ns, l), spareTestPeriod := s.get R.LANE_CFG.SPARE_TEST_PERIOD }.beginTest l none)
    else .next s
  | none => .next s

/-- TEST_END (R167, R168, R172): a lane's test ends after 200 µs; `check` is the failing check, 0 for a pass. -/
def execTestEnd (l : Fin 18) (check : BitVec 64) (s : State) : Out :=
  let l := l.val
  match (s.lane l).testSince with
  | none => .next s
  | some t =>
    if s.ns < t + 200000 ∨ !s.lkUp 1 then .next s
    else
      let r := (s.lane l).testRef
      let was := s.laneState l
      let pass := check = 0#64
      let s := s.updLane l (fun x => { x with testSince := none, testRef := none })
      let s := if pass then
          let s := s.setLane l (if was = 4 then 0 else if (s.lane l).before = 1 then 2 else (s.lane l).before)
          let s := if was = 4 then s.put (R.LANE_STATUS.CAUSE l) 0 else s
          if r.isSome then s.raiseInst 36 l else s
        else if was = 4 then s
        else ((s.setLane l 4).put (R.LANE_STATUS.CAUSE l) 5).raiseInst 34 l
      let s := match r with
        | some o => s.retireRef o (if pass then stOk else 0x23) [(32, leBytes 8 check.toNat)]
        | none => s
      .next s.settleLanes

/-- The parameter checks of LANE_TEST (R387): each field's byte offset, and whether the field is invalid. -/
def laneTestChecks (o : Order) : List (Nat × Bool) :=
  [chk 16 (18 ≤ o.u 16 1)] ++ reserved o 17 15 ++ reserved o 40 24

/-- LANE_TEST (R170, R172): a test of a FENCED or free lane on demand. DESIGN CHOICE (log 121): a second one on a lane that runs a LANE_TEST
completes STATE. -/
def State.laneTestAccept (o : Order) (s : State) : State :=
  s.validate o (laneTestChecks o) (fun s =>
    let l := o.u 16 1
    if s.laneAssigned l ∨ (s.lane l).testRef.isSome then s.retire o stState
    else (s.updOrder o.ref (fun o => { o with phase := .running })).beginTest l (some o.ref))

/-- The arm of that order. -/
def execLaneTest (s : State) : Out := .next (s.accept 0x0302 State.laneTestAccept)

/-- R172: a cancel of a LANE_TEST: the lane is as it was before the test. -/
def State.laneTestCancel (s : State) (o : Order) : State :=
  let l := o.u 16 1
  let was := s.laneState l
  let s := if was = 5 then s.setLane l (if (s.lane l).before = 1 then 2 else (s.lane l).before) else s
  (s.dropTest l).settleLanes

/-! ### User windows (R170, R171) -/

/-- Whether an ARMED or RUNNING plan uses a user window. -/
def State.windowInUse (s : State) (slot : Nat) : Bool := s.livePlans.any (fun p => (s.plan p).u 21 1 == 8 + slot)

/-- The parameter checks of WINDOW_LOAD (R387): each field's byte offset, and whether the field is invalid. -/
def windowLoadChecks (o : Order) : List (Nat × Bool) :=
  [chk 16 (4 ≤ o.u 16 1), chk 17 (o.u 17 1 < 6 ∨ 16 < o.u 17 1)] ++ reserved o 18 6 ++ [chk 24 (o.u 24 8 % 64 ≠ 0)]
    ++ reserved o 48 16

/-- WINDOW_LOAD (R170, R171): the order reads its table. -/
def State.windowLoadAccept (o : Order) (s : State) : State :=
  s.validate o (windowLoadChecks o) (fun s =>
    if s.windowInUse (o.u 16 1) then s.retire o stState
    else (s.updOrder o.ref (fun o => { o with phase := .running })).startRead o (o.u 24 8) (4 * 2 ^ o.u 17 1))

/-- The arm of that order. -/
def execWindowLoad (s : State) : Out := .next (s.accept 0x0301 State.windowLoadAccept)

/-- R171: the table of a WINDOW_LOAD has been read. DESIGN CHOICE (log 122): a plan that has begun to use the slot meanwhile makes the order
complete STATE. Which DETAIL a bad entry gives is not stated: an open value. -/
def State.windowTable (s : State) (o : Order) (table : List Byte) : State :=
  let slot := o.u 16 1
  let ents := (List.range (2 ^ o.u 17 1)).map (fun i => field table (4 * i) 4)
  if s.windowInUse slot then s.retire o stState
  else if ents.any (fun e => sext 32 e ≠ sext 19 e) then
    let r := s.fresh
    r.2.retire o stBadParam (r.1 % 65536)
  else
    let cs := ents.map (sext 19)
    let sum := cs.foldl (· + ·) 0
    let sq := cs.foldl (fun a c => a + (c * c).toNat) 0
    ({ s with userWindows := SMap.put s.userWindows slot (o.u 17 1, cs) }).retireWith o stOk 0
      [(32, leBytes 8 (wrap 64 sum)), (40, leBytes 8 sq)]

end Machine
end Sys2Proof
end

