-- ==== Sys2Proof/Machine/Memory.lean ====
section
/-!
DEFINITION. Capture memory (chapter 9): channels, training, refresh, replay, scrubbing, fencing; pounds, drains and captures.

Marked choices (log entries): DEDUCED 54, 55, 124, 126, 135; DESIGN CHOICE 125. Each entry of notes/assumptions says safe or
unsafe.
-/

namespace Sys2Proof
namespace Machine

/-! ### Channels (R286–R297) -/

/-- MEM_CH_STATUS.STATE: 0 ABSENT, 1 TRAINING, 2 INIT, 3 READY, 4 FENCED, 5 FAILED. -/
def State.chState (s : State) (c : Nat) : Nat := s.get (R.MEM_CH_STATUS.STATE c)

/-- R287, Table 09-6: a data rate in units of 100 MT/s by its code. -/
def memSpeedOf (code : Nat) : Nat := [48, 56, 64, 72, 80].getD (min code 4) 80

/-- R289, R653: one populated channel begins training; its RESET_L is let go. -/
def State.trainChannel (s : State) (c : Nat) (g : MemGeom) : State :=
  if s.chState c ≠ 0 then s
  else
    let s := (s.put (R.MEM_CH_STATUS.STATE c) 1).put (R.MEM_CH_STATUS.TRAIN_STEP c) 0
    let s := ((s.put (R.MEM_CH_GEOM.RANKS c) g.ranks.val).put (R.MEM_CH_GEOM.WIDTH c) g.width.val).put
      (R.MEM_CH_GEOM.DENSITY c) g.density.val
    let s := s.put (R.MEM_CH_GEOM.GIB c) g.gib.val
    (s.updChannel c (fun x => { x with trainSince := some s.ns, trainFails := 0 })).send (.level 4 c true s.time)

/-- Whether a channel's geometry, as read, is one of Table 09-1: 16 x4 or 8 x8 data devices per rank, of 16, 24 or 32 Gb. -/
def State.geomOk (s : State) (c : Nat) : Bool :=
  let devices := if s.on (R.MEM_CH_GEOM.WIDTH c) then 8 else 16
  let gb := [2, 3, 4].getD (s.get (R.MEM_CH_GEOM.DENSITY c)) 0
  gb ≠ 0 && s.get (R.MEM_CH_GEOM.GIB c) == (s.get (R.MEM_CH_GEOM.RANKS c) + 1) * devices * gb

/-- R286, R287, R289: every populated channel that is ABSENT begins training. The first training sets the type and the one data rate: the
highest that the board, MEM_CTL.SPEED_MAX and Table 09-1 (6,400 MT/s for RDIMMs) allow; a later one keeps them. DEDUCED (log 124). -/
def State.beginTraining (s : State) (b : MemBoard) : State :=
  let s := { s with trainDue := false }
  if b.channels.all (fun c => s.chState c.1.val ≠ 0) then s
  else
    let s := if s.get R.MEM_INFO.POP ≠ 0 then s
      else
        let most := if b.rdimm then 2 else 4
        { s.put R.MEM_INFO.TYPE (b2n b.rdimm) with memSpeed := memSpeedOf (min (min b.limit.val most) (s.get R.MEM_CTL.SPEED_MAX)) }
    let s := s.put R.MEM_INFO.POP (b.channels.foldl (fun m c => setBit m c.1.val true) (s.get R.MEM_INFO.POP))
    b.channels.foldl (fun s c => s.trainChannel c.1.val c.2) s

/-- TRAINING_START (R287, R289): training that is due begins (at the first READY with AUTO_TRAIN = 1, or by a word written to MEM_CTL), or on a
write of MEM_CTL.TRAIN by a path; `b` is what the configuration sources hold. -/
def execTrainingStart (p : Option Path) (b : MemBoard) (s : State) : Out :=
  match p with
  | none => .next (if s.trainDue then s.beginTraining b else s)
  | some p => .next (s.gateAction p R.MEM_CTL (fun s => s.beginTraining b))

/-- The effect of a word written to MEM_CTL: TRAIN = 1 makes a training due. -/
def State.writeMemCtl (s : State) (w : Word) : State :=
  let s := s.plainWrite R.MEM_CTL w
  if bit w.toNat 4 then { s with trainDue := true } else s

/-- The capacity of the READY channels (MEM_INFO.GIB). -/
def State.settleGib (s : State) : State :=
  s.put R.MEM_INFO.GIB (((List.range 6).filter (fun c => s.chState c == 3)).foldl (fun n c => n + s.get (R.MEM_CH_GEOM.GIB c)) 0)

/-- R303: where a line of a pound lies, as (channel, line of 64 bytes): the pound's granules of 4 KiB lie round-robin on the channels of its
layout, in increasing channel order, from block BASE on; the two copies of a header lie in granules that follow each other, so on different
channels wherever there are two (R300). Where in a pound a record lies is open. DESIGN CHOICE (log 125). -/
def State.lineAt (s : State) (p : Nat) (use : LineUse) : Option (Nat × Nat) :=
  let ls := (s.pound p).layout
  let n := max 1 ls.length
  let total := max 1 (s.get (R.POUND_EFF.SIZE_EFF p) * 256)
  let at_ := fun (g line : Nat) =>
    some (ls.getD (g % total % n) 6, s.get (R.POUND_BASE.BASE p) * 16384 + g % total / n * 64 + line % 64)
  match use with
  | .payload k off => at_ (Config.poundPlace k + off / 4096) (off / 64)
  | .header k c => at_ ((Config.headerPlace k).1 + c.val) (Config.headerPlace k).2
  | .store off => at_ (off / 4096) (off / 64)
  | .unused => none

/-- Bytes of a payload or store from `base` on replaced by 0 where `p` holds of their offset. -/
def zeroWhere (p : Nat → Bool) (base : Nat) : List Byte → List Byte
  | [] => []
  | b :: t => (if p base then 0#8 else b) :: zeroWhere p (base + 1) t

/-- R290: INIT writes zero data to every line of a channel: the payloads and STORE bytes that the enabled pounds have there become 0, and no
line of it is poisoned. The headers of the records are left. DEDUCED (log 126). -/
def State.zeroChannel (s : State) (c : Nat) : State :=
  let s := s.updChannel c (fun x => { x with badLines := [] })
  ((List.range 64).filter (fun p => (s.pound p).layout.contains c)).foldl (fun (s : State) p =>
    let here := fun (use : LineUse) => (s.lineAt p use).any (fun x => x.1 == c)
    s.updPound p (fun d => { d with
      barges := d.barges.map (fun b => { b with
        barge := { b.barge with payload := zeroWhere (fun i => here (.payload b.number i)) 0 b.barge.payload }
        poison := b.poison.filter (fun r => r.channel ≠ c) })
      store := d.store.filter (fun e => !here (.store e.1))
      badLines := d.badLines.filter (fun l => !here (.store (64 * l))) })) s

/-- R289, R290: a channel enters INIT. -/
def State.beginInit (s : State) (c : Nat) : State :=
  let s := (s.put (R.MEM_CH_STATUS.STATE c) 2).put (R.MEM_CH_STATUS.INIT_PCT c) 0
  (s.updChannel c (fun x => { x with trainSince := none, initSince := s.ns, everTrained := true })).zeroChannel c

/-- TRAINING_DONE (R286, R289, R290): a channel's training ends, in `step` if it fails (in step 1 where the geometry is none of Table 09-1): a first
failure retrains it, a second makes it FAILED. -/
def execTrainingDone (c : Fin 6) (ok : Bool) (step : Fin 10) (s : State) : Out :=
  let c := c.val
  if s.chState c ≠ 1 then .next s
  else if ok && s.geomOk c then .next ((s.beginInit c).put R.MEM_INFO.SPEED s.memSpeed)
  else if (s.channel c).trainFails = 0 then .next (s.updChannel c (fun x => { x with trainFails := 1, trainSince := some s.ns }))
  else
    let s := (s.put (R.MEM_CH_STATUS.STATE c) 5).put (R.MEM_CH_STATUS.TRAIN_STEP c) (if s.geomOk c then step.val else 1)
    .next ((s.updChannel c (fun x => { x with trainSince := none })).raiseInst 128 c)

/-- R290: bytes of a channel initialised since INIT began: 52 GB/s at DDR5-8000, scaled with the data rate. -/
def State.initBytes (s : State) (c : Nat) : Nat := (s.ns - (s.channel c).initSince) * 52 * s.memSpeed / 80
def State.channelBytes (s : State) (c : Nat) : Nat := s.get (R.MEM_CH_GEOM.GIB c) * 2 ^ 30

/-- INIT_PCT as it now stands, and is read (R290, R311). -/
def State.initPct (s : State) (c : Nat) : Nat :=
  if s.chState c = 2 then min 100 (s.initBytes c * 100 / max 1 (s.channelBytes c)) else s.get (R.MEM_CH_STATUS.INIT_PCT c)

/-- INIT_DONE (R290): the last line is written: the channel is READY and its scrubber starts. -/
def execInitDone (c : Fin 6) (s : State) : Out :=
  let c := c.val
  if s.chState c = 2 ∧ s.channelBytes c ≤ s.initBytes c then
    let s := (s.put (R.MEM_CH_STATUS.STATE c) 3).put (R.MEM_CH_STATUS.INIT_PCT c) 100
    .next ((s.updChannel c (fun x => { x with scrubLine := 0, cePass := 0 })).settleGib)
  else .next s

/-- Whether a channel's DRAM is being refreshed: trained and not fenced. -/
def State.chLive (s : State) (c : Nat) : Bool := s.chState c == 2 || s.chState c == 3

/-- REFRESH_DUE (R294): one refresh interval of a bank has passed (3.9 µs, 1.95 µs while MR4 reports a hot DRAM): an idle bank is refreshed, up to 4
intervals ahead; a busy one has its refresh postponed, and forced at 4. -/
def execRefreshDue (c : Fin 6) (bank : Fin 128) (busy : Bool) (s : State) : Out :=
  let c := c.val
  let x := s.channel c
  if !s.chLive c || s.ns < (SMap.find? x.refreshAt bank.val).getD 0 + x.interval then .next s
  else
    let n := (SMap.find? x.refresh bank.val).getD 0
    .next (s.updChannel c (fun x => { x with
      refreshAt := SMap.put x.refreshAt bank.val s.ns
      refresh := SMap.put x.refresh bank.val (if busy then min 4 (n + 1) else -4) }))

/-- MR4_READ (R294, R295): every 16 ms the temperature report sets the refresh interval and HOT; MEM_HOT once per channel. -/
def execMr4Read (c : Fin 6) (hot : Bool) (s : State) : Out :=
  let c := c.val
  if !s.chLive c || s.ns < (s.channel c).mr4At + 16000000 then .next s
  else
    let raised := (s.channel c).hotRaised
    let s := (s.put (R.MEM_CH_STATUS.HOT c) (b2n hot)).updChannel c (fun x => { x with
      interval := if hot then 1950 else 3900, hotRaised := x.hotRaised || hot, mr4At := s.ns })
    .next (if hot && !raised then s.raiseInst 129 c else s)

/-! ### Pounds: extents (R303) -/

/-- The channels of a pound, as written and as left after fences. -/
def State.poundChannels (s : State) (p : Nat) : List Nat := (List.range 6).filter (fun c => bit (s.get (R.POUND_CFG.CHMASK p)) c)
def State.poundLive (s : State) (p : Nat) : List Nat := (s.poundChannels p).filter (fun c => s.chState c ≠ 4)

/-- Blocks of 1 MiB that a pound occupies on each of its channels. -/
def State.poundBlocks (s : State) (p : Nat) : Nat := s.get (R.POUND_SIZE.SIZE p) / max 1 (s.poundChannels p).length

/-- Whether a pound is enabled (any state but OFF). -/
def State.poundOn (s : State) (p : Nat) : Bool := s.poundState p ≠ 0

/-- R298: the enabled pound that owns a line of a channel; 0x3F for none. -/
def State.lineOwner (s : State) (c line : Nat) : Nat :=
  let blk := line * 64 / 2 ^ 20
  ((List.range 64).find? (fun p => s.poundOn p && (s.poundChannels p).contains c && s.get (R.POUND_BASE.BASE p) ≤ blk
    && blk < s.get (R.POUND_BASE.BASE p) + s.poundBlocks p)).getD 0x3F

/-- R303: whether the settings of a pound are refused at EN = 1. -/
def State.poundRefused (s : State) (p : Nat) : Bool :=
  let cs := s.poundChannels p
  let size := s.get (R.POUND_SIZE.SIZE p)
  let kb := s.get (R.POUND_CFG.BARGE_KB p)
  let base := s.get (R.POUND_BASE.BASE p)
  let blocks := s.poundBlocks p
  let record := !s.on (R.POUND_CFG.KIND p)
  cs.isEmpty || cs.any (fun c => !s.chLive c) || size % max 1 cs.length ≠ 0
    || size * 2 ^ 20 < 8 * kb * 4096 || cs.any (fun c => s.get (R.MEM_CH_GEOM.GIB c) * 1024 < base + blocks)
    || (List.range 64).any (fun q => q ≠ p && s.poundOn q && (s.poundChannels q).any (fun c => cs.contains c)
        && base < s.get (R.POUND_BASE.BASE q) + s.poundBlocks q && s.get (R.POUND_BASE.BASE q) < base + blocks)
    || kb < 1 || 16 < kb
    || (record && (s.get (R.POUND_CFG.SRC_CLASS p) = 3 ∨ (s.get (R.POUND_CFG.SRC_CLASS p) = 0 ∧ 4 ≤ s.get (R.POUND_CFG.SRC_INDEX p))))
    || 0x8000 ≤ s.get (R.POUND_STREAM.STREAM p)

/-- Whether INIT has passed a pound's whole extent, on the channels that are not fenced. -/
def State.extentInit (s : State) (p : Nat) : Bool :=
  (s.poundLive p).all (fun c => s.chState c == 3
    || (s.chState c == 2 && (s.get (R.POUND_BASE.BASE p) + s.poundBlocks p) * 2 ^ 20 ≤ s.initBytes c))

/-- A pound becomes ACTIVE, or FROZEN if FREEZE is set (Table 09-5). -/
def State.poundActive (s : State) (p : Nat) : State :=
  s.put (R.POUND_STATUS.STATE p) (if s.on (R.POUND_CFG.FREEZE p) && !s.on (R.POUND_CFG.KIND p) then 3 else 2)

/-- R303, Table 09-5: EN = 1 on a pound that is OFF. -/
def State.enablePound (s : State) (p : Nat) : State :=
  if s.poundRefused p then (s.put (R.POUND_CFG.EN p) 0).put (R.POUND_STATUS.CFG_ERR p) 1
  else
    let s := (s.put (R.POUND_CFG.EN p) 1).updPound p (fun d => { drains := d.drains.map (fun e => (e.1, { on := e.2.on })), layout := s.poundChannels p })
    let s := ((s.put (R.POUND_STATUS.SHRUNK p) 0).put (R.POUND_EFF.SIZE_EFF p) (s.get (R.POUND_SIZE.SIZE p))).setWord (R.POUND_LOST p) 0#32
    let s := s.setWord (R.POUND_HIST p) 0#32
    if s.extentInit p then s.poundActive p else s.put (R.POUND_STATUS.STATE p) 1

/-- The captures that have not ended on a pound (POUND_STATUS.CAPTURES). -/
def State.settleCaptures (s : State) (p : Nat) : State :=
  s.put (R.POUND_STATUS.CAPTURES p) (min 63 (s.captures.filter (fun c => c.pound == p)).length)

/-- R312, R313: what a POUND_CUT reports. -/
def cutOuts (c : Capture) : List (Nat × List Byte) := [(48, leBytes 8 c.bytes), (56, leBytes 4 c.gaps)]

/-- A capture ended: out of the engine, its order retired. -/
def State.endCapture (s : State) (c : Capture) (status : Nat) : State :=
  let s := { s with captures := s.captures.filter (fun x => x != c) }
  let s := match c.order with
    | some r => s.retireRef r status (cutOuts c)
    | none => s
  s.settleCaptures c.pound

/-- The generators whose segments lie in a pound abort (R471). -/
def State.abortPoundSgs (s : State) (p : Nat) : State :=
  (List.range 8).foldl (fun s g => if (s.sg g).pounds.contains p then s.sgAbort g 7 else s) s

/-- Table 09-5: EN = 0: contents discarded, drains stop, captures retire CANCELLED_PARTIAL. -/
def State.disablePound (s : State) (p : Nat) : State :=
  let s := ((s.put (R.POUND_CFG.EN p) 0).put (R.POUND_STATUS.STATE p) 0).put (R.POUND_STATUS.SHRUNK p) 0
  let s := (s.captures.filter (fun c => c.pound == p)).foldl (fun s c => s.endCapture c stPartial) s
  let s := s.updPound p (fun d => { drains := d.drains.map (fun e => (e.1, { on := e.2.on })) })
  ((s.setWord (R.POUND_EFF p) 0#32).setWord (R.POUND_HIST p) 0#32).abortPoundSgs p

/-- R303, Table 09-5: FREEZE written: the writer stops at the next barge boundary; FREEZE = 0 resumes it, with a GAP mark over the
unrecorded span. -/
def State.freezePound (s : State) (p : Nat) (on : Bool) : State :=
  let s := s.put (R.POUND_CFG.FREEZE p) (b2n on)
  if s.on (R.POUND_CFG.KIND p) then s
  else if on && s.poundState p = 2 then s.put (R.POUND_STATUS.STATE p) 3
  else if !on && s.poundState p = 3 then
    let s := s.put (R.POUND_STATUS.STATE p) 2
    match (s.pound p).frozen with
    | some z => (s.updPound p (fun d => { d with frozen := none })).markPound p
        (mkGapMark 0 0 z.first (markQual z.qual) 0x0A p z.count (some (z.last - z.first)))
    | none => s
  else s

/-- R303, R311: the effect of a word written to POUND_CFG(p): while EN = 1 every change but FREEZE and EN = 0 is refused. -/
def State.writePoundCfg (s : State) (p : Nat) (w : Word) : State :=
  let old := s.word (R.POUND_CFG p)
  let en := bit w.toNat 0
  if s.on (R.POUND_CFG.EN p) then
    let s := if (old ^^^ w) &&& 0x1F7FF6#32 ≠ 0#32 then s.put (R.POUND_STATUS.CFG_ERR p) 1 else s
    let s := if bit w.toNat 3 ≠ s.on (R.POUND_CFG.FREEZE p) then s.freezePound p (bit w.toNat 3) else s
    if en then s else s.disablePound p
  else
    let s := s.plainWrite (R.POUND_CFG p) (w &&& ~~~1#32)
    if en then s.enablePound p else s

/-- R311: a word written to POUND_BASE, POUND_SIZE or POUND_STREAM. -/
def State.writePoundSet (s : State) (p key : Nat) (w : Word) : State :=
  if s.on (R.POUND_CFG.EN p) then
    if s.word key = storeWord ((findReg key).getD ⟨0, 0, 0, 0, 0, []⟩) (s.word key) w then s else s.put (R.POUND_STATUS.CFG_ERR p) 1
  else s.plainWrite key w

/-- R306, R311: a word written to POUND_DRAIN(p, d): a drain begins at the first barge committed after its enable. -/
def State.writeDrain (s : State) (p d : Nat) (w : Word) : State :=
  let s := s.plainWrite (R.POUND_DRAIN p d) w
  let on := s.on (R.POUND_DRAIN.EN p d)
  let x := (SMap.find? (s.pound p).drains d).getD {}
  if on = x.on then s
  else s.updPound p (fun y => { y with drains := SMap.put y.drains d (if on then { on := true, next := y.number } else {}) })

/-- POUND_ENABLE (R303, R311, R317): a write of POUND_CFG(p) with a changed EN. -/
def execPoundEnable (p : Path) (n : Fin 64) (w : Word) (s : State) : Out :=
  .next (s.gate p (R.POUND_CFG n.val) (fun s => s.retainWrite (R.POUND_CFG n.val) w) (fun s => s.writePoundCfg n.val w))

/-- POUND_FREEZE (R303, R311): a write of FREEZE alone. -/
def execPoundFreeze (p : Path) (n : Fin 64) (on : Bool) (s : State) : Out :=
  .next (s.gateField p (R.POUND_CFG.FREEZE n.val) (b2n on) (fun s => s.freezePound n.val on))

/-- INIT_PASSED_EXTENT (Table 09-5): INIT has passed the whole extent of a pound in WAIT_INIT. -/
def execInitPassedExtent (n : Fin 64) (s : State) : Out :=
  .next (if s.poundState n.val = 1 ∧ s.extentInit n.val then s.poundActive n.val else s)

/-! ### The pound writer's commits (R304, R307) -/

/-- Payload bytes of the data barges from a number on; marks take no room (the layout of marks in a pound is not stated). -/
def heldFrom (n : Nat) (l : List PBarge) : Nat :=
  (l.filter (fun b => n ≤ b.number && !b.barge.isMark)).foldl (fun t b => t + b.barge.payload.length) 0

/-- The number below which every enabled drain has read. -/
def Pound.readUpTo (d : Pound) : Nat :=
  (d.drains.filter (fun e => e.2.on)).foldl (fun m e => min m e.2.next) d.number

/-- The records below number `n` gone from a pound. -/
def dropBelow (n : Nat) (l : List PBarge) : List PBarge := l.filter (fun b => n ≤ b.number)

/-- The number of the first record to keep so that the data held takes at most `room` bytes: whole barges go, oldest first, and
the marks before them. -/
def keepFrom (room : Nat) : List PBarge → Nat → Nat
  | [], n => n
  | b :: t, _ => if heldFrom 0 (b :: t) ≤ room then b.number else keepFrom room t (b.number + 1)

/-- R307: bytes lost: LOST_KIB, LOSS_SEEN and POUND_LOSS. -/
def State.poundLoss (s : State) (p bytes : Nat) : State :=
  let n := (s.pound p).lostBytes + bytes
  let s := (s.updPound p (fun d => { d with lostBytes := n % 1024 })).satInc (R.POUND_LOST.LOST_KIB p) (n / 1024)
  (s.put (R.POUND_STATUS.LOSS_SEEN p) 1).raiseInst 136 p

/-- R307, ADVANCE: a drain overtaken by the writer moves to number `n`; a GAP mark covers the span it skipped, and marks that it
skipped stand after it (R336). -/
def State.overtake (s : State) (p n : Nat) (d : Nat × Drain) : Nat × Drain :=
  let x := s.pound p
  if !d.2.on || n ≤ d.2.next then d
  else
    let lost := x.barges.filter (fun b => d.2.next ≤ b.number && b.number < n)
    let data := lost.filter (fun b => !b.barge.isMark)
    match data with
    | [] => (d.1, { d.2 with next := n, first := d.2.first ++ lost.map (fun b => b.barge) })
    | a :: _ =>
      let e := (data.getLast?.getD a).endStamp
      let g := mkGapMark (s.get (R.POUND_STREAM.STREAM p)) (s.poundSource p) a.barge.stamp (s.qual (refOf (s.poundSource p))) 0x09 p
        ((data.map (fun b => samplesIn b.barge)).sum) (some (e - a.barge.stamp)) flAux
      (d.1, { d.2 with next := n, first := d.2.first ++ [g] ++ (lost.filter (fun b => b.barge.isMark)).map (fun b => b.barge) })

/-- A CHANNEL_FENCED mark whose end is still to come: OPEN with no length, which no mark that is sent has. -/
def fencePending (m : Barge) : Bool :=
  m.isMark && m.format % 256 == mkGap && bits m.word48 0 8 == 0x0C && bit m.word48 16 && m.word40 == 0

/-- R302, R331, R332: the CHANNEL_FENCED marks that a re-lay left open end at the first sample recorded after it. -/
def State.closeFence (s : State) (p stamp : Nat) (m : Barge) : Barge :=
  if fencePending m then
    let w := gapWords 0x0C (bits m.word48 8 6) (s.samplesBetween (s.poundSource p) m.stamp stamp) (some (stamp - m.stamp))
    { m with word40 := w.1, word48 := w.2 }
  else m

/-- A record put at the end of a pound, with the next SEQ. -/
def State.appendRecord (s : State) (p : Nat) (b : Barge) (endStamp : Nat) : State :=
  s.updPound p (fun d => { d with
    barges := d.barges ++ [{ number := d.number, barge := { b with seq := d.seq }, endStamp := endStamp }]
    number := d.number + 1, seq := (d.seq + 1) % 2 ^ 32 })

/-- HIST_US: the span of committed samples held. -/
def State.settleHist (s : State) (p : Nat) : State :=
  let data := (s.pound p).barges.filter (fun b => !b.barge.isMark)
  match data, data.getLast? with
  | a :: _, some z => s.put (R.POUND_HIST.HIST_US p) (min (2 ^ 32 - 1) ((z.endStamp - a.barge.stamp) / (1000 * 65536)))
  | _, _ => s.put (R.POUND_HIST.HIST_US p) 0

/-- R298: the lines that a new record takes are poisoned no more. -/
def State.clearPoison (s : State) (p : Nat) (b : Barge) : State :=
  let k := (s.pound p).number
  let spots := ((List.range ((b.payload.length + 4095) / 4096)).map (fun i => (s.lineAt p (.payload k (4096 * i)), 64)))
    ++ [(s.lineAt p (.header k 0), 1), (s.lineAt p (.header k 1), 1)]
  spots.foldl (fun (s : State) e => match e.1 with
    | some (c, l) => if (s.channel c).badLines.isEmpty then s
        else s.updChannel c (fun x => { x with badLines := x.badLines.filter (fun y => y < l || l + e.2 ≤ y) })
    | none => s) s

/-- The marks that wait for the data barge they precede are committed, with the mark `g` of a discarded span, if any, in its place among
them (R335, R336). -/
def State.commitBehind (s : State) (p : Nat) (g : Option Barge) : State :=
  let ms := match g with
    | some g => insertMark g (s.pound p).behind
    | none => (s.pound p).behind
  ms.foldl (fun (s : State) m => s.appendRecord p m m.stamp) (s.updPound p (fun d => { d with behind := [] }))

/-- R304, R307: a data barge committed under the pound's policy. -/
def State.commitData (s : State) (p : Nat) (b : Barge) (endStamp : Nat) : State :=
  let d := s.pound p
  let size := b.payload.length
  let cap := s.get (R.POUND_EFF.SIZE_EFF p) * 2 ^ 20
  let unread := heldFrom d.readUpTo d.barges
  let drop := if d.dropping.isSome then decide (cap < unread + 2 * size) else decide (cap < unread + size)
  if !s.on (R.POUND_CFG.POLICY p) && drop then
    let z : Discards := match d.dropping with
      | some z => { z with last := endStamp, count := z.count + samplesIn b }
      | none => ⟨b.stamp, endStamp, samplesIn b, b.qual⟩
    (s.updPound p (fun d => { d with dropping := some z })).poundLoss p size
  else
    let g := d.dropping.map (fun z => mkGapMark b.stream b.source z.first (markQual z.qual) 0x08 p z.count (some (z.last - z.first)))
    let s := (s.updPound p (fun d => { d with dropping := none })).commitBehind p g
    let n := keepFrom (cap - size) (s.pound p).barges (s.pound p).number
    let lost := heldFrom d.readUpTo (d.barges.filter (fun x => x.number < n))
    let ds := d.drains.map (fun e => s.overtake p n e)
    let s := s.updPound p (fun d => { d with drains := ds, barges := dropBelow n d.barges })
    let s := if lost = 0 then s else s.poundLoss p lost
    let close := s.closeFence p b.stamp
    let s := s.updPound p (fun d => { d with drains := d.drains.map (fun e => (e.1, { e.2 with first := e.2.first.map close })) })
    let fix := fun (c : Capture) => if c.pound = p then { c with first := c.first.map close } else c
    (({ s with captures := s.captures.map fix }.clearPoison p b).appendRecord p b endStamp).settleHist p

/-- R301: whether a channel of a pound's layout is fenced, so that the pound is neither read nor written until it is re-laid. -/
def State.poundStalled (s : State) (p : Nat) : Bool := (s.pound p).layout.any (fun c => s.chState c == 4)

/-- R335, R336: whether a mark waits for the data barge that follows it among those ready: it lies in that barge, or samples before it have
been discarded. -/
def State.markWaits (s : State) (p : Nat) (m : Barge) (rest : List (Barge × Nat)) : Bool :=
  (s.pound p).dropping.isSome || !(s.pound p).behind.isEmpty
    || (rest.find? (fun x => !x.1.isMark)).any (fun x => x.1.stamp ≤ m.stamp)

/-- BARGE_COMMIT (R303, R304, R307, R329): the writer commits the next barge or mark that is ready in a pound. -/
def execBargeCommit (n : Fin 64) (s : State) : Out :=
  let p := n.val
  match (s.pound p).ready with
  | [] => .next s
  | (b, e) :: t =>
    if (s.poundState p ≠ 2 ∧ s.poundState p ≠ 3) ∨ s.poundStalled p then .next s
    else
      let s := s.updPound p (fun d => { d with ready := t })
      .next (if !b.isMark then s.commitData p b e
        else if s.markWaits p b t then s.updPound p (fun d => { d with behind := d.behind ++ [b] })
        else s.appendRecord p b e)

/-! ### Errors (R296–R301) -/

/-- R54: the DACs whose generators play from a fenced channel are muted. -/
def State.muteFenced (s : State) (c : Nat) : State :=
  (List.range 4).foldl (fun s g => if 2 ≤ s.sgState g && s.sgInChannel g c then s.muteDac g 2 else s) s

/-- R301: a fence cause takes a READY channel to FENCED (1 PARITY, 2 UE, 3 DRIFT, 4 INJECT). -/
def State.fenceChannel (s : State) (c cause : Nat) : State :=
  if s.chState c ≠ 3 then s
  else
    let s := (s.put (R.MEM_CH_STATUS.STATE c) 4).put (R.MEM_CH_STATUS.FCAUSE c) cause
    let s := s.updChannel c (fun x => { x with replay := false, alertSeen := false })
    (((s.satInc R.GLOBAL_PROT.ACTIONS).settleGib).raiseInst 134 c).muteFenced c

/-- CHANNEL_FENCE (R301): a cause of R301 fences a channel: 1 three replays in a row have failed; 2 the demand-read errors of the last second
exceed UE_FENCE on a memory-down channel; 3 a drift beyond the correctable range. A write of MEM_FENCE has its own command. -/
def execChannelFence (c : Fin 6) (cause : Fin 5) (s : State) : Out :=
  let c := c.val
  let lim := s.get R.MEM_CTL.UE_FENCE
  let due := match cause.val with
    | 1 => decide (3 ≤ s.get (R.MEM_CH_PAR.REPLAY_FAIL c))
    | 2 => lim ≠ 0 && !s.on R.MEM_INFO.TYPE && lim < ((s.channel c).ues.filter (fun t => s.ns < t + 1000000000)).length
    | 3 => true
    | _ => false
  .next (if due then s.fenceChannel c cause.val else s)

/-- R301: a word written to MEM_FENCE. -/
def State.writeMemFence (s : State) (ch key : Nat) : State := if key = 0x4D46 ∧ ch < 6 then s.fenceChannel ch 4 else s

/-- MEM_FENCE (R301): a write of MEM_FENCE. -/
def execMemFence (p : Path) (ch : Fin 8) (key : BitVec 16) (s : State) : Out :=
  .next (s.gateAction p R.MEM_FENCE (fun s => s.writeMemFence ch.val key.toNat))

/-- PERIODIC_CALIBRATION (R288, R295, R301): ZQ calibration and the DQS oscillator; a drift beyond the correctable range fences
the channel. -/
def execPeriodicCalibration (c : Fin 6) (drift : Bool) (s : State) : Out :=
  .next (if drift && s.chLive c.val then s.fenceChannel c.val 3 else s)

/-- ALERT_N (R296, R297): the register clock driver of a channel asserts ALERT_n: the controller replays; an alert during a replay
makes the replay a failure. -/
def execAlertN (c : Fin 6) (s : State) : Out :=
  let c := c.val
  if !s.chLive c || !s.on R.MEM_INFO.TYPE then .next s
  else
    let s := (s.satInc (R.MEM_CH_PAR.ALERTS c)).raiseInst 130 c
    .next (s.updChannel c (fun x => { x with replay := true, alertSeen := x.replay }))

/-- REPLAY_DONE (R297, R301): a replay ends: without an alert REPLAY_FAIL is 0 again; with one it failed, the third failure in a
row fences the channel, and an earlier one starts the sequence again. -/
def execReplayDone (c : Fin 6) (s : State) : Out :=
  let c := c.val
  let x := s.channel c
  if !x.replay then .next s
  else if !x.alertSeen then .next ((s.put (R.MEM_CH_PAR.REPLAY_FAIL c) 0).updChannel c (fun x => { x with replay := false }))
  else
    let n := s.get (R.MEM_CH_PAR.REPLAY_FAIL c) + 1
    let s := (s.put (R.MEM_CH_PAR.REPLAY_FAIL c) (min n 3)).updChannel c (fun x => { x with alertSeen := false })
    .next (if 3 ≤ n then s.fenceChannel c 1 else s)

/-- R298: a correctable error corrected: counted, and reported once per scrub pass at CE_THRESH. -/
def State.correctable (s : State) (c : Nat) : State :=
  let n := (s.channel c).cePass + 1
  let s := (s.satInc (R.MEM_CH_ECC.CE c)).updChannel c (fun x => { x with cePass := n })
  if s.get R.MEM_CTL.CE_THRESH = n then s.raiseInst 131 c else s

/-- Runs in increasing offset order (R299). -/
def sortRuns (l : List PoisonRun) : List PoisonRun :=
  l.foldl (fun acc r => (acc.filter (fun x => x.offset < r.offset)) ++ [r] ++ acc.filter (fun x => r.offset ≤ x.offset)) []

/-- R299: runs in offset order that touch and come from one channel and one finder are one range. -/
def joinRuns : List PoisonRun → List PoisonRun
  | [] => []
  | r :: l =>
    match joinRuns l with
    | [] => [r]
    | x :: t => if r.channel = x.channel ∧ r.scrub = x.scrub ∧ r.offset + 64 * r.lines = x.offset
        then { r with lines := r.lines + x.lines } :: t else r :: x :: t

/-- A poisoned line noted in a barge, joined with the runs that it touches (R299). -/
def addPoison (off c : Nat) (scrub : Bool) (l : List PoisonRun) : List PoisonRun :=
  if l.any (fun r => r.offset ≤ off && off < r.offset + 64 * r.lines) then l else joinRuns (sortRuns ({ offset := off, lines := 1, channel := c, scrub := scrub } :: l))

/-- R298: a line of a pound is rewritten with data zero and the poison syndrome. -/
def State.poisonLine (s : State) (p c : Nat) (scrub : Bool) (use : LineUse) : State :=
  let onBarge := fun (n : Nat) (f : PBarge → PBarge) =>
    s.updPound p (fun d => { d with barges := d.barges.map (fun b => if b.number = n then f b else b) })
  match use with
  | .payload n off => onBarge n (fun b => { b with
      poison := addPoison (off / 64 * 64) c scrub b.poison
      barge := { b.barge with payload := zeroWhere (fun i => i / 64 == off / 64) 0 b.barge.payload } })
  | .header n k => onBarge n (fun b => if k = 0 then { b with hdr0 := true } else { b with hdr1 := true })
  | .store off => s.updPound p (fun d => { d with
      store := Mem.writes 0#8 d.store (off / 64 * 64) (List.replicate 64 0#8)
      badLines := if d.badLines.contains (off / 64) then d.badLines else d.badLines ++ [off / 64] })
  | .unused => s

/-- A line noted as poisoned. -/
def State.noteBad (s : State) (c line : Nat) : State :=
  s.updChannel c (fun x => if x.badLines.contains line then x else { x with badLines := line :: x.badLines })

/-- R298, R301: an error met by a demand read in a pound, on the line where what it reads lies. A line that holds the poison syndrome counts no
new error. An uncorrectable one raises MEM_UE_READ with the channel, the line and the pound, and too many in a second fence a memory-down
channel. -/
def State.demandError (s : State) (p : Nat) (e : LineErr) : State :=
  let c := e.channel.val
  match s.lineAt p e.use with
  | none => s
  | some (c', line) =>
    if c' ≠ c then s
    else if (s.channel c).badLines.contains line then s
    else if e.correctable then s.correctable c
    else
      let s := (s.satInc (R.MEM_CH_ECC.UE c)).raiseWith 132 c [c, line, p]
      let s := (s.poisonLine p c false e.use).noteBad c line
      let s := s.updChannel c (fun x => { x with ues := (s.ns :: x.ues).filter (fun t => s.ns < t + 1000000000) })
      let lim := s.get R.MEM_CTL.UE_FENCE
      if lim ≠ 0 && !s.on R.MEM_INFO.TYPE && lim < (s.channel c).ues.length then s.fenceChannel c 2 else s

/-- SCRUB_LINE (R298): the scrubber of a READY channel reads its next line: a correctable error is corrected; an uncorrectable one
is rewritten as poison and raises MEM_UE_SCRUB with the channel, the line and the owning pound, unless the line holds the poison syndrome
already; `use` says what the line holds. -/
def execScrubLine (c : Fin 6) (r : LineRead) (use : LineUse) (s : State) : Out :=
  let c := c.val
  if s.chState c ≠ 3 || !s.on R.MEM_CTL.SCRUB_EN then .next s
  else
    let line := (s.channel c).scrubLine
    let total := s.channelBytes c / 64
    let s := match r with
      | .clean => s
      | .corrected => if (s.channel c).badLines.contains line then s else s.correctable c
      | .uncorrectable =>
        if (s.channel c).badLines.contains line then s
        else
          let p := s.lineOwner c line
          let s := (s.raiseWith 133 c [c, line, p]).noteBad c line
          if s.poundOn p ∧ s.lineAt p use = some (c, line) then s.poisonLine p c true use else s
    let s := s.put (R.MEM_CH_SCRUB.POS_PCT c) (if total ≤ line + 1 then 0 else (line + 1) * 100 / max 1 total)
    .next (if total ≤ line + 1 then
        (s.inc (R.MEM_CH_SCRUB.PASSES c)).updChannel c (fun x => { x with scrubLine := 0, cePass := 0 })
      else s.updChannel c (fun x => { x with scrubLine := line + 1 }))

/-! ### Re-laying (R302) -/

/-- The CHANNEL_FENCED mark of a drain or capture, whose end is still to come: from the oldest sample it had not read. -/
def State.fenceMark (s : State) (p c stamp : Nat) : Barge :=
  mkMark (s.get (R.POUND_STREAM.STREAM p)) (s.poundSource p) mkGap stamp (s.qual (refOf (s.poundSource p))) 0
    (0x0C + c % 64 * 256 + 65536) flAux

/-- A STORE pound that lost a channel, and a pound with none left, is FAILED (R302, R471). -/
def State.failPound (s : State) (p : Nat) : State :=
  let s := (s.captures.filter (fun c => c.pound == p)).foldl (fun s c => s.endCapture c stPartial) s
  let s := (s.put (R.POUND_STATUS.STATE p) 4).updPound p (fun d => { drains := d.drains })
  (s.setWord (R.POUND_HIST p) 0#32).abortPoundSgs p

/-- The history of a pound that lost channel `c` is discarded: its drains and captures get the mark and go on behind it, the marks they have
not read after it (R302, R336). -/
def State.relayPound (s : State) (p c : Nat) : State :=
  let d := s.pound p
  let from_ := fun (k : Nat) => match d.barges.find? (fun b => k ≤ b.number && !b.barge.isMark) with
    | some b => b.barge.stamp
    | none => match d.ready.find? (fun b => !b.1.isMark) with
      | some b => b.1.stamp
      | none => if d.fill.isEmpty then s.time else d.fillStamp
  let unread := fun (k : Nat) => (d.barges.filter (fun b => k ≤ b.number && b.barge.isMark)).map (fun b => b.barge)
  let drains := d.drains.map (fun e => if e.2.on then
      (e.1, { e.2 with next := d.number, first := e.2.first ++ [s.fenceMark p c (from_ e.2.next)] ++ unread e.2.next }) else e)
  let cut := fun (x : Capture) => if x.pound = p ∧ x.accepted then
      { x with next := d.number, first := x.first ++ [s.fenceMark p c (max x.pos (from_ x.next))]
          ++ (unread x.next).filter (fun m => x.start ≤ m.stamp && m.stamp < x.stop) } else x
  let s := { s with captures := s.captures.map cut }
  let s := s.updPound p (fun d => { d with
    barges := [], ready := d.ready.filter (fun b => b.1.isMark), fill := [], dropping := none, drains := drains, layout := s.poundLive p, resume := true })
  (s.put (R.POUND_STATUS.SHRUNK p) 1).settleHist p

/-- POUND_RELAY (R302, R471): a pound with a fenced channel in its CHMASK keeps its blocks on the channels left, its history
discarded; a STORE pound, or one with no channel left, is FAILED. -/
def execPoundRelay (n : Fin 64) (s : State) : Out :=
  let p := n.val
  let live := s.poundLive p
  let eff := s.poundBlocks p * live.length
  let c := ((s.poundChannels p).filter (fun c => s.chState c == 4)).getLastD 0
  if !s.poundOn p || s.poundState p = 4 || live.length = (s.poundChannels p).length || eff = s.get (R.POUND_EFF.SIZE_EFF p) then .next s
  else
    let s := s.put (R.POUND_EFF.SIZE_EFF p) eff
    .next (if s.on (R.POUND_CFG.KIND p) || live.isEmpty then s.failPound p else s.relayPound p c)


/-! ### Reading (R299, R300, R306, R325) -/

/-- Table 09-4: the POISON mark of one run of a barge. -/
def poisonMark (p : Nat) (b : Barge) (r : PoisonRun) : Barge :=
  mkMark b.stream b.source mkPoison b.stamp (b.qual % 16 + (if b.qual / 128 % 2 = 1 then 128 else 0)) 0
    (r.offset + min r.lines 65535 * 2 ^ 32 + r.channel % 8 * 2 ^ 48 + b2n r.scrub * 2 ^ 51 + p % 64 * 2 ^ 52) flAux

/-- R298–R300, R325, R359: a recorded barge as a reader gives it on: POISONED and ALT_HDR set; and the POISON marks that follow it. -/
def readRecord (p : Nat) (x : PBarge) : Barge × List Barge :=
  let rs := joinRuns (sortRuns x.poison)
  let b := if rs.isEmpty then x.barge else { withFlag x.barge 0 with bad := rs.map (fun r => (r.offset, r.offset + (64 * r.lines - r.cut))) }
  let b := if x.hdr0 then withFlag b 6 else b
  (b, rs.map (poisonMark p x.barge))

/-- R300: the GAP mark in the place of a barge with both header copies poisoned. -/
def State.headerGap (s : State) (p : Nat) (x : PBarge) : Barge :=
  let data := (s.pound p).barges.filter (fun b => !b.barge.isMark)
  let a := match (data.filter (fun b => b.number < x.number)).getLast? with
    | some b => b.endStamp
    | none => x.barge.stamp
  let z := match data.find? (fun b => x.number < b.number) with
    | some b => b.barge.stamp
    | none => x.endStamp
  mkGapMark x.barge.stream x.barge.source a (s.qual (refOf x.barge.source)) 0x0B p (samplesIn x.barge) (some (z - a)) flAux

/-- A drain's internals. -/
def State.drain (s : State) (p d : Nat) : Drain := (SMap.find? (s.pound p).drains d).getD {}
def State.updDrain (s : State) (p d : Nat) (f : Drain → Drain) : State :=
  s.updPound p (fun x => { x with drains := SMap.put x.drains d (f ((SMap.find? x.drains d).getD {})) })

/-- DRAIN_READ (R298–R300, R306, R325): a drain gives its next mark or barge to its queue, `errs` being the errors the read met;
a refused barge waits. -/
def execDrainRead (n : Fin 64) (d : Fin 4) (errs : List LineErr) (s : State) : Out :=
  let p := n.val
  let d := d.val
  let x := s.drain p d
  let q := s.get (R.POUND_DRAIN.Q p d)
  let mayRead := s.poundState p = 2 ∨ s.poundState p = 3
  if !x.on || !mayRead || s.poundStalled p then .next s
  else match x.first with
    | m :: t =>
      if fencePending m then .next s
      else
        let r := s.admitBarge q m
        .next (if r.1.taken then r.2.updDrain p d (fun x => { x with first := t }) else r.2)
    | [] =>
      let s := errs.foldl (fun s e => s.demandError p e) s
      match (s.pound p).barges.find? (fun b => x.next ≤ b.number) with
      | none => .next s
      | some b =>
        if b.hdr0 && b.hdr1 then
          .next (s.updDrain p d (fun y => { y with next := b.number + 1, first := [s.headerGap p b] }))
        else
          let o := readRecord p b
          let r := s.admitBarge q o.1
          .next (if r.1.taken then r.2.updDrain p d (fun y => { y with next := b.number + 1, first := o.2 }) else r.2)

/-! ### Captures (R308–R313) -/

/-- R308: samples of a record from `i0` to `i1` (rounded outward to the packing unit) that lie in a range. -/
def State.cutSpan (s : State) (b : PBarge) (start stop : Nat) : Nat × Nat :=
  let n := b.barge.word40 / 2 ^ 32
  let r := s.sourceRate b.barge.source
  let idx := fun (t : Nat) => min n (ceilDiv ((t - b.barge.stamp) * r.1) (r.2 * 1000000000 * 65536))
  let i0 := if start ≤ b.barge.stamp then 0 else idx start
  let i1 := if b.endStamp ≤ stop then n else idx stop
  if b.barge.format % 256 = 0x01 then (i0 / 16 * 16, min n (ceilDiv i1 16 * 16)) else (i0, i1)

/-- R299: a poisoned run as a payload cut down to `len` bytes from offset `off` on holds it. -/
def trimRun (off len : Nat) (r : PoisonRun) : PoisonRun :=
  let a := max r.offset off
  let z := min (r.offset + 64 * r.lines) (off + len)
  let n := (z - 1) / 64 - a / 64 + 1
  { r with offset := a - off, lines := n, cut := 64 * n - (z - a) }

/-- R320: the QUAL of the samples `a … b − 1` of a recorded barge: of OVR, CAL and SETTLE those that name one of them. -/
def State.trimQual (s : State) (b : Barge) (a z : Nat) : Nat :=
  let q := s.spanQual b.source a z
  markQual b.qual + (b.qual &&& q &&& (qOvr + qCal + qSettle))

/-- R308: a record trimmed to samples `i0 … i1 − 1`, with its stamp and first-sample word adjusted. -/
def State.trimRecord (s : State) (b : PBarge) (i0 i1 : Nat) : PBarge :=
  let n := b.barge.word40 / 2 ^ 32
  if i0 = 0 ∧ i1 = n then b
  else
    let fmt := b.barge.format % 256
    let off := if fmt = 0x01 then i0 / 16 * 24 else i0 * elemBytes fmt
    let len := if fmt = 0x01 then (i1 - i0 + 15) / 16 * 24 else (i1 - i0) * elemBytes fmt
    let r := s.sourceRate b.barge.source
    let at_ := fun (i : Nat) => b.barge.stamp + i * (r.2 * 1000000000 * 65536) / max 1 r.1
    let first := b.barge.word48
    let bg := { withFlag b.barge 4 with
      stamp := at_ i0, word40 := b.barge.word40 % 2 ^ 32 + (i1 - i0) * 2 ^ 32, word48 := first + i0
      qual := s.trimQual b.barge (first + i0) (first + i1), payload := (b.barge.payload.drop off).take len }
    let inside := fun (x : PoisonRun) => x.offset < off + len && off < x.offset + 64 * x.lines
    { b with barge := bg, endStamp := at_ i1, poison := ((joinRuns (sortRuns b.poison)).filter inside).map (trimRun off len) }

/-- The captures that the engine serves now: the first 32 accepted (R310). -/
def State.served (s : State) : List Capture := (s.captures.filter (fun c => c.accepted)).take 32

/-- A capture changed in place. -/
def State.updCapture (s : State) (num : Nat) (f : Capture → Capture) : State :=
  { s with captures := updFirst (fun c => c.accepted && c.number == num) f s.captures }

/-- CAPTURE_ACCEPTED (R310, R317): the engine accepts the next capture in arrival order while it holds fewer than 32 + 64. -/
def execCaptureAccepted (s : State) : Out :=
  if 96 ≤ (s.captures.filter (fun c => c.accepted)).length then .next s
  else
    let n := s.captureCount
    let on := fun (c : Capture) =>
      let first := c.first.map (fun m => { m with stream := 0xC000 + n % 16384, flags := flCopy + flCapture })
      { c with accepted := true, number := n, pos := c.start, first := first }
    if s.captures.any (fun c => !c.accepted) then
      .next { s with captures := updFirst (fun c => !c.accepted) on s.captures, captureCount := n + 1 }
    else .next s

/-- A barge of a capture as it goes to its queue: the capture's stream, CAPTURE set, and its SEQ. -/
def captureBarge (c : Capture) (b : Barge) (last : Bool) : Barge :=
  let b := withFlag { b with stream := 0xC000 + c.number % 16384 } 2
  let b := if last then withFlag b 5 else b
  if b.isAux then b else { b with seq := c.seq }

/-- R308, R309: what a capture reads next: a span no longer held, or not held yet when the pound began; a record; or nothing for
now. -/
inductive CaptureStep where
  | lost (from_ to_ : Nat)
  | record (x : PBarge)
  | wait

/-- Where a record ends: a data barge at its end stamp, a GAP mark at the end of its span, any other mark where it stands. -/
def PBarge.reach (x : PBarge) : Nat :=
  if !x.barge.isMark then x.endStamp
  else if x.barge.format % 256 = mkGap && !bit x.barge.word48 16 then x.barge.stamp + x.barge.word40 else x.barge.stamp

/-- R308: whether a recorded mark belongs to a range: it is stamped in it, or is a GAP mark whose span reaches into it. -/
def PBarge.markIn (x : PBarge) (start : Nat) : Bool :=
  start ≤ x.barge.stamp || (x.barge.format % 256 == mkGap && (bit x.barge.word48 16 || start < x.reach))

/-- R309: the next step of a capture. -/
def State.captureNext (s : State) (c : Capture) : CaptureStep :=
  match (s.pound c.pound).barges.find? (fun b => c.next ≤ b.number && (if b.barge.isMark then b.markIn c.start else decide (c.pos < b.endStamp))) with
  | none => .wait
  | some x =>
    let data := (s.pound c.pound).barges.find? (fun b => !b.barge.isMark && decide (c.pos < b.endStamp))
    let oldest := match (s.pound c.pound).barges.find? (fun b => !b.barge.isMark) with
      | some b => b.number
      | none => 0
    match data with
    | some y => if y.number = oldest ∧ c.next ≤ oldest ∧ c.pos < y.barge.stamp then .lost c.pos (min y.barge.stamp c.stop) else .record x
    | none => .record x

/-- R308, R310: a capture whose range has been sent completes. -/
def State.finishCapture (s : State) (num : Nat) : State :=
  match s.captures.find? (fun c => c.accepted && c.number == num) with
  | some c => if c.stop ≤ c.pos ∧ c.first.isEmpty then s.endCapture c (if c.gaps = 0 then stOk else stIncomplete) else s
  | none => s

/-- The rest of a capture's range holds nothing more: it ends. -/
def State.captureOver (s : State) (num : Nat) : State := (s.updCapture num (fun c => { c with pos := c.stop })).finishCapture num

/-- R309: a HISTORY_LOST mark over a span of the range is the next that a capture sends. -/
def State.captureGap (s : State) (num p a z : Nat) : State :=
  let src := s.poundSource p
  let g := mkGapMark 0 src a (s.qual (refOf src)) 0x0D p (s.samplesBetween src a z) (some (z - a)) flAux
  s.updCapture num (fun c => { c with pos := z, first := c.first ++ [g] })

/-- R316: whether the recorded mark `x` is the last barge of a range: its span reaches the range's end, or the record after it lies beyond
that. None while that record is not there yet. -/
def State.lastMark (s : State) (c : Capture) (x : PBarge) : Option Bool :=
  if x.barge.format % 256 = mkGap ∧ c.stop ≤ x.reach then some true
  else ((s.pound c.pound).barges.find? (fun b => x.number < b.number)).map (fun b => decide (c.stop ≤ b.barge.stamp))

/-- R300, R308, R316: a capture sends a recorded mark. -/
def State.captureMark (s : State) (c : Capture) (x : PBarge) : State :=
  match s.lastMark c x with
  | none => s
  | some last =>
    let r := s.admitBarge c.queue (captureBarge c (readRecord c.pound x).1 last)
    if !r.1.taken then r.2
    else
      let isGap := x.barge.format % 256 = mkGap
      (r.2.updCapture c.number (fun y => { y with
        next := x.number + 1, seq := y.seq + 1, gaps := y.gaps + b2n isGap
        pos := if last then y.stop else max y.pos x.reach })).finishCapture c.number

/-- R308: a capture sends the part of a recorded data barge that lies in its range, if any sample does. -/
def State.captureData (s : State) (c : Capture) (x : PBarge) : State :=
  let i := s.cutSpan x c.start c.stop
  if i.2 ≤ i.1 then (s.updCapture c.number (fun y => { y with next := x.number + 1, pos := x.endStamp })).finishCapture c.number
  else
    let o := readRecord c.pound (s.trimRecord x i.1 i.2)
    let r := s.admitBarge c.queue (captureBarge c o.1 (c.stop ≤ x.endStamp && o.2.isEmpty))
    if !r.1.taken then r.2
    else
      (r.2.updCapture c.number (fun y => { y with
        next := x.number + 1, pos := x.endStamp, seq := y.seq + 1, bytes := y.bytes + o.1.payload.length, first := o.2 })).finishCapture c.number

/-- A capture sends the first of the marks made on its read side. -/
def State.captureFirst (s : State) (c : Capture) (m : Barge) (t : List Barge) : State :=
  let fenced := m.format % 256 = mkGap && bits m.word48 0 8 = 0x0C
  if fencePending m then s
  else
    let pos := if fenced then max c.pos (m.stamp + m.word40) else c.pos
    let b := captureBarge c m (t.isEmpty && c.stop ≤ pos)
    let r := s.admitBarge c.queue b
    if !r.1.taken then r.2
    else
      (r.2.updCapture c.number (fun y => { y with
        first := t, seq := if b.isAux then y.seq else y.seq + 1, gaps := y.gaps + b2n (m.format % 256 = mkGap), pos := pos })).finishCapture c.number

/-- CAPTURE_BARGE_READ (R298–R301, R308, R309): a capture the engine serves sends its next mark or barge; `errs` are the errors
the read met and `overtaken` says that the writer overtook the barge while it was read. -/
def execCaptureBargeRead (num : Nat) (errs : List LineErr) (overtaken : Bool) (s : State) : Out :=
  match s.served.find? (fun c => c.number == num) with
  | none => .next s
  | some c =>
    let p := c.pound
    if s.qstate c.queue ≠ qActive then .next (s.endCapture c stPartial)
    else if s.poundStalled p then .next s
    else match c.first with
      | m :: t => .next (s.captureFirst c m t)
      | [] =>
        match s.captureNext c with
        | .wait => .next s
        | .lost a z => .next (s.captureGap num p a z)
        | .record x =>
          if c.stop ≤ x.barge.stamp then .next (s.captureOver num)
          else if overtaken && !x.barge.isMark then
            .next ((s.updCapture num (fun c => { c with next := x.number + 1 })).captureGap num p (max c.pos x.barge.stamp) (min c.stop x.endStamp))
          else
            let s := errs.foldl (fun s e => s.demandError p e) s
            let x := ((s.pound p).barges.find? (fun b => b.number == x.number)).getD x
            if x.hdr0 && x.hdr1 then
              .next (s.updCapture num (fun c => { c with next := x.number + 1, pos := max c.pos x.reach, first := [s.headerGap p x] }))
            else .next (if x.barge.isMark then s.captureMark c x else s.captureData c x)

/-- The parameter checks of POUND_CUT (R387): each field's byte offset, and whether the field is invalid. -/
def poundCutChecks (o : Order) : List (Nat × Bool) :=
  let a := ofTime96 (o.u 20 12)
  let z := ofTime96 (o.u 32 12)
  [chk 16 (64 ≤ o.u 16 1)] ++ reserved o 17 3 ++ [(20, badTime o 20), (32, badTime o 32 || decide (z ≤ a)),
    chk 44 (4096 ≤ o.u 44 2)] ++ reserved o 46 2 ++ reserved o 60 4

/-- POUND_CUT (R312, R313): the order asks the capture engine for a range of a recording pound. -/
def State.poundCutAccept (o : Order) (s : State) : State :=
  let a := ofTime96 (o.u 20 12)
  let z := ofTime96 (o.u 32 12)
  s.validate o (poundCutChecks o) (fun s =>
      let p := o.u 16 1
      if (s.poundState p ≠ 2 ∧ s.poundState p ≠ 3) ∨ s.on (R.POUND_CFG.KIND p) then s.retire o stState
      else
        let c : Capture := { pound := p, start := a, stop := z, queue := o.u 44 2, order := some o.ref }
        ({ s.updOrder o.ref (fun o => { o with phase := .running }) with captures := s.captures ++ [c] }).settleCaptures p)

/-- The arm of that order. -/
def execPoundCut (s : State) : Out := .next (s.accept 0x0701 State.poundCutAccept)

/-- Whether a POUND_CUT has sent anything. -/
def State.cutBegun (s : State) (o : Order) : Bool :=
  s.captures.any (fun c => c.order == some o.ref && !(c.seq == 0 && c.gaps == 0))

/-- R313: a cancel of a POUND_CUT. -/
def State.cutCancel (s : State) (o : Order) : State :=
  match s.captures.find? (fun c => c.order == some o.ref) with
  | some c => s.endCapture c (if c.seq = 0 ∧ c.gaps = 0 then stCancelled else stPartial)
  | none => s

end Machine
end Sys2Proof
end

