-- ==== Sys2Proof/Machine/Moves.lean ====
section
/-!
DEFINITION. The move engine's channels (R405–R411): entries begun and refused, paced bursts, ends and cancels. Channel `c` is
served by ring 80 + c.

Marked choices (log entries): DEDUCED 56, 140. Each entry of notes/assumptions says safe or unsafe.
-/

namespace Sys2Proof
namespace Machine

/-! ### The fields of a move (Tables 12-8 and 12-10) -/

def RingEntry.host (e : RingEntry) : Nat := e.u 8 8
def RingEntry.devOff (e : RingEntry) : Nat := e.u 16 6
def RingEntry.devIndex (e : RingEntry) : Nat := e.u 22 1
def RingEntry.space (e : RingEntry) : Nat := e.u 23 1
def RingEntry.burst (e : RingEntry) : Nat := e.u 24 4

/-- The stimulus cache's size (R465). -/
def cacheBytes : Nat := 16 * 2 ^ 20

/-- The effective size of a pound in bytes. -/
def State.poundEff (s : State) (p : Nat) : Nat := s.get (R.POUND_EFF.SIZE_EFF p) * 2 ^ 20

/-- Whether a pound is an ACTIVE STORE pound. -/
def State.storePound (s : State) (p : Nat) : Bool := p < 64 && s.poundState p == 2 && s.on (R.POUND_CFG.KIND p)

/-- R406: whether an entry is refused. -/
def State.moveBad (s : State) (e : RingEntry) : Bool :=
  e.u 0 1 / 16 ≠ 0 || e.u 3 1 / 64 ≠ 0 || e.len == 0
    || (if e.paced then e.burst % 64 ≠ 0 || e.burst < 64 || 65536 < e.burst else e.burst ≠ 0)
    || (match e.space with
        | 0x01 => !s.storePound e.devIndex || s.poundEff e.devIndex < e.devOff + e.len
        | 0x02 => e.devIndex ≠ 0 || cacheBytes < e.devOff + e.len
        | _ => true)

/-- Whether the device side of a running move is still there. -/
def State.moveTarget (s : State) (e : RingEntry) : Bool := e.space == 2 || s.storePound e.devIndex

/-! ### Bytes moved (R407, R409) -/

/-- Bytes of device memory. -/
def State.devBytes (s : State) (e : RingEntry) (off n : Nat) : List Byte :=
  if e.space = 2 then Mem.reads 0#8 s.cache (e.devOff + off) n else Mem.reads 0#8 (s.pound e.devIndex).store (e.devOff + off) n

/-- Lines of 64 bytes that a span meets. -/
def linesOf (off n : Nat) : List Nat := if n = 0 then [] else (List.range ((off + n - 1) / 64 - off / 64 + 1)).map (fun i => off / 64 + i)

/-- Whether a line lies wholly in a span. -/
def wholeLine (off n l : Nat) : Bool := off ≤ 64 * l && 64 * l + 64 ≤ off + n

/-- R407: bytes written into device memory from an offset of the move; a poisoned line written whole is poisoned no more. -/
def State.devWrite (s : State) (e : RingEntry) (off : Nat) (bs : List Byte) : State :=
  let a := e.devOff + off
  if e.space = 2 then { s with cache := Mem.writes 0#8 s.cache a bs }
  else
    let whole := (s.pound e.devIndex).badLines.filter (fun l => wholeLine a bs.length l)
    let s := s.updPound e.devIndex (fun d => { d with
      store := Mem.writes 0#8 d.store a bs
      badLines := d.badLines.filter (fun l => !wholeLine a bs.length l) })
    whole.foldl (fun (s : State) l => match s.lineAt e.devIndex (.store (64 * l)) with
      | some (c, y) => s.updChannel c (fun x => { x with badLines := x.badLines.filter (fun z => z ≠ y) })
      | none => s) s

/-- The lines of device memory that line `l` of a move's host side, counted from the one where it begins, falls into. -/
def RingEntry.devLines (e : RingEntry) (l : Nat) : List Nat :=
  let lo := 64 * l - e.host % 64
  linesOf (e.devOff + lo) (min e.len (64 * l + 64 - e.host % 64) - lo)

/-- R409: lines of a move whose completions came poisoned: the lines of a pound that they fall into are written with the poison syndrome; the
stimulus cache, which has no such syndrome, keeps the bytes as they came. -/
def State.devPoison (s : State) (e : RingEntry) (lines : List Nat) : State :=
  if e.space = 2 then s
  else
    let ls := (lines.flatMap (fun l => e.devLines l)).foldl (fun m l => if m.contains l then m else m ++ [l]) []
    let ls := ls.filter (fun l => !(s.pound e.devIndex).badLines.contains l)
    let s := s.updPound e.devIndex (fun d => { d with
      badLines := d.badLines ++ ls
      store := ls.foldl (fun m l => Mem.writes 0#8 m (64 * l) (List.replicate 64 0#8)) d.store })
    ls.foldl (fun (s : State) l => match s.lineAt e.devIndex (.store (64 * l)) with
      | some (c, y) => s.noteBad c y
      | none => s) s

/-- R347, R359, R409: bytes of device memory written to host memory, split at the borders of poisoned lines. The answer says whether a
poisoned line was among them. -/
def State.toHostBytes (s : State) (e : RingEntry) (off n : Nat) : Bool × State :=
  let a := e.devOff + off
  let bad := if e.space = 2 then [] else (s.pound e.devIndex).badLines.filter (fun l => (linesOf a n).contains l)
  (!bad.isEmpty, s.writeHost (e.host + off) (s.devBytes e off n) (bad.map (fun l => (64 * l - a, min n (64 * l + 64 - a)))))

/-- The host addresses of bytes of a move, widened outward to 64-byte boundaries (R407): where they begin and how many they are. -/
def RingEntry.hostSpan (e : RingEntry) (off n : Nat) : Nat × Nat :=
  let a := (e.host + off) / 64 * 64
  (a, (e.host + off + n + 63) / 64 * 64 - a)

/-- Bytes of a move requested from host memory; and their requests complete. -/
def State.moveRead (s : State) (e : RingEntry) (off n : Nat) : State := s.readHost 0 (e.hostSpan off n).1 (e.hostSpan off n).2
def State.moveReadDone (s : State) (e : RingEntry) (off n : Nat) : State := s.readDone 0 (e.hostSpan off n).1 (e.hostSpan off n).2

/-- One extent of a running move: `data` are the bytes that came from the host. -/
def State.moveExtent (s : State) (x : Nat) (m : MoveRun) (data : List Byte) (n : Nat) : State :=
  let e := m.entry
  if e.toHost then
    let r := (s.tookMoveTurn (x - 80)).toHostBytes e m.done n
    r.2.updRing x (fun g => { g with move := some { m with done := m.done + n, bad := if r.1 then 0 :: m.bad else m.bad } })
  else
    let bs := (data ++ List.replicate n 0#8).take n
    let s := (if e.paced then s.moveRead e m.done n else s).moveReadDone e 0 (m.done + n)
    (s.devWrite e m.done bs).updRing x (fun g => { g with move := some { m with done := m.done + n } })

/-! ### Beginning, bursts and the end -/

/-- MOVE_START (R405–R407): channel `c` begins its next owned entry, `errs` being what its reads of device memory meet, or
refuses it BAD_PARAM. -/
def execMoveStart (c : Fin 32) (errs : List LineErr) (s : State) : Out :=
  let x := 80 + c.val
  let r := s.ring x
  if r.move.isSome || !s.on (ringEN x) || !s.upstream x then .next s
  else match r.taken with
    | [] => .next s
    | e :: t =>
      let s := s.updRing x (fun g => { g with taken := t })
      if s.moveBad e then .next (s.returnMove x e stBadParam 0 0)
      else if e.space ≠ 2 ∧ s.poundStalled e.devIndex then .next (s.updRing x (fun g => { g with taken := e :: t }))
      else
        let s := s.updRing x (fun g => { g with move := some { entry := e } })
        if e.toHost then .next (if e.space = 1 then errs.foldl (fun s k => s.demandError e.devIndex k) s else s)
        else .next (if e.paced then s else s.moveRead e 0 e.len)

/-- R408: a request on a line: counted, up to 255. -/
def State.countRequest (s : State) (line : Nat) : State :=
  let n := (SMap.find? s.lineReqs line).getD 0
  if n < 255 then { s with lineReqs := SMap.put s.lineReqs line (n + 1) } else s.raiseInst 196 line

/-- The lowest channel that runs a paced move on a line with bytes still to move. -/
def State.pacedChannel (s : State) (line : Nat) : Option (Nat × MoveRun) :=
  (List.range 32).findSome? (fun c => match (s.ring (80 + c)).move with
    | some m => if m.entry.paced && m.entry.line == line && m.done < m.entry.len && !m.cancelling then some (80 + c, m) else none
    | none => none)

/-- PACED_REQUEST (R408, R466): a request that generator `line` has asserted reaches the move engine and is counted; then a
channel running a paced move on the line serves one counted request with one burst, `data` being what came from the host. -/
def execPacedRequest (line : Fin 64) (data : List Byte) (s : State) : Out :=
  let l := line.val
  let s := if l < 8 ∧ 0 < (s.sg l).asserted then (s.updSg l (fun g => { g with asserted := g.asserted - 1 })).countRequest l else s
  let n := (SMap.find? s.lineReqs l).getD 0
  match s.pacedChannel l with
  | some (x, m) =>
    if n = 0 || !s.upstream x || !s.moveTarget m.entry || !s.moveTurn (x - 80) m then .next s
    else
      let s := { s with lineReqs := SMap.put s.lineReqs l (n - 1) }
      .next (s.moveExtent x m data (min m.entry.burst (m.entry.len - m.done)))
  | none => .next s

/-- A running move's end: its entry returned; BUSY of a disabled ring clears (R412); a paced move of a generator's line is
counted by the generator (R466). -/
def State.endMove (s : State) (x : Nat) (m : MoveRun) (status reason : Nat) : State :=
  let s := s.updRing x (fun g => { g with move := none })
  let s := if m.entry.toHost then s else s.moveReadDone m.entry 0 m.entry.len
  let s := s.returnMove x m.entry status reason m.done
  let s := if s.on (ringEN x) then s else s.put (ringBUSY x) 0
  if m.entry.paced && m.entry.line < 8 && status == stOk then s.updSg m.entry.line (fun g => { g with moves := g.moves + 1 }) else s

/-- MOVE_DONE (R405, R409, R411): the running move of channel `c` comes to an end or, where nothing ends it yet, goes on. For an
unpaced move whose turn it is `n` more bytes, its burst of that turn (R410), have been moved, `data` being those that came from the host; a bus error ends it with its reason (1
or 2), anything else once every byte has moved or, after a cancel, at a burst boundary or a multiple of 4 KiB. -/
def execMoveDone (c : Fin 32) (data : List Byte) (n : Nat) (reason : Fin 5) (s : State) : Out :=
  let x := 80 + c.val
  match (s.ring x).move with
  | none => .next s
  | some m =>
    let e := m.entry
    if !s.moveTarget e then .next (s.endMove x m stBad 4)
    else
      let s := if e.paced || !s.upstream x || !s.moveTurn c.val m then s else s.moveExtent x m data (min n (e.len - m.done))
      let m := ((s.ring x).move).getD m
      let whole := e.len ≤ m.done
      if reason.val = 1 ∨ reason.val = 2 then .next (s.endMove x m stBad reason.val)
      else if m.cancelling then
        if whole || e.paced || m.done % 4096 == 0 then .next (s.endMove x m stPartial 0) else .next s
      else if !whole then .next s
      else if e.toHost then .next (s.endMove x m (if m.bad.isEmpty then stOk else stPoisoned) (if m.bad.isEmpty then 0 else 4))
      else .next ((s.devPoison e m.bad).endMove x m (if m.bad.isEmpty then stOk else stBad) (if m.bad.isEmpty then 0 else 3))

/-- R411: a move entry taken and not begun is returned CANCELLED. -/
def State.cancelTaken (s : State) (x index : Nat) : Option Nat × State :=
  match takeFirst (fun (e : RingEntry) => e.index == index) (s.ring x).taken with
  | some (e, t) => (some stCancelled, (s.updRing x (fun g => { g with taken := t })).returnMove x e stCancelled 0 0)
  | none => (none, s)

/-- R411: a cancel of a move entry by channel and index: a running one stops at its next burst boundary, one not begun is
returned CANCELLED. The answer is the OUTCOME, none when there is no such entry. -/
def State.cancelMove (s : State) (c index : Nat) : Option Nat × State :=
  let x := 80 + c
  match (s.ring x).move with
  | some m =>
    if m.entry.index = index ∧ !m.cancelling then
      (some stPartial, s.updRing x (fun g => { g with move := some { m with cancelling := true } }))
    else s.cancelTaken x index
  | none => s.cancelTaken x index

end Machine
end Sys2Proof
end

