-- ==== Sys2Proof/Machine/Stim.lean ====
section
/-!
DEFINITION. The stimulus generators (chapter 15): sequences read and checked, starts, granules, waits and releases, stops, skew
calibration.

Marked choices (log entries): DEDUCED 57, 58, 59, 139. Each entry of notes/assumptions says safe or unsafe.
-/

namespace Sys2Proof
namespace Machine

/-! ### Segments and steps (Tables 15-2 and 15-3) -/

/-- The length of a segment entry in samples, and the bytes of a granule, of a segment and of its head in its format. -/
def segLen (e : List Byte) : Nat := field e 4 4 + 1
def granuleBytes (fmt : Nat) : Nat :=
  match fmt with
  | 0x01 => 96
  | 0x02 => 128
  | 0x03 => 256
  | _ => 320
def segBytes (e : List Byte) : Nat := segLen e / 64 * granuleBytes (field e 2 1)
def headBytes (e : List Byte) : Nat := if field e 0 1 = 1 then min 65536 (segBytes e) else 0

/-- R464, R465: where the head of each segment lies in the head buffer: one after the other in segment order. -/
def headOffsets : Nat → List (List Byte) → List Nat
  | _, [] => []
  | o, e :: t => o :: headOffsets (o + headBytes e) t

/-- The fields of a step entry. -/
def stepSeg (e : List Byte) : Nat := field e 0 2
def stepWait (e : List Byte) : Nat := field e 2 1 % 4
def stepGate (e : List Byte) : Nat := field e 2 1 / 4 % 32
def stepIdle (e : List Byte) : Nat := field e 3 1 % 4
def stepEnd (e : List Byte) : Bool := bit (field e 3 1) 7
def stepRepeat (e : List Byte) : Nat := field e 4 4
def stepMarker (e : List Byte) (m : Nat) : Nat := bits (field e 8 1) (2 * m) 2
def stepWidth (e : List Byte) : Nat := field e 10 2 + 1
def stepIdleSeg (e : List Byte) : Nat := field e 12 2

/-! ### Checking a sequence (R457–R459, R464, R465, Table 15-8) -/

/-- The extent of a CACHE or STREAM segment in the cache. -/
def cacheExtent (e : List Byte) : Option (Nat × Nat) :=
  match field e 0 1 with
  | 0 => some (field e 8 8, segBytes e)
  | 2 => some (field e 8 8, 1024 * 2 ^ field e 3 1)
  | _ => none

/-- The reason a segment entry fails, its head lying at `o` in a head buffer of `len` bytes at `hb`. -/
def State.segReason (s : State) (g hb len o : Nat) (e : List Byte) : Option Nat :=
  let src := field e 0 1
  let off := field e 8 8
  if segLen e % 64 ≠ 0 ∨ segLen e < 1024 ∨ off % 64 ≠ 0 then some 1
  else if 2 < src ∨ (src ≠ 1 ∧ field e 1 1 ≠ 0) ∨ (src ≠ 2 ∧ field e 3 1 ≠ 0) ∨ (src = 2 ∧ (field e 3 1 < 6 ∨ 13 < field e 3 1)) then some 2
  else if !(if g < 4 then [0x01, 0x02] else [0x02, 0x03, 0x04]).contains (field e 2 1) then some 3
  else
    let srcBad := match cacheExtent e with
      | some (a, n) => decide (cacheBytes < a + n)
      | none => !s.storePound (field e 1 1) || decide (s.poundEff (field e 1 1) < off + segBytes e)
    if srcBad then some 2
    else
      let clash := match cacheExtent e with
        | some (a, n) => 0 < len && decide (a < hb + len) && decide (hb < a + n)
        | none => false
      if clash || decide (len < o + headBytes e) && decide (0 < headBytes e) then some 6 else none

/-- The reason a step entry fails. -/
def stepReason (nseg : Nat) (e : List Byte) : Option Nat :=
  if nseg ≤ stepSeg e ∨ (stepIdle e = 2 ∧ nseg ≤ stepIdleSeg e) then some 4
  else if bit (field e 2 1) 7 ∨ stepIdle e = 3 ∨ bits (field e 3 1) 2 5 ≠ 0 ∨ field e 9 1 ≠ 0 ∨ field e 14 2 ≠ 0 then some 5
  else none

/-- The first failing entry of a table and its reason. -/
def firstFailing (f : List Byte → Option Nat) : Nat → List (List Byte) → Option (Nat × Nat)
  | _, [] => none
  | i, e :: t => match f e with
    | some r => some (i, r)
    | none => firstFailing f (i + 1) t

/-- The same over segments with the offsets of their heads. -/
def State.firstBadSeg (s : State) (g hb len : Nat) : Nat → List (List Byte × Nat) → Option (Nat × Nat)
  | _, [] => none
  | i, (e, o) :: t => match s.segReason g hb len o e with
    | some r => some (i, r)
    | none => s.firstBadSeg g hb len (i + 1) t

/-- A table cut into entries of 16 bytes. -/
def entries16 (n : Nat) (t : List Byte) : List (List Byte) := (List.range n).map (fun i => (t.drop (16 * i)).take 16)

/-! ### SEQ_LOAD (R459, R465, R476, R477) -/

/-- Table 15-8. -/
def seqLoadChecks (o : Order) : List (Nat × Bool) :=
  [chk 16 (7 < o.u 16 1)] ++ reserved o 17 3 ++ [chk 20 (o.u 20 4 = 0 ∨ 65536 < o.u 20 4), chk 24 (o.u 24 2 = 0 ∨ 4096 < o.u 24 2)]
    ++ reserved o 26 6 ++ [chk 32 (o.u 32 4 % 64 ≠ 0), chk 36 (o.u 36 4 % 64 ≠ 0 ∨ cacheBytes < o.u 32 4 + o.u 36 4),
      chk 40 (o.u 40 8 % 64 ≠ 0), chk 48 (o.u 48 8 % 64 ≠ 0)] ++ reserved o 61 3

/-- Whether a generator refuses a sequence now. -/
def State.sgBusy (s : State) (g : Nat) : Bool := 2 ≤ s.sgState g || !s.on (R.SG_CFG.EN g)

/-- SEQ_LOAD (R459, R477): the order reads its two tables. -/
def State.seqLoadAccept (o : Order) (s : State) : State :=
  s.validate o (seqLoadChecks o) (fun s =>
    if s.sgBusy (o.u 16 1) then s.retire o stState
    else (s.startRead o (o.u 40 8) (16 * o.u 24 2)).startRead o (o.u 48 8) (16 * o.u 20 4))

/-- The arm of that order. -/
def execSeqLoad (s : State) : Out := .next (s.accept 0x0A01 State.seqLoadAccept)

/-- R465: the heads of the POUND segments copied into the head buffer. -/
def State.copyHeads (s : State) (hb : Nat) (l : List (List Byte × Nat)) : State :=
  l.foldl (fun s (e, o) =>
    if headBytes e = 0 then s
    else { s with cache := Mem.writes 0#8 s.cache (hb + o) (Mem.reads 0#8 (s.pound (field e 1 1)).store (field e 8 8) (headBytes e)) }) s

/-- Whether the head of a segment holds a poisoned line. -/
def State.headPoisoned (s : State) (e : List Byte) : Bool :=
  0 < headBytes e && (linesOf (field e 8 8) (headBytes e)).any (fun l => (s.pound (field e 1 1)).badLines.contains l)

/-- R459: both tables of a SEQ_LOAD have been read: the sequence is checked in full and installed, or refused whole. -/
def State.seqTables (s : State) (o : Order) (segT stepT : List Byte) : State :=
  let g := o.u 16 1
  let segs := entries16 (o.u 24 2) segT
  let steps := entries16 (o.u 20 4) stepT
  let heads := segs.zip (headOffsets 0 segs)
  let hb := o.u 32 4
  let bad := fun (i r : Nat) => s.retireWith o 0x26 0 [(56, leBytes 4 i ++ leBytes 1 r)]
  if s.sgBusy g then s.retire o stState
  else match s.firstBadSeg g hb (o.u 36 4) 0 heads with
    | some (i, r) => bad (0x10000000 + i) r
    | none => match firstFailing (stepReason segs.length) 0 steps with
      | some (i, r) => bad i r
      | none =>
        if segs.any (fun e => s.headPoisoned e) then s.retire o 0x22
        else
          let s := s.copyHeads hb heads
          let s := s.updSg g (fun x => { x with segs := segs, steps := steps, headOff := hb
                                                pounds := ((segs.filter (fun e => field e 0 1 == 1)).map (fun e => field e 1 1)).eraseDups })
          (s.put (R.SG_STATUS.STATE g) 1).retire o stOk

/-! ### Starting (R468, R469, R476, R477, R493) -/

/-- R480: a probe group is UP while one of its lanes is. PROBE_LANE.STATE 4 is UP. -/
def State.groupUp (s : State) (base : Nat) : Bool :=
  (List.range 16).any (fun l => s.probeGroupOf l == base && s.get (R.PROBE_LANE.STATE l) == 4)

/-- R469, R493: whether a start is refused by the state of its target. -/
def State.startRefused (s : State) (g : Nat) : Bool :=
  s.sgState g ≠ 1 || (if g < 4 then !s.on (R.ADC_STATUS.CNT_VALID (2 * (g / 2))) || s.dacState g ≠ 2
    else !s.on (R.EG_CFG.EN (g - 4)) || !s.groupUp (s.get (R.EG_CFG.GROUP (g - 4))))

/-- Table 15-8. -/
def seqStartChecks (o : Order) : List (Nat × Bool) :=
  [chk 16 (7 < o.u 16 1), chk 17 (3 < o.u 17 1), chk 18 (31 < o.u 18 1), chk 19 (1 < o.u 19 1),
    (20, o.u 17 1 == 1 && badTime o 20)] ++ reserved o 36 28

/-- The time gate's internals. -/
def State.gateOf (s : State) (i : Nat) : Gate := (SMap.find? s.gates i).getD {}

/-- SEQ_START (R468, R469, R473): a loaded generator is armed. -/
def State.seqStartAccept (o : Order) (s : State) : State :=
  s.validate o (seqStartChecks o) (fun s =>
    let g := o.u 16 1
    let loop := bit (o.u 19 1) 0
    if s.startRefused g then s.retire o stState
    else if loop ∧ (s.sg g).steps.length ≤ o.u 32 4 then s.retire o stBadParam 32
    else
      let s := (s.put (R.SG_STATUS.STATE g) 2).setWord (R.SG_UNDER g) 0#32
      let s := (s.setWord (R.SG_PLAYED_LO g) 0#32).setWord (R.SG_PLAYED_HI g) 0#32
      let t := s.time
      let s := s.updSg g (fun x => { x with
        startRef := some o.ref, mode := o.u 17 1, gate := o.u 18 1, time := ofTime96 (o.u 20 12), loop := loop, loopTo := o.u 32 4
        acceptedAt := t, startAt := none, late := false, played := 0, stops := [], markers := markersLow, last := (0, 0)
        streamBytes := 0, moves := 0, asserted := 0, waitGate := none })
      let ready := (s.sg g).readyAt
      match o.u 17 1 with
      | 0 => (s.sgSchedule g (ready + commitLead) ready).updSg g (fun x => { x with late := false })
      | 1 => s.sgSchedule g (ofTime96 (o.u 20 12)) ready
      | 2 => match (s.gateOf (o.u 18 1)).announced with
        | some t => s.sgSchedule g t ready
        | none => s
      | _ => s)

/-- The arm of that order. -/
def execSeqStart (s : State) : Out := .next (s.accept 0x0A02 State.seqStartAccept)

/-- R468: the firing of a gate announced for a time gives the generators that wait for it their start. -/
def State.sgGateStart (s : State) (tg t : Nat) : State :=
  (List.range 8).foldl (fun s g =>
    let x := s.sg g
    if s.sgState g = 2 ∧ x.mode = 2 ∧ x.gate = tg ∧ x.startAt = none then s.sgSchedule g t x.readyAt else s) s

/-- R525, R468: after a step of the timekeeper, starts ordered for a TIME are found on the new base. -/
def State.sgRetime (s : State) : State :=
  (List.range 8).foldl (fun s g =>
    let x := s.sg g
    if s.sgState g = 2 ∧ x.mode = 1 then s.sgSchedule g x.time (max x.readyAt s.time) else s) s

/-! ### Granules (R455, R456, R460–R467) -/

/-- The codes of a granule's bytes. -/
def unpack12 : List Byte → List (Int × Int)
  | a :: b :: c :: t =>
    let n := leNat [a, b, c]
    (sext 12 n, 0) :: (sext 12 (n / 4096), 0) :: unpack12 t
  | _ => []

/-- A string cut into pieces of `n` bytes. -/
def pieces (n : Nat) (bs : List Byte) : List (List Byte) :=
  (List.range (bs.length / n)).map (fun i => (bs.drop (i * n)).take n)

/-- R328, R454: the samples of a granule; a DAC takes bits 15:4 of an S16 sample. -/
def decodeGranule (g fmt : Nat) (bs : List Byte) : List (Int × Int) :=
  match fmt with
  | 0x01 => unpack12 bs
  | 0x02 => (pieces 2 bs).map (fun b => (if g < 4 then sext 12 (leNat b / 16) else sext 16 (leNat b), 0))
  | 0x03 => (pieces 4 bs).map (fun b => (sext 16 (leNat b), sext 16 (leNat b / 65536)))
  | _ => (pieces 5 bs).map (fun b => (sext 20 (leNat b), sext 20 (leNat b / 2 ^ 20)))

/-- R465–R467: the bytes of granule `k` of a segment; none when they are not available at the commit. -/
def State.granuleData (s : State) (g seg k : Nat) (late : Bool) : Option (List Byte) :=
  let x := s.sg g
  let e := x.segs.getD seg []
  let n := granuleBytes (field e 2 1)
  let off := field e 8 8
  match field e 0 1 with
  | 0 => some (Mem.reads 0#8 s.cache (off + k * n) n)
  | 1 =>
    let h := headBytes e
    let ho := x.headOff + (headOffsets 0 x.segs).getD seg 0
    if (late || s.poundStalled (field e 1 1)) && h < k * n + n then none
    else some ((List.range n).map (fun i =>
      let a := k * n + i
      if a < h then Mem.byte 0#8 s.cache (ho + a) else Mem.byte 0#8 (s.pound (field e 1 1)).store (off + a)))
  | _ =>
    let ring := 1024 * 2 ^ field e 3 1
    let last := (x.streamBytes + n - 1) / (ring / 4)
    if last < 4 + x.moves then some ((List.range n).map (fun i => Mem.byte 0#8 s.cache (off + (x.streamBytes + i) % ring))) else none

/-- R466: the STREAM ring read one granule further; each quarter finished asserts a request. -/
def State.streamRead (s : State) (g seg : Nat) : State :=
  let x := s.sg g
  let e := x.segs.getD seg []
  if field e 0 1 ≠ 2 then s
  else
    let q := 256 * 2 ^ field e 3 1
    let b := x.streamBytes + granuleBytes (field e 2 1)
    s.updSg g (fun x => { x with streamBytes := b, asserted := x.asserted + (b / q - x.streamBytes / q) })

/-- A generator's sample count of the samples played, shown in its registers. -/
def State.showPlayed (s : State) (g : Nat) : State :=
  let n := (s.sg g).played
  (s.setWord (R.SG_PLAYED_LO g) (BitVec.ofNat 32 n)).setWord (R.SG_PLAYED_HI g) (BitVec.ofNat 32 (n / 2 ^ 32))

/-- A committed granule of a format at its target: what the DAC plays where it is not muted (R53), or what waits to be sent as STIM
frames. The DAC keeps the granules whose samples have not all reached the ball. -/
def State.playGranule (s : State) (g fmt : Nat) (codes : List (Int × Int)) : State :=
  let x := s.sg g
  let s := if g < 4 then
      (s.updDac g (fun d => { d with
        granules := d.granules.filter (fun e => decide (s.time ≤ s.sgBall g (e.1 + 64))) ++ [(x.nextCount, codes)] })).send
          (.granule g x.nextCount codes)
    else s.updSg g (fun x => { x with out := x.out ++ [(x.nextCount, fmt, codes)] })
  let s := s.updSg g (fun x => { x with
    last := codes.getLast?.getD (0, 0), fmt := fmt, nextCount := x.nextCount + 64, played := x.played + 64 })
  s.showPlayed g

/-- R53, R54: what the ball of DAC `n` carries at the sample instant of count `k`, when that is the present one: nothing while OFF or WAKING;
code 0 while muted, by MUTE or from the boundary at which a protective mute starts, and where no generator supplies a code. -/
def State.dacCode (s : State) (n k : Nat) : Option (Int × Int) :=
  let d := s.dac n
  let muted := s.on (R.DAC_CTL.MUTE n) || (match d.muteFrom with
    | some b => decide (b ≤ k)
    | none => false)
  if s.dacState n ≠ 2 then none
  else if muted then some (0, 0)
  else match d.granules.find? (fun e => decide (e.1 ≤ k ∧ k < e.1 + 64)) with
    | some e => some (e.2.getD (k - e.1) (0, 0))
    | none => some (0, 0)

/-- R464: a marker's level in a granule of a step. -/
def markerLevel (e : List Byte) (stepGranule granule m : Nat) : Bool :=
  match stepMarker e m with
  | 0 => false
  | 1 => true
  | 2 => stepGranule < stepWidth e
  | _ => granule < stepWidth e

/-- R458, R461: step `j` is next: it begins, or the generator begins waiting for its release at the commit just made. -/
def State.enterStep (s : State) (g j since : Nat) : State :=
  let s := ((s.put (R.SG_STATUS.STEP g) j).setWord (R.SG_REP g) 0#32).updSg g (fun x => { x with
    step := j, granule := 0, stepGranule := 0, idleGranule := 0, waitSince := since, waitGate := none })
  s.put (R.SG_STATUS.STATE g) (if stepWait ((s.sg g).steps.getD j []) = 0 then 3 else 4)

/-- R458, R470: the step in force is over at the granule just committed. -/
def State.endStep (s : State) (g since : Nat) : State :=
  let x := s.sg g
  let atEnd := stepEnd (x.steps.getD x.step []) || x.step + 1 == x.steps.length
  if x.stops.any (fun r => r.2 == 1) then s.sgHalt g 2
  else if !atEnd then s.enterStep g (x.step + 1) since
  else if x.stops.any (fun r => r.2 == 2) then s.sgHalt g 2
  else if x.loop then s.enterStep g x.loopTo since
  else s.sgHalt g 1

/-- R467: a granule whose data is not available, on a generator that plays code 0 there: it is counted, the first of the run
reported. -/
def State.underrun (s : State) (g : Nat) : State :=
  let seen := s.on (R.SG_STATUS.UNDER_SEEN g)
  let s := s.satInc (R.SG_UNDER.UNDER g)
  if seen then s else (s.put (R.SG_STATUS.UNDER_SEEN g) 1).raise 288 g ((s.sg g).nextCount)

/-- A granule of a segment played: its data, or an underrun. The answer says whether the generator goes on. -/
def State.playSegment (s : State) (g seg k : Nat) (late : Bool) : Bool × State :=
  let e := (s.sg g).segs.getD seg []
  if field e 0 1 = 1 && !s.storePound (field e 1 1) then (false, s.sgAbort g 7)
  else match s.granuleData g seg k late with
    | some bs => (true, (s.streamRead g seg).playGranule g (field e 2 1) (decodeGranule g (field e 2 1) bs))
    | none =>
      if s.on (R.SG_CFG.UNDER_ABORT g) then (false, s.sgAbort g 8)
      else (true, ((s.underrun g).streamRead g seg).playGranule g (field e 2 1) (List.replicate 64 (0, 0)))

/-- A granule of the step in force. -/
def State.commitStep (s : State) (g : Nat) (late : Bool) : State :=
  let x := s.sg g
  let e := x.steps.getD x.step []
  let ball := s.sgBall g x.nextCount
  let total := segLen (x.segs.getD (stepSeg e) []) / 64
  let r := s.playSegment g (stepSeg e) x.granule late
  if !r.1 then r.2
  else
    let s := (r.2.setMarkers g ((List.range 4).map (markerLevel e x.stepGranule x.granule)) ball).updSg g (fun x => { x with granule := x.granule + 1, stepGranule := x.stepGranule + 1 })
    if (s.sg g).granule < total then s
    else
      let s := (s.inc (R.SG_REP.REP g)).updSg g (fun x => { x with granule := 0 })
      if stepRepeat e ≠ 0 ∧ s.get (R.SG_REP.REP g) = stepRepeat e % 2 ^ 32 then s.endStep g (ball - commitLead) else s

/-- A granule of the idle output (R461). -/
def State.commitIdle (s : State) (g : Nat) (late : Bool) : State :=
  let x := s.sg g
  let e := x.steps.getD x.step []
  let s := s.setMarkers g markersLow (s.sgBall g x.nextCount)
  match stepIdle e with
  | 2 =>
    let total := max 1 (segLen (x.segs.getD (stepIdleSeg e) []) / 64)
    (s.playSegment g (stepIdleSeg e) (x.idleGranule % total) late).2.updSg g (fun x => { x with idleGranule := x.idleGranule + 1 })
  | 1 => s.playGranule g x.fmt (List.replicate 64 x.last)
  | _ => s.playGranule g x.fmt (List.replicate 64 (0, 0))

/-- A release taken (R461, R462): the step begins at the first granule not committed. -/
def State.beginStep (s : State) (g : Nat) : State :=
  ((s.inc (R.SG_CNT.RELEASES g)).put (R.SG_STATUS.STATE g) 3).updSg g (fun x => { x with waitGate := none })

/-- R461, R462: a release of one kind (1 flight, 3 host) reaches a generator, from a flight in a fabric cycle: taken when it waits for one, one
with another of the same cycle that was taken, else counted in EARLY. -/
def State.release (s : State) (g kind : Nat) (cycle : Option Nat) : State :=
  let x := s.sg g
  if s.sgState g = 4 ∧ stepWait (x.steps.getD x.step []) = kind then
    (s.beginStep g).updSg g (fun x => { x with releasedAt := cycle })
  else if cycle.isSome ∧ x.releasedAt = cycle then s
  else s.satInc (R.SG_CNT.EARLY g)

/-- R463: a firing of gate `tg` at a time: a generator that has waited for it for 72 ns begins its step at the first granule
boundary whose ball time is at or after the firing; any other that waits for it is released. -/
def State.sgGateFire (s : State) (tg t : Nat) : State :=
  (List.range 8).foldl (fun s g =>
    let x := s.sg g
    let e := x.steps.getD x.step []
    if s.sgState g = 4 ∧ stepWait e = 2 ∧ stepGate e = tg then
      if x.waitSince + commitLead ≤ t then s.updSg g (fun x => { x with waitGate := some t }) else s.beginStep g
    else s) s

/-- R463: the firing that a waiting step acts on: one made, or one announced that it has awaited for 72 ns. -/
def State.waitsFor (s : State) (g : Nat) : Option Nat :=
  let x := s.sg g
  let e := x.steps.getD x.step []
  if stepWait e ≠ 2 then none
  else match x.waitGate with
    | some t => some t
    | none => match (s.gateOf (stepGate e)).announced with
      | some t => if x.waitSince + commitLead ≤ t then some t else none
      | none => none

/-- R468: the start boundary is committed: SEQ_START completes, and the sequence starts. -/
def State.beginSequence (s : State) (g ball : Nat) : State :=
  let x := s.sg g
  let w := toTime96 ball
  let s := ((s.setWord (R.SG_T0 g) (BitVec.ofNat 32 w)).setWord (R.SG_T1 g) (BitVec.ofNat 32 (w / 2 ^ 32))).setWord (R.SG_T2 g)
    (BitVec.ofNat 32 (w / 2 ^ 64))
  let s := match x.startRef with
    | some r => s.retireRef r (if x.late then stLate else stOk) [(20, time96Bytes ball)]
    | none => s
  let s := if g < 4 then s.put (R.DAC_STATUS.IDLE_OUT g) 0 else s
  (s.updSg g (fun x => { x with startRef := none })).enterStep g 0 (ball - commitLead)

/-- GRANULE_COMMIT (R455–R467): generator `g` commits its next granule, 72 ns before its first sample; `late` says that a read of
capture memory is not there in time, `errs` what that read met. -/
def execGranuleCommit (g : Fin 8) (late : Bool) (errs : List LineErr) (s : State) : Out :=
  let g := g.val
  let x := s.sg g
  let ball := s.sgBall g x.nextCount
  if s.sgState g < 2 ∨ (s.sgState g = 2 ∧ x.startAt = none) ∨ s.time + commitLead + nsUnits 40 < ball then .next s
  else if s.sgState g = 2 ∧ s.sgBarred g then .next (s.sgSchedule g ball (s.time + nsUnits 40))
  else
    let s := if s.sgState g = 2 then s.beginSequence g ball else s
    let s := match x.pounds with
      | p :: _ => errs.foldl (fun s e => s.demandError p e) s
      | [] => s
    let s := if s.sgState g = 4 then
        match s.waitsFor g with
        | some t => if t ≤ ball then s.beginStep g else s
        | none => s
      else s
    .next (if s.sgState g = 4 then s.commitIdle g late else if s.sgState g = 3 then s.commitStep g late else s)

/-! ### Releases, stops and power (R461, R469, R470, R472) -/

/-- SG_RELEASE (R462): a write of SG_CTL(g).RELEASE. -/
def execSgRelease (p : Path) (g : Fin 8) (s : State) : Out :=
  .next (s.gateAction p (R.SG_CTL g.val) (fun s => s.release g.val 3 none))

/-- R470: a stop at the first granule not committed. -/
def State.sgStop (s : State) (g last : Nat) : State := if s.sgState g < 2 then s else s.sgHalt g last

/-- A cancel of a generator (R469, R470): its outcome, none when it does not run. -/
def State.cancelGenerator (s : State) (g : Nat) : Option Nat × State :=
  match s.sgState g with
  | 2 => (some stCancelled, s.sgHalt g 3)
  | 3 => (some stPartial, s.sgHalt g 4)
  | 4 => (some stPartial, s.sgHalt g 4)
  | _ => (none, s)

/-- SG_STOP_WRITE (R470): a write of SG_CTL(g).STOP acts as SEQ_STOP with WHEN = 0. -/
def execSgStopWrite (p : Path) (g : Fin 8) (s : State) : Out :=
  .next (s.gateAction p (R.SG_CTL g.val) (fun s => s.sgStop g.val 2))

/-- Table 15-7: the effect of a word written to SG_CTL(g): a release in the cycle of a stop is ignored (R461). -/
def State.writeSgCtl (s : State) (g : Nat) (w : Word) : State :=
  if bit w.toNat 1 then s.sgStop g 2 else if bit w.toNat 0 then s.release g 3 none else s

/-- The parameter checks of SEQ_STOP (R387): each field's byte offset, and whether the field is invalid. -/
def seqStopChecks (o : Order) : List (Nat × Bool) :=
  [chk 16 (7 < o.u 16 1), chk 17 (2 < o.u 17 1)] ++ reserved o 18 2 ++ reserved o 28 36

/-- SEQ_STOP (R470, R476, R477). -/
def State.seqStopAccept (o : Order) (s : State) : State :=
  s.validate o (seqStopChecks o) (fun s =>
      let g := o.u 16 1
      if s.sgState g < 2 then s.retire o stState
      else
        let s := s.updSg g (fun x => { x with stops := x.stops ++ [(o.ref, o.u 17 1)] })
        if o.u 17 1 = 0 ∨ s.sgState g ≠ 3 then s.sgHalt g 2 else s)

/-- The arm of that order. -/
def execSeqStop (s : State) : Out := .next (s.accept 0x0A03 State.seqStopAccept)

/-- R391: a cancel of a SEQ_STOP that still waits. -/
def State.seqStopCancel (s : State) (o : Order) : State :=
  (s.updSg (o.u 16 1) (fun x => { x with stops := x.stops.filter (fun r => r.1 != o.ref) })).retire o stCancelled

/-- Table 15-6: EN = 0: as a cancel, and the sequence is discarded; the granules committed still go out. -/
def State.sgEnable (s : State) (g : Nat) (en : Bool) : State :=
  if en then s.put (R.SG_CFG.EN g) 1
  else
    let s := (s.cancelGenerator g).2
    ((s.put (R.SG_CFG.EN g) 0).put (R.SG_STATUS.STATE g) 0).updSg g (fun x =>
      { out := x.out, fmt := x.fmt, nextCount := x.nextCount, anchorCount := x.anchorCount, anchorTime := x.anchorTime })

/-- SG_EN_WRITE (R472): a write of SG_CFG(g).EN. -/
def execSgEnWrite (p : Path) (g : Fin 8) (en : Bool) (s : State) : Out :=
  .next (s.gateField p (R.SG_CFG.EN g.val) (b2n en) (fun s => s.sgEnable g.val en))

/-- R475: the effect of a word written to SG_CFG(g): UNDER_ABORT is refused while the generator is ARMED or runs. -/
def State.writeSgCfg (s : State) (g : Nat) (w : Word) : State :=
  let ua := bits w.toNat 1 1
  let s := if ua = s.get (R.SG_CFG.UNDER_ABORT g) then s
    else if 2 ≤ s.sgState g then s.put (R.SG_STATUS.CFG_ERR g) 1
    else s.put (R.SG_CFG.UNDER_ABORT g) ua
  s.sgEnable g (bit w.toNat 0)

/-- R475: the effect of a word written to SG_SKEW(g): refused while the generator is ARMED or runs; reserved for SG4–SG7. -/
def State.writeSgSkew (s : State) (g : Nat) (w : Word) : State :=
  if 4 ≤ g then s else if 2 ≤ s.sgState g then s.put (R.SG_STATUS.CFG_ERR g) 1 else s.plainWrite (R.SG_SKEW g) w

/-! ### SKEW_CAL (R474, R476, R477, R513) -/

/-- The SKEW_CAL orders outstanding, in the order of acceptance: the calibration channel serves one at a time (R513). -/
def State.skewOrders (s : State) : List Order := s.orders.filter (fun o => o.opcode == 0x0A04)

/-- The first of them takes the calibration channel, if it is free. -/
def State.startSkew (s : State) : State :=
  match s.skewOrders with
  | o :: _ => if o.phase = .pending then s.updOrder o.ref (fun o => { o with phase := .running, aux := s.ns }) else s
  | [] => s

/-- Whether a DAC may take part in a skew calibration. -/
def State.skewReady (s : State) (g : Nat) : Bool := s.sgState g < 2 && s.dacState g == 2

/-- The parameter checks of SKEW_CAL (R387): each field's byte offset, and whether the field is invalid. -/
def skewCalChecks (o : Order) : List (Nat × Bool) :=
  [chk 16 (15 < o.u 16 1), chk 17 (3 < o.u 17 1 ∨ bit (o.u 16 1) (o.u 17 1))] ++ reserved o 18 2 ++ reserved o 28 36

/-- SKEW_CAL (R474, R477). -/
def State.skewCalAccept (o : Order) (s : State) : State :=
  s.validate o (skewCalChecks o) (fun s =>
      if (List.range 4).all (fun g => (!bit (o.u 16 1) g && o.u 17 1 ≠ g) || s.skewReady g) then s.startSkew else s.retire o stState)

/-- The arm of that order. -/
def execSkewCal (s : State) : Out := .next (s.accept 0x0A04 State.skewCalAccept)

/-- SKEW_CAL_DONE (R474, R477): 2 ms for each DAC after the order took the calibration channel, the measurements give FINE, COARSE
and the residual of each DAC (`trims`), or show a delay out of range. -/
def execSkewCalDone (trims : List (Fin 512 × Fin 64 × Int)) (inRange : Bool) (s : State) : Out :=
  match s.skewOrders with
  | [] => .next s
  | o :: _ =>
    let named := (List.range 4).filter (fun g => bit (o.u 16 1) g)
    if o.phase = .pending ∨ s.ns < o.aux + 2000000 * named.length then .next s
    else if !inRange then .next (s.retire o 0x28).startSkew
    else
      let s := named.foldl (fun s g =>
        let t := trims.getD g (0, 0, 0)
        (s.put (R.SG_SKEW.FINE g) t.1.val).put (R.SG_SKEW.COARSE g) t.2.1.val) s
      let out := (List.range 4).flatMap (fun g => leBytes 2 (wrap 16 (trims.getD g (0, 0, 0)).2.2))
      .next (s.retireWith o stOk 0 [(20, out)]).startSkew

end Machine
end Sys2Proof
end

