-- ==== Sys2Proof/Machine/Timebase.lean ====
section
/-!
DEFINITION. The timekeeper (R515–R526, R547–R549) and its time gates (R527–R531) as far as no other unit is concerned: ticks,
the increment, the servo, the acceptance of steps, the set-up and announcement of firings.

Marked choices (log entries): DEDUCED 72, 73, 147. Each entry of notes/assumptions says safe or unsafe.
-/

namespace Sys2Proof
namespace Machine

/-- TIME_STATUS.STATE and its codes (Table 18-2). -/
def State.tkState (s : State) : Nat := s.get R.TIME_STATUS.STATE
def tkUnset : Nat := 0
def tkFree : Nat := 1
def tkLocked : Nat := 2
def tkHoldover : Nat := 3
def tkAcquiring : Nat := 4
def tkFollowing : Nat := 5
def tkFollowLost : Nat := 6

/-- Whether TIME_CFG.MODE is FOLLOW. -/
def State.follows (s : State) : Bool := s.on R.TIME_CFG.MODE

/-! ### Counter-to-time mappings (R518, R525) -/

/-- R518, R525: every mapping from a counter to time gets a new anchor at the first sample that arrives from now on; its time there
is moved by `d` (2^-16 ns), 0 for a change of INC. -/
def State.reanchor (s : State) (d : Int) : State :=
  let t := s.time
  let s := (List.range 4).foldl (fun s n =>
    let c := s.adcCounterAt n t
    let x := s.adcStamp n c
    s.updAdc n (fun a => { a with
      past := (a.anchorCount, a.anchorTime, s.tk.inc) :: a.past
      anchorCount := c
      anchorTime := ((x : Int) + d).toNat })) s
  [4, 5, 6, 7].foldl (fun s g =>
    let c := s.sgCountAt g t
    let x := s.sgBall g c
    s.updSg g (fun y => { y with anchorCount := c, anchorTime := ((x : Int) + d).toNat })) s

/-! ### The tick and INC (R515, R516, R518) -/

/-- R515, R516, R518: one tick of the AON clock: the timekeeper adds INC, then takes a newly written INC, on which every mapping
from counter to time gets a new anchor. -/
def State.tick (s : State) : State :=
  let k := s.tk
  let s := { s with ticks := s.ticks + 1, tk := { k with raw := k.raw + k.inc, adv := k.adv + k.inc, newInc := none } }
  match k.newInc with
  | none => s
  | some n =>
    let s := s.reanchor 0
    { s with tk := { s.tk with inc := n } }.put R.TIME_RATE.INC n

/-- R516: the accepted range of INC. -/
def incOk (n : Nat) : Bool := 0x9FD70A3D ≤ n && n ≤ 0xA028F5C3

/-- R516: a write of TIME_INC. -/
def State.writeInc (s : State) (n : Nat) : State :=
  if s.follows || !incOk n then s.put R.TIME_STATUS.INC_ERR 1
  else { s with tk := { s.tk with newInc := some n } }

/-- TIME_INC_WRITE (R516): a write of TIME_INC by a path. -/
def execTimeIncWrite (p : Path) (w : Word) (s : State) : Out :=
  .next (s.gateAction p R.TIME_INC (fun s => s.writeInc w.toNat))

/-! ### The time master (R547–R549) -/

/-- R549: one loss of the time master. -/
def State.masterLost (s : State) : State := (s.satInc R.TIME_STATUS.LOSSES).raiseInst 390 0

/-- R547, Table 18-2: a write of LOCKED by the servo of a ROOT device. -/
def State.writeServo (s : State) (locked : Bool) : State :=
  let s := s.put R.TIME_SERVO.LOCKED (b2n locked)
  let s := if locked then { s with tk := { s.tk with servoAt := s.adv } } else s
  if locked = true ∧ s.tkState = tkFree then s.put R.TIME_STATUS.STATE tkLocked
  else if locked = true ∧ s.tkState = tkHoldover then (s.put R.TIME_STATUS.STATE tkLocked).raiseInst 391 0
  else if locked = false ∧ s.tkState = tkLocked then (s.put R.TIME_STATUS.STATE tkHoldover).masterLost
  else s

/-- TIME_SERVO_WRITE (R547, R549): a write of TIME_SERVO by a path. -/
def execTimeServoWrite (p : Path) (locked : Bool) (s : State) : Out :=
  .next (s.gateAction p R.TIME_SERVO (fun s => s.writeServo locked))

/-- R547: HOLD_TMO in ns; 0 acts as 1. -/
def State.holdTmo (s : State) : Nat := 100000000 * max 1 (s.get R.TIME_CFG.HOLD_TMO)

/-- HOLD_TIMEOUT (R547, R549): HOLD_TMO has passed without a write of LOCKED = 1 on a LOCKED device. -/
def execHoldTimeout (s : State) : Out :=
  if s.tkState = tkLocked ∧ s.tk.servoAt + s.holdTmo ≤ s.adv then .next (s.put R.TIME_STATUS.STATE tkHoldover).masterLost
  else .next s

/-! ### Steps (R523–R526) -/

/-- R523: the largest time a step may lead to, one past SEC = 2^48 − 1, in 2^-16 ns. -/
def timeLimit : Nat := 2 ^ 48 * secUnits

/-- R523: the step tick of a step accepted now, at least 2 µs ahead, and the time the timekeeper is predicted to reach there. -/
def State.stepTick (s : State) : Nat := s.ticks + 50
def State.stepTime (s : State) : Nat := (s.tk.raw + 50 * s.tk.inc) / 1024

/-- The checks of Table 18-1. -/
def timeStepChecks (o : Order) : List (Nat × Bool) :=
  [chk 16 (2 ≤ o.u 16 1)] ++ reserved o 17 3 ++ [(20, o.u 16 1 == 1 && badTime o 20)]
    ++ (if o.u 16 1 = 0 then reserved o 28 4 else []) ++ reserved o 52 12

/-- R523: the STEP of an order in 2^-16 ns, fixed at acceptance. -/
def State.stepOf (s : State) (o : Order) : Int :=
  if o.u 16 1 = 0 then sext 64 (o.u 20 8) else (ofTime96 (o.u 20 12) : Int) - s.stepTime

/-- TIME_STEP (R523, R524, R526): the order makes a step pending for its step tick, or refuses it. -/
def State.timeStepAccept (o : Order) (s : State) : State :=
  s.validate o (timeStepChecks o) (fun s =>
    let d := s.stepOf o
    let free := o.u 16 1 == 1 && s.tkState == tkUnset
    if s.follows then s.retire o stState
    else if (s.stepTime : Int) + d < 0 ∨ (timeLimit : Int) ≤ s.stepTime + d then s.retire o stBadParam 20
    else if !free && nsUnits (s.get R.TIME_JUMP.JUMP_MAX) < d.natAbs then
      ((s.put R.TIME_STATUS.JUMP_SEEN 1).raiseInst 384 0).retire o 0x2B
    else { s with tk := { s.tk with steps := s.tk.steps ++ [(o.ref, d, s.stepTick)] } })

/-- The arm of that order. -/
def execTimeStep (s : State) : Out := .next (s.accept 0x0D01 State.timeStepAccept)

/-- R526: a cancel of a TIME_STEP before its step tick or in its cycle. -/
def State.timeStepCancel (s : State) (o : Order) : State :=
  { s with tk := { s.tk with steps := s.tk.steps.filter (fun x => x.1 != o.ref) } }.retire o stCancelled

/-- The steps to come, as (time of the step on the base before it, step): this device's own, then its root's on a follower (R546). -/
def State.comingSteps (s : State) : List (Nat × Int) :=
  (s.tk.steps.foldl (fun (acc : Int × List (Nat × Int)) x =>
    let t := ((s.tk.raw + (x.2.2 - s.ticks) * s.tk.inc) / 1024 : Nat) + acc.1
    (acc.1 + x.2.1, acc.2 ++ [(t.toNat, x.2.1)])) (0, [])).2 ++ (if s.follows then s.kx.rootSteps else [])

/-- R529: how far ahead an absolute time lies once the steps to come are counted in; none where a forward step passes over it. -/
def aheadOf (now : Int) (t : Int) : List (Nat × Int) → Option Int
  | [] => some (t - now)
  | (k, d) :: rest =>
    if t < k then some (t - now)
    else if t < k + d then none
    else aheadOf (now + d) t rest

/-! ### Time gates (R527–R531) -/

/-- START and PERIOD of gate g in 2^-16 ns, and the time of firing j. -/
def State.tgWord (s : State) (g : Nat) : Nat :=
  (s.word (R.TG_START0 g)).toNat + (s.word (R.TG_START1 g)).toNat * 2 ^ 32 + (s.word (R.TG_START2 g)).toNat * 2 ^ 64
def State.tgPeriod (s : State) (g : Nat) : Nat := s.get (R.TG_PERIOD.PERIOD_NS g) * 65536 + s.get (R.TG_CTL.PFRAC g)
def State.tgTime (s : State) (g j : Nat) : Nat := ofTime96 (s.tgWord g) + j * s.tgPeriod g

/-- A gate's internals, read and changed. -/
def State.gateRun (s : State) (g : Nat) : Gate := (SMap.find? s.gates g).getD {}
def State.updGate (s : State) (g : Nat) (f : Gate → Gate) : State := { s with gates := SMap.put s.gates g (f (s.gateRun g)) }

/-- R527: whether firing number j exists. -/
def State.tgHas (s : State) (g j : Nat) : Bool := s.get (R.TG_COUNT.COUNT g) = 0 || j < s.get (R.TG_COUNT.COUNT g)

/-- R527: a gate none of whose firings remains ends. -/
def State.tgEnd (s : State) (g : Nat) : State := (s.put (R.TG_CTL.EN g) 0).put (R.TG_CTL.DONE g) 1

/-- R528, R530: the firings from the next one on whose time lies before `t` are skipped and counted; the answer is how many. -/
def State.tgSkip (s : State) (g t : Nat) : Nat × State :=
  let j := (s.gateRun g).next
  let per := s.tgPeriod g
  let due := t - s.tgTime g j
  let n := if s.tgTime g j ≥ t then 0 else if per = 0 then s.get (R.TG_COUNT.COUNT g) - j else ceilDiv due per
  let n := if s.get (R.TG_COUNT.COUNT g) = 0 then n else min n (s.get (R.TG_COUNT.COUNT g) - j)
  let s := (s.satInc (R.TG_STAT.MISSED g) n).updGate g (fun x => { x with next := j + n, woken := if n = 0 then x.woken else false })
  (n, if s.tgHas g (j + n) || (s.gateRun g).announced.isSome then s else s.tgEnd g)

/-- R520, R527: whether EN is refused. -/
def State.tgRefused (s : State) (g : Nat) (w : Nat) : Bool :=
  let per := s.get (R.TG_PERIOD.PERIOD_NS g) * 65536 + bits w 16 16
  (per < nsUnits 100 && s.get (R.TG_COUNT.COUNT g) != 1) || !time96Ok (s.tgWord g)

/-- R4, R527, R528, R530: a write of TG_CTL(g). A change of PFRAC while EN = 1, and a setting of EN that R527 names, are refused; the other
fields of that write take effect. -/
def State.writeTgCtl (s : State) (g : Nat) (w : Word) : State :=
  let was := s.on (R.TG_CTL.EN g)
  let frac := s.get (R.TG_CTL.PFRAC g)
  let badFrac := was && bits w.toNat 16 16 != frac
  let badEn := !was && bit w.toNat 0 && s.tgRefused g w.toNat
  let s := if badFrac || badEn then s.put R.TIME_STATUS.CFG_ERR 1 else s
  let n := if badFrac then w.toNat % 65536 + frac * 65536 else if badEn then w.toNat - 1 else w.toNat
  let s := s.plainWrite (R.TG_CTL g) (BitVec.ofNat 32 n)
  if was || !s.on (R.TG_CTL.EN g) then s
  else
    let s := (s.put (R.TG_STAT.MISSED g) 0).updGate g (fun x => { x with next := 0, final := false, woken := false })
    (s.tgSkip g (s.time + nsUnits 1000)).2

/-- TG_ENABLE (R520, R527, R528, R530): a write of TG_CTL(g) by a path. -/
def execTgEnable (p : Path) (g : Fin 32) (w : Word) (s : State) : Out :=
  .next (s.gate p (R.TG_CTL g.val) (fun s => s.writeTgCtl g.val w) (fun s => s.writeTgCtl g.val w))

/-- R527: a write of TG_START, TG_PERIOD or TG_COUNT is refused while the gate is enabled. -/
def State.writeTgSet (s : State) (g key : Nat) (w : Word) : State :=
  if s.on (R.TG_CTL.EN g) then s.put R.TIME_STATUS.CFG_ERR 1 else s.plainWrite key w

/-- R529: how far ahead the next firing of a gate lies, in 2^-16 ns. -/
def State.tgAhead (s : State) (g : Nat) : Option Int := aheadOf s.time (s.tgTime g (s.gateRun g).next) s.comingSteps

/-- GATE_ANNOUNCE (R529, R530): the next firing of an enabled gate, at most 1 µs ahead, is announced with its time. -/
def execGateAnnounce (g : Fin 32) (s : State) : Out :=
  let g := g.val
  let x := s.gateRun g
  if !s.on (R.TG_CTL.EN g) || x.announced.isSome || !s.tgHas g x.next then .next s
  else match s.tgAhead g with
    | some d =>
      if d ≤ nsUnits 1000 then
        let t := s.tgTime g x.next
        let s := s.updGate g (fun x => { x with
          next := x.next + 1, announced := some t, final := !s.tgHas g (x.next + 1), woken := false })
        .next (s.sgGateStart g t)
      else .next s
    | none => .next s

/-- R530: a forward step from `old` to `new` skips the firings not yet announced that it passes over. -/
def State.tgPassed (s : State) (new : Nat) : State :=
  (List.range 32).foldl (fun s g =>
    if s.on (R.TG_CTL.EN g) && s.tgHas g (s.gateRun g).next then
      let r := s.tgSkip g new
      if r.1 = 0 then s else r.2.raiseInst 385 g
    else s) s

/-- R527: a firing made: it is counted, and ends its gate if it was the last. -/
def State.tgFired (s : State) (g : Nat) : State :=
  let x := s.gateRun g
  let s := (s.inc (R.TG_STAT.FIRES g)).updGate g (fun x => { x with announced := none, final := false })
  if x.final || (s.on (R.TG_CTL.EN g) && !s.tgHas g x.next) then s.tgEnd g else s

end Machine
end Sys2Proof
end

