-- ==== Sys2Proof/Machine/Eth.lean ====
section
/-!
DEFINITION. ETH0 (R532–R536): frames sent and received with hardware stamps. Buffers lie in PF0 BAR2 at 0x4000–0x7FFF; offsets here
count from 0x4000.

Marked choices (log entries): DEDUCED 74. Each entry of notes/assumptions says safe or unsafe.
-/

namespace Sys2Proof
namespace Machine

/-! ### Octets and the frame check sequence -/

/-- One bit and one byte of the CRC-32 of IEEE 802.3, which the frame check sequence is made of. -/
def fcsBit (c : BitVec 32) : BitVec 32 := if c.getLsbD 0 then (c >>> 1) ^^^ 0xEDB88320#32 else c >>> 1
def fcsByte (c : BitVec 32) (b : Byte) : BitVec 32 :=
  let c := c ^^^ b.setWidth 32
  fcsBit (fcsBit (fcsBit (fcsBit (fcsBit (fcsBit (fcsBit (fcsBit c)))))))

/-- The FCS of a frame as the number whose little-endian bytes follow it. -/
def fcsOf (bs : List Byte) : Nat := (bs.foldl fcsByte 0xFFFFFFFF#32 ^^^ 0xFFFFFFFF#32).toNat

/-- A frame with its FCS. -/
def withFcs (bs : List Byte) : List Byte := bs ++ leBytes 4 (fcsOf bs)

/-- Network byte order: the number that big-endian bytes spell, and the `n` big-endian bytes of a number. -/
def beNat (bs : List Byte) : Nat := leNat bs.reverse
def beBytes (n v : Nat) : List Byte := (leBytes n v).reverse
def beField (bs : List Byte) (off n : Nat) : Nat := beNat ((bs.drop off).take n)

/-! ### Transmission (R534–R536) -/

/-- R534: offset of TX buffer t and of RX slot r. -/
def txOff (t : Nat) : Nat := 0x800 * t
def rxOff (r : Nat) : Nat := 0x1000 + 0x800 * r

/-- R536: an 8-byte correctionField increased by a number of 2^-16 ns, modulo 2^64. -/
def addCorrection (bs : List Byte) (off add : Nat) : List Byte :=
  overlay bs off (beBytes 8 ((beField bs off 8 + add) % 2 ^ 64))

/-- R536: what OS makes of a PTP message at `off` of a frame for an egress stamp (2^-16 ns); a frame that ends before the fields does
not change. -/
def oneStep (os off stamp : Nat) (bs : List Byte) : List Byte :=
  if bs.length < off + (if os = 1 then 44 else 16) then bs
  else match os with
  | 1 =>
    let bs := overlay bs (off + 34) (beBytes 6 (stamp / secUnits) ++ beBytes 4 (stamp % secUnits / 65536))
    addCorrection bs (off + 8) (stamp % 65536)
  | 2 => addCorrection bs (off + 8) (stamp % 2 ^ 64)
  | _ => bs

/-- The one's-complement sum of the bytes of a frame from the UDP header on, each weighted by its place in its 16-bit word. -/
def wordSum (udp : Nat) (bs : List Byte) : Nat :=
  ((bs.drop udp).zipIdx).foldl (fun a x => a + x.1.toNat * (if x.2 % 2 = 0 then 256 else 1)) 0

/-- R536: the UDP checksum at `udp` + 6 updated for the change from `old` to `new`; a checksum of 0 stands for none. -/
def fixUdp (udp : Nat) (old new : List Byte) : List Byte :=
  let ck := beField old (udp + 6) 2
  if udp = 0 ∨ ck = 0 then new
  else
    let x := ((65535 - ck : Int) + wordSum udp new - wordSum udp old) % 65535
    overlay new (udp + 6) (beBytes 2 (65535 - x.toNat))

/-- The three registers of a stamp, latched words apart. -/
def State.setStamp (s : State) (k0 k1 k2 stamp : Nat) : State :=
  let w := toTime96 stamp
  ((s.setWord k0 (BitVec.ofNat 32 w)).setWord k1 (BitVec.ofNat 32 (w / 2 ^ 32))).setWord k2 (BitVec.ofNat 32 (w / 2 ^ 64))

/-- R534: ETH_FRAME, when ETH_CFG.EV_EN is set. -/
def State.ethEvent (s : State) : State := if s.on R.ETH_CFG.EV_EN then s.raiseInst 386 0 else s

/-- R534: a write of ETH_TXCTL(t): with GO while the previous frame has not left, nothing; GO with a length outside 60–1,518 sends
nothing. -/
def State.writeTxCtl (s : State) (t : Nat) (w : Word) : State :=
  let go := bit w.toNat 15
  if go && s.eth.busy.contains t then s
  else
    let s := s.plainWrite (R.ETH_TXCTL t) w
    let len := s.get (R.ETH_TXCTL.LEN t)
    if go && s.on R.ETH_CFG.EN && 60 ≤ len && len ≤ 1518 then
      { (s.put (R.ETH_TXCTL.DONE t) 0) with eth := { s.eth with busy := s.eth.busy ++ [t] } }
    else s

/-- ETH_TX_GO (R534): a write of ETH_TXCTL(t) by a path. -/
def execEthTxGo (p : Path) (t : Fin 2) (w : Word) (s : State) : Out :=
  .next (s.gateAction p (R.ETH_TXCTL t.val) (fun s => s.writeTxCtl t.val w))

/-- ETH_TX_DONE (R534–R536): the frame of TX buffer t leaves ETH0, its timestamp point `sub` × 2^-16 ns after the present tick. -/
def execEthTxDone (t : Fin 2) (sub : Fin 2621440) (s : State) : Out :=
  let t := t.val
  if !s.eth.busy.contains t || !s.on R.ETH_CFG.LINK then .next s
  else
    let stamp := s.time + sub.val
    let bs := Mem.reads 0 s.eth.mem (txOff t) (s.get (R.ETH_TXCTL.LEN t))
    let out := fixUdp (s.get (R.ETH_TXCTL.UDP_OFF t)) bs (oneStep (s.get (R.ETH_TXCTL.OS t)) (s.get (R.ETH_TXCTL.PTP_OFF t)) stamp bs)
    let s := { s with eth := { s.eth with busy := s.eth.busy.filter (fun x => x != t) } }
    let s := s.send (.frame 2 0 (withFcs out))
    let s := (s.setStamp (R.ETH_TXT0 t) (R.ETH_TXT1 t) (R.ETH_TXT2 t) stamp).put (R.ETH_TXCTL.DONE t) 1
    .next s.ethEvent

/-! ### Reception (R533–R535) -/

/-- R553: the Akwaune group address of a domain. -/
def akwAddress (domain : Nat) : List Byte := [0x03#8, 0x1D#8, 0x9C#8, 0#8, 0#8] ++ leBytes 1 domain

/-- R533: the multicast addresses of IEEE 1588. -/
def ptpAddresses : List (List Byte) :=
  [[0x01#8, 0x1B#8, 0x19#8, 0#8, 0#8, 0#8], [0x01#8, 0x80#8, 0xC2#8, 0#8, 0#8, 0x0E#8],
   [0x01#8, 0#8, 0x5E#8, 0#8, 0x01#8, 0x81#8], [0x01#8, 0#8, 0x5E#8, 0#8, 0#8, 0x6B#8],
   [0x33#8, 0x33#8, 0#8, 0#8, 0x01#8, 0x81#8], [0x33#8, 0x33#8, 0#8, 0#8, 0#8, 0x6B#8]]

/-- ETH_MAC in the order of its octets. -/
def State.ethMac (s : State) : List Byte := leBytes 4 (s.get R.ETH_MAC_LO.MAC) ++ leBytes 2 (s.get R.ETH_MAC_HI.MAC)

/-- R533: whether the port accepts a frame's destination address. -/
def State.addressed (s : State) (dst : List Byte) : Bool :=
  dst == s.ethMac || dst == List.replicate 6 0xFF#8 || ptpAddresses.contains dst || dst == akwAddress (s.get R.AKW_CFG.DOMAIN)

/-- R553: whether a frame is an Akwaune frame of this device's domain and EtherType. -/
def State.isAkwaune (s : State) (bs : List Byte) : Bool :=
  bs.take 6 == akwAddress (s.get R.AKW_CFG.DOMAIN) && beField bs 12 2 == s.get R.AKW_CFG.ETYPE

/-- R532, R533: what the port does with a frame before any slot: nothing while disabled, down or for a frame that is too long;
FCS errors are counted; what is not addressed to it and pause frames are dropped. The frame without its FCS, if it is kept. -/
def State.ethFilter (s : State) (bs : List Byte) : Option (List Byte) × State :=
  let body := bs.take (bs.length - 4)
  if !s.on R.ETH_CFG.EN || !s.on R.ETH_CFG.LINK then (none, s)
  else if withFcs body ≠ bs then (none, s.satInc R.ETH_CNT.FCS_ERR)
  else if 1522 < bs.length || !s.addressed (body.take 6) || beField body 12 2 == 0x8808 then (none, s)
  else (some body, s)

/-- R534: the owned slot filled next, in cyclic order. -/
def State.nextSlot (s : State) : Option Nat :=
  ((List.range 6).map (fun i => (s.eth.next + i) % 6)).find? (fun r => s.on (R.ETH_RXSTAT.OWN r))

/-- ETH_FRAME_RECEIVED (R532–R535): a frame with its FCS arrives, its timestamp point `sub` × 2^-16 ns after the present tick, and fills
the next owned slot. An Akwaune frame with AKW_EN = 1 is not this row's but AKWAUNE_FRAME_RECEIVED's. -/
def execEthFrameReceived (bytes : List Byte) (sub : Fin 2621440) (s : State) : Out :=
  let got := s.ethFilter bytes
  let s := got.2
  match got.1 with
  | none => .next s
  | some body =>
    if s.on R.ETH_CFG.AKW_EN && s.isAkwaune body then .next s
    else match s.nextSlot with
      | none => .next (s.satInc R.ETH_CNT.RX_DROP)
      | some r =>
        let s := { s with eth := { s.eth with mem := Mem.writes 0#8 s.eth.mem (rxOff r) body, next := (r + 1) % 6 } }
        let s := (s.put (R.ETH_RXSTAT.LEN r) body.length).put (R.ETH_RXSTAT.OWN r) 0
        .next (s.setStamp (R.ETH_RXT0 r) (R.ETH_RXT1 r) (R.ETH_RXT2 r) (s.time + sub.val)).ethEvent

/-- ETH0_LINK_CHANGE (R554): the link comes up on an enabled port, or goes down. -/
def execEth0LinkChange (up : Bool) (s : State) : Out :=
  .next (s.put R.ETH_CFG.LINK (b2n (up && s.on R.ETH_CFG.EN)))

/-- A write of ETH_CFG: disabling the port takes its link down. -/
def State.writeEthCfg (s : State) (w : Word) : State :=
  let s := s.plainWrite R.ETH_CFG w
  if s.on R.ETH_CFG.EN then s else s.put R.ETH_CFG.LINK 0

/-- A write of one word of the frame buffers, by its offset. -/
def State.writeEthBuffer (s : State) (off : Nat) (w : Word) : State :=
  { s with eth := { s.eth with mem := Mem.writes 0#8 s.eth.mem off (leBytes 4 w.toNat) } }

/-- A read of one word of the frame buffers. -/
def State.readEthBuffer (s : State) (off : Nat) : Word := BitVec.ofNat 32 (leNat (Mem.reads 0 s.eth.mem off 4))

end Machine
end Sys2Proof
end

