-- ==== Sys2Proof/Machine/Kx.lean ====
section
/-!
DEFINITION. The Kavaxel links (R537–R540), routes over the board's torus (R538, R539), remote triggers and Akwaune frames
(R550–R555).

Marked choices (log entries): DEDUCED 69, 70, 71, 142, 148. Each entry of notes/assumptions says safe or unsafe.
-/

namespace Sys2Proof
namespace Machine

/-! ### The torus and its routes (R538, R539) -/

/-- This device's slot and DEVID. -/
def State.slot (s : State) : Nat := s.get R.GLOBAL_STRAPS.SLOT
def State.devid (s : State) : Nat := s.get R.TIME_ID.DEVID

/-- R538: the slot that link l (0–3) of slot a leads to; the partner's link back. -/
def kxNeighbour (a l : Nat) : Nat :=
  let x := a % 4
  let y := a / 4
  match l with
  | 0 => (x + 1) % 4 + 4 * y
  | 1 => (x + 3) % 4 + 4 * y
  | 2 => x + 4 * ((y + 1) % 4)
  | _ => x + 4 * ((y + 3) % 4)
def kxBack (l : Nat) : Nat := match l with
  | 0 => 1
  | 1 => 0
  | 2 => 3
  | _ => 2

/-- KX_LINK(l).STATE is UP. -/
def State.kxUp (s : State) (l : Nat) : Bool := s.get (R.KX_LINK.STATE l) == 2

/-- Own link l as LK2's routes take it: a loss that LK2 has not worked through counts as up (R591). -/
def State.kxRouted (s : State) (l : Nat) : Bool := s.kxUp l || s.kx.frozen.contains l

/-- Whether LK2 takes link l of the device at slot a as usable: both slots fitted, and neither end known to be out of UP. -/
def State.kxEdge (s : State) (a l : Nat) : Bool :=
  let b := kxNeighbour a l
  bit (s.get R.KX_CFG.PRESENT) a && bit (s.get R.KX_CFG.PRESENT) b && a != b
    && (if a = s.slot then s.kxRouted l else !s.kx.failed.contains (a, l))
    && (if b = s.slot then s.kxRouted (kxBack l) else !s.kx.failed.contains (b, kxBack l))

/-- Hop counts from every slot to slot `t`, after so many rounds; 99 where there is no route yet. -/
def State.kxHops (s : State) (t : Nat) : Nat → List Nat
  | 0 => (List.range 16).map (fun a => if a = t then 0 else 99)
  | n + 1 =>
    let d := s.kxHops t n
    (List.range 16).map (fun a => [0, 1, 2, 3].foldl (fun m l =>
      if s.kxEdge a l then min m (d.getD (kxNeighbour a l) 99 + 1) else m) (d.getD a 99))

/-- R539: the link by which the device at slot a begins its route to slot t: the fewest hops, ties to x before y, then to the lower
link. -/
def State.kxFirst (s : State) (a t : Nat) : Option Nat :=
  let d := s.kxHops t 15
  if a = t ∨ 99 ≤ d.getD a 99 then none
  else [0, 1, 2, 3].find? (fun l => s.kxEdge a l && d.getD (kxNeighbour a l) 99 + 1 == d.getD a 99)

/-- The slot before `t` on the route from slot a, within so many hops. -/
def State.kxLast (s : State) (a t : Nat) : Nat → Option (Nat × Nat)
  | 0 => none
  | n + 1 => match s.kxFirst a t with
    | none => none
    | some l => if kxNeighbour a l = t then some (a, l) else s.kxLast (kxNeighbour a l) t n

/-- R544, R552: the links by which this device passes on what entered the board at slot `entry`: the routes from there make a tree. -/
def State.kxBranches (s : State) (entry : Nat) : List Nat :=
  [0, 1, 2, 3].filter (fun l => s.kxLast entry (kxNeighbour s.slot l) 16 == some (s.slot, l))

/-- R539: the first link of the route to a device, by where LK2 knows it to be: a slot of this board, 16 + l behind own link l, or 32 + a
beyond the device at slot a. -/
def State.routeTo (s : State) (place : Nat) : Option Nat :=
  if place < 16 then s.kxFirst s.slot place
  else if 32 ≤ place then s.kxFirst s.slot (place - 32)
  else if s.kxRouted (place - 16) then some (place - 16) else none

/-- Every route of LK2: to each slot, then to each device off the board. -/
def State.routes (s : State) : List (Option Nat) :=
  (List.range 16).map s.routeTo ++ (s.kx.devs.filter (fun e => 16 ≤ e.2)).map (fun e => s.routeTo e.2)

/-- Whether there is a route to the device followed. -/
def State.rootRoute (s : State) : Option Nat :=
  match SMap.find? s.kx.devs (s.get R.TIME_ROOT.ROOT_ID) with
  | some p => s.routeTo p
  | none => none

/-! ### Following (R546, Table 18-2) -/

/-- ACQUIRING begins. -/
def State.acquire (s : State) : State :=
  { (s.put R.TIME_STATUS.STATE tkAcquiring) with kx := { s.kx with nearSince := none, stepped := false } }

/-- R546: a follower's route to its root as it now stands: without one the wait for FOLLOW_LOST runs; one regained ends it. -/
def State.settleRoot (s : State) : State :=
  if !s.follows then { s with kx := { s.kx with lostSince := none } }
  else match s.rootRoute with
    | none => { s with kx := { s.kx with lostSince := some (s.kx.lostSince.getD s.adv) } }
    | some _ =>
      let s := { s with kx := { s.kx with lostSince := none } }
      if s.tkState = tkFollowLost then s.acquire else s

/-- R539, R546: what LK2 knows changes by `f`: routes are recomputed and their changes counted; a follower whose route to the root
changes measures the new path. -/
def State.reroute (s : State) (f : State → State) : State :=
  let old := s.routes
  let root := s.rootRoute
  let s := f s
  let new := s.routes
  let n := ((List.range (max old.length new.length)).filter (fun i => old.getD i none != new.getD i none)).length
  let s := s.inc R.KX_STAT.REROUTES n
  let s := if s.rootRoute != root then { s with kx := { s.kx with measuring := true } } else s
  s.settleRoot

/-- R543, R547: a write of TIME_CFG: MODE takes effect at once. -/
def State.writeTimeCfg (s : State) (w : Word) : State :=
  let was := s.follows
  let s := s.plainWrite R.TIME_CFG w
  if s.follows && !was then s.acquire.settleRoot
  else if !s.follows && was then (s.put R.TIME_STATUS.STATE tkFree).settleRoot
  else s

/-- TIME_MODE_WRITE (R543, R547): a write of TIME_CFG by a path. -/
def execTimeModeWrite (p : Path) (w : Word) (s : State) : Out := .next (s.gateAction p R.TIME_CFG (fun s => s.writeTimeCfg w))

/-- A write of TIME_ROOT: the route in question is now the new root's. -/
def State.writeTimeRoot (s : State) (w : Word) : State := (s.plainWrite R.TIME_ROOT w).settleRoot

/-- FOLLOW_LOST_TIMEOUT (R546, R547, R549): a follower has had no route to its root for 100 µs. -/
def execFollowLostTimeout (s : State) : Out :=
  match s.kx.lostSince with
  | some t =>
    if s.follows ∧ (s.tkState = tkAcquiring ∨ s.tkState = tkFollowing) ∧ t + 100000 ≤ s.adv then
      .next (s.put R.TIME_STATUS.STATE tkFollowLost).masterLost
    else .next s
  | none => .next s

/-! ### Links (R537–R539) -/

/-- R550, R552: a trigger sent on a link. -/
def State.sendTrigger (s : State) (l : Nat) (t : KxTrigger) : State :=
  let s := { s with kx := { s.kx with recent := (l, s.adv, t) :: s.kx.recent.filter (fun x => s.adv ≤ x.2.1 + 2000) } }
  s.send (.trigger l t)

/-- R539, R552: own link l has left UP: counted and reported, and the triggers sent on it in the last 2 µs go by the new route. While LK2
is not UP the routes stay as they were (R591). -/
def State.linkLeft (s : State) (l : Nat) (f : State → State) : State :=
  let again := if s.lkUp 2 then s.kx.recent.filter (fun x => x.1 == l && s.adv ≤ x.2.1 + 2000) else []
  let s := if s.lkUp 2 then s.reroute f else f { s with kx := { s.kx with frozen := l :: s.kx.frozen.filter (fun x => x != l) } }
  let s := s.satInc (R.KX_LINK.DOWNS l)
  let s := s.raiseInst 388 l
  match (if l < 4 then s.routeTo (kxNeighbour s.slot l) else none) with
  | some l' => again.reverse.foldl (fun s x => s.sendTrigger l' x.2.2) s
  | none => s

/-- R537: a write of KX_LINK(l).EN: training begins, or the link goes down. -/
def State.writeKxLink (s : State) (l : Nat) (en : Bool) : State :=
  let was := s.kxUp l
  let on := s.on (R.KX_LINK.EN l)
  let s := s.put (R.KX_LINK.EN l) (b2n en)
  if en && !on then s.put (R.KX_LINK.STATE l) 1
  else if !en && on then
    let f := fun (s : State) => s.put (R.KX_LINK.STATE l) 0
    if was then s.linkLeft l f else f s
  else s

/-- KX_LINK_ENABLE (R537): a write of KX_LINK(l) by a path. -/
def execKxLinkEnable (p : Path) (l : Fin 6) (en : Bool) (s : State) : Out :=
  .next (s.gateField p (R.KX_LINK.EN l.val) (b2n en) (fun s => s.writeKxLink l.val en))

/-- R537: the DEVID of the board's reference master, where this device knows it: its own, or what a neighbour told. -/
def State.refMaster (s : State) : Option Nat := if s.on R.GLOBAL_STRAPS.REFMASTER then some s.devid else s.kx.refMaster

/-- R537: this device's side of a HELLO exchange on link l is sent, and the partner's is noted; a neighbour of the board may tell
the reference master. -/
def State.exchangeHello (s : State) (l devid : Nat) (refMaster : Option Nat) (slot : Nat) : State :=
  let s := s.send (.kxHello l s.devid s.refMaster s.slot)
  let s := if l < 4 ∧ slot = kxNeighbour s.slot l ∧ refMaster.isSome then { s with kx := { s.kx with refMaster := refMaster } } else s
  (s.put (R.KX_LINK.NEIGH_SLOT l) slot).put (R.KX_LINK_PEER.DEVID l) devid

/-- KX_HELLO (R537–R539, R546, R547): a HELLO exchange on link l of the device at slot `device` of this board, whose partner has
`devid` and `slot` and names its board's reference master. On this device's own link, which must be TRAINING, the partner must
stand where R538 puts it; a link to a slot that is not fitted stays TRAINING. Of another device's link LK2 learns that it is UP.
The exchange waits for LK2 (R591). -/
def execKxHello (device : Fin 16) (l : Fin 6) (devid : Fin 262144) (refMaster : Option (Fin 262144)) (slot : Fin 16)
    (s : State) : Out :=
  let l := l.val
  let learn := fun (s : State) => { s with kx := { s.kx with
    devs := SMap.put s.kx.devs devid.val (if l < 4 then slot.val else 16 + l) } }
  if !s.lkUp 2 then .next s
  else if device.val ≠ s.slot then
    .next (s.reroute (fun s =>
      let s := if l < 4 then learn s else s
      { s with kx := { s.kx with failed := s.kx.failed.filter (fun x => x != (device.val, l)) } }))
  else if s.get (R.KX_LINK.STATE l) ≠ 1 ∨ (l < 4 ∧ bit (s.get R.KX_CFG.PRESENT) (kxNeighbour s.slot l) = false) then .next s
  else
    let s := s.exchangeHello l devid.val (refMaster.map Fin.val) slot.val
    if l < 4 ∧ slot.val ≠ kxNeighbour s.slot l then .next ((s.put (R.KX_LINK.STATE l) 3).raiseInst 387 l)
    else .next (s.reroute (fun s => learn (s.put (R.KX_LINK.STATE l) 2)))

/-- KX_LINK_LOSS (R539, R540, R546, R552): link l of the device at slot `device` leaves UP. This device's own link trains again. -/
def execKxLinkLoss (device : Fin 16) (l : Fin 6) (s : State) : Out :=
  let l := l.val
  if device.val ≠ s.slot ∧ !s.lkUp 2 then
    .next { s with kx := { s.kx with late := (device.val, l) :: s.kx.late.filter (fun x => x != (device.val, l)) } }
  else if device.val ≠ s.slot then
    .next (s.reroute (fun s => { s with kx := { s.kx with
      failed := if s.kx.failed.contains (device.val, l) then s.kx.failed else s.kx.failed ++ [(device.val, l)] } }))
  else if s.kxUp l then .next (s.linkLeft l (fun s => s.put (R.KX_LINK.STATE l) 1))
  else .next s

/-- R591: LK2, UP again, recomputes the routes for the links lost meanwhile. -/
def State.routesDue (s : State) : State :=
  if s.kx.frozen.isEmpty && s.kx.late.isEmpty then s
  else s.reroute (fun s => { s with kx := { s.kx with
    failed := s.kx.failed ++ s.kx.late.filter (fun x => !s.kx.failed.contains x)
    frozen := []
    late := [] } })

/-! ### Stream ports (R540) -/

/-- R424, R540: a write of KX_SP(k): while EN = 1 a change of another field is refused; a refused enable leaves the other fields written. -/
def State.writeKxSp (s : State) (k : Nat) (w : Word) : State :=
  let en := bit w.toNat 15
  let was := s.on (R.KX_SP.EN k)
  let old := s.word (R.KX_SP k)
  let err := fun (s : State) => s.put (R.KX_SP_STAT.CFG_ERR k) 1
  let same := bits w.toNat 0 12 = bits old.toNat 0 12 ∧ bits w.toNat 16 12 = bits old.toNat 16 12
  if was then
    let s := if decide same then s else err s
    if en then s
    else (s.put (R.KX_SP.EN k) 0).unbindQueue (s.get (R.KX_SP.QUEUE k)) 4 k
  else if !en then s.plainWrite (R.KX_SP k) w
  else match s.bindQueue? (bits w.toNat 0 12) 4 k with
    | some s => s.plainWrite (R.KX_SP k) w
    | none => err ((s.plainWrite (R.KX_SP k) w).put (R.KX_SP.EN k) 0)

/-- KX_SP_ENABLE (R424, R540): a write of KX_SP(k) by a path. -/
def execKxSpEnable (p : Path) (k : Fin 16) (w : Word) (s : State) : Out :=
  .next (s.gate p (R.KX_SP k.val) (fun s => s.retainWrite (R.KX_SP k.val) w) (fun s => s.writeKxSp k.val w))

/-- A write of KX_SP_DEST(k), refused while the port is enabled. -/
def State.writeKxDest (s : State) (k : Nat) (w : Word) : State :=
  if s.on (R.KX_SP.EN k) then s.put (R.KX_SP_STAT.CFG_ERR k) 1 else s.plainWrite (R.KX_SP_DEST k) w

/-- R540: the LINK GAP mark before the first barge after a loss; it takes the SEQ before that barge's, one of those lost. -/
def linkGap (b : Barge) (lastEnd unit items : Nat) : Barge :=
  { mkGapMark b.stream b.source lastEnd (b.qual % 16 + (if b.qual / 128 % 2 = 1 then 128 else 0)) 0x12 unit items (some (b.stamp - lastEnd))
    with seq := (b.seq + 2 ^ 32 - 1) % 2 ^ 32 }

/-- Table 10-10: the items lost before a barge, after one that ended at `last.1` with its stream and SEQ: the samples of the span, or the
sheets or traces that the SEQs of their stream tell. Where neither tells, their number is an open value. -/
def State.linkItems (s : State) (last : Nat × Nat × Nat) (b : Barge) : Nat × State :=
  let per := samplePeriod b.format b.source
  if b.type = 1 then (((b.stamp - last.1) * per.2 + per.1 / 2) / per.1, s)
  else if !b.isMark ∧ b.stream = last.2.1 then ((b.seq + 2 ^ 33 - last.2.2 - 1) % 2 ^ 32, s)
  else (s.fresh.1 % 2 ^ 32, s.fresh.2)

/-- KX_STREAM_BARGE_ARRIVAL (R540): a barge of port k arrives for queue q, its span ending at `endStamp`; `lost` names the UNIT of a
link on which barges before it were lost. -/
def execKxStreamBargeArrival (k : Fin 16) (q : Fin 4096) (b : Barge) (endStamp : Nat) (lost : Option (Fin 64)) (s : State) : Out :=
  let last := (SMap.find? s.kx.ports k.val).getD (b.stamp, b.stream, b.seq - 1)
  let r : List (Nat × Barge) × State := match lost with
    | some u =>
      let n := s.linkItems last b
      ([(q.val, linkGap b last.1 u.val n.1)], n.2.inc (R.KX_SP_STAT.GAPS k.val))
    | none => ([], s)
  let s := r.2
  .next ({ s with kx := { s.kx with ports := SMap.put s.kx.ports k.val (endStamp, b.stream, b.seq) } }.offer (r.1 ++ [(q.val, b)]))

/-! ### Remote triggers (R550–R552) -/

/-- R550: RT r delivered as an occurrence of selector 0x0D0 + r, where RX_EN lets it. -/
def State.deliverRt (s : State) (r stamp ref : Nat) : State :=
  if s.on (R.KX_RT.RX_EN r) then s.eventOccur (0xD0 + r) stamp (s.qual ref) else s

/-- R551: RT r due at a time: held until then, or, when that has passed, delivered at once and counted late. -/
def State.dueRt (s : State) (r stamp due now : Nat) : State :=
  if now ≤ due then { s with kx := { s.kx with due := s.kx.due ++ [⟨due, stamp, r⟩] } }
  else if s.on (R.KX_RT.RX_EN r) then
    (((s.satInc (R.KX_RT.LATE r)).raiseInst 392 r).deliverRt r stamp 4)
  else s

/-- R521, R551: a trigger delivered here: on arrival, or equalised. -/
def State.receiveRt (s : State) (t : KxTrigger) (now : Nat) : State :=
  let r := t.rt.val
  if !time96Ok t.tf.toNat then s.deliverRt r now 2
  else
    let stamp := ofTime96 t.tf.toNat
    if !t.eq then s.deliverRt r stamp 4
    else match t.due with
      | some d => s.dueRt r stamp (ofTime96 d.toNat) now
      | none => s.dueRt r stamp (ofTime96 t.tx.toNat + nsUnits (s.get (R.KX_RT_EQ.EQ_NS r))) now

/-- R554: whether this device is its board's gateway. -/
def State.isGateway (s : State) : Bool := s.on R.ETH_CFG.AKW_GW && s.on R.ETH_CFG.LINK

/-- Table 18-3: the frame of a trigger, without its FCS. -/
def State.akwFrame (s : State) (t : KxTrigger) : List Byte :=
  let due := if t.eq then toTime96 (ofTime96 t.tx.toNat + nsUnits (s.get R.AKW_DELAY.DELAY)) else 0
  let dom := s.get R.AKW_CFG.DOMAIN
  akwAddress dom ++ s.ethMac ++ beBytes 2 (s.get R.AKW_CFG.ETYPE)
    ++ [1#8, 1#8] ++ leBytes 1 dom ++ leBytes 1 (b2n t.eq) ++ leBytes 4 t.src.val ++ leBytes 4 t.akwSeq.toNat ++ leBytes 1 t.rt.val
    ++ leBytes 3 0 ++ leBytes 12 t.tf.toNat ++ leBytes 12 due ++ leBytes 6 0

/-- R554: the gateway sends the Akwaune frame of a trigger that asks for one. -/
def State.gatewaySend (s : State) (t : KxTrigger) : State :=
  if t.akw && s.isGateway then s.send (.frame 2 0 (withFcs (s.akwFrame t))) else s

/-- R550, R552: a trigger passed on along the board's tree (for BOARD, or on its way to the gateway) and, from the device it entered
at, over KX4 and KX5; never back on the link it came by. -/
def State.spreadRt (s : State) (t : KxTrigger) (from_ : Option Nat) : State :=
  let inner := if t.board || t.akw then s.kxBranches t.entry.val else []
  let outer := if t.offb && from_.isNone then [4, 5].filter (fun l => s.kxUp l) else []
  (inner ++ outer).foldl (fun s l => if some l = from_ then s else s.sendTrigger l t) s

/-- R550, R551, R554: a flight sends remote trigger `r` with T_f and T_x. -/
def State.sendRemote (s : State) (r tf tx : Nat) : State :=
  let board := s.on (R.KX_RT.BOARD r)
  let offb := s.on (R.KX_RT.OFFB r)
  let akw := s.on (R.KX_RT.AKW r)
  if !board && !offb && !akw then s
  else
    let t : KxTrigger :=
      { src := Fin.ofNat 262144 s.devid, seq := s.kx.rtSeq, rt := Fin.ofNat 16 r, tf := BitVec.ofNat 96 (toTime96 tf)
        tx := BitVec.ofNat 96 (toTime96 tx), entry := Fin.ofNat 16 s.slot, board := board, offb := offb, akw := akw
        eq := s.on (R.KX_RT.EQ r), akwSeq := BitVec.ofNat 32 s.kx.akwSeq }
    let s := { s with kx := { s.kx with
      rtSeq := s.kx.rtSeq + 1
      akwSeq := if akw then (s.kx.akwSeq + 1) % 2 ^ 32 else s.kx.akwSeq
      seen := (t.src.val, 2 * t.seq) :: s.kx.seen } }
    let s := (s.spreadRt t none).gatewaySend t
    if board && t.eq then s.receiveRt t tx else s

/-- R552: the name by which a receiver knows a duplicate; triggers out of Akwaune frames are numbered by the frame's SEQ. -/
def rtKey (t : KxTrigger) : Nat × Nat := (t.src.val, if t.due.isSome then 2 * t.seq + 1 else 2 * t.seq)

/-- REMOTE_TRIGGER_RECEIVED (R521, R550–R552, R554): a remote trigger arrives on link l, `sub` × 2^-16 ns after the present tick. -/
def execRemoteTriggerReceived (l : Fin 6) (t : KxTrigger) (sub : Fin 2621440) (s : State) : Out :=
  if !s.kxUp l.val || s.kx.seen.contains (rtKey t) then .next s
  else
    let s := { s with kx := { s.kx with seen := rtKey t :: s.kx.seen } }
    let t : KxTrigger := if l.val < 4 then t else { t with entry := Fin.ofNat 16 s.slot, board := true, akw := false, offb := false }
    let s := (s.spreadRt t (some l.val)).gatewaySend t
    .next (if t.board then s.receiveRt t (s.time + sub.val) else s)

/-- REMOTE_TRIGGER_DUE (R551): an equalised trigger whose due time has come within the present tick is delivered. -/
def execRemoteTriggerDue (s : State) : Out :=
  match takeFirst (fun x => decide (x.due < s.time + nsUnits 40)) s.kx.due with
  | some (x, rest) => .next ({ s with kx := { s.kx with due := rest } }.deliverRt x.rt x.stamp 4)
  | none => .next s

/-! ### Akwaune frames (R553–R555) -/

/-- R555: a SEQ of a source taken in: whether it is newer than the last one kept, and how many frames are missing before it. The source
becomes the one heard from most recently, and at most 1,024 are kept. -/
def State.akwSeqIn (s : State) (src seq : Nat) : Option Nat × State :=
  let put := fun (n : Nat) => { s with kx := { s.kx with
    akwSrc := ((src, n) :: s.kx.akwSrc.filter (fun x => x.1 != src)).take 1024 } }
  match s.kx.akwSrc.find? (fun x => x.1 == src) with
  | none => (some 0, put seq)
  | some x =>
    let d := (seq + 2 ^ 32 - x.2) % 2 ^ 32
    if d = 0 ∨ 2 ^ 31 ≤ d then (none, put x.2) else (some (d - 1), put seq)

/-- R521, R555: a frame discarded as stale. -/
def State.akwStale (s : State) (info : Nat) : State := (s.satInc R.AKW_CNT.STALE).raise 394 0 info

/-- A frame the gateway takes in: not stale, it is remembered, spread over the board and received here. -/
def State.akwTake (s : State) (src missed now : Nat) (p : List Byte) : State :=
  let s := if missed = 0 then s else (s.satInc R.AKW_CNT.MISSED missed).raiseInst 393 0
  let eq := bit (field p 3 1) 0
  let due := field p 28 12
  if !time96Ok (field p 16 12) || !time96Ok due then s.akwStale (2 ^ 63)
  else if eq && ofTime96 due + nsUnits (1000 * s.get R.AKW_STALE.STALE_US) < now then s.akwStale 0
  else
    let t : KxTrigger :=
      { src := Fin.ofNat 262144 src, seq := field p 8 4, rt := Fin.ofNat 16 (field p 12 1), tf := BitVec.ofNat 96 (field p 16 12)
        tx := 0, entry := Fin.ofNat 16 s.slot, board := true, eq := eq, due := some (BitVec.ofNat 96 due) }
    let s := { s with kx := { s.kx with seen := rtKey t :: s.kx.seen } }
    (s.spreadRt t none).receiveRt t now

/-- AKWAUNE_FRAME_RECEIVED (R521, R555): a frame with its FCS arrives, `sub` × 2^-16 ns after the present tick; the gateway takes in a
trigger of its domain and spreads it over the board. -/
def execAkwauneFrameReceived (bytes : List Byte) (sub : Fin 2621440) (s : State) : Out :=
  let got := s.ethFilter bytes
  let s := got.2
  match got.1 with
  | none => .next s
  | some body =>
    let p := body.drop 14
    let src := field p 4 4 % 2 ^ 18
    let own := src == s.devid || ((SMap.find? s.kx.devs src).getD 16 < 16)
    if !(s.on R.ETH_CFG.AKW_EN && s.isGateway && s.isAkwaune body) || field p 0 1 != 1 || field p 1 1 != 1
        || field p 2 1 != s.get R.AKW_CFG.DOMAIN || own then .next s
    else
      let fresh := s.akwSeqIn src (field p 8 4)
      match fresh.1 with
      | none => .next fresh.2
      | some missed => .next (fresh.2.akwTake src missed (s.time + sub.val) p)

end Machine
end Sys2Proof
end

