-- ==== Sys2Proof/Machine/Pins.lean ====
section
/-!
DEFINITION. The edge inputs (R215–R217, R500): TRIG_IN0–7 are inputs 0–7, IBUS0–3 inputs 8–11, TDC_IN0–15 inputs 12–27. Dead time,
lost edges, stuck inputs; and the output pulses of TRIG_OUT and IBUS (R218, R219).

Marked choices (log entries): DESIGN CHOICE 32. Each entry of notes/assumptions says safe or unsafe.
-/

namespace Sys2Proof
namespace Machine

/-- The timekeeper's advance in 2^-16 ns at an instant `sub` after the present tick (R519). -/
def State.advU (s : State) (sub : Nat) : Nat := s.tk.adv / 1024 + sub

/-- The dead time of R215: 2.0 ns. -/
def deadTime : Nat := nsUnits 2

/-- The register fields of an input. -/
def pinEN (k : Nat) : Field := if k < 8 then R.TRIGIN_CFG.EN k else if k < 12 then R.IBUS_CFG.EN (k - 8) else R.TDC_IN_CFG.EN (k - 12)
def pinSTUCKEN (k : Nat) : Field :=
  if k < 8 then R.TRIGIN_CFG.STUCK_EN k else if k < 12 then R.IBUS_CFG.STUCK_EN (k - 8) else R.TDC_IN_CFG.STUCK_EN (k - 12)
def pinTIME (k : Nat) : Field :=
  if k < 8 then R.TRIGIN_STUCK.STUCK_TIME k else if k < 12 then R.IBUS_STUCK.STUCK_TIME (k - 8) else R.TDC_IN_STUCK.STUCK_TIME (k - 12)
def pinREARM (k : Nat) : Field :=
  if k < 8 then R.TRIGIN_REARM.STUCK_REARM k else if k < 12 then R.IBUS_REARM.STUCK_REARM (k - 8)
  else R.TDC_IN_REARM.STUCK_REARM (k - 12)
def pinLEVEL (k : Nat) : Field :=
  if k < 8 then R.TRIGIN_STATUS.LEVEL k else if k < 12 then R.IBUS_STATUS.LEVEL (k - 8) else R.TDC_IN_STATUS.LEVEL (k - 12)
def pinSTUCK (k : Nat) : Field :=
  if k < 8 then R.TRIGIN_STATUS.STUCK k else if k < 12 then R.IBUS_STATUS.STUCK (k - 8) else R.TDC_IN_STATUS.STUCK (k - 12)
def pinSEEN (k : Nat) : Field :=
  if k < 8 then R.TRIGIN_STATUS.STUCK_SEEN k else if k < 12 then R.IBUS_STATUS.STUCK_SEEN (k - 8)
  else R.TDC_IN_STATUS.STUCK_SEEN (k - 12)
def pinOVR (k : Nat) : Field :=
  if k < 8 then R.TRIGIN_STATUS.OVR_SEEN k else if k < 12 then R.IBUS_STATUS.OVR_SEEN (k - 8) else R.TDC_IN_STATUS.OVR_SEEN (k - 12)
def pinEDGES (k : Nat) : Field :=
  if k < 8 then R.TRIGIN_STATUS.EDGES k else if k < 12 then R.IBUS_STATUS.EDGES (k - 8) else R.TDC_IN_STATUS.EDGES (k - 12)
def pinLOST (k : Nat) : Field :=
  if k < 8 then R.TRIGIN_OVR.COUNT k else if k < 12 then R.IBUS_OVR.COUNT (k - 8) else R.TDC_IN_OVR.COUNT (k - 12)

/-- The overrun and stuck events of an input and the instance they name (R215, R216, R500): IBUS lines count on from the TRIG_IN
inputs. -/
def pinOvrSource (k : Nat) : Nat := if k < 12 then 66 else 354
def pinStuckSource (k : Nat) : Nat := if k < 12 then 67 else 352
def pinNumber (k : Nat) : Nat := if k < 12 then k else k - 12

/-- The selector of an input below 12 (Table 07-1). -/
def pinSel (k : Nat) : Nat := if k < 8 then 0x58 + k else 0x60 + (k - 8)

/-- R215: an edge lost in the dead time. -/
def State.loseEdge (s : State) (k : Nat) : State :=
  let s := s.satInc (pinLOST k)
  if s.on (pinOVR k) then s else (s.put (pinOVR k) 1).raiseInst (pinOvrSource k) (pinNumber k)

/-- R206, R215: an edge accepted at instant `t` of the advance: the level follows, the input is dead, a TRIG_IN or IBUS input reports
the evaluation with its stamp. -/
def State.acceptEdge (s : State) (k : Nat) (active : Bool) (t stamp : Nat) : State :=
  let was := (s.pin k).level
  let s := s.updPin k (fun p => { p with level := active, dead := some (t + deadTime) })
  let s := (s.inc (pinEDGES k)).put (pinLEVEL k) (b2n active)
  if k < 12 then s.evaluated (pinSel k) was active stamp (s.qual 3) else s

/-- Whether an input reports edges. -/
def State.pinLive (s : State) (k : Nat) : Bool := s.on (pinEN k) && !s.on (pinSTUCK k)

/-- R215: the end of the dead time: a corrective edge where the true level differs from the last accepted one. The answer says whether
an edge was accepted, and with which level; the dead time of a corrective edge that is itself over by then has ended too. -/
def State.endDead (s : State) (k sub : Nat) : Option Bool × State :=
  match (s.pin k).dead with
  | some u =>
    if u ≤ s.advU sub then
      let s := s.updPin k (fun p => { p with dead := none })
      let p := s.pin k
      if s.pinLive k && p.pin != p.level then
        let s := s.acceptEdge k p.pin u (s.time + sub - (s.advU sub - u))
        (some p.pin, if u + deadTime ≤ s.advU sub then s.updPin k (fun p => { p with dead := none }) else s)
      else (none, s)
    else (none, s)
  | none => (none, s)

/-- The pin takes a level at an instant. -/
def State.setPin (s : State) (k : Nat) (active : Bool) (t : Nat) : State :=
  s.updPin k (fun p => { p with pin := active, since := if p.pin = active then p.since else t })

/-- R215: an edge at an input at `sub` after the present tick: whether it was accepted. A dead time that is over ends first. -/
def State.edgeAt (s : State) (k : Nat) (active : Bool) (sub : Nat) : Bool × State :=
  let s := (s.endDead k sub).2
  if (s.pin k).pin = active then (false, s)
  else
    let t := s.advU sub
    let s := s.setPin k active t
    if !s.pinLive k then (false, s)
    else if (s.pin k).dead.isSome then (false, s.loseEdge k)
    else (true, s.acceptEdge k active t (s.time + sub))

/-- TRIG_IN_EDGE (R215): the level at the ball of TRIG_IN i goes high or low. -/
def execTrigInEdge (i : Fin 8) (high : Bool) (sub : Fin 2621440) (s : State) : Out :=
  .next (s.edgeAt i.val (high != s.on (R.TRIGIN_CFG.POL i.val)) sub.val).2

/-- IBUS_EDGE (R215, R217): line b has held a level for GLITCH + 1 fabric cycles; it is asserted while low. -/
def execIbusEdge (b : Fin 4) (low : Bool) (sub : Fin 2621440) (s : State) : Out := .next (s.edgeAt (8 + b.val) low sub.val).2

/-- R216: a time of the stuck rule in 2^-16 ns: µs, 0 acts as 1, at most an hour. -/
def stuckTime (us : Nat) : Nat := nsUnits (1000 * min 3600000000 (max 1 us))

/-- R216: an input active for longer than STUCK_TIME is masked. -/
def State.maskStuck (s : State) (k : Nat) : State :=
  let p := s.pin k
  if s.pinLive k && s.on (pinSTUCKEN k) && p.pin && decide (p.since + stuckTime (s.get (pinTIME k)) < s.advU 0) then
    let s := ((s.put (pinSTUCK k) 1).put (pinSEEN k) 1).put (pinLEVEL k) 0
    (s.updPin k (fun p => { p with level := false, dead := none })).raiseInst (pinStuckSource k) (pinNumber k)
  else s

/-- STUCK_TIMEOUT (R216, R500): the stuck time of an input. -/
def execStuckTimeout (input : Fin 28) (s : State) : Out := .next (s.maskStuck input.val)

/-- R216: the mask is lifted; the condition follows the pin again, without an occurrence. -/
def State.liftMask (s : State) (k : Nat) : State :=
  let p := s.pin k
  ((s.put (pinSTUCK k) 0).put (pinLEVEL k) (b2n p.pin)).updPin k (fun p => { p with level := p.pin, dead := none })

/-- STUCK_REARM (R216, R500): a masked input whose pin has been inactive for STUCK_REARM. -/
def execStuckRearm (input : Fin 28) (s : State) : Out :=
  let k := input.val
  let p := s.pin k
  if s.on (pinSTUCK k) && !p.pin && decide (p.since + stuckTime (s.get (pinREARM k)) ≤ s.advU 0) then .next (s.liftMask k) else .next s

/-- R216: EN written: from 0 to 1 it lifts a mask and the condition follows the pin; with EN = 0 the condition reads 0. -/
def State.enablePin (s : State) (k : Nat) (was : Bool) : State :=
  let on := s.on (pinEN k)
  if on && !was then s.liftMask k
  else if !on && was then (s.put (pinLEVEL k) 0).updPin k (fun p => { p with level := false, dead := none })
  else s

/-- A write of TRIGIN_CFG or IBUS_CFG: a change of POL turns the sense of the pin. -/
def State.writePinCfg (s : State) (k key : Nat) (w : Word) : State :=
  let was := s.on (pinEN k)
  let pol := k < 8 && s.on (R.TRIGIN_CFG.POL k)
  let s := s.plainWrite key w
  let s := if (k < 8 && s.on (R.TRIGIN_CFG.POL k)) != pol then
      let s := s.updPin k (fun p => { p with pin := !p.pin, since := s.advU 0 })
      if s.pinLive k && was then s.acceptEdge k (s.pin k).pin (s.advU 0) s.time else s
    else s
  s.enablePin k was

/-- R215: clearing OVR_SEEN zeroes the count of lost edges. -/
def State.writePinStatus (s : State) (k key : Nat) (w : Word) : State :=
  let was := s.on (pinOVR k)
  let s := s.plainWrite key w
  if was && !s.on (pinOVR k) then s.put (pinLOST k) 0 else s

/-! ### Output pulses (R218, R219) -/

/-- R219: WIDTH of TRIG_OUTo in ns, below 2 acting as 2; R218: WIDTH of IBUS line b, 0 acting as 1. -/
def State.trigOutWidth (s : State) (o : Nat) : Nat := max 2 (s.get (R.TRIGOUT_CFG.WIDTH o))
def State.ibusWidth (s : State) (b : Nat) : Nat := 4 * max 1 (s.get (R.IBUS_CFG.WIDTH b))

/-- The time on the timekeeper at an instant of its advance. -/
def State.timeAtU (s : State) (u : Nat) : Nat := ((s.time : Int) + u - s.advU 0).toNat

/-- A pulse whose time is over at an instant ends. -/
def State.endPulse (s : State) (k u : Nat) : State :=
  if (s.pulse k).on && decide ((s.pulse k).endAt ≤ u) then s.updPulse k (fun _ => {}) else s

/-- R219: a request to drive TRIG_OUTo at an instant of the advance: the level follows POL; a request within the pulse extends it and is
counted as merged. -/
def State.driveTrigOut (s : State) (o u : Nat) : State :=
  let w := s.trigOutWidth o
  let s := s.endPulse o u
  let s := if (s.pulse o).on then s.satInc (R.TRIGOUT_STATUS.MERGED o) else s.inc (R.TRIGOUT_STATUS.PULSES o)
  let s := s.updPulse o (fun _ => ⟨true, u + nsUnits w⟩)
  if s.on (R.TRIGOUT_CFG.EN o) then s.send (.pinPulse 1 o (!s.on (R.TRIGOUT_CFG.POL o)) (s.timeAtU u) w) else s

/-- R218: a request to drive IBUS line b at an instant of the advance: the line is pulled low, or held low for longer. -/
def State.driveIbus (s : State) (b u : Nat) : State :=
  let w := s.ibusWidth b
  ((s.endPulse (4 + b) u).updPulse (4 + b) (fun _ => ⟨true, u + nsUnits w⟩)).send (.pinPulse 2 b false (s.timeAtU u) w)

/-- TRIG_OUT_PULSE_END (R219): the pulse of TRIG_OUTo ends WIDTH ns after its last request. -/
def execTrigOutPulseEnd (o : Fin 4) (s : State) : Out := .next (s.endPulse o.val (s.advU 0))

/-- IBUS_PULSE_END (R218): the line is released WIDTH × 4 ns after its last request. -/
def execIbusPulseEnd (b : Fin 4) (s : State) : Out := .next (s.endPulse (4 + b.val) (s.advU 0))

end Machine
end Sys2Proof
end

