-- ==== Sys2Proof/Machine/Tdc.lean ====
section
/-!
DEFINITION. The time-to-digital converter (chapter 17): edges, interval measurements, frequency gates, and the TDC_RESULT barges.
A stream is named by its Stream ID less 0x8500: 0–7 the pair channels, 8 the fan, 16 + i the frequency of input i.

Marked choices (log entries): DEDUCED 75. Each entry of notes/assumptions says safe or unsafe.
-/

namespace Sys2Proof
namespace Machine

/-! ### Times -/

/-- A time of 2^-16 ns in whole picoseconds, and a stamp with its fraction cut to whole picoseconds (R501). -/
def toPs (t : Nat) : Nat := t * 1000 / 65536
def psStamp (t : Nat) : Nat := toPs t * 65536 / 1000

/-- The TDC's own count at an instant (R502), in 2^-16 ns of the AON clock's nominal time. -/
def State.tdcCount (s : State) (sub : Nat) : Nat := nsUnits s.ns + sub

/-! ### Inputs and channels (R503) -/

/-- Whether input i is enabled for intervals, or for frequency. -/
def State.tdcInterval (s : State) (i : Nat) : Bool := s.on (R.TDC_IN_CFG.EN i) && !s.on (R.TDC_IN_CFG.ROLE i)
def State.tdcFreq (s : State) (i : Nat) : Bool := s.on (R.TDC_IN_CFG.EN i) && s.on (R.TDC_IN_CFG.ROLE i)
def State.tdcFan (s : State) : Bool := s.on R.TDC_CTL.FAN

/-- Whether an interval stream is active: pair channel c with both its inputs, the fan with its start input. -/
def State.tdcActive (s : State) (n : Nat) : Bool :=
  if n = 8 then s.tdcFan && s.tdcInterval 0 else !s.tdcFan && s.tdcInterval (2 * n) && s.tdcInterval (2 * n + 1)

/-- The channel whose registers serve an interval stream; its queue; its start input; the KIND and the most bytes of a record. -/
def tdcChannel (n : Nat) : Nat := if n = 8 then 0 else n
def State.tdcQueue? (s : State) (n : Nat) : Option Nat :=
  if n < 16 then
    if s.on (R.TDC_CH_Q.QEN (tdcChannel n)) then some (s.get (R.TDC_CH_Q.Q (tdcChannel n))) else none
  else if s.on (R.TDC_FQ_CFG.QEN (n - 16)) then some (s.get (R.TDC_FQ_CFG.Q (n - 16))) else none
def tdcInput (n : Nat) : Nat := if n = 8 then 0 else if n < 8 then 2 * n else n - 16
def tdcKind (n : Nat) : Nat := if n < 8 then 0 else if n = 8 then 1 else 2
def tdcMost (n : Nat) : Nat := if n < 8 then 24 else if n = 8 then 24 + 8 * 256 else 40

/-- R507: an accepted start, stop or frequency edge is an occurrence of its input's selector. -/
def State.tdcOccur (s : State) (i stamp : Nat) : State := s.eventOccur (0xA0 + i) stamp (s.qual 3)

/-! ### Records and barges (R510, R511) -/

/-- The bytes of a stream's records waiting for queue space. -/
def State.tdcWaiting (s : State) (n : Nat) : Nat :=
  (s.waitQ.filter (fun x => x.2.stream == 0x8500 + n)).foldl (fun a x => a + x.2.payload.length) 0

/-- R511: whether a stream's store has no room for another record: barges wait for their queue and the 64 KiB would be passed. -/
def State.tdcFull (s : State) (n : Nat) : Bool :=
  let w := s.tdcWaiting n
  let fill := (s.tdc n).fill.foldl (fun a x => a + x.2.2.2.length) 0
  w != 0 && decide (65536 < w + fill + tdcMost n)

/-- The barge being filled is closed and offered to the queue in force. -/
def State.tdcClose (s : State) (n : Nat) : State :=
  let x := s.tdc n
  match x.fill, x.queue with
  | (number, stamp, qual, _) :: _, some q =>
    let b : Barge :=
      { type := 5, stream := 0x8500 + n, source := 0x9000 + tdcInput n, seq := x.seq, stamp := stamp, qual := qual
        format := formatWord 0x30 15 false 0 0, word40 := tdcKind n + x.fill.length % 65536 * 65536, word48 := number
        payload := x.fill.flatMap (fun r => r.2.2.2) }
    (s.updTdc n (fun x => { x with fill := [], seq := (x.seq + 1) % 2 ^ 32 })).offer [(q, b)]
  | _, _ => s.updTdc n (fun x => { x with fill := [] })

/-- R512: the queue settings take hold at a start or gate: what has been written for another queue is closed first. -/
def State.tdcTakeQueue (s : State) (n : Nat) : State :=
  let q := s.tdcQueue? n
  if (s.tdc n).queue = q then s else (s.tdcClose n).updTdc n (fun x => { x with queue := q })

/-- A mark written to a stream behind the records so far. -/
def State.tdcMark (s : State) (n : Nat) (m : Barge) : State :=
  let s := s.tdcClose n
  match (s.tdc n).queue with
  | some q => (s.updTdc n (fun x => { x with seq := (x.seq + 1) % 2 ^ 32 })).offer [(q, { m with seq := (s.tdc n).seq })]
  | none => s

/-- The marks that waited for a record, which has now been written. -/
def State.tdcMarks (s : State) (n : Nat) : State :=
  (s.tdc n).held.foldl (fun s m => s.tdcMark n m) (s.updTdc n (fun x => { x with held := [] }))

/-- A record put into its stream's barge: number, stamp, QUAL, bytes; without QEN it is written nowhere. -/
def State.tdcRecord (s : State) (n number stamp qual : Nat) (bs : List Byte) : State :=
  if (s.tdc n).queue.isNone then s
  else
    let used := (s.tdc n).fill.foldl (fun a x => a + x.2.2.2.length) 0
    let s := if 65536 < used + bs.length then s.tdcClose n else s
    let s := s.updTdc n (fun x => { x with
      fill := x.fill ++ [(number, stamp, qual, bs)], since := if x.fill.isEmpty then s.adv else x.since })
    let s := if (s.tdc n).fill.foldl (fun a x => a + x.2.2.2.length) 0 = 65536 then s.tdcClose n else s
    s.tdcMarks n

/-- TDC_BARGE_CLOSE (R510): CLOSE_US after its first record a barge is closed. -/
def execTdcBargeClose (n : Fin 32) (s : State) : Out :=
  let x := s.tdc n.val
  if !x.fill.isEmpty && decide (x.since + 1000 * max 1 (s.get R.TDC_CTL.CLOSE_US) ≤ s.adv) then .next (s.tdcClose n.val) else .next s

/-- Whether a stream has a record under way whose stamp is taken: an open measurement, or a gate with an edge. -/
def Tdc.stamped (x : Tdc) : Bool := x.meas.isSome || x.gate.any (fun g => g.counted && !g.edges.isEmpty)

/-- R333, R502, R525: a time step put into every active TDC stream: what lies before it is on the old base, the record of a measurement or gate
that has its stamp included. -/
def State.tdcStep (s : State) (d : Int) : State :=
  (List.range 32).foldl (fun s n =>
    let live := if n < 16 then s.tdcActive n else s.tdcFreq (n - 16)
    if !live then s
    else
      let m := mkMark (0x8500 + n) (0x9000 + tdcInput n) mkTimeStep s.time (s.qual 3) (wrap 64 d) (s.tk.stepCount % 65536)
      if (s.tdc n).queue.isNone then s
      else if (s.tdc n).stamped then s.updTdc n (fun x => { x with held := x.held ++ [m] })
      else s.tdcMark n m) s

/-! ### Intervals (R504–R506) -/

/-- Table 17-3: FLAGS of a record. -/
def tdcFlags (nostop ovr aborted full byStart : Bool) : Nat :=
  b2n nostop + 2 * b2n ovr + 4 * b2n aborted + 8 * b2n full + 16 * b2n byStart

/-- The record of a closed measurement (Table 17-3). -/
def tdcMeasBytes (n : Nat) (m : TdcMeas) (aborted byStart : Bool) : List Byte :=
  let none_ := m.stops.isEmpty
  let flags := leBytes 2 (tdcFlags none_ m.ovr aborted m.full byStart)
  if n = 8 then
    leBytes 12 (toTime96 m.stamp) ++ flags ++ leBytes 2 m.stops.length ++ leBytes 8 0
      ++ m.stops.flatMap (fun x => leBytes 8 (x.1 % 2 ^ 48 + x.2.1 % 16 * 2 ^ 48 + b2n x.2.2 * 2 ^ 52))
  else
    leBytes 12 (toTime96 m.stamp) ++ flags ++ leBytes 2 0
      ++ leBytes 8 (match m.stops with
        | x :: _ => x.1
        | [] => 2 ^ 64 - 1)

/-- The open measurement of a stream is closed and recorded. -/
def State.tdcEndMeas (s : State) (n : Nat) (aborted byStart : Bool) : State :=
  match (s.tdc n).meas with
  | some m =>
    let s := (s.updTdc n (fun x => { x with meas := none })).inc (R.TDC_CH_STAT.MEAS (tdcChannel n))
    s.tdcRecord n m.number m.stamp m.qual (tdcMeasBytes n m aborted byStart)
  | none => s

/-- R511: a start, or a gate, refused because the store is full. -/
def State.tdcPressure (s : State) (n : Nat) : State :=
  let s := if n < 16 then s.satInc (R.TDC_CH_STAT.BUSY (tdcChannel n)) else s.satInc (R.TDC_FQ_STAT.SKIPPED (n - 16))
  if (s.tdc n).pressed then s else (s.updTdc n (fun x => { x with pressed := true })).raiseInst 353 n

/-- R505, R506: a measurement whose WIN_HI has passed at an instant of the advance is closed. -/
def State.tdcExpire (s : State) (n t : Nat) : State :=
  match (s.tdc n).meas with
  | some m => if m.hi < toPs t - toPs m.start then s.tdcEndMeas n false false else s
  | none => s

/-- R505, R506, R511: a start edge of an interval stream, at `t` of the advance. -/
def State.tdcStart (s : State) (n i t stamp : Nat) : State :=
  if s.unitsBarred then s else
  let c := tdcChannel n
  let s := s.tdcExpire n t
  if n ≠ 8 && (s.tdc n).meas.isSome then s.satInc (R.TDC_CH_STAT.BUSY c)
  else if s.tdcFull n then s.tdcPressure n
  else
    let s := if n = 8 then s.tdcEndMeas n false true else s
    let s := s.tdcTakeQueue n
    let m : TdcMeas :=
      { start := t, stamp := stamp, qual := s.qual 3, number := (s.tdc n).number
        lo := 1000 * s.get (R.TDC_CH_WLO.WIN_LO c), hi := 1000 * max 1 (s.get (R.TDC_CH_WHI.WIN_HI c)) }
    (s.updTdc n (fun x => { x with meas := some m, number := x.number + 1 })).tdcOccur i stamp

/-- R502, R504–R506, R518: a stop edge of an interval stream; the interval is in timekeeper time, steps excluded. -/
def State.tdcStop (s : State) (n i t stamp : Nat) (falling : Bool) : State :=
  let s := s.tdcExpire n t
  match (s.tdc n).meas with
  | some m =>
    let d := toPs t - toPs m.start
    if d = 0 ∨ d < m.lo ∨ m.hi < d then s
    else
      let s := s.tdcOccur i stamp
      if n = 8 ∧ 256 ≤ m.stops.length then s.updTdc n (fun x => { x with meas := some { m with full := true } })
      else
        let s := s.updTdc n (fun x => { x with meas := some { m with stops := m.stops ++ [(d, i, falling)] } })
        if n = 8 then s else s.tdcEndMeas n false false
  | none => s

/-- TDC_WINDOW_END (R505, R506, R510): WIN_HI after its start an open measurement of channel c is closed. -/
def execTdcWindowEnd (c : Fin 8) (s : State) : Out := .next (s.tdcExpire (if s.tdcFan ∧ c.val = 0 then 8 else c.val) (s.advU 0))

/-! ### Frequency gates (R508, R509) -/

/-- The largest n with n² ≤ x, found bit by bit below 2^b. -/
def isqrt (x : Nat) : Nat → Nat → Nat
  | 0, r => r
  | b + 1, r => if (r + 2 ^ b) * (r + 2 ^ b) ≤ x then isqrt x b (r + 2 ^ b) else isqrt x b r

/-- R508: log2 of m: the smallest power of two that makes ⌈E / m⌉ ≤ 65,536. -/
def tdcLog2m (e : Nat) : Nat := ((List.range 48).find? (fun k => decide (ceilDiv e (2 ^ k) ≤ 65536))).getD 47

/-- Every m-th entry of a list. -/
def everyNth {α : Type} (m : Nat) (l : List α) : List α := (l.zipIdx.filter (fun x => x.2 % m == 0)).map (fun x => x.1)

/-- R502, R508: the least-squares fit of stamps in ps: FREQ in 2^-24 Hz and the rms residual in fs, both cut to whole units, for an
edge count of 2^k per stamp and the INC in force. -/
def tdcFit (ts : List Nat) (k inc : Nat) : Nat × Nat :=
  let n : Int := ts.length
  let t0 := ts.headD 0
  let ys : List Int := ts.map (fun (t : Nat) => (t : Int) - t0)
  let sy := ys.foldl (· + ·) 0
  let sky := ys.zipIdx.foldl (fun (a : Int) x => a + x.1 * x.2) 0
  let syy := ys.foldl (fun a y => a + y * y) 0
  let num := 12 * sky - 6 * (n - 1) * sy
  let den := n * (n * n - 1)
  let freq := if num ≤ 0 then 0
    else (2 ^ k * 10 ^ 12 * 2 ^ 24 * den.toNat * 0xA0000000) / (num.toNat * max 1 inc)
  let sse12 := 12 * den * (n * syy - sy * sy) - n * num * num
  let rms2 := if sse12 ≤ 0 then 0 else sse12.toNat * 10 ^ 6 / (12 * den.toNat * (n * n).toNat)
  (freq, min (2 ^ 32 - 1) (isqrt rms2 40 0))

/-- The record of a gate (Table 17-3) and its stamp; a gate without an edge has no first used edge, and its stamp is an open value. -/
def State.tdcGateBytes (s : State) (i : Nat) (g : TdcGate) (aborted : Bool) : (Nat × Nat × List Byte) × State :=
  let e := g.edges.length
  let k := tdcLog2m e
  let used := everyNth (2 ^ k) g.edges
  let fit := if used.length < 16 then (0, 0)
    else tdcFit (used.map (fun x => toPs x.1)) (s.get (R.TDC_IN_CFG.PRESCALE i) + k) s.tk.inc
  let r := match used with
    | x :: _ => ((x.2.2.1, x.2.2.2), s)
    | [] => ((s.fresh.1 % timeLimit, s.qual 3), s.fresh.2)
  let rms := if used.length < 2 then (0, r.2) else if used.length < 16 then
      ((tdcFit (used.map (fun x => toPs x.1)) k s.tk.inc).2, r.2) else (fit.2, r.2)
  ((r.1.1, r.1.2, leBytes 12 (toTime96 r.1.1) ++ leBytes 2 (tdcFlags false g.ovr aborted false false) ++ leBytes 2 k
    ++ leBytes 8 fit.1 ++ leBytes 4 rms.1 ++ leBytes 4 used.length ++ leBytes 8 e), rms.2)

/-- A gate of input i begins at an instant of the advance, unless its record could not be stored (R509). -/
def State.tdcBegin (s : State) (i start : Nat) : State :=
  if s.unitsBarred then s else
  let n := 16 + i
  let len := nsUnits (1000 * max 1 (s.get (R.TDC_FQ_GATE.GATE_US i)))
  let s := s.tdcTakeQueue n
  if (s.tdcQueue? n).isSome && s.tdcFull n then
    (s.tdcPressure n).updTdc n (fun x => { x with gate := some { start := start, len := len, number := x.number, counted := false } })
  else s.updTdc n (fun x => { x with number := x.number + 1, gate := some { start := start, len := len, number := x.number } })

/-- GATE_END (R502, R508–R511): the gate of input i ends; its result is recorded and the next gate begins where it ended. -/
def execGateEnd (i : Fin 16) (s : State) : Out :=
  let i := i.val
  match (s.tdc (16 + i)).gate with
  | some g =>
    let stop := g.start + g.len
    if s.advU 0 < stop then .next s
    else
      let mine := g.edges.filter (fun x => x.2.1 < stop)
      let rest := g.edges.filter (fun x => stop ≤ x.2.1)
      let s := if !g.counted then s
        else
          let r := s.tdcGateBytes i { g with edges := mine } false
          (r.2.inc (R.TDC_FQ_STAT.GATES i)).tdcRecord (16 + i) g.number r.1.1 r.1.2.1 r.1.2.2
      let s := (s.updTdc (16 + i) (fun x => { x with gate := none })).tdcBegin i stop
      .next (s.updTdc (16 + i) (fun x => { x with gate := x.gate.map (fun h => { h with edges := rest }) }))
  | none => .next s

/-- R508: a time gate's firing starts the first gate of the inputs that wait for it; `t` is the firing time. -/
def State.tdcGateStart (s : State) (tg t : Nat) : State :=
  (List.range 16).foldl (fun s i =>
    if s.tdcFreq i && s.on (R.TDC_FQ_CFG.START_TG i) && s.get (R.TDC_FQ_CFG.TG i) == tg && (s.tdc (16 + i)).gate.isNone then
      s.tdcBegin i (s.advU 0 + t - s.time)
    else s) s

/-! ### Edges -/

/-- Whether EDGE takes an edge of this direction. -/
def State.tdcTakes (s : State) (i : Nat) (rising : Bool) : Bool :=
  match s.get (R.TDC_IN_CFG.EDGE i) with
  | 1 => !rising
  | 2 => true
  | _ => rising

/-- An accepted edge of input i put to what it serves. -/
def State.tdcTake (s : State) (i : Nat) (rising : Bool) (t count stamp : Nat) : State :=
  let stamp := psStamp stamp
  if s.tdcFreq i then
    let s := s.tdcOccur i stamp
    s.updTdc (16 + i) (fun x => { x with gate := x.gate.map (fun g =>
      if g.start ≤ t then { g with edges := g.edges ++ [(count, t, stamp, s.qual 3)] } else g) })
  else if s.tdcFan then
    if i = 0 then s.tdcStart 8 i t stamp else if s.tdcActive 8 then s.tdcStop 8 i t stamp (!rising) else s
  else if !s.tdcActive (i / 2) then s
  else if i % 2 = 0 then s.tdcStart (i / 2) i t stamp
  else s.tdcStop (i / 2) i t stamp (!rising)

/-- Table 17-3: an edge lost on an input of an open measurement or gate is noted in its record. -/
def State.tdcNoteLost (s : State) (i : Nat) : State :=
  if s.tdcFreq i then s.updTdc (16 + i) (fun x => { x with gate := x.gate.map (fun g => { g with ovr := true }) })
  else s.updTdc (if s.tdcFan then 8 else i / 2) (fun x => { x with meas := x.meas.map (fun m => { m with ovr := true }) })

/-- A corrective edge of a TDC input at the end of its dead time (R215, R500). -/
def State.tdcEndDead (s : State) (i sub : Nat) : State :=
  let u := ((s.pin (12 + i)).dead).getD 0
  let r := s.endDead (12 + i) sub
  match r.1 with
  | some level =>
    if s.tdcTakes i level then r.2.tdcTake i level u (s.tdcCount sub - (s.advU sub - u)) (s.time + sub - (s.advU sub - u)) else r.2
  | none => r.2

/-- R500: an edge of an input whose clock is prescaled: every 2^PRESCALE-th edge passes, and the dead time applies to those. -/
def State.tdcPrescaled (s : State) (i : Nat) (rising : Bool) (sub : Nat) : State :=
  let k := 12 + i
  let t := s.advU sub
  let s := (s.setPin k rising t).put (pinLEVEL k) (b2n (rising && s.pinLive k))
  if !s.pinLive k || !s.tdcTakes i rising then s
  else
    let n := (s.pin k).presc + 1
    if n < 2 ^ s.get (R.TDC_IN_CFG.PRESCALE i) then s.updPin k (fun p => { p with presc := n })
    else
      let s := s.updPin k (fun p => { p with presc := 0 })
      match (s.pin k).dead with
      | some u => if t < u then (s.loseEdge k).tdcNoteLost i
          else (((s.inc (pinEDGES k)).updPin k (fun p => { p with dead := some (t + deadTime), level := p.pin })).tdcTake i rising t
            (s.tdcCount sub) (s.time + sub))
      | none => ((s.inc (pinEDGES k)).updPin k (fun p => { p with dead := some (t + deadTime), level := p.pin })).tdcTake i rising t
          (s.tdcCount sub) (s.time + sub)

/-- TDC_EDGE (R215, R500–R507, R510, R511): an edge at TDC_INi, `sub` × 2^-16 ns after the present tick. -/
def execTdcEdge (i : Fin 16) (rising : Bool) (sub : Fin 2621440) (s : State) : Out :=
  let i := i.val
  let sub := sub.val
  if s.tdcFreq i ∧ 0 < s.get (R.TDC_IN_CFG.PRESCALE i) then .next (s.tdcPrescaled i rising sub)
  else
    let s := s.tdcEndDead i sub
    let lost := s.get (pinLOST (12 + i))
    let r := s.edgeAt (12 + i) rising sub
    if r.1 then .next (if s.tdcTakes i rising then r.2.tdcTake i rising (s.advU sub) (s.tdcCount sub) (s.time + sub) else r.2)
    else .next (if r.2.get (pinLOST (12 + i)) = lost then r.2 else r.2.tdcNoteLost i)

/-- DEAD_TIME_END (R215, R500): the dead time of an input ends within the present tick. -/
def execDeadTimeEnd (input : Fin 28) (sub : Fin 2621440) (s : State) : Out :=
  if input.val < 12 then .next (s.endDead input.val sub.val).2 else .next (s.tdcEndDead (input.val - 12) sub.val)

/-! ### Set-up (R503, R508, R512) -/

/-- The streams that an input serves. -/
def State.tdcStreams (s : State) (i : Nat) : List Nat :=
  if s.on (R.TDC_IN_CFG.ROLE i) then [16 + i] else [if s.tdcFan then 8 else i / 2]

/-- R512: what an input serves is closed with ABORTED. -/
def State.tdcAbort (s : State) (i : Nat) : State :=
  if s.on (R.TDC_IN_CFG.ROLE i) then
    match (s.tdc (16 + i)).gate with
    | some g =>
      let s := s.updTdc (16 + i) (fun x => { x with gate := none })
      if !g.counted then s
      else
        let r := s.tdcGateBytes i g true
        r.2.tdcRecord (16 + i) g.number r.1.1 r.1.2.1 r.1.2.2
    | none => s
  else s.tdcEndMeas (if s.tdcFan then 8 else i / 2) true false

/-- R508, R510: a stream enabled: numbers and SEQ start at 0. -/
def State.tdcEnable (s : State) (n : Nat) : State :=
  let s := (s.tdcClose n).updTdc n (fun x => { x with number := 0, seq := 0, pressed := false, meas := none, gate := none, held := [] })
  if n < 16 then s.put (R.TDC_CH_STAT.BUSY (tdcChannel n)) 0 else s

/-- R512: a write of TDC_IN_CFG(i). -/
def State.writeTdcIn (s : State) (i : Nat) (w : Word) : State :=
  let was := s.on (R.TDC_IN_CFG.EN i)
  let en := bit w.toNat 0
  if was then
    let new := (s.plainWrite (R.TDC_IN_CFG i) w).word (R.TDC_IN_CFG i) ||| 1#32
    let s := if new = s.word (R.TDC_IN_CFG i) then s else s.put (R.TDC_IN_STATUS.CFG_ERR i) 1
    if en then s else ((s.tdcAbort i).put (R.TDC_IN_CFG.EN i) 0).enablePin (12 + i) true
  else
    let s := s.plainWrite (R.TDC_IN_CFG i) w
    if !en then s
    else
      let s := (s.enablePin (12 + i) false).updPin (12 + i) (fun p => { p with presc := 0 })
      if s.on (R.TDC_IN_CFG.ROLE i) then
        let s := s.tdcEnable (16 + i)
        if s.on (R.TDC_FQ_CFG.START_TG i) then s else s.tdcBegin i (s.advU 0)
      else
        let n := if s.tdcFan then 8 else i / 2
        if s.tdcActive n && (n ≠ 8 || i = 0) then s.tdcEnable n else s

/-- TDC_IN_ENABLE (R508, R512): a write of TDC_IN_CFG(i) by a path. -/
def execTdcInEnable (p : Path) (i : Fin 16) (w : Word) (s : State) : Out :=
  .next (s.gate p (R.TDC_IN_CFG i.val) (fun s => s.retainWrite (R.TDC_IN_CFG i.val) w) (fun s => s.writeTdcIn i.val w))

/-- R503: a write of TDC_CTL; one that changes FAN is refused while an interval input is enabled. -/
def State.writeTdcCtl (s : State) (w : Word) : State :=
  if bit w.toNat 0 != s.tdcFan && (List.range 16).any (fun i => s.tdcInterval i) then s.put R.TDC_CTL.CFG_ERR 1
  else s.plainWrite R.TDC_CTL w

/-- TDC_FAN_WRITE (R503): a write of TDC_CTL by a path. -/
def execTdcFanWrite (p : Path) (w : Word) (s : State) : Out :=
  .next (s.gate p R.TDC_CTL (fun s => s.retainWrite R.TDC_CTL w) (fun s => s.writeTdcCtl w))

end Machine
end Sys2Proof
end

