-- ==== Sys2Proof/Machine/Flights.lean ====
section
/-!
DEFINITION. Lock flights (R221–R235): arming, chambers, firing, cancellation.

Marked choices (log entries): DEDUCED 78; DESIGN CHOICE 130. Each entry of notes/assumptions says safe or unsafe.
-/

namespace Sys2Proof
namespace Machine

/-! ### Arming (R205, R224, R229) -/

/-- The nanosecond of the advance at an instant `sub` after the present tick, and at a time of the timekeeper; the instant of the advance
of a time. -/
def State.advNs (s : State) (sub : Nat) : Nat := s.advU sub / 65536
def State.advAt (s : State) (t : Nat) : Nat := (s.advU 0 + t - s.time) / 65536
def State.advAtU (s : State) (t : Nat) : Nat := s.advU 0 + t - s.time

/-- R205: whether a flight's selectors can be armed: none reserved, no qualifier that is an event source. -/
def State.flightOk (s : State) (f : Nat) : Bool :=
  (List.range (s.get (R.FL_CFG.NCH_M1 f) + 1)).all (fun j =>
    selOk (s.get (R.FL_CH_SRC.SRC f j)) && selOk (s.get (R.FL_CH_SRC.QUAL f j)) && selLevel (s.get (R.FL_CH_SRC.QUAL f j)))

/-- R224, R227: an entry to ARMED from OFF, PENDING or HOLDOFF at an instant of the advance: chamber 0, and the auto timer starts. -/
def State.enterArmed (s : State) (f u : Nat) : State := (s.toChamber0 f u).updFlight f (fun x => { x with armedAt := u / 65536 })

/-- R229, R233, R234: what an ARM from OFF fixes and clears. -/
def State.prepareFlight (s : State) (f : Nat) : State :=
  (s.put (R.FL_COUNT.CAPT_DROPPED f) 0).updFlight f (fun x => { x with
    deps := s.flightDeps f, fires := 0, seq := 0, armRef := none, armAt := none, gate := none, cancelled := none })

/-- A refusal of a flight's ARM or of a write to it. -/
def State.flightErr (s : State) (f : Nat) : State := s.put (R.FL_STATUS.CFG_ERR f) 1

/-- R224: a write of ARM. -/
def State.armFlight (s : State) (f : Nat) : State :=
  if s.flState f ≠ 0 ∨ s.flightOk f = false then s.flightErr f else (s.prepareFlight f).enterArmed f (s.advU 0)

/-- FL_ARM (R205, R224, R229): a write of FL_CTL(f).ARM by a path. -/
def execFlArm (p : Path) (f : Fin 16) (s : State) : Out := .next (s.gateAction p (R.FL_CTL f.val) (fun s => s.armFlight f.val))

/-- Table 07-10's checks of FLIGHT_ARM. -/
def flightArmChecks (o : Order) : List (Nat × Bool) :=
  [chk 16 (16 ≤ o.u 16 1), chk 17 (3 ≤ o.u 17 1), chk 18 (o.u 17 1 = 2 ∧ 32 ≤ o.u 18 1), chk 19 (o.u 19 1 ≠ 0),
    chk 20 (o.u 17 1 = 1 ∧ badTime o 20)] ++ reserved o 32 32

/-- FLIGHT_ARM (R205, R224, R229, R238, R239): the order arms an OFF flight now, or makes it PENDING for a TIME or a time gate. -/
def State.flightArmAccept (o : Order) (s : State) : State :=
  s.validate o (flightArmChecks o) (fun s =>
    let f := o.u 16 1
    let t := ofTime96 (o.u 20 12)
    if s.flState f ≠ 0 then s.retire o stState
    else if s.flightOk f = false then (s.flightErr f).retire o stState
    else
      let s := s.prepareFlight f
      let pend := fun (s : State) (g : Flight → Flight) => (s.put (R.FL_STATUS.STATE f) 1).updFlight f g
      match o.u 17 1 with
      | 0 => (s.enterArmed f (s.advU 0)).retireWith o stOk 0 [(20, time96Bytes s.time)]
      | 1 =>
        if t < s.time then (s.enterArmed f (s.advU 0)).retireWith o stLate 0 [(20, time96Bytes s.time)]
        else pend s (fun x => { x with armRef := some o.ref, armAt := some t })
      | _ => pend s (fun x => { x with armRef := some o.ref, gate := some (o.u 18 1) }))

/-- The arm of that order. -/
def execFlightArm (s : State) : Out := .next (s.accept 0x0502 State.flightArmAccept)

/-- R224: a PENDING flight is armed at a time. -/
def State.armPending (s : State) (f t : Nat) : State :=
  let ref := (s.flight f).armRef
  let s := (s.enterArmed f (s.advAtU t)).updFlight f (fun x => { x with armRef := none, armAt := none, gate := none })
  match ref with
  | some r =>
    let late := match s.order? r with
      | some o => o.late
      | none => false
    s.retireRef r (if late then stLate else stOk) [(20, time96Bytes (if late then s.time else t))]
  | none => s

/-- ARM_TIME_REACHED (R224): the arm time of a PENDING flight has come within the present tick. -/
def execArmTimeReached (f : Fin 16) (s : State) : Out :=
  match (s.flight f.val).armAt with
  | some t => if s.flState f.val = 1 ∧ t < s.time + nsUnits 40 then .next (s.armPending f.val t) else .next s
  | none => .next s

/-- A time gate's firing arms the PENDING flights that wait for it. -/
def State.flightGate (s : State) (tg t : Nat) : State :=
  (List.range 16).foldl (fun s f => if s.flState f = 1 ∧ (s.flight f).gate = some tg then s.armPending f t else s) s

/-! ### Firing (R225, R232–R235) -/

/-- R234: UNIT of a capture in ns. -/
def captUnit (u : Nat) : Nat := match u with
  | 1 => 1000
  | 2 => 1000000
  | _ => 64

/-- R234, R235: why a fire's capture is dropped: 0 four held, 1 the pound does not record, 2 the queue is not ACTIVE. -/
def State.captDrop (s : State) (f : Nat) : Option Nat :=
  let p := s.get (R.FL_CAPT.PD f)
  if 4 ≤ (s.captures.filter (fun c => c.flight == some f)).length then some 0
  else if (s.poundState p ≠ 2 ∧ s.poundState p ≠ 3) ∨ s.on (R.POUND_CFG.KIND p) then some 1
  else if s.qstate (s.get (R.FL_CAPT.Q f)) ≠ qActive then some 2
  else none

/-- R234: the capture of a fire whose mark is `m`. -/
def State.startCapture (s : State) (f : Nat) (m : Barge) : State :=
  let u := nsUnits (captUnit (s.get (R.FL_CAPT.UNIT f)))
  let c : Capture :=
    { pound := s.get (R.FL_CAPT.PD f), flight := some f, queue := s.get (R.FL_CAPT.Q f)
      start := m.stamp - s.get (R.FL_CAPTLEN.PRE f) * u, stop := m.stamp + s.get (R.FL_CAPTLEN.POST f) * u, first := [m] }
  { s with captures := s.captures ++ [c] }

/-- R225: the actions of a fire at an instant of the advance after its marks, in order. -/
def State.flightActions (s : State) (f u stamp : Nat) (capt : Bool) (m : Barge) : State :=
  let act := (s.word (R.FL_ACT f)).toNat
  let s := (List.range 4).foldl (fun s o => if bit act o then s.driveTrigOut o u else s) s
  let s := (List.range 4).foldl (fun s b => if bit act (4 + b) then s.driveIbus b u else s) s
  let s := (List.range 8).foldl (fun s g => if bit act (8 + g) then s.release g 1 (some (fabCycle u)) else s) s
  let s := (List.range 16).foldl (fun s u => if bit act (16 + u) then s.cuStart u else s) s
  let s := if s.on (R.FL_CFG.REMOTE f) then s.sendRemote (s.get (R.FL_CFG.RT f)) stamp (s.timeAtU u) else s
  if capt then s.startCapture f m else s

/-- R225, R227: a fire at an instant of the advance, for an occurrence of `source` with a stamp and QUAL, or forced. -/
def State.fire (s : State) (f u stamp qual source : Nat) (forced : Bool) : State :=
  let climbing := s.flState f = 3
  let full := !forced || s.on (R.FL_CFG.AUTO_FULL f)
  let wants := full && s.on (R.FL_CAPT.EN f)
  let drop := if wants then s.captDrop f else none
  let s := s.updFlight f (fun x => { x with fires := (x.fires + 1) % 2 ^ 32, fired := u / 65536, kept := none, moved := some (fabCycle u) })
  let s := (s.inc (R.FL_COUNT.FIRES f)).put (R.FL_STATUS.FORCED f) (b2n forced)
  let s := match drop with
    | some r => (s.satInc (R.FL_COUNT.CAPT_DROPPED f)).raise 70 f (f + r * 256)
    | none => s
  let info := flightInfo f (s.get (R.FL_STATUS.CHAMBER f)) source drop.isSome 0 (s.flight f).fires
  let sub := if forced then mkForced else mkTrigger
  let m := { mkMark (0x8480 + f) (0x6000 + f) sub stamp qual 0 info with seq := (s.flight f).seq }
  let s := s.flightMark f sub stamp qual info
  let s := if full then s.flightActions f u stamp (wants && drop.isNone) m else s
  let s := ((s.put (R.FL_STATUS.STATE f) (if s.on (R.FL_CFG.REARM f) then 4 else 0)).put (R.FL_STATUS.LAST f) 1).put
    (R.FL_STATUS.PD_HOLD f) 0
  let s := s.eventOccur (0xE0 + f) stamp qual
  if climbing then s.releaseHeld else s

/-! ### Chambers (R221–R223) -/

/-- The queues of a flight's marks (R225). -/
def State.markQueues (s : State) (f : Nat) : List Nat :=
  [0, 1].flatMap (fun i => (if s.on (R.FL_MARKQ.EN_A f i) then [s.get (R.FL_MARKQ.Q_A f i)] else [])
    ++ (if s.on (R.FL_MARKQ.EN_B f i) then [s.get (R.FL_MARKQ.Q_B f i)] else []))

/-- R421: whether a mark for an ACTIVE queue would find the device-wide store full. -/
def State.storeFull (s : State) (q : Nat) : Bool :=
  s.qstate q == qActive && !s.dropNewest q && decide (1024 ≤ s.markStore.length)
    && (s.markStore.any (fun m => m.queue == q) || (s.markFits q).isNone)

/-- R421: whether a flight's marks find it full, each put to its queue after the one before. -/
def State.marksStall (s : State) (f : Nat) : Bool :=
  ((s.markQueues f).foldl (fun (r : Bool × State) q =>
    (r.1 || r.2.storeFull q, (r.2.admitBarge q (mkMark (0x8480 + f) (0x6000 + f) mkTrigger 0 0 0 0)).2)) (false, s)).1

/-- R229, R573: whether a flight that depends on a unit to be gated may not begin to climb: a mode request is being carried out, or is
due, since no dependent flight climbs any more. -/
def State.climbBarred (s : State) (f : Nat) : Bool :=
  (s.power.entering.isSome || (s.on R.GLOBAL_PWRSTAT.HELD && s.climbingDeps.isEmpty))
    && s.flState f == 2 && !(s.flight f).deps.isEmpty

/-- R222, R421: a completing occurrence is kept, to act at a later instant. -/
def State.keepOccurrence (s : State) (f u : Nat) (o : Occ) : State := s.updFlight f (fun x => { x with kept := some (u, o) })

/-- R221, R224, R421: the chamber in force completes with an occurrence at an instant of the advance: the next chamber is entered, or the
flight fires; where the mark store is full the occurrence is kept. -/
def State.chamberDone (s : State) (f u : Nat) (o : Occ) : State :=
  let j := s.get (R.FL_STATUS.CHAMBER f)
  if j < s.get (R.FL_CFG.NCH_M1 f) then
    if s.climbBarred f then s
    else ((s.put (R.FL_STATUS.STATE f) 3).put (R.FL_STATUS.CHAMBER f) (j + 1)).updFlight f (fun x => { x with
      counted := 0, entered := u / 65536, kept := none, moved := some (fabCycle u) })
  else if s.marksStall f then s.keepOccurrence f u o
  else s.fire f u o.stamp o.qual o.sel false

/-- Whether a flight climbs or is about to. -/
def State.flightLive (s : State) (f : Nat) : Bool := s.flState f == 2 || s.flState f == 3

/-- The occurrence that ADVANCE stands for, at a deadline (R223). -/
def State.deadlineOcc (s : State) (f u : Nat) : Occ :=
  { sel := s.get (R.FL_CH_SRC.SRC f (s.get (R.FL_STATUS.CHAMBER f))), stamp := s.timeAtU u, qual := s.qual 2 }

/-- R223: the effect of TOACT at the deadline, an instant of the advance. -/
def State.timeoutChamber (s : State) (f u : Nat) : State :=
  let climbing := s.flState f = 3
  match s.get (R.FL_CH_SRC.TOACT f (s.get (R.FL_STATUS.CHAMBER f))) with
  | 1 =>
    let s := ((s.put (R.FL_STATUS.STATE f) 0).put (R.FL_STATUS.LAST f) 4).put (R.FL_STATUS.PD_HOLD f) 0
    let s := (s.updFlight f (fun x => { x with kept := none, moved := some (fabCycle u) })).raiseInst 68 f
    if climbing then s.releaseHeld else s
  | 2 => s.chamberDone f u (s.deadlineOcc f u)
  | _ =>
    let s := s.toChamber0 f u
    if climbing then s.releaseHeld else s

/-! ### What comes due for a flight by itself (R223, R224, R226, R227) -/

/-- The four: a kept occurrence, the auto timeout, the chamber's timeout, the end of HOLDOFF; in the order of Table 07-3. -/
inductive FlightDue where
  | kept | auto | timeout | holdoff
deriving DecidableEq, Repr

/-- The instant of the advance at which each comes due: not in the cycle of the flight's last transition, since only one takes place per
cycle (R224). -/
def State.flightDueAt (s : State) (f : Nat) (k : FlightDue) : Option Nat :=
  let x := s.flight f
  let t := s.get (R.FL_CH_TMO.TIMEOUT f (s.get (R.FL_STATUS.CHAMBER f)))
  let due := match k with
    | .kept => x.kept.map (fun o => o.1)
    | .auto => if s.on (R.FL_CFG.AUTO_EN f) && s.flightLive f then some (nsUnits (x.armedAt + x.auto)) else none
    | .timeout => if s.flightLive f && t != 0 then some (nsUnits (x.entered + t)) else none
    | .holdoff => if s.flState f = 4 then some (nsUnits (x.fired + x.holdoff)) else none
  match due, x.moved with
  | some u, some c => some (if fabCycle u ≤ c then fabStart (c + 1) else u)
  | d, _ => d

/-- The first of them: the earliest cycle, and within a cycle the first row of Table 07-3. -/
def State.flightNext (s : State) (f : Nat) : Option (Nat × FlightDue) :=
  [FlightDue.kept, .auto, .timeout, .holdoff].foldl (fun b k =>
    match s.flightDueAt f k, b with
    | some u, none => some (u, k)
    | some u, some x => if fabCycle u < fabCycle x.1 then some (u, k) else b
    | none, _ => b) none

/-- One of them takes effect: a kept occurrence completes the chamber unless the store is still full at the later instant `lim`; a forced
fire is stamped with its deadline. -/
def State.flightDo (s : State) (f u lim : Nat) (k : FlightDue) : State :=
  match k with
  | .kept => match (s.flight f).kept with
    | some (_, o) => if s.marksStall f && s.get (R.FL_STATUS.CHAMBER f) == s.get (R.FL_CFG.NCH_M1 f) then s.keepOccurrence f lim o
      else s.chamberDone f u o
    | none => s
  | .auto => s.fire f u (s.timeAtU u) (s.qual 2) 0x1FF true
  | .timeout => s.timeoutChamber f u
  | .holdoff => s.enterArmed f u

/-- What comes due for a flight in the cycles before cycle `c` takes effect, in order, up to so many transitions. -/
def State.flightUpTo (s : State) (f c : Nat) : Nat → State
  | 0 => s
  | n + 1 => match s.flightNext f with
    | some (u, k) => if fabCycle u < c then (s.flightDo f u (fabStart c) k).flightUpTo f c n else s
    | none => s

/-- The transitions served by one command: more than a tick has cycles. -/
def flightFuel : Nat := 128

/-- One kind of a flight's own events that has come due by the present tick takes effect, after those of earlier cycles. -/
def State.flightTimer (s : State) (f : Nat) (k : FlightDue) : State :=
  match s.flightDueAt f k with
  | some u => if u ≤ s.advU 0 then s.flightUpTo f (fabCycle u + 1) flightFuel else s
  | none => s

/-- CHAMBER_TIMEOUT (R223): the chamber in force has not completed TIMEOUT ns after entry. -/
def execChamberTimeout (f : Fin 16) (s : State) : Out := .next (s.flightTimer f.val .timeout)

/-- HOLDOFF_END (R224, R226): HOLDOFF ns after its fire a flight is ARMED again. -/
def execHoldoffEnd (f : Fin 16) (s : State) : Out := .next (s.flightTimer f.val .holdoff)

/-- AUTO_TIMEOUT (R224, R225, R227, R232, R233): a flight in auto mode that has not fired within AUTO_TIMEOUT of its entry to ARMED
fires with FORCED marks. -/
def execAutoTimeout (f : Fin 16) (s : State) : Out := .next (s.flightTimer f.val .auto)

/-! ### Occurrences (R206, R221, R222) -/

/-- R221: whether the input that supplies a selector is masked. -/
def State.selMasked (s : State) (sel : Nat) : Bool :=
  if 0x58 ≤ sel ∧ sel < 0x64 then s.on (pinSTUCK (sel - 0x58))
  else if 0xA0 ≤ sel ∧ sel < 0xB0 then s.on (pinSTUCK (sel - 0xA0 + 12)) else false

/-- R206, R221: whether the chamber in force of a flight counts an occurrence that arrives at an instant of the advance. -/
def State.counts (s : State) (f u : Nat) (o : Occ) : Bool :=
  let j := s.get (R.FL_STATUS.CHAMBER f)
  let e := u / 65536 - (s.flight f).entered
  let kind := !selLevel o.sel || (match s.get (R.FL_CH_SRC.EDGE f j) with
    | 1 => o.fall
    | 2 => o.high
    | _ => o.rise)
  let hi := s.get (R.FL_CH_WHI.WIN_HI f j)
  s.get (R.FL_CH_SRC.SRC f j) == o.sel && kind
    && decide (s.get (R.FL_CH_WLO.WIN_LO f j) ≤ e) && (hi == 0xFFFFFFFF || decide (e ≤ hi))
    && (!s.on (R.FL_CH_SRC.QEN f j) || s.condition (s.get (R.FL_CH_SRC.QUAL f j)) == s.on (R.FL_CH_SRC.QPOL f j))
    && !s.selMasked o.sel

/-- Whether one more counted occurrence completes the chamber in force. -/
def State.lastCount (s : State) (f : Nat) : Bool :=
  decide (s.get (R.FL_CH_COUNT.COUNT_M1 f (s.get (R.FL_STATUS.CHAMBER f))) ≤ (s.flight f).counted)

/-- R221, R222, R224: an occurrence reaches a flight that climbs, or is about to. One that completes a chamber in the cycle of the
flight's last transition is kept for the next cycle. -/
def State.count (s : State) (f u : Nat) (o : Occ) : State :=
  if (s.flight f).kept.isSome || !s.counts f u o then s
  else if !s.lastCount f then s.updFlight f (fun x => { x with counted := x.counted + 1 })
  else if (s.flight f).moved = some (fabCycle u) then s.keepOccurrence f (fabStart (fabCycle u + 1)) o
  else s.chamberDone f u o

/-- R221, R222, R228: an occurrence reaches one flight; what came due for the flight in earlier cycles has its effect first. For a flight
cancelled in this very cycle it matters only that the last chamber would have completed: LAST is CANCELLED (Table 07-3). -/
def State.arrive (s : State) (o : Occ) (u f : Nat) : State :=
  let s := s.flightUpTo f (fabCycle u) flightFuel
  if s.flightLive f then s.count f u o
  else if s.flState f = 0 ∧ (s.flight f).cancelled = some (fabCycle u) ∧ s.get (R.FL_STATUS.CHAMBER f) = s.get (R.FL_CFG.NCH_M1 f)
      ∧ s.counts f u o = true ∧ s.lastCount f = true then s.put (R.FL_STATUS.LAST f) 2
  else s

/-- OCCURRENCE (R221, R224–R226): the next occurrence of a selector on its way to the flights arrives, `sub` × 2^-16 ns after the
present tick; ALWAYS is evaluated when the command says so. -/
def execOccurrence (sel : Fin 512) (sub : Fin 2621440) (s : State) : Out :=
  let u := s.advU sub.val
  if sel.val = 0xF1 then
    let o : Occ := { sel := 0xF1, rise := false, fall := false, high := true, stamp := s.time + sub.val, qual := s.qual 2 }
    .next ((List.range 16).foldl (fun s f => s.arrive o u f) s)
  else match takeFirst (fun o => o.sel == sel.val) s.occs with
    | some (o, rest) => .next ((List.range 16).foldl (fun s f => s.arrive o u f) { s with occs := rest })
    | none => .next s

/-! ### Cancellation (R224, R228) -/

/-- Table 07-3, first row: whether what comes due for a flight in a cycle completes its last chamber. -/
def State.lastDue (s : State) (f c : Nat) : Bool :=
  s.get (R.FL_STATUS.CHAMBER f) == s.get (R.FL_CFG.NCH_M1 f) && (match s.flightNext f with
    | some (u, .kept) => decide (fabCycle u ≤ c)
    | some (u, .timeout) => decide (fabCycle u ≤ c) && s.get (R.FL_CH_SRC.TOACT f (s.get (R.FL_STATUS.CHAMBER f))) == 2
    | _ => false)

/-- R228, Table 07-3: a flight cancelled at an instant of the advance, after what came due for it in earlier cycles. -/
def State.cancelAt (s : State) (f u : Nat) : State :=
  let s := s.flightUpTo f (fabCycle u) flightFuel
  let st := s.flState f
  if st = 0 then s
  else
    let last := if st = 3 && !s.lastDue f (fabCycle u) then 3 else 2
    let s := ((s.put (R.FL_STATUS.STATE f) 0).put (R.FL_STATUS.LAST f) last).put (R.FL_STATUS.PD_HOLD f) 0
    let ref := (s.flight f).armRef
    let s := s.updFlight f (fun x => { x with
      armRef := none, armAt := none, gate := none, kept := none
      cancelled := if st = 2 ∨ st = 3 then some (fabCycle u) else none })
    let s := match ref with
      | some r => s.retireRef r stCancelled []
      | none => s
    if st = 3 then s.releaseHeld else s

/-- A flight cancelled now. -/
def State.cancelFlight (s : State) (f : Nat) : State := s.cancelAt f (s.advU 0)

/-- FL_CANCEL (R63, R224, R228): a write of FL_CTL(f).CANCEL by a path. -/
def execFlCancel (p : Path) (f : Fin 16) (s : State) : Out := .next (s.gateAction p (R.FL_CTL f.val) (fun s => s.cancelFlight f.val))

/-- A write of FL_CTL(f): CANCEL stands before ARM (Table 07-3). -/
def State.writeFlCtl (s : State) (f : Nat) (w : Word) : State :=
  if bit w.toNat 1 && s.flState f != 0 then s.cancelFlight f else if bit w.toNat 0 then s.armFlight f else s

/-- R231: a write of a flight's set-up registers, dropped while it is not OFF; FL_HOLDOFF and FL_AUTO are always written and take hold at
the next entry to ARMED. -/
def State.writeFlight (s : State) (f key : Nat) (w : Word) : State :=
  if s.flState f = 0 ∨ key = R.FL_HOLDOFF f ∨ key = R.FL_AUTO f then s.plainWrite key w else s.flightErr f

end Machine
end Sys2Proof
end

