-- ==== Sys2Proof/Machine/Probe.lean ====
section
/-!
DEFINITION. The probe fabric and the speed bridge (chapter 16): lanes and groups, virtual channels, net sets, bridge ports, stimulus
egress.

Marked choices (log entries): DEDUCED 76, 142, 148, 152; DESIGN CHOICE 77. Each entry of notes/assumptions says safe or
unsafe.
-/

namespace Sys2Proof
namespace Machine

/-! ### Access -/

/-- The internals of a lane, a group, a set and a bridge port, read and changed. -/
def State.pLane (s : State) (n : Nat) : ProbeLane := (SMap.find? s.probe.lanes n).getD {}
def State.updPLane (s : State) (n : Nat) (f : ProbeLane → ProbeLane) : State :=
  { s with probe := { s.probe with lanes := SMap.put s.probe.lanes n (f (s.pLane n)) } }
def State.pGroup (s : State) (g : Nat) : ProbeGroup := (SMap.find? s.probe.groups g).getD {}
def State.updPGroup (s : State) (g : Nat) (f : ProbeGroup → ProbeGroup) : State :=
  { s with probe := { s.probe with groups := SMap.put s.probe.groups g (f (s.pGroup g)) } }
def State.pSet (s : State) (k : Nat) : ProbeSet := (SMap.find? s.probe.sets k).getD {}
def State.updPSet (s : State) (k : Nat) (f : ProbeSet → ProbeSet) : State :=
  { s with probe := { s.probe with sets := SMap.put s.probe.sets k (f (s.pSet k)) } }
def State.bp (s : State) (b : Nat) : Bp := (SMap.find? s.probe.ports b).getD {}
def State.updBp (s : State) (b : Nat) (f : Bp → Bp) : State :=
  { s with probe := { s.probe with ports := SMap.put s.probe.ports b (f (s.bp b)) } }

/-- PROBE_LANE(n).STATE: 0 DOWN, 1 TRAINING, 2 ALIGN, 3 HELLO, 4 UP, 5 FAILED. -/
def State.pState (s : State) (n : Nat) : Nat := s.get (R.PROBE_LANE.STATE n)

/-- R479: the lanes of a group, and whether a lane is a group's base. -/
def State.groupLanes (s : State) (g : Nat) : List Nat := (List.range 16).filter (fun l => s.probeGroupOf l == g)
def State.isBase (s : State) (g : Nat) : Bool := s.probeGroupOf g == g

/-! ### Frames sent (R480, R482) -/

/-- Table 16-3: a frame's bytes with its CRC. -/
def probeBytes (type aux chan gseq word stamp : Nat) (payload : List Byte) : List Byte :=
  let h := leBytes 1 type ++ leBytes 1 aux ++ leBytes 1 chan ++ [0#8] ++ leBytes 2 payload.length ++ leBytes 2 gseq ++ leBytes 8 word
    ++ leBytes 12 stamp ++ leBytes 4 0 ++ payload
  h ++ leBytes 4 (crc32c h).toNat

/-- R480: the UP lane whose turn it is. -/
def State.turnLane? (s : State) (g : Nat) : Option Nat :=
  let up := (s.groupLanes g).filter (fun l => s.pState l == 4)
  match up.find? (fun l => decide ((s.pGroup g).lastLane < l)) with
  | some l => some l
  | none => up.head?

/-- A frame sent by a group on a lane; its STAMP as a time in 2^-16 ns. -/
def State.sendOn (s : State) (g lane type aux chan word stamp : Nat) (payload : List Byte) : State :=
  let n := (s.pGroup g).tx
  (s.updPGroup g (fun x => { x with tx := (n + 1) % 65536 })).send
    (.frame 0 lane (probeBytes type aux chan n word (toTime96 stamp) payload))

/-- A frame sent by a group on the lane whose turn it is; nothing while no lane is UP. -/
def State.sendProbe (s : State) (g type aux chan word stamp : Nat) (payload : List Byte) : State :=
  match s.turnLane? g with
  | some l => (s.updPGroup g (fun x => { x with lastLane := l })).sendOn g l type aux chan word stamp payload
  | none => s

/-! ### Lanes (R479, R481, R495) -/

/-- R479: a write of PROBE_GROUPS. -/
def State.writeGroups (s : State) (w : Word) : State :=
  let old := s.get R.PROBE_GROUPS.QW
  let new := bits w.toNat 0 8
  let changed := fun (q : Nat) => bits old (2 * q) 2 != bits new (2 * q) 2
  let busy := (List.range 16).any (fun l => changed (l / 4) && s.on (R.PROBE_LANE.EN l))
  let half := [0, 2].any (fun q => (bits new (2 * q) 2 == 3) != (bits new (2 * q + 2) 2 == 3))
  if busy || half then s.put R.PROBE_CTL.CFG_ERR 1 else s.put R.PROBE_GROUPS.QW new

/-- PROBE_GROUPS_WRITE (R479): a write of PROBE_GROUPS by a path. -/
def execProbeGroupsWrite (p : Path) (w : Word) (s : State) : Out :=
  .next (s.gate p R.PROBE_GROUPS (fun s => s.retainWrite R.PROBE_GROUPS w) (fun s => s.writeGroups w))

/-- R481: a lane begins to train. -/
def State.trainLane (s : State) (n : Nat) : State :=
  (s.put (R.PROBE_LANE.STATE n) 1).updPLane n (fun x => { x with trainSince := s.ns, crcs := [] })

/-- R495: nothing arrives on a group of which no lane is UP: the frames that wait for an earlier one are lost, and its virtual channels are
not active. -/
def State.groupSilent (s : State) (g : Nat) : State :=
  let s := s.updPGroup g (fun x => { x with window := [], next := none })
  (List.range 8).foldl (fun (s : State) v =>
    if s.on (R.VC_CFG.EN v) && s.get (R.VC_CFG.GROUP v) == g then s.put (R.VC_STAT.ACTIVE v) 0 else s) s

/-- R471, R495: a lane has left UP; with the last lane of its group the generators on the group abort. -/
def State.laneLeft (s : State) (n : Nat) : State :=
  let g := s.probeGroupOf n
  let s := s.updPLane n (fun x => { x with beacons := [], beaconAt := none })
  if s.groupUp g then s
  else
    let s := (s.raiseInst 326 g).groupSilent g
    [4, 5, 6, 7].foldl (fun s k =>
      if s.on (R.EG_CFG.EN (k - 4)) && s.get (R.EG_CFG.GROUP (k - 4)) == g then s.sgAbort k 5 else s) s

/-- R481: a write of PROBE_LANE(n).EN. -/
def State.writeLaneEn (s : State) (n : Nat) (en : Bool) : State :=
  let was := s.on (R.PROBE_LANE.EN n)
  let up := s.pState n == 4
  let s := s.put (R.PROBE_LANE.EN n) (b2n en)
  if en && !was then s.trainLane n
  else if !en then
    let s := s.put (R.PROBE_LANE.STATE n) 0
    if up then s.laneLeft n else s
  else s

/-- PROBE_LANE_ENABLE (R481): a write of PROBE_LANE(n).EN by a path. -/
def execProbeLaneEnable (p : Path) (n : Fin 16) (en : Bool) (s : State) : Out :=
  .next (s.gateField p (R.PROBE_LANE.EN n.val) (b2n en) (fun s => s.writeLaneEn n.val en))

/-- PROBE_TRAINING_TIMEOUT (R481): 20 ms of training without success: the lane tries again. -/
def execProbeTrainingTimeout (n : Fin 16) (s : State) : Out :=
  let n := n.val
  if s.pState n = 1 ∧ (s.pLane n).trainSince + 20000000 ≤ s.ns then .next ((s.trainLane n).satInc (R.PROBE_LANE.RETRAINS n)) else .next s

/-- PROBE_ADAPTATION_DONE (R481): the lane has a signal and its receiver has adapted within 20 ms. -/
def execProbeAdaptationDone (n : Fin 16) (s : State) : Out :=
  let n := n.val
  if s.lkUp 3 ∧ s.pState n = 1 ∧ s.ns ≤ (s.pLane n).trainSince + 20000000 then .next (s.put (R.PROBE_LANE.STATE n) 2) else .next s

/-- The lane's group width, in lanes. -/
def State.groupWidth (s : State) (n : Nat) : Nat := (s.groupLanes (s.probeGroupOf n)).length

/-- A HELLO frame sent on a lane (R481, Table 16-4). -/
def State.sendHello (s : State) (n : Nat) : State :=
  (s.sendOn (s.probeGroupOf n) n 0x01 0 0 (1 + s.groupWidth n * 65536) 0 []).updPLane n (fun x => { x with beaconAt := some s.adv })

/-- PROBE_LANE_ALIGNED (R481): 64 consecutive valid sync headers; the lane sends HELLO. -/
def execProbeLaneAligned (n : Fin 16) (s : State) : Out :=
  let n := n.val
  if s.lkUp 3 ∧ s.pState n = 2 then .next ((s.put (R.PROBE_LANE.STATE n) 3).sendHello n) else .next s

/-- PROBE_HELLO (R481): the partner's HELLO, with its protocol version, group width and clock period. -/
def execProbeHello (n : Fin 16) (version : Fin 65536) (width : Fin 16) (pclk : Word) (s : State) : Out :=
  let n := n.val
  if s.pState n ≠ 3 ∨ !s.lkUp 3 then .next s
  else if version.val = 1 ∧ width.val = s.groupWidth n % 16 then
    .next (((s.put (R.PROBE_LANE.STATE n) 4).put (R.PROBE_PEER.PCLK_PS n) pclk.toNat).updPLane n (fun x => { x with crcs := [], beaconAt := none }))
  else .next ((s.put (R.PROBE_LANE.STATE n) 5).raiseInst 320 n)

/-- PROBE_SYNC_LOSS (R471, R481, R495): 16 of the last 64 sync headers of an UP lane were invalid (`headers`), or more than ERR_LIMIT
frames failed their CRC within 1 s. -/
def execProbeSyncLoss (n : Fin 16) (headers : Bool) (s : State) : Out :=
  let n := n.val
  let lim := s.get R.PROBE_CTL.ERR_LIMIT
  let many := lim ≠ 0 ∧ lim < ((s.pLane n).crcs.filter (fun t => decide (s.adv < t + 1000000000))).length
  if s.pState n ≠ 4 then .next s
  else if headers then .next (((s.put (R.PROBE_LANE.STATE n) 2).raiseInst 321 n).laneLeft n)
  else if many then .next ((((s.trainLane n).satInc (R.PROBE_LANE.RETRAINS n)).raiseInst 321 n).laneLeft n)
  else .next s

/-- A frame lost or dropped on a lane. -/
def State.lostFrame (s : State) (n : Nat) : State := s.satInc (R.PROBE_LANE_ERR.LOSTF n)

/-- PROBE_FRAME_DROPPED (R482, R483): a frame whose CRC fails, or one of another type or too long. -/
def execProbeFrameDropped (n : Fin 16) (crc : Bool) (s : State) : Out :=
  let n := n.val
  if crc then
    .next (((s.satInc (R.PROBE_LANE_ERR.CRCERR n)).put (R.PROBE_LANE.CRC_SEEN n) 1).updPLane n (fun x => { x with
      crcs := s.adv :: x.crcs.filter (fun t => decide (s.adv < t + 1000000000)) }))
  else .next (s.lostFrame n)

/-! ### Time (R484) -/

/-- R493, R494: whether a STIM frame of a group waits to be sent, which goes before every other frame. -/
def State.stimDue (s : State) (g : Nat) : Bool :=
  (List.range 4).any (fun k => s.on (R.EG_CFG.EN k) && s.get (R.EG_CFG.GROUP k) == g && (match (s.sg (k + 4)).out with
    | e :: _ => decide (s.sgBall (k + 4) e.1 < s.time + nsUnits 40)
    | [] => false))

/-- PROBE_BEACON (R481, R484, R494): every 1 µs a BEACON leaves on each UP lane, after the STIM frames that wait; a lane in HELLO sends its HELLO
at the same pace. -/
def execProbeBeacon (n : Fin 16) (s : State) : Out :=
  let n := n.val
  let x := s.pLane n
  let g := s.probeGroupOf n
  let due := match x.beaconAt with
    | some t => decide (t + 1000 ≤ s.adv)
    | none => true
  if s.pState n = 3 ∧ due = true then .next (s.sendHello n)
  else if s.pState n = 4 ∧ due = true ∧ s.stimDue g = false then
    let q := (s.pGroup g).tx
    let s := s.sendOn g n 0x02 0 0 x.delay s.time []
    .next (s.updPLane n (fun x => { x with beaconAt := some s.adv, beacons := (x.beacons ++ [(q, s.advU 0)]).drop (x.beacons.length - 63) }))
  else .next s

/-! ### Virtual channels (R485–R487) -/

/-- The enabled virtual channel of a group and core channel. -/
def State.vcOf? (s : State) (g chan : Nat) : Option Nat :=
  (List.range 8).find? (fun v => s.on (R.VC_CFG.EN v) && s.get (R.VC_CFG.GROUP v) == g && s.get (R.VC_CFG.CHAN v) == chan)

/-- Samples of a payload in a format. -/
def decodeSamples (fmt : Nat) (bs : List Byte) : List (Int × Int) :=
  if fmt = 0x04 then (pieces 5 bs).map (fun b => (sext 20 (leNat b), sext 20 (leNat b / 2 ^ 20)))
  else (pieces 4 bs).map (fun b => (sext 16 (leNat b) * 16, sext 16 (leNat b / 65536) * 16))

/-- R333: the steps that a stamp shows, of those a stream has not shown yet: a step has been made when the stamp lies nearer to the
prediction moved by it. The answer is the steps shown, the others, and the prediction on the stamp's base. -/
def stepsShown (stamp : Nat) : Int → List (Int × Nat) → List (Int × Nat) × List (Int × Nat) × Int
  | p, [] => ([], [], p)
  | p, (d, k) :: t =>
    if ((stamp : Int) - (p + d)).natAbs ≤ ((stamp : Int) - p).natAbs then
      let r := stepsShown stamp (p + d) t
      ((d, k) :: r.1, r.2.1, r.2.2)
    else ([], (d, k) :: t, p)

/-- R333: a time step shows with sample `num` of a virtual channel: its mark goes before that sample in every stream that the channel
feeds. -/
def State.vcStep (s : State) (src num : Nat) (m : Barge) : State :=
  let s := (s.poundsOf src).foldl (fun s p => s.poundStep p m) s
  (s.plansRunning src).foldl (fun s p => s.updPlan p (fun pl => { pl with stepMarks := pl.stepMarks ++ [(num, m)] })) s

/-- DESIGN CHOICE (log 115): a channel enabled again that counts from a lower number: the frame grid of each plan that runs on it starts
again at that number. -/
def State.vcRestart (s : State) (src num : Nat) : State :=
  (s.plansRunning src).foldl (fun s p => s.updPlan p (fun pl => { pl with frame0 := (num : Int) - (pl.fillNext * pl.hop : Nat) })) s

/-- R23, R28, R129, R486, R487, R521: a VCS frame taken in order. A channel that was disabled under a plan or pound resumes with the GAP
of R486. -/
def State.takeVcs (s : State) (n : Nat) (f : ProbeFrame) : State :=
  let g := s.probeGroupOf n
  match s.vcOf? g f.chan.val with
  | none => s
  | some v =>
    let src := vcId v
    let o := s.source src
    let num := f.word.toNat
    if !time96Ok f.stamp.toNat || (o.active && decide (num < o.next)) then
      let s := s.lostFrame n
      if time96Ok f.stamp.toNat then s.raiseInst 322 n else s
    else
      let stamp := ofTime96 f.stamp.toNat
      let xs := decodeSamples (if s.on (R.VC_CFG.FMT v) then 0x04 else 0x03) f.payload
      let per := 1000000 * 65536 / max 1 (s.get (R.VC_RATE.RATE_KS v))
      let first := s.sampleStamp src o.next
      let sh := stepsShown stamp (s.sampleStamp src num : Int) (s.vc v).steps
      let moved : Int := sh.1.foldl (fun (a : Int) x => a + x.1) 0
      let s := if o.next = 0 then s
        else
          let s := sh.1.foldl (fun s x => s.vcStep src num (mkMark 0 0 mkTimeStep stamp (s.qual 1) (wrap 64 x.1) (x.2 % 65536))) s
          if num = o.next then s
          else
            let from_ := ((first : Int) + moved).toNat
            let s := (s.poundsOf src).foldl (fun s p => s.closeFill p) s
            (s.markSource src (mkGapMark 0 0 from_ (s.qual 1) 0x11 g (num - o.next) (some (stamp - from_)))).inc (R.VC_STAT.GAPS v)
      let s := if o.active ∧ per < ((stamp : Int) - sh.2.2).natAbs then (s.put (R.VC_STAT.SLIP_SEEN v) 1).raiseInst 323 v else s
      let s := if num < o.next then s.vcRestart src num else s
      let s := s.updVc v (fun x => { anchors := (num, stamp) :: (if num < o.next then [] else x.anchors), steps := sh.2.1 })
      let s := s.put (R.VC_STAT.ACTIVE v) 1
      xs.zipIdx.foldl (fun s x =>
        s.releaseSample src (num + x.2) x.1 (s.sampleStamp src (num + x.2)) (s.sampleStamp src (num + x.2 + 1))) s

/-- R485: whether a rate and sample size exceed 95 % of a group's capacity, 3.05 GB/s a lane. -/
def State.overCapacity (s : State) (g rate size : Nat) : Bool :=
  decide (95 * (s.groupLanes g).length * 3050000000 < 100 * (rate * 1000 * size))

/-- R485: a write of VC_CFG(v). While EN = 1 a change of another field is refused and EN alone takes effect; a refused enable leaves the
other fields written. -/
def State.writeVcCfg (s : State) (v : Nat) (w : Word) : State :=
  let new := (s.plainWrite (R.VC_CFG v) w).word (R.VC_CFG v)
  let en := bit w.toNat 0
  if s.on (R.VC_CFG.EN v) then
    let s := if new ||| 1#32 ≠ s.word (R.VC_CFG v) then s.put (R.VC_STAT.CFG_ERR v) 1 else s
    if en then s
    else
      let s := (s.put (R.VC_CFG.EN v) 0).put (R.VC_STAT.ACTIVE v) 0
      let s := (s.poundsOf (vcId v)).foldl (fun s p => s.closeFill p) s
      (s.updSource (vcId v) (fun o => { o with active := false })).updVc v (fun x => { x with steps := [] })
  else if en then
    let g := bits w.toNat 2 4
    let rate := s.get (R.VC_RATE.RATE_KS v)
    let taken := (List.range 8).any (fun k => s.on (R.VC_CFG.EN k) && s.get (R.VC_CFG.GROUP k) == g && s.get (R.VC_CFG.CHAN k) == bits w.toNat 8 8)
    if !s.isBase g || taken || rate == 0 || s.overCapacity g rate (if bit w.toNat 1 then 5 else 4) then
      ((s.plainWrite (R.VC_CFG v) w).put (R.VC_CFG.EN v) 0).put (R.VC_STAT.CFG_ERR v) 1
    else s.plainWrite (R.VC_CFG v) w
  else s.plainWrite (R.VC_CFG v) w

/-- VC_ENABLE (R485): a write of VC_CFG(v) by a path. -/
def execVcEnable (p : Path) (v : Fin 8) (w : Word) (s : State) : Out :=
  .next (s.gate p (R.VC_CFG v.val) (fun s => s.retainWrite (R.VC_CFG v.val) w) (fun s => s.writeVcCfg v.val w))

/-- R485: a write of VC_RATE(v), refused while the channel is enabled. -/
def State.writeVcRate (s : State) (v : Nat) (w : Word) : State :=
  if s.on (R.VC_CFG.EN v) then s.put (R.VC_STAT.CFG_ERR v) 1 else s.plainWrite (R.VC_RATE v) w

/-! ### Nets (R488–R490) -/

/-- The stream and source of a set's barges. -/
def setStream (k : Nat) : Nat := 0x8600 + k
def State.setSource (s : State) (k : Nat) : Nat := 0xA000 + s.get (R.PROBE_SET.GROUP k)

/-- A barge or mark of a set given its SEQ and offered to the set's queue. -/
def State.offerSet (s : State) (k : Nat) (b : Barge) : State :=
  let b := { b with stream := setStream k, source := s.setSource k, seq := (s.pSet k).seq }
  (s.updPSet k (fun x => { x with seq := (x.seq + 1) % 2 ^ 32 })).offer [(Config.probeQueue k % 4096, b)]

/-- R490: the barge of a set that is being filled is closed. -/
def State.closeSet (s : State) (k : Nat) : State :=
  let x := s.pSet k
  if x.rows = 0 then s
  else
    let b : Barge :=
      { type := 7, stream := 0, source := 0, stamp := x.stamp, qual := x.qual, format := formatWord 0x31 15 false 0 0
        word40 := k + x.gen % 256 * 16 + x.rowW8 % 65536 * 65536 + x.rows * 2 ^ 32, word48 := x.cycle, payload := x.fill }
    (s.updPSet k (fun x => { x with fill := [], rows := 0 })).offerSet k b

/-- PROBE_BARGE_CLOSE (R490): CLOSE_US after its first row a set's barge is closed. -/
def execProbeBargeClose (set : Fin 16) (s : State) : Out :=
  let x := s.pSet set.val
  if x.rows ≠ 0 ∧ x.since + 1000 * max 1 (s.get R.PROBE_CTL.CLOSE_US) ≤ s.adv then .next (s.closeSet set.val) else .next s

/-- The clock period of the core on a group, in 2^-16 ns × 1,000 (ps × 65,536). -/
def State.pclk (s : State) (g : Nat) : Nat := s.get (R.PROBE_PEER.PCLK_PS g) * 65536

/-- R490: one row put into the barge of its set. -/
def State.takeRow (s : State) (k : Nat) (row : List Byte) (stamp : Nat) : State :=
  let s := if 65536 < (s.pSet k).fill.length + row.length then s.closeSet k else s
  let c := field row 0 8
  let s := s.updPSet k (fun x => if x.rows = 0 then
      { x with fill := row, rows := 1, cycle := c, stamp := stamp, qual := s.qual 1, since := s.adv
               gen := s.get (R.PROBE_SET.SUBGEN k), lastRow := some (c, stamp) }
    else { x with fill := x.fill ++ row, rows := x.rows + 1, lastRow := some (c, stamp) })
  let s := s.inc (R.PROBE_SET_ROWS.ROWS k)
  if 65536 ≤ (s.pSet k).fill.length then s.closeSet k else s

/-- R490, R521: a NETS frame taken in order. -/
def State.takeNets (s : State) (n : Nat) (f : ProbeFrame) : State :=
  let k := f.chan.val % 16
  let x := s.pSet k
  let g := s.get (R.PROBE_SET.GROUP k)
  if !time96Ok f.stamp.toNat || f.aux.val != s.get (R.PROBE_SET.SUBGEN k) || x.nets.isEmpty then s.lostFrame n
  else
    let stamp := ofTime96 f.stamp.toNat
    let first := f.word.toNat
    let per := s.pclk g
    let pred : Int := match x.lastRow with
      | some r => (r.2 : Int) + ((first : Int) - r.1) * per / 1000
      | none => stamp
    let sh := stepsShown stamp pred x.steps
    let s := if sh.1.isEmpty then s else s.closeSet k
    let s := sh.1.foldl (fun s d => s.offerSet k (mkMark 0 0 mkTimeStep stamp (s.qual 1) (wrap 64 d.1) (d.2 % 65536))) s
    let s := s.updPSet k (fun x => { x with steps := sh.2.1 })
    let s := if f.lost = 0 then s
      else
        let from_ := match x.lastRow with
          | some r => r.2 + per / 1000
          | none => stamp
        (s.closeSet k).offerSet k (mkGapMark 0 0 from_ (s.qual 1) 0x11 g f.lost (some (stamp - from_)))
    (pieces (8 * x.rowW8) f.payload).foldl (fun s row => s.takeRow k row (stamp + (field row 0 8 - first) * per / 1000)) s

/-! ### Credit and acknowledgement -/

/-- R491: BRIDGE samples sent against credit: how many may go now. -/
def Bp.room (x : Bp) : Nat :=
  let r := (x.credit + 2 ^ 64 - x.sent) % 2 ^ 64
  if 2 ^ 63 ≤ r then 0 else r

/-- R491: a CREDIT frame taken. -/
def State.takeCredit (s : State) (n : Nat) (f : ProbeFrame) : State :=
  let g := s.probeGroupOf n
  (List.range 8).foldl (fun s b =>
    if s.on (R.BP_CFG.EN b) && s.get (R.BP_CFG.GROUP b) == g && s.get (R.BP_CFG.CHAN b) == f.chan.val then
      let s := s.updBp b (fun x => { x with credit := f.word.toNat })
      if 0 < (s.bp b).room then s.put (R.BP_STAT.STARVED b) 0 else s
    else s) s

/-- R498: a SUB_ACK taken: the new list takes effect and the order completes. -/
def State.takeAck (s : State) (f : ProbeFrame) : State :=
  let k := f.word.toNat % 16
  let gen := f.word.toNat / 16 % 256
  match takeFirst (fun x => x.set == k && x.gen == gen) s.probe.subs with
  | some (x, rest) =>
    let s := { s with probe := { s.probe with subs := rest } }.closeSet k
    let was := (s.pSet k).nets
    let wsum := x.nets.foldl (fun a m => a + ((SMap.find? s.probe.catalogue m).getD 0#64).toNat % 64 + 1) 0
    let s := s.updPSet k (fun y => { y with
      nets := x.nets, rowW8 := 1 + (wsum + 63) / 64, lastRow := none, seq := if was.isEmpty && !x.nets.isEmpty then 0 else y.seq })
    let s := ((s.put (R.PROBE_SET.NNETS k) x.nets.length).put (R.PROBE_SET.SUBGEN k) gen).put (R.PROBE_SET.GROUP k) x.group
    let s := s.put R.PROBE_SUBTOTAL.TOTAL ((List.range 16).foldl (fun a k => a + s.get (R.PROBE_SET.NNETS k)) 0)
    s.retireRef x.order stOk [(32, leBytes 4 gen)]
  | none => s

/-! ### Frames received in order (R480) -/

/-- A frame of a type taken; one that is too long is dropped (R482). -/
def State.takeFrame (s : State) (type lane : Nat) (f : ProbeFrame) : State :=
  if 2048 < f.payload.length then s.lostFrame lane
  else match type with
  | 0x04 => s.takeCredit lane f
  | 0x10 => s.takeVcs lane f
  | 0x11 => s.takeNets lane f
  | 0x13 => s.takeAck f
  | _ => s

/-- The frames of a window that are next in order are taken, at most so many. -/
def State.drainWindow (s : State) (g : Nat) : Nat → State
  | 0 => s
  | n + 1 =>
    let x := s.pGroup g
    match takeFirst (fun h => some h.gseq == x.next) x.window with
    | some (h, rest) =>
      ((s.updPGroup g (fun x => { x with window := rest, next := some ((h.gseq + 1) % 65536) })).takeFrame h.type h.lane h.frame).drainWindow
        g n
    | none => s

/-- R480: the window of a group moves on by so many numbers: the frames held are taken, the others are lost. -/
def State.moveWindow (s : State) (g lane : Nat) : Nat → State
  | 0 => s
  | n + 1 =>
    let x := s.pGroup g
    match takeFirst (fun h => some h.gseq == x.next) x.window with
    | some (h, rest) =>
      ((s.updPGroup g (fun x => { x with window := rest, next := some ((h.gseq + 1) % 65536) })).takeFrame h.type h.lane h.frame).moveWindow g lane n
    | none => ((s.lostFrame lane).updPGroup g (fun x => { x with next := x.next.map (fun q => (q + 1) % 65536) })).moveWindow g lane n

/-- R480: a frame received on an UP lane: taken in the order of GSEQ, held for an earlier one within the window of 64; one that comes
when its number has gone by is dropped. -/
def State.rxFrame (s : State) (type n : Nat) (f : ProbeFrame) : State :=
  if s.pState n ≠ 4 then s
  else
    let g := s.probeGroupOf n
    let x := s.pGroup g
    let next := x.next.getD f.gseq.val
    let d := (f.gseq.val + 65536 - next) % 65536
    let s := s.updPGroup g (fun x => { x with next := some next })
    if 32768 ≤ d then s.lostFrame n
    else
      let h : HeldFrame := ⟨f.gseq.val, s.advU 0, type, n, f⟩
      let s := s.moveWindow g n (d - 63)
      (s.updPGroup g (fun x => { x with window := x.window ++ [h] })).drainWindow g 65

/-- FRAME_LOST (R480, R486, R490): a frame that has not arrived 2 µs after a later one is lost, the lane being the one that carried it;
the frames that waited for it are taken. -/
def execFrameLost (n : Fin 16) (s : State) : Out :=
  let g := s.probeGroupOf n.val
  let x := s.pGroup g
  if x.window.any (fun h => decide (h.at_ + nsUnits 2000 ≤ s.advU 0)) then
    let s := (s.lostFrame n.val).updPGroup g (fun x => { x with next := x.next.map (fun q => (q + 1) % 65536) })
    .next (s.drainWindow g 65)
  else .next s

/-- ECHO_FRAME (R484, R521): an ECHO arrives, `sub` × 2^-16 ns after the present tick; `turnaround` is the core's reported turnaround in
ps. -/
def execEchoFrame (n : Fin 16) (f : ProbeFrame) (sub : Fin 2621440) (turnaround : Nat) (s : State) : Out :=
  let k := n.val
  if s.pState k ≠ 4 then .next s
  else if !time96Ok f.stamp.toNat then .next (s.lostFrame k)
  else
    let s := match (s.pLane k).beacons.find? (fun b => b.1 == f.word.toNat) with
      | some b =>
        let ps := (toPs (s.advU sub.val - b.2) - turnaround) / 2
        (s.put (R.PROBE_LANE_DLY.DELAY k) (min ps (2 ^ 32 - 1))).updPLane k (fun x => { x with
          delay := ps * 65536 / 1000, beacons := x.beacons.filter (fun y => y != b) })
      | none => s
    .next (s.rxFrame 0x03 k f)

/-- CREDIT_FRAME (R483, R491): a CREDIT frame on lane n. -/
def execCreditFrame (n : Fin 16) (f : ProbeFrame) (s : State) : Out := .next (s.rxFrame 0x04 n.val f)

/-- VCS_FRAME (R28, R129, R480, R482, R486, R487, R521): a VCS frame on lane n. -/
def execVcsFrame (n : Fin 16) (f : ProbeFrame) (s : State) : Out := .next (s.rxFrame 0x10 n.val f)

/-- NETS_FRAME (R480, R490, R521): a NETS frame on lane n. -/
def execNetsFrame (n : Fin 16) (f : ProbeFrame) (s : State) : Out := .next (s.rxFrame 0x11 n.val f)

/-- SUB_ACK_FRAME (R498): a SUB_ACK frame on lane n. -/
def execSubAckFrame (n : Fin 16) (f : ProbeFrame) (s : State) : Out := .next (s.rxFrame 0x13 n.val f)

/-! ### The speed bridge (R491, R492) -/

/-- Samples that fit a frame of a format in whole groups of 8 bytes, and the bytes of `n` of them padded to a multiple of 8. -/
def frameSamples (fmt : Nat) : Nat := match fmt with
  | 0x01 => 1360
  | 0x02 => 1024
  | 0x03 => 512
  | _ => 408
def sampleBytes (fmt n : Nat) : Nat := if fmt = 0x01 then (n + 15) / 16 * 24 else n * elemBytes fmt
def padTo8 (bs : List Byte) : List Byte := bs ++ List.replicate ((8 - bs.length % 8) % 8) 0#8

/-- R425, R491: the cells of the front barge of which the last byte has been sent are freed. -/
def State.freeSent (s : State) (b : QBarge) (done : Nat) : State :=
  let gone := b.total - b.cells.length
  s.freeCells (b.cells.take (done / 256 - gone))

/-- The sample period of a barge's stream as samples per 2^-16 ns: the time of sample `i` after the first. -/
def State.sampleOffset (s : State) (src i : Nat) : Nat :=
  let r := s.sourceRate src
  i * (r.2 * 1000000000 * 65536) / max 1 r.1

/-- BRIDGE_SEND (R425, R491, R492, R494): port b sends its next frame, after the STIM frames that wait: samples of the front barge, zeros of a filled gap, a GAPF or a MARKF. -/
def execBridgeSend (b : Fin 8) (s : State) : Out :=
  let b := b.val
  let x := s.bp b
  let g := s.get (R.BP_CFG.GROUP b)
  let chan := s.get (R.BP_CFG.CHAN b)
  let q := s.get (R.BP_CFG.QUEUE b)
  if !s.on (R.BP_CFG.EN b) || !s.groupUp g || s.stimDue g then .next s
  else match s.frontBarge? q with
  | none => .next s
  | some qb =>
    let m := qb.barge
    let drop := fun (s : State) => (s.freeCells qb.cells).updBp b (fun x => { x with pos := 0, fill := 0 })
    let stream := x.stream.getD m.stream
    let s := s.updBp b (fun x => { x with stream := some stream })
    if m.stream ≠ stream then .next ((drop s).raiseInst 324 b)
    else if m.isMark && m.format % 256 == mkGap then
      let count := m.word48 / 2 ^ 32 % 2 ^ 32
      let short := s.on (R.BP_CFG.FILL b) && !bit m.word48 16 && decide (count ≤ s.get (R.BP_FILL.FILL_MAX b))
      if !short then
        let s := s.sendProbe g 0x21 0 chan x.number m.stamp (leBytes 8 count)
        .next ((drop (s.updBp b (fun x => { x with number := x.number + count }))).inc (R.BP_STAT.GAPF b))
      else
        let left := count - x.fill
        let fmt := x.fmt.getD (s.recordFmt m.source)
        let n := min (min left (frameSamples fmt)) x.room
        if left = 0 then .next (drop s)
        else if n = 0 then .next (s.put (R.BP_STAT.STARVED b) 1)
        else
          let zeros := padTo8 (List.replicate (sampleBytes fmt n) 0#8)
          let s := s.sendProbe g 0x20 fmt chan x.number (m.stamp + s.sampleOffset m.source x.fill) zeros
          let s := s.updBp b (fun x => { x with fill := x.fill + n, sent := (x.sent + n) % 2 ^ 64, number := x.number + n })
          .next (if n = left then drop s else s)
    else if m.isMark then .next (drop (s.sendProbe g 0x23 0 chan 0 m.stamp (headerBytes m)))
    else if m.type ≠ 1 then .next (drop s)
    else
      let fmt := m.format % 256
      let total := m.word40 / 2 ^ 32
      let n := min (min (total - x.pos) (frameSamples fmt)) x.room
      if total ≤ x.pos then .next (drop s)
      else if n = 0 then .next (s.put (R.BP_STAT.STARVED b) 1)
      else
        let off := sampleBytes fmt x.pos
        let bs := padTo8 ((m.payload.drop off).take (sampleBytes fmt n))
        let s := s.sendProbe g 0x20 fmt chan (m.word48 + x.pos) (m.stamp + s.sampleOffset m.source x.pos) bs
        let s := s.updBp b (fun x => { x with
          fmt := some fmt, pos := x.pos + n, sent := (x.sent + n) % 2 ^ 64, number := m.word48 + x.pos + n })
        .next (if x.pos + n = total then drop s else s.freeSent qb (64 + off + sampleBytes fmt n))

/-- R491: a write of BP_CFG(b), refused while the port is enabled. -/
def State.writeBpCfg (s : State) (b : Nat) (w : Word) : State :=
  let err := fun (s : State) => s.put (R.BP_STAT.CFG_ERR b) 1
  let off := fun (s : State) => err ((s.plainWrite (R.BP_CFG b) w).put (R.BP_CFG.EN b) 0)
  let new := (s.plainWrite (R.BP_CFG b) w).word (R.BP_CFG b)
  let en := bit w.toNat 0
  if s.on (R.BP_CFG.EN b) then
    let s := if new ||| 1#32 ≠ s.word (R.BP_CFG b) then err s else s
    if en then s
    else ((s.put (R.BP_CFG.EN b) 0).put (R.BP_STAT.STARVED b) 0).unbindQueue (s.get (R.BP_CFG.QUEUE b)) 5 b
  else if !en then s.plainWrite (R.BP_CFG b) w
  else if !s.isBase (bits w.toNat 2 4) then off s
  else match s.bindQueue? (bits w.toNat 16 12) 5 b with
    | some s => (s.plainWrite (R.BP_CFG b) w).updBp b (fun _ => {})
    | none => off s

/-- BP_ENABLE (R424, R491): a write of BP_CFG(b) by a path. -/
def execBpEnable (p : Path) (b : Fin 8) (w : Word) (s : State) : Out :=
  .next (s.gate p (R.BP_CFG b.val) (fun s => s.retainWrite (R.BP_CFG b.val) w) (fun s => s.writeBpCfg b.val w))

/-! ### Stimulus egress (R493, R494) -/

/-- R493: a write of EG_CFG(g), g = k + 4: while EN = 1 a change of another field is refused; a refused enable leaves the other fields
written. -/
def State.writeEgCfg (s : State) (k : Nat) (w : Word) : State :=
  let err := fun (s : State) => s.put (R.EG_STAT.CFG_ERR k) 1
  let new := (s.plainWrite (R.EG_CFG k) w).word (R.EG_CFG k)
  let g := bits w.toNat 1 4
  let rate := s.get (R.EG_RATE.RATE_KS k)
  if s.on (R.EG_CFG.EN k) then
    let s := if new ||| 1#32 ≠ s.word (R.EG_CFG k) then err s else s
    s.put (R.EG_CFG.EN k) (b2n (bit w.toNat 0))
  else if bit w.toNat 0 && (!s.isBase g || rate == 0 || s.overCapacity g rate 4) then
    err ((s.plainWrite (R.EG_CFG k) w).put (R.EG_CFG.EN k) 0)
  else s.plainWrite (R.EG_CFG k) w

/-- EG_ENABLE (R493): a write of EG_CFG(g + 4) by a path. -/
def execEgEnable (p : Path) (g : Fin 4) (w : Word) (s : State) : Out :=
  .next (s.gate p (R.EG_CFG g.val) (fun s => s.retainWrite (R.EG_CFG g.val) w) (fun s => s.writeEgCfg g.val w))

/-- The payload of a granule in its format. -/
def stimBytes (fmt : Nat) (xs : List (Int × Int)) : List Byte :=
  match fmt with
  | 0x02 => xs.flatMap (fun x => leBytes 2 (wrap 16 x.1))
  | 0x04 => xs.flatMap (fun x => leBytes 5 (wrap 20 x.1 + wrap 20 x.2 * 2 ^ 20))
  | _ => xs.flatMap (fun x => leBytes 4 (wrap 16 x.1 + wrap 16 x.2 * 65536))

/-- STIM_FRAME_SEND (R493, R494): the next granule of generator g + 4 leaves at its ball time, or is dropped when it could not leave within
1 µs of it. -/
def execStimFrameSend (g : Fin 4) (s : State) : Out :=
  let k := g.val
  match (s.sg (k + 4)).out with
  | (count, fmt, xs) :: rest =>
    let ball := s.sgBall (k + 4) count
    if s.time + nsUnits 40 ≤ ball then .next s
    else
      let s := s.updSg (k + 4) (fun x => { x with out := rest })
      let grp := s.get (R.EG_CFG.GROUP k)
      if ball + nsUnits 1000 < s.time ∨ s.groupUp grp = false then .next ((s.satInc (R.EG_STAT.DROPPED k)).raiseInst 325 (k + 4))
      else .next (s.sendProbe grp 0x22 fmt (s.get (R.EG_CFG.CHAN k)) count (ball + nsUnits (s.get (R.EG_CFG.LEAD_NS k))) (stimBytes fmt xs))
  | [] => .next s

/-! ### Orders (R497, R498) -/

/-- R498: whether a live set names a net in a range. -/
def State.netsLive (s : State) (first count : Nat) : Bool :=
  s.probe.sets.any (fun e => e.2.nets.any (fun m => decide (first ≤ m ∧ m < first + count)))

/-- The parameter checks of PROBE_CAT_LOAD (R387): each field's byte offset, and whether the field is invalid. -/
def probeCatLoadChecks (o : Order) : List (Nat × Bool) :=
  let first := o.u 16 4
  let count := o.u 20 4
  [chk 16 (1048576 ≤ first), chk 20 (count = 0 ∨ 1048576 < first + count), chk 24 (o.u 24 8 % 64 ≠ 0)] ++ reserved o 36 28

/-- PROBE_CAT_LOAD (R488, R497, R498): the order begins to read catalogue entries. -/
def State.probeCatLoadAccept (o : Order) (s : State) : State :=
  let first := o.u 16 4
  let count := o.u 20 4
  s.validate o (probeCatLoadChecks o) (fun s =>
        if s.netsLive first count then s.retire o stState
        else (s.updOrder o.ref (fun o => { o with phase := .running })).startRead o (o.u 24 8) (8 * count))

/-- The arm of that order. -/
def execProbeCatLoad (s : State) : Out := .next (s.accept 0x0B01 State.probeCatLoadAccept)

/-- R498: the granules of 32 entries that have arrived whole are written; the order completes with its last. -/
def State.catArrived (s : State) (o : Order) (r : HostRead) : State :=
  let count := o.u 20 4
  let have_ := gotPrefix r.len r.got / 8
  let n := if have_ = count then count else have_ / 32 * 32
  let s := (List.range (n - o.done)).foldl (fun s i =>
    let k := o.done + i
    let e := BitVec.ofNat 64 (leNat (Mem.reads 0#8 r.got (8 * k) 8))
    let c := s.probe.catalogue
    { s with probe := { s.probe with
      catalogue := if e = 0 then SMap.erase c (o.u 16 4 + k) else SMap.put c (o.u 16 4 + k) e } }) s
  let s := s.updOrder o.ref (fun o => { o with done := n })
  let outs := [(32, leBytes 4 n)]
  if n = count then s.retireWith o stOk 0 outs
  else if o.phase = .cancelling then (if n = 0 then s.retire o stCancelled else s.retireWith o stPartial 0 outs)
  else s

/-- R498: a cancel of PROBE_CAT_LOAD. -/
def State.catCancel (s : State) (o : Order) : State :=
  if o.done = 0 then s.retire o stCancelled else s.retireWith o stPartial 0 [(32, leBytes 4 o.done)]

/-- PROBE_SUB (R489, R497, R498): the order reads its net list; an empty list needs none. -/
def State.sendSub (s : State) (o : Order) (nets : List Nat) : State :=
  let k := o.u 16 1
  let g := o.u 18 1
  if !s.groupUp g then s.retire o stState
  else
    let gen := ((s.pSet k).lastGen + 1) % 256
    let handle := fun (m : Nat) => leBytes 4 (((SMap.find? s.probe.catalogue m).getD 0#64).toNat / 2 ^ 32)
    let parts := if nets.isEmpty then [[]] else (List.range ((nets.length + 510) / 511)).map (fun i => (nets.drop (511 * i)).take 511)
    let s := parts.foldl (fun s l =>
      s.sendProbe g 0x12 0 0 (k + gen * 16) s.time (padTo8 (leBytes 4 (o.u 17 1) ++ l.flatMap handle))) s
    let x : ProbeSub := ⟨o.ref, k, gen, g, nets, s.adv⟩
    ({ s with probe := { s.probe with subs := s.probe.subs ++ [x] } }.updPSet k (fun y => { y with lastGen := gen })).updOrder o.ref
      (fun o => { o with phase := .running })

/-- R489, R498: the net list has been read. -/
def State.subTable (s : State) (o : Order) (bs : List Byte) : State :=
  let k := o.u 16 1
  let g := o.u 18 1
  let es := (pieces 4 bs).map leNat
  let entry := fun (m : Nat) => ((SMap.find? s.probe.catalogue m).getD 0#64).toNat
  let others := (List.range 16).foldl (fun a j => if j = k then a else a + s.get (R.PROBE_SET.NNETS j)) 0
  let wsum := es.foldl (fun a m => a + entry m % 64 + 1) 0
  if es.any (fun m => decide (2 ^ 20 ≤ m)) then s.retire o stBadParam 24
  else if 65536 < others + es.length ∨ 32768 < wsum ∨ es.any (fun m => !bit (entry m) 31 || bits (entry m) 6 4 != g) = true then s.retire o 0x2A
  else s.sendSub o es

/-- The parameter checks of PROBE_SUB (R387): each field's byte offset, and whether the field is invalid. -/
def State.probeSubChecks (s : State) (o : Order) : List (Nat × Bool) :=
  let n := o.u 20 4
  [chk 16 (16 ≤ o.u 16 1), chk 17 (16 ≤ o.u 17 1), (18, decide (16 ≤ o.u 18 1) || !s.isBase (o.u 18 1)), chk 19 (o.u 19 1 ≠ 0),
    chk 20 (65536 < n), chk 24 (o.u 24 8 % 64 ≠ 0)] ++ reserved o 36 28

/-- PROBE_SUB (R489, R497, R498): the order is checked and reads its net list. -/
def State.probeSubAccept (o : Order) (s : State) : State :=
  let n := o.u 20 4
  s.validate o (s.probeSubChecks o) (fun s =>
      if n = 0 then (if s.lkUp 3 then s.sendSub o [] else s) else s.startRead o (o.u 24 8) (4 * n))

/-- The arm of that order. -/
def execProbeSub (s : State) : Out := .next (s.accept 0x0B02 State.probeSubAccept)

/-- SUB_ACK_TIMEOUT (R498): no SUB_ACK within 10 ms of the SUBSCRIBE; the set keeps its list. -/
def execSubAckTimeout (ring index : Nat) (s : State) : Out :=
  match takeFirst (fun x => x.order == (ring, index)) s.probe.subs with
  | some (x, rest) =>
    if x.sentAt + 10000000 ≤ s.adv then .next ({ s with probe := { s.probe with subs := rest } }.retireRef x.order 0x29 []) else .next s
  | none => .next s

/-- R498: whether a PROBE_SUB can still be cancelled: its SUBSCRIBE has not been sent. -/
def State.subCancel (s : State) (o : Order) : Bool × State :=
  if o.phase = .running then (false, s) else (true, s.retire o stCancelled)

/-- R333: a time step that the stamps of virtual channels and sets have still to show. -/
def State.probeStep (s : State) (d : Int) : State :=
  let k := s.tk.stepCount
  let s := (List.range 8).foldl (fun s v =>
    if !(s.poundsOf (vcId v)).isEmpty || !(s.plansRunning (vcId v)).isEmpty then s.updVc v (fun x => { x with steps := x.steps ++ [(d, k)] }) else s) s
  { s with probe := { s.probe with sets := s.probe.sets.map (fun e =>
    (e.1, if e.2.nets.isEmpty then e.2 else { e.2 with steps := e.2.steps ++ [(d, k)] })) } }

end Machine
end Sys2Proof
end

