-- ==== Sys2Proof/Machine/TimeStep.lean ====
section
/-!
DEFINITION. Steps of the timekeeper taking effect (R333, R502, R523, R525, R530, R546) and the time beacons of the Kavaxel links
(R542–R549).

Marked choices (log entries): DEDUCED 72, 79, 80, 148. Each entry of notes/assumptions says safe or unsafe.
-/

namespace Sys2Proof
namespace Machine

/-! ### A step takes effect -/

/-- R333: a step noted for a source of samples: its mark goes before its first sample on the new base, in the pounds that record it and
the plans that run on it. -/
def State.stepSource (s : State) (src : Nat) (d : Int) : State :=
  let c := max (s.sampleAt src s.time) (s.source src).next
  let m := mkMark 0 0 mkTimeStep (s.sampleStamp src c) (s.qual (refOf src)) (wrap 64 d) (s.tk.stepCount % 65536)
  let ps := s.poundsOf src
  let s := if ps.isEmpty then s else s.updSource src (fun o => { o with steps := o.steps ++ [(c, ps, m)] })
  (s.plansRunning src).foldl (fun s p => s.updPlan p (fun pl => { pl with stepMarks := pl.stepMarks ++ [(c, m)] })) s

/-- The opcodes and places of MODE of the work orders that wait for a TIME of their own at offset 20. -/
def timedOrders : List (Nat × Nat) :=
  [(0x0102, 17), (0x0103, 17), (0x0201, 17), (0x0401, 17), (0x0402, 17), (0x0502, 17), (0x0602, 17), (0x0603, 17), (0x0801, 18),
    (0x0E01, 17)]

/-- R525: the orders whose time a forward step passes over act now and complete LATE. -/
def passOrders (old new : Nat) (os : List Order) : List Order :=
  os.map (fun o =>
    let t := ofTime96 (o.u 20 12)
    if o.phase = .pending ∧ old < t ∧ t < new ∧ timedOrders.any (fun x => x.1 == o.opcode && o.u x.2 1 == 1) then
      { o with late := true }
    else o)

/-- An instant on the old base named on the new one. -/
def rebase (old : Nat) (d : Int) (t : Nat) : Nat := if t ≤ old then ((t : Int) + d).toNat else t

/-- R525: what the device keeps of instants that have passed is moved to the new base; durations are measured as before. -/
def State.rebaseAll (s : State) (old : Nat) (d : Int) : State :=
  let new := s.time
  let mv := fun (t : Nat) => ((t : Int) + d).toNat
  let plan := fun (pl : Plan) => { pl with
    startAt := pl.startAt.map (rebase old d)
    failovers := pl.failovers.map (fun x => { x with detected := mv x.detected, readyAt := mv x.readyAt }) }
  let sg := fun (x : Sg) => { x with
    acceptedAt := mv x.acceptedAt
    waitSince := mv x.waitSince
    startAt := if x.mode = 1 then x.startAt else x.startAt.map mv }
  let ddc := fun (x : Ddc) => { x with
    listStep := x.listStep.map (fun e => (e.1, e.2.map mv))
    listGates := x.listGates.map mv
    pending := x.pending.map (fun r => match r.notBefore with
      | some t => { r with notBefore := some (rebase old d t), late := r.late || decide (old < t ∧ t < new) }
      | none => r) }
  { s with
    plans := s.plans.map (fun e => (e.1, plan e.2))
    adcs := s.adcs.map (fun e => (e.1, { e.2 with startAt := e.2.startAt.map (rebase old d) }))
    sgs := s.sgs.map (fun e => (e.1, sg e.2))
    ddcs := s.ddcs.map (fun e => (e.1, ddc e.2))
    orders := passOrders old new s.orders }

/-- R333, R502, R523, R525, R530: the timekeeper moves by `d` (2^-16 ns): every counter gets an anchor on the new base, every stream
whose stamps move gets its TIME_STEP mark, the gates skip what a forward step passes over. -/
def State.applyStep (s : State) (d : Int) : State :=
  let old := s.time
  let s := s.reanchor d
  let s := { s with tk := { s.tk with raw := ((s.tk.raw : Int) + d * 1024).toNat, stepCount := s.tk.stepCount + 1 } }
  let s := s.rebaseAll old d
  let s := [0, 1, 2, 3].foldl (fun s n => s.stepSource (adcId n) d) s
  let s := (List.range 8).foldl (fun s n => s.stepSource (ddcId n) d) s
  let s := (List.range 16).foldl (fun s f =>
    if s.flState f = 0 then s
    else
      let m := { mkMark (0x8480 + f) (0x6000 + f) mkTimeStep s.time (s.qual 2) (wrap 64 d) (s.tk.stepCount % 65536) with
        seq := (s.flight f).seq }
      let s := s.updFlight f (fun x => { x with seq := (x.seq + 1) % 2 ^ 32 })
      [0, 1].foldl (fun s i =>
        let s := if s.on (R.FL_MARKQ.EN_A f i) then s.push (s.get (R.FL_MARKQ.Q_A f i)) m else s
        if s.on (R.FL_MARKQ.EN_B f i) then s.push (s.get (R.FL_MARKQ.Q_B f i)) m else s) s) s
  let s := (List.range 8).foldl (fun (s : State) m =>
    if s.on (R.REAM_CFG.EN m) then s.updReam m (fun r => { r with steps := r.steps ++ [(d, s.tk.stepCount)] }) else s) s
  let s := ((s.tdcStep d).probeStep d).sgRetime
  if 0 < d then s.tgPassed s.time else s

/-- STEP_TICK (R333, R502, R523, R525, R530, R546): the first pending step whose tick has come takes effect: one ordered of this device,
or, on a follower, its root's at the announced time. -/
def execStepTick (s : State) : Out :=
  match takeFirst (fun (x : OrderRef × Int × Nat) => decide (x.2.2 ≤ s.ticks)) s.tk.steps with
  | some (x, rest) =>
    let s := { s with tk := { s.tk with steps := rest } }.applyStep x.2.1
    let set := (s.order? x.1).any (fun o => o.u 16 1 == 1)
    let s := if set && s.tkState == tkUnset then s.put R.TIME_STATUS.STATE tkFree else s
    .next (s.retireRef x.1 stOk [(32, leBytes 8 (wrap 64 x.2.1)), (40, time96Bytes s.time)])
  | none =>
    if !s.follows then .next s
    else match takeFirst (fun x => decide (x.1 ≤ s.time)) s.kx.rootSteps with
      | some (x, rest) => .next ({ s with kx := { s.kx with rootSteps := rest, doneSteps := x :: s.kx.doneSteps } }.applyStep x.2)
      | none => .next s

/-! ### Time beacons (R542–R549) -/

/-- KX_LINK_DLY(l) in 2^-16 ns. -/
def State.linkDelay (s : State) (l : Nat) : Nat := s.get (R.KX_LINK_DLY.DELAY l) * 65536 / 1000

/-- R544: half the round trip of a beacon and its echo (ps) is the one-way delay of its link. -/
def State.echo (s : State) (l roundTrip : Nat) : State := s.put (R.KX_LINK_DLY.DELAY l) (min (roundTrip / 2) (2 ^ 32 - 1))

/-- TIME_BEACON_SEND (R544): every 10 µs a ROOT device sends a beacon down its tree; `echoes` are the links whose echo has come since
the last one, with the round trip in ps. -/
def execTimeBeaconSend (echoes : List (Fin 6 × Nat)) (s : State) : Out :=
  if s.follows ∨ s.adv < s.kx.lastBeacon + 10000 then .next s
  else
    let s := echoes.foldl (fun s e => s.echo e.1.val e.2) s
    let b : KxBeacon :=
      { root := Fin.ofNat 262144 s.devid, entry := Fin.ofNat 16 s.slot, depart := BitVec.ofNat 96 (toTime96 s.time)
        inc := BitVec.ofNat 32 s.tk.inc, state := Fin.ofNat 8 s.tkState
        steps := s.comingSteps.map (fun x => (BitVec.ofNat 96 (toTime96 x.1), x.2)) }
    let ls := s.kxBranches s.slot ++ [4, 5].filter (fun l => s.kxUp l)
    .next (ls.foldl (fun s l => s.send (.beacon l b)) { s with kx := { s.kx with lastBeacon := s.adv } })

/-- A signed number of ps, saturating at 32 bits. -/
def satPs (x : Int) : Nat := wrap 32 (clampInt (-(2 ^ 31)) (2 ^ 31 - 1) x)

/-- R542: the difference of the two devices' SYNC reference times in ps; beyond 5 ns it is reported. -/
def State.compareSync (s : State) (root : Nat) : State :=
  let own := ofTime96 (s.get R.CONV_SYNC_T0.T_LO + s.get R.CONV_SYNC_T1.T_MID * 2 ^ 32 + s.get R.CONV_SYNC_T2.T_HI * 2 ^ 64)
  let ps := ((own : Int) - ofTime96 root) * 1000 / 65536
  let s := s.put R.KX_SYNCDIFF.DIFF (satPs ps)
  if 5000 < ps.natAbs then s.raiseInst 389 0 else s

/-- R545, R549: a follower's state after a beacon whose offset was `ps`: the first big one stepped off, INC followed within 0.2 ppm,
FOLLOWING once the offset has stayed below 100 ps for 1 ms, a root that leaves LOCKED or regains it. -/
def State.followBeacon (s : State) (b : KxBeacon) (ps : Int) (measured : Bool) : State :=
  let locked := b.state.val == tkLocked
  let s := if s.tkState = tkFollowing ∧ s.kx.rootLocked = true ∧ locked = false then s.masterLost
    else if s.tkState = tkFollowing ∧ s.kx.rootLocked = false ∧ locked = true then s.raiseInst 391 0 else s
  let steps := (b.steps.map (fun x => (ofTime96 x.1.toNat, x.2))).filter (fun x => !s.kx.doneSteps.contains x)
  let s := { s with kx := { s.kx with rootLocked := locked, rootSteps := steps, measuring := s.kx.measuring && !measured } }
  let s := s.put R.TIME_OFFSET.OFFSET (satPs ps)
  let first := s.tkState == tkAcquiring && !s.kx.stepped
  let s := { s with kx := { s.kx with stepped := true } }
  let s := if first && decide (1000000 < ps.natAbs) then s.applyStep (-(ps * 65536 / 1000)) else s
  let s : State := if s.kx.measuring then s
    else
      let r := s.fresh
      let adj : Int := (r.1 % 1073 : Nat) - 536
      { r.2 with tk := { r.2.tk with newInc := some ((b.inc.toNat : Int) + adj).toNat } }
  if ps.natAbs < 100 then
    let t := s.kx.nearSince.getD s.adv
    let s := { s with kx := { s.kx with nearSince := some t } }
    if s.tkState = tkAcquiring ∧ t + 1000000 ≤ s.adv then s.put R.TIME_STATUS.STATE tkFollowing else s
  else { s with kx := { s.kx with nearSince := none } }

/-- The slot at which a beacon that arrives on link `l` entered this board (R544). -/
def State.beaconEntry (s : State) (l : Nat) (b : KxBeacon) : Nat := if l < 4 then b.entry.val else s.slot

/-- Where a beacon shows its root to be (R539): where a HELLO exchange of the board has put it, behind the link it came by, or beyond the
device of the board at which it entered. -/
def State.rootPlace (s : State) (l : Nat) (b : KxBeacon) : Nat :=
  match SMap.find? s.kx.devs b.root.val with
  | some p => if p < 16 then p else if l < 4 then 32 + b.entry.val else 16 + l
  | none => if l < 4 then 32 + b.entry.val else 16 + l

/-- What a beacon tells of its root's device and of its link's delay (R544, R545); its echo is returned. -/
def State.heardBeacon (s : State) (l : Nat) (b : KxBeacon) (roundTrip : Option Nat) : State :=
  let s := s.send (.beaconEcho l)
  let s := s.reroute (fun s => { s with kx := { s.kx with devs := SMap.put s.kx.devs b.root.val (s.rootPlace l b) } })
  match roundTrip with
  | some n => s.echo l n
  | none => s

/-- When a beacon heard on link `l` was sent, on the root's time (R545). -/
def State.beaconSent (s : State) (l : Nat) (b : KxBeacon) : Nat := ofTime96 b.depart.toNat + s.linkDelay l

/-- A beacon is passed on down the tree (R544). -/
def State.forwardBeacon (s : State) (l : Nat) (b : KxBeacon) : State :=
  let fwd : KxBeacon := { b with entry := Fin.ofNat 16 (s.beaconEntry l b), depart := BitVec.ofNat 96 (toTime96 (s.beaconSent l b)) }
  (s.kxBranches (s.beaconEntry l b)).foldl (fun s x => if x = l then s else s.send (.beacon x fwd)) s

/-- TIME_BEACON_RECEIVED (R521, R542, R544–R549): a beacon arrives on an UP link, `sub` × 2^-16 ns after the present tick; with it the
round trip of its echo (ps) if one has been measured, and the root's SYNC reference time after a SYNC. It is passed on down the
tree; a follower of its root follows it. A beacon with an impossible TIME96 is discarded. -/
def execTimeBeaconReceived (l : Fin 6) (b : KxBeacon) (sub : Fin 2621440) (roundTrip : Option Nat)
    (rootSync : Option (BitVec 96)) (s : State) : Out :=
  let l := l.val
  if !s.kxUp l || !time96Ok b.depart.toNat || !b.steps.all (fun x => time96Ok x.1.toNat) then .next s
  else
    let s := s.heardBeacon l b roundTrip
    let sent := s.beaconSent l b
    let s := s.forwardBeacon l b
    if s.follows && s.get R.TIME_ROOT.ROOT_ID == b.root.val then
      let s := match rootSync with
        | some t => s.compareSync t.toNat
        | none => s
      .next (s.followBeacon b ((((s.time + sub.val : Nat) : Int) - sent) * 1000 / 65536) roundTrip.isSome)
    else .next s

end Machine
end Sys2Proof
end

