-- ==== Sys2Proof/Machine/Nvme.lean ====
section
/-!
DEFINITION. Streaming to NVMe drives (chapter 14): root ports and drives, namespace slots, recordings and their chunks, read-back and
deallocation.

Marked choices (log entries): DEDUCED 81, 82, 83, 151. Each entry of notes/assumptions says safe or unsafe.
-/

namespace Sys2Proof
namespace Machine

/-! ### Accessors -/

def State.nvPort (s : State) (d : Nat) : NvPort := (SMap.find? s.nvme.ports d).getD {}
def State.nvDrive (s : State) (n : Nat) : NvDrive := (SMap.find? s.nvme.drives n).getD {}
def State.nvRec (s : State) (r : Nat) : NvRec := (SMap.find? s.nvme.recs r).getD {}
def State.updNvPort (s : State) (d : Nat) (x : NvPort) : State := { s with nvme := { s.nvme with ports := SMap.put s.nvme.ports d x } }
def State.updNvDrive (s : State) (n : Nat) (f : NvDrive → NvDrive) : State :=
  { s with nvme := { s.nvme with drives := SMap.put s.nvme.drives n (f (s.nvDrive n)) } }
def State.updNvRec (s : State) (r : Nat) (f : NvRec → NvRec) : State :=
  { s with nvme := { s.nvme with recs := SMap.put s.nvme.recs r (f (s.nvRec r)) } }

/-- NVME_DRIVE.STATE: 0 ABSENT, 1 ENUM, 2 INIT, 3 READY, 4 RESET, 5 FAILED; NVME_REC_STAT.STATE: 0 OFF, 1 RUNNING, 2 FULL,
3 STOPPING, 4 STALLED. -/
def State.driveState (s : State) (n : Nat) : Nat := s.get (R.NVME_DRIVE.STATE n)
def State.recState (s : State) (r : Nat) : Nat := s.get (R.NVME_REC_STAT.STATE r)

/-- A slot's drive, NSID, LBA size and capacity, and whether it is READY. -/
def State.slotDrive (s : State) (j : Nat) : Nat := s.get (R.NVME_SLOT.DRIVE j)
def State.slotNsid (s : State) (j : Nat) : Nat := s.get (R.NVME_SLOT_NSID.NSID j)
def State.lbaSize (s : State) (j : Nat) : Nat := if s.on (R.NVME_SLOT.LBAS j) then 4096 else 512
def State.slotCap (s : State) (j : Nat) : Nat := s.get (R.NVME_SLOT_CAP_LO.LBAS_LO j) + s.get (R.NVME_SLOT_CAP_HI.LBAS_HI j) * 2 ^ 32
def State.slotReady (s : State) (j : Nat) : Bool := s.get (R.NVME_SLOT.STATE j) == 1

/-- TIMEOUT_MS in ns, 0 acting as 1; LBAs of one command: at most the drive's MDTS. -/
def State.nvTimeout (s : State) : Nat := 1000000 * max 1 (s.get R.NVME_CTL.TIMEOUT_MS)
def State.maxLbas (s : State) (j : Nat) : Nat := max 1 (s.get (R.NVME_DRIVE.MDTS_KIB (s.slotDrive j)) * 1024 / s.lbaSize j)

/-- The recordings that are not OFF with a slot among their members. -/
def State.memberOf (s : State) (j : Nat) : Bool :=
  (List.range 8).any (fun r => (s.on (R.NVME_REC_CFG.EN r) || s.recState r ≠ 0) && bit (s.get (R.NVME_REC_CFG.MEMBERS r)) j)

/-- The size of a recording's chunks, and how many chunk positions a slot holds (R442). -/
def State.chunkSize (s : State) (r : Nat) : Nat := 524288 * 2 ^ s.get (R.NVME_REC_CFG.CHUNK r)
def State.positions (s : State) (j c : Nat) : Nat := s.slotCap j * s.lbaSize j / max 1 c

/-! ### Chunks (R442–R447) -/

/-- Table 14-2. -/
def chunkHeader (r slot number trec bytes barges first : Nat) (last : Bool) : List Byte :=
  let h := leBytes 4 0x31434B49 ++ [1#8] ++ leBytes 1 (b2n last) ++ leBytes 1 r ++ leBytes 1 slot ++ leBytes 8 number
    ++ leBytes 12 (toTime96 trec) ++ leBytes 4 bytes ++ leBytes 4 barges ++ leBytes 4 0 ++ leBytes 12 first ++ leBytes 8 0
  h ++ leBytes 4 (crc32c h).toNat

/-- The live member whose turn it is: the next in increasing slot order after the last (R442). -/
def State.turn (s : State) (r : Nat) : Option Nat :=
  let live := s.get (R.NVME_REC_STAT.LIVE r)
  let from_ := match (s.nvRec r).last with
    | some j => j + 1
    | none => 0
  ((List.range 8).map (fun i => (from_ + i) % 8)).find? (fun j => bit live j)

/-- A slot's next chunk position. -/
def NvRec.posOf (x : NvRec) (j : Nat) : Nat := (SMap.find? x.pos j).getD 0

/-- Chunks outstanding on a slot (R445), and whether a LINEAR recording has no position left on it. -/
def NvRec.outOn (x : NvRec) (j : Nat) : Nat := (x.out.filter (fun c => c.slot == j)).length
def State.memberFull (s : State) (r j : Nat) : Bool :=
  !s.on (R.NVME_REC_CFG.MODE r) && decide (s.positions j (s.chunkSize r) ≤ (s.nvRec r).posOf j)

/-- Bytes of barges, and the streams they carry. -/
def spans (bs : List Barge) : Nat := bs.foldl (fun n b => n + b.span) 0
def streamsOf (bs : List Barge) : List Nat := bs.foldl (fun l b => if l.contains b.stream then l else l ++ [b.stream]) []

/-- The GAP marks that go at the head of a chunk with these barges: as many of those waiting as its size and sixteen streams allow. -/
def headGaps (c : Nat) (cur : List Barge) : List Barge → List Barge → List Barge
  | _, [] => []
  | acc, g :: t =>
    let l := acc ++ [g]
    if 64 + spans l + spans cur ≤ c ∧ (streamsOf (l ++ cur)).length ≤ 16 then g :: headGaps c cur l t else []

/-- A command issued to a slot's drive; one for a drive in RESET waits until it is READY again. -/
def State.nvSend (s : State) (j op lba nlb : Nat) (data : List Byte) : State :=
  if s.driveState (s.slotDrive j) = 4 then s else s.send (.nvme (s.slotDrive j) op (s.slotNsid j) lba nlb data)

/-- The Writes of a chunk of `n` bytes, each at most `m` (R445). -/
def writesOf (n m now : Nat) : List NvWrite :=
  (List.range (ceilDiv n (max 1 m))).map (fun i => { index := i, off := i * m, len := min m (n - i * m), at_ := now })

/-- A Write issued. -/
def State.sendWrite (s : State) (r : Nat) (c : NvChunk) (w : NvWrite) : State :=
  let l := s.lbaSize c.slot
  s.nvSend c.slot 0x01 (c.pos * (s.chunkSize r / l) + w.off / l) (w.len / l) ((c.bytes.drop w.off).take w.len)

/-- The cells of the barges of a chunk, each with the end of its bytes: the barges stand from `off` on. -/
def cellEnds : Nat → List (Barge × List Nat) → List (Nat × Nat)
  | _, [] => []
  | off, (b, cs) :: t =>
    (cs.zip (List.range cs.length)).map (fun c => (c.1, off + min b.span (256 * (c.2 + 1)))) ++ cellEnds (off + b.span) t

/-- R338: an AUX mark of a recording carries the SEQ of the last counted barge of its stream written before it. -/
def auxSeq (last : SMap (Nat × Nat)) (g : Barge) : Barge :=
  { g with seq := match SMap.find? last g.stream with
      | some x => x.2
      | none => 0xFFFFFFFF }

/-- NVME_REC_CHUNK(r) shows the next chunk number. -/
def State.showNext (s : State) (r : Nat) : State :=
  let n := (s.nvRec r).next
  (s.put (R.NVME_REC_CHUNK_LO.NEXT_LO r) n).put (R.NVME_REC_CHUNK_HI.NEXT_HI r) (n / 2 ^ 32)

/-- R442, R443, R447: the open chunk goes to slot `j` and its Writes are issued. -/
def State.writeChunk (s : State) (r j : Nat) : State :=
  let x := s.nvRec r
  let size := s.chunkSize r
  let cur := x.cur.map (fun e => e.1)
  let gaps := headGaps size cur [] x.gaps
  let bs := gaps.map (auxSeq x.lastSeq) ++ cur
  let used := 64 + spans bs
  let l := s.lbaSize j
  let first := match bs with
    | b :: _ => toTime96 b.stamp
    | [] => 0
  let h := chunkHeader r j x.next x.trec used bs.length first x.final
  let total := ceilDiv used l * l
  let bytes := h ++ bs.flatMap bargeBytes ++ List.replicate (total - used) 0#8
  let pos := x.posOf j
  let p := if s.on (R.NVME_REC_CFG.MODE r) then pos % max 1 (s.positions j size) else pos
  let c : NvChunk :=
    { number := x.next, slot := j, pos := p, bytes := bytes, barges := bs, cells := cellEnds (64 + spans gaps) x.cur
      writes := writesOf total (s.maxLbas j * l) s.adv, before := x.lastSeq }
  let seqs := cur.foldl (fun m b => if b.isAux then m else SMap.put m b.stream (x.next, b.seq)) x.lastSeq
  let s := s.updNvRec r (fun x => { x with
    next := x.next + 1, last := some j, pos := SMap.put x.pos j (p + 1), cur := [], closing := false
    gaps := x.gaps.drop gaps.length, lastSeq := seqs, out := x.out ++ [c] })
  c.writes.foldl (fun s w => s.sendWrite r c w) (s.showNext r)

/-! ### Lost chunks (R446, R447) -/

/-- The stamp at which the span of a barge ends (R331, R341), and the items it stands for: a closed GAP mark spans what it marks. -/
def State.bargeEnd (s : State) (b : Barge) : Nat × Nat :=
  let per := samplePeriod b.format b.source
  match b.type with
  | 1 => (b.stamp + bits b.word40 32 32 * per.1 / per.2, bits b.word40 32 32)
  | 2 => (b.stamp + 2 ^ bits b.word40 48 8 * per.1 / per.2, 1)
  | 3 =>
    let p := (b.stream - 0x8100) / 8
    (b.stamp + s.tperiod (b.source % 0x1000) p * (s.plan p).hop * per.1 / per.2, 1)
  | _ =>
    if b.isMark && b.format % 256 == mkGap && !bit b.word48 16 then (b.stamp + b.word40, bits b.word48 32 32) else (b.stamp + 1, 0)

/-- R447: the GAP marks of a lost chunk, one for each of its streams. -/
def State.driveGaps (s : State) (c : NvChunk) : List Barge :=
  (streamsOf c.barges).filterMap (fun t =>
    let bs := c.barges.filter (fun b => b.stream == t)
    match bs with
    | b :: _ =>
      let e := (s.bargeEnd (bs.getLastD b)).1
      let n := bs.foldl (fun n b => n + (s.bargeEnd b).2) 0
      some (mkGapMark t b.source b.stamp (b.qual % 16 + (if bit b.qual 7 then 128 else 0)) 0x10 c.slot n (some (e - b.stamp)) flAux)
    | [] => none)

/-- R446, R447: a chunk lost: its cells freed, counted and reported. -/
def State.countLost (s : State) (r : Nat) (c : NvChunk) : State :=
  let s := s.freeCells (c.cells.map (fun e => e.1))
  let s := s.satInc (R.NVME_REC_STAT.LOST r)
  s.raiseWith 259 (s.slotDrive c.slot) [c.slot, c.number]

/-- What the last SEQs are once chunk `n` no longer counts as written. -/
def unwritten (n : Nat) (before m : SMap (Nat × Nat)) : SMap (Nat × Nat) :=
  m.filterMap (fun e => if e.2.1 = n then (SMap.find? before e.1).map (fun v => (e.1, v)) else some e)

/-- R442, R446: a member leaves a recording, which stalls without members. -/
def State.leaveRec (s : State) (r j : Nat) : State :=
  let s := s.put (R.NVME_REC_STAT.LIVE r) (setBit (s.get (R.NVME_REC_STAT.LIVE r)) j false)
  if s.get (R.NVME_REC_STAT.LIVE r) = 0 ∧ (s.recState r = 1 ∨ s.recState r = 2) then s.put (R.NVME_REC_STAT.STATE r) 4 else s

/-- R446: a chunk with a Write that has failed finally: lost, its member leaves the recording. -/
def State.loseChunk (s : State) (r : Nat) (c : NvChunk) : State :=
  let s := s.updNvRec r (fun x => { x with
    out := (x.out.filter (fun d => d.number != c.number)).map (fun d => { d with before := unwritten c.number c.before d.before })
    lastSeq := unwritten c.number c.before x.lastSeq
    gaps := x.gaps ++ s.driveGaps c })
  (s.countLost r c).leaveRec r c.slot

/-! ### The recording engine at work (R424, R442–R445, R448) -/

/-- The oldest barge of a queue that its recording has not taken, all its cells visible. -/
def State.untaken? (s : State) (q : Nat) : Option QBarge :=
  if s.qstate q = qActive ∨ s.qstate q = qClosing then
    match (s.queue q).barges.find? (fun b => !b.begun) with
    | some b => if b.visible ≥ b.total then some b else none
    | none => none
  else none

/-- R443: whether a barge still fits into the open chunk. -/
def State.chunkFits (s : State) (r : Nat) (b : Barge) : Bool :=
  let x := s.nvRec r
  let all := x.gaps ++ x.cur.map (fun e => e.1) ++ [b]
  64 + spans all ≤ s.chunkSize r && (streamsOf all).length ≤ 16

/-- The next barge taken into the open chunk. -/
def State.takeBarge (s : State) (r q : Nat) (b : QBarge) : State :=
  let s := s.updQueue q (fun qu => { qu with barges := updFirst (fun b => !b.begun) (fun b => { b with begun := true }) qu.barges })
  s.updNvRec r (fun x => { x with cur := x.cur ++ [(b.barge, b.cells)], firstAt := if x.cur.isEmpty then s.adv else x.firstAt })

/-- A recording's end (R448): OFF, its queue without a consumer. -/
def State.recOff (s : State) (r : Nat) : State :=
  let s := (s.put (R.NVME_REC_STAT.STATE r) 0).unbindQueue (s.get (R.NVME_REC_CFG.QUEUE r)) 3 r
  s.updNvRec r (fun x => { x with cur := [], closing := false, final := false, gaps := [], out := [], flush := none })

/-- The live members of a recording. -/
def State.liveOf (s : State) (r : Nat) : List Nat := (List.range 8).filter (fun j => bit (s.get (R.NVME_REC_STAT.LIVE r)) j)

/-- The barges of an open chunk that no member can take any more are lost. -/
def State.dropCur (s : State) (r : Nat) : State :=
  let x := s.nvRec r
  let s := s.updNvRec r (fun x => { x with cur := [], closing := false, next := if x.cur.isEmpty then x.next else x.next + 1 })
  if x.cur.isEmpty then s
  else (s.showNext r).countLost r ⟨x.next, x.last.getD 0, 0, [], [], cellEnds 64 x.cur, [], []⟩

/-- One move of a recording: the open chunk written when it is to be closed, a barge taken, or a stop brought forward; none when it
has nothing to do. -/
def State.recMove (s : State) (r : Nat) : Option State :=
  let x := s.nvRec r
  let st := s.recState r
  let q := s.get (R.NVME_REC_CFG.QUEUE r)
  match st with
  | 1 => match s.turn r with
    | none => none
    | some j =>
      if s.memberFull r j then some ((s.put (R.NVME_REC_STAT.STATE r) 2).raiseInst 258 r)
      else if 4 ≤ x.outOn j then none
      else if x.closing then some (s.writeChunk r j)
      else match s.untaken? q with
        | none => none
        | some b =>
          if s.chunkFits r b.barge || (x.cur.isEmpty && x.gaps.isEmpty) then some (s.takeBarge r q b)
          else some (s.writeChunk r j)
  | 3 =>
    if x.closing then match s.turn r with
      | none => some (s.dropCur r)
      | some j => if s.memberFull r j then some (s.dropCur r) else if 4 ≤ x.outOn j then none else some (s.writeChunk r j)
    else if !x.out.isEmpty then none
    else match x.flush with
      | none =>
        let ls := s.liveOf r
        let s := ls.foldl (fun s j => s.nvSend j 0x00 0 0 []) s
        some (s.updNvRec r (fun x => { x with flush := some (ls.map (fun j => (j, s.adv))) }))
      | some [] => some (s.recOff r)
      | some _ => none
  | _ => none

/-- A recording's moves, as many as it can make. -/
def State.recRun (s : State) (r : Nat) : Nat → State
  | 0 => s
  | n + 1 => match s.recMove r with
    | some s => s.recRun r n
    | none => s

/-- A recording does what it can. -/
def State.recPump (s : State) (r : Nat) : State :=
  if s.unitsBarred && s.on (R.NVME_REC_CFG.EN r) then s else
  s.recRun r (2 * (s.queue (s.get (R.NVME_REC_CFG.QUEUE r))).barges.length + 16)

/-- CELL_VISIBLE (R423, R442–R447): the next written cell of queue `q` becomes visible to its consumer; a recording takes the barge
that it completes. -/
def execCellVisible (q : Fin 4096) (s : State) : Out :=
  let s := s.updQueue q.val (fun qu => { qu with
    barges := updFirst (fun b => b.visible < b.total) (fun b => { b with visible := b.visible + 1 }) qu.barges })
  .next (if s.get (R.QUEUE_STAT.CONSUMER q.val) = 3 then s.recPump (s.queue q.val).binder else s)

/-- CHUNK_CLOSE_TIMER (R442, R443): CLOSE_US after its first barge the open chunk of a recording closes and is written. -/
def execChunkCloseTimer (r : Fin 8) (s : State) : Out :=
  let r := r.val
  let x := s.nvRec r
  let us := s.get (R.NVME_REC_CLOSE.CLOSE_US r)
  if s.recState r = 1 ∧ us ≠ 0 ∧ !x.cur.isEmpty ∧ x.firstAt + 1000 * us ≤ s.adv then
    .next ((s.updNvRec r (fun x => { x with closing := true })).recPump r)
  else .next s

/-- WRITE_COMPLETION (R425, R445–R447): Write `i` of chunk `chunk` of a recording completes, well or with an error status: its cells are
freed, or it is retried, or its chunk is lost. -/
def execWriteCompletion (r : Fin 8) (chunk i : Nat) (ok : Bool) (s : State) : Out :=
  let r := r.val
  match (s.nvRec r).out.find? (fun c => c.number == chunk) with
  | none => .next s
  | some c => match c.writes.find? (fun w => w.index == i) with
    | none => .next s
    | some w =>
      let upd := fun (s : State) (f : NvChunk → NvChunk) =>
        s.updNvRec r (fun x => { x with out := updFirst (fun c => c.number == chunk) f x.out })
      if ok then
        let mine := fun (e : Nat × Nat) => decide (w.off < e.2 ∧ e.2 ≤ w.off + w.len)
        let s := upd s (fun c => { c with
          writes := c.writes.filter (fun w => w.index != i), cells := c.cells.filter (fun e => !mine e) })
        let s := s.updNvRec r (fun x => { x with out := x.out.filter (fun c => !c.writes.isEmpty) })
        .next ((s.freeCells ((c.cells.filter mine).map (fun e => e.1))).recPump r)
      else if w.tries < s.get R.NVME_CTL.RETRY then
        let s := upd s (fun c => { c with
          writes := updFirst (fun w => w.index == i) (fun w => { w with tries := w.tries + 1, at_ := s.adv }) c.writes })
        .next (s.sendWrite r c w)
      else .next (((s.satInc (R.NVME_DRIVE_ERR.IOERR (s.slotDrive c.slot))).loseChunk r c).recPump r)

/-! ### Read-back (R450–R452) -/

/-- The destination of an NVME_READ as the move engine names one (Table 12-10). -/
def readDest (o : Order) : RingEntry := { index := 0, bytes := leBytes 16 0 ++ (o.bytes.drop 48).take 8 ++ leBytes 40 0 }

/-- R406, R450: whether DEST is refused. -/
def State.destBad (s : State) (o : Order) : Bool :=
  let e := readDest o
  o.u 48 8 % 64 ≠ 0 || (o.u 44 1 == 1 && (match e.space with
    | 0x01 => !s.storePound e.devIndex || s.poundEff e.devIndex < e.devOff + o.u 56 4
    | 0x02 => e.devIndex ≠ 0 || cacheBytes < e.devOff + o.u 56 4
    | _ => true))

/-- An NVME_READ's record, read and changed. -/
def State.nvRead? (s : State) (r : OrderRef) : Option NvRead := s.nvme.reads.find? (fun x => x.order == r)
def State.setNvRead (s : State) (x : NvRead) : State :=
  { s with nvme := { s.nvme with reads := updFirst (fun y => y.order == x.order) (fun _ => x) s.nvme.reads } }

/-- An NVME_READ's end, with what it has written and filled. -/
def State.endRead (s : State) (o : Order) (x : NvRead) (status : Nat) : State :=
  let s := { s with nvme := { s.nvme with reads := s.nvme.reads.filter (fun y => y.order != x.order) } }
  s.retireWith o status 0 ([(56, leBytes 4 x.written)] ++ (if o.u 16 1 = 1 then [(60, leBytes 4 (min x.filled (2 ^ 32 - 1)))] else []))

/-- Bytes written to the destination, up to MAXLEN; the answer says whether some did not fit. -/
def State.readOut (s : State) (o : Order) (x : NvRead) (bs : List Byte) : Bool × NvRead × State :=
  let room := o.u 56 4 - x.written
  let out := bs.take room
  let s := if out.isEmpty then s
    else if o.u 44 1 = 0 then s.writeHost (o.u 48 8 + x.written) out []
    else s.devWrite (readDest o) x.written out
  (decide (room < bs.length), { x with written := x.written + out.length }, s)

/-- Elements of `w` bits packed from the lowest byte on; with 12 bits an odd last one is kept back. -/
def packElems (w : Nat) : List Nat → List Byte × List Nat
  | [] => ([], [])
  | [a] => if w = 12 then ([], [a]) else (leBytes (w / 8) a, [])
  | a :: b :: t =>
    let r := packElems w t
    ((if w = 12 then leBytes 3 (a % 4096 + b % 4096 * 4096) else leBytes (w / 8) a ++ leBytes (w / 8) b) ++ r.1, r.2)

/-- Samples written, those of a 12-bit format in whole pairs. -/
def State.samplesOut (s : State) (o : Order) (x : NvRead) (w : Nat) (es : List Nat) : Bool × NvRead × State :=
  let r := packElems w (x.carry ++ es)
  s.readOut o { x with carry := r.2 } r.1

/-- Zero samples for what is missing: counted, and written as far as MAXLEN allows. -/
def State.fillOut (s : State) (o : Order) (x : NvRead) (w n : Nat) : Bool × NvRead × State :=
  if n = 0 then (false, x, s)
  else
    let room := (o.u 56 4 - x.written) * 8 / w + 2
    s.samplesOut o { x with filled := x.filled + min n room } w (List.replicate (min n room) 0)

/-- The bits of an element of a format (Table 10-11). -/
def elemBits (fmt : Nat) : Nat := match fmt with
  | 0x01 => 12
  | 0x02 => 16
  | 0x03 => 32
  | _ => 40

/-- R451: the samples of one SAMPLES barge of the stream within [START, END): what is missing before them is filled, then they follow. The
sample numbers tell what is missing, but for numbers that begin anew, where the stamps do. -/
def State.takeSamples (s : State) (o : Order) (x : NvRead) (h pay : List Byte) : Bool × NvRead × State :=
  let f := field h 32 8
  let num := (samplePeriod f (field h 6 2)).1
  let den := (samplePeriod f (field h 6 2)).2
  let w := elemBits (bits f 0 8)
  let t := ofTime96 (field h 16 12)
  let n := bits (field h 40 8) 32 32
  let start := ofTime96 (o.u 20 12)
  let stop := ofTime96 (o.u 32 12)
  let i0 := ceilDiv ((start - t) * den) num
  let i1 := min n (ceilDiv ((stop - t) * den) num)
  if i1 ≤ i0 then (false, x, s)
  else
    let number := field h 48 8 + i0
    let t0 := t + i0 * num / den
    let gap :=
      if x.fmt.isNone then (t0 - start) * den / num
      else if x.next ≤ number then number - x.next
      else ((t0 - x.tend) * den + num / 2) / num
    let all := (List.range n).map (fun i => bits (leNat pay) (i * w) w)
    let es := (all.drop i0).take (i1 - i0)
    let x := { x with fmt := some (w, num, den), next := field h 48 8 + i1, tend := t + i1 * num / den }
    let r := s.fillOut o x w gap
    if r.1 then r else r.2.2.samplesOut o r.2.1 w es

/-- One barge of a chunk: its samples, if it is data of the converter the order names. -/
def State.takeReadBarge (s : State) (o : Order) (x : NvRead) (h data : List Byte) : Bool × NvRead × State :=
  if field h 0 2 = 1 ∧ field h 4 2 = o.u 18 2 then s.takeSamples o x h data else (false, x, s)

/-- R444, R451: the barges of a chunk from an offset on; one whose CRC fails ends its use. -/
def State.takeChunk (s : State) (o : Order) (x : NvRead) (bytes : List Byte) : Nat → Bool × NvRead × State
  | 0 => (false, x, s)
  | n + 1 =>
    let h := bytes.take 64
    if h.length < 64 ∨ field h 60 4 ≠ (crc32c (h.take 60)).toNat then (false, x, s)
    else
      let len := field h 12 4
      let r := s.takeReadBarge o x h ((bytes.drop 64).take len)
      if r.1 then r else r.2.2.takeChunk o r.2.1 (bytes.drop (64 + ceilDiv len 64 * 64)) n

/-- What is left of the range is filled, and the last sample written out. -/
def State.finishExtract (s : State) (o : Order) (x : NvRead) : State :=
  let done := fun (r : Bool × NvRead × State) => r.2.2.endRead o r.2.1 (if r.1 then 0x25 else if r.2.1.filled = 0 then stOk else stIncomplete)
  match x.fmt with
  | none => s.endRead o x stIncomplete
  | some (w, num, den) =>
    let r := s.fillOut o x w (ceilDiv ((ofTime96 (o.u 32 12) - x.tend) * den) num)
    if r.1 then done r
    else if r.2.1.carry.isEmpty then done r
    else
      let y := r.2.1
      done (r.2.2.readOut o { y with carry := [] } (y.carry.flatMap (fun a => leBytes 2 a)))

/-- R444: a chunk header read back, if it is one: T_REC, CHUNK, REC, BYTES, BARGES, FIRST_STAMP. -/
def readHeader (bs : List Byte) : Option (Nat × Nat × Nat × Nat × Nat × Nat) :=
  if field bs 0 4 = 0x31434B49 ∧ field bs 60 4 = (crc32c (bs.take 60)).toNat then
    some (field bs 16 12, field bs 8 8, field bs 6 1, field bs 28 4, field bs 32 4, ofTime96 (field bs 40 12))
  else none

/-- The chunk position of place `i` in CHUNK order. -/
def NvScan.place (c : NvScan) (i : Nat) : Nat := (c.base + i) % max 1 c.count

/-- The position whose header a member's search reads next; none once it has been found. -/
def NvScan.probe (c : NvScan) : Option Nat := match c.phase with
  | 0 => some 0
  | 1 => some ((c.lo + c.hi) / 2)
  | 2 => some (c.lo + 1)
  | 3 => some (c.place ((c.lo + c.hi) / 2))
  | _ => none

/-- The search passes on where its bounds have met. -/
def NvScan.settle (c : NvScan) : NvScan :=
  let c := if c.phase = 1 ∧ c.hi ≤ c.lo + 1 then
      (if c.lo + 1 < c.count then { c with phase := 2 } else { c with phase := 3, base := 0, n := c.count, lo := 0, hi := c.count })
    else c
  if c.phase = 3 ∧ c.hi ≤ c.lo + 1 then { c with phase := 4, idx := c.lo } else c

/-- R451: what a header read during a member's search tells. -/
def State.scanHeader (s : State) (start : Nat) (trec : Option Nat) (c : NvScan) (bs : List Byte) : Option Nat × NvScan :=
  let h := (readHeader bs).filter (fun h => trec.all (fun t => t == h.1))
  match c.phase with
  | 0 => match h with
    | none => (trec, { c with phase := 5 })
    | some h =>
      let size := s.chunkSize (h.2.2.1 % 8)
      let n := s.positions c.slot size
      (some h.1, { c with phase := 1, lo := 0, hi := n, count := n, size := size, first := h.2.1 }.settle)
  | 1 =>
    let mid := (c.lo + c.hi) / 2
    (trec, (if h.any (fun (h : Nat × Nat × Nat × Nat × Nat × Nat) => decide (c.first ≤ h.2.1)) then { c with lo := mid } else { c with hi := mid }).settle)
  | 2 =>
    if h.any (fun (h : Nat × Nat × Nat × Nat × Nat × Nat) => decide (h.2.1 < c.first)) then
      (trec, { c with phase := 3, base := c.lo + 1, n := c.count, lo := 0, hi := c.count }.settle)
    else (trec, { c with phase := 3, base := 0, n := c.lo + 1, lo := 0, hi := c.lo + 1 }.settle)
  | 3 =>
    let mid := (c.lo + c.hi) / 2
    let early := h.any (fun (h : Nat × Nat × Nat × Nat × Nat × Nat) => h.2.2.2.2.1 != 0 && decide (h.2.2.2.2.2 ≤ start))
    (trec, (if early then { c with lo := mid } else { c with hi := mid }).settle)
  | _ => (trec, c)

/-- A member searched: the header at its next place, which ends it where it begins at END or later. -/
def placeHeader (stop : Nat) (trec : Option Nat) (c : NvScan) (bs : List Byte) : NvScan :=
  match (readHeader bs).filter (fun h => trec.all (fun t => t == h.1)) with
  | none => { c with idx := c.idx + 1 }
  | some h => if stop ≤ h.2.2.2.2.2 then { c with phase := 5 } else { c with head := some (h.2.1, h.2.2.2.1) }

/-- The member whose chunk comes next. -/
def nextChunk (cs : List NvScan) : Option NvScan :=
  cs.foldl (fun (b : Option NvScan) c => match c.head, b.bind (fun b => b.head) with
    | some h, some g => if h.1 < g.1 then some c else b
    | some _, none => some c
    | none, _ => b) none

/-- R451: the Read that an NVME_READ issues next, as (slot, LBA, NLB); none when nothing is left to read. -/
def State.readNext (s : State) (o : Order) (x : NvRead) : Option (Nat × Nat × Nat) :=
  if o.u 16 1 = 0 then
    let j := o.u 17 1
    if x.done = o.u 28 4 then none else some (j, o.u 20 8 + x.done, min (s.maxLbas j) (o.u 28 4 - x.done))
  else
    match x.scans.find? (fun c => c.probe.isSome) with
    | some c => some (c.slot, c.probe.getD 0 * (c.size / s.lbaSize c.slot), 1)
    | none => match x.scans.find? (fun c => c.phase == 4 && c.head.isNone && decide (c.idx < c.n)) with
      | some c => some (c.slot, c.place c.idx * (c.size / s.lbaSize c.slot), 1)
      | none => match nextChunk x.scans with
        | none => none
        | some c =>
          let l := s.lbaSize c.slot
          let need := ceilDiv ((c.head.getD (0, 0)).2) l
          let got := x.chunk.length / l
          some (c.slot, c.place c.idx * (c.size / l) + got, min (s.maxLbas c.slot) (max 1 need - got))

/-- R451, R452: an NVME_READ goes on: a cancel stops it, its end retires it, or its next Read is issued. -/
def State.readStep (s : State) (o : Order) (x : NvRead) : State :=
  if o.phase = .cancelling then s.endRead o x stPartial
  else match s.readNext o x with
    | none => if o.u 16 1 = 0 then s.endRead o x stOk else s.finishExtract o x
    | some c =>
      if !s.slotReady c.1 then s.endRead o x 0x24
      else (s.setNvRead { x with cmd := some c, tries := 0, at_ := s.adv }).nvSend c.1 0x02 c.2.1 c.2.2 []

/-- A Read's data taken in: copied, or a header of the search, or a part of a chunk, whose barges are used when it is whole. -/
def State.readTake (s : State) (o : Order) (x : NvRead) (c : Nat × Nat × Nat) (data : List Byte) : State :=
  let x := { x with cmd := none }
  let bs := (data ++ List.replicate (c.2.2 * s.lbaSize c.1) 0#8).take (c.2.2 * s.lbaSize c.1)
  let goOn := fun (r : Bool × NvRead × State) =>
    if r.1 then r.2.2.endRead o r.2.1 0x25 else (r.2.2.setNvRead r.2.1).readStep o r.2.1
  if o.u 16 1 = 0 then goOn (s.readOut o { x with done := x.done + c.2.2 } bs)
  else
    let start := ofTime96 (o.u 20 12)
    let stop := ofTime96 (o.u 32 12)
    match x.scans.find? (fun c => c.probe.isSome) with
    | some k =>
      let r := s.scanHeader start x.trec k bs
      goOn (false, { x with trec := r.1, scans := updFirst (fun c => c.slot == k.slot) (fun _ => r.2) x.scans }, s)
    | none => match x.scans.find? (fun c => c.phase == 4 && c.head.isNone && decide (c.idx < c.n)) with
      | some k =>
        goOn (false, { x with scans := updFirst (fun c => c.slot == k.slot) (fun c => placeHeader stop x.trec c bs) x.scans }, s)
      | none => match nextChunk x.scans with
        | none => goOn (false, x, s)
        | some k =>
          let got := x.chunk ++ bs
          let used := (k.head.getD (0, 0)).2
          if got.length < used then goOn (false, { x with chunk := got }, s)
          else
            let step := fun (c : NvScan) => { c with idx := c.idx + 1, head := none }
            let x := { x with chunk := [], scans := updFirst (fun c => c.slot == k.slot) step x.scans }
            goOn (s.takeChunk o x ((got.take used).drop 64) (used / 64))

/-- Table 14-3's checks of NVME_READ. -/
def State.nvReadChecks (s : State) (o : Order) : List (Nat × Bool) :=
  let raw := o.u 16 1 == 0
  [chk 16 (1 < o.u 16 1), (17, if raw then decide (7 < o.u 17 1) else o.u 17 1 == 0)]
    ++ (if raw then reserved o 18 2 ++ reserved o 32 12
        else [(20, badTime o 20), (32, badTime o 32 || decide (ofTime96 (o.u 32 12) ≤ ofTime96 (o.u 20 12)))])
    ++ [chk 44 (1 < o.u 44 1)] ++ reserved o 45 3 ++ [(48, s.destBad o), chk 56 (o.u 56 4 % 64 ≠ 0)]

/-- NVME_READ (R450–R452): a recording is read back, its LBAs copied or the samples of one stream extracted. -/
def State.nvmeReadAccept (o : Order) (s : State) : State :=
  s.validate o (s.nvReadChecks o) (fun s =>
    let raw := o.u 16 1 == 0
    let slots := if raw then [o.u 17 1] else (List.range 8).filter (fun j => bit (o.u 17 1) j)
    if !slots.all (fun j => s.slotReady j) then s.retire o stState
    else if raw && decide (s.slotCap (o.u 17 1) < o.u 20 8 + o.u 28 4) then s.retire o stBadParam 20
    else
      let x : NvRead := { order := o.ref, scans := if raw then [] else slots.map (fun j => { slot := j }) }
      let s := s.updOrder o.ref (fun o => { o with phase := .running })
      { s with nvme := { s.nvme with reads := s.nvme.reads ++ [x] } }.readStep o x)

/-- The arm of that order. -/
def execNvmeRead (s : State) : Out := .next (s.accept 0x0901 State.nvmeReadAccept)

/-- The parameter checks of NVME_TRIM (R387): each field's byte offset, and whether the field is invalid. -/
def nvmeTrimChecks (o : Order) : List (Nat × Bool) :=
  [chk 16 (7 < o.u 16 1)] ++ reserved o 17 3 ++ reserved o 28 4 ++ reserved o 40 24

/-- NVME_TRIM (R450, R452): LBAs of a namespace slot are deallocated. -/
def State.nvmeTrimAccept (o : Order) (s : State) : State :=
  s.validate o (nvmeTrimChecks o) (fun s =>
    let j := o.u 16 1
    if !s.slotReady j || s.memberOf j then s.retire o stState
    else if s.slotCap j < o.u 20 8 + o.u 32 8 then s.retire o stBadParam 20
    else
      let s := (s.updOrder o.ref (fun o => { o with phase := .running })).nvSend j 0x09 (o.u 20 8) (o.u 32 8) []
      { s with nvme := { s.nvme with trims := s.nvme.trims ++ [(o.ref, s.slotDrive j, s.adv)] } })

/-- The arm of that order. -/
def execNvmeTrim (s : State) : Out := .next (s.accept 0x0902 State.nvmeTrimAccept)

/-- R452: a cancel of an NVME_READ or NVME_TRIM whose first command has been issued: it stops at its next Read; a deallocation is one
command and runs to its end. -/
def State.nvmeCancel (s : State) (o : Order) : State := s.updOrder o.ref (fun o => { o with phase := .cancelling })

/-- A Read of an NVME_READ that has failed finally. -/
def State.readFailed (s : State) (o : Order) (x : NvRead) (c : Nat × Nat × Nat) : State :=
  (s.satInc (R.NVME_DRIVE_ERR.IOERR (s.slotDrive c.1))).endRead o x 0x24

/-- NVME_COMMAND_COMPLETION (R448, R451, R452): a Read, Flush or Dataset Management command completes, well or with an error status. -/
def execNvmeCommandCompletion (c : NvmeDone) (ok : Bool) (s : State) : Out :=
  match c with
  | .read ring index data => match s.nvRead? (ring, index), s.order? (ring, index) with
    | some x, some o => match x.cmd with
      | some c =>
        if ok then .next (s.readTake o x c data)
        else if x.tries < s.get R.NVME_CTL.RETRY then
          .next ((s.setNvRead { x with tries := x.tries + 1, at_ := s.adv }).nvSend c.1 0x02 c.2.1 c.2.2 [])
        else .next (s.readFailed o x c)
      | none => .next s
    | _, _ => .next s
  | .trim ring index => match takeFirst (fun (x : OrderRef × Nat × Nat) => x.1 == (ring, index)) s.nvme.trims with
    | some (x, rest) =>
      let s := { s with nvme := { s.nvme with trims := rest } }
      let s := if ok then s else s.satInc (R.NVME_DRIVE_ERR.IOERR x.2.1)
      let part := (s.order? x.1).any (fun o => o.phase == .cancelling)
      .next (s.retireRef x.1 (if !ok then 0x24 else if part then stPartial else stOk) [])
    | none => .next s
  | .flush r slot => match (s.nvRec r.val).flush with
    | some l =>
      if l.any (fun e => e.1 == slot.val) then
        let s := if ok then s else s.satInc (R.NVME_DRIVE_ERR.IOERR (s.slotDrive slot.val))
        .next ((s.updNvRec r.val (fun x => { x with flush := some (l.filter (fun e => e.1 != slot.val)) })).recPump r.val)
      else .next s
    | none => .next s

/-! ### Drives (R436–R438, Table 14-1) -/

/-- R446: every outstanding command of a drive ends unsuccessfully. -/
def State.endCommands (s : State) (n : Nat) : State :=
  let on := fun (s : State) (j : Nat) => s.slotDrive j == n
  let s := (List.range 8).foldl (fun s r =>
    let mine := (s.nvRec r).out.filter (fun c => on s c.slot)
    let s := mine.foldl (fun s c =>
      (s.satInc (R.NVME_DRIVE_ERR.IOERR n) c.writes.length).loseChunk r c) s
    let s := s.updNvRec r (fun x => { x with flush := x.flush.map (fun l => l.filter (fun e => !on s e.1)) })
    s.recPump r) s
  let s := (s.nvme.reads.filter (fun x => x.cmd.any (fun c => on s c.1))).foldl (fun s x => match s.order? x.order, x.cmd with
    | some o, some c => s.readFailed o x c
    | _, _ => s) s
  let gone := s.nvme.trims.filter (fun x => x.2.1 == n)
  let s := { s with nvme := { s.nvme with trims := s.nvme.trims.filter (fun x => x.2.1 != n) } }
  gone.foldl (fun s x => (s.satInc (R.NVME_DRIVE_ERR.IOERR n)).retireRef x.1 0x24 []) s

/-- Table 14-1: a READY drive enters RESET. -/
def State.driveReset (s : State) (n : Nat) : State :=
  let s := (s.put (R.NVME_DRIVE.STATE n) 4).satInc (R.NVME_DRIVE_ERR.RESETS n)
  (s.updNvDrive n (fun x => { x with since := s.adv })).endCommands n

/-- The enabled slots of a drive read FAILED (R440), and no recording writes to them any more (R442). -/
def State.failSlots (s : State) (n : Nat) : State :=
  (List.range 8).foldl (fun s j =>
    if s.on (R.NVME_SLOT.EN j) && s.slotDrive j == n then
      (List.range 8).foldl (fun (s : State) r => if bit (s.get (R.NVME_REC_STAT.LIVE r)) j then s.leaveRec r j else s)
        (s.put (R.NVME_SLOT.STATE j) 2)
    else s) s

/-- Table 14-1: a drive FAILED, for a reason: 0 its class, 1 its initialisation, 2 its re-initialisation. -/
def State.driveFailed (s : State) (n reason : Nat) : State :=
  ((s.put (R.NVME_DRIVE.STATE n) 5).failSlots n).raiseWith 257 n [n, reason]

/-- R439: admin commands sent to a drive. -/
def State.nvAdmin (s : State) (n : Nat) (cs : List NvAdmin) : State := cs.foldl (fun s c => s.send (.nvmeAdmin n c)) s

/-- R438, Table 14-1: the commands of an initialisation: Identify, and the creation of the I/O queue pair, which a controller re-initialised
needs anew. -/
def initCommands : List NvAdmin := [.identify 1, .identify 2, .identify 0, .setQueues, .createCq, .createSq]

/-- R437, Table 14-1: a drive held in PERST. -/
def State.driveGone (s : State) (n : Nat) : State :=
  let was := s.driveState n
  let s := if was = 3 then s.nvAdmin n [.deleteSq, .deleteCq] else s
  let s := s.setWord (R.NVME_DRIVE n) 0#32
  let s := (s.updNvDrive n (fun _ => {})).send (.level 5 n true s.time)
  if was = 0 then s else ((s.endCommands n).failSlots n)

/-- The drives of a port as its latched BIFUR splits it (R436). -/
def State.drivesOf (s : State) (d : Nat) : List Nat := (List.range (2 ^ (s.nvPort d).bifur)).map (fun k => 4 * d + k)

/-- R436, R437: a write of NVME_PORT(d): enabling latches its set-up and releases its drives from PERST. -/
def State.writeNvPort (s : State) (d : Nat) (w : Word) : State :=
  let was := s.on (R.NVME_PORT.EN d)
  let en := bit w.toNat 0
  let s := (s.plainWrite (R.NVME_PORT d) w).put (R.NVME_PORT.EN d) (b2n was)
  if en && !was then
    if bits w.toNat 1 2 = 3 then s
    else
      let r := bits w.toNat 3 3
      let s := (s.put (R.NVME_PORT.EN d) 1).updNvPort d { bifur := bits w.toNat 1 2, maxRate := if 1 ≤ r ∧ r ≤ 5 then r else 5, since := s.adv }
      (s.drivesOf d).foldl (fun s n => s.send (.level 5 n false s.time)) s
  else if !en && was then ((s.put (R.NVME_PORT.EN d) 0).drivesOf d).foldl (fun s n => s.driveGone n) (s.put (R.NVME_PORT.EN d) 0)
  else s

/-- NVME_PORT_ENABLE (R436–R438): a write of NVME_PORT(d) by a path. -/
def execNvmePortEnable (p : Path) (d : Fin 2) (w : Word) (s : State) : Out :=
  .next (s.gate p (R.NVME_PORT d.val) (fun s => s.retainWrite (R.NVME_PORT d.val) w) (fun s => s.writeNvPort d.val w))

/-- Whether a drive's port is enabled and has a link for it. -/
def State.driveFitted (s : State) (n : Nat) : Bool := s.on (R.NVME_PORT.EN (n / 4)) && (s.drivesOf (n / 4)).contains n

/-- A drive's link as trained: no wider than its part of the port and no faster than MAXRATE. -/
def State.setLink (s : State) (n width rate : Nat) : State :=
  let p := s.nvPort (n / 4)
  (s.put (R.NVME_DRIVE.WIDTH n) (min width (8 / 2 ^ p.bifur))).put (R.NVME_DRIVE.RATE n) (min rate p.maxRate)

/-- DRIVE_LINK_UP (R436, R438): the link of an ABSENT drive trains within 100 ms of its port's enable, or does not. -/
def execDriveLinkUp (n : Fin 8) (up : Bool) (width : Fin 9) (rate : Fin 6) (s : State) : Out :=
  let n := n.val
  if up ∧ s.driveFitted n ∧ s.driveState n = 0 ∧ s.adv ≤ (s.nvPort (n / 4)).since + 100000000 then
    .next ((s.put (R.NVME_DRIVE.STATE n) 1).setLink n width.val rate.val)
  else .next s

/-- DRIVE_INIT_DONE (R438–R440): the next end in a drive's enumeration and initialisation (Table 14-1). -/
def execDriveInitDone (n : Fin 8) (r : DriveInit) (s : State) : Out :=
  let n := n.val
  match r with
  | .class_ nvme =>
    if s.driveState n ≠ 1 then .next s
    else if nvme then .next ((s.put (R.NVME_DRIVE.STATE n) 2).updNvDrive n (fun x => { x with since := s.adv }))
    else .next (s.driveFailed n 0)
  | .ready capTo mdts ns =>
    if s.driveState n ≠ 2 then .next s
    else if (s.nvDrive n).since + min (capTo.toNat * 500000000) 30000000000 < s.adv then .next (s.driveFailed n 1)
    else
      let s := s.nvAdmin n initCommands
      let s := (s.put (R.NVME_DRIVE.STATE n) 3).put (R.NVME_DRIVE.NSCNT n) (min 15 ns.length)
      .next ((s.put (R.NVME_DRIVE.MDTS_KIB n) (min mdts 65535)).updNvDrive n (fun x => { x with ns := ns }))
  | .failed => if s.driveState n = 2 then .next (s.driveFailed n 1) else .next s

/-- R446: whether a command of a drive has been outstanding for TIMEOUT_MS. -/
def State.commandLate (s : State) (n : Nat) : Bool :=
  let late := fun (t : Nat) => decide (t + s.nvTimeout ≤ s.adv)
  (List.range 8).any (fun r =>
    (s.nvRec r).out.any (fun c => s.slotDrive c.slot == n && c.writes.any (fun w => late w.at_))
      || ((s.nvRec r).flush.getD []).any (fun e => s.slotDrive e.1 == n && late e.2))
    || s.nvme.reads.any (fun x => x.cmd.any (fun c => s.slotDrive c.1 == n) && late x.at_)
    || s.nvme.trims.any (fun x => x.2.1 == n && late x.2.2)

/-- DRIVE_COMMAND_TIMEOUT (R438, R446): a command of a READY drive has not completed within TIMEOUT_MS. -/
def execDriveCommandTimeout (n : Fin 8) (s : State) : Out :=
  if s.driveState n.val = 3 ∧ s.commandLate n.val then .next (s.driveReset n.val) else .next s

/-- DRIVE_LINK_DOWN (R438): the link of a READY drive goes down. -/
def execDriveLinkDown (n : Fin 8) (s : State) : Out :=
  if s.driveState n.val = 3 then .next ((s.driveReset n.val).setLink n.val 0 0) else .next s

/-- CONTROLLER_FATAL_STATUS (R438): a READY drive reports CSTS.CFS. -/
def execControllerFatalStatus (n : Fin 8) (s : State) : Out :=
  if s.driveState n.val = 3 then .next (s.driveReset n.val) else .next s

/-- The Writes and the Flush of recording `r` for a drive, issued now. -/
def State.reissueRec (s : State) (n r : Nat) : State :=
  let mine := fun (j : Nat) => s.slotDrive j == n
  let now := fun (c : NvChunk) => if mine c.slot then { c with writes := c.writes.map (fun w => { w with at_ := s.adv }) } else c
  let s := s.updNvRec r (fun x => { x with
    out := x.out.map now
    flush := x.flush.map (fun l => l.map (fun e => if mine e.1 then (e.1, s.adv) else e)) })
  let s := ((s.nvRec r).out.filter (fun c => mine c.slot)).foldl (fun s c => c.writes.foldl (fun s w => s.sendWrite r c w) s) s
  (((s.nvRec r).flush.getD []).filter (fun e => mine e.1)).foldl (fun s e => s.nvSend e.1 0x00 0 0 []) s

/-- The Reads for a drive, issued now. -/
def State.reissueReads (s : State) (n : Nat) : State :=
  (s.nvme.reads.filter (fun x => x.cmd.any (fun c => s.slotDrive c.1 == n))).foldl (fun s x => match x.cmd with
    | some c => (s.setNvRead { x with at_ := s.adv }).nvSend c.1 0x02 c.2.1 c.2.2 []
    | none => s) s

/-- The deallocations for a drive, issued now. -/
def State.reissueTrims (s : State) (n : Nat) : State :=
  let mine := s.nvme.trims.filter (fun x => x.2.1 == n)
  let s := { s with nvme := { s.nvme with trims := s.nvme.trims.map (fun x => if x.2.1 = n then (x.1, n, s.adv) else x) } }
  mine.foldl (fun s x => match s.order? x.1 with
    | some o => s.nvSend (o.u 16 1) 0x09 (o.u 20 8) (o.u 32 8) []
    | none => s) s

/-- The commands of a drive that waited while it was in RESET are issued now. -/
def State.reissue (s : State) (n : Nat) : State :=
  (((List.range 8).foldl (fun s r => s.reissueRec n r) s).reissueReads n).reissueTrims n

/-- DRIVE_RESET_DONE (R438): a drive in RESET is re-initialised within 5 s, its link as trained, or is FAILED. -/
def execDriveResetDone (n : Fin 8) (ok : Bool) (width : Fin 9) (rate : Fin 6) (s : State) : Out :=
  let n := n.val
  if s.driveState n ≠ 4 ∨ !s.lkUp 2 then .next s
  else
    let isOver := (s.nvDrive n).since + 5000000000 < s.adv
    if ok ∧ !isOver then
      .next ((((s.put (R.NVME_DRIVE.STATE n) 3).nvAdmin n initCommands).setLink n width.val rate.val).reissue n)
    else .next ((s.driveFailed n 2).endCommands n)

/-- NVME_DMA_ACCESS (R438): an access of a drive outside the windows assigned to it. -/
def execNvmeDmaAccess (n : Fin 8) (s : State) : Out :=
  if s.driveState n.val = 0 then .next s else .next ((s.send (.unsupported (8 + n.val))).raiseInst 256 n.val)

/-! ### Namespace slots (R440) -/

/-- R440: whether a slot may be enabled for a drive; with the namespace it names. -/
def State.slotTarget (s : State) (j d : Nat) : Option NvmeNs :=
  let id := s.slotNsid j
  let taken := (List.range 8).any (fun k => k != j && s.on (R.NVME_SLOT.EN k) && s.slotDrive k == d && s.slotNsid k == id)
  if s.driveState d ≠ 3 || taken then none
  else ((s.nvDrive d).ns.find? (fun x => x.nsid.toNat == id)).filter (fun x => x.format.val ≠ 2)

/-- R440: a write of NVME_SLOT(j). -/
def State.writeNvSlot (s : State) (j : Nat) (w : Word) : State :=
  let was := s.on (R.NVME_SLOT.EN j)
  let en := bit w.toNat 0
  let d := bits w.toNat 1 3
  let s := if bit w.toNat 7 then s.put (R.NVME_SLOT.CFG_ERR j) 0 else s
  let err := s.put (R.NVME_SLOT.CFG_ERR j) 1
  if was then
    let s := if d = s.slotDrive j then s else err
    if en then s
    else if s.memberOf j then err
    else (s.put (R.NVME_SLOT.EN j) 0).put (R.NVME_SLOT.STATE j) 0
  else
    let s := s.put (R.NVME_SLOT.DRIVE j) d
    if !en then s
    else match s.slotTarget j d with
      | none => s.put (R.NVME_SLOT.CFG_ERR j) 1
      | some x =>
        let s := ((s.put (R.NVME_SLOT.EN j) 1).put (R.NVME_SLOT.STATE j) 1).put (R.NVME_SLOT.LBAS j) x.format.val
        (s.put (R.NVME_SLOT_CAP_LO.LBAS_LO j) x.cap.toNat).put (R.NVME_SLOT_CAP_HI.LBAS_HI j) (x.cap.toNat / 2 ^ 32)

/-- NVME_SLOT_ENABLE (R440): a write of NVME_SLOT(j) by a path. -/
def execNvmeSlotEnable (p : Path) (j : Fin 8) (w : Word) (s : State) : Out :=
  .next (s.gate p (R.NVME_SLOT j.val) (fun s => s.retainWrite (R.NVME_SLOT j.val) w) (fun s => s.writeNvSlot j.val w))

/-- A write of NVME_SLOT_NSID(j), refused while the slot is enabled. -/
def State.writeNvNsid (s : State) (j : Nat) (w : Word) : State :=
  if s.on (R.NVME_SLOT.EN j) then s.put (R.NVME_SLOT.CFG_ERR j) 1 else s.plainWrite (R.NVME_SLOT_NSID j) w

/-! ### Recordings (R441, R448) -/

/-- R441: whether an enable is refused for its members. -/
def State.membersBad (s : State) (r : Nat) : Bool :=
  let ms := (List.range 8).filter (fun j => bit (s.get (R.NVME_REC_CFG.MEMBERS r)) j)
  ms.isEmpty || ms.any (fun j => !s.slotReady j || s.memberOf j || s.chunkSize r % s.lbaSize j ≠ 0)

/-- R441: the recording begins: T_REC, chunk 0, position 0 of every member. -/
def State.startRec (s : State) (r : Nat) : State :=
  let t := toTime96 s.time
  let s := ((s.put (R.NVME_REC_CFG.EN r) 1).put (R.NVME_REC_STAT.STATE r) 1).put (R.NVME_REC_STAT.LIVE r) (s.get (R.NVME_REC_CFG.MEMBERS r))
  let s := (s.put (R.NVME_REC_TREC0.T_LO r) t).put (R.NVME_REC_TREC1.T_MID r) (t / 2 ^ 32)
  let s := s.put (R.NVME_REC_TREC2.T_HI r) (t / 2 ^ 64)
  let s := (s.put (R.NVME_REC_CHUNK_LO.NEXT_LO r) 0).put (R.NVME_REC_CHUNK_HI.NEXT_HI r) 0
  (s.updNvRec r (fun _ => { trec := s.time })).recPump r

/-- R448: EN cleared: the open chunk closes as the LAST. -/
def State.stopRec (s : State) (r : Nat) : State :=
  let s := s.put (R.NVME_REC_CFG.EN r) 0
  if s.recState r = 0 ∨ s.recState r = 3 then s
  else ((s.put (R.NVME_REC_STAT.STATE r) 3).updNvRec r (fun x => { x with closing := true, final := true })).recPump r

/-- R424, R441, R448: a write of NVME_REC_CFG(r). -/
def State.writeRecCfg (s : State) (r : Nat) (w : Word) : State :=
  let en := bit w.toNat 0
  let busy := s.on (R.NVME_REC_CFG.EN r) || s.recState r ≠ 0
  let err := fun (s : State) => s.put (R.NVME_REC_STAT.CFG_ERR r) 1
  let same := setBits (s.word (R.NVME_REC_CFG r)).toNat 0 1 0 = w.toNat % 2 ^ 28 / 256 * 256 + w.toNat % 16 / 2 * 2
  if busy then
    let s := if same then s else err s
    if en then (if s.on (R.NVME_REC_CFG.EN r) then s else err s)
    else if s.on (R.NVME_REC_CFG.EN r) then s.stopRec r
    else s
  else
    let s := (s.plainWrite (R.NVME_REC_CFG r) w).put (R.NVME_REC_CFG.EN r) 0
    if !en then s
    else if s.membersBad r then err s
    else match s.bindQueue? (s.get (R.NVME_REC_CFG.QUEUE r)) 3 r with
      | none => err s
      | some s => s.startRec r

/-- RECORDING_ENABLE (R424, R441): a write of NVME_REC_CFG(r) by a path. -/
def execRecordingEnable (p : Path) (r : Fin 8) (w : Word) (s : State) : Out :=
  .next (s.gate p (R.NVME_REC_CFG r.val) (fun s => s.retainWrite (R.NVME_REC_CFG r.val) w) (fun s => s.writeRecCfg r.val w))

/-- RECORDING_STOP (R443, R448): a write that clears EN of NVME_REC_CFG(r) by a path. -/
def execRecordingStop (p : Path) (r : Fin 8) (s : State) : Out :=
  .next (s.gateField p (R.NVME_REC_CFG.EN r.val) 0 (fun s => s.stopRec r.val))

/-- A write of NVME_REC_CLOSE(r), refused while the recording is enabled or stopping. -/
def State.writeRecClose (s : State) (r : Nat) (w : Word) : State :=
  if s.on (R.NVME_REC_CFG.EN r) || s.recState r == 3 then s.put (R.NVME_REC_STAT.CFG_ERR r) 1 else s.plainWrite (R.NVME_REC_CLOSE r) w

/-- R448: a forced power-down abandons the outstanding Writes: their chunks are lost, and the recording is OFF. -/
def State.forceRec (s : State) (r : Nat) : State :=
  if s.recState r = 0 then s
  else
    let s := s.put (R.NVME_REC_CFG.EN r) 0
    let s := (s.nvRec r).out.foldl (fun s c => s.countLost r c) s
    (s.dropCur r).recOff r

end Machine
end Sys2Proof
end

