-- ==== Sys2Proof/Machine/Clocks.lean ====
section
/-!
DEFINITION. Clocks (R557–R568, R581, R582): REFCLK and the AON clock, PLL lock, clock outputs, the sweep synthesizer, FS_SET.

Marked choices (log entries): DEDUCED 84, 149. Each entry of notes/assumptions says safe or unsafe.
-/

namespace Sys2Proof
namespace Machine

/-! ### PLL lock (R560, R67, R68, R471) -/

/-- The PLLs as CLK_PLL numbers them. -/
def pllFpll : Nat := 0
def pllSws : Nat := 4

/-- R67, R68: what SPLL p's loss of lock does to its converters and their generators; CONV_CNT_INVALID is raised once for the SPLL. -/
def State.spllLost (s : State) (p : Nat) : State :=
  let s := [2 * p, 2 * p + 1].foldl (fun s n =>
    let s := s.put (R.ADC_STATUS.CNT_VALID n) 0
    if 3 ≤ s.adcState n then ((s.adcForce n 3).clearArm n).put (R.ADC_STATUS.STATE n) 2 else s) s
  let s := [2 * p, 2 * p + 1].foldl (fun s g => s.sgAbort g 4) s
  s.raiseInst 2 p

/-- A PLL is no longer locked, for whatever reason: the sample clocks' converters follow R68. -/
def State.unlock (s : State) (k : Nat) : State :=
  if !s.on (R.CLK_PLL.LOCKED k) then s
  else
    let s := s.put (R.CLK_PLL.LOCKED k) 0
    if k = 1 ∨ k = 2 then s.spllLost (k - 1) else s

/-- R560: a loss of lock that the device did not cause itself. -/
def State.lockLost (s : State) (k : Nat) : State :=
  if !s.on (R.CLK_PLL.LOCKED k) then s else (((s.satInc (R.CLK_PLL.LOSSES k)).raiseInst 418 k).unlock k)

/-- The magnitude of a window's signed difference. -/
def diffMag (d : BitVec 8) : Nat := d.toInt.natAbs

/-- Whether a PLL may be powered now: in READY or RUN, with REFCLK, the synthesizer with its EN. -/
def State.pllPowered (s : State) (k : Nat) : Bool :=
  !s.lowPower && s.on R.CLK_REF.PRESENT && (k ≠ pllSws || s.on R.SWS_CTL.EN)

/-- A display head's pixel synthesizer declared locked (R636): the reconfiguration may go on. -/
def State.pixelLocked (s : State) (h : Nat) : State :=
  { s with pixelLock := if s.pixelLock.contains h then s.pixelLock else s.pixelLock ++ [h] }

/-- PLL_LOCK_ACQUIRED (R560, R636): three windows in a row within LOCK_TOL, with these differences, declare PLL `k` locked (5 + h: the
pixel synthesizer of head h). -/
def execPllLockAcquired (k : Fin 8) (first second diff : BitVec 8) (s : State) : Out :=
  let k := k.val
  if [first, second, diff].any (fun d => decide (s.get R.CLK_LOCKCFG.LOCK_TOL < diffMag d)) then .next s
  else if 5 ≤ k then .next (s.pixelLocked (k - 5))
  else if !s.pllPowered k then .next s
  else .next (((s.put (R.CLK_PLL.ON k) 1).put (R.CLK_PLL.LOCKED k) 1).put (R.CLK_PLL.DIFF k) diff.toNat)

/-- PLL_LOCK_LOSS (R67, R68, R471, R560, R568): two windows in a row beyond LOCK_TOL_LOSS, with these differences, declare a PLL
unlocked. -/
def execPllLockLoss (k : Fin 5) (first diff : BitVec 8) (s : State) : Out :=
  if [first, diff].any (fun d => decide (diffMag d ≤ s.get R.CLK_LOCKCFG.LOCK_TOL_LOSS)) || !s.on (R.CLK_PLL.LOCKED k.val) then .next s
  else .next ((s.put (R.CLK_PLL.DIFF k.val) diff.toNat).lockLost k.val)

/-! ### REFCLK (R517, R558, R559) -/

/-- REFCLK_LOSS (R517, R558, R559): REFCLK is declared absent: AON runs on the internal oscillator, the sample clocks and the synthesizer
lose lock. -/
def execRefclkLoss (s : State) : Out :=
  if !s.on R.CLK_REF.PRESENT then .next s
  else
    let s := ((s.put R.CLK_REF.PRESENT 0).put R.CLK_REF.AON_SRC 1).satInc R.CLK_REF.LOSSES
    let s := (s.put R.TIME_STATUS.REF_LOST 1).raiseInst 416 0
    let s := { s with clk := { s.clk with lostAt := some s.adv } }
    .next (((s.lockLost 1).lockLost 2).lockLost pllSws)

/-- REFCLK_RESTORED (R558, R559): REFCLK is declared present again; a device that entered STANDBY for want of it has a wake cause and
raises CLK_REF_RESTORED. -/
def execRefclkRestored (s : State) : Out :=
  if s.on R.CLK_REF.PRESENT then .next s
  else
    let s := ((s.put R.CLK_REF.PRESENT 1).put R.CLK_REF.AON_SRC 0).put R.TIME_STATUS.REF_LOST 0
    let back := s.clk.protective
    let s := { s with clk := {} }
    .next (if back then
        ({ s with power := { s.power with wake := some (s.power.wake.getD 6) } }).raiseInst 417 0
      else s)

/-! ### Clock outputs (R563, R564) -/

/-- R564: whether an enable is refused. -/
def State.clkoutBad (s : State) (o : Nat) : Bool :=
  let div := max 1 (s.get (R.CLKOUT_CFG.DIV o))
  let src := s.get (R.CLKOUT_CFG.SRC o)
  let mhz := match src with
    | 0 => 100
    | 1 => 100
    | 2 => s.get (R.CLK_FS.FS 0)
    | 3 => s.get (R.CLK_FS.FS 1)
    | _ => 25
  let by_ := if src = 0 ∨ 4 ≤ src then 1 else div
  let most := [1000, 400, 2000, 250].getD (s.get (R.CLKOUT_CFG.FMT o)) 0
  decide (most * by_ < mhz) || ((src == 2 || src == 3) && decide (div < 8))

/-- R564: a write of CLKOUT_CFG(o). -/
def State.writeClkout (s : State) (o : Nat) (w : Word) : State :=
  let was := s.on (R.CLKOUT_CFG.EN o)
  let s := if bit w.toNat 20 then s.put (R.CLKOUT_CFG.CFG_ERR o) 0 else s
  let err := fun (s : State) => s.put (R.CLKOUT_CFG.CFG_ERR o) 1
  let en := bit w.toNat 0
  let old := s.word (R.CLKOUT_CFG o)
  let same := bits w.toNat 1 8 = bits old.toNat 1 8 ∧ bits w.toNat 10 10 = bits old.toNat 10 10
  if was then
    let s := if same then s else err s
    if en then s else s.put (R.CLKOUT_CFG.EN o) 0
  else if 5 ≤ bits w.toNat 6 3 then err s
  else
    let s := (s.retainWrite (R.CLKOUT_CFG o) w).put (R.CLKOUT_CFG.EN o) 0
    if !en then s else if s.clkoutBad o then err s else s.put (R.CLKOUT_CFG.EN o) 1

/-- CLKOUT_ENABLE (R564): a write of CLKOUT_CFG(o) by a path. -/
def execClkoutEnable (p : Path) (o : Fin 4) (w : Word) (s : State) : Out :=
  .next (s.gateAction p (R.CLKOUT_CFG o.val) (fun s => s.writeClkout o.val w))

/-! ### The sweep synthesizer (R566–R568) -/

/-- The limits of 2 and 18 GHz in 2^-20 MHz. -/
def swsLow : Int := 2000 * 2 ^ 20
def swsHigh : Int := 18000 * 2 ^ 20

/-- A segment's start frequency, slope and duration in µs. -/
def State.segF (s : State) (i : Nat) : Int := s.get (R.SWS_F_LO.F_LO i) + s.get (R.SWS_F_HI.F_HI i) * 2 ^ 32
def State.segSlope (s : State) (i : Nat) : Int := sext 32 (s.get (R.SWS_SLOPE.SLOPE i))
def State.segDur (s : State) (i : Nat) : Nat := max 1 (s.get (R.SWS_DUR.DUR i))

/-- The frequency of SWS_OUT in 2^-20 MHz at an instant (2^-16 ns of the advance): along the ramp of the segment in force, held at the
limits, or as it was left. -/
def State.swsFreq (s : State) (t : Nat) : Int :=
  if s.on R.SWS_STATUS.RUNNING then
    let i := s.get R.SWS_STATUS.SEG
    clampInt swsLow swsHigh (s.segF i + s.segSlope i * ((t - s.sws.since : Nat) : Int) / (1000 * 65536))
  else s.sws.held

/-- Whether SWS_OUT is muted: unlocked, in the first 2 µs of a step with MUTE_SETTLE, or by a supply fault of its rails (R566, R568,
R578). -/
def State.swsMuted (s : State) : Bool :=
  !s.on (R.CLK_PLL.LOCKED pllSws) || (s.on R.SWS_CTL.MUTE_SETTLE && s.on R.SWS_STATUS.SETTLING)
    || (s.on R.GLOBAL_PROT.SUPPLY && [21, 22].contains (s.get R.GLOBAL_PROT.RAIL))

/-- R568: whether a RUN is refused. -/
def State.swsRefused (s : State) : Bool :=
  let adv := s.get R.SWS_CTL.ADV
  let off := fun (f : Int) => decide (f < swsLow ∨ swsHigh < f)
  adv == 3
    || (List.range (s.get R.SWS_CTL.LAST + 1)).any (fun i =>
        off (s.segF i) || (adv == 0 && off (s.segF i + s.segSlope i * (s.segDur i : Int))))
    || (adv == 1 && !s.on (R.DDC_CTL.LIST_EN (s.get R.SWS_CTL.DDC)))

/-- R566: a segment begins at an instant (2^-16 ns of the advance). -/
def State.swsEnter (s : State) (i t : Nat) : State :=
  let s := (s.put R.SWS_STATUS.SEG i).put R.SWS_STATUS.SETTLING 1
  { s with sws := { s.sws with since := t, settleAt := t + nsUnits 2000 } }

/-- The profile starts at SEG0. -/
def State.swsStart (s : State) (t : Nat) : State :=
  let s := (s.put R.SWS_STATUS.RUNNING 1).swsEnter 0 t
  { s with sws := { s.sws with waits := false, due := [] } }

/-- R567, R568: RUN. -/
def State.swsRun (s : State) : State :=
  if s.swsRefused then s.put R.SWS_STATUS.CFG_ERR 1
  else if s.get R.SWS_CTL.ADV = 2 then { s with sws := { s.sws with waits := true } }
  else s.swsStart (s.advU 0)

/-- R567, R568: STOP, or the end of a profile, at an instant (2^-16 ns of the advance): its frequency is held. -/
def State.swsHalt (s : State) (t : Nat) : State :=
  let f := s.swsFreq t
  { s.put R.SWS_STATUS.RUNNING 0 with sws := { s.sws with waits := false, held := f, due := [] } }

/-- R4, R568: a write of SWS_CTL. While a profile runs only STOP acts; STOP stands before RUN. -/
def State.writeSwsCtl (s : State) (w : Word) : State :=
  let stop := bit w.toNat 2
  if s.on R.SWS_STATUS.RUNNING then if stop then s.swsHalt (s.advU 0) else s.put R.SWS_STATUS.CFG_ERR 1
  else
    let s := if stop then s.swsHalt (s.advU 0) else s
    let s := s.retainWrite R.SWS_CTL w
    let s := if s.on R.SWS_CTL.EN then s.put (R.CLK_PLL.ON pllSws) (b2n (s.pllPowered pllSws))
      else (s.unlock pllSws).put (R.CLK_PLL.ON pllSws) 0
    if bit w.toNat 1 && !stop then s.swsRun else s

/-- SWS_RUN (R566–R568): a write of SWS_CTL with RUN = 1; `w` gives the other fields. -/
def execSwsRun (p : Path) (w : Word) (s : State) : Out :=
  .next (s.gateAction p R.SWS_CTL (fun s => s.writeSwsCtl ((w ||| 2#32) &&& ~~~4#32)))

/-- SWS_STOP (R568): a write of SWS_CTL with STOP = 1. -/
def execSwsStop (p : Path) (w : Word) (s : State) : Out :=
  .next (s.gateAction p R.SWS_CTL (fun s => s.writeSwsCtl (w ||| 4#32)))

/-- R568: a write of the segment table, refused while a profile runs. -/
def State.writeSwsSeg (s : State) (key : Nat) (w : Word) : State :=
  if s.on R.SWS_STATUS.RUNNING then s.put R.SWS_STATUS.CFG_ERR 1 else s.plainWrite key w

/-- R567: the profile advances at an instant (2^-16 ns of the advance). -/
def State.swsAdvance (s : State) (t : Nat) : State :=
  let i := s.get R.SWS_STATUS.SEG
  if i < s.get R.SWS_CTL.LAST then (s.inc R.SWS_STATUS.STEPS).swsEnter (i + 1) t
  else if s.on R.SWS_CTL.LOOP then (s.inc R.SWS_STATUS.STEPS).swsEnter 0 t
  else s.swsHalt t

/-- SWS_SEGMENT_ADVANCE (R566, R567): the present segment's DUR has passed, or the frequency of a list boundary reaches the ball. A
profile that advances at a gate does so with its firing. -/
def execSwsSegmentAdvance (s : State) : Out :=
  if !s.on R.SWS_STATUS.RUNNING then .next s
  else match s.get R.SWS_CTL.ADV with
    | 0 =>
      let t := s.sws.since + nsUnits (1000 * s.segDur (s.get R.SWS_STATUS.SEG))
      .next (if t ≤ s.advU 0 then s.swsAdvance t else s)
    | 1 => match s.sws.due with
      | t :: rest =>
        if s.time + nsUnits 40 ≤ t then .next s
        else .next ({ s with sws := { s.sws with due := rest } }.swsAdvance (s.advAt t))
      | [] => .next s
    | _ => .next s

/-- R567: a firing of gate `tg` at a time starts a profile that waits for it, or advances one that runs by it. -/
def State.swsGate (s : State) (tg t : Nat) : State :=
  if s.get R.SWS_CTL.ADV ≠ 2 ∨ s.get R.SWS_CTL.TG ≠ tg then s
  else if s.sws.waits then s.swsStart (s.advAt t)
  else if s.on R.SWS_STATUS.RUNNING then s.swsAdvance (s.advAt t)
  else s

/-- SWS_SETTLED (R566): 2 µs after a step. -/
def execSwsSettled (s : State) : Out :=
  .next (if s.on R.SWS_STATUS.SETTLING ∧ s.sws.settleAt ≤ s.advU 0 then s.put R.SWS_STATUS.SETTLING 0 else s)

/-! ### FS_SET (R561, R582) -/

/-- R582: whether an FS_SET completes STATE. -/
def State.fsRefused (s : State) (p : Nat) : Bool :=
  s.lowPower || [2 * p, 2 * p + 1].any (fun n => 3 ≤ s.adcState n || 2 ≤ s.sgState n) || !s.skewOrders.isEmpty

/-- R67, R76, R561, R582: the relock of an SPLL at its order's fs begins: LK1's work (R591). -/
def State.startFs (s : State) (o : Order) : State :=
  let p := o.u 16 1
  let fs := o.u 20 2
  let s := (s.put (R.CLK_FS.FS p) fs).put (R.CLK_FS.FRAC p) (b2n (fs % 100 ≠ 0))
  let s := s.put (R.CLK_PLL.LOCKED (1 + p)) 0
  let s := [2 * p, 2 * p + 1].foldl (fun s n =>
    let s := (s.put (R.ADC_STATUS.CNT_VALID n) 0).dropSets n fs
    let s := if s.adcState n = 0 then s
      else ((s.calOff n).put (R.ADC_STATUS.STATE n) 1).updAdc n (fun a => { a with onSince := s.ns + 1000000 })
    if s.dacState n = 0 then s
    else ((s.put (R.DAC_STATUS.STATE n) 1).put (R.DAC_STATUS.IDLE_OUT n) 0).updDac n (fun a => { a with onSince := s.ns + 1000000 })) s
  s.updOrder o.ref (fun o => { o with phase := .running, aux := s.ns })

/-- FS_SET orders that wait for LK1 begin once it is UP. -/
def State.startFsDue (s : State) : State :=
  if !s.lkUp 1 then s
  else (s.orders.filter (fun o => o.opcode == 0x0E02 && o.phase == .pending)).foldl (fun s o => s.startFs o) s

/-- The parameter checks of FS_SET (R387): each field's byte offset, and whether the field is invalid. -/
def fsSetChecks (o : Order) : List (Nat × Bool) :=
  [chk 16 (1 < o.u 16 1)] ++ reserved o 17 3 ++ [chk 20 (o.u 20 2 < 8000 ∨ 16000 < o.u 20 2)] ++ reserved o 22 14 ++ reserved o 40 24

/-- FS_SET (R67, R76, R561, R582). -/
def State.fsSetAccept (o : Order) (s : State) : State :=
  s.validate o (fsSetChecks o) (fun s => if s.fsRefused (o.u 16 1) then s.retire o stState else s.startFsDue)

/-- The arm of that order. -/
def execFsSet (s : State) : Out := .next (s.accept 0x0E02 State.fsSetAccept)

/-- R582: a cancel of an FS_SET: possible until the relock begins. -/
def State.fsCancel (s : State) (o : Order) : Bool × State :=
  if o.phase = .pending then (true, s.retire o stCancelled) else (false, s)

/-- The WAKING converters of SPLL pair `p` start their wake-up anew at the end of the relock (R76). -/
def State.fsWake (s : State) (p : Nat) : State :=
  [2 * p, 2 * p + 1].foldl (fun (s : State) n =>
    (s.updAdc n (fun a => { a with onSince := if s.adcState n = 1 then s.ns else a.onSince })).updDac n
      (fun a => { a with onSince := if s.dacState n = 1 then s.ns else a.onSince })) s

/-- FS_RELOCK_DONE (R76, R582): the SPLL of a running FS_SET relocks, or no lock has been declared within 1 ms. -/
def execFsRelockDone (ring index : Nat) (ok : Bool) (s : State) : Out :=
  match s.order? (ring, index) with
  | some o =>
    if o.opcode ≠ 0x0E02 ∨ o.phase ≠ .running then .next s
    else
      let p := o.u 16 1
      let took := s.ns - o.aux
      let out := [(36, leBytes 4 (took / 1000))]
      if ok ∧ took ≤ 1000000 then .next (((s.fsWake p).put (R.CLK_PLL.LOCKED (1 + p)) 1).retireWith o stOk 0 out)
      else .next (((s.fsWake p).raiseInst 418 (1 + p)).retireWith o 0x2C 0 out)
  | none => .next s

end Machine
end Sys2Proof
end

