-- ==== Sys2Proof/Machine/Firmware.lean ====
section
/-!
DEFINITION. Lock-keepers, boot, staging, activation, mailboxes and the general firmware services (chapter 20, R583–R606).

Marked choices (log entries): DEDUCED 90, 91, 92, 93, 94, 124, 141, 150; DESIGN CHOICE 30, 89, 95. Each entry of
notes/assumptions says safe or unsafe.
-/

namespace Sys2Proof

/-- Fields of an image's header (Table 20-3). -/
def FwImage.u (i : FwImage) (off n : Nat) : Nat := Machine.field i.head off n
def FwImage.version (i : FwImage) : Nat := i.u 4 4
def FwImage.svn (i : FwImage) : Nat := i.u 8 4

/-- The bytes of an image: its header and its four segments. -/
def FwImage.total (i : FwImage) : Nat := 512 + i.u 16 4 + i.u 20 4 + i.u 24 4 + i.u 28 4

/-- R586: what an image fails, as FWS_STATUS.RESULT codes it: 3 FORMAT, 4 KEY, 5 SIGNATURE, 6 HASH, 7 ROLLBACK; 0 for an image that is
accepted. -/
def FwImage.fault (i : FwImage) (minSvn : Nat) : Nat :=
  let zero := fun off n => ((i.head.drop off).take n).all (fun b => b == 0#8)
  if i.head.length ≠ 512 ∨ i.u 0 4 ≠ 0x4D494B49 ∨ 1 < i.u 12 1 ∨ !(zero 13 3 && zero 321 63 && zero 480 32) ∨ 1310720 < i.total then 3
  else if !i.keyOk then 4
  else if !i.sigOk then 5
  else if !i.hashOk then 6
  else if i.svn < minSvn then 7
  else 0

namespace Machine

/-! ### Images and the flash (R584–R586) -/

/-- R585: whether a boot-record copy is valid: MAGIC, the bytes that are 0, the CRC-32C. -/
def recValid (bs : List Byte) : Bool :=
  bs.length == 64 && field bs 0 4 == 0x52424B49 && field bs 11 1 == 0 && ((bs.drop 20).take 40).all (fun b => b == 0#8)
    && field bs 60 4 == (crc32c (bs.take 60)).toNat

/-- A boot record in force: the copy (0 or 1) it stands in, SEQ, ACTIVE, TRIAL, TRIES. -/
structure BootRec where
  copy : Nat
  seq : Nat
  active : Nat
  trial : Nat
  tries : Nat
deriving DecidableEq, Repr

/-- The fields of a record's bytes. -/
def recOf (copy : Nat) (bs : List Byte) : BootRec := ⟨copy, field bs 4 4, field bs 8 1 % 2, field bs 9 1, field bs 10 1⟩

/-- R585: the valid copy with the higher SEQ, modulo 2^32. -/
def Flash.inForce (f : Flash) : Option BootRec :=
  match recValid f.rec0, recValid f.rec1 with
  | true, true =>
    let a := recOf 0 f.rec0
    let b := recOf 1 f.rec1
    some (if (a.seq + 2 ^ 32 - b.seq) % 2 ^ 32 < 2 ^ 31 then a else b)
  | true, false => some (recOf 0 f.rec0)
  | false, true => some (recOf 1 f.rec1)
  | false, false => none

/-- The image of a slot (0 A, 1 B). -/
def Flash.slot (f : Flash) (k : Nat) : Option FwImage := if k = 0 then f.slotA else f.slotB

/-- R585: the bytes of a boot record. -/
def recBytes (seq active trial tries verA verB : Nat) : List Byte :=
  let h := leBytes 4 0x52424B49 ++ leBytes 4 seq ++ leBytes 1 active ++ leBytes 1 trial ++ leBytes 1 tries ++ [0#8]
    ++ leBytes 4 verA ++ leBytes 4 verB ++ List.replicate 40 0#8
  h ++ leBytes 4 (crc32c h).toNat

/-- R585: a new record, written over the copy that is not in force with SEQ increased by one; copy 0 with SEQ 1 where no copy is valid. -/
def Flash.record (f : Flash) (active trial tries : Nat) : Flash :=
  let ver := fun k => ((f.slot k).map FwImage.version).getD 0
  match f.inForce with
  | some r =>
    let bs := recBytes ((r.seq + 1) % 2 ^ 32) active trial tries (ver 0) (ver 1)
    if r.copy = 0 then { f with rec1 := bs } else { f with rec0 := bs }
  | none => { f with rec0 := recBytes 1 active trial tries (ver 0) (ver 1) }

/-- A new boot record. -/
def State.writeRecord (s : State) (active trial tries : Nat) : State := { s with flash := s.flash.record active trial tries }

/-! ### Boot (R587, R588) -/

/-- The accepted image of a slot, if there is one. -/
def State.bootable (s : State) (slot : Nat) : Option FwImage :=
  match s.flash.slot slot with
  | some i => if i.fault s.fw.minSvn = 0 then some i else none
  | none => none

/-- R587: LK0 boots a slot's image. TRIAL tells whether the record in force has this slot on trial. -/
def State.bootSlot (s : State) (slot : Nat) (i : FwImage) : State :=
  let trial := match s.flash.inForce with
    | some r => b2n (r.active == slot && r.trial == 1)
    | none => 0
  let s := (s.put R.LK_BOOT.SLOT slot).put R.LK_BOOT.TRIAL trial
  { s with fw := { s.fw with image := some i } }

/-- R587: no image is booted. -/
def State.bootRecovery (s : State) : State := s.put R.LK_BOOT.RECOVERY 1

/-- A fallback to the other slot. -/
def State.fallback (s : State) : State := (s.put R.LK_BOOT.FALLBACK 1).raiseInst 481 0

/-- R587: the slot that STRAP_BOOT = NORMAL chooses, with the record's writes: the slot, and whether this was already a fallback. -/
def State.bootChoice (s : State) : Nat × State :=
  match s.flash.inForce with
  | some r =>
    if r.trial = 1 ∧ r.tries = 0 then (1 - r.active, (s.writeRecord (1 - r.active) 0 0).fallback)
    else if r.trial = 1 then (r.active, s.writeRecord r.active 1 (r.tries - 1))
    else (r.active, s)
  | none => (0, s)

/-- R627: DEV_RESET of the reset just ended, ahead of every other waiting record. -/
def State.deviceReset (s : State) : State :=
  let s := s.raise 480 0 (s.word R.GLOBAL_RSTCAUSE).toNat
  let first := fun (l : List EvRec) => l.filter (fun r => r.source == 480) ++ l.filter (fun r => r.source != 480)
  { s with ev := { s.ev with wait0 := first s.ev.wait0, wait1 := first s.ev.wait1 } }

/-- The flash part's contents given from outside, where they are not as the device last left them. -/
def State.flashed (s : State) (part : Option FlashPart) : State :=
  match part with
  | some f => { s with flash := { s.flash with rec0 := f.rec0, rec1 := f.rec1, slotA := f.slotA, slotB := f.slotB } }
  | none => s

/-- R586–R588: the slot chosen by the boot records, the other one where it does not verify, recovery where neither does. -/
def State.bootByRecord (s : State) : State :=
  let c := s.bootChoice
  match c.2.bootable c.1 with
  | some i => c.2.bootSlot c.1 i
  | none => match c.2.bootable (1 - c.1) with
    | some i => c.2.fallback.bootSlot (1 - c.1) i
    | none => c.2.bootRecovery

/-- The straps select one slot: it, or recovery. -/
def State.bootForced (s : State) (slot : Nat) : State :=
  match s.bootable slot with
  | some i => s.bootSlot slot i
  | none => s.bootRecovery

/-- R653: RESET_L of every memory channel is driven low from reset release. -/
def State.holdMemory (s : State) : State := (List.range 6).foldl (fun (s : State) c => s.send (.level 4 c false s.time)) s

/-- BOOT (R585–R588, R627, R653, R656, R657): after reset release LK0 starts in the boot ROM, chooses a slot by the straps and verifies the image. `part` is
what the flash part holds where it is not as the device last left it. -/
def execBoot (part : Option FlashPart) (s : State) : Out :=
  if s.lkState 0 ≠ 0 then .next s
  else
    let strap := s.get R.GLOBAL_STRAPS.BOOT
    let s := (((s.flashed part).deviceReset.holdMemory).put (R.LK_STATUS.STATE 0) 1).put R.LK_BOOT.STRAP_BOOT strap
    .next (if strap = 3 then s.bootRecovery else if strap = 0 then s.bootByRecord else s.bootForced (strap - 1))

/-! ### Mailboxes (R596–R604) -/

/-- A channel's mailbox: NS0–NS7 are channels 0–7, S0–S7 channels 8–15 (Table 20-7). -/
def State.mbx (s : State) (ch : Nat) : Mailbox := (SMap.find? s.fw.mbx ch).getD {}

/-- A channel changed in place. -/
def State.updMbx (s : State) (ch : Nat) (f : Mailbox → Mailbox) : State :=
  { s with fw := { s.fw with mbx := SMap.put s.fw.mbx ch (f (s.mbx ch)) } }

/-- The channels in use. -/
def mbxChannels : List Nat := [0, 1, 2, 3, 4, 5, 8, 9, 10, 11, 12]

/-- Table 20-7: the path that reaches a channel. -/
def mbxPath (ch : Nat) : Option Path :=
  if ch < 4 then some .pf0
  else if ch = 4 then some .mon
  else if ch = 5 then some .peer
  else if 8 ≤ ch ∧ ch < 12 then some .mgmt
  else if ch = 12 then some .smbus
  else none

/-- The key of a channel's IN register; OUT, STAT and CTL follow at +4, +8, +0xC. Channels without registers have none. -/
def mbxKey (ch : Nat) : Option Nat :=
  if ch < 4 then some (R.NS_IN ch) else if 8 ≤ ch ∧ ch < 12 then some (R.S_IN (ch - 8)) else none

/-- The interrupt source of a channel and its enables (R600): `in_` for IN_FULL becoming 0, else OUT_FULL becoming 1. -/
def State.mbxIrq (s : State) (ch : Nat) (in_ : Bool) : State :=
  if ch < 4 then (if s.on (if in_ then R.NS_CTL.IRQ_IN ch else R.NS_CTL.IRQ_OUT ch) then s.irq (113 + ch) else s)
  else if 8 ≤ ch ∧ ch < 12 then
    (if s.on (if in_ then R.S_CTL.IRQ_IN (ch - 8) else R.S_CTL.IRQ_OUT (ch - 8)) then s.irq (129 + ch - 8) else s)
  else s

/-- R597, R598: a sender's word reaches IN. -/
def State.mbxIn (s : State) (ch : Nat) (w : Word) : State :=
  if (s.mbx ch).inFull then
    let s := if ch < 4 then s.put (R.NS_STAT.IN_LOST ch) 1 else if 8 ≤ ch ∧ ch < 12 then s.put (R.S_STAT.IN_LOST (ch - 8)) 1 else s
    s.raiseInst 486 ch
  else s.updMbx ch (fun m => { m with inFull := true, inWord := w })

/-- R597: a sender's read of OUT: the word, 0 where OUT is empty. -/
def State.mbxOut (s : State) (ch : Nat) : Word × State :=
  let m := s.mbx ch
  if m.outFull then (m.outWord, s.updMbx ch (fun m => { m with outFull := false })) else (0, s)

/-- R346, R355: the gate of a read by a path: Unsupported Request where the access does not reach the registers. -/
def State.readGate (s : State) (p : Path) (key : Nat) (act : State → State) : State :=
  if s.reaches p key then act s else (s.send (.unsupported (pathFn p))).logAer (pathFn p) 20

/-- MAILBOX_IN_WRITE (R596–R598, R680): a sender's write of a channel's IN; a path that does not reach the channel writes nothing. -/
def execMailboxInWrite (p : Path) (ch : Fin 16) (w : Word) (s : State) : Out :=
  if mbxPath ch ≠ some p then .next s
  else match mbxKey ch with
    | some key => .next (s.gateAction p key (fun s => s.mbxIn ch w))
    | none => .next (s.mbxIn ch w)

/-- MAILBOX_OUT_READ (R596, R597, R604, R680): a sender's read of a channel's OUT. -/
def execMailboxOutRead (p : Path) (ch : Fin 16) (s : State) : Out :=
  let key := ((mbxKey ch).getD 0x2000200) + 4
  let rd := fun (s : State) => let x := s.mbxOut ch; x.2.send (.reply p key x.1)
  if mbxPath ch ≠ some p then .next s
  else if (mbxKey ch).isSome then .next (s.readGate p key rd)
  else .next (rd s)

/-- R599: RETRACT: a word the firmware has not read is discarded. -/
def State.retract (s : State) (ch : Nat) : State :=
  if (s.mbx ch).inFull then
    let s := s.updMbx ch (fun m => { m with inFull := false, inWord := 0 })
    let s := if ch < 4 then s.put (R.NS_STAT.RETRACTED ch) 1 else if 8 ≤ ch ∧ ch < 12 then s.put (R.S_STAT.RETRACTED (ch - 8)) 1 else s
    s.mbxIrq ch true
  else s

/-- RETRACT (R599): a write of RETRACT in a channel's CTL. -/
def execRetract (p : Path) (ch : Fin 16) (s : State) : Out :=
  match mbxKey ch with
  | some key => if mbxPath ch = some p then .next (s.gateAction p (key + 12) (fun s => s.retract ch)) else .next s
  | none => .next s

/-- Table 20-8: the LEN, SERVICE, TAG and KIND of a message header. -/
def msgLen (h : Word) : Nat := bits h.toNat 12 8
def msgService (h : Word) : Nat := bits h.toNat 20 8
def msgTag (h : Word) : Nat := bits h.toNat 4 8
def msgKind (h : Word) : Nat := bits h.toNat 28 4

/-- Table 20-8: a header word. -/
def msgHeader (kind service len tag status : Nat) : Word :=
  BitVec.ofNat 32 (kind * 2 ^ 28 + service % 256 * 2 ^ 20 + len % 256 * 2 ^ 12 + tag % 256 * 16 + status)

/-- R605: complete messages at the head of a buffer that are no requests are discarded; `n` bounds how many. -/
def dropOther : Nat → List Word → List Word
  | 0, ws => ws
  | _ + 1, [] => []
  | n + 1, h :: ws => if msgKind h ≠ 0 ∧ msgLen h ≤ ws.length then dropOther n (ws.drop (msgLen h)) else h :: ws

/-- FIRMWARE_IN_READ (R597, R599–R601): LK0 reads a channel's IN, unless its buffer of 512 words is full. -/
def execFirmwareInRead (ch : Fin 16) (s : State) : Out :=
  let m := s.mbx ch
  if !s.lkUp 0 || !m.inFull || 512 ≤ m.inbox.length then .next s
  else
    let ws := m.inbox ++ [m.inWord]
    .next ((s.updMbx ch (fun m => { m with inFull := false, inWord := 0, inbox := dropOther ws.length ws })).mbxIrq ch true)

/-- FIRMWARE_OUT_WRITE (R356, R597, R600, R604): LK0 writes the next word it has for a channel, once OUT is empty. -/
def execFirmwareOutWrite (ch : Fin 16) (s : State) : Out :=
  let m := s.mbx ch
  match m.outbox with
  | w :: ws =>
    if !s.lkUp 0 || m.outFull then .next s
    else .next (((s.updMbx ch (fun m => { m with outFull := true, outWord := w, outbox := ws })).mbxIrq ch false).wakeCause 3)
  | [] => .next s

/-- R603: the firmware starts: partial messages discarded, EPOCH increased, a HELLO notice for every channel. -/
def State.hello (s : State) : State :=
  let e := (s.fw.epoch + 1) % 65536
  let ver : Word := BitVec.ofNat 32 ((s.fw.image.map FwImage.version).getD 0)
  let s := { s with fw := { s.fw with epoch := e } }
  mbxChannels.foldl (fun s ch => s.updMbx ch (fun m =>
    { m with inbox := [], outbox := [msgHeader 2 0 2 0 0, BitVec.ofNat 32 e, ver], busy := none })) s

/-! ### Firmware ready (R588) -/

/-- R658: HK_LIMIT's LO and HI of channels 16–24, in 0.5 mV, from the tolerances of Table 23-5. -/
def railLimits : List (Nat × Nat) :=
  [(1455, 1545), (1425, 1575), (1649, 1751), (1649, 1751), (2280, 2520), (1960, 2040), (3492, 3708), (2134, 2266), (3420, 3780)]

/-- R76, Table 03-9: LK1 copies the calibration sets stored in flash into the sets; those measured at another fs are not VALID. -/
def State.loadSets (s : State) : State :=
  let c0 := (SMap.find? s.calCopies 0).getD {}
  let c1 := (SMap.find? s.calCopies 1).getD {}
  let c := if c1.seq < c0.seq then c0 else c1
  let s := c.sets.foldl (fun (s : State) (e : Nat × Nat × TrimSet) =>
    let n := e.1 / 8
    let valid := b2n (bits e.2.1 16 15 == s.fsOf n)
    ((s.setWord (R.CAL_SETT n (e.1 % 8)) (BitVec.ofNat 32 e.2.1)).put (R.CAL_SETT.VALID n (e.1 % 8)) valid).updCal n
      (fun k => { k with sets := SMap.put k.sets (e.1 % 8) e.2.2 })) s
  (List.range 4).foldl (fun s n => s.putSetsValid n) s

/-- R588, R590, R603, R608, R653, R658: the lock-keepers are UP with the running image. The device is in READY for the first time, and with
AUTO_TRAIN = 1 memory training is due (R289): DEDUCED (log 124). -/
def State.firmwareStarts (s : State) : State :=
  let s := [0, 1, 2, 3].foldl (fun s k => s.put (R.LK_STATUS.STATE k) 2) s
  let s := s.put R.LK_FWVER.VERSION ((s.fw.image.map FwImage.version).getD 0)
  let s := (railLimits.zipIdx).foldl (fun (s : State) (e : (Nat × Nat) × Nat) =>
    ((s.put (R.HK_LIMIT.LO (16 + e.2)) e.1.1).put (R.HK_LIMIT.HI (16 + e.2)) e.1.2).put (R.HK_LIMIT.PROT (16 + e.2)) 1
      |>.put (R.HK_LIMIT.LEN (16 + e.2)) 1) s
  let s := s.loadSets
  let s := s.put R.MON_CFG.PRESENT (b2n (s.on R.GLOBAL_STRAPS.MON_EN && !s.on R.MGMT_MON.MON_OFF))
  let s := (List.range 8).foldl (fun s n => s.send (.level 5 n true s.time)) s
  { s with fw := { s.fw with ready := true, recovered := false }, trainDue := s.on R.MEM_CTL.AUTO_TRAIN }.hello

/-- FIRMWARE_READY (R346, R588, R589, R603, R653): the boot ends: the lock-keepers are UP and the device is firmware-ready, or it serves the
staging registers in recovery. -/
def execFirmwareReady (s : State) : Out :=
  if s.lkState 0 ≠ 1 then .next s
  else if s.on R.LK_BOOT.RECOVERY then .next { s with fw := { s.fw with recovered := true } }
  else .next s.firmwareStarts

/-! ### Watchdogs and restarts (R589–R591) -/

/-- R589: a lock-keeper that was UP restarts. -/
def State.lkRestart (s : State) (k : Nat) : State :=
  let up := s.lkUp k
  let s := s.put (R.LK_STATUS.STATE k) 3
  if up then s.raiseInst 482 k else s

/-- WATCHDOG_EXPIRY (R589, R590): a lock-keeper's watchdog expires: LK_WATCHDOG, and a restart from its segment; the third restart within
1 h leaves it FAILED. -/
def execWatchdogExpiry (k : Fin 4) (s : State) : Out :=
  if s.lkState k ≠ 2 ∧ s.lkState k ≠ 3 then .next s
  else
    let past := ((SMap.find? s.fw.wdog k).getD []).filter (fun t => decide (s.ns < t + 3600000000000))
    let s := (s.raiseInst 483 k).lkRestart k
    let s := s.satInc (R.LK_STATUS.WDOG k)
    let s := { s with fw := { s.fw with
      wdog := SMap.put s.fw.wdog k (s.ns :: past)
      lk0Wd := s.fw.lk0Wd || k.val == 0 } }
    if 2 ≤ past.length then .next ((s.put (R.LK_STATUS.STATE k) 4).raiseInst 484 k) else .next s

/-- R605: a reply put to a channel. -/
def State.reply (s : State) (ch service tag status : Nat) (data : List Word) : State :=
  s.updMbx ch (fun m => { m with busy := none, outbox := m.outbox ++ (msgHeader 1 service data.length tag status :: data) })

/-- R593, R594: the activation ends, done (0) or rolled back (1), with the reply to its request. -/
def State.endActivation (s : State) (a : Activation) (outcome : Nat) : State :=
  let s := s.put R.LK_BOOT.ACT 0
  let s := { s with fw := { s.fw with act := none } }
  let s := if outcome = 0 then
      let s := { s with fw := { s.fw with image := s.fw.staged } }
      let s := s.put R.LK_FWVER.VERSION ((s.fw.staged.map FwImage.version).getD 0)
      match s.flash.inForce with
      | some r => if r.trial = 1 ∧ s.flash.slot r.active = s.fw.staged then (s.put R.LK_BOOT.SLOT r.active).put R.LK_BOOT.TRIAL 1 else s
      | none => s
    else s
  match (s.mbx a.channel).busy with
  | some (svc, tag) => s.reply a.channel svc tag 0 [BitVec.ofNat 32 outcome]
  | none => s

/-- R593, R594: the lock-keeper that an activation is restarting has become UP, or has failed; the next one restarts, or the activation
ends. -/
def State.activationStep (s : State) (a : Activation) : State :=
  if a.rolling then
    match a.changed with
    | k :: rest =>
      { (s.lkRestart k) with fw := { s.fw with act := some { a with current := k, since := s.ns, changed := rest } } }
    | [] => s.endActivation a 1
  else
    match a.todo with
    | k :: rest =>
      { (s.lkRestart k) with fw := { s.fw with act := some { a with current := k, since := s.ns, todo := rest, changed := a.current :: a.changed } } }
    | [] => s.endActivation a 0

/-- R589, R591, R593, R603: a lock-keeper that starts or restarts reports ready and is UP. One that an activation restarts must do so within
50 ms. After a watchdog restart of LK0 the firmware begins a new EPOCH. -/
def State.lkReady (s : State) (k : Nat) : State :=
  if !(s.lkState k == 3 || (s.lkState k == 1 && k != 0)) then s
  else
    let up := s.put (R.LK_STATUS.STATE k) 2
    let greet := fun (s : State) => if k = 0 ∧ s.fw.lk0Wd then { s with fw := { s.fw with lk0Wd := false } }.hello else s
    match s.fw.act with
    | some a =>
      if a.current ≠ k then greet up
      else if a.since + 50000000 < s.ns then s
      else greet (up.activationStep a)
    | none => greet up

/-- LK_RESTART_TIMEOUT (R594): the lock-keeper that an activation restarted is not ready within 50 ms: it restarts with its old segment, and
those already changed follow in reverse order. One that has FAILED meanwhile is passed over. -/
def execLkRestartTimeout (k : Fin 4) (s : State) : Out :=
  match s.fw.act with
  | some a =>
    if a.current ≠ k ∨ (s.lkState k ≠ 3 ∧ s.lkState k ≠ 4) ∨ s.ns < a.since + 50000000 then .next s
    else
      let b : Activation := { a with since := s.ns, rolling := true }
      let s := { s with fw := { s.fw with act := some b } }
      let s := if a.rolling then s else (s.put R.LK_BOOT.ACT 2).raiseInst 485 k
      .next (if s.lkState k = 4 then s.activationStep b else s)
  | none => .next s

/-! ### Staging (R592) -/

/-- Whether LK0 can stage: it is UP, or serves recovery. -/
def State.lk0Serves (s : State) : Bool := s.lkUp 0 || s.fw.recovered

/-- Staging ends without an image. -/
def State.stagingFails (s : State) (result : Nat) : State :=
  ((s.put R.FWS_STATUS.STATE 5).put R.FWS_STATUS.RESULT result).irq 133

/-- The host address of an image to be staged. -/
def State.stagingAddr (s : State) : Nat := s.get R.FWS_ADDR_LO.ADDR_LO * 64 + s.get R.FWS_ADDR_HI.ADDR_HI * 2 ^ 32

/-- R591, R592: the reads of an image to be staged begin, once LK0 serves. -/
def State.stagingReads (s : State) : State :=
  if s.fw.stageWaits && s.lk0Serves then
    { s with fw := { s.fw with stageWaits := false } }.readHost 1 s.stagingAddr (s.get R.FWS_LEN.LEN)
  else s

/-- R592: a write of GO with an OP: refused while staging or activation goes on, else the image is read. RUN is for recovery only. -/
def State.stagingGo (s : State) (op : Nat) : State :=
  let st := s.get R.FWS_STATUS.STATE
  let s := s.put R.FWS_CTL.OP op
  if (st = 1 ∨ st = 2 ∨ st = 3) ∨ s.fw.act.isSome then s.put R.FWS_STATUS.RESULT 1
  else if op = 3 then let x := s.fresh; x.2.put R.FWS_STATUS.RESULT (x.1 % 256)
  else if op = 2 ∧ !s.fw.recovered then s.stagingFails 9
  else if s.get R.FWS_LEN.LEN < 512 ∨ 1310720 < s.get R.FWS_LEN.LEN then s.stagingFails 3
  else
    let s := (s.put R.FWS_STATUS.STATE 1).put R.FWS_STATUS.RESULT 0
    { s with fw := { s.fw with staged := none, stageOp := op, stageWaits := true, fetchBad := false } }.stagingReads

/-- FWS_VERIFY, FWS_WRITE, FWS_RUN (R586, R592): a write of GO with OP 0, 1 or 2. -/
def execFwsVerify (p : Path) (s : State) : Out := .next (s.gateAction p R.FWS_CTL (fun s => s.stagingGo 0))
def execFwsWrite (p : Path) (s : State) : Out := .next (s.gateAction p R.FWS_CTL (fun s => s.stagingGo 1))
def execFwsRun (p : Path) (s : State) : Out := .next (s.gateAction p R.FWS_CTL (fun s => s.stagingGo 2))

/-- What a slot holds after a write that did not read back as written: whether the image in it still verifies is open. -/
def State.badWrite (s : State) (img : FwImage) : FwImage × State :=
  let x := s.fresh
  ({ img with keyOk := x.1 % 2 == 1, sigOk := x.1 / 2 % 2 == 1, hashOk := x.1 / 4 % 2 == 1 }, x.2)

/-- STAGING_DONE (R585, R586, R592): the image has been read and checked, and what OP selects is done; `flashOk` is the outcome of writing
and reading back the flash. -/
def execStagingDone (img : FwImage) (flashOk : Bool) (s : State) : Out :=
  if s.get R.FWS_STATUS.STATE ≠ 1 ∨ !s.lk0Serves then .next s
  else
    let s := s.readDone 1 s.stagingAddr (s.get R.FWS_LEN.LEN)
    let fault := img.fault s.fw.minSvn
    if s.fw.fetchBad then .next (s.stagingFails 2)
    else if fault ≠ 0 then .next (s.stagingFails fault)
    else
      let s := s.put R.FWS_VER.VERSION img.version
      let s := { s with fw := { s.fw with staged := some img } }
      let ok := fun (s : State) => ((s.put R.FWS_STATUS.STATE 4).put R.FWS_STATUS.RESULT 0).irq 133
      if s.fw.stageOp = 1 then
        let dest := match s.flash.inForce with
          | some r => 1 - r.active
          | none => 1
        let put := fun (i : FwImage) (s : State) =>
          { s with flash := if dest = 0 then { s.flash with slotA := some i } else { s.flash with slotB := some i } }
        if flashOk then .next (ok ((put img s).writeRecord dest 1 2))
        else
          let x := s.badWrite img
          .next ((put x.1 x.2).stagingFails 8)
      else if s.fw.stageOp = 2 then
        .next (ok { s with fw := { s.fw with image := some img } }.firmwareStarts)
      else .next (ok s)

/-! ### Services (R605, R606) -/

/-- R605: the request at the head of a channel's buffer, once all its words have been read: SERVICE, TAG, data, the words after it. -/
def State.request (s : State) (ch : Nat) : Option (Nat × Nat × List Word × List Word) :=
  match (s.mbx ch).inbox with
  | h :: ws =>
    if msgKind h = 0 ∧ msgLen h ≤ ws.length then some (msgService h, msgTag h, ws.take (msgLen h), ws.drop (msgLen h)) else none
  | [] => none

/-- R601, R605, R606: LK0 answers the request at the head of a channel's buffer, if it is the service `code`, a secure one on S0–S4 only;
`len` says which LENs it takes, `act` what it does: the reply's STATUS and data. -/
def State.serve (s : State) (ch code : Nat) (secure : Bool) (len : Nat → Bool) (act : List Word → State → Nat × List Word × State) : State :=
  match s.request ch with
  | some (svc, tag, data, rest) =>
    if svc ≠ code ∨ !s.lkUp 0 ∨ (s.mbx ch).busy.isSome then s
    else
      let s := s.updMbx ch (fun m => { m with inbox := dropOther rest.length rest })
      if secure && ch < 8 then s.reply ch svc tag 3 []
      else if !len data.length then s.reply ch svc tag 2 []
      else
        let r := act data s
        r.2.2.reply ch svc tag r.1 r.2.1
  | none => s

/-- A number as a message word. -/
def mword (n : Nat) : Word := BitVec.ofNat 32 n

/-- VERSION (R605, R606): the running VERSION and SVN, the fused minimum SVN, the VERSION of the other slot. -/
def execVersion (ch : Fin 16) (s : State) : Out :=
  .next (s.serve ch 0x01 false (fun n => n == 0) (fun _ s =>
    let ver := fun (i : Option FwImage) => mword ((i.map FwImage.version).getD 0)
    (0, [ver s.fw.image, mword ((s.fw.image.map FwImage.svn).getD 0), mword s.fw.minSvn, ver (s.flash.slot (1 - s.get R.LK_BOOT.SLOT))], s)))

/-- HEALTH (R605, R606): LK_STATUS(0)–LK_STATUS(3). -/
def execHealth (ch : Fin 16) (s : State) : Out :=
  .next (s.serve ch 0x02 false (fun n => n == 0) (fun _ s => (0, [0, 1, 2, 3].map (fun k => s.word (R.LK_STATUS k)), s)))

/-- FW_ACTIVATE (R593, R594, R606): the lock-keepers that have not FAILED restart one at a time with the staged image, LK3 first; refused BUSY below READY and while
staging or another activation goes on, FAILED without a verified image. The reply waits for the end. -/
def execFwActivate (ch : Fin 16) (s : State) : Out :=
  match s.request ch with
  | some (svc, tag, data, rest) =>
    if svc ≠ 0x03 ∨ !s.lkUp 0 ∨ (s.mbx ch).busy.isSome then .next s
    else
      let st := s.get R.FWS_STATUS.STATE
      let s := s.updMbx ch (fun m => { m with inbox := dropOther rest.length rest })
      if ch.val < 8 then .next (s.reply ch svc tag 3 [])
      else if !data.isEmpty then .next (s.reply ch svc tag 2 [])
      else if s.lowPower ∨ s.fw.act.isSome ∨ st = 1 ∨ st = 2 ∨ st = 3 then .next (s.reply ch svc tag 4 [])
      else if s.fw.staged.isNone then .next (s.reply ch svc tag 5 [])
      else
        let s := (s.updMbx ch (fun m => { m with busy := some (svc, tag) })).put R.LK_BOOT.ACT 1
        .next (match [3, 2, 1, 0].filter (fun k => s.lkState k != 4) with
          | k :: rest => { s with fw := { s.fw with act := some { channel := ch, current := k, since := s.ns, todo := rest } } }.lkRestart k
          | [] => s)
  | none => .next s

/-- FW_COMMIT (R585, R595, R606): a boot record with TRIAL = 0. -/
def execFwCommit (ch : Fin 16) (s : State) : Out :=
  .next (s.serve ch 0x04 true (fun n => n == 0) (fun _ s =>
    match s.flash.inForce with
    | some r => (0, [], (s.writeRecord r.active 0 0).put R.LK_BOOT.TRIAL 0)
    | none => (5, [], s)))

/-- SVN_COMMIT (R595, R606): the fused minimum SVN rises to that of the running image; not while a trial is pending. -/
def execSvnCommit (ch : Fin 16) (s : State) : Out :=
  .next (s.serve ch 0x05 true (fun n => n == 0) (fun _ s =>
    let pending := match s.flash.inForce with
      | some r => r.trial == 1
      | none => false
    if pending then (5, [], s)
    else
      let m := max s.fw.minSvn ((s.fw.image.map FwImage.svn).getD 0)
      (0, [mword m], { s with fw := { s.fw with minSvn := m } })))

/-- Bytes written into the configuration records. -/
def State.writeConfig (s : State) (off : Nat) (bs : List Byte) : State :=
  { s with flash := { s.flash with config := Mem.writes 0#8 s.flash.config off bs } }

/-- CFG_WRITE (R606): data words written into the configuration partition from a byte offset on; FAILED beyond its 64 KiB. -/
def execCfgWrite (ch : Fin 16) (s : State) : Out :=
  .next (s.serve ch 0x06 true (fun n => 2 ≤ n) (fun d s =>
    let off := (d.headD 0).toNat
    let bs := d.tail.flatMap (fun w => leBytes 4 w.toNat)
    if 65536 < off + bs.length then (5, [], s)
    else (0, [], s.writeConfig off bs)))

/-- So many open words. -/
def State.freshWords (s : State) : Nat → List Word × State
  | 0 => ([], s)
  | n + 1 =>
    let x := s.fresh
    let r := x.2.freshWords n
    (mword x.1 :: r.1, r.2)

/-- LOG_READ (R605, R606): up to the number of entries wanted, four words each; what the firmware has logged is open. -/
def execLogRead (ch : Fin 16) (s : State) : Out :=
  .next (s.serve ch 0x08 false (fun n => n == 1) (fun d s =>
    let n := (d.headD 0).toNat
    if n = 0 ∨ 63 < n then (5, [], s)
    else
      let x := s.fresh
      let r := x.2.freshWords (4 * (x.1 % (n + 1)))
      (0, r.1, r.2)))

/-- The services that have a code (Table 20-9, Table 22-6). -/
def knownServices : List Nat := [0x01, 0x02, 0x03, 0x04, 0x05, 0x06, 0x08, 0x10, 0x11, 0x12, 0x13, 0x14]

/-- UNKNOWN_SERVICE (R606, R649): an unlisted service is answered BAD_SERVICE. -/
def execUnknownService (ch : Fin 16) (s : State) : Out :=
  match s.request ch with
  | some (svc, _, _, _) =>
    if knownServices.contains svc then .next s else .next (s.serve ch svc false (fun _ => true) (fun _ s => (1, [], s)))
  | none => .next s

end Machine
end Sys2Proof
end

