-- ==== Sys2Proof/Machine/Display.lean ====
section
/-!
DEFINITION. The DisplayPort heads (R631–R646): head states, the shadow and its commit, frames and lines, and the display orders.

Marked choices (log entries): DEDUCED 97, 142, 143, 144, 145; PRESUMED 96. Each entry of notes/assumptions says safe or
unsafe.
-/

namespace Sys2Proof
namespace Machine

/-! ### Head states (R632, R633) -/

/-- DISP_STATUS(h).STATE: 0 OFF, 1 NO_SINK, 2 TRAINING, 3 RUNNING, 4 RECONFIG, 5 FAILED, 6 SUSPENDED. -/
def State.headState (s : State) (h : Nat) : Nat := s.get (R.DISP_STATUS.STATE h)

/-- A head's state changed. Out of RUNNING nothing is scanned; lanes and rate are reported while the link is trained. -/
def State.setHead (s : State) (h st : Nat) : State :=
  let s := s.put (R.DISP_STATUS.STATE h) st
  if st = 3 then s
  else
    let s := s.updHead h (fun x => { x with line := none, cut := none })
    if st = 4 then s else (s.put (R.DISP_STATUS.LANES h) 0).put (R.DISP_STATUS.RATE h) 0

/-- Training begins; SSC takes hold. -/
def State.trainHead (s : State) (h : Nat) : State :=
  (s.setHead h 2).updHead h (fun x => { x with attempts := 0, ssc := s.on (R.DISP_CTL.SSC h) })

/-- TRAINING or NO_SINK, as HPD reads. -/
def State.seekSink (s : State) (h : Nat) : State := if s.on (R.DISP_STATUS.HPD h) then s.trainHead h else s.setHead h 1

/-- R632: the rates (kbit/s) by their RATE code, and the fewest lanes of a sink that carry a pixel clock (kHz) at a rate: 97 % of lanes ×
rate × 0.8 against 24 bits per pixel. -/
def dpRate (code : Nat) : Nat := [0, 1620000, 2700000, 5400000, 8100000].getD code 0
def dpLanes (pclk code lanes : Nat) : Option Nat :=
  [1, 2, 4].find? (fun l => decide (l ≤ lanes) && decide (pclk * 24 * 1000 ≤ l * dpRate code * 776))

/-- DISP_ENABLE's effect (R633, R644): a word written to DISP_CTL(h). -/
def State.enableHead (s : State) (h : Nat) (w : Word) : State :=
  let was := s.on (R.DISP_CTL.EN h)
  let s := s.plainWrite (R.DISP_CTL h) w
  let en := s.on (R.DISP_CTL.EN h)
  if en && !was then
    let s := (s.put (R.DISP_ERR.UNDERRUN h) 0).put (R.DISP_ERR.STALE h) 0
    if s.headState h = 0 ∨ s.headState h = 5 then s.seekSink h else s
  else if !en then s.setHead h 0
  else s

/-! ### The shadow and its commit (R634–R636) -/

/-- The keys of a head's shadow registers. -/
def headKeys (h : Nat) : List Nat :=
  [R.DISP_PCLK h, R.DISP_HTIM h, R.DISP_HSYNC h, R.DISP_VTIM h, R.DISP_VSYNC h, R.DISP_BG h, R.DISP_LINE h]
    ++ [0, 1, 2, 3].flatMap (fun p => [R.PL_CFG h p, R.PL_POS h p, R.PL_SIZE h p, R.PL_SRCX h p, R.PL_SRCY h p, R.PL_TRC h p, R.PL_TCOL h p])

/-- The timing registers. -/
def timingKeys (h : Nat) : List Nat := (headKeys h).take 5

/-- R634, R638–R641: whether plane `p` of the shadow breaks a rule. -/
def State.planeBad (s : State) (h p : Nat) : Bool :=
  let kind := s.get (R.PL_CFG.KIND h p)
  let w := s.get (R.PL_SIZE.W h p)
  let ht := s.get (R.PL_SIZE.H h p)
  let a := s.get (R.PL_SRCX.FIRST h p)
  let b := s.get (R.PL_SRCX.LAST h p)
  let c := s.get (R.PL_SRCY.ROW0_BOTTOM h p)
  let d := s.get (R.PL_SRCY.ROW1_SPAN h p)
  if kind = 0 then false
  else decide (w = 0 ∨ ht = 0 ∨ s.get (R.DISP_HTIM.HACTIVE h) < s.get (R.PL_POS.X h p) + w
      ∨ s.get (R.DISP_VTIM.VACTIVE h) < s.get (R.PL_POS.Y h p) + ht ∨ b < a)
    || (match kind with
      | 1 => decide (2047 < b ∨ d < c ∨ 1023 < d ∨ 7 < s.get (R.PL_CFG.SRC h p))
      | 2 => decide (d = 0 ∨ 2048 < w ∨ 1024 < ht)
      | _ => decide (d = 0))

/-- R634, R637: whether a commit of the shadow is refused. -/
def State.commitBad (s : State) (h : Nat) : Bool :=
  let ha := s.get (R.DISP_HTIM.HACTIVE h)
  let va := s.get (R.DISP_VTIM.VACTIVE h)
  let pclk := s.get (R.DISP_PCLK.PCLK_KHZ h)
  let kinds := [0, 1, 2, 3].map (fun p => s.get (R.PL_CFG.KIND h p))
  decide (ha < 640 ∨ 3840 < ha ∨ va < 480 ∨ 2160 < va
    ∨ s.get (R.DISP_HTIM.HTOTAL h) < ha + s.get (R.DISP_HSYNC.HFP h) + s.get (R.DISP_HSYNC.HSW h) + 16
    ∨ s.get (R.DISP_VTIM.VTOTAL h) < va + s.get (R.DISP_VSYNC.VFP h) + s.get (R.DISP_VSYNC.VSW h) + 3
    ∨ pclk < 25000 ∨ 600000 < pclk ∨ 1 < kinds.count 1 ∨ 1 < kinds.count 2)
    || (match (s.head h).sink with
      | some (rate, lanes) => (dpLanes pclk rate lanes).isNone
      | none => false)
    || [0, 1, 2, 3].any (fun p => s.planeBad h p)

/-- R634, R635: a COMMIT. -/
def State.commitHead (s : State) (h : Nat) : State :=
  if s.commitBad h then (s.put (R.DISP_STATUS.CFG_ERR h) 1).put (R.DISP_STATUS.COMMIT_PEND h) 0 else s.put (R.DISP_STATUS.COMMIT_PEND h) 1

/-- A word written to DISP_CTL(h): EN, the EV bits and SSC, then COMMIT. -/
def State.writeDispCtl (s : State) (h : Nat) (w : Word) : State :=
  let s := s.enableHead h w
  if bit w.toNat 1 then s.commitHead h else s

/-- DISP_ENABLE (R633): a write of DISP_CTL(h) by a path. -/
def execDispEnable (p : Path) (h : Fin 2) (w : Word) (s : State) : Out :=
  .next (s.gate p (R.DISP_CTL h.val) (fun s => s.retainWrite (R.DISP_CTL h.val) w) (fun s => s.writeDispCtl h.val w))

/-- COMMIT (R634, R635): a write of DISP_CTL(h).COMMIT. -/
def execCommit (p : Path) (h : Fin 2) (s : State) : Out := .next (s.gateAction p (R.DISP_CTL h.val) (fun s => s.commitHead h.val))

/-! ### Hot plug and training (R632, R633, R636) -/

/-- HPD_PLUG (R633). -/
def execHpdPlug (h : Fin 2) (s : State) : Out :=
  let s := s.put (R.DISP_STATUS.HPD h) 1
  .next (if s.headState h = 1 then s.trainHead h else s)

/-- HPD_UNPLUG (R633): HPD low for more than 2 ms: the sink read before is gone; a RUNNING head idles its main link. -/
def execHpdUnplug (h : Fin 2) (s : State) : Out :=
  let s := (s.put (R.DISP_STATUS.HPD h) 0).updHead h (fun x => { x with sink := none })
  .next (if s.headState h = 3 then s.setHead h 1 else s)

/-- HPD_IRQ (R633): a pulse of 0.25–2 ms; `lost` is what DPCD then shows of the link. -/
def execHpdIrq (h : Fin 2) (lost : Bool) (s : State) : Out := .next (if s.headState h = 3 ∧ lost then s.trainHead h else s)

/-- The third failed attempt, or no lanes and rate that suffice. -/
def State.headFails (s : State) (h : Nat) : State := (s.setHead h 5).put (R.DISP_STATUS.CFG_ERR h) 1

/-- DISP_TRAINING_DONE (R591, R632, R633, R636): one training attempt ends, against a sink that reports `rate` (1 RBR … 4 HBR3) and `lanes` as
its largest. A reconfiguration also waits for its pixel synthesizer, and for LK3. -/
def execDispTrainingDone (h : Fin 2) (rate : Fin 5) (lanes : Fin 5) (ok : Bool) (s : State) : Out :=
  let st := s.headState h
  if (st ≠ 2 ∧ st ≠ 4) ∨ !s.lkUp 3 ∨ (st = 4 ∧ !s.pixelLock.contains h.val) then .next s
  else
    let s := s.updHead h (fun x => { x with sink := some (rate.val, lanes.val) })
    match dpLanes (s.headGet h (R.DISP_PCLK.PCLK_KHZ h)) rate.val lanes.val with
    | none => .next (s.headFails h)
    | some l =>
      if ok then
        let s := (s.setHead h 3).put (R.DISP_STATUS.LANES h) (if l = 4 then 3 else l)
        .next ((s.put (R.DISP_STATUS.RATE h) rate.val).updHead h (fun x => { x with attempts := 0, line := none }))
      else if 2 ≤ (s.head h).attempts then .next (s.headFails h)
      else .next (s.updHead h (fun x => { x with attempts := x.attempts + 1 }))

/-! ### Frames (R635, R636, R638, R643) -/

/-- A display event: INFO holds the head and FRAMES. -/
def State.headEvent (s : State) (src h : Nat) : State := s.raise src h (h + s.get (R.DISP_STATUS.FRAMES h) * 65536)

/-- The active vertical size. -/
def State.activeLines (s : State) (h : Nat) : Nat := s.headGet h (R.DISP_VTIM.VACTIVE h)

/-- R635: the shadow copied to the active set; whether a timing field changes. -/
def State.copyShadow (s : State) (h : Nat) : Bool × State :=
  let changed := (timingKeys h).any (fun k => (s.head h).active.word k != s.word k)
  let act := (headKeys h).foldl (fun (r : RegFile) k => r.store k (s.word k)) []
  let s := s.updHead h (fun x => { x with active := act, palette := x.palShadow })
  (changed, s.put (R.DISP_STATUS.COMMIT_PEND h) 0)

/-- R638: the cut of the frame that now begins, announced to its ream; the traces as they stand. A copy not made for the frame before is given
up. -/
def State.beginFrame (s : State) (h : Nat) : State :=
  let c := s.time + nsUnits 1000
  let s := (List.range 8).foldl (fun (s : State) m =>
    if (s.ream m).dcuts.any (fun d => d.2 == h) then s.updReam m (fun r => { r with dcuts := r.dcuts.filter (fun d => d.2 != h) }) else s) s
  let planes := (List.range 4).filter (fun p => s.headGet h (R.PL_CFG.KIND h p) != 0)
  let s := planes.foldl (fun (s : State) p =>
    if s.headGet h (R.PL_CFG.KIND h p) = 1 then
      s.updReam (s.headGet h (R.PL_CFG.SRC h p)) (fun r => { r with dcuts := r.dcuts ++ [(c, h)] })
    else s) s
  let engs := (planes.filter (fun p => s.headGet h (R.PL_CFG.KIND h p) == 3)).flatMap (fun p =>
    [R.PL_TRC.ENG0 h p, R.PL_TRC.ENG1 h p, R.PL_TRC.ENG2 h p, R.PL_TRC.ENG3 h p].map (fun f => s.headGet h f))
  let tr := engs.foldl (fun (m : SMap (List (Option Int))) e => SMap.put m e (s.engine e).latest) []
  s.updHead h (fun x => { x with line := some 0, cut := some c, traces := tr })

/-- The vertical blanking of head `h` begins: the frame's end is counted and its events are raised (R635, R638, R643). -/
def State.blankingBegins (s : State) (h : Nat) : State :=
  let s := if (s.head h).line.isSome then
      let s := s.inc (R.DISP_STATUS.FRAMES h)
      if bit (s.head h).ev 2 then s.headEvent 450 h else s
    else s
  let s := s.updHead h (fun x => { x with
    ev := s.get (R.DISP_CTL.EV_VB h) + 2 * s.get (R.DISP_CTL.EV_LM h) + 4 * s.get (R.DISP_CTL.EV_FD h) })
  let s := if bit (s.head h).ev 0 then s.headEvent 448 h else s
  let line := s.headGet h (R.DISP_LINE.LINE h)
  let s := if bit (s.head h).ev 1 ∧ s.activeLines h ≤ line ∧ line < s.headGet h (R.DISP_VTIM.VTOTAL h) then s.headEvent 449 h else s
  s.put (R.DISP_POS.SCANLINE h) (s.activeLines h)

/-- VERTICAL_BLANKING_START (R635, R636, R638, R643): the frame's active lines have left; a pending shadow is copied; the next frame's cut is
taken, or the head reconfigures. -/
def execVerticalBlankingStart (h : Fin 2) (s : State) : Out :=
  let h := h.val
  let at_ := match (s.head h).line with
    | some y => y == s.activeLines h
    | none => true
  if s.headState h ≠ 3 ∨ !at_ then .next s
  else
    let s := s.blankingBegins h
    if s.on (R.DISP_STATUS.COMMIT_PEND h) then
      let c := s.copyShadow h
      if c.1 then .next ({ c.2 with pixelLock := c.2.pixelLock.filter (fun x => x != h) }.setHead h 4)
      else .next (c.2.beginFrame h)
    else .next (s.beginFrame h)

/-! ### Composition (R637–R642) -/

/-- R639: a count's palette index. -/
def reamIndex (logmap : Bool) (shift c : Nat) : Nat :=
  if !logmap then min 255 (c / 2 ^ shift)
  else if c = 0 then 0
  else
    let e := Nat.log2 c
    let m := (c * 16 / 2 ^ e) % 16
    min 255 (1 + 16 * e + m)

/-- R639: what pixel (x, y) of a ream plane's window shows. -/
def State.reamPixel (s : State) (h p : Nat) (v : ReamView) (x y : Nat) : Nat :=
  let w := s.headGet h (R.PL_SIZE.W h p)
  let ht := s.headGet h (R.PL_SIZE.H h p)
  let ncol := v.region.2.1 + 1 - v.region.1
  let nrow := v.region.2.2.2 + 1 - v.region.2.2.1
  let at_ := fun c r => reamIndex v.logmap v.shift (cellCount v.cells (cellOf (v.region.1 + c) (v.region.2.2.2 - r)))
  if s.headGet h (R.PL_CFG.MAXPOOL h p) = 1 then
    ((spanOf ncol w x).flatMap (fun c => (spanOf nrow ht y).map (fun r => at_ c r))).foldl max 0
  else at_ (x * ncol / w) (y * nrow / ht)

/-- R640: the waterfall's lines as of the frame's cut. -/
def State.wfLines (s : State) (h : Nat) : List (Nat × List Nat) :=
  (s.head h).lines.filter (fun l => decide (l.1 < (s.head h).cut.getD 0))

/-- R641: a level's y in a trace plane. -/
def State.traceY (s : State) (h p : Nat) (l : Int) : Nat :=
  let ht : Int := s.headGet h (R.PL_SIZE.H h p)
  let span : Int := s.headGet h (R.PL_SRCY.ROW1_SPAN h p)
  let bottom := sext 16 (s.headGet h (R.PL_SRCY.ROW0_BOTTOM h p))
  (clampInt 0 (ht - 1) (ht - 1 - (l - bottom) * ht / span)).toNat

/-- R641: whether a trace's drawing covers pixel (x, y): from each of the column's points, and of the previous column's last one, to the next. -/
def State.traceCovers (s : State) (h p : Nat) (tr : List (Option Int)) (x y : Nat) : Bool :=
  let w := s.headGet h (R.PL_SIZE.W h p)
  let first := s.headGet h (R.PL_SRCX.FIRST h p)
  let n := s.headGet h (R.PL_SRCX.LAST h p) + 1 - first
  let ys := (spanOf n w x).map (fun i => (pointAt tr (first + i)).map (fun l => s.traceY h p l))
  let prev := if x = 0 then none else ((spanOf n w (x - 1)).getLast?.bind (fun i => pointAt tr (first + i))).map (fun l => s.traceY h p l)
  let covers := fun (a b : Option Nat) => match a, b with
    | some a, some b => decide (min a b ≤ y ∧ y ≤ max a b)
    | none, some b => b == y
    | _, none => false
  ((prev :: ys).zip ys).any (fun ab => covers ab.1 ab.2)

/-- R641: the palette index that a trace plane shows at (x, y), if it is not transparent there; the higher-numbered trace is on top. -/
def State.tracePixel (s : State) (h p x y : Nat) : Option Nat :=
  let eng := [R.PL_TRC.ENG0 h p, R.PL_TRC.ENG1 h p, R.PL_TRC.ENG2 h p, R.PL_TRC.ENG3 h p]
  let col := [R.PL_TCOL.TCOL0 h p, R.PL_TCOL.TCOL1 h p, R.PL_TCOL.TCOL2 h p, R.PL_TCOL.TCOL3 h p]
  let ten := s.headGet h (R.PL_TRC.TEN h p)
  [3, 2, 1, 0].findSome? (fun i =>
    match eng[i]?, col[i]? with
    | some e, some c =>
      let tr := (SMap.find? (s.head h).traces (s.headGet h e)).getD []
      if bit ten i && s.traceCovers h p tr x y then some (s.headGet h c) else none
    | _, _ => none)

/-- R637: the palette index of plane `p` at a pixel of the active area; none where the window does not hold it or it is transparent. -/
def State.planePixel (s : State) (h p x y : Nat) : Option Nat :=
  let px := s.headGet h (R.PL_POS.X h p)
  let py := s.headGet h (R.PL_POS.Y h p)
  let inside := decide (px ≤ x ∧ x < px + s.headGet h (R.PL_SIZE.W h p) ∧ py ≤ y ∧ y < py + s.headGet h (R.PL_SIZE.H h p))
  let opaque_ := fun (i : Nat) => if i = 0 then none else some i
  if !inside then none
  else match s.headGet h (R.PL_CFG.KIND h p) with
    | 1 => match (s.head h).view with
      | some v => opaque_ (s.reamPixel h p v (x - px) (y - py))
      | none => none
    | 2 => match (s.wfLines h)[y - py]? with
      | some l => opaque_ (l.2.getD (x - px) 0)
      | none => none
    | 3 => s.tracePixel h p (x - px) (y - py)
    | _ => none

/-- R637, R642: a pixel of a line: the topmost plane's colour, else BG; a pixel not supplied in time shows BG. -/
def State.pixel (s : State) (h y supplied x : Nat) : Word :=
  let bg : Word := BitVec.ofNat 32 (s.headGet h (R.DISP_BG.BG h))
  if supplied ≤ x then bg
  else match [3, 2, 1, 0].findSome? (fun p => s.planePixel h p x y) with
    | some i => (s.head h).palette.getD i 0
    | none => bg

/-- R639: the first line of a ream plane: a copy not complete is given up and counted. -/
def State.viewNeeded (s : State) (h : Nat) : State :=
  (List.range 8).foldl (fun (s : State) m =>
    let s := s.viewsDue m
    if (s.ream m).dcuts.any (fun d => d.2 == h) then
      (s.updReam m (fun r => { r with dcuts := r.dcuts.filter (fun d => d.2 != h) })).satInc (R.DISP_ERR.STALE h)
    else s) s

/-- Active line `y` of head `h` is composed, `supplied` pixels of it in time, and leaves (R637, R639–R643). -/
def State.sendLine (s : State) (h y supplied : Nat) : State :=
  let s := s.put (R.DISP_POS.SCANLINE h) y
  let s := if bit (s.head h).ev 1 ∧ y = s.headGet h (R.DISP_LINE.LINE h) then s.headEvent 449 h else s
  let first := (List.range 4).any (fun p => s.headGet h (R.PL_CFG.KIND h p) == 1 && s.headGet h (R.PL_POS.Y h p) == y)
  let s := if first then s.viewNeeded h else s
  let w := s.headGet h (R.DISP_HTIM.HACTIVE h)
  let s := if supplied < w then (s.satInc (R.DISP_ERR.UNDERRUN h)).raiseInst 451 h else s
  let s := s.send (.line h y ((List.range w).map (fun x => s.pixel h y supplied x)))
  s.updHead h (fun x => { x with line := some (y + 1) })

/-- ACTIVE_LINE_START (R637, R639–R643): the next active line begins; the composer supplies its first `supplied` pixels in time. -/
def execActiveLineStart (h : Fin 2) (supplied : Fin 3841) (s : State) : Out :=
  let h := h.val
  match (s.head h).line with
  | none => .next s
  | some y =>
    if s.headState h ≠ 3 ∨ s.activeLines h ≤ y then .next s
    else .next (s.sendLine h y supplied.val)

/-! ### Display orders (R645, R646) -/

/-- The parameter checks of DISP_EDID (R387): each field's byte offset, and whether the field is invalid. -/
def dispEdidChecks (o : Order) : List (Nat × Bool) :=
  [chk 16 (1 < o.u 16 1), chk 18 (o.u 18 1 = 0 ∨ 8 < o.u 18 1 ∨ 256 < o.u 17 1 + o.u 18 1)] ++ reserved o 19 5
    ++ [chk 24 (o.u 24 8 % 64 ≠ 0)] ++ reserved o 36 28

/-- DISP_EDID (R645, R646). -/
def State.dispEdidAccept (o : Order) (s : State) : State :=
  s.validate o (dispEdidChecks o) (fun s =>
      let st := s.headState (o.u 16 1)
      if st = 0 ∨ st = 1 then s.retire o stState else s)

/-- The arm of that order. -/
def execDispEdid (s : State) : Out := .next (s.accept 0x0F01 State.dispEdidAccept)

/-- R646: a DISP_EDID ends with the bytes read so far. -/
def State.edidEnd (s : State) (o : Order) (status n : Nat) : State := s.retireWith o status 0 [(32, leBytes 4 n)]

/-- AUX_TRANSACTION_DONE (R646): a 16-byte AUX transaction of a DISP_EDID ends with its bytes, or unanswered; after 3 retries the order
fails. -/
def execAuxTransactionDone (ring index : Nat) (answer : Option (List Byte)) (s : State) : Out :=
  match s.order? (ring, index) with
  | some o =>
    if o.opcode ≠ 0x0F01 then .next s
    else if o.phase = .cancelling then .next (s.edidEnd o stPartial o.done)
    else
      match answer with
      | some bs =>
        let s := s.writeHost (o.u 24 8 + o.done) (overlay (List.replicate 16 0#8) 0 (bs.take 16)) []
        let n := o.done + 16
        let s := s.updOrder o.ref (fun o => { o with phase := .running, done := n, aux := 0 })
        if 128 * o.u 18 1 ≤ n then .next (s.edidEnd o stOk n) else .next s
      | none =>
        if 3 ≤ o.aux then .next (s.edidEnd o 0x2E o.done) else .next (s.updOrder o.ref (fun o => { o with aux := o.aux + 1 }))
  | none => .next s

/-- R646: a cancel of a DISP_EDID. -/
def State.edidCancel (s : State) (o : Order) : State :=
  if o.done = 0 then s.retire o stCancelled else s.updOrder o.ref (fun o => { o with phase := .cancelling })

/-- The parameter checks of DISP_PALETTE (R387): each field's byte offset, and whether the field is invalid. -/
def dispPaletteChecks (o : Order) : List (Nat × Bool) :=
  [chk 16 (1 < o.u 16 1)] ++ reserved o 17 7 ++ [chk 24 (o.u 24 8 % 64 ≠ 0)] ++ reserved o 32 32

/-- DISP_PALETTE (R645, R646): the order reads its table. -/
def State.dispPaletteAccept (o : Order) (s : State) : State :=
  s.validate o (dispPaletteChecks o) (fun s => s.startRead o (o.u 24 8) 1024)

/-- The arm of that order. -/
def execDispPalette (s : State) : Out := .next (s.accept 0x0F02 State.dispPaletteAccept)

/-- R645, R646: the table has been read: the shadow palette is replaced, or an entry has a bit above its RGB. -/
def State.paletteArrived (s : State) (o : Order) (bs : List Byte) : State :=
  let es := (pieces 4 bs).map leNat
  if es.any (fun e => decide (2 ^ 24 ≤ e)) then s.retire o stBadParam 24
  else (s.updHead (o.u 16 1) (fun x => { x with palShadow := es.map (fun e => BitVec.ofNat 32 e) })).retire o stOk

/-! ### The status panel (R647–R649) -/

/-- PNL_STATUS.STATE: 0 OFF, 1 INIT, 2 READY, 3 ERROR. -/
def State.pnlState (s : State) : Nat := s.get R.PNL_STATUS.STATE

/-- The panel's size. -/
def State.pnlW (s : State) : Nat := s.get R.PNL_CFG.WIDTH
def State.pnlH (s : State) : Nat := s.get R.PNL_CFG.HEIGHT

/-- R648: the tiles of a row of tiles, and how many rows there are. -/
def State.tilesX (s : State) : Nat := ceilDiv s.pnlW 16
def State.tilesY (s : State) : Nat := ceilDiv s.pnlH 16

/-- R647: LK3 begins its sequence: PNL_RST_L is held low for 10 µs. -/
def State.pnlBegin (s : State) : State :=
  let s := (s.send (.level 3 0 false s.time)).send (.level 3 0 true (s.time + nsUnits 10000))
  { s with panel := { s.panel with since := s.ns } }

/-- R647: a word written to PNL_CFG: while EN = 1 only EN may change; a size out of range is refused. On EN = 1 the sequence begins, once LK3
is UP. -/
def State.writePnlCfg (s : State) (w : Word) : State :=
  let was := s.on R.PNL_CFG.EN
  let en := bit w.toNat 0
  let wd := bits w.toNat 8 9
  let ht := bits w.toNat 17 9
  let same := bits w.toNat 1 25 / 2 ^ 2 = bits (s.word R.PNL_CFG).toNat 1 25 / 2 ^ 2 ∧ bit w.toNat 1 = bit (s.word R.PNL_CFG).toNat 1
  if was then
    let s := if decide same then s else s.put R.PNL_STATUS.ERR 1
    if en then s
    else (s.put R.PNL_CFG.EN 0).put R.PNL_STATUS.STATE 0
  else if wd = 0 ∨ 480 < wd ∨ ht = 0 ∨ 480 < ht ∨ 153600 < wd * ht then s.put R.PNL_STATUS.ERR 1
  else
    let s := s.plainWrite R.PNL_CFG w
    if !en then s
    else
      let s := s.put R.PNL_STATUS.STATE 1
      if s.lkUp 3 then s.pnlBegin else s

/-- PNL_ENABLE (R647): a write of PNL_CFG, which only PF1 reaches. -/
def execPnlEnable (p : Path) (w : Word) (s : State) : Out :=
  if p ≠ .mgmt then .next s else .next (s.gateAction p R.PNL_CFG (fun s => s.writePnlCfg w))

/-- R648: the dirty tiles of a row of tiles as runs: first tile and count. -/
def tileRuns : List Nat → List (Nat × Nat)
  | [] => []
  | t :: ts => match tileRuns ts with
    | (a, n) :: rest => if a = t + 1 then (t, n + 1) :: rest else (t, 1) :: (a, n) :: rest
    | [] => [(t, 1)]

/-- The bytes of a big-endian 16-bit number. -/
def be16 (n : Nat) : List Byte := [BitVec.ofNat 8 (n / 256), BitVec.ofNat 8 n]

/-- The whole store is to be sent. -/
def State.pnlAllDirty (s : State) : State := { s with panel := { s.panel with dirty := List.range (s.tilesX * s.tilesY) } }

/-- R649: while the firmware owns the panel the store holds its status screen, whose pixels are open. -/
def State.pnlScreen (s : State) : State :=
  if s.on R.PNL_STATUS.OWNER then s
  else
    let bs := (Config.statusScreen s.freeCtr).take (2 * (s.pnlW * s.pnlH))
    { s with freeCtr := s.freeCtr + 1, panel := { s.panel with store := Mem.writes 0#8 s.panel.store 0 bs } }.pnlAllDirty

/-- R648: a push: every dirty tile run with column and page address set and memory write. -/
def State.pnlPush (s : State) : State :=
  let s := s.pnlScreen
  let tx := s.tilesX
  let s := (List.range s.tilesY).foldl (fun (s : State) ty =>
    let ts := (List.range tx).filter (fun x => s.panel.dirty.contains (ty * tx + x))
    (tileRuns ts).foldl (fun (s : State) run =>
      let x0 := 16 * run.1
      let x1 := min s.pnlW (16 * (run.1 + run.2))
      let y0 := 16 * ty
      let y1 := min s.pnlH (16 * (ty + 1))
      let pix := (List.range (y1 - y0)).flatMap (fun j => (List.range (x1 - x0)).flatMap (fun i =>
        be16 (leNat (Mem.reads 0#8 s.panel.store (2 * ((y0 + j) * s.pnlW + x0 + i)) 2))))
      ((s.send (.frame 6 0 (0x2A#8 :: be16 x0 ++ be16 (x1 - 1)))).send (.frame 6 0 (0x2B#8 :: be16 y0 ++ be16 (y1 - 1)))).send
        (.frame 6 0 (0x2C#8 :: pix))) s) s
  { (s.inc R.PNL_STATUS.PUSHES) with panel := { s.panel with dirty := [], since := s.ns } }

/-- PNL_INIT_COMPLETE (R591, R647): LK3's sequence on EN = 1 ends, the panel having answered with a display ID; an ID of all zeros or all ones gives
ERROR. -/
def execPnlInitComplete (id : Word) (s : State) : Out :=
  if s.pnlState ≠ 1 ∨ !s.lkUp 3 ∨ s.ns < s.panel.since + 240010000 then .next s
  else
    let s := [[0x11#8], [0x3A#8], [0x04#8]].foldl (fun s bs => s.send (.frame 6 0 bs)) s
    if id = 0 ∨ id = 0xFFFFFFFF#32 then .next ((s.put R.PNL_STATUS.STATE 3).raiseInst 452 0)
    else .next (((s.send (.frame 6 0 [0x29#8])).put R.PNL_STATUS.STATE 2).pnlAllDirty.pnlPush)

/-- Whether LK3 can push: the panel is READY, LK3 is UP, the device is not below READY. -/
def State.pnlCanPush (s : State) : Bool := s.pnlState == 2 && s.lkUp 3 && !s.lowPower

/-- PNL_PUSH_TIMER (R648): PERIOD_MS have passed since the last push. -/
def execPnlPushTimer (s : State) : Out :=
  let per := s.get R.PNL_PERIOD.PERIOD_MS
  if per = 0 ∨ !s.pnlCanPush ∨ s.ns < s.panel.since + 1000000 * per then .next s else .next s.pnlPush

/-- PNL_INFO (R649): WIDTH, HEIGHT, PNL_STATUS. -/
def execPnlInfo (ch : Fin 16) (s : State) : Out :=
  .next (s.serve ch 0x10 true (fun n => n == 0) (fun _ s => (0, [mword s.pnlW, mword s.pnlH, s.word R.PNL_STATUS], s)))

/-- PNL_OWNER (R649): 0 FIRMWARE or 1 MGMT. -/
def execPnlOwner (ch : Fin 16) (s : State) : Out :=
  .next (s.serve ch 0x11 true (fun n => n == 1) (fun d s =>
    let v := (d.headD 0).toNat
    if 1 < v then (5, [], s) else (0, [], s.put R.PNL_STATUS.OWNER v)))

/-- X, Y, W, H of a rectangle's two words. -/
def rectOf (d : List Word) : Nat × Nat × Nat × Nat :=
  let a := (d.headD 0).toNat
  let b := (d.tail.headD 0).toNat
  (bits a 0 16, bits a 16 16, bits b 0 16, bits b 16 16)

/-- Pixels (column, row of the rectangle) of a rectangle, written into a store whose lines are `w` pixels wide. -/
def drawInto (w : Nat) (r : Nat × Nat × Nat × Nat) (px : Nat → Nat → Nat) (m : Mem) : Mem :=
  (List.range r.2.2.2).foldl (fun (m : Mem) j => (List.range r.2.2.1).foldl (fun (m : Mem) i =>
    Mem.writes 0#8 m (2 * ((r.2.1 + j) * w + r.1 + i)) (leBytes 2 (px i j))) m) m

/-- R648: pixels written into the store; their tiles become dirty. -/
def State.pnlDraw (s : State) (r : Nat × Nat × Nat × Nat) (px : Nat → Nat → Nat) : State :=
  let hit := (List.range (s.tilesX * s.tilesY)).filter (fun t =>
    let x := 16 * (t % s.tilesX)
    let y := 16 * (t / s.tilesX)
    s.panel.dirty.contains t || decide (r.1 < x + 16 ∧ x < r.1 + r.2.2.1 ∧ r.2.1 < y + 16 ∧ y < r.2.1 + r.2.2.2))
  { s with panel := { s.panel with store := drawInto s.pnlW r px s.panel.store, dirty := hit } }

/-- R649: a drawing service on a rectangle: BUSY while the firmware owns the panel, FAILED outside it. -/
def State.pnlRect (s : State) (d : List Word) (px : Nat → Nat → Nat) : Nat × List Word × State :=
  let r := rectOf d
  if !s.on R.PNL_STATUS.OWNER then (4, [], s)
  else if s.pnlW < r.1 + r.2.2.1 ∨ s.pnlH < r.2.1 + r.2.2.2 then (5, [], s)
  else (0, [], s.pnlDraw r px)

/-- PNL_BLIT (R649): ⌈W × H / 2⌉ words of pixels, two per word, the lower-addressed one in bits 15:0. -/
def execPnlBlit (ch : Fin 16) (s : State) : Out :=
  let size := match s.request ch with
    | some (_, _, d, _) => (rectOf d).2.2.1 * (rectOf d).2.2.2
    | none => 0
  .next (s.serve ch 0x12 true (fun n => decide (size ≤ 506) && n == 2 + (size + 1) / 2) (fun d s =>
    let w := (rectOf d).2.2.1
    s.pnlRect d (fun i j => let k := j * w + i; bits ((d.drop 2).getD (k / 2) 0).toNat (16 * (k % 2)) 16)))

/-- PNL_FILL (R649): one colour. -/
def execPnlFill (ch : Fin 16) (s : State) : Out :=
  .next (s.serve ch 0x13 true (fun n => n == 3) (fun d s => s.pnlRect d (fun _ _ => bits ((d.drop 2).headD 0).toNat 0 16)))

/-- PNL_PUSH (R591, R648, R649): a push now, answered after it; it waits while LK3 cannot push, and fails where the panel is not READY. -/
def execPnlPush (ch : Fin 16) (s : State) : Out :=
  if s.pnlState = 2 ∧ !s.pnlCanPush then .next s
  else .next (s.serve ch 0x14 true (fun n => n == 0) (fun _ s => if s.pnlCanPush then (0, [], s.pnlPush) else (5, [], s)))

end Machine
end Sys2Proof
end

