-- ==== Sys2Proof/Machine/Power.lean ====
section
/-!
DEFINITION. Power modes (R569–R576, R581): requests, what carrying one out does, entry into STANDBY and SLEEP, what each loses, and the wake
causes.

Marked choices (log entries): DEDUCED 85, 132, 147; DESIGN CHOICE 1, 46, 88. Each entry of notes/assumptions says safe or
unsafe.
-/

namespace Sys2Proof
namespace Machine

/-! ### Requests (R572, R581) -/

/-- The present mode as requests compare it: READY and RUN are one level (2). -/
def State.modeLevel (s : State) : Nat := min 2 (s.get R.GLOBAL_PWRSTAT.MODE)

/-- R572: the pending request waits behind flights that climb: HELD, their PD_HOLD, and PD_PENDING of the converters not OFF. -/
def State.holdRequest (s : State) : State :=
  if s.climbingDeps.isEmpty then s
  else
    let s := s.climbingDeps.foldl (fun s f => s.put (R.FL_STATUS.PD_HOLD f) 1) (s.put R.GLOBAL_PWRSTAT.HELD 1)
    [0, 1, 2, 3].foldl (fun s n => if s.adcState n = 0 then s else s.put (R.ADC_STATUS.PD_PENDING n) 1) s

/-- No request waits any more. -/
def State.clearRequest (s : State) : State :=
  let s := { ((s.put R.GLOBAL_PWRSTAT.PEND 0).put R.GLOBAL_PWRSTAT.HELD 0) with power := { s.power with req := none } }
  let s := [0, 1, 2, 3].foldl (fun s n => s.put (R.ADC_STATUS.PD_PENDING n) (b2n (s.pdHeld.contains n))) s
  s.settleHolds

/-- A pending request given up: its order retires CANCELLED. -/
def State.dropRequest (s : State) : State :=
  match s.power.req with
  | none => s
  | some r =>
    let s := s.clearRequest
    match r.order with
    | some o => s.retireRef o stCancelled []
    | none => s

/-- The outputs of a POWER_MODE order: the mode reached. -/
def modeOut (m : Nat) : List (Nat × List Byte) := [(32, leBytes 1 m)]

/-- R572: a request for a mode (0 SLEEP, 1 STANDBY, 2 READY): at or above the present one it completes at once; else it replaces the pending one,
and waits while a dependent flight climbs. -/
def State.requestMode (s : State) (target : Nat) (order : Option OrderRef) (auto : Bool) : State :=
  if s.modeLevel ≤ target then
    match order with
    | some r =>
      let late := match s.order? r with
        | some o => o.late
        | none => false
      s.retireRef r (if late then stLate else stOk) (modeOut (s.get R.GLOBAL_PWRSTAT.MODE))
    | none => s
  else
    let s := s.dropRequest
    let s := s.put R.GLOBAL_PWRSTAT.PEND (3 - target)
    { s with power := { s.power with req := some ⟨target, order, auto⟩ } }.holdRequest

/-- POWER_REQUEST (R229, R572): a write of GLOBAL_PWRCTL.REQ: 1 READY, 2 STANDBY, 3 SLEEP. -/
def State.writeReq (s : State) (req : Nat) : State := if req = 0 then s else s.requestMode (3 - req) none false
def execPowerRequest (p : Path) (req : Fin 4) (s : State) : Out := .next (s.gateAction p R.GLOBAL_PWRCTL (fun s => s.writeReq req.val))

/-- POWER_CANCEL (R572): a write of GLOBAL_PWRCTL.CANCEL. -/
def execPowerCancel (p : Path) (s : State) : Out := .next (s.gateAction p R.GLOBAL_PWRCTL (fun s => s.dropRequest))

/-- A word written to GLOBAL_PWRCTL. -/
def State.writePwrctl (s : State) (w : Word) : State :=
  let s := if bit w.toNat 2 then s.dropRequest else s
  s.writeReq (bits w.toNat 0 2)

/-- R581: an order becomes its request. -/
def State.modeOrderDue (s : State) (o : Order) (late : Bool) : State :=
  let s := s.updOrder o.ref (fun o => { o with phase := .running, late := late })
  s.requestMode (2 - o.u 16 1) (some o.ref) false

/-- The parameter checks of POWER_MODE (R387): each field's byte offset, and whether the field is invalid. -/
def powerModeChecks (o : Order) : List (Nat × Bool) :=
  [chk 16 (2 < o.u 16 1), chk 17 (1 < o.u 17 1)] ++ reserved o 18 2 ++ [chk 20 (o.u 17 1 = 1 ∧ badTime o 20)]
    ++ reserved o 33 31

/-- POWER_MODE (R229, R572, R581): an order without a TIME, or whose TIME has passed, becomes its request; another waits. -/
def State.powerModeAccept (o : Order) (s : State) : State :=
  s.validate o (powerModeChecks o) (fun s =>
    if o.u 17 1 = 0 then s.modeOrderDue o false
    else if ofTime96 (o.u 20 12) < s.time then s.modeOrderDue o true
    else s)

/-- The arm of that order: one waiting for its TIME becomes a request once that is reached; else the next order of this opcode is
taken. -/
def execPowerMode (s : State) : Out :=
  match s.orders.find? (fun o => o.opcode == 0x0E01 && o.phase == .pending && decide (ofTime96 (o.u 20 12) ≤ s.time)) with
  | some o => .next (s.modeOrderDue o o.late)
  | none => .next (s.accept 0x0E01 State.powerModeAccept)

/-- R581: a cancel of a POWER_MODE: CANCELLED before it is carried out; afterwards there is no later granule. -/
def State.modeCancel (s : State) (o : Order) : Bool × State :=
  if o.phase = .pending then (true, s.retire o stCancelled)
  else match s.power.req with
    | some r => if r.order = some o.ref then (true, s.dropRequest) else (false, s)
    | none => (false, s)

/-! ### Carrying a request out (R573, R574) -/

/-- Every queue is empty. -/
def State.queuesEmpty (s : State) : Bool := s.queues.all (fun e => e.2.barges.isEmpty) && s.cells.isEmpty

/-- Step 2 of R574: the lookout parks with its final poll. -/
def State.parkNow (s : State) : State :=
  if s.on R.RING_STATUS.PARKED || !s.on R.RING_CTL.LOOKOUT_EN then s
  else
    let s := { s with lookout := { s.lookout with parkSeq := (s.lookout.parkSeq + 1) % 65536, finalPoll := true } }
    ((s.put R.RING_STATUS.PARKED 1).writeStatusWord true).pollReads

/-- Steps 2 and 3 of R574: the lookout parks and the order retires. -/
def State.parkAndRetire (s : State) (r : PwrReq) (status : Nat) : State :=
  let s := s.parkNow
  match r.order with
  | some ref =>
    let late : Bool := match s.order? ref with
      | some o => o.late
      | none => false
    s.retireRef ref (if status == stOk && late then stLate else status) (modeOut r.target)
  | none => s

/-- R573: plans, generators, recordings and TDC work stop, and the enables of their units are cleared. -/
def State.stopUnits (s : State) : State :=
  let s := (List.range 64).foldl (fun s p => s.stopPlan p) s
  let s := (List.range 8).foldl (fun s g => s.sgAbort g 6) s
  let s := (List.range 8).foldl (fun (s : State) r => if s.on (R.NVME_REC_CFG.EN r) then s.stopRec r else s) s
  let s := (List.range 16).foldl (fun (s : State) i =>
    if s.on (R.TDC_IN_CFG.EN i) then ((s.tdcAbort i).put (R.TDC_IN_CFG.EN i) 0).enablePin (12 + i) true else s) s
  let s := [0, 1, 2, 3].foldl (fun (s : State) n => (s.put (R.ADC_CTL.ON n) 0).gateAdc n) s
  let s := [0, 1, 2, 3].foldl (fun (s : State) n => if s.on (R.DAC_CTL.ON n) then s.dacOff n else s) s
  (List.range 16).foldl (fun (s : State) u => if s.on (R.CU_CTL.EN u) then s.cuEnable u false else s) s

/-- R573, R574: a request is carried out: the units stop; a STANDBY request goes on at once, a SLEEP request waits for the queues. -/
def State.carryOut (s : State) (r : PwrReq) : State :=
  let s := s.clearRequest
  let s := { s with power := { s.power with entering := some r, drainAt := s.adv, drained := r.target == 1 } }
  let s := if s.lowPower then s else s.stopUnits
  if r.target = 1 then s.parkAndRetire r stOk else s

/-- POWER_REQUEST_CARRIED_OUT (R34, R63, R158, R448, R471, R573, R574, R591, R594): the pending request, no longer held by a climbing flight, is
carried out by LK0; one that arrives during an activation waits. -/
def execPowerRequestCarriedOut (s : State) : Out :=
  match s.power.req with
  | none => .next s
  | some r =>
    if !s.climbingDeps.isEmpty then .next s.holdRequest
    else if !s.lkUp 0 || s.get R.LK_BOOT.ACT ≠ 0 || s.power.entering.isSome || s.power.returning.isSome then .next s
    else .next (s.carryOut r)

/-- SLEEP_DRAIN_END (R574, R581): the queues are empty, or SLEEP_DRAIN ms have passed and the device stops at STANDBY. -/
def execSleepDrainEnd (s : State) : Out :=
  match s.power.entering with
  | none => .next s
  | some r =>
    if s.power.drained then .next s
    else if s.queuesEmpty then .next ({ s with power := { s.power with drained := true } }.parkAndRetire r stOk)
    else if s.power.drainAt + 1000000 * s.get R.GLOBAL_PWRPOL.SLEEP_DRAIN ≤ s.adv then
      let r := { r with target := 1 }
      let s := { s with power := { s.power with entering := some r, drained := true } }
      .next (((s.put R.GLOBAL_PWRSTAT.SLEEP_HELD 1).raiseInst 419 0).parkAndRetire r 0x2D)
    else .next s

/-! ### What STANDBY and SLEEP lose (R570, Table 19-5) -/

/-- A flight is OFF with LAST unchanged. -/
def State.flightOff (s : State) (f : Nat) : State :=
  if s.flState f = 0 then s
  else
    let ref := (s.flight f).armRef
    let s := ((s.put (R.FL_STATUS.STATE f) 0).put (R.FL_STATUS.CHAMBER f) 0).put (R.FL_STATUS.PD_HOLD f) 0
    let s := s.updFlight f (fun x => { x with armRef := none, armAt := none, gate := none, kept := none })
    match ref with
    | some r => s.retireRef r stCancelled []
    | none => s

/-- R67, R560: a PLL gated; no loss of lock. -/
def State.pllOff (s : State) (k : Nat) : State :=
  let s := (s.put (R.CLK_PLL.LOCKED k) 0).put (R.CLK_PLL.ON k) 0
  if k = 1 ∨ k = 2 then [2 * (k - 1), 2 * (k - 1) + 1].foldl (fun s n => s.put (R.ADC_STATUS.CNT_VALID n) 0) s else s

/-- The SERDES links down, their enables kept. -/
def State.linksDown (s : State) : State :=
  let s := s.reroute (fun s => (List.range 6).foldl (fun (s : State) l => if s.on (R.KX_LINK.EN l) then s.put (R.KX_LINK.STATE l) 0 else s) s)
  let s := { s with kx := { s.kx with frozen := [], late := [] } }
  let s := (List.range 16).foldl (fun (s : State) n => if s.on (R.PROBE_LANE.EN n) then
    (s.put (R.PROBE_LANE.STATE n) 0).updPLane n (fun x => { x with beacons := [], beaconAt := none }) else s) s
  let s := (List.range 16).foldl (fun (s : State) g => s.groupSilent g) s
  let s := (List.range 8).foldl (fun (s : State) n => if s.driveState n = 0 then s else s.driveGone n) s
  s.put R.ETH_CFG.LINK 0

/-- Lanes not FENCED are gated, and their tests end without result. -/
def State.gateLanes (s : State) : State :=
  let s := (List.range 64).foldl (fun (s : State) p => if 2 ≤ s.planState p then s.haltPlan p none else s) s
  let s := (List.range 18).foldl (fun (s : State) l =>
    let s := s.dropTest l
    if s.laneState l = 4 then s else ((s.setLane l 0).put (R.LANE_STATUS.PLAN l) 0).put (R.LANE_STATUS.SLOT l) 0) s
  s

/-- What leaves READY with the CORE and converter domains: units, clocks, links, LK1–LK3, heads, flights, calender memories, reference
buffers (their enables stay). -/
def State.leaveReady (s : State) : State :=
  let s := s.gateLanes
  let s := [0, 1, 2, 3].foldl (fun (s : State) n => if s.adcState n = 0 then s else (s.put (R.ADC_STATUS.LAST n) 3).adcToOff n) s
  let s := s.setWord R.CONV_REFSTAT 0#32
  let s := (List.range 16).foldl (fun (s : State) u => (s.put (R.CU_STATUS.STATE u) 0).cuLose u) s
  let s := ((List.range 16).foldl (fun s f => s.flightOff f) s).releaseHeld
  let s := [0, 1, 2, 3, 4].foldl (fun s k => s.pllOff k) s
  let s := s.linksDown
  let s := [1, 2, 3].foldl (fun (s : State) k => if s.lkState k = 4 then s else s.put (R.LK_STATUS.STATE k) 0) s
  [0, 1].foldl (fun (s : State) h => if s.headState h = 0 then s else s.setHead h 6) s

/-- One queue as SLEEP leaves it: OFF, its contents lost, EPOCH advanced; a FENCED queue stays FENCED. -/
def State.queueLost (s : State) (q : Nat) : State :=
  let s := s.put (R.QUEUE_CFG.EN q) 0
  if s.qstate q = qFenced then s
  else
    let s := (s.inc (R.QUEUE_STAT.EPOCH q)).put (R.QUEUE_STAT.STATE q) qOff
    ((s.put (R.QUEUE_STAT.OCC q) 0).put (R.QUEUE_STAT.CONSUMER q) 0).setWord (R.QUEUE_TEAR q) 0#32

/-- The cell pool and every queue, lost. -/
def State.poolLost (s : State) : State :=
  let s := (List.range 4096).foldl (fun s q => s.queueLost q) s
  { s.put R.QUEUE_POOLSTAT.FREE 131072 with queues := [], cells := [], markStore := [], waitQ := [] }

/-- The contents of every pound lost; its drains stay enabled or not (R306). -/
def State.storesLost (s : State) : State :=
  { s with pounds := s.pounds.map (fun e => (e.1, { drains := e.2.drains.map (fun d => (d.1, { on := d.2.on })) })) }

/-- Capture memory lost: enabled pounds are OFF with POUND_LOST, and every channel runs INIT on return (R292). -/
def State.memoryLost (s : State) (event : Bool) : State :=
  let s := (List.range 64).foldl (fun (s : State) p =>
    if s.on (R.POUND_CFG.EN p) then
      let s := s.disablePound p
      if event then s.raiseInst 135 p else s
    else s) s
  s.storesLost

/-- The stimulus cache's contents lost. -/
def State.cacheLost (s : State) : State := { s with cache := [] }

/-- Plans, windows, weirs, reams, detector state, catalogue, stimulus cache and sequences, lost. -/
def State.setupsLost (s : State) : State :=
  let s := (List.range 64).foldl (fun (s : State) p => s.put (R.PLAN_STATUS.STATE p) 0) s
  let s := (List.range 32).foldl (fun (s : State) e => s.put (R.DET_STATUS.WAITING e) 0) s
  let s := (List.range 8).foldl (fun (s : State) g =>
    let x := s.sg g
    (s.put (R.SG_STATUS.STATE g) 0).updSg g (fun _ => { anchorCount := x.anchorCount, anchorTime := x.anchorTime })) s
  let s := (List.range 8).foldl (fun (s : State) m => s.updReam m (fun r => { seq := r.seq, lastDecay := r.lastDecay })) s
  let s := { s with plans := [], userWindows := [], weirs := [], engines := [], zones := [], probe := { s.probe with catalogue := [] } }
  s.cacheLost

/-- What SLEEP loses beyond STANDBY. -/
def State.sleepLoses (s : State) : State := ((s.memoryLost true).setupsLost).poolLost

/-- The registers two files list between them, from the highest key down. -/
def RegFile.keys (a b : RegFile) : List Nat := (a.foldl (fun (m : SMap Unit) e => SMap.put m e.1 ()) (b.map (fun e => (e.1, ())))).reverse.map (fun e => e.1)

/-- The set-up as it stood at entry, with the bits that a deeper mode itself changes (R570). -/
def RegFile.follow (kept before after : RegFile) : RegFile :=
  (before.keys after).foldl (fun r k =>
    let d := before.word k ^^^ after.word k
    if d = 0 then r else r.store k ((r.word k &&& ~~~d) ||| (after.word k &&& d))) kept

/-- Whether anything is awake that only RUN has (R570). -/
def State.runAwake (s : State) : Bool :=
  (List.range 18).any (fun l => let st := s.laneState l; st == 1 || st == 2 || st == 3 || st == 5)
    || [0, 1, 2, 3].any (fun n => s.adcState n != 0 || s.dacState n != 0)
    || (List.range 16).any (fun u => s.cuState u != 0 || s.on (R.TDC_IN_CFG.EN u))
    || (List.range 8).any (fun r => s.recState r != 0)

/-- R356: the latency tolerance that the device reports in its mode: 100 µs in SLEEP and STANDBY, 1 µs in RUN, 5 µs in READY. -/
def State.ltrUs (s : State) : Nat := if s.lowPower then 100 else if s.runAwake then 1 else 5

/-- The tolerance of the present mode reported, while the link is up. -/
def State.reportLtr (s : State) : State :=
  if s.pcie.linkUp then { s with power := { s.power with ltr := some s.ltrUs } }.send (.ltr s.ltrUs) else s

/-- R356: a tolerance other than the one last reported on this link, as a tick finds it, is reported. -/
def State.watchLtr (s : State) : State :=
  if !s.pcie.linkUp then { s with power := { s.power with ltr := none } }
  else if s.power.ltr = some s.ltrUs then s
  else s.reportLtr

/-- The mode of a drained request is reached (R241, R292, R570, R574, R589). -/
def State.modeReached (s : State) (r : PwrReq) : State :=
  let first := !s.lowPower
  let s := if first then s.leaveReady else s
  let before := s.regs
  let s := if r.target = 0 then s.sleepLoses else s
  let kept := if first then s.regs else s.power.kept.follow before s.regs
  let s := (s.put R.GLOBAL_PWRSTAT.MODE r.target).put R.PCIE_LINK.PM (if r.target = 0 then 2 else 1)
  { s with power := { s.power with entering := none, drained := false, kept := kept } }.reportLtr

/-- MODE_ENTRY_COMPLETE (R241, R292, R448, R570, R574, R589, R633): STANDBY or SLEEP is reached. -/
def execModeEntryComplete (s : State) : Out :=
  match s.power.entering with
  | none => .next s
  | some r =>
    if !s.power.drained then .next s else .next (s.modeReached r)

/-! ### Waking (R356, R575, R576, R559) -/

/-- R356: what the link is told of a wake: in L1.2 CLKREQ_L is asserted, and with the link down, in D3cold, WAKE_L, a power management event
following once the link is up. -/
def State.wakeLink (s : State) : State :=
  if s.pcie.linkUp then (if s.get R.PCIE_LINK.PM = 2 then s.send (.level 7 0 true s.time) else s)
  else { s.send (.level 8 0 true s.time) with pcie := { s.pcie with pmeDue := true } }

/-- WAKE_CAUSE (R356, R575): the first wake cause, once entry is complete, starts the return; without REFCLK it waits. -/
def execWakeCause (s : State) : Out :=
  if s.power.wake.isNone || !s.lowPower || s.power.entering.isSome || s.power.returning.isSome || s.monitor.tripped
      || !s.on R.CLK_REF.PRESENT || !s.lkUp 0 then .next s
  else .next ({ s with power := { s.power with returning := some s.adv } }.dropRequest).wakeLink

/-- R576: what the automatic policy waits for: the lookout parked, the device in READY, every queue empty. -/
def State.autoIdle (s : State) : Bool :=
  s.on R.RING_STATUS.PARKED && !s.lowPower && s.power.entering.isNone && s.queuesEmpty && !s.runAwake

/-- R356, R576: what a tick finds of the power mode: since when the policy's conditions have held, and the latency tolerance. -/
def State.watchPower (s : State) : State :=
  { s with power := { s.power with idleSince := if s.autoIdle then some (s.power.idleSince.getD s.adv) else none } }.watchLtr

/-- TIMEKEEPER_TICK (R356, R515, R516, R518, R576): one tick of the AON clock: the timekeeper advances, the automatic policy looks whether its
conditions hold, and a new latency tolerance is reported. -/
def execTimekeeperTick (s : State) : Out := .next s.tick.watchPower

/-- AUTO_POLICY (R572, R576): once its conditions have held for AUTO_AFTER ms without a break, the device requests AUTO_MODE, STANDBY in
place of SLEEP while a pound is enabled. -/
def execAutoPolicy (s : State) : Out :=
  let mode := s.get R.GLOBAL_PWRPOL.AUTO_MODE
  match s.power.idleSince with
  | none => .next s
  | some t =>
    if !s.autoIdle || mode == 0 || mode == 3 || s.power.req.isSome
        || s.adv < t + 1000000 * max 1 (s.get R.GLOBAL_PWRPOL.AUTO_AFTER) then .next s
    else
      let pounds := (List.range 64).any (fun p => s.on (R.POUND_CFG.EN p))
      .next (s.requestMode (if mode = 2 ∧ !pounds then 0 else 1) none true)

/-- REFCLK_HOLDOVER_EXPIRY (R559): REFCLK has been away for 10 ms: the device makes a protective entry into STANDBY. -/
def execRefclkHoldoverExpiry (s : State) : Out :=
  match s.clk.lostAt with
  | none => .next s
  | some t =>
    if s.on R.CLK_REF.PRESENT || s.adv < t + 10000000 || s.lowPower || s.power.entering.isSome then .next s
    else
      let s := { s.dropRequest with clk := { s.clk with protective := true } }
      .next (s.carryOut ⟨1, none, false⟩)

end Machine
end Sys2Proof
end

