-- ==== Sys2Proof/Machine/Housekeeping.lean ====
section
/-!
DEFINITION. The housekeeping monitor (R97–R102), the protective actions (R577–R579), the GPIO balls and the PWMs (R667–R669).

Marked choices (log entries): DEDUCED 98, 99, 108; DESIGN CHOICE 88, 100. Each entry of notes/assumptions says safe or unsafe.
-/

namespace Sys2Proof
namespace Machine

/-! ### The hardware trip (R101, R579) -/

/-- R579: every domain but AON is gated without the steps of R573: what they hold is lost, the upstream link goes down, THERMTRIP_L is low. -/
def State.trip (s : State) : State :=
  let s := s.leaveReady
  let s := ((s.memoryLost false).setupsLost).poolLost
  let s := s.linkDown.abandonRings
  let s := ((s.put R.GLOBAL_PWRSTAT.MODE 0).put R.GLOBAL_PROT.TRIP_SEEN 1).satInc R.GLOBAL_PROT.ACTIONS
  let s := { s with power := { kept := s.regs }, monitor := { s.monitor with tripped := true } }
  s.send (.level 6 0 false s.time)

/-! ### Results and their limits (R72, R100, R101) -/

/-- Table 03-11: a thermal site, a rail, a channel that converts to 0. -/
def isSite (ch : Nat) : Bool := 32 ≤ ch && ch ≤ 43
def isRail (ch : Nat) : Bool := 16 ≤ ch && ch ≤ 24
def unusedChannel (ch : Nat) : Bool := !(ch ≤ 8 || isRail ch || isSite ch || (48 ≤ ch && ch ≤ 55))

/-- R72: the calibration temperature of ADC `n` from the results of its site over the last second. -/
def State.siteResult (s : State) (n : Nat) (v : Int) : State :=
  let l := (((SMap.find? s.monitor.sites n).getD []).filter (fun x => s.ns < x.1 + 1000000000)) ++ [(s.ns, v)]
  let s := { s with monitor := { s.monitor with sites := SMap.put s.monitor.sites n l } }
  let mean := (l.foldl (fun a x => a + x.2) 0) / (l.length : Int)
  (s.put (R.CAL_TEMP.TEMP n) (mean % 4096).toNat).recomputeIfMoved n

/-- A value or limit of HK_LIMIT(ch) as a number: signed for the thermal sites. -/
def hkNumber (ch width v : Nat) : Int := if isSite ch then sext width v else (v : Int)

/-- Table 03-13: whether a result lies within LO–HI of an HK_LIMIT word of its channel. -/
def withinLimits (lim : Word) (ch : Nat) (v : Int) : Bool :=
  decide (hkNumber ch 14 (bits lim.toNat 0 14) ≤ v) && decide (v ≤ hkNumber ch 14 (bits lim.toNat 16 14))

/-- R100, R578: a result against the HK_LIMIT word `lim` in force (PROT bit 30, LEN bit 31): HK_LIMIT with the channel and the value, a
supply fault for a rail with PROT, and since when a rail has been within its limits. -/
def State.checkLimits (s : State) (lim : Word) (ch : Nat) (v : Int) : State :=
  let ok := withinLimits lim ch v
  let s := if !isRail ch then s
    else if !ok then { s with monitor := { s.monitor with railOk := SMap.erase s.monitor.railOk ch } }
    else if (SMap.find? s.monitor.railOk ch).isSome then s
    else { s with monitor := { s.monitor with railOk := SMap.put s.monitor.railOk ch s.ns } }
  if ok || !bit lim.toNat 31 then s
  else
    let s := s.raiseWith 9 ch [ch, wrap 16 v]
    if isRail ch && bit lim.toNat 30 then { s with monitor := { s.monitor with supplyDue := some ch } } else s

/-- R100, R101: a thermal result against THERM_WARN and THERM_CRIT of the HK_THERM word `therm` in force, and the trip at 115.0 °C. -/
def State.checkSite (s : State) (therm : Word) (ch : Nat) (v : Int) : State :=
  let site := ch - 32
  let s := if (bits therm.toNat 0 12 : Int) ≤ v then s.raiseInst 10 site else s
  let s := if (bits therm.toNat 16 12 : Int) ≤ v then
      let s := s.raiseInst 11 site
      { s with monitor := { s.monitor with emergDue := some ch } }
    else s
  let n := if 920 ≤ v then (SMap.find? s.monitor.hot site).getD 0 + 1 else 0
  let s := { s with monitor := { s.monitor with hot := SMap.put s.monitor.hot site n } }
  if 2 ≤ n && !s.monitor.tripped then s.trip else s

/-- One result of a sequencer on a channel, held against the limits in force since its sequence began (R102). -/
def State.hkResult (s : State) (m ch value raw : Nat) : State :=
  let v := hkNumber ch 16 value
  let s := (s.put (R.HK_RESULT.VALUE ch) value).put (R.HK_RESULT.RAW ch) raw
  let q := s.hkSeq m
  let lim := (SMap.find? q.limits ch).getD (s.word (R.HK_LIMIT ch))
  let s := if m = 0 ∧ 32 ≤ ch ∧ ch < 36 then s.siteResult (ch - 32) v else s
  let s := if m = 0 ∧ isSite ch then { s with monitor := { s.monitor with pass0 := SMap.put s.monitor.pass0 ch v } } else s
  let s := s.checkLimits lim ch v
  if isSite ch then s.checkSite q.therm ch v else s

/-- HK_CONVERSION (R72–R74, R100, R101, R579, R655): the running sequence of sequencer `m` converts its next channel, one every 1 µs. -/
def execHkConversion (m : Fin 4) (value : BitVec 16) (raw : BitVec 12) (s : State) : Out :=
  let m := m.val
  let q := s.hkSeq m
  match q.running with
  | [] => .next s
  | ch :: rest =>
    if s.ns < q.nextAt then .next s
    else
      let s := s.updHkSeq m (fun q => { q with running := rest, nextAt := q.nextAt + 1000 })
      let s := if rest.isEmpty ∧ m ≠ 0 then s.inc (R.HK_SEQ_STAT.DONE (m - 1)) else s
      .next (if unusedChannel ch then s.hkResult m ch 0 0 else s.hkResult m ch value.toNat raw.toNat)

/-! ### Sequences (R98, R99) -/

/-- The list of sequencer `m`: the firmware's for 0, with the slow channels every tenth time. -/
def State.hkList (s : State) (m : Nat) : List Nat :=
  if m = 0 then
    List.range' 32 12 ++ (if (s.hkSeq 0).starts % 10 = 0 then List.range 9 ++ List.range' 16 9 else [])
  else (List.range (min 32 (s.get (R.HK_SEQ_CTL.LEN (m - 1))))).map (fun i =>
    bits (s.get (R.HK_SEQ_LIST.CH (m - 1) (i / 4))) (8 * (i % 4)) 6)

/-- A sequence begins, with the set-up as it now stands (R102). -/
def State.hkBegin (s : State) (m : Nat) : State :=
  let l := s.hkList m
  let lims := l.foldl (fun t ch => SMap.put t ch (s.word (R.HK_LIMIT ch))) []
  s.updHkSeq m (fun q => { q with
    running := l, nextAt := s.ns + 1000, pendingStart := false, starts := q.starts + 1, limits := lims, therm := s.word R.HK_THERM })

/-- R99: a PWM edge whose delayed start is due. -/
def State.edgeDue (s : State) (m t : Nat) : Bool := decide (t + 40 * s.get (R.HK_SEQ_DLY.DELAY (m - 1)) ≤ s.ns)

/-- R98, R99: the source of a sequencer that has come due, as the state without it. -/
def State.hkDue? (s : State) (m : Nat) : Option State :=
  let q := s.hkSeq m
  let src := if m = 0 then 1 else s.get (R.HK_SEQ_CTL.SRC (m - 1))
  let period := if m = 0 then 1000000 else 1000 * max 1 (s.get (R.HK_SEQ_TMR.PERIOD (m - 1)))
  if m = 0 ∧ !s.fw.ready then none
  else if m ≠ 0 ∧ s.get (R.HK_SEQ_CTL.LEN (m - 1)) = 0 then none
  else if src = 1 ∧ q.lastStart + period ≤ s.ns then some (s.updHkSeq m (fun q => { q with lastStart := q.lastStart + period }))
  else if src = 2 ∧ q.edges.any (fun t => s.edgeDue m t) then
    some (s.updHkSeq m (fun q => { q with edges := q.edges.eraseP (fun t => s.edgeDue m t) }))
  else none

/-- R98: whether a pending sequence must still wait: one is running, or a lower one is pending or due too. -/
def State.hkBlocked (s : State) (m : Nat) : Bool :=
  (List.range 4).any (fun k => !(s.hkSeq k).running.isEmpty)
    || (List.range m).any (fun k => (s.hkSeq k).pendingStart || (s.hkDue? k).isSome)

/-- R98: a start arrives: it begins, waits, or is dropped and counted. -/
def State.hkStart (s : State) (m : Nat) : State :=
  let q := s.hkSeq m
  if !q.running.isEmpty || q.pendingStart then
    if m = 0 then s else s.satInc (R.HK_SEQ_STAT.OVERRUN (m - 1))
  else if s.hkBlocked m then s.updHkSeq m (fun q => { q with pendingStart := true })
  else s.hkBegin m

/-- HK_SEQUENCE_START (R98, R99, R102): a pending start of sequencer `m` begins; or its timer or its delayed PWM edge has come. -/
def execHkSequenceStart (m : Fin 4) (s : State) : Out :=
  let m := m.val
  if (s.hkSeq m).pendingStart && !s.hkBlocked m then .next (s.hkBegin m)
  else match s.hkDue? m with
    | some s => .next (s.hkStart m)
    | none => .next s

/-- R99: GO of sequencer `m` (1–3) with SRC = ONCE. -/
def State.hkGo (s : State) (m : Nat) : State :=
  if s.get (R.HK_SEQ_CTL.SRC (m - 1)) = 3 ∧ s.get (R.HK_SEQ_CTL.LEN (m - 1)) ≠ 0 then s.hkStart m else s

/-- HK_GO (R98, R99): a write of HK_SEQ_CTL(m).GO. -/
def execHkGo (p : Path) (m : Fin 3) (s : State) : Out :=
  .next (s.gateAction p (R.HK_SEQ_CTL m.val) (fun s => s.hkGo (m.val + 1)))

/-- Table 03-12: a word written to HK_SEQ_CTL(m), m = 1–3: the write of LEN clears OVERRUN; a changed source, or a sequencer that was
idle, starts its timer anew, and takes up the falling edge that the present PWM period has still to make. -/
def State.writeHkSeqCtl (s : State) (m : Nat) (w : Word) : State :=
  let old := s.word (R.HK_SEQ_CTL (m - 1))
  let s := (s.plainWrite (R.HK_SEQ_CTL (m - 1)) w).put (R.HK_SEQ_STAT.OVERRUN (m - 1)) 0
  let same := bits w.toNat 0 5 = bits old.toNat 0 5 ∧ bits old.toNat 8 6 ≠ 0
  let fall := match SMap.find? s.pwms (bits w.toNat 2 2) with
    | some p => if bits w.toNat 0 2 = 2 ∧ bit w.toNat 4 ∧ p.high < p.period ∧ s.ns < p.since + 40 * p.high then [p.since + 40 * p.high] else []
    | none => []
  let s := if same then s else s.updHkSeq m (fun q => { q with lastStart := s.ns, edges := fall })
  if bit w.toNat 14 then s.hkGo m else s

/-! ### PWMs and GPIO (R667–R669) -/

/-- Whether PWM `i` is high now. -/
def State.pwmHigh (s : State) (i : Nat) : Bool :=
  match SMap.find? s.pwms i with
  | some p => decide (s.ns < p.since + 40 * min p.high p.period)
  | none => false

/-- R99: an edge of PWM `i` at an instant (ns), noted by the sequencers that start on it. -/
def State.pwmEdge (s : State) (i : Nat) (rise : Bool) (t : Nat) : State :=
  let s := s.send (.level 2 i rise (s.time + nsUnits (t - s.ns)))
  let s := if i < 4 then s.gpioFollow 1 i rise (s.time + nsUnits (t - s.ns)) else s
  [1, 2, 3].foldl (fun (s : State) m =>
    if s.get (R.HK_SEQ_CTL.SRC (m - 1)) = 2 ∧ s.get (R.HK_SEQ_CTL.LEN (m - 1)) ≠ 0 ∧ s.get (R.HK_SEQ_CTL.PWM (m - 1)) = i
        ∧ s.get (R.HK_SEQ_CTL.EDGE (m - 1)) = (if rise then 0 else 1) then
      s.updHkSeq m (fun q => { q with edges := q.edges ++ [t] })
    else s) s

/-- A period of PWM `i` begins at an instant (ns); `was` tells the level before it. -/
def State.pwmPeriod (s : State) (i at_ period high : Nat) (was : Bool) : State :=
  let s := { s with pwms := SMap.put s.pwms i { since := at_, period := period, high := high } }
  let s := if 0 < high ∧ !was then s.pwmEdge i true at_ else if high = 0 ∧ was then s.pwmEdge i false at_ else s
  if 0 < high ∧ high < period then s.pwmEdge i false (at_ + 40 * high) else s

/-- PWM_PERIOD_START (R668): a period of PWM `i` begins and takes PERIOD and HIGH; a write within the AON cycle that begins it waits for the
next one. -/
def execPwmPeriodStart (i : Fin 4) (s : State) : Out :=
  let i := i.val
  let now := (max 2 (s.get (R.HK_PWM.PERIOD i)), s.get (R.HK_PWM.HIGH i))
  if !s.on (R.HK_PWM.EN i) then .next s
  else match SMap.find? s.pwms i with
    | none => .next (s.pwmPeriod i s.ns now.1 now.2 false)
    | some p =>
      let b := p.since + 40 * p.period
      if s.ns < b then .next s
      else
        let v := if b ≤ p.wroteAt then (max 2 p.old.1, p.old.2) else now
        .next (s.pwmPeriod i b v.1 v.2 (decide (p.period ≤ p.high)))

/-- A word written to HK_PWM(i): EN = 0 holds the output low at once. -/
def State.writeHkPwm (s : State) (i : Nat) (w : Word) : State :=
  let old := (s.get (R.HK_PWM.PERIOD i), s.get (R.HK_PWM.HIGH i))
  let high := s.pwmHigh i
  let s := s.plainWrite (R.HK_PWM i) w
  match SMap.find? s.pwms i with
  | none => s
  | some p =>
    if bit w.toNat 31 then
      if p.since + 40 * p.period ≤ p.wroteAt then s
      else { s with pwms := SMap.put s.pwms i { p with old := old, wroteAt := s.ns } }
    else
      let s := { s with pwms := SMap.erase s.pwms i }
      if high then
        let s := [1, 2, 3].foldl (fun (s : State) m =>
          if s.get (R.HK_SEQ_CTL.SRC (m - 1)) = 2 ∧ s.get (R.HK_SEQ_CTL.PWM (m - 1)) = i ∧ s.on (R.HK_SEQ_CTL.EDGE (m - 1)) then
            s.updHkSeq m (fun q => { q with edges := q.edges.filter (fun t => t != p.since + 40 * p.high) })
          else s) s
        s.pwmEdge i false s.ns
      else s

/-- R667: the level a GPIO ball drives, if it is an output. -/
def State.gpioDrive (s : State) (i : Nat) : Option Bool :=
  let fn := s.get (R.GPIO_CFG.FN i)
  if fn = 2 then
    let sel := s.get (R.GPIO_CFG.SEL i)
    some ((s.sg (sel / 4)).markers.getD (sel % 4) false)
  else if fn = 1 ∧ i < 4 then some (s.pwmHigh i)
  else if s.on (R.GPIO_CFG.DIR i) then some (s.on (R.GPIO_CFG.OUT i))
  else none

/-- A word written to GPIO_CFG(i). -/
def State.writeGpio (s : State) (i : Nat) (w : Word) : State :=
  let s := s.plainWrite (R.GPIO_CFG i) w
  match s.gpioDrive i with
  | some l => s.send (.level 1 i l s.time)
  | none => s

/-! ### Protective actions (R577, R578) -/

/-- The units of every flight's dependencies. -/
def State.allDeps (s : State) : List (Nat × Nat) := (List.range 16).flatMap (fun f => (s.flight f).deps)

/-- The ADCs, DACs and DAC generators forced down, with their enables. -/
def State.forceConverters (s : State) (cause : Nat) : State :=
  [0, 1, 2, 3].foldl (fun (s : State) n =>
    let s := (s.put (R.ADC_CTL.ON n) 0).adcForceOff n cause
    let s := s.muteDac n cause
    let s := if s.dacState n = 0 then s else s.dacToOff n cause
    (s.put (R.DAC_CTL.ON n) 0).sgAbort n cause) s

/-- R577: every lane, converter, calender unit, TDC input, recording and generator forced down, with their enables. -/
def State.forceAll (s : State) (cause : Nat) : State :=
  let s := s.abortDependents s.allDeps cause
  let s := (List.range 64).foldl (fun s p => s.forceDownPlan p) s
  let s := s.gateLanes.settleLanes
  let s := s.forceConverters cause
  let s := (List.range 8).foldl (fun s g => s.sgAbort g cause) s
  let s := (List.range 16).foldl (fun s u => s.cuForceDown u) s
  let s := (List.range 16).foldl (fun (s : State) i =>
    if s.on (R.TDC_IN_CFG.EN i) then ((s.tdcAbort i).put (R.TDC_IN_CFG.EN i) 0).enablePin (12 + i) true else s) s
  (List.range 8).foldl (fun s r => s.forceRec r) s

/-- R613: the INFO of a protective action. -/
def protInfo (ch : Nat) (preempts : Bool) : Nat := ch + b2n preempts * 2 ^ 63

/-- THERMAL_EMERGENCY (R54, R78, R158, R183, R224, R230, R233, R279, R386, R448, R471, R512, R577, R619): the emergency that a result called for
is carried out; `preempts` tells that it met an order in the same cycle. -/
def execThermalEmergency (preempts : Bool) (s : State) : Out :=
  match s.monitor.emergDue with
  | none => .next s
  | some ch =>
    let s := { s with monitor := { s.monitor with emergDue := none } }
    let s := (s.put R.GLOBAL_PROT.EMERG 1).satInc R.GLOBAL_PROT.ACTIONS
    .next ((s.raise 420 ch (protInfo ch preempts)).forceAll 0)

/-- SUPPLY_FAULT (R54, R230, R386, R471, R578): the units of Table 19-6 that belong to the faulting rail are forced down with cause 1. -/
def execSupplyFault (preempts : Bool) (s : State) : Out :=
  match s.monitor.supplyDue with
  | none => .next s
  | some ch =>
    let s := { s with monitor := { s.monitor with supplyDue := none } }
    let s := ((s.put R.GLOBAL_PROT.SUPPLY 1).put R.GLOBAL_PROT.RAIL ch).satInc R.GLOBAL_PROT.ACTIONS
    let s := s.raise 421 ch (protInfo ch preempts)
    .next (if [21, 22].contains ch then s.forceConverters 1
      else if [16, 18, 19, 20].contains ch then s.forceAll 1
      else s)

/-- R577, R578: units that a protective action kept waking go on without it: the first gate of an enabled frequency input begins, and an
enabled recording takes what waits. -/
def State.unitsFreed (s : State) : State :=
  if s.unitsBarred then s
  else
    let s := (List.range 16).foldl (fun s i =>
      if s.tdcFreq i && !s.on (R.TDC_FQ_CFG.START_TG i) && (s.tdc (16 + i)).gate.isNone then s.tdcBegin i (s.advU 0) else s) s
    (List.range 8).foldl (fun s r => s.recPump r) s

/-- R577: a write of 1 to EMERG, which clears it when every thermal site of the last pass reads below THERM_WARN. -/
def State.emergClear (s : State) : State :=
  if (List.range' 32 12).all (fun ch => match SMap.find? s.monitor.pass0 ch with
    | some v => decide (v < (s.get R.HK_THERM.THERM_WARN : Int))
    | none => false) then (s.put R.GLOBAL_PROT.EMERG 0).unitsFreed else s

/-- R578: a write of 1 to SUPPLY, which clears it when the rail has been within its limits for 10 ms. -/
def State.supplyClear (s : State) : State :=
  match SMap.find? s.monitor.railOk (s.get R.GLOBAL_PROT.RAIL) with
  | some t => if t + 10000000 ≤ s.ns then (s.put R.GLOBAL_PROT.SUPPLY 0).unitsFreed else s
  | none => s

/-- EMERG_CLEAR (R577): a write of 1 to GLOBAL_PROT.EMERG by a path. -/
def execEmergClear (p : Path) (s : State) : Out := .next (s.gateAction p R.GLOBAL_PROT (fun s => s.emergClear))

/-- SUPPLY_CLEAR (R578): a write of 1 to GLOBAL_PROT.SUPPLY by a path. -/
def execSupplyClear (p : Path) (s : State) : Out := .next (s.gateAction p R.GLOBAL_PROT (fun s => s.supplyClear))

/-- A word written to GLOBAL_PROT. -/
def State.writeProt (s : State) (w : Word) : State :=
  let s := if bit w.toNat 0 then s.emergClear else s
  if bit w.toNat 1 then s.supplyClear else s

end Machine
end Sys2Proof
end

