-- ==== Sys2Proof/Machine/RegRead.lean ====
section
/-!
DEFINITION. Reads of registers (R676–R680): what a word reads as, the latches of Table 24-4, and the registers whose value is derived from the
state at the read.

Marked choices (log entries): DEDUCED 33, 34, 101; DESIGN CHOICE 100; PRESUMED 44. Each entry of notes/assumptions says safe
or unsafe.
-/

namespace Sys2Proof
namespace Machine

/-- The path whose accesses reach a key: PF0 its two BARs, the MGMT window and SMBus PF0 BAR0, the management function PF1 BAR0 too, the
monitor and the PEER path PF0 BAR0 (R607, R608, R596). -/
def pathCarries (p : Path) (key : Nat) : Bool :=
  match p with
  | .pf0 => key < 0x3000000
  | .mgmt => key < 0x1000000 || (0x3000000 ≤ key && key < 0x4000000)
  | .fw => key < 0x1000000
  | .smbus => key < 0x1000000
  | .mon => key < 0x1000000
  | .peer => key < 0x1000000

/-- The number of an instance at a key of a family of registers, `count` of them `stride` apart from `base` on. -/
def instIndex (key base count stride : Nat) : Option Nat :=
  if base ≤ key && (key - base) % stride == 0 && (key - base) / stride < count then some ((key - base) / stride) else none

/-- R433: a per-queue register acts on the queue that QUEUE_SEL names. -/
def State.selected (s : State) (key : Nat) : Nat :=
  if 0x90014 ≤ key ∧ key ≤ 0x90034 then 0x4000000 + 0x40 * s.get R.QUEUE_SEL.QUEUE + key % 0x40 else key

/-- The key a path's latches are kept under (R680). -/
def latchKey (p : Path) (key : Nat) : Nat :=
  (match p with
    | .pf0 => 0
    | .mgmt => 1
    | .smbus => 2
    | .mon => 3
    | .peer => 4
    | .fw => 5) * 2 ^ 32 + key

/-- Table 24-4: the registers whose read latches, as first key, how many, how far apart, and how many following words they latch. -/
def latchRows : List (Nat × Nat × Nat × Nat) :=
  [(R.CONV_SYNC_T0, 1, 4, 2), (R.ADC_SCNT_LO 0, 4, 0x40, 1), (0x90028, 1, 4, 2), (R.NVME_SLOT_CAP_LO 0, 8, 0x10, 1),
    (R.NVME_REC_CHUNK_LO 0, 8, 0x40, 1), (R.NVME_REC_TREC0 0, 8, 0x40, 2), (R.SG_T0 0, 8, 0x40, 2), (R.SG_PLAYED_LO 0, 8, 0x40, 1),
    (R.TIME_NOW0, 1, 4, 2), (R.ETH_TXT0 0, 2, 0x20, 2), (R.ETH_RXT0 0, 6, 0x10, 2)]

/-- How many words a read of a key latches; whether a key is one of the latched words. -/
def latches? (key : Nat) : Option Nat :=
  (latchRows.find? (fun r => (instIndex key r.1 r.2.1 r.2.2.1).isSome)).map (fun r => r.2.2.2)
def isLatched (key : Nat) : Bool :=
  latchRows.any (fun r => (List.range r.2.2.2).any (fun i => 4 * (i + 1) ≤ key && (instIndex (key - 4 * (i + 1)) r.1 r.2.1 r.2.2.1).isSome))

/-- The RW bits of a register's word (R678). -/
def State.rwBits (s : State) (key : Nat) : Word :=
  match findReg key with
  | some r => s.word key &&& BitVec.ofNat 32 (r.mask .rw)
  | none => 0#32

/-- Table 03-10: the trim that CAL_TRIM_SEL selects, in its own coding; 0 for a slice or trim that does not exist. -/
def State.trimData (s : State) : Nat :=
  let n := s.get R.CAL_TRIM_SEL.ADC
  let sl := s.get R.CAL_TRIM_SEL.SLICE
  let t := s.get R.CAL_TRIM_SEL.TRIM
  let code := if sl < 16 ∧ 2 ≤ t ∧ t < 18 then 2 else t
  let c := s.cal n
  let width := if t = 0 then 10 else if t < 18 then 12 else 8
  if 16 < sl ∨ 30 < t then 0 else wrap width (trimIn (if s.on R.CAL_TRIM_SEL.WHICH then c.target else c.applied) (sl * 32 + code))

/-- The state bits of a mailbox channel at their places in NS_STAT and S_STAT (Table 20-12). -/
def State.mbxStat (s : State) (ch : Nat) : Nat :=
  b2n (s.mbx ch).inFull + 2 * b2n (s.mbx ch).outFull + 16 * s.lkState 0 + 2 ^ 16 * (s.fw.epoch % 65536)

/-- The PBA of a function: one bit per pending vector (Table 24-2). -/
def State.pbaWord (s : State) (fn i : Nat) : Nat :=
  (List.range 32).foldl (fun n b => n + b2n (s.pcie.msixPend.contains (fn, 32 * i + b)) * 2 ^ b) 0

/-- A word of the MSI-X table; its vectors are masked until software clears the mask. -/
def State.msixWord (s : State) (fn off : Nat) : Word :=
  (SMap.find? s.pcie.msixTable (fn * 1024 + off)).getD (if off % 16 = 12 then 1#32 else 0#32)

/-- The registers whose whole word is derived when it is read. -/
def State.derived? (s : State) (key : Nat) : Option Nat :=
  if key = R.GLOBAL_DIEID_LO then some (Config.dieId.toNat % 2 ^ 32)
  else if key = R.GLOBAL_DIEID_HI then some (Config.dieId.toNat / 2 ^ 32)
  else if key = R.CAL_TRIM_DATA then some s.trimData
  else if key = R.EV_STAT then some (s.ev.wait0.length + 2 ^ 11 * s.ev.wait1.length + 2 ^ 22 * s.ev.contain.length)
  else if key = R.GLOBAL_PWRSTAT then
    some ((s.word key).toNat + (if s.get R.GLOBAL_PWRSTAT.MODE = 2 ∧ s.runAwake then 1 else 0))
  else if R.MEM_CH_STATUS 0 ≤ key ∧ key ≤ R.MEM_CH_STATUS 5 ∧ key % 0x40 = 0 then
    some (setBits (s.word key).toNat 10 7 (s.initPct ((key - R.MEM_CH_STATUS 0) / 0x40)))
  else if 0x2000200 ≤ key ∧ key < 0x2000240 ∧ key % 16 = 8 then some ((s.word key).toNat ||| s.mbxStat ((key - 0x2000200) / 16))
  else if 0x3000000 ≤ key ∧ key < 0x3000040 ∧ key % 16 = 8 then some ((s.word key).toNat ||| s.mbxStat (8 + (key - 0x3000000) / 16))
  else if 0x2004000 ≤ key ∧ key < 0x2008000 then some (s.readEthBuffer (key - 0x2004000)).toNat
  else if 0x2008000 ≤ key ∧ key < 0x2008400 then some (s.msixWord 0 (key - 0x2008000)).toNat
  else if 0x3008000 ≤ key ∧ key < 0x3008400 then some (s.msixWord 1 (key - 0x3008000)).toNat
  else if 0x2009000 ≤ key ∧ key < 0x2009008 then some (s.pbaWord 0 ((key - 0x2009000) / 4))
  else if 0x3009000 ≤ key ∧ key < 0x3009008 then some (s.pbaWord 1 ((key - 0x3009000) / 4))
  else if 0x800000 ≤ key ∧ key < 0x1000000 then some (s.cuWindowRead ((key - 0x800000) / 0x80000) (key % 0x80000)).toNat
  else none

/-- TIME96 between two ticks, `sub` × 2^-16 ns after the present one (R522). -/
def State.timeNow (s : State) (sub : Nat) : Nat := (s.tk.raw + s.tk.inc * sub / 2621440) / 1024

/-- The value of a latching register with the words it latches, and the state after. -/
def State.wideValue (s : State) (key sub : Nat) : Nat × State :=
  if key = R.TIME_NOW0 then (toTime96 (s.timeNow sub), s)
  else match instIndex key (R.ADC_SCNT_LO 0) 4 0x40 with
    | some n => ((s.adc n).count, s)
    | none =>
      let k := s.selected key
      ((s.word k).toNat + (s.word (k + 4)).toNat * 2 ^ 32 + (s.word (k + 8)).toNat * 2 ^ 64, s)

/-- R680: a latching read by a path: the low word, and the following words kept for the path. -/
def State.latchRead (s : State) (p : Path) (key n sub : Nat) : Word × State :=
  let v := s.wideValue key sub
  let s := (List.range n).foldl (fun (s : State) i =>
    { s with latches := SMap.put s.latches (latchKey p (key + 4 * (i + 1))) (BitVec.ofNat 32 (v.1 / 2 ^ (32 * (i + 1)))) }) v.2
  (BitVec.ofNat 32 v.1, s)

/-- R667: GPIO_CFG(i) as read: IN is the level the ball drives; the level of an input comes from outside and is open. -/
def State.gpioRead (s : State) (i : Nat) : Word × State :=
  match s.gpioDrive i with
  | some l => (BitVec.ofNat 32 (setBit (s.word (R.GPIO_CFG i)).toNat 16 l), s)
  | none =>
    let r := s.fresh
    (BitVec.ofNat 32 (setBit (s.word (R.GPIO_CFG i)).toNat 16 (r.1 % 2 = 1)), r.2)

/-- The mailbox channel whose OUT register lies at a key. -/
def outChannel (key : Nat) : Option Nat :=
  match instIndex key (R.NS_OUT 0) 4 0x10 with
  | some c => some c
  | none => (instIndex key (R.S_OUT 0) 4 0x10).map (fun c => 8 + c)

/-- What a read of a key by a path returns, and the state after it (R676–R680): `sub` × 2^-16 ns after the present tick. -/
def State.readReg (s : State) (p : Path) (key sub : Nat) : Word × State :=
  if s.retained key ∧ key < 0x800000 then (s.rwBits (s.selected key), s)
  else match latches? key with
    | some n => s.latchRead p key n sub
    | none =>
      if isLatched key then ((SMap.find? s.latches (latchKey p key)).getD 0#32, s)
      else match s.derived? key with
        | some v => (BitVec.ofNat 32 v, s)
        | none =>
          match instIndex key (R.GPIO_CFG 0) 16 4 with
          | some i => s.gpioRead i
          | none =>
            match outChannel key with
            | some ch => s.mbxOut ch
            | none => if (findReg (s.selected key)).isSome then (s.word (s.selected key), s) else (0#32, s)

/-- A register read by a path, answered with its word. -/
def State.readCmd (s : State) (p : Path) (key sub : Nat) : State :=
  if pathCarries p key then s.readGate p key (fun s => let r := s.readReg p key sub; r.2.send (.reply p key r.1)) else s

/-- CONV_SYNC_T0_READ (R680): a read of CONV_SYNC_T0 by a path. -/
def execConvSyncT0Read (p : Path) (s : State) : Out := .next (s.readCmd p R.CONV_SYNC_T0 0)

/-- ADC_SCNT_LO_READ (R680): a read of ADC_SCNT_LO(n) by a path. -/
def execAdcScntLoRead (p : Path) (n : Fin 4) (s : State) : Out := .next (s.readCmd p (R.ADC_SCNT_LO n.val) 0)

/-- QUEUE_TEARBASE0_READ (R680): a read of QUEUE_TEARBASE0 of the selected queue by a path. -/
def execQueueTearbase0Read (p : Path) (s : State) : Out := .next (s.readCmd p 0x90028 0)

/-- NVME_SLOT_CAP_READ (R680): a read of the low word of NVME_SLOT_CAP(j) by a path. -/
def execNvmeSlotCapRead (p : Path) (j : Fin 8) (s : State) : Out := .next (s.readCmd p (R.NVME_SLOT_CAP_LO j.val) 0)

/-- NVME_REC_CHUNK_READ (R680): a read of the low word of NVME_REC_CHUNK(r) by a path. -/
def execNvmeRecChunkRead (p : Path) (r : Fin 8) (s : State) : Out := .next (s.readCmd p (R.NVME_REC_CHUNK_LO r.val) 0)

/-- NVME_REC_TREC_READ (R680): a read of the low word of NVME_REC_TREC(r) by a path. -/
def execNvmeRecTrecRead (p : Path) (r : Fin 8) (s : State) : Out := .next (s.readCmd p (R.NVME_REC_TREC0 r.val) 0)

/-- SG_T0_READ (R680): a read of SG_T0(g) by a path. -/
def execSgT0Read (p : Path) (g : Fin 8) (s : State) : Out := .next (s.readCmd p (R.SG_T0 g.val) 0)

/-- SG_PLAYED_LO_READ (R680): a read of SG_PLAYED_LO(g) by a path. -/
def execSgPlayedLoRead (p : Path) (g : Fin 8) (s : State) : Out := .next (s.readCmd p (R.SG_PLAYED_LO g.val) 0)

/-- TIME_NOW0_READ (R522, R680): a read of TIME_NOW0 by a path, `sub` × 2^-16 ns after the present tick. -/
def execTimeNow0Read (p : Path) (sub : Fin 2621440) (s : State) : Out := .next (s.readCmd p R.TIME_NOW0 sub.val)

/-- ETH_TXT0_READ (R680): a read of ETH_TXT0(t) by a path. -/
def execEthTxt0Read (p : Path) (t : Fin 2) (s : State) : Out := .next (s.readCmd p (R.ETH_TXT0 t.val) 0)

/-- ETH_RXT0_READ (R680): a read of ETH_RXT0(r) by a path. -/
def execEthRxt0Read (p : Path) (r : Fin 6) (s : State) : Out := .next (s.readCmd p (R.ETH_RXT0 r.val) 0)

/-! ### The MGMT window (R362, R680, R681) -/

/-- The offset in PF0 BAR0 that MGMT_DATA reaches. -/
def State.mgmtTarget (s : State) : Nat := 4 * s.get R.MGMT_ADDR.OFFSET

/-- A read of MGMT_DATA by a MGMT path: PF0 BAR0 at MGMT_ADDR, with that register's own read effects. -/
def State.mgmtRead (s : State) (p : Path) : State :=
  let r := s.readReg p s.mgmtTarget 0
  r.2.send (.reply p R.MGMT_DATA r.1)

/-- MGMT_DATA_READ (R680, R681): a read of MGMT_DATA through PF1. -/
def execMgmtDataRead (p : Path) (s : State) : Out :=
  if p = .mgmt then .next (s.readGate p R.MGMT_DATA (fun s => s.mgmtRead p)) else .next s

end Machine
end Sys2Proof
end

