-- ==== Sys2Proof/Machine/Reset.lean ====
section
/-!
DEFINITION. Full reset (R624–R627): its three sources and what survives it.

Marked choices (log entries): DEDUCED 102, 105; PRESUMED 35. Each entry of notes/assumptions says safe or unsafe.
-/

namespace Sys2Proof
namespace Machine

/-- The straps as GLOBAL_STRAPS reports them (Table 24-6). -/
def strapsWord (st : Straps) : Nat :=
  st.boot.val + 4 * st.slot.val + 64 * b2n st.refMaster + 128 * b2n st.monEn + 256 * st.pcieW.val + 1024 * b2n st.testEn

/-- R626, Tables 21-5 and 23-3: every state is lost but the flash (with the calibration partition) and the fuses. -/
def State.blank (s : State) : State :=
  { State.reset with
    pending := s.pending
    flash := s.flash
    calCopies := s.calCopies
    freeCtr := s.freeCtr
    sent := s.sent
    fw := { minSvn := s.fw.minSvn } }

/-- The same, with the straps; every output is released (R626, R652, R655). -/
def State.cleared (s : State) (straps : Nat) : State :=
  let s := (s.blank).setWord R.GLOBAL_STRAPS (BitVec.ofNat 32 straps)
  let s := s.put R.TIME_ID.DEVID (s.get R.GLOBAL_STRAPS.SLOT)
  s.send .released

/-- R626: full reset by PERST_L (cause 1) or FULL_RESET (cause 2): TRIP_SEEN and GLOBAL_RSTCAUSE are kept, the latter with the new cause, the
writer, whether a trip came before, and one more reset counted. -/
def State.fullReset (s : State) (cause agent : Nat) : State :=
  let n := satAdd 16 (s.get R.GLOBAL_RSTCAUSE.COUNT) 1
  let t := s.cleared (s.word R.GLOBAL_STRAPS).toNat
  let t := t.put R.GLOBAL_PROT.TRIP_SEEN (s.get R.GLOBAL_PROT.TRIP_SEEN)
  let t := (t.put R.GLOBAL_RSTCAUSE.CAUSE cause).put R.GLOBAL_RSTCAUSE.AGENT agent
  (t.put R.GLOBAL_RSTCAUSE.TRIPPED (b2n s.monitor.tripped)).put R.GLOBAL_RSTCAUSE.COUNT n

/-- POR_L (R626, R656, R657, R683): POR_L low, and its release, which samples the straps; TRIP_SEEN and GLOBAL_RSTCAUSE are cleared. -/
def execPorL (st : Straps) (s : State) : Out := .next (s.cleared (strapsWord st))

/-- PERST_L (R626): PERST_L low, and its release, with the straps of the last POR_L. -/
def execPerstL (s : State) : Out := .next (s.fullReset 1 0)

/-- R625: a FULL_RESET write with a key by a path: accepted with the key from the token's holder or from MGMT; any other is dropped, one from
an agent without the token raising OWNER_VIOLATION. -/
def State.resetWrite (s : State) (p : Path) (key : Nat) : State :=
  let mgmt := pathAgent p = 2
  let holder := s.get R.GLOBAL_OWNER.HOLDER == pathAgent p && p != .fw
  if key = 0x5253 ∧ (mgmt ∨ holder) then s.fullReset 2 (pathAgent p)
  else if holder then s
  else s.ownerViolation p R.GLOBAL_RESET

/-- FULL_RESET (R361, R625, R626): a write of GLOBAL_RESET with FULL_RESET = 1. -/
def execFullReset (p : Path) (key : BitVec 16) (s : State) : Out :=
  if s.reaches p R.GLOBAL_RESET then .next (s.resetWrite p key.toNat)
  else .next ((s.send (.unsupported (pathFn p))).logAer (pathFn p) 20)

end Machine
end Sys2Proof
end

