-- ==== Sys2Proof/Machine/RegWrite.lean ====
section
/-!
DEFINITION. Writes of whole words to registers (R4, R361, R676–R678): every family's effect by the register's place in the map, the plain effect
of R4 for a register without one.
-/

namespace Sys2Proof
namespace Machine

/-- The first effect that applies, else the default. -/
def pick : List (Option State) → State → State
  | [], d => d
  | some s :: _, _ => s
  | none :: t, d => pick t d

/-- R4: the W1C bits of a write, for a register whose own effect concerns its other fields. -/
def State.clearW1c (s : State) (key : Nat) (w : Word) : State :=
  match findReg key with
  | some r => s.setWord key (s.word key &&& ~~~(w &&& BitVec.ofNat 32 (r.mask .w1c)))
  | none => s

/-- A register's own effect at the instance of its family that a key names. -/
def inst1 (key base count stride : Nat) (f : Nat → State) : Option State := (instIndex key base count stride).map f

/-- An effect for one key. -/
def only (key at_ : Nat) (s : State) : Option State := if key = at_ then some s else none

/-- An effect for a range of keys, from `lo` to below `hi`. -/
def within (key lo hi : Nat) (s : State) : Option State := if lo ≤ key ∧ key < hi then some s else none

/-- R608: MON_OFF written: the monitor stops, releases the token if it holds it and cancels a pending request; or it runs again. -/
def State.writeMonOff (s : State) (off : Bool) : State :=
  let s := s.put R.MGMT_MON.MON_OFF (b2n off)
  if off then (s.put R.MON_CFG.PRESENT 0).tokenRel 3
  else s.put R.MON_CFG.PRESENT (b2n (s.on R.GLOBAL_STRAPS.MON_EN && s.fw.ready))

/-- R376, R380, R356, R678: a write of 1 to WAKE: a wake cause, and the lookout polls at once. -/
def State.writeWake (s : State) : State := (s.wakeCause 1).wakeLookout

/-- The GLOBAL and CLOCK blocks. -/
def State.writeGlobal (s : State) (p : Path) (key : Nat) (w : Word) : State :=
  pick [only key R.GLOBAL_OWNER (s.writeOwner (pathAgent p) w.toNat),
    only key R.GLOBAL_PWRCTL (s.writePwrctl w),
    only key R.GLOBAL_PROT (s.writeProt w),
    only key R.GLOBAL_RESET (if bit w.toNat 0 then s.resetWrite p (w.toNat / 65536) else s),
    inst1 key (R.CLKOUT_CFG 0) 4 0x10 (fun o => s.writeClkout o w),
    only key R.SWS_CTL (s.writeSwsCtl w),
    within key 0x11000 0x11400 (s.writeSwsSeg key w)] (s.plainWrite key w)

/-- R48: clearing OVR_SEEN zeroes the count of overrange samples; R110: clearing SAT_SEEN that of saturations. -/
def State.writeSeen (s : State) (key : Nat) (seen : Field) (count : Nat) (w : Word) : State :=
  let was := s.on seen
  let s := s.plainWrite key w
  if was && !s.on seen then s.setWord count 0#32 else s

/-- The CONV, CAL, DDC and HK blocks. -/
def State.writeConverters (s : State) (key : Nat) (w : Word) : State :=
  pick [only key R.CONV_REFBUF (s.writeRefbuf w.toNat),
    only key R.CONV_SYNC (s.writeConvSync w),
    inst1 key (R.ADC_CTL 0) 4 0x40 (fun n => s.writeAdcCtl n w.toNat),
    inst1 key (R.ADC_START 0) 4 0x40 (fun n => s.writeAdcStart n w.toNat),
    inst1 key (R.ADC_STATUS 0) 4 0x40 (fun n => s.writeSeen key (R.ADC_STATUS.OVR_SEEN n) (R.ADC_OVRCNT n) w),
    inst1 key (R.DAC_CTL 0) 4 0x40 (fun n => s.writeDacCtl n w),
    only key R.CAL_CTL (s.writeCalCtl w),
    inst1 key (R.DDC_CTL 0) 8 0x100 (fun d => s.writeDdcCtl d w.toNat),
    inst1 key (R.DDC_RETUNE 0) 8 0x100 (fun d => s.writeDdcRetune d w.toNat),
    inst1 key (R.DDC_STATUS 0) 8 0x100 (fun d => s.writeSeen key (R.DDC_STATUS.SAT_SEEN d) (R.DDC_SATCNT d) w),
    inst1 key (R.DDC_LISTCFG 0) 8 0x100 (fun d => s.writeDdcList d key w),
    within key 0x41000 0x42000 (s.writeDdcList ((key - 0x41000) / 0x200) key w),
    inst1 key (R.PLT_CTL 0) 8 0x20 (fun k => s.writePltCtl k w),
    inst1 key (R.HK_SEQ_CTL 0) 3 0x40 (fun m => s.writeHkSeqCtl (m + 1) w),
    inst1 key (R.HK_PWM 0) 4 0x10 (fun i => s.writeHkPwm i w),
    inst1 key (R.GPIO_CFG 0) 16 4 (fun i => s.writeGpio i w)] (s.plainWrite key w)

/-- The LANE block. -/
def State.writeLanes (s : State) (key : Nat) (w : Word) : State :=
  pick [only key R.LANE_CFG (s.writeLaneCfg w),
    only key R.LANE_INJECT (s.writeLaneInject (bits w.toNat 0 5) (w.toNat / 65536) 0),
    inst1 key (R.DET_CFG 0) 32 0x20 (fun e => s.writeDetCfg e w),
    inst1 key (R.DET_CTL 0) 32 0x20 (fun e => s.writeDetCtl e w),
    inst1 key (R.REAM_CFG 0) 8 0x20 (fun m => s.writeReamCfg m w),
    inst1 key (R.REAM_COLS 0) 8 0x20 (fun m => s.writeReamMap m key w),
    inst1 key (R.REAM_ROWS 0) 8 0x20 (fun m => s.writeReamMap m key w),
    inst1 key (R.REAM_DECAY 0) 8 0x20 (fun m => s.writeReamDecay m w),
    inst1 key (R.REAM_CTL 0) 8 0x20 (fun m => s.writeReamCtl m w),
    inst1 key (R.DZ_CFG 0) 16 0x20 (fun z => s.writeZone z key w),
    inst1 key (R.DZ_COLS 0) 16 0x20 (fun z => s.writeZone z key w),
    inst1 key (R.DZ_ROWS 0) 16 0x20 (fun z => s.writeZone z key w)] (s.plainWrite key w)

/-- The TRIG block. -/
def State.writeTriggers (s : State) (key : Nat) (w : Word) : State :=
  pick [inst1 key (R.WEIR_CFG 0) 64 0x20 (fun k => s.writeWeirCfg k w),
    inst1 key (R.WEIR_CRIT 0) 64 0x20 (fun k => s.writeWeirSet k key w),
    inst1 key (R.WEIR_RANGE 0) 64 0x20 (fun k => s.writeWeirSet k key w),
    inst1 key (R.TRIGIN_CFG 0) 8 0x20 (fun k => s.writePinCfg k key w),
    inst1 key (R.TRIGIN_STATUS 0) 8 0x20 (fun k => s.writePinStatus k key w),
    inst1 key (R.IBUS_CFG 0) 4 0x20 (fun k => s.writePinCfg (8 + k) key w),
    inst1 key (R.IBUS_STATUS 0) 4 0x20 (fun k => s.writePinStatus (8 + k) key w),
    inst1 key (R.FL_CTL 0) 16 0x100 (fun f => s.writeFlCtl f w),
    inst1 key (R.FL_STATUS 0) 16 0x100 (fun _ => s.plainWrite key w),
    within key 0x62000 0x63000 (s.writeFlight ((key - 0x62000) / 0x100) key w)] (s.plainWrite key w)

/-- The CU, MEM and QUEUE blocks. -/
def State.writeMemories (s : State) (key : Nat) (w : Word) : State :=
  pick [inst1 key (R.CU_CTL 0) 16 0x100 (fun u => s.writeCuCtl u w),
    inst1 key (R.CU_EVCFG 0) 16 0x100 (fun u => s.writeCuEvcfg u w),
    inst1 key (R.CU_INQ 0) 16 0x100 (fun u => s.writeCuInq u w),
    only key R.MEM_CTL (s.writeMemCtl w),
    only key R.MEM_FENCE (s.writeMemFence (bits w.toNat R.MEM_FENCE.CH.lsb R.MEM_FENCE.CH.width) (w.toNat / 65536)),
    inst1 key (R.POUND_CFG 0) 64 0x40 (fun n => s.writePoundCfg n w),
    inst1 key (R.POUND_BASE 0) 64 0x40 (fun n => s.writePoundSet n key w),
    inst1 key (R.POUND_SIZE 0) 64 0x40 (fun n => s.writePoundSet n key w),
    inst1 key (R.POUND_STREAM 0) 64 0x40 (fun n => s.writePoundSet n key w),
    within key 0x81000 0x82000 (if 0x10 ≤ key % 0x40 ∧ key % 0x40 < 0x20 then
      s.writeDrain ((key - 0x81000) / 0x40) (key % 0x40 / 4 - 4) w else s.plainWrite key w),
    only key R.QUEUE_POOLCFG (s.writePoolCfg w),
    only key 0x90014 (s.writeQueueCfg (s.get R.QUEUE_SEL.QUEUE) w.toNat)] (s.plainWrite (s.selected key) w)

/-- The RING, NVME, STIM and PROBE blocks. -/
def State.writeStreams (s : State) (key : Nat) (w : Word) : State :=
  pick [only key R.RING_CTL (s.writeRingCtl w),
    only key R.RING_TALLY_LO (s.writeTallyBase key w),
    only key R.RING_TALLY_HI (s.writeTallyBase key w),
    inst1 key (R.RING_BASE_LO 0) 113 0x20 (fun x => s.writeRingBase x key w),
    inst1 key (R.RING_BASE_HI 0) 113 0x20 (fun x => s.writeRingBase x key w),
    inst1 key (R.RING_CFG 0) 113 0x20 (fun x =>
      let s := if bits w.toNat (R.RING_CFG.FLUSH x).lsb 1 = 1 then s.flushRing x else s
      s.writeRingCfg x (bit w.toNat (R.RING_CFG.EN x).lsb) (bits w.toNat (R.RING_CFG.LOG2SIZE x).lsb (R.RING_CFG.LOG2SIZE x).width)),
    inst1 key (R.RING_SRC 0) 113 0x20 (fun x => s.writeRingSrc x w),
    inst1 key (R.NVME_PORT 0) 2 0x10 (fun d => s.writeNvPort d w),
    inst1 key (R.NVME_SLOT 0) 8 0x10 (fun j => s.writeNvSlot j w),
    inst1 key (R.NVME_SLOT_NSID 0) 8 0x10 (fun j => s.writeNvNsid j w),
    inst1 key (R.NVME_REC_CFG 0) 8 0x40 (fun r => s.writeRecCfg r w),
    inst1 key (R.NVME_REC_CLOSE 0) 8 0x40 (fun r => s.writeRecClose r w),
    inst1 key (R.SG_CFG 0) 8 0x40 (fun g => s.writeSgCfg g w),
    inst1 key (R.SG_CTL 0) 8 0x40 (fun g => s.writeSgCtl g w),
    inst1 key (R.SG_SKEW 0) 8 0x40 (fun g => s.writeSgSkew g w),
    only key R.PROBE_GROUPS (s.writeGroups w),
    inst1 key (R.PROBE_LANE 0) 16 0x10 (fun n => (s.clearW1c key w).writeLaneEn n (bit w.toNat (R.PROBE_LANE.EN n).lsb)),
    inst1 key (R.VC_CFG 0) 8 0x10 (fun v => s.writeVcCfg v w),
    inst1 key (R.VC_RATE 0) 8 0x10 (fun v => s.writeVcRate v w),
    inst1 key (R.BP_CFG 0) 8 0x10 (fun b => s.writeBpCfg b w),
    inst1 key (R.EG_CFG 0) 4 0x10 (fun k => s.writeEgCfg k w)] (s.plainWrite key w)

/-- The TDC, TIME, KX and DISP blocks. -/
def State.writeTimeBlocks (s : State) (key : Nat) (w : Word) : State :=
  pick [only key R.TDC_CTL ((s.clearW1c key w).writeTdcCtl w),
    inst1 key (R.TDC_IN_CFG 0) 16 0x20 (fun i => s.writeTdcIn i w),
    inst1 key (R.TDC_IN_STATUS 0) 16 0x20 (fun i => s.writePinStatus (12 + i) key w),
    only key R.TIME_CFG (s.writeTimeCfg w),
    only key R.TIME_ID (s.reroute (fun s => s.plainWrite key w)),
    only key R.TIME_ROOT (s.writeTimeRoot w),
    inst1 key (R.TG_CTL 0) 32 0x20 (fun g => s.writeTgCtl g w),
    inst1 key (R.TG_START0 0) 32 0x20 (fun g => s.writeTgSet g key w),
    inst1 key (R.TG_START1 0) 32 0x20 (fun g => s.writeTgSet g key w),
    inst1 key (R.TG_START2 0) 32 0x20 (fun g => s.writeTgSet g key w),
    inst1 key (R.TG_PERIOD 0) 32 0x20 (fun g => s.writeTgSet g key w),
    inst1 key (R.TG_COUNT 0) 32 0x20 (fun g => s.writeTgSet g key w),
    only key R.ETH_CFG (s.writeEthCfg w),
    only key R.KX_CFG (s.reroute (fun s => s.plainWrite key w)),
    inst1 key (R.KX_LINK 0) 6 0x10 (fun l => s.writeKxLink l (bit w.toNat (R.KX_LINK.EN l).lsb)),
    inst1 key (R.KX_SP 0) 16 0x10 (fun k => s.writeKxSp k w),
    inst1 key (R.KX_SP_DEST 0) 16 0x10 (fun k => s.writeKxDest k w),
    inst1 key (R.DISP_CTL 0) 2 0x400 (fun h => s.writeDispCtl h w)] (s.plainWrite key w)

/-- The MBX/LK, EVENT and PCIE blocks; writes of OWNER_TAKEN's DEST are ignored (R618). -/
def State.writeEvents (s : State) (key : Nat) (w : Word) : State :=
  pick [only key R.EV_INJECT (s.injectEvent (bits w.toNat 0 9) (w.toNat / 65536)),
    only key (R.EV_CFG 164) ((s.plainWrite key w).put (R.EV_CFG.DEST 164) (s.get (R.EV_CFG.DEST 164)))] (s.plainWrite key w)

/-- A word written to PF0 BAR0, by the block it lies in (Table 24-1). -/
def State.writeBar0 (s : State) (p : Path) (key : Nat) (w : Word) : State :=
  if 0x800000 ≤ key then s.cuWindow ((key - 0x800000) / 0x80000) (key % 0x80000) (leBytes 4 w.toNat)
  else match key / 0x10000 with
    | 0x0 => s.writeGlobal p key w
    | 0x1 => s.writeGlobal p key w
    | 0x2 => s.writeConverters key w
    | 0x3 => s.writeConverters key w
    | 0x4 => s.writeConverters key w
    | 0x14 => s.writeConverters key w
    | 0x5 => s.writeLanes key w
    | 0x6 => s.writeTriggers key w
    | 0x7 => s.writeMemories key w
    | 0x8 => s.writeMemories key w
    | 0x9 => s.writeMemories key w
    | 0xA => s.writeStreams key w
    | 0xB => s.writeStreams key w
    | 0xC => s.writeStreams key w
    | 0xD => s.writeStreams key w
    | 0xE => s.writeTimeBlocks key w
    | 0xF => s.writeTimeBlocks key w
    | 0x10 => s.writeTimeBlocks key w
    | 0x11 => s.writeTimeBlocks key w
    | 0x12 => s.writeEvents key w
    | 0x13 => s.writeEvents key w
    | 0x15 => s.writeEvents key w
    | _ => s

/-- A word written to a function's MSI-X table; a vector unmasked sends its pending message (R352). -/
def State.writeMsix (s : State) (fn off : Nat) (w : Word) : State :=
  ({ s with pcie := { s.pcie with msixTable := SMap.put s.pcie.msixTable (fn * 1024 + off) w } }).flushVectors

/-- A word written to a mailbox register of channel `ch` (Table 20-12). -/
def State.writeMbx (s : State) (ch key : Nat) (w : Word) : State :=
  match key % 16 with
  | 0 => s.mbxIn ch w
  | 8 => s.plainWrite key w
  | 12 =>
    let s := s.plainWrite key w
    if bit w.toNat 2 then s.retract ch else s
  | _ => s

/-- A word written to PF0 BAR2 (Table 24-2). -/
def State.writeBar2 (s : State) (key : Nat) (w : Word) : State :=
  pick [only key R.WAKE (if bit w.toNat 0 then s.writeWake else s),
    only key R.TIME_INC (s.writeInc w.toNat),
    only key R.TIME_SERVO (s.writeServo (bit w.toNat 0)),
    inst1 key (R.ETH_TXCTL 0) 2 0x20 (fun t => s.writeTxCtl t w),
    within key 0x2000200 0x2000240 (s.writeMbx ((key - 0x2000200) / 16) key w),
    within key 0x2004000 0x2008000 (s.writeEthBuffer (key - 0x2004000) w),
    within key 0x2008000 0x2008400 (s.writeMsix 0 (key - 0x2008000) w)] (s.plainWrite key w)

/-- A MGMT write of PF0 BAR0 at MGMT_ADDR (R362, R681), under the token rules. -/
def State.mgmtWrite (s : State) (p : Path) (w : Word) : State :=
  let key := s.mgmtTarget
  if key = R.GLOBAL_RESET then (if bit w.toNat 0 then s.resetWrite p (w.toNat / 65536) else s)
  else if !s.mayWrite p key then s.ownerViolation p key
  else if s.retained key ∧ key < 0x800000 then s.retainWrite (s.selected key) w
  else s.writeBar0 p key w

/-- A word written to PF1 BAR0 (Table 24-3). -/
def State.writePf1 (s : State) (key : Nat) (w : Word) : State :=
  pick [within key 0x3000000 0x3000040 (s.writeMbx (8 + (key - 0x3000000) / 16) key w),
    only key R.MGMT_TOKEN (s.writeMgmtToken w.toNat),
    only key R.MGMT_DATA (s.mgmtWrite .mgmt w),
    only key R.MGMT_MON (s.writeMonOff (bit w.toNat 0)),
    only key R.ER1_BASE_LO (s.writeRingBase 113 key w),
    only key R.ER1_BASE_HI (s.writeRingBase 113 key w),
    only key R.ER1_CFG ((s.clearW1c key w).writeRingCfg 113 (bit w.toNat R.ER1_CFG.EN.lsb)
      (bits w.toNat R.ER1_CFG.LOG2SIZE.lsb R.ER1_CFG.LOG2SIZE.width)),
    only key R.ER1_TAIL (s.writeEr1Tail w.toNat),
    only key R.FWS_CTL (let s := s.plainWrite key w; if bit w.toNat 2 then s.stagingGo (bits w.toNat 0 2) else s),
    only key R.PNL_CFG (s.writePnlCfg w),
    within key 0x3008000 0x3008400 (s.writeMsix 1 (key - 0x3008000) w)] (s.plainWrite key w)

/-- What a word written to a register does, once the write may take effect. -/
def State.regWrite (s : State) (p : Path) (key : Nat) (w : Word) : State :=
  if key < 0x1000000 then s.writeBar0 p key w
  else if key < 0x2000000 then s
  else if key < 0x3000000 then s.writeBar2 key w
  else s.writePf1 key w

/-- R346, R361, R676, R678: a word written by a path: Unsupported Request where it does not reach the registers; dropped with OWNER_VIOLATION
without the token, GLOBAL_RESET having its own rule; the RW bits alone in a block served from its retention copy. -/
def State.busWrite (s : State) (p : Path) (key : Nat) (w : Word) : State :=
  if key = R.GLOBAL_RESET then
    (if s.reaches p key then (if bit w.toNat 0 then s.resetWrite p (w.toNat / 65536) else s)
     else (s.send (.unsupported (pathFn p))).logAer (pathFn p) 20)
  else s.gate p key (fun s => if 0x800000 ≤ key then s.regWrite p key w else s.retainWrite (s.selected key) w) (fun s => s.regWrite p key w)

/-- REGISTER_WRITE (R4–R8, R53, R346, R361, R676–R678, R682 and the register rule of every chapter): a word written by a path to a register. -/
def execRegisterWrite (p : Path) (key : Nat) (w : Word) (s : State) : Out :=
  if pathCarries p key ∧ key % 4 = 0 then .next (s.busWrite p key w) else .next s

/-- MGMT_DATA_WRITE (R681): a write of MGMT_DATA through PF1 acts at MGMT_ADDR as agent MGMT. -/
def execMgmtDataWrite (p : Path) (w : Word) (s : State) : Out :=
  if p = .mgmt then .next (s.gateAction p R.MGMT_DATA (fun s => s.mgmtWrite p w)) else .next s

/-- MON_OFF_WRITE (R608): a write of MGMT_MON by a path. -/
def execMonOffWrite (p : Path) (off : Bool) (s : State) : Out :=
  if p = .mgmt then .next (s.gateAction p R.MGMT_MON (fun s => s.writeMonOff off)) else .next s

/-- WAKE (R356, R376, R380, R678): a write of 1 to WAKE in PF0 BAR2. -/
def execWake (s : State) : Out := .next (s.gateAction .pf0 R.WAKE (fun s => s.writeWake))

end Machine
end Sys2Proof
end

