-- ==== Sys2Proof/Machine/Monitor.lean ====
section
/-!
DEFINITION. The Pokeind monitor on UART0 (R607, R608) and the SMBus target (R609).

Marked choices (log entries): DEDUCED 103, 104. Each entry of notes/assumptions says safe or unsafe.
-/

namespace Sys2Proof
namespace Machine

/-! ### Pokeind (R607, R608) -/

/-- The monitor runs: it is present and LK0, which runs it, is UP. -/
def State.monRuns (s : State) : Bool := s.on R.MON_CFG.PRESENT && s.lkUp 0

/-- A command answered OK with its results. -/
def State.monOk (s : State) (results : List Nat) : State := s.send (.answer none results)

/-- A command answered ERR with a code of Table 20-10. -/
def State.monErr (s : State) (code : Nat) : State := s.send (.answer (some code) [])

/-- A command of a running monitor. -/
def State.monCmd (s : State) (f : State → State) : Out := .next (if s.monRuns then f s else s)

/-- MON_ID (R607): part, revision, running VERSION, slot, EPOCH. -/
def execMonId (s : State) : Out :=
  s.monCmd (fun s => s.monOk [s.get R.GLOBAL_ID.DEVICE, s.get R.GLOBAL_REV.REV, s.get R.LK_FWVER.VERSION, s.get R.LK_BOOT.SLOT, s.fw.epoch])

/-- The words of `n` reads by the monitor, from a key on; an OUT register reads 0 without its effect. -/
def State.monWords (s : State) (key : Nat) : Nat → List Nat × State
  | 0 => ([], s)
  | n + 1 =>
    let r := if (outChannel key).isSome then (0#32, s) else s.readReg .mon key 0
    let t := r.2.monWords (key + 4) n
    (r.1.toNat :: t.1, t.2)

/-- R607: RD of a BAR of `size` bytes whose keys begin at `base`. -/
def State.monRead (s : State) (base size a n : Nat) : State :=
  if a % 4 ≠ 0 ∨ n = 0 ∨ 64 < n ∨ size < a + 4 * n then s.monErr 1
  else
    let r := s.monWords (base + a) n
    r.2.monOk r.1

/-- MON_RD_B0 (R607, R608): RD B0: `n` words of PF0 BAR0 from an offset on. -/
def execMonRdB0 (a n : Nat) (s : State) : Out := s.monCmd (fun s => s.monRead 0 0x1000000 a n)

/-- MON_RD_B2 (R607): RD B2: `n` words of PF0 BAR2 from an offset on. -/
def execMonRdB2 (a n : Nat) (s : State) : Out := s.monCmd (fun s => s.monRead 0x2000000 0x10000 a n)

/-- MON_WR (R607, R608): WR: a word written to PF0 BAR0 as agent MON. -/
def execMonWr (a : Nat) (v : Word) (s : State) : Out :=
  s.monCmd (fun s =>
    if a % 4 ≠ 0 ∨ 0x1000000 ≤ a then s.monErr 1
    else
      let may := s.mayWrite .mon a
      let s := s.busWrite .mon a v
      if !may then s.monErr 3 else if s.monRuns then s.monOk [] else s)

/-- MON_TOK_REQ (R362, R607): TOK REQ. -/
def execMonTokReq (s : State) : Out := s.monCmd (fun s => (s.tokenReq 3).monOk [])

/-- MON_TOK_REL (R363, R607): TOK REL. -/
def execMonTokRel (s : State) : Out := s.monCmd (fun s => (s.tokenRel 3).monOk [])

/-- MON_LK (R607): LK: the state and the watchdog count of each lock-keeper. -/
def execMonLk (s : State) : Out :=
  s.monCmd (fun s => s.monOk ([0, 1, 2, 3].flatMap (fun k => [s.lkState k, s.get (R.LK_STATUS.WDOG k)])))

/-- One record as EV prints it: source, flags (root 1, consequential 2, coalesced 4), REPEAT, TIME96, INFO. -/
def evNumbers (r : EvRec) : List Nat :=
  [r.source, b2n r.root + 2 * b2n r.conseq + 4 * b2n r.coalesced, r.rep, toTime96 r.time, r.info]

/-- MON_EV (R607, R617): EV: the last 16 records, the newest first. -/
def execMonEv (s : State) : Out := s.monCmd (fun s => s.monOk (s.ev.recent.flatMap evNumbers))

/-- MON_TIME (R607): TIME: TIME96 and the timekeeper's state. -/
def execMonTime (s : State) : Out := s.monCmd (fun s => s.monOk [toTime96 s.time, s.get R.TIME_STATUS.STATE])

/-- MON_MB_WRITE (R598, R607): MB w: a word to NS4 IN. -/
def execMonMbWrite (w : Word) (s : State) : Out :=
  s.monCmd (fun s => if (s.mbx 4).inFull then (s.mbxIn 4 w).monErr 4 else (s.mbxIn 4 w).monOk [])

/-- MON_MB_READ (R597, R607): MB: a read of NS4 OUT. -/
def execMonMbRead (s : State) : Out := s.monCmd (fun s => let r := s.mbxOut 4; r.2.monOk [r.1.toNat])

/-- MON_BAUD (R607): BAUD r. -/
def execMonBaud (r : Nat) (s : State) : Out := s.monCmd (fun s => if 3 < r then s.monErr 1 else (s.put R.MON_CFG.BAUD r).monOk [])

/-- MON_RESET (R361, R607, R608, R625): RESET k: FULL_RESET written with key k as agent MON. -/
def execMonReset (k : Word) (s : State) : Out :=
  s.monCmd (fun s =>
    let holder := s.get R.GLOBAL_OWNER.HOLDER == 3
    let s := s.resetWrite .mon k.toNat
    if !holder then s.monErr 3 else if s.monRuns then s.monOk [] else s)

/-- MON_HELP (R607): HELP. -/
def execMonHelp (s : State) : Out := s.monCmd (fun s => s.monOk [])

/-- MON_UNKNOWN (R607): any other line: ERR 02; `lost` characters of it met a full input buffer. -/
def execMonUnknown (lost : Nat) (s : State) : Out := s.monCmd (fun s => (s.satInc R.MON_CFG.RX_LOST lost).monErr 2)

/-! ### SMBus (R609); a command without a correct PEC has no effect -/

/-- R591, Table 20-6: the SMBus target acknowledges its address only while LK0 is UP. -/
def State.smbCmd (s : State) (f : State → State) : Out := .next (if s.lkUp 0 then f s else s)

/-- SMB_S4_WRITE (R598, R609): command 0x10: a word to S4 IN. -/
def execSmbS4Write (w : Word) (pec : Bool) (s : State) : Out := s.smbCmd (fun s => if pec then s.mbxIn 12 w else s)

/-- SMB_S4_READ (R597, R609): command 0x11: S4 OUT. -/
def execSmbS4Read (s : State) : Out :=
  s.smbCmd (fun s => let r := s.mbxOut 12; r.2.send (.frame 4 0 (leBytes 4 r.1.toNat)))

/-- SMB_S4_STATUS (R609): command 0x12: IN_FULL, OUT_FULL and the firmware state. -/
def execSmbS4Status (s : State) : Out := s.smbCmd (fun s => s.send (.frame 4 0 [BitVec.ofNat 8 (s.mbxStat 12)]))

/-- SMB_MGMT_ADDR (R609, R681): command 0x20: MGMT_ADDR set. -/
def execSmbMgmtAddr (w : Word) (pec : Bool) (s : State) : Out :=
  s.smbCmd (fun s => if pec then s.plainWrite R.MGMT_ADDR w else s)

/-- SMB_MGMT_DATA (R609, R680, R681): command 0x21: a write (a word) or a read (none) at MGMT_ADDR as agent MGMT. -/
def execSmbMgmtData (w : Option Word) (pec : Bool) (s : State) : Out :=
  s.smbCmd (fun s => match w with
    | some w => if pec then s.mgmtWrite .smbus w else s
    | none =>
      let r := s.readReg .smbus s.mgmtTarget 0
      r.2.send (.frame 4 0 (leBytes 4 r.1.toNat)))

end Machine
end Sys2Proof
end

