-- ==== Sys2Proof/Machine/Accept.lean ====
section
/-!
DEFINITION. CANCEL (R390–R392, R411), and the acceptance of the next order whatever it is (R382–R388).

Marked choices (log entries): DEDUCED 38, 39. Each entry of notes/assumptions says safe or unsafe.
-/

namespace Sys2Proof
namespace Machine

/-! ### CANCEL (R390–R392) -/

/-- Table 12-6: the fields CANCEL must hold. -/
def cancelChecks (o : Order) : List (Nat × Bool) :=
  let k := o.u 16 1
  let u := o.u 17 1
  [chk 16 (4 < k), chk 17 ((k = 0 ∧ 15 < u) ∨ (k = 1 ∧ 15 < u) ∨ (k = 2 ∧ u ≠ 0) ∨ (k = 3 ∧ 31 < u) ∨ (k = 4 ∧ 7 < u))]
    ++ reserved o 18 2 ++ [chk 20 ((k = 1 ∨ k = 4) ∧ o.u 20 4 ≠ 0), chk 24 (k ≠ 0 ∧ o.u 24 4 ≠ 0)] ++ reserved o 28 4 ++ reserved o 33 31

/-- R34, R391: a cancel of a PLAN_STOP: CANCELLED before its time; one under way retires CANCELLED_PARTIAL with the sheets so far, and the
plan stops all the same. -/
def State.planStopCancel (s : State) (o : Order) : State :=
  if o.phase = .pending then s.retire o stCancelled
  else s.retireWith o stPartial 0 [(32, leBytes 8 (s.plan (o.u 16 1)).sheets)]

/-- R391, R474: a cancel of a SKEW_CAL: CANCELLED before it has the calibration channel, CANCELLED_PARTIAL afterwards; the registers keep
their values. -/
def State.skewCancel (s : State) (o : Order) : State :=
  (s.retire o (if o.phase = .pending then stCancelled else stPartial)).startSkew

/-- R123: a cancel of the order of a DDC's pending retune. -/
def State.retuneOrderCancel (s : State) (o : Order) : State :=
  let d := o.u 16 1
  if (s.ddc d).pending.any (fun r => r.order == some o.ref) then s.dropRetune d else s

/-- The answer of an order that ends or stops in every case: the status it retired with, or retires with at its next granule. -/
def cancelled (o : Order) (s : State) : Option Nat × State :=
  (some (if o.phase = .pending then stCancelled else stPartial), s)

/-- R391, R392: a cancel of an accepted order, with the response of its own chapter: the OUTCOME, none where it has no later granule. -/
def State.cancelOrder (s : State) (o : Order) : Option Nat × State :=
  let always := fun (s : State) => ((some stCancelled : Option Nat), s)
  let begun := fun (s : State) => ((some (if o.done = 0 then stCancelled else stPartial) : Option Nat), s)
  match o.opcode with
  | 0x0102 => always (s.stopPlan (o.u 16 1))
  | 0x0103 => cancelled o (s.planStopCancel o)
  | 0x0201 => always (s.retuneOrderCancel o)
  | 0x0301 => always (s.retire o stCancelled)
  | 0x0302 => always (s.laneTestCancel o)
  | 0x0401 => (some (if s.reamCutPassed o then stPartial else stCancelled), s.reamCancel o)
  | 0x0402 => (some (if s.reamCutPassed o then stPartial else stCancelled), s.reamCancel o)
  | 0x0501 => always (s.weirCancel o)
  | 0x0502 => always (s.cancelFlight (o.u 16 1))
  | 0x0601 => begun (s.loadCancel o)
  | 0x0602 => always (s.retire o stCancelled)
  | 0x0603 => always (s.retire o stCancelled)
  | 0x0701 => (some (if s.cutBegun o then stPartial else stCancelled), s.cutCancel o)
  | 0x0801 => cancelled o (s.quiesceCancel o)
  | 0x0901 => (some stPartial, s.nvmeCancel o)
  | 0x0902 => (some stPartial, s.nvmeCancel o)
  | 0x0A01 => always (s.retire o stCancelled)
  | 0x0A02 => always (s.sgHalt (o.u 16 1) 3)
  | 0x0A03 => always (s.seqStopCancel o)
  | 0x0A04 => cancelled o (s.skewCancel o)
  | 0x0B01 => begun (s.catCancel o)
  | 0x0B02 => let r := s.subCancel o; (if r.1 then some stCancelled else none, r.2)
  | 0x0D01 => always (s.timeStepCancel o)
  | 0x0E01 => let r := s.modeCancel o; (if r.1 then some stCancelled else none, r.2)
  | 0x0E02 => let r := s.fsCancel o; (if r.1 then some stCancelled else none, r.2)
  | 0x0F01 => begun (s.edidCancel o)
  | 0x0F02 => always (s.retire o stCancelled)
  | _ => (none, s)

/-- A cancel of a capture, by its number (Table 10-3). -/
def State.cancelCapture (s : State) (number : Nat) : Option Nat × State :=
  match s.captures.find? (fun c => c.order.isNone && c.number == number) with
  | some c =>
    let st := if c.seq = 0 ∧ c.gaps = 0 then stCancelled else stPartial
    (some st, s.endCapture c st)
  | none => (none, s)

/-- R392: CANCEL retires with its outcome, or NOT_FOUND. -/
def State.cancelEnds (o : Order) (r : Option Nat × State) : State :=
  match r.1 with
  | some st => r.2.retireWith o stOk 0 [(32, leBytes 1 st)]
  | none => r.2.retire o stNotFound

/-- R228: a flight cancelled by order: its outcome. -/
def State.cancelFlightOrder (s : State) (f : Nat) : Option Nat × State :=
  let r := s.cancelFlight f
  if (s.flightUpTo f (fabCycle (s.advU 0)) flightFuel).flState f = 0 then (none, r)
  else (some (if r.get (R.FL_STATUS.LAST f) = 3 then stPartial else stCancelled), r)

/-- R390–R392: an accepted CANCEL. A target of KIND ORDER is one that is accepted, bears the TAG and has not been cancelled yet; only the
CANCEL itself can be a target that is a CANCEL, a NOP never being outstanding. -/
def State.cancelAccept (o : Order) (s : State) : State :=
  s.validate o (cancelChecks o) (fun s =>
    let unit := o.u 17 1
    let index := o.u 20 4
    match o.u 16 1 with
    | 0 => match s.order? (unit, index) with
      | some x =>
        if x.tag ≠ o.u 24 4 ∨ x.phase = .cancelling then s.retire o stNotFound
        else if x.opcode < 2 then s.retire o stBadParam 20
        else State.cancelEnds o (s.cancelOrder x)
      | none => s.retire o stNotFound
    | 1 => State.cancelEnds o (s.cancelFlightOrder unit)
    | 2 => State.cancelEnds o (s.cancelCapture index)
    | 3 => State.cancelEnds o (s.cancelMove unit index)
    | _ => State.cancelEnds o (s.cancelGenerator unit))

/-- CANCEL (R390–R392): the next order, if it is a CANCEL. -/
def execCancel (s : State) : Out := .next (s.accept 0x0001 State.cancelAccept)

/-! ### The order engine (R382–R388) -/

/-- R388, Table 12-5: the effect of an accepted order, by its opcode; one whose opcode the table does not list retires BAD_OPCODE with no effect. -/
def State.orderEffect (o : Order) (s : State) : State :=
  match o.opcode with
  | 0x0000 => State.nopAccept o s
  | 0x0001 => State.cancelAccept o s
  | 0x0101 => State.planLoadAccept o s
  | 0x0102 => State.planStartAccept o s
  | 0x0103 => State.planStopAccept o s
  | 0x0104 => State.planUnloadAccept o s
  | 0x0201 => State.retuneAccept o s
  | 0x0301 => State.windowLoadAccept o s
  | 0x0302 => State.laneTestAccept o s
  | 0x0401 => State.reamSnapshotAccept o s
  | 0x0402 => State.reamClearAccept o s
  | 0x0501 => State.weirLoadAccept o s
  | 0x0502 => State.flightArmAccept o s
  | 0x0601 => State.cuLoadAccept o s
  | 0x0602 => State.cuRunAccept o s
  | 0x0603 => State.cuStopAccept o s
  | 0x0701 => State.poundCutAccept o s
  | 0x0801 => State.quiesceAccept o s
  | 0x0901 => State.nvmeReadAccept o s
  | 0x0902 => State.nvmeTrimAccept o s
  | 0x0A01 => State.seqLoadAccept o s
  | 0x0A02 => State.seqStartAccept o s
  | 0x0A03 => State.seqStopAccept o s
  | 0x0A04 => State.skewCalAccept o s
  | 0x0B01 => State.probeCatLoadAccept o s
  | 0x0B02 => State.probeSubAccept o s
  | 0x0D01 => State.timeStepAccept o s
  | 0x0E01 => State.powerModeAccept o s
  | 0x0E02 => State.fsSetAccept o s
  | 0x0F01 => State.dispEdidAccept o s
  | 0x0F02 => State.dispPaletteAccept o s
  | _ => s.retire o stBadOpcode

/-- R382, R387, R388: the next order accepted, whatever it is. -/
def State.acceptNext (s : State) (o : Order) : State := s.acceptOrder o State.orderEffect

/-- ORDER_ACCEPTANCE (R382, R384, R387, R388): the engine accepts the next order, if there is one. -/
def execOrderAcceptance (s : State) : Out :=
  match s.next? with
  | some o => .next (s.acceptNext o)
  | none => .next s

end Machine
end Sys2Proof
end

