-- ==== Sys2Proof/Machine/Completion.lean ====
section
/-!
DEFINITION. The device's own reads (R350, R351, R360): completions to the reads of tables and images, timeouts, poisoned TLPs; and the
power states of the functions (R354, R355).

Marked choices (log entries): DEDUCED 42, 43; DESIGN CHOICE 41. Each entry of notes/assumptions says safe or unsafe.
-/

namespace Sys2Proof
namespace Machine

/-! ### Tables and images (R350) -/

/-- The AER status bits of a completion timeout and of a poisoned TLP. -/
def aerTimeout : Nat := 14
def aerPoisoned : Nat := 12

/-- Bytes of a read that have arrived, kept by their offset in it whatever their values; what lies beyond its length is dropped. -/
def HostRead.take (r : HostRead) (off : Nat) (data : List Byte) : HostRead :=
  { r with got := ((data.take (r.len - off)).zip (List.range data.length)).foldl (fun g x => SMap.put g (off + x.2) x.1) r.got }

/-- R350: bytes put to the reads of one order, `off` counting through them in the order in which they were issued. -/
def takeRead (ref : OrderRef) (data : List Byte) : Nat → List HostRead → List HostRead
  | _, [] => []
  | off, r :: t =>
    if r.order ≠ ref then r :: takeRead ref data off t
    else if off < r.len then r.take off data :: t
    else r :: takeRead ref data (off - r.len) t

/-- Whether a read has all its bytes. -/
def HostRead.whole (r : HostRead) : Bool := r.len ≤ gotPrefix 0 r.got

/-- The bytes of a read. -/
def HostRead.bytes (r : HostRead) : List Byte := Mem.reads 0#8 r.got 0 r.len

/-- R350, R498, R284: an order goes on with what its reads have brought: most once every byte is there, CU_LOAD and PROBE_CAT_LOAD granule
by granule. PROBE_SUB and PROBE_CAT_LOAD wait for LK3 (R591). -/
def State.readProceeds (s : State) (o : Order) : State :=
  let rs := s.reads.filter (fun r => r.order == o.ref)
  let full := rs.all (fun r => r.whole)
  match rs with
  | [] => s
  | r :: t => match o.opcode with
    | 0x0601 => s.loadArrived o r
    | 0x0B01 => if s.lkUp 3 then s.catArrived o r else s
    | op =>
      if !full then s
      else match op with
        | 0x0301 => s.windowTable o r.bytes
        | 0x0501 => s.weirTable o r.bytes
        | 0x0A01 => s.seqTables o r.bytes (match t with
          | r' :: _ => r'.bytes
          | [] => [])
        | 0x0B02 => if s.lkUp 3 then ({ s with reads := s.reads.filter (fun r => r.order != o.ref) }).subTable o r.bytes else s
        | 0x0F02 => s.paletteArrived o r.bytes
        | _ => s

/-- R171, R239, R284, R360, R477, R498, R646: a read of an order returned an error: FETCH_FAILED, with what is recorded by then. -/
def State.readFails (s : State) (o : Order) : State :=
  match o.opcode with
  | 0x0501 => s.endWeirLoad o 0x22 0 []
  | 0x0601 => s.loadEnds o 0x22
  | 0x0B01 => s.retireWith o 0x22 0 [(32, leBytes 4 o.done)]
  | _ => s.retire o 0x22

/-- Whether an order has a read outstanding. -/
def State.reading (s : State) (o : Order) : Bool := s.reads.any (fun r => r.order == o.ref && !r.whole)

/-- COMPLETION_RECEIVED (R350, R171, R239, R284, R351, R358, R360, R477, R498, R646): a completion to the reads of an accepted order brings
`data` for offset `off`, or an error with its reason (Table 12-8). -/
def execCompletionReceived (ring index off : Nat) (data : List Byte) (reason : Fin 5) (s : State) : Out :=
  match s.order? (ring, index) with
  | none => .next s
  | some o =>
    if !s.reading o then .next s
    else match reason.val with
      | 0 =>
        let s := { s with reads := takeRead o.ref data off s.reads }
        .next ((s.reads.filter (fun r => r.order == o.ref)).foldl (fun s r => s.readDone 0 r.addr (gotPrefix 0 r.got)) s |>.readProceeds o)
      | 1 => .next ((s.logAer 0 aerTimeout).readFails o)
      | 3 => .next ((s.logAer 0 aerPoisoned).readFails o)
      | _ => .next (s.readFails o)

/-! ### Reads that fail (R351, R360, R378, R383, R405, R586) -/

/-- A fetch of ring entries that failed: each of its entries could not be read (R383, R401, R405, R687). -/
def State.fetchFails (s : State) (x reason : Nat) (k : Nat) : State :=
  let s := match (s.ring x).fetch with
    | some (i, n) => s.endFetch x i n
    | none => s
  if !s.on (ringEN x) then s
  else (s.takeEntries x (s.ring x).fetchPoll (List.replicate k (.failed reason))).2

/-- Whether the lookout is reading the tally page, or may be. -/
def State.tallyReading (s : State) : Bool := s.lookout.finalPoll || s.lookoutRuns

/-- R378, R379: a read of the tally page failed: a failed final poll lets polling resume. -/
def State.tallyFails (s : State) : State := if s.lookout.finalPoll then s.tallyError.unpark else s.tallyError

/-- One of the device's own reads failed with a reason (1 timeout, 3 poisoned) and its AER bit: by the rule of what issued it. A read that
is not outstanding changes nothing. -/
def State.ownReadFails (s : State) (r : ReadOf) (reason aer : Nat) : State :=
  match r with
  | .entries x => match (s.ring x.val).fetch with
    | some (_, k) => (s.logAer (if x.val = 113 then 1 else 0) aer).fetchFails x.val reason k
    | none => s
  | .tally => if s.tallyReading then (s.logAer 0 aer).tallyFails else s
  | .order ring index => match s.order? (ring, index) with
    | some o => if s.reading o then (s.logAer 0 aer).readFails o else s
    | none => s
  | .move c line => match (s.ring (80 + c.val)).move with
    | some m =>
      if m.entry.toHost || m.entry.host % 64 + m.entry.len ≤ 64 * line then s
      else if reason = 3 then
        (s.logAer 0 aer).updRing (80 + c.val) (fun g => { g with move := some { m with bad := if m.bad.contains line then m.bad else m.bad ++ [line] } })
      else (s.logAer 0 aer).endMove (80 + c.val) m stBad reason
    | none => s
  | .image =>
    if s.get R.FWS_STATUS.STATE = 1 then { s.logAer 1 aer with fw := { s.fw with fetchBad := true } } else s

/-- COMPLETION_TIMEOUT (R351): a read is not completed within the timeout, which configuration space can disable. -/
def execCompletionTimeout (r : ReadOf) (s : State) : Out :=
  if s.pcie.cplTimeoutOff then .next s else .next (s.ownReadFails r 1 aerTimeout)

/-- POISONED_TLP_RECEIVED (R358, R360, R409): a poisoned write to a BAR is dropped; a poisoned completion goes by the rule of its read. -/
def execPoisonedTlpReceived (t : PoisonedTlp) (s : State) : Out :=
  match t with
  | .barWrite fn => .next (if s.pcie.linkUp then s.logAer fn.val aerPoisoned else s)
  | .completion r => .next (s.ownReadFails r 3 aerPoisoned)

/-! ### Power states of the functions (R354, R355, R356) -/

/-- POWER_STATE_CHANGE (R354, R355, R572): a configuration write moves a function to D3hot or back to D0: D3hot of PF0 requests SLEEP. -/
def execPowerStateChange (fn : Fin 2) (d3 : Bool) (s : State) : Out :=
  if !s.pcie.linkUp || !(s.fw.ready || s.fw.recovered) then .next s
  else if fn = 0 then
    if d3 = s.pcie.d3hot0 then .next s
    else
      let s := { s with pcie := { s.pcie with d3hot0 := d3 } }
      .next (if d3 then s.requestMode 0 none false else s.wakeCause 5)
  else .next { s with pcie := { s.pcie with d3hot1 := d3 } }

end Machine
end Sys2Proof
end

