-- ==== Sys2Proof/Machine/GateFire.lean ====
section
/-!
DEFINITION. The firing of a time gate (R527–R531) and all that follows it, and its wake.

Marked choices (log entries): DEDUCED 73. Each entry of notes/assumptions says safe or unsafe.
-/

namespace Sys2Proof
namespace Machine

/-! ### What waits for a gate -/

/-- R35, R36: ARMED plans of MODE 2 that name the gate have its firing as their start time. -/
def State.planGate (s : State) (g t : Nat) : State :=
  (List.range 64).foldl (fun s p =>
    let pl := s.plan p
    if s.planState p = 2 ∧ pl.mode = 2 ∧ pl.gate = g ∧ pl.startAt = none then s.updPlan p (fun pl => { pl with startAt := some t }) else s) s

/-- R59, R61: ARMED converters with SRC = 1 that name the gate have its firing as their start instant. -/
def State.adcGate (s : State) (g t : Nat) : State :=
  [0, 1, 2, 3].foldl (fun s n =>
    let a := s.adc n
    if s.adcState n = 3 ∧ a.src = 1 ∧ a.sel = g ∧ a.startAt = none then s.updAdc n (fun a => { a with startAt := some t }) else s) s

/-- R118, R128: a retune waiting for the gate takes hold at the first boundary from its firing on; a list that advances by it is due. -/
def State.ddcGate (s : State) (g t : Nat) : State :=
  (List.range 8).foldl (fun s d =>
    let s := s.updDdc d (fun x => { x with
      pending := x.pending.map (fun r => if r.gate = some g then { r with gate := none, notBefore := some t } else r) })
    if s.on (R.DDC_STATUS.LIST_RUN d) && s.on (R.DDC_LISTCFG.ADV d) && s.get (R.DDC_LISTCFG.TG d) == g then
      s.updDdc d (fun x => { x with listGates := x.listGates ++ [t] })
    else s) s

/-- R204: the ream orders of MODE 2 that name the gate. -/
def State.reamsGate (s : State) (g t : Nat) : State := (List.range 8).foldl (fun s m => s.reamGate m g t) s

/-- Every consumer of a gate acts on its firing at a time. -/
def State.gateActs (s : State) (g t : Nat) : State :=
  let s := (((s.planGate g t).adcGate g t).ddcGate g t).reamsGate g t
  let s := ((s.flightGate g t).sgGateFire g t).tdcGateStart g t
  let s := (s.cuGate g).cuGateRun g t
  (s.swsGate g t).eventOccur (0x80 + g) t (s.qual 2)

/-- R529: the time of a firing that is now to be made: the one announced, or the next, reached within the present tick. -/
def State.firingNow (s : State) (g : Nat) : Option Nat :=
  let x := s.gateRun g
  let near := fun (t : Nat) => if t < s.time + nsUnits 40 then some t else none
  match x.announced with
  | some t => near t
  | none => if s.on (R.TG_CTL.EN g) && s.tgHas g x.next then near (s.tgTime g x.next) else none

/-- GATE_FIRING (R527, R530, R59, R61, R118, R128, R204, R265, R463, R468, R508, R567): gate `g` fires and every consumer acts. -/
def execGateFiring (g : Fin 32) (s : State) : Out :=
  let g := g.val
  match s.firingNow g with
  | none => .next s
  | some t =>
    let fresh := (s.gateRun g).announced.isNone
    let s := if fresh then
        (s.updGate g (fun x => { x with next := x.next + 1, final := !s.tgHas g (x.next + 1), woken := false })).sgGateStart g t
      else s
    .next ((s.gateActs g t).tgFired g)

/-- GATE_WAKE (R531, R356): within 3 ms of a firing of an enabled gate with WAKE = 1 its wake cause is raised, once. -/
def execGateWake (g : Fin 32) (s : State) : Out :=
  let g := g.val
  let x := s.gateRun g
  let due := match x.announced with
    | some _ => true
    | none => s.on (R.TG_CTL.EN g) && s.tgHas g x.next && (s.tgAhead g).any (fun (d : Int) => decide (d ≤ (nsUnits 3000000 : Nat)))
  if s.on (R.TG_CTL.WAKE g) && due && !x.woken then .next ((s.updGate g (fun x => { x with woken := true })).wakeCause 4) else .next s

end Machine
end Sys2Proof
end

