-- ==== Sys2Proof/Machine/Return.lean ====
section
/-!
DEFINITION. The return to READY (R291, R292, R380, R571, R575, R589, R633, R678, R679), and a lock-keeper that becomes UP (R589, R591).

Marked choices (log entries): DEDUCED 53, 87, 145; DESIGN CHOICE 86, 95. Each entry of notes/assumptions says safe or unsafe.
-/

namespace Sys2Proof
namespace Machine

/-! ### The set-up written below READY (R678) -/

/-- The RW bits of a register. -/
def rwMask (key : Nat) : Word :=
  match findReg key with
  | some r => BitVec.ofNat 32 (r.mask .rw)
  | none => 0

/-- The registers whose set-up was written since entry, from the highest key down, with what was written. -/
def State.writtenBelow (s : State) : List (Nat × Word) :=
  ((s.power.kept.keys s.regs).filter (fun k => !liveBlock k || 0x4000000 ≤ k)).filterMap (fun k =>
    let m := rwMask k
    if (s.power.kept.word k ^^^ s.word k) &&& m = 0 then none else some (k, s.word k &&& m))

/-- R678: the values written since entry take hold under the rules of their blocks. -/
def State.takeHold (s : State) : State :=
  let ws := s.writtenBelow
  let kept := s.power.kept
  let s := ws.foldl (fun (s : State) e =>
    let m := rwMask e.1
    s.setWord e.1 ((s.word e.1 &&& ~~~m) ||| (kept.word e.1 &&& m))) s
  ws.foldl (fun (s : State) e =>
    if 0x4000000 ≤ e.1 then
      (if e.1 % 0x40 = R.QUEUE_CFG 0 % 0x40 then s.writeQueueCfg ((e.1 - 0x4000000) / 0x40) e.2.toNat else s.plainWrite e.1 e.2)
    else s.regWrite .fw e.1 e.2) s

/-! ### What comes back -/

/-- R560: the PLLs relocked. -/
def State.pllsBack (s : State) : State :=
  (List.range 5).foldl (fun s k => if s.pllPowered k then (s.put (R.CLK_PLL.ON k) 1).put (R.CLK_PLL.LOCKED k) 1 else s) s

/-- R571: the reference buffers whose enable is 1 settle anew. -/
def State.refsBack (s : State) : State :=
  (List.range 8).foldl (fun s k =>
    if bit (s.word R.CONV_REFBUF).toNat (if k < 4 then k else k + 4) then
      if k < 4 then s.updAdc k (fun a => { a with refSince := some s.ns }) else s.updDac (k - 4) (fun a => { a with refSince := some s.ns })
    else s) s

/-- The SERDES links train again: KX links and probe lanes whose enable is 1, the drives of the enabled ports. -/
def State.linksBack (s : State) : State :=
  let s := (List.range 6).foldl (fun (s : State) l => if s.on (R.KX_LINK.EN l) then s.put (R.KX_LINK.STATE l) 1 else s) s
  let s := (List.range 16).foldl (fun (s : State) n => if s.on (R.PROBE_LANE.EN n) then s.trainLane n else s) s
  [0, 1].foldl (fun (s : State) d =>
    if s.on (R.NVME_PORT.EN d) then
      let s := s.updNvPort d { s.nvPort d with since := s.adv }
      (s.drivesOf d).foldl (fun (s : State) n => s.send (.level 5 n false s.time)) s
    else s) s

/-- R289, R291: a channel whose stored training did not verify trains anew. -/
def State.retrain (s : State) (c : Nat) : State :=
  (s.put (R.MEM_CH_STATUS.STATE c) 1).updChannel c (fun x => { x with trainSince := some s.ns, trainFails := 0 })

/-- R291, R292: the memory channels after STANDBY or SLEEP. -/
def State.memoryBack (s : State) (sleep : Bool) (failed : List (Fin 6)) : State :=
  let s := (List.range 6).foldl (fun (s : State) c =>
    if !s.chLive c then s
    else if failed.any (fun f => f.val == c) then s.retrain c
    else if sleep then s.beginInit c else s) s
  s.settleGib

/-- R589: LK1–LK3 boot, a failed one excepted. -/
def State.keepersBack (s : State) : State :=
  [1, 2, 3].foldl (fun (s : State) k => if s.lkState k = 4 then s else s.put (R.LK_STATUS.STATE k) 1) s

/-- R633: the heads that were suspended look for their sinks. -/
def State.headsBack (s : State) : State :=
  [0, 1].foldl (fun (s : State) h => if s.headState h = 6 then s.seekSink h else s) s

/-- The device is READY again: its PLLs, references, links, memory, lock-keepers and heads are back, and a hold that waits is taken
(R291, R292, R571, R575, R678, R679). -/
def State.returned (s : State) (failed : List (Fin 6)) : State :=
  let sleep := s.get R.GLOBAL_PWRSTAT.MODE == 0
  let s := ((s.put R.GLOBAL_PWRSTAT.MODE 2).put R.PCIE_LINK.PM 0).put R.GLOBAL_PWRSTAT.LAST_WAKE (s.power.wake.getD 0)
  let s := { s with power := { s.power with wake := none, returning := none, idleSince := none } }
  let s := (((s.pllsBack.refsBack.linksBack.memoryBack sleep failed).keepersBack).headsBack).settleLanes
  let s := s.takeHold
  { s with power := { s.power with kept := [] } }.reportLtr

/-- RETURN_COMPLETE (R291, R292, R380, R571, R575, R589, R633, R678, R679): the device reaches READY; `failed` names the memory channels whose
stored training did not verify. -/
def execReturnComplete (failed : List (Fin 6)) (s : State) : Out :=
  if s.power.returning.isNone || !s.lowPower then .next s
  else
    let s := s.returned failed
    .next (if s.on R.RING_STATUS.PARKED then { s.unpark with lookout := { s.unpark.lookout with pollNow := true } } else s)

/-! ### Lock-keepers (R589, R591) -/

/-- R591: the probe orders that waited for LK3 go on. -/
def State.probeDue (s : State) : State :=
  (s.orders.filter (fun o => (o.opcode == 0x0B01 || o.opcode == 0x0B02) && o.phase != .cancelling)).foldl (fun (s : State) o =>
    if o.opcode = 0x0B02 ∧ o.phase = .pending ∧ o.u 20 4 = 0 then s.sendSub o [] else s.readProceeds o) s

/-- R591: the duties of a lock-keeper that have waited for it. -/
def State.dutiesDue (s : State) (k : Nat) : State :=
  match k with
  | 0 => s.stagingReads
  | 1 => s.startFsDue
  | 2 => s.routesDue
  | 3 => if s.pnlState = 1 then s.probeDue.pnlBegin else s.probeDue
  | _ => s

/-- LK_READY (R589, R591, R593): a lock-keeper that boots or restarts reports ready: it is UP, and what has waited for it is done. -/
def execLkReady (k : Fin 4) (s : State) : Out :=
  let was := s.lkUp k.val
  let s := s.lkReady k.val
  .next (if !was && s.lkUp k.val then s.dutiesDue k.val else s)

end Machine
end Sys2Proof
end

