-- ==== Sys2Proof/Machine/Dispatch.lean ====
section
/-!
DEFINITION. The dispatch: one arm per command, each one direct call of that command's meaning.
-/

namespace Sys2Proof
namespace Machine

/-- The effect of a command on everything but the queue of waiting commands. -/
def exec (i : Instr) (s : State) : Host.Outcome State Fault Refusal :=
  match i with
  | .registerWrite p key w => Sys2Proof.Machine.execRegisterWrite p key w s
  | .barAccessViolation key size contiguous write => Sys2Proof.Machine.execBarAccessViolation key size contiguous write s
  | .convSyncT0Read p => Sys2Proof.Machine.execConvSyncT0Read p s
  | .adcScntLoRead p n => Sys2Proof.Machine.execAdcScntLoRead p n s
  | .queueTearbase0Read p => Sys2Proof.Machine.execQueueTearbase0Read p s
  | .nvmeSlotCapRead p j => Sys2Proof.Machine.execNvmeSlotCapRead p j s
  | .nvmeRecChunkRead p r => Sys2Proof.Machine.execNvmeRecChunkRead p r s
  | .nvmeRecTrecRead p r => Sys2Proof.Machine.execNvmeRecTrecRead p r s
  | .sgT0Read p g => Sys2Proof.Machine.execSgT0Read p g s
  | .sgPlayedLoRead p g => Sys2Proof.Machine.execSgPlayedLoRead p g s
  | .timeNow0Read p sub => Sys2Proof.Machine.execTimeNow0Read p sub s
  | .ethTxt0Read p t => Sys2Proof.Machine.execEthTxt0Read p t s
  | .ethRxt0Read p r => Sys2Proof.Machine.execEthRxt0Read p r s
  | .mgmtDataRead p => Sys2Proof.Machine.execMgmtDataRead p s
  | .mgmtDataWrite p w => Sys2Proof.Machine.execMgmtDataWrite p w s
  | .planLoad => Sys2Proof.Machine.execPlanLoad s
  | .planStart => Sys2Proof.Machine.execPlanStart s
  | .planStop => Sys2Proof.Machine.execPlanStop s
  | .planUnload => Sys2Proof.Machine.execPlanUnload s
  | .planStartDue p => Sys2Proof.Machine.execPlanStartDue p s
  | .planStopDue ring index => Sys2Proof.Machine.execPlanStopDue ring index s
  | .laneWakeDone l => Sys2Proof.Machine.execLaneWakeDone l s
  | .convRefbufWrite p w => Sys2Proof.Machine.execConvRefbufWrite p w s
  | .refRdy k => Sys2Proof.Machine.execRefRdy k s
  | .adcOn p n => Sys2Proof.Machine.execAdcOn p n s
  | .adcOff p n => Sys2Proof.Machine.execAdcOff p n s
  | .converterWakeDone k => Sys2Proof.Machine.execConverterWakeDone k s
  | .dacOn p n => Sys2Proof.Machine.execDacOn p n s
  | .dacOff p n => Sys2Proof.Machine.execDacOff p n s
  | .adcArm p n w => Sys2Proof.Machine.execAdcArm p n w s
  | .adcDisarm p n w => Sys2Proof.Machine.execAdcDisarm p n w s
  | .startInstant n => Sys2Proof.Machine.execStartInstant n s
  | .firstAcquiredSample n x => Sys2Proof.Machine.execFirstAcquiredSample n x s
  | .granuleStop n => Sys2Proof.Machine.execGranuleStop n s
  | .convertedSample n x => Sys2Proof.Machine.execConvertedSample n x s
  | .fsChange n => Sys2Proof.Machine.execFsChange n s
  | .commandSync p => Sys2Proof.Machine.execCommandSync p s
  | .syncEdge => Sys2Proof.Machine.execSyncEdge s
  | .syncReferenceEdge sub => Sys2Proof.Machine.execSyncReferenceEdge sub s
  | .fgStart p mask => Sys2Proof.Machine.execFgStart p mask s
  | .foregroundCalEnd n ms => Sys2Proof.Machine.execForegroundCalEnd n ms s
  | .dwellEnd n ms => Sys2Proof.Machine.execDwellEnd n ms s
  | .degradedWindowEnd n powered ms => Sys2Proof.Machine.execDegradedWindowEnd n powered ms s
  | .calibrationStep n => Sys2Proof.Machine.execCalibrationStep n s
  | .save p => Sys2Proof.Machine.execSave p s
  | .saveDone => Sys2Proof.Machine.execSaveDone s
  | .hkSequenceStart m => Sys2Proof.Machine.execHkSequenceStart m s
  | .hkGo p m => Sys2Proof.Machine.execHkGo p m s
  | .hkConversion m value raw => Sys2Proof.Machine.execHkConversion m value raw s
  | .thermalEmergency preempts => Sys2Proof.Machine.execThermalEmergency preempts s
  | .supplyFault preempts => Sys2Proof.Machine.execSupplyFault preempts s
  | .emergClear p => Sys2Proof.Machine.execEmergClear p s
  | .supplyClear p => Sys2Proof.Machine.execSupplyClear p s
  | .ddcCtlWrite p d w => Sys2Proof.Machine.execDdcCtlWrite p d w s
  | .retuneGo p d => Sys2Proof.Machine.execRetuneGo p d s
  | .retuneCancel p d => Sys2Proof.Machine.execRetuneCancel p d s
  | .ddcRetune => Sys2Proof.Machine.execDdcRetune s
  | .retuneBoundary d => Sys2Proof.Machine.execRetuneBoundary d s
  | .listAdvance d => Sys2Proof.Machine.execListAdvance d s
  | .ddcOutputSample d => Sys2Proof.Machine.execDdcOutputSample d s
  | .pltEvaluation p => Sys2Proof.Machine.execPltEvaluation p s
  | .frameFilled p ce => Sys2Proof.Machine.execFrameFilled p ce s
  | .sheetDelivered p => Sys2Proof.Machine.execSheetDelivered p s
  | .laneFaultDetected l cause fence others => Sys2Proof.Machine.execLaneFaultDetected l cause fence others s
  | .laneInject p lane key fence => Sys2Proof.Machine.execLaneInject p lane key fence s
  | .failoverSpareReady l => Sys2Proof.Machine.execFailoverSpareReady l s
  | .spareTest => Sys2Proof.Machine.execSpareTest s
  | .testEnd l check => Sys2Proof.Machine.execTestEnd l check s
  | .windowLoad => Sys2Proof.Machine.execWindowLoad s
  | .laneTest => Sys2Proof.Machine.execLaneTest s
  | .holdReset p e => Sys2Proof.Machine.execHoldReset p e s
  | .traceQueued e => Sys2Proof.Machine.execTraceQueued e s
  | .decayInstant m => Sys2Proof.Machine.execDecayInstant m s
  | .tileFlush m tile l ue => Sys2Proof.Machine.execTileFlush m tile l ue s
  | .tileReadRequest m tile cut => Sys2Proof.Machine.execTileReadRequest m tile cut s
  | .snoopReply m tile l => Sys2Proof.Machine.execSnoopReply m tile l s
  | .reamSnapshot => Sys2Proof.Machine.execReamSnapshot s
  | .reamClear => Sys2Proof.Machine.execReamClear s
  | .reamCtlClear p m => Sys2Proof.Machine.execReamCtlClear p m s
  | .reamCut m => Sys2Proof.Machine.execReamCut m s
  | .snapshotReadBegin m bad => Sys2Proof.Machine.execSnapshotReadBegin m bad s
  | .reamEnable p m w => Sys2Proof.Machine.execReamEnable p m w s
  | .occurrence sel sub => Sys2Proof.Machine.execOccurrence sel sub s
  | .chamberTimeout f => Sys2Proof.Machine.execChamberTimeout f s
  | .holdoffEnd f => Sys2Proof.Machine.execHoldoffEnd f s
  | .autoTimeout f => Sys2Proof.Machine.execAutoTimeout f s
  | .flArm p f => Sys2Proof.Machine.execFlArm p f s
  | .flCancel p f => Sys2Proof.Machine.execFlCancel p f s
  | .flightArm => Sys2Proof.Machine.execFlightArm s
  | .armTimeReached f => Sys2Proof.Machine.execArmTimeReached f s
  | .weirLoad => Sys2Proof.Machine.execWeirLoad s
  | .trigInEdge j high sub => Sys2Proof.Machine.execTrigInEdge j high sub s
  | .ibusEdge b low sub => Sys2Proof.Machine.execIbusEdge b low sub s
  | .deadTimeEnd input sub => Sys2Proof.Machine.execDeadTimeEnd input sub s
  | .stuckTimeout input => Sys2Proof.Machine.execStuckTimeout input s
  | .stuckRearm input => Sys2Proof.Machine.execStuckRearm input s
  | .trigOutPulseEnd o => Sys2Proof.Machine.execTrigOutPulseEnd o s
  | .ibusPulseEnd b => Sys2Proof.Machine.execIbusPulseEnd b s
  | .cuEnWrite p u en => Sys2Proof.Machine.execCuEnWrite p u en s
  | .cuWakeDone u => Sys2Proof.Machine.execCuWakeDone u s
  | .cuRunWrite p u => Sys2Proof.Machine.execCuRunWrite p u s
  | .cuStopWrite p u => Sys2Proof.Machine.execCuStopWrite p u s
  | .cuPoke p u => Sys2Proof.Machine.execCuPoke p u s
  | .cuWindowWrite p u off bs => Sys2Proof.Machine.execCuWindowWrite p u off bs s
  | .cuTimerExpiry u => Sys2Proof.Machine.execCuTimerExpiry u s
  | .eventEntry u waited fetch => Sys2Proof.Machine.execEventEntry u waited fetch s
  | .qrdCopyLanded u => Sys2Proof.Machine.execQrdCopyLanded u s
  | .sendDone u ecc => Sys2Proof.Machine.execSendDone u ecc s
  | .cuNop u => Sys2Proof.Machine.execCuNop u s
  | .cuAdd u => Sys2Proof.Machine.execCuAdd u s
  | .cuSub u => Sys2Proof.Machine.execCuSub u s
  | .cuAnd u => Sys2Proof.Machine.execCuAnd u s
  | .cuOr u => Sys2Proof.Machine.execCuOr u s
  | .cuXor u => Sys2Proof.Machine.execCuXor u s
  | .cuShl u => Sys2Proof.Machine.execCuShl u s
  | .cuShr u => Sys2Proof.Machine.execCuShr u s
  | .cuSra u => Sys2Proof.Machine.execCuSra u s
  | .cuMul u => Sys2Proof.Machine.execCuMul u s
  | .cuSlt u => Sys2Proof.Machine.execCuSlt u s
  | .cuSltu u => Sys2Proof.Machine.execCuSltu u s
  | .cuAddi u => Sys2Proof.Machine.execCuAddi u s
  | .cuAndi u => Sys2Proof.Machine.execCuAndi u s
  | .cuOri u => Sys2Proof.Machine.execCuOri u s
  | .cuLui u => Sys2Proof.Machine.execCuLui u s
  | .cuShli u => Sys2Proof.Machine.execCuShli u s
  | .cuShri u => Sys2Proof.Machine.execCuShri u s
  | .cuSrai u => Sys2Proof.Machine.execCuSrai u s
  | .cuLdw u ecc => Sys2Proof.Machine.execCuLdw u ecc s
  | .cuStw u => Sys2Proof.Machine.execCuStw u s
  | .cuVld u ecc => Sys2Proof.Machine.execCuVld u ecc s
  | .cuVst u => Sys2Proof.Machine.execCuVst u s
  | .cuLdt u ecc => Sys2Proof.Machine.execCuLdt u ecc s
  | .cuStt u => Sys2Proof.Machine.execCuStt u s
  | .cuBeq u => Sys2Proof.Machine.execCuBeq u s
  | .cuBne u => Sys2Proof.Machine.execCuBne u s
  | .cuBlt u => Sys2Proof.Machine.execCuBlt u s
  | .cuBge u => Sys2Proof.Machine.execCuBge u s
  | .cuJmp u => Sys2Proof.Machine.execCuJmp u s
  | .cuJr u => Sys2Proof.Machine.execCuJr u s
  | .cuCall u => Sys2Proof.Machine.execCuCall u s
  | .cuWait u => Sys2Proof.Machine.execCuWait u s
  | .cuRete u => Sys2Proof.Machine.execCuRete u s
  | .cuHalt u => Sys2Proof.Machine.execCuHalt u s
  | .cuMfs u => Sys2Proof.Machine.execCuMfs u s
  | .cuMts u => Sys2Proof.Machine.execCuMts u s
  | .cuTnow u sub => Sys2Proof.Machine.execCuTnow u sub s
  | .cuTrig u sub => Sys2Proof.Machine.execCuTrig u sub s
  | .cuRdtrg u => Sys2Proof.Machine.execCuRdtrg u s
  | .cuQpop u => Sys2Proof.Machine.execCuQpop u s
  | .cuQrd u => Sys2Proof.Machine.execCuQrd u s
  | .cuQfree u => Sys2Proof.Machine.execCuQfree u s
  | .cuSend u => Sys2Proof.Machine.execCuSend u s
  | .cuQstat u => Sys2Proof.Machine.execCuQstat u s
  | .cuVadd u => Sys2Proof.Machine.execCuVadd u s
  | .cuVsub u => Sys2Proof.Machine.execCuVsub u s
  | .cuVmov u => Sys2Proof.Machine.execCuVmov u s
  | .cuVswap u => Sys2Proof.Machine.execCuVswap u s
  | .cuVconj u => Sys2Proof.Machine.execCuVconj u s
  | .cuVbf u => Sys2Proof.Machine.execCuVbf u s
  | .cuVspl u => Sys2Proof.Machine.execCuVspl u s
  | .cuVcmul u => Sys2Proof.Machine.execCuVcmul u s
  | .cuVmac u => Sys2Proof.Machine.execCuVmac u s
  | .cuVmsu u => Sys2Proof.Machine.execCuVmsu u s
  | .cuVmul u => Sys2Proof.Machine.execCuVmul u s
  | .cuVcmac u => Sys2Proof.Machine.execCuVcmac u s
  | .cuVcmacj u => Sys2Proof.Machine.execCuVcmacj u s
  | .cuVsq u => Sys2Proof.Machine.execCuVsq u s
  | .cuAclr u => Sys2Proof.Machine.execCuAclr u s
  | .cuVnar u => Sys2Proof.Machine.execCuVnar u s
  | .cuAred u => Sys2Proof.Machine.execCuAred u s
  | .cuAxh u => Sys2Proof.Machine.execCuAxh u s
  | .cuAxl u => Sys2Proof.Machine.execCuAxl u s
  | .cuLoop u => Sys2Proof.Machine.execCuLoop u s
  | .cuLoad => Sys2Proof.Machine.execCuLoad s
  | .cuRun => Sys2Proof.Machine.execCuRun s
  | .cuRunDue ring index => Sys2Proof.Machine.execCuRunDue ring index s
  | .cuStop => Sys2Proof.Machine.execCuStop s
  | .cuStopDue ring index => Sys2Proof.Machine.execCuStopDue ring index s
  | .trainingStart p b => Sys2Proof.Machine.execTrainingStart p b s
  | .trainingDone c ok step => Sys2Proof.Machine.execTrainingDone c ok step s
  | .initDone c => Sys2Proof.Machine.execInitDone c s
  | .refreshDue c bank busy => Sys2Proof.Machine.execRefreshDue c bank busy s
  | .mr4Read c hot => Sys2Proof.Machine.execMr4Read c hot s
  | .periodicCalibration c drift => Sys2Proof.Machine.execPeriodicCalibration c drift s
  | .alertN c => Sys2Proof.Machine.execAlertN c s
  | .replayDone c => Sys2Proof.Machine.execReplayDone c s
  | .scrubLine c r use => Sys2Proof.Machine.execScrubLine c r use s
  | .memFence p ch key => Sys2Proof.Machine.execMemFence p ch key s
  | .channelFence c cause => Sys2Proof.Machine.execChannelFence c cause s
  | .poundRelay n => Sys2Proof.Machine.execPoundRelay n s
  | .poundEnable p n w => Sys2Proof.Machine.execPoundEnable p n w s
  | .poundFreeze p n on => Sys2Proof.Machine.execPoundFreeze p n on s
  | .bargeCommit n => Sys2Proof.Machine.execBargeCommit n s
  | .drainRead n d errs => Sys2Proof.Machine.execDrainRead n d errs s
  | .captureAccepted => Sys2Proof.Machine.execCaptureAccepted s
  | .captureBargeRead num errs overtaken => Sys2Proof.Machine.execCaptureBargeRead num errs overtaken s
  | .poundCut => Sys2Proof.Machine.execPoundCut s
  | .linkTrained width rate flit => Sys2Proof.Machine.execLinkTrained width rate flit s
  | .hotReset => Sys2Proof.Machine.execHotReset s
  | .poisonedTlpReceived t => Sys2Proof.Machine.execPoisonedTlpReceived t s
  | .completionTimeout r => Sys2Proof.Machine.execCompletionTimeout r s
  | .powerStateChange fn d3 => Sys2Proof.Machine.execPowerStateChange fn d3 s
  | .vectorModerationEnd fn v => Sys2Proof.Machine.execVectorModerationEnd fn v s
  | .tokenReq p => Sys2Proof.Machine.execTokenReq p s
  | .tokenRel p => Sys2Proof.Machine.execTokenRel p s
  | .mgmtTokenReq => Sys2Proof.Machine.execMgmtTokenReq s
  | .mgmtTokenRel => Sys2Proof.Machine.execMgmtTokenRel s
  | .mgmtForce key => Sys2Proof.Machine.execMgmtForce key s
  | .lookoutPoll tails ok => Sys2Proof.Machine.execLookoutPoll tails ok s
  | .entryFetched x es => Sys2Proof.Machine.execEntryFetched x es s
  | .orderAcceptance => Sys2Proof.Machine.execOrderAcceptance s
  | .park => Sys2Proof.Machine.execPark s
  | .finalPollResult tails ok => Sys2Proof.Machine.execFinalPollResult tails ok s
  | .wake => Sys2Proof.Machine.execWake s
  | .nop => Sys2Proof.Machine.execNop s
  | .cancel => Sys2Proof.Machine.execCancel s
  | .bargeDelivery x bad => Sys2Proof.Machine.execBargeDelivery x bad s
  | .bufferCloseTimer x => Sys2Proof.Machine.execBufferCloseTimer x s
  | .ringFlush p x => Sys2Proof.Machine.execRingFlush p x s
  | .ringEnWrite p x en log2 => Sys2Proof.Machine.execRingEnWrite p x en log2 s
  | .er1TailWrite tail => Sys2Proof.Machine.execEr1TailWrite tail s
  | .eventRecordWrite r => Sys2Proof.Machine.execEventRecordWrite r s
  | .moveStart c errs => Sys2Proof.Machine.execMoveStart c errs s
  | .moveDone c data n reason => Sys2Proof.Machine.execMoveDone c data n reason s
  | .pacedRequest line data => Sys2Proof.Machine.execPacedRequest line data s
  | .admissionRequest q b c => Sys2Proof.Machine.execAdmissionRequest q b c s
  | .cellVisible q => Sys2Proof.Machine.execCellVisible q s
  | .cellFree cell q epoch by_ c => Sys2Proof.Machine.execCellFree cell q epoch by_ c s
  | .queueEnWrite p w => Sys2Proof.Machine.execQueueEnWrite p w s
  | .reclaimDone q => Sys2Proof.Machine.execReclaimDone q s
  | .queueRebuildDone q ok => Sys2Proof.Machine.execQueueRebuildDone q ok s
  | .queueQuiesce => Sys2Proof.Machine.execQueueQuiesce s
  | .queueQuiesceDue ring index => Sys2Proof.Machine.execQueueQuiesceDue ring index s
  | .nvmePortEnable p d w => Sys2Proof.Machine.execNvmePortEnable p d w s
  | .driveLinkUp n up width rate => Sys2Proof.Machine.execDriveLinkUp n up width rate s
  | .driveInitDone n r => Sys2Proof.Machine.execDriveInitDone n r s
  | .driveCommandTimeout n => Sys2Proof.Machine.execDriveCommandTimeout n s
  | .driveResetDone n ok width rate => Sys2Proof.Machine.execDriveResetDone n ok width rate s
  | .nvmeDmaAccess n => Sys2Proof.Machine.execNvmeDmaAccess n s
  | .nvmeSlotEnable p j w => Sys2Proof.Machine.execNvmeSlotEnable p j w s
  | .recordingEnable p r w => Sys2Proof.Machine.execRecordingEnable p r w s
  | .recordingStop p r => Sys2Proof.Machine.execRecordingStop p r s
  | .chunkCloseTimer r => Sys2Proof.Machine.execChunkCloseTimer r s
  | .writeCompletion r chunk j ok => Sys2Proof.Machine.execWriteCompletion r chunk j ok s
  | .nvmeRead => Sys2Proof.Machine.execNvmeRead s
  | .nvmeTrim => Sys2Proof.Machine.execNvmeTrim s
  | .seqLoad => Sys2Proof.Machine.execSeqLoad s
  | .seqStart => Sys2Proof.Machine.execSeqStart s
  | .seqStop => Sys2Proof.Machine.execSeqStop s
  | .skewCal => Sys2Proof.Machine.execSkewCal s
  | .skewCalDone trims inRange => Sys2Proof.Machine.execSkewCalDone trims inRange s
  | .granuleCommit g late errs => Sys2Proof.Machine.execGranuleCommit g late errs s
  | .sgRelease p g => Sys2Proof.Machine.execSgRelease p g s
  | .sgStopWrite p g => Sys2Proof.Machine.execSgStopWrite p g s
  | .sgEnWrite p g en => Sys2Proof.Machine.execSgEnWrite p g en s
  | .probeGroupsWrite p w => Sys2Proof.Machine.execProbeGroupsWrite p w s
  | .probeLaneEnable p n en => Sys2Proof.Machine.execProbeLaneEnable p n en s
  | .probeTrainingTimeout n => Sys2Proof.Machine.execProbeTrainingTimeout n s
  | .probeLaneAligned n => Sys2Proof.Machine.execProbeLaneAligned n s
  | .probeHello n version width pclk => Sys2Proof.Machine.execProbeHello n version width pclk s
  | .probeSyncLoss n headers => Sys2Proof.Machine.execProbeSyncLoss n headers s
  | .frameLost n => Sys2Proof.Machine.execFrameLost n s
  | .probeBeacon n => Sys2Proof.Machine.execProbeBeacon n s
  | .echoFrame n f sub turnaround => Sys2Proof.Machine.execEchoFrame n f sub turnaround s
  | .creditFrame n f => Sys2Proof.Machine.execCreditFrame n f s
  | .vcsFrame n f => Sys2Proof.Machine.execVcsFrame n f s
  | .netsFrame n f => Sys2Proof.Machine.execNetsFrame n f s
  | .subAckFrame n f => Sys2Proof.Machine.execSubAckFrame n f s
  | .probeBargeClose set => Sys2Proof.Machine.execProbeBargeClose set s
  | .bridgeSend b => Sys2Proof.Machine.execBridgeSend b s
  | .stimFrameSend g => Sys2Proof.Machine.execStimFrameSend g s
  | .vcEnable p v w => Sys2Proof.Machine.execVcEnable p v w s
  | .bpEnable p b w => Sys2Proof.Machine.execBpEnable p b w s
  | .egEnable p g w => Sys2Proof.Machine.execEgEnable p g w s
  | .probeCatLoad => Sys2Proof.Machine.execProbeCatLoad s
  | .probeSub => Sys2Proof.Machine.execProbeSub s
  | .subAckTimeout ring index => Sys2Proof.Machine.execSubAckTimeout ring index s
  | .tdcEdge j rising sub => Sys2Proof.Machine.execTdcEdge j rising sub s
  | .tdcWindowEnd c => Sys2Proof.Machine.execTdcWindowEnd c s
  | .gateEnd j => Sys2Proof.Machine.execGateEnd j s
  | .tdcBargeClose n => Sys2Proof.Machine.execTdcBargeClose n s
  | .tdcInEnable p j w => Sys2Proof.Machine.execTdcInEnable p j w s
  | .tdcFanWrite p w => Sys2Proof.Machine.execTdcFanWrite p w s
  | .timeIncWrite p w => Sys2Proof.Machine.execTimeIncWrite p w s
  | .timeServoWrite p locked => Sys2Proof.Machine.execTimeServoWrite p locked s
  | .holdTimeout => Sys2Proof.Machine.execHoldTimeout s
  | .timeModeWrite p w => Sys2Proof.Machine.execTimeModeWrite p w s
  | .timeStep => Sys2Proof.Machine.execTimeStep s
  | .stepTick => Sys2Proof.Machine.execStepTick s
  | .tgEnable p g w => Sys2Proof.Machine.execTgEnable p g w s
  | .gateAnnounce g => Sys2Proof.Machine.execGateAnnounce g s
  | .gateFiring g => Sys2Proof.Machine.execGateFiring g s
  | .gateWake g => Sys2Proof.Machine.execGateWake g s
  | .ethTxGo p t w => Sys2Proof.Machine.execEthTxGo p t w s
  | .ethTxDone t sub => Sys2Proof.Machine.execEthTxDone t sub s
  | .ethFrameReceived bytes sub => Sys2Proof.Machine.execEthFrameReceived bytes sub s
  | .kxLinkEnable p l en => Sys2Proof.Machine.execKxLinkEnable p l en s
  | .kxHello device l devid refMaster slot => Sys2Proof.Machine.execKxHello device l devid refMaster slot s
  | .kxLinkLoss device l => Sys2Proof.Machine.execKxLinkLoss device l s
  | .timeBeaconSend echoes => Sys2Proof.Machine.execTimeBeaconSend echoes s
  | .timeBeaconReceived l b sub roundTrip rootSync => Sys2Proof.Machine.execTimeBeaconReceived l b sub roundTrip rootSync s
  | .followLostTimeout => Sys2Proof.Machine.execFollowLostTimeout s
  | .remoteTriggerReceived l t sub => Sys2Proof.Machine.execRemoteTriggerReceived l t sub s
  | .remoteTriggerDue => Sys2Proof.Machine.execRemoteTriggerDue s
  | .akwauneFrameReceived bytes sub => Sys2Proof.Machine.execAkwauneFrameReceived bytes sub s
  | .kxSpEnable p k w => Sys2Proof.Machine.execKxSpEnable p k w s
  | .refclkLoss => Sys2Proof.Machine.execRefclkLoss s
  | .refclkHoldoverExpiry => Sys2Proof.Machine.execRefclkHoldoverExpiry s
  | .refclkRestored => Sys2Proof.Machine.execRefclkRestored s
  | .pllLockAcquired k first second diff => Sys2Proof.Machine.execPllLockAcquired k first second diff s
  | .pllLockLoss k first diff => Sys2Proof.Machine.execPllLockLoss k first diff s
  | .clkoutEnable p o w => Sys2Proof.Machine.execClkoutEnable p o w s
  | .swsRun p w => Sys2Proof.Machine.execSwsRun p w s
  | .swsStop p w => Sys2Proof.Machine.execSwsStop p w s
  | .swsSegmentAdvance => Sys2Proof.Machine.execSwsSegmentAdvance s
  | .powerMode => Sys2Proof.Machine.execPowerMode s
  | .powerRequest p req => Sys2Proof.Machine.execPowerRequest p req s
  | .powerCancel p => Sys2Proof.Machine.execPowerCancel p s
  | .powerRequestCarriedOut => Sys2Proof.Machine.execPowerRequestCarriedOut s
  | .sleepDrainEnd => Sys2Proof.Machine.execSleepDrainEnd s
  | .modeEntryComplete => Sys2Proof.Machine.execModeEntryComplete s
  | .wakeCause => Sys2Proof.Machine.execWakeCause s
  | .returnComplete failed => Sys2Proof.Machine.execReturnComplete failed s
  | .autoPolicy => Sys2Proof.Machine.execAutoPolicy s
  | .fsSet => Sys2Proof.Machine.execFsSet s
  | .fsRelockDone ring index ok => Sys2Proof.Machine.execFsRelockDone ring index ok s
  | .pwmPeriodStart j => Sys2Proof.Machine.execPwmPeriodStart j s
  | .boot part => Sys2Proof.Machine.execBoot part s
  | .firmwareReady => Sys2Proof.Machine.execFirmwareReady s
  | .watchdogExpiry k => Sys2Proof.Machine.execWatchdogExpiry k s
  | .lkReady k => Sys2Proof.Machine.execLkReady k s
  | .lkRestartTimeout k => Sys2Proof.Machine.execLkRestartTimeout k s
  | .fwsVerify p => Sys2Proof.Machine.execFwsVerify p s
  | .fwsWrite p => Sys2Proof.Machine.execFwsWrite p s
  | .fwsRun p => Sys2Proof.Machine.execFwsRun p s
  | .stagingDone img flashOk => Sys2Proof.Machine.execStagingDone img flashOk s
  | .mailboxInWrite p ch w => Sys2Proof.Machine.execMailboxInWrite p ch w s
  | .mailboxOutRead p ch => Sys2Proof.Machine.execMailboxOutRead p ch s
  | .retract p ch => Sys2Proof.Machine.execRetract p ch s
  | .firmwareInRead ch => Sys2Proof.Machine.execFirmwareInRead ch s
  | .firmwareOutWrite ch => Sys2Proof.Machine.execFirmwareOutWrite ch s
  | .version ch => Sys2Proof.Machine.execVersion ch s
  | .health ch => Sys2Proof.Machine.execHealth ch s
  | .fwActivate ch => Sys2Proof.Machine.execFwActivate ch s
  | .fwCommit ch => Sys2Proof.Machine.execFwCommit ch s
  | .svnCommit ch => Sys2Proof.Machine.execSvnCommit ch s
  | .cfgWrite ch => Sys2Proof.Machine.execCfgWrite ch s
  | .logRead ch => Sys2Proof.Machine.execLogRead ch s
  | .pnlInfo ch => Sys2Proof.Machine.execPnlInfo ch s
  | .pnlOwner ch => Sys2Proof.Machine.execPnlOwner ch s
  | .pnlBlit ch => Sys2Proof.Machine.execPnlBlit ch s
  | .pnlFill ch => Sys2Proof.Machine.execPnlFill ch s
  | .pnlPush ch => Sys2Proof.Machine.execPnlPush ch s
  | .unknownService ch => Sys2Proof.Machine.execUnknownService ch s
  | .monId => Sys2Proof.Machine.execMonId s
  | .monRdB0 a n => Sys2Proof.Machine.execMonRdB0 a n s
  | .monRdB2 a n => Sys2Proof.Machine.execMonRdB2 a n s
  | .monWr a v => Sys2Proof.Machine.execMonWr a v s
  | .monTokReq => Sys2Proof.Machine.execMonTokReq s
  | .monTokRel => Sys2Proof.Machine.execMonTokRel s
  | .monLk => Sys2Proof.Machine.execMonLk s
  | .monEv => Sys2Proof.Machine.execMonEv s
  | .monTime => Sys2Proof.Machine.execMonTime s
  | .monMbWrite w => Sys2Proof.Machine.execMonMbWrite w s
  | .monMbRead => Sys2Proof.Machine.execMonMbRead s
  | .monBaud r => Sys2Proof.Machine.execMonBaud r s
  | .monReset k => Sys2Proof.Machine.execMonReset k s
  | .monHelp => Sys2Proof.Machine.execMonHelp s
  | .monUnknown lost => Sys2Proof.Machine.execMonUnknown lost s
  | .monOffWrite p off => Sys2Proof.Machine.execMonOffWrite p off s
  | .smbS4Write w pec => Sys2Proof.Machine.execSmbS4Write w pec s
  | .smbS4Read => Sys2Proof.Machine.execSmbS4Read s
  | .smbS4Status => Sys2Proof.Machine.execSmbS4Status s
  | .smbMgmtAddr w pec => Sys2Proof.Machine.execSmbMgmtAddr w pec s
  | .smbMgmtData w pec => Sys2Proof.Machine.execSmbMgmtData w pec s
  | .evInject p src key => Sys2Proof.Machine.execEvInject p src key s
  | .containmentClose => Sys2Proof.Machine.execContainmentClose s
  | .fullReset p key => Sys2Proof.Machine.execFullReset p key s
  | .porL st => Sys2Proof.Machine.execPorL st s
  | .perstL => Sys2Proof.Machine.execPerstL s
  | .dispEnable p h w => Sys2Proof.Machine.execDispEnable p h w s
  | .commit p h => Sys2Proof.Machine.execCommit p h s
  | .hpdPlug h => Sys2Proof.Machine.execHpdPlug h s
  | .hpdUnplug h => Sys2Proof.Machine.execHpdUnplug h s
  | .hpdIrq h lost => Sys2Proof.Machine.execHpdIrq h lost s
  | .dispTrainingDone h rate lanes ok => Sys2Proof.Machine.execDispTrainingDone h rate lanes ok s
  | .verticalBlankingStart h => Sys2Proof.Machine.execVerticalBlankingStart h s
  | .activeLineStart h supplied => Sys2Proof.Machine.execActiveLineStart h supplied s
  | .dispEdid => Sys2Proof.Machine.execDispEdid s
  | .dispPalette => Sys2Proof.Machine.execDispPalette s
  | .pnlEnable p w => Sys2Proof.Machine.execPnlEnable p w s
  | .pnlPushTimer => Sys2Proof.Machine.execPnlPushTimer s
  | .timekeeperTick => Sys2Proof.Machine.execTimekeeperTick s
  | .initPassedExtent n => Sys2Proof.Machine.execInitPassedExtent n s
  | .driveLinkDown n => Sys2Proof.Machine.execDriveLinkDown n s
  | .controllerFatalStatus n => Sys2Proof.Machine.execControllerFatalStatus n s
  | .kxStreamBargeArrival k q b endStamp lost => Sys2Proof.Machine.execKxStreamBargeArrival k q b endStamp lost s
  | .probeFrameDropped n crc => Sys2Proof.Machine.execProbeFrameDropped n crc s
  | .probeAdaptationDone n => Sys2Proof.Machine.execProbeAdaptationDone n s
  | .eth0LinkChange up => Sys2Proof.Machine.execEth0LinkChange up s
  | .completionReceived ring index off data reason => Sys2Proof.Machine.execCompletionReceived ring index off data reason s
  | .nvmeCommandCompletion c ok => Sys2Proof.Machine.execNvmeCommandCompletion c ok s
  | .auxTransactionDone ring index answer => Sys2Proof.Machine.execAuxTransactionDone ring index answer s
  | .configSpaceWrite fn c => Sys2Proof.Machine.execConfigSpaceWrite fn c s
  | .swsSettled => Sys2Proof.Machine.execSwsSettled s
  | .storedTrimsLoaded n => Sys2Proof.Machine.execStoredTrimsLoaded n s
  | .pnlInitComplete id => Sys2Proof.Machine.execPnlInitComplete id s

end Machine
end Sys2Proof
end

