-- ==== Sys2Proof/Safety.lean ====
section
/-!
DEFINITION. What counts as a safe state and a safe run of the block.
-/

namespace Sys2Proof
namespace Machine

/-- A safe state: the register file and every byte memory of the device (the stimulus cache, the stores of the pounds, the data memories
of the units, the frame buffers, the configuration records of the flash, the panel's store) are in their canonical form, so that equal
contents are equal data. -/
def State.Ok (s : State) : Prop :=
  s.regs.wf = true ∧ Mem.wf 0#8 s.cache = true ∧ s.pounds.all (fun e => Mem.wf 0#8 e.2.store) = true ∧
    s.cus.all (fun e => Mem.wf 0#8 e.2.data) = true ∧ Mem.wf 0#8 s.eth.mem = true ∧ Mem.wf 0#8 s.flash.config = true ∧
    Mem.wf 0#8 s.panel.store = true

/-- A step that answers a next state. -/
def State.Moves (s : State) : Prop := ∃ t, step s = .next t

/-- A run of `n` steps that meets neither a fault nor a refusal. -/
def State.RunsSafely : Nat → State → Prop
  | 0, _ => True
  | n + 1, s => ∃ t, step s = .next t ∧ State.RunsSafely n t

end Machine
end Sys2Proof
end

