-- ==== Sys2Proof/Certificates/Slice0/Obligations.lean ====
section
/-!
DEFINITION. The statements about the block. Each command completes somewhere: a clause names the conditions of its own effect, on the
state and the operands alone, and the next state that the rules give there.
-/

namespace Sys2Proof
namespace Machine

/-- A software write by path `p` to the register at `key` has its effect: the access reaches the device (R345, R346, R351, R355), its agent
may write there (R361), and the block is not served from its retention copy (R678). -/
def Writable (s : State) (p : Path) (key : Nat) : Prop :=
  s.reaches p key = true ∧ s.mayWrite p key = true ∧ s.retained key = false

/-- `o` is the order that the engine accepts next (R382, R384, R385); its opcode is `op` and the reserved bits of its header are 0. -/
def NextOrder (s : State) (o : Order) (op : Nat) : Prop :=
  s.next? = some o ∧ o.opcode = op ∧ firstInvalid ((0, o.u 0 1 / 8 != 0) :: reserved o 10 6) = none

/-- The state in which an order that had been taken from its ring is outstanding. -/
def outstanding (s : State) (o : Order) : State :=
  { s with taken := s.taken.filter (fun x => x.ref != o.ref), orders := s.orders ++ [o] }

/-- The same with the order running. -/
def running (s : State) (o : Order) : State := (outstanding s o).updOrder o.ref (fun o => { o with phase := .running })

/-- Calender unit `u` issues a bundle next whose slot A holds opcode `op`. -/
def IssuesA (s : State) (u op : Nat) : Prop := s.cuReady u = true ∧ hasA op (s.cuNext u) = true

/-- The same for slot B. -/
def IssuesB (s : State) (u op : Nat) : Prop := s.cuReady u = true ∧ hasB op (s.cuNext u) = true

/-- The program word of the bundle that unit `u` issues next, and its two slots. -/
def nextPc (s : State) (u : Nat) : Nat := (s.bank u (s.cuBankNo u)).pc
def nextA (s : State) (u : Nat) : CuSlot := ⟨u, s.cuBankNo u, nextPc s u, s.cuNext u % 2 ^ 32⟩
def nextB (s : State) (u : Nat) : CuSlot := ⟨u, s.cuBankNo u, nextPc s u, s.cuNext u / 2 ^ 32⟩

/-- The unit as the bundle's slots find it: PC shows the bundle, the multipliers are free again. -/
def atIssue (s : State) (u : Nat) : State :=
  (s.put (if s.cuBankNo u = 0 then R.CU_PC.PC0 u else R.CU_PC.PC1 u) (nextPc s u)).updCu u (fun x => { x with mulBusy := false })

/-- What is left of the bundle's cycle once slot A has had its effect `x` and leaves the sequence to `ctl`: slot B, the landing of what is
due, and the sequence. -/
def behindA (s : State) (u : Nat) (ctl : CuCtl) (x : State) : State :=
  ((slotB (s.cu u).mulBusy (nextB s u) x).2.cuCycle u).cuAdvance u (s.cuBankNo u) (nextPc s u) ctl (slotB (s.cu u).mulBusy (nextB s u) x).1

/-- The unit once slot A has had its effect. -/
def afterA (s : State) (u : Nat) : State := (slotA {} (nextA s u) (atIssue s u)).2

/-- What is left of the bundle's cycle once slot B too has had its effect `x`. -/
def behindB (s : State) (u : Nat) (op : CuOpen) (x : State) : State :=
  (x.cuCycle u).cuAdvance u (s.cuBankNo u) (nextPc s u) (slotA {} (nextA s u) (atIssue s u)).1 op

/-- A request of service `code` with tag `tag` and these data words waits first in channel `ch` of a serving LK0, no reply being owed
(R600, R605); behind it stand `rest`. -/
def Asks (s : State) (ch code tag : Nat) (data rest : List Word) : Prop :=
  s.request ch = some (code, tag, data, rest) ∧ s.lkUp 0 = true ∧ (s.mbx ch).busy = none

/-- The state once that request has been taken. -/
def askTaken (s : State) (ch : Nat) (rest : List Word) : State := s.updMbx ch (fun m => { m with inbox := dropOther rest.length rest })

/-- The state in which a read by path `p` of the register at `k` has latched `w` for the next register (R680). -/
def latch1 (s : State) (p : Path) (k : Nat) (w : Word) : State := { s with latches := SMap.put s.latches (latchKey p (k + 4)) w }

/-- The same for the next two registers. -/
def latch2 (s : State) (p : Path) (k : Nat) (w w' : Word) : State := latch1 (latch1 s p k w) p (k + 4) w'

/-- Nothing but the registers listed differs: every other register, every memory and everything else is as before. -/
def OnlyRegs (ks : List Nat) (s t : State) : Prop :=
  { t with regs := s.regs } = s ∧ ∀ k, k ∉ ks → t.word k = s.word k

/-- Every byte of every memory of the device reads as before. -/
def SameMemories (s t : State) : Prop :=
  ∀ a : Nat, Mem.byte 0#8 t.cache a = Mem.byte 0#8 s.cache a ∧ Mem.byte 0#8 t.eth.mem a = Mem.byte 0#8 s.eth.mem a ∧
    Mem.byte 0#8 t.flash.config a = Mem.byte 0#8 s.flash.config a ∧ Mem.byte 0#8 t.panel.store a = Mem.byte 0#8 s.panel.store a ∧
    (∀ n, Mem.byte 0#8 (t.pound n).store a = Mem.byte 0#8 (s.pound n).store a) ∧
    (∀ u, Mem.byte 0#8 (t.cu u).data a = Mem.byte 0#8 (s.cu u).data a)

end Machine
end Sys2Proof

open Sys2Proof Sys2Proof.Machine

/-- Acceptance of the orders of plans, retunes, windows and lane tests. -/
def Obligations.PlanOrdersAct : Prop :=
  (∀ (s : State) (o : Order), NextOrder s o 0x0000 → firstInvalid (nopChecks o) = none →
    exec .nop s = .next ((outstanding s o).retire o stOk)) ∧
  (∀ (s : State) (o : Order), NextOrder s o 0x0101 → firstInvalid ((outstanding s o).planLoadChecks o) = none →
    s.planState (o.u 16 1) < 2 →
    exec .planLoad s = .next ((((outstanding s o).put (R.PLAN_STATUS.STATE (o.u 16 1)) 1).updPlan (o.u 16 1)
      (fun pl => { pl with bytes := o.bytes })).retire o stOk)) ∧
  (∀ (s : State) (o : Order), NextOrder s o 0x0102 → firstInvalid (planStartChecks o) = none → s.planState (o.u 16 1) = 1 →
    (outstanding s o).consumersReady (o.u 16 1) = true → (outstanding s o).sourceEnabled ((s.plan (o.u 16 1)).sourceId) = true →
    (outstanding s o).lanesNeeded (o.u 16 1) ≤
      ((outstanding s o).freeLanes.filter (fun l => !(outstanding s o).spares.contains l)).length →
    exec .planStart s = .next ((outstanding s o).armPlan o (o.u 16 1)
      (((outstanding s o).freeLanes.filter (fun l => !(outstanding s o).spares.contains l)).take
        ((outstanding s o).lanesNeeded (o.u 16 1))))) ∧
  (∀ (s : State) (o : Order), NextOrder s o 0x0103 → firstInvalid (planStopChecks o) = none → 2 ≤ s.planState (o.u 16 1) →
    (o.u 17 1 = 0 → exec .planStop s = .next ((running s o).stopPlan (o.u 16 1))) ∧
    (o.u 17 1 = 1 → s.time < ofTime96 (o.u 20 12) → exec .planStop s = .next (outstanding s o))) ∧
  (∀ (s : State) (o : Order), NextOrder s o 0x0104 → firstInvalid (planUnloadChecks o) = none → s.planState (o.u 16 1) = 1 →
    exec .planUnload s = .next (((outstanding s o).put (R.PLAN_STATUS.STATE (o.u 16 1)) 0).retire o stOk)) ∧
  (∀ (s : State) (o : Order), NextOrder s o 0x0201 → firstInvalid (retuneChecks o) = none → o.u 17 1 = 0 →
    s.on (R.DDC_CTL.EN (o.u 16 1)) = true → s.on (R.DDC_STATUS.LIST_RUN (o.u 16 1)) = false →
    exec .ddcRetune s = .next ((outstanding s o).pendRetune (o.u 16 1)
      { freq := o.u 32 6, phase := o.u 38 3, cause := 1, order := some o.ref })) ∧
  (∀ (s : State) (o : Order), NextOrder s o 0x0301 → firstInvalid (windowLoadChecks o) = none → s.windowInUse (o.u 16 1) = false →
    exec .windowLoad s = .next ((running s o).startRead o (o.u 24 8) (4 * 2 ^ o.u 17 1))) ∧
  (∀ (s : State) (o : Order), NextOrder s o 0x0302 → firstInvalid (laneTestChecks o) = none → s.laneAssigned (o.u 16 1) = false →
    (s.lane (o.u 16 1)).testRef = none →
    exec .laneTest s = .next ((running s o).beginTest (o.u 16 1) (some o.ref))) ∧
  (∀ (s : State) (o : Order), s.next? = some o → exec .orderAcceptance s = .next (s.acceptNext o))

/-- Acceptance of the orders of reams, weirs, flights, queues and pounds, and of CANCEL. -/
def Obligations.FlightAndStreamOrdersAct : Prop :=
  (∀ (s : State) (o x : Order), NextOrder s o 0x0001 → firstInvalid (cancelChecks o) = none → o.u 16 1 = 0 →
    (outstanding s o).order? (o.u 17 1, o.u 20 4) = some x → x.tag = o.u 24 4 → x.phase ≠ .cancelling → 2 ≤ x.opcode →
    exec .cancel s = .next (State.cancelEnds o ((outstanding s o).cancelOrder x))) ∧
  (∀ (s : State) (o : Order), NextOrder s o 0x0401 → firstInvalid (reamSnapshotChecks o) = none → s.on (R.REAM_CFG.EN (o.u 16 1)) = true →
    o.u 17 1 = 0 →
    exec .reamSnapshot s = .next ((outstanding s o).newCut (o.u 16 1)
      { snap := true, clear := bit (o.u 19 1) 0, queue := o.u 32 2, region := (o.u 34 2, o.u 36 2, o.u 38 2, o.u 40 2)
        order := some o.ref, accepted := s.time, cut := some s.cutNow })) ∧
  (∀ (s : State) (o : Order), NextOrder s o 0x0402 → firstInvalid (reamClearChecks o) = none → s.on (R.REAM_CFG.EN (o.u 16 1)) = true →
    o.u 17 1 = 0 →
    exec .reamClear s = .next ((outstanding s o).newCut (o.u 16 1)
      { clear := true, order := some o.ref, accepted := s.time, cut := some s.cutNow })) ∧
  (∀ (s : State) (o : Order), NextOrder s o 0x0501 → firstInvalid (weirChecks o) = none →
    exec .weirLoad s = .next ((outstanding s o).startWeirLoad (o.u 16 1) (o.u 17 1))) ∧
  (∀ (s : State) (o : Order), NextOrder s o 0x0502 → firstInvalid (flightArmChecks o) = none → o.u 17 1 = 0 → s.flState (o.u 16 1) = 0 →
    s.flightOk (o.u 16 1) = true →
    exec .flightArm s = .next ((((outstanding s o).prepareFlight (o.u 16 1)).enterArmed (o.u 16 1)
      (((outstanding s o).prepareFlight (o.u 16 1)).advU 0)).retireWith o stOk 0 [(20, time96Bytes s.time)])) ∧
  (∀ (s : State) (o : Order), NextOrder s o 0x0801 → firstInvalid (quiesceChecks o) = none →
    (o.u 18 1 = 0 → exec .queueQuiesce s = .next ((outstanding s o).quiesceDue o false)) ∧
    (o.u 18 1 = 1 → s.time < ofTime96 (o.u 20 12) → exec .queueQuiesce s = .next (outstanding s o))) ∧
  (∀ (s : State) (o : Order), NextOrder s o 0x0701 → firstInvalid (poundCutChecks o) = none → s.poundState (o.u 16 1) = 2 →
    s.on (R.POUND_CFG.KIND (o.u 16 1)) = false →
    exec .poundCut s = .next (State.settleCaptures { running s o with captures := s.captures ++
      [{ pound := o.u 16 1, start := ofTime96 (o.u 20 12), stop := ofTime96 (o.u 32 12), queue := o.u 44 2, order := some o.ref }] }
      (o.u 16 1)))

/-- What each of the orders of calender units and drives does when it is accepted. -/
def Obligations.UnitAndDriveOrdersAct : Prop :=
  (∀ (s : State) (o : Order), NextOrder s o 0x0601 → firstInvalid (cuLoadChecks o) = none → bit (o.u 17 1) 0 = true →
    s.cuState (o.u 16 1) = 2 ∨ s.cuState (o.u 16 1) = 6 →
    exec .cuLoad s = .next ((running s o).startRead o (o.u 40 8) (8 * o.u 24 4))) ∧
  (∀ (s : State) (o : Order), NextOrder s o 0x0602 → firstInvalid (cuRunChecks o) = none → o.u 17 1 = 0 →
    s.cuState (o.u 16 1) = 2 ∨ s.cuState (o.u 16 1) = 6 →
    exec .cuRun s = .next ((((outstanding s o).put (R.CU_ENTRY.ENTRY (o.u 16 1)) (o.u 32 4)).cuRunAt (o.u 16 1) s.time).retireWith o stOk 0
      [(20, time96Bytes s.time)])) ∧
  (∀ (s : State) (o : Order), NextOrder s o 0x0603 → firstInvalid (cuStopChecks o) = none → o.u 17 1 = 0 →
    exec .cuStop s = .next ((outstanding s o).cuStopNow o false)) ∧
  (∀ (s : State) (o : Order), NextOrder s o 0x0901 → firstInvalid ((outstanding s o).nvReadChecks o) = none → o.u 16 1 = 0 →
    s.slotReady (o.u 17 1) = true → o.u 20 8 + o.u 28 4 ≤ s.slotCap (o.u 17 1) →
    exec .nvmeRead s = .next (State.readStep { running s o with nvme := { s.nvme with reads := s.nvme.reads ++ [{ order := o.ref, scans := [] }] } }
      o { order := o.ref, scans := [] })) ∧
  (∀ (s : State) (o : Order), NextOrder s o 0x0902 → firstInvalid (nvmeTrimChecks o) = none → s.slotReady (o.u 16 1) = true →
    s.memberOf (o.u 16 1) = false → o.u 20 8 + o.u 32 8 ≤ s.slotCap (o.u 16 1) →
    exec .nvmeTrim s = .next { (running s o).nvSend (o.u 16 1) 0x09 (o.u 20 8) (o.u 32 8) [] with
      nvme := { ((running s o).nvSend (o.u 16 1) 0x09 (o.u 20 8) (o.u 32 8) []).nvme with
        trims := ((running s o).nvSend (o.u 16 1) 0x09 (o.u 20 8) (o.u 32 8) []).nvme.trims ++
          [(o.ref, ((running s o).nvSend (o.u 16 1) 0x09 (o.u 20 8) (o.u 32 8) []).slotDrive (o.u 16 1),
            ((running s o).nvSend (o.u 16 1) 0x09 (o.u 20 8) (o.u 32 8) []).adv)] } })

/-- What each of the orders of the generators and probes does when it is accepted. -/
def Obligations.GeneratorAndProbeOrdersAct : Prop :=
  (∀ (s : State) (o : Order), NextOrder s o 0x0A01 → firstInvalid (seqLoadChecks o) = none → s.sgBusy (o.u 16 1) = false →
    exec .seqLoad s = .next (((outstanding s o).startRead o (o.u 40 8) (16 * o.u 24 2)).startRead o (o.u 48 8) (16 * o.u 20 4))) ∧
  (∀ (s : State) (o : Order), NextOrder s o 0x0A02 → firstInvalid (seqStartChecks o) = none → s.startRefused (o.u 16 1) = false →
    o.u 19 1 = 0 → ∃ t, exec .seqStart s = .next t ∧ t.sgState (o.u 16 1) = 2) ∧
  (∀ (s : State) (o : Order), NextOrder s o 0x0A03 → firstInvalid (seqStopChecks o) = none → 2 ≤ s.sgState (o.u 16 1) → o.u 17 1 = 0 →
    exec .seqStop s = .next (((outstanding s o).updSg (o.u 16 1) (fun x => { x with stops := x.stops ++ [(o.ref, 0)] })).sgHalt (o.u 16 1) 2)) ∧
  (∀ (s : State) (o : Order), NextOrder s o 0x0A04 → firstInvalid (skewCalChecks o) = none →
    (∀ g, g < 4 → (bit (o.u 16 1) g = true ∨ o.u 17 1 = g) → s.skewReady g = true) →
    exec .skewCal s = .next (outstanding s o).startSkew) ∧
  (∀ (s : State) (o : Order), NextOrder s o 0x0B01 → firstInvalid (probeCatLoadChecks o) = none → s.netsLive (o.u 16 4) (o.u 20 4) = false →
    exec .probeCatLoad s = .next ((running s o).startRead o (o.u 24 8) (8 * o.u 20 4))) ∧
  (∀ (s : State) (o : Order), NextOrder s o 0x0B02 → firstInvalid ((outstanding s o).probeSubChecks o) = none → o.u 20 4 ≠ 0 →
    exec .probeSub s = .next ((outstanding s o).startRead o (o.u 24 8) (4 * o.u 20 4)))

/-- What each of the orders of time, power, clocks and display does when it is accepted. -/
def Obligations.TimePowerAndDisplayOrdersAct : Prop :=
  (∀ (s : State) (o : Order), NextOrder s o 0x0D01 → firstInvalid (timeStepChecks o) = none → o.u 16 1 = 0 → s.follows = false →
    0 ≤ (s.stepTime : Int) + s.stepOf o → (s.stepTime : Int) + s.stepOf o < timeLimit →
    (s.stepOf o).natAbs ≤ nsUnits (s.get R.TIME_JUMP.JUMP_MAX) →
    exec .timeStep s = .next { outstanding s o with tk := { s.tk with steps := s.tk.steps ++ [(o.ref, s.stepOf o, s.ticks + 50)] } }) ∧
  (∀ (s : State) (o : Order), NextOrder s o 0x0E01 → firstInvalid (powerModeChecks o) = none → o.u 17 1 = 0 →
    s.orders.find? (fun o => o.opcode == 0x0E01 && o.phase == .pending && decide (ofTime96 (o.u 20 12) ≤ s.time)) = none →
    exec .powerMode s = .next (((outstanding s o).updOrder o.ref (fun o => { o with phase := .running, late := false })).requestMode
      (2 - o.u 16 1) (some o.ref) false)) ∧
  (∀ (s : State) (o : Order), NextOrder s o 0x0E02 → firstInvalid (fsSetChecks o) = none → (outstanding s o).fsRefused (o.u 16 1) = false →
    exec .fsSet s = .next (outstanding s o).startFsDue) ∧
  (∀ (s : State) (o : Order), NextOrder s o 0x0F01 → firstInvalid (dispEdidChecks o) = none → 2 ≤ s.headState (o.u 16 1) →
    exec .dispEdid s = .next (outstanding s o)) ∧
  (∀ (s : State) (o : Order), NextOrder s o 0x0F02 → firstInvalid (dispPaletteChecks o) = none →
    exec .dispPalette s = .next ((outstanding s o).startRead o (o.u 24 8) 1024))

/-- The commands of the queues. -/
def Obligations.QueueCommandsAct : Prop :=
  (∀ (s : State) (q : Fin 4096) (b : Barge), s.qstate q = qActive → s.dropNewest q = false → b.isMark = false →
    s.waitQ.any (fun x => x.1 == q.val && x.2.stream == b.stream) = false →
    s.markStore.any (fun m => m.queue == q.val && sameProducer m.barge b) = false →
    s.dataFits q b.cells = true → exec (.admissionRequest q b .agree) s = .next (s.enqueue q b)) ∧
  (∀ (s : State) (cell : Fin 131072) (q : Fin 4096) (epoch : Fin 4) (a : FreeAgent) (tag : CellTag),
    SMap.find? s.cells cell = some tag → tag.queue = q → tag.epoch = epoch → s.mayFree tag a = true →
    exec (.cellFree cell q epoch a .agree) s = .next (s.releaseCell cell tag)) ∧
  (∀ (s : State) (cell : Fin 131072) (q : Fin 4096) (epoch : Fin 4) (a : FreeAgent), SMap.find? s.cells cell = none →
    exec (.cellFree cell q epoch a .agree) s =
      .next (((s.queueErr 1 q cell).put (R.QUEUE_STAT.DF_SEEN q) 1).raiseInst 227 q)) ∧
  (∀ (s : State) (p : Path) (q : Nat) (w : Word), Writable s p 0x90014 → s.get R.QUEUE_SEL.QUEUE = q →
    bits w.toNat 1 1 = s.get (R.QUEUE_CFG.MODE q) → bits w.toNat 2 4 = s.get (R.QUEUE_CFG.THRESH q) →
    (bit w.toNat 0 = true → s.on (R.QUEUE_CFG.EN q) = false → s.qstate q = qOff →
      exec (.queueEnWrite p w) s = .next (((s.put (R.QUEUE_CFG.LIMIT q) (bits w.toNat 8 18)).openQueue q).retryWaiting)) ∧
    (bit w.toNat 0 = false → s.on (R.QUEUE_CFG.EN q) = true →
      exec (.queueEnWrite p w) s = .next (((s.put (R.QUEUE_CFG.LIMIT q) (bits w.toNat 8 18)).closeQueue q).retryWaiting))) ∧
  (∀ (s : State) (q : Fin 4096), s.dropNewest q = false → s.reclaimable q = true → exec (.reclaimDone q) s = .next (s.reclaim q)) ∧
  (∀ (s : State) (q : Fin 4096), s.qstate q = qRebuild → s.lkUp 1 = true →
    exec (.queueRebuildDone q false) s = .next ((s.put (R.QUEUE_STAT.STATE q) qFenced).raiseInst 225 q) ∧
    (s.on (R.QUEUE_CFG.EN q) = true →
      exec (.queueRebuildDone q true) s = .next (s.put (R.QUEUE_STAT.STATE q) qActive).retryWaiting)) ∧
  (∀ (s : State) (ring index : Nat) (o : Order), s.order? (ring, index) = some o → o.opcode = 0x0801 → o.phase = .pending →
    ofTime96 (o.u 20 12) ≤ s.time → exec (.queueQuiesceDue ring index) s = .next (s.quiesceDue o o.late))

/-- The commands of the rings and the lookout. -/
def Obligations.RingCommandsAct : Prop :=
  (∀ (s : State) (tails : List (Nat × Word)), s.lookoutRuns = true → s.lookout.pollNow = true ∨ s.lookout.lastPoll + s.lookoutPeriod ≤ s.ns →
    exec (.lookoutPoll tails true) s = .next (s.pollReads.pollResult tails).2 ∧
    exec (.lookoutPoll tails false) s = .next s.pollReads.tallyError) ∧
  (∀ (s : State) (x : Fin 114) (es : List FetchResult) (i k : Nat) (t : Bool × State), (s.ring x).fetch = some (i, k) →
    (s.endFetch x i k).on (ringEN x) = true → t = (s.endFetch x i k).takeEntries x (s.ring x).fetchPoll (es.take k) →
    (x ≠ 113 → exec (.entryFetched x es) s = .next t.2) ∧
    (x = 113 → t.1 = true → ringDist (t.2.ring 113).tail (t.2.ringHead 113) ≠ 0 →
      exec (.entryFetched x es) s = .next (t.2.startFetch 113 (ringDist (t.2.ring 113).tail (t.2.ringHead 113)) 0)) ∧
    (x = 113 → t.1 = false → exec (.entryFetched x es) s = .next t.2)) ∧
  (∀ (s : State), s.lookoutRuns = true → s.on R.RING_CTL.PARK_EN = true →
    s.lookout.lastFound + 1000 * max 1 (s.get R.RING_PARK.PARK_AFTER) ≤ s.ns →
    ∃ t, exec .park s = .next t ∧ t.on R.RING_STATUS.PARKED = true ∧ t.lookout.finalPoll = true ∧
      t.lookout.parkSeq = (s.lookout.parkSeq + 1) % 65536) ∧
  (∀ (s : State) (tails : List (Nat × Word)), s.lookout.finalPoll = true →
    exec (.finalPollResult tails false) s = .next s.tallyError.unpark ∧
    ((s.pollResult tails).1 = false → exec (.finalPollResult tails true) s =
      .next (State.irq { (s.pollResult tails).2 with lookout := { (s.pollResult tails).2.lookout with finalPoll := false } } 117))) ∧
  (∀ (s : State) (x : Fin 64) (b : QBarge), s.on (R.RING_CFG.EN (x + 16)) = true → s.upstream (x + 16) = true → s.ringTurn (x + 16) = true →
    (s.ring (x + 16)).after = [] → s.frontBarge? (s.get (R.RING_SRC.QUEUE (x + 16))) = some b →
    ((s.deliver (x + 16) b.barge).1 = true →
      exec (.bargeDelivery x []) s = .next (((s.deliver (x + 16) b.barge).2.tookRingTurn (x + 16)).freeCells b.cells)) ∧
    ((s.deliver (x + 16) b.barge).1 = false → exec (.bargeDelivery x []) s = .next (s.deliver (x + 16) b.barge).2)) ∧
  (∀ (s : State) (x : Fin 64) (m : Barge) (t : List Barge) (bad : List (Nat × Nat)), s.on (R.RING_CFG.EN (x + 16)) = true →
    s.upstream (x + 16) = true → s.ringTurn (x + 16) = true → (s.ring (x + 16)).after = m :: t →
    ((s.deliver (x + 16) m).1 = true → exec (.bargeDelivery x bad) s =
      .next (((s.deliver (x + 16) m).2.tookRingTurn (x + 16)).updRing (x + 16) (fun r => { r with after := t }))) ∧
    ((s.deliver (x + 16) m).1 = false → exec (.bargeDelivery x bad) s = .next (s.deliver (x + 16) m).2)) ∧
  (∀ (s : State) (x : Fin 64) (o : OpenBuf), (s.ring (x + 16)).buf = some o → o.flushUs ≠ 0 → o.barges ≠ 0 →
    o.firstAt + 1000 * o.flushUs ≤ s.ns → exec (.bufferCloseTimer x) s = .next (s.closeBuffer (x + 16) 1)) ∧
  (∀ (s : State) (p : Path) (x : Fin 64) (o : OpenBuf), Writable s p (R.RING_CFG (x + 16)) → (s.ring (x + 16)).buf = some o → o.barges ≠ 0 →
    exec (.ringFlush p x) s = .next (s.closeBuffer (x + 16) 3)) ∧
  (∀ (s : State) (p : Path) (x : Fin 114) (k : Fin 32), Writable s p (ringCfgKey x) →
    (s.on (ringEN x) = false → s.on (ringBUSY x) = false → 4 ≤ k.val → k.val ≤ 16 → isStreamRing x = false →
      exec (.ringEnWrite p x true k) s = .next ((s.put (ringLOG2 x) k).startRing x)) ∧
    (s.on (ringEN x) = true → s.get (ringLOG2 x) = k →
      exec (.ringEnWrite p x false k) s = .next ((s.put (ringEN x) 0).stopRing x))) ∧
  (∀ (s : State) (tail : Word), Writable s .mgmt R.ER1_TAIL →
    (s.on R.ER1_CFG.EN = true → exec (.er1TailWrite tail) s = .next ((s.put R.ER1_TAIL.TAIL tail.toNat).compareTail 113 tail.toNat 0).2) ∧
    (s.on R.ER1_CFG.EN = false → exec (.er1TailWrite tail) s = .next (s.put R.ER1_TAIL.TAIL tail.toNat)))

/-- The commands of the link, configuration space and the ownership token. -/
def Obligations.LinkAndTokenCommandsAct : Prop :=
  (∀ (s u : State) (key size : Nat) (c : Bool), key < 0x3000000 → accessOk key size c = false → s.reaches .pf0 key = true →
    u = (s.setWord R.PCIE_BADACC (BitVec.ofNat 32 (key % 2 ^ 24))).raise 161 0 (key % 2 ^ 24) →
    exec (.barAccessViolation key size c true) s = .next u ∧
    exec (.barAccessViolation key size c false) s = .next ((u.send (.unsupported 0)).logAer 0 20)) ∧
  (∀ (s u : State) (key size : Nat) (c : Bool), 0x3000000 ≤ key → accessOk key size c = false → s.reaches .mgmt key = true →
    u = (s.setWord R.PCIE_BADACC (BitVec.ofNat 32 (key % 2 ^ 24 + 2 ^ 24))).raise 161 1 (key % 2 ^ 24) →
    exec (.barAccessViolation key size c true) s = .next u ∧
    exec (.barAccessViolation key size c false) s = .next ((u.send (.unsupported 1)).logAer 1 20)) ∧
  (∀ (s u w : State) (width rate : Nat) (flit : Bool), s.monitor.tripped = false →
    u = ((((State.put { s with pcie := { s.pcie with linkUp := true } } R.PCIE_LINK.WIDTH width).put R.PCIE_LINK.RATE rate).put
      R.PCIE_LINK.FLIT (b2n flit)).put R.PCIE_LINK.PM 0) →
    w = (if width < s.maxWidth ∨ rate < 6 then (u.put R.PCIE_LINK.DEGRADED 1).raiseInst 160 0 else u) →
    (w.pcie.pmeDue = false → exec (.linkTrained width rate flit) s = .next w.flushVectors) ∧
    (w.pcie.pmeDue = true → exec (.linkTrained width rate flit) s =
      .next (State.flushVectors ((State.send { w with pcie := { w.pcie with pmeDue := false } } (.pme 0))))) ) ∧
  (∀ s : State, exec .hotReset s = .next s.linkDown.abandonRings ∧ s.linkDown.pcie = { msixLast := s.pcie.msixLast, pmeDue := s.pcie.pmeDue } ∧
    s.linkDown.held = [] ∧ s.linkDown.get R.PCIE_LINK.WIDTH = 0) ∧
  (∀ (s : State) (fn : Fin 2) (v : Fin 64), s.pcie.msixPend.contains (fn.val, v.val) = true → s.vecReady fn v = true →
    exec (.vectorModerationEnd fn v) s = .next (s.sendVec fn v)) ∧
  (∀ (s : State) (fn : Fin 2) (c : CfgWrite), s.pcie.linkUp = true → s.fw.ready = true →
    exec (.configSpaceWrite fn c) s = .next (State.flushVectors (State.sendHeld { s with pcie := applyCfg (s.pciIdent fn) fn c s.pcie }))) ∧
  (∀ (s : State) (p : Path), Writable s p R.GLOBAL_OWNER → pathAgent p ≠ 0 →
    (s.get R.GLOBAL_OWNER.HOLDER = 0 → ∃ t, exec (.tokenReq p) s = .next t ∧ t.get R.GLOBAL_OWNER.HOLDER = pathAgent p ∧
      OnlyRegs [R.GLOBAL_OWNER] s t) ∧
    (s.get R.GLOBAL_OWNER.HOLDER = pathAgent p → s.nextHolder = 0 → ∃ t, exec (.tokenRel p) s = .next t ∧
      t.get R.GLOBAL_OWNER.HOLDER = 0 ∧ OnlyRegs [R.GLOBAL_OWNER] s t)) ∧
  (∀ s : State, Writable s .mgmt R.MGMT_TOKEN →
    (s.get R.GLOBAL_OWNER.HOLDER = 0 → ∃ t, exec .mgmtTokenReq s = .next t ∧ t.get R.GLOBAL_OWNER.HOLDER = 2 ∧
      OnlyRegs [R.GLOBAL_OWNER] s t) ∧
    (s.get R.GLOBAL_OWNER.HOLDER = 2 → s.nextHolder = 0 → ∃ t, exec .mgmtTokenRel s = .next t ∧ t.get R.GLOBAL_OWNER.HOLDER = 0 ∧
      OnlyRegs [R.GLOBAL_OWNER] s t) ∧
    exec (.mgmtForce 0x4F57#16) s =
      .next (((s.put R.GLOBAL_OWNER.HOLDER 2).setPend 2 false).raiseInst 164 (s.get R.GLOBAL_OWNER.HOLDER))) ∧
  (∀ (s : State) (w : Word) (off : Bool), Writable s .mgmt R.MGMT_DATA → Writable s .mgmt R.MGMT_MON →
    exec (.mgmtDataRead .mgmt) s =
      .next ((s.readReg .mgmt s.mgmtTarget 0).2.send (.reply .mgmt R.MGMT_DATA (s.readReg .mgmt s.mgmtTarget 0).1)) ∧
    exec (.mgmtDataWrite .mgmt w) s = .next (s.mgmtWrite .mgmt w) ∧ exec (.monOffWrite .mgmt off) s = .next (s.writeMonOff off)) ∧
  (∀ s : State, Writable s .pf0 R.WAKE → exec .wake s = .next s.writeWake) ∧
  (∀ (s : State) (ring index off : Nat) (data : List Byte) (o : Order) (rs : List HostRead), s.order? (ring, index) = some o → s.reading o = true →
    rs = takeRead o.ref data off s.reads →
    exec (.completionReceived ring index off data 0) s = .next (State.readProceeds ((rs.filter (fun r => r.order == o.ref)).foldl
      (fun s r => s.readDone 0 r.addr (gotPrefix 0 r.got)) { s with reads := rs }) o) ∧
    exec (.completionReceived ring index off data 2) s = .next (s.readFails o) ∧
    exec (.poisonedTlpReceived (.completion (.order ring index))) s = .next ((s.logAer 0 aerPoisoned).readFails o) ∧
    (s.pcie.cplTimeoutOff = false → exec (.completionTimeout (.order ring index)) s = .next ((s.logAer 0 aerTimeout).readFails o)))

/-- The commands of the event rings, containments and detector traces. -/
def Obligations.EventAndTraceCommandsAct : Prop :=
  (∀ (s : State) (slot : RingEntry) (t : List RingEntry) (r : EvRec) (rest : List EvRec), s.eventRingRuns 0 = true →
    (s.ring 112).taken = slot :: t → s.nextRecord? 0 = some (r, rest) →
    ∃ u, u = s.updRing 112 (fun g => { g with taken := t }) ∧ exec (.eventRecordWrite 0) s = .next (State.returnEntry
      { u with ev := { u.ev with wait0 := rest, out0 := u.ev.out0 ++ [(r.source, slot.index)] } } 112 slot.index (recordBytes r) true)) ∧
  (∀ (s : State) (slot : RingEntry) (t : List RingEntry) (r : EvRec) (rest : List EvRec), s.eventRingRuns 1 = true →
    (s.ring 113).taken = slot :: t → s.nextRecord? 1 = some (r, rest) →
    ∃ u, u = s.updRing 113 (fun g => { g with taken := t }) ∧ exec (.eventRecordWrite 1) s = .next (State.returnEntry
      { u with ev := { u.ev with wait1 := rest, out1 := u.ev.out1 ++ [(r.source, slot.index)] } } 113 slot.index (recordBytes r) true)) ∧
  (∀ (s : State) (p : Path) (src : Fin 512), Writable s p R.EV_INJECT → evAssigned src = true →
    exec (.evInject p src 0x4556#16) s = .next (s.raise src 0xFFFF (2 ^ 64 - 1))) ∧
  (∀ (s : State) (c : Containment) (rest : List Containment),
    takeFirst (fun c => decide (c.closeAt ≤ s.ns)) s.ev.contain = some (c, rest) →
    (c.count = 0 → exec .containmentClose s = .next (s.setContain rest)) ∧
    (c.count ≠ 0 → exec .containmentClose s = .next ((s.setContain rest).offerRecord (summaryOf c)))) ∧
  (∀ (s : State) (p : Path) (e : Fin 32), Writable s p (R.DET_CTL e) →
    exec (.holdReset p e) s = .next (s.updEngine e (fun x => { x with holdReset := true }))) ∧
  (∀ (s : State) (e : Fin 32) (b : Barge), (s.engine e).waiting = some b → (s.engine e).discards = none → (s.engine e).running = true →
    ∃ n r, n = (SMap.find? (s.plan (b.word40 % 64)).traceSeq (bits b.word40 8 3)).getD 0 ∧
      r = s.admitBarge (s.plan (b.word40 % 64)).traceQ { b with seq := n } ∧
      (r.1.taken = false → exec (.traceQueued e) s = .next r.2) ∧
      (r.1.taken = true → ∃ t, exec (.traceQueued e) s = .next t ∧ t.get (R.DET_STATUS.WAITING e) = 0))

/-- The commands of the reams. -/
def Obligations.ReamCommandsAct : Prop :=
  (∀ (s : State) (m : Fin 8), (s.ream m).dcuts = [] → (s.ream m).cuts = [] → s.on (R.REAM_CFG.EN m) = true → s.nextDecay m ≤ s.time →
    s.reamAccounted m (s.nextDecay m) = true → exec (.decayInstant m) s = .next (s.decayOnce m)) ∧
  (∀ (s : State) (m : Fin 8) (tile : Fin 2048) (l : Fin 18), (SMap.find? (s.ream m).deltas (tile * 32 + l)).isSome = true →
    exec (.tileFlush m tile l false) s = .next (s.flushTile m tile l) ∧
    exec (.tileFlush m tile l true) s = .next ((s.reamUe m tile).flushTile m tile l)) ∧
  (∀ (s : State) (m : Fin 8) (tile : Fin 2048) (cut : Nat), ∃ t, exec (.tileReadRequest m tile cut) s = .next t ∧ t.regs = s.regs ∧
    (t.ream m).copies.map (fun c => (c.tile, c.cut)) = (s.ream m).copies.map (fun c => (c.tile, c.cut)) ++ [(tile.val, cut)] ∧
    (t.ream m).cells = (s.ream m).cells) ∧
  (∀ (s : State) (m : Fin 8) (tile : Fin 2048) (l : Fin 18) (d : Delta), SMap.find? (s.ream m).deltas (tile * 32 + l) = some d →
    d.state = 3 → ∃ t, exec (.snoopReply m tile l) s = .next t ∧
      ((s.ream m).copies.any (fun c => c.tile == tile.val && c.after.contains l.val) = false →
        SMap.find? (t.ream m).deltas (tile * 32 + l) = (if d.hits.isEmpty then none else some { d with state := 1 })) ∧
      ((s.ream m).copies.any (fun c => c.tile == tile.val && c.after.contains l.val) = true →
        SMap.find? (t.ream m).deltas (tile * 32 + l) = some { d with state := 2 })) ∧
  (∀ (s : State) (p : Path) (m : Fin 8), Writable s p (R.REAM_CTL m) →
    exec (.reamCtlClear p m) s = .next (s.newCut m { cut := some s.cutNow, accepted := s.time, clear := true })) ∧
  (∀ (s : State) (m : Fin 8) (c : ReamCut) (t : List ReamCut) (x : Nat), (s.ream m).cuts = c :: t → c.reached = false → c.cut = some x →
    x ≤ s.time → c.order = none → c.snap = true →
    ∃ u, exec (.reamCut m) s = .next u ∧ (u.ream m).cuts = { c with reached := true, base := s.tk.stepCount } :: t ∧ u.get (R.REAM_STATUS.SNAP_BUSY m) = 1 ∧
      OnlyRegs [R.REAM_STATUS m] { s with reams := u.reams } u) ∧
  (∀ (s : State) (m : Fin 8) (bad : List (Fin 2048)) (c : ReamCut) (t : List ReamCut), (s.ream m).cuts = c :: t → c.snap = true →
    c.reached = true → s.reamAccounted m (c.cut.getD 0) = true →
    ∃ u v, u = s.takeImage m c bad ∧ v = u.writeSnap m (((u.ream m).snaps.map (fun c => (stripesOf c.region).length + 1)).sum + 1) ∧
      exec (.snapshotReadBegin m bad) s = .next (v.applyClears m (v.ream m).cuts.length)) ∧
  (∀ (s : State) (p : Path) (m : Fin 8) (w : Word), Writable s p (R.REAM_CFG m) →
    exec (.reamEnable p m w) s = .next (s.writeReamCfg m (w ||| 1#32)))

/-- The timed commands of plans and the commands of the transform lanes. -/
def Obligations.PlanAndLaneCommandsAct : Prop :=
  (∀ (s : State) (ring index : Nat) (o : Order), s.order? (ring, index) = some o → o.opcode = 0x0103 → o.phase = .pending →
    ofTime96 (o.u 20 12) ≤ s.time → 2 ≤ s.planState (o.u 16 1) →
    exec (.planStopDue ring index) s = .next ((s.updOrder o.ref (fun o => { o with phase := .running })).stopPlan (o.u 16 1))) ∧
  (∀ (s : State) (p : Fin 64) (t r : Nat), s.planState p = 2 → (s.plan p).startAt = some t → s.lanesReady? p = some r → t ≤ s.time →
    (s.source (s.plan p).sourceId).active = true →
    (s.planStops p).find? (fun o => o.phase == .pending && o.u 17 1 == 1 && decide (ofTime96 (o.u 20 12) ≤ max t r)) = none →
    exec (.planStartDue p) s = .next (s.planStarts p t r).settlePlans ∧
    ((s.plan p).startRef = none → (s.planStarts p t r).planState p = 3 ∧ ((s.planStarts p t r).plan p).startAt = none ∧
      ((s.planStarts p t r).plan p).nextFrame = 0)) ∧
  (∀ (s : State) (l : Fin 18), s.laneState l = 1 → (s.lane l).readyAt ≤ s.ns → s.unitsBarred = false → s.laneAssigned l = false →
    exec (.laneWakeDone l) s = .next (s.setLane l 2).settleLanes) ∧
  (∀ (s : State) (p : Fin 64) (ce : Fin 65536), s.planState p = 3 → (s.plan p).stopFrame = none →
    (s.plan p).frameFrom (s.source (s.plan p).sourceId).runFirst ≤ (s.plan p).fillNext →
    (s.plan p).frameSample (s.plan p).fillNext + (s.plan p).n ≤ (s.source (s.plan p).sourceId).next →
    s.frameLost p (s.plan p).fillNext = false →
    s.laneState ((s.plan p).lanes.getD ((s.plan p).fillNext % max 1 (s.plan p).lanes.length) 0) = 3 →
    exec (.frameFilled p ce) s = .next ((s.updPlan p (fun pl => { pl with
      fillNext := (s.plan p).fillNext + 1
      inflight := pl.inflight ++ [s.fillFrame pl (s.plan p).fillNext
        ((s.plan p).lanes.getD ((s.plan p).fillNext % max 1 (s.plan p).lanes.length) 0)] })).countCe
        ((s.plan p).lanes.getD ((s.plan p).fillNext % max 1 (s.plan p).lanes.length) 0) ce)) ∧
  (∀ (s : State) (p : Fin 64) (f : Frame) (t : List Frame), (s.plan p).inflight = f :: t → s.planState p = 3 →
    ((transform (s.plan p).m f.h f.data).2 = false →
      exec (.sheetDelivered p) s = .next (s.deliverSheet p f (transform (s.plan p).m f.h f.data).1)) ∧
    ((transform (s.plan p).m f.h f.data).2 = true →
      exec (.sheetDelivered p) s = .next (s.fresh.2.laneFault f.lane 1 (s.fresh.1 % 9)))) ∧
  (∀ (s : State) (l : Fin 18) (cause : Fin 16) (f : Fin 9), s.laneState l ≠ 4 → cause ≠ 2 →
    ∃ a, a = (((((((s.dropTest l).setLane l 4).put (R.LANE_STATUS.CAUSE l) cause).raiseInst 34 l).satInc R.GLOBAL_PROT.ACTIONS).abortDependents
        [uLane l] 2).put (R.LANE_STATUS.PLAN l) 0).put (R.LANE_STATUS.SLOT l) 0 ∧
      (a.livePlans.find? (fun p => (a.plan p).lanes.contains l.val) = none →
        exec (.laneFaultDetected l cause f []) s = .next a.settleLanes) ∧
      (∀ p, a.livePlans.find? (fun p => (a.plan p).lanes.contains l.val) = some p →
        exec (.laneFaultDetected l cause f []) s = .next (a.failover p l cause f).settleLanes)) ∧
  (∀ (s : State) (l k : Fin 18) (cause c : Fin 16) (f : Fin 9), l < k →
    exec (.laneFaultDetected l cause f [(k, c)]) s = .next ((s.laneFault l cause f).laneFault k c f) ∧
    exec (.laneFaultDetected k c f [(l, cause)]) s = .next ((s.laneFault l cause f).laneFault k c f)) ∧
  (∀ (s : State) (p : Path) (l : Fin 18) (f : Fin 9), Writable s p R.LANE_INJECT →
    exec (.laneInject p (l.castLE (by omega)) 0x5A3C#16 f) s = .next (s.laneFault l 6 f)) ∧
  (∀ (s : State) (l : Fin 18) (p : Nat),
    s.livePlans.find? (fun p => (s.plan p).failovers.any (fun x => x.spare == l.val && decide (x.readyAt ≤ s.time))) = some p →
    s.laneState l = 1 → exec (.failoverSpareReady l) s =
      .next (((s.setLane l 3).skipLost p (((s.setLane l 3).plan p).fillNext + 1)).settleStop p)) ∧
  (∀ (s : State) (l : Nat), (s.freeLanes.filter (fun l => (s.lane l).testSince.isNone)).find? (fun l => decide (s.spareTest.2 < l)) = some l →
    s.on R.LANE_CFG.SPARE_TEST_EN = true → s.lkUp 1 = true → s.spareTest.1 + 1000000000 * max 1 s.spareTestPeriod ≤ s.ns →
    exec .spareTest s = .next (State.beginTest
      { s with spareTest := (s.ns, l), spareTestPeriod := s.get R.LANE_CFG.SPARE_TEST_PERIOD } l none)) ∧
  (∀ (s : State) (l : Fin 18) (t : Nat), (s.lane l).testSince = some t → t + 200000 ≤ s.ns → s.lkUp 1 = true → (s.lane l).testRef = none →
    s.laneState l = 5 → (s.lane l).before = 2 →
    exec (.testEnd l 0#64) s =
      .next ((s.updLane l (fun x => { x with testSince := none, testRef := none })).setLane l 2).settleLanes)

/-- The commands that switch the converters. -/
def Obligations.ConverterPowerCommandsAct : Prop :=
  (∀ (s : State) (p : Path) (w : Word), Writable s p R.CONV_REFBUF →
    exec (.convRefbufWrite p w) s = .next (s.writeRefbuf w.toNat)) ∧
  (∀ (s : State) (k : Fin 8) (t : Nat), s.refSince k = some t → t + 5000000 ≤ s.ns →
    exec (.refRdy k) s = .next (s.setWord R.CONV_REFSTAT (BitVec.ofNat 32 (setBit (s.word R.CONV_REFSTAT).toNat (if k.val < 4 then k else k + 4) true)))) ∧
  (∀ (s : State) (p : Path) (n : Fin 4), Writable s p (R.ADC_CTL.ON n).key →
    exec (.adcOn p n) s = .next (s.adcOn n) ∧ exec (.adcOff p n) s = .next (s.adcOff n)) ∧
  (∀ (s : State) (p : Path) (n : Fin 4), Writable s p (R.DAC_CTL.ON n).key →
    exec (.dacOn p n) s = .next (s.dacOn n) ∧ exec (.dacOff p n) s = .next (s.dacOff n)) ∧
  (∀ (s : State) (k : Fin 8) (t : Nat), s.refSince k = some t → t + 5040000 ≤ s.ns → s.convertersBarred = false → k.val < 4 →
    s.adcState k = 1 → (s.adc k).onSince + 40000 ≤ s.ns → (s.adc k).failed = false →
    exec (.converterWakeDone k) s = .next ((s.put (R.ADC_STATUS.STATE k) 2).calDecision k)) ∧
  (∀ (s : State) (k : Fin 8) (t : Nat), s.refSince k = some t → t + 5040000 ≤ s.ns → s.convertersBarred = false → 4 ≤ k.val →
    s.dacState (k - 4) = 1 → (s.dac (k - 4)).onSince + 40000 ≤ s.ns →
    exec (.converterWakeDone k) s = .next ((s.put (R.DAC_STATUS.STATE (k - 4)) 2).put (R.DAC_STATUS.IDLE_OUT (k - 4)) 1)) ∧
  (∀ (s : State) (n : Fin 4) (v : Nat), (s.adc n).fsPending = some v → (s.adc n).count % 64 = 0 →
    exec (.fsChange n) s = .next ((s.updAdc n (fun a => { a with fsAdj := v, fsPending := none })).calMark n 1 0x1F 0x1F 1 1 0 true))

/-- The commands that run and synchronize the converters. -/
def Obligations.ConverterRunCommandsAct : Prop :=
  (∀ (s : State) (p : Path) (n : Fin 4) (w : Word), Writable s p (R.ADC_START n) →
    exec (.adcArm p n w) s = .next (s.writeAdcStart n (setBit (setBit w.toNat 16 true) 17 false)) ∧
    exec (.adcDisarm p n w) s = .next (s.writeAdcStart n (setBit w.toNat 17 true))) ∧
  (∀ (s : State) (n : Fin 4), (s.adc n).src = 0 → s.adcState n = 3 → s.spllLocked n = true →
    ∃ t, exec (.startInstant n) s = .next t ∧ t.adcState n = 4 ∧ (t.adc n).first = some ((s.adc n).count + (s.adc n).delay)) ∧
  (∀ (s : State) (n : Fin 4) (x : Int),
    exec (.convertedSample n x) s = .next (s.convert n x)) ∧
  (∀ (s : State) (n : Fin 4) (x : Int), s.adcState n = 4 → (s.adc n).first = some (s.adc n).count →
    exec (.firstAcquiredSample n x) s = .next (s.convert n x)) ∧
  (∀ (s : State) (n : Fin 4) (e : Nat), (s.adc n).stopAt = some e → s.adcState n = 4 → e ≤ (s.adc n).count →
    (s.adc n).offAfter = false →
    exec (.granuleStop n) s = .next ((((s.endStreams n e).put (R.ADC_STATUS.LAST n) 3).put (R.ADC_STATUS.STATE n) 2).clearArm n)) ∧
  (∀ (s : State) (p : Path), Writable s p R.CONV_SYNC →
    exec (.commandSync p) s = .next s.commandSync) ∧
  (∀ (s : State), s.get R.KX_CFG.SYNC_OUT ≠ 1 → s.on R.CONV_SYNC.SRC = false →
    exec .syncEdge s = .next s.sync) ∧
  (∀ (s : State) (r : SyncRun) (sub : Fin 2621440), s.syncRun = some r → r.since + nsUnits 80 ≤ s.tk.adv / 1024 + sub →
    exec (.syncReferenceEdge sub) s =
      .next ((((s.recordSync (s.time + sub)).restartCounters (s.time + sub)).restartDecimators).restartGrids.startOnSync (s.time + sub)))

/-- The commands of the calibration and of housekeeping. -/
def Obligations.CalibrationCommandsAct : Prop :=
  (∀ (s : State) (p : Path) (mask : BitVec 4), Writable s p R.CAL_CTL →
    exec (.fgStart p mask) s = .next ((List.range 4).foldl (fun s n => if mask.getLsbD n then s.fgStart n else s) s) ∧
    exec (.save p) s = .next s.save) ∧
  (∀ (s : State) (n : Fin 4) (ms : List Measure) (t : Nat), (s.cal n).fgSince = some t → t + 200000000 ≤ s.ns →
    ((s.foregroundResult n ms).adcState n < 2 → exec (.foregroundCalEnd n ms) s = .next (s.foregroundResult n ms).resumeSave) ∧
    (2 ≤ (s.foregroundResult n ms).adcState n → (s.foregroundResult n ms).get (R.CAL_STATUS.BG_STATE n) = 0 →
      exec (.foregroundCalEnd n ms) s = .next ((s.foregroundResult n ms).startBackground n).resumeSave)) ∧
  (∀ (s : State) (n : Fin 4) (t : Nat), (s.cal n).loadSince = some t → t + 50000 ≤ s.ns →
    exec (.storedTrimsLoaded n) s = .next (State.startBackground (((s.updCal n (fun c => { c with loadSince := none })).put
    (R.CAL_STATUS.FG_STATE n) 3).put (R.CAL_STATUS.READY n) 1) n)) ∧
  (∀ (s : State) (n : Fin 4) (ms : List Measure) (t : Nat), (s.cal n).dwellSince = some t → t + 62500000 ≤ s.ns →
    s.lkUp 1 = true → (s.dwellResult n ms).get (R.CAL_STATUS.BG_STATE n) = 1 → ((s.dwellResult n ms).cal n).fgWaits = false →
    bit ((s.dwellResult n ms).get R.CAL_CTL.BG_EN) n = true →
    exec (.dwellEnd n ms) s = .next ((s.dwellResult n ms).nextDwell n)) ∧
  (∀ (s : State) (n : Fin 4) (ms : List Measure) (t : Nat), (s.cal n).windowSince = some t → t + 4000000000 ≤ s.ns →
    exec (.degradedWindowEnd n false ms) s = .next (s.updCal n (fun c => { c with windowSince := some s.ns })) ∧
    ∃ u, u = s.updCal n (fun c => { c with windowSince := some s.ns }) ∧
      (u.failing n (ms.filter (fun m => m.code.val < 18)) = [] → acceptedTrims (ms.filter (fun m => m.code.val < 18)) ≠ [] →
        exec (.degradedWindowEnd n true ms) s = .next (u.updCal n (fun c => { c with
          target := (acceptedTrims (ms.filter (fun m => m.code.val < 18))).foldl (fun m x => SMap.put m x.1 x.2) c.target, cause := 4 })))) ∧
  (∀ (s : State) (n : Fin 4), s.lkUp 1 = true →
    exec (.calibrationStep n) s = .next (s.calStep n)) ∧
  (∀ (s : State), s.on (R.CAL_STATUS.SAVE_BUSY 0) = true → s.lkUp 1 = true →
    ∃ (i : Nat) (c : CalCopy), c.seq = max ((SMap.find? s.calCopies 0).getD {}).seq ((SMap.find? s.calCopies 1).getD {}).seq + 1 ∧
      exec .saveDone s = .next { s.put (R.CAL_STATUS.SAVE_BUSY 0) 0 with calCopies := SMap.put s.calCopies i c }) ∧
  (∀ (s : State) (m : Fin 4) (v : BitVec 16) (raw : BitVec 12) (ch : Nat) (rest : List Nat), m.val = 0 →
    (s.hkSeq m).running = ch :: rest → (s.hkSeq m).nextAt ≤ s.ns → unusedChannel ch = false →
    exec (.hkConversion m v raw) s = .next ((s.updHkSeq m (fun q => { q with running := rest, nextAt := q.nextAt + 1000 })).hkResult m ch v.toNat raw.toNat)) ∧
  (∀ (s : State) (m : Fin 4) (v : BitVec 16) (raw : BitVec 12) (ch : Nat), m.val ≠ 0 → (s.hkSeq m).running = [ch] →
    (s.hkSeq m).nextAt ≤ s.ns → unusedChannel ch = false →
    exec (.hkConversion m v raw) s = .next ((State.inc (s.updHkSeq m (fun q => { q with running := [], nextAt := q.nextAt + 1000 }))
      (R.HK_SEQ_STAT.DONE (m - 1))).hkResult m ch v.toNat raw.toNat)) ∧
  (∀ (s : State) (m : Fin 4), (s.hkSeq m).pendingStart = true → s.hkBlocked m = false →
    exec (.hkSequenceStart m) s = .next (s.hkBegin m)) ∧
  (∀ (s : State) (u : State), (s.hkSeq 0).pendingStart = false → s.fw.ready = true → s.hkDue? 0 = some u →
    exec (.hkSequenceStart 0) s = .next (u.hkStart 0)) ∧
  (∀ (s : State) (p : Path) (m : Fin 3), Writable s p (R.HK_SEQ_CTL m) →
    exec (.hkGo p m) s = .next (s.hkGo (m + 1))) ∧
  (∀ (s : State) (i : Fin 4), s.on (R.HK_PWM.EN i) = true →
    (SMap.find? s.pwms i.val = none → exec (.pwmPeriodStart i) s = .next (s.pwmPeriod i s.ns (max 2 (s.get (R.HK_PWM.PERIOD i))) (s.get (R.HK_PWM.HIGH i)) false)) ∧
    (∀ x, SMap.find? s.pwms i.val = some x → x.since + 40 * x.period ≤ s.ns → x.wroteAt < x.since + 40 * x.period →
      exec (.pwmPeriodStart i) s = .next (s.pwmPeriod i (x.since + 40 * x.period) (max 2 (s.get (R.HK_PWM.PERIOD i))) (s.get (R.HK_PWM.HIGH i))
        (decide (x.period ≤ x.high))))) ∧
  (∀ (s : State) (pre : Bool) (ch : Nat) (u : State), s.monitor.emergDue = some ch →
    u = State.satInc (State.put { s with monitor := { s.monitor with emergDue := none } } R.GLOBAL_PROT.EMERG 1) R.GLOBAL_PROT.ACTIONS →

    exec (.thermalEmergency pre) s = .next ((u.raise 420 ch (protInfo ch pre)).forceAll 0)) ∧
  (∀ (s : State) (pre : Bool) (ch : Nat) (u : State), s.monitor.supplyDue = some ch →
    u = (State.satInc (State.put (State.put { s with monitor := { s.monitor with supplyDue := none } } R.GLOBAL_PROT.SUPPLY 1) R.GLOBAL_PROT.RAIL ch) R.GLOBAL_PROT.ACTIONS).raise 421 ch (protInfo ch pre) →

    (ch = 21 ∨ ch = 22 → exec (.supplyFault pre) s = .next (u.forceConverters 1)) ∧
    (ch = 16 ∨ ch = 18 ∨ ch = 19 ∨ ch = 20 → exec (.supplyFault pre) s = .next (u.forceAll 1)) ∧
    (ch ∉ [16, 18, 19, 20, 21, 22] → exec (.supplyFault pre) s = .next u)) ∧
  (∀ (s : State) (p : Path), Writable s p R.GLOBAL_PROT →
    exec (.emergClear p) s = .next s.emergClear ∧ exec (.supplyClear p) s = .next s.supplyClear)

/-- The commands of the down-converters. -/
def Obligations.DownConverterCommandsAct : Prop :=
  (∀ (s : State) (d : Fin 8) (r : Retune), (s.listStopped d).retuneDue? d = some r → ((s.listStopped d).ddc d).listStep = none →
    ∃ u, u = s.listStopped d ∧ exec (.retuneBoundary d) s = .next ((((u.retuneMark d (u.ddcCount d) r).tune d (u.ddcCount d) r).inc
      (R.DDC_STATUS.RT_COUNT d)).commandRetuned d (u.ddcCount d) r)) ∧
  (∀ (s : State) (p : Path) (d : Fin 8), Writable s p (R.DDC_RETUNE d) →
    exec (.retuneGo p d) s = .next (s.retuneGo d) ∧ exec (.retuneCancel p d) s = .next (s.retuneCancel d)) ∧
  (∀ (s : State) (d : Fin 8), s.on (R.DDC_STATUS.LIST_RUN d) = true → s.on (R.DDC_CTL.LIST_EN d) = true →
    (s.ddc d).listStep = none → s.on (R.DDC_LISTCFG.ADV d) = false →
    (s.ddc d).listAt + (max 1 (s.get (R.DDC_LISTCFG.DWELL d)) * 64 * 2 ^ s.ddcK d : Nat) ≤ s.ddcCount d →
    (s.get (R.DDC_STATUS.LIST_POS d) ≠ s.get (R.DDC_LISTCFG.LAST d) → exec (.listAdvance d) s =
      .next ((s.updDdc d (fun x => { x with listGates := x.listGates.drop 1 })).updDdc d
        (fun x => { x with listStep := some ((s.get (R.DDC_STATUS.LIST_POS d) + 1) % 64, none) }))) ∧
    (s.get (R.DDC_STATUS.LIST_POS d) = s.get (R.DDC_LISTCFG.LAST d) → s.on (R.DDC_LISTCFG.LOOP d) = true →
      exec (.listAdvance d) s = .next ((s.updDdc d (fun x => { x with listGates := x.listGates.drop 1 })).updDdc d
        (fun x => { x with listStep := some (0, none) })))) ∧
  (∀ (s : State) (p : Path) (d : Fin 8) (w : Word), Writable s p (R.DDC_CTL d) →
    exec (.ddcCtlWrite p d w) s = .next (s.writeDdcCtl d w.toNat)) ∧
  (∀ (s : State) (p : Fin 8), s.on (R.PLT_CTL.EN p) = true → (s.source (ddcId (s.get (R.PLT_CTL.DDC p)))).active = false →
    exec (.pltEvaluation p) s = .next ((s.pltRestart p).pltSet p false
      (s.sampleStamp (ddcId (s.get (R.PLT_CTL.DDC p)))
        ((s.source (ddcId (s.get (R.PLT_CTL.DDC p)))).next - 1)) (s.qual 0))) ∧
  (∀ (s : State) (p : Fin 8) (d m : Nat), s.on (R.PLT_CTL.EN p) = true → d = s.get (R.PLT_CTL.DDC p) →
    (s.source (ddcId d)).active = true → m = (s.source (ddcId d)).next - 1 → m * 2 ^ s.ddcK d % 16 = 0 →
    (s.plt p).evalAt ≠ some m → s.pltSize p ≤ (s.plt p).window.length → (s.plt p).held = false →
    ∃ l u, l = toDb16 ((s.plt p).window.foldl (· + ·) 0) (s.pltSize p * 2 ^ 38) ∧
      u = (s.updPlt p (fun x => { x with evalAt := some m })).put (R.PLT_POWER.LEVEL p) (db16Word l) ∧
      exec (.pltEvaluation p) s = .next (u.pltSet p (pltCond (u.get (R.PLT_CTL.MODE p)) (sext 16 (u.get (R.PLT_THRESH.LO p)))
        (sext 16 (u.get (R.PLT_THRESH.HI p))) (16 * u.get (R.PLT_CTL.HYST p)) l (u.on (R.PLT_STATUS.COND p)))
        ((s.updPlt p (fun x => { x with evalAt := some m })).sampleStamp (ddcId d) m)
        ((s.updPlt p (fun x => { x with evalAt := some m })).spanQual (ddcId d) m (m + 1)))) ∧
  (∀ (s : State) (d : Fin 8) (m : Nat), s.ddcNext? d = some m →
    (((s.ddcRelease d m).source (ddcId d)).endAt = none → exec (.ddcOutputSample d) s = .next (s.ddcRelease d m)) ∧
    (∀ c u, ((s.ddcRelease d m).source (ddcId d)).endAt = some (m + 1, c, u) →
      ∃ v, v = ((s.ddcRelease d m).updSource (ddcId d) (fun o => { o with endAt := none })).put (R.DDC_STATUS.ACTIVE d) 0 ∧
        exec (.ddcOutputSample d) s = .next ((v.stopSource (ddcId d) c u (v.sampleStamp (ddcId d) (m + 1)) (v.qual 0)).settleStops (ddcId d))))

/-- The commands of the memory channels. -/
def Obligations.MemoryChannelCommandsAct : Prop :=
  (∀ (s : State) (b : MemBoard), s.trainDue = true →
    exec (.trainingStart none b) s = .next (s.beginTraining b)) ∧
  (∀ (s : State) (p : Path) (b : MemBoard), Writable s p R.MEM_CTL →
    exec (.trainingStart (some p) b) s = .next (s.beginTraining b)) ∧
  (∀ (s : State) (c : Fin 6) (k : Fin 10), s.chState c = 1 →
    (s.geomOk c = true → exec (.trainingDone c true k) s = .next ((s.beginInit c).put R.MEM_INFO.SPEED s.memSpeed)) ∧
    ((s.channel c).trainFails = 0 →
      exec (.trainingDone c false k) s = .next (s.updChannel c (fun x => { x with trainFails := 1, trainSince := some s.ns }))) ∧
    ((s.channel c).trainFails ≠ 0 → s.geomOk c = true → ∃ u, u = (s.put (R.MEM_CH_STATUS.STATE c) 5).put (R.MEM_CH_STATUS.TRAIN_STEP c) k ∧
      exec (.trainingDone c false k) s = .next ((u.updChannel c (fun x => { x with trainSince := none })).raiseInst 128 c))) ∧
  (∀ (s : State) (c : Fin 6), s.chState c = 2 → s.channelBytes c ≤ s.initBytes c →
    exec (.initDone c) s = .next ((((s.put (R.MEM_CH_STATUS.STATE c) 3).put (R.MEM_CH_STATUS.INIT_PCT c) 100).updChannel c
      (fun x => { x with scrubLine := 0, cePass := 0 })).settleGib)) ∧
  (∀ (s : State) (c : Fin 6) (bank : Fin 128) (n : Int), s.chLive c = true →
    n = (SMap.find? (s.channel c).refresh bank.val).getD 0 →
    (SMap.find? (s.channel c).refreshAt bank.val).getD 0 + (s.channel c).interval ≤ s.ns →
    exec (.refreshDue c bank true) s = .next (s.updChannel c (fun x => { x with
      refreshAt := SMap.put x.refreshAt bank.val s.ns, refresh := SMap.put x.refresh bank.val (min 4 (n + 1)) })) ∧
    exec (.refreshDue c bank false) s = .next (s.updChannel c (fun x => { x with
      refreshAt := SMap.put x.refreshAt bank.val s.ns, refresh := SMap.put x.refresh bank.val (-4) }))) ∧
  (∀ (s : State) (c : Fin 6), s.chLive c = true → (s.channel c).mr4At + 16000000 ≤ s.ns →
    ((s.channel c).hotRaised = false → exec (.mr4Read c true) s = .next (((s.put (R.MEM_CH_STATUS.HOT c) 1).updChannel c
      (fun x => { x with interval := 1950, hotRaised := true, mr4At := s.ns })).raiseInst 129 c)) ∧
    ((s.channel c).hotRaised = true → exec (.mr4Read c true) s = .next ((s.put (R.MEM_CH_STATUS.HOT c) 1).updChannel c
      (fun x => { x with interval := 1950, hotRaised := true, mr4At := s.ns }))) ∧
    exec (.mr4Read c false) s = .next ((s.put (R.MEM_CH_STATUS.HOT c) 0).updChannel c
      (fun x => { x with interval := 3900, hotRaised := x.hotRaised || false, mr4At := s.ns }))) ∧
  (∀ (s : State) (c : Fin 6),
    exec (.channelFence c 3) s = .next (s.fenceChannel c 3) ∧
    (3 ≤ s.get (R.MEM_CH_PAR.REPLAY_FAIL c) → exec (.channelFence c 1) s = .next (s.fenceChannel c 1)) ∧
    (s.get R.MEM_CTL.UE_FENCE ≠ 0 → s.on R.MEM_INFO.TYPE = false →
      s.get R.MEM_CTL.UE_FENCE < ((s.channel c).ues.filter (fun t => s.ns < t + 1000000000)).length →
      exec (.channelFence c 2) s = .next (s.fenceChannel c 2))) ∧
  (∀ (s : State) (p : Path) (ch : Fin 8) (key : BitVec 16), Writable s p R.MEM_FENCE →
    exec (.memFence p ch key) s = .next (s.writeMemFence ch key.toNat)) ∧
  (∀ (s : State) (c : Fin 6), s.chLive c = true →
    exec (.periodicCalibration c true) s = .next (s.fenceChannel c 3) ∧ exec (.periodicCalibration c false) s = .next s) ∧
  (∀ (s : State) (c : Fin 6), s.chLive c = true → s.on R.MEM_INFO.TYPE = true →
    exec (.alertN c) s = .next (((s.satInc (R.MEM_CH_PAR.ALERTS c)).raiseInst 130 c).updChannel c (fun x => { x with replay := true, alertSeen := x.replay }))) ∧
  (∀ (s : State) (c : Fin 6), (s.channel c).replay = true → (s.channel c).alertSeen = false →
    exec (.replayDone c) s = .next ((s.put (R.MEM_CH_PAR.REPLAY_FAIL c) 0).updChannel c (fun x => { x with replay := false }))) ∧
  (∀ (s : State) (c : Fin 6), (s.channel c).replay = true → (s.channel c).alertSeen = true →
    s.get (R.MEM_CH_PAR.REPLAY_FAIL c) = 2 →
    ∃ u, u = (s.put (R.MEM_CH_PAR.REPLAY_FAIL c) 3).updChannel c (fun x => { x with alertSeen := false }) ∧ exec (.replayDone c) s = .next (u.fenceChannel c 1)) ∧
  (∀ (s : State) (c : Fin 6) (use : LineUse), s.chState c = 3 → s.on R.MEM_CTL.SCRUB_EN = true →
    (s.channel c).scrubLine + 1 < s.channelBytes c / 64 →
    exec (.scrubLine c .clean use) s = .next (State.updChannel (s.put (R.MEM_CH_SCRUB.POS_PCT c)
      (((s.channel c).scrubLine + 1) * 100 / max 1 (s.channelBytes c / 64))) c (fun x => { x with scrubLine := (s.channel c).scrubLine + 1 })))

/-- The commands of the pounds. -/
def Obligations.PoundCommandsAct : Prop :=
  (∀ (s : State) (p : Path) (n : Fin 64) (w : Word), Writable s p (R.POUND_CFG n) →
    exec (.poundEnable p n w) s = .next (s.writePoundCfg n w)) ∧
  (∀ (s : State) (p : Path) (n : Fin 64) (on : Bool), Writable s p (R.POUND_CFG.FREEZE n).key →
    exec (.poundFreeze p n on) s = .next (s.freezePound n on)) ∧
  (∀ (s : State) (n : Fin 64), s.poundState n = 1 → s.extentInit n = true →
    exec (.initPassedExtent n) s = .next (s.poundActive n)) ∧
  (∀ (s : State) (n : Fin 64) (b : Barge) (e : Nat) (t : List (Barge × Nat)), (s.pound n).ready = (b, e) :: t →
    s.poundState n = 2 → s.poundStalled n = false →
    (b.isMark = true → (s.updPound n (fun d => { d with ready := t })).markWaits n b t = false →
      exec (.bargeCommit n) s = .next ((s.updPound n (fun d => { d with ready := t })).appendRecord n b e)) ∧
    (b.isMark = true → (s.updPound n (fun d => { d with ready := t })).markWaits n b t = true → exec (.bargeCommit n) s =
      .next ((s.updPound n (fun d => { d with ready := t })).updPound n (fun d => { d with behind := d.behind ++ [b] }))) ∧
    (b.isMark = false → exec (.bargeCommit n) s = .next ((s.updPound n (fun d => { d with ready := t })).commitData n b e))) ∧
  (∀ (s : State) (n : Fin 64) (e : Nat), s.poundOn n = true → s.poundState n ≠ 4 →
    (s.poundLive n).length ≠ (s.poundChannels n).length → e = s.poundBlocks n * (s.poundLive n).length →
    e ≠ s.get (R.POUND_EFF.SIZE_EFF n) →
    ∃ u, u = s.put (R.POUND_EFF.SIZE_EFF n) e ∧
      (u.on (R.POUND_CFG.KIND n) = true → exec (.poundRelay n) s = .next (u.failPound n)) ∧
      (u.on (R.POUND_CFG.KIND n) = false → s.poundLive n ≠ [] → exec (.poundRelay n) s =
        .next (u.relayPound n (((s.poundChannels n).filter (fun c => s.chState c == 4)).getLastD 0)))) ∧
  (∀ (s : State) (n : Fin 64) (d : Fin 4) (m : Barge) (t : List Barge), s.poundState n = 2 → (s.drain n d).on = true →
    (s.drain n d).first = m :: t → s.poundStalled n = false → fencePending m = false →
    ∃ r, r = s.admitBarge (s.get (R.POUND_DRAIN.Q n d)) m ∧
      (r.1.taken = true → exec (.drainRead n d []) s = .next (r.2.updDrain n d (fun x => { x with first := t }))) ∧
      (r.1.taken = false → exec (.drainRead n d []) s = .next r.2)) ∧
  (∀ (s : State) (n : Fin 64) (d : Fin 4) (b : PBarge), s.poundState n = 2 → (s.drain n d).on = true → (s.drain n d).first = [] →
    s.poundStalled n = false → (s.pound n).barges.find? (fun b => (s.drain n d).next ≤ b.number) = some b →
    (b.hdr0 && b.hdr1) = false →
    ∃ r, r = s.admitBarge (s.get (R.POUND_DRAIN.Q n d)) (readRecord n b).1 ∧
      (r.1.taken = true → exec (.drainRead n d []) s =
        .next (r.2.updDrain n d (fun y => { y with next := b.number + 1, first := (readRecord n b).2 }))) ∧
      (r.1.taken = false → exec (.drainRead n d []) s = .next r.2)) ∧
  (∀ (s : State), (s.captures.filter (fun c => c.accepted)).length < 96 → s.captures.any (fun c => !c.accepted) = true →
    ∃ t, exec .captureAccepted s = .next t ∧ t.captureCount = s.captureCount + 1 ∧ t.regs = s.regs ∧ t.pounds = s.pounds) ∧
  (∀ (s : State) (num : Nat) (errs : List LineErr) (ot : Bool) (c : Capture), s.served.find? (fun c => c.number == num) = some c →
    s.qstate c.queue ≠ qActive →
    exec (.captureBargeRead num errs ot) s = .next (s.endCapture c stPartial)) ∧
  (∀ (s : State) (num : Nat) (c : Capture) (m : Barge) (t : List Barge), s.served.find? (fun c => c.number == num) = some c →
    s.qstate c.queue = qActive → s.poundStalled c.pound = false → c.first = m :: t →
    exec (.captureBargeRead num [] false) s = .next (s.captureFirst c m t)) ∧
  (∀ (s : State) (num : Nat) (c : Capture) (x : PBarge), s.served.find? (fun c => c.number == num) = some c →
    s.qstate c.queue = qActive → s.poundStalled c.pound = false → c.first = [] → s.captureNext c = .record x →
    ((s.pound c.pound).barges.find? (fun b => b.number == x.number)).getD x = x → (x.hdr0 && x.hdr1) = false →
    (c.stop ≤ x.barge.stamp → exec (.captureBargeRead num [] false) s = .next (s.captureOver num)) ∧
    (x.barge.stamp < c.stop → x.barge.isMark = false → exec (.captureBargeRead num [] false) s = .next (s.captureData c x)) ∧
    (x.barge.stamp < c.stop → x.barge.isMark = true → exec (.captureBargeRead num [] false) s = .next (s.captureMark c x)))

/-- The commands of the movers and generators. -/
def Obligations.MoveAndStimulusCommandsAct : Prop :=
  (∀ (s : State) (c : Fin 32) (e : RingEntry) (t : List RingEntry), (s.ring (80 + c)).move = none →
    s.on (ringEN (80 + c)) = true → s.upstream (80 + c) = true → (s.ring (80 + c)).taken = e :: t →
    ∃ u, u = s.updRing (80 + c) (fun g => { g with taken := t }) ∧
      (u.moveBad e = true → exec (.moveStart c []) s = .next (u.returnMove (80 + c) e stBadParam 0 0)) ∧
      (u.moveBad e = false → (e.space = 2 ∨ u.poundStalled e.devIndex = false) → e.toHost = true →
        exec (.moveStart c []) s = .next (u.updRing (80 + c) (fun g => { g with move := some { entry := e } }))) ∧
      (u.moveBad e = false → (e.space = 2 ∨ u.poundStalled e.devIndex = false) → e.toHost = false → e.paced = false →
        exec (.moveStart c []) s = .next ((u.updRing (80 + c) (fun g => { g with move := some { entry := e } })).moveRead e 0 e.len)) ∧
      (u.moveBad e = false → (e.space = 2 ∨ u.poundStalled e.devIndex = false) → e.toHost = false → e.paced = true →
        exec (.moveStart c []) s = .next (u.updRing (80 + c) (fun g => { g with move := some { entry := e } })))) ∧
  (∀ (s : State) (l : Fin 64) (data : List Byte) (x : Nat) (m : MoveRun), 8 ≤ l.val → s.pacedChannel l = some (x, m) →
    0 < (SMap.find? s.lineReqs l.val).getD 0 → s.upstream x = true → s.moveTarget m.entry = true → s.moveTurn (x - 80) m = true →
    ∃ u, u = { s with lineReqs := SMap.put s.lineReqs l.val ((SMap.find? s.lineReqs l.val).getD 0 - 1) } ∧
      exec (.pacedRequest l data) s = .next (u.moveExtent x m data (min m.entry.burst (m.entry.len - m.done)))) ∧
  (∀ (s : State) (c : Fin 32) (data : List Byte) (n : Nat) (m : MoveRun), (s.ring (80 + c)).move = some m →
    m.entry.paced = true →
    (s.moveTarget m.entry = false → exec (.moveDone c data n 0) s = .next (s.endMove (80 + c) m stBad 4)) ∧
    (s.moveTarget m.entry = true → exec (.moveDone c data n 1) s = .next (s.endMove (80 + c) m stBad 1)) ∧
    (s.moveTarget m.entry = true → m.entry.len ≤ m.done → m.cancelling = false → m.entry.toHost = true → m.bad = [] →
      exec (.moveDone c data n 0) s = .next (s.endMove (80 + c) m stOk 0))) ∧
  (∀ (s : State) (g : Fin 8), s.sgState g = 4 → s.sgBall g (s.sg g).nextCount ≤ s.time + commitLead + nsUnits 40 →
    s.waitsFor g = none →
    exec (.granuleCommit g false []) s = .next (s.commitIdle g false)) ∧
  (∀ (s : State) (p : Path) (g : Fin 8), Writable s p (R.SG_CTL g) →
    exec (.sgRelease p g) s = .next (s.release g 3 none) ∧ exec (.sgStopWrite p g) s = .next (s.sgStop g 2)) ∧
  (∀ (s : State) (p : Path) (g : Fin 8) (en : Bool), Writable s p (R.SG_CFG.EN g).key →
    exec (.sgEnWrite p g en) s = .next (s.sgEnable g en)) ∧
  (∀ (s : State) (trims : List (Fin 512 × Fin 64 × Int)) (o : Order) (t : List Order), s.skewOrders = o :: t →
    o.phase ≠ .pending → o.aux + 2000000 * ((List.range 4).filter (fun g => bit (o.u 16 1) g)).length ≤ s.ns →
    exec (.skewCalDone trims false) s = .next (s.retire o 0x28).startSkew ∧
    ∃ u, u = ((List.range 4).filter (fun g => bit (o.u 16 1) g)).foldl (fun s g =>
        (s.put (R.SG_SKEW.FINE g) (trims.getD g (0, 0, 0)).1.val).put (R.SG_SKEW.COARSE g) (trims.getD g (0, 0, 0)).2.1.val) s ∧
      exec (.skewCalDone trims true) s = .next (u.retireWith o stOk 0
        [(20, (List.range 4).flatMap (fun g => leBytes 2 (wrap 16 (trims.getD g (0, 0, 0)).2.2)))]).startSkew)

/-- The commands of the timekeeper. -/
def Obligations.TimekeeperCommandsAct : Prop :=
  (∀ (s : State), s.tk.newInc = none →
    exec .timekeeperTick s = .next (State.watchPower
      { s with ticks := s.ticks + 1, tk := { s.tk with raw := s.tk.raw + s.tk.inc, adv := s.tk.adv + s.tk.inc, newInc := none } })) ∧
  (∀ (s : State) (p : Path) (w : Word), Writable s p R.TIME_INC →
    exec (.timeIncWrite p w) s = .next (s.writeInc w.toNat)) ∧
  (∀ (s : State) (p : Path) (k : Bool), Writable s p R.TIME_SERVO →
    exec (.timeServoWrite p k) s = .next (s.writeServo k)) ∧
  (∀ (s : State), s.tkState = tkLocked → s.tk.servoAt + s.holdTmo ≤ s.adv →
    exec .holdTimeout s = .next (s.put R.TIME_STATUS.STATE tkHoldover).masterLost) ∧
  (∀ (s : State) (p : Path) (w : Word), Writable s p R.TIME_CFG →
    exec (.timeModeWrite p w) s = .next (s.writeTimeCfg w)) ∧
  (∀ (s : State) (t : Nat), s.kx.lostSince = some t → s.follows = true → s.tkState = tkFollowing → t + 100000 ≤ s.adv →
    exec .followLostTimeout s = .next (s.put R.TIME_STATUS.STATE tkFollowLost).masterLost) ∧
  (∀ (s : State) (p : Path) (g : Fin 32) (w : Word), Writable s p (R.TG_CTL g) →
    exec (.tgEnable p g w) s = .next (s.writeTgCtl g w)) ∧
  (∀ (s : State) (g : Fin 32) (d : Int), s.on (R.TG_CTL.EN g) = true → (s.gateRun g).announced = none →
    s.tgHas g (s.gateRun g).next = true → s.tgAhead g = some d → d ≤ nsUnits 1000 →
    exec (.gateAnnounce g) s = .next ((s.updGate g (fun x => { x with
      next := (s.gateRun g).next + 1, announced := some (s.tgTime g (s.gateRun g).next), final := !s.tgHas g ((s.gateRun g).next + 1), woken := false })).sgGateStart g
      (s.tgTime g (s.gateRun g).next))) ∧
  (∀ (s : State) (g : Fin 32) (t : Nat), s.firingNow g = some t → (s.gateRun g).announced = some t →
    exec (.gateFiring g) s = .next ((s.gateActs g t).tgFired g)) ∧
  (∀ (s : State) (g : Fin 32) (t : Nat), s.on (R.TG_CTL.WAKE g) = true → (s.gateRun g).announced = some t →
    (s.gateRun g).woken = false →
    exec (.gateWake g) s = .next ((s.updGate g (fun x => { x with woken := true })).wakeCause 4)) ∧
  (∀ (s : State) (x : OrderRef × Int × Nat) (rest : List (OrderRef × Int × Nat)), takeFirst (fun (x : OrderRef × Int × Nat) => decide (x.2.2 ≤ s.ticks)) s.tk.steps = some (x, rest) →

    ∃ u, u = ({ s with tk := { s.tk with steps := rest } }.applyStep x.2.1) ∧ (u.order? x.1 = none → exec .stepTick s =
      .next (u.retireRef x.1 stOk [(32, leBytes 8 (wrap 64 x.2.1)), (40, time96Bytes u.time)])) ∧
      (∀ o, u.order? x.1 = some o → o.u 16 1 = 0 → exec .stepTick s =
        .next (u.retireRef x.1 stOk [(32, leBytes 8 (wrap 64 x.2.1)), (40, time96Bytes u.time)])) ∧
      (∀ o, u.order? x.1 = some o → o.u 16 1 = 1 → u.tkState = tkUnset → ∃ v, v = u.put R.TIME_STATUS.STATE tkFree ∧ exec .stepTick s =
        .next (v.retireRef x.1 stOk [(32, leBytes 8 (wrap 64 x.2.1)), (40, time96Bytes v.time)]))) ∧
  (∀ (s : State) (x : Nat × Int) (rest : List (Nat × Int)), s.follows = true →
    takeFirst (fun (x : OrderRef × Int × Nat) => decide (x.2.2 ≤ s.ticks)) s.tk.steps = none →
    takeFirst (fun (x : Nat × Int) => decide (x.1 ≤ s.time)) s.kx.rootSteps = some (x, rest) →
    exec .stepTick s = .next ({ s with kx := { s.kx with rootSteps := rest, doneSteps := x :: s.kx.doneSteps } }.applyStep x.2)) ∧
  (∀ (s : State) (b : KxBeacon), s.follows = false → s.kx.lastBeacon + 10000 ≤ s.adv →
    b = { root := Fin.ofNat 262144 s.devid, entry := Fin.ofNat 16 s.slot, depart := BitVec.ofNat 96 (toTime96 s.time), inc := BitVec.ofNat 32 s.tk.inc, state := Fin.ofNat 8 s.tkState, steps := s.comingSteps.map (fun x => (BitVec.ofNat 96 (toTime96 x.1), x.2)) } →

    exec (.timeBeaconSend []) s = .next ((s.kxBranches s.slot ++ [4, 5].filter (fun l => s.kxUp l)).foldl (fun s l => s.send (.beacon l b))
      { s with kx := { s.kx with lastBeacon := s.adv } })) ∧
  (∀ (s : State) (l : Fin 6) (b : KxBeacon) (sub : Fin 2621440) (roundTrip : Option Nat), s.kxUp l = true →
    time96Ok b.depart.toNat = true → b.steps.all (fun x => time96Ok x.1.toNat) = true →
    ∃ u v, u = s.heardBeacon l b roundTrip ∧ v = u.forwardBeacon l b ∧
      (v.follows = false → exec (.timeBeaconReceived l b sub roundTrip none) s = .next v) ∧
      (v.follows = true → v.get R.TIME_ROOT.ROOT_ID = b.root.val → exec (.timeBeaconReceived l b sub roundTrip none) s =
        .next (v.followBeacon b ((((v.time + sub.val : Nat) : Int) - u.beaconSent l b) * 1000 / 65536) roundTrip.isSome)))

/-- The commands of ETH0, the KX links and the displays. -/
def Obligations.LinkNetworkCommandsAct : Prop :=
  (∀ (s : State) (p : Path) (t : Fin 2) (w : Word), Writable s p (R.ETH_TXCTL t) →
    exec (.ethTxGo p t w) s = .next (s.writeTxCtl t w)) ∧
  (∀ (s : State) (t : Fin 2) (sub : Fin 2621440), s.eth.busy.contains t.val = true → s.on R.ETH_CFG.LINK = true →
    ∃ bs u, bs = Mem.reads 0 s.eth.mem (txOff t) (s.get (R.ETH_TXCTL.LEN t)) ∧
      u = ({ s with eth := { s.eth with busy := s.eth.busy.filter (fun x => x != t.val) } }.send (.frame 2 0 (withFcs
        (fixUdp (s.get (R.ETH_TXCTL.UDP_OFF t)) bs (oneStep (s.get (R.ETH_TXCTL.OS t)) (s.get (R.ETH_TXCTL.PTP_OFF t)) (s.time + sub) bs))))) ∧
      exec (.ethTxDone t sub) s = .next (((u.setStamp (R.ETH_TXT0 t) (R.ETH_TXT1 t) (R.ETH_TXT2 t) (s.time + sub)).put (R.ETH_TXCTL.DONE t) 1).ethEvent)) ∧
  (∀ (s u : State) (bs body : List Byte) (sub : Fin 2621440), s.ethFilter bs = (some body, u) → u.on R.ETH_CFG.AKW_EN = false →
    (u.nextSlot = none → exec (.ethFrameReceived bs sub) s = .next (u.satInc R.ETH_CNT.RX_DROP)) ∧
    (∀ r, u.nextSlot = some r → exec (.ethFrameReceived bs sub) s = .next ((State.setStamp
      (({ u with eth := { u.eth with mem := Mem.writes 0#8 u.eth.mem (rxOff r) body, next := (r + 1) % 6 } }.put (R.ETH_RXSTAT.LEN r) body.length).put
        (R.ETH_RXSTAT.OWN r) 0) (R.ETH_RXT0 r) (R.ETH_RXT1 r) (R.ETH_RXT2 r) (u.time + sub)).ethEvent))) ∧
  (∀ (s : State) (up : Bool), s.on R.ETH_CFG.EN = true →
    ∃ t, exec (.eth0LinkChange up) s = .next t ∧ t.get R.ETH_CFG.LINK = b2n up ∧ OnlyRegs [R.ETH_CFG] s t) ∧
  (∀ (s : State) (p : Path) (l : Fin 6) (en : Bool), Writable s p (R.KX_LINK.EN l).key →
    exec (.kxLinkEnable p l en) s = .next (s.writeKxLink l en)) ∧
  (∀ (s : State) (p : Path) (k : Fin 16) (w : Word), Writable s p (R.KX_SP k) →
    exec (.kxSpEnable p k w) s = .next (s.writeKxSp k w)) ∧
  (∀ (s : State) (device : Fin 16) (l : Fin 6) (devid : Fin 262144) (m : Option (Fin 262144)) (slot : Fin 16), s.lkUp 2 = true →
    device.val = s.slot → s.get (R.KX_LINK.STATE l) = 1 → l.val < 4 →
    bit (s.get R.KX_CFG.PRESENT) (kxNeighbour s.slot l) = true →
    ∃ u, u = s.exchangeHello l devid (m.map Fin.val) slot ∧
      (slot.val ≠ kxNeighbour u.slot l → exec (.kxHello device l devid m slot) s = .next ((u.put (R.KX_LINK.STATE l) 3).raiseInst 387 l)) ∧
      (slot.val = kxNeighbour u.slot l → exec (.kxHello device l devid m slot) s = .next (u.reroute (fun s =>
        { s.put (R.KX_LINK.STATE l) 2 with kx := { (s.put (R.KX_LINK.STATE l) 2).kx with
          devs := SMap.put (s.put (R.KX_LINK.STATE l) 2).kx.devs devid.val slot.val } })))) ∧
  (∀ (s : State) (device : Fin 16) (l : Fin 6) (devid : Fin 262144) (m : Option (Fin 262144)) (slot : Fin 16), s.lkUp 2 = true →
    device.val = s.slot → s.get (R.KX_LINK.STATE l) = 1 → 4 ≤ l.val →
    exec (.kxHello device l devid m slot) s = .next ((s.exchangeHello l devid (m.map Fin.val) slot).reroute (fun s =>
      { s.put (R.KX_LINK.STATE l) 2 with kx := { (s.put (R.KX_LINK.STATE l) 2).kx with
        devs := SMap.put (s.put (R.KX_LINK.STATE l) 2).kx.devs devid.val (16 + l) } }))) ∧
  (∀ (s : State) (device : Fin 16) (l : Fin 6), device.val = s.slot → s.kxUp l = true →
    exec (.kxLinkLoss device l) s = .next (s.linkLeft l (fun s => s.put (R.KX_LINK.STATE l) 1))) ∧
  (∀ (s : State) (k : Fin 16) (q : Fin 4096) (b : Barge) (e : Nat),
    exec (.kxStreamBargeArrival k q b e none) s = .next ({ s with kx := { s.kx with ports := SMap.put s.kx.ports k.val (e, b.stream, b.seq) } }.offer [(q.val, b)])) ∧
  (∀ (s : State) (l : Fin 6) (t : KxTrigger) (sub : Fin 2621440), s.kxUp l = true → rtKey t ∉ s.kx.seen → l.val < 4 →
    ∃ u, u = State.gatewaySend ({ s with kx := { s.kx with seen := rtKey t :: s.kx.seen } }.spreadRt t (some l.val)) t ∧
      (t.board = false → exec (.remoteTriggerReceived l t sub) s = .next u) ∧
      (t.board = true → exec (.remoteTriggerReceived l t sub) s = .next (u.receiveRt t (u.time + sub)))) ∧
  (∀ (s : State) (x : RtDue) (rest : List RtDue), takeFirst (fun x => decide (x.due < s.time + nsUnits 40)) s.kx.due = some (x, rest) →

    exec .remoteTriggerDue s = .next ({ s with kx := { s.kx with due := rest } }.deliverRt x.rt x.stamp 4)) ∧
  (∀ (s u v : State) (bs body : List Byte) (sub : Fin 2621440) (missed : Nat), s.ethFilter bs = (some body, u) →
    (u.on R.ETH_CFG.AKW_EN && u.isGateway && u.isAkwaune body) = true → field (body.drop 14) 0 1 = 1 →
    field (body.drop 14) 1 1 = 1 → field (body.drop 14) 2 1 = u.get R.AKW_CFG.DOMAIN →
    (field (body.drop 14) 4 4 % 2 ^ 18 == u.devid || ((SMap.find? u.kx.devs (field (body.drop 14) 4 4 % 2 ^ 18)).getD 16 < 16)) = false →
    u.akwSeqIn (field (body.drop 14) 4 4 % 2 ^ 18) (field (body.drop 14) 8 4) = (some missed, v) →
    exec (.akwauneFrameReceived bs sub) s = .next (v.akwTake (field (body.drop 14) 4 4 % 2 ^ 18) missed (v.time + sub) (body.drop 14))) ∧
  (∀ (s : State) (p : Path) (h : Fin 2) (w : Word), Writable s p (R.DISP_CTL h) →
    exec (.dispEnable p h w) s = .next (s.writeDispCtl h w) ∧ exec (.commit p h) s = .next (s.commitHead h)) ∧
  (∀ (s : State) (h : Fin 2), s.headState h = 1 →
    exec (.hpdPlug h) s = .next ((s.put (R.DISP_STATUS.HPD h) 1).trainHead h)) ∧
  (∀ (s : State) (h : Fin 2) (lost : Bool), s.headState h = 3 →
    exec (.hpdUnplug h) s = .next (((s.put (R.DISP_STATUS.HPD h) 0).updHead h (fun x => { x with sink := none })).setHead h 1) ∧
    exec (.hpdIrq h true) s = .next (s.trainHead h)) ∧
  (∀ (s : State) (h : Fin 2) (rate : Fin 5) (lanes : Fin 5) (l : Nat) (u : State), s.headState h = 2 → s.lkUp 3 = true →
    u = s.updHead h (fun x => { x with sink := some (rate.val, lanes.val) }) →
    dpLanes (u.headGet h (R.DISP_PCLK.PCLK_KHZ h)) rate lanes = some l →
    exec (.dispTrainingDone h rate lanes true) s = .next ((((u.setHead h 3).put (R.DISP_STATUS.LANES h) (if l = 4 then 3 else l)).put
      (R.DISP_STATUS.RATE h) rate).updHead h (fun x => { x with attempts := 0, line := none })) ∧
    ((u.head h).attempts < 2 → exec (.dispTrainingDone h rate lanes false) s = .next (u.updHead h (fun x => { x with attempts := x.attempts + 1 }))) ∧
    (2 ≤ (u.head h).attempts → exec (.dispTrainingDone h rate lanes false) s = .next (u.headFails h))) ∧
  (∀ (s : State) (h : Fin 2) (u : State), s.headState h = 3 → (s.head h).line = none → u = s.blankingBegins h →
    (u.on (R.DISP_STATUS.COMMIT_PEND h) = false → exec (.verticalBlankingStart h) s = .next (u.beginFrame h)) ∧
    (u.on (R.DISP_STATUS.COMMIT_PEND h) = true → (u.copyShadow h).1 = false →
      exec (.verticalBlankingStart h) s = .next ((u.copyShadow h).2.beginFrame h))) ∧
  (∀ (s : State) (h : Fin 2), s.headState h = 3 → (s.head h).line = some (s.activeLines h) →
    (s.blankingBegins h).on (R.DISP_STATUS.COMMIT_PEND h) = false →
    exec (.verticalBlankingStart h) s = .next ((s.blankingBegins h).beginFrame h)) ∧
  (∀ (s : State) (h : Fin 2) (supplied : Fin 3841) (y : Nat), s.headState h = 3 → (s.head h).line = some y →
    y < s.activeLines h →
    exec (.activeLineStart h supplied) s = .next (s.sendLine h y supplied)) ∧
  (∀ (s : State) (ring index : Nat) (o : Order) (bs : List Byte) (u : State), s.order? (ring, index) = some o →
    o.opcode = 0x0F01 → o.phase ≠ .cancelling →
    u = (s.writeHost (o.u 24 8 + o.done) (overlay (List.replicate 16 0#8) 0 (bs.take 16)) []).updOrder o.ref (fun x => { x with phase := .running, done := o.done + 16, aux := 0 }) →

    (o.done + 16 < 128 * o.u 18 1 → exec (.auxTransactionDone ring index (some bs)) s = .next u) ∧
    (128 * o.u 18 1 ≤ o.done + 16 → exec (.auxTransactionDone ring index (some bs)) s = .next (u.edidEnd o stOk (o.done + 16))) ∧
    (o.aux < 3 → exec (.auxTransactionDone ring index none) s = .next (s.updOrder o.ref (fun o => { o with aux := o.aux + 1 }))) ∧
    (3 ≤ o.aux → exec (.auxTransactionDone ring index none) s = .next (s.edidEnd o 0x2E o.done))) ∧
  (∀ (s : State) (w : Word), Writable s .mgmt R.PNL_CFG →
    exec (.pnlEnable .mgmt w) s = .next (s.writePnlCfg w)) ∧
  (∀ (s : State) (id : Word) (u : State), s.pnlState = 1 → s.lkUp 3 = true → s.panel.since + 240010000 ≤ s.ns →
    u = ((s.send (.frame 6 0 [0x11#8])).send (.frame 6 0 [0x3A#8])).send (.frame 6 0 [0x04#8]) →
    (id = 0 → exec (.pnlInitComplete id) s = .next ((u.put R.PNL_STATUS.STATE 3).raiseInst 452 0)) ∧
    (id ≠ 0 → id ≠ 0xFFFFFFFF#32 → exec (.pnlInitComplete id) s =
      .next (((u.send (.frame 6 0 [0x29#8])).put R.PNL_STATUS.STATE 2).pnlAllDirty.pnlPush))) ∧
  (∀ (s : State), s.get R.PNL_PERIOD.PERIOD_MS ≠ 0 → s.pnlCanPush = true →
    s.panel.since + 1000000 * s.get R.PNL_PERIOD.PERIOD_MS ≤ s.ns →
    exec .pnlPushTimer s = .next s.pnlPush)

/-- The commands of the pins and the TDC. -/
def Obligations.PinAndTdcCommandsAct : Prop :=
  (∀ (s : State) (i : Fin 8) (high : Bool) (sub : Fin 2621440),
    exec (.trigInEdge i high sub) s = .next (s.edgeAt i (high != s.on (R.TRIGIN_CFG.POL i)) sub).2) ∧
  (∀ (s : State) (b : Fin 4) (low : Bool) (sub : Fin 2621440),
    exec (.ibusEdge b low sub) s = .next (s.edgeAt (8 + b) low sub).2) ∧
  (∀ (s : State) (k : Fin 28), s.pinLive k = true → s.on (pinSTUCKEN k) = true → (s.pin k).pin = true →
    (s.pin k).since + stuckTime (s.get (pinTIME k)) < s.advU 0 →
    exec (.stuckTimeout k) s = .next (State.raiseInst (State.updPin (((s.put (pinSTUCK k) 1).put (pinSEEN k) 1).put (pinLEVEL k) 0) k
      (fun p => { p with level := false, dead := none })) (pinStuckSource k) (pinNumber k))) ∧
  (∀ (s : State) (k : Fin 28), s.on (pinSTUCK k) = true → (s.pin k).pin = false →
    (s.pin k).since + stuckTime (s.get (pinREARM k)) ≤ s.advU 0 →
    exec (.stuckRearm k) s = .next (((s.put (pinSTUCK k) 0).put (pinLEVEL k) 0).updPin k (fun p => { p with level := p.pin, dead := none }))) ∧
  (∀ (s : State) (o : Fin 4), (s.pulse o).on = true → (s.pulse o).endAt ≤ s.advU 0 →
    exec (.trigOutPulseEnd o) s = .next (s.updPulse o (fun _ => {}))) ∧
  (∀ (s : State) (b : Fin 4), (s.pulse (4 + b)).on = true → (s.pulse (4 + b)).endAt ≤ s.advU 0 →
    exec (.ibusPulseEnd b) s = .next (s.updPulse (4 + b) (fun _ => {}))) ∧
  (∀ (s : State) (n : Fin 32), (s.tdc n).fill ≠ [] → (s.tdc n).since + 1000 * max 1 (s.get R.TDC_CTL.CLOSE_US) ≤ s.adv →
    exec (.tdcBargeClose n) s = .next (s.tdcClose n)) ∧
  (∀ (s : State) (c : Fin 8) (m : TdcMeas), 0 < c.val → (s.tdc c).meas = some m → m.hi < toPs (s.advU 0) - toPs m.start →
    exec (.tdcWindowEnd c) s = .next (s.tdcEndMeas c false false)) ∧
  (∀ (s : State) (i : Fin 16) (g : TdcGate), (s.tdc (16 + i)).gate = some g → g.start + g.len ≤ s.advU 0 →
    ∃ u, (g.counted = true → ∃ r, r = s.tdcGateBytes i { g with edges := g.edges.filter (fun x => x.2.1 < g.start + g.len) } false ∧
        u = ((r.2.inc (R.TDC_FQ_STAT.GATES i)).tdcRecord (16 + i) g.number r.1.1 r.1.2.1 r.1.2.2).tdcBegin i (g.start + g.len)) ∧
      (g.counted = false → u = s.tdcBegin i (g.start + g.len)) ∧
      exec (.gateEnd i) s = .next (u.updTdc (16 + i) (fun x => { x with gate := x.gate.map (fun h =>
        { h with edges := g.edges.filter (fun x => g.start + g.len ≤ x.2.1) }) }))) ∧
  (∀ (s : State) (i : Fin 16) (rising : Bool) (sub : Fin 2621440), s.tdcFreq i = false →
    ∃ u, u = s.tdcEndDead i sub ∧
      ((u.edgeAt (12 + i) rising sub).1 = true →
        u.tdcTakes i rising = false → exec (.tdcEdge i rising sub) s = .next (u.edgeAt (12 + i) rising sub).2) ∧
      ((u.edgeAt (12 + i) rising sub).1 = true → u.tdcTakes i rising = true → exec (.tdcEdge i rising sub) s =
        .next ((u.edgeAt (12 + i) rising sub).2.tdcTake i rising (u.advU sub) (u.tdcCount sub) (u.time + sub))) ∧
      ((u.edgeAt (12 + i) rising sub).1 = false → (u.edgeAt (12 + i) rising sub).2.get (pinLOST (12 + i)) ≠ u.get (pinLOST (12 + i)) →
        exec (.tdcEdge i rising sub) s = .next ((u.edgeAt (12 + i) rising sub).2.tdcNoteLost i))) ∧
  (∀ (s : State) (i : Fin 16) (rising : Bool) (sub : Fin 2621440), s.tdcFreq i = true → 0 < s.get (R.TDC_IN_CFG.PRESCALE i) →
    exec (.tdcEdge i rising sub) s = .next (s.tdcPrescaled i rising sub)) ∧
  (∀ (s : State) (k : Fin 28) (sub : Fin 2621440),
    (k.val < 12 → exec (.deadTimeEnd k sub) s = .next (s.endDead k sub).2) ∧
    (12 ≤ k.val → exec (.deadTimeEnd k sub) s = .next (s.tdcEndDead (k - 12) sub))) ∧
  (∀ (s : State) (p : Path) (i : Fin 16) (w : Word), Writable s p (R.TDC_IN_CFG i) →
    exec (.tdcInEnable p i w) s = .next (s.writeTdcIn i w)) ∧
  (∀ (s : State) (p : Path) (w : Word), Writable s p R.TDC_CTL →
    exec (.tdcFanWrite p w) s = .next (s.writeTdcCtl w))

/-- The commands of the flights and of the calender units' control. -/
def Obligations.FlightAndUnitCommandsAct : Prop :=
  (∀ (s : State) (p : Path) (f : Fin 16), Writable s p (R.FL_CTL f) →
    exec (.flArm p f) s = .next (s.armFlight f) ∧ exec (.flCancel p f) s = .next (s.cancelFlight f)) ∧
  (∀ (s : State) (f : Fin 16) (t : Nat), (s.flight f).armAt = some t → s.flState f = 1 → t < s.time + nsUnits 40 →
    exec (.armTimeReached f) s = .next (s.armPending f t)) ∧
  (∀ (s : State) (f : Fin 16) (u : Nat), s.flightNext f = some (u, .timeout) → s.flightDueAt f .timeout = some u → u ≤ s.advU 0 →
    ((s.timeoutChamber f u).flightNext f).all (fun x => decide (fabCycle u < fabCycle x.1)) = true →
    exec (.chamberTimeout f) s = .next (s.timeoutChamber f u)) ∧
  (∀ (s : State) (sel : Fin 512) (sub : Fin 2621440) (o : Occ) (rest : List Occ), sel.val ≠ 0xF1 →
    takeFirst (fun o => o.sel == sel.val) s.occs = some (o, rest) →
    exec (.occurrence sel sub) s = .next ((List.range 16).foldl (fun x f => x.arrive o (s.advU sub) f) { s with occs := rest })) ∧
  (∀ (s : State) (sub : Fin 2621440),
    ∃ o : Occ, o.sel = 0xF1 ∧ o.rise = false ∧ o.fall = false ∧ o.high = true ∧ o.stamp = s.time + sub ∧ o.qual = s.qual 2 ∧
      exec (.occurrence 0xF1 sub) s = .next ((List.range 16).foldl (fun x f => x.arrive o (s.advU sub) f) s)) ∧
  (∀ (s : State) (f : Fin 16) (u : Nat), s.flightNext f = some (u, .holdoff) → s.flightDueAt f .holdoff = some u → u ≤ s.advU 0 →
    ((s.enterArmed f u).flightNext f).all (fun x => decide (fabCycle u < fabCycle x.1)) = true →
    exec (.holdoffEnd f) s = .next (s.enterArmed f u)) ∧
  (∀ (s : State) (f : Fin 16) (u : Nat), s.flightNext f = some (u, .auto) → s.flightDueAt f .auto = some u → u ≤ s.advU 0 →
    ((s.fire f u (s.timeAtU u) (s.qual 2) 0x1FF true).flightNext f).all (fun x => decide (fabCycle u < fabCycle x.1)) = true →
    exec (.autoTimeout f) s = .next (s.fire f u (s.timeAtU u) (s.qual 2) 0x1FF true)) ∧
  (∀ (s : State) (p : Path) (u : Fin 16) (en : Bool), Writable s p (R.CU_CTL.EN u).key →
    exec (.cuEnWrite p u en) s = .next (s.cuEnable u en)) ∧
  (∀ (s : State) (p : Path) (u : Fin 16), Writable s p (R.CU_CTL u) →
    ((s.cu u).stopAt ≠ some s.time → exec (.cuRunWrite p u) s = .next (s.cuStartRun u)) ∧
    ((s.cu u).stopAt = some s.time → exec (.cuRunWrite p u) s = .next ((s.cuStartRun u).cuStop u)) ∧
    exec (.cuStopWrite p u) s = .next ((s.cuStop u).updCu u (fun x => { x with stopAt := some s.time })) ∧
    exec (.cuPoke p u) s = .next (s.cuPoke u)) ∧
  (∀ (s : State) (p : Path) (u : Fin 16) (off : Fin 0x80000) (bs : List Byte), Writable s p ((0x800000 + u * 0x80000 + off) / 4 * 4) →

    (accessOk (0x800000 + u * 0x80000 + off) bs.length true = true → exec (.cuWindowWrite p u off bs) s = .next (s.cuWindow u off bs)) ∧
    (accessOk (0x800000 + u * 0x80000 + off) bs.length true = false →
      exec (.cuWindowWrite p u off bs) s = .next (s.badAccess (pathFn p) (0x800000 + u * 0x80000 + off) true))) ∧
  (∀ (s : State) (u : Fin 16), s.cuState u = 1 → (s.cu u).wakeAt + 1000 ≤ s.ns → s.unitsBarred = false →
    ∃ t, t = (State.put ((((s.setWord (R.CU_LSTAT0 u) 0#32).setWord (R.CU_LSTAT1 u) 0#32).setWord (R.CU_FLAGS u) 0#32))
      (R.CU_STATUS.STATE u) 2).updCu u (fun x => { x with b0 := {}, b1 := {}, writes := [], mulBusy := false }) ∧
    exec (.cuWakeDone u) s = .next (t.cuStopsDone u)) ∧
  (∀ (s : State) (u : Fin 16), s.cuRuns u = true → 0 < (s.cu u).period →
    (s.cu u).runAt + ((s.cu u).expiries + 1) * (s.cu u).period ≤ s.adv →
    exec (.cuTimerExpiry u) s = .next ((s.updCu u (fun x => { x with expiries := x.expiries + 1 })).cuPend u 5)) ∧
  (∀ (s : State) (u : Fin 16) (c : Nat) (n : Nat), s.cuDue? u = some (.event c) → s.cuState u = 3 →
    exec (.eventEntry u n .clean) s = .next (s.cuEnter u c)) ∧
  (∀ (s : State) (u : Fin 16) (c : Nat) (n : Nat), s.cuState u = 4 →
    ((s.cuDue? u).isSome = true → (s.cuCycles u n).cuDue? u = some (.event c) →
      exec (.eventEntry u n .clean) s = .next ((s.cuCycles u n).cuEnter u c)) ∧
    (s.cuDue? u = none → (s.cuWait u n).cuDue? u = some (.event c) → exec (.eventEntry u n .clean) s = .next ((s.cuWait u n).cuEnter u c))) ∧
  (∀ (s : State) (u : Fin 16) (f n : Nat), s.cuState u ≠ 4 → s.cuDue? u = some (.fault f) →
    exec (.eventEntry u n .clean) s = .next (s.cuFault u f)) ∧
  (∀ (s : State) (u : Fin 16) (k : CuCopy) (t : List CuCopy), (s.cu u).copies = k :: t →
    exec (.qrdCopyLanded u) s = .next ((s.updCu u (fun x => { x with copies := t, data := Mem.writes 0#8 x.data k.addr k.data })).settleCuOff u)) ∧
  (∀ (s : State) (u : Fin 16) (x : CuSend) (t : List CuSend), (s.cu u).sends = x :: t →
    ∃ r, r = s.admitBarge (field (s.sendBlock u x) 0 2 % 4096) (s.sendBarge u x false) ∧
      (r.1.taken = false → exec (.sendDone u .clean) s = .next r.2) ∧
      (r.1.taken = true → exec (.sendDone u .clean) s = .next ((r.2.updCu u (fun c => { c with sends := t, seq := (c.seq + 1) % 2 ^ 32 })).settleCuOff u))) ∧
  (∀ (s : State) (ring index : Nat) (o : Order), s.order? (ring, index) = some o → o.u 17 1 = 1 → ofTime96 (o.u 20 12) ≤ s.time →
    (o.opcode = 0x0602 → exec (.cuRunDue ring index) s = .next (s.cuRunNow o o.late (s.cuActTime o o.late))) ∧
    (o.opcode = 0x0603 → o.phase = .pending → exec (.cuStopDue ring index) s = .next (s.cuStopNow o o.late)))

/-- The commands of the probe lanes. -/
def Obligations.ProbeLaneCommandsAct : Prop :=
  (∀ (s : State) (p : Path) (w : Word), Writable s p R.PROBE_GROUPS →
    exec (.probeGroupsWrite p w) s = .next (s.writeGroups w)) ∧
  (∀ (s : State) (p : Path) (n : Fin 16) (en : Bool), Writable s p (R.PROBE_LANE.EN n).key →
    exec (.probeLaneEnable p n en) s = .next (s.writeLaneEn n en)) ∧
  (∀ (s : State) (p : Path) (v : Fin 8) (w : Word), Writable s p (R.VC_CFG v) →
    exec (.vcEnable p v w) s = .next (s.writeVcCfg v w)) ∧
  (∀ (s : State) (n : Fin 16), s.pState n = 1 → (s.pLane n).trainSince + 20000000 ≤ s.ns →
    exec (.probeTrainingTimeout n) s = .next ((s.trainLane n).satInc (R.PROBE_LANE.RETRAINS n))) ∧
  (∀ (s : State) (n : Fin 16), s.lkUp 3 = true → s.pState n = 1 → s.ns ≤ (s.pLane n).trainSince + 20000000 →
    ∃ t, exec (.probeAdaptationDone n) s = .next t ∧ t.pState n = 2 ∧ OnlyRegs [R.PROBE_LANE n] s t) ∧
  (∀ (s : State) (n : Fin 16), s.lkUp 3 = true → s.pState n = 2 →
    exec (.probeLaneAligned n) s = .next ((s.put (R.PROBE_LANE.STATE n) 3).sendHello n)) ∧
  (∀ (s : State) (n : Fin 16) (width : Fin 16) (pclk : Word), s.lkUp 3 = true → s.pState n = 3 →
    width.val = s.groupWidth n % 16 →
    exec (.probeHello n 1 width pclk) s = .next (((s.put (R.PROBE_LANE.STATE n) 4).put (R.PROBE_PEER.PCLK_PS n) pclk.toNat).updPLane n (fun x => { x with crcs := [], beaconAt := none })) ∧
    exec (.probeHello n 2 width pclk) s = .next ((s.put (R.PROBE_LANE.STATE n) 5).raiseInst 320 n)) ∧
  (∀ (s : State) (n : Fin 16), s.pState n = 4 →
    exec (.probeSyncLoss n true) s = .next (((s.put (R.PROBE_LANE.STATE n) 2).raiseInst 321 n).laneLeft n) ∧
    (s.get R.PROBE_CTL.ERR_LIMIT ≠ 0 → s.get R.PROBE_CTL.ERR_LIMIT < ((s.pLane n).crcs.filter (fun t => decide (s.adv < t + 1000000000))).length →
      exec (.probeSyncLoss n false) s = .next ((((s.trainLane n).satInc (R.PROBE_LANE.RETRAINS n)).raiseInst 321 n).laneLeft n))) ∧
  (∀ (s : State) (n : Fin 16),
    exec (.probeFrameDropped n true) s = .next (((s.satInc (R.PROBE_LANE_ERR.CRCERR n)).put (R.PROBE_LANE.CRC_SEEN n) 1).updPLane n (fun x => { x with
      crcs := s.adv :: x.crcs.filter (fun t => decide (s.adv < t + 1000000000)) })) ∧
    exec (.probeFrameDropped n false) s = .next (s.lostFrame n)) ∧
  (∀ (s : State) (n : Fin 16), s.pState n = 3 → (s.pLane n).beaconAt = none →
    exec (.probeBeacon n) s = .next (s.sendHello n)) ∧
  (∀ (s : State) (n : Fin 16), s.pState n = 4 → (s.pLane n).beaconAt = none → s.stimDue (s.probeGroupOf n) = false →
    exec (.probeBeacon n) s = .next ((s.sendOn (s.probeGroupOf n) n 0x02 0 0 (s.pLane n).delay s.time []).updPLane n (fun x => { x with
      beaconAt := some (s.sendOn (s.probeGroupOf n) n 0x02 0 0 (s.pLane n).delay s.time []).adv,
      beacons := (x.beacons ++ [((s.pGroup (s.probeGroupOf n)).tx, (s.sendOn (s.probeGroupOf n) n 0x02 0 0 (s.pLane n).delay s.time []).advU 0)]).drop (x.beacons.length - 63) }))) ∧
  (∀ (s : State) (n : Fin 16), (s.pGroup (s.probeGroupOf n)).window.any (fun h => decide (h.at_ + nsUnits 2000 ≤ s.advU 0)) = true →

    exec (.frameLost n) s = .next (((s.lostFrame n).updPGroup (s.probeGroupOf n) (fun x => { x with next := x.next.map (fun q => (q + 1) % 65536) })).drainWindow (s.probeGroupOf n) 65)) ∧
  (∀ (s : State) (n : Fin 16) (f : ProbeFrame) (sub : Fin 2621440) (turn : Nat), s.pState n = 4 → time96Ok f.stamp.toNat = true →
    (s.pLane n).beacons.find? (fun b => b.1 == f.word.toNat) = none →
    exec (.echoFrame n f sub turn) s = .next (s.rxFrame 0x03 n f)) ∧
  (∀ (s : State) (n : Fin 16) (f : ProbeFrame) (sub : Fin 2621440) (turn : Nat) (b : Nat × Nat), s.pState n = 4 →
    time96Ok f.stamp.toNat = true → (s.pLane n).beacons.find? (fun b => b.1 == f.word.toNat) = some b →
    exec (.echoFrame n f sub turn) s = .next (State.rxFrame ((s.put (R.PROBE_LANE_DLY.DELAY n) (min ((toPs (s.advU sub - b.2) - turn) / 2) (2 ^ 32 - 1))).updPLane n
      (fun x => { x with delay := (toPs (s.advU sub - b.2) - turn) / 2 * 65536 / 1000, beacons := x.beacons.filter (fun y => y != b) })) 0x03 n f)) ∧
  (∀ (s : State) (n : Fin 16) (f : ProbeFrame),
    exec (.creditFrame n f) s = .next (s.rxFrame 0x04 n f) ∧ exec (.vcsFrame n f) s = .next (s.rxFrame 0x10 n f) ∧
    exec (.netsFrame n f) s = .next (s.rxFrame 0x11 n f) ∧ exec (.subAckFrame n f) s = .next (s.rxFrame 0x13 n f))

/-- The commands of the probe sets and bridge ports. -/
def Obligations.ProbeBridgeCommandsAct : Prop :=
  (∀ (s : State) (k : Fin 16), (s.pSet k).rows ≠ 0 → (s.pSet k).since + 1000 * max 1 (s.get R.PROBE_CTL.CLOSE_US) ≤ s.adv →
    exec (.probeBargeClose k) s = .next (s.closeSet k)) ∧
  (∀ (s : State) (b : Fin 8) (qb : QBarge) (g : Nat), s.on (R.BP_CFG.EN b) = true → g = s.get (R.BP_CFG.GROUP b) →
    s.groupUp g = true → s.stimDue g = false → s.frontBarge? (s.get (R.BP_CFG.QUEUE b)) = some qb →
    ∃ u, u = s.updBp b (fun x => { x with stream := some ((s.bp b).stream.getD qb.barge.stream) }) ∧
      (qb.barge.stream ≠ (s.bp b).stream.getD qb.barge.stream → exec (.bridgeSend b) s =
        .next (((u.freeCells qb.cells).updBp b (fun x => { x with pos := 0, fill := 0 })).raiseInst 324 b)) ∧
      (qb.barge.stream = (s.bp b).stream.getD qb.barge.stream → qb.barge.isMark = true → qb.barge.format % 256 ≠ mkGap → exec (.bridgeSend b) s =
        .next (((u.sendProbe g 0x23 0 (s.get (R.BP_CFG.CHAN b)) 0 qb.barge.stamp (headerBytes qb.barge)).freeCells qb.cells).updBp b
          (fun x => { x with pos := 0, fill := 0 }))) ∧
      (qb.barge.stream = (s.bp b).stream.getD qb.barge.stream → qb.barge.isMark = true → qb.barge.format % 256 = mkGap →
        s.on (R.BP_CFG.FILL b) = false → ∀ n, n = qb.barge.word48 / 2 ^ 32 % 2 ^ 32 → exec (.bridgeSend b) s =
        .next (((((u.sendProbe g 0x21 0 (s.get (R.BP_CFG.CHAN b)) (s.bp b).number qb.barge.stamp (leBytes 8 n)).updBp b
          (fun x => { x with number := x.number + n })).freeCells qb.cells).updBp b (fun x => { x with pos := 0, fill := 0 })).inc
          (R.BP_STAT.GAPF b))) ∧
      (qb.barge.stream = (s.bp b).stream.getD qb.barge.stream → qb.barge.isMark = false → qb.barge.type = 1 → (s.bp b).pos = 0 →
        ∀ n fmt, n = qb.barge.word40 / 2 ^ 32 → fmt = qb.barge.format % 256 → 0 < n → n ≤ frameSamples fmt → n ≤ (s.bp b).room →
        exec (.bridgeSend b) s =
        .next ((((u.sendProbe g 0x20 fmt (s.get (R.BP_CFG.CHAN b)) qb.barge.word48 (qb.barge.stamp + u.sampleOffset qb.barge.source 0)
          (padTo8 ((qb.barge.payload.drop (sampleBytes fmt 0)).take (sampleBytes fmt n)))).updBp b (fun x => { x with
          fmt := some fmt, pos := x.pos + n, sent := (x.sent + n) % 2 ^ 64, number := qb.barge.word48 + x.pos + n })).freeCells qb.cells).updBp b
          (fun x => { x with pos := 0, fill := 0 })))) ∧
  (∀ (s : State) (p : Path) (b : Fin 8) (w : Word), Writable s p (R.BP_CFG b) →
    exec (.bpEnable p b w) s = .next (s.writeBpCfg b w)) ∧
  (∀ (s : State) (p : Path) (g : Fin 4) (w : Word), Writable s p (R.EG_CFG g) →
    exec (.egEnable p g w) s = .next (s.writeEgCfg g w)) ∧
  (∀ (s : State) (g : Fin 4) (n fmt : Nat) (xs : List (Int × Int)) (rest : List (Nat × Nat × List (Int × Int))), (s.sg (g + 4)).out = (n, fmt, xs) :: rest →
    s.sgBall (g + 4) n < s.time + nsUnits 40 →
    ∃ u, u = s.updSg (g + 4) (fun x => { x with out := rest }) ∧
      (s.sgBall (g + 4) n + nsUnits 1000 < u.time → exec (.stimFrameSend g) s = .next ((u.satInc (R.EG_STAT.DROPPED g)).raiseInst 325 (g + 4))) ∧
      (u.time ≤ s.sgBall (g + 4) n + nsUnits 1000 → u.groupUp (u.get (R.EG_CFG.GROUP g)) = true → exec (.stimFrameSend g) s =
        .next (u.sendProbe (u.get (R.EG_CFG.GROUP g)) 0x22 fmt (u.get (R.EG_CFG.CHAN g)) n (s.sgBall (g + 4) n + nsUnits (u.get (R.EG_CFG.LEAD_NS g))) (stimBytes fmt xs)))) ∧
  (∀ (s : State) (ring index : Nat) (x : ProbeSub) (rest : List ProbeSub), takeFirst (fun x => x.order == (ring, index)) s.probe.subs = some (x, rest) →
    x.sentAt + 10000000 ≤ s.adv →
    exec (.subAckTimeout ring index) s = .next ({ s with probe := { s.probe with subs := rest } }.retireRef x.order 0x29 []))

/-- The arithmetic of slot A. Reads come before writes; a write to X0 is discarded where it lands (`State.landEff`). -/
def Obligations.UnitArithmeticCommandsAct : Prop :=
  (∀ (s : State) (u : Fin 16) (i : State) (c : CuSlot), IssuesA s u 0x01 → i = atIssue s u → c = nextA s u →
    exec (.cuAdd u) s = .next (behindA s u .none (i.later c 1 (.x c.xd (i.xa c + i.xb c))))) ∧
  (∀ (s : State) (u : Fin 16) (i : State) (c : CuSlot), IssuesA s u 0x02 → i = atIssue s u → c = nextA s u →
    exec (.cuSub u) s = .next (behindA s u .none (i.later c 1 (.x c.xd (i.xa c - i.xb c))))) ∧
  (∀ (s : State) (u : Fin 16) (i : State) (c : CuSlot), IssuesA s u 0x03 → i = atIssue s u → c = nextA s u →
    exec (.cuAnd u) s = .next (behindA s u .none (i.later c 1 (.x c.xd (i.xa c &&& i.xb c))))) ∧
  (∀ (s : State) (u : Fin 16) (i : State) (c : CuSlot), IssuesA s u 0x04 → i = atIssue s u → c = nextA s u →
    exec (.cuOr u) s = .next (behindA s u .none (i.later c 1 (.x c.xd (i.xa c ||| i.xb c))))) ∧
  (∀ (s : State) (u : Fin 16) (i : State) (c : CuSlot), IssuesA s u 0x05 → i = atIssue s u → c = nextA s u →
    exec (.cuXor u) s = .next (behindA s u .none (i.later c 1 (.x c.xd (i.xa c ^^^ i.xb c))))) ∧
  (∀ (s : State) (u : Fin 16) (i : State) (c : CuSlot), IssuesA s u 0x06 → i = atIssue s u → c = nextA s u →
    exec (.cuShl u) s = .next (behindA s u .none (i.later c 1 (.x c.xd (i.xa c <<< ((i.xb c).toNat % 32)))))) ∧
  (∀ (s : State) (u : Fin 16) (i : State) (c : CuSlot), IssuesA s u 0x07 → i = atIssue s u → c = nextA s u →
    exec (.cuShr u) s = .next (behindA s u .none (i.later c 1 (.x c.xd (i.xa c >>> ((i.xb c).toNat % 32)))))) ∧
  (∀ (s : State) (u : Fin 16) (i : State) (c : CuSlot), IssuesA s u 0x08 → i = atIssue s u → c = nextA s u →
    exec (.cuSra u) s = .next (behindA s u .none (i.later c 1 (.x c.xd ((i.xa c).sshiftRight ((i.xb c).toNat % 32)))))) ∧
  (∀ (s : State) (u : Fin 16) (i : State) (c : CuSlot), IssuesA s u 0x0A → i = atIssue s u → c = nextA s u →
    exec (.cuSlt u) s = .next (behindA s u .none (i.later c 1 (.x c.xd (if (i.xa c).toInt < (i.xb c).toInt then 1#32 else 0#32))))) ∧
  (∀ (s : State) (u : Fin 16) (i : State) (c : CuSlot), IssuesA s u 0x0B → i = atIssue s u → c = nextA s u →
    exec (.cuSltu u) s = .next (behindA s u .none (i.later c 1 (.x c.xd (if (i.xa c).toNat < (i.xb c).toNat then 1#32 else 0#32))))) ∧
  (∀ (s : State) (u : Fin 16) (i : State) (c : CuSlot), IssuesA s u 0x10 → i = atIssue s u → c = nextA s u →
    exec (.cuAddi u) s = .next (behindA s u .none (i.later c 1 (.x c.xd (i.xa c + BitVec.ofInt 32 (sext 18 c.imm)))))) ∧
  (∀ (s : State) (u : Fin 16) (i : State) (c : CuSlot), IssuesA s u 0x11 → i = atIssue s u → c = nextA s u →
    exec (.cuAndi u) s = .next (behindA s u .none (i.later c 1 (.x c.xd (i.xa c &&& BitVec.ofNat 32 c.imm))))) ∧
  (∀ (s : State) (u : Fin 16) (i : State) (c : CuSlot), IssuesA s u 0x12 → i = atIssue s u → c = nextA s u →
    exec (.cuOri u) s = .next (behindA s u .none (i.later c 1 (.x c.xd (i.xa c ||| BitVec.ofNat 32 c.imm))))) ∧
  (∀ (s : State) (u : Fin 16) (i : State) (c : CuSlot), IssuesA s u 0x13 → i = atIssue s u → c = nextA s u →
    exec (.cuLui u) s = .next (behindA s u .none (i.later c 1 (.x c.xd (BitVec.ofNat 32 c.imm <<< 14))))) ∧
  (∀ (s : State) (u : Fin 16) (i : State) (c : CuSlot), IssuesA s u 0x14 → i = atIssue s u → c = nextA s u →
    exec (.cuShli u) s = .next (behindA s u .none (i.later c 1 (.x c.xd (i.xa c <<< (c.imm % 32)))))) ∧
  (∀ (s : State) (u : Fin 16) (i : State) (c : CuSlot), IssuesA s u 0x15 → i = atIssue s u → c = nextA s u →
    exec (.cuShri u) s = .next (behindA s u .none (i.later c 1 (.x c.xd (i.xa c >>> (c.imm % 32)))))) ∧
  (∀ (s : State) (u : Fin 16) (i : State) (c : CuSlot), IssuesA s u 0x16 → i = atIssue s u → c = nextA s u →
    exec (.cuSrai u) s = .next (behindA s u .none (i.later c 1 (.x c.xd ((i.xa c).sshiftRight (c.imm % 32)))))) ∧
  (∀ (s : State) (u : Fin 16) (i : State) (c : CuSlot), IssuesA s u 0x09 → i = atIssue s u → c = nextA s u →
    exec (.cuMul u) s = .next (behindA s u .none (i.later c 3 (.x c.xd (i.xa c * i.xb c))))) ∧
  (∀ (s : State) (u : Fin 16), s.cuReady u = true →
    (hasA 0 (s.cuNext u) = true → exec (.cuNop u) s = .next (behindA s u .none (atIssue s u))) ∧
    (hasB 0 (s.cuNext u) = true → exec (.cuNop u) s = .next (behindB s u .none (afterA s u))) ∧
    (bundleOk (s.cuNext u) = false → exec (.cuNop u) s = .next ((((atIssue s u).cuRaise u (s.cuBankNo u) 0).cuCycle u).cuAdvance u (s.cuBankNo u)
      (nextPc s u) .none .none)))

/-- The loads and stores of slot A. That the base is incremented on a refused access too is the model's choice (log entry 62). -/
def Obligations.UnitMemoryCommandsAct : Prop :=
  (∀ (s : State) (u : Fin 16) (i : State) (c : CuSlot), IssuesA s u 0x18 → i = atIssue s u → c = nextA s u →
    (accessBad (i.cuAddr c) 4 4 = false → ∃ bs, bs = Mem.reads 0#8 ((i.postInc c 4).cu c.u).data (i.cuAddr c) 4 ∧
      exec (.cuLdw u .clean) s = .next (behindA s u .none ((i.postInc c 4).later c 4 (.x c.xd (BitVec.ofNat 32 (leNat bs)))))) ∧
    (accessBad (i.cuAddr c) 4 4 = true → exec (.cuLdw u .clean) s = .next (behindA s u .none ((i.postInc c 4).cuRaise c.u c.bank 0)))) ∧
  (∀ (s : State) (u : Fin 16) (i : State) (c : CuSlot), IssuesA s u 0x1C → i = atIssue s u → c = nextA s u →
    (accessBad (i.cuAddr c) 12 4 = false → ∃ bs, bs = Mem.reads 0#8 ((i.postInc c 12).cu c.u).data (i.cuAddr c) 12 ∧
      exec (.cuLdt u .clean) s = .next (behindA s u .none ((i.postInc c 12).later c 4 (.stamp (leNat bs))))) ∧
    (accessBad (i.cuAddr c) 12 4 = true → exec (.cuLdt u .clean) s = .next (behindA s u .none ((i.postInc c 12).cuRaise c.u c.bank 0)))) ∧
  (∀ (s : State) (u : Fin 16) (i : State) (c : CuSlot) (n : Nat), IssuesA s u 0x1A → i = atIssue s u → c = nextA s u →
    n = (if c.q18 then 32 else 16) →
    (accessBad (i.cuAddr c) n n = false → ∃ bs, bs = Mem.reads 0#8 ((i.postInc c n).cu c.u).data (i.cuAddr c) n ∧
      exec (.cuVld u .clean) s = .next (behindA s u .none ((i.postInc c n).later c 4 (.v c.xd (elements c.q18 bs) 0 false)))) ∧
    (accessBad (i.cuAddr c) n n = true → exec (.cuVld u .clean) s = .next (behindA s u .none ((i.postInc c n).cuRaise c.u c.bank 0)))) ∧
  (∀ (s : State) (u : Fin 16) (i : State) (c : CuSlot) (bs : List Byte), IssuesA s u 0x19 → i = atIssue s u → c = nextA s u →
    bs = leBytes 4 ((i.bank c.u c.bank).xr c.xd).toNat →
    (accessBad (i.cuAddr c) bs.length 4 = false → exec (.cuStw u) s = .next (behindA s u .none ((i.postInc c bs.length).updCu c.u
      (fun x => { x with data := Mem.writes 0#8 x.data (i.cuAddr c) bs })))) ∧
    (accessBad (i.cuAddr c) bs.length 4 = true → exec (.cuStw u) s = .next (behindA s u .none ((i.postInc c bs.length).cuRaise c.u c.bank 0)))) ∧
  (∀ (s : State) (u : Fin 16) (i : State) (c : CuSlot) (bs : List Byte), IssuesA s u 0x1D → i = atIssue s u → c = nextA s u →
    bs = leBytes 12 (i.bank c.u c.bank).stamp →
    (accessBad (i.cuAddr c) bs.length 4 = false → exec (.cuStt u) s = .next (behindA s u .none ((i.postInc c bs.length).updCu c.u
      (fun x => { x with data := Mem.writes 0#8 x.data (i.cuAddr c) bs })))) ∧
    (accessBad (i.cuAddr c) bs.length 4 = true → exec (.cuStt u) s = .next (behindA s u .none ((i.postInc c bs.length).cuRaise c.u c.bank 0)))) ∧
  (∀ (s : State) (u : Fin 16) (i : State) (c : CuSlot) (bs : List Byte), IssuesA s u 0x1B → i = atIssue s u → c = nextA s u →
    bs = elementBytes c.q18 ((i.bank c.u c.bank).vr c.xd) →
    (accessBad (i.cuAddr c) bs.length (if c.q18 then 32 else 16) = false → exec (.cuVst u) s = .next (behindA s u .none ((i.postInc c bs.length).updCu c.u
      (fun x => { x with data := Mem.writes 0#8 x.data (i.cuAddr c) bs })))) ∧
    (accessBad (i.cuAddr c) bs.length (if c.q18 then 32 else 16) = true → exec (.cuVst u) s = .next (behindA s u .none ((i.postInc c bs.length).cuRaise c.u c.bank 0))))

/-- The control instructions of the calender units. -/
def Obligations.UnitControlCommandsAct : Prop :=
  (∀ (s : State) (u : Fin 16) (i : State) (c : CuSlot), IssuesA s u 0x20 → i = atIssue s u → c = nextA s u →
    (i.cuBarred c = false → exec (.cuBeq u) s = .next (behindA s u (.branch (if i.bra c == i.brb c then some c.target else none)) i)) ∧
    (i.cuBarred c = true → exec (.cuBeq u) s = .next (behindA s u .none (i.cuRaise c.u c.bank 0)))) ∧
  (∀ (s : State) (u : Fin 16) (i : State) (c : CuSlot), IssuesA s u 0x21 → i = atIssue s u → c = nextA s u →
    (i.cuBarred c = false → exec (.cuBne u) s = .next (behindA s u (.branch (if i.bra c != i.brb c then some c.target else none)) i)) ∧
    (i.cuBarred c = true → exec (.cuBne u) s = .next (behindA s u .none (i.cuRaise c.u c.bank 0)))) ∧
  (∀ (s : State) (u : Fin 16) (i : State) (c : CuSlot), IssuesA s u 0x22 → i = atIssue s u → c = nextA s u →
    (i.cuBarred c = false → exec (.cuBlt u) s = .next (behindA s u (.branch (if decide ((i.bra c).toInt < (i.brb c).toInt) then some c.target else none)) i)) ∧
    (i.cuBarred c = true → exec (.cuBlt u) s = .next (behindA s u .none (i.cuRaise c.u c.bank 0)))) ∧
  (∀ (s : State) (u : Fin 16) (i : State) (c : CuSlot), IssuesA s u 0x23 → i = atIssue s u → c = nextA s u →
    (i.cuBarred c = false → exec (.cuBge u) s = .next (behindA s u (.branch (if decide ((i.brb c).toInt ≤ (i.bra c).toInt) then some c.target else none)) i)) ∧
    (i.cuBarred c = true → exec (.cuBge u) s = .next (behindA s u .none (i.cuRaise c.u c.bank 0)))) ∧
  (∀ (s : State) (u : Fin 16) (i : State) (c : CuSlot), IssuesA s u 0x24 → i = atIssue s u → c = nextA s u →
    (i.cuBarred c = false → exec (.cuJmp u) s = .next (behindA s u (.branch (if true then some c.target else none)) i)) ∧
    (i.cuBarred c = true → exec (.cuJmp u) s = .next (behindA s u .none (i.cuRaise c.u c.bank 0)))) ∧
  (∀ (s : State) (u : Fin 16) (i : State) (c : CuSlot), IssuesA s u 0x25 → i = atIssue s u → c = nextA s u →
    (i.cuBarred c = false → exec (.cuJr u) s = .next (behindA s u (.branch (some ((i.bra c).toNat % 8192))) i)) ∧
    (i.cuBarred c = true → exec (.cuJr u) s = .next (behindA s u .none (i.cuRaise c.u c.bank 0)))) ∧
  (∀ (s : State) (u : Fin 16) (i : State) (c : CuSlot), IssuesA s u 0x26 → i = atIssue s u → c = nextA s u →
    (i.cuBarred c = false → exec (.cuCall u) s = .next (behindA s u (.branch (some c.target)) (i.later c 1 (.x 15 (BitVec.ofNat 32 ((c.pc + 3) % 8192)))))) ∧
    (i.cuBarred c = true → exec (.cuCall u) s = .next (behindA s u .none (i.cuRaise c.u c.bank 0)))) ∧
  (∀ (s : State) (u : Fin 16) (i : State) (c : CuSlot), IssuesA s u 0x28 → i = atIssue s u → c = nextA s u →
    (c.bank = 0 → i.cuBarred c = false → exec (.cuWait u) s = .next (behindA s u .wait i)) ∧
    (i.cuBarred c = true → exec (.cuWait u) s = .next (behindA s u .none (i.cuRaise c.u c.bank 0))) ∧
    (c.bank ≠ 0 → exec (.cuWait u) s = .next (behindA s u .none (i.cuRaise c.u c.bank 0)))) ∧
  (∀ (s : State) (u : Fin 16) (i : State) (c : CuSlot), IssuesA s u 0x29 → i = atIssue s u → c = nextA s u →
    (c.bank = 1 → i.cuBarred c = false → exec (.cuRete u) s = .next (behindA s u .rete i)) ∧
    (i.cuBarred c = true → exec (.cuRete u) s = .next (behindA s u .none (i.cuRaise c.u c.bank 0))) ∧
    (c.bank ≠ 1 → exec (.cuRete u) s = .next (behindA s u .none (i.cuRaise c.u c.bank 0)))) ∧
  (∀ (s : State) (u : Fin 16) (i : State) (c : CuSlot), IssuesA s u 0x2A → i = atIssue s u → c = nextA s u →
    (i.cuBarred c = false → exec (.cuHalt u) s = .next (behindA s u .halt i)) ∧
    (i.cuBarred c = true → exec (.cuHalt u) s = .next (behindA s u .none (i.cuRaise c.u c.bank 0)))) ∧
  (∀ (s : State) (u : Fin 16) (x : State) (c : CuSlot), IssuesB s u 0x1F → x = afterA s u → c = nextB s u →
    x.cuBarred c = false → (x.bank c.u c.bank).loops.length < 2 →
    ((x.xa c).toNat % 65536 = 0 → exec (.cuLoop u) s = .next (behindB s u (.skip ((c.target + 1) % 8192)) x)) ∧
    ((x.xa c).toNat % 65536 ≠ 0 → exec (.cuLoop u) s = .next (behindB s u (.level ⟨(c.pc + 1) % 8192, c.target, (x.xa c).toNat % 65536⟩) x)))

/-- The system instructions of slot A. -/
def Obligations.UnitSystemCommandsAct : Prop :=
  (∀ (s : State) (u : Fin 16) (i : State) (c : CuSlot), IssuesA s u 0x2B → i = atIssue s u → c = nextA s u →
    exec (.cuMfs u) s = .next (behindA s u .none (i.later c 1 (.x c.xd (BitVec.ofNat 32 (i.cuSpecial c c.sel)))))) ∧
  (∀ (s : State) (u : Fin 16) (i : State) (c : CuSlot), IssuesA s u 0x2C → i = atIssue s u → c = nextA s u → c.sel = 0 →
    exec (.cuMts u) s = .next (behindA s u .none (i.later c 1 (.lstat 0 (i.xa c))))) ∧
  (∀ (s : State) (u : Fin 16) (i : State) (c : CuSlot), IssuesA s u 0x2C → i = atIssue s u → c = nextA s u → c.sel = 1 →
    exec (.cuMts u) s = .next (behindA s u .none (i.later c 1 (.lstat 1 (i.xa c))))) ∧
  (∀ (s : State) (u : Fin 16) (i : State) (c : CuSlot), IssuesA s u 0x2C → i = atIssue s u → c = nextA s u → c.sel = 2 →
    exec (.cuMts u) s = .next (behindA s u .none (i.later c 1 (.flags (i.xa c).toNat)))) ∧
  (∀ (s : State) (u : Fin 16) (i : State) (c : CuSlot), IssuesA s u 0x2C → i = atIssue s u → c = nextA s u → c.sel = 3 →
    exec (.cuMts u) s = .next (behindA s u .none (i.later c 1 .bxReset))) ∧
  (∀ (s : State) (u : Fin 16) (i : State) (c : CuSlot), IssuesA s u 0x2C → i = atIssue s u → c = nextA s u → 3 < c.sel →
    exec (.cuMts u) s = .next (behindA s u .none (i.cuRaise c.u c.bank 0))) ∧
  (∀ (s : State) (u : Fin 16) (sub : Fin 2621440) (i : State) (c : CuSlot), IssuesA s u 0x2D → i = atIssue s u → c = nextA s u →
    exec (.cuTnow u sub) s = .next (behindA s u .none (i.later c 4 (.stamp (toTime96 (i.time + sub)))))) ∧
  (∀ (s : State) (u : Fin 16) (sub : Fin 2621440) (i : State) (c : CuSlot), IssuesA s u 0x2E → i = atIssue s u → c = nextA s u →
    time96Ok (i.bank c.u c.bank).stamp = true →
    exec (.cuTrig u sub) s = .next (behindA s u .none (i.eventOccur (0xB0 + 2 * c.u + c.sel % 2) (ofTime96 (i.bank c.u c.bank).stamp) (i.qual 4)))) ∧
  (∀ (s : State) (u : Fin 16) (sub : Fin 2621440) (i : State) (c : CuSlot), IssuesA s u 0x2E → i = atIssue s u → c = nextA s u →
    time96Ok (i.bank c.u c.bank).stamp = false →
    exec (.cuTrig u sub) s = .next (behindA s u .none (i.eventOccur (0xB0 + 2 * c.u + c.sel % 2) (i.time + sub) (i.qual 2)))) ∧
  (∀ (s : State) (u : Fin 16) (sel : Nat) (i : State) (c : CuSlot), IssuesA s u 0x2F → i = atIssue s u → c = nextA s u →
    sel = (i.xa c).toNat % 512 →
    exec (.cuRdtrg u) s = .next (behindA s u .none (i.later c 4 (.x c.xd (if selOk sel && selLevel sel && i.condition sel then 1#32 else 0#32))))) ∧
  (∀ (s : State) (u : Fin 16) (i : State) (c : CuSlot), IssuesA s u 0x30 → i = atIssue s u → c = nextA s u →
    i.cuPort? c.u (c.sel % 2) = none →
    exec (.cuQpop u) s = .next (behindA s u .none (i.later c 4 (.x c.xd (0#32))))) ∧
  (∀ (s : State) (u : Fin 16) (q : Nat) (i : State) (c : CuSlot), IssuesA s u 0x30 → i = atIssue s u → c = nextA s u →
    i.cuPort? c.u (c.sel % 2) = some q →
    exec (.cuQpop u) s = .next (behindA s u .none ((i.popCell q c.u).2.later c 4 (.x c.xd (BitVec.ofNat 32 ((i.popCell q c.u).1.getD 0)))))) ∧
  (∀ (s : State) (u : Fin 16) (i : State) (c : CuSlot), IssuesA s u 0x31 → i = atIssue s u → c = nextA s u →
    4 ≤ (i.cu c.u).copies.length →
    exec (.cuQrd u) s = .next (behindA s u .none (i.later c 4 (.x c.xd (1#32))))) ∧
  (∀ (s : State) (u : Fin 16) (t : CellTag) (i : State) (c : CuSlot), IssuesA s u 0x31 → i = atIssue s u → c = nextA s u →
    (i.cu c.u).copies.length < 4 → bit (i.xb c).toNat 31 = true → i.poppedBy? c.u (i.xb c).toNat = some t →
    accessBad ((i.xa c).toNat / 256 * 256) 256 256 = false →
    exec (.cuQrd u) s = .next (behindA s u .none ((i.updCu c.u (fun x => { x with copies := x.copies ++ [⟨handleCell (i.xb c).toNat, (i.xa c).toNat / 256 * 256, t.data⟩] })).later c 4 (.x c.xd 0#32)))) ∧
  (∀ (s : State) (u : Fin 16) (t : CellTag) (i : State) (c : CuSlot), IssuesA s u 0x32 → i = atIssue s u → c = nextA s u →
    i.freeStatus c.u (i.xa c).toNat = 0 → SMap.find? i.cells (handleCell (i.xa c).toNat) = some t →
    exec (.cuQfree u) s = .next (behindA s u .none ((i.releaseCell (handleCell (i.xa c).toNat) t).later c 8 (.x c.xd 0#32)))) ∧
  (∀ (s : State) (u : Fin 16) (i : State) (c : CuSlot), IssuesA s u 0x33 → i = atIssue s u → c = nextA s u →
    4 ≤ (i.cu c.u).sends.length →
    exec (.cuSend u) s = .next (behindA s u .none (i.later c 4 (.x c.xd (1#32))))) ∧
  (∀ (s : State) (u : Fin 16) (b : List Byte) (i : State) (c : CuSlot), IssuesA s u 0x33 → i = atIssue s u → c = nextA s u →
    (i.cu c.u).sends.length < 4 → b = Mem.reads 0#8 (i.cu c.u).data (i.xa c).toNat 48 → (i.xa c).toNat % 8 = 0 →
    (i.xa c).toNat + 48 ≤ cuDataBytes → sendOk b = true →
    exec (.cuSend u) s = .next (behindA s u .none ((i.updCu c.u (fun x => { x with sends := x.sends ++ [⟨(i.xa c).toNat, c.bank, c.pc⟩] })).later c 4 (.x c.xd 0#32)))) ∧
  (∀ (s : State) (u : Fin 16) (i : State) (c : CuSlot), IssuesA s u 0x34 → i = atIssue s u → c = nextA s u →
    exec (.cuQstat u) s = .next (behindA s u .none (i.later c 1 (.x c.xd (BitVec.ofNat 32 ((i.cu c.u).copies.length % 8 + (i.cu c.u).sends.length % 8 * 16))))))

/-- The vector instructions of slot B. That VMSU, VMUL, VCMAC, VCMACJ and VSQ too are ILLEGAL after a complex one is in their meaning (`State.multiply`). -/
def Obligations.UnitVectorCommandsAct : Prop :=
  (∀ (s : State) (u : Fin 16) (x : State) (c : CuSlot), IssuesB s u 0x01 → x = afterA s u → c = nextB s u →
    exec (.cuVadd u) s = .next (behindB s u .none (x.narrow c 2 c.xd 1 false (vsum c.sh (x.va c) (x.vb c))))) ∧
  (∀ (s : State) (u : Fin 16) (x : State) (c : CuSlot), IssuesB s u 0x02 → x = afterA s u → c = nextB s u →
    exec (.cuVsub u) s = .next (behindB s u .none (x.narrow c 2 c.xd 1 false (vdiff c.sh (x.va c) (x.vb c))))) ∧
  (∀ (s : State) (u : Fin 16) (x : State) (c : CuSlot), IssuesB s u 0x03 → x = afterA s u → c = nextB s u →
    exec (.cuVmov u) s = .next (behindB s u .none (x.later c 2 (.v c.xd (x.va c) 0 false)))) ∧
  (∀ (s : State) (u : Fin 16) (x : State) (c : CuSlot), IssuesB s u 0x04 → x = afterA s u → c = nextB s u →
    exec (.cuVswap u) s = .next (behindB s u .none (x.later c 2 (.v c.xd ((List.range 8).map (fun l => (x.va c).getD (if l % 2 = 0 then l + 1 else l - 1) 0)) 0 false)))) ∧
  (∀ (s : State) (u : Fin 16) (x : State) (c : CuSlot), IssuesB s u 0x05 → x = afterA s u → c = nextB s u →
    exec (.cuVconj u) s = .next (behindB s u .none (x.narrow c 2 c.xd 1 false ((List.range 8).map (fun l => if l % 2 = 0 then (x.va c).getD l 0 else -(x.va c).getD l 0))))) ∧
  (∀ (s : State) (u : Fin 16) (x : State) (c : CuSlot), IssuesB s u 0x07 → x = afterA s u → c = nextB s u →
    exec (.cuVspl u) s = .next (behindB s u .none (x.later c 2 (.v c.xd (List.replicate 8 (sext 18 (x.xa c).toNat)) 0 false)))) ∧
  (∀ (s : State) (u : Fin 16) (x : State) (c : CuSlot), IssuesB s u 0x18 → x = afterA s u → c = nextB s u →
    exec (.cuAclr u) s = .next (behindB s u .none (x.later c 4 (.accSet c.ac (List.replicate 8 (0, false)))))) ∧
  (∀ (s : State) (u : Fin 16) (x : State) (c : CuSlot), IssuesB s u 0x19 → x = afterA s u → c = nextB s u →
    exec (.cuVnar u) s = .next (behindB s u .none (x.narrow c 3 c.xd 2 true ((List.range 8).map (fun l => ((x.bank c.u c.bank).acc c.acN l).1 / 2 ^ c.sh5))))) ∧
  (∀ (s : State) (u : Fin 16) (x : State) (c : CuSlot), IssuesB s u 0x1B → x = afterA s u → c = nextB s u →
    exec (.cuAxh u) s = .next (behindB s u .none (x.later c 3 (.x c.xd (BitVec.ofInt 32 (((x.bank c.u c.bank).acc c.acN c.lane).1 / 65536)))))) ∧
  (∀ (s : State) (u : Fin 16) (x : State) (c : CuSlot), IssuesB s u 0x1C → x = afterA s u → c = nextB s u →
    exec (.cuAxl u) s = .next (behindB s u .none (x.later c 3 (.x c.xd (BitVec.ofNat 32 (wrap 16 ((x.bank c.u c.bank).acc c.acN c.lane).1)))))) ∧
  (∀ (s : State) (u : Fin 16) (x : State) (c : CuSlot), IssuesB s u 0x06 → x = afterA s u → c = nextB s u → c.xd % 2 = 0 →
    exec (.cuVbf u) s = .next (behindB s u .none ((x.narrow c 2 c.xd 1 true (vsum c.sh (x.va c) (x.vb c))).narrow c 2 (c.xd + 1) 1 true (vdiff c.sh (x.va c) (x.vb c))))) ∧
  (∀ (s : State) (u : Fin 16) (x : State) (c : CuSlot), IssuesB s u 0x06 → x = afterA s u → c = nextB s u → c.xd % 2 = 1 →
    exec (.cuVbf u) s = .next (behindB s u .none (x.cuRaise c.u c.bank 0))) ∧
  (∀ (s : State) (u : Fin 16) (x : State) (c : CuSlot), IssuesB s u 0x08 → x = afterA s u → c = nextB s u →
    (s.cu u).mulBusy = false →
    exec (.cuVcmul u) s = .next (behindB s u .none ((x.narrow c 4 c.xd 1 true ((pairwise cmul (x.va c) (x.vb c)).map (fun p => p / 2 ^ (17 + c.sh)))).occupy c))) ∧
  (∀ (s : State) (u : Fin 16) (x : State) (c : CuSlot), IssuesB s u 0x08 → x = afterA s u → c = nextB s u →
    (s.cu u).mulBusy = true →
    exec (.cuVcmul u) s = .next (behindB s u .none (x.cuRaise c.u c.bank 0))) ∧
  (∀ (s : State) (u : Fin 16) (x : State) (c : CuSlot), IssuesB s u 0x10 → x = afterA s u → c = nextB s u →
    (s.cu u).mulBusy = false →
    exec (.cuVmac u) s = .next (behindB s u .none (x.later c 4 (.acc c.ac (List.zipWith (fun a b => a * b) (x.va c) (x.vb c)))))) ∧
  (∀ (s : State) (u : Fin 16) (x : State) (c : CuSlot), IssuesB s u 0x10 → x = afterA s u → c = nextB s u →
    (s.cu u).mulBusy = true →
    exec (.cuVmac u) s = .next (behindB s u .none (x.cuRaise c.u c.bank 0))) ∧
  (∀ (s : State) (u : Fin 16) (x : State) (c : CuSlot), IssuesB s u 0x11 → x = afterA s u → c = nextB s u →
    (s.cu u).mulBusy = false →
    exec (.cuVmsu u) s = .next (behindB s u .none (x.later c 4 (.acc c.ac (List.zipWith (fun a b => -(a * b)) (x.va c) (x.vb c)))))) ∧
  (∀ (s : State) (u : Fin 16) (x : State) (c : CuSlot), IssuesB s u 0x12 → x = afterA s u → c = nextB s u →
    (s.cu u).mulBusy = false →
    exec (.cuVmul u) s = .next (behindB s u .none (x.later c 4 (.accSet c.ac (List.zipWith (fun a b => (a * b, false)) (x.va c) (x.vb c)))))) ∧
  (∀ (s : State) (u : Fin 16) (x : State) (c : CuSlot), IssuesB s u 0x13 → x = afterA s u → c = nextB s u →
    (s.cu u).mulBusy = false →
    exec (.cuVcmac u) s = .next (behindB s u .none ((x.later c 4 (.acc c.ac (pairwise cmul (x.va c) (x.vb c)))).occupy c))) ∧
  (∀ (s : State) (u : Fin 16) (x : State) (c : CuSlot), IssuesB s u 0x14 → x = afterA s u → c = nextB s u →
    (s.cu u).mulBusy = false →
    exec (.cuVcmacj u) s = .next (behindB s u .none ((x.later c 4 (.acc c.ac (pairwise cmulJ (x.va c) (x.vb c)))).occupy c))) ∧
  (∀ (s : State) (u : Fin 16) (x : State) (c : CuSlot), IssuesB s u 0x15 → x = afterA s u → c = nextB s u →
    (s.cu u).mulBusy = false →
    exec (.cuVsq u) s = .next (behindB s u .none (x.later c 4 (.acc c.ac ((x.va c).map (fun a => a * a)))))) ∧
  (∀ (s : State) (u : Fin 16) (x : State) (c : CuSlot), IssuesB s u 0x1A → x = afterA s u → c = nextB s u → bit c.w 0 = false →
    exec (.cuAred u) s = .next (behindB s u .none (x.later c 4 (.accSet c.ac ([reduceLanes ((List.range 8).map (fun l => (x.bank c.u c.bank).acc c.ac l))] ++ List.replicate 7 (0, false))))))

/-- The commands of the drives and recordings. -/
def Obligations.DriveCommandsAct : Prop :=
  (∀ (s : State) (q : Fin 4096) (u : State), u = s.updQueue q (fun qu => { qu with barges := updFirst (fun b => b.visible < b.total) (fun b => { b with visible := b.visible + 1 }) qu.barges }) →

    (u.get (R.QUEUE_STAT.CONSUMER q) ≠ 3 → exec (.cellVisible q) s = .next u) ∧
    (u.get (R.QUEUE_STAT.CONSUMER q) = 3 → exec (.cellVisible q) s = .next (u.recPump (u.queue q).binder))) ∧
  (∀ (s : State) (r : Fin 8), s.recState r = 1 → s.get (R.NVME_REC_CLOSE.CLOSE_US r) ≠ 0 → (s.nvRec r).cur ≠ [] →
    (s.nvRec r).firstAt + 1000 * s.get (R.NVME_REC_CLOSE.CLOSE_US r) ≤ s.adv →
    exec (.chunkCloseTimer r) s = .next ((s.updNvRec r (fun x => { x with closing := true })).recPump r)) ∧
  (∀ (s : State) (r : Fin 8) (k i : Nat) (c : NvChunk) (w : NvWrite), (s.nvRec r).out.find? (fun c => c.number == k) = some c →
    c.writes.find? (fun w => w.index == i) = some w →
    (w.tries < s.get R.NVME_CTL.RETRY → exec (.writeCompletion r k i false) s = .next ((s.updNvRec r (fun x => { x with
        out := updFirst (fun c => c.number == k) (fun c => { c with
          writes := updFirst (fun w => w.index == i) (fun w => { w with tries := w.tries + 1, at_ := s.adv }) c.writes }) x.out })).sendWrite r c w)) ∧
    (s.get R.NVME_CTL.RETRY ≤ w.tries → exec (.writeCompletion r k i false) s =
      .next (((s.satInc (R.NVME_DRIVE_ERR.IOERR (s.slotDrive c.slot))).loseChunk r c).recPump r))) ∧
  (∀ (s : State) (r : Fin 8) (k i : Nat) (c : NvChunk) (w : NvWrite), (s.nvRec r).out.find? (fun c => c.number == k) = some c →
    c.writes.find? (fun w => w.index == i) = some w →
    ∃ u : State, u.regs = s.regs ∧ u.cells = s.cells ∧
      exec (.writeCompletion r k i true) s = .next ((u.freeCells ((c.cells.filter (fun e => decide (w.off < e.2 ∧ e.2 ≤ w.off + w.len))).map (fun e => e.1))).recPump r)) ∧
  (∀ (s : State) (ring index : Nat) (ok : Bool) (x : OrderRef × Nat × Nat) (rest : List (OrderRef × Nat × Nat)), takeFirst (fun (x : OrderRef × Nat × Nat) => x.1 == (ring, index)) s.nvme.trims = some (x, rest) →

    ∃ u, u = { s with nvme := { s.nvme with trims := rest } } ∧
      exec (.nvmeCommandCompletion (.trim ring index) false) s = .next ((u.satInc (R.NVME_DRIVE_ERR.IOERR x.2.1)).retireRef x.1 0x24 []) ∧
      exec (.nvmeCommandCompletion (.trim ring index) true) s =
        .next (u.retireRef x.1 (if (u.order? x.1).any (fun o => o.phase == .cancelling) then stPartial else stOk) [])) ∧
  (∀ (s : State) (ring index : Nat) (data : List Byte) (x : NvRead) (o : Order) (c : Nat × Nat × Nat), s.nvRead? (ring, index) = some x →
    s.order? (ring, index) = some o → x.cmd = some c →
    exec (.nvmeCommandCompletion (.read ring index data) true) s = .next (s.readTake o x c data)) ∧
  (∀ (s : State) (r slot : Fin 8) (l : List (Nat × Nat)), (s.nvRec r).flush = some l → l.any (fun e => e.1 == slot.val) = true →
    exec (.nvmeCommandCompletion (.flush r slot) true) s =
      .next ((s.updNvRec r (fun x => { x with flush := some (l.filter (fun e => e.1 != slot.val)) })).recPump r)) ∧
  (∀ (s : State) (p : Path) (d : Fin 2) (w : Word), Writable s p (R.NVME_PORT d) →
    exec (.nvmePortEnable p d w) s = .next (s.writeNvPort d w)) ∧
  (∀ (s : State) (n : Fin 8) (width : Fin 9) (rate : Fin 6), s.driveFitted n = true → s.driveState n = 0 →
    s.adv ≤ (s.nvPort (n / 4)).since + 100000000 →
    exec (.driveLinkUp n true width rate) s = .next ((s.put (R.NVME_DRIVE.STATE n) 1).setLink n width rate)) ∧
  (∀ (s : State) (n : Fin 8), s.driveState n = 1 →
    exec (.driveInitDone n (.class_ true)) s = .next ((s.put (R.NVME_DRIVE.STATE n) 2).updNvDrive n (fun x => { x with since := s.adv })) ∧
    exec (.driveInitDone n (.class_ false)) s = .next (s.driveFailed n 0)) ∧
  (∀ (s : State) (n : Fin 8) (tmo : BitVec 8) (mdts : Nat) (ns : List NvmeNs), s.driveState n = 2 →
    s.adv ≤ (s.nvDrive n).since + min (tmo.toNat * 500000000) 30000000000 →
    exec (.driveInitDone n (.ready tmo mdts ns)) s = .next (((((s.nvAdmin n initCommands).put (R.NVME_DRIVE.STATE n) 3).put
      (R.NVME_DRIVE.NSCNT n) (min 15 ns.length)).put (R.NVME_DRIVE.MDTS_KIB n) (min mdts 65535)).updNvDrive n (fun x => { x with ns := ns })) ∧
    exec (.driveInitDone n .failed) s = .next (s.driveFailed n 1)) ∧
  (∀ (s : State) (n : Fin 8), s.driveState n = 3 →
    (s.commandLate n = true → exec (.driveCommandTimeout n) s = .next (s.driveReset n)) ∧
    exec (.driveLinkDown n) s = .next ((s.driveReset n).setLink n 0 0) ∧ exec (.controllerFatalStatus n) s = .next (s.driveReset n)) ∧
  (∀ (s : State) (n : Fin 8) (width : Fin 9) (rate : Fin 6), s.driveState n = 4 → s.lkUp 2 = true →
    s.adv ≤ (s.nvDrive n).since + 5000000000 →
    exec (.driveResetDone n true width rate) s =
      .next ((((s.put (R.NVME_DRIVE.STATE n) 3).nvAdmin n initCommands).setLink n width rate).reissue n) ∧
    exec (.driveResetDone n false width rate) s = .next ((s.driveFailed n 2).endCommands n)) ∧
  (∀ (s : State) (n : Fin 8), s.driveState n ≠ 0 →
    exec (.nvmeDmaAccess n) s = .next ((s.send (.unsupported (8 + n))).raiseInst 256 n)) ∧
  (∀ (s : State) (p : Path) (j : Fin 8) (w : Word), Writable s p (R.NVME_SLOT j) →
    exec (.nvmeSlotEnable p j w) s = .next (s.writeNvSlot j w)) ∧
  (∀ (s : State) (p : Path) (r : Fin 8) (w : Word), Writable s p (R.NVME_REC_CFG r) →
    exec (.recordingEnable p r w) s = .next (s.writeRecCfg r w)) ∧
  (∀ (s : State) (p : Path) (r : Fin 8), Writable s p (R.NVME_REC_CFG.EN r).key →
    exec (.recordingStop p r) s = .next (s.stopRec r))

/-- The commands of the clocks and of the power modes. -/
def Obligations.ClockCommandsAct : Prop :=
  (∀ (s : State) (k : Fin 8) (a b diff : BitVec 8), k.val < 5 → diffMag a ≤ s.get R.CLK_LOCKCFG.LOCK_TOL →
    diffMag b ≤ s.get R.CLK_LOCKCFG.LOCK_TOL → diffMag diff ≤ s.get R.CLK_LOCKCFG.LOCK_TOL → s.pllPowered k = true →
    exec (.pllLockAcquired k a b diff) s = .next (((s.put (R.CLK_PLL.ON k) 1).put (R.CLK_PLL.LOCKED k) 1).put (R.CLK_PLL.DIFF k) diff.toNat)) ∧
  (∀ (s : State) (k : Fin 8) (a b diff : BitVec 8), 5 ≤ k.val → diffMag a ≤ s.get R.CLK_LOCKCFG.LOCK_TOL →
    diffMag b ≤ s.get R.CLK_LOCKCFG.LOCK_TOL → diffMag diff ≤ s.get R.CLK_LOCKCFG.LOCK_TOL →
    exec (.pllLockAcquired k a b diff) s = .next (s.pixelLocked (k - 5))) ∧
  (∀ (s : State) (k : Fin 5) (a diff : BitVec 8), s.get R.CLK_LOCKCFG.LOCK_TOL_LOSS < diffMag a →
    s.get R.CLK_LOCKCFG.LOCK_TOL_LOSS < diffMag diff → s.on (R.CLK_PLL.LOCKED k) = true →
    exec (.pllLockLoss k a diff) s = .next ((s.put (R.CLK_PLL.DIFF k) diff.toNat).lockLost k)) ∧
  (∀ (s : State), s.on R.CLK_REF.PRESENT = true →
    ∃ u, u = ((((s.put R.CLK_REF.PRESENT 0).put R.CLK_REF.AON_SRC 1).satInc R.CLK_REF.LOSSES).put R.TIME_STATUS.REF_LOST 1).raiseInst 416 0 ∧
      exec .refclkLoss s = .next ((({ u with clk := { u.clk with lostAt := some u.adv } }.lockLost 1).lockLost 2).lockLost pllSws)) ∧
  (∀ (s : State) (u : State), s.on R.CLK_REF.PRESENT = false →
    u = ((s.put R.CLK_REF.PRESENT 1).put R.CLK_REF.AON_SRC 0).put R.TIME_STATUS.REF_LOST 0 →
    (s.clk.protective = false → exec .refclkRestored s = .next { u with clk := {} }) ∧
    (s.clk.protective = true → exec .refclkRestored s =
      .next (State.raiseInst { { u with clk := {} } with power := { u.power with wake := some (u.power.wake.getD 6) } } 417 0))) ∧
  (∀ (s : State) (p : Path) (o : Fin 4) (w : Word), Writable s p (R.CLKOUT_CFG o) →
    exec (.clkoutEnable p o w) s = .next (s.writeClkout o w)) ∧
  (∀ (s : State) (p : Path) (w : Word), Writable s p R.SWS_CTL →
    exec (.swsRun p w) s = .next (s.writeSwsCtl ((w ||| 2#32) &&& ~~~4#32)) ∧ exec (.swsStop p w) s = .next (s.writeSwsCtl (w ||| 4#32))) ∧
  (∀ (s : State) (t : Nat), s.on R.SWS_STATUS.RUNNING = true → s.get R.SWS_CTL.ADV = 0 →
    t = s.sws.since + nsUnits (1000 * s.segDur (s.get R.SWS_STATUS.SEG)) → t ≤ s.advU 0 →
    exec .swsSegmentAdvance s = .next (s.swsAdvance t)) ∧
  (∀ (s : State) (t : Nat) (rest : List Nat), s.on R.SWS_STATUS.RUNNING = true → s.get R.SWS_CTL.ADV = 1 →
    s.sws.due = t :: rest → t < s.time + nsUnits 40 →
    ∃ u, u = { s with sws := { s.sws with due := rest } } ∧ exec .swsSegmentAdvance s = .next (u.swsAdvance (s.advAt t))) ∧
  (∀ (s : State), s.on R.SWS_STATUS.SETTLING = true → s.sws.settleAt ≤ s.advU 0 →
    ∃ t, exec .swsSettled s = .next t ∧ t.get R.SWS_STATUS.SETTLING = 0 ∧ OnlyRegs [R.SWS_STATUS] s t) ∧
  (∀ (s : State) (ring index : Nat) (o : Order), s.order? (ring, index) = some o → o.opcode = 0x0E02 → o.phase = .running →
    s.ns - o.aux ≤ 1000000 →
    exec (.fsRelockDone ring index true) s =
      .next (((s.fsWake (o.u 16 1)).put (R.CLK_PLL.LOCKED (1 + o.u 16 1)) 1).retireWith o stOk 0 [(36, leBytes 4 ((s.ns - o.aux) / 1000))])) ∧
  (∀ (s : State) (ring index : Nat) (o : Order), s.order? (ring, index) = some o → o.opcode = 0x0E02 → o.phase = .running →
    exec (.fsRelockDone ring index false) s =
      .next (((s.fsWake (o.u 16 1)).raiseInst 418 (1 + o.u 16 1)).retireWith o 0x2C 0 [(36, leBytes 4 ((s.ns - o.aux) / 1000))])) ∧
  (∀ (s : State) (p : Path) (r : Fin 4), Writable s p R.GLOBAL_PWRCTL →
    exec (.powerRequest p r) s = .next (s.writeReq r) ∧ exec (.powerCancel p) s = .next s.dropRequest) ∧
  (∀ (s : State) (r : PwrReq), s.power.req = some r →
    (s.climbingDeps ≠ [] → exec .powerRequestCarriedOut s = .next s.holdRequest) ∧
    (s.climbingDeps = [] → s.lkUp 0 = true → s.get R.LK_BOOT.ACT = 0 → s.power.entering = none → s.power.returning = none →
      exec .powerRequestCarriedOut s = .next (s.carryOut r))) ∧
  (∀ (s : State) (r : PwrReq), s.power.entering = some r → s.power.drained = false →
    (s.queuesEmpty = true → exec .sleepDrainEnd s = .next (State.parkAndRetire { s with power := { s.power with drained := true } } r stOk)) ∧
    (s.queuesEmpty = false → s.power.drainAt + 1000000 * s.get R.GLOBAL_PWRPOL.SLEEP_DRAIN ≤ s.adv →
      ∃ u q, q = { r with target := 1 } ∧ u = { s with power := { s.power with entering := some q, drained := true } } ∧
        exec .sleepDrainEnd s = .next (((u.put R.GLOBAL_PWRSTAT.SLEEP_HELD 1).raiseInst 419 0).parkAndRetire q 0x2D))) ∧
  (∀ (s : State) (r : PwrReq), s.power.entering = some r → s.power.drained = true →
    exec .modeEntryComplete s = .next (s.modeReached r)) ∧
  (∀ (s : State), s.power.wake.isSome = true → s.lowPower = true → s.power.entering = none → s.power.returning = none →
    s.monitor.tripped = false → s.on R.CLK_REF.PRESENT = true → s.lkUp 0 = true →
    exec .wakeCause s = .next (State.wakeLink (State.dropRequest { s with power := { s.power with returning := some s.adv } }))) ∧
  (∀ (s : State) (t : Nat), s.power.idleSince = some t → s.autoIdle = true → s.power.req = none →
    t + 1000000 * max 1 (s.get R.GLOBAL_PWRPOL.AUTO_AFTER) ≤ s.adv →
    (s.get R.GLOBAL_PWRPOL.AUTO_MODE = 1 → exec .autoPolicy s = .next (s.requestMode 1 none true)) ∧
    (s.get R.GLOBAL_PWRPOL.AUTO_MODE = 2 → (List.range 64).any (fun p => s.on (R.POUND_CFG.EN p)) = false →
      exec .autoPolicy s = .next (s.requestMode 0 none true)) ∧
    (s.get R.GLOBAL_PWRPOL.AUTO_MODE = 2 → (List.range 64).any (fun p => s.on (R.POUND_CFG.EN p)) = true →
      exec .autoPolicy s = .next (s.requestMode 1 none true))) ∧
  (∀ (s : State) (t : Nat), s.clk.lostAt = some t → s.on R.CLK_REF.PRESENT = false → t + 10000000 ≤ s.adv → s.lowPower = false →
    s.power.entering = none →
    ∃ u, u = { s.dropRequest with clk := { s.clk with protective := true } } ∧ exec .refclkHoldoverExpiry s = .next (u.carryOut ⟨1, none, false⟩)) ∧
  (∀ (s : State), s.pcie.linkUp = true → s.fw.ready = true →
    (s.pcie.d3hot0 = false → ∃ u, u = { s with pcie := { s.pcie with d3hot0 := true } } ∧
      exec (.powerStateChange 0 true) s = .next (u.requestMode 0 none false)) ∧
    (s.pcie.d3hot0 = true → ∃ u, u = { s with pcie := { s.pcie with d3hot0 := false } } ∧ exec (.powerStateChange 0 false) s = .next (u.wakeCause 5)) ∧
    exec (.powerStateChange 1 true) s = .next { s with pcie := { s.pcie with d3hot1 := true } }) ∧
  (∀ (s : State) (failed : List (Fin 6)) (t : Nat), s.power.returning = some t → s.lowPower = true →
    ((s.returned failed).on R.RING_STATUS.PARKED = false → exec (.returnComplete failed) s = .next (s.returned failed)) ∧
    ((s.returned failed).on R.RING_STATUS.PARKED = true → ∃ u, u = (s.returned failed).unpark ∧
      exec (.returnComplete failed) s = .next { u with lookout := { u.lookout with pollNow := true } }))

/-- The firmware's services. The order of the checks BAD_SERVICE, NOT_PERMITTED, BAD_LEN is the model's choice (log entry 94). -/
def Obligations.FirmwareServiceCommandsAct : Prop :=
  (∀ (s : State) (ch : Fin 16) (tag : Nat) (rest : List Word) (u : State), Asks s ch 0x01 tag [] rest → u = askTaken s ch rest →
    exec (.version ch) s = .next (u.reply ch 0x01 tag 0 [mword ((u.fw.image.map FwImage.version).getD 0),
      mword ((u.fw.image.map FwImage.svn).getD 0), mword u.fw.minSvn, mword (((u.flash.slot (1 - u.get R.LK_BOOT.SLOT)).map FwImage.version).getD 0)])) ∧
  (∀ (s : State) (ch : Fin 16) (tag : Nat) (rest : List Word) (u : State), Asks s ch 0x02 tag [] rest → u = askTaken s ch rest →
    exec (.health ch) s = .next (u.reply ch 0x02 tag 0 [u.word (R.LK_STATUS 0), u.word (R.LK_STATUS 1), u.word (R.LK_STATUS 2), u.word (R.LK_STATUS 3)])) ∧
  (∀ (s : State) (ch : Fin 16) (tag : Nat) (data rest : List Word) (u : State), Asks s ch 0x03 tag data rest →
    u = askTaken s ch rest →
    (ch.val < 8 → exec (.fwActivate ch) s = .next (u.reply ch 0x03 tag 3 [])) ∧
    (8 ≤ ch.val → data ≠ [] → exec (.fwActivate ch) s = .next (u.reply ch 0x03 tag 2 [])) ∧
    (8 ≤ ch.val → data = [] → u.lowPower = false → u.fw.act = none → u.get R.FWS_STATUS.STATE = 0 ∨ u.get R.FWS_STATUS.STATE = 4 →
      u.fw.staged.isSome = true → ∀ k todo, ∃ v a : _, v = (u.updMbx ch (fun m => { m with busy := some (0x03, tag) })).put R.LK_BOOT.ACT 1 ∧
      a = ({ channel := ch, current := k, since := v.ns, todo := todo } : Activation) ∧ ([3, 2, 1, 0].filter (fun k => v.lkState k != 4) = k :: todo →
        exec (.fwActivate ch) s = .next ({ v with fw := { v.fw with act := some a } }.lkRestart k)))) ∧
  (∀ (s : State) (ch : Fin 16) (tag : Nat) (data rest : List Word) (u : State), Asks s ch 0x04 tag data rest →
    u = askTaken s ch rest →
    (ch.val < 8 → exec (.fwCommit ch) s = .next (u.reply ch 0x04 tag 3 [])) ∧
    (8 ≤ ch.val → data ≠ [] → exec (.fwCommit ch) s = .next (u.reply ch 0x04 tag 2 [])) ∧
    (∀ r, 8 ≤ ch.val → data = [] → u.flash.inForce = some r →
      exec (.fwCommit ch) s = .next (((u.writeRecord r.active 0 0).put R.LK_BOOT.TRIAL 0).reply ch 0x04 tag 0 []))) ∧
  (∀ (s : State) (ch : Fin 16) (tag : Nat) (rest : List Word) (u : State), 8 ≤ ch.val → Asks s ch 0x05 tag [] rest →
    u = askTaken s ch rest → u.flash.inForce = none →
    ∃ m, m = max u.fw.minSvn ((u.fw.image.map FwImage.svn).getD 0) ∧
      exec (.svnCommit ch) s = .next (State.reply { u with fw := { u.fw with minSvn := m } } ch 0x05 tag 0 [mword m])) ∧
  (∀ (s : State) (ch : Fin 16) (tag : Nat) (rest : List Word) (off w : Word) (ws : List Word) (u : State), 8 ≤ ch.val →
    Asks s ch 0x06 tag (off :: w :: ws) rest → u = askTaken s ch rest →
    off.toNat + ((w :: ws).flatMap (fun w => leBytes 4 w.toNat)).length ≤ 65536 →
    exec (.cfgWrite ch) s = .next ((u.writeConfig off.toNat ((w :: ws).flatMap (fun w => leBytes 4 w.toNat))).reply ch 0x06 tag 0 [])) ∧
  (∀ (s : State) (ch : Fin 16) (tag : Nat) (rest : List Word) (n : Word) (u : State), Asks s ch 0x08 tag [n] rest →
    u = askTaken s ch rest → n.toNat ≠ 0 → n.toNat ≤ 63 →
    ∃ r, r = u.fresh.2.freshWords (4 * (u.fresh.1 % (n.toNat + 1))) ∧ exec (.logRead ch) s = .next (r.2.reply ch 0x08 tag 0 r.1)) ∧
  (∀ (s : State) (ch : Fin 16) (code tag : Nat) (data rest : List Word), Asks s ch code tag data rest → code ∉ knownServices →
    exec (.unknownService ch) s = .next ((askTaken s ch rest).reply ch code tag 1 [])) ∧
  (∀ (s : State) (ch : Fin 16) (tag : Nat) (rest : List Word) (u : State), 8 ≤ ch.val → Asks s ch 0x10 tag [] rest →
    u = askTaken s ch rest →
    exec (.pnlInfo ch) s = .next (u.reply ch 0x10 tag 0 [mword u.pnlW, mword u.pnlH, u.word R.PNL_STATUS])) ∧
  (∀ (s : State) (ch : Fin 16) (tag : Nat) (rest : List Word) (v : Word) (u : State), 8 ≤ ch.val → Asks s ch 0x11 tag [v] rest →
    u = askTaken s ch rest →
    (v.toNat ≤ 1 → exec (.pnlOwner ch) s = .next ((u.put R.PNL_STATUS.OWNER v.toNat).reply ch 0x11 tag 0 [])) ∧
    (1 < v.toNat → exec (.pnlOwner ch) s = .next (u.reply ch 0x11 tag 5 []))) ∧
  (∀ (s : State) (ch : Fin 16) (tag : Nat) (data rest : List Word) (u : State), 8 ≤ ch.val → Asks s ch 0x12 tag data rest →
    u = askTaken s ch rest → (rectOf data).2.2.1 * (rectOf data).2.2.2 ≤ 506 →
    data.length = 2 + ((rectOf data).2.2.1 * (rectOf data).2.2.2 + 1) / 2 →
    ∃ r, r = u.pnlRect data (fun i j => bits ((data.drop 2).getD ((j * (rectOf data).2.2.1 + i) / 2) 0).toNat (16 * ((j * (rectOf data).2.2.1 + i) % 2)) 16) ∧
      exec (.pnlBlit ch) s = .next (r.2.2.reply ch 0x12 tag r.1 r.2.1)) ∧
  (∀ (s : State) (ch : Fin 16) (tag : Nat) (a b v : Word) (rest : List Word) (u : State), 8 ≤ ch.val →
    Asks s ch 0x13 tag [a, b, v] rest → u = askTaken s ch rest →
    ∃ r, r = u.pnlRect [a, b, v] (fun _ _ => bits v.toNat 0 16) ∧ exec (.pnlFill ch) s = .next (r.2.2.reply ch 0x13 tag r.1 r.2.1)) ∧
  (∀ (s : State) (ch : Fin 16) (tag : Nat) (rest : List Word) (u : State), 8 ≤ ch.val → Asks s ch 0x14 tag [] rest →
    u = askTaken s ch rest → s.pnlCanPush = true → u.pnlCanPush = true →
    exec (.pnlPush ch) s = .next (u.pnlPush.reply ch 0x14 tag 0 []))

/-- The commands of the mailboxes, the boot and the lock-keepers. -/
def Obligations.MailboxAndBootCommandsAct : Prop :=
  (∀ (s : State) (part : Option FlashPart) (u : State), s.lkState 0 = 0 →
    u = (((s.flashed part).deviceReset.holdMemory).put (R.LK_STATUS.STATE 0) 1).put R.LK_BOOT.STRAP_BOOT (s.get R.GLOBAL_STRAPS.BOOT) →

    (s.get R.GLOBAL_STRAPS.BOOT = 0 → exec (.boot part) s = .next u.bootByRecord) ∧
    (s.get R.GLOBAL_STRAPS.BOOT = 1 → exec (.boot part) s = .next (u.bootForced 0)) ∧
    (s.get R.GLOBAL_STRAPS.BOOT = 2 → exec (.boot part) s = .next (u.bootForced 1)) ∧
    (s.get R.GLOBAL_STRAPS.BOOT = 3 → exec (.boot part) s = .next u.bootRecovery)) ∧
  (∀ (s : State) (p : Path) (ch : Fin 16) (w : Word), mbxPath ch = some p → mbxKey ch = none →
    exec (.mailboxInWrite p ch w) s = .next (s.mbxIn ch w)) ∧
  (∀ (s : State) (p : Path) (ch : Fin 16) (w : Word) (k : Nat), mbxPath ch = some p → mbxKey ch = some k → Writable s p k →
    exec (.mailboxInWrite p ch w) s = .next (s.mbxIn ch w)) ∧
  (∀ (s : State) (p : Path) (ch : Fin 16), mbxPath ch = some p → mbxKey ch = none →
    exec (.mailboxOutRead p ch) s = .next ((s.mbxOut ch).2.send (.reply p 0x2000204 (s.mbxOut ch).1))) ∧
  (∀ (s : State) (p : Path) (ch : Fin 16) (k : Nat), mbxPath ch = some p → mbxKey ch = some k →
    exec (.mailboxOutRead p ch) s = .next (s.readGate p (k + 4) (fun s => (s.mbxOut ch).2.send (.reply p (k + 4) (s.mbxOut ch).1)))) ∧
  (∀ (s : State) (p : Path) (ch : Fin 16) (k : Nat), mbxPath ch = some p → mbxKey ch = some k → Writable s p (k + 12) →
    exec (.retract p ch) s = .next (s.retract ch)) ∧
  (∀ (s : State) (ch : Fin 16) (ws : List Word), s.lkUp 0 = true → (s.mbx ch).inFull = true → (s.mbx ch).inbox.length < 512 →
    ws = (s.mbx ch).inbox ++ [(s.mbx ch).inWord] →
    exec (.firmwareInRead ch) s = .next ((s.updMbx ch (fun m => { m with inFull := false, inWord := 0, inbox := dropOther ws.length ws })).mbxIrq ch true)) ∧
  (∀ (s : State) (ch : Fin 16) (w : Word) (ws : List Word), s.lkUp 0 = true → (s.mbx ch).outbox = w :: ws →
    (s.mbx ch).outFull = false →
    exec (.firmwareOutWrite ch) s = .next (((s.updMbx ch (fun m => { m with outFull := true, outWord := w, outbox := ws })).mbxIrq ch false).wakeCause 3)) ∧
  (∀ (s : State), s.lkState 0 = 1 →
    (s.on R.LK_BOOT.RECOVERY = false → exec .firmwareReady s = .next s.firmwareStarts) ∧
    (s.on R.LK_BOOT.RECOVERY = true → exec .firmwareReady s = .next { s with fw := { s.fw with recovered := true } })) ∧
  (∀ (s : State) (k : Fin 4) (past : List Nat) (u v : State), s.lkState k = 2 →
    past = ((SMap.find? s.fw.wdog k.val).getD []).filter (fun t => decide (s.ns < t + 3600000000000)) →
    u = ((s.raiseInst 483 k).lkRestart k).satInc (R.LK_STATUS.WDOG k) →
    v = { u with fw := { u.fw with wdog := SMap.put u.fw.wdog k.val (u.ns :: past), lk0Wd := u.fw.lk0Wd || k.val == 0 } } →
    (past.length < 2 → exec (.watchdogExpiry k) s = .next v) ∧
    (2 ≤ past.length → exec (.watchdogExpiry k) s = .next ((v.put (R.LK_STATUS.STATE k) 4).raiseInst 484 k))) ∧
  (∀ (s u v : State) (k : Fin 4) (a b : Activation), s.fw.act = some a → a.current = k → a.since + 50000000 ≤ s.ns →
    s.lkState k = 3 ∨ s.lkState k = 4 → b = { a with since := s.ns, rolling := true } →
    u = { s with fw := { s.fw with act := some b } } →
    v = (if a.rolling = true then u else (u.put R.LK_BOOT.ACT 2).raiseInst 485 k) →
    (v.lkState k ≠ 4 → exec (.lkRestartTimeout k) s = .next v) ∧
    (v.lkState k = 4 → exec (.lkRestartTimeout k) s = .next (v.activationStep b))) ∧
  (∀ (s : State) (p : Path), Writable s p R.FWS_CTL →
    exec (.fwsVerify p) s = .next (s.stagingGo 0) ∧ exec (.fwsWrite p) s = .next (s.stagingGo 1) ∧ exec (.fwsRun p) s = .next (s.stagingGo 2)) ∧
  (∀ (s t v : State) (img : FwImage) (fl : Bool), s.get R.FWS_STATUS.STATE = 1 → s.lk0Serves = true →
    t = s.readDone 1 s.stagingAddr (s.get R.FWS_LEN.LEN) → v = t.put R.FWS_VER.VERSION img.version →
    (t.fw.fetchBad = true → exec (.stagingDone img fl) s = .next (t.stagingFails 2)) ∧
    (t.fw.fetchBad = false → img.fault t.fw.minSvn ≠ 0 → exec (.stagingDone img fl) s = .next (t.stagingFails (img.fault t.fw.minSvn))) ∧
    (t.fw.fetchBad = false → img.fault t.fw.minSvn = 0 → v.fw.stageOp = 0 → exec (.stagingDone img fl) s = .next
      (((State.put { v with fw := { v.fw with staged := some img } } R.FWS_STATUS.STATE 4).put R.FWS_STATUS.RESULT 0).irq 133)) ∧
    (t.fw.fetchBad = false → img.fault t.fw.minSvn = 0 → v.fw.stageOp = 2 → exec (.stagingDone img fl) s = .next
      ((((State.firmwareStarts { v with fw := { v.fw with staged := some img, image := some img } }).put R.FWS_STATUS.STATE 4).put
        R.FWS_STATUS.RESULT 0).irq 133))) ∧
  (∀ (s : State) (k : Fin 4) (u : State), u = s.lkReady k → s.lkUp k = false → u.lkUp k = true →
    exec (.lkReady k) s = .next (u.dutiesDue k))

/-- The commands of the display. -/
def Obligations.DisplayCommandsAct : Prop :=
  (∀ (s : State) (p : Path) (h : Fin 2) (w : Word), Writable s p (R.DISP_CTL h) →
    exec (.dispEnable p h w) s = .next (s.writeDispCtl h w) ∧ exec (.commit p h) s = .next (s.commitHead h)) ∧
  (∀ (s : State) (h : Fin 2), s.headState h = 1 →
    exec (.hpdPlug h) s = .next ((s.put (R.DISP_STATUS.HPD h) 1).trainHead h)) ∧
  (∀ (s : State) (h : Fin 2) (lost : Bool), s.headState h = 3 →
    exec (.hpdUnplug h) s = .next (((s.put (R.DISP_STATUS.HPD h) 0).updHead h (fun x => { x with sink := none })).setHead h 1) ∧
    exec (.hpdIrq h true) s = .next (s.trainHead h)) ∧
  (∀ (s : State) (h : Fin 2) (rate : Fin 5) (lanes : Fin 5) (l : Nat) (u : State), s.headState h = 2 → s.lkUp 3 = true →
    u = s.updHead h (fun x => { x with sink := some (rate.val, lanes.val) }) →
    dpLanes (u.headGet h (R.DISP_PCLK.PCLK_KHZ h)) rate lanes = some l →
    exec (.dispTrainingDone h rate lanes true) s = .next ((((u.setHead h 3).put (R.DISP_STATUS.LANES h) (if l = 4 then 3 else l)).put
      (R.DISP_STATUS.RATE h) rate).updHead h (fun x => { x with attempts := 0, line := none })) ∧
    ((u.head h).attempts < 2 → exec (.dispTrainingDone h rate lanes false) s = .next (u.updHead h (fun x => { x with attempts := x.attempts + 1 }))) ∧
    (2 ≤ (u.head h).attempts → exec (.dispTrainingDone h rate lanes false) s = .next (u.headFails h))) ∧
  (∀ (s : State) (h : Fin 2) (u : State), s.headState h = 3 → (s.head h).line = none → u = s.blankingBegins h →
    (u.on (R.DISP_STATUS.COMMIT_PEND h) = false → exec (.verticalBlankingStart h) s = .next (u.beginFrame h)) ∧
    (u.on (R.DISP_STATUS.COMMIT_PEND h) = true → (u.copyShadow h).1 = false →
      exec (.verticalBlankingStart h) s = .next ((u.copyShadow h).2.beginFrame h))) ∧
  (∀ (s : State) (h : Fin 2), s.headState h = 3 → (s.head h).line = some (s.activeLines h) →
    (s.blankingBegins h).on (R.DISP_STATUS.COMMIT_PEND h) = false →
    exec (.verticalBlankingStart h) s = .next ((s.blankingBegins h).beginFrame h)) ∧
  (∀ (s : State) (h : Fin 2) (supplied : Fin 3841) (y : Nat), s.headState h = 3 → (s.head h).line = some y →
    y < s.activeLines h →
    exec (.activeLineStart h supplied) s = .next (s.sendLine h y supplied)) ∧
  (∀ (s : State) (ring index : Nat) (o : Order) (bs : List Byte) (u : State), s.order? (ring, index) = some o →
    o.opcode = 0x0F01 → o.phase ≠ .cancelling →
    u = (s.writeHost (o.u 24 8 + o.done) (overlay (List.replicate 16 0#8) 0 (bs.take 16)) []).updOrder o.ref (fun x => { x with phase := .running, done := o.done + 16, aux := 0 }) →

    (o.done + 16 < 128 * o.u 18 1 → exec (.auxTransactionDone ring index (some bs)) s = .next u) ∧
    (128 * o.u 18 1 ≤ o.done + 16 → exec (.auxTransactionDone ring index (some bs)) s = .next (u.edidEnd o stOk (o.done + 16))) ∧
    (o.aux < 3 → exec (.auxTransactionDone ring index none) s = .next (s.updOrder o.ref (fun o => { o with aux := o.aux + 1 }))) ∧
    (3 ≤ o.aux → exec (.auxTransactionDone ring index none) s = .next (s.edidEnd o 0x2E o.done))) ∧
  (∀ (s : State) (w : Word), Writable s .mgmt R.PNL_CFG →
    exec (.pnlEnable .mgmt w) s = .next (s.writePnlCfg w)) ∧
  (∀ (s : State) (id : Word) (u : State), s.pnlState = 1 → s.lkUp 3 = true → s.panel.since + 240010000 ≤ s.ns →
    u = ((s.send (.frame 6 0 [0x11#8])).send (.frame 6 0 [0x3A#8])).send (.frame 6 0 [0x04#8]) →
    (id = 0 → exec (.pnlInitComplete id) s = .next ((u.put R.PNL_STATUS.STATE 3).raiseInst 452 0)) ∧
    (id ≠ 0 → id ≠ 0xFFFFFFFF#32 → exec (.pnlInitComplete id) s =
      .next (((u.send (.frame 6 0 [0x29#8])).put R.PNL_STATUS.STATE 2).pnlAllDirty.pnlPush))) ∧
  (∀ (s : State), s.get R.PNL_PERIOD.PERIOD_MS ≠ 0 → s.pnlCanPush = true →
    s.panel.since + 1000000 * s.get R.PNL_PERIOD.PERIOD_MS ≤ s.ns →
    exec .pnlPushTimer s = .next s.pnlPush)

/-- The commands of the power modes. -/
def Obligations.PowerCommandsAct : Prop :=
  (∀ (s : State) (p : Path) (r : Fin 4), Writable s p R.GLOBAL_PWRCTL →
    exec (.powerRequest p r) s = .next (s.writeReq r) ∧ exec (.powerCancel p) s = .next s.dropRequest) ∧
  (∀ (s : State) (r : PwrReq), s.power.req = some r →
    (s.climbingDeps ≠ [] → exec .powerRequestCarriedOut s = .next s.holdRequest) ∧
    (s.climbingDeps = [] → s.lkUp 0 = true → s.get R.LK_BOOT.ACT = 0 → s.power.entering = none → s.power.returning = none →
      exec .powerRequestCarriedOut s = .next (s.carryOut r))) ∧
  (∀ (s : State) (r : PwrReq), s.power.entering = some r → s.power.drained = false →
    (s.queuesEmpty = true → exec .sleepDrainEnd s = .next (State.parkAndRetire { s with power := { s.power with drained := true } } r stOk)) ∧
    (s.queuesEmpty = false → s.power.drainAt + 1000000 * s.get R.GLOBAL_PWRPOL.SLEEP_DRAIN ≤ s.adv →
      ∃ u q, q = { r with target := 1 } ∧ u = { s with power := { s.power with entering := some q, drained := true } } ∧
        exec .sleepDrainEnd s = .next (((u.put R.GLOBAL_PWRSTAT.SLEEP_HELD 1).raiseInst 419 0).parkAndRetire q 0x2D))) ∧
  (∀ (s : State) (r : PwrReq), s.power.entering = some r → s.power.drained = true →
    exec .modeEntryComplete s = .next (s.modeReached r)) ∧
  (∀ (s : State), s.power.wake.isSome = true → s.lowPower = true → s.power.entering = none → s.power.returning = none →
    s.monitor.tripped = false → s.on R.CLK_REF.PRESENT = true → s.lkUp 0 = true →
    exec .wakeCause s = .next (State.wakeLink (State.dropRequest { s with power := { s.power with returning := some s.adv } }))) ∧
  (∀ (s : State) (t : Nat), s.power.idleSince = some t → s.autoIdle = true → s.power.req = none →
    t + 1000000 * max 1 (s.get R.GLOBAL_PWRPOL.AUTO_AFTER) ≤ s.adv →
    (s.get R.GLOBAL_PWRPOL.AUTO_MODE = 1 → exec .autoPolicy s = .next (s.requestMode 1 none true)) ∧
    (s.get R.GLOBAL_PWRPOL.AUTO_MODE = 2 → (List.range 64).any (fun p => s.on (R.POUND_CFG.EN p)) = false →
      exec .autoPolicy s = .next (s.requestMode 0 none true)) ∧
    (s.get R.GLOBAL_PWRPOL.AUTO_MODE = 2 → (List.range 64).any (fun p => s.on (R.POUND_CFG.EN p)) = true →
      exec .autoPolicy s = .next (s.requestMode 1 none true))) ∧
  (∀ (s : State) (t : Nat), s.clk.lostAt = some t → s.on R.CLK_REF.PRESENT = false → t + 10000000 ≤ s.adv → s.lowPower = false →
    s.power.entering = none →
    ∃ u, u = { s.dropRequest with clk := { s.clk with protective := true } } ∧ exec .refclkHoldoverExpiry s = .next (u.carryOut ⟨1, none, false⟩)) ∧
  (∀ (s : State), s.pcie.linkUp = true → s.fw.ready = true →
    (s.pcie.d3hot0 = false → ∃ u, u = { s with pcie := { s.pcie with d3hot0 := true } } ∧
      exec (.powerStateChange 0 true) s = .next (u.requestMode 0 none false)) ∧
    (s.pcie.d3hot0 = true → ∃ u, u = { s with pcie := { s.pcie with d3hot0 := false } } ∧ exec (.powerStateChange 0 false) s = .next (u.wakeCause 5)) ∧
    exec (.powerStateChange 1 true) s = .next { s with pcie := { s.pcie with d3hot1 := true } }) ∧
  (∀ (s : State) (failed : List (Fin 6)) (t : Nat), s.power.returning = some t → s.lowPower = true →
    ((s.returned failed).on R.RING_STATUS.PARKED = false → exec (.returnComplete failed) s = .next (s.returned failed)) ∧
    ((s.returned failed).on R.RING_STATUS.PARKED = true → ∃ u, u = (s.returned failed).unpark ∧
      exec (.returnComplete failed) s = .next { u with lookout := { u.lookout with pollNow := true } }))

/-- The commands of housekeeping and of protection. -/
def Obligations.HousekeepingCommandsAct : Prop :=
  (∀ (s : State) (m : Fin 4) (v : BitVec 16) (raw : BitVec 12) (ch : Nat) (rest : List Nat), m.val = 0 →
    (s.hkSeq m).running = ch :: rest → (s.hkSeq m).nextAt ≤ s.ns → unusedChannel ch = false →
    exec (.hkConversion m v raw) s = .next ((s.updHkSeq m (fun q => { q with running := rest, nextAt := q.nextAt + 1000 })).hkResult m ch v.toNat raw.toNat)) ∧
  (∀ (s : State) (m : Fin 4) (v : BitVec 16) (raw : BitVec 12) (ch : Nat), m.val ≠ 0 → (s.hkSeq m).running = [ch] →
    (s.hkSeq m).nextAt ≤ s.ns → unusedChannel ch = false →
    exec (.hkConversion m v raw) s = .next ((State.inc (s.updHkSeq m (fun q => { q with running := [], nextAt := q.nextAt + 1000 }))
      (R.HK_SEQ_STAT.DONE (m - 1))).hkResult m ch v.toNat raw.toNat)) ∧
  (∀ (s : State) (m : Fin 4), (s.hkSeq m).pendingStart = true → s.hkBlocked m = false →
    exec (.hkSequenceStart m) s = .next (s.hkBegin m)) ∧
  (∀ (s : State) (u : State), (s.hkSeq 0).pendingStart = false → s.fw.ready = true → s.hkDue? 0 = some u →
    exec (.hkSequenceStart 0) s = .next (u.hkStart 0)) ∧
  (∀ (s : State) (p : Path) (m : Fin 3), Writable s p (R.HK_SEQ_CTL m) →
    exec (.hkGo p m) s = .next (s.hkGo (m + 1))) ∧
  (∀ (s : State) (i : Fin 4), s.on (R.HK_PWM.EN i) = true →
    (SMap.find? s.pwms i.val = none → exec (.pwmPeriodStart i) s = .next (s.pwmPeriod i s.ns (max 2 (s.get (R.HK_PWM.PERIOD i))) (s.get (R.HK_PWM.HIGH i)) false)) ∧
    (∀ x, SMap.find? s.pwms i.val = some x → x.since + 40 * x.period ≤ s.ns → x.wroteAt < x.since + 40 * x.period →
      exec (.pwmPeriodStart i) s = .next (s.pwmPeriod i (x.since + 40 * x.period) (max 2 (s.get (R.HK_PWM.PERIOD i))) (s.get (R.HK_PWM.HIGH i))
        (decide (x.period ≤ x.high))))) ∧
  (∀ (s : State) (pre : Bool) (ch : Nat) (u : State), s.monitor.emergDue = some ch →
    u = State.satInc (State.put { s with monitor := { s.monitor with emergDue := none } } R.GLOBAL_PROT.EMERG 1) R.GLOBAL_PROT.ACTIONS →

    exec (.thermalEmergency pre) s = .next ((u.raise 420 ch (protInfo ch pre)).forceAll 0)) ∧
  (∀ (s : State) (pre : Bool) (ch : Nat) (u : State), s.monitor.supplyDue = some ch →
    u = (State.satInc (State.put (State.put { s with monitor := { s.monitor with supplyDue := none } } R.GLOBAL_PROT.SUPPLY 1) R.GLOBAL_PROT.RAIL ch) R.GLOBAL_PROT.ACTIONS).raise 421 ch (protInfo ch pre) →

    (ch = 21 ∨ ch = 22 → exec (.supplyFault pre) s = .next (u.forceConverters 1)) ∧
    (ch = 16 ∨ ch = 18 ∨ ch = 19 ∨ ch = 20 → exec (.supplyFault pre) s = .next (u.forceAll 1)) ∧
    (ch ∉ [16, 18, 19, 20, 21, 22] → exec (.supplyFault pre) s = .next u)) ∧
  (∀ (s : State) (p : Path), Writable s p R.GLOBAL_PROT →
    exec (.emergClear p) s = .next s.emergClear ∧ exec (.supplyClear p) s = .next s.supplyClear)

/-- The reads of registers. -/
def Obligations.RegisterReadsAct : Prop :=
  (∀ (s : State) (p : Path) (k : Nat), k = R.CONV_SYNC_T0 → pathCarries p k = true → s.reaches p k = true →
    (s.retained k = false → exec (.convSyncT0Read p) s =
      .next ((latch2 s p k (s.word (k + 4)) (s.word (k + 8))).send (.reply p k (s.word k)))) ∧
    (s.retained k = true → exec (.convSyncT0Read p) s = .next (s.send (.reply p k (s.rwBits k))))) ∧
  (∀ (s : State) (p : Path) (n : Fin 4) (k : Nat), k = R.ADC_SCNT_LO n → pathCarries p k = true → s.reaches p k = true →
    (s.retained k = false → exec (.adcScntLoRead p n) s =
      .next ((latch1 s p k (BitVec.ofNat 32 ((s.adc n).count / 2 ^ 32))).send (.reply p k (BitVec.ofNat 32 (s.adc n).count)))) ∧
    (s.retained k = true → exec (.adcScntLoRead p n) s = .next (s.send (.reply p k (s.rwBits k))))) ∧
  (∀ (s : State) (p : Path) (k : Nat), k = 0x4000000 + 0x40 * s.get R.QUEUE_SEL.QUEUE + 0x28 → pathCarries p 0x90028 = true →
    s.reaches p 0x90028 = true →
    (s.lowPower = false → exec (.queueTearbase0Read p) s =
      .next ((latch2 s p 0x90028 (s.word (k + 4)) (s.word (k + 8))).send (.reply p 0x90028 (s.word k)))) ∧
    (s.lowPower = true → exec (.queueTearbase0Read p) s = .next (s.send (.reply p 0x90028 (s.rwBits k))))) ∧
  (∀ (s : State) (p : Path) (n : Fin 8) (k : Nat), k = R.NVME_SLOT_CAP_LO n → pathCarries p k = true → s.reaches p k = true →
    (s.retained k = false → exec (.nvmeSlotCapRead p n) s =
      .next ((latch1 s p k (s.word (k + 4))).send (.reply p k (s.word k)))) ∧
    (s.retained k = true → exec (.nvmeSlotCapRead p n) s = .next (s.send (.reply p k (s.rwBits k))))) ∧
  (∀ (s : State) (p : Path) (n : Fin 8) (k : Nat), k = R.NVME_REC_CHUNK_LO n → pathCarries p k = true → s.reaches p k = true →
    (s.retained k = false → exec (.nvmeRecChunkRead p n) s =
      .next ((latch1 s p k (s.word (k + 4))).send (.reply p k (s.word k)))) ∧
    (s.retained k = true → exec (.nvmeRecChunkRead p n) s = .next (s.send (.reply p k (s.rwBits k))))) ∧
  (∀ (s : State) (p : Path) (n : Fin 8) (k : Nat), k = R.NVME_REC_TREC0 n → pathCarries p k = true → s.reaches p k = true →
    (s.retained k = false → exec (.nvmeRecTrecRead p n) s =
      .next ((latch2 s p k (s.word (k + 4)) (s.word (k + 8))).send (.reply p k (s.word k)))) ∧
    (s.retained k = true → exec (.nvmeRecTrecRead p n) s = .next (s.send (.reply p k (s.rwBits k))))) ∧
  (∀ (s : State) (p : Path) (n : Fin 8) (k : Nat), k = R.SG_T0 n → pathCarries p k = true → s.reaches p k = true →
    (s.retained k = false → exec (.sgT0Read p n) s =
      .next ((latch2 s p k (s.word (k + 4)) (s.word (k + 8))).send (.reply p k (s.word k)))) ∧
    (s.retained k = true → exec (.sgT0Read p n) s = .next (s.send (.reply p k (s.rwBits k))))) ∧
  (∀ (s : State) (p : Path) (n : Fin 8) (k : Nat), k = R.SG_PLAYED_LO n → pathCarries p k = true → s.reaches p k = true →
    (s.retained k = false → exec (.sgPlayedLoRead p n) s =
      .next ((latch1 s p k (s.word (k + 4))).send (.reply p k (s.word k)))) ∧
    (s.retained k = true → exec (.sgPlayedLoRead p n) s = .next (s.send (.reply p k (s.rwBits k))))) ∧
  (∀ (s : State) (p : Path) (sub : Fin 2621440) (k : Nat), k = R.TIME_NOW0 → pathCarries p k = true → s.reaches p k = true →
    (s.retained k = false → exec (.timeNow0Read p sub) s =
      .next ((latch2 s p k (BitVec.ofNat 32 ((toTime96 (s.timeNow sub)) / 2 ^ 32)) (BitVec.ofNat 32 ((toTime96 (s.timeNow sub)) / 2 ^ 64))).send (.reply p k (BitVec.ofNat 32 (toTime96 (s.timeNow sub)))))) ∧
    (s.retained k = true → exec (.timeNow0Read p sub) s = .next (s.send (.reply p k (s.rwBits k))))) ∧
  (∀ (s : State) (p : Path) (n : Fin 2) (k : Nat), k = R.ETH_TXT0 n → pathCarries p k = true → s.reaches p k = true →
    exec (.ethTxt0Read p n) s =
      .next ((latch2 s p k (s.word (k + 4)) (s.word (k + 8))).send (.reply p k (s.word k)))) ∧
  (∀ (s : State) (p : Path) (n : Fin 6) (k : Nat), k = R.ETH_RXT0 n → pathCarries p k = true → s.reaches p k = true →
    exec (.ethRxt0Read p n) s =
      .next ((latch2 s p k (s.word (k + 4)) (s.word (k + 8))).send (.reply p k (s.word k)))) ∧
  (∀ (s : State), s.reaches .mgmt R.MGMT_DATA = true →
    exec (.mgmtDataRead .mgmt) s =
      .next ((s.readReg .mgmt s.mgmtTarget 0).2.send (.reply .mgmt R.MGMT_DATA (s.readReg .mgmt s.mgmtTarget 0).1)))

/-- The commands of register writes, resets, acceptance and completions. -/
def Obligations.RegisterWritesAndResetsAct : Prop :=
  (∀ (s : State) (p : Path) (k : Nat) (w : Word), pathCarries p k = true → k % 4 = 0 → k ≠ R.GLOBAL_RESET → Writable s p k →
    exec (.registerWrite p k w) s = .next (s.regWrite p k w)) ∧
  (∀ (s : State) (w : Word), Writable s .mgmt R.MGMT_DATA →
    exec (.mgmtDataWrite .mgmt w) s = .next (s.mgmtWrite .mgmt w)) ∧
  (∀ (s : State) (off : Bool), Writable s .mgmt R.MGMT_MON →
    exec (.monOffWrite .mgmt off) s = .next (s.writeMonOff off)) ∧
  (∀ (s : State), Writable s .pf0 R.WAKE →
    exec .wake s = .next s.writeWake) ∧
  (∀ (s : State) (st : Straps),
    exec (.porL st) s = .next (s.cleared (strapsWord st)) ∧ exec .perstL s = .next (s.fullReset 1 0)) ∧
  (∀ (s : State) (p : Path), s.reaches p R.GLOBAL_RESET = true → s.get R.GLOBAL_OWNER.HOLDER = pathAgent p → p ≠ .fw →
    exec (.fullReset p 0x5253#16) s = .next (s.fullReset 2 (pathAgent p)) ∧ exec (.fullReset p 0#16) s = .next s) ∧
  (∀ (s : State) (o : Order), s.next? = some o →
    exec .orderAcceptance s = .next (s.acceptNext o)) ∧
  (∀ (s : State) (ring index off : Nat) (data : List Byte) (o : Order), s.order? (ring, index) = some o → s.reading o = true →
    exec (.completionReceived ring index off data 0) s = .next (State.readProceeds (((takeRead o.ref data off s.reads).filter
        (fun r => r.order == o.ref)).foldl (fun s r => s.readDone 0 r.addr (gotPrefix 0 r.got)) { s with reads := takeRead o.ref data off s.reads }) o) ∧
    exec (.completionReceived ring index off data 1) s = .next ((s.logAer 0 aerTimeout).readFails o) ∧
    exec (.completionReceived ring index off data 2) s = .next (s.readFails o) ∧
    exec (.completionReceived ring index off data 3) s = .next ((s.logAer 0 aerPoisoned).readFails o)) ∧
  (∀ (s : State) (ring index : Nat) (o : Order), s.order? (ring, index) = some o → s.reading o = true →
    s.pcie.cplTimeoutOff = false →
    exec (.completionTimeout (.order ring index)) s = .next ((s.logAer 0 aerTimeout).readFails o) ∧
    exec (.poisonedTlpReceived (.completion (.order ring index))) s = .next ((s.logAer 0 aerPoisoned).readFails o)) ∧
  (∀ (s : State) (fn : Fin 2), s.pcie.linkUp = true →
    exec (.poisonedTlpReceived (.barWrite fn)) s = .next (s.logAer fn aerPoisoned))

/-- The commands of the serial monitor. -/
def Obligations.MonitorCommandsAct : Prop :=
  (∀ (s : State), s.monRuns = true →
    exec .monId s = .next (s.monOk [s.get R.GLOBAL_ID.DEVICE, s.get R.GLOBAL_REV.REV, s.get R.LK_FWVER.VERSION, s.get R.LK_BOOT.SLOT, s.fw.epoch]) ∧
    exec .monLk s = .next (s.monOk [s.lkState 0, s.get (R.LK_STATUS.WDOG 0), s.lkState 1, s.get (R.LK_STATUS.WDOG 1), s.lkState 2,
      s.get (R.LK_STATUS.WDOG 2), s.lkState 3, s.get (R.LK_STATUS.WDOG 3)]) ∧
    exec .monEv s = .next (s.monOk (s.ev.recent.flatMap evNumbers)) ∧
    exec .monTime s = .next (s.monOk [toTime96 s.time, s.get R.TIME_STATUS.STATE]) ∧
    exec .monHelp s = .next (s.monOk []) ∧ exec .monTokReq s = .next ((s.tokenReq 3).monOk []) ∧ exec .monTokRel s = .next ((s.tokenRel 3).monOk []) ∧
    exec .monMbRead s = .next ((s.mbxOut 4).2.monOk [(s.mbxOut 4).1.toNat])) ∧
  (∀ (s : State) (a n : Nat), s.monRuns = true → a % 4 = 0 → 1 ≤ n → n ≤ 64 →
    (a + 4 * n ≤ 0x1000000 → exec (.monRdB0 a n) s = .next ((s.monWords a n).2.monOk (s.monWords a n).1)) ∧
    (a + 4 * n ≤ 0x10000 → exec (.monRdB2 a n) s = .next ((s.monWords (0x2000000 + a) n).2.monOk (s.monWords (0x2000000 + a) n).1)) ∧
    (0x1000000 < a + 4 * n → exec (.monRdB0 a n) s = .next (s.monErr 1))) ∧
  (∀ (s : State) (a : Nat) (v : Word), s.monRuns = true → a % 4 = 0 → a < 0x1000000 →
    (s.mayWrite .mon a = false → exec (.monWr a v) s = .next ((s.busWrite .mon a v).monErr 3)) ∧
    (s.mayWrite .mon a = true → (s.busWrite .mon a v).monRuns = true → exec (.monWr a v) s = .next ((s.busWrite .mon a v).monOk []))) ∧
  (∀ (s : State) (w : Word), s.monRuns = true →
    ((s.mbx 4).inFull = false → exec (.monMbWrite w) s = .next ((s.mbxIn 4 w).monOk [])) ∧
    ((s.mbx 4).inFull = true → exec (.monMbWrite w) s = .next ((s.mbxIn 4 w).monErr 4))) ∧
  (∀ (s : State) (r : Nat), s.monRuns = true →
    (r ≤ 3 → exec (.monBaud r) s = .next ((s.put R.MON_CFG.BAUD r).monOk [])) ∧ (3 < r → exec (.monBaud r) s = .next (s.monErr 1))) ∧
  (∀ (s : State) (k : Word), s.monRuns = true →
    (s.get R.GLOBAL_OWNER.HOLDER ≠ 3 → exec (.monReset k) s = .next ((s.resetWrite .mon k.toNat).monErr 3)) ∧
    (s.get R.GLOBAL_OWNER.HOLDER = 3 → k = 0x5253#32 → (s.fullReset 2 3).monRuns = false → exec (.monReset k) s = .next (s.fullReset 2 3))) ∧
  (∀ (s : State) (lost : Nat), s.monRuns = true →
    exec (.monUnknown lost) s = .next ((s.satInc R.MON_CFG.RX_LOST lost).monErr 2))

/-- The commands of the SMBus target and of the serial monitor. That the target serves only while LK0 is UP and that a read carries no PEC are the model's choices (log entry 104). -/
def Obligations.ManagementBusCommandsAct : Prop :=
  (∀ (s : State) (w : Word), s.lkUp 0 = true →
    exec (.smbS4Write w true) s = .next (s.mbxIn 12 w) ∧ exec (.smbS4Write w false) s = .next s) ∧
  (∀ (s : State), s.lkUp 0 = true →
    exec .smbS4Read s = .next ((s.mbxOut 12).2.send (.frame 4 0 (leBytes 4 (s.mbxOut 12).1.toNat))) ∧
    exec .smbS4Status s = .next (s.send (.frame 4 0 [BitVec.ofNat 8 (s.mbxStat 12)]))) ∧
  (∀ (s : State) (w : Word), s.lkUp 0 = true →
    exec (.smbMgmtAddr w true) s = .next (s.plainWrite R.MGMT_ADDR w) ∧ exec (.smbMgmtAddr w false) s = .next s) ∧
  (∀ (s : State) (w : Word), s.lkUp 0 = true →
    exec (.smbMgmtData (some w) true) s = .next (s.mgmtWrite .smbus w) ∧ exec (.smbMgmtData (some w) false) s = .next s ∧
    exec (.smbMgmtData none true) s = .next ((s.readReg .smbus s.mgmtTarget 0).2.send (.frame 4 0 (leBytes 4 (s.readReg .smbus s.mgmtTarget 0).1.toNat)))) ∧
  (∀ (s : State), s.monRuns = true →
    exec .monId s = .next (s.monOk [s.get R.GLOBAL_ID.DEVICE, s.get R.GLOBAL_REV.REV, s.get R.LK_FWVER.VERSION, s.get R.LK_BOOT.SLOT, s.fw.epoch]) ∧
    exec .monLk s = .next (s.monOk [s.lkState 0, s.get (R.LK_STATUS.WDOG 0), s.lkState 1, s.get (R.LK_STATUS.WDOG 1), s.lkState 2,
      s.get (R.LK_STATUS.WDOG 2), s.lkState 3, s.get (R.LK_STATUS.WDOG 3)]) ∧
    exec .monEv s = .next (s.monOk (s.ev.recent.flatMap evNumbers)) ∧
    exec .monTime s = .next (s.monOk [toTime96 s.time, s.get R.TIME_STATUS.STATE]) ∧
    exec .monHelp s = .next (s.monOk []) ∧ exec .monTokReq s = .next ((s.tokenReq 3).monOk []) ∧ exec .monTokRel s = .next ((s.tokenRel 3).monOk []) ∧
    exec .monMbRead s = .next ((s.mbxOut 4).2.monOk [(s.mbxOut 4).1.toNat])) ∧
  (∀ (s : State) (a n : Nat), s.monRuns = true → a % 4 = 0 → 1 ≤ n → n ≤ 64 →
    (a + 4 * n ≤ 0x1000000 → exec (.monRdB0 a n) s = .next ((s.monWords a n).2.monOk (s.monWords a n).1)) ∧
    (a + 4 * n ≤ 0x10000 → exec (.monRdB2 a n) s = .next ((s.monWords (0x2000000 + a) n).2.monOk (s.monWords (0x2000000 + a) n).1)) ∧
    (0x1000000 < a + 4 * n → exec (.monRdB0 a n) s = .next (s.monErr 1))) ∧
  (∀ (s : State) (a : Nat) (v : Word), s.monRuns = true → a % 4 = 0 → a < 0x1000000 →
    (s.mayWrite .mon a = false → exec (.monWr a v) s = .next ((s.busWrite .mon a v).monErr 3)) ∧
    (s.mayWrite .mon a = true → (s.busWrite .mon a v).monRuns = true → exec (.monWr a v) s = .next ((s.busWrite .mon a v).monOk []))) ∧
  (∀ (s : State) (w : Word), s.monRuns = true →
    ((s.mbx 4).inFull = false → exec (.monMbWrite w) s = .next ((s.mbxIn 4 w).monOk [])) ∧
    ((s.mbx 4).inFull = true → exec (.monMbWrite w) s = .next ((s.mbxIn 4 w).monErr 4))) ∧
  (∀ (s : State) (r : Nat), s.monRuns = true →
    (r ≤ 3 → exec (.monBaud r) s = .next ((s.put R.MON_CFG.BAUD r).monOk [])) ∧ (3 < r → exec (.monBaud r) s = .next (s.monErr 1))) ∧
  (∀ (s : State) (k : Word), s.monRuns = true →
    (s.get R.GLOBAL_OWNER.HOLDER ≠ 3 → exec (.monReset k) s = .next ((s.resetWrite .mon k.toNat).monErr 3)) ∧
    (s.get R.GLOBAL_OWNER.HOLDER = 3 → k = 0x5253#32 → (s.fullReset 2 3).monRuns = false → exec (.monReset k) s = .next (s.fullReset 2 3))) ∧
  (∀ (s : State) (lost : Nat), s.monRuns = true →
    exec (.monUnknown lost) s = .next ((s.satInc R.MON_CFG.RX_LOST lost).monErr 2))

/-- A step is the effect of the front command; an empty queue idles (the model's choice, log entry 2). -/
def Obligations.StepTakesTheFrontCommand : Prop :=
  (∀ (c : Instr) (s : State) (rest : List Instr), step { s with pending := c :: rest } = exec c { s with pending := rest }) ∧
  (∀ (c : Instr) (s : State) (rest : List Instr), s.pending = c :: rest → step s = exec c { s with pending := rest }) ∧
  (∀ s : State, s.pending = [] → step s = .next s)

/-- The state after reset: the values that the spec gives. -/
def Obligations.ResetState : Prop :=
  State.reset.Ok ∧ State.reset.pending = [] ∧ State.reset.sent = [] ∧ State.reset.time = 0 ∧ State.reset.tk.inc = 0xA0000000 ∧
    State.reset.get R.TIME_STATUS.STATE = 0 ∧ State.reset.get R.TIME_RATE.INC = 0xA0000000 ∧ State.reset.get R.GLOBAL_OWNER.HOLDER = 0 ∧
    State.reset.pcie.linkUp = false ∧ State.reset.orders = [] ∧ (∀ n : Fin 4, State.reset.get (R.ADC_OVR.THRESH n) = 0x7FF) ∧
    (∀ n : Fin 4, State.reset.adcState n = 0) ∧
    ∀ (s : State) (st : Straps), ∃ t u, exec (.porL st) s = .next t ∧ exec .perstL s = .next u ∧ t.time = 0 ∧ u.time = 0 ∧
      t.word R.GLOBAL_STRAPS = BitVec.ofNat 32 (strapsWord st) ∧ u.word R.GLOBAL_STRAPS = s.word R.GLOBAL_STRAPS ∧
      t.get R.TIME_ID.DEVID = t.get R.GLOBAL_STRAPS.SLOT ∧
      (∀ k, k ∉ [R.GLOBAL_STRAPS, R.TIME_ID] → t.word k = State.reset.word k) ∧
      (∀ k, k ∉ [R.GLOBAL_STRAPS, R.TIME_ID, R.GLOBAL_RSTCAUSE, R.GLOBAL_PROT] → u.word k = State.reset.word k)

/-- The invariant of every step; `ResetState` says that it holds after reset. -/
def Obligations.StepKeepsTheCanonicalForm : Prop := ∀ s t : State, s.Ok → step s = .next t → t.Ok

/-- No command takes a waiting command away, takes back what has been sent, or uses a free value again (the counter of free values is the
model's own, log entry 30). -/
def Obligations.CommandsKeepWhatStands : Prop := ∀ (c : Instr) (s t : State), s.Ok → exec c s = .next t →
  t.pending = s.pending ∧ s.sent <:+ t.sent ∧ s.freeCtr ≤ t.freeCtr

/-- No command stops the block, and so no run does. -/
def Obligations.EveryCommandIsAnswered : Prop :=
  (∀ (c : Instr) (s : State), ∃ t, exec c s = .next t) ∧ ∀ (n : Nat) (s : State), s.RunsSafely n

/-- What a write without the token may touch. -/
def Obligations.UnownedWritesAreDropped : Prop :=
  ∀ (s : State) (p : Path) (k : Nat) (w : Word), pathCarries p k = true → k % 4 = 0 → k < 0x1000000 → k ≠ R.GLOBAL_RESET → s.reaches p k = true →
    s.mayWrite p k = false → ∃ t, exec (.registerWrite p k w) s = .next t ∧
      t.get R.GLOBAL_OWNVIOL.OFFSET = k ∧ t.get R.GLOBAL_OWNVIOL.AGENT = pathAgent p ∧
      t.get R.GLOBAL_OWNVIOL.HELD_BY = s.get R.GLOBAL_OWNER.HOLDER ∧
      t.get (R.EV_CNT.COUNT 163) = satAdd (R.EV_CNT.COUNT 163).width (s.get (R.EV_CNT.COUNT 163)) 1 ∧
      (∀ j, j ∉ [R.GLOBAL_OWNVIOL, R.EV_CNT 163, R.EV_ROOT, R.GLOBAL_PWRSTAT] → t.word j = s.word j) ∧
      { t with regs := s.regs, ev := s.ev, power := s.power, pcie := s.pcie, sent := s.sent, held := s.held, freeCtr := s.freeCtr } = s

/-- Writes that do not reach their register, and writes to retention copies. -/
def Obligations.UnreachableAndRetainedWrites : Prop :=
  (∀ (s : State) (p : Path) (k : Nat) (w : Word), pathCarries p k = true → k % 4 = 0 → k ≠ R.GLOBAL_RESET → s.reaches p k = false →
    ∃ t, exec (.registerWrite p k w) s = .next t ∧ (pathFn p, 20) ∈ t.pcie.aer ∧ Sent.unsupported (pathFn p) ∈ t.sent ∧
      (∀ j, j ∉ [R.EV_CNT 162, R.EV_ROOT, R.GLOBAL_PWRSTAT] → t.word j = s.word j) ∧ SameMemories s t) ∧
  (∀ (s : State) (p : Path) (k : Nat) (w : Word), pathCarries p k = true → k % 4 = 0 → k < 0x800000 → s.reaches p k = true →
    s.mayWrite p k = true → s.retained k = true → k ≠ R.GLOBAL_RESET →
    exec (.registerWrite p k w) s = .next (s.retainWrite (s.selected k) w))

/-- R45: codes clamp and never wrap. -/
def Obligations.ConvertedCodesClamp : Prop :=
  (∀ x : Int, -2048 ≤ codeOf x ∧ codeOf x ≤ 2047 ∧ (2047 < x → codeOf x = 2047) ∧ (x < -2048 → codeOf x = -2048) ∧
    (-2048 ≤ x → x ≤ 2047 → codeOf x = x)) ∧
  (∀ (s : State) (n : Fin 4) (x : Int), s.spllLocked n = true → exec (.convertedSample n x) s = exec (.convertedSample n (codeOf x)) s)

/-- R46: the threshold and the hold of the overrange flag. THRESH and HOLD are the fields of ADC_OVR(n) as its granule took them. -/
def Obligations.OverrangeFlagAndHold : Prop :=
  (∀ (th : Nat) (c : Int), overrange th c = true ↔ ((th : Int) ≤ c ∨ c ≤ -(th : Int) - 1)) ∧
  (∀ (n : Fin 4), State.reset.get (R.ADC_OVR.THRESH n) = 0x7FF) ∧
  (∀ x : Int, overrange 0x7FF (codeOf x) = true ↔ (codeOf x = 2047 ∨ codeOf x = -2048)) ∧
  (∀ (s : State) (n : Fin 4) (x : Int) (th hd : Nat), s.spllLocked n = true → 2 ≤ s.adcState n → s.adcState n ≠ 4 →
    th = (if (s.adc n).count % 64 = 0 then s.get (R.ADC_OVR.THRESH n) else (s.adc n).ovrThresh) →
    hd = (if (s.adc n).count % 64 = 0 then s.get (R.ADC_OVR.HOLD n) else (s.adc n).ovrHold) →
    ∃ t, exec (.convertedSample n x) s = .next t ∧
      (overrange th (codeOf x) = true → (t.adc n).hold = hd) ∧
      (overrange th (codeOf x) = false → (t.adc n).hold = (s.adc n).hold - 1) ∧
      t.get (R.ADC_OVRCNT.COUNT n) = (if overrange th (codeOf x) = true ∨ 0 < (s.adc n).hold
        then satAdd (R.ADC_OVRCNT.COUNT n).width (s.get (R.ADC_OVRCNT.COUNT n)) 1 else s.get (R.ADC_OVRCNT.COUNT n)))

/-- R254: one accumulate, and the landing of the eight lanes' sums. -/
def Obligations.AccumulateSaturates : Prop :=
  (∀ v d : Int, -2 ^ 47 ≤ v + d → v + d < 2 ^ 47 → accumulate (v, false) d = (v + d, false)) ∧
  (∀ v d : Int, v + d < -2 ^ 47 → accumulate (v, false) d = (-2 ^ 47, true)) ∧
  (∀ v d : Int, 2 ^ 47 ≤ v + d → accumulate (v, false) d = (2 ^ 47 - 1, true)) ∧
  (∀ v d : Int, accumulate (v, true) d = (v, true)) ∧
  (∀ (s : State) (u b a : Nat) (ds : List Int), a < 4 → ∀ l < 8,
    ((s.landEff u b (.acc a ds)).bank u b).acc a l = accumulate ((s.bank u b).acc a l) (ds.getD l 0)) ∧
  (∀ (s : State) (u b a : Nat) (ds : List Int) (a' l : Nat), a < 4 → a' < 4 → l < 8 → a' ≠ a →
    ((s.landEff u b (.acc a ds)).bank u b).acc a' l = (s.bank u b).acc a' l) ∧
  (∀ (s : State) (u b a : Nat) (ds : List Int) (r : Nat), ((s.landEff u b (.acc a ds)).bank u b).xr r = (s.bank u b).xr r)

/-- R515: TIME96 is the counter without its ten fraction bits. -/
def Obligations.TimekeeperTicks : Prop :=
  (∀ s : State, s.time = s.tk.raw / 1024) ∧
  (∀ s : State, ∃ t, exec .timekeeperTick s = .next t ∧ t.tk.raw = s.tk.raw + s.tk.inc ∧ t.ticks = s.ticks + 1) ∧
  (0xA0000000 = 40 * 2 ^ 26) ∧
  (∀ (s : State) (st : Straps), ∃ t u, exec (.porL st) s = .next t ∧ exec .perstL s = .next u ∧
    t.get R.TIME_STATUS.STATE = 0 ∧ t.time = 0 ∧ t.tk.raw = 0 ∧ t.tk.inc = 0xA0000000 ∧
    u.get R.TIME_STATUS.STATE = 0 ∧ u.time = 0 ∧ u.tk.raw = 0 ∧ u.tk.inc = 0xA0000000) ∧
  (∀ (s : State) (p : Path), s.reaches p R.GLOBAL_RESET = true → s.get R.GLOBAL_OWNER.HOLDER = pathAgent p → p ≠ .fw →
    ∃ u, exec (.fullReset p 0x5253#16) s = .next u ∧ u.get R.TIME_STATUS.STATE = 0 ∧ u.time = 0 ∧ u.tk.inc = 0xA0000000)

/-- R516: a write of TIME_INC. That one code is 0.37 ppb of rate follows from 0xA000_0000 being the nominal rate. -/
def Obligations.TimeIncWrites : Prop :=
  (0x2000000 ≤ R.TIME_INC) ∧
  (∀ (s : State) (p : Path) (w : Word), Writable s p R.TIME_INC → s.follows = false → 0x9FD70A3D ≤ w.toNat → w.toNat ≤ 0xA028F5C3 →
    ∃ t u, exec (.timeIncWrite p w) s = .next t ∧ t.tk.inc = s.tk.inc ∧ t.tk.raw = s.tk.raw ∧ t.regs = s.regs ∧
      exec .timekeeperTick t = .next u ∧ u.tk.inc = w.toNat ∧ u.tk.raw = s.tk.raw + s.tk.inc ∧ u.get R.TIME_RATE.INC = w.toNat) ∧
  (∀ (s : State) (p : Path) (w : Word), Writable s p R.TIME_INC → s.follows = true ∨ w.toNat < 0x9FD70A3D ∨ 0xA028F5C3 < w.toNat →
    ∃ t, exec (.timeIncWrite p w) s = .next t ∧ t.tk = s.tk ∧ t.get R.TIME_STATUS.INC_ERR = 1 ∧ OnlyRegs [R.TIME_STATUS] s t)

/-- R598, for the channels of the host, of peers and of MGMT (IN_LOST lies in the status registers that channels NS0 to NS3 and S0 to S3
have). -/
def Obligations.FullMailboxDropsTheWrite : Prop :=
  (∀ (s : State) (p : Path) (ch : Fin 16) (w : Word) (k : Nat), mbxPath ch = some p → mbxKey ch = some k → Writable s p k → (s.mbx ch).inFull = true →
    ∃ t, exec (.mailboxInWrite p ch w) s = .next t ∧ t.mbx ch = s.mbx ch ∧
      t.get (R.EV_CNT.COUNT 486) = satAdd (R.EV_CNT.COUNT 486).width (s.get (R.EV_CNT.COUNT 486)) 1 ∧
      (∀ c : Fin 4, ch.val = c.val → t.get (R.NS_STAT.IN_LOST c) = 1) ∧ (∀ c : Fin 4, ch.val = 8 + c.val → t.get (R.S_STAT.IN_LOST c) = 1)) ∧
  (∀ (s : State) (p : Path) (ch : Fin 16) (w : Word) (k : Nat), mbxPath ch = some p → mbxKey ch = some k → Writable s p k → (s.mbx ch).inFull = false →
    exec (.mailboxInWrite p ch w) s = .next (s.updMbx ch (fun m => { m with inFull := true, inWord := w })))

/-- R365: the token after FORCE, the event, and the writes of the previous holder. -/
def Obligations.ForceTakesTheToken : Prop :=
  (∀ s : State, Writable s .mgmt R.MGMT_TOKEN →
    ∃ t, exec (.mgmtForce 0x4F57#16) s = .next t ∧ t.get R.GLOBAL_OWNER.HOLDER = 2 ∧
      (s.on (R.EV_CFG.EN 164) = true →
        (∃ x ∈ t.ev.wait0, x.source = 164 ∧ ((∀ y ∈ s.ev.wait0, y.source ≠ 164) → x.info = s.get R.GLOBAL_OWNER.HOLDER)) ∧
        (∃ x ∈ t.ev.wait1, x.source = 164 ∧ ((∀ y ∈ s.ev.wait1, y.source ≠ 164) → x.info = s.get R.GLOBAL_OWNER.HOLDER))) ∧
      (∀ (q : Path) (k : Nat), k < 0x2000000 → k ≠ R.GLOBAL_OWNER → q ≠ .fw → pathAgent q ≠ 2 → t.mayWrite q k = false)) ∧
  (∀ (s : State) (q : Path) (k : Nat) (w : Word), pathCarries q k = true → k % 4 = 0 → k < 0x1000000 → k ≠ R.GLOBAL_RESET → k ≠ R.GLOBAL_OWNER →
    q ≠ .fw → pathAgent q ≠ 2 → s.get R.GLOBAL_OWNER.HOLDER = 2 → s.reaches q k = true →
    exec (.registerWrite q k w) s = .next (s.ownerViolation q k))

/-- The frame of the reads and the queries. -/
def Obligations.QueriesChangeNothing : Prop :=
  (∀ (s : State) (p : Path) (n : Fin 4) (j : Fin 8) (x : Fin 2) (r : Fin 6) (sub : Fin 2621440) (c : Instr) (k : Nat),
    (c, k) ∈ [(Instr.convSyncT0Read p, R.CONV_SYNC_T0), (Instr.adcScntLoRead p n, R.ADC_SCNT_LO n), (Instr.queueTearbase0Read p, 0x90028),
      (Instr.nvmeSlotCapRead p j, R.NVME_SLOT_CAP_LO j), (Instr.nvmeRecChunkRead p j, R.NVME_REC_CHUNK_LO j),
      (Instr.nvmeRecTrecRead p j, R.NVME_REC_TREC0 j), (Instr.sgT0Read p j, R.SG_T0 j), (Instr.sgPlayedLoRead p j, R.SG_PLAYED_LO j),
      (Instr.timeNow0Read p sub, R.TIME_NOW0), (Instr.ethTxt0Read p x, R.ETH_TXT0 x), (Instr.ethRxt0Read p r, R.ETH_RXT0 r)] →
    pathCarries p k = true → s.reaches p k = true →
    ∃ t v, exec c s = .next t ∧ t.sent = Sent.reply p k v :: s.sent ∧ { t with latches := s.latches, sent := s.sent } = s) ∧
  (∀ (c : Instr) (s : State), c ∈ [Instr.monId, Instr.monLk, Instr.monEv, Instr.monTime, Instr.monHelp] →
    (s.monRuns = true → ∃ t x, exec c s = .next t ∧ t.sent = x :: s.sent ∧ { t with sent := s.sent } = s) ∧
    (s.monRuns = false → exec c s = .next s)) ∧
  (∀ s : State,
    (s.lkUp 0 = true → ∃ t x, exec .smbS4Status s = .next t ∧ t.sent = x :: s.sent ∧ { t with sent := s.sent } = s) ∧
    (s.lkUp 0 = false → exec .smbS4Status s = .next s)) ∧
  (∀ (s : State) (p : Path) (ch : Fin 16) (w : Word), mbxPath ch ≠ some p → exec (.mailboxInWrite p ch w) s = .next s) ∧
  (∀ (s : State) (key : BitVec 16), Writable s .mgmt R.MGMT_TOKEN → key ≠ 0x4F57#16 → exec (.mgmtForce key) s = .next s)

/-- The result and the frame of the plain arithmetic. -/
def Obligations.UnitRegisterInstructionsFrame : Prop :=
  ∀ (s : State) (u : Fin 16) (op : Nat) (c : Instr) (f : Word → Word → Word) (b : Nat) (x : CuSlot),
    (op, c, f) ∈ [(0x01, Instr.cuAdd u, fun a b => a + b), (0x02, Instr.cuSub u, fun a b => a - b), (0x03, Instr.cuAnd u, fun a b => a &&& b),
      (0x04, Instr.cuOr u, fun a b => a ||| b), (0x05, Instr.cuXor u, fun a b => a ^^^ b)] →
    IssuesA s u op → (nextB s u).op = 0 → (s.cu u).writes = [] → b = s.cuBankNo u → (s.bank u b).delay = 0 → (s.bank u b).loops = [] →
    x = nextA s u →
    ∃ t, exec c s = .next t ∧
      (t.bank u b).xr x.xd = (if x.xd = 0 then 0#32 else f ((s.bank u b).xr x.xa) ((s.bank u b).xr x.xb)) ∧
      (∀ r, r ≠ x.xd → (t.bank u b).xr r = (s.bank u b).xr r) ∧ (t.bank u b).pc = (nextPc s u + 1) % 8192 ∧
      (t.bank u b).v = (s.bank u b).v ∧ (t.bank u b).ac = (s.bank u b).ac ∧
      (∀ v : Nat, v ≠ u.val → t.cu v = s.cu v) ∧ SameMemories s t ∧
      OnlyRegs [R.CU_PC u, R.CU_CYCLE u] { s with cus := t.cus } t

/-- The memory frame of ETH_FRAME_RECEIVED; the bytes stored are `body`, at `rxOff r`. -/
def Obligations.ReceivedFrameFillsItsSlot : Prop :=
  ∀ (s : State) (bs : List Byte) (sub : Fin 2621440), ∃ t, exec (.ethFrameReceived bs sub) s = .next t ∧
    (∀ a : Nat, (∀ (r : Nat) (body : List Byte), (s.ethFilter bs).1 = some body → (s.ethFilter bs).2.nextSlot = some r →
      a < rxOff r ∨ rxOff r + body.length ≤ a) → Mem.byte 0#8 t.eth.mem a = Mem.byte 0#8 s.eth.mem a) ∧
    t.cache = s.cache ∧ t.pounds = s.pounds ∧ t.cus = s.cus ∧ t.flash = s.flash ∧ t.panel = s.panel

/-- The memory frame of CFG_WRITE. -/
def Obligations.ConfigurationWritesTheirBytes : Prop :=
  ∀ (s : State) (ch : Fin 16) (tag : Nat) (rest : List Word) (off w : Word) (ws : List Word) (bs : List Byte), 8 ≤ ch.val →
    Asks s ch 0x06 tag (off :: w :: ws) rest → bs = (w :: ws).flatMap (fun w => leBytes 4 w.toNat) → off.toNat + bs.length ≤ 65536 →
    ∃ t, exec (.cfgWrite ch) s = .next t ∧
      (∀ a : Nat, a < off.toNat ∨ off.toNat + bs.length ≤ a → Mem.byte 0#8 t.flash.config a = Mem.byte 0#8 s.flash.config a) ∧
      (∀ i, i < bs.length → Mem.byte 0#8 t.flash.config (off.toNat + i) = bs.getD i 0#8) ∧
      t.cache = s.cache ∧ t.pounds = s.pounds ∧ t.cus = s.cus ∧ t.eth = s.eth ∧ t.panel = s.panel

/-- The order of the records of an event ring. -/
def Obligations.OneRecordOutstandingPerSource : Prop :=
  (∀ (s : State) (r : Nat) (e : EvRec) (rest : List EvRec), s.nextRecord? r = some (e, rest) →
    (∀ o ∈ s.outstanding r, o.1 ≠ e.source) ∧
    ∃ a b, s.waiting r = a ++ e :: b ∧ rest = a ++ b ∧ ∀ x ∈ a, ∃ o ∈ s.outstanding r, o.1 = x.source) ∧
  (∀ (s : State) (r : Fin 2), (s.ring (112 + r.val)).taken = [] → exec (.eventRecordWrite r) s = .next s)

/-- R642: pixels from `supplied` on are missing; that the line is sent whole and the next follows is the link timing. -/
def Obligations.UnderrunShowsBackground : Prop :=
  ∀ (s : State) (h : Fin 2) (supplied : Fin 3841) (y w : Nat), (s.head h).line = some y → s.headState h = 3 → y < s.activeLines h →
    w = s.headGet h (R.DISP_HTIM.HACTIVE h) →
    (∀ (t : State) (x : Nat), supplied.val ≤ x → t.pixel h y supplied x = BitVec.ofNat 32 (t.headGet h (R.DISP_BG.BG h))) ∧
    ∃ t px, exec (.activeLineStart h supplied) s = .next t ∧ Sent.line h y px ∈ t.sent ∧ px.length = w ∧ (t.head h).line = some (y + 1) ∧
      (∀ x, supplied.val ≤ x → x < w → px[x]? = some (BitVec.ofNat 32 (s.headGet h (R.DISP_BG.BG h)))) ∧
      (supplied.val < w → t.get (R.DISP_ERR.UNDERRUN h) = satAdd (R.DISP_ERR.UNDERRUN h).width (s.get (R.DISP_ERR.UNDERRUN h)) 1 ∧
        t.get (R.EV_CNT.COUNT 451) = satAdd (R.EV_CNT.COUNT 451).width (s.get (R.EV_CNT.COUNT 451)) 1)
end

