-- ==== Sys2Proof/Laws/Dispatch.lean ====
section
/-!
SUPPORT. What the dispatch answers for each command: its meaning, one lemma for each, true by definition.
-/

namespace Sys2Proof
namespace Machine

@[simp] theorem exec_registerWrite (p : Path) (key : Nat) (w : Word) (z : State) : exec (.registerWrite p key w) z = execRegisterWrite p key w z := rfl
@[simp] theorem exec_barAccessViolation (key size : Nat) (contiguous write : Bool) (z : State) : exec (.barAccessViolation key size contiguous write) z = execBarAccessViolation key size contiguous write z := rfl
@[simp] theorem exec_convSyncT0Read (p : Path) (z : State) : exec (.convSyncT0Read p) z = execConvSyncT0Read p z := rfl
@[simp] theorem exec_adcScntLoRead (p : Path) (n : Fin 4) (z : State) : exec (.adcScntLoRead p n) z = execAdcScntLoRead p n z := rfl
@[simp] theorem exec_queueTearbase0Read (p : Path) (z : State) : exec (.queueTearbase0Read p) z = execQueueTearbase0Read p z := rfl
@[simp] theorem exec_nvmeSlotCapRead (p : Path) (j : Fin 8) (z : State) : exec (.nvmeSlotCapRead p j) z = execNvmeSlotCapRead p j z := rfl
@[simp] theorem exec_nvmeRecChunkRead (p : Path) (r : Fin 8) (z : State) : exec (.nvmeRecChunkRead p r) z = execNvmeRecChunkRead p r z := rfl
@[simp] theorem exec_nvmeRecTrecRead (p : Path) (r : Fin 8) (z : State) : exec (.nvmeRecTrecRead p r) z = execNvmeRecTrecRead p r z := rfl
@[simp] theorem exec_sgT0Read (p : Path) (g : Fin 8) (z : State) : exec (.sgT0Read p g) z = execSgT0Read p g z := rfl
@[simp] theorem exec_sgPlayedLoRead (p : Path) (g : Fin 8) (z : State) : exec (.sgPlayedLoRead p g) z = execSgPlayedLoRead p g z := rfl
@[simp] theorem exec_timeNow0Read (p : Path) (sub : Fin 2621440) (z : State) : exec (.timeNow0Read p sub) z = execTimeNow0Read p sub z := rfl
@[simp] theorem exec_ethTxt0Read (p : Path) (t : Fin 2) (z : State) : exec (.ethTxt0Read p t) z = execEthTxt0Read p t z := rfl
@[simp] theorem exec_ethRxt0Read (p : Path) (r : Fin 6) (z : State) : exec (.ethRxt0Read p r) z = execEthRxt0Read p r z := rfl
@[simp] theorem exec_mgmtDataRead (p : Path) (z : State) : exec (.mgmtDataRead p) z = execMgmtDataRead p z := rfl
@[simp] theorem exec_mgmtDataWrite (p : Path) (w : Word) (z : State) : exec (.mgmtDataWrite p w) z = execMgmtDataWrite p w z := rfl
@[simp] theorem exec_planLoad (z : State) : exec (.planLoad) z = execPlanLoad z := rfl
@[simp] theorem exec_planStart (z : State) : exec (.planStart) z = execPlanStart z := rfl
@[simp] theorem exec_planStop (z : State) : exec (.planStop) z = execPlanStop z := rfl
@[simp] theorem exec_planUnload (z : State) : exec (.planUnload) z = execPlanUnload z := rfl
@[simp] theorem exec_planStartDue (p : Fin 64) (z : State) : exec (.planStartDue p) z = execPlanStartDue p z := rfl
@[simp] theorem exec_planStopDue (ring index : Nat) (z : State) : exec (.planStopDue ring index) z = execPlanStopDue ring index z := rfl
@[simp] theorem exec_laneWakeDone (l : Fin 18) (z : State) : exec (.laneWakeDone l) z = execLaneWakeDone l z := rfl
@[simp] theorem exec_convRefbufWrite (p : Path) (w : Word) (z : State) : exec (.convRefbufWrite p w) z = execConvRefbufWrite p w z := rfl
@[simp] theorem exec_refRdy (k : Fin 8) (z : State) : exec (.refRdy k) z = execRefRdy k z := rfl
@[simp] theorem exec_adcOn (p : Path) (n : Fin 4) (z : State) : exec (.adcOn p n) z = execAdcOn p n z := rfl
@[simp] theorem exec_adcOff (p : Path) (n : Fin 4) (z : State) : exec (.adcOff p n) z = execAdcOff p n z := rfl
@[simp] theorem exec_converterWakeDone (k : Fin 8) (z : State) : exec (.converterWakeDone k) z = execConverterWakeDone k z := rfl
@[simp] theorem exec_dacOn (p : Path) (n : Fin 4) (z : State) : exec (.dacOn p n) z = execDacOn p n z := rfl
@[simp] theorem exec_dacOff (p : Path) (n : Fin 4) (z : State) : exec (.dacOff p n) z = execDacOff p n z := rfl
@[simp] theorem exec_adcArm (p : Path) (n : Fin 4) (w : Word) (z : State) : exec (.adcArm p n w) z = execAdcArm p n w z := rfl
@[simp] theorem exec_adcDisarm (p : Path) (n : Fin 4) (w : Word) (z : State) : exec (.adcDisarm p n w) z = execAdcDisarm p n w z := rfl
@[simp] theorem exec_startInstant (n : Fin 4) (z : State) : exec (.startInstant n) z = execStartInstant n z := rfl
@[simp] theorem exec_firstAcquiredSample (n : Fin 4) (x : Int) (z : State) : exec (.firstAcquiredSample n x) z = execFirstAcquiredSample n x z := rfl
@[simp] theorem exec_granuleStop (n : Fin 4) (z : State) : exec (.granuleStop n) z = execGranuleStop n z := rfl
@[simp] theorem exec_convertedSample (n : Fin 4) (x : Int) (z : State) : exec (.convertedSample n x) z = execConvertedSample n x z := rfl
@[simp] theorem exec_fsChange (n : Fin 4) (z : State) : exec (.fsChange n) z = execFsChange n z := rfl
@[simp] theorem exec_commandSync (p : Path) (z : State) : exec (.commandSync p) z = execCommandSync p z := rfl
@[simp] theorem exec_syncEdge (z : State) : exec (.syncEdge) z = execSyncEdge z := rfl
@[simp] theorem exec_syncReferenceEdge (sub : Fin 2621440) (z : State) : exec (.syncReferenceEdge sub) z = execSyncReferenceEdge sub z := rfl
@[simp] theorem exec_fgStart (p : Path) (mask : BitVec 4) (z : State) : exec (.fgStart p mask) z = execFgStart p mask z := rfl
@[simp] theorem exec_foregroundCalEnd (n : Fin 4) (ms : List Measure) (z : State) : exec (.foregroundCalEnd n ms) z = execForegroundCalEnd n ms z := rfl
@[simp] theorem exec_dwellEnd (n : Fin 4) (ms : List Measure) (z : State) : exec (.dwellEnd n ms) z = execDwellEnd n ms z := rfl
@[simp] theorem exec_degradedWindowEnd (n : Fin 4) (powered : Bool) (ms : List Measure) (z : State) : exec (.degradedWindowEnd n powered ms) z = execDegradedWindowEnd n powered ms z := rfl
@[simp] theorem exec_calibrationStep (n : Fin 4) (z : State) : exec (.calibrationStep n) z = execCalibrationStep n z := rfl
@[simp] theorem exec_save (p : Path) (z : State) : exec (.save p) z = execSave p z := rfl
@[simp] theorem exec_saveDone (z : State) : exec (.saveDone) z = execSaveDone z := rfl
@[simp] theorem exec_hkSequenceStart (m : Fin 4) (z : State) : exec (.hkSequenceStart m) z = execHkSequenceStart m z := rfl
@[simp] theorem exec_hkGo (p : Path) (m : Fin 3) (z : State) : exec (.hkGo p m) z = execHkGo p m z := rfl
@[simp] theorem exec_hkConversion (m : Fin 4) (value : BitVec 16) (raw : BitVec 12) (z : State) : exec (.hkConversion m value raw) z = execHkConversion m value raw z := rfl
@[simp] theorem exec_thermalEmergency (preempts : Bool) (z : State) : exec (.thermalEmergency preempts) z = execThermalEmergency preempts z := rfl
@[simp] theorem exec_supplyFault (preempts : Bool) (z : State) : exec (.supplyFault preempts) z = execSupplyFault preempts z := rfl
@[simp] theorem exec_emergClear (p : Path) (z : State) : exec (.emergClear p) z = execEmergClear p z := rfl
@[simp] theorem exec_supplyClear (p : Path) (z : State) : exec (.supplyClear p) z = execSupplyClear p z := rfl
@[simp] theorem exec_ddcCtlWrite (p : Path) (d : Fin 8) (w : Word) (z : State) : exec (.ddcCtlWrite p d w) z = execDdcCtlWrite p d w z := rfl
@[simp] theorem exec_retuneGo (p : Path) (d : Fin 8) (z : State) : exec (.retuneGo p d) z = execRetuneGo p d z := rfl
@[simp] theorem exec_retuneCancel (p : Path) (d : Fin 8) (z : State) : exec (.retuneCancel p d) z = execRetuneCancel p d z := rfl
@[simp] theorem exec_ddcRetune (z : State) : exec (.ddcRetune) z = execDdcRetune z := rfl
@[simp] theorem exec_retuneBoundary (d : Fin 8) (z : State) : exec (.retuneBoundary d) z = execRetuneBoundary d z := rfl
@[simp] theorem exec_listAdvance (d : Fin 8) (z : State) : exec (.listAdvance d) z = execListAdvance d z := rfl
@[simp] theorem exec_ddcOutputSample (d : Fin 8) (z : State) : exec (.ddcOutputSample d) z = execDdcOutputSample d z := rfl
@[simp] theorem exec_pltEvaluation (p : Fin 8) (z : State) : exec (.pltEvaluation p) z = execPltEvaluation p z := rfl
@[simp] theorem exec_frameFilled (p : Fin 64) (ce : Fin 65536) (z : State) : exec (.frameFilled p ce) z = execFrameFilled p ce z := rfl
@[simp] theorem exec_sheetDelivered (p : Fin 64) (z : State) : exec (.sheetDelivered p) z = execSheetDelivered p z := rfl
@[simp] theorem exec_laneFaultDetected (l : Fin 18) (cause : Fin 16) (fence : Fin 9) (others : List (Fin 18 × Fin 16)) (z : State) : exec (.laneFaultDetected l cause fence others) z = execLaneFaultDetected l cause fence others z := rfl
@[simp] theorem exec_laneInject (p : Path) (lane : Fin 32) (key : BitVec 16) (fence : Fin 9) (z : State) : exec (.laneInject p lane key fence) z = execLaneInject p lane key fence z := rfl
@[simp] theorem exec_failoverSpareReady (l : Fin 18) (z : State) : exec (.failoverSpareReady l) z = execFailoverSpareReady l z := rfl
@[simp] theorem exec_spareTest (z : State) : exec (.spareTest) z = execSpareTest z := rfl
@[simp] theorem exec_testEnd (l : Fin 18) (check : BitVec 64) (z : State) : exec (.testEnd l check) z = execTestEnd l check z := rfl
@[simp] theorem exec_windowLoad (z : State) : exec (.windowLoad) z = execWindowLoad z := rfl
@[simp] theorem exec_laneTest (z : State) : exec (.laneTest) z = execLaneTest z := rfl
@[simp] theorem exec_holdReset (p : Path) (e : Fin 32) (z : State) : exec (.holdReset p e) z = execHoldReset p e z := rfl
@[simp] theorem exec_traceQueued (e : Fin 32) (z : State) : exec (.traceQueued e) z = execTraceQueued e z := rfl
@[simp] theorem exec_decayInstant (m : Fin 8) (z : State) : exec (.decayInstant m) z = execDecayInstant m z := rfl
@[simp] theorem exec_tileFlush (m : Fin 8) (tile : Fin 2048) (l : Fin 18) (ue : Bool) (z : State) : exec (.tileFlush m tile l ue) z = execTileFlush m tile l ue z := rfl
@[simp] theorem exec_tileReadRequest (m : Fin 8) (tile : Fin 2048) (cut : Nat) (z : State) : exec (.tileReadRequest m tile cut) z = execTileReadRequest m tile cut z := rfl
@[simp] theorem exec_snoopReply (m : Fin 8) (tile : Fin 2048) (l : Fin 18) (z : State) : exec (.snoopReply m tile l) z = execSnoopReply m tile l z := rfl
@[simp] theorem exec_reamSnapshot (z : State) : exec (.reamSnapshot) z = execReamSnapshot z := rfl
@[simp] theorem exec_reamClear (z : State) : exec (.reamClear) z = execReamClear z := rfl
@[simp] theorem exec_reamCtlClear (p : Path) (m : Fin 8) (z : State) : exec (.reamCtlClear p m) z = execReamCtlClear p m z := rfl
@[simp] theorem exec_reamCut (m : Fin 8) (z : State) : exec (.reamCut m) z = execReamCut m z := rfl
@[simp] theorem exec_snapshotReadBegin (m : Fin 8) (bad : List (Fin 2048)) (z : State) : exec (.snapshotReadBegin m bad) z = execSnapshotReadBegin m bad z := rfl
@[simp] theorem exec_reamEnable (p : Path) (m : Fin 8) (w : Word) (z : State) : exec (.reamEnable p m w) z = execReamEnable p m w z := rfl
@[simp] theorem exec_occurrence (sel : Fin 512) (sub : Fin 2621440) (z : State) : exec (.occurrence sel sub) z = execOccurrence sel sub z := rfl
@[simp] theorem exec_chamberTimeout (f : Fin 16) (z : State) : exec (.chamberTimeout f) z = execChamberTimeout f z := rfl
@[simp] theorem exec_holdoffEnd (f : Fin 16) (z : State) : exec (.holdoffEnd f) z = execHoldoffEnd f z := rfl
@[simp] theorem exec_autoTimeout (f : Fin 16) (z : State) : exec (.autoTimeout f) z = execAutoTimeout f z := rfl
@[simp] theorem exec_flArm (p : Path) (f : Fin 16) (z : State) : exec (.flArm p f) z = execFlArm p f z := rfl
@[simp] theorem exec_flCancel (p : Path) (f : Fin 16) (z : State) : exec (.flCancel p f) z = execFlCancel p f z := rfl
@[simp] theorem exec_flightArm (z : State) : exec (.flightArm) z = execFlightArm z := rfl
@[simp] theorem exec_armTimeReached (f : Fin 16) (z : State) : exec (.armTimeReached f) z = execArmTimeReached f z := rfl
@[simp] theorem exec_weirLoad (z : State) : exec (.weirLoad) z = execWeirLoad z := rfl
@[simp] theorem exec_trigInEdge (i : Fin 8) (high : Bool) (sub : Fin 2621440) (z : State) : exec (.trigInEdge i high sub) z = execTrigInEdge i high sub z := rfl
@[simp] theorem exec_ibusEdge (b : Fin 4) (low : Bool) (sub : Fin 2621440) (z : State) : exec (.ibusEdge b low sub) z = execIbusEdge b low sub z := rfl
@[simp] theorem exec_deadTimeEnd (input : Fin 28) (sub : Fin 2621440) (z : State) : exec (.deadTimeEnd input sub) z = execDeadTimeEnd input sub z := rfl
@[simp] theorem exec_stuckTimeout (input : Fin 28) (z : State) : exec (.stuckTimeout input) z = execStuckTimeout input z := rfl
@[simp] theorem exec_stuckRearm (input : Fin 28) (z : State) : exec (.stuckRearm input) z = execStuckRearm input z := rfl
@[simp] theorem exec_trigOutPulseEnd (o : Fin 4) (z : State) : exec (.trigOutPulseEnd o) z = execTrigOutPulseEnd o z := rfl
@[simp] theorem exec_ibusPulseEnd (b : Fin 4) (z : State) : exec (.ibusPulseEnd b) z = execIbusPulseEnd b z := rfl
@[simp] theorem exec_cuEnWrite (p : Path) (u : Fin 16) (en : Bool) (z : State) : exec (.cuEnWrite p u en) z = execCuEnWrite p u en z := rfl
@[simp] theorem exec_cuWakeDone (u : Fin 16) (z : State) : exec (.cuWakeDone u) z = execCuWakeDone u z := rfl
@[simp] theorem exec_cuRunWrite (p : Path) (u : Fin 16) (z : State) : exec (.cuRunWrite p u) z = execCuRunWrite p u z := rfl
@[simp] theorem exec_cuStopWrite (p : Path) (u : Fin 16) (z : State) : exec (.cuStopWrite p u) z = execCuStopWrite p u z := rfl
@[simp] theorem exec_cuPoke (p : Path) (u : Fin 16) (z : State) : exec (.cuPoke p u) z = execCuPoke p u z := rfl
@[simp] theorem exec_cuWindowWrite (p : Path) (u : Fin 16) (off : Fin 0x80000) (bs : List Byte) (z : State) : exec (.cuWindowWrite p u off bs) z = execCuWindowWrite p u off bs z := rfl
@[simp] theorem exec_cuTimerExpiry (u : Fin 16) (z : State) : exec (.cuTimerExpiry u) z = execCuTimerExpiry u z := rfl
@[simp] theorem exec_eventEntry (u : Fin 16) (waited : Nat) (fetch : LineRead) (z : State) : exec (.eventEntry u waited fetch) z = execEventEntry u waited fetch z := rfl
@[simp] theorem exec_qrdCopyLanded (u : Fin 16) (z : State) : exec (.qrdCopyLanded u) z = execQrdCopyLanded u z := rfl
@[simp] theorem exec_sendDone (u : Fin 16) (ecc : LineRead) (z : State) : exec (.sendDone u ecc) z = execSendDone u ecc z := rfl
@[simp] theorem exec_cuNop (u : Fin 16) (z : State) : exec (.cuNop u) z = execCuNop u z := rfl
@[simp] theorem exec_cuAdd (u : Fin 16) (z : State) : exec (.cuAdd u) z = execCuAdd u z := rfl
@[simp] theorem exec_cuSub (u : Fin 16) (z : State) : exec (.cuSub u) z = execCuSub u z := rfl
@[simp] theorem exec_cuAnd (u : Fin 16) (z : State) : exec (.cuAnd u) z = execCuAnd u z := rfl
@[simp] theorem exec_cuOr (u : Fin 16) (z : State) : exec (.cuOr u) z = execCuOr u z := rfl
@[simp] theorem exec_cuXor (u : Fin 16) (z : State) : exec (.cuXor u) z = execCuXor u z := rfl
@[simp] theorem exec_cuShl (u : Fin 16) (z : State) : exec (.cuShl u) z = execCuShl u z := rfl
@[simp] theorem exec_cuShr (u : Fin 16) (z : State) : exec (.cuShr u) z = execCuShr u z := rfl
@[simp] theorem exec_cuSra (u : Fin 16) (z : State) : exec (.cuSra u) z = execCuSra u z := rfl
@[simp] theorem exec_cuMul (u : Fin 16) (z : State) : exec (.cuMul u) z = execCuMul u z := rfl
@[simp] theorem exec_cuSlt (u : Fin 16) (z : State) : exec (.cuSlt u) z = execCuSlt u z := rfl
@[simp] theorem exec_cuSltu (u : Fin 16) (z : State) : exec (.cuSltu u) z = execCuSltu u z := rfl
@[simp] theorem exec_cuAddi (u : Fin 16) (z : State) : exec (.cuAddi u) z = execCuAddi u z := rfl
@[simp] theorem exec_cuAndi (u : Fin 16) (z : State) : exec (.cuAndi u) z = execCuAndi u z := rfl
@[simp] theorem exec_cuOri (u : Fin 16) (z : State) : exec (.cuOri u) z = execCuOri u z := rfl
@[simp] theorem exec_cuLui (u : Fin 16) (z : State) : exec (.cuLui u) z = execCuLui u z := rfl
@[simp] theorem exec_cuShli (u : Fin 16) (z : State) : exec (.cuShli u) z = execCuShli u z := rfl
@[simp] theorem exec_cuShri (u : Fin 16) (z : State) : exec (.cuShri u) z = execCuShri u z := rfl
@[simp] theorem exec_cuSrai (u : Fin 16) (z : State) : exec (.cuSrai u) z = execCuSrai u z := rfl
@[simp] theorem exec_cuLdw (u : Fin 16) (ecc : LineRead) (z : State) : exec (.cuLdw u ecc) z = execCuLdw u ecc z := rfl
@[simp] theorem exec_cuStw (u : Fin 16) (z : State) : exec (.cuStw u) z = execCuStw u z := rfl
@[simp] theorem exec_cuVld (u : Fin 16) (ecc : LineRead) (z : State) : exec (.cuVld u ecc) z = execCuVld u ecc z := rfl
@[simp] theorem exec_cuVst (u : Fin 16) (z : State) : exec (.cuVst u) z = execCuVst u z := rfl
@[simp] theorem exec_cuLdt (u : Fin 16) (ecc : LineRead) (z : State) : exec (.cuLdt u ecc) z = execCuLdt u ecc z := rfl
@[simp] theorem exec_cuStt (u : Fin 16) (z : State) : exec (.cuStt u) z = execCuStt u z := rfl
@[simp] theorem exec_cuBeq (u : Fin 16) (z : State) : exec (.cuBeq u) z = execCuBeq u z := rfl
@[simp] theorem exec_cuBne (u : Fin 16) (z : State) : exec (.cuBne u) z = execCuBne u z := rfl
@[simp] theorem exec_cuBlt (u : Fin 16) (z : State) : exec (.cuBlt u) z = execCuBlt u z := rfl
@[simp] theorem exec_cuBge (u : Fin 16) (z : State) : exec (.cuBge u) z = execCuBge u z := rfl
@[simp] theorem exec_cuJmp (u : Fin 16) (z : State) : exec (.cuJmp u) z = execCuJmp u z := rfl
@[simp] theorem exec_cuJr (u : Fin 16) (z : State) : exec (.cuJr u) z = execCuJr u z := rfl
@[simp] theorem exec_cuCall (u : Fin 16) (z : State) : exec (.cuCall u) z = execCuCall u z := rfl
@[simp] theorem exec_cuWait (u : Fin 16) (z : State) : exec (.cuWait u) z = execCuWait u z := rfl
@[simp] theorem exec_cuRete (u : Fin 16) (z : State) : exec (.cuRete u) z = execCuRete u z := rfl
@[simp] theorem exec_cuHalt (u : Fin 16) (z : State) : exec (.cuHalt u) z = execCuHalt u z := rfl
@[simp] theorem exec_cuMfs (u : Fin 16) (z : State) : exec (.cuMfs u) z = execCuMfs u z := rfl
@[simp] theorem exec_cuMts (u : Fin 16) (z : State) : exec (.cuMts u) z = execCuMts u z := rfl
@[simp] theorem exec_cuTnow (u : Fin 16) (sub : Fin 2621440) (z : State) : exec (.cuTnow u sub) z = execCuTnow u sub z := rfl
@[simp] theorem exec_cuTrig (u : Fin 16) (sub : Fin 2621440) (z : State) : exec (.cuTrig u sub) z = execCuTrig u sub z := rfl
@[simp] theorem exec_cuRdtrg (u : Fin 16) (z : State) : exec (.cuRdtrg u) z = execCuRdtrg u z := rfl
@[simp] theorem exec_cuQpop (u : Fin 16) (z : State) : exec (.cuQpop u) z = execCuQpop u z := rfl
@[simp] theorem exec_cuQrd (u : Fin 16) (z : State) : exec (.cuQrd u) z = execCuQrd u z := rfl
@[simp] theorem exec_cuQfree (u : Fin 16) (z : State) : exec (.cuQfree u) z = execCuQfree u z := rfl
@[simp] theorem exec_cuSend (u : Fin 16) (z : State) : exec (.cuSend u) z = execCuSend u z := rfl
@[simp] theorem exec_cuQstat (u : Fin 16) (z : State) : exec (.cuQstat u) z = execCuQstat u z := rfl
@[simp] theorem exec_cuVadd (u : Fin 16) (z : State) : exec (.cuVadd u) z = execCuVadd u z := rfl
@[simp] theorem exec_cuVsub (u : Fin 16) (z : State) : exec (.cuVsub u) z = execCuVsub u z := rfl
@[simp] theorem exec_cuVmov (u : Fin 16) (z : State) : exec (.cuVmov u) z = execCuVmov u z := rfl
@[simp] theorem exec_cuVswap (u : Fin 16) (z : State) : exec (.cuVswap u) z = execCuVswap u z := rfl
@[simp] theorem exec_cuVconj (u : Fin 16) (z : State) : exec (.cuVconj u) z = execCuVconj u z := rfl
@[simp] theorem exec_cuVbf (u : Fin 16) (z : State) : exec (.cuVbf u) z = execCuVbf u z := rfl
@[simp] theorem exec_cuVspl (u : Fin 16) (z : State) : exec (.cuVspl u) z = execCuVspl u z := rfl
@[simp] theorem exec_cuVcmul (u : Fin 16) (z : State) : exec (.cuVcmul u) z = execCuVcmul u z := rfl
@[simp] theorem exec_cuVmac (u : Fin 16) (z : State) : exec (.cuVmac u) z = execCuVmac u z := rfl
@[simp] theorem exec_cuVmsu (u : Fin 16) (z : State) : exec (.cuVmsu u) z = execCuVmsu u z := rfl
@[simp] theorem exec_cuVmul (u : Fin 16) (z : State) : exec (.cuVmul u) z = execCuVmul u z := rfl
@[simp] theorem exec_cuVcmac (u : Fin 16) (z : State) : exec (.cuVcmac u) z = execCuVcmac u z := rfl
@[simp] theorem exec_cuVcmacj (u : Fin 16) (z : State) : exec (.cuVcmacj u) z = execCuVcmacj u z := rfl
@[simp] theorem exec_cuVsq (u : Fin 16) (z : State) : exec (.cuVsq u) z = execCuVsq u z := rfl
@[simp] theorem exec_cuAclr (u : Fin 16) (z : State) : exec (.cuAclr u) z = execCuAclr u z := rfl
@[simp] theorem exec_cuVnar (u : Fin 16) (z : State) : exec (.cuVnar u) z = execCuVnar u z := rfl
@[simp] theorem exec_cuAred (u : Fin 16) (z : State) : exec (.cuAred u) z = execCuAred u z := rfl
@[simp] theorem exec_cuAxh (u : Fin 16) (z : State) : exec (.cuAxh u) z = execCuAxh u z := rfl
@[simp] theorem exec_cuAxl (u : Fin 16) (z : State) : exec (.cuAxl u) z = execCuAxl u z := rfl
@[simp] theorem exec_cuLoop (u : Fin 16) (z : State) : exec (.cuLoop u) z = execCuLoop u z := rfl
@[simp] theorem exec_cuLoad (z : State) : exec (.cuLoad) z = execCuLoad z := rfl
@[simp] theorem exec_cuRun (z : State) : exec (.cuRun) z = execCuRun z := rfl
@[simp] theorem exec_cuRunDue (ring index : Nat) (z : State) : exec (.cuRunDue ring index) z = execCuRunDue ring index z := rfl
@[simp] theorem exec_cuStop (z : State) : exec (.cuStop) z = execCuStop z := rfl
@[simp] theorem exec_cuStopDue (ring index : Nat) (z : State) : exec (.cuStopDue ring index) z = execCuStopDue ring index z := rfl
@[simp] theorem exec_trainingStart (p : Option Path) (b : MemBoard) (z : State) : exec (.trainingStart p b) z = execTrainingStart p b z := rfl
@[simp] theorem exec_trainingDone (c : Fin 6) (ok : Bool) (step : Fin 10) (z : State) : exec (.trainingDone c ok step) z = execTrainingDone c ok step z := rfl
@[simp] theorem exec_initDone (c : Fin 6) (z : State) : exec (.initDone c) z = execInitDone c z := rfl
@[simp] theorem exec_refreshDue (c : Fin 6) (bank : Fin 128) (busy : Bool) (z : State) : exec (.refreshDue c bank busy) z = execRefreshDue c bank busy z := rfl
@[simp] theorem exec_mr4Read (c : Fin 6) (hot : Bool) (z : State) : exec (.mr4Read c hot) z = execMr4Read c hot z := rfl
@[simp] theorem exec_periodicCalibration (c : Fin 6) (drift : Bool) (z : State) : exec (.periodicCalibration c drift) z = execPeriodicCalibration c drift z := rfl
@[simp] theorem exec_alertN (c : Fin 6) (z : State) : exec (.alertN c) z = execAlertN c z := rfl
@[simp] theorem exec_replayDone (c : Fin 6) (z : State) : exec (.replayDone c) z = execReplayDone c z := rfl
@[simp] theorem exec_scrubLine (c : Fin 6) (r : LineRead) (use : LineUse) (z : State) : exec (.scrubLine c r use) z = execScrubLine c r use z := rfl
@[simp] theorem exec_memFence (p : Path) (ch : Fin 8) (key : BitVec 16) (z : State) : exec (.memFence p ch key) z = execMemFence p ch key z := rfl
@[simp] theorem exec_channelFence (c : Fin 6) (cause : Fin 5) (z : State) : exec (.channelFence c cause) z = execChannelFence c cause z := rfl
@[simp] theorem exec_poundRelay (n : Fin 64) (z : State) : exec (.poundRelay n) z = execPoundRelay n z := rfl
@[simp] theorem exec_poundEnable (p : Path) (n : Fin 64) (w : Word) (z : State) : exec (.poundEnable p n w) z = execPoundEnable p n w z := rfl
@[simp] theorem exec_poundFreeze (p : Path) (n : Fin 64) (on : Bool) (z : State) : exec (.poundFreeze p n on) z = execPoundFreeze p n on z := rfl
@[simp] theorem exec_bargeCommit (n : Fin 64) (z : State) : exec (.bargeCommit n) z = execBargeCommit n z := rfl
@[simp] theorem exec_drainRead (n : Fin 64) (d : Fin 4) (errs : List LineErr) (z : State) : exec (.drainRead n d errs) z = execDrainRead n d errs z := rfl
@[simp] theorem exec_captureAccepted (z : State) : exec (.captureAccepted) z = execCaptureAccepted z := rfl
@[simp] theorem exec_captureBargeRead (num : Nat) (errs : List LineErr) (overtaken : Bool) (z : State) : exec (.captureBargeRead num errs overtaken) z = execCaptureBargeRead num errs overtaken z := rfl
@[simp] theorem exec_poundCut (z : State) : exec (.poundCut) z = execPoundCut z := rfl
@[simp] theorem exec_linkTrained (width rate : Nat) (flit : Bool) (z : State) : exec (.linkTrained width rate flit) z = execLinkTrained width rate flit z := rfl
@[simp] theorem exec_hotReset (z : State) : exec (.hotReset) z = execHotReset z := rfl
@[simp] theorem exec_poisonedTlpReceived (t : PoisonedTlp) (z : State) : exec (.poisonedTlpReceived t) z = execPoisonedTlpReceived t z := rfl
@[simp] theorem exec_completionTimeout (r : ReadOf) (z : State) : exec (.completionTimeout r) z = execCompletionTimeout r z := rfl
@[simp] theorem exec_powerStateChange (fn : Fin 2) (d3 : Bool) (z : State) : exec (.powerStateChange fn d3) z = execPowerStateChange fn d3 z := rfl
@[simp] theorem exec_vectorModerationEnd (fn : Fin 2) (v : Fin 64) (z : State) : exec (.vectorModerationEnd fn v) z = execVectorModerationEnd fn v z := rfl
@[simp] theorem exec_tokenReq (p : Path) (z : State) : exec (.tokenReq p) z = execTokenReq p z := rfl
@[simp] theorem exec_tokenRel (p : Path) (z : State) : exec (.tokenRel p) z = execTokenRel p z := rfl
@[simp] theorem exec_mgmtTokenReq (z : State) : exec (.mgmtTokenReq) z = execMgmtTokenReq z := rfl
@[simp] theorem exec_mgmtTokenRel (z : State) : exec (.mgmtTokenRel) z = execMgmtTokenRel z := rfl
@[simp] theorem exec_mgmtForce (key : BitVec 16) (z : State) : exec (.mgmtForce key) z = execMgmtForce key z := rfl
@[simp] theorem exec_lookoutPoll (tails : List (Nat × Word)) (ok : Bool) (z : State) : exec (.lookoutPoll tails ok) z = execLookoutPoll tails ok z := rfl
@[simp] theorem exec_entryFetched (x : Fin 114) (es : List FetchResult) (z : State) : exec (.entryFetched x es) z = execEntryFetched x es z := rfl
@[simp] theorem exec_orderAcceptance (z : State) : exec (.orderAcceptance) z = execOrderAcceptance z := rfl
@[simp] theorem exec_park (z : State) : exec (.park) z = execPark z := rfl
@[simp] theorem exec_finalPollResult (tails : List (Nat × Word)) (ok : Bool) (z : State) : exec (.finalPollResult tails ok) z = execFinalPollResult tails ok z := rfl
@[simp] theorem exec_wake (z : State) : exec (.wake) z = execWake z := rfl
@[simp] theorem exec_nop (z : State) : exec (.nop) z = execNop z := rfl
@[simp] theorem exec_cancel (z : State) : exec (.cancel) z = execCancel z := rfl
@[simp] theorem exec_bargeDelivery (x : Fin 64) (bad : List (Nat × Nat)) (z : State) : exec (.bargeDelivery x bad) z = execBargeDelivery x bad z := rfl
@[simp] theorem exec_bufferCloseTimer (x : Fin 64) (z : State) : exec (.bufferCloseTimer x) z = execBufferCloseTimer x z := rfl
@[simp] theorem exec_ringFlush (p : Path) (x : Fin 64) (z : State) : exec (.ringFlush p x) z = execRingFlush p x z := rfl
@[simp] theorem exec_ringEnWrite (p : Path) (x : Fin 114) (en : Bool) (log2 : Fin 32) (z : State) : exec (.ringEnWrite p x en log2) z = execRingEnWrite p x en log2 z := rfl
@[simp] theorem exec_er1TailWrite (tail : Word) (z : State) : exec (.er1TailWrite tail) z = execEr1TailWrite tail z := rfl
@[simp] theorem exec_eventRecordWrite (r : Fin 2) (z : State) : exec (.eventRecordWrite r) z = execEventRecordWrite r z := rfl
@[simp] theorem exec_moveStart (c : Fin 32) (errs : List LineErr) (z : State) : exec (.moveStart c errs) z = execMoveStart c errs z := rfl
@[simp] theorem exec_moveDone (c : Fin 32) (data : List Byte) (n : Nat) (reason : Fin 5) (z : State) : exec (.moveDone c data n reason) z = execMoveDone c data n reason z := rfl
@[simp] theorem exec_pacedRequest (line : Fin 64) (data : List Byte) (z : State) : exec (.pacedRequest line data) z = execPacedRequest line data z := rfl
@[simp] theorem exec_admissionRequest (q : Fin 4096) (b : Barge) (c : CopyRead) (z : State) : exec (.admissionRequest q b c) z = execAdmissionRequest q b c z := rfl
@[simp] theorem exec_cellVisible (q : Fin 4096) (z : State) : exec (.cellVisible q) z = execCellVisible q z := rfl
@[simp] theorem exec_cellFree (cell : Fin 131072) (q : Fin 4096) (epoch : Fin 4) (by_ : FreeAgent) (c : CopyRead) (z : State) : exec (.cellFree cell q epoch by_ c) z = execCellFree cell q epoch by_ c z := rfl
@[simp] theorem exec_queueEnWrite (p : Path) (w : Word) (z : State) : exec (.queueEnWrite p w) z = execQueueEnWrite p w z := rfl
@[simp] theorem exec_reclaimDone (q : Fin 4096) (z : State) : exec (.reclaimDone q) z = execReclaimDone q z := rfl
@[simp] theorem exec_queueRebuildDone (q : Fin 4096) (ok : Bool) (z : State) : exec (.queueRebuildDone q ok) z = execQueueRebuildDone q ok z := rfl
@[simp] theorem exec_queueQuiesce (z : State) : exec (.queueQuiesce) z = execQueueQuiesce z := rfl
@[simp] theorem exec_queueQuiesceDue (ring index : Nat) (z : State) : exec (.queueQuiesceDue ring index) z = execQueueQuiesceDue ring index z := rfl
@[simp] theorem exec_nvmePortEnable (p : Path) (d : Fin 2) (w : Word) (z : State) : exec (.nvmePortEnable p d w) z = execNvmePortEnable p d w z := rfl
@[simp] theorem exec_driveLinkUp (n : Fin 8) (up : Bool) (width : Fin 9) (rate : Fin 6) (z : State) : exec (.driveLinkUp n up width rate) z = execDriveLinkUp n up width rate z := rfl
@[simp] theorem exec_driveInitDone (n : Fin 8) (r : DriveInit) (z : State) : exec (.driveInitDone n r) z = execDriveInitDone n r z := rfl
@[simp] theorem exec_driveCommandTimeout (n : Fin 8) (z : State) : exec (.driveCommandTimeout n) z = execDriveCommandTimeout n z := rfl
@[simp] theorem exec_driveResetDone (n : Fin 8) (ok : Bool) (width : Fin 9) (rate : Fin 6) (z : State) : exec (.driveResetDone n ok width rate) z = execDriveResetDone n ok width rate z := rfl
@[simp] theorem exec_nvmeDmaAccess (n : Fin 8) (z : State) : exec (.nvmeDmaAccess n) z = execNvmeDmaAccess n z := rfl
@[simp] theorem exec_nvmeSlotEnable (p : Path) (j : Fin 8) (w : Word) (z : State) : exec (.nvmeSlotEnable p j w) z = execNvmeSlotEnable p j w z := rfl
@[simp] theorem exec_recordingEnable (p : Path) (r : Fin 8) (w : Word) (z : State) : exec (.recordingEnable p r w) z = execRecordingEnable p r w z := rfl
@[simp] theorem exec_recordingStop (p : Path) (r : Fin 8) (z : State) : exec (.recordingStop p r) z = execRecordingStop p r z := rfl
@[simp] theorem exec_chunkCloseTimer (r : Fin 8) (z : State) : exec (.chunkCloseTimer r) z = execChunkCloseTimer r z := rfl
@[simp] theorem exec_writeCompletion (r : Fin 8) (chunk i : Nat) (ok : Bool) (z : State) : exec (.writeCompletion r chunk i ok) z = execWriteCompletion r chunk i ok z := rfl
@[simp] theorem exec_nvmeRead (z : State) : exec (.nvmeRead) z = execNvmeRead z := rfl
@[simp] theorem exec_nvmeTrim (z : State) : exec (.nvmeTrim) z = execNvmeTrim z := rfl
@[simp] theorem exec_seqLoad (z : State) : exec (.seqLoad) z = execSeqLoad z := rfl
@[simp] theorem exec_seqStart (z : State) : exec (.seqStart) z = execSeqStart z := rfl
@[simp] theorem exec_seqStop (z : State) : exec (.seqStop) z = execSeqStop z := rfl
@[simp] theorem exec_skewCal (z : State) : exec (.skewCal) z = execSkewCal z := rfl
@[simp] theorem exec_skewCalDone (trims : List (Fin 512 × Fin 64 × Int)) (inRange : Bool) (z : State) : exec (.skewCalDone trims inRange) z = execSkewCalDone trims inRange z := rfl
@[simp] theorem exec_granuleCommit (g : Fin 8) (late : Bool) (errs : List LineErr) (z : State) : exec (.granuleCommit g late errs) z = execGranuleCommit g late errs z := rfl
@[simp] theorem exec_sgRelease (p : Path) (g : Fin 8) (z : State) : exec (.sgRelease p g) z = execSgRelease p g z := rfl
@[simp] theorem exec_sgStopWrite (p : Path) (g : Fin 8) (z : State) : exec (.sgStopWrite p g) z = execSgStopWrite p g z := rfl
@[simp] theorem exec_sgEnWrite (p : Path) (g : Fin 8) (en : Bool) (z : State) : exec (.sgEnWrite p g en) z = execSgEnWrite p g en z := rfl
@[simp] theorem exec_probeGroupsWrite (p : Path) (w : Word) (z : State) : exec (.probeGroupsWrite p w) z = execProbeGroupsWrite p w z := rfl
@[simp] theorem exec_probeLaneEnable (p : Path) (n : Fin 16) (en : Bool) (z : State) : exec (.probeLaneEnable p n en) z = execProbeLaneEnable p n en z := rfl
@[simp] theorem exec_probeTrainingTimeout (n : Fin 16) (z : State) : exec (.probeTrainingTimeout n) z = execProbeTrainingTimeout n z := rfl
@[simp] theorem exec_probeLaneAligned (n : Fin 16) (z : State) : exec (.probeLaneAligned n) z = execProbeLaneAligned n z := rfl
@[simp] theorem exec_probeHello (n : Fin 16) (version : Fin 65536) (width : Fin 16) (pclk : Word) (z : State) : exec (.probeHello n version width pclk) z = execProbeHello n version width pclk z := rfl
@[simp] theorem exec_probeSyncLoss (n : Fin 16) (headers : Bool) (z : State) : exec (.probeSyncLoss n headers) z = execProbeSyncLoss n headers z := rfl
@[simp] theorem exec_frameLost (n : Fin 16) (z : State) : exec (.frameLost n) z = execFrameLost n z := rfl
@[simp] theorem exec_probeBeacon (n : Fin 16) (z : State) : exec (.probeBeacon n) z = execProbeBeacon n z := rfl
@[simp] theorem exec_echoFrame (n : Fin 16) (f : ProbeFrame) (sub : Fin 2621440) (turnaround : Nat) (z : State) : exec (.echoFrame n f sub turnaround) z = execEchoFrame n f sub turnaround z := rfl
@[simp] theorem exec_creditFrame (n : Fin 16) (f : ProbeFrame) (z : State) : exec (.creditFrame n f) z = execCreditFrame n f z := rfl
@[simp] theorem exec_vcsFrame (n : Fin 16) (f : ProbeFrame) (z : State) : exec (.vcsFrame n f) z = execVcsFrame n f z := rfl
@[simp] theorem exec_netsFrame (n : Fin 16) (f : ProbeFrame) (z : State) : exec (.netsFrame n f) z = execNetsFrame n f z := rfl
@[simp] theorem exec_subAckFrame (n : Fin 16) (f : ProbeFrame) (z : State) : exec (.subAckFrame n f) z = execSubAckFrame n f z := rfl
@[simp] theorem exec_probeBargeClose (set : Fin 16) (z : State) : exec (.probeBargeClose set) z = execProbeBargeClose set z := rfl
@[simp] theorem exec_bridgeSend (b : Fin 8) (z : State) : exec (.bridgeSend b) z = execBridgeSend b z := rfl
@[simp] theorem exec_stimFrameSend (g : Fin 4) (z : State) : exec (.stimFrameSend g) z = execStimFrameSend g z := rfl
@[simp] theorem exec_vcEnable (p : Path) (v : Fin 8) (w : Word) (z : State) : exec (.vcEnable p v w) z = execVcEnable p v w z := rfl
@[simp] theorem exec_bpEnable (p : Path) (b : Fin 8) (w : Word) (z : State) : exec (.bpEnable p b w) z = execBpEnable p b w z := rfl
@[simp] theorem exec_egEnable (p : Path) (g : Fin 4) (w : Word) (z : State) : exec (.egEnable p g w) z = execEgEnable p g w z := rfl
@[simp] theorem exec_probeCatLoad (z : State) : exec (.probeCatLoad) z = execProbeCatLoad z := rfl
@[simp] theorem exec_probeSub (z : State) : exec (.probeSub) z = execProbeSub z := rfl
@[simp] theorem exec_subAckTimeout (ring index : Nat) (z : State) : exec (.subAckTimeout ring index) z = execSubAckTimeout ring index z := rfl
@[simp] theorem exec_tdcEdge (i : Fin 16) (rising : Bool) (sub : Fin 2621440) (z : State) : exec (.tdcEdge i rising sub) z = execTdcEdge i rising sub z := rfl
@[simp] theorem exec_tdcWindowEnd (c : Fin 8) (z : State) : exec (.tdcWindowEnd c) z = execTdcWindowEnd c z := rfl
@[simp] theorem exec_gateEnd (i : Fin 16) (z : State) : exec (.gateEnd i) z = execGateEnd i z := rfl
@[simp] theorem exec_tdcBargeClose (n : Fin 32) (z : State) : exec (.tdcBargeClose n) z = execTdcBargeClose n z := rfl
@[simp] theorem exec_tdcInEnable (p : Path) (i : Fin 16) (w : Word) (z : State) : exec (.tdcInEnable p i w) z = execTdcInEnable p i w z := rfl
@[simp] theorem exec_tdcFanWrite (p : Path) (w : Word) (z : State) : exec (.tdcFanWrite p w) z = execTdcFanWrite p w z := rfl
@[simp] theorem exec_timeIncWrite (p : Path) (w : Word) (z : State) : exec (.timeIncWrite p w) z = execTimeIncWrite p w z := rfl
@[simp] theorem exec_timeServoWrite (p : Path) (locked : Bool) (z : State) : exec (.timeServoWrite p locked) z = execTimeServoWrite p locked z := rfl
@[simp] theorem exec_holdTimeout (z : State) : exec (.holdTimeout) z = execHoldTimeout z := rfl
@[simp] theorem exec_timeModeWrite (p : Path) (w : Word) (z : State) : exec (.timeModeWrite p w) z = execTimeModeWrite p w z := rfl
@[simp] theorem exec_timeStep (z : State) : exec (.timeStep) z = execTimeStep z := rfl
@[simp] theorem exec_stepTick (z : State) : exec (.stepTick) z = execStepTick z := rfl
@[simp] theorem exec_tgEnable (p : Path) (g : Fin 32) (w : Word) (z : State) : exec (.tgEnable p g w) z = execTgEnable p g w z := rfl
@[simp] theorem exec_gateAnnounce (g : Fin 32) (z : State) : exec (.gateAnnounce g) z = execGateAnnounce g z := rfl
@[simp] theorem exec_gateFiring (g : Fin 32) (z : State) : exec (.gateFiring g) z = execGateFiring g z := rfl
@[simp] theorem exec_gateWake (g : Fin 32) (z : State) : exec (.gateWake g) z = execGateWake g z := rfl
@[simp] theorem exec_ethTxGo (p : Path) (t : Fin 2) (w : Word) (z : State) : exec (.ethTxGo p t w) z = execEthTxGo p t w z := rfl
@[simp] theorem exec_ethTxDone (t : Fin 2) (sub : Fin 2621440) (z : State) : exec (.ethTxDone t sub) z = execEthTxDone t sub z := rfl
@[simp] theorem exec_ethFrameReceived (bytes : List Byte) (sub : Fin 2621440) (z : State) : exec (.ethFrameReceived bytes sub) z = execEthFrameReceived bytes sub z := rfl
@[simp] theorem exec_kxLinkEnable (p : Path) (l : Fin 6) (en : Bool) (z : State) : exec (.kxLinkEnable p l en) z = execKxLinkEnable p l en z := rfl
@[simp] theorem exec_kxHello (device : Fin 16) (l : Fin 6) (devid : Fin 262144) (refMaster : Option (Fin 262144)) (slot : Fin 16) (z : State) : exec (.kxHello device l devid refMaster slot) z = execKxHello device l devid refMaster slot z := rfl
@[simp] theorem exec_kxLinkLoss (device : Fin 16) (l : Fin 6) (z : State) : exec (.kxLinkLoss device l) z = execKxLinkLoss device l z := rfl
@[simp] theorem exec_timeBeaconSend (echoes : List (Fin 6 × Nat)) (z : State) : exec (.timeBeaconSend echoes) z = execTimeBeaconSend echoes z := rfl
@[simp] theorem exec_timeBeaconReceived (l : Fin 6) (b : KxBeacon) (sub : Fin 2621440) (roundTrip : Option Nat) (rootSync : Option (BitVec 96)) (z : State) : exec (.timeBeaconReceived l b sub roundTrip rootSync) z = execTimeBeaconReceived l b sub roundTrip rootSync z := rfl
@[simp] theorem exec_followLostTimeout (z : State) : exec (.followLostTimeout) z = execFollowLostTimeout z := rfl
@[simp] theorem exec_remoteTriggerReceived (l : Fin 6) (t : KxTrigger) (sub : Fin 2621440) (z : State) : exec (.remoteTriggerReceived l t sub) z = execRemoteTriggerReceived l t sub z := rfl
@[simp] theorem exec_remoteTriggerDue (z : State) : exec (.remoteTriggerDue) z = execRemoteTriggerDue z := rfl
@[simp] theorem exec_akwauneFrameReceived (bytes : List Byte) (sub : Fin 2621440) (z : State) : exec (.akwauneFrameReceived bytes sub) z = execAkwauneFrameReceived bytes sub z := rfl
@[simp] theorem exec_kxSpEnable (p : Path) (k : Fin 16) (w : Word) (z : State) : exec (.kxSpEnable p k w) z = execKxSpEnable p k w z := rfl
@[simp] theorem exec_refclkLoss (z : State) : exec (.refclkLoss) z = execRefclkLoss z := rfl
@[simp] theorem exec_refclkHoldoverExpiry (z : State) : exec (.refclkHoldoverExpiry) z = execRefclkHoldoverExpiry z := rfl
@[simp] theorem exec_refclkRestored (z : State) : exec (.refclkRestored) z = execRefclkRestored z := rfl
@[simp] theorem exec_pllLockAcquired (k : Fin 8) (first second diff : BitVec 8) (z : State) : exec (.pllLockAcquired k first second diff) z = execPllLockAcquired k first second diff z := rfl
@[simp] theorem exec_pllLockLoss (k : Fin 5) (first diff : BitVec 8) (z : State) : exec (.pllLockLoss k first diff) z = execPllLockLoss k first diff z := rfl
@[simp] theorem exec_clkoutEnable (p : Path) (o : Fin 4) (w : Word) (z : State) : exec (.clkoutEnable p o w) z = execClkoutEnable p o w z := rfl
@[simp] theorem exec_swsRun (p : Path) (w : Word) (z : State) : exec (.swsRun p w) z = execSwsRun p w z := rfl
@[simp] theorem exec_swsStop (p : Path) (w : Word) (z : State) : exec (.swsStop p w) z = execSwsStop p w z := rfl
@[simp] theorem exec_swsSegmentAdvance (z : State) : exec (.swsSegmentAdvance) z = execSwsSegmentAdvance z := rfl
@[simp] theorem exec_powerMode (z : State) : exec (.powerMode) z = execPowerMode z := rfl
@[simp] theorem exec_powerRequest (p : Path) (req : Fin 4) (z : State) : exec (.powerRequest p req) z = execPowerRequest p req z := rfl
@[simp] theorem exec_powerCancel (p : Path) (z : State) : exec (.powerCancel p) z = execPowerCancel p z := rfl
@[simp] theorem exec_powerRequestCarriedOut (z : State) : exec (.powerRequestCarriedOut) z = execPowerRequestCarriedOut z := rfl
@[simp] theorem exec_sleepDrainEnd (z : State) : exec (.sleepDrainEnd) z = execSleepDrainEnd z := rfl
@[simp] theorem exec_modeEntryComplete (z : State) : exec (.modeEntryComplete) z = execModeEntryComplete z := rfl
@[simp] theorem exec_wakeCause (z : State) : exec (.wakeCause) z = execWakeCause z := rfl
@[simp] theorem exec_returnComplete (failed : List (Fin 6)) (z : State) : exec (.returnComplete failed) z = execReturnComplete failed z := rfl
@[simp] theorem exec_autoPolicy (z : State) : exec (.autoPolicy) z = execAutoPolicy z := rfl
@[simp] theorem exec_fsSet (z : State) : exec (.fsSet) z = execFsSet z := rfl
@[simp] theorem exec_fsRelockDone (ring index : Nat) (ok : Bool) (z : State) : exec (.fsRelockDone ring index ok) z = execFsRelockDone ring index ok z := rfl
@[simp] theorem exec_pwmPeriodStart (i : Fin 4) (z : State) : exec (.pwmPeriodStart i) z = execPwmPeriodStart i z := rfl
@[simp] theorem exec_boot (part : Option FlashPart) (z : State) : exec (.boot part) z = execBoot part z := rfl
@[simp] theorem exec_firmwareReady (z : State) : exec (.firmwareReady) z = execFirmwareReady z := rfl
@[simp] theorem exec_watchdogExpiry (k : Fin 4) (z : State) : exec (.watchdogExpiry k) z = execWatchdogExpiry k z := rfl
@[simp] theorem exec_lkReady (k : Fin 4) (z : State) : exec (.lkReady k) z = execLkReady k z := rfl
@[simp] theorem exec_lkRestartTimeout (k : Fin 4) (z : State) : exec (.lkRestartTimeout k) z = execLkRestartTimeout k z := rfl
@[simp] theorem exec_fwsVerify (p : Path) (z : State) : exec (.fwsVerify p) z = execFwsVerify p z := rfl
@[simp] theorem exec_fwsWrite (p : Path) (z : State) : exec (.fwsWrite p) z = execFwsWrite p z := rfl
@[simp] theorem exec_fwsRun (p : Path) (z : State) : exec (.fwsRun p) z = execFwsRun p z := rfl
@[simp] theorem exec_stagingDone (img : FwImage) (flashOk : Bool) (z : State) : exec (.stagingDone img flashOk) z = execStagingDone img flashOk z := rfl
@[simp] theorem exec_mailboxInWrite (p : Path) (ch : Fin 16) (w : Word) (z : State) : exec (.mailboxInWrite p ch w) z = execMailboxInWrite p ch w z := rfl
@[simp] theorem exec_mailboxOutRead (p : Path) (ch : Fin 16) (z : State) : exec (.mailboxOutRead p ch) z = execMailboxOutRead p ch z := rfl
@[simp] theorem exec_retract (p : Path) (ch : Fin 16) (z : State) : exec (.retract p ch) z = execRetract p ch z := rfl
@[simp] theorem exec_firmwareInRead (ch : Fin 16) (z : State) : exec (.firmwareInRead ch) z = execFirmwareInRead ch z := rfl
@[simp] theorem exec_firmwareOutWrite (ch : Fin 16) (z : State) : exec (.firmwareOutWrite ch) z = execFirmwareOutWrite ch z := rfl
@[simp] theorem exec_version (ch : Fin 16) (z : State) : exec (.version ch) z = execVersion ch z := rfl
@[simp] theorem exec_health (ch : Fin 16) (z : State) : exec (.health ch) z = execHealth ch z := rfl
@[simp] theorem exec_fwActivate (ch : Fin 16) (z : State) : exec (.fwActivate ch) z = execFwActivate ch z := rfl
@[simp] theorem exec_fwCommit (ch : Fin 16) (z : State) : exec (.fwCommit ch) z = execFwCommit ch z := rfl
@[simp] theorem exec_svnCommit (ch : Fin 16) (z : State) : exec (.svnCommit ch) z = execSvnCommit ch z := rfl
@[simp] theorem exec_cfgWrite (ch : Fin 16) (z : State) : exec (.cfgWrite ch) z = execCfgWrite ch z := rfl
@[simp] theorem exec_logRead (ch : Fin 16) (z : State) : exec (.logRead ch) z = execLogRead ch z := rfl
@[simp] theorem exec_pnlInfo (ch : Fin 16) (z : State) : exec (.pnlInfo ch) z = execPnlInfo ch z := rfl
@[simp] theorem exec_pnlOwner (ch : Fin 16) (z : State) : exec (.pnlOwner ch) z = execPnlOwner ch z := rfl
@[simp] theorem exec_pnlBlit (ch : Fin 16) (z : State) : exec (.pnlBlit ch) z = execPnlBlit ch z := rfl
@[simp] theorem exec_pnlFill (ch : Fin 16) (z : State) : exec (.pnlFill ch) z = execPnlFill ch z := rfl
@[simp] theorem exec_pnlPush (ch : Fin 16) (z : State) : exec (.pnlPush ch) z = execPnlPush ch z := rfl
@[simp] theorem exec_unknownService (ch : Fin 16) (z : State) : exec (.unknownService ch) z = execUnknownService ch z := rfl
@[simp] theorem exec_monId (z : State) : exec (.monId) z = execMonId z := rfl
@[simp] theorem exec_monRdB0 (a n : Nat) (z : State) : exec (.monRdB0 a n) z = execMonRdB0 a n z := rfl
@[simp] theorem exec_monRdB2 (a n : Nat) (z : State) : exec (.monRdB2 a n) z = execMonRdB2 a n z := rfl
@[simp] theorem exec_monWr (a : Nat) (v : Word) (z : State) : exec (.monWr a v) z = execMonWr a v z := rfl
@[simp] theorem exec_monTokReq (z : State) : exec (.monTokReq) z = execMonTokReq z := rfl
@[simp] theorem exec_monTokRel (z : State) : exec (.monTokRel) z = execMonTokRel z := rfl
@[simp] theorem exec_monLk (z : State) : exec (.monLk) z = execMonLk z := rfl
@[simp] theorem exec_monEv (z : State) : exec (.monEv) z = execMonEv z := rfl
@[simp] theorem exec_monTime (z : State) : exec (.monTime) z = execMonTime z := rfl
@[simp] theorem exec_monMbWrite (w : Word) (z : State) : exec (.monMbWrite w) z = execMonMbWrite w z := rfl
@[simp] theorem exec_monMbRead (z : State) : exec (.monMbRead) z = execMonMbRead z := rfl
@[simp] theorem exec_monBaud (r : Nat) (z : State) : exec (.monBaud r) z = execMonBaud r z := rfl
@[simp] theorem exec_monReset (k : Word) (z : State) : exec (.monReset k) z = execMonReset k z := rfl
@[simp] theorem exec_monHelp (z : State) : exec (.monHelp) z = execMonHelp z := rfl
@[simp] theorem exec_monUnknown (lost : Nat) (z : State) : exec (.monUnknown lost) z = execMonUnknown lost z := rfl
@[simp] theorem exec_monOffWrite (p : Path) (off : Bool) (z : State) : exec (.monOffWrite p off) z = execMonOffWrite p off z := rfl
@[simp] theorem exec_smbS4Write (w : Word) (pec : Bool) (z : State) : exec (.smbS4Write w pec) z = execSmbS4Write w pec z := rfl
@[simp] theorem exec_smbS4Read (z : State) : exec (.smbS4Read) z = execSmbS4Read z := rfl
@[simp] theorem exec_smbS4Status (z : State) : exec (.smbS4Status) z = execSmbS4Status z := rfl
@[simp] theorem exec_smbMgmtAddr (w : Word) (pec : Bool) (z : State) : exec (.smbMgmtAddr w pec) z = execSmbMgmtAddr w pec z := rfl
@[simp] theorem exec_smbMgmtData (w : Option Word) (pec : Bool) (z : State) : exec (.smbMgmtData w pec) z = execSmbMgmtData w pec z := rfl
@[simp] theorem exec_evInject (p : Path) (src : Fin 512) (key : BitVec 16) (z : State) : exec (.evInject p src key) z = execEvInject p src key z := rfl
@[simp] theorem exec_containmentClose (z : State) : exec (.containmentClose) z = execContainmentClose z := rfl
@[simp] theorem exec_fullReset (p : Path) (key : BitVec 16) (z : State) : exec (.fullReset p key) z = execFullReset p key z := rfl
@[simp] theorem exec_porL (st : Straps) (z : State) : exec (.porL st) z = execPorL st z := rfl
@[simp] theorem exec_perstL (z : State) : exec (.perstL) z = execPerstL z := rfl
@[simp] theorem exec_dispEnable (p : Path) (h : Fin 2) (w : Word) (z : State) : exec (.dispEnable p h w) z = execDispEnable p h w z := rfl
@[simp] theorem exec_commit (p : Path) (h : Fin 2) (z : State) : exec (.commit p h) z = execCommit p h z := rfl
@[simp] theorem exec_hpdPlug (h : Fin 2) (z : State) : exec (.hpdPlug h) z = execHpdPlug h z := rfl
@[simp] theorem exec_hpdUnplug (h : Fin 2) (z : State) : exec (.hpdUnplug h) z = execHpdUnplug h z := rfl
@[simp] theorem exec_hpdIrq (h : Fin 2) (lost : Bool) (z : State) : exec (.hpdIrq h lost) z = execHpdIrq h lost z := rfl
@[simp] theorem exec_dispTrainingDone (h : Fin 2) (rate : Fin 5) (lanes : Fin 5) (ok : Bool) (z : State) : exec (.dispTrainingDone h rate lanes ok) z = execDispTrainingDone h rate lanes ok z := rfl
@[simp] theorem exec_verticalBlankingStart (h : Fin 2) (z : State) : exec (.verticalBlankingStart h) z = execVerticalBlankingStart h z := rfl
@[simp] theorem exec_activeLineStart (h : Fin 2) (supplied : Fin 3841) (z : State) : exec (.activeLineStart h supplied) z = execActiveLineStart h supplied z := rfl
@[simp] theorem exec_dispEdid (z : State) : exec (.dispEdid) z = execDispEdid z := rfl
@[simp] theorem exec_dispPalette (z : State) : exec (.dispPalette) z = execDispPalette z := rfl
@[simp] theorem exec_pnlEnable (p : Path) (w : Word) (z : State) : exec (.pnlEnable p w) z = execPnlEnable p w z := rfl
@[simp] theorem exec_pnlPushTimer (z : State) : exec (.pnlPushTimer) z = execPnlPushTimer z := rfl
@[simp] theorem exec_timekeeperTick (z : State) : exec (.timekeeperTick) z = execTimekeeperTick z := rfl
@[simp] theorem exec_initPassedExtent (n : Fin 64) (z : State) : exec (.initPassedExtent n) z = execInitPassedExtent n z := rfl
@[simp] theorem exec_driveLinkDown (n : Fin 8) (z : State) : exec (.driveLinkDown n) z = execDriveLinkDown n z := rfl
@[simp] theorem exec_controllerFatalStatus (n : Fin 8) (z : State) : exec (.controllerFatalStatus n) z = execControllerFatalStatus n z := rfl
@[simp] theorem exec_kxStreamBargeArrival (k : Fin 16) (q : Fin 4096) (b : Barge) (endStamp : Nat) (lost : Option (Fin 64)) (z : State) : exec (.kxStreamBargeArrival k q b endStamp lost) z = execKxStreamBargeArrival k q b endStamp lost z := rfl
@[simp] theorem exec_probeFrameDropped (n : Fin 16) (crc : Bool) (z : State) : exec (.probeFrameDropped n crc) z = execProbeFrameDropped n crc z := rfl
@[simp] theorem exec_probeAdaptationDone (n : Fin 16) (z : State) : exec (.probeAdaptationDone n) z = execProbeAdaptationDone n z := rfl
@[simp] theorem exec_eth0LinkChange (up : Bool) (z : State) : exec (.eth0LinkChange up) z = execEth0LinkChange up z := rfl
@[simp] theorem exec_completionReceived (ring index off : Nat) (data : List Byte) (reason : Fin 5) (z : State) : exec (.completionReceived ring index off data reason) z = execCompletionReceived ring index off data reason z := rfl
@[simp] theorem exec_nvmeCommandCompletion (c : NvmeDone) (ok : Bool) (z : State) : exec (.nvmeCommandCompletion c ok) z = execNvmeCommandCompletion c ok z := rfl
@[simp] theorem exec_auxTransactionDone (ring index : Nat) (answer : Option (List Byte)) (z : State) : exec (.auxTransactionDone ring index answer) z = execAuxTransactionDone ring index answer z := rfl
@[simp] theorem exec_configSpaceWrite (fn : Fin 2) (c : CfgWrite) (z : State) : exec (.configSpaceWrite fn c) z = execConfigSpaceWrite fn c z := rfl
@[simp] theorem exec_swsSettled (z : State) : exec (.swsSettled) z = execSwsSettled z := rfl
@[simp] theorem exec_storedTrimsLoaded (n : Fin 4) (z : State) : exec (.storedTrimsLoaded n) z = execStoredTrimsLoaded n z := rfl
@[simp] theorem exec_pnlInitComplete (id : Word) (z : State) : exec (.pnlInitComplete id) z = execPnlInitComplete id z := rfl

end Machine
end Sys2Proof
end

