-- ==== Sys2Proof/Laws/Maps.lean ====
section
/-!
SUPPORT. Sparse maps and byte memories: reading after writing, and the canonical form that every operation keeps.
-/

namespace Sys2Proof
namespace Machine

variable {α : Type}

theorem SMap.find?_ins_same (m : List (Nat × α)) (k : Nat) (v : α) (h : ∀ e ∈ m, e.1 ≠ k) : SMap.find? (SMap.ins k v m) k = some v := by
  induction m with
  | nil => simp [SMap.ins, SMap.find?]
  | cons e t ih =>
    obtain ⟨a, b⟩ := e
    have hk : a ≠ k := h (a, b) (by simp)
    simp only [SMap.ins]
    split
    · simp [SMap.find?]
    · simp [SMap.find?, Ne.symm hk, ih (fun e he => h e (by simp [he]))]

theorem SMap.find?_ins_other (m : List (Nat × α)) (k k' : Nat) (v : α) (h : k' ≠ k) :
    SMap.find? (SMap.ins k v m) k' = SMap.find? m k' := by
  induction m with
  | nil => simp [SMap.ins, SMap.find?, h]
  | cons e t ih =>
    obtain ⟨a, b⟩ := e
    simp only [SMap.ins]
    split
    · simp [SMap.find?, h]
    · simp [SMap.find?, ih]

theorem SMap.find?_erase_same (m : List (Nat × α)) (k : Nat) : SMap.find? (SMap.erase m k) k = none := by
  induction m with
  | nil => simp [SMap.erase, SMap.find?]
  | cons e t ih =>
    obtain ⟨a, b⟩ := e
    rw [SMap.erase, List.filter_cons]
    split
    · rename_i hk
      have hk : a ≠ k := by simpa using hk
      simpa [SMap.find?, Ne.symm hk, SMap.erase] using ih
    · exact ih

theorem SMap.find?_erase_other (m : List (Nat × α)) (k k' : Nat) (h : k' ≠ k) : SMap.find? (SMap.erase m k) k' = SMap.find? m k' := by
  induction m with
  | nil => simp [SMap.erase, SMap.find?]
  | cons e t ih =>
    obtain ⟨a, b⟩ := e
    rw [SMap.erase, List.filter_cons]
    split
    · simp only [SMap.find?]; rw [← ih]; rfl
    · rename_i hk
      have hk : a = k := by simpa using hk
      subst hk
      simp only [SMap.find?, h, if_false]
      exact ih

theorem SMap.mem_erase (m : List (Nat × α)) (k : Nat) (e : Nat × α) (h : e ∈ SMap.erase m k) : e ∈ m ∧ e.1 ≠ k := by
  simpa [SMap.erase] using h

@[simp] theorem SMap.find?_put_same (m : List (Nat × α)) (k : Nat) (v : α) : SMap.find? (SMap.put m k v) k = some v :=
  SMap.find?_ins_same _ _ _ (fun e he => (SMap.mem_erase m k e he).2)

theorem SMap.find?_put_other (m : List (Nat × α)) (k k' : Nat) (v : α) (h : k' ≠ k) : SMap.find? (SMap.put m k v) k' = SMap.find? m k' := by
  rw [SMap.put, SMap.find?_ins_other _ _ _ _ h, SMap.find?_erase_other _ _ _ h]

/-! ### Strictly rising keys -/

theorem SMap.sorted_iff (m : List (Nat × α)) : SMap.sorted m = true ↔ (m.map Prod.fst).Pairwise (· < ·) := by
  induction m with
  | nil => simp [SMap.sorted]
  | cons e t ih =>
    obtain ⟨k, v⟩ := e
    cases t with
    | nil => simp [SMap.sorted]
    | cons e' t' =>
      obtain ⟨k', v'⟩ := e'
      simp only [SMap.sorted, Bool.and_eq_true, decide_eq_true_eq, ih]
      simp only [List.map_cons, List.pairwise_cons, List.mem_cons, List.mem_map, forall_eq_or_imp]
      constructor
      · rintro ⟨h, h1, h2⟩
        exact ⟨⟨h, fun a ha => lt_trans h (h1 a ha)⟩, h1, h2⟩
      · rintro ⟨⟨h, _⟩, h1, h2⟩
        exact ⟨h, h1, h2⟩

theorem SMap.sorted_erase (m : List (Nat × α)) (k : Nat) (h : SMap.sorted m = true) : SMap.sorted (SMap.erase m k) = true := by
  rw [SMap.sorted_iff] at *
  exact h.sublist ((List.filter_sublist).map Prod.fst)

theorem SMap.mem_ins (m : List (Nat × α)) (k : Nat) (v : α) (e : Nat × α) : e ∈ SMap.ins k v m ↔ e = (k, v) ∨ e ∈ m := by
  induction m with
  | nil => simp [SMap.ins]
  | cons e' t ih =>
    obtain ⟨a, b⟩ := e'
    simp only [SMap.ins]
    split
    · simp
    · simp only [List.mem_cons, ih]; tauto

theorem SMap.sorted_ins (m : List (Nat × α)) (k : Nat) (v : α) (h : SMap.sorted m = true) (hk : ∀ e ∈ m, e.1 ≠ k) :
    SMap.sorted (SMap.ins k v m) = true := by
  rw [SMap.sorted_iff] at *
  induction m with
  | nil => simp [SMap.ins]
  | cons e t ih =>
    obtain ⟨a, b⟩ := e
    have ha : a ≠ k := hk (a, b) (by simp)
    simp only [List.map_cons, List.pairwise_cons] at h
    simp only [SMap.ins]
    split
    · rename_i hlt
      simp only [List.map_cons, List.pairwise_cons, List.mem_cons, forall_eq_or_imp]
      exact ⟨⟨hlt, fun x hx => lt_trans hlt (h.1 x hx)⟩, h.1, h.2⟩
    · rename_i hlt
      simp only [List.map_cons, List.pairwise_cons]
      refine ⟨fun x hx => ?_, ih h.2 (fun e he => hk e (by simp [he]))⟩
      obtain ⟨e, he, rfl⟩ := List.mem_map.1 hx
      rcases (SMap.mem_ins t k v e).1 he with rfl | he
      · simp only; omega
      · exact h.1 _ (List.mem_map.2 ⟨e, he, rfl⟩)

theorem SMap.sorted_put (m : List (Nat × α)) (k : Nat) (v : α) (h : SMap.sorted m = true) : SMap.sorted (SMap.put m k v) = true :=
  SMap.sorted_ins _ _ _ (SMap.sorted_erase m k h) (fun e he => (SMap.mem_erase m k e he).2)

/-! ### Byte memories -/

/-- Every write keeps the canonical form. -/
theorem Mem.write_wf (d : Byte) (m : Mem) (a : Nat) (b : Byte) (h : Mem.wf d m = true) : Mem.wf d (Mem.write d m a b) = true := by
  simp only [Mem.wf, Bool.and_eq_true, List.all_eq_true, bne_iff_ne, ne_eq] at *
  unfold Mem.write
  split
  · exact ⟨SMap.sorted_erase _ _ h.1, fun e he => h.2 e (SMap.mem_erase _ _ _ he).1⟩
  · rename_i hb
    refine ⟨SMap.sorted_put _ _ _ h.1, fun e he => ?_⟩
    rcases (SMap.mem_ins _ _ _ _).1 he with rfl | he
    · exact hb
    · exact h.2 e (SMap.mem_erase _ _ _ he).1

theorem Mem.writes_wf (d : Byte) (bs : List Byte) (m : Mem) (a : Nat) (h : Mem.wf d m = true) : Mem.wf d (Mem.writes d m a bs) = true := by
  induction bs generalizing m a with
  | nil => exact h
  | cons b t ih => exact ih _ _ (Mem.write_wf d m a b h)

/-- What is left of a memory when some bytes read as unlisted. -/
theorem Mem.filter_wf (d : Byte) (m : Mem) (p : Nat × Byte → Bool) (h : Mem.wf d m = true) : Mem.wf d (m.filter p) = true := by
  simp only [Mem.wf, Bool.and_eq_true, List.all_eq_true, SMap.sorted_iff] at *
  exact ⟨h.1.sublist ((List.filter_sublist).map Prod.fst), fun e he => h.2 e (List.mem_filter.1 he).1⟩

/-- Reading the byte written. -/
theorem Mem.byte_write_same (d : Byte) (m : Mem) (a : Nat) (b : Byte) : Mem.byte d (Mem.write d m a b) a = b := by
  unfold Mem.byte Mem.write
  split
  · rename_i hb; simp [SMap.find?_erase_same, hb]
  · simp

/-- A write leaves every other byte alone. -/
theorem Mem.byte_write_other (d : Byte) (m : Mem) (a a' : Nat) (b : Byte) (h : a' ≠ a) :
    Mem.byte d (Mem.write d m a b) a' = Mem.byte d m a' := by
  unfold Mem.byte Mem.write
  split
  · rw [SMap.find?_erase_other _ _ _ h]
  · rw [SMap.find?_put_other _ _ _ _ h]

/-- A string of bytes leaves every byte outside it alone. -/
theorem Mem.byte_writes_outside (d : Byte) (bs : List Byte) (m : Mem) (a a' : Nat) (h : a' < a ∨ a + bs.length ≤ a') :
    Mem.byte d (Mem.writes d m a bs) a' = Mem.byte d m a' := by
  induction bs generalizing m a with
  | nil => rfl
  | cons b t ih =>
    simp only [List.length_cons] at h
    rw [Mem.writes, ih _ _ (by omega), Mem.byte_write_other _ _ _ _ _ (by omega)]

end Machine
end Sys2Proof
end

