-- ==== Sys2Proof/Laws/Registers.lean ====
section
/-!
SUPPORT. Registers and fields: what a write leaves in the field written and in every other field, and the canonical form of the register
file.
-/

namespace Sys2Proof
namespace Machine

/-! ### Bits of a word -/

theorem testBit_bits (x l w i : Nat) : (bits x l w).testBit i = (decide (i < w) && x.testBit (l + i)) := by
  simp [bits, Nat.testBit_mod_two_pow, Nat.testBit_div_two_pow, Nat.add_comm]

/-- The field written reads back, reduced to its width. -/
theorem bits_setBits_same (x l w v : Nat) : bits (setBits x l w v) l w = v % 2 ^ w := by
  have h1 : x % 2 ^ l < 2 ^ l := Nat.mod_lt _ (Nat.two_pow_pos l)
  unfold bits setBits
  rw [show x % 2 ^ l + v % 2 ^ w * 2 ^ l + x / 2 ^ (l + w) * 2 ^ (l + w)
      = x % 2 ^ l + 2 ^ l * (v % 2 ^ w + x / 2 ^ (l + w) * 2 ^ w) by rw [pow_add]; ring]
  rw [Nat.add_mul_div_left _ _ (Nat.two_pow_pos l), Nat.div_eq_of_lt h1, Nat.zero_add, Nat.add_mul_mod_self_right]
  exact Nat.mod_mod _ _

/-- A field below the one written keeps its value. -/
theorem bits_setBits_below (x l w v l' w' : Nat) (h : l' + w' ≤ l) : bits (setBits x l w v) l' w' = bits x l' w' := by
  obtain ⟨d, rfl⟩ := Nat.exists_eq_add_of_le h
  unfold bits setBits
  have e1 : x % 2 ^ (l' + w' + d) + v % 2 ^ w * 2 ^ (l' + w' + d) + x / 2 ^ (l' + w' + d + w) * 2 ^ (l' + w' + d + w)
      = x % 2 ^ (l' + w' + d) + 2 ^ (l' + w') * (v % 2 ^ w * 2 ^ d + x / 2 ^ (l' + w' + d + w) * 2 ^ (d + w)) := by
    rw [pow_add _ (l' + w') d, show l' + w' + d + w = (l' + w') + (d + w) by ring, pow_add _ (l' + w') (d + w)]; ring
  have key : ∀ y z : Nat, y % 2 ^ (l' + w') = z % 2 ^ (l' + w') → y / 2 ^ l' % 2 ^ w' = z / 2 ^ l' % 2 ^ w' := by
    intro y z hyz
    have hy := Nat.mod_mul_right_div_self y (2 ^ l') (2 ^ w')
    have hz := Nat.mod_mul_right_div_self z (2 ^ l') (2 ^ w')
    rw [← hy, ← hz, ← pow_add, hyz]
  apply key
  rw [e1, Nat.add_mul_mod_self_left]
  exact Nat.mod_mod_of_dvd _ (pow_dvd_pow 2 (by omega))

/-- A field above the one written keeps its value. -/
theorem bits_setBits_above (x l w v l' w' : Nat) (h : l + w ≤ l') : bits (setBits x l w v) l' w' = bits x l' w' := by
  obtain ⟨d, rfl⟩ := Nat.exists_eq_add_of_le h
  have h1 : x % 2 ^ l < 2 ^ l := Nat.mod_lt _ (Nat.two_pow_pos l)
  have h2 : v % 2 ^ w < 2 ^ w := Nat.mod_lt _ (Nat.two_pow_pos w)
  have h3 : x % 2 ^ l + v % 2 ^ w * 2 ^ l < 2 ^ (l + w) := by
    have h4 : (v % 2 ^ w + 1) * 2 ^ l ≤ 2 ^ w * 2 ^ l := Nat.mul_le_mul_right _ h2
    rw [pow_add, Nat.mul_comm (2 ^ l)]
    linarith [Nat.add_mul (v % 2 ^ w) 1 (2 ^ l)]
  unfold bits setBits
  rw [pow_add 2 (l + w) d, ← Nat.div_div_eq_div_mul, ← Nat.div_div_eq_div_mul,
    Nat.add_mul_div_right _ _ (Nat.two_pow_pos _), Nat.div_eq_of_lt h3, Nat.zero_add]

theorem bits_mod32 (x l w : Nat) (h : l + w ≤ 32) : bits (x % 2 ^ 32) l w = bits x l w := by
  apply Nat.eq_of_testBit_eq
  intro i
  simp only [testBit_bits, Nat.testBit_mod_two_pow]
  by_cases hi : i < w
  · simp [hi, show l + i < 32 by omega]
  · simp [hi]

/-! ### The register file -/

@[simp] theorem RegFile.word_store_same (r : RegFile) (k : Nat) (w : Word) : (r.store k w).word k = w := by
  unfold RegFile.store RegFile.word
  split
  · rename_i h; simp [SMap.find?_erase_same, h]
  · simp

theorem RegFile.word_store_other (r : RegFile) (k k' : Nat) (w : Word) (h : k' ≠ k) : (r.store k w).word k' = r.word k' := by
  unfold RegFile.store RegFile.word
  split
  · rw [SMap.find?_erase_other _ _ _ h]
  · rw [SMap.find?_put_other _ _ _ _ h]

/-- Every write keeps the canonical form. -/
theorem RegFile.store_wf (r : RegFile) (k : Nat) (w : Word) (h : r.wf = true) : (r.store k w).wf = true := by
  simp only [RegFile.wf, Bool.and_eq_true, List.all_eq_true, bne_iff_ne, ne_eq] at *
  unfold RegFile.store
  split
  · exact ⟨SMap.sorted_erase _ _ h.1, fun e he => h.2 e (SMap.mem_erase _ _ _ he).1⟩
  · rename_i hw
    refine ⟨SMap.sorted_put _ _ _ h.1, fun e he => ?_⟩
    rcases (SMap.mem_ins _ _ _ _).1 he with rfl | he
    · exact hw
    · exact h.2 e (SMap.mem_erase _ _ _ he).1

/-! ### Registers and fields of the state -/

@[simp] theorem State.word_setWord_same (s : State) (k : Nat) (w : Word) : (s.setWord k w).word k = w := RegFile.word_store_same _ _ _

theorem State.word_setWord_other (s : State) (k k' : Nat) (w : Word) (h : k' ≠ k) : (s.setWord k w).word k' = s.word k' :=
  RegFile.word_store_other _ _ _ _ h

/-- A field that fits its register reads as written. -/
theorem State.get_put_same (s : State) (f : Field) (v : Nat) (h : f.lsb + f.width ≤ 32) : (s.put f v).get f = v % 2 ^ f.width := by
  simp only [State.get, State.put, State.word_setWord_same, BitVec.toNat_ofNat]
  rw [bits_mod32 _ _ _ h, bits_setBits_same]

/-- Every other field keeps its value. -/
theorem State.get_put_other (s : State) (f g : Field) (v : Nat) (hg : g.lsb + g.width ≤ 32)
    (h : g.key ≠ f.key ∨ g.lsb + g.width ≤ f.lsb ∨ f.lsb + f.width ≤ g.lsb) : (s.put f v).get g = s.get g := by
  by_cases hk : g.key = f.key
  · have h : g.lsb + g.width ≤ f.lsb ∨ f.lsb + f.width ≤ g.lsb := by tauto
    simp only [State.get, State.put, hk, State.word_setWord_same, BitVec.toNat_ofNat]
    rw [bits_mod32 _ _ _ hg]
    rcases h with h | h
    · exact bits_setBits_below _ _ _ _ _ _ h
    · exact bits_setBits_above _ _ _ _ _ _ h
  · simp only [State.get, State.put]
    rw [State.word_setWord_other _ _ _ _ hk]

/-- Every other register keeps its word. -/
theorem State.word_put_other (s : State) (f : Field) (v k : Nat) (h : k ≠ f.key) : (s.put f v).word k = s.word k :=
  State.word_setWord_other _ _ _ _ h

theorem State.get_setWord_other (s : State) (g : Field) (k : Nat) (w : Word) (h : g.key ≠ k) : (s.setWord k w).get g = s.get g := by
  simp only [State.get, State.word_setWord_other _ _ _ _ h]

end Machine
end Sys2Proof
end

