-- ==== Sys2Proof/Laws/State.lean ====
section
/-!
SUPPORT. One lemma for each field of the state and each of the updates that every meaning is made of, true by definition.
-/

namespace Sys2Proof
namespace Machine

/-! ### `State.setWord` -/

@[simp] theorem State.setWord_pending (s : State) (k : Nat) (w : Word) : (s.setWord k w).pending = s.pending := rfl
@[simp] theorem State.setWord_latches (s : State) (k : Nat) (w : Word) : (s.setWord k w).latches = s.latches := rfl
@[simp] theorem State.setWord_freeCtr (s : State) (k : Nat) (w : Word) : (s.setWord k w).freeCtr = s.freeCtr := rfl
@[simp] theorem State.setWord_sent (s : State) (k : Nat) (w : Word) : (s.setWord k w).sent = s.sent := rfl
@[simp] theorem State.setWord_ticks (s : State) (k : Nat) (w : Word) : (s.setWord k w).ticks = s.ticks := rfl
@[simp] theorem State.setWord_tk (s : State) (k : Nat) (w : Word) : (s.setWord k w).tk = s.tk := rfl
@[simp] theorem State.setWord_ev (s : State) (k : Nat) (w : Word) : (s.setWord k w).ev = s.ev := rfl
@[simp] theorem State.setWord_pcie (s : State) (k : Nat) (w : Word) : (s.setWord k w).pcie = s.pcie := rfl
@[simp] theorem State.setWord_lookout (s : State) (k : Nat) (w : Word) : (s.setWord k w).lookout = s.lookout := rfl
@[simp] theorem State.setWord_rings (s : State) (k : Nat) (w : Word) : (s.setWord k w).rings = s.rings := rfl
@[simp] theorem State.setWord_taken (s : State) (k : Nat) (w : Word) : (s.setWord k w).taken = s.taken := rfl
@[simp] theorem State.setWord_orders (s : State) (k : Nat) (w : Word) : (s.setWord k w).orders = s.orders := rfl
@[simp] theorem State.setWord_reads (s : State) (k : Nat) (w : Word) : (s.setWord k w).reads = s.reads := rfl
@[simp] theorem State.setWord_queues (s : State) (k : Nat) (w : Word) : (s.setWord k w).queues = s.queues := rfl
@[simp] theorem State.setWord_cells (s : State) (k : Nat) (w : Word) : (s.setWord k w).cells = s.cells := rfl
@[simp] theorem State.setWord_markStore (s : State) (k : Nat) (w : Word) : (s.setWord k w).markStore = s.markStore := rfl
@[simp] theorem State.setWord_waitQ (s : State) (k : Nat) (w : Word) : (s.setWord k w).waitQ = s.waitQ := rfl
@[simp] theorem State.setWord_tdcs (s : State) (k : Nat) (w : Word) : (s.setWord k w).tdcs = s.tdcs := rfl
@[simp] theorem State.setWord_probe (s : State) (k : Nat) (w : Word) : (s.setWord k w).probe = s.probe := rfl
@[simp] theorem State.setWord_kx (s : State) (k : Nat) (w : Word) : (s.setWord k w).kx = s.kx := rfl
@[simp] theorem State.setWord_eth (s : State) (k : Nat) (w : Word) : (s.setWord k w).eth = s.eth := rfl
@[simp] theorem State.setWord_nvme (s : State) (k : Nat) (w : Word) : (s.setWord k w).nvme = s.nvme := rfl
@[simp] theorem State.setWord_clk (s : State) (k : Nat) (w : Word) : (s.setWord k w).clk = s.clk := rfl
@[simp] theorem State.setWord_sws (s : State) (k : Nat) (w : Word) : (s.setWord k w).sws = s.sws := rfl
@[simp] theorem State.setWord_pixelLock (s : State) (k : Nat) (w : Word) : (s.setWord k w).pixelLock = s.pixelLock := rfl
@[simp] theorem State.setWord_power (s : State) (k : Nat) (w : Word) : (s.setWord k w).power = s.power := rfl
@[simp] theorem State.setWord_fw (s : State) (k : Nat) (w : Word) : (s.setWord k w).fw = s.fw := rfl
@[simp] theorem State.setWord_flash (s : State) (k : Nat) (w : Word) : (s.setWord k w).flash = s.flash := rfl
@[simp] theorem State.setWord_panel (s : State) (k : Nat) (w : Word) : (s.setWord k w).panel = s.panel := rfl
@[simp] theorem State.setWord_heads (s : State) (k : Nat) (w : Word) : (s.setWord k w).heads = s.heads := rfl
@[simp] theorem State.setWord_sgs (s : State) (k : Nat) (w : Word) : (s.setWord k w).sgs = s.sgs := rfl
@[simp] theorem State.setWord_plans (s : State) (k : Nat) (w : Word) : (s.setWord k w).plans = s.plans := rfl
@[simp] theorem State.setWord_sources (s : State) (k : Nat) (w : Word) : (s.setWord k w).sources = s.sources := rfl
@[simp] theorem State.setWord_adcs (s : State) (k : Nat) (w : Word) : (s.setWord k w).adcs = s.adcs := rfl
@[simp] theorem State.setWord_dacs (s : State) (k : Nat) (w : Word) : (s.setWord k w).dacs = s.dacs := rfl
@[simp] theorem State.setWord_syncRun (s : State) (k : Nat) (w : Word) : (s.setWord k w).syncRun = s.syncRun := rfl
@[simp] theorem State.setWord_cals (s : State) (k : Nat) (w : Word) : (s.setWord k w).cals = s.cals := rfl
@[simp] theorem State.setWord_hkSeqs (s : State) (k : Nat) (w : Word) : (s.setWord k w).hkSeqs = s.hkSeqs := rfl
@[simp] theorem State.setWord_pwms (s : State) (k : Nat) (w : Word) : (s.setWord k w).pwms = s.pwms := rfl
@[simp] theorem State.setWord_ddcs (s : State) (k : Nat) (w : Word) : (s.setWord k w).ddcs = s.ddcs := rfl
@[simp] theorem State.setWord_plts (s : State) (k : Nat) (w : Word) : (s.setWord k w).plts = s.plts := rfl
@[simp] theorem State.setWord_engines (s : State) (k : Nat) (w : Word) : (s.setWord k w).engines = s.engines := rfl
@[simp] theorem State.setWord_reams (s : State) (k : Nat) (w : Word) : (s.setWord k w).reams = s.reams := rfl
@[simp] theorem State.setWord_zones (s : State) (k : Nat) (w : Word) : (s.setWord k w).zones = s.zones := rfl
@[simp] theorem State.setWord_pounds (s : State) (k : Nat) (w : Word) : (s.setWord k w).pounds = s.pounds := rfl
@[simp] theorem State.setWord_captures (s : State) (k : Nat) (w : Word) : (s.setWord k w).captures = s.captures := rfl
@[simp] theorem State.setWord_captureCount (s : State) (k : Nat) (w : Word) : (s.setWord k w).captureCount = s.captureCount := rfl
@[simp] theorem State.setWord_channels (s : State) (k : Nat) (w : Word) : (s.setWord k w).channels = s.channels := rfl
@[simp] theorem State.setWord_userWindows (s : State) (k : Nat) (w : Word) : (s.setWord k w).userWindows = s.userWindows := rfl
@[simp] theorem State.setWord_occs (s : State) (k : Nat) (w : Word) : (s.setWord k w).occs = s.occs := rfl
@[simp] theorem State.setWord_weirs (s : State) (k : Nat) (w : Word) : (s.setWord k w).weirs = s.weirs := rfl
@[simp] theorem State.setWord_pins (s : State) (k : Nat) (w : Word) : (s.setWord k w).pins = s.pins := rfl
@[simp] theorem State.setWord_pulses (s : State) (k : Nat) (w : Word) : (s.setWord k w).pulses = s.pulses := rfl
@[simp] theorem State.setWord_flights (s : State) (k : Nat) (w : Word) : (s.setWord k w).flights = s.flights := rfl
@[simp] theorem State.setWord_cache (s : State) (k : Nat) (w : Word) : (s.setWord k w).cache = s.cache := rfl
@[simp] theorem State.setWord_pdHeld (s : State) (k : Nat) (w : Word) : (s.setWord k w).pdHeld = s.pdHeld := rfl
@[simp] theorem State.setWord_calCopies (s : State) (k : Nat) (w : Word) : (s.setWord k w).calCopies = s.calCopies := rfl
@[simp] theorem State.setWord_savePending (s : State) (k : Nat) (w : Word) : (s.setWord k w).savePending = s.savePending := rfl
@[simp] theorem State.setWord_monitor (s : State) (k : Nat) (w : Word) : (s.setWord k w).monitor = s.monitor := rfl
@[simp] theorem State.setWord_lanes (s : State) (k : Nat) (w : Word) : (s.setWord k w).lanes = s.lanes := rfl
@[simp] theorem State.setWord_vcs (s : State) (k : Nat) (w : Word) : (s.setWord k w).vcs = s.vcs := rfl
@[simp] theorem State.setWord_spareTest (s : State) (k : Nat) (w : Word) : (s.setWord k w).spareTest = s.spareTest := rfl
@[simp] theorem State.setWord_memSpeed (s : State) (k : Nat) (w : Word) : (s.setWord k w).memSpeed = s.memSpeed := rfl
@[simp] theorem State.setWord_trainDue (s : State) (k : Nat) (w : Word) : (s.setWord k w).trainDue = s.trainDue := rfl
@[simp] theorem State.setWord_gates (s : State) (k : Nat) (w : Word) : (s.setWord k w).gates = s.gates := rfl
@[simp] theorem State.setWord_lineReqs (s : State) (k : Nat) (w : Word) : (s.setWord k w).lineReqs = s.lineReqs := rfl
@[simp] theorem State.setWord_cus (s : State) (k : Nat) (w : Word) : (s.setWord k w).cus = s.cus := rfl
@[simp] theorem State.setWord_turns (s : State) (k : Nat) (w : Word) : (s.setWord k w).turns = s.turns := rfl
@[simp] theorem State.setWord_spareTestPeriod (s : State) (k : Nat) (w : Word) : (s.setWord k w).spareTestPeriod = s.spareTestPeriod := rfl
@[simp] theorem State.setWord_held (s : State) (k : Nat) (w : Word) : (s.setWord k w).held = s.held := rfl

/-! ### `State.put` -/

@[simp] theorem State.put_pending (s : State) (g : Field) (v : Nat) : (s.put g v).pending = s.pending := rfl
@[simp] theorem State.put_latches (s : State) (g : Field) (v : Nat) : (s.put g v).latches = s.latches := rfl
@[simp] theorem State.put_freeCtr (s : State) (g : Field) (v : Nat) : (s.put g v).freeCtr = s.freeCtr := rfl
@[simp] theorem State.put_sent (s : State) (g : Field) (v : Nat) : (s.put g v).sent = s.sent := rfl
@[simp] theorem State.put_ticks (s : State) (g : Field) (v : Nat) : (s.put g v).ticks = s.ticks := rfl
@[simp] theorem State.put_tk (s : State) (g : Field) (v : Nat) : (s.put g v).tk = s.tk := rfl
@[simp] theorem State.put_ev (s : State) (g : Field) (v : Nat) : (s.put g v).ev = s.ev := rfl
@[simp] theorem State.put_pcie (s : State) (g : Field) (v : Nat) : (s.put g v).pcie = s.pcie := rfl
@[simp] theorem State.put_lookout (s : State) (g : Field) (v : Nat) : (s.put g v).lookout = s.lookout := rfl
@[simp] theorem State.put_rings (s : State) (g : Field) (v : Nat) : (s.put g v).rings = s.rings := rfl
@[simp] theorem State.put_taken (s : State) (g : Field) (v : Nat) : (s.put g v).taken = s.taken := rfl
@[simp] theorem State.put_orders (s : State) (g : Field) (v : Nat) : (s.put g v).orders = s.orders := rfl
@[simp] theorem State.put_reads (s : State) (g : Field) (v : Nat) : (s.put g v).reads = s.reads := rfl
@[simp] theorem State.put_queues (s : State) (g : Field) (v : Nat) : (s.put g v).queues = s.queues := rfl
@[simp] theorem State.put_cells (s : State) (g : Field) (v : Nat) : (s.put g v).cells = s.cells := rfl
@[simp] theorem State.put_markStore (s : State) (g : Field) (v : Nat) : (s.put g v).markStore = s.markStore := rfl
@[simp] theorem State.put_waitQ (s : State) (g : Field) (v : Nat) : (s.put g v).waitQ = s.waitQ := rfl
@[simp] theorem State.put_tdcs (s : State) (g : Field) (v : Nat) : (s.put g v).tdcs = s.tdcs := rfl
@[simp] theorem State.put_probe (s : State) (g : Field) (v : Nat) : (s.put g v).probe = s.probe := rfl
@[simp] theorem State.put_kx (s : State) (g : Field) (v : Nat) : (s.put g v).kx = s.kx := rfl
@[simp] theorem State.put_eth (s : State) (g : Field) (v : Nat) : (s.put g v).eth = s.eth := rfl
@[simp] theorem State.put_nvme (s : State) (g : Field) (v : Nat) : (s.put g v).nvme = s.nvme := rfl
@[simp] theorem State.put_clk (s : State) (g : Field) (v : Nat) : (s.put g v).clk = s.clk := rfl
@[simp] theorem State.put_sws (s : State) (g : Field) (v : Nat) : (s.put g v).sws = s.sws := rfl
@[simp] theorem State.put_pixelLock (s : State) (g : Field) (v : Nat) : (s.put g v).pixelLock = s.pixelLock := rfl
@[simp] theorem State.put_power (s : State) (g : Field) (v : Nat) : (s.put g v).power = s.power := rfl
@[simp] theorem State.put_fw (s : State) (g : Field) (v : Nat) : (s.put g v).fw = s.fw := rfl
@[simp] theorem State.put_flash (s : State) (g : Field) (v : Nat) : (s.put g v).flash = s.flash := rfl
@[simp] theorem State.put_panel (s : State) (g : Field) (v : Nat) : (s.put g v).panel = s.panel := rfl
@[simp] theorem State.put_heads (s : State) (g : Field) (v : Nat) : (s.put g v).heads = s.heads := rfl
@[simp] theorem State.put_sgs (s : State) (g : Field) (v : Nat) : (s.put g v).sgs = s.sgs := rfl
@[simp] theorem State.put_plans (s : State) (g : Field) (v : Nat) : (s.put g v).plans = s.plans := rfl
@[simp] theorem State.put_sources (s : State) (g : Field) (v : Nat) : (s.put g v).sources = s.sources := rfl
@[simp] theorem State.put_adcs (s : State) (g : Field) (v : Nat) : (s.put g v).adcs = s.adcs := rfl
@[simp] theorem State.put_dacs (s : State) (g : Field) (v : Nat) : (s.put g v).dacs = s.dacs := rfl
@[simp] theorem State.put_syncRun (s : State) (g : Field) (v : Nat) : (s.put g v).syncRun = s.syncRun := rfl
@[simp] theorem State.put_cals (s : State) (g : Field) (v : Nat) : (s.put g v).cals = s.cals := rfl
@[simp] theorem State.put_hkSeqs (s : State) (g : Field) (v : Nat) : (s.put g v).hkSeqs = s.hkSeqs := rfl
@[simp] theorem State.put_pwms (s : State) (g : Field) (v : Nat) : (s.put g v).pwms = s.pwms := rfl
@[simp] theorem State.put_ddcs (s : State) (g : Field) (v : Nat) : (s.put g v).ddcs = s.ddcs := rfl
@[simp] theorem State.put_plts (s : State) (g : Field) (v : Nat) : (s.put g v).plts = s.plts := rfl
@[simp] theorem State.put_engines (s : State) (g : Field) (v : Nat) : (s.put g v).engines = s.engines := rfl
@[simp] theorem State.put_reams (s : State) (g : Field) (v : Nat) : (s.put g v).reams = s.reams := rfl
@[simp] theorem State.put_zones (s : State) (g : Field) (v : Nat) : (s.put g v).zones = s.zones := rfl
@[simp] theorem State.put_pounds (s : State) (g : Field) (v : Nat) : (s.put g v).pounds = s.pounds := rfl
@[simp] theorem State.put_captures (s : State) (g : Field) (v : Nat) : (s.put g v).captures = s.captures := rfl
@[simp] theorem State.put_captureCount (s : State) (g : Field) (v : Nat) : (s.put g v).captureCount = s.captureCount := rfl
@[simp] theorem State.put_channels (s : State) (g : Field) (v : Nat) : (s.put g v).channels = s.channels := rfl
@[simp] theorem State.put_userWindows (s : State) (g : Field) (v : Nat) : (s.put g v).userWindows = s.userWindows := rfl
@[simp] theorem State.put_occs (s : State) (g : Field) (v : Nat) : (s.put g v).occs = s.occs := rfl
@[simp] theorem State.put_weirs (s : State) (g : Field) (v : Nat) : (s.put g v).weirs = s.weirs := rfl
@[simp] theorem State.put_pins (s : State) (g : Field) (v : Nat) : (s.put g v).pins = s.pins := rfl
@[simp] theorem State.put_pulses (s : State) (g : Field) (v : Nat) : (s.put g v).pulses = s.pulses := rfl
@[simp] theorem State.put_flights (s : State) (g : Field) (v : Nat) : (s.put g v).flights = s.flights := rfl
@[simp] theorem State.put_cache (s : State) (g : Field) (v : Nat) : (s.put g v).cache = s.cache := rfl
@[simp] theorem State.put_pdHeld (s : State) (g : Field) (v : Nat) : (s.put g v).pdHeld = s.pdHeld := rfl
@[simp] theorem State.put_calCopies (s : State) (g : Field) (v : Nat) : (s.put g v).calCopies = s.calCopies := rfl
@[simp] theorem State.put_savePending (s : State) (g : Field) (v : Nat) : (s.put g v).savePending = s.savePending := rfl
@[simp] theorem State.put_monitor (s : State) (g : Field) (v : Nat) : (s.put g v).monitor = s.monitor := rfl
@[simp] theorem State.put_lanes (s : State) (g : Field) (v : Nat) : (s.put g v).lanes = s.lanes := rfl
@[simp] theorem State.put_vcs (s : State) (g : Field) (v : Nat) : (s.put g v).vcs = s.vcs := rfl
@[simp] theorem State.put_spareTest (s : State) (g : Field) (v : Nat) : (s.put g v).spareTest = s.spareTest := rfl
@[simp] theorem State.put_memSpeed (s : State) (g : Field) (v : Nat) : (s.put g v).memSpeed = s.memSpeed := rfl
@[simp] theorem State.put_trainDue (s : State) (g : Field) (v : Nat) : (s.put g v).trainDue = s.trainDue := rfl
@[simp] theorem State.put_gates (s : State) (g : Field) (v : Nat) : (s.put g v).gates = s.gates := rfl
@[simp] theorem State.put_lineReqs (s : State) (g : Field) (v : Nat) : (s.put g v).lineReqs = s.lineReqs := rfl
@[simp] theorem State.put_cus (s : State) (g : Field) (v : Nat) : (s.put g v).cus = s.cus := rfl
@[simp] theorem State.put_turns (s : State) (g : Field) (v : Nat) : (s.put g v).turns = s.turns := rfl
@[simp] theorem State.put_spareTestPeriod (s : State) (g : Field) (v : Nat) : (s.put g v).spareTestPeriod = s.spareTestPeriod := rfl
@[simp] theorem State.put_held (s : State) (g : Field) (v : Nat) : (s.put g v).held = s.held := rfl

/-! ### `State.inc` -/

@[simp] theorem State.inc_pending (s : State) (g : Field) (n : Nat) : (s.inc g n).pending = s.pending := rfl
@[simp] theorem State.inc_latches (s : State) (g : Field) (n : Nat) : (s.inc g n).latches = s.latches := rfl
@[simp] theorem State.inc_freeCtr (s : State) (g : Field) (n : Nat) : (s.inc g n).freeCtr = s.freeCtr := rfl
@[simp] theorem State.inc_sent (s : State) (g : Field) (n : Nat) : (s.inc g n).sent = s.sent := rfl
@[simp] theorem State.inc_ticks (s : State) (g : Field) (n : Nat) : (s.inc g n).ticks = s.ticks := rfl
@[simp] theorem State.inc_tk (s : State) (g : Field) (n : Nat) : (s.inc g n).tk = s.tk := rfl
@[simp] theorem State.inc_ev (s : State) (g : Field) (n : Nat) : (s.inc g n).ev = s.ev := rfl
@[simp] theorem State.inc_pcie (s : State) (g : Field) (n : Nat) : (s.inc g n).pcie = s.pcie := rfl
@[simp] theorem State.inc_lookout (s : State) (g : Field) (n : Nat) : (s.inc g n).lookout = s.lookout := rfl
@[simp] theorem State.inc_rings (s : State) (g : Field) (n : Nat) : (s.inc g n).rings = s.rings := rfl
@[simp] theorem State.inc_taken (s : State) (g : Field) (n : Nat) : (s.inc g n).taken = s.taken := rfl
@[simp] theorem State.inc_orders (s : State) (g : Field) (n : Nat) : (s.inc g n).orders = s.orders := rfl
@[simp] theorem State.inc_reads (s : State) (g : Field) (n : Nat) : (s.inc g n).reads = s.reads := rfl
@[simp] theorem State.inc_queues (s : State) (g : Field) (n : Nat) : (s.inc g n).queues = s.queues := rfl
@[simp] theorem State.inc_cells (s : State) (g : Field) (n : Nat) : (s.inc g n).cells = s.cells := rfl
@[simp] theorem State.inc_markStore (s : State) (g : Field) (n : Nat) : (s.inc g n).markStore = s.markStore := rfl
@[simp] theorem State.inc_waitQ (s : State) (g : Field) (n : Nat) : (s.inc g n).waitQ = s.waitQ := rfl
@[simp] theorem State.inc_tdcs (s : State) (g : Field) (n : Nat) : (s.inc g n).tdcs = s.tdcs := rfl
@[simp] theorem State.inc_probe (s : State) (g : Field) (n : Nat) : (s.inc g n).probe = s.probe := rfl
@[simp] theorem State.inc_kx (s : State) (g : Field) (n : Nat) : (s.inc g n).kx = s.kx := rfl
@[simp] theorem State.inc_eth (s : State) (g : Field) (n : Nat) : (s.inc g n).eth = s.eth := rfl
@[simp] theorem State.inc_nvme (s : State) (g : Field) (n : Nat) : (s.inc g n).nvme = s.nvme := rfl
@[simp] theorem State.inc_clk (s : State) (g : Field) (n : Nat) : (s.inc g n).clk = s.clk := rfl
@[simp] theorem State.inc_sws (s : State) (g : Field) (n : Nat) : (s.inc g n).sws = s.sws := rfl
@[simp] theorem State.inc_pixelLock (s : State) (g : Field) (n : Nat) : (s.inc g n).pixelLock = s.pixelLock := rfl
@[simp] theorem State.inc_power (s : State) (g : Field) (n : Nat) : (s.inc g n).power = s.power := rfl
@[simp] theorem State.inc_fw (s : State) (g : Field) (n : Nat) : (s.inc g n).fw = s.fw := rfl
@[simp] theorem State.inc_flash (s : State) (g : Field) (n : Nat) : (s.inc g n).flash = s.flash := rfl
@[simp] theorem State.inc_panel (s : State) (g : Field) (n : Nat) : (s.inc g n).panel = s.panel := rfl
@[simp] theorem State.inc_heads (s : State) (g : Field) (n : Nat) : (s.inc g n).heads = s.heads := rfl
@[simp] theorem State.inc_sgs (s : State) (g : Field) (n : Nat) : (s.inc g n).sgs = s.sgs := rfl
@[simp] theorem State.inc_plans (s : State) (g : Field) (n : Nat) : (s.inc g n).plans = s.plans := rfl
@[simp] theorem State.inc_sources (s : State) (g : Field) (n : Nat) : (s.inc g n).sources = s.sources := rfl
@[simp] theorem State.inc_adcs (s : State) (g : Field) (n : Nat) : (s.inc g n).adcs = s.adcs := rfl
@[simp] theorem State.inc_dacs (s : State) (g : Field) (n : Nat) : (s.inc g n).dacs = s.dacs := rfl
@[simp] theorem State.inc_syncRun (s : State) (g : Field) (n : Nat) : (s.inc g n).syncRun = s.syncRun := rfl
@[simp] theorem State.inc_cals (s : State) (g : Field) (n : Nat) : (s.inc g n).cals = s.cals := rfl
@[simp] theorem State.inc_hkSeqs (s : State) (g : Field) (n : Nat) : (s.inc g n).hkSeqs = s.hkSeqs := rfl
@[simp] theorem State.inc_pwms (s : State) (g : Field) (n : Nat) : (s.inc g n).pwms = s.pwms := rfl
@[simp] theorem State.inc_ddcs (s : State) (g : Field) (n : Nat) : (s.inc g n).ddcs = s.ddcs := rfl
@[simp] theorem State.inc_plts (s : State) (g : Field) (n : Nat) : (s.inc g n).plts = s.plts := rfl
@[simp] theorem State.inc_engines (s : State) (g : Field) (n : Nat) : (s.inc g n).engines = s.engines := rfl
@[simp] theorem State.inc_reams (s : State) (g : Field) (n : Nat) : (s.inc g n).reams = s.reams := rfl
@[simp] theorem State.inc_zones (s : State) (g : Field) (n : Nat) : (s.inc g n).zones = s.zones := rfl
@[simp] theorem State.inc_pounds (s : State) (g : Field) (n : Nat) : (s.inc g n).pounds = s.pounds := rfl
@[simp] theorem State.inc_captures (s : State) (g : Field) (n : Nat) : (s.inc g n).captures = s.captures := rfl
@[simp] theorem State.inc_captureCount (s : State) (g : Field) (n : Nat) : (s.inc g n).captureCount = s.captureCount := rfl
@[simp] theorem State.inc_channels (s : State) (g : Field) (n : Nat) : (s.inc g n).channels = s.channels := rfl
@[simp] theorem State.inc_userWindows (s : State) (g : Field) (n : Nat) : (s.inc g n).userWindows = s.userWindows := rfl
@[simp] theorem State.inc_occs (s : State) (g : Field) (n : Nat) : (s.inc g n).occs = s.occs := rfl
@[simp] theorem State.inc_weirs (s : State) (g : Field) (n : Nat) : (s.inc g n).weirs = s.weirs := rfl
@[simp] theorem State.inc_pins (s : State) (g : Field) (n : Nat) : (s.inc g n).pins = s.pins := rfl
@[simp] theorem State.inc_pulses (s : State) (g : Field) (n : Nat) : (s.inc g n).pulses = s.pulses := rfl
@[simp] theorem State.inc_flights (s : State) (g : Field) (n : Nat) : (s.inc g n).flights = s.flights := rfl
@[simp] theorem State.inc_cache (s : State) (g : Field) (n : Nat) : (s.inc g n).cache = s.cache := rfl
@[simp] theorem State.inc_pdHeld (s : State) (g : Field) (n : Nat) : (s.inc g n).pdHeld = s.pdHeld := rfl
@[simp] theorem State.inc_calCopies (s : State) (g : Field) (n : Nat) : (s.inc g n).calCopies = s.calCopies := rfl
@[simp] theorem State.inc_savePending (s : State) (g : Field) (n : Nat) : (s.inc g n).savePending = s.savePending := rfl
@[simp] theorem State.inc_monitor (s : State) (g : Field) (n : Nat) : (s.inc g n).monitor = s.monitor := rfl
@[simp] theorem State.inc_lanes (s : State) (g : Field) (n : Nat) : (s.inc g n).lanes = s.lanes := rfl
@[simp] theorem State.inc_vcs (s : State) (g : Field) (n : Nat) : (s.inc g n).vcs = s.vcs := rfl
@[simp] theorem State.inc_spareTest (s : State) (g : Field) (n : Nat) : (s.inc g n).spareTest = s.spareTest := rfl
@[simp] theorem State.inc_memSpeed (s : State) (g : Field) (n : Nat) : (s.inc g n).memSpeed = s.memSpeed := rfl
@[simp] theorem State.inc_trainDue (s : State) (g : Field) (n : Nat) : (s.inc g n).trainDue = s.trainDue := rfl
@[simp] theorem State.inc_gates (s : State) (g : Field) (n : Nat) : (s.inc g n).gates = s.gates := rfl
@[simp] theorem State.inc_lineReqs (s : State) (g : Field) (n : Nat) : (s.inc g n).lineReqs = s.lineReqs := rfl
@[simp] theorem State.inc_cus (s : State) (g : Field) (n : Nat) : (s.inc g n).cus = s.cus := rfl
@[simp] theorem State.inc_turns (s : State) (g : Field) (n : Nat) : (s.inc g n).turns = s.turns := rfl
@[simp] theorem State.inc_spareTestPeriod (s : State) (g : Field) (n : Nat) : (s.inc g n).spareTestPeriod = s.spareTestPeriod := rfl
@[simp] theorem State.inc_held (s : State) (g : Field) (n : Nat) : (s.inc g n).held = s.held := rfl

/-! ### `State.satInc` -/

@[simp] theorem State.satInc_pending (s : State) (g : Field) (n : Nat) : (s.satInc g n).pending = s.pending := rfl
@[simp] theorem State.satInc_latches (s : State) (g : Field) (n : Nat) : (s.satInc g n).latches = s.latches := rfl
@[simp] theorem State.satInc_freeCtr (s : State) (g : Field) (n : Nat) : (s.satInc g n).freeCtr = s.freeCtr := rfl
@[simp] theorem State.satInc_sent (s : State) (g : Field) (n : Nat) : (s.satInc g n).sent = s.sent := rfl
@[simp] theorem State.satInc_ticks (s : State) (g : Field) (n : Nat) : (s.satInc g n).ticks = s.ticks := rfl
@[simp] theorem State.satInc_tk (s : State) (g : Field) (n : Nat) : (s.satInc g n).tk = s.tk := rfl
@[simp] theorem State.satInc_ev (s : State) (g : Field) (n : Nat) : (s.satInc g n).ev = s.ev := rfl
@[simp] theorem State.satInc_pcie (s : State) (g : Field) (n : Nat) : (s.satInc g n).pcie = s.pcie := rfl
@[simp] theorem State.satInc_lookout (s : State) (g : Field) (n : Nat) : (s.satInc g n).lookout = s.lookout := rfl
@[simp] theorem State.satInc_rings (s : State) (g : Field) (n : Nat) : (s.satInc g n).rings = s.rings := rfl
@[simp] theorem State.satInc_taken (s : State) (g : Field) (n : Nat) : (s.satInc g n).taken = s.taken := rfl
@[simp] theorem State.satInc_orders (s : State) (g : Field) (n : Nat) : (s.satInc g n).orders = s.orders := rfl
@[simp] theorem State.satInc_reads (s : State) (g : Field) (n : Nat) : (s.satInc g n).reads = s.reads := rfl
@[simp] theorem State.satInc_queues (s : State) (g : Field) (n : Nat) : (s.satInc g n).queues = s.queues := rfl
@[simp] theorem State.satInc_cells (s : State) (g : Field) (n : Nat) : (s.satInc g n).cells = s.cells := rfl
@[simp] theorem State.satInc_markStore (s : State) (g : Field) (n : Nat) : (s.satInc g n).markStore = s.markStore := rfl
@[simp] theorem State.satInc_waitQ (s : State) (g : Field) (n : Nat) : (s.satInc g n).waitQ = s.waitQ := rfl
@[simp] theorem State.satInc_tdcs (s : State) (g : Field) (n : Nat) : (s.satInc g n).tdcs = s.tdcs := rfl
@[simp] theorem State.satInc_probe (s : State) (g : Field) (n : Nat) : (s.satInc g n).probe = s.probe := rfl
@[simp] theorem State.satInc_kx (s : State) (g : Field) (n : Nat) : (s.satInc g n).kx = s.kx := rfl
@[simp] theorem State.satInc_eth (s : State) (g : Field) (n : Nat) : (s.satInc g n).eth = s.eth := rfl
@[simp] theorem State.satInc_nvme (s : State) (g : Field) (n : Nat) : (s.satInc g n).nvme = s.nvme := rfl
@[simp] theorem State.satInc_clk (s : State) (g : Field) (n : Nat) : (s.satInc g n).clk = s.clk := rfl
@[simp] theorem State.satInc_sws (s : State) (g : Field) (n : Nat) : (s.satInc g n).sws = s.sws := rfl
@[simp] theorem State.satInc_pixelLock (s : State) (g : Field) (n : Nat) : (s.satInc g n).pixelLock = s.pixelLock := rfl
@[simp] theorem State.satInc_power (s : State) (g : Field) (n : Nat) : (s.satInc g n).power = s.power := rfl
@[simp] theorem State.satInc_fw (s : State) (g : Field) (n : Nat) : (s.satInc g n).fw = s.fw := rfl
@[simp] theorem State.satInc_flash (s : State) (g : Field) (n : Nat) : (s.satInc g n).flash = s.flash := rfl
@[simp] theorem State.satInc_panel (s : State) (g : Field) (n : Nat) : (s.satInc g n).panel = s.panel := rfl
@[simp] theorem State.satInc_heads (s : State) (g : Field) (n : Nat) : (s.satInc g n).heads = s.heads := rfl
@[simp] theorem State.satInc_sgs (s : State) (g : Field) (n : Nat) : (s.satInc g n).sgs = s.sgs := rfl
@[simp] theorem State.satInc_plans (s : State) (g : Field) (n : Nat) : (s.satInc g n).plans = s.plans := rfl
@[simp] theorem State.satInc_sources (s : State) (g : Field) (n : Nat) : (s.satInc g n).sources = s.sources := rfl
@[simp] theorem State.satInc_adcs (s : State) (g : Field) (n : Nat) : (s.satInc g n).adcs = s.adcs := rfl
@[simp] theorem State.satInc_dacs (s : State) (g : Field) (n : Nat) : (s.satInc g n).dacs = s.dacs := rfl
@[simp] theorem State.satInc_syncRun (s : State) (g : Field) (n : Nat) : (s.satInc g n).syncRun = s.syncRun := rfl
@[simp] theorem State.satInc_cals (s : State) (g : Field) (n : Nat) : (s.satInc g n).cals = s.cals := rfl
@[simp] theorem State.satInc_hkSeqs (s : State) (g : Field) (n : Nat) : (s.satInc g n).hkSeqs = s.hkSeqs := rfl
@[simp] theorem State.satInc_pwms (s : State) (g : Field) (n : Nat) : (s.satInc g n).pwms = s.pwms := rfl
@[simp] theorem State.satInc_ddcs (s : State) (g : Field) (n : Nat) : (s.satInc g n).ddcs = s.ddcs := rfl
@[simp] theorem State.satInc_plts (s : State) (g : Field) (n : Nat) : (s.satInc g n).plts = s.plts := rfl
@[simp] theorem State.satInc_engines (s : State) (g : Field) (n : Nat) : (s.satInc g n).engines = s.engines := rfl
@[simp] theorem State.satInc_reams (s : State) (g : Field) (n : Nat) : (s.satInc g n).reams = s.reams := rfl
@[simp] theorem State.satInc_zones (s : State) (g : Field) (n : Nat) : (s.satInc g n).zones = s.zones := rfl
@[simp] theorem State.satInc_pounds (s : State) (g : Field) (n : Nat) : (s.satInc g n).pounds = s.pounds := rfl
@[simp] theorem State.satInc_captures (s : State) (g : Field) (n : Nat) : (s.satInc g n).captures = s.captures := rfl
@[simp] theorem State.satInc_captureCount (s : State) (g : Field) (n : Nat) : (s.satInc g n).captureCount = s.captureCount := rfl
@[simp] theorem State.satInc_channels (s : State) (g : Field) (n : Nat) : (s.satInc g n).channels = s.channels := rfl
@[simp] theorem State.satInc_userWindows (s : State) (g : Field) (n : Nat) : (s.satInc g n).userWindows = s.userWindows := rfl
@[simp] theorem State.satInc_occs (s : State) (g : Field) (n : Nat) : (s.satInc g n).occs = s.occs := rfl
@[simp] theorem State.satInc_weirs (s : State) (g : Field) (n : Nat) : (s.satInc g n).weirs = s.weirs := rfl
@[simp] theorem State.satInc_pins (s : State) (g : Field) (n : Nat) : (s.satInc g n).pins = s.pins := rfl
@[simp] theorem State.satInc_pulses (s : State) (g : Field) (n : Nat) : (s.satInc g n).pulses = s.pulses := rfl
@[simp] theorem State.satInc_flights (s : State) (g : Field) (n : Nat) : (s.satInc g n).flights = s.flights := rfl
@[simp] theorem State.satInc_cache (s : State) (g : Field) (n : Nat) : (s.satInc g n).cache = s.cache := rfl
@[simp] theorem State.satInc_pdHeld (s : State) (g : Field) (n : Nat) : (s.satInc g n).pdHeld = s.pdHeld := rfl
@[simp] theorem State.satInc_calCopies (s : State) (g : Field) (n : Nat) : (s.satInc g n).calCopies = s.calCopies := rfl
@[simp] theorem State.satInc_savePending (s : State) (g : Field) (n : Nat) : (s.satInc g n).savePending = s.savePending := rfl
@[simp] theorem State.satInc_monitor (s : State) (g : Field) (n : Nat) : (s.satInc g n).monitor = s.monitor := rfl
@[simp] theorem State.satInc_lanes (s : State) (g : Field) (n : Nat) : (s.satInc g n).lanes = s.lanes := rfl
@[simp] theorem State.satInc_vcs (s : State) (g : Field) (n : Nat) : (s.satInc g n).vcs = s.vcs := rfl
@[simp] theorem State.satInc_spareTest (s : State) (g : Field) (n : Nat) : (s.satInc g n).spareTest = s.spareTest := rfl
@[simp] theorem State.satInc_memSpeed (s : State) (g : Field) (n : Nat) : (s.satInc g n).memSpeed = s.memSpeed := rfl
@[simp] theorem State.satInc_trainDue (s : State) (g : Field) (n : Nat) : (s.satInc g n).trainDue = s.trainDue := rfl
@[simp] theorem State.satInc_gates (s : State) (g : Field) (n : Nat) : (s.satInc g n).gates = s.gates := rfl
@[simp] theorem State.satInc_lineReqs (s : State) (g : Field) (n : Nat) : (s.satInc g n).lineReqs = s.lineReqs := rfl
@[simp] theorem State.satInc_cus (s : State) (g : Field) (n : Nat) : (s.satInc g n).cus = s.cus := rfl
@[simp] theorem State.satInc_turns (s : State) (g : Field) (n : Nat) : (s.satInc g n).turns = s.turns := rfl
@[simp] theorem State.satInc_spareTestPeriod (s : State) (g : Field) (n : Nat) : (s.satInc g n).spareTestPeriod = s.spareTestPeriod := rfl
@[simp] theorem State.satInc_held (s : State) (g : Field) (n : Nat) : (s.satInc g n).held = s.held := rfl

/-! ### `State.send` -/

@[simp] theorem State.send_pending (s : State) (x : Sent) : (s.send x).pending = s.pending := rfl
@[simp] theorem State.send_regs (s : State) (x : Sent) : (s.send x).regs = s.regs := rfl
@[simp] theorem State.send_latches (s : State) (x : Sent) : (s.send x).latches = s.latches := rfl
@[simp] theorem State.send_freeCtr (s : State) (x : Sent) : (s.send x).freeCtr = s.freeCtr := rfl
@[simp] theorem State.send_ticks (s : State) (x : Sent) : (s.send x).ticks = s.ticks := rfl
@[simp] theorem State.send_tk (s : State) (x : Sent) : (s.send x).tk = s.tk := rfl
@[simp] theorem State.send_ev (s : State) (x : Sent) : (s.send x).ev = s.ev := rfl
@[simp] theorem State.send_pcie (s : State) (x : Sent) : (s.send x).pcie = s.pcie := rfl
@[simp] theorem State.send_lookout (s : State) (x : Sent) : (s.send x).lookout = s.lookout := rfl
@[simp] theorem State.send_rings (s : State) (x : Sent) : (s.send x).rings = s.rings := rfl
@[simp] theorem State.send_taken (s : State) (x : Sent) : (s.send x).taken = s.taken := rfl
@[simp] theorem State.send_orders (s : State) (x : Sent) : (s.send x).orders = s.orders := rfl
@[simp] theorem State.send_reads (s : State) (x : Sent) : (s.send x).reads = s.reads := rfl
@[simp] theorem State.send_queues (s : State) (x : Sent) : (s.send x).queues = s.queues := rfl
@[simp] theorem State.send_cells (s : State) (x : Sent) : (s.send x).cells = s.cells := rfl
@[simp] theorem State.send_markStore (s : State) (x : Sent) : (s.send x).markStore = s.markStore := rfl
@[simp] theorem State.send_waitQ (s : State) (x : Sent) : (s.send x).waitQ = s.waitQ := rfl
@[simp] theorem State.send_tdcs (s : State) (x : Sent) : (s.send x).tdcs = s.tdcs := rfl
@[simp] theorem State.send_probe (s : State) (x : Sent) : (s.send x).probe = s.probe := rfl
@[simp] theorem State.send_kx (s : State) (x : Sent) : (s.send x).kx = s.kx := rfl
@[simp] theorem State.send_eth (s : State) (x : Sent) : (s.send x).eth = s.eth := rfl
@[simp] theorem State.send_nvme (s : State) (x : Sent) : (s.send x).nvme = s.nvme := rfl
@[simp] theorem State.send_clk (s : State) (x : Sent) : (s.send x).clk = s.clk := rfl
@[simp] theorem State.send_sws (s : State) (x : Sent) : (s.send x).sws = s.sws := rfl
@[simp] theorem State.send_pixelLock (s : State) (x : Sent) : (s.send x).pixelLock = s.pixelLock := rfl
@[simp] theorem State.send_power (s : State) (x : Sent) : (s.send x).power = s.power := rfl
@[simp] theorem State.send_fw (s : State) (x : Sent) : (s.send x).fw = s.fw := rfl
@[simp] theorem State.send_flash (s : State) (x : Sent) : (s.send x).flash = s.flash := rfl
@[simp] theorem State.send_panel (s : State) (x : Sent) : (s.send x).panel = s.panel := rfl
@[simp] theorem State.send_heads (s : State) (x : Sent) : (s.send x).heads = s.heads := rfl
@[simp] theorem State.send_sgs (s : State) (x : Sent) : (s.send x).sgs = s.sgs := rfl
@[simp] theorem State.send_plans (s : State) (x : Sent) : (s.send x).plans = s.plans := rfl
@[simp] theorem State.send_sources (s : State) (x : Sent) : (s.send x).sources = s.sources := rfl
@[simp] theorem State.send_adcs (s : State) (x : Sent) : (s.send x).adcs = s.adcs := rfl
@[simp] theorem State.send_dacs (s : State) (x : Sent) : (s.send x).dacs = s.dacs := rfl
@[simp] theorem State.send_syncRun (s : State) (x : Sent) : (s.send x).syncRun = s.syncRun := rfl
@[simp] theorem State.send_cals (s : State) (x : Sent) : (s.send x).cals = s.cals := rfl
@[simp] theorem State.send_hkSeqs (s : State) (x : Sent) : (s.send x).hkSeqs = s.hkSeqs := rfl
@[simp] theorem State.send_pwms (s : State) (x : Sent) : (s.send x).pwms = s.pwms := rfl
@[simp] theorem State.send_ddcs (s : State) (x : Sent) : (s.send x).ddcs = s.ddcs := rfl
@[simp] theorem State.send_plts (s : State) (x : Sent) : (s.send x).plts = s.plts := rfl
@[simp] theorem State.send_engines (s : State) (x : Sent) : (s.send x).engines = s.engines := rfl
@[simp] theorem State.send_reams (s : State) (x : Sent) : (s.send x).reams = s.reams := rfl
@[simp] theorem State.send_zones (s : State) (x : Sent) : (s.send x).zones = s.zones := rfl
@[simp] theorem State.send_pounds (s : State) (x : Sent) : (s.send x).pounds = s.pounds := rfl
@[simp] theorem State.send_captures (s : State) (x : Sent) : (s.send x).captures = s.captures := rfl
@[simp] theorem State.send_captureCount (s : State) (x : Sent) : (s.send x).captureCount = s.captureCount := rfl
@[simp] theorem State.send_channels (s : State) (x : Sent) : (s.send x).channels = s.channels := rfl
@[simp] theorem State.send_userWindows (s : State) (x : Sent) : (s.send x).userWindows = s.userWindows := rfl
@[simp] theorem State.send_occs (s : State) (x : Sent) : (s.send x).occs = s.occs := rfl
@[simp] theorem State.send_weirs (s : State) (x : Sent) : (s.send x).weirs = s.weirs := rfl
@[simp] theorem State.send_pins (s : State) (x : Sent) : (s.send x).pins = s.pins := rfl
@[simp] theorem State.send_pulses (s : State) (x : Sent) : (s.send x).pulses = s.pulses := rfl
@[simp] theorem State.send_flights (s : State) (x : Sent) : (s.send x).flights = s.flights := rfl
@[simp] theorem State.send_cache (s : State) (x : Sent) : (s.send x).cache = s.cache := rfl
@[simp] theorem State.send_pdHeld (s : State) (x : Sent) : (s.send x).pdHeld = s.pdHeld := rfl
@[simp] theorem State.send_calCopies (s : State) (x : Sent) : (s.send x).calCopies = s.calCopies := rfl
@[simp] theorem State.send_savePending (s : State) (x : Sent) : (s.send x).savePending = s.savePending := rfl
@[simp] theorem State.send_monitor (s : State) (x : Sent) : (s.send x).monitor = s.monitor := rfl
@[simp] theorem State.send_lanes (s : State) (x : Sent) : (s.send x).lanes = s.lanes := rfl
@[simp] theorem State.send_vcs (s : State) (x : Sent) : (s.send x).vcs = s.vcs := rfl
@[simp] theorem State.send_spareTest (s : State) (x : Sent) : (s.send x).spareTest = s.spareTest := rfl
@[simp] theorem State.send_memSpeed (s : State) (x : Sent) : (s.send x).memSpeed = s.memSpeed := rfl
@[simp] theorem State.send_trainDue (s : State) (x : Sent) : (s.send x).trainDue = s.trainDue := rfl
@[simp] theorem State.send_gates (s : State) (x : Sent) : (s.send x).gates = s.gates := rfl
@[simp] theorem State.send_lineReqs (s : State) (x : Sent) : (s.send x).lineReqs = s.lineReqs := rfl
@[simp] theorem State.send_cus (s : State) (x : Sent) : (s.send x).cus = s.cus := rfl
@[simp] theorem State.send_turns (s : State) (x : Sent) : (s.send x).turns = s.turns := rfl
@[simp] theorem State.send_spareTestPeriod (s : State) (x : Sent) : (s.send x).spareTestPeriod = s.spareTestPeriod := rfl

/-! ### `State.fresh` -/

@[simp] theorem State.fresh_pending (s : State) : s.fresh.2.pending = s.pending := rfl
@[simp] theorem State.fresh_regs (s : State) : s.fresh.2.regs = s.regs := rfl
@[simp] theorem State.fresh_latches (s : State) : s.fresh.2.latches = s.latches := rfl
@[simp] theorem State.fresh_sent (s : State) : s.fresh.2.sent = s.sent := rfl
@[simp] theorem State.fresh_ticks (s : State) : s.fresh.2.ticks = s.ticks := rfl
@[simp] theorem State.fresh_tk (s : State) : s.fresh.2.tk = s.tk := rfl
@[simp] theorem State.fresh_ev (s : State) : s.fresh.2.ev = s.ev := rfl
@[simp] theorem State.fresh_pcie (s : State) : s.fresh.2.pcie = s.pcie := rfl
@[simp] theorem State.fresh_lookout (s : State) : s.fresh.2.lookout = s.lookout := rfl
@[simp] theorem State.fresh_rings (s : State) : s.fresh.2.rings = s.rings := rfl
@[simp] theorem State.fresh_taken (s : State) : s.fresh.2.taken = s.taken := rfl
@[simp] theorem State.fresh_orders (s : State) : s.fresh.2.orders = s.orders := rfl
@[simp] theorem State.fresh_reads (s : State) : s.fresh.2.reads = s.reads := rfl
@[simp] theorem State.fresh_queues (s : State) : s.fresh.2.queues = s.queues := rfl
@[simp] theorem State.fresh_cells (s : State) : s.fresh.2.cells = s.cells := rfl
@[simp] theorem State.fresh_markStore (s : State) : s.fresh.2.markStore = s.markStore := rfl
@[simp] theorem State.fresh_waitQ (s : State) : s.fresh.2.waitQ = s.waitQ := rfl
@[simp] theorem State.fresh_tdcs (s : State) : s.fresh.2.tdcs = s.tdcs := rfl
@[simp] theorem State.fresh_probe (s : State) : s.fresh.2.probe = s.probe := rfl
@[simp] theorem State.fresh_kx (s : State) : s.fresh.2.kx = s.kx := rfl
@[simp] theorem State.fresh_eth (s : State) : s.fresh.2.eth = s.eth := rfl
@[simp] theorem State.fresh_nvme (s : State) : s.fresh.2.nvme = s.nvme := rfl
@[simp] theorem State.fresh_clk (s : State) : s.fresh.2.clk = s.clk := rfl
@[simp] theorem State.fresh_sws (s : State) : s.fresh.2.sws = s.sws := rfl
@[simp] theorem State.fresh_pixelLock (s : State) : s.fresh.2.pixelLock = s.pixelLock := rfl
@[simp] theorem State.fresh_power (s : State) : s.fresh.2.power = s.power := rfl
@[simp] theorem State.fresh_fw (s : State) : s.fresh.2.fw = s.fw := rfl
@[simp] theorem State.fresh_flash (s : State) : s.fresh.2.flash = s.flash := rfl
@[simp] theorem State.fresh_panel (s : State) : s.fresh.2.panel = s.panel := rfl
@[simp] theorem State.fresh_heads (s : State) : s.fresh.2.heads = s.heads := rfl
@[simp] theorem State.fresh_sgs (s : State) : s.fresh.2.sgs = s.sgs := rfl
@[simp] theorem State.fresh_plans (s : State) : s.fresh.2.plans = s.plans := rfl
@[simp] theorem State.fresh_sources (s : State) : s.fresh.2.sources = s.sources := rfl
@[simp] theorem State.fresh_adcs (s : State) : s.fresh.2.adcs = s.adcs := rfl
@[simp] theorem State.fresh_dacs (s : State) : s.fresh.2.dacs = s.dacs := rfl
@[simp] theorem State.fresh_syncRun (s : State) : s.fresh.2.syncRun = s.syncRun := rfl
@[simp] theorem State.fresh_cals (s : State) : s.fresh.2.cals = s.cals := rfl
@[simp] theorem State.fresh_hkSeqs (s : State) : s.fresh.2.hkSeqs = s.hkSeqs := rfl
@[simp] theorem State.fresh_pwms (s : State) : s.fresh.2.pwms = s.pwms := rfl
@[simp] theorem State.fresh_ddcs (s : State) : s.fresh.2.ddcs = s.ddcs := rfl
@[simp] theorem State.fresh_plts (s : State) : s.fresh.2.plts = s.plts := rfl
@[simp] theorem State.fresh_engines (s : State) : s.fresh.2.engines = s.engines := rfl
@[simp] theorem State.fresh_reams (s : State) : s.fresh.2.reams = s.reams := rfl
@[simp] theorem State.fresh_zones (s : State) : s.fresh.2.zones = s.zones := rfl
@[simp] theorem State.fresh_pounds (s : State) : s.fresh.2.pounds = s.pounds := rfl
@[simp] theorem State.fresh_captures (s : State) : s.fresh.2.captures = s.captures := rfl
@[simp] theorem State.fresh_captureCount (s : State) : s.fresh.2.captureCount = s.captureCount := rfl
@[simp] theorem State.fresh_channels (s : State) : s.fresh.2.channels = s.channels := rfl
@[simp] theorem State.fresh_userWindows (s : State) : s.fresh.2.userWindows = s.userWindows := rfl
@[simp] theorem State.fresh_occs (s : State) : s.fresh.2.occs = s.occs := rfl
@[simp] theorem State.fresh_weirs (s : State) : s.fresh.2.weirs = s.weirs := rfl
@[simp] theorem State.fresh_pins (s : State) : s.fresh.2.pins = s.pins := rfl
@[simp] theorem State.fresh_pulses (s : State) : s.fresh.2.pulses = s.pulses := rfl
@[simp] theorem State.fresh_flights (s : State) : s.fresh.2.flights = s.flights := rfl
@[simp] theorem State.fresh_cache (s : State) : s.fresh.2.cache = s.cache := rfl
@[simp] theorem State.fresh_pdHeld (s : State) : s.fresh.2.pdHeld = s.pdHeld := rfl
@[simp] theorem State.fresh_calCopies (s : State) : s.fresh.2.calCopies = s.calCopies := rfl
@[simp] theorem State.fresh_savePending (s : State) : s.fresh.2.savePending = s.savePending := rfl
@[simp] theorem State.fresh_monitor (s : State) : s.fresh.2.monitor = s.monitor := rfl
@[simp] theorem State.fresh_lanes (s : State) : s.fresh.2.lanes = s.lanes := rfl
@[simp] theorem State.fresh_vcs (s : State) : s.fresh.2.vcs = s.vcs := rfl
@[simp] theorem State.fresh_spareTest (s : State) : s.fresh.2.spareTest = s.spareTest := rfl
@[simp] theorem State.fresh_memSpeed (s : State) : s.fresh.2.memSpeed = s.memSpeed := rfl
@[simp] theorem State.fresh_trainDue (s : State) : s.fresh.2.trainDue = s.trainDue := rfl
@[simp] theorem State.fresh_gates (s : State) : s.fresh.2.gates = s.gates := rfl
@[simp] theorem State.fresh_lineReqs (s : State) : s.fresh.2.lineReqs = s.lineReqs := rfl
@[simp] theorem State.fresh_cus (s : State) : s.fresh.2.cus = s.cus := rfl
@[simp] theorem State.fresh_turns (s : State) : s.fresh.2.turns = s.turns := rfl
@[simp] theorem State.fresh_spareTestPeriod (s : State) : s.fresh.2.spareTestPeriod = s.spareTestPeriod := rfl
@[simp] theorem State.fresh_held (s : State) : s.fresh.2.held = s.held := rfl

theorem State.send_sent (s : State) (x : Sent) : (s.send x).sent = if s.pcie.blocks x then s.sent else x :: s.sent := rfl
theorem State.send_held (s : State) (x : Sent) : (s.send x).held = if s.pcie.blocks x then x :: s.held else s.held := rfl

/-- What no function's Bus Master Enable holds back leaves at once. -/
@[simp] theorem State.send_sent_free (s : State) (x : Sent) (h : s.pcie.blocks x = false) : (s.send x).sent = x :: s.sent := by
  simp [State.send_sent, h]
@[simp] theorem State.setWord_regs (s : State) (k : Nat) (w : Word) : (s.setWord k w).regs = s.regs.store k w := rfl

end Machine
end Sys2Proof
end

