-- ==== Sys2Proof/Laws/Frames.lean ====
section
/-!
SUPPORT. What the shared operations leave alone: the gate of a register write, and the reach of events, interrupts and retirements.
-/

namespace Sys2Proof
namespace Machine

/-- A write that reaches its register, by an agent that may write it, in a block that is not served from its retention copy, has its
effect. -/
theorem State.gate_act (s : State) (p : Path) (key : Nat) (keep act : State → State) (hr : s.reaches p key = true)
    (hw : s.mayWrite p key = true) (hk : s.retained key = false) : s.gate p key keep act = act s := by
  simp [State.gate, hr, hw, hk]

theorem State.gateAction_act (s : State) (p : Path) (key : Nat) (act : State → State) (hr : s.reaches p key = true)
    (hw : s.mayWrite p key = true) (hk : s.retained key = false) : s.gateAction p key act = act s :=
  State.gate_act s p key id act hr hw hk

theorem State.gateField_act (s : State) (p : Path) (f : Field) (v : Nat) (act : State → State) (hr : s.reaches p f.key = true)
    (hw : s.mayWrite p f.key = true) (hk : s.retained f.key = false) : s.gateField p f v act = act s :=
  State.gate_act s p f.key _ act hr hw hk

/-- A value that fits its field reads back as written. -/
theorem State.get_put_fits (s : State) (f : Field) (v : Nat) (h : f.lsb + f.width ≤ 32) (hv : v < 2 ^ f.width) : (s.put f v).get f = v := by
  rw [State.get_put_same s f v h, Nat.mod_eq_of_lt hv]

/-- Fields of other registers keep their values. -/
theorem State.get_put_ne (s : State) (f g : Field) (v : Nat) (h : g.key ≠ f.key) : (s.put f v).get g = s.get g :=
  State.get_setWord_other s g f.key _ h

/-- What events, interrupts and retirements may touch: registers, the events, the power state, PCIe, what has been sent or is held, and the counter of
free values; of `t` everything else is as in `s`. -/
structure State.Rest (s t : State) : Prop where
  eq : { t with regs := s.regs, ev := s.ev, power := s.power, pcie := s.pcie, sent := s.sent, held := s.held, freeCtr := s.freeCtr } = s

theorem State.Rest.refl (s : State) : s.Rest s := ⟨rfl⟩

theorem State.Rest.trans {a b c : State} (h : a.Rest b) (g : b.Rest c) : a.Rest c := by
  refine ⟨?_⟩
  have hb := h.eq
  rw [← g.eq] at hb
  exact hb

theorem State.rest_ite {s a b : State} {c : Prop} [Decidable c] (ha : s.Rest a) (hb : s.Rest b) : s.Rest (if c then a else b) := by
  split
  · exact ha
  · exact hb

theorem State.Rest.eth {s t : State} (h : s.Rest t) : t.eth = s.eth := by
  rw [← h.eq]

theorem State.Rest.cache {s t : State} (h : s.Rest t) : t.cache = s.cache := by
  rw [← h.eq]

theorem State.Rest.pounds {s t : State} (h : s.Rest t) : t.pounds = s.pounds := by
  rw [← h.eq]

theorem State.Rest.cus {s t : State} (h : s.Rest t) : t.cus = s.cus := by
  rw [← h.eq]

theorem State.Rest.flash {s t : State} (h : s.Rest t) : t.flash = s.flash := by
  rw [← h.eq]

theorem State.Rest.panel {s t : State} (h : s.Rest t) : t.panel = s.panel := by
  rw [← h.eq]

theorem State.Rest.fw {s t : State} (h : s.Rest t) : t.fw = s.fw := by
  rw [← h.eq]

theorem State.Rest.adcs {s t : State} (h : s.Rest t) : t.adcs = s.adcs := by
  rw [← h.eq]

theorem State.Rest.rings {s t : State} (h : s.Rest t) : t.rings = s.rings := by
  rw [← h.eq]

theorem State.Rest.queues {s t : State} (h : s.Rest t) : t.queues = s.queues := by
  rw [← h.eq]

theorem State.Rest.orders {s t : State} (h : s.Rest t) : t.orders = s.orders := by
  rw [← h.eq]

theorem State.Rest.tk {s t : State} (h : s.Rest t) : t.tk = s.tk := by
  rw [← h.eq]

theorem State.put_rest (s : State) (f : Field) (v : Nat) : s.Rest (s.put f v) := ⟨rfl⟩

theorem State.setWord_rest (s : State) (k : Nat) (w : Word) : s.Rest (s.setWord k w) := ⟨rfl⟩

theorem State.satInc_rest (s : State) (f : Field) (n : Nat) : s.Rest (s.satInc f n) := ⟨rfl⟩

theorem State.send_rest (s : State) (x : Sent) : s.Rest (s.send x) := ⟨rfl⟩

theorem State.fresh_rest (s : State) : s.Rest s.fresh.2 := ⟨rfl⟩

theorem State.noteAer_rest (s : State) (fn err : Nat) : s.Rest (s.noteAer fn err) := ⟨rfl⟩

theorem State.setRequest_rest (s : State) (r : Option PwrReq) : s.Rest (s.setRequest r) := ⟨rfl⟩

theorem State.noteWake_rest (s : State) (c : Nat) : s.Rest (s.noteWake c) := ⟨rfl⟩

theorem State.setContain_rest (s : State) (cs : List Containment) : s.Rest (s.setContain cs) := ⟨rfl⟩

theorem State.abandonAuto_rest (s : State) : s.Rest s.abandonAuto := by
  unfold State.abandonAuto
  split
  · exact State.rest_ite (((State.setRequest_rest _ _).trans (State.put_rest _ _ _)).trans (State.put_rest _ _ _)) (State.Rest.refl s)
  · exact State.Rest.refl s

theorem State.wakeCause_rest (s : State) (c : Nat) : s.Rest (s.wakeCause c) :=
  (State.abandonAuto_rest s).trans (State.rest_ite (State.noteWake_rest _ _) (State.Rest.refl _))

theorem State.waitRecord_rest (s : State) (r : EvRec) (d : Bool × Bool) (n : Bool) : s.Rest (s.waitRecord r d n) := ⟨rfl⟩

theorem State.offerRecord_rest (s : State) (r : EvRec) : s.Rest (s.offerRecord r) :=
  State.Rest.trans (State.rest_ite (State.wakeCause_rest s 2) ⟨rfl⟩) (State.waitRecord_rest _ _ _ _)

theorem State.countConsequence_rest (s : State) (src inst cause : Nat) : s.Rest (s.countConsequence src inst cause) :=
  (State.setContain_rest s _).trans (State.rest_ite (State.satInc_rest _ _ _) (State.Rest.refl _))

theorem State.addContainment_rest (s : State) (src inst info time : Nat) : s.Rest (s.addContainment src inst info time) :=
  State.rest_ite (State.setContain_rest _ _) (State.Rest.refl _)

theorem State.openRoot_rest (s : State) (src inst info time : Nat) : s.Rest (s.openRoot src inst info time) :=
  ((State.put_rest _ _ _).trans (State.put_rest _ _ _)).trans (State.addContainment_rest _ _ _ _ _)

/-- An event touches registers, the events and the power state only. -/
theorem State.raiseAt_rest (s : State) (src inst info cause time : Nat) : s.Rest (s.raiseAt src inst info cause time) :=
  (State.satInc_rest s (R.EV_CNT.COUNT src) 1).trans
    (State.rest_ite (State.Rest.refl _) (State.rest_ite (State.countConsequence_rest _ _ _ _)
      ((State.offerRecord_rest _ _).trans (State.rest_ite (State.openRoot_rest _ _ _ _ _) (State.Rest.refl _)))))

theorem State.raise_rest (s : State) (src inst info cause : Nat) : s.Rest (s.raise src inst info cause) := State.raiseAt_rest _ _ _ _ _ _

theorem State.raiseWith_rest (s : State) (src inst : Nat) (parts : List Nat) (cause : Nat) : s.Rest (s.raiseWith src inst parts cause) :=
  State.raise_rest _ _ _ _ _

theorem State.raiseInst_rest (s : State) (src inst : Nat) : s.Rest (s.raiseInst src inst) := State.raise_rest _ _ _ _ _

theorem State.vecCause_rest (s : State) (fn vec : Nat) : s.Rest (s.vecCause fn vec) :=
  State.rest_ite ⟨rfl⟩ (State.rest_ite ⟨rfl⟩ ⟨rfl⟩)

/-- An interrupt touches PCIe and what has been sent only. -/
theorem State.irq_rest (s : State) (i : Nat) : s.Rest (s.irq i) := State.rest_ite (State.vecCause_rest _ _ _) ⟨rfl⟩

@[simp] theorem State.vecCause_regs (s : State) (fn vec : Nat) : (s.vecCause fn vec).regs = s.regs := by
  unfold State.vecCause
  split
  · rfl
  · split <;> rfl

@[simp] theorem State.irq_regs (s : State) (i : Nat) : (s.irq i).regs = s.regs := by
  unfold State.irq
  split
  · exact State.vecCause_regs _ _ _
  · rfl

theorem State.word_eq_of_regs {s t : State} (h : t.regs = s.regs) (k : Nat) : t.word k = s.word k := by
  unfold State.word
  rw [h]

theorem State.get_eq_of_word {s t : State} {f : Field} (h : t.word f.key = s.word f.key) : t.get f = s.get f := by
  unfold State.get
  rw [h]

theorem State.setRequest_word (s : State) (r : Option PwrReq) (k : Nat) : (s.setRequest r).word k = s.word k := rfl

theorem State.noteWake_word (s : State) (c k : Nat) : (s.noteWake c).word k = s.word k := rfl

theorem State.setContain_word (s : State) (cs : List Containment) (k : Nat) : (s.setContain cs).word k = s.word k := rfl

theorem State.abandonAuto_word (s : State) (k : Nat) (h : k ≠ R.GLOBAL_PWRSTAT) : s.abandonAuto.word k = s.word k := by
  unfold State.abandonAuto
  split
  · split
    · rw [State.word_put_other _ _ _ _ h, State.word_put_other _ _ _ _ h, State.setRequest_word]
    · rfl
  · rfl

theorem State.wakeCause_word (s : State) (c k : Nat) (h : k ≠ R.GLOBAL_PWRSTAT) : (s.wakeCause c).word k = s.word k := by
  rw [← State.abandonAuto_word s k h]
  unfold State.wakeCause
  dsimp only
  split
  · exact State.noteWake_word _ _ _
  · rfl

theorem State.waitRecord_word (s : State) (r : EvRec) (d : Bool × Bool) (n : Bool) (k : Nat) : (s.waitRecord r d n).word k = s.word k := rfl

theorem State.offerRecord_word (s : State) (r : EvRec) (k : Nat) (h : k ≠ R.GLOBAL_PWRSTAT) : (s.offerRecord r).word k = s.word k := by
  unfold State.offerRecord
  dsimp only
  rw [State.waitRecord_word]
  split
  · exact State.wakeCause_word s 2 k h
  · rfl

theorem State.countConsequence_word (s : State) (src inst cause k : Nat) (h : k ≠ R.EV_ROOT) :
    (s.countConsequence src inst cause).word k = s.word k := by
  unfold State.countConsequence
  dsimp only
  split
  · exact (State.word_put_other _ _ _ _ h).trans (State.setContain_word _ _ _)
  · exact State.setContain_word _ _ _

theorem State.addContainment_word (s : State) (src inst info time k : Nat) : (s.addContainment src inst info time).word k = s.word k := by
  unfold State.addContainment
  split
  · exact State.setContain_word _ _ _
  · rfl

theorem State.openRoot_word (s : State) (src inst info time k : Nat) (h : k ≠ R.EV_ROOT) :
    (s.openRoot src inst info time).word k = s.word k := by
  unfold State.openRoot
  rw [State.addContainment_word, State.word_put_other _ _ _ _ h, State.word_put_other _ _ _ _ h]

/-- The registers an event touches: its counter, EV_ROOT, and GLOBAL_PWRSTAT where its record wakes the device. -/
theorem State.raiseAt_word (s : State) (src inst info cause time k : Nat) (h1 : k ≠ R.EV_CNT src) (h2 : k ≠ R.EV_ROOT)
    (h3 : k ≠ R.GLOBAL_PWRSTAT) : (s.raiseAt src inst info cause time).word k = s.word k := by
  have h0 : (s.satInc (R.EV_CNT.COUNT src)).word k = s.word k := State.word_put_other _ _ _ _ h1
  rw [← h0]
  unfold State.raiseAt
  generalize s.satInc (R.EV_CNT.COUNT src) = a
  dsimp only
  split
  · rfl
  · split
    · exact State.countConsequence_word _ _ _ _ _ h2
    · split
      · rw [State.openRoot_word _ _ _ _ _ _ h2, State.offerRecord_word _ _ _ h3]
      · exact State.offerRecord_word _ _ _ h3

theorem State.get_raise (s : State) (src inst info cause : Nat) (f : Field) (h1 : f.key ≠ R.EV_CNT src) (h2 : f.key ≠ R.EV_ROOT)
    (h3 : f.key ≠ R.GLOBAL_PWRSTAT) : (s.raise src inst info cause).get f = s.get f :=
  State.get_eq_of_word (State.raiseAt_word _ _ _ _ _ _ _ h1 h2 h3)

theorem State.get_raiseInst (s : State) (src inst : Nat) (f : Field) (h1 : f.key ≠ R.EV_CNT src) (h2 : f.key ≠ R.EV_ROOT)
    (h3 : f.key ≠ R.GLOBAL_PWRSTAT) : (s.raiseInst src inst).get f = s.get f :=
  State.get_raise _ _ _ _ _ _ h1 h2 h3

@[simp] theorem State.get_irq (s : State) (i : Nat) (f : Field) : (s.irq i).get f = s.get f :=
  State.get_eq_of_word (State.word_eq_of_regs (State.irq_regs s i) _)

@[simp] theorem State.get_send (s : State) (x : Sent) (f : Field) : (s.send x).get f = s.get f := rfl

/-- Taking note of an event sends nothing and leaves PCIe as it is. -/
structure State.Quiet (s t : State) : Prop where
  pcie : t.pcie = s.pcie
  sent : t.sent = s.sent

theorem State.Quiet.trans {a b c : State} (h : a.Quiet b) (g : b.Quiet c) : a.Quiet c := ⟨g.1.trans h.1, g.2.trans h.2⟩

theorem State.quiet_ite {s a b : State} {c : Prop} [Decidable c] (ha : s.Quiet a) (hb : s.Quiet b) : s.Quiet (if c then a else b) := by
  split
  · exact ha
  · exact hb

theorem State.quiet_self (s : State) : s.Quiet s := ⟨rfl, rfl⟩

theorem State.put_quiet (s : State) (f : Field) (v : Nat) : s.Quiet (s.put f v) := ⟨rfl, rfl⟩

theorem State.setContain_quiet (s : State) (cs : List Containment) : s.Quiet (s.setContain cs) := ⟨rfl, rfl⟩

theorem State.abandonAuto_quiet (s : State) : s.Quiet s.abandonAuto := by
  unfold State.abandonAuto
  split
  · exact State.quiet_ite (((⟨rfl, rfl⟩ : s.Quiet (s.setRequest none)).trans (State.put_quiet _ _ _)).trans (State.put_quiet _ _ _)) s.quiet_self
  · exact s.quiet_self

theorem State.wakeCause_quiet (s : State) (c : Nat) : s.Quiet (s.wakeCause c) :=
  s.abandonAuto_quiet.trans (State.quiet_ite ⟨rfl, rfl⟩ (State.quiet_self _))

theorem State.offerRecord_quiet (s : State) (r : EvRec) : s.Quiet (s.offerRecord r) :=
  (State.quiet_ite (s.wakeCause_quiet 2) s.quiet_self).trans ⟨rfl, rfl⟩

theorem State.countConsequence_quiet (s : State) (src inst cause : Nat) : s.Quiet (s.countConsequence src inst cause) :=
  (s.setContain_quiet _).trans (State.quiet_ite (State.put_quiet _ _ _) (State.quiet_self _))

theorem State.openRoot_quiet (s : State) (src inst info time : Nat) : s.Quiet (s.openRoot src inst info time) :=
  ((State.put_quiet _ _ _).trans (State.put_quiet _ _ _)).trans (State.quiet_ite (State.setContain_quiet _ _) (State.quiet_self _))

theorem State.raiseAt_quiet (s : State) (src inst info cause time : Nat) : s.Quiet (s.raiseAt src inst info cause time) :=
  (State.put_quiet _ _ _).trans (State.quiet_ite (State.quiet_self _) (State.quiet_ite (State.countConsequence_quiet _ _ _ _)
    (State.quiet_ite ((State.offerRecord_quiet _ _).trans (State.openRoot_quiet _ _ _ _ _)) (State.offerRecord_quiet _ _))))

theorem State.raise_quiet (s : State) (src inst info cause : Nat) : s.Quiet (s.raise src inst info cause) := State.raiseAt_quiet _ _ _ _ _ _

/-! ### An AER error -/

theorem State.logAer_rest (s : State) (fn err : Nat) : s.Rest (s.logAer fn err) :=
  (s.noteAer_rest fn err).trans ((State.fresh_rest _).trans (State.raiseWith_rest _ _ _ _ _))

theorem State.logAer_quiet (s : State) (fn err : Nat) : (s.noteAer fn err).Quiet (s.logAer fn err) :=
  State.Quiet.trans (b := (s.noteAer fn err).fresh.2) ⟨rfl, rfl⟩ (State.raise_quiet _ _ _ _ _)

/-- The error is logged, nothing is sent for it. -/
theorem State.logAer_logs (s : State) (fn err : Nat) : (fn, err) ∈ (s.logAer fn err).pcie.aer ∧ (s.logAer fn err).sent = s.sent := by
  refine ⟨?_, (s.logAer_quiet fn err).sent⟩
  rw [(s.logAer_quiet fn err).pcie]
  unfold State.noteAer
  by_cases h : (fn, err) ∈ s.pcie.aer <;> simp [h]

theorem State.logAer_word (s : State) (fn err k : Nat) (h1 : k ≠ R.EV_CNT 162) (h2 : k ≠ R.EV_ROOT) (h3 : k ≠ R.GLOBAL_PWRSTAT) :
    (s.logAer fn err).word k = s.word k := by
  unfold State.logAer State.raiseWith
  dsimp only
  rw [State.raise, State.raiseAt_word _ _ _ _ _ _ _ h1 h2 h3]
  exact State.word_eq_of_regs rfl k

/-! ### Events -/

/-- R617: an event counts once at its source. -/
theorem State.raise_count (s : State) (src inst info cause : Nat) (h2 : R.EV_CNT src ≠ R.EV_ROOT) (h3 : R.EV_CNT src ≠ R.GLOBAL_PWRSTAT) :
    (s.raise src inst info cause).get (R.EV_CNT.COUNT src) = satAdd (R.EV_CNT.COUNT src).width (s.get (R.EV_CNT.COUNT src)) 1 := by
  have h0 : (s.satInc (R.EV_CNT.COUNT src)).get (R.EV_CNT.COUNT src) = satAdd (R.EV_CNT.COUNT src).width (s.get (R.EV_CNT.COUNT src)) 1 := by
    unfold State.satInc
    exact State.get_put_fits _ _ _ (by simp) (by
      show satAdd 32 _ _ < 2 ^ 32
      unfold satAdd; omega)
  rw [← h0]
  apply State.get_eq_of_word
  unfold State.raise State.raiseAt
  generalize s.satInc (R.EV_CNT.COUNT src) = a
  dsimp only
  split
  · rfl
  · split
    · exact State.countConsequence_word _ _ _ _ _ h2
    · split
      · rw [State.openRoot_word _ _ _ _ _ _ h2, State.offerRecord_word _ _ _ h3]
      · exact State.offerRecord_word _ _ _ h3

end Machine
end Sys2Proof
end

