-- ==== Sys2Proof/Laws/OkBase.lean ====
section
/-!
SUPPORT. What every operation of the model keeps: the canonical forms of `State.Ok`, the queue of waiting commands, what has been sent, and
the counter of free values. The basic facts; the files Ok<Module> hold one lemma for each operation of Machine/<Module>.lean.
-/

namespace Sys2Proof
namespace Machine

/-- What a run of operations is compared with: the waiting commands, what had been sent, and the counter of free values. -/
structure Keep where
  queue : List Instr
  sent : List Sent
  ctr : Nat

/-- A state that is safe, has the waiting commands `κ.queue`, has sent `κ.sent` and perhaps more since, and whose counter of free values
has not gone back below `κ.ctr`. -/
structure State.Kept (κ : Keep) (s : State) : Prop where
  pending : s.pending = κ.queue
  sent : κ.sent <:+ s.sent
  free : κ.ctr ≤ s.freeCtr
  regs : s.regs.wf = true
  cache : Mem.wf 0#8 s.cache = true
  pounds : s.pounds.all (fun e => Mem.wf 0#8 e.2.store) = true
  cus : s.cus.all (fun e => Mem.wf 0#8 e.2.data) = true
  eth : Mem.wf 0#8 s.eth.mem = true
  flash : Mem.wf 0#8 s.flash.config = true
  panel : Mem.wf 0#8 s.panel.store = true

/-- A record update that touches none of what `Kept` speaks of. -/
theorem State.mk_ok {κ : Keep} {X : State}
    (x_latches : SMap Word) (x_held : List Sent) (x_turns : Turns) (x_ticks : Nat) (x_tk : Timekeeper) (x_ev : EventStore) (x_pcie : Pcie) (x_lookout : Lookout) (x_rings : SMap Ring) (x_taken : List Order) (x_orders : List Order) (x_reads : List HostRead) (x_queues : SMap Queue) (x_cells : SMap CellTag) (x_markStore : List HeldMark) (x_waitQ : List (Nat × Barge)) (x_tdcs : SMap Tdc) (x_probe : Probe) (x_kx : Kx) (x_nvme : Nvme) (x_clk : Clk) (x_sws : Sws) (x_pixelLock : List Nat) (x_power : Power) (x_fw : Fw) (x_heads : SMap Head) (x_sgs : SMap Sg) (x_plans : SMap Plan) (x_sources : SMap Source) (x_adcs : SMap Adc) (x_dacs : SMap Dac) (x_syncRun : Option SyncRun) (x_cals : SMap Cal) (x_hkSeqs : SMap HkSeq) (x_pwms : SMap Pwm) (x_ddcs : SMap Ddc) (x_plts : SMap Plt) (x_engines : SMap Engine) (x_reams : SMap Ream) (x_zones : SMap Zone) (x_captures : List Capture) (x_captureCount : Nat) (x_channels : SMap Channel) (x_userWindows : SMap (Nat × List Int)) (x_occs : List Occ) (x_weirs : SMap Weir) (x_pins : SMap TrigPin) (x_pulses : SMap Pulse) (x_flights : SMap Flight) (x_pdHeld : List Nat) (x_calCopies : SMap CalCopy) (x_savePending : Bool) (x_monitor : Monitor) (x_lanes : SMap Lane) (x_vcs : SMap Vc) (x_spareTest : Nat × Nat) (x_spareTestPeriod : Nat) (x_memSpeed : Nat) (x_trainDue : Bool) (x_gates : SMap Gate) (x_lineReqs : SMap Nat)
    (h : X.Kept κ) :
    State.Kept κ (State.mk X.pending X.regs x_latches X.freeCtr X.sent x_held x_turns x_ticks x_tk x_ev x_pcie x_lookout x_rings x_taken x_orders x_reads x_queues x_cells x_markStore x_waitQ x_tdcs x_probe x_kx X.eth x_nvme x_clk x_sws x_pixelLock x_power x_fw X.flash X.panel x_heads x_sgs x_plans x_sources x_adcs x_dacs x_syncRun x_cals x_hkSeqs x_pwms x_ddcs x_plts x_engines x_reams x_zones X.pounds x_captures x_captureCount x_channels x_userWindows x_occs x_weirs x_pins x_pulses x_flights X.cache x_pdHeld x_calCopies x_savePending x_monitor x_lanes x_vcs x_spareTest x_spareTestPeriod x_memSpeed x_trainDue x_gates x_lineReqs X.cus) :=
  ⟨h.pending, h.sent, h.free, h.regs, h.cache, h.pounds, h.cus, h.eth, h.flash, h.panel⟩

/-- A record update that raises the counter of free values. -/
theorem State.mk_ok_ctr {κ : Keep} {X : State}
    (x_latches : SMap Word) (x_freeCtr : Nat) (x_held : List Sent) (x_turns : Turns) (x_ticks : Nat) (x_tk : Timekeeper) (x_ev : EventStore) (x_pcie : Pcie) (x_lookout : Lookout) (x_rings : SMap Ring) (x_taken : List Order) (x_orders : List Order) (x_reads : List HostRead) (x_queues : SMap Queue) (x_cells : SMap CellTag) (x_markStore : List HeldMark) (x_waitQ : List (Nat × Barge)) (x_tdcs : SMap Tdc) (x_probe : Probe) (x_kx : Kx) (x_nvme : Nvme) (x_clk : Clk) (x_sws : Sws) (x_pixelLock : List Nat) (x_power : Power) (x_fw : Fw) (x_heads : SMap Head) (x_sgs : SMap Sg) (x_plans : SMap Plan) (x_sources : SMap Source) (x_adcs : SMap Adc) (x_dacs : SMap Dac) (x_syncRun : Option SyncRun) (x_cals : SMap Cal) (x_hkSeqs : SMap HkSeq) (x_pwms : SMap Pwm) (x_ddcs : SMap Ddc) (x_plts : SMap Plt) (x_engines : SMap Engine) (x_reams : SMap Ream) (x_zones : SMap Zone) (x_captures : List Capture) (x_captureCount : Nat) (x_channels : SMap Channel) (x_userWindows : SMap (Nat × List Int)) (x_occs : List Occ) (x_weirs : SMap Weir) (x_pins : SMap TrigPin) (x_pulses : SMap Pulse) (x_flights : SMap Flight) (x_pdHeld : List Nat) (x_calCopies : SMap CalCopy) (x_savePending : Bool) (x_monitor : Monitor) (x_lanes : SMap Lane) (x_vcs : SMap Vc) (x_spareTest : Nat × Nat) (x_spareTestPeriod : Nat) (x_memSpeed : Nat) (x_trainDue : Bool) (x_gates : SMap Gate) (x_lineReqs : SMap Nat)
    (hc : X.freeCtr ≤ x_freeCtr) (h : X.Kept κ) :
    State.Kept κ (State.mk X.pending X.regs x_latches x_freeCtr X.sent x_held x_turns x_ticks x_tk x_ev x_pcie x_lookout x_rings x_taken x_orders x_reads x_queues x_cells x_markStore x_waitQ x_tdcs x_probe x_kx X.eth x_nvme x_clk x_sws x_pixelLock x_power x_fw X.flash X.panel x_heads x_sgs x_plans x_sources x_adcs x_dacs x_syncRun x_cals x_hkSeqs x_pwms x_ddcs x_plts x_engines x_reams x_zones X.pounds x_captures x_captureCount x_channels x_userWindows x_occs x_weirs x_pins x_pulses x_flights X.cache x_pdHeld x_calCopies x_savePending x_monitor x_lanes x_vcs x_spareTest x_spareTestPeriod x_memSpeed x_trainDue x_gates x_lineReqs X.cus) :=
  ⟨h.pending, h.sent, Nat.le_trans h.free hc, h.regs, h.cache, h.pounds, h.cus, h.eth, h.flash, h.panel⟩

/-- A record update that changes the Ethernet port. -/
theorem State.mk_ok_eth {κ : Keep} {X : State}
    (x_latches : SMap Word) (x_held : List Sent) (x_turns : Turns) (x_ticks : Nat) (x_tk : Timekeeper) (x_ev : EventStore) (x_pcie : Pcie) (x_lookout : Lookout) (x_rings : SMap Ring) (x_taken : List Order) (x_orders : List Order) (x_reads : List HostRead) (x_queues : SMap Queue) (x_cells : SMap CellTag) (x_markStore : List HeldMark) (x_waitQ : List (Nat × Barge)) (x_tdcs : SMap Tdc) (x_probe : Probe) (x_kx : Kx) (x_eth : Eth) (x_nvme : Nvme) (x_clk : Clk) (x_sws : Sws) (x_pixelLock : List Nat) (x_power : Power) (x_fw : Fw) (x_heads : SMap Head) (x_sgs : SMap Sg) (x_plans : SMap Plan) (x_sources : SMap Source) (x_adcs : SMap Adc) (x_dacs : SMap Dac) (x_syncRun : Option SyncRun) (x_cals : SMap Cal) (x_hkSeqs : SMap HkSeq) (x_pwms : SMap Pwm) (x_ddcs : SMap Ddc) (x_plts : SMap Plt) (x_engines : SMap Engine) (x_reams : SMap Ream) (x_zones : SMap Zone) (x_captures : List Capture) (x_captureCount : Nat) (x_channels : SMap Channel) (x_userWindows : SMap (Nat × List Int)) (x_occs : List Occ) (x_weirs : SMap Weir) (x_pins : SMap TrigPin) (x_pulses : SMap Pulse) (x_flights : SMap Flight) (x_pdHeld : List Nat) (x_calCopies : SMap CalCopy) (x_savePending : Bool) (x_monitor : Monitor) (x_lanes : SMap Lane) (x_vcs : SMap Vc) (x_spareTest : Nat × Nat) (x_spareTestPeriod : Nat) (x_memSpeed : Nat) (x_trainDue : Bool) (x_gates : SMap Gate) (x_lineReqs : SMap Nat)
    (hm : Mem.wf 0#8 X.eth.mem = true → Mem.wf 0#8 x_eth.mem = true) (h : X.Kept κ) :
    State.Kept κ (State.mk X.pending X.regs x_latches X.freeCtr X.sent x_held x_turns x_ticks x_tk x_ev x_pcie x_lookout x_rings x_taken x_orders x_reads x_queues x_cells x_markStore x_waitQ x_tdcs x_probe x_kx x_eth x_nvme x_clk x_sws x_pixelLock x_power x_fw X.flash X.panel x_heads x_sgs x_plans x_sources x_adcs x_dacs x_syncRun x_cals x_hkSeqs x_pwms x_ddcs x_plts x_engines x_reams x_zones X.pounds x_captures x_captureCount x_channels x_userWindows x_occs x_weirs x_pins x_pulses x_flights X.cache x_pdHeld x_calCopies x_savePending x_monitor x_lanes x_vcs x_spareTest x_spareTestPeriod x_memSpeed x_trainDue x_gates x_lineReqs X.cus) :=
  ⟨h.pending, h.sent, h.free, h.regs, h.cache, h.pounds, h.cus, hm h.eth, h.flash, h.panel⟩

/-- A record update that changes the flash part. -/
theorem State.mk_ok_flash {κ : Keep} {X : State}
    (x_latches : SMap Word) (x_held : List Sent) (x_turns : Turns) (x_ticks : Nat) (x_tk : Timekeeper) (x_ev : EventStore) (x_pcie : Pcie) (x_lookout : Lookout) (x_rings : SMap Ring) (x_taken : List Order) (x_orders : List Order) (x_reads : List HostRead) (x_queues : SMap Queue) (x_cells : SMap CellTag) (x_markStore : List HeldMark) (x_waitQ : List (Nat × Barge)) (x_tdcs : SMap Tdc) (x_probe : Probe) (x_kx : Kx) (x_nvme : Nvme) (x_clk : Clk) (x_sws : Sws) (x_pixelLock : List Nat) (x_power : Power) (x_fw : Fw) (x_flash : Flash) (x_heads : SMap Head) (x_sgs : SMap Sg) (x_plans : SMap Plan) (x_sources : SMap Source) (x_adcs : SMap Adc) (x_dacs : SMap Dac) (x_syncRun : Option SyncRun) (x_cals : SMap Cal) (x_hkSeqs : SMap HkSeq) (x_pwms : SMap Pwm) (x_ddcs : SMap Ddc) (x_plts : SMap Plt) (x_engines : SMap Engine) (x_reams : SMap Ream) (x_zones : SMap Zone) (x_captures : List Capture) (x_captureCount : Nat) (x_channels : SMap Channel) (x_userWindows : SMap (Nat × List Int)) (x_occs : List Occ) (x_weirs : SMap Weir) (x_pins : SMap TrigPin) (x_pulses : SMap Pulse) (x_flights : SMap Flight) (x_pdHeld : List Nat) (x_calCopies : SMap CalCopy) (x_savePending : Bool) (x_monitor : Monitor) (x_lanes : SMap Lane) (x_vcs : SMap Vc) (x_spareTest : Nat × Nat) (x_spareTestPeriod : Nat) (x_memSpeed : Nat) (x_trainDue : Bool) (x_gates : SMap Gate) (x_lineReqs : SMap Nat)
    (hm : Mem.wf 0#8 X.flash.config = true → Mem.wf 0#8 x_flash.config = true) (h : X.Kept κ) :
    State.Kept κ (State.mk X.pending X.regs x_latches X.freeCtr X.sent x_held x_turns x_ticks x_tk x_ev x_pcie x_lookout x_rings x_taken x_orders x_reads x_queues x_cells x_markStore x_waitQ x_tdcs x_probe x_kx X.eth x_nvme x_clk x_sws x_pixelLock x_power x_fw x_flash X.panel x_heads x_sgs x_plans x_sources x_adcs x_dacs x_syncRun x_cals x_hkSeqs x_pwms x_ddcs x_plts x_engines x_reams x_zones X.pounds x_captures x_captureCount x_channels x_userWindows x_occs x_weirs x_pins x_pulses x_flights X.cache x_pdHeld x_calCopies x_savePending x_monitor x_lanes x_vcs x_spareTest x_spareTestPeriod x_memSpeed x_trainDue x_gates x_lineReqs X.cus) :=
  ⟨h.pending, h.sent, h.free, h.regs, h.cache, h.pounds, h.cus, h.eth, hm h.flash, h.panel⟩

/-- A record update that changes the panel. -/
theorem State.mk_ok_panel {κ : Keep} {X : State}
    (x_latches : SMap Word) (x_held : List Sent) (x_turns : Turns) (x_ticks : Nat) (x_tk : Timekeeper) (x_ev : EventStore) (x_pcie : Pcie) (x_lookout : Lookout) (x_rings : SMap Ring) (x_taken : List Order) (x_orders : List Order) (x_reads : List HostRead) (x_queues : SMap Queue) (x_cells : SMap CellTag) (x_markStore : List HeldMark) (x_waitQ : List (Nat × Barge)) (x_tdcs : SMap Tdc) (x_probe : Probe) (x_kx : Kx) (x_nvme : Nvme) (x_clk : Clk) (x_sws : Sws) (x_pixelLock : List Nat) (x_power : Power) (x_fw : Fw) (x_panel : Panel) (x_heads : SMap Head) (x_sgs : SMap Sg) (x_plans : SMap Plan) (x_sources : SMap Source) (x_adcs : SMap Adc) (x_dacs : SMap Dac) (x_syncRun : Option SyncRun) (x_cals : SMap Cal) (x_hkSeqs : SMap HkSeq) (x_pwms : SMap Pwm) (x_ddcs : SMap Ddc) (x_plts : SMap Plt) (x_engines : SMap Engine) (x_reams : SMap Ream) (x_zones : SMap Zone) (x_captures : List Capture) (x_captureCount : Nat) (x_channels : SMap Channel) (x_userWindows : SMap (Nat × List Int)) (x_occs : List Occ) (x_weirs : SMap Weir) (x_pins : SMap TrigPin) (x_pulses : SMap Pulse) (x_flights : SMap Flight) (x_pdHeld : List Nat) (x_calCopies : SMap CalCopy) (x_savePending : Bool) (x_monitor : Monitor) (x_lanes : SMap Lane) (x_vcs : SMap Vc) (x_spareTest : Nat × Nat) (x_spareTestPeriod : Nat) (x_memSpeed : Nat) (x_trainDue : Bool) (x_gates : SMap Gate) (x_lineReqs : SMap Nat)
    (hm : Mem.wf 0#8 X.panel.store = true → Mem.wf 0#8 x_panel.store = true) (h : X.Kept κ) :
    State.Kept κ (State.mk X.pending X.regs x_latches X.freeCtr X.sent x_held x_turns x_ticks x_tk x_ev x_pcie x_lookout x_rings x_taken x_orders x_reads x_queues x_cells x_markStore x_waitQ x_tdcs x_probe x_kx X.eth x_nvme x_clk x_sws x_pixelLock x_power x_fw X.flash x_panel x_heads x_sgs x_plans x_sources x_adcs x_dacs x_syncRun x_cals x_hkSeqs x_pwms x_ddcs x_plts x_engines x_reams x_zones X.pounds x_captures x_captureCount x_channels x_userWindows x_occs x_weirs x_pins x_pulses x_flights X.cache x_pdHeld x_calCopies x_savePending x_monitor x_lanes x_vcs x_spareTest x_spareTestPeriod x_memSpeed x_trainDue x_gates x_lineReqs X.cus) :=
  ⟨h.pending, h.sent, h.free, h.regs, h.cache, h.pounds, h.cus, h.eth, h.flash, hm h.panel⟩

/-- A meaning's answer keeps what its next state keeps. -/
structure OutOk (κ : Keep) (o : Out) : Prop where
  of_next : ∀ t, o = .next t → t.Kept κ

theorem OutOk.next {κ : Keep} {s : State} (h : s.Kept κ) : OutOk κ (.next s) :=
  ⟨fun t ht => by cases ht; exact h⟩

/-- A choice between two states. -/
theorem ok_ite {κ : Keep} {c : Prop} [Decidable c] {a b : State} (ha : a.Kept κ) (hb : b.Kept κ) : (if c then a else b).Kept κ := by
  split
  · exact ha
  · exact hb

theorem OutOk.ite {κ : Keep} {c : Prop} [Decidable c] {a b : Out} (ha : OutOk κ a) (hb : OutOk κ b) : OutOk κ (if c then a else b) := by
  split
  · exact ha
  · exact hb

theorem ok_ite_snd {κ : Keep} {α : Type} {c : Prop} [Decidable c] {a b : α × State} (ha : a.2.Kept κ) (hb : b.2.Kept κ) :
    (if c then a else b).2.Kept κ := by
  split
  · exact ha
  · exact hb

theorem ok_ite_fst {κ : Keep} {α : Type} {c : Prop} [Decidable c] {a b : State × α} (ha : a.1.Kept κ) (hb : b.1.Kept κ) :
    (if c then a else b).1.Kept κ := by
  split
  · exact ha
  · exact hb

/-- Whatever state an optional answer holds. -/
structure OptOk (κ : Keep) (o : Option State) : Prop where
  of_some : ∀ t, o = some t → t.Kept κ

theorem OptOk.some {κ : Keep} {s : State} (h : s.Kept κ) : OptOk κ (some s) := ⟨fun t ht => by cases ht; exact h⟩

theorem OptOk.none {κ : Keep} : OptOk κ none := ⟨fun t ht => by cases ht⟩

theorem OptOk.ite {κ : Keep} {c : Prop} [Decidable c] {a b : Option State} (ha : OptOk κ a) (hb : OptOk κ b) :
    OptOk κ (if c then a else b) := by
  split
  · exact ha
  · exact hb

theorem mk_ok_snd {κ : Keep} {α : Type} {p : α × State} {a : α} {s : State} (e : p = (a, s)) (h : s.Kept κ) : p.2.Kept κ := by
  rw [e]
  exact h

theorem mk_ok_fst {κ : Keep} {α : Type} {p : State × α} {a : α} {s : State} (e : p = (s, a)) (h : s.Kept κ) : p.1.Kept κ := by
  rw [e]
  exact h

theorem mk_ok_snd_snd {κ : Keep} {α β : Type} {p : α × β × State} {a : α} {b : β} {s : State} (e : p = (a, b, s)) (h : s.Kept κ) :
    p.2.2.Kept κ := by
  rw [e]
  exact h

theorem id_ok {κ : Keep} {s : State} (h : s.Kept κ) : State.Kept κ (id s) := h

/-- A fold of an operation. -/
theorem foldl_ok {κ : Keep} {β : Type} {f : State → β → State} {l : List β} {s : State} (hf : ∀ x b, x.Kept κ → (f x b).Kept κ)
    (h : s.Kept κ) : (l.foldl f s).Kept κ := by
  induction l generalizing s with
  | nil => exact h
  | cons b t ih => exact ih (hf _ _ h)

theorem foldl_ok_fst {κ : Keep} {α β : Type} {f : State × α → β → State × α} {l : List β} {s : State × α}
    (hf : ∀ x b, x.1.Kept κ → (f x b).1.Kept κ) (h : s.1.Kept κ) : (l.foldl f s).1.Kept κ := by
  induction l generalizing s with
  | nil => exact h
  | cons b t ih => exact ih (hf _ _ h)

theorem foldl_ok_snd {κ : Keep} {α β : Type} {f : α × State → β → α × State} {l : List β} {s : α × State}
    (hf : ∀ x b, x.2.Kept κ → (f x b).2.Kept κ) (h : s.2.Kept κ) : (l.foldl f s).2.Kept κ := by
  induction l generalizing s with
  | nil => exact h
  | cons b t ih => exact ih (hf _ _ h)

/-! ### The operations that touch what is kept -/

theorem State.setWord_ok {κ : Keep} (s : State) (k : Nat) (w : Word) (h : s.Kept κ) : (s.setWord k w).Kept κ :=
  ⟨h.pending, h.sent, h.free, RegFile.store_wf _ _ _ h.regs, h.cache, h.pounds, h.cus, h.eth, h.flash, h.panel⟩

theorem State.fresh_ok {κ : Keep} (s : State) (h : s.Kept κ) : State.Kept κ (State.fresh s).2 :=
  ⟨h.pending, h.sent, Nat.le_succ_of_le h.free, h.regs, h.cache, h.pounds, h.cus, h.eth, h.flash, h.panel⟩

theorem State.send_ok {κ : Keep} (s : State) (x : Sent) (h : s.Kept κ) : State.Kept κ (State.send s x) :=
  ⟨h.pending, (by
    unfold State.send
    dsimp only
    split
    · exact h.sent
    · exact h.sent.trans (List.suffix_cons _ _)), h.free, h.regs, h.cache, h.pounds, h.cus, h.eth, h.flash, h.panel⟩

theorem State.sendHeld_ok {κ : Keep} (s : State) (h : s.Kept κ) : State.Kept κ (State.sendHeld s) :=
  ⟨h.pending, h.sent.trans (List.suffix_append _ _), h.free, h.regs, h.cache, h.pounds, h.cus, h.eth, h.flash, h.panel⟩

/-- A write to the stimulus cache. -/
theorem State.cache_ok {κ : Keep} (s : State) (a : Nat) (bs : List Byte) (h : s.Kept κ) :
    State.Kept κ { s with cache := Mem.writes 0#8 s.cache a bs } :=
  ⟨h.pending, h.sent, h.free, h.regs, Mem.writes_wf _ _ _ _ h.cache, h.pounds, h.cus, h.eth, h.flash, h.panel⟩

/-- An entry put into a map whose entries all meet a condition. -/
theorem SMap.all_put {α : Type} (m : List (Nat × α)) (k : Nat) (v : α) (p : Nat × α → Bool) (h : m.all p = true) (hv : p (k, v) = true) :
    (SMap.put m k v).all p = true := by
  rw [List.all_eq_true] at *
  intro e he
  rcases (SMap.mem_ins _ _ _ _).1 he with rfl | he
  · exact hv
  · exact h e (SMap.mem_erase _ _ _ he).1

/-- What a map's lookup finds is one of its entries. -/
theorem SMap.find?_all {α : Type} (m : List (Nat × α)) (k : Nat) (v : α) (p : α → Bool) (h : m.all (fun e => p e.2) = true)
    (hf : SMap.find? m k = some v) : p v = true := by
  induction m with
  | nil => simp [SMap.find?] at hf
  | cons e t ih =>
    obtain ⟨a, b⟩ := e
    rw [List.all_cons, Bool.and_eq_true] at h
    unfold SMap.find? at hf
    split at hf
    · cases hf; exact h.1
    · exact ih h.2 hf

theorem State.Kept.pound_store {κ : Keep} {s : State} (h : s.Kept κ) (n : Nat) : Mem.wf 0#8 (s.pound n).store = true := by
  unfold State.pound
  cases hf : SMap.find? s.pounds n with
  | none => rfl
  | some v => exact SMap.find?_all _ _ _ (fun (d : Pound) => Mem.wf 0#8 d.store) h.pounds hf

theorem State.Kept.cu_data {κ : Keep} {s : State} (h : s.Kept κ) (n : Nat) : Mem.wf 0#8 (s.cu n).data = true := by
  unfold State.cu
  cases hf : SMap.find? s.cus n with
  | none => rfl
  | some v => exact SMap.find?_all _ _ _ (fun (d : Cu) => Mem.wf 0#8 d.data) h.cus hf

theorem State.updPound_ok {κ : Keep} (s : State) (n : Nat) (f : Pound → Pound)
    (hf : ∀ d : Pound, Mem.wf 0#8 d.store = true → Mem.wf 0#8 (f d).store = true) (h : s.Kept κ) : State.Kept κ (State.updPound s n f) :=
  ⟨h.pending, h.sent, h.free, h.regs, h.cache, SMap.all_put _ _ _ _ h.pounds (hf _ (h.pound_store n)), h.cus, h.eth, h.flash, h.panel⟩

theorem State.updCu_ok {κ : Keep} (s : State) (n : Nat) (f : Cu → Cu)
    (hf : ∀ d : Cu, Mem.wf 0#8 d.data = true → Mem.wf 0#8 (f d).data = true) (h : s.Kept κ) : State.Kept κ (State.updCu s n f) :=
  ⟨h.pending, h.sent, h.free, h.regs, h.cache, h.pounds, SMap.all_put _ _ _ _ h.cus (hf _ (h.cu_data n)), h.eth, h.flash, h.panel⟩

end Machine
end Sys2Proof
end

