-- ==== Sys2Proof/Laws/Kept.lean ====
section
/-!
SUPPORT. `State.Kept` and the safe states of Safety.lean.
-/

namespace Sys2Proof
namespace Machine

theorem State.Kept.ok {κ : Keep} {s : State} (h : s.Kept κ) : s.Ok :=
  ⟨h.regs, h.cache, h.pounds, h.cus, h.eth, h.flash, h.panel⟩

/-- A safe state keeps what it itself has. -/
theorem State.Ok.kept {s : State} (h : s.Ok) : s.Kept ⟨s.pending, s.sent, s.freeCtr⟩ :=
  ⟨rfl, List.suffix_refl _, Nat.le_refl _, h.1, h.2.1, h.2.2.1, h.2.2.2.1, h.2.2.2.2.1, h.2.2.2.2.2.1, h.2.2.2.2.2.2⟩

/-- The queue of waiting commands has no part in safety. -/
theorem State.Ok.withPending {s : State} (h : s.Ok) (q : List Instr) : State.Ok { s with pending := q } :=
  ⟨h.1, h.2.1, h.2.2.1, h.2.2.2.1, h.2.2.2.2.1, h.2.2.2.2.2.1, h.2.2.2.2.2.2⟩

end Machine
end Sys2Proof
end

