-- ==== Sys2Proof/Laws/OkOps.lean ====
section
/-!
SUPPORT. The canonical form is kept by every operation of Machine/Ops.lean.
-/

namespace Sys2Proof
namespace Machine

theorem State.put_ok {κ : Keep} (s : State) (f : Field) (v : Nat) (hs : s.Kept κ) :
    State.Kept κ (State.put s f v) := by
  unfold State.put
  repeat' first | with_reducible assumption | (intro _) | with_reducible apply ok_ite | with_reducible apply State.setWord_ok | fail_if_no_progress (with_reducible apply State.mk_ok) | split

theorem State.inc_ok {κ : Keep} (s : State) (f : Field) (n : Nat) (hs : s.Kept κ) :
    State.Kept κ (State.inc s f n) := by
  unfold State.inc
  repeat' first | with_reducible assumption | (intro _) | with_reducible apply ok_ite | with_reducible apply State.put_ok | fail_if_no_progress (with_reducible apply State.mk_ok) | split

theorem State.satInc_ok {κ : Keep} (s : State) (f : Field) (n : Nat) (hs : s.Kept κ) :
    State.Kept κ (State.satInc s f n) := by
  unfold State.satInc
  repeat' first | with_reducible assumption | (intro _) | with_reducible apply ok_ite | with_reducible apply State.put_ok | fail_if_no_progress (with_reducible apply State.mk_ok) | split

theorem State.plainWrite_ok {κ : Keep} (s : State) (key : Nat) (w : Word) (hs : s.Kept κ) :
    State.Kept κ (State.plainWrite s key w) := by
  unfold State.plainWrite
  repeat' first | with_reducible assumption | (intro _) | with_reducible apply ok_ite | with_reducible apply State.setWord_ok | fail_if_no_progress (with_reducible apply State.mk_ok) | split

theorem State.retainWrite_ok {κ : Keep} (s : State) (key : Nat) (w : Word) (hs : s.Kept κ) :
    State.Kept κ (State.retainWrite s key w) := by
  unfold State.retainWrite
  repeat' first | with_reducible assumption | (intro _) | with_reducible apply ok_ite | extract_lets | with_reducible apply State.setWord_ok | fail_if_no_progress (with_reducible apply State.mk_ok) | split | dsimp +zetaDelta only

theorem State.writeHost_ok {κ : Keep} (s : State) (a : Nat) (bs : List Byte) (ep : List (Nat × Nat)) (hs : s.Kept κ) :
    State.Kept κ (State.writeHost s a bs ep) := by
  unfold State.writeHost
  repeat' first | with_reducible assumption | (intro _) | with_reducible apply ok_ite | with_reducible apply State.send_ok | with_reducible apply foldl_ok | with_reducible apply foldl_ok_fst | with_reducible apply foldl_ok_snd | fail_if_no_progress (with_reducible apply State.mk_ok) | split | with_reducible apply ok_ite_snd | with_reducible apply ok_ite_fst | with_reducible apply id_ok

theorem State.pumpReads_ok {κ : Keep} (s : State) (fn : Nat) (n_ : Nat) (hs : s.Kept κ) :
    State.Kept κ (State.pumpReads s fn n_) := by
  induction n_ generalizing s fn with
  | zero =>
    unfold State.pumpReads
    repeat' first | with_reducible assumption | with_reducible apply ih | (intro _) | with_reducible apply ok_ite | extract_lets | with_reducible apply State.send_ok | fail_if_no_progress (with_reducible apply State.mk_ok) | split | dsimp +zetaDelta only | with_reducible apply ok_ite_snd | with_reducible apply ok_ite_fst | with_reducible apply id_ok
  | succ n ih =>
    unfold State.pumpReads
    repeat' first | with_reducible assumption | with_reducible apply ih | (intro _) | with_reducible apply ok_ite | extract_lets | with_reducible apply State.send_ok | fail_if_no_progress (with_reducible apply State.mk_ok) | split | dsimp +zetaDelta only | with_reducible apply ok_ite_snd | with_reducible apply ok_ite_fst | with_reducible apply id_ok

theorem State.readHost_ok {κ : Keep} (s : State) (fn a n : Nat) (hs : s.Kept κ) :
    State.Kept κ (State.readHost s fn a n) := by
  unfold State.readHost
  repeat' first | with_reducible assumption | (intro _) | with_reducible apply ok_ite | with_reducible apply State.pumpReads_ok | fail_if_no_progress (with_reducible apply State.mk_ok) | split

theorem State.readDone_ok {κ : Keep} (s : State) (fn a n : Nat) (hs : s.Kept κ) :
    State.Kept κ (State.readDone s fn a n) := by
  unfold State.readDone
  repeat' first | with_reducible assumption | (intro _) | with_reducible apply ok_ite | extract_lets | with_reducible apply State.pumpReads_ok | fail_if_no_progress (with_reducible apply State.mk_ok) | split | dsimp +zetaDelta only | with_reducible apply ok_ite_snd | with_reducible apply ok_ite_fst | with_reducible apply id_ok

theorem State.setRequest_ok {κ : Keep} (s : State) (r : Option PwrReq) (hs : s.Kept κ) :
    State.Kept κ (State.setRequest s r) := by
  unfold State.setRequest
  repeat' first | with_reducible assumption | (intro _) | with_reducible apply ok_ite | fail_if_no_progress (with_reducible apply State.mk_ok) | split

theorem State.noteWake_ok {κ : Keep} (s : State) (cause : Nat) (hs : s.Kept κ) :
    State.Kept κ (State.noteWake s cause) := by
  unfold State.noteWake
  repeat' first | with_reducible assumption | (intro _) | with_reducible apply ok_ite | fail_if_no_progress (with_reducible apply State.mk_ok) | split

theorem State.abandonAuto_ok {κ : Keep} (s : State) (hs : s.Kept κ) :
    State.Kept κ (State.abandonAuto s) := by
  unfold State.abandonAuto
  repeat' first | with_reducible assumption | (intro _) | with_reducible apply ok_ite | with_reducible apply State.put_ok | with_reducible apply State.setRequest_ok | fail_if_no_progress (with_reducible apply State.mk_ok) | split

theorem State.wakeCause_ok {κ : Keep} (s : State) (cause : Nat) (hs : s.Kept κ) :
    State.Kept κ (State.wakeCause s cause) := by
  unfold State.wakeCause
  repeat' first | with_reducible assumption | (intro _) | with_reducible apply ok_ite | extract_lets | with_reducible apply State.noteWake_ok | with_reducible apply State.abandonAuto_ok | fail_if_no_progress (with_reducible apply State.mk_ok) | split | dsimp +zetaDelta only

theorem State.waitRecord_ok {κ : Keep} (s : State) (r : EvRec) (d : Bool × Bool) (isNew : Bool) (hs : s.Kept κ) :
    State.Kept κ (State.waitRecord s r d isNew) := by
  unfold State.waitRecord
  repeat' first | with_reducible assumption | (intro _) | with_reducible apply ok_ite | fail_if_no_progress (with_reducible apply State.mk_ok) | split | with_reducible apply ok_ite_snd | with_reducible apply ok_ite_fst | with_reducible apply id_ok

theorem State.offerRecord_ok {κ : Keep} (s : State) (r : EvRec) (hs : s.Kept κ) :
    State.Kept κ (State.offerRecord s r) := by
  unfold State.offerRecord
  repeat' first | with_reducible assumption | (intro _) | with_reducible apply ok_ite | extract_lets | with_reducible apply State.wakeCause_ok | with_reducible apply State.waitRecord_ok | fail_if_no_progress (with_reducible apply State.mk_ok) | split | dsimp +zetaDelta only | with_reducible apply ok_ite_snd | with_reducible apply ok_ite_fst | with_reducible apply id_ok

theorem State.setContain_ok {κ : Keep} (s : State) (cs : List Containment) (hs : s.Kept κ) :
    State.Kept κ (State.setContain s cs) := by
  unfold State.setContain
  repeat' first | with_reducible assumption | (intro _) | with_reducible apply ok_ite | fail_if_no_progress (with_reducible apply State.mk_ok) | split

theorem State.countConsequence_ok {κ : Keep} (s : State) (src inst cause : Nat) (hs : s.Kept κ) :
    State.Kept κ (State.countConsequence s src inst cause) := by
  unfold State.countConsequence
  repeat' first | with_reducible assumption | (intro _) | with_reducible apply ok_ite | extract_lets | with_reducible apply State.satInc_ok | with_reducible apply State.setContain_ok | fail_if_no_progress (with_reducible apply State.mk_ok) | split | dsimp +zetaDelta only

theorem State.addContainment_ok {κ : Keep} (s : State) (src inst info time : Nat) (hs : s.Kept κ) :
    State.Kept κ (State.addContainment s src inst info time) := by
  unfold State.addContainment
  repeat' first | with_reducible assumption | (intro _) | with_reducible apply ok_ite | extract_lets | with_reducible apply State.setContain_ok | fail_if_no_progress (with_reducible apply State.mk_ok) | split | dsimp +zetaDelta only

theorem State.openRoot_ok {κ : Keep} (s : State) (src inst info time : Nat) (hs : s.Kept κ) :
    State.Kept κ (State.openRoot s src inst info time) := by
  unfold State.openRoot
  repeat' first | with_reducible assumption | (intro _) | with_reducible apply ok_ite | with_reducible apply State.put_ok | with_reducible apply State.addContainment_ok | fail_if_no_progress (with_reducible apply State.mk_ok) | split

theorem State.raiseAt_ok {κ : Keep} (s : State) (src inst info cause time : Nat) (hs : s.Kept κ) :
    State.Kept κ (State.raiseAt s src inst info cause time) := by
  unfold State.raiseAt
  repeat' first | with_reducible assumption | (intro _) | with_reducible apply ok_ite | extract_lets | with_reducible apply State.satInc_ok | with_reducible apply State.offerRecord_ok | with_reducible apply State.countConsequence_ok | with_reducible apply State.openRoot_ok | fail_if_no_progress (with_reducible apply State.mk_ok) | split | dsimp +zetaDelta only

theorem State.raise_ok {κ : Keep} (s : State) (src inst info : Nat) (cause : Nat) (hs : s.Kept κ) :
    State.Kept κ (State.raise s src inst info cause) := by
  unfold State.raise
  repeat' first | with_reducible assumption | (intro _) | with_reducible apply ok_ite | with_reducible apply State.raiseAt_ok | fail_if_no_progress (with_reducible apply State.mk_ok) | split

theorem State.raiseWith_ok {κ : Keep} (s : State) (src inst : Nat) (parts : List Nat) (cause : Nat) (hs : s.Kept κ) :
    State.Kept κ (State.raiseWith s src inst parts cause) := by
  unfold State.raiseWith
  repeat' first | with_reducible assumption | (intro _) | with_reducible apply ok_ite | with_reducible apply State.raise_ok | fail_if_no_progress (with_reducible apply State.mk_ok) | split

theorem State.raiseInst_ok {κ : Keep} (s : State) (src inst : Nat) (hs : s.Kept κ) :
    State.Kept κ (State.raiseInst s src inst) := by
  unfold State.raiseInst
  repeat' first | with_reducible assumption | (intro _) | with_reducible apply ok_ite | with_reducible apply State.raise_ok | fail_if_no_progress (with_reducible apply State.mk_ok) | split

theorem State.flagRaise_ok {κ : Keep} (s : State) (f : Field) (src inst : Nat) (hs : s.Kept κ) :
    State.Kept κ (State.flagRaise s f src inst) := by
  unfold State.flagRaise
  repeat' first | with_reducible assumption | (intro _) | with_reducible apply ok_ite | with_reducible apply State.put_ok | with_reducible apply State.raiseInst_ok | fail_if_no_progress (with_reducible apply State.mk_ok) | split

theorem State.sendVec_ok {κ : Keep} (s : State) (fn vec : Nat) (hs : s.Kept κ) :
    State.Kept κ (State.sendVec s fn vec) := by
  unfold State.sendVec
  repeat' first | with_reducible assumption | (intro _) | with_reducible apply ok_ite | with_reducible apply State.send_ok | with_reducible apply State.put_ok | fail_if_no_progress (with_reducible apply State.mk_ok) | split

theorem State.vecCause_ok {κ : Keep} (s : State) (fn vec : Nat) (hs : s.Kept κ) :
    State.Kept κ (State.vecCause s fn vec) := by
  unfold State.vecCause
  repeat' first | with_reducible assumption | (intro _) | with_reducible apply ok_ite | with_reducible apply State.sendVec_ok | fail_if_no_progress (with_reducible apply State.mk_ok) | split

theorem State.irq_ok {κ : Keep} (s : State) (i : Nat) (hs : s.Kept κ) :
    State.Kept κ (State.irq s i) := by
  unfold State.irq
  repeat' first | with_reducible assumption | (intro _) | with_reducible apply ok_ite | with_reducible apply State.vecCause_ok | fail_if_no_progress (with_reducible apply State.mk_ok) | split

theorem State.noteAer_ok {κ : Keep} (s : State) (fn err : Nat) (hs : s.Kept κ) :
    State.Kept κ (State.noteAer s fn err) := by
  unfold State.noteAer
  repeat' first | with_reducible assumption | fail_if_no_progress (with_reducible apply State.mk_ok)

theorem State.logAer_ok {κ : Keep} (s : State) (fn err : Nat) (hs : s.Kept κ) :
    State.Kept κ (State.logAer s fn err) := by
  unfold State.logAer
  repeat' first | with_reducible assumption | (intro _) | with_reducible apply ok_ite | extract_lets | with_reducible apply State.noteAer_ok | with_reducible apply State.fresh_ok | with_reducible apply State.raiseWith_ok | fail_if_no_progress (with_reducible apply State.mk_ok) | split | dsimp +zetaDelta only | with_reducible apply ok_ite_snd | with_reducible apply ok_ite_fst | with_reducible apply id_ok

theorem State.ownerViolation_ok {κ : Keep} (s : State) (p : Path) (key : Nat) (hs : s.Kept κ) :
    State.Kept κ (State.ownerViolation s p key) := by
  unfold State.ownerViolation
  repeat' first | with_reducible assumption | (intro _) | with_reducible apply ok_ite | extract_lets | with_reducible apply State.setWord_ok | with_reducible apply State.raise_ok | fail_if_no_progress (with_reducible apply State.mk_ok) | split | dsimp +zetaDelta only

theorem State.gate_ok {κ : Keep} (s : State) (p : Path) (key : Nat) (keep act : State → State) (hs : s.Kept κ) (hkeep : ∀ x, x.Kept κ → (keep x).Kept κ) (hact : ∀ x, x.Kept κ → (act x).Kept κ) :
    State.Kept κ (State.gate s p key keep act) := by
  unfold State.gate
  repeat' first | with_reducible assumption | (intro _) | with_reducible apply hkeep | with_reducible apply hact | with_reducible apply ok_ite | with_reducible apply State.send_ok | with_reducible apply State.logAer_ok | with_reducible apply State.ownerViolation_ok | fail_if_no_progress (with_reducible apply State.mk_ok) | split

theorem State.gateField_ok {κ : Keep} (s : State) (p : Path) (f : Field) (v : Nat) (act : State → State) (hs : s.Kept κ) (hact : ∀ x, x.Kept κ → (act x).Kept κ) :
    State.Kept κ (State.gateField s p f v act) := by
  unfold State.gateField
  repeat' first | with_reducible assumption | (intro _) | with_reducible apply hact | with_reducible apply ok_ite | with_reducible apply State.put_ok | with_reducible apply State.gate_ok | fail_if_no_progress (with_reducible apply State.mk_ok) | split

theorem State.gateAction_ok {κ : Keep} (s : State) (p : Path) (key : Nat) (act : State → State) (hs : s.Kept κ) (hact : ∀ x, x.Kept κ → (act x).Kept κ) :
    State.Kept κ (State.gateAction s p key act) :=
  State.gate_ok s p key id act hs (fun _ h => h) hact

theorem State.updOrder_ok {κ : Keep} (s : State) (r : OrderRef) (f : Order → Order) (hs : s.Kept κ) :
    State.Kept κ (State.updOrder s r f) := by
  unfold State.updOrder
  repeat' first | with_reducible assumption | (intro _) | with_reducible apply ok_ite | fail_if_no_progress (with_reducible apply State.mk_ok) | split

theorem State.countDone_ok {κ : Keep} (s : State) (x : Nat) (hs : s.Kept κ) :
    State.Kept κ (State.countDone s x) := by
  unfold State.countDone
  repeat' first | with_reducible assumption | (intro _) | with_reducible apply ok_ite | extract_lets | with_reducible apply State.send_ok | with_reducible apply State.inc_ok | fail_if_no_progress (with_reducible apply State.mk_ok) | split | dsimp +zetaDelta only

theorem State.settleBusy_ok {κ : Keep} (s : State) (ring : Nat) (hs : s.Kept κ) :
    State.Kept κ (State.settleBusy s ring) := by
  unfold State.settleBusy
  repeat' first | with_reducible assumption | (intro _) | with_reducible apply ok_ite | with_reducible apply State.put_ok | fail_if_no_progress (with_reducible apply State.mk_ok) | split

theorem State.retireWith_ok {κ : Keep} (s : State) (o : Order) (status detail : Nat) (outs : List (Nat × List Byte)) (hs : s.Kept κ) :
    State.Kept κ (State.retireWith s o status detail outs) := by
  unfold State.retireWith
  repeat' first | with_reducible assumption | (intro _) | with_reducible apply ok_ite | extract_lets | with_reducible apply State.send_ok | with_reducible apply State.satInc_ok | with_reducible apply State.readDone_ok | with_reducible apply State.irq_ok | with_reducible apply State.countDone_ok | with_reducible apply State.settleBusy_ok | with_reducible apply foldl_ok | with_reducible apply foldl_ok_fst | with_reducible apply foldl_ok_snd | fail_if_no_progress (with_reducible apply State.mk_ok) | split | dsimp +zetaDelta only | with_reducible apply ok_ite_snd | with_reducible apply ok_ite_fst | with_reducible apply id_ok

theorem State.retire_ok {κ : Keep} (s : State) (o : Order) (status : Nat) (detail : Nat) (hs : s.Kept κ) :
    State.Kept κ (State.retire s o status detail) := by
  unfold State.retire
  repeat' first | with_reducible assumption | (intro _) | with_reducible apply ok_ite | with_reducible apply State.retireWith_ok | fail_if_no_progress (with_reducible apply State.mk_ok) | split

theorem State.retireRef_ok {κ : Keep} (s : State) (r : OrderRef) (status : Nat) (outs : List (Nat × List Byte)) (hs : s.Kept κ) :
    State.Kept κ (State.retireRef s r status outs) := by
  unfold State.retireRef
  repeat' first | with_reducible assumption | (intro _) | with_reducible apply ok_ite | with_reducible apply State.retireWith_ok | fail_if_no_progress (with_reducible apply State.mk_ok) | split

theorem State.validate_ok {κ : Keep} (s : State) (o : Order) (cs : List (Nat × Bool)) (act : State → State) (hs : s.Kept κ) (hact : ∀ x, x.Kept κ → (act x).Kept κ) :
    State.Kept κ (State.validate s o cs act) := by
  unfold State.validate
  repeat' first | with_reducible assumption | (intro _) | with_reducible apply hact | with_reducible apply ok_ite | with_reducible apply State.retire_ok | fail_if_no_progress (with_reducible apply State.mk_ok) | split

theorem State.acceptOrder_ok {κ : Keep} (s : State) (o : Order) (eff : Order → State → State) (hs : s.Kept κ) (heff : ∀ y x, x.Kept κ → (eff y x).Kept κ) :
    State.Kept κ (State.acceptOrder s o eff) := by
  unfold State.acceptOrder
  repeat' first | with_reducible assumption | (intro _) | with_reducible apply heff | with_reducible apply ok_ite | extract_lets | with_reducible apply State.validate_ok | fail_if_no_progress (with_reducible apply State.mk_ok) | split | dsimp +zetaDelta only

theorem State.accept_ok {κ : Keep} (s : State) (op : Nat) (eff : Order → State → State) (hs : s.Kept κ) (heff : ∀ y x, x.Kept κ → (eff y x).Kept κ) :
    State.Kept κ (State.accept s op eff) := by
  unfold State.accept
  repeat' first | with_reducible assumption | (intro _) | with_reducible apply heff | with_reducible apply ok_ite | with_reducible apply State.acceptOrder_ok | fail_if_no_progress (with_reducible apply State.mk_ok) | split

theorem State.startRead_ok {κ : Keep} (s : State) (o : Order) (addr len : Nat) (hs : s.Kept κ) :
    State.Kept κ (State.startRead s o addr len) := by
  unfold State.startRead
  repeat' first | with_reducible assumption | (intro _) | with_reducible apply ok_ite | extract_lets | with_reducible apply State.readHost_ok | fail_if_no_progress (with_reducible apply State.mk_ok) | split | dsimp +zetaDelta only

end Machine
end Sys2Proof
end

