-- ==== Sys2Proof/Laws/OkQueue.lean ====
section
/-!
SUPPORT. The canonical form is kept by every operation of Machine/Queue.lean.
-/

namespace Sys2Proof
namespace Machine

theorem State.updQueue_ok {κ : Keep} (s : State) (q : Nat) (f : Queue → Queue) (hs : s.Kept κ) :
    State.Kept κ (State.updQueue s q f) := by
  unfold State.updQueue
  repeat' first | with_reducible assumption | (intro _) | with_reducible apply ok_ite | with_reducible apply State.put_ok | fail_if_no_progress (with_reducible apply State.mk_ok) | split

theorem State.takeCells_ok {κ : Keep} (s : State) (q epoch : Nat) (reserve : Bool) (n_ : Nat) (o0_ : Nat) (hs : s.Kept κ) :
    State.Kept κ (State.takeCells s q epoch reserve n_ o0_).2 := by
  induction n_ generalizing s q epoch reserve o0_ with
  | zero =>
    unfold State.takeCells
    repeat' first | with_reducible assumption | with_reducible apply ih | with_reducible apply ok_ite_fst | with_reducible apply ok_ite_snd | fail_if_no_progress (with_reducible refine mk_ok_snd rfl ?_) | fail_if_no_progress (with_reducible refine mk_ok_fst rfl ?_) | fail_if_no_progress (with_reducible refine mk_ok_snd_snd rfl ?_) | exact fun h => h | exact fun h => Mem.writes_wf _ _ _ _ h | exact Nat.le_succ _ | (intro _) | with_reducible apply ok_ite | extract_lets | with_reducible apply State.put_ok | fail_if_no_progress (with_reducible apply State.mk_ok) | fail_if_no_progress (with_reducible apply State.mk_ok_ctr) | split | dsimp +zetaDelta only | with_reducible apply ok_ite_snd | with_reducible apply ok_ite_fst | with_reducible apply id_ok
  | succ n ih =>
    unfold State.takeCells
    repeat' first | with_reducible assumption | with_reducible apply ih | with_reducible apply ok_ite_fst | with_reducible apply ok_ite_snd | fail_if_no_progress (with_reducible refine mk_ok_snd rfl ?_) | fail_if_no_progress (with_reducible refine mk_ok_fst rfl ?_) | fail_if_no_progress (with_reducible refine mk_ok_snd_snd rfl ?_) | exact fun h => h | exact fun h => Mem.writes_wf _ _ _ _ h | exact Nat.le_succ _ | (intro _) | with_reducible apply ok_ite | extract_lets | with_reducible apply State.put_ok | fail_if_no_progress (with_reducible apply State.mk_ok) | fail_if_no_progress (with_reducible apply State.mk_ok_ctr) | split | dsimp +zetaDelta only | with_reducible apply ok_ite_snd | with_reducible apply ok_ite_fst | with_reducible apply id_ok

theorem State.setPoolFree_ok {κ : Keep} (s : State) (n : Nat) (hs : s.Kept κ) :
    State.Kept κ (State.setPoolFree s n) := by
  unfold State.setPoolFree
  repeat' first | with_reducible assumption | (intro _) | with_reducible apply ok_ite | extract_lets | with_reducible apply State.put_ok | with_reducible apply State.raiseInst_ok | fail_if_no_progress (with_reducible apply State.mk_ok) | split | dsimp +zetaDelta only

theorem State.enqueue_ok {κ : Keep} (s : State) (q : Nat) (b : Barge) (reserve : Bool) (hs : s.Kept κ) :
    State.Kept κ (State.enqueue s q b reserve) := by
  unfold State.enqueue
  repeat' first | with_reducible assumption | (intro _) | with_reducible apply ok_ite | extract_lets | with_reducible apply State.put_ok | with_reducible apply State.inc_ok | with_reducible apply State.updQueue_ok | with_reducible apply State.takeCells_ok | with_reducible apply State.setPoolFree_ok | fail_if_no_progress (with_reducible apply State.mk_ok) | split | dsimp +zetaDelta only | with_reducible apply ok_ite_snd | with_reducible apply ok_ite_fst | with_reducible apply id_ok

theorem State.tearTry_ok {κ : Keep} (s : State) (q : Nat) (hs : s.Kept κ) :
    State.Kept κ (State.tearTry s q) := by
  unfold State.tearTry
  repeat' first | with_reducible assumption | (intro _) | with_reducible apply ok_ite | extract_lets | with_reducible apply State.setWord_ok | with_reducible apply State.put_ok | with_reducible apply State.inc_ok | with_reducible apply State.enqueue_ok | fail_if_no_progress (with_reducible apply State.mk_ok) | split | dsimp +zetaDelta only

theorem State.tearDrop_ok {κ : Keep} (s : State) (q : Nat) (b : Barge) (hs : s.Kept κ) :
    State.Kept κ (State.tearDrop s q b) := by
  unfold State.tearDrop
  repeat' first | with_reducible assumption | (intro _) | with_reducible apply ok_ite | extract_lets | with_reducible apply State.put_ok | with_reducible apply State.satInc_ok | with_reducible apply State.updQueue_ok | with_reducible apply State.tearTry_ok | fail_if_no_progress (with_reducible apply State.mk_ok) | split | dsimp +zetaDelta only

theorem State.refuse_ok {κ : Keep} (s : State) (q : Nat) (hs : s.Kept κ) :
    State.Kept κ (State.refuse s q).2 := by
  unfold State.refuse
  repeat' first | with_reducible assumption | with_reducible apply ok_ite_fst | with_reducible apply ok_ite_snd | fail_if_no_progress (with_reducible refine mk_ok_snd rfl ?_) | fail_if_no_progress (with_reducible refine mk_ok_fst rfl ?_) | fail_if_no_progress (with_reducible refine mk_ok_snd_snd rfl ?_) | (intro _) | with_reducible apply ok_ite | with_reducible apply State.put_ok | fail_if_no_progress (with_reducible apply State.mk_ok) | split

theorem State.admitBarge_ok {κ : Keep} (s : State) (q : Nat) (b : Barge) (hs : s.Kept κ) :
    State.Kept κ (State.admitBarge s q b).2 := by
  unfold State.admitBarge
  repeat' first | with_reducible assumption | with_reducible apply ok_ite_fst | with_reducible apply ok_ite_snd | fail_if_no_progress (with_reducible refine mk_ok_snd rfl ?_) | fail_if_no_progress (with_reducible refine mk_ok_fst rfl ?_) | fail_if_no_progress (with_reducible refine mk_ok_snd_snd rfl ?_) | (intro _) | with_reducible apply ok_ite | extract_lets | with_reducible apply State.raiseInst_ok | with_reducible apply State.enqueue_ok | with_reducible apply State.tearTry_ok | with_reducible apply State.tearDrop_ok | with_reducible apply State.refuse_ok | fail_if_no_progress (with_reducible apply State.mk_ok) | split | dsimp +zetaDelta only | with_reducible apply ok_ite_snd | with_reducible apply ok_ite_fst | with_reducible apply id_ok

theorem State.push_ok {κ : Keep} (s : State) (q : Nat) (b : Barge) (hs : s.Kept κ) :
    State.Kept κ (State.push s q b) := by
  unfold State.push
  repeat' first | with_reducible assumption | (intro _) | with_reducible apply ok_ite | extract_lets | with_reducible apply State.admitBarge_ok | fail_if_no_progress (with_reducible apply State.mk_ok) | split | dsimp +zetaDelta only | with_reducible apply ok_ite_snd | with_reducible apply ok_ite_fst | with_reducible apply id_ok

theorem State.drainStore_ok {κ : Keep} (s : State) (n_ : List HeldMark) (hs : s.Kept κ) :
    State.Kept κ (State.drainStore s n_) := by
  induction n_ generalizing s with
  | nil =>
    unfold State.drainStore
    repeat' first | with_reducible assumption | with_reducible apply ih | (intro _) | with_reducible apply ok_ite | extract_lets | with_reducible apply State.enqueue_ok | fail_if_no_progress (with_reducible apply State.mk_ok) | split | dsimp +zetaDelta only
  | cons e t ih =>
    unfold State.drainStore
    repeat' first | with_reducible assumption | with_reducible apply ih | (intro _) | with_reducible apply ok_ite | extract_lets | with_reducible apply State.enqueue_ok | fail_if_no_progress (with_reducible apply State.mk_ok) | split | dsimp +zetaDelta only

theorem State.retrySheet_ok {κ : Keep} (s : State) (p : Nat) (pl : Plan) (hs : s.Kept κ) :
    State.Kept κ (State.retrySheet s p pl) := by
  unfold State.retrySheet
  repeat' first | with_reducible assumption | (intro _) | with_reducible apply ok_ite | extract_lets | with_reducible apply State.put_ok | with_reducible apply State.admitBarge_ok | with_reducible apply State.push_ok | with_reducible apply foldl_ok | with_reducible apply foldl_ok_fst | with_reducible apply foldl_ok_snd | fail_if_no_progress (with_reducible apply State.mk_ok) | split | dsimp +zetaDelta only | with_reducible apply ok_ite_snd | with_reducible apply ok_ite_fst | with_reducible apply id_ok

theorem State.drainWaiting_ok {κ : Keep} (s : State) (n_ : List (Nat × Barge)) (hs : s.Kept κ) :
    State.Kept κ (State.drainWaiting s n_) := by
  induction n_ generalizing s with
  | nil =>
    unfold State.drainWaiting
    repeat' first | with_reducible assumption | with_reducible apply ih | (intro _) | with_reducible apply ok_ite | extract_lets | with_reducible apply State.admitBarge_ok | fail_if_no_progress (with_reducible apply State.mk_ok) | split | dsimp +zetaDelta only | with_reducible apply ok_ite_snd | with_reducible apply ok_ite_fst | with_reducible apply id_ok
  | cons e t ih =>
    unfold State.drainWaiting
    repeat' first | with_reducible assumption | with_reducible apply ih | (intro _) | with_reducible apply ok_ite | extract_lets | with_reducible apply State.admitBarge_ok | fail_if_no_progress (with_reducible apply State.mk_ok) | split | dsimp +zetaDelta only | with_reducible apply ok_ite_snd | with_reducible apply ok_ite_fst | with_reducible apply id_ok

theorem State.retryProducers_ok {κ : Keep} (s : State) (hs : s.Kept κ) :
    State.Kept κ (State.retryProducers s) := by
  unfold State.retryProducers
  repeat' first | with_reducible assumption | (intro _) | with_reducible apply ok_ite | with_reducible apply State.drainWaiting_ok | fail_if_no_progress (with_reducible apply State.mk_ok) | split

theorem State.leaveHeld_ok {κ : Keep} (s : State) (p : Nat) (hs : s.Kept κ) :
    State.Kept κ (State.leaveHeld s p) := by
  unfold State.leaveHeld
  repeat' first | with_reducible assumption | (intro _) | with_reducible apply ok_ite | extract_lets | with_reducible apply State.put_ok | fail_if_no_progress (with_reducible apply State.mk_ok) | split | dsimp +zetaDelta only

theorem State.offer_ok {κ : Keep} (s : State) (l : List (Nat × Barge)) (hs : s.Kept κ) :
    State.Kept κ (State.offer s l) := by
  unfold State.offer
  repeat' first | with_reducible assumption | (intro _) | with_reducible apply ok_ite | with_reducible apply State.retryProducers_ok | fail_if_no_progress (with_reducible apply State.mk_ok) | split

theorem State.retryWaiting_ok {κ : Keep} (s : State) (hs : s.Kept κ) :
    State.Kept κ (State.retryWaiting s) := by
  unfold State.retryWaiting
  repeat' first | with_reducible assumption | (intro _) | with_reducible apply ok_ite | extract_lets | with_reducible apply State.tearTry_ok | with_reducible apply State.drainStore_ok | with_reducible apply State.retrySheet_ok | with_reducible apply State.retryProducers_ok | with_reducible apply foldl_ok | with_reducible apply foldl_ok_fst | with_reducible apply foldl_ok_snd | fail_if_no_progress (with_reducible apply State.mk_ok) | split | dsimp +zetaDelta only | with_reducible apply ok_ite_snd | with_reducible apply ok_ite_fst | with_reducible apply id_ok

theorem State.cellConsumed_ok {κ : Keep} (s : State) (q : Nat) (hs : s.Kept κ) :
    State.Kept κ (State.cellConsumed s q) := by
  unfold State.cellConsumed
  repeat' first | with_reducible assumption | (intro _) | with_reducible apply ok_ite | extract_lets | with_reducible apply State.retireWith_ok | with_reducible apply State.updQueue_ok | with_reducible apply foldl_ok | with_reducible apply foldl_ok_fst | with_reducible apply foldl_ok_snd | fail_if_no_progress (with_reducible apply State.mk_ok) | split | dsimp +zetaDelta only

theorem State.releaseCell_ok {κ : Keep} (s : State) (cell : Nat) (tag : CellTag) (hs : s.Kept κ) :
    State.Kept κ (State.releaseCell s cell tag) := by
  unfold State.releaseCell
  repeat' first | with_reducible assumption | (intro _) | with_reducible apply ok_ite | extract_lets | with_reducible apply State.put_ok | with_reducible apply State.updQueue_ok | with_reducible apply State.retryWaiting_ok | with_reducible apply State.cellConsumed_ok | fail_if_no_progress (with_reducible apply State.mk_ok) | split | dsimp +zetaDelta only

theorem State.freeCells_ok {κ : Keep} (s : State) (cells : List Nat) (hs : s.Kept κ) :
    State.Kept κ (State.freeCells s cells) := by
  unfold State.freeCells
  repeat' first | with_reducible assumption | (intro _) | with_reducible apply ok_ite | with_reducible apply State.releaseCell_ok | with_reducible apply foldl_ok | with_reducible apply foldl_ok_fst | with_reducible apply foldl_ok_snd | fail_if_no_progress (with_reducible apply State.mk_ok) | split

theorem State.bindQueue?_ok {κ : Keep} (s : State) (q kind who : Nat) (hs : s.Kept κ) :
    OptOk κ (State.bindQueue? s q kind who) := by
  unfold State.bindQueue?
  repeat' first | with_reducible assumption | with_reducible apply OptOk.none | with_reducible apply OptOk.some | with_reducible apply OptOk.ite | (intro _) | with_reducible apply ok_ite | extract_lets | with_reducible apply State.put_ok | with_reducible apply State.updQueue_ok | fail_if_no_progress (with_reducible apply State.mk_ok) | split | dsimp +zetaDelta only

theorem State.unbindQueue_ok {κ : Keep} (s : State) (q kind who : Nat) (hs : s.Kept κ) :
    State.Kept κ (State.unbindQueue s q kind who) := by
  unfold State.unbindQueue
  repeat' first | with_reducible assumption | (intro _) | with_reducible apply ok_ite | with_reducible apply State.put_ok | with_reducible apply State.updQueue_ok | fail_if_no_progress (with_reducible apply State.mk_ok) | split

theorem State.closeQueue_ok {κ : Keep} (s : State) (q : Nat) (hs : s.Kept κ) :
    State.Kept κ (State.closeQueue s q) := by
  unfold State.closeQueue
  repeat' first | with_reducible assumption | (intro _) | with_reducible apply ok_ite | extract_lets | with_reducible apply State.put_ok | with_reducible apply State.updQueue_ok | with_reducible apply State.tearTry_ok | fail_if_no_progress (with_reducible apply State.mk_ok) | split | dsimp +zetaDelta only

theorem State.openQueue_ok {κ : Keep} (s : State) (q : Nat) (hs : s.Kept κ) :
    State.Kept κ (State.openQueue s q) := by
  unfold State.openQueue
  repeat' first | with_reducible assumption | (intro _) | with_reducible apply ok_ite | extract_lets | with_reducible apply State.setWord_ok | with_reducible apply State.put_ok | with_reducible apply State.updQueue_ok | fail_if_no_progress (with_reducible apply State.mk_ok) | split | dsimp +zetaDelta only

theorem State.queueCfgErr_ok {κ : Keep} (s : State) (hs : s.Kept κ) :
    State.Kept κ (State.queueCfgErr s) := by
  unfold State.queueCfgErr
  repeat' first | with_reducible assumption | (intro _) | with_reducible apply ok_ite | with_reducible apply State.put_ok | fail_if_no_progress (with_reducible apply State.mk_ok) | split

theorem State.writeQueueCfg_ok {κ : Keep} (s : State) (q w : Nat) (hs : s.Kept κ) :
    State.Kept κ (State.writeQueueCfg s q w) := by
  unfold State.writeQueueCfg
  repeat' first | with_reducible assumption | (intro _) | with_reducible apply ok_ite | extract_lets | with_reducible apply State.put_ok | with_reducible apply State.retryWaiting_ok | with_reducible apply State.closeQueue_ok | with_reducible apply State.openQueue_ok | with_reducible apply State.queueCfgErr_ok | fail_if_no_progress (with_reducible apply State.mk_ok) | split | dsimp +zetaDelta only

theorem State.writePoolCfg_ok {κ : Keep} (s : State) (w : Word) (hs : s.Kept κ) :
    State.Kept κ (State.writePoolCfg s w) := by
  unfold State.writePoolCfg
  repeat' first | with_reducible assumption | (intro _) | with_reducible apply ok_ite | extract_lets | with_reducible apply State.put_ok | with_reducible apply State.plainWrite_ok | with_reducible apply State.raiseInst_ok | with_reducible apply State.retryWaiting_ok | fail_if_no_progress (with_reducible apply State.mk_ok) | split | dsimp +zetaDelta only

theorem State.queueErr_ok {κ : Keep} (s : State) (kind q cell : Nat) (hs : s.Kept κ) :
    State.Kept κ (State.queueErr s kind q cell) := by
  unfold State.queueErr
  repeat' first | with_reducible assumption | (intro _) | with_reducible apply ok_ite | with_reducible apply State.setWord_ok | fail_if_no_progress (with_reducible apply State.mk_ok) | split

theorem State.compareCopies_ok {κ : Keep} (s : State) (q cell structure_ : Nat) (c : CopyRead) (hs : s.Kept κ) :
    State.Kept κ (State.compareCopies s q cell structure_ c).2 := by
  unfold State.compareCopies
  repeat' first | with_reducible assumption | with_reducible apply ok_ite_fst | with_reducible apply ok_ite_snd | fail_if_no_progress (with_reducible refine mk_ok_snd rfl ?_) | fail_if_no_progress (with_reducible refine mk_ok_fst rfl ?_) | fail_if_no_progress (with_reducible refine mk_ok_snd_snd rfl ?_) | (intro _) | with_reducible apply ok_ite | with_reducible apply State.put_ok | with_reducible apply State.raiseWith_ok | with_reducible apply State.queueErr_ok | fail_if_no_progress (with_reducible apply State.mk_ok) | split

theorem execAdmissionRequest_ok {κ : Keep} (q : Fin 4096) (b : Barge) (c : CopyRead) (s : State) (hs : s.Kept κ) :
    OutOk κ (execAdmissionRequest q b c s) := by
  unfold execAdmissionRequest
  repeat' first | with_reducible assumption | (intro _) | with_reducible apply OutOk.ite | with_reducible apply ok_ite | extract_lets | with_reducible apply State.admitBarge_ok | with_reducible apply State.compareCopies_ok | with_reducible apply OutOk.next | fail_if_no_progress (with_reducible apply State.mk_ok) | split | dsimp +zetaDelta only | with_reducible apply ok_ite_snd | with_reducible apply ok_ite_fst | with_reducible apply id_ok

theorem State.freeCell_ok {κ : Keep} (s : State) (cell q epoch : Nat) (by_ : FreeAgent) (hs : s.Kept κ) :
    State.Kept κ (State.freeCell s cell q epoch by_) := by
  unfold State.freeCell
  repeat' first | with_reducible assumption | (intro _) | with_reducible apply ok_ite | with_reducible apply State.put_ok | with_reducible apply State.raiseInst_ok | with_reducible apply State.releaseCell_ok | with_reducible apply State.queueErr_ok | fail_if_no_progress (with_reducible apply State.mk_ok) | split

theorem execCellFree_ok {κ : Keep} (cell : Fin 131072) (q : Fin 4096) (epoch : Fin 4) (by_ : FreeAgent) (c : CopyRead) (s : State) (hs : s.Kept κ) :
    OutOk κ (execCellFree cell q epoch by_ c s) := by
  unfold execCellFree
  repeat' first | with_reducible assumption | (intro _) | with_reducible apply OutOk.ite | with_reducible apply ok_ite | extract_lets | with_reducible apply State.compareCopies_ok | with_reducible apply State.freeCell_ok | with_reducible apply OutOk.next | fail_if_no_progress (with_reducible apply State.mk_ok) | split | dsimp +zetaDelta only | with_reducible apply ok_ite_snd | with_reducible apply ok_ite_fst | with_reducible apply id_ok

theorem execQueueEnWrite_ok {κ : Keep} (p : Path) (w : Word) (s : State) (hs : s.Kept κ) :
    OutOk κ (execQueueEnWrite p w s) := by
  unfold execQueueEnWrite
  repeat' first | with_reducible assumption | (intro _) | with_reducible apply OutOk.ite | with_reducible apply ok_ite | extract_lets | with_reducible apply State.retainWrite_ok | with_reducible apply State.gate_ok | with_reducible apply State.writeQueueCfg_ok | with_reducible apply OutOk.next | fail_if_no_progress (with_reducible apply State.mk_ok) | split | dsimp +zetaDelta only

theorem State.reclaim_ok {κ : Keep} (s : State) (q : Nat) (hs : s.Kept κ) :
    State.Kept κ (State.reclaim s q) := by
  unfold State.reclaim
  repeat' first | with_reducible assumption | (intro _) | with_reducible apply ok_ite | extract_lets | with_reducible apply State.setWord_ok | with_reducible apply State.put_ok | with_reducible apply State.inc_ok | with_reducible apply State.retireWith_ok | with_reducible apply State.updQueue_ok | with_reducible apply State.retryWaiting_ok | with_reducible apply foldl_ok | with_reducible apply foldl_ok_fst | with_reducible apply foldl_ok_snd | fail_if_no_progress (with_reducible apply State.mk_ok) | split | dsimp +zetaDelta only | with_reducible apply ok_ite_snd | with_reducible apply ok_ite_fst | with_reducible apply id_ok

theorem execReclaimDone_ok {κ : Keep} (q : Fin 4096) (s : State) (hs : s.Kept κ) :
    OutOk κ (execReclaimDone q s) := by
  unfold execReclaimDone
  repeat' first | with_reducible assumption | (intro _) | with_reducible apply OutOk.ite | with_reducible apply ok_ite | extract_lets | with_reducible apply State.tearTry_ok | with_reducible apply State.reclaim_ok | with_reducible apply OutOk.next | fail_if_no_progress (with_reducible apply State.mk_ok) | split | dsimp +zetaDelta only

theorem execQueueRebuildDone_ok {κ : Keep} (q : Fin 4096) (ok : Bool) (s : State) (hs : s.Kept κ) :
    OutOk κ (execQueueRebuildDone q ok s) := by
  unfold execQueueRebuildDone
  repeat' first | with_reducible assumption | (intro _) | with_reducible apply OutOk.ite | with_reducible apply ok_ite | extract_lets | with_reducible apply State.put_ok | with_reducible apply State.raiseInst_ok | with_reducible apply State.retryWaiting_ok | with_reducible apply State.closeQueue_ok | with_reducible apply OutOk.next | fail_if_no_progress (with_reducible apply State.mk_ok) | split | dsimp +zetaDelta only

theorem State.quiesceDue_ok {κ : Keep} (s : State) (o : Order) (late : Bool) (hs : s.Kept κ) :
    State.Kept κ (State.quiesceDue s o late) := by
  unfold State.quiesceDue
  repeat' first | with_reducible assumption | (intro _) | with_reducible apply ok_ite | extract_lets | with_reducible apply State.updOrder_ok | with_reducible apply State.retire_ok | with_reducible apply State.closeQueue_ok | fail_if_no_progress (with_reducible apply State.mk_ok) | split | dsimp +zetaDelta only

theorem State.quiesceAccept_ok {κ : Keep} (o : Order) (s : State) (hs : s.Kept κ) :
    State.Kept κ (State.quiesceAccept o s) := by
  unfold State.quiesceAccept
  repeat' first | with_reducible assumption | (intro _) | with_reducible apply ok_ite | with_reducible apply State.validate_ok | with_reducible apply State.quiesceDue_ok | fail_if_no_progress (with_reducible apply State.mk_ok) | split

theorem execQueueQuiesce_ok {κ : Keep} (s : State) (hs : s.Kept κ) :
    OutOk κ (execQueueQuiesce s) := by
  unfold execQueueQuiesce
  repeat' first | with_reducible assumption | (intro _) | with_reducible apply OutOk.ite | with_reducible apply ok_ite | with_reducible apply State.accept_ok | with_reducible apply State.quiesceAccept_ok | with_reducible apply OutOk.next | fail_if_no_progress (with_reducible apply State.mk_ok) | split

theorem execQueueQuiesceDue_ok {κ : Keep} (ring index : Nat) (s : State) (hs : s.Kept κ) :
    OutOk κ (execQueueQuiesceDue ring index s) := by
  unfold execQueueQuiesceDue
  repeat' first | with_reducible assumption | (intro _) | with_reducible apply OutOk.ite | with_reducible apply ok_ite | with_reducible apply State.quiesceDue_ok | with_reducible apply OutOk.next | fail_if_no_progress (with_reducible apply State.mk_ok) | split

theorem State.quiesceCancel_ok {κ : Keep} (s : State) (o : Order) (hs : s.Kept κ) :
    State.Kept κ (State.quiesceCancel s o) := by
  unfold State.quiesceCancel
  repeat' first | with_reducible assumption | (intro _) | with_reducible apply ok_ite | with_reducible apply State.updOrder_ok | with_reducible apply State.retire_ok | fail_if_no_progress (with_reducible apply State.mk_ok) | split

end Machine
end Sys2Proof
end

