-- ==== Sys2Proof/Laws/OkRings.lean ====
section
/-!
SUPPORT. The canonical form is kept by every operation of Machine/Rings.lean.
-/

namespace Sys2Proof
namespace Machine

theorem State.updRing_ok {κ : Keep} (s : State) (x : Nat) (f : Ring → Ring) (hs : s.Kept κ) :
    State.Kept κ (State.updRing s x f) := by
  unfold State.updRing
  repeat' first | with_reducible assumption | (intro _) | with_reducible apply ok_ite | with_reducible apply State.put_ok | fail_if_no_progress (with_reducible apply State.mk_ok) | split

theorem State.setRingHead_ok {κ : Keep} (s : State) (x n : Nat) (hs : s.Kept κ) :
    State.Kept κ (State.setRingHead s x n) := by
  unfold State.setRingHead
  repeat' first | with_reducible assumption | (intro _) | with_reducible apply ok_ite | with_reducible apply State.put_ok | with_reducible apply State.updRing_ok | fail_if_no_progress (with_reducible apply State.mk_ok) | split

theorem State.returnEntry_ok {κ : Keep} (s : State) (x index : Nat) (bytes : List Byte) (irq : Bool) (hs : s.Kept κ) :
    State.Kept κ (State.returnEntry s x index bytes irq) := by
  unfold State.returnEntry
  repeat' first | with_reducible assumption | (intro _) | with_reducible apply ok_ite | extract_lets | with_reducible apply State.send_ok | with_reducible apply State.irq_ok | with_reducible apply State.countDone_ok | fail_if_no_progress (with_reducible apply State.mk_ok) | split | dsimp +zetaDelta only

theorem State.countBad_ok {κ : Keep} (s : State) (x : Nat) (hs : s.Kept κ) :
    State.Kept κ (State.countBad s x) := by
  unfold State.countBad
  repeat' first | with_reducible assumption | (intro _) | with_reducible apply ok_ite | with_reducible apply State.satInc_ok | fail_if_no_progress (with_reducible apply State.mk_ok) | split

theorem State.returnBuffer_ok {κ : Keep} (s : State) (x : Nat) (e : RingEntry) (status close used barges : Nat) (hs : s.Kept κ) :
    State.Kept κ (State.returnBuffer s x e status close used barges) := by
  unfold State.returnBuffer
  repeat' first | with_reducible assumption | (intro _) | with_reducible apply ok_ite | extract_lets | with_reducible apply State.send_ok | with_reducible apply State.irq_ok | with_reducible apply State.countDone_ok | fail_if_no_progress (with_reducible apply State.mk_ok) | split | dsimp +zetaDelta only

theorem State.returnSlotEmpty_ok {κ : Keep} (s : State) (x index : Nat) (hs : s.Kept κ) :
    State.Kept κ (State.returnSlotEmpty s x index) := by
  unfold State.returnSlotEmpty
  repeat' first | with_reducible assumption | (intro _) | with_reducible apply ok_ite | with_reducible apply State.returnEntry_ok | fail_if_no_progress (with_reducible apply State.mk_ok) | split

theorem State.returnMove_ok {κ : Keep} (s : State) (x : Nat) (e : RingEntry) (status reason done : Nat) (hs : s.Kept κ) :
    State.Kept κ (State.returnMove s x e status reason done) := by
  unfold State.returnMove
  repeat' first | with_reducible assumption | (intro _) | with_reducible apply ok_ite | extract_lets | with_reducible apply State.returnEntry_ok | with_reducible apply State.countBad_ok | fail_if_no_progress (with_reducible apply State.mk_ok) | split | dsimp +zetaDelta only

theorem State.takeEntry_ok {κ : Keep} (s : State) (x poll : Nat) (f : FetchResult) (hs : s.Kept κ) :
    State.Kept κ (State.takeEntry s x poll f) := by
  unfold State.takeEntry
  repeat' first | with_reducible assumption | (intro _) | with_reducible apply ok_ite | extract_lets | with_reducible apply State.updRing_ok | with_reducible apply State.setRingHead_ok | with_reducible apply State.returnEntry_ok | with_reducible apply State.countBad_ok | with_reducible apply State.returnBuffer_ok | with_reducible apply State.returnSlotEmpty_ok | with_reducible apply State.returnMove_ok | fail_if_no_progress (with_reducible apply State.mk_ok) | split | dsimp +zetaDelta only

theorem State.takeEntries_ok {κ : Keep} (s : State) (x poll : Nat) (l : List FetchResult) (hs : s.Kept κ) : State.Kept κ (State.takeEntries s x poll l).2 := by
  induction l generalizing s with
  | nil => exact hs
  | cons e t ih =>
    cases e with
    | failed r => exact ih _ (State.takeEntry_ok _ _ _ _ hs)
    | entry bs =>
      unfold State.takeEntries
      with_reducible apply ok_ite_snd
      · exact ih _ (State.takeEntry_ok _ _ _ _ hs)
      · exact hs

theorem State.startFetch_ok {κ : Keep} (s : State) (x n poll : Nat) (hs : s.Kept κ) :
    State.Kept κ (State.startFetch s x n poll) := by
  unfold State.startFetch
  repeat' first | with_reducible assumption | (intro _) | with_reducible apply ok_ite | extract_lets | with_reducible apply State.readHost_ok | with_reducible apply State.updRing_ok | fail_if_no_progress (with_reducible apply State.mk_ok) | split | dsimp +zetaDelta only

theorem State.endFetch_ok {κ : Keep} (s : State) (x i k : Nat) (hs : s.Kept κ) :
    State.Kept κ (State.endFetch s x i k) := by
  unfold State.endFetch
  repeat' first | with_reducible assumption | (intro _) | with_reducible apply ok_ite | with_reducible apply State.readDone_ok | with_reducible apply State.updRing_ok | fail_if_no_progress (with_reducible apply State.mk_ok) | split

theorem State.tailError_ok {κ : Keep} (s : State) (x : Nat) (hs : s.Kept κ) :
    State.Kept κ (State.tailError s x) := by
  unfold State.tailError
  repeat' first | with_reducible assumption | (intro _) | with_reducible apply ok_ite | with_reducible apply State.put_ok | with_reducible apply State.raise_ok | fail_if_no_progress (with_reducible apply State.mk_ok) | split

theorem State.consumeRecords_ok {κ : Keep} (s : State) (x tail : Nat) (hs : s.Kept κ) :
    State.Kept κ (State.consumeRecords s x tail) := by
  unfold State.consumeRecords
  repeat' first | with_reducible assumption | (intro _) | with_reducible apply ok_ite | extract_lets | fail_if_no_progress (with_reducible apply State.mk_ok) | split | dsimp +zetaDelta only | with_reducible apply ok_ite_snd | with_reducible apply ok_ite_fst | with_reducible apply id_ok

theorem State.compareTail_ok {κ : Keep} (s : State) (x tail poll : Nat) (hs : s.Kept κ) :
    State.Kept κ (State.compareTail s x tail poll).2 := by
  unfold State.compareTail
  repeat' first | with_reducible assumption | with_reducible apply ok_ite_fst | with_reducible apply ok_ite_snd | fail_if_no_progress (with_reducible refine mk_ok_snd rfl ?_) | fail_if_no_progress (with_reducible refine mk_ok_fst rfl ?_) | fail_if_no_progress (with_reducible refine mk_ok_snd_snd rfl ?_) | (intro _) | with_reducible apply ok_ite | extract_lets | with_reducible apply State.updRing_ok | with_reducible apply State.startFetch_ok | with_reducible apply State.tailError_ok | with_reducible apply State.consumeRecords_ok | fail_if_no_progress (with_reducible apply State.mk_ok) | split | dsimp +zetaDelta only

theorem State.compareAll_ok {κ : Keep} (s : State) (tails : List (Nat × Word)) (poll : Nat) (l : List Nat) (hs : s.Kept κ) :
    State.Kept κ (State.compareAll s tails poll l).2.2 := by
  induction l generalizing s with
  | nil => exact hs
  | cons x t ih =>
    rw [State.compareAll]
    split
    · exact ih _ (State.compareTail_ok _ _ _ _ hs)
    · exact ih _ hs

theorem State.pollReads_ok {κ : Keep} (s : State) (hs : s.Kept κ) :
    State.Kept κ (State.pollReads s) := by
  unfold State.pollReads
  repeat' first | with_reducible assumption | (intro _) | with_reducible apply ok_ite | extract_lets | with_reducible apply State.send_ok | with_reducible apply foldl_ok | with_reducible apply foldl_ok_fst | with_reducible apply foldl_ok_snd | fail_if_no_progress (with_reducible apply State.mk_ok) | split | dsimp +zetaDelta only

theorem State.pollResult_ok {κ : Keep} (s : State) (tails : List (Nat × Word)) (hs : s.Kept κ) :
    State.Kept κ (State.pollResult s tails).2 := by
  unfold State.pollResult
  repeat' first | with_reducible assumption | with_reducible apply ok_ite_fst | with_reducible apply ok_ite_snd | fail_if_no_progress (with_reducible refine mk_ok_snd rfl ?_) | fail_if_no_progress (with_reducible refine mk_ok_fst rfl ?_) | fail_if_no_progress (with_reducible refine mk_ok_snd_snd rfl ?_) | (intro _) | with_reducible apply ok_ite | extract_lets | with_reducible apply State.compareAll_ok | fail_if_no_progress (with_reducible apply State.mk_ok) | split | dsimp +zetaDelta only | with_reducible apply ok_ite_snd | with_reducible apply ok_ite_fst | with_reducible apply id_ok

theorem State.tallyError_ok {κ : Keep} (s : State) (hs : s.Kept κ) :
    State.Kept κ (State.tallyError s) := by
  unfold State.tallyError
  repeat' first | with_reducible assumption | (intro _) | with_reducible apply ok_ite | extract_lets | with_reducible apply State.put_ok | with_reducible apply State.raiseInst_ok | fail_if_no_progress (with_reducible apply State.mk_ok) | split | dsimp +zetaDelta only

theorem execLookoutPoll_ok {κ : Keep} (tails : List (Nat × Word)) (ok : Bool) (s : State) (hs : s.Kept κ) :
    OutOk κ (execLookoutPoll tails ok s) := by
  unfold execLookoutPoll
  repeat' first | with_reducible assumption | (intro _) | with_reducible apply OutOk.ite | with_reducible apply ok_ite | extract_lets | with_reducible apply State.pollReads_ok | with_reducible apply State.pollResult_ok | with_reducible apply State.tallyError_ok | with_reducible apply OutOk.next | fail_if_no_progress (with_reducible apply State.mk_ok) | split | dsimp +zetaDelta only | with_reducible apply ok_ite_snd | with_reducible apply ok_ite_fst | with_reducible apply id_ok

theorem execEntryFetched_ok {κ : Keep} (x : Fin 114) (es : List FetchResult) (s : State) (hs : s.Kept κ) :
    OutOk κ (execEntryFetched x es s) := by
  unfold execEntryFetched
  repeat' first | with_reducible assumption | (intro _) | with_reducible apply OutOk.ite | with_reducible apply ok_ite | extract_lets | with_reducible apply State.takeEntries_ok | with_reducible apply State.startFetch_ok | with_reducible apply State.endFetch_ok | with_reducible apply OutOk.next | fail_if_no_progress (with_reducible apply State.mk_ok) | split | dsimp +zetaDelta only | with_reducible apply ok_ite_snd | with_reducible apply ok_ite_fst | with_reducible apply id_ok

theorem State.writeStatusWord_ok {κ : Keep} (s : State) (parked : Bool) (hs : s.Kept κ) :
    State.Kept κ (State.writeStatusWord s parked) := by
  unfold State.writeStatusWord
  repeat' first | with_reducible assumption | (intro _) | with_reducible apply ok_ite | with_reducible apply State.send_ok | fail_if_no_progress (with_reducible apply State.mk_ok) | split

theorem execPark_ok {κ : Keep} (s : State) (hs : s.Kept κ) :
    OutOk κ (execPark s) := by
  unfold execPark
  repeat' first | with_reducible assumption | (intro _) | with_reducible apply OutOk.ite | with_reducible apply ok_ite | extract_lets | with_reducible apply State.put_ok | with_reducible apply State.pollReads_ok | with_reducible apply State.writeStatusWord_ok | with_reducible apply OutOk.next | fail_if_no_progress (with_reducible apply State.mk_ok) | split | dsimp +zetaDelta only

theorem State.unpark_ok {κ : Keep} (s : State) (hs : s.Kept κ) :
    State.Kept κ (State.unpark s) := by
  unfold State.unpark
  repeat' first | with_reducible assumption | (intro _) | with_reducible apply ok_ite | extract_lets | with_reducible apply State.put_ok | with_reducible apply State.writeStatusWord_ok | fail_if_no_progress (with_reducible apply State.mk_ok) | split | dsimp +zetaDelta only

theorem execFinalPollResult_ok {κ : Keep} (tails : List (Nat × Word)) (ok : Bool) (s : State) (hs : s.Kept κ) :
    OutOk κ (execFinalPollResult tails ok s) := by
  unfold execFinalPollResult
  repeat' first | with_reducible assumption | (intro _) | with_reducible apply OutOk.ite | with_reducible apply ok_ite | extract_lets | with_reducible apply State.abandonAuto_ok | with_reducible apply State.wakeCause_ok | with_reducible apply State.irq_ok | with_reducible apply State.pollResult_ok | with_reducible apply State.tallyError_ok | with_reducible apply State.unpark_ok | with_reducible apply OutOk.next | fail_if_no_progress (with_reducible apply State.mk_ok) | split | dsimp +zetaDelta only | with_reducible apply ok_ite_snd | with_reducible apply ok_ite_fst | with_reducible apply id_ok

theorem State.wakeLookout_ok {κ : Keep} (s : State) (hs : s.Kept κ) :
    State.Kept κ (State.wakeLookout s) := by
  unfold State.wakeLookout
  repeat' first | with_reducible assumption | (intro _) | with_reducible apply ok_ite | extract_lets | with_reducible apply State.inc_ok | with_reducible apply State.unpark_ok | fail_if_no_progress (with_reducible apply State.mk_ok) | split | dsimp +zetaDelta only

theorem State.nopAccept_ok {κ : Keep} (o : Order) (s : State) (hs : s.Kept κ) :
    State.Kept κ (State.nopAccept o s) := by
  unfold State.nopAccept
  repeat' first | with_reducible assumption | (intro _) | with_reducible apply ok_ite | with_reducible apply State.retire_ok | with_reducible apply State.validate_ok | fail_if_no_progress (with_reducible apply State.mk_ok) | split

theorem execNop_ok {κ : Keep} (s : State) (hs : s.Kept κ) :
    OutOk κ (execNop s) := by
  unfold execNop
  repeat' first | with_reducible assumption | (intro _) | with_reducible apply OutOk.ite | with_reducible apply ok_ite | with_reducible apply State.accept_ok | with_reducible apply State.nopAccept_ok | with_reducible apply OutOk.next | fail_if_no_progress (with_reducible apply State.mk_ok) | split

theorem State.closeBuffer_ok {κ : Keep} (s : State) (x close : Nat) (hs : s.Kept κ) :
    State.Kept κ (State.closeBuffer s x close) := by
  unfold State.closeBuffer
  repeat' first | with_reducible assumption | (intro _) | with_reducible apply ok_ite | with_reducible apply State.updRing_ok | with_reducible apply State.returnBuffer_ok | fail_if_no_progress (with_reducible apply State.mk_ok) | split

theorem State.writeBarge_ok {κ : Keep} (s : State) (x : Nat) (o : OpenBuf) (b : Barge) (hs : s.Kept κ) :
    State.Kept κ (State.writeBarge s x o b) := by
  unfold State.writeBarge
  repeat' first | with_reducible assumption | (intro _) | with_reducible apply ok_ite | extract_lets | with_reducible apply State.send_ok | with_reducible apply State.updRing_ok | with_reducible apply State.closeBuffer_ok | fail_if_no_progress (with_reducible apply State.mk_ok) | split | dsimp +zetaDelta only

theorem State.openBuffer_ok {κ : Keep} (s : State) (x span : Nat) (hs : s.Kept κ) :
    State.Kept κ (State.openBuffer s x span).2 := by
  unfold State.openBuffer
  repeat' first | with_reducible assumption | with_reducible apply ok_ite_fst | with_reducible apply ok_ite_snd | fail_if_no_progress (with_reducible refine mk_ok_snd rfl ?_) | fail_if_no_progress (with_reducible refine mk_ok_fst rfl ?_) | fail_if_no_progress (with_reducible refine mk_ok_snd_snd rfl ?_) | (intro _) | with_reducible apply ok_ite | extract_lets | with_reducible apply State.put_ok | with_reducible apply State.raiseInst_ok | with_reducible apply State.updRing_ok | with_reducible apply State.returnBuffer_ok | fail_if_no_progress (with_reducible apply State.mk_ok) | split | dsimp +zetaDelta only

theorem State.deliver_ok {κ : Keep} (s : State) (x : Nat) (b : Barge) (hs : s.Kept κ) :
    State.Kept κ (State.deliver s x b).2 := by
  unfold State.deliver
  repeat' first | with_reducible assumption | with_reducible apply ok_ite_fst | with_reducible apply ok_ite_snd | fail_if_no_progress (with_reducible refine mk_ok_snd rfl ?_) | fail_if_no_progress (with_reducible refine mk_ok_fst rfl ?_) | fail_if_no_progress (with_reducible refine mk_ok_snd_snd rfl ?_) | (intro _) | with_reducible apply ok_ite | extract_lets | with_reducible apply State.closeBuffer_ok | with_reducible apply State.writeBarge_ok | with_reducible apply State.openBuffer_ok | fail_if_no_progress (with_reducible apply State.mk_ok) | split | dsimp +zetaDelta only | with_reducible apply ok_ite_snd | with_reducible apply ok_ite_fst | with_reducible apply id_ok

theorem State.tookRingTurn_ok {κ : Keep} (s : State) (x : Nat) (hs : s.Kept κ) :
    State.Kept κ (State.tookRingTurn s x) := by
  unfold State.tookRingTurn
  repeat' first | with_reducible assumption | (intro _) | with_reducible apply ok_ite | extract_lets | fail_if_no_progress (with_reducible apply State.mk_ok) | split | dsimp +zetaDelta only

theorem State.tookMoveTurn_ok {κ : Keep} (s : State) (c : Nat) (hs : s.Kept κ) :
    State.Kept κ (State.tookMoveTurn s c) := by
  unfold State.tookMoveTurn
  repeat' first | with_reducible assumption | (intro _) | with_reducible apply ok_ite | fail_if_no_progress (with_reducible apply State.mk_ok) | split

theorem execBargeDelivery_ok {κ : Keep} (x : Fin 64) (bad : List (Nat × Nat)) (s : State) (hs : s.Kept κ) :
    OutOk κ (execBargeDelivery x bad s) := by
  unfold execBargeDelivery
  repeat' first | with_reducible assumption | (intro _) | with_reducible apply OutOk.ite | with_reducible apply ok_ite | extract_lets | with_reducible apply State.freeCells_ok | with_reducible apply State.updRing_ok | with_reducible apply State.deliver_ok | with_reducible apply State.tookRingTurn_ok | with_reducible apply OutOk.next | fail_if_no_progress (with_reducible apply State.mk_ok) | split | dsimp +zetaDelta only | with_reducible apply ok_ite_snd | with_reducible apply ok_ite_fst | with_reducible apply id_ok

theorem execBufferCloseTimer_ok {κ : Keep} (x : Fin 64) (s : State) (hs : s.Kept κ) :
    OutOk κ (execBufferCloseTimer x s) := by
  unfold execBufferCloseTimer
  repeat' first | with_reducible assumption | (intro _) | with_reducible apply OutOk.ite | with_reducible apply ok_ite | extract_lets | with_reducible apply State.closeBuffer_ok | with_reducible apply OutOk.next | fail_if_no_progress (with_reducible apply State.mk_ok) | split | dsimp +zetaDelta only

theorem State.flushRing_ok {κ : Keep} (s : State) (x : Nat) (hs : s.Kept κ) :
    State.Kept κ (State.flushRing s x) := by
  unfold State.flushRing
  repeat' first | with_reducible assumption | (intro _) | with_reducible apply ok_ite | with_reducible apply State.closeBuffer_ok | fail_if_no_progress (with_reducible apply State.mk_ok) | split

theorem execRingFlush_ok {κ : Keep} (p : Path) (x : Fin 64) (s : State) (hs : s.Kept κ) :
    OutOk κ (execRingFlush p x s) := by
  unfold execRingFlush
  repeat' first | with_reducible assumption | (intro _) | with_reducible apply OutOk.ite | with_reducible apply ok_ite | extract_lets | with_reducible apply State.gateAction_ok | with_reducible apply State.flushRing_ok | with_reducible apply OutOk.next | fail_if_no_progress (with_reducible apply State.mk_ok) | split | dsimp +zetaDelta only

theorem State.ringCfgErr_ok {κ : Keep} (s : State) (x : Nat) (hs : s.Kept κ) :
    State.Kept κ (State.ringCfgErr s x) := by
  unfold State.ringCfgErr
  repeat' first | with_reducible assumption | (intro _) | with_reducible apply ok_ite | with_reducible apply State.put_ok | fail_if_no_progress (with_reducible apply State.mk_ok) | split

theorem State.stopRing_ok {κ : Keep} (s : State) (x : Nat) (hs : s.Kept κ) :
    State.Kept κ (State.stopRing s x) := by
  unfold State.stopRing
  repeat' first | with_reducible assumption | (intro _) | with_reducible apply ok_ite | extract_lets | with_reducible apply State.put_ok | with_reducible apply State.irq_ok | with_reducible apply State.unbindQueue_ok | with_reducible apply State.updRing_ok | with_reducible apply State.returnEntry_ok | with_reducible apply State.returnBuffer_ok | with_reducible apply State.returnSlotEmpty_ok | with_reducible apply State.returnMove_ok | with_reducible apply State.closeBuffer_ok | with_reducible apply foldl_ok | with_reducible apply foldl_ok_fst | with_reducible apply foldl_ok_snd | fail_if_no_progress (with_reducible apply State.mk_ok) | split | dsimp +zetaDelta only

theorem State.startRing_ok {κ : Keep} (s : State) (x : Nat) (hs : s.Kept κ) :
    State.Kept κ (State.startRing s x) := by
  unfold State.startRing
  repeat' first | with_reducible assumption | (intro _) | with_reducible apply ok_ite | extract_lets | with_reducible apply State.setWord_ok | with_reducible apply State.put_ok | with_reducible apply State.updRing_ok | fail_if_no_progress (with_reducible apply State.mk_ok) | split | dsimp +zetaDelta only

theorem State.writeRingCfg_ok {κ : Keep} (s : State) (x : Nat) (en : Bool) (log2 : Nat) (hs : s.Kept κ) :
    State.Kept κ (State.writeRingCfg s x en log2) := by
  unfold State.writeRingCfg
  repeat' first | with_reducible assumption | (intro _) | with_reducible apply ok_ite | extract_lets | with_reducible apply State.put_ok | with_reducible apply State.bindQueue?_ok | with_reducible apply State.ringCfgErr_ok | with_reducible apply State.stopRing_ok | with_reducible apply State.startRing_ok | fail_if_no_progress (with_reducible apply State.mk_ok) | split | dsimp +zetaDelta only | with_reducible refine OptOk.of_some (State.bindQueue?_ok _ _ _ _ ?_) _ (by with_reducible assumption)

theorem execRingEnWrite_ok {κ : Keep} (p : Path) (x : Fin 114) (en : Bool) (log2 : Fin 32) (s : State) (hs : s.Kept κ) :
    OutOk κ (execRingEnWrite p x en log2 s) := by
  unfold execRingEnWrite
  repeat' first | with_reducible assumption | (intro _) | with_reducible apply OutOk.ite | with_reducible apply ok_ite | extract_lets | with_reducible apply State.put_ok | with_reducible apply State.gate_ok | with_reducible apply State.writeRingCfg_ok | with_reducible apply OutOk.next | fail_if_no_progress (with_reducible apply State.mk_ok) | split | dsimp +zetaDelta only

theorem State.writeEr1Tail_ok {κ : Keep} (s : State) (tail : Nat) (hs : s.Kept κ) :
    State.Kept κ (State.writeEr1Tail s tail) := by
  unfold State.writeEr1Tail
  repeat' first | with_reducible assumption | (intro _) | with_reducible apply ok_ite | extract_lets | with_reducible apply State.put_ok | with_reducible apply State.compareTail_ok | fail_if_no_progress (with_reducible apply State.mk_ok) | split | dsimp +zetaDelta only | with_reducible apply ok_ite_snd | with_reducible apply ok_ite_fst | with_reducible apply id_ok

theorem execEr1TailWrite_ok {κ : Keep} (tail : Word) (s : State) (hs : s.Kept κ) :
    OutOk κ (execEr1TailWrite tail s) := by
  unfold execEr1TailWrite
  repeat' first | with_reducible assumption | (intro _) | with_reducible apply OutOk.ite | with_reducible apply ok_ite | with_reducible apply State.gate_ok | with_reducible apply State.writeEr1Tail_ok | with_reducible apply OutOk.next | fail_if_no_progress (with_reducible apply State.mk_ok) | split | with_reducible apply ok_ite_snd | with_reducible apply ok_ite_fst | with_reducible apply id_ok

theorem State.writeRingSrc_ok {κ : Keep} (s : State) (x : Nat) (w : Word) (hs : s.Kept κ) :
    State.Kept κ (State.writeRingSrc s x w) := by
  unfold State.writeRingSrc
  repeat' first | with_reducible assumption | (intro _) | with_reducible apply ok_ite | extract_lets | with_reducible apply State.put_ok | with_reducible apply State.plainWrite_ok | with_reducible apply State.ringCfgErr_ok | fail_if_no_progress (with_reducible apply State.mk_ok) | split | dsimp +zetaDelta only

theorem State.writeRingBase_ok {κ : Keep} (s : State) (x key : Nat) (w : Word) (hs : s.Kept κ) :
    State.Kept κ (State.writeRingBase s x key w) := by
  unfold State.writeRingBase
  repeat' first | with_reducible assumption | (intro _) | with_reducible apply ok_ite | with_reducible apply State.plainWrite_ok | with_reducible apply State.ringCfgErr_ok | fail_if_no_progress (with_reducible apply State.mk_ok) | split

theorem State.writeRingCtl_ok {κ : Keep} (s : State) (w : Word) (hs : s.Kept κ) :
    State.Kept κ (State.writeRingCtl s w) := by
  unfold State.writeRingCtl
  repeat' first | with_reducible assumption | (intro _) | with_reducible apply ok_ite | extract_lets | with_reducible apply State.plainWrite_ok | fail_if_no_progress (with_reducible apply State.mk_ok) | split | dsimp +zetaDelta only

theorem State.writeTallyBase_ok {κ : Keep} (s : State) (key : Nat) (w : Word) (hs : s.Kept κ) :
    State.Kept κ (State.writeTallyBase s key w) := by
  unfold State.writeTallyBase
  repeat' first | with_reducible assumption | (intro _) | with_reducible apply ok_ite | with_reducible apply State.plainWrite_ok | fail_if_no_progress (with_reducible apply State.mk_ok) | split

theorem State.abandonRing_ok {κ : Keep} (s : State) (x : Nat) (hs : s.Kept κ) :
    State.Kept κ (State.abandonRing s x) := by
  unfold State.abandonRing
  repeat' first | with_reducible assumption | (intro _) | with_reducible apply ok_ite | extract_lets | with_reducible apply State.put_ok | with_reducible apply State.satInc_ok | with_reducible apply State.raiseInst_ok | with_reducible apply State.unbindQueue_ok | with_reducible apply State.updRing_ok | fail_if_no_progress (with_reducible apply State.mk_ok) | split | dsimp +zetaDelta only

theorem State.abandonRings_ok {κ : Keep} (s : State) (hs : s.Kept κ) :
    State.Kept κ (State.abandonRings s) := by
  unfold State.abandonRings
  repeat' first | with_reducible assumption | (intro _) | with_reducible apply ok_ite | extract_lets | with_reducible apply State.put_ok | with_reducible apply State.abandonRing_ok | with_reducible apply foldl_ok | with_reducible apply foldl_ok_fst | with_reducible apply foldl_ok_snd | fail_if_no_progress (with_reducible apply State.mk_ok) | split | dsimp +zetaDelta only

end Machine
end Sys2Proof
end

