-- ==== Sys2Proof/Laws/OkPcie.lean ====
section
/-!
SUPPORT. The canonical form is kept by every operation of Machine/Pcie.lean.
-/

namespace Sys2Proof
namespace Machine

theorem State.badAccess_ok {κ : Keep} (s : State) (fn key : Nat) (write : Bool) (hs : s.Kept κ) :
    State.Kept κ (State.badAccess s fn key write) := by
  unfold State.badAccess
  repeat' first | with_reducible assumption | (intro _) | with_reducible apply ok_ite | extract_lets | with_reducible apply State.setWord_ok | with_reducible apply State.send_ok | with_reducible apply State.raise_ok | with_reducible apply State.logAer_ok | fail_if_no_progress (with_reducible apply State.mk_ok) | split | dsimp +zetaDelta only

theorem execBarAccessViolation_ok {κ : Keep} (key size : Nat) (contiguous write : Bool) (s : State) (hs : s.Kept κ) :
    OutOk κ (execBarAccessViolation key size contiguous write s) := by
  unfold execBarAccessViolation
  repeat' first | with_reducible assumption | (intro _) | with_reducible apply OutOk.ite | with_reducible apply ok_ite | extract_lets | with_reducible apply State.send_ok | with_reducible apply State.logAer_ok | with_reducible apply State.badAccess_ok | with_reducible apply OutOk.next | fail_if_no_progress (with_reducible apply State.mk_ok) | split | dsimp +zetaDelta only

theorem State.flushVectors_ok {κ : Keep} (s : State) (hs : s.Kept κ) :
    State.Kept κ (State.flushVectors s) := by
  unfold State.flushVectors
  repeat' first | with_reducible assumption | (intro _) | with_reducible apply ok_ite | with_reducible apply State.sendVec_ok | with_reducible apply foldl_ok | with_reducible apply foldl_ok_fst | with_reducible apply foldl_ok_snd | fail_if_no_progress (with_reducible apply State.mk_ok) | split | with_reducible apply ok_ite_snd | with_reducible apply ok_ite_fst | with_reducible apply id_ok

theorem execLinkTrained_ok {κ : Keep} (width rate : Nat) (flit : Bool) (s : State) (hs : s.Kept κ) :
    OutOk κ (execLinkTrained width rate flit s) := by
  unfold execLinkTrained
  repeat' first | with_reducible assumption | (intro _) | with_reducible apply OutOk.ite | with_reducible apply ok_ite | extract_lets | with_reducible apply State.send_ok | with_reducible apply State.put_ok | with_reducible apply State.raiseInst_ok | with_reducible apply State.flushVectors_ok | with_reducible apply OutOk.next | fail_if_no_progress (with_reducible apply State.mk_ok) | split | dsimp +zetaDelta only

theorem State.linkDown_ok {κ : Keep} (s : State) (hs : s.Kept κ) :
    State.Kept κ (State.linkDown s) := by
  unfold State.linkDown
  repeat' first | with_reducible assumption | (intro _) | with_reducible apply ok_ite | extract_lets | with_reducible apply State.put_ok | fail_if_no_progress (with_reducible apply State.mk_ok) | split | dsimp +zetaDelta only

theorem execHotReset_ok {κ : Keep} (s : State) (hs : s.Kept κ) :
    OutOk κ (execHotReset s) := by
  unfold execHotReset
  repeat' first | with_reducible assumption | (intro _) | with_reducible apply OutOk.ite | with_reducible apply ok_ite | with_reducible apply State.abandonRings_ok | with_reducible apply State.linkDown_ok | with_reducible apply OutOk.next | fail_if_no_progress (with_reducible apply State.mk_ok) | split

theorem execVectorModerationEnd_ok {κ : Keep} (fn : Fin 2) (v : Fin 64) (s : State) (hs : s.Kept κ) :
    OutOk κ (execVectorModerationEnd fn v s) := by
  unfold execVectorModerationEnd
  repeat' first | with_reducible assumption | (intro _) | with_reducible apply OutOk.ite | with_reducible apply ok_ite | with_reducible apply State.sendVec_ok | with_reducible apply OutOk.next | fail_if_no_progress (with_reducible apply State.mk_ok) | split

theorem execConfigSpaceWrite_ok {κ : Keep} (fn : Fin 2) (c : CfgWrite) (s : State) (hs : s.Kept κ) :
    OutOk κ (execConfigSpaceWrite fn c s) := by
  unfold execConfigSpaceWrite
  repeat' first | with_reducible assumption | (intro _) | with_reducible apply OutOk.ite | with_reducible apply ok_ite | with_reducible apply State.sendHeld_ok | with_reducible apply State.flushVectors_ok | with_reducible apply OutOk.next | fail_if_no_progress (with_reducible apply State.mk_ok) | split

theorem State.setPend_ok {κ : Keep} (s : State) (agent : Nat) (on : Bool) (hs : s.Kept κ) :
    State.Kept κ (State.setPend s agent on) := by
  unfold State.setPend
  repeat' first | with_reducible assumption | (intro _) | with_reducible apply ok_ite | with_reducible apply State.put_ok | fail_if_no_progress (with_reducible apply State.mk_ok) | split

theorem State.tokenReq_ok {κ : Keep} (s : State) (agent : Nat) (hs : s.Kept κ) :
    State.Kept κ (State.tokenReq s agent) := by
  unfold State.tokenReq
  repeat' first | with_reducible assumption | (intro _) | with_reducible apply ok_ite | extract_lets | with_reducible apply State.put_ok | with_reducible apply State.setPend_ok | fail_if_no_progress (with_reducible apply State.mk_ok) | split | dsimp +zetaDelta only

theorem State.tokenRel_ok {κ : Keep} (s : State) (agent : Nat) (hs : s.Kept κ) :
    State.Kept κ (State.tokenRel s agent) := by
  unfold State.tokenRel
  repeat' first | with_reducible assumption | (intro _) | with_reducible apply ok_ite | extract_lets | with_reducible apply State.put_ok | with_reducible apply State.setPend_ok | fail_if_no_progress (with_reducible apply State.mk_ok) | split | dsimp +zetaDelta only

theorem State.tokenForce_ok {κ : Keep} (s : State) (hs : s.Kept κ) :
    State.Kept κ (State.tokenForce s) := by
  unfold State.tokenForce
  repeat' first | with_reducible assumption | (intro _) | with_reducible apply ok_ite | extract_lets | with_reducible apply State.put_ok | with_reducible apply State.raiseInst_ok | with_reducible apply State.setPend_ok | fail_if_no_progress (with_reducible apply State.mk_ok) | split | dsimp +zetaDelta only

theorem execTokenReq_ok {κ : Keep} (p : Path) (s : State) (hs : s.Kept κ) :
    OutOk κ (execTokenReq p s) := by
  unfold execTokenReq
  repeat' first | with_reducible assumption | (intro _) | with_reducible apply OutOk.ite | with_reducible apply ok_ite | with_reducible apply State.gateAction_ok | with_reducible apply State.tokenReq_ok | with_reducible apply OutOk.next | fail_if_no_progress (with_reducible apply State.mk_ok) | split

theorem execTokenRel_ok {κ : Keep} (p : Path) (s : State) (hs : s.Kept κ) :
    OutOk κ (execTokenRel p s) := by
  unfold execTokenRel
  repeat' first | with_reducible assumption | (intro _) | with_reducible apply OutOk.ite | with_reducible apply ok_ite | with_reducible apply State.gateAction_ok | with_reducible apply State.tokenRel_ok | with_reducible apply OutOk.next | fail_if_no_progress (with_reducible apply State.mk_ok) | split

theorem execMgmtTokenReq_ok {κ : Keep} (s : State) (hs : s.Kept κ) :
    OutOk κ (execMgmtTokenReq s) := by
  unfold execMgmtTokenReq
  repeat' first | with_reducible assumption | (intro _) | with_reducible apply OutOk.ite | with_reducible apply ok_ite | with_reducible apply State.gateAction_ok | with_reducible apply State.tokenReq_ok | with_reducible apply OutOk.next | fail_if_no_progress (with_reducible apply State.mk_ok) | split

theorem execMgmtTokenRel_ok {κ : Keep} (s : State) (hs : s.Kept κ) :
    OutOk κ (execMgmtTokenRel s) := by
  unfold execMgmtTokenRel
  repeat' first | with_reducible assumption | (intro _) | with_reducible apply OutOk.ite | with_reducible apply ok_ite | with_reducible apply State.gateAction_ok | with_reducible apply State.tokenRel_ok | with_reducible apply OutOk.next | fail_if_no_progress (with_reducible apply State.mk_ok) | split

theorem execMgmtForce_ok {κ : Keep} (key : BitVec 16) (s : State) (hs : s.Kept κ) :
    OutOk κ (execMgmtForce key s) := by
  unfold execMgmtForce
  repeat' first | with_reducible assumption | (intro _) | with_reducible apply OutOk.ite | with_reducible apply ok_ite | with_reducible apply State.gateAction_ok | with_reducible apply State.tokenForce_ok | with_reducible apply OutOk.next | fail_if_no_progress (with_reducible apply State.mk_ok) | split

theorem State.writeMgmtToken_ok {κ : Keep} (s : State) (w : Nat) (hs : s.Kept κ) :
    State.Kept κ (State.writeMgmtToken s w) := by
  unfold State.writeMgmtToken
  repeat' first | with_reducible assumption | (intro _) | with_reducible apply ok_ite | with_reducible apply State.tokenReq_ok | with_reducible apply State.tokenRel_ok | with_reducible apply State.tokenForce_ok | fail_if_no_progress (with_reducible apply State.mk_ok) | split

theorem State.writeOwner_ok {κ : Keep} (s : State) (agent w : Nat) (hs : s.Kept κ) :
    State.Kept κ (State.writeOwner s agent w) := by
  unfold State.writeOwner
  repeat' first | with_reducible assumption | (intro _) | with_reducible apply ok_ite | with_reducible apply State.tokenReq_ok | with_reducible apply State.tokenRel_ok | fail_if_no_progress (with_reducible apply State.mk_ok) | split

end Machine
end Sys2Proof
end

