-- ==== Sys2Proof/Laws/OkEvents.lean ====
section
/-!
SUPPORT. The canonical form is kept by every operation of Machine/Events.lean.
-/

namespace Sys2Proof
namespace Machine

theorem execEventRecordWrite_ok {κ : Keep} (r : Fin 2) (s : State) (hs : s.Kept κ) :
    OutOk κ (execEventRecordWrite r s) := by
  unfold execEventRecordWrite
  repeat' first | with_reducible assumption | (intro _) | with_reducible apply OutOk.ite | with_reducible apply ok_ite | extract_lets | with_reducible apply State.updRing_ok | with_reducible apply State.returnEntry_ok | with_reducible apply OutOk.next | fail_if_no_progress (with_reducible apply State.mk_ok) | split | dsimp +zetaDelta only

theorem State.injectEvent_ok {κ : Keep} (s : State) (src key : Nat) (hs : s.Kept κ) :
    State.Kept κ (State.injectEvent s src key) := by
  unfold State.injectEvent
  repeat' first | with_reducible assumption | (intro _) | with_reducible apply ok_ite | with_reducible apply State.raise_ok | fail_if_no_progress (with_reducible apply State.mk_ok) | split

theorem execEvInject_ok {κ : Keep} (p : Path) (src : Fin 512) (key : BitVec 16) (s : State) (hs : s.Kept κ) :
    OutOk κ (execEvInject p src key s) := by
  unfold execEvInject
  repeat' first | with_reducible assumption | (intro _) | with_reducible apply OutOk.ite | with_reducible apply ok_ite | with_reducible apply State.gateAction_ok | with_reducible apply State.injectEvent_ok | with_reducible apply OutOk.next | fail_if_no_progress (with_reducible apply State.mk_ok) | split

theorem execContainmentClose_ok {κ : Keep} (s : State) (hs : s.Kept κ) :
    OutOk κ (execContainmentClose s) := by
  unfold execContainmentClose
  repeat' first | with_reducible assumption | (intro _) | with_reducible apply OutOk.ite | with_reducible apply ok_ite | extract_lets | with_reducible apply State.offerRecord_ok | with_reducible apply OutOk.next | fail_if_no_progress (with_reducible apply State.mk_ok) | split | dsimp +zetaDelta only

end Machine
end Sys2Proof
end

