-- ==== Sys2Proof/Laws/OkAccess.lean ====
section
/-!
SUPPORT. The canonical form is kept by every operation of Machine/Access.lean.
-/

namespace Sys2Proof
namespace Machine

theorem State.updSource_ok {κ : Keep} (s : State) (n : Nat) (f : Source → Source) (hs : s.Kept κ) :
    State.Kept κ (State.updSource s n f) := by
  unfold State.updSource
  repeat' first | with_reducible assumption | (intro _) | with_reducible apply ok_ite | with_reducible apply State.put_ok | fail_if_no_progress (with_reducible apply State.mk_ok) | split

theorem State.updPlan_ok {κ : Keep} (s : State) (n : Nat) (f : Plan → Plan) (hs : s.Kept κ) :
    State.Kept κ (State.updPlan s n f) := by
  unfold State.updPlan
  repeat' first | with_reducible assumption | (intro _) | with_reducible apply ok_ite | with_reducible apply State.put_ok | fail_if_no_progress (with_reducible apply State.mk_ok) | split

theorem State.updAdc_ok {κ : Keep} (s : State) (n : Nat) (f : Adc → Adc) (hs : s.Kept κ) :
    State.Kept κ (State.updAdc s n f) := by
  unfold State.updAdc
  repeat' first | with_reducible assumption | (intro _) | with_reducible apply ok_ite | with_reducible apply State.put_ok | fail_if_no_progress (with_reducible apply State.mk_ok) | split

theorem State.updDac_ok {κ : Keep} (s : State) (n : Nat) (f : Dac → Dac) (hs : s.Kept κ) :
    State.Kept κ (State.updDac s n f) := by
  unfold State.updDac
  repeat' first | with_reducible assumption | (intro _) | with_reducible apply ok_ite | with_reducible apply State.put_ok | fail_if_no_progress (with_reducible apply State.mk_ok) | split

theorem State.updCal_ok {κ : Keep} (s : State) (n : Nat) (f : Cal → Cal) (hs : s.Kept κ) :
    State.Kept κ (State.updCal s n f) := by
  unfold State.updCal
  repeat' first | with_reducible assumption | (intro _) | with_reducible apply ok_ite | with_reducible apply State.put_ok | fail_if_no_progress (with_reducible apply State.mk_ok) | split

theorem State.updHkSeq_ok {κ : Keep} (s : State) (n : Nat) (f : HkSeq → HkSeq) (hs : s.Kept κ) :
    State.Kept κ (State.updHkSeq s n f) := by
  unfold State.updHkSeq
  repeat' first | with_reducible assumption | (intro _) | with_reducible apply ok_ite | with_reducible apply State.put_ok | fail_if_no_progress (with_reducible apply State.mk_ok) | split

theorem State.updDdc_ok {κ : Keep} (s : State) (n : Nat) (f : Ddc → Ddc) (hs : s.Kept κ) :
    State.Kept κ (State.updDdc s n f) := by
  unfold State.updDdc
  repeat' first | with_reducible assumption | (intro _) | with_reducible apply ok_ite | with_reducible apply State.put_ok | fail_if_no_progress (with_reducible apply State.mk_ok) | split

theorem State.updPlt_ok {κ : Keep} (s : State) (n : Nat) (f : Plt → Plt) (hs : s.Kept κ) :
    State.Kept κ (State.updPlt s n f) := by
  unfold State.updPlt
  repeat' first | with_reducible assumption | (intro _) | with_reducible apply ok_ite | with_reducible apply State.put_ok | fail_if_no_progress (with_reducible apply State.mk_ok) | split

theorem State.updEngine_ok {κ : Keep} (s : State) (n : Nat) (f : Engine → Engine) (hs : s.Kept κ) :
    State.Kept κ (State.updEngine s n f) := by
  unfold State.updEngine
  repeat' first | with_reducible assumption | (intro _) | with_reducible apply ok_ite | with_reducible apply State.put_ok | fail_if_no_progress (with_reducible apply State.mk_ok) | split

theorem State.updReam_ok {κ : Keep} (s : State) (n : Nat) (f : Ream → Ream) (hs : s.Kept κ) :
    State.Kept κ (State.updReam s n f) := by
  unfold State.updReam
  repeat' first | with_reducible assumption | (intro _) | with_reducible apply ok_ite | with_reducible apply State.put_ok | fail_if_no_progress (with_reducible apply State.mk_ok) | split

theorem State.updZone_ok {κ : Keep} (s : State) (n : Nat) (f : Zone → Zone) (hs : s.Kept κ) :
    State.Kept κ (State.updZone s n f) := by
  unfold State.updZone
  repeat' first | with_reducible assumption | (intro _) | with_reducible apply ok_ite | with_reducible apply State.put_ok | fail_if_no_progress (with_reducible apply State.mk_ok) | split

theorem State.updChannel_ok {κ : Keep} (s : State) (n : Nat) (f : Channel → Channel) (hs : s.Kept κ) :
    State.Kept κ (State.updChannel s n f) := by
  unfold State.updChannel
  repeat' first | with_reducible assumption | (intro _) | with_reducible apply ok_ite | with_reducible apply State.put_ok | fail_if_no_progress (with_reducible apply State.mk_ok) | split

theorem State.updWeir_ok {κ : Keep} (s : State) (n : Nat) (f : Weir → Weir) (hs : s.Kept κ) :
    State.Kept κ (State.updWeir s n f) := by
  unfold State.updWeir
  repeat' first | with_reducible assumption | (intro _) | with_reducible apply ok_ite | with_reducible apply State.put_ok | fail_if_no_progress (with_reducible apply State.mk_ok) | split

theorem State.updPin_ok {κ : Keep} (s : State) (n : Nat) (f : TrigPin → TrigPin) (hs : s.Kept κ) :
    State.Kept κ (State.updPin s n f) := by
  unfold State.updPin
  repeat' first | with_reducible assumption | (intro _) | with_reducible apply ok_ite | with_reducible apply State.put_ok | fail_if_no_progress (with_reducible apply State.mk_ok) | split

theorem State.updPulse_ok {κ : Keep} (s : State) (n : Nat) (f : Pulse → Pulse) (hs : s.Kept κ) :
    State.Kept κ (State.updPulse s n f) := by
  unfold State.updPulse
  repeat' first | with_reducible assumption | (intro _) | with_reducible apply ok_ite | with_reducible apply State.put_ok | fail_if_no_progress (with_reducible apply State.mk_ok) | split

theorem State.updFlight_ok {κ : Keep} (s : State) (n : Nat) (f : Flight → Flight) (hs : s.Kept κ) :
    State.Kept κ (State.updFlight s n f) := by
  unfold State.updFlight
  repeat' first | with_reducible assumption | (intro _) | with_reducible apply ok_ite | with_reducible apply State.put_ok | fail_if_no_progress (with_reducible apply State.mk_ok) | split

theorem State.updSg_ok {κ : Keep} (s : State) (n : Nat) (f : Sg → Sg) (hs : s.Kept κ) :
    State.Kept κ (State.updSg s n f) := by
  unfold State.updSg
  repeat' first | with_reducible assumption | (intro _) | with_reducible apply ok_ite | with_reducible apply State.put_ok | fail_if_no_progress (with_reducible apply State.mk_ok) | split

theorem State.updLane_ok {κ : Keep} (s : State) (n : Nat) (f : Lane → Lane) (hs : s.Kept κ) :
    State.Kept κ (State.updLane s n f) := by
  unfold State.updLane
  repeat' first | with_reducible assumption | (intro _) | with_reducible apply ok_ite | with_reducible apply State.put_ok | fail_if_no_progress (with_reducible apply State.mk_ok) | split

theorem State.updVc_ok {κ : Keep} (s : State) (n : Nat) (f : Vc → Vc) (hs : s.Kept κ) :
    State.Kept κ (State.updVc s n f) := by
  unfold State.updVc
  repeat' first | with_reducible assumption | (intro _) | with_reducible apply ok_ite | with_reducible apply State.put_ok | fail_if_no_progress (with_reducible apply State.mk_ok) | split

theorem State.updTdc_ok {κ : Keep} (s : State) (n : Nat) (f : Tdc → Tdc) (hs : s.Kept κ) :
    State.Kept κ (State.updTdc s n f) := by
  unfold State.updTdc
  repeat' first | with_reducible assumption | (intro _) | with_reducible apply ok_ite | with_reducible apply State.put_ok | fail_if_no_progress (with_reducible apply State.mk_ok) | split

end Machine
end Sys2Proof
end

