-- ==== Sys2Proof/Laws/OkStreams.lean ====
section
/-!
SUPPORT. The canonical form is kept by every operation of Machine/Streams.lean.
-/

namespace Sys2Proof
namespace Machine

theorem State.closeFill_ok {κ : Keep} (s : State) (p : Nat) (hs : s.Kept κ) :
    State.Kept κ (State.closeFill s p) := by
  unfold State.closeFill
  repeat' first | with_reducible assumption | exact fun _ h => h | exact fun _ h => Mem.writes_wf _ _ _ _ h | exact fun _ _ => rfl | (intro _) | with_reducible apply ok_ite | extract_lets | with_reducible apply State.updPound_ok | fail_if_no_progress (with_reducible apply State.mk_ok) | split | dsimp +zetaDelta only | with_reducible apply ok_ite_snd | with_reducible apply ok_ite_fst | with_reducible apply id_ok

theorem State.poundTake_ok {κ : Keep} (s : State) (p num : Nat) (x : Int × Int) (stamp next qual : Nat) (hs : s.Kept κ) :
    State.Kept κ (State.poundTake s p num x stamp next qual) := by
  unfold State.poundTake
  repeat' first | with_reducible assumption | exact fun _ h => h | exact fun _ h => Mem.writes_wf _ _ _ _ h | exact fun _ _ => rfl | (intro _) | with_reducible apply ok_ite | extract_lets | with_reducible apply State.updPound_ok | with_reducible apply State.closeFill_ok | fail_if_no_progress (with_reducible apply State.mk_ok) | split | dsimp +zetaDelta only

theorem State.flushPoundMarks_ok {κ : Keep} (s : State) (p : Nat) (hs : s.Kept κ) :
    State.Kept κ (State.flushPoundMarks s p) := by
  unfold State.flushPoundMarks
  repeat' first | with_reducible assumption | exact fun _ h => h | exact fun _ h => Mem.writes_wf _ _ _ _ h | exact fun _ _ => rfl | (intro _) | with_reducible apply ok_ite | with_reducible apply State.updPound_ok | fail_if_no_progress (with_reducible apply State.mk_ok) | split

theorem State.poundStep_ok {κ : Keep} (s : State) (p : Nat) (m : Barge) (hs : s.Kept κ) :
    State.Kept κ (State.poundStep s p m) := by
  unfold State.poundStep
  repeat' first | with_reducible assumption | exact fun _ h => h | exact fun _ h => Mem.writes_wf _ _ _ _ h | exact fun _ _ => rfl | (intro _) | with_reducible apply ok_ite | extract_lets | with_reducible apply State.updPound_ok | with_reducible apply State.closeFill_ok | fail_if_no_progress (with_reducible apply State.mk_ok) | split | dsimp +zetaDelta only | with_reducible apply ok_ite_snd | with_reducible apply ok_ite_fst | with_reducible apply id_ok

theorem State.reachSteps_ok {κ : Keep} (s : State) (src num : Nat) (hs : s.Kept κ) :
    State.Kept κ (State.reachSteps s src num) := by
  unfold State.reachSteps
  repeat' first | with_reducible assumption | (intro _) | with_reducible apply ok_ite | extract_lets | with_reducible apply State.updSource_ok | with_reducible apply State.poundStep_ok | with_reducible apply foldl_ok | with_reducible apply foldl_ok_fst | with_reducible apply foldl_ok_snd | fail_if_no_progress (with_reducible apply State.mk_ok) | split | dsimp +zetaDelta only | with_reducible apply ok_ite_snd | with_reducible apply ok_ite_fst | with_reducible apply id_ok

theorem State.releaseSample_ok {κ : Keep} (s : State) (src num : Nat) (x : Int × Int) (stamp next : Nat) (hs : s.Kept κ) :
    State.Kept κ (State.releaseSample s src num x stamp next) := by
  unfold State.releaseSample
  repeat' first | with_reducible assumption | (intro _) | with_reducible apply ok_ite | extract_lets | with_reducible apply State.updSource_ok | with_reducible apply State.poundTake_ok | with_reducible apply State.reachSteps_ok | with_reducible apply foldl_ok | with_reducible apply foldl_ok_fst | with_reducible apply foldl_ok_snd | fail_if_no_progress (with_reducible apply State.mk_ok) | split | dsimp +zetaDelta only

theorem State.pushSeq_ok {κ : Keep} (s : State) (q : Nat) (b : Barge) (n : Nat) (hs : s.Kept κ) :
    State.Kept κ (State.pushSeq s q b n).2 := by
  unfold State.pushSeq
  repeat' first | with_reducible assumption | with_reducible apply ok_ite_fst | with_reducible apply ok_ite_snd | fail_if_no_progress (with_reducible refine mk_ok_snd rfl ?_) | fail_if_no_progress (with_reducible refine mk_ok_fst rfl ?_) | fail_if_no_progress (with_reducible refine mk_ok_snd_snd rfl ?_) | (intro _) | with_reducible apply ok_ite | with_reducible apply State.push_ok | fail_if_no_progress (with_reducible apply State.mk_ok) | split

theorem State.emitPlanMark_ok {κ : Keep} (s : State) (p : Nat) (m : Barge) (hs : s.Kept κ) :
    State.Kept κ (State.emitPlanMark s p m) := by
  unfold State.emitPlanMark
  repeat' first | with_reducible assumption | (intro _) | with_reducible apply ok_ite | extract_lets | with_reducible apply State.updPlan_ok | with_reducible apply State.pushSeq_ok | fail_if_no_progress (with_reducible apply State.mk_ok) | split | dsimp +zetaDelta only | with_reducible apply ok_ite_snd | with_reducible apply ok_ite_fst | with_reducible apply id_ok

theorem State.emitEngineMark_ok {κ : Keep} (s : State) (e : Nat) (m : Barge) (hs : s.Kept κ) :
    State.Kept κ (State.emitEngineMark s e m) := by
  unfold State.emitEngineMark
  repeat' first | with_reducible assumption | (intro _) | with_reducible apply ok_ite | extract_lets | with_reducible apply State.put_ok | with_reducible apply State.updPlan_ok | with_reducible apply State.updEngine_ok | with_reducible apply State.pushSeq_ok | fail_if_no_progress (with_reducible apply State.mk_ok) | split | dsimp +zetaDelta only | with_reducible apply ok_ite_snd | with_reducible apply ok_ite_fst | with_reducible apply id_ok

theorem State.holdPlanMark_ok {κ : Keep} (s : State) (p : Nat) (m : Barge) (b : Option Nat) (hs : s.Kept κ) :
    State.Kept κ (State.holdPlanMark s p m b) := by
  unfold State.holdPlanMark
  repeat' first | with_reducible assumption | (intro _) | with_reducible apply ok_ite | extract_lets | with_reducible apply State.updPlan_ok | with_reducible apply State.updEngine_ok | with_reducible apply foldl_ok | with_reducible apply foldl_ok_fst | with_reducible apply foldl_ok_snd | fail_if_no_progress (with_reducible apply State.mk_ok) | split | dsimp +zetaDelta only

theorem State.stepsReached_ok {κ : Keep} (s : State) (p c : Nat) (hs : s.Kept κ) :
    State.Kept κ (State.stepsReached s p c) := by
  unfold State.stepsReached
  repeat' first | with_reducible assumption | (intro _) | with_reducible apply ok_ite | extract_lets | with_reducible apply State.updPlan_ok | with_reducible apply State.holdPlanMark_ok | with_reducible apply foldl_ok | with_reducible apply foldl_ok_fst | with_reducible apply foldl_ok_snd | fail_if_no_progress (with_reducible apply State.mk_ok) | split | dsimp +zetaDelta only | with_reducible apply ok_ite_snd | with_reducible apply ok_ite_fst | with_reducible apply id_ok

theorem State.flushPlanMarks_ok {κ : Keep} (s : State) (p : Nat) (hs : s.Kept κ) :
    State.Kept κ (State.flushPlanMarks s p) := by
  unfold State.flushPlanMarks
  repeat' first | with_reducible assumption | (intro _) | with_reducible apply ok_ite | extract_lets | with_reducible apply State.updPlan_ok | with_reducible apply State.updEngine_ok | with_reducible apply State.emitPlanMark_ok | with_reducible apply State.emitEngineMark_ok | with_reducible apply State.holdPlanMark_ok | with_reducible apply foldl_ok | with_reducible apply foldl_ok_fst | with_reducible apply foldl_ok_snd | fail_if_no_progress (with_reducible apply State.mk_ok) | split | dsimp +zetaDelta only | with_reducible apply ok_ite_snd | with_reducible apply ok_ite_fst | with_reducible apply id_ok

theorem State.markPlan_ok {κ : Keep} (s : State) (p : Nat) (m : Barge) (b : Option Nat) (hs : s.Kept κ) :
    State.Kept κ (State.markPlan s p m b) := by
  unfold State.markPlan
  repeat' first | with_reducible assumption | (intro _) | with_reducible apply ok_ite | extract_lets | with_reducible apply State.holdPlanMark_ok | with_reducible apply State.flushPlanMarks_ok | fail_if_no_progress (with_reducible apply State.mk_ok) | split | dsimp +zetaDelta only

theorem State.markPound_ok {κ : Keep} (s : State) (p : Nat) (m : Barge) (b : Option Nat) (hs : s.Kept κ) :
    State.Kept κ (State.markPound s p m b) := by
  unfold State.markPound
  repeat' first | with_reducible assumption | exact fun _ h => h | exact fun _ h => Mem.writes_wf _ _ _ _ h | exact fun _ _ => rfl | (intro _) | with_reducible apply ok_ite | extract_lets | with_reducible apply State.updPound_ok | with_reducible apply State.flushPoundMarks_ok | fail_if_no_progress (with_reducible apply State.mk_ok) | split | dsimp +zetaDelta only

theorem State.markSource_ok {κ : Keep} (s : State) (src : Nat) (m : Barge) (b : Option Nat) (hs : s.Kept κ) :
    State.Kept κ (State.markSource s src m b) := by
  unfold State.markSource
  repeat' first | with_reducible assumption | (intro _) | with_reducible apply ok_ite | extract_lets | with_reducible apply State.markPlan_ok | with_reducible apply State.markPound_ok | with_reducible apply foldl_ok | with_reducible apply foldl_ok_fst | with_reducible apply foldl_ok_snd | fail_if_no_progress (with_reducible apply State.mk_ok) | split | dsimp +zetaDelta only

theorem State.markAdc_ok {κ : Keep} (s : State) (n : Nat) (m : Barge) (hs : s.Kept κ) :
    State.Kept κ (State.markAdc s n m) := by
  unfold State.markAdc
  repeat' first | with_reducible assumption | (intro _) | with_reducible apply ok_ite | with_reducible apply State.markSource_ok | fail_if_no_progress (with_reducible apply State.mk_ok) | split

theorem State.stopSource_ok {κ : Keep} (s : State) (src cause unit stamp qual : Nat) (hs : s.Kept κ) :
    State.Kept κ (State.stopSource s src cause unit stamp qual) := by
  unfold State.stopSource
  repeat' first | with_reducible assumption | (intro _) | with_reducible apply ok_ite | extract_lets | with_reducible apply State.put_ok | with_reducible apply State.updSource_ok | with_reducible apply State.closeFill_ok | with_reducible apply State.markSource_ok | with_reducible apply foldl_ok | with_reducible apply foldl_ok_fst | with_reducible apply foldl_ok_snd | fail_if_no_progress (with_reducible apply State.mk_ok) | split | dsimp +zetaDelta only

end Machine
end Sys2Proof
end

