-- ==== Sys2Proof/Laws/OkDepend.lean ====
section
/-!
SUPPORT. The canonical form is kept by every operation of Machine/Depend.lean.
-/

namespace Sys2Proof
namespace Machine

theorem State.occur_ok {κ : Keep} (s : State) (o : Occ) (hs : s.Kept κ) :
    State.Kept κ (State.occur s o) := by
  unfold State.occur
  repeat' first | with_reducible assumption | (intro _) | with_reducible apply ok_ite | fail_if_no_progress (with_reducible apply State.mk_ok) | split

theorem State.evaluated_ok {κ : Keep} (s : State) (sel : Nat) (was now : Bool) (stamp qual : Nat) (hs : s.Kept κ) :
    State.Kept κ (State.evaluated s sel was now stamp qual) := by
  unfold State.evaluated
  repeat' first | with_reducible assumption | (intro _) | with_reducible apply ok_ite | with_reducible apply State.occur_ok | fail_if_no_progress (with_reducible apply State.mk_ok) | split

theorem State.eventOccur_ok {κ : Keep} (s : State) (sel stamp qual : Nat) (hs : s.Kept κ) :
    State.Kept κ (State.eventOccur s sel stamp qual) := by
  unfold State.eventOccur
  repeat' first | with_reducible assumption | (intro _) | with_reducible apply ok_ite | with_reducible apply State.occur_ok | fail_if_no_progress (with_reducible apply State.mk_ok) | split

theorem State.holdOn_ok {κ : Keep} (s : State) (units : List (Nat × Nat)) (hs : s.Kept κ) :
    State.Kept κ (State.holdOn s units) := by
  unfold State.holdOn
  repeat' first | with_reducible assumption | (intro _) | with_reducible apply ok_ite | with_reducible apply State.put_ok | with_reducible apply foldl_ok | with_reducible apply foldl_ok_fst | with_reducible apply foldl_ok_snd | fail_if_no_progress (with_reducible apply State.mk_ok) | split

theorem State.flightMark_ok {κ : Keep} (s : State) (f subtype stamp qual info : Nat) (hs : s.Kept κ) :
    State.Kept κ (State.flightMark s f subtype stamp qual info) := by
  unfold State.flightMark
  repeat' first | with_reducible assumption | (intro _) | with_reducible apply ok_ite | extract_lets | with_reducible apply State.push_ok | with_reducible apply State.updFlight_ok | with_reducible apply foldl_ok | with_reducible apply foldl_ok_fst | with_reducible apply foldl_ok_snd | fail_if_no_progress (with_reducible apply State.mk_ok) | split | dsimp +zetaDelta only

theorem State.toChamber0_ok {κ : Keep} (s : State) (f u : Nat) (hs : s.Kept κ) :
    State.Kept κ (State.toChamber0 s f u) := by
  unfold State.toChamber0
  repeat' first | with_reducible assumption | (intro _) | with_reducible apply ok_ite | extract_lets | with_reducible apply State.put_ok | with_reducible apply State.updFlight_ok | fail_if_no_progress (with_reducible apply State.mk_ok) | split | dsimp +zetaDelta only

theorem State.abortFlights_ok {κ : Keep} (s : State) (units : List (Nat × Nat)) (cause : Nat) (hs : s.Kept κ) :
    State.Kept κ (State.abortFlights s units cause) := by
  unfold State.abortFlights
  repeat' first | with_reducible assumption | (intro _) | with_reducible apply ok_ite | extract_lets | with_reducible apply State.raise_ok | with_reducible apply State.flightMark_ok | with_reducible apply State.toChamber0_ok | with_reducible apply foldl_ok | with_reducible apply foldl_ok_fst | with_reducible apply foldl_ok_snd | fail_if_no_progress (with_reducible apply State.mk_ok) | split | dsimp +zetaDelta only

theorem State.sgSchedule_ok {κ : Keep} (s : State) (g t floor : Nat) (hs : s.Kept κ) :
    State.Kept κ (State.sgSchedule s g t floor) := by
  unfold State.sgSchedule
  repeat' first | with_reducible assumption | (intro _) | with_reducible apply ok_ite | extract_lets | with_reducible apply State.updSg_ok | fail_if_no_progress (with_reducible apply State.mk_ok) | split | dsimp +zetaDelta only

theorem State.gpioFollow_ok {κ : Keep} (s : State) (fn sel : Nat) (high : Bool) (t : Nat) (hs : s.Kept κ) :
    State.Kept κ (State.gpioFollow s fn sel high t) := by
  unfold State.gpioFollow
  repeat' first | with_reducible assumption | (intro _) | with_reducible apply ok_ite | with_reducible apply State.send_ok | with_reducible apply foldl_ok | with_reducible apply foldl_ok_fst | with_reducible apply foldl_ok_snd | fail_if_no_progress (with_reducible apply State.mk_ok) | split

theorem State.markerEdge_ok {κ : Keep} (s : State) (g m : Nat) (rise : Bool) (t : Nat) (hs : s.Kept κ) :
    State.Kept κ (State.markerEdge s g m rise t) := by
  unfold State.markerEdge
  repeat' first | with_reducible assumption | (intro _) | with_reducible apply ok_ite | extract_lets | with_reducible apply State.send_ok | with_reducible apply State.updAdc_ok | with_reducible apply State.gpioFollow_ok | with_reducible apply foldl_ok | with_reducible apply foldl_ok_fst | with_reducible apply foldl_ok_snd | fail_if_no_progress (with_reducible apply State.mk_ok) | split | dsimp +zetaDelta only

theorem State.setMarkers_ok {κ : Keep} (s : State) (g : Nat) (ls : List Bool) (t : Nat) (hs : s.Kept κ) :
    State.Kept κ (State.setMarkers s g ls t) := by
  unfold State.setMarkers
  repeat' first | with_reducible assumption | (intro _) | with_reducible apply ok_ite | extract_lets | with_reducible apply State.updSg_ok | with_reducible apply State.markerEdge_ok | with_reducible apply foldl_ok | with_reducible apply foldl_ok_fst | with_reducible apply foldl_ok_snd | fail_if_no_progress (with_reducible apply State.mk_ok) | split | dsimp +zetaDelta only

theorem State.sgHalt_ok {κ : Keep} (s : State) (g last : Nat) (hs : s.Kept κ) :
    State.Kept κ (State.sgHalt s g last) := by
  unfold State.sgHalt
  repeat' first | with_reducible assumption | (intro _) | with_reducible apply ok_ite | extract_lets | with_reducible apply State.put_ok | with_reducible apply State.retireRef_ok | with_reducible apply State.updSg_ok | with_reducible apply State.setMarkers_ok | with_reducible apply foldl_ok | with_reducible apply foldl_ok_fst | with_reducible apply foldl_ok_snd | fail_if_no_progress (with_reducible apply State.mk_ok) | split | dsimp +zetaDelta only | with_reducible apply ok_ite_snd | with_reducible apply ok_ite_fst | with_reducible apply id_ok

theorem State.sgAbort_ok {κ : Keep} (s : State) (g cause : Nat) (hs : s.Kept κ) :
    State.Kept κ (State.sgAbort s g cause) := by
  unfold State.sgAbort
  repeat' first | with_reducible assumption | (intro _) | with_reducible apply ok_ite | extract_lets | with_reducible apply State.raiseAt_ok | with_reducible apply State.sgHalt_ok | fail_if_no_progress (with_reducible apply State.mk_ok) | split | dsimp +zetaDelta only

end Machine
end Sys2Proof
end

