-- ==== Sys2Proof/Laws/OkScan.lean ====
section
/-!
SUPPORT. The canonical form is kept by every operation of Machine/Scan.lean.
-/

namespace Sys2Proof
namespace Machine

theorem State.updHead_ok {κ : Keep} (s : State) (h : Nat) (f : Head → Head) (hs : s.Kept κ) :
    State.Kept κ (State.updHead s h f) := by
  unfold State.updHead
  repeat' first | with_reducible assumption | (intro _) | with_reducible apply ok_ite | with_reducible apply State.put_ok | fail_if_no_progress (with_reducible apply State.mk_ok) | split

theorem State.headsTrace_ok {κ : Keep} (s : State) (e : Nat) (tr : List (Option Int)) (hs : s.Kept κ) :
    State.Kept κ (State.headsTrace s e tr) := by
  unfold State.headsTrace
  repeat' first | with_reducible assumption | (intro _) | with_reducible apply ok_ite | extract_lets | with_reducible apply State.put_ok | with_reducible apply State.updHead_ok | with_reducible apply foldl_ok | with_reducible apply foldl_ok_fst | with_reducible apply foldl_ok_snd | fail_if_no_progress (with_reducible apply State.mk_ok) | split | dsimp +zetaDelta only

end Machine
end Sys2Proof
end

