-- ==== Sys2Proof/Laws/OkDetectors.lean ====
section
/-!
SUPPORT. The canonical form is kept by every operation of Machine/Detectors.lean.
-/

namespace Sys2Proof
namespace Machine

theorem State.beginTrace_ok {κ : Keep} (s : State) (e f : Nat) (hs : s.Kept κ) :
    State.Kept κ (State.beginTrace s e f) := by
  unfold State.beginTrace
  repeat' first | with_reducible assumption | (intro _) | with_reducible apply ok_ite | extract_lets | with_reducible apply State.updEngine_ok | fail_if_no_progress (with_reducible apply State.mk_ok) | split | dsimp +zetaDelta only

theorem State.emitEngineMarks_ok {κ : Keep} (s : State) (e t : Nat) (hs : s.Kept κ) :
    State.Kept κ (State.emitEngineMarks s e t) := by
  unfold State.emitEngineMarks
  repeat' first | with_reducible assumption | (intro _) | with_reducible apply ok_ite | extract_lets | with_reducible apply State.updEngine_ok | with_reducible apply State.emitEngineMark_ok | with_reducible apply foldl_ok | with_reducible apply foldl_ok_fst | with_reducible apply foldl_ok_snd | fail_if_no_progress (with_reducible apply State.mk_ok) | split | dsimp +zetaDelta only | with_reducible apply ok_ite_snd | with_reducible apply ok_ite_fst | with_reducible apply id_ok

theorem State.exportTrace_ok {κ : Keep} (s : State) (e : Nat) (b : Barge) (endStamp : Nat) (hs : s.Kept κ) :
    State.Kept κ (State.exportTrace s e b endStamp) := by
  unfold State.exportTrace
  repeat' first | with_reducible assumption | (intro _) | with_reducible apply ok_ite | extract_lets | with_reducible apply State.put_ok | with_reducible apply State.satInc_ok | with_reducible apply State.admitBarge_ok | with_reducible apply State.updPlan_ok | with_reducible apply State.updEngine_ok | with_reducible apply State.emitEngineMarks_ok | fail_if_no_progress (with_reducible apply State.mk_ok) | split | dsimp +zetaDelta only | with_reducible apply ok_ite_snd | with_reducible apply ok_ite_fst | with_reducible apply id_ok

theorem State.completeTrace_ok {κ : Keep} (s : State) (e f : Nat) (partly gapped : Bool) (hs : s.Kept κ) :
    State.Kept κ (State.completeTrace s e f partly gapped) := by
  unfold State.completeTrace
  repeat' first | with_reducible assumption | (intro _) | with_reducible apply ok_ite | extract_lets | with_reducible apply State.inc_ok | with_reducible apply State.updEngine_ok | with_reducible apply State.headsTrace_ok | with_reducible apply State.beginTrace_ok | with_reducible apply State.exportTrace_ok | with_reducible apply foldl_ok | with_reducible apply foldl_ok_fst | with_reducible apply foldl_ok_snd | fail_if_no_progress (with_reducible apply State.mk_ok) | split | dsimp +zetaDelta only | with_reducible apply ok_ite_snd | with_reducible apply ok_ite_fst | with_reducible apply id_ok

theorem State.accountFrame_ok {κ : Keep} (s : State) (e f : Nat) (taken : Bool) (hs : s.Kept κ) :
    State.Kept κ (State.accountFrame s e f taken) := by
  unfold State.accountFrame
  repeat' first | with_reducible assumption | (intro _) | with_reducible apply ok_ite | extract_lets | with_reducible apply State.updEngine_ok | with_reducible apply State.completeTrace_ok | fail_if_no_progress (with_reducible apply State.mk_ok) | split | dsimp +zetaDelta only

theorem State.engineSheet_ok {κ : Keep} (s : State) (sh : Sheet) (e : Nat) (hs : s.Kept κ) :
    State.Kept κ (State.engineSheet s sh e) := by
  unfold State.engineSheet
  repeat' first | with_reducible assumption | (intro _) | with_reducible apply ok_ite | extract_lets | with_reducible apply State.updEngine_ok | with_reducible apply State.accountFrame_ok | with_reducible apply foldl_ok | with_reducible apply foldl_ok_fst | with_reducible apply foldl_ok_snd | fail_if_no_progress (with_reducible apply State.mk_ok) | split | dsimp +zetaDelta only

theorem State.enginesMiss_ok {κ : Keep} (s : State) (p a b : Nat) (hs : s.Kept κ) :
    State.Kept κ (State.enginesMiss s p a b) := by
  unfold State.enginesMiss
  repeat' first | with_reducible assumption | (intro _) | with_reducible apply ok_ite | with_reducible apply State.accountFrame_ok | with_reducible apply foldl_ok | with_reducible apply foldl_ok_fst | with_reducible apply foldl_ok_snd | fail_if_no_progress (with_reducible apply State.mk_ok) | split

theorem State.engineStop_ok {κ : Keep} (s : State) (e : Nat) (gapped : Bool) (hs : s.Kept κ) :
    State.Kept κ (State.engineStop s e gapped) := by
  unfold State.engineStop
  repeat' first | with_reducible assumption | (intro _) | with_reducible apply ok_ite | extract_lets | with_reducible apply State.updEngine_ok | with_reducible apply State.emitEngineMark_ok | with_reducible apply State.completeTrace_ok | with_reducible apply foldl_ok | with_reducible apply foldl_ok_fst | with_reducible apply foldl_ok_snd | fail_if_no_progress (with_reducible apply State.mk_ok) | split | dsimp +zetaDelta only

theorem State.engineStart_ok {κ : Keep} (s : State) (e f : Nat) (hs : s.Kept κ) :
    State.Kept κ (State.engineStart s e f) := by
  unfold State.engineStart
  repeat' first | with_reducible assumption | (intro _) | with_reducible apply ok_ite | extract_lets | with_reducible apply State.updEngine_ok | with_reducible apply State.beginTrace_ok | fail_if_no_progress (with_reducible apply State.mk_ok) | split | dsimp +zetaDelta only

theorem State.restartHolds_ok {κ : Keep} (s : State) (p : Nat) (hs : s.Kept κ) :
    State.Kept κ (State.restartHolds s p) := by
  unfold State.restartHolds
  repeat' first | with_reducible assumption | (intro _) | with_reducible apply ok_ite | with_reducible apply State.updEngine_ok | with_reducible apply foldl_ok | with_reducible apply foldl_ok_fst | with_reducible apply foldl_ok_snd | fail_if_no_progress (with_reducible apply State.mk_ok) | split

theorem State.settleEngine_ok {κ : Keep} (s : State) (e : Nat) (hs : s.Kept κ) :
    State.Kept κ (State.settleEngine s e) := by
  unfold State.settleEngine
  repeat' first | with_reducible assumption | (intro _) | with_reducible apply ok_ite | extract_lets | with_reducible apply State.engineStop_ok | with_reducible apply State.engineStart_ok | fail_if_no_progress (with_reducible apply State.mk_ok) | split | dsimp +zetaDelta only

theorem State.writeDetCfg_ok {κ : Keep} (s : State) (e : Nat) (w : Word) (hs : s.Kept κ) :
    State.Kept κ (State.writeDetCfg s e w) := by
  unfold State.writeDetCfg
  repeat' first | with_reducible assumption | (intro _) | with_reducible apply ok_ite | extract_lets | with_reducible apply State.put_ok | with_reducible apply State.plainWrite_ok | with_reducible apply State.settleEngine_ok | with_reducible apply foldl_ok | with_reducible apply foldl_ok_fst | with_reducible apply foldl_ok_snd | fail_if_no_progress (with_reducible apply State.mk_ok) | split | dsimp +zetaDelta only

theorem State.holdReset_ok {κ : Keep} (s : State) (e : Nat) (hs : s.Kept κ) :
    State.Kept κ (State.holdReset s e) := by
  unfold State.holdReset
  repeat' first | with_reducible assumption | (intro _) | with_reducible apply ok_ite | with_reducible apply State.updEngine_ok | fail_if_no_progress (with_reducible apply State.mk_ok) | split

theorem execHoldReset_ok {κ : Keep} (p : Path) (e : Fin 32) (s : State) (hs : s.Kept κ) :
    OutOk κ (execHoldReset p e s) := by
  unfold execHoldReset
  repeat' first | with_reducible assumption | (intro _) | with_reducible apply OutOk.ite | with_reducible apply ok_ite | with_reducible apply State.gateAction_ok | with_reducible apply State.holdReset_ok | with_reducible apply OutOk.next | fail_if_no_progress (with_reducible apply State.mk_ok) | split

theorem State.writeDetCtl_ok {κ : Keep} (s : State) (e : Nat) (w : Word) (hs : s.Kept κ) :
    State.Kept κ (State.writeDetCtl s e w) := by
  unfold State.writeDetCtl
  repeat' first | with_reducible assumption | (intro _) | with_reducible apply ok_ite | extract_lets | with_reducible apply State.plainWrite_ok | with_reducible apply State.holdReset_ok | fail_if_no_progress (with_reducible apply State.mk_ok) | split | dsimp +zetaDelta only

theorem State.leaveTraces_ok {κ : Keep} (s : State) (p : Nat) (hs : s.Kept κ) :
    State.Kept κ (State.leaveTraces s p) := by
  unfold State.leaveTraces
  repeat' first | with_reducible assumption | (intro _) | with_reducible apply ok_ite | extract_lets | with_reducible apply State.put_ok | with_reducible apply State.updEngine_ok | with_reducible apply foldl_ok | with_reducible apply foldl_ok_fst | with_reducible apply foldl_ok_snd | fail_if_no_progress (with_reducible apply State.mk_ok) | split | dsimp +zetaDelta only | with_reducible apply ok_ite_snd | with_reducible apply ok_ite_fst | with_reducible apply id_ok

theorem execTraceQueued_ok {κ : Keep} (e : Fin 32) (s : State) (hs : s.Kept κ) :
    OutOk κ (execTraceQueued e s) := by
  unfold execTraceQueued
  repeat' first | with_reducible assumption | (intro _) | with_reducible apply OutOk.ite | with_reducible apply ok_ite | extract_lets | with_reducible apply State.put_ok | with_reducible apply State.admitBarge_ok | with_reducible apply State.push_ok | with_reducible apply State.updPlan_ok | with_reducible apply State.updEngine_ok | with_reducible apply State.emitEngineMark_ok | with_reducible apply foldl_ok | with_reducible apply foldl_ok_fst | with_reducible apply foldl_ok_snd | with_reducible apply OutOk.next | fail_if_no_progress (with_reducible apply State.mk_ok) | split | dsimp +zetaDelta only | with_reducible apply ok_ite_snd | with_reducible apply ok_ite_fst | with_reducible apply id_ok

end Machine
end Sys2Proof
end

