-- ==== Sys2Proof/Laws/OkReams.lean ====
section
/-!
SUPPORT. The canonical form is kept by every operation of Machine/Reams.lean.
-/

namespace Sys2Proof
namespace Machine

theorem State.addHome_ok {κ : Keep} (s : State) (m : Nat) (hits : List (Nat × Nat × Nat)) (hs : s.Kept κ) :
    State.Kept κ (State.addHome s m hits) := by
  unfold State.addHome
  repeat' first | with_reducible assumption | (intro _) | with_reducible apply ok_ite | extract_lets | with_reducible apply State.flagRaise_ok | with_reducible apply State.updReam_ok | with_reducible apply foldl_ok | with_reducible apply foldl_ok_fst | with_reducible apply foldl_ok_snd | fail_if_no_progress (with_reducible apply State.mk_ok) | split | dsimp +zetaDelta only | with_reducible apply ok_ite_snd | with_reducible apply ok_ite_fst | with_reducible apply id_ok

theorem State.noteDecay_ok {κ : Keep} (s : State) (m : Nat) (w : State) (hs : s.Kept κ) (hw : w.Kept κ) :
    State.Kept κ (State.noteDecay s m w) := by
  unfold State.noteDecay
  repeat' first | with_reducible assumption | (intro _) | with_reducible apply ok_ite | extract_lets | with_reducible apply State.updReam_ok | fail_if_no_progress (with_reducible apply State.mk_ok) | split | dsimp +zetaDelta only

theorem State.writeReamDecay_ok {κ : Keep} (s : State) (m : Nat) (w : Word) (hs : s.Kept κ) :
    State.Kept κ (State.writeReamDecay s m w) := by
  unfold State.writeReamDecay
  repeat' first | with_reducible assumption | (intro _) | with_reducible apply ok_ite | with_reducible apply State.plainWrite_ok | with_reducible apply State.noteDecay_ok | fail_if_no_progress (with_reducible apply State.mk_ok) | split

theorem State.gatherHits_ok {κ : Keep} (s : State) (m c : Nat) (hs : s.Kept κ) :
    State.Kept κ (State.gatherHits s m c) := by
  unfold State.gatherHits
  repeat' first | with_reducible assumption | (intro _) | with_reducible apply ok_ite | extract_lets | with_reducible apply State.updReam_ok | with_reducible apply State.addHome_ok | with_reducible apply foldl_ok | with_reducible apply foldl_ok_fst | with_reducible apply foldl_ok_snd | fail_if_no_progress (with_reducible apply State.mk_ok) | split | dsimp +zetaDelta only | with_reducible apply ok_ite_snd | with_reducible apply ok_ite_fst | with_reducible apply id_ok

theorem State.decayOnce_ok {κ : Keep} (s : State) (m : Nat) (hs : s.Kept κ) :
    State.Kept κ (State.decayOnce s m) := by
  unfold State.decayOnce
  repeat' first | with_reducible assumption | (intro _) | with_reducible apply ok_ite | extract_lets | with_reducible apply State.updReam_ok | with_reducible apply State.gatherHits_ok | fail_if_no_progress (with_reducible apply State.mk_ok) | split | dsimp +zetaDelta only | with_reducible apply ok_ite_snd | with_reducible apply ok_ite_fst | with_reducible apply id_ok

theorem State.decayTo_ok {κ : Keep} (s : State) (m c : Nat) (n_ : Nat) (hs : s.Kept κ) :
    State.Kept κ (State.decayTo s m c n_) := by
  induction n_ generalizing s m c with
  | zero =>
    unfold State.decayTo
    repeat' first | with_reducible assumption | with_reducible apply ih | (intro _) | with_reducible apply ok_ite | with_reducible apply State.decayOnce_ok | fail_if_no_progress (with_reducible apply State.mk_ok) | split
  | succ n ih =>
    unfold State.decayTo
    repeat' first | with_reducible assumption | with_reducible apply ih | (intro _) | with_reducible apply ok_ite | with_reducible apply State.decayOnce_ok | fail_if_no_progress (with_reducible apply State.mk_ok) | split

theorem State.homeAt_ok {κ : Keep} (s : State) (m c : Nat) (hs : s.Kept κ) :
    State.Kept κ (State.homeAt s m c) := by
  unfold State.homeAt
  repeat' first | with_reducible assumption | (intro _) | with_reducible apply ok_ite | extract_lets | with_reducible apply State.gatherHits_ok | with_reducible apply State.decayTo_ok | fail_if_no_progress (with_reducible apply State.mk_ok) | split | dsimp +zetaDelta only

theorem State.headView_ok {κ : Keep} (s : State) (m : Nat) (d : Nat × Nat) (hs : s.Kept κ) :
    State.Kept κ (State.headView s m d) := by
  unfold State.headView
  repeat' first | with_reducible assumption | (intro _) | with_reducible apply ok_ite | extract_lets | with_reducible apply State.updReam_ok | with_reducible apply State.updHead_ok | with_reducible apply State.homeAt_ok | fail_if_no_progress (with_reducible apply State.mk_ok) | split | dsimp +zetaDelta only | with_reducible apply ok_ite_snd | with_reducible apply ok_ite_fst | with_reducible apply id_ok

theorem State.settleTo_ok {κ : Keep} (s : State) (m c : Nat) (hs : s.Kept κ) :
    State.Kept κ (State.settleTo s m c) := by
  unfold State.settleTo
  repeat' first | with_reducible assumption | (intro _) | with_reducible apply ok_ite | with_reducible apply State.homeAt_ok | with_reducible apply State.headView_ok | with_reducible apply foldl_ok | with_reducible apply foldl_ok_fst | with_reducible apply foldl_ok_snd | fail_if_no_progress (with_reducible apply State.mk_ok) | split | with_reducible apply ok_ite_snd | with_reducible apply ok_ite_fst | with_reducible apply id_ok

theorem State.viewsDue_ok {κ : Keep} (s : State) (m : Nat) (hs : s.Kept κ) :
    State.Kept κ (State.viewsDue s m) := by
  unfold State.viewsDue
  repeat' first | with_reducible assumption | (intro _) | with_reducible apply ok_ite | extract_lets | with_reducible apply State.settleTo_ok | with_reducible apply foldl_ok | with_reducible apply foldl_ok_fst | with_reducible apply foldl_ok_snd | fail_if_no_progress (with_reducible apply State.mk_ok) | split | dsimp +zetaDelta only | with_reducible apply ok_ite_snd | with_reducible apply ok_ite_fst | with_reducible apply id_ok

theorem execDecayInstant_ok {κ : Keep} (m : Fin 8) (s : State) (hs : s.Kept κ) :
    OutOk κ (execDecayInstant m s) := by
  unfold execDecayInstant
  repeat' first | with_reducible assumption | (intro _) | with_reducible apply OutOk.ite | with_reducible apply ok_ite | extract_lets | with_reducible apply State.decayOnce_ok | with_reducible apply State.viewsDue_ok | with_reducible apply OutOk.next | fail_if_no_progress (with_reducible apply State.mk_ok) | split | dsimp +zetaDelta only | with_reducible apply ok_ite_snd | with_reducible apply ok_ite_fst | with_reducible apply id_ok

theorem State.flushTile_ok {κ : Keep} (s : State) (m tile lane : Nat) (hs : s.Kept κ) :
    State.Kept κ (State.flushTile s m tile lane) := by
  unfold State.flushTile
  repeat' first | with_reducible assumption | (intro _) | with_reducible apply ok_ite | extract_lets | with_reducible apply State.put_ok | with_reducible apply State.updReam_ok | with_reducible apply State.addHome_ok | fail_if_no_progress (with_reducible apply State.mk_ok) | split | dsimp +zetaDelta only | with_reducible apply ok_ite_snd | with_reducible apply ok_ite_fst | with_reducible apply id_ok

theorem State.reamUe_ok {κ : Keep} (s : State) (m tile : Nat) (hs : s.Kept κ) :
    State.Kept κ (State.reamUe s m tile) := by
  unfold State.reamUe
  repeat' first | with_reducible assumption | (intro _) | with_reducible apply ok_ite | extract_lets | with_reducible apply State.put_ok | with_reducible apply State.raiseWith_ok | with_reducible apply State.updReam_ok | fail_if_no_progress (with_reducible apply State.mk_ok) | split | dsimp +zetaDelta only | with_reducible apply ok_ite_snd | with_reducible apply ok_ite_fst | with_reducible apply id_ok

theorem execTileFlush_ok {κ : Keep} (m : Fin 8) (tile : Fin 2048) (l : Fin 18) (ue : Bool) (s : State) (hs : s.Kept κ) :
    OutOk κ (execTileFlush m tile l ue s) := by
  unfold execTileFlush
  repeat' first | with_reducible assumption | (intro _) | with_reducible apply OutOk.ite | with_reducible apply ok_ite | extract_lets | with_reducible apply State.flushTile_ok | with_reducible apply State.reamUe_ok | with_reducible apply OutOk.next | fail_if_no_progress (with_reducible apply State.mk_ok) | split | dsimp +zetaDelta only

theorem execTileReadRequest_ok {κ : Keep} (m : Fin 8) (tile : Fin 2048) (cut : Nat) (s : State) (hs : s.Kept κ) :
    OutOk κ (execTileReadRequest m tile cut s) := by
  unfold execTileReadRequest
  repeat' first | with_reducible assumption | (intro _) | with_reducible apply OutOk.ite | with_reducible apply ok_ite | extract_lets | with_reducible apply State.updReam_ok | with_reducible apply OutOk.next | fail_if_no_progress (with_reducible apply State.mk_ok) | split | dsimp +zetaDelta only | with_reducible apply ok_ite_snd | with_reducible apply ok_ite_fst | with_reducible apply id_ok

theorem execSnoopReply_ok {κ : Keep} (m : Fin 8) (tile : Fin 2048) (l : Fin 18) (s : State) (hs : s.Kept κ) :
    OutOk κ (execSnoopReply m tile l s) := by
  unfold execSnoopReply
  repeat' first | with_reducible assumption | (intro _) | with_reducible apply OutOk.ite | with_reducible apply ok_ite | extract_lets | with_reducible apply State.put_ok | with_reducible apply State.updReam_ok | with_reducible apply State.addHome_ok | with_reducible apply foldl_ok | with_reducible apply foldl_ok_fst | with_reducible apply foldl_ok_snd | with_reducible apply OutOk.next | fail_if_no_progress (with_reducible apply State.mk_ok) | split | dsimp +zetaDelta only | with_reducible apply ok_ite_snd | with_reducible apply ok_ite_fst | with_reducible apply id_ok

theorem State.strike_ok {κ : Keep} (s : State) (m lane : Nat) (h : Nat × Nat × Nat) (hs : s.Kept κ) :
    State.Kept κ (State.strike s m lane h) := by
  unfold State.strike
  repeat' first | with_reducible assumption | (intro _) | with_reducible apply ok_ite | extract_lets | with_reducible apply State.put_ok | with_reducible apply State.updReam_ok | with_reducible apply State.flushTile_ok | with_reducible apply foldl_ok | with_reducible apply foldl_ok_fst | with_reducible apply foldl_ok_snd | fail_if_no_progress (with_reducible apply State.mk_ok) | split | dsimp +zetaDelta only | with_reducible apply ok_ite_snd | with_reducible apply ok_ite_fst | with_reducible apply id_ok

theorem State.reamSheet_ok {κ : Keep} (s : State) (sh : Sheet) (m : Nat) (hs : s.Kept κ) :
    State.Kept κ (State.reamSheet s sh m).1 := by
  unfold State.reamSheet
  repeat' first | with_reducible assumption | with_reducible apply ok_ite_fst | with_reducible apply ok_ite_snd | fail_if_no_progress (with_reducible refine mk_ok_snd rfl ?_) | fail_if_no_progress (with_reducible refine mk_ok_fst rfl ?_) | fail_if_no_progress (with_reducible refine mk_ok_snd_snd rfl ?_) | (intro _) | with_reducible apply ok_ite | extract_lets | with_reducible apply State.satInc_ok | with_reducible apply State.strike_ok | with_reducible apply foldl_ok | with_reducible apply foldl_ok_fst | with_reducible apply foldl_ok_snd | fail_if_no_progress (with_reducible apply State.mk_ok) | split | dsimp +zetaDelta only | with_reducible apply ok_ite_snd | with_reducible apply ok_ite_fst | with_reducible apply id_ok

theorem State.setZone_ok {κ : Keep} (s : State) (z : Nat) (now : Bool) (stamp qual : Nat) (hs : s.Kept κ) :
    State.Kept κ (State.setZone s z now stamp qual) := by
  unfold State.setZone
  repeat' first | with_reducible assumption | (intro _) | with_reducible apply ok_ite | extract_lets | with_reducible apply State.put_ok | with_reducible apply State.inc_ok | with_reducible apply State.evaluated_ok | fail_if_no_progress (with_reducible apply State.mk_ok) | split | dsimp +zetaDelta only

theorem State.zoneLatch_ok {κ : Keep} (s : State) (p z : Nat) (hs : s.Kept κ) :
    State.Kept κ (State.zoneLatch s p z) := by
  unfold State.zoneLatch
  repeat' first | with_reducible assumption | (intro _) | with_reducible apply ok_ite | extract_lets | with_reducible apply State.put_ok | with_reducible apply State.updZone_ok | fail_if_no_progress (with_reducible apply State.mk_ok) | split | dsimp +zetaDelta only

theorem State.zoneSheet_ok {κ : Keep} (s : State) (sh : Sheet) (cells : List Nat) (z : Nat) (hs : s.Kept κ) :
    State.Kept κ (State.zoneSheet s sh cells z) := by
  unfold State.zoneSheet
  repeat' first | with_reducible assumption | (intro _) | with_reducible apply ok_ite | extract_lets | with_reducible apply State.put_ok | with_reducible apply State.updZone_ok | with_reducible apply State.setZone_ok | fail_if_no_progress (with_reducible apply State.mk_ok) | split | dsimp +zetaDelta only

theorem State.zonesMiss_ok {κ : Keep} (s : State) (p : Nat) (hs : s.Kept κ) :
    State.Kept κ (State.zonesMiss s p) := by
  unfold State.zonesMiss
  repeat' first | with_reducible assumption | (intro _) | with_reducible apply ok_ite | with_reducible apply State.put_ok | with_reducible apply State.updZone_ok | with_reducible apply foldl_ok | with_reducible apply foldl_ok_fst | with_reducible apply foldl_ok_snd | fail_if_no_progress (with_reducible apply State.mk_ok) | split

theorem State.zoneFalls_ok {κ : Keep} (s : State) (z : Nat) (hs : s.Kept κ) :
    State.Kept κ (State.zoneFalls s z) := by
  unfold State.zoneFalls
  repeat' first | with_reducible assumption | (intro _) | with_reducible apply ok_ite | with_reducible apply State.fresh_ok | with_reducible apply State.setZone_ok | fail_if_no_progress (with_reducible apply State.mk_ok) | split | with_reducible apply ok_ite_snd | with_reducible apply ok_ite_fst | with_reducible apply id_ok

theorem State.settleZones_ok {κ : Keep} (s : State) (hs : s.Kept κ) :
    State.Kept κ (State.settleZones s) := by
  unfold State.settleZones
  repeat' first | with_reducible assumption | (intro _) | with_reducible apply ok_ite | extract_lets | with_reducible apply State.put_ok | with_reducible apply State.updZone_ok | with_reducible apply State.zoneFalls_ok | with_reducible apply foldl_ok | with_reducible apply foldl_ok_fst | with_reducible apply foldl_ok_snd | fail_if_no_progress (with_reducible apply State.mk_ok) | split | dsimp +zetaDelta only

theorem State.writeZone_ok {κ : Keep} (s : State) (z key : Nat) (w : Word) (hs : s.Kept κ) :
    State.Kept κ (State.writeZone s z key w) := by
  unfold State.writeZone
  repeat' first | with_reducible assumption | (intro _) | with_reducible apply ok_ite | extract_lets | with_reducible apply State.plainWrite_ok | with_reducible apply State.updZone_ok | fail_if_no_progress (with_reducible apply State.mk_ok) | split | dsimp +zetaDelta only

theorem State.reamsSheet_ok {κ : Keep} (s : State) (sh : Sheet) (mask : Nat) (hs : s.Kept κ) :
    State.Kept κ (State.reamsSheet s sh mask) := by
  unfold State.reamsSheet
  repeat' first | with_reducible assumption | (intro _) | with_reducible apply ok_ite | extract_lets | with_reducible apply State.reamSheet_ok | with_reducible apply State.zoneLatch_ok | with_reducible apply State.zoneSheet_ok | with_reducible apply State.settleZones_ok | with_reducible apply foldl_ok | with_reducible apply foldl_ok_fst | with_reducible apply foldl_ok_snd | fail_if_no_progress (with_reducible apply State.mk_ok) | split | dsimp +zetaDelta only | with_reducible apply ok_ite_snd | with_reducible apply ok_ite_fst | with_reducible apply id_ok

theorem State.addCut_ok {κ : Keep} (s : State) (m : Nat) (c : ReamCut) (hs : s.Kept κ) :
    State.Kept κ (State.addCut s m c) := by
  unfold State.addCut
  repeat' first | with_reducible assumption | (intro _) | with_reducible apply ok_ite | with_reducible apply State.updReam_ok | fail_if_no_progress (with_reducible apply State.mk_ok) | split

theorem State.newCut_ok {κ : Keep} (s : State) (m : Nat) (c : ReamCut) (hs : s.Kept κ) :
    State.Kept κ (State.newCut s m c) := by
  unfold State.newCut
  repeat' first | with_reducible assumption | (intro _) | with_reducible apply ok_ite | with_reducible apply State.updReam_ok | with_reducible apply State.addCut_ok | fail_if_no_progress (with_reducible apply State.mk_ok) | split

theorem State.reamOrder_ok {κ : Keep} (s : State) (o : Order) (c : ReamCut) (hs : s.Kept κ) :
    State.Kept κ (State.reamOrder s o c) := by
  unfold State.reamOrder
  repeat' first | with_reducible assumption | (intro _) | with_reducible apply ok_ite | extract_lets | with_reducible apply State.gate_ok | with_reducible apply State.updOrder_ok | with_reducible apply State.retire_ok | with_reducible apply State.newCut_ok | fail_if_no_progress (with_reducible apply State.mk_ok) | split | dsimp +zetaDelta only

theorem State.reamSnapshotAccept_ok {κ : Keep} (o : Order) (s : State) (hs : s.Kept κ) :
    State.Kept κ (State.reamSnapshotAccept o s) := by
  unfold State.reamSnapshotAccept
  repeat' first | with_reducible assumption | (intro _) | with_reducible apply ok_ite | with_reducible apply State.validate_ok | with_reducible apply State.reamOrder_ok | fail_if_no_progress (with_reducible apply State.mk_ok) | split

theorem execReamSnapshot_ok {κ : Keep} (s : State) (hs : s.Kept κ) :
    OutOk κ (execReamSnapshot s) := by
  unfold execReamSnapshot
  repeat' first | with_reducible assumption | (intro _) | with_reducible apply OutOk.ite | with_reducible apply ok_ite | with_reducible apply State.accept_ok | with_reducible apply State.reamSnapshotAccept_ok | with_reducible apply OutOk.next | fail_if_no_progress (with_reducible apply State.mk_ok) | split

theorem State.reamClearAccept_ok {κ : Keep} (o : Order) (s : State) (hs : s.Kept κ) :
    State.Kept κ (State.reamClearAccept o s) := by
  unfold State.reamClearAccept
  repeat' first | with_reducible assumption | (intro _) | with_reducible apply ok_ite | with_reducible apply State.validate_ok | with_reducible apply State.reamOrder_ok | fail_if_no_progress (with_reducible apply State.mk_ok) | split

theorem execReamClear_ok {κ : Keep} (s : State) (hs : s.Kept κ) :
    OutOk κ (execReamClear s) := by
  unfold execReamClear
  repeat' first | with_reducible assumption | (intro _) | with_reducible apply OutOk.ite | with_reducible apply ok_ite | with_reducible apply State.accept_ok | with_reducible apply State.reamClearAccept_ok | with_reducible apply OutOk.next | fail_if_no_progress (with_reducible apply State.mk_ok) | split

theorem State.reamCtlClear_ok {κ : Keep} (s : State) (m : Nat) (hs : s.Kept κ) :
    State.Kept κ (State.reamCtlClear s m) := by
  unfold State.reamCtlClear
  repeat' first | with_reducible assumption | (intro _) | with_reducible apply ok_ite | with_reducible apply State.newCut_ok | fail_if_no_progress (with_reducible apply State.mk_ok) | split

theorem execReamCtlClear_ok {κ : Keep} (p : Path) (m : Fin 8) (s : State) (hs : s.Kept κ) :
    OutOk κ (execReamCtlClear p m s) := by
  unfold execReamCtlClear
  repeat' first | with_reducible assumption | (intro _) | with_reducible apply OutOk.ite | with_reducible apply ok_ite | with_reducible apply State.gateAction_ok | with_reducible apply State.reamCtlClear_ok | with_reducible apply OutOk.next | fail_if_no_progress (with_reducible apply State.mk_ok) | split

theorem State.reamGate_ok {κ : Keep} (s : State) (m gate fired : Nat) (hs : s.Kept κ) :
    State.Kept κ (State.reamGate s m gate fired) := by
  unfold State.reamGate
  repeat' first | with_reducible assumption | (intro _) | with_reducible apply ok_ite | extract_lets | with_reducible apply State.gate_ok | with_reducible apply State.updOrder_ok | with_reducible apply State.updReam_ok | with_reducible apply State.addCut_ok | with_reducible apply foldl_ok | with_reducible apply foldl_ok_fst | with_reducible apply foldl_ok_snd | fail_if_no_progress (with_reducible apply State.mk_ok) | split | dsimp +zetaDelta only

theorem State.applyClears_ok {κ : Keep} (s : State) (m : Nat) (n_ : Nat) (hs : s.Kept κ) :
    State.Kept κ (State.applyClears s m n_) := by
  induction n_ generalizing s m with
  | zero =>
    unfold State.applyClears
    repeat' first | with_reducible assumption | with_reducible apply ih | (intro _) | with_reducible apply ok_ite | extract_lets | with_reducible apply State.updReam_ok | with_reducible apply State.settleTo_ok | fail_if_no_progress (with_reducible apply State.mk_ok) | split | dsimp +zetaDelta only
  | succ n ih =>
    unfold State.applyClears
    repeat' first | with_reducible assumption | with_reducible apply ih | (intro _) | with_reducible apply ok_ite | extract_lets | with_reducible apply State.updReam_ok | with_reducible apply State.settleTo_ok | fail_if_no_progress (with_reducible apply State.mk_ok) | split | dsimp +zetaDelta only

theorem State.settleReams_ok {κ : Keep} (s : State) (hs : s.Kept κ) :
    State.Kept κ (State.settleReams s) := by
  unfold State.settleReams
  repeat' first | with_reducible assumption | (intro _) | with_reducible apply ok_ite | with_reducible apply State.applyClears_ok | with_reducible apply foldl_ok | with_reducible apply foldl_ok_fst | with_reducible apply foldl_ok_snd | fail_if_no_progress (with_reducible apply State.mk_ok) | split

theorem State.settleSnapBusy_ok {κ : Keep} (s : State) (m : Nat) (hs : s.Kept κ) :
    State.Kept κ (State.settleSnapBusy s m) := by
  unfold State.settleSnapBusy
  repeat' first | with_reducible assumption | (intro _) | with_reducible apply ok_ite | with_reducible apply State.put_ok | fail_if_no_progress (with_reducible apply State.mk_ok) | split

theorem execReamCut_ok {κ : Keep} (m : Fin 8) (s : State) (hs : s.Kept κ) :
    OutOk κ (execReamCut m s) := by
  unfold execReamCut
  repeat' first | with_reducible assumption | (intro _) | with_reducible apply OutOk.ite | with_reducible apply ok_ite | extract_lets | with_reducible apply State.updOrder_ok | with_reducible apply State.retireWith_ok | with_reducible apply State.updReam_ok | with_reducible apply State.applyClears_ok | with_reducible apply State.settleSnapBusy_ok | with_reducible apply OutOk.next | fail_if_no_progress (with_reducible apply State.mk_ok) | split | dsimp +zetaDelta only

theorem State.takeImage_ok {κ : Keep} (s : State) (m : Nat) (c : ReamCut) (bad : List (Fin 2048)) (hs : s.Kept κ) :
    State.Kept κ (State.takeImage s m c bad) := by
  unfold State.takeImage
  repeat' first | with_reducible assumption | (intro _) | with_reducible apply ok_ite | extract_lets | with_reducible apply State.updReam_ok | with_reducible apply State.settleTo_ok | with_reducible apply State.reamUe_ok | with_reducible apply foldl_ok | with_reducible apply foldl_ok_fst | with_reducible apply foldl_ok_snd | fail_if_no_progress (with_reducible apply State.mk_ok) | split | dsimp +zetaDelta only

theorem State.snapSteps_ok {κ : Keep} (s : State) (m : Nat) (c : ReamCut) (hs : s.Kept κ) :
    State.Kept κ (State.snapSteps s m c) := by
  unfold State.snapSteps
  repeat' first | with_reducible assumption | (intro _) | with_reducible apply ok_ite | extract_lets | with_reducible apply State.push_ok | with_reducible apply State.updReam_ok | with_reducible apply foldl_ok | with_reducible apply foldl_ok_fst | with_reducible apply foldl_ok_snd | fail_if_no_progress (with_reducible apply State.mk_ok) | split | dsimp +zetaDelta only | with_reducible apply ok_ite_snd | with_reducible apply ok_ite_fst | with_reducible apply id_ok

theorem State.snapDone_ok {κ : Keep} (s : State) (m : Nat) (c : ReamCut) (hs : s.Kept κ) :
    State.Kept κ (State.snapDone s m c) := by
  unfold State.snapDone
  repeat' first | with_reducible assumption | (intro _) | with_reducible apply ok_ite | extract_lets | with_reducible apply State.retireWith_ok | with_reducible apply State.updReam_ok | with_reducible apply State.settleSnapBusy_ok | fail_if_no_progress (with_reducible apply State.mk_ok) | split | dsimp +zetaDelta only

theorem State.writeSnap_ok {κ : Keep} (s : State) (m : Nat) (n_ : Nat) (hs : s.Kept κ) :
    State.Kept κ (State.writeSnap s m n_) := by
  induction n_ generalizing s m with
  | zero =>
    unfold State.writeSnap
    repeat' first | with_reducible assumption | with_reducible apply ih | (intro _) | with_reducible apply ok_ite | extract_lets | with_reducible apply State.admitBarge_ok | with_reducible apply State.updReam_ok | with_reducible apply State.snapSteps_ok | with_reducible apply State.snapDone_ok | fail_if_no_progress (with_reducible apply State.mk_ok) | split | dsimp +zetaDelta only | with_reducible apply ok_ite_snd | with_reducible apply ok_ite_fst | with_reducible apply id_ok
  | succ n ih =>
    unfold State.writeSnap
    repeat' first | with_reducible assumption | with_reducible apply ih | (intro _) | with_reducible apply ok_ite | extract_lets | with_reducible apply State.admitBarge_ok | with_reducible apply State.updReam_ok | with_reducible apply State.snapSteps_ok | with_reducible apply State.snapDone_ok | fail_if_no_progress (with_reducible apply State.mk_ok) | split | dsimp +zetaDelta only | with_reducible apply ok_ite_snd | with_reducible apply ok_ite_fst | with_reducible apply id_ok

theorem State.imagesDue_ok {κ : Keep} (s : State) (m : Nat) (bad : List (Fin 2048)) (hs : s.Kept κ) :
    State.Kept κ (State.imagesDue s m bad) := by
  unfold State.imagesDue
  repeat' first | with_reducible assumption | (intro _) | with_reducible apply ok_ite | with_reducible apply State.takeImage_ok | fail_if_no_progress (with_reducible apply State.mk_ok) | split

theorem execSnapshotReadBegin_ok {κ : Keep} (m : Fin 8) (bad : List (Fin 2048)) (s : State) (hs : s.Kept κ) :
    OutOk κ (execSnapshotReadBegin m bad s) := by
  unfold execSnapshotReadBegin
  repeat' first | with_reducible assumption | (intro _) | with_reducible apply OutOk.ite | with_reducible apply ok_ite | extract_lets | with_reducible apply State.applyClears_ok | with_reducible apply State.writeSnap_ok | with_reducible apply State.imagesDue_ok | with_reducible apply OutOk.next | fail_if_no_progress (with_reducible apply State.mk_ok) | split | dsimp +zetaDelta only

theorem State.reamCancel_ok {κ : Keep} (s : State) (o : Order) (hs : s.Kept κ) :
    State.Kept κ (State.reamCancel s o) := by
  unfold State.reamCancel
  repeat' first | with_reducible assumption | (intro _) | with_reducible apply ok_ite | extract_lets | with_reducible apply State.retireWith_ok | with_reducible apply State.retire_ok | with_reducible apply State.updReam_ok | with_reducible apply State.applyClears_ok | with_reducible apply State.settleSnapBusy_ok | fail_if_no_progress (with_reducible apply State.mk_ok) | split | dsimp +zetaDelta only

theorem State.settleWidth_ok {κ : Keep} (s : State) (m : Nat) (hs : s.Kept κ) :
    State.Kept κ (State.settleWidth s m) := by
  unfold State.settleWidth
  repeat' first | with_reducible assumption | (intro _) | with_reducible apply ok_ite | with_reducible apply State.put_ok | fail_if_no_progress (with_reducible apply State.mk_ok) | split

theorem State.enableReam_ok {κ : Keep} (s : State) (m : Nat) (hs : s.Kept κ) :
    State.Kept κ (State.enableReam s m) := by
  unfold State.enableReam
  repeat' first | with_reducible assumption | (intro _) | with_reducible apply ok_ite | extract_lets | with_reducible apply State.setWord_ok | with_reducible apply State.updReam_ok | fail_if_no_progress (with_reducible apply State.mk_ok) | split | dsimp +zetaDelta only

theorem State.writeReamCfg_ok {κ : Keep} (s : State) (m : Nat) (w : Word) (hs : s.Kept κ) :
    State.Kept κ (State.writeReamCfg s m w) := by
  unfold State.writeReamCfg
  repeat' first | with_reducible assumption | (intro _) | with_reducible apply ok_ite | extract_lets | with_reducible apply State.put_ok | with_reducible apply State.plainWrite_ok | with_reducible apply State.noteDecay_ok | with_reducible apply State.settleZones_ok | with_reducible apply State.settleWidth_ok | with_reducible apply State.enableReam_ok | fail_if_no_progress (with_reducible apply State.mk_ok) | split | dsimp +zetaDelta only

theorem State.writeReamMap_ok {κ : Keep} (s : State) (m key : Nat) (w : Word) (hs : s.Kept κ) :
    State.Kept κ (State.writeReamMap s m key w) := by
  unfold State.writeReamMap
  repeat' first | with_reducible assumption | (intro _) | with_reducible apply ok_ite | with_reducible apply State.put_ok | with_reducible apply State.plainWrite_ok | with_reducible apply State.settleWidth_ok | fail_if_no_progress (with_reducible apply State.mk_ok) | split

theorem State.writeReamCtl_ok {κ : Keep} (s : State) (m : Nat) (w : Word) (hs : s.Kept κ) :
    State.Kept κ (State.writeReamCtl s m w) := by
  unfold State.writeReamCtl
  repeat' first | with_reducible assumption | (intro _) | with_reducible apply ok_ite | with_reducible apply State.reamCtlClear_ok | fail_if_no_progress (with_reducible apply State.mk_ok) | split

theorem execReamEnable_ok {κ : Keep} (p : Path) (m : Fin 8) (w : Word) (s : State) (hs : s.Kept κ) :
    OutOk κ (execReamEnable p m w s) := by
  unfold execReamEnable
  repeat' first | with_reducible assumption | (intro _) | with_reducible apply OutOk.ite | with_reducible apply ok_ite | with_reducible apply State.retainWrite_ok | with_reducible apply State.gate_ok | with_reducible apply State.writeReamCfg_ok | with_reducible apply OutOk.next | fail_if_no_progress (with_reducible apply State.mk_ok) | split

end Machine
end Sys2Proof
end

