-- ==== Sys2Proof/Laws/OkWeirs.lean ====
section
/-!
SUPPORT. The canonical form is kept by every operation of Machine/Weirs.lean.
-/

namespace Sys2Proof
namespace Machine

theorem State.settleLoadBusy_ok {κ : Keep} (s : State) (w : Nat) (hs : s.Kept κ) :
    State.Kept κ (State.settleLoadBusy s w) := by
  unfold State.settleLoadBusy
  repeat' first | with_reducible assumption | (intro _) | with_reducible apply ok_ite | with_reducible apply State.put_ok | fail_if_no_progress (with_reducible apply State.mk_ok) | split

theorem State.startWeirLoad_ok {κ : Keep} (s : State) (w line : Nat) (hs : s.Kept κ) :
    State.Kept κ (State.startWeirLoad s w line) := by
  unfold State.startWeirLoad
  repeat' first | with_reducible assumption | (intro _) | with_reducible apply ok_ite | with_reducible apply State.updOrder_ok | with_reducible apply State.startRead_ok | with_reducible apply State.settleLoadBusy_ok | fail_if_no_progress (with_reducible apply State.mk_ok) | split

theorem State.weirLoadAccept_ok {κ : Keep} (o : Order) (s : State) (hs : s.Kept κ) :
    State.Kept κ (State.weirLoadAccept o s) := by
  unfold State.weirLoadAccept
  repeat' first | with_reducible assumption | (intro _) | with_reducible apply ok_ite | with_reducible apply State.validate_ok | with_reducible apply State.startWeirLoad_ok | fail_if_no_progress (with_reducible apply State.mk_ok) | split

theorem execWeirLoad_ok {κ : Keep} (s : State) (hs : s.Kept κ) :
    OutOk κ (execWeirLoad s) := by
  unfold execWeirLoad
  repeat' first | with_reducible assumption | (intro _) | with_reducible apply OutOk.ite | with_reducible apply ok_ite | with_reducible apply State.accept_ok | with_reducible apply State.weirLoadAccept_ok | with_reducible apply OutOk.next | fail_if_no_progress (with_reducible apply State.mk_ok) | split

theorem State.endWeirLoad_ok {κ : Keep} (s : State) (o : Order) (status : Nat) (detail : Nat) (outs : List (Nat × List Byte)) (hs : s.Kept κ) :
    State.Kept κ (State.endWeirLoad s o status detail outs) := by
  unfold State.endWeirLoad
  repeat' first | with_reducible assumption | (intro _) | with_reducible apply ok_ite | extract_lets | with_reducible apply State.retireWith_ok | with_reducible apply State.settleLoadBusy_ok | with_reducible apply State.startWeirLoad_ok | fail_if_no_progress (with_reducible apply State.mk_ok) | split | dsimp +zetaDelta only

theorem State.swapLine_ok {κ : Keep} (s : State) (w line stamp : Nat) (hs : s.Kept κ) :
    State.Kept κ (State.swapLine s w line stamp) := by
  unfold State.swapLine
  repeat' first | with_reducible assumption | (intro _) | with_reducible apply ok_ite | extract_lets | with_reducible apply State.put_ok | with_reducible apply State.updWeir_ok | with_reducible apply State.endWeirLoad_ok | fail_if_no_progress (with_reducible apply State.mk_ok) | split | dsimp +zetaDelta only

theorem State.weirTable_ok {κ : Keep} (s : State) (o : Order) (table : List Byte) (hs : s.Kept κ) :
    State.Kept κ (State.weirTable s o table) := by
  unfold State.weirTable
  repeat' first | with_reducible assumption | (intro _) | with_reducible apply ok_ite | extract_lets | with_reducible apply State.fresh_ok | with_reducible apply State.updWeir_ok | with_reducible apply State.endWeirLoad_ok | with_reducible apply State.swapLine_ok | fail_if_no_progress (with_reducible apply State.mk_ok) | split | dsimp +zetaDelta only | with_reducible apply ok_ite_snd | with_reducible apply ok_ite_fst | with_reducible apply id_ok

theorem State.weirCancel_ok {κ : Keep} (s : State) (o : Order) (hs : s.Kept κ) :
    State.Kept κ (State.weirCancel s o) := by
  unfold State.weirCancel
  repeat' first | with_reducible assumption | (intro _) | with_reducible apply ok_ite | extract_lets | with_reducible apply State.updWeir_ok | with_reducible apply State.endWeirLoad_ok | fail_if_no_progress (with_reducible apply State.mk_ok) | split | dsimp +zetaDelta only

theorem State.setWeir_ok {κ : Keep} (s : State) (w : Nat) (now : Bool) (stamp qual : Nat) (hs : s.Kept κ) :
    State.Kept κ (State.setWeir s w now stamp qual) := by
  unfold State.setWeir
  repeat' first | with_reducible assumption | (intro _) | with_reducible apply ok_ite | extract_lets | with_reducible apply State.put_ok | with_reducible apply State.inc_ok | with_reducible apply State.evaluated_ok | fail_if_no_progress (with_reducible apply State.mk_ok) | split | dsimp +zetaDelta only

theorem State.weirSheet_ok {κ : Keep} (s : State) (sh : Sheet) (w : Nat) (hs : s.Kept κ) :
    State.Kept κ (State.weirSheet s sh w) := by
  unfold State.weirSheet
  repeat' first | with_reducible assumption | (intro _) | with_reducible apply ok_ite | extract_lets | with_reducible apply State.put_ok | with_reducible apply State.updWeir_ok | with_reducible apply State.swapLine_ok | with_reducible apply State.setWeir_ok | fail_if_no_progress (with_reducible apply State.mk_ok) | split | dsimp +zetaDelta only | with_reducible apply ok_ite_snd | with_reducible apply ok_ite_fst | with_reducible apply id_ok

theorem State.weirsMiss_ok {κ : Keep} (s : State) (p : Nat) (hs : s.Kept κ) :
    State.Kept κ (State.weirsMiss s p) := by
  unfold State.weirsMiss
  repeat' first | with_reducible assumption | (intro _) | with_reducible apply ok_ite | with_reducible apply State.put_ok | with_reducible apply State.updWeir_ok | with_reducible apply foldl_ok | with_reducible apply foldl_ok_fst | with_reducible apply foldl_ok_snd | fail_if_no_progress (with_reducible apply State.mk_ok) | split

theorem State.weirFalls_ok {κ : Keep} (s : State) (w : Nat) (hs : s.Kept κ) :
    State.Kept κ (State.weirFalls s w) := by
  unfold State.weirFalls
  repeat' first | with_reducible assumption | (intro _) | with_reducible apply ok_ite | with_reducible apply State.fresh_ok | with_reducible apply State.setWeir_ok | fail_if_no_progress (with_reducible apply State.mk_ok) | split | with_reducible apply ok_ite_snd | with_reducible apply ok_ite_fst | with_reducible apply id_ok

theorem State.settleWeirs_ok {κ : Keep} (s : State) (hs : s.Kept κ) :
    State.Kept κ (State.settleWeirs s) := by
  unfold State.settleWeirs
  repeat' first | with_reducible assumption | (intro _) | with_reducible apply ok_ite | extract_lets | with_reducible apply State.put_ok | with_reducible apply State.updWeir_ok | with_reducible apply State.swapLine_ok | with_reducible apply State.weirFalls_ok | with_reducible apply foldl_ok | with_reducible apply foldl_ok_fst | with_reducible apply foldl_ok_snd | fail_if_no_progress (with_reducible apply State.mk_ok) | split | dsimp +zetaDelta only

theorem State.writeWeirCfg_ok {κ : Keep} (s : State) (w : Nat) (x : Word) (hs : s.Kept κ) :
    State.Kept κ (State.writeWeirCfg s w x) := by
  unfold State.writeWeirCfg
  repeat' first | with_reducible assumption | (intro _) | with_reducible apply ok_ite | extract_lets | with_reducible apply State.put_ok | with_reducible apply State.plainWrite_ok | with_reducible apply State.settleWeirs_ok | fail_if_no_progress (with_reducible apply State.mk_ok) | split | dsimp +zetaDelta only

theorem State.writeWeirSet_ok {κ : Keep} (s : State) (w key : Nat) (x : Word) (hs : s.Kept κ) :
    State.Kept κ (State.writeWeirSet s w key x) := by
  unfold State.writeWeirSet
  repeat' first | with_reducible assumption | (intro _) | with_reducible apply ok_ite | extract_lets | with_reducible apply State.put_ok | with_reducible apply State.plainWrite_ok | with_reducible apply State.updWeir_ok | fail_if_no_progress (with_reducible apply State.mk_ok) | split | dsimp +zetaDelta only

end Machine
end Sys2Proof
end

