-- ==== Sys2Proof/Laws/OkPlans.lean ====
section
/-!
SUPPORT. The canonical form is kept by every operation of Machine/Plans.lean.
-/

namespace Sys2Proof
namespace Machine

theorem State.setLane_ok {κ : Keep} (s : State) (l st : Nat) (hs : s.Kept κ) :
    State.Kept κ (State.setLane s l st) := by
  unfold State.setLane
  repeat' first | with_reducible assumption | (intro _) | with_reducible apply ok_ite | with_reducible apply State.put_ok | fail_if_no_progress (with_reducible apply State.mk_ok) | split

theorem State.settleLane_ok {κ : Keep} (s : State) (l : Nat) (hs : s.Kept κ) :
    State.Kept κ (State.settleLane s l) := by
  unfold State.settleLane
  repeat' first | with_reducible assumption | (intro _) | with_reducible apply ok_ite | extract_lets | with_reducible apply State.put_ok | with_reducible apply State.updLane_ok | with_reducible apply State.setLane_ok | fail_if_no_progress (with_reducible apply State.mk_ok) | split | dsimp +zetaDelta only

theorem State.settleLanes_ok {κ : Keep} (s : State) (hs : s.Kept κ) :
    State.Kept κ (State.settleLanes s) := by
  unfold State.settleLanes
  repeat' first | with_reducible assumption | (intro _) | with_reducible apply ok_ite | extract_lets | with_reducible apply State.put_ok | with_reducible apply State.settleLane_ok | with_reducible apply foldl_ok | with_reducible apply foldl_ok_fst | with_reducible apply foldl_ok_snd | fail_if_no_progress (with_reducible apply State.mk_ok) | split | dsimp +zetaDelta only

theorem State.dropTest_ok {κ : Keep} (s : State) (l : Nat) (hs : s.Kept κ) :
    State.Kept κ (State.dropTest s l) := by
  unfold State.dropTest
  repeat' first | with_reducible assumption | (intro _) | with_reducible apply ok_ite | extract_lets | with_reducible apply State.retireRef_ok | with_reducible apply State.updLane_ok | fail_if_no_progress (with_reducible apply State.mk_ok) | split | dsimp +zetaDelta only

theorem State.callLane_ok {κ : Keep} (s : State) (l p slot at_ : Nat) (hs : s.Kept κ) :
    State.Kept κ (State.callLane s l p slot at_) := by
  unfold State.callLane
  repeat' first | with_reducible assumption | (intro _) | with_reducible apply ok_ite | extract_lets | with_reducible apply State.put_ok | with_reducible apply State.updLane_ok | with_reducible apply State.setLane_ok | with_reducible apply State.dropTest_ok | fail_if_no_progress (with_reducible apply State.mk_ok) | split | dsimp +zetaDelta only

theorem State.markStreams_ok {κ : Keep} (s : State) (p : Nat) (m t : Barge) (hs : s.Kept κ) :
    State.Kept κ (State.markStreams s p m t) := by
  unfold State.markStreams
  repeat' first | with_reducible assumption | (intro _) | with_reducible apply ok_ite | extract_lets | with_reducible apply State.updPlan_ok | with_reducible apply State.updEngine_ok | with_reducible apply State.emitPlanMark_ok | with_reducible apply foldl_ok | with_reducible apply foldl_ok_fst | with_reducible apply foldl_ok_snd | fail_if_no_progress (with_reducible apply State.mk_ok) | split | dsimp +zetaDelta only

theorem State.writeFailover_ok {κ : Keep} (s : State) (p : Nat) (x : Failover) (hs : s.Kept κ) :
    State.Kept κ (State.writeFailover s p x).1 := by
  unfold State.writeFailover
  repeat' first | with_reducible assumption | with_reducible apply ok_ite_fst | with_reducible apply ok_ite_snd | fail_if_no_progress (with_reducible refine mk_ok_snd rfl ?_) | fail_if_no_progress (with_reducible refine mk_ok_fst rfl ?_) | fail_if_no_progress (with_reducible refine mk_ok_snd_snd rfl ?_) | (intro _) | with_reducible apply ok_ite | extract_lets | with_reducible apply State.stepsReached_ok | with_reducible apply State.markStreams_ok | fail_if_no_progress (with_reducible apply State.mk_ok) | split | dsimp +zetaDelta only

theorem State.writeFailovers_ok {κ : Keep} (s : State) (p f : Nat) (hs : s.Kept κ) :
    State.Kept κ (State.writeFailovers s p f) := by
  unfold State.writeFailovers
  repeat' first | with_reducible assumption | (intro _) | with_reducible apply ok_ite | extract_lets | with_reducible apply State.updPlan_ok | with_reducible apply State.writeFailover_ok | with_reducible apply foldl_ok | with_reducible apply foldl_ok_fst | with_reducible apply foldl_ok_snd | fail_if_no_progress (with_reducible apply State.mk_ok) | split | dsimp +zetaDelta only | with_reducible apply ok_ite_snd | with_reducible apply ok_ite_fst | with_reducible apply id_ok

theorem State.accountTo_ok {κ : Keep} (s : State) (p f : Nat) (hs : s.Kept κ) :
    State.Kept κ (State.accountTo s p f) := by
  unfold State.accountTo
  repeat' first | with_reducible assumption | (intro _) | with_reducible apply ok_ite | extract_lets | with_reducible apply State.updPlan_ok | with_reducible apply State.enginesMiss_ok | with_reducible apply State.zonesMiss_ok | with_reducible apply State.weirsMiss_ok | with_reducible apply State.writeFailovers_ok | fail_if_no_progress (with_reducible apply State.mk_ok) | split | dsimp +zetaDelta only

theorem State.skipLost_ok {κ : Keep} (s : State) (p : Nat) (n_ : Nat) (hs : s.Kept κ) :
    State.Kept κ (State.skipLost s p n_) := by
  induction n_ generalizing s p with
  | zero =>
    unfold State.skipLost
    repeat' first | with_reducible assumption | with_reducible apply ih | (intro _) | with_reducible apply ok_ite | extract_lets | with_reducible apply State.updPlan_ok | with_reducible apply State.accountTo_ok | fail_if_no_progress (with_reducible apply State.mk_ok) | split | dsimp +zetaDelta only
  | succ n ih =>
    unfold State.skipLost
    repeat' first | with_reducible assumption | with_reducible apply ih | (intro _) | with_reducible apply ok_ite | extract_lets | with_reducible apply State.updPlan_ok | with_reducible apply State.accountTo_ok | fail_if_no_progress (with_reducible apply State.mk_ok) | split | dsimp +zetaDelta only

theorem State.settlePlans_ok {κ : Keep} (s : State) (hs : s.Kept κ) :
    State.Kept κ (State.settlePlans s) := by
  unfold State.settlePlans
  repeat' first | with_reducible assumption | (intro _) | with_reducible apply ok_ite | extract_lets | with_reducible apply State.settleEngine_ok | with_reducible apply State.settleZones_ok | with_reducible apply State.settleReams_ok | with_reducible apply State.settleWeirs_ok | with_reducible apply State.settleLanes_ok | with_reducible apply foldl_ok | with_reducible apply foldl_ok_fst | with_reducible apply foldl_ok_snd | fail_if_no_progress (with_reducible apply State.mk_ok) | split | dsimp +zetaDelta only

theorem State.reportStops_ok {κ : Keep} (s : State) (p : Nat) (hs : s.Kept κ) :
    State.Kept κ (State.reportStops s p) := by
  unfold State.reportStops
  repeat' first | with_reducible assumption | (intro _) | with_reducible apply ok_ite | with_reducible apply State.retireWith_ok | with_reducible apply foldl_ok | with_reducible apply foldl_ok_fst | with_reducible apply foldl_ok_snd | fail_if_no_progress (with_reducible apply State.mk_ok) | split

theorem State.haltPlan_ok {κ : Keep} (s : State) (p : Nat) (gap : Option Nat) (hs : s.Kept κ) :
    State.Kept κ (State.haltPlan s p gap) := by
  unfold State.haltPlan
  repeat' first | with_reducible assumption | (intro _) | with_reducible apply ok_ite | extract_lets | with_reducible apply State.put_ok | with_reducible apply State.retireRef_ok | with_reducible apply State.leaveHeld_ok | with_reducible apply State.updPlan_ok | with_reducible apply State.emitPlanMark_ok | with_reducible apply State.emitEngineMark_ok | with_reducible apply State.flushPlanMarks_ok | with_reducible apply State.engineStop_ok | with_reducible apply State.writeFailovers_ok | with_reducible apply State.settlePlans_ok | with_reducible apply State.reportStops_ok | with_reducible apply foldl_ok | with_reducible apply foldl_ok_fst | with_reducible apply foldl_ok_snd | fail_if_no_progress (with_reducible apply State.mk_ok) | split | dsimp +zetaDelta only

theorem State.settleStop_ok {κ : Keep} (s : State) (p : Nat) (hs : s.Kept κ) :
    State.Kept κ (State.settleStop s p) := by
  unfold State.settleStop
  repeat' first | with_reducible assumption | (intro _) | with_reducible apply ok_ite | extract_lets | with_reducible apply State.writeFailovers_ok | with_reducible apply State.accountTo_ok | with_reducible apply State.haltPlan_ok | fail_if_no_progress (with_reducible apply State.mk_ok) | split | dsimp +zetaDelta only

theorem State.stopPlan_ok {κ : Keep} (s : State) (p : Nat) (hs : s.Kept κ) :
    State.Kept κ (State.stopPlan s p) := by
  unfold State.stopPlan
  repeat' first | with_reducible assumption | (intro _) | with_reducible apply ok_ite | extract_lets | with_reducible apply State.updPlan_ok | with_reducible apply State.haltPlan_ok | with_reducible apply State.settleStop_ok | fail_if_no_progress (with_reducible apply State.mk_ok) | split | dsimp +zetaDelta only

theorem State.dropPlan_ok {κ : Keep} (s : State) (p : Nat) (hs : s.Kept κ) :
    State.Kept κ (State.dropPlan s p) := by
  unfold State.dropPlan
  repeat' first | with_reducible assumption | (intro _) | with_reducible apply ok_ite | with_reducible apply State.raiseInst_ok | with_reducible apply State.haltPlan_ok | fail_if_no_progress (with_reducible apply State.mk_ok) | split

theorem State.forceDownPlan_ok {κ : Keep} (s : State) (p : Nat) (hs : s.Kept κ) :
    State.Kept κ (State.forceDownPlan s p) := by
  unfold State.forceDownPlan
  repeat' first | with_reducible assumption | (intro _) | with_reducible apply ok_ite | with_reducible apply State.haltPlan_ok | fail_if_no_progress (with_reducible apply State.mk_ok) | split

theorem State.forceDownAdcPlans_ok {κ : Keep} (s : State) (n : Nat) (hs : s.Kept κ) :
    State.Kept κ (State.forceDownAdcPlans s n) := by
  unfold State.forceDownAdcPlans
  repeat' first | with_reducible assumption | (intro _) | with_reducible apply ok_ite | with_reducible apply State.forceDownPlan_ok | with_reducible apply foldl_ok | with_reducible apply foldl_ok_fst | with_reducible apply foldl_ok_snd | fail_if_no_progress (with_reducible apply State.mk_ok) | split

theorem State.settleStops_ok {κ : Keep} (s : State) (src : Nat) (hs : s.Kept κ) :
    State.Kept κ (State.settleStops s src) := by
  unfold State.settleStops
  repeat' first | with_reducible assumption | (intro _) | with_reducible apply ok_ite | with_reducible apply State.settleStop_ok | with_reducible apply foldl_ok | with_reducible apply foldl_ok_fst | with_reducible apply foldl_ok_snd | fail_if_no_progress (with_reducible apply State.mk_ok) | split

theorem State.planLoadAccept_ok {κ : Keep} (o : Order) (s : State) (hs : s.Kept κ) :
    State.Kept κ (State.planLoadAccept o s) := by
  unfold State.planLoadAccept
  repeat' first | with_reducible assumption | (intro _) | with_reducible apply ok_ite | extract_lets | with_reducible apply State.put_ok | with_reducible apply State.retire_ok | with_reducible apply State.validate_ok | with_reducible apply State.updPlan_ok | fail_if_no_progress (with_reducible apply State.mk_ok) | split | dsimp +zetaDelta only

theorem execPlanLoad_ok {κ : Keep} (s : State) (hs : s.Kept κ) :
    OutOk κ (execPlanLoad s) := by
  unfold execPlanLoad
  repeat' first | with_reducible assumption | (intro _) | with_reducible apply OutOk.ite | with_reducible apply ok_ite | with_reducible apply State.accept_ok | with_reducible apply State.planLoadAccept_ok | with_reducible apply OutOk.next | fail_if_no_progress (with_reducible apply State.mk_ok) | split

theorem State.armPlan_ok {κ : Keep} (s : State) (o : Order) (p : Nat) (ls : List Nat) (hs : s.Kept κ) :
    State.Kept κ (State.armPlan s o p ls) := by
  unfold State.armPlan
  repeat' first | with_reducible assumption | (intro _) | with_reducible apply ok_ite | extract_lets | with_reducible apply State.put_ok | with_reducible apply State.gate_ok | with_reducible apply State.updOrder_ok | with_reducible apply State.updPlan_ok | with_reducible apply State.leaveTraces_ok | with_reducible apply State.settleLanes_ok | with_reducible apply State.callLane_ok | with_reducible apply foldl_ok | with_reducible apply foldl_ok_fst | with_reducible apply foldl_ok_snd | fail_if_no_progress (with_reducible apply State.mk_ok) | split | dsimp +zetaDelta only | with_reducible apply ok_ite_snd | with_reducible apply ok_ite_fst | with_reducible apply id_ok

theorem State.planStartAccept_ok {κ : Keep} (o : Order) (s : State) (hs : s.Kept κ) :
    State.Kept κ (State.planStartAccept o s) := by
  unfold State.planStartAccept
  repeat' first | with_reducible assumption | (intro _) | with_reducible apply ok_ite | extract_lets | with_reducible apply State.fresh_ok | with_reducible apply State.retire_ok | with_reducible apply State.validate_ok | with_reducible apply State.armPlan_ok | fail_if_no_progress (with_reducible apply State.mk_ok) | split | dsimp +zetaDelta only | with_reducible apply ok_ite_snd | with_reducible apply ok_ite_fst | with_reducible apply id_ok

theorem execPlanStart_ok {κ : Keep} (s : State) (hs : s.Kept κ) :
    OutOk κ (execPlanStart s) := by
  unfold execPlanStart
  repeat' first | with_reducible assumption | (intro _) | with_reducible apply OutOk.ite | with_reducible apply ok_ite | with_reducible apply State.accept_ok | with_reducible apply State.planStartAccept_ok | with_reducible apply OutOk.next | fail_if_no_progress (with_reducible apply State.mk_ok) | split

theorem State.planStopAccept_ok {κ : Keep} (o : Order) (s : State) (hs : s.Kept κ) :
    State.Kept κ (State.planStopAccept o s) := by
  unfold State.planStopAccept
  repeat' first | with_reducible assumption | (intro _) | with_reducible apply ok_ite | extract_lets | with_reducible apply State.updOrder_ok | with_reducible apply State.retire_ok | with_reducible apply State.validate_ok | with_reducible apply State.stopPlan_ok | fail_if_no_progress (with_reducible apply State.mk_ok) | split | dsimp +zetaDelta only

theorem execPlanStop_ok {κ : Keep} (s : State) (hs : s.Kept κ) :
    OutOk κ (execPlanStop s) := by
  unfold execPlanStop
  repeat' first | with_reducible assumption | (intro _) | with_reducible apply OutOk.ite | with_reducible apply ok_ite | with_reducible apply State.accept_ok | with_reducible apply State.planStopAccept_ok | with_reducible apply OutOk.next | fail_if_no_progress (with_reducible apply State.mk_ok) | split

theorem State.planUnloadAccept_ok {κ : Keep} (o : Order) (s : State) (hs : s.Kept κ) :
    State.Kept κ (State.planUnloadAccept o s) := by
  unfold State.planUnloadAccept
  repeat' first | with_reducible assumption | (intro _) | with_reducible apply ok_ite | extract_lets | with_reducible apply State.put_ok | with_reducible apply State.retire_ok | with_reducible apply State.validate_ok | fail_if_no_progress (with_reducible apply State.mk_ok) | split | dsimp +zetaDelta only

theorem execPlanUnload_ok {κ : Keep} (s : State) (hs : s.Kept κ) :
    OutOk κ (execPlanUnload s) := by
  unfold execPlanUnload
  repeat' first | with_reducible assumption | (intro _) | with_reducible apply OutOk.ite | with_reducible apply ok_ite | with_reducible apply State.accept_ok | with_reducible apply State.planUnloadAccept_ok | with_reducible apply OutOk.next | fail_if_no_progress (with_reducible apply State.mk_ok) | split

theorem execPlanStopDue_ok {κ : Keep} (ring index : Nat) (s : State) (hs : s.Kept κ) :
    OutOk κ (execPlanStopDue ring index s) := by
  unfold execPlanStopDue
  repeat' first | with_reducible assumption | (intro _) | with_reducible apply OutOk.ite | with_reducible apply ok_ite | extract_lets | with_reducible apply State.updOrder_ok | with_reducible apply State.retire_ok | with_reducible apply State.stopPlan_ok | with_reducible apply OutOk.next | fail_if_no_progress (with_reducible apply State.mk_ok) | split | dsimp +zetaDelta only

theorem State.planStarts_ok {κ : Keep} (s : State) (p t rdy : Nat) (hs : s.Kept κ) :
    State.Kept κ (State.planStarts s p t rdy) := by
  unfold State.planStarts
  repeat' first | with_reducible assumption | (intro _) | with_reducible apply ok_ite | extract_lets | with_reducible apply State.put_ok | with_reducible apply State.retireRef_ok | with_reducible apply State.updPlan_ok | with_reducible apply State.restartHolds_ok | fail_if_no_progress (with_reducible apply State.mk_ok) | split | dsimp +zetaDelta only

theorem execPlanStartDue_ok {κ : Keep} (p : Fin 64) (s : State) (hs : s.Kept κ) :
    OutOk κ (execPlanStartDue p s) := by
  unfold execPlanStartDue
  repeat' first | with_reducible assumption | (intro _) | with_reducible apply OutOk.ite | with_reducible apply ok_ite | extract_lets | with_reducible apply State.updOrder_ok | with_reducible apply State.settlePlans_ok | with_reducible apply State.stopPlan_ok | with_reducible apply State.planStarts_ok | with_reducible apply OutOk.next | fail_if_no_progress (with_reducible apply State.mk_ok) | split | dsimp +zetaDelta only

theorem execLaneWakeDone_ok {κ : Keep} (l : Fin 18) (s : State) (hs : s.Kept κ) :
    OutOk κ (execLaneWakeDone l s) := by
  unfold execLaneWakeDone
  repeat' first | with_reducible assumption | (intro _) | with_reducible apply OutOk.ite | with_reducible apply ok_ite | extract_lets | with_reducible apply State.updLane_ok | with_reducible apply State.setLane_ok | with_reducible apply State.settleLanes_ok | with_reducible apply OutOk.next | fail_if_no_progress (with_reducible apply State.mk_ok) | split | dsimp +zetaDelta only

theorem State.writeLaneCfg_ok {κ : Keep} (s : State) (w : Word) (hs : s.Kept κ) :
    State.Kept κ (State.writeLaneCfg s w) := by
  unfold State.writeLaneCfg
  repeat' first | with_reducible assumption | (intro _) | with_reducible apply ok_ite | with_reducible apply State.plainWrite_ok | with_reducible apply State.settleLanes_ok | fail_if_no_progress (with_reducible apply State.mk_ok) | split

end Machine
end Sys2Proof
end

