-- ==== Sys2Proof/Laws/OkCalib.lean ====
section
/-!
SUPPORT. The canonical form is kept by every operation of Machine/Calib.lean.
-/

namespace Sys2Proof
namespace Machine

theorem State.newTargets_ok {κ : Keep} (s : State) (n : Nat) (hs : s.Kept κ) :
    State.Kept κ (State.newTargets s n) := by
  unfold State.newTargets
  repeat' first | with_reducible assumption | (intro _) | with_reducible apply ok_ite | extract_lets | with_reducible apply State.put_ok | with_reducible apply State.updCal_ok | with_reducible apply foldl_ok | with_reducible apply foldl_ok_fst | with_reducible apply foldl_ok_snd | fail_if_no_progress (with_reducible apply State.mk_ok) | split | dsimp +zetaDelta only

theorem State.recompute_ok {κ : Keep} (s : State) (n cause : Nat) (hs : s.Kept κ) :
    State.Kept κ (State.recompute s n cause) := by
  unfold State.recompute
  repeat' first | with_reducible assumption | (intro _) | with_reducible apply ok_ite | extract_lets | with_reducible apply State.updCal_ok | with_reducible apply State.newTargets_ok | fail_if_no_progress (with_reducible apply State.mk_ok) | split | dsimp +zetaDelta only

theorem State.recomputeIfMoved_ok {κ : Keep} (s : State) (n : Nat) (hs : s.Kept κ) :
    State.Kept κ (State.recomputeIfMoved s n) := by
  unfold State.recomputeIfMoved
  repeat' first | with_reducible assumption | (intro _) | with_reducible apply ok_ite | with_reducible apply State.recompute_ok | fail_if_no_progress (with_reducible apply State.mk_ok) | split

theorem State.putSetsValid_ok {κ : Keep} (s : State) (n : Nat) (hs : s.Kept κ) :
    State.Kept κ (State.putSetsValid s n) := by
  unfold State.putSetsValid
  repeat' first | with_reducible assumption | (intro _) | with_reducible apply ok_ite | with_reducible apply State.put_ok | with_reducible apply foldl_ok | with_reducible apply foldl_ok_fst | with_reducible apply foldl_ok_snd | fail_if_no_progress (with_reducible apply State.mk_ok) | split

theorem State.dropSets_ok {κ : Keep} (s : State) (n fs : Nat) (hs : s.Kept κ) :
    State.Kept κ (State.dropSets s n fs) := by
  unfold State.dropSets
  repeat' first | with_reducible assumption | (intro _) | with_reducible apply ok_ite | with_reducible apply State.put_ok | with_reducible apply State.putSetsValid_ok | with_reducible apply foldl_ok | with_reducible apply foldl_ok_fst | with_reducible apply foldl_ok_snd | fail_if_no_progress (with_reducible apply State.mk_ok) | split

theorem State.writeSet_ok {κ : Keep} (s : State) (n : Nat) (trims : List (Nat × Int)) (hs : s.Kept κ) :
    State.Kept κ (State.writeSet s n trims) := by
  unfold State.writeSet
  repeat' first | with_reducible assumption | (intro _) | with_reducible apply ok_ite | extract_lets | with_reducible apply State.put_ok | with_reducible apply State.updCal_ok | with_reducible apply State.putSetsValid_ok | with_reducible apply foldl_ok | with_reducible apply foldl_ok_fst | with_reducible apply foldl_ok_snd | fail_if_no_progress (with_reducible apply State.mk_ok) | split | dsimp +zetaDelta only | with_reducible apply ok_ite_snd | with_reducible apply ok_ite_fst | with_reducible apply id_ok

theorem State.countRejects_ok {κ : Keep} (s : State) (n : Nat) (rot : Bool) (n_ : List Measure) (hs : s.Kept κ) :
    State.Kept κ (State.countRejects s n rot n_) := by
  induction n_ generalizing s n rot with
  | nil =>
    unfold State.countRejects
    repeat' first | with_reducible assumption | with_reducible apply ih | (intro _) | with_reducible apply ok_ite | extract_lets | with_reducible apply State.put_ok | with_reducible apply State.satInc_ok | with_reducible apply State.raiseInst_ok | with_reducible apply State.updCal_ok | fail_if_no_progress (with_reducible apply State.mk_ok) | split | dsimp +zetaDelta only
  | cons e t ih =>
    unfold State.countRejects
    repeat' first | with_reducible assumption | with_reducible apply ih | (intro _) | with_reducible apply ok_ite | extract_lets | with_reducible apply State.put_ok | with_reducible apply State.satInc_ok | with_reducible apply State.raiseInst_ok | with_reducible apply State.updCal_ok | fail_if_no_progress (with_reducible apply State.mk_ok) | split | dsimp +zetaDelta only

theorem State.calMark_ok {κ : Keep} (s : State) (n cause slice pos index total kinds : Nat) (last : Bool) (hs : s.Kept κ) :
    State.Kept κ (State.calMark s n cause slice pos index total kinds last) := by
  unfold State.calMark
  repeat' first | with_reducible assumption | (intro _) | with_reducible apply ok_ite | extract_lets | with_reducible apply State.updCal_ok | with_reducible apply State.markAdc_ok | fail_if_no_progress (with_reducible apply State.mk_ok) | split | dsimp +zetaDelta only

theorem State.noteCalStep_ok {κ : Keep} (s : State) (n : Nat) (hs : s.Kept κ) :
    State.Kept κ (State.noteCalStep s n) := by
  unfold State.noteCalStep
  repeat' first | with_reducible assumption | (intro _) | with_reducible apply ok_ite | extract_lets | with_reducible apply State.updSource_ok | with_reducible apply foldl_ok | with_reducible apply foldl_ok_fst | with_reducible apply foldl_ok_snd | fail_if_no_progress (with_reducible apply State.mk_ok) | split | dsimp +zetaDelta only

theorem State.calStep_ok {κ : Keep} (s : State) (n : Nat) (hs : s.Kept κ) :
    State.Kept κ (State.calStep s n) := by
  unfold State.calStep
  repeat' first | with_reducible assumption | (intro _) | with_reducible apply ok_ite | extract_lets | with_reducible apply State.put_ok | with_reducible apply State.updCal_ok | with_reducible apply State.calMark_ok | with_reducible apply State.noteCalStep_ok | with_reducible apply foldl_ok | with_reducible apply foldl_ok_fst | with_reducible apply foldl_ok_snd | fail_if_no_progress (with_reducible apply State.mk_ok) | split | dsimp +zetaDelta only | with_reducible apply ok_ite_snd | with_reducible apply ok_ite_fst | with_reducible apply id_ok

theorem State.startBackground_ok {κ : Keep} (s : State) (n : Nat) (hs : s.Kept κ) :
    State.Kept κ (State.startBackground s n) := by
  unfold State.startBackground
  repeat' first | with_reducible assumption | (intro _) | with_reducible apply ok_ite | extract_lets | with_reducible apply State.put_ok | with_reducible apply State.updCal_ok | fail_if_no_progress (with_reducible apply State.mk_ok) | split | dsimp +zetaDelta only

theorem State.stopBackground_ok {κ : Keep} (s : State) (n : Nat) (hs : s.Kept κ) :
    State.Kept κ (State.stopBackground s n) := by
  unfold State.stopBackground
  repeat' first | with_reducible assumption | (intro _) | with_reducible apply ok_ite | extract_lets | with_reducible apply State.put_ok | with_reducible apply State.updCal_ok | fail_if_no_progress (with_reducible apply State.mk_ok) | split | dsimp +zetaDelta only

theorem State.startForeground_ok {κ : Keep} (s : State) (n : Nat) (hs : s.Kept κ) :
    State.Kept κ (State.startForeground s n) := by
  unfold State.startForeground
  repeat' first | with_reducible assumption | (intro _) | with_reducible apply ok_ite | extract_lets | with_reducible apply State.put_ok | with_reducible apply State.updCal_ok | with_reducible apply State.stopBackground_ok | fail_if_no_progress (with_reducible apply State.mk_ok) | split | dsimp +zetaDelta only

theorem State.loadFactory_ok {κ : Keep} (s : State) (n : Nat) (hs : s.Kept κ) :
    State.Kept κ (State.loadFactory s n) := by
  unfold State.loadFactory
  repeat' first | with_reducible assumption | (intro _) | with_reducible apply ok_ite | extract_lets | with_reducible apply State.put_ok | with_reducible apply State.updCal_ok | with_reducible apply foldl_ok | with_reducible apply foldl_ok_fst | with_reducible apply foldl_ok_snd | fail_if_no_progress (with_reducible apply State.mk_ok) | split | dsimp +zetaDelta only

theorem State.calDecision_ok {κ : Keep} (s : State) (n : Nat) (hs : s.Kept κ) :
    State.Kept κ (State.calDecision s n) := by
  unfold State.calDecision
  repeat' first | with_reducible assumption | (intro _) | with_reducible apply ok_ite | extract_lets | with_reducible apply State.put_ok | with_reducible apply State.updCal_ok | with_reducible apply State.newTargets_ok | with_reducible apply State.startBackground_ok | with_reducible apply State.startForeground_ok | with_reducible apply State.loadFactory_ok | fail_if_no_progress (with_reducible apply State.mk_ok) | split | dsimp +zetaDelta only | with_reducible apply ok_ite_snd | with_reducible apply ok_ite_fst | with_reducible apply id_ok

theorem State.beginSave_ok {κ : Keep} (s : State) (hs : s.Kept κ) :
    State.Kept κ (State.beginSave s) := by
  unfold State.beginSave
  repeat' first | with_reducible assumption | (intro _) | with_reducible apply ok_ite | with_reducible apply State.put_ok | fail_if_no_progress (with_reducible apply State.mk_ok) | split

theorem State.resumeSave_ok {κ : Keep} (s : State) (hs : s.Kept κ) :
    State.Kept κ (State.resumeSave s) := by
  unfold State.resumeSave
  repeat' first | with_reducible assumption | (intro _) | with_reducible apply ok_ite | with_reducible apply State.beginSave_ok | fail_if_no_progress (with_reducible apply State.mk_ok) | split

theorem State.abandonForeground_ok {κ : Keep} (s : State) (n : Nat) (hs : s.Kept κ) :
    State.Kept κ (State.abandonForeground s n).2 := by
  unfold State.abandonForeground
  repeat' first | with_reducible assumption | with_reducible apply ok_ite_fst | with_reducible apply ok_ite_snd | fail_if_no_progress (with_reducible refine mk_ok_snd rfl ?_) | fail_if_no_progress (with_reducible refine mk_ok_fst rfl ?_) | fail_if_no_progress (with_reducible refine mk_ok_snd_snd rfl ?_) | (intro _) | with_reducible apply ok_ite | extract_lets | with_reducible apply State.put_ok | with_reducible apply State.raiseInst_ok | with_reducible apply State.updCal_ok | with_reducible apply State.resumeSave_ok | fail_if_no_progress (with_reducible apply State.mk_ok) | split | dsimp +zetaDelta only

theorem State.calOff_ok {κ : Keep} (s : State) (n : Nat) (hs : s.Kept κ) :
    State.Kept κ (State.calOff s n) := by
  unfold State.calOff
  repeat' first | with_reducible assumption | (intro _) | with_reducible apply ok_ite | extract_lets | with_reducible apply State.put_ok | with_reducible apply State.updCal_ok | with_reducible apply State.stopBackground_ok | with_reducible apply State.abandonForeground_ok | fail_if_no_progress (with_reducible apply State.mk_ok) | split | dsimp +zetaDelta only | with_reducible apply ok_ite_snd | with_reducible apply ok_ite_fst | with_reducible apply id_ok

theorem State.loseSlice_ok {κ : Keep} (s : State) (n sl reason : Nat) (hs : s.Kept κ) :
    State.Kept κ (State.loseSlice s n sl reason) := by
  unfold State.loseSlice
  repeat' first | with_reducible assumption | (intro _) | with_reducible apply ok_ite | extract_lets | with_reducible apply State.put_ok | with_reducible apply State.raiseWith_ok | with_reducible apply State.updCal_ok | with_reducible apply State.calMark_ok | with_reducible apply State.startBackground_ok | fail_if_no_progress (with_reducible apply State.mk_ok) | split | dsimp +zetaDelta only

end Machine
end Sys2Proof
end

