-- ==== Sys2Proof/Laws/OkConverters.lean ====
section
/-!
SUPPORT. The canonical form is kept by every operation of Machine/Converters.lean.
-/

namespace Sys2Proof
namespace Machine

theorem State.clearArm_ok {κ : Keep} (s : State) (n : Nat) (hs : s.Kept κ) :
    State.Kept κ (State.clearArm s n) := by
  unfold State.clearArm
  repeat' first | with_reducible assumption | (intro _) | with_reducible apply ok_ite | extract_lets | with_reducible apply State.updAdc_ok | with_reducible apply State.updDdc_ok | with_reducible apply foldl_ok | with_reducible apply foldl_ok_fst | with_reducible apply foldl_ok_snd | fail_if_no_progress (with_reducible apply State.mk_ok) | split | dsimp +zetaDelta only

theorem State.adcToOff_ok {κ : Keep} (s : State) (n : Nat) (hs : s.Kept κ) :
    State.Kept κ (State.adcToOff s n) := by
  unfold State.adcToOff
  repeat' first | with_reducible assumption | (intro _) | with_reducible apply ok_ite | with_reducible apply State.put_ok | with_reducible apply State.calOff_ok | with_reducible apply State.clearArm_ok | fail_if_no_progress (with_reducible apply State.mk_ok) | split

theorem State.adcForce_ok {κ : Keep} (s : State) (n gapCause : Nat) (hs : s.Kept κ) :
    State.Kept κ (State.adcForce s n gapCause) := by
  unfold State.adcForce
  repeat' first | with_reducible assumption | (intro _) | with_reducible apply ok_ite | extract_lets | with_reducible apply State.put_ok | with_reducible apply State.updSource_ok | with_reducible apply State.stopSource_ok | with_reducible apply State.settleStops_ok | with_reducible apply foldl_ok | with_reducible apply foldl_ok_fst | with_reducible apply foldl_ok_snd | fail_if_no_progress (with_reducible apply State.mk_ok) | split | dsimp +zetaDelta only

theorem State.endStreams_ok {κ : Keep} (s : State) (n c : Nat) (hs : s.Kept κ) :
    State.Kept κ (State.endStreams s n c) := by
  unfold State.endStreams
  repeat' first | with_reducible assumption | (intro _) | with_reducible apply ok_ite | extract_lets | with_reducible apply State.updSource_ok | with_reducible apply State.stopSource_ok | with_reducible apply State.settleStops_ok | with_reducible apply foldl_ok | with_reducible apply foldl_ok_fst | with_reducible apply foldl_ok_snd | fail_if_no_progress (with_reducible apply State.mk_ok) | split | dsimp +zetaDelta only

theorem State.adcStop_ok {κ : Keep} (s : State) (n : Nat) (off : Bool) (hs : s.Kept κ) :
    State.Kept κ (State.adcStop s n off) := by
  unfold State.adcStop
  repeat' first | with_reducible assumption | (intro _) | with_reducible apply ok_ite | extract_lets | with_reducible apply State.put_ok | with_reducible apply State.updAdc_ok | with_reducible apply State.clearArm_ok | with_reducible apply State.adcToOff_ok | fail_if_no_progress (with_reducible apply State.mk_ok) | split | dsimp +zetaDelta only

theorem State.gateAdc_ok {κ : Keep} (s : State) (n : Nat) (hs : s.Kept κ) :
    State.Kept κ (State.gateAdc s n) := by
  unfold State.gateAdc
  repeat' first | with_reducible assumption | (intro _) | with_reducible apply ok_ite | with_reducible apply State.put_ok | with_reducible apply State.adcToOff_ok | with_reducible apply State.adcStop_ok | fail_if_no_progress (with_reducible apply State.mk_ok) | split

theorem State.settleHolds_ok {κ : Keep} (s : State) (hs : s.Kept κ) :
    State.Kept κ (State.settleHolds s) := by
  unfold State.settleHolds
  repeat' first | with_reducible assumption | (intro _) | with_reducible apply ok_ite | with_reducible apply State.put_ok | with_reducible apply foldl_ok | with_reducible apply foldl_ok_fst | with_reducible apply foldl_ok_snd | fail_if_no_progress (with_reducible apply State.mk_ok) | split

theorem State.releaseHeld_ok {κ : Keep} (s : State) (hs : s.Kept κ) :
    State.Kept κ (State.releaseHeld s) := by
  unfold State.releaseHeld
  repeat' first | with_reducible assumption | (intro _) | with_reducible apply ok_ite | extract_lets | with_reducible apply State.put_ok | with_reducible apply State.gateAdc_ok | with_reducible apply State.settleHolds_ok | with_reducible apply foldl_ok | with_reducible apply foldl_ok_fst | with_reducible apply foldl_ok_snd | fail_if_no_progress (with_reducible apply State.mk_ok) | split | dsimp +zetaDelta only

theorem State.abortDependents_ok {κ : Keep} (s : State) (units : List (Nat × Nat)) (cause : Nat) (hs : s.Kept κ) :
    State.Kept κ (State.abortDependents s units cause) := by
  unfold State.abortDependents
  repeat' first | with_reducible assumption | (intro _) | with_reducible apply ok_ite | with_reducible apply State.abortFlights_ok | with_reducible apply State.releaseHeld_ok | fail_if_no_progress (with_reducible apply State.mk_ok) | split

theorem State.adcForceOff_ok {κ : Keep} (s : State) (n flightCause : Nat) (hs : s.Kept κ) :
    State.Kept κ (State.adcForceOff s n flightCause) := by
  unfold State.adcForceOff
  repeat' first | with_reducible assumption | (intro _) | with_reducible apply ok_ite | extract_lets | with_reducible apply State.put_ok | with_reducible apply State.forceDownAdcPlans_ok | with_reducible apply State.adcToOff_ok | with_reducible apply State.adcForce_ok | with_reducible apply State.abortDependents_ok | fail_if_no_progress (with_reducible apply State.mk_ok) | split | dsimp +zetaDelta only

theorem State.dacToOff_ok {κ : Keep} (s : State) (n cause : Nat) (hs : s.Kept κ) :
    State.Kept κ (State.dacToOff s n cause) := by
  unfold State.dacToOff
  repeat' first | with_reducible assumption | (intro _) | with_reducible apply ok_ite | extract_lets | with_reducible apply State.put_ok | with_reducible apply State.sgAbort_ok | fail_if_no_progress (with_reducible apply State.mk_ok) | split | dsimp +zetaDelta only

theorem State.writeRefBit_ok {κ : Keep} (s : State) (k : Nat) (on : Bool) (hs : s.Kept κ) :
    State.Kept κ (State.writeRefBit s k on) := by
  unfold State.writeRefBit
  repeat' first | with_reducible assumption | (intro _) | with_reducible apply ok_ite | extract_lets | with_reducible apply State.setWord_ok | with_reducible apply State.updAdc_ok | with_reducible apply State.updDac_ok | with_reducible apply State.adcForceOff_ok | with_reducible apply State.dacToOff_ok | fail_if_no_progress (with_reducible apply State.mk_ok) | split | dsimp +zetaDelta only

theorem State.writeRefbuf_ok {κ : Keep} (s : State) (w : Nat) (hs : s.Kept κ) :
    State.Kept κ (State.writeRefbuf s w) := by
  unfold State.writeRefbuf
  repeat' first | with_reducible assumption | (intro _) | with_reducible apply ok_ite | with_reducible apply State.writeRefBit_ok | with_reducible apply foldl_ok | with_reducible apply foldl_ok_fst | with_reducible apply foldl_ok_snd | fail_if_no_progress (with_reducible apply State.mk_ok) | split

theorem execConvRefbufWrite_ok {κ : Keep} (p : Path) (w : Word) (s : State) (hs : s.Kept κ) :
    OutOk κ (execConvRefbufWrite p w s) := by
  unfold execConvRefbufWrite
  repeat' first | with_reducible assumption | (intro _) | with_reducible apply OutOk.ite | with_reducible apply ok_ite | with_reducible apply State.plainWrite_ok | with_reducible apply State.gate_ok | with_reducible apply State.writeRefbuf_ok | with_reducible apply OutOk.next | fail_if_no_progress (with_reducible apply State.mk_ok) | split

theorem execRefRdy_ok {κ : Keep} (k : Fin 8) (s : State) (hs : s.Kept κ) :
    OutOk κ (execRefRdy k s) := by
  unfold execRefRdy
  repeat' first | with_reducible assumption | (intro _) | with_reducible apply OutOk.ite | with_reducible apply ok_ite | extract_lets | with_reducible apply State.setWord_ok | with_reducible apply OutOk.next | fail_if_no_progress (with_reducible apply State.mk_ok) | split | dsimp +zetaDelta only

theorem State.adcOn_ok {κ : Keep} (s : State) (n : Nat) (hs : s.Kept κ) :
    State.Kept κ (State.adcOn s n) := by
  unfold State.adcOn
  repeat' first | with_reducible assumption | (intro _) | with_reducible apply ok_ite | extract_lets | with_reducible apply State.setWord_ok | with_reducible apply State.put_ok | with_reducible apply State.updAdc_ok | with_reducible apply State.settleHolds_ok | fail_if_no_progress (with_reducible apply State.mk_ok) | split | dsimp +zetaDelta only

theorem State.adcOff_ok {κ : Keep} (s : State) (n : Nat) (hs : s.Kept κ) :
    State.Kept κ (State.adcOff s n) := by
  unfold State.adcOff
  repeat' first | with_reducible assumption | (intro _) | with_reducible apply ok_ite | extract_lets | with_reducible apply State.put_ok | with_reducible apply State.holdOn_ok | with_reducible apply State.gateAdc_ok | fail_if_no_progress (with_reducible apply State.mk_ok) | split | dsimp +zetaDelta only

theorem execAdcOn_ok {κ : Keep} (p : Path) (n : Fin 4) (s : State) (hs : s.Kept κ) :
    OutOk κ (execAdcOn p n s) := by
  unfold execAdcOn
  repeat' first | with_reducible assumption | (intro _) | with_reducible apply OutOk.ite | with_reducible apply ok_ite | with_reducible apply State.gateField_ok | with_reducible apply State.adcOn_ok | with_reducible apply OutOk.next | fail_if_no_progress (with_reducible apply State.mk_ok) | split

theorem execAdcOff_ok {κ : Keep} (p : Path) (n : Fin 4) (s : State) (hs : s.Kept κ) :
    OutOk κ (execAdcOff p n s) := by
  unfold execAdcOff
  repeat' first | with_reducible assumption | (intro _) | with_reducible apply OutOk.ite | with_reducible apply ok_ite | with_reducible apply State.gateField_ok | with_reducible apply State.adcOff_ok | with_reducible apply OutOk.next | fail_if_no_progress (with_reducible apply State.mk_ok) | split

theorem State.writeAdcCtl_ok {κ : Keep} (s : State) (n w : Nat) (hs : s.Kept κ) :
    State.Kept κ (State.writeAdcCtl s n w) := by
  unfold State.writeAdcCtl
  repeat' first | with_reducible assumption | (intro _) | with_reducible apply ok_ite | extract_lets | with_reducible apply State.put_ok | with_reducible apply State.updAdc_ok | with_reducible apply State.adcOn_ok | with_reducible apply State.adcOff_ok | fail_if_no_progress (with_reducible apply State.mk_ok) | split | dsimp +zetaDelta only

theorem execConverterWakeDone_ok {κ : Keep} (k : Fin 8) (s : State) (hs : s.Kept κ) :
    OutOk κ (execConverterWakeDone k s) := by
  unfold execConverterWakeDone
  repeat' first | with_reducible assumption | (intro _) | with_reducible apply OutOk.ite | with_reducible apply ok_ite | extract_lets | with_reducible apply State.put_ok | with_reducible apply State.calDecision_ok | with_reducible apply OutOk.next | fail_if_no_progress (with_reducible apply State.mk_ok) | split | dsimp +zetaDelta only

theorem State.dacOn_ok {κ : Keep} (s : State) (n : Nat) (hs : s.Kept κ) :
    State.Kept κ (State.dacOn s n) := by
  unfold State.dacOn
  repeat' first | with_reducible assumption | (intro _) | with_reducible apply ok_ite | extract_lets | with_reducible apply State.put_ok | with_reducible apply State.updDac_ok | fail_if_no_progress (with_reducible apply State.mk_ok) | split | dsimp +zetaDelta only

theorem State.dacOff_ok {κ : Keep} (s : State) (n : Nat) (hs : s.Kept κ) :
    State.Kept κ (State.dacOff s n) := by
  unfold State.dacOff
  repeat' first | with_reducible assumption | (intro _) | with_reducible apply ok_ite | extract_lets | with_reducible apply State.put_ok | with_reducible apply State.updDac_ok | with_reducible apply State.dacToOff_ok | fail_if_no_progress (with_reducible apply State.mk_ok) | split | dsimp +zetaDelta only

theorem execDacOn_ok {κ : Keep} (p : Path) (n : Fin 4) (s : State) (hs : s.Kept κ) :
    OutOk κ (execDacOn p n s) := by
  unfold execDacOn
  repeat' first | with_reducible assumption | (intro _) | with_reducible apply OutOk.ite | with_reducible apply ok_ite | with_reducible apply State.gateField_ok | with_reducible apply State.dacOn_ok | with_reducible apply OutOk.next | fail_if_no_progress (with_reducible apply State.mk_ok) | split

theorem execDacOff_ok {κ : Keep} (p : Path) (n : Fin 4) (s : State) (hs : s.Kept κ) :
    OutOk κ (execDacOff p n s) := by
  unfold execDacOff
  repeat' first | with_reducible assumption | (intro _) | with_reducible apply OutOk.ite | with_reducible apply ok_ite | with_reducible apply State.gateField_ok | with_reducible apply State.dacOff_ok | with_reducible apply OutOk.next | fail_if_no_progress (with_reducible apply State.mk_ok) | split

theorem State.writeDacCtl_ok {κ : Keep} (s : State) (n : Nat) (w : Word) (hs : s.Kept κ) :
    State.Kept κ (State.writeDacCtl s n w) := by
  unfold State.writeDacCtl
  repeat' first | with_reducible assumption | (intro _) | with_reducible apply ok_ite | extract_lets | with_reducible apply State.send_ok | with_reducible apply State.plainWrite_ok | with_reducible apply State.dacOn_ok | with_reducible apply State.dacOff_ok | fail_if_no_progress (with_reducible apply State.mk_ok) | split | dsimp +zetaDelta only

theorem State.muteDac_ok {κ : Keep} (s : State) (n cause : Nat) (hs : s.Kept κ) :
    State.Kept κ (State.muteDac s n cause) := by
  unfold State.muteDac
  repeat' first | with_reducible assumption | (intro _) | with_reducible apply ok_ite | extract_lets | with_reducible apply State.send_ok | with_reducible apply State.put_ok | with_reducible apply State.updDac_ok | with_reducible apply State.sgAbort_ok | fail_if_no_progress (with_reducible apply State.mk_ok) | split | dsimp +zetaDelta only

theorem State.armCalibration_ok {κ : Keep} (s : State) (n : Nat) (hs : s.Kept κ) :
    State.Kept κ (State.armCalibration s n) := by
  unfold State.armCalibration
  repeat' first | with_reducible assumption | (intro _) | with_reducible apply ok_ite | extract_lets | with_reducible apply State.put_ok | with_reducible apply State.startBackground_ok | with_reducible apply State.loadFactory_ok | with_reducible apply State.abandonForeground_ok | fail_if_no_progress (with_reducible apply State.mk_ok) | split | dsimp +zetaDelta only | with_reducible apply ok_ite_snd | with_reducible apply ok_ite_fst | with_reducible apply id_ok

theorem State.adcArm_ok {κ : Keep} (s : State) (n : Nat) (hs : s.Kept κ) :
    State.Kept κ (State.adcArm s n) := by
  unfold State.adcArm
  repeat' first | with_reducible assumption | (intro _) | with_reducible apply ok_ite | extract_lets | with_reducible apply State.put_ok | with_reducible apply State.updAdc_ok | with_reducible apply State.armCalibration_ok | fail_if_no_progress (with_reducible apply State.mk_ok) | split | dsimp +zetaDelta only

theorem State.adcDisarm_ok {κ : Keep} (s : State) (n : Nat) (hs : s.Kept κ) :
    State.Kept κ (State.adcDisarm s n) := by
  unfold State.adcDisarm
  repeat' first | with_reducible assumption | (intro _) | with_reducible apply ok_ite | with_reducible apply State.put_ok | with_reducible apply State.clearArm_ok | with_reducible apply State.adcStop_ok | fail_if_no_progress (with_reducible apply State.mk_ok) | split

theorem State.writeAdcStart_ok {κ : Keep} (s : State) (n w : Nat) (hs : s.Kept κ) :
    State.Kept κ (State.writeAdcStart s n w) := by
  unfold State.writeAdcStart
  repeat' first | with_reducible assumption | (intro _) | with_reducible apply ok_ite | extract_lets | with_reducible apply State.plainWrite_ok | with_reducible apply State.adcArm_ok | with_reducible apply State.adcDisarm_ok | fail_if_no_progress (with_reducible apply State.mk_ok) | split | dsimp +zetaDelta only

theorem execAdcArm_ok {κ : Keep} (p : Path) (n : Fin 4) (w : Word) (s : State) (hs : s.Kept κ) :
    OutOk κ (execAdcArm p n w s) := by
  unfold execAdcArm
  repeat' first | with_reducible assumption | (intro _) | with_reducible apply OutOk.ite | with_reducible apply ok_ite | with_reducible apply State.plainWrite_ok | with_reducible apply State.gate_ok | with_reducible apply State.writeAdcStart_ok | with_reducible apply OutOk.next | fail_if_no_progress (with_reducible apply State.mk_ok) | split

theorem execAdcDisarm_ok {κ : Keep} (p : Path) (n : Fin 4) (w : Word) (s : State) (hs : s.Kept κ) :
    OutOk κ (execAdcDisarm p n w s) := by
  unfold execAdcDisarm
  repeat' first | with_reducible assumption | (intro _) | with_reducible apply OutOk.ite | with_reducible apply ok_ite | with_reducible apply State.plainWrite_ok | with_reducible apply State.gate_ok | with_reducible apply State.writeAdcStart_ok | with_reducible apply OutOk.next | fail_if_no_progress (with_reducible apply State.mk_ok) | split

theorem execStartInstant_ok {κ : Keep} (n : Fin 4) (s : State) (hs : s.Kept κ) :
    OutOk κ (execStartInstant n s) := by
  unfold execStartInstant
  repeat' first | with_reducible assumption | (intro _) | with_reducible apply OutOk.ite | with_reducible apply ok_ite | extract_lets | with_reducible apply State.setWord_ok | with_reducible apply State.put_ok | with_reducible apply State.updAdc_ok | with_reducible apply State.updDdc_ok | with_reducible apply foldl_ok | with_reducible apply foldl_ok_fst | with_reducible apply foldl_ok_snd | with_reducible apply OutOk.next | fail_if_no_progress (with_reducible apply State.mk_ok) | split | dsimp +zetaDelta only

theorem State.countOverrange_ok {κ : Keep} (s : State) (n : Nat) (hs : s.Kept κ) :
    State.Kept κ (State.countOverrange s n) := by
  unfold State.countOverrange
  repeat' first | with_reducible assumption | (intro _) | with_reducible apply ok_ite | extract_lets | with_reducible apply State.put_ok | with_reducible apply State.satInc_ok | with_reducible apply State.raiseInst_ok | fail_if_no_progress (with_reducible apply State.mk_ok) | split | dsimp +zetaDelta only

theorem State.convert_ok {κ : Keep} (s : State) (n : Nat) (x : Int) (hs : s.Kept κ) :
    State.Kept κ (State.convert s n x) := by
  unfold State.convert
  repeat' first | with_reducible assumption | (intro _) | with_reducible apply ok_ite | extract_lets | with_reducible apply State.updSource_ok | with_reducible apply State.updAdc_ok | with_reducible apply State.releaseSample_ok | with_reducible apply State.countOverrange_ok | fail_if_no_progress (with_reducible apply State.mk_ok) | split | dsimp +zetaDelta only

theorem execConvertedSample_ok {κ : Keep} (n : Fin 4) (x : Int) (s : State) (hs : s.Kept κ) :
    OutOk κ (execConvertedSample n x s) := by
  unfold execConvertedSample
  repeat' first | with_reducible assumption | (intro _) | with_reducible apply OutOk.ite | with_reducible apply ok_ite | with_reducible apply State.convert_ok | with_reducible apply OutOk.next | fail_if_no_progress (with_reducible apply State.mk_ok) | split

theorem execFirstAcquiredSample_ok {κ : Keep} (n : Fin 4) (x : Int) (s : State) (hs : s.Kept κ) :
    OutOk κ (execFirstAcquiredSample n x s) := by
  unfold execFirstAcquiredSample
  repeat' first | with_reducible assumption | (intro _) | with_reducible apply OutOk.ite | with_reducible apply ok_ite | with_reducible apply State.convert_ok | with_reducible apply OutOk.next | fail_if_no_progress (with_reducible apply State.mk_ok) | split

theorem execGranuleStop_ok {κ : Keep} (n : Fin 4) (s : State) (hs : s.Kept κ) :
    OutOk κ (execGranuleStop n s) := by
  unfold execGranuleStop
  repeat' first | with_reducible assumption | (intro _) | with_reducible apply OutOk.ite | with_reducible apply ok_ite | extract_lets | with_reducible apply State.put_ok | with_reducible apply State.clearArm_ok | with_reducible apply State.adcToOff_ok | with_reducible apply State.endStreams_ok | with_reducible apply OutOk.next | fail_if_no_progress (with_reducible apply State.mk_ok) | split | dsimp +zetaDelta only

theorem execFsChange_ok {κ : Keep} (n : Fin 4) (s : State) (hs : s.Kept κ) :
    OutOk κ (execFsChange n s) := by
  unfold execFsChange
  repeat' first | with_reducible assumption | (intro _) | with_reducible apply OutOk.ite | with_reducible apply ok_ite | extract_lets | with_reducible apply State.updAdc_ok | with_reducible apply State.calMark_ok | with_reducible apply OutOk.next | fail_if_no_progress (with_reducible apply State.mk_ok) | split | dsimp +zetaDelta only

theorem State.sync_ok {κ : Keep} (s : State) (hs : s.Kept κ) :
    State.Kept κ (State.sync s) := by
  unfold State.sync
  repeat' first | with_reducible assumption | (intro _) | with_reducible apply ok_ite | with_reducible apply State.put_ok | with_reducible apply State.raiseInst_ok | fail_if_no_progress (with_reducible apply State.mk_ok) | split

theorem State.commandSync_ok {κ : Keep} (s : State) (hs : s.Kept κ) :
    State.Kept κ (State.commandSync s) := by
  unfold State.commandSync
  repeat' first | with_reducible assumption | (intro _) | with_reducible apply ok_ite | extract_lets | with_reducible apply State.send_ok | with_reducible apply State.sync_ok | fail_if_no_progress (with_reducible apply State.mk_ok) | split | dsimp +zetaDelta only

theorem execCommandSync_ok {κ : Keep} (p : Path) (s : State) (hs : s.Kept κ) :
    OutOk κ (execCommandSync p s) := by
  unfold execCommandSync
  repeat' first | with_reducible assumption | (intro _) | with_reducible apply OutOk.ite | with_reducible apply ok_ite | with_reducible apply State.gateAction_ok | with_reducible apply State.commandSync_ok | with_reducible apply OutOk.next | fail_if_no_progress (with_reducible apply State.mk_ok) | split

theorem State.writeConvSync_ok {κ : Keep} (s : State) (w : Word) (hs : s.Kept κ) :
    State.Kept κ (State.writeConvSync s w) := by
  unfold State.writeConvSync
  repeat' first | with_reducible assumption | (intro _) | with_reducible apply ok_ite | extract_lets | with_reducible apply State.put_ok | with_reducible apply State.plainWrite_ok | with_reducible apply State.commandSync_ok | fail_if_no_progress (with_reducible apply State.mk_ok) | split | dsimp +zetaDelta only

theorem execSyncEdge_ok {κ : Keep} (s : State) (hs : s.Kept κ) :
    OutOk κ (execSyncEdge s) := by
  unfold execSyncEdge
  repeat' first | with_reducible assumption | (intro _) | with_reducible apply OutOk.ite | with_reducible apply ok_ite | extract_lets | with_reducible apply State.send_ok | with_reducible apply State.sync_ok | with_reducible apply OutOk.next | fail_if_no_progress (with_reducible apply State.mk_ok) | split | dsimp +zetaDelta only

theorem State.recordSync_ok {κ : Keep} (s : State) (t : Nat) (hs : s.Kept κ) :
    State.Kept κ (State.recordSync s t) := by
  unfold State.recordSync
  repeat' first | with_reducible assumption | (intro _) | with_reducible apply ok_ite | extract_lets | with_reducible apply State.setWord_ok | fail_if_no_progress (with_reducible apply State.mk_ok) | split | dsimp +zetaDelta only

theorem State.restartCounters_ok {κ : Keep} (s : State) (t : Nat) (hs : s.Kept κ) :
    State.Kept κ (State.restartCounters s t) := by
  unfold State.restartCounters
  repeat' first | with_reducible assumption | (intro _) | with_reducible apply ok_ite | extract_lets | with_reducible apply State.put_ok | with_reducible apply State.updSource_ok | with_reducible apply State.updAdc_ok | with_reducible apply State.updCal_ok | with_reducible apply State.updDdc_ok | with_reducible apply foldl_ok | with_reducible apply foldl_ok_fst | with_reducible apply foldl_ok_snd | fail_if_no_progress (with_reducible apply State.mk_ok) | split | dsimp +zetaDelta only | with_reducible apply ok_ite_snd | with_reducible apply ok_ite_fst | with_reducible apply id_ok

theorem State.restartDecimators_ok {κ : Keep} (s : State) (hs : s.Kept κ) :
    State.Kept κ (State.restartDecimators s) := by
  unfold State.restartDecimators
  repeat' first | with_reducible assumption | (intro _) | with_reducible apply ok_ite | with_reducible apply State.updSource_ok | with_reducible apply State.updDdc_ok | with_reducible apply foldl_ok | with_reducible apply foldl_ok_fst | with_reducible apply foldl_ok_snd | fail_if_no_progress (with_reducible apply State.mk_ok) | split | with_reducible apply ok_ite_snd | with_reducible apply ok_ite_fst | with_reducible apply id_ok

theorem State.restartGrids_ok {κ : Keep} (s : State) (hs : s.Kept κ) :
    State.Kept κ (State.restartGrids s) := by
  unfold State.restartGrids
  repeat' first | with_reducible assumption | (intro _) | with_reducible apply ok_ite | with_reducible apply State.updPlan_ok | with_reducible apply foldl_ok | with_reducible apply foldl_ok_fst | with_reducible apply foldl_ok_snd | fail_if_no_progress (with_reducible apply State.mk_ok) | split | with_reducible apply ok_ite_snd | with_reducible apply ok_ite_fst | with_reducible apply id_ok

theorem State.startOnSync_ok {κ : Keep} (s : State) (t : Nat) (hs : s.Kept κ) :
    State.Kept κ (State.startOnSync s t) := by
  unfold State.startOnSync
  repeat' first | with_reducible assumption | (intro _) | with_reducible apply ok_ite | extract_lets | with_reducible apply State.updPlan_ok | with_reducible apply State.updSg_ok | with_reducible apply State.sgSchedule_ok | with_reducible apply State.sgAbort_ok | with_reducible apply foldl_ok | with_reducible apply foldl_ok_fst | with_reducible apply foldl_ok_snd | fail_if_no_progress (with_reducible apply State.mk_ok) | split | dsimp +zetaDelta only

theorem execSyncReferenceEdge_ok {κ : Keep} (sub : Fin 2621440) (s : State) (hs : s.Kept κ) :
    OutOk κ (execSyncReferenceEdge sub s) := by
  unfold execSyncReferenceEdge
  repeat' first | with_reducible assumption | (intro _) | with_reducible apply OutOk.ite | with_reducible apply ok_ite | extract_lets | with_reducible apply State.recordSync_ok | with_reducible apply State.restartCounters_ok | with_reducible apply State.restartDecimators_ok | with_reducible apply State.restartGrids_ok | with_reducible apply State.startOnSync_ok | with_reducible apply OutOk.next | fail_if_no_progress (with_reducible apply State.mk_ok) | split | dsimp +zetaDelta only

end Machine
end Sys2Proof
end

