-- ==== Sys2Proof/Laws/OkDdcs.lean ====
section
/-!
SUPPORT. The canonical form is kept by every operation of Machine/Ddcs.lean.
-/

namespace Sys2Proof
namespace Machine

theorem State.tune_ok {κ : Keep} (s : State) (d b : Nat) (r : Retune) (hs : s.Kept κ) :
    State.Kept κ (State.tune s d b r) := by
  unfold State.tune
  repeat' first | with_reducible assumption | (intro _) | with_reducible apply ok_ite | extract_lets | with_reducible apply State.updDdc_ok | fail_if_no_progress (with_reducible apply State.mk_ok) | split | dsimp +zetaDelta only

theorem State.retuneMark_ok {κ : Keep} (s : State) (d b : Nat) (r : Retune) (hs : s.Kept κ) :
    State.Kept κ (State.retuneMark s d b r) := by
  unfold State.retuneMark
  repeat' first | with_reducible assumption | (intro _) | with_reducible apply ok_ite | extract_lets | with_reducible apply State.updSource_ok | with_reducible apply State.markSource_ok | fail_if_no_progress (with_reducible apply State.mk_ok) | split | dsimp +zetaDelta only

theorem State.listStopped_ok {κ : Keep} (s : State) (d : Nat) (hs : s.Kept κ) :
    State.Kept κ (State.listStopped s d) := by
  unfold State.listStopped
  repeat' first | with_reducible assumption | (intro _) | with_reducible apply ok_ite | with_reducible apply State.put_ok | with_reducible apply State.updDdc_ok | fail_if_no_progress (with_reducible apply State.mk_ok) | split

theorem State.listRetuned_ok {κ : Keep} (s : State) (d b e : Nat) (hs : s.Kept κ) :
    State.Kept κ (State.listRetuned s d b e) := by
  unfold State.listRetuned
  repeat' first | with_reducible assumption | (intro _) | with_reducible apply ok_ite | extract_lets | with_reducible apply State.put_ok | with_reducible apply State.updDdc_ok | fail_if_no_progress (with_reducible apply State.mk_ok) | split | dsimp +zetaDelta only

theorem State.commandRetuned_ok {κ : Keep} (s : State) (d b : Nat) (r : Retune) (hs : s.Kept κ) :
    State.Kept κ (State.commandRetuned s d b r) := by
  unfold State.commandRetuned
  repeat' first | with_reducible assumption | (intro _) | with_reducible apply ok_ite | extract_lets | with_reducible apply State.put_ok | with_reducible apply State.retireRef_ok | with_reducible apply State.updDdc_ok | fail_if_no_progress (with_reducible apply State.mk_ok) | split | dsimp +zetaDelta only

theorem execRetuneBoundary_ok {κ : Keep} (d : Fin 8) (s : State) (hs : s.Kept κ) :
    OutOk κ (execRetuneBoundary d s) := by
  unfold execRetuneBoundary
  repeat' first | with_reducible assumption | (intro _) | with_reducible apply OutOk.ite | with_reducible apply ok_ite | extract_lets | with_reducible apply State.inc_ok | with_reducible apply State.tune_ok | with_reducible apply State.retuneMark_ok | with_reducible apply State.listStopped_ok | with_reducible apply State.listRetuned_ok | with_reducible apply State.commandRetuned_ok | with_reducible apply OutOk.next | fail_if_no_progress (with_reducible apply State.mk_ok) | split | dsimp +zetaDelta only | with_reducible apply ok_ite_snd | with_reducible apply ok_ite_fst | with_reducible apply id_ok

theorem State.dropRetune_ok {κ : Keep} (s : State) (d : Nat) (hs : s.Kept κ) :
    State.Kept κ (State.dropRetune s d) := by
  unfold State.dropRetune
  repeat' first | with_reducible assumption | (intro _) | with_reducible apply ok_ite | extract_lets | with_reducible apply State.put_ok | with_reducible apply State.retireRef_ok | with_reducible apply State.updDdc_ok | fail_if_no_progress (with_reducible apply State.mk_ok) | split | dsimp +zetaDelta only

theorem State.pendRetune_ok {κ : Keep} (s : State) (d : Nat) (r : Retune) (hs : s.Kept κ) :
    State.Kept κ (State.pendRetune s d r) := by
  unfold State.pendRetune
  repeat' first | with_reducible assumption | (intro _) | with_reducible apply ok_ite | with_reducible apply State.put_ok | with_reducible apply State.updDdc_ok | with_reducible apply State.dropRetune_ok | fail_if_no_progress (with_reducible apply State.mk_ok) | split

theorem State.retuneGo_ok {κ : Keep} (s : State) (d : Nat) (hs : s.Kept κ) :
    State.Kept κ (State.retuneGo s d) := by
  unfold State.retuneGo
  repeat' first | with_reducible assumption | (intro _) | with_reducible apply ok_ite | with_reducible apply State.put_ok | with_reducible apply State.pendRetune_ok | fail_if_no_progress (with_reducible apply State.mk_ok) | split

theorem State.retuneCancel_ok {κ : Keep} (s : State) (d : Nat) (hs : s.Kept κ) :
    State.Kept κ (State.retuneCancel s d) := by
  unfold State.retuneCancel
  repeat' first | with_reducible assumption | (intro _) | with_reducible apply ok_ite | with_reducible apply State.dropRetune_ok | fail_if_no_progress (with_reducible apply State.mk_ok) | split

theorem execRetuneGo_ok {κ : Keep} (p : Path) (d : Fin 8) (s : State) (hs : s.Kept κ) :
    OutOk κ (execRetuneGo p d s) := by
  unfold execRetuneGo
  repeat' first | with_reducible assumption | (intro _) | with_reducible apply OutOk.ite | with_reducible apply ok_ite | with_reducible apply State.gateAction_ok | with_reducible apply State.retuneGo_ok | with_reducible apply OutOk.next | fail_if_no_progress (with_reducible apply State.mk_ok) | split

theorem execRetuneCancel_ok {κ : Keep} (p : Path) (d : Fin 8) (s : State) (hs : s.Kept κ) :
    OutOk κ (execRetuneCancel p d s) := by
  unfold execRetuneCancel
  repeat' first | with_reducible assumption | (intro _) | with_reducible apply OutOk.ite | with_reducible apply ok_ite | with_reducible apply State.gateAction_ok | with_reducible apply State.retuneCancel_ok | with_reducible apply OutOk.next | fail_if_no_progress (with_reducible apply State.mk_ok) | split

theorem State.retuneAccept_ok {κ : Keep} (o : Order) (s : State) (hs : s.Kept κ) :
    State.Kept κ (State.retuneAccept o s) := by
  unfold State.retuneAccept
  repeat' first | with_reducible assumption | (intro _) | with_reducible apply ok_ite | extract_lets | with_reducible apply State.gate_ok | with_reducible apply State.retire_ok | with_reducible apply State.validate_ok | with_reducible apply State.pendRetune_ok | fail_if_no_progress (with_reducible apply State.mk_ok) | split | dsimp +zetaDelta only

theorem execDdcRetune_ok {κ : Keep} (s : State) (hs : s.Kept κ) :
    OutOk κ (execDdcRetune s) := by
  unfold execDdcRetune
  repeat' first | with_reducible assumption | (intro _) | with_reducible apply OutOk.ite | with_reducible apply ok_ite | with_reducible apply State.accept_ok | with_reducible apply State.retuneAccept_ok | with_reducible apply OutOk.next | fail_if_no_progress (with_reducible apply State.mk_ok) | split

theorem execListAdvance_ok {κ : Keep} (d : Fin 8) (s : State) (hs : s.Kept κ) :
    OutOk κ (execListAdvance d s) := by
  unfold execListAdvance
  repeat' first | with_reducible assumption | (intro _) | with_reducible apply OutOk.ite | with_reducible apply ok_ite | extract_lets | with_reducible apply State.put_ok | with_reducible apply State.updDdc_ok | with_reducible apply OutOk.next | fail_if_no_progress (with_reducible apply State.mk_ok) | split | dsimp +zetaDelta only

theorem State.enableDdc_ok {κ : Keep} (s : State) (d : Nat) (hs : s.Kept κ) :
    State.Kept κ (State.enableDdc s d) := by
  unfold State.enableDdc
  repeat' first | with_reducible assumption | (intro _) | with_reducible apply ok_ite | extract_lets | with_reducible apply State.updSource_ok | with_reducible apply State.updDdc_ok | fail_if_no_progress (with_reducible apply State.mk_ok) | split | dsimp +zetaDelta only

theorem State.disableDdc_ok {κ : Keep} (s : State) (d : Nat) (hs : s.Kept κ) :
    State.Kept κ (State.disableDdc s d) := by
  unfold State.disableDdc
  repeat' first | with_reducible assumption | (intro _) | with_reducible apply ok_ite | extract_lets | with_reducible apply State.put_ok | with_reducible apply State.updSource_ok | with_reducible apply State.updDdc_ok | with_reducible apply State.dropRetune_ok | fail_if_no_progress (with_reducible apply State.mk_ok) | split | dsimp +zetaDelta only

theorem State.writePhaseMode_ok {κ : Keep} (s : State) (d : Nat) (coherent : Bool) (hs : s.Kept κ) :
    State.Kept κ (State.writePhaseMode s d coherent) := by
  unfold State.writePhaseMode
  repeat' first | with_reducible assumption | (intro _) | with_reducible apply ok_ite | extract_lets | with_reducible apply State.put_ok | with_reducible apply State.updDdc_ok | fail_if_no_progress (with_reducible apply State.mk_ok) | split | dsimp +zetaDelta only

theorem State.restartDdc_ok {κ : Keep} (s : State) (d : Nat) (hs : s.Kept κ) :
    State.Kept κ (State.restartDdc s d) := by
  unfold State.restartDdc
  repeat' first | with_reducible assumption | (intro _) | with_reducible apply ok_ite | extract_lets | with_reducible apply State.put_ok | with_reducible apply State.updSource_ok | with_reducible apply State.updDdc_ok | fail_if_no_progress (with_reducible apply State.mk_ok) | split | dsimp +zetaDelta only

theorem State.writeDdcCtl_ok {κ : Keep} (s : State) (d w : Nat) (hs : s.Kept κ) :
    State.Kept κ (State.writeDdcCtl s d w) := by
  unfold State.writeDdcCtl
  repeat' first | with_reducible assumption | (intro _) | with_reducible apply ok_ite | extract_lets | with_reducible apply State.put_ok | with_reducible apply State.updDdc_ok | with_reducible apply State.enableDdc_ok | with_reducible apply State.disableDdc_ok | with_reducible apply State.writePhaseMode_ok | with_reducible apply State.restartDdc_ok | fail_if_no_progress (with_reducible apply State.mk_ok) | split | dsimp +zetaDelta only

theorem execDdcCtlWrite_ok {κ : Keep} (p : Path) (d : Fin 8) (w : Word) (s : State) (hs : s.Kept κ) :
    OutOk κ (execDdcCtlWrite p d w s) := by
  unfold execDdcCtlWrite
  repeat' first | with_reducible assumption | (intro _) | with_reducible apply OutOk.ite | with_reducible apply ok_ite | with_reducible apply State.plainWrite_ok | with_reducible apply State.gate_ok | with_reducible apply State.writeDdcCtl_ok | with_reducible apply OutOk.next | fail_if_no_progress (with_reducible apply State.mk_ok) | split

theorem State.writeDdcRetune_ok {κ : Keep} (s : State) (d w : Nat) (hs : s.Kept κ) :
    State.Kept κ (State.writeDdcRetune s d w) := by
  unfold State.writeDdcRetune
  repeat' first | with_reducible assumption | (intro _) | with_reducible apply ok_ite | with_reducible apply State.retuneGo_ok | with_reducible apply State.retuneCancel_ok | fail_if_no_progress (with_reducible apply State.mk_ok) | split

theorem State.writeDdcList_ok {κ : Keep} (s : State) (d key : Nat) (w : Word) (hs : s.Kept κ) :
    State.Kept κ (State.writeDdcList s d key w) := by
  unfold State.writeDdcList
  repeat' first | with_reducible assumption | (intro _) | with_reducible apply ok_ite | with_reducible apply State.put_ok | with_reducible apply State.plainWrite_ok | fail_if_no_progress (with_reducible apply State.mk_ok) | split

theorem State.pltTake_ok {κ : Keep} (s : State) (p : Nat) (z : Int × Int) (settling : Bool) (hs : s.Kept κ) :
    State.Kept κ (State.pltTake s p z settling) := by
  unfold State.pltTake
  repeat' first | with_reducible assumption | (intro _) | with_reducible apply ok_ite | extract_lets | with_reducible apply State.put_ok | with_reducible apply State.updPlt_ok | fail_if_no_progress (with_reducible apply State.mk_ok) | split | dsimp +zetaDelta only | with_reducible apply ok_ite_snd | with_reducible apply ok_ite_fst | with_reducible apply id_ok

theorem State.pltSet_ok {κ : Keep} (s : State) (p : Nat) (now : Bool) (stamp qual : Nat) (hs : s.Kept κ) :
    State.Kept κ (State.pltSet s p now stamp qual) := by
  unfold State.pltSet
  repeat' first | with_reducible assumption | (intro _) | with_reducible apply ok_ite | extract_lets | with_reducible apply State.put_ok | with_reducible apply State.inc_ok | with_reducible apply State.evaluated_ok | fail_if_no_progress (with_reducible apply State.mk_ok) | split | dsimp +zetaDelta only

theorem State.pltRestart_ok {κ : Keep} (s : State) (p : Nat) (hs : s.Kept κ) :
    State.Kept κ (State.pltRestart s p) := by
  unfold State.pltRestart
  repeat' first | with_reducible assumption | (intro _) | with_reducible apply ok_ite | with_reducible apply State.put_ok | with_reducible apply State.updPlt_ok | fail_if_no_progress (with_reducible apply State.mk_ok) | split

theorem execPltEvaluation_ok {κ : Keep} (p : Fin 8) (s : State) (hs : s.Kept κ) :
    OutOk κ (execPltEvaluation p s) := by
  unfold execPltEvaluation
  repeat' first | with_reducible assumption | (intro _) | with_reducible apply OutOk.ite | with_reducible apply ok_ite | extract_lets | with_reducible apply State.put_ok | with_reducible apply State.updPlt_ok | with_reducible apply State.pltSet_ok | with_reducible apply State.pltRestart_ok | with_reducible apply foldl_ok | with_reducible apply foldl_ok_fst | with_reducible apply foldl_ok_snd | with_reducible apply OutOk.next | fail_if_no_progress (with_reducible apply State.mk_ok) | split | dsimp +zetaDelta only

theorem State.pltFalls_ok {κ : Keep} (s : State) (p : Nat) (hs : s.Kept κ) :
    State.Kept κ (State.pltFalls s p) := by
  unfold State.pltFalls
  repeat' first | with_reducible assumption | (intro _) | with_reducible apply ok_ite | with_reducible apply State.fresh_ok | with_reducible apply State.pltSet_ok | fail_if_no_progress (with_reducible apply State.mk_ok) | split | with_reducible apply ok_ite_snd | with_reducible apply ok_ite_fst | with_reducible apply id_ok

theorem State.writePltCtl_ok {κ : Keep} (s : State) (p : Nat) (w : Word) (hs : s.Kept κ) :
    State.Kept κ (State.writePltCtl s p w) := by
  unfold State.writePltCtl
  repeat' first | with_reducible assumption | (intro _) | with_reducible apply ok_ite | extract_lets | with_reducible apply State.plainWrite_ok | with_reducible apply State.pltRestart_ok | with_reducible apply State.pltFalls_ok | fail_if_no_progress (with_reducible apply State.mk_ok) | split | dsimp +zetaDelta only

theorem State.countSaturation_ok {κ : Keep} (s : State) (d : Nat) (hs : s.Kept κ) :
    State.Kept κ (State.countSaturation s d) := by
  unfold State.countSaturation
  repeat' first | with_reducible assumption | (intro _) | with_reducible apply ok_ite | extract_lets | with_reducible apply State.put_ok | with_reducible apply State.satInc_ok | with_reducible apply State.raiseInst_ok | fail_if_no_progress (with_reducible apply State.mk_ok) | split | dsimp +zetaDelta only

theorem State.ddcRelease_ok {κ : Keep} (s : State) (d m : Nat) (hs : s.Kept κ) :
    State.Kept κ (State.ddcRelease s d m) := by
  unfold State.ddcRelease
  repeat' first | with_reducible assumption | (intro _) | with_reducible apply ok_ite | extract_lets | with_reducible apply State.put_ok | with_reducible apply State.updSource_ok | with_reducible apply State.releaseSample_ok | with_reducible apply State.pltTake_ok | with_reducible apply State.countSaturation_ok | with_reducible apply foldl_ok | with_reducible apply foldl_ok_fst | with_reducible apply foldl_ok_snd | fail_if_no_progress (with_reducible apply State.mk_ok) | split | dsimp +zetaDelta only | with_reducible apply ok_ite_snd | with_reducible apply ok_ite_fst | with_reducible apply id_ok

theorem execDdcOutputSample_ok {κ : Keep} (d : Fin 8) (s : State) (hs : s.Kept κ) :
    OutOk κ (execDdcOutputSample d s) := by
  unfold execDdcOutputSample
  repeat' first | with_reducible assumption | (intro _) | with_reducible apply OutOk.ite | with_reducible apply ok_ite | extract_lets | with_reducible apply State.put_ok | with_reducible apply State.updSource_ok | with_reducible apply State.stopSource_ok | with_reducible apply State.settleStops_ok | with_reducible apply State.ddcRelease_ok | with_reducible apply OutOk.next | fail_if_no_progress (with_reducible apply State.mk_ok) | split | dsimp +zetaDelta only

end Machine
end Sys2Proof
end

