-- ==== Sys2Proof/Laws/OkLanes.lean ====
section
/-!
SUPPORT. The canonical form is kept by every operation of Machine/Lanes.lean.
-/

namespace Sys2Proof
namespace Machine

theorem State.countCe_ok {κ : Keep} (s : State) (l n : Nat) (hs : s.Kept κ) :
    State.Kept κ (State.countCe s l n) := by
  unfold State.countCe
  repeat' first | with_reducible assumption | (intro _) | with_reducible apply ok_ite | extract_lets | with_reducible apply State.satInc_ok | with_reducible apply State.raiseInst_ok | fail_if_no_progress (with_reducible apply State.mk_ok) | split | dsimp +zetaDelta only

theorem execFrameFilled_ok {κ : Keep} (p : Fin 64) (ce : Fin 65536) (s : State) (hs : s.Kept κ) :
    OutOk κ (execFrameFilled p ce s) := by
  unfold execFrameFilled
  repeat' first | with_reducible assumption | (intro _) | with_reducible apply OutOk.ite | with_reducible apply ok_ite | extract_lets | with_reducible apply State.updPlan_ok | with_reducible apply State.skipLost_ok | with_reducible apply State.settleStop_ok | with_reducible apply State.countCe_ok | with_reducible apply OutOk.next | fail_if_no_progress (with_reducible apply State.mk_ok) | split | dsimp +zetaDelta only

theorem State.exportSheet_ok {κ : Keep} (s : State) (p : Nat) (b : Barge) (endStamp : Nat) (hs : s.Kept κ) :
    State.Kept κ (State.exportSheet s p b endStamp) := by
  unfold State.exportSheet
  repeat' first | with_reducible assumption | (intro _) | with_reducible apply ok_ite | extract_lets | with_reducible apply State.admitBarge_ok | with_reducible apply State.updPlan_ok | fail_if_no_progress (with_reducible apply State.mk_ok) | split | dsimp +zetaDelta only | with_reducible apply ok_ite_snd | with_reducible apply ok_ite_fst | with_reducible apply id_ok

theorem State.emitPlanMarks_ok {κ : Keep} (s : State) (p t : Nat) (hs : s.Kept κ) :
    State.Kept κ (State.emitPlanMarks s p t) := by
  unfold State.emitPlanMarks
  repeat' first | with_reducible assumption | (intro _) | with_reducible apply ok_ite | extract_lets | with_reducible apply State.updPlan_ok | with_reducible apply State.emitPlanMark_ok | with_reducible apply foldl_ok | with_reducible apply foldl_ok_fst | with_reducible apply foldl_ok_snd | fail_if_no_progress (with_reducible apply State.mk_ok) | split | dsimp +zetaDelta only | with_reducible apply ok_ite_snd | with_reducible apply ok_ite_fst | with_reducible apply id_ok

theorem State.deliverSheet_ok {κ : Keep} (s : State) (p : Nat) (fr : Frame) (raw : List (Int × Int)) (hs : s.Kept κ) :
    State.Kept κ (State.deliverSheet s p fr raw) := by
  unfold State.deliverSheet
  repeat' first | with_reducible assumption | (intro _) | with_reducible apply ok_ite | extract_lets | with_reducible apply State.put_ok | with_reducible apply State.inc_ok | with_reducible apply State.raiseInst_ok | with_reducible apply State.updPlan_ok | with_reducible apply State.stepsReached_ok | with_reducible apply State.flushPlanMarks_ok | with_reducible apply State.engineSheet_ok | with_reducible apply State.settleEngine_ok | with_reducible apply State.reamsSheet_ok | with_reducible apply State.settleReams_ok | with_reducible apply State.weirSheet_ok | with_reducible apply State.accountTo_ok | with_reducible apply State.skipLost_ok | with_reducible apply State.settleStop_ok | with_reducible apply State.exportSheet_ok | with_reducible apply State.emitPlanMarks_ok | with_reducible apply foldl_ok | with_reducible apply foldl_ok_fst | with_reducible apply foldl_ok_snd | fail_if_no_progress (with_reducible apply State.mk_ok) | split | dsimp +zetaDelta only

theorem State.beginFailover_ok {κ : Keep} (s : State) (p slot l cause sp ready : Nat) (hs : s.Kept κ) :
    State.Kept κ (State.beginFailover s p slot l cause sp ready) := by
  unfold State.beginFailover
  repeat' first | with_reducible assumption | (intro _) | with_reducible apply ok_ite | extract_lets | with_reducible apply State.updPlan_ok | fail_if_no_progress (with_reducible apply State.mk_ok) | split | dsimp +zetaDelta only

theorem State.putSlot_ok {κ : Keep} (s : State) (p slot l : Nat) (hs : s.Kept κ) :
    State.Kept κ (State.putSlot s p slot l) := by
  unfold State.putSlot
  repeat' first | with_reducible assumption | (intro _) | with_reducible apply ok_ite | with_reducible apply State.updPlan_ok | fail_if_no_progress (with_reducible apply State.mk_ok) | split

theorem State.failover_ok {κ : Keep} (s : State) (p l cause fence : Nat) (hs : s.Kept κ) :
    State.Kept κ (State.failover s p l cause fence) := by
  unfold State.failover
  repeat' first | with_reducible assumption | (intro _) | with_reducible apply ok_ite | extract_lets | with_reducible apply State.put_ok | with_reducible apply State.updPlan_ok | with_reducible apply State.settleLanes_ok | with_reducible apply State.callLane_ok | with_reducible apply State.settleStop_ok | with_reducible apply State.dropPlan_ok | with_reducible apply State.beginFailover_ok | with_reducible apply State.putSlot_ok | with_reducible apply foldl_ok | with_reducible apply foldl_ok_fst | with_reducible apply foldl_ok_snd | fail_if_no_progress (with_reducible apply State.mk_ok) | split | dsimp +zetaDelta only

theorem State.laneFault_ok {κ : Keep} (s : State) (l cause fence : Nat) (hs : s.Kept κ) :
    State.Kept κ (State.laneFault s l cause fence) := by
  unfold State.laneFault
  repeat' first | with_reducible assumption | (intro _) | with_reducible apply ok_ite | extract_lets | with_reducible apply State.put_ok | with_reducible apply State.satInc_ok | with_reducible apply State.raiseInst_ok | with_reducible apply State.setLane_ok | with_reducible apply State.settleLanes_ok | with_reducible apply State.dropTest_ok | with_reducible apply State.abortDependents_ok | with_reducible apply State.failover_ok | fail_if_no_progress (with_reducible apply State.mk_ok) | split | dsimp +zetaDelta only

theorem execSheetDelivered_ok {κ : Keep} (p : Fin 64) (s : State) (hs : s.Kept κ) :
    OutOk κ (execSheetDelivered p s) := by
  unfold execSheetDelivered
  repeat' first | with_reducible assumption | (intro _) | with_reducible apply OutOk.ite | with_reducible apply ok_ite | extract_lets | with_reducible apply State.fresh_ok | with_reducible apply State.deliverSheet_ok | with_reducible apply State.laneFault_ok | with_reducible apply OutOk.next | fail_if_no_progress (with_reducible apply State.mk_ok) | split | dsimp +zetaDelta only | with_reducible apply ok_ite_snd | with_reducible apply ok_ite_fst | with_reducible apply id_ok

theorem execLaneFaultDetected_ok {κ : Keep} (l : Fin 18) (cause : Fin 16) (fence : Fin 9) (others : List (Fin 18 × Fin 16)) (s : State) (hs : s.Kept κ) :
    OutOk κ (execLaneFaultDetected l cause fence others s) := by
  unfold execLaneFaultDetected
  repeat' first | with_reducible assumption | (intro _) | with_reducible apply OutOk.ite | with_reducible apply ok_ite | extract_lets | with_reducible apply State.put_ok | with_reducible apply State.laneFault_ok | with_reducible apply foldl_ok | with_reducible apply foldl_ok_fst | with_reducible apply foldl_ok_snd | with_reducible apply OutOk.next | fail_if_no_progress (with_reducible apply State.mk_ok) | split | dsimp +zetaDelta only | with_reducible apply ok_ite_snd | with_reducible apply ok_ite_fst | with_reducible apply id_ok

theorem State.writeLaneInject_ok {κ : Keep} (s : State) (lane key fence : Nat) (hs : s.Kept κ) :
    State.Kept κ (State.writeLaneInject s lane key fence) := by
  unfold State.writeLaneInject
  repeat' first | with_reducible assumption | (intro _) | with_reducible apply ok_ite | with_reducible apply State.laneFault_ok | fail_if_no_progress (with_reducible apply State.mk_ok) | split

theorem execLaneInject_ok {κ : Keep} (p : Path) (lane : Fin 32) (key : BitVec 16) (fence : Fin 9) (s : State) (hs : s.Kept κ) :
    OutOk κ (execLaneInject p lane key fence s) := by
  unfold execLaneInject
  repeat' first | with_reducible assumption | (intro _) | with_reducible apply OutOk.ite | with_reducible apply ok_ite | with_reducible apply State.gateAction_ok | with_reducible apply State.writeLaneInject_ok | with_reducible apply OutOk.next | fail_if_no_progress (with_reducible apply State.mk_ok) | split

theorem execFailoverSpareReady_ok {κ : Keep} (l : Fin 18) (s : State) (hs : s.Kept κ) :
    OutOk κ (execFailoverSpareReady l s) := by
  unfold execFailoverSpareReady
  repeat' first | with_reducible assumption | (intro _) | with_reducible apply OutOk.ite | with_reducible apply ok_ite | extract_lets | with_reducible apply State.setLane_ok | with_reducible apply State.skipLost_ok | with_reducible apply State.settleStop_ok | with_reducible apply OutOk.next | fail_if_no_progress (with_reducible apply State.mk_ok) | split | dsimp +zetaDelta only

theorem State.beginTest_ok {κ : Keep} (s : State) (l : Nat) (r : Option OrderRef) (hs : s.Kept κ) :
    State.Kept κ (State.beginTest s l r) := by
  unfold State.beginTest
  repeat' first | with_reducible assumption | (intro _) | with_reducible apply ok_ite | extract_lets | with_reducible apply State.updLane_ok | with_reducible apply State.setLane_ok | fail_if_no_progress (with_reducible apply State.mk_ok) | split | dsimp +zetaDelta only

theorem execSpareTest_ok {κ : Keep} (s : State) (hs : s.Kept κ) :
    OutOk κ (execSpareTest s) := by
  unfold execSpareTest
  repeat' first | with_reducible assumption | (intro _) | with_reducible apply OutOk.ite | with_reducible apply ok_ite | extract_lets | with_reducible apply State.beginTest_ok | with_reducible apply OutOk.next | fail_if_no_progress (with_reducible apply State.mk_ok) | split | dsimp +zetaDelta only | with_reducible apply ok_ite_snd | with_reducible apply ok_ite_fst | with_reducible apply id_ok

theorem execTestEnd_ok {κ : Keep} (l : Fin 18) (check : BitVec 64) (s : State) (hs : s.Kept κ) :
    OutOk κ (execTestEnd l check s) := by
  unfold execTestEnd
  repeat' first | with_reducible assumption | (intro _) | with_reducible apply OutOk.ite | with_reducible apply ok_ite | extract_lets | with_reducible apply State.put_ok | with_reducible apply State.raiseInst_ok | with_reducible apply State.retireRef_ok | with_reducible apply State.updLane_ok | with_reducible apply State.setLane_ok | with_reducible apply State.settleLanes_ok | with_reducible apply OutOk.next | fail_if_no_progress (with_reducible apply State.mk_ok) | split | dsimp +zetaDelta only

theorem State.laneTestAccept_ok {κ : Keep} (o : Order) (s : State) (hs : s.Kept κ) :
    State.Kept κ (State.laneTestAccept o s) := by
  unfold State.laneTestAccept
  repeat' first | with_reducible assumption | (intro _) | with_reducible apply ok_ite | extract_lets | with_reducible apply State.updOrder_ok | with_reducible apply State.retire_ok | with_reducible apply State.validate_ok | with_reducible apply State.beginTest_ok | fail_if_no_progress (with_reducible apply State.mk_ok) | split | dsimp +zetaDelta only

theorem execLaneTest_ok {κ : Keep} (s : State) (hs : s.Kept κ) :
    OutOk κ (execLaneTest s) := by
  unfold execLaneTest
  repeat' first | with_reducible assumption | (intro _) | with_reducible apply OutOk.ite | with_reducible apply ok_ite | with_reducible apply State.accept_ok | with_reducible apply State.laneTestAccept_ok | with_reducible apply OutOk.next | fail_if_no_progress (with_reducible apply State.mk_ok) | split

theorem State.laneTestCancel_ok {κ : Keep} (s : State) (o : Order) (hs : s.Kept κ) :
    State.Kept κ (State.laneTestCancel s o) := by
  unfold State.laneTestCancel
  repeat' first | with_reducible assumption | (intro _) | with_reducible apply ok_ite | extract_lets | with_reducible apply State.setLane_ok | with_reducible apply State.settleLanes_ok | with_reducible apply State.dropTest_ok | fail_if_no_progress (with_reducible apply State.mk_ok) | split | dsimp +zetaDelta only

theorem State.windowLoadAccept_ok {κ : Keep} (o : Order) (s : State) (hs : s.Kept κ) :
    State.Kept κ (State.windowLoadAccept o s) := by
  unfold State.windowLoadAccept
  repeat' first | with_reducible assumption | (intro _) | with_reducible apply ok_ite | with_reducible apply State.updOrder_ok | with_reducible apply State.retire_ok | with_reducible apply State.validate_ok | with_reducible apply State.startRead_ok | fail_if_no_progress (with_reducible apply State.mk_ok) | split

theorem execWindowLoad_ok {κ : Keep} (s : State) (hs : s.Kept κ) :
    OutOk κ (execWindowLoad s) := by
  unfold execWindowLoad
  repeat' first | with_reducible assumption | (intro _) | with_reducible apply OutOk.ite | with_reducible apply ok_ite | with_reducible apply State.accept_ok | with_reducible apply State.windowLoadAccept_ok | with_reducible apply OutOk.next | fail_if_no_progress (with_reducible apply State.mk_ok) | split

theorem State.windowTable_ok {κ : Keep} (s : State) (o : Order) (table : List Byte) (hs : s.Kept κ) :
    State.Kept κ (State.windowTable s o table) := by
  unfold State.windowTable
  repeat' first | with_reducible assumption | (intro _) | with_reducible apply ok_ite | extract_lets | with_reducible apply State.fresh_ok | with_reducible apply State.put_ok | with_reducible apply State.retireWith_ok | with_reducible apply State.retire_ok | with_reducible apply foldl_ok | with_reducible apply foldl_ok_fst | with_reducible apply foldl_ok_snd | fail_if_no_progress (with_reducible apply State.mk_ok) | split | dsimp +zetaDelta only | with_reducible apply ok_ite_snd | with_reducible apply ok_ite_fst | with_reducible apply id_ok

end Machine
end Sys2Proof
end

