-- ==== Sys2Proof/Laws/OkMemory.lean ====
section
/-!
SUPPORT. The canonical form is kept by every operation of Machine/Memory.lean.
-/

namespace Sys2Proof
namespace Machine

theorem State.trainChannel_ok {κ : Keep} (s : State) (c : Nat) (g : MemGeom) (hs : s.Kept κ) :
    State.Kept κ (State.trainChannel s c g) := by
  unfold State.trainChannel
  repeat' first | with_reducible assumption | (intro _) | with_reducible apply ok_ite | extract_lets | with_reducible apply State.send_ok | with_reducible apply State.put_ok | with_reducible apply State.updChannel_ok | fail_if_no_progress (with_reducible apply State.mk_ok) | split | dsimp +zetaDelta only

theorem State.beginTraining_ok {κ : Keep} (s : State) (b : MemBoard) (hs : s.Kept κ) :
    State.Kept κ (State.beginTraining s b) := by
  unfold State.beginTraining
  repeat' first | with_reducible assumption | (intro _) | with_reducible apply ok_ite | extract_lets | with_reducible apply State.put_ok | with_reducible apply State.trainChannel_ok | with_reducible apply foldl_ok | with_reducible apply foldl_ok_fst | with_reducible apply foldl_ok_snd | fail_if_no_progress (with_reducible apply State.mk_ok) | split | dsimp +zetaDelta only | with_reducible apply ok_ite_snd | with_reducible apply ok_ite_fst | with_reducible apply id_ok

theorem execTrainingStart_ok {κ : Keep} (p : Option Path) (b : MemBoard) (s : State) (hs : s.Kept κ) :
    OutOk κ (execTrainingStart p b s) := by
  unfold execTrainingStart
  repeat' first | with_reducible assumption | (intro _) | with_reducible apply OutOk.ite | with_reducible apply ok_ite | with_reducible apply State.gateAction_ok | with_reducible apply State.beginTraining_ok | with_reducible apply OutOk.next | fail_if_no_progress (with_reducible apply State.mk_ok) | split

theorem State.writeMemCtl_ok {κ : Keep} (s : State) (w : Word) (hs : s.Kept κ) :
    State.Kept κ (State.writeMemCtl s w) := by
  unfold State.writeMemCtl
  repeat' first | with_reducible assumption | (intro _) | with_reducible apply ok_ite | extract_lets | with_reducible apply State.plainWrite_ok | fail_if_no_progress (with_reducible apply State.mk_ok) | split | dsimp +zetaDelta only

theorem State.settleGib_ok {κ : Keep} (s : State) (hs : s.Kept κ) :
    State.Kept κ (State.settleGib s) := by
  unfold State.settleGib
  repeat' first | with_reducible assumption | (intro _) | with_reducible apply ok_ite | with_reducible apply State.put_ok | with_reducible apply foldl_ok | with_reducible apply foldl_ok_fst | with_reducible apply foldl_ok_snd | fail_if_no_progress (with_reducible apply State.mk_ok) | split

theorem State.zeroChannel_ok {κ : Keep} (s : State) (c : Nat) (hs : s.Kept κ) :
    State.Kept κ (State.zeroChannel s c) := by
  unfold State.zeroChannel
  repeat' first | with_reducible assumption | exact fun _ h => h | exact fun _ h => Mem.filter_wf _ _ _ h | exact fun _ h => Mem.writes_wf _ _ _ _ h | exact fun _ _ => rfl | (intro _) | with_reducible apply ok_ite | extract_lets | with_reducible apply State.updPound_ok | with_reducible apply State.updChannel_ok | with_reducible apply foldl_ok | with_reducible apply foldl_ok_fst | with_reducible apply foldl_ok_snd | fail_if_no_progress (with_reducible apply State.mk_ok) | split | dsimp +zetaDelta only | with_reducible apply ok_ite_snd | with_reducible apply ok_ite_fst | with_reducible apply id_ok

theorem State.beginInit_ok {κ : Keep} (s : State) (c : Nat) (hs : s.Kept κ) :
    State.Kept κ (State.beginInit s c) := by
  unfold State.beginInit
  repeat' first | with_reducible assumption | (intro _) | with_reducible apply ok_ite | extract_lets | with_reducible apply State.put_ok | with_reducible apply State.updChannel_ok | with_reducible apply State.zeroChannel_ok | fail_if_no_progress (with_reducible apply State.mk_ok) | split | dsimp +zetaDelta only

theorem execTrainingDone_ok {κ : Keep} (c : Fin 6) (ok : Bool) (step : Fin 10) (s : State) (hs : s.Kept κ) :
    OutOk κ (execTrainingDone c ok step s) := by
  unfold execTrainingDone
  repeat' first | with_reducible assumption | (intro _) | with_reducible apply OutOk.ite | with_reducible apply ok_ite | extract_lets | with_reducible apply State.put_ok | with_reducible apply State.raiseInst_ok | with_reducible apply State.updChannel_ok | with_reducible apply State.beginInit_ok | with_reducible apply OutOk.next | fail_if_no_progress (with_reducible apply State.mk_ok) | split | dsimp +zetaDelta only

theorem execInitDone_ok {κ : Keep} (c : Fin 6) (s : State) (hs : s.Kept κ) :
    OutOk κ (execInitDone c s) := by
  unfold execInitDone
  repeat' first | with_reducible assumption | (intro _) | with_reducible apply OutOk.ite | with_reducible apply ok_ite | extract_lets | with_reducible apply State.put_ok | with_reducible apply State.updChannel_ok | with_reducible apply State.settleGib_ok | with_reducible apply OutOk.next | fail_if_no_progress (with_reducible apply State.mk_ok) | split | dsimp +zetaDelta only

theorem execRefreshDue_ok {κ : Keep} (c : Fin 6) (bank : Fin 128) (busy : Bool) (s : State) (hs : s.Kept κ) :
    OutOk κ (execRefreshDue c bank busy s) := by
  unfold execRefreshDue
  repeat' first | with_reducible assumption | (intro _) | with_reducible apply OutOk.ite | with_reducible apply ok_ite | extract_lets | with_reducible apply State.put_ok | with_reducible apply State.updChannel_ok | with_reducible apply OutOk.next | fail_if_no_progress (with_reducible apply State.mk_ok) | split | dsimp +zetaDelta only

theorem execMr4Read_ok {κ : Keep} (c : Fin 6) (hot : Bool) (s : State) (hs : s.Kept κ) :
    OutOk κ (execMr4Read c hot s) := by
  unfold execMr4Read
  repeat' first | with_reducible assumption | (intro _) | with_reducible apply OutOk.ite | with_reducible apply ok_ite | extract_lets | with_reducible apply State.put_ok | with_reducible apply State.raiseInst_ok | with_reducible apply State.updChannel_ok | with_reducible apply OutOk.next | fail_if_no_progress (with_reducible apply State.mk_ok) | split | dsimp +zetaDelta only

theorem State.poundActive_ok {κ : Keep} (s : State) (p : Nat) (hs : s.Kept κ) :
    State.Kept κ (State.poundActive s p) := by
  unfold State.poundActive
  repeat' first | with_reducible assumption | (intro _) | with_reducible apply ok_ite | with_reducible apply State.put_ok | fail_if_no_progress (with_reducible apply State.mk_ok) | split

theorem State.enablePound_ok {κ : Keep} (s : State) (p : Nat) (hs : s.Kept κ) :
    State.Kept κ (State.enablePound s p) := by
  unfold State.enablePound
  repeat' first | with_reducible assumption | exact fun _ h => h | exact fun _ h => Mem.writes_wf _ _ _ _ h | exact fun _ _ => rfl | (intro _) | with_reducible apply ok_ite | extract_lets | with_reducible apply State.setWord_ok | with_reducible apply State.updPound_ok | with_reducible apply State.put_ok | with_reducible apply State.poundActive_ok | fail_if_no_progress (with_reducible apply State.mk_ok) | split | dsimp +zetaDelta only | with_reducible apply ok_ite_snd | with_reducible apply ok_ite_fst | with_reducible apply id_ok

theorem State.settleCaptures_ok {κ : Keep} (s : State) (p : Nat) (hs : s.Kept κ) :
    State.Kept κ (State.settleCaptures s p) := by
  unfold State.settleCaptures
  repeat' first | with_reducible assumption | (intro _) | with_reducible apply ok_ite | with_reducible apply State.put_ok | fail_if_no_progress (with_reducible apply State.mk_ok) | split

theorem State.endCapture_ok {κ : Keep} (s : State) (c : Capture) (status : Nat) (hs : s.Kept κ) :
    State.Kept κ (State.endCapture s c status) := by
  unfold State.endCapture
  repeat' first | with_reducible assumption | (intro _) | with_reducible apply ok_ite | extract_lets | with_reducible apply State.retireRef_ok | with_reducible apply State.settleCaptures_ok | fail_if_no_progress (with_reducible apply State.mk_ok) | split | dsimp +zetaDelta only

theorem State.abortPoundSgs_ok {κ : Keep} (s : State) (p : Nat) (hs : s.Kept κ) :
    State.Kept κ (State.abortPoundSgs s p) := by
  unfold State.abortPoundSgs
  repeat' first | with_reducible assumption | (intro _) | with_reducible apply ok_ite | with_reducible apply State.sgAbort_ok | with_reducible apply foldl_ok | with_reducible apply foldl_ok_fst | with_reducible apply foldl_ok_snd | fail_if_no_progress (with_reducible apply State.mk_ok) | split

theorem State.disablePound_ok {κ : Keep} (s : State) (p : Nat) (hs : s.Kept κ) :
    State.Kept κ (State.disablePound s p) := by
  unfold State.disablePound
  repeat' first | with_reducible assumption | exact fun _ h => h | exact fun _ h => Mem.writes_wf _ _ _ _ h | exact fun _ _ => rfl | (intro _) | with_reducible apply ok_ite | extract_lets | with_reducible apply State.setWord_ok | with_reducible apply State.updPound_ok | with_reducible apply State.put_ok | with_reducible apply State.endCapture_ok | with_reducible apply State.abortPoundSgs_ok | with_reducible apply foldl_ok | with_reducible apply foldl_ok_fst | with_reducible apply foldl_ok_snd | fail_if_no_progress (with_reducible apply State.mk_ok) | split | dsimp +zetaDelta only | with_reducible apply ok_ite_snd | with_reducible apply ok_ite_fst | with_reducible apply id_ok

theorem State.freezePound_ok {κ : Keep} (s : State) (p : Nat) (on : Bool) (hs : s.Kept κ) :
    State.Kept κ (State.freezePound s p on) := by
  unfold State.freezePound
  repeat' first | with_reducible assumption | exact fun _ h => h | exact fun _ h => Mem.writes_wf _ _ _ _ h | exact fun _ _ => rfl | (intro _) | with_reducible apply ok_ite | extract_lets | with_reducible apply State.updPound_ok | with_reducible apply State.put_ok | with_reducible apply State.markPound_ok | fail_if_no_progress (with_reducible apply State.mk_ok) | split | dsimp +zetaDelta only

theorem State.writePoundCfg_ok {κ : Keep} (s : State) (p : Nat) (w : Word) (hs : s.Kept κ) :
    State.Kept κ (State.writePoundCfg s p w) := by
  unfold State.writePoundCfg
  repeat' first | with_reducible assumption | (intro _) | with_reducible apply ok_ite | extract_lets | with_reducible apply State.put_ok | with_reducible apply State.plainWrite_ok | with_reducible apply State.enablePound_ok | with_reducible apply State.disablePound_ok | with_reducible apply State.freezePound_ok | fail_if_no_progress (with_reducible apply State.mk_ok) | split | dsimp +zetaDelta only

theorem State.writePoundSet_ok {κ : Keep} (s : State) (p key : Nat) (w : Word) (hs : s.Kept κ) :
    State.Kept κ (State.writePoundSet s p key w) := by
  unfold State.writePoundSet
  repeat' first | with_reducible assumption | (intro _) | with_reducible apply ok_ite | with_reducible apply State.put_ok | with_reducible apply State.plainWrite_ok | fail_if_no_progress (with_reducible apply State.mk_ok) | split

theorem State.writeDrain_ok {κ : Keep} (s : State) (p d : Nat) (w : Word) (hs : s.Kept κ) :
    State.Kept κ (State.writeDrain s p d w) := by
  unfold State.writeDrain
  repeat' first | with_reducible assumption | exact fun _ h => h | exact fun _ h => Mem.writes_wf _ _ _ _ h | exact fun _ _ => rfl | (intro _) | with_reducible apply ok_ite | extract_lets | with_reducible apply State.updPound_ok | with_reducible apply State.put_ok | with_reducible apply State.plainWrite_ok | fail_if_no_progress (with_reducible apply State.mk_ok) | split | dsimp +zetaDelta only

theorem execPoundEnable_ok {κ : Keep} (p : Path) (n : Fin 64) (w : Word) (s : State) (hs : s.Kept κ) :
    OutOk κ (execPoundEnable p n w s) := by
  unfold execPoundEnable
  repeat' first | with_reducible assumption | (intro _) | with_reducible apply OutOk.ite | with_reducible apply ok_ite | with_reducible apply State.retainWrite_ok | with_reducible apply State.gate_ok | with_reducible apply State.writePoundCfg_ok | with_reducible apply OutOk.next | fail_if_no_progress (with_reducible apply State.mk_ok) | split

theorem execPoundFreeze_ok {κ : Keep} (p : Path) (n : Fin 64) (on : Bool) (s : State) (hs : s.Kept κ) :
    OutOk κ (execPoundFreeze p n on s) := by
  unfold execPoundFreeze
  repeat' first | with_reducible assumption | (intro _) | with_reducible apply OutOk.ite | with_reducible apply ok_ite | with_reducible apply State.gateField_ok | with_reducible apply State.freezePound_ok | with_reducible apply OutOk.next | fail_if_no_progress (with_reducible apply State.mk_ok) | split

theorem execInitPassedExtent_ok {κ : Keep} (n : Fin 64) (s : State) (hs : s.Kept κ) :
    OutOk κ (execInitPassedExtent n s) := by
  unfold execInitPassedExtent
  repeat' first | with_reducible assumption | (intro _) | with_reducible apply OutOk.ite | with_reducible apply ok_ite | with_reducible apply State.poundActive_ok | with_reducible apply OutOk.next | fail_if_no_progress (with_reducible apply State.mk_ok) | split

theorem State.poundLoss_ok {κ : Keep} (s : State) (p bytes : Nat) (hs : s.Kept κ) :
    State.Kept κ (State.poundLoss s p bytes) := by
  unfold State.poundLoss
  repeat' first | with_reducible assumption | exact fun _ h => h | exact fun _ h => Mem.writes_wf _ _ _ _ h | exact fun _ _ => rfl | (intro _) | with_reducible apply ok_ite | extract_lets | with_reducible apply State.updPound_ok | with_reducible apply State.put_ok | with_reducible apply State.satInc_ok | with_reducible apply State.raiseInst_ok | fail_if_no_progress (with_reducible apply State.mk_ok) | split | dsimp +zetaDelta only

theorem State.appendRecord_ok {κ : Keep} (s : State) (p : Nat) (b : Barge) (endStamp : Nat) (hs : s.Kept κ) :
    State.Kept κ (State.appendRecord s p b endStamp) := by
  unfold State.appendRecord
  repeat' first | with_reducible assumption | exact fun _ h => h | exact fun _ h => Mem.writes_wf _ _ _ _ h | exact fun _ _ => rfl | (intro _) | with_reducible apply ok_ite | with_reducible apply State.updPound_ok | fail_if_no_progress (with_reducible apply State.mk_ok) | split

theorem State.settleHist_ok {κ : Keep} (s : State) (p : Nat) (hs : s.Kept κ) :
    State.Kept κ (State.settleHist s p) := by
  unfold State.settleHist
  repeat' first | with_reducible assumption | (intro _) | with_reducible apply ok_ite | extract_lets | with_reducible apply State.put_ok | fail_if_no_progress (with_reducible apply State.mk_ok) | split | dsimp +zetaDelta only

theorem State.clearPoison_ok {κ : Keep} (s : State) (p : Nat) (b : Barge) (hs : s.Kept κ) :
    State.Kept κ (State.clearPoison s p b) := by
  unfold State.clearPoison
  repeat' first | with_reducible assumption | (intro _) | with_reducible apply ok_ite | extract_lets | with_reducible apply State.updChannel_ok | with_reducible apply foldl_ok | with_reducible apply foldl_ok_fst | with_reducible apply foldl_ok_snd | fail_if_no_progress (with_reducible apply State.mk_ok) | split | dsimp +zetaDelta only | with_reducible apply ok_ite_snd | with_reducible apply ok_ite_fst | with_reducible apply id_ok

theorem State.commitBehind_ok {κ : Keep} (s : State) (p : Nat) (g : Option Barge) (hs : s.Kept κ) :
    State.Kept κ (State.commitBehind s p g) := by
  unfold State.commitBehind
  repeat' first | with_reducible assumption | exact fun _ h => h | exact fun _ h => Mem.writes_wf _ _ _ _ h | exact fun _ _ => rfl | (intro _) | with_reducible apply ok_ite | extract_lets | with_reducible apply State.updPound_ok | with_reducible apply State.appendRecord_ok | with_reducible apply foldl_ok | with_reducible apply foldl_ok_fst | with_reducible apply foldl_ok_snd | fail_if_no_progress (with_reducible apply State.mk_ok) | split | dsimp +zetaDelta only

theorem State.commitData_ok {κ : Keep} (s : State) (p : Nat) (b : Barge) (endStamp : Nat) (hs : s.Kept κ) :
    State.Kept κ (State.commitData s p b endStamp) := by
  unfold State.commitData
  repeat' first | with_reducible assumption | exact fun _ h => h | exact fun _ h => Mem.writes_wf _ _ _ _ h | exact fun _ _ => rfl | (intro _) | with_reducible apply ok_ite | extract_lets | with_reducible apply State.updPound_ok | with_reducible apply State.poundLoss_ok | with_reducible apply State.appendRecord_ok | with_reducible apply State.settleHist_ok | with_reducible apply State.clearPoison_ok | with_reducible apply State.commitBehind_ok | fail_if_no_progress (with_reducible apply State.mk_ok) | split | dsimp +zetaDelta only | with_reducible apply ok_ite_snd | with_reducible apply ok_ite_fst | with_reducible apply id_ok

theorem execBargeCommit_ok {κ : Keep} (n : Fin 64) (s : State) (hs : s.Kept κ) :
    OutOk κ (execBargeCommit n s) := by
  unfold execBargeCommit
  repeat' first | with_reducible assumption | exact fun _ h => h | exact fun _ h => Mem.writes_wf _ _ _ _ h | exact fun _ _ => rfl | (intro _) | with_reducible apply OutOk.ite | with_reducible apply ok_ite | extract_lets | with_reducible apply State.updPound_ok | with_reducible apply State.appendRecord_ok | with_reducible apply State.commitData_ok | with_reducible apply OutOk.next | fail_if_no_progress (with_reducible apply State.mk_ok) | split | dsimp +zetaDelta only

theorem State.muteFenced_ok {κ : Keep} (s : State) (c : Nat) (hs : s.Kept κ) :
    State.Kept κ (State.muteFenced s c) := by
  unfold State.muteFenced
  repeat' first | with_reducible assumption | (intro _) | with_reducible apply ok_ite | with_reducible apply State.muteDac_ok | with_reducible apply foldl_ok | with_reducible apply foldl_ok_fst | with_reducible apply foldl_ok_snd | fail_if_no_progress (with_reducible apply State.mk_ok) | split

theorem State.fenceChannel_ok {κ : Keep} (s : State) (c cause : Nat) (hs : s.Kept κ) :
    State.Kept κ (State.fenceChannel s c cause) := by
  unfold State.fenceChannel
  repeat' first | with_reducible assumption | (intro _) | with_reducible apply ok_ite | extract_lets | with_reducible apply State.put_ok | with_reducible apply State.satInc_ok | with_reducible apply State.raiseInst_ok | with_reducible apply State.updChannel_ok | with_reducible apply State.settleGib_ok | with_reducible apply State.muteFenced_ok | fail_if_no_progress (with_reducible apply State.mk_ok) | split | dsimp +zetaDelta only

theorem execChannelFence_ok {κ : Keep} (c : Fin 6) (cause : Fin 5) (s : State) (hs : s.Kept κ) :
    OutOk κ (execChannelFence c cause s) := by
  unfold execChannelFence
  repeat' first | with_reducible assumption | (intro _) | with_reducible apply OutOk.ite | with_reducible apply ok_ite | extract_lets | with_reducible apply State.fenceChannel_ok | with_reducible apply OutOk.next | fail_if_no_progress (with_reducible apply State.mk_ok) | split | dsimp +zetaDelta only

theorem State.writeMemFence_ok {κ : Keep} (s : State) (ch key : Nat) (hs : s.Kept κ) :
    State.Kept κ (State.writeMemFence s ch key) := by
  unfold State.writeMemFence
  repeat' first | with_reducible assumption | (intro _) | with_reducible apply ok_ite | with_reducible apply State.fenceChannel_ok | fail_if_no_progress (with_reducible apply State.mk_ok) | split

theorem execMemFence_ok {κ : Keep} (p : Path) (ch : Fin 8) (key : BitVec 16) (s : State) (hs : s.Kept κ) :
    OutOk κ (execMemFence p ch key s) := by
  unfold execMemFence
  repeat' first | with_reducible assumption | (intro _) | with_reducible apply OutOk.ite | with_reducible apply ok_ite | with_reducible apply State.gateAction_ok | with_reducible apply State.writeMemFence_ok | with_reducible apply OutOk.next | fail_if_no_progress (with_reducible apply State.mk_ok) | split

theorem execPeriodicCalibration_ok {κ : Keep} (c : Fin 6) (drift : Bool) (s : State) (hs : s.Kept κ) :
    OutOk κ (execPeriodicCalibration c drift s) := by
  unfold execPeriodicCalibration
  repeat' first | with_reducible assumption | (intro _) | with_reducible apply OutOk.ite | with_reducible apply ok_ite | with_reducible apply State.fenceChannel_ok | with_reducible apply OutOk.next | fail_if_no_progress (with_reducible apply State.mk_ok) | split

theorem execAlertN_ok {κ : Keep} (c : Fin 6) (s : State) (hs : s.Kept κ) :
    OutOk κ (execAlertN c s) := by
  unfold execAlertN
  repeat' first | with_reducible assumption | (intro _) | with_reducible apply OutOk.ite | with_reducible apply ok_ite | extract_lets | with_reducible apply State.satInc_ok | with_reducible apply State.raiseInst_ok | with_reducible apply State.updChannel_ok | with_reducible apply OutOk.next | fail_if_no_progress (with_reducible apply State.mk_ok) | split | dsimp +zetaDelta only

theorem execReplayDone_ok {κ : Keep} (c : Fin 6) (s : State) (hs : s.Kept κ) :
    OutOk κ (execReplayDone c s) := by
  unfold execReplayDone
  repeat' first | with_reducible assumption | (intro _) | with_reducible apply OutOk.ite | with_reducible apply ok_ite | extract_lets | with_reducible apply State.put_ok | with_reducible apply State.updChannel_ok | with_reducible apply State.fenceChannel_ok | with_reducible apply OutOk.next | fail_if_no_progress (with_reducible apply State.mk_ok) | split | dsimp +zetaDelta only

theorem State.correctable_ok {κ : Keep} (s : State) (c : Nat) (hs : s.Kept κ) :
    State.Kept κ (State.correctable s c) := by
  unfold State.correctable
  repeat' first | with_reducible assumption | (intro _) | with_reducible apply ok_ite | extract_lets | with_reducible apply State.satInc_ok | with_reducible apply State.raiseInst_ok | with_reducible apply State.updChannel_ok | fail_if_no_progress (with_reducible apply State.mk_ok) | split | dsimp +zetaDelta only

theorem State.poisonLine_ok {κ : Keep} (s : State) (p c : Nat) (scrub : Bool) (use : LineUse) (hs : s.Kept κ) :
    State.Kept κ (State.poisonLine s p c scrub use) := by
  unfold State.poisonLine
  cases use with
  | payload n off => exact State.updPound_ok _ _ _ (fun _ h => h) hs
  | header n k => exact State.updPound_ok _ _ _ (fun _ h => h) hs
  | store off =>
    apply State.updPound_ok _ _ _ _ hs
    intro d h
    dsimp only
    with_reducible exact Mem.writes_wf _ _ _ _ h
  | unused => exact hs

theorem State.noteBad_ok {κ : Keep} (s : State) (c line : Nat) (hs : s.Kept κ) :
    State.Kept κ (State.noteBad s c line) := by
  unfold State.noteBad
  repeat' first | with_reducible assumption | (intro _) | with_reducible apply ok_ite | with_reducible apply State.updChannel_ok | fail_if_no_progress (with_reducible apply State.mk_ok) | split

theorem State.demandError_ok {κ : Keep} (s : State) (p : Nat) (e : LineErr) (hs : s.Kept κ) :
    State.Kept κ (State.demandError s p e) := by
  unfold State.demandError
  repeat' first | with_reducible assumption | (intro _) | with_reducible apply ok_ite | extract_lets | with_reducible apply State.satInc_ok | with_reducible apply State.raiseWith_ok | with_reducible apply State.updChannel_ok | with_reducible apply State.fenceChannel_ok | with_reducible apply State.correctable_ok | with_reducible apply State.poisonLine_ok | with_reducible apply State.noteBad_ok | fail_if_no_progress (with_reducible apply State.mk_ok) | split | dsimp +zetaDelta only

theorem execScrubLine_ok {κ : Keep} (c : Fin 6) (r : LineRead) (use : LineUse) (s : State) (hs : s.Kept κ) :
    OutOk κ (execScrubLine c r use s) := by
  unfold execScrubLine
  repeat' first | with_reducible assumption | (intro _) | with_reducible apply OutOk.ite | with_reducible apply ok_ite | extract_lets | with_reducible apply State.put_ok | with_reducible apply State.inc_ok | with_reducible apply State.raiseWith_ok | with_reducible apply State.updChannel_ok | with_reducible apply State.correctable_ok | with_reducible apply State.poisonLine_ok | with_reducible apply State.noteBad_ok | with_reducible apply OutOk.next | fail_if_no_progress (with_reducible apply State.mk_ok) | split | dsimp +zetaDelta only

theorem State.failPound_ok {κ : Keep} (s : State) (p : Nat) (hs : s.Kept κ) :
    State.Kept κ (State.failPound s p) := by
  unfold State.failPound
  repeat' first | with_reducible assumption | exact fun _ h => h | exact fun _ h => Mem.writes_wf _ _ _ _ h | exact fun _ _ => rfl | (intro _) | with_reducible apply ok_ite | extract_lets | with_reducible apply State.setWord_ok | with_reducible apply State.updPound_ok | with_reducible apply State.put_ok | with_reducible apply State.endCapture_ok | with_reducible apply State.abortPoundSgs_ok | with_reducible apply foldl_ok | with_reducible apply foldl_ok_fst | with_reducible apply foldl_ok_snd | fail_if_no_progress (with_reducible apply State.mk_ok) | split | dsimp +zetaDelta only

theorem State.relayPound_ok {κ : Keep} (s : State) (p c : Nat) (hs : s.Kept κ) :
    State.Kept κ (State.relayPound s p c) := by
  unfold State.relayPound
  repeat' first | with_reducible assumption | exact fun _ h => h | exact fun _ h => Mem.writes_wf _ _ _ _ h | exact fun _ _ => rfl | (intro _) | with_reducible apply ok_ite | extract_lets | with_reducible apply State.updPound_ok | with_reducible apply State.put_ok | with_reducible apply State.settleHist_ok | fail_if_no_progress (with_reducible apply State.mk_ok) | split | dsimp +zetaDelta only | with_reducible apply ok_ite_snd | with_reducible apply ok_ite_fst | with_reducible apply id_ok

theorem execPoundRelay_ok {κ : Keep} (n : Fin 64) (s : State) (hs : s.Kept κ) :
    OutOk κ (execPoundRelay n s) := by
  unfold execPoundRelay
  repeat' first | with_reducible assumption | (intro _) | with_reducible apply OutOk.ite | with_reducible apply ok_ite | extract_lets | with_reducible apply State.put_ok | with_reducible apply State.failPound_ok | with_reducible apply State.relayPound_ok | with_reducible apply OutOk.next | fail_if_no_progress (with_reducible apply State.mk_ok) | split | dsimp +zetaDelta only

theorem State.updDrain_ok {κ : Keep} (s : State) (p d : Nat) (f : Drain → Drain) (hs : s.Kept κ) :
    State.Kept κ (State.updDrain s p d f) := by
  unfold State.updDrain
  repeat' first | with_reducible assumption | exact fun _ h => h | exact fun _ h => Mem.writes_wf _ _ _ _ h | exact fun _ _ => rfl | (intro _) | with_reducible apply ok_ite | with_reducible apply State.updPound_ok | with_reducible apply State.put_ok | fail_if_no_progress (with_reducible apply State.mk_ok) | split

theorem execDrainRead_ok {κ : Keep} (n : Fin 64) (d : Fin 4) (errs : List LineErr) (s : State) (hs : s.Kept κ) :
    OutOk κ (execDrainRead n d errs s) := by
  unfold execDrainRead
  repeat' first | with_reducible assumption | (intro _) | with_reducible apply OutOk.ite | with_reducible apply ok_ite | extract_lets | with_reducible apply State.admitBarge_ok | with_reducible apply State.demandError_ok | with_reducible apply State.updDrain_ok | with_reducible apply foldl_ok | with_reducible apply foldl_ok_fst | with_reducible apply foldl_ok_snd | with_reducible apply OutOk.next | fail_if_no_progress (with_reducible apply State.mk_ok) | split | dsimp +zetaDelta only | with_reducible apply ok_ite_snd | with_reducible apply ok_ite_fst | with_reducible apply id_ok

theorem State.updCapture_ok {κ : Keep} (s : State) (num : Nat) (f : Capture → Capture) (hs : s.Kept κ) :
    State.Kept κ (State.updCapture s num f) := by
  unfold State.updCapture
  repeat' first | with_reducible assumption | (intro _) | with_reducible apply ok_ite | fail_if_no_progress (with_reducible apply State.mk_ok) | split

theorem execCaptureAccepted_ok {κ : Keep} (s : State) (hs : s.Kept κ) :
    OutOk κ (execCaptureAccepted s) := by
  unfold execCaptureAccepted
  repeat' first | with_reducible assumption | (intro _) | with_reducible apply OutOk.ite | with_reducible apply ok_ite | extract_lets | with_reducible apply OutOk.next | fail_if_no_progress (with_reducible apply State.mk_ok) | split | dsimp +zetaDelta only

theorem State.finishCapture_ok {κ : Keep} (s : State) (num : Nat) (hs : s.Kept κ) :
    State.Kept κ (State.finishCapture s num) := by
  unfold State.finishCapture
  repeat' first | with_reducible assumption | (intro _) | with_reducible apply ok_ite | with_reducible apply State.endCapture_ok | fail_if_no_progress (with_reducible apply State.mk_ok) | split

theorem State.captureOver_ok {κ : Keep} (s : State) (num : Nat) (hs : s.Kept κ) :
    State.Kept κ (State.captureOver s num) := by
  unfold State.captureOver
  repeat' first | with_reducible assumption | (intro _) | with_reducible apply ok_ite | with_reducible apply State.updCapture_ok | with_reducible apply State.finishCapture_ok | fail_if_no_progress (with_reducible apply State.mk_ok) | split

theorem State.captureGap_ok {κ : Keep} (s : State) (num p a z : Nat) (hs : s.Kept κ) :
    State.Kept κ (State.captureGap s num p a z) := by
  unfold State.captureGap
  repeat' first | with_reducible assumption | (intro _) | with_reducible apply ok_ite | extract_lets | with_reducible apply State.updCapture_ok | fail_if_no_progress (with_reducible apply State.mk_ok) | split | dsimp +zetaDelta only

theorem State.captureMark_ok {κ : Keep} (s : State) (c : Capture) (x : PBarge) (hs : s.Kept κ) :
    State.Kept κ (State.captureMark s c x) := by
  unfold State.captureMark
  repeat' first | with_reducible assumption | (intro _) | with_reducible apply ok_ite | extract_lets | with_reducible apply State.admitBarge_ok | with_reducible apply State.updCapture_ok | with_reducible apply State.finishCapture_ok | fail_if_no_progress (with_reducible apply State.mk_ok) | split | dsimp +zetaDelta only | with_reducible apply ok_ite_snd | with_reducible apply ok_ite_fst | with_reducible apply id_ok

theorem State.captureData_ok {κ : Keep} (s : State) (c : Capture) (x : PBarge) (hs : s.Kept κ) :
    State.Kept κ (State.captureData s c x) := by
  unfold State.captureData
  repeat' first | with_reducible assumption | (intro _) | with_reducible apply ok_ite | extract_lets | with_reducible apply State.admitBarge_ok | with_reducible apply State.updCapture_ok | with_reducible apply State.finishCapture_ok | fail_if_no_progress (with_reducible apply State.mk_ok) | split | dsimp +zetaDelta only | with_reducible apply ok_ite_snd | with_reducible apply ok_ite_fst | with_reducible apply id_ok

theorem State.captureFirst_ok {κ : Keep} (s : State) (c : Capture) (m : Barge) (t : List Barge) (hs : s.Kept κ) :
    State.Kept κ (State.captureFirst s c m t) := by
  unfold State.captureFirst
  repeat' first | with_reducible assumption | (intro _) | with_reducible apply ok_ite | extract_lets | with_reducible apply State.admitBarge_ok | with_reducible apply State.updCapture_ok | with_reducible apply State.finishCapture_ok | fail_if_no_progress (with_reducible apply State.mk_ok) | split | dsimp +zetaDelta only | with_reducible apply ok_ite_snd | with_reducible apply ok_ite_fst | with_reducible apply id_ok

theorem execCaptureBargeRead_ok {κ : Keep} (num : Nat) (errs : List LineErr) (overtaken : Bool) (s : State) (hs : s.Kept κ) :
    OutOk κ (execCaptureBargeRead num errs overtaken s) := by
  unfold execCaptureBargeRead
  repeat' first | with_reducible assumption | (intro _) | with_reducible apply OutOk.ite | with_reducible apply ok_ite | extract_lets | with_reducible apply State.endCapture_ok | with_reducible apply State.demandError_ok | with_reducible apply State.updCapture_ok | with_reducible apply State.captureOver_ok | with_reducible apply State.captureGap_ok | with_reducible apply State.captureMark_ok | with_reducible apply State.captureData_ok | with_reducible apply State.captureFirst_ok | with_reducible apply foldl_ok | with_reducible apply foldl_ok_fst | with_reducible apply foldl_ok_snd | with_reducible apply OutOk.next | fail_if_no_progress (with_reducible apply State.mk_ok) | split | dsimp +zetaDelta only

theorem State.poundCutAccept_ok {κ : Keep} (o : Order) (s : State) (hs : s.Kept κ) :
    State.Kept κ (State.poundCutAccept o s) := by
  unfold State.poundCutAccept
  repeat' first | with_reducible assumption | (intro _) | with_reducible apply ok_ite | extract_lets | with_reducible apply State.updOrder_ok | with_reducible apply State.retire_ok | with_reducible apply State.validate_ok | with_reducible apply State.settleCaptures_ok | fail_if_no_progress (with_reducible apply State.mk_ok) | split | dsimp +zetaDelta only

theorem execPoundCut_ok {κ : Keep} (s : State) (hs : s.Kept κ) :
    OutOk κ (execPoundCut s) := by
  unfold execPoundCut
  repeat' first | with_reducible assumption | (intro _) | with_reducible apply OutOk.ite | with_reducible apply ok_ite | with_reducible apply State.accept_ok | with_reducible apply State.poundCutAccept_ok | with_reducible apply OutOk.next | fail_if_no_progress (with_reducible apply State.mk_ok) | split

theorem State.cutCancel_ok {κ : Keep} (s : State) (o : Order) (hs : s.Kept κ) :
    State.Kept κ (State.cutCancel s o) := by
  unfold State.cutCancel
  repeat' first | with_reducible assumption | (intro _) | with_reducible apply ok_ite | with_reducible apply State.endCapture_ok | fail_if_no_progress (with_reducible apply State.mk_ok) | split

end Machine
end Sys2Proof
end

