-- ==== Sys2Proof/Laws/OkMoves.lean ====
section
/-!
SUPPORT. The canonical form is kept by every operation of Machine/Moves.lean.
-/

namespace Sys2Proof
namespace Machine

theorem State.devWrite_ok {κ : Keep} (s : State) (e : RingEntry) (off : Nat) (bs : List Byte) (hs : s.Kept κ) :
    State.Kept κ (State.devWrite s e off bs) := by
  unfold State.devWrite
  repeat' first | with_reducible assumption | exact fun _ h => h | exact fun _ h => Mem.writes_wf _ _ _ _ h | exact fun _ _ => rfl | (intro _) | with_reducible apply ok_ite | extract_lets | with_reducible apply State.updPound_ok | with_reducible apply State.updChannel_ok | with_reducible apply foldl_ok | with_reducible apply foldl_ok_fst | with_reducible apply foldl_ok_snd | with_reducible apply State.cache_ok | fail_if_no_progress (with_reducible apply State.mk_ok) | split | dsimp +zetaDelta only

theorem zeroLines_wf (ls : List Nat) (m : Mem) (h : Mem.wf 0#8 m = true) :
    Mem.wf 0#8 (ls.foldl (fun m l => Mem.writes 0#8 m (64 * l) (List.replicate 64 0#8)) m) = true := by
  induction ls generalizing m with
  | nil => exact h
  | cons l t ih =>
    rw [List.foldl_cons]
    with_reducible exact ih _ (Mem.writes_wf _ _ _ _ h)

theorem State.devPoison_ok {κ : Keep} (s : State) (e : RingEntry) (lines : List Nat) (hs : s.Kept κ) :
    State.Kept κ (State.devPoison s e lines) := by
  unfold State.devPoison
  apply ok_ite
  · exact hs
  · extract_lets ls ls' s'
    apply foldl_ok
    · intro x l hx
      split
      · with_reducible exact State.noteBad_ok _ _ _ hx
      · exact hx
    · apply State.updPound_ok _ _ _ _ hs
      intro d h
      dsimp only
      with_reducible exact zeroLines_wf _ _ h

theorem State.toHostBytes_ok {κ : Keep} (s : State) (e : RingEntry) (off n : Nat) (hs : s.Kept κ) :
    State.Kept κ (State.toHostBytes s e off n).2 := by
  unfold State.toHostBytes
  repeat' first | with_reducible assumption | with_reducible apply ok_ite_fst | with_reducible apply ok_ite_snd | fail_if_no_progress (with_reducible refine mk_ok_snd rfl ?_) | fail_if_no_progress (with_reducible refine mk_ok_fst rfl ?_) | fail_if_no_progress (with_reducible refine mk_ok_snd_snd rfl ?_) | (intro _) | with_reducible apply ok_ite | extract_lets | with_reducible apply State.writeHost_ok | fail_if_no_progress (with_reducible apply State.mk_ok) | split | dsimp +zetaDelta only

theorem State.moveRead_ok {κ : Keep} (s : State) (e : RingEntry) (off n : Nat) (hs : s.Kept κ) :
    State.Kept κ (State.moveRead s e off n) := by
  unfold State.moveRead
  repeat' first | with_reducible assumption | (intro _) | with_reducible apply ok_ite | with_reducible apply State.readHost_ok | fail_if_no_progress (with_reducible apply State.mk_ok) | split | with_reducible apply ok_ite_snd | with_reducible apply ok_ite_fst | with_reducible apply id_ok

theorem State.moveReadDone_ok {κ : Keep} (s : State) (e : RingEntry) (off n : Nat) (hs : s.Kept κ) :
    State.Kept κ (State.moveReadDone s e off n) := by
  unfold State.moveReadDone
  repeat' first | with_reducible assumption | (intro _) | with_reducible apply ok_ite | with_reducible apply State.readDone_ok | fail_if_no_progress (with_reducible apply State.mk_ok) | split | with_reducible apply ok_ite_snd | with_reducible apply ok_ite_fst | with_reducible apply id_ok

theorem State.moveExtent_ok {κ : Keep} (s : State) (x : Nat) (m : MoveRun) (data : List Byte) (n : Nat) (hs : s.Kept κ) :
    State.Kept κ (State.moveExtent s x m data n) := by
  unfold State.moveExtent
  repeat' first | with_reducible assumption | (intro _) | with_reducible apply ok_ite | extract_lets | with_reducible apply State.updRing_ok | with_reducible apply State.tookMoveTurn_ok | with_reducible apply State.devWrite_ok | with_reducible apply State.toHostBytes_ok | with_reducible apply State.moveRead_ok | with_reducible apply State.moveReadDone_ok | fail_if_no_progress (with_reducible apply State.mk_ok) | split | dsimp +zetaDelta only | with_reducible apply ok_ite_snd | with_reducible apply ok_ite_fst | with_reducible apply id_ok

theorem execMoveStart_ok {κ : Keep} (c : Fin 32) (errs : List LineErr) (s : State) (hs : s.Kept κ) :
    OutOk κ (execMoveStart c errs s) := by
  unfold execMoveStart
  repeat' first | with_reducible assumption | (intro _) | with_reducible apply OutOk.ite | with_reducible apply ok_ite | extract_lets | with_reducible apply State.updRing_ok | with_reducible apply State.returnMove_ok | with_reducible apply State.demandError_ok | with_reducible apply State.moveRead_ok | with_reducible apply foldl_ok | with_reducible apply foldl_ok_fst | with_reducible apply foldl_ok_snd | with_reducible apply OutOk.next | fail_if_no_progress (with_reducible apply State.mk_ok) | split | dsimp +zetaDelta only

theorem State.countRequest_ok {κ : Keep} (s : State) (line : Nat) (hs : s.Kept κ) :
    State.Kept κ (State.countRequest s line) := by
  unfold State.countRequest
  repeat' first | with_reducible assumption | (intro _) | with_reducible apply ok_ite | extract_lets | with_reducible apply State.put_ok | with_reducible apply State.raiseInst_ok | fail_if_no_progress (with_reducible apply State.mk_ok) | split | dsimp +zetaDelta only

theorem execPacedRequest_ok {κ : Keep} (line : Fin 64) (data : List Byte) (s : State) (hs : s.Kept κ) :
    OutOk κ (execPacedRequest line data s) := by
  unfold execPacedRequest
  repeat' first | with_reducible assumption | (intro _) | with_reducible apply OutOk.ite | with_reducible apply ok_ite | extract_lets | with_reducible apply State.put_ok | with_reducible apply State.updSg_ok | with_reducible apply State.moveExtent_ok | with_reducible apply State.countRequest_ok | with_reducible apply OutOk.next | fail_if_no_progress (with_reducible apply State.mk_ok) | split | dsimp +zetaDelta only

theorem State.endMove_ok {κ : Keep} (s : State) (x : Nat) (m : MoveRun) (status reason : Nat) (hs : s.Kept κ) :
    State.Kept κ (State.endMove s x m status reason) := by
  unfold State.endMove
  repeat' first | with_reducible assumption | (intro _) | with_reducible apply ok_ite | extract_lets | with_reducible apply State.put_ok | with_reducible apply State.updRing_ok | with_reducible apply State.returnMove_ok | with_reducible apply State.updSg_ok | with_reducible apply State.moveReadDone_ok | fail_if_no_progress (with_reducible apply State.mk_ok) | split | dsimp +zetaDelta only

theorem execMoveDone_ok {κ : Keep} (c : Fin 32) (data : List Byte) (n : Nat) (reason : Fin 5) (s : State) (hs : s.Kept κ) :
    OutOk κ (execMoveDone c data n reason s) := by
  unfold execMoveDone
  repeat' first | with_reducible assumption | (intro _) | with_reducible apply OutOk.ite | with_reducible apply ok_ite | extract_lets | with_reducible apply State.devPoison_ok | with_reducible apply State.moveExtent_ok | with_reducible apply State.endMove_ok | with_reducible apply OutOk.next | fail_if_no_progress (with_reducible apply State.mk_ok) | split | dsimp +zetaDelta only

theorem State.cancelTaken_ok {κ : Keep} (s : State) (x index : Nat) (hs : s.Kept κ) :
    State.Kept κ (State.cancelTaken s x index).2 := by
  unfold State.cancelTaken
  repeat' first | with_reducible assumption | with_reducible apply ok_ite_fst | with_reducible apply ok_ite_snd | fail_if_no_progress (with_reducible refine mk_ok_snd rfl ?_) | fail_if_no_progress (with_reducible refine mk_ok_fst rfl ?_) | fail_if_no_progress (with_reducible refine mk_ok_snd_snd rfl ?_) | (intro _) | with_reducible apply ok_ite | with_reducible apply State.updRing_ok | with_reducible apply State.returnMove_ok | fail_if_no_progress (with_reducible apply State.mk_ok) | split

theorem State.cancelMove_ok {κ : Keep} (s : State) (c index : Nat) (hs : s.Kept κ) :
    State.Kept κ (State.cancelMove s c index).2 := by
  unfold State.cancelMove
  repeat' first | with_reducible assumption | with_reducible apply ok_ite_fst | with_reducible apply ok_ite_snd | fail_if_no_progress (with_reducible refine mk_ok_snd rfl ?_) | fail_if_no_progress (with_reducible refine mk_ok_fst rfl ?_) | fail_if_no_progress (with_reducible refine mk_ok_snd_snd rfl ?_) | (intro _) | with_reducible apply ok_ite | extract_lets | with_reducible apply State.updRing_ok | with_reducible apply State.cancelTaken_ok | fail_if_no_progress (with_reducible apply State.mk_ok) | split | dsimp +zetaDelta only

end Machine
end Sys2Proof
end

