-- ==== Sys2Proof/Laws/OkStim.lean ====
section
/-!
SUPPORT. The canonical form is kept by every operation of Machine/Stim.lean.
-/

namespace Sys2Proof
namespace Machine

theorem State.seqLoadAccept_ok {κ : Keep} (o : Order) (s : State) (hs : s.Kept κ) :
    State.Kept κ (State.seqLoadAccept o s) := by
  unfold State.seqLoadAccept
  repeat' first | with_reducible assumption | (intro _) | with_reducible apply ok_ite | with_reducible apply State.retire_ok | with_reducible apply State.validate_ok | with_reducible apply State.startRead_ok | fail_if_no_progress (with_reducible apply State.mk_ok) | split

theorem execSeqLoad_ok {κ : Keep} (s : State) (hs : s.Kept κ) :
    OutOk κ (execSeqLoad s) := by
  unfold execSeqLoad
  repeat' first | with_reducible assumption | (intro _) | with_reducible apply OutOk.ite | with_reducible apply ok_ite | with_reducible apply State.accept_ok | with_reducible apply State.seqLoadAccept_ok | with_reducible apply OutOk.next | fail_if_no_progress (with_reducible apply State.mk_ok) | split

theorem State.copyHeads_ok {κ : Keep} (s : State) (hb : Nat) (l : List (List Byte × Nat)) (hs : s.Kept κ) :
    State.Kept κ (State.copyHeads s hb l) := by
  unfold State.copyHeads
  repeat' first | with_reducible assumption | (intro _) | with_reducible apply ok_ite | with_reducible apply foldl_ok | with_reducible apply foldl_ok_fst | with_reducible apply foldl_ok_snd | with_reducible apply State.cache_ok | fail_if_no_progress (with_reducible apply State.mk_ok) | split

theorem State.seqTables_ok {κ : Keep} (s : State) (o : Order) (segT stepT : List Byte) (hs : s.Kept κ) :
    State.Kept κ (State.seqTables s o segT stepT) := by
  unfold State.seqTables
  repeat' first | with_reducible assumption | (intro _) | with_reducible apply ok_ite | extract_lets | with_reducible apply State.put_ok | with_reducible apply State.retireWith_ok | with_reducible apply State.retire_ok | with_reducible apply State.updSg_ok | with_reducible apply State.copyHeads_ok | fail_if_no_progress (with_reducible apply State.mk_ok) | split | dsimp +zetaDelta only

theorem State.seqStartAccept_ok {κ : Keep} (o : Order) (s : State) (hs : s.Kept κ) :
    State.Kept κ (State.seqStartAccept o s) := by
  unfold State.seqStartAccept
  repeat' first | with_reducible assumption | (intro _) | with_reducible apply ok_ite | extract_lets | with_reducible apply State.setWord_ok | with_reducible apply State.put_ok | with_reducible apply State.gate_ok | with_reducible apply State.retire_ok | with_reducible apply State.validate_ok | with_reducible apply State.updSg_ok | with_reducible apply State.sgSchedule_ok | fail_if_no_progress (with_reducible apply State.mk_ok) | split | dsimp +zetaDelta only

theorem execSeqStart_ok {κ : Keep} (s : State) (hs : s.Kept κ) :
    OutOk κ (execSeqStart s) := by
  unfold execSeqStart
  repeat' first | with_reducible assumption | (intro _) | with_reducible apply OutOk.ite | with_reducible apply ok_ite | with_reducible apply State.accept_ok | with_reducible apply State.seqStartAccept_ok | with_reducible apply OutOk.next | fail_if_no_progress (with_reducible apply State.mk_ok) | split

theorem State.sgGateStart_ok {κ : Keep} (s : State) (tg t : Nat) (hs : s.Kept κ) :
    State.Kept κ (State.sgGateStart s tg t) := by
  unfold State.sgGateStart
  repeat' first | with_reducible assumption | (intro _) | with_reducible apply ok_ite | extract_lets | with_reducible apply State.gate_ok | with_reducible apply State.sgSchedule_ok | with_reducible apply foldl_ok | with_reducible apply foldl_ok_fst | with_reducible apply foldl_ok_snd | fail_if_no_progress (with_reducible apply State.mk_ok) | split | dsimp +zetaDelta only

theorem State.sgRetime_ok {κ : Keep} (s : State) (hs : s.Kept κ) :
    State.Kept κ (State.sgRetime s) := by
  unfold State.sgRetime
  repeat' first | with_reducible assumption | (intro _) | with_reducible apply ok_ite | extract_lets | with_reducible apply State.sgSchedule_ok | with_reducible apply foldl_ok | with_reducible apply foldl_ok_fst | with_reducible apply foldl_ok_snd | fail_if_no_progress (with_reducible apply State.mk_ok) | split | dsimp +zetaDelta only

theorem State.streamRead_ok {κ : Keep} (s : State) (g seg : Nat) (hs : s.Kept κ) :
    State.Kept κ (State.streamRead s g seg) := by
  unfold State.streamRead
  repeat' first | with_reducible assumption | (intro _) | with_reducible apply ok_ite | extract_lets | with_reducible apply State.updSg_ok | fail_if_no_progress (with_reducible apply State.mk_ok) | split | dsimp +zetaDelta only

theorem State.showPlayed_ok {κ : Keep} (s : State) (g : Nat) (hs : s.Kept κ) :
    State.Kept κ (State.showPlayed s g) := by
  unfold State.showPlayed
  repeat' first | with_reducible assumption | (intro _) | with_reducible apply ok_ite | extract_lets | with_reducible apply State.setWord_ok | fail_if_no_progress (with_reducible apply State.mk_ok) | split | dsimp +zetaDelta only

theorem State.playGranule_ok {κ : Keep} (s : State) (g fmt : Nat) (codes : List (Int × Int)) (hs : s.Kept κ) :
    State.Kept κ (State.playGranule s g fmt codes) := by
  unfold State.playGranule
  repeat' first | with_reducible assumption | (intro _) | with_reducible apply ok_ite | extract_lets | with_reducible apply State.send_ok | with_reducible apply State.updDac_ok | with_reducible apply State.updSg_ok | with_reducible apply State.showPlayed_ok | fail_if_no_progress (with_reducible apply State.mk_ok) | split | dsimp +zetaDelta only | with_reducible apply ok_ite_snd | with_reducible apply ok_ite_fst | with_reducible apply id_ok

theorem State.enterStep_ok {κ : Keep} (s : State) (g j since : Nat) (hs : s.Kept κ) :
    State.Kept κ (State.enterStep s g j since) := by
  unfold State.enterStep
  repeat' first | with_reducible assumption | (intro _) | with_reducible apply ok_ite | extract_lets | with_reducible apply State.setWord_ok | with_reducible apply State.put_ok | with_reducible apply State.updSg_ok | fail_if_no_progress (with_reducible apply State.mk_ok) | split | dsimp +zetaDelta only

theorem State.endStep_ok {κ : Keep} (s : State) (g since : Nat) (hs : s.Kept κ) :
    State.Kept κ (State.endStep s g since) := by
  unfold State.endStep
  repeat' first | with_reducible assumption | (intro _) | with_reducible apply ok_ite | extract_lets | with_reducible apply State.sgHalt_ok | with_reducible apply State.enterStep_ok | fail_if_no_progress (with_reducible apply State.mk_ok) | split | dsimp +zetaDelta only | with_reducible apply ok_ite_snd | with_reducible apply ok_ite_fst | with_reducible apply id_ok

theorem State.underrun_ok {κ : Keep} (s : State) (g : Nat) (hs : s.Kept κ) :
    State.Kept κ (State.underrun s g) := by
  unfold State.underrun
  repeat' first | with_reducible assumption | (intro _) | with_reducible apply ok_ite | extract_lets | with_reducible apply State.put_ok | with_reducible apply State.satInc_ok | with_reducible apply State.raise_ok | fail_if_no_progress (with_reducible apply State.mk_ok) | split | dsimp +zetaDelta only

theorem State.playSegment_ok {κ : Keep} (s : State) (g seg k : Nat) (late : Bool) (hs : s.Kept κ) :
    State.Kept κ (State.playSegment s g seg k late).2 := by
  unfold State.playSegment
  repeat' first | with_reducible assumption | with_reducible apply ok_ite_fst | with_reducible apply ok_ite_snd | fail_if_no_progress (with_reducible refine mk_ok_snd rfl ?_) | fail_if_no_progress (with_reducible refine mk_ok_fst rfl ?_) | fail_if_no_progress (with_reducible refine mk_ok_snd_snd rfl ?_) | (intro _) | with_reducible apply ok_ite | extract_lets | with_reducible apply State.sgAbort_ok | with_reducible apply State.streamRead_ok | with_reducible apply State.playGranule_ok | with_reducible apply State.underrun_ok | fail_if_no_progress (with_reducible apply State.mk_ok) | split | dsimp +zetaDelta only

theorem State.commitStep_ok {κ : Keep} (s : State) (g : Nat) (late : Bool) (hs : s.Kept κ) :
    State.Kept κ (State.commitStep s g late) := by
  unfold State.commitStep
  repeat' first | with_reducible assumption | (intro _) | with_reducible apply ok_ite | extract_lets | with_reducible apply State.inc_ok | with_reducible apply State.updSg_ok | with_reducible apply State.setMarkers_ok | with_reducible apply State.endStep_ok | with_reducible apply State.playSegment_ok | fail_if_no_progress (with_reducible apply State.mk_ok) | split | dsimp +zetaDelta only | with_reducible apply ok_ite_snd | with_reducible apply ok_ite_fst | with_reducible apply id_ok

theorem State.commitIdle_ok {κ : Keep} (s : State) (g : Nat) (late : Bool) (hs : s.Kept κ) :
    State.Kept κ (State.commitIdle s g late) := by
  unfold State.commitIdle
  repeat' first | with_reducible assumption | (intro _) | with_reducible apply ok_ite | extract_lets | with_reducible apply State.updSg_ok | with_reducible apply State.setMarkers_ok | with_reducible apply State.playGranule_ok | with_reducible apply State.playSegment_ok | fail_if_no_progress (with_reducible apply State.mk_ok) | split | dsimp +zetaDelta only | with_reducible apply ok_ite_snd | with_reducible apply ok_ite_fst | with_reducible apply id_ok

theorem State.beginStep_ok {κ : Keep} (s : State) (g : Nat) (hs : s.Kept κ) :
    State.Kept κ (State.beginStep s g) := by
  unfold State.beginStep
  repeat' first | with_reducible assumption | (intro _) | with_reducible apply ok_ite | with_reducible apply State.put_ok | with_reducible apply State.inc_ok | with_reducible apply State.updSg_ok | fail_if_no_progress (with_reducible apply State.mk_ok) | split

theorem State.release_ok {κ : Keep} (s : State) (g kind : Nat) (cycle : Option Nat) (hs : s.Kept κ) :
    State.Kept κ (State.release s g kind cycle) := by
  unfold State.release
  repeat' first | with_reducible assumption | (intro _) | with_reducible apply ok_ite | extract_lets | with_reducible apply State.satInc_ok | with_reducible apply State.updSg_ok | with_reducible apply State.beginStep_ok | fail_if_no_progress (with_reducible apply State.mk_ok) | split | dsimp +zetaDelta only

theorem State.sgGateFire_ok {κ : Keep} (s : State) (tg t : Nat) (hs : s.Kept κ) :
    State.Kept κ (State.sgGateFire s tg t) := by
  unfold State.sgGateFire
  repeat' first | with_reducible assumption | (intro _) | with_reducible apply ok_ite | extract_lets | with_reducible apply State.updSg_ok | with_reducible apply State.beginStep_ok | with_reducible apply foldl_ok | with_reducible apply foldl_ok_fst | with_reducible apply foldl_ok_snd | fail_if_no_progress (with_reducible apply State.mk_ok) | split | dsimp +zetaDelta only

theorem State.beginSequence_ok {κ : Keep} (s : State) (g ball : Nat) (hs : s.Kept κ) :
    State.Kept κ (State.beginSequence s g ball) := by
  unfold State.beginSequence
  repeat' first | with_reducible assumption | (intro _) | with_reducible apply ok_ite | extract_lets | with_reducible apply State.setWord_ok | with_reducible apply State.put_ok | with_reducible apply State.retireRef_ok | with_reducible apply State.updSg_ok | with_reducible apply State.enterStep_ok | fail_if_no_progress (with_reducible apply State.mk_ok) | split | dsimp +zetaDelta only

theorem execGranuleCommit_ok {κ : Keep} (g : Fin 8) (late : Bool) (errs : List LineErr) (s : State) (hs : s.Kept κ) :
    OutOk κ (execGranuleCommit g late errs s) := by
  unfold execGranuleCommit
  repeat' first | with_reducible assumption | (intro _) | with_reducible apply OutOk.ite | with_reducible apply ok_ite | extract_lets | with_reducible apply State.sgSchedule_ok | with_reducible apply State.demandError_ok | with_reducible apply State.commitStep_ok | with_reducible apply State.commitIdle_ok | with_reducible apply State.beginStep_ok | with_reducible apply State.beginSequence_ok | with_reducible apply foldl_ok | with_reducible apply foldl_ok_fst | with_reducible apply foldl_ok_snd | with_reducible apply OutOk.next | fail_if_no_progress (with_reducible apply State.mk_ok) | split | dsimp +zetaDelta only

theorem execSgRelease_ok {κ : Keep} (p : Path) (g : Fin 8) (s : State) (hs : s.Kept κ) :
    OutOk κ (execSgRelease p g s) := by
  unfold execSgRelease
  repeat' first | with_reducible assumption | (intro _) | with_reducible apply OutOk.ite | with_reducible apply ok_ite | with_reducible apply State.gateAction_ok | with_reducible apply State.release_ok | with_reducible apply OutOk.next | fail_if_no_progress (with_reducible apply State.mk_ok) | split

theorem State.sgStop_ok {κ : Keep} (s : State) (g last : Nat) (hs : s.Kept κ) :
    State.Kept κ (State.sgStop s g last) := by
  unfold State.sgStop
  repeat' first | with_reducible assumption | (intro _) | with_reducible apply ok_ite | with_reducible apply State.sgHalt_ok | fail_if_no_progress (with_reducible apply State.mk_ok) | split

theorem State.cancelGenerator_ok {κ : Keep} (s : State) (g : Nat) (hs : s.Kept κ) :
    State.Kept κ (State.cancelGenerator s g).2 := by
  unfold State.cancelGenerator
  repeat' first | with_reducible assumption | with_reducible apply ok_ite_fst | with_reducible apply ok_ite_snd | fail_if_no_progress (with_reducible refine mk_ok_snd rfl ?_) | fail_if_no_progress (with_reducible refine mk_ok_fst rfl ?_) | fail_if_no_progress (with_reducible refine mk_ok_snd_snd rfl ?_) | (intro _) | with_reducible apply ok_ite | with_reducible apply State.sgHalt_ok | fail_if_no_progress (with_reducible apply State.mk_ok) | split

theorem execSgStopWrite_ok {κ : Keep} (p : Path) (g : Fin 8) (s : State) (hs : s.Kept κ) :
    OutOk κ (execSgStopWrite p g s) := by
  unfold execSgStopWrite
  repeat' first | with_reducible assumption | (intro _) | with_reducible apply OutOk.ite | with_reducible apply ok_ite | with_reducible apply State.gateAction_ok | with_reducible apply State.sgStop_ok | with_reducible apply OutOk.next | fail_if_no_progress (with_reducible apply State.mk_ok) | split

theorem State.writeSgCtl_ok {κ : Keep} (s : State) (g : Nat) (w : Word) (hs : s.Kept κ) :
    State.Kept κ (State.writeSgCtl s g w) := by
  unfold State.writeSgCtl
  repeat' first | with_reducible assumption | (intro _) | with_reducible apply ok_ite | with_reducible apply State.release_ok | with_reducible apply State.sgStop_ok | fail_if_no_progress (with_reducible apply State.mk_ok) | split

theorem State.seqStopAccept_ok {κ : Keep} (o : Order) (s : State) (hs : s.Kept κ) :
    State.Kept κ (State.seqStopAccept o s) := by
  unfold State.seqStopAccept
  repeat' first | with_reducible assumption | (intro _) | with_reducible apply ok_ite | extract_lets | with_reducible apply State.retire_ok | with_reducible apply State.validate_ok | with_reducible apply State.updSg_ok | with_reducible apply State.sgHalt_ok | fail_if_no_progress (with_reducible apply State.mk_ok) | split | dsimp +zetaDelta only

theorem execSeqStop_ok {κ : Keep} (s : State) (hs : s.Kept κ) :
    OutOk κ (execSeqStop s) := by
  unfold execSeqStop
  repeat' first | with_reducible assumption | (intro _) | with_reducible apply OutOk.ite | with_reducible apply ok_ite | with_reducible apply State.accept_ok | with_reducible apply State.seqStopAccept_ok | with_reducible apply OutOk.next | fail_if_no_progress (with_reducible apply State.mk_ok) | split

theorem State.seqStopCancel_ok {κ : Keep} (s : State) (o : Order) (hs : s.Kept κ) :
    State.Kept κ (State.seqStopCancel s o) := by
  unfold State.seqStopCancel
  repeat' first | with_reducible assumption | (intro _) | with_reducible apply ok_ite | with_reducible apply State.retire_ok | with_reducible apply State.updSg_ok | fail_if_no_progress (with_reducible apply State.mk_ok) | split | with_reducible apply ok_ite_snd | with_reducible apply ok_ite_fst | with_reducible apply id_ok

theorem State.sgEnable_ok {κ : Keep} (s : State) (g : Nat) (en : Bool) (hs : s.Kept κ) :
    State.Kept κ (State.sgEnable s g en) := by
  unfold State.sgEnable
  repeat' first | with_reducible assumption | (intro _) | with_reducible apply ok_ite | extract_lets | with_reducible apply State.put_ok | with_reducible apply State.updSg_ok | with_reducible apply State.cancelGenerator_ok | fail_if_no_progress (with_reducible apply State.mk_ok) | split | dsimp +zetaDelta only | with_reducible apply ok_ite_snd | with_reducible apply ok_ite_fst | with_reducible apply id_ok

theorem execSgEnWrite_ok {κ : Keep} (p : Path) (g : Fin 8) (en : Bool) (s : State) (hs : s.Kept κ) :
    OutOk κ (execSgEnWrite p g en s) := by
  unfold execSgEnWrite
  repeat' first | with_reducible assumption | (intro _) | with_reducible apply OutOk.ite | with_reducible apply ok_ite | with_reducible apply State.gateField_ok | with_reducible apply State.sgEnable_ok | with_reducible apply OutOk.next | fail_if_no_progress (with_reducible apply State.mk_ok) | split

theorem State.writeSgCfg_ok {κ : Keep} (s : State) (g : Nat) (w : Word) (hs : s.Kept κ) :
    State.Kept κ (State.writeSgCfg s g w) := by
  unfold State.writeSgCfg
  repeat' first | with_reducible assumption | (intro _) | with_reducible apply ok_ite | extract_lets | with_reducible apply State.put_ok | with_reducible apply State.sgEnable_ok | fail_if_no_progress (with_reducible apply State.mk_ok) | split | dsimp +zetaDelta only

theorem State.writeSgSkew_ok {κ : Keep} (s : State) (g : Nat) (w : Word) (hs : s.Kept κ) :
    State.Kept κ (State.writeSgSkew s g w) := by
  unfold State.writeSgSkew
  repeat' first | with_reducible assumption | (intro _) | with_reducible apply ok_ite | with_reducible apply State.put_ok | with_reducible apply State.plainWrite_ok | fail_if_no_progress (with_reducible apply State.mk_ok) | split

theorem State.startSkew_ok {κ : Keep} (s : State) (hs : s.Kept κ) :
    State.Kept κ (State.startSkew s) := by
  unfold State.startSkew
  repeat' first | with_reducible assumption | (intro _) | with_reducible apply ok_ite | with_reducible apply State.updOrder_ok | fail_if_no_progress (with_reducible apply State.mk_ok) | split

theorem State.skewCalAccept_ok {κ : Keep} (o : Order) (s : State) (hs : s.Kept κ) :
    State.Kept κ (State.skewCalAccept o s) := by
  unfold State.skewCalAccept
  repeat' first | with_reducible assumption | (intro _) | with_reducible apply ok_ite | with_reducible apply State.retire_ok | with_reducible apply State.validate_ok | with_reducible apply State.startSkew_ok | fail_if_no_progress (with_reducible apply State.mk_ok) | split

theorem execSkewCal_ok {κ : Keep} (s : State) (hs : s.Kept κ) :
    OutOk κ (execSkewCal s) := by
  unfold execSkewCal
  repeat' first | with_reducible assumption | (intro _) | with_reducible apply OutOk.ite | with_reducible apply ok_ite | with_reducible apply State.accept_ok | with_reducible apply State.skewCalAccept_ok | with_reducible apply OutOk.next | fail_if_no_progress (with_reducible apply State.mk_ok) | split

theorem execSkewCalDone_ok {κ : Keep} (trims : List (Fin 512 × Fin 64 × Int)) (inRange : Bool) (s : State) (hs : s.Kept κ) :
    OutOk κ (execSkewCalDone trims inRange s) := by
  unfold execSkewCalDone
  repeat' first | with_reducible assumption | (intro _) | with_reducible apply OutOk.ite | with_reducible apply ok_ite | extract_lets | with_reducible apply State.put_ok | with_reducible apply State.retireWith_ok | with_reducible apply State.retire_ok | with_reducible apply State.startSkew_ok | with_reducible apply foldl_ok | with_reducible apply foldl_ok_fst | with_reducible apply foldl_ok_snd | with_reducible apply OutOk.next | fail_if_no_progress (with_reducible apply State.mk_ok) | split | dsimp +zetaDelta only | with_reducible apply ok_ite_snd | with_reducible apply ok_ite_fst | with_reducible apply id_ok

end Machine
end Sys2Proof
end

