-- ==== Sys2Proof/Laws/OkTimebase.lean ====
section
/-!
SUPPORT. The canonical form is kept by every operation of Machine/Timebase.lean.
-/

namespace Sys2Proof
namespace Machine

theorem State.reanchor_ok {κ : Keep} (s : State) (d : Int) (hs : s.Kept κ) :
    State.Kept κ (State.reanchor s d) := by
  unfold State.reanchor
  repeat' first | with_reducible assumption | (intro _) | with_reducible apply ok_ite | extract_lets | with_reducible apply State.inc_ok | with_reducible apply State.updAdc_ok | with_reducible apply State.updSg_ok | with_reducible apply foldl_ok | with_reducible apply foldl_ok_fst | with_reducible apply foldl_ok_snd | fail_if_no_progress (with_reducible apply State.mk_ok) | split | dsimp +zetaDelta only

theorem State.tick_ok {κ : Keep} (s : State) (hs : s.Kept κ) :
    State.Kept κ (State.tick s) := by
  unfold State.tick
  repeat' first | with_reducible assumption | (intro _) | with_reducible apply ok_ite | extract_lets | with_reducible apply State.put_ok | with_reducible apply State.inc_ok | with_reducible apply State.reanchor_ok | fail_if_no_progress (with_reducible apply State.mk_ok) | split | dsimp +zetaDelta only

theorem State.writeInc_ok {κ : Keep} (s : State) (n : Nat) (hs : s.Kept κ) :
    State.Kept κ (State.writeInc s n) := by
  unfold State.writeInc
  repeat' first | with_reducible assumption | (intro _) | with_reducible apply ok_ite | with_reducible apply State.put_ok | fail_if_no_progress (with_reducible apply State.mk_ok) | split

theorem execTimeIncWrite_ok {κ : Keep} (p : Path) (w : Word) (s : State) (hs : s.Kept κ) :
    OutOk κ (execTimeIncWrite p w s) := by
  unfold execTimeIncWrite
  repeat' first | with_reducible assumption | (intro _) | with_reducible apply OutOk.ite | with_reducible apply ok_ite | with_reducible apply State.gateAction_ok | with_reducible apply State.writeInc_ok | with_reducible apply OutOk.next | fail_if_no_progress (with_reducible apply State.mk_ok) | split

theorem State.masterLost_ok {κ : Keep} (s : State) (hs : s.Kept κ) :
    State.Kept κ (State.masterLost s) := by
  unfold State.masterLost
  repeat' first | with_reducible assumption | (intro _) | with_reducible apply ok_ite | with_reducible apply State.satInc_ok | with_reducible apply State.raiseInst_ok | fail_if_no_progress (with_reducible apply State.mk_ok) | split

theorem State.writeServo_ok {κ : Keep} (s : State) (locked : Bool) (hs : s.Kept κ) :
    State.Kept κ (State.writeServo s locked) := by
  unfold State.writeServo
  repeat' first | with_reducible assumption | (intro _) | with_reducible apply ok_ite | extract_lets | with_reducible apply State.put_ok | with_reducible apply State.raiseInst_ok | with_reducible apply State.masterLost_ok | fail_if_no_progress (with_reducible apply State.mk_ok) | split | dsimp +zetaDelta only

theorem execTimeServoWrite_ok {κ : Keep} (p : Path) (locked : Bool) (s : State) (hs : s.Kept κ) :
    OutOk κ (execTimeServoWrite p locked s) := by
  unfold execTimeServoWrite
  repeat' first | with_reducible assumption | (intro _) | with_reducible apply OutOk.ite | with_reducible apply ok_ite | with_reducible apply State.gateAction_ok | with_reducible apply State.writeServo_ok | with_reducible apply OutOk.next | fail_if_no_progress (with_reducible apply State.mk_ok) | split

theorem execHoldTimeout_ok {κ : Keep} (s : State) (hs : s.Kept κ) :
    OutOk κ (execHoldTimeout s) := by
  unfold execHoldTimeout
  repeat' first | with_reducible assumption | (intro _) | with_reducible apply OutOk.ite | with_reducible apply ok_ite | with_reducible apply State.put_ok | with_reducible apply State.masterLost_ok | with_reducible apply OutOk.next | fail_if_no_progress (with_reducible apply State.mk_ok) | split

theorem State.timeStepAccept_ok {κ : Keep} (o : Order) (s : State) (hs : s.Kept κ) :
    State.Kept κ (State.timeStepAccept o s) := by
  unfold State.timeStepAccept
  repeat' first | with_reducible assumption | (intro _) | with_reducible apply ok_ite | extract_lets | with_reducible apply State.put_ok | with_reducible apply State.raiseInst_ok | with_reducible apply State.retire_ok | with_reducible apply State.validate_ok | fail_if_no_progress (with_reducible apply State.mk_ok) | split | dsimp +zetaDelta only

theorem execTimeStep_ok {κ : Keep} (s : State) (hs : s.Kept κ) :
    OutOk κ (execTimeStep s) := by
  unfold execTimeStep
  repeat' first | with_reducible assumption | (intro _) | with_reducible apply OutOk.ite | with_reducible apply ok_ite | with_reducible apply State.accept_ok | with_reducible apply State.timeStepAccept_ok | with_reducible apply OutOk.next | fail_if_no_progress (with_reducible apply State.mk_ok) | split

theorem State.timeStepCancel_ok {κ : Keep} (s : State) (o : Order) (hs : s.Kept κ) :
    State.Kept κ (State.timeStepCancel s o) := by
  unfold State.timeStepCancel
  repeat' first | with_reducible assumption | (intro _) | with_reducible apply ok_ite | with_reducible apply State.retire_ok | fail_if_no_progress (with_reducible apply State.mk_ok) | split | with_reducible apply ok_ite_snd | with_reducible apply ok_ite_fst | with_reducible apply id_ok

theorem State.updGate_ok {κ : Keep} (s : State) (g : Nat) (f : Gate → Gate) (hs : s.Kept κ) :
    State.Kept κ (State.updGate s g f) := by
  unfold State.updGate
  repeat' first | with_reducible assumption | (intro _) | with_reducible apply ok_ite | with_reducible apply State.put_ok | fail_if_no_progress (with_reducible apply State.mk_ok) | split

theorem State.tgEnd_ok {κ : Keep} (s : State) (g : Nat) (hs : s.Kept κ) :
    State.Kept κ (State.tgEnd s g) := by
  unfold State.tgEnd
  repeat' first | with_reducible assumption | (intro _) | with_reducible apply ok_ite | with_reducible apply State.put_ok | fail_if_no_progress (with_reducible apply State.mk_ok) | split

theorem State.tgSkip_ok {κ : Keep} (s : State) (g t : Nat) (hs : s.Kept κ) :
    State.Kept κ (State.tgSkip s g t).2 := by
  unfold State.tgSkip
  repeat' first | with_reducible assumption | with_reducible apply ok_ite_fst | with_reducible apply ok_ite_snd | fail_if_no_progress (with_reducible refine mk_ok_snd rfl ?_) | fail_if_no_progress (with_reducible refine mk_ok_fst rfl ?_) | fail_if_no_progress (with_reducible refine mk_ok_snd_snd rfl ?_) | (intro _) | with_reducible apply ok_ite | extract_lets | with_reducible apply State.satInc_ok | with_reducible apply State.updGate_ok | with_reducible apply State.tgEnd_ok | fail_if_no_progress (with_reducible apply State.mk_ok) | split | dsimp +zetaDelta only

theorem State.writeTgCtl_ok {κ : Keep} (s : State) (g : Nat) (w : Word) (hs : s.Kept κ) :
    State.Kept κ (State.writeTgCtl s g w) := by
  unfold State.writeTgCtl
  repeat' first | with_reducible assumption | (intro _) | with_reducible apply ok_ite | extract_lets | with_reducible apply State.put_ok | with_reducible apply State.plainWrite_ok | with_reducible apply State.updGate_ok | with_reducible apply State.tgSkip_ok | fail_if_no_progress (with_reducible apply State.mk_ok) | split | dsimp +zetaDelta only | with_reducible apply ok_ite_snd | with_reducible apply ok_ite_fst | with_reducible apply id_ok

theorem execTgEnable_ok {κ : Keep} (p : Path) (g : Fin 32) (w : Word) (s : State) (hs : s.Kept κ) :
    OutOk κ (execTgEnable p g w s) := by
  unfold execTgEnable
  repeat' first | with_reducible assumption | (intro _) | with_reducible apply OutOk.ite | with_reducible apply ok_ite | with_reducible apply State.gate_ok | with_reducible apply State.writeTgCtl_ok | with_reducible apply OutOk.next | fail_if_no_progress (with_reducible apply State.mk_ok) | split

theorem State.writeTgSet_ok {κ : Keep} (s : State) (g key : Nat) (w : Word) (hs : s.Kept κ) :
    State.Kept κ (State.writeTgSet s g key w) := by
  unfold State.writeTgSet
  repeat' first | with_reducible assumption | (intro _) | with_reducible apply ok_ite | with_reducible apply State.put_ok | with_reducible apply State.plainWrite_ok | fail_if_no_progress (with_reducible apply State.mk_ok) | split

theorem execGateAnnounce_ok {κ : Keep} (g : Fin 32) (s : State) (hs : s.Kept κ) :
    OutOk κ (execGateAnnounce g s) := by
  unfold execGateAnnounce
  repeat' first | with_reducible assumption | (intro _) | with_reducible apply OutOk.ite | with_reducible apply ok_ite | extract_lets | with_reducible apply State.sgGateStart_ok | with_reducible apply State.updGate_ok | with_reducible apply OutOk.next | fail_if_no_progress (with_reducible apply State.mk_ok) | split | dsimp +zetaDelta only

theorem State.tgPassed_ok {κ : Keep} (s : State) (new : Nat) (hs : s.Kept κ) :
    State.Kept κ (State.tgPassed s new) := by
  unfold State.tgPassed
  repeat' first | with_reducible assumption | (intro _) | with_reducible apply ok_ite | extract_lets | with_reducible apply State.raiseInst_ok | with_reducible apply State.tgSkip_ok | with_reducible apply foldl_ok | with_reducible apply foldl_ok_fst | with_reducible apply foldl_ok_snd | fail_if_no_progress (with_reducible apply State.mk_ok) | split | dsimp +zetaDelta only | with_reducible apply ok_ite_snd | with_reducible apply ok_ite_fst | with_reducible apply id_ok

theorem State.tgFired_ok {κ : Keep} (s : State) (g : Nat) (hs : s.Kept κ) :
    State.Kept κ (State.tgFired s g) := by
  unfold State.tgFired
  repeat' first | with_reducible assumption | (intro _) | with_reducible apply ok_ite | extract_lets | with_reducible apply State.inc_ok | with_reducible apply State.updGate_ok | with_reducible apply State.tgEnd_ok | fail_if_no_progress (with_reducible apply State.mk_ok) | split | dsimp +zetaDelta only

end Machine
end Sys2Proof
end

