-- ==== Sys2Proof/Laws/OkEth.lean ====
section
/-!
SUPPORT. The canonical form is kept by every operation of Machine/Eth.lean.
-/

namespace Sys2Proof
namespace Machine

theorem State.setStamp_ok {κ : Keep} (s : State) (k0 k1 k2 stamp : Nat) (hs : s.Kept κ) :
    State.Kept κ (State.setStamp s k0 k1 k2 stamp) := by
  unfold State.setStamp
  repeat' first | with_reducible assumption | (intro _) | with_reducible apply ok_ite | extract_lets | with_reducible apply State.setWord_ok | fail_if_no_progress (with_reducible apply State.mk_ok) | split | dsimp +zetaDelta only

theorem State.ethEvent_ok {κ : Keep} (s : State) (hs : s.Kept κ) :
    State.Kept κ (State.ethEvent s) := by
  unfold State.ethEvent
  repeat' first | with_reducible assumption | (intro _) | with_reducible apply ok_ite | with_reducible apply State.raiseInst_ok | fail_if_no_progress (with_reducible apply State.mk_ok) | split

theorem State.writeTxCtl_ok {κ : Keep} (s : State) (t : Nat) (w : Word) (hs : s.Kept κ) :
    State.Kept κ (State.writeTxCtl s t w) := by
  unfold State.writeTxCtl
  repeat' first | with_reducible assumption | exact fun h => h | exact fun h => Mem.writes_wf _ _ _ _ h | exact Nat.le_succ _ | (intro _) | with_reducible apply ok_ite | extract_lets | with_reducible apply State.put_ok | with_reducible apply State.plainWrite_ok | fail_if_no_progress (with_reducible apply State.mk_ok) | fail_if_no_progress (with_reducible apply State.mk_ok_eth) | split | dsimp +zetaDelta only

theorem execEthTxGo_ok {κ : Keep} (p : Path) (t : Fin 2) (w : Word) (s : State) (hs : s.Kept κ) :
    OutOk κ (execEthTxGo p t w s) := by
  unfold execEthTxGo
  repeat' first | with_reducible assumption | (intro _) | with_reducible apply OutOk.ite | with_reducible apply ok_ite | with_reducible apply State.gateAction_ok | with_reducible apply State.writeTxCtl_ok | with_reducible apply OutOk.next | fail_if_no_progress (with_reducible apply State.mk_ok) | split

theorem execEthTxDone_ok {κ : Keep} (t : Fin 2) (sub : Fin 2621440) (s : State) (hs : s.Kept κ) :
    OutOk κ (execEthTxDone t sub s) := by
  unfold execEthTxDone
  repeat' first | with_reducible assumption | exact fun h => h | exact fun h => Mem.writes_wf _ _ _ _ h | exact Nat.le_succ _ | (intro _) | with_reducible apply OutOk.ite | with_reducible apply ok_ite | extract_lets | with_reducible apply State.send_ok | with_reducible apply State.put_ok | with_reducible apply State.setStamp_ok | with_reducible apply State.ethEvent_ok | with_reducible apply OutOk.next | fail_if_no_progress (with_reducible apply State.mk_ok) | fail_if_no_progress (with_reducible apply State.mk_ok_eth) | split | dsimp +zetaDelta only

theorem State.ethFilter_ok {κ : Keep} (s : State) (bs : List Byte) (hs : s.Kept κ) :
    State.Kept κ (State.ethFilter s bs).2 := by
  unfold State.ethFilter
  repeat' first | with_reducible assumption | with_reducible apply ok_ite_fst | with_reducible apply ok_ite_snd | fail_if_no_progress (with_reducible refine mk_ok_snd rfl ?_) | fail_if_no_progress (with_reducible refine mk_ok_fst rfl ?_) | fail_if_no_progress (with_reducible refine mk_ok_snd_snd rfl ?_) | (intro _) | with_reducible apply ok_ite | extract_lets | with_reducible apply State.satInc_ok | fail_if_no_progress (with_reducible apply State.mk_ok) | split | dsimp +zetaDelta only

theorem execEthFrameReceived_ok {κ : Keep} (bytes : List Byte) (sub : Fin 2621440) (s : State) (hs : s.Kept κ) :
    OutOk κ (execEthFrameReceived bytes sub s) := by
  unfold execEthFrameReceived
  repeat' first | with_reducible assumption | exact fun h => h | exact fun h => Mem.writes_wf _ _ _ _ h | exact Nat.le_succ _ | (intro _) | with_reducible apply OutOk.ite | with_reducible apply ok_ite | extract_lets | with_reducible apply State.put_ok | with_reducible apply State.satInc_ok | with_reducible apply State.setStamp_ok | with_reducible apply State.ethEvent_ok | with_reducible apply State.ethFilter_ok | with_reducible apply OutOk.next | fail_if_no_progress (with_reducible apply State.mk_ok) | fail_if_no_progress (with_reducible apply State.mk_ok_eth) | split | dsimp +zetaDelta only | with_reducible apply ok_ite_snd | with_reducible apply ok_ite_fst | with_reducible apply id_ok

theorem execEth0LinkChange_ok {κ : Keep} (up : Bool) (s : State) (hs : s.Kept κ) :
    OutOk κ (execEth0LinkChange up s) := by
  unfold execEth0LinkChange
  repeat' first | with_reducible assumption | (intro _) | with_reducible apply OutOk.ite | with_reducible apply ok_ite | with_reducible apply State.put_ok | with_reducible apply OutOk.next | fail_if_no_progress (with_reducible apply State.mk_ok) | split

theorem State.writeEthCfg_ok {κ : Keep} (s : State) (w : Word) (hs : s.Kept κ) :
    State.Kept κ (State.writeEthCfg s w) := by
  unfold State.writeEthCfg
  repeat' first | with_reducible assumption | (intro _) | with_reducible apply ok_ite | extract_lets | with_reducible apply State.put_ok | with_reducible apply State.plainWrite_ok | fail_if_no_progress (with_reducible apply State.mk_ok) | split | dsimp +zetaDelta only

theorem State.writeEthBuffer_ok {κ : Keep} (s : State) (off : Nat) (w : Word) (hs : s.Kept κ) :
    State.Kept κ (State.writeEthBuffer s off w) := by
  unfold State.writeEthBuffer
  repeat' first | with_reducible assumption | exact fun h => h | exact fun h => Mem.writes_wf _ _ _ _ h | exact Nat.le_succ _ | (intro _) | with_reducible apply ok_ite | fail_if_no_progress (with_reducible apply State.mk_ok) | fail_if_no_progress (with_reducible apply State.mk_ok_eth) | split

end Machine
end Sys2Proof
end

