-- ==== Sys2Proof/Laws/OkKx.lean ====
section
/-!
SUPPORT. The canonical form is kept by every operation of Machine/Kx.lean.
-/

namespace Sys2Proof
namespace Machine

theorem State.acquire_ok {κ : Keep} (s : State) (hs : s.Kept κ) :
    State.Kept κ (State.acquire s) := by
  unfold State.acquire
  repeat' first | with_reducible assumption | (intro _) | with_reducible apply ok_ite | with_reducible apply State.put_ok | fail_if_no_progress (with_reducible apply State.mk_ok) | split

theorem State.settleRoot_ok {κ : Keep} (s : State) (hs : s.Kept κ) :
    State.Kept κ (State.settleRoot s) := by
  unfold State.settleRoot
  repeat' first | with_reducible assumption | (intro _) | with_reducible apply ok_ite | extract_lets | with_reducible apply State.acquire_ok | fail_if_no_progress (with_reducible apply State.mk_ok) | split | dsimp +zetaDelta only

theorem State.reroute_ok {κ : Keep} (s : State) (f : State → State) (hs : s.Kept κ) (hf : ∀ x, x.Kept κ → (f x).Kept κ) :
    State.Kept κ (State.reroute s f) := by
  unfold State.reroute
  repeat' first | with_reducible assumption | (intro _) | with_reducible apply hf | with_reducible apply ok_ite | extract_lets | with_reducible apply State.inc_ok | with_reducible apply State.settleRoot_ok | fail_if_no_progress (with_reducible apply State.mk_ok) | split | dsimp +zetaDelta only

theorem State.writeTimeCfg_ok {κ : Keep} (s : State) (w : Word) (hs : s.Kept κ) :
    State.Kept κ (State.writeTimeCfg s w) := by
  unfold State.writeTimeCfg
  repeat' first | with_reducible assumption | (intro _) | with_reducible apply ok_ite | extract_lets | with_reducible apply State.put_ok | with_reducible apply State.plainWrite_ok | with_reducible apply State.acquire_ok | with_reducible apply State.settleRoot_ok | fail_if_no_progress (with_reducible apply State.mk_ok) | split | dsimp +zetaDelta only

theorem execTimeModeWrite_ok {κ : Keep} (p : Path) (w : Word) (s : State) (hs : s.Kept κ) :
    OutOk κ (execTimeModeWrite p w s) := by
  unfold execTimeModeWrite
  repeat' first | with_reducible assumption | (intro _) | with_reducible apply OutOk.ite | with_reducible apply ok_ite | with_reducible apply State.gateAction_ok | with_reducible apply State.writeTimeCfg_ok | with_reducible apply OutOk.next | fail_if_no_progress (with_reducible apply State.mk_ok) | split

theorem State.writeTimeRoot_ok {κ : Keep} (s : State) (w : Word) (hs : s.Kept κ) :
    State.Kept κ (State.writeTimeRoot s w) := by
  unfold State.writeTimeRoot
  repeat' first | with_reducible assumption | (intro _) | with_reducible apply ok_ite | with_reducible apply State.plainWrite_ok | with_reducible apply State.settleRoot_ok | fail_if_no_progress (with_reducible apply State.mk_ok) | split

theorem execFollowLostTimeout_ok {κ : Keep} (s : State) (hs : s.Kept κ) :
    OutOk κ (execFollowLostTimeout s) := by
  unfold execFollowLostTimeout
  repeat' first | with_reducible assumption | (intro _) | with_reducible apply OutOk.ite | with_reducible apply ok_ite | with_reducible apply State.put_ok | with_reducible apply State.masterLost_ok | with_reducible apply OutOk.next | fail_if_no_progress (with_reducible apply State.mk_ok) | split

theorem State.sendTrigger_ok {κ : Keep} (s : State) (l : Nat) (t : KxTrigger) (hs : s.Kept κ) :
    State.Kept κ (State.sendTrigger s l t) := by
  unfold State.sendTrigger
  repeat' first | with_reducible assumption | (intro _) | with_reducible apply ok_ite | extract_lets | with_reducible apply State.send_ok | fail_if_no_progress (with_reducible apply State.mk_ok) | split | dsimp +zetaDelta only | with_reducible apply ok_ite_snd | with_reducible apply ok_ite_fst | with_reducible apply id_ok

theorem State.linkLeft_ok {κ : Keep} (s : State) (l : Nat) (f : State → State) (hs : s.Kept κ) (hf : ∀ x, x.Kept κ → (f x).Kept κ) :
    State.Kept κ (State.linkLeft s l f) := by
  unfold State.linkLeft
  repeat' first | with_reducible assumption | (intro _) | with_reducible apply hf | with_reducible apply ok_ite | extract_lets | with_reducible apply State.satInc_ok | with_reducible apply State.raiseInst_ok | with_reducible apply State.reroute_ok | with_reducible apply State.sendTrigger_ok | with_reducible apply foldl_ok | with_reducible apply foldl_ok_fst | with_reducible apply foldl_ok_snd | fail_if_no_progress (with_reducible apply State.mk_ok) | split | dsimp +zetaDelta only | with_reducible apply ok_ite_snd | with_reducible apply ok_ite_fst | with_reducible apply id_ok

theorem State.writeKxLink_ok {κ : Keep} (s : State) (l : Nat) (en : Bool) (hs : s.Kept κ) :
    State.Kept κ (State.writeKxLink s l en) := by
  unfold State.writeKxLink
  repeat' first | with_reducible assumption | (intro _) | with_reducible apply ok_ite | extract_lets | with_reducible apply State.put_ok | with_reducible apply State.linkLeft_ok | fail_if_no_progress (with_reducible apply State.mk_ok) | split | dsimp +zetaDelta only

theorem execKxLinkEnable_ok {κ : Keep} (p : Path) (l : Fin 6) (en : Bool) (s : State) (hs : s.Kept κ) :
    OutOk κ (execKxLinkEnable p l en s) := by
  unfold execKxLinkEnable
  repeat' first | with_reducible assumption | (intro _) | with_reducible apply OutOk.ite | with_reducible apply ok_ite | with_reducible apply State.gateField_ok | with_reducible apply State.writeKxLink_ok | with_reducible apply OutOk.next | fail_if_no_progress (with_reducible apply State.mk_ok) | split

theorem State.exchangeHello_ok {κ : Keep} (s : State) (l devid : Nat) (refMaster : Option Nat) (slot : Nat) (hs : s.Kept κ) :
    State.Kept κ (State.exchangeHello s l devid refMaster slot) := by
  unfold State.exchangeHello
  repeat' first | with_reducible assumption | (intro _) | with_reducible apply ok_ite | extract_lets | with_reducible apply State.send_ok | with_reducible apply State.put_ok | fail_if_no_progress (with_reducible apply State.mk_ok) | split | dsimp +zetaDelta only

theorem execKxHello_ok {κ : Keep} (device : Fin 16) (l : Fin 6) (devid : Fin 262144) (refMaster : Option (Fin 262144)) (slot : Fin 16) (s : State) (hs : s.Kept κ) :
    OutOk κ (execKxHello device l devid refMaster slot s) := by
  unfold execKxHello
  repeat' first | with_reducible assumption | (intro _) | with_reducible apply OutOk.ite | with_reducible apply ok_ite | extract_lets | with_reducible apply State.put_ok | with_reducible apply State.raiseInst_ok | with_reducible apply State.reroute_ok | with_reducible apply State.exchangeHello_ok | with_reducible apply OutOk.next | fail_if_no_progress (with_reducible apply State.mk_ok) | split | dsimp +zetaDelta only

theorem execKxLinkLoss_ok {κ : Keep} (device : Fin 16) (l : Fin 6) (s : State) (hs : s.Kept κ) :
    OutOk κ (execKxLinkLoss device l s) := by
  unfold execKxLinkLoss
  repeat' first | with_reducible assumption | (intro _) | with_reducible apply OutOk.ite | with_reducible apply ok_ite | extract_lets | with_reducible apply State.put_ok | with_reducible apply State.reroute_ok | with_reducible apply State.linkLeft_ok | with_reducible apply OutOk.next | fail_if_no_progress (with_reducible apply State.mk_ok) | split | dsimp +zetaDelta only

theorem State.routesDue_ok {κ : Keep} (s : State) (hs : s.Kept κ) :
    State.Kept κ (State.routesDue s) := by
  unfold State.routesDue
  repeat' first | with_reducible assumption | (intro _) | with_reducible apply ok_ite | with_reducible apply State.reroute_ok | fail_if_no_progress (with_reducible apply State.mk_ok) | split

theorem State.writeKxSp_ok {κ : Keep} (s : State) (k : Nat) (w : Word) (hs : s.Kept κ) :
    State.Kept κ (State.writeKxSp s k w) := by
  unfold State.writeKxSp
  repeat' first | with_reducible assumption | (intro _) | with_reducible apply ok_ite | extract_lets | with_reducible apply State.put_ok | with_reducible apply State.plainWrite_ok | with_reducible apply State.bindQueue?_ok | with_reducible apply State.unbindQueue_ok | fail_if_no_progress (with_reducible apply State.mk_ok) | split | dsimp +zetaDelta only | with_reducible refine OptOk.of_some (State.bindQueue?_ok _ _ _ _ ?_) _ (by with_reducible assumption)

theorem execKxSpEnable_ok {κ : Keep} (p : Path) (k : Fin 16) (w : Word) (s : State) (hs : s.Kept κ) :
    OutOk κ (execKxSpEnable p k w s) := by
  unfold execKxSpEnable
  repeat' first | with_reducible assumption | (intro _) | with_reducible apply OutOk.ite | with_reducible apply ok_ite | with_reducible apply State.retainWrite_ok | with_reducible apply State.gate_ok | with_reducible apply State.writeKxSp_ok | with_reducible apply OutOk.next | fail_if_no_progress (with_reducible apply State.mk_ok) | split

theorem State.writeKxDest_ok {κ : Keep} (s : State) (k : Nat) (w : Word) (hs : s.Kept κ) :
    State.Kept κ (State.writeKxDest s k w) := by
  unfold State.writeKxDest
  repeat' first | with_reducible assumption | (intro _) | with_reducible apply ok_ite | with_reducible apply State.put_ok | with_reducible apply State.plainWrite_ok | fail_if_no_progress (with_reducible apply State.mk_ok) | split

theorem State.linkItems_ok {κ : Keep} (s : State) (last : Nat × Nat × Nat) (b : Barge) (hs : s.Kept κ) :
    State.Kept κ (State.linkItems s last b).2 := by
  unfold State.linkItems
  repeat' first | with_reducible assumption | with_reducible apply ok_ite_snd | extract_lets | with_reducible apply State.fresh_ok | fail_if_no_progress (with_reducible apply State.mk_ok) | split | dsimp +zetaDelta only

theorem execKxStreamBargeArrival_ok {κ : Keep} (k : Fin 16) (q : Fin 4096) (b : Barge) (endStamp : Nat) (lost : Option (Fin 64)) (s : State) (hs : s.Kept κ) :
    OutOk κ (execKxStreamBargeArrival k q b endStamp lost s) := by
  unfold execKxStreamBargeArrival
  repeat' first | with_reducible assumption | (intro _) | with_reducible apply OutOk.ite | with_reducible apply ok_ite | extract_lets | with_reducible apply State.put_ok | with_reducible apply State.inc_ok | with_reducible apply State.linkItems_ok | with_reducible apply State.offer_ok | with_reducible apply OutOk.next | fail_if_no_progress (with_reducible apply State.mk_ok) | split | dsimp +zetaDelta only

theorem State.deliverRt_ok {κ : Keep} (s : State) (r stamp ref : Nat) (hs : s.Kept κ) :
    State.Kept κ (State.deliverRt s r stamp ref) := by
  unfold State.deliverRt
  repeat' first | with_reducible assumption | (intro _) | with_reducible apply ok_ite | with_reducible apply State.eventOccur_ok | fail_if_no_progress (with_reducible apply State.mk_ok) | split

theorem State.dueRt_ok {κ : Keep} (s : State) (r stamp due now : Nat) (hs : s.Kept κ) :
    State.Kept κ (State.dueRt s r stamp due now) := by
  unfold State.dueRt
  repeat' first | with_reducible assumption | (intro _) | with_reducible apply ok_ite | with_reducible apply State.satInc_ok | with_reducible apply State.raiseInst_ok | with_reducible apply State.deliverRt_ok | fail_if_no_progress (with_reducible apply State.mk_ok) | split

theorem State.receiveRt_ok {κ : Keep} (s : State) (t : KxTrigger) (now : Nat) (hs : s.Kept κ) :
    State.Kept κ (State.receiveRt s t now) := by
  unfold State.receiveRt
  repeat' first | with_reducible assumption | (intro _) | with_reducible apply ok_ite | extract_lets | with_reducible apply State.deliverRt_ok | with_reducible apply State.dueRt_ok | fail_if_no_progress (with_reducible apply State.mk_ok) | split | dsimp +zetaDelta only

theorem State.gatewaySend_ok {κ : Keep} (s : State) (t : KxTrigger) (hs : s.Kept κ) :
    State.Kept κ (State.gatewaySend s t) := by
  unfold State.gatewaySend
  repeat' first | with_reducible assumption | (intro _) | with_reducible apply ok_ite | with_reducible apply State.send_ok | fail_if_no_progress (with_reducible apply State.mk_ok) | split

theorem State.spreadRt_ok {κ : Keep} (s : State) (t : KxTrigger) (from_ : Option Nat) (hs : s.Kept κ) :
    State.Kept κ (State.spreadRt s t from_) := by
  unfold State.spreadRt
  repeat' first | with_reducible assumption | (intro _) | with_reducible apply ok_ite | extract_lets | with_reducible apply State.sendTrigger_ok | with_reducible apply foldl_ok | with_reducible apply foldl_ok_fst | with_reducible apply foldl_ok_snd | fail_if_no_progress (with_reducible apply State.mk_ok) | split | dsimp +zetaDelta only

theorem State.sendRemote_ok {κ : Keep} (s : State) (r tf tx : Nat) (hs : s.Kept κ) :
    State.Kept κ (State.sendRemote s r tf tx) := by
  unfold State.sendRemote
  repeat' first | with_reducible assumption | (intro _) | with_reducible apply ok_ite | extract_lets | with_reducible apply State.receiveRt_ok | with_reducible apply State.gatewaySend_ok | with_reducible apply State.spreadRt_ok | fail_if_no_progress (with_reducible apply State.mk_ok) | split | dsimp +zetaDelta only

theorem execRemoteTriggerReceived_ok {κ : Keep} (l : Fin 6) (t : KxTrigger) (sub : Fin 2621440) (s : State) (hs : s.Kept κ) :
    OutOk κ (execRemoteTriggerReceived l t sub s) := by
  unfold execRemoteTriggerReceived
  repeat' first | with_reducible assumption | (intro _) | with_reducible apply OutOk.ite | with_reducible apply ok_ite | extract_lets | with_reducible apply State.receiveRt_ok | with_reducible apply State.gatewaySend_ok | with_reducible apply State.spreadRt_ok | with_reducible apply OutOk.next | fail_if_no_progress (with_reducible apply State.mk_ok) | split | dsimp +zetaDelta only

theorem execRemoteTriggerDue_ok {κ : Keep} (s : State) (hs : s.Kept κ) :
    OutOk κ (execRemoteTriggerDue s) := by
  unfold execRemoteTriggerDue
  repeat' first | with_reducible assumption | (intro _) | with_reducible apply OutOk.ite | with_reducible apply ok_ite | with_reducible apply State.deliverRt_ok | with_reducible apply OutOk.next | fail_if_no_progress (with_reducible apply State.mk_ok) | split

theorem State.akwSeqIn_ok {κ : Keep} (s : State) (src seq : Nat) (hs : s.Kept κ) :
    State.Kept κ (State.akwSeqIn s src seq).2 := by
  unfold State.akwSeqIn
  repeat' first | with_reducible assumption | with_reducible apply ok_ite_fst | with_reducible apply ok_ite_snd | fail_if_no_progress (with_reducible refine mk_ok_snd rfl ?_) | fail_if_no_progress (with_reducible refine mk_ok_fst rfl ?_) | fail_if_no_progress (with_reducible refine mk_ok_snd_snd rfl ?_) | (intro _) | with_reducible apply ok_ite | extract_lets | with_reducible apply State.put_ok | fail_if_no_progress (with_reducible apply State.mk_ok) | split | dsimp +zetaDelta only | with_reducible apply ok_ite_snd | with_reducible apply ok_ite_fst | with_reducible apply id_ok

theorem State.akwStale_ok {κ : Keep} (s : State) (info : Nat) (hs : s.Kept κ) :
    State.Kept κ (State.akwStale s info) := by
  unfold State.akwStale
  repeat' first | with_reducible assumption | (intro _) | with_reducible apply ok_ite | with_reducible apply State.satInc_ok | with_reducible apply State.raise_ok | fail_if_no_progress (with_reducible apply State.mk_ok) | split

theorem State.akwTake_ok {κ : Keep} (s : State) (src missed now : Nat) (p : List Byte) (hs : s.Kept κ) :
    State.Kept κ (State.akwTake s src missed now p) := by
  unfold State.akwTake
  repeat' first | with_reducible assumption | (intro _) | with_reducible apply ok_ite | extract_lets | with_reducible apply State.satInc_ok | with_reducible apply State.raiseInst_ok | with_reducible apply State.receiveRt_ok | with_reducible apply State.spreadRt_ok | with_reducible apply State.akwStale_ok | fail_if_no_progress (with_reducible apply State.mk_ok) | split | dsimp +zetaDelta only

theorem execAkwauneFrameReceived_ok {κ : Keep} (bytes : List Byte) (sub : Fin 2621440) (s : State) (hs : s.Kept κ) :
    OutOk κ (execAkwauneFrameReceived bytes sub s) := by
  unfold execAkwauneFrameReceived
  repeat' first | with_reducible assumption | (intro _) | with_reducible apply OutOk.ite | with_reducible apply ok_ite | extract_lets | with_reducible apply State.fresh_ok | with_reducible apply State.ethFilter_ok | with_reducible apply State.akwSeqIn_ok | with_reducible apply State.akwTake_ok | with_reducible apply OutOk.next | fail_if_no_progress (with_reducible apply State.mk_ok) | split | dsimp +zetaDelta only | with_reducible apply ok_ite_snd | with_reducible apply ok_ite_fst | with_reducible apply id_ok

end Machine
end Sys2Proof
end

