-- ==== Sys2Proof/Laws/OkPins.lean ====
section
/-!
SUPPORT. The canonical form is kept by every operation of Machine/Pins.lean.
-/

namespace Sys2Proof
namespace Machine

theorem State.loseEdge_ok {κ : Keep} (s : State) (k : Nat) (hs : s.Kept κ) :
    State.Kept κ (State.loseEdge s k) := by
  unfold State.loseEdge
  repeat' first | with_reducible assumption | (intro _) | with_reducible apply ok_ite | extract_lets | with_reducible apply State.put_ok | with_reducible apply State.satInc_ok | with_reducible apply State.raiseInst_ok | fail_if_no_progress (with_reducible apply State.mk_ok) | split | dsimp +zetaDelta only

theorem State.acceptEdge_ok {κ : Keep} (s : State) (k : Nat) (active : Bool) (t stamp : Nat) (hs : s.Kept κ) :
    State.Kept κ (State.acceptEdge s k active t stamp) := by
  unfold State.acceptEdge
  repeat' first | with_reducible assumption | (intro _) | with_reducible apply ok_ite | extract_lets | with_reducible apply State.put_ok | with_reducible apply State.inc_ok | with_reducible apply State.updPin_ok | with_reducible apply State.evaluated_ok | fail_if_no_progress (with_reducible apply State.mk_ok) | split | dsimp +zetaDelta only

theorem State.endDead_ok {κ : Keep} (s : State) (k sub : Nat) (hs : s.Kept κ) :
    State.Kept κ (State.endDead s k sub).2 := by
  unfold State.endDead
  repeat' first | with_reducible assumption | with_reducible apply ok_ite_fst | with_reducible apply ok_ite_snd | fail_if_no_progress (with_reducible refine mk_ok_snd rfl ?_) | fail_if_no_progress (with_reducible refine mk_ok_fst rfl ?_) | fail_if_no_progress (with_reducible refine mk_ok_snd_snd rfl ?_) | (intro _) | with_reducible apply ok_ite | extract_lets | with_reducible apply State.updPin_ok | with_reducible apply State.acceptEdge_ok | fail_if_no_progress (with_reducible apply State.mk_ok) | split | dsimp +zetaDelta only

theorem State.setPin_ok {κ : Keep} (s : State) (k : Nat) (active : Bool) (t : Nat) (hs : s.Kept κ) :
    State.Kept κ (State.setPin s k active t) := by
  unfold State.setPin
  repeat' first | with_reducible assumption | (intro _) | with_reducible apply ok_ite | with_reducible apply State.updPin_ok | fail_if_no_progress (with_reducible apply State.mk_ok) | split

theorem State.edgeAt_ok {κ : Keep} (s : State) (k : Nat) (active : Bool) (sub : Nat) (hs : s.Kept κ) :
    State.Kept κ (State.edgeAt s k active sub).2 := by
  unfold State.edgeAt
  repeat' first | with_reducible assumption | with_reducible apply ok_ite_fst | with_reducible apply ok_ite_snd | fail_if_no_progress (with_reducible refine mk_ok_snd rfl ?_) | fail_if_no_progress (with_reducible refine mk_ok_fst rfl ?_) | fail_if_no_progress (with_reducible refine mk_ok_snd_snd rfl ?_) | (intro _) | with_reducible apply ok_ite | extract_lets | with_reducible apply State.loseEdge_ok | with_reducible apply State.acceptEdge_ok | with_reducible apply State.endDead_ok | with_reducible apply State.setPin_ok | fail_if_no_progress (with_reducible apply State.mk_ok) | split | dsimp +zetaDelta only | with_reducible apply ok_ite_snd | with_reducible apply ok_ite_fst | with_reducible apply id_ok

theorem execTrigInEdge_ok {κ : Keep} (i : Fin 8) (high : Bool) (sub : Fin 2621440) (s : State) (hs : s.Kept κ) :
    OutOk κ (execTrigInEdge i high sub s) := by
  unfold execTrigInEdge
  repeat' first | with_reducible assumption | (intro _) | with_reducible apply OutOk.ite | with_reducible apply ok_ite | with_reducible apply State.edgeAt_ok | with_reducible apply OutOk.next | fail_if_no_progress (with_reducible apply State.mk_ok) | split | with_reducible apply ok_ite_snd | with_reducible apply ok_ite_fst | with_reducible apply id_ok

theorem execIbusEdge_ok {κ : Keep} (b : Fin 4) (low : Bool) (sub : Fin 2621440) (s : State) (hs : s.Kept κ) :
    OutOk κ (execIbusEdge b low sub s) := by
  unfold execIbusEdge
  repeat' first | with_reducible assumption | (intro _) | with_reducible apply OutOk.ite | with_reducible apply ok_ite | with_reducible apply State.edgeAt_ok | with_reducible apply OutOk.next | fail_if_no_progress (with_reducible apply State.mk_ok) | split | with_reducible apply ok_ite_snd | with_reducible apply ok_ite_fst | with_reducible apply id_ok

theorem State.maskStuck_ok {κ : Keep} (s : State) (k : Nat) (hs : s.Kept κ) :
    State.Kept κ (State.maskStuck s k) := by
  unfold State.maskStuck
  repeat' first | with_reducible assumption | (intro _) | with_reducible apply ok_ite | extract_lets | with_reducible apply State.put_ok | with_reducible apply State.raiseInst_ok | with_reducible apply State.updPin_ok | fail_if_no_progress (with_reducible apply State.mk_ok) | split | dsimp +zetaDelta only

theorem execStuckTimeout_ok {κ : Keep} (input : Fin 28) (s : State) (hs : s.Kept κ) :
    OutOk κ (execStuckTimeout input s) := by
  unfold execStuckTimeout
  repeat' first | with_reducible assumption | (intro _) | with_reducible apply OutOk.ite | with_reducible apply ok_ite | with_reducible apply State.maskStuck_ok | with_reducible apply OutOk.next | fail_if_no_progress (with_reducible apply State.mk_ok) | split

theorem State.liftMask_ok {κ : Keep} (s : State) (k : Nat) (hs : s.Kept κ) :
    State.Kept κ (State.liftMask s k) := by
  unfold State.liftMask
  repeat' first | with_reducible assumption | (intro _) | with_reducible apply ok_ite | extract_lets | with_reducible apply State.put_ok | with_reducible apply State.updPin_ok | fail_if_no_progress (with_reducible apply State.mk_ok) | split | dsimp +zetaDelta only

theorem execStuckRearm_ok {κ : Keep} (input : Fin 28) (s : State) (hs : s.Kept κ) :
    OutOk κ (execStuckRearm input s) := by
  unfold execStuckRearm
  repeat' first | with_reducible assumption | (intro _) | with_reducible apply OutOk.ite | with_reducible apply ok_ite | extract_lets | with_reducible apply State.liftMask_ok | with_reducible apply OutOk.next | fail_if_no_progress (with_reducible apply State.mk_ok) | split | dsimp +zetaDelta only

theorem State.enablePin_ok {κ : Keep} (s : State) (k : Nat) (was : Bool) (hs : s.Kept κ) :
    State.Kept κ (State.enablePin s k was) := by
  unfold State.enablePin
  repeat' first | with_reducible assumption | (intro _) | with_reducible apply ok_ite | extract_lets | with_reducible apply State.put_ok | with_reducible apply State.updPin_ok | with_reducible apply State.liftMask_ok | fail_if_no_progress (with_reducible apply State.mk_ok) | split | dsimp +zetaDelta only

theorem State.writePinCfg_ok {κ : Keep} (s : State) (k key : Nat) (w : Word) (hs : s.Kept κ) :
    State.Kept κ (State.writePinCfg s k key w) := by
  unfold State.writePinCfg
  repeat' first | with_reducible assumption | (intro _) | with_reducible apply ok_ite | extract_lets | with_reducible apply State.plainWrite_ok | with_reducible apply State.updPin_ok | with_reducible apply State.acceptEdge_ok | with_reducible apply State.enablePin_ok | fail_if_no_progress (with_reducible apply State.mk_ok) | split | dsimp +zetaDelta only

theorem State.writePinStatus_ok {κ : Keep} (s : State) (k key : Nat) (w : Word) (hs : s.Kept κ) :
    State.Kept κ (State.writePinStatus s k key w) := by
  unfold State.writePinStatus
  repeat' first | with_reducible assumption | (intro _) | with_reducible apply ok_ite | extract_lets | with_reducible apply State.put_ok | with_reducible apply State.plainWrite_ok | fail_if_no_progress (with_reducible apply State.mk_ok) | split | dsimp +zetaDelta only

theorem State.endPulse_ok {κ : Keep} (s : State) (k u : Nat) (hs : s.Kept κ) :
    State.Kept κ (State.endPulse s k u) := by
  unfold State.endPulse
  repeat' first | with_reducible assumption | (intro _) | with_reducible apply ok_ite | with_reducible apply State.updPulse_ok | fail_if_no_progress (with_reducible apply State.mk_ok) | split

theorem State.driveTrigOut_ok {κ : Keep} (s : State) (o u : Nat) (hs : s.Kept κ) :
    State.Kept κ (State.driveTrigOut s o u) := by
  unfold State.driveTrigOut
  repeat' first | with_reducible assumption | (intro _) | with_reducible apply ok_ite | extract_lets | with_reducible apply State.send_ok | with_reducible apply State.inc_ok | with_reducible apply State.satInc_ok | with_reducible apply State.updPulse_ok | with_reducible apply State.endPulse_ok | fail_if_no_progress (with_reducible apply State.mk_ok) | split | dsimp +zetaDelta only

theorem State.driveIbus_ok {κ : Keep} (s : State) (b u : Nat) (hs : s.Kept κ) :
    State.Kept κ (State.driveIbus s b u) := by
  unfold State.driveIbus
  repeat' first | with_reducible assumption | (intro _) | with_reducible apply ok_ite | extract_lets | with_reducible apply State.send_ok | with_reducible apply State.updPulse_ok | with_reducible apply State.endPulse_ok | fail_if_no_progress (with_reducible apply State.mk_ok) | split | dsimp +zetaDelta only

theorem execTrigOutPulseEnd_ok {κ : Keep} (o : Fin 4) (s : State) (hs : s.Kept κ) :
    OutOk κ (execTrigOutPulseEnd o s) := by
  unfold execTrigOutPulseEnd
  repeat' first | with_reducible assumption | (intro _) | with_reducible apply OutOk.ite | with_reducible apply ok_ite | with_reducible apply State.endPulse_ok | with_reducible apply OutOk.next | fail_if_no_progress (with_reducible apply State.mk_ok) | split

theorem execIbusPulseEnd_ok {κ : Keep} (b : Fin 4) (s : State) (hs : s.Kept κ) :
    OutOk κ (execIbusPulseEnd b s) := by
  unfold execIbusPulseEnd
  repeat' first | with_reducible assumption | (intro _) | with_reducible apply OutOk.ite | with_reducible apply ok_ite | with_reducible apply State.endPulse_ok | with_reducible apply OutOk.next | fail_if_no_progress (with_reducible apply State.mk_ok) | split

end Machine
end Sys2Proof
end

