-- ==== Sys2Proof/Laws/OkTdc.lean ====
section
/-!
SUPPORT. The canonical form is kept by every operation of Machine/Tdc.lean.
-/

namespace Sys2Proof
namespace Machine

theorem State.tdcOccur_ok {κ : Keep} (s : State) (i stamp : Nat) (hs : s.Kept κ) :
    State.Kept κ (State.tdcOccur s i stamp) := by
  unfold State.tdcOccur
  repeat' first | with_reducible assumption | (intro _) | with_reducible apply ok_ite | with_reducible apply State.eventOccur_ok | fail_if_no_progress (with_reducible apply State.mk_ok) | split

theorem State.tdcClose_ok {κ : Keep} (s : State) (n : Nat) (hs : s.Kept κ) :
    State.Kept κ (State.tdcClose s n) := by
  unfold State.tdcClose
  repeat' first | with_reducible assumption | (intro _) | with_reducible apply ok_ite | extract_lets | with_reducible apply State.offer_ok | with_reducible apply State.updTdc_ok | fail_if_no_progress (with_reducible apply State.mk_ok) | split | dsimp +zetaDelta only | with_reducible apply ok_ite_snd | with_reducible apply ok_ite_fst | with_reducible apply id_ok

theorem State.tdcTakeQueue_ok {κ : Keep} (s : State) (n : Nat) (hs : s.Kept κ) :
    State.Kept κ (State.tdcTakeQueue s n) := by
  unfold State.tdcTakeQueue
  repeat' first | with_reducible assumption | (intro _) | with_reducible apply ok_ite | extract_lets | with_reducible apply State.updTdc_ok | with_reducible apply State.tdcClose_ok | fail_if_no_progress (with_reducible apply State.mk_ok) | split | dsimp +zetaDelta only

theorem State.tdcMark_ok {κ : Keep} (s : State) (n : Nat) (m : Barge) (hs : s.Kept κ) : State.Kept κ (State.tdcMark s n m) := by
  unfold State.tdcMark
  repeat' first | with_reducible assumption | (intro _) | with_reducible apply ok_ite | extract_lets | with_reducible apply State.offer_ok | with_reducible apply State.updTdc_ok | with_reducible apply State.tdcClose_ok | with_reducible apply foldl_ok | fail_if_no_progress (with_reducible apply State.mk_ok) | split | dsimp +zetaDelta only

theorem State.tdcMarks_ok {κ : Keep} (s : State) (n : Nat) (hs : s.Kept κ) : State.Kept κ (State.tdcMarks s n) := by
  unfold State.tdcMarks
  repeat' first | with_reducible assumption | (intro _) | with_reducible apply ok_ite | extract_lets | with_reducible apply State.offer_ok | with_reducible apply State.updTdc_ok | with_reducible apply State.tdcClose_ok | with_reducible apply State.tdcMark_ok | with_reducible apply foldl_ok | fail_if_no_progress (with_reducible apply State.mk_ok) | split | dsimp +zetaDelta only

theorem State.tdcRecord_ok {κ : Keep} (s : State) (n number stamp qual : Nat) (bs : List Byte) (hs : s.Kept κ) :
    State.Kept κ (State.tdcRecord s n number stamp qual bs) := by
  unfold State.tdcRecord
  repeat' first | with_reducible assumption | (intro _) | with_reducible apply ok_ite | extract_lets | with_reducible apply State.updTdc_ok | with_reducible apply State.tdcClose_ok | with_reducible apply State.tdcMarks_ok | with_reducible apply foldl_ok | with_reducible apply foldl_ok_fst | with_reducible apply foldl_ok_snd | fail_if_no_progress (with_reducible apply State.mk_ok) | split | dsimp +zetaDelta only | with_reducible apply ok_ite_snd | with_reducible apply ok_ite_fst | with_reducible apply id_ok

theorem execTdcBargeClose_ok {κ : Keep} (n : Fin 32) (s : State) (hs : s.Kept κ) :
    OutOk κ (execTdcBargeClose n s) := by
  unfold execTdcBargeClose
  repeat' first | with_reducible assumption | (intro _) | with_reducible apply OutOk.ite | with_reducible apply ok_ite | extract_lets | with_reducible apply State.tdcClose_ok | with_reducible apply OutOk.next | fail_if_no_progress (with_reducible apply State.mk_ok) | split | dsimp +zetaDelta only

theorem State.tdcStep_ok {κ : Keep} (s : State) (d : Int) (hs : s.Kept κ) :
    State.Kept κ (State.tdcStep s d) := by
  unfold State.tdcStep
  repeat' first | with_reducible assumption | (intro _) | with_reducible apply ok_ite | extract_lets | with_reducible apply State.offer_ok | with_reducible apply State.updTdc_ok | with_reducible apply State.tdcClose_ok | with_reducible apply State.tdcMark_ok | with_reducible apply foldl_ok | with_reducible apply foldl_ok_fst | with_reducible apply foldl_ok_snd | fail_if_no_progress (with_reducible apply State.mk_ok) | split | dsimp +zetaDelta only

theorem State.tdcEndMeas_ok {κ : Keep} (s : State) (n : Nat) (aborted byStart : Bool) (hs : s.Kept κ) :
    State.Kept κ (State.tdcEndMeas s n aborted byStart) := by
  unfold State.tdcEndMeas
  repeat' first | with_reducible assumption | (intro _) | with_reducible apply ok_ite | extract_lets | with_reducible apply State.inc_ok | with_reducible apply State.updTdc_ok | with_reducible apply State.tdcRecord_ok | fail_if_no_progress (with_reducible apply State.mk_ok) | split | dsimp +zetaDelta only

theorem State.tdcPressure_ok {κ : Keep} (s : State) (n : Nat) (hs : s.Kept κ) :
    State.Kept κ (State.tdcPressure s n) := by
  unfold State.tdcPressure
  repeat' first | with_reducible assumption | (intro _) | with_reducible apply ok_ite | extract_lets | with_reducible apply State.satInc_ok | with_reducible apply State.raiseInst_ok | with_reducible apply State.updTdc_ok | fail_if_no_progress (with_reducible apply State.mk_ok) | split | dsimp +zetaDelta only

theorem State.tdcExpire_ok {κ : Keep} (s : State) (n t : Nat) (hs : s.Kept κ) :
    State.Kept κ (State.tdcExpire s n t) := by
  unfold State.tdcExpire
  repeat' first | with_reducible assumption | (intro _) | with_reducible apply ok_ite | with_reducible apply State.tdcEndMeas_ok | fail_if_no_progress (with_reducible apply State.mk_ok) | split

theorem State.tdcStart_ok {κ : Keep} (s : State) (n i t stamp : Nat) (hs : s.Kept κ) :
    State.Kept κ (State.tdcStart s n i t stamp) := by
  unfold State.tdcStart
  repeat' first | with_reducible assumption | (intro _) | with_reducible apply ok_ite | extract_lets | with_reducible apply State.satInc_ok | with_reducible apply State.updTdc_ok | with_reducible apply State.tdcOccur_ok | with_reducible apply State.tdcTakeQueue_ok | with_reducible apply State.tdcEndMeas_ok | with_reducible apply State.tdcPressure_ok | with_reducible apply State.tdcExpire_ok | fail_if_no_progress (with_reducible apply State.mk_ok) | split | dsimp +zetaDelta only

theorem State.tdcStop_ok {κ : Keep} (s : State) (n i t stamp : Nat) (falling : Bool) (hs : s.Kept κ) :
    State.Kept κ (State.tdcStop s n i t stamp falling) := by
  unfold State.tdcStop
  repeat' first | with_reducible assumption | (intro _) | with_reducible apply ok_ite | extract_lets | with_reducible apply State.updTdc_ok | with_reducible apply State.tdcOccur_ok | with_reducible apply State.tdcEndMeas_ok | with_reducible apply State.tdcExpire_ok | fail_if_no_progress (with_reducible apply State.mk_ok) | split | dsimp +zetaDelta only

theorem execTdcWindowEnd_ok {κ : Keep} (c : Fin 8) (s : State) (hs : s.Kept κ) :
    OutOk κ (execTdcWindowEnd c s) := by
  unfold execTdcWindowEnd
  repeat' first | with_reducible assumption | (intro _) | with_reducible apply OutOk.ite | with_reducible apply ok_ite | with_reducible apply State.tdcExpire_ok | with_reducible apply OutOk.next | fail_if_no_progress (with_reducible apply State.mk_ok) | split

theorem State.tdcGateBytes_ok {κ : Keep} (s : State) (i : Nat) (g : TdcGate) (aborted : Bool) (hs : s.Kept κ) :
    State.Kept κ (State.tdcGateBytes s i g aborted).2 := by
  unfold State.tdcGateBytes
  repeat' first | with_reducible assumption | with_reducible apply ok_ite_fst | with_reducible apply ok_ite_snd | fail_if_no_progress (with_reducible refine mk_ok_snd rfl ?_) | fail_if_no_progress (with_reducible refine mk_ok_fst rfl ?_) | fail_if_no_progress (with_reducible refine mk_ok_snd_snd rfl ?_) | (intro _) | with_reducible apply ok_ite | extract_lets | with_reducible apply State.fresh_ok | with_reducible apply State.inc_ok | fail_if_no_progress (with_reducible apply State.mk_ok) | split | dsimp +zetaDelta only | with_reducible apply ok_ite_snd | with_reducible apply ok_ite_fst | with_reducible apply id_ok

theorem State.tdcBegin_ok {κ : Keep} (s : State) (i start : Nat) (hs : s.Kept κ) :
    State.Kept κ (State.tdcBegin s i start) := by
  unfold State.tdcBegin
  repeat' first | with_reducible assumption | (intro _) | with_reducible apply ok_ite | extract_lets | with_reducible apply State.gate_ok | with_reducible apply State.updTdc_ok | with_reducible apply State.tdcTakeQueue_ok | with_reducible apply State.tdcPressure_ok | fail_if_no_progress (with_reducible apply State.mk_ok) | split | dsimp +zetaDelta only

theorem execGateEnd_ok {κ : Keep} (i : Fin 16) (s : State) (hs : s.Kept κ) :
    OutOk κ (execGateEnd i s) := by
  unfold execGateEnd
  repeat' first | with_reducible assumption | (intro _) | with_reducible apply OutOk.ite | with_reducible apply ok_ite | extract_lets | with_reducible apply State.inc_ok | with_reducible apply State.gate_ok | with_reducible apply State.updTdc_ok | with_reducible apply State.tdcRecord_ok | with_reducible apply State.tdcGateBytes_ok | with_reducible apply State.tdcBegin_ok | with_reducible apply OutOk.next | fail_if_no_progress (with_reducible apply State.mk_ok) | split | dsimp +zetaDelta only | with_reducible apply ok_ite_snd | with_reducible apply ok_ite_fst | with_reducible apply id_ok

theorem State.tdcGateStart_ok {κ : Keep} (s : State) (tg t : Nat) (hs : s.Kept κ) :
    State.Kept κ (State.tdcGateStart s tg t) := by
  unfold State.tdcGateStart
  repeat' first | with_reducible assumption | (intro _) | with_reducible apply ok_ite | with_reducible apply State.gate_ok | with_reducible apply State.tdcBegin_ok | with_reducible apply foldl_ok | with_reducible apply foldl_ok_fst | with_reducible apply foldl_ok_snd | fail_if_no_progress (with_reducible apply State.mk_ok) | split

theorem State.tdcTake_ok {κ : Keep} (s : State) (i : Nat) (rising : Bool) (t count stamp : Nat) (hs : s.Kept κ) :
    State.Kept κ (State.tdcTake s i rising t count stamp) := by
  unfold State.tdcTake
  repeat' first | with_reducible assumption | (intro _) | with_reducible apply ok_ite | extract_lets | with_reducible apply State.gate_ok | with_reducible apply State.updTdc_ok | with_reducible apply State.tdcOccur_ok | with_reducible apply State.tdcStart_ok | with_reducible apply State.tdcStop_ok | fail_if_no_progress (with_reducible apply State.mk_ok) | split | dsimp +zetaDelta only

theorem State.tdcNoteLost_ok {κ : Keep} (s : State) (i : Nat) (hs : s.Kept κ) :
    State.Kept κ (State.tdcNoteLost s i) := by
  unfold State.tdcNoteLost
  repeat' first | with_reducible assumption | (intro _) | with_reducible apply ok_ite | with_reducible apply State.gate_ok | with_reducible apply State.updTdc_ok | fail_if_no_progress (with_reducible apply State.mk_ok) | split

theorem State.tdcEndDead_ok {κ : Keep} (s : State) (i sub : Nat) (hs : s.Kept κ) :
    State.Kept κ (State.tdcEndDead s i sub) := by
  unfold State.tdcEndDead
  repeat' first | with_reducible assumption | (intro _) | with_reducible apply ok_ite | extract_lets | with_reducible apply State.endDead_ok | with_reducible apply State.tdcTake_ok | fail_if_no_progress (with_reducible apply State.mk_ok) | split | dsimp +zetaDelta only | with_reducible apply ok_ite_snd | with_reducible apply ok_ite_fst | with_reducible apply id_ok

theorem State.tdcPrescaled_ok {κ : Keep} (s : State) (i : Nat) (rising : Bool) (sub : Nat) (hs : s.Kept κ) :
    State.Kept κ (State.tdcPrescaled s i rising sub) := by
  unfold State.tdcPrescaled
  repeat' first | with_reducible assumption | (intro _) | with_reducible apply ok_ite | extract_lets | with_reducible apply State.put_ok | with_reducible apply State.inc_ok | with_reducible apply State.updPin_ok | with_reducible apply State.loseEdge_ok | with_reducible apply State.setPin_ok | with_reducible apply State.tdcTake_ok | with_reducible apply State.tdcNoteLost_ok | fail_if_no_progress (with_reducible apply State.mk_ok) | split | dsimp +zetaDelta only

theorem execTdcEdge_ok {κ : Keep} (i : Fin 16) (rising : Bool) (sub : Fin 2621440) (s : State) (hs : s.Kept κ) :
    OutOk κ (execTdcEdge i rising sub s) := by
  unfold execTdcEdge
  repeat' first | with_reducible assumption | (intro _) | with_reducible apply OutOk.ite | with_reducible apply ok_ite | extract_lets | with_reducible apply State.edgeAt_ok | with_reducible apply State.tdcTake_ok | with_reducible apply State.tdcNoteLost_ok | with_reducible apply State.tdcEndDead_ok | with_reducible apply State.tdcPrescaled_ok | with_reducible apply OutOk.next | fail_if_no_progress (with_reducible apply State.mk_ok) | split | dsimp +zetaDelta only | with_reducible apply ok_ite_snd | with_reducible apply ok_ite_fst | with_reducible apply id_ok

theorem execDeadTimeEnd_ok {κ : Keep} (input : Fin 28) (sub : Fin 2621440) (s : State) (hs : s.Kept κ) :
    OutOk κ (execDeadTimeEnd input sub s) := by
  unfold execDeadTimeEnd
  repeat' first | with_reducible assumption | (intro _) | with_reducible apply OutOk.ite | with_reducible apply ok_ite | with_reducible apply State.endDead_ok | with_reducible apply State.tdcEndDead_ok | with_reducible apply OutOk.next | fail_if_no_progress (with_reducible apply State.mk_ok) | split | with_reducible apply ok_ite_snd | with_reducible apply ok_ite_fst | with_reducible apply id_ok

theorem State.tdcAbort_ok {κ : Keep} (s : State) (i : Nat) (hs : s.Kept κ) :
    State.Kept κ (State.tdcAbort s i) := by
  unfold State.tdcAbort
  repeat' first | with_reducible assumption | (intro _) | with_reducible apply ok_ite | extract_lets | with_reducible apply State.gate_ok | with_reducible apply State.updTdc_ok | with_reducible apply State.tdcRecord_ok | with_reducible apply State.tdcEndMeas_ok | with_reducible apply State.tdcGateBytes_ok | fail_if_no_progress (with_reducible apply State.mk_ok) | split | dsimp +zetaDelta only | with_reducible apply ok_ite_snd | with_reducible apply ok_ite_fst | with_reducible apply id_ok

theorem State.tdcEnable_ok {κ : Keep} (s : State) (n : Nat) (hs : s.Kept κ) :
    State.Kept κ (State.tdcEnable s n) := by
  unfold State.tdcEnable
  repeat' first | with_reducible assumption | (intro _) | with_reducible apply ok_ite | extract_lets | with_reducible apply State.put_ok | with_reducible apply State.gate_ok | with_reducible apply State.updTdc_ok | with_reducible apply State.tdcClose_ok | fail_if_no_progress (with_reducible apply State.mk_ok) | split | dsimp +zetaDelta only

theorem State.writeTdcIn_ok {κ : Keep} (s : State) (i : Nat) (w : Word) (hs : s.Kept κ) :
    State.Kept κ (State.writeTdcIn s i w) := by
  unfold State.writeTdcIn
  repeat' first | with_reducible assumption | (intro _) | with_reducible apply ok_ite | extract_lets | with_reducible apply State.put_ok | with_reducible apply State.plainWrite_ok | with_reducible apply State.updPin_ok | with_reducible apply State.enablePin_ok | with_reducible apply State.tdcBegin_ok | with_reducible apply State.tdcAbort_ok | with_reducible apply State.tdcEnable_ok | fail_if_no_progress (with_reducible apply State.mk_ok) | split | dsimp +zetaDelta only

theorem execTdcInEnable_ok {κ : Keep} (p : Path) (i : Fin 16) (w : Word) (s : State) (hs : s.Kept κ) :
    OutOk κ (execTdcInEnable p i w s) := by
  unfold execTdcInEnable
  repeat' first | with_reducible assumption | (intro _) | with_reducible apply OutOk.ite | with_reducible apply ok_ite | with_reducible apply State.retainWrite_ok | with_reducible apply State.gate_ok | with_reducible apply State.writeTdcIn_ok | with_reducible apply OutOk.next | fail_if_no_progress (with_reducible apply State.mk_ok) | split

theorem State.writeTdcCtl_ok {κ : Keep} (s : State) (w : Word) (hs : s.Kept κ) :
    State.Kept κ (State.writeTdcCtl s w) := by
  unfold State.writeTdcCtl
  repeat' first | with_reducible assumption | (intro _) | with_reducible apply ok_ite | with_reducible apply State.put_ok | with_reducible apply State.plainWrite_ok | fail_if_no_progress (with_reducible apply State.mk_ok) | split

theorem execTdcFanWrite_ok {κ : Keep} (p : Path) (w : Word) (s : State) (hs : s.Kept κ) :
    OutOk κ (execTdcFanWrite p w s) := by
  unfold execTdcFanWrite
  repeat' first | with_reducible assumption | (intro _) | with_reducible apply OutOk.ite | with_reducible apply ok_ite | with_reducible apply State.retainWrite_ok | with_reducible apply State.gate_ok | with_reducible apply State.writeTdcCtl_ok | with_reducible apply OutOk.next | fail_if_no_progress (with_reducible apply State.mk_ok) | split

end Machine
end Sys2Proof
end

