-- ==== Sys2Proof/Laws/OkCuCore.lean ====
section
/-!
SUPPORT. The canonical form is kept by every operation of Machine/CuCore.lean.
-/

namespace Sys2Proof
namespace Machine

theorem State.updBank_ok {κ : Keep} (s : State) (u b : Nat) (f : CuBank → CuBank) (hs : s.Kept κ) :
    State.Kept κ (State.updBank s u b f) := by
  unfold State.updBank
  repeat' first | with_reducible assumption | exact fun _ h => h | exact fun _ h => Mem.writes_wf _ _ _ _ h | exact fun _ _ => rfl | (intro _) | with_reducible apply ok_ite | with_reducible apply State.updCu_ok | fail_if_no_progress (with_reducible apply State.mk_ok) | split

theorem State.cuPend_ok {κ : Keep} (s : State) (u c : Nat) (hs : s.Kept κ) :
    State.Kept κ (State.cuPend s u c) := by
  unfold State.cuPend
  repeat' first | with_reducible assumption | exact fun _ h => h | exact fun _ h => Mem.writes_wf _ _ _ _ h | exact fun _ _ => rfl | (intro _) | with_reducible apply ok_ite | with_reducible apply State.updCu_ok | fail_if_no_progress (with_reducible apply State.mk_ok) | split

theorem State.cuRaise_ok {κ : Keep} (s : State) (u bank c : Nat) (hs : s.Kept κ) :
    State.Kept κ (State.cuRaise s u bank c) := by
  unfold State.cuRaise
  repeat' first | with_reducible assumption | exact fun _ h => h | exact fun _ h => Mem.writes_wf _ _ _ _ h | exact fun _ _ => rfl | (intro _) | with_reducible apply ok_ite | with_reducible apply State.updCu_ok | with_reducible apply State.cuPend_ok | fail_if_no_progress (with_reducible apply State.mk_ok) | split

theorem State.later_ok {κ : Keep} (s : State) (c : CuSlot) (l : Nat) (e : CuEff) (hs : s.Kept κ) :
    State.Kept κ (State.later s c l e) := by
  unfold State.later
  repeat' first | with_reducible assumption | exact fun _ h => h | exact fun _ h => Mem.writes_wf _ _ _ _ h | exact fun _ _ => rfl | (intro _) | with_reducible apply ok_ite | with_reducible apply State.updCu_ok | fail_if_no_progress (with_reducible apply State.mk_ok) | split

theorem State.setFlags_ok {κ : Keep} (s : State) (u b f : Nat) (hs : s.Kept κ) :
    State.Kept κ (State.setFlags s u b f) := by
  unfold State.setFlags
  repeat' first | with_reducible assumption | (intro _) | with_reducible apply ok_ite | extract_lets | with_reducible apply State.put_ok | fail_if_no_progress (with_reducible apply State.mk_ok) | split | dsimp +zetaDelta only

theorem State.accSat_ok {κ : Keep} (s : State) (u b a l : Nat) (hs : s.Kept κ) :
    State.Kept κ (State.accSat s u b a l) := by
  unfold State.accSat
  repeat' first | with_reducible assumption | (intro _) | with_reducible apply ok_ite | extract_lets | with_reducible apply State.setWord_ok | with_reducible apply State.raiseInst_ok | with_reducible apply State.cuPend_ok | fail_if_no_progress (with_reducible apply State.mk_ok) | split | dsimp +zetaDelta only

theorem State.setAccLane_ok {κ : Keep} (s : State) (u b a l : Nat) (v : Int × Bool) (hs : s.Kept κ) :
    State.Kept κ (State.setAccLane s u b a l v) := by
  unfold State.setAccLane
  repeat' first | with_reducible assumption | (intro _) | with_reducible apply ok_ite | extract_lets | with_reducible apply State.put_ok | with_reducible apply State.updBank_ok | with_reducible apply State.accSat_ok | fail_if_no_progress (with_reducible apply State.mk_ok) | split | dsimp +zetaDelta only | with_reducible apply ok_ite_snd | with_reducible apply ok_ite_fst | with_reducible apply id_ok

theorem State.landEff_ok {κ : Keep} (s : State) (u b : Nat) (e : CuEff) (hs : s.Kept κ) :
    State.Kept κ (State.landEff s u b e) := by
  unfold State.landEff
  repeat' first | with_reducible assumption | (intro _) | with_reducible apply ok_ite | extract_lets | with_reducible apply State.setWord_ok | with_reducible apply State.put_ok | with_reducible apply State.updBank_ok | with_reducible apply State.setFlags_ok | with_reducible apply State.setAccLane_ok | with_reducible apply foldl_ok | with_reducible apply foldl_ok_fst | with_reducible apply foldl_ok_snd | fail_if_no_progress (with_reducible apply State.mk_ok) | split | dsimp +zetaDelta only

theorem State.cuLand_ok {κ : Keep} (s : State) (u : Nat) (hs : s.Kept κ) :
    State.Kept κ (State.cuLand s u) := by
  unfold State.cuLand
  repeat' first | with_reducible assumption | exact fun _ h => h | exact fun _ h => Mem.writes_wf _ _ _ _ h | exact fun _ _ => rfl | (intro _) | with_reducible apply ok_ite | extract_lets | with_reducible apply State.updCu_ok | with_reducible apply State.landEff_ok | with_reducible apply foldl_ok | with_reducible apply foldl_ok_fst | with_reducible apply foldl_ok_snd | fail_if_no_progress (with_reducible apply State.mk_ok) | split | dsimp +zetaDelta only

theorem State.cuCycle_ok {κ : Keep} (s : State) (u : Nat) (hs : s.Kept κ) :
    State.Kept κ (State.cuCycle s u) := by
  unfold State.cuCycle
  repeat' first | with_reducible assumption | (intro _) | with_reducible apply ok_ite | with_reducible apply State.inc_ok | with_reducible apply State.cuLand_ok | fail_if_no_progress (with_reducible apply State.mk_ok) | split

theorem State.cuCycles_ok {κ : Keep} (s : State) (u : Nat) (n_ : Nat) (hs : s.Kept κ) :
    State.Kept κ (State.cuCycles s u n_) := by
  induction n_ generalizing s u with
  | zero =>
    unfold State.cuCycles
    repeat' first | with_reducible assumption | with_reducible apply ih | (intro _) | with_reducible apply ok_ite | with_reducible apply State.cuCycle_ok | fail_if_no_progress (with_reducible apply State.mk_ok) | split
  | succ n ih =>
    unfold State.cuCycles
    repeat' first | with_reducible assumption | with_reducible apply ih | (intro _) | with_reducible apply ok_ite | with_reducible apply State.cuCycle_ok | fail_if_no_progress (with_reducible apply State.mk_ok) | split

theorem State.cuDrain_ok {κ : Keep} (s : State) (u : Nat) (hs : s.Kept κ) :
    State.Kept κ (State.cuDrain s u) := by
  unfold State.cuDrain
  repeat' first | with_reducible assumption | (intro _) | with_reducible apply ok_ite | with_reducible apply State.cuLand_ok | with_reducible apply foldl_ok | with_reducible apply foldl_ok_fst | with_reducible apply foldl_ok_snd | fail_if_no_progress (with_reducible apply State.mk_ok) | split

theorem State.cuHalted_ok {κ : Keep} (s : State) (u st : Nat) (hs : s.Kept κ) :
    State.Kept κ (State.cuHalted s u st) := by
  unfold State.cuHalted
  repeat' first | with_reducible assumption | exact fun _ h => h | exact fun _ h => Mem.writes_wf _ _ _ _ h | exact fun _ _ => rfl | (intro _) | with_reducible apply ok_ite | with_reducible apply State.updCu_ok | with_reducible apply State.put_ok | with_reducible apply State.cuDrain_ok | fail_if_no_progress (with_reducible apply State.mk_ok) | split

theorem State.cuStopsDone_ok {κ : Keep} (s : State) (u : Nat) (hs : s.Kept κ) :
    State.Kept κ (State.cuStopsDone s u) := by
  unfold State.cuStopsDone
  repeat' first | with_reducible assumption | (intro _) | with_reducible apply ok_ite | with_reducible apply State.retireWith_ok | with_reducible apply foldl_ok | with_reducible apply foldl_ok_fst | with_reducible apply foldl_ok_snd | fail_if_no_progress (with_reducible apply State.mk_ok) | split

theorem State.cuStop_ok {κ : Keep} (s : State) (u : Nat) (hs : s.Kept κ) :
    State.Kept κ (State.cuStop s u) := by
  unfold State.cuStop
  repeat' first | with_reducible assumption | (intro _) | with_reducible apply ok_ite | extract_lets | with_reducible apply State.cuHalted_ok | with_reducible apply State.cuStopsDone_ok | fail_if_no_progress (with_reducible apply State.mk_ok) | split | dsimp +zetaDelta only

theorem State.cuStopAt_ok {κ : Keep} (s : State) (u t : Nat) (hs : s.Kept κ) :
    State.Kept κ (State.cuStopAt s u t) := by
  unfold State.cuStopAt
  repeat' first | with_reducible assumption | exact fun _ h => h | exact fun _ h => Mem.writes_wf _ _ _ _ h | exact fun _ _ => rfl | (intro _) | with_reducible apply ok_ite | with_reducible apply State.updCu_ok | with_reducible apply State.cuStop_ok | fail_if_no_progress (with_reducible apply State.mk_ok) | split

theorem State.cuFault_ok {κ : Keep} (s : State) (u f : Nat) (hs : s.Kept κ) :
    State.Kept κ (State.cuFault s u f) := by
  unfold State.cuFault
  repeat' first | with_reducible assumption | (intro _) | with_reducible apply ok_ite | extract_lets | with_reducible apply State.put_ok | with_reducible apply State.raiseWith_ok | with_reducible apply State.cuHalted_ok | fail_if_no_progress (with_reducible apply State.mk_ok) | split | dsimp +zetaDelta only

theorem State.cuReturn_ok {κ : Keep} (s : State) (u : Nat) (hs : s.Kept κ) :
    State.Kept κ (State.cuReturn s u) := by
  unfold State.cuReturn
  repeat' first | with_reducible assumption | (intro _) | with_reducible apply ok_ite | with_reducible apply State.put_ok | with_reducible apply State.updBank_ok | fail_if_no_progress (with_reducible apply State.mk_ok) | split

theorem State.cuAdvance_ok {κ : Keep} (s : State) (u b pc : Nat) (ctl : CuCtl) (op : CuOpen) (hs : s.Kept κ) :
    State.Kept κ (State.cuAdvance s u b pc ctl op) := by
  unfold State.cuAdvance
  repeat' first | with_reducible assumption | (intro _) | with_reducible apply ok_ite | extract_lets | with_reducible apply State.put_ok | with_reducible apply State.raiseInst_ok | with_reducible apply State.updBank_ok | with_reducible apply State.cuHalted_ok | with_reducible apply State.cuStopsDone_ok | with_reducible apply State.cuReturn_ok | fail_if_no_progress (with_reducible apply State.mk_ok) | split | dsimp +zetaDelta only | with_reducible apply ok_ite_snd | with_reducible apply ok_ite_fst | with_reducible apply id_ok

end Machine
end Sys2Proof
end

