-- ==== Sys2Proof/Laws/OkCuOps.lean ====
section
/-!
SUPPORT. The canonical form is kept by every operation of Machine/CuOps.lean.
-/

namespace Sys2Proof
namespace Machine

theorem State.setX_ok {κ : Keep} (s : State) (c : CuSlot) (l : Nat) (w : Word) (hs : s.Kept κ) :
    State.Kept κ (State.setX s c l w) := by
  unfold State.setX
  repeat' first | with_reducible assumption | (intro _) | with_reducible apply ok_ite | with_reducible apply State.later_ok | fail_if_no_progress (with_reducible apply State.mk_ok) | split

theorem State.illegal_ok {κ : Keep} (s : State) (c : CuSlot) (hs : s.Kept κ) :
    State.Kept κ (State.illegal s c) := by
  unfold State.illegal
  repeat' first | with_reducible assumption | (intro _) | with_reducible apply ok_ite | with_reducible apply State.cuRaise_ok | fail_if_no_progress (with_reducible apply State.mk_ok) | split

theorem opAdd_ok {κ : Keep} (c : CuSlot) (s : State) (hs : s.Kept κ) :
    State.Kept κ (opAdd c s) := by
  unfold opAdd
  repeat' first | with_reducible assumption | (intro _) | with_reducible apply ok_ite | with_reducible apply State.setX_ok | fail_if_no_progress (with_reducible apply State.mk_ok) | split

theorem opSub_ok {κ : Keep} (c : CuSlot) (s : State) (hs : s.Kept κ) :
    State.Kept κ (opSub c s) := by
  unfold opSub
  repeat' first | with_reducible assumption | (intro _) | with_reducible apply ok_ite | with_reducible apply State.setX_ok | fail_if_no_progress (with_reducible apply State.mk_ok) | split

theorem opAnd_ok {κ : Keep} (c : CuSlot) (s : State) (hs : s.Kept κ) :
    State.Kept κ (opAnd c s) := by
  unfold opAnd
  repeat' first | with_reducible assumption | (intro _) | with_reducible apply ok_ite | with_reducible apply State.setX_ok | fail_if_no_progress (with_reducible apply State.mk_ok) | split

theorem opOr_ok {κ : Keep} (c : CuSlot) (s : State) (hs : s.Kept κ) :
    State.Kept κ (opOr c s) := by
  unfold opOr
  repeat' first | with_reducible assumption | (intro _) | with_reducible apply ok_ite | with_reducible apply State.setX_ok | fail_if_no_progress (with_reducible apply State.mk_ok) | split

theorem opXor_ok {κ : Keep} (c : CuSlot) (s : State) (hs : s.Kept κ) :
    State.Kept κ (opXor c s) := by
  unfold opXor
  repeat' first | with_reducible assumption | (intro _) | with_reducible apply ok_ite | with_reducible apply State.setX_ok | fail_if_no_progress (with_reducible apply State.mk_ok) | split

theorem opShl_ok {κ : Keep} (c : CuSlot) (s : State) (hs : s.Kept κ) :
    State.Kept κ (opShl c s) := by
  unfold opShl
  repeat' first | with_reducible assumption | (intro _) | with_reducible apply ok_ite | with_reducible apply State.setX_ok | fail_if_no_progress (with_reducible apply State.mk_ok) | split

theorem opShr_ok {κ : Keep} (c : CuSlot) (s : State) (hs : s.Kept κ) :
    State.Kept κ (opShr c s) := by
  unfold opShr
  repeat' first | with_reducible assumption | (intro _) | with_reducible apply ok_ite | with_reducible apply State.setX_ok | fail_if_no_progress (with_reducible apply State.mk_ok) | split

theorem opSra_ok {κ : Keep} (c : CuSlot) (s : State) (hs : s.Kept κ) :
    State.Kept κ (opSra c s) := by
  unfold opSra
  repeat' first | with_reducible assumption | (intro _) | with_reducible apply ok_ite | with_reducible apply State.setX_ok | fail_if_no_progress (with_reducible apply State.mk_ok) | split

theorem opMul_ok {κ : Keep} (c : CuSlot) (s : State) (hs : s.Kept κ) :
    State.Kept κ (opMul c s) := by
  unfold opMul
  repeat' first | with_reducible assumption | (intro _) | with_reducible apply ok_ite | with_reducible apply State.setX_ok | fail_if_no_progress (with_reducible apply State.mk_ok) | split

theorem opSlt_ok {κ : Keep} (c : CuSlot) (s : State) (hs : s.Kept κ) :
    State.Kept κ (opSlt c s) := by
  unfold opSlt
  repeat' first | with_reducible assumption | (intro _) | with_reducible apply ok_ite | with_reducible apply State.setX_ok | fail_if_no_progress (with_reducible apply State.mk_ok) | split

theorem opSltu_ok {κ : Keep} (c : CuSlot) (s : State) (hs : s.Kept κ) :
    State.Kept κ (opSltu c s) := by
  unfold opSltu
  repeat' first | with_reducible assumption | (intro _) | with_reducible apply ok_ite | with_reducible apply State.setX_ok | fail_if_no_progress (with_reducible apply State.mk_ok) | split

theorem opAddi_ok {κ : Keep} (c : CuSlot) (s : State) (hs : s.Kept κ) :
    State.Kept κ (opAddi c s) := by
  unfold opAddi
  repeat' first | with_reducible assumption | (intro _) | with_reducible apply ok_ite | with_reducible apply State.setX_ok | fail_if_no_progress (with_reducible apply State.mk_ok) | split

theorem opAndi_ok {κ : Keep} (c : CuSlot) (s : State) (hs : s.Kept κ) :
    State.Kept κ (opAndi c s) := by
  unfold opAndi
  repeat' first | with_reducible assumption | (intro _) | with_reducible apply ok_ite | with_reducible apply State.setX_ok | fail_if_no_progress (with_reducible apply State.mk_ok) | split

theorem opOri_ok {κ : Keep} (c : CuSlot) (s : State) (hs : s.Kept κ) :
    State.Kept κ (opOri c s) := by
  unfold opOri
  repeat' first | with_reducible assumption | (intro _) | with_reducible apply ok_ite | with_reducible apply State.setX_ok | fail_if_no_progress (with_reducible apply State.mk_ok) | split

theorem opLui_ok {κ : Keep} (c : CuSlot) (s : State) (hs : s.Kept κ) :
    State.Kept κ (opLui c s) := by
  unfold opLui
  repeat' first | with_reducible assumption | (intro _) | with_reducible apply ok_ite | with_reducible apply State.setX_ok | fail_if_no_progress (with_reducible apply State.mk_ok) | split

theorem opShli_ok {κ : Keep} (c : CuSlot) (s : State) (hs : s.Kept κ) :
    State.Kept κ (opShli c s) := by
  unfold opShli
  repeat' first | with_reducible assumption | (intro _) | with_reducible apply ok_ite | with_reducible apply State.setX_ok | fail_if_no_progress (with_reducible apply State.mk_ok) | split

theorem opShri_ok {κ : Keep} (c : CuSlot) (s : State) (hs : s.Kept κ) :
    State.Kept κ (opShri c s) := by
  unfold opShri
  repeat' first | with_reducible assumption | (intro _) | with_reducible apply ok_ite | with_reducible apply State.setX_ok | fail_if_no_progress (with_reducible apply State.mk_ok) | split

theorem opSrai_ok {κ : Keep} (c : CuSlot) (s : State) (hs : s.Kept κ) :
    State.Kept κ (opSrai c s) := by
  unfold opSrai
  repeat' first | with_reducible assumption | (intro _) | with_reducible apply ok_ite | with_reducible apply State.setX_ok | fail_if_no_progress (with_reducible apply State.mk_ok) | split

theorem State.postInc_ok {κ : Keep} (s : State) (c : CuSlot) (n : Nat) (hs : s.Kept κ) :
    State.Kept κ (State.postInc s c n) := by
  unfold State.postInc
  repeat' first | with_reducible assumption | (intro _) | with_reducible apply ok_ite | with_reducible apply State.later_ok | fail_if_no_progress (with_reducible apply State.mk_ok) | split

theorem State.cuLoadBytes_ok {κ : Keep} (s : State) (c : CuSlot) (e : CuEnv) (a n : Nat) (hs : s.Kept κ) :
    State.Kept κ (State.cuLoadBytes s c e a n).2 := by
  unfold State.cuLoadBytes
  repeat' first | with_reducible assumption | with_reducible apply ok_ite_fst | with_reducible apply ok_ite_snd | fail_if_no_progress (with_reducible refine mk_ok_snd rfl ?_) | fail_if_no_progress (with_reducible refine mk_ok_fst rfl ?_) | fail_if_no_progress (with_reducible refine mk_ok_snd_snd rfl ?_) | (intro _) | with_reducible apply ok_ite | extract_lets | with_reducible apply State.fresh_ok | with_reducible apply State.satInc_ok | with_reducible apply State.cuRaise_ok | fail_if_no_progress (with_reducible apply State.mk_ok) | split | dsimp +zetaDelta only | with_reducible apply ok_ite_snd | with_reducible apply ok_ite_fst | with_reducible apply id_ok

theorem State.cuLoad_ok {κ : Keep} (s : State) (c : CuSlot) (e : CuEnv) (n align : Nat) (f : List Byte → CuEff) (hs : s.Kept κ) :
    State.Kept κ (State.cuLoad s c e n align f) := by
  unfold State.cuLoad
  repeat' first | with_reducible assumption | (intro _) | with_reducible apply ok_ite | extract_lets | with_reducible apply State.later_ok | with_reducible apply State.illegal_ok | with_reducible apply State.postInc_ok | with_reducible apply State.cuLoadBytes_ok | fail_if_no_progress (with_reducible apply State.mk_ok) | split | dsimp +zetaDelta only | with_reducible apply ok_ite_snd | with_reducible apply ok_ite_fst | with_reducible apply id_ok

theorem State.cuStore_ok {κ : Keep} (s : State) (c : CuSlot) (align : Nat) (bs : List Byte) (hs : s.Kept κ) :
    State.Kept κ (State.cuStore s c align bs) := by
  unfold State.cuStore
  repeat' first | with_reducible assumption | exact fun _ h => h | exact fun _ h => Mem.writes_wf _ _ _ _ h | exact fun _ _ => rfl | (intro _) | with_reducible apply ok_ite | extract_lets | with_reducible apply State.updCu_ok | with_reducible apply State.illegal_ok | with_reducible apply State.postInc_ok | fail_if_no_progress (with_reducible apply State.mk_ok) | split | dsimp +zetaDelta only

theorem opLdw_ok {κ : Keep} (e : CuEnv) (c : CuSlot) (s : State) (hs : s.Kept κ) :
    State.Kept κ (opLdw e c s) := by
  unfold opLdw
  repeat' first | with_reducible assumption | (intro _) | with_reducible apply ok_ite | with_reducible apply State.cuLoad_ok | fail_if_no_progress (with_reducible apply State.mk_ok) | split

theorem opStw_ok {κ : Keep} (c : CuSlot) (s : State) (hs : s.Kept κ) :
    State.Kept κ (opStw c s) := by
  unfold opStw
  repeat' first | with_reducible assumption | (intro _) | with_reducible apply ok_ite | with_reducible apply State.cuStore_ok | fail_if_no_progress (with_reducible apply State.mk_ok) | split

theorem opVld_ok {κ : Keep} (e : CuEnv) (c : CuSlot) (s : State) (hs : s.Kept κ) :
    State.Kept κ (opVld e c s) := by
  unfold opVld
  repeat' first | with_reducible assumption | (intro _) | with_reducible apply ok_ite | extract_lets | with_reducible apply State.cuLoad_ok | fail_if_no_progress (with_reducible apply State.mk_ok) | split | dsimp +zetaDelta only

theorem opVst_ok {κ : Keep} (c : CuSlot) (s : State) (hs : s.Kept κ) :
    State.Kept κ (opVst c s) := by
  unfold opVst
  repeat' first | with_reducible assumption | (intro _) | with_reducible apply ok_ite | with_reducible apply State.cuStore_ok | fail_if_no_progress (with_reducible apply State.mk_ok) | split

theorem opLdt_ok {κ : Keep} (e : CuEnv) (c : CuSlot) (s : State) (hs : s.Kept κ) :
    State.Kept κ (opLdt e c s) := by
  unfold opLdt
  repeat' first | with_reducible assumption | (intro _) | with_reducible apply ok_ite | with_reducible apply State.cuLoad_ok | fail_if_no_progress (with_reducible apply State.mk_ok) | split

theorem opStt_ok {κ : Keep} (c : CuSlot) (s : State) (hs : s.Kept κ) :
    State.Kept κ (opStt c s) := by
  unfold opStt
  repeat' first | with_reducible assumption | (intro _) | with_reducible apply ok_ite | with_reducible apply State.cuStore_ok | fail_if_no_progress (with_reducible apply State.mk_ok) | split

theorem State.cuControl_ok {κ : Keep} (s : State) (c : CuSlot) (x : CuCtl) (hs : s.Kept κ) :
    State.Kept κ (State.cuControl s c x).2 := by
  unfold State.cuControl
  repeat' first | with_reducible assumption | with_reducible apply ok_ite_fst | with_reducible apply ok_ite_snd | fail_if_no_progress (with_reducible refine mk_ok_snd rfl ?_) | fail_if_no_progress (with_reducible refine mk_ok_fst rfl ?_) | fail_if_no_progress (with_reducible refine mk_ok_snd_snd rfl ?_) | (intro _) | with_reducible apply ok_ite | with_reducible apply State.illegal_ok | fail_if_no_progress (with_reducible apply State.mk_ok) | split

theorem State.cuBranch_ok {κ : Keep} (s : State) (c : CuSlot) (taken : Bool) (hs : s.Kept κ) :
    State.Kept κ (State.cuBranch s c taken).2 := by
  unfold State.cuBranch
  repeat' first | with_reducible assumption | with_reducible apply ok_ite_fst | with_reducible apply ok_ite_snd | fail_if_no_progress (with_reducible refine mk_ok_snd rfl ?_) | fail_if_no_progress (with_reducible refine mk_ok_fst rfl ?_) | fail_if_no_progress (with_reducible refine mk_ok_snd_snd rfl ?_) | (intro _) | with_reducible apply ok_ite | with_reducible apply State.cuControl_ok | fail_if_no_progress (with_reducible apply State.mk_ok) | split

theorem opBeq_ok {κ : Keep} (c : CuSlot) (s : State) (hs : s.Kept κ) :
    State.Kept κ (opBeq c s).2 := by
  unfold opBeq
  repeat' first | with_reducible assumption | with_reducible apply ok_ite_fst | with_reducible apply ok_ite_snd | fail_if_no_progress (with_reducible refine mk_ok_snd rfl ?_) | fail_if_no_progress (with_reducible refine mk_ok_fst rfl ?_) | fail_if_no_progress (with_reducible refine mk_ok_snd_snd rfl ?_) | (intro _) | with_reducible apply ok_ite | with_reducible apply State.cuBranch_ok | fail_if_no_progress (with_reducible apply State.mk_ok) | split

theorem opBne_ok {κ : Keep} (c : CuSlot) (s : State) (hs : s.Kept κ) :
    State.Kept κ (opBne c s).2 := by
  unfold opBne
  repeat' first | with_reducible assumption | with_reducible apply ok_ite_fst | with_reducible apply ok_ite_snd | fail_if_no_progress (with_reducible refine mk_ok_snd rfl ?_) | fail_if_no_progress (with_reducible refine mk_ok_fst rfl ?_) | fail_if_no_progress (with_reducible refine mk_ok_snd_snd rfl ?_) | (intro _) | with_reducible apply ok_ite | with_reducible apply State.cuBranch_ok | fail_if_no_progress (with_reducible apply State.mk_ok) | split

theorem opBlt_ok {κ : Keep} (c : CuSlot) (s : State) (hs : s.Kept κ) :
    State.Kept κ (opBlt c s).2 := by
  unfold opBlt
  repeat' first | with_reducible assumption | with_reducible apply ok_ite_fst | with_reducible apply ok_ite_snd | fail_if_no_progress (with_reducible refine mk_ok_snd rfl ?_) | fail_if_no_progress (with_reducible refine mk_ok_fst rfl ?_) | fail_if_no_progress (with_reducible refine mk_ok_snd_snd rfl ?_) | (intro _) | with_reducible apply ok_ite | with_reducible apply State.cuBranch_ok | fail_if_no_progress (with_reducible apply State.mk_ok) | split

theorem opBge_ok {κ : Keep} (c : CuSlot) (s : State) (hs : s.Kept κ) :
    State.Kept κ (opBge c s).2 := by
  unfold opBge
  repeat' first | with_reducible assumption | with_reducible apply ok_ite_fst | with_reducible apply ok_ite_snd | fail_if_no_progress (with_reducible refine mk_ok_snd rfl ?_) | fail_if_no_progress (with_reducible refine mk_ok_fst rfl ?_) | fail_if_no_progress (with_reducible refine mk_ok_snd_snd rfl ?_) | (intro _) | with_reducible apply ok_ite | with_reducible apply State.cuBranch_ok | fail_if_no_progress (with_reducible apply State.mk_ok) | split

theorem opJmp_ok {κ : Keep} (c : CuSlot) (s : State) (hs : s.Kept κ) :
    State.Kept κ (opJmp c s).2 := by
  unfold opJmp
  repeat' first | with_reducible assumption | with_reducible apply ok_ite_fst | with_reducible apply ok_ite_snd | fail_if_no_progress (with_reducible refine mk_ok_snd rfl ?_) | fail_if_no_progress (with_reducible refine mk_ok_fst rfl ?_) | fail_if_no_progress (with_reducible refine mk_ok_snd_snd rfl ?_) | (intro _) | with_reducible apply ok_ite | with_reducible apply State.cuBranch_ok | fail_if_no_progress (with_reducible apply State.mk_ok) | split

theorem opJr_ok {κ : Keep} (c : CuSlot) (s : State) (hs : s.Kept κ) :
    State.Kept κ (opJr c s).2 := by
  unfold opJr
  repeat' first | with_reducible assumption | with_reducible apply ok_ite_fst | with_reducible apply ok_ite_snd | fail_if_no_progress (with_reducible refine mk_ok_snd rfl ?_) | fail_if_no_progress (with_reducible refine mk_ok_fst rfl ?_) | fail_if_no_progress (with_reducible refine mk_ok_snd_snd rfl ?_) | (intro _) | with_reducible apply ok_ite | with_reducible apply State.cuControl_ok | fail_if_no_progress (with_reducible apply State.mk_ok) | split

theorem opCall_ok {κ : Keep} (c : CuSlot) (s : State) (hs : s.Kept κ) :
    State.Kept κ (opCall c s).2 := by
  unfold opCall
  repeat' first | with_reducible assumption | with_reducible apply ok_ite_fst | with_reducible apply ok_ite_snd | fail_if_no_progress (with_reducible refine mk_ok_snd rfl ?_) | fail_if_no_progress (with_reducible refine mk_ok_fst rfl ?_) | fail_if_no_progress (with_reducible refine mk_ok_snd_snd rfl ?_) | (intro _) | with_reducible apply ok_ite | extract_lets | with_reducible apply State.later_ok | with_reducible apply State.cuBranch_ok | fail_if_no_progress (with_reducible apply State.mk_ok) | split | dsimp +zetaDelta only | with_reducible apply ok_ite_snd | with_reducible apply ok_ite_fst | with_reducible apply id_ok

theorem opWait_ok {κ : Keep} (c : CuSlot) (s : State) (hs : s.Kept κ) :
    State.Kept κ (opWait c s).2 := by
  unfold opWait
  repeat' first | with_reducible assumption | with_reducible apply ok_ite_fst | with_reducible apply ok_ite_snd | fail_if_no_progress (with_reducible refine mk_ok_snd rfl ?_) | fail_if_no_progress (with_reducible refine mk_ok_fst rfl ?_) | fail_if_no_progress (with_reducible refine mk_ok_snd_snd rfl ?_) | (intro _) | with_reducible apply ok_ite | with_reducible apply State.illegal_ok | with_reducible apply State.cuControl_ok | fail_if_no_progress (with_reducible apply State.mk_ok) | split

theorem opRete_ok {κ : Keep} (c : CuSlot) (s : State) (hs : s.Kept κ) :
    State.Kept κ (opRete c s).2 := by
  unfold opRete
  repeat' first | with_reducible assumption | with_reducible apply ok_ite_fst | with_reducible apply ok_ite_snd | fail_if_no_progress (with_reducible refine mk_ok_snd rfl ?_) | fail_if_no_progress (with_reducible refine mk_ok_fst rfl ?_) | fail_if_no_progress (with_reducible refine mk_ok_snd_snd rfl ?_) | (intro _) | with_reducible apply ok_ite | with_reducible apply State.illegal_ok | with_reducible apply State.cuControl_ok | fail_if_no_progress (with_reducible apply State.mk_ok) | split

theorem opHalt_ok {κ : Keep} (c : CuSlot) (s : State) (hs : s.Kept κ) :
    State.Kept κ (opHalt c s).2 := by
  unfold opHalt
  repeat' first | with_reducible assumption | with_reducible apply ok_ite_fst | with_reducible apply ok_ite_snd | fail_if_no_progress (with_reducible refine mk_ok_snd rfl ?_) | fail_if_no_progress (with_reducible refine mk_ok_fst rfl ?_) | fail_if_no_progress (with_reducible refine mk_ok_snd_snd rfl ?_) | (intro _) | with_reducible apply ok_ite | with_reducible apply State.cuControl_ok | fail_if_no_progress (with_reducible apply State.mk_ok) | split

theorem opMfs_ok {κ : Keep} (c : CuSlot) (s : State) (hs : s.Kept κ) :
    State.Kept κ (opMfs c s) := by
  unfold opMfs
  repeat' first | with_reducible assumption | (intro _) | with_reducible apply ok_ite | with_reducible apply State.setX_ok | fail_if_no_progress (with_reducible apply State.mk_ok) | split

theorem opMts_ok {κ : Keep} (c : CuSlot) (s : State) (hs : s.Kept κ) :
    State.Kept κ (opMts c s) := by
  unfold opMts
  repeat' first | with_reducible assumption | (intro _) | with_reducible apply ok_ite | with_reducible apply State.later_ok | with_reducible apply State.illegal_ok | fail_if_no_progress (with_reducible apply State.mk_ok) | split

theorem opTnow_ok {κ : Keep} (e : CuEnv) (c : CuSlot) (s : State) (hs : s.Kept κ) :
    State.Kept κ (opTnow e c s) := by
  unfold opTnow
  repeat' first | with_reducible assumption | (intro _) | with_reducible apply ok_ite | with_reducible apply State.later_ok | fail_if_no_progress (with_reducible apply State.mk_ok) | split

theorem opTrig_ok {κ : Keep} (e : CuEnv) (c : CuSlot) (s : State) (hs : s.Kept κ) :
    State.Kept κ (opTrig e c s) := by
  unfold opTrig
  repeat' first | with_reducible assumption | (intro _) | with_reducible apply ok_ite | extract_lets | with_reducible apply State.eventOccur_ok | fail_if_no_progress (with_reducible apply State.mk_ok) | split | dsimp +zetaDelta only

theorem opRdtrg_ok {κ : Keep} (c : CuSlot) (s : State) (hs : s.Kept κ) :
    State.Kept κ (opRdtrg c s) := by
  unfold opRdtrg
  repeat' first | with_reducible assumption | (intro _) | with_reducible apply ok_ite | extract_lets | with_reducible apply State.setX_ok | fail_if_no_progress (with_reducible apply State.mk_ok) | split | dsimp +zetaDelta only

theorem State.popCell_ok {κ : Keep} (s : State) (q u : Nat) (hs : s.Kept κ) :
    State.Kept κ (State.popCell s q u).2 := by
  unfold State.popCell
  repeat' first | with_reducible assumption | with_reducible apply ok_ite_fst | with_reducible apply ok_ite_snd | fail_if_no_progress (with_reducible refine mk_ok_snd rfl ?_) | fail_if_no_progress (with_reducible refine mk_ok_fst rfl ?_) | fail_if_no_progress (with_reducible refine mk_ok_snd_snd rfl ?_) | (intro _) | with_reducible apply ok_ite | extract_lets | with_reducible apply State.put_ok | with_reducible apply State.updQueue_ok | with_reducible apply State.cellConsumed_ok | fail_if_no_progress (with_reducible apply State.mk_ok) | split | dsimp +zetaDelta only

theorem opQpop_ok {κ : Keep} (c : CuSlot) (s : State) (hs : s.Kept κ) :
    State.Kept κ (opQpop c s) := by
  unfold opQpop
  repeat' first | with_reducible assumption | (intro _) | with_reducible apply ok_ite | extract_lets | with_reducible apply State.setX_ok | with_reducible apply State.popCell_ok | fail_if_no_progress (with_reducible apply State.mk_ok) | split | dsimp +zetaDelta only | with_reducible apply ok_ite_snd | with_reducible apply ok_ite_fst | with_reducible apply id_ok

theorem opQrd_ok {κ : Keep} (c : CuSlot) (s : State) (hs : s.Kept κ) :
    State.Kept κ (opQrd c s) := by
  unfold opQrd
  repeat' first | with_reducible assumption | exact fun _ h => h | exact fun _ h => Mem.writes_wf _ _ _ _ h | exact fun _ _ => rfl | (intro _) | with_reducible apply ok_ite | extract_lets | with_reducible apply State.updCu_ok | with_reducible apply State.setX_ok | with_reducible apply State.illegal_ok | fail_if_no_progress (with_reducible apply State.mk_ok) | split | dsimp +zetaDelta only

theorem opQfree_ok {κ : Keep} (c : CuSlot) (s : State) (hs : s.Kept κ) :
    State.Kept κ (opQfree c s) := by
  unfold opQfree
  repeat' first | with_reducible assumption | (intro _) | with_reducible apply ok_ite | extract_lets | with_reducible apply State.put_ok | with_reducible apply State.raiseInst_ok | with_reducible apply State.releaseCell_ok | with_reducible apply State.queueErr_ok | with_reducible apply State.setX_ok | fail_if_no_progress (with_reducible apply State.mk_ok) | split | dsimp +zetaDelta only

theorem opSend_ok {κ : Keep} (c : CuSlot) (s : State) (hs : s.Kept κ) :
    State.Kept κ (opSend c s) := by
  unfold opSend
  repeat' first | with_reducible assumption | exact fun _ h => h | exact fun _ h => Mem.writes_wf _ _ _ _ h | exact fun _ _ => rfl | (intro _) | with_reducible apply ok_ite | extract_lets | with_reducible apply State.updCu_ok | with_reducible apply State.setX_ok | fail_if_no_progress (with_reducible apply State.mk_ok) | split | dsimp +zetaDelta only

theorem opQstat_ok {κ : Keep} (c : CuSlot) (s : State) (hs : s.Kept κ) :
    State.Kept κ (opQstat c s) := by
  unfold opQstat
  repeat' first | with_reducible assumption | (intro _) | with_reducible apply ok_ite | extract_lets | with_reducible apply State.setX_ok | fail_if_no_progress (with_reducible apply State.mk_ok) | split | dsimp +zetaDelta only

theorem State.narrow_ok {κ : Keep} (s : State) (c : CuSlot) (l vd flag : Nat) (bx : Bool) (xs : List Int) (hs : s.Kept κ) :
    State.Kept κ (State.narrow s c l vd flag bx xs) := by
  unfold State.narrow
  repeat' first | with_reducible assumption | (intro _) | with_reducible apply ok_ite | extract_lets | with_reducible apply State.later_ok | fail_if_no_progress (with_reducible apply State.mk_ok) | split | dsimp +zetaDelta only | with_reducible apply ok_ite_snd | with_reducible apply ok_ite_fst | with_reducible apply id_ok

theorem opVadd_ok {κ : Keep} (c : CuSlot) (s : State) (hs : s.Kept κ) :
    State.Kept κ (opVadd c s) := by
  unfold opVadd
  repeat' first | with_reducible assumption | (intro _) | with_reducible apply ok_ite | with_reducible apply State.narrow_ok | fail_if_no_progress (with_reducible apply State.mk_ok) | split

theorem opVsub_ok {κ : Keep} (c : CuSlot) (s : State) (hs : s.Kept κ) :
    State.Kept κ (opVsub c s) := by
  unfold opVsub
  repeat' first | with_reducible assumption | (intro _) | with_reducible apply ok_ite | with_reducible apply State.narrow_ok | fail_if_no_progress (with_reducible apply State.mk_ok) | split

theorem opVmov_ok {κ : Keep} (c : CuSlot) (s : State) (hs : s.Kept κ) :
    State.Kept κ (opVmov c s) := by
  unfold opVmov
  repeat' first | with_reducible assumption | (intro _) | with_reducible apply ok_ite | with_reducible apply State.later_ok | fail_if_no_progress (with_reducible apply State.mk_ok) | split

theorem opVswap_ok {κ : Keep} (c : CuSlot) (s : State) (hs : s.Kept κ) :
    State.Kept κ (opVswap c s) := by
  unfold opVswap
  repeat' first | with_reducible assumption | (intro _) | with_reducible apply ok_ite | extract_lets | with_reducible apply State.later_ok | fail_if_no_progress (with_reducible apply State.mk_ok) | split | dsimp +zetaDelta only

theorem opVconj_ok {κ : Keep} (c : CuSlot) (s : State) (hs : s.Kept κ) :
    State.Kept κ (opVconj c s) := by
  unfold opVconj
  repeat' first | with_reducible assumption | (intro _) | with_reducible apply ok_ite | extract_lets | with_reducible apply State.narrow_ok | fail_if_no_progress (with_reducible apply State.mk_ok) | split | dsimp +zetaDelta only

theorem opVbf_ok {κ : Keep} (c : CuSlot) (s : State) (hs : s.Kept κ) :
    State.Kept κ (opVbf c s) := by
  unfold opVbf
  repeat' first | with_reducible assumption | (intro _) | with_reducible apply ok_ite | with_reducible apply State.illegal_ok | with_reducible apply State.narrow_ok | fail_if_no_progress (with_reducible apply State.mk_ok) | split

theorem opVspl_ok {κ : Keep} (c : CuSlot) (s : State) (hs : s.Kept κ) :
    State.Kept κ (opVspl c s) := by
  unfold opVspl
  repeat' first | with_reducible assumption | (intro _) | with_reducible apply ok_ite | with_reducible apply State.later_ok | fail_if_no_progress (with_reducible apply State.mk_ok) | split

theorem State.multiply_ok {κ : Keep} (s : State) (c : CuSlot) (busy : Bool) (f : State → State) (hs : s.Kept κ) (hf : ∀ x, x.Kept κ → (f x).Kept κ) :
    State.Kept κ (State.multiply s c busy f) := by
  unfold State.multiply
  repeat' first | with_reducible assumption | (intro _) | with_reducible apply hf | with_reducible apply ok_ite | with_reducible apply State.illegal_ok | fail_if_no_progress (with_reducible apply State.mk_ok) | split

theorem State.occupy_ok {κ : Keep} (s : State) (c : CuSlot) (hs : s.Kept κ) :
    State.Kept κ (State.occupy s c) := by
  unfold State.occupy
  repeat' first | with_reducible assumption | exact fun _ h => h | exact fun _ h => Mem.writes_wf _ _ _ _ h | exact fun _ _ => rfl | (intro _) | with_reducible apply ok_ite | with_reducible apply State.updCu_ok | fail_if_no_progress (with_reducible apply State.mk_ok) | split

theorem opVcmul_ok {κ : Keep} (busy : Bool) (c : CuSlot) (s : State) (hs : s.Kept κ) :
    State.Kept κ (opVcmul busy c s) := by
  unfold opVcmul
  repeat' first | with_reducible assumption | (intro _) | with_reducible apply ok_ite | with_reducible apply State.narrow_ok | with_reducible apply State.multiply_ok | with_reducible apply State.occupy_ok | fail_if_no_progress (with_reducible apply State.mk_ok) | split

theorem opVmac_ok {κ : Keep} (busy : Bool) (c : CuSlot) (s : State) (hs : s.Kept κ) :
    State.Kept κ (opVmac busy c s) := by
  unfold opVmac
  repeat' first | with_reducible assumption | (intro _) | with_reducible apply ok_ite | with_reducible apply State.later_ok | with_reducible apply State.multiply_ok | fail_if_no_progress (with_reducible apply State.mk_ok) | split

theorem opVmsu_ok {κ : Keep} (busy : Bool) (c : CuSlot) (s : State) (hs : s.Kept κ) :
    State.Kept κ (opVmsu busy c s) := by
  unfold opVmsu
  repeat' first | with_reducible assumption | (intro _) | with_reducible apply ok_ite | with_reducible apply State.later_ok | with_reducible apply State.multiply_ok | fail_if_no_progress (with_reducible apply State.mk_ok) | split

theorem opVmul_ok {κ : Keep} (busy : Bool) (c : CuSlot) (s : State) (hs : s.Kept κ) :
    State.Kept κ (opVmul busy c s) := by
  unfold opVmul
  repeat' first | with_reducible assumption | (intro _) | with_reducible apply ok_ite | with_reducible apply State.later_ok | with_reducible apply State.multiply_ok | fail_if_no_progress (with_reducible apply State.mk_ok) | split

theorem opVcmac_ok {κ : Keep} (busy : Bool) (c : CuSlot) (s : State) (hs : s.Kept κ) :
    State.Kept κ (opVcmac busy c s) := by
  unfold opVcmac
  repeat' first | with_reducible assumption | (intro _) | with_reducible apply ok_ite | with_reducible apply State.later_ok | with_reducible apply State.multiply_ok | with_reducible apply State.occupy_ok | fail_if_no_progress (with_reducible apply State.mk_ok) | split

theorem opVcmacj_ok {κ : Keep} (busy : Bool) (c : CuSlot) (s : State) (hs : s.Kept κ) :
    State.Kept κ (opVcmacj busy c s) := by
  unfold opVcmacj
  repeat' first | with_reducible assumption | (intro _) | with_reducible apply ok_ite | with_reducible apply State.later_ok | with_reducible apply State.multiply_ok | with_reducible apply State.occupy_ok | fail_if_no_progress (with_reducible apply State.mk_ok) | split

theorem opVsq_ok {κ : Keep} (busy : Bool) (c : CuSlot) (s : State) (hs : s.Kept κ) :
    State.Kept κ (opVsq busy c s) := by
  unfold opVsq
  repeat' first | with_reducible assumption | (intro _) | with_reducible apply ok_ite | with_reducible apply State.later_ok | with_reducible apply State.multiply_ok | fail_if_no_progress (with_reducible apply State.mk_ok) | split

theorem opAclr_ok {κ : Keep} (c : CuSlot) (s : State) (hs : s.Kept κ) :
    State.Kept κ (opAclr c s) := by
  unfold opAclr
  repeat' first | with_reducible assumption | (intro _) | with_reducible apply ok_ite | with_reducible apply State.later_ok | fail_if_no_progress (with_reducible apply State.mk_ok) | split

theorem opAred_ok {κ : Keep} (c : CuSlot) (s : State) (hs : s.Kept κ) :
    State.Kept κ (opAred c s) := by
  unfold opAred
  repeat' first | with_reducible assumption | (intro _) | with_reducible apply ok_ite | extract_lets | with_reducible apply State.later_ok | fail_if_no_progress (with_reducible apply State.mk_ok) | split | dsimp +zetaDelta only

theorem opVnar_ok {κ : Keep} (c : CuSlot) (s : State) (hs : s.Kept κ) :
    State.Kept κ (opVnar c s) := by
  unfold opVnar
  repeat' first | with_reducible assumption | (intro _) | with_reducible apply ok_ite | with_reducible apply State.narrow_ok | fail_if_no_progress (with_reducible apply State.mk_ok) | split | with_reducible apply ok_ite_snd | with_reducible apply ok_ite_fst | with_reducible apply id_ok

theorem opAxh_ok {κ : Keep} (c : CuSlot) (s : State) (hs : s.Kept κ) :
    State.Kept κ (opAxh c s) := by
  unfold opAxh
  repeat' first | with_reducible assumption | (intro _) | with_reducible apply ok_ite | with_reducible apply State.setX_ok | fail_if_no_progress (with_reducible apply State.mk_ok) | split | with_reducible apply ok_ite_snd | with_reducible apply ok_ite_fst | with_reducible apply id_ok

theorem opAxl_ok {κ : Keep} (c : CuSlot) (s : State) (hs : s.Kept κ) :
    State.Kept κ (opAxl c s) := by
  unfold opAxl
  repeat' first | with_reducible assumption | (intro _) | with_reducible apply ok_ite | with_reducible apply State.setX_ok | fail_if_no_progress (with_reducible apply State.mk_ok) | split | with_reducible apply ok_ite_snd | with_reducible apply ok_ite_fst | with_reducible apply id_ok

theorem opLoop_ok {κ : Keep} (c : CuSlot) (s : State) (hs : s.Kept κ) :
    State.Kept κ (opLoop c s).2 := by
  unfold opLoop
  repeat' first | with_reducible assumption | with_reducible apply ok_ite_fst | with_reducible apply ok_ite_snd | fail_if_no_progress (with_reducible refine mk_ok_snd rfl ?_) | fail_if_no_progress (with_reducible refine mk_ok_fst rfl ?_) | fail_if_no_progress (with_reducible refine mk_ok_snd_snd rfl ?_) | (intro _) | with_reducible apply ok_ite | extract_lets | with_reducible apply State.illegal_ok | fail_if_no_progress (with_reducible apply State.mk_ok) | split | dsimp +zetaDelta only

theorem slotA_ok {κ : Keep} (e : CuEnv) (c : CuSlot) (s : State) (hs : s.Kept κ) :
    State.Kept κ (slotA e c s).2 := by
  unfold slotA
  repeat' first | with_reducible assumption | with_reducible apply ok_ite_fst | with_reducible apply ok_ite_snd | fail_if_no_progress (with_reducible refine mk_ok_snd rfl ?_) | fail_if_no_progress (with_reducible refine mk_ok_fst rfl ?_) | fail_if_no_progress (with_reducible refine mk_ok_snd_snd rfl ?_) | (intro _) | with_reducible apply ok_ite | extract_lets | with_reducible apply opAdd_ok | with_reducible apply opSub_ok | with_reducible apply opAnd_ok | with_reducible apply opOr_ok | with_reducible apply opXor_ok | with_reducible apply opShl_ok | with_reducible apply opShr_ok | with_reducible apply opSra_ok | with_reducible apply opMul_ok | with_reducible apply opSlt_ok | with_reducible apply opSltu_ok | with_reducible apply opAddi_ok | with_reducible apply opAndi_ok | with_reducible apply opOri_ok | with_reducible apply opLui_ok | with_reducible apply opShli_ok | with_reducible apply opShri_ok | with_reducible apply opSrai_ok | with_reducible apply opLdw_ok | with_reducible apply opStw_ok | with_reducible apply opVld_ok | with_reducible apply opVst_ok | with_reducible apply opLdt_ok | with_reducible apply opStt_ok | with_reducible apply opBeq_ok | with_reducible apply opBne_ok | with_reducible apply opBlt_ok | with_reducible apply opBge_ok | with_reducible apply opJmp_ok | with_reducible apply opJr_ok | with_reducible apply opCall_ok | with_reducible apply opWait_ok | with_reducible apply opRete_ok | with_reducible apply opHalt_ok | with_reducible apply opMfs_ok | with_reducible apply opMts_ok | with_reducible apply opTnow_ok | with_reducible apply opTrig_ok | with_reducible apply opRdtrg_ok | with_reducible apply opQpop_ok | with_reducible apply opQrd_ok | with_reducible apply opQfree_ok | with_reducible apply opSend_ok | with_reducible apply opQstat_ok | fail_if_no_progress (with_reducible apply State.mk_ok) | split | dsimp +zetaDelta only

theorem slotB_ok {κ : Keep} (busy : Bool) (c : CuSlot) (s : State) (hs : s.Kept κ) :
    State.Kept κ (slotB busy c s).2 := by
  unfold slotB
  repeat' first | with_reducible assumption | with_reducible apply ok_ite_fst | with_reducible apply ok_ite_snd | fail_if_no_progress (with_reducible refine mk_ok_snd rfl ?_) | fail_if_no_progress (with_reducible refine mk_ok_fst rfl ?_) | fail_if_no_progress (with_reducible refine mk_ok_snd_snd rfl ?_) | (intro _) | with_reducible apply ok_ite | extract_lets | with_reducible apply opVadd_ok | with_reducible apply opVsub_ok | with_reducible apply opVmov_ok | with_reducible apply opVswap_ok | with_reducible apply opVconj_ok | with_reducible apply opVbf_ok | with_reducible apply opVspl_ok | with_reducible apply opVcmul_ok | with_reducible apply opVmac_ok | with_reducible apply opVmsu_ok | with_reducible apply opVmul_ok | with_reducible apply opVcmac_ok | with_reducible apply opVcmacj_ok | with_reducible apply opVsq_ok | with_reducible apply opAclr_ok | with_reducible apply opAred_ok | with_reducible apply opVnar_ok | with_reducible apply opAxh_ok | with_reducible apply opAxl_ok | with_reducible apply opLoop_ok | fail_if_no_progress (with_reducible apply State.mk_ok) | split | dsimp +zetaDelta only

theorem State.cuIssue_ok {κ : Keep} (s : State) (u : Nat) (e : CuEnv) (hs : s.Kept κ) :
    State.Kept κ (State.cuIssue s u e) := by
  unfold State.cuIssue
  repeat' first | with_reducible assumption | exact fun _ h => h | exact fun _ h => Mem.writes_wf _ _ _ _ h | exact fun _ _ => rfl | (intro _) | with_reducible apply ok_ite | extract_lets | with_reducible apply State.updCu_ok | with_reducible apply State.put_ok | with_reducible apply State.cuRaise_ok | with_reducible apply State.cuCycle_ok | with_reducible apply State.cuAdvance_ok | with_reducible apply slotA_ok | with_reducible apply slotB_ok | fail_if_no_progress (with_reducible apply State.mk_ok) | split | dsimp +zetaDelta only | with_reducible apply ok_ite_snd | with_reducible apply ok_ite_fst | with_reducible apply id_ok

theorem State.cuRun_ok {κ : Keep} (s : State) (u : Nat) (has : Nat → Bool) (e : CuEnv) (hs : s.Kept κ) :
    OutOk κ (State.cuRun s u has e) := by
  unfold State.cuRun
  repeat' first | with_reducible assumption | (intro _) | with_reducible apply OutOk.ite | with_reducible apply ok_ite | with_reducible apply State.cuIssue_ok | with_reducible apply OutOk.next | fail_if_no_progress (with_reducible apply State.mk_ok) | split

end Machine
end Sys2Proof
end

