-- ==== Sys2Proof/Laws/OkCuUnits.lean ====
section
/-!
SUPPORT. The canonical form is kept by every operation of Machine/CuUnits.lean.
-/

namespace Sys2Proof
namespace Machine

theorem State.settleCuOff_ok {κ : Keep} (s : State) (u : Nat) (hs : s.Kept κ) :
    State.Kept κ (State.settleCuOff s u) := by
  unfold State.settleCuOff
  repeat' first | with_reducible assumption | exact fun _ h => h | exact fun _ h => Mem.writes_wf _ _ _ _ h | exact fun _ _ => rfl | (intro _) | with_reducible apply ok_ite | extract_lets | with_reducible apply State.updCu_ok | with_reducible apply State.put_ok | fail_if_no_progress (with_reducible apply State.mk_ok) | split | dsimp +zetaDelta only

theorem State.cuEnable_ok {κ : Keep} (s : State) (u : Nat) (en : Bool) (hs : s.Kept κ) :
    State.Kept κ (State.cuEnable s u en) := by
  unfold State.cuEnable
  repeat' first | with_reducible assumption | exact fun _ h => h | exact fun _ h => Mem.writes_wf _ _ _ _ h | exact fun _ _ => rfl | (intro _) | with_reducible apply ok_ite | extract_lets | with_reducible apply State.updCu_ok | with_reducible apply State.put_ok | with_reducible apply State.cuStop_ok | with_reducible apply State.settleCuOff_ok | fail_if_no_progress (with_reducible apply State.mk_ok) | split | dsimp +zetaDelta only

theorem execCuEnWrite_ok {κ : Keep} (p : Path) (u : Fin 16) (en : Bool) (s : State) (hs : s.Kept κ) :
    OutOk κ (execCuEnWrite p u en s) := by
  unfold execCuEnWrite
  repeat' first | with_reducible assumption | (intro _) | with_reducible apply OutOk.ite | with_reducible apply ok_ite | with_reducible apply State.gateField_ok | with_reducible apply State.cuEnable_ok | with_reducible apply OutOk.next | fail_if_no_progress (with_reducible apply State.mk_ok) | split

theorem execCuWakeDone_ok {κ : Keep} (u : Fin 16) (s : State) (hs : s.Kept κ) :
    OutOk κ (execCuWakeDone u s) := by
  unfold execCuWakeDone
  repeat' first | with_reducible assumption | exact fun _ h => h | exact fun _ h => Mem.writes_wf _ _ _ _ h | exact fun _ _ => rfl | (intro _) | with_reducible apply OutOk.ite | with_reducible apply ok_ite | extract_lets | with_reducible apply State.setWord_ok | with_reducible apply State.updCu_ok | with_reducible apply State.put_ok | with_reducible apply State.cuStopsDone_ok | with_reducible apply OutOk.next | fail_if_no_progress (with_reducible apply State.mk_ok) | split | dsimp +zetaDelta only

theorem State.cuStartRun_ok {κ : Keep} (s : State) (u : Nat) (hs : s.Kept κ) :
    State.Kept κ (State.cuStartRun s u) := by
  unfold State.cuStartRun
  repeat' first | with_reducible assumption | exact fun _ h => h | exact fun _ h => Mem.writes_wf _ _ _ _ h | exact fun _ _ => rfl | (intro _) | with_reducible apply ok_ite | extract_lets | with_reducible apply State.setWord_ok | with_reducible apply State.updCu_ok | with_reducible apply State.put_ok | fail_if_no_progress (with_reducible apply State.mk_ok) | split | dsimp +zetaDelta only

theorem State.cuRunAt_ok {κ : Keep} (s : State) (u t : Nat) (hs : s.Kept κ) :
    State.Kept κ (State.cuRunAt s u t) := by
  unfold State.cuRunAt
  repeat' first | with_reducible assumption | (intro _) | with_reducible apply ok_ite | with_reducible apply State.cuStop_ok | with_reducible apply State.cuStartRun_ok | fail_if_no_progress (with_reducible apply State.mk_ok) | split

theorem execCuRunWrite_ok {κ : Keep} (p : Path) (u : Fin 16) (s : State) (hs : s.Kept κ) :
    OutOk κ (execCuRunWrite p u s) := by
  unfold execCuRunWrite
  repeat' first | with_reducible assumption | (intro _) | with_reducible apply OutOk.ite | with_reducible apply ok_ite | with_reducible apply State.gateAction_ok | with_reducible apply State.cuRunAt_ok | with_reducible apply OutOk.next | fail_if_no_progress (with_reducible apply State.mk_ok) | split

theorem execCuStopWrite_ok {κ : Keep} (p : Path) (u : Fin 16) (s : State) (hs : s.Kept κ) :
    OutOk κ (execCuStopWrite p u s) := by
  unfold execCuStopWrite
  repeat' first | with_reducible assumption | (intro _) | with_reducible apply OutOk.ite | with_reducible apply ok_ite | with_reducible apply State.gateAction_ok | with_reducible apply State.cuStopAt_ok | with_reducible apply OutOk.next | fail_if_no_progress (with_reducible apply State.mk_ok) | split

theorem State.cuPoke_ok {κ : Keep} (s : State) (u : Nat) (hs : s.Kept κ) :
    State.Kept κ (State.cuPoke s u) := by
  unfold State.cuPoke
  repeat' first | with_reducible assumption | (intro _) | with_reducible apply ok_ite | with_reducible apply State.cuPend_ok | fail_if_no_progress (with_reducible apply State.mk_ok) | split

theorem execCuPoke_ok {κ : Keep} (p : Path) (u : Fin 16) (s : State) (hs : s.Kept κ) :
    OutOk κ (execCuPoke p u s) := by
  unfold execCuPoke
  repeat' first | with_reducible assumption | (intro _) | with_reducible apply OutOk.ite | with_reducible apply ok_ite | with_reducible apply State.gateAction_ok | with_reducible apply State.cuPoke_ok | with_reducible apply OutOk.next | fail_if_no_progress (with_reducible apply State.mk_ok) | split

theorem State.writeCuCtl_ok {κ : Keep} (s : State) (u : Nat) (w : Word) (hs : s.Kept κ) :
    State.Kept κ (State.writeCuCtl s u w) := by
  unfold State.writeCuCtl
  repeat' first | with_reducible assumption | (intro _) | with_reducible apply ok_ite | extract_lets | with_reducible apply State.put_ok | with_reducible apply State.cuStopAt_ok | with_reducible apply State.cuEnable_ok | with_reducible apply State.cuRunAt_ok | with_reducible apply State.cuPoke_ok | fail_if_no_progress (with_reducible apply State.mk_ok) | split | dsimp +zetaDelta only

theorem State.writeCuEvcfg_ok {κ : Keep} (s : State) (u : Nat) (w : Word) (hs : s.Kept κ) :
    State.Kept κ (State.writeCuEvcfg s u w) := by
  unfold State.writeCuEvcfg
  repeat' first | with_reducible assumption | exact fun _ h => h | exact fun _ h => Mem.writes_wf _ _ _ _ h | exact fun _ _ => rfl | (intro _) | with_reducible apply ok_ite | extract_lets | with_reducible apply State.updCu_ok | with_reducible apply State.plainWrite_ok | with_reducible apply foldl_ok | with_reducible apply foldl_ok_fst | with_reducible apply foldl_ok_snd | fail_if_no_progress (with_reducible apply State.mk_ok) | split | dsimp +zetaDelta only

theorem State.bindPort?_ok {κ : Keep} (s : State) (u w p : Nat) (hs : s.Kept κ) :
    OptOk κ (State.bindPort? s u w p) := by
  unfold State.bindPort?
  repeat' first | with_reducible assumption | with_reducible apply OptOk.none | with_reducible apply OptOk.some | with_reducible apply OptOk.ite | (intro _) | with_reducible apply ok_ite | with_reducible apply State.bindQueue?_ok | fail_if_no_progress (with_reducible apply State.mk_ok) | split | with_reducible refine OptOk.of_some (State.bindQueue?_ok _ _ _ _ ?_) _ (by with_reducible assumption)

theorem State.bindPorts?_ok {κ : Keep} (s : State) (u w : Nat) (hs : s.Kept κ) :
    OptOk κ (State.bindPorts? s u w) := by
  unfold State.bindPorts?
  repeat' first | with_reducible assumption | with_reducible apply OptOk.none | with_reducible apply OptOk.some | with_reducible apply OptOk.ite | (intro _) | with_reducible apply ok_ite | with_reducible apply State.bindPort?_ok | fail_if_no_progress (with_reducible apply State.mk_ok) | split | with_reducible refine OptOk.of_some (State.bindPort?_ok _ _ _ _ ?_) _ (by with_reducible assumption)

theorem State.writeCuInq_ok {κ : Keep} (s : State) (u : Nat) (w : Word) (hs : s.Kept κ) :
    State.Kept κ (State.writeCuInq s u w) := by
  unfold State.writeCuInq
  repeat' first | with_reducible assumption | (intro _) | with_reducible apply ok_ite | extract_lets | with_reducible apply State.put_ok | with_reducible apply State.plainWrite_ok | with_reducible apply State.unbindQueue_ok | with_reducible apply State.bindPorts?_ok | with_reducible apply foldl_ok | with_reducible apply foldl_ok_fst | with_reducible apply foldl_ok_snd | fail_if_no_progress (with_reducible apply State.mk_ok) | split | dsimp +zetaDelta only | with_reducible refine OptOk.of_some (State.bindPorts?_ok _ _ _ ?_) _ (by with_reducible assumption)

theorem State.cuForceDown_ok {κ : Keep} (s : State) (u : Nat) (hs : s.Kept κ) :
    State.Kept κ (State.cuForceDown s u) := by
  unfold State.cuForceDown
  repeat' first | with_reducible assumption | exact fun _ h => h | exact fun _ h => Mem.writes_wf _ _ _ _ h | exact fun _ _ => rfl | (intro _) | with_reducible apply ok_ite | extract_lets | with_reducible apply State.updCu_ok | with_reducible apply State.put_ok | with_reducible apply State.raiseWith_ok | with_reducible apply State.cuHalted_ok | fail_if_no_progress (with_reducible apply State.mk_ok) | split | dsimp +zetaDelta only

theorem State.cuLose_ok {κ : Keep} (s : State) (u : Nat) (hs : s.Kept κ) :
    State.Kept κ (State.cuLose s u) := by
  unfold State.cuLose
  repeat' first | with_reducible assumption | exact fun _ h => h | exact fun _ h => Mem.writes_wf _ _ _ _ h | exact fun _ _ => rfl | (intro _) | with_reducible apply ok_ite | with_reducible apply State.updCu_ok | with_reducible apply State.put_ok | fail_if_no_progress (with_reducible apply State.mk_ok) | split

theorem State.cuWindow_ok {κ : Keep} (s : State) (u off : Nat) (bs : List Byte) (hs : s.Kept κ) :
    State.Kept κ (State.cuWindow s u off bs) := by
  unfold State.cuWindow
  repeat' first | with_reducible assumption | exact fun _ h => h | exact fun _ h => Mem.writes_wf _ _ _ _ h | exact fun _ _ => rfl | (intro _) | with_reducible apply ok_ite | extract_lets | with_reducible apply State.updCu_ok | with_reducible apply State.put_ok | fail_if_no_progress (with_reducible apply State.mk_ok) | split | dsimp +zetaDelta only

theorem execCuWindowWrite_ok {κ : Keep} (p : Path) (u : Fin 16) (off : Fin 0x80000) (bs : List Byte) (s : State) (hs : s.Kept κ) :
    OutOk κ (execCuWindowWrite p u off bs s) := by
  unfold execCuWindowWrite
  repeat' first | with_reducible assumption | (intro _) | with_reducible apply OutOk.ite | with_reducible apply ok_ite | extract_lets | with_reducible apply State.gate_ok | with_reducible apply State.badAccess_ok | with_reducible apply State.cuWindow_ok | with_reducible apply OutOk.next | fail_if_no_progress (with_reducible apply State.mk_ok) | split | dsimp +zetaDelta only

theorem State.cuStart_ok {κ : Keep} (s : State) (u : Nat) (hs : s.Kept κ) :
    State.Kept κ (State.cuStart s u) := by
  unfold State.cuStart
  repeat' first | with_reducible assumption | (intro _) | with_reducible apply ok_ite | extract_lets | with_reducible apply State.satInc_ok | with_reducible apply State.cuPend_ok | fail_if_no_progress (with_reducible apply State.mk_ok) | split | dsimp +zetaDelta only

theorem State.cuGate_ok {κ : Keep} (s : State) (tg : Nat) (hs : s.Kept κ) :
    State.Kept κ (State.cuGate s tg) := by
  unfold State.cuGate
  repeat' first | with_reducible assumption | (intro _) | with_reducible apply ok_ite | with_reducible apply State.cuPend_ok | with_reducible apply foldl_ok | with_reducible apply foldl_ok_fst | with_reducible apply foldl_ok_snd | fail_if_no_progress (with_reducible apply State.mk_ok) | split

theorem execCuTimerExpiry_ok {κ : Keep} (u : Fin 16) (s : State) (hs : s.Kept κ) :
    OutOk κ (execCuTimerExpiry u s) := by
  unfold execCuTimerExpiry
  repeat' first | with_reducible assumption | exact fun _ h => h | exact fun _ h => Mem.writes_wf _ _ _ _ h | exact fun _ _ => rfl | (intro _) | with_reducible apply OutOk.ite | with_reducible apply ok_ite | extract_lets | with_reducible apply State.updCu_ok | with_reducible apply State.cuPend_ok | with_reducible apply OutOk.next | fail_if_no_progress (with_reducible apply State.mk_ok) | split | dsimp +zetaDelta only

theorem State.cuEnter_ok {κ : Keep} (s : State) (u c : Nat) (hs : s.Kept κ) :
    State.Kept κ (State.cuEnter s u c) := by
  unfold State.cuEnter
  repeat' first | with_reducible assumption | exact fun _ h => h | exact fun _ h => Mem.writes_wf _ _ _ _ h | exact fun _ _ => rfl | (intro _) | with_reducible apply ok_ite | extract_lets | with_reducible apply State.updCu_ok | with_reducible apply State.put_ok | with_reducible apply State.cuCycle_ok | fail_if_no_progress (with_reducible apply State.mk_ok) | split | dsimp +zetaDelta only

theorem State.cuWait_ok {κ : Keep} (s : State) (u : Nat) (n_ : Nat) (hs : s.Kept κ) :
    State.Kept κ (State.cuWait s u n_) := by
  induction n_ generalizing s u with
  | zero =>
    unfold State.cuWait
    repeat' first | with_reducible assumption | with_reducible apply ih | (intro _) | with_reducible apply ok_ite | with_reducible apply State.cuCycle_ok | fail_if_no_progress (with_reducible apply State.mk_ok) | split
  | succ n ih =>
    unfold State.cuWait
    repeat' first | with_reducible assumption | with_reducible apply ih | (intro _) | with_reducible apply ok_ite | with_reducible apply State.cuCycle_ok | fail_if_no_progress (with_reducible apply State.mk_ok) | split

theorem execEventEntry_ok {κ : Keep} (u : Fin 16) (waited : Nat) (fetch : LineRead) (s : State) (hs : s.Kept κ) :
    OutOk κ (execEventEntry u waited fetch s) := by
  unfold execEventEntry
  repeat' first | with_reducible assumption | (intro _) | with_reducible apply OutOk.ite | with_reducible apply ok_ite | extract_lets | with_reducible apply State.satInc_ok | with_reducible apply State.cuCycles_ok | with_reducible apply State.cuFault_ok | with_reducible apply State.cuEnter_ok | with_reducible apply State.cuWait_ok | with_reducible apply OutOk.next | fail_if_no_progress (with_reducible apply State.mk_ok) | split | dsimp +zetaDelta only

theorem execQrdCopyLanded_ok {κ : Keep} (u : Fin 16) (s : State) (hs : s.Kept κ) :
    OutOk κ (execQrdCopyLanded u s) := by
  unfold execQrdCopyLanded
  repeat' first | with_reducible assumption | exact fun _ h => h | exact fun _ h => Mem.writes_wf _ _ _ _ h | exact fun _ _ => rfl | (intro _) | with_reducible apply OutOk.ite | with_reducible apply ok_ite | extract_lets | with_reducible apply State.updCu_ok | with_reducible apply State.settleCuOff_ok | with_reducible apply OutOk.next | fail_if_no_progress (with_reducible apply State.mk_ok) | split | dsimp +zetaDelta only

theorem execSendDone_ok {κ : Keep} (u : Fin 16) (ecc : LineRead) (s : State) (hs : s.Kept κ) :
    OutOk κ (execSendDone u ecc s) := by
  unfold execSendDone
  repeat' first | with_reducible assumption | exact fun _ h => h | exact fun _ h => Mem.writes_wf _ _ _ _ h | exact fun _ _ => rfl | (intro _) | with_reducible apply OutOk.ite | with_reducible apply ok_ite | extract_lets | with_reducible apply State.updCu_ok | with_reducible apply State.satInc_ok | with_reducible apply State.admitBarge_ok | with_reducible apply State.settleCuOff_ok | with_reducible apply OutOk.next | fail_if_no_progress (with_reducible apply State.mk_ok) | split | dsimp +zetaDelta only | with_reducible apply ok_ite_snd | with_reducible apply ok_ite_fst | with_reducible apply id_ok

theorem State.loadData_ok {κ : Keep} (s : State) (o : Order) (hs : s.Kept κ) :
    State.Kept κ (State.loadData s o) := by
  unfold State.loadData
  repeat' first | with_reducible assumption | (intro _) | with_reducible apply ok_ite | with_reducible apply State.startRead_ok | fail_if_no_progress (with_reducible apply State.mk_ok) | split

theorem State.loadDone_ok {κ : Keep} (s : State) (o : Order) (hs : s.Kept κ) :
    State.Kept κ (State.loadDone s o) := by
  unfold State.loadDone
  repeat' first | with_reducible assumption | (intro _) | with_reducible apply ok_ite | extract_lets | with_reducible apply State.put_ok | with_reducible apply State.retireWith_ok | fail_if_no_progress (with_reducible apply State.mk_ok) | split | dsimp +zetaDelta only

theorem State.cuLoadAccept_ok {κ : Keep} (o : Order) (s : State) (hs : s.Kept κ) :
    State.Kept κ (State.cuLoadAccept o s) := by
  unfold State.cuLoadAccept
  repeat' first | with_reducible assumption | (intro _) | with_reducible apply ok_ite | extract_lets | with_reducible apply State.updOrder_ok | with_reducible apply State.retire_ok | with_reducible apply State.validate_ok | with_reducible apply State.startRead_ok | with_reducible apply State.loadData_ok | with_reducible apply State.loadDone_ok | fail_if_no_progress (with_reducible apply State.mk_ok) | split | dsimp +zetaDelta only

theorem execCuLoad_ok {κ : Keep} (s : State) (hs : s.Kept κ) :
    OutOk κ (execCuLoad s) := by
  unfold execCuLoad
  repeat' first | with_reducible assumption | (intro _) | with_reducible apply OutOk.ite | with_reducible apply ok_ite | with_reducible apply State.accept_ok | with_reducible apply State.cuLoadAccept_ok | with_reducible apply OutOk.next | fail_if_no_progress (with_reducible apply State.mk_ok) | split

theorem State.loadWrite_ok {κ : Keep} (s : State) (o : Order) (prog : Bool) (off : Nat) (bs : List Byte) (hs : s.Kept κ) :
    State.Kept κ (State.loadWrite s o prog off bs) := by
  unfold State.loadWrite
  repeat' first | with_reducible assumption | exact fun _ h => h | exact fun _ h => Mem.writes_wf _ _ _ _ h | exact fun _ _ => rfl | (intro _) | with_reducible apply ok_ite | extract_lets | with_reducible apply State.updCu_ok | with_reducible apply State.put_ok | with_reducible apply foldl_ok | with_reducible apply foldl_ok_fst | with_reducible apply foldl_ok_snd | fail_if_no_progress (with_reducible apply State.mk_ok) | split | dsimp +zetaDelta only

theorem State.loadArrived_ok {κ : Keep} (s : State) (o : Order) (r : HostRead) (hs : s.Kept κ) :
    State.Kept κ (State.loadArrived s o r) := by
  unfold State.loadArrived
  repeat' first | with_reducible assumption | (intro _) | with_reducible apply ok_ite | extract_lets | with_reducible apply State.updOrder_ok | with_reducible apply State.loadData_ok | with_reducible apply State.loadDone_ok | with_reducible apply State.loadWrite_ok | fail_if_no_progress (with_reducible apply State.mk_ok) | split | dsimp +zetaDelta only

theorem State.loadEnds_ok {κ : Keep} (s : State) (o : Order) (status : Nat) (hs : s.Kept κ) :
    State.Kept κ (State.loadEnds s o status) := by
  unfold State.loadEnds
  repeat' first | with_reducible assumption | (intro _) | with_reducible apply ok_ite | with_reducible apply State.retireWith_ok | fail_if_no_progress (with_reducible apply State.mk_ok) | split

theorem State.loadCancel_ok {κ : Keep} (s : State) (o : Order) (hs : s.Kept κ) :
    State.Kept κ (State.loadCancel s o) := by
  unfold State.loadCancel
  repeat' first | with_reducible assumption | (intro _) | with_reducible apply ok_ite | with_reducible apply State.retire_ok | with_reducible apply State.loadEnds_ok | fail_if_no_progress (with_reducible apply State.mk_ok) | split

theorem State.cuRunNow_ok {κ : Keep} (s : State) (o : Order) (late : Bool) (t : Nat) (hs : s.Kept κ) :
    State.Kept κ (State.cuRunNow s o late t) := by
  unfold State.cuRunNow
  repeat' first | with_reducible assumption | (intro _) | with_reducible apply ok_ite | extract_lets | with_reducible apply State.put_ok | with_reducible apply State.retireWith_ok | with_reducible apply State.retire_ok | with_reducible apply State.cuRunAt_ok | fail_if_no_progress (with_reducible apply State.mk_ok) | split | dsimp +zetaDelta only

theorem State.cuRunAccept_ok {κ : Keep} (o : Order) (s : State) (hs : s.Kept κ) :
    State.Kept κ (State.cuRunAccept o s) := by
  unfold State.cuRunAccept
  repeat' first | with_reducible assumption | (intro _) | with_reducible apply ok_ite | with_reducible apply State.validate_ok | with_reducible apply State.cuRunNow_ok | fail_if_no_progress (with_reducible apply State.mk_ok) | split

theorem execCuRun_ok {κ : Keep} (s : State) (hs : s.Kept κ) :
    OutOk κ (execCuRun s) := by
  unfold execCuRun
  repeat' first | with_reducible assumption | (intro _) | with_reducible apply OutOk.ite | with_reducible apply ok_ite | with_reducible apply State.accept_ok | with_reducible apply State.cuRunAccept_ok | with_reducible apply OutOk.next | fail_if_no_progress (with_reducible apply State.mk_ok) | split

theorem execCuRunDue_ok {κ : Keep} (ring index : Nat) (s : State) (hs : s.Kept κ) :
    OutOk κ (execCuRunDue ring index s) := by
  unfold execCuRunDue
  repeat' first | with_reducible assumption | (intro _) | with_reducible apply OutOk.ite | with_reducible apply ok_ite | with_reducible apply State.cuRunNow_ok | with_reducible apply OutOk.next | fail_if_no_progress (with_reducible apply State.mk_ok) | split

theorem State.cuGateRun_ok {κ : Keep} (s : State) (tg t : Nat) (hs : s.Kept κ) :
    State.Kept κ (State.cuGateRun s tg t) := by
  unfold State.cuGateRun
  repeat' first | with_reducible assumption | (intro _) | with_reducible apply ok_ite | with_reducible apply State.cuRunNow_ok | with_reducible apply foldl_ok | with_reducible apply foldl_ok_fst | with_reducible apply foldl_ok_snd | fail_if_no_progress (with_reducible apply State.mk_ok) | split

theorem State.cuStopNow_ok {κ : Keep} (s : State) (o : Order) (late : Bool) (hs : s.Kept κ) :
    State.Kept κ (State.cuStopNow s o late) := by
  unfold State.cuStopNow
  repeat' first | with_reducible assumption | (intro _) | with_reducible apply ok_ite | extract_lets | with_reducible apply State.updOrder_ok | with_reducible apply State.cuStopsDone_ok | with_reducible apply State.cuStopAt_ok | fail_if_no_progress (with_reducible apply State.mk_ok) | split | dsimp +zetaDelta only

theorem State.cuStopAccept_ok {κ : Keep} (o : Order) (s : State) (hs : s.Kept κ) :
    State.Kept κ (State.cuStopAccept o s) := by
  unfold State.cuStopAccept
  repeat' first | with_reducible assumption | (intro _) | with_reducible apply ok_ite | with_reducible apply State.validate_ok | with_reducible apply State.cuStopNow_ok | fail_if_no_progress (with_reducible apply State.mk_ok) | split

theorem execCuStop_ok {κ : Keep} (s : State) (hs : s.Kept κ) :
    OutOk κ (execCuStop s) := by
  unfold execCuStop
  repeat' first | with_reducible assumption | (intro _) | with_reducible apply OutOk.ite | with_reducible apply ok_ite | with_reducible apply State.accept_ok | with_reducible apply State.cuStopAccept_ok | with_reducible apply OutOk.next | fail_if_no_progress (with_reducible apply State.mk_ok) | split

theorem execCuStopDue_ok {κ : Keep} (ring index : Nat) (s : State) (hs : s.Kept κ) :
    OutOk κ (execCuStopDue ring index s) := by
  unfold execCuStopDue
  repeat' first | with_reducible assumption | (intro _) | with_reducible apply OutOk.ite | with_reducible apply ok_ite | with_reducible apply State.cuStopNow_ok | with_reducible apply OutOk.next | fail_if_no_progress (with_reducible apply State.mk_ok) | split

end Machine
end Sys2Proof
end

