-- ==== Sys2Proof/Laws/OkFlights.lean ====
section
/-!
SUPPORT. The canonical form is kept by every operation of Machine/Flights.lean.
-/

namespace Sys2Proof
namespace Machine

theorem State.enterArmed_ok {κ : Keep} (s : State) (f u : Nat) (hs : s.Kept κ) :
    State.Kept κ (State.enterArmed s f u) := by
  unfold State.enterArmed
  repeat' first | with_reducible assumption | (intro _) | with_reducible apply ok_ite | with_reducible apply State.updFlight_ok | with_reducible apply State.toChamber0_ok | fail_if_no_progress (with_reducible apply State.mk_ok) | split

theorem State.prepareFlight_ok {κ : Keep} (s : State) (f : Nat) (hs : s.Kept κ) :
    State.Kept κ (State.prepareFlight s f) := by
  unfold State.prepareFlight
  repeat' first | with_reducible assumption | (intro _) | with_reducible apply ok_ite | with_reducible apply State.put_ok | with_reducible apply State.gate_ok | with_reducible apply State.updFlight_ok | fail_if_no_progress (with_reducible apply State.mk_ok) | split

theorem State.flightErr_ok {κ : Keep} (s : State) (f : Nat) (hs : s.Kept κ) :
    State.Kept κ (State.flightErr s f) := by
  unfold State.flightErr
  repeat' first | with_reducible assumption | (intro _) | with_reducible apply ok_ite | with_reducible apply State.put_ok | fail_if_no_progress (with_reducible apply State.mk_ok) | split

theorem State.armFlight_ok {κ : Keep} (s : State) (f : Nat) (hs : s.Kept κ) :
    State.Kept κ (State.armFlight s f) := by
  unfold State.armFlight
  repeat' first | with_reducible assumption | (intro _) | with_reducible apply ok_ite | with_reducible apply State.enterArmed_ok | with_reducible apply State.prepareFlight_ok | with_reducible apply State.flightErr_ok | fail_if_no_progress (with_reducible apply State.mk_ok) | split

theorem execFlArm_ok {κ : Keep} (p : Path) (f : Fin 16) (s : State) (hs : s.Kept κ) :
    OutOk κ (execFlArm p f s) := by
  unfold execFlArm
  repeat' first | with_reducible assumption | (intro _) | with_reducible apply OutOk.ite | with_reducible apply ok_ite | with_reducible apply State.gateAction_ok | with_reducible apply State.armFlight_ok | with_reducible apply OutOk.next | fail_if_no_progress (with_reducible apply State.mk_ok) | split

theorem State.flightArmAccept_ok {κ : Keep} (o : Order) (s : State) (hs : s.Kept κ) :
    State.Kept κ (State.flightArmAccept o s) := by
  unfold State.flightArmAccept
  repeat' first | with_reducible assumption | (intro _) | with_reducible apply ok_ite | extract_lets | with_reducible apply State.put_ok | with_reducible apply State.gate_ok | with_reducible apply State.retireWith_ok | with_reducible apply State.retire_ok | with_reducible apply State.validate_ok | with_reducible apply State.updFlight_ok | with_reducible apply State.enterArmed_ok | with_reducible apply State.prepareFlight_ok | with_reducible apply State.flightErr_ok | fail_if_no_progress (with_reducible apply State.mk_ok) | split | dsimp +zetaDelta only

theorem execFlightArm_ok {κ : Keep} (s : State) (hs : s.Kept κ) :
    OutOk κ (execFlightArm s) := by
  unfold execFlightArm
  repeat' first | with_reducible assumption | (intro _) | with_reducible apply OutOk.ite | with_reducible apply ok_ite | with_reducible apply State.accept_ok | with_reducible apply State.flightArmAccept_ok | with_reducible apply OutOk.next | fail_if_no_progress (with_reducible apply State.mk_ok) | split

theorem State.armPending_ok {κ : Keep} (s : State) (f t : Nat) (hs : s.Kept κ) :
    State.Kept κ (State.armPending s f t) := by
  unfold State.armPending
  repeat' first | with_reducible assumption | (intro _) | with_reducible apply ok_ite | extract_lets | with_reducible apply State.gate_ok | with_reducible apply State.retireRef_ok | with_reducible apply State.updFlight_ok | with_reducible apply State.enterArmed_ok | fail_if_no_progress (with_reducible apply State.mk_ok) | split | dsimp +zetaDelta only

theorem execArmTimeReached_ok {κ : Keep} (f : Fin 16) (s : State) (hs : s.Kept κ) :
    OutOk κ (execArmTimeReached f s) := by
  unfold execArmTimeReached
  repeat' first | with_reducible assumption | (intro _) | with_reducible apply OutOk.ite | with_reducible apply ok_ite | with_reducible apply State.armPending_ok | with_reducible apply OutOk.next | fail_if_no_progress (with_reducible apply State.mk_ok) | split

theorem State.flightGate_ok {κ : Keep} (s : State) (tg t : Nat) (hs : s.Kept κ) :
    State.Kept κ (State.flightGate s tg t) := by
  unfold State.flightGate
  repeat' first | with_reducible assumption | (intro _) | with_reducible apply ok_ite | with_reducible apply State.gate_ok | with_reducible apply State.armPending_ok | with_reducible apply foldl_ok | with_reducible apply foldl_ok_fst | with_reducible apply foldl_ok_snd | fail_if_no_progress (with_reducible apply State.mk_ok) | split

theorem State.startCapture_ok {κ : Keep} (s : State) (f : Nat) (m : Barge) (hs : s.Kept κ) :
    State.Kept κ (State.startCapture s f m) := by
  unfold State.startCapture
  repeat' first | with_reducible assumption | (intro _) | with_reducible apply ok_ite | extract_lets | fail_if_no_progress (with_reducible apply State.mk_ok) | split | dsimp +zetaDelta only

theorem State.flightActions_ok {κ : Keep} (s : State) (f u stamp : Nat) (capt : Bool) (m : Barge) (hs : s.Kept κ) :
    State.Kept κ (State.flightActions s f u stamp capt m) := by
  unfold State.flightActions
  repeat' first | with_reducible assumption | (intro _) | with_reducible apply ok_ite | extract_lets | with_reducible apply State.release_ok | with_reducible apply State.sendRemote_ok | with_reducible apply State.driveTrigOut_ok | with_reducible apply State.driveIbus_ok | with_reducible apply State.cuStart_ok | with_reducible apply State.startCapture_ok | with_reducible apply foldl_ok | with_reducible apply foldl_ok_fst | with_reducible apply foldl_ok_snd | fail_if_no_progress (with_reducible apply State.mk_ok) | split | dsimp +zetaDelta only

theorem State.fire_ok {κ : Keep} (s : State) (f u stamp qual source : Nat) (forced : Bool) (hs : s.Kept κ) :
    State.Kept κ (State.fire s f u stamp qual source forced) := by
  unfold State.fire
  repeat' first | with_reducible assumption | (intro _) | with_reducible apply ok_ite | extract_lets | with_reducible apply State.put_ok | with_reducible apply State.inc_ok | with_reducible apply State.satInc_ok | with_reducible apply State.raise_ok | with_reducible apply State.updFlight_ok | with_reducible apply State.eventOccur_ok | with_reducible apply State.flightMark_ok | with_reducible apply State.releaseHeld_ok | with_reducible apply State.flightActions_ok | fail_if_no_progress (with_reducible apply State.mk_ok) | split | dsimp +zetaDelta only

theorem State.keepOccurrence_ok {κ : Keep} (s : State) (f u : Nat) (o : Occ) (hs : s.Kept κ) :
    State.Kept κ (State.keepOccurrence s f u o) := by
  unfold State.keepOccurrence
  repeat' first | with_reducible assumption | (intro _) | with_reducible apply ok_ite | with_reducible apply State.updFlight_ok | fail_if_no_progress (with_reducible apply State.mk_ok) | split

theorem State.chamberDone_ok {κ : Keep} (s : State) (f u : Nat) (o : Occ) (hs : s.Kept κ) :
    State.Kept κ (State.chamberDone s f u o) := by
  unfold State.chamberDone
  repeat' first | with_reducible assumption | (intro _) | with_reducible apply ok_ite | extract_lets | with_reducible apply State.put_ok | with_reducible apply State.updFlight_ok | with_reducible apply State.fire_ok | with_reducible apply State.keepOccurrence_ok | fail_if_no_progress (with_reducible apply State.mk_ok) | split | dsimp +zetaDelta only

theorem State.timeoutChamber_ok {κ : Keep} (s : State) (f u : Nat) (hs : s.Kept κ) :
    State.Kept κ (State.timeoutChamber s f u) := by
  unfold State.timeoutChamber
  repeat' first | with_reducible assumption | (intro _) | with_reducible apply ok_ite | extract_lets | with_reducible apply State.put_ok | with_reducible apply State.raiseInst_ok | with_reducible apply State.updFlight_ok | with_reducible apply State.toChamber0_ok | with_reducible apply State.releaseHeld_ok | with_reducible apply State.chamberDone_ok | fail_if_no_progress (with_reducible apply State.mk_ok) | split | dsimp +zetaDelta only

theorem State.flightDo_ok {κ : Keep} (s : State) (f u lim : Nat) (k : FlightDue) (hs : s.Kept κ) :
    State.Kept κ (State.flightDo s f u lim k) := by
  unfold State.flightDo
  repeat' first | with_reducible assumption | (intro _) | with_reducible apply ok_ite | with_reducible apply State.enterArmed_ok | with_reducible apply State.fire_ok | with_reducible apply State.keepOccurrence_ok | with_reducible apply State.chamberDone_ok | with_reducible apply State.timeoutChamber_ok | fail_if_no_progress (with_reducible apply State.mk_ok) | split

theorem State.flightUpTo_ok {κ : Keep} (s : State) (f c : Nat) (n_ : Nat) (hs : s.Kept κ) :
    State.Kept κ (State.flightUpTo s f c n_) := by
  induction n_ generalizing s f c with
  | zero =>
    unfold State.flightUpTo
    repeat' first | with_reducible assumption | with_reducible apply ih | (intro _) | with_reducible apply ok_ite | with_reducible apply State.flightDo_ok | fail_if_no_progress (with_reducible apply State.mk_ok) | split
  | succ n ih =>
    unfold State.flightUpTo
    repeat' first | with_reducible assumption | with_reducible apply ih | (intro _) | with_reducible apply ok_ite | with_reducible apply State.flightDo_ok | fail_if_no_progress (with_reducible apply State.mk_ok) | split

theorem State.flightTimer_ok {κ : Keep} (s : State) (f : Nat) (k : FlightDue) (hs : s.Kept κ) :
    State.Kept κ (State.flightTimer s f k) := by
  unfold State.flightTimer
  repeat' first | with_reducible assumption | (intro _) | with_reducible apply ok_ite | with_reducible apply State.flightUpTo_ok | fail_if_no_progress (with_reducible apply State.mk_ok) | split

theorem execChamberTimeout_ok {κ : Keep} (f : Fin 16) (s : State) (hs : s.Kept κ) :
    OutOk κ (execChamberTimeout f s) := by
  unfold execChamberTimeout
  repeat' first | with_reducible assumption | (intro _) | with_reducible apply OutOk.ite | with_reducible apply ok_ite | with_reducible apply State.flightTimer_ok | with_reducible apply OutOk.next | fail_if_no_progress (with_reducible apply State.mk_ok) | split

theorem execHoldoffEnd_ok {κ : Keep} (f : Fin 16) (s : State) (hs : s.Kept κ) :
    OutOk κ (execHoldoffEnd f s) := by
  unfold execHoldoffEnd
  repeat' first | with_reducible assumption | (intro _) | with_reducible apply OutOk.ite | with_reducible apply ok_ite | with_reducible apply State.flightTimer_ok | with_reducible apply OutOk.next | fail_if_no_progress (with_reducible apply State.mk_ok) | split

theorem execAutoTimeout_ok {κ : Keep} (f : Fin 16) (s : State) (hs : s.Kept κ) :
    OutOk κ (execAutoTimeout f s) := by
  unfold execAutoTimeout
  repeat' first | with_reducible assumption | (intro _) | with_reducible apply OutOk.ite | with_reducible apply ok_ite | with_reducible apply State.flightTimer_ok | with_reducible apply OutOk.next | fail_if_no_progress (with_reducible apply State.mk_ok) | split

theorem State.count_ok {κ : Keep} (s : State) (f u : Nat) (o : Occ) (hs : s.Kept κ) :
    State.Kept κ (State.count s f u o) := by
  unfold State.count
  repeat' first | with_reducible assumption | (intro _) | with_reducible apply ok_ite | with_reducible apply State.updFlight_ok | with_reducible apply State.keepOccurrence_ok | with_reducible apply State.chamberDone_ok | fail_if_no_progress (with_reducible apply State.mk_ok) | split

theorem State.arrive_ok {κ : Keep} (s : State) (o : Occ) (u f : Nat) (hs : s.Kept κ) :
    State.Kept κ (State.arrive s o u f) := by
  unfold State.arrive
  repeat' first | with_reducible assumption | (intro _) | with_reducible apply ok_ite | extract_lets | with_reducible apply State.put_ok | with_reducible apply State.flightUpTo_ok | with_reducible apply State.count_ok | fail_if_no_progress (with_reducible apply State.mk_ok) | split | dsimp +zetaDelta only

theorem execOccurrence_ok {κ : Keep} (sel : Fin 512) (sub : Fin 2621440) (s : State) (hs : s.Kept κ) :
    OutOk κ (execOccurrence sel sub s) := by
  unfold execOccurrence
  repeat' first | with_reducible assumption | (intro _) | with_reducible apply OutOk.ite | with_reducible apply ok_ite | extract_lets | with_reducible apply State.arrive_ok | with_reducible apply foldl_ok | with_reducible apply foldl_ok_fst | with_reducible apply foldl_ok_snd | with_reducible apply OutOk.next | fail_if_no_progress (with_reducible apply State.mk_ok) | split | dsimp +zetaDelta only

theorem State.cancelAt_ok {κ : Keep} (s : State) (f u : Nat) (hs : s.Kept κ) :
    State.Kept κ (State.cancelAt s f u) := by
  unfold State.cancelAt
  repeat' first | with_reducible assumption | (intro _) | with_reducible apply ok_ite | extract_lets | with_reducible apply State.put_ok | with_reducible apply State.gate_ok | with_reducible apply State.retireRef_ok | with_reducible apply State.updFlight_ok | with_reducible apply State.releaseHeld_ok | with_reducible apply State.flightUpTo_ok | fail_if_no_progress (with_reducible apply State.mk_ok) | split | dsimp +zetaDelta only

theorem State.cancelFlight_ok {κ : Keep} (s : State) (f : Nat) (hs : s.Kept κ) :
    State.Kept κ (State.cancelFlight s f) := by
  unfold State.cancelFlight
  repeat' first | with_reducible assumption | (intro _) | with_reducible apply ok_ite | with_reducible apply State.cancelAt_ok | fail_if_no_progress (with_reducible apply State.mk_ok) | split

theorem execFlCancel_ok {κ : Keep} (p : Path) (f : Fin 16) (s : State) (hs : s.Kept κ) :
    OutOk κ (execFlCancel p f s) := by
  unfold execFlCancel
  repeat' first | with_reducible assumption | (intro _) | with_reducible apply OutOk.ite | with_reducible apply ok_ite | with_reducible apply State.gateAction_ok | with_reducible apply State.cancelFlight_ok | with_reducible apply OutOk.next | fail_if_no_progress (with_reducible apply State.mk_ok) | split

theorem State.writeFlCtl_ok {κ : Keep} (s : State) (f : Nat) (w : Word) (hs : s.Kept κ) :
    State.Kept κ (State.writeFlCtl s f w) := by
  unfold State.writeFlCtl
  repeat' first | with_reducible assumption | (intro _) | with_reducible apply ok_ite | with_reducible apply State.armFlight_ok | with_reducible apply State.cancelFlight_ok | fail_if_no_progress (with_reducible apply State.mk_ok) | split

theorem State.writeFlight_ok {κ : Keep} (s : State) (f key : Nat) (w : Word) (hs : s.Kept κ) :
    State.Kept κ (State.writeFlight s f key w) := by
  unfold State.writeFlight
  repeat' first | with_reducible assumption | (intro _) | with_reducible apply ok_ite | with_reducible apply State.plainWrite_ok | with_reducible apply State.flightErr_ok | fail_if_no_progress (with_reducible apply State.mk_ok) | split

end Machine
end Sys2Proof
end

