-- ==== Sys2Proof/Laws/OkProbe.lean ====
section
/-!
SUPPORT. The canonical form is kept by every operation of Machine/Probe.lean.
-/

namespace Sys2Proof
namespace Machine

theorem State.updPLane_ok {κ : Keep} (s : State) (n : Nat) (f : ProbeLane → ProbeLane) (hs : s.Kept κ) :
    State.Kept κ (State.updPLane s n f) := by
  unfold State.updPLane
  repeat' first | with_reducible assumption | (intro _) | with_reducible apply ok_ite | with_reducible apply State.put_ok | fail_if_no_progress (with_reducible apply State.mk_ok) | split

theorem State.updPGroup_ok {κ : Keep} (s : State) (g : Nat) (f : ProbeGroup → ProbeGroup) (hs : s.Kept κ) :
    State.Kept κ (State.updPGroup s g f) := by
  unfold State.updPGroup
  repeat' first | with_reducible assumption | (intro _) | with_reducible apply ok_ite | with_reducible apply State.put_ok | fail_if_no_progress (with_reducible apply State.mk_ok) | split

theorem State.updPSet_ok {κ : Keep} (s : State) (k : Nat) (f : ProbeSet → ProbeSet) (hs : s.Kept κ) :
    State.Kept κ (State.updPSet s k f) := by
  unfold State.updPSet
  repeat' first | with_reducible assumption | (intro _) | with_reducible apply ok_ite | with_reducible apply State.put_ok | fail_if_no_progress (with_reducible apply State.mk_ok) | split

theorem State.updBp_ok {κ : Keep} (s : State) (b : Nat) (f : Bp → Bp) (hs : s.Kept κ) :
    State.Kept κ (State.updBp s b f) := by
  unfold State.updBp
  repeat' first | with_reducible assumption | (intro _) | with_reducible apply ok_ite | with_reducible apply State.put_ok | fail_if_no_progress (with_reducible apply State.mk_ok) | split

theorem State.sendOn_ok {κ : Keep} (s : State) (g lane type aux chan word stamp : Nat) (payload : List Byte) (hs : s.Kept κ) :
    State.Kept κ (State.sendOn s g lane type aux chan word stamp payload) := by
  unfold State.sendOn
  repeat' first | with_reducible assumption | (intro _) | with_reducible apply ok_ite | extract_lets | with_reducible apply State.send_ok | with_reducible apply State.updPGroup_ok | fail_if_no_progress (with_reducible apply State.mk_ok) | split | dsimp +zetaDelta only

theorem State.sendProbe_ok {κ : Keep} (s : State) (g type aux chan word stamp : Nat) (payload : List Byte) (hs : s.Kept κ) :
    State.Kept κ (State.sendProbe s g type aux chan word stamp payload) := by
  unfold State.sendProbe
  repeat' first | with_reducible assumption | (intro _) | with_reducible apply ok_ite | with_reducible apply State.updPGroup_ok | with_reducible apply State.sendOn_ok | fail_if_no_progress (with_reducible apply State.mk_ok) | split

theorem State.writeGroups_ok {κ : Keep} (s : State) (w : Word) (hs : s.Kept κ) :
    State.Kept κ (State.writeGroups s w) := by
  unfold State.writeGroups
  repeat' first | with_reducible assumption | (intro _) | with_reducible apply ok_ite | extract_lets | with_reducible apply State.put_ok | fail_if_no_progress (with_reducible apply State.mk_ok) | split | dsimp +zetaDelta only

theorem execProbeGroupsWrite_ok {κ : Keep} (p : Path) (w : Word) (s : State) (hs : s.Kept κ) :
    OutOk κ (execProbeGroupsWrite p w s) := by
  unfold execProbeGroupsWrite
  repeat' first | with_reducible assumption | (intro _) | with_reducible apply OutOk.ite | with_reducible apply ok_ite | with_reducible apply State.retainWrite_ok | with_reducible apply State.gate_ok | with_reducible apply State.writeGroups_ok | with_reducible apply OutOk.next | fail_if_no_progress (with_reducible apply State.mk_ok) | split

theorem State.trainLane_ok {κ : Keep} (s : State) (n : Nat) (hs : s.Kept κ) :
    State.Kept κ (State.trainLane s n) := by
  unfold State.trainLane
  repeat' first | with_reducible assumption | (intro _) | with_reducible apply ok_ite | with_reducible apply State.put_ok | with_reducible apply State.updPLane_ok | fail_if_no_progress (with_reducible apply State.mk_ok) | split

theorem State.groupSilent_ok {κ : Keep} (s : State) (g : Nat) (hs : s.Kept κ) :
    State.Kept κ (State.groupSilent s g) := by
  unfold State.groupSilent
  repeat' first | with_reducible assumption | (intro _) | with_reducible apply ok_ite | extract_lets | with_reducible apply State.put_ok | with_reducible apply State.updPGroup_ok | with_reducible apply foldl_ok | fail_if_no_progress (with_reducible apply State.mk_ok) | split

theorem State.laneLeft_ok {κ : Keep} (s : State) (n : Nat) (hs : s.Kept κ) :
    State.Kept κ (State.laneLeft s n) := by
  unfold State.laneLeft
  repeat' first | with_reducible assumption | (intro _) | with_reducible apply ok_ite | extract_lets | with_reducible apply State.groupSilent_ok | with_reducible apply State.raiseInst_ok | with_reducible apply State.sgAbort_ok | with_reducible apply State.updPLane_ok | with_reducible apply State.updPGroup_ok | with_reducible apply foldl_ok | with_reducible apply foldl_ok_fst | with_reducible apply foldl_ok_snd | fail_if_no_progress (with_reducible apply State.mk_ok) | split | dsimp +zetaDelta only

theorem State.writeLaneEn_ok {κ : Keep} (s : State) (n : Nat) (en : Bool) (hs : s.Kept κ) :
    State.Kept κ (State.writeLaneEn s n en) := by
  unfold State.writeLaneEn
  repeat' first | with_reducible assumption | (intro _) | with_reducible apply ok_ite | extract_lets | with_reducible apply State.put_ok | with_reducible apply State.trainLane_ok | with_reducible apply State.laneLeft_ok | fail_if_no_progress (with_reducible apply State.mk_ok) | split | dsimp +zetaDelta only

theorem execProbeLaneEnable_ok {κ : Keep} (p : Path) (n : Fin 16) (en : Bool) (s : State) (hs : s.Kept κ) :
    OutOk κ (execProbeLaneEnable p n en s) := by
  unfold execProbeLaneEnable
  repeat' first | with_reducible assumption | (intro _) | with_reducible apply OutOk.ite | with_reducible apply ok_ite | with_reducible apply State.gateField_ok | with_reducible apply State.writeLaneEn_ok | with_reducible apply OutOk.next | fail_if_no_progress (with_reducible apply State.mk_ok) | split

theorem execProbeTrainingTimeout_ok {κ : Keep} (n : Fin 16) (s : State) (hs : s.Kept κ) :
    OutOk κ (execProbeTrainingTimeout n s) := by
  unfold execProbeTrainingTimeout
  repeat' first | with_reducible assumption | (intro _) | with_reducible apply OutOk.ite | with_reducible apply ok_ite | extract_lets | with_reducible apply State.satInc_ok | with_reducible apply State.trainLane_ok | with_reducible apply OutOk.next | fail_if_no_progress (with_reducible apply State.mk_ok) | split | dsimp +zetaDelta only

theorem execProbeAdaptationDone_ok {κ : Keep} (n : Fin 16) (s : State) (hs : s.Kept κ) :
    OutOk κ (execProbeAdaptationDone n s) := by
  unfold execProbeAdaptationDone
  repeat' first | with_reducible assumption | (intro _) | with_reducible apply OutOk.ite | with_reducible apply ok_ite | extract_lets | with_reducible apply State.put_ok | with_reducible apply OutOk.next | fail_if_no_progress (with_reducible apply State.mk_ok) | split | dsimp +zetaDelta only

theorem State.sendHello_ok {κ : Keep} (s : State) (n : Nat) (hs : s.Kept κ) :
    State.Kept κ (State.sendHello s n) := by
  unfold State.sendHello
  repeat' first | with_reducible assumption | (intro _) | with_reducible apply ok_ite | with_reducible apply State.updPLane_ok | with_reducible apply State.sendOn_ok | fail_if_no_progress (with_reducible apply State.mk_ok) | split

theorem execProbeLaneAligned_ok {κ : Keep} (n : Fin 16) (s : State) (hs : s.Kept κ) :
    OutOk κ (execProbeLaneAligned n s) := by
  unfold execProbeLaneAligned
  repeat' first | with_reducible assumption | (intro _) | with_reducible apply OutOk.ite | with_reducible apply ok_ite | extract_lets | with_reducible apply State.put_ok | with_reducible apply State.sendHello_ok | with_reducible apply OutOk.next | fail_if_no_progress (with_reducible apply State.mk_ok) | split | dsimp +zetaDelta only

theorem execProbeHello_ok {κ : Keep} (n : Fin 16) (version : Fin 65536) (width : Fin 16) (pclk : Word) (s : State) (hs : s.Kept κ) :
    OutOk κ (execProbeHello n version width pclk s) := by
  unfold execProbeHello
  repeat' first | with_reducible assumption | (intro _) | with_reducible apply OutOk.ite | with_reducible apply ok_ite | extract_lets | with_reducible apply State.put_ok | with_reducible apply State.raiseInst_ok | with_reducible apply State.updPLane_ok | with_reducible apply OutOk.next | fail_if_no_progress (with_reducible apply State.mk_ok) | split | dsimp +zetaDelta only

theorem execProbeSyncLoss_ok {κ : Keep} (n : Fin 16) (headers : Bool) (s : State) (hs : s.Kept κ) :
    OutOk κ (execProbeSyncLoss n headers s) := by
  unfold execProbeSyncLoss
  repeat' first | with_reducible assumption | (intro _) | with_reducible apply OutOk.ite | with_reducible apply ok_ite | extract_lets | with_reducible apply State.put_ok | with_reducible apply State.satInc_ok | with_reducible apply State.raiseInst_ok | with_reducible apply State.trainLane_ok | with_reducible apply State.laneLeft_ok | with_reducible apply OutOk.next | fail_if_no_progress (with_reducible apply State.mk_ok) | split | dsimp +zetaDelta only

theorem State.lostFrame_ok {κ : Keep} (s : State) (n : Nat) (hs : s.Kept κ) :
    State.Kept κ (State.lostFrame s n) := by
  unfold State.lostFrame
  repeat' first | with_reducible assumption | (intro _) | with_reducible apply ok_ite | with_reducible apply State.satInc_ok | fail_if_no_progress (with_reducible apply State.mk_ok) | split

theorem execProbeFrameDropped_ok {κ : Keep} (n : Fin 16) (crc : Bool) (s : State) (hs : s.Kept κ) :
    OutOk κ (execProbeFrameDropped n crc s) := by
  unfold execProbeFrameDropped
  repeat' first | with_reducible assumption | (intro _) | with_reducible apply OutOk.ite | with_reducible apply ok_ite | extract_lets | with_reducible apply State.put_ok | with_reducible apply State.satInc_ok | with_reducible apply State.updPLane_ok | with_reducible apply State.lostFrame_ok | with_reducible apply OutOk.next | fail_if_no_progress (with_reducible apply State.mk_ok) | split | dsimp +zetaDelta only

theorem execProbeBeacon_ok {κ : Keep} (n : Fin 16) (s : State) (hs : s.Kept κ) :
    OutOk κ (execProbeBeacon n s) := by
  unfold execProbeBeacon
  repeat' first | with_reducible assumption | (intro _) | with_reducible apply OutOk.ite | with_reducible apply ok_ite | extract_lets | with_reducible apply State.updPLane_ok | with_reducible apply State.sendOn_ok | with_reducible apply State.sendHello_ok | with_reducible apply OutOk.next | fail_if_no_progress (with_reducible apply State.mk_ok) | split | dsimp +zetaDelta only

theorem State.vcStep_ok {κ : Keep} (s : State) (src num : Nat) (m : Barge) (hs : s.Kept κ) :
    State.Kept κ (State.vcStep s src num m) := by
  unfold State.vcStep
  repeat' first | with_reducible assumption | (intro _) | with_reducible apply ok_ite | extract_lets | with_reducible apply State.updPlan_ok | with_reducible apply State.poundStep_ok | with_reducible apply foldl_ok | with_reducible apply foldl_ok_fst | with_reducible apply foldl_ok_snd | fail_if_no_progress (with_reducible apply State.mk_ok) | split | dsimp +zetaDelta only

theorem State.vcRestart_ok {κ : Keep} (s : State) (src num : Nat) (hs : s.Kept κ) :
    State.Kept κ (State.vcRestart s src num) := by
  unfold State.vcRestart
  repeat' first | with_reducible assumption | (intro _) | with_reducible apply ok_ite | with_reducible apply State.updPlan_ok | with_reducible apply foldl_ok | with_reducible apply foldl_ok_fst | with_reducible apply foldl_ok_snd | fail_if_no_progress (with_reducible apply State.mk_ok) | split

theorem State.takeVcs_ok {κ : Keep} (s : State) (n : Nat) (f : ProbeFrame) (hs : s.Kept κ) :
    State.Kept κ (State.takeVcs s n f) := by
  unfold State.takeVcs
  repeat' first | with_reducible assumption | (intro _) | with_reducible apply ok_ite | extract_lets | with_reducible apply State.put_ok | with_reducible apply State.inc_ok | with_reducible apply State.raiseInst_ok | with_reducible apply State.updVc_ok | with_reducible apply State.closeFill_ok | with_reducible apply State.releaseSample_ok | with_reducible apply State.markSource_ok | with_reducible apply State.lostFrame_ok | with_reducible apply State.vcStep_ok | with_reducible apply State.vcRestart_ok | with_reducible apply foldl_ok | with_reducible apply foldl_ok_fst | with_reducible apply foldl_ok_snd | fail_if_no_progress (with_reducible apply State.mk_ok) | split | dsimp +zetaDelta only | with_reducible apply ok_ite_snd | with_reducible apply ok_ite_fst | with_reducible apply id_ok

theorem State.writeVcCfg_ok {κ : Keep} (s : State) (v : Nat) (w : Word) (hs : s.Kept κ) :
    State.Kept κ (State.writeVcCfg s v w) := by
  unfold State.writeVcCfg
  repeat' first | with_reducible assumption | (intro _) | with_reducible apply ok_ite | extract_lets | with_reducible apply State.put_ok | with_reducible apply State.plainWrite_ok | with_reducible apply State.updSource_ok | with_reducible apply State.updVc_ok | with_reducible apply State.closeFill_ok | with_reducible apply foldl_ok | with_reducible apply foldl_ok_fst | with_reducible apply foldl_ok_snd | fail_if_no_progress (with_reducible apply State.mk_ok) | split | dsimp +zetaDelta only

theorem execVcEnable_ok {κ : Keep} (p : Path) (v : Fin 8) (w : Word) (s : State) (hs : s.Kept κ) :
    OutOk κ (execVcEnable p v w s) := by
  unfold execVcEnable
  repeat' first | with_reducible assumption | (intro _) | with_reducible apply OutOk.ite | with_reducible apply ok_ite | with_reducible apply State.retainWrite_ok | with_reducible apply State.gate_ok | with_reducible apply State.writeVcCfg_ok | with_reducible apply OutOk.next | fail_if_no_progress (with_reducible apply State.mk_ok) | split

theorem State.writeVcRate_ok {κ : Keep} (s : State) (v : Nat) (w : Word) (hs : s.Kept κ) :
    State.Kept κ (State.writeVcRate s v w) := by
  unfold State.writeVcRate
  repeat' first | with_reducible assumption | (intro _) | with_reducible apply ok_ite | with_reducible apply State.put_ok | with_reducible apply State.plainWrite_ok | fail_if_no_progress (with_reducible apply State.mk_ok) | split

theorem State.offerSet_ok {κ : Keep} (s : State) (k : Nat) (b : Barge) (hs : s.Kept κ) :
    State.Kept κ (State.offerSet s k b) := by
  unfold State.offerSet
  repeat' first | with_reducible assumption | (intro _) | with_reducible apply ok_ite | extract_lets | with_reducible apply State.offer_ok | with_reducible apply State.updPSet_ok | fail_if_no_progress (with_reducible apply State.mk_ok) | split | dsimp +zetaDelta only

theorem State.closeSet_ok {κ : Keep} (s : State) (k : Nat) (hs : s.Kept κ) :
    State.Kept κ (State.closeSet s k) := by
  unfold State.closeSet
  repeat' first | with_reducible assumption | (intro _) | with_reducible apply ok_ite | extract_lets | with_reducible apply State.updPSet_ok | with_reducible apply State.offerSet_ok | fail_if_no_progress (with_reducible apply State.mk_ok) | split | dsimp +zetaDelta only

theorem execProbeBargeClose_ok {κ : Keep} (set : Fin 16) (s : State) (hs : s.Kept κ) :
    OutOk κ (execProbeBargeClose set s) := by
  unfold execProbeBargeClose
  repeat' first | with_reducible assumption | (intro _) | with_reducible apply OutOk.ite | with_reducible apply ok_ite | extract_lets | with_reducible apply State.closeSet_ok | with_reducible apply OutOk.next | fail_if_no_progress (with_reducible apply State.mk_ok) | split | dsimp +zetaDelta only

theorem State.takeRow_ok {κ : Keep} (s : State) (k : Nat) (row : List Byte) (stamp : Nat) (hs : s.Kept κ) :
    State.Kept κ (State.takeRow s k row stamp) := by
  unfold State.takeRow
  repeat' first | with_reducible assumption | (intro _) | with_reducible apply ok_ite | extract_lets | with_reducible apply State.inc_ok | with_reducible apply State.updPSet_ok | with_reducible apply State.closeSet_ok | fail_if_no_progress (with_reducible apply State.mk_ok) | split | dsimp +zetaDelta only

theorem State.takeNets_ok {κ : Keep} (s : State) (n : Nat) (f : ProbeFrame) (hs : s.Kept κ) :
    State.Kept κ (State.takeNets s n f) := by
  unfold State.takeNets
  repeat' first | with_reducible assumption | (intro _) | with_reducible apply ok_ite | extract_lets | with_reducible apply State.updPSet_ok | with_reducible apply State.lostFrame_ok | with_reducible apply State.offerSet_ok | with_reducible apply State.closeSet_ok | with_reducible apply State.takeRow_ok | with_reducible apply foldl_ok | with_reducible apply foldl_ok_fst | with_reducible apply foldl_ok_snd | fail_if_no_progress (with_reducible apply State.mk_ok) | split | dsimp +zetaDelta only | with_reducible apply ok_ite_snd | with_reducible apply ok_ite_fst | with_reducible apply id_ok

theorem State.takeCredit_ok {κ : Keep} (s : State) (n : Nat) (f : ProbeFrame) (hs : s.Kept κ) :
    State.Kept κ (State.takeCredit s n f) := by
  unfold State.takeCredit
  repeat' first | with_reducible assumption | (intro _) | with_reducible apply ok_ite | extract_lets | with_reducible apply State.put_ok | with_reducible apply State.updBp_ok | with_reducible apply foldl_ok | with_reducible apply foldl_ok_fst | with_reducible apply foldl_ok_snd | fail_if_no_progress (with_reducible apply State.mk_ok) | split | dsimp +zetaDelta only

theorem State.takeAck_ok {κ : Keep} (s : State) (f : ProbeFrame) (hs : s.Kept κ) :
    State.Kept κ (State.takeAck s f) := by
  unfold State.takeAck
  repeat' first | with_reducible assumption | (intro _) | with_reducible apply ok_ite | extract_lets | with_reducible apply State.put_ok | with_reducible apply State.retireRef_ok | with_reducible apply State.updPSet_ok | with_reducible apply State.closeSet_ok | with_reducible apply foldl_ok | with_reducible apply foldl_ok_fst | with_reducible apply foldl_ok_snd | fail_if_no_progress (with_reducible apply State.mk_ok) | split | dsimp +zetaDelta only

theorem State.takeFrame_ok {κ : Keep} (s : State) (type lane : Nat) (f : ProbeFrame) (hs : s.Kept κ) :
    State.Kept κ (State.takeFrame s type lane f) := by
  unfold State.takeFrame
  repeat' first | with_reducible assumption | (intro _) | with_reducible apply ok_ite | with_reducible apply State.lostFrame_ok | with_reducible apply State.takeVcs_ok | with_reducible apply State.takeNets_ok | with_reducible apply State.takeCredit_ok | with_reducible apply State.takeAck_ok | fail_if_no_progress (with_reducible apply State.mk_ok) | split

theorem State.drainWindow_ok {κ : Keep} (s : State) (g : Nat) (n_ : Nat) (hs : s.Kept κ) :
    State.Kept κ (State.drainWindow s g n_) := by
  induction n_ generalizing s g with
  | zero =>
    unfold State.drainWindow
    repeat' first | with_reducible assumption | with_reducible apply ih | (intro _) | with_reducible apply ok_ite | extract_lets | with_reducible apply State.updPGroup_ok | with_reducible apply State.takeFrame_ok | fail_if_no_progress (with_reducible apply State.mk_ok) | split | dsimp +zetaDelta only
  | succ n ih =>
    unfold State.drainWindow
    repeat' first | with_reducible assumption | with_reducible apply ih | (intro _) | with_reducible apply ok_ite | extract_lets | with_reducible apply State.updPGroup_ok | with_reducible apply State.takeFrame_ok | fail_if_no_progress (with_reducible apply State.mk_ok) | split | dsimp +zetaDelta only

theorem State.moveWindow_ok {κ : Keep} (s : State) (g lane : Nat) (n_ : Nat) (hs : s.Kept κ) :
    State.Kept κ (State.moveWindow s g lane n_) := by
  induction n_ generalizing s g lane with
  | zero =>
    unfold State.moveWindow
    repeat' first | with_reducible assumption | with_reducible apply ih | (intro _) | with_reducible apply ok_ite | extract_lets | with_reducible apply State.updPGroup_ok | with_reducible apply State.lostFrame_ok | with_reducible apply State.takeFrame_ok | fail_if_no_progress (with_reducible apply State.mk_ok) | split | dsimp +zetaDelta only
  | succ n ih =>
    unfold State.moveWindow
    repeat' first | with_reducible assumption | with_reducible apply ih | (intro _) | with_reducible apply ok_ite | extract_lets | with_reducible apply State.updPGroup_ok | with_reducible apply State.lostFrame_ok | with_reducible apply State.takeFrame_ok | fail_if_no_progress (with_reducible apply State.mk_ok) | split | dsimp +zetaDelta only

theorem State.rxFrame_ok {κ : Keep} (s : State) (type n : Nat) (f : ProbeFrame) (hs : s.Kept κ) :
    State.Kept κ (State.rxFrame s type n f) := by
  unfold State.rxFrame
  repeat' first | with_reducible assumption | (intro _) | with_reducible apply ok_ite | extract_lets | with_reducible apply State.updPGroup_ok | with_reducible apply State.lostFrame_ok | with_reducible apply State.drainWindow_ok | with_reducible apply State.moveWindow_ok | fail_if_no_progress (with_reducible apply State.mk_ok) | split | dsimp +zetaDelta only

theorem execFrameLost_ok {κ : Keep} (n : Fin 16) (s : State) (hs : s.Kept κ) :
    OutOk κ (execFrameLost n s) := by
  unfold execFrameLost
  repeat' first | with_reducible assumption | (intro _) | with_reducible apply OutOk.ite | with_reducible apply ok_ite | extract_lets | with_reducible apply State.updPGroup_ok | with_reducible apply State.lostFrame_ok | with_reducible apply State.drainWindow_ok | with_reducible apply OutOk.next | fail_if_no_progress (with_reducible apply State.mk_ok) | split | dsimp +zetaDelta only

theorem execEchoFrame_ok {κ : Keep} (n : Fin 16) (f : ProbeFrame) (sub : Fin 2621440) (turnaround : Nat) (s : State) (hs : s.Kept κ) :
    OutOk κ (execEchoFrame n f sub turnaround s) := by
  unfold execEchoFrame
  repeat' first | with_reducible assumption | (intro _) | with_reducible apply OutOk.ite | with_reducible apply ok_ite | extract_lets | with_reducible apply State.put_ok | with_reducible apply State.updPLane_ok | with_reducible apply State.lostFrame_ok | with_reducible apply State.rxFrame_ok | with_reducible apply OutOk.next | fail_if_no_progress (with_reducible apply State.mk_ok) | split | dsimp +zetaDelta only | with_reducible apply ok_ite_snd | with_reducible apply ok_ite_fst | with_reducible apply id_ok

theorem execCreditFrame_ok {κ : Keep} (n : Fin 16) (f : ProbeFrame) (s : State) (hs : s.Kept κ) :
    OutOk κ (execCreditFrame n f s) := by
  unfold execCreditFrame
  repeat' first | with_reducible assumption | (intro _) | with_reducible apply OutOk.ite | with_reducible apply ok_ite | with_reducible apply State.rxFrame_ok | with_reducible apply OutOk.next | fail_if_no_progress (with_reducible apply State.mk_ok) | split

theorem execVcsFrame_ok {κ : Keep} (n : Fin 16) (f : ProbeFrame) (s : State) (hs : s.Kept κ) :
    OutOk κ (execVcsFrame n f s) := by
  unfold execVcsFrame
  repeat' first | with_reducible assumption | (intro _) | with_reducible apply OutOk.ite | with_reducible apply ok_ite | with_reducible apply State.rxFrame_ok | with_reducible apply OutOk.next | fail_if_no_progress (with_reducible apply State.mk_ok) | split

theorem execNetsFrame_ok {κ : Keep} (n : Fin 16) (f : ProbeFrame) (s : State) (hs : s.Kept κ) :
    OutOk κ (execNetsFrame n f s) := by
  unfold execNetsFrame
  repeat' first | with_reducible assumption | (intro _) | with_reducible apply OutOk.ite | with_reducible apply ok_ite | with_reducible apply State.rxFrame_ok | with_reducible apply OutOk.next | fail_if_no_progress (with_reducible apply State.mk_ok) | split

theorem execSubAckFrame_ok {κ : Keep} (n : Fin 16) (f : ProbeFrame) (s : State) (hs : s.Kept κ) :
    OutOk κ (execSubAckFrame n f s) := by
  unfold execSubAckFrame
  repeat' first | with_reducible assumption | (intro _) | with_reducible apply OutOk.ite | with_reducible apply ok_ite | with_reducible apply State.rxFrame_ok | with_reducible apply OutOk.next | fail_if_no_progress (with_reducible apply State.mk_ok) | split

theorem State.freeSent_ok {κ : Keep} (s : State) (b : QBarge) (done : Nat) (hs : s.Kept κ) :
    State.Kept κ (State.freeSent s b done) := by
  unfold State.freeSent
  repeat' first | with_reducible assumption | (intro _) | with_reducible apply ok_ite | extract_lets | with_reducible apply State.freeCells_ok | fail_if_no_progress (with_reducible apply State.mk_ok) | split | dsimp +zetaDelta only

theorem execBridgeSend_ok {κ : Keep} (b : Fin 8) (s : State) (hs : s.Kept κ) :
    OutOk κ (execBridgeSend b s) := by
  unfold execBridgeSend
  repeat' first | with_reducible assumption | (intro _) | with_reducible apply OutOk.ite | with_reducible apply ok_ite | extract_lets | with_reducible apply State.put_ok | with_reducible apply State.inc_ok | with_reducible apply State.raiseInst_ok | with_reducible apply State.freeCells_ok | with_reducible apply State.count_ok | with_reducible apply State.updBp_ok | with_reducible apply State.sendProbe_ok | with_reducible apply State.freeSent_ok | with_reducible apply OutOk.next | fail_if_no_progress (with_reducible apply State.mk_ok) | split | dsimp +zetaDelta only

theorem State.writeBpCfg_ok {κ : Keep} (s : State) (b : Nat) (w : Word) (hs : s.Kept κ) :
    State.Kept κ (State.writeBpCfg s b w) := by
  unfold State.writeBpCfg
  repeat' first | with_reducible assumption | (intro _) | with_reducible apply ok_ite | extract_lets | with_reducible apply State.put_ok | with_reducible apply State.plainWrite_ok | with_reducible apply State.bindQueue?_ok | with_reducible apply State.unbindQueue_ok | with_reducible apply State.updBp_ok | fail_if_no_progress (with_reducible apply State.mk_ok) | split | dsimp +zetaDelta only | with_reducible refine OptOk.of_some (State.bindQueue?_ok _ _ _ _ ?_) _ (by with_reducible assumption)

theorem execBpEnable_ok {κ : Keep} (p : Path) (b : Fin 8) (w : Word) (s : State) (hs : s.Kept κ) :
    OutOk κ (execBpEnable p b w s) := by
  unfold execBpEnable
  repeat' first | with_reducible assumption | (intro _) | with_reducible apply OutOk.ite | with_reducible apply ok_ite | with_reducible apply State.retainWrite_ok | with_reducible apply State.gate_ok | with_reducible apply State.writeBpCfg_ok | with_reducible apply OutOk.next | fail_if_no_progress (with_reducible apply State.mk_ok) | split

theorem State.writeEgCfg_ok {κ : Keep} (s : State) (k : Nat) (w : Word) (hs : s.Kept κ) :
    State.Kept κ (State.writeEgCfg s k w) := by
  unfold State.writeEgCfg
  repeat' first | with_reducible assumption | (intro _) | with_reducible apply ok_ite | extract_lets | with_reducible apply State.put_ok | with_reducible apply State.plainWrite_ok | fail_if_no_progress (with_reducible apply State.mk_ok) | split | dsimp +zetaDelta only

theorem execEgEnable_ok {κ : Keep} (p : Path) (g : Fin 4) (w : Word) (s : State) (hs : s.Kept κ) :
    OutOk κ (execEgEnable p g w s) := by
  unfold execEgEnable
  repeat' first | with_reducible assumption | (intro _) | with_reducible apply OutOk.ite | with_reducible apply ok_ite | with_reducible apply State.retainWrite_ok | with_reducible apply State.gate_ok | with_reducible apply State.writeEgCfg_ok | with_reducible apply OutOk.next | fail_if_no_progress (with_reducible apply State.mk_ok) | split

theorem execStimFrameSend_ok {κ : Keep} (g : Fin 4) (s : State) (hs : s.Kept κ) :
    OutOk κ (execStimFrameSend g s) := by
  unfold execStimFrameSend
  repeat' first | with_reducible assumption | (intro _) | with_reducible apply OutOk.ite | with_reducible apply ok_ite | extract_lets | with_reducible apply State.satInc_ok | with_reducible apply State.raiseInst_ok | with_reducible apply State.updSg_ok | with_reducible apply State.count_ok | with_reducible apply State.sendProbe_ok | with_reducible apply OutOk.next | fail_if_no_progress (with_reducible apply State.mk_ok) | split | dsimp +zetaDelta only

theorem State.probeCatLoadAccept_ok {κ : Keep} (o : Order) (s : State) (hs : s.Kept κ) :
    State.Kept κ (State.probeCatLoadAccept o s) := by
  unfold State.probeCatLoadAccept
  repeat' first | with_reducible assumption | (intro _) | with_reducible apply ok_ite | extract_lets | with_reducible apply State.updOrder_ok | with_reducible apply State.retire_ok | with_reducible apply State.validate_ok | with_reducible apply State.startRead_ok | with_reducible apply State.count_ok | fail_if_no_progress (with_reducible apply State.mk_ok) | split | dsimp +zetaDelta only

theorem execProbeCatLoad_ok {κ : Keep} (s : State) (hs : s.Kept κ) :
    OutOk κ (execProbeCatLoad s) := by
  unfold execProbeCatLoad
  repeat' first | with_reducible assumption | (intro _) | with_reducible apply OutOk.ite | with_reducible apply ok_ite | with_reducible apply State.accept_ok | with_reducible apply State.probeCatLoadAccept_ok | with_reducible apply OutOk.next | fail_if_no_progress (with_reducible apply State.mk_ok) | split

theorem State.catArrived_ok {κ : Keep} (s : State) (o : Order) (r : HostRead) (hs : s.Kept κ) :
    State.Kept κ (State.catArrived s o r) := by
  unfold State.catArrived
  repeat' first | with_reducible assumption | (intro _) | with_reducible apply ok_ite | extract_lets | with_reducible apply State.put_ok | with_reducible apply State.updOrder_ok | with_reducible apply State.retireWith_ok | with_reducible apply State.retire_ok | with_reducible apply State.count_ok | with_reducible apply foldl_ok | with_reducible apply foldl_ok_fst | with_reducible apply foldl_ok_snd | fail_if_no_progress (with_reducible apply State.mk_ok) | split | dsimp +zetaDelta only

theorem State.catCancel_ok {κ : Keep} (s : State) (o : Order) (hs : s.Kept κ) :
    State.Kept κ (State.catCancel s o) := by
  unfold State.catCancel
  repeat' first | with_reducible assumption | (intro _) | with_reducible apply ok_ite | with_reducible apply State.retireWith_ok | with_reducible apply State.retire_ok | fail_if_no_progress (with_reducible apply State.mk_ok) | split

theorem State.sendSub_ok {κ : Keep} (s : State) (o : Order) (nets : List Nat) (hs : s.Kept κ) :
    State.Kept κ (State.sendSub s o nets) := by
  unfold State.sendSub
  repeat' first | with_reducible assumption | (intro _) | with_reducible apply ok_ite | extract_lets | with_reducible apply State.updOrder_ok | with_reducible apply State.retire_ok | with_reducible apply State.updPSet_ok | with_reducible apply State.sendProbe_ok | with_reducible apply foldl_ok | with_reducible apply foldl_ok_fst | with_reducible apply foldl_ok_snd | fail_if_no_progress (with_reducible apply State.mk_ok) | split | dsimp +zetaDelta only

theorem State.subTable_ok {κ : Keep} (s : State) (o : Order) (bs : List Byte) (hs : s.Kept κ) :
    State.Kept κ (State.subTable s o bs) := by
  unfold State.subTable
  repeat' first | with_reducible assumption | (intro _) | with_reducible apply ok_ite | extract_lets | with_reducible apply State.retire_ok | with_reducible apply State.sendSub_ok | with_reducible apply foldl_ok | with_reducible apply foldl_ok_fst | with_reducible apply foldl_ok_snd | fail_if_no_progress (with_reducible apply State.mk_ok) | split | dsimp +zetaDelta only

theorem State.probeSubAccept_ok {κ : Keep} (o : Order) (s : State) (hs : s.Kept κ) :
    State.Kept κ (State.probeSubAccept o s) := by
  unfold State.probeSubAccept
  repeat' first | with_reducible assumption | (intro _) | with_reducible apply ok_ite | extract_lets | with_reducible apply State.validate_ok | with_reducible apply State.startRead_ok | with_reducible apply State.sendSub_ok | fail_if_no_progress (with_reducible apply State.mk_ok) | split | dsimp +zetaDelta only

theorem execProbeSub_ok {κ : Keep} (s : State) (hs : s.Kept κ) :
    OutOk κ (execProbeSub s) := by
  unfold execProbeSub
  repeat' first | with_reducible assumption | (intro _) | with_reducible apply OutOk.ite | with_reducible apply ok_ite | with_reducible apply State.accept_ok | with_reducible apply State.probeSubAccept_ok | with_reducible apply OutOk.next | fail_if_no_progress (with_reducible apply State.mk_ok) | split

theorem execSubAckTimeout_ok {κ : Keep} (ring index : Nat) (s : State) (hs : s.Kept κ) :
    OutOk κ (execSubAckTimeout ring index s) := by
  unfold execSubAckTimeout
  repeat' first | with_reducible assumption | (intro _) | with_reducible apply OutOk.ite | with_reducible apply ok_ite | with_reducible apply State.retireRef_ok | with_reducible apply OutOk.next | fail_if_no_progress (with_reducible apply State.mk_ok) | split

theorem State.subCancel_ok {κ : Keep} (s : State) (o : Order) (hs : s.Kept κ) :
    State.Kept κ (State.subCancel s o).2 := by
  unfold State.subCancel
  repeat' first | with_reducible assumption | with_reducible apply ok_ite_fst | with_reducible apply ok_ite_snd | fail_if_no_progress (with_reducible refine mk_ok_snd rfl ?_) | fail_if_no_progress (with_reducible refine mk_ok_fst rfl ?_) | fail_if_no_progress (with_reducible refine mk_ok_snd_snd rfl ?_) | (intro _) | with_reducible apply ok_ite | with_reducible apply State.retire_ok | fail_if_no_progress (with_reducible apply State.mk_ok) | split

theorem State.probeStep_ok {κ : Keep} (s : State) (d : Int) (hs : s.Kept κ) :
    State.Kept κ (State.probeStep s d) := by
  unfold State.probeStep
  repeat' first | with_reducible assumption | (intro _) | with_reducible apply ok_ite | extract_lets | with_reducible apply State.updVc_ok | with_reducible apply foldl_ok | with_reducible apply foldl_ok_fst | with_reducible apply foldl_ok_snd | fail_if_no_progress (with_reducible apply State.mk_ok) | split | dsimp +zetaDelta only | with_reducible apply ok_ite_snd | with_reducible apply ok_ite_fst | with_reducible apply id_ok

end Machine
end Sys2Proof
end

