-- ==== Sys2Proof/Laws/OkTimeStep.lean ====
section
/-!
SUPPORT. The canonical form is kept by every operation of Machine/TimeStep.lean.
-/

namespace Sys2Proof
namespace Machine

theorem State.stepSource_ok {κ : Keep} (s : State) (src : Nat) (d : Int) (hs : s.Kept κ) :
    State.Kept κ (State.stepSource s src d) := by
  unfold State.stepSource
  repeat' first | with_reducible assumption | (intro _) | with_reducible apply ok_ite | extract_lets | with_reducible apply State.updSource_ok | with_reducible apply State.updPlan_ok | with_reducible apply foldl_ok | with_reducible apply foldl_ok_fst | with_reducible apply foldl_ok_snd | fail_if_no_progress (with_reducible apply State.mk_ok) | split | dsimp +zetaDelta only

theorem State.rebaseAll_ok {κ : Keep} (s : State) (old : Nat) (d : Int) (hs : s.Kept κ) :
    State.Kept κ (State.rebaseAll s old d) := by
  unfold State.rebaseAll
  repeat' first | with_reducible assumption | (intro _) | with_reducible apply ok_ite | extract_lets | fail_if_no_progress (with_reducible apply State.mk_ok) | split | dsimp +zetaDelta only | with_reducible apply ok_ite_snd | with_reducible apply ok_ite_fst | with_reducible apply id_ok

theorem State.applyStep_ok {κ : Keep} (s : State) (d : Int) (hs : s.Kept κ) :
    State.Kept κ (State.applyStep s d) := by
  unfold State.applyStep
  repeat' first | with_reducible assumption | (intro _) | with_reducible apply ok_ite | extract_lets | with_reducible apply State.push_ok | with_reducible apply State.updReam_ok | with_reducible apply State.updFlight_ok | with_reducible apply State.sgRetime_ok | with_reducible apply State.reanchor_ok | with_reducible apply State.tgPassed_ok | with_reducible apply State.tdcStep_ok | with_reducible apply State.probeStep_ok | with_reducible apply State.stepSource_ok | with_reducible apply State.rebaseAll_ok | with_reducible apply foldl_ok | with_reducible apply foldl_ok_fst | with_reducible apply foldl_ok_snd | fail_if_no_progress (with_reducible apply State.mk_ok) | split | dsimp +zetaDelta only

theorem execStepTick_ok {κ : Keep} (s : State) (hs : s.Kept κ) :
    OutOk κ (execStepTick s) := by
  unfold execStepTick
  repeat' first | with_reducible assumption | (intro _) | with_reducible apply OutOk.ite | with_reducible apply ok_ite | extract_lets | with_reducible apply State.put_ok | with_reducible apply State.retireRef_ok | with_reducible apply State.applyStep_ok | with_reducible apply OutOk.next | fail_if_no_progress (with_reducible apply State.mk_ok) | split | dsimp +zetaDelta only | with_reducible apply ok_ite_snd | with_reducible apply ok_ite_fst | with_reducible apply id_ok

theorem State.echo_ok {κ : Keep} (s : State) (l roundTrip : Nat) (hs : s.Kept κ) :
    State.Kept κ (State.echo s l roundTrip) := by
  unfold State.echo
  repeat' first | with_reducible assumption | (intro _) | with_reducible apply ok_ite | with_reducible apply State.put_ok | fail_if_no_progress (with_reducible apply State.mk_ok) | split

theorem execTimeBeaconSend_ok {κ : Keep} (echoes : List (Fin 6 × Nat)) (s : State) (hs : s.Kept κ) :
    OutOk κ (execTimeBeaconSend echoes s) := by
  unfold execTimeBeaconSend
  repeat' first | with_reducible assumption | (intro _) | with_reducible apply OutOk.ite | with_reducible apply ok_ite | extract_lets | with_reducible apply State.send_ok | with_reducible apply State.inc_ok | with_reducible apply State.echo_ok | with_reducible apply foldl_ok | with_reducible apply foldl_ok_fst | with_reducible apply foldl_ok_snd | with_reducible apply OutOk.next | fail_if_no_progress (with_reducible apply State.mk_ok) | split | dsimp +zetaDelta only | with_reducible apply ok_ite_snd | with_reducible apply ok_ite_fst | with_reducible apply id_ok

theorem State.compareSync_ok {κ : Keep} (s : State) (root : Nat) (hs : s.Kept κ) :
    State.Kept κ (State.compareSync s root) := by
  unfold State.compareSync
  repeat' first | with_reducible assumption | (intro _) | with_reducible apply ok_ite | extract_lets | with_reducible apply State.put_ok | with_reducible apply State.raiseInst_ok | fail_if_no_progress (with_reducible apply State.mk_ok) | split | dsimp +zetaDelta only

theorem State.followBeacon_ok {κ : Keep} (s : State) (b : KxBeacon) (ps : Int) (measured : Bool) (hs : s.Kept κ) :
    State.Kept κ (State.followBeacon s b ps measured) := by
  unfold State.followBeacon
  repeat' first | with_reducible assumption | (intro _) | with_reducible apply ok_ite | extract_lets | with_reducible apply State.fresh_ok | with_reducible apply State.put_ok | with_reducible apply State.inc_ok | with_reducible apply State.raiseInst_ok | with_reducible apply State.masterLost_ok | with_reducible apply State.applyStep_ok | fail_if_no_progress (with_reducible apply State.mk_ok) | split | dsimp +zetaDelta only | with_reducible apply ok_ite_snd | with_reducible apply ok_ite_fst | with_reducible apply id_ok

theorem State.heardBeacon_ok {κ : Keep} (s : State) (l : Nat) (b : KxBeacon) (roundTrip : Option Nat) (hs : s.Kept κ) :
    State.Kept κ (State.heardBeacon s l b roundTrip) := by
  unfold State.heardBeacon
  repeat' first | with_reducible assumption | (intro _) | with_reducible apply ok_ite | extract_lets | with_reducible apply State.send_ok | with_reducible apply State.put_ok | with_reducible apply State.reroute_ok | with_reducible apply State.echo_ok | fail_if_no_progress (with_reducible apply State.mk_ok) | split | dsimp +zetaDelta only

theorem State.forwardBeacon_ok {κ : Keep} (s : State) (l : Nat) (b : KxBeacon) (hs : s.Kept κ) :
    State.Kept κ (State.forwardBeacon s l b) := by
  unfold State.forwardBeacon
  repeat' first | with_reducible assumption | (intro _) | with_reducible apply ok_ite | extract_lets | with_reducible apply State.send_ok | with_reducible apply foldl_ok | with_reducible apply foldl_ok_fst | with_reducible apply foldl_ok_snd | fail_if_no_progress (with_reducible apply State.mk_ok) | split | dsimp +zetaDelta only

theorem execTimeBeaconReceived_ok {κ : Keep} (l : Fin 6) (b : KxBeacon) (sub : Fin 2621440) (roundTrip : Option Nat) (rootSync : Option (BitVec 96)) (s : State) (hs : s.Kept κ) :
    OutOk κ (execTimeBeaconReceived l b sub roundTrip rootSync s) := by
  unfold execTimeBeaconReceived
  repeat' first | with_reducible assumption | (intro _) | with_reducible apply OutOk.ite | with_reducible apply ok_ite | extract_lets | with_reducible apply State.compareSync_ok | with_reducible apply State.followBeacon_ok | with_reducible apply State.heardBeacon_ok | with_reducible apply State.forwardBeacon_ok | with_reducible apply OutOk.next | fail_if_no_progress (with_reducible apply State.mk_ok) | split | dsimp +zetaDelta only | with_reducible apply ok_ite_snd | with_reducible apply ok_ite_fst | with_reducible apply id_ok

end Machine
end Sys2Proof
end

