-- ==== Sys2Proof/Laws/OkNvme.lean ====
section
/-!
SUPPORT. The canonical form is kept by every operation of Machine/Nvme.lean.
-/

namespace Sys2Proof
namespace Machine

theorem State.updNvPort_ok {κ : Keep} (s : State) (d : Nat) (x : NvPort) (hs : s.Kept κ) :
    State.Kept κ (State.updNvPort s d x) := by
  unfold State.updNvPort
  repeat' first | with_reducible assumption | (intro _) | with_reducible apply ok_ite | with_reducible apply State.put_ok | fail_if_no_progress (with_reducible apply State.mk_ok) | split

theorem State.updNvDrive_ok {κ : Keep} (s : State) (n : Nat) (f : NvDrive → NvDrive) (hs : s.Kept κ) :
    State.Kept κ (State.updNvDrive s n f) := by
  unfold State.updNvDrive
  repeat' first | with_reducible assumption | (intro _) | with_reducible apply ok_ite | with_reducible apply State.put_ok | fail_if_no_progress (with_reducible apply State.mk_ok) | split

theorem State.updNvRec_ok {κ : Keep} (s : State) (r : Nat) (f : NvRec → NvRec) (hs : s.Kept κ) :
    State.Kept κ (State.updNvRec s r f) := by
  unfold State.updNvRec
  repeat' first | with_reducible assumption | (intro _) | with_reducible apply ok_ite | with_reducible apply State.put_ok | fail_if_no_progress (with_reducible apply State.mk_ok) | split

theorem State.nvSend_ok {κ : Keep} (s : State) (j op lba nlb : Nat) (data : List Byte) (hs : s.Kept κ) :
    State.Kept κ (State.nvSend s j op lba nlb data) := by
  unfold State.nvSend
  repeat' first | with_reducible assumption | (intro _) | with_reducible apply ok_ite | with_reducible apply State.send_ok | fail_if_no_progress (with_reducible apply State.mk_ok) | split

theorem State.sendWrite_ok {κ : Keep} (s : State) (r : Nat) (c : NvChunk) (w : NvWrite) (hs : s.Kept κ) :
    State.Kept κ (State.sendWrite s r c w) := by
  unfold State.sendWrite
  repeat' first | with_reducible assumption | (intro _) | with_reducible apply ok_ite | extract_lets | with_reducible apply State.nvSend_ok | fail_if_no_progress (with_reducible apply State.mk_ok) | split | dsimp +zetaDelta only

theorem State.showNext_ok {κ : Keep} (s : State) (r : Nat) (hs : s.Kept κ) : State.Kept κ (State.showNext s r) := by
  unfold State.showNext
  exact State.put_ok _ _ _ (State.put_ok _ _ _ hs)

theorem State.writeChunk_ok {κ : Keep} (s : State) (r j : Nat) (hs : s.Kept κ) :
    State.Kept κ (State.writeChunk s r j) := by
  unfold State.writeChunk
  repeat' first | with_reducible assumption | (intro _) | with_reducible apply ok_ite | extract_lets | with_reducible apply State.put_ok | with_reducible apply State.updNvRec_ok | with_reducible apply State.showNext_ok | with_reducible apply State.sendWrite_ok | with_reducible apply foldl_ok | with_reducible apply foldl_ok_fst | with_reducible apply foldl_ok_snd | fail_if_no_progress (with_reducible apply State.mk_ok) | split | dsimp +zetaDelta only | with_reducible apply ok_ite_snd | with_reducible apply ok_ite_fst | with_reducible apply id_ok

theorem State.countLost_ok {κ : Keep} (s : State) (r : Nat) (c : NvChunk) (hs : s.Kept κ) :
    State.Kept κ (State.countLost s r c) := by
  unfold State.countLost
  repeat' first | with_reducible assumption | (intro _) | with_reducible apply ok_ite | extract_lets | with_reducible apply State.satInc_ok | with_reducible apply State.raiseWith_ok | with_reducible apply State.freeCells_ok | fail_if_no_progress (with_reducible apply State.mk_ok) | split | dsimp +zetaDelta only | with_reducible apply ok_ite_snd | with_reducible apply ok_ite_fst | with_reducible apply id_ok

theorem State.leaveRec_ok {κ : Keep} (s : State) (r j : Nat) (hs : s.Kept κ) :
    State.Kept κ (State.leaveRec s r j) := by
  unfold State.leaveRec
  repeat' first | with_reducible assumption | (intro _) | with_reducible apply ok_ite | extract_lets | with_reducible apply State.put_ok | fail_if_no_progress (with_reducible apply State.mk_ok) | split | dsimp +zetaDelta only

theorem State.loseChunk_ok {κ : Keep} (s : State) (r : Nat) (c : NvChunk) (hs : s.Kept κ) :
    State.Kept κ (State.loseChunk s r c) := by
  unfold State.loseChunk
  repeat' first | with_reducible assumption | (intro _) | with_reducible apply ok_ite | extract_lets | with_reducible apply State.updNvRec_ok | with_reducible apply State.countLost_ok | with_reducible apply State.leaveRec_ok | fail_if_no_progress (with_reducible apply State.mk_ok) | split | dsimp +zetaDelta only

theorem State.takeBarge_ok {κ : Keep} (s : State) (r q : Nat) (b : QBarge) (hs : s.Kept κ) :
    State.Kept κ (State.takeBarge s r q b) := by
  unfold State.takeBarge
  repeat' first | with_reducible assumption | (intro _) | with_reducible apply ok_ite | extract_lets | with_reducible apply State.updQueue_ok | with_reducible apply State.updNvRec_ok | fail_if_no_progress (with_reducible apply State.mk_ok) | split | dsimp +zetaDelta only

theorem State.recOff_ok {κ : Keep} (s : State) (r : Nat) (hs : s.Kept κ) :
    State.Kept κ (State.recOff s r) := by
  unfold State.recOff
  repeat' first | with_reducible assumption | (intro _) | with_reducible apply ok_ite | extract_lets | with_reducible apply State.put_ok | with_reducible apply State.unbindQueue_ok | with_reducible apply State.updNvRec_ok | fail_if_no_progress (with_reducible apply State.mk_ok) | split | dsimp +zetaDelta only

theorem State.dropCur_ok {κ : Keep} (s : State) (r : Nat) (hs : s.Kept κ) :
    State.Kept κ (State.dropCur s r) := by
  unfold State.dropCur
  repeat' first | with_reducible assumption | (intro _) | with_reducible apply ok_ite | extract_lets | with_reducible apply State.updNvRec_ok | with_reducible apply State.showNext_ok | with_reducible apply State.countLost_ok | fail_if_no_progress (with_reducible apply State.mk_ok) | split | dsimp +zetaDelta only

theorem State.recMove_ok {κ : Keep} (s : State) (r : Nat) (hs : s.Kept κ) :
    OptOk κ (State.recMove s r) := by
  unfold State.recMove
  repeat' first | with_reducible assumption | with_reducible apply OptOk.none | with_reducible apply OptOk.some | with_reducible apply OptOk.ite | (intro _) | with_reducible apply ok_ite | extract_lets | with_reducible apply State.put_ok | with_reducible apply State.raiseInst_ok | with_reducible apply State.updNvRec_ok | with_reducible apply State.nvSend_ok | with_reducible apply State.writeChunk_ok | with_reducible apply State.takeBarge_ok | with_reducible apply State.recOff_ok | with_reducible apply State.dropCur_ok | with_reducible apply foldl_ok | with_reducible apply foldl_ok_fst | with_reducible apply foldl_ok_snd | fail_if_no_progress (with_reducible apply State.mk_ok) | split | dsimp +zetaDelta only

theorem State.recRun_ok {κ : Keep} (s : State) (r : Nat) (n_ : Nat) (hs : s.Kept κ) :
    State.Kept κ (State.recRun s r n_) := by
  induction n_ generalizing s r with
  | zero =>
    unfold State.recRun
    repeat' first | with_reducible assumption | with_reducible apply ih | (intro _) | with_reducible apply ok_ite | with_reducible apply State.recMove_ok | fail_if_no_progress (with_reducible apply State.mk_ok) | split | with_reducible refine OptOk.of_some (State.recMove_ok _ _ ?_) _ (by with_reducible assumption)
  | succ n ih =>
    unfold State.recRun
    repeat' first | with_reducible assumption | with_reducible apply ih | (intro _) | with_reducible apply ok_ite | with_reducible apply State.recMove_ok | fail_if_no_progress (with_reducible apply State.mk_ok) | split | with_reducible refine OptOk.of_some (State.recMove_ok _ _ ?_) _ (by with_reducible assumption)

theorem State.recPump_ok {κ : Keep} (s : State) (r : Nat) (hs : s.Kept κ) :
    State.Kept κ (State.recPump s r) := by
  unfold State.recPump
  repeat' first | with_reducible assumption | (intro _) | with_reducible apply ok_ite | with_reducible apply State.recRun_ok | fail_if_no_progress (with_reducible apply State.mk_ok) | split

theorem execCellVisible_ok {κ : Keep} (q : Fin 4096) (s : State) (hs : s.Kept κ) :
    OutOk κ (execCellVisible q s) := by
  unfold execCellVisible
  repeat' first | with_reducible assumption | (intro _) | with_reducible apply OutOk.ite | with_reducible apply ok_ite | extract_lets | with_reducible apply State.updQueue_ok | with_reducible apply State.recPump_ok | with_reducible apply OutOk.next | fail_if_no_progress (with_reducible apply State.mk_ok) | split | dsimp +zetaDelta only

theorem execChunkCloseTimer_ok {κ : Keep} (r : Fin 8) (s : State) (hs : s.Kept κ) :
    OutOk κ (execChunkCloseTimer r s) := by
  unfold execChunkCloseTimer
  repeat' first | with_reducible assumption | (intro _) | with_reducible apply OutOk.ite | with_reducible apply ok_ite | extract_lets | with_reducible apply State.updNvRec_ok | with_reducible apply State.recPump_ok | with_reducible apply OutOk.next | fail_if_no_progress (with_reducible apply State.mk_ok) | split | dsimp +zetaDelta only

theorem execWriteCompletion_ok {κ : Keep} (r : Fin 8) (chunk i : Nat) (ok : Bool) (s : State) (hs : s.Kept κ) :
    OutOk κ (execWriteCompletion r chunk i ok s) := by
  unfold execWriteCompletion
  repeat' first | with_reducible assumption | (intro _) | with_reducible apply OutOk.ite | with_reducible apply ok_ite | extract_lets | with_reducible apply State.satInc_ok | with_reducible apply State.freeCells_ok | with_reducible apply State.updNvRec_ok | with_reducible apply State.sendWrite_ok | with_reducible apply State.loseChunk_ok | with_reducible apply State.recPump_ok | with_reducible apply OutOk.next | fail_if_no_progress (with_reducible apply State.mk_ok) | split | dsimp +zetaDelta only | with_reducible apply ok_ite_snd | with_reducible apply ok_ite_fst | with_reducible apply id_ok

theorem State.setNvRead_ok {κ : Keep} (s : State) (x : NvRead) (hs : s.Kept κ) :
    State.Kept κ (State.setNvRead s x) := by
  unfold State.setNvRead
  repeat' first | with_reducible assumption | (intro _) | with_reducible apply ok_ite | fail_if_no_progress (with_reducible apply State.mk_ok) | split

theorem State.endRead_ok {κ : Keep} (s : State) (o : Order) (x : NvRead) (status : Nat) (hs : s.Kept κ) :
    State.Kept κ (State.endRead s o x status) := by
  unfold State.endRead
  repeat' first | with_reducible assumption | (intro _) | with_reducible apply ok_ite | extract_lets | with_reducible apply State.retireWith_ok | fail_if_no_progress (with_reducible apply State.mk_ok) | split | dsimp +zetaDelta only

theorem State.readOut_ok {κ : Keep} (s : State) (o : Order) (x : NvRead) (bs : List Byte) (hs : s.Kept κ) :
    State.Kept κ (State.readOut s o x bs).2.2 := by
  unfold State.readOut
  repeat' first | with_reducible assumption | with_reducible apply ok_ite_fst | with_reducible apply ok_ite_snd | fail_if_no_progress (with_reducible refine mk_ok_snd rfl ?_) | fail_if_no_progress (with_reducible refine mk_ok_fst rfl ?_) | fail_if_no_progress (with_reducible refine mk_ok_snd_snd rfl ?_) | (intro _) | with_reducible apply ok_ite | extract_lets | with_reducible apply State.writeHost_ok | with_reducible apply State.devWrite_ok | fail_if_no_progress (with_reducible apply State.mk_ok) | split | dsimp +zetaDelta only

theorem State.samplesOut_ok {κ : Keep} (s : State) (o : Order) (x : NvRead) (w : Nat) (es : List Nat) (hs : s.Kept κ) :
    State.Kept κ (State.samplesOut s o x w es).2.2 := by
  unfold State.samplesOut
  repeat' first | with_reducible assumption | with_reducible apply ok_ite_fst | with_reducible apply ok_ite_snd | fail_if_no_progress (with_reducible refine mk_ok_snd rfl ?_) | fail_if_no_progress (with_reducible refine mk_ok_fst rfl ?_) | fail_if_no_progress (with_reducible refine mk_ok_snd_snd rfl ?_) | (intro _) | with_reducible apply ok_ite | extract_lets | with_reducible apply State.readOut_ok | fail_if_no_progress (with_reducible apply State.mk_ok) | split | dsimp +zetaDelta only | with_reducible apply ok_ite_snd | with_reducible apply ok_ite_fst | with_reducible apply id_ok

theorem State.fillOut_ok {κ : Keep} (s : State) (o : Order) (x : NvRead) (w n : Nat) (hs : s.Kept κ) :
    State.Kept κ (State.fillOut s o x w n).2.2 := by
  unfold State.fillOut
  repeat' first | with_reducible assumption | with_reducible apply ok_ite_fst | with_reducible apply ok_ite_snd | fail_if_no_progress (with_reducible refine mk_ok_snd rfl ?_) | fail_if_no_progress (with_reducible refine mk_ok_fst rfl ?_) | fail_if_no_progress (with_reducible refine mk_ok_snd_snd rfl ?_) | (intro _) | with_reducible apply ok_ite | extract_lets | with_reducible apply State.samplesOut_ok | fail_if_no_progress (with_reducible apply State.mk_ok) | split | dsimp +zetaDelta only

theorem State.takeSamples_ok {κ : Keep} (s : State) (o : Order) (x : NvRead) (h pay : List Byte) (hs : s.Kept κ) :
    State.Kept κ (State.takeSamples s o x h pay).2.2 := by
  unfold State.takeSamples
  repeat' first | with_reducible assumption | with_reducible apply ok_ite_fst | with_reducible apply ok_ite_snd | fail_if_no_progress (with_reducible refine mk_ok_snd rfl ?_) | fail_if_no_progress (with_reducible refine mk_ok_fst rfl ?_) | fail_if_no_progress (with_reducible refine mk_ok_snd_snd rfl ?_) | (intro _) | with_reducible apply ok_ite | extract_lets | with_reducible apply State.samplesOut_ok | with_reducible apply State.fillOut_ok | fail_if_no_progress (with_reducible apply State.mk_ok) | split | dsimp +zetaDelta only | with_reducible apply ok_ite_snd | with_reducible apply ok_ite_fst | with_reducible apply id_ok

theorem State.takeReadBarge_ok {κ : Keep} (s : State) (o : Order) (x : NvRead) (h data : List Byte) (hs : s.Kept κ) :
    State.Kept κ (State.takeReadBarge s o x h data).2.2 := by
  unfold State.takeReadBarge
  repeat' first | with_reducible assumption | with_reducible apply ok_ite_fst | with_reducible apply ok_ite_snd | fail_if_no_progress (with_reducible refine mk_ok_snd rfl ?_) | fail_if_no_progress (with_reducible refine mk_ok_fst rfl ?_) | fail_if_no_progress (with_reducible refine mk_ok_snd_snd rfl ?_) | (intro _) | with_reducible apply ok_ite | with_reducible apply State.takeSamples_ok | fail_if_no_progress (with_reducible apply State.mk_ok) | split

theorem State.takeChunk_ok {κ : Keep} (s : State) (o : Order) (x : NvRead) (bytes : List Byte) (n_ : Nat) (hs : s.Kept κ) :
    State.Kept κ (State.takeChunk s o x bytes n_).2.2 := by
  induction n_ generalizing s o x bytes with
  | zero =>
    unfold State.takeChunk
    repeat' first | with_reducible assumption | with_reducible apply ih | with_reducible apply ok_ite_fst | with_reducible apply ok_ite_snd | fail_if_no_progress (with_reducible refine mk_ok_snd rfl ?_) | fail_if_no_progress (with_reducible refine mk_ok_fst rfl ?_) | fail_if_no_progress (with_reducible refine mk_ok_snd_snd rfl ?_) | (intro _) | with_reducible apply ok_ite | extract_lets | with_reducible apply State.takeReadBarge_ok | fail_if_no_progress (with_reducible apply State.mk_ok) | split | dsimp +zetaDelta only | with_reducible apply ok_ite_snd | with_reducible apply ok_ite_fst | with_reducible apply id_ok
  | succ n ih =>
    unfold State.takeChunk
    repeat' first | with_reducible assumption | with_reducible apply ih | with_reducible apply ok_ite_fst | with_reducible apply ok_ite_snd | fail_if_no_progress (with_reducible refine mk_ok_snd rfl ?_) | fail_if_no_progress (with_reducible refine mk_ok_fst rfl ?_) | fail_if_no_progress (with_reducible refine mk_ok_snd_snd rfl ?_) | (intro _) | with_reducible apply ok_ite | extract_lets | with_reducible apply State.takeReadBarge_ok | fail_if_no_progress (with_reducible apply State.mk_ok) | split | dsimp +zetaDelta only | with_reducible apply ok_ite_snd | with_reducible apply ok_ite_fst | with_reducible apply id_ok

theorem State.finishExtract_ok {κ : Keep} (s : State) (o : Order) (x : NvRead) (hs : s.Kept κ) :
    State.Kept κ (State.finishExtract s o x) := by
  unfold State.finishExtract
  repeat' first | with_reducible assumption | (intro _) | with_reducible apply ok_ite | extract_lets | with_reducible apply State.endRead_ok | with_reducible apply State.readOut_ok | with_reducible apply State.fillOut_ok | fail_if_no_progress (with_reducible apply State.mk_ok) | split | dsimp +zetaDelta only | with_reducible apply ok_ite_snd | with_reducible apply ok_ite_fst | with_reducible apply id_ok

theorem State.readStep_ok {κ : Keep} (s : State) (o : Order) (x : NvRead) (hs : s.Kept κ) :
    State.Kept κ (State.readStep s o x) := by
  unfold State.readStep
  repeat' first | with_reducible assumption | (intro _) | with_reducible apply ok_ite | with_reducible apply State.nvSend_ok | with_reducible apply State.setNvRead_ok | with_reducible apply State.endRead_ok | with_reducible apply State.finishExtract_ok | fail_if_no_progress (with_reducible apply State.mk_ok) | split | with_reducible apply ok_ite_snd | with_reducible apply ok_ite_fst | with_reducible apply id_ok

theorem State.readTake_ok {κ : Keep} (s : State) (o : Order) (x : NvRead) (c : Nat × Nat × Nat) (data : List Byte) (hs : s.Kept κ) :
    State.Kept κ (State.readTake s o x c data) := by
  unfold State.readTake
  repeat' first | with_reducible assumption | (intro _) | with_reducible apply ok_ite | extract_lets | with_reducible apply State.setNvRead_ok | with_reducible apply State.endRead_ok | with_reducible apply State.readOut_ok | with_reducible apply State.takeChunk_ok | with_reducible apply State.readStep_ok | fail_if_no_progress (with_reducible apply State.mk_ok) | split | dsimp +zetaDelta only | with_reducible apply ok_ite_snd | with_reducible apply ok_ite_fst | with_reducible apply id_ok

theorem State.nvmeReadAccept_ok {κ : Keep} (o : Order) (s : State) (hs : s.Kept κ) :
    State.Kept κ (State.nvmeReadAccept o s) := by
  unfold State.nvmeReadAccept
  repeat' first | with_reducible assumption | (intro _) | with_reducible apply ok_ite | extract_lets | with_reducible apply State.updOrder_ok | with_reducible apply State.retire_ok | with_reducible apply State.validate_ok | with_reducible apply State.readStep_ok | fail_if_no_progress (with_reducible apply State.mk_ok) | split | dsimp +zetaDelta only

theorem execNvmeRead_ok {κ : Keep} (s : State) (hs : s.Kept κ) :
    OutOk κ (execNvmeRead s) := by
  unfold execNvmeRead
  repeat' first | with_reducible assumption | (intro _) | with_reducible apply OutOk.ite | with_reducible apply ok_ite | with_reducible apply State.accept_ok | with_reducible apply State.nvmeReadAccept_ok | with_reducible apply OutOk.next | fail_if_no_progress (with_reducible apply State.mk_ok) | split

theorem State.nvmeTrimAccept_ok {κ : Keep} (o : Order) (s : State) (hs : s.Kept κ) :
    State.Kept κ (State.nvmeTrimAccept o s) := by
  unfold State.nvmeTrimAccept
  repeat' first | with_reducible assumption | (intro _) | with_reducible apply ok_ite | extract_lets | with_reducible apply State.updOrder_ok | with_reducible apply State.retire_ok | with_reducible apply State.validate_ok | with_reducible apply State.nvSend_ok | fail_if_no_progress (with_reducible apply State.mk_ok) | split | dsimp +zetaDelta only

theorem execNvmeTrim_ok {κ : Keep} (s : State) (hs : s.Kept κ) :
    OutOk κ (execNvmeTrim s) := by
  unfold execNvmeTrim
  repeat' first | with_reducible assumption | (intro _) | with_reducible apply OutOk.ite | with_reducible apply ok_ite | with_reducible apply State.accept_ok | with_reducible apply State.nvmeTrimAccept_ok | with_reducible apply OutOk.next | fail_if_no_progress (with_reducible apply State.mk_ok) | split

theorem State.nvmeCancel_ok {κ : Keep} (s : State) (o : Order) (hs : s.Kept κ) :
    State.Kept κ (State.nvmeCancel s o) := by
  unfold State.nvmeCancel
  repeat' first | with_reducible assumption | (intro _) | with_reducible apply ok_ite | with_reducible apply State.updOrder_ok | fail_if_no_progress (with_reducible apply State.mk_ok) | split

theorem State.readFailed_ok {κ : Keep} (s : State) (o : Order) (x : NvRead) (c : Nat × Nat × Nat) (hs : s.Kept κ) :
    State.Kept κ (State.readFailed s o x c) := by
  unfold State.readFailed
  repeat' first | with_reducible assumption | (intro _) | with_reducible apply ok_ite | with_reducible apply State.satInc_ok | with_reducible apply State.endRead_ok | fail_if_no_progress (with_reducible apply State.mk_ok) | split | with_reducible apply ok_ite_snd | with_reducible apply ok_ite_fst | with_reducible apply id_ok

theorem execNvmeCommandCompletion_ok {κ : Keep} (c : NvmeDone) (ok : Bool) (s : State) (hs : s.Kept κ) :
    OutOk κ (execNvmeCommandCompletion c ok s) := by
  unfold execNvmeCommandCompletion
  repeat' first | with_reducible assumption | (intro _) | with_reducible apply OutOk.ite | with_reducible apply ok_ite | extract_lets | with_reducible apply State.satInc_ok | with_reducible apply State.retireRef_ok | with_reducible apply State.updNvRec_ok | with_reducible apply State.nvSend_ok | with_reducible apply State.recPump_ok | with_reducible apply State.setNvRead_ok | with_reducible apply State.readTake_ok | with_reducible apply State.readFailed_ok | with_reducible apply OutOk.next | fail_if_no_progress (with_reducible apply State.mk_ok) | split | dsimp +zetaDelta only | with_reducible apply ok_ite_snd | with_reducible apply ok_ite_fst | with_reducible apply id_ok

theorem State.endCommands_ok {κ : Keep} (s : State) (n : Nat) (hs : s.Kept κ) :
    State.Kept κ (State.endCommands s n) := by
  unfold State.endCommands
  repeat' first | with_reducible assumption | (intro _) | with_reducible apply ok_ite | extract_lets | with_reducible apply State.satInc_ok | with_reducible apply State.retireRef_ok | with_reducible apply State.updNvRec_ok | with_reducible apply State.loseChunk_ok | with_reducible apply State.recPump_ok | with_reducible apply State.readFailed_ok | with_reducible apply foldl_ok | with_reducible apply foldl_ok_fst | with_reducible apply foldl_ok_snd | fail_if_no_progress (with_reducible apply State.mk_ok) | split | dsimp +zetaDelta only | with_reducible apply ok_ite_snd | with_reducible apply ok_ite_fst | with_reducible apply id_ok

theorem State.driveReset_ok {κ : Keep} (s : State) (n : Nat) (hs : s.Kept κ) :
    State.Kept κ (State.driveReset s n) := by
  unfold State.driveReset
  repeat' first | with_reducible assumption | (intro _) | with_reducible apply ok_ite | extract_lets | with_reducible apply State.put_ok | with_reducible apply State.satInc_ok | with_reducible apply State.updNvDrive_ok | with_reducible apply State.endCommands_ok | fail_if_no_progress (with_reducible apply State.mk_ok) | split | dsimp +zetaDelta only

theorem State.failSlots_ok {κ : Keep} (s : State) (n : Nat) (hs : s.Kept κ) :
    State.Kept κ (State.failSlots s n) := by
  unfold State.failSlots
  repeat' first | with_reducible assumption | (intro _) | with_reducible apply ok_ite | with_reducible apply State.put_ok | with_reducible apply State.leaveRec_ok | with_reducible apply foldl_ok | with_reducible apply foldl_ok_fst | with_reducible apply foldl_ok_snd | fail_if_no_progress (with_reducible apply State.mk_ok) | split

theorem State.driveFailed_ok {κ : Keep} (s : State) (n reason : Nat) (hs : s.Kept κ) :
    State.Kept κ (State.driveFailed s n reason) := by
  unfold State.driveFailed
  repeat' first | with_reducible assumption | (intro _) | with_reducible apply ok_ite | with_reducible apply State.put_ok | with_reducible apply State.raiseWith_ok | with_reducible apply State.failSlots_ok | fail_if_no_progress (with_reducible apply State.mk_ok) | split

theorem State.nvAdmin_ok {κ : Keep} (s : State) (n : Nat) (cs : List NvAdmin) (hs : s.Kept κ) :
    State.Kept κ (State.nvAdmin s n cs) := by
  unfold State.nvAdmin
  repeat' first | with_reducible assumption | (intro _) | with_reducible apply ok_ite | with_reducible apply State.send_ok | with_reducible apply foldl_ok | with_reducible apply foldl_ok_fst | with_reducible apply foldl_ok_snd | fail_if_no_progress (with_reducible apply State.mk_ok) | split

theorem State.driveGone_ok {κ : Keep} (s : State) (n : Nat) (hs : s.Kept κ) :
    State.Kept κ (State.driveGone s n) := by
  unfold State.driveGone
  repeat' first | with_reducible assumption | (intro _) | with_reducible apply ok_ite | extract_lets | with_reducible apply State.setWord_ok | with_reducible apply State.send_ok | with_reducible apply State.updNvDrive_ok | with_reducible apply State.endCommands_ok | with_reducible apply State.failSlots_ok | with_reducible apply State.nvAdmin_ok | fail_if_no_progress (with_reducible apply State.mk_ok) | split | dsimp +zetaDelta only

theorem State.writeNvPort_ok {κ : Keep} (s : State) (d : Nat) (w : Word) (hs : s.Kept κ) :
    State.Kept κ (State.writeNvPort s d w) := by
  unfold State.writeNvPort
  repeat' first | with_reducible assumption | (intro _) | with_reducible apply ok_ite | extract_lets | with_reducible apply State.send_ok | with_reducible apply State.put_ok | with_reducible apply State.plainWrite_ok | with_reducible apply State.updNvPort_ok | with_reducible apply State.driveGone_ok | with_reducible apply foldl_ok | with_reducible apply foldl_ok_fst | with_reducible apply foldl_ok_snd | fail_if_no_progress (with_reducible apply State.mk_ok) | split | dsimp +zetaDelta only

theorem execNvmePortEnable_ok {κ : Keep} (p : Path) (d : Fin 2) (w : Word) (s : State) (hs : s.Kept κ) :
    OutOk κ (execNvmePortEnable p d w s) := by
  unfold execNvmePortEnable
  repeat' first | with_reducible assumption | (intro _) | with_reducible apply OutOk.ite | with_reducible apply ok_ite | with_reducible apply State.retainWrite_ok | with_reducible apply State.gate_ok | with_reducible apply State.writeNvPort_ok | with_reducible apply OutOk.next | fail_if_no_progress (with_reducible apply State.mk_ok) | split

theorem State.setLink_ok {κ : Keep} (s : State) (n width rate : Nat) (hs : s.Kept κ) :
    State.Kept κ (State.setLink s n width rate) := by
  unfold State.setLink
  repeat' first | with_reducible assumption | (intro _) | with_reducible apply ok_ite | extract_lets | with_reducible apply State.put_ok | fail_if_no_progress (with_reducible apply State.mk_ok) | split | dsimp +zetaDelta only

theorem execDriveLinkUp_ok {κ : Keep} (n : Fin 8) (up : Bool) (width : Fin 9) (rate : Fin 6) (s : State) (hs : s.Kept κ) :
    OutOk κ (execDriveLinkUp n up width rate s) := by
  unfold execDriveLinkUp
  repeat' first | with_reducible assumption | (intro _) | with_reducible apply OutOk.ite | with_reducible apply ok_ite | extract_lets | with_reducible apply State.put_ok | with_reducible apply State.setLink_ok | with_reducible apply OutOk.next | fail_if_no_progress (with_reducible apply State.mk_ok) | split | dsimp +zetaDelta only

theorem execDriveInitDone_ok {κ : Keep} (n : Fin 8) (r : DriveInit) (s : State) (hs : s.Kept κ) :
    OutOk κ (execDriveInitDone n r s) := by
  unfold execDriveInitDone
  repeat' first | with_reducible assumption | (intro _) | with_reducible apply OutOk.ite | with_reducible apply ok_ite | extract_lets | with_reducible apply State.put_ok | with_reducible apply State.updNvDrive_ok | with_reducible apply State.driveFailed_ok | with_reducible apply State.nvAdmin_ok | with_reducible apply OutOk.next | fail_if_no_progress (with_reducible apply State.mk_ok) | split | dsimp +zetaDelta only

theorem execDriveCommandTimeout_ok {κ : Keep} (n : Fin 8) (s : State) (hs : s.Kept κ) :
    OutOk κ (execDriveCommandTimeout n s) := by
  unfold execDriveCommandTimeout
  repeat' first | with_reducible assumption | (intro _) | with_reducible apply OutOk.ite | with_reducible apply ok_ite | with_reducible apply State.driveReset_ok | with_reducible apply OutOk.next | fail_if_no_progress (with_reducible apply State.mk_ok) | split

theorem execDriveLinkDown_ok {κ : Keep} (n : Fin 8) (s : State) (hs : s.Kept κ) :
    OutOk κ (execDriveLinkDown n s) := by
  unfold execDriveLinkDown
  repeat' first | with_reducible assumption | (intro _) | with_reducible apply OutOk.ite | with_reducible apply ok_ite | with_reducible apply State.driveReset_ok | with_reducible apply State.setLink_ok | with_reducible apply OutOk.next | fail_if_no_progress (with_reducible apply State.mk_ok) | split

theorem execControllerFatalStatus_ok {κ : Keep} (n : Fin 8) (s : State) (hs : s.Kept κ) :
    OutOk κ (execControllerFatalStatus n s) := by
  unfold execControllerFatalStatus
  repeat' first | with_reducible assumption | (intro _) | with_reducible apply OutOk.ite | with_reducible apply ok_ite | with_reducible apply State.driveReset_ok | with_reducible apply OutOk.next | fail_if_no_progress (with_reducible apply State.mk_ok) | split

theorem State.reissueRec_ok {κ : Keep} (s : State) (n r : Nat) (hs : s.Kept κ) :
    State.Kept κ (State.reissueRec s n r) := by
  unfold State.reissueRec
  repeat' first | with_reducible assumption | (intro _) | with_reducible apply ok_ite | extract_lets | with_reducible apply State.updNvRec_ok | with_reducible apply State.nvSend_ok | with_reducible apply State.sendWrite_ok | with_reducible apply State.setNvRead_ok | with_reducible apply State.reissueReads_ok | with_reducible apply State.reissueTrims_ok | with_reducible apply foldl_ok | fail_if_no_progress (with_reducible apply State.mk_ok) | split | dsimp +zetaDelta only

theorem State.reissueReads_ok {κ : Keep} (s : State) (n : Nat) (hs : s.Kept κ) :
    State.Kept κ (State.reissueReads s n) := by
  unfold State.reissueReads
  repeat' first | with_reducible assumption | (intro _) | with_reducible apply ok_ite | extract_lets | with_reducible apply State.updNvRec_ok | with_reducible apply State.nvSend_ok | with_reducible apply State.sendWrite_ok | with_reducible apply State.setNvRead_ok | with_reducible apply State.reissueRec_ok | with_reducible apply State.reissueTrims_ok | with_reducible apply foldl_ok | fail_if_no_progress (with_reducible apply State.mk_ok) | split | dsimp +zetaDelta only

theorem State.reissueTrims_ok {κ : Keep} (s : State) (n : Nat) (hs : s.Kept κ) :
    State.Kept κ (State.reissueTrims s n) := by
  unfold State.reissueTrims
  repeat' first | with_reducible assumption | (intro _) | with_reducible apply ok_ite | extract_lets | with_reducible apply State.updNvRec_ok | with_reducible apply State.nvSend_ok | with_reducible apply State.sendWrite_ok | with_reducible apply State.setNvRead_ok | with_reducible apply State.reissueRec_ok | with_reducible apply State.reissueReads_ok | with_reducible apply foldl_ok | fail_if_no_progress (with_reducible apply State.mk_ok) | split | dsimp +zetaDelta only

theorem State.reissue_ok {κ : Keep} (s : State) (n : Nat) (hs : s.Kept κ) :
    State.Kept κ (State.reissue s n) := by
  unfold State.reissue
  repeat' first | with_reducible assumption | (intro _) | with_reducible apply ok_ite | extract_lets | with_reducible apply State.updNvRec_ok | with_reducible apply State.nvSend_ok | with_reducible apply State.sendWrite_ok | with_reducible apply State.setNvRead_ok | with_reducible apply State.reissueRec_ok | with_reducible apply State.reissueReads_ok | with_reducible apply State.reissueTrims_ok | with_reducible apply foldl_ok | fail_if_no_progress (with_reducible apply State.mk_ok) | split | dsimp +zetaDelta only

theorem execDriveResetDone_ok {κ : Keep} (n : Fin 8) (ok : Bool) (width : Fin 9) (rate : Fin 6) (s : State) (hs : s.Kept κ) :
    OutOk κ (execDriveResetDone n ok width rate s) := by
  unfold execDriveResetDone
  repeat' first | with_reducible assumption | (intro _) | with_reducible apply OutOk.ite | with_reducible apply ok_ite | extract_lets | with_reducible apply State.put_ok | with_reducible apply State.endCommands_ok | with_reducible apply State.driveFailed_ok | with_reducible apply State.nvAdmin_ok | with_reducible apply State.setLink_ok | with_reducible apply State.reissue_ok | with_reducible apply OutOk.next | fail_if_no_progress (with_reducible apply State.mk_ok) | split | dsimp +zetaDelta only

theorem execNvmeDmaAccess_ok {κ : Keep} (n : Fin 8) (s : State) (hs : s.Kept κ) :
    OutOk κ (execNvmeDmaAccess n s) := by
  unfold execNvmeDmaAccess
  repeat' first | with_reducible assumption | (intro _) | with_reducible apply OutOk.ite | with_reducible apply ok_ite | with_reducible apply State.send_ok | with_reducible apply State.raiseInst_ok | with_reducible apply OutOk.next | fail_if_no_progress (with_reducible apply State.mk_ok) | split

theorem State.writeNvSlot_ok {κ : Keep} (s : State) (j : Nat) (w : Word) (hs : s.Kept κ) :
    State.Kept κ (State.writeNvSlot s j w) := by
  unfold State.writeNvSlot
  repeat' first | with_reducible assumption | (intro _) | with_reducible apply ok_ite | extract_lets | with_reducible apply State.put_ok | fail_if_no_progress (with_reducible apply State.mk_ok) | split | dsimp +zetaDelta only

theorem execNvmeSlotEnable_ok {κ : Keep} (p : Path) (j : Fin 8) (w : Word) (s : State) (hs : s.Kept κ) :
    OutOk κ (execNvmeSlotEnable p j w s) := by
  unfold execNvmeSlotEnable
  repeat' first | with_reducible assumption | (intro _) | with_reducible apply OutOk.ite | with_reducible apply ok_ite | with_reducible apply State.retainWrite_ok | with_reducible apply State.gate_ok | with_reducible apply State.writeNvSlot_ok | with_reducible apply OutOk.next | fail_if_no_progress (with_reducible apply State.mk_ok) | split

theorem State.writeNvNsid_ok {κ : Keep} (s : State) (j : Nat) (w : Word) (hs : s.Kept κ) :
    State.Kept κ (State.writeNvNsid s j w) := by
  unfold State.writeNvNsid
  repeat' first | with_reducible assumption | (intro _) | with_reducible apply ok_ite | with_reducible apply State.put_ok | with_reducible apply State.plainWrite_ok | fail_if_no_progress (with_reducible apply State.mk_ok) | split

theorem State.startRec_ok {κ : Keep} (s : State) (r : Nat) (hs : s.Kept κ) :
    State.Kept κ (State.startRec s r) := by
  unfold State.startRec
  repeat' first | with_reducible assumption | (intro _) | with_reducible apply ok_ite | extract_lets | with_reducible apply State.put_ok | with_reducible apply State.updNvRec_ok | with_reducible apply State.recPump_ok | fail_if_no_progress (with_reducible apply State.mk_ok) | split | dsimp +zetaDelta only

theorem State.stopRec_ok {κ : Keep} (s : State) (r : Nat) (hs : s.Kept κ) :
    State.Kept κ (State.stopRec s r) := by
  unfold State.stopRec
  repeat' first | with_reducible assumption | (intro _) | with_reducible apply ok_ite | extract_lets | with_reducible apply State.put_ok | with_reducible apply State.updNvRec_ok | with_reducible apply State.recPump_ok | fail_if_no_progress (with_reducible apply State.mk_ok) | split | dsimp +zetaDelta only

theorem State.writeRecCfg_ok {κ : Keep} (s : State) (r : Nat) (w : Word) (hs : s.Kept κ) :
    State.Kept κ (State.writeRecCfg s r w) := by
  unfold State.writeRecCfg
  repeat' first | with_reducible assumption | (intro _) | with_reducible apply ok_ite | extract_lets | with_reducible apply State.put_ok | with_reducible apply State.plainWrite_ok | with_reducible apply State.bindQueue?_ok | with_reducible apply State.startRec_ok | with_reducible apply State.stopRec_ok | fail_if_no_progress (with_reducible apply State.mk_ok) | split | dsimp +zetaDelta only | with_reducible refine OptOk.of_some (State.bindQueue?_ok _ _ _ _ ?_) _ (by with_reducible assumption)

theorem execRecordingEnable_ok {κ : Keep} (p : Path) (r : Fin 8) (w : Word) (s : State) (hs : s.Kept κ) :
    OutOk κ (execRecordingEnable p r w s) := by
  unfold execRecordingEnable
  repeat' first | with_reducible assumption | (intro _) | with_reducible apply OutOk.ite | with_reducible apply ok_ite | with_reducible apply State.retainWrite_ok | with_reducible apply State.gate_ok | with_reducible apply State.writeRecCfg_ok | with_reducible apply OutOk.next | fail_if_no_progress (with_reducible apply State.mk_ok) | split

theorem execRecordingStop_ok {κ : Keep} (p : Path) (r : Fin 8) (s : State) (hs : s.Kept κ) :
    OutOk κ (execRecordingStop p r s) := by
  unfold execRecordingStop
  repeat' first | with_reducible assumption | (intro _) | with_reducible apply OutOk.ite | with_reducible apply ok_ite | with_reducible apply State.gateField_ok | with_reducible apply State.stopRec_ok | with_reducible apply OutOk.next | fail_if_no_progress (with_reducible apply State.mk_ok) | split

theorem State.writeRecClose_ok {κ : Keep} (s : State) (r : Nat) (w : Word) (hs : s.Kept κ) :
    State.Kept κ (State.writeRecClose s r w) := by
  unfold State.writeRecClose
  repeat' first | with_reducible assumption | (intro _) | with_reducible apply ok_ite | with_reducible apply State.put_ok | with_reducible apply State.plainWrite_ok | fail_if_no_progress (with_reducible apply State.mk_ok) | split

theorem State.forceRec_ok {κ : Keep} (s : State) (r : Nat) (hs : s.Kept κ) :
    State.Kept κ (State.forceRec s r) := by
  unfold State.forceRec
  repeat' first | with_reducible assumption | (intro _) | with_reducible apply ok_ite | extract_lets | with_reducible apply State.put_ok | with_reducible apply State.countLost_ok | with_reducible apply State.recOff_ok | with_reducible apply State.dropCur_ok | with_reducible apply foldl_ok | with_reducible apply foldl_ok_fst | with_reducible apply foldl_ok_snd | fail_if_no_progress (with_reducible apply State.mk_ok) | split | dsimp +zetaDelta only

end Machine
end Sys2Proof
end

