-- ==== Sys2Proof/Laws/OkClocks.lean ====
section
/-!
SUPPORT. The canonical form is kept by every operation of Machine/Clocks.lean.
-/

namespace Sys2Proof
namespace Machine

theorem State.spllLost_ok {κ : Keep} (s : State) (p : Nat) (hs : s.Kept κ) :
    State.Kept κ (State.spllLost s p) := by
  unfold State.spllLost
  repeat' first | with_reducible assumption | (intro _) | with_reducible apply ok_ite | extract_lets | with_reducible apply State.put_ok | with_reducible apply State.raiseInst_ok | with_reducible apply State.sgAbort_ok | with_reducible apply State.clearArm_ok | with_reducible apply State.adcForce_ok | with_reducible apply foldl_ok | with_reducible apply foldl_ok_fst | with_reducible apply foldl_ok_snd | fail_if_no_progress (with_reducible apply State.mk_ok) | split | dsimp +zetaDelta only

theorem State.unlock_ok {κ : Keep} (s : State) (k : Nat) (hs : s.Kept κ) :
    State.Kept κ (State.unlock s k) := by
  unfold State.unlock
  repeat' first | with_reducible assumption | (intro _) | with_reducible apply ok_ite | extract_lets | with_reducible apply State.put_ok | with_reducible apply State.spllLost_ok | fail_if_no_progress (with_reducible apply State.mk_ok) | split | dsimp +zetaDelta only

theorem State.lockLost_ok {κ : Keep} (s : State) (k : Nat) (hs : s.Kept κ) :
    State.Kept κ (State.lockLost s k) := by
  unfold State.lockLost
  repeat' first | with_reducible assumption | (intro _) | with_reducible apply ok_ite | with_reducible apply State.satInc_ok | with_reducible apply State.raiseInst_ok | with_reducible apply State.unlock_ok | fail_if_no_progress (with_reducible apply State.mk_ok) | split

theorem State.pixelLocked_ok {κ : Keep} (s : State) (h : Nat) (hs : s.Kept κ) :
    State.Kept κ (State.pixelLocked s h) := by
  unfold State.pixelLocked
  repeat' first | with_reducible assumption | (intro _) | with_reducible apply ok_ite | fail_if_no_progress (with_reducible apply State.mk_ok) | split

theorem execPllLockAcquired_ok {κ : Keep} (k : Fin 8) (first second diff : BitVec 8) (s : State) (hs : s.Kept κ) :
    OutOk κ (execPllLockAcquired k first second diff s) := by
  unfold execPllLockAcquired
  repeat' first | with_reducible assumption | (intro _) | with_reducible apply OutOk.ite | with_reducible apply ok_ite | extract_lets | with_reducible apply State.put_ok | with_reducible apply State.pixelLocked_ok | with_reducible apply OutOk.next | fail_if_no_progress (with_reducible apply State.mk_ok) | split | dsimp +zetaDelta only

theorem execPllLockLoss_ok {κ : Keep} (k : Fin 5) (first diff : BitVec 8) (s : State) (hs : s.Kept κ) :
    OutOk κ (execPllLockLoss k first diff s) := by
  unfold execPllLockLoss
  repeat' first | with_reducible assumption | (intro _) | with_reducible apply OutOk.ite | with_reducible apply ok_ite | with_reducible apply State.put_ok | with_reducible apply State.lockLost_ok | with_reducible apply OutOk.next | fail_if_no_progress (with_reducible apply State.mk_ok) | split

theorem execRefclkLoss_ok {κ : Keep} (s : State) (hs : s.Kept κ) :
    OutOk κ (execRefclkLoss s) := by
  unfold execRefclkLoss
  repeat' first | with_reducible assumption | (intro _) | with_reducible apply OutOk.ite | with_reducible apply ok_ite | extract_lets | with_reducible apply State.put_ok | with_reducible apply State.satInc_ok | with_reducible apply State.raiseInst_ok | with_reducible apply State.lockLost_ok | with_reducible apply OutOk.next | fail_if_no_progress (with_reducible apply State.mk_ok) | split | dsimp +zetaDelta only

theorem execRefclkRestored_ok {κ : Keep} (s : State) (hs : s.Kept κ) :
    OutOk κ (execRefclkRestored s) := by
  unfold execRefclkRestored
  repeat' first | with_reducible assumption | (intro _) | with_reducible apply OutOk.ite | with_reducible apply ok_ite | extract_lets | with_reducible apply State.put_ok | with_reducible apply State.raiseInst_ok | with_reducible apply OutOk.next | fail_if_no_progress (with_reducible apply State.mk_ok) | split | dsimp +zetaDelta only

theorem State.writeClkout_ok {κ : Keep} (s : State) (o : Nat) (w : Word) (hs : s.Kept κ) :
    State.Kept κ (State.writeClkout s o w) := by
  unfold State.writeClkout
  repeat' first | with_reducible assumption | (intro _) | with_reducible apply ok_ite | extract_lets | with_reducible apply State.put_ok | with_reducible apply State.retainWrite_ok | fail_if_no_progress (with_reducible apply State.mk_ok) | split | dsimp +zetaDelta only

theorem execClkoutEnable_ok {κ : Keep} (p : Path) (o : Fin 4) (w : Word) (s : State) (hs : s.Kept κ) :
    OutOk κ (execClkoutEnable p o w s) := by
  unfold execClkoutEnable
  repeat' first | with_reducible assumption | (intro _) | with_reducible apply OutOk.ite | with_reducible apply ok_ite | with_reducible apply State.gateAction_ok | with_reducible apply State.writeClkout_ok | with_reducible apply OutOk.next | fail_if_no_progress (with_reducible apply State.mk_ok) | split

theorem State.swsEnter_ok {κ : Keep} (s : State) (i t : Nat) (hs : s.Kept κ) :
    State.Kept κ (State.swsEnter s i t) := by
  unfold State.swsEnter
  repeat' first | with_reducible assumption | (intro _) | with_reducible apply ok_ite | extract_lets | with_reducible apply State.put_ok | fail_if_no_progress (with_reducible apply State.mk_ok) | split | dsimp +zetaDelta only

theorem State.swsStart_ok {κ : Keep} (s : State) (t : Nat) (hs : s.Kept κ) :
    State.Kept κ (State.swsStart s t) := by
  unfold State.swsStart
  repeat' first | with_reducible assumption | (intro _) | with_reducible apply ok_ite | extract_lets | with_reducible apply State.put_ok | with_reducible apply State.swsEnter_ok | fail_if_no_progress (with_reducible apply State.mk_ok) | split | dsimp +zetaDelta only

theorem State.swsRun_ok {κ : Keep} (s : State) (hs : s.Kept κ) :
    State.Kept κ (State.swsRun s) := by
  unfold State.swsRun
  repeat' first | with_reducible assumption | (intro _) | with_reducible apply ok_ite | with_reducible apply State.put_ok | with_reducible apply State.swsStart_ok | fail_if_no_progress (with_reducible apply State.mk_ok) | split

theorem State.swsHalt_ok {κ : Keep} (s : State) (t : Nat) (hs : s.Kept κ) :
    State.Kept κ (State.swsHalt s t) := by
  unfold State.swsHalt
  repeat' first | with_reducible assumption | (intro _) | with_reducible apply ok_ite | extract_lets | with_reducible apply State.put_ok | fail_if_no_progress (with_reducible apply State.mk_ok) | split | dsimp +zetaDelta only

theorem State.writeSwsCtl_ok {κ : Keep} (s : State) (w : Word) (hs : s.Kept κ) :
    State.Kept κ (State.writeSwsCtl s w) := by
  unfold State.writeSwsCtl
  repeat' first | with_reducible assumption | (intro _) | with_reducible apply ok_ite | extract_lets | with_reducible apply State.put_ok | with_reducible apply State.retainWrite_ok | with_reducible apply State.unlock_ok | with_reducible apply State.swsRun_ok | with_reducible apply State.swsHalt_ok | fail_if_no_progress (with_reducible apply State.mk_ok) | split | dsimp +zetaDelta only

theorem execSwsRun_ok {κ : Keep} (p : Path) (w : Word) (s : State) (hs : s.Kept κ) :
    OutOk κ (execSwsRun p w s) := by
  unfold execSwsRun
  repeat' first | with_reducible assumption | (intro _) | with_reducible apply OutOk.ite | with_reducible apply ok_ite | with_reducible apply State.gateAction_ok | with_reducible apply State.writeSwsCtl_ok | with_reducible apply OutOk.next | fail_if_no_progress (with_reducible apply State.mk_ok) | split

theorem execSwsStop_ok {κ : Keep} (p : Path) (w : Word) (s : State) (hs : s.Kept κ) :
    OutOk κ (execSwsStop p w s) := by
  unfold execSwsStop
  repeat' first | with_reducible assumption | (intro _) | with_reducible apply OutOk.ite | with_reducible apply ok_ite | with_reducible apply State.gateAction_ok | with_reducible apply State.writeSwsCtl_ok | with_reducible apply OutOk.next | fail_if_no_progress (with_reducible apply State.mk_ok) | split

theorem State.writeSwsSeg_ok {κ : Keep} (s : State) (key : Nat) (w : Word) (hs : s.Kept κ) :
    State.Kept κ (State.writeSwsSeg s key w) := by
  unfold State.writeSwsSeg
  repeat' first | with_reducible assumption | (intro _) | with_reducible apply ok_ite | with_reducible apply State.put_ok | with_reducible apply State.plainWrite_ok | fail_if_no_progress (with_reducible apply State.mk_ok) | split

theorem State.swsAdvance_ok {κ : Keep} (s : State) (t : Nat) (hs : s.Kept κ) :
    State.Kept κ (State.swsAdvance s t) := by
  unfold State.swsAdvance
  repeat' first | with_reducible assumption | (intro _) | with_reducible apply ok_ite | extract_lets | with_reducible apply State.inc_ok | with_reducible apply State.swsEnter_ok | with_reducible apply State.swsHalt_ok | fail_if_no_progress (with_reducible apply State.mk_ok) | split | dsimp +zetaDelta only

theorem execSwsSegmentAdvance_ok {κ : Keep} (s : State) (hs : s.Kept κ) :
    OutOk κ (execSwsSegmentAdvance s) := by
  unfold execSwsSegmentAdvance
  repeat' first | with_reducible assumption | (intro _) | with_reducible apply OutOk.ite | with_reducible apply ok_ite | extract_lets | with_reducible apply State.swsAdvance_ok | with_reducible apply OutOk.next | fail_if_no_progress (with_reducible apply State.mk_ok) | split | dsimp +zetaDelta only

theorem State.swsGate_ok {κ : Keep} (s : State) (tg t : Nat) (hs : s.Kept κ) :
    State.Kept κ (State.swsGate s tg t) := by
  unfold State.swsGate
  repeat' first | with_reducible assumption | (intro _) | with_reducible apply ok_ite | with_reducible apply State.swsStart_ok | with_reducible apply State.swsAdvance_ok | fail_if_no_progress (with_reducible apply State.mk_ok) | split

theorem execSwsSettled_ok {κ : Keep} (s : State) (hs : s.Kept κ) :
    OutOk κ (execSwsSettled s) := by
  unfold execSwsSettled
  repeat' first | with_reducible assumption | (intro _) | with_reducible apply OutOk.ite | with_reducible apply ok_ite | with_reducible apply State.put_ok | with_reducible apply OutOk.next | fail_if_no_progress (with_reducible apply State.mk_ok) | split

theorem State.startFs_ok {κ : Keep} (s : State) (o : Order) (hs : s.Kept κ) :
    State.Kept κ (State.startFs s o) := by
  unfold State.startFs
  repeat' first | with_reducible assumption | (intro _) | with_reducible apply ok_ite | extract_lets | with_reducible apply State.put_ok | with_reducible apply State.updOrder_ok | with_reducible apply State.updAdc_ok | with_reducible apply State.updDac_ok | with_reducible apply State.dropSets_ok | with_reducible apply State.calOff_ok | with_reducible apply foldl_ok | with_reducible apply foldl_ok_fst | with_reducible apply foldl_ok_snd | fail_if_no_progress (with_reducible apply State.mk_ok) | split | dsimp +zetaDelta only

theorem State.startFsDue_ok {κ : Keep} (s : State) (hs : s.Kept κ) :
    State.Kept κ (State.startFsDue s) := by
  unfold State.startFsDue
  repeat' first | with_reducible assumption | (intro _) | with_reducible apply ok_ite | with_reducible apply State.startFs_ok | with_reducible apply foldl_ok | with_reducible apply foldl_ok_fst | with_reducible apply foldl_ok_snd | fail_if_no_progress (with_reducible apply State.mk_ok) | split

theorem State.fsSetAccept_ok {κ : Keep} (o : Order) (s : State) (hs : s.Kept κ) :
    State.Kept κ (State.fsSetAccept o s) := by
  unfold State.fsSetAccept
  repeat' first | with_reducible assumption | (intro _) | with_reducible apply ok_ite | with_reducible apply State.retire_ok | with_reducible apply State.validate_ok | with_reducible apply State.startFsDue_ok | fail_if_no_progress (with_reducible apply State.mk_ok) | split

theorem execFsSet_ok {κ : Keep} (s : State) (hs : s.Kept κ) :
    OutOk κ (execFsSet s) := by
  unfold execFsSet
  repeat' first | with_reducible assumption | (intro _) | with_reducible apply OutOk.ite | with_reducible apply ok_ite | with_reducible apply State.accept_ok | with_reducible apply State.fsSetAccept_ok | with_reducible apply OutOk.next | fail_if_no_progress (with_reducible apply State.mk_ok) | split

theorem State.fsCancel_ok {κ : Keep} (s : State) (o : Order) (hs : s.Kept κ) :
    State.Kept κ (State.fsCancel s o).2 := by
  unfold State.fsCancel
  repeat' first | with_reducible assumption | with_reducible apply ok_ite_fst | with_reducible apply ok_ite_snd | fail_if_no_progress (with_reducible refine mk_ok_snd rfl ?_) | fail_if_no_progress (with_reducible refine mk_ok_fst rfl ?_) | fail_if_no_progress (with_reducible refine mk_ok_snd_snd rfl ?_) | (intro _) | with_reducible apply ok_ite | with_reducible apply State.retire_ok | fail_if_no_progress (with_reducible apply State.mk_ok) | split

theorem State.fsWake_ok {κ : Keep} (s : State) (p : Nat) (hs : s.Kept κ) :
    State.Kept κ (State.fsWake s p) := by
  unfold State.fsWake
  repeat' first | with_reducible assumption | (intro _) | with_reducible apply ok_ite | with_reducible apply State.updAdc_ok | with_reducible apply State.updDac_ok | with_reducible apply foldl_ok | with_reducible apply foldl_ok_fst | with_reducible apply foldl_ok_snd | fail_if_no_progress (with_reducible apply State.mk_ok) | split

theorem execFsRelockDone_ok {κ : Keep} (ring index : Nat) (ok : Bool) (s : State) (hs : s.Kept κ) :
    OutOk κ (execFsRelockDone ring index ok s) := by
  unfold execFsRelockDone
  repeat' first | with_reducible assumption | (intro _) | with_reducible apply OutOk.ite | with_reducible apply ok_ite | extract_lets | with_reducible apply State.put_ok | with_reducible apply State.raiseInst_ok | with_reducible apply State.retireWith_ok | with_reducible apply State.fsWake_ok | with_reducible apply OutOk.next | fail_if_no_progress (with_reducible apply State.mk_ok) | split | dsimp +zetaDelta only

end Machine
end Sys2Proof
end

