-- ==== Sys2Proof/Laws/OkFirmware.lean ====
section
/-!
SUPPORT. The canonical form is kept by every operation of Machine/Firmware.lean.
-/

namespace Sys2Proof
namespace Machine

theorem Flash.record_config (f : Flash) (active trial tries : Nat) : (f.record active trial tries).config = f.config := by
  unfold Flash.record
  dsimp only
  split
  · split <;> rfl
  · rfl

theorem State.writeRecord_ok {κ : Keep} (s : State) (active trial tries : Nat) (hs : s.Kept κ) :
    State.Kept κ (State.writeRecord s active trial tries) :=
  ⟨hs.pending, hs.sent, hs.free, hs.regs, hs.cache, hs.pounds, hs.cus, hs.eth,
    (Flash.record_config s.flash active trial tries).symm ▸ hs.flash, hs.panel⟩

theorem State.bootSlot_ok {κ : Keep} (s : State) (slot : Nat) (i : FwImage) (hs : s.Kept κ) :
    State.Kept κ (State.bootSlot s slot i) := by
  unfold State.bootSlot
  repeat' first | with_reducible assumption | (intro _) | with_reducible apply ok_ite | extract_lets | with_reducible apply State.put_ok | fail_if_no_progress (with_reducible apply State.mk_ok) | split | dsimp +zetaDelta only

theorem State.bootRecovery_ok {κ : Keep} (s : State) (hs : s.Kept κ) :
    State.Kept κ (State.bootRecovery s) := by
  unfold State.bootRecovery
  repeat' first | with_reducible assumption | (intro _) | with_reducible apply ok_ite | with_reducible apply State.put_ok | fail_if_no_progress (with_reducible apply State.mk_ok) | split

theorem State.fallback_ok {κ : Keep} (s : State) (hs : s.Kept κ) :
    State.Kept κ (State.fallback s) := by
  unfold State.fallback
  repeat' first | with_reducible assumption | (intro _) | with_reducible apply ok_ite | with_reducible apply State.put_ok | with_reducible apply State.raiseInst_ok | fail_if_no_progress (with_reducible apply State.mk_ok) | split

theorem State.bootChoice_ok {κ : Keep} (s : State) (hs : s.Kept κ) :
    State.Kept κ (State.bootChoice s).2 := by
  unfold State.bootChoice
  repeat' first | with_reducible assumption | with_reducible apply ok_ite_fst | with_reducible apply ok_ite_snd | fail_if_no_progress (with_reducible refine mk_ok_snd rfl ?_) | fail_if_no_progress (with_reducible refine mk_ok_fst rfl ?_) | fail_if_no_progress (with_reducible refine mk_ok_snd_snd rfl ?_) | (intro _) | with_reducible apply ok_ite | with_reducible apply State.writeRecord_ok | with_reducible apply State.fallback_ok | fail_if_no_progress (with_reducible apply State.mk_ok) | split

theorem State.deviceReset_ok {κ : Keep} (s : State) (hs : s.Kept κ) :
    State.Kept κ (State.deviceReset s) := by
  unfold State.deviceReset
  repeat' first | with_reducible assumption | (intro _) | with_reducible apply ok_ite | extract_lets | with_reducible apply State.raise_ok | fail_if_no_progress (with_reducible apply State.mk_ok) | split | dsimp +zetaDelta only

theorem State.flashed_ok {κ : Keep} (s : State) (part : Option FlashPart) (hs : s.Kept κ) : State.Kept κ (State.flashed s part) := by
  cases part with
  | none => exact hs
  | some f => exact ⟨hs.pending, hs.sent, hs.free, hs.regs, hs.cache, hs.pounds, hs.cus, hs.eth, hs.flash, hs.panel⟩

theorem State.bootByRecord_ok {κ : Keep} (s : State) (hs : s.Kept κ) :
    State.Kept κ (State.bootByRecord s) := by
  unfold State.bootByRecord
  repeat' first | with_reducible assumption | (intro _) | with_reducible apply ok_ite | extract_lets | with_reducible apply State.bootSlot_ok | with_reducible apply State.bootRecovery_ok | with_reducible apply State.fallback_ok | with_reducible apply State.bootChoice_ok | fail_if_no_progress (with_reducible apply State.mk_ok) | split | dsimp +zetaDelta only | with_reducible apply ok_ite_snd | with_reducible apply ok_ite_fst | with_reducible apply id_ok

theorem State.bootForced_ok {κ : Keep} (s : State) (slot : Nat) (hs : s.Kept κ) :
    State.Kept κ (State.bootForced s slot) := by
  unfold State.bootForced
  repeat' first | with_reducible assumption | (intro _) | with_reducible apply ok_ite | with_reducible apply State.bootSlot_ok | with_reducible apply State.bootRecovery_ok | fail_if_no_progress (with_reducible apply State.mk_ok) | split

theorem State.holdMemory_ok {κ : Keep} (s : State) (hs : s.Kept κ) :
    State.Kept κ (State.holdMemory s) := by
  unfold State.holdMemory
  repeat' first | with_reducible assumption | (intro _) | with_reducible apply ok_ite | with_reducible apply State.send_ok | with_reducible apply foldl_ok | with_reducible apply foldl_ok_fst | with_reducible apply foldl_ok_snd | fail_if_no_progress (with_reducible apply State.mk_ok) | split

theorem execBoot_ok {κ : Keep} (part : Option FlashPart) (s : State) (hs : s.Kept κ) :
    OutOk κ (execBoot part s) := by
  unfold execBoot
  repeat' first | with_reducible assumption | (intro _) | with_reducible apply OutOk.ite | with_reducible apply ok_ite | extract_lets | with_reducible apply State.put_ok | with_reducible apply State.bootRecovery_ok | with_reducible apply State.deviceReset_ok | with_reducible apply State.flashed_ok | with_reducible apply State.bootByRecord_ok | with_reducible apply State.bootForced_ok | with_reducible apply State.holdMemory_ok | with_reducible apply OutOk.next | fail_if_no_progress (with_reducible apply State.mk_ok) | split | dsimp +zetaDelta only

theorem State.updMbx_ok {κ : Keep} (s : State) (ch : Nat) (f : Mailbox → Mailbox) (hs : s.Kept κ) :
    State.Kept κ (State.updMbx s ch f) := by
  unfold State.updMbx
  repeat' first | with_reducible assumption | (intro _) | with_reducible apply ok_ite | with_reducible apply State.put_ok | fail_if_no_progress (with_reducible apply State.mk_ok) | split

theorem State.mbxIrq_ok {κ : Keep} (s : State) (ch : Nat) (in_ : Bool) (hs : s.Kept κ) :
    State.Kept κ (State.mbxIrq s ch in_) := by
  unfold State.mbxIrq
  repeat' first | with_reducible assumption | (intro _) | with_reducible apply ok_ite | with_reducible apply State.irq_ok | fail_if_no_progress (with_reducible apply State.mk_ok) | split

theorem State.mbxIn_ok {κ : Keep} (s : State) (ch : Nat) (w : Word) (hs : s.Kept κ) :
    State.Kept κ (State.mbxIn s ch w) := by
  unfold State.mbxIn
  repeat' first | with_reducible assumption | (intro _) | with_reducible apply ok_ite | extract_lets | with_reducible apply State.put_ok | with_reducible apply State.raiseInst_ok | with_reducible apply State.updMbx_ok | fail_if_no_progress (with_reducible apply State.mk_ok) | split | dsimp +zetaDelta only

theorem State.mbxOut_ok {κ : Keep} (s : State) (ch : Nat) (hs : s.Kept κ) :
    State.Kept κ (State.mbxOut s ch).2 := by
  unfold State.mbxOut
  repeat' first | with_reducible assumption | with_reducible apply ok_ite_fst | with_reducible apply ok_ite_snd | fail_if_no_progress (with_reducible refine mk_ok_snd rfl ?_) | fail_if_no_progress (with_reducible refine mk_ok_fst rfl ?_) | fail_if_no_progress (with_reducible refine mk_ok_snd_snd rfl ?_) | (intro _) | with_reducible apply ok_ite | extract_lets | with_reducible apply State.updMbx_ok | fail_if_no_progress (with_reducible apply State.mk_ok) | split | dsimp +zetaDelta only

theorem State.readGate_ok {κ : Keep} (s : State) (p : Path) (key : Nat) (act : State → State) (hs : s.Kept κ) (hact : ∀ x, x.Kept κ → (act x).Kept κ) :
    State.Kept κ (State.readGate s p key act) := by
  unfold State.readGate
  repeat' first | with_reducible assumption | (intro _) | with_reducible apply hact | with_reducible apply ok_ite | with_reducible apply State.send_ok | with_reducible apply State.logAer_ok | fail_if_no_progress (with_reducible apply State.mk_ok) | split

theorem execMailboxInWrite_ok {κ : Keep} (p : Path) (ch : Fin 16) (w : Word) (s : State) (hs : s.Kept κ) :
    OutOk κ (execMailboxInWrite p ch w s) := by
  unfold execMailboxInWrite
  repeat' first | with_reducible assumption | (intro _) | with_reducible apply OutOk.ite | with_reducible apply ok_ite | with_reducible apply State.gateAction_ok | with_reducible apply State.mbxIn_ok | with_reducible apply OutOk.next | fail_if_no_progress (with_reducible apply State.mk_ok) | split

theorem execMailboxOutRead_ok {κ : Keep} (p : Path) (ch : Fin 16) (s : State) (hs : s.Kept κ) :
    OutOk κ (execMailboxOutRead p ch s) := by
  unfold execMailboxOutRead
  repeat' first | with_reducible assumption | (intro _) | with_reducible apply OutOk.ite | with_reducible apply ok_ite | extract_lets | with_reducible apply State.send_ok | with_reducible apply State.mbxOut_ok | with_reducible apply State.readGate_ok | with_reducible apply OutOk.next | fail_if_no_progress (with_reducible apply State.mk_ok) | split | dsimp +zetaDelta only | with_reducible apply ok_ite_snd | with_reducible apply ok_ite_fst | with_reducible apply id_ok

theorem State.retract_ok {κ : Keep} (s : State) (ch : Nat) (hs : s.Kept κ) :
    State.Kept κ (State.retract s ch) := by
  unfold State.retract
  repeat' first | with_reducible assumption | (intro _) | with_reducible apply ok_ite | extract_lets | with_reducible apply State.put_ok | with_reducible apply State.updMbx_ok | with_reducible apply State.mbxIrq_ok | fail_if_no_progress (with_reducible apply State.mk_ok) | split | dsimp +zetaDelta only

theorem execRetract_ok {κ : Keep} (p : Path) (ch : Fin 16) (s : State) (hs : s.Kept κ) :
    OutOk κ (execRetract p ch s) := by
  unfold execRetract
  repeat' first | with_reducible assumption | (intro _) | with_reducible apply OutOk.ite | with_reducible apply ok_ite | with_reducible apply State.gateAction_ok | with_reducible apply State.retract_ok | with_reducible apply OutOk.next | fail_if_no_progress (with_reducible apply State.mk_ok) | split

theorem execFirmwareInRead_ok {κ : Keep} (ch : Fin 16) (s : State) (hs : s.Kept κ) :
    OutOk κ (execFirmwareInRead ch s) := by
  unfold execFirmwareInRead
  repeat' first | with_reducible assumption | (intro _) | with_reducible apply OutOk.ite | with_reducible apply ok_ite | extract_lets | with_reducible apply State.updMbx_ok | with_reducible apply State.mbxIrq_ok | with_reducible apply OutOk.next | fail_if_no_progress (with_reducible apply State.mk_ok) | split | dsimp +zetaDelta only

theorem execFirmwareOutWrite_ok {κ : Keep} (ch : Fin 16) (s : State) (hs : s.Kept κ) :
    OutOk κ (execFirmwareOutWrite ch s) := by
  unfold execFirmwareOutWrite
  repeat' first | with_reducible assumption | (intro _) | with_reducible apply OutOk.ite | with_reducible apply ok_ite | extract_lets | with_reducible apply State.wakeCause_ok | with_reducible apply State.updMbx_ok | with_reducible apply State.mbxIrq_ok | with_reducible apply OutOk.next | fail_if_no_progress (with_reducible apply State.mk_ok) | split | dsimp +zetaDelta only

theorem State.hello_ok {κ : Keep} (s : State) (hs : s.Kept κ) :
    State.Kept κ (State.hello s) := by
  unfold State.hello
  repeat' first | with_reducible assumption | (intro _) | with_reducible apply ok_ite | extract_lets | with_reducible apply State.updMbx_ok | with_reducible apply foldl_ok | with_reducible apply foldl_ok_fst | with_reducible apply foldl_ok_snd | fail_if_no_progress (with_reducible apply State.mk_ok) | split | dsimp +zetaDelta only

theorem State.loadSets_ok {κ : Keep} (s : State) (hs : s.Kept κ) :
    State.Kept κ (State.loadSets s) := by
  unfold State.loadSets
  repeat' first | with_reducible assumption | (intro _) | with_reducible apply ok_ite | extract_lets | with_reducible apply State.setWord_ok | with_reducible apply State.put_ok | with_reducible apply State.updCal_ok | with_reducible apply State.putSetsValid_ok | with_reducible apply foldl_ok | with_reducible apply foldl_ok_fst | with_reducible apply foldl_ok_snd | fail_if_no_progress (with_reducible apply State.mk_ok) | split | dsimp +zetaDelta only | with_reducible apply ok_ite_snd | with_reducible apply ok_ite_fst | with_reducible apply id_ok

theorem State.firmwareStarts_ok {κ : Keep} (s : State) (hs : s.Kept κ) :
    State.Kept κ (State.firmwareStarts s) := by
  unfold State.firmwareStarts
  repeat' first | with_reducible assumption | (intro _) | with_reducible apply ok_ite | extract_lets | with_reducible apply State.send_ok | with_reducible apply State.put_ok | with_reducible apply State.hello_ok | with_reducible apply State.loadSets_ok | with_reducible apply foldl_ok | with_reducible apply foldl_ok_fst | with_reducible apply foldl_ok_snd | fail_if_no_progress (with_reducible apply State.mk_ok) | split | dsimp +zetaDelta only | with_reducible apply ok_ite_snd | with_reducible apply ok_ite_fst | with_reducible apply id_ok

theorem execFirmwareReady_ok {κ : Keep} (s : State) (hs : s.Kept κ) :
    OutOk κ (execFirmwareReady s) := by
  unfold execFirmwareReady
  repeat' first | with_reducible assumption | (intro _) | with_reducible apply OutOk.ite | with_reducible apply ok_ite | with_reducible apply State.firmwareStarts_ok | with_reducible apply OutOk.next | fail_if_no_progress (with_reducible apply State.mk_ok) | split

theorem State.lkRestart_ok {κ : Keep} (s : State) (k : Nat) (hs : s.Kept κ) :
    State.Kept κ (State.lkRestart s k) := by
  unfold State.lkRestart
  repeat' first | with_reducible assumption | (intro _) | with_reducible apply ok_ite | extract_lets | with_reducible apply State.put_ok | with_reducible apply State.raiseInst_ok | fail_if_no_progress (with_reducible apply State.mk_ok) | split | dsimp +zetaDelta only

theorem execWatchdogExpiry_ok {κ : Keep} (k : Fin 4) (s : State) (hs : s.Kept κ) :
    OutOk κ (execWatchdogExpiry k s) := by
  unfold execWatchdogExpiry
  repeat' first | with_reducible assumption | (intro _) | with_reducible apply OutOk.ite | with_reducible apply ok_ite | extract_lets | with_reducible apply State.put_ok | with_reducible apply State.satInc_ok | with_reducible apply State.raiseInst_ok | with_reducible apply State.lkRestart_ok | with_reducible apply OutOk.next | fail_if_no_progress (with_reducible apply State.mk_ok) | split | dsimp +zetaDelta only

theorem State.reply_ok {κ : Keep} (s : State) (ch service tag status : Nat) (data : List Word) (hs : s.Kept κ) :
    State.Kept κ (State.reply s ch service tag status data) := by
  unfold State.reply
  repeat' first | with_reducible assumption | (intro _) | with_reducible apply ok_ite | with_reducible apply State.updMbx_ok | fail_if_no_progress (with_reducible apply State.mk_ok) | split

theorem State.endActivation_ok {κ : Keep} (s : State) (a : Activation) (outcome : Nat) (hs : s.Kept κ) :
    State.Kept κ (State.endActivation s a outcome) := by
  unfold State.endActivation
  repeat' first | with_reducible assumption | (intro _) | with_reducible apply ok_ite | extract_lets | with_reducible apply State.put_ok | with_reducible apply State.reply_ok | fail_if_no_progress (with_reducible apply State.mk_ok) | split | dsimp +zetaDelta only

theorem State.activationStep_ok {κ : Keep} (s : State) (a : Activation) (hs : s.Kept κ) :
    State.Kept κ (State.activationStep s a) := by
  unfold State.activationStep
  repeat' first | with_reducible assumption | (intro _) | with_reducible apply ok_ite | with_reducible apply State.lkRestart_ok | with_reducible apply State.endActivation_ok | fail_if_no_progress (with_reducible apply State.mk_ok) | split

theorem State.lkReady_ok {κ : Keep} (s : State) (k : Nat) (hs : s.Kept κ) :
    State.Kept κ (State.lkReady s k) := by
  unfold State.lkReady
  repeat' first | with_reducible assumption | (intro _) | with_reducible apply ok_ite | extract_lets | with_reducible apply State.put_ok | with_reducible apply State.hello_ok | with_reducible apply State.activationStep_ok | fail_if_no_progress (with_reducible apply State.mk_ok) | split | dsimp +zetaDelta only

theorem execLkRestartTimeout_ok {κ : Keep} (k : Fin 4) (s : State) (hs : s.Kept κ) :
    OutOk κ (execLkRestartTimeout k s) := by
  unfold execLkRestartTimeout
  repeat' first | with_reducible assumption | (intro _) | with_reducible apply OutOk.ite | with_reducible apply ok_ite | extract_lets | with_reducible apply State.put_ok | with_reducible apply State.raiseInst_ok | with_reducible apply State.activationStep_ok | with_reducible apply OutOk.next | fail_if_no_progress (with_reducible apply State.mk_ok) | split | dsimp +zetaDelta only

theorem State.stagingFails_ok {κ : Keep} (s : State) (result : Nat) (hs : s.Kept κ) :
    State.Kept κ (State.stagingFails s result) := by
  unfold State.stagingFails
  repeat' first | with_reducible assumption | (intro _) | with_reducible apply ok_ite | with_reducible apply State.put_ok | with_reducible apply State.irq_ok | fail_if_no_progress (with_reducible apply State.mk_ok) | split

theorem State.stagingReads_ok {κ : Keep} (s : State) (hs : s.Kept κ) :
    State.Kept κ (State.stagingReads s) := by
  unfold State.stagingReads
  repeat' first | with_reducible assumption | (intro _) | with_reducible apply ok_ite | extract_lets | with_reducible apply State.readHost_ok | fail_if_no_progress (with_reducible apply State.mk_ok) | split

theorem State.stagingGo_ok {κ : Keep} (s : State) (op : Nat) (hs : s.Kept κ) :
    State.Kept κ (State.stagingGo s op) := by
  unfold State.stagingGo
  repeat' first | with_reducible assumption | (intro _) | with_reducible apply ok_ite | extract_lets | with_reducible apply State.fresh_ok | with_reducible apply State.put_ok | with_reducible apply State.stagingReads_ok | with_reducible apply State.stagingFails_ok | fail_if_no_progress (with_reducible apply State.mk_ok) | split | dsimp +zetaDelta only | with_reducible apply ok_ite_snd | with_reducible apply ok_ite_fst | with_reducible apply id_ok

theorem execFwsVerify_ok {κ : Keep} (p : Path) (s : State) (hs : s.Kept κ) :
    OutOk κ (execFwsVerify p s) := by
  unfold execFwsVerify
  repeat' first | with_reducible assumption | (intro _) | with_reducible apply OutOk.ite | with_reducible apply ok_ite | with_reducible apply State.gateAction_ok | with_reducible apply State.stagingGo_ok | with_reducible apply OutOk.next | fail_if_no_progress (with_reducible apply State.mk_ok) | split

theorem execFwsWrite_ok {κ : Keep} (p : Path) (s : State) (hs : s.Kept κ) :
    OutOk κ (execFwsWrite p s) := by
  unfold execFwsWrite
  repeat' first | with_reducible assumption | (intro _) | with_reducible apply OutOk.ite | with_reducible apply ok_ite | with_reducible apply State.gateAction_ok | with_reducible apply State.stagingGo_ok | with_reducible apply OutOk.next | fail_if_no_progress (with_reducible apply State.mk_ok) | split

theorem execFwsRun_ok {κ : Keep} (p : Path) (s : State) (hs : s.Kept κ) :
    OutOk κ (execFwsRun p s) := by
  unfold execFwsRun
  repeat' first | with_reducible assumption | (intro _) | with_reducible apply OutOk.ite | with_reducible apply ok_ite | with_reducible apply State.gateAction_ok | with_reducible apply State.stagingGo_ok | with_reducible apply OutOk.next | fail_if_no_progress (with_reducible apply State.mk_ok) | split

theorem State.badWrite_ok {κ : Keep} (s : State) (img : FwImage) (hs : s.Kept κ) :
    State.Kept κ (State.badWrite s img).2 := by
  unfold State.badWrite
  repeat' first | with_reducible assumption | with_reducible apply ok_ite_fst | with_reducible apply ok_ite_snd | fail_if_no_progress (with_reducible refine mk_ok_snd rfl ?_) | fail_if_no_progress (with_reducible refine mk_ok_fst rfl ?_) | fail_if_no_progress (with_reducible refine mk_ok_snd_snd rfl ?_) | (intro _) | with_reducible apply ok_ite | extract_lets | with_reducible apply State.fresh_ok | fail_if_no_progress (with_reducible apply State.mk_ok) | split | dsimp +zetaDelta only | with_reducible apply ok_ite_snd | with_reducible apply ok_ite_fst | with_reducible apply id_ok

theorem execStagingDone_ok {κ : Keep} (img : FwImage) (flashOk : Bool) (s : State) (hs : s.Kept κ) :
    OutOk κ (execStagingDone img flashOk s) := by
  unfold execStagingDone
  repeat' first | with_reducible assumption | exact fun h => h | exact fun h => Mem.writes_wf _ _ _ _ h | exact Nat.le_succ _ | (intro _) | with_reducible apply OutOk.ite | with_reducible apply ok_ite | extract_lets | with_reducible apply State.put_ok | with_reducible apply State.readDone_ok | with_reducible apply State.irq_ok | with_reducible apply slotA_ok | with_reducible apply slotB_ok | with_reducible apply State.writeRecord_ok | with_reducible apply State.firmwareStarts_ok | with_reducible apply State.stagingFails_ok | with_reducible apply State.badWrite_ok | with_reducible apply OutOk.next | fail_if_no_progress (with_reducible apply State.mk_ok) | fail_if_no_progress (with_reducible apply State.mk_ok_flash) | split | dsimp +zetaDelta only | with_reducible apply ok_ite_snd | with_reducible apply ok_ite_fst | with_reducible apply id_ok

theorem State.serve_ok {κ : Keep} (s : State) (ch code : Nat) (secure : Bool) (len : Nat → Bool) (act : List Word → State → Nat × List Word × State) (hs : s.Kept κ) (hact : ∀ y x, x.Kept κ → (act y x).2.2.Kept κ) :
    State.Kept κ (State.serve s ch code secure len act) := by
  unfold State.serve
  repeat' first | with_reducible assumption | (intro _) | with_reducible apply hact | with_reducible apply ok_ite | extract_lets | with_reducible apply State.updMbx_ok | with_reducible apply State.reply_ok | fail_if_no_progress (with_reducible apply State.mk_ok) | split | dsimp +zetaDelta only | with_reducible apply ok_ite_snd | with_reducible apply ok_ite_fst | with_reducible apply id_ok

theorem execVersion_ok {κ : Keep} (ch : Fin 16) (s : State) (hs : s.Kept κ) :
    OutOk κ (execVersion ch s) := by
  unfold execVersion
  repeat' first | with_reducible assumption | (intro _) | with_reducible apply OutOk.ite | with_reducible apply ok_ite | extract_lets | with_reducible apply State.serve_ok | with_reducible apply OutOk.next | fail_if_no_progress (with_reducible apply State.mk_ok) | split | dsimp +zetaDelta only

theorem execHealth_ok {κ : Keep} (ch : Fin 16) (s : State) (hs : s.Kept κ) :
    OutOk κ (execHealth ch s) := by
  unfold execHealth
  repeat' first | with_reducible assumption | (intro _) | with_reducible apply OutOk.ite | with_reducible apply ok_ite | with_reducible apply State.serve_ok | with_reducible apply OutOk.next | fail_if_no_progress (with_reducible apply State.mk_ok) | split

theorem execFwActivate_ok {κ : Keep} (ch : Fin 16) (s : State) (hs : s.Kept κ) :
    OutOk κ (execFwActivate ch s) := by
  unfold execFwActivate
  repeat' first | with_reducible assumption | (intro _) | with_reducible apply OutOk.ite | with_reducible apply ok_ite | extract_lets | with_reducible apply State.put_ok | with_reducible apply State.updMbx_ok | with_reducible apply State.lkRestart_ok | with_reducible apply State.reply_ok | with_reducible apply OutOk.next | fail_if_no_progress (with_reducible apply State.mk_ok) | split | dsimp +zetaDelta only

theorem execFwCommit_ok {κ : Keep} (ch : Fin 16) (s : State) (hs : s.Kept κ) :
    OutOk κ (execFwCommit ch s) := by
  unfold execFwCommit
  repeat' first | with_reducible assumption | (intro _) | with_reducible apply OutOk.ite | with_reducible apply ok_ite | with_reducible apply State.put_ok | with_reducible apply State.writeRecord_ok | with_reducible apply State.serve_ok | with_reducible apply OutOk.next | fail_if_no_progress (with_reducible apply State.mk_ok) | split

theorem execSvnCommit_ok {κ : Keep} (ch : Fin 16) (s : State) (hs : s.Kept κ) :
    OutOk κ (execSvnCommit ch s) := by
  unfold execSvnCommit
  repeat' first | with_reducible assumption | (intro _) | with_reducible apply OutOk.ite | with_reducible apply ok_ite | extract_lets | with_reducible apply State.serve_ok | with_reducible apply OutOk.next | fail_if_no_progress (with_reducible apply State.mk_ok) | split | dsimp +zetaDelta only

theorem State.writeConfig_ok {κ : Keep} (s : State) (off : Nat) (bs : List Byte) (hs : s.Kept κ) :
    State.Kept κ (State.writeConfig s off bs) :=
  ⟨hs.pending, hs.sent, hs.free, hs.regs, hs.cache, hs.pounds, hs.cus, hs.eth, Mem.writes_wf _ _ _ _ hs.flash, hs.panel⟩

theorem execCfgWrite_ok {κ : Keep} (ch : Fin 16) (s : State) (hs : s.Kept κ) :
    OutOk κ (execCfgWrite ch s) := by
  unfold execCfgWrite
  repeat' first | with_reducible assumption | (intro _) | with_reducible apply OutOk.ite | with_reducible apply ok_ite | extract_lets | with_reducible apply State.serve_ok | with_reducible apply State.writeConfig_ok | with_reducible apply OutOk.next | fail_if_no_progress (with_reducible apply State.mk_ok) | split | dsimp +zetaDelta only

theorem State.freshWords_ok {κ : Keep} (s : State) (n_ : Nat) (hs : s.Kept κ) :
    State.Kept κ (State.freshWords s n_).2 := by
  induction n_ generalizing s with
  | zero =>
    unfold State.freshWords
    repeat' first | with_reducible assumption | with_reducible apply ih | with_reducible apply ok_ite_fst | with_reducible apply ok_ite_snd | fail_if_no_progress (with_reducible refine mk_ok_snd rfl ?_) | fail_if_no_progress (with_reducible refine mk_ok_fst rfl ?_) | fail_if_no_progress (with_reducible refine mk_ok_snd_snd rfl ?_) | (intro _) | with_reducible apply ok_ite | extract_lets | with_reducible apply State.fresh_ok | fail_if_no_progress (with_reducible apply State.mk_ok) | split | dsimp +zetaDelta only | with_reducible apply ok_ite_snd | with_reducible apply ok_ite_fst | with_reducible apply id_ok
  | succ n ih =>
    unfold State.freshWords
    repeat' first | with_reducible assumption | with_reducible apply ih | with_reducible apply ok_ite_fst | with_reducible apply ok_ite_snd | fail_if_no_progress (with_reducible refine mk_ok_snd rfl ?_) | fail_if_no_progress (with_reducible refine mk_ok_fst rfl ?_) | fail_if_no_progress (with_reducible refine mk_ok_snd_snd rfl ?_) | (intro _) | with_reducible apply ok_ite | extract_lets | with_reducible apply State.fresh_ok | fail_if_no_progress (with_reducible apply State.mk_ok) | split | dsimp +zetaDelta only | with_reducible apply ok_ite_snd | with_reducible apply ok_ite_fst | with_reducible apply id_ok

theorem execLogRead_ok {κ : Keep} (ch : Fin 16) (s : State) (hs : s.Kept κ) :
    OutOk κ (execLogRead ch s) := by
  unfold execLogRead
  repeat' first | with_reducible assumption | (intro _) | with_reducible apply OutOk.ite | with_reducible apply ok_ite | extract_lets | with_reducible apply State.fresh_ok | with_reducible apply State.serve_ok | with_reducible apply State.freshWords_ok | with_reducible apply OutOk.next | fail_if_no_progress (with_reducible apply State.mk_ok) | split | dsimp +zetaDelta only | with_reducible apply ok_ite_snd | with_reducible apply ok_ite_fst | with_reducible apply id_ok

theorem execUnknownService_ok {κ : Keep} (ch : Fin 16) (s : State) (hs : s.Kept κ) :
    OutOk κ (execUnknownService ch s) := by
  unfold execUnknownService
  repeat' first | with_reducible assumption | (intro _) | with_reducible apply OutOk.ite | with_reducible apply ok_ite | with_reducible apply State.serve_ok | with_reducible apply OutOk.next | fail_if_no_progress (with_reducible apply State.mk_ok) | split

end Machine
end Sys2Proof
end

