-- ==== Sys2Proof/Laws/OkDisplay.lean ====
section
/-!
SUPPORT. The canonical form is kept by every operation of Machine/Display.lean.
-/

namespace Sys2Proof
namespace Machine

theorem State.setHead_ok {κ : Keep} (s : State) (h st : Nat) (hs : s.Kept κ) :
    State.Kept κ (State.setHead s h st) := by
  unfold State.setHead
  repeat' first | with_reducible assumption | (intro _) | with_reducible apply ok_ite | extract_lets | with_reducible apply State.put_ok | with_reducible apply State.updHead_ok | fail_if_no_progress (with_reducible apply State.mk_ok) | split | dsimp +zetaDelta only

theorem State.trainHead_ok {κ : Keep} (s : State) (h : Nat) (hs : s.Kept κ) :
    State.Kept κ (State.trainHead s h) := by
  unfold State.trainHead
  repeat' first | with_reducible assumption | (intro _) | with_reducible apply ok_ite | with_reducible apply State.updHead_ok | with_reducible apply State.setHead_ok | fail_if_no_progress (with_reducible apply State.mk_ok) | split

theorem State.seekSink_ok {κ : Keep} (s : State) (h : Nat) (hs : s.Kept κ) :
    State.Kept κ (State.seekSink s h) := by
  unfold State.seekSink
  repeat' first | with_reducible assumption | (intro _) | with_reducible apply ok_ite | with_reducible apply State.setHead_ok | with_reducible apply State.trainHead_ok | fail_if_no_progress (with_reducible apply State.mk_ok) | split

theorem State.enableHead_ok {κ : Keep} (s : State) (h : Nat) (w : Word) (hs : s.Kept κ) :
    State.Kept κ (State.enableHead s h w) := by
  unfold State.enableHead
  repeat' first | with_reducible assumption | (intro _) | with_reducible apply ok_ite | extract_lets | with_reducible apply State.put_ok | with_reducible apply State.plainWrite_ok | with_reducible apply State.setHead_ok | with_reducible apply State.seekSink_ok | fail_if_no_progress (with_reducible apply State.mk_ok) | split | dsimp +zetaDelta only

theorem State.commitHead_ok {κ : Keep} (s : State) (h : Nat) (hs : s.Kept κ) :
    State.Kept κ (State.commitHead s h) := by
  unfold State.commitHead
  repeat' first | with_reducible assumption | (intro _) | with_reducible apply ok_ite | with_reducible apply State.put_ok | fail_if_no_progress (with_reducible apply State.mk_ok) | split

theorem State.writeDispCtl_ok {κ : Keep} (s : State) (h : Nat) (w : Word) (hs : s.Kept κ) :
    State.Kept κ (State.writeDispCtl s h w) := by
  unfold State.writeDispCtl
  repeat' first | with_reducible assumption | (intro _) | with_reducible apply ok_ite | extract_lets | with_reducible apply State.enableHead_ok | with_reducible apply State.commitHead_ok | fail_if_no_progress (with_reducible apply State.mk_ok) | split | dsimp +zetaDelta only

theorem execDispEnable_ok {κ : Keep} (p : Path) (h : Fin 2) (w : Word) (s : State) (hs : s.Kept κ) :
    OutOk κ (execDispEnable p h w s) := by
  unfold execDispEnable
  repeat' first | with_reducible assumption | (intro _) | with_reducible apply OutOk.ite | with_reducible apply ok_ite | with_reducible apply State.retainWrite_ok | with_reducible apply State.gate_ok | with_reducible apply State.writeDispCtl_ok | with_reducible apply OutOk.next | fail_if_no_progress (with_reducible apply State.mk_ok) | split

theorem execCommit_ok {κ : Keep} (p : Path) (h : Fin 2) (s : State) (hs : s.Kept κ) :
    OutOk κ (execCommit p h s) := by
  unfold execCommit
  repeat' first | with_reducible assumption | (intro _) | with_reducible apply OutOk.ite | with_reducible apply ok_ite | with_reducible apply State.gateAction_ok | with_reducible apply State.commitHead_ok | with_reducible apply OutOk.next | fail_if_no_progress (with_reducible apply State.mk_ok) | split

theorem execHpdPlug_ok {κ : Keep} (h : Fin 2) (s : State) (hs : s.Kept κ) :
    OutOk κ (execHpdPlug h s) := by
  unfold execHpdPlug
  repeat' first | with_reducible assumption | (intro _) | with_reducible apply OutOk.ite | with_reducible apply ok_ite | extract_lets | with_reducible apply State.put_ok | with_reducible apply State.trainHead_ok | with_reducible apply OutOk.next | fail_if_no_progress (with_reducible apply State.mk_ok) | split | dsimp +zetaDelta only

theorem execHpdUnplug_ok {κ : Keep} (h : Fin 2) (s : State) (hs : s.Kept κ) :
    OutOk κ (execHpdUnplug h s) := by
  unfold execHpdUnplug
  repeat' first | with_reducible assumption | (intro _) | with_reducible apply OutOk.ite | with_reducible apply ok_ite | extract_lets | with_reducible apply State.put_ok | with_reducible apply State.updHead_ok | with_reducible apply State.setHead_ok | with_reducible apply OutOk.next | fail_if_no_progress (with_reducible apply State.mk_ok) | split | dsimp +zetaDelta only

theorem execHpdIrq_ok {κ : Keep} (h : Fin 2) (lost : Bool) (s : State) (hs : s.Kept κ) :
    OutOk κ (execHpdIrq h lost s) := by
  unfold execHpdIrq
  repeat' first | with_reducible assumption | (intro _) | with_reducible apply OutOk.ite | with_reducible apply ok_ite | with_reducible apply State.trainHead_ok | with_reducible apply OutOk.next | fail_if_no_progress (with_reducible apply State.mk_ok) | split

theorem State.headFails_ok {κ : Keep} (s : State) (h : Nat) (hs : s.Kept κ) :
    State.Kept κ (State.headFails s h) := by
  unfold State.headFails
  repeat' first | with_reducible assumption | (intro _) | with_reducible apply ok_ite | with_reducible apply State.put_ok | with_reducible apply State.setHead_ok | fail_if_no_progress (with_reducible apply State.mk_ok) | split

theorem execDispTrainingDone_ok {κ : Keep} (h : Fin 2) (rate : Fin 5) (lanes : Fin 5) (ok : Bool) (s : State) (hs : s.Kept κ) :
    OutOk κ (execDispTrainingDone h rate lanes ok s) := by
  unfold execDispTrainingDone
  repeat' first | with_reducible assumption | (intro _) | with_reducible apply OutOk.ite | with_reducible apply ok_ite | extract_lets | with_reducible apply State.put_ok | with_reducible apply State.updHead_ok | with_reducible apply State.setHead_ok | with_reducible apply State.headFails_ok | with_reducible apply OutOk.next | fail_if_no_progress (with_reducible apply State.mk_ok) | split | dsimp +zetaDelta only

theorem State.headEvent_ok {κ : Keep} (s : State) (src h : Nat) (hs : s.Kept κ) :
    State.Kept κ (State.headEvent s src h) := by
  unfold State.headEvent
  repeat' first | with_reducible assumption | (intro _) | with_reducible apply ok_ite | with_reducible apply State.raise_ok | fail_if_no_progress (with_reducible apply State.mk_ok) | split

theorem State.copyShadow_ok {κ : Keep} (s : State) (h : Nat) (hs : s.Kept κ) :
    State.Kept κ (State.copyShadow s h).2 := by
  unfold State.copyShadow
  repeat' first | with_reducible assumption | with_reducible apply ok_ite_fst | with_reducible apply ok_ite_snd | fail_if_no_progress (with_reducible refine mk_ok_snd rfl ?_) | fail_if_no_progress (with_reducible refine mk_ok_fst rfl ?_) | fail_if_no_progress (with_reducible refine mk_ok_snd_snd rfl ?_) | (intro _) | with_reducible apply ok_ite | extract_lets | with_reducible apply State.put_ok | with_reducible apply State.updHead_ok | with_reducible apply foldl_ok | with_reducible apply foldl_ok_fst | with_reducible apply foldl_ok_snd | fail_if_no_progress (with_reducible apply State.mk_ok) | split | dsimp +zetaDelta only

theorem State.beginFrame_ok {κ : Keep} (s : State) (h : Nat) (hs : s.Kept κ) :
    State.Kept κ (State.beginFrame s h) := by
  unfold State.beginFrame
  repeat' first | with_reducible assumption | (intro _) | with_reducible apply ok_ite | extract_lets | with_reducible apply State.put_ok | with_reducible apply State.updReam_ok | with_reducible apply State.updHead_ok | with_reducible apply foldl_ok | with_reducible apply foldl_ok_fst | with_reducible apply foldl_ok_snd | fail_if_no_progress (with_reducible apply State.mk_ok) | split | dsimp +zetaDelta only | with_reducible apply ok_ite_snd | with_reducible apply ok_ite_fst | with_reducible apply id_ok

theorem State.blankingBegins_ok {κ : Keep} (s : State) (h : Nat) (hs : s.Kept κ) :
    State.Kept κ (State.blankingBegins s h) := by
  unfold State.blankingBegins
  repeat' first | with_reducible assumption | (intro _) | with_reducible apply ok_ite | extract_lets | with_reducible apply State.put_ok | with_reducible apply State.inc_ok | with_reducible apply State.updHead_ok | with_reducible apply State.headEvent_ok | fail_if_no_progress (with_reducible apply State.mk_ok) | split | dsimp +zetaDelta only

theorem execVerticalBlankingStart_ok {κ : Keep} (h : Fin 2) (s : State) (hs : s.Kept κ) :
    OutOk κ (execVerticalBlankingStart h s) := by
  unfold execVerticalBlankingStart
  repeat' first | with_reducible assumption | (intro _) | with_reducible apply OutOk.ite | with_reducible apply ok_ite | extract_lets | with_reducible apply State.setHead_ok | with_reducible apply State.copyShadow_ok | with_reducible apply State.beginFrame_ok | with_reducible apply State.blankingBegins_ok | with_reducible apply OutOk.next | fail_if_no_progress (with_reducible apply State.mk_ok) | split | dsimp +zetaDelta only | with_reducible apply ok_ite_snd | with_reducible apply ok_ite_fst | with_reducible apply id_ok

theorem State.viewNeeded_ok {κ : Keep} (s : State) (h : Nat) (hs : s.Kept κ) :
    State.Kept κ (State.viewNeeded s h) := by
  unfold State.viewNeeded
  repeat' first | with_reducible assumption | (intro _) | with_reducible apply ok_ite | extract_lets | with_reducible apply State.satInc_ok | with_reducible apply State.updReam_ok | with_reducible apply State.viewsDue_ok | with_reducible apply foldl_ok | with_reducible apply foldl_ok_fst | with_reducible apply foldl_ok_snd | fail_if_no_progress (with_reducible apply State.mk_ok) | split | dsimp +zetaDelta only | with_reducible apply ok_ite_snd | with_reducible apply ok_ite_fst | with_reducible apply id_ok

theorem State.sendLine_ok {κ : Keep} (s : State) (h y supplied : Nat) (hs : s.Kept κ) :
    State.Kept κ (State.sendLine s h y supplied) := by
  unfold State.sendLine
  repeat' first | with_reducible assumption | (intro _) | with_reducible apply ok_ite | extract_lets | with_reducible apply State.send_ok | with_reducible apply State.put_ok | with_reducible apply State.satInc_ok | with_reducible apply State.raiseInst_ok | with_reducible apply State.updHead_ok | with_reducible apply State.headEvent_ok | with_reducible apply State.viewNeeded_ok | fail_if_no_progress (with_reducible apply State.mk_ok) | split | dsimp +zetaDelta only

theorem execActiveLineStart_ok {κ : Keep} (h : Fin 2) (supplied : Fin 3841) (s : State) (hs : s.Kept κ) :
    OutOk κ (execActiveLineStart h supplied s) := by
  unfold execActiveLineStart
  repeat' first | with_reducible assumption | (intro _) | with_reducible apply OutOk.ite | with_reducible apply ok_ite | extract_lets | with_reducible apply State.sendLine_ok | with_reducible apply OutOk.next | fail_if_no_progress (with_reducible apply State.mk_ok) | split | dsimp +zetaDelta only

theorem State.dispEdidAccept_ok {κ : Keep} (o : Order) (s : State) (hs : s.Kept κ) :
    State.Kept κ (State.dispEdidAccept o s) := by
  unfold State.dispEdidAccept
  repeat' first | with_reducible assumption | (intro _) | with_reducible apply ok_ite | extract_lets | with_reducible apply State.retire_ok | with_reducible apply State.validate_ok | fail_if_no_progress (with_reducible apply State.mk_ok) | split | dsimp +zetaDelta only

theorem execDispEdid_ok {κ : Keep} (s : State) (hs : s.Kept κ) :
    OutOk κ (execDispEdid s) := by
  unfold execDispEdid
  repeat' first | with_reducible assumption | (intro _) | with_reducible apply OutOk.ite | with_reducible apply ok_ite | with_reducible apply State.accept_ok | with_reducible apply State.dispEdidAccept_ok | with_reducible apply OutOk.next | fail_if_no_progress (with_reducible apply State.mk_ok) | split

theorem State.edidEnd_ok {κ : Keep} (s : State) (o : Order) (status n : Nat) (hs : s.Kept κ) :
    State.Kept κ (State.edidEnd s o status n) := by
  unfold State.edidEnd
  repeat' first | with_reducible assumption | (intro _) | with_reducible apply ok_ite | with_reducible apply State.retireWith_ok | fail_if_no_progress (with_reducible apply State.mk_ok) | split

theorem execAuxTransactionDone_ok {κ : Keep} (ring index : Nat) (answer : Option (List Byte)) (s : State) (hs : s.Kept κ) :
    OutOk κ (execAuxTransactionDone ring index answer s) := by
  unfold execAuxTransactionDone
  repeat' first | with_reducible assumption | (intro _) | with_reducible apply OutOk.ite | with_reducible apply ok_ite | extract_lets | with_reducible apply State.writeHost_ok | with_reducible apply State.updOrder_ok | with_reducible apply State.edidEnd_ok | with_reducible apply OutOk.next | fail_if_no_progress (with_reducible apply State.mk_ok) | split | dsimp +zetaDelta only

theorem State.edidCancel_ok {κ : Keep} (s : State) (o : Order) (hs : s.Kept κ) :
    State.Kept κ (State.edidCancel s o) := by
  unfold State.edidCancel
  repeat' first | with_reducible assumption | (intro _) | with_reducible apply ok_ite | with_reducible apply State.updOrder_ok | with_reducible apply State.retire_ok | fail_if_no_progress (with_reducible apply State.mk_ok) | split

theorem State.dispPaletteAccept_ok {κ : Keep} (o : Order) (s : State) (hs : s.Kept κ) :
    State.Kept κ (State.dispPaletteAccept o s) := by
  unfold State.dispPaletteAccept
  repeat' first | with_reducible assumption | (intro _) | with_reducible apply ok_ite | with_reducible apply State.validate_ok | with_reducible apply State.startRead_ok | fail_if_no_progress (with_reducible apply State.mk_ok) | split

theorem execDispPalette_ok {κ : Keep} (s : State) (hs : s.Kept κ) :
    OutOk κ (execDispPalette s) := by
  unfold execDispPalette
  repeat' first | with_reducible assumption | (intro _) | with_reducible apply OutOk.ite | with_reducible apply ok_ite | with_reducible apply State.accept_ok | with_reducible apply State.dispPaletteAccept_ok | with_reducible apply OutOk.next | fail_if_no_progress (with_reducible apply State.mk_ok) | split

theorem State.paletteArrived_ok {κ : Keep} (s : State) (o : Order) (bs : List Byte) (hs : s.Kept κ) :
    State.Kept κ (State.paletteArrived s o bs) := by
  unfold State.paletteArrived
  repeat' first | with_reducible assumption | (intro _) | with_reducible apply ok_ite | extract_lets | with_reducible apply State.retire_ok | with_reducible apply State.updHead_ok | fail_if_no_progress (with_reducible apply State.mk_ok) | split | dsimp +zetaDelta only

theorem State.pnlBegin_ok {κ : Keep} (s : State) (hs : s.Kept κ) :
    State.Kept κ (State.pnlBegin s) := by
  unfold State.pnlBegin
  repeat' first | with_reducible assumption | exact fun h => h | exact fun h => Mem.writes_wf _ _ _ _ h | exact Nat.le_succ _ | (intro _) | with_reducible apply ok_ite | extract_lets | with_reducible apply State.send_ok | fail_if_no_progress (with_reducible apply State.mk_ok) | fail_if_no_progress (with_reducible apply State.mk_ok_panel) | split | dsimp +zetaDelta only

theorem State.writePnlCfg_ok {κ : Keep} (s : State) (w : Word) (hs : s.Kept κ) :
    State.Kept κ (State.writePnlCfg s w) := by
  unfold State.writePnlCfg
  repeat' first | with_reducible assumption | (intro _) | with_reducible apply ok_ite | extract_lets | with_reducible apply State.put_ok | with_reducible apply State.plainWrite_ok | with_reducible apply State.pnlBegin_ok | fail_if_no_progress (with_reducible apply State.mk_ok) | split | dsimp +zetaDelta only

theorem execPnlEnable_ok {κ : Keep} (p : Path) (w : Word) (s : State) (hs : s.Kept κ) :
    OutOk κ (execPnlEnable p w s) := by
  unfold execPnlEnable
  repeat' first | with_reducible assumption | (intro _) | with_reducible apply OutOk.ite | with_reducible apply ok_ite | with_reducible apply State.gateAction_ok | with_reducible apply State.writePnlCfg_ok | with_reducible apply OutOk.next | fail_if_no_progress (with_reducible apply State.mk_ok) | split

theorem State.pnlAllDirty_ok {κ : Keep} (s : State) (hs : s.Kept κ) :
    State.Kept κ (State.pnlAllDirty s) := by
  unfold State.pnlAllDirty
  repeat' first | with_reducible assumption | exact fun h => h | exact fun h => Mem.writes_wf _ _ _ _ h | exact Nat.le_succ _ | (intro _) | with_reducible apply ok_ite | fail_if_no_progress (with_reducible apply State.mk_ok) | fail_if_no_progress (with_reducible apply State.mk_ok_panel) | split

theorem State.pnlScreen_ok {κ : Keep} (s : State) (hs : s.Kept κ) : State.Kept κ (State.pnlScreen s) := by
  unfold State.pnlScreen
  apply ok_ite
  · exact hs
  · extract_lets bs
    apply State.pnlAllDirty_ok
    exact ⟨hs.pending, hs.sent, Nat.le_succ_of_le hs.free, hs.regs, hs.cache, hs.pounds, hs.cus, hs.eth, hs.flash,
      Mem.writes_wf _ _ _ _ hs.panel⟩

theorem State.pnlPush_ok {κ : Keep} (s : State) (hs : s.Kept κ) :
    State.Kept κ (State.pnlPush s) := by
  unfold State.pnlPush
  repeat' first | with_reducible assumption | exact fun h => h | exact fun h => Mem.writes_wf _ _ _ _ h | exact Nat.le_succ _ | (intro _) | with_reducible apply ok_ite | extract_lets | with_reducible apply State.send_ok | with_reducible apply State.inc_ok | with_reducible apply State.pnlScreen_ok | with_reducible apply foldl_ok | with_reducible apply foldl_ok_fst | with_reducible apply foldl_ok_snd | fail_if_no_progress (with_reducible apply State.mk_ok) | fail_if_no_progress (with_reducible apply State.mk_ok_panel) | split | dsimp +zetaDelta only | with_reducible apply ok_ite_snd | with_reducible apply ok_ite_fst | with_reducible apply id_ok

theorem execPnlInitComplete_ok {κ : Keep} (id : Word) (s : State) (hs : s.Kept κ) :
    OutOk κ (execPnlInitComplete id s) := by
  unfold execPnlInitComplete
  repeat' first | with_reducible assumption | (intro _) | with_reducible apply OutOk.ite | with_reducible apply ok_ite | extract_lets | with_reducible apply State.send_ok | with_reducible apply State.put_ok | with_reducible apply State.raiseInst_ok | with_reducible apply State.pnlAllDirty_ok | with_reducible apply State.pnlPush_ok | with_reducible apply foldl_ok | with_reducible apply foldl_ok_fst | with_reducible apply foldl_ok_snd | with_reducible apply OutOk.next | fail_if_no_progress (with_reducible apply State.mk_ok) | split | dsimp +zetaDelta only | with_reducible apply ok_ite_snd | with_reducible apply ok_ite_fst | with_reducible apply id_ok

theorem execPnlPushTimer_ok {κ : Keep} (s : State) (hs : s.Kept κ) :
    OutOk κ (execPnlPushTimer s) := by
  unfold execPnlPushTimer
  repeat' first | with_reducible assumption | (intro _) | with_reducible apply OutOk.ite | with_reducible apply ok_ite | extract_lets | with_reducible apply State.pnlPush_ok | with_reducible apply OutOk.next | fail_if_no_progress (with_reducible apply State.mk_ok) | split | dsimp +zetaDelta only

theorem execPnlInfo_ok {κ : Keep} (ch : Fin 16) (s : State) (hs : s.Kept κ) :
    OutOk κ (execPnlInfo ch s) := by
  unfold execPnlInfo
  repeat' first | with_reducible assumption | (intro _) | with_reducible apply OutOk.ite | with_reducible apply ok_ite | with_reducible apply State.serve_ok | with_reducible apply OutOk.next | fail_if_no_progress (with_reducible apply State.mk_ok) | split

theorem execPnlOwner_ok {κ : Keep} (ch : Fin 16) (s : State) (hs : s.Kept κ) :
    OutOk κ (execPnlOwner ch s) := by
  unfold execPnlOwner
  repeat' first | with_reducible assumption | (intro _) | with_reducible apply OutOk.ite | with_reducible apply ok_ite | extract_lets | with_reducible apply State.put_ok | with_reducible apply State.serve_ok | with_reducible apply OutOk.next | fail_if_no_progress (with_reducible apply State.mk_ok) | split | dsimp +zetaDelta only

theorem drawInto_wf (w : Nat) (r : Nat × Nat × Nat × Nat) (px : Nat → Nat → Nat) (m : Mem) (h : Mem.wf 0#8 m = true) :
    Mem.wf 0#8 (drawInto w r px m) = true := by
  have row : ∀ (l : List Nat) (j : Nat) (m : Mem), Mem.wf 0#8 m = true →
      Mem.wf 0#8 (l.foldl (fun (m : Mem) i => Mem.writes 0#8 m (2 * ((r.2.1 + j) * w + r.1 + i)) (leBytes 2 (px i j))) m) = true := by
    intro l j
    induction l with
    | nil => exact fun m h => h
    | cons i t ih => exact fun m h => ih _ (Mem.writes_wf _ _ _ _ h)
  have all : ∀ (l : List Nat) (m : Mem), Mem.wf 0#8 m = true →
      Mem.wf 0#8 (l.foldl (fun (m : Mem) j => (List.range r.2.2.1).foldl (fun (m : Mem) i =>
        Mem.writes 0#8 m (2 * ((r.2.1 + j) * w + r.1 + i)) (leBytes 2 (px i j))) m) m) = true := by
    intro l
    induction l with
    | nil => exact fun m h => h
    | cons j t ih => exact fun m h => ih _ (row _ _ _ h)
  exact all _ _ h

theorem State.pnlDraw_ok {κ : Keep} (s : State) (r : Nat × Nat × Nat × Nat) (px : Nat → Nat → Nat) (hs : s.Kept κ) :
    State.Kept κ (State.pnlDraw s r px) :=
  ⟨hs.pending, hs.sent, hs.free, hs.regs, hs.cache, hs.pounds, hs.cus, hs.eth, hs.flash, drawInto_wf _ _ _ _ hs.panel⟩

theorem State.pnlRect_ok {κ : Keep} (s : State) (d : List Word) (px : Nat → Nat → Nat) (hs : s.Kept κ) :
    State.Kept κ (State.pnlRect s d px).2.2 := by
  unfold State.pnlRect
  repeat' first | with_reducible assumption | with_reducible apply ok_ite_fst | with_reducible apply ok_ite_snd | fail_if_no_progress (with_reducible refine mk_ok_snd rfl ?_) | fail_if_no_progress (with_reducible refine mk_ok_fst rfl ?_) | fail_if_no_progress (with_reducible refine mk_ok_snd_snd rfl ?_) | (intro _) | with_reducible apply ok_ite | extract_lets | with_reducible apply State.pnlDraw_ok | fail_if_no_progress (with_reducible apply State.mk_ok) | split | dsimp +zetaDelta only | with_reducible apply ok_ite_snd | with_reducible apply ok_ite_fst | with_reducible apply id_ok

theorem execPnlBlit_ok {κ : Keep} (ch : Fin 16) (s : State) (hs : s.Kept κ) :
    OutOk κ (execPnlBlit ch s) := by
  unfold execPnlBlit
  repeat' first | with_reducible assumption | (intro _) | with_reducible apply OutOk.ite | with_reducible apply ok_ite | extract_lets | with_reducible apply State.serve_ok | with_reducible apply State.pnlRect_ok | with_reducible apply OutOk.next | fail_if_no_progress (with_reducible apply State.mk_ok) | split | dsimp +zetaDelta only | with_reducible apply ok_ite_snd | with_reducible apply ok_ite_fst | with_reducible apply id_ok

theorem execPnlFill_ok {κ : Keep} (ch : Fin 16) (s : State) (hs : s.Kept κ) :
    OutOk κ (execPnlFill ch s) := by
  unfold execPnlFill
  repeat' first | with_reducible assumption | (intro _) | with_reducible apply OutOk.ite | with_reducible apply ok_ite | with_reducible apply State.serve_ok | with_reducible apply State.pnlRect_ok | with_reducible apply OutOk.next | fail_if_no_progress (with_reducible apply State.mk_ok) | split

theorem execPnlPush_ok {κ : Keep} (ch : Fin 16) (s : State) (hs : s.Kept κ) :
    OutOk κ (execPnlPush ch s) := by
  unfold execPnlPush
  repeat' first | with_reducible assumption | (intro _) | with_reducible apply OutOk.ite | with_reducible apply ok_ite | with_reducible apply State.serve_ok | with_reducible apply State.pnlPush_ok | with_reducible apply OutOk.next | fail_if_no_progress (with_reducible apply State.mk_ok) | split

end Machine
end Sys2Proof
end

