-- ==== Sys2Proof/Laws/OkPower.lean ====
section
/-!
SUPPORT. The canonical form is kept by every operation of Machine/Power.lean.
-/

namespace Sys2Proof
namespace Machine

theorem State.holdRequest_ok {κ : Keep} (s : State) (hs : s.Kept κ) :
    State.Kept κ (State.holdRequest s) := by
  unfold State.holdRequest
  repeat' first | with_reducible assumption | (intro _) | with_reducible apply ok_ite | extract_lets | with_reducible apply State.put_ok | with_reducible apply foldl_ok | with_reducible apply foldl_ok_fst | with_reducible apply foldl_ok_snd | fail_if_no_progress (with_reducible apply State.mk_ok) | split | dsimp +zetaDelta only

theorem State.clearRequest_ok {κ : Keep} (s : State) (hs : s.Kept κ) :
    State.Kept κ (State.clearRequest s) := by
  unfold State.clearRequest
  repeat' first | with_reducible assumption | (intro _) | with_reducible apply ok_ite | extract_lets | with_reducible apply State.put_ok | with_reducible apply State.settleHolds_ok | with_reducible apply foldl_ok | with_reducible apply foldl_ok_fst | with_reducible apply foldl_ok_snd | fail_if_no_progress (with_reducible apply State.mk_ok) | split | dsimp +zetaDelta only

theorem State.dropRequest_ok {κ : Keep} (s : State) (hs : s.Kept κ) :
    State.Kept κ (State.dropRequest s) := by
  unfold State.dropRequest
  repeat' first | with_reducible assumption | (intro _) | with_reducible apply ok_ite | extract_lets | with_reducible apply State.retireRef_ok | with_reducible apply State.clearRequest_ok | fail_if_no_progress (with_reducible apply State.mk_ok) | split | dsimp +zetaDelta only

theorem State.requestMode_ok {κ : Keep} (s : State) (target : Nat) (order : Option OrderRef) (auto : Bool) (hs : s.Kept κ) :
    State.Kept κ (State.requestMode s target order auto) := by
  unfold State.requestMode
  repeat' first | with_reducible assumption | (intro _) | with_reducible apply ok_ite | extract_lets | with_reducible apply State.put_ok | with_reducible apply State.retireRef_ok | with_reducible apply State.holdRequest_ok | with_reducible apply State.dropRequest_ok | fail_if_no_progress (with_reducible apply State.mk_ok) | split | dsimp +zetaDelta only

theorem State.writeReq_ok {κ : Keep} (s : State) (req : Nat) (hs : s.Kept κ) :
    State.Kept κ (State.writeReq s req) := by
  unfold State.writeReq
  repeat' first | with_reducible assumption | (intro _) | with_reducible apply ok_ite | with_reducible apply State.requestMode_ok | fail_if_no_progress (with_reducible apply State.mk_ok) | split

theorem execPowerRequest_ok {κ : Keep} (p : Path) (req : Fin 4) (s : State) (hs : s.Kept κ) :
    OutOk κ (execPowerRequest p req s) := by
  unfold execPowerRequest
  repeat' first | with_reducible assumption | (intro _) | with_reducible apply OutOk.ite | with_reducible apply ok_ite | with_reducible apply State.gateAction_ok | with_reducible apply State.writeReq_ok | with_reducible apply OutOk.next | fail_if_no_progress (with_reducible apply State.mk_ok) | split

theorem execPowerCancel_ok {κ : Keep} (p : Path) (s : State) (hs : s.Kept κ) :
    OutOk κ (execPowerCancel p s) := by
  unfold execPowerCancel
  repeat' first | with_reducible assumption | (intro _) | with_reducible apply OutOk.ite | with_reducible apply ok_ite | with_reducible apply State.gateAction_ok | with_reducible apply State.dropRequest_ok | with_reducible apply OutOk.next | fail_if_no_progress (with_reducible apply State.mk_ok) | split

theorem State.writePwrctl_ok {κ : Keep} (s : State) (w : Word) (hs : s.Kept κ) :
    State.Kept κ (State.writePwrctl s w) := by
  unfold State.writePwrctl
  repeat' first | with_reducible assumption | (intro _) | with_reducible apply ok_ite | extract_lets | with_reducible apply State.dropRequest_ok | with_reducible apply State.writeReq_ok | fail_if_no_progress (with_reducible apply State.mk_ok) | split | dsimp +zetaDelta only

theorem State.modeOrderDue_ok {κ : Keep} (s : State) (o : Order) (late : Bool) (hs : s.Kept κ) :
    State.Kept κ (State.modeOrderDue s o late) := by
  unfold State.modeOrderDue
  repeat' first | with_reducible assumption | (intro _) | with_reducible apply ok_ite | extract_lets | with_reducible apply State.updOrder_ok | with_reducible apply State.requestMode_ok | fail_if_no_progress (with_reducible apply State.mk_ok) | split | dsimp +zetaDelta only

theorem State.powerModeAccept_ok {κ : Keep} (o : Order) (s : State) (hs : s.Kept κ) :
    State.Kept κ (State.powerModeAccept o s) := by
  unfold State.powerModeAccept
  repeat' first | with_reducible assumption | (intro _) | with_reducible apply ok_ite | with_reducible apply State.validate_ok | with_reducible apply State.modeOrderDue_ok | fail_if_no_progress (with_reducible apply State.mk_ok) | split

theorem execPowerMode_ok {κ : Keep} (s : State) (hs : s.Kept κ) :
    OutOk κ (execPowerMode s) := by
  unfold execPowerMode
  repeat' first | with_reducible assumption | (intro _) | with_reducible apply OutOk.ite | with_reducible apply ok_ite | with_reducible apply State.accept_ok | with_reducible apply State.modeOrderDue_ok | with_reducible apply State.powerModeAccept_ok | with_reducible apply OutOk.next | fail_if_no_progress (with_reducible apply State.mk_ok) | split

theorem State.modeCancel_ok {κ : Keep} (s : State) (o : Order) (hs : s.Kept κ) :
    State.Kept κ (State.modeCancel s o).2 := by
  unfold State.modeCancel
  repeat' first | with_reducible assumption | with_reducible apply ok_ite_fst | with_reducible apply ok_ite_snd | fail_if_no_progress (with_reducible refine mk_ok_snd rfl ?_) | fail_if_no_progress (with_reducible refine mk_ok_fst rfl ?_) | fail_if_no_progress (with_reducible refine mk_ok_snd_snd rfl ?_) | (intro _) | with_reducible apply ok_ite | with_reducible apply State.retire_ok | with_reducible apply State.dropRequest_ok | fail_if_no_progress (with_reducible apply State.mk_ok) | split

theorem State.parkNow_ok {κ : Keep} (s : State) (hs : s.Kept κ) :
    State.Kept κ (State.parkNow s) := by
  unfold State.parkNow
  repeat' first | with_reducible assumption | (intro _) | with_reducible apply ok_ite | extract_lets | with_reducible apply State.put_ok | with_reducible apply State.pollReads_ok | with_reducible apply State.writeStatusWord_ok | fail_if_no_progress (with_reducible apply State.mk_ok) | split | dsimp +zetaDelta only

theorem State.parkAndRetire_ok {κ : Keep} (s : State) (r : PwrReq) (status : Nat) (hs : s.Kept κ) :
    State.Kept κ (State.parkAndRetire s r status) := by
  unfold State.parkAndRetire
  repeat' first | with_reducible assumption | (intro _) | with_reducible apply ok_ite | extract_lets | with_reducible apply State.retireRef_ok | with_reducible apply State.parkNow_ok | fail_if_no_progress (with_reducible apply State.mk_ok) | split | dsimp +zetaDelta only

theorem State.stopUnits_ok {κ : Keep} (s : State) (hs : s.Kept κ) :
    State.Kept κ (State.stopUnits s) := by
  unfold State.stopUnits
  repeat' first | with_reducible assumption | (intro _) | with_reducible apply ok_ite | extract_lets | with_reducible apply State.put_ok | with_reducible apply State.sgAbort_ok | with_reducible apply State.stopPlan_ok | with_reducible apply State.gateAdc_ok | with_reducible apply State.dacOff_ok | with_reducible apply State.enablePin_ok | with_reducible apply State.tdcAbort_ok | with_reducible apply State.cuEnable_ok | with_reducible apply State.stopRec_ok | with_reducible apply foldl_ok | with_reducible apply foldl_ok_fst | with_reducible apply foldl_ok_snd | fail_if_no_progress (with_reducible apply State.mk_ok) | split | dsimp +zetaDelta only

theorem State.carryOut_ok {κ : Keep} (s : State) (r : PwrReq) (hs : s.Kept κ) :
    State.Kept κ (State.carryOut s r) := by
  unfold State.carryOut
  repeat' first | with_reducible assumption | (intro _) | with_reducible apply ok_ite | extract_lets | with_reducible apply State.clearRequest_ok | with_reducible apply State.parkAndRetire_ok | with_reducible apply State.stopUnits_ok | fail_if_no_progress (with_reducible apply State.mk_ok) | split | dsimp +zetaDelta only

theorem execPowerRequestCarriedOut_ok {κ : Keep} (s : State) (hs : s.Kept κ) :
    OutOk κ (execPowerRequestCarriedOut s) := by
  unfold execPowerRequestCarriedOut
  repeat' first | with_reducible assumption | (intro _) | with_reducible apply OutOk.ite | with_reducible apply ok_ite | with_reducible apply State.holdRequest_ok | with_reducible apply State.carryOut_ok | with_reducible apply OutOk.next | fail_if_no_progress (with_reducible apply State.mk_ok) | split

theorem execSleepDrainEnd_ok {κ : Keep} (s : State) (hs : s.Kept κ) :
    OutOk κ (execSleepDrainEnd s) := by
  unfold execSleepDrainEnd
  repeat' first | with_reducible assumption | (intro _) | with_reducible apply OutOk.ite | with_reducible apply ok_ite | extract_lets | with_reducible apply State.put_ok | with_reducible apply State.raiseInst_ok | with_reducible apply State.parkAndRetire_ok | with_reducible apply OutOk.next | fail_if_no_progress (with_reducible apply State.mk_ok) | split | dsimp +zetaDelta only

theorem State.flightOff_ok {κ : Keep} (s : State) (f : Nat) (hs : s.Kept κ) :
    State.Kept κ (State.flightOff s f) := by
  unfold State.flightOff
  repeat' first | with_reducible assumption | (intro _) | with_reducible apply ok_ite | extract_lets | with_reducible apply State.put_ok | with_reducible apply State.gate_ok | with_reducible apply State.retireRef_ok | with_reducible apply State.updFlight_ok | fail_if_no_progress (with_reducible apply State.mk_ok) | split | dsimp +zetaDelta only

theorem State.pllOff_ok {κ : Keep} (s : State) (k : Nat) (hs : s.Kept κ) :
    State.Kept κ (State.pllOff s k) := by
  unfold State.pllOff
  repeat' first | with_reducible assumption | (intro _) | with_reducible apply ok_ite | extract_lets | with_reducible apply State.put_ok | with_reducible apply foldl_ok | with_reducible apply foldl_ok_fst | with_reducible apply foldl_ok_snd | fail_if_no_progress (with_reducible apply State.mk_ok) | split | dsimp +zetaDelta only

theorem State.linksDown_ok {κ : Keep} (s : State) (hs : s.Kept κ) :
    State.Kept κ (State.linksDown s) := by
  unfold State.linksDown
  repeat' first | with_reducible assumption | (intro _) | with_reducible apply ok_ite | extract_lets | with_reducible apply State.groupSilent_ok | with_reducible apply State.put_ok | with_reducible apply State.reroute_ok | with_reducible apply State.updPLane_ok | with_reducible apply State.driveGone_ok | with_reducible apply foldl_ok | with_reducible apply foldl_ok_fst | with_reducible apply foldl_ok_snd | fail_if_no_progress (with_reducible apply State.mk_ok) | split | dsimp +zetaDelta only

theorem State.gateLanes_ok {κ : Keep} (s : State) (hs : s.Kept κ) :
    State.Kept κ (State.gateLanes s) := by
  unfold State.gateLanes
  repeat' first | with_reducible assumption | (intro _) | with_reducible apply ok_ite | extract_lets | with_reducible apply State.put_ok | with_reducible apply State.setLane_ok | with_reducible apply State.dropTest_ok | with_reducible apply State.haltPlan_ok | with_reducible apply foldl_ok | with_reducible apply foldl_ok_fst | with_reducible apply foldl_ok_snd | fail_if_no_progress (with_reducible apply State.mk_ok) | split | dsimp +zetaDelta only

theorem State.leaveReady_ok {κ : Keep} (s : State) (hs : s.Kept κ) :
    State.Kept κ (State.leaveReady s) := by
  unfold State.leaveReady
  repeat' first | with_reducible assumption | (intro _) | with_reducible apply ok_ite | extract_lets | with_reducible apply State.setWord_ok | with_reducible apply State.put_ok | with_reducible apply State.adcToOff_ok | with_reducible apply State.releaseHeld_ok | with_reducible apply State.cuLose_ok | with_reducible apply State.setHead_ok | with_reducible apply State.flightOff_ok | with_reducible apply State.pllOff_ok | with_reducible apply State.linksDown_ok | with_reducible apply State.gateLanes_ok | with_reducible apply foldl_ok | with_reducible apply foldl_ok_fst | with_reducible apply foldl_ok_snd | fail_if_no_progress (with_reducible apply State.mk_ok) | split | dsimp +zetaDelta only

theorem State.queueLost_ok {κ : Keep} (s : State) (q : Nat) (hs : s.Kept κ) :
    State.Kept κ (State.queueLost s q) := by
  unfold State.queueLost
  repeat' first | with_reducible assumption | (intro _) | with_reducible apply ok_ite | extract_lets | with_reducible apply State.setWord_ok | with_reducible apply State.put_ok | with_reducible apply State.inc_ok | fail_if_no_progress (with_reducible apply State.mk_ok) | split | dsimp +zetaDelta only

theorem State.poolLost_ok {κ : Keep} (s : State) (hs : s.Kept κ) :
    State.Kept κ (State.poolLost s) := by
  unfold State.poolLost
  repeat' first | with_reducible assumption | (intro _) | with_reducible apply ok_ite | extract_lets | with_reducible apply State.put_ok | with_reducible apply State.queueLost_ok | with_reducible apply foldl_ok | with_reducible apply foldl_ok_fst | with_reducible apply foldl_ok_snd | fail_if_no_progress (with_reducible apply State.mk_ok) | split | dsimp +zetaDelta only

theorem State.storesLost_ok {κ : Keep} (s : State) (h : s.Kept κ) : State.Kept κ (State.storesLost s) :=
  ⟨h.pending, h.sent, h.free, h.regs, h.cache, by
    rw [State.storesLost, List.all_map, List.all_eq_true]
    exact fun _ _ => rfl, h.cus, h.eth, h.flash, h.panel⟩

theorem State.memoryLost_ok {κ : Keep} (s : State) (event : Bool) (hs : s.Kept κ) :
    State.Kept κ (State.memoryLost s event) := by
  unfold State.memoryLost
  repeat' first | with_reducible assumption | (intro _) | with_reducible apply ok_ite | extract_lets | with_reducible apply State.raiseInst_ok | with_reducible apply State.disablePound_ok | with_reducible apply State.storesLost_ok | with_reducible apply foldl_ok | with_reducible apply foldl_ok_fst | with_reducible apply foldl_ok_snd | fail_if_no_progress (with_reducible apply State.mk_ok) | split | dsimp +zetaDelta only

theorem State.cacheLost_ok {κ : Keep} (s : State) (h : s.Kept κ) : State.Kept κ (State.cacheLost s) :=
  ⟨h.pending, h.sent, h.free, h.regs, rfl, h.pounds, h.cus, h.eth, h.flash, h.panel⟩

theorem State.setupsLost_ok {κ : Keep} (s : State) (hs : s.Kept κ) :
    State.Kept κ (State.setupsLost s) := by
  unfold State.setupsLost
  repeat' first | with_reducible assumption | (intro _) | with_reducible apply ok_ite | extract_lets | with_reducible apply State.put_ok | with_reducible apply State.updReam_ok | with_reducible apply State.updSg_ok | with_reducible apply State.cacheLost_ok | with_reducible apply foldl_ok | with_reducible apply foldl_ok_fst | with_reducible apply foldl_ok_snd | fail_if_no_progress (with_reducible apply State.mk_ok) | split | dsimp +zetaDelta only

theorem State.sleepLoses_ok {κ : Keep} (s : State) (hs : s.Kept κ) :
    State.Kept κ (State.sleepLoses s) := by
  unfold State.sleepLoses
  repeat' first | with_reducible assumption | (intro _) | with_reducible apply ok_ite | with_reducible apply State.poolLost_ok | with_reducible apply State.memoryLost_ok | with_reducible apply State.setupsLost_ok | fail_if_no_progress (with_reducible apply State.mk_ok) | split

theorem State.reportLtr_ok {κ : Keep} (s : State) (hs : s.Kept κ) :
    State.Kept κ (State.reportLtr s) := by
  unfold State.reportLtr
  repeat' first | with_reducible assumption | (intro _) | with_reducible apply ok_ite | with_reducible apply State.send_ok | fail_if_no_progress (with_reducible apply State.mk_ok) | split

theorem State.modeReached_ok {κ : Keep} (s : State) (r : PwrReq) (hs : s.Kept κ) :
    State.Kept κ (State.modeReached s r) := by
  unfold State.modeReached
  repeat' first | with_reducible assumption | (intro _) | with_reducible apply ok_ite | extract_lets | with_reducible apply State.put_ok | with_reducible apply State.leaveReady_ok | with_reducible apply State.sleepLoses_ok | with_reducible apply State.reportLtr_ok | fail_if_no_progress (with_reducible apply State.mk_ok) | split | dsimp +zetaDelta only

theorem execModeEntryComplete_ok {κ : Keep} (s : State) (hs : s.Kept κ) :
    OutOk κ (execModeEntryComplete s) := by
  unfold execModeEntryComplete
  repeat' first | with_reducible assumption | (intro _) | with_reducible apply OutOk.ite | with_reducible apply ok_ite | with_reducible apply State.modeReached_ok | with_reducible apply OutOk.next | fail_if_no_progress (with_reducible apply State.mk_ok) | split

theorem State.wakeLink_ok {κ : Keep} (s : State) (hs : s.Kept κ) :
    State.Kept κ (State.wakeLink s) := by
  unfold State.wakeLink
  repeat' first | with_reducible assumption | (intro _) | with_reducible apply ok_ite | with_reducible apply State.send_ok | fail_if_no_progress (with_reducible apply State.mk_ok) | split

theorem execWakeCause_ok {κ : Keep} (s : State) (hs : s.Kept κ) :
    OutOk κ (execWakeCause s) := by
  unfold execWakeCause
  repeat' first | with_reducible assumption | (intro _) | with_reducible apply OutOk.ite | with_reducible apply ok_ite | with_reducible apply State.dropRequest_ok | with_reducible apply State.wakeLink_ok | with_reducible apply OutOk.next | fail_if_no_progress (with_reducible apply State.mk_ok) | split

theorem State.watchLtr_ok {κ : Keep} (s : State) (hs : s.Kept κ) :
    State.Kept κ (State.watchLtr s) := by
  unfold State.watchLtr
  repeat' first | with_reducible assumption | (intro _) | with_reducible apply ok_ite | with_reducible apply State.reportLtr_ok | fail_if_no_progress (with_reducible apply State.mk_ok) | split

theorem State.watchPower_ok {κ : Keep} (s : State) (hs : s.Kept κ) :
    State.Kept κ (State.watchPower s) := by
  unfold State.watchPower
  apply State.watchLtr_ok
  repeat' first | with_reducible assumption | (intro _) | with_reducible apply ok_ite | fail_if_no_progress (with_reducible apply State.mk_ok) | split

theorem execTimekeeperTick_ok {κ : Keep} (s : State) (hs : s.Kept κ) :
    OutOk κ (execTimekeeperTick s) := by
  unfold execTimekeeperTick
  repeat' first | with_reducible assumption | (intro _) | with_reducible apply OutOk.ite | with_reducible apply ok_ite | with_reducible apply State.tick_ok | with_reducible apply State.watchPower_ok | with_reducible apply OutOk.next | fail_if_no_progress (with_reducible apply State.mk_ok) | split

theorem execAutoPolicy_ok {κ : Keep} (s : State) (hs : s.Kept κ) :
    OutOk κ (execAutoPolicy s) := by
  unfold execAutoPolicy
  repeat' first | with_reducible assumption | (intro _) | with_reducible apply OutOk.ite | with_reducible apply ok_ite | extract_lets | with_reducible apply State.requestMode_ok | with_reducible apply OutOk.next | fail_if_no_progress (with_reducible apply State.mk_ok) | split | dsimp +zetaDelta only

theorem execRefclkHoldoverExpiry_ok {κ : Keep} (s : State) (hs : s.Kept κ) :
    OutOk κ (execRefclkHoldoverExpiry s) := by
  unfold execRefclkHoldoverExpiry
  repeat' first | with_reducible assumption | (intro _) | with_reducible apply OutOk.ite | with_reducible apply ok_ite | extract_lets | with_reducible apply State.dropRequest_ok | with_reducible apply State.carryOut_ok | with_reducible apply OutOk.next | fail_if_no_progress (with_reducible apply State.mk_ok) | split | dsimp +zetaDelta only

end Machine
end Sys2Proof
end

