-- ==== Sys2Proof/Laws/OkHousekeeping.lean ====
section
/-!
SUPPORT. The canonical form is kept by every operation of Machine/Housekeeping.lean.
-/

namespace Sys2Proof
namespace Machine

theorem State.trip_ok {κ : Keep} (s : State) (hs : s.Kept κ) :
    State.Kept κ (State.trip s) := by
  unfold State.trip
  repeat' first | with_reducible assumption | (intro _) | with_reducible apply ok_ite | extract_lets | with_reducible apply State.send_ok | with_reducible apply State.put_ok | with_reducible apply State.satInc_ok | with_reducible apply State.abandonRings_ok | with_reducible apply State.linkDown_ok | with_reducible apply State.leaveReady_ok | with_reducible apply State.poolLost_ok | with_reducible apply State.memoryLost_ok | with_reducible apply State.setupsLost_ok | fail_if_no_progress (with_reducible apply State.mk_ok) | split | dsimp +zetaDelta only

theorem State.siteResult_ok {κ : Keep} (s : State) (n : Nat) (v : Int) (hs : s.Kept κ) :
    State.Kept κ (State.siteResult s n v) := by
  unfold State.siteResult
  repeat' first | with_reducible assumption | (intro _) | with_reducible apply ok_ite | extract_lets | with_reducible apply State.put_ok | with_reducible apply State.recomputeIfMoved_ok | with_reducible apply foldl_ok | with_reducible apply foldl_ok_fst | with_reducible apply foldl_ok_snd | fail_if_no_progress (with_reducible apply State.mk_ok) | split | dsimp +zetaDelta only | with_reducible apply ok_ite_snd | with_reducible apply ok_ite_fst | with_reducible apply id_ok

theorem State.checkLimits_ok {κ : Keep} (s : State) (lim : Word) (ch : Nat) (v : Int) (hs : s.Kept κ) :
    State.Kept κ (State.checkLimits s lim ch v) := by
  unfold State.checkLimits
  repeat' first | with_reducible assumption | (intro _) | with_reducible apply ok_ite | extract_lets | with_reducible apply State.put_ok | with_reducible apply State.raiseWith_ok | fail_if_no_progress (with_reducible apply State.mk_ok) | split | dsimp +zetaDelta only

theorem State.checkSite_ok {κ : Keep} (s : State) (therm : Word) (ch : Nat) (v : Int) (hs : s.Kept κ) :
    State.Kept κ (State.checkSite s therm ch v) := by
  unfold State.checkSite
  repeat' first | with_reducible assumption | (intro _) | with_reducible apply ok_ite | extract_lets | with_reducible apply State.put_ok | with_reducible apply State.raiseInst_ok | with_reducible apply State.trip_ok | fail_if_no_progress (with_reducible apply State.mk_ok) | split | dsimp +zetaDelta only

theorem State.hkResult_ok {κ : Keep} (s : State) (m ch value raw : Nat) (hs : s.Kept κ) :
    State.Kept κ (State.hkResult s m ch value raw) := by
  unfold State.hkResult
  repeat' first | with_reducible assumption | (intro _) | with_reducible apply ok_ite | extract_lets | with_reducible apply State.put_ok | with_reducible apply State.siteResult_ok | with_reducible apply State.checkLimits_ok | with_reducible apply State.checkSite_ok | fail_if_no_progress (with_reducible apply State.mk_ok) | split | dsimp +zetaDelta only

theorem execHkConversion_ok {κ : Keep} (m : Fin 4) (value : BitVec 16) (raw : BitVec 12) (s : State) (hs : s.Kept κ) :
    OutOk κ (execHkConversion m value raw s) := by
  unfold execHkConversion
  repeat' first | with_reducible assumption | (intro _) | with_reducible apply OutOk.ite | with_reducible apply ok_ite | extract_lets | with_reducible apply State.inc_ok | with_reducible apply State.updHkSeq_ok | with_reducible apply State.hkResult_ok | with_reducible apply OutOk.next | fail_if_no_progress (with_reducible apply State.mk_ok) | split | dsimp +zetaDelta only

theorem State.hkBegin_ok {κ : Keep} (s : State) (m : Nat) (hs : s.Kept κ) :
    State.Kept κ (State.hkBegin s m) := by
  unfold State.hkBegin
  repeat' first | with_reducible assumption | (intro _) | with_reducible apply ok_ite | extract_lets | with_reducible apply State.put_ok | with_reducible apply State.updHkSeq_ok | with_reducible apply foldl_ok | with_reducible apply foldl_ok_fst | with_reducible apply foldl_ok_snd | fail_if_no_progress (with_reducible apply State.mk_ok) | split | dsimp +zetaDelta only

theorem State.hkDue?_ok {κ : Keep} (s : State) (m : Nat) (hs : s.Kept κ) :
    OptOk κ (State.hkDue? s m) := by
  unfold State.hkDue?
  repeat' first | with_reducible assumption | with_reducible apply OptOk.none | with_reducible apply OptOk.some | with_reducible apply OptOk.ite | (intro _) | with_reducible apply ok_ite | extract_lets | with_reducible apply State.updHkSeq_ok | fail_if_no_progress (with_reducible apply State.mk_ok) | split | dsimp +zetaDelta only

theorem State.hkStart_ok {κ : Keep} (s : State) (m : Nat) (hs : s.Kept κ) :
    State.Kept κ (State.hkStart s m) := by
  unfold State.hkStart
  repeat' first | with_reducible assumption | (intro _) | with_reducible apply ok_ite | extract_lets | with_reducible apply State.satInc_ok | with_reducible apply State.updHkSeq_ok | with_reducible apply State.hkBegin_ok | fail_if_no_progress (with_reducible apply State.mk_ok) | split | dsimp +zetaDelta only

theorem execHkSequenceStart_ok {κ : Keep} (m : Fin 4) (s : State) (hs : s.Kept κ) :
    OutOk κ (execHkSequenceStart m s) := by
  unfold execHkSequenceStart
  repeat' first | with_reducible assumption | (intro _) | with_reducible apply OutOk.ite | with_reducible apply ok_ite | extract_lets | with_reducible apply State.hkBegin_ok | with_reducible apply State.hkDue?_ok | with_reducible apply State.hkStart_ok | with_reducible apply OutOk.next | fail_if_no_progress (with_reducible apply State.mk_ok) | split | dsimp +zetaDelta only | with_reducible refine OptOk.of_some (State.hkDue?_ok _ _ ?_) _ (by with_reducible assumption)

theorem State.hkGo_ok {κ : Keep} (s : State) (m : Nat) (hs : s.Kept κ) :
    State.Kept κ (State.hkGo s m) := by
  unfold State.hkGo
  repeat' first | with_reducible assumption | (intro _) | with_reducible apply ok_ite | with_reducible apply State.hkStart_ok | fail_if_no_progress (with_reducible apply State.mk_ok) | split

theorem execHkGo_ok {κ : Keep} (p : Path) (m : Fin 3) (s : State) (hs : s.Kept κ) :
    OutOk κ (execHkGo p m s) := by
  unfold execHkGo
  repeat' first | with_reducible assumption | (intro _) | with_reducible apply OutOk.ite | with_reducible apply ok_ite | with_reducible apply State.gateAction_ok | with_reducible apply State.hkGo_ok | with_reducible apply OutOk.next | fail_if_no_progress (with_reducible apply State.mk_ok) | split

theorem State.writeHkSeqCtl_ok {κ : Keep} (s : State) (m : Nat) (w : Word) (hs : s.Kept κ) :
    State.Kept κ (State.writeHkSeqCtl s m w) := by
  unfold State.writeHkSeqCtl
  repeat' first | with_reducible assumption | (intro _) | with_reducible apply ok_ite | extract_lets | with_reducible apply State.put_ok | with_reducible apply State.plainWrite_ok | with_reducible apply State.updHkSeq_ok | with_reducible apply State.hkGo_ok | fail_if_no_progress (with_reducible apply State.mk_ok) | split | dsimp +zetaDelta only

theorem State.pwmEdge_ok {κ : Keep} (s : State) (i : Nat) (rise : Bool) (t : Nat) (hs : s.Kept κ) :
    State.Kept κ (State.pwmEdge s i rise t) := by
  unfold State.pwmEdge
  repeat' first | with_reducible assumption | (intro _) | with_reducible apply ok_ite | extract_lets | with_reducible apply State.send_ok | with_reducible apply State.updHkSeq_ok | with_reducible apply State.gpioFollow_ok | with_reducible apply foldl_ok | with_reducible apply foldl_ok_fst | with_reducible apply foldl_ok_snd | fail_if_no_progress (with_reducible apply State.mk_ok) | split | dsimp +zetaDelta only

theorem State.pwmPeriod_ok {κ : Keep} (s : State) (i at_ period high : Nat) (was : Bool) (hs : s.Kept κ) :
    State.Kept κ (State.pwmPeriod s i at_ period high was) := by
  unfold State.pwmPeriod
  repeat' first | with_reducible assumption | (intro _) | with_reducible apply ok_ite | extract_lets | with_reducible apply State.put_ok | with_reducible apply State.pwmEdge_ok | fail_if_no_progress (with_reducible apply State.mk_ok) | split | dsimp +zetaDelta only

theorem execPwmPeriodStart_ok {κ : Keep} (i : Fin 4) (s : State) (hs : s.Kept κ) :
    OutOk κ (execPwmPeriodStart i s) := by
  unfold execPwmPeriodStart
  repeat' first | with_reducible assumption | (intro _) | with_reducible apply OutOk.ite | with_reducible apply ok_ite | extract_lets | with_reducible apply State.pwmPeriod_ok | with_reducible apply OutOk.next | fail_if_no_progress (with_reducible apply State.mk_ok) | split | dsimp +zetaDelta only | with_reducible apply ok_ite_snd | with_reducible apply ok_ite_fst | with_reducible apply id_ok

theorem State.writeHkPwm_ok {κ : Keep} (s : State) (i : Nat) (w : Word) (hs : s.Kept κ) :
    State.Kept κ (State.writeHkPwm s i w) := by
  unfold State.writeHkPwm
  repeat' first | with_reducible assumption | (intro _) | with_reducible apply ok_ite | extract_lets | with_reducible apply State.put_ok | with_reducible apply State.plainWrite_ok | with_reducible apply State.updHkSeq_ok | with_reducible apply State.pwmEdge_ok | with_reducible apply foldl_ok | with_reducible apply foldl_ok_fst | with_reducible apply foldl_ok_snd | fail_if_no_progress (with_reducible apply State.mk_ok) | split | dsimp +zetaDelta only

theorem State.writeGpio_ok {κ : Keep} (s : State) (i : Nat) (w : Word) (hs : s.Kept κ) :
    State.Kept κ (State.writeGpio s i w) := by
  unfold State.writeGpio
  repeat' first | with_reducible assumption | (intro _) | with_reducible apply ok_ite | extract_lets | with_reducible apply State.send_ok | with_reducible apply State.plainWrite_ok | fail_if_no_progress (with_reducible apply State.mk_ok) | split | dsimp +zetaDelta only

theorem State.forceConverters_ok {κ : Keep} (s : State) (cause : Nat) (hs : s.Kept κ) :
    State.Kept κ (State.forceConverters s cause) := by
  unfold State.forceConverters
  repeat' first | with_reducible assumption | (intro _) | with_reducible apply ok_ite | extract_lets | with_reducible apply State.put_ok | with_reducible apply State.sgAbort_ok | with_reducible apply State.adcForceOff_ok | with_reducible apply State.dacToOff_ok | with_reducible apply State.muteDac_ok | with_reducible apply foldl_ok | with_reducible apply foldl_ok_fst | with_reducible apply foldl_ok_snd | fail_if_no_progress (with_reducible apply State.mk_ok) | split | dsimp +zetaDelta only

theorem State.forceAll_ok {κ : Keep} (s : State) (cause : Nat) (hs : s.Kept κ) :
    State.Kept κ (State.forceAll s cause) := by
  unfold State.forceAll
  repeat' first | with_reducible assumption | (intro _) | with_reducible apply ok_ite | extract_lets | with_reducible apply State.put_ok | with_reducible apply State.sgAbort_ok | with_reducible apply State.settleLanes_ok | with_reducible apply State.forceDownPlan_ok | with_reducible apply State.abortDependents_ok | with_reducible apply State.enablePin_ok | with_reducible apply State.tdcAbort_ok | with_reducible apply State.cuForceDown_ok | with_reducible apply State.forceRec_ok | with_reducible apply State.gateLanes_ok | with_reducible apply State.forceConverters_ok | with_reducible apply foldl_ok | with_reducible apply foldl_ok_fst | with_reducible apply foldl_ok_snd | fail_if_no_progress (with_reducible apply State.mk_ok) | split | dsimp +zetaDelta only

theorem execThermalEmergency_ok {κ : Keep} (preempts : Bool) (s : State) (hs : s.Kept κ) :
    OutOk κ (execThermalEmergency preempts s) := by
  unfold execThermalEmergency
  repeat' first | with_reducible assumption | (intro _) | with_reducible apply OutOk.ite | with_reducible apply ok_ite | extract_lets | with_reducible apply State.put_ok | with_reducible apply State.satInc_ok | with_reducible apply State.raise_ok | with_reducible apply State.forceAll_ok | with_reducible apply OutOk.next | fail_if_no_progress (with_reducible apply State.mk_ok) | split | dsimp +zetaDelta only

theorem execSupplyFault_ok {κ : Keep} (preempts : Bool) (s : State) (hs : s.Kept κ) :
    OutOk κ (execSupplyFault preempts s) := by
  unfold execSupplyFault
  repeat' first | with_reducible assumption | (intro _) | with_reducible apply OutOk.ite | with_reducible apply ok_ite | extract_lets | with_reducible apply State.put_ok | with_reducible apply State.satInc_ok | with_reducible apply State.raise_ok | with_reducible apply State.forceConverters_ok | with_reducible apply State.forceAll_ok | with_reducible apply OutOk.next | fail_if_no_progress (with_reducible apply State.mk_ok) | split | dsimp +zetaDelta only

theorem State.unitsFreed_ok {κ : Keep} (s : State) (hs : s.Kept κ) : State.Kept κ (State.unitsFreed s) := by
  unfold State.unitsFreed
  repeat' first | with_reducible assumption | (intro _) | with_reducible apply ok_ite | extract_lets | with_reducible apply State.tdcBegin_ok | with_reducible apply State.recPump_ok | with_reducible apply foldl_ok | fail_if_no_progress (with_reducible apply State.mk_ok) | split | dsimp +zetaDelta only

theorem State.emergClear_ok {κ : Keep} (s : State) (hs : s.Kept κ) :
    State.Kept κ (State.emergClear s) := by
  unfold State.emergClear
  repeat' first | with_reducible assumption | (intro _) | with_reducible apply ok_ite | with_reducible apply State.unitsFreed_ok | with_reducible apply State.put_ok | fail_if_no_progress (with_reducible apply State.mk_ok) | split

theorem State.supplyClear_ok {κ : Keep} (s : State) (hs : s.Kept κ) :
    State.Kept κ (State.supplyClear s) := by
  unfold State.supplyClear
  repeat' first | with_reducible assumption | (intro _) | with_reducible apply ok_ite | with_reducible apply State.unitsFreed_ok | with_reducible apply State.put_ok | fail_if_no_progress (with_reducible apply State.mk_ok) | split

theorem execEmergClear_ok {κ : Keep} (p : Path) (s : State) (hs : s.Kept κ) :
    OutOk κ (execEmergClear p s) := by
  unfold execEmergClear
  repeat' first | with_reducible assumption | (intro _) | with_reducible apply OutOk.ite | with_reducible apply ok_ite | with_reducible apply State.gateAction_ok | with_reducible apply State.emergClear_ok | with_reducible apply OutOk.next | fail_if_no_progress (with_reducible apply State.mk_ok) | split

theorem execSupplyClear_ok {κ : Keep} (p : Path) (s : State) (hs : s.Kept κ) :
    OutOk κ (execSupplyClear p s) := by
  unfold execSupplyClear
  repeat' first | with_reducible assumption | (intro _) | with_reducible apply OutOk.ite | with_reducible apply ok_ite | with_reducible apply State.gateAction_ok | with_reducible apply State.supplyClear_ok | with_reducible apply OutOk.next | fail_if_no_progress (with_reducible apply State.mk_ok) | split

theorem State.writeProt_ok {κ : Keep} (s : State) (w : Word) (hs : s.Kept κ) :
    State.Kept κ (State.writeProt s w) := by
  unfold State.writeProt
  repeat' first | with_reducible assumption | (intro _) | with_reducible apply ok_ite | extract_lets | with_reducible apply State.emergClear_ok | with_reducible apply State.supplyClear_ok | fail_if_no_progress (with_reducible apply State.mk_ok) | split | dsimp +zetaDelta only

end Machine
end Sys2Proof
end

