-- ==== Sys2Proof/Laws/OkRegRead.lean ====
section
/-!
SUPPORT. The canonical form is kept by every operation of Machine/RegRead.lean.
-/

namespace Sys2Proof
namespace Machine

theorem State.wideValue_ok {κ : Keep} (s : State) (key sub : Nat) (hs : s.Kept κ) :
    State.Kept κ (State.wideValue s key sub).2 := by
  unfold State.wideValue
  repeat' first | with_reducible assumption | with_reducible apply ok_ite_fst | with_reducible apply ok_ite_snd | fail_if_no_progress (with_reducible refine mk_ok_snd rfl ?_) | fail_if_no_progress (with_reducible refine mk_ok_fst rfl ?_) | fail_if_no_progress (with_reducible refine mk_ok_snd_snd rfl ?_) | (intro _) | with_reducible apply ok_ite | extract_lets | with_reducible apply State.count_ok | fail_if_no_progress (with_reducible apply State.mk_ok) | split | dsimp +zetaDelta only

theorem State.latchRead_ok {κ : Keep} (s : State) (p : Path) (key n sub : Nat) (hs : s.Kept κ) :
    State.Kept κ (State.latchRead s p key n sub).2 := by
  unfold State.latchRead
  repeat' first | with_reducible assumption | with_reducible apply ok_ite_fst | with_reducible apply ok_ite_snd | fail_if_no_progress (with_reducible refine mk_ok_snd rfl ?_) | fail_if_no_progress (with_reducible refine mk_ok_fst rfl ?_) | fail_if_no_progress (with_reducible refine mk_ok_snd_snd rfl ?_) | (intro _) | with_reducible apply ok_ite | extract_lets | with_reducible apply State.put_ok | with_reducible apply State.wideValue_ok | with_reducible apply foldl_ok | with_reducible apply foldl_ok_fst | with_reducible apply foldl_ok_snd | fail_if_no_progress (with_reducible apply State.mk_ok) | split | dsimp +zetaDelta only | with_reducible apply ok_ite_snd | with_reducible apply ok_ite_fst | with_reducible apply id_ok

theorem State.gpioRead_ok {κ : Keep} (s : State) (i : Nat) (hs : s.Kept κ) :
    State.Kept κ (State.gpioRead s i).2 := by
  unfold State.gpioRead
  repeat' first | with_reducible assumption | with_reducible apply ok_ite_fst | with_reducible apply ok_ite_snd | fail_if_no_progress (with_reducible refine mk_ok_snd rfl ?_) | fail_if_no_progress (with_reducible refine mk_ok_fst rfl ?_) | fail_if_no_progress (with_reducible refine mk_ok_snd_snd rfl ?_) | (intro _) | with_reducible apply ok_ite | extract_lets | with_reducible apply State.fresh_ok | fail_if_no_progress (with_reducible apply State.mk_ok) | split | dsimp +zetaDelta only | with_reducible apply ok_ite_snd | with_reducible apply ok_ite_fst | with_reducible apply id_ok

theorem State.readReg_ok {κ : Keep} (s : State) (p : Path) (key sub : Nat) (hs : s.Kept κ) :
    State.Kept κ (State.readReg s p key sub).2 := by
  unfold State.readReg
  repeat' first | with_reducible assumption | with_reducible apply ok_ite_fst | with_reducible apply ok_ite_snd | fail_if_no_progress (with_reducible refine mk_ok_snd rfl ?_) | fail_if_no_progress (with_reducible refine mk_ok_fst rfl ?_) | fail_if_no_progress (with_reducible refine mk_ok_snd_snd rfl ?_) | (intro _) | with_reducible apply ok_ite | with_reducible apply State.mbxOut_ok | with_reducible apply State.latchRead_ok | with_reducible apply State.gpioRead_ok | fail_if_no_progress (with_reducible apply State.mk_ok) | split

theorem State.readCmd_ok {κ : Keep} (s : State) (p : Path) (key sub : Nat) (hs : s.Kept κ) :
    State.Kept κ (State.readCmd s p key sub) := by
  unfold State.readCmd
  repeat' first | with_reducible assumption | (intro _) | with_reducible apply ok_ite | extract_lets | with_reducible apply State.send_ok | with_reducible apply State.readGate_ok | with_reducible apply State.reply_ok | with_reducible apply State.readReg_ok | fail_if_no_progress (with_reducible apply State.mk_ok) | split | dsimp +zetaDelta only | with_reducible apply ok_ite_snd | with_reducible apply ok_ite_fst | with_reducible apply id_ok

theorem execConvSyncT0Read_ok {κ : Keep} (p : Path) (s : State) (hs : s.Kept κ) :
    OutOk κ (execConvSyncT0Read p s) := by
  unfold execConvSyncT0Read
  repeat' first | with_reducible assumption | (intro _) | with_reducible apply OutOk.ite | with_reducible apply ok_ite | with_reducible apply State.readCmd_ok | with_reducible apply OutOk.next | fail_if_no_progress (with_reducible apply State.mk_ok) | split

theorem execAdcScntLoRead_ok {κ : Keep} (p : Path) (n : Fin 4) (s : State) (hs : s.Kept κ) :
    OutOk κ (execAdcScntLoRead p n s) := by
  unfold execAdcScntLoRead
  repeat' first | with_reducible assumption | (intro _) | with_reducible apply OutOk.ite | with_reducible apply ok_ite | with_reducible apply State.readCmd_ok | with_reducible apply OutOk.next | fail_if_no_progress (with_reducible apply State.mk_ok) | split

theorem execQueueTearbase0Read_ok {κ : Keep} (p : Path) (s : State) (hs : s.Kept κ) :
    OutOk κ (execQueueTearbase0Read p s) := by
  unfold execQueueTearbase0Read
  repeat' first | with_reducible assumption | (intro _) | with_reducible apply OutOk.ite | with_reducible apply ok_ite | with_reducible apply State.readCmd_ok | with_reducible apply OutOk.next | fail_if_no_progress (with_reducible apply State.mk_ok) | split

theorem execNvmeSlotCapRead_ok {κ : Keep} (p : Path) (j : Fin 8) (s : State) (hs : s.Kept κ) :
    OutOk κ (execNvmeSlotCapRead p j s) := by
  unfold execNvmeSlotCapRead
  repeat' first | with_reducible assumption | (intro _) | with_reducible apply OutOk.ite | with_reducible apply ok_ite | with_reducible apply State.readCmd_ok | with_reducible apply OutOk.next | fail_if_no_progress (with_reducible apply State.mk_ok) | split

theorem execNvmeRecChunkRead_ok {κ : Keep} (p : Path) (r : Fin 8) (s : State) (hs : s.Kept κ) :
    OutOk κ (execNvmeRecChunkRead p r s) := by
  unfold execNvmeRecChunkRead
  repeat' first | with_reducible assumption | (intro _) | with_reducible apply OutOk.ite | with_reducible apply ok_ite | with_reducible apply State.readCmd_ok | with_reducible apply OutOk.next | fail_if_no_progress (with_reducible apply State.mk_ok) | split

theorem execNvmeRecTrecRead_ok {κ : Keep} (p : Path) (r : Fin 8) (s : State) (hs : s.Kept κ) :
    OutOk κ (execNvmeRecTrecRead p r s) := by
  unfold execNvmeRecTrecRead
  repeat' first | with_reducible assumption | (intro _) | with_reducible apply OutOk.ite | with_reducible apply ok_ite | with_reducible apply State.readCmd_ok | with_reducible apply OutOk.next | fail_if_no_progress (with_reducible apply State.mk_ok) | split

theorem execSgT0Read_ok {κ : Keep} (p : Path) (g : Fin 8) (s : State) (hs : s.Kept κ) :
    OutOk κ (execSgT0Read p g s) := by
  unfold execSgT0Read
  repeat' first | with_reducible assumption | (intro _) | with_reducible apply OutOk.ite | with_reducible apply ok_ite | with_reducible apply State.readCmd_ok | with_reducible apply OutOk.next | fail_if_no_progress (with_reducible apply State.mk_ok) | split

theorem execSgPlayedLoRead_ok {κ : Keep} (p : Path) (g : Fin 8) (s : State) (hs : s.Kept κ) :
    OutOk κ (execSgPlayedLoRead p g s) := by
  unfold execSgPlayedLoRead
  repeat' first | with_reducible assumption | (intro _) | with_reducible apply OutOk.ite | with_reducible apply ok_ite | with_reducible apply State.readCmd_ok | with_reducible apply OutOk.next | fail_if_no_progress (with_reducible apply State.mk_ok) | split

theorem execTimeNow0Read_ok {κ : Keep} (p : Path) (sub : Fin 2621440) (s : State) (hs : s.Kept κ) :
    OutOk κ (execTimeNow0Read p sub s) := by
  unfold execTimeNow0Read
  repeat' first | with_reducible assumption | (intro _) | with_reducible apply OutOk.ite | with_reducible apply ok_ite | with_reducible apply State.readCmd_ok | with_reducible apply OutOk.next | fail_if_no_progress (with_reducible apply State.mk_ok) | split

theorem execEthTxt0Read_ok {κ : Keep} (p : Path) (t : Fin 2) (s : State) (hs : s.Kept κ) :
    OutOk κ (execEthTxt0Read p t s) := by
  unfold execEthTxt0Read
  repeat' first | with_reducible assumption | (intro _) | with_reducible apply OutOk.ite | with_reducible apply ok_ite | with_reducible apply State.readCmd_ok | with_reducible apply OutOk.next | fail_if_no_progress (with_reducible apply State.mk_ok) | split

theorem execEthRxt0Read_ok {κ : Keep} (p : Path) (r : Fin 6) (s : State) (hs : s.Kept κ) :
    OutOk κ (execEthRxt0Read p r s) := by
  unfold execEthRxt0Read
  repeat' first | with_reducible assumption | (intro _) | with_reducible apply OutOk.ite | with_reducible apply ok_ite | with_reducible apply State.readCmd_ok | with_reducible apply OutOk.next | fail_if_no_progress (with_reducible apply State.mk_ok) | split

theorem State.mgmtRead_ok {κ : Keep} (s : State) (p : Path) (hs : s.Kept κ) :
    State.Kept κ (State.mgmtRead s p) := by
  unfold State.mgmtRead
  repeat' first | with_reducible assumption | (intro _) | with_reducible apply ok_ite | extract_lets | with_reducible apply State.send_ok | with_reducible apply State.reply_ok | with_reducible apply State.readReg_ok | fail_if_no_progress (with_reducible apply State.mk_ok) | split | dsimp +zetaDelta only | with_reducible apply ok_ite_snd | with_reducible apply ok_ite_fst | with_reducible apply id_ok

theorem execMgmtDataRead_ok {κ : Keep} (p : Path) (s : State) (hs : s.Kept κ) :
    OutOk κ (execMgmtDataRead p s) := by
  unfold execMgmtDataRead
  repeat' first | with_reducible assumption | (intro _) | with_reducible apply OutOk.ite | with_reducible apply ok_ite | with_reducible apply State.readGate_ok | with_reducible apply State.mgmtRead_ok | with_reducible apply OutOk.next | fail_if_no_progress (with_reducible apply State.mk_ok) | split

end Machine
end Sys2Proof
end

