-- ==== Sys2Proof/Laws/OkReset.lean ====
section
/-!
SUPPORT. The canonical form is kept by every operation of Machine/Reset.lean.
-/

namespace Sys2Proof
namespace Machine

theorem State.blank_ok {κ : Keep} (s : State) (h : s.Kept κ) : State.Kept κ (State.blank s) :=
  ⟨h.pending, h.sent, h.free, rfl, rfl, rfl, rfl, rfl, h.flash, rfl⟩

theorem State.cleared_ok {κ : Keep} (s : State) (straps : Nat) (hs : s.Kept κ) :
    State.Kept κ (State.cleared s straps) := by
  unfold State.cleared
  repeat' first | with_reducible assumption | (intro _) | with_reducible apply ok_ite | extract_lets | with_reducible apply State.setWord_ok | with_reducible apply State.send_ok | with_reducible apply State.put_ok | with_reducible apply State.blank_ok | fail_if_no_progress (with_reducible apply State.mk_ok) | split | dsimp +zetaDelta only

theorem State.fullReset_ok {κ : Keep} (s : State) (cause agent : Nat) (hs : s.Kept κ) :
    State.Kept κ (State.fullReset s cause agent) := by
  unfold State.fullReset
  repeat' first | with_reducible assumption | (intro _) | with_reducible apply ok_ite | extract_lets | with_reducible apply State.put_ok | with_reducible apply State.cleared_ok | fail_if_no_progress (with_reducible apply State.mk_ok) | split | dsimp +zetaDelta only

theorem execPorL_ok {κ : Keep} (st : Straps) (s : State) (hs : s.Kept κ) :
    OutOk κ (execPorL st s) := by
  unfold execPorL
  repeat' first | with_reducible assumption | (intro _) | with_reducible apply OutOk.ite | with_reducible apply ok_ite | with_reducible apply State.cleared_ok | with_reducible apply OutOk.next | fail_if_no_progress (with_reducible apply State.mk_ok) | split

theorem execPerstL_ok {κ : Keep} (s : State) (hs : s.Kept κ) :
    OutOk κ (execPerstL s) := by
  unfold execPerstL
  repeat' first | with_reducible assumption | (intro _) | with_reducible apply OutOk.ite | with_reducible apply ok_ite | with_reducible apply State.fullReset_ok | with_reducible apply OutOk.next | fail_if_no_progress (with_reducible apply State.mk_ok) | split

theorem State.resetWrite_ok {κ : Keep} (s : State) (p : Path) (key : Nat) (hs : s.Kept κ) :
    State.Kept κ (State.resetWrite s p key) := by
  unfold State.resetWrite
  repeat' first | with_reducible assumption | (intro _) | with_reducible apply ok_ite | extract_lets | with_reducible apply State.ownerViolation_ok | with_reducible apply State.fullReset_ok | fail_if_no_progress (with_reducible apply State.mk_ok) | split | dsimp +zetaDelta only

theorem execFullReset_ok {κ : Keep} (p : Path) (key : BitVec 16) (s : State) (hs : s.Kept κ) :
    OutOk κ (execFullReset p key s) := by
  unfold execFullReset
  repeat' first | with_reducible assumption | (intro _) | with_reducible apply OutOk.ite | with_reducible apply ok_ite | with_reducible apply State.send_ok | with_reducible apply State.logAer_ok | with_reducible apply State.resetWrite_ok | with_reducible apply OutOk.next | fail_if_no_progress (with_reducible apply State.mk_ok) | split

end Machine
end Sys2Proof
end

