-- ==== Sys2Proof/Laws/OkCalibration.lean ====
section
/-!
SUPPORT. The canonical form is kept by every operation of Machine/Calibration.lean.
-/

namespace Sys2Proof
namespace Machine

theorem State.sliceFails_ok {κ : Keep} (s : State) (n sl reason : Nat) (hs : s.Kept κ) :
    State.Kept κ (State.sliceFails s n sl reason) := by
  unfold State.sliceFails
  repeat' first | with_reducible assumption | (intro _) | with_reducible apply ok_ite | extract_lets | with_reducible apply State.put_ok | with_reducible apply State.raiseInst_ok | with_reducible apply State.updAdc_ok | with_reducible apply State.updCal_ok | with_reducible apply State.loseSlice_ok | with_reducible apply State.adcForceOff_ok | fail_if_no_progress (with_reducible apply State.mk_ok) | split | dsimp +zetaDelta only

theorem State.fgStart_ok {κ : Keep} (s : State) (n : Nat) (hs : s.Kept κ) :
    State.Kept κ (State.fgStart s n) := by
  unfold State.fgStart
  repeat' first | with_reducible assumption | (intro _) | with_reducible apply ok_ite | with_reducible apply State.put_ok | with_reducible apply State.startForeground_ok | fail_if_no_progress (with_reducible apply State.mk_ok) | split

theorem execFgStart_ok {κ : Keep} (p : Path) (mask : BitVec 4) (s : State) (hs : s.Kept κ) :
    OutOk κ (execFgStart p mask s) := by
  unfold execFgStart
  repeat' first | with_reducible assumption | (intro _) | with_reducible apply OutOk.ite | with_reducible apply ok_ite | with_reducible apply State.gateAction_ok | with_reducible apply State.fgStart_ok | with_reducible apply foldl_ok | with_reducible apply foldl_ok_fst | with_reducible apply foldl_ok_snd | with_reducible apply OutOk.next | fail_if_no_progress (with_reducible apply State.mk_ok) | split

theorem State.save_ok {κ : Keep} (s : State) (hs : s.Kept κ) :
    State.Kept κ (State.save s) := by
  unfold State.save
  repeat' first | with_reducible assumption | (intro _) | with_reducible apply ok_ite | with_reducible apply State.beginSave_ok | fail_if_no_progress (with_reducible apply State.mk_ok) | split

theorem execSave_ok {κ : Keep} (p : Path) (s : State) (hs : s.Kept κ) :
    OutOk κ (execSave p s) := by
  unfold execSave
  repeat' first | with_reducible assumption | (intro _) | with_reducible apply OutOk.ite | with_reducible apply ok_ite | with_reducible apply State.gateAction_ok | with_reducible apply State.save_ok | with_reducible apply OutOk.next | fail_if_no_progress (with_reducible apply State.mk_ok) | split

theorem State.writeCalCtl_ok {κ : Keep} (s : State) (w : Word) (hs : s.Kept κ) :
    State.Kept κ (State.writeCalCtl s w) := by
  unfold State.writeCalCtl
  repeat' first | with_reducible assumption | (intro _) | with_reducible apply ok_ite | extract_lets | with_reducible apply State.plainWrite_ok | with_reducible apply State.startBackground_ok | with_reducible apply State.stopBackground_ok | with_reducible apply State.fgStart_ok | with_reducible apply State.save_ok | with_reducible apply foldl_ok | with_reducible apply foldl_ok_fst | with_reducible apply foldl_ok_snd | fail_if_no_progress (with_reducible apply State.mk_ok) | split | dsimp +zetaDelta only

theorem State.foregroundResult_ok {κ : Keep} (s : State) (n : Nat) (ms : List Measure) (hs : s.Kept κ) :
    State.Kept κ (State.foregroundResult s n ms) := by
  unfold State.foregroundResult
  repeat' first | with_reducible assumption | (intro _) | with_reducible apply ok_ite | extract_lets | with_reducible apply State.put_ok | with_reducible apply State.raiseInst_ok | with_reducible apply State.updCal_ok | with_reducible apply State.newTargets_ok | with_reducible apply State.writeSet_ok | with_reducible apply State.countRejects_ok | with_reducible apply State.sliceFails_ok | with_reducible apply foldl_ok | with_reducible apply foldl_ok_fst | with_reducible apply foldl_ok_snd | fail_if_no_progress (with_reducible apply State.mk_ok) | split | dsimp +zetaDelta only

theorem execForegroundCalEnd_ok {κ : Keep} (n : Fin 4) (ms : List Measure) (s : State) (hs : s.Kept κ) :
    OutOk κ (execForegroundCalEnd n ms s) := by
  unfold execForegroundCalEnd
  repeat' first | with_reducible assumption | (intro _) | with_reducible apply OutOk.ite | with_reducible apply ok_ite | extract_lets | with_reducible apply State.startBackground_ok | with_reducible apply State.resumeSave_ok | with_reducible apply State.foregroundResult_ok | with_reducible apply OutOk.next | fail_if_no_progress (with_reducible apply State.mk_ok) | split | dsimp +zetaDelta only

theorem execStoredTrimsLoaded_ok {κ : Keep} (n : Fin 4) (s : State) (hs : s.Kept κ) :
    OutOk κ (execStoredTrimsLoaded n s) := by
  unfold execStoredTrimsLoaded
  repeat' first | with_reducible assumption | (intro _) | with_reducible apply OutOk.ite | with_reducible apply ok_ite | extract_lets | with_reducible apply State.put_ok | with_reducible apply State.updCal_ok | with_reducible apply State.startBackground_ok | with_reducible apply OutOk.next | fail_if_no_progress (with_reducible apply State.mk_ok) | split | dsimp +zetaDelta only

theorem State.nextDwell_ok {κ : Keep} (s : State) (n : Nat) (hs : s.Kept κ) :
    State.Kept κ (State.nextDwell s n) := by
  unfold State.nextDwell
  repeat' first | with_reducible assumption | (intro _) | with_reducible apply ok_ite | extract_lets | with_reducible apply State.put_ok | with_reducible apply State.satInc_ok | with_reducible apply State.updCal_ok | fail_if_no_progress (with_reducible apply State.mk_ok) | split | dsimp +zetaDelta only

theorem State.dwellResult_ok {κ : Keep} (s : State) (n : Nat) (ms : List Measure) (hs : s.Kept κ) :
    State.Kept κ (State.dwellResult s n ms) := by
  unfold State.dwellResult
  repeat' first | with_reducible assumption | (intro _) | with_reducible apply ok_ite | extract_lets | with_reducible apply State.put_ok | with_reducible apply State.recompute_ok | with_reducible apply State.writeSet_ok | with_reducible apply State.countRejects_ok | with_reducible apply State.sliceFails_ok | with_reducible apply foldl_ok | with_reducible apply foldl_ok_fst | with_reducible apply foldl_ok_snd | fail_if_no_progress (with_reducible apply State.mk_ok) | split | dsimp +zetaDelta only | with_reducible apply ok_ite_snd | with_reducible apply ok_ite_fst | with_reducible apply id_ok

theorem execDwellEnd_ok {κ : Keep} (n : Fin 4) (ms : List Measure) (s : State) (hs : s.Kept κ) :
    OutOk κ (execDwellEnd n ms s) := by
  unfold execDwellEnd
  repeat' first | with_reducible assumption | (intro _) | with_reducible apply OutOk.ite | with_reducible apply ok_ite | extract_lets | with_reducible apply State.updCal_ok | with_reducible apply State.stopBackground_ok | with_reducible apply State.nextDwell_ok | with_reducible apply State.dwellResult_ok | with_reducible apply OutOk.next | fail_if_no_progress (with_reducible apply State.mk_ok) | split | dsimp +zetaDelta only

theorem execDegradedWindowEnd_ok {κ : Keep} (n : Fin 4) (powered : Bool) (ms : List Measure) (s : State) (hs : s.Kept κ) :
    OutOk κ (execDegradedWindowEnd n powered ms s) := by
  unfold execDegradedWindowEnd
  repeat' first | with_reducible assumption | (intro _) | with_reducible apply OutOk.ite | with_reducible apply ok_ite | extract_lets | with_reducible apply State.put_ok | with_reducible apply State.updCal_ok | with_reducible apply State.sliceFails_ok | with_reducible apply foldl_ok | with_reducible apply foldl_ok_fst | with_reducible apply foldl_ok_snd | with_reducible apply OutOk.next | fail_if_no_progress (with_reducible apply State.mk_ok) | split | dsimp +zetaDelta only | with_reducible apply ok_ite_snd | with_reducible apply ok_ite_fst | with_reducible apply id_ok

theorem execCalibrationStep_ok {κ : Keep} (n : Fin 4) (s : State) (hs : s.Kept κ) :
    OutOk κ (execCalibrationStep n s) := by
  unfold execCalibrationStep
  repeat' first | with_reducible assumption | (intro _) | with_reducible apply OutOk.ite | with_reducible apply ok_ite | with_reducible apply State.calStep_ok | with_reducible apply OutOk.next | fail_if_no_progress (with_reducible apply State.mk_ok) | split

theorem execSaveDone_ok {κ : Keep} (s : State) (hs : s.Kept κ) :
    OutOk κ (execSaveDone s) := by
  unfold execSaveDone
  repeat' first | with_reducible assumption | (intro _) | with_reducible apply OutOk.ite | with_reducible apply ok_ite | extract_lets | with_reducible apply State.put_ok | with_reducible apply OutOk.next | fail_if_no_progress (with_reducible apply State.mk_ok) | split | dsimp +zetaDelta only

end Machine
end Sys2Proof
end

