-- ==== Sys2Proof/Laws/OkRegWrite.lean ====
section
/-!
SUPPORT. The canonical form is kept by every operation of Machine/RegWrite.lean.
-/

namespace Sys2Proof
namespace Machine

theorem pick_nil_ok {κ : Keep} {d : State} (h : d.Kept κ) : State.Kept κ (pick [] d) := h

theorem pick_cons_ok {κ : Keep} {o : Option State} {t : List (Option State)} {d : State} (ho : OptOk κ o) (ht : State.Kept κ (pick t d)) :
    State.Kept κ (pick (o :: t) d) := by
  cases o with
  | none => exact ht
  | some s => exact ho.of_some s rfl

theorem State.clearW1c_ok {κ : Keep} (s : State) (key : Nat) (w : Word) (hs : s.Kept κ) :
    State.Kept κ (State.clearW1c s key w) := by
  unfold State.clearW1c
  repeat' first | with_reducible assumption | (intro _) | with_reducible apply ok_ite | with_reducible apply State.setWord_ok | fail_if_no_progress (with_reducible apply State.mk_ok) | split

theorem inst1_ok {κ : Keep} {key base count stride : Nat} {f : Nat → State} (h : ∀ n, (f n).Kept κ) : OptOk κ (inst1 key base count stride f) := by
  unfold inst1
  cases instIndex key base count stride with
  | none => exact OptOk.none
  | some n => exact OptOk.some (h n)

theorem only_ok {κ : Keep} {key a : Nat} {s : State} (h : s.Kept κ) : OptOk κ (only key a s) := OptOk.ite (OptOk.some h) OptOk.none

theorem within_ok {κ : Keep} {key lo hi : Nat} {s : State} (h : s.Kept κ) : OptOk κ (within key lo hi s) := OptOk.ite (OptOk.some h) OptOk.none

theorem State.writeMonOff_ok {κ : Keep} (s : State) (off : Bool) (hs : s.Kept κ) :
    State.Kept κ (State.writeMonOff s off) := by
  unfold State.writeMonOff
  repeat' first | with_reducible assumption | (intro _) | with_reducible apply ok_ite | extract_lets | with_reducible apply State.put_ok | with_reducible apply State.tokenRel_ok | fail_if_no_progress (with_reducible apply State.mk_ok) | split | dsimp +zetaDelta only

theorem State.writeWake_ok {κ : Keep} (s : State) (hs : s.Kept κ) :
    State.Kept κ (State.writeWake s) := by
  unfold State.writeWake
  repeat' first | with_reducible assumption | (intro _) | with_reducible apply ok_ite | with_reducible apply State.wakeCause_ok | with_reducible apply State.wakeLookout_ok | fail_if_no_progress (with_reducible apply State.mk_ok) | split

theorem State.writeGlobal_ok {κ : Keep} (s : State) (p : Path) (key : Nat) (w : Word) (hs : s.Kept κ) :
    State.Kept κ (State.writeGlobal s p key w) := by
  unfold State.writeGlobal
  repeat' first | with_reducible assumption | (intro _) | with_reducible apply ok_ite | with_reducible apply State.plainWrite_ok | with_reducible apply State.writeOwner_ok | with_reducible apply State.writeClkout_ok | with_reducible apply State.writeSwsCtl_ok | with_reducible apply State.writeSwsSeg_ok | with_reducible apply State.writePwrctl_ok | with_reducible apply State.writeProt_ok | with_reducible apply State.resetWrite_ok | with_reducible apply pick_nil_ok | with_reducible apply pick_cons_ok | with_reducible apply inst1_ok | with_reducible apply only_ok | with_reducible apply within_ok | fail_if_no_progress (with_reducible apply State.mk_ok) | split

theorem State.writeSeen_ok {κ : Keep} (s : State) (key : Nat) (seen : Field) (count : Nat) (w : Word) (hs : s.Kept κ) :
    State.Kept κ (State.writeSeen s key seen count w) := by
  unfold State.writeSeen
  repeat' first | with_reducible assumption | (intro _) | with_reducible apply ok_ite | extract_lets | with_reducible apply State.setWord_ok | with_reducible apply State.plainWrite_ok | with_reducible apply State.count_ok | fail_if_no_progress (with_reducible apply State.mk_ok) | split | dsimp +zetaDelta only

theorem State.writeConverters_ok {κ : Keep} (s : State) (key : Nat) (w : Word) (hs : s.Kept κ) :
    State.Kept κ (State.writeConverters s key w) := by
  unfold State.writeConverters
  repeat' first | with_reducible assumption | (intro _) | with_reducible apply ok_ite | with_reducible apply State.plainWrite_ok | with_reducible apply State.writeRefbuf_ok | with_reducible apply State.writeAdcCtl_ok | with_reducible apply State.writeDacCtl_ok | with_reducible apply State.writeAdcStart_ok | with_reducible apply State.writeConvSync_ok | with_reducible apply State.writeDdcCtl_ok | with_reducible apply State.writeDdcRetune_ok | with_reducible apply State.writeDdcList_ok | with_reducible apply State.writePltCtl_ok | with_reducible apply State.writeHkSeqCtl_ok | with_reducible apply State.writeHkPwm_ok | with_reducible apply State.writeGpio_ok | with_reducible apply State.writeCalCtl_ok | with_reducible apply pick_nil_ok | with_reducible apply pick_cons_ok | with_reducible apply inst1_ok | with_reducible apply only_ok | with_reducible apply within_ok | with_reducible apply State.writeSeen_ok | fail_if_no_progress (with_reducible apply State.mk_ok) | split

theorem State.writeLanes_ok {κ : Keep} (s : State) (key : Nat) (w : Word) (hs : s.Kept κ) :
    State.Kept κ (State.writeLanes s key w) := by
  unfold State.writeLanes
  repeat' first | with_reducible assumption | (intro _) | with_reducible apply ok_ite | with_reducible apply State.plainWrite_ok | with_reducible apply State.writeDetCfg_ok | with_reducible apply State.writeDetCtl_ok | with_reducible apply State.writeReamDecay_ok | with_reducible apply State.writeZone_ok | with_reducible apply State.writeReamCfg_ok | with_reducible apply State.writeReamMap_ok | with_reducible apply State.writeReamCtl_ok | with_reducible apply State.writeLaneCfg_ok | with_reducible apply State.writeLaneInject_ok | with_reducible apply pick_nil_ok | with_reducible apply pick_cons_ok | with_reducible apply inst1_ok | with_reducible apply only_ok | fail_if_no_progress (with_reducible apply State.mk_ok) | split

theorem State.writeTriggers_ok {κ : Keep} (s : State) (key : Nat) (w : Word) (hs : s.Kept κ) :
    State.Kept κ (State.writeTriggers s key w) := by
  unfold State.writeTriggers
  repeat' first | with_reducible assumption | (intro _) | with_reducible apply ok_ite | with_reducible apply State.plainWrite_ok | with_reducible apply State.writeWeirCfg_ok | with_reducible apply State.writeWeirSet_ok | with_reducible apply State.writePinCfg_ok | with_reducible apply State.writePinStatus_ok | with_reducible apply State.writeFlCtl_ok | with_reducible apply State.writeFlight_ok | with_reducible apply pick_nil_ok | with_reducible apply pick_cons_ok | with_reducible apply inst1_ok | with_reducible apply within_ok | fail_if_no_progress (with_reducible apply State.mk_ok) | split

theorem State.writeMemories_ok {κ : Keep} (s : State) (key : Nat) (w : Word) (hs : s.Kept κ) :
    State.Kept κ (State.writeMemories s key w) := by
  unfold State.writeMemories
  repeat' first | with_reducible assumption | (intro _) | with_reducible apply ok_ite | with_reducible apply State.plainWrite_ok | with_reducible apply State.writeQueueCfg_ok | with_reducible apply State.writePoolCfg_ok | with_reducible apply State.writeMemCtl_ok | with_reducible apply State.writePoundCfg_ok | with_reducible apply State.writePoundSet_ok | with_reducible apply State.writeDrain_ok | with_reducible apply State.writeMemFence_ok | with_reducible apply State.writeCuCtl_ok | with_reducible apply State.writeCuEvcfg_ok | with_reducible apply State.writeCuInq_ok | with_reducible apply pick_nil_ok | with_reducible apply pick_cons_ok | with_reducible apply inst1_ok | with_reducible apply only_ok | with_reducible apply within_ok | fail_if_no_progress (with_reducible apply State.mk_ok) | split

theorem State.writeStreams_ok {κ : Keep} (s : State) (key : Nat) (w : Word) (hs : s.Kept κ) :
    State.Kept κ (State.writeStreams s key w) := by
  unfold State.writeStreams
  repeat' first | with_reducible assumption | (intro _) | with_reducible apply ok_ite | extract_lets | with_reducible apply State.plainWrite_ok | with_reducible apply State.flushRing_ok | with_reducible apply State.writeRingCfg_ok | with_reducible apply State.writeRingSrc_ok | with_reducible apply State.writeRingBase_ok | with_reducible apply State.writeRingCtl_ok | with_reducible apply State.writeTallyBase_ok | with_reducible apply State.writeSgCtl_ok | with_reducible apply State.writeSgCfg_ok | with_reducible apply State.writeSgSkew_ok | with_reducible apply State.writeGroups_ok | with_reducible apply State.writeLaneEn_ok | with_reducible apply State.writeVcCfg_ok | with_reducible apply State.writeVcRate_ok | with_reducible apply State.writeBpCfg_ok | with_reducible apply State.writeEgCfg_ok | with_reducible apply State.writeNvPort_ok | with_reducible apply State.writeNvSlot_ok | with_reducible apply State.writeNvNsid_ok | with_reducible apply State.writeRecCfg_ok | with_reducible apply State.writeRecClose_ok | with_reducible apply pick_nil_ok | with_reducible apply pick_cons_ok | with_reducible apply State.clearW1c_ok | with_reducible apply inst1_ok | with_reducible apply only_ok | fail_if_no_progress (with_reducible apply State.mk_ok) | split | dsimp +zetaDelta only

theorem State.writeTimeBlocks_ok {κ : Keep} (s : State) (key : Nat) (w : Word) (hs : s.Kept κ) :
    State.Kept κ (State.writeTimeBlocks s key w) := by
  unfold State.writeTimeBlocks
  repeat' first | with_reducible assumption | (intro _) | with_reducible apply ok_ite | with_reducible apply State.plainWrite_ok | with_reducible apply State.writeTgCtl_ok | with_reducible apply State.writeTgSet_ok | with_reducible apply State.writeEthCfg_ok | with_reducible apply State.reroute_ok | with_reducible apply State.writeTimeCfg_ok | with_reducible apply State.writeTimeRoot_ok | with_reducible apply State.writeKxLink_ok | with_reducible apply State.writeKxSp_ok | with_reducible apply State.writeKxDest_ok | with_reducible apply State.writePinStatus_ok | with_reducible apply State.writeTdcIn_ok | with_reducible apply State.writeTdcCtl_ok | with_reducible apply State.writeDispCtl_ok | with_reducible apply pick_nil_ok | with_reducible apply pick_cons_ok | with_reducible apply State.clearW1c_ok | with_reducible apply inst1_ok | with_reducible apply only_ok | fail_if_no_progress (with_reducible apply State.mk_ok) | split

theorem State.writeEvents_ok {κ : Keep} (s : State) (key : Nat) (w : Word) (hs : s.Kept κ) :
    State.Kept κ (State.writeEvents s key w) := by
  unfold State.writeEvents
  repeat' first | with_reducible assumption | (intro _) | with_reducible apply ok_ite | with_reducible apply State.put_ok | with_reducible apply State.plainWrite_ok | with_reducible apply State.injectEvent_ok | with_reducible apply pick_nil_ok | with_reducible apply pick_cons_ok | with_reducible apply only_ok | fail_if_no_progress (with_reducible apply State.mk_ok) | split

theorem State.writeBar0_ok {κ : Keep} (s : State) (p : Path) (key : Nat) (w : Word) (hs : s.Kept κ) :
    State.Kept κ (State.writeBar0 s p key w) := by
  unfold State.writeBar0
  repeat' first | with_reducible assumption | (intro _) | with_reducible apply ok_ite | with_reducible apply State.cuWindow_ok | with_reducible apply State.writeGlobal_ok | with_reducible apply State.writeConverters_ok | with_reducible apply State.writeLanes_ok | with_reducible apply State.writeTriggers_ok | with_reducible apply State.writeMemories_ok | with_reducible apply State.writeStreams_ok | with_reducible apply State.writeTimeBlocks_ok | with_reducible apply State.writeEvents_ok | fail_if_no_progress (with_reducible apply State.mk_ok) | split

theorem State.writeMsix_ok {κ : Keep} (s : State) (fn off : Nat) (w : Word) (hs : s.Kept κ) :
    State.Kept κ (State.writeMsix s fn off w) := by
  unfold State.writeMsix
  repeat' first | with_reducible assumption | (intro _) | with_reducible apply ok_ite | with_reducible apply State.put_ok | with_reducible apply State.flushVectors_ok | fail_if_no_progress (with_reducible apply State.mk_ok) | split

theorem State.writeMbx_ok {κ : Keep} (s : State) (ch key : Nat) (w : Word) (hs : s.Kept κ) :
    State.Kept κ (State.writeMbx s ch key w) := by
  unfold State.writeMbx
  repeat' first | with_reducible assumption | (intro _) | with_reducible apply ok_ite | extract_lets | with_reducible apply State.plainWrite_ok | with_reducible apply State.mbxIn_ok | with_reducible apply State.retract_ok | fail_if_no_progress (with_reducible apply State.mk_ok) | split | dsimp +zetaDelta only

theorem State.writeBar2_ok {κ : Keep} (s : State) (key : Nat) (w : Word) (hs : s.Kept κ) :
    State.Kept κ (State.writeBar2 s key w) := by
  unfold State.writeBar2
  repeat' first | with_reducible assumption | (intro _) | with_reducible apply ok_ite | with_reducible apply State.plainWrite_ok | with_reducible apply State.writeInc_ok | with_reducible apply State.writeServo_ok | with_reducible apply State.writeTxCtl_ok | with_reducible apply State.writeEthBuffer_ok | with_reducible apply pick_nil_ok | with_reducible apply pick_cons_ok | with_reducible apply inst1_ok | with_reducible apply only_ok | with_reducible apply within_ok | with_reducible apply State.writeWake_ok | with_reducible apply State.writeMsix_ok | with_reducible apply State.writeMbx_ok | fail_if_no_progress (with_reducible apply State.mk_ok) | split

theorem State.mgmtWrite_ok {κ : Keep} (s : State) (p : Path) (w : Word) (hs : s.Kept κ) :
    State.Kept κ (State.mgmtWrite s p w) := by
  unfold State.mgmtWrite
  repeat' first | with_reducible assumption | (intro _) | with_reducible apply ok_ite | extract_lets | with_reducible apply State.retainWrite_ok | with_reducible apply State.ownerViolation_ok | with_reducible apply State.resetWrite_ok | with_reducible apply State.writeBar0_ok | fail_if_no_progress (with_reducible apply State.mk_ok) | split | dsimp +zetaDelta only

theorem State.writePf1_ok {κ : Keep} (s : State) (key : Nat) (w : Word) (hs : s.Kept κ) :
    State.Kept κ (State.writePf1 s key w) := by
  unfold State.writePf1
  repeat' first | with_reducible assumption | (intro _) | with_reducible apply ok_ite | extract_lets | with_reducible apply State.plainWrite_ok | with_reducible apply State.writeRingCfg_ok | with_reducible apply State.writeEr1Tail_ok | with_reducible apply State.writeRingBase_ok | with_reducible apply State.writeMgmtToken_ok | with_reducible apply State.stagingGo_ok | with_reducible apply State.writePnlCfg_ok | with_reducible apply pick_nil_ok | with_reducible apply pick_cons_ok | with_reducible apply State.clearW1c_ok | with_reducible apply only_ok | with_reducible apply within_ok | with_reducible apply State.writeMonOff_ok | with_reducible apply State.writeMsix_ok | with_reducible apply State.writeMbx_ok | with_reducible apply State.mgmtWrite_ok | fail_if_no_progress (with_reducible apply State.mk_ok) | split | dsimp +zetaDelta only

theorem State.regWrite_ok {κ : Keep} (s : State) (p : Path) (key : Nat) (w : Word) (hs : s.Kept κ) :
    State.Kept κ (State.regWrite s p key w) := by
  unfold State.regWrite
  repeat' first | with_reducible assumption | (intro _) | with_reducible apply ok_ite | with_reducible apply State.writeBar0_ok | with_reducible apply State.writeBar2_ok | with_reducible apply State.writePf1_ok | fail_if_no_progress (with_reducible apply State.mk_ok) | split

theorem State.busWrite_ok {κ : Keep} (s : State) (p : Path) (key : Nat) (w : Word) (hs : s.Kept κ) :
    State.Kept κ (State.busWrite s p key w) := by
  unfold State.busWrite
  repeat' first | with_reducible assumption | (intro _) | with_reducible apply ok_ite | with_reducible apply State.send_ok | with_reducible apply State.retainWrite_ok | with_reducible apply State.logAer_ok | with_reducible apply State.gate_ok | with_reducible apply State.resetWrite_ok | with_reducible apply State.regWrite_ok | fail_if_no_progress (with_reducible apply State.mk_ok) | split

theorem execRegisterWrite_ok {κ : Keep} (p : Path) (key : Nat) (w : Word) (s : State) (hs : s.Kept κ) :
    OutOk κ (execRegisterWrite p key w s) := by
  unfold execRegisterWrite
  repeat' first | with_reducible assumption | (intro _) | with_reducible apply OutOk.ite | with_reducible apply ok_ite | with_reducible apply State.busWrite_ok | with_reducible apply OutOk.next | fail_if_no_progress (with_reducible apply State.mk_ok) | split

theorem execMgmtDataWrite_ok {κ : Keep} (p : Path) (w : Word) (s : State) (hs : s.Kept κ) :
    OutOk κ (execMgmtDataWrite p w s) := by
  unfold execMgmtDataWrite
  repeat' first | with_reducible assumption | (intro _) | with_reducible apply OutOk.ite | with_reducible apply ok_ite | with_reducible apply State.gateAction_ok | with_reducible apply State.mgmtWrite_ok | with_reducible apply OutOk.next | fail_if_no_progress (with_reducible apply State.mk_ok) | split

theorem execMonOffWrite_ok {κ : Keep} (p : Path) (off : Bool) (s : State) (hs : s.Kept κ) :
    OutOk κ (execMonOffWrite p off s) := by
  unfold execMonOffWrite
  repeat' first | with_reducible assumption | (intro _) | with_reducible apply OutOk.ite | with_reducible apply ok_ite | with_reducible apply State.gateAction_ok | with_reducible apply State.writeMonOff_ok | with_reducible apply OutOk.next | fail_if_no_progress (with_reducible apply State.mk_ok) | split

theorem execWake_ok {κ : Keep} (s : State) (hs : s.Kept κ) :
    OutOk κ (execWake s) := by
  unfold execWake
  repeat' first | with_reducible assumption | (intro _) | with_reducible apply OutOk.ite | with_reducible apply ok_ite | with_reducible apply State.gateAction_ok | with_reducible apply State.writeWake_ok | with_reducible apply OutOk.next | fail_if_no_progress (with_reducible apply State.mk_ok) | split

end Machine
end Sys2Proof
end

