-- ==== Sys2Proof/Laws/OkMonitor.lean ====
section
/-!
SUPPORT. The canonical form is kept by every operation of Machine/Monitor.lean.
-/

namespace Sys2Proof
namespace Machine

theorem State.monOk_ok {κ : Keep} (s : State) (results : List Nat) (hs : s.Kept κ) :
    State.Kept κ (State.monOk s results) := by
  unfold State.monOk
  repeat' first | with_reducible assumption | (intro _) | with_reducible apply ok_ite | with_reducible apply State.send_ok | fail_if_no_progress (with_reducible apply State.mk_ok) | split

theorem State.monErr_ok {κ : Keep} (s : State) (code : Nat) (hs : s.Kept κ) :
    State.Kept κ (State.monErr s code) := by
  unfold State.monErr
  repeat' first | with_reducible assumption | (intro _) | with_reducible apply ok_ite | with_reducible apply State.send_ok | fail_if_no_progress (with_reducible apply State.mk_ok) | split

theorem State.monCmd_ok {κ : Keep} (s : State) (f : State → State) (hs : s.Kept κ) (hf : ∀ x, x.Kept κ → (f x).Kept κ) :
    OutOk κ (State.monCmd s f) := by
  unfold State.monCmd
  repeat' first | with_reducible assumption | (intro _) | with_reducible apply hf | with_reducible apply OutOk.ite | with_reducible apply ok_ite | with_reducible apply OutOk.next | fail_if_no_progress (with_reducible apply State.mk_ok) | split

theorem execMonId_ok {κ : Keep} (s : State) (hs : s.Kept κ) :
    OutOk κ (execMonId s) := by
  unfold execMonId
  repeat' first | with_reducible assumption | (intro _) | with_reducible apply OutOk.ite | with_reducible apply ok_ite | with_reducible apply State.monOk_ok | with_reducible apply State.monCmd_ok | with_reducible apply OutOk.next | fail_if_no_progress (with_reducible apply State.mk_ok) | split

theorem State.monWords_ok {κ : Keep} (s : State) (key : Nat) (n_ : Nat) (hs : s.Kept κ) :
    State.Kept κ (State.monWords s key n_).2 := by
  induction n_ generalizing s key with
  | zero =>
    unfold State.monWords
    repeat' first | with_reducible assumption | with_reducible apply ih | with_reducible apply ok_ite_fst | with_reducible apply ok_ite_snd | fail_if_no_progress (with_reducible refine mk_ok_snd rfl ?_) | fail_if_no_progress (with_reducible refine mk_ok_fst rfl ?_) | fail_if_no_progress (with_reducible refine mk_ok_snd_snd rfl ?_) | (intro _) | with_reducible apply ok_ite | extract_lets | with_reducible apply State.readReg_ok | fail_if_no_progress (with_reducible apply State.mk_ok) | split | dsimp +zetaDelta only | with_reducible apply ok_ite_snd | with_reducible apply ok_ite_fst | with_reducible apply id_ok
  | succ n ih =>
    unfold State.monWords
    repeat' first | with_reducible assumption | with_reducible apply ih | with_reducible apply ok_ite_fst | with_reducible apply ok_ite_snd | fail_if_no_progress (with_reducible refine mk_ok_snd rfl ?_) | fail_if_no_progress (with_reducible refine mk_ok_fst rfl ?_) | fail_if_no_progress (with_reducible refine mk_ok_snd_snd rfl ?_) | (intro _) | with_reducible apply ok_ite | extract_lets | with_reducible apply State.readReg_ok | fail_if_no_progress (with_reducible apply State.mk_ok) | split | dsimp +zetaDelta only | with_reducible apply ok_ite_snd | with_reducible apply ok_ite_fst | with_reducible apply id_ok

theorem State.monRead_ok {κ : Keep} (s : State) (base size a n : Nat) (hs : s.Kept κ) :
    State.Kept κ (State.monRead s base size a n) := by
  unfold State.monRead
  repeat' first | with_reducible assumption | (intro _) | with_reducible apply ok_ite | extract_lets | with_reducible apply State.monOk_ok | with_reducible apply State.monErr_ok | with_reducible apply State.monWords_ok | fail_if_no_progress (with_reducible apply State.mk_ok) | split | dsimp +zetaDelta only | with_reducible apply ok_ite_snd | with_reducible apply ok_ite_fst | with_reducible apply id_ok

theorem execMonRdB0_ok {κ : Keep} (a n : Nat) (s : State) (hs : s.Kept κ) :
    OutOk κ (execMonRdB0 a n s) := by
  unfold execMonRdB0
  repeat' first | with_reducible assumption | (intro _) | with_reducible apply OutOk.ite | with_reducible apply ok_ite | with_reducible apply State.monCmd_ok | with_reducible apply State.monRead_ok | with_reducible apply OutOk.next | fail_if_no_progress (with_reducible apply State.mk_ok) | split

theorem execMonRdB2_ok {κ : Keep} (a n : Nat) (s : State) (hs : s.Kept κ) :
    OutOk κ (execMonRdB2 a n s) := by
  unfold execMonRdB2
  repeat' first | with_reducible assumption | (intro _) | with_reducible apply OutOk.ite | with_reducible apply ok_ite | with_reducible apply State.monCmd_ok | with_reducible apply State.monRead_ok | with_reducible apply OutOk.next | fail_if_no_progress (with_reducible apply State.mk_ok) | split

theorem execMonWr_ok {κ : Keep} (a : Nat) (v : Word) (s : State) (hs : s.Kept κ) :
    OutOk κ (execMonWr a v s) := by
  unfold execMonWr
  repeat' first | with_reducible assumption | (intro _) | with_reducible apply OutOk.ite | with_reducible apply ok_ite | extract_lets | with_reducible apply State.busWrite_ok | with_reducible apply State.monOk_ok | with_reducible apply State.monErr_ok | with_reducible apply State.monCmd_ok | with_reducible apply OutOk.next | fail_if_no_progress (with_reducible apply State.mk_ok) | split | dsimp +zetaDelta only

theorem execMonTokReq_ok {κ : Keep} (s : State) (hs : s.Kept κ) :
    OutOk κ (execMonTokReq s) := by
  unfold execMonTokReq
  repeat' first | with_reducible assumption | (intro _) | with_reducible apply OutOk.ite | with_reducible apply ok_ite | with_reducible apply State.tokenReq_ok | with_reducible apply State.monOk_ok | with_reducible apply State.monCmd_ok | with_reducible apply OutOk.next | fail_if_no_progress (with_reducible apply State.mk_ok) | split

theorem execMonTokRel_ok {κ : Keep} (s : State) (hs : s.Kept κ) :
    OutOk κ (execMonTokRel s) := by
  unfold execMonTokRel
  repeat' first | with_reducible assumption | (intro _) | with_reducible apply OutOk.ite | with_reducible apply ok_ite | with_reducible apply State.tokenRel_ok | with_reducible apply State.monOk_ok | with_reducible apply State.monCmd_ok | with_reducible apply OutOk.next | fail_if_no_progress (with_reducible apply State.mk_ok) | split

theorem execMonLk_ok {κ : Keep} (s : State) (hs : s.Kept κ) :
    OutOk κ (execMonLk s) := by
  unfold execMonLk
  repeat' first | with_reducible assumption | (intro _) | with_reducible apply OutOk.ite | with_reducible apply ok_ite | with_reducible apply State.monOk_ok | with_reducible apply State.monCmd_ok | with_reducible apply OutOk.next | fail_if_no_progress (with_reducible apply State.mk_ok) | split

theorem execMonEv_ok {κ : Keep} (s : State) (hs : s.Kept κ) :
    OutOk κ (execMonEv s) := by
  unfold execMonEv
  repeat' first | with_reducible assumption | (intro _) | with_reducible apply OutOk.ite | with_reducible apply ok_ite | with_reducible apply State.monOk_ok | with_reducible apply State.monCmd_ok | with_reducible apply OutOk.next | fail_if_no_progress (with_reducible apply State.mk_ok) | split

theorem execMonTime_ok {κ : Keep} (s : State) (hs : s.Kept κ) :
    OutOk κ (execMonTime s) := by
  unfold execMonTime
  repeat' first | with_reducible assumption | (intro _) | with_reducible apply OutOk.ite | with_reducible apply ok_ite | with_reducible apply State.monOk_ok | with_reducible apply State.monCmd_ok | with_reducible apply OutOk.next | fail_if_no_progress (with_reducible apply State.mk_ok) | split

theorem execMonMbWrite_ok {κ : Keep} (w : Word) (s : State) (hs : s.Kept κ) :
    OutOk κ (execMonMbWrite w s) := by
  unfold execMonMbWrite
  repeat' first | with_reducible assumption | (intro _) | with_reducible apply OutOk.ite | with_reducible apply ok_ite | with_reducible apply State.mbxIn_ok | with_reducible apply State.monOk_ok | with_reducible apply State.monErr_ok | with_reducible apply State.monCmd_ok | with_reducible apply OutOk.next | fail_if_no_progress (with_reducible apply State.mk_ok) | split

theorem execMonMbRead_ok {κ : Keep} (s : State) (hs : s.Kept κ) :
    OutOk κ (execMonMbRead s) := by
  unfold execMonMbRead
  repeat' first | with_reducible assumption | (intro _) | with_reducible apply OutOk.ite | with_reducible apply ok_ite | extract_lets | with_reducible apply State.mbxOut_ok | with_reducible apply State.monOk_ok | with_reducible apply State.monCmd_ok | with_reducible apply OutOk.next | fail_if_no_progress (with_reducible apply State.mk_ok) | split | dsimp +zetaDelta only | with_reducible apply ok_ite_snd | with_reducible apply ok_ite_fst | with_reducible apply id_ok

theorem execMonBaud_ok {κ : Keep} (r : Nat) (s : State) (hs : s.Kept κ) :
    OutOk κ (execMonBaud r s) := by
  unfold execMonBaud
  repeat' first | with_reducible assumption | (intro _) | with_reducible apply OutOk.ite | with_reducible apply ok_ite | with_reducible apply State.put_ok | with_reducible apply State.monOk_ok | with_reducible apply State.monErr_ok | with_reducible apply State.monCmd_ok | with_reducible apply OutOk.next | fail_if_no_progress (with_reducible apply State.mk_ok) | split

theorem execMonReset_ok {κ : Keep} (k : Word) (s : State) (hs : s.Kept κ) :
    OutOk κ (execMonReset k s) := by
  unfold execMonReset
  repeat' first | with_reducible assumption | (intro _) | with_reducible apply OutOk.ite | with_reducible apply ok_ite | extract_lets | with_reducible apply State.resetWrite_ok | with_reducible apply State.monOk_ok | with_reducible apply State.monErr_ok | with_reducible apply State.monCmd_ok | with_reducible apply OutOk.next | fail_if_no_progress (with_reducible apply State.mk_ok) | split | dsimp +zetaDelta only

theorem execMonHelp_ok {κ : Keep} (s : State) (hs : s.Kept κ) :
    OutOk κ (execMonHelp s) := by
  unfold execMonHelp
  repeat' first | with_reducible assumption | (intro _) | with_reducible apply OutOk.ite | with_reducible apply ok_ite | with_reducible apply State.monOk_ok | with_reducible apply State.monCmd_ok | with_reducible apply OutOk.next | fail_if_no_progress (with_reducible apply State.mk_ok) | split

theorem execMonUnknown_ok {κ : Keep} (lost : Nat) (s : State) (hs : s.Kept κ) :
    OutOk κ (execMonUnknown lost s) := by
  unfold execMonUnknown
  repeat' first | with_reducible assumption | (intro _) | with_reducible apply OutOk.ite | with_reducible apply ok_ite | with_reducible apply State.satInc_ok | with_reducible apply State.monErr_ok | with_reducible apply State.monCmd_ok | with_reducible apply OutOk.next | fail_if_no_progress (with_reducible apply State.mk_ok) | split

theorem State.smbCmd_ok {κ : Keep} (s : State) (f : State → State) (hs : s.Kept κ) (hf : ∀ x, x.Kept κ → (f x).Kept κ) :
    OutOk κ (State.smbCmd s f) := by
  unfold State.smbCmd
  repeat' first | with_reducible assumption | (intro _) | with_reducible apply hf | with_reducible apply OutOk.ite | with_reducible apply ok_ite | with_reducible apply OutOk.next | fail_if_no_progress (with_reducible apply State.mk_ok) | split

theorem execSmbS4Write_ok {κ : Keep} (w : Word) (pec : Bool) (s : State) (hs : s.Kept κ) :
    OutOk κ (execSmbS4Write w pec s) := by
  unfold execSmbS4Write
  repeat' first | with_reducible assumption | (intro _) | with_reducible apply OutOk.ite | with_reducible apply ok_ite | with_reducible apply State.mbxIn_ok | with_reducible apply State.smbCmd_ok | with_reducible apply OutOk.next | fail_if_no_progress (with_reducible apply State.mk_ok) | split

theorem execSmbS4Read_ok {κ : Keep} (s : State) (hs : s.Kept κ) :
    OutOk κ (execSmbS4Read s) := by
  unfold execSmbS4Read
  repeat' first | with_reducible assumption | (intro _) | with_reducible apply OutOk.ite | with_reducible apply ok_ite | extract_lets | with_reducible apply State.send_ok | with_reducible apply State.mbxOut_ok | with_reducible apply State.smbCmd_ok | with_reducible apply OutOk.next | fail_if_no_progress (with_reducible apply State.mk_ok) | split | dsimp +zetaDelta only | with_reducible apply ok_ite_snd | with_reducible apply ok_ite_fst | with_reducible apply id_ok

theorem execSmbS4Status_ok {κ : Keep} (s : State) (hs : s.Kept κ) :
    OutOk κ (execSmbS4Status s) := by
  unfold execSmbS4Status
  repeat' first | with_reducible assumption | (intro _) | with_reducible apply OutOk.ite | with_reducible apply ok_ite | with_reducible apply State.send_ok | with_reducible apply State.smbCmd_ok | with_reducible apply OutOk.next | fail_if_no_progress (with_reducible apply State.mk_ok) | split

theorem execSmbMgmtAddr_ok {κ : Keep} (w : Word) (pec : Bool) (s : State) (hs : s.Kept κ) :
    OutOk κ (execSmbMgmtAddr w pec s) := by
  unfold execSmbMgmtAddr
  repeat' first | with_reducible assumption | (intro _) | with_reducible apply OutOk.ite | with_reducible apply ok_ite | with_reducible apply State.plainWrite_ok | with_reducible apply State.smbCmd_ok | with_reducible apply OutOk.next | fail_if_no_progress (with_reducible apply State.mk_ok) | split

theorem execSmbMgmtData_ok {κ : Keep} (w : Option Word) (pec : Bool) (s : State) (hs : s.Kept κ) :
    OutOk κ (execSmbMgmtData w pec s) := by
  unfold execSmbMgmtData
  repeat' first | with_reducible assumption | (intro _) | with_reducible apply OutOk.ite | with_reducible apply ok_ite | extract_lets | with_reducible apply State.send_ok | with_reducible apply State.readReg_ok | with_reducible apply State.mgmtWrite_ok | with_reducible apply State.smbCmd_ok | with_reducible apply OutOk.next | fail_if_no_progress (with_reducible apply State.mk_ok) | split | dsimp +zetaDelta only | with_reducible apply ok_ite_snd | with_reducible apply ok_ite_fst | with_reducible apply id_ok

end Machine
end Sys2Proof
end

