-- ==== Sys2Proof/Laws/OkCuIsa.lean ====
section
/-!
SUPPORT. The canonical form is kept by every operation of Machine/CuIsa.lean.
-/

namespace Sys2Proof
namespace Machine

theorem execCuNop_ok {κ : Keep} (u : Fin 16) (s : State) (hs : s.Kept κ) :
    OutOk κ (execCuNop u s) := by
  unfold execCuNop
  repeat' first | with_reducible assumption | (intro _) | with_reducible apply OutOk.ite | with_reducible apply ok_ite | with_reducible apply State.cuRun_ok | with_reducible apply OutOk.next | fail_if_no_progress (with_reducible apply State.mk_ok) | split

theorem execCuAdd_ok {κ : Keep} (u : Fin 16) (s : State) (hs : s.Kept κ) :
    OutOk κ (execCuAdd u s) := by
  unfold execCuAdd
  repeat' first | with_reducible assumption | (intro _) | with_reducible apply OutOk.ite | with_reducible apply ok_ite | with_reducible apply State.cuRun_ok | with_reducible apply OutOk.next | fail_if_no_progress (with_reducible apply State.mk_ok) | split

theorem execCuSub_ok {κ : Keep} (u : Fin 16) (s : State) (hs : s.Kept κ) :
    OutOk κ (execCuSub u s) := by
  unfold execCuSub
  repeat' first | with_reducible assumption | (intro _) | with_reducible apply OutOk.ite | with_reducible apply ok_ite | with_reducible apply State.cuRun_ok | with_reducible apply OutOk.next | fail_if_no_progress (with_reducible apply State.mk_ok) | split

theorem execCuAnd_ok {κ : Keep} (u : Fin 16) (s : State) (hs : s.Kept κ) :
    OutOk κ (execCuAnd u s) := by
  unfold execCuAnd
  repeat' first | with_reducible assumption | (intro _) | with_reducible apply OutOk.ite | with_reducible apply ok_ite | with_reducible apply State.cuRun_ok | with_reducible apply OutOk.next | fail_if_no_progress (with_reducible apply State.mk_ok) | split

theorem execCuOr_ok {κ : Keep} (u : Fin 16) (s : State) (hs : s.Kept κ) :
    OutOk κ (execCuOr u s) := by
  unfold execCuOr
  repeat' first | with_reducible assumption | (intro _) | with_reducible apply OutOk.ite | with_reducible apply ok_ite | with_reducible apply State.cuRun_ok | with_reducible apply OutOk.next | fail_if_no_progress (with_reducible apply State.mk_ok) | split

theorem execCuXor_ok {κ : Keep} (u : Fin 16) (s : State) (hs : s.Kept κ) :
    OutOk κ (execCuXor u s) := by
  unfold execCuXor
  repeat' first | with_reducible assumption | (intro _) | with_reducible apply OutOk.ite | with_reducible apply ok_ite | with_reducible apply State.cuRun_ok | with_reducible apply OutOk.next | fail_if_no_progress (with_reducible apply State.mk_ok) | split

theorem execCuShl_ok {κ : Keep} (u : Fin 16) (s : State) (hs : s.Kept κ) :
    OutOk κ (execCuShl u s) := by
  unfold execCuShl
  repeat' first | with_reducible assumption | (intro _) | with_reducible apply OutOk.ite | with_reducible apply ok_ite | with_reducible apply State.cuRun_ok | with_reducible apply OutOk.next | fail_if_no_progress (with_reducible apply State.mk_ok) | split

theorem execCuShr_ok {κ : Keep} (u : Fin 16) (s : State) (hs : s.Kept κ) :
    OutOk κ (execCuShr u s) := by
  unfold execCuShr
  repeat' first | with_reducible assumption | (intro _) | with_reducible apply OutOk.ite | with_reducible apply ok_ite | with_reducible apply State.cuRun_ok | with_reducible apply OutOk.next | fail_if_no_progress (with_reducible apply State.mk_ok) | split

theorem execCuSra_ok {κ : Keep} (u : Fin 16) (s : State) (hs : s.Kept κ) :
    OutOk κ (execCuSra u s) := by
  unfold execCuSra
  repeat' first | with_reducible assumption | (intro _) | with_reducible apply OutOk.ite | with_reducible apply ok_ite | with_reducible apply State.cuRun_ok | with_reducible apply OutOk.next | fail_if_no_progress (with_reducible apply State.mk_ok) | split

theorem execCuMul_ok {κ : Keep} (u : Fin 16) (s : State) (hs : s.Kept κ) :
    OutOk κ (execCuMul u s) := by
  unfold execCuMul
  repeat' first | with_reducible assumption | (intro _) | with_reducible apply OutOk.ite | with_reducible apply ok_ite | with_reducible apply State.cuRun_ok | with_reducible apply OutOk.next | fail_if_no_progress (with_reducible apply State.mk_ok) | split

theorem execCuSlt_ok {κ : Keep} (u : Fin 16) (s : State) (hs : s.Kept κ) :
    OutOk κ (execCuSlt u s) := by
  unfold execCuSlt
  repeat' first | with_reducible assumption | (intro _) | with_reducible apply OutOk.ite | with_reducible apply ok_ite | with_reducible apply State.cuRun_ok | with_reducible apply OutOk.next | fail_if_no_progress (with_reducible apply State.mk_ok) | split

theorem execCuSltu_ok {κ : Keep} (u : Fin 16) (s : State) (hs : s.Kept κ) :
    OutOk κ (execCuSltu u s) := by
  unfold execCuSltu
  repeat' first | with_reducible assumption | (intro _) | with_reducible apply OutOk.ite | with_reducible apply ok_ite | with_reducible apply State.cuRun_ok | with_reducible apply OutOk.next | fail_if_no_progress (with_reducible apply State.mk_ok) | split

theorem execCuAddi_ok {κ : Keep} (u : Fin 16) (s : State) (hs : s.Kept κ) :
    OutOk κ (execCuAddi u s) := by
  unfold execCuAddi
  repeat' first | with_reducible assumption | (intro _) | with_reducible apply OutOk.ite | with_reducible apply ok_ite | with_reducible apply State.cuRun_ok | with_reducible apply OutOk.next | fail_if_no_progress (with_reducible apply State.mk_ok) | split

theorem execCuAndi_ok {κ : Keep} (u : Fin 16) (s : State) (hs : s.Kept κ) :
    OutOk κ (execCuAndi u s) := by
  unfold execCuAndi
  repeat' first | with_reducible assumption | (intro _) | with_reducible apply OutOk.ite | with_reducible apply ok_ite | with_reducible apply State.cuRun_ok | with_reducible apply OutOk.next | fail_if_no_progress (with_reducible apply State.mk_ok) | split

theorem execCuOri_ok {κ : Keep} (u : Fin 16) (s : State) (hs : s.Kept κ) :
    OutOk κ (execCuOri u s) := by
  unfold execCuOri
  repeat' first | with_reducible assumption | (intro _) | with_reducible apply OutOk.ite | with_reducible apply ok_ite | with_reducible apply State.cuRun_ok | with_reducible apply OutOk.next | fail_if_no_progress (with_reducible apply State.mk_ok) | split

theorem execCuLui_ok {κ : Keep} (u : Fin 16) (s : State) (hs : s.Kept κ) :
    OutOk κ (execCuLui u s) := by
  unfold execCuLui
  repeat' first | with_reducible assumption | (intro _) | with_reducible apply OutOk.ite | with_reducible apply ok_ite | with_reducible apply State.cuRun_ok | with_reducible apply OutOk.next | fail_if_no_progress (with_reducible apply State.mk_ok) | split

theorem execCuShli_ok {κ : Keep} (u : Fin 16) (s : State) (hs : s.Kept κ) :
    OutOk κ (execCuShli u s) := by
  unfold execCuShli
  repeat' first | with_reducible assumption | (intro _) | with_reducible apply OutOk.ite | with_reducible apply ok_ite | with_reducible apply State.cuRun_ok | with_reducible apply OutOk.next | fail_if_no_progress (with_reducible apply State.mk_ok) | split

theorem execCuShri_ok {κ : Keep} (u : Fin 16) (s : State) (hs : s.Kept κ) :
    OutOk κ (execCuShri u s) := by
  unfold execCuShri
  repeat' first | with_reducible assumption | (intro _) | with_reducible apply OutOk.ite | with_reducible apply ok_ite | with_reducible apply State.cuRun_ok | with_reducible apply OutOk.next | fail_if_no_progress (with_reducible apply State.mk_ok) | split

theorem execCuSrai_ok {κ : Keep} (u : Fin 16) (s : State) (hs : s.Kept κ) :
    OutOk κ (execCuSrai u s) := by
  unfold execCuSrai
  repeat' first | with_reducible assumption | (intro _) | with_reducible apply OutOk.ite | with_reducible apply ok_ite | with_reducible apply State.cuRun_ok | with_reducible apply OutOk.next | fail_if_no_progress (with_reducible apply State.mk_ok) | split

theorem execCuLdw_ok {κ : Keep} (u : Fin 16) (ecc : LineRead) (s : State) (hs : s.Kept κ) :
    OutOk κ (execCuLdw u ecc s) := by
  unfold execCuLdw
  repeat' first | with_reducible assumption | (intro _) | with_reducible apply OutOk.ite | with_reducible apply ok_ite | with_reducible apply State.cuRun_ok | with_reducible apply OutOk.next | fail_if_no_progress (with_reducible apply State.mk_ok) | split

theorem execCuStw_ok {κ : Keep} (u : Fin 16) (s : State) (hs : s.Kept κ) :
    OutOk κ (execCuStw u s) := by
  unfold execCuStw
  repeat' first | with_reducible assumption | (intro _) | with_reducible apply OutOk.ite | with_reducible apply ok_ite | with_reducible apply State.cuRun_ok | with_reducible apply OutOk.next | fail_if_no_progress (with_reducible apply State.mk_ok) | split

theorem execCuVld_ok {κ : Keep} (u : Fin 16) (ecc : LineRead) (s : State) (hs : s.Kept κ) :
    OutOk κ (execCuVld u ecc s) := by
  unfold execCuVld
  repeat' first | with_reducible assumption | (intro _) | with_reducible apply OutOk.ite | with_reducible apply ok_ite | with_reducible apply State.cuRun_ok | with_reducible apply OutOk.next | fail_if_no_progress (with_reducible apply State.mk_ok) | split

theorem execCuVst_ok {κ : Keep} (u : Fin 16) (s : State) (hs : s.Kept κ) :
    OutOk κ (execCuVst u s) := by
  unfold execCuVst
  repeat' first | with_reducible assumption | (intro _) | with_reducible apply OutOk.ite | with_reducible apply ok_ite | with_reducible apply State.cuRun_ok | with_reducible apply OutOk.next | fail_if_no_progress (with_reducible apply State.mk_ok) | split

theorem execCuLdt_ok {κ : Keep} (u : Fin 16) (ecc : LineRead) (s : State) (hs : s.Kept κ) :
    OutOk κ (execCuLdt u ecc s) := by
  unfold execCuLdt
  repeat' first | with_reducible assumption | (intro _) | with_reducible apply OutOk.ite | with_reducible apply ok_ite | with_reducible apply State.cuRun_ok | with_reducible apply OutOk.next | fail_if_no_progress (with_reducible apply State.mk_ok) | split

theorem execCuStt_ok {κ : Keep} (u : Fin 16) (s : State) (hs : s.Kept κ) :
    OutOk κ (execCuStt u s) := by
  unfold execCuStt
  repeat' first | with_reducible assumption | (intro _) | with_reducible apply OutOk.ite | with_reducible apply ok_ite | with_reducible apply State.cuRun_ok | with_reducible apply OutOk.next | fail_if_no_progress (with_reducible apply State.mk_ok) | split

theorem execCuBeq_ok {κ : Keep} (u : Fin 16) (s : State) (hs : s.Kept κ) :
    OutOk κ (execCuBeq u s) := by
  unfold execCuBeq
  repeat' first | with_reducible assumption | (intro _) | with_reducible apply OutOk.ite | with_reducible apply ok_ite | with_reducible apply State.cuRun_ok | with_reducible apply OutOk.next | fail_if_no_progress (with_reducible apply State.mk_ok) | split

theorem execCuBne_ok {κ : Keep} (u : Fin 16) (s : State) (hs : s.Kept κ) :
    OutOk κ (execCuBne u s) := by
  unfold execCuBne
  repeat' first | with_reducible assumption | (intro _) | with_reducible apply OutOk.ite | with_reducible apply ok_ite | with_reducible apply State.cuRun_ok | with_reducible apply OutOk.next | fail_if_no_progress (with_reducible apply State.mk_ok) | split

theorem execCuBlt_ok {κ : Keep} (u : Fin 16) (s : State) (hs : s.Kept κ) :
    OutOk κ (execCuBlt u s) := by
  unfold execCuBlt
  repeat' first | with_reducible assumption | (intro _) | with_reducible apply OutOk.ite | with_reducible apply ok_ite | with_reducible apply State.cuRun_ok | with_reducible apply OutOk.next | fail_if_no_progress (with_reducible apply State.mk_ok) | split

theorem execCuBge_ok {κ : Keep} (u : Fin 16) (s : State) (hs : s.Kept κ) :
    OutOk κ (execCuBge u s) := by
  unfold execCuBge
  repeat' first | with_reducible assumption | (intro _) | with_reducible apply OutOk.ite | with_reducible apply ok_ite | with_reducible apply State.cuRun_ok | with_reducible apply OutOk.next | fail_if_no_progress (with_reducible apply State.mk_ok) | split

theorem execCuJmp_ok {κ : Keep} (u : Fin 16) (s : State) (hs : s.Kept κ) :
    OutOk κ (execCuJmp u s) := by
  unfold execCuJmp
  repeat' first | with_reducible assumption | (intro _) | with_reducible apply OutOk.ite | with_reducible apply ok_ite | with_reducible apply State.cuRun_ok | with_reducible apply OutOk.next | fail_if_no_progress (with_reducible apply State.mk_ok) | split

theorem execCuJr_ok {κ : Keep} (u : Fin 16) (s : State) (hs : s.Kept κ) :
    OutOk κ (execCuJr u s) := by
  unfold execCuJr
  repeat' first | with_reducible assumption | (intro _) | with_reducible apply OutOk.ite | with_reducible apply ok_ite | with_reducible apply State.cuRun_ok | with_reducible apply OutOk.next | fail_if_no_progress (with_reducible apply State.mk_ok) | split

theorem execCuCall_ok {κ : Keep} (u : Fin 16) (s : State) (hs : s.Kept κ) :
    OutOk κ (execCuCall u s) := by
  unfold execCuCall
  repeat' first | with_reducible assumption | (intro _) | with_reducible apply OutOk.ite | with_reducible apply ok_ite | with_reducible apply State.cuRun_ok | with_reducible apply OutOk.next | fail_if_no_progress (with_reducible apply State.mk_ok) | split

theorem execCuWait_ok {κ : Keep} (u : Fin 16) (s : State) (hs : s.Kept κ) :
    OutOk κ (execCuWait u s) := by
  unfold execCuWait
  repeat' first | with_reducible assumption | (intro _) | with_reducible apply OutOk.ite | with_reducible apply ok_ite | with_reducible apply State.cuRun_ok | with_reducible apply OutOk.next | fail_if_no_progress (with_reducible apply State.mk_ok) | split

theorem execCuRete_ok {κ : Keep} (u : Fin 16) (s : State) (hs : s.Kept κ) :
    OutOk κ (execCuRete u s) := by
  unfold execCuRete
  repeat' first | with_reducible assumption | (intro _) | with_reducible apply OutOk.ite | with_reducible apply ok_ite | with_reducible apply State.cuRun_ok | with_reducible apply OutOk.next | fail_if_no_progress (with_reducible apply State.mk_ok) | split

theorem execCuHalt_ok {κ : Keep} (u : Fin 16) (s : State) (hs : s.Kept κ) :
    OutOk κ (execCuHalt u s) := by
  unfold execCuHalt
  repeat' first | with_reducible assumption | (intro _) | with_reducible apply OutOk.ite | with_reducible apply ok_ite | with_reducible apply State.cuRun_ok | with_reducible apply OutOk.next | fail_if_no_progress (with_reducible apply State.mk_ok) | split

theorem execCuMfs_ok {κ : Keep} (u : Fin 16) (s : State) (hs : s.Kept κ) :
    OutOk κ (execCuMfs u s) := by
  unfold execCuMfs
  repeat' first | with_reducible assumption | (intro _) | with_reducible apply OutOk.ite | with_reducible apply ok_ite | with_reducible apply State.cuRun_ok | with_reducible apply OutOk.next | fail_if_no_progress (with_reducible apply State.mk_ok) | split

theorem execCuMts_ok {κ : Keep} (u : Fin 16) (s : State) (hs : s.Kept κ) :
    OutOk κ (execCuMts u s) := by
  unfold execCuMts
  repeat' first | with_reducible assumption | (intro _) | with_reducible apply OutOk.ite | with_reducible apply ok_ite | with_reducible apply State.cuRun_ok | with_reducible apply OutOk.next | fail_if_no_progress (with_reducible apply State.mk_ok) | split

theorem execCuTnow_ok {κ : Keep} (u : Fin 16) (sub : Fin 2621440) (s : State) (hs : s.Kept κ) :
    OutOk κ (execCuTnow u sub s) := by
  unfold execCuTnow
  repeat' first | with_reducible assumption | (intro _) | with_reducible apply OutOk.ite | with_reducible apply ok_ite | with_reducible apply State.cuRun_ok | with_reducible apply OutOk.next | fail_if_no_progress (with_reducible apply State.mk_ok) | split

theorem execCuTrig_ok {κ : Keep} (u : Fin 16) (sub : Fin 2621440) (s : State) (hs : s.Kept κ) :
    OutOk κ (execCuTrig u sub s) := by
  unfold execCuTrig
  repeat' first | with_reducible assumption | (intro _) | with_reducible apply OutOk.ite | with_reducible apply ok_ite | with_reducible apply State.cuRun_ok | with_reducible apply OutOk.next | fail_if_no_progress (with_reducible apply State.mk_ok) | split

theorem execCuRdtrg_ok {κ : Keep} (u : Fin 16) (s : State) (hs : s.Kept κ) :
    OutOk κ (execCuRdtrg u s) := by
  unfold execCuRdtrg
  repeat' first | with_reducible assumption | (intro _) | with_reducible apply OutOk.ite | with_reducible apply ok_ite | with_reducible apply State.cuRun_ok | with_reducible apply OutOk.next | fail_if_no_progress (with_reducible apply State.mk_ok) | split

theorem execCuQpop_ok {κ : Keep} (u : Fin 16) (s : State) (hs : s.Kept κ) :
    OutOk κ (execCuQpop u s) := by
  unfold execCuQpop
  repeat' first | with_reducible assumption | (intro _) | with_reducible apply OutOk.ite | with_reducible apply ok_ite | with_reducible apply State.cuRun_ok | with_reducible apply OutOk.next | fail_if_no_progress (with_reducible apply State.mk_ok) | split

theorem execCuQrd_ok {κ : Keep} (u : Fin 16) (s : State) (hs : s.Kept κ) :
    OutOk κ (execCuQrd u s) := by
  unfold execCuQrd
  repeat' first | with_reducible assumption | (intro _) | with_reducible apply OutOk.ite | with_reducible apply ok_ite | with_reducible apply State.cuRun_ok | with_reducible apply OutOk.next | fail_if_no_progress (with_reducible apply State.mk_ok) | split

theorem execCuQfree_ok {κ : Keep} (u : Fin 16) (s : State) (hs : s.Kept κ) :
    OutOk κ (execCuQfree u s) := by
  unfold execCuQfree
  repeat' first | with_reducible assumption | (intro _) | with_reducible apply OutOk.ite | with_reducible apply ok_ite | with_reducible apply State.cuRun_ok | with_reducible apply OutOk.next | fail_if_no_progress (with_reducible apply State.mk_ok) | split

theorem execCuSend_ok {κ : Keep} (u : Fin 16) (s : State) (hs : s.Kept κ) :
    OutOk κ (execCuSend u s) := by
  unfold execCuSend
  repeat' first | with_reducible assumption | (intro _) | with_reducible apply OutOk.ite | with_reducible apply ok_ite | with_reducible apply State.cuRun_ok | with_reducible apply OutOk.next | fail_if_no_progress (with_reducible apply State.mk_ok) | split

theorem execCuQstat_ok {κ : Keep} (u : Fin 16) (s : State) (hs : s.Kept κ) :
    OutOk κ (execCuQstat u s) := by
  unfold execCuQstat
  repeat' first | with_reducible assumption | (intro _) | with_reducible apply OutOk.ite | with_reducible apply ok_ite | with_reducible apply State.cuRun_ok | with_reducible apply OutOk.next | fail_if_no_progress (with_reducible apply State.mk_ok) | split

theorem execCuVadd_ok {κ : Keep} (u : Fin 16) (s : State) (hs : s.Kept κ) :
    OutOk κ (execCuVadd u s) := by
  unfold execCuVadd
  repeat' first | with_reducible assumption | (intro _) | with_reducible apply OutOk.ite | with_reducible apply ok_ite | with_reducible apply State.cuRun_ok | with_reducible apply OutOk.next | fail_if_no_progress (with_reducible apply State.mk_ok) | split

theorem execCuVsub_ok {κ : Keep} (u : Fin 16) (s : State) (hs : s.Kept κ) :
    OutOk κ (execCuVsub u s) := by
  unfold execCuVsub
  repeat' first | with_reducible assumption | (intro _) | with_reducible apply OutOk.ite | with_reducible apply ok_ite | with_reducible apply State.cuRun_ok | with_reducible apply OutOk.next | fail_if_no_progress (with_reducible apply State.mk_ok) | split

theorem execCuVmov_ok {κ : Keep} (u : Fin 16) (s : State) (hs : s.Kept κ) :
    OutOk κ (execCuVmov u s) := by
  unfold execCuVmov
  repeat' first | with_reducible assumption | (intro _) | with_reducible apply OutOk.ite | with_reducible apply ok_ite | with_reducible apply State.cuRun_ok | with_reducible apply OutOk.next | fail_if_no_progress (with_reducible apply State.mk_ok) | split

theorem execCuVswap_ok {κ : Keep} (u : Fin 16) (s : State) (hs : s.Kept κ) :
    OutOk κ (execCuVswap u s) := by
  unfold execCuVswap
  repeat' first | with_reducible assumption | (intro _) | with_reducible apply OutOk.ite | with_reducible apply ok_ite | with_reducible apply State.cuRun_ok | with_reducible apply OutOk.next | fail_if_no_progress (with_reducible apply State.mk_ok) | split

theorem execCuVconj_ok {κ : Keep} (u : Fin 16) (s : State) (hs : s.Kept κ) :
    OutOk κ (execCuVconj u s) := by
  unfold execCuVconj
  repeat' first | with_reducible assumption | (intro _) | with_reducible apply OutOk.ite | with_reducible apply ok_ite | with_reducible apply State.cuRun_ok | with_reducible apply OutOk.next | fail_if_no_progress (with_reducible apply State.mk_ok) | split

theorem execCuVbf_ok {κ : Keep} (u : Fin 16) (s : State) (hs : s.Kept κ) :
    OutOk κ (execCuVbf u s) := by
  unfold execCuVbf
  repeat' first | with_reducible assumption | (intro _) | with_reducible apply OutOk.ite | with_reducible apply ok_ite | with_reducible apply State.cuRun_ok | with_reducible apply OutOk.next | fail_if_no_progress (with_reducible apply State.mk_ok) | split

theorem execCuVspl_ok {κ : Keep} (u : Fin 16) (s : State) (hs : s.Kept κ) :
    OutOk κ (execCuVspl u s) := by
  unfold execCuVspl
  repeat' first | with_reducible assumption | (intro _) | with_reducible apply OutOk.ite | with_reducible apply ok_ite | with_reducible apply State.cuRun_ok | with_reducible apply OutOk.next | fail_if_no_progress (with_reducible apply State.mk_ok) | split

theorem execCuVcmul_ok {κ : Keep} (u : Fin 16) (s : State) (hs : s.Kept κ) :
    OutOk κ (execCuVcmul u s) := by
  unfold execCuVcmul
  repeat' first | with_reducible assumption | (intro _) | with_reducible apply OutOk.ite | with_reducible apply ok_ite | with_reducible apply State.cuRun_ok | with_reducible apply OutOk.next | fail_if_no_progress (with_reducible apply State.mk_ok) | split

theorem execCuVmac_ok {κ : Keep} (u : Fin 16) (s : State) (hs : s.Kept κ) :
    OutOk κ (execCuVmac u s) := by
  unfold execCuVmac
  repeat' first | with_reducible assumption | (intro _) | with_reducible apply OutOk.ite | with_reducible apply ok_ite | with_reducible apply State.cuRun_ok | with_reducible apply OutOk.next | fail_if_no_progress (with_reducible apply State.mk_ok) | split

theorem execCuVmsu_ok {κ : Keep} (u : Fin 16) (s : State) (hs : s.Kept κ) :
    OutOk κ (execCuVmsu u s) := by
  unfold execCuVmsu
  repeat' first | with_reducible assumption | (intro _) | with_reducible apply OutOk.ite | with_reducible apply ok_ite | with_reducible apply State.cuRun_ok | with_reducible apply OutOk.next | fail_if_no_progress (with_reducible apply State.mk_ok) | split

theorem execCuVmul_ok {κ : Keep} (u : Fin 16) (s : State) (hs : s.Kept κ) :
    OutOk κ (execCuVmul u s) := by
  unfold execCuVmul
  repeat' first | with_reducible assumption | (intro _) | with_reducible apply OutOk.ite | with_reducible apply ok_ite | with_reducible apply State.cuRun_ok | with_reducible apply OutOk.next | fail_if_no_progress (with_reducible apply State.mk_ok) | split

theorem execCuVcmac_ok {κ : Keep} (u : Fin 16) (s : State) (hs : s.Kept κ) :
    OutOk κ (execCuVcmac u s) := by
  unfold execCuVcmac
  repeat' first | with_reducible assumption | (intro _) | with_reducible apply OutOk.ite | with_reducible apply ok_ite | with_reducible apply State.cuRun_ok | with_reducible apply OutOk.next | fail_if_no_progress (with_reducible apply State.mk_ok) | split

theorem execCuVcmacj_ok {κ : Keep} (u : Fin 16) (s : State) (hs : s.Kept κ) :
    OutOk κ (execCuVcmacj u s) := by
  unfold execCuVcmacj
  repeat' first | with_reducible assumption | (intro _) | with_reducible apply OutOk.ite | with_reducible apply ok_ite | with_reducible apply State.cuRun_ok | with_reducible apply OutOk.next | fail_if_no_progress (with_reducible apply State.mk_ok) | split

theorem execCuVsq_ok {κ : Keep} (u : Fin 16) (s : State) (hs : s.Kept κ) :
    OutOk κ (execCuVsq u s) := by
  unfold execCuVsq
  repeat' first | with_reducible assumption | (intro _) | with_reducible apply OutOk.ite | with_reducible apply ok_ite | with_reducible apply State.cuRun_ok | with_reducible apply OutOk.next | fail_if_no_progress (with_reducible apply State.mk_ok) | split

theorem execCuAclr_ok {κ : Keep} (u : Fin 16) (s : State) (hs : s.Kept κ) :
    OutOk κ (execCuAclr u s) := by
  unfold execCuAclr
  repeat' first | with_reducible assumption | (intro _) | with_reducible apply OutOk.ite | with_reducible apply ok_ite | with_reducible apply State.cuRun_ok | with_reducible apply OutOk.next | fail_if_no_progress (with_reducible apply State.mk_ok) | split

theorem execCuVnar_ok {κ : Keep} (u : Fin 16) (s : State) (hs : s.Kept κ) :
    OutOk κ (execCuVnar u s) := by
  unfold execCuVnar
  repeat' first | with_reducible assumption | (intro _) | with_reducible apply OutOk.ite | with_reducible apply ok_ite | with_reducible apply State.cuRun_ok | with_reducible apply OutOk.next | fail_if_no_progress (with_reducible apply State.mk_ok) | split

theorem execCuAred_ok {κ : Keep} (u : Fin 16) (s : State) (hs : s.Kept κ) :
    OutOk κ (execCuAred u s) := by
  unfold execCuAred
  repeat' first | with_reducible assumption | (intro _) | with_reducible apply OutOk.ite | with_reducible apply ok_ite | with_reducible apply State.cuRun_ok | with_reducible apply OutOk.next | fail_if_no_progress (with_reducible apply State.mk_ok) | split

theorem execCuAxh_ok {κ : Keep} (u : Fin 16) (s : State) (hs : s.Kept κ) :
    OutOk κ (execCuAxh u s) := by
  unfold execCuAxh
  repeat' first | with_reducible assumption | (intro _) | with_reducible apply OutOk.ite | with_reducible apply ok_ite | with_reducible apply State.cuRun_ok | with_reducible apply OutOk.next | fail_if_no_progress (with_reducible apply State.mk_ok) | split

theorem execCuAxl_ok {κ : Keep} (u : Fin 16) (s : State) (hs : s.Kept κ) :
    OutOk κ (execCuAxl u s) := by
  unfold execCuAxl
  repeat' first | with_reducible assumption | (intro _) | with_reducible apply OutOk.ite | with_reducible apply ok_ite | with_reducible apply State.cuRun_ok | with_reducible apply OutOk.next | fail_if_no_progress (with_reducible apply State.mk_ok) | split

theorem execCuLoop_ok {κ : Keep} (u : Fin 16) (s : State) (hs : s.Kept κ) :
    OutOk κ (execCuLoop u s) := by
  unfold execCuLoop
  repeat' first | with_reducible assumption | (intro _) | with_reducible apply OutOk.ite | with_reducible apply ok_ite | with_reducible apply State.cuRun_ok | with_reducible apply OutOk.next | fail_if_no_progress (with_reducible apply State.mk_ok) | split

end Machine
end Sys2Proof
end

