-- ==== Sys2Proof/Laws/OkAccept.lean ====
section
/-!
SUPPORT. The canonical form is kept by every operation of Machine/Accept.lean.
-/

namespace Sys2Proof
namespace Machine

theorem State.planStopCancel_ok {κ : Keep} (s : State) (o : Order) (hs : s.Kept κ) :
    State.Kept κ (State.planStopCancel s o) := by
  unfold State.planStopCancel
  repeat' first | with_reducible assumption | (intro _) | with_reducible apply ok_ite | with_reducible apply State.retireWith_ok | with_reducible apply State.retire_ok | fail_if_no_progress (with_reducible apply State.mk_ok) | split

theorem State.skewCancel_ok {κ : Keep} (s : State) (o : Order) (hs : s.Kept κ) :
    State.Kept κ (State.skewCancel s o) := by
  unfold State.skewCancel
  repeat' first | with_reducible assumption | (intro _) | with_reducible apply ok_ite | with_reducible apply State.retire_ok | with_reducible apply State.startSkew_ok | fail_if_no_progress (with_reducible apply State.mk_ok) | split

theorem State.retuneOrderCancel_ok {κ : Keep} (s : State) (o : Order) (hs : s.Kept κ) :
    State.Kept κ (State.retuneOrderCancel s o) := by
  unfold State.retuneOrderCancel
  repeat' first | with_reducible assumption | (intro _) | with_reducible apply ok_ite | extract_lets | with_reducible apply State.dropRetune_ok | fail_if_no_progress (with_reducible apply State.mk_ok) | split | dsimp +zetaDelta only

theorem cancelled_ok {κ : Keep} (o : Order) (s : State) (hs : s.Kept κ) :
    State.Kept κ (cancelled o s).2 := by
  unfold cancelled
  repeat' first | with_reducible assumption | with_reducible apply ok_ite_fst | with_reducible apply ok_ite_snd | fail_if_no_progress (with_reducible refine mk_ok_snd rfl ?_) | fail_if_no_progress (with_reducible refine mk_ok_fst rfl ?_) | fail_if_no_progress (with_reducible refine mk_ok_snd_snd rfl ?_) | (intro _) | with_reducible apply ok_ite | fail_if_no_progress (with_reducible apply State.mk_ok) | split

theorem State.cancelOrder_ok {κ : Keep} (s : State) (o : Order) (hs : s.Kept κ) :
    State.Kept κ (State.cancelOrder s o).2 := by
  unfold State.cancelOrder
  repeat' first | with_reducible assumption | with_reducible apply ok_ite_fst | with_reducible apply ok_ite_snd | fail_if_no_progress (with_reducible refine mk_ok_snd rfl ?_) | fail_if_no_progress (with_reducible refine mk_ok_fst rfl ?_) | fail_if_no_progress (with_reducible refine mk_ok_snd_snd rfl ?_) | (intro _) | with_reducible apply ok_ite | extract_lets | with_reducible apply State.retire_ok | with_reducible apply State.quiesceCancel_ok | with_reducible apply State.sgHalt_ok | with_reducible apply State.reamCancel_ok | with_reducible apply State.weirCancel_ok | with_reducible apply State.stopPlan_ok | with_reducible apply State.laneTestCancel_ok | with_reducible apply State.cutCancel_ok | with_reducible apply State.seqStopCancel_ok | with_reducible apply State.timeStepCancel_ok | with_reducible apply State.loadCancel_ok | with_reducible apply State.cancelFlight_ok | with_reducible apply State.catCancel_ok | with_reducible apply State.subCancel_ok | with_reducible apply State.nvmeCancel_ok | with_reducible apply State.fsCancel_ok | with_reducible apply State.edidCancel_ok | with_reducible apply State.modeCancel_ok | with_reducible apply State.planStopCancel_ok | with_reducible apply State.skewCancel_ok | with_reducible apply State.retuneOrderCancel_ok | with_reducible apply cancelled_ok | fail_if_no_progress (with_reducible apply State.mk_ok) | split | dsimp +zetaDelta only | with_reducible apply ok_ite_snd | with_reducible apply ok_ite_fst | with_reducible apply id_ok

theorem State.cancelCapture_ok {κ : Keep} (s : State) (number : Nat) (hs : s.Kept κ) :
    State.Kept κ (State.cancelCapture s number).2 := by
  unfold State.cancelCapture
  repeat' first | with_reducible assumption | with_reducible apply ok_ite_fst | with_reducible apply ok_ite_snd | fail_if_no_progress (with_reducible refine mk_ok_snd rfl ?_) | fail_if_no_progress (with_reducible refine mk_ok_fst rfl ?_) | fail_if_no_progress (with_reducible refine mk_ok_snd_snd rfl ?_) | (intro _) | with_reducible apply ok_ite | extract_lets | with_reducible apply State.endCapture_ok | fail_if_no_progress (with_reducible apply State.mk_ok) | split | dsimp +zetaDelta only

theorem State.cancelEnds_ok {κ : Keep} (o : Order) (r : Option Nat × State) (hr : r.2.Kept κ) :
    State.Kept κ (State.cancelEnds o r) := by
  unfold State.cancelEnds
  cases r.1 with
  | some st => exact State.retireWith_ok _ _ _ _ _ hr
  | none => exact State.retire_ok _ _ _ _ hr

theorem State.cancelFlightOrder_ok {κ : Keep} (s : State) (f : Nat) (hs : s.Kept κ) :
    State.Kept κ (State.cancelFlightOrder s f).2 := by
  unfold State.cancelFlightOrder
  repeat' first | with_reducible assumption | with_reducible apply ok_ite_fst | with_reducible apply ok_ite_snd | fail_if_no_progress (with_reducible refine mk_ok_snd rfl ?_) | fail_if_no_progress (with_reducible refine mk_ok_fst rfl ?_) | fail_if_no_progress (with_reducible refine mk_ok_snd_snd rfl ?_) | (intro _) | with_reducible apply ok_ite | extract_lets | with_reducible apply State.flightUpTo_ok | with_reducible apply State.cancelFlight_ok | fail_if_no_progress (with_reducible apply State.mk_ok) | split | dsimp +zetaDelta only

theorem State.cancelAccept_ok {κ : Keep} (o : Order) (s : State) (hs : s.Kept κ) :
    State.Kept κ (State.cancelAccept o s) := by
  unfold State.cancelAccept
  repeat' first | with_reducible assumption | (intro _) | with_reducible apply ok_ite | extract_lets | with_reducible apply State.retire_ok | with_reducible apply State.validate_ok | with_reducible apply State.cancelMove_ok | with_reducible apply State.cancelGenerator_ok | with_reducible apply State.cancelOrder_ok | with_reducible apply State.cancelCapture_ok | with_reducible apply State.cancelEnds_ok | with_reducible apply State.cancelFlightOrder_ok | fail_if_no_progress (with_reducible apply State.mk_ok) | split | dsimp +zetaDelta only

theorem execCancel_ok {κ : Keep} (s : State) (hs : s.Kept κ) :
    OutOk κ (execCancel s) := by
  unfold execCancel
  repeat' first | with_reducible assumption | (intro _) | with_reducible apply OutOk.ite | with_reducible apply ok_ite | with_reducible apply State.accept_ok | with_reducible apply State.cancelAccept_ok | with_reducible apply OutOk.next | fail_if_no_progress (with_reducible apply State.mk_ok) | split

theorem State.orderEffect_ok {κ : Keep} (o : Order) (s : State) (hs : s.Kept κ) :
    State.Kept κ (State.orderEffect o s) := by
  unfold State.orderEffect
  repeat' first | with_reducible assumption | (intro _) | with_reducible apply ok_ite | with_reducible apply State.retire_ok | with_reducible apply State.quiesceAccept_ok | with_reducible apply State.nopAccept_ok | with_reducible apply State.reamSnapshotAccept_ok | with_reducible apply State.reamClearAccept_ok | with_reducible apply State.weirLoadAccept_ok | with_reducible apply State.planLoadAccept_ok | with_reducible apply State.planStartAccept_ok | with_reducible apply State.planStopAccept_ok | with_reducible apply State.planUnloadAccept_ok | with_reducible apply State.retuneAccept_ok | with_reducible apply State.laneTestAccept_ok | with_reducible apply State.windowLoadAccept_ok | with_reducible apply State.poundCutAccept_ok | with_reducible apply State.seqLoadAccept_ok | with_reducible apply State.seqStartAccept_ok | with_reducible apply State.seqStopAccept_ok | with_reducible apply State.skewCalAccept_ok | with_reducible apply State.timeStepAccept_ok | with_reducible apply State.cuLoadAccept_ok | with_reducible apply State.cuRunAccept_ok | with_reducible apply State.cuStopAccept_ok | with_reducible apply State.flightArmAccept_ok | with_reducible apply State.probeCatLoadAccept_ok | with_reducible apply State.probeSubAccept_ok | with_reducible apply State.nvmeReadAccept_ok | with_reducible apply State.nvmeTrimAccept_ok | with_reducible apply State.fsSetAccept_ok | with_reducible apply State.dispEdidAccept_ok | with_reducible apply State.dispPaletteAccept_ok | with_reducible apply State.powerModeAccept_ok | with_reducible apply State.cancelAccept_ok | fail_if_no_progress (with_reducible apply State.mk_ok) | split

theorem State.acceptNext_ok {κ : Keep} (s : State) (o : Order) (hs : s.Kept κ) :
    State.Kept κ (State.acceptNext s o) := by
  unfold State.acceptNext
  repeat' first | with_reducible assumption | (intro _) | with_reducible apply ok_ite | with_reducible apply State.acceptOrder_ok | with_reducible apply State.orderEffect_ok | fail_if_no_progress (with_reducible apply State.mk_ok) | split

theorem execOrderAcceptance_ok {κ : Keep} (s : State) (hs : s.Kept κ) :
    OutOk κ (execOrderAcceptance s) := by
  unfold execOrderAcceptance
  repeat' first | with_reducible assumption | (intro _) | with_reducible apply OutOk.ite | with_reducible apply ok_ite | with_reducible apply State.acceptNext_ok | with_reducible apply OutOk.next | fail_if_no_progress (with_reducible apply State.mk_ok) | split

end Machine
end Sys2Proof
end

