-- ==== Sys2Proof/Laws/OkCompletion.lean ====
section
/-!
SUPPORT. The canonical form is kept by every operation of Machine/Completion.lean.
-/

namespace Sys2Proof
namespace Machine

theorem State.readProceeds_ok {κ : Keep} (s : State) (o : Order) (hs : s.Kept κ) :
    State.Kept κ (State.readProceeds s o) := by
  unfold State.readProceeds
  repeat' first | with_reducible assumption | (intro _) | with_reducible apply ok_ite | extract_lets | with_reducible apply State.weirTable_ok | with_reducible apply State.windowTable_ok | with_reducible apply State.seqTables_ok | with_reducible apply State.loadArrived_ok | with_reducible apply State.catArrived_ok | with_reducible apply State.subTable_ok | with_reducible apply State.paletteArrived_ok | fail_if_no_progress (with_reducible apply State.mk_ok) | split | dsimp +zetaDelta only

theorem State.readFails_ok {κ : Keep} (s : State) (o : Order) (hs : s.Kept κ) :
    State.Kept κ (State.readFails s o) := by
  unfold State.readFails
  repeat' first | with_reducible assumption | (intro _) | with_reducible apply ok_ite | with_reducible apply State.retireWith_ok | with_reducible apply State.retire_ok | with_reducible apply State.endWeirLoad_ok | with_reducible apply State.loadEnds_ok | fail_if_no_progress (with_reducible apply State.mk_ok) | split

theorem execCompletionReceived_ok {κ : Keep} (ring index off : Nat) (data : List Byte) (reason : Fin 5) (s : State) (hs : s.Kept κ) :
    OutOk κ (execCompletionReceived ring index off data reason s) := by
  unfold execCompletionReceived
  repeat' first | with_reducible assumption | (intro _) | with_reducible apply OutOk.ite | with_reducible apply ok_ite | extract_lets | with_reducible apply State.readDone_ok | with_reducible apply State.logAer_ok | with_reducible apply State.readProceeds_ok | with_reducible apply State.readFails_ok | with_reducible apply foldl_ok | with_reducible apply foldl_ok_fst | with_reducible apply foldl_ok_snd | with_reducible apply OutOk.next | fail_if_no_progress (with_reducible apply State.mk_ok) | split | dsimp +zetaDelta only

theorem State.fetchFails_ok {κ : Keep} (s : State) (x reason : Nat) (k : Nat) (hs : s.Kept κ) :
    State.Kept κ (State.fetchFails s x reason k) := by
  unfold State.fetchFails
  repeat' first | with_reducible assumption | (intro _) | with_reducible apply ok_ite | extract_lets | with_reducible apply State.takeEntries_ok | with_reducible apply State.endFetch_ok | fail_if_no_progress (with_reducible apply State.mk_ok) | split | dsimp +zetaDelta only | with_reducible apply ok_ite_snd | with_reducible apply ok_ite_fst | with_reducible apply id_ok

theorem State.tallyFails_ok {κ : Keep} (s : State) (hs : s.Kept κ) :
    State.Kept κ (State.tallyFails s) := by
  unfold State.tallyFails
  repeat' first | with_reducible assumption | (intro _) | with_reducible apply ok_ite | with_reducible apply State.tallyError_ok | with_reducible apply State.unpark_ok | fail_if_no_progress (with_reducible apply State.mk_ok) | split

theorem State.ownReadFails_ok {κ : Keep} (s : State) (r : ReadOf) (reason aer : Nat) (hs : s.Kept κ) :
    State.Kept κ (State.ownReadFails s r reason aer) := by
  unfold State.ownReadFails
  repeat' first | with_reducible assumption | (intro _) | with_reducible apply ok_ite | with_reducible apply State.logAer_ok | with_reducible apply State.updRing_ok | with_reducible apply State.endMove_ok | with_reducible apply State.readFails_ok | with_reducible apply State.fetchFails_ok | with_reducible apply State.tallyFails_ok | fail_if_no_progress (with_reducible apply State.mk_ok) | split

theorem execCompletionTimeout_ok {κ : Keep} (r : ReadOf) (s : State) (hs : s.Kept κ) :
    OutOk κ (execCompletionTimeout r s) := by
  unfold execCompletionTimeout
  repeat' first | with_reducible assumption | (intro _) | with_reducible apply OutOk.ite | with_reducible apply ok_ite | with_reducible apply State.ownReadFails_ok | with_reducible apply OutOk.next | fail_if_no_progress (with_reducible apply State.mk_ok) | split

theorem execPoisonedTlpReceived_ok {κ : Keep} (t : PoisonedTlp) (s : State) (hs : s.Kept κ) :
    OutOk κ (execPoisonedTlpReceived t s) := by
  unfold execPoisonedTlpReceived
  repeat' first | with_reducible assumption | (intro _) | with_reducible apply OutOk.ite | with_reducible apply ok_ite | with_reducible apply State.logAer_ok | with_reducible apply State.ownReadFails_ok | with_reducible apply OutOk.next | fail_if_no_progress (with_reducible apply State.mk_ok) | split

theorem execPowerStateChange_ok {κ : Keep} (fn : Fin 2) (d3 : Bool) (s : State) (hs : s.Kept κ) :
    OutOk κ (execPowerStateChange fn d3 s) := by
  unfold execPowerStateChange
  repeat' first | with_reducible assumption | (intro _) | with_reducible apply OutOk.ite | with_reducible apply ok_ite | extract_lets | with_reducible apply State.wakeCause_ok | with_reducible apply State.requestMode_ok | with_reducible apply OutOk.next | fail_if_no_progress (with_reducible apply State.mk_ok) | split | dsimp +zetaDelta only

end Machine
end Sys2Proof
end

