-- ==== Sys2Proof/Laws/OkGateFire.lean ====
section
/-!
SUPPORT. The canonical form is kept by every operation of Machine/GateFire.lean.
-/

namespace Sys2Proof
namespace Machine

theorem State.planGate_ok {κ : Keep} (s : State) (g t : Nat) (hs : s.Kept κ) :
    State.Kept κ (State.planGate s g t) := by
  unfold State.planGate
  repeat' first | with_reducible assumption | (intro _) | with_reducible apply ok_ite | extract_lets | with_reducible apply State.gate_ok | with_reducible apply State.updPlan_ok | with_reducible apply foldl_ok | with_reducible apply foldl_ok_fst | with_reducible apply foldl_ok_snd | fail_if_no_progress (with_reducible apply State.mk_ok) | split | dsimp +zetaDelta only

theorem State.adcGate_ok {κ : Keep} (s : State) (g t : Nat) (hs : s.Kept κ) :
    State.Kept κ (State.adcGate s g t) := by
  unfold State.adcGate
  repeat' first | with_reducible assumption | (intro _) | with_reducible apply ok_ite | extract_lets | with_reducible apply State.updAdc_ok | with_reducible apply foldl_ok | with_reducible apply foldl_ok_fst | with_reducible apply foldl_ok_snd | fail_if_no_progress (with_reducible apply State.mk_ok) | split | dsimp +zetaDelta only

theorem State.ddcGate_ok {κ : Keep} (s : State) (g t : Nat) (hs : s.Kept κ) :
    State.Kept κ (State.ddcGate s g t) := by
  unfold State.ddcGate
  repeat' first | with_reducible assumption | (intro _) | with_reducible apply ok_ite | extract_lets | with_reducible apply State.gate_ok | with_reducible apply State.updDdc_ok | with_reducible apply foldl_ok | with_reducible apply foldl_ok_fst | with_reducible apply foldl_ok_snd | fail_if_no_progress (with_reducible apply State.mk_ok) | split | dsimp +zetaDelta only

theorem State.reamsGate_ok {κ : Keep} (s : State) (g t : Nat) (hs : s.Kept κ) :
    State.Kept κ (State.reamsGate s g t) := by
  unfold State.reamsGate
  repeat' first | with_reducible assumption | (intro _) | with_reducible apply ok_ite | with_reducible apply State.reamGate_ok | with_reducible apply foldl_ok | with_reducible apply foldl_ok_fst | with_reducible apply foldl_ok_snd | fail_if_no_progress (with_reducible apply State.mk_ok) | split

theorem State.gateActs_ok {κ : Keep} (s : State) (g t : Nat) (hs : s.Kept κ) :
    State.Kept κ (State.gateActs s g t) := by
  unfold State.gateActs
  repeat' first | with_reducible assumption | (intro _) | with_reducible apply ok_ite | extract_lets | with_reducible apply State.eventOccur_ok | with_reducible apply State.sgGateFire_ok | with_reducible apply State.tdcGateStart_ok | with_reducible apply State.cuGate_ok | with_reducible apply State.cuGateRun_ok | with_reducible apply State.flightGate_ok | with_reducible apply State.swsGate_ok | with_reducible apply State.planGate_ok | with_reducible apply State.adcGate_ok | with_reducible apply State.ddcGate_ok | with_reducible apply State.reamsGate_ok | fail_if_no_progress (with_reducible apply State.mk_ok) | split | dsimp +zetaDelta only

theorem execGateFiring_ok {κ : Keep} (g : Fin 32) (s : State) (hs : s.Kept κ) :
    OutOk κ (execGateFiring g s) := by
  unfold execGateFiring
  repeat' first | with_reducible assumption | (intro _) | with_reducible apply OutOk.ite | with_reducible apply ok_ite | extract_lets | with_reducible apply State.fresh_ok | with_reducible apply State.sgGateStart_ok | with_reducible apply State.updGate_ok | with_reducible apply State.tgFired_ok | with_reducible apply State.gateActs_ok | with_reducible apply OutOk.next | fail_if_no_progress (with_reducible apply State.mk_ok) | split | dsimp +zetaDelta only

theorem execGateWake_ok {κ : Keep} (g : Fin 32) (s : State) (hs : s.Kept κ) :
    OutOk κ (execGateWake g s) := by
  unfold execGateWake
  repeat' first | with_reducible assumption | (intro _) | with_reducible apply OutOk.ite | with_reducible apply ok_ite | extract_lets | with_reducible apply State.wakeCause_ok | with_reducible apply State.updGate_ok | with_reducible apply OutOk.next | fail_if_no_progress (with_reducible apply State.mk_ok) | split | dsimp +zetaDelta only

end Machine
end Sys2Proof
end

