-- ==== Sys2Proof/Laws/OkReturn.lean ====
section
/-!
SUPPORT. The canonical form is kept by every operation of Machine/Return.lean.
-/

namespace Sys2Proof
namespace Machine

theorem State.takeHold_ok {κ : Keep} (s : State) (hs : s.Kept κ) :
    State.Kept κ (State.takeHold s) := by
  unfold State.takeHold
  repeat' first | with_reducible assumption | (intro _) | with_reducible apply ok_ite | extract_lets | with_reducible apply State.setWord_ok | with_reducible apply State.plainWrite_ok | with_reducible apply State.writeQueueCfg_ok | with_reducible apply State.regWrite_ok | with_reducible apply foldl_ok | with_reducible apply foldl_ok_fst | with_reducible apply foldl_ok_snd | fail_if_no_progress (with_reducible apply State.mk_ok) | split | dsimp +zetaDelta only | with_reducible apply ok_ite_snd | with_reducible apply ok_ite_fst | with_reducible apply id_ok

theorem State.pllsBack_ok {κ : Keep} (s : State) (hs : s.Kept κ) :
    State.Kept κ (State.pllsBack s) := by
  unfold State.pllsBack
  repeat' first | with_reducible assumption | (intro _) | with_reducible apply ok_ite | with_reducible apply State.put_ok | with_reducible apply foldl_ok | with_reducible apply foldl_ok_fst | with_reducible apply foldl_ok_snd | fail_if_no_progress (with_reducible apply State.mk_ok) | split

theorem State.refsBack_ok {κ : Keep} (s : State) (hs : s.Kept κ) :
    State.Kept κ (State.refsBack s) := by
  unfold State.refsBack
  repeat' first | with_reducible assumption | (intro _) | with_reducible apply ok_ite | with_reducible apply State.updAdc_ok | with_reducible apply State.updDac_ok | with_reducible apply foldl_ok | with_reducible apply foldl_ok_fst | with_reducible apply foldl_ok_snd | fail_if_no_progress (with_reducible apply State.mk_ok) | split

theorem State.linksBack_ok {κ : Keep} (s : State) (hs : s.Kept κ) :
    State.Kept κ (State.linksBack s) := by
  unfold State.linksBack
  repeat' first | with_reducible assumption | (intro _) | with_reducible apply ok_ite | extract_lets | with_reducible apply State.send_ok | with_reducible apply State.put_ok | with_reducible apply State.trainLane_ok | with_reducible apply State.updNvPort_ok | with_reducible apply foldl_ok | with_reducible apply foldl_ok_fst | with_reducible apply foldl_ok_snd | fail_if_no_progress (with_reducible apply State.mk_ok) | split | dsimp +zetaDelta only

theorem State.retrain_ok {κ : Keep} (s : State) (c : Nat) (hs : s.Kept κ) :
    State.Kept κ (State.retrain s c) := by
  unfold State.retrain
  repeat' first | with_reducible assumption | (intro _) | with_reducible apply ok_ite | with_reducible apply State.put_ok | with_reducible apply State.updChannel_ok | fail_if_no_progress (with_reducible apply State.mk_ok) | split

theorem State.memoryBack_ok {κ : Keep} (s : State) (sleep : Bool) (failed : List (Fin 6)) (hs : s.Kept κ) :
    State.Kept κ (State.memoryBack s sleep failed) := by
  unfold State.memoryBack
  repeat' first | with_reducible assumption | (intro _) | with_reducible apply ok_ite | extract_lets | with_reducible apply State.settleGib_ok | with_reducible apply State.beginInit_ok | with_reducible apply State.retrain_ok | with_reducible apply foldl_ok | with_reducible apply foldl_ok_fst | with_reducible apply foldl_ok_snd | fail_if_no_progress (with_reducible apply State.mk_ok) | split | dsimp +zetaDelta only

theorem State.keepersBack_ok {κ : Keep} (s : State) (hs : s.Kept κ) :
    State.Kept κ (State.keepersBack s) := by
  unfold State.keepersBack
  repeat' first | with_reducible assumption | (intro _) | with_reducible apply ok_ite | with_reducible apply State.put_ok | with_reducible apply foldl_ok | with_reducible apply foldl_ok_fst | with_reducible apply foldl_ok_snd | fail_if_no_progress (with_reducible apply State.mk_ok) | split

theorem State.headsBack_ok {κ : Keep} (s : State) (hs : s.Kept κ) :
    State.Kept κ (State.headsBack s) := by
  unfold State.headsBack
  repeat' first | with_reducible assumption | (intro _) | with_reducible apply ok_ite | with_reducible apply State.seekSink_ok | with_reducible apply foldl_ok | with_reducible apply foldl_ok_fst | with_reducible apply foldl_ok_snd | fail_if_no_progress (with_reducible apply State.mk_ok) | split

theorem State.returned_ok {κ : Keep} (s : State) (failed : List (Fin 6)) (hs : s.Kept κ) :
    State.Kept κ (State.returned s failed) := by
  unfold State.returned
  repeat' first | with_reducible assumption | (intro _) | with_reducible apply ok_ite | extract_lets | with_reducible apply State.put_ok | with_reducible apply State.settleLanes_ok | with_reducible apply State.reportLtr_ok | with_reducible apply State.takeHold_ok | with_reducible apply State.pllsBack_ok | with_reducible apply State.refsBack_ok | with_reducible apply State.linksBack_ok | with_reducible apply State.memoryBack_ok | with_reducible apply State.keepersBack_ok | with_reducible apply State.headsBack_ok | fail_if_no_progress (with_reducible apply State.mk_ok) | split | dsimp +zetaDelta only

theorem execReturnComplete_ok {κ : Keep} (failed : List (Fin 6)) (s : State) (hs : s.Kept κ) :
    OutOk κ (execReturnComplete failed s) := by
  unfold execReturnComplete
  repeat' first | with_reducible assumption | (intro _) | with_reducible apply OutOk.ite | with_reducible apply ok_ite | extract_lets | with_reducible apply State.unpark_ok | with_reducible apply State.returned_ok | with_reducible apply OutOk.next | fail_if_no_progress (with_reducible apply State.mk_ok) | split | dsimp +zetaDelta only

theorem State.probeDue_ok {κ : Keep} (s : State) (hs : s.Kept κ) :
    State.Kept κ (State.probeDue s) := by
  unfold State.probeDue
  repeat' first | with_reducible assumption | (intro _) | with_reducible apply ok_ite | with_reducible apply State.sendSub_ok | with_reducible apply State.readProceeds_ok | with_reducible apply foldl_ok | with_reducible apply foldl_ok_fst | with_reducible apply foldl_ok_snd | fail_if_no_progress (with_reducible apply State.mk_ok) | split

theorem State.dutiesDue_ok {κ : Keep} (s : State) (k : Nat) (hs : s.Kept κ) :
    State.Kept κ (State.dutiesDue s k) := by
  unfold State.dutiesDue
  repeat' first | with_reducible assumption | (intro _) | with_reducible apply ok_ite | with_reducible apply State.routesDue_ok | with_reducible apply State.stagingReads_ok | with_reducible apply State.startFsDue_ok | with_reducible apply State.pnlBegin_ok | with_reducible apply State.probeDue_ok | fail_if_no_progress (with_reducible apply State.mk_ok) | split

theorem execLkReady_ok {κ : Keep} (k : Fin 4) (s : State) (hs : s.Kept κ) :
    OutOk κ (execLkReady k s) := by
  unfold execLkReady
  repeat' first | with_reducible assumption | (intro _) | with_reducible apply OutOk.ite | with_reducible apply ok_ite | extract_lets | with_reducible apply State.lkReady_ok | with_reducible apply State.dutiesDue_ok | with_reducible apply OutOk.next | fail_if_no_progress (with_reducible apply State.mk_ok) | split | dsimp +zetaDelta only

end Machine
end Sys2Proof
end

