-- ==== Sys2Proof/Laws/Time.lean ====
section
/-!
SUPPORT. What a tick of the timekeeper and the renewal of the stamps' anchors do to the timekeeper's own state.
-/

namespace Sys2Proof
namespace Machine

/-- What a tick finds of the power mode touches the record of the mode and what is sent, nothing else. -/
theorem State.watchPower_eq (s : State) : ∃ p l, s.watchPower = { s with power := p, sent := l } := by
  unfold State.watchPower State.watchLtr State.reportLtr
  repeat' split
  all_goals exact ⟨_, _, rfl⟩

@[simp] theorem State.watchPower_tk (s : State) : s.watchPower.tk = s.tk := by
  obtain ⟨p, l, h⟩ := s.watchPower_eq
  rw [h]
@[simp] theorem State.watchPower_ticks (s : State) : s.watchPower.ticks = s.ticks := by
  obtain ⟨p, l, h⟩ := s.watchPower_eq
  rw [h]
@[simp] theorem State.watchPower_get (s : State) (f : Field) : s.watchPower.get f = s.get f := by
  obtain ⟨p, l, h⟩ := s.watchPower_eq
  rw [h]
  rfl

theorem State.reanchor_tk (s : State) (d : Int) : (s.reanchor d).tk = s.tk := by
  have h : ∀ (l : List Nat) (f : State → Nat → State), (∀ s n, (f s n).tk = s.tk) → ∀ s, (l.foldl f s).tk = s.tk := by
    intro l f hf
    induction l with
    | nil => intro s; rfl
    | cons a t ih => intro s; rw [List.foldl_cons, ih, hf]
  unfold State.reanchor
  dsimp only
  refine (h _ _ ?_ _).trans (h _ _ ?_ _) <;> intros <;> rfl

/-- R515, R516: what a tick does to a timekeeper that a new INC waits for. -/
theorem State.tick_newInc (s : State) (n : Nat) (h : s.tk.newInc = some n) (hn : n < 2 ^ 32) :
    s.tick.tk.inc = n ∧ s.tick.tk.raw = s.tk.raw + s.tk.inc ∧ s.tick.get R.TIME_RATE.INC = n := by
  obtain ⟨v, h1, h2⟩ : ∃ v : State, s.tick = State.put { v with tk := { v.tk with inc := n } } R.TIME_RATE.INC n ∧
      v.tk.raw = s.tk.raw + s.tk.inc := by
    unfold State.tick
    dsimp only
    rw [h]
    refine ⟨_, rfl, ?_⟩
    rw [State.reanchor_tk]
  rw [h1]
  exact ⟨rfl, h2, State.get_put_fits _ _ _ (by decide) (by simpa using hn)⟩

end Machine
end Sys2Proof
end

