-- ==== Sys2Proof/Machine/Flags.lean ====
section
/-!
DEFINITION. Flags. The block has no arithmetic flags. Its flags are register fields: sticky W1C bits and saturating counts, which Ops.lean
sets (`State.flagRaise`, `State.satInc`) and software clears (R4), and the predicate bits of a calender unit (CuOps.lean).
-/

namespace Sys2Proof
namespace Machine

/-- Whether a sticky flag has been set since software last cleared it. -/
def State.flagged (s : State) (f : Field) : Bool := s.on f

end Machine
end Sys2Proof
end

