-- ==== Sys2Proof/Machine/Operands.lean ====
section
/-!
DEFINITION. Operand forms. A command of the block carries its operands as they reach the device, so there are no addressing modes. The
forms that are coded in words and bytes are the fields of an order (`Order.u`, Ops.lean), the register fields (`State.get`, Ops.lean), the
fields of a descriptor (`RingEntry.u`, State.lean) and of a calender instruction (CuCore.lean). What is common to all of them stands here:
the bounds that a time given as TIME96 has (R520).
-/

namespace Sys2Proof
namespace Machine

/-- R520: a TIME96 field of an order, as an instant in 2^-16 ns; none where its NS field is out of range. -/
def Order.instant (o : Order) (off : Nat) : Option Nat := if badTime o off then none else some (ofTime96 (o.u off 12))

end Machine
end Sys2Proof
end

