-- ==== Sys2Proof/Tests/Slice0.lean ====
section
/-!
SUPPORT. The model's own tests: small facts of one command each, the checks of WellFormed.lean at work, and for each statement a state and
operands that meet its hypotheses.
-/

namespace Sys2Proof
namespace Machine

set_option Elab.async false

/-- The state `s` with these fields at these values. -/
def cfg (l : List (Field × Nat)) (s : State := State.reset) : State := l.foldl (fun s x => s.put x.1 x.2) s

/-- The instant of tick `n`. -/
def atTick (n : Nat) (s : State) : State := { s with ticks := n, tk := { s.tk with raw := n * s.tk.inc, adv := n * s.tk.inc } }

/-- Lock-keeper `k` is UP. -/
def linkLocked (k : Nat) : State := cfg [(R.LK_STATUS.STATE k, 2)]

/-- The host's link is up, the firmware ready, both functions enabled, and the host holds the token. -/
def hostReady : State :=
  { cfg [(R.GLOBAL_OWNER.HOLDER, 1)] with
    pcie := { linkUp := true, memSpace0 := true, memSpace1 := true, busMaster0 := true, busMaster1 := true }, fw := { ready := true } }

/-- The same with MGMT holding the token. -/
def mgmtReady : State := cfg [(R.GLOBAL_OWNER.HOLDER, 2)] hostReady

/-- The serial monitor runs. -/
def monReady : State := cfg [(R.MON_CFG.PRESENT, 1), (R.LK_STATUS.STATE 0, 2)]

/-- Bytes with these fields, each as (offset, length, value). -/
def filled (n : Nat) (l : List (Nat × Nat × Nat)) : List Byte :=
  l.foldl (fun bs x => bs.take x.1 ++ leBytes x.2.1 x.2.2 ++ bs.drop (x.1 + x.2.1)) (List.replicate n 0#8)

/-- An order of ring 0 with this opcode and these parameters. -/
def orderOf (op : Nat) (l : List (Nat × Nat × Nat) := []) : Order := { ring := 0, index := 0, bytes := filled 64 ((2, 2, op) :: l) }

/-- The order taken from its ring and next to be accepted. -/
def queued (o : Order) (s : State := State.reset) : State := { s with taken := [o] }

/-- The order outstanding. -/
def standing (o : Order) (s : State := State.reset) : State := { s with orders := [o] }

/-- Unit 0 RUNNING, with a bundle of these two slots next. -/
def issuing (a b : Nat) : State :=
  { cfg [(R.CU_STATUS.STATE 0, 3)] with cus := [(0, { prog := [(0, BitVec.ofNat 64 (b * 2 ^ 32 + a))] })] }

/-- A request of service `code` with tag 5 and these data words, alone in channel `ch` of a serving LK0. -/
def asking (ch code : Nat) (data : List Word := []) : State :=
  { linkLocked 0 with fw := { ready := true, mbx := [(ch, { inbox := msgHeader 0 code data.length 5 0 :: data })] } }

/-- A barge of one line of samples of DDC 0. -/
def dataBarge : Barge := { type := 1, stream := 0, source := 0x1000, payload := List.replicate 64 0#8 }

/-- A mark of that stream. -/
def markBarge : Barge := { type := 0x10, stream := 0, source := 0x1000 }

/-- A beacon of root 5. -/
def testBeacon : KxBeacon := { root := 5, entry := 0, depart := 0, inc := 0xA0000000, state := 2 }

/-- The body of an Akwaune frame of domain 0, from DEVID 9, SEQ 1. -/
def akwFrame : List Byte :=
  akwAddress 0 ++ List.replicate 6 0#8 ++ (leBytes 2 (State.reset.get R.AKW_CFG.ETYPE)).reverse ++ filled 46 [(0, 1, 1), (1, 1, 1), (4, 4, 9), (8, 4, 1)]


/-! ### The checks of well-formedness -/

/-- A barge whose STREAM does not fit its field. -/
def wideBarge : Barge := { dataBarge with stream := 65536 }

theorem test_wf_refuses_what_does_not_fit : ∀ c ∈ [Instr.registerWrite .fw 0x1000000 0, .registerWrite .fw 2 0, .barAccessViolation 0 0 true true,
      .barAccessViolation 0x3010000 4 true true, .linkTrained 3 1 false, .linkTrained 1 7 false, .lookoutPoll [(113, 0)] true,
      .entryFetched 0 (List.replicate 9 (.failed 1)), .moveDone 0 [0] 0 0, .admissionRequest 0 wideBarge .agree, .stagingDone { head := [] } true,
      .skewCalDone [] true, .returnComplete (List.replicate 7 0), .timeBeaconSend [(0, 2 ^ 32)], .monWr 2 0, .monRdB2 0x10000 1,
      .monRdB0 0 0], c.wf = false := by decide +kernel

theorem test_wf_refuses_orders_no_ring_can_hold : ∀ c ∈ [Instr.planStopDue 16 0, .cuRunDue 0 (2 ^ 32), .cuStopDue 16 0, .queueQuiesceDue 16 0,
      .subAckTimeout 16 0, .fsRelockDone 16 0 true, .completionReceived 16 0 0 [] 0, .completionTimeout (.order 16 0),
      .poisonedTlpReceived (.completion (.order 16 0)), .nvmeCommandCompletion (.trim 16 0) true,
      .writeCompletion 0 0 (2 ^ 32) true], c.wf = false := by decide +kernel

theorem test_wf_refuses_long_lists :
    (Instr.ethFrameReceived (List.replicate 1523 0) 0).wf = false ∧ (Instr.akwauneFrameReceived (List.replicate 1523 0) 0).wf = false ∧
    (Instr.completionReceived 0 0 0 (List.replicate 4097 0) 0).wf = false ∧ (Instr.kxStreamBargeArrival 0 0 dataBarge (2 ^ 96) none).wf = false ∧
    (Instr.auxTransactionDone 0 0 (some [])).wf = false ∧
    (Instr.dwellEnd 0 (List.replicate 528 ⟨0, 0, 0, 0, 0, false⟩)).wf = false := by decide +kernel

theorem test_wf_accepts_the_bounds : ∀ c ∈ [Instr.registerWrite .fw 0xFFFFFC 0, .barAccessViolation 0x300FFFF 64 true true, .linkTrained 16 6 true,
      .lookoutPoll [(112, 0)] true, .planStopDue 15 (2 ^ 32 - 1), .admissionRequest 0 dataBarge .agree, .monRdB2 0xFFFC 1], c.wf = true := by
  decide +kernel

/-! ### Worked examples of the spec -/

/-- The TIME96 example of 00_scope. -/
theorem test_time96_bytes : leBytes 12 (toTime96 (1712345678 * secUnits + nsUnits 250000125 + 0x8000)) =
    [0x00#8, 0x80#8, 0xFD#8, 0xB2#8, 0xE6#8, 0x0E#8, 0x4E#8, 0x52#8, 0x10#8, 0x66#8, 0x00#8, 0x00#8] := by decide +kernel

/-- The level and bin examples of 00_scope: −42.5 dBFS, and I = −0.25, Q = +0.125, EXP = 9, CAL = 1. -/
theorem test_level_and_bin_words : leBytes 2 (db16Word (-10880)) = [0x80#8, 0xD5#8] ∧
    cpx48 (-2 ^ 17) (2 ^ 16) 9 false true = 0x8910000E0000 := by decide +kernel

/-- The SHIFTS example after R151. -/
theorem test_shifts_field : shiftsField [0, 0, 2, 2, 2, 2] = 0x0AA0 := by decide +kernel

/-- The FORMAT word of the drained barge and the GAP's words in the examples of 10_stream_formats. -/
theorem test_format_and_gap_words : formatWord 3 0 false 16000 0 = 0x3E800003 ∧
    gapWords 4 6 66 (some (nsUnits 4288)) = (0x10C00000, 0x4200000604) := by decide +kernel

/-- The request and reply headers of the LOG_READ example of 20_firmware_mailboxes. -/
theorem test_message_headers : msgHeader 0 0x08 1 0x22 0 = 0x00801220#32 ∧ msgHeader 1 0x01 4 0x21 0 = 0x10104210#32 := by decide +kernel

/-- The write of FL_CH_TMO(7, 1) by an agent that does not hold the token, of 24_register_map. -/
theorem test_unowned_write : R.FL_CH_TMO 7 1 = 0x62768 ∧
    ∃ t, exec (.registerWrite .pf0 0x62768 0x1388) mgmtReady = .next t ∧ t.regs.word R.GLOBAL_OWNVIOL = 0x11062768#32 ∧
      t.regs.word (R.FL_CH_TMO 7 1) = mgmtReady.regs.word (R.FL_CH_TMO 7 1) := ⟨by decide +kernel, _, rfl, by decide +kernel, by decide +kernel⟩

/-- The loop body of the START handler of 08_calender_units: VLD V0, 0(X1)+ in H16 beside VSQ AC0, V0. -/
theorem test_bundle_of_the_example : hasA 0x1A 0x5400000068050000 = true ∧ hasB 0x15 0x5400000068050000 = true ∧
    (CuSlot.mk 2 1 0x104 0x68050000).xa = 1 ∧ (CuSlot.mk 2 1 0x104 0x68050000).q18 = false := by decide +kernel

/-- ORI X3, X3, 0xF5C of that handler: 10 × 2^14 becomes 167,772. -/
theorem test_ori_of_the_example :
    ∃ t, exec (.cuOri 0) { issuing (0x12 * 2 ^ 26 + 3 * 2 ^ 22 + 3 * 2 ^ 18 + 0xF5C) 0 with
        cus := [(0, { prog := [(0, BitVec.ofNat 64 (0x12 * 2 ^ 26 + 3 * 2 ^ 22 + 3 * 2 ^ 18 + 0xF5C))], b0 := { x := [(3, 163840)] } })] } = .next t ∧
      (t.bank 0 0).xr 3 = 167772#32 := ⟨_, rfl, by decide +kernel⟩

/-! ### States and operands that meet the statements' hypotheses -/

theorem test_planOrdersAct :
    (∃ (s : State) (o : Order), NextOrder s o 0x0000 ∧ firstInvalid (nopChecks o) = none) ∧
    (∃ (s : State) (o : Order), NextOrder s o 0x0101 ∧ firstInvalid ((outstanding s o).planLoadChecks o) = none ∧
      s.planState (o.u 16 1) < 2) ∧
    (∃ (s : State) (o : Order), NextOrder s o 0x0102 ∧ firstInvalid (planStartChecks o) = none ∧ s.planState (o.u 16 1) = 1 ∧
      (outstanding s o).consumersReady (o.u 16 1) = true ∧ (outstanding s o).sourceEnabled ((s.plan (o.u 16 1)).sourceId) = true ∧
      (outstanding s o).lanesNeeded (o.u 16 1) ≤ ((outstanding s o).freeLanes.filter (fun l => !(outstanding s o).spares.contains l)).length) ∧
    (∃ (s : State) (o : Order), NextOrder s o 0x0103 ∧ firstInvalid (planStopChecks o) = none ∧ 2 ≤ s.planState (o.u 16 1) ∧
      o.u 17 1 = 0) ∧
    (∃ (s : State) (o : Order), NextOrder s o 0x0103 ∧ firstInvalid (planStopChecks o) = none ∧ 2 ≤ s.planState (o.u 16 1) ∧
      o.u 17 1 = 1 ∧ s.time < ofTime96 (o.u 20 12)) ∧
    (∃ (s : State) (o : Order), NextOrder s o 0x0104 ∧ firstInvalid (planUnloadChecks o) = none ∧ s.planState (o.u 16 1) = 1) ∧
    (∃ (s : State) (o : Order), NextOrder s o 0x0201 ∧ firstInvalid (retuneChecks o) = none ∧ o.u 17 1 = 0 ∧
      s.on (R.DDC_CTL.EN (o.u 16 1)) = true ∧ s.on (R.DDC_STATUS.LIST_RUN (o.u 16 1)) = false) ∧
    (∃ (s : State) (o : Order), NextOrder s o 0x0301 ∧ firstInvalid (windowLoadChecks o) = none ∧ s.windowInUse (o.u 16 1) = false) ∧
    (∃ (s : State) (o : Order), NextOrder s o 0x0302 ∧ firstInvalid (laneTestChecks o) = none ∧ s.laneAssigned (o.u 16 1) = false ∧
      (s.lane (o.u 16 1)).testRef = none) ∧
    (∃ (s : State) (o : Order), s.next? = some o) :=
  ⟨⟨queued (orderOf 0x0000), orderOf 0x0000, by unfold NextOrder; decide +kernel, by decide +kernel⟩,
   ⟨queued (orderOf 0x0101 [(16, 1, 0), (19, 1, 1), (20, 1, 10), (22, 2, 128)]), orderOf 0x0101 [(16, 1, 0), (19, 1, 1), (20, 1,
      10), (22, 2, 128)], by unfold NextOrder; decide +kernel, by decide +kernel, by decide +kernel⟩,
   ⟨queued (orderOf 0x0102) ({ cfg [(R.PLAN_STATUS.STATE 0, 1), (R.DDC_CTL.EN 0, 1), (R.ADC_STATUS.STATE 0, 4)] with plans := [(0, { bytes := filled 64 [(19, 1, 1), (20, 1, 10), (22, 2, 128)] })] }),
      orderOf 0x0102, by unfold NextOrder; decide +kernel, by decide +kernel, by decide +kernel, by decide +kernel,
      by decide +kernel, by decide +kernel⟩,
   ⟨queued (orderOf 0x0103) ({ cfg [(R.PLAN_STATUS.STATE 0, 3), (R.DDC_CTL.EN 0, 1), (R.ADC_STATUS.STATE 0, 4)] with plans := [(0, { bytes := filled 64 [(19, 1, 1), (20, 1, 10), (22, 2, 128)] })] }),
      orderOf 0x0103, by unfold NextOrder; decide +kernel, by decide +kernel, by decide +kernel, by decide +kernel⟩,
   ⟨queued (orderOf 0x0103 [(17, 1, 1), (20, 8, 1)]) ({ cfg [(R.PLAN_STATUS.STATE 0, 3), (R.DDC_CTL.EN 0, 1), (R.ADC_STATUS.STATE 0, 4)] with plans := [(0, { bytes := filled 64 [(19, 1, 1), (20, 1, 10), (22, 2, 128)] })] }),
      orderOf 0x0103 [(17, 1, 1), (20, 8, 1)], by unfold NextOrder; decide +kernel, by decide +kernel, by decide +kernel,
      by decide +kernel, by decide +kernel⟩,
   ⟨queued (orderOf 0x0104) ({ cfg [(R.PLAN_STATUS.STATE 0, 1), (R.DDC_CTL.EN 0, 1), (R.ADC_STATUS.STATE 0, 4)] with plans := [(0, { bytes := filled 64 [(19, 1, 1), (20, 1, 10), (22, 2, 128)] })] }),
      orderOf 0x0104, by unfold NextOrder; decide +kernel, by decide +kernel, by decide +kernel⟩,
   ⟨queued (orderOf 0x0201 [(16, 1, 7)]) (cfg [(R.DDC_CTL.EN 7, 1)]), orderOf 0x0201 [(16, 1, 7)],
      by unfold NextOrder; decide +kernel, by decide +kernel, by decide +kernel, by decide +kernel, by decide +kernel⟩,
   ⟨queued (orderOf 0x0301 [(16, 1, 3), (17, 1, 16)]), orderOf 0x0301 [(16, 1, 3), (17, 1, 16)],
      by unfold NextOrder; decide +kernel, by decide +kernel, by decide +kernel⟩,
   ⟨queued (orderOf 0x0302 [(16, 1, 17)]), orderOf 0x0302 [(16, 1, 17)], by unfold NextOrder; decide +kernel, by decide +kernel,
      by decide +kernel, by decide +kernel⟩,
   ⟨queued (orderOf 0x0000), orderOf 0x0000, by decide +kernel⟩⟩

theorem test_flightAndStreamOrdersAct :
    (∃ (s : State) (o x : Order), NextOrder s o 0x0001 ∧ firstInvalid (cancelChecks o) = none ∧ o.u 16 1 = 0 ∧
      (outstanding s o).order? (o.u 17 1, o.u 20 4) = some x ∧ x.tag = o.u 24 4 ∧ x.phase ≠ .cancelling ∧ 2 ≤ x.opcode) ∧
    (∃ (s : State) (o : Order), NextOrder s o 0x0401 ∧ firstInvalid (reamSnapshotChecks o) = none ∧
      s.on (R.REAM_CFG.EN (o.u 16 1)) = true ∧ o.u 17 1 = 0) ∧
    (∃ (s : State) (o : Order), NextOrder s o 0x0402 ∧ firstInvalid (reamClearChecks o) = none ∧
      s.on (R.REAM_CFG.EN (o.u 16 1)) = true ∧ o.u 17 1 = 0) ∧
    (∃ (s : State) (o : Order), NextOrder s o 0x0501 ∧ firstInvalid (weirChecks o) = none) ∧
    (∃ (s : State) (o : Order), NextOrder s o 0x0502 ∧ firstInvalid (flightArmChecks o) = none ∧ o.u 17 1 = 0 ∧
      s.flState (o.u 16 1) = 0 ∧ s.flightOk (o.u 16 1) = true) ∧
    (∃ (s : State) (o : Order), NextOrder s o 0x0801 ∧ firstInvalid (quiesceChecks o) = none ∧ o.u 18 1 = 0) ∧
    (∃ (s : State) (o : Order), NextOrder s o 0x0801 ∧ firstInvalid (quiesceChecks o) = none ∧ o.u 18 1 = 1 ∧
      s.time < ofTime96 (o.u 20 12)) ∧
    (∃ (s : State) (o : Order), NextOrder s o 0x0701 ∧ firstInvalid (poundCutChecks o) = none ∧ s.poundState (o.u 16 1) = 2 ∧
      s.on (R.POUND_CFG.KIND (o.u 16 1)) = false) :=
  ⟨⟨standing (orderOf 0x0302 [(4, 4, 7)]) (queued { orderOf 0x0001 [(24, 4, 7)] with index := 1 }),
      { orderOf 0x0001 [(24, 4, 7)] with index := 1 }, orderOf 0x0302 [(4, 4, 7)], by unfold NextOrder; decide +kernel,
      by decide +kernel, by decide +kernel, by decide +kernel, by decide +kernel, by decide +kernel, by decide +kernel⟩,
   ⟨queued (orderOf 0x0401 [(16, 1, 7), (32, 2, 4095)]) (cfg [(R.REAM_CFG.EN 7, 1)]), orderOf 0x0401 [(16, 1, 7), (32, 2, 4095)],
      by unfold NextOrder; decide +kernel, by decide +kernel, by decide +kernel, by decide +kernel⟩,
   ⟨queued (orderOf 0x0402 [(16, 1, 7)]) (cfg [(R.REAM_CFG.EN 7, 1)]), orderOf 0x0402 [(16, 1, 7)],
      by unfold NextOrder; decide +kernel, by decide +kernel, by decide +kernel, by decide +kernel⟩,
   ⟨queued (orderOf 0x0501 [(16, 1, 63), (17, 1, 1), (20, 2, 1024)]), orderOf 0x0501 [(16, 1, 63), (17, 1, 1), (20, 2, 1024)],
      by unfold NextOrder; decide +kernel, by decide +kernel⟩,
   ⟨queued (orderOf 0x0502 [(16, 1, 15)]) (cfg [(R.FL_CH_SRC.SRC 15 0, 0xF0)]), orderOf 0x0502 [(16, 1, 15)],
      by unfold NextOrder; decide +kernel, by decide +kernel, by decide +kernel, by decide +kernel, by decide +kernel⟩,
   ⟨queued (orderOf 0x0801 [(16, 2, 4095)]), orderOf 0x0801 [(16, 2, 4095)], by unfold NextOrder; decide +kernel, by decide +kernel,
      by decide +kernel⟩,
   ⟨queued (orderOf 0x0801 [(16, 2, 4095), (18, 1, 1), (20, 8, 1)]), orderOf 0x0801 [(16, 2, 4095), (18, 1, 1), (20, 8, 1)],
      by unfold NextOrder; decide +kernel, by decide +kernel, by decide +kernel, by decide +kernel⟩,
   ⟨queued (orderOf 0x0701 [(16, 1, 63), (32, 12, 1048576), (44, 2, 4095)]) (cfg [(R.POUND_STATUS.STATE 63, 2)]),
      orderOf 0x0701 [(16, 1, 63), (32, 12, 1048576), (44, 2, 4095)], by unfold NextOrder; decide +kernel, by decide +kernel,
      by decide +kernel, by decide +kernel⟩⟩

theorem test_unitAndDriveOrdersAct :
    (∃ (s : State) (o : Order), NextOrder s o 0x0601 ∧ firstInvalid (cuLoadChecks o) = none ∧ bit (o.u 17 1) 0 = true ∧
      (s.cuState (o.u 16 1) = 2 ∨ s.cuState (o.u 16 1) = 6)) ∧
    (∃ (s : State) (o : Order), NextOrder s o 0x0602 ∧ firstInvalid (cuRunChecks o) = none ∧ o.u 17 1 = 0 ∧
      (s.cuState (o.u 16 1) = 2 ∨ s.cuState (o.u 16 1) = 6)) ∧
    (∃ (s : State) (o : Order), NextOrder s o 0x0603 ∧ firstInvalid (cuStopChecks o) = none ∧ o.u 17 1 = 0) ∧
    (∃ (s : State) (o : Order), NextOrder s o 0x0901 ∧ firstInvalid ((outstanding s o).nvReadChecks o) = none ∧ o.u 16 1 = 0 ∧
      s.slotReady (o.u 17 1) = true ∧ o.u 20 8 + o.u 28 4 ≤ s.slotCap (o.u 17 1)) ∧
    (∃ (s : State) (o : Order), NextOrder s o 0x0902 ∧ firstInvalid (nvmeTrimChecks o) = none ∧ s.slotReady (o.u 16 1) = true ∧
      s.memberOf (o.u 16 1) = false ∧ o.u 20 8 + o.u 32 8 ≤ s.slotCap (o.u 16 1)) :=
  ⟨⟨queued (orderOf 0x0601 [(16, 1, 15), (17, 1, 1), (24, 4, 8)]) (cfg [(R.CU_STATUS.STATE 15, 6)]), orderOf 0x0601 [(16, 1, 15),
      (17, 1, 1), (24, 4, 8)], by unfold NextOrder; decide +kernel, by decide +kernel, by decide +kernel, by decide +kernel⟩,
   ⟨queued (orderOf 0x0602 [(16, 1, 15)]) (cfg [(R.CU_STATUS.STATE 15, 2)]), orderOf 0x0602 [(16, 1, 15)],
      by unfold NextOrder; decide +kernel, by decide +kernel, by decide +kernel, by decide +kernel⟩,
   ⟨queued (orderOf 0x0603 [(16, 1, 15)]), orderOf 0x0603 [(16, 1, 15)], by unfold NextOrder; decide +kernel, by decide +kernel,
      by decide +kernel⟩,
   ⟨queued (orderOf 0x0901 [(17, 1, 7), (28, 4, 1)]) (cfg [(R.NVME_SLOT.STATE 7, 1), (R.NVME_SLOT_CAP_LO.LBAS_LO 7, 1)]),
      orderOf 0x0901 [(17, 1, 7), (28, 4, 1)], by unfold NextOrder; decide +kernel, by decide +kernel, by decide +kernel,
      by decide +kernel, by decide +kernel⟩,
   ⟨queued (orderOf 0x0902 [(16, 1, 7), (32, 8, 1)]) (cfg [(R.NVME_SLOT.STATE 7, 1), (R.NVME_SLOT_CAP_LO.LBAS_LO 7, 1)]),
      orderOf 0x0902 [(16, 1, 7), (32, 8, 1)], by unfold NextOrder; decide +kernel, by decide +kernel, by decide +kernel,
      by decide +kernel, by decide +kernel⟩⟩

theorem test_generatorAndProbeOrdersAct :
    (∃ (s : State) (o : Order), NextOrder s o 0x0A01 ∧ firstInvalid (seqLoadChecks o) = none ∧ s.sgBusy (o.u 16 1) = false) ∧
    (∃ (s : State) (o : Order), NextOrder s o 0x0A02 ∧ firstInvalid (seqStartChecks o) = none ∧ s.startRefused (o.u 16 1) = false ∧
      o.u 19 1 = 0) ∧
    (∃ (s : State) (o : Order), NextOrder s o 0x0A03 ∧ firstInvalid (seqStopChecks o) = none ∧ 2 ≤ s.sgState (o.u 16 1) ∧
      o.u 17 1 = 0) ∧
    (∃ (s : State) (o : Order), NextOrder s o 0x0A04 ∧ firstInvalid (skewCalChecks o) = none ∧ ((∀ g, g < 4 →
      (bit (o.u 16 1) g = true ∨ o.u 17 1 = g) → s.skewReady g = true))) ∧
    (∃ (s : State) (o : Order), NextOrder s o 0x0B01 ∧ firstInvalid (probeCatLoadChecks o) = none ∧
      s.netsLive (o.u 16 4) (o.u 20 4) = false) ∧
    (∃ (s : State) (o : Order), NextOrder s o 0x0B02 ∧ firstInvalid ((outstanding s o).probeSubChecks o) = none ∧ o.u 20 4 ≠ 0) :=
  ⟨⟨queued (orderOf 0x0A01 [(16, 1, 3), (20, 4, 1), (24, 2, 1)]) (cfg [(R.SG_CFG.EN 3, 1), (R.SG_STATUS.STATE 3, 1)]),
      orderOf 0x0A01 [(16, 1, 3), (20, 4, 1), (24, 2, 1)], by unfold NextOrder; decide +kernel, by decide +kernel, by decide +kernel⟩,
   ⟨queued (orderOf 0x0A02 [(16, 1, 3)]) (cfg [(R.SG_STATUS.STATE 3, 1), (R.ADC_STATUS.CNT_VALID 2, 1), (R.DAC_STATUS.STATE 3, 2)]),
      orderOf 0x0A02 [(16, 1, 3)], by unfold NextOrder; decide +kernel, by decide +kernel, by decide +kernel, by decide +kernel⟩,
   ⟨queued (orderOf 0x0A03 [(16, 1, 7)]) (cfg [(R.SG_STATUS.STATE 7, 4)]), orderOf 0x0A03 [(16, 1, 7)],
      by unfold NextOrder; decide +kernel, by decide +kernel, by decide +kernel, by decide +kernel⟩,
   ⟨queued (orderOf 0x0A04 [(16, 1, 8)]) (cfg [(R.DAC_STATUS.STATE 0, 2), (R.DAC_STATUS.STATE 3, 2)]), orderOf 0x0A04 [(16, 1, 8)],
      by unfold NextOrder; decide +kernel, by decide +kernel, by decide +kernel⟩,
   ⟨queued (orderOf 0x0B01 [(16, 4, 1048575), (20, 4, 1)]), orderOf 0x0B01 [(16, 4, 1048575), (20, 4, 1)],
      by unfold NextOrder; decide +kernel, by decide +kernel, by decide +kernel⟩,
   ⟨queued (orderOf 0x0B02 [(18, 1, 4), (20, 4, 65536)]) (cfg [(R.PROBE_GROUPS.QW, 8)]), orderOf 0x0B02 [(18, 1, 4), (20, 4,
      65536)], by unfold NextOrder; decide +kernel, by decide +kernel, by decide +kernel⟩⟩

theorem test_timePowerAndDisplayOrdersAct :
    (∃ (s : State) (o : Order), NextOrder s o 0x0D01 ∧ firstInvalid (timeStepChecks o) = none ∧ o.u 16 1 = 0 ∧ s.follows = false ∧
      0 ≤ (s.stepTime : Int) + s.stepOf o ∧ (s.stepTime : Int) + s.stepOf o < timeLimit ∧
      (s.stepOf o).natAbs ≤ nsUnits (s.get R.TIME_JUMP.JUMP_MAX)) ∧
    (∃ (s : State) (o : Order), NextOrder s o 0x0E01 ∧ firstInvalid (powerModeChecks o) = none ∧ o.u 17 1 = 0 ∧
      s.orders.find? (fun o => o.opcode == 0x0E01 && o.phase == .pending && decide (ofTime96 (o.u 20 12) ≤ s.time)) = none) ∧
    (∃ (s : State) (o : Order), NextOrder s o 0x0E02 ∧ firstInvalid (fsSetChecks o) = none ∧
      (outstanding s o).fsRefused (o.u 16 1) = false) ∧
    (∃ (s : State) (o : Order), NextOrder s o 0x0F01 ∧ firstInvalid (dispEdidChecks o) = none ∧ 2 ≤ s.headState (o.u 16 1)) ∧
    (∃ (s : State) (o : Order), NextOrder s o 0x0F02 ∧ (firstInvalid (dispPaletteChecks o) = none)) :=
  ⟨⟨queued (orderOf 0x0D01 [(20, 8, 1)]) (cfg [(R.TIME_JUMP.JUMP_MAX, 1)]), orderOf 0x0D01 [(20, 8, 1)],
      by unfold NextOrder; decide +kernel, by decide +kernel, by decide +kernel, by decide +kernel, by decide +kernel,
      by decide +kernel, by decide +kernel⟩,
   ⟨queued (orderOf 0x0E01 [(16, 1, 2)]), orderOf 0x0E01 [(16, 1, 2)], by unfold NextOrder; decide +kernel, by decide +kernel,
      by decide +kernel, by decide +kernel⟩,
   ⟨queued (orderOf 0x0E02 [(16, 1, 1), (20, 2, 8000)]), orderOf 0x0E02 [(16, 1, 1), (20, 2, 8000)],
      by unfold NextOrder; decide +kernel, by decide +kernel, by decide +kernel⟩,
   ⟨queued (orderOf 0x0F01 [(16, 1, 1), (17, 1, 248), (18, 1, 8)]) (cfg [(R.DISP_STATUS.STATE 1, 2)]), orderOf 0x0F01 [(16, 1, 1),
      (17, 1, 248), (18, 1, 8)], by unfold NextOrder; decide +kernel, by decide +kernel, by decide +kernel⟩,
   ⟨queued (orderOf 0x0F02 [(16, 1, 1)]), orderOf 0x0F02 [(16, 1, 1)], by unfold NextOrder; decide +kernel, by decide +kernel⟩⟩

theorem test_queueCommandsAct :
    (∃ (s : State) (q : Fin 4096) (b : Barge), s.qstate q = qActive ∧ s.dropNewest q = false ∧ b.isMark = false ∧
      s.waitQ.any (fun x => x.1 == q.val && x.2.stream == b.stream) = false ∧
      s.markStore.any (fun m => m.queue == q.val && sameProducer m.barge b) = false ∧ s.dataFits q b.cells = true) ∧
    (∃ (s : State) (cell : Fin 131072) (q : Fin 4096) (epoch : Fin 4) (a : FreeAgent) (tag : CellTag),
      SMap.find? s.cells cell = some tag ∧ tag.queue = q ∧ tag.epoch = epoch ∧ s.mayFree tag a = true) ∧
    (∃ (s : State) (cell : Fin 131072) (q : Fin 4096) (epoch : Fin 4) (a : FreeAgent), SMap.find? s.cells cell = none) ∧
    (∃ (s : State) (p : Path) (q : Nat) (w : Word), Writable s p 0x90014 ∧ s.get R.QUEUE_SEL.QUEUE = q ∧
      bits w.toNat 1 1 = s.get (R.QUEUE_CFG.MODE q) ∧ bits w.toNat 2 4 = s.get (R.QUEUE_CFG.THRESH q) ∧ bit w.toNat 0 = true ∧
      s.on (R.QUEUE_CFG.EN q) = false ∧ s.qstate q = qOff) ∧
    (∃ (s : State) (p : Path) (q : Nat) (w : Word), Writable s p 0x90014 ∧ s.get R.QUEUE_SEL.QUEUE = q ∧
      bits w.toNat 1 1 = s.get (R.QUEUE_CFG.MODE q) ∧ bits w.toNat 2 4 = s.get (R.QUEUE_CFG.THRESH q) ∧ bit w.toNat 0 = false ∧
      s.on (R.QUEUE_CFG.EN q) = true) ∧
    (∃ (s : State) (q : Fin 4096), s.dropNewest q = false ∧ s.reclaimable q = true) ∧
    (∃ (s : State) (q : Fin 4096), s.qstate q = qRebuild ∧ s.lkUp 1 = true ∧ s.on (R.QUEUE_CFG.EN q) = true) ∧
    (∃ (s : State) (ring index : Nat) (o : Order), s.order? (ring, index) = some o ∧ o.opcode = 0x0801 ∧ o.phase = .pending ∧
      ofTime96 (o.u 20 12) ≤ s.time) :=
  ⟨⟨cfg [(R.QUEUE_STAT.STATE 4095, 1), (R.QUEUE_CFG.LIMIT 4095, 1), (R.QUEUE_STAT.CONSUMER 4095, 1)], 4095, dataBarge,
      by decide +kernel, by decide +kernel, by decide +kernel, by decide +kernel, by decide +kernel, by decide +kernel⟩,
   ⟨{ cfg [(R.QUEUE_STAT.CONSUMER 5, 1)] with cells := [(131071, { queue := 5, epoch := 3 })] }, 131071, 5, 3, .consumer,
      { queue := 5, epoch := 3 }, by decide +kernel, by decide +kernel, by decide +kernel, by decide +kernel⟩,
   ⟨State.reset, 0, 0, 0, .consumer, by decide +kernel⟩,
   ⟨cfg [(R.QUEUE_CFG.THRESH 0, 0)] hostReady, .pf0, 0, 0x101#32, by unfold Writable; decide +kernel, by decide +kernel,
      by decide +kernel, by decide +kernel, by decide +kernel, by decide +kernel, by decide +kernel⟩,
   ⟨cfg [(R.QUEUE_CFG.THRESH 0, 0), (R.QUEUE_CFG.EN 0, 1)] hostReady, .pf0, 0, 0x100#32, by unfold Writable; decide +kernel,
      by decide +kernel, by decide +kernel, by decide +kernel, by decide +kernel, by decide +kernel⟩,
   ⟨cfg [(R.QUEUE_STAT.STATE 4095, 2)], 4095, by decide +kernel, by decide +kernel⟩,
   ⟨cfg [(R.QUEUE_STAT.STATE 1, 3), (R.QUEUE_CFG.EN 1, 1)] (linkLocked 1), 1, by decide +kernel, by decide +kernel, by decide +kernel⟩,
   ⟨standing (orderOf 0x0801 [(18, 1, 1)]), 0, 0, orderOf 0x0801 [(18, 1, 1)], by decide +kernel, by decide +kernel,
      by decide +kernel, by decide +kernel⟩⟩

theorem test_ringCommandsAct :
    (∃ (s : State) (tails : List (Nat × Word)), s.lookoutRuns = true ∧
      (s.lookout.pollNow = true ∨ s.lookout.lastPoll + s.lookoutPeriod ≤ s.ns)) ∧
    (∃ (s : State) (x : Fin 114) (es : List FetchResult) (i k : Nat) (t : Bool × State), (s.ring x).fetch = some (i, k) ∧
      (s.endFetch x i k).on (ringEN x) = true ∧ t = (s.endFetch x i k).takeEntries x (s.ring x).fetchPoll (es.take k) ∧ x ≠ 113) ∧
    (∃ (s : State) (x : Fin 114) (es : List FetchResult) (i k : Nat) (t : Bool × State), (s.ring x).fetch = some (i, k) ∧
      (s.endFetch x i k).on (ringEN x) = true ∧ t = (s.endFetch x i k).takeEntries x (s.ring x).fetchPoll (es.take k) ∧ x = 113 ∧
      t.1 = true ∧ ringDist (t.2.ring 113).tail (t.2.ringHead 113) ≠ 0) ∧
    (∃ (s : State) (x : Fin 114) (es : List FetchResult) (i k : Nat) (t : Bool × State), (s.ring x).fetch = some (i, k) ∧
      (s.endFetch x i k).on (ringEN x) = true ∧ t = (s.endFetch x i k).takeEntries x (s.ring x).fetchPoll (es.take k) ∧ x = 113 ∧
      t.1 = false) ∧
    (∃ (s : State), s.lookoutRuns = true ∧ s.on R.RING_CTL.PARK_EN = true ∧
      s.lookout.lastFound + 1000 * max 1 (s.get R.RING_PARK.PARK_AFTER) ≤ s.ns) ∧
    (∃ (s : State) (tails : List (Nat × Word)), s.lookout.finalPoll = true ∧ (s.pollResult tails).1 = false) ∧
    (∃ (s : State) (x : Fin 64) (b : QBarge), s.on (R.RING_CFG.EN (x + 16)) = true ∧ s.upstream (x + 16) = true ∧
      s.ringTurn (x + 16) = true ∧ (s.ring (x + 16)).after = [] ∧ s.frontBarge? (s.get (R.RING_SRC.QUEUE (x + 16))) = some b ∧
      (s.deliver (x + 16) b.barge).1 = true) ∧
    (∃ (s : State) (x : Fin 64) (b : QBarge), s.on (R.RING_CFG.EN (x + 16)) = true ∧ s.upstream (x + 16) = true ∧
      s.ringTurn (x + 16) = true ∧ (s.ring (x + 16)).after = [] ∧ s.frontBarge? (s.get (R.RING_SRC.QUEUE (x + 16))) = some b ∧
      (s.deliver (x + 16) b.barge).1 = false) ∧
    (∃ (s : State) (x : Fin 64) (m : Barge) (t : List Barge) (bad : List (Nat × Nat)), s.on (R.RING_CFG.EN (x + 16)) = true ∧
      s.upstream (x + 16) = true ∧ s.ringTurn (x + 16) = true ∧ (s.ring (x + 16)).after = m :: t ∧ (s.deliver (x + 16) m).1 = true) ∧
    (∃ (s : State) (x : Fin 64) (m : Barge) (t : List Barge) (bad : List (Nat × Nat)), s.on (R.RING_CFG.EN (x + 16)) = true ∧
      s.upstream (x + 16) = true ∧ s.ringTurn (x + 16) = true ∧ (s.ring (x + 16)).after = m :: t ∧ (s.deliver (x + 16) m).1 = false) ∧
    (∃ (s : State) (x : Fin 64) (o : OpenBuf), (s.ring (x + 16)).buf = some o ∧ o.flushUs ≠ 0 ∧ o.barges ≠ 0 ∧
      o.firstAt + 1000 * o.flushUs ≤ s.ns) ∧
    (∃ (s : State) (p : Path) (x : Fin 64) (o : OpenBuf), Writable s p (R.RING_CFG (x + 16)) ∧ (s.ring (x + 16)).buf = some o ∧
      o.barges ≠ 0) ∧
    (∃ (s : State) (p : Path) (x : Fin 114) (k : Fin 32), Writable s p (ringCfgKey x) ∧ s.on (ringEN x) = false ∧
      s.on (ringBUSY x) = false ∧ 4 ≤ k.val ∧ k.val ≤ 16 ∧ isStreamRing x = false) ∧
    (∃ (s : State) (p : Path) (x : Fin 114) (k : Fin 32), Writable s p (ringCfgKey x) ∧ s.on (ringEN x) = true ∧
      s.get (ringLOG2 x) = k) ∧
    (∃ (s : State) (tail : Word), Writable s .mgmt R.ER1_TAIL ∧ s.on R.ER1_CFG.EN = true) ∧
    (∃ (s : State) (tail : Word), Writable s .mgmt R.ER1_TAIL ∧ s.on R.ER1_CFG.EN = false) :=
  ⟨⟨atTick 250 (cfg [(R.RING_CTL.LOOKOUT_EN, 1)] hostReady), [], by decide +kernel, by decide +kernel⟩,
   ⟨{ cfg [(R.RING_CFG.EN 112, 1)] hostReady with rings := [(112, { fetch := some (7, 2) })] }, 112, [], 7, 2, _, by decide +kernel,
      by decide +kernel, rfl, by decide +kernel⟩,
   ⟨{ cfg [(ringEN 113, 1)] hostReady with rings := [(113, { tail := 5, fetch := some (0, 2) })] }, 113, [], 0, 2, _,
      by decide +kernel, by decide +kernel, rfl, by decide +kernel, by decide +kernel, by decide +kernel⟩,
   ⟨{ cfg [(ringEN 113, 1)] hostReady with rings := [(113, { tail := 5, fetch := some (0, 2) })] }, 113, [.entry (filled 32 [])], 0,
      2, _, by decide +kernel, by decide +kernel, rfl, by decide +kernel, by decide +kernel⟩,
   ⟨atTick 25 (cfg [(R.RING_CTL.LOOKOUT_EN, 1), (R.RING_CTL.PARK_EN, 1), (R.RING_PARK.PARK_AFTER, 1)] hostReady), by decide +kernel,
      by decide +kernel, by decide +kernel⟩,
   ⟨{ hostReady with lookout := { finalPoll := true } }, [], by decide +kernel, by decide +kernel⟩,
   ⟨{ cfg [(R.RING_CFG.EN 16, 1), (R.RING_SRC.QUEUE 16, 9), (R.QUEUE_STAT.STATE 9, 1)] hostReady with queues := [(9, { barges := [{ barge := dataBarge, cells := [], total := 0 }] })], rings := [(16, { buf := some { entry := { index := 0, bytes := filled 64 [(4, 4, 4096)] } } })] },
      0, { barge := dataBarge, cells := [], total := 0 }, by decide +kernel, by decide +kernel, by decide +kernel,
      by decide +kernel, by decide +kernel, by decide +kernel⟩,
   ⟨{ cfg [(R.RING_CFG.EN 16, 1), (R.RING_SRC.QUEUE 16, 9), (R.QUEUE_STAT.STATE 9, 1)] hostReady with queues := [(9, { barges := [{ barge := dataBarge, cells := [], total := 0 }] })] },
      0, { barge := dataBarge, cells := [], total := 0 }, by decide +kernel, by decide +kernel, by decide +kernel,
      by decide +kernel, by decide +kernel, by decide +kernel⟩,
   ⟨{ cfg [(R.RING_CFG.EN 79, 1)] hostReady with rings := [(79, { buf := some { entry := { index := 0, bytes := filled 64 [(4, 4, 4096)] } }, after := [markBarge] })] },
      63, markBarge, [], [], by decide +kernel, by decide +kernel, by decide +kernel, by decide +kernel, by decide +kernel⟩,
   ⟨{ cfg [(R.RING_CFG.EN 79, 1)] hostReady with rings := [(79, { after := [markBarge] })] }, 63, markBarge, [], [],
      by decide +kernel, by decide +kernel, by decide +kernel, by decide +kernel, by decide +kernel⟩,
   ⟨atTick 25 ({ cfg [] hostReady with rings := [(79, { buf := some { entry := { index := 0, bytes := [] }, barges := 1, flushUs := 1 } })] }),
      63, { entry := { index := 0, bytes := [] }, barges := 1, flushUs := 1 }, by decide +kernel, by decide +kernel,
      by decide +kernel, by decide +kernel⟩,
   ⟨{ cfg [] hostReady with rings := [(16, { buf := some { entry := { index := 0, bytes := [] }, barges := 1 } })] }, .pf0, 0,
      { entry := { index := 0, bytes := [] }, barges := 1 }, by unfold Writable; decide +kernel, by decide +kernel, by decide +kernel⟩,
   ⟨hostReady, .pf0, 112, 16, by unfold Writable; decide +kernel, by decide +kernel, by decide +kernel, by decide +kernel,
      by decide +kernel, by decide +kernel⟩,
   ⟨cfg [(R.RING_CFG.EN 0, 1), (ringLOG2 0, 16)] hostReady, .pf0, 0, 16, by unfold Writable; decide +kernel, by decide +kernel,
      by decide +kernel⟩,
   ⟨cfg [(R.ER1_CFG.EN, 1)] mgmtReady, 9, by unfold Writable; decide +kernel, by decide +kernel⟩,
   ⟨mgmtReady, 9, by unfold Writable; decide +kernel, by decide +kernel⟩⟩

theorem test_linkAndTokenCommandsAct :
    (∃ (s u : State) (key size : Nat) (c : Bool), key < 0x3000000 ∧ accessOk key size c = false ∧ s.reaches .pf0 key = true ∧
      u = (s.setWord R.PCIE_BADACC (BitVec.ofNat 32 (key % 2 ^ 24))).raise 161 0 (key % 2 ^ 24)) ∧
    (∃ (s u : State) (key size : Nat) (c : Bool), 0x3000000 ≤ key ∧ accessOk key size c = false ∧ s.reaches .mgmt key = true ∧
      u = (s.setWord R.PCIE_BADACC (BitVec.ofNat 32 (key % 2 ^ 24 + 2 ^ 24))).raise 161 1 (key % 2 ^ 24)) ∧
    (∃ (s u w : State) (width rate : Nat) (flit : Bool), s.monitor.tripped = false ∧
      u = ((((State.put { s with pcie := { s.pcie with linkUp := true } } R.PCIE_LINK.WIDTH width).put R.PCIE_LINK.RATE rate).put R.PCIE_LINK.FLIT (b2n flit)).put R.PCIE_LINK.PM 0) ∧
      (w = (if width < s.maxWidth ∨ rate < 6 then (u.put R.PCIE_LINK.DEGRADED 1).raiseInst 160 0 else u)) ∧ w.pcie.pmeDue = false) ∧
    (∃ (s u w : State) (width rate : Nat) (flit : Bool), s.monitor.tripped = false ∧
      u = ((((State.put { s with pcie := { s.pcie with linkUp := true } } R.PCIE_LINK.WIDTH width).put R.PCIE_LINK.RATE rate).put R.PCIE_LINK.FLIT (b2n flit)).put R.PCIE_LINK.PM 0) ∧
      (w = (if width < s.maxWidth ∨ rate < 6 then (u.put R.PCIE_LINK.DEGRADED 1).raiseInst 160 0 else u)) ∧ w.pcie.pmeDue = true) ∧
    (∃ (s : State) (fn : Fin 2) (v : Fin 64), s.pcie.msixPend.contains (fn.val, v.val) = true ∧ s.vecReady fn v = true) ∧
    (∃ (s : State) (fn : Fin 2) (c : CfgWrite), s.pcie.linkUp = true ∧ s.fw.ready = true) ∧
    (∃ (s : State) (p : Path), Writable s p R.GLOBAL_OWNER ∧ pathAgent p ≠ 0 ∧ s.get R.GLOBAL_OWNER.HOLDER = 0) ∧
    (∃ (s : State) (p : Path), Writable s p R.GLOBAL_OWNER ∧ pathAgent p ≠ 0 ∧ s.get R.GLOBAL_OWNER.HOLDER = pathAgent p ∧
      s.nextHolder = 0) ∧
    (∃ (s : State), Writable s .mgmt R.MGMT_TOKEN ∧ s.get R.GLOBAL_OWNER.HOLDER = 0) ∧
    (∃ (s : State), Writable s .mgmt R.MGMT_TOKEN ∧ s.get R.GLOBAL_OWNER.HOLDER = 2 ∧ s.nextHolder = 0) ∧
    (∃ (s : State) (w : Word) (off : Bool), Writable s .mgmt R.MGMT_DATA ∧ Writable s .mgmt R.MGMT_MON) ∧
    (∃ (s : State), Writable s .pf0 R.WAKE) ∧
    (∃ (s : State) (ring index off : Nat) (data : List Byte) (o : Order) (rs : List HostRead), s.order? (ring, index) = some o ∧
      s.reading o = true ∧ rs = takeRead o.ref data off s.reads ∧ s.pcie.cplTimeoutOff = false) :=
  ⟨⟨hostReady, _, 0x7FFFFC, 8, true, by decide +kernel, by decide +kernel, by decide +kernel, rfl⟩,
   ⟨hostReady, _, 0x300FFFC, 8, true, by decide +kernel, by decide +kernel, by decide +kernel, rfl⟩,
   ⟨State.reset, _, _, 8, 6, true, by decide +kernel, rfl, rfl, by decide +kernel⟩,
   ⟨{ State.reset with pcie := { pmeDue := true } }, _, _, 16, 5, false, by decide +kernel, rfl, rfl, by decide +kernel⟩,
   ⟨{ hostReady with pcie := { hostReady.pcie with msixEn1 := true, msixPend := [(1, 63)], msixTable := [(1024 + 63 * 16 + 12, 0)] } },
      1, 63, by decide +kernel, by decide +kernel⟩,
   ⟨hostReady, 0, .memSpace true, by decide +kernel, by decide +kernel⟩,
   ⟨cfg [(R.GLOBAL_OWNER.HOLDER, 0)] hostReady, .pf0, by unfold Writable; decide +kernel, by decide +kernel, by decide +kernel⟩,
   ⟨hostReady, .pf0, by unfold Writable; decide +kernel, by decide +kernel, by decide +kernel, by decide +kernel⟩,
   ⟨cfg [(R.GLOBAL_OWNER.HOLDER, 0)] hostReady, by unfold Writable; decide +kernel, by decide +kernel⟩,
   ⟨mgmtReady, by unfold Writable; decide +kernel, by decide +kernel, by decide +kernel⟩,
   ⟨mgmtReady, 0, true, by unfold Writable; decide +kernel, by unfold Writable; decide +kernel⟩,
   ⟨hostReady, by unfold Writable; decide +kernel⟩,
   ⟨{ standing (orderOf 0x0101) with reads := [{ order := (0, 0), addr := 0, len := 64 }] }, 0, 0, 0, [], orderOf 0x0101, _,
      by decide +kernel, by decide +kernel, rfl, by decide +kernel⟩⟩

theorem test_eventAndTraceCommandsAct :
    (∃ (s : State) (slot : RingEntry) (t : List RingEntry) (r : EvRec) (rest : List EvRec), s.eventRingRuns 0 = true ∧
      (s.ring 112).taken = slot :: t ∧ s.nextRecord? 0 = some (r, rest)) ∧
    (∃ (s : State) (slot : RingEntry) (t : List RingEntry) (r : EvRec) (rest : List EvRec), s.eventRingRuns 1 = true ∧
      (s.ring 113).taken = slot :: t ∧ s.nextRecord? 1 = some (r, rest)) ∧
    (∃ (s : State) (p : Path) (src : Fin 512), Writable s p R.EV_INJECT ∧ evAssigned src = true) ∧
    (∃ (s : State) (c : Containment) (rest : List Containment),
      takeFirst (fun c => decide (c.closeAt ≤ s.ns)) s.ev.contain = some (c, rest) ∧ c.count = 0) ∧
    (∃ (s : State) (c : Containment) (rest : List Containment),
      takeFirst (fun c => decide (c.closeAt ≤ s.ns)) s.ev.contain = some (c, rest) ∧ c.count ≠ 0) ∧
    (∃ (s : State) (p : Path) (e : Fin 32), Writable s p (R.DET_CTL e)) ∧
    (∃ (s : State) (e : Fin 32) (b : Barge), (s.engine e).waiting = some b ∧ (s.engine e).discards = none ∧
      (s.engine e).running = true) :=
  ⟨⟨{ cfg [(R.RING_CFG.EN 112, 1)] hostReady with ev := { wait0 := [{ source := 3, time := 0, info := 0 }] }, rings := [(112, { taken := [{ index := 0, bytes := [] }] })] },
      { index := 0, bytes := [] }, [], { source := 3, time := 0, info := 0 }, [], by decide +kernel, by decide +kernel,
      by decide +kernel⟩,
   ⟨{ cfg [(R.ER1_CFG.EN, 1)] hostReady with ev := { wait1 := [{ source := 3, time := 0, info := 0 }] }, rings := [(113, { taken := [{ index := 0, bytes := [] }] })] },
      { index := 0, bytes := [] }, [], { source := 3, time := 0, info := 0 }, [], by decide +kernel, by decide +kernel,
      by decide +kernel⟩,
   ⟨hostReady, .pf0, 11, by unfold Writable; decide +kernel, by decide +kernel⟩,
   ⟨{ State.reset with ev := { contain := [{ source := 3, inst := 0, closeAt := 0, time := 0, info := 0 }] } },
      { source := 3, inst := 0, closeAt := 0, time := 0, info := 0 }, [], by decide +kernel, by decide +kernel⟩,
   ⟨{ State.reset with ev := { contain := [{ source := 3, inst := 0, closeAt := 0, count := 1, time := 0, info := 0 }] } },
      { source := 3, inst := 0, closeAt := 0, count := 1, time := 0, info := 0 }, [], by decide +kernel, by decide +kernel⟩,
   ⟨hostReady, .pf0, 31, by unfold Writable; decide +kernel⟩,
   ⟨{ State.reset with engines := [(31, { running := true, waiting := some dataBarge })] }, 31, dataBarge, by decide +kernel,
      by decide +kernel, by decide +kernel⟩⟩

theorem test_reamCommandsAct :
    (∃ (s : State) (m : Fin 8), (s.ream m).dcuts = [] ∧ (s.ream m).cuts = [] ∧ s.on (R.REAM_CFG.EN m) = true ∧
      s.nextDecay m ≤ s.time ∧ s.reamAccounted m (s.nextDecay m) = true) ∧
    (∃ (s : State) (m : Fin 8) (tile : Fin 2048) (l : Fin 18), (SMap.find? (s.ream m).deltas (tile * 32 + l)).isSome = true) ∧
    (∃ (s : State) (m : Fin 8) (tile : Fin 2048) (l : Fin 18) (d : Delta), SMap.find? (s.ream m).deltas (tile * 32 + l) = some d ∧
      d.state = 3 ∧ (s.ream m).copies.any (fun c => c.tile == tile.val && c.after.contains l.val) = false) ∧
    (∃ (s : State) (m : Fin 8) (tile : Fin 2048) (l : Fin 18) (d : Delta), SMap.find? (s.ream m).deltas (tile * 32 + l) = some d ∧
      d.state = 3 ∧ (s.ream m).copies.any (fun c => c.tile == tile.val && c.after.contains l.val) = true) ∧
    (∃ (s : State) (p : Path) (m : Fin 8), Writable s p (R.REAM_CTL m)) ∧
    (∃ (s : State) (m : Fin 8) (c : ReamCut) (t : List ReamCut) (x : Nat), (s.ream m).cuts = c :: t ∧ c.reached = false ∧
      c.cut = some x ∧ x ≤ s.time ∧ c.order = none ∧ c.snap = true) ∧
    (∃ (s : State) (m : Fin 8) (bad : List (Fin 2048)) (c : ReamCut) (t : List ReamCut), (s.ream m).cuts = c :: t ∧ c.snap = true ∧
      c.reached = true ∧ s.reamAccounted m (c.cut.getD 0) = true) ∧
    (∃ (s : State) (p : Path) (m : Fin 8) (w : Word), Writable s p (R.REAM_CFG m)) :=
  ⟨⟨atTick 250000000 (cfg [(R.REAM_CFG.EN 7, 1)]), 7, by decide +kernel, by decide +kernel, by decide +kernel, by decide +kernel,
      by decide +kernel⟩,
   ⟨{ State.reset with reams := [(7, { deltas := [(2047 * 32 + 17, {})] })] }, 7, 2047, 17, by decide +kernel⟩,
   ⟨{ State.reset with reams := [(0, { deltas := [(17, { state := 3 })] })] }, 0, 0, 17, { state := 3 }, by decide +kernel,
      by decide +kernel, by decide +kernel⟩,
   ⟨{ State.reset with reams := [(0, { deltas := [(17, { state := 3 })], copies := [{ tile := 0, cut := 0, cells := [], waitFor := [], after := [17] }] })] },
      0, 0, 17, { state := 3 }, by decide +kernel, by decide +kernel, by decide +kernel⟩,
   ⟨hostReady, .pf0, 7, by unfold Writable; decide +kernel⟩,
   ⟨{ State.reset with reams := [(7, { cuts := [{ cut := some 0, snap := true }] })] }, 7, { cut := some 0, snap := true }, [], 0,
      by decide +kernel, by decide +kernel, by decide +kernel, by decide +kernel, by decide +kernel, by decide +kernel⟩,
   ⟨{ State.reset with reams := [(7, { cuts := [{ cut := some 0, snap := true, reached := true }] })] }, 7, [],
      { cut := some 0, snap := true, reached := true }, [], by decide +kernel, by decide +kernel, by decide +kernel,
      by decide +kernel⟩,
   ⟨hostReady, .pf0, 7, 0, by unfold Writable; decide +kernel⟩⟩

theorem test_planAndLaneCommandsAct :
    (∃ (s : State) (ring index : Nat) (o : Order), s.order? (ring, index) = some o ∧ o.opcode = 0x0103 ∧ o.phase = .pending ∧
      ofTime96 (o.u 20 12) ≤ s.time ∧ 2 ≤ s.planState (o.u 16 1)) ∧
    (∃ (s : State) (p : Fin 64) (t r : Nat), s.planState p = 2 ∧ (s.plan p).startAt = some t ∧ s.lanesReady? p = some r ∧
      t ≤ s.time ∧ (s.source (s.plan p).sourceId).active = true ∧
      (s.planStops p).find? (fun o => o.phase == .pending && o.u 17 1 == 1 && decide (ofTime96 (o.u 20 12) ≤ max t r)) = none ∧
      (s.plan p).startRef = none) ∧
    (∃ (s : State) (l : Fin 18), s.laneState l = 1 ∧ (s.lane l).readyAt ≤ s.ns ∧ s.unitsBarred = false ∧ s.laneAssigned l = false) ∧
    (∃ (s : State) (p : Fin 64) (ce : Fin 65536), s.planState p = 3 ∧ (s.plan p).stopFrame = none ∧
      (s.plan p).frameFrom (s.source (s.plan p).sourceId).runFirst ≤ (s.plan p).fillNext ∧
      (s.plan p).frameSample (s.plan p).fillNext + (s.plan p).n ≤ (s.source (s.plan p).sourceId).next ∧
      s.frameLost p (s.plan p).fillNext = false ∧ s.laneState ((s.plan p).lanes.getD ((s.plan p).fillNext % max 1 (s.plan p).lanes.length) 0) = 3) ∧
    (∃ (s : State) (p : Fin 64) (f : Frame) (t : List Frame), (s.plan p).inflight = f :: t ∧ s.planState p = 3) ∧
    (∃ (s : State) (l : Fin 18) (cause : Fin 16) (f : Fin 9), s.laneState l ≠ 4 ∧ cause ≠ 2) ∧
    (∃ (s : State) (l k : Fin 18) (cause c : Fin 16) (f : Fin 9), l < k) ∧
    (∃ (s : State) (p : Path) (l : Fin 18) (f : Fin 9), Writable s p R.LANE_INJECT) ∧
    (∃ (s : State) (l : Fin 18) (p : Nat), s.livePlans.find? (fun p => (s.plan p).failovers.any (fun x => x.spare == l.val && decide (x.readyAt ≤ s.time))) = some p ∧
      s.laneState l = 1) ∧
    (∃ (s : State) (l : Nat), (s.freeLanes.filter (fun l => (s.lane l).testSince.isNone)).find? (fun l => decide (s.spareTest.2 < l)) = some l ∧
      s.on R.LANE_CFG.SPARE_TEST_EN = true ∧ s.lkUp 1 = true ∧ s.spareTest.1 + 1000000000 * max 1 s.spareTestPeriod ≤ s.ns) ∧
    (∃ (s : State) (l : Fin 18) (t : Nat), (s.lane l).testSince = some t ∧ t + 200000 ≤ s.ns ∧ s.lkUp 1 = true ∧
      (s.lane l).testRef = none ∧ s.laneState l = 5 ∧ (s.lane l).before = 2) :=
  ⟨⟨standing (orderOf 0x0103 [(16, 1, 63), (17, 1, 1)]) (cfg [(R.PLAN_STATUS.STATE 63, 2)]), 0, 0, orderOf 0x0103 [(16, 1, 63), (17,
      1, 1)], by decide +kernel, by decide +kernel, by decide +kernel, by decide +kernel, by decide +kernel⟩,
   ⟨{ cfg [(R.PLAN_STATUS.STATE 63, 2), (R.LANE_STATUS.STATE 17, 3)] with sources := [(0x1000, { active := true })], plans := [(63, { bytes := filled 64 [(19, 1, 1), (20, 1, 6), (22, 2, 8)], lanes := [17], startAt := some 0 })] },
      63, 0, 0, by decide +kernel, by decide +kernel, by decide +kernel, by decide +kernel, by decide +kernel, by decide +kernel,
      by decide +kernel⟩,
   ⟨cfg [(R.LANE_STATUS.STATE 17, 1)], 17, by decide +kernel, by decide +kernel, by decide +kernel, by decide +kernel⟩,
   ⟨{ cfg [(R.PLAN_STATUS.STATE 63, 3), (R.LANE_STATUS.STATE 17, 3)] with sources := [(0x1000, { active := true, next := 64 })], plans := [(63, { bytes := filled 64 [(19, 1, 1), (20, 1, 6), (22, 2, 8)], lanes := [17] })] },
      63, 65535, by decide +kernel, by decide +kernel, by decide +kernel, by decide +kernel, by decide +kernel, by decide +kernel⟩,
   ⟨{ cfg [(R.PLAN_STATUS.STATE 63, 3), (R.LANE_STATUS.STATE 17, 3)] with plans := [(63, { bytes := filled 64 [(19, 1, 1), (20, 1, 6), (22, 2, 8)], lanes := [17], inflight := [⟨0, 17, 0, List.replicate 64 (0, 0)⟩] })] },
      63, ⟨0, 17, 0, List.replicate 64 (0, 0)⟩, [], by decide +kernel, by decide +kernel⟩,
   ⟨State.reset, 17, 6, 8, by decide +kernel, by decide +kernel⟩,
   ⟨State.reset, 0, 17, 6, 9, 8, by decide +kernel⟩,
   ⟨hostReady, .pf0, 17, 8, by unfold Writable; decide +kernel⟩,
   ⟨{ cfg [(R.PLAN_STATUS.STATE 63, 3), (R.LANE_STATUS.STATE 17, 1)] with plans := [(63, { failovers := [{ failed := 0, cause := 6, slot := 0, detected := 0, spare := 17, firstLost := 0 }] })] },
      17, 63, by decide +kernel, by decide +kernel⟩,
   ⟨{ atTick 250000000 (cfg [(R.LANE_CFG.SPARE_TEST_EN, 1), (R.LK_STATUS.STATE 1, 2)]) with spareTestPeriod := 1, spareTest := (0, 16) },
      17, by decide +kernel, by decide +kernel, by decide +kernel, by decide +kernel⟩,
   ⟨{ atTick 5000 (cfg [(R.LANE_STATUS.STATE 17, 5), (R.LK_STATUS.STATE 1, 2)]) with lanes := [(17, { testSince := some 0, before := 2 })] },
      17, 0, by decide +kernel, by decide +kernel, by decide +kernel, by decide +kernel, by decide +kernel, by decide +kernel⟩⟩

theorem test_converterPowerCommandsAct :
    (∃ (s : State) (p : Path) (w : Word), Writable s p R.CONV_REFBUF) ∧
    (∃ (s : State) (k : Fin 8) (t : Nat), s.refSince k = some t ∧ t + 5000000 ≤ s.ns) ∧
    (∃ (s : State) (p : Path) (n : Fin 4), Writable s p (R.ADC_CTL.ON n).key) ∧
    (∃ (s : State) (p : Path) (n : Fin 4), Writable s p (R.DAC_CTL.ON n).key) ∧
    (∃ (s : State) (k : Fin 8) (t : Nat), s.refSince k = some t ∧ t + 5040000 ≤ s.ns ∧ s.convertersBarred = false ∧ k.val < 4 ∧
      s.adcState k = 1 ∧ (s.adc k).onSince + 40000 ≤ s.ns ∧ (s.adc k).failed = false) ∧
    (∃ (s : State) (k : Fin 8) (t : Nat), s.refSince k = some t ∧ t + 5040000 ≤ s.ns ∧ s.convertersBarred = false ∧ 4 ≤ k.val ∧
      s.dacState (k - 4) = 1 ∧ (s.dac (k - 4)).onSince + 40000 ≤ s.ns) ∧
    (∃ (s : State) (n : Fin 4) (v : Nat), (s.adc n).fsPending = some v ∧ (s.adc n).count % 64 = 0) :=
  ⟨⟨State.reset, .fw, 0x0F0F#32, by unfold Writable; decide +kernel⟩,
   ⟨atTick 125000 (State.reset.updDac 3 (fun a => { a with refSince := some 0 })), 7, 0, by decide +kernel, by decide +kernel⟩,
   ⟨State.reset, .fw, 3, by unfold Writable; decide +kernel⟩,
   ⟨State.reset, .fw, 3, by unfold Writable; decide +kernel⟩,
   ⟨atTick 126000 ((State.reset.updAdc 3 (fun a => { a with refSince := some 0 })).put (R.ADC_STATUS.STATE 3) 1), 3, 0,
      by decide +kernel, by decide +kernel, by decide +kernel, by decide +kernel, by decide +kernel, by decide +kernel,
      by decide +kernel⟩,
   ⟨atTick 126000 ((State.reset.updDac 0 (fun a => { a with refSince := some 0 })).put (R.DAC_STATUS.STATE 0) 1), 4, 0,
      by decide +kernel, by decide +kernel, by decide +kernel, by decide +kernel, by decide +kernel, by decide +kernel⟩,
   ⟨State.reset.updAdc 3 (fun a => { a with fsPending := some 5 }), 3, 5, by decide +kernel, by decide +kernel⟩⟩

theorem test_converterRunCommandsAct :
    (∃ (s : State) (p : Path) (n : Fin 4) (w : Word), Writable s p (R.ADC_START n)) ∧
    (∃ (s : State) (n : Fin 4), (s.adc n).src = 0 ∧ s.adcState n = 3 ∧ s.spllLocked n = true) ∧
    (∃ (s : State) (n : Fin 4) (x : Int), s.adcState n = 4 ∧ (s.adc n).first = some (s.adc n).count) ∧
    (∃ (s : State) (n : Fin 4) (e : Nat), (s.adc n).stopAt = some e ∧ s.adcState n = 4 ∧ e ≤ (s.adc n).count ∧
      (s.adc n).offAfter = false) ∧
    (∃ (s : State) (p : Path), Writable s p R.CONV_SYNC) ∧
    (∃ (s : State), s.get R.KX_CFG.SYNC_OUT ≠ 1 ∧ s.on R.CONV_SYNC.SRC = false) ∧
    (∃ (s : State) (r : SyncRun) (sub : Fin 2621440), s.syncRun = some r ∧ r.since + nsUnits 80 ≤ s.tk.adv / 1024 + sub) :=
  ⟨⟨State.reset, .fw, 3, 0, by unfold Writable; decide +kernel⟩,
   ⟨cfg [(R.ADC_STATUS.STATE 3, 3), (R.CLK_PLL.LOCKED 1, 1)], 3, by decide +kernel, by decide +kernel, by decide +kernel⟩,
   ⟨(State.reset.put (R.ADC_STATUS.STATE 3) 4).updAdc 3 (fun a => { a with first := some 0 }), 3, -5, by decide +kernel,
      by decide +kernel⟩,
   ⟨(State.reset.put (R.ADC_STATUS.STATE 3) 4).updAdc 3 (fun a => { a with stopAt := some 0 }), 3, 0, by decide +kernel,
      by decide +kernel, by decide +kernel, by decide +kernel⟩,
   ⟨State.reset, .fw, by unfold Writable; decide +kernel⟩,
   ⟨State.reset, by decide +kernel, by decide +kernel⟩,
   ⟨atTick 2 { State.reset with syncRun := some ⟨0⟩ }, ⟨0⟩, 2621439, by decide +kernel, by decide +kernel⟩⟩

theorem test_calibrationCommandsAct :
    (∃ (s : State) (p : Path) (mask : BitVec 4), Writable s p R.CAL_CTL) ∧
    (∃ (s : State) (n : Fin 4) (ms : List Measure) (t : Nat), (s.cal n).fgSince = some t ∧ t + 200000000 ≤ s.ns) ∧
    (∃ (s : State) (n : Fin 4) (t : Nat), (s.cal n).loadSince = some t ∧ t + 50000 ≤ s.ns) ∧
    (∃ (s : State) (n : Fin 4) (ms : List Measure) (t : Nat), (s.cal n).dwellSince = some t ∧ t + 62500000 ≤ s.ns ∧
      s.lkUp 1 = true ∧ (s.dwellResult n ms).get (R.CAL_STATUS.BG_STATE n) = 1 ∧ ((s.dwellResult n ms).cal n).fgWaits = false ∧
      bit ((s.dwellResult n ms).get R.CAL_CTL.BG_EN) n = true) ∧
    (∃ (s : State) (n : Fin 4) (ms : List Measure) (t : Nat), (s.cal n).windowSince = some t ∧ t + 4000000000 ≤ s.ns) ∧
    (∃ (s : State) (n : Fin 4), s.lkUp 1 = true) ∧
    (∃ (s : State), s.on (R.CAL_STATUS.SAVE_BUSY 0) = true ∧ s.lkUp 1 = true) ∧
    (∃ (s : State) (m : Fin 4) (v : BitVec 16) (raw : BitVec 12) (ch : Nat) (rest : List Nat), m.val = 0 ∧
      (s.hkSeq m).running = ch :: rest ∧ (s.hkSeq m).nextAt ≤ s.ns ∧ unusedChannel ch = false) ∧
    (∃ (s : State) (m : Fin 4) (v : BitVec 16) (raw : BitVec 12) (ch : Nat), m.val ≠ 0 ∧ (s.hkSeq m).running = [ch] ∧
      (s.hkSeq m).nextAt ≤ s.ns ∧ unusedChannel ch = false) ∧
    (∃ (s : State) (m : Fin 4), (s.hkSeq m).pendingStart = true ∧ s.hkBlocked m = false) ∧
    (∃ (s : State) (u : State), (s.hkSeq 0).pendingStart = false ∧ s.fw.ready = true ∧ s.hkDue? 0 = some u) ∧
    (∃ (s : State) (p : Path) (m : Fin 3), Writable s p (R.HK_SEQ_CTL m)) ∧
    (∃ (s : State) (i : Fin 4), s.on (R.HK_PWM.EN i) = true ∧ SMap.find? s.pwms i.val = none) ∧
    (∃ (s : State) (pre : Bool) (ch : Nat) (u : State), s.monitor.emergDue = some ch ∧
      u = State.satInc (State.put { s with monitor := { s.monitor with emergDue := none } } R.GLOBAL_PROT.EMERG 1) R.GLOBAL_PROT.ACTIONS) ∧
    (∃ (s : State) (pre : Bool) (ch : Nat) (u : State), s.monitor.supplyDue = some ch ∧
      u = (State.satInc (State.put (State.put { s with monitor := { s.monitor with supplyDue := none } } R.GLOBAL_PROT.SUPPLY 1) R.GLOBAL_PROT.RAIL ch) R.GLOBAL_PROT.ACTIONS).raise 421 ch (protInfo ch pre) ∧
      (ch = 21 ∨ ch = 22)) ∧
    (∃ (s : State) (pre : Bool) (ch : Nat) (u : State), s.monitor.supplyDue = some ch ∧
      u = (State.satInc (State.put (State.put { s with monitor := { s.monitor with supplyDue := none } } R.GLOBAL_PROT.SUPPLY 1) R.GLOBAL_PROT.RAIL ch) R.GLOBAL_PROT.ACTIONS).raise 421 ch (protInfo ch pre) ∧
      (ch = 16 ∨ ch = 18 ∨ ch = 19 ∨ ch = 20)) ∧
    (∃ (s : State) (pre : Bool) (ch : Nat) (u : State), s.monitor.supplyDue = some ch ∧
      u = (State.satInc (State.put (State.put { s with monitor := { s.monitor with supplyDue := none } } R.GLOBAL_PROT.SUPPLY 1) R.GLOBAL_PROT.RAIL ch) R.GLOBAL_PROT.ACTIONS).raise 421 ch (protInfo ch pre) ∧
      ch ∉ [16, 18, 19, 20, 21, 22]) ∧
    (∃ (s : State) (p : Path), Writable s p R.GLOBAL_PROT) :=
  ⟨⟨State.reset, .fw, 15, by unfold Writable; decide +kernel⟩,
   ⟨atTick 5000000 (State.reset.updCal 3 (fun c => { c with fgSince := some 0 })), 3, [], 0, by decide +kernel, by decide +kernel⟩,
   ⟨atTick 1250 (State.reset.updCal 3 (fun c => { c with loadSince := some 0 })), 3, 0, by decide +kernel, by decide +kernel⟩,
   ⟨atTick 1562500 (((linkLocked 1).updCal 3 (fun c => { c with dwellSince := some 0 })).put (R.CAL_STATUS.BG_STATE 3) 1), 3, [], 0,
      by decide +kernel, by decide +kernel, by decide +kernel, by decide +kernel, by decide +kernel, by decide +kernel⟩,
   ⟨atTick 100000000 (State.reset.updCal 3 (fun c => { c with windowSince := some 0 })), 3, [], 0, by decide +kernel,
      by decide +kernel⟩,
   ⟨linkLocked 1, 3, by decide +kernel⟩,
   ⟨(linkLocked 1).put (R.CAL_STATUS.SAVE_BUSY 0) 1, by decide +kernel, by decide +kernel⟩,
   ⟨{ State.reset with hkSeqs := [(0, { running := [0, 1] })] }, 0, 0, 0, 0, [1], by decide +kernel, by decide +kernel,
      by decide +kernel, by decide +kernel⟩,
   ⟨{ State.reset with hkSeqs := [(3, { running := [55] })] }, 3, 0xFFFF, 4095, 55, by decide +kernel, by decide +kernel,
      by decide +kernel, by decide +kernel⟩,
   ⟨{ State.reset with hkSeqs := [(3, { pendingStart := true })] }, 3, by decide +kernel, by decide +kernel⟩,
   ⟨{ atTick 25000 State.reset with fw := { ready := true } },
      ({ atTick 25000 State.reset with fw := { ready := true } }).updHkSeq 0 (fun q => { q with lastStart := q.lastStart + 1000000 }),
      by decide +kernel, by decide +kernel, by decide +kernel⟩,
   ⟨State.reset, .fw, 2, by unfold Writable; decide +kernel⟩,
   ⟨cfg [(R.HK_PWM.EN 3, 1)], 3, by decide +kernel, by decide +kernel⟩,
   ⟨{ State.reset with monitor := { emergDue := some 32 } }, true, 32, _, by decide +kernel, rfl⟩,
   ⟨{ State.reset with monitor := { supplyDue := some 21 } }, true, 21, _, by decide +kernel, rfl, by decide +kernel⟩,
   ⟨{ State.reset with monitor := { supplyDue := some 16 } }, true, 16, _, by decide +kernel, rfl, by decide +kernel⟩,
   ⟨{ State.reset with monitor := { supplyDue := some 17 } }, true, 17, _, by decide +kernel, rfl, by decide +kernel⟩,
   ⟨State.reset, .fw, by unfold Writable; decide +kernel⟩⟩

theorem test_downConverterCommandsAct :
    (∃ (s : State) (d : Fin 8) (r : Retune), (s.listStopped d).retuneDue? d = some r ∧ ((s.listStopped d).ddc d).listStep = none) ∧
    (∃ (s : State) (p : Path) (d : Fin 8), Writable s p (R.DDC_RETUNE d)) ∧
    (∃ (s : State) (d : Fin 8), s.on (R.DDC_STATUS.LIST_RUN d) = true ∧ s.on (R.DDC_CTL.LIST_EN d) = true ∧
      (s.ddc d).listStep = none ∧ s.on (R.DDC_LISTCFG.ADV d) = false ∧
      (s.ddc d).listAt + (max 1 (s.get (R.DDC_LISTCFG.DWELL d)) * 64 * 2 ^ s.ddcK d : Nat) ≤ s.ddcCount d ∧
      s.get (R.DDC_STATUS.LIST_POS d) ≠ s.get (R.DDC_LISTCFG.LAST d)) ∧
    (∃ (s : State) (d : Fin 8), s.on (R.DDC_STATUS.LIST_RUN d) = true ∧ s.on (R.DDC_CTL.LIST_EN d) = true ∧
      (s.ddc d).listStep = none ∧ s.on (R.DDC_LISTCFG.ADV d) = false ∧
      (s.ddc d).listAt + (max 1 (s.get (R.DDC_LISTCFG.DWELL d)) * 64 * 2 ^ s.ddcK d : Nat) ≤ s.ddcCount d ∧
      s.get (R.DDC_STATUS.LIST_POS d) = s.get (R.DDC_LISTCFG.LAST d) ∧ s.on (R.DDC_LISTCFG.LOOP d) = true) ∧
    (∃ (s : State) (p : Path) (d : Fin 8) (w : Word), Writable s p (R.DDC_CTL d)) ∧
    (∃ (s : State) (p : Fin 8), s.on (R.PLT_CTL.EN p) = true ∧ (s.source (ddcId (s.get (R.PLT_CTL.DDC p)))).active = false) ∧
    (∃ (s : State) (p : Fin 8) (d m : Nat), s.on (R.PLT_CTL.EN p) = true ∧ d = s.get (R.PLT_CTL.DDC p) ∧
      (s.source (ddcId d)).active = true ∧ m = (s.source (ddcId d)).next - 1 ∧ m * 2 ^ s.ddcK d % 16 = 0 ∧
      (s.plt p).evalAt ≠ some m ∧ s.pltSize p ≤ (s.plt p).window.length ∧ (s.plt p).held = false) ∧
    (∃ (s : State) (d : Fin 8) (m : Nat), s.ddcNext? d = some m) :=
  ⟨⟨{ cfg [(R.DDC_CTL.EN 7, 1)] with ddcs := [(7, { takenFrom := some 0, pending := some { freq := 0, phase := 0, cause := 0 } })] },
      7, { freq := 0, phase := 0, cause := 0 }, by decide +kernel, by decide +kernel⟩,
   ⟨State.reset, .fw, 7, by unfold Writable; decide +kernel⟩,
   ⟨((cfg [(R.DDC_STATUS.LIST_RUN 7, 1), (R.DDC_CTL.LIST_EN 7, 1), (R.DDC_LISTCFG.LAST 7,
      1)]).updAdc (ddcAdc 7) (fun x => { x with count := 2 ^ 20 })), 7, by decide +kernel, by decide +kernel, by decide +kernel,
      by decide +kernel, by decide +kernel, by decide +kernel⟩,
   ⟨((cfg [(R.DDC_STATUS.LIST_RUN 7, 1), (R.DDC_CTL.LIST_EN 7, 1), (R.DDC_LISTCFG.LOOP 7,
      1)]).updAdc (ddcAdc 7) (fun x => { x with count := 2 ^ 20 })), 7, by decide +kernel, by decide +kernel, by decide +kernel,
      by decide +kernel, by decide +kernel, by decide +kernel, by decide +kernel⟩,
   ⟨State.reset, .fw, 7, 0, by unfold Writable; decide +kernel⟩,
   ⟨State.reset.put (R.PLT_CTL.EN 7) 1, 7, by decide +kernel, by decide +kernel⟩,
   ⟨((State.reset.put (R.PLT_CTL.EN 7) 1).updSource (ddcId 0) (fun o => { o with active := true, next := 1 })).updPlt 7 (fun x => { x with window := List.replicate 64 4 }),
      7, 0, 0, by decide +kernel, by decide +kernel, by decide +kernel, by decide +kernel, by decide +kernel, by decide +kernel,
      by decide +kernel, by decide +kernel⟩,
   ⟨{ cfg [(R.DDC_CTL.EN 0, 1)] with ddcs := [(0, { takenFrom := some 0 })], sources := [(0, { next := 2 ^ 20 })] }, 0, 64,
      by decide +kernel⟩⟩

theorem test_memoryChannelCommandsAct :
    (∃ (s : State) (b : MemBoard), s.trainDue = true) ∧
    (∃ (s : State) (p : Path) (b : MemBoard), Writable s p R.MEM_CTL) ∧
    (∃ (s : State) (c : Fin 6) (k : Fin 10), s.chState c = 1 ∧ s.geomOk c = true) ∧
    (∃ (s : State) (c : Fin 6) (k : Fin 10), s.chState c = 1 ∧ (s.channel c).trainFails = 0) ∧
    (∃ (s : State) (c : Fin 6) (k : Fin 10), s.chState c = 1 ∧ (s.channel c).trainFails ≠ 0 ∧ s.geomOk c = true) ∧
    (∃ (s : State) (c : Fin 6), s.chState c = 2 ∧ s.channelBytes c ≤ s.initBytes c) ∧
    (∃ (s : State) (c : Fin 6) (bank : Fin 128) (n : Int), s.chLive c = true ∧
      n = (SMap.find? (s.channel c).refresh bank.val).getD 0 ∧
      (SMap.find? (s.channel c).refreshAt bank.val).getD 0 + (s.channel c).interval ≤ s.ns) ∧
    (∃ (s : State) (c : Fin 6), s.chLive c = true ∧ (s.channel c).mr4At + 16000000 ≤ s.ns ∧ (s.channel c).hotRaised = false) ∧
    (∃ (s : State) (c : Fin 6), s.chLive c = true ∧ (s.channel c).mr4At + 16000000 ≤ s.ns ∧ (s.channel c).hotRaised = true) ∧
    (∃ (s : State) (c : Fin 6), 3 ≤ s.get (R.MEM_CH_PAR.REPLAY_FAIL c)) ∧
    (∃ (s : State) (c : Fin 6), s.get R.MEM_CTL.UE_FENCE ≠ 0 ∧ s.on R.MEM_INFO.TYPE = false ∧
      s.get R.MEM_CTL.UE_FENCE < ((s.channel c).ues.filter (fun t => s.ns < t + 1000000000)).length) ∧
    (∃ (s : State) (p : Path) (ch : Fin 8) (key : BitVec 16), Writable s p R.MEM_FENCE) ∧
    (∃ (s : State) (c : Fin 6), s.chLive c = true) ∧
    (∃ (s : State) (c : Fin 6), s.chLive c = true ∧ s.on R.MEM_INFO.TYPE = true) ∧
    (∃ (s : State) (c : Fin 6), (s.channel c).replay = true ∧ (s.channel c).alertSeen = false) ∧
    (∃ (s : State) (c : Fin 6), (s.channel c).replay = true ∧ (s.channel c).alertSeen = true ∧
      s.get (R.MEM_CH_PAR.REPLAY_FAIL c) = 2) ∧
    (∃ (s : State) (c : Fin 6) (use : LineUse), s.chState c = 3 ∧ s.on R.MEM_CTL.SCRUB_EN = true ∧
      (s.channel c).scrubLine + 1 < s.channelBytes c / 64) :=
  ⟨⟨{ State.reset with trainDue := true }, { rdimm := true, limit := 4, channels := [(5, { ranks := 1, width := 1, density := 2, gib := 128 })] },
      by decide +kernel⟩,
   ⟨State.reset, .fw, { rdimm := true, limit := 4, channels := [(5, { ranks := 1, width := 1, density := 2, gib := 128 })] },
      by unfold Writable; decide +kernel⟩,
   ⟨cfg [(R.MEM_CH_STATUS.STATE 5, 1), (R.MEM_CH_GEOM.GIB 5, 32)], 5, 9, by decide +kernel, by decide +kernel⟩,
   ⟨cfg [(R.MEM_CH_STATUS.STATE 5, 1)], 5, 9, by decide +kernel, by decide +kernel⟩,
   ⟨{ cfg [(R.MEM_CH_STATUS.STATE 5, 1), (R.MEM_CH_GEOM.GIB 5, 32)] with channels := [(5, { trainFails := 1 })] }, 5, 9,
      by decide +kernel, by decide +kernel, by decide +kernel⟩,
   ⟨atTick (2 ^ 44) (State.reset.put (R.MEM_CH_STATUS.STATE 5) 2), 5, by decide +kernel, by decide +kernel⟩,
   ⟨atTick 100 (State.reset.put (R.MEM_CH_STATUS.STATE 5) 3), 5, 127, 0, by decide +kernel, by decide +kernel, by decide +kernel⟩,
   ⟨atTick 400000 (cfg [(R.MEM_CH_STATUS.STATE 5, 3)]), 5, by decide +kernel, by decide +kernel, by decide +kernel⟩,
   ⟨atTick 400000 { (cfg [(R.MEM_CH_STATUS.STATE 5, 3)]) with channels := [(5, { hotRaised := true })] }, 5, by decide +kernel,
      by decide +kernel, by decide +kernel⟩,
   ⟨cfg [(R.MEM_CH_PAR.REPLAY_FAIL 5, 3)], 5, by decide +kernel⟩,
   ⟨{ cfg [(R.MEM_CTL.UE_FENCE, 1)] with channels := [(5, { ues := [0, 0] })] }, 5, by decide +kernel, by decide +kernel,
      by decide +kernel⟩,
   ⟨State.reset, .fw, 7, 0, by unfold Writable; decide +kernel⟩,
   ⟨State.reset.put (R.MEM_CH_STATUS.STATE 5) 3, 5, by decide +kernel⟩,
   ⟨(State.reset.put (R.MEM_CH_STATUS.STATE 5) 3).put R.MEM_INFO.TYPE 1, 5, by decide +kernel, by decide +kernel⟩,
   ⟨State.reset.updChannel 5 (fun x => { x with replay := true }), 5, by decide +kernel, by decide +kernel⟩,
   ⟨(State.reset.updChannel 5 (fun x => { x with replay := true, alertSeen := true })).put (R.MEM_CH_PAR.REPLAY_FAIL 5) 2, 5,
      by decide +kernel, by decide +kernel, by decide +kernel⟩,
   ⟨cfg [(R.MEM_CH_STATUS.STATE 5, 3), (R.MEM_CTL.SCRUB_EN, 1), (R.MEM_CH_GEOM.GIB 5, 128)], 5, .unused, by decide +kernel,
      by decide +kernel, by decide +kernel⟩⟩

theorem test_poundCommandsAct :
    (∃ (s : State) (p : Path) (n : Fin 64) (w : Word), Writable s p (R.POUND_CFG n)) ∧
    (∃ (s : State) (p : Path) (n : Fin 64) (on : Bool), Writable s p (R.POUND_CFG.FREEZE n).key) ∧
    (∃ (s : State) (n : Fin 64), s.poundState n = 1 ∧ s.extentInit n = true) ∧
    (∃ (s : State) (n : Fin 64) (b : Barge) (e : Nat) (t : List (Barge × Nat)), (s.pound n).ready = (b, e) :: t ∧
      s.poundState n = 2 ∧ s.poundStalled n = false ∧ b.isMark = true ∧
      (s.updPound n (fun d => { d with ready := t })).markWaits n b t = false) ∧
    (∃ (s : State) (n : Fin 64) (b : Barge) (e : Nat) (t : List (Barge × Nat)), (s.pound n).ready = (b, e) :: t ∧
      s.poundState n = 2 ∧ s.poundStalled n = false ∧ b.isMark = true ∧
      (s.updPound n (fun d => { d with ready := t })).markWaits n b t = true) ∧
    (∃ (s : State) (n : Fin 64) (b : Barge) (e : Nat) (t : List (Barge × Nat)), (s.pound n).ready = (b, e) :: t ∧
      s.poundState n = 2 ∧ s.poundStalled n = false ∧ b.isMark = false) ∧
    (∃ (s : State) (n : Fin 64) (e : Nat), s.poundOn n = true ∧ s.poundState n ≠ 4 ∧
      (s.poundLive n).length ≠ (s.poundChannels n).length ∧ e = s.poundBlocks n * (s.poundLive n).length ∧
      e ≠ s.get (R.POUND_EFF.SIZE_EFF n)) ∧
    (∃ (s : State) (n : Fin 64) (d : Fin 4) (m : Barge) (t : List Barge), s.poundState n = 2 ∧ (s.drain n d).on = true ∧
      (s.drain n d).first = m :: t ∧ s.poundStalled n = false ∧ fencePending m = false) ∧
    (∃ (s : State) (n : Fin 64) (d : Fin 4) (b : PBarge), s.poundState n = 2 ∧ (s.drain n d).on = true ∧ (s.drain n d).first = [] ∧
      s.poundStalled n = false ∧ (s.pound n).barges.find? (fun b => (s.drain n d).next ≤ b.number) = some b ∧
      (b.hdr0 && b.hdr1) = false) ∧
    (∃ (s : State), (s.captures.filter (fun c => c.accepted)).length < 96 ∧ s.captures.any (fun c => !c.accepted) = true) ∧
    (∃ (s : State) (num : Nat) (errs : List LineErr) (ot : Bool) (c : Capture), s.served.find? (fun c => c.number == num) = some c ∧
      s.qstate c.queue ≠ qActive) ∧
    (∃ (s : State) (num : Nat) (c : Capture) (m : Barge) (t : List Barge), s.served.find? (fun c => c.number == num) = some c ∧
      s.qstate c.queue = qActive ∧ s.poundStalled c.pound = false ∧ c.first = m :: t) ∧
    (∃ (s : State) (num : Nat) (c : Capture) (x : PBarge), s.served.find? (fun c => c.number == num) = some c ∧
      s.qstate c.queue = qActive ∧ s.poundStalled c.pound = false ∧ c.first = [] ∧ s.captureNext c = .record x ∧
      ((s.pound c.pound).barges.find? (fun b => b.number == x.number)).getD x = x ∧ (x.hdr0 && x.hdr1) = false ∧
      c.stop ≤ x.barge.stamp) ∧
    (∃ (s : State) (num : Nat) (c : Capture) (x : PBarge), s.served.find? (fun c => c.number == num) = some c ∧
      s.qstate c.queue = qActive ∧ s.poundStalled c.pound = false ∧ c.first = [] ∧ s.captureNext c = .record x ∧
      ((s.pound c.pound).barges.find? (fun b => b.number == x.number)).getD x = x ∧ (x.hdr0 && x.hdr1) = false ∧
      x.barge.stamp < c.stop ∧ x.barge.isMark = false) ∧
    (∃ (s : State) (num : Nat) (c : Capture) (x : PBarge), s.served.find? (fun c => c.number == num) = some c ∧
      s.qstate c.queue = qActive ∧ s.poundStalled c.pound = false ∧ c.first = [] ∧ s.captureNext c = .record x ∧
      ((s.pound c.pound).barges.find? (fun b => b.number == x.number)).getD x = x ∧ (x.hdr0 && x.hdr1) = false ∧
      x.barge.stamp < c.stop ∧ x.barge.isMark = true) :=
  ⟨⟨State.reset, .fw, 63, 0, by unfold Writable; decide +kernel⟩,
   ⟨State.reset, .fw, 63, true, by unfold Writable; decide +kernel⟩,
   ⟨State.reset.put (R.POUND_STATUS.STATE 63) 1, 63, by decide +kernel, by decide +kernel⟩,
   ⟨{ cfg [(R.POUND_STATUS.STATE 63, 2)] with pounds := [(63, { ready := [(markBarge, 5)] })] }, 63, markBarge, 5, [],
      by decide +kernel, by decide +kernel, by decide +kernel, by decide +kernel, by decide +kernel⟩,
   ⟨{ cfg [(R.POUND_STATUS.STATE 63, 2)] with pounds := [(63, { ready := [(markBarge, 5)], dropping := some ⟨0, 0, 1, 0⟩ })] }, 63,
      markBarge, 5, [], by decide +kernel, by decide +kernel, by decide +kernel, by decide +kernel, by decide +kernel⟩,
   ⟨{ cfg [(R.POUND_STATUS.STATE 63, 2)] with pounds := [(63, { ready := [(dataBarge, 5)] })] }, 63, dataBarge, 5, [],
      by decide +kernel, by decide +kernel, by decide +kernel, by decide +kernel⟩,
   ⟨cfg [(R.POUND_STATUS.STATE 63, 2), (R.POUND_CFG.CHMASK 63, 3), (R.MEM_CH_STATUS.STATE 0, 4), (R.POUND_EFF.SIZE_EFF 63, 7)], 63,
      0, by decide +kernel, by decide +kernel, by decide +kernel, by decide +kernel, by decide +kernel⟩,
   ⟨{ cfg [(R.POUND_STATUS.STATE 63, 2)] with pounds := [(63, { drains := [(3, { on := true, first := [markBarge] })] })] }, 63, 3,
      markBarge, [], by decide +kernel, by decide +kernel, by decide +kernel, by decide +kernel, by decide +kernel⟩,
   ⟨{ cfg [(R.POUND_STATUS.STATE 63, 2)] with pounds := [(63, { drains := [(3, { on := true })], barges := [{ number := 0, barge := dataBarge, endStamp := 5 }] })] },
      63, 3, { number := 0, barge := dataBarge, endStamp := 5 }, by decide +kernel, by decide +kernel, by decide +kernel,
      by decide +kernel, by decide +kernel, by decide +kernel⟩,
   ⟨{ State.reset with captures := [{ pound := 0, start := 0, stop := 1, queue := 4095 }] }, by decide +kernel, by decide +kernel⟩,
   ⟨{ State.reset with captures := [{ pound := 0, start := 0, stop := 1, queue := 4095, accepted := true }] }, 0, [], false,
      { pound := 0, start := 0, stop := 1, queue := 4095, accepted := true }, by decide +kernel, by decide +kernel⟩,
   ⟨{ cfg [(R.QUEUE_STAT.STATE 4095, 1)] with captures := [{ pound := 0, start := 0, stop := 1, queue := 4095, accepted := true, first := [markBarge] }] },
      0, { pound := 0, start := 0, stop := 1, queue := 4095, accepted := true, first := [markBarge] }, markBarge, [],
      by decide +kernel, by decide +kernel, by decide +kernel, by decide +kernel⟩,
   ⟨{ cfg [(R.QUEUE_STAT.STATE 4095, 1)] with captures := [{ pound := 0, start := 0, stop := 0, queue := 4095, accepted := true }], pounds := [(0, { barges := [{ number := 0, barge := dataBarge, endStamp := 5 }] })] },
      0, { pound := 0, start := 0, stop := 0, queue := 4095, accepted := true }, { number := 0, barge := dataBarge, endStamp := 5 },
      by decide +kernel, by decide +kernel, by decide +kernel, by decide +kernel, rfl, by decide +kernel, by decide +kernel,
      by decide +kernel⟩,
   ⟨{ cfg [(R.QUEUE_STAT.STATE 4095, 1)] with captures := [{ pound := 0, start := 0, stop := 1, queue := 4095, accepted := true }], pounds := [(0, { barges := [{ number := 0, barge := dataBarge, endStamp := 5 }] })] },
      0, { pound := 0, start := 0, stop := 1, queue := 4095, accepted := true }, { number := 0, barge := dataBarge, endStamp := 5 },
      by decide +kernel, by decide +kernel, by decide +kernel, by decide +kernel, rfl, by decide +kernel, by decide +kernel,
      by decide +kernel, by decide +kernel⟩,
   ⟨{ cfg [(R.QUEUE_STAT.STATE 4095, 1)] with captures := [{ pound := 0, start := 0, stop := 1, queue := 4095, accepted := true }], pounds := [(0, { barges := [{ number := 0, barge := markBarge, endStamp := 5 }] })] },
      0, { pound := 0, start := 0, stop := 1, queue := 4095, accepted := true }, { number := 0, barge := markBarge, endStamp := 5 },
      by decide +kernel, by decide +kernel, by decide +kernel, by decide +kernel, rfl, by decide +kernel, by decide +kernel,
      by decide +kernel, by decide +kernel⟩⟩

theorem test_moveAndStimulusCommandsAct :
    (∃ (s : State) (c : Fin 32) (e : RingEntry) (t : List RingEntry), (s.ring (80 + c)).move = none ∧
      s.on (ringEN (80 + c)) = true ∧ s.upstream (80 + c) = true ∧ (s.ring (80 + c)).taken = e :: t) ∧
    (∃ (s : State) (l : Fin 64) (data : List Byte) (x : Nat) (m : MoveRun), 8 ≤ l.val ∧ s.pacedChannel l = some (x, m) ∧
      0 < (SMap.find? s.lineReqs l.val).getD 0 ∧ s.upstream x = true ∧ s.moveTarget m.entry = true ∧ s.moveTurn (x - 80) m = true) ∧
    (∃ (s : State) (c : Fin 32) (data : List Byte) (n : Nat) (m : MoveRun), (s.ring (80 + c)).move = some m ∧ m.entry.paced = true ∧
      s.moveTarget m.entry = false) ∧
    (∃ (s : State) (c : Fin 32) (data : List Byte) (n : Nat) (m : MoveRun), (s.ring (80 + c)).move = some m ∧ m.entry.paced = true ∧
      s.moveTarget m.entry = true) ∧
    (∃ (s : State) (c : Fin 32) (data : List Byte) (n : Nat) (m : MoveRun), (s.ring (80 + c)).move = some m ∧ m.entry.paced = true ∧
      s.moveTarget m.entry = true ∧ m.entry.len ≤ m.done ∧ m.cancelling = false ∧ m.entry.toHost = true ∧ m.bad = []) ∧
    (∃ (s : State) (g : Fin 8), s.sgState g = 4 ∧ s.sgBall g (s.sg g).nextCount ≤ s.time + commitLead + nsUnits 40 ∧
      s.waitsFor g = none) ∧
    (∃ (s : State) (p : Path) (g : Fin 8), Writable s p (R.SG_CTL g)) ∧
    (∃ (s : State) (p : Path) (g : Fin 8) (en : Bool), Writable s p (R.SG_CFG.EN g).key) ∧
    (∃ (s : State) (trims : List (Fin 512 × Fin 64 × Int)) (o : Order) (t : List Order), s.skewOrders = o :: t ∧
      o.phase ≠ .pending ∧ o.aux + 2000000 * ((List.range 4).filter (fun g => bit (o.u 16 1) g)).length ≤ s.ns) :=
  ⟨⟨{ cfg [(ringEN 111, 1)] hostReady with rings := [(111, { taken := [{ index := 0, bytes := filled 64 [(0, 1, 0), (4, 4, 64), (23, 1, 2)] }] })] },
      31, { index := 0, bytes := filled 64 [(0, 1, 0), (4, 4, 64), (23, 1, 2)] }, [], by decide +kernel, by decide +kernel,
      by decide +kernel, by decide +kernel⟩,
   ⟨{ cfg [(ringEN 111, 1)] hostReady with rings := [(111, { move := some { entry := { index := 0, bytes := filled 64 [(0, 1, 8), (4, 4, 64), (3, 1, 8), (23, 1, 2), (24, 4, 64)] } } })], lineReqs := [(8, 1)] },
      8, [], 111, { entry := { index := 0, bytes := filled 64 [(0, 1, 8), (4, 4, 64), (3, 1, 8), (23, 1, 2), (24, 4, 64)] } },
      by decide +kernel, by decide +kernel, by decide +kernel, by decide +kernel, by decide +kernel, by decide +kernel⟩,
   ⟨{ cfg [(ringEN 80, 1)] hostReady with rings := [(80, { move := some { entry := { index := 0, bytes := filled 64 [(0, 1, 8), (4, 4, 64)] } } })] },
      0, [], 0, { entry := { index := 0, bytes := filled 64 [(0, 1, 8), (4, 4, 64)] } }, by decide +kernel, by decide +kernel,
      by decide +kernel⟩,
   ⟨{ cfg [(ringEN 80, 1)] hostReady with rings := [(80, { move := some { entry := { index := 0, bytes := filled 64 [(0, 1, 8), (4, 4, 64), (3, 1, 8), (23, 1, 2), (24, 4, 64)] } } })] },
      0, [], 64, { entry := { index := 0, bytes := filled 64 [(0, 1, 8), (4, 4, 64), (3, 1, 8), (23, 1, 2), (24, 4, 64)] } },
      by decide +kernel, by decide +kernel, by decide +kernel⟩,
   ⟨{ cfg [(ringEN 80, 1)] hostReady with rings := [(80, { move := some { entry := { index := 0, bytes := filled 64 [(0, 1, 12), (4, 4, 64), (3, 1, 8), (23, 1, 2), (24, 4, 64)] }, done := 64 } })] },
      0, [], 64, { entry := { index := 0, bytes := filled 64 [(0, 1, 12), (4, 4, 64), (3, 1, 8), (23, 1, 2), (24, 4, 64)] }, done := 64 },
      by decide +kernel, by decide +kernel, by decide +kernel, by decide +kernel, by decide +kernel, by decide +kernel,
      by decide +kernel⟩,
   ⟨cfg [(R.SG_STATUS.STATE 7, 4)], 7, by decide +kernel, by decide +kernel, by decide +kernel⟩,
   ⟨State.reset, .fw, 7, by unfold Writable; decide +kernel⟩,
   ⟨State.reset, .fw, 7, true, by unfold Writable; decide +kernel⟩,
   ⟨{ atTick 100000 (State.reset) with orders := [{ orderOf 0x0A04 [(16, 1, 8)] with phase := .running }] }, [],
      { orderOf 0x0A04 [(16, 1, 8)] with phase := .running }, [], by decide +kernel, by decide +kernel, by decide +kernel⟩⟩

theorem test_timekeeperCommandsAct :
    (∃ (s : State), s.tk.newInc = none) ∧
    (∃ (s : State) (p : Path) (w : Word), Writable s p R.TIME_INC) ∧
    (∃ (s : State) (p : Path) (k : Bool), Writable s p R.TIME_SERVO) ∧
    (∃ (s : State), s.tkState = tkLocked ∧ s.tk.servoAt + s.holdTmo ≤ s.adv) ∧
    (∃ (s : State) (p : Path) (w : Word), Writable s p R.TIME_CFG) ∧
    (∃ (s : State) (t : Nat), s.kx.lostSince = some t ∧ s.follows = true ∧ s.tkState = tkFollowing ∧ t + 100000 ≤ s.adv) ∧
    (∃ (s : State) (p : Path) (g : Fin 32) (w : Word), Writable s p (R.TG_CTL g)) ∧
    (∃ (s : State) (g : Fin 32) (d : Int), s.on (R.TG_CTL.EN g) = true ∧ (s.gateRun g).announced = none ∧
      s.tgHas g (s.gateRun g).next = true ∧ s.tgAhead g = some d ∧ d ≤ nsUnits 1000) ∧
    (∃ (s : State) (g : Fin 32) (t : Nat), s.firingNow g = some t ∧ (s.gateRun g).announced = some t) ∧
    (∃ (s : State) (g : Fin 32) (t : Nat), s.on (R.TG_CTL.WAKE g) = true ∧ (s.gateRun g).announced = some t ∧
      (s.gateRun g).woken = false) ∧
    (∃ (s : State) (x : OrderRef × Int × Nat) (rest : List (OrderRef × Int × Nat)),
      takeFirst (fun (x : OrderRef × Int × Nat) => decide (x.2.2 ≤ s.ticks)) s.tk.steps = some (x, rest)) ∧
    (∃ (s : State) (x : Nat × Int) (rest : List (Nat × Int)), s.follows = true ∧
      takeFirst (fun (x : OrderRef × Int × Nat) => decide (x.2.2 ≤ s.ticks)) s.tk.steps = none ∧
      takeFirst (fun (x : Nat × Int) => decide (x.1 ≤ s.time)) s.kx.rootSteps = some (x, rest)) ∧
    (∃ (s : State) (b : KxBeacon), s.follows = false ∧ s.kx.lastBeacon + 10000 ≤ s.adv ∧
      b = { root := Fin.ofNat 262144 s.devid, entry := Fin.ofNat 16 s.slot, depart := BitVec.ofNat 96 (toTime96 s.time), inc := BitVec.ofNat 32 s.tk.inc, state := Fin.ofNat 8 s.tkState, steps := s.comingSteps.map (fun x => (BitVec.ofNat 96 (toTime96 x.1), x.2)) }) ∧
    (∃ (s : State) (l : Fin 6) (b : KxBeacon) (sub : Fin 2621440) (roundTrip : Option Nat), s.kxUp l = true ∧
      time96Ok b.depart.toNat = true ∧ b.steps.all (fun x => time96Ok x.1.toNat) = true) :=
  ⟨⟨State.reset, by decide +kernel⟩,
   ⟨State.reset, .fw, 0, by unfold Writable; decide +kernel⟩,
   ⟨State.reset, .fw, true, by unfold Writable; decide +kernel⟩,
   ⟨{ State.reset.put R.TIME_STATUS.STATE tkLocked with tk := { State.reset.tk with adv := 2 ^ 80 } }, by decide +kernel,
      by decide +kernel⟩,
   ⟨State.reset, .fw, 1, by unfold Writable; decide +kernel⟩,
   ⟨{ (State.reset.put R.TIME_STATUS.STATE tkFollowing).put R.TIME_CFG.MODE 1 with tk := { State.reset.tk with adv := 2 ^ 80 }, kx := { State.reset.kx with lostSince := some 0 } },
      0, by decide +kernel, by decide +kernel, by decide +kernel, by decide +kernel⟩,
   ⟨State.reset, .fw, 31, 1, by unfold Writable; decide +kernel⟩,
   ⟨cfg [(R.TG_CTL.EN 31, 1)], 31, 0, by decide +kernel, by decide +kernel, by decide +kernel, by decide +kernel, by decide +kernel⟩,
   ⟨{ cfg [(R.TG_CTL.EN 31, 1)] with gates := [(31, { announced := some 0 })] }, 31, 0, by decide +kernel, by decide +kernel⟩,
   ⟨(State.reset.put (R.TG_CTL.WAKE 31) 1).updGate 31 (fun x => { x with announced := some 7 }), 31, 7, by decide +kernel,
      by decide +kernel, by decide +kernel⟩,
   ⟨{ State.reset with tk := { State.reset.tk with steps := [((0, 0), 5, 0)] } }, ((0, 0), 5, 0), [], by decide +kernel⟩,
   ⟨{ State.reset.put R.TIME_CFG.MODE 1 with kx := { State.reset.kx with rootSteps := [(0, 5)] } }, (0, 5), [], by decide +kernel,
      by decide +kernel, by decide +kernel⟩,
   ⟨atTick 250 State.reset, _, by decide +kernel, by decide +kernel, rfl⟩,
   ⟨cfg [(R.KX_LINK.STATE 5, 2)], 5, testBeacon, 0, none, by decide +kernel, by decide +kernel, by decide +kernel⟩⟩

theorem test_linkNetworkCommandsAct :
    (∃ (s : State) (p : Path) (t : Fin 2) (w : Word), Writable s p (R.ETH_TXCTL t)) ∧
    (∃ (s : State) (t : Fin 2) (sub : Fin 2621440), s.eth.busy.contains t.val = true ∧ s.on R.ETH_CFG.LINK = true) ∧
    (∃ (s u : State) (bs body : List Byte) (sub : Fin 2621440), s.ethFilter bs = (some body, u) ∧ u.on R.ETH_CFG.AKW_EN = false) ∧
    (∃ (s : State) (up : Bool), s.on R.ETH_CFG.EN = true) ∧
    (∃ (s : State) (p : Path) (l : Fin 6) (en : Bool), Writable s p (R.KX_LINK.EN l).key) ∧
    (∃ (s : State) (p : Path) (k : Fin 16) (w : Word), Writable s p (R.KX_SP k)) ∧
    (∃ (s : State) (device : Fin 16) (l : Fin 6) (devid : Fin 262144) (m : Option (Fin 262144)) (slot : Fin 16), s.lkUp 2 = true ∧
      device.val = s.slot ∧ s.get (R.KX_LINK.STATE l) = 1 ∧ l.val < 4 ∧ bit (s.get R.KX_CFG.PRESENT) (kxNeighbour s.slot l) = true) ∧
    (∃ (s : State) (device : Fin 16) (l : Fin 6) (devid : Fin 262144) (m : Option (Fin 262144)) (slot : Fin 16), s.lkUp 2 = true ∧
      device.val = s.slot ∧ s.get (R.KX_LINK.STATE l) = 1 ∧ 4 ≤ l.val) ∧
    (∃ (s : State) (device : Fin 16) (l : Fin 6), device.val = s.slot ∧ s.kxUp l = true) ∧
    (∃ (s : State) (l : Fin 6) (t : KxTrigger) (sub : Fin 2621440), s.kxUp l = true ∧ rtKey t ∉ s.kx.seen ∧ l.val < 4 ∧
      t.board = false) ∧
    (∃ (s : State) (l : Fin 6) (t : KxTrigger) (sub : Fin 2621440), s.kxUp l = true ∧ rtKey t ∉ s.kx.seen ∧ l.val < 4 ∧
      t.board = true) ∧
    (∃ (s : State) (x : RtDue) (rest : List RtDue), takeFirst (fun x => decide (x.due < s.time + nsUnits 40)) s.kx.due = some (x,
      rest)) ∧
    (∃ (s u v : State) (bs body : List Byte) (sub : Fin 2621440) (missed : Nat), s.ethFilter bs = (some body, u) ∧
      (u.on R.ETH_CFG.AKW_EN && u.isGateway && u.isAkwaune body) = true ∧ field (body.drop 14) 0 1 = 1 ∧
      field (body.drop 14) 1 1 = 1 ∧ field (body.drop 14) 2 1 = u.get R.AKW_CFG.DOMAIN ∧
      (field (body.drop 14) 4 4 % 2 ^ 18 == u.devid || ((SMap.find? u.kx.devs (field (body.drop 14) 4 4 % 2 ^ 18)).getD 16 < 16)) = false ∧
      u.akwSeqIn (field (body.drop 14) 4 4 % 2 ^ 18) (field (body.drop 14) 8 4) = (some missed, v)) ∧
    (∃ (s : State) (p : Path) (h : Fin 2) (w : Word), Writable s p (R.DISP_CTL h)) ∧
    (∃ (s : State) (h : Fin 2), s.headState h = 1) ∧
    (∃ (s : State) (h : Fin 2) (lost : Bool), s.headState h = 3) ∧
    (∃ (s : State) (h : Fin 2) (rate : Fin 5) (lanes : Fin 5) (l : Nat) (u : State), s.headState h = 2 ∧ s.lkUp 3 = true ∧
      u = s.updHead h (fun x => { x with sink := some (rate.val, lanes.val) }) ∧
      dpLanes (u.headGet h (R.DISP_PCLK.PCLK_KHZ h)) rate lanes = some l ∧ (u.head h).attempts < 2) ∧
    (∃ (s : State) (h : Fin 2) (rate : Fin 5) (lanes : Fin 5) (l : Nat) (u : State), s.headState h = 2 ∧ s.lkUp 3 = true ∧
      u = s.updHead h (fun x => { x with sink := some (rate.val, lanes.val) }) ∧
      dpLanes (u.headGet h (R.DISP_PCLK.PCLK_KHZ h)) rate lanes = some l ∧ 2 ≤ (u.head h).attempts) ∧
    (∃ (s : State) (h : Fin 2) (u : State), s.headState h = 3 ∧ (s.head h).line = none ∧ u = s.blankingBegins h ∧
      u.on (R.DISP_STATUS.COMMIT_PEND h) = false) ∧
    (∃ (s : State) (h : Fin 2) (u : State), s.headState h = 3 ∧ (s.head h).line = none ∧ u = s.blankingBegins h ∧
      u.on (R.DISP_STATUS.COMMIT_PEND h) = true ∧ (u.copyShadow h).1 = false) ∧
    (∃ (s : State) (h : Fin 2), s.headState h = 3 ∧ (s.head h).line = some (s.activeLines h) ∧
      (s.blankingBegins h).on (R.DISP_STATUS.COMMIT_PEND h) = false) ∧
    (∃ (s : State) (h : Fin 2) (supplied : Fin 3841) (y : Nat), s.headState h = 3 ∧ (s.head h).line = some y ∧ y < s.activeLines h) ∧
    (∃ (s : State) (ring index : Nat) (o : Order) (bs : List Byte) (u : State), s.order? (ring, index) = some o ∧
      o.opcode = 0x0F01 ∧ o.phase ≠ .cancelling ∧ u = (s.writeHost (o.u 24 8 + o.done) (overlay (List.replicate 16 0#8) 0 (bs.take 16)) []).updOrder o.ref (fun x => { x with phase := .running, done := o.done + 16, aux := 0 }) ∧
      o.done + 16 < 128 * o.u 18 1) ∧
    (∃ (s : State) (ring index : Nat) (o : Order) (bs : List Byte) (u : State), s.order? (ring, index) = some o ∧
      o.opcode = 0x0F01 ∧ o.phase ≠ .cancelling ∧ u = (s.writeHost (o.u 24 8 + o.done) (overlay (List.replicate 16 0#8) 0 (bs.take 16)) []).updOrder o.ref (fun x => { x with phase := .running, done := o.done + 16, aux := 0 }) ∧
      128 * o.u 18 1 ≤ o.done + 16) ∧
    (∃ (s : State) (ring index : Nat) (o : Order) (bs : List Byte) (u : State), s.order? (ring, index) = some o ∧
      o.opcode = 0x0F01 ∧ o.phase ≠ .cancelling ∧ u = (s.writeHost (o.u 24 8 + o.done) (overlay (List.replicate 16 0#8) 0 (bs.take 16)) []).updOrder o.ref (fun x => { x with phase := .running, done := o.done + 16, aux := 0 }) ∧
      o.aux < 3) ∧
    (∃ (s : State) (ring index : Nat) (o : Order) (bs : List Byte) (u : State), s.order? (ring, index) = some o ∧
      o.opcode = 0x0F01 ∧ o.phase ≠ .cancelling ∧ u = (s.writeHost (o.u 24 8 + o.done) (overlay (List.replicate 16 0#8) 0 (bs.take 16)) []).updOrder o.ref (fun x => { x with phase := .running, done := o.done + 16, aux := 0 }) ∧
      3 ≤ o.aux) ∧
    (∃ (s : State) (w : Word), Writable s .mgmt R.PNL_CFG) ∧
    (∃ (s : State) (id : Word) (u : State), s.pnlState = 1 ∧ s.lkUp 3 = true ∧ s.panel.since + 240010000 ≤ s.ns ∧
      u = ((s.send (.frame 6 0 [0x11#8])).send (.frame 6 0 [0x3A#8])).send (.frame 6 0 [0x04#8]) ∧ id = 0) ∧
    (∃ (s : State) (id : Word) (u : State), s.pnlState = 1 ∧ s.lkUp 3 = true ∧ s.panel.since + 240010000 ≤ s.ns ∧
      u = ((s.send (.frame 6 0 [0x11#8])).send (.frame 6 0 [0x3A#8])).send (.frame 6 0 [0x04#8]) ∧ id ≠ 0 ∧ id ≠ 0xFFFFFFFF#32) ∧
    (∃ (s : State), s.get R.PNL_PERIOD.PERIOD_MS ≠ 0 ∧ s.pnlCanPush = true ∧
      s.panel.since + 1000000 * s.get R.PNL_PERIOD.PERIOD_MS ≤ s.ns) :=
  ⟨⟨State.reset, .fw, 1, 0, by unfold Writable; decide +kernel⟩,
   ⟨{ State.reset.put R.ETH_CFG.LINK 1 with eth := { State.reset.eth with busy := [1] } }, 1, 2621439, by decide +kernel,
      by decide +kernel⟩,
   ⟨cfg [(R.ETH_CFG.EN, 1), (R.ETH_CFG.LINK, 1)], cfg [(R.ETH_CFG.EN, 1), (R.ETH_CFG.LINK, 1)], withFcs (List.replicate 60 0xFF#8),
      (List.replicate 60 0xFF#8), 0, by decide +kernel, by decide +kernel⟩,
   ⟨State.reset.put R.ETH_CFG.EN 1, true, by decide +kernel⟩,
   ⟨State.reset, .fw, 5, true, by unfold Writable; decide +kernel⟩,
   ⟨State.reset, .fw, 15, 0, by unfold Writable; decide +kernel⟩,
   ⟨cfg [(R.LK_STATUS.STATE 2, 2), (R.KX_LINK.STATE 3, 1), (R.KX_CFG.PRESENT, 65535)], 0, 3, 9, none, 12, by decide +kernel,
      by decide +kernel, by decide +kernel, by decide +kernel, by decide +kernel⟩,
   ⟨(linkLocked 2).put (R.KX_LINK.STATE 5) 1, 0, 5, 0, none, 0, by decide +kernel, by decide +kernel, by decide +kernel,
      by decide +kernel⟩,
   ⟨cfg [(R.KX_LINK.STATE 5, 2)], 0, 5, by decide +kernel, by decide +kernel⟩,
   ⟨cfg [(R.KX_LINK.STATE 3, 2)], 3, { src := 7, seq := 1, rt := 0, tf := 0, tx := 0, entry := 0 }, 0, by decide +kernel,
      by decide +kernel, by decide +kernel, by decide +kernel⟩,
   ⟨cfg [(R.KX_LINK.STATE 3, 2)], 3, { src := 7, seq := 1, rt := 0, tf := 0, tx := 0, entry := 0, board := true }, 0,
      by decide +kernel, by decide +kernel, by decide +kernel, by decide +kernel⟩,
   ⟨{ State.reset with kx := { due := [⟨0, 0, 3⟩] } }, ⟨0, 0, 3⟩, [], by decide +kernel⟩,
   ⟨cfg [(R.ETH_CFG.EN, 1), (R.ETH_CFG.LINK, 1), (R.ETH_CFG.AKW_EN, 1), (R.ETH_CFG.AKW_GW, 1)], cfg [(R.ETH_CFG.EN, 1),
      (R.ETH_CFG.LINK, 1), (R.ETH_CFG.AKW_EN, 1), (R.ETH_CFG.AKW_GW, 1)], ((cfg [(R.ETH_CFG.EN, 1), (R.ETH_CFG.LINK, 1),
      (R.ETH_CFG.AKW_EN, 1), (R.ETH_CFG.AKW_GW, 1)]).akwSeqIn 9 1).2, withFcs akwFrame, akwFrame, 0, 0, by decide +kernel,
      by decide +kernel, by decide +kernel, by decide +kernel, by decide +kernel, by decide +kernel, by decide +kernel⟩,
   ⟨State.reset, .fw, 1, 0, by unfold Writable; decide +kernel⟩,
   ⟨State.reset.put (R.DISP_STATUS.STATE 1) 1, 1, by decide +kernel⟩,
   ⟨State.reset.put (R.DISP_STATUS.STATE 1) 3, 1, true, by decide +kernel⟩,
   ⟨cfg [(R.DISP_STATUS.STATE 1, 2), (R.LK_STATUS.STATE 3, 2)], 1, 4, 4, 1, _, by decide +kernel, by decide +kernel, rfl,
      by decide +kernel, by decide +kernel⟩,
   ⟨{ cfg [(R.DISP_STATUS.STATE 1, 2), (R.LK_STATUS.STATE 3, 2)] with heads := [(1, { attempts := 2 })] }, 1, 4, 4, 1, _,
      by decide +kernel, by decide +kernel, rfl, by decide +kernel, by decide +kernel⟩,
   ⟨cfg [(R.DISP_STATUS.STATE 1, 3)], 1, _, by decide +kernel, by decide +kernel, rfl, by decide +kernel⟩,
   ⟨cfg [(R.DISP_STATUS.STATE 1, 3), (R.DISP_STATUS.COMMIT_PEND 1, 1)], 1, _, by decide +kernel, by decide +kernel, rfl,
      by decide +kernel, by decide +kernel⟩,
   ⟨{ cfg [(R.DISP_STATUS.STATE 1, 3)] with heads := [(1, { line := some (State.reset.activeLines 1) })] }, 1, by decide +kernel,
      by decide +kernel, by decide +kernel⟩,
   ⟨{ cfg [(R.DISP_STATUS.STATE 1, 3)] with heads := [(1, { line := some 1079 })] }, 1, 3840, 1079, by decide +kernel,
      by decide +kernel, by decide +kernel⟩,
   ⟨standing (orderOf 0x0F01 [(18, 1, 2), (16, 1, 1)]), 0, 0, orderOf 0x0F01 [(18, 1, 2), (16, 1, 1)], [], _, by decide +kernel,
      by decide +kernel, by decide +kernel, rfl, by decide +kernel⟩,
   ⟨standing (orderOf 0x0F01 [(18, 1, 0), (16, 1, 1)]), 0, 0, orderOf 0x0F01 [(18, 1, 0), (16, 1, 1)], [], _, by decide +kernel,
      by decide +kernel, by decide +kernel, rfl, by decide +kernel⟩,
   ⟨standing (orderOf 0x0F01 [(18, 1, 2), (16, 1, 1)]), 0, 0, orderOf 0x0F01 [(18, 1, 2), (16, 1, 1)], [], _, by decide +kernel,
      by decide +kernel, by decide +kernel, rfl, by decide +kernel⟩,
   ⟨standing ({ orderOf 0x0F01 [(18, 1, 2), (16, 1, 1)] with aux := 3 }), 0, 0,
      { orderOf 0x0F01 [(18, 1, 2), (16, 1, 1)] with aux := 3 }, [], _, by decide +kernel, by decide +kernel, by decide +kernel,
      rfl, by decide +kernel⟩,
   ⟨mgmtReady, 1, by unfold Writable; decide +kernel⟩,
   ⟨atTick 7000000 (cfg [(R.PNL_STATUS.STATE, 1), (R.LK_STATUS.STATE 3, 2)]), 0, _, by decide +kernel, by decide +kernel,
      by decide +kernel, rfl, by decide +kernel⟩,
   ⟨atTick 7000000 (cfg [(R.PNL_STATUS.STATE, 1), (R.LK_STATUS.STATE 3, 2)]), 1, _, by decide +kernel, by decide +kernel,
      by decide +kernel, rfl, by decide +kernel, by decide +kernel⟩,
   ⟨atTick 25000 (cfg [(R.PNL_STATUS.STATE, 2), (R.LK_STATUS.STATE 3, 2), (R.PNL_PERIOD.PERIOD_MS, 1)]), by decide +kernel,
      by decide +kernel, by decide +kernel⟩⟩

theorem test_pinAndTdcCommandsAct :
    (∃ (s : State) (k : Fin 28), s.pinLive k = true ∧ s.on (pinSTUCKEN k) = true ∧ (s.pin k).pin = true ∧
      (s.pin k).since + stuckTime (s.get (pinTIME k)) < s.advU 0) ∧
    (∃ (s : State) (k : Fin 28), s.on (pinSTUCK k) = true ∧ (s.pin k).pin = false ∧
      (s.pin k).since + stuckTime (s.get (pinREARM k)) ≤ s.advU 0) ∧
    (∃ (s : State) (o : Fin 4), (s.pulse o).on = true ∧ (s.pulse o).endAt ≤ s.advU 0) ∧
    (∃ (s : State) (b : Fin 4), (s.pulse (4 + b)).on = true ∧ (s.pulse (4 + b)).endAt ≤ s.advU 0) ∧
    (∃ (s : State) (n : Fin 32), (s.tdc n).fill ≠ [] ∧ (s.tdc n).since + 1000 * max 1 (s.get R.TDC_CTL.CLOSE_US) ≤ s.adv) ∧
    (∃ (s : State) (c : Fin 8) (m : TdcMeas), 0 < c.val ∧ (s.tdc c).meas = some m ∧ m.hi < toPs (s.advU 0) - toPs m.start) ∧
    (∃ (s : State) (i : Fin 16) (g : TdcGate), (s.tdc (16 + i)).gate = some g ∧ g.start + g.len ≤ s.advU 0 ∧ g.counted = false) ∧
    (∃ (s : State) (i : Fin 16) (rising : Bool) (sub : Fin 2621440), s.tdcFreq i = false) ∧
    (∃ (s : State) (i : Fin 16) (rising : Bool) (sub : Fin 2621440), s.tdcFreq i = true ∧ 0 < s.get (R.TDC_IN_CFG.PRESCALE i)) ∧
    (∃ (s : State) (p : Path) (i : Fin 16) (w : Word), Writable s p (R.TDC_IN_CFG i)) ∧
    (∃ (s : State) (p : Path) (w : Word), Writable s p R.TDC_CTL) :=
  ⟨⟨{ atTick 100000000 (cfg [(pinEN 27, 1), (pinSTUCKEN 27, 1), (pinTIME 27, 1)]) with pins := [(27, { pin := true })] }, 27,
      by decide +kernel, by decide +kernel, by decide +kernel, by decide +kernel⟩,
   ⟨atTick 100000000 (cfg [(pinSTUCK 0, 1), (pinREARM 0, 1)]), 0, by decide +kernel, by decide +kernel, by decide +kernel⟩,
   ⟨{ State.reset with pulses := [(3, { on := true })] }, 3, by decide +kernel, by decide +kernel⟩,
   ⟨{ State.reset with pulses := [(4, { on := true })] }, 0, by decide +kernel, by decide +kernel⟩,
   ⟨{ atTick 25000000 State.reset with tdcs := [(31, { fill := [(0, 0, 0, [])] })] }, 31, by decide +kernel, by decide +kernel⟩,
   ⟨{ atTick 1 State.reset with tdcs := [(7, { meas := some { start := 0, stamp := 0, qual := 0, number := 0, lo := 0, hi := 1 } })] },
      7, { start := 0, stamp := 0, qual := 0, number := 0, lo := 0, hi := 1 }, by decide +kernel, by decide +kernel,
      by decide +kernel⟩,
   ⟨{ atTick 1 State.reset with tdcs := [(31, { gate := some { start := 0, len := 1, number := 0, counted := false } })] }, 15,
      { start := 0, len := 1, number := 0, counted := false }, by decide +kernel, by decide +kernel, by decide +kernel⟩,
   ⟨State.reset, 15, true, 2621439, by decide +kernel⟩,
   ⟨cfg [(R.TDC_IN_CFG.EN 15, 1), (R.TDC_IN_CFG.ROLE 15, 1), (R.TDC_IN_CFG.PRESCALE 15, 1)], 15, true, 0, by decide +kernel,
      by decide +kernel⟩,
   ⟨State.reset, .fw, 15, 0, by unfold Writable; decide +kernel⟩,
   ⟨State.reset, .fw, 0, by unfold Writable; decide +kernel⟩⟩

theorem test_flightAndUnitCommandsAct :
    (∃ (s : State) (p : Path) (f : Fin 16), Writable s p (R.FL_CTL f)) ∧
    (∃ (s : State) (f : Fin 16) (t : Nat), (s.flight f).armAt = some t ∧ s.flState f = 1 ∧ t < s.time + nsUnits 40) ∧
    (∃ (s : State) (f : Fin 16) (u : Nat), s.flightNext f = some (u, .timeout) ∧ s.flightDueAt f .timeout = some u ∧ u ≤ s.advU 0 ∧
      ((s.timeoutChamber f u).flightNext f).all (fun x => decide (fabCycle u < fabCycle x.1)) = true) ∧
    (∃ (s : State) (sel : Fin 512) (sub : Fin 2621440) (o : Occ) (rest : List Occ), sel.val ≠ 0xF1 ∧
      takeFirst (fun o => o.sel == sel.val) s.occs = some (o, rest)) ∧
    (∃ (s : State) (f : Fin 16) (u : Nat), s.flightNext f = some (u, .holdoff) ∧ s.flightDueAt f .holdoff = some u ∧ u ≤ s.advU 0 ∧
      ((s.enterArmed f u).flightNext f).all (fun x => decide (fabCycle u < fabCycle x.1)) = true) ∧
    (∃ (s : State) (f : Fin 16) (u : Nat), s.flightNext f = some (u, .auto) ∧ s.flightDueAt f .auto = some u ∧ u ≤ s.advU 0 ∧
      ((s.fire f u (s.timeAtU u) (s.qual 2) 0x1FF true).flightNext f).all (fun x => decide (fabCycle u < fabCycle x.1)) = true) ∧
    (∃ (s : State) (p : Path) (u : Fin 16) (en : Bool), Writable s p (R.CU_CTL.EN u).key) ∧
    (∃ (s : State) (p : Path) (u : Fin 16), Writable s p (R.CU_CTL u) ∧ (s.cu u).stopAt ≠ some s.time) ∧
    (∃ (s : State) (p : Path) (u : Fin 16), Writable s p (R.CU_CTL u) ∧ (s.cu u).stopAt = some s.time) ∧
    (∃ (s : State) (p : Path) (u : Fin 16) (off : Fin 0x80000) (bs : List Byte),
      Writable s p ((0x800000 + u * 0x80000 + off) / 4 * 4) ∧ accessOk (0x800000 + u * 0x80000 + off) bs.length true = true) ∧
    (∃ (s : State) (p : Path) (u : Fin 16) (off : Fin 0x80000) (bs : List Byte),
      Writable s p ((0x800000 + u * 0x80000 + off) / 4 * 4) ∧ accessOk (0x800000 + u * 0x80000 + off) bs.length true = false) ∧
    (∃ (s : State) (u : Fin 16), s.cuState u = 1 ∧ (s.cu u).wakeAt + 1000 ≤ s.ns ∧ s.unitsBarred = false) ∧
    (∃ (s : State) (u : Fin 16), s.cuRuns u = true ∧ 0 < (s.cu u).period ∧
      (s.cu u).runAt + ((s.cu u).expiries + 1) * (s.cu u).period ≤ s.adv) ∧
    (∃ (s : State) (u : Fin 16) (c : Nat) (n : Nat), s.cuDue? u = some (.event c) ∧ s.cuState u = 3) ∧
    (∃ (s : State) (u : Fin 16) (c : Nat) (n : Nat), s.cuState u = 4 ∧ (s.cuDue? u).isSome = true ∧
      (s.cuCycles u n).cuDue? u = some (.event c)) ∧
    (∃ (s : State) (u : Fin 16) (f n : Nat), s.cuState u ≠ 4 ∧ s.cuDue? u = some (.fault f)) ∧
    (∃ (s : State) (u : Fin 16) (k : CuCopy) (t : List CuCopy), (s.cu u).copies = k :: t) ∧
    (∃ (s : State) (u : Fin 16) (x : CuSend) (t : List CuSend), (s.cu u).sends = x :: t) ∧
    (∃ (s : State) (ring index : Nat) (o : Order), s.order? (ring, index) = some o ∧ o.u 17 1 = 1 ∧ ofTime96 (o.u 20 12) ≤ s.time ∧
      o.opcode = 0x0602) ∧
    (∃ (s : State) (ring index : Nat) (o : Order), s.order? (ring, index) = some o ∧ o.u 17 1 = 1 ∧ ofTime96 (o.u 20 12) ≤ s.time ∧
      o.opcode = 0x0603 ∧ o.phase = .pending) :=
  ⟨⟨State.reset, .fw, 15, by unfold Writable; decide +kernel⟩,
   ⟨{ cfg [(R.FL_STATUS.STATE 15, 1)] with flights := [(15, { armAt := some 0 })] }, 15, 0, by decide +kernel, by decide +kernel,
      by decide +kernel⟩,
   ⟨atTick 1 (cfg [(R.FL_STATUS.STATE 15, 3), (R.FL_CH_TMO.TIMEOUT 15 0, 40)]), 15, nsUnits 40, by decide +kernel,
      by decide +kernel, by decide +kernel, by decide +kernel⟩,
   ⟨{ State.reset with occs := [{ sel := 0xF0, stamp := 0 }] }, 0xF0, 0, { sel := 0xF0, stamp := 0 }, [], by decide +kernel,
      by decide +kernel⟩,
   ⟨cfg [(R.FL_STATUS.STATE 15, 4)], 15, 0, by decide +kernel, by decide +kernel, by decide +kernel, by decide +kernel⟩,
   ⟨cfg [(R.FL_CFG.AUTO_EN 15, 1), (R.FL_STATUS.STATE 15, 2)], 15, 0, by decide +kernel, by decide +kernel, by decide +kernel,
      by decide +kernel⟩,
   ⟨State.reset, .fw, 15, true, by unfold Writable; decide +kernel⟩,
   ⟨State.reset, .fw, 15, by unfold Writable; decide +kernel, by decide +kernel⟩,
   ⟨{ State.reset with cus := [(15, { stopAt := some 0 })] }, .fw, 15, by unfold Writable; decide +kernel, by decide +kernel⟩,
   ⟨State.reset, .fw, 15, 0x7FFFF, [0], by unfold Writable; decide +kernel, by decide +kernel⟩,
   ⟨State.reset, .fw, 15, 0x7FFFF, [], by unfold Writable; decide +kernel, by decide +kernel⟩,
   ⟨atTick 25 (cfg [(R.CU_STATUS.STATE 15, 1)]), 15, by decide +kernel, by decide +kernel, by decide +kernel⟩,
   ⟨{ atTick 1 (cfg [(R.CU_STATUS.STATE 15, 5)]) with cus := [(15, { period := 40 })] }, 15, by decide +kernel, by decide +kernel,
      by decide +kernel⟩,
   ⟨{ cfg [(R.CU_STATUS.STATE 15, 3), (R.CU_EVCFG.EVEN 15, 255)] with cus := [(15, { pending := 128 })] }, 15, 7, 0,
      by decide +kernel, by decide +kernel⟩,
   ⟨{ cfg [(R.CU_STATUS.STATE 15, 4), (R.CU_EVCFG.EVEN 15, 255)] with cus := [(15, { pending := 128 })] }, 15, 7, 0,
      by decide +kernel, by decide +kernel, by decide +kernel⟩,
   ⟨{ cfg [(R.CU_STATUS.STATE 15, 3)] with cus := [(15, { fault := some 1 })] }, 15, 1, 0, by decide +kernel, by decide +kernel⟩,
   ⟨{ cfg [(R.CU_STATUS.STATE 15, 3)] with cus := [(15, { copies := [⟨0, 0, []⟩] })] }, 15, ⟨0, 0, []⟩, [], by decide +kernel⟩,
   ⟨{ cfg [(R.CU_STATUS.STATE 15, 3)] with cus := [(15, { sends := [⟨0, 0, 0⟩] })] }, 15, ⟨0, 0, 0⟩, [], by decide +kernel⟩,
   ⟨standing (orderOf 0x0602 [(17, 1, 1)]), 0, 0, orderOf 0x0602 [(17, 1, 1)], by decide +kernel, by decide +kernel,
      by decide +kernel, by decide +kernel⟩,
   ⟨standing (orderOf 0x0603 [(17, 1, 1)]), 0, 0, orderOf 0x0603 [(17, 1, 1)], by decide +kernel, by decide +kernel,
      by decide +kernel, by decide +kernel, by decide +kernel⟩⟩

theorem test_probeLaneCommandsAct :
    (∃ (s : State) (p : Path) (w : Word), Writable s p R.PROBE_GROUPS) ∧
    (∃ (s : State) (p : Path) (n : Fin 16) (en : Bool), Writable s p (R.PROBE_LANE.EN n).key) ∧
    (∃ (s : State) (p : Path) (v : Fin 8) (w : Word), Writable s p (R.VC_CFG v)) ∧
    (∃ (s : State) (n : Fin 16), s.pState n = 1 ∧ (s.pLane n).trainSince + 20000000 ≤ s.ns) ∧
    (∃ (s : State) (n : Fin 16), s.lkUp 3 = true ∧ s.pState n = 1 ∧ s.ns ≤ (s.pLane n).trainSince + 20000000) ∧
    (∃ (s : State) (n : Fin 16), s.lkUp 3 = true ∧ s.pState n = 2) ∧
    (∃ (s : State) (n : Fin 16) (width : Fin 16) (pclk : Word), s.lkUp 3 = true ∧ s.pState n = 3 ∧ width.val = s.groupWidth n % 16) ∧
    (∃ (s : State) (n : Fin 16), s.pState n = 4 ∧ s.get R.PROBE_CTL.ERR_LIMIT ≠ 0 ∧
      s.get R.PROBE_CTL.ERR_LIMIT < ((s.pLane n).crcs.filter (fun t => decide (s.adv < t + 1000000000))).length) ∧
    (∃ (s : State) (n : Fin 16), s.pState n = 3 ∧ (s.pLane n).beaconAt = none) ∧
    (∃ (s : State) (n : Fin 16), s.pState n = 4 ∧ (s.pLane n).beaconAt = none ∧ s.stimDue (s.probeGroupOf n) = false) ∧
    (∃ (s : State) (n : Fin 16), (s.pGroup (s.probeGroupOf n)).window.any (fun h => decide (h.at_ + nsUnits 2000 ≤ s.advU 0)) = true) ∧
    (∃ (s : State) (n : Fin 16) (f : ProbeFrame) (sub : Fin 2621440) (turn : Nat), s.pState n = 4 ∧ time96Ok f.stamp.toNat = true ∧
      (s.pLane n).beacons.find? (fun b => b.1 == f.word.toNat) = none) ∧
    (∃ (s : State) (n : Fin 16) (f : ProbeFrame) (sub : Fin 2621440) (turn : Nat) (b : Nat × Nat), s.pState n = 4 ∧
      time96Ok f.stamp.toNat = true ∧ (s.pLane n).beacons.find? (fun b => b.1 == f.word.toNat) = some b) :=
  ⟨⟨State.reset, .fw, 0, by unfold Writable; decide +kernel⟩,
   ⟨State.reset, .fw, 15, true, by unfold Writable; decide +kernel⟩,
   ⟨State.reset, .fw, 7, 0, by unfold Writable; decide +kernel⟩,
   ⟨atTick 500000 (cfg [(R.PROBE_LANE.STATE 15, 1)]), 15, by decide +kernel, by decide +kernel⟩,
   ⟨cfg [(R.PROBE_LANE.STATE 15, 1), (R.LK_STATUS.STATE 3, 2)], 15, by decide +kernel, by decide +kernel, by decide +kernel⟩,
   ⟨cfg [(R.PROBE_LANE.STATE 15, 2), (R.LK_STATUS.STATE 3, 2)], 15, by decide +kernel, by decide +kernel⟩,
   ⟨cfg [(R.PROBE_LANE.STATE 15, 3), (R.LK_STATUS.STATE 3, 2)], 15, 1, 0, by decide +kernel, by decide +kernel, by decide +kernel⟩,
   ⟨{ cfg [(R.PROBE_LANE.STATE 15, 4), (R.PROBE_CTL.ERR_LIMIT, 1)] with probe := { lanes := [(15, { crcs := [0, 0] })] } }, 15,
      by decide +kernel, by decide +kernel, by decide +kernel⟩,
   ⟨cfg [(R.PROBE_LANE.STATE 15, 3)], 15, by decide +kernel, by decide +kernel⟩,
   ⟨cfg [(R.PROBE_LANE.STATE 15, 4)], 15, by decide +kernel, by decide +kernel, by decide +kernel⟩,
   ⟨{ atTick 50 (cfg [(R.PROBE_LANE.STATE 15, 4)]) with probe := { groups := [(15, { window := [⟨1, 0, 0, 15, { chan := 0, gseq := 0, word := 0 }⟩] })] } },
      15, by decide +kernel⟩,
   ⟨cfg [(R.PROBE_LANE.STATE 15, 4)], 15, { chan := 0, gseq := 0, word := 0 }, 0, 0, by decide +kernel, by decide +kernel,
      by decide +kernel⟩,
   ⟨{ cfg [(R.PROBE_LANE.STATE 15, 4)] with probe := { lanes := [(15, { beacons := [(0, 5)] })] } }, 15,
      { chan := 0, gseq := 0, word := 0 }, 0, 0, (0, 5), by decide +kernel, by decide +kernel, by decide +kernel⟩⟩

theorem test_probeBridgeCommandsAct :
    (∃ (s : State) (k : Fin 16), (s.pSet k).rows ≠ 0 ∧ (s.pSet k).since + 1000 * max 1 (s.get R.PROBE_CTL.CLOSE_US) ≤ s.adv) ∧
    (∃ (s : State) (b : Fin 8) (qb : QBarge) (g : Nat), s.on (R.BP_CFG.EN b) = true ∧ g = s.get (R.BP_CFG.GROUP b) ∧
      s.groupUp g = true ∧ s.stimDue g = false ∧ s.frontBarge? (s.get (R.BP_CFG.QUEUE b)) = some qb ∧
      qb.barge.stream ≠ (s.bp b).stream.getD qb.barge.stream) ∧
    (∃ (s : State) (b : Fin 8) (qb : QBarge) (g : Nat), s.on (R.BP_CFG.EN b) = true ∧ g = s.get (R.BP_CFG.GROUP b) ∧
      s.groupUp g = true ∧ s.stimDue g = false ∧ s.frontBarge? (s.get (R.BP_CFG.QUEUE b)) = some qb ∧
      qb.barge.stream = (s.bp b).stream.getD qb.barge.stream ∧ qb.barge.isMark = true ∧ qb.barge.format % 256 ≠ mkGap) ∧
    (∃ (s : State) (p : Path) (b : Fin 8) (w : Word), Writable s p (R.BP_CFG b)) ∧
    (∃ (s : State) (p : Path) (g : Fin 4) (w : Word), Writable s p (R.EG_CFG g)) ∧
    (∃ (s : State) (g : Fin 4) (n fmt : Nat) (xs : List (Int × Int)) (rest : List (Nat × Nat × List (Int × Int))),
      (s.sg (g + 4)).out = (n, fmt, xs) :: rest ∧ s.sgBall (g + 4) n < s.time + nsUnits 40) ∧
    (∃ (s : State) (ring index : Nat) (x : ProbeSub) (rest : List ProbeSub), takeFirst (fun x => x.order == (ring,
      index)) s.probe.subs = some (x, rest) ∧ x.sentAt + 10000000 ≤ s.adv) :=
  ⟨⟨{ atTick 25000000 State.reset with probe := { sets := [(15, { rows := 1 })] } }, 15, by decide +kernel, by decide +kernel⟩,
   ⟨{ cfg [(R.BP_CFG.EN 7, 1), (R.PROBE_LANE.STATE 0, 4), (R.QUEUE_STAT.STATE 0, 1)] with queues := [(0, { barges := [{ barge := dataBarge, cells := [], total := 0 }] })], probe := { ports := [(7, { stream := some 5 })] } },
      7, { barge := dataBarge, cells := [], total := 0 }, _, by decide +kernel, rfl, by decide +kernel, by decide +kernel,
      by decide +kernel, by decide +kernel⟩,
   ⟨{ cfg [(R.BP_CFG.EN 7, 1), (R.PROBE_LANE.STATE 0, 4), (R.QUEUE_STAT.STATE 0, 1)] with queues := [(0, { barges := [{ barge := markBarge, cells := [], total := 0 }] })] },
      7, { barge := markBarge, cells := [], total := 0 }, _, by decide +kernel, rfl, by decide +kernel, by decide +kernel,
      by decide +kernel, by decide +kernel, by decide +kernel, by decide +kernel⟩,
   ⟨State.reset, .fw, 7, 0, by unfold Writable; decide +kernel⟩,
   ⟨State.reset, .fw, 3, 0, by unfold Writable; decide +kernel⟩,
   ⟨{ State.reset with sgs := [(7, { out := [(0, 3, [])] })] }, 3, 0, 3, [], [], by decide +kernel, by decide +kernel⟩,
   ⟨{ atTick 250000 State.reset with probe := { subs := [⟨(0, 0), 0, 0, 0, [], 0⟩] } }, 0, 0, ⟨(0, 0), 0, 0, 0, [], 0⟩, [],
      by decide +kernel, by decide +kernel⟩⟩

theorem test_unitArithmeticCommandsAct :
    (∃ (s : State) (u : Fin 16) (i : State) (c : CuSlot), IssuesA s u 0x01 ∧ i = atIssue s u ∧ c = nextA s u) ∧
    (∃ (s : State) (u : Fin 16) (i : State) (c : CuSlot), IssuesA s u 0x02 ∧ i = atIssue s u ∧ c = nextA s u) ∧
    (∃ (s : State) (u : Fin 16) (i : State) (c : CuSlot), IssuesA s u 0x03 ∧ i = atIssue s u ∧ c = nextA s u) ∧
    (∃ (s : State) (u : Fin 16) (i : State) (c : CuSlot), IssuesA s u 0x04 ∧ i = atIssue s u ∧ c = nextA s u) ∧
    (∃ (s : State) (u : Fin 16) (i : State) (c : CuSlot), IssuesA s u 0x05 ∧ i = atIssue s u ∧ c = nextA s u) ∧
    (∃ (s : State) (u : Fin 16) (i : State) (c : CuSlot), IssuesA s u 0x06 ∧ i = atIssue s u ∧ c = nextA s u) ∧
    (∃ (s : State) (u : Fin 16) (i : State) (c : CuSlot), IssuesA s u 0x07 ∧ i = atIssue s u ∧ c = nextA s u) ∧
    (∃ (s : State) (u : Fin 16) (i : State) (c : CuSlot), IssuesA s u 0x08 ∧ i = atIssue s u ∧ c = nextA s u) ∧
    (∃ (s : State) (u : Fin 16) (i : State) (c : CuSlot), IssuesA s u 0x0A ∧ i = atIssue s u ∧ c = nextA s u) ∧
    (∃ (s : State) (u : Fin 16) (i : State) (c : CuSlot), IssuesA s u 0x0B ∧ i = atIssue s u ∧ c = nextA s u) ∧
    (∃ (s : State) (u : Fin 16) (i : State) (c : CuSlot), IssuesA s u 0x10 ∧ i = atIssue s u ∧ c = nextA s u) ∧
    (∃ (s : State) (u : Fin 16) (i : State) (c : CuSlot), IssuesA s u 0x11 ∧ i = atIssue s u ∧ c = nextA s u) ∧
    (∃ (s : State) (u : Fin 16) (i : State) (c : CuSlot), IssuesA s u 0x12 ∧ i = atIssue s u ∧ c = nextA s u) ∧
    (∃ (s : State) (u : Fin 16) (i : State) (c : CuSlot), IssuesA s u 0x13 ∧ i = atIssue s u ∧ c = nextA s u) ∧
    (∃ (s : State) (u : Fin 16) (i : State) (c : CuSlot), IssuesA s u 0x14 ∧ i = atIssue s u ∧ c = nextA s u) ∧
    (∃ (s : State) (u : Fin 16) (i : State) (c : CuSlot), IssuesA s u 0x15 ∧ i = atIssue s u ∧ c = nextA s u) ∧
    (∃ (s : State) (u : Fin 16) (i : State) (c : CuSlot), IssuesA s u 0x16 ∧ i = atIssue s u ∧ c = nextA s u) ∧
    (∃ (s : State) (u : Fin 16) (i : State) (c : CuSlot), IssuesA s u 0x09 ∧ i = atIssue s u ∧ c = nextA s u) ∧
    (∃ (s : State) (u : Fin 16), s.cuReady u = true ∧ hasA 0 (s.cuNext u) = true) ∧
    (∃ (s : State) (u : Fin 16), s.cuReady u = true ∧ hasB 0 (s.cuNext u) = true) ∧
    (∃ (s : State) (u : Fin 16), s.cuReady u = true ∧ bundleOk (s.cuNext u) = false) :=
  ⟨⟨issuing (0x01 * 2 ^ 26) 0, 0, _, _, by unfold IssuesA; decide +kernel, rfl, rfl⟩,
   ⟨issuing (0x02 * 2 ^ 26) 0, 0, _, _, by unfold IssuesA; decide +kernel, rfl, rfl⟩,
   ⟨issuing (0x03 * 2 ^ 26) 0, 0, _, _, by unfold IssuesA; decide +kernel, rfl, rfl⟩,
   ⟨issuing (0x04 * 2 ^ 26) 0, 0, _, _, by unfold IssuesA; decide +kernel, rfl, rfl⟩,
   ⟨issuing (0x05 * 2 ^ 26) 0, 0, _, _, by unfold IssuesA; decide +kernel, rfl, rfl⟩,
   ⟨issuing (0x06 * 2 ^ 26) 0, 0, _, _, by unfold IssuesA; decide +kernel, rfl, rfl⟩,
   ⟨issuing (0x07 * 2 ^ 26) 0, 0, _, _, by unfold IssuesA; decide +kernel, rfl, rfl⟩,
   ⟨issuing (0x08 * 2 ^ 26) 0, 0, _, _, by unfold IssuesA; decide +kernel, rfl, rfl⟩,
   ⟨issuing (0x0A * 2 ^ 26) 0, 0, _, _, by unfold IssuesA; decide +kernel, rfl, rfl⟩,
   ⟨issuing (0x0B * 2 ^ 26) 0, 0, _, _, by unfold IssuesA; decide +kernel, rfl, rfl⟩,
   ⟨issuing (0x10 * 2 ^ 26) 0, 0, _, _, by unfold IssuesA; decide +kernel, rfl, rfl⟩,
   ⟨issuing (0x11 * 2 ^ 26) 0, 0, _, _, by unfold IssuesA; decide +kernel, rfl, rfl⟩,
   ⟨issuing (0x12 * 2 ^ 26) 0, 0, _, _, by unfold IssuesA; decide +kernel, rfl, rfl⟩,
   ⟨issuing (0x13 * 2 ^ 26) 0, 0, _, _, by unfold IssuesA; decide +kernel, rfl, rfl⟩,
   ⟨issuing (0x14 * 2 ^ 26) 0, 0, _, _, by unfold IssuesA; decide +kernel, rfl, rfl⟩,
   ⟨issuing (0x15 * 2 ^ 26) 0, 0, _, _, by unfold IssuesA; decide +kernel, rfl, rfl⟩,
   ⟨issuing (0x16 * 2 ^ 26) 0, 0, _, _, by unfold IssuesA; decide +kernel, rfl, rfl⟩,
   ⟨issuing (0x09 * 2 ^ 26) 0, 0, _, _, by unfold IssuesA; decide +kernel, rfl, rfl⟩,
   ⟨issuing 0 0, 0, by decide +kernel, by decide +kernel⟩,
   ⟨issuing 0 0, 0, by decide +kernel, by decide +kernel⟩,
   ⟨issuing (0x3F * 2 ^ 26) 0, 0, by decide +kernel, by decide +kernel⟩⟩

theorem test_unitMemoryCommandsAct :
    (∃ (s : State) (u : Fin 16) (i : State) (c : CuSlot), IssuesA s u 0x18 ∧ i = atIssue s u ∧ c = nextA s u ∧
      accessBad (i.cuAddr c) 4 4 = false) ∧
    (∃ (s : State) (u : Fin 16) (i : State) (c : CuSlot), IssuesA s u 0x18 ∧ i = atIssue s u ∧ c = nextA s u ∧
      accessBad (i.cuAddr c) 4 4 = true) ∧
    (∃ (s : State) (u : Fin 16) (i : State) (c : CuSlot), IssuesA s u 0x1C ∧ i = atIssue s u ∧ c = nextA s u ∧
      accessBad (i.cuAddr c) 12 4 = false) ∧
    (∃ (s : State) (u : Fin 16) (i : State) (c : CuSlot), IssuesA s u 0x1C ∧ i = atIssue s u ∧ c = nextA s u ∧
      accessBad (i.cuAddr c) 12 4 = true) ∧
    (∃ (s : State) (u : Fin 16) (i : State) (c : CuSlot) (n : Nat), IssuesA s u 0x1A ∧ i = atIssue s u ∧ c = nextA s u ∧
      n = (if c.q18 then 32 else 16) ∧ accessBad (i.cuAddr c) n n = false) ∧
    (∃ (s : State) (u : Fin 16) (i : State) (c : CuSlot) (n : Nat), IssuesA s u 0x1A ∧ i = atIssue s u ∧ c = nextA s u ∧
      n = (if c.q18 then 32 else 16) ∧ accessBad (i.cuAddr c) n n = true) ∧
    (∃ (s : State) (u : Fin 16) (i : State) (c : CuSlot) (bs : List Byte), IssuesA s u 0x19 ∧ i = atIssue s u ∧ c = nextA s u ∧
      bs = leBytes 4 ((i.bank c.u c.bank).xr c.xd).toNat ∧ accessBad (i.cuAddr c) bs.length 4 = false) ∧
    (∃ (s : State) (u : Fin 16) (i : State) (c : CuSlot) (bs : List Byte), IssuesA s u 0x19 ∧ i = atIssue s u ∧ c = nextA s u ∧
      bs = leBytes 4 ((i.bank c.u c.bank).xr c.xd).toNat ∧ accessBad (i.cuAddr c) bs.length 4 = true) ∧
    (∃ (s : State) (u : Fin 16) (i : State) (c : CuSlot) (bs : List Byte), IssuesA s u 0x1D ∧ i = atIssue s u ∧ c = nextA s u ∧
      bs = leBytes 12 (i.bank c.u c.bank).stamp ∧ accessBad (i.cuAddr c) bs.length 4 = false) ∧
    (∃ (s : State) (u : Fin 16) (i : State) (c : CuSlot) (bs : List Byte), IssuesA s u 0x1D ∧ i = atIssue s u ∧ c = nextA s u ∧
      bs = leBytes 12 (i.bank c.u c.bank).stamp ∧ accessBad (i.cuAddr c) bs.length 4 = true) ∧
    (∃ (s : State) (u : Fin 16) (i : State) (c : CuSlot) (bs : List Byte), IssuesA s u 0x1B ∧ i = atIssue s u ∧ c = nextA s u ∧
      bs = elementBytes c.q18 ((i.bank c.u c.bank).vr c.xd) ∧ accessBad (i.cuAddr c) bs.length (if c.q18 then 32 else 16) = false) ∧
    (∃ (s : State) (u : Fin 16) (i : State) (c : CuSlot) (bs : List Byte), IssuesA s u 0x1B ∧ i = atIssue s u ∧ c = nextA s u ∧
      bs = elementBytes c.q18 ((i.bank c.u c.bank).vr c.xd) ∧ accessBad (i.cuAddr c) bs.length (if c.q18 then 32 else 16) = true) :=
  ⟨⟨issuing (0x18 * 2 ^ 26) 0, 0, _, _, by unfold IssuesA; decide +kernel, rfl, rfl, by decide +kernel⟩,
   ⟨issuing (0x18 * 2 ^ 26 + 2) 0, 0, _, _, by unfold IssuesA; decide +kernel, rfl, rfl, by decide +kernel⟩,
   ⟨issuing (0x1C * 2 ^ 26) 0, 0, _, _, by unfold IssuesA; decide +kernel, rfl, rfl, by decide +kernel⟩,
   ⟨issuing (0x1C * 2 ^ 26 + 2) 0, 0, _, _, by unfold IssuesA; decide +kernel, rfl, rfl, by decide +kernel⟩,
   ⟨issuing (0x1A * 2 ^ 26) 0, 0, _, _, _, by unfold IssuesA; decide +kernel, rfl, rfl, rfl, by decide +kernel⟩,
   ⟨issuing (0x1A * 2 ^ 26 + 2) 0, 0, _, _, _, by unfold IssuesA; decide +kernel, rfl, rfl, rfl, by decide +kernel⟩,
   ⟨issuing (0x19 * 2 ^ 26) 0, 0, _, _, _, by unfold IssuesA; decide +kernel, rfl, rfl, rfl, by decide +kernel⟩,
   ⟨issuing (0x19 * 2 ^ 26 + 2) 0, 0, _, _, _, by unfold IssuesA; decide +kernel, rfl, rfl, rfl, by decide +kernel⟩,
   ⟨issuing (0x1D * 2 ^ 26) 0, 0, _, _, _, by unfold IssuesA; decide +kernel, rfl, rfl, rfl, by decide +kernel⟩,
   ⟨issuing (0x1D * 2 ^ 26 + 2) 0, 0, _, _, _, by unfold IssuesA; decide +kernel, rfl, rfl, rfl, by decide +kernel⟩,
   ⟨issuing (0x1B * 2 ^ 26) 0, 0, _, _, _, by unfold IssuesA; decide +kernel, rfl, rfl, rfl, by decide +kernel⟩,
   ⟨issuing (0x1B * 2 ^ 26 + 2) 0, 0, _, _, _, by unfold IssuesA; decide +kernel, rfl, rfl, rfl, by decide +kernel⟩⟩

theorem test_unitControlCommandsAct :
    (∃ (s : State) (u : Fin 16) (i : State) (c : CuSlot), IssuesA s u 0x20 ∧ i = atIssue s u ∧ c = nextA s u ∧ i.cuBarred c = false) ∧
    (∃ (s : State) (u : Fin 16) (i : State) (c : CuSlot), IssuesA s u 0x20 ∧ i = atIssue s u ∧ c = nextA s u ∧ i.cuBarred c = true) ∧
    (∃ (s : State) (u : Fin 16) (i : State) (c : CuSlot), IssuesA s u 0x21 ∧ i = atIssue s u ∧ c = nextA s u ∧ i.cuBarred c = false) ∧
    (∃ (s : State) (u : Fin 16) (i : State) (c : CuSlot), IssuesA s u 0x21 ∧ i = atIssue s u ∧ c = nextA s u ∧ i.cuBarred c = true) ∧
    (∃ (s : State) (u : Fin 16) (i : State) (c : CuSlot), IssuesA s u 0x22 ∧ i = atIssue s u ∧ c = nextA s u ∧ i.cuBarred c = false) ∧
    (∃ (s : State) (u : Fin 16) (i : State) (c : CuSlot), IssuesA s u 0x22 ∧ i = atIssue s u ∧ c = nextA s u ∧ i.cuBarred c = true) ∧
    (∃ (s : State) (u : Fin 16) (i : State) (c : CuSlot), IssuesA s u 0x23 ∧ i = atIssue s u ∧ c = nextA s u ∧ i.cuBarred c = false) ∧
    (∃ (s : State) (u : Fin 16) (i : State) (c : CuSlot), IssuesA s u 0x23 ∧ i = atIssue s u ∧ c = nextA s u ∧ i.cuBarred c = true) ∧
    (∃ (s : State) (u : Fin 16) (i : State) (c : CuSlot), IssuesA s u 0x24 ∧ i = atIssue s u ∧ c = nextA s u ∧ i.cuBarred c = false) ∧
    (∃ (s : State) (u : Fin 16) (i : State) (c : CuSlot), IssuesA s u 0x24 ∧ i = atIssue s u ∧ c = nextA s u ∧ i.cuBarred c = true) ∧
    (∃ (s : State) (u : Fin 16) (i : State) (c : CuSlot), IssuesA s u 0x25 ∧ i = atIssue s u ∧ c = nextA s u ∧ i.cuBarred c = false) ∧
    (∃ (s : State) (u : Fin 16) (i : State) (c : CuSlot), IssuesA s u 0x25 ∧ i = atIssue s u ∧ c = nextA s u ∧ i.cuBarred c = true) ∧
    (∃ (s : State) (u : Fin 16) (i : State) (c : CuSlot), IssuesA s u 0x26 ∧ i = atIssue s u ∧ c = nextA s u ∧ i.cuBarred c = false) ∧
    (∃ (s : State) (u : Fin 16) (i : State) (c : CuSlot), IssuesA s u 0x26 ∧ i = atIssue s u ∧ c = nextA s u ∧ i.cuBarred c = true) ∧
    (∃ (s : State) (u : Fin 16) (i : State) (c : CuSlot), IssuesA s u 0x28 ∧ i = atIssue s u ∧ c = nextA s u ∧ c.bank = 0 ∧
      i.cuBarred c = false) ∧
    (∃ (s : State) (u : Fin 16) (i : State) (c : CuSlot), IssuesA s u 0x28 ∧ i = atIssue s u ∧ c = nextA s u ∧ i.cuBarred c = true) ∧
    (∃ (s : State) (u : Fin 16) (i : State) (c : CuSlot), IssuesA s u 0x28 ∧ i = atIssue s u ∧ c = nextA s u ∧ c.bank ≠ 0) ∧
    (∃ (s : State) (u : Fin 16) (i : State) (c : CuSlot), IssuesA s u 0x29 ∧ i = atIssue s u ∧ c = nextA s u ∧ c.bank = 1 ∧
      i.cuBarred c = false) ∧
    (∃ (s : State) (u : Fin 16) (i : State) (c : CuSlot), IssuesA s u 0x29 ∧ i = atIssue s u ∧ c = nextA s u ∧ i.cuBarred c = true) ∧
    (∃ (s : State) (u : Fin 16) (i : State) (c : CuSlot), IssuesA s u 0x29 ∧ i = atIssue s u ∧ c = nextA s u ∧ c.bank ≠ 1) ∧
    (∃ (s : State) (u : Fin 16) (i : State) (c : CuSlot), IssuesA s u 0x2A ∧ i = atIssue s u ∧ c = nextA s u ∧ i.cuBarred c = false) ∧
    (∃ (s : State) (u : Fin 16) (i : State) (c : CuSlot), IssuesA s u 0x2A ∧ i = atIssue s u ∧ c = nextA s u ∧ i.cuBarred c = true) ∧
    (∃ (s : State) (u : Fin 16) (x : State) (c : CuSlot), IssuesB s u 0x1F ∧ x = afterA s u ∧ c = nextB s u ∧ x.cuBarred c = false ∧
      (x.bank c.u c.bank).loops.length < 2 ∧ (x.xa c).toNat % 65536 = 0) ∧
    (∃ (s : State) (u : Fin 16) (x : State) (c : CuSlot), IssuesB s u 0x1F ∧ x = afterA s u ∧ c = nextB s u ∧ x.cuBarred c = false ∧
      (x.bank c.u c.bank).loops.length < 2 ∧ (x.xa c).toNat % 65536 ≠ 0) :=
  ⟨⟨issuing (0x20 * 2 ^ 26) 0, 0, _, _, by unfold IssuesA; decide +kernel, rfl, rfl, by decide +kernel⟩,
   ⟨{ cfg [(R.CU_STATUS.STATE 0, 3)] with cus := [(0, { prog := [(0, BitVec.ofNat 64 (0 * 2 ^ 32 + (0x20 * 2 ^ 26)))], b0 := { delay := 1, target := some 0 } })] },
      0, _, _, by unfold IssuesA; decide +kernel, rfl, rfl, by decide +kernel⟩,
   ⟨issuing (0x21 * 2 ^ 26) 0, 0, _, _, by unfold IssuesA; decide +kernel, rfl, rfl, by decide +kernel⟩,
   ⟨{ cfg [(R.CU_STATUS.STATE 0, 3)] with cus := [(0, { prog := [(0, BitVec.ofNat 64 (0 * 2 ^ 32 + (0x21 * 2 ^ 26)))], b0 := { delay := 1, target := some 0 } })] },
      0, _, _, by unfold IssuesA; decide +kernel, rfl, rfl, by decide +kernel⟩,
   ⟨issuing (0x22 * 2 ^ 26) 0, 0, _, _, by unfold IssuesA; decide +kernel, rfl, rfl, by decide +kernel⟩,
   ⟨{ cfg [(R.CU_STATUS.STATE 0, 3)] with cus := [(0, { prog := [(0, BitVec.ofNat 64 (0 * 2 ^ 32 + (0x22 * 2 ^ 26)))], b0 := { delay := 1, target := some 0 } })] },
      0, _, _, by unfold IssuesA; decide +kernel, rfl, rfl, by decide +kernel⟩,
   ⟨issuing (0x23 * 2 ^ 26) 0, 0, _, _, by unfold IssuesA; decide +kernel, rfl, rfl, by decide +kernel⟩,
   ⟨{ cfg [(R.CU_STATUS.STATE 0, 3)] with cus := [(0, { prog := [(0, BitVec.ofNat 64 (0 * 2 ^ 32 + (0x23 * 2 ^ 26)))], b0 := { delay := 1, target := some 0 } })] },
      0, _, _, by unfold IssuesA; decide +kernel, rfl, rfl, by decide +kernel⟩,
   ⟨issuing (0x24 * 2 ^ 26) 0, 0, _, _, by unfold IssuesA; decide +kernel, rfl, rfl, by decide +kernel⟩,
   ⟨{ cfg [(R.CU_STATUS.STATE 0, 3)] with cus := [(0, { prog := [(0, BitVec.ofNat 64 (0 * 2 ^ 32 + (0x24 * 2 ^ 26)))], b0 := { delay := 1, target := some 0 } })] },
      0, _, _, by unfold IssuesA; decide +kernel, rfl, rfl, by decide +kernel⟩,
   ⟨issuing (0x25 * 2 ^ 26) 0, 0, _, _, by unfold IssuesA; decide +kernel, rfl, rfl, by decide +kernel⟩,
   ⟨{ cfg [(R.CU_STATUS.STATE 0, 3)] with cus := [(0, { prog := [(0, BitVec.ofNat 64 (0 * 2 ^ 32 + (0x25 * 2 ^ 26)))], b0 := { delay := 1, target := some 0 } })] },
      0, _, _, by unfold IssuesA; decide +kernel, rfl, rfl, by decide +kernel⟩,
   ⟨issuing (0x26 * 2 ^ 26) 0, 0, _, _, by unfold IssuesA; decide +kernel, rfl, rfl, by decide +kernel⟩,
   ⟨{ cfg [(R.CU_STATUS.STATE 0, 3)] with cus := [(0, { prog := [(0, BitVec.ofNat 64 (0 * 2 ^ 32 + (0x26 * 2 ^ 26)))], b0 := { delay := 1, target := some 0 } })] },
      0, _, _, by unfold IssuesA; decide +kernel, rfl, rfl, by decide +kernel⟩,
   ⟨issuing (0x28 * 2 ^ 26) 0, 0, _, _, by unfold IssuesA; decide +kernel, rfl, rfl, by decide +kernel, by decide +kernel⟩,
   ⟨{ cfg [(R.CU_STATUS.STATE 0, 3)] with cus := [(0, { prog := [(0, BitVec.ofNat 64 (0 * 2 ^ 32 + (0x28 * 2 ^ 26)))], b0 := { delay := 1, target := some 0 } })] },
      0, _, _, by unfold IssuesA; decide +kernel, rfl, rfl, by decide +kernel⟩,
   ⟨{ cfg [(R.CU_STATUS.STATE 0, 3), (R.CU_STATUS.BANK 0, 1)] with cus := [(0, { prog := [(0, BitVec.ofNat 64 (0 * 2 ^ 32 + (0x28 * 2 ^ 26)))] })] },
      0, _, _, by unfold IssuesA; decide +kernel, rfl, rfl, by decide +kernel⟩,
   ⟨{ cfg [(R.CU_STATUS.STATE 0, 3), (R.CU_STATUS.BANK 0, 1)] with cus := [(0, { prog := [(0, BitVec.ofNat 64 (0 * 2 ^ 32 + (0x29 * 2 ^ 26)))] })] },
      0, _, _, by unfold IssuesA; decide +kernel, rfl, rfl, by decide +kernel, by decide +kernel⟩,
   ⟨{ cfg [(R.CU_STATUS.STATE 0, 3)] with cus := [(0, { prog := [(0, BitVec.ofNat 64 (0 * 2 ^ 32 + (0x29 * 2 ^ 26)))], b0 := { delay := 1, target := some 0 } })] },
      0, _, _, by unfold IssuesA; decide +kernel, rfl, rfl, by decide +kernel⟩,
   ⟨issuing (0x29 * 2 ^ 26) 0, 0, _, _, by unfold IssuesA; decide +kernel, rfl, rfl, by decide +kernel⟩,
   ⟨issuing (0x2A * 2 ^ 26) 0, 0, _, _, by unfold IssuesA; decide +kernel, rfl, rfl, by decide +kernel⟩,
   ⟨{ cfg [(R.CU_STATUS.STATE 0, 3)] with cus := [(0, { prog := [(0, BitVec.ofNat 64 (0 * 2 ^ 32 + (0x2A * 2 ^ 26)))], b0 := { delay := 1, target := some 0 } })] },
      0, _, _, by unfold IssuesA; decide +kernel, rfl, rfl, by decide +kernel⟩,
   ⟨issuing 0 (0x1F * 2 ^ 26), 0, _, _, by unfold IssuesB; decide +kernel, rfl, rfl, by decide +kernel, by decide +kernel,
      by decide +kernel⟩,
   ⟨{ cfg [(R.CU_STATUS.STATE 0, 3)] with cus := [(0, { prog := [(0, BitVec.ofNat 64 ((0x1F * 2 ^ 26 + 262144) * 2 ^ 32 + 0))], b0 := { x := [(1, 1)] } })] },
      0, _, _, by unfold IssuesB; decide +kernel, rfl, rfl, by decide +kernel, by decide +kernel, by decide +kernel⟩⟩

theorem test_unitSystemCommandsAct :
    (∃ (s : State) (u : Fin 16) (i : State) (c : CuSlot), IssuesA s u 0x2B ∧ i = atIssue s u ∧ c = nextA s u) ∧
    (∃ (s : State) (u : Fin 16) (i : State) (c : CuSlot), IssuesA s u 0x2C ∧ i = atIssue s u ∧ c = nextA s u ∧ c.sel = 0) ∧
    (∃ (s : State) (u : Fin 16) (i : State) (c : CuSlot), IssuesA s u 0x2C ∧ i = atIssue s u ∧ c = nextA s u ∧ c.sel = 1) ∧
    (∃ (s : State) (u : Fin 16) (i : State) (c : CuSlot), IssuesA s u 0x2C ∧ i = atIssue s u ∧ c = nextA s u ∧ c.sel = 2) ∧
    (∃ (s : State) (u : Fin 16) (i : State) (c : CuSlot), IssuesA s u 0x2C ∧ i = atIssue s u ∧ c = nextA s u ∧ c.sel = 3) ∧
    (∃ (s : State) (u : Fin 16) (i : State) (c : CuSlot), IssuesA s u 0x2C ∧ i = atIssue s u ∧ c = nextA s u ∧ 3 < c.sel) ∧
    (∃ (s : State) (u : Fin 16) (sub : Fin 2621440) (i : State) (c : CuSlot), IssuesA s u 0x2D ∧ i = atIssue s u ∧ c = nextA s u) ∧
    (∃ (s : State) (u : Fin 16) (sub : Fin 2621440) (i : State) (c : CuSlot), IssuesA s u 0x2E ∧ i = atIssue s u ∧ c = nextA s u ∧
      time96Ok (i.bank c.u c.bank).stamp = true) ∧
    (∃ (s : State) (u : Fin 16) (sub : Fin 2621440) (i : State) (c : CuSlot), IssuesA s u 0x2E ∧ i = atIssue s u ∧ c = nextA s u ∧
      time96Ok (i.bank c.u c.bank).stamp = false) ∧
    (∃ (s : State) (u : Fin 16) (sel : Nat) (i : State) (c : CuSlot), IssuesA s u 0x2F ∧ i = atIssue s u ∧ c = nextA s u ∧
      sel = (i.xa c).toNat % 512) ∧
    (∃ (s : State) (u : Fin 16) (i : State) (c : CuSlot), IssuesA s u 0x30 ∧ i = atIssue s u ∧ c = nextA s u ∧
      i.cuPort? c.u (c.sel % 2) = none) ∧
    (∃ (s : State) (u : Fin 16) (q : Nat) (i : State) (c : CuSlot), IssuesA s u 0x30 ∧ i = atIssue s u ∧ c = nextA s u ∧
      i.cuPort? c.u (c.sel % 2) = some q) ∧
    (∃ (s : State) (u : Fin 16) (i : State) (c : CuSlot), IssuesA s u 0x31 ∧ i = atIssue s u ∧ c = nextA s u ∧
      4 ≤ (i.cu c.u).copies.length) ∧
    (∃ (s : State) (u : Fin 16) (t : CellTag) (i : State) (c : CuSlot), IssuesA s u 0x31 ∧ i = atIssue s u ∧ c = nextA s u ∧
      (i.cu c.u).copies.length < 4 ∧ bit (i.xb c).toNat 31 = true ∧ i.poppedBy? c.u (i.xb c).toNat = some t ∧
      accessBad ((i.xa c).toNat / 256 * 256) 256 256 = false) ∧
    (∃ (s : State) (u : Fin 16) (t : CellTag) (i : State) (c : CuSlot), IssuesA s u 0x32 ∧ i = atIssue s u ∧ c = nextA s u ∧
      i.freeStatus c.u (i.xa c).toNat = 0 ∧ SMap.find? i.cells (handleCell (i.xa c).toNat) = some t) ∧
    (∃ (s : State) (u : Fin 16) (i : State) (c : CuSlot), IssuesA s u 0x33 ∧ i = atIssue s u ∧ c = nextA s u ∧
      4 ≤ (i.cu c.u).sends.length) ∧
    (∃ (s : State) (u : Fin 16) (b : List Byte) (i : State) (c : CuSlot), IssuesA s u 0x33 ∧ i = atIssue s u ∧ c = nextA s u ∧
      (i.cu c.u).sends.length < 4 ∧ b = Mem.reads 0#8 (i.cu c.u).data (i.xa c).toNat 48 ∧ (i.xa c).toNat % 8 = 0 ∧
      (i.xa c).toNat + 48 ≤ cuDataBytes ∧ sendOk b = true) ∧
    (∃ (s : State) (u : Fin 16) (i : State) (c : CuSlot), IssuesA s u 0x34 ∧ i = atIssue s u ∧ c = nextA s u) :=
  ⟨⟨issuing (0x2B * 2 ^ 26) 0, 0, _, _, by unfold IssuesA; decide +kernel, rfl, rfl⟩,
   ⟨issuing (0x2C * 2 ^ 26) 0, 0, _, _, by unfold IssuesA; decide +kernel, rfl, rfl, by decide +kernel⟩,
   ⟨issuing (0x2C * 2 ^ 26 + 1) 0, 0, _, _, by unfold IssuesA; decide +kernel, rfl, rfl, by decide +kernel⟩,
   ⟨issuing (0x2C * 2 ^ 26 + 2) 0, 0, _, _, by unfold IssuesA; decide +kernel, rfl, rfl, by decide +kernel⟩,
   ⟨issuing (0x2C * 2 ^ 26 + 3) 0, 0, _, _, by unfold IssuesA; decide +kernel, rfl, rfl, by decide +kernel⟩,
   ⟨issuing (0x2C * 2 ^ 26 + 7) 0, 0, _, _, by unfold IssuesA; decide +kernel, rfl, rfl, by decide +kernel⟩,
   ⟨issuing (0x2D * 2 ^ 26) 0, 0, 0, _, _, by unfold IssuesA; decide +kernel, rfl, rfl⟩,
   ⟨issuing (0x2E * 2 ^ 26) 0, 0, 0, _, _, by unfold IssuesA; decide +kernel, rfl, rfl, by decide +kernel⟩,
   ⟨{ cfg [(R.CU_STATUS.STATE 0, 3)] with cus := [(0, { prog := [(0, BitVec.ofNat 64 (0 * 2 ^ 32 + (0x2E * 2 ^ 26)))], b0 := { stamp := 1000000000 * 2 ^ 16 } })] },
      0, 2621439, _, _, by unfold IssuesA; decide +kernel, rfl, rfl, by decide +kernel⟩,
   ⟨issuing (0x2F * 2 ^ 26) 0, 0, _, _, _, by unfold IssuesA; decide +kernel, rfl, rfl, rfl⟩,
   ⟨issuing (0x30 * 2 ^ 26 + 1) 0, 0, _, _, by unfold IssuesA; decide +kernel, rfl, rfl, by decide +kernel⟩,
   ⟨{ cfg [(R.CU_STATUS.STATE 0, 3), (R.CU_INQ.EN_P1 0, 1), (R.CU_INQ.Q_P1 0, 4095)] with cus := [(0, { prog := [(0, BitVec.ofNat 64 (0 * 2 ^ 32 + (0x30 * 2 ^ 26 + 1)))] })] },
      0, 4095, _, _, by unfold IssuesA; decide +kernel, rfl, rfl, by decide +kernel⟩,
   ⟨{ cfg [(R.CU_STATUS.STATE 0, 3)] with cus := [(0, { prog := [(0, BitVec.ofNat 64 (0 * 2 ^ 32 + (0x31 * 2 ^ 26)))], copies := [⟨0, 0, []⟩, ⟨0, 0, []⟩, ⟨0, 0, []⟩, ⟨0, 0, []⟩] })] },
      0, _, _, by unfold IssuesA; decide +kernel, rfl, rfl, by decide +kernel⟩,
   ⟨{ cfg [(R.CU_STATUS.STATE 0, 3)] with cus := [(0, { prog := [(0, BitVec.ofNat 64 (0 * 2 ^ 32 + (0x31 * 2 ^ 26 + 16384)))], b0 := { x := [(1, 0x80000000)] } })], cells := [(0, { queue := 0, epoch := 0, popped := true })] },
      0, { queue := 0, epoch := 0, popped := true }, _, _, by unfold IssuesA; decide +kernel, rfl, rfl, by decide +kernel,
      by decide +kernel, by decide +kernel, by decide +kernel⟩,
   ⟨{ cfg [(R.CU_STATUS.STATE 0, 3), (R.CU_INQ.EN_P0 0, 1)] with cus := [(0, { prog := [(0, BitVec.ofNat 64 (0 * 2 ^ 32 + (0x32 * 2 ^ 26)))] })], cells := [(0, { queue := 0, epoch := 0, popped := true })] },
      0, { queue := 0, epoch := 0, popped := true }, _, _, by unfold IssuesA; decide +kernel, rfl, rfl, by decide +kernel,
      by decide +kernel⟩,
   ⟨{ cfg [(R.CU_STATUS.STATE 0, 3)] with cus := [(0, { prog := [(0, BitVec.ofNat 64 (0 * 2 ^ 32 + (0x33 * 2 ^ 26)))], sends := [⟨0, 0, 0⟩, ⟨0, 0, 0⟩, ⟨0, 0, 0⟩, ⟨0, 0, 0⟩] })] },
      0, _, _, by unfold IssuesA; decide +kernel, rfl, rfl, by decide +kernel⟩,
   ⟨issuing (0x33 * 2 ^ 26) 0, 0, _, _, _, by unfold IssuesA; decide +kernel, rfl, rfl, by decide +kernel, rfl, by decide +kernel,
      by decide +kernel, by decide +kernel⟩,
   ⟨issuing (0x34 * 2 ^ 26) 0, 0, _, _, by unfold IssuesA; decide +kernel, rfl, rfl⟩⟩

theorem test_unitVectorCommandsAct :
    (∃ (s : State) (u : Fin 16) (x : State) (c : CuSlot), IssuesB s u 0x01 ∧ x = afterA s u ∧ c = nextB s u) ∧
    (∃ (s : State) (u : Fin 16) (x : State) (c : CuSlot), IssuesB s u 0x02 ∧ x = afterA s u ∧ c = nextB s u) ∧
    (∃ (s : State) (u : Fin 16) (x : State) (c : CuSlot), IssuesB s u 0x03 ∧ x = afterA s u ∧ c = nextB s u) ∧
    (∃ (s : State) (u : Fin 16) (x : State) (c : CuSlot), IssuesB s u 0x04 ∧ x = afterA s u ∧ c = nextB s u) ∧
    (∃ (s : State) (u : Fin 16) (x : State) (c : CuSlot), IssuesB s u 0x05 ∧ x = afterA s u ∧ c = nextB s u) ∧
    (∃ (s : State) (u : Fin 16) (x : State) (c : CuSlot), IssuesB s u 0x07 ∧ x = afterA s u ∧ c = nextB s u) ∧
    (∃ (s : State) (u : Fin 16) (x : State) (c : CuSlot), IssuesB s u 0x18 ∧ x = afterA s u ∧ c = nextB s u) ∧
    (∃ (s : State) (u : Fin 16) (x : State) (c : CuSlot), IssuesB s u 0x19 ∧ x = afterA s u ∧ c = nextB s u) ∧
    (∃ (s : State) (u : Fin 16) (x : State) (c : CuSlot), IssuesB s u 0x1B ∧ x = afterA s u ∧ c = nextB s u) ∧
    (∃ (s : State) (u : Fin 16) (x : State) (c : CuSlot), IssuesB s u 0x1C ∧ x = afterA s u ∧ c = nextB s u) ∧
    (∃ (s : State) (u : Fin 16) (x : State) (c : CuSlot), IssuesB s u 0x06 ∧ x = afterA s u ∧ c = nextB s u ∧ c.xd % 2 = 0) ∧
    (∃ (s : State) (u : Fin 16) (x : State) (c : CuSlot), IssuesB s u 0x06 ∧ x = afterA s u ∧ c = nextB s u ∧ c.xd % 2 = 1) ∧
    (∃ (s : State) (u : Fin 16) (x : State) (c : CuSlot), IssuesB s u 0x08 ∧ x = afterA s u ∧ c = nextB s u ∧
      (s.cu u).mulBusy = false) ∧
    (∃ (s : State) (u : Fin 16) (x : State) (c : CuSlot), IssuesB s u 0x08 ∧ x = afterA s u ∧ c = nextB s u ∧
      (s.cu u).mulBusy = true) ∧
    (∃ (s : State) (u : Fin 16) (x : State) (c : CuSlot), IssuesB s u 0x10 ∧ x = afterA s u ∧ c = nextB s u ∧
      (s.cu u).mulBusy = false) ∧
    (∃ (s : State) (u : Fin 16) (x : State) (c : CuSlot), IssuesB s u 0x10 ∧ x = afterA s u ∧ c = nextB s u ∧
      (s.cu u).mulBusy = true) ∧
    (∃ (s : State) (u : Fin 16) (x : State) (c : CuSlot), IssuesB s u 0x11 ∧ x = afterA s u ∧ c = nextB s u ∧
      (s.cu u).mulBusy = false) ∧
    (∃ (s : State) (u : Fin 16) (x : State) (c : CuSlot), IssuesB s u 0x12 ∧ x = afterA s u ∧ c = nextB s u ∧
      (s.cu u).mulBusy = false) ∧
    (∃ (s : State) (u : Fin 16) (x : State) (c : CuSlot), IssuesB s u 0x13 ∧ x = afterA s u ∧ c = nextB s u ∧
      (s.cu u).mulBusy = false) ∧
    (∃ (s : State) (u : Fin 16) (x : State) (c : CuSlot), IssuesB s u 0x14 ∧ x = afterA s u ∧ c = nextB s u ∧
      (s.cu u).mulBusy = false) ∧
    (∃ (s : State) (u : Fin 16) (x : State) (c : CuSlot), IssuesB s u 0x15 ∧ x = afterA s u ∧ c = nextB s u ∧
      (s.cu u).mulBusy = false) ∧
    (∃ (s : State) (u : Fin 16) (x : State) (c : CuSlot), IssuesB s u 0x1A ∧ x = afterA s u ∧ c = nextB s u ∧ bit c.w 0 = false) :=
  ⟨⟨issuing 0 (0x01 * 2 ^ 26), 0, _, _, by unfold IssuesB; decide +kernel, rfl, rfl⟩,
   ⟨issuing 0 (0x02 * 2 ^ 26), 0, _, _, by unfold IssuesB; decide +kernel, rfl, rfl⟩,
   ⟨issuing 0 (0x03 * 2 ^ 26), 0, _, _, by unfold IssuesB; decide +kernel, rfl, rfl⟩,
   ⟨issuing 0 (0x04 * 2 ^ 26), 0, _, _, by unfold IssuesB; decide +kernel, rfl, rfl⟩,
   ⟨issuing 0 (0x05 * 2 ^ 26), 0, _, _, by unfold IssuesB; decide +kernel, rfl, rfl⟩,
   ⟨issuing 0 (0x07 * 2 ^ 26), 0, _, _, by unfold IssuesB; decide +kernel, rfl, rfl⟩,
   ⟨issuing 0 (0x18 * 2 ^ 26), 0, _, _, by unfold IssuesB; decide +kernel, rfl, rfl⟩,
   ⟨issuing 0 (0x19 * 2 ^ 26), 0, _, _, by unfold IssuesB; decide +kernel, rfl, rfl⟩,
   ⟨issuing 0 (0x1B * 2 ^ 26), 0, _, _, by unfold IssuesB; decide +kernel, rfl, rfl⟩,
   ⟨issuing 0 (0x1C * 2 ^ 26), 0, _, _, by unfold IssuesB; decide +kernel, rfl, rfl⟩,
   ⟨issuing 0 (0x06 * 2 ^ 26), 0, _, _, by unfold IssuesB; decide +kernel, rfl, rfl, by decide +kernel⟩,
   ⟨issuing 0 (0x06 * 2 ^ 26 + 4194304), 0, _, _, by unfold IssuesB; decide +kernel, rfl, rfl, by decide +kernel⟩,
   ⟨issuing 0 (0x08 * 2 ^ 26), 0, _, _, by unfold IssuesB; decide +kernel, rfl, rfl, by decide +kernel⟩,
   ⟨{ cfg [(R.CU_STATUS.STATE 0, 3)] with cus := [(0, { prog := [(0, BitVec.ofNat 64 ((0x08 * 2 ^ 26) * 2 ^ 32 + 0))], mulBusy := true })] },
      0, _, _, by unfold IssuesB; decide +kernel, rfl, rfl, by decide +kernel⟩,
   ⟨issuing 0 (0x10 * 2 ^ 26), 0, _, _, by unfold IssuesB; decide +kernel, rfl, rfl, by decide +kernel⟩,
   ⟨{ cfg [(R.CU_STATUS.STATE 0, 3)] with cus := [(0, { prog := [(0, BitVec.ofNat 64 ((0x10 * 2 ^ 26) * 2 ^ 32 + 0))], mulBusy := true })] },
      0, _, _, by unfold IssuesB; decide +kernel, rfl, rfl, by decide +kernel⟩,
   ⟨issuing 0 (0x11 * 2 ^ 26), 0, _, _, by unfold IssuesB; decide +kernel, rfl, rfl, by decide +kernel⟩,
   ⟨issuing 0 (0x12 * 2 ^ 26), 0, _, _, by unfold IssuesB; decide +kernel, rfl, rfl, by decide +kernel⟩,
   ⟨issuing 0 (0x13 * 2 ^ 26), 0, _, _, by unfold IssuesB; decide +kernel, rfl, rfl, by decide +kernel⟩,
   ⟨issuing 0 (0x14 * 2 ^ 26), 0, _, _, by unfold IssuesB; decide +kernel, rfl, rfl, by decide +kernel⟩,
   ⟨issuing 0 (0x15 * 2 ^ 26), 0, _, _, by unfold IssuesB; decide +kernel, rfl, rfl, by decide +kernel⟩,
   ⟨issuing 0 (0x1A * 2 ^ 26), 0, _, _, by unfold IssuesB; decide +kernel, rfl, rfl, by decide +kernel⟩⟩

theorem test_driveCommandsAct :
    (∃ (s : State) (q : Fin 4096) (u : State), u = s.updQueue q (fun qu => { qu with barges := updFirst (fun b => b.visible < b.total) (fun b => { b with visible := b.visible + 1 }) qu.barges }) ∧
      u.get (R.QUEUE_STAT.CONSUMER q) ≠ 3) ∧
    (∃ (s : State) (q : Fin 4096) (u : State), u = s.updQueue q (fun qu => { qu with barges := updFirst (fun b => b.visible < b.total) (fun b => { b with visible := b.visible + 1 }) qu.barges }) ∧
      u.get (R.QUEUE_STAT.CONSUMER q) = 3) ∧
    (∃ (s : State) (r : Fin 8), s.recState r = 1 ∧ s.get (R.NVME_REC_CLOSE.CLOSE_US r) ≠ 0 ∧ (s.nvRec r).cur ≠ [] ∧
      (s.nvRec r).firstAt + 1000 * s.get (R.NVME_REC_CLOSE.CLOSE_US r) ≤ s.adv) ∧
    (∃ (s : State) (r : Fin 8) (k i : Nat) (c : NvChunk) (w : NvWrite), (s.nvRec r).out.find? (fun c => c.number == k) = some c ∧
      c.writes.find? (fun w => w.index == i) = some w ∧ w.tries < s.get R.NVME_CTL.RETRY) ∧
    (∃ (s : State) (r : Fin 8) (k i : Nat) (c : NvChunk) (w : NvWrite), (s.nvRec r).out.find? (fun c => c.number == k) = some c ∧
      c.writes.find? (fun w => w.index == i) = some w ∧ s.get R.NVME_CTL.RETRY ≤ w.tries) ∧
    (∃ (s : State) (r : Fin 8) (k i : Nat) (c : NvChunk) (w : NvWrite), (s.nvRec r).out.find? (fun c => c.number == k) = some c ∧
      c.writes.find? (fun w => w.index == i) = some w) ∧
    (∃ (s : State) (ring index : Nat) (ok : Bool) (x : OrderRef × Nat × Nat) (rest : List (OrderRef × Nat × Nat)),
      takeFirst (fun (x : OrderRef × Nat × Nat) => x.1 == (ring, index)) s.nvme.trims = some (x, rest)) ∧
    (∃ (s : State) (ring index : Nat) (data : List Byte) (x : NvRead) (o : Order) (c : Nat × Nat × Nat), s.nvRead? (ring,
      index) = some x ∧ s.order? (ring, index) = some o ∧ x.cmd = some c) ∧
    (∃ (s : State) (r slot : Fin 8) (l : List (Nat × Nat)), (s.nvRec r).flush = some l ∧ l.any (fun e => e.1 == slot.val) = true) ∧
    (∃ (s : State) (p : Path) (d : Fin 2) (w : Word), Writable s p (R.NVME_PORT d)) ∧
    (∃ (s : State) (n : Fin 8) (width : Fin 9) (rate : Fin 6), s.driveFitted n = true ∧ s.driveState n = 0 ∧
      s.adv ≤ (s.nvPort (n / 4)).since + 100000000) ∧
    (∃ (s : State) (n : Fin 8), s.driveState n = 1) ∧
    (∃ (s : State) (n : Fin 8) (tmo : BitVec 8) (mdts : Nat) (ns : List NvmeNs), s.driveState n = 2 ∧
      s.adv ≤ (s.nvDrive n).since + min (tmo.toNat * 500000000) 30000000000) ∧
    (∃ (s : State) (n : Fin 8), s.driveState n = 3) ∧
    (∃ (s : State) (n : Fin 8) (width : Fin 9) (rate : Fin 6), s.driveState n = 4 ∧ s.lkUp 2 = true ∧
      s.adv ≤ (s.nvDrive n).since + 5000000000) ∧
    (∃ (s : State) (n : Fin 8), s.driveState n ≠ 0) ∧
    (∃ (s : State) (p : Path) (j : Fin 8) (w : Word), Writable s p (R.NVME_SLOT j)) ∧
    (∃ (s : State) (p : Path) (r : Fin 8) (w : Word), Writable s p (R.NVME_REC_CFG r)) ∧
    (∃ (s : State) (p : Path) (r : Fin 8), Writable s p (R.NVME_REC_CFG.EN r).key) :=
  ⟨⟨State.reset, 4095, _, rfl, by decide +kernel⟩,
   ⟨cfg [(R.QUEUE_STAT.CONSUMER 4095, 3)], 4095, _, rfl, by decide +kernel⟩,
   ⟨{ atTick 100 (cfg [(R.NVME_REC_STAT.STATE 7, 1), (R.NVME_REC_CLOSE.CLOSE_US 7, 1)]) with nvme := { recs := [(7, { cur := [(dataBarge, [])] })] } },
      7, by decide +kernel, by decide +kernel, by decide +kernel, by decide +kernel⟩,
   ⟨{ atTick 100 (cfg [(R.NVME_REC_STAT.STATE 7, 1), (R.NVME_CTL.RETRY, 1)]) with nvme := { recs := [(7, { out := [{ number := 0, slot := 0, pos := 0, bytes := [], barges := [], cells := [], writes := [⟨0, 0, 1, 0, 0⟩], before := [] }] })] } },
      7, 0, 0, { number := 0, slot := 0, pos := 0, bytes := [], barges := [], cells := [], writes := [⟨0, 0, 1, 0, 0⟩], before := [] },
      ⟨0, 0, 1, 0, 0⟩, by decide +kernel, by decide +kernel, by decide +kernel⟩,
   ⟨{ atTick 100 (cfg [(R.NVME_REC_STAT.STATE 7, 1), (R.NVME_CTL.RETRY, 0)]) with nvme := { recs := [(7, { out := [{ number := 0, slot := 0, pos := 0, bytes := [], barges := [], cells := [], writes := [⟨0, 0, 1, 0, 0⟩], before := [] }] })] } },
      7, 0, 0, { number := 0, slot := 0, pos := 0, bytes := [], barges := [], cells := [], writes := [⟨0, 0, 1, 0, 0⟩], before := [] },
      ⟨0, 0, 1, 0, 0⟩, by decide +kernel, by decide +kernel, by decide +kernel⟩,
   ⟨{ atTick 100 (cfg [(R.NVME_REC_STAT.STATE 7, 1)]) with nvme := { recs := [(7, { out := [{ number := 0, slot := 0, pos := 0, bytes := [], barges := [], cells := [], writes := [⟨0, 0, 1, 0, 0⟩], before := [] }] })] } },
      7, 0, 0, { number := 0, slot := 0, pos := 0, bytes := [], barges := [], cells := [], writes := [⟨0, 0, 1, 0, 0⟩], before := [] },
      ⟨0, 0, 1, 0, 0⟩, by decide +kernel, by decide +kernel⟩,
   ⟨{ State.reset with nvme := { trims := [((3, 5), 0, 0)] } }, 3, 5, false, ((3, 5), 0, 0), [], by decide +kernel⟩,
   ⟨{ standing (orderOf 0x0E10) with nvme := { reads := [{ order := (0, 0), cmd := some (0, 0, 0) }] } }, 0, 0, [],
      { order := (0, 0), cmd := some (0, 0, 0) }, orderOf 0x0E10, (0, 0, 0), by decide +kernel, by decide +kernel, by decide +kernel⟩,
   ⟨State.reset.updNvRec 7 (fun x => { x with flush := some [(7, 0)] }), 7, 7, [(7, 0)], by decide +kernel, by decide +kernel⟩,
   ⟨State.reset, .fw, 1, 0, by unfold Writable; decide +kernel⟩,
   ⟨cfg [(R.NVME_PORT.EN 1, 1)], 4, 8, 5, by decide +kernel, by decide +kernel, by decide +kernel⟩,
   ⟨State.reset.put (R.NVME_DRIVE.STATE 7) 1, 7, by decide +kernel⟩,
   ⟨State.reset.put (R.NVME_DRIVE.STATE 7) 2, 7, 0, 0, [], by decide +kernel, by decide +kernel⟩,
   ⟨State.reset.put (R.NVME_DRIVE.STATE 7) 3, 7, by decide +kernel⟩,
   ⟨(linkLocked 2).put (R.NVME_DRIVE.STATE 7) 4, 7, 8, 5, by decide +kernel, by decide +kernel, by decide +kernel⟩,
   ⟨State.reset.put (R.NVME_DRIVE.STATE 7) 3, 7, by decide +kernel⟩,
   ⟨State.reset, .fw, 7, 0, by unfold Writable; decide +kernel⟩,
   ⟨State.reset, .fw, 7, 0, by unfold Writable; decide +kernel⟩,
   ⟨State.reset, .fw, 7, by unfold Writable; decide +kernel⟩⟩

theorem test_clockCommandsAct :
    (∃ (s : State) (k : Fin 8) (a b diff : BitVec 8), k.val < 5 ∧ diffMag a ≤ s.get R.CLK_LOCKCFG.LOCK_TOL ∧
      diffMag b ≤ s.get R.CLK_LOCKCFG.LOCK_TOL ∧ diffMag diff ≤ s.get R.CLK_LOCKCFG.LOCK_TOL ∧ s.pllPowered k = true) ∧
    (∃ (s : State) (k : Fin 8) (a b diff : BitVec 8), 5 ≤ k.val ∧ diffMag a ≤ s.get R.CLK_LOCKCFG.LOCK_TOL ∧
      diffMag b ≤ s.get R.CLK_LOCKCFG.LOCK_TOL ∧ diffMag diff ≤ s.get R.CLK_LOCKCFG.LOCK_TOL) ∧
    (∃ (s : State) (k : Fin 5) (a diff : BitVec 8), s.get R.CLK_LOCKCFG.LOCK_TOL_LOSS < diffMag a ∧
      s.get R.CLK_LOCKCFG.LOCK_TOL_LOSS < diffMag diff ∧ s.on (R.CLK_PLL.LOCKED k) = true) ∧
    (∃ (s : State), s.on R.CLK_REF.PRESENT = true) ∧
    (∃ (s : State) (u : State), s.on R.CLK_REF.PRESENT = false ∧
      u = ((s.put R.CLK_REF.PRESENT 1).put R.CLK_REF.AON_SRC 0).put R.TIME_STATUS.REF_LOST 0 ∧ s.clk.protective = false) ∧
    (∃ (s : State) (u : State), s.on R.CLK_REF.PRESENT = false ∧
      u = ((s.put R.CLK_REF.PRESENT 1).put R.CLK_REF.AON_SRC 0).put R.TIME_STATUS.REF_LOST 0 ∧ s.clk.protective = true) ∧
    (∃ (s : State) (p : Path) (o : Fin 4) (w : Word), Writable s p (R.CLKOUT_CFG o)) ∧
    (∃ (s : State) (p : Path) (w : Word), Writable s p R.SWS_CTL) ∧
    (∃ (s : State) (t : Nat), s.on R.SWS_STATUS.RUNNING = true ∧ s.get R.SWS_CTL.ADV = 0 ∧
      t = s.sws.since + nsUnits (1000 * s.segDur (s.get R.SWS_STATUS.SEG)) ∧ t ≤ s.advU 0) ∧
    (∃ (s : State) (t : Nat) (rest : List Nat), s.on R.SWS_STATUS.RUNNING = true ∧ s.get R.SWS_CTL.ADV = 1 ∧ s.sws.due = t :: rest ∧
      t < s.time + nsUnits 40) ∧
    (∃ (s : State), s.on R.SWS_STATUS.SETTLING = true ∧ s.sws.settleAt ≤ s.advU 0) ∧
    (∃ (s : State) (ring index : Nat) (o : Order), s.order? (ring, index) = some o ∧ o.opcode = 0x0E02 ∧ o.phase = .running ∧
      s.ns - o.aux ≤ 1000000) ∧
    (∃ (s : State) (ring index : Nat) (o : Order), s.order? (ring, index) = some o ∧ o.opcode = 0x0E02 ∧ o.phase = .running) ∧
    (∃ (s : State) (p : Path) (r : Fin 4), Writable s p R.GLOBAL_PWRCTL) ∧
    (∃ (s : State) (r : PwrReq), s.power.req = some r ∧ s.climbingDeps ≠ []) ∧
    (∃ (s : State) (r : PwrReq), s.power.req = some r ∧ s.climbingDeps = [] ∧ s.lkUp 0 = true ∧ s.get R.LK_BOOT.ACT = 0 ∧
      s.power.entering = none ∧ s.power.returning = none) ∧
    (∃ (s : State) (r : PwrReq), s.power.entering = some r ∧ s.power.drained = false ∧ s.queuesEmpty = true) ∧
    (∃ (s : State) (r : PwrReq), s.power.entering = some r ∧ s.power.drained = false ∧ s.queuesEmpty = false ∧
      s.power.drainAt + 1000000 * s.get R.GLOBAL_PWRPOL.SLEEP_DRAIN ≤ s.adv) ∧
    (∃ (s : State) (r : PwrReq), s.power.entering = some r ∧ s.power.drained = true) ∧
    (∃ (s : State), s.power.wake.isSome = true ∧ s.lowPower = true ∧ s.power.entering = none ∧ s.power.returning = none ∧
      s.monitor.tripped = false ∧ s.on R.CLK_REF.PRESENT = true ∧ s.lkUp 0 = true) ∧
    (∃ (s : State) (t : Nat), s.power.idleSince = some t ∧ s.autoIdle = true ∧ s.power.req = none ∧
      t + 1000000 * max 1 (s.get R.GLOBAL_PWRPOL.AUTO_AFTER) ≤ s.adv ∧ s.get R.GLOBAL_PWRPOL.AUTO_MODE = 1) ∧
    (∃ (s : State) (t : Nat), s.power.idleSince = some t ∧ s.autoIdle = true ∧ s.power.req = none ∧
      t + 1000000 * max 1 (s.get R.GLOBAL_PWRPOL.AUTO_AFTER) ≤ s.adv ∧ s.get R.GLOBAL_PWRPOL.AUTO_MODE = 2 ∧
      (List.range 64).any (fun p => s.on (R.POUND_CFG.EN p)) = false) ∧
    (∃ (s : State) (t : Nat), s.power.idleSince = some t ∧ s.autoIdle = true ∧ s.power.req = none ∧
      t + 1000000 * max 1 (s.get R.GLOBAL_PWRPOL.AUTO_AFTER) ≤ s.adv ∧ s.get R.GLOBAL_PWRPOL.AUTO_MODE = 2 ∧
      (List.range 64).any (fun p => s.on (R.POUND_CFG.EN p)) = true) ∧
    (∃ (s : State) (t : Nat), s.clk.lostAt = some t ∧ s.on R.CLK_REF.PRESENT = false ∧ t + 10000000 ≤ s.adv ∧ s.lowPower = false ∧
      s.power.entering = none) ∧
    (∃ (s : State), s.pcie.linkUp = true ∧ s.fw.ready = true ∧ s.pcie.d3hot0 = false) ∧
    (∃ (s : State), s.pcie.linkUp = true ∧ s.fw.ready = true ∧ s.pcie.d3hot0 = true) ∧
    (∃ (s : State) (failed : List (Fin 6)) (t : Nat), s.power.returning = some t ∧ s.lowPower = true ∧
      (s.returned failed).on R.RING_STATUS.PARKED = false) ∧
    (∃ (s : State) (failed : List (Fin 6)) (t : Nat), s.power.returning = some t ∧ s.lowPower = true ∧
      (s.returned failed).on R.RING_STATUS.PARKED = true) :=
  ⟨⟨cfg [(R.CLK_REF.PRESENT, 1)], 0, 0, 0, 0, by decide +kernel, by decide +kernel, by decide +kernel, by decide +kernel,
      by decide +kernel⟩,
   ⟨State.reset, 7, 0, 0, 0, by decide +kernel, by decide +kernel, by decide +kernel, by decide +kernel⟩,
   ⟨State.reset.put (R.CLK_PLL.LOCKED 4) 1, 4, 0x7F, 0x7F, by decide +kernel, by decide +kernel, by decide +kernel⟩,
   ⟨State.reset.put R.CLK_REF.PRESENT 1, by decide +kernel⟩,
   ⟨State.reset, _, by decide +kernel, rfl, by decide +kernel⟩,
   ⟨{ State.reset with clk := { protective := true } }, _, by decide +kernel, rfl, by decide +kernel⟩,
   ⟨State.reset, .fw, 3, 0, by unfold Writable; decide +kernel⟩,
   ⟨State.reset, .fw, 0, by unfold Writable; decide +kernel⟩,
   ⟨atTick 100 (cfg [(R.SWS_STATUS.RUNNING, 1)]), _, by decide +kernel, by decide +kernel, rfl, by decide +kernel⟩,
   ⟨{ cfg [(R.SWS_STATUS.RUNNING, 1), (R.SWS_CTL.ADV, 1)] with sws := { due := [0] } }, 0, [], by decide +kernel, by decide +kernel,
      by decide +kernel, by decide +kernel⟩,
   ⟨State.reset.put R.SWS_STATUS.SETTLING 1, by decide +kernel, by decide +kernel⟩,
   ⟨standing { orderOf 0x0E02 [(16, 1, 1)] with phase := .running }, 0, 0, { orderOf 0x0E02 [(16, 1, 1)] with phase := .running },
      by decide +kernel, by decide +kernel, by decide +kernel, by decide +kernel⟩,
   ⟨standing { orderOf 0x0E02 [(16, 1, 1)] with phase := .running }, 0, 0, { orderOf 0x0E02 [(16, 1, 1)] with phase := .running },
      by decide +kernel, by decide +kernel, by decide +kernel⟩,
   ⟨State.reset, .fw, 3, by unfold Writable; decide +kernel⟩,
   ⟨{ cfg [(R.FL_STATUS.STATE 0, 3)] with power := { req := some { target := 0 } }, flights := [(0, { deps := [1] })] },
      { target := 0 }, by decide +kernel, by decide +kernel⟩,
   ⟨{ cfg [(R.LK_STATUS.STATE 0, 2)] with power := { req := some { target := 1 } } }, { target := 1 }, by decide +kernel,
      by decide +kernel, by decide +kernel, by decide +kernel, by decide +kernel, by decide +kernel⟩,
   ⟨{ cfg [] with power := { entering := some { target := 0 } } }, { target := 0 }, by decide +kernel, by decide +kernel,
      by decide +kernel⟩,
   ⟨{ atTick 100000000 (cfg []) with power := { entering := some { target := 0 } }, queues := [(0, { barges := [{ barge := dataBarge, cells := [], total := 0 }] })] },
      { target := 0 }, by decide +kernel, by decide +kernel, by decide +kernel, by decide +kernel⟩,
   ⟨{ cfg [] with power := { entering := some { target := 0 }, drained := true } }, { target := 0 }, by decide +kernel,
      by decide +kernel⟩,
   ⟨{ cfg [(R.GLOBAL_PWRSTAT.MODE, 1), (R.LK_STATUS.STATE 0, 2), (R.CLK_REF.PRESENT, 1)] with power := { wake := some 1 } },
      by decide +kernel, by decide +kernel, by decide +kernel, by decide +kernel, by decide +kernel, by decide +kernel,
      by decide +kernel⟩,
   ⟨{ cfg [(R.RING_STATUS.PARKED, 1), (R.GLOBAL_PWRPOL.AUTO_MODE, 1), (R.GLOBAL_PWRPOL.AUTO_AFTER, 1)] (atTick 25000 State.reset) with power := { idleSince := some 0 } },
      0, by decide +kernel, by decide +kernel, by decide +kernel, by decide +kernel, by decide +kernel⟩,
   ⟨{ cfg [(R.RING_STATUS.PARKED, 1), (R.GLOBAL_PWRPOL.AUTO_MODE, 2), (R.GLOBAL_PWRPOL.AUTO_AFTER, 1)] (atTick 25000 State.reset) with power := { idleSince := some 0 } },
      0, by decide +kernel, by decide +kernel, by decide +kernel, by decide +kernel, by decide +kernel, by decide +kernel⟩,
   ⟨{ cfg [(R.RING_STATUS.PARKED, 1), (R.GLOBAL_PWRPOL.AUTO_MODE, 2), (R.POUND_CFG.EN 63, 1), (R.GLOBAL_PWRPOL.AUTO_AFTER, 1)] (atTick 25000 State.reset) with power := { idleSince := some 0 } },
      0, by decide +kernel, by decide +kernel, by decide +kernel, by decide +kernel, by decide +kernel, by decide +kernel⟩,
   ⟨{ atTick 250000 State.reset with clk := { lostAt := some 0 } }, 0, by decide +kernel, by decide +kernel, by decide +kernel,
      by decide +kernel, by decide +kernel⟩,
   ⟨hostReady, by decide +kernel, by decide +kernel, by decide +kernel⟩,
   ⟨{ hostReady with pcie := { linkUp := true, d3hot0 := true } }, by decide +kernel, by decide +kernel, by decide +kernel⟩,
   ⟨{ cfg [(R.GLOBAL_PWRSTAT.MODE, 1)] with power := { returning := some 0 } }, [], 0, by decide +kernel, by decide +kernel,
      by decide +kernel⟩,
   ⟨{ cfg [(R.GLOBAL_PWRSTAT.MODE, 1), (R.RING_STATUS.PARKED, 1)] with power := { returning := some 0 } }, [], 0, by decide +kernel,
      by decide +kernel, by decide +kernel⟩⟩

theorem test_firmwareServiceCommandsAct :
    (∃ (s : State) (ch : Fin 16) (tag : Nat) (rest : List Word) (u : State), Asks s ch 0x01 tag [] rest ∧ u = askTaken s ch rest) ∧
    (∃ (s : State) (ch : Fin 16) (tag : Nat) (rest : List Word) (u : State), Asks s ch 0x02 tag [] rest ∧ u = askTaken s ch rest) ∧
    (∃ (s : State) (ch : Fin 16) (tag : Nat) (data rest : List Word) (u : State), Asks s ch 0x03 tag data rest ∧
      u = askTaken s ch rest ∧ ch.val < 8) ∧
    (∃ (s : State) (ch : Fin 16) (tag : Nat) (data rest : List Word) (u : State), Asks s ch 0x03 tag data rest ∧
      u = askTaken s ch rest ∧ 8 ≤ ch.val ∧ data ≠ []) ∧
    (∃ (s : State) (ch : Fin 16) (tag : Nat) (data rest : List Word) (u : State), Asks s ch 0x04 tag data rest ∧
      u = askTaken s ch rest ∧ ch.val < 8) ∧
    (∃ (s : State) (ch : Fin 16) (tag : Nat) (data rest : List Word) (u : State), Asks s ch 0x04 tag data rest ∧
      u = askTaken s ch rest ∧ 8 ≤ ch.val ∧ data ≠ []) ∧
    (∃ (s : State) (ch : Fin 16) (tag : Nat) (rest : List Word) (u : State), 8 ≤ ch.val ∧ Asks s ch 0x05 tag [] rest ∧
      u = askTaken s ch rest ∧ u.flash.inForce = none) ∧
    (∃ (s : State) (ch : Fin 16) (tag : Nat) (rest : List Word) (off w : Word) (ws : List Word) (u : State), 8 ≤ ch.val ∧
      Asks s ch 0x06 tag (off :: w :: ws) rest ∧ u = askTaken s ch rest ∧
      off.toNat + ((w :: ws).flatMap (fun w => leBytes 4 w.toNat)).length ≤ 65536) ∧
    (∃ (s : State) (ch : Fin 16) (tag : Nat) (rest : List Word) (n : Word) (u : State), Asks s ch 0x08 tag [n] rest ∧
      u = askTaken s ch rest ∧ n.toNat ≠ 0 ∧ n.toNat ≤ 63) ∧
    (∃ (s : State) (ch : Fin 16) (code tag : Nat) (data rest : List Word), Asks s ch code tag data rest ∧ code ∉ knownServices) ∧
    (∃ (s : State) (ch : Fin 16) (tag : Nat) (rest : List Word) (u : State), 8 ≤ ch.val ∧ Asks s ch 0x10 tag [] rest ∧
      u = askTaken s ch rest) ∧
    (∃ (s : State) (ch : Fin 16) (tag : Nat) (rest : List Word) (v : Word) (u : State), 8 ≤ ch.val ∧ Asks s ch 0x11 tag [v] rest ∧
      u = askTaken s ch rest ∧ v.toNat ≤ 1) ∧
    (∃ (s : State) (ch : Fin 16) (tag : Nat) (rest : List Word) (v : Word) (u : State), 8 ≤ ch.val ∧ Asks s ch 0x11 tag [v] rest ∧
      u = askTaken s ch rest ∧ 1 < v.toNat) ∧
    (∃ (s : State) (ch : Fin 16) (tag : Nat) (data rest : List Word) (u : State), 8 ≤ ch.val ∧ Asks s ch 0x12 tag data rest ∧
      u = askTaken s ch rest ∧ (rectOf data).2.2.1 * (rectOf data).2.2.2 ≤ 506 ∧
      data.length = 2 + ((rectOf data).2.2.1 * (rectOf data).2.2.2 + 1) / 2) ∧
    (∃ (s : State) (ch : Fin 16) (tag : Nat) (a b v : Word) (rest : List Word) (u : State), 8 ≤ ch.val ∧ Asks s ch 0x13 tag [a, b,
      v] rest ∧ u = askTaken s ch rest) ∧
    (∃ (s : State) (ch : Fin 16) (tag : Nat) (rest : List Word) (u : State), 8 ≤ ch.val ∧ Asks s ch 0x14 tag [] rest ∧
      u = askTaken s ch rest ∧ s.pnlCanPush = true ∧ u.pnlCanPush = true) :=
  ⟨⟨asking 15 0x01 [], 15, 5, [], _, by unfold Asks; decide +kernel, rfl⟩,
   ⟨asking 15 0x02 [], 15, 5, [], _, by unfold Asks; decide +kernel, rfl⟩,
   ⟨asking 7 0x03 [], 7, 5, [], [], _, by unfold Asks; decide +kernel, rfl, by decide +kernel⟩,
   ⟨asking 8 0x03 [0], 8, 5, [0], [], _, by unfold Asks; decide +kernel, rfl, by decide +kernel, by decide +kernel⟩,
   ⟨asking 7 0x04 [], 7, 5, [], [], _, by unfold Asks; decide +kernel, rfl, by decide +kernel⟩,
   ⟨asking 8 0x04 [0], 8, 5, [0], [], _, by unfold Asks; decide +kernel, rfl, by decide +kernel, by decide +kernel⟩,
   ⟨asking 15 0x05 [], 15, 5, [], _, by decide +kernel, by unfold Asks; decide +kernel, rfl, by decide +kernel⟩,
   ⟨asking 8 0x06 [65532, 0], 8, 5, [], 65532, 0, [], _, by decide +kernel, by unfold Asks; decide +kernel, rfl, by decide +kernel⟩,
   ⟨asking 0 0x08 [63], 0, 5, [], 63, _, by unfold Asks; decide +kernel, rfl, by decide +kernel, by decide +kernel⟩,
   ⟨asking 0 0xFF [], 0, 0xFF, 5, [], [], by unfold Asks; decide +kernel, by decide +kernel⟩,
   ⟨asking 8 0x10 [], 8, 5, [], _, by decide +kernel, by unfold Asks; decide +kernel, rfl⟩,
   ⟨asking 8 0x11 [1], 8, 5, [], 1, _, by decide +kernel, by unfold Asks; decide +kernel, rfl, by decide +kernel⟩,
   ⟨asking 8 0x11 [2], 8, 5, [], 2, _, by decide +kernel, by unfold Asks; decide +kernel, rfl, by decide +kernel⟩,
   ⟨asking 8 0x12 [0, 0x10001, 0], 8, 5, [0, 0x10001, 0], [], _, by decide +kernel, by unfold Asks; decide +kernel, rfl,
      by decide +kernel, by decide +kernel⟩,
   ⟨asking 8 0x13 [0, 0, 0], 8, 5, 0, 0, 0, [], _, by decide +kernel, by unfold Asks; decide +kernel, rfl⟩,
   ⟨{ cfg [(R.LK_STATUS.STATE 0, 2), (R.LK_STATUS.STATE 3, 2), (R.PNL_STATUS.STATE, 2)] with fw := { ready := true, mbx := [(8, { inbox := [msgHeader 0 0x14 0 5 0] })] } },
      8, 5, [], _, by decide +kernel, by unfold Asks; decide +kernel, rfl, by decide +kernel, by decide +kernel⟩⟩

theorem test_mailboxAndBootCommandsAct :
    (∃ (s : State) (part : Option FlashPart) (u : State), s.lkState 0 = 0 ∧
      u = (((s.flashed part).deviceReset.holdMemory).put (R.LK_STATUS.STATE 0) 1).put R.LK_BOOT.STRAP_BOOT (s.get R.GLOBAL_STRAPS.BOOT) ∧
      s.get R.GLOBAL_STRAPS.BOOT = 0) ∧
    (∃ (s : State) (part : Option FlashPart) (u : State), s.lkState 0 = 0 ∧
      u = (((s.flashed part).deviceReset.holdMemory).put (R.LK_STATUS.STATE 0) 1).put R.LK_BOOT.STRAP_BOOT (s.get R.GLOBAL_STRAPS.BOOT) ∧
      s.get R.GLOBAL_STRAPS.BOOT = 1) ∧
    (∃ (s : State) (part : Option FlashPart) (u : State), s.lkState 0 = 0 ∧
      u = (((s.flashed part).deviceReset.holdMemory).put (R.LK_STATUS.STATE 0) 1).put R.LK_BOOT.STRAP_BOOT (s.get R.GLOBAL_STRAPS.BOOT) ∧
      s.get R.GLOBAL_STRAPS.BOOT = 2) ∧
    (∃ (s : State) (part : Option FlashPart) (u : State), s.lkState 0 = 0 ∧
      u = (((s.flashed part).deviceReset.holdMemory).put (R.LK_STATUS.STATE 0) 1).put R.LK_BOOT.STRAP_BOOT (s.get R.GLOBAL_STRAPS.BOOT) ∧
      s.get R.GLOBAL_STRAPS.BOOT = 3) ∧
    (∃ (s : State) (p : Path) (ch : Fin 16) (w : Word), mbxPath ch = some p ∧ mbxKey ch = none) ∧
    (∃ (s : State) (p : Path) (ch : Fin 16) (w : Word) (k : Nat), mbxPath ch = some p ∧ mbxKey ch = some k ∧ Writable s p k) ∧
    (∃ (s : State) (p : Path) (ch : Fin 16), mbxPath ch = some p ∧ mbxKey ch = none) ∧
    (∃ (s : State) (p : Path) (ch : Fin 16) (k : Nat), mbxPath ch = some p ∧ mbxKey ch = some k) ∧
    (∃ (s : State) (p : Path) (ch : Fin 16) (k : Nat), mbxPath ch = some p ∧ mbxKey ch = some k ∧ Writable s p (k + 12)) ∧
    (∃ (s : State) (ch : Fin 16) (ws : List Word), s.lkUp 0 = true ∧ (s.mbx ch).inFull = true ∧ (s.mbx ch).inbox.length < 512 ∧
      ws = (s.mbx ch).inbox ++ [(s.mbx ch).inWord]) ∧
    (∃ (s : State) (ch : Fin 16) (w : Word) (ws : List Word), s.lkUp 0 = true ∧ (s.mbx ch).outbox = w :: ws ∧
      (s.mbx ch).outFull = false) ∧
    (∃ (s : State), s.lkState 0 = 1 ∧ s.on R.LK_BOOT.RECOVERY = false) ∧
    (∃ (s : State), s.lkState 0 = 1 ∧ s.on R.LK_BOOT.RECOVERY = true) ∧
    (∃ (s : State) (k : Fin 4) (past : List Nat) (u v : State), s.lkState k = 2 ∧
      past = ((SMap.find? s.fw.wdog k.val).getD []).filter (fun t => decide (s.ns < t + 3600000000000)) ∧
      u = ((s.raiseInst 483 k).lkRestart k).satInc (R.LK_STATUS.WDOG k) ∧
      v = { u with fw := { u.fw with wdog := SMap.put u.fw.wdog k.val (u.ns :: past), lk0Wd := u.fw.lk0Wd || k.val == 0 } } ∧
      past.length < 2) ∧
    (∃ (s : State) (k : Fin 4) (past : List Nat) (u v : State), s.lkState k = 2 ∧
      past = ((SMap.find? s.fw.wdog k.val).getD []).filter (fun t => decide (s.ns < t + 3600000000000)) ∧
      u = ((s.raiseInst 483 k).lkRestart k).satInc (R.LK_STATUS.WDOG k) ∧
      v = { u with fw := { u.fw with wdog := SMap.put u.fw.wdog k.val (u.ns :: past), lk0Wd := u.fw.lk0Wd || k.val == 0 } } ∧
      2 ≤ past.length) ∧
    (∃ (s u v : State) (k : Fin 4) (a b : Activation), s.fw.act = some a ∧ a.current = k ∧ a.since + 50000000 ≤ s.ns ∧
      (s.lkState k = 3 ∨ s.lkState k = 4) ∧ b = { a with since := s.ns, rolling := true } ∧
      u = { s with fw := { s.fw with act := some b } } ∧ v = (if a.rolling = true then u else (u.put R.LK_BOOT.ACT 2).raiseInst 485 k) ∧
      v.lkState k ≠ 4) ∧
    (∃ (s u v : State) (k : Fin 4) (a b : Activation), s.fw.act = some a ∧ a.current = k ∧ a.since + 50000000 ≤ s.ns ∧
      (s.lkState k = 3 ∨ s.lkState k = 4) ∧ b = { a with since := s.ns, rolling := true } ∧
      u = { s with fw := { s.fw with act := some b } } ∧ v = (if a.rolling = true then u else (u.put R.LK_BOOT.ACT 2).raiseInst 485 k) ∧
      v.lkState k = 4) ∧
    (∃ (s : State) (p : Path), Writable s p R.FWS_CTL) ∧
    (∃ (s t v : State) (img : FwImage) (fl : Bool), s.get R.FWS_STATUS.STATE = 1 ∧ s.lk0Serves = true ∧
      t = s.readDone 1 s.stagingAddr (s.get R.FWS_LEN.LEN) ∧ v = t.put R.FWS_VER.VERSION img.version ∧ t.fw.fetchBad = true) ∧
    (∃ (s t v : State) (img : FwImage) (fl : Bool), s.get R.FWS_STATUS.STATE = 1 ∧ s.lk0Serves = true ∧
      t = s.readDone 1 s.stagingAddr (s.get R.FWS_LEN.LEN) ∧ v = t.put R.FWS_VER.VERSION img.version ∧ t.fw.fetchBad = false ∧
      img.fault t.fw.minSvn ≠ 0) ∧
    (∃ (s : State) (k : Fin 4) (u : State), u = s.lkReady k ∧ s.lkUp k = false ∧ u.lkUp k = true) :=
  ⟨⟨cfg [(R.GLOBAL_STRAPS.BOOT, 0)], none, _, by decide +kernel, rfl, by decide +kernel⟩,
   ⟨cfg [(R.GLOBAL_STRAPS.BOOT, 1)], none, _, by decide +kernel, rfl, by decide +kernel⟩,
   ⟨cfg [(R.GLOBAL_STRAPS.BOOT, 2)], none, _, by decide +kernel, rfl, by decide +kernel⟩,
   ⟨cfg [(R.GLOBAL_STRAPS.BOOT, 3)], none, _, by decide +kernel, rfl, by decide +kernel⟩,
   ⟨State.reset, .mon, 4, 0, by decide +kernel, by decide +kernel⟩,
   ⟨hostReady, .pf0, 3, 0, R.NS_IN 3, by decide +kernel, by decide +kernel, by unfold Writable; decide +kernel⟩,
   ⟨State.reset, .mon, 4, by decide +kernel, by decide +kernel⟩,
   ⟨State.reset, .pf0, 3, R.NS_IN 3, by decide +kernel, by decide +kernel⟩,
   ⟨hostReady, .pf0, 3, R.NS_IN 3, by decide +kernel, by decide +kernel, by unfold Writable; decide +kernel⟩,
   ⟨{ cfg [(R.LK_STATUS.STATE 0, 2)] with fw := { mbx := [(15, { inFull := true, inWord := 9 })] } }, 15, _, by decide +kernel,
      by decide +kernel, by decide +kernel, rfl⟩,
   ⟨{ cfg [(R.LK_STATUS.STATE 0, 2)] with fw := { mbx := [(15, { outbox := [9] })] } }, 15, 9, [], by decide +kernel,
      by decide +kernel, by decide +kernel⟩,
   ⟨cfg [(R.LK_STATUS.STATE 0, 1)], by decide +kernel, by decide +kernel⟩,
   ⟨cfg [(R.LK_STATUS.STATE 0, 1), (R.LK_BOOT.RECOVERY, 1)], by decide +kernel, by decide +kernel⟩,
   ⟨cfg [(R.LK_STATUS.STATE 3, 2)], 3, _, _, _, by decide +kernel, rfl, rfl, rfl, by decide +kernel⟩,
   ⟨{ cfg [(R.LK_STATUS.STATE 3, 2)] with fw := { wdog := [(3, [0, 0])] } }, 3, _, _, _, by decide +kernel, rfl, rfl, rfl,
      by decide +kernel⟩,
   ⟨{ atTick 2000000 (cfg [(R.LK_STATUS.STATE 3, 3)]) with fw := { act := some { channel := 8, current := 3 } } }, _, _, 3,
      { channel := 8, current := 3 }, _, by decide +kernel, by decide +kernel, by decide +kernel, by decide +kernel, rfl, rfl, rfl,
      by decide +kernel⟩,
   ⟨{ atTick 2000000 (cfg [(R.LK_STATUS.STATE 3, 4)]) with fw := { act := some { channel := 8, current := 3 } } }, _, _, 3,
      { channel := 8, current := 3 }, _, by decide +kernel, by decide +kernel, by decide +kernel, by decide +kernel, rfl, rfl, rfl,
      by decide +kernel⟩,
   ⟨State.reset, .fw, by unfold Writable; decide +kernel⟩,
   ⟨{ cfg [(R.FWS_STATUS.STATE, 1), (R.LK_STATUS.STATE 0, 2)] with fw := { ready := true, fetchBad := true } }, _, _,
      { head := [] }, false, by decide +kernel, by decide +kernel, rfl, rfl, by decide +kernel⟩,
   ⟨{ cfg [(R.FWS_STATUS.STATE, 1), (R.LK_STATUS.STATE 0, 2)] with fw := { ready := true } }, _, _, { head := [] }, false,
      by decide +kernel, by decide +kernel, rfl, rfl, by decide +kernel, by decide +kernel⟩,
   ⟨cfg [(R.LK_STATUS.STATE 1, 1)], 1, _, rfl, by decide +kernel, by decide +kernel⟩⟩

theorem test_displayCommandsAct :
    (∃ (s : State) (p : Path) (h : Fin 2) (w : Word), Writable s p (R.DISP_CTL h)) ∧
    (∃ (s : State) (h : Fin 2), s.headState h = 1) ∧
    (∃ (s : State) (h : Fin 2) (lost : Bool), s.headState h = 3) ∧
    (∃ (s : State) (h : Fin 2) (rate : Fin 5) (lanes : Fin 5) (l : Nat) (u : State), s.headState h = 2 ∧ s.lkUp 3 = true ∧
      u = s.updHead h (fun x => { x with sink := some (rate.val, lanes.val) }) ∧
      dpLanes (u.headGet h (R.DISP_PCLK.PCLK_KHZ h)) rate lanes = some l ∧ (u.head h).attempts < 2) ∧
    (∃ (s : State) (h : Fin 2) (rate : Fin 5) (lanes : Fin 5) (l : Nat) (u : State), s.headState h = 2 ∧ s.lkUp 3 = true ∧
      u = s.updHead h (fun x => { x with sink := some (rate.val, lanes.val) }) ∧
      dpLanes (u.headGet h (R.DISP_PCLK.PCLK_KHZ h)) rate lanes = some l ∧ 2 ≤ (u.head h).attempts) ∧
    (∃ (s : State) (h : Fin 2) (u : State), s.headState h = 3 ∧ (s.head h).line = none ∧ u = s.blankingBegins h ∧
      u.on (R.DISP_STATUS.COMMIT_PEND h) = false) ∧
    (∃ (s : State) (h : Fin 2) (u : State), s.headState h = 3 ∧ (s.head h).line = none ∧ u = s.blankingBegins h ∧
      u.on (R.DISP_STATUS.COMMIT_PEND h) = true ∧ (u.copyShadow h).1 = false) ∧
    (∃ (s : State) (h : Fin 2), s.headState h = 3 ∧ (s.head h).line = some (s.activeLines h) ∧
      (s.blankingBegins h).on (R.DISP_STATUS.COMMIT_PEND h) = false) ∧
    (∃ (s : State) (h : Fin 2) (supplied : Fin 3841) (y : Nat), s.headState h = 3 ∧ (s.head h).line = some y ∧ y < s.activeLines h) ∧
    (∃ (s : State) (ring index : Nat) (o : Order) (bs : List Byte) (u : State), s.order? (ring, index) = some o ∧
      o.opcode = 0x0F01 ∧ o.phase ≠ .cancelling ∧ u = (s.writeHost (o.u 24 8 + o.done) (overlay (List.replicate 16 0#8) 0 (bs.take 16)) []).updOrder o.ref (fun x => { x with phase := .running, done := o.done + 16, aux := 0 }) ∧
      o.done + 16 < 128 * o.u 18 1) ∧
    (∃ (s : State) (ring index : Nat) (o : Order) (bs : List Byte) (u : State), s.order? (ring, index) = some o ∧
      o.opcode = 0x0F01 ∧ o.phase ≠ .cancelling ∧ u = (s.writeHost (o.u 24 8 + o.done) (overlay (List.replicate 16 0#8) 0 (bs.take 16)) []).updOrder o.ref (fun x => { x with phase := .running, done := o.done + 16, aux := 0 }) ∧
      128 * o.u 18 1 ≤ o.done + 16) ∧
    (∃ (s : State) (ring index : Nat) (o : Order) (bs : List Byte) (u : State), s.order? (ring, index) = some o ∧
      o.opcode = 0x0F01 ∧ o.phase ≠ .cancelling ∧ u = (s.writeHost (o.u 24 8 + o.done) (overlay (List.replicate 16 0#8) 0 (bs.take 16)) []).updOrder o.ref (fun x => { x with phase := .running, done := o.done + 16, aux := 0 }) ∧
      o.aux < 3) ∧
    (∃ (s : State) (ring index : Nat) (o : Order) (bs : List Byte) (u : State), s.order? (ring, index) = some o ∧
      o.opcode = 0x0F01 ∧ o.phase ≠ .cancelling ∧ u = (s.writeHost (o.u 24 8 + o.done) (overlay (List.replicate 16 0#8) 0 (bs.take 16)) []).updOrder o.ref (fun x => { x with phase := .running, done := o.done + 16, aux := 0 }) ∧
      3 ≤ o.aux) ∧
    (∃ (s : State) (w : Word), Writable s .mgmt R.PNL_CFG) ∧
    (∃ (s : State) (id : Word) (u : State), s.pnlState = 1 ∧ s.lkUp 3 = true ∧ s.panel.since + 240010000 ≤ s.ns ∧
      u = ((s.send (.frame 6 0 [0x11#8])).send (.frame 6 0 [0x3A#8])).send (.frame 6 0 [0x04#8]) ∧ id = 0) ∧
    (∃ (s : State) (id : Word) (u : State), s.pnlState = 1 ∧ s.lkUp 3 = true ∧ s.panel.since + 240010000 ≤ s.ns ∧
      u = ((s.send (.frame 6 0 [0x11#8])).send (.frame 6 0 [0x3A#8])).send (.frame 6 0 [0x04#8]) ∧ id ≠ 0 ∧ id ≠ 0xFFFFFFFF#32) ∧
    (∃ (s : State), s.get R.PNL_PERIOD.PERIOD_MS ≠ 0 ∧ s.pnlCanPush = true ∧
      s.panel.since + 1000000 * s.get R.PNL_PERIOD.PERIOD_MS ≤ s.ns) :=
  ⟨⟨State.reset, .fw, 1, 0, by unfold Writable; decide +kernel⟩,
   ⟨State.reset.put (R.DISP_STATUS.STATE 1) 1, 1, by decide +kernel⟩,
   ⟨State.reset.put (R.DISP_STATUS.STATE 1) 3, 1, true, by decide +kernel⟩,
   ⟨cfg [(R.DISP_STATUS.STATE 1, 2), (R.LK_STATUS.STATE 3, 2)], 1, 4, 4, 1, _, by decide +kernel, by decide +kernel, rfl,
      by decide +kernel, by decide +kernel⟩,
   ⟨{ cfg [(R.DISP_STATUS.STATE 1, 2), (R.LK_STATUS.STATE 3, 2)] with heads := [(1, { attempts := 2 })] }, 1, 4, 4, 1, _,
      by decide +kernel, by decide +kernel, rfl, by decide +kernel, by decide +kernel⟩,
   ⟨cfg [(R.DISP_STATUS.STATE 1, 3)], 1, _, by decide +kernel, by decide +kernel, rfl, by decide +kernel⟩,
   ⟨cfg [(R.DISP_STATUS.STATE 1, 3), (R.DISP_STATUS.COMMIT_PEND 1, 1)], 1, _, by decide +kernel, by decide +kernel, rfl,
      by decide +kernel, by decide +kernel⟩,
   ⟨{ cfg [(R.DISP_STATUS.STATE 1, 3)] with heads := [(1, { line := some (State.reset.activeLines 1) })] }, 1, by decide +kernel,
      by decide +kernel, by decide +kernel⟩,
   ⟨{ cfg [(R.DISP_STATUS.STATE 1, 3)] with heads := [(1, { line := some 1079 })] }, 1, 3840, 1079, by decide +kernel,
      by decide +kernel, by decide +kernel⟩,
   ⟨standing (orderOf 0x0F01 [(18, 1, 2), (16, 1, 1)]), 0, 0, orderOf 0x0F01 [(18, 1, 2), (16, 1, 1)], [], _, by decide +kernel,
      by decide +kernel, by decide +kernel, rfl, by decide +kernel⟩,
   ⟨standing (orderOf 0x0F01 [(18, 1, 0), (16, 1, 1)]), 0, 0, orderOf 0x0F01 [(18, 1, 0), (16, 1, 1)], [], _, by decide +kernel,
      by decide +kernel, by decide +kernel, rfl, by decide +kernel⟩,
   ⟨standing (orderOf 0x0F01 [(18, 1, 2), (16, 1, 1)]), 0, 0, orderOf 0x0F01 [(18, 1, 2), (16, 1, 1)], [], _, by decide +kernel,
      by decide +kernel, by decide +kernel, rfl, by decide +kernel⟩,
   ⟨standing ({ orderOf 0x0F01 [(18, 1, 2), (16, 1, 1)] with aux := 3 }), 0, 0,
      { orderOf 0x0F01 [(18, 1, 2), (16, 1, 1)] with aux := 3 }, [], _, by decide +kernel, by decide +kernel, by decide +kernel,
      rfl, by decide +kernel⟩,
   ⟨mgmtReady, 1, by unfold Writable; decide +kernel⟩,
   ⟨atTick 7000000 (cfg [(R.PNL_STATUS.STATE, 1), (R.LK_STATUS.STATE 3, 2)]), 0, _, by decide +kernel, by decide +kernel,
      by decide +kernel, rfl, by decide +kernel⟩,
   ⟨atTick 7000000 (cfg [(R.PNL_STATUS.STATE, 1), (R.LK_STATUS.STATE 3, 2)]), 1, _, by decide +kernel, by decide +kernel,
      by decide +kernel, rfl, by decide +kernel, by decide +kernel⟩,
   ⟨atTick 25000 (cfg [(R.PNL_STATUS.STATE, 2), (R.LK_STATUS.STATE 3, 2), (R.PNL_PERIOD.PERIOD_MS, 1)]), by decide +kernel,
      by decide +kernel, by decide +kernel⟩⟩

theorem test_powerCommandsAct :
    (∃ (s : State) (p : Path) (r : Fin 4), Writable s p R.GLOBAL_PWRCTL) ∧
    (∃ (s : State) (r : PwrReq), s.power.req = some r ∧ s.climbingDeps ≠ []) ∧
    (∃ (s : State) (r : PwrReq), s.power.req = some r ∧ s.climbingDeps = [] ∧ s.lkUp 0 = true ∧ s.get R.LK_BOOT.ACT = 0 ∧
      s.power.entering = none ∧ s.power.returning = none) ∧
    (∃ (s : State) (r : PwrReq), s.power.entering = some r ∧ s.power.drained = false ∧ s.queuesEmpty = true) ∧
    (∃ (s : State) (r : PwrReq), s.power.entering = some r ∧ s.power.drained = false ∧ s.queuesEmpty = false ∧
      s.power.drainAt + 1000000 * s.get R.GLOBAL_PWRPOL.SLEEP_DRAIN ≤ s.adv) ∧
    (∃ (s : State) (r : PwrReq), s.power.entering = some r ∧ s.power.drained = true) ∧
    (∃ (s : State), s.power.wake.isSome = true ∧ s.lowPower = true ∧ s.power.entering = none ∧ s.power.returning = none ∧
      s.monitor.tripped = false ∧ s.on R.CLK_REF.PRESENT = true ∧ s.lkUp 0 = true) ∧
    (∃ (s : State) (t : Nat), s.power.idleSince = some t ∧ s.autoIdle = true ∧ s.power.req = none ∧
      t + 1000000 * max 1 (s.get R.GLOBAL_PWRPOL.AUTO_AFTER) ≤ s.adv ∧ s.get R.GLOBAL_PWRPOL.AUTO_MODE = 1) ∧
    (∃ (s : State) (t : Nat), s.power.idleSince = some t ∧ s.autoIdle = true ∧ s.power.req = none ∧
      t + 1000000 * max 1 (s.get R.GLOBAL_PWRPOL.AUTO_AFTER) ≤ s.adv ∧ s.get R.GLOBAL_PWRPOL.AUTO_MODE = 2 ∧
      (List.range 64).any (fun p => s.on (R.POUND_CFG.EN p)) = false) ∧
    (∃ (s : State) (t : Nat), s.power.idleSince = some t ∧ s.autoIdle = true ∧ s.power.req = none ∧
      t + 1000000 * max 1 (s.get R.GLOBAL_PWRPOL.AUTO_AFTER) ≤ s.adv ∧ s.get R.GLOBAL_PWRPOL.AUTO_MODE = 2 ∧
      (List.range 64).any (fun p => s.on (R.POUND_CFG.EN p)) = true) ∧
    (∃ (s : State) (t : Nat), s.clk.lostAt = some t ∧ s.on R.CLK_REF.PRESENT = false ∧ t + 10000000 ≤ s.adv ∧ s.lowPower = false ∧
      s.power.entering = none) ∧
    (∃ (s : State), s.pcie.linkUp = true ∧ s.fw.ready = true ∧ s.pcie.d3hot0 = false) ∧
    (∃ (s : State), s.pcie.linkUp = true ∧ s.fw.ready = true ∧ s.pcie.d3hot0 = true) ∧
    (∃ (s : State) (failed : List (Fin 6)) (t : Nat), s.power.returning = some t ∧ s.lowPower = true ∧
      (s.returned failed).on R.RING_STATUS.PARKED = false) ∧
    (∃ (s : State) (failed : List (Fin 6)) (t : Nat), s.power.returning = some t ∧ s.lowPower = true ∧
      (s.returned failed).on R.RING_STATUS.PARKED = true) :=
  ⟨⟨State.reset, .fw, 3, by unfold Writable; decide +kernel⟩,
   ⟨{ cfg [(R.FL_STATUS.STATE 0, 3)] with power := { req := some { target := 0 } }, flights := [(0, { deps := [1] })] },
      { target := 0 }, by decide +kernel, by decide +kernel⟩,
   ⟨{ cfg [(R.LK_STATUS.STATE 0, 2)] with power := { req := some { target := 1 } } }, { target := 1 }, by decide +kernel,
      by decide +kernel, by decide +kernel, by decide +kernel, by decide +kernel, by decide +kernel⟩,
   ⟨{ cfg [] with power := { entering := some { target := 0 } } }, { target := 0 }, by decide +kernel, by decide +kernel,
      by decide +kernel⟩,
   ⟨{ atTick 100000000 (cfg []) with power := { entering := some { target := 0 } }, queues := [(0, { barges := [{ barge := dataBarge, cells := [], total := 0 }] })] },
      { target := 0 }, by decide +kernel, by decide +kernel, by decide +kernel, by decide +kernel⟩,
   ⟨{ cfg [] with power := { entering := some { target := 0 }, drained := true } }, { target := 0 }, by decide +kernel,
      by decide +kernel⟩,
   ⟨{ cfg [(R.GLOBAL_PWRSTAT.MODE, 1), (R.LK_STATUS.STATE 0, 2), (R.CLK_REF.PRESENT, 1)] with power := { wake := some 1 } },
      by decide +kernel, by decide +kernel, by decide +kernel, by decide +kernel, by decide +kernel, by decide +kernel,
      by decide +kernel⟩,
   ⟨{ cfg [(R.RING_STATUS.PARKED, 1), (R.GLOBAL_PWRPOL.AUTO_MODE, 1), (R.GLOBAL_PWRPOL.AUTO_AFTER, 1)] (atTick 25000 State.reset) with power := { idleSince := some 0 } },
      0, by decide +kernel, by decide +kernel, by decide +kernel, by decide +kernel, by decide +kernel⟩,
   ⟨{ cfg [(R.RING_STATUS.PARKED, 1), (R.GLOBAL_PWRPOL.AUTO_MODE, 2), (R.GLOBAL_PWRPOL.AUTO_AFTER, 1)] (atTick 25000 State.reset) with power := { idleSince := some 0 } },
      0, by decide +kernel, by decide +kernel, by decide +kernel, by decide +kernel, by decide +kernel, by decide +kernel⟩,
   ⟨{ cfg [(R.RING_STATUS.PARKED, 1), (R.GLOBAL_PWRPOL.AUTO_MODE, 2), (R.POUND_CFG.EN 63, 1), (R.GLOBAL_PWRPOL.AUTO_AFTER, 1)] (atTick 25000 State.reset) with power := { idleSince := some 0 } },
      0, by decide +kernel, by decide +kernel, by decide +kernel, by decide +kernel, by decide +kernel, by decide +kernel⟩,
   ⟨{ atTick 250000 State.reset with clk := { lostAt := some 0 } }, 0, by decide +kernel, by decide +kernel, by decide +kernel,
      by decide +kernel, by decide +kernel⟩,
   ⟨hostReady, by decide +kernel, by decide +kernel, by decide +kernel⟩,
   ⟨{ hostReady with pcie := { linkUp := true, d3hot0 := true } }, by decide +kernel, by decide +kernel, by decide +kernel⟩,
   ⟨{ cfg [(R.GLOBAL_PWRSTAT.MODE, 1)] with power := { returning := some 0 } }, [], 0, by decide +kernel, by decide +kernel,
      by decide +kernel⟩,
   ⟨{ cfg [(R.GLOBAL_PWRSTAT.MODE, 1), (R.RING_STATUS.PARKED, 1)] with power := { returning := some 0 } }, [], 0, by decide +kernel,
      by decide +kernel, by decide +kernel⟩⟩

theorem test_housekeepingCommandsAct :
    (∃ (s : State) (m : Fin 4) (v : BitVec 16) (raw : BitVec 12) (ch : Nat) (rest : List Nat), m.val = 0 ∧
      (s.hkSeq m).running = ch :: rest ∧ (s.hkSeq m).nextAt ≤ s.ns ∧ unusedChannel ch = false) ∧
    (∃ (s : State) (m : Fin 4) (v : BitVec 16) (raw : BitVec 12) (ch : Nat), m.val ≠ 0 ∧ (s.hkSeq m).running = [ch] ∧
      (s.hkSeq m).nextAt ≤ s.ns ∧ unusedChannel ch = false) ∧
    (∃ (s : State) (m : Fin 4), (s.hkSeq m).pendingStart = true ∧ s.hkBlocked m = false) ∧
    (∃ (s : State) (u : State), (s.hkSeq 0).pendingStart = false ∧ s.fw.ready = true ∧ s.hkDue? 0 = some u) ∧
    (∃ (s : State) (p : Path) (m : Fin 3), Writable s p (R.HK_SEQ_CTL m)) ∧
    (∃ (s : State) (i : Fin 4), s.on (R.HK_PWM.EN i) = true ∧ SMap.find? s.pwms i.val = none) ∧
    (∃ (s : State) (pre : Bool) (ch : Nat) (u : State), s.monitor.emergDue = some ch ∧
      u = State.satInc (State.put { s with monitor := { s.monitor with emergDue := none } } R.GLOBAL_PROT.EMERG 1) R.GLOBAL_PROT.ACTIONS) ∧
    (∃ (s : State) (pre : Bool) (ch : Nat) (u : State), s.monitor.supplyDue = some ch ∧
      u = (State.satInc (State.put (State.put { s with monitor := { s.monitor with supplyDue := none } } R.GLOBAL_PROT.SUPPLY 1) R.GLOBAL_PROT.RAIL ch) R.GLOBAL_PROT.ACTIONS).raise 421 ch (protInfo ch pre) ∧
      (ch = 21 ∨ ch = 22)) ∧
    (∃ (s : State) (pre : Bool) (ch : Nat) (u : State), s.monitor.supplyDue = some ch ∧
      u = (State.satInc (State.put (State.put { s with monitor := { s.monitor with supplyDue := none } } R.GLOBAL_PROT.SUPPLY 1) R.GLOBAL_PROT.RAIL ch) R.GLOBAL_PROT.ACTIONS).raise 421 ch (protInfo ch pre) ∧
      (ch = 16 ∨ ch = 18 ∨ ch = 19 ∨ ch = 20)) ∧
    (∃ (s : State) (pre : Bool) (ch : Nat) (u : State), s.monitor.supplyDue = some ch ∧
      u = (State.satInc (State.put (State.put { s with monitor := { s.monitor with supplyDue := none } } R.GLOBAL_PROT.SUPPLY 1) R.GLOBAL_PROT.RAIL ch) R.GLOBAL_PROT.ACTIONS).raise 421 ch (protInfo ch pre) ∧
      ch ∉ [16, 18, 19, 20, 21, 22]) ∧
    (∃ (s : State) (p : Path), Writable s p R.GLOBAL_PROT) :=
  ⟨⟨{ State.reset with hkSeqs := [(0, { running := [0, 1] })] }, 0, 0, 0, 0, [1], by decide +kernel, by decide +kernel,
      by decide +kernel, by decide +kernel⟩,
   ⟨{ State.reset with hkSeqs := [(3, { running := [55] })] }, 3, 0xFFFF, 4095, 55, by decide +kernel, by decide +kernel,
      by decide +kernel, by decide +kernel⟩,
   ⟨{ State.reset with hkSeqs := [(3, { pendingStart := true })] }, 3, by decide +kernel, by decide +kernel⟩,
   ⟨{ atTick 25000 State.reset with fw := { ready := true } },
      ({ atTick 25000 State.reset with fw := { ready := true } }).updHkSeq 0 (fun q => { q with lastStart := q.lastStart + 1000000 }),
      by decide +kernel, by decide +kernel, by decide +kernel⟩,
   ⟨State.reset, .fw, 2, by unfold Writable; decide +kernel⟩,
   ⟨cfg [(R.HK_PWM.EN 3, 1)], 3, by decide +kernel, by decide +kernel⟩,
   ⟨{ State.reset with monitor := { emergDue := some 32 } }, true, 32, _, by decide +kernel, rfl⟩,
   ⟨{ State.reset with monitor := { supplyDue := some 21 } }, true, 21, _, by decide +kernel, rfl, by decide +kernel⟩,
   ⟨{ State.reset with monitor := { supplyDue := some 16 } }, true, 16, _, by decide +kernel, rfl, by decide +kernel⟩,
   ⟨{ State.reset with monitor := { supplyDue := some 17 } }, true, 17, _, by decide +kernel, rfl, by decide +kernel⟩,
   ⟨State.reset, .fw, by unfold Writable; decide +kernel⟩⟩

theorem test_registerReadsAct :
    (∃ (s : State) (p : Path) (k : Nat), k = R.CONV_SYNC_T0 ∧ pathCarries p k = true ∧ s.reaches p k = true ∧ s.retained k = false) ∧
    (∃ (s : State) (p : Path) (k : Nat), k = R.CONV_SYNC_T0 ∧ pathCarries p k = true ∧ s.reaches p k = true ∧ s.retained k = true) ∧
    (∃ (s : State) (p : Path) (n : Fin 4) (k : Nat), k = R.ADC_SCNT_LO n ∧ pathCarries p k = true ∧ s.reaches p k = true ∧
      s.retained k = false) ∧
    (∃ (s : State) (p : Path) (n : Fin 4) (k : Nat), k = R.ADC_SCNT_LO n ∧ pathCarries p k = true ∧ s.reaches p k = true ∧
      s.retained k = true) ∧
    (∃ (s : State) (p : Path) (k : Nat), k = 0x4000000 + 0x40 * s.get R.QUEUE_SEL.QUEUE + 0x28 ∧ pathCarries p 0x90028 = true ∧
      s.reaches p 0x90028 = true ∧ s.lowPower = false) ∧
    (∃ (s : State) (p : Path) (k : Nat), k = 0x4000000 + 0x40 * s.get R.QUEUE_SEL.QUEUE + 0x28 ∧ pathCarries p 0x90028 = true ∧
      s.reaches p 0x90028 = true ∧ s.lowPower = true) ∧
    (∃ (s : State) (p : Path) (n : Fin 8) (k : Nat), k = R.NVME_SLOT_CAP_LO n ∧ pathCarries p k = true ∧ s.reaches p k = true ∧
      s.retained k = false) ∧
    (∃ (s : State) (p : Path) (n : Fin 8) (k : Nat), k = R.NVME_SLOT_CAP_LO n ∧ pathCarries p k = true ∧ s.reaches p k = true ∧
      s.retained k = true) ∧
    (∃ (s : State) (p : Path) (n : Fin 8) (k : Nat), k = R.NVME_REC_CHUNK_LO n ∧ pathCarries p k = true ∧ s.reaches p k = true ∧
      s.retained k = false) ∧
    (∃ (s : State) (p : Path) (n : Fin 8) (k : Nat), k = R.NVME_REC_CHUNK_LO n ∧ pathCarries p k = true ∧ s.reaches p k = true ∧
      s.retained k = true) ∧
    (∃ (s : State) (p : Path) (n : Fin 8) (k : Nat), k = R.NVME_REC_TREC0 n ∧ pathCarries p k = true ∧ s.reaches p k = true ∧
      s.retained k = false) ∧
    (∃ (s : State) (p : Path) (n : Fin 8) (k : Nat), k = R.NVME_REC_TREC0 n ∧ pathCarries p k = true ∧ s.reaches p k = true ∧
      s.retained k = true) ∧
    (∃ (s : State) (p : Path) (n : Fin 8) (k : Nat), k = R.SG_T0 n ∧ pathCarries p k = true ∧ s.reaches p k = true ∧
      s.retained k = false) ∧
    (∃ (s : State) (p : Path) (n : Fin 8) (k : Nat), k = R.SG_T0 n ∧ pathCarries p k = true ∧ s.reaches p k = true ∧
      s.retained k = true) ∧
    (∃ (s : State) (p : Path) (n : Fin 8) (k : Nat), k = R.SG_PLAYED_LO n ∧ pathCarries p k = true ∧ s.reaches p k = true ∧
      s.retained k = false) ∧
    (∃ (s : State) (p : Path) (n : Fin 8) (k : Nat), k = R.SG_PLAYED_LO n ∧ pathCarries p k = true ∧ s.reaches p k = true ∧
      s.retained k = true) ∧
    (∃ (s : State) (p : Path) (sub : Fin 2621440) (k : Nat), k = R.TIME_NOW0 ∧ pathCarries p k = true ∧ s.reaches p k = true ∧
      s.retained k = false) ∧
    (∃ (s : State) (p : Path) (n : Fin 2) (k : Nat), k = R.ETH_TXT0 n ∧ pathCarries p k = true ∧ s.reaches p k = true) ∧
    (∃ (s : State) (p : Path) (n : Fin 6) (k : Nat), k = R.ETH_RXT0 n ∧ pathCarries p k = true ∧ s.reaches p k = true) ∧
    (∃ (s : State), s.reaches .mgmt R.MGMT_DATA = true) :=
  ⟨⟨State.reset, .fw, _, rfl, by decide +kernel, by decide +kernel, by decide +kernel⟩,
   ⟨cfg [(R.GLOBAL_PWRSTAT.MODE, 1)], .fw, _, rfl, by decide +kernel, by decide +kernel, by decide +kernel⟩,
   ⟨State.reset, .fw, 3, _, rfl, by decide +kernel, by decide +kernel, by decide +kernel⟩,
   ⟨cfg [(R.GLOBAL_PWRSTAT.MODE, 1)], .fw, 3, _, rfl, by decide +kernel, by decide +kernel, by decide +kernel⟩,
   ⟨State.reset, .fw, _, rfl, by decide +kernel, by decide +kernel, by decide +kernel⟩,
   ⟨cfg [(R.GLOBAL_PWRSTAT.MODE, 1)], .fw, _, rfl, by decide +kernel, by decide +kernel, by decide +kernel⟩,
   ⟨State.reset, .fw, 7, _, rfl, by decide +kernel, by decide +kernel, by decide +kernel⟩,
   ⟨cfg [(R.GLOBAL_PWRSTAT.MODE, 1)], .fw, 7, _, rfl, by decide +kernel, by decide +kernel, by decide +kernel⟩,
   ⟨State.reset, .fw, 7, _, rfl, by decide +kernel, by decide +kernel, by decide +kernel⟩,
   ⟨cfg [(R.GLOBAL_PWRSTAT.MODE, 1)], .fw, 7, _, rfl, by decide +kernel, by decide +kernel, by decide +kernel⟩,
   ⟨State.reset, .fw, 7, _, rfl, by decide +kernel, by decide +kernel, by decide +kernel⟩,
   ⟨cfg [(R.GLOBAL_PWRSTAT.MODE, 1)], .fw, 7, _, rfl, by decide +kernel, by decide +kernel, by decide +kernel⟩,
   ⟨State.reset, .fw, 7, _, rfl, by decide +kernel, by decide +kernel, by decide +kernel⟩,
   ⟨cfg [(R.GLOBAL_PWRSTAT.MODE, 1)], .fw, 7, _, rfl, by decide +kernel, by decide +kernel, by decide +kernel⟩,
   ⟨State.reset, .fw, 7, _, rfl, by decide +kernel, by decide +kernel, by decide +kernel⟩,
   ⟨cfg [(R.GLOBAL_PWRSTAT.MODE, 1)], .fw, 7, _, rfl, by decide +kernel, by decide +kernel, by decide +kernel⟩,
   ⟨State.reset, .fw, 2621439, _, rfl, by decide +kernel, by decide +kernel, by decide +kernel⟩,
   ⟨hostReady, .pf0, 1, _, rfl, by decide +kernel, by decide +kernel⟩,
   ⟨hostReady, .pf0, 5, _, rfl, by decide +kernel, by decide +kernel⟩,
   ⟨mgmtReady, by decide +kernel⟩⟩

theorem test_registerWritesAndResetsAct :
    (∃ (s : State) (p : Path) (k : Nat) (w : Word), pathCarries p k = true ∧ k % 4 = 0 ∧ k ≠ R.GLOBAL_RESET ∧ Writable s p k) ∧
    (∃ (s : State) (w : Word), Writable s .mgmt R.MGMT_DATA) ∧
    (∃ (s : State) (off : Bool), Writable s .mgmt R.MGMT_MON) ∧
    (∃ (s : State), Writable s .pf0 R.WAKE) ∧
    (∃ (s : State) (p : Path), s.reaches p R.GLOBAL_RESET = true ∧ s.get R.GLOBAL_OWNER.HOLDER = pathAgent p ∧ p ≠ .fw) ∧
    (∃ (s : State) (o : Order), s.next? = some o) ∧
    (∃ (s : State) (ring index off : Nat) (data : List Byte) (o : Order), s.order? (ring, index) = some o ∧ s.reading o = true) ∧
    (∃ (s : State) (ring index : Nat) (o : Order), s.order? (ring, index) = some o ∧ s.reading o = true ∧
      s.pcie.cplTimeoutOff = false) ∧
    (∃ (s : State) (fn : Fin 2), s.pcie.linkUp = true) :=
  ⟨⟨State.reset, .fw, 0xFFFFFC, 0, by decide +kernel, by decide +kernel, by decide +kernel, by unfold Writable; decide +kernel⟩,
   ⟨mgmtReady, 0, by unfold Writable; decide +kernel⟩,
   ⟨mgmtReady, true, by unfold Writable; decide +kernel⟩,
   ⟨hostReady, by unfold Writable; decide +kernel⟩,
   ⟨hostReady, .pf0, by decide +kernel, by decide +kernel, by decide +kernel⟩,
   ⟨queued (orderOf 0x0000), orderOf 0x0000, by decide +kernel⟩,
   ⟨{ standing (orderOf 0x0000) with reads := [{ order := (0, 0), addr := 0, len := 4 }] }, 0, 0, 0, [], orderOf 0x0000,
      by decide +kernel, by decide +kernel⟩,
   ⟨{ standing (orderOf 0x0000) with reads := [{ order := (0, 0), addr := 0, len := 4 }] }, 0, 0, orderOf 0x0000, by decide +kernel,
      by decide +kernel, by decide +kernel⟩,
   ⟨hostReady, 1, by decide +kernel⟩⟩

theorem test_monitorCommandsAct :
    (∃ (s : State), s.monRuns = true) ∧
    (∃ (s : State) (a n : Nat), s.monRuns = true ∧ a % 4 = 0 ∧ 1 ≤ n ∧ n ≤ 64 ∧ a + 4 * n ≤ 0x1000000) ∧
    (∃ (s : State) (a n : Nat), s.monRuns = true ∧ a % 4 = 0 ∧ 1 ≤ n ∧ n ≤ 64 ∧ a + 4 * n ≤ 0x10000) ∧
    (∃ (s : State) (a n : Nat), s.monRuns = true ∧ a % 4 = 0 ∧ 1 ≤ n ∧ n ≤ 64 ∧ 0x1000000 < a + 4 * n) ∧
    (∃ (s : State) (a : Nat) (v : Word), s.monRuns = true ∧ a % 4 = 0 ∧ a < 0x1000000 ∧ s.mayWrite .mon a = false) ∧
    (∃ (s : State) (a : Nat) (v : Word), s.monRuns = true ∧ a % 4 = 0 ∧ a < 0x1000000 ∧ s.mayWrite .mon a = true ∧
      (s.busWrite .mon a v).monRuns = true) ∧
    (∃ (s : State) (w : Word), s.monRuns = true ∧ (s.mbx 4).inFull = false) ∧
    (∃ (s : State) (w : Word), s.monRuns = true ∧ (s.mbx 4).inFull = true) ∧
    (∃ (s : State) (r : Nat), s.monRuns = true ∧ r ≤ 3) ∧
    (∃ (s : State) (r : Nat), s.monRuns = true ∧ 3 < r) ∧
    (∃ (s : State) (k : Word), s.monRuns = true ∧ s.get R.GLOBAL_OWNER.HOLDER ≠ 3) ∧
    (∃ (s : State) (k : Word), s.monRuns = true ∧ s.get R.GLOBAL_OWNER.HOLDER = 3 ∧ k = 0x5253#32 ∧
      (s.fullReset 2 3).monRuns = false) ∧
    (∃ (s : State) (lost : Nat), s.monRuns = true) :=
  ⟨⟨monReady, by decide +kernel⟩,
   ⟨monReady, 0xFFFF00, 64, by decide +kernel, by decide +kernel, by decide +kernel, by decide +kernel, by decide +kernel⟩,
   ⟨monReady, 0xFF00, 64, by decide +kernel, by decide +kernel, by decide +kernel, by decide +kernel, by decide +kernel⟩,
   ⟨monReady, 0xFFFF04, 64, by decide +kernel, by decide +kernel, by decide +kernel, by decide +kernel, by decide +kernel⟩,
   ⟨monReady, 0xFFFFFC, 0, by decide +kernel, by decide +kernel, by decide +kernel, by decide +kernel⟩,
   ⟨cfg [(R.GLOBAL_OWNER.HOLDER, 3)] monReady, 0xFFFFFC, 0, by decide +kernel, by decide +kernel, by decide +kernel,
      by decide +kernel, by decide +kernel⟩,
   ⟨monReady, 0, by decide +kernel, by decide +kernel⟩,
   ⟨{ monReady with fw := { mbx := [(4, { inFull := true })] } }, 0, by decide +kernel, by decide +kernel⟩,
   ⟨monReady, 3, by decide +kernel, by decide +kernel⟩,
   ⟨monReady, 4, by decide +kernel, by decide +kernel⟩,
   ⟨monReady, 0x5253, by decide +kernel, by decide +kernel⟩,
   ⟨cfg [(R.GLOBAL_OWNER.HOLDER, 3)] monReady, 0x5253, by decide +kernel, by decide +kernel, by decide +kernel, by decide +kernel⟩,
   ⟨monReady, 1, by decide +kernel⟩⟩

theorem test_managementBusCommandsAct :
    (∃ (s : State) (w : Word), s.lkUp 0 = true) ∧
    (∃ (s : State), s.lkUp 0 = true) ∧
    (∃ (s : State) (w : Word), s.lkUp 0 = true) ∧
    (∃ (s : State) (w : Word), s.lkUp 0 = true) ∧
    (∃ (s : State), s.monRuns = true) ∧
    (∃ (s : State) (a n : Nat), s.monRuns = true ∧ a % 4 = 0 ∧ 1 ≤ n ∧ n ≤ 64 ∧ a + 4 * n ≤ 0x1000000) ∧
    (∃ (s : State) (a n : Nat), s.monRuns = true ∧ a % 4 = 0 ∧ 1 ≤ n ∧ n ≤ 64 ∧ a + 4 * n ≤ 0x10000) ∧
    (∃ (s : State) (a n : Nat), s.monRuns = true ∧ a % 4 = 0 ∧ 1 ≤ n ∧ n ≤ 64 ∧ 0x1000000 < a + 4 * n) ∧
    (∃ (s : State) (a : Nat) (v : Word), s.monRuns = true ∧ a % 4 = 0 ∧ a < 0x1000000 ∧ s.mayWrite .mon a = false) ∧
    (∃ (s : State) (a : Nat) (v : Word), s.monRuns = true ∧ a % 4 = 0 ∧ a < 0x1000000 ∧ s.mayWrite .mon a = true ∧
      (s.busWrite .mon a v).monRuns = true) ∧
    (∃ (s : State) (w : Word), s.monRuns = true ∧ (s.mbx 4).inFull = false) ∧
    (∃ (s : State) (w : Word), s.monRuns = true ∧ (s.mbx 4).inFull = true) ∧
    (∃ (s : State) (r : Nat), s.monRuns = true ∧ r ≤ 3) ∧
    (∃ (s : State) (r : Nat), s.monRuns = true ∧ 3 < r) ∧
    (∃ (s : State) (k : Word), s.monRuns = true ∧ s.get R.GLOBAL_OWNER.HOLDER ≠ 3) ∧
    (∃ (s : State) (k : Word), s.monRuns = true ∧ s.get R.GLOBAL_OWNER.HOLDER = 3 ∧ k = 0x5253#32 ∧
      (s.fullReset 2 3).monRuns = false) ∧
    (∃ (s : State) (lost : Nat), s.monRuns = true) :=
  ⟨⟨linkLocked 0, 0xFFFFFFFF, by decide +kernel⟩,
   ⟨linkLocked 0, by decide +kernel⟩,
   ⟨linkLocked 0, 0x3000000, by decide +kernel⟩,
   ⟨linkLocked 0, 1, by decide +kernel⟩,
   ⟨monReady, by decide +kernel⟩,
   ⟨monReady, 0xFFFF00, 64, by decide +kernel, by decide +kernel, by decide +kernel, by decide +kernel, by decide +kernel⟩,
   ⟨monReady, 0xFF00, 64, by decide +kernel, by decide +kernel, by decide +kernel, by decide +kernel, by decide +kernel⟩,
   ⟨monReady, 0xFFFF04, 64, by decide +kernel, by decide +kernel, by decide +kernel, by decide +kernel, by decide +kernel⟩,
   ⟨monReady, 0xFFFFFC, 0, by decide +kernel, by decide +kernel, by decide +kernel, by decide +kernel⟩,
   ⟨cfg [(R.GLOBAL_OWNER.HOLDER, 3)] monReady, 0xFFFFFC, 0, by decide +kernel, by decide +kernel, by decide +kernel,
      by decide +kernel, by decide +kernel⟩,
   ⟨monReady, 0, by decide +kernel, by decide +kernel⟩,
   ⟨{ monReady with fw := { mbx := [(4, { inFull := true })] } }, 0, by decide +kernel, by decide +kernel⟩,
   ⟨monReady, 3, by decide +kernel, by decide +kernel⟩,
   ⟨monReady, 4, by decide +kernel, by decide +kernel⟩,
   ⟨monReady, 0x5253, by decide +kernel, by decide +kernel⟩,
   ⟨cfg [(R.GLOBAL_OWNER.HOLDER, 3)] monReady, 0x5253, by decide +kernel, by decide +kernel, by decide +kernel, by decide +kernel⟩,
   ⟨monReady, 1, by decide +kernel⟩⟩

theorem test_stepTakesTheFrontCommand :
    (∃ (c : Instr) (s : State) (rest : List Instr), s.pending = c :: rest) ∧ (∃ s : State, s.pending = []) :=
  ⟨⟨.timekeeperTick, { State.reset with pending := [.timekeeperTick, .wake] }, [.wake], rfl⟩, ⟨State.reset, rfl⟩⟩

theorem test_stepKeepsTheCanonicalForm : ∃ s t : State, s.Ok ∧ step s = .next t :=
  ⟨{ State.reset with pending := [.timekeeperTick] }, _, by unfold State.Ok; decide, rfl⟩

theorem test_commandsKeepWhatStands : ∃ (c : Instr) (s t : State), s.Ok ∧ exec c s = .next t :=
  ⟨.timekeeperTick, State.reset, _, by unfold State.Ok; decide, rfl⟩

theorem test_unownedWritesAreDropped :
    (∃ (s : State) (p : Path) (k : Nat) (w : Word), pathCarries p k = true ∧ k % 4 = 0 ∧ k < 0x1000000 ∧ k ≠ R.GLOBAL_RESET ∧
      s.reaches p k = true ∧ s.mayWrite p k = false) :=
  ⟨mgmtReady, .pf0, 0xFFFFFC, 0, by decide +kernel, by decide +kernel, by decide +kernel, by decide +kernel, by decide +kernel,
      by decide +kernel⟩

theorem test_unreachableAndRetainedWrites :
    (∃ (s : State) (p : Path) (k : Nat) (w : Word), pathCarries p k = true ∧ k % 4 = 0 ∧ k ≠ R.GLOBAL_RESET ∧ s.reaches p k = false) ∧
    (∃ (s : State) (p : Path) (k : Nat) (w : Word), pathCarries p k = true ∧ k % 4 = 0 ∧ k < 0x800000 ∧ s.reaches p k = true ∧
      s.mayWrite p k = true ∧ s.retained k = true ∧ k ≠ R.GLOBAL_RESET) :=
  ⟨⟨State.reset, .pf0, 0xFFFFFC, 0, by decide +kernel, by decide +kernel, by decide +kernel, by decide +kernel⟩,
   ⟨State.put hostReady R.GLOBAL_PWRSTAT.MODE 1, .pf0, R.SG_CTL 7, 0, by decide +kernel, by decide +kernel, by decide +kernel,
      by decide +kernel, by decide +kernel, by decide +kernel, by decide +kernel⟩⟩

theorem test_convertedCodesClamp :
    (∃ (x : Int), 2047 < x) ∧
    (∃ (x : Int), x < -2048) ∧
    (∃ (x : Int), -2048 ≤ x ∧ x ≤ 2047) ∧
    (∃ (s : State) (n : Fin 4) (x : Int), s.spllLocked n = true) :=
  ⟨⟨2048, by decide +kernel⟩,
   ⟨-2049, by decide +kernel⟩,
   ⟨-2048, by decide +kernel, by decide +kernel⟩,
   ⟨cfg [(R.CLK_PLL.LOCKED 1, 1)], 3, 2048, by decide +kernel⟩⟩

theorem test_overrangeFlagAndHold :
    (∃ (s : State) (n : Fin 4) (x : Int) (th hd : Nat), s.spllLocked n = true ∧ 2 ≤ s.adcState n ∧ s.adcState n ≠ 4 ∧
      th = (if (s.adc n).count % 64 = 0 then s.get (R.ADC_OVR.THRESH n) else (s.adc n).ovrThresh) ∧
      hd = (if (s.adc n).count % 64 = 0 then s.get (R.ADC_OVR.HOLD n) else (s.adc n).ovrHold) ∧ overrange th (codeOf x) = true) ∧
    (∃ (s : State) (n : Fin 4) (x : Int) (th hd : Nat), s.spllLocked n = true ∧ 2 ≤ s.adcState n ∧ s.adcState n ≠ 4 ∧
      th = (if (s.adc n).count % 64 = 0 then s.get (R.ADC_OVR.THRESH n) else (s.adc n).ovrThresh) ∧
      hd = (if (s.adc n).count % 64 = 0 then s.get (R.ADC_OVR.HOLD n) else (s.adc n).ovrHold) ∧ overrange th (codeOf x) = false) :=
  ⟨⟨cfg [(R.CLK_PLL.LOCKED 1, 1), (R.ADC_STATUS.STATE 3, 2)], 3, 2047, _, _, by decide +kernel, by decide +kernel,
      by decide +kernel, rfl, rfl, by decide +kernel⟩,
   ⟨cfg [(R.CLK_PLL.LOCKED 1, 1), (R.ADC_STATUS.STATE 3, 2)], 3, 0, _, _, by decide +kernel, by decide +kernel, by decide +kernel,
      rfl, rfl, by decide +kernel⟩⟩

theorem test_accumulateSaturates :
    (∃ (v d : Int), -2 ^ 47 ≤ v + d ∧ v + d < 2 ^ 47) ∧
    (∃ (v d : Int), v + d < -2 ^ 47) ∧
    (∃ (v d : Int), 2 ^ 47 ≤ v + d) ∧
    (∃ (s : State) (u b a : Nat) (ds : List Int), a < 4) ∧
    (∃ (s : State) (u b a : Nat) (ds : List Int) (a' l : Nat), a < 4 ∧ a' < 4 ∧ l < 8 ∧ a' ≠ a) :=
  ⟨⟨2 ^ 47 - 1, 0, by decide +kernel, by decide +kernel⟩,
   ⟨-2 ^ 47, -1, by decide +kernel⟩,
   ⟨2 ^ 47 - 1, 1, by decide +kernel⟩,
   ⟨State.reset, 15, 1, 3, [1], by decide +kernel⟩,
   ⟨State.reset, 15, 1, 3, [1], 0, 7, by decide +kernel, by decide +kernel, by decide +kernel, by decide +kernel⟩⟩

theorem test_timekeeperTicks :
    (∃ (s : State) (p : Path), s.reaches p R.GLOBAL_RESET = true ∧ s.get R.GLOBAL_OWNER.HOLDER = pathAgent p ∧ p ≠ .fw) :=
  ⟨hostReady, .pf0, by decide +kernel, by decide +kernel, by decide +kernel⟩

theorem test_timeIncWrites :
    (∃ (s : State) (p : Path) (w : Word), Writable s p R.TIME_INC ∧ s.follows = false ∧ 0x9FD70A3D ≤ w.toNat ∧ w.toNat ≤ 0xA028F5C3) ∧
    (∃ (s : State) (p : Path) (w : Word), Writable s p R.TIME_INC ∧
      (s.follows = true ∨ w.toNat < 0x9FD70A3D ∨ 0xA028F5C3 < w.toNat)) :=
  ⟨⟨hostReady, .pf0, 0xA028F5C3, by unfold Writable; decide +kernel, by decide +kernel, by decide +kernel, by decide +kernel⟩,
   ⟨hostReady, .pf0, 0xA028F5C4, by unfold Writable; decide +kernel, by decide +kernel⟩⟩

theorem test_fullMailboxDropsTheWrite :
    (∃ (s : State) (p : Path) (ch : Fin 16) (w : Word) (k : Nat), mbxPath ch = some p ∧ mbxKey ch = some k ∧ Writable s p k ∧
      (s.mbx ch).inFull = true) ∧
    (∃ (s : State) (p : Path) (ch : Fin 16) (w : Word) (k : Nat), mbxPath ch = some p ∧ mbxKey ch = some k ∧ Writable s p k ∧
      (s.mbx ch).inFull = false) :=
  ⟨⟨{ hostReady with fw := { ready := true, mbx := [(3, { inFull := true })] } }, .pf0, 3, 0, R.NS_IN 3, by decide +kernel,
      by decide +kernel, by unfold Writable; decide +kernel, by decide +kernel⟩,
   ⟨hostReady, .pf0, 3, 0, R.NS_IN 3, by decide +kernel, by decide +kernel, by unfold Writable; decide +kernel, by decide +kernel⟩⟩

theorem test_forceTakesTheToken :
    (∃ (s : State), Writable s .mgmt R.MGMT_TOKEN ∧ s.on (R.EV_CFG.EN 164) = true) ∧
    (∃ (s : State) (q : Path) (k : Nat) (w : Word), pathCarries q k = true ∧ k % 4 = 0 ∧ k < 0x1000000 ∧ k ≠ R.GLOBAL_RESET ∧
      k ≠ R.GLOBAL_OWNER ∧ q ≠ .fw ∧ pathAgent q ≠ 2 ∧ s.get R.GLOBAL_OWNER.HOLDER = 2 ∧ s.reaches q k = true) :=
  ⟨⟨hostReady, by unfold Writable; decide +kernel, by decide +kernel⟩,
   ⟨mgmtReady, .pf0, 0xFFFFFC, 0, by decide +kernel, by decide +kernel, by decide +kernel, by decide +kernel, by decide +kernel,
      by decide +kernel, by decide +kernel, by decide +kernel, by decide +kernel⟩⟩

theorem test_queriesChangeNothing :
    (∃ (s : State) (p : Path) (n : Fin 4) (j : Fin 8) (x : Fin 2) (r : Fin 6) (sub : Fin 2621440) (c : Instr) (k : Nat), (c,
      k) ∈ [(Instr.convSyncT0Read p, R.CONV_SYNC_T0), (Instr.adcScntLoRead p n, R.ADC_SCNT_LO n), (Instr.queueTearbase0Read p,
      0x90028), (Instr.nvmeSlotCapRead p j, R.NVME_SLOT_CAP_LO j), (Instr.nvmeRecChunkRead p j, R.NVME_REC_CHUNK_LO j),
      (Instr.nvmeRecTrecRead p j, R.NVME_REC_TREC0 j), (Instr.sgT0Read p j, R.SG_T0 j), (Instr.sgPlayedLoRead p j,
      R.SG_PLAYED_LO j), (Instr.timeNow0Read p sub, R.TIME_NOW0), (Instr.ethTxt0Read p x, R.ETH_TXT0 x), (Instr.ethRxt0Read p r,
      R.ETH_RXT0 r)] ∧ pathCarries p k = true ∧ s.reaches p k = true) ∧
    (∃ (c : Instr) (s : State), c ∈ [Instr.monId, Instr.monLk, Instr.monEv, Instr.monTime, Instr.monHelp] ∧ s.monRuns = true) ∧
    (∃ (c : Instr) (s : State), c ∈ [Instr.monId, Instr.monLk, Instr.monEv, Instr.monTime, Instr.monHelp] ∧ s.monRuns = false) ∧
    (∃ (s : State), s.lkUp 0 = true) ∧
    (∃ (s : State), s.lkUp 0 = false) ∧
    (∃ (s : State) (p : Path) (ch : Fin 16) (w : Word), mbxPath ch ≠ some p) ∧
    (∃ (s : State) (key : BitVec 16), Writable s .mgmt R.MGMT_TOKEN ∧ key ≠ 0x4F57#16) :=
  ⟨⟨State.reset, .fw, 3, 7, 1, 5, 0, .adcScntLoRead .fw 3, R.ADC_SCNT_LO 3, by decide +kernel, by decide +kernel, by decide +kernel⟩,
   ⟨.monHelp, monReady, by decide +kernel, by decide +kernel⟩,
   ⟨.monHelp, State.reset, by decide +kernel, by decide +kernel⟩,
   ⟨linkLocked 0, by decide +kernel⟩,
   ⟨State.reset, by decide +kernel⟩,
   ⟨State.reset, .mgmt, 0, 0, by decide +kernel⟩,
   ⟨mgmtReady, 0, by unfold Writable; decide +kernel, by decide +kernel⟩⟩

theorem test_unitRegisterInstructionsFrame :
    (∃ (s : State) (u : Fin 16) (op : Nat) (c : Instr) (f : Word → Word → Word) (b : Nat) (x : CuSlot), (op, c, f) ∈ [(0x01,
      Instr.cuAdd u, fun a b => a + b), (0x02, Instr.cuSub u, fun a b => a - b), (0x03, Instr.cuAnd u, fun a b => a &&& b), (0x04,
      Instr.cuOr u, fun a b => a ||| b), (0x05, Instr.cuXor u, fun a b => a ^^^ b)] ∧ IssuesA s u op ∧ (nextB s u).op = 0 ∧
      (s.cu u).writes = [] ∧ b = s.cuBankNo u ∧ (s.bank u b).delay = 0 ∧ (s.bank u b).loops = [] ∧ x = nextA s u) :=
  ⟨issuing (1 * 2 ^ 26 + 1 * 2 ^ 21) 0, 0, 1, .cuAdd 0, fun a b => a + b, _, _, by simp, by unfold IssuesA; decide +kernel,
      by decide +kernel, by decide +kernel, rfl, by decide +kernel, by decide +kernel, rfl⟩

theorem test_configurationWritesTheirBytes :
    (∃ (s : State) (ch : Fin 16) (tag : Nat) (rest : List Word) (off w : Word) (ws : List Word) (bs : List Byte), 8 ≤ ch.val ∧
      Asks s ch 0x06 tag (off :: w :: ws) rest ∧ bs = (w :: ws).flatMap (fun w => leBytes 4 w.toNat) ∧
      off.toNat + bs.length ≤ 65536) :=
  ⟨asking 8 0x06 [65532, 0], 8, 5, [], 65532, 0, [], _, by decide +kernel, by unfold Asks; decide +kernel, rfl, by decide +kernel⟩

theorem test_oneRecordOutstandingPerSource :
    (∃ (s : State) (r : Nat) (e : EvRec) (rest : List EvRec), s.nextRecord? r = some (e, rest)) ∧
    (∃ (s : State) (r : Fin 2), (s.ring (112 + r.val)).taken = []) :=
  ⟨⟨{ State.reset with ev := { wait0 := [{ source := 9, time := 0, info := 0 }, { source := 10, time := 0, info := 0 }], out0 := [(9, 0)] } },
      0, { source := 10, time := 0, info := 0 }, [{ source := 9, time := 0, info := 0 }], by decide +kernel⟩,
   ⟨State.reset, 1, by decide +kernel⟩⟩

theorem test_underrunShowsBackground :
    (∃ (s : State) (h : Fin 2) (supplied : Fin 3841) (y w : Nat), (s.head h).line = some y ∧ s.headState h = 3 ∧
      y < s.activeLines h ∧ w = s.headGet h (R.DISP_HTIM.HACTIVE h) ∧ supplied.val < w) :=
  ⟨{ cfg [(R.DISP_STATUS.STATE 1, 3)] with heads := [(1, { line := some 1079 })] }, 1, 0, 1079, _, by decide +kernel,
      by decide +kernel, by decide +kernel, rfl, by decide +kernel⟩

end Machine
end Sys2Proof
end

section
/-!
The acceptance of an order whose checks pass (R382, R387): what is common to every kind of order.
-/

namespace Sys2Proof
namespace Machine

/-- R387: an order whose checks all pass is acted on. -/
theorem State.validate_valid {s : State} {o : Order} {cs : List (Nat × Bool)} {act : State → State} (h : firstInvalid cs = none) :
    s.validate o cs act = act s := by
  simp [State.validate, h]

/-- R382: the next order, its header's reserved bits 0, becomes outstanding and has its kind's effect. -/
theorem acceptOrder_nextOrder {s : State} {o : Order} {op : Nat} (eff : Order → State → State) (h : NextOrder s o op) :
    s.acceptOrder o eff = eff o (outstanding s o) := by
  obtain ⟨-, -, hheader⟩ := h
  exact State.validate_valid hheader

theorem accept_nextOrder {s : State} {o : Order} {op : Nat} (eff : Order → State → State) (h : NextOrder s o op) :
    s.accept op eff = eff o (outstanding s o) := by
  rw [← acceptOrder_nextOrder eff h]
  obtain ⟨hnext, hop, -⟩ := h
  simp [State.accept, hnext, hop]

/-- The answer to the command that accepts orders of one kind, once the effect of the order is known. -/
theorem accept_answers {s t : State} {o : Order} {op : Nat} {eff : Order → State → State} (h : NextOrder s o op)
    (heff : eff o (outstanding s o) = t) : (Host.Outcome.next (s.accept op eff) : Out) = .next t := by
  rw [accept_nextOrder eff h, heff]

end Machine
end Sys2Proof
end

section
/-!
The orders of plans, retunes, windows and lane tests: the effect of each once it is accepted.
-/

namespace Sys2Proof
namespace Machine

variable {s : State} {o : Order}

/-- R389. -/
theorem State.nopAccept_valid (hc : firstInvalid (nopChecks o) = none) : s.nopAccept o = s.retire o stOk :=
  State.validate_valid hc

/-- R38, R39: a plan that holds no lanes takes the order's bytes. -/
theorem State.planLoadAccept_idle (hc : firstInvalid (s.planLoadChecks o) = none) (hp : s.planState (o.u 16 1) < 2) :
    s.planLoadAccept o =
      ((s.put (R.PLAN_STATUS.STATE (o.u 16 1)) 1).updPlan (o.u 16 1) (fun pl => { pl with bytes := o.bytes })).retire o stOk :=
  (State.validate_valid hc).trans (if_neg (Nat.not_le.mpr hp))

/-- R25, R39, R156: a LOADED plan whose consumers and source are ready, with lanes enough that are no spares. -/
theorem State.planStartAccept_loaded (hc : firstInvalid (planStartChecks o) = none) (hp : s.planState (o.u 16 1) = 1)
    (hready : s.consumersReady (o.u 16 1) = true) (hsource : s.sourceEnabled (s.plan (o.u 16 1)).sourceId = true)
    (hlanes : s.lanesNeeded (o.u 16 1) ≤ (s.freeLanes.filter (fun l => !s.spares.contains l)).length) :
    s.planStartAccept o = s.armPlan o (o.u 16 1)
      ((s.freeLanes.filter (fun l => !s.spares.contains l)).take (s.lanesNeeded (o.u 16 1))) := by
  refine (State.validate_valid hc).trans ?_
  dsimp only
  rw [if_neg (by simp [hp]), if_neg (by simp [hready]), if_neg (by simp [hsource]), if_neg (Nat.not_lt.mpr hlanes)]

/-- R33: an untimed PLAN_STOP of a plan that is ARMED or RUNNING. -/
theorem State.planStopAccept_untimed (hc : firstInvalid (planStopChecks o) = none) (hp : 2 ≤ s.planState (o.u 16 1))
    (hmode : o.u 17 1 = 0) :
    s.planStopAccept o = (s.updOrder o.ref (fun o => { o with phase := .running })).stopPlan (o.u 16 1) := by
  refine (State.validate_valid hc).trans ?_
  dsimp only
  rw [if_neg (Nat.not_lt.mpr hp), if_neg (by simp [hmode])]

/-- R33: a timed one waits for its time. -/
theorem State.planStopAccept_timed (hc : firstInvalid (planStopChecks o) = none) (hp : 2 ≤ s.planState (o.u 16 1))
    (hmode : o.u 17 1 = 1) (htime : s.time < ofTime96 (o.u 20 12)) : s.planStopAccept o = s := by
  refine (State.validate_valid hc).trans ?_
  dsimp only
  rw [if_neg (Nat.not_lt.mpr hp), if_pos ⟨hmode, htime⟩]

/-- R39. -/
theorem State.planUnloadAccept_loaded (hc : firstInvalid (planUnloadChecks o) = none) (hp : s.planState (o.u 16 1) = 1) :
    s.planUnloadAccept o = (s.put (R.PLAN_STATUS.STATE (o.u 16 1)) 0).retire o stOk :=
  (State.validate_valid hc).trans (if_neg (not_not.mpr hp))

/-- R123, R124: an untimed, ungated retune of an enabled DDC that runs no list. -/
theorem State.retuneAccept_untimed (hc : firstInvalid (retuneChecks o) = none) (hmode : o.u 17 1 = 0)
    (hen : s.on (R.DDC_CTL.EN (o.u 16 1)) = true) (hlist : s.on (R.DDC_STATUS.LIST_RUN (o.u 16 1)) = false) :
    s.retuneAccept o = s.pendRetune (o.u 16 1) { freq := o.u 32 6, phase := o.u 38 3, cause := 1, order := some o.ref } := by
  have hfree : s.retuneBarred (o.u 16 1) = false := by simp [State.retuneBarred, hen, hlist]
  refine (State.validate_valid hc).trans ?_
  simp [hfree, hmode]

/-- R170: a window that no plan with lanes uses. -/
theorem State.windowLoadAccept_unused (hc : firstInvalid (windowLoadChecks o) = none) (hw : s.windowInUse (o.u 16 1) = false) :
    s.windowLoadAccept o =
      (s.updOrder o.ref (fun o => { o with phase := .running })).startRead o (o.u 24 8) (4 * 2 ^ o.u 17 1) :=
  (State.validate_valid hc).trans (if_neg (by simp [hw]))

/-- R170, R172: a lane that serves no plan and runs no LANE_TEST. -/
theorem State.laneTestAccept_free (hc : firstInvalid (laneTestChecks o) = none) (ha : s.laneAssigned (o.u 16 1) = false)
    (ht : (s.lane (o.u 16 1)).testRef = none) :
    s.laneTestAccept o = (s.updOrder o.ref (fun o => { o with phase := .running })).beginTest (o.u 16 1) (some o.ref) :=
  (State.validate_valid hc).trans (if_neg (by simp [ha, ht]))

/-- R382, R384: whatever the next order is, the engine accepts it. -/
theorem execOrderAcceptance_next (h : s.next? = some o) : execOrderAcceptance s = .next (s.acceptNext o) := by
  simp [execOrderAcceptance, h]

end Machine
end Sys2Proof
end

section
namespace Sys2Proof
namespace Machine

/-- Settles O1: each order is taken from its ring and then has the effect that its acceptance lemma gives. -/
theorem planOrdersAct : Obligations.PlanOrdersAct := by
  unfold Obligations.PlanOrdersAct
  refine ⟨?nop, ?load, ?start, ?stop, ?unload, ?retune, ?window, ?laneTest, fun _ _ h => execOrderAcceptance_next h⟩
  case nop => exact fun _ _ h hc => accept_answers h (State.nopAccept_valid hc)
  case load => exact fun _ _ h hc hp => accept_answers h (State.planLoadAccept_idle hc hp)
  case start => exact fun _ _ h hc hp hr hs hl => accept_answers h (State.planStartAccept_loaded hc hp hr hs hl)
  case stop =>
    exact fun _ _ h hc hp => ⟨fun hm => accept_answers h (State.planStopAccept_untimed hc hp hm),
      fun hm ht => accept_answers h (State.planStopAccept_timed hc hp hm ht)⟩
  case unload => exact fun _ _ h hc hp => accept_answers h (State.planUnloadAccept_loaded hc hp)
  case retune => exact fun _ _ h hc hm he hl => accept_answers h (State.retuneAccept_untimed hc hm he hl)
  case window => exact fun _ _ h hc hw => accept_answers h (State.windowLoadAccept_unused hc hw)
  case laneTest => exact fun _ _ h hc ha ht => accept_answers h (State.laneTestAccept_free hc ha ht)

end Machine
end Sys2Proof
end

section
/-!
The timed commands of plans, and what RUNNING plans read back.
-/

namespace Sys2Proof
namespace Machine

/-- A plan's record reads back as changed. -/
@[simp] theorem State.plan_updPlan_same (s : State) (p : Nat) (f : Plan → Plan) : (s.updPlan p f).plan p = f (s.plan p) := by
  simp [State.plan, State.updPlan]

/-- A lane's record reads back as changed. -/
@[simp] theorem State.lane_updLane_same (s : State) (l : Nat) (f : Lane → Lane) : (s.updLane l f).lane l = f (s.lane l) := by
  simp [State.lane, State.updLane]

/-- R178: restarting the holds of a plan's engines changes records of engines only. -/
theorem State.restartHolds_eq (s : State) (p : Nat) : ∃ e, s.restartHolds p = { s with engines := e } := by
  unfold State.restartHolds
  generalize (List.range 32).filter _ = es
  induction es generalizing s with
  | nil => exact ⟨_, rfl⟩
  | cons e es ih =>
    obtain ⟨x, hx⟩ := ih (s.updEngine e (fun x => { x with holds := [] }))
    exact ⟨x, hx⟩

@[simp] theorem State.restartHolds_plan (s : State) (p q : Nat) : (s.restartHolds p).plan q = s.plan q := by
  obtain ⟨e, h⟩ := s.restartHolds_eq p
  rw [h]
  rfl

@[simp] theorem State.restartHolds_planState (s : State) (p q : Nat) : (s.restartHolds p).planState q = s.planState q := by
  obtain ⟨e, h⟩ := s.restartHolds_eq p
  rw [h]
  rfl

/-- PLAN_STATUS.STATE reads back as written. -/
theorem State.planState_put (s : State) (p v : Nat) (hv : v < 4) : (s.put (R.PLAN_STATUS.STATE p) v).planState p = v :=
  State.get_put_fits s (R.PLAN_STATUS.STATE p) v (by simp) hv

/-- R24, R39: a plan that begins with no order to retire is RUNNING, its start time is spent and frame 0 is its first. -/
theorem State.planStarts_runs (s : State) (p t r : Nat) (hr : (s.plan p).startRef = none) :
    (s.planStarts p t r).planState p = 3 ∧ ((s.planStarts p t r).plan p).startAt = none ∧
      ((s.planStarts p t r).plan p).nextFrame = 0 := by
  unfold State.planStarts
  simp only [hr, State.restartHolds_planState, State.restartHolds_plan, State.plan_updPlan_same, and_self, and_true]
  exact State.planState_put s p 3 (by decide)

/-- R33: a timed PLAN_STOP of a plan that holds lanes, at its time. -/
theorem execPlanStopDue_due {s : State} {ring index : Nat} {o : Order} (ho : s.order? (ring, index) = some o)
    (hop : o.opcode = 0x0103) (hphase : o.phase = .pending) (htime : ofTime96 (o.u 20 12) ≤ s.time)
    (hp : 2 ≤ s.planState (o.u 16 1)) :
    execPlanStopDue ring index s =
      .next ((s.updOrder o.ref (fun o => { o with phase := .running })).stopPlan (o.u 16 1)) := by
  unfold execPlanStopDue
  simp only [ho]
  rw [if_neg (by simp [hop, hphase, htime]), if_neg (Nat.not_lt.mpr hp)]

/-- R24, R35: an ARMED plan at its time, its lanes ready, its source releasing samples and no PLAN_STOP due by then. -/
theorem execPlanStartDue_due {s : State} {p : Fin 64} {t r : Nat} (hp : s.planState p = 2) (hstart : (s.plan p).startAt = some t)
    (hready : s.lanesReady? p = some r) (htime : t ≤ s.time) (hsource : (s.source (s.plan p).sourceId).active = true)
    (hstop : (s.planStops p).find? (fun o => o.phase == .pending && o.u 17 1 == 1 && decide (ofTime96 (o.u 20 12) ≤ max t r)) =
      none) : execPlanStartDue p s = .next (s.planStarts p t r).settlePlans := by
  unfold execPlanStartDue
  simp only [hstart, hready, hstop]
  rw [if_neg (by simp [hp, htime, hsource])]

end Machine
end Sys2Proof
end

section
/-!
Frames and sheets: FRAME_FILLED and SHEET_DELIVERED of a RUNNING plan.
-/

namespace Sys2Proof
namespace Machine

/-- R24, R138: the next frame of a plan that is not stopping is complete, is not lost, and its lane serves its slot. -/
theorem execFrameFilled_complete {s : State} {p : Fin 64} (ce : Fin 65536) (hp : s.planState p = 3)
    (hstop : (s.plan p).stopFrame = none)
    (hrun : (s.plan p).frameFrom (s.source (s.plan p).sourceId).runFirst ≤ (s.plan p).fillNext)
    (hsamples : (s.plan p).frameSample (s.plan p).fillNext + (s.plan p).n ≤ (s.source (s.plan p).sourceId).next)
    (hlost : s.frameLost p (s.plan p).fillNext = false)
    (hlane : s.laneState ((s.plan p).lanes.getD ((s.plan p).fillNext % max 1 (s.plan p).lanes.length) 0) = 3) :
    execFrameFilled p ce s = .next ((s.updPlan p (fun pl => { pl with
      fillNext := (s.plan p).fillNext + 1
      inflight := pl.inflight ++ [s.fillFrame pl (s.plan p).fillNext
        ((s.plan p).lanes.getD ((s.plan p).fillNext % max 1 (s.plan p).lanes.length) 0)] })).countCe
        ((s.plan p).lanes.getD ((s.plan p).fillNext % max 1 (s.plan p).lanes.length) 0) ce) := by
  unfold execFrameFilled
  simp only [hstop, Nat.max_eq_left hrun]
  rw [if_neg (by simp [hp, hsamples]), if_neg (by simp [hlost]), if_neg (not_not.mpr hlane)]

/-- R139, R145: the frame in flight longest, in which the exponent detectors find nothing. -/
theorem execSheetDelivered_sound {s : State} {p : Fin 64} {f : Frame} {t : List Frame} (hf : (s.plan p).inflight = f :: t)
    (hp : s.planState p = 3) (hok : (transform (s.plan p).m f.h f.data).2 = false) :
    execSheetDelivered p s = .next (s.deliverSheet p f (transform (s.plan p).m f.h f.data).1) := by
  simp [execSheetDelivered, hf, hp, hok]

/-- R149, R159: the same where a detector finds a value that correct arithmetic cannot produce. -/
theorem execSheetDelivered_faulty {s : State} {p : Fin 64} {f : Frame} {t : List Frame} (hf : (s.plan p).inflight = f :: t)
    (hp : s.planState p = 3) (hbad : (transform (s.plan p).m f.h f.data).2 = true) :
    execSheetDelivered p s = .next (s.fresh.2.laneFault f.lane 1 (s.fresh.1 % 9)) := by
  simp [execSheetDelivered, hf, hp, hbad]

end Machine
end Sys2Proof
end

section
/-!
Lane faults, failover and lane tests.
-/

namespace Sys2Proof
namespace Machine

/-- R159, R230: lane `l` fenced for `cause`, which is no uncorrectable error; its test and its climbing flights have ended, and it serves no
plan any more. -/
def State.fenced (s : State) (l cause : Nat) : State :=
  (((((((s.dropTest l).setLane l 4).put (R.LANE_STATUS.CAUSE l) cause).raiseInst 34 l).satInc R.GLOBAL_PROT.ACTIONS).abortDependents
    [uLane l] 2).put (R.LANE_STATUS.PLAN l) 0).put (R.LANE_STATUS.SLOT l) 0

/-- R159: a fault in a lane that serves no plan. -/
theorem State.laneFault_free {s : State} {l cause : Nat} (fence : Nat) (hl : s.laneState l ≠ 4) (hc : cause ≠ 2)
    (hfree : (s.fenced l cause).livePlans.find? (fun p => ((s.fenced l cause).plan p).lanes.contains l) = none) :
    s.laneFault l cause fence = (s.fenced l cause).settleLanes := by
  unfold State.laneFault
  rw [if_neg hl, if_neg hc]
  dsimp only
  split
  · rename_i q hq
    exact absurd (hq.symm.trans hfree) (Option.some_ne_none q)
  · rfl

/-- R160: a fault in a lane that serves plan `p`. -/
theorem State.laneFault_serving {s : State} {l cause p : Nat} (fence : Nat) (hl : s.laneState l ≠ 4) (hc : cause ≠ 2)
    (hp : (s.fenced l cause).livePlans.find? (fun p => ((s.fenced l cause).plan p).lanes.contains l) = some p) :
    s.laneFault l cause fence = ((s.fenced l cause).failover p l cause fence).settleLanes := by
  unfold State.laneFault
  rw [if_neg hl, if_neg hc]
  dsimp only
  split
  · rename_i q hq
    obtain rfl := Option.some.inj (hq.symm.trans hp)
    rfl
  · rename_i hnone
    exact absurd (hp.symm.trans hnone) (Option.some_ne_none p)

/-- The faults of one cycle, put in number order, are handled one after the other. -/
theorem execLaneFaultDetected_of_faults {l : Fin 18} {cause : Fin 16} {others : List (Fin 18 × Fin 16)} {faults : List (Nat × Nat)}
    (fence : Fin 9) (s : State) (h : ((l, cause) :: others).foldl (fun m x => SMap.put m x.1.val x.2.val) [] = faults) :
    execLaneFaultDetected l cause fence others s = .next (faults.foldl (fun s x => s.laneFault x.1 x.2 fence.val) s) := by
  subst h
  rfl

theorem execLaneFaultDetected_single (l : Fin 18) (cause : Fin 16) (fence : Fin 9) (s : State) :
    execLaneFaultDetected l cause fence [] s = .next (s.laneFault l cause fence) := by
  rw [execLaneFaultDetected_of_faults (faults := [(l.val, cause.val)]) fence s rfl, List.foldl_cons, List.foldl_nil]

/-- Two keys, put in a sparse map in either order, stand in it in rising order. -/
theorem SMap.put_pair {α : Type} {k k' : Nat} (v v' : α) (h : k < k') :
    SMap.put (SMap.put [] k v) k' v' = [(k, v), (k', v')] ∧ SMap.put (SMap.put [] k' v') k v = [(k, v), (k', v')] := by
  simp [SMap.put, SMap.erase, SMap.ins, h, h.ne, h.ne', Nat.not_lt.mpr h.le]

/-- R159: of two faults of one cycle the lower lane's goes first, whichever is named first. -/
theorem execLaneFaultDetected_pair {l k : Fin 18} (cause c : Fin 16) (fence : Fin 9) (s : State) (h : l < k) :
    execLaneFaultDetected l cause fence [(k, c)] s = .next ((s.laneFault l cause fence).laneFault k c fence) ∧
    execLaneFaultDetected k c fence [(l, cause)] s = .next ((s.laneFault l cause fence).laneFault k c fence) := by
  obtain ⟨hrising, hfalling⟩ := SMap.put_pair cause.val c.val (Fin.lt_def.mp h)
  constructor
  · rw [execLaneFaultDetected_of_faults (others := [(k, c)]) fence s hrising, List.foldl_cons, List.foldl_cons, List.foldl_nil]
  · rw [execLaneFaultDetected_of_faults (others := [(l, cause)]) fence s hfalling, List.foldl_cons, List.foldl_cons, List.foldl_nil]

/-- R169: LANE_INJECT, written with its key, is a lane fault of cause INJECT. -/
theorem execLaneInject_key {s : State} {p : Path} (l : Fin 18) (fence : Fin 9) (h : Writable s p R.LANE_INJECT) :
    execLaneInject p (l.castLE (by decide)) 0x5A3C#16 fence s = .next (s.laneFault l 6 fence) := by
  obtain ⟨hreach, hown, hkept⟩ := h
  unfold execLaneInject
  rw [State.gateAction_act _ _ _ _ hreach hown hkept]
  simp [State.writeLaneInject]

/-- R156, R167: a woken lane that serves no plan is a spare. -/
theorem execLaneWakeDone_spare {s : State} {l : Fin 18} (hl : s.laneState l = 1) (hready : (s.lane l).readyAt ≤ s.ns)
    (hbar : s.unitsBarred = false) (ha : s.laneAssigned l = false) : execLaneWakeDone l s = .next (s.setLane l 2).settleLanes := by
  unfold execLaneWakeDone
  dsimp only
  rw [if_neg (by simp [hl, hready, hbar]), if_neg (by simp [ha])]

/-- R161: the spare of a failover, woken for it and ready, takes its slot. -/
theorem execFailoverSpareReady_woken {s : State} {l : Fin 18} {p : Nat}
    (hp : s.livePlans.find? (fun p => (s.plan p).failovers.any (fun x => x.spare == l.val && decide (x.readyAt ≤ s.time))) = some p)
    (hl : s.laneState l = 1) : execFailoverSpareReady l s =
      .next (((s.setLane l 3).skipLost p (((s.setLane l 3).plan p).fillNext + 1)).settleStop p) := by
  simp only [execFailoverSpareReady, hp, if_pos hl]

/-- R168: the next free lane above the last one tested, when a spare test falls due. -/
theorem execSpareTest_due {s : State} {l : Nat}
    (hl : (s.freeLanes.filter (fun l => (s.lane l).testSince.isNone)).find? (fun l => decide (s.spareTest.2 < l)) = some l)
    (hen : s.on R.LANE_CFG.SPARE_TEST_EN = true) (hup : s.lkUp 1 = true)
    (htime : s.spareTest.1 + 1000000000 * max 1 s.spareTestPeriod ≤ s.ns) :
    execSpareTest s = .next (State.beginTest
      { s with spareTest := (s.ns, l), spareTestPeriod := s.get R.LANE_CFG.SPARE_TEST_PERIOD } l none) := by
  simp only [execSpareTest, hl]
  exact if_pos ⟨hen, hup, htime⟩

/-- R167, R168: a spare test of a lane that was a spare ends with a pass. -/
theorem execTestEnd_pass_spare {s : State} {l : Fin 18} {t : Nat} (hsince : (s.lane l).testSince = some t)
    (htime : t + 200000 ≤ s.ns) (hup : s.lkUp 1 = true) (hspare : (s.lane l).testRef = none) (hl : s.laneState l = 5)
    (hbefore : (s.lane l).before = 2) : execTestEnd l 0#64 s =
      .next ((s.updLane l (fun x => { x with testSince := none, testRef := none })).setLane l 2).settleLanes := by
  unfold execTestEnd
  simp only [hsince]
  rw [if_neg (by simp [htime, hup])]
  simp [hspare, hl, hbefore]

/-- Settles O11: each command's conditions meet one of its meaning's cases, which the lemma cited gives. -/
theorem planAndLaneCommandsAct : Obligations.PlanAndLaneCommandsAct := by
  unfold Obligations.PlanAndLaneCommandsAct
  refine ⟨?stopDue, ?startDue, ?wakeDone, ?filled, ?delivered, ?fault, ?twoFaults, ?inject, ?spareReady, ?spareTest, ?testEnd⟩
  case stopDue => exact fun _ _ _ _ ho hop hphase ht hp => execPlanStopDue_due ho hop hphase ht hp
  case startDue =>
    exact fun s p t r hp hstart hr ht hs hstop =>
      ⟨execPlanStartDue_due hp hstart hr ht hs hstop, State.planStarts_runs s p t r⟩
  case wakeDone => exact fun _ _ hl hr hb ha => execLaneWakeDone_spare hl hr hb ha
  case filled => exact fun _ _ ce hp hstop hrun hs hlost hl => execFrameFilled_complete ce hp hstop hrun hs hlost hl
  case delivered =>
    exact fun _ _ _ _ hf hp => ⟨execSheetDelivered_sound hf hp, execSheetDelivered_faulty hf hp⟩
  case fault =>
    intro s l cause f hl hc
    have hcause : cause.val ≠ 2 := fun h => hc (Fin.ext h)
    refine ⟨s.fenced l cause, rfl, fun hfree => ?_, fun p hp => ?_⟩
    · rw [exec_laneFaultDetected, execLaneFaultDetected_single, State.laneFault_free f hl hcause hfree]
    · rw [exec_laneFaultDetected, execLaneFaultDetected_single, State.laneFault_serving f hl hcause hp]
  case twoFaults => exact fun s _ _ cause c f h => execLaneFaultDetected_pair cause c f s h
  case inject => exact fun _ _ l f h => execLaneInject_key l f h
  case spareReady => exact fun _ _ _ hp hl => execFailoverSpareReady_woken hp hl
  case spareTest => exact fun _ _ hl hen hup ht => execSpareTest_due hl hen hup ht
  case testEnd => exact fun _ _ _ hsince ht hup hr hl hb => execTestEnd_pass_spare hsince ht hup hr hl hb

end Machine
end Sys2Proof
end

section
/-!
Samples: the code of an input, the flag of a code beyond the threshold, and the hold of the flag (R45, R46, R48).
-/

namespace Sys2Proof
namespace Machine

/-! ### Codes and thresholds -/

/-- R45: an input beyond full scale. -/
theorem codeOf_above {x : Int} (h : 2047 < x) : codeOf x = 2047 := by
  rw [codeOf, clampInt, if_neg (by omega), if_pos h]

theorem codeOf_below {x : Int} (h : x < -2048) : codeOf x = -2048 := by
  rw [codeOf, clampInt, if_pos h]

theorem codeOf_within {x : Int} (hlow : -2048 ≤ x) (hhigh : x ≤ 2047) : codeOf x = x := by
  rw [codeOf, clampInt, if_neg (by omega), if_neg (by omega)]

/-- R45: the output never wraps. -/
theorem codeOf_bounds (x : Int) : -2048 ≤ codeOf x ∧ codeOf x ≤ 2047 := by
  rcases lt_or_ge x (-2048) with hlow | hlow
  · simp [codeOf_below hlow]
  · rcases lt_or_ge 2047 x with hhigh | hhigh
    · simp [codeOf_above hhigh]
    · rw [codeOf_within hlow hhigh]
      exact ⟨hlow, hhigh⟩

@[simp] theorem codeOf_codeOf (x : Int) : codeOf (codeOf x) = codeOf x :=
  codeOf_within (codeOf_bounds x).1 (codeOf_bounds x).2

/-- A converted sample has the effect of its code alone. -/
theorem State.convert_codeOf (s : State) (n : Nat) (x : Int) : s.convert n (codeOf x) = s.convert n x := by
  simp only [State.convert, codeOf_codeOf]

theorem overrange_iff (thresh : Nat) (c : Int) : overrange thresh c = true ↔ (thresh : Int) ≤ c ∨ c ≤ -(thresh : Int) - 1 := by
  simp [overrange]

/-! ### The converter's record and its registers -/

/-- A converter's record reads back as changed. -/
@[simp] theorem State.adc_updAdc_same (s : State) (n : Nat) (f : Adc → Adc) : (s.updAdc n f).adc n = f (s.adc n) := by
  simp [State.adc, State.updAdc]

@[simp] theorem State.get_updAdc (s : State) (n : Nat) (f : Adc → Adc) (g : Field) : (s.updAdc n f).get g = s.get g := rfl

@[simp] theorem State.adcState_updAdc (s : State) (n m : Nat) (f : Adc → Adc) : (s.updAdc n f).adcState m = s.adcState m := rfl

/-- What leaves the converters' records alone leaves each of them as it was. -/
theorem State.Rest.adc {s t : State} (h : s.Rest t) (n : Nat) : t.adc n = s.adc n := by
  unfold State.adc
  rw [h.adcs]

/-! ### A flagged sample counted (R48) -/

theorem State.countOverrange_rest (s : State) (n : Nat) : s.Rest (s.countOverrange n) :=
  (s.satInc_rest _ _).trans (State.rest_ite (State.Rest.refl _)
    ((State.put_rest _ _ _).trans (State.rest_ite (State.raiseInst_rest _ _ _) (State.Rest.refl _))))

/-- Beyond ADC_OVRCNT, OVR_SEEN and the event of the flag, a counted sample leaves the converters' fields alone. -/
theorem State.get_countOverrange (s : State) (n : Nat) (f : Field) (hfit : f.lsb + f.width ≤ 32)
    (hseen : f.key ≠ R.ADC_STATUS n ∨ f.lsb + f.width ≤ 12) (hconv : f.key / 0x10000 = 2) :
    (s.countOverrange n).get f = (s.satInc (R.ADC_OVRCNT.COUNT n)).get f := by
  have hput (s : State) : (s.put (R.ADC_STATUS.OVR_SEEN n) 1).get f = s.get f :=
    State.get_put_other s (R.ADC_STATUS.OVR_SEEN n) f 1 hfit (hseen.imp_right Or.inl)
  have hcnt : f.key ≠ R.EV_CNT 0 := by unfold R.EV_CNT; omega
  have hroot : f.key ≠ R.EV_ROOT := by unfold R.EV_ROOT; omega
  have hpwr : f.key ≠ R.GLOBAL_PWRSTAT := by unfold R.GLOBAL_PWRSTAT; omega
  unfold State.countOverrange
  dsimp only
  split
  · rfl
  · split
    · rw [State.get_raiseInst _ _ _ _ hcnt hroot hpwr, hput]
    · rw [hput]

theorem State.countOverrange_adcState (s : State) (n : Fin 4) : (s.countOverrange n).adcState n = s.adcState n := by
  have hconv : (0x20110 + 0x40 * n.val) / 0x10000 = 2 := by omega
  unfold State.adcState
  rw [State.get_countOverrange _ _ _ (by simp) (by simp) hconv]
  exact State.get_put_ne _ _ _ _ (by simp)

theorem State.countOverrange_count (s : State) (n : Fin 4) : (s.countOverrange n).get (R.ADC_OVRCNT.COUNT n) =
    satAdd (R.ADC_OVRCNT.COUNT n).width (s.get (R.ADC_OVRCNT.COUNT n)) 1 := by
  have hconv : (0x20114 + 0x40 * n.val) / 0x10000 = 2 := by omega
  rw [State.get_countOverrange _ _ _ (by simp) (by simp) hconv]
  refine State.get_put_fits _ _ _ (by simp) ?_
  exact Nat.lt_of_le_of_lt (Nat.min_le_right _ _) (by simp)

/-! ### A sample of a converter that does not acquire (R46) -/

/-- R46, R69: THRESH and HOLD of ADC_OVR(n), which a granule takes at its start. -/
def State.threshNow (s : State) (n : Nat) : Nat :=
  if (s.adc n).count % 64 = 0 then s.get (R.ADC_OVR.THRESH n) else (s.adc n).ovrThresh
def State.holdNow (s : State) (n : Nat) : Nat :=
  if (s.adc n).count % 64 = 0 then s.get (R.ADC_OVR.HOLD n) else (s.adc n).ovrHold

/-- The counter moved on, and the settings of the granule taken. -/
def State.countSample (s : State) (n : Nat) : State :=
  s.updAdc n (fun a => if (s.adc n).count % 64 = 0 then
      { a with count := (s.adc n).count + 1, ovrThresh := s.get (R.ADC_OVR.THRESH n), ovrHold := s.get (R.ADC_OVR.HOLD n) }
    else { a with count := (s.adc n).count + 1 })

/-- The hold of the flag after a sample of code `c`. -/
def State.holdSample (s : State) (n : Nat) (c : Int) : State :=
  s.updAdc n (fun a => { a with hold := if overrange (s.adc n).ovrThresh c then a.ovrHold else a.hold - 1 })

theorem State.countSample_settings (s : State) (n : Nat) : ((s.countSample n).adc n).ovrThresh = s.threshNow n ∧
    ((s.countSample n).adc n).ovrHold = s.holdNow n ∧ ((s.countSample n).adc n).hold = (s.adc n).hold := by
  unfold State.countSample State.threshNow State.holdNow
  rw [State.adc_updAdc_same]
  split <;> exact ⟨rfl, rfl, rfl⟩

/-- R46, R48: a converter that converts and does not acquire holds the flag, and counts the sample if it is flagged. -/
theorem State.convert_notAcquiring {s : State} {n : Fin 4} (x : Int) (hlock : s.spllLocked n = true) (hon : 2 ≤ s.adcState n)
    (hacq : s.adcState n ≠ 4) : s.convert n x =
      if overrange (s.threshNow n) (codeOf x) = true ∨ 0 < (s.adc n).hold then
        ((s.countSample n).holdSample n (codeOf x)).countOverrange n
      else (s.countSample n).holdSample n (codeOf x) := by
  obtain ⟨hthresh, -, hhold⟩ := s.countSample_settings n
  rw [← hthresh, ← hhold]
  unfold State.convert
  rw [if_neg (by simp [hlock])]
  extract_lets c u code a hit flag v w inRun
  have hu : ¬ u.adcState n < 2 := Nat.not_lt.mpr hon
  have hw : w.adcState n ≠ 4 := by
    simp only [w]
    split
    · rw [State.countOverrange_adcState]
      exact hacq
    · exact hacq
  rw [if_neg hu, if_neg (by simp [hw])]
  exact if_congr (by simp only [flag, hit, Bool.or_eq_true, decide_eq_true_eq]; rfl) rfl rfl

/-- R46, R48: what such a sample leaves as the hold and as the count. -/
theorem State.holdSample_hold (s : State) (n : Nat) (c : Int) : (((s.countSample n).holdSample n c).adc n).hold =
    if overrange (s.threshNow n) c = true then s.holdNow n else (s.adc n).hold - 1 := by
  obtain ⟨hthresh, hsetting, hhold⟩ := s.countSample_settings n
  rw [State.holdSample, State.adc_updAdc_same]
  simp only [hthresh, hsetting, hhold]

theorem State.convert_notAcquiring_hold {s : State} {n : Fin 4} (x : Int) (hlock : s.spllLocked n = true) (hon : 2 ≤ s.adcState n)
    (hacq : s.adcState n ≠ 4) : ((s.convert n x).adc n).hold =
      if overrange (s.threshNow n) (codeOf x) = true then s.holdNow n else (s.adc n).hold - 1 := by
  rw [State.convert_notAcquiring x hlock hon hacq, ← State.holdSample_hold]
  split
  · rw [(State.countOverrange_rest _ _).adc]
  · rfl

theorem State.convert_notAcquiring_count {s : State} {n : Fin 4} (x : Int) (hlock : s.spllLocked n = true) (hon : 2 ≤ s.adcState n)
    (hacq : s.adcState n ≠ 4) : (s.convert n x).get (R.ADC_OVRCNT.COUNT n) =
      if overrange (s.threshNow n) (codeOf x) = true ∨ 0 < (s.adc n).hold then
        satAdd (R.ADC_OVRCNT.COUNT n).width (s.get (R.ADC_OVRCNT.COUNT n)) 1
      else s.get (R.ADC_OVRCNT.COUNT n) := by
  rw [State.convert_notAcquiring x hlock hon hacq]
  split
  · exact State.countOverrange_count _ n
  · rfl

/-- At the reset value of THRESH only the two extreme codes are flagged. -/
theorem overrange_reset_iff (x : Int) : overrange 0x7FF (codeOf x) = true ↔ codeOf x = 2047 ∨ codeOf x = -2048 := by
  obtain ⟨hlow, hhigh⟩ := codeOf_bounds x
  rw [overrange_iff]
  omega

/-- Settles O48: each range of the input has its own lemma, and the converter sees the code alone. -/
theorem convertedCodesClamp : Obligations.ConvertedCodesClamp := by
  unfold Obligations.ConvertedCodesClamp
  refine ⟨fun x => ⟨(codeOf_bounds x).1, (codeOf_bounds x).2, codeOf_above, codeOf_below, codeOf_within⟩, fun s n x _ => ?_⟩
  simp only [exec_convertedSample, execConvertedSample, State.convert_codeOf]

/-- Settles O49: the flag is a comparison, and a sample that is not acquired changes the hold and the count by it. -/
theorem overrangeFlagAndHold : Obligations.OverrangeFlagAndHold := by
  unfold Obligations.OverrangeFlagAndHold
  refine ⟨overrange_iff, ?reset, overrange_reset_iff, ?sample⟩
  case reset => decide +kernel
  case sample =>
    rintro s n x _ _ hlock hon hacq rfl rfl
    refine ⟨s.convert n x, rfl, fun hhit => ?_, fun hmiss => ?_, State.convert_notAcquiring_count x hlock hon hacq⟩
    · exact (State.convert_notAcquiring_hold x hlock hon hacq).trans (if_pos hhit)
    · exact (State.convert_notAcquiring_hold x hlock hon hacq).trans (if_neg (ne_true_of_eq_false hmiss))

end Machine
end Sys2Proof
end

section
/-!
A write that reaches its register: its gate lets it act (R345, R361, R678).
-/

namespace Sys2Proof
namespace Machine

variable {s : State} {p : Path}

theorem Writable.gate_acts {key : Nat} (h : Writable s p key) (keep act : State → State) :
    (Host.Outcome.next (s.gate p key keep act) : Out) = .next (act s) := by
  obtain ⟨hreach, hown, hkept⟩ := h
  rw [State.gate_act _ _ _ _ _ hreach hown hkept]

theorem Writable.gateAction_acts {key : Nat} (h : Writable s p key) (act : State → State) :
    (Host.Outcome.next (s.gateAction p key act) : Out) = .next (act s) :=
  h.gate_acts id act

theorem Writable.gateField_acts {f : Field} (h : Writable s p f.key) (v : Nat) (act : State → State) :
    (Host.Outcome.next (s.gateField p f v act) : Out) = .next (act s) :=
  h.gate_acts _ act

end Machine
end Sys2Proof
end

section
/-!
Reference buffers, the wake of converters and the full-scale trim (R56, R58, R90).
-/

namespace Sys2Proof
namespace Machine

variable {s : State} {k : Fin 8} {t : Nat}

/-- R56: a buffer enabled for 5 ms. -/
theorem execRefRdy_ready (hsince : s.refSince k = some t) (htime : t + 5000000 ≤ s.ns) :
    execRefRdy k s = .next (s.setWord R.CONV_REFSTAT
      (BitVec.ofNat 32 (setBit (s.word R.CONV_REFSTAT).toNat (if k.val < 4 then k.val else k.val + 4) true))) := by
  simp only [execRefRdy, hsince]
  exact if_pos htime

/-- R58: a WAKING ADC whose buffer is ready, 40 µs after ON. -/
theorem execConverterWakeDone_adc (hsince : s.refSince k = some t) (hready : t + 5040000 ≤ s.ns)
    (hbar : s.convertersBarred = false) (hk : k.val < 4) (hstate : s.adcState k = 1) (hon : (s.adc k).onSince + 40000 ≤ s.ns)
    (hfailed : (s.adc k).failed = false) :
    execConverterWakeDone k s = .next ((s.put (R.ADC_STATUS.STATE k) 2).calDecision k) := by
  simp only [execConverterWakeDone, hsince]
  rw [if_neg (by simp [hready, hbar]), if_pos hk, if_pos (by simp [hstate, hon, hfailed])]

/-- R58: a WAKING DAC likewise. -/
theorem execConverterWakeDone_dac (hsince : s.refSince k = some t) (hready : t + 5040000 ≤ s.ns)
    (hbar : s.convertersBarred = false) (hk : 4 ≤ k.val) (hstate : s.dacState (k - 4) = 1)
    (hon : (s.dac (k - 4)).onSince + 40000 ≤ s.ns) :
    execConverterWakeDone k s =
      .next ((s.put (R.DAC_STATUS.STATE (k - 4)) 2).put (R.DAC_STATUS.IDLE_OUT (k - 4)) 1) := by
  simp only [execConverterWakeDone, hsince]
  rw [if_neg (by simp [hready, hbar]), if_neg (Nat.not_lt.mpr hk), if_pos ⟨hstate, hon⟩]

/-- R90: a new full-scale trim at the boundary of a granule. -/
theorem execFsChange_boundary {n : Fin 4} {v : Nat} (hpending : (s.adc n).fsPending = some v) (hcount : (s.adc n).count % 64 = 0) :
    execFsChange n s =
      .next ((s.updAdc n (fun a => { a with fsAdj := v, fsPending := none })).calMark n 1 0x1F 0x1F 1 1 0 true) := by
  simp only [execFsChange, hpending]
  exact if_pos hcount

end Machine
end Sys2Proof
end

section
namespace Sys2Proof
namespace Machine

/-- Settles O12: the writes pass their gate, and the completions find their conditions met. -/
theorem converterPowerCommandsAct : Obligations.ConverterPowerCommandsAct := by
  unfold Obligations.ConverterPowerCommandsAct
  refine ⟨?refbuf, ?refReady, ?adc, ?dac, ?wakeAdc, ?wakeDac, ?fsChange⟩
  case refbuf => exact fun _ _ _ h => h.gate_acts _ _
  case refReady => exact fun _ _ _ => execRefRdy_ready
  case adc => exact fun _ _ _ h => ⟨h.gateField_acts 1 _, h.gateField_acts 0 _⟩
  case dac => exact fun _ _ _ h => ⟨h.gateField_acts 1 _, h.gateField_acts 0 _⟩
  case wakeAdc => exact fun _ _ _ => execConverterWakeDone_adc
  case wakeDac => exact fun _ _ _ => execConverterWakeDone_dac
  case fsChange => exact fun _ _ _ => execFsChange_boundary

end Machine
end Sys2Proof
end

section
/-!
Starting, running, stopping and synchronizing the converters (R59–R67).
-/

namespace Sys2Proof
namespace Machine

variable {s : State} {n : Fin 4}

/-! ### The start instant -/

/-- R59: the converter acquires, and `f` is recorded as the counter of its first sample. -/
def State.recordFirst (s : State) (n f : Nat) : State :=
  ((((s.put (R.ADC_STATUS.STATE n) 4).put (R.ADC_STATUS.LAST n) 1).setWord (R.ADC_FIRST_LO n) (BitVec.ofNat 32 f)).setWord
    (R.ADC_FIRST_HI n) (BitVec.ofNat 32 (f / 2 ^ 32))).updAdc n (fun a => { a with first := some f })

/-- The converter's enabled DDCs take its samples from `f` on. -/
def State.ddcsTakeFrom (s : State) (n f : Nat) : State :=
  [2 * n, 2 * n + 1].foldl (fun s d => s.updDdc d (fun x => { x with takenFrom := if s.on (R.DDC_CTL.EN d) then some f else none })) s

@[simp] theorem State.adc_updDdc (s : State) (d n : Nat) (g : Ddc → Ddc) : (s.updDdc d g).adc n = s.adc n := rfl

@[simp] theorem State.adcState_updDdc (s : State) (d n : Nat) (g : Ddc → Ddc) : (s.updDdc d g).adcState n = s.adcState n := rfl

theorem State.recordFirst_adcState (s : State) (n f : Nat) : (s.recordFirst n f).adcState n = 4 := by
  rw [State.recordFirst, State.adcState_updAdc, State.adcState, State.get_setWord_other _ _ _ _ (by simp),
    State.get_setWord_other _ _ _ _ (by simp), State.get_put_other _ _ _ _ (by simp) (by simp),
    State.get_put_fits _ _ _ (by simp) (by simp)]

theorem State.recordFirst_first (s : State) (n f : Nat) : ((s.recordFirst n f).adc n).first = some f := by
  rw [State.recordFirst, State.adc_updAdc_same]

theorem State.ddcsTakeFrom_adc (s : State) (n f m : Nat) : (s.ddcsTakeFrom n f).adc m = s.adc m := by
  simp only [State.ddcsTakeFrom, List.foldl_cons, List.foldl_nil, State.adc_updDdc]

theorem State.ddcsTakeFrom_adcState (s : State) (n f m : Nat) : (s.ddcsTakeFrom n f).adcState m = s.adcState m := by
  simp only [State.ddcsTakeFrom, List.foldl_cons, List.foldl_nil, State.adcState_updDdc]

/-- R59: an ARMED converter with an immediate start. -/
theorem execStartInstant_immediate (hsrc : (s.adc n).src = 0) (hstate : s.adcState n = 3) (hlock : s.spllLocked n = true) :
    execStartInstant n s =
      .next ((s.recordFirst n ((s.adc n).count + (s.adc n).delay)).ddcsTakeFrom n ((s.adc n).count + (s.adc n).delay)) := by
  simp only [execStartInstant, if_pos hsrc]
  rw [if_pos ⟨hstate, hlock⟩, Nat.max_eq_right (Nat.le_add_right _ _)]
  rfl

/-! ### Samples and the end of a granule -/

/-- R59: the sample with the recorded first counter. -/
theorem execFirstAcquiredSample_first (x : Int) (hstate : s.adcState n = 4) (hfirst : (s.adc n).first = some (s.adc n).count) :
    execFirstAcquiredSample n x s = .next (s.convert n x) :=
  if_pos ⟨hstate, hfirst⟩

/-- R62: a stopping converter that stays on, at the end of its granule. -/
theorem execGranuleStop_end {e : Nat} (hstop : (s.adc n).stopAt = some e) (hstate : s.adcState n = 4) (hend : e ≤ (s.adc n).count)
    (hoff : (s.adc n).offAfter = false) : execGranuleStop n s =
      .next ((((s.endStreams n e).put (R.ADC_STATUS.LAST n) 3).put (R.ADC_STATUS.STATE n) 2).clearArm n) := by
  simp only [execGranuleStop, hstop]
  rw [if_pos ⟨hstate, hend⟩, if_neg (by simp [hoff])]

/-! ### SYNC -/

/-- R65: an edge at SYNC_IN that is seen and not repeated. -/
theorem execSyncEdge_seen (hout : s.get R.KX_CFG.SYNC_OUT ≠ 1) (hsrc : s.on R.CONV_SYNC.SRC = false) :
    execSyncEdge s = .next s.sync := by
  unfold execSyncEdge
  rw [if_neg hout]
  dsimp only
  rw [if_neg (by simp [hsrc])]

/-- R66, R67: the reference edge, 80 ns or more after the accepted SYNC. -/
theorem execSyncReferenceEdge_due {r : SyncRun} {sub : Fin 2621440} (hrun : s.syncRun = some r)
    (htime : r.since + nsUnits 80 ≤ s.tk.adv / 1024 + sub) : execSyncReferenceEdge sub s =
      .next ((((s.recordSync (s.time + sub)).restartCounters (s.time + sub)).restartDecimators).restartGrids.startOnSync
        (s.time + sub)) := by
  simp only [execSyncReferenceEdge, hrun]
  exact if_neg (Nat.not_lt.mpr htime)

end Machine
end Sys2Proof
end

section
namespace Sys2Proof
namespace Machine

/-- Settles O13: the writes pass their gate, and each event finds its conditions met. -/
theorem converterRunCommandsAct : Obligations.ConverterRunCommandsAct := by
  unfold Obligations.ConverterRunCommandsAct
  refine ⟨?arm, ?start, fun _ _ _ => rfl, ?first, ?stop, ?command, ?edge, ?reference⟩
  case arm => exact fun _ _ _ _ h => ⟨h.gate_acts _ _, h.gate_acts _ _⟩
  case start =>
    intro s n hsrc hstate hlock
    refine ⟨_, execStartInstant_immediate hsrc hstate hlock, ?_, ?_⟩
    · rw [State.ddcsTakeFrom_adcState, State.recordFirst_adcState]
    · rw [State.ddcsTakeFrom_adc, State.recordFirst_first]
  case first => exact fun _ _ => execFirstAcquiredSample_first
  case stop => exact fun _ _ _ => execGranuleStop_end
  case command => exact fun _ _ h => h.gateAction_acts _
  case edge => exact fun _ => execSyncEdge_seen
  case reference => exact fun _ _ _ => execSyncReferenceEdge_due

end Machine
end Sys2Proof
end

section
/-!
PLL lock, REFCLK, the sweep synthesizer and the relock of FS_SET (R558–R568, R582).
-/

namespace Sys2Proof
namespace Machine

variable {s : State}

/-! ### PLL lock and REFCLK -/

/-- R560: a powered PLL whose three differences lie within LOCK_TOL. -/
theorem execPllLockAcquired_pll {k : Fin 8} {a b diff : BitVec 8} (hk : k.val < 5) (ha : diffMag a ≤ s.get R.CLK_LOCKCFG.LOCK_TOL)
    (hb : diffMag b ≤ s.get R.CLK_LOCKCFG.LOCK_TOL) (hdiff : diffMag diff ≤ s.get R.CLK_LOCKCFG.LOCK_TOL)
    (hpower : s.pllPowered k = true) : execPllLockAcquired k a b diff s =
      .next (((s.put (R.CLK_PLL.ON k) 1).put (R.CLK_PLL.LOCKED k) 1).put (R.CLK_PLL.DIFF k) diff.toNat) := by
  unfold execPllLockAcquired
  dsimp only
  rw [if_neg (by simp [ha, hb, hdiff]), if_neg (Nat.not_le.mpr hk), if_neg (by simp [hpower])]

/-- R636: a pixel synthesizer likewise. -/
theorem execPllLockAcquired_pixel {k : Fin 8} {a b diff : BitVec 8} (hk : 5 ≤ k.val) (ha : diffMag a ≤ s.get R.CLK_LOCKCFG.LOCK_TOL)
    (hb : diffMag b ≤ s.get R.CLK_LOCKCFG.LOCK_TOL) (hdiff : diffMag diff ≤ s.get R.CLK_LOCKCFG.LOCK_TOL) :
    execPllLockAcquired k a b diff s = .next (s.pixelLocked (k - 5)) := by
  unfold execPllLockAcquired
  dsimp only
  rw [if_neg (by simp [ha, hb, hdiff]), if_pos hk]

/-- R560: a locked PLL with two differences beyond LOCK_TOL_LOSS. -/
theorem execPllLockLoss_beyond {k : Fin 5} {a diff : BitVec 8} (ha : s.get R.CLK_LOCKCFG.LOCK_TOL_LOSS < diffMag a)
    (hdiff : s.get R.CLK_LOCKCFG.LOCK_TOL_LOSS < diffMag diff) (hlock : s.on (R.CLK_PLL.LOCKED k) = true) :
    execPllLockLoss k a diff s = .next ((s.put (R.CLK_PLL.DIFF k) diff.toNat).lockLost k) := by
  unfold execPllLockLoss
  rw [if_neg (by simp [ha, hdiff, hlock])]

/-- R558: REFCLK restored after a loss that led to no protective STANDBY. -/
theorem execRefclkRestored_plain (habsent : s.on R.CLK_REF.PRESENT = false) (hplain : s.clk.protective = false) :
    execRefclkRestored s =
      .next { ((s.put R.CLK_REF.PRESENT 1).put R.CLK_REF.AON_SRC 0).put R.TIME_STATUS.REF_LOST 0 with clk := {} } := by
  unfold execRefclkRestored
  rw [if_neg (by simp [habsent])]
  exact congrArg _ (if_neg (ne_true_of_eq_false hplain))

/-- R559: the same after one that did: the device has a wake cause. -/
theorem execRefclkRestored_protective (habsent : s.on R.CLK_REF.PRESENT = false) (hprot : s.clk.protective = true) :
    execRefclkRestored s = .next (State.raiseInst
      { ((s.put R.CLK_REF.PRESENT 1).put R.CLK_REF.AON_SRC 0).put R.TIME_STATUS.REF_LOST 0 with
        clk := {}, power := { s.power with wake := some (s.power.wake.getD 6) } } 417 0) := by
  unfold execRefclkRestored
  rw [if_neg (by simp [habsent])]
  exact congrArg _ (if_pos hprot)

/-! ### The sweep synthesizer -/

/-- R567: a profile that advances by time, its segment's DUR passed. -/
theorem execSwsSegmentAdvance_time {t : Nat} (hrun : s.on R.SWS_STATUS.RUNNING = true) (hadv : s.get R.SWS_CTL.ADV = 0)
    (ht : t = s.sws.since + nsUnits (1000 * s.segDur (s.get R.SWS_STATUS.SEG))) (hdue : t ≤ s.advU 0) :
    execSwsSegmentAdvance s = .next (s.swsAdvance t) := by
  subst ht
  unfold execSwsSegmentAdvance
  simp only [hadv]
  rw [if_neg (by simp [hrun]), if_pos hdue]

/-- R567: one that advances with a list, at the next boundary. -/
theorem execSwsSegmentAdvance_list {t : Nat} {rest : List Nat} (hrun : s.on R.SWS_STATUS.RUNNING = true)
    (hadv : s.get R.SWS_CTL.ADV = 1) (hboundary : s.sws.due = t :: rest) (hdue : t < s.time + nsUnits 40) :
    execSwsSegmentAdvance s =
      .next (State.swsAdvance { s with sws := { s.sws with due := rest } } (s.advAt t)) := by
  unfold execSwsSegmentAdvance
  simp only [hadv, hboundary]
  rw [if_neg (by simp [hrun]), if_neg (Nat.not_le.mpr hdue)]

/-- R566: 2 µs after a step. -/
theorem execSwsSettled_due (hsettling : s.on R.SWS_STATUS.SETTLING = true) (hdue : s.sws.settleAt ≤ s.advU 0) :
    execSwsSettled s = .next (s.put R.SWS_STATUS.SETTLING 0) :=
  congrArg _ (if_pos ⟨hsettling, hdue⟩)

/-- A field written touches its register alone. -/
theorem State.put_onlyRegs (s : State) (f : Field) (v : Nat) : OnlyRegs [f.key] s (s.put f v) :=
  ⟨rfl, fun _ hk => State.word_put_other _ _ _ _ (List.mem_singleton.not.mp hk)⟩

/-! ### The relock of FS_SET -/

variable {ring index : Nat} {o : Order}

/-- R582: a relock declared within 1 ms. -/
theorem execFsRelockDone_locked (ho : s.order? (ring, index) = some o) (hop : o.opcode = 0x0E02) (hphase : o.phase = .running)
    (htime : s.ns - o.aux ≤ 1000000) : execFsRelockDone ring index true s =
      .next (((s.fsWake (o.u 16 1)).put (R.CLK_PLL.LOCKED (1 + o.u 16 1)) 1).retireWith o stOk 0
        [(36, leBytes 4 ((s.ns - o.aux) / 1000))]) := by
  unfold execFsRelockDone
  simp only [ho]
  rw [if_neg (by simp [hop, hphase]), if_pos ⟨trivial, htime⟩]

/-- R582: a relock that fails. -/
theorem execFsRelockDone_failed (ho : s.order? (ring, index) = some o) (hop : o.opcode = 0x0E02) (hphase : o.phase = .running) :
    execFsRelockDone ring index false s =
      .next (((s.fsWake (o.u 16 1)).raiseInst 418 (1 + o.u 16 1)).retireWith o 0x2C 0
        [(36, leBytes 4 ((s.ns - o.aux) / 1000))]) := by
  unfold execFsRelockDone
  simp only [ho]
  rw [if_neg (by simp [hop, hphase]), if_neg (by simp)]

end Machine
end Sys2Proof
end

section
/-!
Power modes: a request carried out, the entry into a mode, and the way back (R572–R576).
-/

namespace Sys2Proof
namespace Machine

variable {s : State} {r : PwrReq}

/-! ### A request and its entry -/

/-- R572: a request that a climbing flight holds. -/
theorem execPowerRequestCarriedOut_held (hreq : s.power.req = some r) (hclimb : s.climbingDeps ≠ []) :
    execPowerRequestCarriedOut s = .next s.holdRequest := by
  simp only [execPowerRequestCarriedOut, hreq]
  rw [if_pos (by simp [hclimb])]

/-- R573: a request that nothing holds, LK0 being UP and no other change of mode under way. -/
theorem execPowerRequestCarriedOut_free (hreq : s.power.req = some r) (hclimb : s.climbingDeps = []) (hup : s.lkUp 0 = true)
    (hact : s.get R.LK_BOOT.ACT = 0) (henter : s.power.entering = none) (hreturn : s.power.returning = none) :
    execPowerRequestCarriedOut s = .next (s.carryOut r) := by
  simp only [execPowerRequestCarriedOut, hreq]
  rw [if_neg (by simp [hclimb]), if_neg (by simp [hup, hact, henter, hreturn])]

/-- R574: every queue is empty. -/
theorem execSleepDrainEnd_empty (henter : s.power.entering = some r) (hdrain : s.power.drained = false)
    (hempty : s.queuesEmpty = true) : execSleepDrainEnd s =
      .next (State.parkAndRetire { s with power := { s.power with drained := true } } r stOk) := by
  simp only [execSleepDrainEnd, henter]
  rw [if_neg (by simp [hdrain]), if_pos hempty]

/-- R574: SLEEP_DRAIN has passed with a queue not empty: the device stops at STANDBY. -/
theorem execSleepDrainEnd_expired (henter : s.power.entering = some r) (hdrain : s.power.drained = false)
    (hempty : s.queuesEmpty = false) (htime : s.power.drainAt + 1000000 * s.get R.GLOBAL_PWRPOL.SLEEP_DRAIN ≤ s.adv) :
    execSleepDrainEnd s = .next (((State.put
      { s with power := { s.power with entering := some { r with target := 1 }, drained := true } } R.GLOBAL_PWRSTAT.SLEEP_HELD
      1).raiseInst 419 0).parkAndRetire { r with target := 1 } 0x2D) := by
  simp only [execSleepDrainEnd, henter]
  rw [if_neg (by simp [hdrain]), if_neg (by simp [hempty]), if_pos htime]

/-- R574: the mode of a drained request. -/
theorem execModeEntryComplete_drained (henter : s.power.entering = some r) (hdrain : s.power.drained = true) :
    execModeEntryComplete s = .next (s.modeReached r) := by
  simp only [execModeEntryComplete, henter]
  rw [if_neg (by simp [hdrain])]

/-! ### The way back -/

/-- R575: a wake cause in STANDBY or SLEEP, with REFCLK there and LK0 UP. -/
theorem execWakeCause_returns (hwake : s.power.wake.isSome = true) (hlow : s.lowPower = true) (henter : s.power.entering = none)
    (hreturn : s.power.returning = none) (htrip : s.monitor.tripped = false) (href : s.on R.CLK_REF.PRESENT = true)
    (hup : s.lkUp 0 = true) : execWakeCause s =
      .next (State.wakeLink (State.dropRequest { s with power := { s.power with returning := some s.adv } })) := by
  obtain ⟨c, hc⟩ := Option.isSome_iff_exists.mp hwake
  unfold execWakeCause
  rw [if_neg (by simp [hc, hlow, henter, hreturn, htrip, href, hup])]

/-- R380, R575: READY is reached, the lookout not parked. -/
theorem execReturnComplete_polling {failed : List (Fin 6)} {t : Nat} (hreturn : s.power.returning = some t)
    (hlow : s.lowPower = true) (hpark : (s.returned failed).on R.RING_STATUS.PARKED = false) :
    execReturnComplete failed s = .next (s.returned failed) := by
  unfold execReturnComplete
  rw [if_neg (by simp [hreturn, hlow])]
  exact congrArg _ (if_neg (ne_true_of_eq_false hpark))

/-- R380, R575: the same with it parked: it polls at once. -/
theorem execReturnComplete_parked {failed : List (Fin 6)} {t : Nat} (hreturn : s.power.returning = some t)
    (hlow : s.lowPower = true) (hpark : (s.returned failed).on R.RING_STATUS.PARKED = true) :
    execReturnComplete failed s = .next { (s.returned failed).unpark with
      lookout := { (s.returned failed).unpark.lookout with pollNow := true } } := by
  unfold execReturnComplete
  rw [if_neg (by simp [hreturn, hlow])]
  exact congrArg _ (if_pos hpark)

/-! ### Requests of the device's own -/

/-- R576: a policy of STANDBY or SLEEP whose conditions have held for AUTO_AFTER. -/
theorem execAutoPolicy_due {t : Nat} (hidle : s.power.idleSince = some t) (hnow : s.autoIdle = true) (hreq : s.power.req = none)
    (htime : t + 1000000 * max 1 (s.get R.GLOBAL_PWRPOL.AUTO_AFTER) ≤ s.adv)
    (hmode : s.get R.GLOBAL_PWRPOL.AUTO_MODE = 1 ∨ s.get R.GLOBAL_PWRPOL.AUTO_MODE = 2) : execAutoPolicy s =
      .next (s.requestMode (if s.get R.GLOBAL_PWRPOL.AUTO_MODE = 2 ∧
        !(List.range 64).any (fun p => s.on (R.POUND_CFG.EN p)) then 0 else 1) none true) := by
  simp only [execAutoPolicy, hidle]
  refine if_neg ?_
  rcases hmode with hmode | hmode <;> simp [hmode, hnow, hreq, htime]

/-- R559: REFCLK away for 10 ms, in READY or RUN. -/
theorem execRefclkHoldoverExpiry_due {t : Nat} (hlost : s.clk.lostAt = some t) (habsent : s.on R.CLK_REF.PRESENT = false)
    (htime : t + 10000000 ≤ s.adv) (hlow : s.lowPower = false) (henter : s.power.entering = none) :
    execRefclkHoldoverExpiry s =
      .next (State.carryOut { s.dropRequest with clk := { s.clk with protective := true } } ⟨1, none, false⟩) := by
  simp only [execRefclkHoldoverExpiry, hlost]
  rw [if_neg (by simp [habsent, htime, hlow, henter])]

/-- R354: PF0 moves between D0 and D3hot. -/
theorem execPowerStateChange_pf0 {d3 : Bool} (hlink : s.pcie.linkUp = true) (hready : s.fw.ready = true)
    (hchange : s.pcie.d3hot0 = !d3) : execPowerStateChange 0 d3 s =
      .next (if d3 then State.requestMode { s with pcie := { s.pcie with d3hot0 := d3 } } 0 none false
        else State.wakeCause { s with pcie := { s.pcie with d3hot0 := d3 } } 5) := by
  unfold execPowerStateChange
  rw [if_neg (by simp [hlink, hready]), if_pos rfl, if_neg (by simp [hchange])]

theorem execPowerStateChange_pf1 (d3 : Bool) (hlink : s.pcie.linkUp = true) (hready : s.fw.ready = true) :
    execPowerStateChange 1 d3 s = .next { s with pcie := { s.pcie with d3hot1 := d3 } } := by
  unfold execPowerStateChange
  rw [if_neg (by simp [hlink, hready]), if_neg (by decide)]

end Machine
end Sys2Proof
end

section
namespace Sys2Proof
namespace Machine

/-- Settles O31: the writes pass their gate, and each event's conditions meet the case of its meaning that the lemma cited gives. -/
theorem clockCommandsAct : Obligations.ClockCommandsAct := by
  unfold Obligations.ClockCommandsAct
  refine ⟨?lock, ?pixel, ?loss, ?refLost, ?refBack, ?clkout, ?sws, ?advanceTime, ?advanceList, ?settled, ?relocked, ?relockFailed,
    ?request, ?carriedOut, ?drain, ?entered, ?wake, ?policy, ?holdover, ?state, ?returned⟩
  case lock => exact fun _ _ _ _ _ => execPllLockAcquired_pll
  case pixel => exact fun _ _ _ _ _ => execPllLockAcquired_pixel
  case loss => exact fun _ _ _ _ => execPllLockLoss_beyond
  case refLost => exact fun _ hpresent => ⟨_, rfl, if_neg (by simp [hpresent])⟩
  case refBack =>
    rintro s _ habsent rfl
    exact ⟨execRefclkRestored_plain habsent, execRefclkRestored_protective habsent⟩
  case clkout => exact fun _ _ _ _ h => h.gateAction_acts _
  case sws => exact fun _ _ _ h => ⟨h.gateAction_acts _, h.gateAction_acts _⟩
  case advanceTime => exact fun _ _ => execSwsSegmentAdvance_time
  case advanceList => exact fun _ _ _ hrun hadv hb hdue => ⟨_, rfl, execSwsSegmentAdvance_list hrun hadv hb hdue⟩
  case settled =>
    exact fun s hsettling hdue => ⟨_, execSwsSettled_due hsettling hdue,
      State.get_put_fits s R.SWS_STATUS.SETTLING 0 (by simp) (by simp), s.put_onlyRegs R.SWS_STATUS.SETTLING 0⟩
  case relocked => exact fun _ _ _ _ => execFsRelockDone_locked
  case relockFailed => exact fun _ _ _ _ => execFsRelockDone_failed
  case request => exact fun _ _ _ h => ⟨h.gateAction_acts _, h.gateAction_acts _⟩
  case carriedOut =>
    exact fun _ _ hreq => ⟨execPowerRequestCarriedOut_held hreq, execPowerRequestCarriedOut_free hreq⟩
  case drain =>
    exact fun _ _ henter hdrain => ⟨execSleepDrainEnd_empty henter hdrain,
      fun hempty htime => ⟨_, _, rfl, rfl, execSleepDrainEnd_expired henter hdrain hempty htime⟩⟩
  case entered => exact fun _ _ => execModeEntryComplete_drained
  case wake => exact fun _ => execWakeCause_returns
  case policy =>
    intro s t hidle hnow hreq htime
    refine ⟨fun hmode => ?_, fun hmode hp => ?_, fun hmode hp => ?_⟩
    · rw [exec_autoPolicy, execAutoPolicy_due hidle hnow hreq htime (.inl hmode), if_neg (by simp [hmode])]
    · rw [exec_autoPolicy, execAutoPolicy_due hidle hnow hreq htime (.inr hmode), hp, if_pos ⟨hmode, rfl⟩]
    · rw [exec_autoPolicy, execAutoPolicy_due hidle hnow hreq htime (.inr hmode), hp, if_neg (by simp)]
  case holdover =>
    exact fun _ _ hlost habsent htime hlow henter => ⟨_, rfl, execRefclkHoldoverExpiry_due hlost habsent htime hlow henter⟩
  case state =>
    exact fun _ hlink hready => ⟨fun hd0 => ⟨_, rfl, execPowerStateChange_pf0 (d3 := true) hlink hready hd0⟩,
      fun hd3 => ⟨_, rfl, execPowerStateChange_pf0 (d3 := false) hlink hready hd3⟩, execPowerStateChange_pf1 true hlink hready⟩
  case returned =>
    exact fun _ _ _ hreturn hlow =>
      ⟨execReturnComplete_polling hreturn hlow, fun hpark => ⟨_, rfl, execReturnComplete_parked hreturn hlow hpark⟩⟩

end Machine
end Sys2Proof
end

section
/-!
The commands of housekeeping and of protection: conversions and starts of sequences, PWM periods, protective actions (R98, R99, R577, R578,
R668).
-/

namespace Sys2Proof
namespace Machine

variable {s : State}

/-! ### Sequences (R98) -/

/-- R98: the running sequence of sequencer `m` has `rest` left to convert, its next channel 1 µs after the last. -/
def State.hkAdvance (s : State) (m : Nat) (rest : List Nat) : State :=
  s.updHkSeq m (fun q => { q with running := rest, nextAt := q.nextAt + 1000 })

/-- R98: the running sequence converts its next channel, one in use, and counts itself DONE if that was the last and not the firmware's. -/
theorem execHkConversion_due {m : Fin 4} {v : BitVec 16} {raw : BitVec 12} {ch : Nat} {rest : List Nat}
    (hrun : (s.hkSeq m).running = ch :: rest) (htime : (s.hkSeq m).nextAt ≤ s.ns) (hch : unusedChannel ch = false) :
    execHkConversion m v raw s = .next (State.hkResult
      (if rest.isEmpty ∧ m.val ≠ 0 then (s.hkAdvance m rest).inc (R.HK_SEQ_STAT.DONE (m - 1)) else s.hkAdvance m rest)
      m ch v.toNat raw.toNat) := by
  simp only [execHkConversion, hrun]
  rw [if_neg (Nat.not_lt.mpr htime)]
  exact congrArg _ (if_neg (ne_true_of_eq_false hch))

/-- R98: sequencer 0, the firmware's, counts nothing. -/
theorem execHkConversion_firmware {m : Fin 4} {v : BitVec 16} {raw : BitVec 12} {ch : Nat} {rest : List Nat} (hm : m.val = 0)
    (hrun : (s.hkSeq m).running = ch :: rest) (htime : (s.hkSeq m).nextAt ≤ s.ns) (hch : unusedChannel ch = false) :
    execHkConversion m v raw s = .next ((s.hkAdvance m rest).hkResult m ch v.toNat raw.toNat) := by
  rw [execHkConversion_due hrun htime hch, if_neg (fun h => h.2 hm)]

/-- R98: the last channel of any other sequence counts it DONE. -/
theorem execHkConversion_last {m : Fin 4} {v : BitVec 16} {raw : BitVec 12} {ch : Nat} (hm : m.val ≠ 0)
    (hrun : (s.hkSeq m).running = [ch]) (htime : (s.hkSeq m).nextAt ≤ s.ns) (hch : unusedChannel ch = false) :
    execHkConversion m v raw s =
      .next (((s.hkAdvance m []).inc (R.HK_SEQ_STAT.DONE (m - 1))).hkResult m ch v.toNat raw.toNat) := by
  rw [execHkConversion_due hrun htime hch, if_pos ⟨rfl, hm⟩]

/-- R98: a pending start that nothing blocks. -/
theorem execHkSequenceStart_pending {m : Fin 4} (hpending : (s.hkSeq m).pendingStart = true) (hfree : s.hkBlocked m = false) :
    execHkSequenceStart m s = .next (s.hkBegin m) :=
  if_pos (by simp [hpending, hfree])

/-- R98, R99: no start is pending and the sequencer's own source has come due. -/
theorem execHkSequenceStart_due {m : Fin 4} {u : State} (hpending : (s.hkSeq m).pendingStart = false) (hdue : s.hkDue? m = some u) :
    execHkSequenceStart m s = .next (u.hkStart m) := by
  simp only [execHkSequenceStart, hdue]
  exact if_neg (by simp [hpending])

/-! ### PWM periods (R668) -/

/-- R668: the first period of a PWM that has been enabled. -/
theorem execPwmPeriodStart_first {i : Fin 4} (hen : s.on (R.HK_PWM.EN i) = true) (hnone : SMap.find? s.pwms i.val = none) :
    execPwmPeriodStart i s =
      .next (s.pwmPeriod i s.ns (max 2 (s.get (R.HK_PWM.PERIOD i))) (s.get (R.HK_PWM.HIGH i)) false) := by
  simp only [execPwmPeriodStart, hnone]
  exact if_neg (by simp [hen])

/-- R668: the next period, PERIOD and HIGH written before the AON cycle that begins it. -/
theorem execPwmPeriodStart_next {i : Fin 4} {x : Pwm} (hen : s.on (R.HK_PWM.EN i) = true) (hx : SMap.find? s.pwms i.val = some x)
    (hend : x.since + 40 * x.period ≤ s.ns) (hwrote : x.wroteAt < x.since + 40 * x.period) :
    execPwmPeriodStart i s = .next (s.pwmPeriod i (x.since + 40 * x.period) (max 2 (s.get (R.HK_PWM.PERIOD i)))
      (s.get (R.HK_PWM.HIGH i)) (decide (x.period ≤ x.high))) := by
  simp only [execPwmPeriodStart, hx]
  rw [if_neg (by simp [hen]), if_neg (Nat.not_lt.mpr hend), if_neg (Nat.not_le.mpr hwrote)]

/-! ### Protective actions (R577, R578) -/

/-- R577, R613: EMERG is set, the action counted and PROT_THERMAL raised, before the units go down. -/
def State.emergencyRaised (s : State) (ch : Nat) (pre : Bool) : State :=
  (State.satInc (State.put { s with monitor := { s.monitor with emergDue := none } } R.GLOBAL_PROT.EMERG 1) R.GLOBAL_PROT.ACTIONS).raise
    420 ch (protInfo ch pre)

/-- R577: the emergency that a thermal result called for. -/
theorem execThermalEmergency_due {pre : Bool} {ch : Nat} (hdue : s.monitor.emergDue = some ch) :
    execThermalEmergency pre s = .next ((s.emergencyRaised ch pre).forceAll 0) := by
  simp only [execThermalEmergency, hdue, State.emergencyRaised]

/-- R578, R613: SUPPLY and RAIL are set, the action counted (log 108: also where the rail is only reported) and PROT_SUPPLY raised, before
the units of the rail go down. -/
def State.supplyFaultRaised (s : State) (ch : Nat) (pre : Bool) : State :=
  (State.satInc (State.put (State.put { s with monitor := { s.monitor with supplyDue := none } } R.GLOBAL_PROT.SUPPLY 1)
    R.GLOBAL_PROT.RAIL ch) R.GLOBAL_PROT.ACTIONS).raise 421 ch (protInfo ch pre)

/-- Table 19-6: what goes down is chosen by the faulting rail. -/
theorem execSupplyFault_due {pre : Bool} {ch : Nat} (hdue : s.monitor.supplyDue = some ch) :
    execSupplyFault pre s = .next (if [21, 22].contains ch then (s.supplyFaultRaised ch pre).forceConverters 1
      else if [16, 18, 19, 20].contains ch then (s.supplyFaultRaised ch pre).forceAll 1
      else s.supplyFaultRaised ch pre) := by
  simp only [execSupplyFault, hdue, State.supplyFaultRaised]

/-- Table 19-6: VDDA_CNV and VDDA_CNVH. -/
theorem execSupplyFault_converters {pre : Bool} {ch : Nat} (hdue : s.monitor.supplyDue = some ch) (hch : ch = 21 ∨ ch = 22) :
    execSupplyFault pre s = .next ((s.supplyFaultRaised ch pre).forceConverters 1) := by
  rw [execSupplyFault_due hdue, if_pos (by simpa using hch)]

/-- Table 19-6: VDD_CORE, VDD_SRAM, VDD_SD and VDDH_SD. -/
theorem execSupplyFault_all {pre : Bool} {ch : Nat} (hdue : s.monitor.supplyDue = some ch)
    (hch : ch = 16 ∨ ch = 18 ∨ ch = 19 ∨ ch = 20) :
    execSupplyFault pre s = .next ((s.supplyFaultRaised ch pre).forceAll 1) := by
  have hother : [21, 22].contains ch = false := by rcases hch with rfl | rfl | rfl | rfl <;> rfl
  rw [execSupplyFault_due hdue, if_neg (ne_true_of_eq_false hother), if_pos (by simpa using hch)]

/-- Table 19-6: the rails that force nothing down. -/
theorem execSupplyFault_reported {pre : Bool} {ch : Nat} (hdue : s.monitor.supplyDue = some ch)
    (hch : ch ∉ [16, 18, 19, 20, 21, 22]) : execSupplyFault pre s = .next (s.supplyFaultRaised ch pre) := by
  simp only [List.mem_cons, List.not_mem_nil, or_false, not_or] at hch
  rw [execSupplyFault_due hdue, if_neg (by simp [hch]), if_neg (by simp [hch])]

end Machine
end Sys2Proof
end

section
namespace Sys2Proof
namespace Machine

/-- Settles O36: the writes pass their gate, and each event finds its conditions met. -/
theorem housekeepingCommandsAct : Obligations.HousekeepingCommandsAct := by
  unfold Obligations.HousekeepingCommandsAct
  refine ⟨?firmware, ?last, ?pending, ?timer, ?go, ?pwm, ?thermal, ?supply, ?clear⟩
  case firmware => exact fun _ _ _ _ _ _ => execHkConversion_firmware
  case last => exact fun _ _ _ _ _ => execHkConversion_last
  case pending => exact fun _ _ => execHkSequenceStart_pending
  case timer => exact fun _ _ hpending _ hdue => execHkSequenceStart_due hpending hdue
  case go => exact fun _ _ _ h => h.gateAction_acts _
  case pwm => exact fun _ _ hen => ⟨execPwmPeriodStart_first hen, fun _ => execPwmPeriodStart_next hen⟩
  case thermal =>
    rintro s pre ch _ hdue rfl
    exact execThermalEmergency_due hdue
  case supply =>
    rintro s pre ch _ hdue rfl
    exact ⟨execSupplyFault_converters hdue, execSupplyFault_all hdue, execSupplyFault_reported hdue⟩
  case clear => exact fun _ _ h => ⟨h.gateAction_acts _, h.gateAction_acts _⟩

end Machine
end Sys2Proof
end

section
/-!
The commands of the down-converters and of their power-level triggers: retunes at a boundary, advances of the retune list, evaluations,
output samples (R103, R113, R117, R118, R128, R130–R133).
-/

namespace Sys2Proof
namespace Machine

variable {s : State}

/-! ### Retunes and the retune list (R118, R128) -/

/-- R118, R119: the retune due at the boundary now reached is a commanded one, for no step of the list waits. -/
theorem execRetuneBoundary_command {d : Fin 8} {r : Retune} (hdue : (s.listStopped d).retuneDue? d = some r)
    (hstep : ((s.listStopped d).ddc d).listStep = none) :
    execRetuneBoundary d s = .next
      (((((s.listStopped d).retuneMark d ((s.listStopped d).ddcCount d) r).tune d ((s.listStopped d).ddcCount d) r).inc
        (R.DDC_STATUS.RT_COUNT d)).commandRetuned d ((s.listStopped d).ddcCount d) r) := by
  simp only [execRetuneBoundary, hdue, hstep]

/-- R128: entry `e` of the list waits for its boundary, and the firing that called for it, if one, is used up. -/
def State.listWaits (s : State) (d e : Nat) : State :=
  (s.updDdc d (fun x => { x with listGates := x.listGates.drop 1 })).updDdc d (fun x => { x with listStep := some (e, none) })

section DwellAdvance

variable {d : Fin 8} (hrun : s.on (R.DDC_STATUS.LIST_RUN d) = true) (hen : s.on (R.DDC_CTL.LIST_EN d) = true)
  (hstep : (s.ddc d).listStep = none) (hadv : s.on (R.DDC_LISTCFG.ADV d) = false)
  (hdwell : (s.ddc d).listAt + (max 1 (s.get (R.DDC_LISTCFG.DWELL d)) * 64 * 2 ^ s.ddcK d : Nat) ≤ s.ddcCount d)
include hrun hen hstep hadv hdwell

/-- R128: a dwell after the last boundary the list advances, and what it does then turns on LAST and LOOP. -/
theorem execListAdvance_dwell : execListAdvance d s = .next
    (if s.get (R.DDC_STATUS.LIST_POS d) = s.get (R.DDC_LISTCFG.LAST d) then
      if s.on (R.DDC_LISTCFG.LOOP d) then s.listWaits d 0
      else ((s.updDdc d (fun x => { x with listGates := x.listGates.drop 1 })).put (R.DDC_STATUS.LIST_RUN d) 0).updDdc d
        (fun x => { x with listGates := [] })
    else s.listWaits d ((s.get (R.DDC_STATUS.LIST_POS d) + 1) % 64)) := by
  have hdue : (s.on (R.DDC_STATUS.LIST_RUN d) && s.on (R.DDC_CTL.LIST_EN d) && (s.ddc d).listStep.isNone
      && decide ((s.ddc d).listAt + (max 1 (s.get (R.DDC_LISTCFG.DWELL d)) * 64 * 2 ^ s.ddcK d : Nat) ≤ s.ddcCount d)) = true := by
    simp only [hrun, hen, hstep, Option.isNone_none, decide_eq_true hdwell, Bool.and_true]
  simp only [execListAdvance, hadv, Bool.false_eq_true, if_false, hdue, if_true, apply_ite Host.Outcome.next]
  rfl

/-- R128: short of LAST the next entry waits. -/
theorem execListAdvance_next (hpos : s.get (R.DDC_STATUS.LIST_POS d) ≠ s.get (R.DDC_LISTCFG.LAST d)) :
    execListAdvance d s = .next (s.listWaits d ((s.get (R.DDC_STATUS.LIST_POS d) + 1) % 64)) := by
  rw [execListAdvance_dwell hrun hen hstep hadv hdwell, if_neg hpos]

/-- R128: at LAST a looping list begins again. -/
theorem execListAdvance_loop (hpos : s.get (R.DDC_STATUS.LIST_POS d) = s.get (R.DDC_LISTCFG.LAST d))
    (hloop : s.on (R.DDC_LISTCFG.LOOP d) = true) : execListAdvance d s = .next (s.listWaits d 0) := by
  rw [execListAdvance_dwell hrun hen hstep hadv hdwell, if_pos hpos, if_pos hloop]

end DwellAdvance

/-! ### Power-level triggers (R130–R133) -/

/-- R133: with its DDC releasing nothing a trigger's condition is 0 and its window starts again. -/
theorem execPltEvaluation_inactive {p : Fin 8} (hen : s.on (R.PLT_CTL.EN p) = true)
    (hidle : (s.source (ddcId (s.get (R.PLT_CTL.DDC p)))).active = false) :
    execPltEvaluation p s = .next ((s.pltRestart p).pltSet p false
      (s.sampleStamp (ddcId (s.get (R.PLT_CTL.DDC p))) ((s.source (ddcId (s.get (R.PLT_CTL.DDC p)))).next - 1)) (s.qual 0)) := by
  simp only [execPltEvaluation, hen, hidle, Bool.not_true, Bool.not_false, Bool.false_eq_true, if_false, if_true]

/-- R130: sample `m` marked as evaluated by trigger `p`. -/
def State.pltEvaluated (s : State) (p m : Nat) : State := s.updPlt p (fun x => { x with evalAt := some m })

/-- R130: the power measured over trigger `p`'s window. -/
def State.pltLevel (s : State) (p : Nat) : Int := toDb16 ((s.plt p).window.foldl (· + ·) 0) (s.pltSize p * 2 ^ 38)

/-- R130–R132: at an anchor not evaluated yet, with a full window and no hold, the trigger reports the power measured and compares it. -/
theorem execPltEvaluation_full {p : Fin 8} {d m : Nat} {u : State} (hen : s.on (R.PLT_CTL.EN p) = true) (hd : d = s.get (R.PLT_CTL.DDC p))
    (hactive : (s.source (ddcId d)).active = true) (hm : m = (s.source (ddcId d)).next - 1) (hanchor : m * 2 ^ s.ddcK d % 16 = 0)
    (hnew : (s.plt p).evalAt ≠ some m) (hfull : s.pltSize p ≤ (s.plt p).window.length) (hfree : (s.plt p).held = false)
    (hu : u = (s.pltEvaluated p m).put (R.PLT_POWER.LEVEL p) (db16Word (s.pltLevel p))) :
    execPltEvaluation p s = .next (u.pltSet p (pltCond (u.get (R.PLT_CTL.MODE p)) (sext 16 (u.get (R.PLT_THRESH.LO p)))
      (sext 16 (u.get (R.PLT_THRESH.HI p))) (16 * u.get (R.PLT_CTL.HYST p)) (s.pltLevel p) (u.on (R.PLT_STATUS.COND p)))
      ((s.pltEvaluated p m).sampleStamp (ddcId d) m) ((s.pltEvaluated p m).spanQual (ddcId d) m (m + 1))) := by
  have hsize : (s.updPlt p (fun x => { x with evalAt := some m })).pltSize p = s.pltSize p := rfl
  have hagain : ¬(m * 2 ^ s.ddcK d % 16 ≠ 0 ∨ (s.plt p).evalAt = some m) := not_or.mpr ⟨not_not.mpr hanchor, hnew⟩
  subst hu
  simp only [execPltEvaluation, ← hd, ← hm, hen, hactive, hfree, hsize, hfull, decide_true, Bool.not_true, Bool.false_eq_true, if_false,
    if_true, if_neg hagain]
  rfl

/-! ### Output samples (R103, R113, R117) -/

/-- R117: the next output sample of a run that no stop ends. -/
theorem execDdcOutputSample_running {d : Fin 8} {m : Nat} (hnext : s.ddcNext? d = some m)
    (hend : ((s.ddcRelease d m).source (ddcId d)).endAt = none) : execDdcOutputSample d s = .next (s.ddcRelease d m) := by
  simp only [execDdcOutputSample, hnext, hend]

/-- R117: the DDC's output has ended with its last sample: no end is pending, and ACTIVE is 0. -/
def State.ddcEnded (s : State) (d : Nat) : State :=
  (s.updSource (ddcId d) (fun o => { o with endAt := none })).put (R.DDC_STATUS.ACTIVE d) 0

/-- R117: with the last output sample of a stopped run the DDC's streams end. -/
theorem execDdcOutputSample_last {d : Fin 8} {m c u : Nat} {v : State} (hnext : s.ddcNext? d = some m)
    (hend : ((s.ddcRelease d m).source (ddcId d)).endAt = some (m + 1, c, u)) (hv : v = (s.ddcRelease d m).ddcEnded d) :
    execDdcOutputSample d s =
      .next ((v.stopSource (ddcId d) c u (v.sampleStamp (ddcId d) (m + 1)) (v.qual 0)).settleStops (ddcId d)) := by
  simp only [execDdcOutputSample, hnext, hend, if_true, hv, State.ddcEnded]

end Machine
end Sys2Proof
end

section
namespace Sys2Proof
namespace Machine

/-- Settles O15: the writes pass their gate, and each event finds its conditions met. -/
theorem downConverterCommandsAct : Obligations.DownConverterCommandsAct := by
  unfold Obligations.DownConverterCommandsAct
  refine ⟨?boundary, ?retune, ?list, ?control, ?inactive, ?evaluated, ?output⟩
  case boundary => exact fun _ _ _ hdue hstep => ⟨_, rfl, execRetuneBoundary_command hdue hstep⟩
  case retune => exact fun _ _ _ h => ⟨h.gateAction_acts _, h.gateAction_acts _⟩
  case list =>
    exact fun _ _ hrun hen hstep hadv hdwell =>
      ⟨execListAdvance_next hrun hen hstep hadv hdwell, execListAdvance_loop hrun hen hstep hadv hdwell⟩
  case control => exact fun _ _ _ _ h => h.gate_acts _ _
  case inactive => exact fun _ _ => execPltEvaluation_inactive
  case evaluated =>
    exact fun _ _ _ _ hen hd hactive hm hanchor hnew hfull hfree =>
      ⟨_, _, rfl, rfl, execPltEvaluation_full hen hd hactive hm hanchor hnew hfull hfree rfl⟩
  case output =>
    exact fun _ _ _ hnext => ⟨execDdcOutputSample_running hnext, fun _ _ hend => ⟨_, rfl, execDdcOutputSample_last hnext hend rfl⟩⟩

end Machine
end Sys2Proof
end

section
/-!
CANCEL and the orders of reams, weirs, flights, queues and pounds: the effect of each once it is accepted.
-/

namespace Sys2Proof
namespace Machine

variable {s : State} {o : Order}

/-- R390, R392: a CANCEL of KIND ORDER finds its target: one that is accepted, bears the TAG, is not being cancelled and is no NOP or
CANCEL. -/
theorem State.cancelAccept_order {x : Order} (hc : firstInvalid (cancelChecks o) = none) (hkind : o.u 16 1 = 0)
    (hx : s.order? (o.u 17 1, o.u 20 4) = some x) (htag : x.tag = o.u 24 4) (hphase : x.phase ≠ .cancelling)
    (hop : 2 ≤ x.opcode) : State.cancelAccept o s = State.cancelEnds o (s.cancelOrder x) := by
  have hfound : ¬(x.tag ≠ o.u 24 4 ∨ x.phase = .cancelling) := not_or.mpr ⟨not_not.mpr htag, hphase⟩
  refine (State.validate_valid hc).trans ?_
  simp only [hkind, hx, if_neg hfound, if_neg (Nat.not_lt.mpr hop)]

/-- R193, R194: an untimed, ungated order of an enabled ream puts its cut ahead at the earliest time, as the next one accepted. -/
theorem State.reamOrder_untimed (c : ReamCut) (hen : s.on (R.REAM_CFG.EN (o.u 16 1)) = true) (hmode : o.u 17 1 = 0) :
    s.reamOrder o c = s.newCut (o.u 16 1) { c with order := some o.ref, accepted := s.time, cut := some s.cutNow } := by
  simp [State.reamOrder, hen, hmode]

/-- R192, R193: what an untimed REAM_SNAPSHOT asks of an enabled ream. -/
theorem State.reamSnapshotAccept_untimed (hc : firstInvalid (reamSnapshotChecks o) = none)
    (hen : s.on (R.REAM_CFG.EN (o.u 16 1)) = true) (hmode : o.u 17 1 = 0) :
    State.reamSnapshotAccept o s = s.newCut (o.u 16 1)
      { snap := true, clear := bit (o.u 19 1) 0, queue := o.u 32 2, region := (o.u 34 2, o.u 36 2, o.u 38 2, o.u 40 2)
        order := some o.ref, accepted := s.time, cut := some s.cutNow } :=
  (State.validate_valid hc).trans (State.reamOrder_untimed _ hen hmode)

/-- R193, R204: what an untimed REAM_CLEAR asks of an enabled ream. -/
theorem State.reamClearAccept_untimed (hc : firstInvalid (reamClearChecks o) = none)
    (hen : s.on (R.REAM_CFG.EN (o.u 16 1)) = true) (hmode : o.u 17 1 = 0) :
    State.reamClearAccept o s = s.newCut (o.u 16 1)
      { clear := true, order := some o.ref, accepted := s.time, cut := some s.cutNow } :=
  (State.validate_valid hc).trans (State.reamOrder_untimed _ hen hmode)

/-- R238, R239: a valid WEIR_LOAD begins the load of its line. -/
theorem State.weirLoadAccept_valid (hc : firstInvalid (weirChecks o) = none) :
    State.weirLoadAccept o s = s.startWeirLoad (o.u 16 1) (o.u 17 1) :=
  State.validate_valid hc

/-- A flight's record holds nothing of the timekeeper. -/
@[simp] theorem State.updFlight_tk (s : State) (n : Nat) (f : Flight → Flight) : (s.updFlight n f).tk = s.tk := rfl

@[simp] theorem State.prepareFlight_tk (s : State) (f : Nat) : (s.prepareFlight f).tk = s.tk := by
  rw [State.prepareFlight, State.updFlight_tk, State.put_tk]

/-- What an ARM fixes and clears leaves the time as it is. -/
@[simp] theorem State.prepareFlight_time (s : State) (f : Nat) : (s.prepareFlight f).time = s.time := by
  rw [State.time, State.prepareFlight_tk, State.time]

/-- R205, R224: an untimed, ungated FLIGHT_ARM of an OFF flight whose selectors can be armed. -/
theorem State.flightArmAccept_untimed (hc : firstInvalid (flightArmChecks o) = none) (hmode : o.u 17 1 = 0)
    (hoff : s.flState (o.u 16 1) = 0) (hok : s.flightOk (o.u 16 1) = true) :
    State.flightArmAccept o s = ((s.prepareFlight (o.u 16 1)).enterArmed (o.u 16 1)
      ((s.prepareFlight (o.u 16 1)).advU 0)).retireWith o stOk 0 [(20, time96Bytes s.time)] := by
  refine (State.validate_valid hc).trans ?_
  dsimp only
  simp only [if_neg (not_not.mpr hoff), hok, Bool.true_eq_false, if_false, hmode, State.prepareFlight_time]

/-- R434, R435: an untimed QUEUE_QUIESCE is due at once. -/
theorem State.quiesceAccept_untimed (hc : firstInvalid (quiesceChecks o) = none) (hmode : o.u 18 1 = 0) :
    State.quiesceAccept o s = s.quiesceDue o false :=
  (State.validate_valid hc).trans (if_pos hmode)

/-- R435: a timed one waits for its time. -/
theorem State.quiesceAccept_timed (hc : firstInvalid (quiesceChecks o) = none) (hmode : o.u 18 1 = 1)
    (htime : s.time < ofTime96 (o.u 20 12)) : State.quiesceAccept o s = s := by
  refine (State.validate_valid hc).trans ?_
  rw [if_neg (by simp [hmode]), if_neg (Nat.not_le.mpr htime)]

/-- R312, R313: the capture that a POUND_CUT asks of an ACTIVE pound of kind RECORD. -/
theorem State.poundCutAccept_active (hc : firstInvalid (poundCutChecks o) = none) (hp : s.poundState (o.u 16 1) = 2)
    (hkind : s.on (R.POUND_CFG.KIND (o.u 16 1)) = false) :
    State.poundCutAccept o s = State.settleCaptures { s.updOrder o.ref (fun o => { o with phase := .running }) with
      captures := s.captures ++
        [{ pound := o.u 16 1, start := ofTime96 (o.u 20 12), stop := ofTime96 (o.u 32 12), queue := o.u 44 2, order := some o.ref }] }
      (o.u 16 1) := by
  rw [State.poundCutAccept, State.validate_valid hc]
  exact if_neg (by simp [hp, hkind])

end Machine
end Sys2Proof
end

section
namespace Sys2Proof
namespace Machine

/-- Settles O2: each order is taken from its ring and then has the effect that its acceptance lemma gives. -/
theorem flightAndStreamOrdersAct : Obligations.FlightAndStreamOrdersAct := by
  unfold Obligations.FlightAndStreamOrdersAct
  refine ⟨?cancel, ?snapshot, ?clear, ?weir, ?flight, ?quiesce, ?cut⟩
  case cancel => exact fun _ _ _ h hc hk hx ht hp ho => accept_answers h (State.cancelAccept_order hc hk hx ht hp ho)
  case snapshot => exact fun _ _ h hc he hm => accept_answers h (State.reamSnapshotAccept_untimed hc he hm)
  case clear => exact fun _ _ h hc he hm => accept_answers h (State.reamClearAccept_untimed hc he hm)
  case weir => exact fun _ _ h hc => accept_answers h (State.weirLoadAccept_valid hc)
  case flight => exact fun _ _ h hc hm hf ho => accept_answers h (State.flightArmAccept_untimed hc hm hf ho)
  case quiesce =>
    exact fun _ _ h hc => ⟨fun hm => accept_answers h (State.quiesceAccept_untimed hc hm),
      fun hm ht => accept_answers h (State.quiesceAccept_timed hc hm ht)⟩
  case cut => exact fun _ _ h hc hp hk => accept_answers h (State.poundCutAccept_active hc hp hk)

end Machine
end Sys2Proof
end

section
/-!
The end of a frequency gate (R508, R509).
-/

namespace Sys2Proof
namespace Machine

/-- A TDC stream's record reads back as changed. -/
@[simp] theorem State.tdc_updTdc_same (s : State) (n : Nat) (f : Tdc → Tdc) : (s.updTdc n f).tdc n = f (s.tdc n) := by
  simp [State.tdc, State.updTdc]

/-- R577: while the units are barred no gate begins. -/
theorem State.tdcBegin_barred {s : State} (i start : Nat) (h : s.unitsBarred = true) : s.tdcBegin i start = s := if_pos h

/-- A gate at its end whose record could not be stored (R509), while the units are barred: no gate is open any more. -/
theorem execGateEnd_barred {s : State} {i : Fin 16} {g : TdcGate} (hgate : (s.tdc (16 + i)).gate = some g)
    (hend : g.start + g.len ≤ s.advU 0) (hcounted : g.counted = false) (hbar : s.unitsBarred = true) :
    ∃ t, execGateEnd i s = .next t ∧ (t.tdc (16 + i)).gate = none := by
  have hbegin (f : Tdc → Tdc) (start : Nat) : (s.updTdc (16 + i) f).tdcBegin i start = s.updTdc (16 + i) f :=
    State.tdcBegin_barred _ _ hbar
  simp only [execGateEnd, hgate, if_neg (Nat.not_lt.mpr hend), hcounted, Bool.not_false, if_true, hbegin]
  exact ⟨_, rfl, by simp⟩

/-- An uncounted gate of 1 µs, open at input 0 since time 0. -/
def uncountedGate : TdcGate := { start := 0, len := nsUnits 1000, number := 0, counted := false }

/-- 1 µs after time 0, in an emergency, with that gate still open. -/
def gateInEmergency : State :=
  { State.reset.put R.GLOBAL_PROT.EMERG 1 with
    ticks := 25
    tk := { State.reset.tk with raw := 25 * State.reset.tk.inc, adv := 25 * State.reset.tk.inc }
    tdcs := [(16, { gate := some uncountedGate })] }

theorem gateInEmergency_ends : uncountedGate.start + uncountedGate.len ≤ gateInEmergency.advU 0 := by decide +kernel

theorem gateInEmergency_barred : gateInEmergency.unitsBarred = true := by decide +kernel

/-- Refutes O21: its GATE_END clause begins the next gate without having closed the ended one, and does not ask that the units be free.
Where they are barred no gate begins (R577): GATE_END leaves none open, and the clause leaves the ended one. (`State.forceAll` closes every
open gate when it bars the units; the clause, of every state, does not suppose so.) -/
theorem not_pinAndTdcCommandsAct : ¬ Obligations.PinAndTdcCommandsAct := by
  unfold Obligations.PinAndTdcCommandsAct
  rintro ⟨-, -, -, -, -, -, -, -, hgateEnd, -⟩
  have hopen : (gateInEmergency.tdc (16 + (0 : Fin 16))).gate = some uncountedGate := rfl
  obtain ⟨t, hnext, hclosed⟩ := execGateEnd_barred hopen gateInEmergency_ends rfl gateInEmergency_barred
  obtain ⟨u, -, huncounted, hstated⟩ := hgateEnd gateInEmergency 0 uncountedGate hopen gateInEmergency_ends
  have hu : u = gateInEmergency := (huncounted rfl).trans (State.tdcBegin_barred _ _ gateInEmergency_barred)
  rw [Host.Outcome.next.inj (hnext.symm.trans hstated), hu, State.tdc_updTdc_same, hopen] at hclosed
  exact absurd hclosed (Option.some_ne_none _)

end Machine
end Sys2Proof
end

section
/-!
What comes due for a flight by itself, alone in its cycle (R223, R224, R226, R227).
-/

namespace Sys2Proof
namespace Machine

variable {s : State} {f u c n : Nat} {k : FlightDue}

/-- Nothing that is due before a cycle: nothing takes effect. -/
theorem State.flightUpTo_none (h : ∀ x, s.flightNext f = some x → c ≤ fabCycle x.1) : s.flightUpTo f c n = s := by
  cases n with
  | zero => rfl
  | succ n =>
    cases hnext : s.flightNext f with
    | none => simp only [State.flightUpTo, hnext]
    | some x => simp only [State.flightUpTo, hnext, if_neg (Nat.not_lt.mpr (h x hnext))]

/-- What is due first and before a cycle takes effect, and then the rest. -/
theorem State.flightUpTo_next (h : s.flightNext f = some (u, k)) (hbefore : fabCycle u < c) :
    s.flightUpTo f c (n + 1) = (s.flightDo f u (fabStart c) k).flightUpTo f c n := by
  simp only [State.flightUpTo, h, if_pos hbefore]

/-- R224: what is due first has come due, and after it nothing is due in its cycle: it alone takes effect. -/
theorem State.flightTimer_alone {t : State} (hnext : s.flightNext f = some (u, k)) (hat : s.flightDueAt f k = some u)
    (hnow : u ≤ s.advU 0) (ht : t = s.flightDo f u (fabStart (fabCycle u + 1)) k)
    (hrest : (t.flightNext f).all (fun x => decide (fabCycle u < fabCycle x.1)) = true) : s.flightTimer f k = t := by
  have hlater : ∀ x, t.flightNext f = some x → fabCycle u + 1 ≤ fabCycle x.1 := fun x hx => by
    simpa [hx] using hrest
  simp only [State.flightTimer, hat, if_pos hnow]
  rw [flightFuel, State.flightUpTo_next hnext (Nat.lt_succ_self _), ← ht, State.flightUpTo_none hlater]

/-- R224: the arm time of a PENDING flight, within the present tick. -/
theorem execArmTimeReached_pending {f : Fin 16} {t : Nat} (hat : (s.flight f).armAt = some t) (hstate : s.flState f = 1)
    (htime : t < s.time + nsUnits 40) : execArmTimeReached f s = .next (s.armPending f t) := by
  simp only [execArmTimeReached, hat]
  exact if_pos ⟨hstate, htime⟩

/-- R221: the next occurrence of a selector goes to every flight. -/
theorem execOccurrence_next {sel : Fin 512} {o : Occ} {rest : List Occ} (sub : Fin 2621440) (hsel : sel.val ≠ 0xF1)
    (ho : takeFirst (fun o => o.sel == sel.val) s.occs = some (o, rest)) :
    execOccurrence sel sub s =
      .next ((List.range 16).foldl (fun x f => x.arrive o (s.advU sub) f) { s with occs := rest }) := by
  simp only [execOccurrence, if_neg hsel, ho]

end Machine
end Sys2Proof
end

section
/-!
The calender units' control: runs, the host window, wake, events, copies, sends, and orders at their time (R241–R243, R265–R285).
-/

namespace Sys2Proof
namespace Machine

variable {s : State} {u : Fin 16}

/-! ### RUN and the host window (R242, R243, R280) -/

/-- R280: a RUN that comes with no STOP, and one that does. -/
theorem State.cuRunAt_alone {u t : Nat} (h : (s.cu u).stopAt ≠ some t) : s.cuRunAt u t = s.cuStartRun u := if_neg h

theorem State.cuRunAt_stopped {u t : Nat} (h : (s.cu u).stopAt = some t) : s.cuRunAt u t = (s.cuStartRun u).cuStop u := if_pos h

/-- R345: whatever the block's power, a window write that is let through is one access: done, or dropped as a bad one. -/
theorem execCuWindowWrite_writable {p : Path} {off : Fin 0x80000} (bs : List Byte)
    (h : Writable s p ((0x800000 + u * 0x80000 + off) / 4 * 4)) :
    execCuWindowWrite p u off bs s =
      .next (if accessOk (0x800000 + u * 0x80000 + off) bs.length true then s.cuWindow u off bs
        else s.badAccess (pathFn p) (0x800000 + u * 0x80000 + off) true) :=
  h.gate_acts _ _

/-! ### Wake and timer (R241, R247, R265) -/

/-- R241, R247: a unit 1 µs after EN was set. -/
theorem execCuWakeDone_waking (hstate : s.cuState u = 1) (hsince : (s.cu u).wakeAt + 1000 ≤ s.ns) (hbar : s.unitsBarred = false) :
    execCuWakeDone u s = .next (((State.put ((((s.setWord (R.CU_LSTAT0 u) 0#32).setWord (R.CU_LSTAT1 u) 0#32).setWord
      (R.CU_FLAGS u) 0#32)) (R.CU_STATUS.STATE u) 2).updCu u (fun x => { x with
        b0 := {}, b1 := {}, writes := [], mulBusy := false })).cuStopsDone u) :=
  if_pos ⟨hstate, hsince, by simp [hbar]⟩

/-- R265: the next multiple of PERIOD after the run's start. -/
theorem execCuTimerExpiry_due (hruns : s.cuRuns u = true) (hperiod : 0 < (s.cu u).period)
    (htime : (s.cu u).runAt + ((s.cu u).expiries + 1) * (s.cu u).period ≤ s.adv) :
    execCuTimerExpiry u s = .next ((s.updCu u (fun x => { x with expiries := x.expiries + 1 })).cuPend u 5) :=
  if_pos (by simp [hruns, hperiod, htime])

/-! ### Entry of events (R266, R268) -/

/-- R256, R266: the state at the bundle boundary where what is due happens: a WAITING unit has waited `n` cycles, all of them where a
cause was due at once, and else until one was. -/
def State.cuBoundary (s : State) (u n : Nat) : State :=
  if s.cuState u ≠ 4 then s else if (s.cuDue? u).isSome then s.cuCycles u n else s.cuWait u n

theorem State.cuBoundary_notWaiting {u : Nat} (n : Nat) (h : s.cuState u ≠ 4) : s.cuBoundary u n = s := if_pos h

theorem State.cuBoundary_due {u : Nat} (n : Nat) (h : s.cuState u = 4) (hdue : (s.cuDue? u).isSome = true) :
    s.cuBoundary u n = s.cuCycles u n :=
  (if_neg (not_not.mpr h)).trans (if_pos hdue)

theorem State.cuBoundary_idle {u : Nat} (n : Nat) (h : s.cuState u = 4) (hdue : s.cuDue? u = none) :
    s.cuBoundary u n = s.cuWait u n :=
  (if_neg (not_not.mpr h)).trans (if_neg (by simp [hdue]))

/-- R266: after a clean fetch the event due at the boundary is entered. -/
theorem execEventEntry_event {n c : Nat} {t : State} (ht : s.cuBoundary u n = t) (hdue : t.cuDue? u = some (.event c)) :
    execEventEntry u n .clean s = .next (t.cuEnter u c) := by
  subst ht
  unfold State.cuBoundary at hdue ⊢
  simp only [execEventEntry, reduceCtorEq, and_false, if_false, hdue]

/-- R268: a fault due there happens. -/
theorem execEventEntry_fault {n f : Nat} {t : State} (ht : s.cuBoundary u n = t) (hdue : t.cuDue? u = some (.fault f)) :
    execEventEntry u n .clean s = .next (t.cuFault u f) := by
  subst ht
  unfold State.cuBoundary at hdue ⊢
  simp only [execEventEntry, reduceCtorEq, and_false, if_false, hdue]

/-! ### Copies and sends (R272, R276) -/

/-- R272: the oldest copy lands. -/
theorem execQrdCopyLanded_oldest {k : CuCopy} {t : List CuCopy} (h : (s.cu u).copies = k :: t) :
    execQrdCopyLanded u s =
      .next ((s.updCu u (fun x => { x with copies := t, data := Mem.writes 0#8 x.data k.addr k.data })).settleCuOff u) := by
  simp only [execQrdCopyLanded, h]

section Sends

variable {x : CuSend} {t : List CuSend} {r : Admit × State} (hsends : (s.cu u).sends = x :: t)
  (hr : r = s.admitBarge (field (s.sendBlock u x) 0 2 % 4096) (s.sendBarge u x false))
include hsends hr

/-- R276: the oldest SEND waits while its queue does not take it. -/
theorem execSendDone_waits (htaken : r.1.taken = false) : execSendDone u .clean s = .next r.2 := by
  subst hr
  simp only [execSendDone, hsends]
  exact if_neg (ne_true_of_eq_false htaken)

/-- R276, R277: one that its queue takes is done, and counts in SEQ. -/
theorem execSendDone_taken (htaken : r.1.taken = true) : execSendDone u .clean s =
    .next ((r.2.updCu u (fun c => { c with sends := t, seq := (c.seq + 1) % 2 ^ 32 })).settleCuOff u) := by
  subst hr
  simp only [execSendDone, hsends]
  exact if_pos htaken

end Sends

/-! ### Orders at their time (R285) -/

section Due

variable {ring index : Nat} {o : Order} (ho : s.order? (ring, index) = some o) (hmode : o.u 17 1 = 1)
  (htime : ofTime96 (o.u 20 12) ≤ s.time)
include ho hmode htime

/-- R285: a timed CU_RUN. -/
theorem execCuRunDue_due (hop : o.opcode = 0x0602) :
    execCuRunDue ring index s = .next (s.cuRunNow o o.late (s.cuActTime o o.late)) := by
  simp only [execCuRunDue, ho]
  exact congrArg _ (if_pos ⟨hop, hmode, htime⟩)

/-- R285: a timed CU_STOP. -/
theorem execCuStopDue_due (hop : o.opcode = 0x0603) (hphase : o.phase = .pending) :
    execCuStopDue ring index s = .next (s.cuStopNow o o.late) := by
  simp only [execCuStopDue, ho]
  exact congrArg _ (if_pos ⟨hop, hphase, hmode, htime⟩)

end Due

end Machine
end Sys2Proof
end

section
namespace Sys2Proof
namespace Machine

/-- Settles O22: the writes pass their gate, and each event finds its conditions met. -/
theorem flightAndUnitCommandsAct : Obligations.FlightAndUnitCommandsAct := by
  unfold Obligations.FlightAndUnitCommandsAct
  refine ⟨?control, ?armTime, ?timeout, ?occurrence, ?always, ?holdoff, ?auto, ?enable, ?run, ?window, ?wake, ?timer, ?running,
    ?waiting, ?fault, ?copy, ?send, ?orders⟩
  case control => exact fun _ _ _ h => ⟨h.gateAction_acts _, h.gateAction_acts _⟩
  case armTime => exact fun _ _ _ => execArmTimeReached_pending
  case timeout => exact fun _ _ _ hn ha hu hr => congrArg _ (State.flightTimer_alone hn ha hu rfl hr)
  case occurrence => exact fun _ _ sub _ _ => execOccurrence_next sub
  case always => exact fun _ _ => ⟨_, rfl, rfl, rfl, rfl, rfl, rfl, rfl⟩
  case holdoff => exact fun _ _ _ hn ha hu hr => congrArg _ (State.flightTimer_alone hn ha hu rfl hr)
  case auto => exact fun _ _ _ hn ha hu hr => congrArg _ (State.flightTimer_alone hn ha hu rfl hr)
  case enable => exact fun _ _ _ _ h => h.gateField_acts _ _
  case run =>
    exact fun _ _ _ h => ⟨fun hs => (h.gateAction_acts _).trans (congrArg _ (State.cuRunAt_alone hs)),
      fun hs => (h.gateAction_acts _).trans (congrArg _ (State.cuRunAt_stopped hs)), h.gateAction_acts _, h.gateAction_acts _⟩
  case window =>
    exact fun _ _ _ _ bs h => ⟨fun hok => (execCuWindowWrite_writable bs h).trans (congrArg _ (if_pos hok)),
      fun hbad => (execCuWindowWrite_writable bs h).trans (congrArg _ (if_neg (ne_true_of_eq_false hbad)))⟩
  case wake => exact fun _ _ hs hw hb => ⟨_, rfl, execCuWakeDone_waking hs hw hb⟩
  case timer => exact fun _ _ => execCuTimerExpiry_due
  case running =>
    exact fun _ _ _ n hd hs => execEventEntry_event (State.cuBoundary_notWaiting n (by simp [hs])) hd
  case waiting =>
    exact fun _ _ _ n hs => ⟨fun hd => execEventEntry_event (State.cuBoundary_due n hs hd),
      fun hd => execEventEntry_event (State.cuBoundary_idle n hs hd)⟩
  case fault => exact fun _ _ _ n hs hd => execEventEntry_fault (State.cuBoundary_notWaiting n hs) hd
  case copy => exact fun _ _ _ _ => execQrdCopyLanded_oldest
  case send => exact fun _ _ _ _ h => ⟨_, rfl, execSendDone_waits h rfl, execSendDone_taken h rfl⟩
  case orders =>
    exact fun _ _ _ _ ho hm ht => ⟨execCuRunDue_due ho hm ht, execCuStopDue_due ho hm ht⟩

end Machine
end Sys2Proof
end

section
/-!
The issue of one bundle of a calender unit (R248, R259): what a bundle with an instruction in slot A, or in slot B, leaves, once the
slot's own effect is known.
-/

namespace Sys2Proof
namespace Machine

variable {s i x y : State} {u op : Nat} {c : CuSlot} {e : CuEnv} {has : Nat → Bool} {ctl : CuCtl} {loop : CuOpen}

/-! ### The opcodes of the bundle -/

/-- A slot-B word's opcode stands in the bundle's highest bits. -/
theorem bits_div32 (w l n : Nat) : bits (w / 2 ^ 32) l n = bits w (32 + l) n := by
  simp only [bits, Nat.div_div_eq_div_mul, pow_add]

theorem hasA_cuNext : hasA op (s.cuNext u) = true ↔ bundleOk (s.cuNext u) = true ∧ (nextA s u).op = op := by
  simp only [hasA, CuSlot.op, nextA, bits_mod32 _ 26 6 (by decide), Bool.and_eq_true, beq_iff_eq]

theorem hasB_cuNext : hasB op (s.cuNext u) = true ↔ bundleOk (s.cuNext u) = true ∧ (nextB s u).op = op := by
  simp only [hasB, CuSlot.op, nextB, bits_div32, Bool.and_eq_true, beq_iff_eq]

/-! ### The cycle of a bundle -/

/-- An instruction's row issues the unit's next bundle, where the instruction stands in it. -/
theorem State.cuRun_issues (hready : s.cuReady u = true) (hhas : has (s.cuNext u) = true) :
    s.cuRun u has e = .next (s.cuIssue u e) := by
  simp only [State.cuRun, hready, hhas, Bool.and_self, if_true]

/-- R248: a bundle that is defined goes through slot A, and then through what stands behind it. -/
theorem State.cuIssue_defined (hok : bundleOk (s.cuNext u) = true) :
    s.cuIssue u e = behindA s u (slotA e (nextA s u) (atIssue s u)).1 (slotA e (nextA s u) (atIssue s u)).2 :=
  if_pos hok

/-- R248: one that is not defined raises ILLEGAL and acts as NOP in both slots. -/
theorem State.cuIssue_undefined (hbad : bundleOk (s.cuNext u) = false) :
    s.cuIssue u e =
      (((atIssue s u).cuRaise u (s.cuBankNo u) 0).cuCycle u).cuAdvance u (s.cuBankNo u) (nextPc s u) .none .none :=
  if_neg (Bool.eq_false_iff.mp hbad)

/-- Where slot B's effect is known, what stands behind slot A is that effect and what stands behind both. -/
theorem behindA_eq_behindB (h : slotB (s.cu u).mulBusy (nextB s u) (afterA s u) = (loop, y)) :
    behindA s u (slotA {} (nextA s u) (atIssue s u)).1 (afterA s u) = behindB s u loop y := by
  simp only [behindA, behindB, h]

/-- A row of slot A: `hslot` says what the instruction does in its slot. -/
theorem IssuesA.acts (h : IssuesA s u op) (hi : i = atIssue s u) (hc : c = nextA s u)
    (hslot : c.op = op → slotA e c i = (ctl, x)) : s.cuRun u (hasA op) e = .next (behindA s u ctl x) := by
  obtain ⟨hready, hhas⟩ := h
  obtain ⟨hok, hop⟩ := hasA_cuNext.mp hhas
  subst hi hc
  rw [State.cuRun_issues hready hhas, State.cuIssue_defined hok, hslot hop]

/-- The same where the instruction's meaning `r` is known in another form. -/
theorem IssuesA.actsAs {r : CuCtl × State} (h : IssuesA s u op) (hi : i = atIssue s u) (hc : c = nextA s u)
    (hslot : c.op = op → slotA e c i = r) (hr : r = (ctl, x)) : s.cuRun u (hasA op) e = .next (behindA s u ctl x) :=
  h.acts hi hc (fun hop => (hslot hop).trans hr)

/-- The same for an instruction that leaves the sequence alone, its effect `y` being known in another form. -/
theorem IssuesA.leaves (h : IssuesA s u op) (hi : i = atIssue s u) (hc : c = nextA s u)
    (hslot : c.op = op → slotA e c i = (ctl, y)) (hy : y = x) : s.cuRun u (hasA op) e = .next (behindA s u ctl x) :=
  h.actsAs hi hc hslot (congrArg _ hy)

/-- A row of slot B: `hslot` says what the instruction does in its slot, the multipliers being taken or free as `busy` says. -/
theorem IssuesB.acts {busy : Bool} (h : IssuesB s u op) (hx : x = afterA s u) (hc : c = nextB s u)
    (hbusy : (s.cu u).mulBusy = busy) (hslot : c.op = op → slotB busy c x = (loop, y)) :
    s.cuRun u (hasB op) {} = .next (behindB s u loop y) := by
  obtain ⟨hready, hhas⟩ := h
  obtain ⟨hok, hop⟩ := hasB_cuNext.mp hhas
  subst hx hc hbusy
  rw [State.cuRun_issues hready hhas, State.cuIssue_defined hok, ← behindA_eq_behindB (hslot hop)]
  rfl

/-- The same where the instruction's meaning `r` is known in another form, and does not turn on the multipliers. -/
theorem IssuesB.actsAs {r : CuOpen × State} (h : IssuesB s u op) (hx : x = afterA s u) (hc : c = nextB s u)
    (hslot : c.op = op → slotB (s.cu u).mulBusy c x = r) (hr : r = (loop, y)) :
    s.cuRun u (hasB op) {} = .next (behindB s u loop y) :=
  h.acts hx hc rfl (fun hop => (hslot hop).trans hr)

end Machine
end Sys2Proof
end

section
/-!
What slot A and slot B do at each opcode (R249, R250): the instruction that stands there.
-/

namespace Sys2Proof
namespace Machine

variable {e : CuEnv} {c : CuSlot} {s : State} {busy : Bool}

/-! ### Slot A (Table 08-4) -/

theorem slotA_nop (h : c.op = 0) : slotA e c s = (.none, s) := by rw [slotA, h]; rfl
theorem slotA_add (h : c.op = 0x01) : slotA e c s = (.none, opAdd c s) := by rw [slotA, h]; rfl
theorem slotA_sub (h : c.op = 0x02) : slotA e c s = (.none, opSub c s) := by rw [slotA, h]; rfl
theorem slotA_and (h : c.op = 0x03) : slotA e c s = (.none, opAnd c s) := by rw [slotA, h]; rfl
theorem slotA_or (h : c.op = 0x04) : slotA e c s = (.none, opOr c s) := by rw [slotA, h]; rfl
theorem slotA_xor (h : c.op = 0x05) : slotA e c s = (.none, opXor c s) := by rw [slotA, h]; rfl
theorem slotA_shl (h : c.op = 0x06) : slotA e c s = (.none, opShl c s) := by rw [slotA, h]; rfl
theorem slotA_shr (h : c.op = 0x07) : slotA e c s = (.none, opShr c s) := by rw [slotA, h]; rfl
theorem slotA_sra (h : c.op = 0x08) : slotA e c s = (.none, opSra c s) := by rw [slotA, h]; rfl
theorem slotA_mul (h : c.op = 0x09) : slotA e c s = (.none, opMul c s) := by rw [slotA, h]; rfl
theorem slotA_slt (h : c.op = 0x0A) : slotA e c s = (.none, opSlt c s) := by rw [slotA, h]; rfl
theorem slotA_sltu (h : c.op = 0x0B) : slotA e c s = (.none, opSltu c s) := by rw [slotA, h]; rfl
theorem slotA_addi (h : c.op = 0x10) : slotA e c s = (.none, opAddi c s) := by rw [slotA, h]; rfl
theorem slotA_andi (h : c.op = 0x11) : slotA e c s = (.none, opAndi c s) := by rw [slotA, h]; rfl
theorem slotA_ori (h : c.op = 0x12) : slotA e c s = (.none, opOri c s) := by rw [slotA, h]; rfl
theorem slotA_lui (h : c.op = 0x13) : slotA e c s = (.none, opLui c s) := by rw [slotA, h]; rfl
theorem slotA_shli (h : c.op = 0x14) : slotA e c s = (.none, opShli c s) := by rw [slotA, h]; rfl
theorem slotA_shri (h : c.op = 0x15) : slotA e c s = (.none, opShri c s) := by rw [slotA, h]; rfl
theorem slotA_srai (h : c.op = 0x16) : slotA e c s = (.none, opSrai c s) := by rw [slotA, h]; rfl
theorem slotA_ldw (h : c.op = 0x18) : slotA e c s = (.none, opLdw e c s) := by rw [slotA, h]; rfl
theorem slotA_stw (h : c.op = 0x19) : slotA e c s = (.none, opStw c s) := by rw [slotA, h]; rfl
theorem slotA_vld (h : c.op = 0x1A) : slotA e c s = (.none, opVld e c s) := by rw [slotA, h]; rfl
theorem slotA_vst (h : c.op = 0x1B) : slotA e c s = (.none, opVst c s) := by rw [slotA, h]; rfl
theorem slotA_ldt (h : c.op = 0x1C) : slotA e c s = (.none, opLdt e c s) := by rw [slotA, h]; rfl
theorem slotA_stt (h : c.op = 0x1D) : slotA e c s = (.none, opStt c s) := by rw [slotA, h]; rfl
theorem slotA_beq (h : c.op = 0x20) : slotA e c s = opBeq c s := by rw [slotA, h]; rfl
theorem slotA_bne (h : c.op = 0x21) : slotA e c s = opBne c s := by rw [slotA, h]; rfl
theorem slotA_blt (h : c.op = 0x22) : slotA e c s = opBlt c s := by rw [slotA, h]; rfl
theorem slotA_bge (h : c.op = 0x23) : slotA e c s = opBge c s := by rw [slotA, h]; rfl
theorem slotA_jmp (h : c.op = 0x24) : slotA e c s = opJmp c s := by rw [slotA, h]; rfl
theorem slotA_jr (h : c.op = 0x25) : slotA e c s = opJr c s := by rw [slotA, h]; rfl
theorem slotA_call (h : c.op = 0x26) : slotA e c s = opCall c s := by rw [slotA, h]; rfl
theorem slotA_wait (h : c.op = 0x28) : slotA e c s = opWait c s := by rw [slotA, h]; rfl
theorem slotA_rete (h : c.op = 0x29) : slotA e c s = opRete c s := by rw [slotA, h]; rfl
theorem slotA_halt (h : c.op = 0x2A) : slotA e c s = opHalt c s := by rw [slotA, h]; rfl
theorem slotA_mfs (h : c.op = 0x2B) : slotA e c s = (.none, opMfs c s) := by rw [slotA, h]; rfl
theorem slotA_mts (h : c.op = 0x2C) : slotA e c s = (.none, opMts c s) := by rw [slotA, h]; rfl
theorem slotA_tnow (h : c.op = 0x2D) : slotA e c s = (.none, opTnow e c s) := by rw [slotA, h]; rfl
theorem slotA_trig (h : c.op = 0x2E) : slotA e c s = (.none, opTrig e c s) := by rw [slotA, h]; rfl
theorem slotA_rdtrg (h : c.op = 0x2F) : slotA e c s = (.none, opRdtrg c s) := by rw [slotA, h]; rfl
theorem slotA_qpop (h : c.op = 0x30) : slotA e c s = (.none, opQpop c s) := by rw [slotA, h]; rfl
theorem slotA_qrd (h : c.op = 0x31) : slotA e c s = (.none, opQrd c s) := by rw [slotA, h]; rfl
theorem slotA_qfree (h : c.op = 0x32) : slotA e c s = (.none, opQfree c s) := by rw [slotA, h]; rfl
theorem slotA_send (h : c.op = 0x33) : slotA e c s = (.none, opSend c s) := by rw [slotA, h]; rfl
theorem slotA_qstat (h : c.op = 0x34) : slotA e c s = (.none, opQstat c s) := by rw [slotA, h]; rfl

/-! ### Slot B (Table 08-5) -/

theorem slotB_nop (h : c.op = 0) : slotB busy c s = (.none, s) := by rw [slotB, h]; rfl
theorem slotB_vadd (h : c.op = 0x01) : slotB busy c s = (.none, opVadd c s) := by rw [slotB, h]; rfl
theorem slotB_vsub (h : c.op = 0x02) : slotB busy c s = (.none, opVsub c s) := by rw [slotB, h]; rfl
theorem slotB_vmov (h : c.op = 0x03) : slotB busy c s = (.none, opVmov c s) := by rw [slotB, h]; rfl
theorem slotB_vswap (h : c.op = 0x04) : slotB busy c s = (.none, opVswap c s) := by rw [slotB, h]; rfl
theorem slotB_vconj (h : c.op = 0x05) : slotB busy c s = (.none, opVconj c s) := by rw [slotB, h]; rfl
theorem slotB_vbf (h : c.op = 0x06) : slotB busy c s = (.none, opVbf c s) := by rw [slotB, h]; rfl
theorem slotB_vspl (h : c.op = 0x07) : slotB busy c s = (.none, opVspl c s) := by rw [slotB, h]; rfl
theorem slotB_vcmul (h : c.op = 0x08) : slotB busy c s = (.none, opVcmul busy c s) := by rw [slotB, h]; rfl
theorem slotB_vmac (h : c.op = 0x10) : slotB busy c s = (.none, opVmac busy c s) := by rw [slotB, h]; rfl
theorem slotB_vmsu (h : c.op = 0x11) : slotB busy c s = (.none, opVmsu busy c s) := by rw [slotB, h]; rfl
theorem slotB_vmul (h : c.op = 0x12) : slotB busy c s = (.none, opVmul busy c s) := by rw [slotB, h]; rfl
theorem slotB_vcmac (h : c.op = 0x13) : slotB busy c s = (.none, opVcmac busy c s) := by rw [slotB, h]; rfl
theorem slotB_vcmacj (h : c.op = 0x14) : slotB busy c s = (.none, opVcmacj busy c s) := by rw [slotB, h]; rfl
theorem slotB_vsq (h : c.op = 0x15) : slotB busy c s = (.none, opVsq busy c s) := by rw [slotB, h]; rfl
theorem slotB_aclr (h : c.op = 0x18) : slotB busy c s = (.none, opAclr c s) := by rw [slotB, h]; rfl
theorem slotB_vnar (h : c.op = 0x19) : slotB busy c s = (.none, opVnar c s) := by rw [slotB, h]; rfl
theorem slotB_ared (h : c.op = 0x1A) : slotB busy c s = (.none, opAred c s) := by rw [slotB, h]; rfl
theorem slotB_axh (h : c.op = 0x1B) : slotB busy c s = (.none, opAxh c s) := by rw [slotB, h]; rfl
theorem slotB_axl (h : c.op = 0x1C) : slotB busy c s = (.none, opAxl c s) := by rw [slotB, h]; rfl
theorem slotB_loop (h : c.op = 0x1F) : slotB busy c s = opLoop c s := by rw [slotB, h]; rfl

/-! ### NOP (R248) -/

/-- NOP in slot A leaves the bundle to slot B. -/
theorem execCuNop_slotA {u : Fin 16} (hready : s.cuReady u = true) (h : hasA 0 (s.cuNext u) = true) :
    execCuNop u s = .next (behindA s u .none (atIssue s u)) := by
  obtain ⟨hok, hop⟩ := hasA_cuNext.mp h
  rw [execCuNop, State.cuRun_issues hready (by simp only [h, Bool.true_or]), State.cuIssue_defined hok, slotA_nop hop]

/-- NOP in slot B leaves what slot A has done. -/
theorem execCuNop_slotB {u : Fin 16} (hready : s.cuReady u = true) (h : hasB 0 (s.cuNext u) = true) :
    execCuNop u s = .next (behindB s u .none (afterA s u)) := by
  obtain ⟨hok, hop⟩ := hasB_cuNext.mp h
  rw [execCuNop, State.cuRun_issues hready (by simp only [h, Bool.or_true, Bool.true_or]), State.cuIssue_defined hok,
    ← behindA_eq_behindB (slotB_nop hop)]
  rfl

/-- A bundle that is not defined. -/
theorem execCuNop_undefined {u : Fin 16} (hready : s.cuReady u = true) (h : bundleOk (s.cuNext u) = false) :
    execCuNop u s = .next ((((atIssue s u).cuRaise u (s.cuBankNo u) 0).cuCycle u).cuAdvance u (s.cuBankNo u) (nextPc s u)
      .none .none) := by
  rw [execCuNop, State.cuRun_issues hready (by simp only [h, Bool.not_false, Bool.or_true]), State.cuIssue_undefined h]

end Machine
end Sys2Proof
end

section
namespace Sys2Proof
namespace Machine

/-- Settles O25: each result is what the instruction puts in flight in slot A; NOP leaves its slot's state as it stands. -/
theorem unitArithmeticCommandsAct : Obligations.UnitArithmeticCommandsAct := by
  unfold Obligations.UnitArithmeticCommandsAct
  refine ⟨?add, ?sub, ?and, ?or, ?xor, ?shl, ?shr, ?sra, ?slt, ?sltu, ?addi, ?andi, ?ori, ?lui, ?shli, ?shri, ?srai, ?mul, ?nop⟩
  case add => exact fun _ _ _ _ h hi hc => h.acts hi hc slotA_add
  case sub => exact fun _ _ _ _ h hi hc => h.acts hi hc slotA_sub
  case and => exact fun _ _ _ _ h hi hc => h.acts hi hc slotA_and
  case or => exact fun _ _ _ _ h hi hc => h.acts hi hc slotA_or
  case xor => exact fun _ _ _ _ h hi hc => h.acts hi hc slotA_xor
  case shl => exact fun _ _ _ _ h hi hc => h.acts hi hc slotA_shl
  case shr => exact fun _ _ _ _ h hi hc => h.acts hi hc slotA_shr
  case sra => exact fun _ _ _ _ h hi hc => h.acts hi hc slotA_sra
  case slt => exact fun _ _ _ _ h hi hc => h.acts hi hc slotA_slt
  case sltu => exact fun _ _ _ _ h hi hc => h.acts hi hc slotA_sltu
  case addi => exact fun _ _ _ _ h hi hc => h.acts hi hc slotA_addi
  case andi => exact fun _ _ _ _ h hi hc => h.acts hi hc slotA_andi
  case ori => exact fun _ _ _ _ h hi hc => h.acts hi hc slotA_ori
  case lui => exact fun _ _ _ _ h hi hc => h.acts hi hc slotA_lui
  case shli => exact fun _ _ _ _ h hi hc => h.acts hi hc slotA_shli
  case shri => exact fun _ _ _ _ h hi hc => h.acts hi hc slotA_shri
  case srai => exact fun _ _ _ _ h hi hc => h.acts hi hc slotA_srai
  case mul => exact fun _ _ _ _ h hi hc => h.acts hi hc slotA_mul
  case nop => exact fun _ _ hready => ⟨execCuNop_slotA hready, execCuNop_slotB hready, execCuNop_undefined hready⟩

end Machine
end Sys2Proof
end

section
/-!
The loads and stores of slot A on a clean read (R245, R246), and its control instructions (R262, R263, R266, R267, R279).
-/

namespace Sys2Proof
namespace Machine

variable {s i : State} {c : CuSlot} {u op n align : Nat} {f : List Byte → CuEff} {bs : List Byte} {ctl : CuCtl}

/-! ### Loads and stores -/

/-- R246: a clean read within memory has its effect after latency 4. -/
theorem State.cuLoad_clean (hok : accessBad (s.cuAddr c) n align = false) :
    s.cuLoad c {} n align f =
      (s.postInc c n).later c 4 (f (Mem.reads 0#8 ((s.postInc c n).cu c.u).data (s.cuAddr c) n)) :=
  if_neg (Bool.eq_false_iff.mp hok)

theorem State.cuLoad_refused {e : CuEnv} (hbad : accessBad (s.cuAddr c) n align = true) :
    s.cuLoad c e n align f = (s.postInc c n).cuRaise c.u c.bank 0 := if_pos hbad

theorem State.cuStore_made (hok : accessBad (s.cuAddr c) bs.length align = false) :
    s.cuStore c align bs =
      (s.postInc c bs.length).updCu c.u (fun x => { x with data := Mem.writes 0#8 x.data (s.cuAddr c) bs }) :=
  if_neg (Bool.eq_false_iff.mp hok)

theorem State.cuStore_refused (hbad : accessBad (s.cuAddr c) bs.length align = true) :
    s.cuStore c align bs = (s.postInc c bs.length).cuRaise c.u c.bank 0 := if_pos hbad

/-- A row of a load, made or refused. -/
theorem IssuesA.loads (h : IssuesA s u op) (hi : i = atIssue s u) (hc : c = nextA s u)
    (hslot : c.op = op → slotA {} c i = (.none, i.cuLoad c {} n align f)) :
    (accessBad (i.cuAddr c) n align = false →
      ∃ bs, bs = Mem.reads 0#8 ((i.postInc c n).cu c.u).data (i.cuAddr c) n ∧
        s.cuRun u (hasA op) {} = .next (behindA s u .none ((i.postInc c n).later c 4 (f bs)))) ∧
    (accessBad (i.cuAddr c) n align = true →
      s.cuRun u (hasA op) {} = .next (behindA s u .none ((i.postInc c n).cuRaise c.u c.bank 0))) :=
  ⟨fun hok => ⟨_, rfl, h.leaves hi hc hslot (State.cuLoad_clean hok)⟩,
    fun hbad => h.leaves hi hc hslot (State.cuLoad_refused hbad)⟩

/-- A row of a store, made or refused. -/
theorem IssuesA.stores (h : IssuesA s u op) (hi : i = atIssue s u) (hc : c = nextA s u)
    (hslot : c.op = op → slotA {} c i = (.none, i.cuStore c align bs)) :
    (accessBad (i.cuAddr c) bs.length align = false →
      s.cuRun u (hasA op) {} = .next (behindA s u .none ((i.postInc c bs.length).updCu c.u
        (fun x => { x with data := Mem.writes 0#8 x.data (i.cuAddr c) bs })))) ∧
    (accessBad (i.cuAddr c) bs.length align = true →
      s.cuRun u (hasA op) {} = .next (behindA s u .none ((i.postInc c bs.length).cuRaise c.u c.bank 0))) :=
  ⟨fun hok => h.leaves hi hc hslot (State.cuStore_made hok), fun hbad => h.leaves hi hc hslot (State.cuStore_refused hbad)⟩

/-! ### Control instructions -/

/-- R263: where a control instruction is not barred, and where it is. -/
theorem State.cuControl_free (hfree : s.cuBarred c = false) : s.cuControl c ctl = (ctl, s) :=
  if_neg (Bool.eq_false_iff.mp hfree)

theorem State.cuControl_barred (hbarred : s.cuBarred c = true) : s.cuControl c ctl = (.none, s.cuRaise c.u c.bank 0) :=
  if_pos hbarred

/-- CALL leaves the word behind its delay slots in X15. -/
theorem opCall_free (hfree : s.cuBarred c = false) :
    opCall c s = (.branch (some c.target), s.later c 1 (.x 15 (BitVec.ofNat 32 ((c.pc + 3) % 8192)))) := by
  simp only [opCall, State.cuBranch, State.cuControl_free hfree, hfree, Bool.false_eq_true, if_false, if_true]

theorem opCall_barred (hbarred : s.cuBarred c = true) : opCall c s = (.none, s.cuRaise c.u c.bank 0) := by
  simp only [opCall, State.cuBranch, State.cuControl_barred hbarred, hbarred, if_true]

/-- R266: WAIT belongs to bank 0. -/
theorem opWait_free (hbank : c.bank = 0) (hfree : s.cuBarred c = false) : opWait c s = (.wait, s) :=
  (if_pos hbank).trans (State.cuControl_free hfree)

theorem opWait_otherBank (hbank : c.bank ≠ 0) : opWait c s = (.none, s.cuRaise c.u c.bank 0) := if_neg hbank

theorem opWait_barred (hbarred : s.cuBarred c = true) : opWait c s = (.none, s.cuRaise c.u c.bank 0) := by
  by_cases hbank : c.bank = 0
  · exact (if_pos hbank).trans (State.cuControl_barred hbarred)
  · exact opWait_otherBank hbank

/-- R267: RETE belongs to bank 1. -/
theorem opRete_free (hbank : c.bank = 1) (hfree : s.cuBarred c = false) : opRete c s = (.rete, s) :=
  (if_pos hbank).trans (State.cuControl_free hfree)

theorem opRete_otherBank (hbank : c.bank ≠ 1) : opRete c s = (.none, s.cuRaise c.u c.bank 0) := if_neg hbank

theorem opRete_barred (hbarred : s.cuBarred c = true) : opRete c s = (.none, s.cuRaise c.u c.bank 0) := by
  by_cases hbank : c.bank = 1
  · exact (if_pos hbank).trans (State.cuControl_barred hbarred)
  · exact opRete_otherBank hbank

/-- A row of a control instruction, free or barred. -/
theorem IssuesA.controls (h : IssuesA s u op) (hi : i = atIssue s u) (hc : c = nextA s u)
    (hslot : c.op = op → slotA {} c i = i.cuControl c ctl) :
    (i.cuBarred c = false → s.cuRun u (hasA op) {} = .next (behindA s u ctl i)) ∧
    (i.cuBarred c = true → s.cuRun u (hasA op) {} = .next (behindA s u .none (i.cuRaise c.u c.bank 0))) :=
  ⟨fun hfree => h.actsAs hi hc hslot (State.cuControl_free hfree),
    fun hbarred => h.actsAs hi hc hslot (State.cuControl_barred hbarred)⟩

/-- R264: LOOP with count 0 skips its body, and with another count opens a level. -/
theorem opLoop_skips (hfree : s.cuBarred c = false) (hlevels : (s.bank c.u c.bank).loops.length < 2)
    (hcount : (s.xa c).toNat % 65536 = 0) : opLoop c s = (.skip ((c.target + 1) % 8192), s) := by
  simp only [opLoop, hfree, hcount, decide_eq_false (Nat.not_le.mpr hlevels), Bool.or_self, Bool.false_eq_true, if_false, if_true]

theorem opLoop_opens (hfree : s.cuBarred c = false) (hlevels : (s.bank c.u c.bank).loops.length < 2)
    (hcount : (s.xa c).toNat % 65536 ≠ 0) :
    opLoop c s = (.level ⟨(c.pc + 1) % 8192, c.target, (s.xa c).toNat % 65536⟩, s) := by
  simp only [opLoop, hfree, hcount, decide_eq_false (Nat.not_le.mpr hlevels), Bool.or_self, Bool.false_eq_true, if_false]

end Machine
end Sys2Proof
end

section
namespace Sys2Proof
namespace Machine

/-- Settles O26: an access is made or refused by one test of its address, size and alignment; the base is incremented before. -/
theorem unitMemoryCommandsAct : Obligations.UnitMemoryCommandsAct := by
  unfold Obligations.UnitMemoryCommandsAct
  refine ⟨?ldw, ?ldt, ?vld, ?stw, ?stt, ?vst⟩
  case ldw => exact fun _ _ _ _ h hi hc => h.loads hi hc slotA_ldw
  case ldt => exact fun _ _ _ _ h hi hc => h.loads hi hc slotA_ldt
  case vld =>
    rintro s u i c n h hi hc rfl
    exact h.loads hi hc slotA_vld
  case stw =>
    rintro s u i c bs h hi hc rfl
    exact h.stores hi hc slotA_stw
  case stt =>
    rintro s u i c bs h hi hc rfl
    exact h.stores hi hc slotA_stt
  case vst =>
    rintro s u i c bs h hi hc rfl
    exact h.stores hi hc slotA_vst

/-- Settles O27: each control instruction turns on whether its bundle bars it. -/
theorem unitControlCommandsAct : Obligations.UnitControlCommandsAct := by
  unfold Obligations.UnitControlCommandsAct
  refine ⟨?beq, ?bne, ?blt, ?bge, ?jmp, ?jr, ?call, ?wait, ?rete, ?halt, ?loop⟩
  case beq => exact fun _ _ _ _ h hi hc => h.controls hi hc slotA_beq
  case bne => exact fun _ _ _ _ h hi hc => h.controls hi hc slotA_bne
  case blt => exact fun _ _ _ _ h hi hc => h.controls hi hc slotA_blt
  case bge => exact fun _ _ _ _ h hi hc => h.controls hi hc slotA_bge
  case jmp => exact fun _ _ _ _ h hi hc => h.controls hi hc slotA_jmp
  case jr => exact fun _ _ _ _ h hi hc => h.controls hi hc slotA_jr
  case call =>
    exact fun _ _ _ _ h hi hc => ⟨fun hfree => h.actsAs hi hc slotA_call (opCall_free hfree),
      fun hbarred => h.actsAs hi hc slotA_call (opCall_barred hbarred)⟩
  case wait =>
    exact fun _ _ _ _ h hi hc => ⟨fun hbank hfree => h.actsAs hi hc slotA_wait (opWait_free hbank hfree),
      fun hbarred => h.actsAs hi hc slotA_wait (opWait_barred hbarred),
      fun hbank => h.actsAs hi hc slotA_wait (opWait_otherBank hbank)⟩
  case rete =>
    exact fun _ _ _ _ h hi hc => ⟨fun hbank hfree => h.actsAs hi hc slotA_rete (opRete_free hbank hfree),
      fun hbarred => h.actsAs hi hc slotA_rete (opRete_barred hbarred),
      fun hbank => h.actsAs hi hc slotA_rete (opRete_otherBank hbank)⟩
  case halt => exact fun _ _ _ _ h hi hc => h.controls hi hc slotA_halt
  case loop =>
    exact fun _ _ _ _ h hx hc hfree hlevels =>
      ⟨fun hzero => h.actsAs hx hc slotB_loop (opLoop_skips hfree hlevels hzero),
        fun hcount => h.actsAs hx hc slotB_loop (opLoop_opens hfree hlevels hcount)⟩

end Machine
end Sys2Proof
end

section
/-!
The special registers, time, triggers and queues of slot A, at the cases of their operands (R254, R256, R271–R275, R278, R521).
-/

namespace Sys2Proof
namespace Machine

variable {s : State} {c : CuSlot} {e : CuEnv}

/-! ### MTS and TRIG -/

/-- MTS clears LSTAT or FLAGS bits or resets BX, as its selector says. -/
theorem opMts_lstat0 (hsel : c.sel = 0) : opMts c s = s.later c 1 (.lstat 0 (s.xa c)) := by rw [opMts, hsel]; rfl
theorem opMts_lstat1 (hsel : c.sel = 1) : opMts c s = s.later c 1 (.lstat 1 (s.xa c)) := by rw [opMts, hsel]; rfl
theorem opMts_flags (hsel : c.sel = 2) : opMts c s = s.later c 1 (.flags (s.xa c).toNat) := by rw [opMts, hsel]; rfl
theorem opMts_bx (hsel : c.sel = 3) : opMts c s = s.later c 1 .bxReset := by rw [opMts, hsel]; rfl

theorem opMts_illegal (hsel : 3 < c.sel) : opMts c s = s.cuRaise c.u c.bank 0 := by
  obtain ⟨k, hk⟩ := Nat.exists_eq_add_of_le' hsel
  rw [opMts, hk]
  rfl

/-- R278: an occurrence at STAMP, its QUAL.REF being 4. -/
theorem opTrig_stamp (hok : time96Ok (s.bank c.u c.bank).stamp = true) :
    opTrig e c s = s.eventOccur (0xB0 + 2 * c.u + c.sel % 2) (ofTime96 (s.bank c.u c.bank).stamp) (s.qual 4) := if_pos hok

/-- R521: an occurrence at the present time where STAMP is out of range, its QUAL.REF being 2. -/
theorem opTrig_present (hbad : time96Ok (s.bank c.u c.bank).stamp = false) :
    opTrig e c s = s.eventOccur (0xB0 + 2 * c.u + c.sel % 2) (s.time + e.sub) (s.qual 2) :=
  if_neg (Bool.eq_false_iff.mp hbad)

/-! ### Cells -/

/-- R271: a port with no queue bound gives the handle 0. -/
theorem opQpop_unbound (hport : s.cuPort? c.u (c.sel % 2) = none) : opQpop c s = s.later c 4 (.x c.xd 0#32) := by
  rw [opQpop, hport]
  rfl

theorem opQpop_bound {q : Nat} (hport : s.cuPort? c.u (c.sel % 2) = some q) :
    opQpop c s = (s.popCell q c.u).2.later c 4 (.x c.xd (BitVec.ofNat 32 ((s.popCell q c.u).1.getD 0))) := by
  rw [opQpop, hport]
  rfl

/-- R272: four copies under way are the most there can be. -/
theorem opQrd_full (hfull : 4 ≤ (s.cu c.u).copies.length) : opQrd c s = s.later c 4 (.x c.xd 1#32) := if_pos hfull

/-- R272: a copy of a cell that the unit has popped begins. -/
theorem opQrd_begins {t : CellTag} (hroom : (s.cu c.u).copies.length < 4) (hvalid : bit (s.xb c).toNat 31 = true)
    (hpopped : s.poppedBy? c.u (s.xb c).toNat = some t) (hok : accessBad ((s.xa c).toNat / 256 * 256) 256 256 = false) :
    opQrd c s = (s.updCu c.u (fun x => { x with
      copies := x.copies ++ [⟨handleCell (s.xb c).toNat, (s.xa c).toNat / 256 * 256, t.data⟩] })).later c 4 (.x c.xd 0#32) := by
  simp only [opQrd, if_neg (Nat.not_le.mpr hroom), hvalid, if_true, hpopped, hok, Bool.false_eq_true, if_false]
  rfl

/-- R273: a QFREE of status 0 releases its cell. -/
theorem opQfree_releases {t : CellTag} (hstatus : s.freeStatus c.u (s.xa c).toNat = 0)
    (hcell : SMap.find? s.cells (handleCell (s.xa c).toNat) = some t) :
    opQfree c s = (s.releaseCell (handleCell (s.xa c).toNat) t).later c 8 (.x c.xd 0#32) := by
  simp only [opQfree, hstatus, hcell]
  rfl

/-! ### Barges -/

/-- R275: four sends waiting are the most there can be. -/
theorem opSend_full (hfull : 4 ≤ (s.cu c.u).sends.length) : opSend c s = s.later c 4 (.x c.xd 1#32) := if_pos hfull

/-- R275: a valid block at an aligned address within data memory waits to be sent. -/
theorem opSend_queues (hroom : (s.cu c.u).sends.length < 4) (haligned : (s.xa c).toNat % 8 = 0)
    (hwithin : (s.xa c).toNat + 48 ≤ cuDataBytes) (hvalid : sendOk (Mem.reads 0#8 (s.cu c.u).data (s.xa c).toNat 48) = true) :
    opSend c s = (s.updCu c.u (fun x => { x with
      sends := x.sends ++ [⟨(s.xa c).toNat, c.bank, c.pc⟩] })).later c 4 (.x c.xd 0#32) := by
  have hblock : ((s.xa c).toNat % 8 ≠ 0 || cuDataBytes < (s.xa c).toNat + 48 ||
      !sendOk (Mem.reads 0#8 (s.cu c.u).data (s.xa c).toNat 48)) = false := by
    simp [haligned, hwithin, hvalid]
  exact (if_neg (Nat.not_le.mpr hroom)).trans (if_neg (Bool.eq_false_iff.mp hblock))

end Machine
end Sys2Proof
end

section
namespace Sys2Proof
namespace Machine

/-- Settles O28: each case of an instruction's operands is the meaning that slot A then has. -/
theorem unitSystemCommandsAct : Obligations.UnitSystemCommandsAct := by
  unfold Obligations.UnitSystemCommandsAct
  refine ⟨?mfs, ?lstat0, ?lstat1, ?flags, ?bx, ?illegal, ?tnow, ?trigStamp, ?trigPresent, ?rdtrg, ?qpopUnbound, ?qpopBound, ?qrdFull,
    ?qrdBegins, ?qfree, ?sendFull, ?sendQueues, ?qstat⟩
  case mfs => exact fun _ _ _ _ h hi hc => h.acts hi hc slotA_mfs
  case lstat0 => exact fun _ _ _ _ h hi hc hsel => h.leaves hi hc slotA_mts (opMts_lstat0 hsel)
  case lstat1 => exact fun _ _ _ _ h hi hc hsel => h.leaves hi hc slotA_mts (opMts_lstat1 hsel)
  case flags => exact fun _ _ _ _ h hi hc hsel => h.leaves hi hc slotA_mts (opMts_flags hsel)
  case bx => exact fun _ _ _ _ h hi hc hsel => h.leaves hi hc slotA_mts (opMts_bx hsel)
  case illegal => exact fun _ _ _ _ h hi hc hsel => h.leaves hi hc slotA_mts (opMts_illegal hsel)
  case tnow => exact fun _ _ _ _ _ h hi hc => h.acts hi hc slotA_tnow
  case trigStamp => exact fun _ _ _ _ _ h hi hc hok => h.leaves hi hc slotA_trig (opTrig_stamp hok)
  case trigPresent => exact fun _ _ _ _ _ h hi hc hbad => h.leaves hi hc slotA_trig (opTrig_present hbad)
  case rdtrg =>
    rintro s u sel i c h hi hc rfl
    exact h.acts hi hc slotA_rdtrg
  case qpopUnbound => exact fun _ _ _ _ h hi hc hport => h.leaves hi hc slotA_qpop (opQpop_unbound hport)
  case qpopBound => exact fun _ _ _ _ _ h hi hc hport => h.leaves hi hc slotA_qpop (opQpop_bound hport)
  case qrdFull => exact fun _ _ _ _ h hi hc hfull => h.leaves hi hc slotA_qrd (opQrd_full hfull)
  case qrdBegins =>
    exact fun _ _ _ _ _ h hi hc hroom hvalid hpopped hok =>
      h.leaves hi hc slotA_qrd (opQrd_begins hroom hvalid hpopped hok)
  case qfree => exact fun _ _ _ _ _ h hi hc hstatus hcell => h.leaves hi hc slotA_qfree (opQfree_releases hstatus hcell)
  case sendFull => exact fun _ _ _ _ h hi hc hfull => h.leaves hi hc slotA_send (opSend_full hfull)
  case sendQueues =>
    rintro s u b i c h hi hc hroom rfl haligned hwithin hvalid
    exact h.leaves hi hc slotA_send (opSend_queues hroom haligned hwithin hvalid)
  case qstat => exact fun _ _ _ _ h hi hc => h.acts hi hc slotA_qstat

end Machine
end Sys2Proof
end

section
/-!
The instructions of slot B that turn on their operands or on the multipliers (R250, R251, R255).
-/

namespace Sys2Proof
namespace Machine

variable {s : State} {c : CuSlot}

/-- VBF writes an even pair of registers. -/
theorem opVbf_even (heven : c.xd % 2 = 0) :
    opVbf c s = (s.narrow c 2 c.xd 1 true (vsum c.sh (s.va c) (s.vb c))).narrow c 2 (c.xd + 1) 1 true
      (vdiff c.sh (s.va c) (s.vb c)) := if_neg (by omega)

theorem opVbf_odd (hodd : c.xd % 2 = 1) : opVbf c s = s.cuRaise c.u c.bank 0 := if_pos hodd

/-- R255: ARED of the whole accumulator reduces its eight lanes into lane 0. -/
theorem opAred_whole (hwhole : bit c.w 0 = false) :
    opAred c s = s.later c 4 (.accSet c.ac
      ([reduceLanes ((List.range 8).map (fun l => (s.bank c.u c.bank).acc c.ac l))] ++ List.replicate 7 (0, false))) := by
  simp only [opAred, hwhole, Bool.false_eq_true, if_false, List.length_singleton]

end Machine
end Sys2Proof
end

section
namespace Sys2Proof
namespace Machine

/-- Settles O29: each result is what the instruction puts in flight in slot B, the multipliers being free or taken. -/
theorem unitVectorCommandsAct : Obligations.UnitVectorCommandsAct := by
  unfold Obligations.UnitVectorCommandsAct
  refine ⟨?vadd, ?vsub, ?vmov, ?vswap, ?vconj, ?vspl, ?aclr, ?vnar, ?axh, ?axl, ?vbfEven, ?vbfOdd, ?vcmul, ?vcmulTaken, ?vmac,
    ?vmacTaken, ?vmsu, ?vmul, ?vcmac, ?vcmacj, ?vsq, ?ared⟩
  case vadd => exact fun _ _ _ _ h hx hc => h.acts hx hc rfl slotB_vadd
  case vsub => exact fun _ _ _ _ h hx hc => h.acts hx hc rfl slotB_vsub
  case vmov => exact fun _ _ _ _ h hx hc => h.acts hx hc rfl slotB_vmov
  case vswap => exact fun _ _ _ _ h hx hc => h.acts hx hc rfl slotB_vswap
  case vconj => exact fun _ _ _ _ h hx hc => h.acts hx hc rfl slotB_vconj
  case vspl => exact fun _ _ _ _ h hx hc => h.acts hx hc rfl slotB_vspl
  case aclr => exact fun _ _ _ _ h hx hc => h.acts hx hc rfl slotB_aclr
  case vnar => exact fun _ _ _ _ h hx hc => h.acts hx hc rfl slotB_vnar
  case axh => exact fun _ _ _ _ h hx hc => h.acts hx hc rfl slotB_axh
  case axl => exact fun _ _ _ _ h hx hc => h.acts hx hc rfl slotB_axl
  case vbfEven => exact fun _ _ _ _ h hx hc heven => h.actsAs hx hc slotB_vbf (congrArg _ (opVbf_even heven))
  case vbfOdd => exact fun _ _ _ _ h hx hc hodd => h.actsAs hx hc slotB_vbf (congrArg _ (opVbf_odd hodd))
  case vcmul => exact fun _ _ _ _ h hx hc hfree => h.acts hx hc hfree slotB_vcmul
  case vcmulTaken => exact fun _ _ _ _ h hx hc htaken => h.acts hx hc htaken slotB_vcmul
  case vmac => exact fun _ _ _ _ h hx hc hfree => h.acts hx hc hfree slotB_vmac
  case vmacTaken => exact fun _ _ _ _ h hx hc htaken => h.acts hx hc htaken slotB_vmac
  case vmsu => exact fun _ _ _ _ h hx hc hfree => h.acts hx hc hfree slotB_vmsu
  case vmul => exact fun _ _ _ _ h hx hc hfree => h.acts hx hc hfree slotB_vmul
  case vcmac => exact fun _ _ _ _ h hx hc hfree => h.acts hx hc hfree slotB_vcmac
  case vcmacj => exact fun _ _ _ _ h hx hc hfree => h.acts hx hc hfree slotB_vcmacj
  case vsq => exact fun _ _ _ _ h hx hc hfree => h.acts hx hc hfree slotB_vsq
  case ared => exact fun _ _ _ _ h hx hc hwhole => h.actsAs hx hc slotB_ared (congrArg _ (opAred_whole hwhole))

end Machine
end Sys2Proof
end

section
/-!
The commands of the capture-memory channels: training and initialisation, refresh, temperature, fences, replays and scrubbing (R287–R301).
-/

namespace Sys2Proof
namespace Machine

variable {s : State} {c : Fin 6}

/-! ### Training and initialisation (R287, R289, R290) -/

theorem execTrainingStart_due (b : MemBoard) (hdue : s.trainDue = true) :
    execTrainingStart none b s = .next (s.beginTraining b) := by
  rw [execTrainingStart, if_pos hdue]

/-- R289, R290: a trained channel whose geometry is one of Table 09-1. -/
theorem execTrainingDone_trained (k : Fin 10) (hstate : s.chState c = 1) (hgeom : s.geomOk c = true) :
    execTrainingDone c true k s = .next ((s.beginInit c).put R.MEM_INFO.SPEED s.memSpeed) := by
  simp only [execTrainingDone]
  rw [if_neg (not_not.mpr hstate), if_pos (by simp [hgeom])]

/-- R289: the first failure. -/
theorem execTrainingDone_retrained (k : Fin 10) (hstate : s.chState c = 1) (hfirst : (s.channel c).trainFails = 0) :
    execTrainingDone c false k s =
      .next (s.updChannel c (fun x => { x with trainFails := 1, trainSince := some s.ns })) := by
  simp only [execTrainingDone]
  rw [if_neg (not_not.mpr hstate), if_neg (by simp), if_pos hfirst]

/-- R289: the second failure, in step `k`. -/
theorem execTrainingDone_failed (k : Fin 10) (hstate : s.chState c = 1) (hagain : (s.channel c).trainFails ≠ 0)
    (hgeom : s.geomOk c = true) : execTrainingDone c false k s =
      .next ((((s.put (R.MEM_CH_STATUS.STATE c) 5).put (R.MEM_CH_STATUS.TRAIN_STEP c) k).updChannel c
        (fun x => { x with trainSince := none })).raiseInst 128 c) := by
  simp only [execTrainingDone]
  rw [if_neg (not_not.mpr hstate), if_neg (by simp), if_neg hagain, if_pos hgeom]

theorem execInitDone_written (hstate : s.chState c = 2) (hbytes : s.channelBytes c ≤ s.initBytes c) :
    execInitDone c s = .next ((((s.put (R.MEM_CH_STATUS.STATE c) 3).put (R.MEM_CH_STATUS.INIT_PCT c) 100).updChannel c
      (fun x => { x with scrubLine := 0, cePass := 0 })).settleGib) :=
  if_pos ⟨hstate, hbytes⟩

/-! ### Refresh and temperature (R294, R295) -/

/-- What a live channel does at instant `t` is not held back once `t` has come. -/
theorem State.live_not_early {t : Nat} (hlive : s.chLive c = true) (htime : t ≤ s.ns) :
    ¬ (!s.chLive c || decide (s.ns < t)) = true := by
  simp [hlive, htime]

/-- R294: the refresh of a bank at the end of its interval. -/
theorem execRefreshDue_interval {bank : Fin 128} (busy : Bool) (hlive : s.chLive c = true)
    (hdue : (SMap.find? (s.channel c).refreshAt bank.val).getD 0 + (s.channel c).interval ≤ s.ns) :
    execRefreshDue c bank busy s = .next (s.updChannel c (fun x => { x with
      refreshAt := SMap.put x.refreshAt bank.val s.ns
      refresh := SMap.put x.refresh bank.val
        (if busy then min 4 ((SMap.find? (s.channel c).refresh bank.val).getD 0 + 1) else -4) })) := by
  simp only [execRefreshDue]
  rw [if_neg (State.live_not_early hlive hdue)]

section Temperature

variable (hlive : s.chLive c = true) (hdue : (s.channel c).mr4At + 16000000 ≤ s.ns)
include hlive hdue

/-- R295: a hot report where none was reported before. -/
theorem execMr4Read_firstHot (hraised : (s.channel c).hotRaised = false) : execMr4Read c true s =
    .next (((s.put (R.MEM_CH_STATUS.HOT c) 1).updChannel c
      (fun x => { x with interval := 1950, hotRaised := true, mr4At := s.ns })).raiseInst 129 c) := by
  simp only [execMr4Read]
  rw [if_neg (State.live_not_early hlive hdue), if_pos (by simp [hraised])]
  simp only [Bool.or_true, if_true, b2n]

/-- R295: a hot report where MEM_HOT has been raised. -/
theorem execMr4Read_stillHot (hraised : (s.channel c).hotRaised = true) : execMr4Read c true s =
    .next ((s.put (R.MEM_CH_STATUS.HOT c) 1).updChannel c
      (fun x => { x with interval := 1950, hotRaised := true, mr4At := s.ns })) := by
  simp only [execMr4Read]
  rw [if_neg (State.live_not_early hlive hdue), if_neg (by simp [hraised])]
  simp only [Bool.or_true, if_true, b2n]

theorem execMr4Read_cool : execMr4Read c false s =
    .next ((s.put (R.MEM_CH_STATUS.HOT c) 0).updChannel c
      (fun x => { x with interval := 3900, hotRaised := x.hotRaised || false, mr4At := s.ns })) := by
  simp only [execMr4Read]
  rw [if_neg (State.live_not_early hlive hdue)]
  rfl

end Temperature

/-! ### Fences (R301) -/

theorem execChannelFence_drift : execChannelFence c 3 s = .next (s.fenceChannel c 3) :=
  congrArg Host.Outcome.next (if_pos rfl)

theorem execChannelFence_replays (hfail : 3 ≤ s.get (R.MEM_CH_PAR.REPLAY_FAIL c)) :
    execChannelFence c 1 s = .next (s.fenceChannel c 1) :=
  congrArg _ (if_pos (decide_eq_true hfail))

/-- R301: more demand-read errors in the last second than UE_FENCE, on a memory-down channel. -/
theorem execChannelFence_errors (hlimit : s.get R.MEM_CTL.UE_FENCE ≠ 0) (hdown : s.on R.MEM_INFO.TYPE = false)
    (hexceeds : s.get R.MEM_CTL.UE_FENCE < ((s.channel c).ues.filter (fun t => s.ns < t + 1000000000)).length) :
    execChannelFence c 2 s = .next (s.fenceChannel c 2) :=
  congrArg _ (if_pos (by simp [hlimit, hdown, hexceeds]))

theorem execPeriodicCalibration_steady : execPeriodicCalibration c false s = .next s := rfl

theorem execPeriodicCalibration_drift (hlive : s.chLive c = true) :
    execPeriodicCalibration c true s = .next (s.fenceChannel c 3) :=
  congrArg _ (if_pos (by simp [hlive]))

/-! ### Replays (R296, R297) -/

theorem execAlertN_rdimm (hlive : s.chLive c = true) (htype : s.on R.MEM_INFO.TYPE = true) :
    execAlertN c s = .next (((s.satInc (R.MEM_CH_PAR.ALERTS c)).raiseInst 130 c).updChannel c
      (fun x => { x with replay := true, alertSeen := x.replay })) := by
  simp only [execAlertN]
  rw [if_neg (by simp [hlive, htype])]

/-- R297: a replay without another alert. -/
theorem execReplayDone_clean (hreplay : (s.channel c).replay = true) (hquiet : (s.channel c).alertSeen = false) :
    execReplayDone c s =
      .next ((s.put (R.MEM_CH_PAR.REPLAY_FAIL c) 0).updChannel c (fun x => { x with replay := false })) := by
  simp only [execReplayDone]
  rw [if_neg (by simp [hreplay]), if_pos (by simp [hquiet])]

/-- R297, R301: the third replay in a row that fails. -/
theorem execReplayDone_thirdFailure (hreplay : (s.channel c).replay = true) (halert : (s.channel c).alertSeen = true)
    (htwo : s.get (R.MEM_CH_PAR.REPLAY_FAIL c) = 2) : execReplayDone c s =
      .next (((s.put (R.MEM_CH_PAR.REPLAY_FAIL c) 3).updChannel c (fun x => { x with alertSeen := false })).fenceChannel c 1) := by
  simp only [execReplayDone]
  rw [if_neg (by simp [hreplay]), if_neg (by simp [halert]), htwo, if_pos (Nat.le_refl 3), Nat.min_self]

/-! ### Scrubbing (R298) -/

/-- R298: a clean line before the last of its channel. -/
theorem execScrubLine_clean (use : LineUse) (hstate : s.chState c = 3) (hscrub : s.on R.MEM_CTL.SCRUB_EN = true)
    (hline : (s.channel c).scrubLine + 1 < s.channelBytes c / 64) : execScrubLine c .clean use s =
      .next (State.updChannel (s.put (R.MEM_CH_SCRUB.POS_PCT c)
        (((s.channel c).scrubLine + 1) * 100 / max 1 (s.channelBytes c / 64))) c
        (fun x => { x with scrubLine := (s.channel c).scrubLine + 1 })) := by
  simp only [execScrubLine]
  rw [if_neg (by simp [hstate, hscrub]), if_neg (Nat.not_le.mpr hline), if_neg (Nat.not_le.mpr hline)]

end Machine
end Sys2Proof
end

section
namespace Sys2Proof
namespace Machine

/-- Settles O16: the writes pass their gate, and each event of a channel finds its conditions met. -/
theorem memoryChannelCommandsAct : Obligations.MemoryChannelCommandsAct := by
  unfold Obligations.MemoryChannelCommandsAct
  refine ⟨?trainDue, ?trainWrite, ?trained, ?initDone, ?refresh, ?mr4, ?fence, ?memFence, ?calibration, ?alert, ?replayClean,
    ?replayFailed, ?scrub⟩
  case trainDue => exact fun _ b hdue => execTrainingStart_due b hdue
  case trainWrite => exact fun _ _ _ h => h.gateAction_acts _
  case trained =>
    exact fun _ _ k hstate => ⟨execTrainingDone_trained k hstate, execTrainingDone_retrained k hstate,
      fun hagain hgeom => ⟨_, rfl, execTrainingDone_failed k hstate hagain hgeom⟩⟩
  case initDone => exact fun _ _ => execInitDone_written
  case refresh =>
    rintro s c bank n hlive rfl hdue
    exact ⟨execRefreshDue_interval true hlive hdue, execRefreshDue_interval false hlive hdue⟩
  case mr4 =>
    exact fun _ _ hlive hdue =>
      ⟨execMr4Read_firstHot hlive hdue, execMr4Read_stillHot hlive hdue, execMr4Read_cool hlive hdue⟩
  case fence => exact fun _ _ => ⟨execChannelFence_drift, execChannelFence_replays, execChannelFence_errors⟩
  case memFence => exact fun _ _ _ _ h => h.gateAction_acts _
  case calibration => exact fun _ _ hlive => ⟨execPeriodicCalibration_drift hlive, execPeriodicCalibration_steady⟩
  case alert => exact fun _ _ => execAlertN_rdimm
  case replayClean => exact fun _ _ => execReplayDone_clean
  case replayFailed =>
    exact fun _ _ hreplay halert htwo => ⟨_, rfl, execReplayDone_thirdFailure hreplay halert htwo⟩
  case scrub => exact fun _ _ use => execScrubLine_clean use

end Machine
end Sys2Proof
end

section
/-!
Register reads: those of Table 24-4, which latch the words that follow, and the window of MGMT (R346, R678, R680, R681).
-/

namespace Sys2Proof
namespace Machine

variable {s : State} {p : Path} {k : Nat}

/-! ### The rows of Table 24-4 -/

/-- A row of Table 24-4 whose read at `k` takes its value from the register file, at `k` itself, and latches the next `n` words: `k` is
neither the interpolated time nor a sample counter nor selected by QUEUE_SEL, and a block with a retention copy keeps it there. -/
def PlainRow (k n : Nat) : Prop :=
  latches? k = some n ∧ k ≠ R.TIME_NOW0 ∧ instIndex k (R.ADC_SCNT_LO 0) 4 0x40 = none ∧ (k < 0x90014 ∨ 0x90034 < k) ∧
    (k < 0x800000 ∨ liveBlock k = true)

theorem plainRow_convSyncT0 : PlainRow R.CONV_SYNC_T0 2 := by unfold PlainRow; decide
theorem plainRow_nvmeSlotCap (n : Fin 8) : PlainRow (R.NVME_SLOT_CAP_LO n) 1 := by revert n; unfold PlainRow; decide
theorem plainRow_nvmeRecChunk (n : Fin 8) : PlainRow (R.NVME_REC_CHUNK_LO n) 1 := by revert n; unfold PlainRow; decide
theorem plainRow_nvmeRecTrec (n : Fin 8) : PlainRow (R.NVME_REC_TREC0 n) 2 := by revert n; unfold PlainRow; decide
theorem plainRow_sgT0 (n : Fin 8) : PlainRow (R.SG_T0 n) 2 := by revert n; unfold PlainRow; decide
theorem plainRow_sgPlayed (n : Fin 8) : PlainRow (R.SG_PLAYED_LO n) 1 := by revert n; unfold PlainRow; decide
theorem plainRow_ethTxt (n : Fin 2) : PlainRow (R.ETH_TXT0 n) 2 := by revert n; unfold PlainRow; decide
theorem plainRow_ethRxt (n : Fin 6) : PlainRow (R.ETH_RXT0 n) 2 := by revert n; unfold PlainRow; decide

theorem latches?_adcScnt (n : Fin 4) : latches? (R.ADC_SCNT_LO n) = some 1 := by revert n; decide
theorem latches?_queueTearbase : latches? 0x90028 = some 2 := by decide
theorem latches?_timeNow : latches? R.TIME_NOW0 = some 2 := by decide

/-- R433: the registers that QUEUE_SEL selects are 0x90014 to 0x90034. -/
theorem State.selected_other (s : State) (h : k < 0x90014 ∨ 0x90034 < k) : s.selected k = k :=
  if_neg fun ⟨hlow, hhigh⟩ => h.elim (Nat.not_lt.mpr hlow) (Nat.not_lt.mpr hhigh)

theorem State.selected_tearbase (s : State) : s.selected 0x90028 = 0x4000000 + 0x40 * s.get R.QUEUE_SEL.QUEUE + 0x28 := rfl

/-- R678: a block that works in every mode is never served from its retention copy. -/
theorem State.retained_live (s : State) (h : liveBlock k = true) : s.retained k = false := by simp [State.retained, h]

/-! ### What a latching read does -/

/-- R346: a read by a path that carries the register and reaches it. -/
theorem State.readCmd_reached (sub : Nat) (hcarry : pathCarries p k = true) (hreach : s.reaches p k = true) :
    s.readCmd p k sub = (s.readReg p k sub).2.send (.reply p k (s.readReg p k sub).1) := by
  simp [State.readCmd, State.readGate, hcarry, hreach]

theorem State.readReg_retained (sub : Nat) (hlow : s.retained k = true) (hk : k < 0x800000) :
    s.readReg p k sub = (s.rwBits (s.selected k), s) := if_pos ⟨hlow, hk⟩

theorem State.readReg_latching {n : Nat} (sub : Nat) (hlive : s.retained k = false) (hn : latches? k = some n) :
    s.readReg p k sub = s.latchRead p k n sub := by
  simp [State.readReg, hlive, hn]

/-- R678, log 101: below READY a read is served from the retention copy and latches nothing. -/
theorem State.readCmd_retained (sub : Nat) (hcarry : pathCarries p k = true) (hreach : s.reaches p k = true) (hk : k < 0x800000)
    (hlow : s.retained k = true) : s.readCmd p k sub = s.send (.reply p k (s.rwBits (s.selected k))) := by
  rw [State.readCmd_reached sub hcarry hreach, State.readReg_retained sub hlow hk]

theorem State.wideValue_state (s : State) (k sub : Nat) : (s.wideValue k sub).2 = s := by
  unfold State.wideValue
  split
  · rfl
  · split <;> rfl

/-- R680: a read that latches one word. -/
theorem State.readCmd_one (sub : Nat) (hcarry : pathCarries p k = true) (hreach : s.reaches p k = true) (hn : latches? k = some 1)
    (hlive : s.retained k = false) : s.readCmd p k sub =
      (latch1 s p k (BitVec.ofNat 32 ((s.wideValue k sub).1 / 2 ^ 32))).send (.reply p k (BitVec.ofNat 32 (s.wideValue k sub).1)) := by
  rw [State.readCmd_reached sub hcarry hreach, State.readReg_latching sub hlive hn]
  simp [State.latchRead, latch1, s.wideValue_state]

/-- R680: a read that latches two words. -/
theorem State.readCmd_two (sub : Nat) (hcarry : pathCarries p k = true) (hreach : s.reaches p k = true) (hn : latches? k = some 2)
    (hlive : s.retained k = false) : s.readCmd p k sub =
      (latch2 s p k (BitVec.ofNat 32 ((s.wideValue k sub).1 / 2 ^ 32)) (BitVec.ofNat 32 ((s.wideValue k sub).1 / 2 ^ 64))).send
        (.reply p k (BitVec.ofNat 32 (s.wideValue k sub).1)) := by
  rw [State.readCmd_reached sub hcarry hreach, State.readReg_latching sub hlive hn]
  simp [State.latchRead, latch1, latch2, List.range_succ, s.wideValue_state]

theorem PlainRow.retained {n : Nat} (h : PlainRow k n) (sub : Nat) (hcarry : pathCarries p k = true) (hreach : s.reaches p k = true)
    (hlow : s.retained k = true) : s.readCmd p k sub = s.send (.reply p k (s.rwBits k)) := by
  obtain ⟨-, -, -, hsel, hk⟩ := h
  have hbar : k < 0x800000 := hk.resolve_right fun hl => by simp [s.retained_live hl] at hlow
  rw [State.readCmd_retained sub hcarry hreach hbar hlow, s.selected_other hsel]

/-! ### The values read -/

/-- The value that three words from `j` on make. -/
def State.threeWords (s : State) (j : Nat) : Nat :=
  (s.word j).toNat + (s.word (j + 4)).toNat * 2 ^ 32 + (s.word (j + 8)).toNat * 2 ^ 64

theorem State.threeWords_low (s : State) (j : Nat) : BitVec.ofNat 32 (s.threeWords j) = s.word j := by
  apply BitVec.eq_of_toNat_eq
  rw [BitVec.toNat_ofNat, State.threeWords]
  have := (s.word j).isLt
  omega

theorem State.threeWords_next (s : State) (j : Nat) : BitVec.ofNat 32 (s.threeWords j / 2 ^ 32) = s.word (j + 4) := by
  apply BitVec.eq_of_toNat_eq
  rw [BitVec.toNat_ofNat, State.threeWords]
  have := (s.word j).isLt
  have := (s.word (j + 4)).isLt
  omega

theorem State.threeWords_last (s : State) (j : Nat) : BitVec.ofNat 32 (s.threeWords j / 2 ^ 64) = s.word (j + 8) := by
  apply BitVec.eq_of_toNat_eq
  rw [BitVec.toNat_ofNat, State.threeWords]
  have := (s.word j).isLt
  have := (s.word (j + 4)).isLt
  have := (s.word (j + 8)).isLt
  omega

theorem State.wideValue_words (s : State) (sub : Nat) (htime : k ≠ R.TIME_NOW0) (hcount : instIndex k (R.ADC_SCNT_LO 0) 4 0x40 = none) :
    (s.wideValue k sub).1 = s.threeWords (s.selected k) := by
  simp only [State.wideValue, if_neg htime, hcount, State.threeWords]

/-- R64: the sample counter of an ADC. -/
theorem State.wideValue_adcScnt (s : State) (n : Fin 4) (sub : Nat) : (s.wideValue (R.ADC_SCNT_LO n) sub).1 = (s.adc n).count := by
  have hplace : instIndex (R.ADC_SCNT_LO n) (R.ADC_SCNT_LO 0) 4 0x40 = some n.val := by revert n; decide
  have htime : R.ADC_SCNT_LO n ≠ R.TIME_NOW0 := by revert n; decide
  simp only [State.wideValue, if_neg htime, hplace]

/-- R522: the time as interpolated. -/
theorem State.wideValue_timeNow (s : State) (sub : Nat) : (s.wideValue R.TIME_NOW0 sub).1 = toTime96 (s.timeNow sub) := rfl

/-! ### A plain row read -/

/-- R678, R680: what a read of one latched word answers, in each power mode. -/
theorem PlainRow.reads_one (h : PlainRow k 1) (sub : Nat) (hcarry : pathCarries p k = true) (hreach : s.reaches p k = true) :
    (s.retained k = false → (Host.Outcome.next (s.readCmd p k sub) : Out) =
      .next ((latch1 s p k (s.word (k + 4))).send (.reply p k (s.word k)))) ∧
    (s.retained k = true → (Host.Outcome.next (s.readCmd p k sub) : Out) = .next (s.send (.reply p k (s.rwBits k)))) := by
  refine ⟨fun hlive => ?_, fun hlow => congrArg _ (h.retained sub hcarry hreach hlow)⟩
  obtain ⟨hn, htime, hcount, hsel, -⟩ := h
  rw [State.readCmd_one sub hcarry hreach hn hlive, s.wideValue_words sub htime hcount, s.selected_other hsel, s.threeWords_low,
    s.threeWords_next]

/-- R678, R680: the same of two latched words. -/
theorem PlainRow.reads_two (h : PlainRow k 2) (sub : Nat) (hcarry : pathCarries p k = true) (hreach : s.reaches p k = true) :
    (s.retained k = false → (Host.Outcome.next (s.readCmd p k sub) : Out) =
      .next ((latch2 s p k (s.word (k + 4)) (s.word (k + 8))).send (.reply p k (s.word k)))) ∧
    (s.retained k = true → (Host.Outcome.next (s.readCmd p k sub) : Out) = .next (s.send (.reply p k (s.rwBits k)))) := by
  refine ⟨fun hlive => ?_, fun hlow => congrArg _ (h.retained sub hcarry hreach hlow)⟩
  obtain ⟨hn, htime, hcount, hsel, -⟩ := h
  rw [State.readCmd_two sub hcarry hreach hn hlive, s.wideValue_words sub htime hcount, s.selected_other hsel, s.threeWords_low,
    s.threeWords_next, s.threeWords_last]

/-! ### The rows with values of their own -/

/-- R64, R680: the sample counter of an ADC. -/
theorem execAdcScntLoRead_live {n : Fin 4} (hcarry : pathCarries p (R.ADC_SCNT_LO n) = true)
    (hreach : s.reaches p (R.ADC_SCNT_LO n) = true) (hlive : s.retained (R.ADC_SCNT_LO n) = false) : execAdcScntLoRead p n s =
      .next ((latch1 s p (R.ADC_SCNT_LO n) (BitVec.ofNat 32 ((s.adc n).count / 2 ^ 32))).send
        (.reply p (R.ADC_SCNT_LO n) (BitVec.ofNat 32 (s.adc n).count))) := by
  rw [execAdcScntLoRead, State.readCmd_one 0 hcarry hreach (latches?_adcScnt n) hlive, s.wideValue_adcScnt]

theorem execAdcScntLoRead_retained {n : Fin 4} (hcarry : pathCarries p (R.ADC_SCNT_LO n) = true)
    (hreach : s.reaches p (R.ADC_SCNT_LO n) = true) (hlow : s.retained (R.ADC_SCNT_LO n) = true) : execAdcScntLoRead p n s =
      .next (s.send (.reply p (R.ADC_SCNT_LO n) (s.rwBits (R.ADC_SCNT_LO n)))) := by
  have hplace : R.ADC_SCNT_LO n < 0x90014 := by clear hcarry hreach hlow; revert n; decide
  rw [execAdcScntLoRead, State.readCmd_retained 0 hcarry hreach (Nat.lt_trans hplace (by decide)) hlow, s.selected_other (.inl hplace)]

/-- R433, R680: QUEUE_TEARBASE0 of the queue that QUEUE_SEL names. -/
theorem execQueueTearbase0Read_live {j : Nat} (hj : j = 0x4000000 + 0x40 * s.get R.QUEUE_SEL.QUEUE + 0x28) (hcarry : pathCarries p 0x90028 = true)
    (hreach : s.reaches p 0x90028 = true) (hlive : s.lowPower = false) : execQueueTearbase0Read p s =
      .next ((latch2 s p 0x90028 (s.word (j + 4)) (s.word (j + 8))).send (.reply p 0x90028 (s.word j))) := by
  rw [execQueueTearbase0Read, State.readCmd_two 0 hcarry hreach latches?_queueTearbase (by simp [State.retained, hlive]),
    s.wideValue_words 0 (by decide) (by decide), s.selected_tearbase, ← hj, s.threeWords_low, s.threeWords_next, s.threeWords_last]

theorem execQueueTearbase0Read_retained {j : Nat} (hj : j = 0x4000000 + 0x40 * s.get R.QUEUE_SEL.QUEUE + 0x28)
    (hcarry : pathCarries p 0x90028 = true) (hreach : s.reaches p 0x90028 = true) (hlow : s.lowPower = true) :
    execQueueTearbase0Read p s = .next (s.send (.reply p 0x90028 (s.rwBits j))) := by
  rw [execQueueTearbase0Read, State.readCmd_retained 0 hcarry hreach (by decide) (by simp [State.retained, hlow, liveBlock]),
    s.selected_tearbase, ← hj]

/-- R522, R680: the time as interpolated; its block works in every mode. -/
theorem execTimeNow0Read_reached (sub : Fin 2621440) (hcarry : pathCarries p R.TIME_NOW0 = true)
    (hreach : s.reaches p R.TIME_NOW0 = true) : execTimeNow0Read p sub s =
      .next ((latch2 s p R.TIME_NOW0 (BitVec.ofNat 32 (toTime96 (s.timeNow sub) / 2 ^ 32))
        (BitVec.ofNat 32 (toTime96 (s.timeNow sub) / 2 ^ 64))).send
          (.reply p R.TIME_NOW0 (BitVec.ofNat 32 (toTime96 (s.timeNow sub))))) := by
  rw [execTimeNow0Read, State.readCmd_two sub hcarry hreach latches?_timeNow (s.retained_live (by decide)), s.wideValue_timeNow]

/-! ### The frame of a latching read -/

/-- What the latching of some words leaves: the latches alone differ. -/
theorem State.latchRead_state (s : State) (p : Path) (k n sub : Nat) : ∃ l, (s.latchRead p k n sub).2 = { s with latches := l } := by
  induction n with
  | zero => exact ⟨s.latches, s.wideValue_state k sub⟩
  | succ n ih =>
    obtain ⟨l, hl⟩ := ih
    simp only [State.latchRead, List.range_succ, List.foldl_append, List.foldl_cons, List.foldl_nil] at hl ⊢
    exact ⟨_, by rw [hl]⟩

theorem State.readReg_row_state {n : Nat} (s : State) (p : Path) (sub : Nat) (hn : latches? k = some n)
    (hk : k < 0x800000 ∨ liveBlock k = true) : ∃ l, (s.readReg p k sub).2 = { s with latches := l } := by
  rcases Bool.eq_false_or_eq_true (s.retained k) with hlow | hlive
  · have hbar : k < 0x800000 := hk.resolve_right fun hl => by simp [s.retained_live hl] at hlow
    exact ⟨s.latches, by rw [State.readReg_retained sub hlow hbar]⟩
  · rw [State.readReg_latching sub hlive hn]
    exact s.latchRead_state p k n sub

/-- R680: a read of a row of Table 24-4 sends one reply and changes the latches alone, in every power mode. -/
theorem State.readCmd_frame {n : Nat} (sub : Nat) (hn : latches? k = some n) (hk : k < 0x800000 ∨ liveBlock k = true)
    (hcarry : pathCarries p k = true) (hreach : s.reaches p k = true) :
    ∃ t v, (Host.Outcome.next (s.readCmd p k sub) : Out) = .next t ∧ t.sent = Sent.reply p k v :: s.sent ∧
      { t with latches := s.latches, sent := s.sent } = s := by
  obtain ⟨l, hl⟩ := s.readReg_row_state p sub hn hk
  have hcmd : s.readCmd p k sub = State.send { s with latches := l } (.reply p k (s.readReg p k sub).1) := by
    rw [State.readCmd_reached sub hcarry hreach, hl]
  exact ⟨_, _, congrArg _ hcmd, rfl, rfl⟩

theorem PlainRow.frame {n : Nat} (h : PlainRow k n) (sub : Nat) (hcarry : pathCarries p k = true) (hreach : s.reaches p k = true) :
    ∃ t v, (Host.Outcome.next (s.readCmd p k sub) : Out) = .next t ∧ t.sent = Sent.reply p k v :: s.sent ∧
      { t with latches := s.latches, sent := s.sent } = s := by
  obtain ⟨hn, -, -, -, hk⟩ := h
  exact State.readCmd_frame sub hn hk hcarry hreach

end Machine
end Sys2Proof
end

section
namespace Sys2Proof
namespace Machine

/-- Settles O37: the rows that read the register file by what each plain row answers; the counters, the selected queue and the time by the
value they read. -/
theorem registerReadsAct : Obligations.RegisterReadsAct := by
  unfold Obligations.RegisterReadsAct
  refine ⟨?sync, ?count, ?tear, ?cap, ?chunk, ?trec, ?start, ?played, ?time, ?tx, ?rx, ?window⟩
  case sync =>
    rintro s p _ rfl
    exact plainRow_convSyncT0.reads_two 0
  case count =>
    rintro s p n _ rfl hc hr
    exact ⟨execAdcScntLoRead_live hc hr, execAdcScntLoRead_retained hc hr⟩
  case tear => exact fun _ _ _ hj hc hr => ⟨execQueueTearbase0Read_live hj hc hr, execQueueTearbase0Read_retained hj hc hr⟩
  case cap =>
    rintro s p n _ rfl
    exact (plainRow_nvmeSlotCap n).reads_one 0
  case chunk =>
    rintro s p n _ rfl
    exact (plainRow_nvmeRecChunk n).reads_one 0
  case trec =>
    rintro s p n _ rfl
    exact (plainRow_nvmeRecTrec n).reads_two 0
  case start =>
    rintro s p n _ rfl
    exact (plainRow_sgT0 n).reads_two 0
  case played =>
    rintro s p n _ rfl
    exact (plainRow_sgPlayed n).reads_one 0
  case time =>
    rintro s p sub _ rfl hc hr
    exact ⟨fun _ => execTimeNow0Read_reached sub hc hr, fun hlow => congrArg _ (State.readCmd_retained sub hc hr (by decide) hlow)⟩
  case tx =>
    rintro s p n _ rfl hc hr
    exact ((plainRow_ethTxt n).reads_two 0 hc hr).left (s.retained_live (by clear hc hr; revert n; decide))
  case rx =>
    rintro s p n _ rfl hc hr
    exact ((plainRow_ethRxt n).reads_two 0 hc hr).left (s.retained_live (by clear hc hr; revert n; decide))
  case window => exact fun s hr => congrArg _ (if_pos hr)

end Machine
end Sys2Proof
end

section
/-!
Register writes: a word that its path does not bring to the register, one without the token, and one that meets a retention copy (R346, R361,
R678).
-/

namespace Sys2Proof
namespace Machine

variable {s t : State} {p : Path} {k : Nat} {w : Word}

/-! ### The gate -/

/-- R346, R351: an access that does not reach the registers is answered Unsupported Request and logged to AER. -/
def State.unsupported (s : State) (fn : Nat) : State := (s.send (.unsupported fn)).logAer fn 20

theorem State.gate_unreached (keep act : State → State) (hreach : s.reaches p k = false) :
    s.gate p k keep act = s.unsupported (pathFn p) := by
  simp [State.gate, hreach, State.unsupported]

theorem State.gate_unowned (keep act : State → State) (hreach : s.reaches p k = true) (hown : s.mayWrite p k = false) :
    s.gate p k keep act = s.ownerViolation p k := by
  simp [State.gate, hreach, hown]

theorem State.gate_retained (keep act : State → State) (hreach : s.reaches p k = true) (hown : s.mayWrite p k = true)
    (hlow : s.retained k = true) : s.gate p k keep act = keep s := by
  simp [State.gate, hreach, hown, hlow]

/-- R345: an aligned write of a register that the path carries goes through the gate; GLOBAL_RESET has its own rule (R625). -/
theorem execRegisterWrite_gate (hcarry : pathCarries p k = true) (halign : k % 4 = 0) (hreset : k ≠ R.GLOBAL_RESET) :
    execRegisterWrite p k w s = .next (s.gate p k
      (fun s => if 0x800000 ≤ k then s.regWrite p k w else s.retainWrite (s.selected k) w) (fun s => s.regWrite p k w)) := by
  rw [execRegisterWrite, if_pos ⟨hcarry, halign⟩, State.busWrite, if_neg hreset]

/-- R361. -/
theorem execRegisterWrite_unowned (hcarry : pathCarries p k = true) (halign : k % 4 = 0) (hreset : k ≠ R.GLOBAL_RESET)
    (hreach : s.reaches p k = true) (hown : s.mayWrite p k = false) : execRegisterWrite p k w s = .next (s.ownerViolation p k) := by
  rw [execRegisterWrite_gate hcarry halign hreset, State.gate_unowned _ _ hreach hown]

/-! ### Unsupported Request -/

/-- What events and interrupts may touch holds no byte of a memory. -/
theorem State.Rest.sameMemories (h : s.Rest t) : SameMemories s t := by
  intro a
  simp only [State.pound, State.cu, h.cache, h.eth, h.flash, h.panel, h.pounds, h.cus, implies_true, and_self]

theorem State.unsupported_frame (s : State) (fn : Nat) : (fn, 20) ∈ (s.unsupported fn).pcie.aer ∧
    Sent.unsupported fn ∈ (s.unsupported fn).sent ∧
    (∀ j, j ∉ [R.EV_CNT 162, R.EV_ROOT, R.GLOBAL_PWRSTAT] → (s.unsupported fn).word j = s.word j) ∧
    SameMemories s (s.unsupported fn) := by
  obtain ⟨haer, hsent⟩ := (s.send (.unsupported fn)).logAer_logs fn 20
  refine ⟨haer, ?_, fun j hj => ?_, ((s.send_rest _).trans (State.logAer_rest _ _ _)).sameMemories⟩
  · rw [State.unsupported, hsent, State.send_sent_free _ _ rfl]
    exact List.mem_cons_self
  · simp only [List.mem_cons, List.not_mem_nil, or_false, not_or] at hj
    obtain ⟨hcount, hroot, hmode⟩ := hj
    exact State.logAer_word _ _ _ _ hcount hroot hmode

/-! ### A violation of the token -/

theorem State.get_lt (s : State) (f : Field) : s.get f < 2 ^ f.width := Nat.mod_lt _ (Nat.two_pow_pos _)

theorem pathAgent_lt (p : Path) : pathAgent p < 8 := by cases p <;> decide

/-- The fields of GLOBAL_OWNVIOL's word. -/
theorem bits_violation (k a h : Nat) (hk : k < 2 ^ 24) (ha : a < 8) (hh : h < 8) :
    bits ((k % 2 ^ 24 + a * 2 ^ 24 + h * 2 ^ 27) % 2 ^ 32) 0 24 = k ∧
    bits ((k % 2 ^ 24 + a * 2 ^ 24 + h * 2 ^ 27) % 2 ^ 32) 24 3 = a ∧
    bits ((k % 2 ^ 24 + a * 2 ^ 24 + h * 2 ^ 27) % 2 ^ 32) 27 3 = h := by
  unfold bits
  omega

/-- A violation touches GLOBAL_OWNVIOL and what its event touches. -/
theorem State.ownerViolation_word (s : State) (p : Path) (k j : Nat)
    (hj : j ∉ [R.GLOBAL_OWNVIOL, R.EV_CNT 163, R.EV_ROOT, R.GLOBAL_PWRSTAT]) : (s.ownerViolation p k).word j = s.word j := by
  simp only [List.mem_cons, List.not_mem_nil, or_false, not_or] at hj
  obtain ⟨hviol, hcount, hroot, hmode⟩ := hj
  exact (State.raiseAt_word _ _ _ _ _ _ _ hcount hroot hmode).trans (State.word_setWord_other _ _ _ _ hviol)

theorem State.ownerViolation_rest (s : State) (p : Path) (k : Nat) : s.Rest (s.ownerViolation p k) :=
  (s.setWord_rest _ _).trans (State.raise_rest _ _ _ _ _)

/-- R361: GLOBAL_OWNVIOL names the offset, the writer and the holder. -/
theorem State.ownerViolation_record (s : State) (p : Path) (hk : k < 2 ^ 24) :
    (s.ownerViolation p k).get R.GLOBAL_OWNVIOL.OFFSET = k ∧ (s.ownerViolation p k).get R.GLOBAL_OWNVIOL.AGENT = pathAgent p ∧
      (s.ownerViolation p k).get R.GLOBAL_OWNVIOL.HELD_BY = s.get R.GLOBAL_OWNER.HOLDER := by
  have hword : ((s.ownerViolation p k).word R.GLOBAL_OWNVIOL).toNat = s.violWord p k % 2 ^ 32 := by
    rw [State.ownerViolation, State.raise, State.raiseAt_word _ _ _ _ _ _ _ (by decide) (by decide) (by decide),
      State.word_setWord_same, BitVec.toNat_ofNat]
  simp only [State.get, hword]
  exact bits_violation k (pathAgent p) (s.get R.GLOBAL_OWNER.HOLDER) hk (pathAgent_lt p) (s.get_lt _)

/-- R361, R617: the violation is counted. -/
theorem State.ownerViolation_count (s : State) (p : Path) (k : Nat) : (s.ownerViolation p k).get (R.EV_CNT.COUNT 163) =
    satAdd (R.EV_CNT.COUNT 163).width (s.get (R.EV_CNT.COUNT 163)) 1 := by
  rw [State.ownerViolation, State.raise_count _ _ _ _ _ (by decide) (by decide), State.get_setWord_other _ _ _ _ (by decide)]

end Machine
end Sys2Proof
end

section
namespace Sys2Proof
namespace Machine

/-- Settles O46: the write ends as a violation, whose record, count and reach the lemmas cited give. -/
theorem unownedWritesAreDropped : Obligations.UnownedWritesAreDropped := by
  unfold Obligations.UnownedWritesAreDropped
  intro s p k w hcarry halign hk hreset hreach hown
  obtain ⟨hoffset, hagent, hholder⟩ := s.ownerViolation_record p hk
  exact ⟨_, execRegisterWrite_unowned hcarry halign hreset hreach hown, hoffset, hagent, hholder, s.ownerViolation_count p k,
    s.ownerViolation_word p k, (s.ownerViolation_rest p k).eq⟩

/-- Settles O47: by the gate's refusal of what does not reach the registers, and by its retention copy. -/
theorem unreachableAndRetainedWrites : Obligations.UnreachableAndRetainedWrites := by
  unfold Obligations.UnreachableAndRetainedWrites
  refine ⟨fun s p k w hcarry halign hreset hreach => ?_, fun s p k w hcarry halign hk hreach hown hlow hreset => ?_⟩
  · rw [exec_registerWrite, execRegisterWrite_gate hcarry halign hreset, State.gate_unreached _ _ hreach]
    exact ⟨_, rfl, s.unsupported_frame (pathFn p)⟩
  · rw [exec_registerWrite, execRegisterWrite_gate hcarry halign hreset, State.gate_retained _ _ hreach hown hlow,
      if_neg (Nat.not_le.mpr hk)]

end Machine
end Sys2Proof
end

section
/-!
FORCE (R365): the token goes to MGMT, and OWNER_TAKEN to both event rings (R615, R618).
-/

namespace Sys2Proof
namespace Machine

variable {s : State}

/-! ### Records that wait -/

theorem mem_updFirst {α : Type} {p : α → Bool} (f : α → α) {l : List α} (h : l.any p = true) :
    ∃ x ∈ l, p x = true ∧ f x ∈ updFirst p f l := by
  induction l with
  | nil => simp at h
  | cons y l ih =>
    by_cases hy : p y = true
    · exact ⟨y, by simp, hy, by simp [updFirst, hy]⟩
    · obtain ⟨x, hx, hp, hf⟩ := ih (by simpa [hy] using h)
      exact ⟨x, by simp [hx], hp, by simp [updFirst, hy, hf]⟩

/-- R615: a record of the source waits afterwards, the one offered unless another was waiting. -/
theorem addWaiting_waits (l : List EvRec) (r : EvRec) :
    ∃ x ∈ addWaiting l r, x.source = r.source ∧ ((∀ y ∈ l, y.source ≠ r.source) → x.info = r.info) := by
  unfold addWaiting
  split
  case isTrue h =>
    obtain ⟨-, hany⟩ := Bool.and_eq_true_iff.mp h
    obtain ⟨x, hx, hp, hf⟩ := mem_updFirst (fun x : EvRec => { x with rep := min (x.rep + 1) 0xFFFFFFFF, coalesced := true }) hany
    obtain ⟨hsource, -⟩ : x.source = r.source ∧ x.conseq = false := by simpa using hp
    exact ⟨_, hf, hsource, fun hnone => absurd hsource (hnone x hx)⟩
  case isFalse => exact ⟨r, by simp, rfl, fun _ => rfl⟩

theorem State.abandonAuto_ev (s : State) : s.abandonAuto.ev = s.ev := by
  unfold State.abandonAuto
  split
  · split <;> rfl
  · rfl

theorem State.wakeCause_ev (s : State) (c : Nat) : (s.wakeCause c).ev = s.ev := by
  rw [← s.abandonAuto_ev]
  unfold State.wakeCause
  dsimp only
  split <;> rfl

/-- R618: a record steered to both rings. -/
theorem State.offerRecord_both {r : EvRec} (h : s.evDest r.source = (true, true)) :
    (s.offerRecord r).ev.wait0 = addWaiting s.ev.wait0 r ∧ (s.offerRecord r).ev.wait1 = addWaiting s.ev.wait1 r := by
  have hev : ∀ b : Bool, (if b then s.wakeCause 2 else s).ev = s.ev := by
    intro b
    cases b
    · rfl
    · exact s.wakeCause_ev 2
  simp only [State.offerRecord, State.waitRecord, h, hev, if_true, and_self]

/-- R613: an enabled source that is a consequence of nothing and no fault detection puts its record to the rings. -/
theorem State.raiseAt_offered {src inst info cause time : Nat} (hen : s.on (R.EV_CFG.EN src) = true) (hkey : R.EV_CFG src ≠ R.EV_CNT src)
    (hfree : ∀ (t : State) (c : Containment), t.consequential c src inst cause = false) (hroot : isRootSource src = false) :
    s.raiseAt src inst info cause time =
      (s.satInc (R.EV_CNT.COUNT src)).offerRecord { source := src, root := false, time := time, info := info } := by
  have hcounted : (s.satInc (R.EV_CNT.COUNT src)).on (R.EV_CFG.EN src) = true := by
    rw [← hen, State.on, State.on, State.satInc, State.get_put_ne _ _ _ _ hkey]
  unfold State.raiseAt
  generalize s.satInc (R.EV_CNT.COUNT src) = a at hcounted ⊢
  simp [hcounted, hfree, hroot]

/-! ### OWNER_TAKEN -/

/-- Table 21-3: OWNER_TAKEN is a consequence of nothing. -/
theorem State.consequential_ownerTaken (s : State) (c : Containment) (inst cause : Nat) : s.consequential c 164 inst cause = false := by
  unfold State.consequential
  split <;> simp

/-- R618: OWNER_TAKEN goes to both rings whatever DEST holds. -/
theorem State.evDest_ownerTaken (s : State) : s.evDest 164 = (true, true) := if_pos rfl

/-- R613, R618: with EN set, OWNER_TAKEN waits for both rings. -/
theorem State.raise_ownerTaken (inst info : Nat) (hen : s.on (R.EV_CFG.EN 164) = true) :
    (s.raise 164 inst info).ev.wait0 = addWaiting s.ev.wait0 { source := 164, root := false, time := s.time, info := info } ∧
    (s.raise 164 inst info).ev.wait1 = addWaiting s.ev.wait1 { source := 164, root := false, time := s.time, info := info } := by
  rw [State.raise, State.raiseAt_offered hen (by decide) (fun t c => t.consequential_ownerTaken c inst 0) (by decide)]
  have hboth := State.offerRecord_both (s := s.satInc (R.EV_CNT.COUNT 164))
    (r := { source := 164, root := false, time := s.time, info := info }) (State.evDest_ownerTaken _)
  rw [State.satInc_ev] at hboth
  exact hboth

/-! ### The token forced -/

/-- The state whose token MGMT has just been given, before the event. -/
def State.tokenToMgmt (s : State) : State := (s.put R.GLOBAL_OWNER.HOLDER 2).setPend 2 false

theorem State.tokenForce_eq (s : State) : s.tokenForce =
    s.tokenToMgmt.raise 164 (s.get R.GLOBAL_OWNER.HOLDER) (s.get R.GLOBAL_OWNER.HOLDER) := by
  have hfit : s.get R.GLOBAL_OWNER.HOLDER < 65536 := Nat.lt_trans (s.get_lt _) (by decide)
  rw [State.tokenForce, State.raiseInst, Nat.mod_eq_of_lt hfit, State.tokenToMgmt]

theorem State.tokenForce_holder (s : State) : s.tokenForce.get R.GLOBAL_OWNER.HOLDER = 2 := by
  rw [s.tokenForce_eq, State.get_raise _ _ _ _ _ _ (by decide) (by decide) (by decide), State.tokenToMgmt, State.setPend,
    State.get_put_other _ _ _ _ (by decide) (by decide), State.get_put_fits _ _ _ (by decide) (by decide)]

theorem State.tokenToMgmt_on_ownerTaken (s : State) : s.tokenToMgmt.on (R.EV_CFG.EN 164) = s.on (R.EV_CFG.EN 164) := by
  rw [State.on, State.tokenToMgmt, State.setPend, State.get_put_ne _ _ _ _ (by decide), State.get_put_ne _ _ _ _ (by decide), State.on]

/-- R365: the previous holder stands in the record. -/
theorem State.tokenForce_waits (s : State) (hen : s.on (R.EV_CFG.EN 164) = true) :
    (∃ x ∈ s.tokenForce.ev.wait0, x.source = 164 ∧ ((∀ y ∈ s.ev.wait0, y.source ≠ 164) → x.info = s.get R.GLOBAL_OWNER.HOLDER)) ∧
    (∃ x ∈ s.tokenForce.ev.wait1, x.source = 164 ∧ ((∀ y ∈ s.ev.wait1, y.source ≠ 164) → x.info = s.get R.GLOBAL_OWNER.HOLDER)) := by
  obtain ⟨hwait0, hwait1⟩ := State.raise_ownerTaken (s.get R.GLOBAL_OWNER.HOLDER) (s.get R.GLOBAL_OWNER.HOLDER)
    (s.tokenToMgmt_on_ownerTaken.trans hen)
  rw [s.tokenForce_eq, hwait0, hwait1]
  exact ⟨addWaiting_waits _ _, addWaiting_waits _ _⟩

/-- R361: while MGMT holds the token, no other path but the firmware's writes PF0 BAR0, GLOBAL_OWNER apart. -/
theorem State.mayWrite_otherThanMgmt {q : Path} {k : Nat} (hk : k < 0x2000000) (howner : k ≠ R.GLOBAL_OWNER) (hfw : q ≠ .fw)
    (hagent : pathAgent q ≠ 2) (hholder : s.get R.GLOBAL_OWNER.HOLDER = 2) : s.mayWrite q k = false := by
  simp [State.mayWrite, howner, hfw, hholder, hk, hagent.symm]

end Machine
end Sys2Proof
end

section
namespace Sys2Proof
namespace Machine

/-- Settles O54: by what FORCE leaves, and by the fate of a write without the token. -/
theorem forceTakesTheToken : Obligations.ForceTakesTheToken := by
  unfold Obligations.ForceTakesTheToken
  refine ⟨fun s h => ?_, fun s q k w hcarry halign hk hreset howner hfw hagent hholder hreach => ?_⟩
  · exact ⟨s.tokenForce, (h.gateAction_acts _).trans (congrArg _ (if_pos rfl)), s.tokenForce_holder, s.tokenForce_waits,
      fun q k hk howner hfw hagent => State.mayWrite_otherThanMgmt hk howner hfw hagent s.tokenForce_holder⟩
  · exact execRegisterWrite_unowned hcarry halign hreset hreach
      (State.mayWrite_otherThanMgmt (Nat.lt_trans hk (by decide)) howner hfw hagent hholder)

end Machine
end Sys2Proof
end

section
/-!
The serial monitor (R607, R608): what each line does while it runs.
-/

namespace Sys2Proof
namespace Machine

variable {s : State}

theorem State.monCmd_runs (h : s.monRuns = true) (f : State → State) : s.monCmd f = .next (f s) := congrArg _ (if_pos h)

theorem State.monCmd_stopped (h : s.monRuns = false) (f : State → State) : s.monCmd f = .next s :=
  congrArg _ (if_neg (ne_true_of_eq_false h))

theorem State.smbCmd_up (h : s.lkUp 0 = true) (f : State → State) : s.smbCmd f = .next (f s) := congrArg _ (if_pos h)

theorem State.smbCmd_down (h : s.lkUp 0 = false) (f : State → State) : s.smbCmd f = .next s :=
  congrArg _ (if_neg (ne_true_of_eq_false h))

/-! ### RD -/

/-- R607: up to 64 aligned words within the BAR. -/
theorem State.monRead_within {base size a n : Nat} (halign : a % 4 = 0) (hsome : 1 ≤ n) (hmax : n ≤ 64) (hsize : a + 4 * n ≤ size) :
    s.monRead base size a n = (s.monWords (base + a) n).2.monOk (s.monWords (base + a) n).1 :=
  if_neg (by omega)

theorem State.monRead_beyond {base size a n : Nat} (hsize : size < a + 4 * n) : s.monRead base size a n = s.monErr 1 :=
  if_pos (by omega)

/-! ### WR, MB, BAUD and RESET -/

/-- R608: a write without the token. -/
theorem execMonWr_unowned {a : Nat} {v : Word} (hrun : s.monRuns = true) (halign : a % 4 = 0) (ha : a < 0x1000000)
    (hown : s.mayWrite .mon a = false) : execMonWr a v s = .next ((s.busWrite .mon a v).monErr 3) := by
  rw [execMonWr, State.monCmd_runs hrun, if_neg (by omega)]
  simp [hown]

/-- R607: a write by the holder that leaves the monitor running. -/
theorem execMonWr_owned {a : Nat} {v : Word} (hrun : s.monRuns = true) (halign : a % 4 = 0) (ha : a < 0x1000000)
    (hown : s.mayWrite .mon a = true) (hstill : (s.busWrite .mon a v).monRuns = true) :
    execMonWr a v s = .next ((s.busWrite .mon a v).monOk []) := by
  rw [execMonWr, State.monCmd_runs hrun, if_neg (by omega)]
  simp [hown, hstill]

theorem execMonMbWrite_free (w : Word) (hrun : s.monRuns = true) (hfree : (s.mbx 4).inFull = false) :
    execMonMbWrite w s = .next ((s.mbxIn 4 w).monOk []) := by
  rw [execMonMbWrite, State.monCmd_runs hrun, if_neg (by simp [hfree])]

/-- R598: a word for a full IN is lost. -/
theorem execMonMbWrite_full (w : Word) (hrun : s.monRuns = true) (hfull : (s.mbx 4).inFull = true) :
    execMonMbWrite w s = .next ((s.mbxIn 4 w).monErr 4) := by
  rw [execMonMbWrite, State.monCmd_runs hrun, if_pos hfull]

theorem execMonBaud_rate {r : Nat} (hrun : s.monRuns = true) (hr : r ≤ 3) :
    execMonBaud r s = .next ((s.put R.MON_CFG.BAUD r).monOk []) := by
  rw [execMonBaud, State.monCmd_runs hrun, if_neg (Nat.not_lt.mpr hr)]

theorem execMonBaud_bad {r : Nat} (hrun : s.monRuns = true) (hr : 3 < r) : execMonBaud r s = .next (s.monErr 1) := by
  rw [execMonBaud, State.monCmd_runs hrun, if_pos hr]

/-- R361, R625: RESET without the token. -/
theorem execMonReset_unowned {k : Word} (hrun : s.monRuns = true) (hown : s.get R.GLOBAL_OWNER.HOLDER ≠ 3) :
    execMonReset k s = .next ((s.resetWrite .mon k.toNat).monErr 3) := by
  rw [execMonReset, State.monCmd_runs hrun]
  simp [hown]

/-- R625: a FULL_RESET by the holder of the token, with its key. -/
theorem State.resetWrite_holder {p : Path} (hholder : s.get R.GLOBAL_OWNER.HOLDER = pathAgent p) (hfw : p ≠ .fw) :
    s.resetWrite p 0x5253 = s.fullReset 2 (pathAgent p) := by
  simp [State.resetWrite, hholder, hfw]

/-- R625: without its key. -/
theorem State.resetWrite_holder_noKey {p : Path} {key : Nat} (hholder : s.get R.GLOBAL_OWNER.HOLDER = pathAgent p) (hfw : p ≠ .fw)
    (hkey : key ≠ 0x5253) : s.resetWrite p key = s := by
  simp [State.resetWrite, hholder, hfw, hkey]

/-- R607, R625: RESET by the holder with the key; the reset leaves no monitor to answer. -/
theorem execMonReset_holder (hrun : s.monRuns = true) (hown : s.get R.GLOBAL_OWNER.HOLDER = 3)
    (hstop : (s.fullReset 2 3).monRuns = false) : execMonReset 0x5253#32 s = .next (s.fullReset 2 3) := by
  have hreset : s.resetWrite .mon (0x5253#32).toNat = s.fullReset 2 3 := State.resetWrite_holder hown (by decide)
  rw [execMonReset, State.monCmd_runs hrun]
  simp only [hreset]
  simp [hown, hstop]

end Machine
end Sys2Proof
end

section
namespace Sys2Proof
namespace Machine

/-- Settles O39: each line, the monitor running. -/
theorem monitorCommandsAct : Obligations.MonitorCommandsAct := by
  unfold Obligations.MonitorCommandsAct
  refine ⟨?answers, ?reads, ?writes, ?mailbox, ?baud, ?reset, fun s lost h => (exec_monUnknown lost s).trans (State.monCmd_runs h _)⟩
  case answers =>
    exact fun s h => ⟨(exec_monId s).trans (State.monCmd_runs h _), (exec_monLk s).trans (State.monCmd_runs h _),
      (exec_monEv s).trans (State.monCmd_runs h _), (exec_monTime s).trans (State.monCmd_runs h _),
      (exec_monHelp s).trans (State.monCmd_runs h _), (exec_monTokReq s).trans (State.monCmd_runs h _),
      (exec_monTokRel s).trans (State.monCmd_runs h _), (exec_monMbRead s).trans (State.monCmd_runs h _)⟩
  case reads =>
    intro s a n hrun halign hsome hmax
    refine ⟨fun hsize => ?_, fun hsize => ?_, fun hsize => ?_⟩
    · rw [exec_monRdB0, execMonRdB0, State.monCmd_runs hrun, State.monRead_within halign hsome hmax hsize, Nat.zero_add]
    · rw [exec_monRdB2, execMonRdB2, State.monCmd_runs hrun, State.monRead_within halign hsome hmax hsize]
    · rw [exec_monRdB0, execMonRdB0, State.monCmd_runs hrun, State.monRead_beyond hsize]
  case writes => exact fun _ _ _ hrun halign ha => ⟨execMonWr_unowned hrun halign ha, execMonWr_owned hrun halign ha⟩
  case mailbox => exact fun _ w hrun => ⟨execMonMbWrite_free w hrun, execMonMbWrite_full w hrun⟩
  case baud => exact fun _ _ hrun => ⟨execMonBaud_rate hrun, execMonBaud_bad hrun⟩
  case reset =>
    intro s k hrun
    refine ⟨execMonReset_unowned hrun, fun hown hkey hstop => ?_⟩
    subst hkey
    exact execMonReset_holder hrun hown hstop

end Machine
end Sys2Proof
end

section
/-!
Full reset (R625), and the completions and failures of an order's reads (R350, R351, R358).
-/

namespace Sys2Proof
namespace Machine

variable {s : State} {p : Path} {ring index : Nat} {o : Order}

theorem execFullReset_reached {key : BitVec 16} (hreach : s.reaches p R.GLOBAL_RESET = true) :
    execFullReset p key s = .next (s.resetWrite p key.toNat) := if_pos hreach

/-- R350: a completion to the reads of an order that waits for one brings its data. -/
theorem execCompletionReceived_data (off : Nat) (data : List Byte) (ho : s.order? (ring, index) = some o) (hreading : s.reading o = true) :
    execCompletionReceived ring index off data 0 s = .next (State.readProceeds
      (((takeRead o.ref data off s.reads).filter (fun r => r.order == o.ref)).foldl (fun s r => s.readDone 0 r.addr (gotPrefix 0 r.got))
        { s with reads := takeRead o.ref data off s.reads }) o) := by
  simp only [execCompletionReceived, ho]
  exact if_neg (by simp [hreading])

/-- R351: it was not completed in time. -/
theorem execCompletionReceived_timeout (off : Nat) (data : List Byte) (ho : s.order? (ring, index) = some o)
    (hreading : s.reading o = true) :
    execCompletionReceived ring index off data 1 s = .next ((s.logAer 0 aerTimeout).readFails o) := by
  simp only [execCompletionReceived, ho]
  exact if_neg (by simp [hreading])

/-- R350: it reports an error. -/
theorem execCompletionReceived_error (off : Nat) (data : List Byte) (ho : s.order? (ring, index) = some o)
    (hreading : s.reading o = true) : execCompletionReceived ring index off data 2 s = .next (s.readFails o) := by
  simp only [execCompletionReceived, ho]
  exact if_neg (by simp [hreading])

/-- R358: it is poisoned. -/
theorem execCompletionReceived_poisoned (off : Nat) (data : List Byte) (ho : s.order? (ring, index) = some o)
    (hreading : s.reading o = true) :
    execCompletionReceived ring index off data 3 s = .next ((s.logAer 0 aerPoisoned).readFails o) := by
  simp only [execCompletionReceived, ho]
  exact if_neg (by simp [hreading])

/-- R351, R358: a read of an order fails, if the order waits for one. -/
theorem State.ownReadFails_order {reason aer : Nat} (ho : s.order? (ring, index) = some o) (hreading : s.reading o = true) :
    s.ownReadFails (.order ring index) reason aer = (s.logAer 0 aer).readFails o := by
  simp [State.ownReadFails, ho, hreading]

end Machine
end Sys2Proof
end

section
namespace Sys2Proof
namespace Machine

/-- Settles O38: the writes pass their gate; the resets, completions and failures by the lemma for each. -/
theorem registerWritesAndResetsAct : Obligations.RegisterWritesAndResetsAct := by
  unfold Obligations.RegisterWritesAndResetsAct
  refine ⟨?write, fun _ _ h => h.gateAction_acts _, fun _ _ h => h.gateAction_acts _, fun _ h => h.gateAction_acts _,
    fun _ _ => ⟨rfl, rfl⟩, ?reset, fun _ _ h => execOrderAcceptance_next h, ?completion, ?fails, ?barWrite⟩
  case write =>
    intro s p k w hcarry halign hreset h
    rw [exec_registerWrite, execRegisterWrite_gate hcarry halign hreset, h.gate_acts]
  case reset =>
    intro s p hreach hholder hfw
    rw [exec_fullReset, exec_fullReset, execFullReset_reached hreach, execFullReset_reached hreach]
    exact ⟨congrArg _ (State.resetWrite_holder hholder hfw), congrArg _ (State.resetWrite_holder_noKey hholder hfw (by decide))⟩
  case completion =>
    exact fun _ _ _ off data _ ho hreading => ⟨execCompletionReceived_data off data ho hreading,
      execCompletionReceived_timeout off data ho hreading, execCompletionReceived_error off data ho hreading,
      execCompletionReceived_poisoned off data ho hreading⟩
  case fails =>
    exact fun _ _ _ _ ho hreading hon =>
      ⟨(if_neg (ne_true_of_eq_false hon)).trans (congrArg _ (State.ownReadFails_order ho hreading)),
        congrArg _ (State.ownReadFails_order ho hreading)⟩
  case barWrite => exact fun _ _ hlink => congrArg _ (if_pos hlink)

end Machine
end Sys2Proof
end

section
namespace Sys2Proof
namespace Machine

/-- Settles O35: the same commands as the last ones of O31. -/
theorem powerCommandsAct : Obligations.PowerCommandsAct := by
  unfold Obligations.PowerCommandsAct
  obtain ⟨-, -, -, -, -, -, -, -, -, -, -, -, hpower⟩ := clockCommandsAct
  exact hpower

end Machine
end Sys2Proof
end

section
/-!
Queries (R607, R609): a command whose meaning is one answer sends it and does nothing else.
-/

namespace Sys2Proof
namespace Machine

variable {s : State} {c : Instr}

/-- R607: a query of the monitor, with the numbers it prints. -/
theorem monQuery_frame {numbers : State → List Nat} (hc : exec c s = s.monCmd (fun s => s.monOk (numbers s))) :
    (s.monRuns = true → ∃ t x, exec c s = .next t ∧ t.sent = x :: s.sent ∧ { t with sent := s.sent } = s) ∧
    (s.monRuns = false → exec c s = .next s) :=
  ⟨fun h => ⟨_, _, hc.trans (State.monCmd_runs h _), rfl, rfl⟩, fun h => hc.trans (State.monCmd_stopped h _)⟩

/-- R609: the status read of S4. -/
theorem execSmbS4Status_frame (s : State) :
    (s.lkUp 0 = true → ∃ t x, execSmbS4Status s = .next t ∧ t.sent = x :: s.sent ∧ { t with sent := s.sent } = s) ∧
    (s.lkUp 0 = false → execSmbS4Status s = .next s) :=
  ⟨fun h => ⟨_, _, State.smbCmd_up h _, rfl, rfl⟩, fun h => State.smbCmd_down h _⟩

end Machine
end Sys2Proof
end

section
namespace Sys2Proof
namespace Machine

/-- Settles O55: each read changes the latches alone; each query of the monitor and of SMBus sends its answer. -/
theorem queriesChangeNothing : Obligations.QueriesChangeNothing := by
  unfold Obligations.QueriesChangeNothing
  refine ⟨?reads, ?monitor, ?status, fun s p ch w hpath => if_pos hpath, ?force⟩
  case reads =>
    intro s p n j x r sub c k hc
    simp only [List.mem_cons, List.not_mem_nil, or_false, Prod.mk.injEq] at hc
    rcases hc with ⟨rfl, rfl⟩ | ⟨rfl, rfl⟩ | ⟨rfl, rfl⟩ | ⟨rfl, rfl⟩ | ⟨rfl, rfl⟩ | ⟨rfl, rfl⟩ | ⟨rfl, rfl⟩ | ⟨rfl, rfl⟩ |
      ⟨rfl, rfl⟩ | ⟨rfl, rfl⟩ | ⟨rfl, rfl⟩
    · exact plainRow_convSyncT0.frame 0
    · exact State.readCmd_frame 0 (latches?_adcScnt n) (.inl (by revert n; decide))
    · exact State.readCmd_frame 0 latches?_queueTearbase (.inl (by decide))
    · exact (plainRow_nvmeSlotCap j).frame 0
    · exact (plainRow_nvmeRecChunk j).frame 0
    · exact (plainRow_nvmeRecTrec j).frame 0
    · exact (plainRow_sgT0 j).frame 0
    · exact (plainRow_sgPlayed j).frame 0
    · exact State.readCmd_frame sub latches?_timeNow (.inl (by decide))
    · exact (plainRow_ethTxt x).frame 0
    · exact (plainRow_ethRxt r).frame 0
  case monitor =>
    intro c s hc
    simp only [List.mem_cons, List.not_mem_nil, or_false] at hc
    rcases hc with rfl | rfl | rfl | rfl | rfl
    · exact monQuery_frame (exec_monId s)
    · exact monQuery_frame (exec_monLk s)
    · exact monQuery_frame (exec_monEv s)
    · exact monQuery_frame (exec_monTime s)
    · exact monQuery_frame (exec_monHelp s)
  case status => exact execSmbS4Status_frame
  case force => exact fun s key h hkey => (h.gateAction_acts _).trans (congrArg _ (if_neg hkey))

end Machine
end Sys2Proof
end

section
/-!
The choice of the next event record (R615, R617).
-/

namespace Sys2Proof
namespace Machine

/-- The entry that a test names first stands behind entries that fail it; the list without it keeps its order. -/
theorem takeFirst_eq_some {α : Type} {p : α → Bool} {l rest : List α} {e : α} (h : takeFirst p l = some (e, rest)) :
    p e = true ∧ ∃ a b, l = a ++ e :: b ∧ rest = a ++ b ∧ ∀ x ∈ a, p x = false := by
  induction l generalizing rest with
  | nil => cases h
  | cons y t ih =>
    rw [takeFirst] at h
    split at h
    case isTrue hy =>
      cases h
      exact ⟨hy, [], t, rfl, rfl, List.forall_mem_nil _⟩
    case isFalse hy =>
      obtain ⟨⟨e', rest'⟩, ht, heq⟩ := Option.map_eq_some_iff.mp h
      cases heq
      obtain ⟨he, a, b, rfl, rfl, ha⟩ := ih ht
      exact ⟨he, y :: a, b, rfl, rfl, List.forall_mem_cons.mpr ⟨eq_false_of_ne_true hy, ha⟩⟩

/-- R615: whether a source has a record outstanding in an event ring. -/
theorem State.outstanding_any_iff (s : State) (r src : Nat) :
    (s.outstanding r).any (fun o => o.1 == src) = true ↔ ∃ o ∈ s.outstanding r, o.1 = src := by
  simp only [List.any_eq_true, beq_iff_eq]

/-- R617: the next record's source has none outstanding, the sources of those before it each have one. -/
theorem State.nextRecord_first {s : State} {r : Nat} {e : EvRec} {rest : List EvRec} (h : s.nextRecord? r = some (e, rest)) :
    (∀ o ∈ s.outstanding r, o.1 ≠ e.source) ∧
    ∃ a b, s.waiting r = a ++ e :: b ∧ rest = a ++ b ∧ ∀ x ∈ a, ∃ o ∈ s.outstanding r, o.1 = x.source := by
  obtain ⟨hfree, a, b, hwait, hrest, hbusy⟩ := takeFirst_eq_some h
  refine ⟨fun o ho heq => ?_, a, b, hwait, hrest, fun x hx => ?_⟩
  · have hany := (s.outstanding_any_iff r e.source).mpr ⟨o, ho, heq⟩
    simp [hany] at hfree
  · exact (s.outstanding_any_iff r x.source).mp (by simpa using hbusy x hx)

/-- R402: an event ring without a slot holds its records. -/
theorem execEventRecordWrite_noSlot {s : State} {r : Fin 2} (h : (s.ring (112 + r.val)).taken = []) :
    execEventRecordWrite r s = .next s := by
  simp only [execEventRecordWrite, h]
  exact ite_self _

end Machine
end Sys2Proof
end

section
namespace Sys2Proof
namespace Machine

/-- Settles O59: the next record is the first whose source has none outstanding; a ring without a slot writes none. -/
theorem oneRecordOutstandingPerSource : Obligations.OneRecordOutstandingPerSource := by
  unfold Obligations.OneRecordOutstandingPerSource
  exact ⟨fun _ _ _ _ h => State.nextRecord_first h, fun _ _ h => execEventRecordWrite_noSlot h⟩

end Machine
end Sys2Proof
end

section
/-!
The orders of calender units and drives: the effect of each once it is accepted.
-/

namespace Sys2Proof
namespace Machine

variable {s : State} {o : Order}

/-- R283, R284: a load of the program part needs a unit that is STOPPED or halted. -/
theorem State.cuLoadAccept_program (hc : firstInvalid (cuLoadChecks o) = none) (hprog : bit (o.u 17 1) 0 = true)
    (hstate : s.cuState (o.u 16 1) = 2 ∨ s.cuState (o.u 16 1) = 6) :
    State.cuLoadAccept o s =
      (s.updOrder o.ref (fun o => { o with phase := .running })).startRead o (o.u 40 8) (8 * o.u 24 4) := by
  refine (State.validate_valid hc).trans ?_
  dsimp only
  rw [if_neg (by omega), if_pos hprog]

/-- R285: a CU_RUN that acts in time on a unit that is STOPPED or halted. -/
theorem State.cuRunNow_stopped (t : Nat) (hstate : s.cuState (o.u 16 1) = 2 ∨ s.cuState (o.u 16 1) = 6) :
    s.cuRunNow o false t = ((s.put (R.CU_ENTRY.ENTRY (o.u 16 1)) (o.u 32 4)).cuRunAt (o.u 16 1) t).retireWith o stOk 0
      [(20, time96Bytes t)] :=
  if_pos hstate

/-- R285: an untimed, ungated CU_RUN. -/
theorem State.cuRunAccept_untimed (hc : firstInvalid (cuRunChecks o) = none) (hmode : o.u 17 1 = 0)
    (hstate : s.cuState (o.u 16 1) = 2 ∨ s.cuState (o.u 16 1) = 6) :
    State.cuRunAccept o s = ((s.put (R.CU_ENTRY.ENTRY (o.u 16 1)) (o.u 32 4)).cuRunAt (o.u 16 1) s.time).retireWith o stOk 0
      [(20, time96Bytes s.time)] := by
  refine (State.validate_valid hc).trans ?_
  simp only [hmode]
  exact State.cuRunNow_stopped s.time hstate

/-- R285: an untimed CU_STOP acts at once. -/
theorem State.cuStopAccept_untimed (hc : firstInvalid (cuStopChecks o) = none) (hmode : o.u 17 1 = 0) :
    State.cuStopAccept o s = s.cuStopNow o false :=
  (State.validate_valid hc).trans (if_pos hmode)

/-- R450, R451: a copy of LBAs that lie within a ready slot. -/
theorem State.nvmeReadAccept_raw (hc : firstInvalid (s.nvReadChecks o) = none) (hraw : o.u 16 1 = 0)
    (hready : s.slotReady (o.u 17 1) = true) (hcap : o.u 20 8 + o.u 28 4 ≤ s.slotCap (o.u 17 1)) :
    State.nvmeReadAccept o s = State.readStep { s.updOrder o.ref (fun o => { o with phase := .running }) with
      nvme := { s.nvme with reads := s.nvme.reads ++ [{ order := o.ref, scans := [] }] } } o { order := o.ref, scans := [] } := by
  refine (State.validate_valid hc).trans ?_
  simp only [hraw, beq_self_eq_true, if_true, List.all_cons, List.all_nil, hready, Bool.and_true, Bool.not_true,
    Bool.false_eq_true, if_false, Bool.true_and, decide_eq_true_eq, if_neg (Nat.not_lt.mpr hcap)]
  rfl

/-- R450, R452: a deallocation of LBAs that lie within a ready slot that is no member of a recording. -/
theorem State.nvmeTrimAccept_ready {t : State} (hc : firstInvalid (nvmeTrimChecks o) = none)
    (hready : s.slotReady (o.u 16 1) = true) (hmember : s.memberOf (o.u 16 1) = false)
    (hcap : o.u 20 8 + o.u 32 8 ≤ s.slotCap (o.u 16 1))
    (ht : t = (s.updOrder o.ref (fun o => { o with phase := .running })).nvSend (o.u 16 1) 0x09 (o.u 20 8) (o.u 32 8) []) :
    State.nvmeTrimAccept o s =
      { t with nvme := { t.nvme with trims := t.nvme.trims ++ [(o.ref, t.slotDrive (o.u 16 1), t.adv)] } } := by
  refine (State.validate_valid hc).trans ?_
  dsimp only
  rw [if_neg (by simp [hready, hmember]), if_neg (Nat.not_lt.mpr hcap), ht]

end Machine
end Sys2Proof
end

section
namespace Sys2Proof
namespace Machine

/-- Settles O3: each order is taken from its ring and then has the effect that its acceptance lemma gives. -/
theorem unitAndDriveOrdersAct : Obligations.UnitAndDriveOrdersAct := by
  unfold Obligations.UnitAndDriveOrdersAct
  refine ⟨?load, ?run, ?stop, ?read, ?trim⟩
  case load => exact fun _ _ h hc hp hs => accept_answers h (State.cuLoadAccept_program hc hp hs)
  case run => exact fun _ _ h hc hm hs => accept_answers h (State.cuRunAccept_untimed hc hm hs)
  case stop => exact fun _ _ h hc hm => accept_answers h (State.cuStopAccept_untimed hc hm)
  case read => exact fun _ _ h hc hr hs hl => accept_answers h (State.nvmeReadAccept_raw hc hr hs hl)
  case trim => exact fun _ _ h hc hr hm hl => accept_answers h (State.nvmeTrimAccept_ready hc hr hm hl rfl)

end Machine
end Sys2Proof
end

section
/-!
The orders of the generators and probes: the effect of each once it is accepted.
-/

namespace Sys2Proof
namespace Machine

variable {s : State} {o : Order}

/-- R459, R477: a generator that is not busy reads the segments and steps of its sequence. -/
theorem State.seqLoadAccept_free (hc : firstInvalid (seqLoadChecks o) = none) (hfree : s.sgBusy (o.u 16 1) = false) :
    State.seqLoadAccept o s = (s.startRead o (o.u 40 8) (16 * o.u 24 2)).startRead o (o.u 48 8) (16 * o.u 20 4) :=
  (State.validate_valid hc).trans (if_neg (ne_true_of_eq_false hfree))

/-- A generator's record holds nothing of its registers. -/
theorem State.sgState_updSg (s : State) (n g : Nat) (f : Sg → Sg) : (s.updSg n f).sgState g = s.sgState g := rfl

/-- R468: fixing the start boundary leaves the generator's state as it is. -/
theorem State.sgState_sgSchedule (s : State) (n t floor g : Nat) : (s.sgSchedule n t floor).sgState g = s.sgState g := rfl

/-- SG_STATUS.STATE reads back as written. -/
theorem State.sgState_put (s : State) (g v : Nat) (hv : v < 8) : (s.put (R.SG_STATUS.STATE g) v).sgState g = v :=
  State.get_put_fits s (R.SG_STATUS.STATE g) v (by simp) hv

/-- A write to another register leaves the generator's state as it is. -/
theorem State.sgState_setWord (s : State) (g k : Nat) (w : Word) (h : R.SG_STATUS g ≠ k) :
    (s.setWord k w).sgState g = s.sgState g :=
  State.get_setWord_other s (R.SG_STATUS.STATE g) k w h

/-- R468, R469: a SEQ_START without LOOP that is not refused leaves its generator ARMED, whatever its start mode. -/
theorem State.seqStartAccept_arms (hc : firstInvalid (seqStartChecks o) = none) (hok : s.startRefused (o.u 16 1) = false)
    (hloop : o.u 19 1 = 0) : (State.seqStartAccept o s).sgState (o.u 16 1) = 2 := by
  have hnoloop : bit (o.u 19 1) 0 = false := by rw [hloop]; decide
  have harmed : ((((s.put (R.SG_STATUS.STATE (o.u 16 1)) 2).setWord (R.SG_UNDER (o.u 16 1)) 0#32).setWord
      (R.SG_PLAYED_LO (o.u 16 1)) 0#32).setWord (R.SG_PLAYED_HI (o.u 16 1)) 0#32).sgState (o.u 16 1) = 2 := by
    rw [State.sgState_setWord _ _ _ _ (by simp), State.sgState_setWord _ _ _ _ (by simp), State.sgState_setWord _ _ _ _ (by simp),
      State.sgState_put _ _ _ (by decide)]
  rw [State.seqStartAccept, State.validate_valid hc]
  simp only [hok, hnoloop, Bool.false_eq_true, false_and, if_false]
  split
  · rwa [State.sgState_updSg, State.sgState_sgSchedule, State.sgState_updSg]
  · rwa [State.sgState_sgSchedule, State.sgState_updSg]
  · split
    · rwa [State.sgState_sgSchedule, State.sgState_updSg]
    · rwa [State.sgState_updSg]
  · rwa [State.sgState_updSg]

/-- R470: SEQ_STOP at once halts a generator that is ARMED or runs. -/
theorem State.seqStopAccept_atOnce (hc : firstInvalid (seqStopChecks o) = none) (hruns : 2 ≤ s.sgState (o.u 16 1))
    (hwhen : o.u 17 1 = 0) :
    State.seqStopAccept o s = (s.updSg (o.u 16 1) (fun x => { x with stops := x.stops ++ [(o.ref, 0)] })).sgHalt (o.u 16 1) 2 := by
  refine (State.validate_valid hc).trans ?_
  dsimp only
  rw [if_neg (Nat.not_lt.mpr hruns), if_pos (.inl hwhen), hwhen]

/-- R474, R477: SKEW_CAL with every DAC it names ready. -/
theorem State.skewCalAccept_ready (hc : firstInvalid (skewCalChecks o) = none)
    (hready : ∀ g, g < 4 → (bit (o.u 16 1) g = true ∨ o.u 17 1 = g) → s.skewReady g = true) :
    State.skewCalAccept o s = s.startSkew := by
  refine (State.validate_valid hc).trans (if_pos ?_)
  rw [List.all_eq_true]
  intro g hg
  by_cases hnamed : bit (o.u 16 1) g = true ∨ o.u 17 1 = g
  · simp [hready g (List.mem_range.mp hg) hnamed]
  · obtain ⟨hbit, hcal⟩ := not_or.mp hnamed
    simp [hbit, hcal]

/-- R488, R498: a catalogue load that touches no net of a live set. -/
theorem State.probeCatLoadAccept_idle (hc : firstInvalid (probeCatLoadChecks o) = none)
    (hidle : s.netsLive (o.u 16 4) (o.u 20 4) = false) :
    State.probeCatLoadAccept o s =
      (s.updOrder o.ref (fun o => { o with phase := .running })).startRead o (o.u 24 8) (8 * o.u 20 4) := by
  rw [State.probeCatLoadAccept, State.validate_valid hc]
  exact if_neg (ne_true_of_eq_false hidle)

/-- R489, R498: a subscription to one net or more reads its net list. -/
theorem State.probeSubAccept_nets (hc : firstInvalid (s.probeSubChecks o) = none) (hn : o.u 20 4 ≠ 0) :
    State.probeSubAccept o s = s.startRead o (o.u 24 8) (4 * o.u 20 4) := by
  rw [State.probeSubAccept, State.validate_valid hc]
  exact if_neg hn

end Machine
end Sys2Proof
end

section
namespace Sys2Proof
namespace Machine

/-- Settles O4: each order is taken from its ring and then has the effect that its acceptance lemma gives. -/
theorem generatorAndProbeOrdersAct : Obligations.GeneratorAndProbeOrdersAct := by
  unfold Obligations.GeneratorAndProbeOrdersAct
  refine ⟨?load, ?start, ?stop, ?skew, ?catalogue, ?subscribe⟩
  case load => exact fun _ _ h hc hf => accept_answers h (State.seqLoadAccept_free hc hf)
  case start => exact fun _ _ h hc hr hl => ⟨_, accept_answers h rfl, State.seqStartAccept_arms hc hr hl⟩
  case stop => exact fun _ _ h hc hs hw => accept_answers h (State.seqStopAccept_atOnce hc hs hw)
  case skew => exact fun _ _ h hc hr => accept_answers h (State.skewCalAccept_ready hc hr)
  case catalogue => exact fun _ _ h hc hi => accept_answers h (State.probeCatLoadAccept_idle hc hi)
  case subscribe => exact fun _ _ h hc hn => accept_answers h (State.probeSubAccept_nets hc hn)

end Machine
end Sys2Proof
end

section
/-!
The orders of time, power, clocks and display: the effect of each once it is accepted.
-/

namespace Sys2Proof
namespace Machine

variable {s : State} {o : Order}

/-- R523, R524: a step by STEP within JUMP_MAX, on a device that follows no other, to a time that the format holds. -/
theorem State.timeStepAccept_byStep (hc : firstInvalid (timeStepChecks o) = none) (hmode : o.u 16 1 = 0) (hroot : s.follows = false)
    (hlow : 0 ≤ (s.stepTime : Int) + s.stepOf o) (hhigh : (s.stepTime : Int) + s.stepOf o < timeLimit)
    (hjump : (s.stepOf o).natAbs ≤ nsUnits (s.get R.TIME_JUMP.JUMP_MAX)) :
    State.timeStepAccept o s = { s with tk := { s.tk with steps := s.tk.steps ++ [(o.ref, s.stepOf o, s.ticks + 50)] } } := by
  refine (State.validate_valid hc).trans ?_
  dsimp only
  rw [if_neg (by simp [hroot]), if_neg (by omega), if_neg (by simp [hmode, hjump]), State.stepTick]

/-- R572, R581: a POWER_MODE without a TIME becomes its request at once. -/
theorem State.powerModeAccept_untimed (hc : firstInvalid (powerModeChecks o) = none) (hmode : o.u 17 1 = 0) :
    State.powerModeAccept o s = (s.updOrder o.ref (fun o => { o with phase := .running, late := false })).requestMode
      (2 - o.u 16 1) (some o.ref) false :=
  (State.validate_valid hc).trans (if_pos hmode)

/-- R581: while no accepted POWER_MODE has reached its TIME, the command takes the next order. -/
theorem execPowerMode_noneDue (h : s.orders.find? (fun o => o.opcode == 0x0E01 && o.phase == .pending &&
    decide (ofTime96 (o.u 20 12) ≤ s.time)) = none) : execPowerMode s = .next (s.accept 0x0E01 State.powerModeAccept) := by
  rw [execPowerMode, h]

/-- R561, R582: an FS_SET that is not refused goes on to its change. -/
theorem State.fsSetAccept_free (hc : firstInvalid (fsSetChecks o) = none) (hok : s.fsRefused (o.u 16 1) = false) :
    State.fsSetAccept o s = s.startFsDue :=
  (State.validate_valid hc).trans (if_neg (ne_true_of_eq_false hok))

/-- R645, R646: the DISP_EDID of a head with a sink waits for its AUX transactions. -/
theorem State.dispEdidAccept_connected (hc : firstInvalid (dispEdidChecks o) = none) (hsink : 2 ≤ s.headState (o.u 16 1)) :
    State.dispEdidAccept o s = s :=
  (State.validate_valid hc).trans (if_neg (by omega))

/-- R645, R646: a valid DISP_PALETTE reads its table. -/
theorem State.dispPaletteAccept_valid (hc : firstInvalid (dispPaletteChecks o) = none) :
    State.dispPaletteAccept o s = s.startRead o (o.u 24 8) 1024 :=
  State.validate_valid hc

end Machine
end Sys2Proof
end

section
namespace Sys2Proof
namespace Machine

/-- Settles O5: each order is taken from its ring and then has the effect that its acceptance lemma gives. -/
theorem timePowerAndDisplayOrdersAct : Obligations.TimePowerAndDisplayOrdersAct := by
  unfold Obligations.TimePowerAndDisplayOrdersAct
  refine ⟨?step, ?mode, ?fs, ?edid, ?palette⟩
  case step => exact fun _ _ h hc hm hr hl hh hj => accept_answers h (State.timeStepAccept_byStep hc hm hr hl hh hj)
  case mode =>
    exact fun _ _ h hc hm hnone =>
      (execPowerMode_noneDue hnone).trans (accept_answers h (State.powerModeAccept_untimed hc hm))
  case fs => exact fun _ _ h hc hr => accept_answers h (State.fsSetAccept_free hc hr)
  case edid => exact fun _ _ h hc hs => accept_answers h (State.dispEdidAccept_connected hc hs)
  case palette => exact fun _ _ h hc => accept_answers h (State.dispPaletteAccept_valid hc)

end Machine
end Sys2Proof
end

section
/-!
The lookout: its polls, its parking and the final poll (R376–R379).
-/

namespace Sys2Proof
namespace Machine

variable {s : State} {tails : List (Nat × Word)}

/-- R376–R378: a poll that is due. -/
theorem execLookoutPoll_due {ok : Bool} (hrun : s.lookoutRuns = true)
    (hdue : s.lookout.pollNow = true ∨ s.lookout.lastPoll + s.lookoutPeriod ≤ s.ns) :
    execLookoutPoll tails ok s = .next (if ok then (s.pollReads.pollResult tails).2 else s.pollReads.tallyError) :=
  if_pos (by simpa [hrun] using hdue)

/-- R376: the reads of a poll change nothing but what has been sent and what is held. -/
theorem State.pollReads_eq (s : State) : ∃ out held, s.pollReads = { s with sent := out, held := held } := by
  unfold State.pollReads
  dsimp only
  generalize s.get R.RING_TALLY_LO.ADDR_LO * 4096 + s.get R.RING_TALLY_HI.ADDR_HI * 2 ^ 32 = base
  induction List.range 15 generalizing s with
  | nil => exact ⟨s.sent, s.held, rfl⟩
  | cons l ls ih =>
    rw [List.foldl_cons]
    split
    · exact ih (s.send (.hostRead 0 (base + 64 * l) 64))
    · exact ih s

@[simp] theorem State.pollReads_get (s : State) (f : Field) : s.pollReads.get f = s.get f := by
  obtain ⟨out, held, h⟩ := s.pollReads_eq
  rw [h]
  rfl

@[simp] theorem State.pollReads_lookout (s : State) : s.pollReads.lookout = s.lookout := by
  obtain ⟨out, held, h⟩ := s.pollReads_eq
  rw [h]

/-- R379: the lookout parked with its final poll issued. -/
def State.parkedNow (s : State) : State :=
  ((State.put { s with lookout := { s.lookout with parkSeq := (s.lookout.parkSeq + 1) % 65536, finalPoll := true } }
    R.RING_STATUS.PARKED 1).writeStatusWord true).pollReads

/-- R379: PARK_AFTER has passed without a new entry. -/
theorem execPark_due (hrun : s.lookoutRuns = true) (hen : s.on R.RING_CTL.PARK_EN = true)
    (hdue : s.lookout.lastFound + 1000 * max 1 (s.get R.RING_PARK.PARK_AFTER) ≤ s.ns) :
    execPark s = .next s.parkedNow :=
  if_pos (by simpa [hrun, hen] using hdue)

/-- R379: what the registers and the lookout show then. -/
theorem State.parkedNow_shows (s : State) :
    s.parkedNow.on R.RING_STATUS.PARKED = true ∧ s.parkedNow.lookout.finalPoll = true ∧
      s.parkedNow.lookout.parkSeq = (s.lookout.parkSeq + 1) % 65536 := by
  have hparked : s.parkedNow.get R.RING_STATUS.PARKED = 1 :=
    (State.pollReads_get _ _).trans (State.get_put_fits _ R.RING_STATUS.PARKED 1 (by decide) (by decide))
  exact ⟨beq_iff_eq.mpr hparked, congrArg Lookout.finalPoll (State.pollReads_lookout _),
    congrArg Lookout.parkSeq (State.pollReads_lookout _)⟩

/-- R378: a final poll that fails. -/
theorem execFinalPollResult_failed (h : s.lookout.finalPoll = true) :
    execFinalPollResult tails false s = .next s.tallyError.unpark := by
  simp [execFinalPollResult, h]

/-- R379: a final poll that finds no new entry. -/
theorem execFinalPollResult_noEntry (h : s.lookout.finalPoll = true) (hnone : (s.pollResult tails).1 = false) :
    execFinalPollResult tails true s =
      .next (State.irq { (s.pollResult tails).2 with lookout := { (s.pollResult tails).2.lookout with finalPoll := false } } 117) := by
  simp [execFinalPollResult, h, hnone]

end Machine
end Sys2Proof
end

section
/-!
Descriptor rings: fetches, deliveries into stream buffers, the closing of buffers, EN and ER1's TAIL (R373, R395–R403, R412).
-/

namespace Sys2Proof
namespace Machine

variable {s : State}

/-- R373, R403: a fetch of an enabled ring hands its entries over; only ER1 goes on with what is left of its TAIL. -/
theorem execEntryFetched_enabled {x : Fin 114} {es : List FetchResult} {i k : Nat} {t : Bool × State}
    (hfetch : (s.ring x).fetch = some (i, k)) (hen : (s.endFetch x i k).on (ringEN x) = true)
    (ht : t = (s.endFetch x i k).takeEntries x (s.ring x).fetchPoll (es.take k)) :
    execEntryFetched x es s =
      if x.val = 113 ∧ t.1 = true ∧ ringDist (t.2.ring x).tail (t.2.ringHead x) ≠ 0 then
        .next (t.2.startFetch 113 (ringDist (t.2.ring x).tail (t.2.ringHead x)) 0)
      else .next t.2 := by
  subst ht
  simp only [execEntryFetched, hfetch, hen, Bool.not_true, Bool.false_eq_true, if_false]

section
variable {x : Fin 64} (hen : s.on (R.RING_CFG.EN (x.val + 16)) = true) (hup : s.upstream (x.val + 16) = true)
  (hturn : s.ringTurn (x.val + 16) = true)
include hen hup hturn

/-- R395, R425: with nothing standing behind a written barge, the front barge of the ring's queue. -/
theorem execBargeDelivery_front {b : QBarge} (hafter : (s.ring (x.val + 16)).after = [])
    (hfront : s.frontBarge? (s.get (R.RING_SRC.QUEUE (x.val + 16))) = some b) :
    execBargeDelivery x [] s =
      if (s.deliver (x.val + 16) b.barge).1 = true then
        .next (((s.deliver (x.val + 16) b.barge).2.tookRingTurn (x.val + 16)).freeCells b.cells)
      else .next (s.deliver (x.val + 16) b.barge).2 := by
  simp [execBargeDelivery, hen, hup, hturn, hafter, hfront]

/-- R419: what stands behind a written barge goes before the queue's front. -/
theorem execBargeDelivery_after {m : Barge} {t : List Barge} (bad : List (Nat × Nat)) (hafter : (s.ring (x.val + 16)).after = m :: t) :
    execBargeDelivery x bad s =
      .next (if (s.deliver (x.val + 16) m).1 = true then
        ((s.deliver (x.val + 16) m).2.tookRingTurn (x.val + 16)).updRing (x.val + 16) (fun r => { r with after := t })
      else (s.deliver (x.val + 16) m).2) := by
  simp [execBargeDelivery, hen, hup, hturn, hafter]

end

/-- R396: FLUSH_US after the first barge of an open buffer. -/
theorem execBufferCloseTimer_due {x : Fin 64} {o : OpenBuf} (hbuf : (s.ring (x.val + 16)).buf = some o) (hflush : o.flushUs ≠ 0)
    (hused : o.barges ≠ 0) (hdue : o.firstAt + 1000 * o.flushUs ≤ s.ns) :
    execBufferCloseTimer x s = .next (s.closeBuffer (x.val + 16) 1) := by
  simp only [execBufferCloseTimer, hbuf]
  exact if_pos ⟨hflush, hused, hdue⟩

/-- R396: a FLUSH of an open buffer that holds barges. -/
theorem State.flushRing_used {x : Nat} {o : OpenBuf} (hbuf : (s.ring x).buf = some o) (hused : o.barges ≠ 0) :
    s.flushRing x = s.closeBuffer x 3 := by
  simp only [State.flushRing, hbuf]
  exact if_neg hused

/-- R368, R393: EN set on a ring that is disabled, not BUSY and no stream ring, with a LOG2SIZE of Table 12-12. -/
theorem State.writeRingCfg_starts {x k : Nat} (hoff : s.on (ringEN x) = false) (hidle : s.on (ringBUSY x) = false) (hlow : 4 ≤ k)
    (hhigh : k ≤ 16) (hkind : isStreamRing x = false) : s.writeRingCfg x true k = (s.put (ringLOG2 x) k).startRing x := by
  have hsize : ¬(k < 4 ∨ 16 < k) := by omega
  simp [State.writeRingCfg, hoff, hidle, hsize, hkind]

/-- R412: EN cleared on an enabled ring, LOG2SIZE written as it is. -/
theorem State.writeRingCfg_stops {x k : Nat} (hon : s.on (ringEN x) = true) (hsize : s.get (ringLOG2 x) = k) :
    s.writeRingCfg x false k = (s.put (ringEN x) 0).stopRing x := by
  simp [State.writeRingCfg, hon, hsize]

/-- A write of ER1's TAIL leaves its EN as it is. -/
theorem State.er1On_putTail (s : State) (tail : Nat) : (s.put R.ER1_TAIL.TAIL tail).on R.ER1_CFG.EN = s.on R.ER1_CFG.EN := by
  rw [State.on, State.get_put_ne _ _ _ _ (by decide), State.on]

end Machine
end Sys2Proof
end

section
namespace Sys2Proof
namespace Machine

/-- Settles O7: each command's condition holds, so it has the effect that its lemma gives. -/
theorem ringCommandsAct : Obligations.RingCommandsAct := by
  unfold Obligations.RingCommandsAct
  refine ⟨?poll, ?fetched, ?park, ?final, ?front, ?after, ?timer, ?flush, ?enable, ?tail⟩
  case poll => exact fun _ _ hrun hdue => ⟨execLookoutPoll_due hrun hdue, execLookoutPoll_due hrun hdue⟩
  case fetched =>
    intro s x es i k t hfetch hen ht
    refine ⟨fun hx => ?_, fun hx hall hleft => ?_, fun hx hpart => ?_⟩
    · exact (execEntryFetched_enabled hfetch hen ht).trans (if_neg fun h => hx (Fin.ext h.1))
    · subst hx
      exact (execEntryFetched_enabled hfetch hen ht).trans (if_pos ⟨rfl, hall, hleft⟩)
    · exact (execEntryFetched_enabled hfetch hen ht).trans (if_neg fun h => ne_true_of_eq_false hpart h.2.1)
  case park => exact fun s hrun hen hdue => ⟨s.parkedNow, execPark_due hrun hen hdue, s.parkedNow_shows⟩
  case final => exact fun _ _ h => ⟨execFinalPollResult_failed h, execFinalPollResult_noEntry h⟩
  case front =>
    exact fun _ _ _ hen hup hturn hafter hfront =>
      ⟨fun hw => (execBargeDelivery_front hen hup hturn hafter hfront).trans (if_pos hw),
        fun hw => (execBargeDelivery_front hen hup hturn hafter hfront).trans (if_neg (ne_true_of_eq_false hw))⟩
  case after =>
    exact fun _ _ _ _ bad hen hup hturn hafter =>
      ⟨fun hw => (execBargeDelivery_after hen hup hturn bad hafter).trans (congrArg _ (if_pos hw)),
        fun hw => (execBargeDelivery_after hen hup hturn bad hafter).trans (congrArg _ (if_neg (ne_true_of_eq_false hw)))⟩
  case timer => exact fun _ _ _ hbuf hflush hused hdue => execBufferCloseTimer_due hbuf hflush hused hdue
  case flush => exact fun _ _ _ _ h hbuf hused => (h.gateAction_acts _).trans (congrArg _ (State.flushRing_used hbuf hused))
  case enable =>
    exact fun _ _ _ _ h =>
      ⟨fun hoff hidle hlow hhigh hkind =>
          (h.gate_acts _ _).trans (congrArg _ (State.writeRingCfg_starts hoff hidle hlow hhigh hkind)),
        fun hon hsize => (h.gate_acts _ _).trans (congrArg _ (State.writeRingCfg_stops hon hsize))⟩
  case tail =>
    exact fun s tail h =>
      ⟨fun hon => (h.gate_acts _ _).trans (congrArg _ (if_pos ((s.er1On_putTail _).trans hon))),
        fun hoff => (h.gate_acts _ _).trans (congrArg _ (if_neg (ne_true_of_eq_false ((s.er1On_putTail _).trans hoff))))⟩

end Machine
end Sys2Proof
end

section
/-!
The move engine: the beginning of a move, a paced burst and the end of a paced move (R405–R409).
-/

namespace Sys2Proof
namespace Machine

variable {s : State}

section
variable {c : Fin 32} {e : RingEntry} {t : List RingEntry} (hidle : (s.ring (80 + c.val)).move = none)
  (hen : s.on (ringEN (80 + c.val)) = true) (hup : s.upstream (80 + c.val) = true)
  (htaken : (s.ring (80 + c.val)).taken = e :: t)
include hidle hen hup htaken

/-- R406: an idle channel returns an entry that is refused. -/
theorem execMoveStart_bad {u : State} (hu : u = s.updRing (80 + c.val) (fun g => { g with taken := t }))
    (hbad : u.moveBad e = true) : execMoveStart c [] s = .next (u.returnMove (80 + c.val) e stBadParam 0 0) := by
  subst hu
  simp [execMoveStart, hidle, hen, hup, htaken, hbad]

/-- R405, R407: an idle channel begins its next entry; an unpaced move from the host asks for its bytes. -/
theorem execMoveStart_begins {u : State} (hu : u = s.updRing (80 + c.val) (fun g => { g with taken := t }))
    (hok : u.moveBad e = false) (hspace : e.space = 2 ∨ u.poundStalled e.devIndex = false) :
    execMoveStart c [] s =
      if e.toHost = true then .next (u.updRing (80 + c.val) (fun g => { g with move := some { entry := e } }))
      else .next (if e.paced = true then u.updRing (80 + c.val) (fun g => { g with move := some { entry := e } })
        else (u.updRing (80 + c.val) (fun g => { g with move := some { entry := e } })).moveRead e 0 e.len) := by
  subst hu
  have hstall : ¬(e.space ≠ 2 ∧ (s.updRing (80 + c.val) (fun g => { g with taken := t })).poundStalled e.devIndex = true) :=
    fun h => hspace.elim h.1 (fun hs => ne_true_of_eq_false hs h.2)
  simp only [execMoveStart, hidle, hen, hup, htaken, hok, if_neg hstall, List.foldl_nil, ite_self, Option.isSome_none,
    Bool.not_true, Bool.or_self, Bool.false_eq_true, if_false]

end

/-- R408: a counted request of a line that no generator drives, on a channel whose turn it is. -/
theorem execPacedRequest_counted {l : Fin 64} {data : List Byte} {x : Nat} {m : MoveRun} (hline : 8 ≤ l.val)
    (hchannel : s.pacedChannel l = some (x, m)) (hcount : 0 < (SMap.find? s.lineReqs l.val).getD 0) (hup : s.upstream x = true)
    (htarget : s.moveTarget m.entry = true) (hturn : s.moveTurn (x - 80) m = true) :
    execPacedRequest l data s =
      .next (State.moveExtent { s with lineReqs := SMap.put s.lineReqs l.val ((SMap.find? s.lineReqs l.val).getD 0 - 1) } x m data
        (min m.entry.burst (m.entry.len - m.done))) := by
  have hline' : ¬(l.val < 8 ∧ 0 < (s.sg l.val).asserted) := fun h => by omega
  simp only [execPacedRequest, if_neg hline', hchannel]
  exact if_neg (by simp [hup, htarget, hturn, Nat.pos_iff_ne_zero.mp hcount])

section
variable {c : Fin 32} {data : List Byte} {n : Nat} {m : MoveRun} (hmove : (s.ring (80 + c.val)).move = some m)
include hmove

/-- R405: a move whose target has gone. -/
theorem execMoveDone_noTarget (reason : Fin 5) (hgone : s.moveTarget m.entry = false) :
    execMoveDone c data n reason s = .next (s.endMove (80 + c.val) m stBad 4) := by
  simp [execMoveDone, hmove, hgone]

/-- R409: a bus error ends a paced move. -/
theorem execMoveDone_busError (hpaced : m.entry.paced = true) (htarget : s.moveTarget m.entry = true) :
    execMoveDone c data n 1 s = .next (s.endMove (80 + c.val) m stBad 1) := by
  simp [execMoveDone, hmove, hpaced, htarget]

/-- R405: a paced move to the host with every byte moved and no poisoned line among them. -/
theorem execMoveDone_whole (hpaced : m.entry.paced = true) (htarget : s.moveTarget m.entry = true) (hwhole : m.entry.len ≤ m.done)
    (hkept : m.cancelling = false) (hto : m.entry.toHost = true) (hclean : m.bad = []) :
    execMoveDone c data n 0 s = .next (s.endMove (80 + c.val) m stOk 0) := by
  simp [execMoveDone, hmove, hpaced, htarget, hwhole, hkept, hto, hclean]

end

end Machine
end Sys2Proof
end

section
/-!
Stimulus generators: an idle granule and the end of a skew calibration (R461, R474, R477).
-/

namespace Sys2Proof
namespace Machine

variable {s : State}

/-- R461: the next granule of a WAITING generator that acts on no firing is one of its idle output. -/
theorem execGranuleCommit_idle {g : Fin 8} (hwaits : s.sgState g = 4)
    (htime : s.sgBall g (s.sg g).nextCount ≤ s.time + commitLead + nsUnits 40) (hnone : s.waitsFor g = none) :
    execGranuleCommit g false [] s = .next (s.commitIdle g false) := by
  have hdue : ¬(s.time + commitLead + nsUnits 40 < s.sgBall g (s.sg g).nextCount) := Nat.not_lt.mpr htime
  cases hpounds : (s.sg g).pounds <;> simp [execGranuleCommit, hwaits, hdue, hnone, hpounds]

/-- R477: 2 ms for each DAC after the first SKEW_CAL took the calibration channel, its measurements end it. -/
theorem execSkewCalDone_measured {trims : List (Fin 512 × Fin 64 × Int)} {inRange : Bool} {o : Order} {t : List Order}
    (horders : s.skewOrders = o :: t) (hphase : o.phase ≠ .pending)
    (hdue : o.aux + 2000000 * ((List.range 4).filter (fun g => bit (o.u 16 1) g)).length ≤ s.ns) :
    execSkewCalDone trims inRange s =
      if (!inRange) = true then .next (s.retire o 0x28).startSkew
      else .next (State.startSkew ((((List.range 4).filter (fun g => bit (o.u 16 1) g)).foldl (fun s g =>
          (s.put (R.SG_SKEW.FINE g) (trims.getD g (0, 0, 0)).1.val).put (R.SG_SKEW.COARSE g) (trims.getD g (0, 0, 0)).2.1.val) s).retireWith
        o stOk 0 [(20, (List.range 4).flatMap (fun g => leBytes 2 (wrap 16 (trims.getD g (0, 0, 0)).2.2)))])) := by
  simp only [execSkewCalDone, horders]
  exact if_neg (not_or.mpr ⟨hphase, Nat.not_lt.mpr hdue⟩)

end Machine
end Sys2Proof
end

section
namespace Sys2Proof
namespace Machine

/-- Settles O18: each command's condition holds, so it has the effect that its lemma gives. -/
theorem moveAndStimulusCommandsAct : Obligations.MoveAndStimulusCommandsAct := by
  unfold Obligations.MoveAndStimulusCommandsAct
  refine ⟨?start, ?paced, ?done, ?granule, ?control, ?enable, ?skew⟩
  case start =>
    intro s c e t hidle hen hup htaken
    refine ⟨_, rfl, fun hbad => execMoveStart_bad hidle hen hup htaken rfl hbad, fun hok hspace hto => ?_,
      fun hok hspace hfrom hpaced => ?_, fun hok hspace hfrom hpaced => ?_⟩
    · exact (execMoveStart_begins hidle hen hup htaken rfl hok hspace).trans (if_pos hto)
    · exact (execMoveStart_begins hidle hen hup htaken rfl hok hspace).trans
        ((if_neg (ne_true_of_eq_false hfrom)).trans (congrArg _ (if_neg (ne_true_of_eq_false hpaced))))
    · exact (execMoveStart_begins hidle hen hup htaken rfl hok hspace).trans
        ((if_neg (ne_true_of_eq_false hfrom)).trans (congrArg _ (if_pos hpaced)))
  case paced =>
    exact fun _ _ _ _ _ hline hchannel hcount hup htarget hturn =>
      ⟨_, rfl, execPacedRequest_counted hline hchannel hcount hup htarget hturn⟩
  case done =>
    exact fun _ _ _ _ _ hmove hpaced =>
      ⟨execMoveDone_noTarget hmove 0, execMoveDone_busError hmove hpaced, execMoveDone_whole hmove hpaced⟩
  case granule => exact fun _ _ hwaits htime hnone => execGranuleCommit_idle hwaits htime hnone
  case control => exact fun _ _ _ h => ⟨h.gateAction_acts _, h.gateAction_acts _⟩
  case enable => exact fun _ _ _ _ h => h.gateField_acts _ _
  case skew =>
    exact fun _ _ _ _ horders hphase hdue =>
      ⟨execSkewCalDone_measured horders hphase hdue, _, rfl, execSkewCalDone_measured horders hphase hdue⟩

end Machine
end Sys2Proof
end

section
/-!
Queues: admission, frees, EN, the reclaim and the end of a rebuild (R417–R427, R435).
-/

namespace Sys2Proof
namespace Machine

variable {s : State}

/-! ### Admission and frees -/

/-- R420: an ACTIVE refuse-newest queue takes a data barge that fits, behind which nothing of its producer waits. -/
theorem State.admitBarge_fits {q : Nat} {b : Barge} (hstate : s.qstate q = qActive) (hmode : s.dropNewest q = false)
    (hdata : b.isMark = false) (hwait : s.waitQ.any (fun x => x.1 == q && x.2.stream == b.stream) = false)
    (hstore : s.markStore.any (fun m => m.queue == q && sameProducer m.barge b) = false) (hfits : s.dataFits q b.cells = true) :
    s.admitBarge q b = (.queued, s.enqueue q b) := by
  simp only [State.admitBarge, hstate, hwait, hmode, hdata, hstore, hfits, ne_eq, not_true_eq_false, Bool.false_eq_true,
    if_false, if_true]

/-- R426: a free under a cell's own queue and epoch by an agent that may free it. -/
theorem State.freeCell_allowed {cell q epoch : Nat} {a : FreeAgent} {tag : CellTag} (hcell : SMap.find? s.cells cell = some tag)
    (hqueue : tag.queue = q) (hepoch : tag.epoch = epoch) (hmay : s.mayFree tag a = true) :
    s.freeCell cell q epoch a = s.releaseCell cell tag := by
  simp only [State.freeCell, hcell]
  exact if_pos ⟨hqueue, hepoch, hmay⟩

/-- R426: a double free; that it is reported under the queue that the agent gives is the model's choice (log entry 8). -/
theorem State.freeCell_double {cell q epoch : Nat} {a : FreeAgent} (hcell : SMap.find? s.cells cell = none) :
    s.freeCell cell q epoch a = ((s.queueErr 1 q cell).put (R.QUEUE_STAT.DF_SEEN q) 1).raiseInst 227 q := by
  simp only [State.freeCell, hcell]

/-! ### EN of a queue -/

section
variable {q w : Nat} (hmode : bits w 1 1 = s.get (R.QUEUE_CFG.MODE q)) (hthresh : bits w 2 4 = s.get (R.QUEUE_CFG.THRESH q))
include hmode hthresh

/-- R433: a write of QUEUE_CFG with MODE and THRESH as they are sets LIMIT; whether it opens or closes the queue turns on EN. -/
theorem State.writeQueueCfg_sameSetup : s.writeQueueCfg q w =
    State.retryWaiting (
      if bit w 0 ∧ !s.on (R.QUEUE_CFG.EN q) then
        if s.qstate q = qOff then (s.put (R.QUEUE_CFG.LIMIT q) (bits w 8 18)).openQueue q
        else if s.qstate q = qClosing then (s.put (R.QUEUE_CFG.LIMIT q) (bits w 8 18)).queueCfgErr
        else (s.put (R.QUEUE_CFG.LIMIT q) (bits w 8 18)).put (R.QUEUE_CFG.EN q) 1
      else if !bit w 0 ∧ s.on (R.QUEUE_CFG.EN q) then (s.put (R.QUEUE_CFG.LIMIT q) (bits w 8 18)).closeQueue q
      else s.put (R.QUEUE_CFG.LIMIT q) (bits w 8 18)) := by
  have hm : bits w 1 1 = (s.put (R.QUEUE_CFG.LIMIT q) (bits w 8 18)).get (R.QUEUE_CFG.MODE q) :=
    hmode.trans (State.get_put_other _ _ _ _ (by simp) (by simp)).symm
  have ht : bits w 2 4 = (s.put (R.QUEUE_CFG.LIMIT q) (bits w 8 18)).get (R.QUEUE_CFG.THRESH q) :=
    hthresh.trans (State.get_put_other _ _ _ _ (by simp) (by simp)).symm
  have hstate : (s.put (R.QUEUE_CFG.LIMIT q) (bits w 8 18)).qstate q = s.qstate q := State.get_put_ne _ _ _ _ (by simp)
  simp only [State.writeQueueCfg, if_pos hm, if_pos ht, hstate]

/-- R427: EN set on an OFF queue opens it. -/
theorem State.writeQueueCfg_opens (hset : bit w 0 = true) (hoff : s.on (R.QUEUE_CFG.EN q) = false) (hstate : s.qstate q = qOff) :
    s.writeQueueCfg q w = ((s.put (R.QUEUE_CFG.LIMIT q) (bits w 8 18)).openQueue q).retryWaiting := by
  rw [State.writeQueueCfg_sameSetup hmode hthresh, if_pos (by simp [hset, hoff]), if_pos hstate]

/-- R427: EN cleared on an enabled queue closes it. -/
theorem State.writeQueueCfg_closes (hclear : bit w 0 = false) (hon : s.on (R.QUEUE_CFG.EN q) = true) :
    s.writeQueueCfg q w = ((s.put (R.QUEUE_CFG.LIMIT q) (bits w 8 18)).closeQueue q).retryWaiting := by
  rw [State.writeQueueCfg_sameSetup hmode hthresh, if_neg (by simp [hclear]), if_pos (by simp [hclear, hon])]

end

/-! ### Reclaim, rebuild and timed orders -/

/-- R427: a CLOSING queue of refuse-newest mode, which has no tear register, with nothing to deliver. -/
theorem execReclaimDone_reclaims {q : Fin 4096} (hmode : s.dropNewest q = false) (hfree : s.reclaimable q = true) :
    execReclaimDone q s = .next (s.reclaim q) := by
  have hplain : ¬(s.qstate q = qClosing ∧ s.dropNewest q = true) := fun h => ne_true_of_eq_false hmode h.2
  simp only [execReclaimDone, if_neg hplain, if_pos hfree]

/-- R418: LK1 could not rebuild a queue. -/
theorem execQueueRebuildDone_fences {q : Fin 4096} (hstate : s.qstate q = qRebuild) (hup : s.lkUp 1 = true) :
    execQueueRebuildDone q false s = .next ((s.put (R.QUEUE_STAT.STATE q) qFenced).raiseInst 225 q) :=
  (if_neg (by simp [hstate, hup])).trans (if_pos rfl)

/-- R418: it has rebuilt a queue whose EN is still set. -/
theorem execQueueRebuildDone_resumes {q : Fin 4096} (hstate : s.qstate q = qRebuild) (hup : s.lkUp 1 = true)
    (hen : s.on (R.QUEUE_CFG.EN q) = true) :
    execQueueRebuildDone q true s = .next (s.put (R.QUEUE_STAT.STATE q) qActive).retryWaiting := by
  have hkept : (s.put (R.QUEUE_STAT.STATE q) qActive).on (R.QUEUE_CFG.EN q) = true := by
    rw [State.on, State.get_put_ne _ _ _ _ (by simp)]
    exact hen
  unfold execQueueRebuildDone
  rw [if_neg (by simp [hstate, hup]), if_neg (by decide)]
  exact congrArg (fun t : State => (Host.Outcome.next t.retryWaiting : Out)) (if_pos hkept)

/-- R435: the TIME of an order that waits for it has come. -/
theorem execQueueQuiesceDue_due {ring index : Nat} {o : Order} (horder : s.order? (ring, index) = some o) (hop : o.opcode = 0x0801)
    (hphase : o.phase = .pending) (htime : ofTime96 (o.u 20 12) ≤ s.time) :
    execQueueQuiesceDue ring index s = .next (s.quiesceDue o o.late) := by
  simp only [execQueueQuiesceDue, horder]
  exact if_pos ⟨hop, hphase, htime⟩

end Machine
end Sys2Proof
end

section
namespace Sys2Proof
namespace Machine

/-- Settles O6: each command finds the copies in agreement or its conditions met, and has the effect that its lemma gives. -/
theorem queueCommandsAct : Obligations.QueueCommandsAct := by
  unfold Obligations.QueueCommandsAct
  refine ⟨?admission, ?free, ?double, ?enable, ?reclaim, ?rebuild, ?quiesce⟩
  case admission =>
    exact fun _ _ _ hstate hmode hdata hwait hstore hfits =>
      congrArg (fun r : Admit × State => (Host.Outcome.next r.2 : Out))
        (State.admitBarge_fits hstate hmode hdata hwait hstore hfits)
  case free => exact fun _ _ _ _ _ _ hcell hq he hmay => congrArg _ (State.freeCell_allowed hcell hq he hmay)
  case double => exact fun _ _ _ _ _ hcell => congrArg _ (State.freeCell_double hcell)
  case enable =>
    rintro s p _ w h rfl hmode hthresh
    exact ⟨fun hset hoff hstate => (h.gate_acts _ _).trans (congrArg _ (State.writeQueueCfg_opens hmode hthresh hset hoff hstate)),
      fun hclear hon => (h.gate_acts _ _).trans (congrArg _ (State.writeQueueCfg_closes hmode hthresh hclear hon))⟩
  case reclaim => exact fun _ _ => execReclaimDone_reclaims
  case rebuild => exact fun _ _ hstate hup => ⟨execQueueRebuildDone_fences hstate hup, execQueueRebuildDone_resumes hstate hup⟩
  case quiesce => exact fun _ _ _ _ => execQueueQuiesceDue_due

end Machine
end Sys2Proof
end

section
/-!
Recordings and the commands of drives: the chunk timer and the ends of Write, trim, Read and Flush commands (R424, R443–R452).
-/

namespace Sys2Proof
namespace Machine

variable {s : State}

/-- R442, R443: CLOSE_US after the first barge of an open chunk. -/
theorem execChunkCloseTimer_due {r : Fin 8} (hruns : s.recState r = 1) (hset : s.get (R.NVME_REC_CLOSE.CLOSE_US r) ≠ 0)
    (hopen : (s.nvRec r).cur ≠ []) (hdue : (s.nvRec r).firstAt + 1000 * s.get (R.NVME_REC_CLOSE.CLOSE_US r) ≤ s.adv) :
    execChunkCloseTimer r s = .next ((s.updNvRec r (fun x => { x with closing := true })).recPump r) :=
  if_pos ⟨hruns, hset, by simp [hopen], hdue⟩

/-! ### The end of a Write -/

/-- The recording's chunk `k` changed. -/
def State.updChunk (s : State) (r k : Nat) (f : NvChunk → NvChunk) : State :=
  s.updNvRec r (fun x => { x with out := updFirst (fun c => c.number == k) f x.out })

/-- Write `w`, number `i` of its chunk, gone from it with the cells that it has written; a chunk without Writes gone from its recording. -/
def State.endWrite (s : State) (r k i : Nat) (w : NvWrite) : State :=
  (s.updChunk r k (fun c => { c with
    writes := c.writes.filter (fun w => w.index != i)
    cells := c.cells.filter (fun e => !decide (w.off < e.2 ∧ e.2 ≤ w.off + w.len)) })).updNvRec r
    (fun x => { x with out := x.out.filter (fun c => !c.writes.isEmpty) })

@[simp] theorem State.endWrite_regs (s : State) (r k i : Nat) (w : NvWrite) : (s.endWrite r k i w).regs = s.regs := rfl
@[simp] theorem State.endWrite_cells (s : State) (r k i : Nat) (w : NvWrite) : (s.endWrite r k i w).cells = s.cells := rfl

section
variable {r : Fin 8} {k i : Nat} {c : NvChunk} {w : NvWrite} (hchunk : (s.nvRec r).out.find? (fun c => c.number == k) = some c)
  (hwrite : c.writes.find? (fun w => w.index == i) = some w)
include hchunk hwrite

/-- R425, R445: a Write that ends well; the cells that it has written are freed. -/
theorem execWriteCompletion_frees : execWriteCompletion r k i true s = .next (((s.endWrite r k i w).freeCells
    ((c.cells.filter (fun e => decide (w.off < e.2 ∧ e.2 ≤ w.off + w.len))).map (fun e => e.1))).recPump r) := by
  simp only [execWriteCompletion, hchunk, hwrite]
  rfl

/-- R446: a Write that fails below RETRY is sent again. -/
theorem execWriteCompletion_retries (hleft : w.tries < s.get R.NVME_CTL.RETRY) : execWriteCompletion r k i false s = .next
    ((s.updChunk r k (fun c => { c with
      writes := updFirst (fun w => w.index == i) (fun w => { w with tries := w.tries + 1, at_ := s.adv }) c.writes })).sendWrite
      r c w) := by
  simp only [execWriteCompletion, hchunk, hwrite]
  exact if_pos hleft

/-- R446, R447: one that has had its retries loses its chunk. -/
theorem execWriteCompletion_loses (hlast : s.get R.NVME_CTL.RETRY ≤ w.tries) : execWriteCompletion r k i false s = .next
    (((s.satInc (R.NVME_DRIVE_ERR.IOERR (s.slotDrive c.slot))).loseChunk r c).recPump r) := by
  simp only [execWriteCompletion, hchunk, hwrite]
  exact if_neg (Nat.not_lt.mpr hlast)

end

/-! ### The end of a trim, a Read and a Flush -/

section
variable {ring index : Nat} {x : OrderRef × Nat × Nat} {rest : List (OrderRef × Nat × Nat)} {u : State}
  (htrim : takeFirst (fun (x : OrderRef × Nat × Nat) => x.1 == (ring, index)) s.nvme.trims = some (x, rest))
  (hu : u = { s with nvme := { s.nvme with trims := rest } })
include htrim hu

/-- R452: a trim that failed counts for its drive and retires its order with the drive's error. -/
theorem execNvmeCommandCompletion_trimFailed : execNvmeCommandCompletion (.trim ring index) false s =
    .next ((u.satInc (R.NVME_DRIVE_ERR.IOERR x.2.1)).retireRef x.1 0x24 []) := by
  subst hu
  simp only [execNvmeCommandCompletion, htrim]
  rfl

/-- R450, R452: one that ended well retires it, in part if a cancel stands. -/
theorem execNvmeCommandCompletion_trimmed : execNvmeCommandCompletion (.trim ring index) true s =
    .next (u.retireRef x.1 (if (u.order? x.1).any (fun o => o.phase == .cancelling) then stPartial else stOk) []) := by
  subst hu
  simp only [execNvmeCommandCompletion, htrim]
  rfl

end

/-- R451: a Read's data are taken in. -/
theorem execNvmeCommandCompletion_read {ring index : Nat} {data : List Byte} {x : NvRead} {o : Order} {c : Nat × Nat × Nat}
    (hread : s.nvRead? (ring, index) = some x) (horder : s.order? (ring, index) = some o) (hcmd : x.cmd = some c) :
    execNvmeCommandCompletion (.read ring index data) true s = .next (s.readTake o x c data) := by
  simp only [execNvmeCommandCompletion, hread, horder, hcmd, if_true]

/-- R448: a Flush that was awaited. -/
theorem execNvmeCommandCompletion_flushed {r slot : Fin 8} {l : List (Nat × Nat)} (hflush : (s.nvRec r).flush = some l)
    (hmine : l.any (fun e => e.1 == slot.val) = true) : execNvmeCommandCompletion (.flush r slot) true s =
      .next ((s.updNvRec r (fun x => { x with flush := some (l.filter (fun e => e.1 != slot.val)) })).recPump r) := by
  simp only [execNvmeCommandCompletion, hflush]
  exact if_pos hmine

end Machine
end Sys2Proof
end

section
/-!
The states of a drive (R438, Table 14-1).
-/

namespace Sys2Proof
namespace Machine

variable {s : State} {n : Fin 8}

/-- R436, R438: the link of an ABSENT drive trains within 100 ms of its port's enable. -/
theorem execDriveLinkUp_trains {width : Fin 9} {rate : Fin 6} (hfitted : s.driveFitted n = true) (habsent : s.driveState n = 0)
    (htime : s.adv ≤ (s.nvPort (n / 4)).since + 100000000) :
    execDriveLinkUp n true width rate s = .next ((s.put (R.NVME_DRIVE.STATE n) 1).setLink n width rate) :=
  if_pos ⟨rfl, hfitted, habsent, htime⟩

/-- Table 14-1: a drive in ENUM goes on to INIT if its class is NVMe's, else it is FAILED. -/
theorem execDriveInitDone_class {nvme : Bool} (henum : s.driveState n = 1) : execDriveInitDone n (.class_ nvme) s =
    if nvme = true then .next ((s.put (R.NVME_DRIVE.STATE n) 2).updNvDrive n (fun x => { x with since := s.adv }))
    else .next (s.driveFailed n 0) :=
  if_neg (not_not.mpr henum)

/-- Table 14-1: the controller of a drive in INIT is ready within its CAP.TO, or 30 s. -/
theorem execDriveInitDone_ready {tmo : BitVec 8} {mdts : Nat} {ns : List NvmeNs} (hinit : s.driveState n = 2)
    (htime : s.adv ≤ (s.nvDrive n).since + min (tmo.toNat * 500000000) 30000000000) :
    execDriveInitDone n (.ready tmo mdts ns) s = .next (((((s.nvAdmin n initCommands).put (R.NVME_DRIVE.STATE n) 3).put
      (R.NVME_DRIVE.NSCNT n) (min 15 ns.length)).put (R.NVME_DRIVE.MDTS_KIB n) (min mdts 65535)).updNvDrive n
        (fun x => { x with ns := ns })) :=
  (if_neg (not_not.mpr hinit)).trans (if_neg (Nat.not_lt.mpr htime))

/-- R438: a drive in RESET is initialised again within 5 s, or is FAILED. -/
theorem execDriveResetDone_inTime {width : Fin 9} {rate : Fin 6} (ok : Bool) (hreset : s.driveState n = 4) (hup : s.lkUp 2 = true)
    (htime : s.adv ≤ (s.nvDrive n).since + 5000000000) : execDriveResetDone n ok width rate s =
      if ok = true then .next ((((s.put (R.NVME_DRIVE.STATE n) 3).nvAdmin n initCommands).setLink n width rate).reissue n)
      else .next ((s.driveFailed n 2).endCommands n) := by
  have hnotOver : decide ((s.nvDrive n).since + 5000000000 < s.adv) = false := decide_eq_false (Nat.not_lt.mpr htime)
  unfold execDriveResetDone
  rw [if_neg (by simp [hreset, hup])]
  simp only [hnotOver, Bool.not_false, and_true]

end Machine
end Sys2Proof
end

section
namespace Sys2Proof
namespace Machine

/-- Settles O30: the writes pass their gate, and each event finds its conditions met. -/
theorem driveCommandsAct : Obligations.DriveCommandsAct := by
  unfold Obligations.DriveCommandsAct
  refine ⟨?visible, ?timer, ?failed, ?written, ?trim, ?read, ?flush, ?port, ?link, ?enumerated, ?initialised, ?lost, ?reset, ?dma,
    ?slot, ?recording, ?stop⟩
  case visible =>
    rintro s q _ rfl
    exact ⟨fun hother => congrArg _ (if_neg hother), fun hrec => congrArg _ (if_pos hrec)⟩
  case timer => exact fun _ _ => execChunkCloseTimer_due
  case failed =>
    exact fun _ _ _ _ _ _ hchunk hwrite => ⟨execWriteCompletion_retries hchunk hwrite, execWriteCompletion_loses hchunk hwrite⟩
  case written =>
    exact fun s r k i _ w hchunk hwrite =>
      ⟨s.endWrite r k i w, s.endWrite_regs r k i w, s.endWrite_cells r k i w, execWriteCompletion_frees hchunk hwrite⟩
  case trim =>
    exact fun _ _ _ _ _ _ htrim =>
      ⟨_, rfl, execNvmeCommandCompletion_trimFailed htrim rfl, execNvmeCommandCompletion_trimmed htrim rfl⟩
  case read => exact fun _ _ _ _ _ _ _ => execNvmeCommandCompletion_read
  case flush => exact fun _ _ _ _ => execNvmeCommandCompletion_flushed
  case port => exact fun _ _ _ _ h => h.gate_acts _ _
  case link => exact fun _ _ _ _ => execDriveLinkUp_trains
  case enumerated => exact fun _ _ henum => ⟨execDriveInitDone_class henum, execDriveInitDone_class henum⟩
  case initialised => exact fun _ _ _ _ _ hinit htime => ⟨execDriveInitDone_ready hinit htime, if_pos hinit⟩
  case lost => exact fun _ _ hready => ⟨fun hlate => if_pos ⟨hready, hlate⟩, if_pos hready, if_pos hready⟩
  case reset =>
    exact fun _ _ _ _ hreset hup htime =>
      ⟨execDriveResetDone_inTime true hreset hup htime, execDriveResetDone_inTime false hreset hup htime⟩
  case dma => exact fun _ _ hthere => if_neg hthere
  case slot => exact fun _ _ _ _ h => h.gate_acts _ _
  case recording => exact fun _ _ _ _ h => h.gate_acts _ _
  case stop => exact fun _ _ _ h => h.gateField_acts _ _

end Machine
end Sys2Proof
end

section
/-!
The dispatch: whatever a command's meaning keeps, the command keeps, and so does the step that takes it.
-/

namespace Sys2Proof
namespace Machine

/-- Each command keeps what its meaning keeps. -/
theorem exec_ok {κ : Keep} {s : State} (hs : s.Kept κ) : ∀ c : Instr, OutOk κ (exec c s)
  | .registerWrite p key w => execRegisterWrite_ok p key w s hs
  | .barAccessViolation key size contiguous write => execBarAccessViolation_ok key size contiguous write s hs
  | .convSyncT0Read p => execConvSyncT0Read_ok p s hs
  | .adcScntLoRead p n => execAdcScntLoRead_ok p n s hs
  | .queueTearbase0Read p => execQueueTearbase0Read_ok p s hs
  | .nvmeSlotCapRead p j => execNvmeSlotCapRead_ok p j s hs
  | .nvmeRecChunkRead p r => execNvmeRecChunkRead_ok p r s hs
  | .nvmeRecTrecRead p r => execNvmeRecTrecRead_ok p r s hs
  | .sgT0Read p g => execSgT0Read_ok p g s hs
  | .sgPlayedLoRead p g => execSgPlayedLoRead_ok p g s hs
  | .timeNow0Read p sub => execTimeNow0Read_ok p sub s hs
  | .ethTxt0Read p t => execEthTxt0Read_ok p t s hs
  | .ethRxt0Read p r => execEthRxt0Read_ok p r s hs
  | .mgmtDataRead p => execMgmtDataRead_ok p s hs
  | .mgmtDataWrite p w => execMgmtDataWrite_ok p w s hs
  | .planLoad => execPlanLoad_ok s hs
  | .planStart => execPlanStart_ok s hs
  | .planStop => execPlanStop_ok s hs
  | .planUnload => execPlanUnload_ok s hs
  | .planStartDue p => execPlanStartDue_ok p s hs
  | .planStopDue ring index => execPlanStopDue_ok ring index s hs
  | .laneWakeDone l => execLaneWakeDone_ok l s hs
  | .convRefbufWrite p w => execConvRefbufWrite_ok p w s hs
  | .refRdy k => execRefRdy_ok k s hs
  | .adcOn p n => execAdcOn_ok p n s hs
  | .adcOff p n => execAdcOff_ok p n s hs
  | .converterWakeDone k => execConverterWakeDone_ok k s hs
  | .dacOn p n => execDacOn_ok p n s hs
  | .dacOff p n => execDacOff_ok p n s hs
  | .adcArm p n w => execAdcArm_ok p n w s hs
  | .adcDisarm p n w => execAdcDisarm_ok p n w s hs
  | .startInstant n => execStartInstant_ok n s hs
  | .firstAcquiredSample n x => execFirstAcquiredSample_ok n x s hs
  | .granuleStop n => execGranuleStop_ok n s hs
  | .convertedSample n x => execConvertedSample_ok n x s hs
  | .fsChange n => execFsChange_ok n s hs
  | .commandSync p => execCommandSync_ok p s hs
  | .syncEdge => execSyncEdge_ok s hs
  | .syncReferenceEdge sub => execSyncReferenceEdge_ok sub s hs
  | .fgStart p mask => execFgStart_ok p mask s hs
  | .foregroundCalEnd n ms => execForegroundCalEnd_ok n ms s hs
  | .dwellEnd n ms => execDwellEnd_ok n ms s hs
  | .degradedWindowEnd n powered ms => execDegradedWindowEnd_ok n powered ms s hs
  | .calibrationStep n => execCalibrationStep_ok n s hs
  | .save p => execSave_ok p s hs
  | .saveDone => execSaveDone_ok s hs
  | .hkSequenceStart m => execHkSequenceStart_ok m s hs
  | .hkGo p m => execHkGo_ok p m s hs
  | .hkConversion m value raw => execHkConversion_ok m value raw s hs
  | .thermalEmergency preempts => execThermalEmergency_ok preempts s hs
  | .supplyFault preempts => execSupplyFault_ok preempts s hs
  | .emergClear p => execEmergClear_ok p s hs
  | .supplyClear p => execSupplyClear_ok p s hs
  | .ddcCtlWrite p d w => execDdcCtlWrite_ok p d w s hs
  | .retuneGo p d => execRetuneGo_ok p d s hs
  | .retuneCancel p d => execRetuneCancel_ok p d s hs
  | .ddcRetune => execDdcRetune_ok s hs
  | .retuneBoundary d => execRetuneBoundary_ok d s hs
  | .listAdvance d => execListAdvance_ok d s hs
  | .ddcOutputSample d => execDdcOutputSample_ok d s hs
  | .pltEvaluation p => execPltEvaluation_ok p s hs
  | .frameFilled p ce => execFrameFilled_ok p ce s hs
  | .sheetDelivered p => execSheetDelivered_ok p s hs
  | .laneFaultDetected l cause fence others => execLaneFaultDetected_ok l cause fence others s hs
  | .laneInject p lane key fence => execLaneInject_ok p lane key fence s hs
  | .failoverSpareReady l => execFailoverSpareReady_ok l s hs
  | .spareTest => execSpareTest_ok s hs
  | .testEnd l check => execTestEnd_ok l check s hs
  | .windowLoad => execWindowLoad_ok s hs
  | .laneTest => execLaneTest_ok s hs
  | .holdReset p e => execHoldReset_ok p e s hs
  | .traceQueued e => execTraceQueued_ok e s hs
  | .decayInstant m => execDecayInstant_ok m s hs
  | .tileFlush m tile l ue => execTileFlush_ok m tile l ue s hs
  | .tileReadRequest m tile cut => execTileReadRequest_ok m tile cut s hs
  | .snoopReply m tile l => execSnoopReply_ok m tile l s hs
  | .reamSnapshot => execReamSnapshot_ok s hs
  | .reamClear => execReamClear_ok s hs
  | .reamCtlClear p m => execReamCtlClear_ok p m s hs
  | .reamCut m => execReamCut_ok m s hs
  | .snapshotReadBegin m bad => execSnapshotReadBegin_ok m bad s hs
  | .reamEnable p m w => execReamEnable_ok p m w s hs
  | .occurrence sel sub => execOccurrence_ok sel sub s hs
  | .chamberTimeout f => execChamberTimeout_ok f s hs
  | .holdoffEnd f => execHoldoffEnd_ok f s hs
  | .autoTimeout f => execAutoTimeout_ok f s hs
  | .flArm p f => execFlArm_ok p f s hs
  | .flCancel p f => execFlCancel_ok p f s hs
  | .flightArm => execFlightArm_ok s hs
  | .armTimeReached f => execArmTimeReached_ok f s hs
  | .weirLoad => execWeirLoad_ok s hs
  | .trigInEdge j high sub => execTrigInEdge_ok j high sub s hs
  | .ibusEdge b low sub => execIbusEdge_ok b low sub s hs
  | .deadTimeEnd input sub => execDeadTimeEnd_ok input sub s hs
  | .stuckTimeout input => execStuckTimeout_ok input s hs
  | .stuckRearm input => execStuckRearm_ok input s hs
  | .trigOutPulseEnd o => execTrigOutPulseEnd_ok o s hs
  | .ibusPulseEnd b => execIbusPulseEnd_ok b s hs
  | .cuEnWrite p u en => execCuEnWrite_ok p u en s hs
  | .cuWakeDone u => execCuWakeDone_ok u s hs
  | .cuRunWrite p u => execCuRunWrite_ok p u s hs
  | .cuStopWrite p u => execCuStopWrite_ok p u s hs
  | .cuPoke p u => execCuPoke_ok p u s hs
  | .cuWindowWrite p u off bs => execCuWindowWrite_ok p u off bs s hs
  | .cuTimerExpiry u => execCuTimerExpiry_ok u s hs
  | .eventEntry u waited fetch => execEventEntry_ok u waited fetch s hs
  | .qrdCopyLanded u => execQrdCopyLanded_ok u s hs
  | .sendDone u ecc => execSendDone_ok u ecc s hs
  | .cuNop u => execCuNop_ok u s hs
  | .cuAdd u => execCuAdd_ok u s hs
  | .cuSub u => execCuSub_ok u s hs
  | .cuAnd u => execCuAnd_ok u s hs
  | .cuOr u => execCuOr_ok u s hs
  | .cuXor u => execCuXor_ok u s hs
  | .cuShl u => execCuShl_ok u s hs
  | .cuShr u => execCuShr_ok u s hs
  | .cuSra u => execCuSra_ok u s hs
  | .cuMul u => execCuMul_ok u s hs
  | .cuSlt u => execCuSlt_ok u s hs
  | .cuSltu u => execCuSltu_ok u s hs
  | .cuAddi u => execCuAddi_ok u s hs
  | .cuAndi u => execCuAndi_ok u s hs
  | .cuOri u => execCuOri_ok u s hs
  | .cuLui u => execCuLui_ok u s hs
  | .cuShli u => execCuShli_ok u s hs
  | .cuShri u => execCuShri_ok u s hs
  | .cuSrai u => execCuSrai_ok u s hs
  | .cuLdw u ecc => execCuLdw_ok u ecc s hs
  | .cuStw u => execCuStw_ok u s hs
  | .cuVld u ecc => execCuVld_ok u ecc s hs
  | .cuVst u => execCuVst_ok u s hs
  | .cuLdt u ecc => execCuLdt_ok u ecc s hs
  | .cuStt u => execCuStt_ok u s hs
  | .cuBeq u => execCuBeq_ok u s hs
  | .cuBne u => execCuBne_ok u s hs
  | .cuBlt u => execCuBlt_ok u s hs
  | .cuBge u => execCuBge_ok u s hs
  | .cuJmp u => execCuJmp_ok u s hs
  | .cuJr u => execCuJr_ok u s hs
  | .cuCall u => execCuCall_ok u s hs
  | .cuWait u => execCuWait_ok u s hs
  | .cuRete u => execCuRete_ok u s hs
  | .cuHalt u => execCuHalt_ok u s hs
  | .cuMfs u => execCuMfs_ok u s hs
  | .cuMts u => execCuMts_ok u s hs
  | .cuTnow u sub => execCuTnow_ok u sub s hs
  | .cuTrig u sub => execCuTrig_ok u sub s hs
  | .cuRdtrg u => execCuRdtrg_ok u s hs
  | .cuQpop u => execCuQpop_ok u s hs
  | .cuQrd u => execCuQrd_ok u s hs
  | .cuQfree u => execCuQfree_ok u s hs
  | .cuSend u => execCuSend_ok u s hs
  | .cuQstat u => execCuQstat_ok u s hs
  | .cuVadd u => execCuVadd_ok u s hs
  | .cuVsub u => execCuVsub_ok u s hs
  | .cuVmov u => execCuVmov_ok u s hs
  | .cuVswap u => execCuVswap_ok u s hs
  | .cuVconj u => execCuVconj_ok u s hs
  | .cuVbf u => execCuVbf_ok u s hs
  | .cuVspl u => execCuVspl_ok u s hs
  | .cuVcmul u => execCuVcmul_ok u s hs
  | .cuVmac u => execCuVmac_ok u s hs
  | .cuVmsu u => execCuVmsu_ok u s hs
  | .cuVmul u => execCuVmul_ok u s hs
  | .cuVcmac u => execCuVcmac_ok u s hs
  | .cuVcmacj u => execCuVcmacj_ok u s hs
  | .cuVsq u => execCuVsq_ok u s hs
  | .cuAclr u => execCuAclr_ok u s hs
  | .cuVnar u => execCuVnar_ok u s hs
  | .cuAred u => execCuAred_ok u s hs
  | .cuAxh u => execCuAxh_ok u s hs
  | .cuAxl u => execCuAxl_ok u s hs
  | .cuLoop u => execCuLoop_ok u s hs
  | .cuLoad => execCuLoad_ok s hs
  | .cuRun => execCuRun_ok s hs
  | .cuRunDue ring index => execCuRunDue_ok ring index s hs
  | .cuStop => execCuStop_ok s hs
  | .cuStopDue ring index => execCuStopDue_ok ring index s hs
  | .trainingStart p b => execTrainingStart_ok p b s hs
  | .trainingDone c ok step => execTrainingDone_ok c ok step s hs
  | .initDone c => execInitDone_ok c s hs
  | .refreshDue c bank busy => execRefreshDue_ok c bank busy s hs
  | .mr4Read c hot => execMr4Read_ok c hot s hs
  | .periodicCalibration c drift => execPeriodicCalibration_ok c drift s hs
  | .alertN c => execAlertN_ok c s hs
  | .replayDone c => execReplayDone_ok c s hs
  | .scrubLine c r use => execScrubLine_ok c r use s hs
  | .memFence p ch key => execMemFence_ok p ch key s hs
  | .channelFence c cause => execChannelFence_ok c cause s hs
  | .poundRelay n => execPoundRelay_ok n s hs
  | .poundEnable p n w => execPoundEnable_ok p n w s hs
  | .poundFreeze p n on => execPoundFreeze_ok p n on s hs
  | .bargeCommit n => execBargeCommit_ok n s hs
  | .drainRead n d errs => execDrainRead_ok n d errs s hs
  | .captureAccepted => execCaptureAccepted_ok s hs
  | .captureBargeRead num errs overtaken => execCaptureBargeRead_ok num errs overtaken s hs
  | .poundCut => execPoundCut_ok s hs
  | .linkTrained width rate flit => execLinkTrained_ok width rate flit s hs
  | .hotReset => execHotReset_ok s hs
  | .poisonedTlpReceived t => execPoisonedTlpReceived_ok t s hs
  | .completionTimeout r => execCompletionTimeout_ok r s hs
  | .powerStateChange fn d3 => execPowerStateChange_ok fn d3 s hs
  | .vectorModerationEnd fn v => execVectorModerationEnd_ok fn v s hs
  | .tokenReq p => execTokenReq_ok p s hs
  | .tokenRel p => execTokenRel_ok p s hs
  | .mgmtTokenReq => execMgmtTokenReq_ok s hs
  | .mgmtTokenRel => execMgmtTokenRel_ok s hs
  | .mgmtForce key => execMgmtForce_ok key s hs
  | .lookoutPoll tails ok => execLookoutPoll_ok tails ok s hs
  | .entryFetched x es => execEntryFetched_ok x es s hs
  | .orderAcceptance => execOrderAcceptance_ok s hs
  | .park => execPark_ok s hs
  | .finalPollResult tails ok => execFinalPollResult_ok tails ok s hs
  | .wake => execWake_ok s hs
  | .nop => execNop_ok s hs
  | .cancel => execCancel_ok s hs
  | .bargeDelivery x bad => execBargeDelivery_ok x bad s hs
  | .bufferCloseTimer x => execBufferCloseTimer_ok x s hs
  | .ringFlush p x => execRingFlush_ok p x s hs
  | .ringEnWrite p x en log2 => execRingEnWrite_ok p x en log2 s hs
  | .er1TailWrite tail => execEr1TailWrite_ok tail s hs
  | .eventRecordWrite r => execEventRecordWrite_ok r s hs
  | .moveStart c errs => execMoveStart_ok c errs s hs
  | .moveDone c data n reason => execMoveDone_ok c data n reason s hs
  | .pacedRequest line data => execPacedRequest_ok line data s hs
  | .admissionRequest q b c => execAdmissionRequest_ok q b c s hs
  | .cellVisible q => execCellVisible_ok q s hs
  | .cellFree cell q epoch by_ c => execCellFree_ok cell q epoch by_ c s hs
  | .queueEnWrite p w => execQueueEnWrite_ok p w s hs
  | .reclaimDone q => execReclaimDone_ok q s hs
  | .queueRebuildDone q ok => execQueueRebuildDone_ok q ok s hs
  | .queueQuiesce => execQueueQuiesce_ok s hs
  | .queueQuiesceDue ring index => execQueueQuiesceDue_ok ring index s hs
  | .nvmePortEnable p d w => execNvmePortEnable_ok p d w s hs
  | .driveLinkUp n up width rate => execDriveLinkUp_ok n up width rate s hs
  | .driveInitDone n r => execDriveInitDone_ok n r s hs
  | .driveCommandTimeout n => execDriveCommandTimeout_ok n s hs
  | .driveResetDone n ok width rate => execDriveResetDone_ok n ok width rate s hs
  | .nvmeDmaAccess n => execNvmeDmaAccess_ok n s hs
  | .nvmeSlotEnable p j w => execNvmeSlotEnable_ok p j w s hs
  | .recordingEnable p r w => execRecordingEnable_ok p r w s hs
  | .recordingStop p r => execRecordingStop_ok p r s hs
  | .chunkCloseTimer r => execChunkCloseTimer_ok r s hs
  | .writeCompletion r chunk j ok => execWriteCompletion_ok r chunk j ok s hs
  | .nvmeRead => execNvmeRead_ok s hs
  | .nvmeTrim => execNvmeTrim_ok s hs
  | .seqLoad => execSeqLoad_ok s hs
  | .seqStart => execSeqStart_ok s hs
  | .seqStop => execSeqStop_ok s hs
  | .skewCal => execSkewCal_ok s hs
  | .skewCalDone trims inRange => execSkewCalDone_ok trims inRange s hs
  | .granuleCommit g late errs => execGranuleCommit_ok g late errs s hs
  | .sgRelease p g => execSgRelease_ok p g s hs
  | .sgStopWrite p g => execSgStopWrite_ok p g s hs
  | .sgEnWrite p g en => execSgEnWrite_ok p g en s hs
  | .probeGroupsWrite p w => execProbeGroupsWrite_ok p w s hs
  | .probeLaneEnable p n en => execProbeLaneEnable_ok p n en s hs
  | .probeTrainingTimeout n => execProbeTrainingTimeout_ok n s hs
  | .probeLaneAligned n => execProbeLaneAligned_ok n s hs
  | .probeHello n version width pclk => execProbeHello_ok n version width pclk s hs
  | .probeSyncLoss n headers => execProbeSyncLoss_ok n headers s hs
  | .frameLost n => execFrameLost_ok n s hs
  | .probeBeacon n => execProbeBeacon_ok n s hs
  | .echoFrame n f sub turnaround => execEchoFrame_ok n f sub turnaround s hs
  | .creditFrame n f => execCreditFrame_ok n f s hs
  | .vcsFrame n f => execVcsFrame_ok n f s hs
  | .netsFrame n f => execNetsFrame_ok n f s hs
  | .subAckFrame n f => execSubAckFrame_ok n f s hs
  | .probeBargeClose set => execProbeBargeClose_ok set s hs
  | .bridgeSend b => execBridgeSend_ok b s hs
  | .stimFrameSend g => execStimFrameSend_ok g s hs
  | .vcEnable p v w => execVcEnable_ok p v w s hs
  | .bpEnable p b w => execBpEnable_ok p b w s hs
  | .egEnable p g w => execEgEnable_ok p g w s hs
  | .probeCatLoad => execProbeCatLoad_ok s hs
  | .probeSub => execProbeSub_ok s hs
  | .subAckTimeout ring index => execSubAckTimeout_ok ring index s hs
  | .tdcEdge j rising sub => execTdcEdge_ok j rising sub s hs
  | .tdcWindowEnd c => execTdcWindowEnd_ok c s hs
  | .gateEnd j => execGateEnd_ok j s hs
  | .tdcBargeClose n => execTdcBargeClose_ok n s hs
  | .tdcInEnable p j w => execTdcInEnable_ok p j w s hs
  | .tdcFanWrite p w => execTdcFanWrite_ok p w s hs
  | .timeIncWrite p w => execTimeIncWrite_ok p w s hs
  | .timeServoWrite p locked => execTimeServoWrite_ok p locked s hs
  | .holdTimeout => execHoldTimeout_ok s hs
  | .timeModeWrite p w => execTimeModeWrite_ok p w s hs
  | .timeStep => execTimeStep_ok s hs
  | .stepTick => execStepTick_ok s hs
  | .tgEnable p g w => execTgEnable_ok p g w s hs
  | .gateAnnounce g => execGateAnnounce_ok g s hs
  | .gateFiring g => execGateFiring_ok g s hs
  | .gateWake g => execGateWake_ok g s hs
  | .ethTxGo p t w => execEthTxGo_ok p t w s hs
  | .ethTxDone t sub => execEthTxDone_ok t sub s hs
  | .ethFrameReceived bytes sub => execEthFrameReceived_ok bytes sub s hs
  | .kxLinkEnable p l en => execKxLinkEnable_ok p l en s hs
  | .kxHello device l devid refMaster slot => execKxHello_ok device l devid refMaster slot s hs
  | .kxLinkLoss device l => execKxLinkLoss_ok device l s hs
  | .timeBeaconSend echoes => execTimeBeaconSend_ok echoes s hs
  | .timeBeaconReceived l b sub roundTrip rootSync => execTimeBeaconReceived_ok l b sub roundTrip rootSync s hs
  | .followLostTimeout => execFollowLostTimeout_ok s hs
  | .remoteTriggerReceived l t sub => execRemoteTriggerReceived_ok l t sub s hs
  | .remoteTriggerDue => execRemoteTriggerDue_ok s hs
  | .akwauneFrameReceived bytes sub => execAkwauneFrameReceived_ok bytes sub s hs
  | .kxSpEnable p k w => execKxSpEnable_ok p k w s hs
  | .refclkLoss => execRefclkLoss_ok s hs
  | .refclkHoldoverExpiry => execRefclkHoldoverExpiry_ok s hs
  | .refclkRestored => execRefclkRestored_ok s hs
  | .pllLockAcquired k first second diff => execPllLockAcquired_ok k first second diff s hs
  | .pllLockLoss k first diff => execPllLockLoss_ok k first diff s hs
  | .clkoutEnable p o w => execClkoutEnable_ok p o w s hs
  | .swsRun p w => execSwsRun_ok p w s hs
  | .swsStop p w => execSwsStop_ok p w s hs
  | .swsSegmentAdvance => execSwsSegmentAdvance_ok s hs
  | .powerMode => execPowerMode_ok s hs
  | .powerRequest p req => execPowerRequest_ok p req s hs
  | .powerCancel p => execPowerCancel_ok p s hs
  | .powerRequestCarriedOut => execPowerRequestCarriedOut_ok s hs
  | .sleepDrainEnd => execSleepDrainEnd_ok s hs
  | .modeEntryComplete => execModeEntryComplete_ok s hs
  | .wakeCause => execWakeCause_ok s hs
  | .returnComplete failed => execReturnComplete_ok failed s hs
  | .autoPolicy => execAutoPolicy_ok s hs
  | .fsSet => execFsSet_ok s hs
  | .fsRelockDone ring index ok => execFsRelockDone_ok ring index ok s hs
  | .pwmPeriodStart j => execPwmPeriodStart_ok j s hs
  | .boot part => execBoot_ok part s hs
  | .firmwareReady => execFirmwareReady_ok s hs
  | .watchdogExpiry k => execWatchdogExpiry_ok k s hs
  | .lkReady k => execLkReady_ok k s hs
  | .lkRestartTimeout k => execLkRestartTimeout_ok k s hs
  | .fwsVerify p => execFwsVerify_ok p s hs
  | .fwsWrite p => execFwsWrite_ok p s hs
  | .fwsRun p => execFwsRun_ok p s hs
  | .stagingDone img flashOk => execStagingDone_ok img flashOk s hs
  | .mailboxInWrite p ch w => execMailboxInWrite_ok p ch w s hs
  | .mailboxOutRead p ch => execMailboxOutRead_ok p ch s hs
  | .retract p ch => execRetract_ok p ch s hs
  | .firmwareInRead ch => execFirmwareInRead_ok ch s hs
  | .firmwareOutWrite ch => execFirmwareOutWrite_ok ch s hs
  | .version ch => execVersion_ok ch s hs
  | .health ch => execHealth_ok ch s hs
  | .fwActivate ch => execFwActivate_ok ch s hs
  | .fwCommit ch => execFwCommit_ok ch s hs
  | .svnCommit ch => execSvnCommit_ok ch s hs
  | .cfgWrite ch => execCfgWrite_ok ch s hs
  | .logRead ch => execLogRead_ok ch s hs
  | .pnlInfo ch => execPnlInfo_ok ch s hs
  | .pnlOwner ch => execPnlOwner_ok ch s hs
  | .pnlBlit ch => execPnlBlit_ok ch s hs
  | .pnlFill ch => execPnlFill_ok ch s hs
  | .pnlPush ch => execPnlPush_ok ch s hs
  | .unknownService ch => execUnknownService_ok ch s hs
  | .monId => execMonId_ok s hs
  | .monRdB0 a n => execMonRdB0_ok a n s hs
  | .monRdB2 a n => execMonRdB2_ok a n s hs
  | .monWr a v => execMonWr_ok a v s hs
  | .monTokReq => execMonTokReq_ok s hs
  | .monTokRel => execMonTokRel_ok s hs
  | .monLk => execMonLk_ok s hs
  | .monEv => execMonEv_ok s hs
  | .monTime => execMonTime_ok s hs
  | .monMbWrite w => execMonMbWrite_ok w s hs
  | .monMbRead => execMonMbRead_ok s hs
  | .monBaud r => execMonBaud_ok r s hs
  | .monReset k => execMonReset_ok k s hs
  | .monHelp => execMonHelp_ok s hs
  | .monUnknown lost => execMonUnknown_ok lost s hs
  | .monOffWrite p off => execMonOffWrite_ok p off s hs
  | .smbS4Write w pec => execSmbS4Write_ok w pec s hs
  | .smbS4Read => execSmbS4Read_ok s hs
  | .smbS4Status => execSmbS4Status_ok s hs
  | .smbMgmtAddr w pec => execSmbMgmtAddr_ok w pec s hs
  | .smbMgmtData w pec => execSmbMgmtData_ok w pec s hs
  | .evInject p src key => execEvInject_ok p src key s hs
  | .containmentClose => execContainmentClose_ok s hs
  | .fullReset p key => execFullReset_ok p key s hs
  | .porL st => execPorL_ok st s hs
  | .perstL => execPerstL_ok s hs
  | .dispEnable p h w => execDispEnable_ok p h w s hs
  | .commit p h => execCommit_ok p h s hs
  | .hpdPlug h => execHpdPlug_ok h s hs
  | .hpdUnplug h => execHpdUnplug_ok h s hs
  | .hpdIrq h lost => execHpdIrq_ok h lost s hs
  | .dispTrainingDone h rate lanes ok => execDispTrainingDone_ok h rate lanes ok s hs
  | .verticalBlankingStart h => execVerticalBlankingStart_ok h s hs
  | .activeLineStart h supplied => execActiveLineStart_ok h supplied s hs
  | .dispEdid => execDispEdid_ok s hs
  | .dispPalette => execDispPalette_ok s hs
  | .pnlEnable p w => execPnlEnable_ok p w s hs
  | .pnlPushTimer => execPnlPushTimer_ok s hs
  | .timekeeperTick => execTimekeeperTick_ok s hs
  | .initPassedExtent n => execInitPassedExtent_ok n s hs
  | .driveLinkDown n => execDriveLinkDown_ok n s hs
  | .controllerFatalStatus n => execControllerFatalStatus_ok n s hs
  | .kxStreamBargeArrival k q b endStamp lost => execKxStreamBargeArrival_ok k q b endStamp lost s hs
  | .probeFrameDropped n crc => execProbeFrameDropped_ok n crc s hs
  | .probeAdaptationDone n => execProbeAdaptationDone_ok n s hs
  | .eth0LinkChange up => execEth0LinkChange_ok up s hs
  | .completionReceived ring index off data reason => execCompletionReceived_ok ring index off data reason s hs
  | .nvmeCommandCompletion c ok => execNvmeCommandCompletion_ok c ok s hs
  | .auxTransactionDone ring index answer => execAuxTransactionDone_ok ring index answer s hs
  | .configSpaceWrite fn c => execConfigSpaceWrite_ok fn c s hs
  | .swsSettled => execSwsSettled_ok s hs
  | .storedTrimsLoaded n => execStoredTrimsLoaded_ok n s hs
  | .pnlInitComplete id => execPnlInitComplete_ok id s hs

variable {s t : State}

theorem step_cons {c : Instr} {rest : List Instr} (h : s.pending = c :: rest) : step s = exec c { s with pending := rest } := by
  rw [step, h]

theorem step_nil (h : s.pending = []) : step s = .next s := by
  rw [step, h]

/-- The canonical form is kept by a step, whichever command it takes. -/
theorem State.Ok.step (hs : s.Ok) (h : step s = .next t) : t.Ok := by
  cases hq : s.pending with
  | nil =>
    rw [step_nil hq] at h
    cases h
    exact hs
  | cons c rest =>
    rw [step_cons hq] at h
    exact ((exec_ok (hs.withPending rest).kept c).of_next t h).ok

end Machine
end Sys2Proof
end

section
namespace Sys2Proof
namespace Machine

/-- Settles O43: by the command that the step takes. -/
theorem stepKeepsTheCanonicalForm : Obligations.StepKeepsTheCanonicalForm := by
  unfold Obligations.StepKeepsTheCanonicalForm
  exact fun _ _ hs h => hs.step h

/-- Settles O44: the queue, what was sent and the counter are part of what each command keeps. -/
theorem commandsKeepWhatStands : Obligations.CommandsKeepWhatStands := by
  unfold Obligations.CommandsKeepWhatStands
  intro c s t hs h
  have hkept := (exec_ok hs.kept c).of_next t h
  exact ⟨hkept.pending, hkept.sent, hkept.free⟩

/-- Settles O41. -/
theorem stepTakesTheFrontCommand : Obligations.StepTakesTheFrontCommand := by
  unfold Obligations.StepTakesTheFrontCommand
  exact ⟨fun _ _ _ => step_cons rfl, fun _ _ _ => step_cons, fun _ => step_nil⟩

end Machine
end Sys2Proof
end

section
/-!
Every command's meaning is a total function: whatever its branches, each ends in a next state, and none in a fault or a
refusal. So a run never stops (log entries 1 and 37 say why the model has no such outcome).
-/

namespace Sys2Proof
namespace Machine

/-- A meaning's answer is a next state. -/
def Answers (o : Out) : Prop := ∃ t, o = .next t

theorem Answers.next (s : State) : Answers (.next s) := ⟨s, rfl⟩

theorem Answers.ite {c : Prop} [Decidable c] {a b : Out} (ha : Answers a) (hb : Answers b) :
    Answers (if c then a else b) := by
  split
  · exact ha
  · exact hb

variable (s : State)

theorem execPlanStartDue_answers (p) : Answers (execPlanStartDue p s) := by
  fun_cases execPlanStartDue <;> exact .next _

theorem execPlanStopDue_answers (ring index) : Answers (execPlanStopDue ring index s) := by
  fun_cases execPlanStopDue <;> exact .next _

theorem execRefRdy_answers (k) : Answers (execRefRdy k s) := by
  fun_cases execRefRdy <;> exact .next _

theorem execStartInstant_answers (n) : Answers (execStartInstant n s) := by
  fun_cases execStartInstant <;> exact .next _

theorem execGranuleStop_answers (n) : Answers (execGranuleStop n s) := by
  fun_cases execGranuleStop <;> exact .next _

theorem execFsChange_answers (n) : Answers (execFsChange n s) := by
  fun_cases execFsChange <;> exact .next _

theorem execSyncReferenceEdge_answers (sub) : Answers (execSyncReferenceEdge sub s) := by
  fun_cases execSyncReferenceEdge <;> exact .next _

theorem execForegroundCalEnd_answers (n ms) : Answers (execForegroundCalEnd n ms s) := by
  fun_cases execForegroundCalEnd <;> exact .next _

theorem execDwellEnd_answers (n ms) : Answers (execDwellEnd n ms s) := by
  fun_cases execDwellEnd <;> exact .next _

theorem execDegradedWindowEnd_answers (n powered ms) : Answers (execDegradedWindowEnd n powered ms s) := by
  fun_cases execDegradedWindowEnd <;> exact .next _

theorem execHkSequenceStart_answers (m) : Answers (execHkSequenceStart m s) := by
  fun_cases execHkSequenceStart <;> exact .next _

theorem execHkConversion_answers (m value raw) : Answers (execHkConversion m value raw s) := by
  fun_cases execHkConversion <;> exact .next _

theorem execThermalEmergency_answers (preempts) : Answers (execThermalEmergency preempts s) := by
  fun_cases execThermalEmergency <;> exact .next _

theorem execSupplyFault_answers (preempts) : Answers (execSupplyFault preempts s) := by
  fun_cases execSupplyFault <;> exact .next _

theorem execRetuneBoundary_answers (d) : Answers (execRetuneBoundary d s) := by
  fun_cases execRetuneBoundary <;> exact .next _

theorem execListAdvance_answers (d) : Answers (execListAdvance d s) := by
  fun_cases execListAdvance <;> exact .next _

theorem execDdcOutputSample_answers (d) : Answers (execDdcOutputSample d s) := by
  fun_cases execDdcOutputSample <;> exact .next _

theorem execPltEvaluation_answers (p) : Answers (execPltEvaluation p s) := by
  fun_cases execPltEvaluation <;> exact .next _

theorem execSheetDelivered_answers (p) : Answers (execSheetDelivered p s) := by
  fun_cases execSheetDelivered <;> exact .next _

theorem execFailoverSpareReady_answers (l) : Answers (execFailoverSpareReady l s) := by
  fun_cases execFailoverSpareReady <;> exact .next _

theorem execSpareTest_answers : Answers (execSpareTest s) := by
  fun_cases execSpareTest <;> exact .next _

theorem execTestEnd_answers (l check) : Answers (execTestEnd l check s) := by
  fun_cases execTestEnd <;> exact .next _

theorem execTraceQueued_answers (e) : Answers (execTraceQueued e s) := by
  fun_cases execTraceQueued <;> exact .next _

theorem execSnoopReply_answers (m tile l) : Answers (execSnoopReply m tile l s) := by
  fun_cases execSnoopReply <;> exact .next _

theorem execReamCut_answers (m) : Answers (execReamCut m s) := by
  fun_cases execReamCut <;> exact .next _

theorem execOccurrence_answers (sel sub) : Answers (execOccurrence sel sub s) := by
  fun_cases execOccurrence <;> exact .next _

theorem execArmTimeReached_answers (f) : Answers (execArmTimeReached f s) := by
  fun_cases execArmTimeReached <;> exact .next _

theorem execEventEntry_answers (u waited fetch) : Answers (execEventEntry u waited fetch s) := by
  fun_cases execEventEntry <;> exact .next _

theorem execQrdCopyLanded_answers (u) : Answers (execQrdCopyLanded u s) := by
  fun_cases execQrdCopyLanded <;> exact .next _

theorem execSendDone_answers (u ecc) : Answers (execSendDone u ecc s) := by
  fun_cases execSendDone <;> exact .next _

theorem execCuRunDue_answers (ring index) : Answers (execCuRunDue ring index s) := by
  fun_cases execCuRunDue <;> exact .next _

theorem execCuStopDue_answers (ring index) : Answers (execCuStopDue ring index s) := by
  fun_cases execCuStopDue <;> exact .next _

theorem execTrainingStart_answers (p b) : Answers (execTrainingStart p b s) := by
  fun_cases execTrainingStart <;> exact .next _

theorem execBargeCommit_answers (n) : Answers (execBargeCommit n s) := by
  fun_cases execBargeCommit <;> exact .next _

theorem execDrainRead_answers (n d errs) : Answers (execDrainRead n d errs s) := by
  fun_cases execDrainRead <;> exact .next _

theorem execCaptureBargeRead_answers (num errs overtaken) : Answers (execCaptureBargeRead num errs overtaken s) := by
  fun_cases execCaptureBargeRead <;> exact .next _

theorem execPoisonedTlpReceived_answers (t) : Answers (execPoisonedTlpReceived t s) := by
  fun_cases execPoisonedTlpReceived <;> exact .next _

theorem execEntryFetched_answers (x es) : Answers (execEntryFetched x es s) := by
  fun_cases execEntryFetched <;> exact .next _

theorem execOrderAcceptance_answers : Answers (execOrderAcceptance s) := by
  fun_cases execOrderAcceptance <;> exact .next _

theorem execBargeDelivery_answers (x bad) : Answers (execBargeDelivery x bad s) := by
  fun_cases execBargeDelivery <;> exact .next _

theorem execBufferCloseTimer_answers (x) : Answers (execBufferCloseTimer x s) := by
  fun_cases execBufferCloseTimer <;> exact .next _

theorem execEventRecordWrite_answers (r) : Answers (execEventRecordWrite r s) := by
  fun_cases execEventRecordWrite <;> exact .next _

theorem execMoveStart_answers (c errs) : Answers (execMoveStart c errs s) := by
  fun_cases execMoveStart <;> exact .next _

theorem execMoveDone_answers (c data n reason) : Answers (execMoveDone c data n reason s) := by
  fun_cases execMoveDone <;> exact .next _

theorem execPacedRequest_answers (line data) : Answers (execPacedRequest line data s) := by
  fun_cases execPacedRequest <;> exact .next _

theorem execQueueQuiesceDue_answers (ring index) : Answers (execQueueQuiesceDue ring index s) := by
  fun_cases execQueueQuiesceDue <;> exact .next _

theorem execDriveInitDone_answers (n r) : Answers (execDriveInitDone n r s) := by
  fun_cases execDriveInitDone <;> exact .next _

theorem execWriteCompletion_answers (r chunk j ok) : Answers (execWriteCompletion r chunk j ok s) := by
  fun_cases execWriteCompletion <;> exact .next _

theorem execSkewCalDone_answers (trims inRange) : Answers (execSkewCalDone trims inRange s) := by
  fun_cases execSkewCalDone <;> exact .next _

theorem execBridgeSend_answers (b) : Answers (execBridgeSend b s) := by
  fun_cases execBridgeSend <;> exact .next _

theorem execStimFrameSend_answers (g) : Answers (execStimFrameSend g s) := by
  fun_cases execStimFrameSend <;> exact .next _

theorem execSubAckTimeout_answers (ring index) : Answers (execSubAckTimeout ring index s) := by
  fun_cases execSubAckTimeout <;> exact .next _

theorem execGateEnd_answers (j) : Answers (execGateEnd j s) := by
  fun_cases execGateEnd <;> exact .next _

theorem execStepTick_answers : Answers (execStepTick s) := by
  fun_cases execStepTick <;> exact .next _

theorem execGateAnnounce_answers (g) : Answers (execGateAnnounce g s) := by
  fun_cases execGateAnnounce <;> exact .next _

theorem execGateFiring_answers (g) : Answers (execGateFiring g s) := by
  fun_cases execGateFiring <;> exact .next _

theorem execEthFrameReceived_answers (bytes sub) : Answers (execEthFrameReceived bytes sub s) := by
  fun_cases execEthFrameReceived <;> exact .next _

theorem execFollowLostTimeout_answers : Answers (execFollowLostTimeout s) := by
  fun_cases execFollowLostTimeout <;> exact .next _

theorem execRemoteTriggerDue_answers : Answers (execRemoteTriggerDue s) := by
  fun_cases execRemoteTriggerDue <;> exact .next _

theorem execAkwauneFrameReceived_answers (bytes sub) : Answers (execAkwauneFrameReceived bytes sub s) := by
  fun_cases execAkwauneFrameReceived <;> exact .next _

theorem execRefclkHoldoverExpiry_answers : Answers (execRefclkHoldoverExpiry s) := by
  fun_cases execRefclkHoldoverExpiry <;> exact .next _

theorem execSwsSegmentAdvance_answers : Answers (execSwsSegmentAdvance s) := by
  fun_cases execSwsSegmentAdvance <;> exact .next _

theorem execPowerMode_answers : Answers (execPowerMode s) := by
  fun_cases execPowerMode <;> exact .next _

theorem execPowerRequestCarriedOut_answers : Answers (execPowerRequestCarriedOut s) := by
  fun_cases execPowerRequestCarriedOut <;> exact .next _

theorem execSleepDrainEnd_answers : Answers (execSleepDrainEnd s) := by
  fun_cases execSleepDrainEnd <;> exact .next _

theorem execModeEntryComplete_answers : Answers (execModeEntryComplete s) := by
  fun_cases execModeEntryComplete <;> exact .next _

theorem execAutoPolicy_answers : Answers (execAutoPolicy s) := by
  fun_cases execAutoPolicy <;> exact .next _

theorem execFsRelockDone_answers (ring index ok) : Answers (execFsRelockDone ring index ok s) := by
  fun_cases execFsRelockDone <;> exact .next _

theorem execPwmPeriodStart_answers (j) : Answers (execPwmPeriodStart j s) := by
  fun_cases execPwmPeriodStart <;> exact .next _

theorem execLkRestartTimeout_answers (k) : Answers (execLkRestartTimeout k s) := by
  fun_cases execLkRestartTimeout <;> exact .next _

theorem execStagingDone_answers (img flashOk) : Answers (execStagingDone img flashOk s) := by
  fun_cases execStagingDone <;> exact .next _

theorem execMailboxInWrite_answers (p ch w) : Answers (execMailboxInWrite p ch w s) := by
  fun_cases execMailboxInWrite <;> exact .next _

theorem execRetract_answers (p ch) : Answers (execRetract p ch s) := by
  fun_cases execRetract <;> exact .next _

theorem execFirmwareOutWrite_answers (ch) : Answers (execFirmwareOutWrite ch s) := by
  fun_cases execFirmwareOutWrite <;> exact .next _

theorem execFwActivate_answers (ch) : Answers (execFwActivate ch s) := by
  fun_cases execFwActivate <;> exact .next _

theorem execUnknownService_answers (ch) : Answers (execUnknownService ch s) := by
  fun_cases execUnknownService <;> exact .next _

theorem execContainmentClose_answers : Answers (execContainmentClose s) := by
  fun_cases execContainmentClose <;> exact .next _

theorem execDispTrainingDone_answers (h rate lanes ok) : Answers (execDispTrainingDone h rate lanes ok s) := by
  fun_cases execDispTrainingDone <;> exact .next _

theorem execActiveLineStart_answers (h supplied) : Answers (execActiveLineStart h supplied s) := by
  fun_cases execActiveLineStart <;> exact .next _

theorem execCompletionReceived_answers (ring index off data reason) :
    Answers (execCompletionReceived ring index off data reason s) := by
  fun_cases execCompletionReceived <;> exact .next _

theorem execNvmeCommandCompletion_answers (c ok) : Answers (execNvmeCommandCompletion c ok s) := by
  fun_cases execNvmeCommandCompletion <;> exact .next _

theorem execAuxTransactionDone_answers (ring index answer) : Answers (execAuxTransactionDone ring index answer s) := by
  fun_cases execAuxTransactionDone <;> exact .next _

theorem execStoredTrimsLoaded_answers (n) : Answers (execStoredTrimsLoaded n s) := by
  fun_cases execStoredTrimsLoaded <;> exact .next _

/-- No command ends in a fault or a refusal. -/
theorem exec_answers (c : Instr) : Answers (exec c s) := by
  cases c with
  | registerWrite | mgmtDataRead | mgmtDataWrite | firstAcquiredSample | saveDone | decayInstant | tileFlush
  | deadTimeEnd | stuckRearm | cuWakeDone | cuTimerExpiry | initDone | refreshDue | mr4Read | alertN | scrubLine
  | poundRelay | linkTrained | completionTimeout | lookoutPoll | park | driveLinkUp | driveCommandTimeout
  | nvmeDmaAccess | chunkCloseTimer | probeTrainingTimeout | probeLaneAligned | frameLost | probeBargeClose
  | tdcBargeClose | holdTimeout | gateWake | ethTxDone | timeBeaconSend | remoteTriggerReceived | refclkLoss
  | refclkRestored | pllLockLoss | wakeCause | returnComplete | boot | firmwareInRead | pnlPush | monOffWrite
  | fullReset | pnlEnable | pnlPushTimer | driveLinkDown | controllerFatalStatus | probeFrameDropped
  | probeAdaptationDone | configSpaceWrite =>
    exact .ite (.next _) (.next _)
  | barAccessViolation | laneWakeDone | replayDone | captureAccepted | queueRebuildDone | driveResetDone
  | granuleCommit | probeHello | probeBeacon | echoFrame | tdcEdge | timeBeaconReceived | firmwareReady
  | watchdogExpiry | mailboxOutRead | pnlInitComplete =>
    exact .ite (.next _) (.ite (.next _) (.next _))
  | frameFilled | trainingDone | probeSyncLoss | kxLinkLoss | pllLockAcquired =>
    exact .ite (.next _) (.ite (.next _) (.ite (.next _) (.next _)))
  | powerStateChange | verticalBlankingStart =>
    exact .ite (.next _) (.ite (.ite (.next _) (.next _)) (.next _))
  | converterWakeDone =>
    exact .ite (.next _) (.ite (.ite (.next _) (.next _)) (.ite (.next _) (.next _)))
  | finalPollResult | kxHello =>
    exact .ite (.next _) (.ite (.next _) (.ite (.next _) (.ite (.next _) (.next _))))
  | planStartDue => exact execPlanStartDue_answers s ..
  | planStopDue => exact execPlanStopDue_answers s ..
  | refRdy => exact execRefRdy_answers s ..
  | startInstant => exact execStartInstant_answers s ..
  | granuleStop => exact execGranuleStop_answers s ..
  | fsChange => exact execFsChange_answers s ..
  | syncReferenceEdge => exact execSyncReferenceEdge_answers s ..
  | foregroundCalEnd => exact execForegroundCalEnd_answers s ..
  | dwellEnd => exact execDwellEnd_answers s ..
  | degradedWindowEnd => exact execDegradedWindowEnd_answers s ..
  | hkSequenceStart => exact execHkSequenceStart_answers s ..
  | hkConversion => exact execHkConversion_answers s ..
  | thermalEmergency => exact execThermalEmergency_answers s ..
  | supplyFault => exact execSupplyFault_answers s ..
  | retuneBoundary => exact execRetuneBoundary_answers s ..
  | listAdvance => exact execListAdvance_answers s ..
  | ddcOutputSample => exact execDdcOutputSample_answers s ..
  | pltEvaluation => exact execPltEvaluation_answers s ..
  | sheetDelivered => exact execSheetDelivered_answers s ..
  | failoverSpareReady => exact execFailoverSpareReady_answers s ..
  | spareTest => exact execSpareTest_answers s
  | testEnd => exact execTestEnd_answers s ..
  | traceQueued => exact execTraceQueued_answers s ..
  | snoopReply => exact execSnoopReply_answers s ..
  | reamCut => exact execReamCut_answers s ..
  | occurrence => exact execOccurrence_answers s ..
  | armTimeReached => exact execArmTimeReached_answers s ..
  | eventEntry => exact execEventEntry_answers s ..
  | qrdCopyLanded => exact execQrdCopyLanded_answers s ..
  | sendDone => exact execSendDone_answers s ..
  | cuRunDue => exact execCuRunDue_answers s ..
  | cuStopDue => exact execCuStopDue_answers s ..
  | trainingStart => exact execTrainingStart_answers s ..
  | bargeCommit => exact execBargeCommit_answers s ..
  | drainRead => exact execDrainRead_answers s ..
  | captureBargeRead => exact execCaptureBargeRead_answers s ..
  | poisonedTlpReceived => exact execPoisonedTlpReceived_answers s ..
  | entryFetched => exact execEntryFetched_answers s ..
  | orderAcceptance => exact execOrderAcceptance_answers s
  | bargeDelivery => exact execBargeDelivery_answers s ..
  | bufferCloseTimer => exact execBufferCloseTimer_answers s ..
  | eventRecordWrite => exact execEventRecordWrite_answers s ..
  | moveStart => exact execMoveStart_answers s ..
  | moveDone => exact execMoveDone_answers s ..
  | pacedRequest => exact execPacedRequest_answers s ..
  | queueQuiesceDue => exact execQueueQuiesceDue_answers s ..
  | driveInitDone => exact execDriveInitDone_answers s ..
  | writeCompletion => exact execWriteCompletion_answers s ..
  | skewCalDone => exact execSkewCalDone_answers s ..
  | bridgeSend => exact execBridgeSend_answers s ..
  | stimFrameSend => exact execStimFrameSend_answers s ..
  | subAckTimeout => exact execSubAckTimeout_answers s ..
  | gateEnd => exact execGateEnd_answers s ..
  | stepTick => exact execStepTick_answers s
  | gateAnnounce => exact execGateAnnounce_answers s ..
  | gateFiring => exact execGateFiring_answers s ..
  | ethFrameReceived => exact execEthFrameReceived_answers s ..
  | followLostTimeout => exact execFollowLostTimeout_answers s
  | remoteTriggerDue => exact execRemoteTriggerDue_answers s
  | akwauneFrameReceived => exact execAkwauneFrameReceived_answers s ..
  | refclkHoldoverExpiry => exact execRefclkHoldoverExpiry_answers s
  | swsSegmentAdvance => exact execSwsSegmentAdvance_answers s
  | powerMode => exact execPowerMode_answers s
  | powerRequestCarriedOut => exact execPowerRequestCarriedOut_answers s
  | sleepDrainEnd => exact execSleepDrainEnd_answers s
  | modeEntryComplete => exact execModeEntryComplete_answers s
  | autoPolicy => exact execAutoPolicy_answers s
  | fsRelockDone => exact execFsRelockDone_answers s ..
  | pwmPeriodStart => exact execPwmPeriodStart_answers s ..
  | lkRestartTimeout => exact execLkRestartTimeout_answers s ..
  | stagingDone => exact execStagingDone_answers s ..
  | mailboxInWrite => exact execMailboxInWrite_answers s ..
  | retract => exact execRetract_answers s ..
  | firmwareOutWrite => exact execFirmwareOutWrite_answers s ..
  | fwActivate => exact execFwActivate_answers s ..
  | unknownService => exact execUnknownService_answers s ..
  | containmentClose => exact execContainmentClose_answers s
  | dispTrainingDone => exact execDispTrainingDone_answers s ..
  | activeLineStart => exact execActiveLineStart_answers s ..
  | completionReceived => exact execCompletionReceived_answers s ..
  | nvmeCommandCompletion => exact execNvmeCommandCompletion_answers s ..
  | auxTransactionDone => exact execAuxTransactionDone_answers s ..
  | storedTrimsLoaded => exact execStoredTrimsLoaded_answers s ..
  | _ => exact .next _

theorem step_answers : Answers (step s) := by
  rcases hq : s.pending with _ | ⟨c, rest⟩
  · exact ⟨s, step_nil hq⟩
  · rw [step_cons hq]
    exact exec_answers _ c

/-- A run of any length goes on: each step of it is answered. -/
theorem State.runsSafely (n : Nat) : s.RunsSafely n := by
  induction n generalizing s with
  | zero => trivial
  | succ n ih =>
    obtain ⟨t, ht⟩ := step_answers s
    exact ⟨t, ht, ih t⟩

/-- Settles O45: by the command, and by induction on the run's length. -/
theorem everyCommandIsAnswered : Obligations.EveryCommandIsAnswered := by
  unfold Obligations.EveryCommandIsAnswered
  exact ⟨fun c s => exec_answers s c, fun n s => s.runsSafely n⟩

end Machine
end Sys2Proof
end

section
/-!
The timekeeper's tick, the writes of TIME_INC, and what the resets leave (R515, R516, R625, R626).
-/

namespace Sys2Proof
namespace Machine

variable {s : State} {p : Path}

theorem State.reanchor_ticks (s : State) (d : Int) : (s.reanchor d).ticks = s.ticks := by
  have hfold : ∀ (l : List Nat) (f : State → Nat → State), (∀ s n, (f s n).ticks = s.ticks) →
      ∀ s, (l.foldl f s).ticks = s.ticks := by
    intro l f hf
    induction l with
    | nil => exact fun _ => rfl
    | cons a l ih => exact fun s => (ih (f s a)).trans (hf s a)
  unfold State.reanchor
  dsimp only
  refine (hfold _ _ ?_ _).trans (hfold _ _ ?_ _) <;> exact fun _ _ => rfl

/-- R515: whether or not a new INC waits, a tick adds the INC that was in force. -/
theorem State.tick_adds_inc (s : State) : s.tick.tk.raw = s.tk.raw + s.tk.inc ∧ s.tick.ticks = s.ticks + 1 := by
  unfold State.tick
  dsimp only
  cases s.tk.newInc with
  | none => exact ⟨rfl, rfl⟩
  | some n => simp only [State.put_tk, State.put_ticks, State.reanchor_tk, State.reanchor_ticks, and_self]

/-- R516: a write within the range waits for the next tick. -/
theorem State.writeInc_accepted {n : Nat} (hfollow : s.follows = false) (hlo : 0x9FD70A3D ≤ n) (hhi : n ≤ 0xA028F5C3) :
    s.writeInc n = { s with tk := { s.tk with newInc := some n } } :=
  if_neg (by simp [hfollow, incOk, hlo, hhi])

/-- R516: a write to a follower, or outside the range, only sets INC_ERR. -/
theorem State.writeInc_ignored {n : Nat} (h : s.follows = true ∨ n < 0x9FD70A3D ∨ 0xA028F5C3 < n) :
    s.writeInc n = s.put R.TIME_STATUS.INC_ERR 1 := by
  refine if_pos ?_
  simp only [incOk, Bool.or_eq_true, Bool.not_eq_true', Bool.and_eq_false_iff, decide_eq_false_iff_not]
  exact h.imp id fun h => h.imp (by omega) (by omega)

theorem Writable.timeIncWrite (hw : Writable s p R.TIME_INC) (w : Word) :
    exec (.timeIncWrite p w) s = .next (s.writeInc w.toNat) :=
  hw.gateAction_acts _

/-! A reset leaves every register at its value after reset but those that follow the straps or tell of the reset. -/

theorem State.cleared_tk (s : State) (straps : Nat) : (s.cleared straps).tk = State.reset.tk := rfl

theorem State.fullReset_tk (s : State) (cause agent : Nat) : (s.fullReset cause agent).tk = State.reset.tk := rfl

theorem State.unset_of_tk {t : State} (h : t.tk = State.reset.tk) : t.time = 0 ∧ t.tk.raw = 0 ∧ t.tk.inc = 0xA0000000 := by
  rw [State.time, h]
  exact ⟨rfl, rfl, rfl⟩

theorem State.blank_regs (s : State) : s.blank.regs = State.reset.regs := rfl

theorem State.blank_word (s : State) (k : Nat) : s.blank.word k = State.reset.word k := by
  rw [State.word, State.blank_regs, State.word]

theorem State.cleared_word (s : State) (straps k : Nat) (hid : k ≠ R.TIME_ID) :
    (s.cleared straps).word k = (s.blank.setWord R.GLOBAL_STRAPS (BitVec.ofNat 32 straps)).word k := by
  unfold State.cleared
  rw [State.word, State.send_regs]
  exact State.word_put_other _ _ _ _ hid

theorem State.cleared_word_same (s : State) (straps k : Nat) (hk : k ∉ [R.GLOBAL_STRAPS, R.TIME_ID]) :
    (s.cleared straps).word k = State.reset.word k := by
  obtain ⟨hstraps, hid⟩ : k ≠ R.GLOBAL_STRAPS ∧ k ≠ R.TIME_ID := by simpa using hk
  rw [State.cleared_word s straps k hid, State.word_setWord_other _ _ _ _ hstraps, s.blank_word]

theorem State.cleared_straps (s : State) (straps : Nat) :
    (s.cleared straps).word R.GLOBAL_STRAPS = BitVec.ofNat 32 straps := by
  rw [State.cleared_word s straps _ (by decide), State.word_setWord_same]

/-- The device's number is its slot's. -/
theorem State.cleared_devid (s : State) (straps : Nat) :
    (s.cleared straps).get R.TIME_ID.DEVID = (s.cleared straps).get R.GLOBAL_STRAPS.SLOT := by
  unfold State.cleared
  dsimp only
  generalize s.blank.setWord R.GLOBAL_STRAPS (BitVec.ofNat 32 straps) = z
  have hslot : z.get R.GLOBAL_STRAPS.SLOT < 2 ^ 18 := (z.get_lt _).trans (by decide)
  exact (State.get_put_fits z R.TIME_ID.DEVID _ (by decide) hslot).trans
    (State.get_put_ne z R.TIME_ID.DEVID R.GLOBAL_STRAPS.SLOT _ (by decide)).symm

theorem State.fullReset_word (s : State) (cause agent k : Nat) (hprot : k ≠ R.GLOBAL_PROT) (hcause : k ≠ R.GLOBAL_RSTCAUSE) :
    (s.fullReset cause agent).word k = (s.cleared (s.word R.GLOBAL_STRAPS).toNat).word k := by
  unfold State.fullReset
  iterate 4 rw [State.word_put_other _ _ _ _ hcause]
  rw [State.word_put_other _ _ _ _ hprot]

theorem State.fullReset_word_same (s : State) (cause agent k : Nat)
    (hk : k ∉ [R.GLOBAL_STRAPS, R.TIME_ID, R.GLOBAL_RSTCAUSE, R.GLOBAL_PROT]) :
    (s.fullReset cause agent).word k = State.reset.word k := by
  obtain ⟨hstraps, hid, hcause, hprot⟩ : k ≠ R.GLOBAL_STRAPS ∧ k ≠ R.TIME_ID ∧ k ≠ R.GLOBAL_RSTCAUSE ∧ k ≠ R.GLOBAL_PROT := by
    simpa using hk
  rw [State.fullReset_word s cause agent k hprot hcause, State.cleared_word_same s _ k (by simp [hstraps, hid])]

/-- R515: every reset leaves the timekeeper UNSET. -/
theorem State.cleared_unset (s : State) (straps : Nat) : (s.cleared straps).get R.TIME_STATUS.STATE = 0 :=
  congrArg (fun w : Word => bits w.toNat R.TIME_STATUS.STATE.lsb R.TIME_STATUS.STATE.width)
    (s.cleared_word_same straps R.TIME_STATUS (by decide))

theorem State.fullReset_unset (s : State) (cause agent : Nat) : (s.fullReset cause agent).get R.TIME_STATUS.STATE = 0 :=
  congrArg (fun w : Word => bits w.toNat R.TIME_STATUS.STATE.lsb R.TIME_STATUS.STATE.width)
    (s.fullReset_word_same cause agent R.TIME_STATUS (by decide))

theorem execFullReset_holder (hreach : s.reaches p R.GLOBAL_RESET = true) (hholder : s.get R.GLOBAL_OWNER.HOLDER = pathAgent p)
    (hfw : p ≠ .fw) : exec (.fullReset p 0x5253#16) s = .next (s.fullReset 2 (pathAgent p)) :=
  (execFullReset_reached hreach).trans (congrArg _ (State.resetWrite_holder hholder hfw))

end Machine
end Sys2Proof
end

section
namespace Sys2Proof
namespace Machine

/-- Settles O51: the tick adds the INC in force, and each reset starts from the reset state. -/
theorem timekeeperTicks : Obligations.TimekeeperTicks := by
  unfold Obligations.TimekeeperTicks
  refine ⟨fun _ => rfl, ?tick, by decide, ?clear, ?full⟩
  case tick =>
    intro s
    refine ⟨_, rfl, ?_, ?_⟩
    · rw [State.watchPower_tk, s.tick_adds_inc.1]
    · rw [State.watchPower_ticks, s.tick_adds_inc.2]
  case clear =>
    intro s st
    obtain ⟨htime, hraw, hinc⟩ := State.unset_of_tk (s.cleared_tk (strapsWord st))
    exact ⟨_, _, rfl, rfl, s.cleared_unset _, htime, hraw, hinc, s.fullReset_unset 1 0, State.unset_of_tk (s.fullReset_tk 1 0)⟩
  case full =>
    intro s p hreach hholder hfw
    obtain ⟨htime, _, hinc⟩ := State.unset_of_tk (s.fullReset_tk 2 (pathAgent p))
    exact ⟨_, execFullReset_holder hreach hholder hfw, s.fullReset_unset _ _, htime, hinc⟩

/-- Settles O52: a write is taken or ignored; the tick after one that is taken adds the old INC and loads the new. -/
theorem timeIncWrites : Obligations.TimeIncWrites := by
  unfold Obligations.TimeIncWrites
  refine ⟨by decide, ?taken, ?ignored⟩
  case taken =>
    intro s p w hw hfollow hlo hhi
    obtain ⟨hinc, hraw, hrate⟩ :=
      State.tick_newInc { s with tk := { s.tk with newInc := some w.toNat } } w.toNat rfl w.isLt
    refine ⟨_, _, (hw.timeIncWrite w).trans (congrArg _ (State.writeInc_accepted hfollow hlo hhi)), rfl, rfl, rfl, rfl, ?_, ?_, ?_⟩
    · rw [State.watchPower_tk, hinc]
    · rw [State.watchPower_tk, hraw]
    · rw [State.watchPower_get, hrate]
  case ignored =>
    intro s p w hw h
    exact ⟨_, (hw.timeIncWrite w).trans (congrArg _ (State.writeInc_ignored h)), rfl,
      State.get_put_same _ R.TIME_STATUS.INC_ERR 1 (by decide), State.put_onlyRegs _ R.TIME_STATUS.INC_ERR 1⟩

/-- Settles O42: the reset state evaluates, and what a reset keeps is named. -/
theorem resetState : Obligations.ResetState := by
  unfold Obligations.ResetState
  refine ⟨⟨rfl, rfl, rfl, rfl, rfl, rfl, rfl⟩, rfl, rfl, rfl, rfl, rfl, rfl, rfl, rfl, rfl, by decide, by decide, fun s st => ?_⟩
  obtain ⟨htime, _⟩ := State.unset_of_tk (s.cleared_tk (strapsWord st))
  obtain ⟨htime', _⟩ := State.unset_of_tk (s.fullReset_tk 1 0)
  refine ⟨_, _, rfl, rfl, htime, htime', s.cleared_straps _, ?straps, s.cleared_devid _, s.cleared_word_same _,
    s.fullReset_word_same 1 0⟩
  case straps =>
    rw [s.fullReset_word 1 0 _ (by decide) (by decide), s.cleared_straps]
    exact BitVec.ofNat_toNat _ _ |>.trans (BitVec.setWidth_eq _)

end Machine
end Sys2Proof
end

section
/-!
The mailboxes of the lock-keepers' firmware (R596–R600): a sender's writes and reads, and LK0's own.
-/

namespace Sys2Proof
namespace Machine

variable {s : State} {p : Path} {ch : Fin 16} {k : Nat} {w : Word}

/-- R598: a word that finds IN full is lost, and the channel's status register, where it has one, shows it. -/
theorem State.mbxIn_full_nonsecure (c : Fin 4) (w : Word) (hfull : (s.mbx c).inFull = true) :
    s.mbxIn c w = (s.put (R.NS_STAT.IN_LOST c) 1).raiseInst 486 c := by
  rw [State.mbxIn, if_pos hfull, if_pos c.isLt]

theorem State.mbxIn_full_secure (c : Fin 4) (w : Word) (hfull : (s.mbx (8 + c)).inFull = true) :
    s.mbxIn (8 + c) w = (s.put (R.S_STAT.IN_LOST c) 1).raiseInst 486 (8 + c) := by
  rw [State.mbxIn, if_pos hfull, if_neg (by omega), if_pos (by omega), Nat.add_sub_cancel_left]

/-- R597: a word that finds it empty is taken. -/
theorem State.mbxIn_free (w : Word) (hfree : (s.mbx ch).inFull = false) :
    s.mbxIn ch w = s.updMbx ch (fun m => { m with inFull := true, inWord := w }) :=
  if_neg (by simp [hfree])

/-- A flag raised with its event: the event is counted, the flag stands, and the mailboxes are as before. -/
theorem State.put_raiseInst_mailbox (s : State) (f : Field) (n : Nat) (hkey : 0x2000000 ≤ f.key) (hone : f.lsb + 1 ≤ 32 ∧ f.width = 1) :
    ((s.put f 1).raiseInst 486 n).fw = s.fw ∧
      ((s.put f 1).raiseInst 486 n).get (R.EV_CNT.COUNT 486) =
        satAdd (R.EV_CNT.COUNT 486).width (s.get (R.EV_CNT.COUNT 486)) 1 ∧
      ((s.put f 1).raiseInst 486 n).get f = 1 := by
  obtain ⟨hlsb, hwidth⟩ := hone
  have hcnt : R.EV_CNT 486 < f.key := Nat.lt_of_lt_of_le (by decide) hkey
  have hroot : R.EV_ROOT < f.key := Nat.lt_of_lt_of_le (by decide) hkey
  have hpwr : R.GLOBAL_PWRSTAT < f.key := Nat.lt_of_lt_of_le (by decide) hkey
  refine ⟨(State.raiseInst_rest _ _ _).fw, ?count, ?flag⟩
  case count =>
    refine (State.raise_count _ _ _ _ _ (by decide) (by decide)).trans ?_
    rw [State.get_put_ne _ f (R.EV_CNT.COUNT 486) _ hcnt.ne]
  case flag =>
    rw [State.get_raiseInst _ _ _ _ hcnt.ne' hroot.ne' hpwr.ne', State.get_put_fits _ _ _ (by omega) (by simp [hwidth])]

theorem State.mbx_of_fw {t : State} (h : t.fw = s.fw) (n : Nat) : t.mbx n = s.mbx n := by
  rw [State.mbx, h, State.mbx]

/-- Table 20-7: the channels with registers are the first four of each bank. -/
theorem mbxKey_eq_some (h : mbxKey ch = some k) : (∃ c : Fin 4, ch.val = c.val) ∨ ∃ c : Fin 4, ch.val = 8 + c.val := by
  unfold mbxKey at h
  split at h
  next hns => exact .inl ⟨⟨ch, hns⟩, rfl⟩
  next =>
    split at h
    next hs => exact .inr ⟨⟨ch - 8, by omega⟩, by simp only; omega⟩
    next => cases h

theorem execMailboxInWrite_keyless (hpath : mbxPath ch = some p) (hkey : mbxKey ch = none) :
    execMailboxInWrite p ch w s = .next (s.mbxIn ch w) := by
  rw [execMailboxInWrite, if_neg (not_not_intro hpath), hkey]

theorem execMailboxInWrite_keyed (hpath : mbxPath ch = some p) (hkey : mbxKey ch = some k) (hw : Writable s p k) :
    execMailboxInWrite p ch w s = .next (s.mbxIn ch w) := by
  rw [execMailboxInWrite, if_neg (not_not_intro hpath), hkey]
  exact hw.gateAction_acts _

theorem execMailboxOutRead_keyless (hpath : mbxPath ch = some p) (hkey : mbxKey ch = none) :
    execMailboxOutRead p ch s = .next ((s.mbxOut ch).2.send (.reply p 0x2000204 (s.mbxOut ch).1)) := by
  simp [execMailboxOutRead, hpath, hkey]

theorem execMailboxOutRead_keyed (hpath : mbxPath ch = some p) (hkey : mbxKey ch = some k) :
    execMailboxOutRead p ch s =
      .next (s.readGate p (k + 4) (fun s => (s.mbxOut ch).2.send (.reply p (k + 4) (s.mbxOut ch).1))) := by
  simp [execMailboxOutRead, hpath, hkey]

theorem execRetract_keyed (hpath : mbxPath ch = some p) (hkey : mbxKey ch = some k) (hw : Writable s p (k + 12)) :
    execRetract p ch s = .next (s.retract ch) := by
  simp only [execRetract, hkey, if_pos hpath]
  exact hw.gateAction_acts _

theorem execFirmwareInRead_full {ws : List Word} (hup : s.lkUp 0 = true) (hfull : (s.mbx ch).inFull = true)
    (hroom : (s.mbx ch).inbox.length < 512) (hws : ws = (s.mbx ch).inbox ++ [(s.mbx ch).inWord]) :
    execFirmwareInRead ch s =
      .next ((s.updMbx ch (fun m => { m with inFull := false, inWord := 0, inbox := dropOther ws.length ws })).mbxIrq ch true) := by
  subst hws
  exact if_neg (by simp [hup, hfull, hroom])

theorem execFirmwareOutWrite_empty {ws : List Word} (hup : s.lkUp 0 = true) (hbox : (s.mbx ch).outbox = w :: ws)
    (hempty : (s.mbx ch).outFull = false) :
    execFirmwareOutWrite ch s =
      .next (((s.updMbx ch (fun m => { m with outFull := true, outWord := w, outbox := ws })).mbxIrq ch false).wakeCause 3) := by
  simp only [execFirmwareOutWrite, hbox]
  exact if_neg (by simp [hup, hempty])

end Machine
end Sys2Proof
end

section
namespace Sys2Proof
namespace Machine

/-- Settles O53: by whether IN is full, and by the bank of the channel. -/
theorem fullMailboxDropsTheWrite : Obligations.FullMailboxDropsTheWrite := by
  unfold Obligations.FullMailboxDropsTheWrite
  refine ⟨?full, ?free⟩
  case full =>
    intro s p ch w k hpath hkey hw hfull
    refine ⟨_, execMailboxInWrite_keyed hpath hkey hw, ?_⟩
    rcases mbxKey_eq_some hkey with ⟨c, hc⟩ | ⟨c, hc⟩
    · rw [hc] at hfull ⊢
      rw [State.mbxIn_full_nonsecure c w hfull]
      obtain ⟨hfw, hcount, hlost⟩ := s.put_raiseInst_mailbox (R.NS_STAT.IN_LOST c) c (Nat.le_trans (by decide) (Nat.le_add_right 0x2000208 _)) (by simp)
      refine ⟨State.mbx_of_fw hfw _, hcount, fun d hd => ?_, fun d hd => by omega⟩
      exact Fin.ext hd ▸ hlost
    · rw [hc] at hfull ⊢
      rw [State.mbxIn_full_secure c w hfull]
      obtain ⟨hfw, hcount, hlost⟩ := s.put_raiseInst_mailbox (R.S_STAT.IN_LOST c) (8 + c) (Nat.le_trans (by decide) (Nat.le_add_right 0x3000008 _)) (by simp)
      refine ⟨State.mbx_of_fw hfw _, hcount, fun d hd => by omega, fun d hd => ?_⟩
      exact Fin.ext (Nat.add_left_cancel hd) ▸ hlost
  case free =>
    intro s p ch w k hpath hkey hw hfree
    exact (execMailboxInWrite_keyed hpath hkey hw).trans (congrArg _ (State.mbxIn_free w hfree))

end Machine
end Sys2Proof
end

section
/-!
The boot of LK0, the firmware's start, the watchdogs, the activation's time limit and staging (R585–R594).
-/

namespace Sys2Proof
namespace Machine

variable {s : State} {p : Path}

/-- R586: what LK0 has done when its boot chooses a slot by the straps. -/
def State.bootStarted (s : State) (part : Option FlashPart) : State :=
  (((s.flashed part).deviceReset.holdMemory).put (R.LK_STATUS.STATE 0) 1).put R.LK_BOOT.STRAP_BOOT (s.get R.GLOBAL_STRAPS.BOOT)

theorem execBoot_started (part : Option FlashPart) (hreset : s.lkState 0 = 0) :
    execBoot part s = .next (if s.get R.GLOBAL_STRAPS.BOOT = 3 then (s.bootStarted part).bootRecovery
      else if s.get R.GLOBAL_STRAPS.BOOT = 0 then (s.bootStarted part).bootByRecord
      else (s.bootStarted part).bootForced (s.get R.GLOBAL_STRAPS.BOOT - 1)) :=
  if_neg (not_not_intro hreset)

theorem execFirmwareReady_starts (hstate : s.lkState 0 = 1) (hrec : s.on R.LK_BOOT.RECOVERY = false) :
    execFirmwareReady s = .next s.firmwareStarts :=
  (if_neg (not_not_intro hstate)).trans (if_neg (by simp [hrec]))

theorem execFirmwareReady_recovers (hstate : s.lkState 0 = 1) (hrec : s.on R.LK_BOOT.RECOVERY = true) :
    execFirmwareReady s = .next { s with fw := { s.fw with recovered := true } } :=
  (if_neg (not_not_intro hstate)).trans (if_pos hrec)

/-- R594: the expiries of the last hour. -/
def State.wdogPast (s : State) (k : Nat) : List Nat :=
  ((SMap.find? s.fw.wdog k).getD []).filter (fun t => decide (s.ns < t + 3600000000000))

/-- R594: the restart that an expiry brings, recorded. -/
def State.wdogRestart (s : State) (k : Fin 4) : State :=
  let u := ((s.raiseInst 483 k).lkRestart k).satInc (R.LK_STATUS.WDOG k)
  { u with fw := { u.fw with wdog := SMap.put u.fw.wdog k.val (u.ns :: s.wdogPast k), lk0Wd := u.fw.lk0Wd || k.val == 0 } }

theorem execWatchdogExpiry_up (k : Fin 4) (hup : s.lkState k = 2) :
    execWatchdogExpiry k s = if 2 ≤ (s.wdogPast k).length then
      .next (((s.wdogRestart k).put (R.LK_STATUS.STATE k) 4).raiseInst 484 k) else .next (s.wdogRestart k) :=
  if_neg (fun h => h.1 hup)

/-- R592: an activation whose lock-keeper did not start in 50 ms rolls back. -/
def State.rollback (s : State) (k : Fin 4) (a : Activation) : State :=
  let u := { s with fw := { s.fw with act := some { a with since := s.ns, rolling := true } } }
  if a.rolling = true then u else (u.put R.LK_BOOT.ACT 2).raiseInst 485 k

theorem execLkRestartTimeout_due {k : Fin 4} {a : Activation} (ha : s.fw.act = some a) (hcur : a.current = k)
    (hdue : a.since + 50000000 ≤ s.ns) (hstate : s.lkState k = 3 ∨ s.lkState k = 4) :
    execLkRestartTimeout k s = .next (if (s.rollback k a).lkState k = 4 then
      (s.rollback k a).activationStep { a with since := s.ns, rolling := true } else s.rollback k a) := by
  have hgo : ¬ (a.current ≠ k ∨ (s.lkState k ≠ 3 ∧ s.lkState k ≠ 4) ∨ s.ns < a.since + 50000000) := by
    rintro (hk | ⟨h3, h4⟩ | hns)
    · exact hk hcur
    · exact hstate.elim h3 h4
    · omega
  simp only [execLkRestartTimeout, ha, if_neg hgo, State.rollback]

section
variable {img : FwImage} {fl : Bool} (hfetch : s.get R.FWS_STATUS.STATE = 1) (hserves : s.lk0Serves = true)
include hfetch hserves

variable {t v : State} (ht : t = s.readDone 1 s.stagingAddr (s.get R.FWS_LEN.LEN))
include ht

theorem execStagingDone_unfetched (hbad : t.fw.fetchBad = true) : execStagingDone img fl s = .next (t.stagingFails 2) := by
  subst ht
  exact (if_neg (by simp [hfetch, hserves])).trans (if_pos hbad)

/-- R590: an image with a fault is reported, and not staged. -/
theorem execStagingDone_faulty (hgood : t.fw.fetchBad = false) (hfault : img.fault t.fw.minSvn ≠ 0) :
    execStagingDone img fl s = .next (t.stagingFails (img.fault t.fw.minSvn)) := by
  subst ht
  exact (if_neg (by simp [hfetch, hserves])).trans ((if_neg (by simp [hgood])).trans (if_pos hfault))

variable (hv : v = t.put R.FWS_VER.VERSION img.version) (hgood : t.fw.fetchBad = false) (hclean : img.fault t.fw.minSvn = 0)
include hv hgood hclean

/-- R590, R591: VERIFY stages a good image. -/
theorem execStagingDone_verified (hop : v.fw.stageOp = 0) :
    execStagingDone img fl s = .next
      (((State.put { v with fw := { v.fw with staged := some img } } R.FWS_STATUS.STATE 4).put R.FWS_STATUS.RESULT 0).irq 133) := by
  subst hv ht
  refine (if_neg (by simp [hfetch, hserves])).trans ((if_neg (by simp [hgood])).trans ((if_neg (not_not_intro hclean)).trans ?_))
  exact (if_neg (by rw [hop]; decide)).trans (if_neg (by rw [hop]; decide))

/-- R590, R591: RUN starts it. -/
theorem execStagingDone_run (hop : v.fw.stageOp = 2) :
    execStagingDone img fl s = .next
      ((((State.firmwareStarts { v with fw := { v.fw with staged := some img, image := some img } }).put R.FWS_STATUS.STATE 4).put
        R.FWS_STATUS.RESULT 0).irq 133) := by
  subst hv ht
  refine (if_neg (by simp [hfetch, hserves])).trans ((if_neg (by simp [hgood])).trans ((if_neg (not_not_intro hclean)).trans ?_))
  exact (if_neg (by rw [hop]; decide)).trans (if_pos hop)

end

end Machine
end Sys2Proof
end

section
namespace Sys2Proof
namespace Machine

/-- Settles O33: each command under its conditions, an expiry by how many came before it, a restart's time limit by the lock-keeper's state. -/
theorem mailboxAndBootCommandsAct : Obligations.MailboxAndBootCommandsAct := by
  unfold Obligations.MailboxAndBootCommandsAct
  refine ⟨?boot, fun _ _ _ _ => execMailboxInWrite_keyless, fun _ _ _ _ _ => execMailboxInWrite_keyed,
    fun _ _ _ => execMailboxOutRead_keyless, fun _ _ _ _ => execMailboxOutRead_keyed, fun _ _ _ _ => execRetract_keyed,
    fun _ _ _ => execFirmwareInRead_full, fun _ _ _ _ => execFirmwareOutWrite_empty,
    fun _ hstate => ⟨execFirmwareReady_starts hstate, execFirmwareReady_recovers hstate⟩, ?watchdog, ?restart,
    fun _ _ hw => ⟨hw.gateAction_acts _, hw.gateAction_acts _, hw.gateAction_acts _⟩, ?staging, ?lkReady⟩
  case boot =>
    rintro s part _ hreset rfl
    have hboot := execBoot_started part hreset
    refine ⟨fun h => ?_, fun h => ?_, fun h => ?_, fun h => ?_⟩ <;> simpa [h, State.bootStarted] using hboot
  case watchdog =>
    rintro s k _ _ _ hup rfl rfl rfl
    have hexpiry := execWatchdogExpiry_up k hup
    exact ⟨fun hfew => hexpiry.trans (if_neg (Nat.not_le.mpr hfew)), fun hthird => hexpiry.trans (if_pos hthird)⟩
  case restart =>
    rintro s _ _ k a _ ha hcur hdue hstate rfl rfl rfl
    have htimeout := execLkRestartTimeout_due ha hcur hdue hstate
    exact ⟨fun h => htimeout.trans (congrArg _ (if_neg h)), fun h => htimeout.trans (congrArg _ (if_pos h))⟩
  case staging =>
    exact fun s t v img fl hfetch hserves ht hv => ⟨execStagingDone_unfetched hfetch hserves ht,
      execStagingDone_faulty hfetch hserves ht, execStagingDone_verified hfetch hserves ht hv,
      execStagingDone_run hfetch hserves ht hv⟩
  case lkReady =>
    rintro s k _ rfl hdown hup
    exact congrArg _ (if_pos (by simp [hdown, hup]))

end Machine
end Sys2Proof
end

section
/-!
The services of LK0's firmware (R605, R606, R649): what a request that waits first is answered.
-/

namespace Sys2Proof
namespace Machine

section
variable {s : State} {ch code tag : Nat} {data rest : List Word} (h : Asks s ch code tag data rest) {secure : Bool}
  {len : Nat → Bool} {act : List Word → State → Nat × List Word × State}
include h

/-- R605: the request is taken; a secure service on a non-secure channel is not permitted, a length it does not take is bad. -/
theorem Asks.serve_eq : s.serve ch code secure len act =
    if secure && ch < 8 then (askTaken s ch rest).reply ch code tag 3 []
    else if !len data.length then (askTaken s ch rest).reply ch code tag 2 []
    else (act data (askTaken s ch rest)).2.2.reply ch code tag (act data (askTaken s ch rest)).1
      (act data (askTaken s ch rest)).2.1 := by
  obtain ⟨hreq, hup, hfree⟩ := h
  simp only [State.serve, hreq]
  exact if_neg (by simp [hup, hfree])

theorem Asks.serve_notPermitted (hns : ch < 8) :
    s.serve ch code true len act = (askTaken s ch rest).reply ch code tag 3 [] :=
  h.serve_eq.trans (if_pos (by simp [hns]))

theorem Asks.serve_badLen (hch : secure = false ∨ 8 ≤ ch) (hlen : len data.length = false) :
    s.serve ch code secure len act = (askTaken s ch rest).reply ch code tag 2 [] :=
  h.serve_eq.trans ((if_neg (by rcases hch with hch | hch <;> simp [hch])).trans (if_pos (by simp [hlen])))

/-- Otherwise the service acts, and its answer is the reply. -/
theorem Asks.serve_acts {u t : State} {status : Nat} {answer : List Word} (hch : secure = false ∨ 8 ≤ ch)
    (hlen : len data.length = true) (hu : u = askTaken s ch rest) (hact : act data u = (status, answer, t)) :
    s.serve ch code secure len act = t.reply ch code tag status answer := by
  subst hu
  rw [h.serve_eq, if_neg (by rcases hch with hch | hch <;> simp [hch]), if_neg (by simp [hlen]), hact]

end

section
variable {s : State} {ch : Fin 16} {tag : Nat} {data rest : List Word} {u : State} (hu : u = askTaken s ch rest)
include hu

section
variable (h : Asks s ch 0x03 tag data rest)
include h

theorem execFwActivate_nonsecure (hns : ch.val < 8) : execFwActivate ch s = .next (u.reply ch 0x03 tag 3 []) := by
  obtain ⟨hreq, hup, hfree⟩ := h
  subst hu
  simp only [execFwActivate, hreq]
  exact (if_neg (by simp [hup, hfree])).trans (if_pos hns)

theorem execFwActivate_badLen (hsec : 8 ≤ ch.val) (hdata : data ≠ []) :
    execFwActivate ch s = .next (u.reply ch 0x03 tag 2 []) := by
  obtain ⟨hreq, hup, hfree⟩ := h
  subst hu
  simp only [execFwActivate, hreq]
  exact (if_neg (by simp [hup, hfree])).trans ((if_neg (by omega)).trans (if_pos (by simp [hdata])))

/-- R593: a staged image is activated from the first lock-keeper on that has not FAILED. -/
theorem execFwActivate_begins {v : State} {k : Nat} {todo : List Nat} (hsec : 8 ≤ ch.val) (hdata : data = [])
    (hpower : u.lowPower = false) (hact : u.fw.act = none) (hstate : u.get R.FWS_STATUS.STATE = 0 ∨ u.get R.FWS_STATUS.STATE = 4)
    (hstaged : u.fw.staged.isSome = true)
    (hv : v = (u.updMbx ch (fun m => { m with busy := some (0x03, tag) })).put R.LK_BOOT.ACT 1)
    (hlks : [3, 2, 1, 0].filter (fun k => v.lkState k != 4) = k :: todo) :
    execFwActivate ch s = .next
      ({ v with fw := { v.fw with act := some { channel := ch, current := k, since := v.ns, todo := todo } } }.lkRestart k) := by
  obtain ⟨hreq, hup, hfree⟩ := h
  have hidle : ¬ (u.lowPower = true ∨ u.fw.act.isSome = true ∨ u.get R.FWS_STATUS.STATE = 1 ∨ u.get R.FWS_STATUS.STATE = 2 ∨
      u.get R.FWS_STATUS.STATE = 3) := by
    simp only [hpower, hact]
    rcases hstate with hstate | hstate <;> simp [hstate]
  have hnone : ¬ u.fw.staged.isNone = true := by simpa [Option.isSome_iff_ne_none] using hstaged
  subst hu hv
  simp only [execFwActivate, hreq]
  refine (if_neg (by simp [hup, hfree])).trans ((if_neg (by omega)).trans ((if_neg (by simp [hdata])).trans ?_))
  refine (if_neg hidle).trans ((if_neg hnone).trans ?_)
  unfold askTaken at hlks ⊢
  rw [hlks]

end

theorem execUnknownService_unlisted {code : Nat} (h : Asks s ch code tag data rest) (hcode : code ∉ knownServices) :
    execUnknownService ch s = .next (u.reply ch code tag 1 []) := by
  simp only [execUnknownService, h.1]
  refine (if_neg (by simpa using hcode)).trans (congrArg _ ?_)
  exact h.serve_acts (.inl rfl) rfl hu rfl

theorem execFwCommit_inForce {r : BootRec} (h : Asks s ch 0x04 tag [] rest) (hsec : 8 ≤ ch.val) (hr : u.flash.inForce = some r) :
    execFwCommit ch s = .next (((u.writeRecord r.active 0 0).put R.LK_BOOT.TRIAL 0).reply ch 0x04 tag 0 []) := by
  refine congrArg _ (h.serve_acts (.inr hsec) rfl hu ?_)
  simp only [hr]

theorem execSvnCommit_noRecord (h : Asks s ch 0x05 tag [] rest) (hsec : 8 ≤ ch.val) (hr : u.flash.inForce = none) {m : Nat}
    (hm : m = max u.fw.minSvn ((u.fw.image.map FwImage.svn).getD 0)) :
    execSvnCommit ch s = .next (State.reply { u with fw := { u.fw with minSvn := m } } ch 0x05 tag 0 [mword m]) := by
  refine congrArg _ (h.serve_acts (.inr hsec) rfl hu ?_)
  simp only [hr, hm, Bool.false_eq_true, if_false]

theorem execCfgWrite_within {off w : Word} {ws : List Word} (h : Asks s ch 0x06 tag (off :: w :: ws) rest) (hsec : 8 ≤ ch.val)
    (hfits : off.toNat + ((w :: ws).flatMap (fun w => leBytes 4 w.toNat)).length ≤ 65536) :
    execCfgWrite ch s =
      .next ((u.writeConfig off.toNat ((w :: ws).flatMap (fun w => leBytes 4 w.toNat))).reply ch 0x06 tag 0 []) :=
  congrArg _ (h.serve_acts (.inr hsec) (by simp) hu (if_neg (Nat.not_lt.mpr hfits)))

theorem execLogRead_wanted {n : Word} (h : Asks s ch 0x08 tag [n] rest) (hpos : n.toNat ≠ 0) (hmax : n.toNat ≤ 63)
    {r : List Word × State} (hr : r = u.fresh.2.freshWords (4 * (u.fresh.1 % (n.toNat + 1)))) :
    execLogRead ch s = .next (r.2.reply ch 0x08 tag 0 r.1) := by
  subst hr
  exact congrArg _ (h.serve_acts (.inl rfl) rfl hu (if_neg (not_or.mpr ⟨hpos, Nat.not_lt.mpr hmax⟩)))

theorem execPnlOwner_set {v : Word} (h : Asks s ch 0x11 tag [v] rest) (hsec : 8 ≤ ch.val) (hv : v.toNat ≤ 1) :
    execPnlOwner ch s = .next ((u.put R.PNL_STATUS.OWNER v.toNat).reply ch 0x11 tag 0 []) :=
  congrArg _ (h.serve_acts (.inr hsec) rfl hu (if_neg (Nat.not_lt.mpr hv)))

theorem execPnlOwner_bad {v : Word} (h : Asks s ch 0x11 tag [v] rest) (hsec : 8 ≤ ch.val) (hv : 1 < v.toNat) :
    execPnlOwner ch s = .next (u.reply ch 0x11 tag 5 []) :=
  congrArg _ (h.serve_acts (.inr hsec) rfl hu (if_pos hv))

end

end Machine
end Sys2Proof
end

section
/-!
What a write of the configuration records leaves in the memories (R606; log entry 141 for the offset).
-/

namespace Sys2Proof
namespace Machine

/-- A string of bytes reads back where it was written. -/
theorem Mem.byte_writes_inside (d : Byte) (bs : List Byte) (m : Mem) (a i : Nat) (hi : i < bs.length) :
    Mem.byte d (Mem.writes d m a bs) (a + i) = bs.getD i d := by
  induction bs generalizing m a i with
  | nil => exact absurd hi (Nat.not_lt_zero i)
  | cons b bs ih =>
    cases i with
    | zero => exact (Mem.byte_writes_outside d bs _ (a + 1) a (.inl (by omega))).trans (Mem.byte_write_same d m a b)
    | succ i =>
      rw [show a + (i + 1) = a + 1 + i by omega]
      exact ih _ (a + 1) i (Nat.lt_of_succ_lt_succ hi)

end Machine
end Sys2Proof
end

section
namespace Sys2Proof
namespace Machine

/-- Settles O58: the service replaces the bytes from the offset on, and its reply changes a mailbox alone. -/
theorem configurationWritesTheirBytes : Obligations.ConfigurationWritesTheirBytes := by
  unfold Obligations.ConfigurationWritesTheirBytes
  rintro s ch tag rest off w ws bs hsec h rfl hfits
  exact ⟨_, execCfgWrite_within rfl h hsec hfits, fun a ha => Mem.byte_writes_outside _ _ _ _ a ha,
    fun i hi => Mem.byte_writes_inside _ _ _ _ i hi, rfl, rfl, rfl, rfl, rfl⟩

/-- Settles O32: each service acts on the request that is taken, and answers. -/
theorem firmwareServiceCommandsAct : Obligations.FirmwareServiceCommandsAct := by
  unfold Obligations.FirmwareServiceCommandsAct
  refine ⟨?version, ?health, ?activate, ?commit, ?svn, ?config, ?log, ?unknown, ?info, ?owner, ?blit, ?fill, ?push⟩
  case version => exact fun s ch tag rest u h hu => congrArg _ (h.serve_acts (.inl rfl) rfl hu rfl)
  case health => exact fun s ch tag rest u h hu => congrArg _ (h.serve_acts (.inl rfl) rfl hu rfl)
  case activate =>
    intro s ch tag data rest u h hu
    refine ⟨execFwActivate_nonsecure hu h, execFwActivate_badLen hu h, fun hsec hdata hpower hact hstate hstaged k todo => ?_⟩
    exact ⟨_, _, rfl, rfl, execFwActivate_begins hu h hsec hdata hpower hact hstate hstaged rfl⟩
  case commit =>
    rintro s ch tag data rest u h hu
    refine ⟨fun hns => ?_, fun hsec hdata => ?_, ?_⟩
    · exact hu ▸ congrArg _ (h.serve_notPermitted hns)
    · exact hu ▸ congrArg _ (h.serve_badLen (.inr hsec) (by simpa using hdata))
    · rintro r hsec rfl hr
      exact execFwCommit_inForce hu h hsec hr
  case svn => exact fun s ch tag rest u hsec h hu hr => ⟨_, rfl, execSvnCommit_noRecord hu h hsec hr rfl⟩
  case config => exact fun s ch tag rest off w ws u hsec h hu => execCfgWrite_within hu h hsec
  case log => exact fun s ch tag rest n u h hu hpos hmax => ⟨_, rfl, execLogRead_wanted hu h hpos hmax rfl⟩
  case unknown => exact fun s ch code tag data rest h => execUnknownService_unlisted rfl h
  case info => exact fun s ch tag rest u hsec h hu => congrArg _ (h.serve_acts (.inr hsec) rfl hu rfl)
  case owner => exact fun s ch tag rest v u hsec h hu => ⟨execPnlOwner_set hu h hsec, execPnlOwner_bad hu h hsec⟩
  case blit =>
    intro s ch tag data rest u hsec h hu hsize hlen
    refine ⟨_, rfl, ?_⟩
    simp only [exec_pnlBlit, execPnlBlit, h.1]
    exact congrArg _ (h.serve_acts (.inr hsec) (by simp [hsize, hlen]) hu rfl)
  case fill => exact fun s ch tag a b v rest u hsec h hu => ⟨_, rfl, congrArg _ (h.serve_acts (.inr hsec) rfl hu rfl)⟩
  case push =>
    intro s ch tag rest u hsec h hu hcan hcan'
    refine (if_neg (by simp [hcan])).trans (congrArg _ (h.serve_acts (.inr hsec) rfl hu ?_))
    exact if_pos hcan'

end Machine
end Sys2Proof
end

section
/-!
The display heads and the panel (R633–R639, R643, R646–R648; log entry 97 for the unplug and the EDID's bytes).
-/

namespace Sys2Proof
namespace Machine

variable {s u : State} {p : Path} {h : Fin 2}

/-- HPD stands apart from a head's state. -/
theorem State.headState_put_hpd (s : State) (h v : Nat) : (s.put (R.DISP_STATUS.HPD h) v).headState h = s.headState h :=
  State.get_put_other s (R.DISP_STATUS.HPD h) (R.DISP_STATUS.STATE h) v (by simp) (.inr (.inl (by simp)))

theorem execHpdPlug_waiting (hstate : s.headState h = 1) :
    execHpdPlug h s = .next ((s.put (R.DISP_STATUS.HPD h) 1).trainHead h) :=
  congrArg _ (if_pos ((s.headState_put_hpd h 1).trans hstate))

theorem execHpdUnplug_running (hstate : s.headState h = 3) :
    execHpdUnplug h s = .next (((s.put (R.DISP_STATUS.HPD h) 0).updHead h (fun x => { x with sink := none })).setHead h 1) :=
  congrArg _ (if_pos ((s.headState_put_hpd h 0).trans hstate))

section
variable {rate lanes : Fin 5} {l : Nat} (hstate : s.headState h = 2) (hup : s.lkUp 3 = true)
  (hu : u = s.updHead h (fun x => { x with sink := some (rate.val, lanes.val) }))
  (hl : dpLanes (u.headGet h (R.DISP_PCLK.PCLK_KHZ h)) rate lanes = some l)
include hstate hup hu hl

/-- R634, R635: the end of a training whose sink can carry the mode on `l` lanes. -/
theorem execDispTrainingDone_eq (ok : Bool) : execDispTrainingDone h rate lanes ok s =
    if ok then .next ((((u.setHead h 3).put (R.DISP_STATUS.LANES h) (if l = 4 then 3 else l)).put
      (R.DISP_STATUS.RATE h) rate).updHead h (fun x => { x with attempts := 0, line := none }))
    else if 2 ≤ (u.head h).attempts then .next (u.headFails h)
    else .next (u.updHead h (fun x => { x with attempts := x.attempts + 1 })) := by
  subst hu
  refine (if_neg (by simp [hstate, hup])).trans ?_
  dsimp only
  rw [hl]

end

/-- R636: a head at the start of its blanking: no line has been sent yet, or all of them have. -/
theorem execVerticalBlankingStart_due (hstate : s.headState h = 3)
    (hline : (s.head h).line = none ∨ (s.head h).line = some (s.activeLines h)) :
    execVerticalBlankingStart h s =
      if (s.blankingBegins h).on (R.DISP_STATUS.COMMIT_PEND h) then
        if ((s.blankingBegins h).copyShadow h).1 then
          .next ({ ((s.blankingBegins h).copyShadow h).2 with
            pixelLock := ((s.blankingBegins h).copyShadow h).2.pixelLock.filter (fun x => x != h.val) }.setHead h 4)
        else .next (((s.blankingBegins h).copyShadow h).2.beginFrame h)
      else .next ((s.blankingBegins h).beginFrame h) := by
  refine if_neg ?_
  rcases hline with hline | hline <;> simp [hstate, hline]

theorem execActiveLineStart_line {y : Nat} (supplied : Fin 3841) (hstate : s.headState h = 3) (hline : (s.head h).line = some y)
    (hy : y < s.activeLines h) : execActiveLineStart h supplied s = .next (s.sendLine h y supplied) := by
  simp only [execActiveLineStart, hline]
  exact if_neg (by simp [hstate, hy])

section
variable {ring index : Nat} {o : Order} (ho : s.order? (ring, index) = some o) (hop : o.opcode = 0x0F01)
  (hphase : o.phase ≠ .cancelling)
include ho hop hphase

/-- R646: 16 bytes of the EDID go to the host, until all that the order wants have gone. -/
theorem execAuxTransactionDone_answered (bs : List Byte)
    (hu : u = (s.writeHost (o.u 24 8 + o.done) (overlay (List.replicate 16 0#8) 0 (bs.take 16)) []).updOrder o.ref
      (fun x => { x with phase := .running, done := o.done + 16, aux := 0 })) :
    execAuxTransactionDone ring index (some bs) s =
      if 128 * o.u 18 1 ≤ o.done + 16 then .next (u.edidEnd o stOk (o.done + 16)) else .next u := by
  subst hu
  simp only [execAuxTransactionDone, ho]
  exact (if_neg (not_not_intro hop)).trans (if_neg hphase)

/-- R646: without an answer the transaction is tried again, three times. -/
theorem execAuxTransactionDone_unanswered : execAuxTransactionDone ring index none s =
    if 3 ≤ o.aux then .next (s.edidEnd o 0x2E o.done) else .next (s.updOrder o.ref (fun o => { o with aux := o.aux + 1 })) := by
  simp only [execAuxTransactionDone, ho]
  exact (if_neg (not_not_intro hop)).trans (if_neg hphase)

end

theorem execPnlEnable_mgmt (w : Word) (hw : Writable s .mgmt R.PNL_CFG) : execPnlEnable .mgmt w s = .next (s.writePnlCfg w) := by
  rw [execPnlEnable, if_neg (not_not_intro rfl)]
  exact hw.gateAction_acts _

section
variable {id : Word} (hstate : s.pnlState = 1) (hup : s.lkUp 3 = true) (hdue : s.panel.since + 240010000 ≤ s.ns)
  (hu : u = ((s.send (.frame 6 0 [0x11#8])).send (.frame 6 0 [0x3A#8])).send (.frame 6 0 [0x04#8]))
include hstate hup hdue hu

/-- R647: the panel has answered the sequence with its ID. -/
theorem execPnlInitComplete_answered : execPnlInitComplete id s =
    if id = 0 ∨ id = 0xFFFFFFFF#32 then .next ((u.put R.PNL_STATUS.STATE 3).raiseInst 452 0)
    else .next (((u.send (.frame 6 0 [0x29#8])).put R.PNL_STATUS.STATE 2).pnlAllDirty.pnlPush) := by
  subst hu
  exact if_neg (by simp [hstate, hup, hdue])

end

theorem execPnlPushTimer_due (hperiod : s.get R.PNL_PERIOD.PERIOD_MS ≠ 0) (hcan : s.pnlCanPush = true)
    (hdue : s.panel.since + 1000000 * s.get R.PNL_PERIOD.PERIOD_MS ≤ s.ns) : execPnlPushTimer s = .next s.pnlPush :=
  if_neg (by simp [hperiod, hcan, hdue])

end Machine
end Sys2Proof
end

section
namespace Sys2Proof
namespace Machine

/-- Settles O34: a training's end by its outcome, a blanking's start by the commit that waits, an AUX answer by what has come. -/
theorem displayCommandsAct : Obligations.DisplayCommandsAct := by
  unfold Obligations.DisplayCommandsAct
  refine ⟨fun _ _ _ _ hw => ⟨hw.gate_acts _ _, hw.gateAction_acts _⟩, fun _ _ => execHpdPlug_waiting,
    fun _ _ _ hstate => ⟨execHpdUnplug_running hstate, congrArg _ (if_pos ⟨hstate, rfl⟩)⟩, ?training, ?blanking, ?frameEnd,
    fun _ _ supplied _ => execActiveLineStart_line supplied, ?edid, fun _ => execPnlEnable_mgmt, ?panelInit,
    fun _ => execPnlPushTimer_due⟩
  case training =>
    intro s h rate lanes l u hstate hup hu hl
    have hdone := execDispTrainingDone_eq hstate hup hu hl
    exact ⟨hdone true, fun hfew => (hdone false).trans (if_neg (Nat.not_le.mpr hfew)), fun hmany => (hdone false).trans (if_pos hmany)⟩
  case blanking =>
    rintro s h _ hstate hline rfl
    have hblank := execVerticalBlankingStart_due hstate (.inl hline)
    exact ⟨fun hno => hblank.trans (if_neg (by simp [hno])),
      fun hpend hsame => (hblank.trans (if_pos hpend)).trans (if_neg (by simp [hsame]))⟩
  case frameEnd =>
    exact fun s h hstate hline hno => (execVerticalBlankingStart_due hstate (.inr hline)).trans (if_neg (by simp [hno]))
  case edid =>
    intro s ring index o bs u ho hop hphase hu
    have hanswer := execAuxTransactionDone_answered ho hop hphase bs hu
    have hsilent := execAuxTransactionDone_unanswered ho hop hphase
    exact ⟨fun hmore => hanswer.trans (if_neg (Nat.not_le.mpr hmore)), fun hall => hanswer.trans (if_pos hall),
      fun hfew => hsilent.trans (if_neg (Nat.not_le.mpr hfew)), fun hmany => hsilent.trans (if_pos hmany)⟩
  case panelInit =>
    intro s id u hstate hup hdue hu
    have hinit := execPnlInitComplete_answered (id := id) hstate hup hdue hu
    exact ⟨fun h0 => hinit.trans (if_pos (.inl h0)), fun h0 h1 => hinit.trans (if_neg (not_or.mpr ⟨h0, h1⟩))⟩

end Machine
end Sys2Proof
end

section
/-!
What a head's line is composed and counted from stays as it is while the reams' copies for the heads are made (R185, R638, R639).
-/

namespace Sys2Proof
namespace Machine

/-- A head's active registers, its UNDERRUN count and the count of DISP_UNDERRUN are in `t` as in `s`. -/
structure State.SameScan (h : Fin 2) (s t : State) : Prop where
  active : (t.head h).active = (s.head h).active
  underrun : t.get (R.DISP_ERR.UNDERRUN h) = s.get (R.DISP_ERR.UNDERRUN h)
  count : t.get (R.EV_CNT.COUNT 451) = s.get (R.EV_CNT.COUNT 451)

section
variable {h : Fin 2} {m : Nat}

theorem State.SameScan.refl (s : State) : s.SameScan h s := ⟨rfl, rfl, rfl⟩

theorem State.SameScan.trans {a b c : State} (hab : a.SameScan h b) (hbc : b.SameScan h c) : a.SameScan h c :=
  ⟨hbc.active.trans hab.active, hbc.underrun.trans hab.underrun, hbc.count.trans hab.count⟩

theorem State.SameScan.headGet {s t : State} (hst : s.SameScan h t) (f : Field) : t.headGet h f = s.headGet h f := by
  rw [State.headGet, hst.active, State.headGet]

theorem State.sameScan_ite {c : Prop} [Decidable c] {s a b : State} (ha : s.SameScan h a) (hb : s.SameScan h b) :
    s.SameScan h (if c then a else b) := by
  split
  · exact ha
  · exact hb

theorem State.foldl_sameScan {β : Type} {f : State → β → State} (l : List β) (hf : ∀ b ∈ l, ∀ x : State, x.SameScan h (f x b))
    (s : State) : s.SameScan h (l.foldl f s) := by
  induction l generalizing s with
  | nil => exact .refl s
  | cons b l ih => exact (hf b (by simp) s).trans (ih (fun c hc => hf c (by simp [hc])) (f s b))

theorem State.head_put (s : State) (f : Field) (v g : Nat) : (s.put f v).head g = s.head g := rfl

theorem State.updReam_sameScan (s : State) (m : Nat) (f : Ream → Ream) : s.SameScan h (s.updReam m f) := ⟨rfl, rfl, rfl⟩

theorem State.updHead_sameScan (s : State) (g : Nat) (f : Head → Head) (hf : (f (s.head g)).active = (s.head g).active) :
    s.SameScan h (s.updHead g f) := by
  refine ⟨?_, rfl, rfl⟩
  by_cases hg : h.val = g
  · simp [State.head, State.updHead, hg] at hf ⊢
    exact hf
  · simp [State.head, State.updHead, SMap.find?_put_other _ _ _ _ hg]

/-- A field of another register than the two counts. -/
theorem State.put_sameScan (s : State) (f : Field) (v : Nat) (herr : R.DISP_ERR h ≠ f.key) (hcnt : R.EV_CNT 451 ≠ f.key) :
    s.SameScan h (s.put f v) :=
  ⟨rfl, State.get_put_ne s f (R.DISP_ERR.UNDERRUN h) v herr, State.get_put_ne s f (R.EV_CNT.COUNT 451) v hcnt⟩

/-- STALE shares UNDERRUN's register. -/
theorem State.put_stale_sameScan (s : State) (g : Fin 2) (v : Nat) : s.SameScan h (s.put (R.DISP_ERR.STALE g) v) := by
  have hcnt : R.EV_CNT 451 ≠ R.DISP_ERR g := by
    simp only [R.EV_CNT, R.DISP_ERR]
    omega
  exact ⟨congrArg _ (s.head_put _ v h), State.get_put_other s (R.DISP_ERR.STALE g) (R.DISP_ERR.UNDERRUN h) v (by simp) (.inr (.inl (by simp))),
    State.get_put_ne s (R.DISP_ERR.STALE g) (R.EV_CNT.COUNT 451) v hcnt⟩

theorem State.Rest.heads {s t : State} (h : s.Rest t) : t.heads = s.heads := by
  rw [← h.eq]

theorem State.dispErr_lt (h : Fin 2) : R.DISP_ERR h < 0x130000 := by
  simp only [R.DISP_ERR]
  omega

theorem State.raise_sameScan (s : State) (src inst info : Nat) (hsrc : src ≠ 451) : s.SameScan h (s.raise src inst info) := by
  have herr := State.dispErr_lt h
  have hlow : 0x110024 ≤ R.DISP_ERR h := Nat.le_add_right _ _
  refine ⟨?_, ?_, ?_⟩
  · rw [State.head, (State.raise_rest s src inst info 0).heads, State.head]
  · refine State.get_raise _ _ _ _ _ _ ?_ ?_ ?_ <;> simp only [R.EV_CNT, R.EV_ROOT, R.GLOBAL_PWRSTAT] <;> omega
  · refine State.get_raise _ _ _ _ _ _ ?_ (by decide) (by decide)
    simp only [R.EV_CNT]
    omega

/-! The reams' side: hits moved home, decay, and the copies for the heads. -/

theorem State.flagSat_sameScan (s : State) (hm : m < 8) : s.SameScan h (s.flagRaise (R.REAM_STATUS.SAT_SEEN m) 64 m) := by
  refine State.sameScan_ite (.refl s) ((State.put_sameScan s _ 1 ?_ ?_).trans (State.raise_sameScan _ 64 m _ (by decide)))
  · simp only [R.REAM_STATUS, R.DISP_ERR]
    omega
  · simp only [R.REAM_STATUS, R.EV_CNT]
    omega

theorem State.addHome_sameScan (s : State) (hm : m < 8) (hits : List (Nat × Nat × Nat)) : s.SameScan h (s.addHome m hits) :=
  (State.updReam_sameScan s m _).trans (State.sameScan_ite (State.flagSat_sameScan _ hm) (.refl _))

theorem State.gatherHits_sameScan (s : State) (hm : m < 8) (c : Nat) : s.SameScan h (s.gatherHits m c) :=
  (State.updReam_sameScan s m _).trans (State.addHome_sameScan _ hm _)

theorem State.decayOnce_sameScan (s : State) (hm : m < 8) : s.SameScan h (s.decayOnce m) := by
  unfold State.decayOnce
  exact (State.gatherHits_sameScan s hm _).trans (State.updReam_sameScan _ m _)

theorem State.decayTo_sameScan (s : State) (hm : m < 8) (c fuel : Nat) : s.SameScan h (s.decayTo m c fuel) := by
  induction fuel generalizing s with
  | zero => exact .refl s
  | succ fuel ih => exact State.sameScan_ite ((s.decayOnce_sameScan hm).trans (ih _)) (.refl s)

theorem State.homeAt_sameScan (s : State) (hm : m < 8) (c : Nat) : s.SameScan h (s.homeAt m c) :=
  (State.decayTo_sameScan s hm c _).trans (State.gatherHits_sameScan _ hm c)

theorem State.headView_sameScan (s : State) (hm : m < 8) (d : Nat × Nat) : s.SameScan h (s.headView m d) := by
  have hhome := (State.homeAt_sameScan (h := h) s hm d.1).trans
    (State.updReam_sameScan _ m (fun r => { r with dcuts := r.dcuts.filter (fun x => x != d) }))
  unfold State.headView
  dsimp only
  split
  · exact hhome.trans (State.updHead_sameScan _ _ _ rfl)
  · exact hhome

theorem State.settleTo_sameScan (s : State) (hm : m < 8) (c : Nat) : s.SameScan h (s.settleTo m c) :=
  (State.foldl_sameScan _ (fun d _ x => State.headView_sameScan x hm d) s).trans (State.homeAt_sameScan _ hm c)

theorem State.viewsDue_sameScan (s : State) (hm : m < 8) : s.SameScan h (s.viewsDue m) :=
  State.foldl_sameScan _ (fun _ _ x => State.sameScan_ite (State.settleTo_sameScan x hm _) (.refl x)) s

theorem State.viewNeeded_sameScan (s : State) (g : Fin 2) : s.SameScan h (s.viewNeeded g) :=
  State.foldl_sameScan _ (fun m hm x => (State.viewsDue_sameScan x (List.mem_range.mp hm)).trans
    (State.sameScan_ite ((State.updReam_sameScan _ m _).trans (State.put_stale_sameScan _ g _)) (.refl _))) s

end

end Machine
end Sys2Proof
end

section
/-!
A line that is sent (R637, R639–R643): the pixels that the composer has not supplied, their count, and the line's place.
-/

namespace Sys2Proof
namespace Machine

variable {s : State} {h : Fin 2} {y : Nat}

/-- R642: a pixel not supplied in time shows BG. -/
theorem State.pixel_unsupplied {supplied x : Nat} (hx : supplied ≤ x) (h : Nat) :
    s.pixel h y supplied x = BitVec.ofNat 32 (s.headGet h (R.DISP_BG.BG h)) := if_pos hx

/-- The state in which the line is composed: the position shown, its event raised, the reams' views made. -/
def State.lineStarted (s : State) (h y : Nat) : State :=
  let s := s.put (R.DISP_POS.SCANLINE h) y
  let s := if bit (s.head h).ev 1 ∧ y = s.headGet h (R.DISP_LINE.LINE h) then s.headEvent 449 h else s
  if (List.range 4).any (fun p => s.headGet h (R.PL_CFG.KIND h p) == 1 && s.headGet h (R.PL_POS.Y h p) == y) then s.viewNeeded h else s

/-- R642: a line of which `supplied` pixels came in time counts an underrun when that is less than its width. -/
def State.underrunNoted (s : State) (h supplied : Nat) : State :=
  if supplied < s.headGet h (R.DISP_HTIM.HACTIVE h) then (s.satInc (R.DISP_ERR.UNDERRUN h)).raiseInst 451 h else s

theorem State.sendLine_eq (s : State) (h y supplied : Nat) : s.sendLine h y supplied =
    (((s.lineStarted h y).underrunNoted h supplied).send (.line h y ((List.range ((s.lineStarted h y).headGet h (R.DISP_HTIM.HACTIVE h))).map
      (fun x => ((s.lineStarted h y).underrunNoted h supplied).pixel h y supplied x)))).updHead h
        (fun x => { x with line := some (y + 1) }) := rfl

theorem State.lineStarted_sameScan (s : State) (h : Fin 2) (y : Nat) : s.SameScan h (s.lineStarted h y) := by
  have hpos : s.SameScan h (s.put (R.DISP_POS.SCANLINE h) y) := by
    refine State.put_sameScan s (R.DISP_POS.SCANLINE h) y ?_ ?_
    · simp only [R.DISP_ERR, R.DISP_POS]
      omega
    · simp only [R.EV_CNT, R.DISP_POS]
      omega
  exact (hpos.trans (State.sameScan_ite (State.raise_sameScan _ 449 h _ (by decide)) (.refl _))).trans
    (State.sameScan_ite (State.viewNeeded_sameScan _ h) (.refl _))

theorem State.underrunNoted_heads (s : State) (h supplied : Nat) : (s.underrunNoted h supplied).heads = s.heads := by
  unfold State.underrunNoted
  split
  · exact ((State.satInc_rest s _ 1).trans (State.raiseInst_rest _ _ _)).heads
  · rfl

theorem State.underrunNoted_headGet (s : State) (h supplied g : Nat) (f : Field) :
    (s.underrunNoted h supplied).headGet g f = s.headGet g f := by
  rw [State.headGet, State.head, s.underrunNoted_heads, State.headGet, State.head]

theorem State.get_satInc_same (s : State) (f : Field) (hf : f.lsb + f.width ≤ 32) :
    (s.satInc f).get f = satAdd f.width (s.get f) 1 := by
  refine State.get_put_fits _ _ _ hf ?_
  have hpos := Nat.two_pow_pos f.width
  unfold satAdd
  omega

/-- R642: both counts go up. -/
theorem State.underrunNoted_counts {supplied : Nat} (hshort : supplied < s.headGet h (R.DISP_HTIM.HACTIVE h)) :
    (s.underrunNoted h supplied).get (R.DISP_ERR.UNDERRUN h) =
        satAdd (R.DISP_ERR.UNDERRUN h).width (s.get (R.DISP_ERR.UNDERRUN h)) 1 ∧
      (s.underrunNoted h supplied).get (R.EV_CNT.COUNT 451) =
        satAdd (R.EV_CNT.COUNT 451).width (s.get (R.EV_CNT.COUNT 451)) 1 := by
  have herr := State.dispErr_lt h
  have hlow : 0x110024 ≤ R.DISP_ERR h := Nat.le_add_right _ _
  rw [State.underrunNoted, if_pos hshort]
  refine ⟨?_, ?_⟩
  · rw [State.get_raiseInst, State.get_satInc_same]
    · simp
    all_goals
      simp only [R.EV_CNT, R.EV_ROOT, R.GLOBAL_PWRSTAT]
      omega
  · refine (State.raise_count _ _ _ _ _ (by decide) (by decide)).trans (congrArg (satAdd _ · 1) (State.get_put_ne _ _ _ _ ?_))
    simp only [R.EV_CNT]
    omega

theorem State.head_updHead_same (s : State) (g : Nat) (f : Head → Head) : (s.updHead g f).head g = f (s.head g) := by
  simp [State.head, State.updHead]

/-- A line needs no leave to be sent, so none is held. -/
theorem State.line_mem_send (s : State) (h y : Nat) (px : List Word) : Sent.line h y px ∈ (s.send (.line h y px)).sent := by
  rw [State.send_sent_free _ _ rfl]
  exact List.mem_cons_self

end Machine
end Sys2Proof
end

section
namespace Sys2Proof
namespace Machine

/-- Settles O60: whatever the reams' views need, the line goes out whole with BG from the first missing pixel on. -/
theorem underrunShowsBackground : Obligations.UnderrunShowsBackground := by
  unfold Obligations.UnderrunShowsBackground
  rintro s h supplied y w hline hstate hy rfl
  have hscan := s.lineStarted_sameScan h y
  have hw := hscan.headGet (R.DISP_HTIM.HACTIVE h)
  refine ⟨fun t x hx => State.pixel_unsupplied hx h, _, _,
    (execActiveLineStart_line supplied hstate hline hy).trans (congrArg _ (s.sendLine_eq h y supplied)),
    State.line_mem_send _ h y _, ?width, ?place, ?background, ?counts⟩
  case width => rw [List.length_map, List.length_range, hw]
  case place => rw [State.head_updHead_same]
  case background =>
    intro x hx hxw
    rw [List.getElem?_map, List.getElem?_range (by rw [hw]; exact hxw), Option.map_some, State.pixel_unsupplied hx,
      State.underrunNoted_headGet, hscan.headGet]
  case counts =>
    intro hshort
    obtain ⟨herr, hcnt⟩ := State.underrunNoted_counts (s := s.lineStarted h y) (by rw [hw]; exact hshort)
    exact ⟨herr.trans (by rw [hscan.underrun]), hcnt.trans (by rw [hscan.count])⟩

end Machine
end Sys2Proof
end

section
/-!
The timekeeper's own events (R516, R523, R525, R529–R531), its gates (R543, R544, R546) and the beacons (R527, R549).
-/

namespace Sys2Proof
namespace Machine

variable {s : State} {t : Nat}

/-- R515: a tick for which no new INC waits. -/
theorem State.tick_sameInc (hinc : s.tk.newInc = none) :
    s.tick = { s with ticks := s.ticks + 1, tk := { s.tk with raw := s.tk.raw + s.tk.inc, adv := s.tk.adv + s.tk.inc, newInc := none } } := by
  unfold State.tick
  dsimp only
  rw [hinc]

theorem execFollowLostTimeout_following (hlost : s.kx.lostSince = some t) (hfollow : s.follows = true)
    (hstate : s.tkState = tkFollowing) (hdue : t + 100000 ≤ s.adv) :
    execFollowLostTimeout s = .next (s.put R.TIME_STATUS.STATE tkFollowLost).masterLost := by
  simp only [execFollowLostTimeout, hlost]
  exact if_pos ⟨hfollow, .inr hstate, hdue⟩

section
variable {g : Fin 32}

theorem execGateAnnounce_ahead {d : Int} (hen : s.on (R.TG_CTL.EN g) = true) (hannounced : (s.gateRun g).announced = none)
    (hhas : s.tgHas g (s.gateRun g).next = true) (hahead : s.tgAhead g = some d) (hd : d ≤ nsUnits 1000) :
    execGateAnnounce g s = .next ((s.updGate g (fun x => { x with
      next := (s.gateRun g).next + 1, announced := some (s.tgTime g (s.gateRun g).next),
      final := !s.tgHas g ((s.gateRun g).next + 1), woken := false })).sgGateStart g (s.tgTime g (s.gateRun g).next)) := by
  simp only [execGateAnnounce, hahead]
  exact (if_neg (by simp [hen, hannounced, hhas])).trans (if_pos hd)

/-- R544: an announced firing runs its consumers. -/
theorem execGateFiring_announced (hfiring : s.firingNow g = some t) (hannounced : (s.gateRun g).announced = some t) :
    execGateFiring g s = .next ((s.gateActs g t).tgFired g) := by
  simp [execGateFiring, hfiring, hannounced]

theorem execGateWake_announced (hwake : s.on (R.TG_CTL.WAKE g) = true) (hannounced : (s.gateRun g).announced = some t)
    (hwoken : (s.gateRun g).woken = false) :
    execGateWake g s = .next ((s.updGate g (fun x => { x with woken := true })).wakeCause 4) := by
  simp [execGateWake, hwake, hannounced, hwoken]

end

/-- R523: a due step of an order is applied and the order retired; one that sets an UNSET timekeeper makes it FREE. -/
theorem execStepTick_order {x : OrderRef × Int × Nat} {rest : List (OrderRef × Int × Nat)} {u v : State}
    (hstep : takeFirst (fun (x : OrderRef × Int × Nat) => decide (x.2.2 ≤ s.ticks)) s.tk.steps = some (x, rest))
    (hu : u = ({ s with tk := { s.tk with steps := rest } }.applyStep x.2.1))
    (hv : v = if (u.order? x.1).any (fun o => o.u 16 1 == 1) && u.tkState == tkUnset then u.put R.TIME_STATUS.STATE tkFree else u) :
    execStepTick s = .next (v.retireRef x.1 stOk [(32, leBytes 8 (wrap 64 x.2.1)), (40, time96Bytes v.time)]) := by
  subst hv hu
  simp only [execStepTick, hstep]

/-- R529: a follower applies a due step of its root. -/
theorem execStepTick_root {x : Nat × Int} {rest : List (Nat × Int)} (hfollow : s.follows = true)
    (hnone : takeFirst (fun (x : OrderRef × Int × Nat) => decide (x.2.2 ≤ s.ticks)) s.tk.steps = none)
    (hstep : takeFirst (fun (x : Nat × Int) => decide (x.1 ≤ s.time)) s.kx.rootSteps = some (x, rest)) :
    execStepTick s = .next ({ s with kx := { s.kx with rootSteps := rest, doneSteps := x :: s.kx.doneSteps } }.applyStep x.2) := by
  simp only [execStepTick, hnone, hstep]
  exact if_neg (by simp [hfollow])

theorem execTimeBeaconSend_due {b : KxBeacon} (hfollow : s.follows = false) (hdue : s.kx.lastBeacon + 10000 ≤ s.adv)
    (hb : b = { root := Fin.ofNat 262144 s.devid, entry := Fin.ofNat 16 s.slot, depart := BitVec.ofNat 96 (toTime96 s.time),
                inc := BitVec.ofNat 32 s.tk.inc, state := Fin.ofNat 8 s.tkState,
                steps := s.comingSteps.map (fun x => (BitVec.ofNat 96 (toTime96 x.1), x.2)) }) :
    execTimeBeaconSend [] s = .next ((s.kxBranches s.slot ++ [4, 5].filter (fun l => s.kxUp l)).foldl (fun s l => s.send (.beacon l b))
      { s with kx := { s.kx with lastBeacon := s.adv } }) := by
  subst hb
  exact if_neg (by simp [hfollow, hdue])

/-- R527: a well-formed beacon is passed on; a follower of its root follows it. -/
theorem execTimeBeaconReceived_heard {l : Fin 6} {b : KxBeacon} {sub : Fin 2621440} {roundTrip : Option Nat} {u v : State}
    (hup : s.kxUp l = true) (hdepart : time96Ok b.depart.toNat = true) (hsteps : b.steps.all (fun x => time96Ok x.1.toNat) = true)
    (hu : u = s.heardBeacon l b roundTrip) (hv : v = u.forwardBeacon l b) :
    execTimeBeaconReceived l b sub roundTrip none s = if v.follows && v.get R.TIME_ROOT.ROOT_ID == b.root.val then
      .next (v.followBeacon b ((((v.time + sub.val : Nat) : Int) - u.beaconSent l b) * 1000 / 65536) roundTrip.isSome) else .next v := by
  subst hv hu
  exact if_neg (by simp [hup, hdepart, hsteps])

end Machine
end Sys2Proof
end

section
namespace Sys2Proof
namespace Machine

/-- Settles O19: a due step by its order's kind, a beacon by whether the device follows its root. -/
theorem timekeeperCommandsAct : Obligations.TimekeeperCommandsAct := by
  unfold Obligations.TimekeeperCommandsAct
  refine ⟨fun s hinc => congrArg (fun t : State => Host.Outcome.next t.watchPower) (State.tick_sameInc hinc),
    fun _ _ w hw => hw.timeIncWrite w, fun _ _ _ hw => hw.gateAction_acts _, fun _ hstate hdue => if_pos ⟨hstate, hdue⟩,
    fun _ _ _ hw => hw.gateAction_acts _, fun _ _ => execFollowLostTimeout_following, fun _ _ _ _ hw => hw.gate_acts _ _,
    fun _ _ _ => execGateAnnounce_ahead, fun _ _ _ => execGateFiring_announced, fun _ _ _ => execGateWake_announced, ?orderStep,
    fun _ _ _ => execStepTick_root, fun _ _ => execTimeBeaconSend_due, ?beacon⟩
  case orderStep =>
    intro s x rest hstep
    refine ⟨_, rfl, fun hgone => ?_, fun o ho hadd => ?_, fun o ho hset hunset => ⟨_, rfl, ?_⟩⟩
    · exact execStepTick_order hstep rfl (if_neg (by simp [hgone])).symm
    · exact execStepTick_order hstep rfl (if_neg (by simp [ho, hadd])).symm
    · exact execStepTick_order hstep rfl (if_pos (by simp [ho, hset, hunset])).symm
  case beacon =>
    intro s l b sub roundTrip hup hdepart hsteps
    have hheard := execTimeBeaconReceived_heard (sub := sub) (roundTrip := roundTrip) hup hdepart hsteps rfl rfl
    exact ⟨_, _, rfl, rfl, fun hlead => hheard.trans (if_neg (by simp [hlead])),
      fun hfollow hroot => hheard.trans (if_pos (by simp [hfollow, hroot]))⟩

end Machine
end Sys2Proof
end

section
/-!
The probe lanes: training, HELLO, beacons and frames (R479–R491, R521).
-/

namespace Sys2Proof
namespace Machine

variable {s : State} {n : Fin 16}

theorem execProbeAdaptationDone_training (hup : s.lkUp 3 = true) (hstate : s.pState n = 1)
    (htime : s.ns ≤ (s.pLane n).trainSince + 20000000) :
    execProbeAdaptationDone n s = .next (s.put (R.PROBE_LANE.STATE n) 2) :=
  if_pos ⟨hup, hstate, htime⟩

theorem State.pState_put (s : State) (n v : Nat) (hv : v < 2 ^ 3) : (s.put (R.PROBE_LANE.STATE n) v).pState n = v :=
  State.get_put_fits s (R.PROBE_LANE.STATE n) v (by simp) hv

/-- R482: a lane that has sent its HELLO hears the other end's. -/
theorem execProbeHello_waiting (version : Fin 65536) (width : Fin 16) (pclk : Word) (hup : s.lkUp 3 = true) (hstate : s.pState n = 3) :
    execProbeHello n version width pclk s = if version.val = 1 ∧ width.val = s.groupWidth n % 16 then
        .next (((s.put (R.PROBE_LANE.STATE n) 4).put (R.PROBE_PEER.PCLK_PS n) pclk.toNat).updPLane n (fun x => { x with crcs := [], beaconAt := none }))
      else .next ((s.put (R.PROBE_LANE.STATE n) 5).raiseInst 320 n) :=
  if_neg (by simp [hstate, hup])

/-- R484: headers lost take an UP lane back to alignment. -/
theorem execProbeSyncLoss_headers (hstate : s.pState n = 4) :
    execProbeSyncLoss n true s = .next (((s.put (R.PROBE_LANE.STATE n) 2).raiseInst 321 n).laneLeft n) :=
  (if_neg (not_not_intro hstate)).trans (if_pos rfl)

/-- R484: errors over the limit train it again. -/
theorem execProbeSyncLoss_errors (hstate : s.pState n = 4) (hlim : s.get R.PROBE_CTL.ERR_LIMIT ≠ 0)
    (hmany : s.get R.PROBE_CTL.ERR_LIMIT < ((s.pLane n).crcs.filter (fun t => decide (s.adv < t + 1000000000))).length) :
    execProbeSyncLoss n false s = .next ((((s.trainLane n).satInc (R.PROBE_LANE.RETRAINS n)).raiseInst 321 n).laneLeft n) :=
  (if_neg (not_not_intro hstate)).trans ((if_neg Bool.false_ne_true).trans (if_pos ⟨hlim, hmany⟩))

section
variable (hnone : (s.pLane n).beaconAt = none)
include hnone

theorem execProbeBeacon_hello (hstate : s.pState n = 3) : execProbeBeacon n s = .next (s.sendHello n) := by
  simp only [execProbeBeacon, hnone]
  exact if_pos ⟨hstate, trivial⟩

theorem execProbeBeacon_up {t : State} (hstate : s.pState n = 4) (hidle : s.stimDue (s.probeGroupOf n) = false)
    (ht : t = s.sendOn (s.probeGroupOf n) n 0x02 0 0 (s.pLane n).delay s.time []) :
    execProbeBeacon n s = .next (t.updPLane n (fun x => { x with
      beaconAt := some t.adv
      beacons := (x.beacons ++ [((s.pGroup (s.probeGroupOf n)).tx, t.advU 0)]).drop (x.beacons.length - 63) })) := by
  subst ht
  simp only [execProbeBeacon, hnone]
  exact (if_neg (by simp [hstate])).trans (if_pos ⟨hstate, trivial, hidle⟩)

end

section
variable {f : ProbeFrame} {sub : Fin 2621440} {turn : Nat} (hstate : s.pState n = 4) (hstamp : time96Ok f.stamp.toNat = true)
include hstate hstamp

theorem execEchoFrame_unknown (hnone : (s.pLane n).beacons.find? (fun b => b.1 == f.word.toNat) = none) :
    execEchoFrame n f sub turn s = .next (s.rxFrame 0x03 n f) := by
  simp only [execEchoFrame, hnone]
  exact (if_neg (not_not_intro hstate)).trans (if_neg (by simp [hstamp]))

/-- R521: an echo of a beacon gives the lane's delay. -/
theorem execEchoFrame_known {b : Nat × Nat} (hsome : (s.pLane n).beacons.find? (fun b => b.1 == f.word.toNat) = some b) :
    execEchoFrame n f sub turn s = .next (State.rxFrame ((s.put (R.PROBE_LANE_DLY.DELAY n)
      (min ((toPs (s.advU sub - b.2) - turn) / 2) (2 ^ 32 - 1))).updPLane n (fun x => { x with
        delay := (toPs (s.advU sub - b.2) - turn) / 2 * 65536 / 1000, beacons := x.beacons.filter (fun y => y != b) })) 0x03 n f) := by
  simp only [execEchoFrame, hsome]
  exact (if_neg (not_not_intro hstate)).trans (if_neg (by simp [hstamp]))

end

end Machine
end Sys2Proof
end

section
namespace Sys2Proof
namespace Machine

/-- Settles O23: each event by the lane's state. -/
theorem probeLaneCommandsAct : Obligations.ProbeLaneCommandsAct := by
  unfold Obligations.ProbeLaneCommandsAct
  refine ⟨fun _ _ _ hw => hw.gate_acts _ _, fun _ _ _ _ hw => hw.gateField_acts _ _, fun _ _ _ _ hw => hw.gate_acts _ _,
    fun _ _ hstate hlate => if_pos ⟨hstate, hlate⟩, ?adapted, fun _ _ hup hstate => ?aligned, ?hello,
    fun _ _ hstate => ⟨execProbeSyncLoss_headers hstate, execProbeSyncLoss_errors hstate⟩, fun _ _ => ⟨rfl, rfl⟩,
    fun _ _ hstate hnone => execProbeBeacon_hello hnone hstate, fun _ _ hstate hnone hidle => execProbeBeacon_up hnone hstate hidle rfl,
    fun _ _ hlate => if_pos hlate, fun _ _ _ _ _ => execEchoFrame_unknown, fun _ _ _ _ _ _ hstate hstamp => execEchoFrame_known hstate hstamp,
    fun _ _ _ => ⟨rfl, rfl, rfl, rfl⟩⟩
  case adapted =>
    intro s n hup hstate htime
    exact ⟨_, execProbeAdaptationDone_training hup hstate htime, s.pState_put n 2 (by decide),
      State.put_onlyRegs _ (R.PROBE_LANE.STATE n) 2⟩
  case aligned =>
    exact if_pos ⟨hup, hstate⟩
  case hello =>
    intro s n width pclk hup hstate hwidth
    exact ⟨(execProbeHello_waiting 1 width pclk hup hstate).trans (if_pos ⟨rfl, hwidth⟩),
      (execProbeHello_waiting 2 width pclk hup hstate).trans (if_neg (by simp))⟩

end Machine
end Sys2Proof
end

section
/-!
The bridge ports, the egress generators and the subscriptions of the probe fabric (R490–R498).
-/

namespace Sys2Proof
namespace Machine

variable {s : State}

section
variable {b : Fin 8} {qb : QBarge} {g : Nat} {u : State} (hen : s.on (R.BP_CFG.EN b) = true) (hg : g = s.get (R.BP_CFG.GROUP b))
  (hup : s.groupUp g = true) (hidle : s.stimDue g = false) (hfront : s.frontBarge? (s.get (R.BP_CFG.QUEUE b)) = some qb)
  (hu : u = s.updBp b (fun x => { x with stream := some ((s.bp b).stream.getD qb.barge.stream) }))
include hen hg hup hidle hfront hu

/-- R491: a port carries one stream; a barge of another is dropped. -/
theorem execBridgeSend_otherStream (hother : qb.barge.stream ≠ (s.bp b).stream.getD qb.barge.stream) :
    execBridgeSend b s =
      .next (((u.freeCells qb.cells).updBp b (fun x => { x with pos := 0, fill := 0 })).raiseInst 324 b) := by
  subst hg hu
  simp only [execBridgeSend, hfront]
  exact (if_neg (by simp [hen, hup, hidle])).trans (if_pos hother)

variable (hsame : qb.barge.stream = (s.bp b).stream.getD qb.barge.stream)
include hsame

theorem execBridgeSend_mark (hmark : qb.barge.isMark = true) (hgap : qb.barge.format % 256 ≠ mkGap) :
    execBridgeSend b s =
      .next (((u.sendProbe g 0x23 0 (s.get (R.BP_CFG.CHAN b)) 0 qb.barge.stamp (headerBytes qb.barge)).freeCells qb.cells).updBp b
        (fun x => { x with pos := 0, fill := 0 })) := by
  subst hg hu
  simp only [execBridgeSend, hfront]
  refine (if_neg (by simp [hen, hup, hidle])).trans ((if_neg (not_not_intro hsame)).trans ?_)
  exact (if_neg (by simp [hgap])).trans (if_pos hmark)

/-- R493: a GAP that the port does not fill goes as a frame of its own. -/
theorem execBridgeSend_gap {n : Nat} (hmark : qb.barge.isMark = true) (hgap : qb.barge.format % 256 = mkGap)
    (hfill : s.on (R.BP_CFG.FILL b) = false) (hn : n = qb.barge.word48 / 2 ^ 32 % 2 ^ 32) :
    execBridgeSend b s =
      .next (((((u.sendProbe g 0x21 0 (s.get (R.BP_CFG.CHAN b)) (s.bp b).number qb.barge.stamp (leBytes 8 n)).updBp b
        (fun x => { x with number := x.number + n })).freeCells qb.cells).updBp b (fun x => { x with pos := 0, fill := 0 })).inc
        (R.BP_STAT.GAPF b)) := by
  have hnofill : u.on (R.BP_CFG.FILL b) = false := by rw [hu]; exact hfill
  subst hg hu hn
  simp only [execBridgeSend, hfront]
  refine (if_neg (by simp [hen, hup, hidle])).trans ((if_neg (not_not_intro hsame)).trans ?_)
  exact (if_pos (by simp [hmark, hgap])).trans (if_pos (by simp [hnofill]))

/-- R492: the samples of a barge that one frame holds go in it. -/
theorem execBridgeSend_samples {n fmt : Nat} (hmark : qb.barge.isMark = false) (htype : qb.barge.type = 1) (hpos : (s.bp b).pos = 0)
    (hn : n = qb.barge.word40 / 2 ^ 32) (hfmt : fmt = qb.barge.format % 256) (hsome : 0 < n) (hframe : n ≤ frameSamples fmt)
    (hroom : n ≤ (s.bp b).room) :
    execBridgeSend b s =
      .next ((((u.sendProbe g 0x20 fmt (s.get (R.BP_CFG.CHAN b)) qb.barge.word48 (qb.barge.stamp + u.sampleOffset qb.barge.source 0)
        (padTo8 ((qb.barge.payload.drop (sampleBytes fmt 0)).take (sampleBytes fmt n)))).updBp b (fun x => { x with
        fmt := some fmt, pos := x.pos + n, sent := (x.sent + n) % 2 ^ 64, number := qb.barge.word48 + x.pos + n })).freeCells qb.cells).updBp b
        (fun x => { x with pos := 0, fill := 0 })) := by
  have hall : min (min (n - 0) (frameSamples fmt)) (s.bp b).room = n := by omega
  subst hg hu
  simp only [execBridgeSend, hfront, hpos, ← hn, ← hfmt, hall]
  refine (if_neg (by simp [hen, hup, hidle])).trans ((if_neg (not_not_intro hsame)).trans ?_)
  refine (if_neg (by simp [hmark])).trans ((if_neg (by simp [hmark])).trans ((if_neg (not_not_intro htype)).trans ?_))
  refine (if_neg (by omega)).trans ((if_neg (by omega)).trans (congrArg _ ?_))
  exact if_pos (by omega)

end

section
variable {g : Fin 4} {n fmt : Nat} {xs : List (Int × Int)} {rest : List (Nat × Nat × List (Int × Int))} {u : State}
  (hout : (s.sg (g + 4)).out = (n, fmt, xs) :: rest) (hdue : s.sgBall (g + 4) n < s.time + nsUnits 40)
  (hu : u = s.updSg (g + 4) (fun x => { x with out := rest }))
include hout hdue hu

/-- R498: a granule over 1 µs late is dropped. -/
theorem execStimFrameSend_late (hlate : s.sgBall (g + 4) n + nsUnits 1000 < u.time) :
    execStimFrameSend g s = .next ((u.satInc (R.EG_STAT.DROPPED g)).raiseInst 325 (g + 4)) := by
  subst hu
  simp only [execStimFrameSend, hout]
  exact (if_neg (Nat.not_le.mpr hdue)).trans (if_pos (.inl hlate))

theorem execStimFrameSend_onTime (hlate : u.time ≤ s.sgBall (g + 4) n + nsUnits 1000)
    (hup : u.groupUp (u.get (R.EG_CFG.GROUP g)) = true) :
    execStimFrameSend g s = .next (u.sendProbe (u.get (R.EG_CFG.GROUP g)) 0x22 fmt (u.get (R.EG_CFG.CHAN g)) n
      (s.sgBall (g + 4) n + nsUnits (u.get (R.EG_CFG.LEAD_NS g))) (stimBytes fmt xs)) := by
  subst hu
  simp only [execStimFrameSend, hout]
  exact (if_neg (Nat.not_le.mpr hdue)).trans (if_neg (not_or.mpr ⟨Nat.not_lt.mpr hlate, by simp [hup]⟩))

end

theorem execSubAckTimeout_due {ring index : Nat} {x : ProbeSub} {rest : List ProbeSub}
    (hsub : takeFirst (fun x => x.order == (ring, index)) s.probe.subs = some (x, rest)) (hdue : x.sentAt + 10000000 ≤ s.adv) :
    execSubAckTimeout ring index s = .next ({ s with probe := { s.probe with subs := rest } }.retireRef x.order 0x29 []) := by
  simp only [execSubAckTimeout, hsub]
  exact if_pos hdue

end Machine
end Sys2Proof
end

section
namespace Sys2Proof
namespace Machine

/-- Settles O24: a bridge port by what stands in front of its queue, a granule by its ball time. -/
theorem probeBridgeCommandsAct : Obligations.ProbeBridgeCommandsAct := by
  unfold Obligations.ProbeBridgeCommandsAct
  refine ⟨fun _ _ hrows hsince => if_pos ⟨hrows, hsince⟩, ?bridge, fun _ _ _ _ hw => hw.gate_acts _ _, fun _ _ _ _ hw => hw.gate_acts _ _,
    fun _ _ _ _ _ _ hout hdue => ⟨_, rfl, execStimFrameSend_late hout hdue rfl, execStimFrameSend_onTime hout hdue rfl⟩,
    fun _ _ _ _ _ => execSubAckTimeout_due⟩
  case bridge =>
    intro s b qb g hen hg hup hidle hfront
    exact ⟨_, rfl, execBridgeSend_otherStream hen hg hup hidle hfront rfl, execBridgeSend_mark hen hg hup hidle hfront rfl,
      fun hsame hmark hgap hfill _ => execBridgeSend_gap hen hg hup hidle hfront rfl hsame hmark hgap hfill,
      fun hsame hmark htype hpos _ _ => execBridgeSend_samples hen hg hup hidle hfront rfl hsame hmark htype hpos⟩

end Machine
end Sys2Proof
end

section
/-!
ETH0 (R532–R535): what the filter lets through, the slot that a frame fills, and what is left alone.
-/

namespace Sys2Proof
namespace Machine

variable {s u : State} {bs body : List Byte} {sub : Fin 2621440}

/-- R533: the filter counts, and touches nothing else. -/
theorem State.ethFilter_rest (s : State) (bs : List Byte) : s.Rest (s.ethFilter bs).2 := by
  unfold State.ethFilter
  dsimp only
  split
  · exact .refl s
  · split
    · exact State.satInc_rest s _ 1
    · split <;> exact .refl s

theorem State.setStamp_rest (s : State) (k0 k1 k2 stamp : Nat) : s.Rest (s.setStamp k0 k1 k2 stamp) :=
  ((State.setWord_rest s _ _).trans (State.setWord_rest _ _ _)).trans (State.setWord_rest _ _ _)

theorem State.ethEvent_rest (s : State) : s.Rest s.ethEvent :=
  State.rest_ite (State.raiseInst_rest s _ _) (.refl s)

/-- R534: the frame's bytes in slot `r`, whose turn has passed. -/
def State.ethStored (s : State) (r : Nat) (body : List Byte) : State :=
  { s with eth := { s.eth with mem := Mem.writes 0#8 s.eth.mem (rxOff r) body, next := (r + 1) % 6 } }

theorem State.put_time (s : State) (f : Field) (v : Nat) : (s.put f v).time = s.time := by
  rw [State.time, State.put_tk, State.time]

/-- R534, R535: the slot's registers tell of the frame, and its event is raised. -/
def State.ethReported (s : State) (r : Nat) (body : List Byte) (sub : Nat) : State :=
  let t := (s.put (R.ETH_RXSTAT.LEN r) body.length).put (R.ETH_RXSTAT.OWN r) 0
  (t.setStamp (R.ETH_RXT0 r) (R.ETH_RXT1 r) (R.ETH_RXT2 r) (t.time + sub)).ethEvent

theorem State.ethReported_eq (s : State) (r : Nat) (body : List Byte) (sub : Nat) : s.ethReported r body sub =
    (((s.put (R.ETH_RXSTAT.LEN r) body.length).put (R.ETH_RXSTAT.OWN r) 0).setStamp (R.ETH_RXT0 r) (R.ETH_RXT1 r) (R.ETH_RXT2 r)
      (s.time + sub)).ethEvent := by
  rw [State.ethReported, State.put_time, State.put_time]

theorem State.ethReported_rest (s : State) (r : Nat) (body : List Byte) (sub : Nat) : s.Rest (s.ethReported r body sub) :=
  (((s.put_rest _ _).trans (State.put_rest _ _ _)).trans (State.setStamp_rest _ _ _ _ _)).trans (State.ethEvent_rest _)

theorem execEthFrameReceived_filtered (hfilter : s.ethFilter bs = (none, u)) : execEthFrameReceived bs sub s = .next u := by
  simp only [execEthFrameReceived, hfilter]

section
variable (hfilter : s.ethFilter bs = (some body, u))
include hfilter

theorem execEthFrameReceived_akwaune (hakw : (u.on R.ETH_CFG.AKW_EN && u.isAkwaune body) = true) :
    execEthFrameReceived bs sub s = .next u := by
  simp only [execEthFrameReceived, hfilter]
  exact if_pos hakw

variable (hakw : (u.on R.ETH_CFG.AKW_EN && u.isAkwaune body) = false)
include hakw

theorem execEthFrameReceived_noSlot (hslot : u.nextSlot = none) :
    execEthFrameReceived bs sub s = .next (u.satInc R.ETH_CNT.RX_DROP) := by
  simp only [execEthFrameReceived, hfilter, hslot]
  exact if_neg (by simp [hakw])

theorem execEthFrameReceived_slot {r : Nat} (hslot : u.nextSlot = some r) :
    execEthFrameReceived bs sub s = .next ((u.ethStored r body).ethReported r body sub) := by
  simp only [execEthFrameReceived, hfilter, hslot, hakw, Bool.false_eq_true, if_false]
  rfl

end

/-- Whatever frame arrives, either no memory changes, or its bytes are stored in the next slot. -/
theorem execEthFrameReceived_memory (s : State) (bs : List Byte) (sub : Fin 2621440) : ∃ t, execEthFrameReceived bs sub s = .next t ∧
    (s.Rest t ∨ ∃ body r, (s.ethFilter bs).1 = some body ∧ (s.ethFilter bs).2.nextSlot = some r ∧
      ((s.ethFilter bs).2.ethStored r body).Rest t) := by
  have hrest := s.ethFilter_rest bs
  rcases hfilter : s.ethFilter bs with ⟨_ | body, u⟩ <;> rw [hfilter] at hrest
  · exact ⟨_, execEthFrameReceived_filtered hfilter, .inl hrest⟩
  · cases hakw : (u.on R.ETH_CFG.AKW_EN && u.isAkwaune body) with
    | true => exact ⟨_, execEthFrameReceived_akwaune hfilter hakw, .inl hrest⟩
    | false =>
      cases hslot : u.nextSlot with
      | none => exact ⟨_, execEthFrameReceived_noSlot hfilter hakw hslot, .inl (hrest.trans (State.satInc_rest u _ 1))⟩
      | some r => exact ⟨_, execEthFrameReceived_slot hfilter hakw hslot, .inr ⟨body, r, rfl, rfl, State.ethReported_rest _ _ _ _⟩⟩

/-- R532: a busy buffer's frame has left. -/
theorem execEthTxDone_busy {t : Fin 2} (hbusy : s.eth.busy.contains t.val = true) (hlink : s.on R.ETH_CFG.LINK = true)
    (hbs : bs = Mem.reads 0 s.eth.mem (txOff t) (s.get (R.ETH_TXCTL.LEN t)))
    (hu : u = ({ s with eth := { s.eth with busy := s.eth.busy.filter (fun x => x != t.val) } }.send (.frame 2 0 (withFcs
      (fixUdp (s.get (R.ETH_TXCTL.UDP_OFF t)) bs (oneStep (s.get (R.ETH_TXCTL.OS t)) (s.get (R.ETH_TXCTL.PTP_OFF t)) (s.time + sub) bs)))))) :
    execEthTxDone t sub s =
      .next (((u.setStamp (R.ETH_TXT0 t) (R.ETH_TXT1 t) (R.ETH_TXT2 t) (s.time + sub)).put (R.ETH_TXCTL.DONE t) 1).ethEvent) := by
  subst hu hbs
  exact if_neg (by simp only [hbusy, hlink]; decide)

theorem execEth0LinkChange_enabled (up : Bool) (hen : s.on R.ETH_CFG.EN = true) :
    execEth0LinkChange up s = .next (s.put R.ETH_CFG.LINK (b2n up)) := by
  rw [execEth0LinkChange, hen, Bool.and_true]

end Machine
end Sys2Proof
end

section
namespace Sys2Proof
namespace Machine

/-- Settles O57: by where the frame goes. -/
theorem receivedFrameFillsItsSlot : Obligations.ReceivedFrameFillsItsSlot := by
  unfold Obligations.ReceivedFrameFillsItsSlot
  intro s bs sub
  obtain ⟨t, ht, hrest | ⟨body, r, hbody, hslot, hstored⟩⟩ := execEthFrameReceived_memory s bs sub
  · exact ⟨t, ht, fun a _ => by rw [hrest.eth], hrest.cache, hrest.pounds, hrest.cus, hrest.flash, hrest.panel⟩
  · have hfilter := s.ethFilter_rest bs
    refine ⟨t, ht, fun a ha => ?_, hstored.cache.trans hfilter.cache, hstored.pounds.trans hfilter.pounds,
      hstored.cus.trans hfilter.cus, hstored.flash.trans hfilter.flash, hstored.panel.trans hfilter.panel⟩
    rw [hstored.eth, ← hfilter.eth]
    exact Mem.byte_writes_outside _ _ _ _ a (ha r body hbody hslot)

end Machine
end Sys2Proof
end

section
/-!
The KX links (R537–R539, R550, R551) and the triggers that come over them and over ETH0 (R554, R555).
-/

namespace Sys2Proof
namespace Machine

variable {s u v : State}

section
variable {device : Fin 16} {l : Fin 6} {devid : Fin 262144} {m : Option (Fin 262144)} {slot : Fin 16} (hup : s.lkUp 2 = true)
  (hown : device.val = s.slot) (hstate : s.get (R.KX_LINK.STATE l) = 1)
include hup hown hstate

section
variable (hboard : l.val < 4) (hpresent : bit (s.get R.KX_CFG.PRESENT) (kxNeighbour s.slot l) = true)
  (hu : u = s.exchangeHello l devid (m.map Fin.val) slot)
include hboard hpresent hu

/-- R538: a partner in another slot than the link leads to. -/
theorem execKxHello_wrongSlot (hslot : slot.val ≠ kxNeighbour u.slot l) :
    execKxHello device l devid m slot s = .next ((u.put (R.KX_LINK.STATE l) 3).raiseInst 387 l) := by
  subst hu
  simp only [execKxHello, hboard, hstate, hpresent]
  refine (if_neg (by simp [hup])).trans ((if_neg (not_not_intro hown)).trans ((if_neg (by simp)).trans ?_))
  exact if_pos ⟨trivial, hslot⟩

theorem execKxHello_neighbour (hslot : slot.val = kxNeighbour u.slot l) :
    execKxHello device l devid m slot s = .next (u.reroute (fun s =>
      { s.put (R.KX_LINK.STATE l) 2 with kx := { (s.put (R.KX_LINK.STATE l) 2).kx with
        devs := SMap.put (s.put (R.KX_LINK.STATE l) 2).kx.devs devid.val slot.val } })) := by
  subst hu
  simp only [execKxHello, hboard, hstate, hpresent]
  refine (if_neg (by simp [hup])).trans ((if_neg (not_not_intro hown)).trans ((if_neg (by simp)).trans ?_))
  exact if_neg (fun h => h.2 hslot)

end

/-- R537: a link off the board leads to no slot. -/
theorem execKxHello_offBoard (hoff : 4 ≤ l.val) :
    execKxHello device l devid m slot s = .next ((s.exchangeHello l devid (m.map Fin.val) slot).reroute (fun s =>
      { s.put (R.KX_LINK.STATE l) 2 with kx := { (s.put (R.KX_LINK.STATE l) 2).kx with
        devs := SMap.put (s.put (R.KX_LINK.STATE l) 2).kx.devs devid.val (16 + l) } })) := by
  have hboard : ¬ l.val < 4 := by omega
  simp only [execKxHello, hboard, hstate]
  refine (if_neg (by simp [hup])).trans ((if_neg (not_not_intro hown)).trans ((if_neg (by simp)).trans ?_))
  exact if_neg (fun h => h.1)

end

theorem execKxLinkLoss_up {device : Fin 16} {l : Fin 6} (hown : device.val = s.slot) (hup : s.kxUp l = true) :
    execKxLinkLoss device l s = .next (s.linkLeft l (fun s => s.put (R.KX_LINK.STATE l) 1)) :=
  (if_neg (fun h => h.1 hown)).trans ((if_neg (not_not_intro hown)).trans (if_pos hup))

/-- R554: a trigger seen for the first time over a link of the board goes on, and is received where it names this board. -/
theorem execRemoteTriggerReceived_first {l : Fin 6} {t : KxTrigger} {sub : Fin 2621440} (hup : s.kxUp l = true)
    (hfirst : rtKey t ∉ s.kx.seen) (hboard : l.val < 4)
    (hu : u = State.gatewaySend ({ s with kx := { s.kx with seen := rtKey t :: s.kx.seen } }.spreadRt t (some l.val)) t) :
    execRemoteTriggerReceived l t sub s = .next (if t.board then u.receiveRt t (u.time + sub) else u) := by
  subst hu
  simp only [execRemoteTriggerReceived, if_pos hboard]
  exact if_neg (by simp [hup, hfirst])

theorem execRemoteTriggerDue_due {x : RtDue} {rest : List RtDue}
    (hdue : takeFirst (fun x => decide (x.due < s.time + nsUnits 40)) s.kx.due = some (x, rest)) :
    execRemoteTriggerDue s = .next ({ s with kx := { s.kx with due := rest } }.deliverRt x.rt x.stamp 4) := by
  simp only [execRemoteTriggerDue, hdue]

theorem State.akwSeqIn_time (s : State) (src seq : Nat) : (s.akwSeqIn src seq).2.time = s.time := by
  unfold State.akwSeqIn
  dsimp only
  split
  · rfl
  · split <;> rfl

/-- R555: a gateway takes in a trigger of its domain that no device of its own has sent. -/
theorem execAkwauneFrameReceived_foreign {bs body : List Byte} {sub : Fin 2621440} {missed : Nat} (hfilter : s.ethFilter bs = (some body, u))
    (hgate : (u.on R.ETH_CFG.AKW_EN && u.isGateway && u.isAkwaune body) = true) (hversion : field (body.drop 14) 0 1 = 1)
    (htype : field (body.drop 14) 1 1 = 1) (hdomain : field (body.drop 14) 2 1 = u.get R.AKW_CFG.DOMAIN)
    (hforeign : (field (body.drop 14) 4 4 % 2 ^ 18 == u.devid ||
      ((SMap.find? u.kx.devs (field (body.drop 14) 4 4 % 2 ^ 18)).getD 16 < 16)) = false)
    (hseq : u.akwSeqIn (field (body.drop 14) 4 4 % 2 ^ 18) (field (body.drop 14) 8 4) = (some missed, v)) :
    execAkwauneFrameReceived bs sub s =
      .next (v.akwTake (field (body.drop 14) 4 4 % 2 ^ 18) missed (v.time + sub) (body.drop 14)) := by
  have htime : v.time = u.time := (congrArg (fun x => x.2.time) hseq).symm.trans (u.akwSeqIn_time _ _)
  simp only [execAkwauneFrameReceived, hfilter, hgate, hversion, htype, hdomain, hforeign, hseq, htime]
  exact if_neg (by simp)

end Machine
end Sys2Proof
end

section
namespace Sys2Proof
namespace Machine

/-- Settles O20; its display clauses are O34's. -/
theorem linkNetworkCommandsAct : Obligations.LinkNetworkCommandsAct := by
  unfold Obligations.LinkNetworkCommandsAct
  refine ⟨fun _ _ _ _ hw => hw.gateAction_acts _, fun _ _ _ hbusy hlink => ⟨_, _, rfl, rfl, execEthTxDone_busy hbusy hlink rfl rfl⟩,
    ?received, ?linkChange, fun _ _ _ _ hw => hw.gateField_acts _ _, fun _ _ _ _ hw => hw.gate_acts _ _, ?hello,
    fun _ _ _ _ _ _ => execKxHello_offBoard, fun _ _ _ => execKxLinkLoss_up, fun _ _ _ _ _ => rfl, ?trigger,
    fun _ _ _ => execRemoteTriggerDue_due, fun _ _ _ _ _ _ _ => execAkwauneFrameReceived_foreign, displayCommandsAct⟩
  case received =>
    intro s u bs body sub hfilter hoff
    have hakw : (u.on R.ETH_CFG.AKW_EN && u.isAkwaune body) = false := by rw [hoff, Bool.false_and]
    refine ⟨execEthFrameReceived_noSlot hfilter hakw, fun r hslot => ?_⟩
    exact (execEthFrameReceived_slot hfilter hakw hslot).trans (congrArg _ (State.ethReported_eq _ _ _ _))
  case linkChange =>
    intro s up hen
    refine ⟨_, execEth0LinkChange_enabled up hen, State.get_put_fits _ R.ETH_CFG.LINK _ (by decide) ?_,
      State.put_onlyRegs _ R.ETH_CFG.LINK _⟩
    cases up <;> decide
  case hello =>
    intro s device l devid m slot hup hown hstate hboard hpresent
    exact ⟨_, rfl, execKxHello_wrongSlot hup hown hstate hboard hpresent rfl, execKxHello_neighbour hup hown hstate hboard hpresent rfl⟩
  case trigger =>
    intro s l t sub hup hfirst hboard
    have htrigger := execRemoteTriggerReceived_first (sub := sub) hup hfirst hboard rfl
    exact ⟨_, rfl, fun hno => htrigger.trans (congrArg _ (if_neg (by simp [hno]))), fun hyes => htrigger.trans (congrArg _ (if_pos hyes))⟩

end Machine
end Sys2Proof
end

section
/-!
The SMBus target while LK0 is UP (R597, R598, R609, R681; log entry 104).
-/

namespace Sys2Proof
namespace Machine

variable {s : State} (hup : s.lkUp 0 = true)
include hup

theorem execSmbS4Write_up (w : Word) (pec : Bool) : execSmbS4Write w pec s = .next (if pec then s.mbxIn 12 w else s) := by
  rw [execSmbS4Write, State.smbCmd_up hup]

theorem execSmbS4Read_up :
    execSmbS4Read s = .next ((s.mbxOut 12).2.send (.frame 4 0 (leBytes 4 (s.mbxOut 12).1.toNat))) := by
  rw [execSmbS4Read, State.smbCmd_up hup]

theorem execSmbS4Status_up : execSmbS4Status s = .next (s.send (.frame 4 0 [BitVec.ofNat 8 (s.mbxStat 12)])) := by
  rw [execSmbS4Status, State.smbCmd_up hup]

theorem execSmbMgmtAddr_up (w : Word) (pec : Bool) :
    execSmbMgmtAddr w pec s = .next (if pec then s.plainWrite R.MGMT_ADDR w else s) := by
  rw [execSmbMgmtAddr, State.smbCmd_up hup]

theorem execSmbMgmtData_write (w : Word) (pec : Bool) :
    execSmbMgmtData (some w) pec s = .next (if pec then s.mgmtWrite .smbus w else s) := by
  rw [execSmbMgmtData, State.smbCmd_up hup]

theorem execSmbMgmtData_read (pec : Bool) :
    execSmbMgmtData none pec s = .next ((s.readReg .smbus s.mgmtTarget 0).2.send
      (.frame 4 0 (leBytes 4 (s.readReg .smbus s.mgmtTarget 0).1.toNat))) := by
  rw [execSmbMgmtData, State.smbCmd_up hup]

end Machine
end Sys2Proof
end

section
namespace Sys2Proof
namespace Machine

/-- Settles O40: a write with a good PEC acts, one with a bad PEC does not; the monitor's clauses are O39's. -/
theorem managementBusCommandsAct : Obligations.ManagementBusCommandsAct := by
  unfold Obligations.ManagementBusCommandsAct
  exact ⟨fun _ w hup => ⟨execSmbS4Write_up hup w true, execSmbS4Write_up hup w false⟩,
    fun _ hup => ⟨execSmbS4Read_up hup, execSmbS4Status_up hup⟩,
    fun _ w hup => ⟨execSmbMgmtAddr_up hup w true, execSmbMgmtAddr_up hup w false⟩,
    fun _ w hup => ⟨execSmbMgmtData_write hup w true, execSmbMgmtData_write hup w false, execSmbMgmtData_read hup true⟩,
    monitorCommandsAct⟩

end Machine
end Sys2Proof
end
